-- ==== Sys2Proof/Word.lean ====
section
/-! DEFINITION. The word types of Crasan and their plainest conversions (R10, R11): bytes, 32-bit register words,
64-bit stamps, and little-endian byte lists. -/

namespace Sys2Proof

/-- One byte (R10). -/
abbrev Byte := BitVec 8
/-- One register word (R458). -/
abbrev Word := BitVec 32
/-- A stamp: Fabric Time in units of 1/256 ns, or any other 64-bit value (R10). -/
abbrev Stamp := BitVec 64

/-- A sparse table: keys in rising order, no entry equal to what an unlisted key reads as. -/
abbrev Map (α : Type) := List (Nat × α)

/-- The number that a little-endian byte list spells (R10). -/
def leNat : List Byte → Nat
  | [] => 0
  | b :: r => b.toNat + 256 * leNat r

/-- The `n` little-endian bytes of a number (R10). -/
def leBytes : Nat → Nat → List Byte
  | 0, _ => []
  | n + 1, v => BitVec.ofNat 8 v :: leBytes n (v / 256)

/-- Bits `lo` to `lo + w - 1` of a number (R11). -/
def bitsAt (v lo w : Nat) : Nat := v / 2 ^ lo % 2 ^ w

/-- `v` with its bits `lo` to `lo + w - 1` replaced by the low `w` bits of `x`. -/
def bitsPut (v lo w x : Nat) : Nat := v - bitsAt v lo w * 2 ^ lo + x % 2 ^ w * 2 ^ lo

/-- One bit of a number. -/
def bitAt (v i : Nat) : Bool := v / 2 ^ i % 2 == 1

/-- 1 for true, 0 for false. -/
def b2n (b : Bool) : Nat := if b then 1 else 0

/-- Division rounded up (R13). -/
def cdiv (a b : Nat) : Nat := (a + (b - 1)) / b

end Sys2Proof
end

