-- ==== Sys2Proof/Syntax.lean ====
section
/-! DEFINITION. The commands that the block takes from outside and the events that happen in it: one constructor of
`Instr` per row of the table of operations and events, with the types of their operands. -/

namespace Sys2Proof

/-- One end of a link: a router port, the port of an NI on a plane, or the port of a Span port on a plane (R150). -/
inductive Port where
  | rtr (plane r p : Nat)
  | ni (plane n : Nat)
  | span (plane k : Nat)
  deriving DecidableEq, Repr

/-- A unit with a snapshot bank (R325). -/
inductive Site where
  | ni (n : Nat)
  | rtr (plane r : Nat)
  | span (k : Nat)
  | time
  deriving DecidableEq, Repr

/-- What the check of one SECDED code finds (R107): nothing, a single-bit error that is corrected, or an uncorrectable error. -/
inductive Ecc where
  | ok
  | corr
  | bad
  deriving DecidableEq, Repr

/-- What the five checks of an arriving flit find (R107): CECC and the four data codes. The spec gives no code matrix, so that a
flit carries no check bits and each check's finding is an operand. -/
structure FlitErr where
  c : Ecc := .ok
  d0 : Ecc := .ok
  d1 : Ecc := .ok
  d2 : Ecc := .ok
  d3 : Ecc := .ok
  deriving DecidableEq, Repr

/-- The findings of one flit as a list. -/
def FlitErr.codes (e : FlitErr) : List Ecc := [e.c, e.d0, e.d1, e.d2, e.d3]
/-- The corrections made in one flit (R107). -/
def FlitErr.corrs (e : FlitErr) : Nat := e.codes.countP (fun k => k == .corr)
/-- The uncorrectable errors of one flit. -/
def FlitErr.bads (e : FlitErr) : Nat := e.codes.countP (fun k => k == .bad)
/-- Whether data code 1, 2 or 3 has an uncorrectable error. -/
def FlitErr.dn (e : FlitErr) : Bool := e.d1 == .bad || e.d2 == .bad || e.d3 == .bad
/-- Whether a head flit's control field or header is uncorrectable (R140, R672). -/
def FlitErr.head (e : FlitErr) : Bool := e.c == .bad || e.d0 == .bad

/-- The 256-bit packet header with its extension (R108, R109). `via` is 1 + k on a packet that entered the instance through
Span port k, 0 otherwise: the arrival port that R395 names. Within a Span port it is the link that the packet leaves on. -/
structure Hdr where
  ptype : Nat := 0
  op : Nat := 0
  hop : Nat := 0
  la : Nat := 0
  plane : Nat := 0
  rep : Bool := false
  ovalid : Bool := false
  unchk : Bool := false
  mc : Bool := false
  len : Nat := 0
  slice : Nat := 0
  tag : Nat := 0
  gen : Nat := 0
  src : Nat := 0
  dest : Nat := 0
  seq : Nat := 0
  bound : Nat := 0
  istamp : Stamp := 0
  path : Nat := 0
  addr : Nat := 0
  ostamp : Stamp := 0
  via : Nat := 0
  deriving DecidableEq, Repr

/-- A flit (R106): its control fields, the header on a head flit, and the payload bytes it carries (R111). `cbad` and `dbad` say
that a crossing station has found CECC or data code 0 uncorrectable and forwarded the flit unchanged (R542). -/
structure Flit where
  vc : Nat
  ft : Nat
  segb : Bool
  poison : Bool := false
  fnum : Nat := 0
  hdr : Option Hdr := none
  data : List Byte := []
  cbad : Bool := false
  dbad : Bool := false
  deriving DecidableEq, Repr

/-- What the checks of an arriving flit find, with what a station has let through. -/
def Flit.found (f : Flit) (e : FlitErr) : FlitErr :=
  { e with c := if f.cbad then .bad else e.c, d0 := if f.dbad then .bad else e.d0 }

/-- A word of an NI's tables in which a use finds an uncorrectable error (R593): a word of region descriptor `k`, entry `k` of the
process-identifier map, or a word of the multicast map that the destination names. -/
inductive SoftWord where
  | desc (k : Nat)
  | pid (k : Nat)
  | group
  deriving DecidableEq, Repr

/-- A request beat on AQI with its sideband group (R56 to R59). `now` is the NI's Fabric Time at the edge, `soft` the table words
that its checks find in error. -/
structure AqReq where
  code : BitVec 5
  id : BitVec 8 := 0
  addr : BitVec 64 := 0
  len : BitVec 14 := 0
  sc : BitVec 2 := 0
  dsel : Bool := false
  mc : Bool := false
  dest : BitVec 20 := 0
  pid : BitVec 20 := 0
  qsel : BitVec 10 := 0
  ostamp : Stamp := 0
  ovalid : Bool := false
  now : Stamp := 0
  soft : List SoftWord := []
  deriving DecidableEq, Repr

/-- A write data beat on WQI: each lane holds a byte, or nothing where its enable is low (R62, R72). -/
structure WBeat where
  sc : BitVec 2
  lanes : List (Option Byte)
  last : Bool
  deriving DecidableEq, Repr

/-- A stream packet on STI with the fields of its first beat and its payload (R57, R58, R87). -/
structure StPkt where
  sc : BitVec 2
  len : BitVec 14
  dest : BitVec 20 := 0
  mc : Bool := false
  pid : BitVec 20 := 0
  qsel : BitVec 10 := 0
  ostamp : Stamp := 0
  ovalid : Bool := false
  now : Stamp := 0
  data : List Byte := []
  soft : List SoftWord := []
  deriving DecidableEq, Repr

/-- What a LINK frame carries in CONFIG (R570): instance number, good-lane mask, WIDTH_REQ, relay role, and the credits per
VC of each VN. -/
structure LinkInfo where
  inst : Nat
  mask : Nat
  width : Nat
  role : Nat
  cred : List Nat
  deriving DecidableEq, Repr

/-- The content of a TIME frame (R320): a SYNC with its t1 and the t4 of the last DREQ, or a DREQ; times in ps. -/
inductive TimeMsg where
  | sync (t1 : Nat) (t4 : Option Nat)
  | dreq
  deriving DecidableEq, Repr

/-- A link-layer frame (R563, R564). `crc` is its CRC field, `time` the payload of a TIME frame, and `found` what the checks of the
flit that a FLIT frame carries find at the receiver (R565). -/
structure Frame where
  ftype : Nat := 0
  fseq : Nat := 0
  ack : Nat := 0xFFF
  nak : Bool := false
  cred : List Nat := []
  flit : Option Flit := none
  words : List Word := []
  link : Option LinkInfo := none
  time : Option TimeMsg := none
  crc : BitVec 32 := 0
  found : FlitErr := {}
  deriving DecidableEq, Repr

/-- A frame as it arrives, with the capture of its arrival in ps (R320). -/
structure FrameIn where
  frame : Frame
  t : Nat
  deriving DecidableEq, Repr

/-- An edge on an input pin at Fabric Time `t`, in 1/256 ns (R309, R316). -/
structure PinEdge where
  rise : Bool
  t : Nat
  deriving DecidableEq, Repr

/-- An fc edge at which an NI sets its gates: its local Fabric Time, and whether the entry in force has an uncorrectable error
(R276, R593). -/
structure GateEdge where
  t : Stamp
  mem : Bool
  deriving DecidableEq, Repr

/-- A CSR access as a master presents it (R447): offset, direction, size code (0 to 3 for 1, 2, 4, 8 B), LOCK and write
data. `id` is HC_ID on the host port. -/
structure CsrReq where
  addr : Nat
  wr : Bool
  size : Nat
  lock : Bool := false
  data : BitVec 64 := 0
  id : Nat := 0
  deriving DecidableEq, Repr

/-- A command or an event (opcode_table.json). -/
inductive Instr where
  /-- A READ request transfers at AQI; the NI takes a tag, runs the checks of R668 and queues it for release (R73). -/
  | opRead (n : Nat) (q : AqReq)
  /-- A WRITE request transfers at AQI; the NI checks it and either queues it or places it in the store buffer under R199 (R73). -/
  | opWrite (n : Nat) (q : AqReq)
  /-- A RESERVED_LOAD request transfers at AQI and is checked and queued like any request (R73). -/
  | opReservedLoad (n : Nat) (q : AqReq)
  /-- A COND_STORE request transfers at AQI and is checked and queued like any request (R73). -/
  | opCondStore (n : Nat) (q : AqReq)
  /-- An ATOMIC_SWAP request transfers at AQI and is checked and queued (R73). -/
  | opAtomicSwap (n : Nat) (q : AqReq)
  /-- An ATOMIC_ADD request transfers at AQI and is checked and queued (R73). -/
  | opAtomicAdd (n : Nat) (q : AqReq)
  /-- An ATOMIC_CAS request transfers at AQI; its target operand range is decoded and it is queued (R73). -/
  | opAtomicCas (n : Nat) (q : AqReq)
  /-- A BARRIER_ORDER transfers at AQI; the store buffer drains and later requests wait until covered work is released (R204). -/
  | opBarrierOrder (n : Nat) (q : AqReq)
  /-- A BARRIER_COMPLETE transfers at AQI; later requests wait until covered work has completed (R205). -/
  | opBarrierComplete (n : Nat) (q : AqReq)
  /-- A HANDLE_ALLOC request transfers at AQI and is sent on VN3 to the buffer pool manager's NI (R99). -/
  | opHandleAlloc (n : Nat) (q : AqReq)
  /-- A HANDLE_FREE request transfers at AQI and is sent on VN3 to the buffer pool manager's NI (R99). -/
  | opHandleFree (n : Nat) (q : AqReq)
  /-- A COMMAND request transfers at AQI and becomes a CMD packet toward the Starter's home NI (R486). -/
  | opCommand (n : Nat) (q : AqReq)
  /-- A write data beat transfers at WQI and is matched to its request; a LAST mismatch discards data with UNSUPPORTED_OP (R72). -/
  | wqiData (n : Nat) (b : WBeat)
  /-- A stream packet's first beat transfers at STI; the NI checks it and queues or drops it (R87). -/
  | stiPacket (n : Nat) (p : StPkt)
  /-- A waiting packet enters its injection queue once queue depth and free buffer flits allow (R252). -/
  | packetAdmit (n : Nat) (st : Bool)
  /-- A target endpoint returns a response on RPI with its delivery tag; the NI fixes illegal codes and sends it toward the requester (R77). -/
  | rpiResponse (n dtag sc status : Nat) (data : List Byte)
  /-- An endpoint raises an event on SBI_EVT_VALID and the NI queues or merges it (R95). -/
  | sbiEvt (n : Nat) (code : BitVec 16)
  /-- The NI takes one queued endpoint event per fc and sets its EP_EVENT cause (R95). -/
  | epEventTake (n : Nat)
  /-- EP_RST_N asserts; the NI withdraws beats, answers requests with EP_RESET and drains its store buffer (R97). -/
  | epRstAssert (n : Nat)
  /-- EP_RST_N deasserts and is synchronised in the endpoint clock domain (R96). -/
  | epRstDeassert (n : Nat)
  /-- After endpoint reset the NI raises NI_UP once every tag held before the reset is free (R98). -/
  | niUpRise (n : Nat)
  /-- A request's completion timeout expires; the NI ends it, frees the tag and reports TIMEOUT or BARRIER_FAULT (R210). -/
  | ctoExpire (n tag part : Nat)
  /-- A barrier's condition first holds; 4 fc later it is answered and later requests become eligible (R669). -/
  | barrierDone (n : Nat)
  /-- An egress half has held VALID without READY beyond the stall limit; the NI counts it and sets STALL (R103). -/
  | stallLimitExpire (n half : Nat)
  /-- A response packet reaches its requester NI and is matched by tag, generation and source, or discarded (R117). -/
  | rspArrival (n : Nat)
  /-- A write of 0 to NI.ORD_CFG.SB_EN drains the store buffer and makes later EA writes bypass it (R202). -/
  | sbEnClear (m n : Nat) (v : Word)
  /-- A write of 1 to NI.SB_LOG_INFO.CLR clears VALID and re-arms the store log (R223). -/
  | sbLogClr (m n : Nat) (v : Word)
  /-- Each fc the NI's injection scheduler considers the classes in order and releases at most one packet into the planes (R254). -/
  | packetRelease (n : Nat) (t : Stamp) (mem : Bool)
  /-- A selected SC0 packet is released on every attached plane in the first cycle both outputs allow (R256). -/
  | sc0Release (n : Nat) (t : Stamp)
  /-- The plane-skew limit expires; the SC0 packet goes on the ready plane and the other copy moves to the system queue (R257). -/
  | sc0Skew (n : Nat) (t : Stamp)
  /-- A flit enters a router input register, is ECC-checked and buffered, and a head flit requests its output (R151). -/
  | routerFlitArrival (plane r p : Nat) (e : FlitErr)
  /-- An output holds an arbitration phase, ranks requesters by class, level and rotation and grants one segment (R163). -/
  | arbPhase (o : Port)
  /-- An owner's segment does not finish within the grant-hold limit; the grant is cut off and the overrun logged (R172). -/
  | grantOverrun (o : Port)
  /-- A credit vector arrives at an output; valid credits raise counters, parity failures and overflows are reported (R155). -/
  | creditVectorArrival (o : Port) (flip : BitVec 17)
  /-- An output's credit counters load VC_DEPTH once the far end's ready indication arrives (R154). -/
  | creditLoad (o : Port)
  /-- A crossing station passes a flit or segment from its upstream queue to the downstream clock (R539). -/
  | xingFlit (o : Port) (vc : Nat) (e : FlitErr)
  /-- A station half finds its far half not alive in native mode and isolates, reporting and broadcasting ISOLATE (R550). -/
  | xingIsolate (o : Port)
  /-- In forerunner mode a station half flushes silently when its far half is reset or not alive (R552). -/
  | xingFlush (o : Port)
  /-- An NI receives ISOLATE for a region and answers outstanding requests through it with CROSS_RESET (R551). -/
  | isolateReceive (n : Nat)
  /-- A flit reaches a destination NI from a plane; it is checked and the packet is judged, delivered, held or dropped (R672). -/
  | niFlitArrival (plane n : Nat) (e : FlitErr) (t : Stamp)
  /-- The target NI delivers a request on AQE with a delivery tag and owner-slice tag (R77). -/
  | targetDelivery (n : Nat) (t : Stamp)
  /-- The NI starts a port segment on an egress half for the highest ready class whose gate is open (R274). -/
  | egressSegmentStart (n half : Nat) (rdy : BitVec 4) (t : Stamp)
  /-- A twin-table entry reaches its timeout; the missing plane's count rises and TWIN_MISS is raised (R402). -/
  | twinTmo (n ctx seq : Nat)
  /-- A resequencing context's gap timer expires and the context is flushed in SEQ order (R405). -/
  | gapTmo (n ctx : Nat)
  /-- Command 0x10 checks a route entry, computes its bound and writes it with UNCHK = 0 (R131). -/
  | routeSet (x : Nat)
  /-- Command 0x11 applies the ROUTE_SET checks to an entry as it stands and clears UNCHK on success (R132). -/
  | routeCheck (x : Nat)
  /-- A raw CMX write to a route entry word changes it and sets its UNCHK (R137). -/
  | rtabRawWrite (m t e p : Nat) (v : BitVec 64)
  /-- The Starter recomputes every bound-floor frequency and pin and clears FLOOR_BUSY when done (R240). -/
  | floorRecompute
  /-- A raw write to an SC0 reservation by a master other than the Starter clears its GRANTED (R228). -/
  | sc0RsvWrite (m n j w : Nat) (v : Word)
  /-- A write to NI.LATE_CFG.HIST_EN claims or releases the NI's spare capture timer for the late histogram (R246). -/
  | histEnWrite (m n : Nat) (v : Word)
  /-- A late-histogram window ends; the bins are copied to NI.LATE_HIST and zeroed (R246). -/
  | histWindowEnd (n : Nat)
  /-- A write of 1 to NI.LATE_CFG.MAX_CLR zeroes NI.LAT_MAX (R247). -/
  | latMaxClr (m n : Nat) (v : Word)
  /-- A write to NI.Q_SHARE stages new QUANTUM and DEPTH, active at the queue's next refill (R264). -/
  | qShareWrite (m n : Nat) (v : Word)
  /-- A write of 1 to NI.Q_IDX.SAMP_CLR zeroes the selected queue's maximum samples (R284). -/
  | sampClr (m n : Nat) (v : Word)
  /-- At its sampling slot the NI samples a queue's depth and head delay (R284). -/
  | queueSample (n q : Nat)
  /-- Every 16 ns of local Fabric Time each SC1 shaper applies pending values and refills its credit (R268). -/
  | shaperRefill (n : Nat)
  /-- A non-Starter write to a shaper's RATE or BURST stages the value and clears GRANTED (R267). -/
  | shaperWrite (m n k w : Nat) (v : Word)
  /-- At each whole microsecond the NI resets its SC2 and SC3 remainders from the allowances less overdraft (R272). -/
  | allowanceWindow (n : Nat)
  /-- At each fc edge the NI sets its class gates from the operating list and local Fabric Time (R276). -/
  | gateUpdate (n : Nat) (e : GateEdge)
  /-- A write of 1 to NI.GATE_CTL.SWAP checks the admin list and makes it pending for its start time (R278). -/
  | gateSwap (m n : Nat) (v : Word)
  /-- A write of 1 to NI.GATE_CTL.CANCEL withdraws a pending gate list (R279). -/
  | gateCancel (m n : Nat) (v : Word)
  /-- A pending gate list reaches its start time and becomes the operating list (R278). -/
  | gateListStart (n : Nat) (t : Stamp)
  /-- A write to NI.GATE_CTL.MARK_EN claims or releases a TIME_EVT pin for gate markers (R282). -/
  | markEnWrite (m n : Nat) (v : Word)
  /-- An NI sends a gate-marker instant to the Time Unit, which queues it or counts it late (R318). -/
  | markerAnnounce (n t : Nat)
  /-- The Time Unit drives an 8 ns gate-marker pulse on the claimed pin at the queued instant (R318). -/
  | markerPulse (k : Nat)
  /-- The Time Tree root sends a marker with its time, INC and any pending step every 1,024 tc (R292). -/
  | timeMarker
  /-- A marker reaches a node, which forwards it, measures its error and updates tracking every 16 markers (R293). `x` is what the node's TDC measures from the last carrier edge to the arrival, in 2^-32 ns. -/
  | markerArrival (r x : Nat)
  /-- A hop calibration run of 256 pings ends and loads HOP_DLY or fails (R296). -/
  | calRunDone (r : Nat) (rtt : List (Option Nat))
  /-- The calibration period passes and the Time Unit recalibrates the next tree level or retries failed hops (R298). -/
  | calPeriod
  /-- The Time Unit freezes a region's hop set and acknowledges after two markers (R299). -/
  | hopFreeze (g : Nat)
  /-- A step reaches its marker instant and sets Fabric Time at every node (R303). -/
  | timeStepApply
  /-- 10 µs after a step, Fabric Time becomes valid again (R303). -/
  | stepWindowEnd
  /-- A PPS_IN edge is captured and accepted as a sample or counted as spurious (R309). -/
  | ppsInEdge (e : PinEdge)
  /-- No PPS edge is accepted by the expected second plus the window; the sample is missed (R309). -/
  | ppsMiss
  /-- The PTP engine loads a time of day through the Time Set port, accepted or rejected (R310). -/
  | tsetLoad (sec : BitVec 48) (ns : BitVec 32)
  /-- A Span link exchanges SYNC and DREQ time frames and computes the child's offset (R320). The four times, in ps, are those that the frames of the link's exchange gave. -/
  | spanTimeExchange (k t1 t2 t3 t4 : Nat)
  /-- Each 1 ms the child takes the mean offset as its sample, or records a missed sample (R320). -/
  | spanTimeSample (k : Nat)
  /-- HOLD_ELAPSED exceeds HOLD_LIM and the Time Unit enters EXPIRED (R306). -/
  | holdoverExpire
  /-- Each microsecond the Time Unit counts carrier edges and detects carrier loss (R312). -/
  | carrierCheck (count : Nat)
  /-- The carrier has been present for 1 ms; the state becomes UNSET and the tree recalibrates (R312). -/
  | carrierReturn
  /-- Command 0x20 labels the next PPS edge or schedules a step to a given time (R311). -/
  | timeSet (x : Nat)
  /-- Command 0x21 slews or steps Fabric Time by an offset in INTERNAL state (R311). -/
  | timeAdjust (x : Nat)
  /-- Command 0x22 recalibrates every hop that is neither frozen nor running (R311). -/
  | timeCal (x : Nat)
  /-- Command 0x23 returns TIME.STAT, OFFSET, SKEW and HOLD_ELAPSED (R311). -/
  | timeStatus (x : Nat)
  /-- A TIME_ADJUST slew removes its remaining offset and returns adj to 0 (R311). -/
  | slewEnd
  /-- A write of 1 to TIME.NOW_CAP.CAP captures the root's Fabric Time and stamp (R322). -/
  | nowCap (m : Nat) (v : Word)
  /-- A write of 1 to TIME.NOW_CAP.SKEW_CLR zeroes SKEW.MAX (R322). -/
  | skewClr (m : Nat) (v : Word)
  /-- A write of 1 to TIME.CTL.ELOCK locks the epoch until HRST_N or POR (R289). -/
  | elockSet (m : Nat) (v : Word)
  /-- A write to TIME.EVT[k].SYNC_EN claims a pin for time sync, preempting any owner (R317). -/
  | syncEnWrite (m k : Nat) (v : Word)
  /-- Time sync drives a pulse on its pin at each multiple of PERIOD (R317). -/
  | syncPulse (k : Nat)
  /-- PPS_OUT rises before each whole second of Fabric Time and falls after OUT_W (R316). `up` tells the rising edge from the falling one. -/
  | ppsOutPulse (up : Bool)
  /-- An input edge on a TIME_EVT pin is captured for its owner (R316). -/
  | timeEvtEdge (k : Nat) (e : PinEdge)
  /-- Command 0x80 checks and arms a snapshot slot in TIME or PIN mode (R326). -/
  | pfArm (x : Nat)
  /-- Command 0x81 returns a Photo Finish slot's registers (R343). -/
  | pfStatus (x : Nat)
  /-- Command 0x82 empties a slot's banks and frees its timers, pin claim and leave (R334). -/
  | pfRelease (x : Nat)
  /-- Command 0x83 disarms a slot before T_c and enters CANCELLED (R333). -/
  | pfCancel (x : Nat)
  /-- The first accepted edge on the trigger pin fixes T_c and sends the arm broadcast (R328). -/
  | pfPinTrigger (slot : Nat)
  /-- A participant receives the arm broadcast, or records MISSED if it arrives after T_c (R330). -/
  | pfArmReceive (slot : Nat) (u : Site) (t : Stamp)
  /-- A participant captures its state at its first fc edge at or after T_c (R329). -/
  | pfCapture (slot : Nat) (u : Site) (t : Stamp)
  /-- At T_c + 1 µs the engine gathers bank states and enters CAPTURED or PARTIAL (R331). -/
  | pfCollect (slot : Nat)
  /-- Command 0x88 starts evidence, emitting GENESIS or continuing the chain (R342). -/
  | evStart (x : Nat)
  /-- Command 0x89 emits a STOP record and clears EN (R343). -/
  | evStop (x : Nat)
  /-- Command 0x8A emits a DEMAND record (R343). -/
  | evMark (x : Nat)
  /-- Command 0x8B returns the chain head's SEQ and hash (R343). -/
  | evStatus (x : Nat)
  /-- An evidence interval boundary builds a PERIODIC record or counts a skipped interval (R336). -/
  | evdBoundary (t : Nat)
  /-- A record write completes; a failure keeps it in the hold buffer for retry (R341). -/
  | evdWriteResult
  /-- 1 µs after a failed write the record is retried; a second failure sets RING_FAULT (R341). -/
  | evdRetry
  /-- Command 0x30 opens a heat slot and records its age, client, slice and SPAN flag (R346). -/
  | heatOpen (x : Nat)
  /-- Command 0x31 checks up to 7 actions and sends each as a STAGE message (R366). -/
  | heatStage (x : Nat)
  /-- Command 0x32 starts the vote at once or schedules it for a given T (R374). -/
  | heatCommit (x : Nat)
  /-- Command 0x33 aborts a heat with USER before ARM (R382). -/
  | heatAbort (x : Nat)
  /-- Command 0x34 returns a heat slot's registers (R390). -/
  | heatStatus (x : Nat)
  /-- Command 0x35 frees a COMMITTED or ABORTED slot (R390). -/
  | heatClose (x : Nat)
  /-- Command 0x36 retries reconciliation of a straggler target (R386). -/
  | heatReconcile (x : Nat)
  /-- Command 0x36 with MODE drop removes a target from the straggler map without applying (R387). -/
  | heatReconcileDrop (x : Nat)
  /-- Command 0x37 returns a heat's straggler map (R390). -/
  | heatStragglers (x : Nat)
  /-- A target NI receives a STAGE, checks the action, settles conflicts by age and stages it in shadow (R352). -/
  | stageReceive (n : Nat)
  /-- The HCU receives a STAGE_ACK and aborts the heat unless it is OK (R366). -/
  | stageAckReceive (n : Nat) (mem : Ecc)
  /-- A STAGE_ACK does not arrive within STAGE_US and the heat aborts with TIMEOUT (R366). -/
  | stageAckTmo (slot aseq : Nat)
  /-- A scheduled heat reaches T minus START_ADV and enters VOTING (R361). -/
  | heatScheduledStart (slot : Nat)
  /-- A target receives PREPARE and votes YES or NO with a reason (R367). -/
  | prepareReceive (n hid inst : Nat) (mem : Bool)
  /-- The PREPARE collect returns; the heat passes to LEAVE or aborts (R367). -/
  | voteCollectDone (slot : Nat) (w : Word)
  /-- With leave granted and the Relay Tree free the HCU fixes T and sends COMMIT (R369). -/
  | heatCommitSend (slot : Nat)
  /-- A target receives COMMIT_AT_T and acknowledges YES, or NO for invalid time or false start (R369). -/
  | commitReceive (n hid inst : Nat) (tt t : Stamp)
  /-- The COMMIT collect returns; the HCU sends ARM by the deadline or aborts (R370). -/
  | commitCollectDone (slot : Nat) (w : Word)
  /-- A COMMITTED target receives ARM in time and becomes ARMED, or ignores a late ARM (R376). -/
  | armReceive (n hid inst per : Nat) (t : Stamp)
  /-- An armed target applies every staged item at its first fc edge at or after T (R371). -/
  | heatApply (n hid inst : Nat) (t : Stamp) (mem : Bool)
  /-- A target still COMMITTED at T does not apply and becomes a straggler (R384). -/
  | heatMiss (n hid inst : Nat) (t : Stamp)
  /-- A target receives ABORT, frees the heat's shadow entries, clears GLOCK and sends DISCARD (R382). -/
  | abortReceive (n hid inst : Nat)
  /-- At T plus the settle time the HCU runs SETTLE and MAP collects and enters COMMITTED or COMMITTED_STRAGGLER (R372). -/
  | heatSettle (slot : Nat) (w : Word) (maps : List Word)
  /-- COMMIT or ARM cannot leave by its deadline and the heat aborts with DEADLINE (R375). -/
  | heatDeadline (slot : Nat)
  /-- Leave for a heat commit is not granted within LEAVE_US and the heat aborts with NO_LEAVE (R368). -/
  | leaveTmo (slot : Nat)
  /-- A relay collect does not complete in four times its time and is treated as a relay fault (R363). -/
  | relayFault (slot : Nat)
  /-- The HCU starts reconciling a straggler when the Starter reports its NI up (R386). -/
  | reconcileStart (n : Nat)
  /-- A target receives a RECONCILE in PROBE, APPLY, REPLAY or END mode and answers with STAGE_ACK (R386). -/
  | reconcileReceive (n : Nat) (t : Stamp) (mem : Bool)
  /-- After the last heat leaves SETTLING the Starter takes leave and makes a TAKE commit (R609). -/
  | heatCrcRecommit
  /-- Command 0x60 takes a plane out of service by drain or force (R417). -/
  | planeDetach (x : Nat)
  /-- Command 0x61 probes a detached plane through every checked entry (R413). -/
  | planeTest (x : Nat)
  /-- Command 0x62 sets T_j and brings a tested plane back into service (R414). -/
  | planeAttach (x : Nat)
  /-- Command 0x63 resets a detached or faulted plane and cuts partial packets (R412). -/
  | planeReset (x : Nat)
  /-- Command 0x64 returns PLN.STAT and PLN.JOIN_T (R417). -/
  | planeStatus (x : Nat)
  /-- Every 1 µs in DRAINING a collect tests whether the plane is empty (R409). -/
  | planeDrainCheck (p : Nat)
  /-- DRAIN_TMO expires; the plane is reset and DETACHED (R408). -/
  | planeDrainTmo (p : Nat)
  /-- A plane fault reaches the event unit, which broadcasts PLANE_DOWN and marks the plane FAULTED (R411). -/
  | planeFailover
  /-- An NI receives a plane state broadcast and moves staged packets off an unusable plane (R398). -/
  | planeStateReceive (n : Nat) (t : Stamp)
  /-- A plane test ends and TEST_PASS is set or the first failure logged (R413). -/
  | planeTestEnd (p : Nat)
  /-- Local Fabric Time reaches T_j and the plane becomes usable (R414). -/
  | planeJoin (p : Nat) (n : Option Nat) (t : Stamp)
  /-- A write to NI.RSQ_CTL.REORDER claims or releases the resequencer buffer for reordering (R407). -/
  | reorderWrite (m n : Nat) (v : Word)
  /-- Command 0x40 writes a process-identifier map entry (R442). -/
  | sliceMap (x : Nat)
  /-- Command 0x41 writes a slice's share at an NI (R442). -/
  | sliceShare (x : Nat)
  /-- Command 0x42 closes a slice and drains or squashes it (R436). -/
  | sliceReset (x : Nat)
  /-- Command 0x43 reopens a CLOSED slice (R435). -/
  | sliceOpen (x : Nat)
  /-- Command 0x44 returns a slice's state and reset log (R442). -/
  | sliceStatus (x : Nat)
  /-- Command 0x45 repeats collects until no tags of the slice toward a node remain (R434). -/
  | sliceMigSync (x : Nat)
  /-- An NI receives CLOSE and closes the slice at admission, drains stores and clears reservations (R436). -/
  | sliceCloseReceive (n sl : Nat)
  /-- Every 1 µs the slice manager collects the slice's outstanding work and completes the reset at zero (R437). -/
  | sliceCollect (sl : Nat)
  /-- DRAIN_TMO expires and the slice manager sends SQUASH (R435). -/
  | sliceDrainTmo (sl : Nat)
  /-- An NI receives SQUASH and discards or frees the slice's queued work and tags (R438). -/
  | sliceSquashReceive (n sl : Nat)
  /-- QUIESCE_TMO expires and the slice enters FAILED (R439). -/
  | sliceQuiesceTmo (sl : Nat)
  /-- A SLICE_MIG_SYNC collect returns a count and the command replies at zero or its limit (R434). -/
  | migSyncCollect
  /-- A write of 1 to NI.MIG_CTL.SWAP exchanges dirty banks and clears the new active bank (R430). -/
  | migSwap (m n : Nat) (v : Word)
  /-- A write to NI.MIG_CTL.STAGE claims or releases the resequencer buffer for staging (R431). -/
  | migStage (m n : Nat) (v : Word)
  /-- A write to NI.MIG_CTL.HOLD starts holding, or delivers held requests and ends the hold (R433). -/
  | migHold (m n : Nat) (v : Word)
  /-- The host presents a CSR access on the host port and the CMX accepts it (R447). -/
  | hcRequest (q : CsrReq)
  /-- HC_RST_N asserts; pending requests are withdrawn and host responses discarded (R448). -/
  | hcRstAssert
  /-- A target's arbiter grants one access by level and rotation (R455). -/
  | cmxArbPhase (t : Nat)
  /-- A granted access is performed at its target under the width, alignment and lock rules (R457). -/
  | cmxAccess (x : Nat)
  /-- A write to a register without its own row is performed, partly performed or refused LOCKED_WRITE (R667). -/
  | registerWrite (m : Nat) (q : CsrReq)
  /-- A 4-byte write to a pair's low word is held in the master's write stage (R461). -/
  | pairLowWrite (m : Nat) (q : CsrReq)
  /-- A staged low word of master 4 is discarded after 256 fc without its high word (R462). -/
  | pairStageTmo (t : Nat)
  /-- An access is not answered within CMX.TMO and is answered TIMEOUT (R453). -/
  | cmxTimeout (x : Nat)
  /-- A locked sequence exceeds LOCK_MAX and the CMX breaks the lock with cause 1 (R467). -/
  | lockMaxExpire (t : Nat)
  /-- A MGMT register read or write arrives at an NI and is performed, queued, passed on or refused (R449). -/
  | mgmtReceive (n : Nat)
  /-- A MGMT response reaches the NI function that sent the request, or is dropped (R450). -/
  | mgmtResponse (n : Nat)
  /-- A write to CMX.CTL.REMAP changes what the Starter core sees at address 0 (R472). -/
  | remapWrite (m : Nat) (v : Word)
  /-- The boot ROM self-check and fuse read complete and the core enters LOAD, VERIFY or FAILED (R475). -/
  | bootSelfcheck (ok : Bool)
  /-- A write of 1 to STR.LOAD_CTL.START enters LOAD and zeroes the load pointer (R476). -/
  | loadStart (m : Nat) (v : Word)
  /-- A write to STR.LOAD_DATA stores an image word and advances the pointer (R476). -/
  | loadData (m : Nat) (v : Word)
  /-- A write of 1 to STR.LOAD_CTL.GO ends the load and enters VERIFY (R476). -/
  | loadGo (m : Nat) (v : Word)
  /-- Image verification ends and the core enters RUN or FAILED (R478). -/
  | bootVerifyDone
  /-- The Starter watchdog expires and resets the Starter core (R502). -/
  | wdogExpire
  /-- A write of 1 to STR.WDOG.KICK restarts the watchdog (R502). -/
  | wdogKick (m : Nat) (v : Word)
  /-- The Starter core alone is reset; executing commands reply STARTER_RESET and the image is reverified (R480). -/
  | starterCoreReset
  /-- A write of 1 to MBX[m].DOORBELL submits the mailbox's command packet (R484). -/
  | mbxDoorbell (m k : Nat) (v : Word)
  /-- MSP code 0x10 writes packet bytes from 0 into MBX3's command buffer (R485). -/
  | mspBlockWriteLow (l : List Byte) (pec : Option Byte)
  /-- MSP code 0x11 writes packet bytes from 128 into MBX3's command buffer (R485). -/
  | mspBlockWriteHigh (l : List Byte) (pec : Option Byte)
  /-- MSP code 0x12 rings MBX3's doorbell (R485). -/
  | mspDoorbell (d : Byte) (pec : Option Byte)
  /-- MSP code 0x13 returns MBX3 BUSY, DONE and OVERRUN and clears DONE (R485). -/
  | mspStatusRead
  /-- MSP code 0x14 returns reply bytes 0 to 127 (R485). -/
  | mspReplyReadLow
  /-- MSP code 0x15 returns reply bytes 128 to 255 (R485). -/
  | mspReplyReadHigh
  /-- The MSP matcher recognises its address, stretches SCL and may wake the instance (R485). -/
  | mspAddressMatch
  /-- MBX3 is not ready within 24 ms; the matcher releases SCL and NACKs (R485). -/
  | mspStretchLimit
  /-- A CMD packet reaches the front end and is buffered, or refused QUEUE_FULL or ACCESS_DENIED (R487). -/
  | cmdPacketReceive (n : Nat)
  /-- The front end starts a queued command in stream order within the concurrency limit (R490). -/
  | cmdStart (x : Nat)
  /-- A command's limit passes before its reply and the front end replies TIMEOUT (R492). -/
  | cmdTimeout (x : Nat)
  /-- A command reply packet reaches the requester NI and is returned as RPE data (R486). -/
  | cmdReplyReceive (n : Nat)
  /-- Command 0x00 returns STR.BOOT in every boot state (R496). -/
  | ping (x : Nat)
  /-- Command 0x01 returns firmware version, GEN_ID and command status (R496). -/
  | info (x : Nat)
  /-- Command 0x02 returns the owner of a claimed resource (R496). -/
  | claimStatus (x : Nat)
  /-- Command 0x03 releases a claim as if its owner had cleared its enable (R496). -/
  | claimRelease (x : Nat)
  /-- Command 0x04 takes leave, makes a TAKE commit at PACE 0 and returns the new reference (R613). -/
  | cfgRecompute (x : Nat)
  /-- Command 0x05 writes STR.CMD_AUTH and REMOTE_CMD and updates the NI mirrors (R496). -/
  | authSet (x : Nat)
  /-- Command 0x12 writes an SC0 reservation and grants it after the checks of R233 (R497). -/
  | rsvSc0 (x : Nat)
  /-- Command 0x13 clears an SC0 reservation's VALID and GRANTED (R497). -/
  | rsvSc0Free (x : Nat)
  /-- Command 0x14 writes a shaper's RATE and BURST and grants it under the rate cap (R497). -/
  | rsvSc1 (x : Nat)
  /-- Command 0x15 clears a shaper's GRANTED (R497). -/
  | rsvSc1Free (x : Nat)
  /-- Command 0x50 requests a power state for regions or the instance (R508). -/
  | pwrState (x : Nat)
  /-- Command 0x51 requests a frequency and voltage step for a region (R518). -/
  | pwrDvfs (x : Nat)
  /-- Command 0x52 returns Pacer status, governor level, leave state and region status (R530). -/
  | pwrStatus (x : Nat)
  /-- Command 0x53 writes the governor refill and cap (R530). -/
  | pwrBudget (x : Nat)
  /-- Command 0x54 writes a region's class policies and broadcasts them (R530). -/
  | pwrPolicy (x : Nat)
  /-- Command 0x55 writes the wake source enables and PPS count (R530). -/
  | pwrWake (x : Nat)
  /-- An NI applies a broadcast of the open mask and class policies to its mirror (R509). -/
  | pwrMaskReceive (n : Nat)
  /-- Every 1 µs in CLOSING a collect counts the work that still involves the region (R511). -/
  | closingCollect (g : Nat)
  /-- A region entry does not finish within ENTRY_US and aborts with DRAIN_FAIL (R510). -/
  | entryLimit (g : Nat)
  /-- At edge Q the Pacer samples wake sources and commits or aborts the region's entry (R514). -/
  | entryCommit (g : Nat)
  /-- WAKE_N is sampled low and wakes the instance or aborts its entry (R653). -/
  | wakeNLow
  /-- An NI holding a packet for a closed region sends or repeats a Relay Tree wake request (R513). -/
  | relayWakeRequest (n : Nat)
  /-- The count of accepted PPS_IN edges since entry reaches PPS_COUNT and wakes the instance (R515). -/
  | ppsWakeCount
  /-- A packet held for a closed region exceeds HOLD_US and is refused or dropped (R513). -/
  | pwrHoldTmo (n q : Nat)
  /-- WAKING completes and the region enters RUN and opens (R516). -/
  | wakeDone (g : Nat)
  /-- An IDLE region has been quiet for IDLE_Q × 64 fc and gates its fabric clock (R507). -/
  | idleGate (g : Nat)
  /-- A flit, credit, ingress VALID or CMX access reopens an IDLE region's clock gate (R507). -/
  | idleUngate (g : Nat)
  /-- The clock generator acknowledges a frequency change and the step proceeds (R649). -/
  | fcAck (g : Nat)
  /-- The regulator signals the supply settled and the step or transition proceeds (R649). -/
  | vrOk (g : Nat)
  /-- A clock or supply acknowledgement does not arrive in time; the step is undone (R520). -/
  | supplyTmo (g : Nat)
  /-- Every 1 µs the governor refills its bucket, subtracts estimated energy and sets allowances (R521). -/
  | governorWindow (temps : List (Option Int))
  /-- An operation asks the governor for leave and joins its queue (R525). -/
  | leaveRequest (kind who : Nat)
  /-- The governor grants the leave request at the head of its queue once conditions allow (R525). -/
  | leaveGrant
  /-- A holder returns its leave and frees its place (R525). -/
  | leaveReturn (kind who : Nat)
  /-- A region's supply crosses the warning threshold; its hop set freezes and leave is withheld (R528). -/
  | droopWarn (g uv : Nat)
  /-- The supply stays above the warning threshold for 25 ac; the warning clears and the hop set recalibrates (R528). -/
  | droopWarnClear (g : Nat)
  /-- A region's supply crosses the reset threshold and the region is reset as a fault (R529). -/
  | droopReset (g uv : Nat)
  /-- A region shows fewer than 4 fabric clock edges in an ac and is reset for a clock fault (R537). -/
  | clockFault (g edges : Nat)
  /-- POR_N asserts and clears the whole macro, sticky fields included (R543). -/
  | por
  /-- HRST_N asserts and resets everything except sticky fields, the Pacer block and the always-on domain (R543). -/
  | hrst
  /-- A write of 1 to a bit of GLB.RST_CTL.REGION resets that region (R558). -/
  | rstCtlRegion (m : Nat) (v : Word)
  /-- A write of 1 to GLB.RST_NI.GO resets the selected NI (R558). -/
  | rstNiGo (m : Nat) (v : Word)
  /-- A region or NI reset is released; generations advance and the BASE broadcast resets contexts (R548). -/
  | resetRelease (ni : Bool) (k : Nat)
  /-- An input port's far end enters reset and the port completes partial packets with a poisoned tail (R547). -/
  | farEndReset (o : Port)
  /-- After a reset the Starter restores configuration and the region opens at the first matching scan (R553). -/
  | regionRecovery (g : Nat)
  /-- A start-up step ends and the sequence moves to the next step or reaches READY (R555). -/
  | startupStepDone
  /-- The fuse-read port answers with DBG_DIS and the evidence key (R616). -/
  | fuseRead (dis : Bool) (key : List Byte)
  /-- The fuse port does not answer within 64 ac; debug is disabled and the key taken as zero (R617). -/
  | fuseTmo
  /-- Command 0x70 trains a Span link with leave (R586). -/
  | spanTrain (x : Nat)
  /-- Command 0x71 takes a Span link to HELD (R586). -/
  | spanDown (x : Nat)
  /-- Command 0x72 writes a Span port's lane split (R586). -/
  | spanSplit (x : Nat)
  /-- Command 0x73 returns every link's status, far instance, lanes, RTT and counts (R586). -/
  | spanStatus (x : Nat)
  /-- A link training state completes its work and the link moves on (R570). -/
  | trainStateDone (k j : Nat) (classes : List Nat) (rev : Bool) (rtt : Nat)
  /-- A training state overruns its limit and the attempt fails (R570). -/
  | trainStateTmo (k j : Nat)
  /-- RETRY_MS passes in DOWN and a new training starts with leave (R570). -/
  | spanDownRetry (k j : Nat)
  /-- A Span frame arrives; its CRC, ACK, NAK, credits and FSEQ are checked and payload accepted (R565). -/
  | spanFrameReceive (k j : Nat) (f : FrameIn)
  /-- In each frame slot the sender picks replay, relay, link, time, flit or idle (R568). `words` are relay words that the relay root hands over, `time` the capture, in ps, of a TIME frame that is due (R320). -/
  | spanFrameSend (k j : Nat) (words : List Word) (time : Option Nat)
  /-- No ACK progress within REPLAY_TMO and the sender replays (R566). -/
  | replayTmo (k j : Nat)
  /-- An active lane loses lock or signal and a forced retrain starts (R573). -/
  | laneLoss (k j l : Nat) (signal : Bool)
  /-- An excluded OPEN lane shows signal for 100 ms and a voluntary retrain is requested (R573). -/
  | laneRestore (k j l : Nat)
  /-- A 1 ms window ends and lanes whose errors exceed FEC_THR are classed NOISY (R571). -/
  | fecWindow (k j corr uncorr : Nat) (errs : List Nat)
  /-- A link enters DOWN; its replay buffer is discarded and partial packets completed (R574). -/
  | linkDownEntry (k j : Nat)
  /-- A packet arriving at a Span port is forwarded by its ranges, entering the planes or another link, or dropped (R578). -/
  | spanForward (k src vc : Nat) (e : FlitErr)
  /-- A Span receive or crossbar VC's front flit does not move for STALL_US and its packet is dropped (R580). -/
  | spanStall (k j vc : Nat) (xb : Bool)
  /-- A unit sets an event cause, asserting its source and driving lines, messages and the error log (R595). -/
  | causeSet (k j bit : Nat)
  /-- A write of 1 to EVT.FIRST_INFO.CLR re-arms the FIRST log (R614). -/
  | firstLogClr (m : Nat) (v : Word)
  /-- A write of 1 to EVT.NEXT_INFO.CLR clears the NEXT log's VALID (R614). -/
  | nextLogClr (m : Nat) (v : Word)
  /-- A configuration CRC pass starts every PERIOD_US or at the end of the previous pass (R606). -/
  | crcPassStart
  /-- A pass ends and compares shares with the reference, counting mismatches and applying the policy (R610). -/
  | crcPassEnd
  /-- A commit with MODE TAKE restarts the pass and takes its values as the reference (R608). -/
  | crcCommitTake (m : Nat) (v : Word)
  /-- A commit with MODE GIVEN waits for a pass that matches the written reference (R608). -/
  | crcCommitGiven (m : Nat) (v : Word)
  /-- The IDCODE instruction shifts out the macro's 32-bit identification (R619). -/
  | tapIdcode
  /-- The BYPASS instruction selects the 1-bit bypass register (R619). -/
  | tapBypass
  /-- An Update-DR of DBG_ACC with GO issues one master 2 CMX access (R620). -/
  | dbgAcc (w : BitVec 96)
  /-- A Capture-DR of TRACE_RD shifts out the trace entry at the pointer and advances it (R619). -/
  | traceRd
  /-- Test-Logic-Reset or TRST_N resets the debug port and acts as master 2's owner reset (R621). -/
  | tapReset
  /-- A write to TRC.CTL.EN arms or stops the trace and claims or releases its pin (R624). -/
  | trcEnWrite (m : Nat) (v : Word)
  /-- Trace recording begins at the start time or trigger edge and raises TRC_TRIG (R624). -/
  | trcStartEvent (t : Stamp) (rise : Bool)
  /-- A write to DBG.TEST_CTL.MODE enters or leaves FREEZE or BIST (R626). -/
  | testModeWrite (m : Nat) (v : Word)
  /-- A write of 1 to DBG.TEST_CTL.STR_RST resets the Starter core (R629). -/
  | strRstWrite (m : Nat) (v : Word)
  /-- BIST finishes and reports its result in DBG.STAT (R626). -/
  | bistDone (fail : Option Nat)
  /-- Command 0xF0 returns DBG.STAT and TRC.PTR (R628). -/
  | dbgStatus (x : Nat)
  /-- Command 0xF1 arms the trace (R628). -/
  | trcStart (x : Nat)
  /-- Command 0xF2 stops the trace (R628). -/
  | trcStop (x : Nat)
  /-- Command 0xF3 enters a test mode (R628). -/
  | testEnter (x : Nat)
  /-- Command 0xF4 leaves FREEZE (R628). -/
  | testExit (x : Nat)
  /-- HC_RST_N deasserts, so the host port may raise HC_REQ_READY again and treats every later request as a new one (R448). -/
  | hcRstDeassert
  /-- POR_N or HRST_N deasserts, is synchronised to each domain, and the start-up sequence and the boot ROM begin (R555). -/
  | porHrstDeassert
  /-- The governor has not granted leave within 100 µs of PF_ARM; the command is refused NO_LEAVE and its claims are released (R327). -/
  | pfArmLeaveTmo (slot : Nat)
  deriving DecidableEq, Repr

end Sys2Proof
end

