-- ==== Sys2Proof/Decode.lean ====
section
/-! DEFINITION. The commands that words spell. No row of the opcode table gives bits: the block takes its commands at its ports
and from time, not as encoded words, so no word spells one. -/

namespace Sys2Proof

/-- The command that `nbits` bits `w` spell: none. -/
def decodeTableWord (_nbits _w : Nat) : Option Instr := none

end Sys2Proof
end

