-- ==== Sys2Proof/Config.lean ====
section
/-! DEFINITION. What one generated instance fixes (R1, R2, R39): the Topology Descriptor ROM, the straps, the ROM image
outside the spec, and the free values, each an opaque constant that no proof can see into. -/

namespace Sys2Proof

/-- An NI record of the ROM (R45). STAGES_A and STAGES_B are equal, so that `stages` stands for both. -/
structure NiRec where
  rtr : Nat := 0
  port : Nat := 0
  region : Nat := 0
  epWidth : Nat := 0
  epRole : Nat := 0
  stages : Nat := 0
  sched : Nat := 0
  pidMap : Nat := 64
  reseq : Nat := 64
  epClkMax : Nat := 500
  deriving DecidableEq, Repr, Inhabited

/-- A router record of the ROM (R47). -/
structure RtrRec where
  region : Nat := 0
  radix : Nat := 3
  relayParent : Nat := 0xFFFF
  relayLevel : Nat := 0
  timeParent : Nat := 0xFFFF
  timeLevel : Nat := 0
  placeX : Nat := 0
  placeY : Nat := 0
  deriving DecidableEq, Repr, Inhabited

/-- A link record of the ROM (R48). XING follows from the regions of the two ends (R29). -/
structure LinkRec where
  router : Nat := 0
  port : Nat := 0
  farKind : Nat := 0
  stages : Nat := 0
  farIndex : Nat := 0
  farPort : Nat := 0
  wireUm : Nat := 0
  deriving DecidableEq, Repr, Inhabited

/-- A region record of the ROM (R50). FLAGS and the two counts follow from the other records. -/
structure RegionRec where
  vNom : Nat := 0
  fcMax : Nat := 0
  fcMin : Nat := 0
  deriving DecidableEq, Repr, Inhabited

/-- A Span port record of the ROM (R51). -/
structure SpanRec where
  lanes : Nat := 8
  region : Nat := 0
  rtr : Nat := 0
  port : Nat := 0
  deriving DecidableEq, Repr, Inhabited

/-- A frequency-ceiling record of the ROM (R52). -/
structure CeilRec where
  region : Nat := 0
  mv : Nat := 0
  fmax : Nat := 0
  deriving DecidableEq, Repr, Inhabited

/-- The Topology Descriptor ROM of an instance (R41 to R53), with the index and region that each relay node holds in
hardwired form, which start-up compares with the router section (R54). Turn maps are the 144-bit numbers of R49. -/
structure Rom where
  magic : Nat := 0x4E535243
  fmtVer : Nat := 3
  genId : Nat := 0
  diameter : Nat := 1
  vcDepth : Nat := 4
  homeRegion : Nat := 0
  nis : List NiRec := []
  rtrs : List RtrRec := []
  links : List LinkRec := []
  turns : List Nat := []
  regions : List RegionRec := []
  spans : List SpanRec := []
  ceils : List CeilRec := []
  /-- The CRC word the ROM holds (R53). -/
  crc : Nat := 0
  /-- Hardwired (router index, region) of each relay node (R54). -/
  wired : List (Nat × Nat) := []
  deriving DecidableEq, Repr, Inhabited

/-! ### What the records determine -/

/-- The largest of a list of numbers, 0 for none. -/
def maxOf (l : List Nat) : Nat := l.foldl max 0

/-- RELAY_DEPTH: the largest RELAY_LEVEL of any router record, at least 1 (R666). -/
def Rom.relayDepth (r : Rom) : Nat := max 1 (maxOf (r.rtrs.map (fun x => x.relayLevel)))
/-- MAX_RADIX: the largest router radix (R42). -/
def Rom.maxRadix (r : Rom) : Nat := maxOf (r.rtrs.map (fun x => x.radix))
/-- FC_MAX_MHZ of the header: the highest fabric clock of any region (R42). -/
def Rom.fcMax (r : Rom) : Nat := maxOf (r.regions.map (fun x => x.fcMax))
/-- FC_MIN_MHZ of the header: the lowest fabric clock of any region (R42). -/
def Rom.fcMin (r : Rom) : Nat := (r.regions.map (fun x => x.fcMin)).foldl min r.fcMax

/-- Whether the ends of a link lie in different regions, so that it holds one crossing station; where they lie in one region it
holds none (R29). -/
def Rom.xing (r : Rom) (l : LinkRec) : Bool :=
  let near := (r.rtrs.getD l.router {}).region
  match l.farKind with
  | 1 => near != (r.rtrs.getD l.farIndex {}).region
  | 2 => near != (r.nis.getD l.farIndex {}).region
  | 3 => near != (r.spans.getD l.farIndex {}).region
  | _ => false

/-- Whether router `k` lets a packet that entered on port `i` leave on port `o`: never on the port it entered, nor on one at or
above its radix (R49, R178). -/
def Rom.turn (r : Rom) (k i o : Nat) : Bool :=
  let x := (r.rtrs.getD k {}).radix
  i != o && decide (i < x) && decide (o < x) && r.turns.getD k 0 / 2 ^ (12 * i + o) % 2 == 1

/-! ### Legal instances (R38, R39) -/

/-- The far end of a link record is a unit of the instance, joined to this port on its own side as well. -/
def Rom.linkWf (r : Rom) (l : LinkRec) : Bool :=
  decide (l.router < r.rtrs.length) && decide (l.port < (r.rtrs.getD l.router {}).radix) && decide (l.stages ≤ 3)
  && decide (l.wireUm < 2 ^ 16) && match l.farKind with
    | 1 => decide (l.farIndex < r.rtrs.length) && decide (l.farPort < (r.rtrs.getD l.farIndex {}).radix)
        && r.links.any (fun m => m.router == l.farIndex && m.port == l.farPort && m.farKind == 1 && m.farIndex == l.router
          && m.farPort == l.port && m.stages == l.stages)
    | 2 => match r.nis[l.farIndex]? with
      | some x => x.rtr == l.router && x.port == l.port && x.stages == l.stages
      | none => false
    | 3 => match r.spans[l.farIndex]? with
      | some x => x.rtr == l.router && x.port == l.port
      | none => false
    | _ => false

/-- A region's frequency-ceiling records: 2 to 16 of them, MV rising within the Run range of VDD_RG (550 to 880 mV,
21_integration_and_electrical.md), FMAX_MHZ not falling, from FC_MIN_MHZ on, and FC_MAX_MHZ allowed at V_NOM_MV (R39, R52). -/
def Rom.ceilWf (r : Rom) (g : Nat) (x : RegionRec) : Bool :=
  let c := r.ceils.filter (fun c => c.region == g)
  decide (2 ≤ c.length) && decide (c.length ≤ 16) && c.all (fun x => decide (550 ≤ x.mv) && decide (x.mv ≤ 880))
  && (c.zip (c.drop 1)).all (fun p => decide (p.1.mv < p.2.mv) && decide (p.1.fmax ≤ p.2.fmax))
  && decide (x.fcMin ≤ (c.headD {}).fmax) && decide (x.fcMax ≤ maxOf ((c.filter (fun p => p.mv ≤ x.vNom)).map (fun p => p.fmax)))

/-- Every parameter of the instance has a legal value, the records name units of the instance, and a section's records stand in
ascending order (R43), links by ROUTER and PORT, ceilings by REGION and MV (R29, R38, R39, R44 to R52, R290, R666). -/
def Rom.wf (r : Rom) : Bool :=
  let reg (g : Nat) : Bool := decide (g < r.regions.length)
  decide (2 ≤ r.nis.length) && decide (r.nis.length ≤ 256) && decide (1 ≤ r.rtrs.length) && decide (r.rtrs.length ≤ 160)
  && decide (1 ≤ r.regions.length) && decide (r.regions.length ≤ 16) && decide (r.spans.length ≤ 4) && reg r.homeRegion
  && decide (1 ≤ r.diameter) && decide (r.diameter ≤ 16) && decide (4 ≤ r.vcDepth) && decide (r.vcDepth ≤ 8)
  && decide (r.genId < 2 ^ 32) && decide (r.turns.length = r.rtrs.length)
  && r.nis.zipIdx.all (fun e => reg e.1.region && decide (e.1.epWidth ≤ 4) && decide (e.1.epRole ≤ 15) && decide (e.1.stages ≤ 3)
    && decide (e.1.sched ≤ 3) && [64, 128, 256, 512, 1024].contains e.1.pidMap && [64, 128, 256].contains e.1.reseq
    && decide (500 ≤ e.1.epClkMax) && decide (e.1.epClkMax ≤ 2400)
    && r.links.any (fun l => l.router == e.1.rtr && l.port == e.1.port && l.farKind == 2 && l.farIndex == e.2))
  && decide ((r.nis.filter (fun x => x.epRole == 3)).length ≤ 1)
  && r.rtrs.zipIdx.all (fun e => reg e.1.region && decide (3 ≤ e.1.radix) && decide (e.1.radix ≤ 12) && decide (e.1.relayLevel ≤ 8)
    && decide (e.1.timeLevel ≤ 8) && (if e.1.relayLevel = 0 then e.1.relayParent == 0xFFFF else
      decide (e.1.relayParent < r.rtrs.length) && decide ((r.rtrs.getD e.1.relayParent {}).relayLevel + 1 = e.1.relayLevel))
    && (if e.1.timeLevel = 0 then e.1.timeParent == 0xFFFF else
      decide (e.1.timeParent < r.rtrs.length) && decide ((r.rtrs.getD e.1.timeParent {}).timeLevel + 1 = e.1.timeLevel)))
  && decide ((r.rtrs.filter (fun x => x.relayLevel == 0)).length = 1)
  && decide ((r.rtrs.filter (fun x => x.timeLevel == 0 && x.region == r.homeRegion)).length = 1)
  && decide ((r.rtrs.filter (fun x => x.timeLevel == 0)).length = 1)
  && r.links.all r.linkWf && ((r.links.zip (r.links.drop 1)).all (fun p => decide (16 * p.1.router + p.1.port < 16 * p.2.router + p.2.port)))
  && r.regions.zipIdx.all (fun e => decide (200 ≤ e.1.fcMin) && decide (e.1.fcMin ≤ e.1.fcMax) && decide (e.1.fcMax ≤ 2400)
    && r.ceilWf e.2 e.1)
  && r.spans.zipIdx.all (fun e => reg e.1.region && decide (e.1.lanes = 8)
    && r.links.any (fun l => l.router == e.1.rtr && l.port == e.1.port && l.farKind == 3 && l.farIndex == e.2))
  && r.ceils.all (fun c => reg c.region) && (r.ceils.zip (r.ceils.drop 1)).all (fun p => decide (p.1.region ≤ p.2.region))

/-- The smallest instance: two NIs at one router in one region. -/
def Rom.smallest : Rom where
  nis := [{ port := 0 }, { port := 1 }]
  rtrs := [{}]
  links := [{ port := 0, farKind := 2 }, { port := 1, farKind := 2, farIndex := 1 }]
  turns := [2 ^ 1 + 2 ^ 12]
  regions := [{ vNom := 800, fcMax := 2400, fcMin := 200 }]
  ceils := [{ mv := 750, fmax := 2000 }, { mv := 800, fmax := 2400 }]

/-- The straps (R8, R485, R633). -/
structure Straps where
  g2 : Bool := false
  mspAsel : Nat := 0
  instId : Nat := 0
  deriving DecidableEq, Repr, Inhabited

namespace Config

/-- What Olnar generated: fixed for the instance (R39), so no proof may know it. [DESIGN CHOICE: log 7] -/
opaque generated : Rom

/-- The generated instance's ROM. Olnar generates no instance with a parameter outside its legal values (R39), so that the second
branch stands for no hardware. [DESIGN CHOICE: log 113] -/
def rom : Rom := if generated.wf then generated else Rom.smallest

/-- The straps as the board ties them (R633). [DESIGN CHOICE: log 7] -/
opaque straps : Straps

/-- CECC of a flit's control bits and one data code of 256 data bits (R106), whose matrices the spec does not give.
[DESIGN CHOICE: log 124] -/
opaque cecc : Nat → BitVec 6
opaque decc : Nat → BitVec 10

/-- PAYLOAD of a TIME or LINK frame with the given content, whose layout the spec does not give (R564).
[DESIGN CHOICE: log 124] -/
opaque frameBits : List Nat → Nat

/-- A value the spec leaves open, taken fresh for each use of the counter `State.free`. [DESIGN CHOICE: log 8] -/
opaque freeValue : Nat → BitVec 64

/-- BOUND of a route without replication whose computed bound does not fit 16 bits. [DEDUCED: log 44] -/
opaque wideBound : Nat → BitVec 16


/-- Contents of the Starter boot ROM by byte offset, which the spec does not give (R451). [DESIGN CHOICE: log 7] -/
opaque bootRom : Nat → Byte

/-- The vendor key digest held in the boot ROM (R478): the 32 bytes of a SHA-256 digest. [DESIGN CHOICE: log 7] -/
opaque vendorDigest : List Byte

end Config
end Sys2Proof
end

