-- ==== Sys2Proof/Machine/RegTypes.lean ====
section
/-! DEFINITION. How a register table is written down (R19 to R22, R633): access codes, locks, reset values, fields,
registers, and the units of the CSR window. -/

namespace Sys2Proof.Machine

/-- The access codes of R19. -/
inductive Acc where
  | ro | rw | w1c | wo | rwl | rws | ros
  deriving DecidableEq, Repr

/-- What protects a field against a write (R19 RWL, R464, R667): nothing; NI.RTAB_CTRL.LOCK, which the Starter passes;
masters 1 and 2 only; master 1 only; INST.LOCK; a set-only lock for masters 1 and 2; a GRANTED reservation anywhere or at
the NI; a pending gate list; the backlog of the selected queue; the Span route-table lock; the epoch lock; an armed trace;
the fused debug disable; a set-only bit; the debug port only; a busy
mailbox; a Span link outside DOWN and HELD; running evidence; masters 0, 1 and 2, or 0 and 2; an endpoint window held by a
heat; masters 1 and 2 with the debug fuse clear. -/
inductive Lock where
  | free | rtab | m12 | m1 | inst | set12 | glbGrant | niGrant | pend | backlog | spRtab | elock | trcEn | dbgDis | setOnly
  | m2 | cmdBusy | nego | evEn | m012 | m02 | epHeld | dbg12
  deriving DecidableEq, Repr

/-- A reset value (R633): a number, or a value taken from the ROM, a strap or an index. -/
inductive Rst where
  | v (n : Nat)
  | genId | instId | g2 | asel | numNi | numSpan | numRegion | relayDepth | numRtr | diameter | vcDepth | home | idx
  | niRegion | epWidth | sched | epRole | radix | rtrRegion | plane | fcMin | fcMax | vNom | smod16 | homeNi | allRegions
  | lead | guard | spanRegion | mspAddr | xing | spanRtr
  deriving DecidableEq, Repr

/-- A field of a register. `cov` says the configuration CRC covers it. -/
structure FSpec where
  lo : Nat
  w : Nat
  acc : Acc
  rst : Rst
  lock : Lock
  cov : Bool
  deriving DecidableEq, Repr

/-- A register or an array of `count` registers `stride` bytes apart. `pair` marks the low word of a 64-bit pair. -/
structure RSpec where
  off : Nat
  count : Nat
  stride : Nat
  pair : Bool
  fields : List FSpec
  deriving DecidableEq, Repr

/-- The place of one field in its unit's window. -/
structure Fld where
  off : Nat
  lo : Nat
  w : Nat
  stride : Nat
  deriving DecidableEq, Repr

/-- Field `f` of array element `k`. -/
def Fld.ix (f : Fld) (k : Nat) : Fld := { f with off := f.off + f.stride * k }

/-- The kinds of unit in the CSR window (R630). -/
inductive UK where
  | glb | str | tim | hcu | pcr | evt | slc | cmx | rom | pf | dbg | trc | sram | brom | ni | rtr | sp
  deriving DecidableEq, Repr

/-- A unit of the window: its kind, index, plane, base offset and target number (R451). -/
structure Un where
  kind : UK
  i : Nat := 0
  p : Nat := 0
  base : Nat := 0
  target : Nat := 0
  deriving DecidableEq, Repr

end Sys2Proof.Machine
end

