-- ==== Sys2Proof/Machine/Fields.lean ====
section
/-! DEFINITION. Every register field of the spec under its own name: UNIT_REGISTER_FIELD, with its offset in the unit's
window, its lowest bit, its width and, for an array, the stride. -/

namespace Sys2Proof.Machine.F

abbrev GLB_ID_MFR : Fld := ⟨0x0, 0, 11, 4⟩
abbrev GLB_ID_PART : Fld := ⟨0x0, 12, 16, 4⟩
abbrev GLB_ID_VER : Fld := ⟨0x0, 28, 4, 4⟩
abbrev GLB_REV_GEN : Fld := ⟨0x4, 0, 4, 4⟩
abbrev GLB_REV_STEP : Fld := ⟨0x4, 8, 4, 4⟩
abbrev GLB_REV_ROM_FMT : Fld := ⟨0x4, 16, 8, 4⟩
abbrev GLB_GEN_ID_ID : Fld := ⟨0x8, 0, 32, 4⟩
abbrev GLB_INST_NUM : Fld := ⟨0xC, 0, 12, 4⟩
abbrev GLB_INST_LOCK : Fld := ⟨0xC, 31, 1, 4⟩
abbrev GLB_COMPAT_G2 : Fld := ⟨0x10, 0, 1, 4⟩
abbrev GLB_COMPAT_STRAP : Fld := ⟨0x10, 1, 1, 4⟩
abbrev GLB_STRAP_MSP_ASEL : Fld := ⟨0x14, 0, 2, 4⟩
abbrev GLB_STRAP_CMPT_G2 : Fld := ⟨0x14, 4, 1, 4⟩
abbrev GLB_STRAP_INST_ID : Fld := ⟨0x14, 16, 12, 4⟩
abbrev GLB_CAP0_NUM_NI : Fld := ⟨0x18, 0, 9, 4⟩
abbrev GLB_CAP0_NUM_SPAN : Fld := ⟨0x18, 12, 3, 4⟩
abbrev GLB_CAP0_NUM_REGION : Fld := ⟨0x18, 16, 5, 4⟩
abbrev GLB_CAP0_RELAY_DEPTH : Fld := ⟨0x18, 24, 4, 4⟩
abbrev GLB_CAP1_NUM_RTR : Fld := ⟨0x1C, 0, 8, 4⟩
abbrev GLB_CAP1_DIAMETER : Fld := ⟨0x1C, 8, 5, 4⟩
abbrev GLB_CAP1_VC_DEPTH : Fld := ⟨0x1C, 16, 4, 4⟩
abbrev GLB_CAP1_HOME_REGION : Fld := ⟨0x1C, 24, 4, 4⟩
abbrev GLB_SCRATCH_DATA : Fld := ⟨0x20, 0, 32, 4⟩
abbrev GLB_SC0_CFG_Q : Fld := ⟨0x80, 0, 4, 4⟩
abbrev GLB_SC0_STAT_GRANTED : Fld := ⟨0x84, 0, 13, 4⟩
abbrev GLB_SC0_STAT_FLOOR_BUSY : Fld := ⟨0x84, 16, 1, 4⟩
abbrev GLB_RST_CTL_REGION : Fld := ⟨0xC0, 0, 16, 4⟩
abbrev GLB_RST_NI_NI : Fld := ⟨0xC4, 0, 8, 4⟩
abbrev GLB_RST_NI_GO : Fld := ⟨0xC4, 31, 1, 4⟩
abbrev GLB_RST_STAT_CAUSE : Fld := ⟨0xC8, 0, 3, 4⟩
abbrev GLB_RST_STAT_REGION : Fld := ⟨0xC8, 16, 16, 4⟩
abbrev GLB_START_STAT_STEP : Fld := ⟨0xCC, 0, 4, 4⟩
abbrev GLB_START_STAT_READY : Fld := ⟨0xCC, 8, 1, 4⟩
abbrev GLB_START_STAT_FAIL : Fld := ⟨0xCC, 9, 1, 4⟩
abbrev GLB_TOPO_ERR_CODE : Fld := ⟨0xD0, 0, 4, 4⟩
abbrev GLB_TOPO_ERR_NODE : Fld := ⟨0xD0, 16, 16, 4⟩
abbrev GLB_RECOV_RECOV : Fld := ⟨0xD4, 0, 16, 4⟩
abbrev GLB_RECOV_ISO : Fld := ⟨0xD4, 16, 16, 4⟩
abbrev GLB_RG_CAUSE_CAUSE : Fld := ⟨0xE0, 0, 2, 4⟩
abbrev STR_PLN_CFG_AUTO_FAIL : Fld := ⟨0x800, 0, 1, 4⟩
abbrev STR_PLN_CFG_OVR_FAULT : Fld := ⟨0x800, 1, 1, 4⟩
abbrev STR_PLN_CFG_MISS_FAULT : Fld := ⟨0x800, 2, 1, 4⟩
abbrev STR_PLN_CFG_DRAIN_TMO : Fld := ⟨0x800, 8, 8, 4⟩
abbrev STR_PLN_CFG_JOIN_LEAD : Fld := ⟨0x800, 16, 16, 4⟩
abbrev STR_PLN_STAT_STATE_A : Fld := ⟨0x804, 0, 3, 4⟩
abbrev STR_PLN_STAT_STATE_B : Fld := ⟨0x804, 4, 3, 4⟩
abbrev STR_PLN_STAT_CAUSE_A : Fld := ⟨0x804, 8, 4, 4⟩
abbrev STR_PLN_STAT_CAUSE_B : Fld := ⟨0x804, 12, 4, 4⟩
abbrev STR_PLN_STAT_TEST_PASS_A : Fld := ⟨0x804, 16, 1, 4⟩
abbrev STR_PLN_STAT_TEST_PASS_B : Fld := ⟨0x804, 17, 1, 4⟩
abbrev STR_PLN_STAT_FAULT_A : Fld := ⟨0x804, 24, 1, 4⟩
abbrev STR_PLN_STAT_FAULT_B : Fld := ⟨0x804, 25, 1, 4⟩
abbrev STR_PLN_JOIN_T_LO_T : Fld := ⟨0x808, 0, 32, 4⟩
abbrev STR_PLN_JOIN_T_HI_T : Fld := ⟨0x80C, 0, 32, 4⟩
abbrev STR_PLN_FAIL_CNT_COUNT : Fld := ⟨0x810, 0, 32, 4⟩
abbrev STR_PLN_TEST_LOG_NI : Fld := ⟨0x814, 0, 8, 4⟩
abbrev STR_PLN_TEST_LOG_ENTRY : Fld := ⟨0x814, 16, 9, 4⟩
abbrev STR_CTL_REMOTE_CMD : Fld := ⟨0x0, 0, 1, 4⟩
abbrev STR_BOOT_STATE : Fld := ⟨0x4, 0, 3, 4⟩
abbrev STR_BOOT_ERR : Fld := ⟨0x4, 4, 4, 4⟩
abbrev STR_BOOT_FW_OK : Fld := ⟨0x4, 8, 1, 4⟩
abbrev STR_FW_VER_VER : Fld := ⟨0x8, 0, 32, 4⟩
abbrev STR_LOAD_CTL_START : Fld := ⟨0xC, 0, 1, 4⟩
abbrev STR_LOAD_CTL_GO : Fld := ⟨0xC, 1, 1, 4⟩
abbrev STR_LOAD_CTL_PTR : Fld := ⟨0xC, 8, 18, 4⟩
abbrev STR_LOAD_DATA_WORD : Fld := ⟨0x10, 0, 32, 4⟩
abbrev STR_CMD_CFG_DEF_TMO : Fld := ⟨0x14, 0, 16, 4⟩
abbrev STR_PATH_MASK_MBX : Fld := ⟨0x18, 0, 16, 4⟩
abbrev STR_PATH_MASK_MSP : Fld := ⟨0x18, 16, 16, 4⟩
abbrev STR_PATH_MASK_VN3_VN3 : Fld := ⟨0x1C, 0, 16, 4⟩
abbrev STR_CMD_STAT_ACTIVE : Fld := ⟨0x20, 0, 5, 4⟩
abbrev STR_CMD_STAT_VN3Q : Fld := ⟨0x20, 8, 6, 4⟩
abbrev STR_CMD_STAT_QFULL : Fld := ⟨0x20, 16, 1, 4⟩
abbrev STR_CMD_STAT_ERR : Fld := ⟨0x20, 17, 1, 4⟩
abbrev STR_CMD_CNT_COUNT : Fld := ⟨0x24, 0, 32, 4⟩
abbrev STR_QFULL_CNT_COUNT : Fld := ⟨0x28, 0, 32, 4⟩
abbrev STR_CMX_LOCK_LOCK : Fld := ⟨0x2C, 0, 1, 4⟩
abbrev STR_MSP_CFG_ADDR : Fld := ⟨0x30, 0, 7, 4⟩
abbrev STR_MSP_CFG_PEC_REQ : Fld := ⟨0x30, 8, 1, 4⟩
abbrev STR_WDOG_LIMIT : Fld := ⟨0x34, 0, 16, 4⟩
abbrev STR_WDOG_KICK : Fld := ⟨0x34, 31, 1, 4⟩
abbrev STR_HOME_NI_NI : Fld := ⟨0x38, 0, 8, 4⟩
abbrev STR_CMD_AUTH_MASK : Fld := ⟨0x100, 0, 32, 4⟩
abbrev STR_MBX_DOORBELL : Fld := ⟨0x200, 0, 1, 16⟩
abbrev STR_MBX_BUSY : Fld := ⟨0x200, 8, 1, 16⟩
abbrev STR_MBX_DONE : Fld := ⟨0x200, 9, 1, 16⟩
abbrev STR_MBX_OVERRUN : Fld := ⟨0x200, 10, 1, 16⟩
abbrev STR_CLAIM_PIN_OWNER : Fld := ⟨0x300, 0, 3, 4⟩
abbrev STR_CLAIM_PIN_NI : Fld := ⟨0x300, 8, 8, 4⟩
abbrev STR_CLAIM_PIN_PREEMPT : Fld := ⟨0x300, 16, 1, 4⟩
abbrev STR_CLAIM_IDX_NI : Fld := ⟨0x310, 0, 8, 4⟩
abbrev STR_CLAIM_NI_TIMER : Fld := ⟨0x314, 0, 2, 4⟩
abbrev STR_CLAIM_NI_RESEQ : Fld := ⟨0x314, 4, 2, 4⟩
abbrev STR_MBX0_CMD_W : Fld := ⟨0x2000, 0, 32, 4⟩
abbrev STR_MBX0_RSP_W : Fld := ⟨0x2100, 0, 32, 4⟩
abbrev STR_MBX1_CMD_W : Fld := ⟨0x2200, 0, 32, 4⟩
abbrev STR_MBX1_RSP_W : Fld := ⟨0x2300, 0, 32, 4⟩
abbrev STR_MBX2_CMD_W : Fld := ⟨0x2400, 0, 32, 4⟩
abbrev STR_MBX2_RSP_W : Fld := ⟨0x2500, 0, 32, 4⟩
abbrev STR_MBX3_CMD_W : Fld := ⟨0x2600, 0, 32, 4⟩
abbrev STR_MBX3_RSP_W : Fld := ⟨0x2700, 0, 32, 4⟩
abbrev TIM_CTL_SRC : Fld := ⟨0x0, 0, 2, 4⟩
abbrev TIM_CTL_SPAN_PORT : Fld := ⟨0x0, 2, 2, 4⟩
abbrev TIM_CTL_PPS_POL : Fld := ⟨0x0, 4, 1, 4⟩
abbrev TIM_CTL_PPS_OUT_EN : Fld := ⟨0x0, 5, 1, 4⟩
abbrev TIM_CTL_ELOCK : Fld := ⟨0x0, 8, 1, 4⟩
abbrev TIM_CTL_STEP_EN : Fld := ⟨0x0, 9, 1, 4⟩
abbrev TIM_STAT_STATE : Fld := ⟨0x4, 0, 3, 4⟩
abbrev TIM_STAT_VALID : Fld := ⟨0x4, 4, 1, 4⟩
abbrev TIM_STAT_TRACE : Fld := ⟨0x4, 5, 1, 4⟩
abbrev TIM_STAT_CARRIER_OK : Fld := ⟨0x4, 6, 1, 4⟩
abbrev TIM_STAT_CAL_BUSY : Fld := ⟨0x4, 7, 1, 4⟩
abbrev TIM_STAT_FREEZE : Fld := ⟨0x4, 8, 1, 4⟩
abbrev TIM_STAT_STEP_PEND : Fld := ⟨0x4, 9, 1, 4⟩
abbrev TIM_STAT_SLEW : Fld := ⟨0x4, 10, 1, 4⟩
abbrev TIM_STAT_UNLOCK : Fld := ⟨0x4, 16, 1, 4⟩
abbrev TIM_STAT_PPS_MISS : Fld := ⟨0x4, 17, 1, 4⟩
abbrev TIM_STAT_CAL_FAIL : Fld := ⟨0x4, 18, 1, 4⟩
abbrev TIM_STAT_CARRIER_LOSS : Fld := ⟨0x4, 19, 1, 4⟩
abbrev TIM_STAT_STEP_DONE : Fld := ⟨0x4, 20, 1, 4⟩
abbrev TIM_STAT_TSET_REJ : Fld := ⟨0x4, 21, 1, 4⟩
abbrev TIM_EPOCH_LO_SEC : Fld := ⟨0x8, 0, 32, 4⟩
abbrev TIM_EPOCH_HI_SEC : Fld := ⟨0xC, 0, 16, 4⟩
abbrev TIM_NOW_CAP_CAP : Fld := ⟨0x10, 0, 1, 4⟩
abbrev TIM_NOW_CAP_SKEW_CLR : Fld := ⟨0x10, 1, 1, 4⟩
abbrev TIM_NOW_SEC_LO_SEC : Fld := ⟨0x14, 0, 32, 4⟩
abbrev TIM_NOW_SEC_HI_SEC : Fld := ⟨0x18, 0, 16, 4⟩
abbrev TIM_NOW_NS_NS : Fld := ⟨0x1C, 0, 30, 4⟩
abbrev TIM_NOW_FRAC_FRAC : Fld := ⟨0x20, 0, 16, 4⟩
abbrev TIM_NOW_STAMP_LO_STAMP : Fld := ⟨0x24, 0, 32, 4⟩
abbrev TIM_NOW_STAMP_HI_STAMP : Fld := ⟨0x28, 0, 32, 4⟩
abbrev TIM_INC_LO_INC : Fld := ⟨0x30, 0, 32, 4⟩
abbrev TIM_INC_HI_INC : Fld := ⟨0x34, 0, 8, 4⟩
abbrev TIM_FREQ_ADJ_ADJ : Fld := ⟨0x38, 0, 32, 4⟩
abbrev TIM_OFFSET_E : Fld := ⟨0x3C, 0, 32, 4⟩
abbrev TIM_SERVO_KP : Fld := ⟨0x40, 0, 4, 4⟩
abbrev TIM_SERVO_KI : Fld := ⟨0x40, 4, 4, 4⟩
abbrev TIM_SERVO_LOCK_CNT : Fld := ⟨0x40, 8, 4, 4⟩
abbrev TIM_SERVO_MISS_CNT : Fld := ⟨0x40, 12, 4, 4⟩
abbrev TIM_SERVO_FREQ_LIM : Fld := ⟨0x40, 16, 12, 4⟩
abbrev TIM_THR_LOCK_THR : Fld := ⟨0x44, 0, 16, 4⟩
abbrev TIM_THR_UNLOCK_THR : Fld := ⟨0x44, 16, 16, 4⟩
abbrev TIM_STEP_THR_NS : Fld := ⟨0x48, 0, 32, 4⟩
abbrev TIM_PPS_CFG_WIN : Fld := ⟨0x4C, 0, 16, 4⟩
abbrev TIM_PPS_CFG_OUT_W : Fld := ⟨0x4C, 16, 10, 4⟩
abbrev TIM_PPS_IN_DLY_DLY : Fld := ⟨0x50, 0, 32, 4⟩
abbrev TIM_PPS_OUT_ADV_ADV : Fld := ⟨0x54, 0, 16, 4⟩
abbrev TIM_HOLD_LIM : Fld := ⟨0x58, 0, 16, 4⟩
abbrev TIM_HOLD_ELAPSED_MS : Fld := ⟨0x5C, 0, 32, 4⟩
abbrev TIM_CAL_CFG_PERIOD : Fld := ⟨0x60, 0, 8, 4⟩
abbrev TIM_CAL_STAT_FAIL_NODE : Fld := ⟨0x64, 16, 16, 4⟩
abbrev TIM_NODE_IDX_NODE : Fld := ⟨0x68, 0, 16, 4⟩
abbrev TIM_NODE_DLY_DLY : Fld := ⟨0x6C, 0, 16, 4⟩
abbrev TIM_NODE_STAT_VALID : Fld := ⟨0x70, 0, 1, 4⟩
abbrev TIM_NODE_STAT_CAL : Fld := ⟨0x70, 1, 1, 4⟩
abbrev TIM_NODE_STAT_FROZEN : Fld := ⟨0x70, 2, 1, 4⟩
abbrev TIM_NODE_STAT_PASS : Fld := ⟨0x70, 3, 1, 4⟩
abbrev TIM_NODE_STAT_TRACK_FAIL : Fld := ⟨0x70, 4, 1, 4⟩
abbrev TIM_NODE_STAT_ERR : Fld := ⟨0x70, 16, 16, 4⟩
abbrev TIM_SKEW_NOW : Fld := ⟨0x74, 0, 16, 4⟩
abbrev TIM_SKEW_MAX : Fld := ⟨0x74, 16, 16, 4⟩
abbrev TIM_PPS_SPUR_CNT_COUNT : Fld := ⟨0x78, 0, 32, 4⟩
abbrev TIM_EVT_LATE_CNT_COUNT : Fld := ⟨0x7C, 0, 32, 4⟩
abbrev TIM_EVT0_SYNC_EN : Fld := ⟨0x80, 0, 1, 8⟩
abbrev TIM_EVT0_OWNER : Fld := ⟨0x80, 4, 3, 8⟩
abbrev TIM_EVT0_DIR : Fld := ⟨0x80, 7, 1, 8⟩
abbrev TIM_EVT0_WIDTH : Fld := ⟨0x80, 8, 8, 8⟩
abbrev TIM_EVT1_PERIOD : Fld := ⟨0x84, 0, 30, 8⟩
abbrev TIM_BANK_CAP_LO_T : Fld := ⟨0x100, 0, 32, 64⟩
abbrev TIM_BANK_CAP_HI_T : Fld := ⟨0x104, 0, 32, 64⟩
abbrev TIM_BANK_W2_STATE : Fld := ⟨0x108, 0, 2, 64⟩
abbrev TIM_BANK_W2_TIME_INVALID : Fld := ⟨0x108, 2, 1, 64⟩
abbrev TIM_BANK_W2_EXCLUDED : Fld := ⟨0x108, 3, 1, 64⟩
abbrev TIM_BANK_W2_ARM : Fld := ⟨0x108, 8, 8, 64⟩
abbrev TIM_BANK_W3_D : Fld := ⟨0x10C, 0, 32, 64⟩
abbrev TIM_BANK_W4_D : Fld := ⟨0x110, 0, 32, 64⟩
abbrev TIM_BANK_W5_D : Fld := ⟨0x114, 0, 32, 64⟩
abbrev TIM_BANK_R6_Z : Fld := ⟨0x118, 0, 0, 64⟩
abbrev TIM_BANK_R7_Z : Fld := ⟨0x11C, 0, 0, 64⟩
abbrev TIM_BANK_R8_Z : Fld := ⟨0x120, 0, 0, 64⟩
abbrev TIM_BANK_R9_Z : Fld := ⟨0x124, 0, 0, 64⟩
abbrev TIM_BANK_R10_Z : Fld := ⟨0x128, 0, 0, 64⟩
abbrev TIM_BANK_R11_Z : Fld := ⟨0x12C, 0, 0, 64⟩
abbrev TIM_BANK_R12_Z : Fld := ⟨0x130, 0, 0, 64⟩
abbrev TIM_BANK_R13_Z : Fld := ⟨0x134, 0, 0, 64⟩
abbrev TIM_BANK_R14_Z : Fld := ⟨0x138, 0, 0, 64⟩
abbrev TIM_BANK_R15_Z : Fld := ⟨0x13C, 0, 0, 64⟩
abbrev HCU_CTL_FENCE : Fld := ⟨0x0, 0, 1, 4⟩
abbrev HCU_LEAD_DIE : Fld := ⟨0x4, 0, 12, 4⟩
abbrev HCU_LEAD_SPAN_NS : Fld := ⟨0x4, 16, 16, 4⟩
abbrev HCU_GUARD_DIE : Fld := ⟨0x8, 0, 12, 4⟩
abbrev HCU_GUARD_SPAN_NS : Fld := ⟨0x8, 16, 16, 4⟩
abbrev HCU_TMO_STAGE_US : Fld := ⟨0xC, 0, 8, 4⟩
abbrev HCU_TMO_LEAVE_US : Fld := ⟨0xC, 16, 8, 4⟩
abbrev HCU_HOME_NI_NI : Fld := ⟨0x10, 0, 8, 4⟩
abbrev HCU_START_ADV_US : Fld := ⟨0x14, 0, 16, 4⟩
abbrev HCU_STAT_OPEN : Fld := ⟨0x18, 0, 7, 4⟩
abbrev HCU_STAT_JOURNAL : Fld := ⟨0x18, 16, 14, 4⟩
abbrev HCU_STAT_STRAG : Fld := ⟨0x18, 31, 1, 4⟩
abbrev HCU_CNT_COMMIT_COUNT : Fld := ⟨0x20, 0, 32, 4⟩
abbrev HCU_CNT_ABORT_COUNT : Fld := ⟨0x24, 0, 32, 4⟩
abbrev HCU_CNT_FALSE_COUNT : Fld := ⟨0x28, 0, 32, 4⟩
abbrev HCU_CNT_STRAG_COUNT : Fld := ⟨0x2C, 0, 32, 4⟩
abbrev HCU_CLIENT_IDX_CLIENT : Fld := ⟨0x30, 0, 8, 4⟩
abbrev HCU_CLIENT_STAT_K : Fld := ⟨0x34, 0, 4, 4⟩
abbrev HCU_CLIENT_STAT_WAIT : Fld := ⟨0x34, 16, 11, 4⟩
abbrev HCU_STRAG_IDX_SLOT : Fld := ⟨0x40, 0, 6, 4⟩
abbrev HCU_STRAG_MAP_MAP : Fld := ⟨0x44, 0, 32, 4⟩
abbrev HCU_SLOT0_STATE : Fld := ⟨0x100, 0, 4, 32⟩
abbrev HCU_SLOT0_REASON : Fld := ⟨0x100, 8, 5, 32⟩
abbrev HCU_SLOT0_CLIENT : Fld := ⟨0x100, 16, 8, 32⟩
abbrev HCU_SLOT0_SLICE : Fld := ⟨0x100, 24, 6, 32⟩
abbrev HCU_SLOT0_SPAN : Fld := ⟨0x100, 30, 1, 32⟩
abbrev HCU_SLOT0_RECONCILED : Fld := ⟨0x100, 31, 1, 32⟩
abbrev HCU_SLOT1_GEN : Fld := ⟨0x104, 0, 10, 32⟩
abbrev HCU_SLOT1_TARGETS : Fld := ⟨0x104, 16, 9, 32⟩
abbrev HCU_SLOT2_ACTIONS : Fld := ⟨0x108, 0, 13, 32⟩
abbrev HCU_SLOT2_STRAGGLERS : Fld := ⟨0x108, 16, 9, 32⟩
abbrev HCU_AGE_LO_AGE : Fld := ⟨0x10C, 0, 32, 32⟩
abbrev HCU_AGE_HI_AGE : Fld := ⟨0x110, 0, 32, 32⟩
abbrev HCU_T_LO_T : Fld := ⟨0x114, 0, 32, 32⟩
abbrev HCU_T_HI_T : Fld := ⟨0x118, 0, 32, 32⟩
abbrev HCU_SLOT7_FIRST : Fld := ⟨0x11C, 0, 9, 32⟩
abbrev HCU_SLOT7_DETAIL : Fld := ⟨0x11C, 16, 8, 32⟩
abbrev PCR_SC0_FLOOR_FLOOR_MHZ : Fld := ⟨0x100, 0, 12, 4⟩
abbrev PCR_SC0_PIN_PIN : Fld := ⟨0x140, 0, 16, 4⟩
abbrev PCR_SC0_PIN_RUN : Fld := ⟨0x140, 16, 16, 4⟩
abbrev PCR_CTL_GOV_EN : Fld := ⟨0x0, 0, 1, 4⟩
abbrev PCR_STAT_INST : Fld := ⟨0x4, 0, 3, 4⟩
abbrev PCR_STAT_LOWER_BUSY : Fld := ⟨0x4, 4, 1, 4⟩
abbrev PCR_STAT_WAKE_SRC : Fld := ⟨0x4, 8, 3, 4⟩
abbrev PCR_STAT_ENTRY_ABORT : Fld := ⟨0x4, 16, 1, 4⟩
abbrev PCR_STAT_SUPPLY_FAIL : Fld := ⟨0x4, 17, 1, 4⟩
abbrev PCR_STAT_LEAVE_WD : Fld := ⟨0x4, 18, 1, 4⟩
abbrev PCR_WAKE_CFG_EN_WAKEN : Fld := ⟨0x8, 0, 1, 4⟩
abbrev PCR_WAKE_CFG_EN_MSP : Fld := ⟨0x8, 1, 1, 4⟩
abbrev PCR_WAKE_CFG_EN_RELAY : Fld := ⟨0x8, 2, 1, 4⟩
abbrev PCR_WAKE_CFG_EN_PPS : Fld := ⟨0x8, 3, 1, 4⟩
abbrev PCR_WAKE_CFG_PPS_COUNT : Fld := ⟨0x8, 16, 16, 4⟩
abbrev PCR_LIM_ENTRY_US : Fld := ⟨0xC, 0, 16, 4⟩
abbrev PCR_LIM_SUPPLY_US : Fld := ⟨0xC, 16, 16, 4⟩
abbrev PCR_GOV_REFILL_STONES : Fld := ⟨0x10, 0, 16, 4⟩
abbrev PCR_GOV_CAP_STONES : Fld := ⟨0x14, 0, 20, 4⟩
abbrev PCR_GOV_LEVEL_STONES : Fld := ⟨0x18, 0, 32, 4⟩
abbrev PCR_GOV_THR_LOW : Fld := ⟨0x1C, 0, 16, 4⟩
abbrev PCR_GOV_THR_HIGH : Fld := ⟨0x1C, 16, 16, 4⟩
abbrev PCR_GOV_STEP_STEP : Fld := ⟨0x20, 0, 12, 4⟩
abbrev PCR_GOV_STEP_FULL : Fld := ⟨0x20, 16, 13, 4⟩
abbrev PCR_GOV_MIN_A2_MIN : Fld := ⟨0x24, 0, 16, 4⟩
abbrev PCR_GOV_MIN_RESERVE : Fld := ⟨0x24, 16, 16, 4⟩
abbrev PCR_EN_FLIT_UNITS : Fld := ⟨0x28, 0, 16, 4⟩
abbrev PCR_EN_SPAN_STONES : Fld := ⟨0x2C, 0, 8, 4⟩
abbrev PCR_LEAVE_CFG_MAX : Fld := ⟨0x30, 0, 3, 4⟩
abbrev PCR_LEAVE_CFG_HELD : Fld := ⟨0x30, 8, 3, 4⟩
abbrev PCR_LEAVE_CFG_WAIT : Fld := ⟨0x30, 16, 5, 4⟩
abbrev PCR_LEAVE_CNT_COUNT : Fld := ⟨0x34, 0, 32, 4⟩
abbrev PCR_THERM_CFG_WARN : Fld := ⟨0x38, 0, 8, 4⟩
abbrev PCR_THERM_CFG_CRIT : Fld := ⟨0x38, 8, 8, 4⟩
abbrev PCR_LEAVE_COST0_STONES : Fld := ⟨0x40, 0, 16, 4⟩
abbrev PCR_LEAVE_COST1_STONES : Fld := ⟨0x44, 0, 16, 4⟩
abbrev PCR_LEAVE_COST2_STONES : Fld := ⟨0x48, 0, 16, 4⟩
abbrev PCR_LEAVE_COST3_STONES : Fld := ⟨0x4C, 0, 16, 4⟩
abbrev PCR_LEAVE_COST4_STONES : Fld := ⟨0x50, 0, 16, 4⟩
abbrev PCR_RG_CFG_POL : Fld := ⟨0x60, 0, 3, 4⟩
abbrev PCR_RG_CFG_DWARN : Fld := ⟨0x60, 8, 5, 4⟩
abbrev PCR_RG_CFG_DRST : Fld := ⟨0x60, 16, 5, 4⟩
abbrev PCR_RG_CFG_IDLE_Q : Fld := ⟨0x60, 24, 8, 4⟩
abbrev PCR_RG_STAT_STATE : Fld := ⟨0xA0, 0, 3, 4⟩
abbrev PCR_RG_STAT_DWARN_NOW : Fld := ⟨0xA0, 4, 1, 4⟩
abbrev PCR_RG_STAT_DWARN : Fld := ⟨0xA0, 8, 1, 4⟩
abbrev PCR_RG_STAT_DRST : Fld := ⟨0xA0, 9, 1, 4⟩
abbrev PCR_RG_STAT_THERM : Fld := ⟨0xA0, 10, 1, 4⟩
abbrev PCR_RG_STAT_TEMP : Fld := ⟨0xA0, 24, 8, 4⟩
abbrev PCR_RG_OP_MHZ : Fld := ⟨0x180, 0, 12, 4⟩
abbrev PCR_RG_OP_MV : Fld := ⟨0x180, 16, 12, 4⟩
abbrev PCR_ALLOW_A2 : Fld := ⟨0x1C0, 0, 16, 4⟩
abbrev PCR_ALLOW_A3 : Fld := ⟨0x1C0, 16, 16, 4⟩
abbrev PCR_EN_STATIC_STONES : Fld := ⟨0x200, 0, 12, 4⟩
abbrev PCR_DROOP_CNT_WARN : Fld := ⟨0x240, 0, 16, 4⟩
abbrev PCR_DROOP_CNT_RST : Fld := ⟨0x240, 16, 16, 4⟩
abbrev EVT_MSG_DEST0_NODE : Fld := ⟨0x8, 0, 20, 4⟩
abbrev EVT_MSG_DEST0_VALID : Fld := ⟨0x8, 31, 1, 4⟩
abbrev EVT_MSG_DEST1_NODE : Fld := ⟨0xC, 0, 20, 4⟩
abbrev EVT_MSG_DEST1_VALID : Fld := ⟨0xC, 31, 1, 4⟩
abbrev EVT_MSG_DROP_CNT_COUNT : Fld := ⟨0x10, 0, 32, 4⟩
abbrev EVT_LINE_STAT_LINES : Fld := ⟨0x14, 0, 16, 4⟩
abbrev EVT_CORR_CNT_COUNT : Fld := ⟨0x18, 0, 32, 4⟩
abbrev EVT_PEND_BITS : Fld := ⟨0x40, 0, 32, 4⟩
abbrev EVT_RG_CAUSE_C : Fld := ⟨0x100, 0, 4, 4⟩
abbrev EVT_GL_CAUSE_C : Fld := ⟨0x140, 0, 8, 4⟩
abbrev EVT_GL_EN_EN : Fld := ⟨0x180, 0, 8, 4⟩
abbrev EVT_RG_EN_EN : Fld := ⟨0x1C0, 0, 4, 4⟩
abbrev EVT_FIRST_INFO_SOURCE : Fld := ⟨0x200, 0, 10, 4⟩
abbrev EVT_FIRST_INFO_CAUSE : Fld := ⟨0x200, 10, 5, 4⟩
abbrev EVT_FIRST_INFO_SEV : Fld := ⟨0x200, 16, 3, 4⟩
abbrev EVT_FIRST_INFO_TVALID : Fld := ⟨0x200, 20, 1, 4⟩
abbrev EVT_FIRST_INFO_CLR : Fld := ⟨0x200, 30, 1, 4⟩
abbrev EVT_FIRST_INFO_VALID : Fld := ⟨0x200, 31, 1, 4⟩
abbrev EVT_FIRST_DATA_D : Fld := ⟨0x204, 0, 17, 4⟩
abbrev EVT_FIRST_STAMP_LO_T : Fld := ⟨0x208, 0, 32, 4⟩
abbrev EVT_FIRST_STAMP_HI_T : Fld := ⟨0x20C, 0, 32, 4⟩
abbrev EVT_NEXT_INFO_SOURCE : Fld := ⟨0x210, 0, 10, 4⟩
abbrev EVT_NEXT_INFO_CAUSE : Fld := ⟨0x210, 10, 5, 4⟩
abbrev EVT_NEXT_INFO_SEV : Fld := ⟨0x210, 16, 3, 4⟩
abbrev EVT_NEXT_INFO_TVALID : Fld := ⟨0x210, 20, 1, 4⟩
abbrev EVT_NEXT_INFO_CLR : Fld := ⟨0x210, 30, 1, 4⟩
abbrev EVT_NEXT_INFO_VALID : Fld := ⟨0x210, 31, 1, 4⟩
abbrev EVT_NEXT_DATA_D : Fld := ⟨0x214, 0, 17, 4⟩
abbrev EVT_NEXT_STAMP_LO_T : Fld := ⟨0x218, 0, 32, 4⟩
abbrev EVT_NEXT_STAMP_HI_T : Fld := ⟨0x21C, 0, 32, 4⟩
abbrev EVT_LOG_CNT_COUNT : Fld := ⟨0x220, 0, 32, 4⟩
abbrev EVT_CRC_REF_REF : Fld := ⟨0x800, 0, 32, 4⟩
abbrev EVT_CRC_COMMIT_COMMIT : Fld := ⟨0x804, 0, 1, 4⟩
abbrev EVT_CRC_COMMIT_MODE : Fld := ⟨0x804, 1, 1, 4⟩
abbrev EVT_CTL_HOLD : Fld := ⟨0x808, 0, 1, 4⟩
abbrev EVT_CTL_POLICY : Fld := ⟨0x808, 4, 1, 4⟩
abbrev EVT_CTL_PACE : Fld := ⟨0x808, 8, 3, 4⟩
abbrev EVT_CTL_PERIOD_US : Fld := ⟨0x808, 16, 16, 4⟩
abbrev EVT_STAT_PASS_BUSY : Fld := ⟨0x80C, 0, 1, 4⟩
abbrev EVT_STAT_COMMIT_PEND : Fld := ⟨0x80C, 1, 1, 4⟩
abbrev EVT_STAT_SUSP_HEAT : Fld := ⟨0x80C, 2, 1, 4⟩
abbrev EVT_STAT_MM_CNT : Fld := ⟨0x80C, 4, 2, 4⟩
abbrev EVT_STAT_QUAR : Fld := ⟨0x80C, 8, 1, 4⟩
abbrev EVT_STAT_REF_VALID : Fld := ⟨0x80C, 9, 1, 4⟩
abbrev EVT_STAT_MISMATCH : Fld := ⟨0x80C, 16, 1, 4⟩
abbrev EVT_CRC_LAST_CRC : Fld := ⟨0x810, 0, 32, 4⟩
abbrev EVT_MM_MASK_MASK : Fld := ⟨0x814, 0, 17, 4⟩
abbrev EVT_SHARE_REF_V : Fld := ⟨0x840, 0, 32, 4⟩
abbrev EVT_SHARE_LAST_V : Fld := ⟨0x880, 0, 32, 4⟩
abbrev EVT_PASS_CNT_COUNT : Fld := ⟨0x8C4, 0, 32, 4⟩
abbrev EVT_MM_EVT_CNT_COUNT : Fld := ⟨0x8C8, 0, 32, 4⟩
abbrev EVT_ROUTE_LINE : Fld := ⟨0x1000, 0, 4, 4⟩
abbrev EVT_ROUTE_INT_EN : Fld := ⟨0x1000, 4, 1, 4⟩
abbrev EVT_ROUTE_MSG_EN : Fld := ⟨0x1000, 5, 1, 4⟩
abbrev SLC_DRAIN_TMO_US : Fld := ⟨0x0, 0, 16, 4⟩
abbrev SLC_QUIESCE_TMO_US : Fld := ⟨0x4, 0, 20, 4⟩
abbrev SLC_STAT_BUSY : Fld := ⟨0x8, 0, 1, 4⟩
abbrev SLC_STAT_SLICE : Fld := ⟨0x8, 8, 6, 4⟩
abbrev SLC_STAT_DONE : Fld := ⟨0x8, 16, 1, 4⟩
abbrev SLC_STAT_FAIL : Fld := ⟨0x8, 17, 1, 4⟩
abbrev SLC_RST_LOG_NI : Fld := ⟨0xC, 0, 8, 4⟩
abbrev SLC_RST_LOG_COUNT : Fld := ⟨0xC, 16, 16, 4⟩
abbrev SLC_RST_CNT_COUNT : Fld := ⟨0x10, 0, 32, 4⟩
abbrev SLC_ST_STATE : Fld := ⟨0x100, 0, 3, 4⟩
abbrev SLC_ST_MODE : Fld := ⟨0x100, 4, 1, 4⟩
abbrev SLC_ST_LAST : Fld := ⟨0x100, 16, 16, 4⟩
abbrev CMX_CTL_REMAP : Fld := ⟨0x0, 0, 1, 4⟩
abbrev CMX_CTL_REMOTE_WR : Fld := ⟨0x0, 1, 1, 4⟩
abbrev CMX_LOCK_MAX_FC : Fld := ⟨0x4, 0, 16, 4⟩
abbrev CMX_TMO_FC : Fld := ⟨0x8, 0, 20, 4⟩
abbrev CMX_PRIO_LVL : Fld := ⟨0x10, 0, 12, 4⟩
abbrev CMX_TGT_IDX_TARGET : Fld := ⟨0x40, 0, 10, 4⟩
abbrev CMX_TGT_STAT_LOCKED : Fld := ⟨0x44, 0, 1, 4⟩
abbrev CMX_TGT_STAT_OWNER : Fld := ⟨0x44, 4, 3, 4⟩
abbrev CMX_TGT_STAT_LOCKBRK : Fld := ⟨0x44, 8, 1, 4⟩
abbrev CMX_STAT_LOCKBRK_ANY : Fld := ⟨0x48, 0, 1, 4⟩
abbrev CMX_LB_LOG_TARGET : Fld := ⟨0x4C, 0, 10, 4⟩
abbrev CMX_LB_LOG_OWNER : Fld := ⟨0x4C, 12, 3, 4⟩
abbrev CMX_LB_LOG_CAUSE : Fld := ⟨0x4C, 16, 2, 4⟩
abbrev CMX_LB_LOG_VALID : Fld := ⟨0x4C, 31, 1, 4⟩
abbrev CMX_ERR_STAT_CODE : Fld := ⟨0x50, 1, 10, 4⟩
abbrev CMX_ERR_LOG_OFFSET : Fld := ⟨0x54, 0, 24, 4⟩
abbrev CMX_ERR_LOG_INFO_MASTER : Fld := ⟨0x58, 0, 3, 4⟩
abbrev CMX_ERR_LOG_INFO_CODE : Fld := ⟨0x58, 4, 4, 4⟩
abbrev CMX_ERR_LOG_INFO_WRITE : Fld := ⟨0x58, 8, 1, 4⟩
abbrev CMX_ERR_LOG_INFO_SIZE : Fld := ⟨0x58, 9, 2, 4⟩
abbrev CMX_ERR_LOG_INFO_VALID : Fld := ⟨0x58, 31, 1, 4⟩
abbrev CMX_DERR_CNT_COUNT : Fld := ⟨0x5C, 0, 32, 4⟩
abbrev CMX_MST_STAT_CUT : Fld := ⟨0x80, 0, 1, 4⟩
abbrev CMX_MST_STAT_OUTST : Fld := ⟨0x80, 8, 5, 4⟩
abbrev CMX_MST_STAT_LOCKS : Fld := ⟨0x80, 16, 1, 4⟩
abbrev PF_SLOT0_STATE : Fld := ⟨0x0, 0, 3, 32⟩
abbrev PF_SLOT0_MODE : Fld := ⟨0x0, 4, 2, 32⟩
abbrev PF_SLOT0_PIN : Fld := ⟨0x0, 8, 2, 32⟩
abbrev PF_SLOT0_ARM_NUM : Fld := ⟨0x0, 16, 8, 32⟩
abbrev PF_SLOT1_Z : Fld := ⟨0x4, 0, 0, 32⟩
abbrev PF_TC_LO_T : Fld := ⟨0x8, 0, 32, 32⟩
abbrev PF_TC_HI_T : Fld := ⟨0xC, 0, 32, 32⟩
abbrev PF_SLOT4_CAPTURED : Fld := ⟨0x10, 0, 10, 32⟩
abbrev PF_SLOT4_MISSED : Fld := ⟨0x10, 16, 10, 32⟩
abbrev PF_SLOT5_ABSENT : Fld := ⟨0x14, 0, 10, 32⟩
abbrev PF_SLOT5_EXCLUDED : Fld := ⟨0x14, 16, 10, 32⟩
abbrev PF_SLOT6_Z : Fld := ⟨0x18, 0, 0, 32⟩
abbrev PF_SLOT7_Z : Fld := ⟨0x1C, 0, 0, 32⟩
abbrev PF_EVD_CTL_EN : Fld := ⟨0x100, 0, 1, 4⟩
abbrev PF_EVD_CTL_SNAP_REC : Fld := ⟨0x100, 1, 1, 4⟩
abbrev PF_EVD_CTL_PERIOD : Fld := ⟨0x100, 16, 16, 4⟩
abbrev PF_RING_NI_NI : Fld := ⟨0x104, 0, 8, 4⟩
abbrev PF_RING_BASE_LO_BASE : Fld := ⟨0x108, 7, 25, 4⟩
abbrev PF_RING_BASE_HI_BASE : Fld := ⟨0x10C, 0, 32, 4⟩
abbrev PF_RING_SIZE_LOG2 : Fld := ⟨0x110, 0, 5, 4⟩
abbrev PF_RING_WR_SLOT : Fld := ⟨0x114, 0, 16, 4⟩
abbrev PF_RING_RD_SLOT : Fld := ⟨0x118, 0, 16, 4⟩
abbrev PF_EVD_STAT_RING_FULL : Fld := ⟨0x11C, 0, 1, 4⟩
abbrev PF_EVD_STAT_HELD : Fld := ⟨0x11C, 1, 4, 4⟩
abbrev PF_EVD_STAT_RING_FAULT : Fld := ⟨0x11C, 8, 1, 4⟩
abbrev PF_EVD_STAT_SKIP : Fld := ⟨0x11C, 9, 1, 4⟩
abbrev PF_EVD_STAT_KEY_BLANK : Fld := ⟨0x11C, 10, 1, 4⟩
abbrev PF_EVD_STAT_CHAIN_NEW : Fld := ⟨0x11C, 11, 1, 4⟩
abbrev PF_EVD_STAT_HEAD_VALID : Fld := ⟨0x11C, 12, 1, 4⟩
abbrev PF_SKIP_CNT_COUNT : Fld := ⟨0x120, 0, 32, 4⟩
abbrev PF_HEAD_SEQ_LO_SEQ : Fld := ⟨0x128, 0, 32, 4⟩
abbrev PF_HEAD_SEQ_HI_SEQ : Fld := ⟨0x12C, 0, 32, 4⟩
abbrev PF_HEAD_HASH_HASH : Fld := ⟨0x130, 0, 32, 4⟩
abbrev DBG_STAT_FUSE_DIS : Fld := ⟨0x0, 0, 1, 4⟩
abbrev DBG_STAT_FUSE_ERR : Fld := ⟨0x0, 1, 1, 4⟩
abbrev DBG_STAT_TAP_ACC : Fld := ⟨0x0, 2, 1, 4⟩
abbrev DBG_STAT_TEST : Fld := ⟨0x0, 4, 2, 4⟩
abbrev DBG_STAT_BIST_DONE : Fld := ⟨0x0, 8, 1, 4⟩
abbrev DBG_STAT_BIST_FAIL : Fld := ⟨0x0, 9, 1, 4⟩
abbrev DBG_STAT_BIST_UNIT : Fld := ⟨0x0, 16, 10, 4⟩
abbrev DBG_TEST_CTL_MODE : Fld := ⟨0x4, 0, 2, 4⟩
abbrev DBG_TEST_CTL_STR_RST : Fld := ⟨0x4, 8, 1, 4⟩
abbrev DBG_TRC_CTL_EN : Fld := ⟨0x10, 0, 1, 4⟩
abbrev DBG_TRC_CTL_START : Fld := ⟨0x10, 1, 2, 4⟩
abbrev DBG_TRC_CTL_WRAP : Fld := ⟨0x10, 3, 1, 4⟩
abbrev DBG_TRC_CTL_PIN : Fld := ⟨0x10, 4, 2, 4⟩
abbrev DBG_TRC_CTL_EDGE : Fld := ⟨0x10, 6, 1, 4⟩
abbrev DBG_TRC_TAP_KIND : Fld := ⟨0x14, 0, 2, 4⟩
abbrev DBG_TRC_TAP_PLANE : Fld := ⟨0x14, 2, 1, 4⟩
abbrev DBG_TRC_TAP_PORT : Fld := ⟨0x14, 4, 4, 4⟩
abbrev DBG_TRC_TAP_INDEX : Fld := ⟨0x14, 8, 16, 4⟩
abbrev DBG_TRC_FILT_VC : Fld := ⟨0x18, 0, 16, 4⟩
abbrev DBG_TRC_FILT_PTYPE : Fld := ⟨0x18, 16, 9, 4⟩
abbrev DBG_TRC_SRC_N : Fld := ⟨0x1C, 0, 20, 4⟩
abbrev DBG_TRC_SRC_MASK_N : Fld := ⟨0x20, 0, 20, 4⟩
abbrev DBG_TRC_DEST_N : Fld := ⟨0x24, 0, 20, 4⟩
abbrev DBG_TRC_DEST_MASK_N : Fld := ⟨0x28, 0, 20, 4⟩
abbrev DBG_TRC_T_LO_T : Fld := ⟨0x30, 0, 32, 4⟩
abbrev DBG_TRC_T_HI_T : Fld := ⟨0x34, 0, 32, 4⟩
abbrev DBG_TRC_PTR_WR : Fld := ⟨0x38, 0, 12, 4⟩
abbrev DBG_TRC_PTR_COUNT : Fld := ⟨0x38, 16, 13, 4⟩
abbrev DBG_TRC_PTR_FULL : Fld := ⟨0x38, 31, 1, 4⟩
abbrev NI_ID_INDEX : Fld := ⟨0x0, 0, 8, 4⟩
abbrev NI_ID_REGION : Fld := ⟨0x0, 8, 4, 4⟩
abbrev NI_ID_EP_WIDTH : Fld := ⟨0x0, 12, 3, 4⟩
abbrev NI_ID_SCHED : Fld := ⟨0x0, 16, 2, 4⟩
abbrev NI_ID_EP_ROLE : Fld := ⟨0x0, 20, 4, 4⟩
abbrev NI_EP_CFG_WIDTH : Fld := ⟨0x100, 0, 3, 4⟩
abbrev NI_EP_CFG_STALL_EXP : Fld := ⟨0x100, 8, 5, 4⟩
abbrev NI_EP_CFG_ORIG_EN : Fld := ⟨0x100, 13, 1, 4⟩
abbrev NI_EP_CFG_NOW_EN : Fld := ⟨0x100, 14, 1, 4⟩
abbrev NI_EP_CFG_TGT_EN : Fld := ⟨0x100, 15, 1, 4⟩
abbrev NI_EP_STAT_EPRST : Fld := ⟨0x104, 0, 1, 4⟩
abbrev NI_EP_STAT_STALL : Fld := ⟨0x104, 1, 1, 4⟩
abbrev NI_EP_STAT_HFAULT : Fld := ⟨0x104, 2, 1, 4⟩
abbrev NI_EP_STAT_FIXUP : Fld := ⟨0x104, 3, 1, 4⟩
abbrev NI_EP_STAT_SDROP : Fld := ⟨0x104, 4, 1, 4⟩
abbrev NI_EP_STAT_PROTO : Fld := ⟨0x104, 5, 1, 4⟩
abbrev NI_TAG_CTRL_LIMIT : Fld := ⟨0x108, 0, 10, 4⟩
abbrev NI_TAG_USE_IN_USE : Fld := ⟨0x10C, 0, 10, 4⟩
abbrev NI_HLOG_HANDLE_HANDLE : Fld := ⟨0x110, 0, 32, 4⟩
abbrev NI_HLOG_INFO_VERDICT : Fld := ⟨0x114, 0, 5, 4⟩
abbrev NI_HLOG_INFO_ID : Fld := ⟨0x114, 8, 8, 4⟩
abbrev NI_HLOG_INFO_SLICE : Fld := ⟨0x114, 16, 6, 4⟩
abbrev NI_HLOG_INFO_VALID : Fld := ⟨0x114, 31, 1, 4⟩
abbrev NI_HLOG_PID_PID : Fld := ⟨0x118, 0, 20, 4⟩
abbrev NI_HLOG_CNT_COUNT : Fld := ⟨0x11C, 0, 32, 4⟩
abbrev NI_EP_DROP_CNT_COUNT : Fld := ⟨0x120, 0, 32, 4⟩
abbrev NI_EP_STALL_CNT_COUNT : Fld := ⟨0x124, 0, 32, 4⟩
abbrev NI_EP_EVT_OVF_COUNT : Fld := ⟨0x128, 0, 32, 4⟩
abbrev NI_RTAB_CTRL_LOCK : Fld := ⟨0x200, 0, 1, 4⟩
abbrev NI_RTAB_CTRL_UNCHK_CNT : Fld := ⟨0x200, 16, 9, 4⟩
abbrev NI_MCG_IDX_GROUP : Fld := ⟨0x210, 0, 6, 4⟩
abbrev NI_MCG_IDX_WORD : Fld := ⟨0x210, 8, 3, 4⟩
abbrev NI_MCG_DATA_MAP : Fld := ⟨0x214, 0, 32, 4⟩
abbrev NI_PKT_BAD_CNT_COUNT : Fld := ⟨0x218, 0, 32, 4⟩
abbrev NI_RTAB_PATH_LO_PATH : Fld := ⟨0x1000, 0, 32, 16⟩
abbrev NI_RTAB_PATH_HI_PATH : Fld := ⟨0x1004, 0, 32, 16⟩
abbrev NI_RTAB_CTRLW_NHOPS : Fld := ⟨0x1008, 0, 5, 16⟩
abbrev NI_RTAB_CTRLW_VALID : Fld := ⟨0x1008, 5, 1, 16⟩
abbrev NI_RTAB_CTRLW_REP : Fld := ⟨0x1008, 6, 1, 16⟩
abbrev NI_RTAB_CTRLW_UNCHK : Fld := ⟨0x1008, 7, 1, 16⟩
abbrev NI_RTAB_CTRLW_PLANE_POL : Fld := ⟨0x1008, 8, 2, 16⟩
abbrev NI_RTAB_CTRLW_BOUND : Fld := ⟨0x1008, 16, 16, 16⟩
abbrev NI_RTAB_INFO_REGMASK : Fld := ⟨0x100C, 0, 16, 16⟩
abbrev NI_RTAB_INFO_XINGS : Fld := ⟨0x100C, 16, 5, 16⟩
abbrev NI_RDESC_BASE_LO_BASE : Fld := ⟨0x800, 12, 20, 32⟩
abbrev NI_RDESC_BASE_HI_BASE : Fld := ⟨0x804, 0, 32, 32⟩
abbrev NI_RDESC_LIMIT_LO_ONES : Fld := ⟨0x808, 0, 12, 32⟩
abbrev NI_RDESC_LIMIT_LO_LIMIT : Fld := ⟨0x808, 12, 20, 32⟩
abbrev NI_RDESC_LIMIT_HI_LIMIT : Fld := ⟨0x80C, 0, 32, 32⟩
abbrev NI_RDESC_TGT_NODE : Fld := ⟨0x810, 0, 20, 32⟩
abbrev NI_RDESC_TGT_KIND : Fld := ⟨0x810, 30, 2, 32⟩
abbrev NI_RDESC_ATTR_VALID : Fld := ⟨0x814, 0, 1, 32⟩
abbrev NI_RDESC_ATTR_EA : Fld := ⟨0x814, 1, 1, 32⟩
abbrev NI_RDESC_ATTR_DEV : Fld := ⟨0x814, 2, 1, 32⟩
abbrev NI_RDESC_ATTR_ATOM : Fld := ⟨0x814, 3, 1, 32⟩
abbrev NI_RDESC_ATTR_CTO : Fld := ⟨0x814, 4, 4, 32⟩
abbrev NI_RDESC_RES0_Z : Fld := ⟨0x818, 0, 0, 32⟩
abbrev NI_RDESC_RES1_Z : Fld := ⟨0x81C, 0, 0, 32⟩
abbrev NI_ORD_CFG_DEF_CTO : Fld := ⟨0x300, 0, 4, 4⟩
abbrev NI_ORD_CFG_SB_EN : Fld := ⟨0x300, 4, 1, 4⟩
abbrev NI_ORD_STAT_DEGRADED : Fld := ⟨0x304, 0, 1, 4⟩
abbrev NI_ORD_STAT_SB_ERR : Fld := ⟨0x304, 1, 1, 4⟩
abbrev NI_ORD_STAT_BFAULT : Fld := ⟨0x304, 2, 1, 4⟩
abbrev NI_ORD_STAT_SB_EMPTY : Fld := ⟨0x304, 3, 1, 4⟩
abbrev NI_SB_USE_ENTRIES : Fld := ⟨0x308, 0, 6, 4⟩
abbrev NI_SB_USE_BYTES : Fld := ⟨0x308, 16, 16, 4⟩
abbrev NI_DISCARD_CNT_COUNT : Fld := ⟨0x30C, 0, 32, 4⟩
abbrev NI_SB_LOG_LO_ADDR : Fld := ⟨0x310, 0, 32, 4⟩
abbrev NI_SB_LOG_HI_ADDR : Fld := ⟨0x314, 0, 32, 4⟩
abbrev NI_SB_LOG_INFO_STATUS : Fld := ⟨0x318, 0, 5, 4⟩
abbrev NI_SB_LOG_INFO_ID : Fld := ⟨0x318, 8, 8, 4⟩
abbrev NI_SB_LOG_INFO_KIND : Fld := ⟨0x318, 16, 2, 4⟩
abbrev NI_SB_LOG_INFO_CLR : Fld := ⟨0x318, 30, 1, 4⟩
abbrev NI_SB_LOG_INFO_VALID : Fld := ⟨0x318, 31, 1, 4⟩
abbrev NI_CTO_CNT_COUNT : Fld := ⟨0x31C, 0, 32, 4⟩
abbrev NI_RSV_CFG_MON : Fld := ⟨0x320, 0, 1, 4⟩
abbrev NI_RSV_CFG_GRAN : Fld := ⟨0x320, 1, 2, 4⟩
abbrev NI_RSV_STAT_ENTRIES : Fld := ⟨0x324, 0, 7, 4⟩
abbrev NI_RSV_EVICT_CNT_COUNT : Fld := ⟨0x328, 0, 32, 4⟩
abbrev NI_SC0_CFG_MAXSEG : Fld := ⟨0x400, 0, 5, 4⟩
abbrev NI_LATE_CFG_HIST_EN : Fld := ⟨0x404, 0, 1, 4⟩
abbrev NI_LATE_CFG_HIST_WIN : Fld := ⟨0x404, 4, 4, 4⟩
abbrev NI_LATE_CFG_MAX_CLR : Fld := ⟨0x404, 8, 1, 4⟩
abbrev NI_LATE_STAT_LATE : Fld := ⟨0x408, 0, 1, 4⟩
abbrev NI_LATE_STAT_SKIP : Fld := ⟨0x408, 1, 1, 4⟩
abbrev NI_LATE_STAT_FALLBACK : Fld := ⟨0x408, 2, 1, 4⟩
abbrev NI_LATE_CNT_COUNT : Fld := ⟨0x40C, 0, 32, 4⟩
abbrev NI_LATE_SKIP_CNT_COUNT : Fld := ⟨0x410, 0, 32, 4⟩
abbrev NI_ADM_REFUSE_CNT_COUNT : Fld := ⟨0x414, 0, 32, 4⟩
abbrev NI_SC0_FB_CNT_COUNT : Fld := ⟨0x418, 0, 32, 4⟩
abbrev NI_LAT_MAX_VALUE : Fld := ⟨0x420, 0, 32, 4⟩
abbrev NI_LATE_LOG_A_SRC : Fld := ⟨0x428, 0, 20, 4⟩
abbrev NI_LATE_LOG_A_PLANE : Fld := ⟨0x428, 20, 1, 4⟩
abbrev NI_LATE_LOG_A_VALID : Fld := ⟨0x428, 31, 1, 4⟩
abbrev NI_LATE_LOG_B_EXCESS : Fld := ⟨0x42C, 0, 32, 4⟩
abbrev NI_LATE_LOG_C_SEQ : Fld := ⟨0x430, 0, 16, 4⟩
abbrev NI_LATE_LOG_C_BOUND : Fld := ⟨0x430, 16, 16, 4⟩
abbrev NI_LATE_HIST_BIN_LO : Fld := ⟨0x434, 0, 16, 4⟩
abbrev NI_LATE_HIST_BIN_HI : Fld := ⟨0x434, 16, 16, 4⟩
abbrev NI_SC0_RSV0_ENTRY : Fld := ⟨0x450, 0, 9, 8⟩
abbrev NI_SC0_RSV0_VALID : Fld := ⟨0x450, 12, 1, 8⟩
abbrev NI_SC0_RSV0_MODE : Fld := ⟨0x450, 13, 1, 8⟩
abbrev NI_SC0_RSV0_RESP : Fld := ⟨0x450, 14, 1, 8⟩
abbrev NI_SC0_RSV0_GRANTED : Fld := ⟨0x450, 15, 1, 8⟩
abbrev NI_SC0_RSV1_GAP : Fld := ⟨0x454, 0, 16, 8⟩
abbrev NI_SCHED_CFG_SIZE : Fld := ⟨0x500, 0, 2, 4⟩
abbrev NI_SCHED_CFG_OVH : Fld := ⟨0x500, 8, 6, 4⟩
abbrev NI_SCHED_CFG_SAMP_EXP : Fld := ⟨0x500, 16, 5, 4⟩
abbrev NI_SCHED_CFG_SC0_SKEW : Fld := ⟨0x500, 24, 5, 4⟩
abbrev NI_Q_IDX_QUEUE : Fld := ⟨0x504, 0, 10, 4⟩
abbrev NI_Q_IDX_SAMP_CLR : Fld := ⟨0x504, 31, 1, 4⟩
abbrev NI_Q_CFG_CLASS : Fld := ⟨0x508, 0, 2, 4⟩
abbrev NI_Q_CFG_EN : Fld := ⟨0x508, 2, 1, 4⟩
abbrev NI_Q_CFG_SHAPER : Fld := ⟨0x508, 4, 4, 4⟩
abbrev NI_Q_SHARE_QUANTUM : Fld := ⟨0x50C, 0, 12, 4⟩
abbrev NI_Q_SHARE_DEPTH : Fld := ⟨0x50C, 16, 12, 4⟩
abbrev NI_Q_STAT_OCC : Fld := ⟨0x510, 0, 13, 4⟩
abbrev NI_Q_STAT_BACKLOG : Fld := ⟨0x510, 16, 1, 4⟩
abbrev NI_Q_STAT_CLOSED : Fld := ⟨0x510, 17, 1, 4⟩
abbrev NI_Q_STAT_PEND : Fld := ⟨0x510, 18, 1, 4⟩
abbrev NI_Q_VT_VALUE : Fld := ⟨0x514, 0, 32, 4⟩
abbrev NI_Q_SAMP_DEPTH_LAST : Fld := ⟨0x518, 0, 13, 4⟩
abbrev NI_Q_SAMP_DEPTH_MAX : Fld := ⟨0x518, 16, 13, 4⟩
abbrev NI_Q_SAMP_DELAY_LAST : Fld := ⟨0x51C, 0, 16, 4⟩
abbrev NI_Q_SAMP_DELAY_MAX : Fld := ⟨0x51C, 16, 16, 4⟩
abbrev NI_VCLASS_V : Fld := ⟨0x520, 0, 32, 4⟩
abbrev NI_THR_STAT_A2 : Fld := ⟨0x530, 0, 16, 4⟩
abbrev NI_THR_STAT_A3 : Fld := ⟨0x530, 16, 16, 4⟩
abbrev NI_THR_REM_REM2 : Fld := ⟨0x534, 0, 16, 4⟩
abbrev NI_THR_REM_REM3 : Fld := ⟨0x534, 16, 16, 4⟩
abbrev NI_THR_HOLD_CNT_COUNT : Fld := ⟨0x538, 0, 32, 4⟩
abbrev NI_SC0_SKEW_CNT_COUNT : Fld := ⟨0x53C, 0, 32, 4⟩
abbrev NI_SC1_CAP_CAP : Fld := ⟨0x540, 0, 20, 4⟩
abbrev NI_SC1_REFUSE_CNT_COUNT : Fld := ⟨0x544, 0, 32, 4⟩
abbrev NI_BUF_STAT_USED : Fld := ⟨0x548, 0, 11, 4⟩
abbrev NI_TIME_STAT_VALID : Fld := ⟨0x600, 0, 1, 4⟩
abbrev NI_TIME_STAT_FROZEN : Fld := ⟨0x600, 1, 1, 4⟩
abbrev NI_TIME_STAT_LOST : Fld := ⟨0x600, 2, 1, 4⟩
abbrev NI_SHP0_RATE : Fld := ⟨0x580, 0, 16, 16⟩
abbrev NI_SHP0_GRANTED : Fld := ⟨0x580, 31, 1, 16⟩
abbrev NI_SHP1_BURST : Fld := ⟨0x584, 0, 16, 16⟩
abbrev NI_SHP2_CREDIT : Fld := ⟨0x588, 0, 24, 16⟩
abbrev NI_SHP3_Z : Fld := ⟨0x58C, 0, 0, 16⟩
abbrev NI_GATE_CTL_SWAP : Fld := ⟨0x700, 0, 1, 4⟩
abbrev NI_GATE_CTL_CANCEL : Fld := ⟨0x700, 1, 1, 4⟩
abbrev NI_GATE_CTL_EN : Fld := ⟨0x700, 4, 1, 4⟩
abbrev NI_GATE_CTL_MARK_EN : Fld := ⟨0x700, 8, 1, 4⟩
abbrev NI_GATE_CTL_MARK_PIN : Fld := ⟨0x700, 9, 2, 4⟩
abbrev NI_GATE_CFG_GUARD : Fld := ⟨0x704, 0, 10, 4⟩
abbrev NI_GATE_STAT_PENDING : Fld := ⟨0x708, 0, 1, 4⟩
abbrev NI_GATE_STAT_SWAP_ERR : Fld := ⟨0x708, 1, 1, 4⟩
abbrev NI_GATE_STAT_TIME_LOST : Fld := ⟨0x708, 2, 1, 4⟩
abbrev NI_GATE_STAT_MARK_LOST : Fld := ⟨0x708, 3, 1, 4⟩
abbrev NI_GATE_STAT_ERR_CODE : Fld := ⟨0x708, 4, 4, 4⟩
abbrev NI_GATE_STAT_ENTRY : Fld := ⟨0x708, 8, 8, 4⟩
abbrev NI_GATE_STAT_GATES : Fld := ⟨0x708, 16, 4, 4⟩
abbrev NI_GATE_ADM_BASE_LO_BASE : Fld := ⟨0x710, 0, 32, 4⟩
abbrev NI_GATE_ADM_BASE_HI_BASE : Fld := ⟨0x714, 0, 32, 4⟩
abbrev NI_GATE_ADM_CYCLE_CYCLE : Fld := ⟨0x718, 0, 30, 4⟩
abbrev NI_GATE_ADM_LEN_LEN : Fld := ⟨0x71C, 0, 9, 4⟩
abbrev NI_GATE_OPER_BASE_LO_BASE : Fld := ⟨0x720, 0, 32, 4⟩
abbrev NI_GATE_OPER_BASE_HI_BASE : Fld := ⟨0x724, 0, 32, 4⟩
abbrev NI_GATE_OPER_CYCLE_CYCLE : Fld := ⟨0x728, 0, 30, 4⟩
abbrev NI_GATE_OPER_LEN_LEN : Fld := ⟨0x72C, 0, 9, 4⟩
abbrev NI_GATE_ADM0_ONE : Fld := ⟨0x3000, 0, 1, 8⟩
abbrev NI_GATE_ADM0_GATES : Fld := ⟨0x3000, 1, 3, 8⟩
abbrev NI_GATE_ADM0_MARK : Fld := ⟨0x3000, 8, 1, 8⟩
abbrev NI_GATE_ADM1_INTERVAL : Fld := ⟨0x3004, 0, 30, 8⟩
abbrev NI_GATE_OPER0_ONE : Fld := ⟨0x3800, 0, 1, 8⟩
abbrev NI_GATE_OPER0_GATES : Fld := ⟨0x3800, 1, 3, 8⟩
abbrev NI_GATE_OPER0_MARK : Fld := ⟨0x3800, 8, 1, 8⟩
abbrev NI_GATE_OPER1_INTERVAL : Fld := ⟨0x3804, 0, 30, 8⟩
abbrev NI_PLN_STAT_ATT_A : Fld := ⟨0xD00, 0, 1, 4⟩
abbrev NI_PLN_STAT_ATT_B : Fld := ⟨0xD00, 1, 1, 4⟩
abbrev NI_PLN_STAT_TEST : Fld := ⟨0xD00, 2, 1, 4⟩
abbrev NI_RSQ_CTL_REORDER : Fld := ⟨0xD04, 0, 1, 4⟩
abbrev NI_RSQ_CTL_GAP_TMO : Fld := ⟨0xD04, 8, 8, 4⟩
abbrev NI_RSQ_CTL_TWIN_TMO : Fld := ⟨0xD04, 16, 8, 4⟩
abbrev NI_RSQ_STAT_HELD : Fld := ⟨0xD08, 0, 9, 4⟩
abbrev NI_RSQ_STAT_FLITS : Fld := ⟨0xD08, 12, 12, 4⟩
abbrev NI_RSQ_ELIM_CNT_COUNT : Fld := ⟨0xD0C, 0, 32, 4⟩
abbrev NI_RSQ_TWIN_MISS_A_COUNT : Fld := ⟨0xD10, 0, 32, 4⟩
abbrev NI_RSQ_TWIN_MISS_B_COUNT : Fld := ⟨0xD14, 0, 32, 4⟩
abbrev NI_RSQ_TWIN_UNTRK_COUNT : Fld := ⟨0xD18, 0, 32, 4⟩
abbrev NI_RSQ_GAP_CNT_COUNT : Fld := ⟨0xD1C, 0, 32, 4⟩
abbrev NI_RSQ_FORCE_CNT_COUNT : Fld := ⟨0xD20, 0, 32, 4⟩
abbrev NI_RSQ_SKIP_CNT_COUNT : Fld := ⟨0xD24, 0, 32, 4⟩
abbrev NI_RSQ_STALE_CNT_COUNT : Fld := ⟨0xD28, 0, 32, 4⟩
abbrev NI_RSQ_DISORDER_CNT_COUNT : Fld := ⟨0xD2C, 0, 32, 4⟩
abbrev NI_RSQ_CUT_CNT_COUNT : Fld := ⟨0xD30, 0, 32, 4⟩
abbrev NI_PLN_CFG_HOLD_LIM : Fld := ⟨0xD34, 0, 6, 4⟩
abbrev NI_PLN_ERR_ERR_A : Fld := ⟨0xD38, 0, 4, 4⟩
abbrev NI_PLN_ERR_ERR_B : Fld := ⟨0xD38, 8, 4, 4⟩
abbrev NI_PLN_ERR_FAULT_A : Fld := ⟨0xD38, 16, 1, 4⟩
abbrev NI_PLN_ERR_FAULT_B : Fld := ⟨0xD38, 17, 1, 4⟩
abbrev NI_PLN_OVR_CNT_COUNT : Fld := ⟨0xD3C, 0, 32, 4⟩
abbrev NI_PID_IDX_ENTRY : Fld := ⟨0xE00, 0, 10, 4⟩
abbrev NI_PID_DATA_PID : Fld := ⟨0xE04, 0, 20, 4⟩
abbrev NI_PID_DATA_SLICE : Fld := ⟨0xE04, 20, 6, 4⟩
abbrev NI_PID_DATA_VALID : Fld := ⟨0xE04, 31, 1, 4⟩
abbrev NI_SLC_SQUASH_CNT_COUNT : Fld := ⟨0xE08, 0, 32, 4⟩
abbrev NI_MIG_CTL_LOG_EN : Fld := ⟨0xE40, 0, 1, 4⟩
abbrev NI_MIG_CTL_SWAP : Fld := ⟨0xE40, 1, 1, 4⟩
abbrev NI_MIG_CTL_STAGE : Fld := ⟨0xE40, 2, 1, 4⟩
abbrev NI_MIG_CTL_HOLD : Fld := ⟨0xE40, 3, 1, 4⟩
abbrev NI_MIG_CTL_PAGE : Fld := ⟨0xE40, 4, 3, 4⟩
abbrev NI_MIG_CTL_SLICE : Fld := ⟨0xE40, 8, 6, 4⟩
abbrev NI_MIG_STAT_HELD : Fld := ⟨0xE44, 0, 9, 4⟩
abbrev NI_MIG_STAT_OVF : Fld := ⟨0xE44, 16, 1, 4⟩
abbrev NI_MIG_BASE_LO_BASE : Fld := ⟨0xE48, 12, 20, 4⟩
abbrev NI_MIG_BASE_HI_BASE : Fld := ⟨0xE4C, 0, 32, 4⟩
abbrev NI_MIG_OVF_CNT_COUNT : Fld := ⟨0xE50, 0, 32, 4⟩
abbrev NI_SLC_SHARE0_TAGS : Fld := ⟨0x2400, 0, 10, 8⟩
abbrev NI_SLC_SHARE0_BUF : Fld := ⟨0x2400, 16, 11, 8⟩
abbrev NI_SLC_SHARE1_QBASE : Fld := ⟨0x2404, 0, 10, 8⟩
abbrev NI_SLC_SHARE1_QCOUNT : Fld := ⟨0x2404, 16, 11, 8⟩
abbrev NI_SLC_USE_TAGS : Fld := ⟨0x2600, 0, 10, 4⟩
abbrev NI_SLC_USE_FLITS : Fld := ⟨0x2600, 16, 11, 4⟩
abbrev NI_MIG_DIRTY_BITS : Fld := ⟨0x2800, 0, 32, 4⟩
abbrev NI_EVT_CAUSE_A_C : Fld := ⟨0xF80, 0, 17, 4⟩
abbrev NI_EVT_CAUSE_N_C : Fld := ⟨0xF84, 0, 6, 4⟩
abbrev NI_EVT_EN_A_EN : Fld := ⟨0xF88, 0, 17, 4⟩
abbrev NI_EVT_EN_N_EN : Fld := ⟨0xF8C, 0, 6, 4⟩
abbrev NI_ECC_CNT_CORR : Fld := ⟨0xF90, 0, 16, 4⟩
abbrev NI_ECC_CNT_UNCORR : Fld := ⟨0xF90, 16, 16, 4⟩
abbrev NI_BANK_CAP_LO_T : Fld := ⟨0xC00, 0, 32, 64⟩
abbrev NI_BANK_CAP_HI_T : Fld := ⟨0xC04, 0, 32, 64⟩
abbrev NI_BANK_W2_STATE : Fld := ⟨0xC08, 0, 2, 64⟩
abbrev NI_BANK_W2_TIME_INVALID : Fld := ⟨0xC08, 2, 1, 64⟩
abbrev NI_BANK_W2_EXCLUDED : Fld := ⟨0xC08, 3, 1, 64⟩
abbrev NI_BANK_W2_ARM : Fld := ⟨0xC08, 8, 8, 64⟩
abbrev NI_BANK_W3_D : Fld := ⟨0xC0C, 0, 32, 64⟩
abbrev NI_BANK_W4_D : Fld := ⟨0xC10, 0, 32, 64⟩
abbrev NI_BANK_W5_D : Fld := ⟨0xC14, 0, 32, 64⟩
abbrev NI_BANK_W6_D : Fld := ⟨0xC18, 0, 32, 64⟩
abbrev NI_BANK_W7_D : Fld := ⟨0xC1C, 0, 32, 64⟩
abbrev NI_BANK_W8_D : Fld := ⟨0xC20, 0, 32, 64⟩
abbrev NI_BANK_W9_D : Fld := ⟨0xC24, 0, 32, 64⟩
abbrev NI_BANK_W10_D : Fld := ⟨0xC28, 0, 32, 64⟩
abbrev NI_BANK_W11_D : Fld := ⟨0xC2C, 0, 32, 64⟩
abbrev NI_BANK_W12_Z : Fld := ⟨0xC30, 0, 0, 64⟩
abbrev NI_BANK_W13_Z : Fld := ⟨0xC34, 0, 0, 64⟩
abbrev NI_BANK_W14_Z : Fld := ⟨0xC38, 0, 0, 64⟩
abbrev NI_BANK_W15_Z : Fld := ⟨0xC3C, 0, 0, 64⟩
abbrev NI_HEAT_STAT_SHADOW_USED : Fld := ⟨0x740, 0, 10, 4⟩
abbrev NI_HEAT_STAT_STRAGGLER : Fld := ⟨0x740, 16, 1, 4⟩
abbrev NI_HEAT_STAT_GLOCK : Fld := ⟨0x740, 17, 1, 4⟩
abbrev NI_HEAT_STAT_FENCED : Fld := ⟨0x740, 18, 1, 4⟩
abbrev NI_HEAT_STAT_EP_HELD : Fld := ⟨0x740, 19, 1, 4⟩
abbrev NI_HEAT_EP_BASE_LO_BASE : Fld := ⟨0x748, 12, 20, 4⟩
abbrev NI_HEAT_EP_BASE_HI_BASE : Fld := ⟨0x74C, 0, 32, 4⟩
abbrev NI_HEAT_EP_CFG_EN : Fld := ⟨0x750, 0, 1, 4⟩
abbrev NI_HEAT_EP_CFG_SIZE_LOG2 : Fld := ⟨0x750, 8, 6, 4⟩
abbrev NI_HEAT_MISS_CNT_COUNT : Fld := ⟨0x754, 0, 32, 4⟩
abbrev NI_PWR_CFG_HOLD_US : Fld := ⟨0xF00, 0, 16, 4⟩
abbrev NI_PWR_STAT_HELD : Fld := ⟨0xF04, 0, 10, 4⟩
abbrev NI_PWR_STAT_REFUSED : Fld := ⟨0xF04, 16, 1, 4⟩
abbrev NI_PWR_DROP_CNT_COUNT : Fld := ⟨0xF08, 0, 32, 4⟩
abbrev NI_PWR_MASK_OPEN : Fld := ⟨0xF0C, 0, 16, 4⟩
abbrev NI_IRANGE_LO : Fld := ⟨0x2A00, 0, 12, 4⟩
abbrev NI_IRANGE_HI : Fld := ⟨0x2A00, 16, 12, 4⟩
abbrev NI_IRANGE_PORT : Fld := ⟨0x2A00, 28, 2, 4⟩
abbrev NI_IRANGE_VALID : Fld := ⟨0x2A00, 31, 1, 4⟩
abbrev RTR_RTE_DROP_CNT_COUNT : Fld := ⟨0x180, 0, 32, 4⟩
abbrev RTR_RTE_LOG_REASON : Fld := ⟨0x184, 0, 3, 4⟩
abbrev RTR_RTE_LOG_IN_PORT : Fld := ⟨0x184, 4, 4, 4⟩
abbrev RTR_RTE_LOG_VC : Fld := ⟨0x184, 8, 4, 4⟩
abbrev RTR_RTE_LOG_HOP : Fld := ⟨0x184, 12, 4, 4⟩
abbrev RTR_RTE_LOG_LA : Fld := ⟨0x184, 16, 4, 4⟩
abbrev RTR_RTE_LOG_UNCHK : Fld := ⟨0x184, 20, 1, 4⟩
abbrev RTR_RTE_LOG_VALID : Fld := ⟨0x184, 31, 1, 4⟩
abbrev RTR_RTE_LOG_SRC_SRC : Fld := ⟨0x188, 0, 20, 4⟩
abbrev RTR_RTE_LOG_DEST_DEST : Fld := ⟨0x18C, 0, 20, 4⟩
abbrev RTR_ID_INDEX : Fld := ⟨0x0, 0, 16, 4⟩
abbrev RTR_ID_RADIX : Fld := ⟨0x0, 16, 4, 4⟩
abbrev RTR_ID_REGION : Fld := ⟨0x0, 20, 4, 4⟩
abbrev RTR_ID_PLANE : Fld := ⟨0x0, 24, 1, 4⟩
abbrev RTR_PRIO_LVL : Fld := ⟨0x40, 0, 24, 4⟩
abbrev RTR_HOLD_LIM_LIMIT : Fld := ⟨0x44, 0, 6, 4⟩
abbrev RTR_ERR_STAT_OVERRUN : Fld := ⟨0x48, 0, 1, 4⟩
abbrev RTR_ERR_STAT_CRED_PAR : Fld := ⟨0x48, 1, 1, 4⟩
abbrev RTR_ERR_STAT_CRED_OVF : Fld := ⟨0x48, 2, 1, 4⟩
abbrev RTR_ERR_STAT_BUF_OVF : Fld := ⟨0x48, 3, 1, 4⟩
abbrev RTR_ARB_LOG_KIND : Fld := ⟨0x4C, 0, 2, 4⟩
abbrev RTR_ARB_LOG_PORT : Fld := ⟨0x4C, 4, 4, 4⟩
abbrev RTR_ARB_LOG_IN_PORT : Fld := ⟨0x4C, 8, 4, 4⟩
abbrev RTR_ARB_LOG_VC : Fld := ⟨0x4C, 12, 4, 4⟩
abbrev RTR_ARB_LOG_VALID : Fld := ⟨0x4C, 31, 1, 4⟩
abbrev RTR_OVERRUN_CNT_COUNT : Fld := ⟨0x50, 0, 32, 4⟩
abbrev RTR_PORT_STAT_UP : Fld := ⟨0x54, 0, 12, 4⟩
abbrev RTR_PORT_STAT_FAULT : Fld := ⟨0x54, 16, 12, 4⟩
abbrev RTR_PREEMPT_CNT_COUNT : Fld := ⟨0x58, 0, 32, 4⟩
abbrev RTR_CRED_LO_C : Fld := ⟨0x80, 0, 32, 8⟩
abbrev RTR_CRED_HI_C : Fld := ⟨0x84, 0, 32, 8⟩
abbrev RTR_EVT_CAUSE_C : Fld := ⟨0x100, 0, 5, 4⟩
abbrev RTR_EVT_EN_EN : Fld := ⟨0x104, 0, 5, 4⟩
abbrev RTR_ECC_CNT_CORR : Fld := ⟨0x108, 0, 16, 4⟩
abbrev RTR_ECC_CNT_UNCORR : Fld := ⟨0x108, 16, 16, 4⟩
abbrev RTR_BANK_CAP_LO_T : Fld := ⟨0x200, 0, 32, 64⟩
abbrev RTR_BANK_CAP_HI_T : Fld := ⟨0x204, 0, 32, 64⟩
abbrev RTR_BANK_W2_STATE : Fld := ⟨0x208, 0, 2, 64⟩
abbrev RTR_BANK_W2_TIME_INVALID : Fld := ⟨0x208, 2, 1, 64⟩
abbrev RTR_BANK_W2_EXCLUDED : Fld := ⟨0x208, 3, 1, 64⟩
abbrev RTR_BANK_W2_ARM : Fld := ⟨0x208, 8, 8, 64⟩
abbrev RTR_BANK_W3_D : Fld := ⟨0x20C, 0, 32, 64⟩
abbrev RTR_BANK_W4_D : Fld := ⟨0x210, 0, 32, 64⟩
abbrev RTR_BANK_W5_D : Fld := ⟨0x214, 0, 32, 64⟩
abbrev RTR_BANK_W6_D : Fld := ⟨0x218, 0, 32, 64⟩
abbrev RTR_BANK_W7_D : Fld := ⟨0x21C, 0, 32, 64⟩
abbrev RTR_BANK_W8_D : Fld := ⟨0x220, 0, 32, 64⟩
abbrev RTR_BANK_W9_D : Fld := ⟨0x224, 0, 32, 64⟩
abbrev RTR_BANK_W10_D : Fld := ⟨0x228, 0, 32, 64⟩
abbrev RTR_BANK_W11_Z : Fld := ⟨0x22C, 0, 0, 64⟩
abbrev RTR_BANK_W12_Z : Fld := ⟨0x230, 0, 0, 64⟩
abbrev RTR_BANK_W13_Z : Fld := ⟨0x234, 0, 0, 64⟩
abbrev RTR_BANK_W14_Z : Fld := ⟨0x238, 0, 0, 64⟩
abbrev RTR_BANK_W15_Z : Fld := ⟨0x23C, 0, 0, 64⟩
abbrev RTR_XING_STAT_PRESENT : Fld := ⟨0x60, 0, 12, 4⟩
abbrev RTR_XING_STAT_ISO : Fld := ⟨0x60, 16, 12, 4⟩
abbrev RTR_XING_EVT_ISO_SEEN : Fld := ⟨0x64, 0, 12, 4⟩
abbrev RTR_XING_EVT_FAULT : Fld := ⟨0x64, 16, 12, 4⟩
abbrev RTR_XING_CNT_COUNT : Fld := ⟨0x68, 0, 32, 4⟩
abbrev SP_EVT_STAT_C : Fld := ⟨0x20, 0, 8, 4⟩
abbrev SP_EVT_EN_EN : Fld := ⟨0x24, 0, 8, 4⟩
abbrev SP_TIME_CFG_ROLE : Fld := ⟨0x400, 0, 2, 4⟩
abbrev SP_TIME_CFG_LAST_O : Fld := ⟨0x400, 16, 16, 4⟩
abbrev SP_TIME_ASYM_ASYM : Fld := ⟨0x404, 0, 32, 4⟩
abbrev SP_BANK_CAP_LO_T : Fld := ⟨0x800, 0, 32, 64⟩
abbrev SP_BANK_CAP_HI_T : Fld := ⟨0x804, 0, 32, 64⟩
abbrev SP_BANK_W2_STATE : Fld := ⟨0x808, 0, 2, 64⟩
abbrev SP_BANK_W2_TIME_INVALID : Fld := ⟨0x808, 2, 1, 64⟩
abbrev SP_BANK_W2_EXCLUDED : Fld := ⟨0x808, 3, 1, 64⟩
abbrev SP_BANK_W2_ARM : Fld := ⟨0x808, 8, 8, 64⟩
abbrev SP_BANK_W3_D : Fld := ⟨0x80C, 0, 32, 64⟩
abbrev SP_BANK_W4_D : Fld := ⟨0x810, 0, 32, 64⟩
abbrev SP_BANK_W5_D : Fld := ⟨0x814, 0, 32, 64⟩
abbrev SP_BANK_W6_D : Fld := ⟨0x818, 0, 32, 64⟩
abbrev SP_BANK_W7_D : Fld := ⟨0x81C, 0, 32, 64⟩
abbrev SP_BANK_R8_Z : Fld := ⟨0x820, 0, 0, 64⟩
abbrev SP_BANK_R9_Z : Fld := ⟨0x824, 0, 0, 64⟩
abbrev SP_BANK_R10_Z : Fld := ⟨0x828, 0, 0, 64⟩
abbrev SP_BANK_R11_Z : Fld := ⟨0x82C, 0, 0, 64⟩
abbrev SP_BANK_R12_Z : Fld := ⟨0x830, 0, 0, 64⟩
abbrev SP_BANK_R13_Z : Fld := ⟨0x834, 0, 0, 64⟩
abbrev SP_BANK_R14_Z : Fld := ⟨0x838, 0, 0, 64⟩
abbrev SP_BANK_R15_Z : Fld := ⟨0x83C, 0, 0, 64⟩
abbrev SP_ID_PORT : Fld := ⟨0x0, 0, 2, 4⟩
abbrev SP_ID_REGION : Fld := ⟨0x0, 4, 4, 4⟩
abbrev SP_ID_LANES : Fld := ⟨0x0, 8, 4, 4⟩
abbrev SP_ID_RTR : Fld := ⟨0x0, 16, 16, 4⟩
abbrev SP_CFG_SPLIT : Fld := ⟨0x4, 0, 2, 4⟩
abbrev SP_CFG_AUTO_DEGRADE : Fld := ⟨0x4, 4, 1, 4⟩
abbrev SP_CFG_AUTO_RESTORE : Fld := ⟨0x4, 5, 1, 4⟩
abbrev SP_CFG_STALL_US : Fld := ⟨0x4, 8, 8, 4⟩
abbrev SP_CFG_RETRY_MS : Fld := ⟨0x4, 16, 16, 4⟩
abbrev SP_TRAIN_CFG_ATTEMPTS : Fld := ⟨0x8, 0, 4, 4⟩
abbrev SP_DOWN_DROP_CNT_COUNT : Fld := ⟨0x10, 0, 32, 4⟩
abbrev SP_TURN_DROP_CNT_COUNT : Fld := ⟨0x14, 0, 32, 4⟩
abbrev SP_STALL_DROP_CNT_COUNT : Fld := ⟨0x18, 0, 32, 4⟩
abbrev SP_NOROUTE_CNT_COUNT : Fld := ⟨0x1C, 0, 32, 4⟩
abbrev SP_FWD_LO : Fld := ⟨0x100, 0, 12, 4⟩
abbrev SP_FWD_HI : Fld := ⟨0x100, 16, 12, 4⟩
abbrev SP_FWD_PORT : Fld := ⟨0x100, 28, 2, 4⟩
abbrev SP_FWD_LINK : Fld := ⟨0x100, 30, 2, 4⟩
abbrev SP_RTAB_CTRL_LOCK : Fld := ⟨0x200, 0, 1, 4⟩
abbrev SP_RTAB_CTRL_UNCHK_CNT : Fld := ⟨0x200, 16, 9, 4⟩
abbrev SP_RTAB_PATH_LO_PATH : Fld := ⟨0x4000, 0, 32, 16⟩
abbrev SP_RTAB_PATH_HI_PATH : Fld := ⟨0x4004, 0, 32, 16⟩
abbrev SP_RTAB_CTRLW_NHOPS : Fld := ⟨0x4008, 0, 5, 16⟩
abbrev SP_RTAB_CTRLW_VALID : Fld := ⟨0x4008, 5, 1, 16⟩
abbrev SP_RTAB_CTRLW_REP : Fld := ⟨0x4008, 6, 1, 16⟩
abbrev SP_RTAB_CTRLW_UNCHK : Fld := ⟨0x4008, 7, 1, 16⟩
abbrev SP_RTAB_CTRLW_PLANE_POL : Fld := ⟨0x4008, 8, 2, 16⟩
abbrev SP_RTAB_CTRLW_BOUND : Fld := ⟨0x4008, 16, 16, 16⟩
abbrev SP_RTAB_INFO_REGMASK : Fld := ⟨0x400C, 0, 16, 16⟩
abbrev SP_RTAB_INFO_XINGS : Fld := ⟨0x400C, 16, 5, 16⟩
abbrev SP_L_CFG_RELAY : Fld := ⟨0x1000, 0, 2, 256⟩
abbrev SP_L_CFG_WIDTH_REQ : Fld := ⟨0x1000, 4, 3, 256⟩
abbrev SP_L_CRED_VN : Fld := ⟨0x1004, 0, 32, 256⟩
abbrev SP_L_STAT_STATE : Fld := ⟨0x1008, 0, 3, 256⟩
abbrev SP_L_STAT_WIDTH : Fld := ⟨0x1008, 4, 2, 256⟩
abbrev SP_L_STAT_LSTATE : Fld := ⟨0x1008, 8, 2, 256⟩
abbrev SP_L_STAT_GOOD : Fld := ⟨0x1008, 16, 8, 256⟩
abbrev SP_L_STAT_REVERSED : Fld := ⟨0x1008, 24, 1, 256⟩
abbrev SP_L_STAT_RELAY_MISMATCH : Fld := ⟨0x1008, 25, 1, 256⟩
abbrev SP_L_FAR_INST : Fld := ⟨0x100C, 0, 12, 256⟩
abbrev SP_L_LANE_C : Fld := ⟨0x1010, 0, 32, 256⟩
abbrev SP_L_LL_CFG_REPLAY_TMO : Fld := ⟨0x1014, 0, 8, 256⟩
abbrev SP_L_LL_CFG_REPLAY_MAX : Fld := ⟨0x1014, 8, 4, 256⟩
abbrev SP_L_LL_CFG_FEC_THR : Fld := ⟨0x1014, 16, 16, 256⟩
abbrev SP_L_RTT_NS : Fld := ⟨0x1018, 0, 16, 256⟩
abbrev SP_L_REPLAY_CNT_COUNT : Fld := ⟨0x1020, 0, 32, 256⟩
abbrev SP_L_CRC_ERR_CNT_COUNT : Fld := ⟨0x1024, 0, 32, 256⟩
abbrev SP_L_FEC_CORR_CNT_COUNT : Fld := ⟨0x1028, 0, 32, 256⟩
abbrev SP_L_FEC_UNCORR_CNT_COUNT : Fld := ⟨0x102C, 0, 32, 256⟩
abbrev SP_L_RETRAIN_CNT_COUNT : Fld := ⟨0x1030, 0, 32, 256⟩

end Sys2Proof.Machine.F
end

