-- ==== Sys2Proof/Machine/Maps.lean ====
section
/-! DEFINITION. Sparse tables in canonical form: read, write, and the form's check. The default of an unlisted key is a
function of the key. -/

namespace Sys2Proof.Machine

/-- What key `i` of table `m` holds, `d i` where it is not listed. -/
def mget {α : Type} (d : Nat → α) : Map α → Nat → α
  | [], i => d i
  | (k, v) :: r, i => if k = i then v else mget d r i

/-- Table `m` with key `i` unlisted. -/
def mdel {α : Type} : Map α → Nat → Map α
  | [], _ => []
  | (k, v) :: r, i => if k = i then mdel r i else (k, v) :: mdel r i

/-- Table `m` with key `i` listed as `v`, keys kept rising. -/
def mins {α : Type} : Map α → Nat → α → Map α
  | [], i, v => [(i, v)]
  | (k, u) :: r, i, v =>
    if k = i then (i, v) :: r else if i < k then (i, v) :: (k, u) :: r else (k, u) :: mins r i v

/-- Table `m` with key `i` holding `v`; an entry equal to the default is not listed. -/
def mset {α : Type} [DecidableEq α] (d : Nat → α) (m : Map α) (i : Nat) (v : α) : Map α :=
  if v = d i then mdel m i else mins m i v

/-- Every key of `m` is above `lo`'s bound, keys rise and no entry holds its default. -/
def mwfFrom {α : Type} [DecidableEq α] (d : Nat → α) : Nat → Map α → Bool
  | _, [] => true
  | lo, (k, v) :: r => decide (lo ≤ k) && decide (v ≠ d k) && mwfFrom d (k + 1) r

/-- The canonical form of a table. -/
def mwf {α : Type} [DecidableEq α] (d : Nat → α) (m : Map α) : Bool := mwfFrom d 0 m

end Sys2Proof.Machine
end

