-- ==== Sys2Proof/Machine/RegTable.lean ====
section
/-! DEFINITION. The register tables of the spec (R102, R121, R142, R182, R223, R247, R248, R285, R322, R323, R344, R391,
R392, R418, R419, R443, R444, R473, R502, R532, R533, R558, R559, R588 to R590, R614, R615, R629, R639, R644): one row per
register or array, with each field's bits, access code, reset value, lock and coverage by the configuration CRC. -/

namespace Sys2Proof.Machine

/-- Registers of GLB, piece 0: offset, count, stride, low word of a 64-bit pair, fields. -/
def regsGlb0 : List RSpec := [
  ⟨0x0, 1, 4, false, [⟨0, 11, .ro, (.v 0x2C9), .free, false⟩, ⟨12, 16, .ro, (.v 0xC53), .free, false⟩, ⟨28, 4, .ro, (.v 1), .free, false⟩]⟩,
  ⟨0x4, 1, 4, false, [⟨0, 4, .ro, (.v 3), .free, false⟩, ⟨8, 4, .ro, (.v 0), .free, false⟩, ⟨16, 8, .ro, (.v 3), .free, false⟩]⟩,
  ⟨0x8, 1, 4, false, [⟨0, 32, .ro, .genId, .free, false⟩]⟩,
  ⟨0xC, 1, 4, false, [⟨0, 12, .rwl, .instId, .inst, true⟩, ⟨31, 1, .rwl, (.v 0), .set12, true⟩]⟩,
  ⟨0x10, 1, 4, false, [⟨0, 1, .rw, .g2, .free, true⟩, ⟨1, 1, .ro, .g2, .free, false⟩]⟩,
  ⟨0x14, 1, 4, false, [⟨0, 2, .ro, .asel, .free, false⟩, ⟨4, 1, .ro, .g2, .free, false⟩, ⟨16, 12, .ro, .instId, .free, false⟩]⟩,
  ⟨0x18, 1, 4, false, [⟨0, 9, .ro, .numNi, .free, false⟩, ⟨12, 3, .ro, .numSpan, .free, false⟩, ⟨16, 5, .ro, .numRegion, .free, false⟩, ⟨24, 4, .ro, .relayDepth, .free, false⟩]⟩,
  ⟨0x1C, 1, 4, false, [⟨0, 8, .ro, .numRtr, .free, false⟩, ⟨8, 5, .ro, .diameter, .free, false⟩, ⟨16, 4, .ro, .vcDepth, .free, false⟩, ⟨24, 4, .ro, .home, .free, false⟩]⟩,
  ⟨0x20, 4, 4, false, [⟨0, 32, .rws, (.v 0), .free, false⟩]⟩,
  ⟨0x80, 1, 4, false, [⟨0, 4, .rwl, (.v 0), .glbGrant, true⟩]⟩,
  ⟨0x84, 1, 4, false, [⟨0, 13, .ro, (.v 0), .free, false⟩, ⟨16, 1, .ro, (.v 0), .free, false⟩]⟩,
  ⟨0xC0, 1, 4, false, [⟨0, 16, .wo, (.v 0), .m012, false⟩]⟩,
  ⟨0xC4, 1, 4, false, [⟨0, 8, .rwl, (.v 0), .m012, false⟩, ⟨31, 1, .wo, (.v 0), .m012, false⟩]⟩,
  ⟨0xC8, 1, 4, false, [⟨0, 3, .ros, (.v 0), .free, false⟩, ⟨16, 16, .w1c, (.v 0), .free, false⟩]⟩,
  ⟨0xCC, 1, 4, false, [⟨0, 4, .ro, (.v 0), .free, false⟩, ⟨8, 1, .ro, (.v 0), .free, false⟩, ⟨9, 1, .ro, (.v 0), .free, false⟩]⟩,
  ⟨0xD0, 1, 4, false, [⟨0, 4, .ro, (.v 0), .free, false⟩, ⟨16, 16, .ro, (.v 0), .free, false⟩]⟩,
  ⟨0xD4, 1, 4, false, [⟨0, 16, .ro, (.v 0), .free, false⟩, ⟨16, 16, .ro, (.v 0), .free, false⟩]⟩,
  ⟨0xE0, 16, 4, false, [⟨0, 2, .ro, (.v 0), .free, false⟩]⟩]

/-- The registers of GLB, in the order of its chapters. -/
def regsGlb : List RSpec := regsGlb0

/-- Registers of STR, piece 0: offset, count, stride, low word of a 64-bit pair, fields. -/
def regsStr0 : List RSpec := [
  ⟨0x800, 1, 4, false, [⟨0, 1, .rw, (.v 1), .free, true⟩, ⟨1, 1, .rw, (.v 0), .free, true⟩, ⟨2, 1, .rw, (.v 0), .free, true⟩, ⟨8, 8, .rw, (.v 0x64), .free, true⟩, ⟨16, 16, .rw, (.v 0x3E8), .free, true⟩]⟩,
  ⟨0x804, 1, 4, false, [⟨0, 3, .ro, (.v 0), .free, false⟩, ⟨4, 3, .ro, (.v 0), .free, false⟩, ⟨8, 4, .ro, (.v 0), .free, false⟩, ⟨12, 4, .ro, (.v 0), .free, false⟩, ⟨16, 1, .ro, (.v 0), .free, false⟩, ⟨17, 1, .ro, (.v 0), .free, false⟩, ⟨24, 1, .w1c, (.v 0), .free, false⟩, ⟨25, 1, .w1c, (.v 0), .free, false⟩]⟩,
  ⟨0x808, 1, 4, true, [⟨0, 32, .ro, (.v 0), .free, false⟩]⟩,
  ⟨0x80C, 1, 4, false, [⟨0, 32, .ro, (.v 0), .free, false⟩]⟩,
  ⟨0x810, 1, 4, false, [⟨0, 32, .ro, (.v 0), .free, false⟩]⟩,
  ⟨0x814, 1, 4, false, [⟨0, 8, .ro, (.v 0), .free, false⟩, ⟨16, 9, .ro, (.v 0), .free, false⟩]⟩,
  ⟨0x0, 1, 4, false, [⟨0, 1, .rwl, (.v 0), .m12, true⟩]⟩,
  ⟨0x4, 1, 4, false, [⟨0, 3, .ro, (.v 0), .free, false⟩, ⟨4, 4, .ro, (.v 0), .free, false⟩, ⟨8, 1, .ro, (.v 0), .free, false⟩]⟩,
  ⟨0x8, 1, 4, false, [⟨0, 32, .ro, (.v 0), .free, false⟩]⟩,
  ⟨0xC, 1, 4, false, [⟨0, 1, .wo, (.v 0), .m02, false⟩, ⟨1, 1, .wo, (.v 0), .m02, false⟩, ⟨8, 18, .ro, (.v 0), .free, false⟩]⟩,
  ⟨0x10, 1, 4, false, [⟨0, 32, .wo, (.v 0), .m02, false⟩]⟩,
  ⟨0x14, 1, 4, false, [⟨0, 16, .rw, (.v 0xFA), .free, true⟩]⟩,
  ⟨0x18, 1, 4, false, [⟨0, 16, .rwl, (.v 0xFFFF), .m012, true⟩, ⟨16, 16, .rwl, (.v 0x125), .m012, true⟩]⟩,
  ⟨0x1C, 1, 4, false, [⟨0, 16, .rwl, (.v 0x1FF), .m012, true⟩]⟩,
  ⟨0x20, 1, 4, false, [⟨0, 5, .ro, (.v 0), .free, false⟩, ⟨8, 6, .ro, (.v 0), .free, false⟩, ⟨16, 1, .w1c, (.v 0), .free, false⟩, ⟨17, 1, .w1c, (.v 0), .free, false⟩]⟩,
  ⟨0x24, 1, 4, false, [⟨0, 32, .ro, (.v 0), .free, false⟩]⟩,
  ⟨0x28, 1, 4, false, [⟨0, 32, .ro, (.v 0), .free, false⟩]⟩,
  ⟨0x2C, 1, 4, false, [⟨0, 1, .rwl, (.v 0), .m1, false⟩]⟩,
  ⟨0x30, 1, 4, false, [⟨0, 7, .ro, .mspAddr, .free, false⟩, ⟨8, 1, .rw, (.v 0), .free, true⟩]⟩,
  ⟨0x34, 1, 4, false, [⟨0, 16, .rw, (.v 0), .free, true⟩, ⟨31, 1, .wo, (.v 0), .free, false⟩]⟩,
  ⟨0x38, 1, 4, false, [⟨0, 8, .rw, .homeNi, .free, true⟩]⟩,
  ⟨0x100, 8, 4, false, [⟨0, 32, .rwl, (.v 0), .m12, true⟩]⟩,
  ⟨0x200, 4, 16, false, [⟨0, 1, .wo, (.v 0), .free, false⟩, ⟨8, 1, .ro, (.v 0), .free, false⟩, ⟨9, 1, .w1c, (.v 0), .free, false⟩, ⟨10, 1, .w1c, (.v 0), .free, false⟩]⟩,
  ⟨0x300, 4, 4, false, [⟨0, 3, .ro, (.v 0), .free, false⟩, ⟨8, 8, .ro, (.v 0), .free, false⟩, ⟨16, 1, .w1c, (.v 0), .free, false⟩]⟩]

/-- Registers of STR, piece 1: offset, count, stride, low word of a 64-bit pair, fields. -/
def regsStr1 : List RSpec := [
  ⟨0x310, 1, 4, false, [⟨0, 8, .rw, (.v 0), .free, false⟩]⟩,
  ⟨0x314, 1, 4, false, [⟨0, 2, .ro, (.v 0), .free, false⟩, ⟨4, 2, .ro, (.v 0), .free, false⟩]⟩,
  ⟨0x2000, 64, 4, false, [⟨0, 32, .rwl, (.v 0), .cmdBusy, false⟩]⟩,
  ⟨0x2100, 64, 4, false, [⟨0, 32, .ro, (.v 0), .free, false⟩]⟩,
  ⟨0x2200, 64, 4, false, [⟨0, 32, .rwl, (.v 0), .cmdBusy, false⟩]⟩,
  ⟨0x2300, 64, 4, false, [⟨0, 32, .ro, (.v 0), .free, false⟩]⟩,
  ⟨0x2400, 64, 4, false, [⟨0, 32, .rwl, (.v 0), .cmdBusy, false⟩]⟩,
  ⟨0x2500, 64, 4, false, [⟨0, 32, .ro, (.v 0), .free, false⟩]⟩,
  ⟨0x2600, 64, 4, false, [⟨0, 32, .rwl, (.v 0), .cmdBusy, false⟩]⟩,
  ⟨0x2700, 64, 4, false, [⟨0, 32, .ro, (.v 0), .free, false⟩]⟩]

/-- The registers of STR, in the order of its chapters. -/
def regsStr : List RSpec := regsStr0 ++ regsStr1

/-- Registers of TIM, piece 0: offset, count, stride, low word of a 64-bit pair, fields. -/
def regsTim0 : List RSpec := [
  ⟨0x0, 1, 4, false, [⟨0, 2, .rw, (.v 0), .free, true⟩, ⟨2, 2, .rw, (.v 0), .free, true⟩, ⟨4, 1, .rw, (.v 0), .free, true⟩, ⟨5, 1, .rw, (.v 0), .free, true⟩, ⟨8, 1, .rwl, (.v 0), .setOnly, true⟩, ⟨9, 1, .rw, (.v 1), .free, true⟩]⟩,
  ⟨0x4, 1, 4, false, [⟨0, 3, .ro, (.v 0), .free, false⟩, ⟨4, 1, .ro, (.v 0), .free, false⟩, ⟨5, 1, .ro, (.v 0), .free, false⟩, ⟨6, 1, .ro, (.v 0), .free, false⟩, ⟨7, 1, .ro, (.v 0), .free, false⟩, ⟨8, 1, .ro, (.v 0), .free, false⟩, ⟨9, 1, .ro, (.v 0), .free, false⟩, ⟨10, 1, .ro, (.v 0), .free, false⟩, ⟨16, 1, .w1c, (.v 0), .free, false⟩, ⟨17, 1, .w1c, (.v 0), .free, false⟩, ⟨18, 1, .w1c, (.v 0), .free, false⟩, ⟨19, 1, .w1c, (.v 0), .free, false⟩, ⟨20, 1, .w1c, (.v 0), .free, false⟩, ⟨21, 1, .w1c, (.v 0), .free, false⟩]⟩,
  ⟨0x8, 1, 4, true, [⟨0, 32, .rwl, (.v 0), .elock, true⟩]⟩,
  ⟨0xC, 1, 4, false, [⟨0, 16, .rwl, (.v 0), .elock, true⟩]⟩,
  ⟨0x10, 1, 4, false, [⟨0, 1, .wo, (.v 0), .free, false⟩, ⟨1, 1, .wo, (.v 0), .free, false⟩]⟩,
  ⟨0x14, 1, 4, false, [⟨0, 32, .ro, (.v 0), .free, false⟩]⟩,
  ⟨0x18, 1, 4, false, [⟨0, 16, .ro, (.v 0), .free, false⟩]⟩,
  ⟨0x1C, 1, 4, false, [⟨0, 30, .ro, (.v 0), .free, false⟩]⟩,
  ⟨0x20, 1, 4, false, [⟨0, 16, .ro, (.v 0), .free, false⟩]⟩,
  ⟨0x24, 1, 4, false, [⟨0, 32, .ro, (.v 0), .free, false⟩]⟩,
  ⟨0x28, 1, 4, false, [⟨0, 32, .ro, (.v 0), .free, false⟩]⟩,
  ⟨0x30, 1, 4, true, [⟨0, 32, .ro, (.v 0xCCCCCCCD), .free, false⟩]⟩,
  ⟨0x34, 1, 4, false, [⟨0, 8, .ro, (.v 0), .free, false⟩]⟩,
  ⟨0x38, 1, 4, false, [⟨0, 32, .ro, (.v 0), .free, false⟩]⟩,
  ⟨0x3C, 1, 4, false, [⟨0, 32, .ro, (.v 0), .free, false⟩]⟩,
  ⟨0x40, 1, 4, false, [⟨0, 4, .rw, (.v 1), .free, true⟩, ⟨4, 4, .rw, (.v 4), .free, true⟩, ⟨8, 4, .rw, (.v 4), .free, true⟩, ⟨12, 4, .rw, (.v 2), .free, true⟩, ⟨16, 12, .rw, (.v 0xC8), .free, true⟩]⟩,
  ⟨0x44, 1, 4, false, [⟨0, 16, .rw, (.v 0x14), .free, true⟩, ⟨16, 16, .rw, (.v 0x64), .free, true⟩]⟩,
  ⟨0x48, 1, 4, false, [⟨0, 32, .rw, (.v 0x3E8), .free, true⟩]⟩,
  ⟨0x4C, 1, 4, false, [⟨0, 16, .rw, (.v 0x3E8), .free, true⟩, ⟨16, 10, .rw, (.v 0x64), .free, true⟩]⟩,
  ⟨0x50, 1, 4, false, [⟨0, 32, .rw, (.v 0), .free, true⟩]⟩,
  ⟨0x54, 1, 4, false, [⟨0, 16, .rw, (.v 0), .free, true⟩]⟩,
  ⟨0x58, 1, 4, false, [⟨0, 16, .rw, (.v 5), .free, true⟩]⟩,
  ⟨0x5C, 1, 4, false, [⟨0, 32, .ro, (.v 0), .free, false⟩]⟩,
  ⟨0x60, 1, 4, false, [⟨0, 8, .rw, (.v 10), .free, true⟩]⟩]

/-- Registers of TIM, piece 1: offset, count, stride, low word of a 64-bit pair, fields. -/
def regsTim1 : List RSpec := [
  ⟨0x64, 1, 4, false, [⟨16, 16, .ro, (.v 0), .free, false⟩]⟩,
  ⟨0x68, 1, 4, false, [⟨0, 16, .rw, (.v 0), .free, false⟩]⟩,
  ⟨0x6C, 1, 4, false, [⟨0, 16, .ro, (.v 0), .free, false⟩]⟩,
  ⟨0x70, 1, 4, false, [⟨0, 1, .ro, (.v 0), .free, false⟩, ⟨1, 1, .ro, (.v 0), .free, false⟩, ⟨2, 1, .ro, (.v 0), .free, false⟩, ⟨3, 1, .ro, (.v 0), .free, false⟩, ⟨4, 1, .ro, (.v 0), .free, false⟩, ⟨16, 16, .ro, (.v 0), .free, false⟩]⟩,
  ⟨0x74, 1, 4, false, [⟨0, 16, .ro, (.v 0), .free, false⟩, ⟨16, 16, .ro, (.v 0), .free, false⟩]⟩,
  ⟨0x78, 1, 4, false, [⟨0, 32, .ro, (.v 0), .free, false⟩]⟩,
  ⟨0x7C, 1, 4, false, [⟨0, 32, .ro, (.v 0), .free, false⟩]⟩,
  ⟨0x80, 4, 8, false, [⟨0, 1, .rw, (.v 0), .free, false⟩, ⟨4, 3, .ro, (.v 0), .free, false⟩, ⟨7, 1, .ro, (.v 0), .free, false⟩, ⟨8, 8, .rw, (.v 1), .free, true⟩]⟩,
  ⟨0x84, 4, 8, false, [⟨0, 30, .rw, (.v 0xF4240), .free, true⟩]⟩,
  ⟨0x100, 2, 64, true, [⟨0, 32, .ro, (.v 0), .free, false⟩]⟩,
  ⟨0x104, 2, 64, false, [⟨0, 32, .ro, (.v 0), .free, false⟩]⟩,
  ⟨0x108, 2, 64, false, [⟨0, 2, .ro, (.v 0), .free, false⟩, ⟨2, 1, .ro, (.v 0), .free, false⟩, ⟨3, 1, .ro, (.v 0), .free, false⟩, ⟨8, 8, .ro, (.v 0), .free, false⟩]⟩,
  ⟨0x10C, 2, 64, false, [⟨0, 32, .ro, (.v 0), .free, false⟩]⟩,
  ⟨0x110, 2, 64, false, [⟨0, 32, .ro, (.v 0), .free, false⟩]⟩,
  ⟨0x114, 2, 64, false, [⟨0, 32, .ro, (.v 0), .free, false⟩]⟩,
  ⟨0x118, 2, 64, false, []⟩,
  ⟨0x11C, 2, 64, false, []⟩,
  ⟨0x120, 2, 64, false, []⟩,
  ⟨0x124, 2, 64, false, []⟩,
  ⟨0x128, 2, 64, false, []⟩,
  ⟨0x12C, 2, 64, false, []⟩,
  ⟨0x130, 2, 64, false, []⟩,
  ⟨0x134, 2, 64, false, []⟩,
  ⟨0x138, 2, 64, false, []⟩]

/-- Registers of TIM, piece 2: offset, count, stride, low word of a 64-bit pair, fields. -/
def regsTim2 : List RSpec := [
  ⟨0x13C, 2, 64, false, []⟩]

/-- The registers of TIM, in the order of its chapters. -/
def regsTim : List RSpec := regsTim0 ++ regsTim1 ++ regsTim2

/-- Registers of HCU, piece 0: offset, count, stride, low word of a 64-bit pair, fields. -/
def regsHcu0 : List RSpec := [
  ⟨0x0, 1, 4, false, [⟨0, 1, .rw, (.v 0), .free, true⟩]⟩,
  ⟨0x4, 1, 4, false, [⟨0, 12, .rw, .lead, .free, true⟩, ⟨16, 16, .rw, (.v 0xFA0), .free, true⟩]⟩,
  ⟨0x8, 1, 4, false, [⟨0, 12, .rw, .guard, .free, true⟩, ⟨16, 16, .rw, (.v 0x4B0), .free, true⟩]⟩,
  ⟨0xC, 1, 4, false, [⟨0, 8, .rw, (.v 0x64), .free, true⟩, ⟨16, 8, .rw, (.v 0x64), .free, true⟩]⟩,
  ⟨0x10, 1, 4, false, [⟨0, 8, .rw, .homeNi, .free, true⟩]⟩,
  ⟨0x14, 1, 4, false, [⟨0, 16, .rw, (.v 0x64), .free, true⟩]⟩,
  ⟨0x18, 1, 4, false, [⟨0, 7, .ro, (.v 0), .free, false⟩, ⟨16, 14, .ro, (.v 0), .free, false⟩, ⟨31, 1, .ro, (.v 0), .free, false⟩]⟩,
  ⟨0x20, 1, 4, false, [⟨0, 32, .ro, (.v 0), .free, false⟩]⟩,
  ⟨0x24, 1, 4, false, [⟨0, 32, .ro, (.v 0), .free, false⟩]⟩,
  ⟨0x28, 1, 4, false, [⟨0, 32, .ro, (.v 0), .free, false⟩]⟩,
  ⟨0x2C, 1, 4, false, [⟨0, 32, .ro, (.v 0), .free, false⟩]⟩,
  ⟨0x30, 1, 4, false, [⟨0, 8, .rw, (.v 0), .free, false⟩]⟩,
  ⟨0x34, 1, 4, false, [⟨0, 4, .ro, (.v 0), .free, false⟩, ⟨16, 11, .ro, (.v 0), .free, false⟩]⟩,
  ⟨0x40, 1, 4, false, [⟨0, 6, .rw, (.v 0), .free, false⟩]⟩,
  ⟨0x44, 8, 4, false, [⟨0, 32, .ro, (.v 0), .free, false⟩]⟩,
  ⟨0x100, 64, 32, false, [⟨0, 4, .ro, (.v 0), .free, false⟩, ⟨8, 5, .ro, (.v 0), .free, false⟩, ⟨16, 8, .ro, (.v 0), .free, false⟩, ⟨24, 6, .ro, (.v 0), .free, false⟩, ⟨30, 1, .ro, (.v 0), .free, false⟩, ⟨31, 1, .ro, (.v 0), .free, false⟩]⟩,
  ⟨0x104, 64, 32, false, [⟨0, 10, .ro, (.v 0), .free, false⟩, ⟨16, 9, .ro, (.v 0), .free, false⟩]⟩,
  ⟨0x108, 64, 32, false, [⟨0, 13, .ro, (.v 0), .free, false⟩, ⟨16, 9, .ro, (.v 0), .free, false⟩]⟩,
  ⟨0x10C, 64, 32, true, [⟨0, 32, .ro, (.v 0), .free, false⟩]⟩,
  ⟨0x110, 64, 32, false, [⟨0, 32, .ro, (.v 0), .free, false⟩]⟩,
  ⟨0x114, 64, 32, true, [⟨0, 32, .ro, (.v 0), .free, false⟩]⟩,
  ⟨0x118, 64, 32, false, [⟨0, 32, .ro, (.v 0), .free, false⟩]⟩,
  ⟨0x11C, 64, 32, false, [⟨0, 9, .ro, (.v 0x1FF), .free, false⟩, ⟨16, 8, .ro, (.v 0), .free, false⟩]⟩]

/-- The registers of HCU, in the order of its chapters. -/
def regsHcu : List RSpec := regsHcu0

/-- Registers of PCR, piece 0: offset, count, stride, low word of a 64-bit pair, fields. -/
def regsPcr0 : List RSpec := [
  ⟨0x100, 16, 4, false, [⟨0, 12, .rwl, .fcMin, .m1, false⟩]⟩,
  ⟨0x140, 1, 4, false, [⟨0, 16, .rwl, (.v 0), .m1, false⟩, ⟨16, 16, .rwl, (.v 0), .m1, false⟩]⟩,
  ⟨0x0, 1, 4, false, [⟨0, 1, .rw, (.v 1), .free, true⟩]⟩,
  ⟨0x4, 1, 4, false, [⟨0, 3, .ro, (.v 0), .free, false⟩, ⟨4, 1, .ro, (.v 0), .free, false⟩, ⟨8, 3, .ro, (.v 0), .free, false⟩, ⟨16, 1, .w1c, (.v 0), .free, false⟩, ⟨17, 1, .w1c, (.v 0), .free, false⟩, ⟨18, 1, .ro, (.v 0), .free, false⟩]⟩,
  ⟨0x8, 1, 4, false, [⟨0, 1, .rw, (.v 1), .free, true⟩, ⟨1, 1, .rw, (.v 1), .free, true⟩, ⟨2, 1, .rw, (.v 1), .free, true⟩, ⟨3, 1, .rw, (.v 0), .free, true⟩, ⟨16, 16, .rw, (.v 0), .free, true⟩]⟩,
  ⟨0xC, 1, 4, false, [⟨0, 16, .rw, (.v 0x64), .free, true⟩, ⟨16, 16, .rw, (.v 0xC8), .free, true⟩]⟩,
  ⟨0x10, 1, 4, false, [⟨0, 16, .rw, (.v 0x12C0), .free, true⟩]⟩,
  ⟨0x14, 1, 4, false, [⟨0, 20, .rw, (.v 0xBB80), .free, true⟩]⟩,
  ⟨0x18, 1, 4, false, [⟨0, 32, .ro, (.v 0xBB80), .free, false⟩]⟩,
  ⟨0x1C, 1, 4, false, [⟨0, 16, .rw, (.v 0x1F40), .free, true⟩, ⟨16, 16, .rw, (.v 0x5DC0), .free, true⟩]⟩,
  ⟨0x20, 1, 4, false, [⟨0, 12, .rw, (.v 0x100), .free, true⟩, ⟨16, 13, .rw, (.v 0x12C0), .free, true⟩]⟩,
  ⟨0x24, 1, 4, false, [⟨0, 16, .rw, (.v 0x200), .free, true⟩, ⟨16, 16, .rw, (.v 0x7D0), .free, true⟩]⟩,
  ⟨0x28, 1, 4, false, [⟨0, 16, .rw, (.v 0x11D), .free, true⟩]⟩,
  ⟨0x2C, 1, 4, false, [⟨0, 8, .rw, (.v 0x25), .free, true⟩]⟩,
  ⟨0x30, 1, 4, false, [⟨0, 3, .rw, (.v 4), .free, true⟩, ⟨8, 3, .ro, (.v 0), .free, false⟩, ⟨16, 5, .ro, (.v 0), .free, false⟩]⟩,
  ⟨0x34, 1, 4, false, [⟨0, 32, .ro, (.v 0), .free, false⟩]⟩,
  ⟨0x38, 1, 4, false, [⟨0, 8, .rw, (.v 0x64), .free, true⟩, ⟨8, 8, .rw, (.v 0x73), .free, true⟩]⟩,
  ⟨0x40, 1, 4, false, [⟨0, 16, .rw, (.v 0xC8), .free, true⟩]⟩,
  ⟨0x44, 1, 4, false, [⟨0, 16, .rw, (.v 0x64), .free, true⟩]⟩,
  ⟨0x48, 1, 4, false, [⟨0, 16, .rw, (.v 0x7D0), .free, true⟩]⟩,
  ⟨0x4C, 1, 4, false, [⟨0, 16, .rw, (.v 0x5DC), .free, true⟩]⟩,
  ⟨0x50, 1, 4, false, [⟨0, 16, .rw, (.v 0x1F4), .free, true⟩]⟩,
  ⟨0x60, 16, 4, false, [⟨0, 3, .rw, (.v 0), .free, true⟩, ⟨8, 5, .rw, (.v 6), .free, true⟩, ⟨16, 5, .rw, (.v 14), .free, true⟩, ⟨24, 8, .rw, (.v 0x10), .free, true⟩]⟩,
  ⟨0xA0, 16, 4, false, [⟨0, 3, .ro, (.v 0), .free, false⟩, ⟨4, 1, .ro, (.v 0), .free, false⟩, ⟨8, 1, .w1c, (.v 0), .free, false⟩, ⟨9, 1, .w1c, (.v 0), .free, false⟩, ⟨10, 1, .w1c, (.v 0), .free, false⟩, ⟨24, 8, .ro, (.v 0), .free, false⟩]⟩]

/-- Registers of PCR, piece 1: offset, count, stride, low word of a 64-bit pair, fields. -/
def regsPcr1 : List RSpec := [
  ⟨0x180, 16, 4, false, [⟨0, 12, .ro, .fcMax, .free, false⟩, ⟨16, 12, .ro, .vNom, .free, false⟩]⟩,
  ⟨0x1C0, 16, 4, false, [⟨0, 16, .ro, (.v 0xFFFF), .free, false⟩, ⟨16, 16, .ro, (.v 0xFFFF), .free, false⟩]⟩,
  ⟨0x200, 16, 4, false, [⟨0, 12, .rw, (.v 0x28), .free, true⟩]⟩,
  ⟨0x240, 16, 4, false, [⟨0, 16, .ro, (.v 0), .free, false⟩, ⟨16, 16, .ro, (.v 0), .free, false⟩]⟩]

/-- The registers of PCR, in the order of its chapters. -/
def regsPcr : List RSpec := regsPcr0 ++ regsPcr1

/-- Registers of EVT, piece 0: offset, count, stride, low word of a 64-bit pair, fields. -/
def regsEvt0 : List RSpec := [
  ⟨0x8, 1, 4, false, [⟨0, 20, .rw, (.v 0), .free, true⟩, ⟨31, 1, .rw, (.v 0), .free, true⟩]⟩,
  ⟨0xC, 1, 4, false, [⟨0, 20, .rw, (.v 0), .free, true⟩, ⟨31, 1, .rw, (.v 0), .free, true⟩]⟩,
  ⟨0x10, 1, 4, false, [⟨0, 32, .ro, (.v 0), .free, false⟩]⟩,
  ⟨0x14, 1, 4, false, [⟨0, 16, .ro, (.v 0), .free, false⟩]⟩,
  ⟨0x18, 1, 4, false, [⟨0, 32, .ro, (.v 0), .free, false⟩]⟩,
  ⟨0x40, 20, 4, false, [⟨0, 32, .ro, (.v 0), .free, false⟩]⟩,
  ⟨0x100, 16, 4, false, [⟨0, 4, .w1c, (.v 0), .free, false⟩]⟩,
  ⟨0x140, 16, 4, false, [⟨0, 8, .w1c, (.v 0), .free, false⟩]⟩,
  ⟨0x180, 16, 4, false, [⟨0, 8, .rw, (.v 0xFF), .free, true⟩]⟩,
  ⟨0x1C0, 1, 4, false, [⟨0, 4, .rw, (.v 15), .free, true⟩]⟩,
  ⟨0x200, 1, 4, false, [⟨0, 10, .ros, (.v 0), .free, false⟩, ⟨10, 5, .ros, (.v 0), .free, false⟩, ⟨16, 3, .ros, (.v 0), .free, false⟩, ⟨20, 1, .ros, (.v 0), .free, false⟩, ⟨30, 1, .wo, (.v 0), .free, false⟩, ⟨31, 1, .ros, (.v 0), .free, false⟩]⟩,
  ⟨0x204, 1, 4, false, [⟨0, 17, .ros, (.v 0), .free, false⟩]⟩,
  ⟨0x208, 1, 4, true, [⟨0, 32, .ros, (.v 0), .free, false⟩]⟩,
  ⟨0x20C, 1, 4, false, [⟨0, 32, .ros, (.v 0), .free, false⟩]⟩,
  ⟨0x210, 1, 4, false, [⟨0, 10, .ros, (.v 0), .free, false⟩, ⟨10, 5, .ros, (.v 0), .free, false⟩, ⟨16, 3, .ros, (.v 0), .free, false⟩, ⟨20, 1, .ros, (.v 0), .free, false⟩, ⟨30, 1, .wo, (.v 0), .free, false⟩, ⟨31, 1, .ros, (.v 0), .free, false⟩]⟩,
  ⟨0x214, 1, 4, false, [⟨0, 17, .ros, (.v 0), .free, false⟩]⟩,
  ⟨0x218, 1, 4, true, [⟨0, 32, .ros, (.v 0), .free, false⟩]⟩,
  ⟨0x21C, 1, 4, false, [⟨0, 32, .ros, (.v 0), .free, false⟩]⟩,
  ⟨0x220, 1, 4, false, [⟨0, 32, .ros, (.v 0), .free, false⟩]⟩,
  ⟨0x800, 1, 4, false, [⟨0, 32, .rw, (.v 0), .free, false⟩]⟩,
  ⟨0x804, 1, 4, false, [⟨0, 1, .wo, (.v 0), .free, false⟩, ⟨1, 1, .wo, (.v 0), .free, false⟩]⟩,
  ⟨0x808, 1, 4, false, [⟨0, 1, .rw, (.v 0), .free, false⟩, ⟨4, 1, .rw, (.v 0), .free, false⟩, ⟨8, 3, .rw, (.v 2), .free, false⟩, ⟨16, 16, .rw, (.v 0xFA), .free, false⟩]⟩,
  ⟨0x80C, 1, 4, false, [⟨0, 1, .ro, (.v 0), .free, false⟩, ⟨1, 1, .ro, (.v 0), .free, false⟩, ⟨2, 1, .ro, (.v 0), .free, false⟩, ⟨4, 2, .ro, (.v 0), .free, false⟩, ⟨8, 1, .ro, (.v 0), .free, false⟩, ⟨9, 1, .ro, (.v 0), .free, false⟩, ⟨16, 1, .w1c, (.v 0), .free, false⟩]⟩,
  ⟨0x810, 1, 4, false, [⟨0, 32, .ro, (.v 0), .free, false⟩]⟩]

/-- Registers of EVT, piece 1: offset, count, stride, low word of a 64-bit pair, fields. -/
def regsEvt1 : List RSpec := [
  ⟨0x814, 1, 4, false, [⟨0, 17, .ro, (.v 0), .free, false⟩]⟩,
  ⟨0x840, 17, 4, false, [⟨0, 32, .ro, (.v 0), .free, false⟩]⟩,
  ⟨0x880, 17, 4, false, [⟨0, 32, .ro, (.v 0), .free, false⟩]⟩,
  ⟨0x8C4, 1, 4, false, [⟨0, 32, .ro, (.v 0), .free, false⟩]⟩,
  ⟨0x8C8, 1, 4, false, [⟨0, 32, .ro, (.v 0), .free, false⟩]⟩,
  ⟨0x1000, 640, 4, false, [⟨0, 4, .rw, .smod16, .free, true⟩, ⟨4, 1, .rw, (.v 0), .free, true⟩, ⟨5, 1, .rw, (.v 0), .free, true⟩]⟩]

/-- The registers of EVT, in the order of its chapters. -/
def regsEvt : List RSpec := regsEvt0 ++ regsEvt1

/-- Registers of SLC, piece 0: offset, count, stride, low word of a 64-bit pair, fields. -/
def regsSlc0 : List RSpec := [
  ⟨0x0, 1, 4, false, [⟨0, 16, .rw, (.v 0x64), .free, true⟩]⟩,
  ⟨0x4, 1, 4, false, [⟨0, 20, .rw, (.v 0x30D40), .free, true⟩]⟩,
  ⟨0x8, 1, 4, false, [⟨0, 1, .ro, (.v 0), .free, false⟩, ⟨8, 6, .ro, (.v 0), .free, false⟩, ⟨16, 1, .w1c, (.v 0), .free, false⟩, ⟨17, 1, .w1c, (.v 0), .free, false⟩]⟩,
  ⟨0xC, 1, 4, false, [⟨0, 8, .ro, (.v 0), .free, false⟩, ⟨16, 16, .ro, (.v 0), .free, false⟩]⟩,
  ⟨0x10, 1, 4, false, [⟨0, 32, .ro, (.v 0), .free, false⟩]⟩,
  ⟨0x100, 64, 4, false, [⟨0, 3, .ro, (.v 0), .free, false⟩, ⟨4, 1, .ro, (.v 0), .free, false⟩, ⟨16, 16, .ro, (.v 0), .free, false⟩]⟩]

/-- The registers of SLC, in the order of its chapters. -/
def regsSlc : List RSpec := regsSlc0

/-- Registers of CMX, piece 0: offset, count, stride, low word of a 64-bit pair, fields. -/
def regsCmx0 : List RSpec := [
  ⟨0x0, 1, 4, false, [⟨0, 1, .rwl, (.v 0), .m12, true⟩, ⟨1, 1, .rw, (.v 0), .free, true⟩]⟩,
  ⟨0x4, 1, 4, false, [⟨0, 16, .rw, (.v 0x1000), .free, true⟩]⟩,
  ⟨0x8, 1, 4, false, [⟨0, 20, .rw, (.v 0x4000), .free, true⟩]⟩,
  ⟨0x10, 6, 4, false, [⟨0, 12, .rw, (.v 0), .free, true⟩]⟩,
  ⟨0x40, 1, 4, false, [⟨0, 10, .rw, (.v 0), .free, false⟩]⟩,
  ⟨0x44, 1, 4, false, [⟨0, 1, .ro, (.v 0), .free, false⟩, ⟨4, 3, .ro, (.v 0), .free, false⟩, ⟨8, 1, .w1c, (.v 0), .free, false⟩]⟩,
  ⟨0x48, 1, 4, false, [⟨0, 1, .ro, (.v 0), .free, false⟩]⟩,
  ⟨0x4C, 1, 4, false, [⟨0, 10, .ro, (.v 0), .free, false⟩, ⟨12, 3, .ro, (.v 0), .free, false⟩, ⟨16, 2, .ro, (.v 0), .free, false⟩, ⟨31, 1, .w1c, (.v 0), .free, false⟩]⟩,
  ⟨0x50, 1, 4, false, [⟨1, 10, .w1c, (.v 0), .free, false⟩]⟩,
  ⟨0x54, 1, 4, false, [⟨0, 24, .ro, (.v 0), .free, false⟩]⟩,
  ⟨0x58, 1, 4, false, [⟨0, 3, .ro, (.v 0), .free, false⟩, ⟨4, 4, .ro, (.v 0), .free, false⟩, ⟨8, 1, .ro, (.v 0), .free, false⟩, ⟨9, 2, .ro, (.v 0), .free, false⟩, ⟨31, 1, .w1c, (.v 0), .free, false⟩]⟩,
  ⟨0x5C, 1, 4, false, [⟨0, 32, .ro, (.v 0), .free, false⟩]⟩,
  ⟨0x80, 6, 4, false, [⟨0, 1, .w1c, (.v 0), .free, false⟩, ⟨8, 5, .ro, (.v 0), .free, false⟩, ⟨16, 1, .ro, (.v 0), .free, false⟩]⟩]

/-- The registers of CMX, in the order of its chapters. -/
def regsCmx : List RSpec := regsCmx0

/-- Registers of PF, piece 0: offset, count, stride, low word of a 64-bit pair, fields. -/
def regsPf0 : List RSpec := [
  ⟨0x0, 2, 32, false, [⟨0, 3, .ro, (.v 0), .free, false⟩, ⟨4, 2, .ro, (.v 0), .free, false⟩, ⟨8, 2, .ro, (.v 0), .free, false⟩, ⟨16, 8, .ro, (.v 0), .free, false⟩]⟩,
  ⟨0x4, 2, 32, false, []⟩,
  ⟨0x8, 2, 32, true, [⟨0, 32, .ro, (.v 0), .free, false⟩]⟩,
  ⟨0xC, 2, 32, false, [⟨0, 32, .ro, (.v 0), .free, false⟩]⟩,
  ⟨0x10, 2, 32, false, [⟨0, 10, .ro, (.v 0), .free, false⟩, ⟨16, 10, .ro, (.v 0), .free, false⟩]⟩,
  ⟨0x14, 2, 32, false, [⟨0, 10, .ro, (.v 0), .free, false⟩, ⟨16, 10, .ro, (.v 0), .free, false⟩]⟩,
  ⟨0x18, 2, 32, false, []⟩,
  ⟨0x1C, 2, 32, false, []⟩,
  ⟨0x100, 1, 4, false, [⟨0, 1, .ro, (.v 0), .free, false⟩, ⟨1, 1, .rw, (.v 0), .free, true⟩, ⟨16, 16, .rwl, (.v 0x3E8), .evEn, true⟩]⟩,
  ⟨0x104, 1, 4, false, [⟨0, 8, .rwl, (.v 0), .evEn, true⟩]⟩,
  ⟨0x108, 1, 4, true, [⟨7, 25, .rwl, (.v 0), .evEn, true⟩]⟩,
  ⟨0x10C, 1, 4, false, [⟨0, 32, .rwl, (.v 0), .evEn, true⟩]⟩,
  ⟨0x110, 1, 4, false, [⟨0, 5, .rwl, (.v 12), .evEn, true⟩]⟩,
  ⟨0x114, 1, 4, false, [⟨0, 16, .ro, (.v 0), .free, false⟩]⟩,
  ⟨0x118, 1, 4, false, [⟨0, 16, .rw, (.v 0), .free, false⟩]⟩,
  ⟨0x11C, 1, 4, false, [⟨0, 1, .ro, (.v 0), .free, false⟩, ⟨1, 4, .ro, (.v 0), .free, false⟩, ⟨8, 1, .w1c, (.v 0), .free, false⟩, ⟨9, 1, .w1c, (.v 0), .free, false⟩, ⟨10, 1, .ro, (.v 0), .free, false⟩, ⟨11, 1, .w1c, (.v 0), .free, false⟩, ⟨12, 1, .ros, (.v 0), .free, false⟩]⟩,
  ⟨0x120, 1, 4, false, [⟨0, 32, .ro, (.v 0), .free, false⟩]⟩,
  ⟨0x128, 1, 4, true, [⟨0, 32, .ros, (.v 0), .free, false⟩]⟩,
  ⟨0x12C, 1, 4, false, [⟨0, 32, .ros, (.v 0), .free, false⟩]⟩,
  ⟨0x130, 8, 4, false, [⟨0, 32, .ros, (.v 0), .free, false⟩]⟩]

/-- The registers of PF, in the order of its chapters. -/
def regsPf : List RSpec := regsPf0

/-- Registers of DBG, piece 0: offset, count, stride, low word of a 64-bit pair, fields. -/
def regsDbg0 : List RSpec := [
  ⟨0x0, 1, 4, false, [⟨0, 1, .ro, (.v 0), .free, false⟩, ⟨1, 1, .ro, (.v 0), .free, false⟩, ⟨2, 1, .w1c, (.v 0), .free, false⟩, ⟨4, 2, .ro, (.v 0), .free, false⟩, ⟨8, 1, .ro, (.v 0), .free, false⟩, ⟨9, 1, .ro, (.v 0), .free, false⟩, ⟨16, 10, .ro, (.v 0), .free, false⟩]⟩,
  ⟨0x4, 1, 4, false, [⟨0, 2, .rwl, (.v 0), .dbg12, false⟩, ⟨8, 1, .wo, (.v 0), .m2, false⟩]⟩,
  ⟨0x10, 1, 4, false, [⟨0, 1, .rwl, (.v 0), .dbgDis, false⟩, ⟨1, 2, .rwl, (.v 0), .dbgDis, false⟩, ⟨3, 1, .rwl, (.v 0), .dbgDis, false⟩, ⟨4, 2, .rwl, (.v 0), .dbgDis, false⟩, ⟨6, 1, .rwl, (.v 0), .dbgDis, false⟩]⟩,
  ⟨0x14, 1, 4, false, [⟨0, 2, .rwl, (.v 0), .dbgDis, false⟩, ⟨2, 1, .rwl, (.v 0), .dbgDis, false⟩, ⟨4, 4, .rwl, (.v 0), .dbgDis, false⟩, ⟨8, 16, .rwl, (.v 0), .dbgDis, false⟩]⟩,
  ⟨0x18, 1, 4, false, [⟨0, 16, .rwl, (.v 0xFFFF), .dbgDis, false⟩, ⟨16, 9, .rwl, (.v 0x1FF), .dbgDis, false⟩]⟩,
  ⟨0x1C, 1, 4, false, [⟨0, 20, .rwl, (.v 0), .dbgDis, false⟩]⟩,
  ⟨0x20, 1, 4, false, [⟨0, 20, .rwl, (.v 0), .dbgDis, false⟩]⟩,
  ⟨0x24, 1, 4, false, [⟨0, 20, .rwl, (.v 0), .dbgDis, false⟩]⟩,
  ⟨0x28, 1, 4, false, [⟨0, 20, .rwl, (.v 0), .dbgDis, false⟩]⟩,
  ⟨0x30, 1, 4, true, [⟨0, 32, .rwl, (.v 0), .dbgDis, false⟩]⟩,
  ⟨0x34, 1, 4, false, [⟨0, 32, .rwl, (.v 0), .dbgDis, false⟩]⟩,
  ⟨0x38, 1, 4, false, [⟨0, 12, .ro, (.v 0), .free, false⟩, ⟨16, 13, .ro, (.v 0), .free, false⟩, ⟨31, 1, .ro, (.v 0), .free, false⟩]⟩]

/-- The registers of DBG, in the order of its chapters. -/
def regsDbg : List RSpec := regsDbg0

/-- Registers of NI, piece 0: offset, count, stride, low word of a 64-bit pair, fields. -/
def regsNi0 : List RSpec := [
  ⟨0x0, 1, 4, false, [⟨0, 8, .ro, .idx, .free, false⟩, ⟨8, 4, .ro, .niRegion, .free, false⟩, ⟨12, 3, .ro, .epWidth, .free, false⟩, ⟨16, 2, .ro, .sched, .free, false⟩, ⟨20, 4, .ro, .epRole, .free, false⟩]⟩,
  ⟨0x100, 1, 4, false, [⟨0, 3, .ro, .epWidth, .free, false⟩, ⟨8, 5, .rw, (.v 0x10), .free, true⟩, ⟨13, 1, .rw, (.v 0), .free, true⟩, ⟨14, 1, .rw, (.v 1), .free, true⟩, ⟨15, 1, .rw, (.v 1), .free, true⟩]⟩,
  ⟨0x104, 1, 4, false, [⟨0, 1, .w1c, (.v 0), .free, false⟩, ⟨1, 1, .w1c, (.v 0), .free, false⟩, ⟨2, 1, .w1c, (.v 0), .free, false⟩, ⟨3, 1, .w1c, (.v 0), .free, false⟩, ⟨4, 1, .w1c, (.v 0), .free, false⟩, ⟨5, 1, .w1c, (.v 0), .free, false⟩]⟩,
  ⟨0x108, 1, 4, false, [⟨0, 10, .rw, (.v 0x200), .free, true⟩]⟩,
  ⟨0x10C, 1, 4, false, [⟨0, 10, .ro, (.v 0), .free, false⟩]⟩,
  ⟨0x110, 1, 4, false, [⟨0, 32, .ro, (.v 0), .free, false⟩]⟩,
  ⟨0x114, 1, 4, false, [⟨0, 5, .ro, (.v 0), .free, false⟩, ⟨8, 8, .ro, (.v 0), .free, false⟩, ⟨16, 6, .ro, (.v 0), .free, false⟩, ⟨31, 1, .w1c, (.v 0), .free, false⟩]⟩,
  ⟨0x118, 1, 4, false, [⟨0, 20, .ro, (.v 0), .free, false⟩]⟩,
  ⟨0x11C, 1, 4, false, [⟨0, 32, .ro, (.v 0), .free, false⟩]⟩,
  ⟨0x120, 1, 4, false, [⟨0, 32, .ro, (.v 0), .free, false⟩]⟩,
  ⟨0x124, 1, 4, false, [⟨0, 32, .ro, (.v 0), .free, false⟩]⟩,
  ⟨0x128, 1, 4, false, [⟨0, 32, .ro, (.v 0), .free, false⟩]⟩,
  ⟨0x200, 1, 4, false, [⟨0, 1, .rwl, (.v 0), .m12, true⟩, ⟨16, 9, .ro, (.v 0), .free, false⟩]⟩,
  ⟨0x210, 1, 4, false, [⟨0, 6, .rwl, (.v 0), .rtab, false⟩, ⟨8, 3, .rwl, (.v 0), .rtab, false⟩]⟩,
  ⟨0x214, 1, 4, false, [⟨0, 32, .rwl, (.v 0), .rtab, false⟩]⟩,
  ⟨0x218, 1, 4, false, [⟨0, 32, .ro, (.v 0), .free, false⟩]⟩,
  ⟨0x1000, 260, 16, true, [⟨0, 32, .rwl, (.v 0), .rtab, true⟩]⟩,
  ⟨0x1004, 260, 16, false, [⟨0, 32, .rwl, (.v 0), .rtab, true⟩]⟩,
  ⟨0x1008, 260, 16, true, [⟨0, 5, .rwl, (.v 0), .rtab, true⟩, ⟨5, 1, .rwl, (.v 0), .rtab, true⟩, ⟨6, 1, .rwl, (.v 0), .rtab, true⟩, ⟨7, 1, .ro, (.v 0), .free, false⟩, ⟨8, 2, .rwl, (.v 0), .rtab, true⟩, ⟨16, 16, .rwl, (.v 0), .rtab, true⟩]⟩,
  ⟨0x100C, 260, 16, false, [⟨0, 16, .rwl, (.v 0), .rtab, true⟩, ⟨16, 5, .rwl, (.v 0), .rtab, true⟩]⟩,
  ⟨0x800, 32, 32, true, [⟨12, 20, .rw, (.v 0), .free, true⟩]⟩,
  ⟨0x804, 32, 32, false, [⟨0, 32, .rw, (.v 0), .free, true⟩]⟩,
  ⟨0x808, 32, 32, true, [⟨0, 12, .ro, (.v 0xFFF), .free, false⟩, ⟨12, 20, .rw, (.v 0), .free, true⟩]⟩,
  ⟨0x80C, 32, 32, false, [⟨0, 32, .rw, (.v 0), .free, true⟩]⟩]

/-- Registers of NI, piece 1: offset, count, stride, low word of a 64-bit pair, fields. -/
def regsNi1 : List RSpec := [
  ⟨0x810, 32, 32, false, [⟨0, 20, .rw, (.v 0), .free, true⟩, ⟨30, 2, .rw, (.v 0), .free, true⟩]⟩,
  ⟨0x814, 32, 32, false, [⟨0, 1, .rw, (.v 0), .free, true⟩, ⟨1, 1, .rw, (.v 0), .free, true⟩, ⟨2, 1, .rw, (.v 0), .free, true⟩, ⟨3, 1, .rw, (.v 0), .free, true⟩, ⟨4, 4, .rw, (.v 9), .free, true⟩]⟩,
  ⟨0x818, 32, 32, false, []⟩,
  ⟨0x81C, 32, 32, false, []⟩,
  ⟨0x300, 1, 4, false, [⟨0, 4, .rw, (.v 9), .free, true⟩, ⟨4, 1, .rw, (.v 1), .free, true⟩]⟩,
  ⟨0x304, 1, 4, false, [⟨0, 1, .ro, (.v 1), .free, false⟩, ⟨1, 1, .w1c, (.v 0), .free, false⟩, ⟨2, 1, .w1c, (.v 0), .free, false⟩, ⟨3, 1, .ro, (.v 1), .free, false⟩]⟩,
  ⟨0x308, 1, 4, false, [⟨0, 6, .ro, (.v 0), .free, false⟩, ⟨16, 16, .ro, (.v 0), .free, false⟩]⟩,
  ⟨0x30C, 1, 4, false, [⟨0, 32, .ros, (.v 0), .free, false⟩]⟩,
  ⟨0x310, 1, 4, true, [⟨0, 32, .ros, (.v 0), .free, false⟩]⟩,
  ⟨0x314, 1, 4, false, [⟨0, 32, .ros, (.v 0), .free, false⟩]⟩,
  ⟨0x318, 1, 4, false, [⟨0, 5, .ros, (.v 0), .free, false⟩, ⟨8, 8, .ros, (.v 0), .free, false⟩, ⟨16, 2, .ros, (.v 0), .free, false⟩, ⟨30, 1, .wo, (.v 0), .free, false⟩, ⟨31, 1, .ros, (.v 0), .free, false⟩]⟩,
  ⟨0x31C, 1, 4, false, [⟨0, 32, .ro, (.v 0), .free, false⟩]⟩,
  ⟨0x320, 1, 4, false, [⟨0, 1, .rw, (.v 1), .free, true⟩, ⟨1, 2, .rw, (.v 0), .free, true⟩]⟩,
  ⟨0x324, 1, 4, false, [⟨0, 7, .ro, (.v 0), .free, false⟩]⟩,
  ⟨0x328, 1, 4, false, [⟨0, 32, .ro, (.v 0), .free, false⟩]⟩,
  ⟨0x400, 1, 4, false, [⟨0, 5, .rwl, (.v 1), .niGrant, true⟩]⟩,
  ⟨0x404, 1, 4, false, [⟨0, 1, .rw, (.v 0), .free, true⟩, ⟨4, 4, .rw, (.v 10), .free, true⟩, ⟨8, 1, .wo, (.v 0), .free, false⟩]⟩,
  ⟨0x408, 1, 4, false, [⟨0, 1, .w1c, (.v 0), .free, false⟩, ⟨1, 1, .w1c, (.v 0), .free, false⟩, ⟨2, 1, .w1c, (.v 0), .free, false⟩]⟩,
  ⟨0x40C, 1, 4, false, [⟨0, 32, .ro, (.v 0), .free, false⟩]⟩,
  ⟨0x410, 1, 4, false, [⟨0, 32, .ro, (.v 0), .free, false⟩]⟩,
  ⟨0x414, 1, 4, false, [⟨0, 32, .ro, (.v 0), .free, false⟩]⟩,
  ⟨0x418, 1, 4, false, [⟨0, 32, .ro, (.v 0), .free, false⟩]⟩,
  ⟨0x420, 1, 4, false, [⟨0, 32, .ro, (.v 0), .free, false⟩]⟩,
  ⟨0x428, 1, 4, false, [⟨0, 20, .ro, (.v 0), .free, false⟩, ⟨20, 1, .ro, (.v 0), .free, false⟩, ⟨31, 1, .w1c, (.v 0), .free, false⟩]⟩]

/-- Registers of NI, piece 2: offset, count, stride, low word of a 64-bit pair, fields. -/
def regsNi2 : List RSpec := [
  ⟨0x42C, 1, 4, false, [⟨0, 32, .ro, (.v 0), .free, false⟩]⟩,
  ⟨0x430, 1, 4, false, [⟨0, 16, .ro, (.v 0), .free, false⟩, ⟨16, 16, .ro, (.v 0), .free, false⟩]⟩,
  ⟨0x434, 4, 4, false, [⟨0, 16, .ro, (.v 0), .free, false⟩, ⟨16, 16, .ro, (.v 0), .free, false⟩]⟩,
  ⟨0x450, 16, 8, false, [⟨0, 9, .rwl, (.v 0), .rtab, true⟩, ⟨12, 1, .rwl, (.v 0), .rtab, true⟩, ⟨13, 1, .rwl, (.v 0), .rtab, true⟩, ⟨14, 1, .rwl, (.v 0), .rtab, true⟩, ⟨15, 1, .ro, (.v 0), .free, false⟩]⟩,
  ⟨0x454, 16, 8, false, [⟨0, 16, .rwl, (.v 0), .rtab, true⟩]⟩,
  ⟨0x500, 1, 4, false, [⟨0, 2, .ro, .sched, .free, false⟩, ⟨8, 6, .rw, (.v 0), .free, true⟩, ⟨16, 5, .rw, (.v 12), .free, true⟩, ⟨24, 5, .rw, (.v 0x10), .free, true⟩]⟩,
  ⟨0x504, 1, 4, false, [⟨0, 10, .rw, (.v 0), .free, false⟩, ⟨31, 1, .wo, (.v 0), .free, false⟩]⟩,
  ⟨0x508, 1, 4, false, [⟨0, 2, .rwl, (.v 0), .backlog, false⟩, ⟨2, 1, .rw, (.v 0), .free, false⟩, ⟨4, 4, .rwl, (.v 0), .backlog, false⟩]⟩,
  ⟨0x50C, 1, 4, false, [⟨0, 12, .rw, (.v 0), .free, false⟩, ⟨16, 12, .rw, (.v 0), .free, false⟩]⟩,
  ⟨0x510, 1, 4, false, [⟨0, 13, .ro, (.v 0), .free, false⟩, ⟨16, 1, .ro, (.v 0), .free, false⟩, ⟨17, 1, .ro, (.v 0), .free, false⟩, ⟨18, 1, .ro, (.v 0), .free, false⟩]⟩,
  ⟨0x514, 1, 4, false, [⟨0, 32, .ro, (.v 0), .free, false⟩]⟩,
  ⟨0x518, 1, 4, false, [⟨0, 13, .ro, (.v 0), .free, false⟩, ⟨16, 13, .ro, (.v 0), .free, false⟩]⟩,
  ⟨0x51C, 1, 4, false, [⟨0, 16, .ro, (.v 0), .free, false⟩, ⟨16, 16, .ro, (.v 0), .free, false⟩]⟩,
  ⟨0x520, 4, 4, false, [⟨0, 32, .ro, (.v 0), .free, false⟩]⟩,
  ⟨0x530, 1, 4, false, [⟨0, 16, .ro, (.v 0xFFFF), .free, false⟩, ⟨16, 16, .ro, (.v 0xFFFF), .free, false⟩]⟩,
  ⟨0x534, 1, 4, false, [⟨0, 16, .ro, (.v 0), .free, false⟩, ⟨16, 16, .ro, (.v 0), .free, false⟩]⟩,
  ⟨0x538, 1, 4, false, [⟨0, 32, .ro, (.v 0), .free, false⟩]⟩,
  ⟨0x53C, 1, 4, false, [⟨0, 32, .ro, (.v 0), .free, false⟩]⟩,
  ⟨0x540, 1, 4, false, [⟨0, 20, .rwl, (.v 0), .rtab, true⟩]⟩,
  ⟨0x544, 1, 4, false, [⟨0, 32, .ro, (.v 0), .free, false⟩]⟩,
  ⟨0x548, 1, 4, false, [⟨0, 11, .ro, (.v 0), .free, false⟩]⟩,
  ⟨0x600, 1, 4, false, [⟨0, 1, .ro, (.v 0), .free, false⟩, ⟨1, 1, .ro, (.v 0), .free, false⟩, ⟨2, 1, .w1c, (.v 0), .free, false⟩]⟩,
  ⟨0x580, 16, 16, false, [⟨0, 16, .rwl, (.v 0), .rtab, true⟩, ⟨31, 1, .ro, (.v 0), .free, false⟩]⟩,
  ⟨0x584, 16, 16, false, [⟨0, 16, .rwl, (.v 0x2840), .rtab, true⟩]⟩]

/-- Registers of NI, piece 3: offset, count, stride, low word of a 64-bit pair, fields. -/
def regsNi3 : List RSpec := [
  ⟨0x588, 16, 16, false, [⟨0, 24, .ro, (.v 0), .free, false⟩]⟩,
  ⟨0x58C, 16, 16, false, []⟩,
  ⟨0x700, 1, 4, false, [⟨0, 1, .wo, (.v 0), .free, false⟩, ⟨1, 1, .wo, (.v 0), .free, false⟩, ⟨4, 1, .rw, (.v 0), .free, true⟩, ⟨8, 1, .rw, (.v 0), .free, false⟩, ⟨9, 2, .rw, (.v 0), .free, false⟩]⟩,
  ⟨0x704, 1, 4, false, [⟨0, 10, .rw, (.v 0), .free, true⟩]⟩,
  ⟨0x708, 1, 4, false, [⟨0, 1, .ro, (.v 0), .free, false⟩, ⟨1, 1, .w1c, (.v 0), .free, false⟩, ⟨2, 1, .w1c, (.v 0), .free, false⟩, ⟨3, 1, .w1c, (.v 0), .free, false⟩, ⟨4, 4, .ro, (.v 0), .free, false⟩, ⟨8, 8, .ro, (.v 0), .free, false⟩, ⟨16, 4, .ro, (.v 15), .free, false⟩]⟩,
  ⟨0x710, 1, 4, true, [⟨0, 32, .rwl, (.v 0), .pend, true⟩]⟩,
  ⟨0x714, 1, 4, false, [⟨0, 32, .rwl, (.v 0), .pend, true⟩]⟩,
  ⟨0x718, 1, 4, false, [⟨0, 30, .rwl, (.v 0), .pend, true⟩]⟩,
  ⟨0x71C, 1, 4, false, [⟨0, 9, .rwl, (.v 0), .pend, true⟩]⟩,
  ⟨0x720, 1, 4, true, [⟨0, 32, .ro, (.v 0), .free, false⟩]⟩,
  ⟨0x724, 1, 4, false, [⟨0, 32, .ro, (.v 0), .free, false⟩]⟩,
  ⟨0x728, 1, 4, false, [⟨0, 30, .ro, (.v 0), .free, false⟩]⟩,
  ⟨0x72C, 1, 4, false, [⟨0, 9, .ro, (.v 0), .free, false⟩]⟩,
  ⟨0x3000, 256, 8, true, [⟨0, 1, .ro, (.v 1), .free, true⟩, ⟨1, 3, .rwl, (.v 7), .pend, true⟩, ⟨8, 1, .rwl, (.v 0), .pend, true⟩]⟩,
  ⟨0x3004, 256, 8, false, [⟨0, 30, .rwl, (.v 0), .pend, true⟩]⟩,
  ⟨0x3800, 256, 8, true, [⟨0, 1, .ro, (.v 1), .free, false⟩, ⟨1, 3, .ro, (.v 7), .free, false⟩, ⟨8, 1, .ro, (.v 0), .free, false⟩]⟩,
  ⟨0x3804, 256, 8, false, [⟨0, 30, .ro, (.v 0), .free, false⟩]⟩,
  ⟨0xD00, 1, 4, false, [⟨0, 1, .ro, (.v 1), .free, false⟩, ⟨1, 1, .ro, (.v 1), .free, false⟩, ⟨2, 1, .ro, (.v 0), .free, false⟩]⟩,
  ⟨0xD04, 1, 4, false, [⟨0, 1, .rw, (.v 0), .free, false⟩, ⟨8, 8, .rw, (.v 0x19), .free, true⟩, ⟨16, 8, .rw, (.v 0x19), .free, true⟩]⟩,
  ⟨0xD08, 1, 4, false, [⟨0, 9, .ro, (.v 0), .free, false⟩, ⟨12, 12, .ro, (.v 0), .free, false⟩]⟩,
  ⟨0xD0C, 1, 4, false, [⟨0, 32, .ro, (.v 0), .free, false⟩]⟩,
  ⟨0xD10, 1, 4, false, [⟨0, 32, .ro, (.v 0), .free, false⟩]⟩,
  ⟨0xD14, 1, 4, false, [⟨0, 32, .ro, (.v 0), .free, false⟩]⟩,
  ⟨0xD18, 1, 4, false, [⟨0, 32, .ro, (.v 0), .free, false⟩]⟩]

/-- Registers of NI, piece 4: offset, count, stride, low word of a 64-bit pair, fields. -/
def regsNi4 : List RSpec := [
  ⟨0xD1C, 1, 4, false, [⟨0, 32, .ro, (.v 0), .free, false⟩]⟩,
  ⟨0xD20, 1, 4, false, [⟨0, 32, .ro, (.v 0), .free, false⟩]⟩,
  ⟨0xD24, 1, 4, false, [⟨0, 32, .ro, (.v 0), .free, false⟩]⟩,
  ⟨0xD28, 1, 4, false, [⟨0, 32, .ro, (.v 0), .free, false⟩]⟩,
  ⟨0xD2C, 1, 4, false, [⟨0, 32, .ro, (.v 0), .free, false⟩]⟩,
  ⟨0xD30, 1, 4, false, [⟨0, 32, .ro, (.v 0), .free, false⟩]⟩,
  ⟨0xD34, 1, 4, false, [⟨0, 6, .rw, (.v 8), .free, true⟩]⟩,
  ⟨0xD38, 1, 4, false, [⟨0, 4, .w1c, (.v 0), .free, false⟩, ⟨8, 4, .w1c, (.v 0), .free, false⟩, ⟨16, 1, .ro, (.v 0), .free, false⟩, ⟨17, 1, .ro, (.v 0), .free, false⟩]⟩,
  ⟨0xD3C, 1, 4, false, [⟨0, 32, .ro, (.v 0), .free, false⟩]⟩,
  ⟨0xE00, 1, 4, false, [⟨0, 10, .rw, (.v 0), .free, false⟩]⟩,
  ⟨0xE04, 1, 4, false, [⟨0, 20, .rwl, (.v 0), .rtab, false⟩, ⟨20, 6, .rwl, (.v 0), .rtab, false⟩, ⟨31, 1, .rwl, (.v 0), .rtab, false⟩]⟩,
  ⟨0xE08, 1, 4, false, [⟨0, 32, .ro, (.v 0), .free, false⟩]⟩,
  ⟨0xE40, 1, 4, false, [⟨0, 1, .rw, (.v 0), .free, false⟩, ⟨1, 1, .wo, (.v 0), .free, false⟩, ⟨2, 1, .rw, (.v 0), .free, false⟩, ⟨3, 1, .rw, (.v 0), .free, false⟩, ⟨4, 3, .rw, (.v 0), .free, true⟩, ⟨8, 6, .rw, (.v 0), .free, true⟩]⟩,
  ⟨0xE44, 1, 4, false, [⟨0, 9, .ro, (.v 0), .free, false⟩, ⟨16, 1, .w1c, (.v 0), .free, false⟩]⟩,
  ⟨0xE48, 1, 4, true, [⟨12, 20, .rwl, (.v 0), .rtab, true⟩]⟩,
  ⟨0xE4C, 1, 4, false, [⟨0, 32, .rwl, (.v 0), .rtab, true⟩]⟩,
  ⟨0xE50, 1, 4, false, [⟨0, 32, .ro, (.v 0), .free, false⟩]⟩,
  ⟨0x2400, 64, 8, false, [⟨0, 10, .rwl, (.v 0), .rtab, true⟩, ⟨16, 11, .rwl, (.v 0), .rtab, true⟩]⟩,
  ⟨0x2404, 64, 8, false, [⟨0, 10, .rwl, (.v 0), .rtab, true⟩, ⟨16, 11, .rwl, (.v 0), .rtab, true⟩]⟩,
  ⟨0x2600, 64, 4, false, [⟨0, 10, .ro, (.v 0), .free, false⟩, ⟨16, 11, .ro, (.v 0), .free, false⟩]⟩,
  ⟨0x2800, 128, 4, false, [⟨0, 32, .ro, (.v 0), .free, false⟩]⟩,
  ⟨0xF80, 1, 4, false, [⟨0, 17, .w1c, (.v 0), .free, false⟩]⟩,
  ⟨0xF84, 1, 4, false, [⟨0, 6, .w1c, (.v 0), .free, false⟩]⟩,
  ⟨0xF88, 1, 4, false, [⟨0, 17, .rw, (.v 0x1FFFF), .free, true⟩]⟩]

/-- Registers of NI, piece 5: offset, count, stride, low word of a 64-bit pair, fields. -/
def regsNi5 : List RSpec := [
  ⟨0xF8C, 1, 4, false, [⟨0, 6, .rw, (.v 0x3F), .free, true⟩]⟩,
  ⟨0xF90, 1, 4, false, [⟨0, 16, .ro, (.v 0), .free, false⟩, ⟨16, 16, .ro, (.v 0), .free, false⟩]⟩,
  ⟨0xC00, 2, 64, true, [⟨0, 32, .ro, (.v 0), .free, false⟩]⟩,
  ⟨0xC04, 2, 64, false, [⟨0, 32, .ro, (.v 0), .free, false⟩]⟩,
  ⟨0xC08, 2, 64, false, [⟨0, 2, .ro, (.v 0), .free, false⟩, ⟨2, 1, .ro, (.v 0), .free, false⟩, ⟨3, 1, .ro, (.v 0), .free, false⟩, ⟨8, 8, .ro, (.v 0), .free, false⟩]⟩,
  ⟨0xC0C, 2, 64, false, [⟨0, 32, .ro, (.v 0), .free, false⟩]⟩,
  ⟨0xC10, 2, 64, false, [⟨0, 32, .ro, (.v 0), .free, false⟩]⟩,
  ⟨0xC14, 2, 64, false, [⟨0, 32, .ro, (.v 0), .free, false⟩]⟩,
  ⟨0xC18, 2, 64, false, [⟨0, 32, .ro, (.v 0), .free, false⟩]⟩,
  ⟨0xC1C, 2, 64, false, [⟨0, 32, .ro, (.v 0), .free, false⟩]⟩,
  ⟨0xC20, 2, 64, false, [⟨0, 32, .ro, (.v 0), .free, false⟩]⟩,
  ⟨0xC24, 2, 64, false, [⟨0, 32, .ro, (.v 0), .free, false⟩]⟩,
  ⟨0xC28, 2, 64, false, [⟨0, 32, .ro, (.v 0), .free, false⟩]⟩,
  ⟨0xC2C, 2, 64, false, [⟨0, 32, .ro, (.v 0), .free, false⟩]⟩,
  ⟨0xC30, 2, 64, false, []⟩,
  ⟨0xC34, 2, 64, false, []⟩,
  ⟨0xC38, 2, 64, false, []⟩,
  ⟨0xC3C, 2, 64, false, []⟩,
  ⟨0x740, 1, 4, false, [⟨0, 10, .ro, (.v 0), .free, false⟩, ⟨16, 1, .ro, (.v 0), .free, false⟩, ⟨17, 1, .ro, (.v 0), .free, false⟩, ⟨18, 1, .ro, (.v 0), .free, false⟩, ⟨19, 1, .ro, (.v 0), .free, false⟩]⟩,
  ⟨0x748, 1, 4, true, [⟨12, 20, .rwl, (.v 0), .epHeld, true⟩]⟩,
  ⟨0x74C, 1, 4, false, [⟨0, 32, .rwl, (.v 0), .epHeld, true⟩]⟩,
  ⟨0x750, 1, 4, false, [⟨0, 1, .rwl, (.v 0), .epHeld, true⟩, ⟨8, 6, .rwl, (.v 12), .epHeld, true⟩]⟩,
  ⟨0x754, 1, 4, false, [⟨0, 32, .ro, (.v 0), .free, false⟩]⟩,
  ⟨0xF00, 1, 4, false, [⟨0, 16, .rw, (.v 0x3E8), .free, true⟩]⟩]

/-- Registers of NI, piece 6: offset, count, stride, low word of a 64-bit pair, fields. -/
def regsNi6 : List RSpec := [
  ⟨0xF04, 1, 4, false, [⟨0, 10, .ro, (.v 0), .free, false⟩, ⟨16, 1, .w1c, (.v 0), .free, false⟩]⟩,
  ⟨0xF08, 1, 4, false, [⟨0, 32, .ro, (.v 0), .free, false⟩]⟩,
  ⟨0xF0C, 1, 4, false, [⟨0, 16, .ro, .allRegions, .free, false⟩]⟩,
  ⟨0x2A00, 16, 4, false, [⟨0, 12, .rwl, (.v 0), .rtab, true⟩, ⟨16, 12, .rwl, (.v 0), .rtab, true⟩, ⟨28, 2, .rwl, (.v 0), .rtab, true⟩, ⟨31, 1, .rwl, (.v 0), .rtab, true⟩]⟩]

/-- The registers of NI, in the order of its chapters. -/
def regsNi : List RSpec := regsNi0 ++ regsNi1 ++ regsNi2 ++ regsNi3 ++ regsNi4 ++ regsNi5 ++ regsNi6

/-- Registers of RTR, piece 0: offset, count, stride, low word of a 64-bit pair, fields. -/
def regsRtr0 : List RSpec := [
  ⟨0x180, 1, 4, false, [⟨0, 32, .ro, (.v 0), .free, false⟩]⟩,
  ⟨0x184, 1, 4, false, [⟨0, 3, .ro, (.v 0), .free, false⟩, ⟨4, 4, .ro, (.v 0), .free, false⟩, ⟨8, 4, .ro, (.v 0), .free, false⟩, ⟨12, 4, .ro, (.v 0), .free, false⟩, ⟨16, 4, .ro, (.v 0), .free, false⟩, ⟨20, 1, .ro, (.v 0), .free, false⟩, ⟨31, 1, .w1c, (.v 0), .free, false⟩]⟩,
  ⟨0x188, 1, 4, false, [⟨0, 20, .ro, (.v 0), .free, false⟩]⟩,
  ⟨0x18C, 1, 4, false, [⟨0, 20, .ro, (.v 0), .free, false⟩]⟩,
  ⟨0x0, 1, 4, false, [⟨0, 16, .ro, .idx, .free, false⟩, ⟨16, 4, .ro, .radix, .free, false⟩, ⟨20, 4, .ro, .rtrRegion, .free, false⟩, ⟨24, 1, .ro, .plane, .free, false⟩]⟩,
  ⟨0x40, 1, 4, false, [⟨0, 24, .rw, (.v 0), .free, true⟩]⟩,
  ⟨0x44, 1, 4, false, [⟨0, 6, .rw, (.v 8), .free, true⟩]⟩,
  ⟨0x48, 1, 4, false, [⟨0, 1, .w1c, (.v 0), .free, false⟩, ⟨1, 1, .w1c, (.v 0), .free, false⟩, ⟨2, 1, .w1c, (.v 0), .free, false⟩, ⟨3, 1, .w1c, (.v 0), .free, false⟩]⟩,
  ⟨0x4C, 1, 4, false, [⟨0, 2, .ro, (.v 0), .free, false⟩, ⟨4, 4, .ro, (.v 0), .free, false⟩, ⟨8, 4, .ro, (.v 0), .free, false⟩, ⟨12, 4, .ro, (.v 0), .free, false⟩, ⟨31, 1, .w1c, (.v 0), .free, false⟩]⟩,
  ⟨0x50, 1, 4, false, [⟨0, 32, .ro, (.v 0), .free, false⟩]⟩,
  ⟨0x54, 1, 4, false, [⟨0, 12, .ro, (.v 0), .free, false⟩, ⟨16, 12, .ro, (.v 0), .free, false⟩]⟩,
  ⟨0x58, 1, 4, false, [⟨0, 32, .ro, (.v 0), .free, false⟩]⟩,
  ⟨0x80, 12, 8, true, [⟨0, 32, .ro, (.v 0), .free, false⟩]⟩,
  ⟨0x84, 12, 8, false, [⟨0, 32, .ro, (.v 0), .free, false⟩]⟩,
  ⟨0x100, 1, 4, false, [⟨0, 5, .w1c, (.v 0), .free, false⟩]⟩,
  ⟨0x104, 1, 4, false, [⟨0, 5, .rw, (.v 0x1F), .free, true⟩]⟩,
  ⟨0x108, 1, 4, false, [⟨0, 16, .ro, (.v 0), .free, false⟩, ⟨16, 16, .ro, (.v 0), .free, false⟩]⟩,
  ⟨0x200, 2, 64, true, [⟨0, 32, .ro, (.v 0), .free, false⟩]⟩,
  ⟨0x204, 2, 64, false, [⟨0, 32, .ro, (.v 0), .free, false⟩]⟩,
  ⟨0x208, 2, 64, false, [⟨0, 2, .ro, (.v 0), .free, false⟩, ⟨2, 1, .ro, (.v 0), .free, false⟩, ⟨3, 1, .ro, (.v 0), .free, false⟩, ⟨8, 8, .ro, (.v 0), .free, false⟩]⟩,
  ⟨0x20C, 2, 64, false, [⟨0, 32, .ro, (.v 0), .free, false⟩]⟩,
  ⟨0x210, 2, 64, false, [⟨0, 32, .ro, (.v 0), .free, false⟩]⟩,
  ⟨0x214, 2, 64, false, [⟨0, 32, .ro, (.v 0), .free, false⟩]⟩,
  ⟨0x218, 2, 64, false, [⟨0, 32, .ro, (.v 0), .free, false⟩]⟩]

/-- Registers of RTR, piece 1: offset, count, stride, low word of a 64-bit pair, fields. -/
def regsRtr1 : List RSpec := [
  ⟨0x21C, 2, 64, false, [⟨0, 32, .ro, (.v 0), .free, false⟩]⟩,
  ⟨0x220, 2, 64, false, [⟨0, 32, .ro, (.v 0), .free, false⟩]⟩,
  ⟨0x224, 2, 64, false, [⟨0, 32, .ro, (.v 0), .free, false⟩]⟩,
  ⟨0x228, 2, 64, false, [⟨0, 32, .ro, (.v 0), .free, false⟩]⟩,
  ⟨0x22C, 2, 64, false, []⟩,
  ⟨0x230, 2, 64, false, []⟩,
  ⟨0x234, 2, 64, false, []⟩,
  ⟨0x238, 2, 64, false, []⟩,
  ⟨0x23C, 2, 64, false, []⟩,
  ⟨0x60, 1, 4, false, [⟨0, 12, .ro, .xing, .free, false⟩, ⟨16, 12, .ro, (.v 0), .free, false⟩]⟩,
  ⟨0x64, 1, 4, false, [⟨0, 12, .w1c, (.v 0), .free, false⟩, ⟨16, 12, .w1c, (.v 0), .free, false⟩]⟩,
  ⟨0x68, 1, 4, false, [⟨0, 32, .ro, (.v 0), .free, false⟩]⟩]

/-- The registers of RTR, in the order of its chapters. -/
def regsRtr : List RSpec := regsRtr0 ++ regsRtr1

/-- Registers of SP, piece 0: offset, count, stride, low word of a 64-bit pair, fields. -/
def regsSp0 : List RSpec := [
  ⟨0x20, 1, 4, false, [⟨0, 8, .w1c, (.v 0), .free, false⟩]⟩,
  ⟨0x24, 1, 4, false, [⟨0, 8, .rw, (.v 0xFF), .free, true⟩]⟩,
  ⟨0x400, 1, 4, false, [⟨0, 2, .rw, (.v 0), .free, true⟩, ⟨16, 16, .ro, (.v 0), .free, false⟩]⟩,
  ⟨0x404, 1, 4, false, [⟨0, 32, .rw, (.v 0), .free, true⟩]⟩,
  ⟨0x800, 2, 64, true, [⟨0, 32, .ro, (.v 0), .free, false⟩]⟩,
  ⟨0x804, 2, 64, false, [⟨0, 32, .ro, (.v 0), .free, false⟩]⟩,
  ⟨0x808, 2, 64, false, [⟨0, 2, .ro, (.v 0), .free, false⟩, ⟨2, 1, .ro, (.v 0), .free, false⟩, ⟨3, 1, .ro, (.v 0), .free, false⟩, ⟨8, 8, .ro, (.v 0), .free, false⟩]⟩,
  ⟨0x80C, 2, 64, false, [⟨0, 32, .ro, (.v 0), .free, false⟩]⟩,
  ⟨0x810, 2, 64, false, [⟨0, 32, .ro, (.v 0), .free, false⟩]⟩,
  ⟨0x814, 2, 64, false, [⟨0, 32, .ro, (.v 0), .free, false⟩]⟩,
  ⟨0x818, 2, 64, false, [⟨0, 32, .ro, (.v 0), .free, false⟩]⟩,
  ⟨0x81C, 2, 64, false, [⟨0, 32, .ro, (.v 0), .free, false⟩]⟩,
  ⟨0x820, 2, 64, false, []⟩,
  ⟨0x824, 2, 64, false, []⟩,
  ⟨0x828, 2, 64, false, []⟩,
  ⟨0x82C, 2, 64, false, []⟩,
  ⟨0x830, 2, 64, false, []⟩,
  ⟨0x834, 2, 64, false, []⟩,
  ⟨0x838, 2, 64, false, []⟩,
  ⟨0x83C, 2, 64, false, []⟩,
  ⟨0x0, 1, 4, false, [⟨0, 2, .ro, .idx, .free, false⟩, ⟨4, 4, .ro, .spanRegion, .free, false⟩, ⟨8, 4, .ro, (.v 8), .free, false⟩, ⟨16, 16, .ro, .spanRtr, .free, false⟩]⟩,
  ⟨0x4, 1, 4, false, [⟨0, 2, .rwl, (.v 0), .nego, true⟩, ⟨4, 1, .rw, (.v 1), .free, true⟩, ⟨5, 1, .rw, (.v 0), .free, true⟩, ⟨8, 8, .rw, (.v 10), .free, true⟩, ⟨16, 16, .rw, (.v 0x64), .free, true⟩]⟩,
  ⟨0x8, 1, 4, false, [⟨0, 4, .rw, (.v 3), .free, true⟩]⟩,
  ⟨0x10, 1, 4, false, [⟨0, 32, .ro, (.v 0), .free, false⟩]⟩]

/-- Registers of SP, piece 1: offset, count, stride, low word of a 64-bit pair, fields. -/
def regsSp1 : List RSpec := [
  ⟨0x14, 1, 4, false, [⟨0, 32, .ro, (.v 0), .free, false⟩]⟩,
  ⟨0x18, 1, 4, false, [⟨0, 32, .ro, (.v 0), .free, false⟩]⟩,
  ⟨0x1C, 1, 4, false, [⟨0, 32, .ro, (.v 0), .free, false⟩]⟩,
  ⟨0x100, 16, 4, false, [⟨0, 12, .rw, (.v 0), .free, true⟩, ⟨16, 12, .rw, (.v 0), .free, true⟩, ⟨28, 2, .rw, (.v 0), .free, true⟩, ⟨30, 2, .rw, (.v 0), .free, true⟩]⟩,
  ⟨0x200, 1, 4, false, [⟨0, 1, .rwl, (.v 0), .m12, false⟩, ⟨16, 9, .ro, (.v 0), .free, false⟩]⟩,
  ⟨0x4000, 260, 16, true, [⟨0, 32, .rwl, (.v 0), .spRtab, true⟩]⟩,
  ⟨0x4004, 260, 16, false, [⟨0, 32, .rwl, (.v 0), .spRtab, true⟩]⟩,
  ⟨0x4008, 260, 16, true, [⟨0, 5, .rwl, (.v 0), .spRtab, true⟩, ⟨5, 1, .rwl, (.v 0), .spRtab, true⟩, ⟨6, 1, .rwl, (.v 0), .spRtab, true⟩, ⟨7, 1, .ro, (.v 0), .free, false⟩, ⟨8, 2, .rwl, (.v 0), .spRtab, true⟩, ⟨16, 16, .rwl, (.v 0), .spRtab, true⟩]⟩,
  ⟨0x400C, 260, 16, false, [⟨0, 16, .rwl, (.v 0), .spRtab, true⟩, ⟨16, 5, .rwl, (.v 0), .spRtab, true⟩]⟩,
  ⟨0x1000, 4, 256, false, [⟨0, 2, .rw, (.v 0), .free, true⟩, ⟨4, 3, .rw, (.v 0), .free, true⟩]⟩,
  ⟨0x1004, 4, 256, false, [⟨0, 32, .rwl, (.v 0x40404040), .nego, true⟩]⟩,
  ⟨0x1008, 4, 256, false, [⟨0, 3, .ro, (.v 0), .free, false⟩, ⟨4, 2, .ro, (.v 0), .free, false⟩, ⟨8, 2, .ro, (.v 0), .free, false⟩, ⟨16, 8, .ro, (.v 0), .free, false⟩, ⟨24, 1, .ro, (.v 0), .free, false⟩, ⟨25, 1, .ro, (.v 0), .free, false⟩]⟩,
  ⟨0x100C, 4, 256, false, [⟨0, 12, .ro, (.v 0), .free, false⟩]⟩,
  ⟨0x1010, 4, 256, false, [⟨0, 32, .ro, (.v 0), .free, false⟩]⟩,
  ⟨0x1014, 4, 256, false, [⟨0, 8, .rw, (.v 0x40), .free, true⟩, ⟨8, 4, .rw, (.v 8), .free, true⟩, ⟨16, 16, .rw, (.v 1), .free, true⟩]⟩,
  ⟨0x1018, 4, 256, false, [⟨0, 16, .ro, (.v 0), .free, false⟩]⟩,
  ⟨0x1020, 4, 256, false, [⟨0, 32, .ro, (.v 0), .free, false⟩]⟩,
  ⟨0x1024, 4, 256, false, [⟨0, 32, .ro, (.v 0), .free, false⟩]⟩,
  ⟨0x1028, 4, 256, false, [⟨0, 32, .ro, (.v 0), .free, false⟩]⟩,
  ⟨0x102C, 4, 256, false, [⟨0, 32, .ro, (.v 0), .free, false⟩]⟩,
  ⟨0x1030, 4, 256, false, [⟨0, 32, .ro, (.v 0), .free, false⟩]⟩]

/-- The registers of SP, in the order of its chapters. -/
def regsSp : List RSpec := regsSp0 ++ regsSp1

end Sys2Proof.Machine
end

