-- ==== Sys2Proof/Machine/State.lean ====
section
/-! DEFINITION. State as plain data: every register, buffer, queue, counter, mode and wire that the spec gives the block,
the queue of waiting commands, the reasons a step can stop, and the state right after reset. -/

namespace Sys2Proof.Machine

/-- Why the block stops: for no reason. The spec gives every command an effect, so that no command faults. -/
inductive Fault where
  deriving DecidableEq, Repr

/-- Why the model has no meaning for a command. `notModelled` is raised by a row without a meaning. Safe. -/
inductive Refusal where
  | notModelled (mnemonic : String)
  deriving DecidableEq, Repr

/-! ### Links, routers and the plane ports of NIs and Span ports -/

/-- What a router input VC knows of the packet it is receiving (R141, R547): flits still to come, whether they are
dropped, and the header. -/
structure RxPkt where
  drop : Bool
  left : Nat
  hdr : Hdr
  deriving DecidableEq, Repr

/-- The packet at the front of a router input VC: its header on arrival, flit count and the next flit to send. -/
structure TxPkt where
  hdr : Hdr
  f : Nat
  next : Nat
  deriving DecidableEq, Repr

/-- One input VC (R146): its buffer, the packet arriving and the packet leaving. -/
structure VcSt where
  buf : List Flit := []
  rx : Option RxPkt := none
  tx : Option TxPkt := none
  deriving DecidableEq, Repr

/-- A packet in a plane-output staging slot (R255), and flits of it already sent. `probe` marks a packet of a plane test
(R413). -/
structure Slot where
  hdr : Hdr
  vc : Nat
  payload : List Byte
  f : Nat
  next : Nat := 0
  isReq : Bool := false
  probe : Bool := false
  deriving DecidableEq, Repr

/-- One end of a link, as the input it is fed by and the output it drives (R146 to R172): flits and credit vectors on the wires
toward it, credit vectors toward the crossing station of its link (R541), the crossing-station queue ahead of its input (R539),
its input VCs and FAULT, and the output's credit counters, holders of (o, v), owner, rotation lists and, for an NI or Span port,
its staging slots by VC (R255). `owner` is the input port, the VC and the flits its segment has sent; `dead` says a reset covers
the port. -/
structure PortSt where
  wire : List Flit := []
  cwire : List (BitVec 16) := []
  swire : List (BitVec 16) := []
  stq : List Flit := []
  stSeg : Option Nat := none
  stRot : List (List Nat) := List.replicate 4 [0, 1, 2, 3]
  stStop : Bool := false
  stIso : Bool := false
  vcs : List VcSt := List.replicate 16 {}
  fault : Bool := false
  cred : List Nat := List.replicate 16 0
  loaded : Bool := false
  hold : List (Option Nat) := List.replicate 16 none
  owner : Option (Nat × Nat × Nat) := none
  rot : List (List Nat) := List.replicate 4 (List.range 48)
  slots : Map (Option Slot) := []
  dead : Bool := false
  deriving DecidableEq, Repr

/-! ### Network interfaces -/

/-- One part of a request (R83, R84, R188): destination NI and its node ID, combined status so far, the (offset, length) of its
pieces that are in the fabric, oldest first, and of all its pieces. A request that is not split has one part. -/
structure Part where
  ni : Nat
  node : Nat := 0
  status : Nat := 0
  pieces : List (Nat × Nat) := []
  all : List (Nat × Nat) := []
  deriving DecidableEq, Repr

/-- A requester tag in use (R67, R68): the request it serves. `nqueued` counts packets not yet released and `parts` holds those in
the fabric; `data` is the assembled data of a split read; `preRst` says that the endpoint has been reset since; `evd` that the
request is an evidence write (R340); `dev` that it goes to a device region (R191); `tmo` is the limit in ms that a COMMAND's
header names, 0 for the default (R492). -/
structure Tag where
  ser : Nat
  id : Nat
  code : Nat
  sc : Nat
  slice : Nat
  pid : Nat
  addr : Nat
  len : Nat
  dkey : Nat
  split : Bool := false
  parts : List Part := []
  sb : Bool := false
  store : Bool := false
  cto : Nat := 9
  nqueued : Nat := 0
  regmask : Nat := 0
  data : List Byte := []
  rsc : Nat := 0
  handle : Nat := 0
  preRst : Bool := false
  evd : Bool := false
  dev : Bool := false
  tmo : Nat := 0
  deriving DecidableEq, Repr

/-- A packet waiting in an injection queue or in the system queue (R249, R251). `e` is its route entry; `isReq` tells a
request of tag `tag`; `offer` the time it was offered; `copyOf` the plane of a held second SC0 copy (R257); `probe` the
plane of a plane-test probe (R413); `occ` the flits it takes of its queue and buffer (R253); `grp` a multicast group not
yet expanded (R130) and `skip` the members refused at admission with their statuses; `hold` when its hold for a closed region
began (R513); `after` the overlapping stores held in the store buffer when it came (R195); `read` the header that the one reading
of its route entry gave, for a held second copy (R123, R257); `rpi` marks an answer that came on RPI
(R63); `gaps` holds, by route entry, the GAP under which an SC0 packet was admitted (R230, R497). -/
structure Qp where
  ser : Nat
  ptype : Nat
  op : Nat
  vn : Nat
  sc : Nat
  e : Nat
  dest : Nat
  len : Nat
  addr : Nat := 0
  slice : Nat := 63
  tag : Nat := 0
  gen : Nat := 0
  isReq : Bool := false
  mc : Bool := false
  ovalid : Bool := false
  ostamp : Stamp := 0
  payload : List Byte := []
  ready : Bool := true
  f : Nat := 1
  off : Nat := 0
  offer : Nat := 0
  sb : Bool := false
  istamp : Option Stamp := none
  copyOf : Option Nat := none
  seq : Nat := 0
  probe : Option Nat := none
  hold : Option Nat := none
  part : Nat := 0
  occ : Nat := 0
  grp : Option Nat := none
  skip : List (Nat × Nat) := []
  dev : Bool := false
  after : List Nat := []
  read : Option Hdr := none
  rpi : Bool := false
  gaps : List (Nat × Nat) := []
  deriving DecidableEq, Repr, Inhabited

/-- The SC0 packet that is selected and not yet released (R256): when it was selected, and the injection queue that it heads, none
for the first SC0 packet of the system queue. It stays where it is until its release (R253). -/
structure Sel where
  since : Nat
  q : Option Nat
  deriving DecidableEq, Repr

/-- A packet that waits in the ingress converter for admission (R253). -/
structure Wait where
  st : Bool
  q : Nat
  qps : List Qp
  deriving DecidableEq, Repr

/-- Write data expected on WQI for a transferred request (R72): its serial number, class, tag, address, length, bytes
held so far, beats taken, and whether the data are discarded. -/
structure WqExp where
  ser : Nat
  sc : Nat
  tag : Nat
  addr : Nat
  len : Nat
  got : List Byte := []
  beats : Nat := 0
  discard : Bool := false
  answered : Bool := false
  deriving DecidableEq, Repr

/-- An injection queue (R249, R252, R260 to R265, R284). `vt` is the deficit in bytes or the start tag. -/
structure Queue where
  cls : Nat
  en : Bool := true
  shaper : Nat := 0
  quantum : Nat := 8
  depth : Nat := 128
  pend : Option (Nat × Nat) := none
  vt : Nat := 0
  pkts : List Qp := []
  sdLast : Nat := 0
  sdMax : Nat := 0
  dlLast : Nat := 0
  dlMax : Nat := 0
  deriving DecidableEq, Repr

/-- The working side of a shaper (R268): active RATE and BURST, and the credit in
eighths of a byte. -/
structure Shaper where
  rate : Nat := 0
  burst : Nat := 0x2840
  credit : Int := 0
  deriving DecidableEq, Repr

/-- A barrier waiting for its condition (R204, R205, R669). -/
structure Bar where
  ser : Nat
  id : Nat
  sc : Nat
  complete : Bool
  fault : Bool := false
  deriving DecidableEq, Repr

/-- A packet received at an NI, from its head flit until its last byte has left the NI: payload so far, flits still to
come, flits whose credit is not yet returned, and the marks of R93, R145, R243 and R672. `ep` marks an EP_WRITE action of a
heat (R357): HID, ASEQ, and the displaced HID plus 2^16 where it has displaced a heat. -/
structure Pk where
  hdr : Hdr
  plane : Nat
  vc : Nat
  got : List Byte := []
  left : Nat := 0
  owed : Nat := 0
  poison : Bool := false
  late : Bool := false
  final : Bool := true
  begun : Bool := false
  sent : Nat := 0
  cut : Bool := false
  void : Bool := false
  ep : Option (Nat × Nat × Nat) := none
  deriving DecidableEq, Repr

/-- What an input VC of an NI does with the flits that follow a head flit (R141, R400, R672): drop the counted rest, of which an
SC0 packet may still have to be judged (R243), drop up to the first tail, or append to a received packet. -/
inductive NiRx where
  | dropCount (left : Nat) (judge : Option Hdr)
  | dropTail
  | pk (ser : Nat)
  deriving DecidableEq, Repr

/-- An elimination or resequencing context (R395, R399, R403). `ref` is LAST or NEXT; `gap` is when the gap timer
started. -/
structure Ctx where
  base : Bool := true
  ref : Nat := 0
  h : Nat := 0
  held : List Nat := []
  gap : Option Nat := none
  deriving DecidableEq, Repr

/-- A twin-table entry (R402): the context, the SEQ, the plane whose copy is missing, and the slice. -/
structure Twin where
  key : Nat
  seq : Nat
  miss : Nat
  slice : Nat
  deriving DecidableEq, Repr

/-- A delivery outstanding toward the endpoint (R77). `cut` answers FABRIC_ERROR in place of the response (R672, R412);
`drop` discards it (R438); `rsvd` marks a conditional store or reserved load under the NI's monitor (R217), `rser` the reservation
that the load has set, `pk` the received packet that holds its write data, `ser` its place in the order of deliveries, and `ans` the
endpoint's answer while an earlier piece of the same request is owed its own (R77, R189). -/
structure Dlv where
  hdr : Hdr
  sc : Nat
  cut : Bool := false
  drop : Bool := false
  rsvd : Bool := false
  rser : Nat := 0
  pk : Nat := 0
  ep : Option (Nat × Nat × Nat) := none
  ser : Nat := 0
  ans : Option (Nat × List Byte) := none
  deriving DecidableEq, Repr

/-- A response on its way to RPE (R70, R80 to R86): the serial number of its data, ID, the key of the request's destination,
class, status and status vector. -/
structure RpEnt where
  pk : Nat
  id : Nat
  key : Nat
  sc : Nat
  status : Nat
  lane : Nat := 0
  vec : List (Nat × Nat) := []
  deriving DecidableEq, Repr

/-- A request that is still owed its response at RPE, in AQI order (R70): its serial number, ID and destination key, and the
response once it is known. Its tag may have been freed before (R67, R82). -/
structure Owed where
  ser : Nat
  id : Nat
  key : Nat
  rsp : Option RpEnt := none
  deriving DecidableEq, Repr

/-- A reservation of the target NI's monitor (R216): its serial number, requester node, owner slice and granule. -/
structure Rsv where
  ser : Nat
  node : Nat
  slice : Nat
  gran : Nat
  deriving DecidableEq, Repr

/-- What an NI presents at its endpoint port, in order (R56): a response segment with RPE_VCNT, the lane of its first byte, its
data and its RPE_VEC beats, a request with its sideband, a write data segment by beats and byte lanes, a lane without a byte
being one whose WQE_BE is low (R62), a stream segment, or an event code. [DESIGN CHOICE: log 82] -/
inductive EpOut where
  | rpe (id sc status vcnt : Nat) (first last : Bool) (lane : Nat) (data : List Byte) (vec : List (List Byte))
  | aqe (dtag op addr len sc src slice : Nat) (late : Bool) (istamp ostamp : Stamp) (ovalid : Bool)
  | wqe (dtag sc : Nat) (first last : Bool) (beats : List (List (Option Byte)))
  | ste (src sc slice len : Nat) (first last late : Bool) (istamp ostamp : Stamp) (ovalid : Bool) (data : List Byte)
  | sbe (code : BitVec 32)
  deriving DecidableEq, Repr

/-- A staged value in an NI's shadow store (R355). -/
structure Shadow where
  aseq : Nat
  kind : Nat
  index : Nat
  data : Nat
  deriving DecidableEq, Repr

/-- What a target NI holds of a heat (R365): the slot's generation, the state (0 NONE, 1 STAGED, 2 VOTED, 3 COMMITTED, 4 ARMED, 5
APPLIED, 6 STRAGGLER), TNUM, age stamp, T, the shadow entries, and its answer to the collect in progress (0 YES, else a reason of
R363). `conflict` says that an item went to an older heat; `win` that it holds the endpoint window, `ep` that an EP_WRITE has
begun, `lost` that the endpoint has been reset since, `cut` that a reset here before ARM lost actions of the heat (R389). `calls`
are the relay operations of a joined instance's heat that are on their way down the tree, by RKIND and T (R362, R583). -/
structure Target where
  gen : Nat
  st : Nat := 0
  tnum : Nat := 0
  age : Stamp := 0
  t : Stamp := 0
  items : List Shadow := []
  ans : Option Nat := none
  conflict : Bool := false
  win : Bool := false
  ep : Bool := false
  lost : Bool := false
  cut : Bool := false
  calls : List (Nat × Stamp) := []
  deriving DecidableEq, Repr

/-- A relay operation of a heat (R362): RKIND, the HID that slot and generation make up, the map word of a MAP, T of a COMMIT. -/
structure RelayOp where
  rk : Nat
  hid : Nat
  w : Nat := 0
  t : Stamp := 0
  deriving DecidableEq, Repr

/-- A joined collect in progress (R388, R583): its operation, whether this instance's HCU has issued it, the DOWN links whose word
is awaited, whether one of them cannot answer, and the words merged so far. -/
structure Joint where
  op : RelayOp
  own : Bool
  waits : List Nat
  lost : Bool
  acc : Word
  deriving DecidableEq, Repr

/-- A network interface (R56 to R103, R184 to R223, R249 to R286, R394 to R407, R421 to R434): everything it holds outside its
registers. `stalls` are the egress halves whose stall has been counted, with what stands VALID there: a packet, or the class of a
response (R57, R103), and `cut` names the heats, by key and generation, of which a reset here before ARM lost staged actions
(R389). -/
structure NiSt where
  up : Bool := false
  epLow : Bool := false
  recov : Bool := false
  nextSer : Nat := 1
  tags : Map (Option Tag) := []
  gens : Map Nat := []
  genBase : Nat := 0
  wq : List WqExp := []
  ahead : List WBeat := []
  cvt : List Wait := []
  qs : Map Queue := []
  sysq : List Qp := []
  sysPend : List Qp := []
  act : List (List Nat) := List.replicate 4 []
  vtime : List Nat := List.replicate 4 0
  sc0Sel : Option Sel := none
  sc0Last : Map (Option Stamp) := []
  alt : Map Bool := []
  seqs : Map Nat := []
  rem2 : Int := 0
  rem3 : Int := 0
  thrHeld : Bool := false
  shp : Map Shaper := []
  bars : List Bar := []
  sbDrain : Bool := false
  bfPend : Bool := false
  rx : Map (Option NiRx) := []
  pks : Map (Option Pk) := []
  ctxs : Map Ctx := []
  twins : List Twin := []
  aqq : List Nat := []
  wqq : List (Nat × Nat) := []
  rpq : List RpEnt := []
  stq : List Nat := []
  rin : List Nat := []
  inbox : List Nat := []
  dlv : Map (Option Dlv) := []
  rsvs : List Rsv := []
  ord : List Owed := []
  stalls : List (Nat × Nat) := []
  pol : List Nat := [0, 0, 0]
  spur : Map Nat := []
  evq : List (BitVec 16) := []
  migA : Nat := 0
  migF : Nat := 0
  migHeld : List Nat := []
  closed : Nat := 0
  squash : Nat := 0
  iso : Nat := 0
  out : List EpOut := []
  mcg : Map Nat := []
  pid : Map Nat := []
  gatePend : Option Nat := none
  gateLive : Bool := false
  gateOld : Option (Nat × Nat × List (Nat × Nat)) := none
  gateBad : Bool := false
  hist : List Nat := List.replicate 8 0
  histRel : Bool := false
  mgmtIn : List (CsrReq × Nat × Hdr) := []
  probes : List (Nat × Nat × Nat) := []
  timer : Nat := 0
  timerSlot : Nat := 0
  reseqOwner : Nat := 0
  rsvSl : Map Nat := []
  shpSl : Map Nat := []
  evLate : Nat := 0
  evSkip : Nat := 0
  evRes : Option Nat := none
  join : Nat := 0
  tgts : Map (Option Target) := []
  cut : List (Nat × Nat) := []
  deriving DecidableEq, Repr

/-! ### Fabric Time -/

/-- A marker on its way to a node (R292): the sender's Fabric Time as it left, in 2^-32 ns, the increment to be used from the next
marker onward, and a pending step as the markers left before it and its difference in 2^-32 ns. -/
structure Marker where
  time : Nat
  inc : Nat
  step : Option (Nat × Int) := none
  deriving DecidableEq, Repr

/-- A Time Tree node (R290 to R302): its parent hop's calibration, delay in 1/256 ns, failures in a row, run in progress,
freeze, TRACK_FAIL, the errors of the present 16 markers and the last mean, in 1/256 ns. Its Fabric Time counter: `base` is its
value in 2^-32 ns at carrier edge `since`, from which it runs on with the increment `inc` and, for `left` marker periods more, with
`spread` (R293) beside it; `incNext` is the increment that the last marker has carried. `load` says that the counter is yet to be
loaded, and `mark` is the marker on its way to the node. -/
structure Node where
  cal : Bool := false
  dly : Nat := 0
  fails : Nat := 0
  run : Bool := false
  frozen : Bool := false
  track : Bool := false
  sum : Int := 0
  n : Nat := 0
  mean : Int := 0
  base : Nat := 0
  since : Nat := 0
  inc : Nat := 0xCCCCCCCD
  incNext : Nat := 0xCCCCCCCD
  spread : Int := 0
  left : Nat := 0
  load : Bool := true
  mark : Option Marker := none
  deriving DecidableEq, Repr

/-- A freeze of a region's hop set (R299 to R301): the region, its cause (0 a DVFS step, 1 a droop warning) and the markers
still to pass before it takes effect. -/
structure Freeze where
  g : Nat
  why : Nat
  left : Nat
  deriving DecidableEq, Repr

/-- A decided step (R303): the value or the difference in 2^-32 ns, the markers left once it is placed, and the command
that waits for it. -/
structure TStep where
  abs : Bool
  v : Int
  placed : Option Nat := none
  cmd : Option Nat := none
  deriving DecidableEq, Repr

/-- The Time Unit and the Time Tree (R287 to R322). `ft` counts 2^-32 ns; `tc` carrier cycles since the last marker; `incNew` is
the increment that the next marker carries and `incCar` the one that the last carried; `integ` is in 0.001 ppb; `label` is a
loaded time of day in ns with the clock from which it may label an edge; `expect` the second in ns that the next PPS edge is
expected at, `lastClk` the clock of the last accepted edge; `slew` what a slew has still to remove, in 2^-32 ns; `src` is the
source in force (R305); `stepAt` and `calAt` are the clock at the last step and at the last calibration period; `carrier` says
that the carrier has not been lost; `calCmds` are the commands that wait for calibration runs, with their nodes; `spanO` sums the
offsets of a Span port's interval, with their number and the exchanges still to be discarded, and `spanMiss` lists the ports whose
last interval had none; `heatT` are the times T of joined instances' heats that defer steps here (R388); `pinIn` holds captured
input edges by pin, `pinOut` counts driven pulses, and `pinEnd` is the clock at which the last pulse ends, and `pinSync` the
clock, plus 1, at which time sync drove it, 0 where another owner did (R317). -/
structure TimeSt where
  ft : Nat := 0
  tc : Nat := 0
  marks : Nat := 0
  incNew : Nat := 0xCCCCCCCD
  incCar : Nat := 0xCCCCCCCD
  integ : Int := 0
  step : Option TStep := none
  win : Bool := false
  stepAt : Nat := 0
  src : Nat := 0
  lockRun : Nat := 0
  badRun : Nat := 0
  missRun : Nat := 0
  label : Option (Nat × Nat) := none
  expect : Option Nat := none
  lastClk : Option Nat := none
  slew : Option Int := none
  nodes : Map Node := []
  freezes : List Freeze := []
  holdAt : Option Nat := none
  carrier : Bool := true
  calCmds : List (Nat × List Nat) := []
  calLevel : Nat := 0
  calAt : Nat := 0
  markq : Map (List Nat) := []
  spanO : Map (Int × Nat × Nat) := []
  spanMiss : List Nat := []
  ppsOut : Bool := false
  pinIn : Map (Option Nat) := []
  pinOut : Map Nat := []
  pinEnd : Map Nat := []
  pinSync : Map Nat := []
  heatT : List Stamp := []
  deriving DecidableEq, Repr

/-! ### Starter, claims and leave -/

/-- A command packet in the front end (R481, R487, R490): its number, path (0 mailbox, 1 MSP, 2 VN3), mailbox or source
node, the requester's tag and generation, the bytes of the packet and the number its path carried. `t0` is the clock at its
start, `begun` says that its operation has passed its checks and released the stream, and `late` that it was answered TIMEOUT before
its operation ran (R492). -/
structure Cmd where
  id : Nat
  path : Nat
  src : Nat
  tag : Nat := 0
  gen : Nat := 0
  bytes : List Byte
  carried : Option Nat := none
  t0 : Nat := 0
  begun : Bool := false
  late : Bool := false
  deriving DecidableEq, Repr

/-- A leave request (R525): its kind (0 heat commit, 1 Photo Finish snapshot, 2 plane test, 3 Span retrain, 4 CRC
recompute) and the heat slot, snapshot slot, plane, link or command that asks. -/
structure Leave where
  kind : Nat
  who : Nat
  deriving DecidableEq, Repr


/-! ### Photo Finish and evidence -/

/-- A snapshot slot (R325 to R334): the PF_ARM that waits for leave, MODE, PIN and ARM_NUM as it asks, whether EDGE asks for a
falling edge, whether the slot holds its pin, TRIG_DLY in ns, T_c in 1/256 ns of Fabric Time, the NIs left out, the NIs whose
timers are claimed, the participants that the arm broadcast has reached in time, and those that a reset has covered since. -/
structure Pf where
  cmd : Option Nat := none
  mode : Nat := 0
  pin : Nat := 0
  fall : Bool := false
  held : Bool := false
  dly : Nat := 0
  tc : Nat := 0
  excl : List Nat := []
  timers : List Nat := []
  got : List Site := []
  lost : List Site := []
  deriving DecidableEq, Repr

/-- The evidence engine (R336 to R342): the records that are built and not yet written, oldest first, the NI at which the
first of them is in flight, its failures, whether it waits for its retry, the EV_STOP that waits for its record, and what the
span holds so far: the largest |e| in 1/256 ns, the largest skew in ps, a step, mismatches, CRC_HOLD, faulted planes, a
reset, a wake and the intervals skipped. -/
structure Evd where
  held : List (List Byte) := []
  fly : Option Nat := none
  fails : Nat := 0
  retry : Bool := false
  stop : List Nat := []
  offMax : Nat := 0
  skewMax : Nat := 0
  step : Bool := false
  crcMm : Nat := 0
  crcHold : Bool := false
  plane : Nat := 0
  rst : Bool := false
  wake : Bool := false
  skip : Nat := 0
  deriving DecidableEq, Repr

/-! ### Heats -/

/-- An action in the HCU's journal (R348, R350): its number, its target's number, KIND, INDEX, LEN, ADDR and DATA as staged,
the HEAT_STAGE command that carried it and its place there, and the status and DETAIL of its STAGE_ACK. -/
structure Act where
  aseq : Nat
  tnum : Nat
  kind : Nat
  index : Nat
  len : Nat
  addr : Nat
  data : Nat
  cmd : Nat
  idx : Nat
  ack : Option (Nat × Nat) := none
  deriving DecidableEq, Repr

/-- A heat slot (R346 to R348): the journal, the target nodes by TNUM, the stragglers, the HEAT_STAGE commands not answered
with their COUNT, the HEAT_COMMIT not answered, whether T was given (MODE 1), whether the vote is due once every STAGE_ACK is in,
and the reconciliations in progress by TNUM: phase (1 PROBE, 2 APPLY, 3 REPLAY, 4 END) and STAGE_ACKs still to come. -/
structure Heat where
  acts : List Act := []
  tgts : List Nat := []
  strag : List Nat := []
  stages : List (Nat × Nat) := []
  commit : Option Nat := none
  given : Bool := false
  due : Bool := false
  recon : List (Nat × Nat × Nat) := []
  deriving DecidableEq, Repr

/-! ### Slices -/

/-- What the slice manager holds of a slice (R435): the SLICE_RESET that waits, the clock of its entry into CLOSED, and the NI
of its last collect. -/
structure SliceSt where
  cmd : Option Nat := none
  since : Nat := 0
  ni : Nat := 0xFF
  deriving DecidableEq, Repr

/-- A SLICE_MIG_SYNC in progress (R434): its command, slice, node, limit in µs, start and last count. -/
structure MigSync where
  cmd : Nat
  slice : Nat
  node : Nat
  limit : Nat
  t0 : Nat
  last : Nat := 0
  deriving DecidableEq, Repr

/-! ### Planes -/

/-- What waits on a plane (R417): PLANE_DETACH until it is DETACHED, PLANE_TEST until its end, PLANE_ATTACH until T_j,
PLANE_RESET until every output shows UP. -/
structure PlaneSt where
  detach : Option Nat := none
  test : Option Nat := none
  attach : Option Nat := none
  reset : Option Nat := none
  deriving DecidableEq, Repr

/-! ### Regions, the Pacer and start-up -/

/-- A DVFS step (R300, R518 to R520): its command, the new and the old frequency and voltage, the changes still to be made
(true the frequency, false the voltage), its phase (0 waits for a frozen hop set, 1 freeze requested, 2 changes, 3
calibration), and the status of a step that is undone. -/
structure DStep where
  cmd : Nat
  mhz : Nat
  mv : Nat
  oldMhz : Nat
  oldMv : Nat
  todo : List Bool
  ph : Nat := 0
  bad : Option Nat := none
  deriving DecidableEq, Repr

/-- What the Pacer holds of a region (R506 to R520, R528, R553): the state to which an abort or a step's end returns, the target
of an entry or of a wait for IDLE, the clock of its acceptance, whether it may commit, whether the combined hops are being
calibrated (R302), the clock of the last commit, which in CLOSING stands for an entry that has passed edge Q (R514), the step, the
stage of WAKING (0 none, 1 supply, 2 calibration, 3 done; after a reset 4 held, 5 calibration, 6 restoring, 8 restored; 7 supply
after OFF), the IDLE gate (R507) and whether a reset covers the region. -/
structure Rg where
  prev : Nat := 0
  goal : Option Nat := none
  t0 : Nat := 0
  ready : Bool := false
  comb : Bool := false
  q : Option Nat := none
  step : Option DStep := none
  wake : Nat := 0
  gated : Bool := false
  held : Bool := true
  deriving DecidableEq, Repr

/-- The Pacer (R508 to R529): the target and command of an instance-wide entry in progress and the regions it or the last one
has moved, the PWR_STATE commands that wait as (command, regions, state), regions that wake once the home region has, PPS
edges since entry, the governor's bucket in 1/65,536 stone, its internal allowances, flits sent in this window by region,
regions in recovery from a fault (R219), whether degraded ordering mode holds, AON_REQ (R654), and the instance reset
that is asserted (0 none, 1 POR_N, 2 HRST_N or its escalation). -/
structure Pacer where
  inst : Option (Nat × Option Nat) := none
  moved : Nat := 0
  cmds : List (Nat × Nat × Nat) := []
  wakes : Nat := 0
  pps : Nat := 0
  level : Int := 48000 * 65536
  a2 : Nat := 0xFFFF
  a3 : Nat := 0xFFFF
  flits : Map Nat := []
  faults : Nat := 0
  degraded : Bool := true
  aon : Bool := true
  rst : Nat := 1
  deriving DecidableEq, Repr

/-- Start-up (R555): the clock at which its step began, whether the fuses have been sampled (step 1), whether the
instance has become READY, the marker count when
every hop's run had ended (step 5), and the Span links whose first full training attempt is over (step 7). -/
structure Start where
  t0 : Nat := 0
  fuse : Bool := false
  done : Bool := false
  marks : Option Nat := none
  spans : List Nat := []
  deriving DecidableEq, Repr

/-! ### Control Matrix -/

/-- An access in the CMX (R446 to R457): its number, master, the NI and header of a MGMT packet with one more than the plane
under test it came on, the access, its target, since when it is granted, the data, code and LB of its response once it has
one, whether that response is discarded, and whether it has been answered TIMEOUT and may still take effect. -/
structure Csa where
  ser : Nat
  m : Nat
  mg : Option (Nat × Nat × Hdr) := none
  req : CsrReq
  tgt : Nat
  gr : Option Nat := none
  rsp : Option (BitVec 64 × Nat × Bool) := none
  mute : Bool := false
  late : Bool := false
  deriving DecidableEq, Repr

/-- A response at the host port or the debug port (R447, R620): ID, read data, code and LB. -/
structure CsrRsp where
  id : Nat
  data : BitVec 64
  code : Nat
  lb : Bool
  deriving DecidableEq, Repr

/-- The CMX (R446 to R473): the next number, accesses, rotation lists by target, the owner of each lock with the clock of its
grant, (master, target) pairs owed LOCK_CUT, targets with LOCKBRK, targets whose lock breaks once the access in progress there has
completed, with the cause, read shadows and write stages by master and target, each as the pair's offset and its word (a stage
with its clock), HC_RST_N low, and what the host and the debug port have been answered. -/
structure Cmx where
  next : Nat := 1
  acs : List Csa := []
  rots : Map (List Nat) := []
  locks : Map (Option (Nat × Nat)) := []
  cuts : List (Nat × Nat) := []
  brk : List Nat := []
  owed : List (Nat × Nat) := []
  shadow : Map (Option (Nat × Word)) := []
  stage : Map (Option (Nat × Word × Nat)) := []
  hcLow : Bool := false
  hcOut : List CsrRsp := []
  dbgOut : List CsrRsp := []
  deriving DecidableEq, Repr

/-! ### Starter, scanner and debug -/

/-- The Starter core (R475 to R480, R485, R502): Starter SRAM by byte and the bytes that a load has
written there, the clock from which the watchdog counts, whether
the MSP matcher stretches SCL, and what the MSP has answered on the bus (none a NACK). -/
structure Starter where
  sram : Map Byte := []
  len : Nat := 0
  wdog : Nat := 0
  msp : Bool := false
  out : List (Option (List Byte)) := []
  deriving DecidableEq, Repr

/-- The scanner beside its registers (R606 to R613): whether the pending commit is GIVEN, the CFG_RECOMPUTE commands
that wait, and whether the Starter's recompute after heats has its leave. -/
structure Scan where
  given : Bool := false
  cmds : List Nat := []
  heat : Bool := false
  deriving DecidableEq, Repr


/-! ### Span ports and the test access port -/

/-- A Span link (R561 to R583). Training: its kind (0 none, 1 full, 2 a forced and 3 a voluntary retrain), failures in a row, the
SPAN_TRAIN that waits, the kind that asks for leave, lanes to be restored at the next retrain, the lanes whose transmitters a
SHORT holds at high impedance, the failure still to be followed by DOWN with its status, and the far end's CONFIG content. Sender:
the lowest active lane and their number, the next FSEQ, frames not acknowledged, the frame that a replay sends next, replays in a
row, the NAK last seen, credits and the counts last seen by VC, the holder of each VC, the segment in progress and the rotation
lists. Receiver: the last FSEQ accepted, whether NAK is due, and credit counts by VC. Receive VCs with the route of their front
packet (0 the planes, 1 + c link c), crossbar VCs, relay words to send, relay words received of an operation that is not yet
whole, and frames sent. `new` says that the next ACTIVE starts the counts anew, `sink` that flits toward the link are discarded
(R574). Time (R320), in ps: a child's t1 and t2 of the last SYNC, its t3, a parent's t4 still to be returned, and the child's last
whole exchange. -/
structure Link where
  kind : Nat := 0
  tries : Nat := 0
  cmd : Option Nat := none
  want : Nat := 0
  restore : List Nat := []
  hiz : Nat := 0
  fall : Option Nat := none
  far : Option LinkInfo := none
  lane0 : Nat := 0
  lanes : Nat := 0
  txSeq : Nat := 0
  replay : List Frame := []
  rp : Option Nat := none
  rrow : Nat := 0
  nakSeen : Bool := false
  cred : List Nat := List.replicate 16 0
  seen : List Nat := List.replicate 16 0
  hold : List (Option Nat) := List.replicate 16 none
  owner : Option (Nat × Nat) := none
  rot : List (List Nat) := List.replicate 4 (List.range 72)
  rxSeq : Nat := 0xFFF
  nak : Bool := false
  cnt : List Nat := List.replicate 16 0
  rxv : List VcSt := List.replicate 16 {}
  go : List (Option Nat) := List.replicate 16 none
  xbv : List VcSt := List.replicate 16 {}
  relayQ : List Word := []
  relayIn : List Word := []
  out : List Frame := []
  new : Bool := true
  sink : Bool := true
  t12 : Option (Nat × Nat) := none
  t3 : Option Nat := none
  t4 : Option Nat := none
  exch : Option (Nat × Nat × Nat × Nat) := none
  deriving DecidableEq, Repr

/-- What a Span port holds beside its links: sequence counters by entry and VC, and contexts by source and VC (R394, R395). -/
structure SpanSt where
  seqs : Map Nat := []
  ctxs : Map Ctx := []
  deriving DecidableEq, Repr

/-- The test access port (R619): the instruction, the trace read pointer, and what has been shifted out. -/
structure Tap where
  ir : Nat := 2
  rp : Nat := 0
  out : List Nat := []
  deriving DecidableEq, Repr

/-! ### The whole block -/

/-- The state of a Crasan instance with the queue of commands that wait for it. -/
structure State where
  /-- Commands waiting, the first at the front. -/
  pending : List Instr := []
  /-- The Topology Descriptor ROM (R41) and the straps, fixed for the machine. -/
  rom : Rom
  straps : Straps
  /-- Time carrier cycles since POR, of which durations are counted. -/
  clock : Nat := 0
  /-- The model's own counter of free values taken. -/
  free : Nat := 0
  /-- Register words by CSR offset; an unlisted word holds its reset value. -/
  csr : Map Word := []
  nis : Map NiSt := []
  ports : Map PortSt := []
  /-- Plane faults on their way to the event unit: plane and cause code (R410, R411). -/
  planeFaults : List (Nat × Nat) := []
  time : TimeSt := {}
  /-- The snapshot slots, the evidence engine and the evidence key (R325, R336, R339). -/
  pfs : Map Pf := []
  evd : Evd := {}
  evKey : List Byte := List.replicate 32 0
  /-- The trace RAM, the trace's start, and whether it records (R622 to R624). -/
  trc : Map Nat := []
  trcRun : Bool := false
  /-- The command front end (R484 to R494): the next number, commands not yet started, and commands in execution. -/
  cmdNext : Nat := 1
  cmdQ : List Cmd := []
  cmds : List Cmd := []
  /-- Leave (R525): requests made and not yet queued, the governor's queue, leaves held, and leaves to be returned. -/
  asks : List Leave := []
  leaveQ : List Leave := []
  leaves : List Leave := []
  gives : List Leave := []
  /-- The clock, and 1, of the last claim on each resource: pins from 0, capture timers from 16 and resequencer buffers from 17 in
  steps of 2 by NI (R499). -/
  claimAt : Map Nat := []
  /-- The heat slots, the collect on the Relay Tree (RKIND and slot), loss count and back-off deadline by CLIENT, and whether a
  recompute is owed to the scanner (R346 to R389). -/
  heats : Map Heat := []
  relay : Option (Nat × Nat) := none
  joints : List Joint := []
  clients : Map (Nat × Nat) := []
  heatCrc : Bool := false
  /-- The slice manager (R434, R435). -/
  slcs : Map SliceSt := []
  migSync : Option MigSync := none
  /-- Configuration captured at the last committed CRC reference (R553, R608), by CSR offset. -/
  captured : Map Word := []
  /-- The levels of INT_OUT at the home region's last entry into IDLE or SLEEP (R598). -/
  intKept : Nat := 0
  /-- The planes: the command that waits on each, and the plane faults raised since a test began (R408 to R417). -/
  plst : Map PlaneSt := []
  planeHit : Nat := 0
  /-- What a floor recomputation owes (R240, R241): regions whose step it follows, and whether the core has just entered
  RUN. -/
  floorStep : Nat := 0
  floorRun : Bool := false
  /-- The regions, the Pacer and start-up (R504 to R560). -/
  rgs : Map Rg := []
  pacer : Pacer := {}
  start : Start := {}
  /-- The Control Matrix, the Starter and the configuration CRC scanner. -/
  cmx : Cmx := {}
  starter : Starter := {}
  /-- The Span ports, their links by 4k + j, and the test access port. -/
  sps : Map SpanSt := []
  links : Map Link := []
  tap : Tap := {}
  scan : Scan := {}
  deriving DecidableEq, Repr

/-- The machine right after reset. [DESIGN CHOICE: log 1] -/
def State.reset : State := { rom := Config.rom, straps := Config.straps }

end Sys2Proof.Machine
end

