-- ==== Sys2Proof/Machine/Csr.lean ====
section
/-! DEFINITION. Where registers sit and what they hold: offsets to units (R630 to R632), reset values (R633), the word
store, fields by name, and the resets that return a unit's registers (R19, R545, R636). -/

namespace Sys2Proof.Machine

/-- The record of NI `n`. -/
def niRec (r : Rom) (n : Nat) : NiRec := r.nis.getD n default
/-- The record of router `i`. -/
def rtrRec (r : Rom) (i : Nat) : RtrRec := r.rtrs.getD i default
/-- The record of region `g`. -/
def regionRec (r : Rom) (g : Nat) : RegionRec := r.regions.getD g default
/-- The record of Span port `k`. -/
def spanRec (r : Rom) (k : Nat) : SpanRec := r.spans.getD k default

/-- The base of NI `n`'s window (R630). -/
abbrev niB (n : Nat) : Nat := 0x400000 + n * 0x4000
/-- The base of router `r`'s window on plane `p` (R630). -/
abbrev rtrB (p r : Nat) : Nat := 0x800000 + p * 0x100000 + r * 0x1000
/-- The base of Span port `k`'s window (R630). -/
abbrev spB (k : Nat) : Nat := 0xA00000 + k * 0x10000
abbrev glbB : Nat := 0
abbrev strB : Nat := 0x10000
abbrev timB : Nat := 0x20000
abbrev hcuB : Nat := 0x30000
abbrev pcrB : Nat := 0x40000
abbrev evtB : Nat := 0x50000
abbrev slcB : Nat := 0x60000
abbrev cmxB : Nat := 0x70000
abbrev pfB : Nat := 0x90000
abbrev dbgB : Nat := 0xC0000

/-- The unit that an offset of the CSR window belongs to, none for the default error target (R630 to R632). -/
def unitOf (r : Rom) (off : Nat) : Option Un :=
  let b := off / 0x10000
  if b ≤ 9 then
    let k : UK := match b with
      | 0 => .glb | 1 => .str | 2 => .tim | 3 => .hcu | 4 => .pcr | 5 => .evt | 6 => .slc | 7 => .cmx | 8 => .rom | _ => .pf
    some { kind := k, base := b * 0x10000, target := b }
  else if b = 0xC then some { kind := .dbg, base := 0xC0000, target := 10 }
  else if b = 0xD then some { kind := .trc, base := 0xD0000, target := 10 }
  else if 0x10 ≤ b ∧ b ≤ 0x13 then some { kind := .sram, base := 0x100000, target := 11 }
  else if b = 0x14 then some { kind := .brom, base := 0x140000, target := 12 }
  else if 0x40 ≤ b ∧ b ≤ 0x7F then
    let n := (off - 0x400000) / 0x4000
    if n < r.nis.length then some { kind := .ni, i := n, base := niB n, target := 16 + n } else none
  else if 0x80 ≤ b ∧ b ≤ 0x89 then
    let i := (off - 0x800000) / 0x1000
    if i < r.rtrs.length then some { kind := .rtr, i := i, base := rtrB 0 i, target := 272 + i } else none
  else if 0x90 ≤ b ∧ b ≤ 0x99 then
    let i := (off - 0x900000) / 0x1000
    if i < r.rtrs.length then some { kind := .rtr, i := i, p := 1, base := rtrB 1 i, target := 432 + i } else none
  else if 0xA0 ≤ b ∧ b ≤ 0xA3 then
    let k := b - 0xA0
    if k < r.spans.length then some { kind := .sp, i := k, base := spB k, target := 592 + k } else none
  else none

/-- The register table of a kind of unit. -/
def regsOf : UK → List RSpec
  | .glb => regsGlb | .str => regsStr | .tim => regsTim | .hcu => regsHcu | .pcr => regsPcr | .evt => regsEvt
  | .slc => regsSlc | .cmx => regsCmx | .pf => regsPf | .dbg => regsDbg | .ni => regsNi | .rtr => regsRtr | .sp => regsSp
  | .rom | .trc | .sram | .brom => []

/-- The row of a register table that covers the register at `rel`. -/
def specAt (rel : Nat) : List RSpec → Option RSpec
  | [] => none
  | x :: r =>
    if x.off ≤ rel ∧ (rel - x.off) % x.stride = 0 ∧ (rel - x.off) / x.stride < x.count then some x else specAt rel r

/-- The HCU's reset guard and lead in fc, which R373 gives from the relay depth. -/
def leadGuard (r : Rom) : Nat × Nat :=
  let d := r.relayDepth
  (3 * (d + 1) + 9, max 64 (9 * (d + 1) + 10))

/-- A reset value taken for unit `u`'s register with array index `k` (R633). -/
def rstVal (r : Rom) (st : Straps) (u : Un) (k : Nat) : Rst → Nat
  | .v n => n
  | .genId => r.genId
  | .instId => st.instId
  | .g2 => b2n st.g2
  | .asel => st.mspAsel
  | .numNi => r.nis.length
  | .numSpan => r.spans.length
  | .numRegion => r.regions.length
  | .relayDepth => r.relayDepth
  | .numRtr => r.rtrs.length
  | .diameter => r.diameter
  | .vcDepth => r.vcDepth
  | .home => r.homeRegion
  | .idx => u.i
  | .niRegion => (niRec r u.i).region
  | .epWidth => (niRec r u.i).epWidth
  | .sched => (niRec r u.i).sched
  | .epRole => (niRec r u.i).epRole
  | .radix => (rtrRec r u.i).radix
  | .rtrRegion => (rtrRec r u.i).region
  | .plane => u.p
  | .fcMin => if k < r.regions.length then (regionRec r k).fcMin else 0
  | .fcMax => if k < r.regions.length then (regionRec r k).fcMax else 0
  | .vNom => if k < r.regions.length then (regionRec r k).vNom else 0
  | .smod16 => k % 16
  | .homeNi => r.nis.findIdx (fun x => x.region == r.homeRegion)
  | .allRegions => 2 ^ r.regions.length - 1
  | .lead => (leadGuard r).2
  | .guard => (leadGuard r).1
  | .spanRegion => (spanRec r u.i).region
  | .mspAddr => 0x60 + st.mspAsel
  | .spanRtr => (spanRec r u.i).rtr
  | .xing => r.links.foldl (fun a l => if l.router = u.i ∧ r.xing l = true ∧ bitAt a l.port = false then a + 2 ^ l.port else a) 0

/-- The bits of `fields` that satisfy `p`, each at its reset value. -/
def resetBits (r : Rom) (st : Straps) (u : Un) (k : Nat) (p : FSpec → Bool) : List FSpec → Nat
  | [] => 0
  | f :: t => (if p f then rstVal r st u k f.rst % 2 ^ f.w * 2 ^ f.lo else 0) + resetBits r st u k p t

/-- What the register at CSR offset `off` holds after the resets that clear it. -/
def resetWord (r : Rom) (st : Straps) (off : Nat) : Word :=
  match unitOf r off with
  | none => 0
  | some u =>
    match specAt (off - u.base) (regsOf u.kind) with
    | none => 0
    | some x => BitVec.ofNat 32 (resetBits r st u ((off - u.base - x.off) / x.stride) (fun _ => true) x.fields)

/-- The stored word at a CSR offset. [DESIGN CHOICE: log 10] -/
def State.word (s : State) (off : Nat) : Word := mget (resetWord s.rom s.straps) s.csr off

/-- The state with the word at a CSR offset replaced. [DESIGN CHOICE: log 10] -/
def State.setWord (s : State) (off : Nat) (w : Word) : State :=
  { s with csr := mset (resetWord s.rom s.straps) s.csr off w }

/-- A field of the unit at `base`. -/
def State.rd (s : State) (base : Nat) (f : Fld) : Nat := bitsAt (s.word (base + f.off)).toNat f.lo f.w

/-- The state with a field of the unit at `base` holding the low bits of `v`. -/
def State.wr (s : State) (base : Nat) (f : Fld) (v : Nat) : State :=
  s.setWord (base + f.off) (BitVec.ofNat 32 (bitsPut (s.word (base + f.off)).toNat f.lo f.w v))

/-- A field that is one bit, as a Bool. -/
def State.flag (s : State) (base : Nat) (f : Fld) : Bool := s.rd base f == 1

/-- Add to a counter that saturates at its maximum (R102, R247). -/
def State.count (s : State) (base : Nat) (f : Fld) (k : Nat) : State :=
  s.wr base f (min (s.rd base f + k) (2 ^ f.w - 1))

/-- Set bit `i` of a field (R20: a set by hardware stands). -/
def State.setBit (s : State) (base : Nat) (f : Fld) (i : Nat) : State :=
  s.wr base f (s.rd base f ||| 2 ^ i)

/-- A 64-bit pair of the unit at `base`, by the fields of its two words. -/
def State.rd64 (s : State) (base : Nat) (lo hi : Fld) : Nat :=
  s.rd base lo * 2 ^ lo.lo + s.rd base hi * 2 ^ 32

/-- Write a 64-bit pair. -/
def State.wr64 (s : State) (base : Nat) (lo hi : Fld) (v : Nat) : State :=
  (s.wr base lo (v / 2 ^ lo.lo)).wr base hi (v / 2 ^ 32)

/-- A 64-bit value from the words at `off` and `off + 4`. -/
def State.word64 (s : State) (off : Nat) : Nat := (s.word off).toNat + (s.word (off + 4)).toNat * 2 ^ 32

/-- The state with 64 bits at `off` and `off + 4`. -/
def State.setWord64 (s : State) (off v : Nat) : State :=
  (s.setWord off (BitVec.ofNat 32 v)).setWord (off + 4) (BitVec.ofNat 32 (v / 2 ^ 32))

/-- The word of a register after a reset that keeps the fields that `keep` names and resets the others. -/
def keptWord (r : Rom) (st : Straps) (keep : FSpec → Bool) (off : Nat) (w : Word) : Word :=
  match unitOf r off with
  | none => w
  | some u =>
    match specAt (off - u.base) (regsOf u.kind) with
    | none => 0
    | some x =>
      let k := (off - u.base - x.off) / x.stride
      BitVec.ofNat 32 (x.fields.foldl (fun a f => if keep f then a + bitsAt w.toNat f.lo f.w * 2 ^ f.lo else a)
        (resetBits r st u k (fun f => !keep f) x.fields))

/-- A sticky field: kept by every reset but POR (R19). -/
def sticky (f : FSpec) : Bool := f.acc == .rws || f.acc == .ros

/-- A field that region and NI resets keep: sticky, or configuration of access RW or RWL (R545). [DEDUCED: log 55] -/
def kept545 (f : FSpec) : Bool := sticky f || f.acc == .rw || f.acc == .rwl

/-- The register words of `sel` after a reset that keeps the fields of `keep`. -/
def resetWords (r : Rom) (st : Straps) (sel : Nat → Bool) (keep : FSpec → Bool) : Map Word → Map Word
  | [] => []
  | (o, w) :: t =>
    let w' := if sel o then keptWord r st keep o w else w
    let t' := resetWords r st sel keep t
    if w' = resetWord r st o then t' else (o, w') :: t'

/-- Return the registers at the offsets of `sel` to reset values, keeping the fields of `keep` (R19, R545, R636). -/
def State.resetRegs (s : State) (sel : Nat → Bool) (keep : FSpec → Bool) : State :=
  { s with csr := resetWords s.rom s.straps sel keep s.csr }

end Sys2Proof.Machine
end

