-- ==== Sys2Proof/Machine/Ops.lean ====
section
/-! DEFINITION. The named operations over the state's tables: network interfaces, ports and queues by number, the topology
that the ROM records, route entries, packet geometry, and fabric and carrier durations. -/

namespace Sys2Proof.Machine

/-! ### Network interfaces and ports -/

/-- What NI `n` holds. -/
def State.ni (s : State) (n : Nat) : NiSt := mget (fun _ => {}) s.nis n
/-- The state with NI `n` holding `x`. -/
def State.setNi (s : State) (n : Nat) (x : NiSt) : State := { s with nis := mset (fun _ => {}) s.nis n x }
/-- The state with NI `n` changed by `f`. -/
def State.updNi (s : State) (n : Nat) (f : NiSt → NiSt) : State := s.setNi n (f (s.ni n))

/-- Whether the instance has NI `n` (R38). -/
def State.hasNi (s : State) (n : Nat) : Bool := n < s.rom.nis.length
/-- Whether the instance has router `r`. -/
def State.hasRtr (s : State) (p r : Nat) : Bool := p < 2 && r < s.rom.rtrs.length
/-- Whether the instance has region `g`. -/
def State.hasRegion (s : State) (g : Nat) : Bool := g < s.rom.regions.length
/-- Whether the instance has Span port `k`. -/
def State.hasSpan (s : State) (k : Nat) : Bool := k < s.rom.spans.length

/-- Whether the instance has a port. -/
def State.hasPort (s : State) : Port → Bool
  | .rtr p r q => s.hasRtr p r && decide (q < (rtrRec s.rom r).radix)
  | .ni p n => p < 2 && s.hasNi n
  | .span p k => p < 2 && s.hasSpan k

/-- The key of a port in the table of ports. -/
def portKey : Port → Nat
  | .rtr p r q => 3 * ((r * 2 + p) * 12 + q)
  | .ni p n => 3 * (n * 2 + p) + 1
  | .span p k => 3 * (k * 2 + p) + 2

/-- The plane of a port. -/
def portPlane : Port → Nat
  | .rtr p _ _ => p
  | .ni p _ => p
  | .span p _ => p

/-- What a port holds. -/
def State.port (s : State) (o : Port) : PortSt := mget (fun _ => {}) s.ports (portKey o)
/-- The state with a port holding `x`. -/
def State.setPort (s : State) (o : Port) (x : PortSt) : State := { s with ports := mset (fun _ => {}) s.ports (portKey o) x }
/-- The state with a port changed by `f`. -/
def State.updPort (s : State) (o : Port) (f : PortSt → PortSt) : State := s.setPort o (f (s.port o))

/-! ### Topology (R27, R28, R45 to R51) -/

/-- The link record of port `q` of router `r`. -/
def linkOf (rom : Rom) (r q : Nat) : Option LinkRec := rom.links.find? (fun l => l.router == r && l.port == q)

/-- The far end of a port's link. -/
def farEnd (rom : Rom) : Port → Option Port
  | .rtr p r q =>
    match linkOf rom r q with
    | none => none
    | some l =>
      match l.farKind with
      | 1 => some (.rtr p l.farIndex l.farPort)
      | 2 => some (.ni p l.farIndex)
      | 3 => some (.span p l.farIndex)
      | _ => none
  | .ni p n => some (.rtr p (niRec rom n).rtr (niRec rom n).port)
  | .span p k => some (.rtr p (spanRec rom k).rtr (spanRec rom k).port)

/-- The link record of the link at a port. -/
def linkAt (rom : Rom) : Port → Option LinkRec
  | .rtr _ r q => linkOf rom r q
  | .ni _ n => linkOf rom (niRec rom n).rtr (niRec rom n).port
  | .span _ k => linkOf rom (spanRec rom k).rtr (spanRec rom k).port

/-- Whether the link at a port holds a crossing station (R29, R48). -/
def hasXing (rom : Rom) (o : Port) : Bool := match linkAt rom o with
  | some l => rom.xing l
  | none => false

/-- The region of a port's unit. -/
def regionOf (rom : Rom) : Port → Nat
  | .rtr _ r _ => (rtrRec rom r).region
  | .ni _ n => (niRec rom n).region
  | .span _ k => (spanRec rom k).region

/-- FAR_KIND of a router port, 0 where no record names it. -/
def farKind (rom : Rom) (r q : Nat) : Nat := match linkOf rom r q with
  | some l => l.farKind
  | none => 0

/-- The NI of the buffer pool manager (R46). -/
def poolNi (rom : Rom) : Option Nat := rom.nis.findIdx? (fun x => x.epRole == 3)

/-- Injection queues of NI `n` (R45, R249). -/
def schedSize (rom : Rom) (n : Nat) : Nat := 16 * 4 ^ (niRec rom n).sched

/-- Bytes per endpoint beat of NI `n` (R45, R62). -/
def beatBytes (rom : Rom) (n : Nat) : Nat := 8 * 2 ^ (niRec rom n).epWidth

/-- What the Pacer holds of region `g`. -/
def State.rg (s : State) (g : Nat) : Rg := mget (fun _ => {}) s.rgs g
/-- Region `g`'s record changed. -/
def State.updRg (s : State) (g : Nat) (f : Rg → Rg) : State := { s with rgs := mset (fun _ => {}) s.rgs g (f (s.rg g)) }
/-- Whether region `g` is open: in RUN, IDLE or STEPPING, not under reset, and no BIST (R509, R544, R626). -/
def State.rgOpen (s : State) (g : Nat) : Bool :=
  !(s.rg g).held && s.rd dbgB F.DBG_STAT_TEST != 2 && [0, 1, 7].contains (s.rd pcrB (F.PCR_RG_STAT_STATE.ix g))

/-- Whether the fabric clock of region `g` runs at the units that forward, release and deliver: the gate of IDLE stops it (R507). -/
def State.clocked (s : State) (g : Nat) : Bool := !((s.rg g).gated && s.rd pcrB (F.PCR_RG_STAT_STATE.ix g) == 1)
/-- Whether the fabric clock runs at NI `n`. -/
def State.niClocked (s : State) (n : Nat) : Bool := s.clocked (niRec s.rom n).region

/-- Whether NI `n` takes part in global operations: the relay nodes of a region in DEEP_SLEEP or OFF pass messages on (R32). -/
def State.hears (s : State) (n : Nat) : Bool :=
  s.hasNi n && !([3, 4].contains (s.rd pcrB (F.PCR_RG_STAT_STATE.ix (niRec s.rom n).region)))

/-! ### Time -/

/-- The frequency in force in region `g`, MHz (R532). -/
def State.mhz (s : State) (g : Nat) : Nat := s.rd pcrB (F.PCR_RG_OP_MHZ.ix g)

/-- Time carrier cycles in `n` fabric cycles of region `g`, rounded up (R12, R13). -/
def State.fcTc (s : State) (g n : Nat) : Nat := if s.mhz g = 0 then 0 else cdiv (n * 1250) (s.mhz g)

/-- Time carrier cycles in a microsecond. -/
abbrev usTc : Nat := 1250

/-- Whether Fabric Time is valid at NI `n` (R294). -/
def State.niTimeOk (s : State) (n : Nat) : Bool := s.flag (niB n) F.NI_TIME_STAT_VALID

/-- Stamp units in 0.125 ns (R243). -/
abbrev eighthStamp : Nat := 32

/-- Instance number in force (R640). -/
def State.instNum (s : State) : Nat := s.rd glbB F.GLB_INST_NUM
/-- The node ID of local NI `n` (R104). -/
def State.nodeId (s : State) (n : Nat) : Nat := s.instNum * 256 + n
/-- Whether the instance has become READY (R555). START_STAT shows it, and reads its reset value after an instance DEEP_SLEEP
(R504). -/
def State.ready (s : State) : Bool := s.start.done
/-- The NI that carries commands and event messages (R486, R599). -/
def State.homeNi (s : State) : Nat := s.rd strB F.STR_HOME_NI_NI

/-- Take a free value: the next value of the opaque stream, and the state that has used it. [DESIGN CHOICE: log 8] -/
def State.takeFree (s : State) : BitVec 64 × State := (Config.freeValue s.free, { s with free := s.free + 1 })

/-! ### Packet geometry (R111, R112, R118) -/

/-- Flits of a packet of `p` payload bytes (R112). -/
def flitsOf (p : Nat) : Nat := 1 + cdiv (p - 80) 128

/-- Payload bytes of a packet by type, operation and LEN (R111). -/
def payloadLen (ptype op len : Nat) : Nat :=
  match ptype with
  | 0 => if op = 1 ∨ (3 ≤ op ∧ op ≤ 6) then len else 0
  | 1 => len
  | 2 => len
  | 3 => len
  | 4 => len
  | 5 => len
  | 7 => len
  | 8 => len
  | _ => 0

/-- Flit count a header tells (R112, R141). -/
def hdrFlits (h : Hdr) : Nat := flitsOf (payloadLen h.ptype h.op h.len)

/-- The VN a packet type travels on (R114). -/
def vnOf (ptype : Nat) : Nat := if ptype < 3 then ptype else 3

/-- The payload bytes that flit `i` of a packet carries (R111). -/
def flitData (payload : List Byte) (i : Nat) : List Byte :=
  if i = 0 then payload.take 80 else (payload.drop (80 + 128 * (i - 1))).take 128

/-- Flit `i` of a packet of `f` flits on VC `vc` (R106, R118). -/
def mkFlit (h : Hdr) (vc f : Nat) (payload : List Byte) (i : Nat) : Flit :=
  { vc := vc
    ft := if i = 0 then (if f = 1 then 3 else 1) else if i + 1 = f then 2 else 0
    segb := i % 4 == 3 || i + 1 == f
    fnum := i
    hdr := if i = 0 then some h else none
    data := flitData payload i }

/-- Flits in the segment that starts with flit `i` of a packet of `f` flits (R118, R162). [DESIGN CHOICE: log 128] -/
def segLen (f i : Nat) : Nat := min (4 - i % 4) (f - i)

/-- Path field `k` of a 64-bit path (R108). -/
def pathField (path k : Nat) : Nat := bitsAt path (4 * k) 4

/-! ### Route entries (R120 to R122) -/

/-- A route entry as its four words hold it. -/
structure Entry where
  path : Nat
  nhops : Nat
  valid : Bool
  rep : Bool
  unchk : Bool
  pol : Nat
  bound : Nat
  regmask : Nat
  xings : Nat
  deriving DecidableEq, Repr

/-- The base of entry `e` of NI or Span port table `t` (0 to 255 an NI, 256 + k Span port k; R121, R578, R131). -/
def rtabB (t e : Nat) : Nat := if t < 256 then niB t + 0x1000 + 16 * e else spB (t - 256) + 0x4000 + 16 * e

/-- Whether entry `e` of table `t` is hardwired invalid (R120, R578). -/
def entryWired (rom : Rom) (t e : Nat) : Bool :=
  (e < 256 && decide (rom.nis.length ≤ e)) || (t < 256 && e == t) || (decide (256 ≤ e) && decide (rom.spans.length ≤ e - 256))
  || (decide (256 ≤ t) && e == t) || decide (260 ≤ e)

/-- Entry `e` of table `t`. -/
def State.entry (s : State) (t e : Nat) : Entry :=
  let b := rtabB t e
  let w2 := (s.word (b + 8)).toNat
  let w3 := (s.word (b + 12)).toNat
  { path := s.word64 b, nhops := bitsAt w2 0 5, valid := bitAt w2 5, rep := bitAt w2 6, unchk := bitAt w2 7
    pol := bitsAt w2 8 2, bound := bitsAt w2 16 16, regmask := bitsAt w3 0 16, xings := bitsAt w3 16 5 }

/-- Entry `e` of table `t` written whole. -/
def State.setEntry (s : State) (t e : Nat) (x : Entry) : State :=
  let b := rtabB t e
  let w2 := x.nhops % 32 + 32 * b2n x.valid + 64 * b2n x.rep + 128 * b2n x.unchk + 256 * (x.pol % 4)
    + 65536 * (x.bound % 65536)
  let w3 := x.regmask % 65536 + 65536 * (x.xings % 32)
  ((s.setWord64 b x.path).setWord (b + 8) (BitVec.ofNat 32 w2)).setWord (b + 12) (BitVec.ofNat 32 w3)

/-- An entry that R124 lets a packet use: VALID and 1 to 16 hops. -/
def Entry.usable (e : Entry) : Bool := e.valid && decide (1 ≤ e.nhops) && decide (e.nhops ≤ 16)
/-- An SC0-fit entry (R226). -/
def Entry.sc0Fit (e : Entry) : Bool := e.usable && e.rep && !e.unchk

/-- The Span entry of a remote instance number in NI `n`'s ranges (R575). -/
def State.irange (s : State) (n inst : Nat) : Option Nat :=
  let hit := (List.range 16).find? (fun j =>
    s.rd (niB n) (F.NI_IRANGE_VALID.ix j) == 1 && decide (s.rd (niB n) (F.NI_IRANGE_LO.ix j) ≤ inst)
      && decide (inst ≤ s.rd (niB n) (F.NI_IRANGE_HI.ix j)))
  match hit with
  | none => none
  | some j =>
    let p := s.rd (niB n) (F.NI_IRANGE_PORT.ix j)
    if p < s.rom.spans.length then some (256 + p) else none

/-- The route entry of NI `n` toward a node ID (R105, R575): none where the node cannot be reached. -/
def State.entryFor (s : State) (n dest : Nat) : Option Nat :=
  if dest / 256 = s.instNum then (if dest % 256 < s.rom.nis.length then some (dest % 256) else none)
  else s.irange n (dest / 256)

/-! ### Queues -/

/-- Injection queue `q` after reset (R285). -/
def queueD (q : Nat) : Queue := { cls := q % 4 }
/-- Queue `q` of an NI. -/
def NiSt.q (x : NiSt) (q : Nat) : Queue := mget queueD x.qs q
/-- An NI with queue `q` changed. -/
def NiSt.setQ (x : NiSt) (q : Nat) (v : Queue) : NiSt := { x with qs := mset queueD x.qs q v }
/-- Flits a queue holds (R253, R285). Stores held in the store buffer count there and not in the queue. -/
def Queue.occ (q : Queue) : Nat := q.pkts.foldl (fun a p => a + p.occ) 0
/-- A tag in use. -/
def NiSt.tag (x : NiSt) (t : Nat) : Option Tag := mget (fun _ => none) x.tags t
/-- An NI with tag `t` holding `v`. -/
def NiSt.setTag (x : NiSt) (t : Nat) (v : Option Tag) : NiSt := { x with tags := mset (fun _ => none) x.tags t v }
/-- The generation of a tag (R68). -/
def NiSt.gen (x : NiSt) (t : Nat) : Nat := (mget (fun _ => 0) x.gens t + x.genBase) % 8
/-- An NI with the generation of tag `t` advanced (R68). -/
def NiSt.bumpGen (x : NiSt) (t : Nat) : NiSt :=
  { x with gens := mset (fun _ => 0) x.gens t ((mget (fun _ => 0) x.gens t + 1) % 8) }
/-- Whether plane `p` is usable for release at NI `n` (R396). -/
def State.usable (s : State) (n p : Nat) : Bool :=
  s.flag (niB n) (if p = 0 then F.NI_PLN_STAT_ATT_A else F.NI_PLN_STAT_ATT_B)
/-- A received packet. -/
def NiSt.pk (x : NiSt) (k : Nat) : Option Pk := mget (fun _ => none) x.pks k
/-- An NI with received packet `k` holding `v`. -/
def NiSt.setPk (x : NiSt) (k : Nat) (v : Option Pk) : NiSt := { x with pks := mset (fun _ => none) x.pks k v }
/-- A delivery. -/
def NiSt.del (x : NiSt) (k : Nat) : Option Dlv := mget (fun _ => none) x.dlv k
/-- An NI with delivery `k` holding `v`. -/
def NiSt.setDel (x : NiSt) (k : Nat) (v : Option Dlv) : NiSt := { x with dlv := mset (fun _ => none) x.dlv k v }
/-- A context (R395). -/
def NiSt.ctx (x : NiSt) (k : Nat) : Ctx := mget (fun _ => {}) x.ctxs k
/-- An NI with context `k` holding `v`. -/
def NiSt.setCtx (x : NiSt) (k : Nat) (v : Ctx) : NiSt := { x with ctxs := mset (fun _ => {}) x.ctxs k v }
/-- A fresh serial number, and the NI that has given it. -/
def NiSt.fresh (x : NiSt) : Nat × NiSt := (x.nextSer, { x with nextSer := x.nextSer + 1 })
/-- A shaper's working side. -/
def NiSt.shaper (x : NiSt) (k : Nat) : Shaper := mget (fun _ => {}) x.shp k
/-- An NI with shaper `k` holding `v`. -/
def NiSt.setShaper (x : NiSt) (k : Nat) (v : Shaper) : NiSt := { x with shp := mset (fun _ => {}) x.shp k v }

/-- The words of shaper `k`: word 0 of SHP[8] stands aside because NI.TIME_STAT answers at its offset (R285, R323).
[DEDUCED: log 12] -/
def shpRate (k : Nat) : Fld := if k = 8 then ⟨0x2B00, 0, 16, 0⟩ else F.NI_SHP0_RATE.ix k
/-- GRANTED of shaper `k`. [DEDUCED: log 12] -/
def shpGranted (k : Nat) : Fld := if k = 8 then ⟨0x2B00, 31, 1, 0⟩ else F.NI_SHP0_GRANTED.ix k

/-- The packets of the system queue, those that wait for room in the injection buffer among them (R251, R252). -/
def NiSt.sysAll (x : NiSt) : List Qp := x.sysq ++ x.sysPend
/-- Whether nothing of the endpoint's own holds NI_UP low: EP_RST_N high, no reset or recovery over the NI, and every tag held
before an endpoint reset free (R60, R98). -/
def NiSt.mayRise (x : NiSt) : Bool :=
  !x.epLow && !x.recov && !x.tags.any (fun e => match e.2 with
    | some g => g.preRst
    | none => false)
/-- Whether a heat still has to be replayed at an NI that a reset made its straggler, before NI_UP rises (R386): all of it, but for
its EP_WRITEs, which need the endpoint and so NI_UP (R60, R357). [DESIGN CHOICE: log 62] -/
def State.replayDue (s : State) (n : Nat) : Bool :=
  s.heats.any (fun e => e.2.strag.any (fun t => e.2.tgts.getD t 0 == s.nodeId n
    && (match mget (fun _ => none) (s.ni n).tgts (s.instNum * 64 + e.1) with
        | some g => g.st != 6 || g.lost
        | none => true)
    && (let w := (e.2.acts.filter (fun a => a.tnum == t && a.kind == 7)).length
        w == 0 || (match e.2.recon.find? (fun r => r.1 == t) with
          | some (_, 3, left) => decide (w < left)
          | some (_, ph, _) => ph == 1
          | none => true))))
/-- Every packet that waits in an injection queue, in the system queue or for admission. -/
def NiSt.waiting (x : NiSt) : List Qp :=
  (x.qs.flatMap (fun e => e.2.pkts)) ++ x.sysAll ++ (x.cvt.flatMap (fun w => w.qps))

/-- Flits held in the injection buffer outside the reserve's own class: SC1 to SC3 from queues (R252). -/
def NiSt.lowFlits (x : NiSt) : Nat :=
  x.qs.foldl (fun a e => e.2.pkts.foldl (fun b p => if p.sc = 0 then b else b + p.occ) a) 0
/-- Flits held by SC0 and system-queue packets (R252). -/
def NiSt.highFlits (x : NiSt) : Nat :=
  x.qs.foldl (fun a e => e.2.pkts.foldl (fun b p => if p.sc = 0 then b + p.occ else b) a) 0
    + x.sysq.foldl (fun a p => a + p.f) 0
/-- Free flits outside the reserve (R252). -/
def NiSt.freeLow (x : NiSt) : Nat := 896 - x.lowFlits - (x.highFlits - 128)
/-- Free flits for an SC0 or system-queue packet (R252). -/
def NiSt.freeHigh (x : NiSt) : Nat := 1024 - x.lowFlits - x.highFlits

/-- Packets that the NI originates enter its system queue in order while the injection buffer has flits free for them; the rest
wait where they were made (R252). [DESIGN CHOICE: log 24] -/
def NiSt.admitSys (x : NiSt) : List Qp → NiSt
  | [] => { x with sysPend := [] }
  | p :: r =>
    if p.f ≤ x.freeHigh then ({ x with sysq := x.sysq ++ [p] } : NiSt).admitSys r
    else { x with sysPend := p :: r }
/-- The system queue without the packets for which `gone` holds. -/
def NiSt.dropSys (x : NiSt) (gone : Qp → Bool) : NiSt :=
  { x with sysq := x.sysq.filter (fun p => !gone p), sysPend := x.sysPend.filter (fun p => !gone p) }
/-- A packet put into the NI's system queue, with the serial number it takes (R251, R252). -/
def NiSt.pushSys (x : NiSt) (p : Qp) : NiSt :=
  ({ x with nextSer := x.nextSer + 1 } : NiSt).admitSys (x.sysPend ++ [{ p with ser := x.nextSer }])
/-- A packet put into the system queue of NI `n` (R251). -/
def State.pushSys (s : State) (n : Nat) (p : Qp) : State := s.updNi n (fun x => x.pushSys p)

/-- Link `c` of the instance: link `c % 4` of Span port `c / 4`. -/
def State.lk (s : State) (c : Nat) : Link := mget (fun _ => {}) s.links c
/-- A link changed. -/
def State.updLk (s : State) (c : Nat) (f : Link → Link) : State := { s with links := mset (fun _ => {}) s.links c (f (s.lk c)) }
/-- What a Span port holds beside its links. -/
def State.sp (s : State) (k : Nat) : SpanSt := mget (fun _ => {}) s.sps k
/-- The plane on which a Span port sends toward local NIs: B while it is attached, A otherwise (R576). -/
def State.spanPlane (s : State) : Nat := if s.rd strB F.STR_PLN_STAT_STATE_B = 0 then 1 else 0

/-- What a command does when the unit it names exists: the state `t`. The instance has no pin, wire or register of a unit that it
lacks, so that a command that names one changes nothing. [DESIGN CHOICE: log 3] -/
def guardUnit (s : State) (ok : Bool) (t : State) : Host.Outcome State Fault Refusal := .next (if ok then t else s)

/-- Every number below `n` put through a state change, in rising order. -/
def forAll (n : Nat) (f : Nat → State → State) (s : State) : State := (List.range n).foldl (fun a i => f i a) s

end Sys2Proof.Machine
end

