-- ==== Sys2Proof/Machine/Flags.lean ====
section
/-! DEFINITION. Flags: Fabric Time as fields and as a stamp (R287, R288), event causes with their severities, sources,
interrupt lines, event messages and the instance error log (R592 to R603), and corrected and uncorrectable error counts. -/

namespace Sys2Proof.Machine

/-! ### Fabric Time at the root -/

/-- Whole nanoseconds of a Fabric Time counter value. -/
def ftNs (ft : Nat) : Nat := ft / 2 ^ 32

/-- The stamp of a Fabric Time counter value for an epoch in seconds (R288). -/
def stampOf (epoch ft : Nat) : Stamp :=
  BitVec.ofInt 64 (((ftNs ft : Int) - epoch * 1000000000) * 256 + (ft % 2 ^ 32 / 2 ^ 24 : Nat))

/-- TIME.EPOCH, seconds (R289). -/
def State.epoch (s : State) : Nat := s.rd64 timB F.TIM_EPOCH_LO_SEC F.TIM_EPOCH_HI_SEC

/-- The root's Fabric Time as a stamp. -/
def State.rootStamp (s : State) : Stamp := stampOf s.epoch s.time.ft

/-- Whether Fabric Time is valid at the root (R306). -/
def State.rootOk (s : State) : Bool := s.flag timB F.TIM_STAT_VALID

/-- The signed difference of two stamps (R288). -/
def stampDiff (a b : Stamp) : Int := (a - b).toInt

/-- Whole nanoseconds since the epoch at a stamp near the root's Fabric Time, in 64 bits: the stamp wraps, this does not (R288). -/
def State.wholeNs (s : State) (t : Stamp) : Nat :=
  ((((ftNs s.time.ft : Int) - s.epoch * 1000000000) * 256 + (s.time.ft % 2 ^ 32 / 2 ^ 24 : Nat) + stampDiff t s.rootStamp) / 256
    % 2 ^ 64).toNat

/-! ### Severities (R592, R594) -/

/-- Severity of an ALERT cause of an NI. -/
def sevAlert (i : Nat) : Nat := [2, 2, 2, 2, 2, 2, 2, 2, 3, 3, 3, 2, 2, 2, 2, 3, 3].getD i 0
/-- Severity of a NOTICE cause of an NI. -/
def sevNotice (i : Nat) : Nat := [1, 1, 1, 1, 1, 0].getD i 0
/-- Severity of a router cause. -/
def sevRouter (i : Nat) : Nat := [2, 3, 3, 3, 0].getD i 0
/-- Severity of a Span event. -/
def sevSpan (i : Nat) : Nat := [1, 3, 3, 3, 2, 2, 2, 2].getD i 0
/-- Severity of a region cause. -/
def sevRegion (i : Nat) : Nat := [3, 3, 3, 1].getD i 0
/-- Severity of a cause of global source `g`. -/
def sevGlobal (g i : Nat) : Nat :=
  (([[1, 3, 3, 3, 3], [1, 3], [1, 1, 3], [3], [1, 3], [3, 2], [1, 1, 4], [1, 1], [1, 4, 1], [3], [3, 1, 3], [3],
    [1, 1, 1, 3, 1], [2, 2], [3, 3], []] : List (List Nat)).getD g []).getD i 0

/-- An event source with the place of one of its causes: source number, base and fields of the cause and enable bits, the
severity of each bit, and the unit index and plane that the error log records (R594, R603, R615). -/
structure Src where
  num : Nat
  base : Nat
  cause : Fld
  ebase : Nat
  en : Fld
  sev : Nat → Nat
  data : Nat

/-- ALERT of NI `n`. -/
def srcAlert (n : Nat) : Src := ⟨2 * n, niB n, F.NI_EVT_CAUSE_A_C, niB n, F.NI_EVT_EN_A_EN, sevAlert, n⟩
/-- NOTICE of NI `n`. -/
def srcNotice (n : Nat) : Src := ⟨2 * n + 1, niB n, F.NI_EVT_CAUSE_N_C, niB n, F.NI_EVT_EN_N_EN, sevNotice, n⟩
/-- The group of router `r` on plane `p`. -/
def srcRouter (p r : Nat) : Src :=
  ⟨512 + 32 * p + r / 5, rtrB p r, F.RTR_EVT_CAUSE_C, rtrB p r, F.RTR_EVT_EN_EN, sevRouter, r + 65536 * p⟩
/-- Event `e` of Span port `k`. -/
def srcSpan (k e : Nat) : Src :=
  ⟨576 + 8 * k + e, spB k, F.SP_EVT_STAT_C, spB k, F.SP_EVT_EN_EN, fun i => if i = e then sevSpan i else 0, k⟩
/-- Region `g`. -/
def srcRegion (g : Nat) : Src :=
  ⟨608 + g, evtB, F.EVT_RG_CAUSE_C.ix g, evtB, F.EVT_RG_EN_EN, sevRegion, g⟩
/-- Global source `i`. -/
def srcGlobal (i : Nat) : Src :=
  ⟨624 + i, evtB, F.EVT_GL_CAUSE_C.ix i, evtB, F.EVT_GL_EN_EN.ix i, sevGlobal i, 0⟩

/-- Set and enabled cause bits at the place of a source. -/
def State.live (s : State) (x : Src) : Nat := s.rd x.base x.cause &&& s.rd x.ebase x.en

/-- Whether source number `k` is asserted (R596). -/
def State.asserted (s : State) (k : Nat) : Bool :=
  if k < 512 then (if k / 2 < s.rom.nis.length then s.live (if k % 2 = 0 then srcAlert (k / 2) else srcNotice (k / 2)) != 0
    else false)
  else if k < 576 then
    let p := (k - 512) / 32
    let i := (k - 512) % 32
    (List.range 5).any (fun j => decide (5 * i + j < s.rom.rtrs.length) && s.live (srcRouter p (5 * i + j)) != 0)
  else if k < 608 then
    if (k - 576) / 8 < s.rom.spans.length then bitAt (s.live (srcSpan ((k - 576) / 8) 0)) ((k - 576) % 8) else false
  else if k < 624 then (if k - 608 < s.rom.regions.length then s.live (srcRegion (k - 608)) != 0 else false)
  else if k < 639 then s.live (srcGlobal (k - 624)) != 0
  else false

/-- The highest severity among the causes that are set and enabled at a source (R592). -/
def sevNow (x : Src) (bits : Nat) : Nat :=
  (List.range 17).foldl (fun a i => if bitAt bits i then max a (x.sev i) else a) 0

/-- The lines that asserted sources with INT_EN hold high (R597). -/
def State.intLevels (s : State) : Nat :=
  (List.range 640).foldl (fun a k =>
    let w := s.rd evtB (F.EVT_ROUTE_LINE.ix k)
    if s.rd evtB (F.EVT_ROUTE_INT_EN.ix k) = 1 ∧ bitAt a w = false ∧ s.asserted k = true then a + 2 ^ w else a) 0

/-- The levels of INT_OUT (R598): kept while the home region is in IDLE or SLEEP, low in DEEP_SLEEP and OFF. WAKING drives what the
state before it did, and a step of an IDLE region what IDLE does. [DESIGN CHOICE: log 140] -/
def State.intOut (s : State) : Nat :=
  let st := s.rd pcrB (F.PCR_RG_STAT_STATE.ix s.rom.homeRegion)
  let r := s.rg s.rom.homeRegion
  match if st = 7 ∨ (st = 6 ∧ 1 ≤ r.wake ∧ r.wake ≤ 3) then r.prev else st with
  | 1 | 2 => s.intKept
  | 3 | 4 => 0
  | _ => s.intLevels

/-- Record an occurrence in the FIRST or the NEXT log (R602, R603). -/
def State.logErr (s : State) (src cause sev data : Nat) : State :=
  let info := src + 1024 * cause + 65536 * sev + 2 ^ 20 * b2n s.rootOk + 2 ^ 31
  let base := if s.flag evtB F.EVT_FIRST_INFO_VALID then evtB + 0x210 else evtB + 0x200
  (((s.setWord base (BitVec.ofNat 32 info)).setWord (base + 4) (BitVec.ofNat 32 data)).setWord64 (base + 8)
    s.rootStamp.toNat).count evtB F.EVT_LOG_CNT_COUNT 1

/-- EVENT packets of the event unit that have not left NI `n` (R601). -/
def State.msgQueued (s : State) (n : Nat) : Nat := ((s.ni n).sysAll.filter (fun p => p.ptype == 5)).length

/-- An EVENT packet toward a node from the system queue of NI `n` (R114, R251, R599). -/
def State.pushEvent (s : State) (n dest sc op slice : Nat) (payload : List Byte) : State :=
  s.pushSys n { ser := 0, ptype := 5, op := op, vn := 3, sc := sc, e := (s.entryFor n dest).getD 260, dest := dest
                len := payload.length, slice := slice, payload := payload, f := flitsOf payload.length, offer := s.clock }

/-- Send one event message to one destination register (R599 to R601): the state, whether the queue was full and whether
the destination does not exist. -/
def State.sendMsg (s : State) (x : Src) (f v : Fld) (cause : Nat) : State × Bool × Bool :=
  if s.rd evtB v = 0 then (s, false, false)
  else
    let dest := s.rd evtB f
    if dest / 256 = s.instNum ∧ s.rom.nis.length ≤ dest % 256 then (s, false, true)
    else if 32 ≤ s.msgQueued s.homeNi then (s.count evtB F.EVT_MSG_DROP_CNT_COUNT 1, true, false)
    else
      let sev := sevNow x (s.live x)
      let code := 0x4556 * 65536 + sev * 1024 + x.num
      (s.pushEvent s.homeNi dest 1 sev 63 (leBytes 4 code ++ leBytes 4 cause), false, false)

/-- Both event messages of a source that has become asserted (R599). -/
def State.sendMsgs (s : State) (x : Src) (cause : Nat) : State × Bool × Bool :=
  let (s1, f1, b1) := s.sendMsg x F.EVT_MSG_DEST0_NODE F.EVT_MSG_DEST0_VALID cause
  let (s2, f2, b2) := s1.sendMsg x F.EVT_MSG_DEST1_NODE F.EVT_MSG_DEST1_VALID cause
  (s2, f1 || f2, b1 || b2)

/-- An occurrence of cause `i` of a source, without the event unit's own loss causes (R595, R599, R602). -/
def State.occur (s : State) (x : Src) (i : Nat) : State × Bool × Bool :=
  let was := s.asserted x.num
  let s1 := s.setBit x.base x.cause i
  let s2 := if 2 ≤ x.sev i then s1.logErr x.num i (x.sev i) x.data else s1
  if was = false ∧ s2.asserted x.num = true ∧ s2.rd evtB (F.EVT_ROUTE_MSG_EN.ix x.num) = 1 then
    s2.sendMsgs x (s2.rd x.base x.cause)
  else (s2, false, false)

/-- A lost message or a missing destination raises MSG_OVF or MSG_FAIL of the event unit in turn (R601). -/
def State.msgLost (s : State) (ovf bad : Bool) : State :=
  let s := if ovf then (s.occur (srcGlobal 13) 0).1 else s
  if bad then (s.occur (srcGlobal 13) 1).1 else s

/-- An occurrence of cause `i` of a source (R595, R601). -/
def State.raise (s : State) (x : Src) (i : Nat) : State :=
  let (s1, ovf, bad) := s.occur x i
  s1.msgLost ovf bad

/-- A source whose enables have been written: where they assert it, its message goes out (R596, R599). -/
def State.reassert (s : State) (x : Src) (was : Bool) : State :=
  if was = false ∧ s.asserted x.num = true ∧ s.rd evtB (F.EVT_ROUTE_MSG_EN.ix x.num) = 1 then
    let (s1, ovf, bad) := s.sendMsgs x (s.rd x.base x.cause)
    s1.msgLost ovf bad
  else s

/-- ALERT cause `i` of NI `n`. -/
def State.alert (s : State) (n i : Nat) : State := s.raise (srcAlert n) i
/-- NOTICE cause `i` of NI `n`. -/
def State.notice (s : State) (n i : Nat) : State := s.raise (srcNotice n) i
/-- Cause `i` of router `r` on plane `p`. -/
def State.rtrEvent (s : State) (p r i : Nat) : State := s.raise (srcRouter p r) i
/-- Event `e` of Span port `k`. -/
def State.spanEvent (s : State) (k e : Nat) : State := s.raise (srcSpan k e) e
/-- Cause `i` of region `g`. -/
def State.rgEvent (s : State) (g i : Nat) : State := s.raise (srcRegion g) i
/-- Cause `i` of global source `g`. -/
def State.glEvent (s : State) (g i : Nat) : State := s.raise (srcGlobal g) i

/-- A corrected flit error at the unit of a port (R107, R542, R593). -/
def State.corrected (s : State) (o : Port) : State :=
  let s := s.count evtB F.EVT_CORR_CNT_COUNT 1
  match o with
  | .rtr p r _ => (s.count (rtrB p r) F.RTR_ECC_CNT_CORR 1).rtrEvent p r 4
  | .ni _ n => (s.count (niB n) F.NI_ECC_CNT_CORR 1).notice n 5
  | .span _ _ => s

/-- `k` corrections of one flit. -/
def State.correcteds (s : State) (o : Port) (k : Nat) : State := (List.range k).foldl (fun a _ => a.corrected o) s

/-- An uncorrectable error counted at NI `n`, with FLIT_UNCORR (R593, R672). -/
def State.uncorr (s : State) (n : Nat) : State := (s.count (niB n) F.NI_ECC_CNT_UNCORR 1).alert n 14

/-- An uncorrectable error in a memory of NI `n`: counted as the NI's, with MEM_UNCORR (R593, R615).
[DESIGN CHOICE: log 110] -/
def State.memUncorr (s : State) (n : Nat) : State := (s.count (niB n) F.NI_ECC_CNT_UNCORR 1).alert n 15

/-- A plane fault of plane `p` with its cause code, on its way to the event unit (R410, R411). PLN.STAT.FAULT shows it.
[DESIGN CHOICE: log 37] -/
def State.planeFault (s : State) (p cause : Nat) : State :=
  let s := s.wr strB (if p = 0 then F.STR_PLN_STAT_FAULT_A else F.STR_PLN_STAT_FAULT_B) 1
  { s with planeFaults := s.planeFaults ++ [(p, cause)],
           evd := { s.evd with plane := s.evd.plane ||| 2 ^ p }, planeHit := s.planeHit ||| 2 ^ p }

/-- The router's log of an arbitration error, kept while it holds none (R182). -/
def State.arbLog (s : State) (p r kind port inPort vc : Nat) : State :=
  if s.flag (rtrB p r) F.RTR_ARB_LOG_VALID then s
  else s.setWord (rtrB p r + 0x4C) (BitVec.ofNat 32 (kind + 16 * port + 256 * inPort + 4096 * vc + 2 ^ 31))

/-- A credit or buffer error at a port (R159 to R161, R542, R671): the error bit (1 parity, 2 overflow of credits, 3
buffer overflow), the router's log or the NI's record, the event, and the plane fault. -/
def State.creditError (s : State) (o : Port) (bit vc : Nat) : State :=
  match o with
  | .rtr p r q =>
    let f := match bit with
      | 1 => F.RTR_ERR_STAT_CRED_PAR
      | 2 => F.RTR_ERR_STAT_CRED_OVF
      | _ => F.RTR_ERR_STAT_BUF_OVF
    (((s.wr (rtrB p r) f 1).arbLog p r bit q 0 (if bit = 1 then 0 else vc)).rtrEvent p r 1).planeFault p 2
  | .ni p n =>
    ((s.setBit (niB n) (if p = 0 then F.NI_PLN_ERR_ERR_A else F.NI_PLN_ERR_ERR_B) bit).alert n 16).planeFault p 2
  | .span _ _ => s

/-- A stream packet dropped at NI `n` (R88). -/
def State.streamDrop (s : State) (n : Nat) : State :=
  ((s.count (niB n) F.NI_EP_DROP_CNT_COUNT 1).wr (niB n) F.NI_EP_STAT_SDROP 1).alert n 1

/-- A packet dropped at NI `n` and counted in PKT_BAD_CNT with cause PKT_BAD (R115, R145, R670). -/
def State.pktBad (s : State) (n : Nat) : State := (s.count (niB n) F.NI_PKT_BAD_CNT_COUNT 1).alert n 3

end Sys2Proof.Machine
end

