-- ==== Sys2Proof/Machine/Operands.lean ====
section
/-! DEFINITION. The operands of requests and stream packets: operation codes and legal lengths (R73, R74), the process
identifier map (R422), region descriptors, interleave sets and multicast groups (R127 to R129, R184 to R192), the
destination they give, and the admission checks of R228 to R230 and R266. -/

namespace Sys2Proof.Machine

/-! ### Operations (R73) -/

/-- Whether an operation carries write data on WQI. -/
def opData (op : Nat) : Bool := op == 1 || (decide (3 ≤ op) && decide (op ≤ 6)) || op == 0xB

/-- Whether an operation is a reserved, conditional or atomic one (R190). -/
def opAtomic (op : Nat) : Bool := decide (2 ≤ op) && decide (op ≤ 6)

/-- Whether a timed-out or dropped request of this operation is a store (R210). -/
def opStore (op : Nat) : Bool := op == 1 || op == 3

/-- The number of bytes that an operation addresses at its target (R190). -/
def opSpan (op len : Nat) : Nat := if op = 6 then len / 2 else len

/-- Whether LEN lies in the operation's range and an aligned operation is aligned (R73, R74). -/
def opLegal (op addr len : Nat) : Bool :=
  match op with
  | 0 => decide (1 ≤ len) && decide (len ≤ 10240)
  | 1 => decide (1 ≤ len) && decide (len ≤ 10240)
  | 6 => [2, 4, 8, 16].contains len && addr % (len / 2) == 0
  | 7 => true
  | 8 => true
  | 9 => true
  | 10 => true
  | 11 => decide (16 ≤ len) && decide (len ≤ 256)
  | op => if op < 6 then [1, 2, 4, 8].contains len && addr % len == 0 else false

/-- Whether the ranges of two requests overlap. -/
def overlaps (a la b lb : Nat) : Bool := decide (a < b + lb) && decide (b < a + la)

/-- The PTYPE of an operation's packet (R76, R114). -/
def opPtype (op : Nat) : Nat := if op = 9 ∨ op = 10 then 6 else if op = 11 then 3 else 0

/-! ### Slices of packets (R90, R422, R423) -/

/-- The slice of a process identifier at NI `n`, none where it is unmapped or the slice is not OPEN. Map entries stand in
rising order, so the first match is the lowest-numbered. -/
def State.sliceOf (s : State) (n pid : Nat) : Option Nat :=
  let x := s.ni n
  match x.pid.find? (fun e => bitAt e.2 31 && e.2 % 2 ^ 20 == pid && bitsAt e.2 20 6 != 63) with
  | none => none
  | some e =>
    let sl := bitsAt e.2 20 6
    if bitAt x.closed sl || decide (2 ≤ s.rd slcB (F.SLC_ST_STATE.ix sl)) then none else some sl

/-- NI `n` as a request or a stream packet finds it whose checks meet table words in error: the descriptor matches no address, the
map entry is not valid, and the multicast group has no members (R593). [DESIGN CHOICE: log 110] -/
def State.softView (s : State) (n dest : Nat) (l : List SoftWord) : State :=
  l.foldl (fun a w => match w with
    | .desc k => a.setWord (niB n + 0x814 + 32 * k) (a.word (niB n + 0x814 + 32 * k) &&& 0xFFFFFFFE#32)
    | .pid k => a.updNi n (fun x => { x with pid := mset (fun _ => 0) x.pid k 0 })
    | .group => a.updNi n (fun x => { x with
        mcg := (List.range 8).foldl (fun m i => mset (fun _ => 0) m (8 * (dest % 4096) + i) 0) x.mcg })) s

/-- The words found in error are reported (R593). -/
def State.softNote (s : State) (n : Nat) (l : List SoftWord) : State := if l.isEmpty then s else s.memUncorr n

/-- Tags that a slice holds at an NI (R425). -/
def NiSt.sliceTags (x : NiSt) (sl : Nat) : Nat :=
  (x.tags.filter (fun e => match e.2 with | some t => t.slice == sl | none => false)).length

/-- Injection buffer flits that a slice's queued packets hold (R424). -/
def NiSt.sliceFlits (x : NiSt) (sl : Nat) : Nat :=
  x.qs.foldl (fun a e => e.2.pkts.foldl (fun b p => if p.slice = sl then b + p.occ else b) a) 0

/-- Whether queue `q` lies in the range of a slice's share, QCOUNT 0 meaning all (R424, R425). -/
def State.inRange (s : State) (n sl q : Nat) : Bool :=
  let base := s.rd (niB n) (F.NI_SLC_SHARE1_QBASE.ix sl)
  let cnt := s.rd (niB n) (F.NI_SLC_SHARE1_QCOUNT.ix sl)
  cnt == 0 || (decide (base ≤ q) && decide (q < base + cnt))

/-! ### Region descriptors (R184 to R192) -/

/-- BASE of descriptor `k`, its low 12 bits taken as 0 (R185). -/
def State.rdBase (s : State) (n k : Nat) : Nat := s.word64 (niB n + 0x800 + 32 * k) / 4096 * 4096
/-- LIMIT of descriptor `k`, its low 12 bits taken as 1 (R185). -/
def State.rdLimit (s : State) (n k : Nat) : Nat := s.word64 (niB n + 0x808 + 32 * k) / 4096 * 4096 + 4095
/-- TGT of descriptor `k`. -/
def State.rdTgt (s : State) (n k : Nat) : Nat := (s.word (niB n + 0x810 + 32 * k)).toNat
/-- ATTR of descriptor `k`. -/
def State.rdAttr (s : State) (n k : Nat) : Nat := (s.word (niB n + 0x814 + 32 * k)).toNat

/-- Whether descriptor `k` takes part and contains every byte of a request (R184 to R187). -/
def State.rdHit (s : State) (n k addr len : Nat) : Bool :=
  let kind := bitsAt (s.rdTgt n k) 30 2
  let log2n := bitsAt (s.rdTgt n k) 8 3
  bitAt (s.rdAttr n k) 0 && kind != 3 && (kind != 2 || (decide (1 ≤ log2n) && decide (log2n ≤ 6)))
    && decide (s.rdBase n k ≤ addr) && decide (addr + (len - 1) ≤ s.rdLimit n k)

/-- The lowest-numbered descriptor that contains a request. -/
def State.rdMatch (s : State) (n addr len : Nat) : Option Nat :=
  (List.range 32).find? (fun k => s.rdHit n k addr len)

/-- The contiguous runs of a request within granules of `g` bytes from `base` (R188): granule index, address, length and
offset. `fuel` bounds the number of runs. -/
def cutRuns (g base : Nat) : Nat → Nat → Nat → Nat → List (Nat × Nat × Nat × Nat)
  | 0, _, _, _ => []
  | fuel + 1, addr, len, off =>
    if len = 0 then []
    else
      let room := min len (g - (addr - base) % g)
      ((addr - base) / g, addr, room, off) :: cutRuns g base fuel (addr + room) (len - room) (off + room)

/-- One packet of a request before admission: destination NI index or node, its route entry, its address range and its
offset in the request, and the number of its part. -/
structure Leg where
  ni : Nat
  dest : Nat
  e : Option Nat
  addr : Nat
  len : Nat
  off : Nat
  part : Nat
  deriving DecidableEq, Repr

/-- Where a request goes: its packets, whether it returns a vector, the key of its destination for R69 and R70, the
multicast group whose members are still to be read, and the attributes of R191. -/
structure Dst where
  legs : List Leg
  split : Bool := false
  key : Nat
  grp : Option Nat := none
  ea : Bool := false
  dev : Bool := false
  cto : Nat
  deriving DecidableEq, Repr

/-- The members of a multicast group, ascending (R127, R129). Group words are kept by 8 × group + word. -/
def State.members (s : State) (n g : Nat) : List Nat :=
  (List.range 256).filter (fun i => bitAt (mget (fun _ => 0) (s.ni n).mcg (8 * g + i / 32)) (i % 32))

/-- Whether a multicast group is usable (R127, R128). -/
def State.groupOk (s : State) (n g : Nat) : Bool :=
  let m := s.members n g
  decide (g < 64) && decide (1 ≤ m.length) && decide (m.length ≤ 64) && m.all (fun i => decide (i < s.rom.nis.length))

/-- The route entry of local NI `i`, none at or above NUM_NI (R189). -/
def State.localEntry (s : State) (i : Nat) : Option Nat := if i < s.rom.nis.length then some i else none

/-- The legs of a multicast (R129). -/
def State.groupLegs (s : State) (n g addr len : Nat) : List Leg :=
  (s.members n g).zipIdx.map (fun m =>
    { ni := m.1, dest := s.nodeId m.1, e := s.localEntry m.1, addr := addr, len := len, off := 0, part := m.2 })

/-- A multicast destination (R83, R127, R128), refused where the group is not usable. -/
def State.groupDst (s : State) (n g addr len : Nat) (ea dev : Bool) (cto : Nat) : Option Dst :=
  if s.groupOk n g then
    let legs := s.groupLegs n g addr len
    some { legs := legs, split := decide (2 ≤ legs.length), key := 2 ^ 20 + g, grp := some g, ea := ea, dev := dev, cto := cto }
  else none

/-- A unicast destination (R75, R105, R575), refused where it has no route entry. -/
def State.nodeDst (s : State) (n dest addr len : Nat) (ea dev : Bool) (cto : Nat) : Option Dst :=
  match s.entryFor n dest with
  | none => none
  | some e =>
    some { legs := [{ ni := dest % 256, dest := dest, e := some e, addr := addr, len := len, off := 0, part := 0 }]
           key := dest, ea := ea, dev := dev, cto := cto }

/-- The numbers of `l` in rising order without repeats: those below `bound` that occur. -/
def risingNis (bound : Nat) (l : List Nat) : List Nat := (List.range bound).filter (fun i => l.contains i)

/-- An interleave set's destination (R187 to R190). `span` is the number of bytes mapped and `len` the length carried. -/
def State.ilvDst (s : State) (k n addr span len : Nat) (ea dev : Bool) (cto : Nat) : Option Dst :=
  let t := s.rdTgt n k
  let g := 256 * 2 ^ bitsAt t 12 3
  let first := bitsAt t 0 8
  let runs := cutRuns g (s.rdBase n k) 64 addr span 0
  let nis := risingNis 320 (runs.map (fun r => first + r.1 % 2 ^ bitsAt t 8 3))
  let key := 2 ^ 21 + t % 2 ^ 15
  match nis with
  | [i] =>
    if i < s.rom.nis.length then
      some { legs := [{ ni := i, dest := s.nodeId i, e := some i, addr := addr, len := len, off := 0, part := 0 }]
             key := key, ea := ea, dev := dev, cto := cto }
    else none
  | _ =>
    some { legs := runs.map (fun r =>
             let i := first + r.1 % 2 ^ bitsAt t 8 3
             { ni := i, dest := s.nodeId i, e := s.localEntry i, addr := r.2.1, len := r.2.2.1, off := r.2.2.2
               part := nis.findIdx (fun j => j == i) })
           split := true, key := key, ea := ea, dev := dev, cto := cto }

/-- The destination of a request, or the status that refuses it (R75, R99, R127, R128, R184, R190, R486, R575).
[DESIGN CHOICE: log 19] -/
def State.decodeDst (s : State) (n op : Nat) (q : AqReq) : Except Nat Dst :=
  let def_cto := s.rd (niB n) F.NI_ORD_CFG_DEF_CTO
  let addr := q.addr.toNat
  let len := q.len.toNat
  let orErr (d : Option Dst) : Except Nat Dst := match d with
    | some d => .ok d
    | none => .error 0x0D
  if op = 11 then
    let dest := if q.dsel then q.dest.toNat / 256 * 256 + s.homeNi else s.nodeId s.homeNi
    orErr (s.nodeDst n dest 0 len false false def_cto)
  else if op = 9 ∨ op = 10 then
    match poolNi s.rom with
    | none => .error 0x0D
    | some p => orErr (s.nodeDst n (s.nodeId p) (addr % 2 ^ 32) 0 false false def_cto)
  else if q.dsel then
    if q.mc then
      if opAtomic op then .error 0x0E else orErr (s.groupDst n (q.dest.toNat % 4096) addr len false false def_cto)
    else orErr (s.nodeDst n q.dest.toNat addr len false false def_cto)
  else
    match s.rdMatch n addr (opSpan op len) with
    | none => .error 0x0D
    | some k =>
      let t := s.rdTgt n k
      let a := s.rdAttr n k
      let dev := bitAt a 2
      let ea := bitAt a 1 && !dev
      let cto := bitsAt a 4 4
      match bitsAt t 30 2 with
      | 0 => orErr (s.nodeDst n (t % 2 ^ 20) addr len ea dev cto)
      | 1 => if opAtomic op then .error 0x0E else orErr (s.groupDst n (t % 64) addr len ea dev cto)
      | _ => orErr (s.ilvDst k n addr (opSpan op len) len ea dev cto)

/-! ### Admission (R228 to R230, R252, R266) -/

/-- NI.SC0_CFG.MAXSEG in force (R247). -/
def State.maxSeg (s : State) (n : Nat) : Nat :=
  let v := s.rd (niB n) F.NI_SC0_CFG_MAXSEG
  if v = 0 then 1 else if 21 < v then 21 else v

/-- The reservation that applies to entry `e` of NI `n`: the lowest-numbered valid and granted one (R228). -/
def State.rsvFor (s : State) (n e : Nat) : Option Nat :=
  (List.range 16).find? (fun k =>
    s.rd (niB n) (F.NI_SC0_RSV0_VALID.ix k) == 1 && s.rd (niB n) (F.NI_SC0_RSV0_GRANTED.ix k) == 1
      && s.rd (niB n) (F.NI_SC0_RSV0_ENTRY.ix k) == e)

/-- GAP of the reservation that applies to entry `e`, 0 where none does. -/
def State.gapNow (s : State) (n e : Nat) : Nat := match s.rsvFor n e with
  | some k => s.rd (niB n) (F.NI_SC0_RSV1_GAP.ix k)
  | none => 0

/-- The spacing of entry `e` in stamp units (R230) for a packet that was admitted under GAP `kept`, which a reservation freed since
leaves it (R497). -/
def State.spacing (s : State) (n e kept : Nat) : Nat :=
  eighthStamp * max (if (s.rsvFor n e).isSome then s.gapNow n e else kept) (s.entry n e).bound

/-- Whether the spacing of entry `e` lets a packet leave at stamp `t` (R230). -/
def State.spacingMet (s : State) (n e kept : Nat) (t : Stamp) : Bool :=
  match mget (fun _ => none) (s.ni n).sc0Last e with
  | none => true
  | some l => decide ((s.spacing n e kept : Int) ≤ stampDiff t l)

/-- The GAP under which an SC0 packet was admitted on entry `e`. -/
def Qp.kept (p : Qp) (e : Nat) : Nat := ((p.gaps.find? (fun g => g.1 == e)).map (fun g => g.2)).getD 0

/-- The GAPs under which the packets of a request or stream packet to entries `l` are admitted (R497). -/
def State.gapsOf (s : State) (n sc : Nat) (l : List (Option Nat)) : List (Nat × Nat) :=
  if sc = 0 then l.filterMap (fun e => e.map (fun e => (e, s.gapNow n e))) else []

/-- Whether entry `e` of NI `n` has an SC0 packet waiting ahead, in whatever queue, or the copy that a waiting multicast sends on
it, so that a new one cannot leave at once. The rule names the last ISTAMP only; every one that waits is counted.
[DESIGN CHOICE: log 133] -/
def State.sc0Ahead (s : State) (n e : Nat) : Bool := (s.ni n).waiting.any (fun p => p.sc == 0 && match p.grp with
  | none => p.e == e
  | some g => (s.members n g).contains e && !p.skip.any (fun k => k.1 == e))

/-- The status that SC0 admission gives a packet of `f` flits on entry `e` at stamp `t`, none where it is admitted
(R229, R230). A looped packet is not judged (R125). -/
def State.sc0Check (s : State) (n e f : Nat) (t : Stamp) : Option Nat :=
  if e = n then none
  else
    let x := s.entry n e
    if !x.usable then some 0x0D
    else if !x.rep || x.unchk then some 0x06
    else match s.rsvFor n e with
      | none => some 0x06
      | some k =>
        if s.maxSeg n < cdiv f 4 then some 0x06
        else if s.rd (niB n) (F.NI_SC0_RSV0_MODE.ix k) = 1
            ∧ (s.spacingMet n e 0 t = false ∨ (s.sc0Ahead n e = true ∧ 0 < s.spacing n e 0)) then some 0x06
        else none

/-- Whether a quarantine stops SC2 and SC3 admission at NI `n`: the share of its region differs, or share 16 (R611). -/
def State.quarAt (s : State) (n : Nat) : Bool :=
  let m := s.rd evtB F.EVT_MM_MASK_MASK
  s.flag evtB F.EVT_STAT_QUAR && (bitAt m 16 || bitAt m (niRec s.rom n).region)

/-- Whether SC1 admission passes for queue `q` (R266): RATE is tested as it was written last, though a refill may still have to
bring it into force (R268). [DESIGN CHOICE: log 133] -/
def State.sc1Ok (s : State) (n q : Nat) : Bool :=
  let k := ((s.ni n).q q).shaper
  s.rd (niB n) (shpGranted k) == 1 && s.rd (niB n) (shpRate k) != 0

/-- Whether queue `q` of NI `n` may be named by a packet of class `sc` and slice `sl` (R250, R425). -/
def State.queueLegal (s : State) (n q sc sl : Nat) : Bool :=
  let x := (s.ni n).q q
  x.en && x.cls == sc && s.inRange n sl q

/-- The active depth of a queue, 0 acting as 1 (R285). -/
def Queue.lim (q : Queue) : Nat := if q.depth = 0 then 1 else q.depth

/-- Whether a packet of `f` flits may enter queue `q` now (R252, R265, R425). -/
def State.roomFor (s : State) (n q sl sc f : Nat) : Bool :=
  let x := s.ni n
  let buf := s.rd (niB n) (F.NI_SLC_SHARE0_BUF.ix sl)
  let held := x.sliceFlits sl
  decide ((x.q q).occ < (x.q q).lim) && decide (f ≤ (if sc = 0 then x.freeHigh else x.freeLow))
    && (buf == 0 || held == 0 || decide (held + f ≤ buf))

end Sys2Proof.Machine
end

