-- ==== Sys2Proof/Machine/Answer.lean ====
section
/-! DEFINITION. Ending requests at their NI: tags and generations (R67, R68), response order (R70, R71), early
acknowledgement (R200), status vectors and combined statuses (R83 to R86), the store log (R201, R203), dropped stores
(R210), the handle log (R101), and packets that leave an injection queue without being sent. -/

namespace Sys2Proof.Machine

/-! ### Statuses (R80, R85) -/

/-- Rank of a status code. -/
def rank (st : Nat) : Nat :=
  [0, 0, 1, 2, 2, 2, 3, 3, 4, 4, 4, 4, 4, 5, 5, 5, 5, 6].getD st 0

/-- The worse of two codes, the earlier on a tie (R85). -/
def worse (a b : Nat) : Nat := if rank a < rank b then b else a

/-- The combined status of a list of parts in order (R85). -/
def combine : List Nat → Nat
  | [] => 0
  | a :: r => r.foldl worse a

/-- Replace the list element at an index. -/
def listSet {α : Type} (l : List α) (i : Nat) (f : α → α) : List α :=
  l.zipIdx.map (fun e => if e.2 = i then f e.1 else e.1)

/-- Whether a status is an error for a buffered store (R201), or makes its part a failed one (R86). -/
def errStatus (st : Nat) : Bool := decide (1 < rank st)

/-- `x` put into `d` at offset `off`. -/
def place (d : List Byte) (off : Nat) (x : List Byte) : List Byte := d.take off ++ x ++ d.drop (off + x.length)

/-! ### Tags -/

/-- Free tag `t` and advance its generation (R68). -/
def NiSt.freeTag (x : NiSt) (t : Nat) : NiSt := (x.setTag t none).bumpGen t

/-- Tags that the endpoint's requests hold, the evidence engine's apart (R67, R102). -/
def NiSt.epTags (x : NiSt) : Nat :=
  (x.tags.filter (fun e => match e.2 with
    | some g => !g.evd
    | none => false)).length

/-- The flits of a packet that are still to come are consumed by count (R672); one that waits for its judgement is still judged
(R243). -/
def NiSt.stopRx (x : NiSt) (p : Pk) : NiSt :=
  if p.left = 0 then x
  else { x with rx := mset (fun _ => none) x.rx (p.plane * 16 + p.vc)
                  (some (.dropCount p.left (if p.final then none else some p.hdr))) }

/-- Received packet `k` is given up: what it holds goes and what is still to come of it is consumed. -/
def NiSt.forgetPk (x : NiSt) (k : Nat) : NiSt := match x.pk k with
  | none => x
  | some p => (x.setPk k none).stopRx p

/-- The response of a request at RPE, with data from received packet `pk` (R83). -/
def rpEnt (g : Tag) (status pk : Nat) : RpEnt :=
  { pk := pk, id := g.id, key := g.dkey, sc := g.rsc, status := status, lane := g.addr
    vec := if g.split then g.parts.map (fun p => (p.status, p.ni)) else [] }

/-- The requests still owed their response and the responses whose turn has come: a response leaves when no earlier request of
the same ID and destination, one of `wait` or of the list, is owed its own (R70). -/
def flushOrd (wait : List (Nat × Nat)) : List Owed → List Owed × List RpEnt
  | [] => ([], [])
  | o :: r => match o.rsp with
    | some e =>
      if wait.contains (o.id, o.key) then (o :: (flushOrd wait r).1, (flushOrd wait r).2)
      else ((flushOrd wait r).1, e :: (flushOrd wait r).2)
    | none => (o :: (flushOrd ((o.id, o.key) :: wait) r).1, (flushOrd ((o.id, o.key) :: wait) r).2)

/-- Send every response whose turn has come. [DEDUCED: log 23] -/
def NiSt.flush (x : NiSt) : NiSt :=
  { x with ord := (flushOrd [] x.ord).1, rpq := x.rpq ++ (flushOrd [] x.ord).2 }

/-- The response of the request with serial number `ser` is known: it leaves in its turn. -/
def NiSt.settleOrd (x : NiSt) (ser : Nat) (e : RpEnt) : NiSt :=
  ({ x with ord := x.ord.map (fun o => if o.ser = ser then { o with rsp := some e } else o) } : NiSt).flush

/-- A request joins those that are owed a response (R70). -/
def NiSt.owe (x : NiSt) (g : Tag) : NiSt := { x with ord := x.ord ++ [{ ser := g.ser, id := g.id, key := g.dkey }] }
/-- The final completion of tag `t` with a status, and the received packet that holds its data (R67). The tag is free at once; the
response waits for its turn. A buffered store has had its OKAY; a request from before an endpoint reset gets none (R97); an
evidence write's goes to the evidence engine (R341). [DEDUCED: log 23] -/
def NiSt.finish (x : NiSt) (t status pk : Nat) : NiSt :=
  match x.tag t with
  | none => x
  | some g =>
    if g.evd then { (x.freeTag t).forgetPk pk with evRes := some status }
    else if g.preRst || g.sb then (x.freeTag t).forgetPk pk
    else (x.freeTag t).settleOrd g.ser (rpEnt g status pk)

/-- Put assembled data into a received packet of its own. -/
def NiSt.keep (x : NiSt) (data : List Byte) : Nat × NiSt :=
  let (k, y) := x.fresh
  (k, y.setPk k (some { hdr := { ptype := 1, len := data.length }, plane := 0, vc := 4, got := data }))

/-- Whether every packet of a tag's request has been released and none is outstanding. -/
def Tag.quiet (g : Tag) : Bool := g.nqueued == 0 && g.parts.all (fun p => p.pieces.isEmpty)

/-- Whether a tag's request went to a multicast group (R83). [DESIGN CHOICE: log 21] -/
def Tag.multicast (g : Tag) : Bool := decide (2 ^ 20 ≤ g.dkey) && decide (g.dkey < 2 ^ 21)

/-- The assembled data of a split read with the bytes of every failed part 0 (R86). -/
def Tag.cleared (g : Tag) : List Byte :=
  if g.multicast then g.data
  else g.parts.foldl (fun d p => if errStatus p.status then
    p.all.foldl (fun d r => place d r.1 (List.replicate r.2 0)) d else d) g.data

/-- A split request whose last piece has ended is answered with its combined status and vector (R83 to R86). -/
def NiSt.splitDone (x : NiSt) (t : Nat) : NiSt :=
  match x.tag t with
  | none => x
  | some g =>
    if g.split && g.quiet then
      let st := combine (g.parts.map (fun p => p.status))
      if g.data.isEmpty then x.finish t st 0
      else
        let (k, y) := x.keep g.cleared
        y.finish t st k
    else x

/-- The status of one ended piece joined to its part (R85, R188). -/
def Tag.piece (g : Tag) (part st : Nat) : Tag :=
  { g with parts := listSet g.parts part (fun p => { p with status := worse p.status st }) }

/-! ### Store log, dropped stores and handle log -/

/-- Record a store in the store log unless it holds one (R203). -/
def State.sbLog (s : State) (n addr id status kind : Nat) : State :=
  let b := niB n
  if s.flag b F.NI_SB_LOG_INFO_VALID then s
  else
    let s := (s.wr b F.NI_SB_LOG_LO_ADDR addr).wr b F.NI_SB_LOG_HI_ADDR (addr / 2 ^ 32)
    ((((s.wr b F.NI_SB_LOG_INFO_STATUS status).wr b F.NI_SB_LOG_INFO_ID id).wr b F.NI_SB_LOG_INFO_KIND kind).wr
      b F.NI_SB_LOG_INFO_VALID 1)

/-- Stores still held in the store buffer: buffered stores that have not been released (R199). -/
def NiSt.sbHeld (x : NiSt) : List Qp := x.waiting.filter (fun p => p.sb)

/-- The drain after an error or a refusal (R201, R202): new EA writes stay out of the buffer until it is empty. On its other causes
the buffer drains by the releases of its stores and takes new ones. -/
def NiSt.startDrain (x : NiSt) : NiSt := { x with sbDrain := !x.sbHeld.isEmpty }

/-- A buffered store ended with an error at its endpoint (KIND 1) or by refusal at release (KIND 3), R201. -/
def State.sbFail (s : State) (n : Nat) (g : Tag) (status kind : Nat) : State :=
  let s := (s.sbLog n g.addr g.id status kind).wr (niB n) F.NI_ORD_STAT_SB_ERR 1
  (s.updNi n NiSt.startDrain).alert n 5

/-- A buffered store discarded by a reset or a squash (KIND 2), R202. -/
def State.sbDiscard (s : State) (n : Nat) (g : Tag) : State :=
  (s.count (niB n) F.NI_DISCARD_CNT_COUNT 1).sbLog n g.addr g.id 0 2

/-- Mark a dropped store on the first COMPLETE barrier that covers it, and say whether one was waiting (R206, R210). -/
def markBar (ser : Nat) : List Bar → List Bar × Bool
  | [] => ([], false)
  | b :: r =>
    if b.complete && decide (ser < b.ser) then ({ b with fault := true } :: r, true)
    else
      let (r', hit) := markBar ser r
      (b :: r', hit)

/-- A store dropped at its completion timeout: the log, the barrier that reports it, and the status of its own response
(R210). -/
def State.dropStore (s : State) (n : Nat) (g : Tag) : State × Nat :=
  let s := s.sbLog n g.addr g.id 0 0
  let x := s.ni n
  let (bars, hit) := markBar g.ser x.bars
  if hit then (s.setNi n { x with bars := bars }, 0x0B) else (s.setNi n { x with bfPend := true }, 0x0C)

/-- A handle fault verdict at the requester's NI (R101). -/
def State.handleFault (s : State) (n : Nat) (g : Tag) (verdict : Nat) : State :=
  let b := niB n
  let s := if s.flag b F.NI_HLOG_INFO_VALID then s else
    ((((((s.wr b F.NI_HLOG_HANDLE_HANDLE g.handle).wr b F.NI_HLOG_INFO_VERDICT verdict).wr b F.NI_HLOG_INFO_ID g.id).wr
      b F.NI_HLOG_INFO_SLICE g.slice).wr b F.NI_HLOG_PID_PID g.pid).wr b F.NI_HLOG_INFO_VALID 1)
  ((s.count b F.NI_HLOG_CNT_COUNT 1).wr b F.NI_EP_STAT_HFAULT 1).alert n 2

/-! ### Ending a piece of a request -/

/-- A piece of tag `t` in part `part` ends with a status without a response having come: refused at release, timed out or
answered by its own NI. -/
def NiSt.endPiece (x : NiSt) (t part st : Nat) : NiSt :=
  match x.tag t with
  | none => x
  | some g => if g.split then (x.setTag t (some (g.piece part st))).splitDone t else x.finish t st 0

/-- One packet of tag `t` is no longer queued. -/
def NiSt.unqueue (x : NiSt) (t : Nat) : NiSt :=
  match x.tag t with
  | none => x
  | some g => x.setTag t (some { g with nqueued := g.nqueued - 1 })

/-- A queued packet is refused at its release (R124, R201, R513, R551): a request is answered, a buffered store logged with
KIND 3, a stream packet dropped under R88. [DEDUCED: log 18] -/
def State.refuse (s : State) (n : Nat) (p : Qp) (st : Nat) : State :=
  if p.isReq = false then s.streamDrop n
  else
    let s := s.updNi n (fun x => x.unqueue p.tag)
    match (s.ni n).tag p.tag with
    | none => s
    | some g =>
      let s := if g.sb then s.sbFail n g st 3 else s
      s.updNi n (fun x => x.endPiece p.tag p.part st)

/-! ### Packets removed from queues -/

/-- An NI's queues, converter and selection with every packet for which `gone` holds taken out. A queue that empties loses its
deficit (R261), or keeps its start tag under virtual-time scheduling (R262, R263). -/
def NiSt.purge (x : NiSt) (big : Bool) (gone : Qp → Bool) : NiSt :=
  let sel : Bool := match x.sc0Sel.bind (fun v => v.q) with
    | some q => match (x.q q).pkts with
      | p :: _ => gone p
      | [] => false
    | none => false
  { x with
    qs := x.qs.filterMap (fun e =>
      let l := e.2.pkts.filter (fun p => !gone p)
      let v := { e.2 with pkts := l, vt := if l.isEmpty && !e.2.pkts.isEmpty && !big then 0 else e.2.vt }
      if v = queueD e.1 then none else some (e.1, v))
    sc0Sel := if sel then none else x.sc0Sel
    cvt := (x.cvt.map (fun w => { w with qps := w.qps.filter (fun p => !gone p) })).filter (fun w => !w.qps.isEmpty)
    act := x.act.map (fun l => l.filter (fun q => (x.q q).pkts.any (fun p => !gone p))) }

end Sys2Proof.Machine
end

