-- ==== Sys2Proof/Machine/Gate.lean ====
section
/-! DEFINITION. Gate lists on the ejection side (R274 to R283): the walk over a list, the state of the gates at an instant,
the check of an admin list, its start time, and the change of lists. -/

namespace Sys2Proof.Machine

/-- A gate entry as its two words hold it: gates with bit 0 set, MARK, and the interval (R276). -/
abbrev GateEntry := Nat × Bool × Nat

/-- Entries of NI `n`'s bank at `off` (0x3000 admin, 0x3800 operating). -/
def State.gateBank (s : State) (n off len : Nat) : List GateEntry :=
  (List.range len).map (fun i =>
    let w := (s.word (niB n + off + 8 * i)).toNat
    (bitsAt w 0 4 ||| 1, bitAt w 8, bitsAt (s.word (niB n + off + 8 * i + 4)).toNat 0 30))

/-- The walk of R276: the entry index and the gates `x` ns into the cycle. -/
def gateWalk : List GateEntry → Nat → Nat → Nat × Nat
  | [], _, i => (i, 0xF)
  | [e], _, i => (i, e.1)
  | e :: r, x, i => if e.2.2 ≤ x then gateWalk r (x - e.2.2) (i + 1) else (i, e.1)

/-- The gates of a list with base `b` and cycle `c` at `t` ns since the epoch. -/
def gateList (b c : Nat) (es : List GateEntry) (t : Nat) : Nat × Nat :=
  gateWalk es (if c = 0 then 0 else (t - b) % c) 0

/-- Cycle and length in NI `n`'s admin registers. -/
def State.admCycle (s : State) (n : Nat) : Nat := s.rd (niB n) F.NI_GATE_ADM_CYCLE_CYCLE
def State.admLen (s : State) (n : Nat) : Nat := s.rd (niB n) F.NI_GATE_ADM_LEN_LEN

/-- The entry and gates of NI `n` at `t` ns: open while EN is 0, before the first list and without valid time (R275, R281); a
pending list counts from its start (R278), and the previous list before the base of the present one (R276). An entry that has been
found in error counts as all gates open (R593). -/
def State.gatesAt (s : State) (n t : Nat) : Nat × Nat :=
  let b := niB n
  let x := s.ni n
  if s.flag b F.NI_GATE_CTL_EN = false ∨ s.niTimeOk n = false then (0, 0xF)
  else
    let pend := match x.gatePend with
      | some g => decide (g ≤ t)
      | none => false
    let seen (r : Nat × Nat) : Nat × Nat := if x.gateBad then (r.1, 0xF) else r
    seen <| if pend then gateList (x.gatePend.getD 0) (s.admCycle n) (s.gateBank n 0x3000 (s.admLen n)) t
    else if x.gateLive = false then (0, 0xF)
    else
      let base := s.word64 (b + 0x720)
      if t < base then
        match x.gateOld with
        | some (ob, oc, es) => gateList ob oc (es.map (fun e => (e.1, false, e.2))) t
        | none => (0, 0xF)
      else gateList base (s.rd b F.NI_GATE_OPER_CYCLE_CYCLE) (s.gateBank n 0x3800 (s.rd b F.NI_GATE_OPER_LEN_LEN)) t

/-- Whether class `c` may start a port segment at `t` ns: its gate is open and does not close within the guard (R275,
R277). [DESIGN CHOICE: log 26] -/
def State.gateOpen (s : State) (n c t : Nat) : Bool :=
  c == 0 || (List.range (s.rd (niB n) F.NI_GATE_CFG_GUARD + 1)).all (fun k => bitAt (s.gatesAt n (t + k)).2 c)

/-- The failure that R280 finds in NI `n`'s admin list, 0 for none. [DESIGN CHOICE: log 132] -/
def State.gateCheck (s : State) (n : Nat) : Nat :=
  let len := s.admLen n
  let c := s.admCycle n
  if len = 0 ∨ 256 < len then 1
  else if c < 1000 ∨ 1000000000 < c then 2
  else
    let es := s.gateBank n 0x3000 len
    if es.any (fun e => decide (1 ≤ e.2.2) && decide (e.2.2 ≤ 7)) then 3
    else
      let shown := (es.zipIdx.foldl (fun (a : Nat × List Nat) e =>
        let last := e.2 + 1 == len
        if a.1 < c ∧ (0 < e.1.2.2 ∨ last = true) then (a.1 + e.1.2.2, e.1.1 :: a.2) else a) (0, [])).2
      if [1, 2, 3].any (fun k => shown.all (fun g => !bitAt g k)) then 4
      else if s.niTimeOk n = false then 5 else 0

/-- The start time of the admin list for a SWAP at `t` ns (R278). [DEDUCED: log 98] -/
def State.gateStart (s : State) (n t : Nat) : Nat :=
  let b := s.word64 (niB n + 0x710)
  let c := s.admCycle n
  if t + 1000 ≤ b then b else b + cdiv (t + 1000 - b) c * c

/-- SWAP at `t` ns: the admin list becomes pending, or its failure is recorded (R278 to R280). [DEDUCED: log 98] -/
def State.gateSwap (s : State) (n t : Nat) : State :=
  let b := niB n
  if s.flag b F.NI_GATE_STAT_PENDING then s
  else
    let e := s.gateCheck n
    if e ≠ 0 then ((s.wr b F.NI_GATE_STAT_SWAP_ERR 1).wr b F.NI_GATE_STAT_ERR_CODE e).alert n 7
    else (s.wr b F.NI_GATE_STAT_PENDING 1).updNi n (fun x => { x with gatePend := some (s.gateStart n t) })

/-- CANCEL: the pending list is withdrawn (R279). -/
def State.gateCancel (s : State) (n : Nat) : State :=
  (s.wr (niB n) F.NI_GATE_STAT_PENDING 0).updNi n (fun x => { x with gatePend := none })

/-- Copy `k` words of NI `n`'s window. -/
def State.copyWords (s : State) (src dst k : Nat) : State :=
  (List.range k).foldl (fun a i => a.setWord (dst + 4 * i) (a.word (src + 4 * i))) s

/-- The pending list becomes the operating list (R278). -/
def State.gateBegin (s : State) (n : Nat) : State :=
  let b := niB n
  let x := s.ni n
  match x.gatePend with
  | none => s
  | some g =>
    let old := if x.gateLive then
        some (s.word64 (b + 0x720), s.rd b F.NI_GATE_OPER_CYCLE_CYCLE,
          (s.gateBank n 0x3800 (s.rd b F.NI_GATE_OPER_LEN_LEN)).map (fun e => (e.1, e.2.2)))
      else none
    let s := s.setNi n { x with gatePend := none, gateLive := true, gateOld := old }
    let s := s.copyWords (b + 0x3000) (b + 0x3800) 512
    let s := (s.setWord64 (b + 0x720) g).wr b F.NI_GATE_OPER_CYCLE_CYCLE (s.admCycle n)
    (s.wr b F.NI_GATE_OPER_LEN_LEN (s.admLen n)).wr b F.NI_GATE_STAT_PENDING 0

/-- The gates as GATE_STAT shows them at `t` ns (R276). [DEDUCED: log 41] -/
def State.gateShow (s : State) (n t : Nat) : State :=
  let (e, g) := s.gatesAt n t
  (s.wr (niB n) F.NI_GATE_STAT_ENTRY e).wr (niB n) F.NI_GATE_STAT_GATES g

/-- At an fc edge the NI sets its gates from its local Fabric Time (R276, R593). [DESIGN CHOICE: log 5, 110] -/
def execGateUpdate (n : Nat) (e : GateEdge) (s : State) : Host.Outcome State Fault Refusal :=
  guardUnit s (s.hasNi n)
    (let s := if e.mem then s.memUncorr n else s
     (s.updNi n (fun x => { x with gateBad := e.mem })).gateShow n (s.wholeNs e.t))

/-- A pending list starts once local Fabric Time has reached its start and is valid (R278, R281). -/
def execGateListStart (n : Nat) (t : Stamp) (s : State) : Host.Outcome State Fault Refusal :=
  guardUnit s (s.hasNi n)
    (match (s.ni n).gatePend with
     | none => s
     | some g => if s.niTimeOk n && decide (g ≤ s.wholeNs t) then (s.gateBegin n).gateShow n (s.wholeNs t) else s)

end Sys2Proof.Machine
end

