-- ==== Sys2Proof/Machine/Trace.lean ====
section
/-! DEFINITION. The trace unit's recording (R622 to R624): which head flits match, and what an entry holds. -/

namespace Sys2Proof.Machine

/-- A trace entry as a 128-bit number (R623). -/
def trcEntry (t : Stamp) (h : Hdr) (vc : Nat) : Nat :=
  t.toNat + h.seq * 2 ^ 64 + h.src * 2 ^ 80 + h.dest * 2 ^ 100 + vc % 16 * 2 ^ 120 + h.ptype % 16 * 2 ^ 124

/-- Whether a header passes the trace filter (R622). -/
def State.trcMatch (s : State) (h : Hdr) (vc : Nat) : Bool :=
  bitAt (s.rd dbgB F.DBG_TRC_FILT_VC) vc && bitAt (s.rd dbgB F.DBG_TRC_FILT_PTYPE) h.ptype
    && (h.src ^^^ s.rd dbgB F.DBG_TRC_SRC_N) &&& s.rd dbgB F.DBG_TRC_SRC_MASK_N == 0
    && (h.dest ^^^ s.rd dbgB F.DBG_TRC_DEST_N) &&& s.rd dbgB F.DBG_TRC_DEST_MASK_N == 0

/-- Whether the selected tap is at a point: kind 0 a router output, 1 an NI's plane output, 2 an NI's plane input, in a
region that is in Run (R622). -/
def State.trcAt (s : State) (input : Bool) (o : Port) : Bool :=
  let kind := s.rd dbgB F.DBG_TRC_TAP_KIND
  let pl := s.rd dbgB F.DBG_TRC_TAP_PLANE
  let ix := s.rd dbgB F.DBG_TRC_TAP_INDEX
  s.rd pcrB (F.PCR_RG_STAT_STATE.ix (regionOf s.rom o)) == 0 &&
  match o with
  | .rtr p r q => !input && kind == 0 && pl == p && ix == r && s.rd dbgB F.DBG_TRC_TAP_PORT == q
  | .ni p n => kind == (if input then 2 else 1) && pl == p && ix == n
  | .span _ _ => false

/-- A head flit at a tap point: recorded where the trace runs and the flit matches. With WRAP = 0 recording stops when the
RAM is full (R624). [DESIGN CHOICE: log 15] -/
def State.trace (s : State) (input : Bool) (o : Port) (vc : Nat) (h : Hdr) (t : Stamp) : State :=
  if s.trcRun && s.flag dbgB F.DBG_TRC_CTL_EN && s.trcAt input o && s.trcMatch h vc then
    let w := s.rd dbgB F.DBG_TRC_PTR_WR
    let c := s.rd dbgB F.DBG_TRC_PTR_COUNT
    if c = 4096 ∧ s.flag dbgB F.DBG_TRC_CTL_WRAP = false then s
    else
    let s := { s with trc := mset (fun _ => 0) s.trc w (trcEntry t h vc) }
    let s := (s.wr dbgB F.DBG_TRC_PTR_WR (w + 1)).wr dbgB F.DBG_TRC_PTR_COUNT (min (c + 1) 4096)
    if 4095 ≤ c then
      let s := s.wr dbgB F.DBG_TRC_PTR_FULL 1
      if s.flag dbgB F.DBG_TRC_CTL_WRAP then s else { s with trcRun := false }.glEvent 12 1
    else s
  else s

end Sys2Proof.Machine
end

