-- ==== Sys2Proof/Machine/Receive.lean ====
section
/-! DEFINITION. Packets that reach an NI from a plane or through its loop: flit checks and input VCs (R107, R161, R671, R672),
elimination and resequencing (R395 to R407), late detection (R243 to R246), where each type goes (R79, R97, R115, R144,
R145, R431, R438), and their presentation on the egress halves (R64, R65, R77, R92, R93, R215 to R218, R274, R429). -/

namespace Sys2Proof.Machine

/-! ### Credits and responses -/

/-- Return one credit for VC `vc` to the output that feeds input port `o` (R155). A port in FAULT returns none (R161, R671). -/
def State.credit (s : State) (o : Port) (vc : Nat) : State :=
  match if (s.port o).fault then none else farEnd s.rom o with
  | none => s
  | some f =>
    let v : BitVec 16 := BitVec.ofNat 16 (2 ^ vc)
    s.updPort f (fun x => if hasXing s.rom o then { x with swire := x.swire ++ [v] } else { x with cwire := x.cwire ++ [v] })

/-- Return `k` credits. -/
def State.credits (s : State) (o : Port) (vc k : Nat) : State :=
  (List.range k).foldl (fun a _ => a.credit o vc) s

/-- The verdicts that HANDLE_RSP carries (R114). -/
def isVerdict (status : Nat) : Bool := [0, 3, 4, 5].contains status

/-- The response to a request at its target NI (R114, R117, R231, R251, R421). A handle operation's verdict returns as HANDLE_RSP; a
status that is no verdict returns as RSP. [DEDUCED: log 119] -/
def State.rspQp (s : State) (n : Nat) (h : Hdr) (sc status : Nat) (data : List Byte) : Qp :=
  let pt := if h.ptype = 6 ∧ isVerdict status = true then 7 else 1
  { ser := 0, ptype := pt, op := status, vn := vnOf pt, sc := sc, e := (s.entryFor n h.src).getD 260, dest := h.src
    len := data.length, slice := h.slice, tag := h.tag, gen := h.gen, mc := h.mc, payload := data
    f := flitsOf data.length, offer := s.clock }

/-- Queue the response to a request at its target NI (R251). [DEDUCED: log 119] -/
def State.respond (s : State) (n : Nat) (h : Hdr) (sc status : Nat) (data : List Byte) : State :=
  s.pushSys n (s.rspQp n h sc status data)

/-! ### Reservations (R215 to R222) -/

/-- Bytes of a reservation granule (R216). -/
def State.granule (s : State) (n : Nat) : Nat :=
  match s.rd (niB n) F.NI_RSV_CFG_GRAN with
  | 1 => 128
  | 2 => 256
  | _ => 64

/-- Whether `[addr, addr + len)` overlaps granule `g`. -/
def inGranule (size g addr len : Nat) : Bool := decide (addr / size ≤ g) && decide (g ≤ (addr + (len - 1)) / size)

/-- Set the reservation of a key, replacing its earlier one; the oldest is evicted where 64 are held (R216). -/
def State.setRsv (s : State) (n node slice addr : Nat) : State :=
  let x := s.ni n
  let rest := x.rsvs.filter (fun r => !(r.node == node && r.slice == slice))
  let (rest, full) := if 64 ≤ rest.length then (rest.drop 1, true) else (rest, false)
  let s := s.setNi n { x with nextSer := x.nextSer + 1
                              rsvs := rest ++ [{ ser := x.nextSer, node := node, slice := slice, gran := addr / s.granule n }] }
  if full then s.count (niB n) F.NI_RSV_EVICT_CNT_COUNT 1 else s

/-- Clear the reservations that a write to `[addr, addr + len)` clears (R218): those of other keys on a granule that it
overlaps. The writer's own reservation stays. -/
def State.clearRsv (s : State) (n node slice addr len : Nat) : State :=
  let size := s.granule n
  s.updNi n (fun x => { x with rsvs := x.rsvs.filter (fun r =>
    !(inGranule size r.gran addr len && !(r.node == node && r.slice == slice))) })

/-- Clear every reservation on the granules of `[addr, addr + len)` (R217). -/
def State.clearGranule (s : State) (n addr len : Nat) : State :=
  let size := s.granule n
  s.updNi n (fun x => { x with rsvs := x.rsvs.filter (fun r => !inGranule size r.gran addr len) })

/-- Whether a conditional store has a matching reservation (R217). -/
def State.rsvMatch (s : State) (n node slice addr : Nat) : Bool :=
  (s.ni n).rsvs.any (fun r => r.node == node && r.slice == slice && r.gran == addr / s.granule n)

/-! ### Migration (R429, R431, R432) -/

/-- The page bytes of NI `n`'s window. -/
def State.migPage (s : State) (n : Nat) : Nat := 2 ^ (12 + s.rd (niB n) F.NI_MIG_CTL_PAGE)
/-- The window's base. -/
def State.migBase (s : State) (n : Nat) : Nat := s.word64 (niB n + 0xE48) / s.migPage n * s.migPage n

/-- Set the dirty bits of the pages that a write touches (R429). -/
def State.migLog (s : State) (n slice addr len : Nat) : State :=
  if s.flag (niB n) F.NI_MIG_CTL_LOG_EN && s.rd (niB n) F.NI_MIG_CTL_SLICE == slice then
    let pg := s.migPage n
    let b := s.migBase n
    let bit (a m : Nat) : Nat := if b ≤ a ∧ (a - b) / pg < 4096 then m ||| 2 ^ ((a - b) / pg) else m
    let all := (List.range ((len - 1) / pg + 1)).foldl (fun m i => bit (addr + i * pg) m) (s.ni n).migA
    s.updNi n (fun x => { x with migA := bit (addr + (len - 1)) all })
  else s

/-- Whether a request lies in the window of a slice that is held (R431). -/
def State.migHolds (s : State) (n : Nat) (h : Hdr) : Bool :=
  let b := s.migBase n
  let len := opSpan h.op h.len
  s.flag (niB n) F.NI_MIG_CTL_HOLD && s.flag (niB n) F.NI_MIG_CTL_STAGE && s.rd (niB n) F.NI_MIG_CTL_SLICE == h.slice
    && decide (b ≤ h.addr) && decide (h.addr + (len - 1) < b + 4096 * s.migPage n)

/-! ### Late detection (R225, R243 to R246) -/

/-- Whether an SC0 packet meets the judgement of R243 at all: a nonzero bound, and not looped. -/
def judged (h : Hdr) (vc : Nat) : Bool := vc % 4 == 0 && decide (0 < h.bound)

/-- Whether the NI judges the packet, and does not skip it for the instance that SRC names (R243, R244): it is then presented only
after its ASTAMP (R93). -/
def State.awaits (s : State) (h : Hdr) (vc : Nat) : Bool := judged h vc && h.src / 256 == s.instNum

/-- The histogram bin of a late excess in 1/256 ns (R246). -/
def histBin (x : Nat) : Nat :=
  if 4096 ≤ x then 7 else ((List.range 7).find? (fun k => decide (x < 64 * 2 ^ k))).getD 7

/-- The judgement of a packet measured at ASTAMP `t`: whether it is LATE (R243 to R246). [DESIGN CHOICE: log 25, 130] -/
def State.judge (s : State) (n plane : Nat) (h : Hdr) (t : Stamp) : State × Bool :=
  let b := niB n
  if s.niTimeOk n = false ∨ h.src / 256 ≠ s.instNum then
    (((s.count b F.NI_LATE_SKIP_CNT_COUNT 1).wr b F.NI_LATE_STAT_SKIP 1).updNi n
      (fun x => { x with evSkip := x.evSkip + 1 }), false)
  else
    let m := stampDiff t h.istamp
    let s := if (s.rd b F.NI_LAT_MAX_VALUE : Int) < m then s.wr b F.NI_LAT_MAX_VALUE (min m.toNat (2 ^ 32 - 1)) else s
    if m ≤ (32 * h.bound : Nat) then (s, false)
    else
      let ex := m.toNat - 32 * h.bound
      let s := (s.count b F.NI_LATE_CNT_COUNT 1).updNi n (fun x => { x with evLate := x.evLate + 1 })
      let s := if s.flag b F.NI_LATE_LOG_A_VALID then s else
        (((((s.wr b F.NI_LATE_LOG_A_SRC h.src).wr b F.NI_LATE_LOG_A_PLANE plane).wr b F.NI_LATE_LOG_B_EXCESS
          (min ex (2 ^ 32 - 1))).wr b F.NI_LATE_LOG_C_SEQ h.seq).wr b F.NI_LATE_LOG_C_BOUND h.bound).wr b F.NI_LATE_LOG_A_VALID 1
      let s := if s.flag b F.NI_LATE_CFG_HIST_EN || (s.ni n).histRel then
          s.updNi n (fun x => { x with hist := listSet x.hist (histBin ex) (fun v => min (v + 1) 65535) })
        else s
      let was := s.flag b F.NI_LATE_STAT_LATE
      let s := s.wr b F.NI_LATE_STAT_LATE 1
      (if was then s else s.alert n 8, true)

/-! ### Acceptance by type -/

/-- Whether a packet of a type holds its flits in the VC buffer until the endpoint takes it. A handle operation of VN3 is sunk at
once and waits for AQE in the NI, so that its sinking waits on no request of VN0 (R33). [DESIGN CHOICE: log 135] -/
def waits (ptype : Nat) : Bool := ptype == 0 || ptype == 2

/-- Drop the rest of a received packet: what has arrived gives its credits back and the flits to come are consumed by
count (R141, R672). -/
def State.dropPk (s : State) (n k : Nat) : State :=
  let x := s.ni n
  match x.pk k with
  | none => s
  | some p =>
    (s.setNi n ((x.setPk k none).stopRx p)).credits (.ni p.plane n) p.vc p.owed

/-- An event message addressed to the endpoint (R95, R440, R600); none is shown while NI_UP is low (R60).
[DESIGN CHOICE: log 120] -/
def State.sbeEvent (s : State) (n : Nat) (code : BitVec 32) : State :=
  if (s.ni n).up = false then s else s.updNi n (fun x => { x with out := x.out ++ [EpOut.sbe code] })

/-- A packet whose data become known bad before its delivery has begun (R145): a REQ is answered FABRIC_ERROR, an RSP reaches
its requester with FABRIC_ERROR and zero data, a STREAM is dropped, any other type is dropped and counted. -/
def State.poisoned (s : State) (n k : Nat) : State :=
  match (s.ni n).pk k with
  | none => s
  | some p =>
    let x := s.ni n
    let forget (x : NiSt) : NiSt := { x with
      aqq := x.aqq.filter (fun j => j != k), stq := x.stq.filter (fun j => j != k)
      inbox := x.inbox.filter (fun j => j != k), migHeld := x.migHeld.filter (fun j => j != k) }
    match p.hdr.ptype with
    | 0 => (((s.setNi n (forget x)).respond n p.hdr (p.vc % 4) 0x11 [])).dropPk n k
    | 1 =>
      let x := x.stopRx p
      let x := x.setPk k (some { p with hdr := { p.hdr with op := 0x11 }, left := 0, poison := false, final := true
                                        got := List.replicate (payloadLen 1 0 p.hdr.len) 0 })
      s.setNi n { x with
        rpq := x.rpq.map (fun r => if r.pk = k then { r with status := 0x11 } else r)
        ord := x.ord.map (fun o => { o with rsp := o.rsp.map (fun r => if r.pk = k then { r with status := 0x11 } else r) }) }
    | 2 => ((s.setNi n (forget x)).streamDrop n).dropPk n k
    | _ => ((s.setNi n (forget x)).count (niB n) F.NI_PKT_BAD_CNT_COUNT 1).alert n 3 |>.dropPk n k

/-- Whether NI `n` drops what arrives of a slice: in every state but OPEN and DRAINING, in which admitted packets go on (R436,
R438). [DEDUCED: log 64] -/
def State.sliceDrops (s : State) (n sl : Nat) : Bool :=
  bitAt (s.ni n).squash sl || (decide (sl < 63) && decide (2 ≤ s.rd slcB (F.SLC_ST_STATE.ix sl)))

/-- A packet that its context lets through goes where its type sends it: dropped where its slice is squashed (R438); answered
where the endpoint takes no requests, TGT_EN = 0 deciding before EP_RST_N (R79, R97); held where migration holds it (R431, R432);
otherwise to the AQE, STE or response path or to the NI function that takes it. The squash of its slice comes first, then poison
that is known by now, then TGT_EN and EP_RST_N; poison that is learnt later finds a packet that these have answered already gone
(R145). [DEDUCED: log 35; DESIGN CHOICE: log 118, 136] -/
def State.accept (s : State) (n k : Nat) : State :=
  match (s.ni n).pk k with
  | none => s
  | some p =>
    let h := p.hdr
    let x := s.ni n
    let put (f : NiSt → NiSt) : State := s.setNi n (f x)
    if p.void then s.dropPk n k
    else if s.sliceDrops n h.slice && (decide (h.ptype < 3) || h.ptype == 6 || h.ptype == 7) then
      (s.count (niB n) F.NI_SLC_SQUASH_CNT_COUNT 1).dropPk n k
    else if p.poison && (p.left == 0 || p.final) then
      (if h.ptype = 1 then put (fun x => { x with rin := x.rin ++ [k] }) else s).poisoned n k
    else match h.ptype with
    | 0 =>
      if s.flag (niB n) F.NI_EP_CFG_TGT_EN = false then (s.respond n h (p.vc % 4) 0x0D []).dropPk n k
      else if x.epLow then (s.respond n h (p.vc % 4) 0x09 []).dropPk n k
      else if s.migHolds n h then
        let size := (niRec s.rom n).reseq
        let used := x.migHeld.foldl (fun a j => match x.pk j with
          | some q => a + hdrFlits q.hdr
          | none => a) 0
        if x.migHeld.length < size ∧ used + hdrFlits h ≤ 8 * size then
          (put (fun x => { x.setPk k (some { p with owed := 0 }) with migHeld := x.migHeld ++ [k] })).credits
            (.ni p.plane n) p.vc p.owed
        else
          ((((s.count (niB n) F.NI_MIG_OVF_CNT_COUNT 1).wr (niB n) F.NI_MIG_STAT_OVF 1).alert n 13).respond n h (p.vc % 4)
            0x08 []).dropPk n k
      else put (fun x => { x with aqq := x.aqq ++ [k] })
    | 1 => put (fun x => { x with rin := x.rin ++ [k] })
    | 2 => if x.epLow then (s.streamDrop n).dropPk n k else put (fun x => { x with stq := x.stq ++ [k] })
    | 5 =>
      if p.left = 0 then ((s.sbeEvent n (BitVec.ofNat 32 (leNat (p.got.take 4))))).dropPk n k
      else put (fun x => { x with inbox := x.inbox ++ [k] })
    | 6 =>
      if s.flag (niB n) F.NI_EP_CFG_TGT_EN = false then (s.respond n h (p.vc % 4) 0x0D []).dropPk n k
      else if x.epLow then (s.respond n h (p.vc % 4) 0x09 []).dropPk n k else put (fun x => { x with aqq := x.aqq ++ [k] })
    | 7 => put (fun x => { x with rin := x.rin ++ [k] })
    | _ => put (fun x => { x with inbox := x.inbox ++ [k] })

/-! ### Elimination and resequencing (R395 to R407) -/

/-- The signed 16-bit difference of two sequence numbers. -/
def seqDiff (a b : Nat) : Int := (BitVec.ofNat 16 a - BitVec.ofNat 16 b).toInt

/-- The source part of a packet's context at an instance (R395). -/
def State.ctxSrc (s : State) (h : Hdr) : Nat :=
  if h.via ≠ 0 then 255 + h.via else if h.src / 256 = s.instNum then h.src % 256 else 256

/-- The context of a packet (R395). -/
def State.ctxKey (s : State) (h : Hdr) (vc : Nat) : Nat := s.ctxSrc h * 16 + vc

/-- Deliver every held packet of context `c` whose SEQ is NEXT, advancing NEXT each time (R403). `fuel` bounds the run. -/
def State.drainCtx (s : State) (n c : Nat) : Nat → State
  | 0 => s
  | fuel + 1 =>
    let x := s.ni n
    let v := x.ctx c
    match v.held.find? (fun k => match x.pk k with
        | some p => p.hdr.seq == v.ref
        | none => false) with
    | none => s.setNi n (x.setCtx c { v with gap := if v.held.isEmpty then none else some s.clock })
    | some k =>
      let s := s.setNi n (x.setCtx c { v with ref := (v.ref + 1) % 65536, held := v.held.erase k })
      (s.accept n k).drainCtx n c fuel

/-- The held packets of a context in ascending SEQ order from NEXT (R405). -/
def NiSt.heldInOrder (x : NiSt) (v : Ctx) : List Nat :=
  let d (k : Nat) : Nat := match x.pk k with
    | some p => (p.hdr.seq + 65536 - v.ref) % 65536
    | none => 0
  v.held.foldl (fun l k => (l.takeWhile (fun j => decide (d j ≤ d k))) ++ k :: l.dropWhile (fun j => decide (d j ≤ d k))) []

/-- Flush a context: every held packet is delivered in ascending SEQ order and NEXT passes the highest; missing values are
counted (R405, R406). -/
def State.flushCtx (s : State) (n c : Nat) : State :=
  let x := s.ni n
  let v := x.ctx c
  let l := x.heldInOrder v
  match l.getLast? with
  | none => s
  | some hi =>
    let top := match x.pk hi with
      | some p => (p.hdr.seq + 65536 - v.ref) % 65536
      | none => 0
    let s := s.setNi n (x.setCtx c { v with ref := (v.ref + top + 1) % 65536, held := [], gap := none })
    let s := s.count (niB n) F.NI_RSQ_SKIP_CNT_COUNT (top + 1 - l.length)
    l.foldl (fun a k => a.accept n k) s

/-- Packets and flits that the resequencer buffer holds (R404). -/
def NiSt.heldPkts (x : NiSt) : List Nat := x.ctxs.flatMap (fun e => e.2.held)
def NiSt.heldFlits (x : NiSt) : Nat :=
  x.heldPkts.foldl (fun a k => match x.pk k with
    | some p => a + hdrFlits p.hdr
    | none => a) 0

/-- The context whose gap timer started earliest (R406). -/
def NiSt.oldestCtx (x : NiSt) : Option Nat :=
  (x.ctxs.foldl (fun (a : Option (Nat × Nat)) e => match e.2.gap, a with
    | none, _ => a
    | some g, none => some (e.1, g)
    | some g, some b => if g < b.2 then some (e.1, g) else a) none).map (fun b => b.1)

/-- Flush the earliest-gapped contexts until a packet of `f` flits fits (R406). -/
def State.makeRoom (s : State) (n f : Nat) : Nat → State
  | 0 => s
  | fuel + 1 =>
    let x := s.ni n
    let size := (niRec s.rom n).reseq
    if x.heldPkts.length < size ∧ x.heldFlits + f ≤ 8 * size then s
    else match x.oldestCtx with
      | none => s
      | some c => ((s.flushCtx n c).count (niB n) F.NI_RSQ_FORCE_CNT_COUNT 1).makeRoom n f fuel

/-- A stale packet is dropped and reported (R400, R403). -/
def State.stale (s : State) (n k : Nat) : State :=
  ((s.count (niB n) F.NI_RSQ_STALE_CNT_COUNT 1).alert n 11).dropPk n k

/-- The judgement of a non-SC0 head flit (R403, R407). -/
def State.resequence (s : State) (n k c seq f : Nat) : State :=
  let v := (s.ni n).ctx c
  let d := seqDiff seq v.ref
  if s.flag (niB n) F.NI_RSQ_CTL_REORDER = false then
    let s := if v.base || decide (0 ≤ d) then s.updNi n (fun x => x.setCtx c { v with base := false, ref := (seq + 1) % 65536 })
      else s.count (niB n) F.NI_RSQ_DISORDER_CNT_COUNT 1
    s.accept n k
  else if v.base || d == 0 then
    let s := s.updNi n (fun x => x.setCtx c { v with base := false, ref := (seq + 1) % 65536 })
    (s.accept n k).drainCtx n c (v.held.length + 1)
  else if 0 < d then
    let s := s.makeRoom n f 4096
    let v := (s.ni n).ctx c
    let d := seqDiff seq v.ref
    if d == 0 then
      let s := s.updNi n (fun x => x.setCtx c { v with ref := (seq + 1) % 65536 })
      (s.accept n k).drainCtx n c (v.held.length + 1)
    else if d < 0 then s.stale n k
    else
      let x := s.ni n
      match x.pk k with
      | none => s
      | some p =>
        let x := x.setPk k (some { p with owed := 0 })
        (s.setNi n (x.setCtx c { v with held := v.held ++ [k], gap := if v.held.isEmpty then some s.clock else v.gap })).credits
          (.ni p.plane n) p.vc p.owed
  else s.stale n k

/-- Track an accepted copy that has a twin (R402). -/
def State.twinAdd (s : State) (n c seq plane slice : Nat) : State :=
  let x := s.ni n
  if 32 ≤ x.twins.length then s.count (niB n) F.NI_RSQ_TWIN_UNTRK_COUNT 1
  else s.setNi n { x with twins := x.twins ++ [{ key := c, seq := seq, miss := 1 - plane, slice := slice }] }

/-- The late judgement of packet `k` at its head flit: of one segment it is measured there, and one that R244 skips is skipped there
(R225, R243, R244). Whatever then becomes of the packet, it has been judged. -/
def State.judgeHead (s : State) (n k : Nat) (p : Pk) (t : Stamp) : State :=
  if judged p.hdr p.vc && (decide (hdrFlits p.hdr ≤ 4) || !s.awaits p.hdr p.vc) then
    let (s, late) := s.judge n p.plane p.hdr t
    s.updNi n (fun x => x.setPk k (some { p with late := late, final := true }))
  else s

/-- The judgement of an SC0 head flit (R399 to R402). -/
def State.eliminate (s : State) (n k c : Nat) (p : Pk) (t : Stamp) : State :=
  let seq := p.hdr.seq
  let v := (s.ni n).ctx c
  let d := seqDiff seq v.ref
  let freed (s : State) : State :=
    s.updNi n (fun x => { x with twins := x.twins.filter (fun t => !(t.key == c && t.seq == seq)) })
  let take (s : State) (v : Ctx) : State :=
    let s := s.updNi n (fun x => x.setCtx c v)
    let s := if p.hdr.rep then s.twinAdd n c seq p.plane p.hdr.slice else s
    (s.judgeHead n k p t).accept n k
  if v.base then take s { v with base := false, ref := seq, h := 1 }
  else if 0 < d then take s { v with ref := seq, h := (v.h * 2 ^ d.toNat + 1) % 2 ^ 32 }
  else if -d < 32 ∧ bitAt v.h (-d).toNat = false then
    take (s.count (niB n) F.NI_RSQ_DISORDER_CNT_COUNT 1) { v with h := v.h ||| 2 ^ (-d).toNat }
  else if -d < 32 then
    ((freed s).count (niB n) F.NI_RSQ_ELIM_CNT_COUNT 1).dropPk n k
  else (freed s).stale n k

/-- A twin-table entry reaches TWIN_TMO (R402, R410). -/
def execTwinTmo (n ctx seq : Nat) (s : State) : Host.Outcome State Fault Refusal :=
  guardUnit s (s.hasNi n)
    (let x := s.ni n
     match x.twins.find? (fun t => t.key == ctx && t.seq == seq) with
     | none => s
     | some t =>
       let s := s.setNi n { x with twins := x.twins.erase t }
       let s := s.count (niB n) (if t.miss = 0 then F.NI_RSQ_TWIN_MISS_A_COUNT else F.NI_RSQ_TWIN_MISS_B_COUNT) 1
       let s := s.alert n 10
       if s.flag strB F.STR_PLN_CFG_MISS_FAULT then s.planeFault t.miss 4 else s)

/-- A gap timer expires and its context is flushed (R405). -/
def execGapTmo (n ctx : Nat) (s : State) : Host.Outcome State Fault Refusal :=
  guardUnit s (s.hasNi n)
    (if ((s.ni n).ctx ctx).held.isEmpty then s
     else ((s.flushCtx n ctx).count (niB n) F.NI_RSQ_GAP_CNT_COUNT 1).notice n 4)

/-! ### Flits at an NI (R671, R672) -/

/-- Flits of a packet whose credits may go back once `sent` payload bytes have been presented, 2 more being in the
converter (R63). -/
def flitsGone (total sent : Nat) : Nat := if total ≤ sent then 81 else (if sent < 80 then 0 else 1 + (sent - 80) / 128) + 2

/-- Give back the credits of a packet at the front of its class (R63); a plane input in FAULT hands nothing on (R161, R671).
`sent` is none for a request not yet on AQE. -/
def State.settle (s : State) (n k : Nat) : State :=
  let x := s.ni n
  match x.pk k with
  | none => s
  | some p =>
    let total := payloadLen p.hdr.ptype p.hdr.op p.hdr.len
    let arrived := hdrFlits p.hdr - p.left
    let gone := min arrived (flitsGone (max total 1) p.sent)
    let keep := if (s.port (.ni p.plane n)).fault then p.owed else min p.owed (arrived - gone)
    (s.setNi n (x.setPk k (some { p with owed := keep }))).credits (.ni p.plane n) p.vc (p.owed - keep)

/-- The packets at the front of their VC on the AQE, WQE and STE halves. -/
def NiSt.fronts (x : NiSt) : List Nat :=
  let one (l : List Nat) : List Nat := (List.range 16).filterMap (fun v =>
    l.find? (fun k => match x.pk k with
      | some p => p.vc == v
      | none => false))
  one (x.wqq.map (fun w => w.2)) ++ one x.aqq ++ one x.stq

/-- Give back every credit that the converter has freed. -/
def State.settleAll (s : State) (n : Nat) : State := (s.ni n).fronts.foldl (fun a k => a.settle n k) s

/-- The packets of a VC that still owe credits: the flits its buffer holds. -/
def NiSt.vcHeld (x : NiSt) (plane vc : Nat) : Nat :=
  x.pks.foldl (fun a e => match e.2 with
    | some p => if p.plane = plane ∧ p.vc = vc then a + p.owed else a
    | none => a) 0

/-- A packet is cut: its received part stands, the rest of its data are zero bytes (R412, R672). -/
def State.cutPk (s : State) (n k : Nat) : State :=
  let x := s.ni n
  match x.pk k with
  | none => s
  | some p =>
    let total := payloadLen p.hdr.ptype p.hdr.op p.hdr.len
    let p' := { p with got := (p.got ++ List.replicate total 0).take total, left := 0, cut := true, final := true }
    let x := x.setPk k (some p')
    s.setNi n { x with dlv := x.dlv.map (fun e => (e.1, e.2.map (fun d => if d.pk = k then { d with cut := true } else d))) }

/-- A packet whose last flit has arrived, or whose data have become known bad: the bad one is answered or dropped where its
delivery has not begun, and is completed with zero bytes after what has been presented where it has (R145, R672); its flits
to come are consumed by count. -/
def State.whole (s : State) (n k : Nat) : State :=
  match (s.ni n).pk k with
  | none => s
  | some p =>
    if p.poison then
      if (s.ni n).heldPkts.contains k then s
      else if p.begun then
        ((s.count (niB n) F.NI_PKT_BAD_CNT_COUNT 1).updNi n
          (fun x => (x.stopRx p).setPk k (some { p with got := p.got.take p.sent }))).cutPk n k
      else s.poisoned n k
    else if p.hdr.ptype = 5 ∧ (s.ni n).inbox.contains k = true then
      ((s.updNi n (fun x => { x with inbox := x.inbox.filter (fun j => j != k) })).sbeEvent n
        (BitVec.ofNat 32 (leNat (p.got.take 4)))).dropPk n k
    else s

/-- Whether packet `k` is known bad and waits for no judgement (R145, R225). -/
def State.pkBad (s : State) (n k : Nat) : Bool := match (s.ni n).pk k with
  | some q => q.poison && q.final
  | none => false

/-- OP codes defined for a packet type (R114 to R116, R362). -/
def opDefined (ptype op : Nat) : Bool :=
  match ptype with
  | 0 => decide (op ≤ 8)
  | 1 => decide (op ≤ 0x11)
  | 2 => op == 0
  | 3 => decide (op ≤ 1)
  | 4 => op == 0 || op == 1 || op == 8
  | 5 => decide (op ≤ 4)
  | 6 => op == 9 || op == 10
  | 7 => isVerdict op
  | 8 => decide (op ≤ 2)
  | _ => false

/-- A flit dropped at an NI gives its credit back at once. -/
def State.eat (s : State) (n plane vc : Nat) (rx : Option NiRx) : State :=
  (s.updNi n (fun x => { x with rx := mset (fun _ => none) x.rx (plane * 16 + vc) rx })).credit (.ni plane n) vc

/-- What follows a head flit that is dropped by count. -/
def restCount (f : Nat) : Option NiRx := if f ≤ 1 then none else some (.dropCount (f - 1) none)

/-- A head flit at an NI (R115, R144, R243, R395 to R403, R672). The checks of R115 come before DEST: a packet that breaks both is
counted once, as PKT_BAD. [DESIGN CHOICE: log 136] -/
def State.headAt (s : State) (n plane : Nat) (fl : Flit) (h : Hdr) (err : FlitErr) (t : Stamp) : State :=
  let vc := fl.vc
  let f := hdrFlits h
  if err.head then
    ((s.count (niB n) F.NI_PKT_BAD_CNT_COUNT 1).uncorr n).eat n plane vc (if fl.ft = 3 then none else some .dropTail)
  else if vnOf h.ptype ≠ vc / 4 ∨ opDefined h.ptype h.op = false then (s.pktBad n).eat n plane vc (restCount f)
  else if h.dest ≠ s.nodeId n then
    ((s.count (niB n) F.NI_PKT_BAD_CNT_COUNT 1).alert n 4).eat n plane vc (restCount f)
  else
    let (k, x) := (s.ni n).fresh
    let now := waits h.ptype = false
    let p : Pk := { hdr := h, plane := plane, vc := vc, got := fl.data, left := f - 1, owed := if now then 0 else 1
                    poison := fl.poison || err.dn, final := !s.awaits h vc }
    let x := x.setPk k (some p)
    let x := { x with rx := mset (fun _ => none) x.rx (plane * 16 + vc) (if f ≤ 1 then none else some (.pk k)) }
    let s := s.setNi n x
    let s := if now then s.credit (.ni plane n) vc else s
    let c := s.ctxKey h vc
    let s := if vc % 4 = 0 then s.eliminate n k c p t else s.resequence n k c h.seq f
    if f ≤ 1 ∨ s.pkBad n k = true then s.whole n k else s

/-- A body or tail flit of received packet `k` (R107, R225, R672). A tail ends a packet that was completed early (R141,
R547). An uncorrectable data code 0, which the table of R672 names for a head flit only, poisons the packet like codes 1 to 3.
[DESIGN CHOICE: log 54] -/
def State.bodyAt (s : State) (n k : Nat) (fl : Flit) (err : FlitErr) (t : Stamp) : State :=
  match (s.ni n).pk k with
  | none => s
  | some p =>
    let key := p.plane * 16 + p.vc
    let setRx (x : NiSt) (v : Option NiRx) : NiSt := { x with rx := mset (fun _ => none) x.rx key v }
    let left := if fl.ft = 2 ∧ err.c ≠ .bad then 0 else p.left - 1
    if err.c = .bad then
      let s := s.updNi n (fun x => setRx (x.setPk k (some { p with left := 0, poison := true, final := true }))
        (if left = 0 then none else some (.dropCount left none)))
      (s.credit (.ni p.plane n) p.vc).whole n k
    else
      let keeps := waits p.hdr.ptype && !(s.ni n).heldPkts.contains k && !(s.ni n).migHeld.contains k
      let p' := { p with got := p.got ++ fl.data, left := left, owed := p.owed + b2n keeps
                         poison := p.poison || fl.poison || err.d0 == .bad || err.dn }
      let s := s.updNi n (fun x => setRx (x.setPk k (some p')) (if left = 0 then none else some (.pk k)))
      let s := if keeps then s else s.credit (.ni p.plane n) p.vc
      let f := hdrFlits p.hdr
      let s := if p.final = false ∧ fl.fnum = 4 * ((f - 1) / 4) then
          let (s, late) := s.judge n p.plane p.hdr t
          s.updNi n (fun x => x.setPk k (some { p' with late := late, final := true }))
        else s
      if left = 0 ∨ s.pkBad n k = true then s.whole n k else s

/-- `k` uncorrectable errors counted at NI `n`. -/
def State.uncorrs (s : State) (n k : Nat) : State := (List.range k).foldl (fun a _ => a.uncorr n) s

/-- A packet of several segments that the NI has answered or dropped is judged when the first flit of its last segment arrives
(R225, R243). -/
def State.judgeRest (s : State) (n plane : Nat) (fl : Flit) (j : Option Hdr) (t : Stamp) : State × Option Hdr :=
  match j with
  | none => (s, none)
  | some h => if fl.fnum = 4 * ((hdrFlits h - 1) / 4) then ((s.judge n plane h t).1, none) else (s, some h)

/-- One flit reaches an NI from a plane: each of its five codes is checked, corrected and counted (R107), then come FAULT and
overflow (R161, R671) and the packet's rule. A head flit whose CECC or data code 0 fails counts once, with its packet (R672); any
other uncorrectable code counts as one error. A packet taken by its count F ends at a tail that comes before F too. FT of a flit
whose CECC cannot be corrected is relied on where flits are dropped, and not at a received packet, whose count goes on.
[DESIGN CHOICE: log 54] -/
def State.flitAt (s : State) (n plane : Nat) (fl : Flit) (e : FlitErr) (t : Stamp) : State :=
  let o := Port.ni plane n
  if (s.port o).fault then s
  else
    let err := fl.found e
    let rx : Option NiRx := mget (fun _ => none) (s.ni n).rx (plane * 16 + fl.vc)
    let first := (fl.ft == 1 || fl.ft == 3) && (rx == none || rx == some .dropTail)
    let s := (s.correcteds o err.corrs).uncorrs n (if first && err.head then 0 else err.bads)
    let s := match fl.hdr with
      | some h => if err.head then s else s.trace true o fl.vc h t
      | none => s
    if s.rom.vcDepth ≤ (s.ni n).vcHeld plane fl.vc then
      ((s.updPort o (fun y => { y with fault := true })).wr (niB n)
        (if plane = 0 then F.NI_PLN_ERR_FAULT_A else F.NI_PLN_ERR_FAULT_B) 1).creditError o 3 fl.vc
    else match rx, fl.hdr with
      | some (.pk k), _ => s.bodyAt n k fl err t
      | some (.dropCount l j), _ =>
        let (s, j) := s.judgeRest n plane fl j t
        s.eat n plane fl.vc (if l ≤ 1 ∨ fl.ft = 2 then none else some (.dropCount (l - 1) j))
      | some .dropTail, some h =>
        if first then s.headAt n plane fl h err t else s.eat n plane fl.vc (if fl.ft = 2 then none else some .dropTail)
      | some .dropTail, none => s.eat n plane fl.vc (if fl.ft = 2 then none else some .dropTail)
      | none, some h => if first then s.headAt n plane fl h err t else s.eat n plane fl.vc none
      | none, none => s.eat n plane fl.vc none

/-- The first flit on the wires of an NI's plane input arrives. -/
def execNiFlitArrival (plane n : Nat) (e : FlitErr) (t : Stamp) (s : State) : Host.Outcome State Fault Refusal :=
  guardUnit s (s.hasPort (.ni plane n))
    (let o := Port.ni plane n
     match (s.port o).wire with
     | [] => s
     | fl :: r =>
       let s := s.updPort o (fun y => { y with wire := r })
       if (s.port o).dead then s else (s.flitAt n plane fl e t).settleAll n)

/-! ### Delivery at the target (R77, R91 to R93, R212, R215 to R220) -/

/-- The lowest free delivery tag: R77 names none. [DEDUCED: log 17] -/
def NiSt.freeDtag (x : NiSt) : Option Nat := (List.range 512).find? (fun k => (x.del k).isNone)

/-- Whether a packet's flits stand in the buffer of a plane input in FAULT, which hands none of them on (R161, R671). -/
def State.stuck (s : State) (n : Nat) (p : Pk) : Bool := (s.port (.ni p.plane n)).fault && decide (0 < p.owed)

/-- What is known to stand VALID on an egress half, while it still waits there: the packet, or the class of a response (R57). -/
def NiSt.stood (x : NiSt) (half : Nat) : Option Nat := match x.stalls.find? (fun e => e.1 == half) with
  | none => none
  | some e =>
    if (match half with
      | 0 => x.wqq.any (fun w => w.2 == e.2)
      | 1 => x.rpq.any (fun r => r.sc == e.2)
      | 2 => x.stq.contains e.2
      | _ => x.aqq.contains e.2) then some e.2 else none

/-- The request that AQE takes next: what stands there (R57), or of the highest class the first that heads its VC and may be
presented (R33, R64, R93, R197). -/
def State.nextReq (s : State) (n : Nat) : Option Nat :=
  let x := s.ni n
  let vcOf (k : Nat) : Nat := ((x.pk k).map (fun p => p.vc)).getD 16
  match x.stood 3 with
  | some k => some k
  | none => (List.range 4).findSome? (fun c => x.aqq.find? (fun k => match x.pk k with
    | some p => p.vc % 4 == c && p.final && !s.stuck n p && x.aqq.find? (fun j => vcOf j == p.vc) == some k
    | none => false))

/-- A beat of egress half `half` has transferred, so that a stall of that half is over (R103). -/
def NiSt.moved (x : NiSt) (half : Nat) : NiSt := { x with stalls := x.stalls.filter (fun e => e.1 != half) }

/-- Whether a matching conditional store fails without a cause of R218: only in degraded ordering mode, by a free value,
and at most three times in a row for one key (R220, R222). [DESIGN CHOICE: log 27] -/
def State.spurious (s : State) (n key : Nat) : State × Bool :=
  if s.flag (niB n) F.NI_ORD_STAT_DEGRADED then
    let (v, s) := s.takeFree
    let x := s.ni n
    let k := mget (fun _ => 0) x.spur key
    let fail := v.getLsbD 0 && decide (k < 3)
    (s.setNi n { x with spur := mset (fun _ => 0) x.spur key (if fail then k + 1 else 0) }, fail)
  else (s, false)

/-- Present a request on AQE with its sideband (R77, R91, R92). A reserved load whose reservation `rser` the NI keeps shows as a
read (R217). -/
def State.present (s : State) (n k : Nat) (p : Pk) (rsvd : Bool) (rser : Nat) : State :=
  let x := s.ni n
  match x.freeDtag with
  | none => s
  | some d =>
    let h := p.hdr
    let orig := s.flag (niB n) F.NI_EP_CFG_ORIG_EN
    let pl := payloadLen h.ptype h.op h.len
    let o := EpOut.aqe d (if rsvd && h.op == 2 then 0 else h.op) h.addr h.len (p.vc % 4) h.src h.slice p.late h.istamp (if orig then h.ostamp else 0)
      (orig && h.ovalid)
    let (ser, x) := (x.moved 3).fresh
    let x := x.setDel d (some { hdr := h, sc := p.vc % 4, cut := p.cut, rsvd := rsvd, rser := rser, pk := k, ep := p.ep, ser := ser })
    let x := { x with aqq := x.aqq.filter (fun j => j != k), out := x.out ++ [o] }
    if pl = 0 then (s.setNi n x).dropPk n k
    else
      let x := x.setPk k (some { p with begun := true })
      (s.setNi n { x with wqq := x.wqq ++ [(d, k)] })

/-! ### Egress segments (R62, R64, R65, R274, R277) -/

/-- Whether the next port segment of a packet has all its bytes. -/
def Pk.segReady (p : Pk) : Bool :=
  let total := payloadLen p.hdr.ptype p.hdr.op p.hdr.len
  p.final && (p.left == 0 || decide (min (p.sent + 512) total ≤ p.got.length))

/-- The bytes of the next port segment, and whether it is the last. -/
def Pk.seg (p : Pk) : List Byte × Bool :=
  let total := payloadLen p.hdr.ptype p.hdr.op p.hdr.len
  (((p.got.drop p.sent).take 512).take (total - p.sent), decide (total ≤ p.sent + 512))

/-- The first entry of class `c` on a half whose front may start a segment at `t`. -/
def State.pick (s : State) (n : Nat) (l : List (Nat × Nat)) (rdy : Nat → Bool) (t : Stamp) : Option (Nat × Nat) :=
  let x := s.ni n
  (List.range 4).findSome? (fun c =>
    match l.find? (fun e => e.2 == c) with
    | none => none
    | some e =>
      let ok := match x.pk e.1 with
        | some p => p.segReady && !s.stuck n p
        | none => true
      if ok && rdy c && s.gateOpen n c (s.wholeNs t) then some e else none)

/-- The packets and classes that wait on the WQE, RPE and STE halves. -/
def NiSt.wqeList (x : NiSt) : List (Nat × Nat) := x.wqq.map (fun w => (w.2, match x.pk w.2 with
  | some p => p.vc % 4
  | none => 0))
def NiSt.rpeList (x : NiSt) : List (Nat × Nat) := x.rpq.map (fun r => (r.pk, r.sc))
def NiSt.steList (x : NiSt) : List (Nat × Nat) := x.stq.map (fun k => (k, match x.pk k with
  | some p => p.vc % 4
  | none => 0))

/-- What starts a segment on a half: what stands VALID there (R57), or the first entry of the highest class that may. On STE a class
whose ready bit is low holds back only its own packets, though one of them stands there (R65). -/
def State.halfPick (s : State) (n half : Nat) (l : List (Nat × Nat)) (rdy : Nat → Bool) (t : Stamp) : Option (Nat × Nat) :=
  match ((s.ni n).stood half).bind (fun k => l.find? (fun e => (if half = 1 then e.2 else e.1) == k && rdy e.2)) with
  | some e => some e
  | none => s.pick n l rdy t

/-- The beats of a segment, `w` byte lanes each, whose first byte stands on lane `lane` (R62). [DESIGN CHOICE: log 82] -/
def laneBeats (w lane : Nat) (d : List Byte) : List (List (Option Byte)) :=
  let l := List.replicate lane none ++ d.map some
  (List.range (cdiv l.length w)).map (fun i => ((l.drop (i * w)).take w ++ List.replicate w none).take w)

/-- The status vector as its block of 64 entries of 16 bits, cut into beats of `w` bytes (R84). -/
def vecBeats (w : Nat) (v : List (Nat × Nat)) : List (List Byte) :=
  let l := ((v.flatMap (fun e : Nat × Nat => [BitVec.ofNat 8 (e.1 % 32), BitVec.ofNat 8 e.2])) ++ List.replicate 128 0).take 128
  if v.isEmpty then [] else (List.range (cdiv 128 w)).map (fun i => (l.drop (i * w)).take w)

/-- The rest of a write is not delivered: DECODE_ERROR, and its delivery waits for nothing more (R79). -/
def State.dropWqe (s : State) (n : Nat) (w : Nat × Nat) (p : Pk) : State :=
  let s := match (s.ni n).del w.1 with
    | some d => if d.drop then s else
        (s.updNi n (fun x => x.setDel w.1 (some { d with drop := true }))).respond n p.hdr (p.vc % 4) 0x0D []
    | none => s
  (s.updNi n (fun x => { x with wqq := x.wqq.erase w })).dropPk n w.2

/-- A write data segment on WQE. Where ADDR is not aligned to a beat, a boundary of 512 B ends its beat, and the next segment
starts another one on the next lane. With TGT_EN = 0 nothing is delivered: a write whose AQE beat has gone is answered
DECODE_ERROR, its data consumed and the endpoint's answer to it discarded (R79); a beat that stands VALID stays (R57).
[DESIGN CHOICE: log 82, 118] -/
def State.segWqe (s : State) (n : Nat) (t : Stamp) : State :=
  let x := s.ni n
  match s.halfPick n 0 x.wqeList (fun _ => true) t with
  | none => s
  | some (k, c) =>
    match x.pk k, x.wqq.find? (fun w => w.2 == k) with
    | some p, some w =>
      if s.flag (niB n) F.NI_EP_CFG_TGT_EN = false ∧ x.stood 0 ≠ some k then s.dropWqe n w p else
      let (d, last) := p.seg
      let bb := beatBytes s.rom n
      let x := { x.moved 0 with out := x.out ++ [EpOut.wqe w.1 c (p.sent == 0) last (laneBeats bb ((p.hdr.addr + p.sent) % bb) d)] }
      if last then (s.setNi n { x with wqq := x.wqq.erase w }).dropPk n k
      else s.setNi n (x.setPk k (some { p with sent := p.sent + 512 }))
    | _, _ => s

/-- A stream segment on STE: only for a class whose ready bit is high (R65). -/
def State.segSte (s : State) (n : Nat) (rdy : BitVec 4) (t : Stamp) : State :=
  let x := s.ni n
  match s.halfPick n 2 x.steList (fun c => rdy.getLsbD c) t with
  | none => s
  | some (k, c) =>
    match x.pk k with
    | none => s
    | some p =>
      let h := p.hdr
      let orig := s.flag (niB n) F.NI_EP_CFG_ORIG_EN
      let (d, last) := p.seg
      let x := { x.moved 2 with out := x.out ++ [EpOut.ste h.src c h.slice h.len (p.sent == 0) last p.late h.istamp
        (if orig then h.ostamp else 0) (orig && h.ovalid) d] }
      if last then (s.setNi n { x with stq := x.stq.filter (fun j => j != k) }).dropPk n k
      else s.setNi n (x.setPk k (some { p with sent := p.sent + 512, begun := true }))

/-- Whether the first response of class `c` may go: none of the same ID and destination stands before it in another class
(R70). -/
def NiSt.rpReady (x : NiSt) (c : Nat) : Bool := match x.rpq.find? (fun r => r.sc == c) with
  | none => false
  | some r => !(x.rpq.takeWhile (fun q => q != r)).any (fun q => q.id == r.id && q.key == r.key)

/-- A response segment on RPE, RPE_VCNT with the first and the status vector after the last data (R62, R70, R83, R84). -/
def State.segRpe (s : State) (n : Nat) (t : Stamp) : State :=
  let x := s.ni n
  match s.halfPick n 1 x.rpeList x.rpReady t with
  | none => s
  | some (k, c) =>
    match x.rpq.find? (fun r => r.sc == c) with
    | none => s
    | some r =>
      let bb := beatBytes s.rom n
      let x := x.moved 1
      let beats (first last : Bool) (sent : Nat) (d : List Byte) : List EpOut :=
        [EpOut.rpe r.id c r.status (if first then r.vec.length else 0) first last ((r.lane + sent) % bb) d
          (if last then vecBeats bb r.vec else [])]
      match x.pk k with
      | none => s.setNi n { x with rpq := x.rpq.erase r, out := x.out ++ beats true true 0 [] }
      | some p =>
        let (d, last) := p.seg
        let x := { x with out := x.out ++ beats (p.sent == 0) last p.sent d }
        if last then (s.setNi n { x with rpq := x.rpq.erase r }).dropPk n k
        else s.setNi n (x.setPk k (some { p with sent := p.sent + 512, begun := true }))

/-- The NI starts a port segment on an egress half: 0 WQE, 1 RPE, 2 STE. -/
def execEgressSegmentStart (n half : Nat) (rdy : BitVec 4) (t : Stamp) (s : State) : Host.Outcome State Fault Refusal :=
  guardUnit s (s.hasNi n && decide (half < 3))
    (if (s.ni n).up = false ∨ s.niClocked n = false then s
     else (match half with
       | 0 => s.segWqe n t
       | 1 => s.segRpe n t
       | _ => s.segSte n rdy t).settleAll n)

/-- Whether the request that AQE takes next is presented: the endpoint takes requests, a delivery tag is free, and it is no
conditional store that the NI answers itself (R77, R79, R217). -/
def State.aqeFit (s : State) (n k : Nat) : Bool := match (s.ni n).pk k with
  | none => false
  | some p => s.flag (niB n) F.NI_EP_CFG_TGT_EN && (s.ni n).freeDtag.isSome
      && !(s.flag (niB n) F.NI_RSV_CFG_MON && p.hdr.ptype == 0 && p.hdr.op == 3 && !s.rsvMatch n p.hdr.src p.hdr.slice p.hdr.addr)

/-- What stands VALID at the port on egress half `half` (0 WQE, 1 RPE, 2 STE, 3 AQE): what has stood there, or what the half would
start at the Fabric Time of now, its gates included (R57, R63, R277). -/
def State.shown (s : State) (n half : Nat) : Option Nat :=
  let x := s.ni n
  match half with
  | 0 => if s.flag (niB n) F.NI_EP_CFG_TGT_EN || (x.stood 0).isSome then
      (s.halfPick n 0 x.wqeList (fun _ => true) s.rootStamp).map (fun e => e.1) else none
  | 1 => (s.halfPick n 1 x.rpeList x.rpReady s.rootStamp).map (fun e => e.2)
  | 2 => (s.halfPick n 2 x.steList (fun _ => true) s.rootStamp).map (fun e => e.1)
  | _ => match x.stood 3 with
    | some k => some k
    | none => (s.nextReq n).filter (fun k => s.aqeFit n k)

/-- The delivery of what stands on a half has begun: of a response's data, the first of class `k`, or of packet `k` (R57, R145). -/
def NiSt.begin (x : NiSt) (half k : Nat) : NiSt :=
  let j := if half = 1 then ((x.rpq.find? (fun r => r.sc == k)).map (fun r => r.pk)).getD 0 else k
  match x.pk j with
  | none => x
  | some p => x.setPk j (some { p with begun := true })

/-- An egress half has held VALID without READY past 2^STALL_EXP fc: counted once for each stall (R103). The beat goes on standing
there (R57). -/
def State.stall (s : State) (n half : Nat) : State :=
  let x := s.ni n
  if s.rd (niB n) F.NI_EP_CFG_STALL_EXP = 0 ∨ x.up = false ∨ (x.stood half).isSome = true then s
  else match s.shown n half with
    | none => s
    | some k =>
      ((s.setNi n { (x.moved half).begin half k with stalls := (x.moved half).stalls ++ [(half, k)] }).count
        (niB n) F.NI_EP_STALL_CNT_COUNT 1).wr (niB n) F.NI_EP_STAT_STALL 1

def execStallLimitExpire (n half : Nat) (s : State) : Host.Outcome State Fault Refusal :=
  guardUnit s (s.hasNi n && decide (half < 4)) (s.stall n half)

end Sys2Proof.Machine
end

