-- ==== Sys2Proof/Machine/Requester.lean ====
section
/-! DEFINITION. Responses at the requester's NI (R62, R67, R68, R70, R82 to R86, R97, R101, R117, R188, R189, R201) and the
replies of commands (R486, R494). -/

namespace Sys2Proof.Machine

/-- `k` bytes that the spec leaves open, one free value each. [DESIGN CHOICE: log 20] -/
def freeBytes (s : State) : Nat → State × List Byte
  | 0 => (s, [])
  | k + 1 =>
    let (s1, l) := freeBytes s.takeFree.2 k
    (s1, s.takeFree.1.setWidth 8 :: l)

/-- What the requester NI does with an arriving response: it waits for its last flit, or it is discarded, or it ends the
request or one piece of part `k` of tag `t`. -/
inductive RspUse where
  | wait
  | discard
  | whole (t : Nat)
  | piece (t k : Nat)
  deriving DecidableEq, Repr

/-- The request that a response matches by TAG, GEN and, for a part of a split request, SRC (R68, R117). -/
def NiSt.rspUse (x : NiSt) (p : Pk) : RspUse :=
  let t := p.hdr.tag
  match x.tag t with
  | none => .discard
  | some g =>
    if x.gen t ≠ p.hdr.gen then .discard
    else if g.split then
      let k := g.parts.findIdx (fun r => r.node == p.hdr.src && !r.pieces.isEmpty)
      if g.parts.length ≤ k then .discard else if p.left = 0 then .piece t k else .wait
    else if g.parts.any (fun r => !r.pieces.isEmpty) then .whole t
    else .discard

/-- The first response here that does not wait for its last flit. -/
def NiSt.nextRsp (x : NiSt) : Option Nat := x.rin.find? (fun k => match x.pk k with
  | none => true
  | some p => x.rspUse p != .wait)

/-- The first command reply here that has arrived whole. -/
def NiSt.nextReply (x : NiSt) : Option Nat := x.inbox.find? (fun k => match x.pk k with
  | some p => p.hdr.ptype == 3 && p.hdr.op == 1 && p.left == 0
  | none => false)

/-- Discard a response that its requester no longer expects (R68, R82). -/
def State.rspDrop (s : State) (n k : Nat) : State := (s.count (niB n) F.NI_EP_DROP_CNT_COUNT 1).dropPk n k

/-- The one response of a request that is not split: a buffered store's error is logged, a handle fault is logged, and the
response of a request from before an endpoint reset is discarded (R97, R101, R201). [DESIGN CHOICE: log 121] -/
def State.rspWhole (s : State) (n k t : Nat) (p : Pk) (g : Tag) : State :=
  let st := p.hdr.op
  let s := s.updNi n (fun x => x.setTag t (some { g with rsc := p.vc % 4, parts := g.parts.map (fun r => { r with pieces := [] }) }))
  if g.sb then
    let s := if errStatus st then s.sbFail n g st 1 else s
    (s.dropPk n k).updNi n (fun x => x.finish t st 0)
  else if g.preRst then (s.dropPk n k).updNi n (fun x => x.finish t st 0)
  else
    let s := if p.hdr.ptype = 7 ∧ (st = 4 ∨ st = 5) then s.handleFault n g st else s
    s.updNi n (fun x => x.finish t st k)

/-- The response of one piece: its data go to the piece's place, open for a multicast read; its status joins its part's, and the
last piece answers the request (R83 to R86, R188, R189). -/
def State.rspPiece (s : State) (n k t j : Nat) (p : Pk) (g : Tag) : State :=
  let st := p.hdr.op
  let piece := ((g.parts[j]?.map (fun r => r.pieces)).getD []).headD (0, 0)
  let s := s.dropPk n k
  let (s, data) :=
    if g.data.isEmpty || errStatus st then (s, g.data)
    else if g.multicast then freeBytes s g.data.length
    else (s, place g.data piece.1 (p.got.take piece.2))
  let g := { g with rsc := p.vc % 4, data := data, parts := listSet g.parts j (fun r => { r with pieces := r.pieces.drop 1 }) }
  let s := if g.sb && errStatus st then s.sbFail n g st 1 else s
  s.updNi n (fun x => (x.setTag t (some (g.piece j st))).splitDone t)

/-- A response reaches its requester NI: the first that does not wait for its last flit. [DESIGN CHOICE: log 28] -/
def State.rspArrival (s : State) (n : Nat) : State :=
  let x := s.ni n
  match x.nextRsp with
  | none => s
  | some k =>
    let s := s.setNi n { x with rin := x.rin.filter (fun j => j != k) }
    match x.pk k with
    | none => s
    | some p => match x.rspUse p with
      | .whole t => match x.tag t with
        | some g => s.rspWhole n k t p g
        | none => s.rspDrop n k
      | .piece t j => match x.tag t with
        | some g => s.rspPiece n k t j p g
        | none => s.rspDrop n k
      | _ => s.rspDrop n k

def execRspArrival (n : Nat) (s : State) : Host.Outcome State Fault Refusal :=
  guardUnit s (s.hasNi n) (s.rspArrival n)

/-- A command reply reaches its requester and is returned as RPE data with OKAY, or is discarded where the tag has been
freed (R486, R494). -/
def State.replyReceive (s : State) (n : Nat) : State :=
  let x := s.ni n
  match x.nextReply with
  | none => s
  | some k =>
    let s := s.setNi n { x with inbox := x.inbox.filter (fun j => j != k) }
    match x.pk k with
    | none => s
    | some p =>
      match x.rspUse p, x.tag p.hdr.tag with
      | .whole t, some g =>
        let s := s.updNi n (fun x => x.setTag t (some { g with rsc := p.vc % 4, parts := g.parts.map (fun r => { r with pieces := [] }) }))
        if g.preRst then (s.dropPk n k).updNi n (fun x => x.finish t 0 0) else s.updNi n (fun x => x.finish t 0 k)
      | _, _ => s.rspDrop n k

def execCmdReplyReceive (n : Nat) (s : State) : Host.Outcome State Fault Refusal :=
  guardUnit s (s.hasNi n) (s.replyReceive n)

end Sys2Proof.Machine
end

