-- ==== Sys2Proof/Machine/Endpoint.lean ====
section
/-! DEFINITION. The endpoint port on its ingress side: requests at AQI (R67 to R76, R668), write data (R62, R72), stream
packets (R87, R88), admission into queues (R252, R253), endpoint events (R95), completion timeouts (R209 to R211),
barriers (R204 to R208) and the stall limit (R103). -/

namespace Sys2Proof.Machine

/-! ### The ingress converter -/

/-- Beats that the converter of one ingress half buffers (R63): 2,048 bits of them. -/
def cvtBeats (rom : Rom) (n : Nat) : Nat := 256 / beatBytes rom n

/-- Beats of packets that wait for admission on the AQ or ST half, those that still stand at the port among them. -/
def State.cvtNeed (s : State) (n : Nat) (st : Bool) : Nat :=
  (s.ni n).cvt.foldl (fun a w =>
    if w.st = st then a + (if st then w.qps.foldl (fun b p => b + cdiv p.len (beatBytes s.rom n)) 0 else 1) else a) 0

/-- Beats that the converter of the AQ or ST half holds: never more than its buffer, the others standing at the port with READY
low, inside a packet too (R63). [DESIGN CHOICE: log 115] -/
def State.cvtHeld (s : State) (n : Nat) (st : Bool) : Nat := min (s.cvtNeed n st) (cvtBeats s.rom n)

/-- READY of AQI or STI as the converter's buffer drives it (R63). -/
def State.cvtReady (s : State) (n : Nat) (st : Bool) : Bool := decide (s.cvtHeld n st < cvtBeats s.rom n)

/-- Whether NI `n` is a straggler of some heat (R384). -/
def NiSt.straggles (x : NiSt) : Bool := x.tgts.any (fun e => match e.2 with
  | some g => g.st == 6
  | none => false)

/-- Whether the NI takes requests and stream packets at all: NI_UP high, its region open at its mirror, no FREEZE, and no
straggler's fence (R60, R385, R510, R626). -/
def State.niOpen (s : State) (n : Nat) : Bool :=
  (s.ni n).up && !(s.flag hcuB F.HCU_CTL_FENCE && (s.ni n).straggles) && s.rd dbgB F.DBG_STAT_TEST != 1 && bitAt (s.rd (niB n) F.NI_PWR_MASK_OPEN) (niRec s.rom n).region

/-! ### Queues take packets (R253, R261, R263) -/

/-- Signed difference of two 32-bit tags (R262). -/
def tagDiff (a b : Nat) : Int := (BitVec.ofNat 32 a - BitVec.ofNat 32 b).toInt

/-- Put packets at the end of queue `q`; an empty queue joins its class list with deficit 0, or takes the later of its
start tag and V. -/
def NiSt.enqueue (x : NiSt) (big : Bool) (q : Nat) (ps : List Qp) : NiSt :=
  let v := x.q q
  if v.pkts.isEmpty = false then x.setQ q { v with pkts := v.pkts ++ ps }
  else if big then
    let vv := x.vtime.getD v.cls 0
    x.setQ q { v with pkts := ps, vt := if tagDiff v.vt vv < 0 then vv else v.vt }
  else
    let y := x.setQ q { v with pkts := ps, vt := 0 }
    { y with act := listSet y.act v.cls (fun l => l ++ [q]) }

/-- Whether NI `n` runs virtual-time scheduling (R262). -/
def bigSched (rom : Rom) (n : Nat) : Bool := decide (256 ≤ schedSize rom n)

/-- The flits that a waiting packet reserves. -/
def Wait.flits (w : Wait) : Nat := w.qps.foldl (fun a p => a + p.occ) 0

/-- Admit the packet that waits at the front of a half's converter, if queue depth, free flits and the slice's share allow
(R252, R253, R425). A store that enters the store buffer takes none of them (R199). -/
def State.admitPk (s : State) (n : Nat) (st : Bool) : State :=
  let x := s.ni n
  match x.cvt.find? (fun w => w.st == st) with
  | none => s
  | some w =>
    let p := w.qps.headD { ser := 0, ptype := 0, op := 0, vn := 0, sc := 0, e := 0, dest := 0, len := 0 }
    if p.sb || s.roomFor n w.q p.slice p.sc w.flits then
      s.setNi n ({ x with cvt := x.cvt.erase w }.enqueue (bigSched s.rom n) w.q w.qps)
    else s

/-- Queue a checked packet: at once where nothing waits ahead of it on its half, behind the others otherwise. -/
def State.offer (s : State) (n : Nat) (w : Wait) : State :=
  let ahead := (s.ni n).cvt.any (fun v => v.st == w.st)
  let s1 := s.updNi n (fun x => { x with cvt := x.cvt ++ [w] })
  if ahead then s1 else s1.admitPk n w.st

/-! ### Write data (R62, R72) -/

/-- The bytes of a beat's lanes from `lo`; a byte of the range whose lane is not enabled is a free value.
[DESIGN CHOICE: log 20] -/
def beatData (s : State) : List (Option Byte) → State × List Byte
  | [] => (s, [])
  | o :: r =>
    let (s1, b) := match o with
      | some b => (s, b)
      | none => (s.takeFree.2, s.takeFree.1.setWidth 8)
    let (s2, l) := beatData s1 r
    (s2, b :: l)

/-- Give the packets of request `ser` their payload and let them be released. -/
def NiSt.fill (x : NiSt) (ser now : Nat) (data : List Byte) : NiSt :=
  let g (p : Qp) : Qp := if p.ser = ser ∧ p.isReq = true then
    { p with payload := (data.drop p.off).take p.len, ready := true, offer := now } else p
  { x with
    qs := x.qs.map (fun e => (e.1, { e.2 with pkts := e.2.pkts.map g }))
    cvt := x.cvt.map (fun w => { w with qps := w.qps.map g }) }

/-- The last data beat of a request is held: the payload is complete and a buffered store is answered OKAY in its turn, with a
vector of OKAY where it is split (R83, R200); a COMMAND's header names its limit (R481, R492). -/
def NiSt.dataDone (x : NiSt) (w : WqExp) (now : Nat) (data : List Byte) : NiSt :=
  let y := x.fill w.ser now data
  match y.tag w.tag with
  | none => y
  | some g =>
    if g.ser = w.ser ∧ g.code = 11 then y.setTag w.tag (some { g with tmo := leNat ((data.drop 12).take 2) })
    else if g.ser = w.ser ∧ g.sb = true ∧ g.preRst = false then y.settleOrd g.ser (rpEnt { g with parts := g.parts.map (fun p => { p with status := 0 }) } 0 0) else y

/-- WQI_LAST disagrees with LEN: the request leaves its queue and is answered UNSUPPORTED_OP (R72). -/
def NiSt.dataBad (x : NiSt) (big : Bool) (w : WqExp) : NiSt :=
  let y := x.purge big (fun p => p.isReq && p.ser == w.ser)
  match y.tag w.tag with
  | none => y
  | some g =>
    if g.ser = w.ser then
      (y.setTag w.tag (some { g with sb := false, split := false, nqueued := 0, data := [] })).finish w.tag 0x0E 0
    else y

/-- One write data beat matched to the oldest request of its class that still expects data (R72). -/
def State.wqBeat (s : State) (n : Nat) (b : WBeat) : State :=
  let x := s.ni n
  match x.wq.find? (fun w => w.sc == b.sc.toNat) with
  | none => s.setNi n { x with ahead := x.ahead ++ [b] }
  | some w =>
    let bb := beatBytes s.rom n
    let k := w.beats + 1
    let want := cdiv (w.addr % bb + w.len) bb
    let gone (y : NiSt) : NiSt := { y with wq := y.wq.erase w }
    let keep (y : NiSt) (v : WqExp) : NiSt := { y with wq := y.wq.map (fun u => if u = w then v else u) }
    if w.discard then
      let y := if b.last then gone x else keep x { w with beats := k }
      let s := s.setNi n y
      if b.last && k != want && !w.answered then s.wr (niB n) F.NI_EP_STAT_PROTO 1 else s
    else
      let lanes := ((b.lanes ++ List.replicate bb none).take bb).drop (if w.beats = 0 then w.addr % bb else 0)
      let (s, l) := beatData s (lanes.take (w.len - w.got.length))
      let got := w.got ++ l
      if b.last && k == want then s.setNi n ((gone x).dataDone w s.clock got)
      else if b.last || k == want then
        let y := if b.last then gone x else keep x { w with beats := k, discard := true, answered := true }
        (s.setNi n (y.dataBad (bigSched s.rom n) w)).wr (niB n) F.NI_EP_STAT_PROTO 1
      else s.setNi n (keep x { w with beats := k, got := got })

/-- Beats of write data that the WQI converter holds: those ahead of their address and those of waiting requests (R63). -/
def NiSt.wqHeld (x : NiSt) : Nat :=
  x.ahead.length + x.wq.foldl (fun a w =>
    if w.discard = false ∧ x.cvt.any (fun v => v.qps.any (fun p => p.isReq && p.ser == w.ser)) = true then a + w.beats
    else a) 0

/-- Whether WQI_READY is high for a beat (R63, R72). -/
def State.wqReady (s : State) (n : Nat) (b : WBeat) : Bool :=
  let x := s.ni n
  let bb := beatBytes s.rom n
  match x.wq.find? (fun w => w.sc == b.sc.toNat) with
  | none => decide ((x.ahead.length + 1) * bb ≤ 128) && decide (x.wqHeld < cvtBeats s.rom n)
  | some w => w.discard || !x.cvt.any (fun v => v.qps.any (fun p => p.isReq && p.ser == w.ser))
      || decide (x.wqHeld < cvtBeats s.rom n)

/-- Match the beats that transferred ahead of a request of class `sc`. -/
def State.absorb (s : State) (n sc : Nat) : State :=
  let x := s.ni n
  let mine := x.ahead.filter (fun b => b.sc.toNat == sc)
  mine.foldl (fun a b => a.wqBeat n b) (s.setNi n { x with ahead := x.ahead.filter (fun b => b.sc.toNat != sc) })

/-! ### Requests at AQI -/

/-- Tags the endpoint may hold (R67, R102). -/
def State.tagLimit (s : State) (n : Nat) : Nat :=
  let v := s.rd (niB n) F.NI_TAG_CTRL_LIMIT
  if v = 0 ∨ 512 < v then 512 else v

/-- Whether a tag is free for a request at AQI: within the endpoint's limit, and of the pool of 512 (R67). -/
def State.tagFree (s : State) (n : Nat) : Bool := decide ((s.ni n).epTags < s.tagLimit n) && decide ((s.ni n).tags.length < 512)

/-- The lowest free tag. [DEDUCED: log 17] -/
def NiSt.freeTagNo (x : NiSt) : Nat := ((List.range 512).find? (fun t => (x.tag t).isNone)).getD 0

/-- Whether a slice may take another tag (R425). -/
def State.tagShare (s : State) (n sl : Nat) : Bool :=
  let m := s.rd (niB n) (F.NI_SLC_SHARE0_TAGS.ix sl)
  m == 0 || decide ((s.ni n).sliceTags sl < m)

/-- The serial numbers and the bytes of the stores held in the store buffer (R199, R223): a store's whole LEN counts from its
transfer at AQI, for which R200 reserves its room, before its data have arrived. [DESIGN CHOICE: log 22] -/
def NiSt.sbSers (x : NiSt) : List Nat := (x.sbHeld.map (fun p => p.ser)).eraseDups
def NiSt.sbBytes (x : NiSt) : Nat :=
  x.tags.foldl (fun a e => match e.2 with
    | some g => if x.sbSers.contains g.ser then a + g.len else a
    | none => a) 0

/-- Whether a request to `d` is a write that enters the store buffer (R199, R202). [DESIGN CHOICE: log 22] -/
def State.sbEnters (s : State) (n op sc : Nat) (d : Dst) : Bool :=
  op == 1 && d.ea && decide (2 ≤ sc) && s.flag (niB n) F.NI_ORD_CFG_SB_EN
    && (!(s.ni n).sbDrain || (s.ni n).sbHeld.isEmpty)

/-- The checks 1 to 5 of R668 on a request: its slice and destination, or the status that answers it.
[DESIGN CHOICE: log 16] -/
def State.reqCheck (s : State) (n op : Nat) (q : AqReq) : Except Nat (Nat × Dst) :=
  if 12 ≤ op then .error 0x0E
  else if opLegal op q.addr.toNat q.len.toNat = false then .error 0x0E
  else if schedSize s.rom n ≤ q.qsel.toNat then .error 0x0E
  else match s.sliceOf n q.pid.toNat with
    | none => .error 0x0F
    | some sl =>
      if op = 11 ∧ bitAt (s.rd strB (F.STR_CMD_AUTH_MASK.ix (n / 32))) (n % 32) = false then .error 0x10
      else match s.decodeDst n op q with
        | .error e => .error e
        | .ok d => if s.queueLegal n q.qsel.toNat q.sc.toNat sl then .ok (sl, d) else .error 0x0E

/-- Payload bytes of a request of LEN `len`. -/
def reqPayload (op len : Nat) : Nat := payloadLen (opPtype op) op len

/-- Flits of one leg. -/
def legFlits (op : Nat) (l : Leg) : Nat := flitsOf (reqPayload op l.len)

/-- The status that SC0 admission gives one part of a request, whose packets have `fs` flits: the first that a packet of it meets;
under MODE = REFUSE a second packet on the entry is already too late (R229, R230). -/
def State.partCheck (s : State) (n e : Nat) (fs : List Nat) (now : Stamp) : Option Nat :=
  match fs.findSome? (fun f => s.sc0Check n e f now) with
  | some st => some st
  | none =>
    if e ≠ n ∧ 2 ≤ fs.length ∧ 0 < s.spacing n e 0 ∧ ((s.rsvFor n e).any (fun k => s.rd (niB n) (F.NI_SC0_RSV0_MODE.ix k) == 1)) = true then
      some 0x06
    else none

/-- The legs of a request with the status that SC0 admission of their part, or a missing NI, gives each (R189, R229).
[DEDUCED: log 29] -/
def State.judgeLegs (s : State) (n op sc : Nat) (d : Dst) (now : Stamp) : List (Leg × Option Nat) :=
  d.legs.map (fun l => (l, match l.e with
    | none => some 0x0D
    | some e =>
      if sc = 0 then s.partCheck n e ((d.legs.filter (fun k => k.part == l.part)).map (legFlits op)) now else none))

/-- The parts that SC0 admission has refused, each counted once (R229). -/
def refusedParts (js : List (Leg × Option Nat)) : Nat :=
  ((js.filter (fun j => j.2.isSome && j.1.e.isSome)).map (fun j => j.1.part)).eraseDups.length

/-- One part of a request before its release: its NI, the status that admission has given it, and the places of its pieces. -/
def mkPart (js : List (Leg × Option Nat)) (i : Nat) : Part :=
  let mine := js.filter (fun j => j.1.part == i)
  { ni := (mine.head?.map (fun j => j.1.ni)).getD 0, node := (mine.head?.map (fun j => j.1.dest)).getD 0
    status := combine (mine.map (fun j => j.2.getD 0)), all := mine.map (fun j => (j.1.off, j.1.len)) }

/-- The queued packet of one leg. [DESIGN CHOICE: log 19] -/
def legQp (op : Nat) (q : AqReq) (gaps : List (Nat × Nat)) (sl tag gen ser : Nat) (d : Dst) (sb : Bool) (after : List Nat) (orig : Bool) (now : Nat)
    (l : Leg) : Qp :=
  let f := legFlits op l
  { ser := ser, ptype := opPtype op, op := if op = 11 then 0 else op, vn := vnOf (opPtype op), sc := q.sc.toNat
    e := l.e.getD 260, dest := l.dest, len := if opPtype op = 6 then 0 else l.len
    addr := if op = 11 then 0 else l.addr, slice := sl, tag := tag, gen := gen
    isReq := true, mc := d.split, ovalid := orig && q.ovalid, ostamp := if orig && q.ovalid then q.ostamp else 0
    ready := !opData op, f := f, off := l.off, offer := now, sb := sb, part := l.part, occ := if sb then 0 else f
    grp := d.grp, dev := d.dev, after := after, gaps := gaps }

/-- The stores in the store buffer that a request of operation `op` to `[addr, addr + len)` overlaps (R195). A handle operation
and a COMMAND address no memory: AQI_ADDR holds a pool class, a handle or nothing (R73). -/
def NiSt.overlapped (x : NiSt) (op addr len : Nat) : List Nat :=
  if 9 ≤ op then [] else x.tags.filterMap (fun e => match e.2 with
    | some h => if h.sb ∧ x.sbSers.contains h.ser = true ∧ overlaps addr len h.addr h.len = true then some h.ser else none
    | none => none)

/-- Accept a request that R668's checks 1 to 5 have passed: admission (check 6), tag, and entry into the store buffer or
the queue (R199, R229, R252, R266). [DEDUCED: log 18, 29] -/
def State.acceptReq (s : State) (n op : Nat) (q : AqReq) (sl : Nat) (d : Dst) (g0 : Tag) (t : Nat) : State :=
  let b := niB n
  let sc := q.sc.toNat
  let js := s.judgeLegs n op sc d q.now
  let bad := js.filter (fun j => j.2.isSome)
  let s := if sc = 0 ∧ bad.isEmpty = false then
      s.count b F.NI_ADM_REFUSE_CNT_COUNT (refusedParts js) else s
  let whole : Option Nat :=
    if sc = 0 then (if d.split then none else (bad.head?.bind (fun j => j.2)))
    else if sc = 1 then (if s.sc1Ok n q.qsel.toNat then none else some 0x06)
    else if s.quarAt n then some 0x06 else none
  let s := if sc = 1 ∧ whole.isSome = true then s.count b F.NI_SC1_REFUSE_CNT_COUNT 1 else s
  let x := s.ni n
  match whole with
  | some st =>
    let s := s.setNi n ((x.setTag t (some g0)).finish t st 0)
    if opData op then
      (s.updNi n (fun x => { x with wq := x.wq ++ [{ ser := g0.ser, sc := sc, tag := t, addr := g0.addr, len := g0.len
                                                     discard := true }] })).absorb n sc
    else s
  | none =>
    let orig := s.flag b F.NI_EP_CFG_ORIG_EN
    let sb := s.sbEnters n op sc d
    let js := if sb then d.legs.map (fun l => (l, none)) else js
    let good := js.filter (fun j => j.2.isNone)
    let parts := (List.range (d.legs.foldl (fun a l => max a (l.part + 1)) 0)).map (mkPart js)
    let after := x.overlapped op g0.addr (opSpan op g0.len)
    let mk := legQp op q (s.gapsOf n sc (d.legs.map (fun l => l.e))) sl t (x.gen t) g0.ser d sb after orig s.clock
    let skip := bad.map (fun j => (j.1.ni, j.2.getD 0))
    let qps : List Qp := match d.grp with
      | some _ => (good.head?.map (fun j => { mk j.1 with skip := skip })).toList
      | none => good.map (fun j => mk j.1)
    let rd := d.split && (op == 0 || op == 2)
    let g := { g0 with split := d.split, parts := parts, sb := sb, nqueued := qps.length, dev := d.dev
                       data := if rd then List.replicate g0.len 0 else [] }
    let x := x.setTag t (some g)
    let x := if x.sbHeld.isEmpty then { x with sbDrain := false } else x
    let x := if opData op then
      { x with wq := x.wq ++ [{ ser := g.ser, sc := sc, tag := t, addr := g.addr, len := g.len, discard := qps.isEmpty }] }
      else x
    let s := s.setNi n x
    let s := if qps.isEmpty then s.updNi n (fun x => x.splitDone t)
      else s.offer n { st := false, q := q.qsel.toNat, qps := qps }
    if opData op then s.absorb n sc else s

/-- The destination of a request that a check refuses, where its operands name one (R69, R70). -/
def State.refusedKey (s : State) (n op : Nat) (q : AqReq) : Option Nat :=
  if 12 ≤ op then none
  else match s.decodeDst n op q with
    | .ok d => some d.key
    | .error _ => none

/-- A request beat on AQI. It transfers only where the NI holds AQI_READY high: NI up, converter room, a free tag within
NI.TAG_CTRL.LIMIT and the slice's share, one class per ID and destination (R69), and store buffer room (R200). It takes a
tag (R67); a request that a check refuses is answered at the NI and never enters a plane (R81). [DESIGN CHOICE: log 16] -/
def State.request (s : State) (n op0 : Nat) (q : AqReq) : State :=
  let op := if 12 ≤ q.code.toNat then q.code.toNat else op0
  let x := s.ni n
  let v := s.softView n q.dest.toNat q.soft
  let chk := v.reqCheck n op q
  let share := match v.sliceOf n q.pid.toNat with
    | some sl => s.tagShare n sl
    | none => true
  let key := match chk with
    | .ok (_, d) => some d.key
    | .error _ => v.refusedKey n op q
  let clash := match key with
    | some k => x.tags.any (fun e => match e.2 with
        | some g => !g.evd && g.id == q.id.toNat && g.dkey == k && g.sc != q.sc.toNat
        | none => false)
    | none => false
  let sbFull := match chk with
    | .ok (_, d) => s.sbEnters n op q.sc.toNat d
        && (decide (32 ≤ x.sbSers.length) || decide (32768 < x.sbBytes + q.len.toNat))
    | .error _ => false
  if s.niOpen n && s.cvtReady n false && s.tagFree n && share && !clash && !sbFull then
    let t := x.freeTagNo
    let (ser, x) := x.fresh
    let g0 : Tag := { ser := ser, id := q.id.toNat, code := op, sc := q.sc.toNat, rsc := q.sc.toNat, slice := 63
                      pid := q.pid.toNat, addr := q.addr.toNat, len := q.len.toNat, dkey := key.getD (2 ^ 22 + ser)
                      handle := q.addr.toNat % 2 ^ 32, store := opStore op }
    let s := (s.setNi n (x.owe g0)).softNote n q.soft
    match chk with
    | .ok (sl, d) => s.acceptReq n op q sl d { g0 with slice := sl, dkey := d.key, cto := d.cto } t
    | .error st =>
      let sl := (v.sliceOf n q.pid.toNat).getD 63
      let s := s.updNi n (fun x => (x.setTag t (some { g0 with slice := sl })).finish t st 0)
      if opData op then
        (s.updNi n (fun x => { x with wq := x.wq ++ [{ ser := ser, sc := q.sc.toNat, tag := t, addr := q.addr.toNat
                                                       len := q.len.toNat, discard := true }] })).absorb n q.sc.toNat
      else s
  else s

def execOpRead (n : Nat) (q : AqReq) (s : State) : Host.Outcome State Fault Refusal := guardUnit s (s.hasNi n) (s.request n 0 q)
def execOpWrite (n : Nat) (q : AqReq) (s : State) : Host.Outcome State Fault Refusal := guardUnit s (s.hasNi n) (s.request n 1 q)
def execOpReservedLoad (n : Nat) (q : AqReq) (s : State) : Host.Outcome State Fault Refusal :=
  guardUnit s (s.hasNi n) (s.request n 2 q)
def execOpCondStore (n : Nat) (q : AqReq) (s : State) : Host.Outcome State Fault Refusal :=
  guardUnit s (s.hasNi n) (s.request n 3 q)
def execOpAtomicSwap (n : Nat) (q : AqReq) (s : State) : Host.Outcome State Fault Refusal :=
  guardUnit s (s.hasNi n) (s.request n 4 q)
def execOpAtomicAdd (n : Nat) (q : AqReq) (s : State) : Host.Outcome State Fault Refusal :=
  guardUnit s (s.hasNi n) (s.request n 5 q)
def execOpAtomicCas (n : Nat) (q : AqReq) (s : State) : Host.Outcome State Fault Refusal :=
  guardUnit s (s.hasNi n) (s.request n 6 q)
def execOpHandleAlloc (n : Nat) (q : AqReq) (s : State) : Host.Outcome State Fault Refusal :=
  guardUnit s (s.hasNi n) (s.request n 9 q)
def execOpHandleFree (n : Nat) (q : AqReq) (s : State) : Host.Outcome State Fault Refusal :=
  guardUnit s (s.hasNi n) (s.request n 10 q)
def execOpCommand (n : Nat) (q : AqReq) (s : State) : Host.Outcome State Fault Refusal :=
  guardUnit s (s.hasNi n) (s.request n 11 q)

/-- A barrier at AQI (R204, R205): it takes a tag, which counts in its slice's share, starts the store buffer's drain and waits in
AQI order. Of R668's checks the first two apply to it, but for LEN, alignment and queue, which it ignores (R73, R74, R90).
[DEDUCED: log 17] -/
def State.barrier (s : State) (n : Nat) (q : AqReq) (complete : Bool) : State :=
  let x := s.ni n
  let sl := (s.softView n q.dest.toNat q.soft).sliceOf n q.pid.toNat
  if s.niOpen n && s.cvtReady n false && s.tagFree n && (sl.all (fun k => s.tagShare n k)) then
    let t := x.freeTagNo
    let (ser, x) := x.fresh
    let code := if 12 ≤ q.code.toNat then q.code.toNat else if complete then 8 else 7
    let g : Tag := { ser := ser, id := q.id.toNat, code := code, sc := q.sc.toNat, rsc := q.sc.toNat
                     slice := sl.getD 63, pid := q.pid.toNat, addr := q.addr.toNat, len := 0, dkey := 2 ^ 22 + ser }
    let x := (x.owe g).setTag t (some g)
    (s.setNi n (if 12 ≤ code then x.finish t 0x0E 0
      else if sl.isNone then x.finish t 0x0F 0
      else { x with bars := x.bars ++ [{ ser := ser, id := t, sc := q.sc.toNat, complete := complete }] })).softNote n q.soft
  else s

def execOpBarrierOrder (n : Nat) (q : AqReq) (s : State) : Host.Outcome State Fault Refusal :=
  guardUnit s (s.hasNi n) (s.barrier n q false)
def execOpBarrierComplete (n : Nat) (q : AqReq) (s : State) : Host.Outcome State Fault Refusal :=
  guardUnit s (s.hasNi n) (s.barrier n q true)

/-- A write data beat at WQI (R62, R72). -/
def execWqiData (n : Nat) (b : WBeat) (s : State) : Host.Outcome State Fault Refusal :=
  guardUnit s (s.hasNi n) (if (s.ni n).up && s.wqReady n b then s.wqBeat n b else s)

/-! ### Stream packets at STI -/

/-- The first `k` bytes of a list, free values where it is short. [DESIGN CHOICE: log 20] -/
def fillData (s : State) (l : List Byte) : Nat → State × List Byte
  | 0 => (s, [])
  | k + 1 =>
    let (s1, b) := match l with
      | [] => (s.takeFree.2, s.takeFree.1.setWidth 8)
      | b :: _ => (s, b)
    let (s2, r) := fillData s1 (l.drop 1) k
    (s2, b :: r)

/-- The checks of R668 on a stream packet: slice, group and legs, or none where R88 drops it. -/
def State.stCheck (s : State) (n : Nat) (p : StPkt) : Option (Nat × Dst) :=
  let len := p.len.toNat
  if len = 0 ∨ 10240 < len ∨ schedSize s.rom n ≤ p.qsel.toNat then none
  else match s.sliceOf n p.pid.toNat with
    | none => none
    | some sl =>
      match (if p.mc then s.groupDst n (p.dest.toNat % 4096) 0 len false false 0 else s.nodeDst n p.dest.toNat 0 len false false 0) with
      | none => none
      | some d => if s.queueLegal n p.qsel.toNat p.sc.toNat sl then some (sl, d) else none

/-- A stream packet at STI: checked at its first beat, then queued or dropped (R87, R88, R668). Bytes of LEN that the operand
does not give are free values. [DESIGN CHOICE: log 20] -/
def State.stream (s : State) (n : Nat) (p : StPkt) : State :=
  if s.niOpen n && s.cvtReady n true then
    let b := niB n
    let sc := p.sc.toNat
    let len := p.len.toNat
    let chk := (s.softView n p.dest.toNat p.soft).stCheck n p
    let s := s.softNote n p.soft
    match chk with
    | none => s.streamDrop n
    | some (sl, d) =>
      let f := flitsOf len
      let js := d.legs.map (fun l => (l, match l.e with
        | none => some 0x0D
        | some e => if sc = 0 then s.partCheck n e [f] p.now else none))
      let bad := js.filter (fun j => j.2.isSome)
      let good := js.filter (fun j => j.2.isNone)
      let s := if sc = 0 ∧ bad.isEmpty = false then
          s.count b F.NI_ADM_REFUSE_CNT_COUNT (refusedParts js) else s
      let s := (List.range bad.length).foldl (fun a _ => a.streamDrop n) s
      if sc = 1 ∧ s.sc1Ok n p.qsel.toNat = false then (s.count b F.NI_SC1_REFUSE_CNT_COUNT 1).streamDrop n
      else if 2 ≤ sc ∧ s.quarAt n = true then s.streamDrop n
      else match good with
        | [] => s
        | j :: _ =>
          let orig := s.flag b F.NI_EP_CFG_ORIG_EN && p.ovalid
          let (s, data) := fillData s p.data len
          let (ser, x) := (s.ni n).fresh
          let qp : Qp :=
            { ser := ser, ptype := 2, op := 0, vn := 2, sc := sc, e := j.1.e.getD n, dest := j.1.dest, len := len
              slice := sl, mc := d.split, ovalid := orig, ostamp := if orig then p.ostamp else 0
              payload := data, f := f, occ := f, offer := s.clock
              grp := d.grp, skip := bad.map (fun j => (j.1.ni, j.2.getD 0)), gaps := s.gapsOf n sc (d.legs.map (fun l => l.e)) }
          (s.setNi n x).offer n { st := true, q := p.qsel.toNat, qps := [qp] }
  else s

def execStiPacket (n : Nat) (p : StPkt) (s : State) : Host.Outcome State Fault Refusal :=
  guardUnit s (s.hasNi n) (s.stream n p)

/-- The waiting packet at the front of the AQ or ST converter enters its queue once it may (R252, R253). -/
def execPacketAdmit (n : Nat) (st : Bool) (s : State) : Host.Outcome State Fault Refusal :=
  guardUnit s (s.hasNi n) (s.admitPk n st)

/-! ### Endpoint events and the port -/

/-- An endpoint event is queued, or merged where 4 are queued (R95). -/
def execSbiEvt (n : Nat) (code : BitVec 16) (s : State) : Host.Outcome State Fault Refusal :=
  guardUnit s (s.hasNi n)
    (let x := s.ni n
     if x.up = false then s
     else if x.evq.length < 4 then s.setNi n { x with evq := x.evq ++ [code] }
     else s.count (niB n) F.NI_EP_EVT_OVF_COUNT 1)

/-- The NI takes one queued endpoint event and sets EP_EVENT (R95). -/
def execEpEventTake (n : Nat) (s : State) : Host.Outcome State Fault Refusal :=
  guardUnit s (s.hasNi n)
    (let x := s.ni n
     match x.evq with
     | [] => s
     | _ :: r => (s.setNi n { x with evq := r }).notice n 0)

/-- EP_RST_N deasserts and is synchronised (R96). NI_UP rises later (R98). -/
def execEpRstDeassert (n : Nat) (s : State) : Host.Outcome State Fault Refusal :=
  guardUnit s (s.hasNi n) (s.updNi n (fun x => { x with epLow := false }))

/-- NI_UP rises once EP_RST_N is high, no reset or recovery covers the NI, its region is open and every tag held before
the reset is free (R60, R98). -/
def execNiUpRise (n : Nat) (s : State) : Host.Outcome State Fault Refusal :=
  guardUnit s (s.hasNi n)
    (if (s.ni n).mayRise && !s.replayDue n && s.rgOpen (niRec s.rom n).region then s.updNi n (fun x => { x with up := true }) else s)

/-! ### Completion timeouts (R82, R209 to R211) -/

/-- The completion timeout of a tag, or of the oldest piece in one part of a split request, expires.
[DESIGN CHOICE: log 4] -/
def State.ctoExpire (s : State) (n t part : Nat) : State :=
  match (s.ni n).tag t with
  | none => s
  | some g =>
    let k := if g.split then part else 0
    match g.parts[k]? with
    | none => s
    | some p =>
      if p.pieces.isEmpty then s
      else
        let s := (s.count (niB n) F.NI_CTO_CNT_COUNT 1).alert n (if g.store then 5 else 6)
        let (s, st) := if g.store then s.dropStore n g else (s, 0x0C)
        let s := if st = 0x0B ∧ g.sb = false ∧ g.split = false ∧ g.preRst = false then s.wr (niB n) F.NI_ORD_STAT_BFAULT 1 else s
        let g := { g with parts := listSet g.parts k (fun p => { p with pieces := p.pieces.drop 1 }) }
        s.updNi n (fun x => (x.setTag t (some g)).endPiece t k (if g.split then 0x0C else st))

def execCtoExpire (n tag part : Nat) (s : State) : Host.Outcome State Fault Refusal :=
  guardUnit s (s.hasNi n) (s.ctoExpire n tag part)

/-! ### Barriers (R204 to R208, R669) -/

/-- The endpoint's packets that wait in an injection queue or for admission. -/
def NiSt.offered (x : NiSt) : List Qp := (x.qs.flatMap (fun e => e.2.pkts)) ++ (x.cvt.flatMap (fun w => w.qps))

/-- Whether a barrier's condition holds: every earlier packet is released, and for COMPLETE every earlier request has
completed. -/
def NiSt.barMet (x : NiSt) (b : Bar) : Bool :=
  !(x.offered.any (fun p => decide (p.ser < b.ser) && (p.isReq || p.ptype == 2)))
    && (!b.complete || !x.tags.any (fun e => match e.2 with
        | some g => !g.evd && decide (g.ser < b.ser)
        | none => false))

/-- The first waiting barrier is answered once its condition holds (R206, R669). One from before an endpoint reset has no answer to
return (R97): it reports no fault, and what it would have reported is left for the next. [DESIGN CHOICE: log 134] -/
def State.barrierDone (s : State) (n : Nat) : State :=
  let x := s.ni n
  match x.bars with
  | [] => s
  | b :: r =>
    if x.barMet b = false then s
    else
      let fault := b.complete && (b.fault || x.bfPend)
      let err := b.complete && s.flag (niB n) F.NI_ORD_STAT_SB_ERR
      let st := if fault then 0x0B else if err then 0x08 else 0x00
      let mute := (x.tag b.id).any (fun g => g.preRst)
      let x := { x with bars := r, bfPend := if mute then x.bfPend || fault else if b.complete then false else x.bfPend }
      let s := s.setNi n (x.finish b.id st 0)
      if mute then s
      else if fault then s.wr (niB n) F.NI_ORD_STAT_BFAULT 1
      else if err then s.wr (niB n) F.NI_ORD_STAT_SB_ERR 0 else s

def execBarrierDone (n : Nat) (s : State) : Host.Outcome State Fault Refusal :=
  guardUnit s (s.hasNi n) (s.barrierDone n)

end Sys2Proof.Machine
end

