-- ==== Sys2Proof/Machine/Router.lean ====
section
/-! DEFINITION. Routers and links: flit arrival and routing faults (R140 to R142, R151, R161, R547), arbitration at every
output (R162 to R173, R254, R256), credits (R154 to R160, R541), and crossing stations (R539, R542, R550, R552). -/

namespace Sys2Proof.Machine

/-! ### Outputs -/

/-- The flits of VC `v` in a station queue (R539). -/
def stVc (q : List Flit) (v : Nat) : List Flit := q.filter (fun f => f.vc == v)

/-- A queue overflow of a crossing station, reported by its downstream unit (R542). -/
def State.xingOverflow (s : State) (o : Port) (vc : Nat) : State :=
  let s := s.updPort o (fun x => { x with stStop := true })
  match o with
  | .rtr p r q => ((s.setBit (rtrB p r) F.RTR_XING_EVT_FAULT q).rtrEvent p r 1).planeFault p 2
  | .ni _ _ => s.creditError o 3 vc
  | .span _ _ => s

/-- Put a flit on the link of output `o`: to the crossing station where the link holds one, and away with its credit
returned where the station isolates (R539, R550). [DESIGN CHOICE: log 13] -/
def State.drive (s : State) (o : Port) (fl : Flit) : State :=
  let s := s.updPort o (fun x => { x with cred := listSet x.cred fl.vc (fun c => c - 1) })
  match farEnd s.rom o with
  | none => s
  | some f =>
    if hasXing s.rom o then
      if (s.port o).stIso then s.updPort o (fun x => { x with cwire := x.cwire ++ [BitVec.ofNat 16 (2 ^ fl.vc)] })
      else
        let y := s.port f
        if y.stStop then s
        else if s.rom.vcDepth ≤ (stVc y.stq fl.vc).length then s.xingOverflow f fl.vc
        else s.setPort f { y with stq := y.stq ++ [fl] }
    else s.updPort f (fun y => { y with wire := y.wire ++ [fl] })

/-- The header as it leaves a router (R126). -/
def nextHop (h : Hdr) : Hdr :=
  if h.hop = 15 then { h with hop := 0, la := 0 } else { h with hop := h.hop + 1, la := pathField h.path (h.hop + 1) }

/-- The packet at the front of a router input VC, once a head flit stands there. -/
def frontPkt (buf : List Flit) : Option TxPkt :=
  match buf with
  | f :: _ => f.hdr.map (fun h => { hdr := h, f := hdrFlits h, next := 0 })
  | [] => none

/-- The input port `i` of the unit of output `o`. -/
def inPort (o : Port) (i : Nat) : Port := match o with
  | .rtr p r _ => .rtr p r i
  | o => o

/-- The next flit that requester `(i, v)` of output `o` would send, with its packet's flit count and its number. An input port in
FAULT sends nothing (R161). -/
def State.nextFlit (s : State) (o : Port) (i v : Nat) : Option (Flit × Nat × Nat) :=
  match o with
  | .rtr _ _ _ =>
    match if (s.port (inPort o i)).fault then none else (s.port (inPort o i)).vcs[v]? with
    | none => none
    | some x =>
      match x.tx, x.buf with
      | some t, f :: _ => some (f, t.f, t.next)
      | _, _ => none
  | .span _ k =>
    match (s.lk (4 * k + i)).rxv[v]? with
    | none => none
    | some x =>
      match x.tx, x.buf with
      | some t, f :: _ => some (f, t.f, t.next)
      | _, _ => none
  | .ni _ _ =>
    match (mget (fun _ => none) (s.port o).slots v : Option Slot) with
    | none => none
    | some p => some (mkFlit p.hdr v p.f p.payload p.next, p.f, p.next)

/-- Whether the packet at the front of an input VC is bound for an output: by LA at a router, by its route and its plane at
a Span port, where the links are the inputs (R150, R576, R578). -/
def State.wants (s : State) (o : Port) (i v : Nat) : Bool :=
  match o with
  | .rtr _ _ q =>
    match (s.port (inPort o i)).vcs[v]? with
    | none => false
    | some x => match x.tx with
      | some t => t.hdr.la == q && !(s.port (inPort o i)).fault
      | none => false
  | .span p k =>
    let l := s.lk (4 * k + i)
    l.go.getD v none == some 0 &&
    match l.rxv[v]? with
    | none => false
    | some x => match x.tx with
      | some t => if t.next = 0 then s.spanPlane == p else (s.port o).hold.getD v none == some i
      | none => false
  | .ni _ _ => i == 0

/-- Whether only SC0 may win at a plane output of an NI: an SC0 packet is selected and the plane is attached, or a second copy waits
for the plane (R256, R257). -/
def State.sc0Only (s : State) (o : Port) : Bool :=
  match o with
  | .ni p n => ((s.ni n).sc0Sel.isSome && s.usable n p) || (s.ni n).sysq.any (fun q => q.copyOf == some p)
  | _ => false

/-- Whether a staged packet of an NI waits for the other plane because its own is not usable (R398). -/
def State.benched (s : State) (o : Port) (v : Nat) : Bool :=
  match o with
  | .ni p n => match (mget (fun _ => none) (s.port o).slots v : Option Slot) with
    | some y => y.next == 0 && !y.probe && !s.usable n p
    | none => false
  | _ => false

/-- Staged packets of which nothing has left move from a plane of NI `n` that is not usable to the same VC's slot of the
other plane, where that slot is free (R398). [DESIGN CHOICE: log 14] -/
def State.moveStaged (s : State) (n : Nat) : State :=
  [0, 1].foldl (fun a p =>
    if a.usable n p || !a.usable n (1 - p) then a
    else (List.range 16).foldl (fun b v =>
      match (mget (fun _ => none) (b.port (.ni p n)).slots v : Option Slot),
            (mget (fun _ => none) (b.port (.ni (1 - p) n)).slots v : Option Slot) with
      | some y, none =>
        if y.next = 0 ∧ y.probe = false then
          let z : Option Slot := some { y with hdr := { y.hdr with plane := 1 - p } }
          let b := b.updPort (.ni p n) (fun x => { x with slots := mset (fun _ => none) x.slots v none })
          b.updPort (.ni (1 - p) n) (fun x => { x with slots := mset (fun _ => none) x.slots v z })
        else b
      | _, _ => b) a) s

/-- Whether input VC `v` of port `i` is a requester at output `o` (R162). [DESIGN CHOICE: log 14] -/
def State.requests (s : State) (o : Port) (i v : Nat) : Bool :=
  let x := s.port o
  s.wants o i v && x.loaded && (!s.sc0Only o || v % 4 == 0) && !s.benched o v &&
  match s.nextFlit o i v with
  | none => false
  | some (_, f, k) =>
    (match x.hold.getD v none with
      | none => true
      | some j => j == i)
    && decide (segLen f k ≤ x.cred.getD v 0)

/-- The level of input port `i` at output `o` for VC `v` (R166): none for SC0, for NIs and for Span ports. -/
def State.level (s : State) (o : Port) (i v : Nat) : Nat :=
  match o with
  | .rtr p r _ => if v % 4 = 0 then 0 else bitsAt (s.word (rtrB p r + 0x40)).toNat (2 * i) 2
  | _ => 0

/-- Input ports of output `o`. -/
def State.inputs (s : State) (o : Port) : Nat := match o with
  | .rtr _ r _ => (rtrRec s.rom r).radix
  | .ni _ _ => 1
  | .span _ _ => 4

/-- The requesters at an output, but for the excluded one. -/
def State.requesters (s : State) (o : Port) (cut : Option (Nat × Nat)) : List (Nat × Nat) :=
  (List.range (s.inputs o)).flatMap (fun i =>
    (List.range 16).filterMap (fun v => if cut ≠ some (i, v) ∧ s.requests o i v = true then some (i, v) else none))

/-- The winner of a phase among requesters: class, then level, then rotation (R166, R167). -/
def State.winner (s : State) (o : Port) (rs : List (Nat × Nat)) : Option (Nat × Nat) :=
  (List.range 4).findSome? (fun c =>
    let mine := rs.filter (fun r => r.2 % 4 == c)
    let top := mine.foldl (fun a r => max a (s.level o r.1 r.2)) 0
    let best := mine.filter (fun r => s.level o r.1 r.2 == top)
    ((s.port o).rot.getD c []).findSome? (fun k => best.find? (fun r => 4 * r.1 + r.2 / 4 == k)))

/-- Move a pair to the tail of its class list (R167). -/
def toTail (l : List Nat) (k : Nat) : List Nat := l.filter (fun j => j != k) ++ [k]

/-- A slot of an NI's output may have come free. -/
def State.slotFreed (s : State) (o : Port) : State := match o with
  | .ni _ n => s.moveStaged n
  | _ => s

/-- A flit has taken a slot at an output: the governor counts it for the output's region (R522). -/
def State.slotCount (s : State) (o : Port) : State :=
  let g := regionOf s.rom o
  { s with pacer := { s.pacer with flits := mset (fun _ => 0) s.pacer.flits g (mget (fun _ => 0) s.pacer.flits g + 1) } }

/-- The front flit of receive VC `v` of a link has left: its packet advances, and the credit count rises by 1 (R567). -/
def State.popRx (s : State) (c v : Nat) (isTail : Bool) : State :=
  s.updLk c (fun l => { l with
    rxv := listSet l.rxv v (fun x => { x with buf := x.buf.drop 1
                                              tx := if isTail then none else x.tx.map (fun t => { t with next := t.next + 1 }) })
    go := if isTail then listSet l.go v (fun _ => none) else l.go
    cnt := listSet l.cnt v (fun n => (n + 1) % 256) })

/-- Send the owner's next flit if it is there; the segment ends at SEGB, the hold of (o, v) at the tail (R147, R163 to
R165). A flit that leaves a router buffer returns a credit upstream (R155). -/
def State.sendOne (s : State) (o : Port) : State :=
  let x := s.port o
  match x.owner with
  | none => s
  | some (i, v, _) =>
    match (if x.loaded then s.nextFlit o i v else none) with
    | none => s
    | some (fl, _, k) =>
      let isTail := fl.ft == 2 || fl.ft == 3
      let out : Flit := match o with
        | .rtr _ _ _ => { fl with hdr := fl.hdr.map nextHop, cbad := false, dbad := false }
        | .span p _ => { fl with hdr := fl.hdr.map (fun h => { h with plane := p }), cbad := false, dbad := false }
        | .ni _ _ => fl
      let s := s.setPort o { x with
        owner := if fl.segb then none else some (i, v, k + 1)
        hold := listSet x.hold v (fun _ => if isTail then none else some i) }
      let s := match fl.hdr with
        | some h => s.trace false o v h s.rootStamp
        | none => s
      let s := (s.drive o out).slotCount o
      match o with
      | .rtr _ _ _ =>
        let ip := inPort o i
        let s := s.updPort ip (fun y => { y with vcs := listSet y.vcs v (fun c =>
          let b := c.buf.drop 1
          { c with buf := b, tx := if isTail then frontPkt b else c.tx.map (fun t => { t with next := t.next + 1 }) }) })
        s.credit ip v
      | .span _ k => s.popRx (4 * k + i) v isTail
      | .ni _ _ => s.updPort o (fun y =>
          let p : Option Slot := mget (fun _ => none) y.slots v
          let p' := if isTail then none else p.map (fun p => { p with next := p.next + 1 })
          { y with slots := mset (fun _ => none) y.slots v p' }) |>.slotFreed o

/-- Send the owner's flits that are there, up to the end of its segment, while the region is clocked (R507). -/
def State.pump (s : State) (o : Port) : State :=
  if s.clocked (regionOf s.rom o) then (List.range 4).foldl (fun a _ => a.sendOne o) s else s

/-- One arbitration phase at an output that no owner's segment holds (R163 to R169). -/
def State.phase (s : State) (o : Port) (cut : Option (Nat × Nat)) : State :=
  let x := s.port o
  if x.owner.isSome then s
  else
    let rs := s.requesters o cut
    match s.winner o rs with
    | none => s
    | some (i, v) =>
      let beaten := rs.any (fun r => decide (v % 4 < r.2 % 4) && x.hold.getD r.2 none == some r.1)
      let s := match o with
        | .rtr p r _ => if beaten then s.count (rtrB p r) F.RTR_PREEMPT_CNT_COUNT 1 else s
        | _ => s
      let s := s.setPort o { x with owner := some (i, v, 0), rot := listSet x.rot (v % 4) (fun l => toTail l (4 * i + v / 4)) }
      s.pump o

/-- An output holds an arbitration phase and grants one segment, while its region is clocked (R507). -/
def execArbPhase (o : Port) (s : State) : Host.Outcome State Fault Refusal :=
  guardUnit s (s.hasPort o) (if s.clocked (regionOf s.rom o) then s.phase o none else s)

/-- The grant-hold limit of the output's owner passes (R171, R172, R671): the grant ends, the overrun is counted and
reported, and the cut-off phase is held. -/
def State.overrun (s : State) (o : Port) : State :=
  let x := s.port o
  match x.owner with
  | none => s
  | some (i, v, _) =>
    let s := s.setPort o { x with owner := none }
    let ovr (s : State) (p : Nat) : State := if s.flag strB F.STR_PLN_CFG_OVR_FAULT then s.planeFault p 3 else s
    let s := match o with
      | .rtr p r q =>
        ovr ((((s.count (rtrB p r) F.RTR_OVERRUN_CNT_COUNT 1).wr (rtrB p r) F.RTR_ERR_STAT_OVERRUN 1).arbLog p r 0 q i v).rtrEvent
          p r 2) p
      | .ni p n =>
        ovr (((s.setBit (niB n) (if p = 0 then F.NI_PLN_ERR_ERR_A else F.NI_PLN_ERR_ERR_B) 0).count (niB n)
          F.NI_PLN_OVR_CNT_COUNT 1).alert n 16) p
      | .span _ _ => s
    s.phase o (some (i, v))

def execGrantOverrun (o : Port) (s : State) : Host.Outcome State Fault Refusal :=
  guardUnit s (s.hasPort o) (if s.clocked (regionOf s.rom o) then s.overrun o else s)

/-! ### Credits -/

/-- The number of bits set among the low `n`. -/
def popBits (v : Nat) : Nat → Nat
  | 0 => 0
  | n + 1 => b2n (bitAt v n) + popBits v n

/-- A credit vector reaches output `o`; `flip` gives the wires that an error has changed (R155, R159, R160). -/
def State.creditVec (s : State) (o : Port) (v : BitVec 16) (flip : BitVec 17) : State :=
  if (s.port o).loaded = false then s
  else if popBits flip.toNat 17 % 2 = 1 then s.creditError o 1 0
  else
    let got := (v ^^^ flip.setWidth 16).toNat
    (List.range 16).foldl (fun a c =>
      if bitAt got c = false then a
      else if s.rom.vcDepth ≤ (a.port o).cred.getD c 0 then a.creditError o 2 c
      else a.updPort o (fun x => { x with cred := listSet x.cred c (fun k => k + 1) })) s

/-- A credit vector reaches the downstream half of the crossing station on the link of output `o`: one that fails its parity check
is discarded, and the router beside that half reports it; else the upstream half sends its bits on with fresh parity (R541).
[DESIGN CHOICE: log 139] -/
def State.stCredit (s : State) (o : Port) (v : BitVec 16) (flip : BitVec 17) : State :=
  if popBits flip.toNat 17 % 2 = 0 then s.updPort o (fun x => { x with cwire := x.cwire ++ [v ^^^ flip.setWidth 16] })
  else match farEnd s.rom o with
    | some (.rtr p r q) => s.creditError (.rtr p r q) 1 0
    | _ => s.creditError o 1 0

/-- The first credit vector on the way to output `o` arrives: one that has left the link's station, or one that reaches the station.
[DESIGN CHOICE: log 139] -/
def execCreditVectorArrival (o : Port) (flip : BitVec 17) (s : State) : Host.Outcome State Fault Refusal :=
  guardUnit s (s.hasPort o)
    (match (s.port o).cwire, (s.port o).swire with
     | v :: r, _ => (s.updPort o (fun x => { x with cwire := r })).creditVec o v flip
     | [], v :: r => (s.updPort o (fun x => { x with swire := r })).stCredit o v flip
     | [], [] => s)

/-- Whether the input VCs behind port `f` hold no flit of the link that feeds them. -/
def State.inEmpty (s : State) (f : Port) : Bool :=
  let x := s.port f
  x.wire.isEmpty && x.stq.isEmpty && x.vcs.all (fun v => v.buf.isEmpty) &&
  match f with
  | .ni p n => (List.range 16).all (fun v => (s.ni n).vcHeld p v == 0)
  | _ => true

/-- An output's counters load VC_DEPTH once it and its far end have left reset and the far end is ready, which it is while
its input VCs are empty (R154). Credits that came before are ignored. [DESIGN CHOICE: log 54] -/
def State.creditLoad (s : State) (o : Port) : State :=
  match farEnd s.rom o with
  | none => s
  | some f =>
    if (s.port o).dead || (s.port f).dead || (s.rg (regionOf s.rom o)).held || (s.rg (regionOf s.rom f)).held
        || (s.port o).loaded || !s.inEmpty f then s
    else s.updPort o (fun x => { x with loaded := true, cwire := [], swire := [], cred := List.replicate 16 s.rom.vcDepth })

/-! ### Flits at routers -/

/-- The reason for which a router drops a packet at its head flit, none where it does not (R140). -/
def dropReason (rom : Rom) (r i : Nat) (h : Hdr) (err : FlitErr) : Option Nat :=
  if err.head then some 0
  else if (rtrRec rom r).radix ≤ h.la ∨ farKind rom r h.la = 0 then some 1
  else if rom.turn r i h.la = false then some 2
  else if h.hop = 15 ∧ farKind rom r h.la = 1 then some 3
  else none

/-- Count, report and log a dropped packet (R142). -/
def State.routeDrop (s : State) (p r i vc reason : Nat) (h : Hdr) : State :=
  let b := rtrB p r
  let s := s.count b F.RTR_RTE_DROP_CNT_COUNT 1
  let s := if s.flag b F.RTR_RTE_LOG_VALID then s else
    ((((((((s.wr b F.RTR_RTE_LOG_REASON reason).wr b F.RTR_RTE_LOG_IN_PORT i).wr b F.RTR_RTE_LOG_VC vc).wr b F.RTR_RTE_LOG_HOP
      h.hop).wr b F.RTR_RTE_LOG_LA h.la).wr b F.RTR_RTE_LOG_UNCHK (b2n h.unchk)).wr b F.RTR_RTE_LOG_SRC_SRC h.src).wr b
      F.RTR_RTE_LOG_DEST_DEST h.dest).wr b F.RTR_RTE_LOG_VALID 1
  s.rtrEvent p r 0

/-- The tail flit that completes a packet downstream (R141, R547). -/
def poisonTail (vc fnum : Nat) : Flit := { vc := vc, ft := 2, segb := true, poison := true, fnum := fnum }

/-- An input VC changed. -/
def State.updVc (s : State) (o : Port) (v : Nat) (f : VcSt → VcSt) : State :=
  s.updPort o (fun x => { x with vcs := listSet x.vcs v f })

/-- Buffer a flit, then forward it where its packet's VC owns an output (R151). -/
def State.buffer (s : State) (p r i : Nat) (fl : Flit) (rx : Option RxPkt) : State :=
  let o := Port.rtr p r i
  let s := s.updVc o fl.vc (fun c =>
    let b := c.buf ++ [fl]
    { c with buf := b, rx := rx, tx := if c.tx.isSome then c.tx else frontPkt b })
  match (s.port o).vcs[fl.vc]? with
  | none => s
  | some c => match c.tx with
    | none => s
    | some t =>
      let out := Port.rtr p r t.hdr.la
      match (s.port out).owner with
      | some (j, v, _) => if j = i ∧ v = fl.vc then s.pump out else s
      | none => s

/-- A flit that a router takes and discards: its credit goes back (R141, R547). -/
def State.take (s : State) (p r i vc : Nat) (rx : Option RxPkt) : State :=
  (s.updVc (.rtr p r i) vc (fun c => { c with rx := rx })).credit (.rtr p r i) vc

/-- A body flit whose CECC fails (R141): a packet of which nothing has left is removed; one that has begun to leave is
completed with a poisoned tail. -/
def State.bodyDrop (s : State) (p r i : Nat) (fl : Flit) (x : RxPkt) : State :=
  let o := Port.rtr p r i
  let s := s.routeDrop p r i fl.vc 0 x.hdr
  let rest : Option RxPkt := if x.left ≤ 1 then none else some { x with drop := true, left := x.left - 1 }
  match (s.port o).vcs[fl.vc]? with
  | none => s
  | some c =>
    let tailPart := (c.buf.reverse.takeWhile (fun f => f.hdr.isNone)).length
    if c.buf.length = tailPart then
      (s.buffer p r i (poisonTail fl.vc fl.fnum) rest)
    else
      let gone := tailPart + 1
      let keep := c.buf.take (c.buf.length - gone)
      let s := s.updVc o fl.vc (fun c => { c with buf := keep, tx := if keep.isEmpty then none else c.tx })
      ((List.range gone).foldl (fun a _ => a.credit o fl.vc) s).take p r i fl.vc rest

/-- A head flit whose checks fail has made its request in the same cycle (R151, R153): where it would win the phase of an idle
output, its grant stays unused, its pair moves to the tail of its list, and the output holds a new phase without it.
[DESIGN CHOICE: log 13] -/
def State.unusedGrant (s : State) (p r i v : Nat) (h : Hdr) : State :=
  let o := Port.rtr p r h.la
  let x := s.port o
  let front := match (s.port (.rtr p r i)).vcs[v]? with
    | some c => c.buf.isEmpty && c.tx.isNone
    | none => false
  if front && decide (h.la < (rtrRec s.rom r).radix) && x.owner.isNone && x.loaded && (x.hold.getD v none).all (fun j => j == i)
      && decide (segLen (hdrFlits h) 0 ≤ x.cred.getD v 0) then
    let rs := s.requesters o none ++ [(i, v)]
    if s.winner o rs = some (i, v) then
      let beaten := rs.any (fun k => decide (v % 4 < k.2 % 4) && x.hold.getD k.2 none == some k.1)
      let s := if beaten then s.count (rtrB p r) F.RTR_PREEMPT_CNT_COUNT 1 else s
      (s.updPort o (fun x => { x with rot := listSet x.rot (v % 4) (fun l => toTail l (4 * i + v / 4)) })).phase o none
    else s
  else s

/-- What follows flit `fl` of an arriving packet: a dropped packet ends by its count (R141), another by its count or at a tail,
which an upstream router may have sent early (R141, R547). [DESIGN CHOICE: log 54] -/
def RxPkt.after (q : RxPkt) (fl : Flit) : Option RxPkt :=
  if q.left ≤ 1 ∨ (q.drop = false ∧ fl.ft = 2) then none else some { q with left := q.left - 1 }

/-- One flit reaches input port `i` of router `r` on plane `p`: its five codes are checked, corrected and counted (R107), then come
FAULT and overflow (R161) and the rules of R140, R141, R151, R153 and R547. An uncorrectable data code 0 of a body flit, for which
they give no action, poisons the flit like codes 1 to 3. [DESIGN CHOICE: log 54] -/
def State.routerFlit (s : State) (p r i : Nat) (fl0 : Flit) (e : FlitErr) : State :=
  let o := Port.rtr p r i
  let x := s.port o
  if x.fault then s
  else
    let err := fl0.found e
    let s := (s.correcteds o err.corrs).count (rtrB p r) F.RTR_ECC_CNT_UNCORR err.bads
    match x.vcs[fl0.vc]? with
    | none => s
    | some c =>
      if s.rom.vcDepth ≤ c.buf.length then
        (s.updPort o (fun y => { y with fault := true })).creditError o 3 fl0.vc
      else
        let fl : Flit := { fl0 with
          poison := fl0.poison || err.dn || (err.d0 == .bad && fl0.hdr.isNone), cbad := false, dbad := false }
        match c.rx with
        | some q =>
          if q.drop then s.take p r i fl.vc (q.after fl)
          else if err.c = .bad then s.bodyDrop p r i fl q
          else s.buffer p r i fl (q.after fl)
        | none =>
          match fl.hdr with
          | none => s.take p r i fl.vc none
          | some h =>
            let f := hdrFlits h
            match dropReason s.rom r i h err with
            | some k =>
              ((s.unusedGrant p r i fl.vc h).routeDrop p r i fl.vc k h).take p r i fl.vc
                (if f ≤ 1 then none else some { drop := true, left := f - 1, hdr := h })
            | none => s.buffer p r i fl (if f ≤ 1 then none else some { drop := false, left := f - 1, hdr := h })

/-- The first flit on the wires of a router's input port arrives. [DESIGN CHOICE: log 13] -/
def execRouterFlitArrival (plane r p : Nat) (e : FlitErr) (s : State) : Host.Outcome State Fault Refusal :=
  guardUnit s (s.hasPort (.rtr plane r p))
    (let o := Port.rtr plane r p
     match (s.port o).wire with
     | [] => s
     | fl :: t =>
       let s := s.updPort o (fun y => { y with wire := t })
       if (s.port o).dead then s else s.routerFlit plane r p fl e)

/-! ### Crossing stations -/

/-- Whether the downstream side of the station at input port `o` runs faster than the upstream side (R176). -/
def State.stFast (s : State) (o : Port) : Bool :=
  match farEnd s.rom o with
  | none => false
  | some f => decide (s.mhz (regionOf s.rom f) < s.mhz (regionOf s.rom o))

/-- Whether the station feeding `o` may start the next segment of VC `v`: a flit is held, and all of the segment's where
the downstream side is faster (R539). -/
def State.stReady (s : State) (o : Port) (v : Nat) : Bool :=
  let q := stVc (s.port o).stq v
  !q.isEmpty && (!s.stFast o || q.any (fun f => f.segb))

/-- The VC whose segment the station at `o` sends next: the one in progress, or the first by class and rotation (R539). -/
def State.stNext (s : State) (o : Port) : Option Nat :=
  let x := s.port o
  match x.stSeg with
  | some v => some v
  | none => (List.range 4).findSome? (fun c => (x.stRot.getD c []).findSome? (fun k =>
      if s.stReady o (4 * k + c) then some (4 * k + c) else none))

/-- A crossing station passes one flit to its downstream side, its codes checked and corrected; one whose CECC or data code 0
fails goes on unchanged (R107, R539, R542). -/
def State.stPass (s : State) (o : Port) (v : Nat) (e : FlitErr) : State :=
  let x := s.port o
  if x.stStop || (s.rg (regionOf s.rom o)).held || !s.clocked (regionOf s.rom o) || s.stNext o != some v then s
  else match x.stq.find? (fun f => f.vc == v) with
    | none => s
    | some fl =>
      let err := fl.found e
      let fl' : Flit := { fl with poison := fl.poison || err.dn, cbad := err.c == .bad, dbad := err.d0 == .bad }
      (s.setPort o { x with
        stq := x.stq.erase fl, wire := x.wire ++ [fl']
        stSeg := if fl.segb then none else some v
        stRot := if x.stSeg.isNone then listSet x.stRot (v % 4) (fun l => toTail l (v / 4)) else x.stRot }).correcteds o err.corrs

def execXingFlit (o : Port) (vc : Nat) (e : FlitErr) (s : State) : Host.Outcome State Fault Refusal :=
  guardUnit s (s.hasPort o && hasXing s.rom o && decide (vc < 16)) (s.stPass o vc e)

/-- Whether the instance follows the forerunner's crossing rules (R549, R552). -/
def State.g2 (s : State) : Bool := s.straps.g2 || s.flag glbB F.GLB_COMPAT_G2

/-- The flits that the station holds from output `o` toward its far side are discarded and their credits returned. -/
def State.stDiscard (s : State) (o : Port) : State :=
  match farEnd s.rom o with
  | none => s
  | some f =>
    let q := (s.port f).stq
    let s := s.updPort f (fun y => { y with stq := [], stSeg := none })
    s.updPort o (fun x => { x with cwire := x.cwire ++ q.map (fun fl => BitVec.ofNat 16 (2 ^ fl.vc)) })

/-- Whether the half of a station beside a port of region `g` may isolate from a half in region `f` that it finds not alive: its
own half is supplied and not under reset, and the far half is not under the joint reset of R549 nor without supply by a Pacer
transition, of which R550 names the others (R550). That the far half is not alive is what the command says. -/
def State.isoFree (s : State) (g f : Nat) : Bool :=
  let down (h : Nat) : Bool := [2, 3, 4].contains (s.rd pcrB (F.PCR_RG_STAT_STATE.ix h))
  !(s.rg g).held && !down g && !(s.rg f).held && !down f

/-- The station half beside `o` isolates from its dead far half (R550): flits toward the dead side are discarded with
their credits returned, the port and its event show it, and ISOLATE names the dead region (R551). -/
def State.isolate (s : State) (o : Port) : State :=
  match farEnd s.rom o with
  | none => s
  | some f =>
    if s.g2 || (s.port o).stIso || (s.port o).dead || !s.isoFree (regionOf s.rom o) (regionOf s.rom f) then s
    else
      let s := (s.stDiscard o).updPort o (fun x => { x with stIso := true })
      let s := s.setBit glbB F.GLB_RECOV_ISO (regionOf s.rom f)
      let mark (s : State) (p r q : Nat) : State :=
        (((s.setBit (rtrB p r) F.RTR_XING_STAT_ISO q).setBit (rtrB p r) F.RTR_XING_EVT_ISO_SEEN q).count (rtrB p r)
          F.RTR_XING_CNT_COUNT 1).rtrEvent p r 3
      match o, f with
      | .rtr p r q, _ => mark s p r q
      | _, .rtr p r q => mark s p r q
      | _, _ => s

def execXingIsolate (o : Port) (s : State) : Host.Outcome State Fault Refusal :=
  guardUnit s (s.hasPort o && hasXing s.rom o) (s.isolate o)

/-- In forerunner mode the half beside `o` flushes silently (R552). -/
def execXingFlush (o : Port) (s : State) : Host.Outcome State Fault Refusal :=
  guardUnit s (s.hasPort o && hasXing s.rom o) (if s.g2 then s.stDiscard o else s)

/-- One request whose path crosses a newly isolated region, of mask `new`: its outstanding parts on such entries, or all of it,
end with CROSS_RESET (R551). -/
def State.isoTag (s : State) (n new t : Nat) : State :=
  match (s.ni n).tag t with
  | none => s
  | some g =>
    if g.regmask &&& new = 0 ∨ g.parts.all (fun p => p.pieces.isEmpty) = true then s
    else if g.split then
      let gone (h : Tag) (k : Nat) : Tag :=
        { h.piece k 0x0A with parts := listSet (h.piece k 0x0A).parts k (fun p => { p with pieces := [] }) }
      let lost := (g.parts.zipIdx.filter (fun e => !e.1.pieces.isEmpty && (s.entry n e.1.ni).regmask &&& new != 0)).map (fun e => e.2)
      let s := if g.sb ∧ lost.isEmpty = false then s.sbFail n g 0x0A 1 else s
      s.updNi n (fun y => (y.setTag t (some (lost.foldl gone g))).splitDone t)
    else
      let s := if g.sb then s.sbFail n g 0x0A 1 else s
      s.updNi n (fun y => (y.setTag t (some { g with parts := g.parts.map (fun p => { p with pieces := [] }) })).finish t 0x0A 0)

/-- ISOLATE reaches the NI: it answers, and frees the tags of, the requests whose route entry crosses a region newly isolated
(R551). [DEDUCED: log 30] -/
def State.isoReceive (s : State) (n : Nat) : State :=
  let x := s.ni n
  let new := s.rd glbB F.GLB_RECOV_ISO &&& (2 ^ 16 - 1 - x.iso % 2 ^ 16)
  x.tags.foldl (fun a e => a.isoTag n new e.1) (s.setNi n { x with iso := x.iso ||| new })

def execIsolateReceive (n : Nat) (s : State) : Host.Outcome State Fault Refusal :=
  guardUnit s (s.hears n) (s.isoReceive n)

end Sys2Proof.Machine
end

