-- ==== Sys2Proof/Machine/Release.lean ====
section
/-! DEFINITION. Release into the planes (R123 to R125, R194, R195, R204, R209, R230, R231, R251 to R264, R268, R272, R394,
R396, R397, R513, R551, R576, R670): which packet each class decides on, what its release charges, and how SC0 leaves. -/

namespace Sys2Proof.Machine

/-! ### Ordering (R194, R195, R202, R204, R205) -/

/-- Whether the ordering unit lets a queued packet go: no unanswered barrier ahead of it; no earlier request of the same ID and
destination waiting; the buffered stores that it overlapped when it came released, and completed where their class is another
(R195); for a device region every buffered store and earlier device access released, and an earlier device access completed that
is of another class or goes to any other node than this packet does (R191, R193). [DESIGN CHOICE: log 122] -/
def NiSt.ordOk (x : NiSt) (p : Qp) : Bool :=
  !x.bars.any (fun b => decide (b.ser < p.ser)) &&
  (p.isReq == false ||
    match x.tag p.tag with
    | none => true
    | some g =>
      let ahead := x.waiting.filter (fun q => q.isReq && decide (q.ser < p.ser))
      !ahead.any (fun q => match x.tag q.tag with
        | some h => h.id == g.id && h.dkey == g.dkey && h.evd == g.evd
        | none => false)
      && !ahead.any (fun q => (q.sb && (p.dev || p.after.contains q.ser)) || (q.dev && p.dev))
      && !x.tags.any (fun e => match e.2 with
        | some h => (p.after.contains h.ser && h.sc != g.sc)
            || (p.dev && h.dev && decide (h.ser < g.ser) && (h.sc != g.sc || !h.parts.all (fun r => r.node == p.dest)))
        | none => false))

/-! ### Planes (R396, R397, R576) -/



/-- The usable planes of NI `n`. -/
def State.planes (s : State) (n : Nat) : List Nat := [0, 1].filter (fun p => s.usable n p)

/-- The planes that an SC0 packet on entry `e` takes: every usable one, or one on a Span entry (R396, R576). -/
def State.sc0Planes (s : State) (n e : Nat) : List Nat := if 256 ≤ e then (s.planes n).take 1 else s.planes n

/-- The plane that a packet of SC1 to SC3 takes on entry `e`, and whether the policy alternates (R122, R397, R576). -/
def State.planeFor (s : State) (n e sc vc : Nat) : Option Nat :=
  let want :=
    if 256 ≤ e then 0
    else match (s.entry n e).pol with
      | 0 => if mget (fun _ => false) (s.ni n).alt (e * 4 + sc) then 1 else 0
      | 1 => 0
      | 2 => 1
      | _ => if (s.port (.ni 0 n)).cred.getD vc 0 < (s.port (.ni 1 n)).cred.getD vc 0 then 1 else 0
  if s.usable n want then some want else if s.usable n (1 - want) then some (1 - want) else none

/-- Whether the staging slot of a VC is free (R255). -/
def State.slotFree (s : State) (n p vc : Nat) : Bool :=
  (mget (fun _ => none) (s.port (.ni p n)).slots vc : Option Slot).isNone

/-! ### What a packet is at release -/

/-- The verdict on the packet at the head of a queue: it waits, it waits for a closed region (R513), it goes, it loops
back (R125), it is refused with a status (R124, R513, R551), or it is discarded (R513, R670). -/
inductive Verdict where
  | wait
  | hold
  | go
  | loop
  | refuse (st : Nat)
  | drop
  deriving DecidableEq, Repr

/-- The regions of a mask that NI `n` sees closed, its own apart (R509, R513). -/
def State.closedIn (s : State) (n mask : Nat) : Nat :=
  mask &&& (2 ^ 16 - 1 - s.rd (niB n) F.NI_PWR_MASK_OPEN) &&& (2 ^ 16 - 1 - 2 ^ (niRec s.rom n).region)

/-- Whether a mask names a region in SLEEP or deeper (R513). -/
def State.asleepIn (s : State) (mask : Nat) : Bool :=
  (List.range 16).any (fun g => bitAt mask g && [2, 3, 4].contains (s.rd pcrB (F.PCR_RG_STAT_STATE.ix g)))

/-- Resources of a class: staging slot and plane, shaper credit, allowance; for SC0 that none is selected (R255, R256, R259, R268,
R272). -/
def State.fits (s : State) (n q : Nat) (p : Qp) : Bool :=
  let x := s.ni n
  let vc := 4 * p.vn + p.sc
  let slot := match s.planeFor n p.e p.sc vc with
    | some pl => s.slotFree n pl vc
    | none => false
  match p.sc with
  | 0 => x.sc0Sel.isNone
  | 1 => slot && decide (0 ≤ (x.shaper (x.q q).shaper).credit)
  | 2 => slot && (s.rd (niB n) F.NI_THR_STAT_A2 == 0xFFFF || decide (0 < x.rem2))
  | _ => slot && (s.rd (niB n) F.NI_THR_STAT_A3 == 0xFFFF || decide (0 < x.rem3))

/-- The checks of a packet from an injection queue at its release (R123 to R125, R512, R513, R551). `mem` says that the read
of its route entry met an uncorrectable memory error (R593). -/
def State.verdict (s : State) (n q : Nat) (p : Qp) (t : Stamp) (mem : Bool) : Verdict :=
  if p.ready = false ∨ (s.ni n).ordOk p = false then .wait
  else if p.e = n then .loop
  else
    let x := s.entry n p.e
    let closed := s.closedIn n x.regmask
    let pol := if p.sc = 0 then 0 else (s.ni n).pol.getD (p.sc - 1) 0
    if x.usable = false ∨ mem = true then .refuse 0x0D
    else if p.sc = 0 ∧ (x.rep = false ∨ x.unchk = true) then .refuse 0x06
    else if (p.vn = 0 ∨ p.vn = 2 ∨ p.isReq = true) ∧ x.regmask &&& (s.ni n).iso ≠ 0 then .refuse 0x0A
    else if (p.vn = 0 ∨ p.vn = 2) ∧ closed ≠ 0 then
      if closed &&& pol ≠ 0 then .refuse 0x07 else .hold
    else if p.vn ≠ 0 ∧ p.vn ≠ 2 ∧ s.asleepIn x.regmask = true then .drop
    else if p.sc = 0 ∧ s.spacingMet n p.e (p.kept p.e) t = false then .wait
    else if s.fits n q p then .go else .wait

/-! ### Multicast (R129, R130) -/

/-- The copies of a multicast as its group's map stands now, but for the members refused at admission.
[DESIGN CHOICE: log 21] -/
def State.expand (s : State) (n : Nat) (p : Qp) : List Qp :=
  match p.grp with
  | none => [p]
  | some g =>
    if s.groupOk n g = false then []
    else
      let m := s.members n g
      let l := (m.zipIdx.filter (fun e => !p.skip.any (fun k => k.1 == e.1))).map (fun e =>
        { p with e := e.1, dest := s.nodeId e.1, mc := decide (2 ≤ m.length), part := e.2, grp := none, occ := 0, skip := [] })
      listSet l (l.length - 1) (fun q => { q with occ := p.occ })

/-- The tag of a multicast request as its copies are about to be released: one part per member. -/
def State.expandTag (s : State) (n : Nat) (p : Qp) (copies : List Qp) : State :=
  match p.grp with
  | none => s
  | some g =>
    if p.isReq = false then s
    else s.updNi n (fun x => match x.tag p.tag with
      | none => x
      | some h =>
        let m := s.members n g
        x.setTag p.tag (some { h with
          split := decide (2 ≤ m.length), nqueued := copies.length
          parts := m.map (fun i => { ni := i, node := s.nodeId i, all := [(0, p.len)]
                                     status := ((p.skip.find? (fun k => k.1 == i)).map (fun k => k.2)).getD 0 }) }))

/-! ### Headers and charges -/

/-- The header that the source NI writes (R108, R110, R124). -/
def State.header (s : State) (n : Nat) (p : Qp) (pl : Nat) (rep : Bool) (seq : Nat) (t : Stamp) : Hdr :=
  let x := s.entry n p.e
  { ptype := p.ptype, op := p.op, hop := 0, la := pathField x.path 0, plane := pl, rep := rep, ovalid := p.ovalid
    unchk := x.unchk, mc := p.mc, len := p.len, slice := p.slice, tag := p.tag, gen := p.gen, src := s.nodeId n
    dest := p.dest, seq := seq, bound := x.bound, istamp := t, path := x.path, addr := p.addr, ostamp := p.ostamp }

/-- The next SEQ of an entry and VC, and the NI whose counter has advanced (R394). -/
def NiSt.nextSeq (x : NiSt) (e vc : Nat) : Nat × NiSt :=
  let k := e * 16 + vc
  let v := mget (fun _ => 0) x.seqs k
  (v, { x with seqs := mset (fun _ => 0) x.seqs k ((v + 1) % 65536) })

/-- The counted length of a packet (R258). -/
def State.counted (s : State) (n : Nat) (p : Qp) : Nat :=
  max (payloadLen p.ptype p.op p.len) 64 + s.rd (niB n) F.NI_SCHED_CFG_OVH

/-- Grains of a counted length (R258). -/
def grains (l : Nat) : Nat := cdiv l 64

/-- Lower the remainder of SC2 or SC3 (R272). -/
def NiSt.charge (x : NiSt) (sc g : Nat) : NiSt :=
  if sc = 2 then { x with rem2 := max (x.rem2 - g) (-161) }
  else if sc = 3 then { x with rem3 := max (x.rem3 - g) (-161) } else x

/-- A request's packet enters the fabric: its completion timeout starts, and its entry's regions are remembered (R209,
R551). -/
def NiSt.launch (x : NiSt) (p : Qp) (regmask : Nat) : NiSt :=
  if p.isReq = false then x
  else match x.tag p.tag with
    | none => x
    | some g => x.setTag p.tag (some { g with
        nqueued := g.nqueued - 1, regmask := g.regmask ||| regmask
        parts := listSet g.parts p.part (fun r => { r with pieces := r.pieces ++ [(p.off, p.len)] }) })

/-- Copies and pieces of one request share the first one's ISTAMP (R129, R188). -/
def NiSt.shareStamp (x : NiSt) (p : Qp) (t : Stamp) : NiSt :=
  if p.mc then
    { x with qs := x.qs.map (fun e => (e.1, { e.2 with pkts := e.2.pkts.map (fun q =>
        if q.ser = p.ser ∧ q.istamp.isNone = true then { q with istamp := some t } else q) })) }
  else x

/-- Put a packet in the staging slot of a plane and VC (R255). -/
def State.stage (s : State) (n pl vc : Nat) (h : Hdr) (p : Qp) : State :=
  s.updPort (.ni pl n) (fun y =>
    let v : Option Slot := some { hdr := h, vc := vc, payload := p.payload, f := p.f, isReq := p.isReq
                                  probe := p.probe.isSome }
    { y with slots := mset (fun _ => none) y.slots vc v })

/-- Release a packet of SC1 to SC3 to a plane's staging slot: SEQ, header, remainder and alternation (R255, R272, R397). -/
def State.toSlot (s : State) (n : Nat) (p : Qp) (pl : Nat) (t : Stamp) : State :=
  let vc := 4 * p.vn + p.sc
  let st := p.istamp.getD t
  let (seq, x) := (s.ni n).nextSeq p.e vc
  let x := x.charge p.sc (grains (s.counted n p))
  let k := p.e * 4 + p.sc
  let x := if p.e < 256 ∧ (s.entry n p.e).pol = 0 then
      { x with alt := mset (fun _ => false) x.alt k (!(mget (fun _ => false) x.alt k)) } else x
  let h := s.header n p pl false seq st
  let x := (x.launch p (s.entry n p.e).regmask).shareStamp p st
  (s.setNi n x).stage n pl vc h p

/-- Deliver a looped packet: ISTAMP is captured, and it takes no plane, no SEQ and no charge (R125).
[DESIGN CHOICE: log 25] -/
def State.loopBack (s : State) (n : Nat) (p : Qp) (t : Stamp) : State :=
  let st := p.istamp.getD t
  let vc := 4 * p.vn + p.sc
  let h : Hdr := { s.header n { p with e := 260 } 0 false 0 st with path := 0, la := 0, bound := 0, unchk := false }
  let x := ((s.ni n).launch p 0).shareStamp p st
  let (k, x) := x.fresh
  let s := s.setNi n (x.setPk k (some { hdr := h, plane := 0, vc := vc, got := p.payload }))
  s.accept n k

/-! ### Queue service (R254, R260, R262) -/

/-- Take the head packet out of queue `q`: at its release an empty queue leaves its list and loses its deficit (R261), and
a drained store buffer takes writes again (R202). `rest` are the copies of a multicast still to go. -/
def NiSt.popQ (x : NiSt) (q : Nat) (rest : List Qp) : NiSt :=
  let v := x.q q
  let pk := rest ++ v.pkts.drop 1
  let y := x.setQ q { v with pkts := pk, vt := if pk.isEmpty && v.vt != 0 && x.act.any (fun l => l.contains q) then 0 else v.vt }
  let y := if pk.isEmpty then { y with act := y.act.map (fun l => l.filter (fun j => j != q)) } else y
  if y.sbHeld.isEmpty then { y with sbDrain := false } else y

/-- Select the head packet of queue `q` (R256): its copies take its place, and it stays at the head until its release (R253). -/
def NiSt.select (x : NiSt) (q : Nat) (copies : List Qp) (now : Nat) : NiSt :=
  let v := x.q q
  { x.setQ q { v with pkts := copies ++ v.pkts.drop 1 } with sc0Sel := some { since := now, q := some q } }

/-- Apply a queue's pending share at its refill (R264). -/
def Queue.refill (v : Queue) : Queue := match v.pend with
  | some (qn, d) => { v with quantum := qn, depth := d, pend := none }
  | none => v

/-- QUANTUM in force, 0 acting as 1. -/
def Queue.qn (v : Queue) : Nat := if v.quantum = 0 then 1 else v.quantum

/-- What leaves when the head packet of queue `q` is released: its copies, the first of which goes now. -/
def State.headCopies (s : State) (n q : Nat) : List Qp := match ((s.ni n).q q).pkts with
  | [] => []
  | p :: _ => s.expand n p

/-- The verdict on queue `q` (R259). A multicast whose group is no longer usable is refused; a queue whose head is selected waits
for its release (R256). -/
def State.qVerdict (s : State) (n q : Nat) (t : Stamp) (mem : Bool) : Verdict :=
  match if (s.ni n).sc0Sel.any (fun v => v.q == some q) then [] else ((s.ni n).q q).pkts with
  | [] => .wait
  | p :: _ =>
    match s.expand n p with
    | [] => if p.ready && (s.ni n).ordOk p then .refuse 0x0D else .wait
    | c :: _ => s.verdict n q c t mem

/-- Whether a verdict lets the head packet leave. -/
def Verdict.leaves : Verdict → Bool
  | .wait => false
  | .hold => false
  | _ => true

/-- The head packet of queue `q` leaves with its verdict: into a slot, through the loop, or out with a refusal; of SC0 it is
selected and stays at the head (R256). -/
def State.depart (s : State) (n q : Nat) (t : Stamp) (mem : Bool) (v : Verdict) : State :=
  match ((s.ni n).q q).pkts with
  | [] => s
  | p :: _ =>
    let copies := s.expand n p
    let c := copies.headD p
    let s := if v = .refuse 0x0D ∧ mem = true then s.memUncorr n else s
    let s := s.expandTag n p copies
    let s := s.updNi n (fun x => if v = .go ∧ c.sc = 0 then x.select q copies s.clock else x.popQ q (copies.drop 1))
    match v with
    | .refuse st =>
      let s := if st = 0x07 then s.wr (niB n) F.NI_PWR_STAT_REFUSED 1 else s
      if copies.isEmpty then (s.updNi n (fun x => match x.tag c.tag with
          | some g => if c.isReq then x.setTag c.tag (some { g with split := false, nqueued := 1 }) else x
          | none => x)).refuse n c st
      else s.refuse n c st
    | .drop => (s.updNi n (fun x => x.launch c 0)).count (niB n) F.NI_PWR_DROP_CNT_COUNT 1
    | .loop => s.loopBack n c t
    | .go =>
      if c.sc = 0 then s
      else
        let s := if c.sc = 1 then s.updNi n (fun x =>
            let k := (x.q q).shaper
            let h := x.shaper k
            x.setShaper k { h with credit := h.credit - 8 * (s.counted n c : Int) }) else s
        match s.planeFor n c.e c.sc (4 * c.vn + c.sc) with
        | some pl => s.toSlot n c pl t
        | none => s
    | _ => s

/-- The counted length of what leaves when the head of queue `q` is released. -/
def State.headLen (s : State) (n q : Nat) : Nat :=
  s.counted n ((s.headCopies n q).headD (((s.ni n).q q).pkts.headD default))

/-- Queue `q` pays for the release of `ll` counted bytes: with its deficit (R260), or with a step of its start tag, which becomes
the class's virtual time (R262, R264). -/
def State.payQ (s : State) (n q ll : Nat) : State :=
  s.updNi n (fun x =>
    let k := x.q q
    if bigSched s.rom n then
      let k := k.refill
      let y := x.setQ q { k with vt := (k.vt + cdiv (4 * ll) k.qn) % 2 ^ 32 }
      { y with vtime := listSet y.vtime k.cls (fun _ => k.vt) }
    else x.setQ q { k with vt := k.vt - ll })

/-- A class's choice of queue `q` is carried out: an SC0 packet that may go is selected and pays at its release, any other packet
pays and leaves. -/
def State.serve (s : State) (n q : Nat) (t : Stamp) (mem : Bool) : State :=
  let v := s.qVerdict n q t mem
  if v = .go ∧ ((s.ni n).q q).cls = 0 then s.depart n q t mem v else (s.payQ n q (s.headLen n q)).depart n q t mem v

/-- A class decision of deficit round robin (R260): the state, and whether a packet left. -/
def State.drr (s : State) (n c : Nat) (t : Stamp) (mem : Bool) : State × Bool :=
  match ((s.ni n).act.getD c []).find? (fun q => (s.qVerdict n q t mem).leaves) with
  | none => (s, false)
  | some q =>
    let k := (s.ni n).q q
    if s.headLen n q ≤ k.vt then (s.serve n q t mem, true)
    else
      let k := k.refill
      let s := s.updNi n (fun x =>
        let y := x.setQ q { k with vt := k.vt + 64 * k.qn }
        { y with act := listSet y.act c (fun l => l.filter (fun j => j != q) ++ [q]) })
      (s, false)

/-- A class decision of virtual-time round robin (R262). -/
def State.vtr (s : State) (n c : Nat) (t : Stamp) (mem : Bool) : State × Bool :=
  let x := s.ni n
  let vv := x.vtime.getD c 0
  let cands := x.qs.filter (fun e => e.2.cls == c && !e.2.pkts.isEmpty && (s.qVerdict n e.1 t mem).leaves)
  let best := cands.foldl (fun (a : Option (Nat × Int)) e =>
    let d := tagDiff e.2.vt vv
    match a with
    | none => some (e.1, d)
    | some b => if d < b.2 then some (e.1, d) else a) none
  match best with
  | none => (s, false)
  | some (q, _) => (s.serve n q t mem, true)

/-! ### The system queue (R231, R251, R257, R513, R670) -/

/-- The SC0 packets at the front of the system queue whose entry is not SC0-fit fall back: they leave in SC1, in the FIFO of that
class (R231, R251). `fuel` bounds their number. -/
def State.fallBack (s : State) (n : Nat) : Nat → State
  | 0 => s
  | fuel + 1 =>
    let x := s.ni n
    match if x.sc0Sel.any (fun v => v.q.isNone) then none else x.sysq.find? (fun p => p.sc == 0) with
    | none => s
    | some p =>
      let e := s.entry n p.e
      if p.copyOf.isSome = true ∨ p.e = n ∨ e.usable = false ∨ e.sc0Fit = true then s
      else
        (((s.setNi n { x with sysq := x.sysq.erase p ++ [{ p with sc := 1 }] }).count (niB n) F.NI_SC0_FB_CNT_COUNT 1).wr
          (niB n) F.NI_LATE_STAT_FALLBACK 1).fallBack n fuel

/-- Whether an output lets an SC0 head take its next slot (R256); a second copy that waits for the plane goes first (R257). -/
def State.sc0Ready (s : State) (n pl : Nat) (p : Qp) : Bool :=
  let x := s.port (.ni pl n)
  let vc := 4 * p.vn
  (p.copyOf.isSome || !(s.ni n).sysq.any (fun q => q.copyOf == some pl)) && x.owner.isNone && x.loaded && (x.hold.getD vc none).isNone && s.slotFree n pl vc
    && decide (segLen p.f 0 ≤ x.cred.getD vc 0)

/-- Put an SC0 packet on a plane with the header that its one reading of the route entry gave: its head flit takes the next slot
(R123, R256). -/
def State.sc0Send (s : State) (n pl : Nat) (p : Qp) (h : Hdr) : State :=
  let vc := 4 * p.vn
  let s := s.stage n pl vc { h with plane := pl } p
  let o := Port.ni pl n
  (s.updPort o (fun x => { x with owner := some (0, vc, 0), rot := listSet x.rot 0 (fun l => toTail l p.vn) })).pump o

/-- The verdict on a system-queue packet. A held second copy goes by the one reading of its entry (R123), of which only its use is
tested again (R670). -/
def State.sysVerdict (s : State) (n : Nat) (p : Qp) (t : Stamp) (mem : Bool) : Verdict :=
  if p.e = n then .loop
  else
    let x := s.entry n p.e
    let vc := 4 * p.vn + p.sc
    if x.usable = false then .drop
    else match p.copyOf with
    | some pl => if s.sc0Ready n pl p then .go else .wait
    | none =>
      if mem then .drop
      else if s.asleepIn x.regmask then .drop
      else match p.probe with
      | some pl => if s.slotFree n pl vc then .go else .wait
      | none =>
        if p.sc = 0 then (if (s.ni n).sc0Sel.isNone && x.sc0Fit && s.spacingMet n p.e (p.kept p.e) t then .go else .wait)
        else match s.planeFor n p.e p.sc vc with
          | some pl => if s.slotFree n pl vc then .go else .wait
          | none => .wait

/-- The packet that the system queue offers in class `c`: the first of the class's FIFO (R251). A selected packet is not offered
again. -/
def NiSt.sysPick (x : NiSt) (c : Nat) : Option Qp :=
  if c = 0 ∧ x.sc0Sel.any (fun v => v.q.isNone) = true then none else x.sysq.find? (fun p => p.sc == c)

/-- A system-queue packet is discarded at its release: its entry is not usable or cannot be read (R670), or its path crosses a
sleeping region (R513). -/
def State.sysDrop (s : State) (n : Nat) (p : Qp) (mem : Bool) : State :=
  let s1 := s.updNi n (fun x => ({ x with sysq := x.sysq.erase p } : NiSt).launch p 0)
  if (s.entry n p.e).usable = false then s1.pktBad n
  else if mem then (s1.memUncorr n).pktBad n
  else s1.count (niB n) F.NI_PWR_DROP_CNT_COUNT 1

/-- The system queue's decision in class `c` (R251). -/
def State.sysTurn (s : State) (n c : Nat) (t : Stamp) (mem : Bool) : State × Bool :=
  match (s.ni n).sysPick c with
  | none => (s, false)
  | some p =>
    let s1 := s.updNi n (fun x => { x with sysq := x.sysq.erase p })
    match s.sysVerdict n p t mem with
    | .loop => (s1.loopBack n p t, true)
    | .drop => (s.sysDrop n p mem, true)
    | .go =>
      match p.probe, p.copyOf with
      | some pl, _ => (s1.toSlot n p pl t, true)
      | none, some pl => (s1.sc0Send n pl p ((p.read).getD (s.header n p pl true p.seq (p.istamp.getD t))), true)
      | none, none =>
        if p.sc = 0 then (s.updNi n (fun x => { x with sc0Sel := some { since := s.clock, q := none } }), true)
        else match s.planeFor n p.e p.sc (4 * p.vn + p.sc) with
          | some pl => (s1.toSlot n p pl t, true)
          | none => (s, false)
    | _ => (s, false)

/-- A class's decision: the system queue first, then the injection queues (R254). FREEZE holds the injection queues
(R626). -/
def State.classTurn (s : State) (n c : Nat) (t : Stamp) (mem : Bool) : State × Bool :=
  let (s1, done) := s.sysTurn n c t mem
  if done then (s1, true)
  else if s.rd dbgB F.DBG_STAT_TEST = 1 then (s, false)
  else if bigSched s.rom n then s.vtr n c t mem else s.drr n c t mem

/-- Whether the head of a queue of SC2 or SC3 is held by its allowance alone (R273). -/
def State.thrHolds (s : State) (n q : Nat) (t : Stamp) (mem : Bool) : Bool :=
  decide (2 ≤ ((s.ni n).q q).cls) && s.qVerdict n q t mem == .wait
    && (s.updNi n (fun x => { x with rem2 := 1, rem3 := 1 })).qVerdict n q t mem == .go

/-- Note when a hold for a closed region begins (R513), and whether an allowance holds a packet (R273). -/
def State.noteHolds (s : State) (n : Nat) (t : Stamp) (mem : Bool) : State :=
  let thr := (s.ni n).qs.any (fun e => s.thrHolds n e.1 t mem)
  let s1 := (s.ni n).qs.foldl (fun a e =>
    match e.2.pkts with
    | [] => a
    | p :: r =>
      let held := s.qVerdict n e.1 t mem = .hold
      let h := if held then (if p.hold.isSome then p.hold else some s.clock) else none
      if h = p.hold then a else a.updNi n (fun x => x.setQ e.1 { x.q e.1 with pkts := { p with hold := h } :: r })) s
  if thr then s1.updNi n (fun x => { x with thrHeld := true }) else s1

/-- One release cycle: the highest class whose decision is a release releases one packet (R254). [DESIGN CHOICE: log 24] -/
def State.release (s : State) (n : Nat) (t : Stamp) (mem : Bool) : State :=
  let s := (s.updNi n (fun x => x.admitSys x.sysPend)).noteHolds n t mem
  let s := s.fallBack n (s.ni n).sysq.length
  ((List.range 4).foldl (fun (a : State × Bool) c => if a.2 then a else a.1.classTurn n c t mem) (s, false)).1

/-- An NI's release cycle at local time `t`. An NI whose region stands still, or that a reset covers, releases nothing.
[DESIGN CHOICE: log 110] -/
def execPacketRelease (n : Nat) (t : Stamp) (mem : Bool) (s : State) : Host.Outcome State Fault Refusal :=
  guardUnit s (s.hasNi n) (if ((s.port (.ni 0 n)).dead && (s.port (.ni 1 n)).dead) || !s.niClocked n then s else s.release n t mem)

/-! ### SC0 (R256, R257) -/

/-- The selected SC0 packet. -/
def NiSt.selPk (x : NiSt) : Option Qp := match x.sc0Sel with
  | none => none
  | some v => match v.q with
    | some q => (x.q q).pkts.head?
    | none => x.sysq.find? (fun p => p.sc == 0 && p.copyOf.isNone)

/-- The selected packet leaves its queue, which pays for it. -/
def State.unselect (s : State) (n : Nat) (p : Qp) : State :=
  let s1 := s.updNi n (fun x => { x with sc0Sel := none })
  match (s.ni n).sc0Sel.bind (fun v => v.q) with
  | some q => (s1.payQ n q (s1.headLen n q)).updNi n (fun x => x.popQ q [])
  | none => s1.updNi n (fun x => { x with sysq := x.sysq.erase p })

/-- Release the selected SC0 packet `p` on planes `pls`, holding back a second copy for plane `late`. Its route entry is read
here, once for every copy (R123). -/
def State.sc0Go (s : State) (n : Nat) (p : Qp) (pls : List Nat) (late : Option Nat) (t : Stamp) : State :=
  let s := s.unselect n p
  let vc := 4 * p.vn
  let st := p.istamp.getD t
  let (seq, x) := (s.ni n).nextSeq p.e vc
  let h := s.header n p 0 (pls.length == 2 || late.isSome) seq st
  let x := { x with sc0Last := mset (fun _ => none) x.sc0Last p.e (some st) }
  let x := (x.launch p (s.entry n p.e).regmask).shareStamp p st
  let x := match late with
    | some pl => { x with sysq := x.sysq ++ [{ p with copyOf := some pl, seq := seq, istamp := some st, isReq := false
                                                      read := some { h with plane := pl } }] }
    | none => x
  pls.foldl (fun a pl => a.sc0Send n pl p h) (s.setNi n x)

/-- What the selected packet's route entry says now, the selection itself set aside (R123, R124, R513, R551, R670). -/
def State.selVerdict (s : State) (n : Nat) (p : Qp) (t : Stamp) : Verdict :=
  let s0 := s.updNi n (fun x => { x with sc0Sel := none })
  match (s.ni n).sc0Sel.bind (fun v => v.q) with
  | some q => s0.qVerdict n q t false
  | none => s0.sysVerdict n p t false

/-- The moment of the selected SC0 packet's release: on planes `pls` where it may still go, out of its queue where its entry now
refuses it, its queue paying as for any release (R260, R262), and back to waiting where a region of its path has closed. -/
def State.sc0Leave (s : State) (n : Nat) (p : Qp) (pls : List Nat) (late : Option Nat) (t : Stamp) : State :=
  let s0 := s.updNi n (fun x => { x with sc0Sel := none })
  match s.selVerdict n p t with
  | .go => s.sc0Go n p pls late t
  | .wait => s0
  | .hold => s0
  | v => match (s.ni n).sc0Sel.bind (fun v => v.q) with
    | some q => (s0.payQ n q (s0.headLen n q)).depart n q t false v
    | none => s0.sysDrop n p false

/-- The selected SC0 packet leaves on every attached plane in the first cycle that all of them allow (R256, R398).
[DESIGN CHOICE: log 24] -/
def execSc0Release (n : Nat) (t : Stamp) (s : State) : Host.Outcome State Fault Refusal :=
  guardUnit s (s.hasNi n)
    (match if s.niClocked n then (s.ni n).selPk else none with
     | none => s
     | some p =>
       let pls := s.sc0Planes n p.e
       if !pls.isEmpty && pls.all (fun pl => s.sc0Ready n pl p) then s.sc0Leave n p pls none t else s)

/-- The plane-skew limit passes with one of two attached planes ready: the packet leaves on it alone and its other copy
waits in the system queue (R257). [DESIGN CHOICE: log 24] -/
def State.sc0Late (s : State) (n : Nat) (p : Qp) (pl : Nat) (t : Stamp) : State :=
  let s1 := s.sc0Leave n p [pl] (some (1 - pl)) t
  if s.selVerdict n p t = .go then (s1.count (niB n) F.NI_SC0_SKEW_CNT_COUNT 1).notice n 1 else s1

def execSc0Skew (n : Nat) (t : Stamp) (s : State) : Host.Outcome State Fault Refusal :=
  guardUnit s (s.hasNi n)
    (match if s.niClocked n then (s.ni n).selPk else none with
     | none => s
     | some p =>
       match s.sc0Planes n p.e, (s.sc0Planes n p.e).filter (fun pl => s.sc0Ready n pl p) with
       | [_, _], [pl] => s.sc0Late n p pl t
       | _, _ => s)

end Sys2Proof.Machine
end

