-- ==== Sys2Proof/Machine/Sched.lean ====
section
/-! DEFINITION. What time drives in an NI's scheduler: queue samples (R284), shaper refills (R268, R269), allowance windows
(R270 to R273) and windows of the late histogram (R246). -/

namespace Sys2Proof.Machine

/-- At its sampling slot, the NI samples queue `q` (R284): OCC, and the head's age in units of 16 ns. -/
def State.queueSample (s : State) (n q : Nat) : State :=
  s.updNi n (fun x =>
    let v := x.q q
    let age := match v.pkts with
      | [] => 0
      | p :: _ => min ((s.clock - p.offer) / 20) 0xFFFF
    x.setQ q { v with sdLast := v.occ, sdMax := max v.sdMax v.occ, dlLast := age, dlMax := max v.dlMax age })

def execQueueSample (n q : Nat) (s : State) : Host.Outcome State Fault Refusal :=
  guardUnit s (s.hasNi n && decide (q < schedSize s.rom n)) (s.queueSample n q)

/-- Whether a queue that names shaper `k` holds an SC1 packet (R268). -/
def NiSt.shpBusy (x : NiSt) (k : Nat) : Bool :=
  x.qs.any (fun e => e.2.cls == 1 && e.2.shaper == k && !e.2.pkts.isEmpty)

/-- BURST of shaper `k` as written. [DEDUCED: log 12] -/
def shpBurst (k : Nat) : Fld := F.NI_SHP1_BURST.ix k

/-- One refill of shaper `k`: pending values apply, and credit grows by RATE eighths of a byte up to BURST bytes, or an idle
shaper loses what it has (R268). [DEDUCED: log 131] -/
def State.refill (s : State) (n k : Nat) : State :=
  let x := s.ni n
  let h := x.shaper k
  let rate := s.rd (niB n) (shpRate k)
  let burst := s.rd (niB n) (shpBurst k)
  let c := if x.shpBusy k || decide (h.credit < 0) then min (h.credit + rate) (8 * (burst : Int)) else 0
  s.setNi n (x.setShaper k { rate := rate, burst := burst, credit := c })

/-- One 16 ns instant of the NI's local Fabric Time (R269). -/
def execShaperRefill (n : Nat) (s : State) : Host.Outcome State Fault Refusal :=
  guardUnit s (s.hasNi n) (forAll 16 (fun k a => a.refill n k) s)

/-- A window boundary of the NI's local Fabric Time (R271 to R273): the allowances of its region take effect, the
remainders become the new allowances less overdraft, and a window with a hold is counted. -/
def execAllowanceWindow (n : Nat) (s : State) : Host.Outcome State Fault Refusal :=
  guardUnit s (s.hasNi n)
    (let g := (niRec s.rom n).region
     let a2 := s.rd pcrB (F.PCR_ALLOW_A2.ix g)
     let a3 := s.rd pcrB (F.PCR_ALLOW_A3.ix g)
     let x := s.ni n
     let s := if x.thrHeld then s.count (niB n) F.NI_THR_HOLD_CNT_COUNT 1 else s
     let s := (s.wr (niB n) F.NI_THR_STAT_A2 a2).wr (niB n) F.NI_THR_STAT_A3 a3
     s.updNi n (fun x => { x with rem2 := a2 + min x.rem2 0, rem3 := a3 + min x.rem3 0, thrHeld := false }))

/-- A window of the late histogram ends (R246): the bins are copied and zeroed, and a histogram that has been written off
releases the NI's spare timer. -/
def execHistWindowEnd (n : Nat) (s : State) : Host.Outcome State Fault Refusal :=
  guardUnit s (s.hasNi n)
    (let x := s.ni n
     if x.timer ≠ 2 then s
     else
       let b := niB n
       let s := forAll 4 (fun m a => (a.wr b (F.NI_LATE_HIST_BIN_LO.ix m) (x.hist.getD (2 * m) 0)).wr b
         (F.NI_LATE_HIST_BIN_HI.ix m) (x.hist.getD (2 * m + 1) 0)) s
       let y := { s.ni n with hist := List.replicate 8 0 }
       s.setNi n (if x.histRel then { y with timer := 0, histRel := false } else y))

end Sys2Proof.Machine
end

