-- ==== Sys2Proof/Machine/Command.lean ====
section
/-! DEFINITION. The command front end (R481 to R495): command and reply packets, the three paths, start, replies and
timeouts, and the requests for leave that operations make (R525). -/

namespace Sys2Proof.Machine

/-! ### Command packets (R481, R482) -/

/-- OPCODE. -/
def Cmd.op (c : Cmd) : Nat := (c.bytes.getD 0 0).toNat
/-- FENCE. -/
def Cmd.fence (c : Cmd) : Bool := (c.bytes.getD 1 0).getLsbD 0
/-- LEN, the parameter bytes. -/
def Cmd.len (c : Cmd) : Nat := leNat ((c.bytes.drop 4).take 2)
/-- TMO in ms. -/
def Cmd.tmo (c : Cmd) : Nat := leNat ((c.bytes.drop 12).take 2)
/-- The parameter bits as a number; bits beyond LEN read 0. -/
def Cmd.params (c : Cmd) : Nat := leNat ((c.bytes.drop 16).take c.len)
/-- Parameter bits `lo` to `lo + w - 1`. [DESIGN CHOICE: log 33] -/
def Cmd.p (c : Cmd) (lo w : Nat) : Nat := bitsAt c.params lo w
/-- A mask of the given fields, each a lowest bit and a width. -/
def fieldMask (fs : List (Nat × Nat)) : Nat := fs.foldl (fun a f => a ||| (2 ^ f.2 - 1) * 2 ^ f.1) 0
/-- Whether every parameter bit outside the given fields is 0 (R482). -/
def Cmd.only (c : Cmd) (fs : List (Nat × Nat)) : Bool := c.params &&& fieldMask fs == c.params
/-- SOURCE as the front end writes it. -/
def Cmd.source (c : Cmd) : Nat := c.src + c.path * 2 ^ 20

/-- The command of number `x` in execution. [DESIGN CHOICE: log 34] -/
def State.cmd (s : State) (x : Nat) : Option Cmd := s.cmds.find? (fun c => c.id == x)

/-! ### Replies (R481, R484, R486) -/

/-- A packet from NI `n`'s system queue in SC1 on VN3 (R251). -/
def State.pushVn3 (s : State) (n ptype op dest slice tag gen addr : Nat) (payload : List Byte) : State :=
  s.pushSys n { ser := 0, ptype := ptype, op := op, vn := 3, sc := 1, e := (s.entryFor n dest).getD 260, dest := dest
                len := payload.length, addr := addr, slice := slice, tag := tag, gen := gen, payload := payload
                f := flitsOf payload.length, offer := s.clock }

/-- The reply packet of a command. -/
def replyBytes (c : Cmd) (now status : Nat) (data : List Byte) : List Byte :=
  c.bytes.take 1 ++ [0x80] ++ (c.bytes.drop 2).take 2 ++ leBytes 2 data.length ++ leBytes 2 status ++ leBytes 4 c.source
    ++ leBytes 4 (min ((now - c.t0) / usTc) (2 ^ 32 - 1)) ++ data

/-- Write bytes into consecutive register words; the last word is filled with 0. -/
def State.putBytes (s : State) (off : Nat) (l : List Byte) : State :=
  forAll (cdiv l.length 4) (fun i a => a.setWord (off + 4 * i) (BitVec.ofNat 32 (leNat ((l.drop (4 * i)).take 4)))) s

/-- The bytes of `k` consecutive register words. -/
def State.getBytes (s : State) (off k : Nat) : List Byte := (List.range k).flatMap (fun i => leBytes 4 (s.word (off + 4 * i)).toNat)

/-- Send a reply by the path of its command: to the mailbox's reply buffer, or as a CMD packet from the home NI. -/
def State.sendReply (s : State) (c : Cmd) (status : Nat) (data : List Byte) : State :=
  let pkt := replyBytes c s.clock status data
  let s := s.count strB F.STR_CMD_CNT_COUNT 1
  let s := if status = 0 then s else s.wr strB F.STR_CMD_STAT_ERR 1
  if c.path = 2 then s.pushVn3 s.homeNi 3 1 c.src 63 c.tag c.gen 0 pkt
  else
    let m := if c.path = 1 then 3 else c.src
    let s := s.putBytes (strB + 0x2100 + 0x200 * m) pkt
    ((s.wr strB (F.STR_MBX_BUSY.ix m) 0).wr strB (F.STR_MBX_DONE.ix m) 1).glEvent 6 0

/-- Reply to command `x` and end its execution; a command that has been answered already gets no second reply (R492). -/
def State.reply (s : State) (x status : Nat) (data : List Byte) : State :=
  match s.cmd x with
  | none => s
  | some c =>
    let s := { s with cmds := s.cmds.filter (fun d => d.id != x) }
    if c.late then s else s.sendReply c status data

/-- Reply to the command that an operation holds, if it holds one. -/
def State.replyOpt (s : State) (x : Option Nat) (status : Nat) (data : List Byte) : State :=
  match x with
  | none => s
  | some k => s.reply k status data

/-- The operation of command `x` has passed its checks: its stream goes on (R490). -/
def State.begin (s : State) (x : Nat) : State :=
  { s with cmds := s.cmds.map (fun c => if c.id = x then { c with begun := true } else c) }

/-- The objects that a command acts on, each a kind of object and its number: claims, authorisations, route entries, reservations,
shapers by NI, the Time Unit, heats, PID entries, slices, regions, the governor, the wake sources, the planes, Span links, snapshot
slots, evidence and debug (R491). [DESIGN CHOICE: log 141] -/
def Cmd.objs (c : Cmd) : List (Nat × Nat) :=
  let links (l : List Nat) : List (Nat × Nat) := l.map (fun j => (15, 4 * c.p 0 2 + j))
  match c.op with
  | 0x02 | 0x03 => [(20 + c.p 0 2, c.p 8 8)]
  | 0x04 => [(1, 0)]
  | 0x05 => [(2, 0)]
  | 0x10 | 0x11 => [(3, c.p 0 8 * 2 ^ 16 + c.p 16 16)]
  | 0x12 => [(4, 16 * c.p 0 8 + c.p 8 4), (3, c.p 0 8 * 2 ^ 16 + c.p 16 9)]
  | 0x13 => [(4, 16 * c.p 0 8 + c.p 8 4)]
  | 0x14 | 0x15 => [(5, c.p 0 8)]
  | 0x20 | 0x21 | 0x22 | 0x23 => [(6, 0)]
  | 0x30 => [(7, 0)]
  | 0x31 | 0x32 | 0x33 | 0x34 | 0x35 | 0x36 | 0x37 => [(8, c.p 0 16)]
  | 0x40 => [(9, c.p 0 8 * 2 ^ 16 + c.p 16 10), (10, c.p 56 6)]
  | 0x41 => [(10, c.p 8 6)]
  | 0x42 | 0x43 | 0x44 | 0x45 => [(10, c.p 0 6)]
  | 0x50 => (List.range 16).filterMap (fun g => if c.p 16 1 = 1 ∨ bitAt (c.p 0 16) g = true then some (11, g) else none)
  | 0x51 | 0x54 => [(11, c.p 0 4)]
  | 0x52 => (List.range 16).map (fun g => (11, g))
  | 0x53 => [(12, 0)]
  | 0x55 => [(13, 0)]
  | 0x60 | 0x61 | 0x62 | 0x63 | 0x64 => [(14, 0)]
  | 0x70 | 0x71 => links [c.p 2 2]
  | 0x72 | 0x73 => links [0, 1, 2, 3]
  | 0x80 | 0x81 | 0x82 | 0x83 => [(16, c.p 0 1)]
  | 0x88 | 0x89 | 0x8A | 0x8B => [(17, 0)]
  | _ => if 0xF0 ≤ c.op then [(18, 0)] else []

/-- Whether no command that has started before `c` and has still to take effect acts on an object of `c` (R491). -/
def State.turn (s : State) (c : Cmd) : Bool :=
  (s.cmds.takeWhile (fun d => d.id != c.id)).all (fun d => d.begun || !d.objs.any (fun o => c.objs.contains o))

/-- Run the operation of opcode `op` for command `x`, if that command is in execution, has not yet begun and has its turn. A
reserved parameter bit that is 1 is answered BAD_PARAM (R482). [DESIGN CHOICE: log 33, 34] -/
def State.runCmd (s : State) (x op : Nat) (fs : List (Nat × Nat)) (f : Cmd → State → State) : State :=
  match s.cmd x with
  | none => s
  | some c =>
    if c.op ≠ op ∨ c.begun = true ∨ s.turn c = false then s
    else if c.only fs then f c (s.begin x)
    else s.reply x 0x0003 []

/-- Answer an operation that does all it does at once. -/
def State.answer (s : State) (x status : Nat) (data : List Byte) : State := s.reply x status data

/-! ### Arrival (R484 to R488) -/

/-- A command joins the front end. -/
def State.submit (s : State) (c : Cmd) : State :=
  { s with cmdQ := s.cmdQ ++ [{ c with id := s.cmdNext }], cmdNext := s.cmdNext + 1 }

/-- Ring mailbox `m`'s doorbell (R484). -/
def State.doorbell (s : State) (m : Nat) : State :=
  if s.rd strB (F.STR_MBX_BUSY.ix m) = 1 then s.wr strB (F.STR_MBX_OVERRUN.ix m) 1
  else
    let bytes := s.getBytes (strB + 0x2000 + 0x200 * m) 64
    let path := if m = 3 then 1 else 0
    (s.wr strB (F.STR_MBX_BUSY.ix m) 1).submit
      { id := 0, path := path, src := if m = 3 then 0 else m, bytes := bytes }

/-- Whether the CMD_AUTH bit of NI index `i` is set (R488). -/
def State.authBit (s : State) (i : Nat) : Bool := bitAt (s.rd strB (F.STR_CMD_AUTH_MASK.ix (i / 32))) (i % 32)

/-- Whether node `src` may send commands and MGMT writes (R449, R488). [DESIGN CHOICE: log 32] -/
def State.authNode (s : State) (src : Nat) : Bool :=
  s.authBit (src % 256) && (src / 256 == s.instNum || s.flag strB F.STR_CTL_REMOTE_CMD)

/-- The first command packet here that has arrived whole. -/
def NiSt.nextCmd (x : NiSt) : Option Nat := x.inbox.find? (fun k => match x.pk k with
  | some p => p.hdr.ptype == 3 && p.hdr.op == 0 && p.left == 0
  | none => false)

/-- A CMD packet with OP 0 reaches the front end through the NI that has received it, which never delivers one to its endpoint
(R486 to R488). [DEDUCED: log 35] -/
def State.cmdReceive (s : State) (n : Nat) : State :=
  let x := s.ni n
  match x.nextCmd with
  | none => s
  | some k =>
    match x.pk k with
    | none => s
    | some p =>
      let s := (s.setNi n { x with inbox := x.inbox.filter (fun j => j != k) }).dropPk n k
      let c : Cmd := { id := 0, path := 2, src := p.hdr.src, tag := p.hdr.tag, gen := p.hdr.gen, bytes := p.got
                       carried := some p.got.length, t0 := s.clock }
      if s.authNode p.hdr.src = false then s.sendReply c 0x0010 []
      else if 32 ≤ (s.cmdQ.filter (fun c => c.path == 2)).length then
        ((s.count strB F.STR_QFULL_CNT_COUNT 1).wr strB F.STR_CMD_STAT_QFULL 1).sendReply c 0x0005 []
      else s.submit c

def execCmdPacketReceive (n : Nat) (s : State) : Host.Outcome State Fault Refusal :=
  guardUnit s (s.hasNi n) (s.cmdReceive n)

/-! ### Start, order and limits (R489 to R493) -/

/-- Whether an opcode is defined (R495, R496, R497, R311, R390, R442, R530, R417, R586, R343, R628). -/
def opcodeDefined (op : Nat) : Bool :=
  decide (op ≤ 5) || (decide (0x10 ≤ op) && decide (op ≤ 0x15)) || (decide (0x20 ≤ op) && decide (op ≤ 0x23))
    || (decide (0x30 ≤ op) && decide (op ≤ 0x37)) || (decide (0x40 ≤ op) && decide (op ≤ 0x45))
    || (decide (0x50 ≤ op) && decide (op ≤ 0x55)) || (decide (0x60 ≤ op) && decide (op ≤ 0x64))
    || (decide (0x70 ≤ op) && decide (op ≤ 0x73)) || (decide (0x80 ≤ op) && decide (op ≤ 0x83))
    || (decide (0x88 ≤ op) && decide (op ≤ 0x8B)) || (decide (0xF0 ≤ op) && decide (op ≤ 0xF4))

/-- The mask of opcode groups of a command's path (R489). -/
def State.pathMask (s : State) (path : Nat) : Nat :=
  match path with
  | 0 => s.rd strB F.STR_PATH_MASK_MBX
  | 1 => s.rd strB F.STR_PATH_MASK_MSP
  | _ => s.rd strB F.STR_PATH_MASK_VN3_VN3

/-- The status that refuses a command at its start, 0 for none (R482, R489, R493, R495). [DESIGN CHOICE: log 33] -/
def State.startCheck (s : State) (c : Cmd) : Nat :=
  if s.rd strB F.STR_BOOT_STATE ≠ 3 ∧ c.op ≠ 0 then 0x0004
  else if 240 < c.len ∨ (match c.carried with | some k => decide (k ≠ 16 + c.len) | none => false) = true then 0x0002
  else if bitAt (s.pathMask c.path) (c.op / 16) = false ∨ ((c.op = 3 ∨ c.op = 5) ∧ c.path = 2) then 0x0010
  else if opcodeDefined c.op then 0 else 0x0001

/-- Whether two commands belong to one stream (R490). -/
def Cmd.sameStream (a b : Cmd) : Bool := a.path == b.path && a.src == b.src

/-- The commands in execution: those that have not been answered. -/
def State.active (s : State) : List Cmd := s.cmds.filter (fun c => !c.late)

/-- Start command `x` in stream order within the limit of 16 (R490, R491). After entry into RUN, only PING starts before the
floors are recomputed (R240). -/
def State.cmdStart (s : State) (x : Nat) : State :=
  match s.cmdQ.find? (fun c => c.id == x) with
  | none => s
  | some c =>
    let first := !(s.cmdQ.any (fun d => d.sameStream c && decide (d.id < x)))
    let blocked := s.active.any (fun d => d.sameStream c && (c.fence || !d.begun))
    if first && !blocked && decide (s.active.length < 16) && (!s.floorRun || c.op == 0) then
      let c := { c with t0 := s.clock }
      let s := { s with cmdQ := s.cmdQ.filter (fun d => d.id != x) }
      let st := s.startCheck c
      if st = 0 then { s with cmds := s.cmds ++ [c] } else s.sendReply c st []
    else s

def execCmdStart (x : Nat) (s : State) : Host.Outcome State Fault Refusal := .next (s.cmdStart x)

/-! ### Leave (R525) -/

/-- An operation asks for leave. [DESIGN CHOICE: log 36] -/
def State.ask (s : State) (kind who : Nat) : State := { s with asks := s.asks ++ [{ kind := kind, who := who }] }

/-- An operation that is over gives its leave back, or withdraws its request. [DESIGN CHOICE: log 36] -/
def State.give (s : State) (kind who : Nat) : State :=
  let l : Leave := { kind := kind, who := who }
  let s := { s with asks := s.asks.filter (fun e => e != l), leaveQ := s.leaveQ.filter (fun e => e != l) }
  if s.leaves.contains l && !s.gives.contains l then { s with gives := s.gives ++ [l] } else s

/-- Whether an operation holds leave. -/
def State.hasLeave (s : State) (kind who : Nat) : Bool :=
  s.leaves.contains { kind := kind, who := who } && !s.gives.contains { kind := kind, who := who }

/-- An operation's request joins the governor's queue. [DESIGN CHOICE: log 36] -/
def execLeaveRequest (kind who : Nat) (s : State) : Host.Outcome State Fault Refusal :=
  .next (let l : Leave := { kind := kind, who := who }
         if s.asks.contains l then { s with asks := s.asks.erase l, leaveQ := s.leaveQ ++ [l] } else s)

/-- A holder returns its leave and frees its place; nothing is refunded. [DESIGN CHOICE: log 36] -/
def execLeaveReturn (kind who : Nat) (s : State) : Host.Outcome State Fault Refusal :=
  .next (let l : Leave := { kind := kind, who := who }
         if s.gives.contains l then { s with gives := s.gives.erase l, leaves := s.leaves.erase l } else s)

/-! ### Claims (R498 to R501) -/

/-- The owner of TIME_EVT pin `k` and the claimant NI. -/
def State.pinOwner (s : State) (k : Nat) : Nat := s.rd strB (F.STR_CLAIM_PIN_OWNER.ix k)
def State.pinNi (s : State) (k : Nat) : Nat := s.rd strB (F.STR_CLAIM_PIN_NI.ix k)

/-- Whether the present owner of a resource has claimed it in this very cycle (R499). -/
def State.claimedNow (s : State) (r : Nat) : Bool := mget (fun _ => 0) s.claimAt r == s.clock + 1
/-- A resource is claimed in this cycle. -/
def State.noteClaim (s : State) (r : Nat) : State := { s with claimAt := mset (fun _ => 0) s.claimAt r (s.clock + 1) }
/-- The resource numbers of NI `n`'s spare capture timer and resequencer buffer. -/
def timerRes (n : Nat) : Nat := 16 + 2 * n
def reseqRes (n : Nat) : Nat := 17 + 2 * n

/-- Record the owner of a pin. TIME.EVT[k] shows it with the direction that it sets: an input for the triggers of Photo Finish
and debug, an output for time sync and markers (R316, R322). [DESIGN CHOICE: log 99] -/
def State.setPin (s : State) (k owner ni : Nat) : State :=
  (((s.wr strB (F.STR_CLAIM_PIN_OWNER.ix k) owner).wr strB (F.STR_CLAIM_PIN_NI.ix k) ni).wr timB (F.TIM_EVT0_OWNER.ix k) owner).wr
    timB (F.TIM_EVT0_DIR.ix k) (b2n (owner == 2 || owner == 4))

/-- Release pin `k` where `owner` holds it. [DESIGN CHOICE: log 99] -/
def State.freePin (s : State) (k owner : Nat) : State := if s.pinOwner k = owner then s.setPin k 0 0 else s

/-- Whether a claim of pin `k` for `owner`, of NI `ni` for a gate marker, succeeds: the pin is free, or it was claimed in this
cycle by an owner of lower precedence or by the marker of a higher NI (R499). -/
def State.pinFree (s : State) (k owner ni : Nat) : Bool :=
  s.pinOwner k == 0 || (s.claimedNow k
    && (decide (owner < s.pinOwner k) || (owner == 3 && s.pinOwner k == 3 && decide (ni < s.pinNi k))))

/-- Claim pin `k`. A marker or a trace that loses it in the cycle of its own claim reads its enable back as 0 (R499). -/
def State.claimPin (s : State) (k owner ni : Nat) : State :=
  let s := match s.pinOwner k with
    | 3 => s.wr (niB (s.pinNi k)) F.NI_GATE_CTL_MARK_EN 0
    | 4 => s.wr dbgB F.DBG_TRC_CTL_EN 0
    | _ => s
  (s.setPin k owner ni).noteClaim k

end Sys2Proof.Machine
end

