-- ==== Sys2Proof/Machine/Time.lean ====
section
/-! DEFINITION. Fabric Time (R287 to R322): validity at every node, markers and tracking, calibration runs, freezes, steps,
the servo and the states of the Time Unit, PPS and Time Set port, the carrier, the time commands, the time pins, and time
across Span. -/

namespace Sys2Proof.Machine

/-! ### The Time Tree (R290, R294, R299, R302) -/

/-- The node at router index `r`. -/
def State.node (s : State) (r : Nat) : Node := mget (fun _ => {}) s.time.nodes r
/-- The state with node `r` holding `v`. -/
def State.setNode (s : State) (r : Nat) (v : Node) : State :=
  { s with time := { s.time with nodes := mset (fun _ => {}) s.time.nodes r v } }

/-- Whether router index `r` is the Time Tree root. -/
def isRoot (rom : Rom) (r : Nat) : Bool := (rtrRec rom r).timeParent == 0xFFFF

/-- The state code of region `g` (R504). -/
def State.rgState (s : State) (g : Nat) : Nat := s.rd pcrB (F.PCR_RG_STAT_STATE.ix g)

/-- Whether a node stands in pass-through: its region is in DEEP_SLEEP or OFF (R302). -/
def State.passNode (s : State) (r : Nat) : Bool := [3, 4].contains (s.rgState (rtrRec s.rom r).region)

/-- The nearest ancestor of a node outside pass-through: the node at the other end of its parent hop (R302). -/
def State.liveUp (s : State) : Nat → Nat → Nat
  | 0, r => r
  | fuel + 1, r =>
    let p := (rtrRec s.rom r).timeParent
    if isRoot s.rom p || !s.passNode p then p else s.liveUp fuel p

/-- The Fabric Time counter of node `r`, in 2^-32 ns, at the present carrier edge (R291). A counter that is yet to be loaded
stands. [DESIGN CHOICE: log 125] -/
def State.nodeFt (s : State) (r : Nat) : Nat :=
  if isRoot s.rom r then s.time.ft
  else
    let v := s.node r
    if v.load || !s.time.carrier then v.base
    else ((v.base : Int) + ((v.inc : Int) + v.spread) * ((s.clock - v.since : Nat) : Int)).toNat

/-- The Fabric Time counter from which NI `n` takes its time (R290). -/
def State.niFt (s : State) (n : Nat) : Nat := s.nodeFt (niRec s.rom n).rtr

/-- Every counter takes its present value as the one that it runs on from. -/
def State.stopNodes (s : State) : State :=
  { s with time := { s.time with
      nodes := s.time.nodes.map (fun e => (e.1, { e.2 with base := s.nodeFt e.1, since := s.clock })) } }

/-- Whether the hops from the root to node `r` are calibrated and track (R294). `fuel` bounds the depth of the tree. -/
def State.hopsOk (s : State) : Nat → Nat → Bool
  | 0, _ => false
  | fuel + 1, r =>
    if isRoot s.rom r then true
    else
      let up := s.hopsOk fuel (rtrRec s.rom r).timeParent
      if s.passNode r then up else (s.node r).cal && !(s.node r).track && up

/-- Whether Fabric Time is valid at the node of router index `r` (R294, R302). [DEDUCED: log 42] -/
def State.nodeOk (s : State) (r : Nat) : Bool :=
  s.rootOk && s.hopsOk 10 r && [0, 1, 2, 5, 7].contains (s.rgState (rtrRec s.rom r).region)

/-- Whether the parent hop of node `r`, combined across nodes in pass-through (R302), has an end in region `g` (R299). -/
def State.inHopSet (s : State) (g r : Nat) : Bool :=
  !isRoot s.rom r && !s.passNode r && ((rtrRec s.rom r).region == g || (rtrRec s.rom (s.liveUp 10 r)).region == g)

/-- The nodes whose hops make up the hop set of region `g`. -/
def State.hopSet (s : State) (g : Nat) : List Nat := (List.range s.rom.rtrs.length).filter (s.inHopSet g)

/-- Whether two regions' hop sets share a hop (R300). -/
def State.hopShare (s : State) (g h : Nat) : Bool := (s.hopSet g).any (s.inHopSet h)

/-- Whether some node's run is in progress. -/
def State.calBusy (s : State) : Bool := s.time.nodes.any (fun e => e.2.run)

/-- Whether a state of the Time Unit is one whose time is valid (R306). -/
def stateValid (st : Nat) : Bool := st == 1 || st == 3 || st == 4

/-- Recompute what follows from the present time state: TIME.STAT, its events, and validity at every NI. A loss of time at
an NI is recorded once, and opens its gates (R281, R294, R306, R323). -/
def State.refreshTime (s : State) : State :=
  let t := s.time
  let st := s.rd timB F.TIM_STAT_STATE
  let v := stateValid st && t.carrier && !t.win
  let was := s.rootOk
  let s := (s.wr timB F.TIM_STAT_VALID (b2n v)).wr timB F.TIM_STAT_TRACE (b2n (st == 3 || st == 4))
  let s := (s.wr timB F.TIM_STAT_CAL_BUSY (b2n s.calBusy)).wr timB F.TIM_STAT_FREEZE
    (b2n (!t.freezes.isEmpty || t.nodes.any (fun e => e.2.frozen)))
  let s := (s.wr timB F.TIM_STAT_STEP_PEND (b2n t.step.isSome)).wr timB F.TIM_STAT_SLEW (b2n t.slew.isSome)
  let s := if was != v then s.glEvent 0 1 else s
  forAll s.rom.nis.length (fun n a =>
    let r := (niRec a.rom n).rtr
    let ok := a.nodeOk r
    let b := niB n
    let a := a.wr b F.NI_TIME_STAT_FROZEN (b2n (a.node r).frozen)
    if a.niTimeOk n = ok then a
    else
      let a := a.wr b F.NI_TIME_STAT_VALID (b2n ok)
      if ok then a
      else
        (((a.wr b F.NI_TIME_STAT_LOST 1).wr b F.NI_GATE_STAT_TIME_LOST 1).notice n 2)) s

/-- The Time Unit changes its time data. -/
def State.updTime (s : State) (f : TimeSt → TimeSt) : State := { s with time := f s.time }

/-! ### States and servo (R305 to R307) -/

/-- TIME.CTL.SRC as it is written, 3 acting as 0. -/
def State.srcSel (s : State) : Nat := if s.rd timB F.TIM_CTL_SRC = 3 then 0 else s.rd timB F.TIM_CTL_SRC
/-- The reference in force (R305). -/
def State.timeSrc (s : State) : Nat := s.time.src

/-- The nominal increment (R291). -/
abbrev incNom : Nat := 0xCCCCCCCD

/-- The increment for an adjustment in 0.001 ppb (R307). [DEDUCED: log 38] -/
def incOf (adj : Int) : Nat := (((incNom : Int) * (10 ^ 12 + adj) + 5 * 10 ^ 11) / 10 ^ 12).toNat

/-- Adopt an adjustment in 0.001 ppb: it is shown, and its increment is carried from the next marker. -/
def State.setAdj (s : State) (adj : Int) : State :=
  (s.wr timB F.TIM_FREQ_ADJ_ADJ (BitVec.ofInt 32 adj).toNat).updTime (fun t => { t with incNew := incOf adj })

/-- Enter a state of the Time Unit (R306). -/
def State.timeGo (s : State) (st : Nat) : State :=
  let old := s.rd timB F.TIM_STAT_STATE
  if old = st then s
  else
    let s := ((s.wr timB F.TIM_STAT_STATE st).updTime (fun t => { t with
      lockRun := 0, badRun := 0, missRun := 0
      holdAt := if st = 4 then some s.clock else none
      integ := if st = 0 then 0 else t.integ })).glEvent 0 0
    let s := if old = 3 ∧ st = 2 then s.wr timB F.TIM_STAT_UNLOCK 1 else s
    match st with
    | 4 => s.setAdj s.time.integ
    | 1 => s.setAdj 0
    | _ => s

/-- Decide a step (R303): it waits for the root's next marker, or for the end of a deferral. [DEDUCED: log 47] -/
def State.decideStep (s : State) (abs : Bool) (v : Int) (cmd : Option Nat) : State :=
  s.updTime (fun t => { t with step := some { abs := abs, v := v, cmd := cmd } })

/-- FREQ_LIM in force, ppm (R322). -/
def State.freqLim (s : State) : Nat :=
  let v := s.rd timB F.TIM_SERVO_FREQ_LIM
  if v = 0 then 1 else min v 1000

/-- Clamp to plus or minus `b`. -/
def clampInt (v : Int) (b : Nat) : Int := max (-(b : Int)) (min v b)

/-- The servo on a sample `e` in 1/256 ns with `k` samples in a second (R307), in units of 0.001 ppb. [DEDUCED: log 38] -/
def State.servo (s : State) (e : Int) (k : Nat) : State :=
  let kp := s.rd timB F.TIM_SERVO_KP
  let ki := s.rd timB F.TIM_SERVO_KI
  let p := (-e * 1000 * k).tdiv (256 * 2 ^ kp)
  let i := s.time.integ - (e * 1000 * k).tdiv (256 * 2 ^ ki)
  (s.updTime (fun t => { t with integ := i })).setAdj (clampInt (p + i) (s.freqLim * 1000000))

/-- A count that acts as 1 where it is 0. -/
def atLeast1 (v : Nat) : Nat := if v = 0 then 1 else v

/-- Whether the magnitude of `e`, in 1/256 ns, is above `ns`. -/
def beyond (e : Int) (ns : Nat) : Bool := decide (256 * ns < e.natAbs)

/-- A reference sample `e` in 1/256 ns (R306, R307). `first` says that it decides a step in UNSET whatever its size. OFFSET.E keeps
the low 32 bits of an `e` that does not fit it (R322). [DEDUCED: log 47; DESIGN CHOICE: log 143] -/
def State.sample (s : State) (e : Int) (k : Nat) (first : Bool) : State :=
  let st := s.rd timB F.TIM_STAT_STATE
  let s := (s.wr timB F.TIM_OFFSET_E (BitVec.ofInt 32 e).toNat).updTime (fun t => { t with missRun := 0 })
  let s := { s with evd := { s.evd with offMax := max s.evd.offMax (min e.natAbs (2 ^ 32 - 1)) } }
  let big := (st == 0 && first)
    || (st == 2 && beyond e (s.rd timB F.TIM_STEP_THR_NS) && s.flag timB F.TIM_CTL_STEP_EN)
  let s := if big then (if s.time.step.isNone then s.decideStep false (-e * 2 ^ 24) none else s) else s.servo e k
  match st with
  | 2 =>
    let run := if beyond e (s.rd timB F.TIM_THR_LOCK_THR) then 0 else s.time.lockRun + 1
    let s := s.updTime (fun t => { t with lockRun := run })
    if atLeast1 (s.rd timB F.TIM_SERVO_LOCK_CNT) ≤ run then s.timeGo 3 else s
  | 3 =>
    let run := if beyond e (s.rd timB F.TIM_THR_UNLOCK_THR) then s.time.badRun + 1 else 0
    let s := s.updTime (fun t => { t with badRun := run })
    if 2 ≤ run then s.timeGo 2 else s
  | 4 => if beyond e (s.rd timB F.TIM_THR_UNLOCK_THR) then s.timeGo 2 else s.timeGo 3
  | 5 => s.timeGo 2
  | _ => s

/-- A missed sample (R306). [DESIGN CHOICE: log 40] -/
def State.missed (s : State) : State :=
  let s := s.updTime (fun t => { t with missRun := t.missRun + 1 })
  if s.rd timB F.TIM_STAT_STATE = 3 ∧ atLeast1 (s.rd timB F.TIM_SERVO_MISS_CNT) ≤ s.time.missRun then s.timeGo 4 else s

/-- At a sample, taken or missed, of source `k`, a write to SRC takes effect, with the change of state that it brings (R305,
R306). [DEDUCED: log 126] -/
def State.adopt (s : State) (k : Nat) : State :=
  if (k ≠ s.timeSrc ∧ k ≠ s.srcSel) ∨ s.timeSrc = s.srcSel then s
  else
    let s := s.updTime (fun t => { t with src := s.srcSel })
    let st := s.rd timB F.TIM_STAT_STATE
    (if s.timeSrc = 0 then (if 2 ≤ st ∧ st ≤ 5 then s.timeGo 1 else s)
     else if st = 1 then s.timeGo 2 else s).refreshTime

/-! ### Markers (R292, R293, R299, R303, R304, R315) -/

/-- Whether a step is deferred: a heat holds a committed T that has not passed, or a snapshot is armed (R304). -/
def State.stepDeferred (s : State) : Bool :=
  let ahead (t : Stamp) : Bool := decide (stampDiff s.rootStamp t < 0)
  (List.range 64).any (fun k => let st := s.rd hcuB (F.HCU_SLOT0_STATE.ix k)
    (st == 5 || st == 6) && ahead (BitVec.ofNat 64 (s.word64 (hcuB + 0x114 + 0x20 * k))))
    || s.time.heatT.any ahead
    || (List.range 2).any (fun k => s.rd pfB (F.PF_SLOT0_STATE.ix k) == 2)

/-- The increment that the next marker carries while a slew runs, and what the slew has still to remove after it (R311). -/
def State.slewInc (s : State) (left : Int) : Nat × Int :=
  let adj : Int := (s.freqLim * 1000000 : Nat)
  let inc := incOf (if left < 0 then -adj else adj)
  let per : Int := 1024 * ((inc : Int) - incNom)
  if per.natAbs ≤ left.natAbs ∧ left ≠ 0 then (inc, left - per)
  else ((incNom + (left + 512) / 1024 : Int).toNat, 0)

/-- The summed mean errors of the live hops on the path from the root to node `r` (R302, R315). -/
def State.pathErr (s : State) : Nat → Nat → Int
  | 0, _ => 0
  | fuel + 1, r => if isRoot s.rom r then 0 else (s.node r).mean + s.pathErr fuel (s.liveUp 10 r)

/-- The measured skew in ps (R315): the spread of the path errors over nodes with an NI. A node in pass-through, which has no hop of
its own, takes no part; a skew above 65,535 ps shows as 0xFFFF. [DESIGN CHOICE: log 143] -/
def State.skew (s : State) : Nat :=
  let l := (s.rom.nis.filter (fun x => !s.passNode x.rtr)).map (fun x => s.pathErr 10 x.rtr)
  match l with
  | [] => 0
  | a :: r =>
    let hi := r.foldl max a
    let lo := r.foldl min a
    min (((hi - lo) * 1000) / 256).toNat 0xFFFF

/-- The whole second, in ns, nearest to a time in 2^-32 ns. -/
def secOf (v : Int) : Nat := ((v + 2 ^ 31 * 10 ^ 9) / (2 ^ 32 * 10 ^ 9)).toNat * 10 ^ 9

/-- A step applies at the root, at its marker instant: Fabric Time is set, the spacing of each SC0 entry counts from it, one
allowance window starts at each NI, and time is not valid until the step window ends (R230, R271, R303, R306). The expected second
of the next PPS edge keeps the label of the sample that decided the step; under a commanded step it is the whole second nearest to
where the expected instant comes to lie (R309). [DESIGN CHOICE: log 40] -/
def State.stepApply (s : State) (p : TStep) (ft : Nat) : State :=
  let s := s.updTime (fun t => { t with
    ft := ft, step := none, win := true, stepAt := s.clock, integ := 0
    expect := if p.cmd.isNone then t.expect else t.expect.map (fun e => secOf (((2 ^ 32 * e : Nat) : Int) + ft - t.ft)) })
  let s := { s.wr timB F.TIM_STAT_STEP_DONE 1 with evd := { s.evd with step := true } }
  let s := if s.rd timB F.TIM_STAT_STATE = 0 then s.timeGo (if s.timeSrc = 0 then 1 else 2) else s
  let st := s.rootStamp
  let s := forAll s.rom.nis.length (fun n a =>
    match execAllowanceWindow n (a.updNi n (fun x => { x with sc0Last := x.sc0Last.map (fun e => (e.1, some st)) })) with
    | .next b => b
    | _ => a) s
  (s.replyOpt p.cmd 0 []).refreshTime

/-- A node enters TRACK_FAIL: it stops adjusting and asks for recalibration (R293). -/
def State.trackFail (s : State) (r : Nat) : State :=
  ((s.setNode r { s.node r with track := true, run := true, spread := 0, left := 0 }).glEvent 0 2).refreshTime

/-- A marker that has not arrived when the next one is sent is missed: a step that it carried does not apply at the node, which
enters TRACK_FAIL (R303). [DESIGN CHOICE: log 125] -/
def State.markMiss (s : State) (r : Nat) : State :=
  match (s.node r).mark with
  | none => s
  | some m =>
    let s := s.setNode r { s.node r with mark := none }
    match m.step with
    | some (0, _) => s.trackFail r
    | _ => s

/-- Node `p` sends a marker to its children, across nodes in pass-through (R292, R302). -/
def State.sendMarker (s : State) (p : Nat) (m : Marker) : State :=
  (List.range s.rom.rtrs.length).foldl (fun a r =>
    if isRoot a.rom r || a.passNode r || a.liveUp 10 r != p then a
    else
      let a := a.markMiss r
      a.setNode r { a.node r with mark := some m }) s

/-- The root sends a marker (R292): its count has run to the next multiple of 1,024 tc, the increment carried before is in
force, freezes and a placed step come nearer, an undeferred step is placed, a step whose instant it is applies, and every 16
markers the skew is recomputed. [DESIGN CHOICE: log 6] -/
def State.marker (s : State) : State :=
  let t := s.time
  let k := 1024 - t.tc
  let inc := s.rd64 timB F.TIM_INC_LO_INC F.TIM_INC_HI_INC
  let (carry, slew) := match t.slew with
    | some l => if l = 0 then (incNom, some 0) else ((s.slewInc l).1, some (s.slewInc l).2)
    | none => (t.incNew, none)
  let step := t.step.map (fun p => match p.placed with
    | some j => { p with placed := some (j - 1) }
    | none => if s.stepDeferred then p else { p with placed := some 16 })
  let ft := t.ft + inc * k
  let t : TimeSt := { t with
    ft := ft, tc := 0, marks := t.marks + 1, incCar := carry, slew := slew, step := step
    freezes := t.freezes.map (fun f => { f with left := f.left - 1 }) }
  let s := ({ s with time := t, clock := s.clock + k }).wr64 timB F.TIM_INC_LO_INC F.TIM_INC_HI_INC s.time.incCar
  let carried := step.bind (fun p => p.placed.map (fun j => (p, j, if p.abs then p.v - ft else p.v)))
  let s := match carried with
    | some (p, 0, d) => s.stepApply p ((ft : Int) + d).toNat
    | _ => s
  let root := s.rom.rtrs.findIdx (fun x => x.timeParent == 0xFFFF)
  let s := s.sendMarker root { time := s.time.ft, inc := carry, step := carried.map (fun c => (c.2.1, c.2.2)) }
  if t.marks % 16 = 0 then
    let v := s.skew
    let s := { s with evd := { s.evd with skewMax := max s.evd.skewMax v } }
    (s.wr timB F.TIM_SKEW_NOW v).wr timB F.TIM_SKEW_MAX (max (s.rd timB F.TIM_SKEW_MAX) v)
  else s

def execTimeMarker (s : State) : Host.Outcome State Fault Refusal :=
  .next (if s.time.carrier then s.marker else s)

/-- Markers leave the root one after the other until a placed step has applied, at most `fuel` of them. -/
def State.stepRun (s : State) : Nat → State
  | 0 => s
  | fuel + 1 => match s.time.step with
    | some p => if p.placed.isSome then s.marker.stepRun fuel else s
    | none => s

/-- A placed step reaches its marker instant. [DESIGN CHOICE: log 6] -/
def execTimeStepApply (s : State) : Host.Outcome State Fault Refusal :=
  .next (if s.time.carrier then s.stepRun 17 else s)

/-- A node compares a marker with its counter, `x` past the last carrier edge: a calibrated node without a freeze tracks its
parent, and spreads the mean of 16 errors over 16 marker periods (R293). The counter of a newly calibrated node is loaded.
[DEDUCED: log 38; DESIGN CHOICE: log 125] -/
def State.track (s : State) (r x : Nat) (m : Marker) : State :=
  let v := s.node r
  let at' : Int := ((m.time + 2 ^ 24 * v.dly : Nat) : Int) - x
  if v.cal = false then s
  else if v.load then s.setNode r { v with base := at'.toNat, load := false, sum := 0, n := 0 }
  else if v.frozen || v.track then s
  else
    let v := { v with sum := v.sum + (at' - v.base) / 2 ^ 24, n := v.n + 1 }
    if v.n < 16 then s.setNode r v
    else
      let mean := v.sum / 16
      let s := s.setNode r { v with sum := 0, n := 0, mean := mean, spread := 1024 * mean, left := 16 }
      if 16 * 256 < v.sum.natAbs then s.trackFail r else s

/-- The marker on its way to node `r` arrives `x` past the last carrier edge: a step whose marker it is applies, the increment
that the marker before carried comes into force, the error is taken or the counter loaded, and the marker goes on to the node's
children with the node's Fabric Time (R292, R293, R303). -/
def State.markerAt (s : State) (r x : Nat) : State :=
  let v := s.node r
  match v.mark with
  | none => s
  | some m =>
    let jump : Int := match m.step with
      | some (0, d) => d
      | _ => 0
    let s1 := s.setNode r { v with
      mark := none, base := ((s.nodeFt r : Int) + jump).toNat, since := s.clock, inc := v.incNext, incNext := m.inc
      left := v.left - 1, spread := if v.left ≤ 1 ∨ v.frozen = true then 0 else v.spread }
    let s2 := s1.track r x m
    s2.sendMarker r { m with time := s2.nodeFt r + x }

def execMarkerArrival (r x : Nat) (s : State) : Host.Outcome State Fault Refusal :=
  guardUnit s (s.hasRtr 0 r) (s.markerAt r x)

/-! ### Calibration (R296 to R298) -/

/-- Start runs on the nodes of a list that are not running (R298). -/
def State.startRuns (s : State) (l : List Nat) : State :=
  l.foldl (fun a r => if isRoot a.rom r then a else a.setNode r { a.node r with run := true }) s

/-- HOP_DLY of 256 round trips in ps, or none where the run fails (R296, R297). -/
def hopDly (rtt : List (Option Nat)) : Option Nat :=
  if rtt.any (fun x => x.isNone) || rtt.isEmpty then none
  else
    let l := rtt.filterMap id
    let hi := l.foldl max 0
    let lo := l.foldl min hi
    let d := (l.foldl (· + ·) 0 * 256 + 1000 * l.length) / (2000 * l.length)
    if 200 < hi - lo ∨ 60 * 256 < d then none else some d

/-- A calibration run of node `r`'s parent hop ends (R296, R297): the delay is loaded, and the node tracks from its counter as it
stands, which never steps (R293); or the run is repeated up to three times and then fails. The second component says whether the
run has ended for good. -/
def State.runEnd (s : State) (r : Nat) (rtt : List (Option Nat)) : State × Bool :=
  let v := s.node r
  match hopDly rtt with
  | some d =>
    (s.setNode r { v with run := false, cal := true, track := false, dly := d, fails := 0, sum := 0, n := 0 }, true)
  | none =>
    if v.fails < 3 then (s.setNode r { v with fails := v.fails + 1 }, false)
    else
      let s := s.setNode r { v with run := false, cal := false, fails := 0 }
      (((s.wr timB F.TIM_STAT_CAL_FAIL 1).wr timB F.TIM_CAL_STAT_FAIL_NODE r).glEvent 0 3, true)

/-- Each TIME_CAL is answered once the runs that it started have ended (R311). -/
def State.calReply (s : State) : State :=
  let over' (e : Nat × List Nat) : Bool := !e.2.any (fun r => (s.node r).run)
  let s1 := s.updTime (fun t => { t with calCmds := t.calCmds.filter (fun e => !over' e) })
  (s.time.calCmds.filter over').foldl (fun a e => a.reply e.1 0 []) s1

/-- TIME.CAL_CFG.PERIOD has passed: the next tree level is recalibrated and failed hops are retried (R297, R298, R322). -/
def execCalPeriod (s : State) : Host.Outcome State Fault Refusal :=
  .next
    (if s.clock < s.time.calAt + 1250000 * atLeast1 (s.rd timB F.TIM_CAL_CFG_PERIOD) then s
     else
     let deep := s.rom.rtrs.foldl (fun a x => max a x.timeLevel) 1
     let lvl := if deep ≤ s.time.calLevel then 1 else s.time.calLevel + 1
     let due := (List.range s.rom.rtrs.length).filter (fun r =>
       !isRoot s.rom r && !(s.node r).frozen && !(s.node r).run && !s.passNode r
         && ((rtrRec s.rom r).timeLevel == lvl || !(s.node r).cal))
     ((s.startRuns due).updTime (fun t => { t with calLevel := lvl, calAt := s.clock })).refreshTime)

/-! ### The end of a step window (R303) -/

/-- 10 µs after a step, its window ends (R303). -/
def execStepWindowEnd (s : State) : Host.Outcome State Fault Refusal :=
  .next (if s.clock < s.time.stepAt + 12500 then s else (s.updTime (fun t => { t with win := false })).refreshTime)

/-! ### PPS and the Time Set port (R309, R310, R316) -/

/-- A second in ns and in 1/256 ns. -/
abbrev secNs : Nat := 1000000000

/-- A PPS_IN edge of the polarity that PPS_POL selects, captured at Fabric Time `t` in 1/256 ns (R309, R322). In a sleeping
instance it counts toward a wake (R514, R515). [DESIGN CHOICE: log 40] -/
def State.ppsEdge (s : State) (rise : Bool) (t : Nat) : State :=
  if (s.timeSrc ≠ 1 ∧ s.srcSel ≠ 1) ∨ s.flag timB F.TIM_CTL_PPS_POL = rise then s
  else
    let tm := s.time
    let st := s.rd timB F.TIM_STAT_STATE
    let dly := (BitVec.ofNat 32 (s.rd timB F.TIM_PPS_IN_DLY_DLY)).toInt
    let at' : Int := t - dly
    let near := ((at'.toNat + 128 * secNs) / (256 * secNs)) * secNs
    let (lab, exp) : Bool × Nat := match tm.label with
      | some (v, c) => if c ≤ s.clock then (true, v) else (false, tm.expect.getD near)
      | none => (false, tm.expect.getD near)
    let e := at' - 256 * exp
    let ok := if st = 3 ∨ st = 4 then !beyond e (s.rd timB F.TIM_PPS_CFG_WIN)
      else match tm.lastClk with
        | none => true
        | some c => decide (c + 625000000 ≤ s.clock)
    if ok = false then s.count timB F.TIM_PPS_SPUR_CNT_COUNT 1
    else
      let s := s.updTime (fun t => { t with
        lastClk := some s.clock, label := if lab then none else t.label
        expect := some (exp + secNs) })
      let asleep := [2, 3].contains (s.rgState s.rom.homeRegion) && (match (s.rg s.rom.homeRegion).q with
        | some q => decide (q + 200 < s.clock)
        | none => true)
      let s : State := if asleep then { s with pacer := { s.pacer with pps := s.pacer.pps + 1 } } else s
      let s := s.adopt 1
      if s.timeSrc = 1 then (s.sample e 1 lab).refreshTime else s

def execPpsInEdge (e : PinEdge) (s : State) : Host.Outcome State Fault Refusal := .next (s.ppsEdge e.rise e.t)

/-- No edge has been accepted by the expected second plus the window (R309). -/
def execPpsMiss (s : State) : Host.Outcome State Fault Refusal :=
  .next
    (match s.time.expect with
     | none => s
     | some e =>
       if s.timeSrc ≠ 1 ∨ ftNs s.time.ft ≤ e + s.rd timB F.TIM_PPS_CFG_WIN then s
       else
         let s := s.adopt 1
         if s.timeSrc ≠ 1 then s
         else ((s.wr timB F.TIM_STAT_PPS_MISS 1).updTime
           (fun t => { t with expect := t.expect.map (· + secNs) })).missed.refreshTime)

/-- The PTP engine loads a time of day: it labels the first PPS edge at least 8 ac later, or is rejected (R310). -/
def execTsetLoad (sec : BitVec 48) (ns : BitVec 32) (s : State) : Host.Outcome State Fault Refusal :=
  .next
    (if s.srcSel ≠ 1 ∨ secNs ≤ ns.toNat ∨ s.time.step.isSome = true then s.wr timB F.TIM_STAT_TSET_REJ 1
     else s.updTime (fun t => { t with label := some (sec.toNat * secNs + ns.toNat, s.clock + 400) }))

/-! ### Span time (R305, R320) -/

/-- The child's offset of one exchange, in ps (R320). [DEDUCED: log 112] -/
def spanOffset (t1 t2 t3 t4 : Nat) (asym : Int) : Int :=
  ((((t2 : Int) - t1) - ((t4 : Int) - t3)) - asym).tdiv 2

/-- The exchange of time frames that the link of a CHILD end has ended, with its four times, gives its offset, once.
[DEDUCED: log 112] -/
def execSpanTimeExchange (k t1 t2 t3 t4 : Nat) (s : State) : Host.Outcome State Fault Refusal :=
  guardUnit s (s.hasSpan k)
    (if s.rd (spB k) F.SP_TIME_CFG_ROLE ≠ 2 ∨ (s.lk (4 * k)).exch ≠ some (t1, t2, t3, t4) then s
     else
       let o := spanOffset t1 t2 t3 t4 (BitVec.ofNat 32 (s.rd (spB k) F.SP_TIME_ASYM_ASYM)).toInt
       let (sum, n, skip) := mget (fun _ => ((0 : Int), 0, 0)) s.time.spanO k
       let v := if skip = 0 then (sum + o, n + 1, 0) else (sum, n, skip - 1)
       (s.updLk (4 * k) (fun l => { l with exch := none })).updTime
         (fun t => { t with spanO := mset (fun _ => ((0 : Int), 0, 0)) t.spanO k v }))

/-- The 1 ms interval ends: the mean offset is the child's sample, or the sample is missed. [DEDUCED: log 112] -/
def execSpanTimeSample (k : Nat) (s : State) : Host.Outcome State Fault Refusal :=
  guardUnit s (s.hasSpan k)
    (let role := s.rd (spB k) F.SP_TIME_CFG_ROLE
     if role ≠ 1 ∧ role ≠ 2 then s
     else
       let (sum, n, skip) := mget (fun _ => ((0 : Int), 0, 0)) s.time.spanO k
       let s := s.updTime (fun t => { t with
         spanO := mset (fun _ => ((0 : Int), 0, 0)) t.spanO k (0, 0, skip)
         spanMiss := (if n = 0 then [k] else []) ++ t.spanMiss.filter (fun j => j != k) })
       if role = 1 then s
       else
         let mine := s.rd timB F.TIM_CTL_SPAN_PORT == k
         let s := if mine then s.adopt 2 else s
         let mine := mine && s.timeSrc == 2
         if n = 0 then (if mine then s.missed.refreshTime else s)
         else
           let m := sum / n
           let s := s.wr (spB k) F.SP_TIME_CFG_LAST_O (BitVec.ofInt 16 (m * 16 / 1000)).toNat
           if mine then (s.sample (m * 256 / 1000) 1000 true).refreshTime else s)

/-! ### Holdover and carrier (R306, R312) -/

/-- HOLD_ELAPSED, ms (R322). -/
def State.holdMs (s : State) : Nat := match s.time.holdAt with
  | some c => (s.clock - c) / 1250000
  | none => 0

/-- HOLD_ELAPSED exceeds HOLD.LIM. -/
def execHoldoverExpire (s : State) : Host.Outcome State Fault Refusal :=
  .next (if s.rd timB F.TIM_STAT_STATE = 4 ∧ 1000 * atLeast1 (s.rd timB F.TIM_HOLD_LIM) < s.holdMs then (s.timeGo 5).refreshTime else s)

/-- A microsecond's count of carrier edges. -/
def execCarrierCheck (count : Nat) (s : State) : Host.Outcome State Fault Refusal :=
  .next
    (if 1240 ≤ count ∧ count ≤ 1260 then (if s.time.carrier then s.wr timB F.TIM_STAT_CARRIER_OK 1 else s)
     else if s.time.carrier then
       ((((s.stopNodes.wr timB F.TIM_STAT_CARRIER_OK 0).wr timB F.TIM_STAT_CARRIER_LOSS 1).updTime
         (fun t => { t with carrier := false })).glEvent 0 4).refreshTime
     else s)

/-- The carrier has been present for 1 ms after a loss: the state is UNSET and the whole tree is calibrated again.
[DEDUCED: log 39] -/
def execCarrierReturn (s : State) : Host.Outcome State Fault Refusal :=
  .next
    (if s.time.carrier then s
     else
       let s := (s.stopNodes.wr timB F.TIM_STAT_CARRIER_OK 1).updTime (fun t => { t with carrier := true })
       ((s.timeGo 0).startRuns (List.range s.rom.rtrs.length)).refreshTime)

/-! ### Time commands (R311) -/

/-- TIME_SET: SEC, NS and MODE. -/
def execTimeSet (x : Nat) (s : State) : Host.Outcome State Fault Refusal :=
  .next (s.runCmd x 0x20 [(0, 48), (48, 32), (80, 2)] (fun c s =>
    let ns := c.p 48 32
    let mode := c.p 80 2
    let v := c.p 0 48 * secNs + ns
    if secNs ≤ ns ∨ 2 ≤ mode then s.reply x 0x0003 []
    else if (mode = 0 ∧ s.srcSel ≠ 1) ∨ s.srcSel = 2 then s.reply x 0x000B []
    else if s.time.step.isSome then s.reply x 0x0006 []
    else if mode = 0 then
      (s.updTime (fun t => { t with label := some (v, s.clock + 400) })).reply x 0 []
    else (s.decideStep true ((v : Int) * 2 ^ 32) (some x)).refreshTime))

/-- TIME_ADJUST: OFFSET, signed, in 1/256 ns, and MODE. -/
def execTimeAdjust (x : Nat) (s : State) : Host.Outcome State Fault Refusal :=
  .next (s.runCmd x 0x21 [(0, 64), (64, 2)] (fun c s =>
    let off := (BitVec.ofNat 64 (c.p 0 64)).toInt * 2 ^ 24
    let mode := c.p 64 2
    if s.rd timB F.TIM_STAT_STATE ≠ 1 then s.reply x 0x000B []
    else if 2 ≤ mode then s.reply x 0x0003 []
    else if s.time.step.isSome || s.time.slew.isSome then s.reply x 0x0006 []
    else if mode = 1 then (s.decideStep false off (some x)).refreshTime
    else
      let lim : Int := (s.freqLim * 1000000 : Nat)
      let adj := if off < 0 then -lim else lim
      let s := (s.wr timB F.TIM_FREQ_ADJ_ADJ (BitVec.ofInt 32 adj).toNat).updTime (fun t => { t with slew := some off })
      (s.reply x 0 []).refreshTime))

/-- A slew has removed its offset: adj returns to 0. -/
def execSlewEnd (s : State) : Host.Outcome State Fault Refusal :=
  .next (if s.time.slew = some 0 then ((s.updTime (fun t => { t with slew := none })).setAdj 0).refreshTime else s)

/-- TIME_CAL: every hop that is neither frozen nor running. -/
def execTimeCal (x : Nat) (s : State) : Host.Outcome State Fault Refusal :=
  .next (s.runCmd x 0x22 [] (fun _ s =>
    if !s.time.freezes.isEmpty || s.time.nodes.any (fun e => e.2.frozen) then s.reply x 0x0006 []
    else
      let l := (List.range s.rom.rtrs.length).filter (fun r => !isRoot s.rom r && !(s.node r).run && !s.passNode r)
      ((s.startRuns l).updTime (fun t => { t with calCmds := t.calCmds ++ [(x, l)] })).calReply.refreshTime))

/-- TIME_STATUS. -/
def execTimeStatus (x : Nat) (s : State) : Host.Outcome State Fault Refusal :=
  .next (s.runCmd x 0x23 [] (fun _ s =>
    s.reply x 0 (leBytes 4 (s.word (timB + 4)).toNat ++ leBytes 4 (s.word (timB + 0x3C)).toNat
      ++ leBytes 4 (s.word (timB + 0x74)).toNat ++ leBytes 4 s.holdMs)))

/-! ### Time pins (R282, R316 to R318) -/

/-- Count a pulse driven on pin `k` for `w` carrier cycles, by time sync or for a marker. The pin is high until the last pulse under
way has ended. -/
def State.pulse (s : State) (k w : Nat) (sync : Bool) : State :=
  s.updTime (fun t => { t with pinOut := mset (fun _ => 0) t.pinOut k (mget (fun _ => 0) t.pinOut k + 1)
                               pinEnd := mset (fun _ => 0) t.pinEnd k (max (mget (fun _ => 0) t.pinEnd k) (s.clock + w))
                               pinSync := mset (fun _ => 0) t.pinSync k (if sync then s.clock + 1 else 0) })

/-- Whether a pulse on pin `k` is in progress (R317). -/
def State.pulsing (s : State) (k : Nat) : Bool := decide (s.clock < mget (fun _ => 0) s.time.pinEnd k)

/-- The level that Fabric Time gives PPS_OUT: high from PPS_OUT_ADV before each whole second for OUT_W ms (R316, R322). -/
def State.ppsLevel (s : State) : Bool :=
  decide ((s.time.ft + 2 ^ 24 * s.rd timB F.TIM_PPS_OUT_ADV_ADV) % (2 ^ 32 * secNs)
    < min (atLeast1 (s.rd timB F.TIM_PPS_CFG_OUT_W)) 999 * 1000000 * 2 ^ 32)

/-- PPS_OUT rises or falls at its instants, and is low while it is not enabled or time is not valid at the root (R316). -/
def execPpsOutPulse (up : Bool) (s : State) : Host.Outcome State Fault Refusal :=
  .next (if (s.ppsLevel && s.flag timB F.TIM_CTL_PPS_OUT_EN && s.rootOk) = up then s.updTime (fun t => { t with ppsOut := up })
    else s)

/-- PERIOD of pin `k` in force, ns (R322). -/
def State.syncPeriod (s : State) (k : Nat) : Nat := max 1000 (min (s.rd timB (F.TIM_EVT1_PERIOD.ix k)) secNs)

/-- Whether NS has reached a multiple of PERIOD in the carrier cycle that has just ended (R317). -/
def State.syncDue (s : State) (k : Nat) : Bool :=
  decide (s.time.ft % (2 ^ 32 * secNs) % (2 ^ 32 * s.syncPeriod k) < s.rd64 timB F.TIM_INC_LO_INC F.TIM_INC_HI_INC)

/-- Whether time sync may start a pulse on pin `k`: no pulse of an earlier owner is in progress, and it has started none in this
carrier cycle (R317). -/
def State.syncMay (s : State) (k : Nat) : Bool :=
  let at' := mget (fun _ => 0) s.time.pinSync k
  (!s.pulsing k || at' != 0) && at' != s.clock + 1

/-- Time sync drives a pulse, WIDTH by 4 ns, at each multiple of PERIOD; an earlier owner's pulse in progress ends first (R317). -/
def execSyncPulse (k : Nat) (s : State) : Host.Outcome State Fault Refusal :=
  guardUnit s (decide (k < 4))
    (if s.pinOwner k = 1 ∧ s.rootOk = true ∧ s.syncDue k = true ∧ s.syncMay k = true then
       s.pulse k (5 * atLeast1 (s.rd timB (F.TIM_EVT0_WIDTH.ix k))) true
     else s)

/-- Whether a slot waits for a trigger edge of this kind on pin `k` (R326, R343). -/
def State.pfEdge (s : State) (k : Nat) (rise : Bool) : Bool :=
  (List.range 2).any (fun i =>
    let v := mget (fun _ => ({} : Pf)) s.pfs i
    s.rd pfB (F.PF_SLOT0_STATE.ix i) == 1 && v.held && v.pin == k && v.fall != rise)

/-- An edge on an input pin is captured for its owner: for a snapshot the first edge of its
polarity outside a step (R304, R326), for the debug unit each edge. -/
def execTimeEvtEdge (k : Nat) (e : PinEdge) (s : State) : Host.Outcome State Fault Refusal :=
  guardUnit s (decide (k < 4))
    (let first := (mget (fun _ => none) s.time.pinIn k : Option Nat).isNone && s.time.step.isNone && s.pfEdge k e.rise
     if (s.pinOwner k = 2 ∧ first = true) ∨ s.pinOwner k = 4 then
       s.updTime (fun u => { u with pinIn := mset (fun _ => none) u.pinIn k (some e.t) })
     else s)

/-- Whether the gates of NI `n` start an entry with MARK and a nonzero interval at `t` ns since the epoch (R282). -/
def markStart : List GateEntry → Nat → Bool
  | [], _ => false
  | e :: r, x => if x = 0 ∧ 0 < e.2.2 then e.2.1 else if x < e.2.2 then false else markStart r (x - e.2.2)

/-- Whether NI `n`'s gate list has a marker at `t`: a pending list counts from its start (R278, R282). -/
def State.marksAt (s : State) (n t : Nat) : Bool :=
  let b := niB n
  let x := s.ni n
  let pend := match x.gatePend with
    | some g => decide (g ≤ t)
    | none => false
  let base := if pend then x.gatePend.getD 0 else s.word64 (b + 0x720)
  let c := if pend then s.admCycle n else s.rd b F.NI_GATE_OPER_CYCLE_CYCLE
  let es := if pend then s.gateBank n 0x3000 (s.admLen n) else s.gateBank n 0x3800 (s.rd b F.NI_GATE_OPER_LEN_LEN)
  s.flag b F.NI_GATE_CTL_EN && (pend || x.gateLive) && decide (base ≤ t) && decide (0 < c) && markStart es ((t - base) % c)

/-- An NI announces a marker instant, in whole ns since the epoch, once it is 2 µs ahead: queued, merged within 100 ns of
another, or late (R318). -/
def State.announce (s : State) (n t : Nat) : State :=
  let b := niB n
  let k := s.rd b F.NI_GATE_CTL_MARK_PIN
  if s.flag b F.NI_GATE_CTL_MARK_EN && s.pinOwner k == 3 && s.pinNi k == n && s.marksAt n t then
    let q := mget (fun _ => []) s.time.markq k
    let now := s.wholeNs s.rootStamp
    if now + 2000 < t then s
    else if t < now + 1000 then s.count timB F.TIM_EVT_LATE_CNT_COUNT 1
    else if q.any (fun u => decide (u < t + 100) && decide (t < u + 100)) then s
    else if 16 ≤ q.length then s.count timB F.TIM_EVT_LATE_CNT_COUNT 1
    else s.updTime (fun u => { u with markq := mset (fun _ => []) u.markq k (q ++ [t]) })
  else s

def execMarkerAnnounce (n t : Nat) (s : State) : Host.Outcome State Fault Refusal :=
  guardUnit s (s.hasNi n) (s.announce n t)

/-- The Time Unit drives the marker pulse whose instant has come, while the pin is claimed for markers. -/
def execMarkerPulse (k : Nat) (s : State) : Host.Outcome State Fault Refusal :=
  guardUnit s (decide (k < 4))
    (match (mget (fun _ => []) s.time.markq k : List Nat) with
     | [] => s
     | h :: r =>
       if s.wholeNs s.rootStamp < h then s
       else
         let s1 := s.updTime (fun u => { u with markq := mset (fun _ => []) u.markq k r })
         if s.pinOwner k = 3 then s1.pulse k 10 false else s1)

end Sys2Proof.Machine
end

