-- ==== Sys2Proof/Machine/Routes.lean ====
section
/-! DEFINITION. Route checks and the per-route bound (R131 to R135, R157, R158, R235, R236), SC0 and SC1 reservations (R232,
R233, R267, R497), and the commands that set them. -/

namespace Sys2Proof.Machine

/-! ### Walking a path (R133) -/

/-- The router and input port at which the packets of table `t` enter the plane. -/
def routeStart (rom : Rom) (t : Nat) : Nat × Nat :=
  if t < 256 then ((niRec rom t).rtr, (niRec rom t).port) else ((spanRec rom (t - 256)).rtr, (spanRec rom (t - 256)).port)

/-- Walk path fields `k` to `n - 1` from router `r`, entered on port `i`: the outputs taken as (router, port), or the REASON
of the first failure. `fuel` is the number of fields left. -/
def walk (rom : Rom) (e path : Nat) : Nat → Nat → Nat → Nat → Except Nat (List (Nat × Nat))
  | 0, _, _, _ => .ok []
  | fuel + 1, k, r, i =>
    let o := pathField path k
    if (rtrRec rom r).radix ≤ o ∨ farKind rom r o = 0 then .error 0x03
    else if rom.turn r i o = false then .error 0x04
    else
      match linkOf rom r o with
      | none => .error 0x03
      | some l =>
        if fuel = 0 then
          if (e < 256 ∧ l.farKind = 2 ∧ l.farIndex = e) ∨ (256 ≤ e ∧ l.farKind = 3 ∧ l.farIndex = e - 256) then .ok [(r, o)]
          else .error 0x06
        else if l.farKind ≠ 1 then .error 0x05
        else match walk rom e path fuel (k + 1) l.farIndex l.farPort with
          | .ok w => .ok ((r, o) :: w)
          | .error x => .error x

/-- The outputs that entry `e` of table `t` takes with a path and hop count. -/
def routeWalk (rom : Rom) (t e path nhops : Nat) : Except Nat (List (Nat × Nat)) :=
  let st := routeStart rom t
  walk rom e path nhops 0 st.1 st.2

/-- A link of a route as the bound sees it: the regions of its upstream and downstream ends, STAGES and crossing. -/
def routeLinks (rom : Rom) (t : Nat) (w : List (Nat × Nat)) : List (Nat × Nat × Nat × Bool) :=
  let st := routeStart rom t
  let first : Nat := if t < 256 then (niRec rom t).region else (spanRec rom (t - 256)).region
  let one (up down : Nat) (l : Option LinkRec) : Nat × Nat × Nat × Bool :=
    (up, down, (l.map (fun x => x.stages)).getD 0, (l.map rom.xing).getD false)
  one first (rtrRec rom st.1).region (linkOf rom st.1 st.2) ::
    w.map (fun h =>
      let down := match farEnd rom (.rtr 0 h.1 h.2) with
        | some f => regionOf rom f
        | none => 0
      one (rtrRec rom h.1).region down (linkOf rom h.1 h.2))

/-- REGMASK of a route (R121): every region of an end of one of its links. -/
def routeMask (ls : List (Nat × Nat × Nat × Bool)) : Nat := ls.foldl (fun a l => a ||| 2 ^ l.1 ||| 2 ^ l.2.1) 0

/-- XINGS of a route. -/
def routeXings (ls : List (Nat × Nat × Nat × Bool)) : Nat := (ls.filter (fun l => l.2.2.2)).length

/-! ### The bound (R235, R236) -/

/-- The period between segments of one packet for a round trip (R158). -/
def segPeriod (depth rt : Nat) : Nat := if depth = 8 then max 4 ((rt + 4) / 2) else rt + 7 - depth

/-- The slower of two regions at frequencies `f`. -/
def slower (f : Nat → Nat) (a b : Nat) : Nat := if f b < f a then b else a

/-- Cycle terms of one link: region and cycles. -/
def linkTerms (f : Nat → Nat) (l : Nat × Nat × Nat × Bool) : List (Nat × Nat) :=
  let (u, d, s, x) := l
  (slower f u d, 1 + s) :: (if x = false then []
    else if f u = f d then [(d, 2)] else if f d < f u then [(d, 3), (u, 1)] else [(d, 3), (u, 4)])

/-- The round trip of a link in cycles of its slower end (R156, R158, R176). -/
def linkRt (f : Nat → Nat) (l : Nat × Nat × Nat × Bool) : Nat :=
  let (u, d, s, x) := l
  (if x = false then 5 else if f u = f d then 9 else 15) + 2 * s

/-- The sum of cycle terms in units of 0.125 ns with 0.300 ns of alignment, as a fraction, rounded up. -/
def roundTerms (f : Nat → Nat) (ts : List (Nat × Nat)) : Nat :=
  let per := (List.range 16).map (fun g => (g, (ts.filter (fun t => t.1 == g)).foldl (fun a t => a + t.2) 0))
  let q := per.foldl (fun (a : Nat × Nat) t => if t.2 = 0 then a else (a.1 * f t.1 + 8000 * t.2 * a.2, a.2 * f t.1)) (12, 5)
  cdiv q.1 (max q.2 1)

/-- The bound of a route in units of 0.125 ns at frequencies `f`, for a contention budget and a largest packet. -/
def routeBound (rom : Rom) (f : Nat → Nat) (t : Nat) (w : List (Nat × Nat)) (q maxseg : Nat) : Nat :=
  let ls := routeLinks rom t w
  let p := ls.foldl (fun a l => max a (segPeriod rom.vcDepth (linkRt f l))) 0
  let mask := routeMask ls
  let gs := (List.range 16).filter (fun g => bitAt mask g)
  let slow := gs.foldl (slower f) (gs.headD 0)
  roundTerms f (w.map (fun h => ((rtrRec rom h.1).region, 4)) ++ ls.flatMap (linkTerms f)
    ++ [(slow, 4 * q * maxseg + (maxseg - 1) * (p + 3))])

/-- GLB.SC0_CFG.Q. -/
def State.sc0Q (s : State) : Nat := s.rd glbB F.GLB_SC0_CFG_Q
/-- MAXSEG for the entries of table `t`; a Span port's table has none and counts one segment. [DEDUCED: log 43] -/
def State.tabMaxSeg (s : State) (t : Nat) : Nat := if t < 256 then s.maxSeg t else 1

/-- What a checked entry gives: computed bound, REGMASK and XINGS. -/
abbrev RouteInfo := Nat × Nat × Nat

/-- The checks of R133 on an entry of table `t`: its figures, or REASON. [DEDUCED: log 43, 44] -/
def State.routeCheck (s : State) (t e : Nat) (x : Entry) : Except Nat RouteInfo :=
  let tabOk := if t < 256 then decide (t < s.rom.nis.length) else decide (t - 256 < s.rom.spans.length)
  if tabOk = false ∨ entryWired s.rom t e = true then .error 0x01
  else if x.nhops = 0 ∨ 16 < x.nhops then .error 0x02
  else match routeWalk s.rom t e x.path x.nhops with
    | .error r => .error r
    | .ok w =>
      let b := routeBound s.rom s.mhz t w s.sc0Q (s.tabMaxSeg t)
      let ls := routeLinks s.rom t w
      if x.rep = true ∧ x.bound ≠ 0 ∧ x.bound < b then .error 0x07
      else if x.rep = true ∧ 65535 < b then .error 0x08
      else .ok (b, routeMask ls, routeXings ls)

/-- The regions that hold back a route or reservation command: a step runs there, or its floors are still owed (R241). -/
def State.stepMask (s : State) : Nat :=
  (List.range s.rom.regions.length).foldl (fun a g => if s.rgState g = 7 then a ||| 2 ^ g else a) s.floorStep

/-- The regions that a path crosses, as far as it can be walked. -/
def State.pathMask' (s : State) (t e path nhops : Nat) : Nat :=
  match routeWalk s.rom t e path nhops with
  | .ok w => routeMask (routeLinks s.rom t w)
  | .error _ => 0

/-- Whether a route command waits (R241). -/
def State.routeHeld (s : State) (t e path nhops : Nat) : Bool := s.pathMask' t e path nhops &&& s.stepMask != 0

/-- A floor recomputation is owed (R240). -/
def State.floorsDue (s : State) : State := s.wr glbB F.GLB_SC0_STAT_FLOOR_BUSY 1

/-- The reply of ROUTE_SET and ROUTE_CHECK (R135, R495): a reply other than OK carries what its opcode's table names and no more
(R483), which for ROUTE_REJECT is byte 0. [DEDUCED: log 45] -/
def State.routeReply (s : State) (x reason bound : Nat) : State :=
  if reason = 0 then s.reply x 0 (leBytes 2 0 ++ leBytes 2 bound) else s.reply x 0x000E (leBytes 1 reason)

/-- The entry that ROUTE_SET's parameters spell. -/
def setEntryOf (c : Cmd) : Entry :=
  { path := c.p 32 64, nhops := c.p 96 5, valid := true, rep := c.p 101 1 == 1, unchk := false, pol := c.p 102 2
    bound := c.p 104 16, regmask := 0, xings := 0 }

/-- BOUND as an entry can hold it: a computed bound above its 16 bits, which R133 lets pass where REP is 0, leaves a value that
the spec does not state. [DEDUCED: log 44] -/
def boundField (b : Nat) : Nat := if b < 2 ^ 16 then b else (Config.wideBound b).toNat

/-- ROUTE_SET: check, compute, write all four words with UNCHK 0, and owe the floors (R131, R135, R240). [DEDUCED: log 44] -/
def State.routeSet (s : State) (x : Nat) (c : Cmd) : State :=
  let t := c.p 0 16
  let e := c.p 16 16
  let y := setEntryOf c
  match s.routeCheck t e y with
  | .error r => s.routeReply x r 0
  | .ok (b, mask, xs) =>
    let bound := if y.bound = 0 then boundField b else y.bound
    let s := s.setEntry t e { y with path := y.path % 16 ^ y.nhops, bound := bound, regmask := mask, xings := xs }
    s.floorsDue.routeReply x 0 bound

def execRouteSet (x : Nat) (s : State) : Host.Outcome State Fault Refusal :=
  .next (match s.cmd x with
    | none => s
    | some c =>
      if s.routeHeld (c.p 0 16) (c.p 16 16) (c.p 32 64) (c.p 96 5) then s
      else s.runCmd x 0x10 [(0, 120)] (fun c s => s.routeSet x c))

/-- ROUTE_CHECK: the checks on an entry as it stands (R132). -/
def State.routeRecheck (s : State) (x : Nat) (c : Cmd) : State :=
  let t := c.p 0 16
  let e := c.p 16 16
  let y := s.entry t e
  match s.routeCheck t e y with
  | .error r => s.routeReply x r 0
  | .ok (b, mask, xs) =>
    let bound := if y.rep && y.bound == 0 then b else y.bound
    let s := s.setEntry t e { y with unchk := false, bound := bound, regmask := mask, xings := xs }
    s.floorsDue.routeReply x 0 bound

def execRouteCheck (x : Nat) (s : State) : Host.Outcome State Fault Refusal :=
  .next (match s.cmd x with
    | none => s
    | some c =>
      let y := s.entry (c.p 0 16) (c.p 16 16)
      if s.routeHeld (c.p 0 16) (c.p 16 16) y.path y.nhops then s
      else s.runCmd x 0x11 [(0, 32)] (fun c s => s.routeRecheck x c))

/-! ### SC0 reservations (R228, R232, R233, R242, R497) -/

/-- Whether reservation `k` of NI `n` is granted. -/
def State.rsvLive (s : State) (n k : Nat) : Bool :=
  s.rd (niB n) (F.NI_SC0_RSV0_VALID.ix k) == 1 && s.rd (niB n) (F.NI_SC0_RSV0_GRANTED.ix k) == 1

/-- The flows of a reservation: its entry and, with RESP, the way back from a local destination (R232). -/
def rsvFlows (n e : Nat) (resp : Bool) : List (Nat × Nat) := (n, e) :: (if resp && decide (e < 256) then [(e, n)] else [])

/-- The flows of every granted reservation but one. -/
def State.grantedFlows (s : State) (skip : Option (Nat × Nat)) : List (Nat × Nat) :=
  ((List.range s.rom.nis.length).flatMap (fun n => (List.range 16).flatMap (fun k =>
    if skip ≠ some (n, k) ∧ s.rsvLive n k = true then
      rsvFlows n (s.rd (niB n) (F.NI_SC0_RSV0_ENTRY.ix k)) (s.rd (niB n) (F.NI_SC0_RSV0_RESP.ix k) == 1)
    else []))).eraseDups

/-- The outputs of a flow. -/
def State.flowPath (s : State) (f : Nat × Nat) : List (Nat × Nat) :=
  let x := s.entry f.1 f.2
  match routeWalk s.rom f.1 f.2 x.path x.nhops with
  | .ok w => w
  | .error _ => []

/-- Whether two flows meet (R232). -/
def State.meet (s : State) (a b : Nat × Nat) : Bool := (s.flowPath a).any (fun h => (s.flowPath b).contains h)

/-- What R233 finds wrong with a flow: not SC0-fit (1), or a BOUND below the computed one (2) with that bound. -/
def State.flowFault (s : State) (f : Nat × Nat) : Option (Nat × Nat) :=
  let x := s.entry f.1 f.2
  if x.sc0Fit = false then some (1, 0)
  else match routeWalk s.rom f.1 f.2 x.path x.nhops with
    | .error _ => some (1, 0)
    | .ok w =>
      let b := routeBound s.rom s.mhz f.1 w s.sc0Q (s.maxSeg f.1)
      if x.bound < b then some (2, b) else none

/-- The first flow of a list that meets more than Q others. -/
def State.crowded (s : State) (l : List (Nat × Nat)) : Option (Nat × Nat) :=
  l.find? (fun a => decide (s.sc0Q < (l.filter (fun b => b != a && s.meet a b)).length))

/-- The checks of R233 on a reservation: RREASON with its detail bytes, or none. -/
def State.rsvCheck (s : State) (n k e : Nat) (resp : Bool) : Option (List Byte) :=
  let mine := rsvFlows n e resp
  let bad := mine.findSome? (fun f => (s.flowFault f).map (fun r => (f, r)))
  match bad with
  | some (f, r) => some (leBytes 2 r.1 ++ leBytes 2 f.1 ++ leBytes 2 f.2 ++ leBytes 2 r.2)
  | none =>
    match s.crowded (mine ++ s.grantedFlows (some (n, k))).eraseDups with
    | some f => some (leBytes 2 3 ++ leBytes 2 f.1 ++ leBytes 2 f.2 ++ leBytes 2 0)
    | none => none

/-- Region `g` in a state (R504, R534): PCR.STAT.INST shows the home region's. -/
def State.rgGo (s : State) (g st : Nat) : State :=
  if s.rgState g = st then s
  else
    let s := if g = s.rom.homeRegion ∧ (st = 1 ∨ st = 2) ∧ (s.rgState g = 0 ∨ s.rgState g = 5) then { s with intKept := s.intLevels } else s
    let s := s.wr pcrB (F.PCR_RG_STAT_STATE.ix g) st
    let s := if g = s.rom.homeRegion then s.wr pcrB F.PCR_STAT_INST st else s
    s.rgEvent g 3

/-- Every IDLE region of a mask is brought to Run. -/
def State.rouse (s : State) (mask : Nat) : State :=
  (List.range s.rom.regions.length).foldl (fun a g => if bitAt mask g ∧ a.rgState g = 1 then a.rgGo g 0 else a) s

/-- The regions that a flow of a granted reservation crosses are held in RUN: one in IDLE comes back (R242).
[DEDUCED: log 46] -/
def State.holdRuns (s : State) : State :=
  let m := (s.grantedFlows none).foldl (fun a f => a ||| (s.entry f.1 f.2).regmask) 0
  (s.wr pcrB F.PCR_SC0_PIN_RUN m).rouse m

/-- RSV_SC0. -/
def State.rsvSc0 (s : State) (x : Nat) (c : Cmd) : State :=
  let n := c.p 0 8
  let k := c.p 8 4
  let e := c.p 16 9
  let resp := c.p 26 1 == 1
  if s.hasNi n = false ∨ entryWired s.rom n e = true then s.reply x 0x0003 []
  else match s.rsvCheck n k e resp with
    | some d => s.reply x 0x000F d
    | none =>
      let b := niB n
      let s := ((((s.wr b (F.NI_SC0_RSV0_ENTRY.ix k) e).wr b (F.NI_SC0_RSV0_MODE.ix k) (c.p 25 1)).wr
        b (F.NI_SC0_RSV0_RESP.ix k) (c.p 26 1)).wr b (F.NI_SC0_RSV1_GAP.ix k) (c.p 48 16))
      let s := (s.wr b (F.NI_SC0_RSV0_VALID.ix k) 1).wr b (F.NI_SC0_RSV0_GRANTED.ix k) 1
      let s := s.updNi n (fun y => { y with rsvSl := mset (fun _ => 63) y.rsvSl k (c.p 32 6) })
      s.holdRuns.reply x 0 []

/-- Whether the flows of a reservation cross a region in a step (R241). -/
def State.rsvHeld (s : State) (n e : Nat) (resp : Bool) : Bool :=
  (rsvFlows n e resp).any (fun f => (s.entry f.1 f.2).regmask &&& s.stepMask != 0)

def execRsvSc0 (x : Nat) (s : State) : Host.Outcome State Fault Refusal :=
  .next (match s.cmd x with
    | none => s
    | some c =>
      if s.rsvHeld (c.p 0 8) (c.p 16 9) (c.p 26 1 == 1) then s
      else s.runCmd x 0x12 [(0, 12), (16, 11), (32, 6), (48, 16)] (fun c s => s.rsvSc0 x c))

/-- RSV_SC0_FREE. -/
def State.rsvSc0Free (s : State) (x : Nat) (c : Cmd) : State :=
  let n := c.p 0 8
  let k := c.p 8 4
  if s.hasNi n = false then s.reply x 0x0003 []
  else
    let s := (s.wr (niB n) (F.NI_SC0_RSV0_VALID.ix k) 0).wr (niB n) (F.NI_SC0_RSV0_GRANTED.ix k) 0
    let s := s.updNi n (fun y => { y with rsvSl := mset (fun _ => 63) y.rsvSl k 63 })
    s.holdRuns.reply x 0 []

def execRsvSc0Free (x : Nat) (s : State) : Host.Outcome State Fault Refusal :=
  .next (match s.cmd x with
    | none => s
    | some c =>
      let n := c.p 0 8
      let k := c.p 8 4
      let b := niB n
      if s.rd b (F.NI_SC0_RSV0_VALID.ix k) == 1 && s.rsvHeld n (s.rd b (F.NI_SC0_RSV0_ENTRY.ix k)) (s.rd b (F.NI_SC0_RSV0_RESP.ix k) == 1) then s
      else s.runCmd x 0x13 [(0, 12)] (fun c s => s.rsvSc0Free x c))

/-! ### SC1 reservations (R267, R497) -/

/-- The sum of RATE over the granted shapers of NI `n`, shaper `k` counted with `rate`. -/
def State.rateSum (s : State) (n k rate : Nat) : Nat :=
  (List.range 16).foldl (fun a j =>
    if j = k then a + rate
    else if s.rd (niB n) (shpGranted j) = 1 then a + s.rd (niB n) (shpRate j) else a) 0

/-- RSV_SC1. -/
def execRsvSc1 (x : Nat) (s : State) : Host.Outcome State Fault Refusal :=
  .next (s.runCmd x 0x14 [(0, 12), (16, 6), (32, 16), (48, 16)] (fun c s =>
    let n := c.p 0 8
    let k := c.p 8 4
    let rate := c.p 32 16
    let sum := s.rateSum n k rate
    if s.hasNi n = false then s.reply x 0x0003 []
    else if s.rd (niB n) F.NI_SC1_CAP_CAP < sum then s.reply x 0x000F (leBytes 2 4 ++ leBytes 4 sum ++ leBytes 2 0)
    else
      let s := ((s.wr (niB n) (shpRate k) rate).wr (niB n) (shpBurst k) (c.p 48 16)).wr (niB n) (shpGranted k) 1
      (s.updNi n (fun y => { y with shpSl := mset (fun _ => 63) y.shpSl k (c.p 16 6) })).reply x 0 []))

/-- RSV_SC1_FREE. -/
def execRsvSc1Free (x : Nat) (s : State) : Host.Outcome State Fault Refusal :=
  .next (s.runCmd x 0x15 [(0, 12)] (fun c s =>
    let n := c.p 0 8
    let k := c.p 8 4
    if s.hasNi n = false then s.reply x 0x0003 []
    else
      let s := s.wr (niB n) (shpGranted k) 0
      (s.updNi n (fun y => { y with shpSl := mset (fun _ => 63) y.shpSl k 63 })).reply x 0 []))

/-! ### General commands (R496) -/

/-- PING: STR.BOOT. -/
def execPing (x : Nat) (s : State) : Host.Outcome State Fault Refusal :=
  .next (s.runCmd x 0x00 [] (fun _ s => s.reply x 0 (leBytes 4 (s.word (strB + 4)).toNat)))

/-- STR.CMD_STAT as it reads (R502). -/
def State.cmdStat (s : State) : Nat :=
  bitsPut (bitsPut (s.word (strB + 0x20)).toNat 0 5 s.active.length) 8 6 (s.cmdQ.filter (fun c => c.path == 2)).length

/-- INFO: firmware version, GEN_ID and command status. -/
def execInfo (x : Nat) (s : State) : Host.Outcome State Fault Refusal :=
  .next (s.runCmd x 0x01 [] (fun _ s =>
    s.reply x 0 (leBytes 4 (s.rd strB F.STR_FW_VER_VER) ++ leBytes 4 s.rom.genId ++ leBytes 4 s.cmdStat)))

/-- The owner code and claimant NI of a claimed resource: 0 pin, 1 capture timer, 2 resequencer buffer. -/
def State.claimOf (s : State) (kind i : Nat) : Nat × Nat :=
  match kind with
  | 0 => (s.pinOwner i, if s.pinOwner i = 3 then s.pinNi i else 0)
  | 1 => ((s.ni i).timer, 0)
  | _ => ((s.ni i).reseqOwner, 0)

/-- Whether a KIND and INDEX name a resource. -/
def State.claimOk (s : State) (kind i : Nat) : Bool :=
  kind != 3 && (if kind = 0 then decide (i < 4) else s.hasNi i)

/-- CLAIM_STATUS. -/
def execClaimStatus (x : Nat) (s : State) : Host.Outcome State Fault Refusal :=
  .next (s.runCmd x 0x02 [(0, 2), (8, 8)] (fun c s =>
    if s.claimOk (c.p 0 2) (c.p 8 8) then
      let (o, n) := s.claimOf (c.p 0 2) (c.p 8 8)
      s.reply x 0 (leBytes 1 o ++ leBytes 1 n)
    else s.reply x 0x0003 []))

/-- AUTH_SET: one word of STR.CMD_AUTH and REMOTE_CMD; the NI mirrors follow before the reply. -/
def execAuthSet (x : Nat) (s : State) : Host.Outcome State Fault Refusal :=
  .next (s.runCmd x 0x05 [(0, 3), (8, 1), (32, 32)] (fun c s =>
    ((s.wr strB (F.STR_CMD_AUTH_MASK.ix (c.p 0 3)) (c.p 32 32)).wr strB F.STR_CTL_REMOTE_CMD (c.p 8 1)).reply x 0 []))

end Sys2Proof.Machine
end

