-- ==== Sys2Proof/Machine/View.lean ====
section
/-! DEFINITION. What status registers show: the words whose fields mirror the queues, buffers, tables and counters that a
network interface or a router holds outside its registers, and the registers that an index selects. -/

namespace Sys2Proof.Machine

/-- A word with one field replaced. -/
def put (f : Fld) (v : Nat) (w : Word) : Word := BitVec.ofNat 32 (bitsPut w.toNat f.lo f.w v)

/-- Resequencer entries held for reordering (R403, R419). -/
def NiSt.rsqHeld (x : NiSt) : Nat := x.heldPkts.length

/-- Packets held for a closed region (R513, R533). -/
def NiSt.pwrHeld (x : NiSt) : Nat := (x.waiting.filter (fun p => p.hold.isSome)).length

/-- The selected queue of NI `n`, none where NI.Q_IDX selects nothing (R285). -/
def State.qSel (s : State) (n : Nat) : Option Nat :=
  let q := s.rd (niB n) F.NI_Q_IDX_QUEUE
  if q < schedSize s.rom n then some q else none

/-- The words that act on the selected queue (R285). -/
def queueWord (q : Queue) (rel : Nat) : Nat :=
  match rel with
  | 0x508 => q.cls + 4 * b2n q.en + 16 * q.shaper
  | 0x50C => match q.pend with
    | some (a, b) => a + 65536 * b
    | none => q.quantum + 65536 * q.depth
  | 0x510 => q.occ + 65536 * b2n (!q.pkts.isEmpty) + 2 ^ 17 * b2n (decide (q.lim ≤ q.occ)) + 2 ^ 18 * b2n q.pend.isSome
  | 0x514 => q.vt
  | 0x518 => q.sdLast + 65536 * q.sdMax
  | _ => q.dlLast + 65536 * q.dlMax

/-- UNCHK entries of a route table (R139, R590). -/
def State.unchkCnt (s : State) (t : Nat) : Nat :=
  ((List.range 260).filter (fun e => (s.entry t e).valid && (s.entry t e).unchk)).length

/-- The word of NI `n` at `rel` as a read sees it, over the stored word `w` (R102, R139, R223, R285, R335, R419, R443). -/
def State.viewNi (s : State) (n rel : Nat) (w : Word) : Word :=
  let x := s.ni n
  if 0x508 ≤ rel ∧ rel ≤ 0x51C then
    (match s.qSel n with
     | some q => BitVec.ofNat 32 (queueWord (x.q q) rel)
     | none => 0)
  else if 0x520 ≤ rel ∧ rel ≤ 0x52C then
    BitVec.ofNat 32 (if bigSched s.rom n then x.vtime.getD ((rel - 0x520) / 4) 0 else 0)
  else if 0x588 ≤ rel ∧ rel < 0x680 ∧ (rel - 0x588) % 16 = 0 then
    BitVec.ofInt 32 (let c := (x.shaper ((rel - 0x588) / 16)).credit / 8
                     if c < 0 then c + 2 ^ 24 else c) &&& 0xFFFFFF#32
  else if 0x2600 ≤ rel ∧ rel < 0x26FC then
    let sl := (rel - 0x2600) / 4
    BitVec.ofNat 32 (x.sliceTags sl + 65536 * x.sliceFlits sl)
  else if 0x2800 ≤ rel ∧ rel < 0x2A00 then BitVec.ofNat 32 (bitsAt x.migF (32 * ((rel - 0x2800) / 4)) 32)
  else match rel with
    | 0x10C => put F.NI_TAG_USE_IN_USE x.tags.length w
    | 0x200 => put F.NI_RTAB_CTRL_UNCHK_CNT (s.unchkCnt n) w
    | 0x214 => BitVec.ofNat 32 (mget (fun _ => 0) x.mcg (8 * s.rd (niB n) F.NI_MCG_IDX_GROUP + s.rd (niB n) F.NI_MCG_IDX_WORD))
    | 0x304 => put F.NI_ORD_STAT_SB_EMPTY (b2n x.sbHeld.isEmpty) w
    | 0x308 => put F.NI_SB_USE_ENTRIES x.sbSers.length (put F.NI_SB_USE_BYTES x.sbBytes w)
    | 0x324 => put F.NI_RSV_STAT_ENTRIES x.rsvs.length w
    | 0x534 => BitVec.ofNat 32 ((BitVec.ofInt 16 x.rem2).toNat + 65536 * (BitVec.ofInt 16 x.rem3).toNat)
    | 0x548 => put F.NI_BUF_STAT_USED (x.lowFlits + x.highFlits) w
    | 0xD08 => put F.NI_RSQ_STAT_HELD x.rsqHeld (put F.NI_RSQ_STAT_FLITS x.heldFlits w)
    | 0xE04 => BitVec.ofNat 32 (mget (fun _ => 0) x.pid (s.rd (niB n) F.NI_PID_IDX_ENTRY))
    | 0xE44 => put F.NI_MIG_STAT_HELD x.migHeld.length w
    | 0xF04 => put F.NI_PWR_STAT_HELD x.pwrHeld w
    | _ => w

/-- A number with bit `i` set where `f i` holds, for every `i` below `k`. -/
def bitsWhere (k : Nat) (f : Nat → Bool) : Nat := (List.range k).foldl (fun a i => if f i then a + 2 ^ i else a) 0

/-- The word of router `r` of plane `p` at `rel` as a read sees it, over the stored word `w` (R182, R183). -/
def State.viewRtr (s : State) (p r rel : Nat) (w : Word) : Word :=
  let rad := (rtrRec s.rom r).radix
  if rel = 0x54 then
    BitVec.ofNat 32 (bitsWhere rad (fun q => (s.port (.rtr p r q)).loaded)
      + 65536 * bitsWhere rad (fun q => (s.port (.rtr p r q)).fault))
  else if 0x80 ≤ rel ∧ rel < 0xE0 then
    let q := (rel - 0x80) / 8
    let v0 := if (rel - 0x80) % 8 = 0 then 0 else 8
    if q < rad then
      BitVec.ofNat 32 ((List.range 8).foldl (fun a i => a + (s.port (.rtr p r q)).cred.getD (v0 + i) 0 % 16 * 16 ^ i) 0)
    else 0
  else w

/-- The NODE_IDX words of the Time Unit (R322). -/
def State.viewTime (s : State) (rel : Nat) (w : Word) : Word :=
  let r := s.rd timB F.TIM_NODE_IDX_NODE
  let v := s.node r
  if rel = 0x5C then BitVec.ofNat 32 s.holdMs
  else if rel = 0x6C then (if r < s.rom.rtrs.length then BitVec.ofNat 32 (v.dly % 65536) else 0)
  else if rel = 0x70 then
    (if r < s.rom.rtrs.length then
      BitVec.ofNat 32 (b2n (s.nodeOk r) + 2 * b2n (v.cal || isRoot s.rom r) + 4 * b2n v.frozen + 8 * b2n (s.passNode r) + 16 * b2n v.track
        + 65536 * (BitVec.ofInt 16 v.mean).toNat)
     else 0)
  else w

end Sys2Proof.Machine
end

