-- ==== Sys2Proof/Machine/Photo.lean ====
section
/-! DEFINITION. Photo Finish snapshots (R325 to R335) and evidence records (R336 to R345). -/

namespace Sys2Proof.Machine

/-! ### Participants and banks (R325, R335) -/

/-- Every participant of an instance. -/
def sites (rom : Rom) : List Site :=
  .time :: (List.range rom.nis.length).map .ni ++ (List.range rom.rtrs.length).map (.rtr 0)
    ++ (List.range rom.rtrs.length).map (.rtr 1) ++ (List.range rom.spans.length).map .span

/-- Whether the instance has a participant. -/
def State.hasSite (s : State) : Site → Bool
  | .ni n => s.hasNi n
  | .rtr p r => s.hasRtr p r
  | .span k => s.hasSpan k
  | .time => true

/-- The region of a participant. -/
def siteRegion (rom : Rom) : Site → Nat
  | .ni n => (niRec rom n).region
  | .rtr _ r => (rtrRec rom r).region
  | .span k => (spanRec rom k).region
  | .time => rom.homeRegion

/-- The base of the bank of slot `k` in a participant. -/
def bankB (k : Nat) : Site → Nat
  | .ni n => niB n + 0xC00 + 0x40 * k
  | .rtr p r => rtrB p r + 0x200 + 0x40 * k
  | .span j => spB j + 0x800 + 0x40 * k
  | .time => timB + 0x100 + 0x40 * k

/-- Word 2 of a bank: STATE, TIME_INVALID, EXCLUDED and the arm number. -/
def State.setBank (s : State) (k : Nat) (u : Site) (state : Nat) (bad excl : Bool) (arm : Nat) : State :=
  s.setWord (bankB k u + 8) (BitVec.ofNat 32 (state + 4 * b2n bad + 8 * b2n excl + 256 * arm))

/-- STATE of a bank. [DESIGN CHOICE: log 50] -/
def State.bankState (s : State) (k : Nat) (u : Site) : Nat := bitsAt (s.word (bankB k u + 8)).toNat 0 2

/-- Whether Fabric Time is valid at a participant (R294). -/
def State.siteTimeOk (s : State) : Site → Bool
  | .ni n => s.niTimeOk n
  | .rtr _ r => s.nodeOk r
  | .span k => s.nodeOk (spanRec s.rom k).rtr
  | .time => s.rootOk

/-- Words 3 onward of a capture at local time `t`. [DESIGN CHOICE: log 50] -/
def State.bankWords (s : State) (t : Stamp) : Site → List Nat
  | .ni n =>
    let b := niB n
    let v (rel : Nat) : Nat := (s.viewNi n rel (s.word (b + rel))).toNat
    let g := s.gateShow n (s.wholeNs t)
    [bitsAt (v 0x548) 0 11 + 65536 * bitsAt (v 0x308) 0 6, v 0x10C, s.rd b F.NI_LATE_CNT_COUNT, s.rd b F.NI_LAT_MAX_VALUE,
     s.rd b F.NI_ADM_REFUSE_CNT_COUNT, v 0x534, g.rd b F.NI_GATE_STAT_GATES + 256 * g.rd b F.NI_GATE_STAT_ENTRY,
     (s.ni n).rsqHeld, s.rd b F.NI_SC0_SKEW_CNT_COUNT]
  | .rtr p r =>
    let b := rtrB p r
    let rad := (rtrRec s.rom r).radix
    let held (q : Nat) : Nat := if q < rad then (s.port (.rtr p r q)).vcs.foldl (fun a v => a + v.buf.length) 0 else 0
    [(s.viewRtr p r 0x54 0).toNat, bitsWhere rad (fun q => (s.port (.rtr p r q)).owner.isSome),
     s.rd b F.RTR_OVERRUN_CNT_COUNT, s.rd b F.RTR_PREEMPT_CNT_COUNT, s.rd b F.RTR_RTE_DROP_CNT_COUNT]
      ++ (List.range 3).map (fun w => (List.range 4).foldl (fun a i => a + min (held (4 * w + i)) 255 * 256 ^ i) 0)
  | .span k =>
    let b := spB k
    [s.rd b F.SP_L_STAT_LSTATE + 16 * s.rd b F.SP_L_STAT_WIDTH, s.rd b F.SP_L_REPLAY_CNT_COUNT,
     s.rd b F.SP_L_FEC_CORR_CNT_COUNT, s.rd b F.SP_L_FEC_UNCORR_CNT_COUNT, s.rd b F.SP_TIME_CFG_LAST_O]
  | .time => [(s.word (timB + 4)).toNat % 65536, (s.word (timB + 0x3C)).toNat, s.rd timB F.TIM_SKEW_NOW]

/-! ### Slots (R332) -/

/-- Snapshot slot `k`. -/
def State.pf (s : State) (k : Nat) : Pf := mget (fun _ => {}) s.pfs k
/-- The state with slot `k` holding `v`. -/
def State.setPf (s : State) (k : Nat) (v : Pf) : State := { s with pfs := mset (fun _ => {}) s.pfs k v }
/-- STATE of slot `k`. -/
def State.pfState (s : State) (k : Nat) : Nat := s.rd pfB (F.PF_SLOT0_STATE.ix k)
/-- The state with slot `k` in a state. -/
def State.pfGo (s : State) (k v : Nat) : State := s.wr pfB (F.PF_SLOT0_STATE.ix k) v

/-- T_c of slot `k` as a stamp. -/
def State.pfTc (s : State) (k : Nat) : Stamp :=
  BitVec.ofInt 64 (((s.pf k).tc : Int) - 256 * (s.epoch * secNs : Nat))

/-- Free the spare timers and the pin of slot `k` (R327, R334). -/
def State.pfFree (s : State) (k : Nat) : State :=
  let v := s.pf k
  let s := v.timers.foldl (fun a n =>
    if (a.ni n).timer = 1 ∧ (a.ni n).timerSlot = k then a.updNi n (fun x => { x with timer := 0, timerSlot := 0 }) else a) s
  let s := if v.held then s.freePin v.pin 2 else s
  s.setPf k { v with timers := [], held := false }

/-- Slot `k` back to IDLE with its banks EMPTY and nothing held (R334). -/
def State.pfIdle (s : State) (k : Nat) : State :=
  let s := (s.pfFree k).give 1 k
  let s := (sites s.rom).foldl (fun a u => a.setWord (bankB k u + 8) 0) s
  (s.setPf k {}).pfGo k 0

/-- Slot `k` enters CANCELLED (R333). -/
def State.pfCancel (s : State) (k : Nat) : State :=
  ((s.setPf k { s.pf k with got := [] }).pfGo k 5).give 1 k

/-- A slot that holds pin `k` loses it to time sync; one that waits for its edge is cancelled (R333, R500). -/
def State.pfPinLost (s : State) (k : Nat) : State :=
  (List.range 2).foldl (fun a i =>
    if (a.pf i).held = false ∨ (a.pf i).pin ≠ k then a
    else
      let a := a.setPf i { a.pf i with held := false }
      if a.pfState i = 1 then (a.pfCancel i).glEvent 2 1 else a) s

/-- A reset covers participant `u` between arm and collection (R330). -/
def State.pfLost (s : State) (u : Site) : State :=
  (List.range 2).foldl (fun a i =>
    if a.pfState i = 2 then a.setPf i { a.pf i with lost := u :: (a.pf i).lost, got := (a.pf i).got.filter (fun v => v != u) }
    else a) s

/-! ### Arming (R326 to R328) -/

/-- The NIs whose spare timer a snapshot claims: those of regions in Run or Idle. -/
def State.pfNis (s : State) : List Nat :=
  (List.range s.rom.nis.length).filter (fun n => decide (s.rgState (niRec s.rom n).region ≤ 1))

/-- PF_ARM: the checks of R327 in their order, up to the request for leave. A late histogram that has claimed its timer in the same
cycle loses it (R499). [DESIGN CHOICE: log 50] -/
def State.pfArm (s : State) (x : Nat) (c : Cmd) : State :=
  let k := c.p 0 1
  let mode := c.p 1 2
  let pin := c.p 4 2
  let excl := c.p 6 1 == 1
  let v := c.p 64 32
  let now := s.time.ft / 2 ^ 24
  let tc := 256 * (c.p 16 48 * secNs + v)
  let fit := if mode = 0 then decide (now + 256 * 1000 ≤ tc) && decide (tc ≤ now + 256 * 60 * secNs)
    else mode == 1 && decide (1000 ≤ v) && decide (v ≤ 1000000) && c.p 16 48 == 0
  let taken (n : Nat) : Bool := (s.ni n).timer == 2 && !s.claimedNow (timerRes n)
  let hist := s.pfNis.filter taken
  let busy := s.pfNis.filter (fun n => (s.ni n).timer == 1 || (taken n && !excl))
  if fit = false then s.reply x 0x0003 []
  else if s.pfState k ≠ 0 ∨ (s.pf k).cmd.isSome = true then s.reply x 0x0006 []
  else if s.rootOk = false ∨ s.time.step.isSome = true then s.reply x 0x000A []
  else if mode = 1 ∧ s.pinFree pin 2 0 = false then s.reply x 0x0009 []
  else match busy with
    | n :: _ => s.reply x 0x0009 (leBytes 2 n)
    | [] =>
      let mine := s.pfNis.filter (fun n => (s.ni n).timer != 1 && !taken n)
      let s := mine.foldl (fun a n =>
        let a := if (a.ni n).timer = 2 then a.wr (niB n) F.NI_LATE_CFG_HIST_EN 0 else a
        a.updNi n (fun y => { y with timer := 1, timerSlot := k })) s
      let s := if mode = 1 then s.claimPin pin 2 0 else s
      (s.setPf k { cmd := some x, mode := mode, pin := pin, fall := c.p 7 1 == 1, held := mode == 1, dly := v, tc := tc, excl := hist, timers := mine }).ask 1 k

def execPfArm (x : Nat) (s : State) : Host.Outcome State Fault Refusal :=
  .next (s.runCmd x 0x80 [(0, 1), (1, 2), (4, 2), (6, 1), (7, 1), (16, 48), (64, 32)] (fun c s => s.pfArm x c))

/-- Write T_c into a slot's registers as a stamp. -/
def State.pfShow (s : State) (k : Nat) : State := s.setWord64 (pfB + 0x20 * k + 8) (s.pfTc k).toNat

/-- Leave is granted to the PF_ARM of slot `k`: the slot is ARMED, or waits for its pin, and the command is answered. A step
decided meanwhile refuses it (R304, R327). [DESIGN CHOICE: log 50] -/
def State.pfGranted (s : State) (k : Nat) : State :=
  let v := s.pf k
  match v.cmd with
  | none => s.give 1 k
  | some x =>
    if s.time.step.isSome then (s.pfIdle k).reply x 0x000A []
    else
    let b := pfB
    let arm := s.rd b (F.PF_SLOT0_ARM_NUM.ix k) + 1
    let s := s.setPf k { v with cmd := none }
    let s := ((s.wr b (F.PF_SLOT0_MODE.ix k) v.mode).wr b (F.PF_SLOT0_PIN.ix k) (if v.mode = 1 then v.pin else 0)).wr b
      (F.PF_SLOT0_ARM_NUM.ix k) arm
    let s := if v.mode = 0 then (s.pfShow k).pfGo k 2
      else (s.updTime (fun t => { t with pinIn := mset (fun _ => none) t.pinIn v.pin none })).pfGo k 1
    s.reply x 0 []

/-- Leave has not been granted within 100 µs. -/
def execPfArmLeaveTmo (slot : Nat) (s : State) : Host.Outcome State Fault Refusal :=
  guardUnit s (decide (slot < 2))
    (match (s.pf slot).cmd with
     | none => s
     | some x => if s.hasLeave 1 slot then s else ((s.pfIdle slot).reply x 0x0007 []))

/-- PF_STATUS: the first six words of PF.SLOT. -/
def execPfStatus (x : Nat) (s : State) : Host.Outcome State Fault Refusal :=
  .next (s.runCmd x 0x81 [(0, 1)] (fun c s => s.reply x 0 (s.getBytes (pfB + 0x20 * c.p 0 1) 6)))

/-- PF_RELEASE. [DESIGN CHOICE: log 50] -/
def execPfRelease (x : Nat) (s : State) : Host.Outcome State Fault Refusal :=
  .next (s.runCmd x 0x82 [(0, 1)] (fun c s =>
    let k := c.p 0 1
    if s.pfState k = 1 ∨ s.pfState k = 2 ∨ (s.pf k).cmd.isSome = true then s.reply x 0x0006 []
    else (s.pfIdle k).reply x 0 []))

/-- PF_CANCEL. -/
def execPfCancel (x : Nat) (s : State) : Host.Outcome State Fault Refusal :=
  .next (s.runCmd x 0x83 [(0, 1)] (fun c s =>
    let k := c.p 0 1
    if s.pfState k = 1 ∨ (s.pfState k = 2 ∧ s.time.ft / 2 ^ 24 < (s.pf k).tc) then (s.pfCancel k).reply x 0 []
    else s.reply x 0x0006 []))

/-- The first accepted edge on the trigger pin fixes T_c (R326). -/
def execPfPinTrigger (slot : Nat) (s : State) : Host.Outcome State Fault Refusal :=
  guardUnit s (decide (slot < 2))
    (let v := s.pf slot
     match (mget (fun _ => none) s.time.pinIn v.pin : Option Nat) with
     | none => s
     | some t =>
       if s.pfState slot ≠ 1 then s
       else
         let s := s.updTime (fun u => { u with pinIn := mset (fun _ => none) u.pinIn v.pin none })
         ((s.setPf slot { v with tc := t + 256 * v.dly }).pfShow slot).pfGo slot 2)

/-! ### Capture and collection (R329 to R331) -/

/-- Whether a region stands still for a capture: Sleep or deeper, or waking. [DESIGN CHOICE: log 50] -/
def State.rgStill (s : State) (g : Nat) : Bool := [2, 3, 4, 6].contains (s.rgState g)

/-- The arm broadcast reaches participant `u` at local time `t`. -/
def execPfArmReceive (slot : Nat) (u : Site) (t : Stamp) (s : State) : Host.Outcome State Fault Refusal :=
  guardUnit s (decide (slot < 2) && s.hasSite u)
    (let v := s.pf slot
     let arm := s.rd pfB (F.PF_SLOT0_ARM_NUM.ix slot)
     let left := match u with
       | .ni n => v.excl.contains n
       | _ => false
     if s.pfState slot ≠ 2 ∨ s.bankState slot u ≠ 0 ∨ v.got.contains u = true
         ∨ [3, 4].contains (s.rgState (siteRegion s.rom u)) = true then s
     else if left then s.setBank slot u 0 false true arm
     else if 0 < stampDiff t (s.pfTc slot) then s.setBank slot u 2 false false arm
     else s.setPf slot { v with got := u :: v.got })

/-- Participant `u` captures at local time `t`, its first fc edge at or after T_c. [DESIGN CHOICE: log 5] -/
def execPfCapture (slot : Nat) (u : Site) (t : Stamp) (s : State) : Host.Outcome State Fault Refusal :=
  guardUnit s (decide (slot < 2) && s.hasSite u)
    (let v := s.pf slot
     let arm := s.rd pfB (F.PF_SLOT0_ARM_NUM.ix slot)
     if s.pfState slot ≠ 2 ∨ v.got.contains u = false ∨ s.bankState slot u ≠ 0 ∨ stampDiff t (s.pfTc slot) < 0 then s
     else if s.rgStill (siteRegion s.rom u) then s.setBank slot u 3 false false arm
     else
       let b := bankB slot u
       let ws := s.bankWords t u
       let s := (s.setWord64 b t.toNat).setBank slot u 1 (!s.siteTimeOk u) false arm
       ws.zipIdx.foldl (fun a w => a.setWord (b + 12 + 4 * w.2) (BitVec.ofNat 32 w.1)) s)

/-! ### Evidence records (R336 to R342) -/

/-- The 4-bit state of Span port `k` in a record (R338, R585). [DEDUCED: log 52] -/
def State.spanNibble (s : State) (k : Nat) : Nat :=
  let b := spB k
  let role := s.rd b F.SP_TIME_CFG_ROLE
  let timed := if role ≠ 1 ∧ role ≠ 2 then 0
    else if s.rd b F.SP_L_STAT_STATE = 5 ∧ s.time.spanMiss.contains k = false then 1 else 2
  s.rd b F.SP_L_STAT_LSTATE + 4 * timed

/-- The 2-bit state of a plane in a record (R338). [DEDUCED: log 52] -/
def State.planeCode (s : State) (p : Nat) : Nat :=
  let st := s.rd strB (if p = 0 then F.STR_PLN_STAT_STATE_A else F.STR_PLN_STAT_STATE_B)
  if bitAt s.evd.plane p || st == 5 then 3 else match st with
    | 0 => 0
    | 3 => 2
    | _ => 1

/-- HEAD_SEQ. -/
def State.headSeq (s : State) : Nat := s.rd64 pfB F.PF_HEAD_SEQ_LO_SEQ F.PF_HEAD_SEQ_HI_SEQ
/-- The SEQ that the next record takes (R338, R342). -/
def State.nextRecSeq (s : State) : Nat := if s.flag pfB F.PF_EVD_STAT_HEAD_VALID then s.headSeq + 1 else 0
/-- The slots of the ring. -/
def State.ringLen (s : State) : Nat := 2 ^ s.rd pfB F.PF_RING_SIZE_LOG2

/-- FLAGS of a record. [DEDUCED: log 52] -/
def State.recFlags (s : State) (kind : Nat) (part : Bool) : Nat :=
  let e := s.evd
  b2n s.rootOk + 2 * s.rd timB F.TIM_STAT_TRACE + 4 * b2n (decide (0 < e.skip)) + 8 * b2n e.step
    + 16 * b2n (decide (0 < e.crcMm)) + 32 * s.rd evtB F.EVT_STAT_QUAR + 64 * b2n (e.crcHold || s.flag evtB F.EVT_CTL_HOLD)
    + 128 * b2n e.rst + 256 * b2n e.wake + 512 * b2n (s.evKey.all (fun b => b == 0)) + 1024 * b2n (kind == 3 && part)

/-- The bytes of a record at Fabric Time `at'`, in 2^-32 ns (R338, R339). -/
def State.record (s : State) (kind at' : Nat) (part : Bool) : List Byte :=
  let e := s.evd
  let t := if s.rootOk then at' else 0
  let sum (f : NiSt → Nat) : Nat := (List.range s.rom.nis.length).foldl (fun a n => a + f (s.ni n)) 0
  let prev := if s.flag pfB F.PF_EVD_STAT_HEAD_VALID then s.getBytes (pfB + 0x130) 8 else List.replicate 32 0
  let body := leBytes 4 0x52454456 ++ leBytes 1 1 ++ leBytes 1 kind ++ leBytes 2 (s.recFlags kind part)
    ++ leBytes 8 s.nextRecSeq ++ leBytes 6 (t / (2 ^ 32 * secNs)) ++ leBytes 2 (t % 2 ^ 32 / 2 ^ 16) ++ leBytes 4 (t / 2 ^ 32 % secNs)
    ++ leBytes 2 s.instNum ++ leBytes 1 (s.rd timB F.TIM_STAT_STATE + 8 * s.rd timB F.TIM_CTL_SRC)
    ++ leBytes 1 (s.planeCode 0 + 4 * s.planeCode 1) ++ leBytes 4 (s.word (timB + 0x3C)).toNat ++ leBytes 4 e.offMax
    ++ leBytes 2 e.skewMax
    ++ leBytes 2 ((List.range s.rom.spans.length).foldl (fun a k => a + s.spanNibble k * 16 ^ k) 0)
    ++ leBytes 4 s.holdMs ++ leBytes 4 (sum (fun x => x.evLate)) ++ leBytes 4 (sum (fun x => x.evSkip))
    ++ leBytes 4 (s.rd evtB F.EVT_CRC_REF_REF) ++ leBytes 2 (min e.crcMm 65535) ++ leBytes 2 (min e.skip 65535) ++ prev
  body ++ (if s.evKey.all (fun b => b == 0) then List.replicate 32 0 else hmacSha256 s.evKey (body.take 96))

/-- Whether the ring has no room (R340). [DESIGN CHOICE: log 51] -/
def State.ringFull (s : State) : Bool :=
  (s.rd pfB F.PF_RING_WR_SLOT + 1) % s.ringLen == s.rd pfB F.PF_RING_RD_SLOT

/-- RING_FULL and HELD as they stand. -/
def State.evShow (s : State) : State :=
  let e := s.evd
  let held := e.held.length - (if e.fly.isSome && e.fails == 0 then 1 else 0)
  (s.wr pfB F.PF_EVD_STAT_RING_FULL (b2n s.ringFull)).wr pfB F.PF_EVD_STAT_HELD (min held 8)

/-- The packets of a record's write, from the system queue of NI `n` on tag `t` (R340). -/
def evQps (s : State) (t gen ser : Nat) (addr : Nat) (data : List Byte) (d : Dst) : List Qp :=
  d.legs.map (fun l =>
    { ser := ser, ptype := 0, op := 1, vn := 0, sc := 2, e := l.e.getD 260, dest := l.dest, len := l.len
      addr := if d.split then l.addr else addr, tag := t, gen := gen, isReq := true, mc := d.split
      payload := (data.drop l.off).take l.len, f := flitsOf l.len, off := l.off, offer := s.clock, part := l.part
      dev := d.dev })

/-- Send the oldest record that is not written: the first free tag of EVD.RING_NI takes it. A record that cannot be decoded
ends with its status at once. [DESIGN CHOICE: log 51] -/
def State.evSend (s : State) : State :=
  match s.evd.held with
  | [] => s
  | r :: _ =>
    let n := s.rd pfB F.PF_RING_NI_NI
    let slot := leNat ((r.drop 8).take 8) % s.ringLen
    let addr := s.word64 (pfB + 0x108) / 128 * 128 + 128 * slot
    let x := s.ni n
    let s1 := { s with evd := { s.evd with fly := some n, retry := false } }
    let q : AqReq := { code := 1, addr := BitVec.ofNat 64 addr, len := 128, sc := 2 }
    match s.decodeDst n 1 q with
    | .error st => s1.updNi n (fun y => { y with evRes := some st })
    | .ok d =>
      if x.tags.length < 512 ∧ s.hasNi n = true then
        let t := x.freeTagNo
        let (ser, x) := x.fresh
        let nparts := d.legs.foldl (fun a l => max a (l.part + 1)) 0
        let parts := (List.range nparts).map (fun i =>
          let l := d.legs.find? (fun l => l.part == i)
          { ni := (l.map (fun l => l.ni)).getD 0, node := (l.map (fun l => l.dest)).getD 0 : Part })
        let g : Tag := { ser := ser, id := 0, code := 1, sc := 2, rsc := 2, slice := 63, pid := 0, addr := addr, len := 128
                         dkey := d.key, split := d.split, parts := parts, cto := d.cto, nqueued := d.legs.length, evd := true }
        let qps := evQps s t (x.gen t) ser addr r d
        s1.setNi n { (x.setTag t (some g)).admitSys (x.sysPend ++ qps) with evRes := none }
      else s

/-- Write on where a record waits, nothing is in flight, no retry is due and the ring has room (R341). -/
def State.evPump (s : State) : State :=
  let e := s.evd
  (if e.held.isEmpty || e.fly.isSome || e.retry || s.ringFull then s else s.evSend).evShow

/-- An interval is not recorded. -/
def State.evMiss (s : State) : State :=
  let s := (s.count pfB F.PF_SKIP_CNT_COUNT 1).wr pfB F.PF_EVD_STAT_SKIP 1
  { s with evd := { s.evd with skip := s.evd.skip + 1 } }

/-- Build a record at Fabric Time `at'`, in 2^-32 ns: the chain's head moves to it and a new span starts. While eight records
are held none is built (R341). [DESIGN CHOICE: log 51] -/
def State.emitRec (s : State) (kind at' : Nat) (part : Bool) : State :=
  if 8 ≤ s.evd.held.length then s.evMiss.evPump
  else
    let r := s.record kind at' part
    let seq := s.nextRecSeq
    let s := (((s.wr64 pfB F.PF_HEAD_SEQ_LO_SEQ F.PF_HEAD_SEQ_HI_SEQ seq).putBytes (pfB + 0x130) (sha256 r)).wr pfB
      F.PF_EVD_STAT_HEAD_VALID 1)
    let s := if kind = 0 then s.wr pfB F.PF_EVD_STAT_CHAIN_NEW 1 else s
    let s := forAll s.rom.nis.length (fun n a => a.updNi n (fun x => { x with evLate := 0, evSkip := 0 })) s
    let e := s.evd
    { s with evd := { e with
      held := e.held ++ [r], offMax := 0, skewMax := 0, step := false, crcMm := 0, crcHold := false, plane := 0
      rst := false, wake := false, skip := 0 } }.evPump

/-- Evidence stops once a STOP record is written or held, and each waiting EV_STOP is answered (R343). -/
def State.evStopped (s : State) : State :=
  let l := s.evd.stop
  l.foldl (fun a x => a.reply x 0 []) ({ s with evd := { s.evd with stop := [] } }.wr pfB F.PF_EVD_CTL_EN 0)

/-- EV_START. -/
def execEvStart (x : Nat) (s : State) : Host.Outcome State Fault Refusal :=
  .next (s.runCmd x 0x88 [] (fun _ s =>
    let l := s.rd pfB F.PF_RING_SIZE_LOG2
    if l < 4 ∨ 16 < l ∨ s.rom.nis.length ≤ s.rd pfB F.PF_RING_NI_NI then s.reply x 0x0003 []
    else if s.flag pfB F.PF_EVD_CTL_EN then s.reply x 0x0006 []
    else
      let s := s.wr pfB F.PF_EVD_CTL_EN 1
      let first := match s.evd.held with
        | r :: _ => leNat ((r.drop 8).take 8)
        | [] => s.nextRecSeq
      let s := (s.wr pfB F.PF_RING_WR_SLOT (first % s.ringLen)).evShow
      let s := if s.flag pfB F.PF_EVD_STAT_HEAD_VALID then s.evPump else s.emitRec 0 s.time.ft false
      s.reply x 0 []))

/-- EV_STOP. [DESIGN CHOICE: log 51] -/
def execEvStop (x : Nat) (s : State) : Host.Outcome State Fault Refusal :=
  .next (s.runCmd x 0x89 [] (fun _ s =>
    if s.flag pfB F.PF_EVD_CTL_EN = false then s.reply x 0x0006 []
    else
      let s := (s.emitRec 4 s.time.ft false)
      let s := { s with evd := { s.evd with stop := s.evd.stop ++ [x] } }
      if s.evd.fly.isSome && s.evd.held.length == 1 then s else s.evStopped))

/-- EV_MARK. -/
def execEvMark (x : Nat) (s : State) : Host.Outcome State Fault Refusal :=
  .next (s.runCmd x 0x8A [] (fun _ s =>
    if s.flag pfB F.PF_EVD_CTL_EN = false then s.reply x 0x0006 []
    else (s.emitRec 2 s.time.ft false).reply x 0 []))

/-- EV_STATUS: HEAD_SEQ and HEAD_HASH. -/
def execEvStatus (x : Nat) (s : State) : Host.Outcome State Fault Refusal :=
  .next (s.runCmd x 0x8B [] (fun _ s => s.reply x 0 (leBytes 8 s.headSeq ++ s.getBytes (pfB + 0x130) 8)))

/-- PERIOD in force, ms (R344). -/
def State.evPeriod (s : State) : Nat := min (atLeast1 (s.rd pfB F.PF_EVD_CTL_PERIOD)) 60000

/-- An interval boundary at `t` ns since the epoch: a multiple of PERIOD while Fabric Time is valid at the root. None is
taken while the home region sleeps. -/
def execEvdBoundary (t : Nat) (s : State) : Host.Outcome State Fault Refusal :=
  .next
    (if s.flag pfB F.PF_EVD_CTL_EN = false ∨ s.rgStill s.rom.homeRegion = true
        ∨ (s.rootOk = true ∧ t % (s.evPeriod * 1000000) ≠ 0) then s
     else s.emitRec 1 (2 ^ 32 * (t + s.epoch * secNs)) false)

/-- The write of the oldest record has ended: it is written, or it stays held for one retry, and a second failure is a ring
fault (R341). -/
def execEvdWriteResult (s : State) : Host.Outcome State Fault Refusal :=
  .next
    (match s.evd.fly with
     | none => s
     | some n => match (s.ni n).evRes with
       | none => s
       | some st =>
         let s := s.updNi n (fun x => { x with evRes := none })
         let e := s.evd
         let s :=
           if st = 0 then
             let seq := leNat (((e.held.headD []).drop 8).take 8)
             ({ s with evd := { e with held := e.held.drop 1, fly := none, fails := 0 } }.wr pfB F.PF_RING_WR_SLOT
               ((seq + 1) % s.ringLen)).evPump
           else if e.fails = 0 then { s with evd := { e with fly := none, fails := 1, retry := true } }.evShow
           else
             (({ s with evd := { e with fly := none, fails := 0 } }.wr pfB F.PF_EVD_STAT_RING_FAULT 1).glEvent 2 2).evShow
         if !s.evd.stop.isEmpty then s.evStopped else s)

/-- 1 µs after the first failure the write is tried again. -/
def execEvdRetry (s : State) : Host.Outcome State Fault Refusal :=
  .next (if s.evd.retry then s.evSend.evShow else s)

/-! ### Collection (R331) -/

/-- Whether a participant may still capture: it is not left out, no reset has covered it and its region runs.
[DEDUCED: log 49] -/
def State.pfOpen (s : State) (k : Nat) (u : Site) : Bool :=
  s.bankState k u == 0 && !(s.pf k).lost.contains u && !s.rgStill (siteRegion s.rom u)

/-- Whether NI participant `u` is left out (R327). -/
def Pf.leaves (v : Pf) : Site → Bool
  | .ni n => v.excl.contains n
  | _ => false

/-- The engine gathers the bank states 1 µs after T_c. [DEDUCED: log 49] -/
def State.pfCollect (s : State) (k : Nat) : State :=
  let v := s.pf k
  let us := (sites s.rom).filter (fun u => !v.leaves u)
  if s.pfState k ≠ 2 ∨ s.time.ft / 2 ^ 24 < v.tc + 256 * 1000 ∨ us.any (s.pfOpen k) = true then s
  else
    let arm := s.rd pfB (F.PF_SLOT0_ARM_NUM.ix k)
    let s := us.foldl (fun a u => if a.bankState k u = 0 then a.setBank k u 3 false false arm else a) s
    let num (st : Nat) : Nat := (us.filter (fun u => s.bankState k u == st)).length
    let full := num 1 == us.length
    let b := pfB
    let s1 := (((s.wr b (F.PF_SLOT4_CAPTURED.ix k) (num 1)).wr b (F.PF_SLOT4_MISSED.ix k) (num 2)).wr b
      (F.PF_SLOT5_ABSENT.ix k) (num 3)).wr b (F.PF_SLOT5_EXCLUDED.ix k) v.excl.length
    let s1 := (((s1.pfGo k (if full then 3 else 4)).give 1 k).glEvent 2 0)
    if s1.flag b F.PF_EVD_CTL_SNAP_REC then s1.emitRec 3 (2 ^ 24 * v.tc) (!full) else s1

def execPfCollect (slot : Nat) (s : State) : Host.Outcome State Fault Refusal :=
  guardUnit s (decide (slot < 2)) (s.pfCollect slot)

end Sys2Proof.Machine
end

