-- ==== Sys2Proof/Machine/Cover.lean ====
section
/-! DEFINITION. What resets clear and what stays (R181, R412, R543 to R549): ports, routers and network interfaces under a
reset, live ports beside them, packets completed and packets cut. -/

namespace Sys2Proof.Machine

/-! ### Ports -/

/-- The ports of router `r` of plane `p`. -/
def rtrPorts (rom : Rom) (p r : Nat) : List Port := (List.range (rtrRec rom r).radix).map (.rtr p r)
/-- The ports of plane `p`. -/
def planePorts (rom : Rom) (p : Nat) : List Port :=
  (List.range rom.rtrs.length).flatMap (rtrPorts rom p) ++ (List.range rom.nis.length).map (.ni p)
    ++ (List.range rom.spans.length).map (.span p)
/-- Every port. -/
def allPorts (rom : Rom) : List Port := planePorts rom 0 ++ planePorts rom 1

/-- A live input port whose far end enters reset completes each packet whose tail has not arrived (R547): a router appends
a poisoned tail; at an NI the packet is poisoned and whole. [DESIGN CHOICE: log 54] -/
def State.completeIn (s : State) (o : Port) : State :=
  match o with
  | .rtr p r i => (List.range 16).foldl (fun a v =>
      match (a.port o).vcs[v]? with
      | none => a
      | some c => match c.rx with
        | none => a
        | some q => if q.drop || (a.port o).fault then a.updVc o v (fun c => { c with rx := none })
          else a.buffer p r i (poisonTail v 0) none) s
  | .ni p n => (List.range 16).foldl (fun a v =>
      match (mget (fun _ => none) (a.ni n).rx (p * 16 + v) : Option NiRx) with
      | none => a
      | some m =>
        let a := a.updNi n (fun x => { x with rx := mset (fun _ => none) x.rx (p * 16 + v) none })
        match m with
        | .pk k => match (a.ni n).pk k with
          | none => a
          | some y =>
            (a.updNi n (fun x => x.setPk k (some { y with left := 0, poison := true, final := true }))).whole n k
        | _ => a) s
  | .span p k => (List.range 16).foldl (fun a v =>
      match (a.port o).vcs[v]? with
      | none => a
      | some c => match c.rx with
        | none => a
        | some q =>
          if q.drop then a.updVc o v (fun c => { c with rx := none })
          else a.updVc (.span p k) v (fun c => { c with buf := c.buf ++ [poisonTail v 0], rx := none })) s

/-- The live port `o` beside a region under reset: its counters stay at 0 until they load again (R547). Its wires lie in its own
region and keep what they hold (R174). The station half that the reset region feeds is lost, and in native mode the half on this
side is reset as well (R549, R552); an isolation lasts until the open broadcast of the recovery (R551).
[DESIGN CHOICE: log 123] -/
def State.starve (s : State) (o : Port) : State :=
  s.updPort o (fun x =>
    let y : PortSt := { x with loaded := false, cred := List.replicate 16 0, swire := [], stq := [], stSeg := none }
    if s.g2 then y else { y with stStop := false, stRot := ({} : PortSt).stRot })

/-- A port cleared by a reset that covers its region or its plane, with its wires (R174, R181, R412). -/
def State.clearPort (s : State) (o : Port) (dead : Bool) : State := s.setPort o { dead := dead }

/-- The station queues that a region reset leaves in forerunner mode, toward ports `l` of the region: they stand in the far half,
which flushes on its own (R549, R552). [DESIGN CHOICE: log 123] -/
def State.farQueues (s : State) (l : List Port) : List (Port × List Flit) :=
  if s.g2 then (l.filter (hasXing s.rom)).map (fun o => (o, (s.port o).stq)) else []

/-- What an NI reset leaves of a port: the wires and the station of its link, which it does not cover (R174, R543). -/
def PortSt.linkOnly (x : PortSt) : PortSt :=
  { wire := x.wire, cwire := x.cwire, swire := x.swire, stq := x.stq, stSeg := x.stSeg, stRot := x.stRot, stStop := x.stStop, stIso := x.stIso }

/-- A router port that an NI reset covers while its router lives: a packet of which flits have left is completed by a poisoned
tail, and a FAULT stays, which only a reset of the plane or of the region ends (R161). [DESIGN CHOICE: log 54] -/
def State.clearRtrPort (s : State) (o : Port) (dead : Bool) : State :=
  let x := s.port o
  let vcs := x.vcs.zipIdx.map (fun e => match e.1.tx with
    | some t => if 0 < t.next then ({ buf := [poisonTail e.2 0], tx := some t } : VcSt) else {}
    | none => {})
  s.setPort o { x.linkOnly with dead := dead, vcs := vcs, fault := x.fault }

/-- Keep what a reset must not clear of a live far port: mark what it sees. -/
def State.farSides (s : State) (o : Port) : State := match farEnd s.rom o with
  | none => s
  | some f => if (s.port f).dead then s else s.starve f

/-! ### Captured configuration (R553, R608) -/

/-- The registers that a recovery rewrites for the units of `sel`, by offset: RTR.PRIO, HOLD_LIM and EVT_EN of routers. -/
def rtrCapOffs (p r : Nat) : List Nat := [rtrB p r + 0x40, rtrB p r + 0x44, rtrB p r + 0x104]

/-- Rewrite a router's captured registers. [DEDUCED: log 55] -/
def State.restoreRtr (s : State) (p r : Nat) : State :=
  (rtrCapOffs p r).foldl (fun a o => a.setWord o (mget (resetWord s.rom s.straps) s.captured o)) s

/-! ### Routers and planes -/

/-- The register words of one unit's window return to reset values, but for the fields of `keep`. [DEDUCED: log 55] -/
def State.resetWindow (s : State) (lo size : Nat) (keep : FSpec → Bool) : State :=
  s.resetRegs (fun o => decide (lo ≤ o) && decide (o < lo + size)) keep

/-- A reset that covers router `r` of plane `p` (R181). -/
def State.resetRtr (s : State) (p r : Nat) (dead : Bool) : State :=
  let s := (rtrPorts s.rom p r).foldl (fun a o => a.clearPort o dead) s
  (s.resetWindow (rtrB p r) 0x1000 sticky).pfLost (.rtr p r)

/-- The packets of plane `p` that a plane reset cuts at NI `n` (R412): each is completed with zero bytes, and is poisoned
where its delivery has not begun. Buffered packets keep nothing of their credits. -/
def State.cutPlane (s : State) (n p : Nat) : State :=
  let ks := (s.ni n).pks.filterMap (fun e => match e.2 with
    | some y => if y.plane = p ∧ 0 < y.left then some e.1 else none
    | none => none)
  let s := s.updNi n (fun x => { x with
    rx := x.rx.filter (fun e => e.1 / 16 != p)
    pks := x.pks.map (fun e => (e.1, e.2.map (fun y => if y.plane = p then { y with owed := 0 } else y))) })
  let s := ks.foldl (fun a k => match (a.ni n).pk k with
    | none => a
    | some y =>
      let a := (a.count (niB n) F.NI_RSQ_CUT_CNT_COUNT 1).alert n 12
      if y.begun then a.cutPk n k
      else (a.updNi n (fun x => x.setPk k (some { y with left := 0, poison := true, final := true }))).whole n k) s
  s.wr (niB n) (if p = 0 then F.NI_PLN_ERR_FAULT_A else F.NI_PLN_ERR_FAULT_B) 0

/-- A plane reset (R412): every router, link stage and station of the plane, and the plane ports of NIs and Span ports. The
captured router registers are rewritten (R553). -/
def State.planeReset (s : State) (p : Nat) : State :=
  let s := forAll s.rom.nis.length (fun n a => a.cutPlane n p) s
  let s := (planePorts s.rom p).foldl (fun a o => a.clearPort o (a.port o).dead) s
  let s := forAll s.rom.rtrs.length (fun r a => ((a.resetWindow (rtrB p r) 0x1000 sticky).pfLost (.rtr p r)).restoreRtr p r) s
  s.wr strB (if p = 0 then F.STR_PLN_STAT_TEST_PASS_A else F.STR_PLN_STAT_TEST_PASS_B) 0

/-! ### Network interfaces (R202, R545, R548) -/

/-- What an NI keeps across its own reset and its region's: generations, maps, queue configuration, the slice of each
reservation, the model's serial numbers and what its endpoint port has shown, and the heats of which the reset loses staged actions
before ARM (R389). -/
def NiSt.kept (x : NiSt) : NiSt :=
  { up := false, epLow := x.epLow, recov := true, nextSer := x.nextSer, gens := x.gens, genBase := x.genBase + 1
    qs := x.qs.filterMap (fun e =>
      let v := e.2.refill
      let w : Queue := { cls := v.cls, en := v.en, shaper := v.shaper, quantum := v.quantum, depth := v.depth }
      if w = queueD e.1 then none else some (e.1, w))
    mcg := x.mcg, pid := x.pid, out := x.out, rsvSl := x.rsvSl, shpSl := x.shpSl, closed := x.closed, squash := x.squash, iso := x.iso
    timer := if x.timer = 2 then 0 else x.timer, timerSlot := x.timerSlot
    cut := x.cut ++ x.tgts.filterMap (fun e => e.2.bind (fun g => if [1, 2, 3].contains g.st then some (e.1, g.gen) else none)) }

/-- The claim enables that a region or NI reset clears although they are RW (R545). -/
def State.dropClaims (s : State) (n : Nat) : State :=
  let b := niB n
  let s := forAll 4 (fun k a => if a.pinOwner k = 3 ∧ a.pinNi k = n then a.setPin k 0 0 else a) s
  ((((s.wr b F.NI_RSQ_CTL_REORDER 0).wr b F.NI_MIG_CTL_STAGE 0).wr b F.NI_MIG_CTL_HOLD 0).wr b F.NI_LATE_CFG_HIST_EN 0).wr
    b F.NI_GATE_CTL_MARK_EN 0

/-- The shapers' working sides as their registers give them. -/
def State.loadShapers (s : State) (n : Nat) : State :=
  s.updNi n (fun x => (List.range 16).foldl (fun y k =>
    y.setShaper k { rate := s.rd (niB n) (shpRate k), burst := s.rd (niB n) (shpBurst k) }) x)

/-- The buffered stores of an NI that have not completed, in AQI order: held in the store buffer or already released (R199,
R202). -/
def NiSt.sbTags (x : NiSt) : List Tag :=
  (x.tags.filterMap (fun e => e.2.bind (fun g => if g.sb then some g else none))).foldl (fun l g =>
    l.takeWhile (fun h => decide (h.ser < g.ser)) ++ g :: l.dropWhile (fun h => decide (h.ser < g.ser))) []

/-- A reset discards every buffered store held or not yet complete: each is counted and logged (R202, R543). -/
def State.discardStores (s : State) (n : Nat) : State := (s.ni n).sbTags.foldl (fun a g => a.sbDiscard n g) s

/-- A reset that covers NI `n` (R97, R202, R416, R545): its buffered stores are discarded, and so are the packets held for
reordering, which RSQ_SKIP_CNT counts once it has been reset. An evidence write in flight has failed. The
wires and stations of its links stay, but for those that a reset of its region covers. [DESIGN CHOICE: log 114] -/
def State.resetNi (s : State) (n : Nat) (dead : Bool) : State :=
  let s := s.discardStores n
  let x := s.ni n
  let s := ((s.dropClaims n).resetWindow (niB n) 0x4000 kept545).count (niB n) F.NI_RSQ_SKIP_CNT_COUNT x.heldPkts.length
  let evd := s.evd.fly == some n
  let s := s.setNi n { x.kept with evRes := if evd then some 0x0C else none }
  let port (s : State) (o : Port) : State := s.setPort o { (s.port o).linkOnly with dead := dead }
  (port (port (s.loadShapers n) (.ni 0 n)) (.ni 1 n)).pfLost (.ni n)

end Sys2Proof.Machine
end

