-- ==== Sys2Proof/Machine/Plane.lean ====
section
/-! DEFINITION. Plane control (R398, R408 to R417): plane states and commands, drain, failover, test and reattach, and the
load of credit counters that a plane reset waits for. -/

namespace Sys2Proof.Machine

/-- STATE of plane `p` (R408). -/
def State.plnState (s : State) (p : Nat) : Nat := s.rd strB (if p = 0 then F.STR_PLN_STAT_STATE_A else F.STR_PLN_STAT_STATE_B)
/-- Plane `p` in a state; NIs follow by PLANE_STATE_RECEIVE. -/
def State.plnGo (s : State) (p v : Nat) : State :=
  s.wr strB (if p = 0 then F.STR_PLN_STAT_STATE_A else F.STR_PLN_STAT_STATE_B) v
/-- CAUSE of plane `p`. -/
def State.plnCause (s : State) (p v : Nat) : State :=
  s.wr strB (if p = 0 then F.STR_PLN_STAT_CAUSE_A else F.STR_PLN_STAT_CAUSE_B) v
/-- TEST_PASS of plane `p`. -/
def plnPass (p : Nat) : Fld := if p = 0 then F.STR_PLN_STAT_TEST_PASS_A else F.STR_PLN_STAT_TEST_PASS_B
/-- What waits on plane `p`. -/
def State.pln (s : State) (p : Nat) : PlaneSt := mget (fun _ => {}) s.plst p
/-- What waits on plane `p`, changed. -/
def State.updPln (s : State) (p : Nat) (f : PlaneSt → PlaneSt) : State :=
  { s with plst := mset (fun _ => {}) s.plst p (f (s.pln p)) }

/-! ### Detach (R408, R409, R417) -/

/-- Plane `p` becomes DETACHED and PLANE_DETACH is answered. -/
def State.plnDetached (s : State) (p : Nat) : State :=
  let x := (s.pln p).detach
  ((s.plnGo p 2).updPln p (fun v => { v with detach := none })).replyOpt x 0 []

/-- PLANE_DETACH: MODE 0 drains, MODE 1 detaches at once. -/
def execPlaneDetach (x : Nat) (s : State) : Host.Outcome State Fault Refusal :=
  .next (s.runCmd x 0x60 [(0, 1), (1, 1)] (fun c s =>
    let p := c.p 0 1
    if s.plnState (1 - p) ≠ 0 then s.reply x 0x0015 []
    else if s.plnState p ≠ 0 then s.reply x 0x0006 []
    else
      let s := (s.plnCause p 1).updPln p (fun v => { v with detach := some x })
      if c.p 1 1 = 1 then s.plnDetached p else s.plnGo p 1))

/-- Whether plane `p` is empty (R409). -/
def State.plnEmpty (s : State) (p : Nat) : Bool :=
  (planePorts s.rom p).all (fun o =>
    let x := s.port o
    x.wire.isEmpty && x.stq.isEmpty && x.vcs.all (fun v => v.buf.isEmpty) &&
    match o with
    | .rtr _ _ _ => true
    | _ => x.cred.all (fun c => c == s.rom.vcDepth))

/-- In DRAINING a collect tests each microsecond whether the plane is empty. -/
def execPlaneDrainCheck (p : Nat) (s : State) : Host.Outcome State Fault Refusal :=
  guardUnit s (decide (p < 2)) (if s.plnState p = 1 ∧ s.plnEmpty p = true then s.plnDetached p else s)

/-- DRAIN_TMO: the plane is reset and DETACHED. -/
def execPlaneDrainTmo (p : Nat) (s : State) : Host.Outcome State Fault Refusal :=
  guardUnit s (decide (p < 2)) (if s.plnState p = 1 then ((s.planeReset p).plnCause p 5).plnDetached p else s)

/-! ### Failover (R410, R411) -/

/-- A plane fault reaches the event unit: with AUTO_FAIL an attached plane beside an attached one becomes FAULTED.
[DESIGN CHOICE: log 37] -/
def execPlaneFailover (s : State) : Host.Outcome State Fault Refusal :=
  .next
    (match s.planeFaults with
     | [] => s
     | (p, cause) :: r =>
       let s := { s with planeFaults := r }
       if s.flag strB F.STR_PLN_CFG_AUTO_FAIL && s.plnState p == 0 && s.plnState (1 - p) == 0 then
         (((s.plnGo p 5).plnCause p cause).count strB F.STR_PLN_FAIL_CNT_COUNT 1).glEvent 3 0
       else s)

/-! ### Plane states at NIs (R396, R398, R408, R414) -/

/-- NI `n` follows the state of plane `p` at local time `t`: attached, or rejoined once T_j has passed. A plane that stops
being usable loses its staged packets to the other plane and its waiting second copies. -/
def State.plnFollow (s : State) (n p : Nat) (t : Stamp) : State :=
  let st := s.plnState p
  let tj := BitVec.ofNat 64 (s.word64 (strB + 0x808))
  let on := st == 0 || (st == 4 && decide (0 ≤ stampDiff t tj))
  let s := s.updNi n (fun x => { x with join := if st = 4 ∧ on = false then x.join ||| 2 ^ p else
    (if bitAt x.join p then x.join - 2 ^ p else x.join) })
  let s := s.wr (niB n) (if p = 0 then F.NI_PLN_STAT_ATT_A else F.NI_PLN_STAT_ATT_B) (b2n on)
  if on then s else s.updNi n (fun x => x.dropSys (fun q => q.copyOf == some p))

/-- A plane state broadcast reaches NI `n`. -/
def execPlaneStateReceive (n : Nat) (t : Stamp) (s : State) : Host.Outcome State Fault Refusal :=
  guardUnit s (s.hears n)
    (((s.plnFollow n 0 t).plnFollow n 1 t).wr (niB n) F.NI_PLN_STAT_TEST (b2n (s.plnState 0 == 3 || s.plnState 1 == 3))
      |>.moveStaged n)

/-! ### Test (R413) -/

/-- PLANE_TEST asks for leave. [DESIGN CHOICE: log 53] -/
def execPlaneTest (x : Nat) (s : State) : Host.Outcome State Fault Refusal :=
  .next (s.runCmd x 0x61 [(0, 1)] (fun c s =>
    let p := c.p 0 1
    if s.plnState p ≠ 2 ∨ s.plnState (1 - p) = 3 ∨ (s.pln p).test.isSome = true ∨ (s.pln (1 - p)).test.isSome = true then
      s.reply x 0x0006 []
    else (s.updPln p (fun v => { v with test := some x })).ask 2 p))

/-- The probe of entry `e` from NI `n` on plane `p`: a MGMT read of the destination's PLN_STAT. [DESIGN CHOICE: log 53] -/
def State.probe (s : State) (n e p : Nat) : State :=
  s.updNi n (fun x => ({ x with probes := x.probes ++ [(p, e, 0)] } : NiSt).pushSys
    { ser := 0, ptype := 8, op := 0, vn := 3, sc := 1, e := e, dest := s.nodeId e, len := 4, addr := niB e + 0xD00, tag := e
      offer := s.clock, probe := some p })

/-- Leave is granted to a plane test: the plane is TESTING and every NI sends its probes. A plane that is no longer DETACHED answers
BUSY. -/
def State.testGranted (s : State) (p : Nat) : State :=
  if (s.pln p).test.isNone then s.give 2 p
  else if s.plnState p ≠ 2 then ((s.updPln p (fun v => { v with test := none })).give 2 p).replyOpt (s.pln p).test 0x0006 []
  else
    let s := { s.plnGo p 3 with planeHit := 0 }
    forAll s.rom.nis.length (fun n a =>
      (List.range 256).foldl (fun b e =>
        let r := b.entry n e
        if r.valid ∧ r.unchk = false ∧ entryWired b.rom n e = false then b.probe n e p else b)
        (a.updNi n (fun x => { x with probes := x.probes.filter (fun q => q.1 != p) }))) s

/-- The probes of plane `p` as (NI, entry, passed). -/
def State.probeList (s : State) (p : Nat) : List (Nat × Nat × Bool) :=
  (List.range s.rom.nis.length).flatMap (fun n =>
    (s.ni n).probes.filterMap (fun q => if q.1 = p then some (n, q.2.1, q.2.2 == 1) else none))

/-- A plane test ends, by its last answer or after 20 µs. -/
def State.testEnd (s : State) (p : Nat) : State :=
  if s.plnState p ≠ 3 then s
  else
    let l := s.probeList p
    let bad := l.filter (fun q => !q.2.2)
    let ok := bad.isEmpty && !bitAt s.planeHit p
    let s := match bad with
      | (n, e, _) :: _ => (s.wr strB F.STR_PLN_TEST_LOG_NI n).wr strB F.STR_PLN_TEST_LOG_ENTRY e
      | [] => s
    let s := (s.wr strB (plnPass p) (b2n ok)).plnGo p 2
    let s := forAll s.rom.nis.length (fun n a => a.updNi n (fun x =>
      ({ x with probes := x.probes.filter (fun q => q.1 != p) } : NiSt).dropSys (fun q =>
        q.ptype == 8 && q.op == 0 && q.probe == some p))) s
    let x := (s.pln p).test
    ((s.updPln p (fun v => { v with test := none })).give 2 p).replyOpt x 0
      (leBytes 4 l.length ++ leBytes 4 bad.length ++ leBytes 4 (s.word (strB + 0x814)).toNat)

def execPlaneTestEnd (p : Nat) (s : State) : Host.Outcome State Fault Refusal :=
  guardUnit s (decide (p < 2)) (s.testEnd p)

/-! ### Reattach (R414) -/

/-- PLANE_ATTACH: T_j lies JOIN_LEAD after the root's Fabric Time. -/
def execPlaneAttach (x : Nat) (s : State) : Host.Outcome State Fault Refusal :=
  .next (s.runCmd x 0x62 [(0, 1)] (fun c s =>
    let p := c.p 0 1
    if s.plnState p ≠ 2 then s.reply x 0x0006 []
    else if s.flag strB (plnPass p) = false then s.reply x 0x0003 []
    else if s.rootOk = false then s.reply x 0x000A []
    else
      let tj := s.rootStamp.toNat + 256 * max (s.rd strB F.STR_PLN_CFG_JOIN_LEAD) 100
      ((s.setWord64 (strB + 0x808) tj).plnGo p 4).updPln p (fun v => { v with attach := some x })))

/-- T_j is reached at NI `n`, where the plane becomes usable, or at the Starter, where it becomes ATTACHED. -/
def execPlaneJoin (p : Nat) (n : Option Nat) (t : Stamp) (s : State) : Host.Outcome State Fault Refusal :=
  let tj := BitVec.ofNat 64 (s.word64 (strB + 0x808))
  match n with
  | some n =>
    guardUnit s (decide (p < 2) && s.hasNi n)
      (if bitAt (s.ni n).join p = true ∧ 0 ≤ stampDiff t tj then
         (s.updNi n (fun x => { x with join := x.join - 2 ^ p })).wr (niB n)
           (if p = 0 then F.NI_PLN_STAT_ATT_A else F.NI_PLN_STAT_ATT_B) 1
       else s)
  | none =>
    guardUnit s (decide (p < 2))
      (if s.plnState p = 4 ∧ 0 ≤ stampDiff t tj then
         let x := (s.pln p).attach
         ((s.plnGo p 0).updPln p (fun v => { v with attach := none })).replyOpt x 0 (leBytes 8 tj.toNat)
       else s)

/-! ### Reset and status (R412, R417) -/

/-- Answer PLANE_RESET once every output of the plane that drives a link shows UP (R154). -/
def State.plnUp (s : State) (p : Nat) : State :=
  match (s.pln p).reset with
  | none => s
  | some x =>
    if (planePorts s.rom p).all (fun o => (s.port o).loaded || (farEnd s.rom o).isNone) then
      (s.updPln p (fun v => { v with reset := none })).reply x 0 []
    else s

/-- PLANE_RESET. -/
def execPlaneReset (x : Nat) (s : State) : Host.Outcome State Fault Refusal :=
  .next (s.runCmd x 0x63 [(0, 1)] (fun c s =>
    let p := c.p 0 1
    if s.plnState p ≠ 2 ∧ s.plnState p ≠ 5 then s.reply x 0x0006 []
    else (((s.planeReset p).plnGo p 2).updPln p (fun v => { v with reset := some x })).plnUp p))

/-- The counters of output `o` load (R154). -/
def execCreditLoad (o : Port) (s : State) : Host.Outcome State Fault Refusal :=
  guardUnit s (s.hasPort o) ((s.creditLoad o).plnUp (portPlane o))

/-- PLANE_STATUS: PLN.STAT and PLN.JOIN_T. -/
def execPlaneStatus (x : Nat) (s : State) : Host.Outcome State Fault Refusal :=
  .next (s.runCmd x 0x64 [] (fun _ s => s.reply x 0 (s.getBytes (strB + 0x804) 3)))

end Sys2Proof.Machine
end

