-- ==== Sys2Proof/Machine/HeatNi.lean ====
section
/-! DEFINITION. Heats at a target NI (R350 to R360, R362 to R371, R376 to R379, R384 to R386, R427): staging, conflicts,
votes, commit, arm, apply, and reconciliation. -/

namespace Sys2Proof.Machine

/-! ### Actions and items (R349 to R351) -/

/-- An action of a heat as a STAGE carries it: HID, TNUM, ASEQ, MODE, age stamp and the fields of its record. -/
structure StageMsg where
  hid : Nat
  tnum : Nat
  aseq : Nat
  mode : Nat
  age : Stamp
  kind : Nat
  index : Nat
  len : Nat
  addr : Nat
  data : Nat
  deriving DecidableEq, Repr

/-- The payload of a STAGE or RECONCILE (R350, R364, R386). -/
def stageBytes (node : Nat) (m : StageMsg) : List Byte :=
  leBytes 2 m.hid ++ leBytes 1 m.tnum ++ leBytes 2 m.aseq ++ leBytes 1 m.mode ++ leBytes 2 0 ++ leBytes 8 m.age.toNat
    ++ leBytes 4 (node % 2 ^ 20 + 2 ^ 20 * m.kind) ++ leBytes 2 m.index ++ leBytes 1 m.len ++ leBytes 1 0
    ++ leBytes 8 m.addr ++ leBytes 16 m.data

/-- What a STAGE or RECONCILE payload spells. -/
def stageMsg (l : List Byte) : StageMsg :=
  let f (i k : Nat) : Nat := leNat ((l.drop i).take k)
  { hid := f 0 2, tnum := f 2 1, aseq := f 3 2 % 4096, mode := f 5 1 % 4, age := BitVec.ofNat 64 (f 8 8)
    kind := bitsAt (f 16 4) 20 4, index := f 20 2, len := f 22 1, addr := f 24 8, data := f 32 16 }

/-- The item of an action: its kind, gate actions as one, and the index that names it (R349, R351). -/
def itemKey (kind index : Nat) : Nat × Nat :=
  match kind with
  | 1 => (1, index % 64)
  | 2 => (2, 0)
  | 3 => (2, 0)
  | 7 => (7, 0)
  | _ => (kind, index)

/-- The key of a heat at a target: the instance whose HCU runs it, and its slot. -/
def heatKey (inst hid : Nat) : Nat := inst * 64 + hid % 64

/-- What an NI holds of a heat. -/
def NiSt.tgt (x : NiSt) (k : Nat) : Option Target := mget (fun _ => none) x.tgts k
/-- An NI holding `v` of a heat. -/
def NiSt.setTgt (x : NiSt) (k : Nat) (v : Option Target) : NiSt := { x with tgts := mset (fun _ => none) x.tgts k v }

/-- What an NI holds of the heat of a HID, if it is of that HID's generation. -/
def NiSt.tgtOf (x : NiSt) (inst hid : Nat) : Option Target :=
  match x.tgt (heatKey inst hid) with
  | some g => if g.gen = hid / 64 then some g else none
  | none => none

/-- Every heat that an NI holds something of. -/
def NiSt.targets (x : NiSt) : List (Nat × Target) := x.tgts.filterMap (fun e => e.2.map (fun g => (e.1, g)))

/-- Shadow entries in use (R355). -/
def NiSt.shadowUsed (x : NiSt) : Nat := x.targets.foldl (fun a e => a + e.2.items.length) 0

/-- Whether a staged set has a gate action. -/
def Target.gate (g : Target) : Bool := g.items.any (fun i => i.kind == 2 || i.kind == 3)
/-- GLOCK (R367): a gate action is held from a YES vote until the heat ends here. -/
def NiSt.glock (x : NiSt) : Bool := x.targets.any (fun e => [2, 3, 4, 6].contains e.2.st && e.2.gate)
/-- EP_HELD: a heat holds the endpoint window (R356, R392). -/
def NiSt.epHeld (x : NiSt) : Bool := x.targets.any (fun e => e.2.win)

/-- GO or DISCARD to the endpoint (R358). -/
def State.heatCode (s : State) (n code slot : Nat) : State :=
  s.sbeEvent n (BitVec.ofNat 32 (0x48540000 + 256 * code + slot % 64))

/-- Route entries that a joined instance's heat stages, applies or lets go of at an NI owe the floors (R240).
[DESIGN CHOICE: log 57] -/
def State.farFloors (s : State) (k : Nat) (items : List Shadow) : State :=
  if k / 64 ≠ s.instNum ∧ items.any (fun i => i.kind == 0) = true then s.floorsDue else s

/-- An NI lets go of a heat: its shadow entries, GLOCK and the endpoint window (R365, R382). -/
def State.dropTarget (s : State) (n k : Nat) : State :=
  match (s.ni n).tgt k with
  | none => s
  | some g =>
    let s := (s.updNi n (fun x => x.setTgt k none)).farFloors k g.items
    if g.win then s.heatCode n 2 k else s

/-! ### Messages (R362, R364) -/

/-- Take the first whole message at NI `n` that `f` accepts: its header and payload, and the state without it. -/
def State.takeMsg (s : State) (n : Nat) (f : Hdr → Bool) : Option (Hdr × List Byte × State) :=
  let x := s.ni n
  match x.inbox.find? (fun k => match x.pk k with
    | some p => f p.hdr && p.left == 0
    | none => false) with
  | none => none
  | some k => match x.pk k with
    | none => none
    | some p =>
      some (p.hdr, p.got, (s.setNi n { x with inbox := x.inbox.filter (fun j => j != k) }).dropPk n k)

/-- Send a STAGE_ACK from NI `n` to node `dest` (R364). `disp` is a displaced HID plus 2^16, or 0. -/
def State.stageAck (s : State) (n dest hid aseq status detail disp : Nat) : State :=
  s.pushVn3 n 4 1 dest 63 0 0 0
    (leBytes 2 hid ++ leBytes 2 aseq ++ leBytes 1 status ++ leBytes 1 detail ++ leBytes 2 disp ++ leBytes 1 (disp / 65536)
      ++ leBytes 7 0)

/-! ### Staging (R352, R355 to R357, R378, R379) -/

/-- Whether the heat of key `a` and age `s` is older than that of key `b` and age `t` (R347). -/
def older (a : Nat) (s : Stamp) (b : Nat) (t : Stamp) : Bool :=
  decide (stampDiff s t < 0) || (stampDiff s t == 0 && decide (a < b))

/-- The other heat that holds an item at an NI. -/
def NiSt.holder (x : NiSt) (k : Nat) (item : Nat × Nat) : Option (Nat × Target) :=
  x.targets.find? (fun e => e.1 != k &&
    ((e.2.win && item == (7, 0)) || e.2.items.any (fun i => itemKey i.kind i.index == item)))

/-- The route entry that a ROUTE action's DATA spells (R351). -/
def actEntry (data : Nat) : Entry :=
  let w2 := bitsAt data 64 32
  { path := data % 2 ^ 64, nhops := bitsAt w2 0 5, valid := bitAt w2 5, rep := bitAt w2 6, unchk := false, pol := bitsAt w2 8 2
    bound := bitsAt w2 16 16, regmask := bitsAt data 96 16, xings := bitsAt data 112 5 }

/-- The DATA that spells a checked entry, its reserved bits 0. -/
def entryData (x : Entry) : Nat :=
  x.path % 2 ^ 64 + 2 ^ 64 * (x.nhops % 32 + 32 * b2n x.valid + 64 * b2n x.rep + 256 * (x.pol % 4) + 65536 * (x.bound % 65536))
    + 2 ^ 96 * (x.regmask % 65536 + 65536 * (x.xings % 32))

/-- A ROUTE action as it is staged (R133, R136): the entry with what the checks compute, or REASON.
[DESIGN CHOICE: log 56] -/
def State.routeAct (s : State) (n e data : Nat) : Except Nat Entry :=
  let y := actEntry data
  match s.routeCheck n e y with
  | .error r => .error r
  | .ok (b, mask, xs) =>
    .ok { y with bound := if y.rep && y.bound == 0 then b else y.bound, regmask := mask, xings := xs }

/-- The Starter's checks on an item of a local target (R352, R354): DATA as it is staged, or STATUS and DETAIL.
[DESIGN CHOICE: log 56, 57] -/
def State.itemCheck (s : State) (n kind index data : Nat) : Except (Nat × Nat) Nat :=
  match kind with
  | 0 =>
    match s.routeAct n index data with
    | .error r => .error (4, r)
    | .ok y =>
      let s' := s.setEntry n index y
      let fl := s.grantedFlows none
      if fl.contains (n, index) && ((s'.flowFault (n, index)).isSome || (s'.crowded fl).isSome) then .error (4, 0x80)
      else .ok (entryData y)
  | 4 =>
    if s.rd (niB n) (shpGranted index) = 1 ∧ s.rd (niB n) F.NI_SC1_CAP_CAP < s.rateSum n index (data % 65536) then .error (4, 0x81)
    else .ok data
  | _ => .ok data

/-- An admin gate entry as its pair holds it: bit 0 of GATES reads 1, reserved bits 0 (R285). -/
def gatePair (v : Nat) : Nat := 1 + bitsAt v 1 3 * 2 + bitsAt v 8 1 * 2 ^ 8 + bitsAt v 32 30 * 2 ^ 32

/-- The state with the gate actions of a staged set loaded into NI `n`'s admin bank (R351). -/
def State.loadGates (s : State) (n : Nat) (items : List Shadow) : State :=
  items.foldl (fun a i =>
    match i.kind with
    | 2 => ((a.setWord64 (niB n + 0x710) (i.data % 2 ^ 64)).wr (niB n) F.NI_GATE_ADM_CYCLE_CYCLE (bitsAt i.data 64 32)).wr
        (niB n) F.NI_GATE_ADM_LEN_LEN (bitsAt i.data 96 32)
    | 3 => (a.setWord64 (niB n + 0x3000 + 16 * i.index) (gatePair (i.data % 2 ^ 64))).setWord64 (niB n + 0x3008 + 16 * i.index)
        (gatePair (i.data / 2 ^ 64))
    | _ => a) s

/-- The endpoint heat window (R356, R392): base and size. -/
def State.heatWin (s : State) (n : Nat) : Nat × Nat :=
  let size := 2 ^ (min 40 (max 12 (s.rd (niB n) F.NI_HEAT_EP_CFG_SIZE_LOG2)))
  (s.rd64 (niB n) F.NI_HEAT_EP_BASE_LO_BASE F.NI_HEAT_EP_BASE_HI_BASE / size * size, size)

/-- The target's checks on an action (R136, R352, R356): status and DETAIL, or none. `mine` is what the heat has staged, `far`
says that the heat is a joined instance's, whose Starter does not know this instance's routes and shapers: this instance's makes its
checks when the STAGE arrives. [DESIGN CHOICE: log 57, 59] -/
def State.targetCheck (s : State) (n : Nat) (far : Bool) (mine : List Shadow) (m : StageMsg) : Option (Nat × Nat) :=
  match m.kind with
  | 0 | 4 => if far then (match s.itemCheck n m.kind m.index m.data with
      | .error e => some e
      | .ok _ => none) else none
  | 5 => if m.index < schedSize s.rom n then none else some (3, 0)
  | 2 =>
    let e := (s.loadGates n (mine ++ [{ aseq := m.aseq, kind := 2, index := 0, data := m.data }])).gateCheck n
    if e = 0 then none else some (4, 0x40 + e)
  | 3 => if mine.any (fun i => i.kind == 2) then some (4, 0x48) else none
  | 7 =>
    let (b, size) := s.heatWin n
    if s.flag (niB n) F.NI_HEAT_EP_CFG_EN && decide (b ≤ m.addr) && decide (m.addr + m.len ≤ b + size)
        && decide (m.addr % 16 + m.len ≤ 16) then none else some (3, 0x49)
  | _ => none

/-- Put a staged value in place: a value staged before under the same kind and index is replaced (R355).
[DESIGN CHOICE: log 59] -/
def putShadow (l : List Shadow) (v : Shadow) : List Shadow :=
  if l.any (fun i => i.kind == v.kind && i.index == v.index) then
    l.map (fun i => if i.kind = v.kind ∧ i.index = v.index then v else i)
  else l ++ [v]

/-- Queue an EP_WRITE for AQE as an SC1 WRITE from the HCU's node (R357). [DEDUCED: log 63] -/
def State.epWrite (s : State) (n src disp : Nat) (m : StageMsg) : State :=
  let (k, x) := (s.ni n).fresh
  let p : Pk := { hdr := { ptype := 0, op := 1, len := m.len, slice := 63, src := src, dest := s.nodeId n, addr := m.addr }
                  plane := 0, vc := 1, got := (leBytes 16 m.data).take m.len, ep := some (m.hid, m.aseq, disp) }
  let x := x.setPk k (some p)
  s.setNi n { x with aqq := x.aqq ++ [k] }

/-- DATA as a target stages it: a ROUTE action of a joined instance's heat stands as the checks leave it (R136).
[DESIGN CHOICE: log 57] -/
def State.stagedData (s : State) (n : Nat) (far : Bool) (m : StageMsg) : Nat :=
  if far then (s.itemCheck n m.kind m.index m.data).toOption.getD m.data else m.data

/-- A target stages an action of the heat at HCU node `src`: the state, and the answer (status, DETAIL, displaced heat)
unless it comes with the endpoint's response. [DESIGN CHOICE: log 59] -/
def State.stageAct (s : State) (n src : Nat) (m : StageMsg) : State × Option (Nat × Nat × Nat) :=
  let k := heatKey (src / 256) m.hid
  let gen := m.hid / 64
  let s := match (s.ni n).tgt k with
    | some g => if g.gen = gen then s else s.dropTarget n k
    | none => s
  let g : Target := ((s.ni n).tgt k).getD { gen := gen, st := 1, tnum := m.tnum, age := m.age, cut := (s.ni n).cut.contains (k, gen) }
  let far := src / 256 != s.instNum
  match s.targetCheck n far g.items m with
  | some (st, d) => (s.updNi n (fun x => x.setTgt k (some g)), some (st, d, 0))
  | none =>
    let item := itemKey m.kind m.index
    let (s, disp, lost) := match (s.ni n).holder k item with
      | none => (s, 0, false)
      | some (k', g') =>
        if [3, 4, 6].contains g'.st || !older k m.age k' g'.age then (s, 0, true)
        else
          let s := s.updNi n (fun x => x.setTgt k' (some { g' with
            conflict := true, win := g'.win && item != (7, 0)
            items := g'.items.filter (fun i => itemKey i.kind i.index != item) }))
          (if item = (7, 0) then s.heatCode n 2 k' else s, 65536 + k' % 64 + 64 * g'.gen, false)
    let keep (s : State) (g : Target) : State := s.updNi n (fun x => x.setTgt k (some g))
    if lost then (keep s g, some (1, 0, 0))
    else if m.kind = 7 then
      let s := keep s { g with win := true, ep := true }
      if (s.ni n).epLow then (s, some (5, 0x09, disp))
      else if s.flag (niB n) F.NI_EP_CFG_TGT_EN = false then (s, some (5, 0x0D, disp))
      else (s.epWrite n src disp m, none)
    else
      let items := putShadow g.items { aseq := m.aseq, kind := m.kind, index := m.index, data := s.stagedData n far m }
      if items.length ≠ g.items.length ∧ 512 ≤ (s.ni n).shadowUsed then (keep s g, some (2, 0, disp))
      else ((keep s { g with items := items }).farFloors k items, some (0, 0, disp))

/-- A target receives a STAGE. -/
def execStageReceive (n : Nat) (s : State) : Host.Outcome State Fault Refusal :=
  guardUnit s (s.hasNi n)
    (match s.takeMsg n (fun h => h.ptype == 4 && h.op == 0) with
     | none => s
     | some (h, l, s) =>
       let m := stageMsg l
       match s.stageAct n h.src m with
       | (s, some (st, d, disp)) => s.stageAck n h.src m.hid m.aseq st d disp
       | (s, none) => s)

/-! ### Votes (R363, R367, R369, R376) -/

/-- The HCU's present state of a slot, by HID: none where its generation has moved on. -/
def State.heatNow (s : State) (hid : Nat) : Option Nat :=
  if s.rd hcuB (F.HCU_SLOT1_GEN.ix (hid % 64)) = hid / 64 then some (s.rd hcuB (F.HCU_SLOT0_STATE.ix (hid % 64))) else none

/-- Whether the operation of RKIND `r` for what an NI holds of a heat is on its way to it: on this instance's Relay Tree, or
arrived on the UP link (R583). -/
def State.relayed (s : State) (r inst hid : Nat) (g : Target) : Bool :=
  if inst = s.instNum then (s.heatNow hid).isSome && s.relay == some (r, hid % 64) else g.calls.any (fun c => c.1 == r)

/-- What an NI holds once it has received the operation of RKIND `r`. -/
def Target.heard (g : Target) (r : Nat) : Target := { g with calls := g.calls.filter (fun c => c.1 != r) }

/-- Whether the rate of some granted shaper, with the staged rates, would pass SC1_CAP (R352). -/
def State.stagedRates (s : State) (n : Nat) (items : List Shadow) : Bool :=
  let rate (j : Nat) : Nat := match items.find? (fun i => i.kind == 4 && i.index == j) with
    | some i => i.data % 65536
    | none => s.rd (niB n) (shpRate j)
  let sum := (List.range 16).foldl (fun a j => if s.rd (niB n) (shpGranted j) = 1 then a + rate j else a) 0
  items.any (fun i => i.kind == 4 && s.rd (niB n) (shpGranted i.index) == 1) && decide (s.rd (niB n) F.NI_SC1_CAP_CAP < sum)

/-- The lowest reason of R363 for which a target votes NO, 0 for a YES vote. A target that a reset before ARM made lose actions of
the heat votes NO with FAULT, though it has been staged anew (R389). [DESIGN CHOICE: log 62] -/
def State.voteOf (s : State) (n : Nat) (g : Target) (mem : Bool) : Nat :=
  if s.niTimeOk n = false then 1
  else if g.gate && s.flag (niB n) F.NI_GATE_STAT_PENDING then 2
  else if s.stagedRates n g.items then 3
  else if g.conflict then 4
  else if g.lost then 5
  else if s.flag (niB n) F.NI_ORD_STAT_DEGRADED || (s.ni n).recov || g.cut || (mem && !g.items.isEmpty) then 6
  else 0

/-- A target receives PREPARE and votes. `mem` says that its shadow entries show an uncorrectable error (R593).
[DEDUCED: log 30] -/
def execPrepareReceive (n hid inst : Nat) (mem : Bool) (s : State) : Host.Outcome State Fault Refusal :=
  guardUnit s (s.hears n)
    (match (s.ni n).tgtOf inst hid with
     | none => s
     | some g =>
       if s.relayed 0 inst hid g = false ∨ 2 < g.st then s
       else
         let v := s.voteOf n g mem
         let s := if mem && !g.items.isEmpty then s.memUncorr n else s
         s.updNi n (fun x => x.setTgt (heatKey inst hid) (some { g.heard 0 with ans := some v, st := if v = 0 then 2 else g.st })))

/-- T of a slot. -/
def State.heatT (s : State) (k : Nat) : Stamp := BitVec.ofNat 64 (s.word64 (hcuB + 0x114 + 0x20 * k))

/-- A target receives COMMIT_AT_T at local time `t`. `tt` names T where the heat is a joined instance's. [DEDUCED: log 30] -/
def execCommitReceive (n hid inst : Nat) (tt t : Stamp) (s : State) : Host.Outcome State Fault Refusal :=
  guardUnit s (s.hears n)
    (match (s.ni n).tgtOf inst hid with
     | none => s
     | some g =>
       if s.relayed 1 inst hid g = false ∨ 2 < g.st ∨ (inst ≠ s.instNum ∧ g.calls.contains (1, tt) = false) then s
       else
         let at' := if inst = s.instNum then s.heatT (hid % 64) else tt
         let v := if s.niTimeOk n = false then 1 else if g.conflict then 4 else if g.lost then 5
           else if 0 ≤ stampDiff t at' then 7 else 0
         s.updNi n (fun x => x.setTgt (heatKey inst hid) (some { g.heard 1 with
           ans := some v, st := if v = 0 then 3 else g.st, t := if v = 0 then at' else g.t })))

/-- A target receives ARM at local time `t` (R376). `per` is its endpoint clock's period in 1/256 ns. -/
def execArmReceive (n hid inst per : Nat) (t : Stamp) (s : State) : Host.Outcome State Fault Refusal :=
  guardUnit s (s.hears n)
    (match (s.ni n).tgtOf inst hid with
     | none => s
     | some g =>
       let sent := if inst ≠ s.instNum then s.relayed 2 inst hid g else match s.heatNow hid with
         | some st => decide (6 ≤ st) && decide (st ≤ 9)
         | none => false
       let f := s.mhz (niRec s.rom n).region
       let room : Int := stampDiff g.t t - (if g.ep then 2 * per else 0)
       if sent = false ∨ g.st ≠ 3 ∨ room * f < 2 * 256000 then s
       else s.updNi n (fun x => x.setTgt (heatKey inst hid) (some { g.heard 2 with st := if g.lost then 6 else 4 })))

/-! ### At T (R358, R371, R384) -/

/-- Stage new queue shares (R264, R265): active at the queue's next refill, at once where the queue is empty. -/
def State.qShare (s : State) (n q quantum depth : Nat) : State :=
  s.updNi n (fun x =>
    let v : Queue := { x.q q with pend := some (quantum, depth) }
    x.setQ q (if v.pkts.isEmpty then v.refill else v))

/-- Write one staged value (R351). -/
def State.applyOne (s : State) (n : Nat) (i : Shadow) : State :=
  let b := niB n
  match i.kind with
  | 0 => s.setEntry n i.index (actEntry i.data)
  | 1 =>
    let lo := 8 * (i.index % 64) + 4 * (i.index / 256 % 2)
    s.updNi n (fun x => { x with mcg := (List.range 4).foldl (fun a w =>
      mset (fun _ => 0) a (lo + w) (bitsAt i.data (32 * w) 32)) x.mcg })
  | 4 => (s.wr b (shpRate i.index) (i.data % 65536)).wr b (shpBurst i.index) (bitsAt i.data 32 16)
  | 5 => s.qShare n i.index (bitsAt i.data 0 12) (bitsAt i.data 32 12)
  | 6 =>
    (((s.wr b (F.NI_SLC_SHARE0_TAGS.ix i.index) (bitsAt i.data 0 10)).wr b (F.NI_SLC_SHARE0_BUF.ix i.index)
      (bitsAt i.data 16 11)).wr b (F.NI_SLC_SHARE1_QBASE.ix i.index) (bitsAt i.data 32 10)).wr b
      (F.NI_SLC_SHARE1_QCOUNT.ix i.index) (bitsAt i.data 48 11)
  | _ => s

/-- Apply everything a heat has staged at an NI, at its local time `t`: gate actions as if SWAP had been written at T (R283),
GO for an endpoint window. -/
def State.applyHeat (s : State) (n k : Nat) (g : Target) (t : Stamp) : State :=
  let s := g.items.foldl (fun a i => a.applyOne n i) s
  let s := if g.gate then (s.loadGates n g.items).gateSwap n (s.wholeNs t) else s
  let s := if g.win then s.heatCode n 1 k else s
  (s.updNi n (fun x => x.setTgt k (some { g with st := 5, items := [], win := false }))).farFloors k g.items

/-- An ARMED target applies at local time `t`, its first fc edge at or after T. `mem` says that its shadow entries show an
uncorrectable error (R593): it does not apply. [DESIGN CHOICE: log 5, 110] -/
def execHeatApply (n hid inst : Nat) (t : Stamp) (mem : Bool) (s : State) : Host.Outcome State Fault Refusal :=
  guardUnit s (s.hasNi n)
    (match (s.ni n).tgtOf inst hid with
     | none => s
     | some g =>
       let k := heatKey inst hid
       if g.st ≠ 4 ∨ stampDiff t g.t < 0 then s
       else if mem && !g.items.isEmpty then
         (s.updNi n (fun x => x.setTgt k (some { g with st := 6, lost := true }))).memUncorr n
       else s.applyHeat n k g g.t)

/-- A target that is still COMMITTED when its local time `t` reaches T becomes a straggler. -/
def execHeatMiss (n hid inst : Nat) (t : Stamp) (s : State) : Host.Outcome State Fault Refusal :=
  guardUnit s (s.hasNi n)
    (match (s.ni n).tgtOf inst hid with
     | none => s
     | some g =>
       if g.st ≠ 3 ∨ stampDiff t g.t < 0 then s
       else ((s.updNi n (fun x => x.setTgt (heatKey inst hid) (some { g with st := 6 }))).count (niB n)
         F.NI_HEAT_MISS_CNT_COUNT 1).alert n 9)

/-- A target receives ABORT (R365, R382). -/
def execAbortReceive (n hid inst : Nat) (s : State) : Host.Outcome State Fault Refusal :=
  guardUnit s (s.hears n)
    (match (s.ni n).tgtOf inst hid with
     | none => s
     | some g =>
       let ended := if inst ≠ s.instNum then s.relayed 3 inst hid g else match s.heatNow hid with
         | some st => st == 10
         | none => true
       if ended = false ∨ g.st = 5 then s else s.dropTarget n (heatKey inst hid))

/-! ### Reconciliation at the target (R386) -/

/-- Whether a target still holds what a heat staged there, and has not applied it. [DESIGN CHOICE: log 62] -/
def Target.holds (g : Target) : Bool := g.st == 6 && !g.lost

/-- A target receives a RECONCILE at local time `t`: REPLAY, APPLY, END or PROBE. [DESIGN CHOICE: log 62] -/
def State.reconcile (s : State) (n src : Nat) (m : StageMsg) (t : Stamp) (mem : Bool) : State :=
  let k := heatKey (src / 256) m.hid
  let ack (s : State) (st d disp : Nat) : State := s.stageAck n src m.hid m.aseq st d disp
  match m.mode with
  | 0 => match s.stageAct n src m with
    | (s, some (st, d, disp)) => ack s st d disp
    | (s, none) => s
  | mode =>
    match (s.ni n).tgtOf (src / 256) m.hid with
    | none => ack s 6 0 0
    | some g =>
      let may := if mode = 2 then g.st == 1 && !g.lost else g.holds
      if may = false then ack (s.dropTarget n k) 6 0 0
      else if mode = 3 then ack s 0 0 0
      else if mem && !g.items.isEmpty then ack ((s.dropTarget n k).memUncorr n) 6 0 0
      else ack (s.applyHeat n k g t) 0 0 0

def execReconcileReceive (n : Nat) (t : Stamp) (mem : Bool) (s : State) : Host.Outcome State Fault Refusal :=
  guardUnit s (s.hasNi n)
    (match s.takeMsg n (fun h => h.ptype == 4 && h.op == 8) with
     | none => s
     | some (h, l, s) => s.reconcile n h.src (stageMsg l) t mem)

end Sys2Proof.Machine
end

