-- ==== Sys2Proof/Machine/Joined.lean ====
section
/-! DEFINITION. The Relay Tree of joined instances (R362, R363, R582, R583, R388): relay words, collect words and their merging, the
relay links, and what arrives on them. -/

namespace Sys2Proof.Machine

/-! ### Links (R561, R570, R582) -/

/-- Links of Span port `k` (R561). -/
def State.nLinks (s : State) (k : Nat) : Nat := match s.rd (spB k) F.SP_CFG_SPLIT with
  | 1 => 2
  | 2 => 4
  | _ => 1

/-- Whether Span port `k` has link `j`. -/
def State.hasLink (s : State) (k j : Nat) : Bool := s.hasSpan k && decide (j < s.nLinks k)
/-- A field of link `j` of Span port `k`. -/
def State.lf (s : State) (k j : Nat) (f : Fld) : Nat := s.rd (spB k) (f.ix j)
/-- A field of a link written. -/
def State.lw (s : State) (k j : Nat) (f : Fld) (v : Nat) : State := s.wr (spB k) (f.ix j) v
/-- The training state of a link (R570). -/
def State.lst (s : State) (k j : Nat) : Nat := s.lf k j F.SP_L_STAT_STATE

/-- Whether a link carries RELAY frames (R582). [DESIGN CHOICE: log 87] -/
def State.relays (s : State) (k j : Nat) : Bool :=
  (s.lf k j F.SP_L_CFG_RELAY == 1 || s.lf k j F.SP_L_CFG_RELAY == 2) && s.lf k j F.SP_L_STAT_RELAY_MISMATCH == 0

/-- The links of the instance that carry RELAY frames in role `r`, 1 UP or 2 DOWN. -/
def State.relayLinks (s : State) (r : Nat) : List Nat :=
  (List.range s.rom.spans.length).flatMap (fun k => ((List.range (s.nLinks k)).filter
    (fun j => s.lf k j F.SP_L_CFG_RELAY == r && s.relays k j)).map (fun j => 4 * k + j))

/-- Whether link `c` is in ACTIVE, or in the training that leaves ACTIVE without DOWN: relay words wait there for it (R388, R583).
-/
def State.relayLive (s : State) (c : Nat) : Bool := s.lst (c / 4) (c % 4) == 5 || (s.lst (c / 4) (c % 4) == 6 && !(s.lk c).new)

/-! ### Words (R362, R363) -/

/-- The down words of a relay operation: RKIND, slot and generation, and the map word of a MAP; for COMMIT T, low word first. -/
def relayWords (o : RelayOp) : List Word :=
  BitVec.ofNat 32 (o.rk % 16 + 16 * (o.hid % 2 ^ 16) + 2 ^ 20 * (o.w % 8))
    :: (if o.rk = 1 then [BitVec.ofNat 32 o.t.toNat, BitVec.ofNat 32 (o.t.toNat / 2 ^ 32)] else [])

/-- One more down word: the operations read so far, and the words of one that is not yet whole. A node ignores RKIND 6 to 15. -/
def relayRead (a : List RelayOp × List Word) (x : Word) : List RelayOp × List Word :=
  let p := a.2 ++ [x]
  let h := (p.headD 0).toNat
  let r := bitsAt h 0 4
  if r = 1 ∧ p.length < 3 then (a.1, p)
  else
    let w (i : Nat) : Nat := (p.getD i 0).toNat
    let o : RelayOp := { rk := r, hid := bitsAt h 4 16, w := if r = 5 then bitsAt h 20 3 else 0
                         t := if r = 1 then BitVec.ofNat 64 (w 1 + 2 ^ 32 * w 2) else 0 }
    (if 6 ≤ r then a.1 else a.1 ++ [o], [])

/-- A collect word of YES, NO and the smallest TNUM × 16 + REASON, 0x1FF0 for none (R363). -/
def voteWord (yes no m : Nat) : Word := BitVec.ofNat 32 (yes % 512 + 2 ^ 9 * (no % 512) + 2 ^ 18 * (m / 16 % 512) + 2 ^ 27 * (m % 16))

/-- YES, NO, FIRST and REASON of a collect word. -/
def voteFields (w : Word) : Nat × Nat × Nat × Nat := (bitsAt w.toNat 0 9, bitsAt w.toNat 9 9, bitsAt w.toNat 18 9, bitsAt w.toNat 27 4)

/-- What a collect of RKIND `r` begins from. -/
def collectZero (r : Nat) : Word := if r = 5 then 0 else voteWord 0 0 0x1FF0

/-- Two collect words merged: sums and the minimum, or the map bits of both (R363, R583). -/
def mergeWord (r : Nat) (a b : Word) : Word :=
  if r = 5 then a ||| b
  else
    let (y, n, f, q) := voteFields a
    let (y', n', f', q') := voteFields b
    voteWord (y + y') (n + n') (min (f * 16 + q) (f' * 16 + q'))

/-! ### Collects (R363, R372, R583) -/

/-- What NI `n` holds of the heats of a HID: this instance's own, or joined instances'. A relay word does not name the issuing
instance. [DESIGN CHOICE: log 31] -/
def State.heldOf (s : State) (n : Nat) (own : Bool) (hid : Nat) : List Target :=
  (s.ni n).targets.filterMap (fun e =>
    if e.1 % 64 = hid % 64 ∧ e.2.gen = hid / 64 ∧ (e.1 / 64 == s.instNum) = own then some e.2 else none)

/-- The instance's own collect word of an operation, and whether every NI that takes part has answered. [DEDUCED: log 30] -/
def State.localWord (s : State) (own : Bool) (o : RelayOp) : Word × Bool :=
  let l := (List.range s.rom.nis.length).flatMap (fun n => s.heldOf n own o.hid)
  let applied (g : Target) : Bool := g.st == 5 && !g.lost
  match o.rk with
  | 4 => (voteWord (l.filter applied).length 0 0x1FF0, true)
  | 5 => (BitVec.ofNat 32 (bitsWhere 32 (fun i => l.any (fun g => applied g && g.tnum == 32 * o.w + i))), true)
  | _ =>
    (l.foldl (fun a g => match g.ans with
      | none => a
      | some 0 => mergeWord 0 a (voteWord 1 0 0x1FF0)
      | some r => mergeWord 0 a (voteWord 0 1 (g.tnum * 16 + r))) (collectZero 0), l.all (fun g => g.ans.isSome || g.st == 5))

/-- The merged word of a joined collect, and whether it is whole. -/
def State.jointWord (s : State) (j : Joint) : Word × Bool :=
  let (w, ok) := s.localWord j.own j.op
  (mergeWord j.op.rk w j.acc, ok && j.waits.isEmpty && !j.lost)

/-- An operation goes out to every DOWN link. A link out of ACTIVE gets it once it is back, unless it has been DOWN (R388, R583).
[DESIGN CHOICE: log 31] -/
def State.relayDown (s : State) (o : RelayOp) : State :=
  ((s.relayLinks 2).filter s.relayLive).foldl (fun a c => a.updLk c (fun l => { l with relayQ := l.relayQ ++ relayWords o })) s

/-- A joined operation is broadcast here: a collect awaits the word of each DOWN link, and an ABORT ends the heat's collects.
[DESIGN CHOICE: log 31] -/
def State.broadcast (s : State) (own : Bool) (o : RelayOp) : State :=
  let l := s.relayLinks 2
  let s := s.relayDown o
  match o.rk with
  | 2 => s
  | 3 => { s with joints := s.joints.filter (fun j => !(j.own == own && j.op.hid == o.hid)) }
  | r => { s with joints := s.joints ++ [{ op := o, own := own, waits := l.filter s.relayLive, lost := l.any (fun c => !s.relayLive c)
                                           acc := collectZero r }] }

/-- Link `c` can no longer answer: an own collect that awaits it stays until R363 ends it, and one of another instance ends here, as
does each of them where the UP link is the one. [DESIGN CHOICE: log 31] -/
def State.jointsLost (s : State) (c : Nat) : State :=
  let up := (s.relayLinks 1).contains c
  { s with joints := s.joints.filterMap (fun j =>
      if j.waits.contains c then (if j.own then some { j with waits := j.waits.erase c, lost := true } else none)
      else if up && !j.own then none
      else some j) }

/-! ### Arrivals (R388, R583) -/

/-- An operation on the UP link goes on its way to the NIs that hold the heat, and on to the DOWN links. A COMMIT defers steps
until T has passed. -/
def State.joinedOp (s : State) (o : RelayOp) : State :=
  let s := if o.rk = 1 then s.updTime (fun u => { u with
      heatT := u.heatT.filter (fun t => decide (stampDiff s.rootStamp t < 0)) ++ [o.t] }) else s
  let s := if 4 ≤ o.rk then s
    else forAll s.rom.nis.length (fun n a => a.updNi n (fun x => { x with
      tgts := x.tgts.map (fun e => (e.1, e.2.map (fun g =>
        if e.1 % 64 = o.hid % 64 ∧ g.gen = o.hid / 64 ∧ e.1 / 64 ≠ s.instNum then
          { g with calls := g.calls ++ [(o.rk, o.t)], ans := if o.rk ≤ 1 then none else g.ans }
        else g))) })) s
  s.broadcast false o

/-- A collect word arrives on DOWN link `c`: it is that of the oldest collect that awaits one there. -/
def mergeAt (c : Nat) (x : Word) : List Joint → List Joint
  | [] => []
  | j :: r =>
    if j.waits.contains c then { j with waits := j.waits.erase c, acc := mergeWord j.op.rk j.acc x } :: r else j :: mergeAt c x r

/-- Relay words arrive on link `c`: operations on the UP link, collect words on a DOWN link. [DESIGN CHOICE: log 31] -/
def State.relayArrive (s : State) (c : Nat) (ws : List Word) : State :=
  if s.lf (c / 4) (c % 4) F.SP_L_CFG_RELAY = 1 then
    let (ops, rest) := ws.foldl relayRead ([], (s.lk c).relayIn)
    ops.foldl State.joinedOp (s.updLk c (fun l => { l with relayIn := rest }))
  else { s with joints := ws.foldl (fun l x => mergeAt c x l) s.joints }

/-- The relay root hands the merged word of the oldest collect of another instance to the UP link `c`, where `ws` is that word and
it is whole (R583). [DESIGN CHOICE: log 31] -/
def State.relayUp (s : State) (c : Nat) (ws : List Word) : State :=
  match s.joints.find? (fun j => !j.own) with
  | none => s
  | some j =>
    if s.jointWord j = (ws.headD 0, true) ∧ ws.length = 1 then
      { s.updLk c (fun l => { l with relayQ := l.relayQ ++ ws }) with joints := s.joints.erase j }
    else s

end Sys2Proof.Machine
end

