-- ==== Sys2Proof/Machine/Heat.lean ====
section
/-! DEFINITION. The Heat Coordinator Unit (R346 to R391): slots, the journal, the course of a heat over the Relay Tree, aborts
and back-off, stragglers, and the heat commands. -/

namespace Sys2Proof.Machine

/-! ### Slots (R346, R347, R361) -/

/-- What heat slot `k` holds outside its registers. -/
def State.heat (s : State) (k : Nat) : Heat := mget (fun _ => {}) s.heats k
/-- The state with slot `k` holding `v`. -/
def State.setHeat (s : State) (k : Nat) (v : Heat) : State := { s with heats := mset (fun _ => {}) s.heats k v }
/-- STATE of slot `k`. -/
def State.heatSt (s : State) (k : Nat) : Nat := s.rd hcuB (F.HCU_SLOT0_STATE.ix k)
/-- Slot `k` in a state. -/
def State.heatGo (s : State) (k st : Nat) : State := s.wr hcuB (F.HCU_SLOT0_STATE.ix k) st
/-- The HID of slot `k`. -/
def State.hidOf (s : State) (k : Nat) : Nat := k + 64 * s.rd hcuB (F.HCU_SLOT1_GEN.ix k)
/-- The slot of a HID of the slot's present generation (R346). -/
def State.slotOf (s : State) (hid : Nat) : Option Nat := if s.hidOf (hid % 64) = hid then some (hid % 64) else none
/-- Whether slot `k` holds a SPAN heat. -/
def State.heatSpan (s : State) (k : Nat) : Bool := s.rd hcuB (F.HCU_SLOT0_SPAN.ix k) == 1
/-- The slots in one of the states `l`. -/
def State.slotsIn (s : State) (l : List Nat) : List Nat := (List.range 64).filter (fun k => l.contains (s.heatSt k))
/-- Journal records in use. -/
def State.journal (s : State) : Nat := s.heats.foldl (fun a e => a + e.2.acts.length) 0

/-- The regions of the local targets of the slots `l`. -/
def State.heatRegions (s : State) (l : List Nat) : Nat :=
  l.foldl (fun a k => (s.heat k).tgts.foldl (fun b node =>
    if node / 256 = s.instNum then b ||| 2 ^ (niRec s.rom (node % 256)).region else b) a) 0
/-- Regions held against entry into Sleep or deeper by a heat (R368). -/
def State.heatPins (s : State) : Nat := s.heatRegions (s.slotsIn [1, 2, 3, 4, 5, 6, 7])
/-- Regions held in Run by a heat, from PREPARE until the end of SETTLING (R368). -/
def State.heatRuns (s : State) : Nat :=
  s.heatRegions (s.slotsIn [4, 5, 6, 7] ++ (s.slotsIn [3]).filter (fun k => s.relay == some (0, k)))

/-! ### Durations (R373, R374) -/

/-- `n` fc of the home region in 1/256 ns, rounded up. -/
def State.homeFc (s : State) (n : Nat) : Nat := cdiv (n * 256000) (s.mhz s.rom.homeRegion)
/-- LEAD of slot `k` in 1/256 ns. -/
def State.heatLead (s : State) (k : Nat) : Nat :=
  if s.heatSpan k then 256 * s.rd hcuB F.HCU_LEAD_SPAN_NS else s.homeFc (s.rd hcuB F.HCU_LEAD_DIE)
/-- GUARD of slot `k` in 1/256 ns. -/
def State.heatGuard (s : State) (k : Nat) : Nat :=
  if s.heatSpan k then 256 * s.rd hcuB F.HCU_GUARD_SPAN_NS else s.homeFc (s.rd hcuB F.HCU_GUARD_DIE)
/-- START_ADV in 1/256 ns. -/
def State.startAdv (s : State) : Nat := 256000 * s.rd hcuB F.HCU_START_ADV_US
/-- The root's Fabric Time less T of slot `k`, in 1/256 ns. -/
def State.pastT (s : State) (k : Nat) : Int := stampDiff s.rootStamp (s.heatT k)

/-! ### Back-off (R380) -/

/-- Loss count and back-off deadline of a client. -/
def State.client (s : State) (c : Nat) : Nat × Nat := mget (fun _ => (0, 0)) s.clients c
/-- A client's loss count becomes `k`, its back-off starting now. [DESIGN CHOICE: log 60] -/
def State.backOff (s : State) (c k : Nat) : State :=
  { s with clients := mset (fun _ => (0, 0)) s.clients c (k, s.clock + s.fcTc s.rom.homeRegion (32 * 2 ^ k)) }

/-! ### The Relay Tree (R362, R367) -/

/-- Every answer to the collect of slot `k` is forgotten at its start. -/
def State.clearVotes (s : State) (k : Nat) : State :=
  forAll s.rom.nis.length (fun n a =>
    match (a.ni n).tgtOf a.instNum (a.hidOf k) with
    | some g => a.updNi n (fun x => x.setTgt (heatKey a.instNum (a.hidOf k)) (some { g with ans := none }))
    | none => a) s

/-- The words of a MAP collect for slot `k`, one for 32 targets. -/
def State.mapLen (s : State) (k : Nat) : Nat := cdiv (s.rd hcuB (F.HCU_SLOT1_TARGETS.ix k)) 32

/-- An operation of RKIND `r` for slot `k` goes out to the joined instances of a SPAN heat (R362, R388, R583): a MAP as one
operation for each map word. -/
def State.joinedOut (s : State) (r k : Nat) : State :=
  if s.heatSpan k then
    (List.range (if r = 5 then s.mapLen k else 1)).foldl (fun a w =>
      a.broadcast true { rk := r, hid := s.hidOf k, w := w, t := if r = 1 then s.heatT k else 0 }) s
  else s

/-- A collect of RKIND `r` for slot `k` takes the Relay Tree. [DESIGN CHOICE: log 61] -/
def State.relayStart (s : State) (r k : Nat) : State := { (s.clearVotes k).joinedOut r k with relay := some (r, k) }

/-- The Relay Tree is free of slot `k`'s collect. -/
def State.relayEnd (s : State) (k : Nat) : State :=
  { s with
    relay := match s.relay with
      | some (r, j) => if j = k then none else some (r, j)
      | none => none
    joints := s.joints.filter (fun j => !(j.own && j.op.hid == s.hidOf k)) }

/-- The slots whose vote is due enter VOTING once every STAGE_ACK has arrived (R361). [DEDUCED: log 58] -/
def State.heatReady (s : State) : State :=
  (s.slotsIn [1, 2]).foldl (fun a k =>
    if (a.heat k).due && (a.heat k).acts.all (fun e => e.ack.isSome) then a.heatGo k 3 else a) s

/-- Slots that may vote enter VOTING, and PREPARE goes out for one of them where the Relay Tree is free (R367, R368).
[DESIGN CHOICE: log 61] -/
def State.heatPump (s : State) : State :=
  let s := s.heatReady
  if s.relay.isSome then s
  else match (s.slotsIn [3]).head? with
    | none => s
    | some k =>
      let s := s.relayStart 0 k
      s.rouse s.heatRuns

/-- The collect word of RKIND `r` for slot `k`, merged over the whole scope, and whether it is whole (R363, R388, R583).
[DESIGN CHOICE: log 59] -/
def State.collectWord (s : State) (r k w : Nat) : Word × Bool :=
  let o : RelayOp := { rk := r, hid := s.hidOf k, w := w }
  match s.joints.find? (fun j => j.own && { j.op with t := 0 } == o) with
  | some j => s.jointWord j
  | none => s.localWord true o

/-! ### Ends (R361, R372, R381, R382, R387, R389) -/

/-- STATUS and DETAIL bytes of a HEAT_STAGE reply. [DESIGN CHOICE: log 56] -/
def Heat.stageReply (h : Heat) (x : Nat) : List Byte :=
  let of (i : Nat) : Nat × Nat := match h.acts.find? (fun a => a.cmd == x && a.idx == i) with
    | some a => a.ack.getD (0, 0)
    | none => (0, 0)
  (List.range 7).flatMap (fun i => leBytes 1 (of i).1) ++ leBytes 1 0 ++ (List.range 7).flatMap (fun i => leBytes 1 (of i).2)

/-- The first two bytes of a HEAT_COMMIT reply: state and REASON. [DESIGN CHOICE: log 56] -/
def State.commitReply (s : State) (k : Nat) : List Byte :=
  leBytes 1 (s.heatSt k) ++ leBytes 1 (s.rd hcuB (F.HCU_SLOT0_REASON.ix k))

/-- The commit or abort of a heat with route entries owes the floors (R240). -/
def State.heatFloors (s : State) (h : Heat) : State := if h.acts.any (fun a => a.kind == 0) then s.floorsDue else s

/-- A heat aborts before ARM (R381): the reason, FIRST and DETAIL are recorded, its commands are answered, its journal
records are freed and its leave is given back. ABORT goes out on the Relay Tree. [DESIGN CHOICE: log 60] -/
def State.heatAbort (s : State) (k reason first detail : Nat) : State :=
  if s.heatSt k = 0 ∨ 5 < s.heatSt k then s
  else
    let h := s.heat k
    let s := (((s.heatGo k 10).wr hcuB (F.HCU_SLOT0_REASON.ix k) reason).wr hcuB (F.HCU_SLOT7_FIRST.ix k) first).wr hcuB
      (F.HCU_SLOT7_DETAIL.ix k) detail
    let s := s.count hcuB F.HCU_CNT_ABORT_COUNT 1
    let s := if reason = 9 then s.count hcuB F.HCU_CNT_FALSE_COUNT 1 else s
    let c := s.rd hcuB (F.HCU_SLOT0_CLIENT.ix k)
    let s := if reason = 2 then s.backOff c (min ((s.client c).1 + 1) 10) else s
    let s := h.stages.foldl (fun a e => a.reply e.1 0x0014 (h.stageReply e.1)) s
    let s := s.replyOpt h.commit 0x0014 (s.commitReply k)
    let s := ((s.heatFloors h).setHeat k { h with acts := [], stages := [], commit := none }).relayEnd k
    (((s.joinedOut 3 k).give 0 k).glEvent 1 0).heatPump

/-- The vote of slot `k` is due (R361). [DEDUCED: log 58] -/
def State.heatVote (s : State) (k : Nat) : State := (s.setHeat k { s.heat k with due := true }).heatPump

/-- Slot `k` enters COMMITTED: its journal records are freed. [DESIGN CHOICE: log 60] -/
def State.heatDone (s : State) (k : Nat) : State :=
  let h := s.heat k
  let s := ((s.heatGo k 8).count hcuB F.HCU_CNT_COMMIT_COUNT 1).setHeat k { h with acts := [], strag := [], recon := [] }
  (s.heatFloors h).glEvent 1 0

/-- A target leaves the straggler map (R386, R387). -/
def State.unstrag (s : State) (k tnum : Nat) : State :=
  let h := s.heat k
  let h := { h with strag := h.strag.filter (fun i => i != tnum), recon := h.recon.filter (fun r => r.1 != tnum) }
  let s := s.setHeat k h
  if h.strag.isEmpty then (s.heatDone k).wr hcuB (F.HCU_SLOT0_RECONCILED.ix k) 1 else s

/-! ### Messages from the HCU (R364, R386) -/

/-- Send a HEAT message from NI HCU.HOME_NI. -/
def State.hcuSend (s : State) (op node : Nat) (m : StageMsg) : State :=
  let n := s.rd hcuB F.HCU_HOME_NI_NI
  if s.hasNi n then s.pushVn3 n 4 op node 63 0 0 (if op = 0 then m.addr else 0) (stageBytes node m) else s

/-- The message of journal record `a` of slot `k`. -/
def State.actMsg (s : State) (k mode : Nat) (a : Act) : StageMsg :=
  { hid := s.hidOf k, tnum := a.tnum, aseq := a.aseq, mode := mode, age := BitVec.ofNat 64 (s.word64 (hcuB + 0x10C + 0x20 * k))
    kind := a.kind, index := a.index, len := a.len, addr := a.addr, data := a.data }

/-- A RECONCILE without an action. -/
def State.reconMsg (s : State) (k tnum mode : Nat) : StageMsg :=
  s.actMsg k mode { aseq := 0, tnum := tnum, kind := 0, index := 0, len := 0, addr := 0, data := 0, cmd := 0, idx := 0 }

/-- Begin to reconcile a straggler: PROBE (R386). -/
def State.probeStrag (s : State) (k tnum : Nat) : State :=
  let h := s.heat k
  (s.setHeat k { h with recon := (tnum, 1, 1) :: h.recon.filter (fun r => r.1 != tnum) }).hcuSend 8 (h.tgts.getD tnum 0)
    (s.reconMsg k tnum 3)

/-! ### Opening and staging (R346 to R348, R352, R354, R366, R379, R380, R390) -/

/-- HEAT_OPEN: the lowest FREE slot. [DESIGN CHOICE: log 56] -/
def State.heatOpen (s : State) (x : Nat) (c : Cmd) : State :=
  let client := c.p 0 8
  let span := c.p 14 1
  let (k0, until') := s.client client
  if span = 1 ∧ s.rom.spans.length = 0 then s.reply x 0x0003 []
  else if s.clock < until' then (s.backOff client (min (2 * k0) 10)).reply x 0x0013 []
  else match (s.slotsIn [0]).head? with
    | none => s.reply x 0x0012 []
    | some k =>
      let gen := (s.rd hcuB (F.HCU_SLOT1_GEN.ix k) + 1) % 1024
      let b := hcuB + 0x100 + 0x20 * k
      let age := s.rootStamp.toNat
      let s := (s.setWord b (BitVec.ofNat 32 (1 + 65536 * client + 2 ^ 24 * c.p 8 6 + 2 ^ 30 * span))).setWord (b + 4)
        (BitVec.ofNat 32 gen)
      let s := (((s.setWord (b + 8) 0).setWord64 (b + 0xC) age).setWord64 (b + 0x14) 0).setWord (b + 0x1C) 0x1FF
      (s.setHeat k {}).reply x 0 (leBytes 2 (k + 64 * gen) ++ leBytes 6 0 ++ leBytes 8 age)

def execHeatOpen (x : Nat) (s : State) : Host.Outcome State Fault Refusal :=
  .next (s.runCmd x 0x30 [(0, 15)] (fun c s => s.heatOpen x c))

/-- Action `i` of a HEAT_STAGE as its record spells it, with whether every reserved bit is 0: (NODE, action). -/
def stagedAct (c : Cmd) (x i : Nat) : Nat × Bool × Act :=
  let f (b k : Nat) : Nat := c.p (128 + 256 * i + 8 * b) (8 * k)
  (f 0 4 % 2 ^ 20, f 0 4 / 2 ^ 24 == 0 && f 7 1 == 0,
    { aseq := 0, tnum := 0, kind := bitsAt (f 0 4) 20 4, index := f 4 2, len := f 6 1, addr := f 8 8, data := f 16 16
      cmd := x, idx := i })

/-- The first check of R352, over R350, R351 and R427. -/
def State.actForm (s : State) (node : Nat) (a : Act) : Bool :=
  (match a.kind with
   | 0 => decide (a.index < 260)
   | 1 => decide (a.index % 64 + 256 * (a.index / 256 % 2) = a.index)
   | 2 => a.index == 0
   | 3 => decide (a.index < 128)
   | 4 => decide (a.index < 16) && bitsAt a.data 16 16 == 0 && decide (a.data < 2 ^ 48)
   | 5 => decide (a.index < (if node / 256 = s.instNum then schedSize s.rom (node % 256) else 1024))
          && bitsAt a.data 12 20 == 0 && decide (a.data < 2 ^ 44)
   | 6 => decide (a.index < 63) && decide (a.data < 2 ^ 64)
   | 7 => a.index == 0 && decide (1 ≤ a.len) && decide (a.len ≤ 16)
   | _ => false) && (a.kind == 7 || (a.len == 0 && a.addr == 0))

/-- Stage one action of a HEAT_STAGE, unless the heat has aborted meanwhile. [DESIGN CHOICE: log 57] -/
def State.stageOne (s : State) (k x i : Nat) (c : Cmd) : State :=
  if s.heatSt k ≠ 1 then s
  else
    let (node, clean, a) := stagedAct c x i
    let h := s.heat k
    let tnum := h.tgts.findIdx (fun t => t == node)
    let tgts := if tnum < h.tgts.length then h.tgts else h.tgts ++ [node]
    let here := node / 256 == s.instNum
    let a := { a with aseq := s.rd hcuB (F.HCU_SLOT2_ACTIONS.ix k), tnum := tnum }
    let put (s : State) (a : Act) : State :=
      ((s.setHeat k { h with tgts := tgts, acts := h.acts ++ [a] }).wr hcuB (F.HCU_SLOT1_TARGETS.ix k) tgts.length).wr hcuB
        (F.HCU_SLOT2_ACTIONS.ix k) (a.aseq + 1)
    let bad (st d reason : Nat) : State := (put s { a with ack := some (st, d) }).heatAbort k reason tnum d
    if 8192 ≤ s.journal then s.heatAbort k 0x0C 0x1FF 0
    else if clean = false ∨ s.actForm node a = false ∨ (here = false ∧ s.heatSpan k = false) then bad 3 0 3
    else if (s.slotsIn [9]).any (fun j => (s.heat j).strag.any (fun t => (s.heat j).tgts.getD t 0 == node)) then bad 1 0 2
    else match (if here then s.itemCheck (node % 256) a.kind a.index a.data else .ok a.data) with
      | .error (st, d) => bad st d 3
      | .ok v =>
        let a := { a with data := v }
        let s := put s a
        let s := if a.kind = 0 then s.floorsDue else s
        s.hcuSend 0 node (s.actMsg k 0 a)

/-- HEAT_STAGE: the actions in order, then the reply once all are acknowledged. -/
def State.heatStage (s : State) (x : Nat) (c : Cmd) : State :=
  let cnt := c.p 16 3
  match s.slotOf (c.p 0 16) with
  | none => s.reply x 0x0011 []
  | some k =>
    let h := s.heat k
    let nodes := ((List.range cnt).map (fun i => (stagedAct c x i).1)).foldl (fun a t =>
      if a.contains t then a else a ++ [t]) h.tgts
    if s.heatSt k ≠ 1 ∨ h.due = true then s.reply x 0x0006 []
    else if cnt = 0 ∨ 4096 < s.rd hcuB (F.HCU_SLOT2_ACTIONS.ix k) + cnt ∨ 256 < nodes.length then s.reply x 0x0003 []
    else
      let s := s.setHeat k { h with stages := h.stages ++ [(x, cnt)] }
      (List.range cnt).foldl (fun a i => a.stageOne k x i c) s

/-- Whether a HEAT_STAGE waits: a route entry it stages crosses a region in a step (R241). -/
def State.stageHeld (s : State) (c : Cmd) : Bool :=
  (List.range (c.p 16 3)).any (fun i =>
    let (node, _, a) := stagedAct c 0 i
    let y := actEntry a.data
    a.kind == 0 && node / 256 == s.instNum && s.routeHeld (node % 256) a.index y.path y.nhops)

def execHeatStage (x : Nat) (s : State) : Host.Outcome State Fault Refusal :=
  .next (match s.cmd x with
    | none => s
    | some c =>
      if c.op = 0x31 ∧ s.stageHeld c = true then s
      else s.runCmd x 0x31 [(0, 19), (128, 1792)] (fun c s => s.heatStage x c))

/-- STAGE_ACKs that end HEAT_STAGE commands. -/
def State.stageReplies (s : State) (k : Nat) : State :=
  let h := s.heat k
  let whole (e : Nat × Nat) : Bool := (h.acts.filter (fun a => a.cmd == e.1 && a.ack.isSome)).length == e.2
  let s := s.setHeat k { h with stages := h.stages.filter (fun e => !whole e) }
  (h.stages.filter whole).foldl (fun a e => a.reply e.1 0 (h.stageReply e.1)) s

/-- Whether the Starter has restored NI `n`'s configuration since the last reset that covered it (R386, R553). -/
def State.restored (s : State) (n : Nat) : Bool := !(s.ni n).recov || (s.rg (niRec s.rom n).region).wake == 8

/-- A STAGE_ACK of slot `k`'s reconciliation of target `tnum` (R386). A target that was reset gets no replay before its NI's
configuration is restored. `mem` says what the journal shows when it is read for a replay (R593): a correction is counted, and
with an uncorrectable error the replay fails. -/
def State.reconAck (s : State) (k tnum status : Nat) (mem : Ecc) : State :=
  let h := s.heat k
  let go (s : State) (phase left : Nat) : State :=
    let h := s.heat k
    s.setHeat k { h with recon := h.recon.map (fun r => if r.1 = tnum then (tnum, phase, left) else r) }
  let stop (s : State) : State :=
    let h := s.heat k
    s.setHeat k { h with recon := h.recon.filter (fun r => r.1 != tnum) }
  let node := h.tgts.getD tnum 0
  match h.recon.find? (fun r => r.1 == tnum) with
  | none => s
  | some (_, phase, left) =>
    match phase with
    | 1 =>
      if status = 0 then (go s 2 1).hcuSend 8 node (s.reconMsg k tnum 1)
      else if status ≠ 6 ∨ (node / 256 = s.instNum ∧ s.restored (node % 256) = false) then stop s
      else if mem = .bad then ((stop s).glEvent 14 0).glEvent 1 1
      else
        let s := if mem = .corr then s.count evtB F.EVT_CORR_CNT_COUNT 1 else s
        let l := h.acts.filter (fun a => a.tnum == tnum)
        l.foldl (fun a r => a.hcuSend 8 node (a.actMsg k 0 r)) (go s 3 l.length)
    | 3 =>
      if status ≠ 0 then stop s
      else if left ≤ 1 then (go s 4 1).hcuSend 8 node (s.reconMsg k tnum 2) else go s 3 (left - 1)
    | _ => if status = 0 then { s.unstrag k tnum with heatCrc := true } else stop s

/-- The HCU receives a STAGE_ACK at its NI (R366, R378). A heat that it names as displaced aborts, whatever has become of the heat
that it acknowledges. -/
def State.stageAckIn (s : State) (src : Nat) (l : List Byte) (mem : Ecc) : State :=
  let f (i k : Nat) : Nat := leNat ((l.drop i).take k)
  let st := f 4 1
  let disp (s : State) : State := if f 8 1 % 2 = 0 then s else match s.slotOf (f 6 2) with
    | some j => s.heatAbort j 2 0x1FF 0
    | none => s
  match s.slotOf (f 0 2) with
  | none => disp s
  | some k =>
    let h := s.heat k
    let tnum := h.tgts.findIdx (fun t => t == src)
    if s.heatSt k = 9 then disp (s.reconAck k tnum st mem)
    else
      let mine (a : Act) : Bool := a.aseq == f 2 2 && a.tnum == tnum && a.ack.isNone
      if h.acts.any mine = false then disp s
      else
        let s := s.setHeat k { h with acts := h.acts.map (fun a => if mine a then { a with ack := some (st, f 5 1) } else a) }
        let s := disp s
        if st ≠ 0 then s.heatAbort k (if st = 1 then 2 else 3) tnum (f 5 1)
        else (s.stageReplies k).heatPump

def execStageAckReceive (n : Nat) (mem : Ecc) (s : State) : Host.Outcome State Fault Refusal :=
  guardUnit s (s.hasNi n)
    (match s.takeMsg n (fun h => h.ptype == 4 && h.op == 1) with
     | none => s
     | some (h, l, s) => if n = s.rd hcuB F.HCU_HOME_NI_NI then s.stageAckIn h.src l mem else s.pktBad n)

/-- A STAGE_ACK has not arrived within STAGE_US of its STAGE (R366). [DESIGN CHOICE: log 4] -/
def execStageAckTmo (slot aseq : Nat) (s : State) : Host.Outcome State Fault Refusal :=
  guardUnit s (decide (slot < 64))
    (match (s.heat slot).acts.find? (fun a => a.aseq == aseq && a.ack.isNone) with
     | none => s
     | some a => s.heatAbort slot 4 a.tnum 0)

/-! ### Vote, leave and commit (R361, R366 to R370, R374, R375) -/

/-- HEAT_COMMIT. [DEDUCED: log 58] -/
def State.heatCommit (s : State) (x : Nat) (c : Cmd) : State :=
  match s.slotOf (c.p 0 16) with
  | none => s.reply x 0x0011 []
  | some k =>
    let h := s.heat k
    let now := s.time.ft / 2 ^ 24
    let tc := 256 * (c.p 32 48 * secNs + c.p 80 32)
    if s.heatSt k ≠ 1 ∨ h.due = true then s.reply x 0x0006 []
    else if c.p 16 1 = 0 then (s.setHeat k { h with commit := some x }).heatVote k
    else if tc < now + s.heatLead k + s.startAdv ∨ now + 256 * 60 * secNs < tc then s.reply x 0x0003 []
    else
      let t : Stamp := BitVec.ofInt 64 ((tc : Int) - 256 * (s.epoch * secNs : Nat))
      let s := ((s.setWord64 (hcuB + 0x114 + 0x20 * k) t.toNat).setHeat k { h with given := true }).heatGo k 2
      s.reply x 0 (s.commitReply k)

def execHeatCommit (x : Nat) (s : State) : Host.Outcome State Fault Refusal :=
  .next (s.runCmd x 0x32 [(0, 17), (32, 80)] (fun c s => s.heatCommit x c))

/-- A scheduled heat reaches T − START_ADV. -/
def execHeatScheduledStart (slot : Nat) (s : State) : Host.Outcome State Fault Refusal :=
  guardUnit s (decide (slot < 64))
    (if s.heatSt slot = 2 ∧ (s.heat slot).due = false ∧ -(s.startAdv : Int) ≤ s.pastT slot then s.heatVote slot else s)

/-- Targets of slot `k`. -/
def State.targetCount (s : State) (k : Nat) : Nat := s.rd hcuB (F.HCU_SLOT1_TARGETS.ix k)

/-- A collect short of the target count aborts the heat (R367, R381). -/
def State.heatShort (s : State) (k no first reason : Nat) (commit : Bool) : State :=
  if no = 0 then s.heatAbort k 6 0x1FF 0
  else s.heatAbort k (if commit && reason == 7 then 9 else if commit && reason == 1 then 0x0A else 5) first reason

/-- The PREPARE collect returns with the word `w`. -/
def execVoteCollectDone (slot : Nat) (w : Word) (s : State) : Host.Outcome State Fault Refusal :=
  guardUnit s (decide (slot < 64))
    (if s.heatSt slot ≠ 3 ∨ s.relay ≠ some (0, slot) ∨ s.collectWord 0 slot 0 ≠ (w, true) then s
     else
       let (yes, no, first, reason) := voteFields w
       let s := s.relayEnd slot
       if yes = s.targetCount slot ∧ no = 0 then ((s.heatGo slot 4).ask 0 slot).heatPump
       else s.heatShort slot no first reason false)

/-- COMMIT leaves the HCU: leave is held, no step is pending and the Relay Tree is free. [DESIGN CHOICE: log 83] -/
def State.commitSend (s : State) (k : Nat) : State :=
  if s.heatSt k ≠ 4 ∨ s.hasLeave 0 k = false ∨ s.relay.isSome = true ∨ s.time.step.isSome = true then s
  else if s.rootOk = false then s.heatAbort k 0x0A 0x1FF 0
  else if (s.heat k).given then
    if -(s.heatLead k : Int) < s.pastT k then s.heatAbort k 8 0x1FF 0 else (s.heatGo k 5).relayStart 1 k
  else
    let t : Stamp := s.rootStamp + BitVec.ofNat 64 (s.heatLead k)
    ((s.setWord64 (hcuB + 0x114 + 0x20 * k) t.toNat).heatGo k 5).relayStart 1 k

def execHeatCommitSend (slot : Nat) (s : State) : Host.Outcome State Fault Refusal :=
  guardUnit s (decide (slot < 64)) (s.commitSend slot)

/-- The COMMIT collect returns with the word `w`: ARM leaves by T − GUARD and the scanner's comparison is suspended, or the heat
aborts. -/
def execCommitCollectDone (slot : Nat) (w : Word) (s : State) : Host.Outcome State Fault Refusal :=
  guardUnit s (decide (slot < 64))
    (if s.heatSt slot ≠ 5 ∨ s.relay ≠ some (1, slot) ∨ s.collectWord 1 slot 0 ≠ (w, true) then s
     else
       let (yes, no, first, reason) := voteFields w
       let s := s.relayEnd slot
       if yes = s.targetCount slot ∧ no = 0 then
         if -(s.heatGuard slot : Int) < s.pastT slot then s.heatAbort slot 8 0x1FF 0
         else
           let h := s.heat slot
           let s := { ((s.heatGo slot 6).setHeat slot { h with commit := none }).joinedOut 2 slot with heatCrc := true }
           (((s.wr evtB F.EVT_STAT_SUSP_HEAT 1).wr evtB F.EVT_STAT_MM_CNT 0).replyOpt h.commit 0 (s.commitReply slot)).heatPump
       else s.heatShort slot no first reason true)

/-- COMMIT or ARM cannot leave by its deadline (R374, R375). -/
def execHeatDeadline (slot : Nat) (s : State) : Host.Outcome State Fault Refusal :=
  guardUnit s (decide (slot < 64))
    (let st := s.heatSt slot
     if ((s.heat slot).given = true ∧ (st = 2 ∨ st = 3 ∨ st = 4) ∧ -(s.heatLead slot : Int) < s.pastT slot)
         ∨ (st = 5 ∧ -(s.heatGuard slot : Int) < s.pastT slot) then s.heatAbort slot 8 0x1FF 0
     else s)

/-- Leave has not been granted within LEAVE_US (R361). [DESIGN CHOICE: log 4] -/
def execLeaveTmo (slot : Nat) (s : State) : Host.Outcome State Fault Refusal :=
  guardUnit s (decide (slot < 64))
    (if s.heatSt slot = 4 ∧ s.hasLeave 0 slot = false then s.heatAbort slot 7 0x1FF 0 else s)

/-- The governor withdraws leave at a droop warning: heats whose COMMIT has not left abort (R526, R389). -/
def State.heatDroop (s : State) : State :=
  (s.slotsIn [4]).foldl (fun a k => if a.hasLeave 0 k then a.heatAbort k 7 0x1FF 0 else a) s

/-- A reset of a slice aborts its heats before ARM (R381, R389). -/
def State.heatSlice (s : State) (sl : Nat) : State :=
  (s.slotsIn [1, 2, 3, 4, 5]).foldl (fun a k =>
    if a.rd hcuB (F.HCU_SLOT0_SLICE.ix k) = sl then a.heatAbort k 0x0B 0x1FF 0 else a) s

/-! ### Settling (R372, R383) -/

/-- Slot `k` leaves SETTLING with stragglers `l`: leave is returned, and the commit owes the floors. -/
def State.settled (s : State) (k : Nat) (l : List Nat) : State :=
  let h := s.heat k
  let s := ((s.heatFloors h).relayEnd k).give 0 k
  let c := s.rd hcuB (F.HCU_SLOT0_CLIENT.ix k)
  if l.isEmpty then
    { s.heatDone k with clients := mset (fun _ => (0, 0)) s.clients c (0, (s.client c).2) }.heatPump
  else
    ((((s.heatGo k 9).setHeat k { h with strag := l }).count hcuB F.HCU_CNT_STRAG_COUNT 1).glEvent 1 1).glEvent 1 0 |>.heatPump

/-- SETTLE and MAP (R372): the SETTLE collect starts at T + 100 ns or T + 2,000 ns, its return ends the heat or starts the MAP
collects, and theirs gives the straggler map. `w` is the word that the SETTLE collect returns, `maps` are those of MAP. -/
def State.settle' (s : State) (k : Nat) (w : Word) (maps : List Word) : State :=
  let h := s.heat k
  if s.heatSt k = 6 then
    if 256 * (if s.heatSpan k then 2000 else 100) ≤ s.pastT k ∧ s.relay.isNone = true then
      (s.heatGo k 7).relayStart 4 k
    else s
  else if s.heatSt k ≠ 7 then s
  else if s.relay = some (4, k) then
    if s.collectWord 4 k 0 ≠ (w, true) then s
    else if (voteFields w).1 = s.targetCount k then s.settled k [] else (s.relayEnd k).relayStart 5 k
  else if s.relay = some (5, k) then
    if (List.range (s.mapLen k)).map (s.collectWord 5 k) ≠ maps.map (fun x => (x, true)) then s
    else s.settled k ((List.range h.tgts.length).filter (fun t => !bitAt (maps.getD (t / 32) 0).toNat (t % 32)))
  else s

def execHeatSettle (slot : Nat) (w : Word) (maps : List Word) (s : State) : Host.Outcome State Fault Refusal :=
  guardUnit s (decide (slot < 64)) (s.settle' slot w maps)

/-- A collect has not completed within four times its time (R363, R381): before ARM the heat aborts; in SETTLING no target has
answered, and every one is a straggler. [DESIGN CHOICE: log 61] -/
def execRelayFault (slot : Nat) (s : State) : Host.Outcome State Fault Refusal :=
  guardUnit s (decide (slot < 64))
    (match s.relay with
     | none => s
     | some (r, k) =>
       if k ≠ slot then s
       else if r ≤ 1 then s.heatAbort k 0x0D 0x1FF 0
       else s.settled k (List.range (s.heat k).tgts.length))

/-! ### Reconciliation (R386) -/

/-- Every heat that has NI `n` in its straggler map probes it. -/
def State.reconStart (s : State) (n : Nat) : State :=
  (s.slotsIn [9]).foldl (fun a k =>
    let h := a.heat k
    match h.strag.find? (fun t => h.tgts.getD t 0 == a.nodeId n) with
    | some t => a.probeStrag k t
    | none => a) s

/-- The Starter reports NI `n` up: its stragglers are reconciled, once a reset that covered it has had its configuration restored.
-/
def execReconcileStart (n : Nat) (s : State) : Host.Outcome State Fault Refusal :=
  guardUnit s (s.hasNi n) (if s.restored n then s.reconStart n else s)

/-- HEAT_RECONCILE with MODE `mode`. [DESIGN CHOICE: log 62] -/
def State.heatReconcile (s : State) (x mode : Nat) (c : Cmd) : State :=
  match s.slotOf (c.p 0 16) with
  | none => s.reply x 0x0011 []
  | some k =>
    let t := c.p 16 8
    if s.heatSt k ≠ 9 then s.reply x 0x0006 []
    else if (s.heat k).strag.contains t = false then s.reply x 0x0003 []
    else (if mode = 0 then s.probeStrag k t else s.unstrag k t).reply x 0 []

/-- Whether command `x` is a HEAT_RECONCILE of MODE `mode`. -/
def State.reconMode (s : State) (x mode : Nat) : Bool := match s.cmd x with
  | some c => c.p 24 1 == mode
  | none => false

def execHeatReconcile (x : Nat) (s : State) : Host.Outcome State Fault Refusal :=
  .next (if s.reconMode x 0 then s.runCmd x 0x36 [(0, 25)] (fun c s => s.heatReconcile x 0 c) else s)

def execHeatReconcileDrop (x : Nat) (s : State) : Host.Outcome State Fault Refusal :=
  .next (if s.reconMode x 1 then s.runCmd x 0x36 [(0, 25)] (fun c s => s.heatReconcile x 1 c) else s)

/-! ### Abort, status, close (R390) -/

/-- HEAT_ABORT. -/
def execHeatAbort (x : Nat) (s : State) : Host.Outcome State Fault Refusal :=
  .next (s.runCmd x 0x33 [(0, 16)] (fun c s =>
    match s.slotOf (c.p 0 16) with
    | none => s.reply x 0x0011 []
    | some k => if 5 < s.heatSt k then s.reply x 0x0006 [] else (s.heatAbort k 1 0x1FF 0).reply x 0 []))

/-- Word `i` of slot `k`'s registers as it reads: STRAGGLERS counts the map. -/
def State.slotWord (s : State) (k i : Nat) : Word :=
  let w := s.word (hcuB + 0x100 + 0x20 * k + 4 * i)
  if i = 2 then put F.HCU_SLOT2_STRAGGLERS (s.heat k).strag.length w else w

/-- HEAT_STATUS. -/
def execHeatStatus (x : Nat) (s : State) : Host.Outcome State Fault Refusal :=
  .next (s.runCmd x 0x34 [(0, 16)] (fun c s =>
    match s.slotOf (c.p 0 16) with
    | none => s.reply x 0x0011 []
    | some k => s.reply x 0 ((List.range 8).flatMap (fun i => leBytes 4 (s.slotWord k i).toNat))))

/-- HEAT_CLOSE. -/
def execHeatClose (x : Nat) (s : State) : Host.Outcome State Fault Refusal :=
  .next (s.runCmd x 0x35 [(0, 16)] (fun c s =>
    match s.slotOf (c.p 0 16) with
    | none => s.reply x 0x0011 []
    | some k =>
      if s.heatSt k ≠ 8 ∧ s.heatSt k ≠ 10 then s.reply x 0x0006 []
      else ((s.heatGo k 0).setHeat k {}).reply x 0 []))

/-- Word `w` of slot `k`'s straggler map. -/
def State.stragWord (s : State) (k w : Nat) : Nat :=
  bitsWhere 32 (fun i => (s.heat k).strag.contains (32 * w + i))

/-- HEAT_STRAGGLERS. -/
def execHeatStragglers (x : Nat) (s : State) : Host.Outcome State Fault Refusal :=
  .next (s.runCmd x 0x37 [(0, 16)] (fun c s =>
    match s.slotOf (c.p 0 16) with
    | none => s.reply x 0x0011 []
    | some k => s.reply x 0 ((List.range 8).flatMap (fun w => leBytes 4 (s.stragWord k w)))))

/-! ### What the HCU's registers show (R391) -/

/-- The word of the HCU at `rel` as a read sees it, over the stored word `w`. -/
def State.viewHcu (s : State) (rel : Nat) (w : Word) : Word :=
  match rel with
  | 0x18 => BitVec.ofNat 32 ((64 - (s.slotsIn [0]).length) + 65536 * s.journal + 2 ^ 31 * b2n (!(s.slotsIn [9]).isEmpty))
  | 0x34 =>
    let (k, t) := s.client (s.rd hcuB F.HCU_CLIENT_IDX_CLIENT)
    let fc := (t - s.clock) * s.mhz s.rom.homeRegion / 1250
    BitVec.ofNat 32 (k + 65536 * min (cdiv fc 32) 2047)
  | _ =>
    if 0x44 ≤ rel ∧ rel < 0x64 then BitVec.ofNat 32 (s.stragWord (s.rd hcuB F.HCU_STRAG_IDX_SLOT) ((rel - 0x44) / 4))
    else if 0x100 ≤ rel ∧ rel % 0x20 = 8 then put F.HCU_SLOT2_STRAGGLERS (s.heat ((rel - 0x100) / 0x20)).strag.length w
    else w

end Sys2Proof.Machine
end

