-- ==== Sys2Proof/Machine/Target.lean ====
section
/-! DEFINITION. The endpoint port's answers and its reset (R77, R78, R80, R96 to R98, R100, R217, R218, R357, R360): responses
on RPI, and EP_RST_N. -/

namespace Sys2Proof.Machine

/-- Data bytes that a response with an OKAY or EXOKAY status returns (R73, R74, R100). -/
def rspLen (h : Hdr) : Nat :=
  if h.ptype = 6 then (if h.op = 9 then 4 else 0)
  else match h.op with
    | 0 => h.len
    | 2 => h.len
    | 4 => h.len
    | 5 => h.len
    | 6 => h.len / 2
    | _ => 0

/-- The answer to an EP_WRITE of a heat (R357, R378): OK, or EP_ERROR with the endpoint's status. [DEDUCED: log 63] -/
def State.epAnswer (s : State) (n : Nat) (h : Hdr) (ep : Nat × Nat × Nat) (status : Nat) : State :=
  s.stageAck n h.src ep.1 ep.2.1 (if status = 0 then 0 else 5) (if status = 0 then 0 else status) ep.2.2

/-! ### Delivery on AQE (R77, R79, R215 to R220, R429) -/

/-- A request that waits for AQE is answered with a status instead. -/
def State.turnAway (s : State) (n k : Nat) (p : Pk) (status : Nat) : State :=
  let s := s.updNi n (fun x => { x with aqq := x.aqq.filter (fun j => j != k) })
  (match p.ep with
   | some e => s.epAnswer n p.hdr e status
   | none => s.respond n p.hdr (p.vc % 4) status []).dropPk n k

/-- The next request is delivered; with TGT_EN = 0 it is answered DECODE_ERROR (R79), and a conditional store without a
reservation is answered COND_FAIL (R217). A beat that stands VALID on AQE is delivered whatever TGT_EN and the reservations have
become since (R57). [DESIGN CHOICE: log 118] -/
def State.deliver (s : State) (n : Nat) : State :=
  let x := s.ni n
  match s.nextReq n with
  | none => s
  | some k =>
    match x.pk k with
    | none => s
    | some p =>
      let h := p.hdr
      let mon := s.flag (niB n) F.NI_RSV_CFG_MON && h.ptype == 0
      let span := opSpan h.op h.len
      let stood := x.stood 3 == some k
      if s.flag (niB n) F.NI_EP_CFG_TGT_EN = false ∧ stood = false then s.turnAway n k p 0x0D
      else if x.freeDtag.isNone || !x.up then s
      else if mon && h.op == 2 then
        let s := s.setRsv n h.src h.slice h.addr
        s.present n k p true (((s.ni n).rsvs.getLast?.map (fun r => r.ser)).getD 0)
      else if mon && h.op == 3 then
        if stood then s.present n k p true 0
        else if s.rsvMatch n h.src h.slice h.addr then
          let (s, bad) := s.spurious n (h.src * 64 + h.slice)
          if bad then s.turnAway n k p 0x02 else s.present n k p true 0
        else s.turnAway n k p 0x02
      else if h.ptype == 0 && (h.op == 1 || (decide (3 ≤ h.op) && decide (h.op ≤ 6))) then
        let s := if mon then s.clearRsv n h.src h.slice h.addr span else s
        (s.migLog n h.slice h.addr span).present n k p false 0
      else s.present n k p false 0

/-- The target NI delivers a request on AQE. [DESIGN CHOICE: log 26] -/
def execTargetDelivery (n : Nat) (_t : Stamp) (s : State) : Host.Outcome State Fault Refusal :=
  guardUnit s (s.hasNi n) (if s.niClocked n then (s.deliver n).settleAll n else s)

/-! ### Responses on RPI -/

/-- A delivery ends with a status and data: it is answered toward its requester. `port` says that the answer has come on RPI. -/
def State.answerDlv (s : State) (n : Nat) (d : Dlv) (port : Bool) (status : Nat) (data : List Byte) : State :=
  match d.ep with
  | some e => s.epAnswer n d.hdr e status
  | none => s.pushSys n { s.rspQp n d.hdr d.sc status data with rpi := port }

/-- Whether two deliveries are pieces of one request (R188). -/
def Dlv.same (c d : Dlv) : Bool := c.hdr.src == d.hdr.src && c.hdr.tag == d.hdr.tag && c.hdr.gen == d.hdr.gen && c.ep.isNone && d.ep.isNone

/-- Whether an earlier piece of the same request is still to be answered: the answers of the pieces sent to one NI return in their
order, whatever the endpoint's (R77, R189). [DESIGN CHOICE: log 137] -/
def NiSt.owes (x : NiSt) (d : Dlv) : Bool := x.dlv.any (fun e => match e.2 with
  | some c => c.same d && decide (c.ser < d.ser) && !c.drop
  | none => false)

/-- The answers that have waited for a piece of their request go out in their order (R189). `fuel` bounds their number. -/
def State.answerHeld (s : State) (n : Nat) (d : Dlv) : Nat → State
  | 0 => s
  | fuel + 1 =>
    match (s.ni n).dlv.findSome? (fun e => match e.2 with
      | some c => if c.same d && c.ans.isSome && !(s.ni n).owes c then some (e.1, c) else none
      | none => none) with
    | none => s
    | some (t, c) =>
      let s := s.updNi n (fun x => x.setDel t none)
      let a := if c.cut then (0x11, []) else c.ans.getD (0, [])
      (if c.drop then s else s.answerDlv n c true a.1 a.2).answerHeld n d fuel

/-- The code that stands for the endpoint's (R78): any other is replaced with TARGET_ERROR and FIXUP is set. -/
def State.rspFix (s : State) (n status : Nat) : State × Nat :=
  if status ≤ 2 ∨ status = 8 ∨ (status ≤ 5 ∧ (niRec s.rom n).epRole = 3) then (s, status)
  else (s.wr (niB n) F.NI_EP_STAT_FIXUP 1, 8)

/-- The monitor's part in a response (R217): an error clears the reservation that this very reserved load has set, and a
conditional store that has succeeded clears its granule, at this answer and not at its delivery.
[DESIGN CHOICE: log 117] -/
def State.rspMonitor (s : State) (n : Nat) (d : Dlv) (status : Nat) : State × Nat :=
  let h := d.hdr
  if d.rsvd && h.op == 2 then
    if status = 0 then (s, 1)
    else if status = 1 then (s, 1)
    else (s.updNi n (fun x => { x with rsvs := x.rsvs.filter (fun r => r.ser != d.rser) }), status)
  else if d.rsvd && h.op == 3 then
    if status ≤ 1 then (s.clearGranule n h.addr h.len, 1) else (s, status)
  else (s, status)

/-- A response on RPI with delivery tag `t`. A conditional store that has succeeded counts as a delivered write though its slice has
been squashed since (R429). -/
def State.rpi (s : State) (n t status : Nat) (data : List Byte) : State :=
  match ((s.ni n).del t).filter (fun d => d.ans.isNone) with
  | none => s.wr (niB n) F.NI_EP_STAT_PROTO 1
  | some d =>
    let s := s.updNi n (fun x => x.setDel t none)
    let (s, st) := s.rspFix n status
    let (s, st) := if d.cut then (s, 0x11) else s.rspMonitor n d st
    let s := if d.hdr.ptype = 0 ∧ d.hdr.op = 3 ∧ st = 1 then s.migLog n d.hdr.slice d.hdr.addr d.hdr.len else s
    if d.drop then s
    else
      let (s, l) := if st ≤ 1 then fillData s data (rspLen d.hdr) else (s, [])
      if (s.ni n).owes d then s.updNi n (fun x => x.setDel t (some { d with ans := some (st, l) }))
      else (s.answerDlv n d true st l).answerHeld n d 512

/-- RPI_READY as the converter's buffer drives it: a response that the system queue cannot take keeps its beats there (R63, R252).
-/
def State.rpiReady (s : State) (n : Nat) : Bool :=
  decide (((s.ni n).sysPend.filter (fun p => p.rpi)).foldl (fun a p => a + max 1 (cdiv p.len (beatBytes s.rom n))) 0 < cvtBeats s.rom n)

/-- A target endpoint returns a response. The class is that of its request (R117), so `_sc` decides nothing. -/
def execRpiResponse (n dtag _sc status : Nat) (data : List Byte) (s : State) : Host.Outcome State Fault Refusal :=
  guardUnit s (s.hasNi n) (if (s.ni n).up && s.rpiReady n then s.rpi n dtag status data else s)

/-! ### EP_RST_N (R96 to R98, R218, R360) -/

/-- Deliveries in the order in which they were made. -/
def dlvOrder (l : List (Nat × Dlv)) : List (Nat × Dlv) :=
  l.foldl (fun r e => r.takeWhile (fun c => decide (c.2.ser ≤ e.2.ser)) ++ e :: r.dropWhile (fun c => decide (c.2.ser ≤ e.2.ser))) []

/-- Every delivery without a response is answered EP_RESET, and one whose answer waits for its turn with that answer. -/
def State.resetDlvs (s : State) (n : Nat) : State :=
  (dlvOrder ((s.ni n).dlv.filterMap (fun e => e.2.map (fun d => (e.1, d))))).foldl (fun a e =>
    let a := a.updNi n (fun x => x.setDel e.1 none)
    let r := if e.2.cut && e.2.ans.isSome then (0x11, []) else e.2.ans.getD (9, [])
    if e.2.drop then a else a.answerDlv n e.2 false r.1 r.2) s

/-- Every request that waits for the endpoint is answered EP_RESET, every stream packet dropped and counted. -/
def State.resetEgress (s : State) (n : Nat) : State :=
  let x := s.ni n
  let s := s.setNi n { x with aqq := [], wqq := [], stq := [], migHeld := [], stalls := [] }
  let s := (x.aqq ++ x.migHeld).foldl (fun a k => match (a.ni n).pk k with
    | none => a
    | some p =>
      (match p.ep with
       | some e => a.epAnswer n p.hdr e 9
       | none => a.respond n p.hdr (p.vc % 4) 9 []).dropPk n k) s
  let s := x.wqq.foldl (fun a e => a.dropPk n e.2) s
  x.stq.foldl (fun a k => (a.streamDrop n).dropPk n k) s

/-- The packets that wait in the converter, but for a stream packet whose last beat still stands at the port and is withdrawn (R63,
R96). `lim` beats of `bb` bytes fit. [DESIGN CHOICE: log 115] -/
def keepWhole (lim bb : Nat) : Nat → List Wait → List Wait
  | _, [] => []
  | a, w :: r =>
    if w.st = false then w :: keepWhole lim bb a r
    else
      let a := w.qps.foldl (fun b p => b + cdiv p.len bb) a
      if a ≤ lim then w :: keepWhole lim bb a r else keepWhole lim bb a r

/-- What the endpoint had under way at ingress: its tags stay in use and their responses are discarded; a request whose write data
are not complete leaves its queue, and a stream packet that has not transferred whole is withdrawn; stores in the store buffer are
delivered. An evidence write is the instance's own: its tag does not hold NI_UP low (R98).
[DEDUCED: log 63; DESIGN CHOICE: log 138] -/
def NiSt.resetIngress (x : NiSt) (big : Bool) (lim bb : Nat) : NiSt :=
  let short := (x.wq.filter (fun w => !w.discard)).map (fun w => w.ser)
  let mark := x.tags.map (fun e => (e.1, e.2.map (fun g =>
    if g.evd then g
    else { g with preRst := true })))
  let y := ({ x with tags := mark } : NiSt).purge big (fun p => p.isReq && short.contains p.ser)
  let y := x.tags.foldl (fun (a : NiSt) e => match e.2 with
    | some g => if short.contains g.ser && !g.evd then a.freeTag e.1 else a
    | none => a) y
  let y := (x.rpq ++ x.ord.filterMap (fun o => o.rsp)).foldl (fun (a : NiSt) r => a.forgetPk r.pk) y
  { y with wq := [], ahead := [], rpq := [], ord := [], cvt := keepWhole lim bb 0 y.cvt }

/-- The staged state of heats at the endpoint is lost (R360). -/
def NiSt.resetHeats (x : NiSt) : NiSt :=
  { x with tgts := x.tgts.map (fun e => (e.1, e.2.map (fun g =>
      if g.ep then { g with lost := true, st := if g.st = 4 then 6 else g.st } else g))) }

/-- EP_RST_N asserts. -/
def execEpRstAssert (n : Nat) (s : State) : Host.Outcome State Fault Refusal :=
  guardUnit s (s.hasNi n)
    (if (s.ni n).epLow then s
     else
       let s := ((s.resetDlvs n).resetEgress n).updNi n (fun x =>
         { (x.resetIngress (bigSched s.rom n) (cvtBeats s.rom n) (beatBytes s.rom n)).resetHeats with up := false, epLow := true, rsvs := [] })
       let s := forAll s.rom.nis.length (fun m a => a.updNi m (fun x => { x with
         rsvs := x.rsvs.filter (fun r => r.node != s.nodeId n) })) s
       (s.wr (niB n) F.NI_EP_STAT_EPRST 1).alert n 0)

end Sys2Proof.Machine
end

