-- ==== Sys2Proof/Machine/Slice.lean ====
section
/-! DEFINITION. Slices (R421 to R445): maps and shares, slice states and slice resets, migration logging and staging. -/

namespace Sys2Proof.Machine

/-! ### The slice manager (R435) -/

/-- What the slice manager holds of a slice. -/
def State.slc (s : State) (sl : Nat) : SliceSt := mget (fun _ => {}) s.slcs sl
/-- The state with a slice's record changed. -/
def State.updSlc (s : State) (sl : Nat) (f : SliceSt → SliceSt) : State :=
  { s with slcs := mset (fun _ => {}) s.slcs sl (f (s.slc sl)) }
/-- STATE of a slice. -/
def State.slcSt (s : State) (sl : Nat) : Nat := s.rd slcB (F.SLC_ST_STATE.ix sl)
/-- A slice in a state. -/
def State.slcGo (s : State) (sl st : Nat) : State := s.wr slcB (F.SLC_ST_STATE.ix sl) st
/-- The slice whose reset runs. -/
def State.slcBusy (s : State) : Option Nat := (List.range 63).find? (fun sl => s.slcSt sl == 1 || s.slcSt sl == 2)

/-- STAT as it reads: whether a reset or a sync runs, and its slice. -/
def State.slcStat (s : State) (w : Word) : Word :=
  let cur := match s.slcBusy, s.migSync with
    | some sl, _ => some sl
    | none, some m => some m.slice
    | none, none => none
  match cur with
  | some sl => put F.SLC_STAT_BUSY 1 (put F.SLC_STAT_SLICE sl w)
  | none => put F.SLC_STAT_BUSY 0 w

/-- A slice event message to the endpoint of NI `n` (R440): 1 CLOSE, 2 SQUASH, 3 DONE, 4 OPEN. -/
def State.slcMsg (s : State) (kind sl n : Nat) : State :=
  let maps := (s.ni n).pid.any (fun e => bitAt e.2 31 && bitsAt e.2 20 6 == sl)
  if maps || poolNi s.rom == some n then s.sbeEvent n (BitVec.ofNat 32 (0x534C0000 + 256 * kind + sl)) else s

/-! ### Map and share (R422, R424, R442) -/

/-- SLICE_MAP. -/
def execSliceMap (x : Nat) (s : State) : Host.Outcome State Fault Refusal :=
  .next (s.runCmd x 0x40 [(0, 8), (16, 10), (32, 20), (56, 7)] (fun c s =>
    let n := c.p 0 8
    if s.hasNi n = false ∨ (niRec s.rom n).pidMap ≤ c.p 16 10 ∨ c.p 56 6 = 63 then s.reply x 0x0003 []
    else
      let w := c.p 32 20 + 2 ^ 20 * c.p 56 6 + 2 ^ 31 * c.p 62 1
      (s.updNi n (fun y => { y with pid := mset (fun _ => 0) y.pid (c.p 16 10) w })).reply x 0 []))

/-- SLICE_SHARE. -/
def execSliceShare (x : Nat) (s : State) : Host.Outcome State Fault Refusal :=
  .next (s.runCmd x 0x41 [(0, 14), (32, 10), (48, 11), (64, 10), (80, 11)] (fun c s =>
    let n := c.p 0 8
    let sl := c.p 8 6
    if s.hasNi n = false ∨ sl = 63 then s.reply x 0x0003 []
    else
      let o := niB n + 0x2400 + 8 * sl
      ((s.setWord o (BitVec.ofNat 32 (c.p 32 32))).setWord (o + 4) (BitVec.ofNat 32 (c.p 64 32))).reply x 0 []))

/-! ### Close (R423, R436) -/

/-- Every SC0 reservation and SC1 grant of a slice at NI `n` loses GRANTED. -/
def State.revoke (s : State) (n sl : Nat) : State :=
  let s := forAll 16 (fun k a =>
    if mget (fun _ => 63) (a.ni n).rsvSl k = sl then a.wr (niB n) (F.NI_SC0_RSV0_GRANTED.ix k) 0 else a) s
  let s := forAll 16 (fun k a => if mget (fun _ => 63) (a.ni n).shpSl k = sl then a.wr (niB n) (shpGranted k) 0 else a) s
  s.holdRuns

/-- CLOSE reaches NI `n`. [DESIGN CHOICE: log 65] -/
def State.sliceClose (s : State) (n sl : Nat) : State :=
  if bitAt (s.ni n).closed sl then s
  else
    let s := s.updNi n (fun x => { x with
      closed := x.closed ||| 2 ^ sl, rsvs := x.rsvs.filter (fun r => r.slice != sl) })
    ((s.revoke n sl).heatSlice sl).slcMsg 1 sl n

def execSliceCloseReceive (n sl : Nat) (s : State) : Host.Outcome State Fault Refusal :=
  guardUnit s (s.hears n && decide (sl < 63)) (if s.slcSt sl = 0 then s else s.sliceClose n sl)

/-! ### Squash (R416, R438) -/

/-- The tags of a slice are freed at once, and its requests are owed no response (R438). -/
def NiSt.freeSlice (x : NiSt) (sl : Nat) : NiSt :=
  let mine := x.tags.filterMap (fun e => match e.2 with
    | some g => if g.slice = sl ∧ g.evd = false then some (e.1, g) else none
    | none => none)
  let sers := mine.map (fun e => e.2.ser)
  let y := mine.foldl (fun (a : NiSt) e => a.freeTag e.1) x
  let y := (y.ord.filterMap (fun o => if sers.contains o.ser then o.rsp else none)).foldl (fun (a : NiSt) r => a.forgetPk r.pk) y
  { y with ord := y.ord.filter (fun o => !sers.contains o.ser)
           wq := y.wq.map (fun (w : WqExp) => if sers.contains w.ser then { w with discard := true, answered := true } else w)
           bars := y.bars.filter (fun b => !sers.contains b.ser) }.flush

/-- What an NI has of a squashed slice at ingress, in its resequencer and in its monitor. -/
def NiSt.squashSlice (x : NiSt) (big : Bool) (sl : Nat) : NiSt :=
  let held := x.heldPkts
  let y := x.purge big (fun p => p.slice == sl)
  let y := { y.dropSys (fun p => p.slice == sl && p.copyOf.isSome) with
    twins := y.twins.filter (fun t => t.slice != sl)
    pks := y.pks.map (fun (e : Nat × Option Pk) => (e.1, e.2.map (fun (p : Pk) =>
      if held.contains e.1 && p.hdr.slice == sl then { p with void := true } else p)))
    dlv := y.dlv.map (fun (e : Nat × Option Dlv) => (e.1, e.2.map (fun (d : Dlv) => if d.hdr.slice = sl then { d with drop := true } else d)))
    squash := y.squash ||| 2 ^ sl }
  y.freeSlice sl

/-- Requests and stream packets of a slice that have reached NI `n` and have not begun their delivery are dropped like later
arrivals. [DEDUCED: log 64] -/
def State.squashWaiting (s : State) (n sl : Nat) : State :=
  let x := s.ni n
  let mine (k : Nat) : Bool := match x.pk k with
    | some p => p.hdr.slice == sl && !p.begun
    | none => false
  let s := s.setNi n { x with aqq := x.aqq.filter (fun k => !mine k), stq := x.stq.filter (fun k => !mine k) }
  ((x.aqq ++ x.stq).filter mine).foldl (fun a k => (a.count (niB n) F.NI_SLC_SQUASH_CNT_COUNT 1).dropPk n k) s

/-- SQUASH reaches NI `n`: stores that the buffer holds are counted and logged, requests held in migration staging are
discarded, and the rest goes. [DEDUCED: log 64] -/
def State.sliceSquash (s : State) (n sl : Nat) : State :=
  let s := s.sliceClose n sl
  if bitAt (s.ni n).squash sl then s
  else
    let x := s.ni n
    let s := x.tags.foldl (fun a e => match e.2 with
      | some g => if g.slice = sl ∧ x.sbSers.contains g.ser = true then a.sbDiscard n g else a
      | none => a) s
    let mine (k : Nat) : Bool := match x.pk k with
      | some p => p.hdr.slice == sl
      | none => false
    let s := s.updNi n (fun y => { y with migHeld := y.migHeld.filter (fun k => !mine k) })
    let s := (x.migHeld.filter mine).foldl (fun a k => a.dropPk n k) s
    ((s.updNi n (fun y => y.squashSlice (bigSched s.rom n) sl)).squashWaiting n sl).slcMsg 2 sl n

def execSliceSquashReceive (n sl : Nat) (s : State) : Host.Outcome State Fault Refusal :=
  guardUnit s (s.hears n && decide (sl < 63))
    (if s.slcSt sl = 0 ∨ s.slcSt sl = 1 then s else s.sliceSquash n sl)

/-! ### Slice reset (R435, R437, R439) -/

/-- SLICE_RESET: its CLOSE and SQUASH are yet to reach every NI. -/
def execSliceReset (x : Nat) (s : State) : Host.Outcome State Fault Refusal :=
  .next (s.runCmd x 0x42 [(0, 6), (8, 1)] (fun c s =>
    let sl := c.p 0 6
    if sl = 63 then s.reply x 0x0003 []
    else if s.slcBusy.isSome then s.reply x 0x0006 []
    else
      let st := if s.slcSt sl = 0 ∧ c.p 8 1 = 0 then 1 else 2
      let off (m : Nat) : Nat := if bitAt m sl then m - 2 ^ sl else m
      let s := forAll s.rom.nis.length (fun n a =>
        a.updNi n (fun y => { y with closed := off y.closed, squash := off y.squash })) s
      let s := (s.slcGo sl st).wr slcB (F.SLC_ST_MODE.ix sl) (c.p 8 1)
      (s.count slcB F.SLC_RST_CNT_COUNT 1).updSlc sl (fun v => { v with cmd := some x, ni := 0xFF })))

/-- What NI `n` contributes to the collect of a slice (R437). An NI of a region in Sleep or deeper contributes 0. -/
def State.sliceWork (s : State) (sl n : Nat) : Nat :=
  let x := s.ni n
  if [2, 3, 4].contains (s.rgState (niRec s.rom n).region) then 0
  else
    let cnt (l : List Qp) : Nat := (l.filter (fun p => p.slice == sl)).length
    let dl := (x.dlv.filter (fun e => match e.2 with
      | some d => d.hdr.slice == sl
      | none => false)).length
    let st := (x.sbSers.filter (fun k => x.tags.any (fun e => match e.2 with
      | some g => g.ser == k && g.slice == sl
      | none => false))).length
    let mg := (x.migHeld.filter (fun k => match x.pk k with
      | some p => p.hdr.slice == sl
      | none => false)).length
    x.sliceTags sl + dl + st + cnt ((x.qs.flatMap (fun e => e.2.pkts)).filter (fun p => !p.sb)) + mg

/-- The sum over the NIs, and the lowest index with a nonzero count. -/
def State.sliceSum (s : State) (sl : Nat) : Nat × Nat :=
  let l := (List.range s.rom.nis.length).map (s.sliceWork sl)
  (l.foldl (fun a v => a + v) 0, if l.all (fun v => v == 0) then 0xFF else l.findIdx (fun v => v != 0))

/-- Whether every NI that runs has received the broadcast. -/
def State.sliceTold (s : State) (sl : Nat) : Bool :=
  (List.range s.rom.nis.length).all (fun n =>
    let x := s.ni n
    x.recov || [2, 3, 4].contains (s.rgState (niRec s.rom n).region)
      || bitAt (if s.slcSt sl = 1 then x.closed else x.squash) sl)

/-- A collect of a slice reset returns. -/
def State.sliceCollect (s : State) (sl : Nat) : State :=
  if (s.slcSt sl ≠ 1 ∧ s.slcSt sl ≠ 2) ∨ s.sliceTold sl = false then s
  else
    let (sum, lo) := s.sliceSum sl
    let s := (s.wr slcB (F.SLC_ST_LAST.ix sl) (min sum 0xFFFF)).updSlc sl (fun v => { v with ni := lo })
    let armed := (s.slotsIn [6, 7]).any (fun k => s.rd hcuB (F.HCU_SLOT0_SLICE.ix k) == sl)
    if sum ≠ 0 ∨ armed = true then s
    else
      let x := (s.slc sl).cmd
      let s := (s.slcGo sl 3).updSlc sl (fun v => { v with cmd := none, since := s.clock })
      let s := (forAll s.rom.nis.length (fun n a => a.slcMsg 3 sl n) s).wr slcB F.SLC_STAT_DONE 1
      (s.glEvent 4 0).replyOpt x 0 []

def execSliceCollect (sl : Nat) (s : State) : Host.Outcome State Fault Refusal :=
  guardUnit s (decide (sl < 63)) (s.sliceCollect sl)

/-- DRAIN_TMO: SQUASH goes out. -/
def execSliceDrainTmo (sl : Nat) (s : State) : Host.Outcome State Fault Refusal :=
  guardUnit s (decide (sl < 63)) (if s.slcSt sl = 1 then s.slcGo sl 2 else s)

/-- QUIESCE_TMO: the slice is FAILED and the last collect is recorded. -/
def execSliceQuiesceTmo (sl : Nat) (s : State) : Host.Outcome State Fault Refusal :=
  guardUnit s (decide (sl < 63))
    (if s.slcSt sl ≠ 2 then s
     else
       let v := s.slc sl
       let s := ((s.slcGo sl 4).updSlc sl (fun v => { v with cmd := none })).wr slcB F.SLC_RST_LOG_NI v.ni
       let s := (s.wr slcB F.SLC_RST_LOG_COUNT (s.rd slcB (F.SLC_ST_LAST.ix sl))).wr slcB F.SLC_STAT_FAIL 1
       (s.glEvent 4 1).replyOpt v.cmd 0x000C [])

/-- SLICE_OPEN: no earlier than 10 µs after CLOSED. [DESIGN CHOICE: log 65] -/
def execSliceOpen (x : Nat) (s : State) : Host.Outcome State Fault Refusal :=
  .next (s.runCmd x 0x43 [(0, 6)] (fun c s =>
    let sl := c.p 0 6
    if sl = 63 then s.reply x 0x0003 []
    else if s.slcSt sl ≠ 3 ∨ s.clock < (s.slc sl).since + 10 * usTc then s.reply x 0x0006 []
    else
      let off (m : Nat) : Nat := if bitAt m sl then m - 2 ^ sl else m
      let s := forAll s.rom.nis.length (fun n a =>
        (a.updNi n (fun y => { y with closed := off y.closed, squash := off y.squash })).slcMsg 4 sl n) s
      (s.slcGo sl 0).reply x 0 []))

/-- SLICE_STATUS. -/
def execSliceStatus (x : Nat) (s : State) : Host.Outcome State Fault Refusal :=
  .next (s.runCmd x 0x44 [(0, 6)] (fun c s =>
    s.reply x 0 (leBytes 4 (s.word (slcB + 0x100 + 4 * c.p 0 6)).toNat ++ leBytes 4 (s.word (slcB + 0xC)).toNat)))

/-! ### Migration (R430 to R434) -/

/-- SLICE_MIG_SYNC. [DESIGN CHOICE: log 65] -/
def execSliceMigSync (x : Nat) (s : State) : Host.Outcome State Fault Refusal :=
  .next (s.runCmd x 0x45 [(0, 6), (12, 20), (32, 32)] (fun c s =>
    if s.slcBusy.isSome || s.migSync.isSome then s.reply x 0x0006 []
    else { s with migSync := some { cmd := x, slice := c.p 0 6, node := c.p 12 20, limit := c.p 32 32, t0 := s.clock } }))

/-- Tags of a slice at NI `n` whose request goes to a node. -/
def State.tagsToward (s : State) (n sl node : Nat) : Nat :=
  ((s.ni n).tags.filter (fun e => match e.2 with
    | some g => g.slice == sl && (g.dkey == node || (decide (2 ^ 20 ≤ g.dkey) && g.parts.any (fun p => s.nodeId p.ni == node)))
    | none => false)).length

/-- A collect of SLICE_MIG_SYNC returns: the command is answered at 0, or with the last count at its limit. -/
def execMigSyncCollect (s : State) : Host.Outcome State Fault Refusal :=
  .next (match s.migSync with
    | none => s
    | some m =>
      let k := (List.range s.rom.nis.length).foldl (fun a n => a + s.tagsToward n m.slice m.node) 0
      if k = 0 then ({ s with migSync := none }).reply m.cmd 0 []
      else if m.t0 + m.limit * usTc ≤ s.clock then ({ s with migSync := none }).reply m.cmd 0x000C (leBytes 4 k)
      else { s with migSync := some { m with last := k } })

/-- SWAP: the dirty banks change places and the new active bank is empty (R430). -/
def State.migSwap (s : State) (n : Nat) : State := s.updNi n (fun x => { x with migF := x.migA, migA := 0 })

/-- A write of STAGE: a claim or a release of the resequencer buffer (R431, R433). -/
def State.migStage (s : State) (n : Nat) (v : Bool) : State :=
  let b := niB n
  if v then
    if (s.ni n).reseqOwner = 0 then ((s.updNi n (fun x => { x with reseqOwner := 2 })).wr b F.NI_MIG_CTL_STAGE 1).noteClaim (reseqRes n) else s
  else if s.flag b F.NI_MIG_CTL_HOLD then s
  else if (s.ni n).reseqOwner = 2 then (s.updNi n (fun x => { x with reseqOwner := 0 })).wr b F.NI_MIG_CTL_STAGE 0 else s

/-- A write of HOLD: a hold begins, or the held requests go to the endpoint ahead of any later arrival (R433). -/
def State.migHold (s : State) (n : Nat) (v : Bool) : State :=
  let b := niB n
  if v then (if s.flag b F.NI_MIG_CTL_STAGE then s.wr b F.NI_MIG_CTL_HOLD 1 else s)
  else (s.updNi n (fun x => { x with aqq := x.migHeld ++ x.aqq, migHeld := [] })).wr b F.NI_MIG_CTL_HOLD 0

end Sys2Proof.Machine
end

