-- ==== Sys2Proof/Machine/Pacer.lean ====
section
/-! DEFINITION. Regions under the Pacer: degraded ordering mode (R219), the freeze of hop sets (R299 to R301), and steps of
frequency and voltage (R300, R518 to R520, R649). -/

namespace Sys2Proof.Machine

/-! ### Degraded ordering mode (R219) -/

/-- Whether degraded ordering mode holds. -/
def State.wantDegraded (s : State) : Bool := !s.ready || s.rd dbgB F.DBG_STAT_TEST != 0 || s.pacer.faults != 0

/-- Entry into and exit from degraded ordering mode follow what holds; entry clears every reservation (R218). -/
def State.orderSync (s : State) : State :=
  let w := s.wantDegraded
  let s1 := if s.pacer.degraded = w then s
    else
      let s := { s with pacer := { s.pacer with degraded := w } }
      let s := if w then forAll s.rom.nis.length (fun n a => a.updNi n (fun x => { x with rsvs := [] })) s else s
      s.glEvent 9 0
  forAll s1.rom.nis.length (fun n a => a.wr (niB n) F.NI_ORD_STAT_DEGRADED (b2n w)) s1

/-! ### Regions -/

/-- Every NI of region `g`. -/
def nisOf (rom : Rom) (g : Nat) : List Nat := (List.range rom.nis.length).filter (fun n => (niRec rom n).region == g)
/-- Every router index of region `g`. -/
def rtrsOf (rom : Rom) (g : Nat) : List Nat := (List.range rom.rtrs.length).filter (fun r => (rtrRec rom r).region == g)
/-- Every Span port of region `g`. -/
def spansOf (rom : Rom) (g : Nat) : List Nat := (List.range rom.spans.length).filter (fun k => (spanRec rom k).region == g)

/-- The Pacer's data, changed. -/
def State.updPacer (s : State) (f : Pacer → Pacer) : State := { s with pacer := f s.pacer }

/-- Frequency and voltage in force in region `g` (R532). -/
def State.setOp (s : State) (g mhz mv : Nat) : State := (s.wr pcrB (F.PCR_RG_OP_MHZ.ix g) mhz).wr pcrB (F.PCR_RG_OP_MV.ix g) mv
/-- The voltage in force in region `g`, mV. -/
def State.mv (s : State) (g : Nat) : Nat := s.rd pcrB (F.PCR_RG_OP_MV.ix g)

/-- Whether the ceiling table allows a frequency at a voltage (R52): the highest record whose MV does not exceed it decides.
[DESIGN CHOICE: log 77] -/
def ceilOk (rom : Rom) (g mhz mv : Nat) : Bool :=
  match (rom.ceils.filter (fun c => c.region == g && decide (c.mv ≤ mv))).getLast? with
  | some c => decide (mhz ≤ c.fmax)
  | none => false

/-! ### Hop sets (R298 to R301) -/

/-- The nodes of region `g`'s hop set that stand in no pass-through. -/
def State.calNodes (s : State) (g : Nat) : List Nat := (s.hopSet g).filter (fun r => !s.passNode r)
/-- Whether a run is in progress in region `g`'s hop set. -/
def State.calRuns (s : State) (g : Nat) : Bool := (s.hopSet g).any (fun r => (s.node r).run)

/-- Whether a frozen set shares a hop with region `g`'s. -/
def State.frozenNear (s : State) (g : Nat) : Bool := s.time.freezes.any (fun f => f.g == g || s.hopShare f.g g)

/-- The Time Unit is asked to freeze the hop set of `g`: it takes effect once two markers have passed (R299). -/
def State.freezeAsk (s : State) (g why : Nat) : State :=
  (s.updTime (fun t => { t with freezes := t.freezes ++ [{ g := g, why := why, left := 2 }] })).refreshTime

/-- Steps and droop warnings whose freeze was held back ask for it once no frozen set shares a hop with theirs (R300, R301). -/
def State.freezeNext (s : State) : State :=
  forAll s.rom.regions.length (fun g a =>
    if a.frozenNear g then a
    else match (a.rg g).step with
      | some d =>
        if d.ph = 0 then (a.updRg g (fun r => { r with step := some { d with ph := 1 } })).freezeAsk g 0 else a
      | none => if a.rd pcrB (F.PCR_RG_STAT_DWARN_NOW.ix g) = 1 then a.freezeAsk g 1 else a) s

/-- A freeze is lifted: nodes that no other freeze holds track again. -/
def State.thaw (s : State) (g why : Nat) : State :=
  let left := s.time.freezes.filter (fun f => !(f.g == g && f.why == why))
  let s := s.updTime (fun t => { t with freezes := left })
  let s := (s.hopSet g).foldl (fun a r =>
    if left.any (fun f => f.left == 0 && a.inHopSet f.g r) then a else a.setNode r { a.node r with frozen := false }) s
  s.freezeNext.refreshTime

/-! ### Steps (R300, R518 to R520) -/

/-- A step of region `g` ends with a status: the region returns to its state, its floors are owed (R240), and the command is
answered. [DESIGN CHOICE: log 68] -/
def State.stepEnd (s : State) (g st : Nat) : State :=
  match (s.rg g).step with
  | none => s
  | some d =>
    let s := (s.updRg g (fun r => { r with step := none })).thaw g 0
    let low := (List.range s.rom.regions.length).any (fun h => match (s.rg h).step with
      | some e => decide (e.mhz < e.oldMhz)
      | none => false)
    let s := { (s.wr pcrB F.PCR_STAT_LOWER_BUSY (b2n low)).floorsDue with floorStep := s.floorStep ||| 2 ^ g }
    s.reply d.cmd st []

/-- The calibration that ends a step is over: RECAL_FAIL where a hop of the set is uncalibrated (R297, R300). -/
def State.stepCal (s : State) (g : Nat) : State :=
  match (s.rg g).step with
  | none => s
  | some d =>
    if d.ph ≠ 3 ∨ s.calRuns g = true then s
    else
      let bad := (s.calNodes g).any (fun r => !(s.node r).cal)
      (s.stepEnd g (d.bad.getD (if bad then 0x0033 else 0))).rgGo g (s.rg g).prev

/-- What follows a change of a step: the next change, or the calibration of the hop set. [DESIGN CHOICE: log 68] -/
def State.stepGo (s : State) (g : Nat) (d : DStep) : State :=
  if d.todo.isEmpty then
    ((s.updRg g (fun r => { r with step := some { d with ph := 3 } })).startRuns (s.calNodes g)).refreshTime.stepCal g
  else s.updRg g (fun r => { r with step := some d })

/-- The status that refuses a step, 0 for none (R518, R627). -/
def State.stepCheck (s : State) (g mhz mv : Nat) : Nat :=
  let st := s.rgState g
  let r := regionRec s.rom g
  let busy := (List.range s.rom.regions.length).any (fun h => match (s.rg h).step with
    | some e => decide (e.mhz < e.oldMhz)
    | none => false)
  if s.hasRegion g = false ∨ mhz < r.fcMin ∨ r.fcMax < mhz ∨ mv = 0 then 0x0003
  else if s.rd dbgB F.DBG_STAT_TEST = 2 ∨ 5 ≤ st then 0x0006
  else if 2 ≤ st then 0x0034
  else if ceilOk s.rom g mhz mv = false then 0x0031
  else if s.rd pcrB (F.PCR_RG_STAT_DWARN_NOW.ix g) = 1 then 0x0039
  else if mhz < s.mhz g ∧ mhz < s.rd pcrB (F.PCR_SC0_FLOOR_FLOOR_MHZ.ix g) then 0x0030
  else if mhz < s.mhz g ∧ (busy = true ∨ s.flag glbB F.GLB_SC0_STAT_FLOOR_BUSY = true) then 0x0032
  else 0

/-- The changes of a step in order (R519). -/
def stepTodo (old new : Nat) : List Bool := if new = old then [false] else if new < old then [true, false] else [false, true]

/-- PWR_DVFS. -/
def execPwrDvfs (x : Nat) (s : State) : Host.Outcome State Fault Refusal :=
  .next (s.runCmd x 0x51 [(0, 4), (16, 12), (32, 12)] (fun c s =>
    let g := c.p 0 4
    let mhz := c.p 16 12
    let mv := c.p 32 12
    let st := s.stepCheck g mhz mv
    if st ≠ 0 then s.reply x st []
    else
      let d : DStep := { cmd := x, mhz := mhz, mv := mv, oldMhz := s.mhz g, oldMv := s.mv g, todo := stepTodo (s.mhz g) mhz }
      let s := if mhz < s.mhz g then s.wr pcrB F.PCR_STAT_LOWER_BUSY 1 else s
      let s := (s.updRg g (fun r => { r with prev := s.rgState g, step := some d })).rgGo g 7
      s.freezeNext))

/-- The freeze of region `g`'s hop set has taken effect: its nodes stop tracking, the error that they still spread included, and the
Time Unit acknowledges (R299). [DESIGN CHOICE: log 68] -/
def State.hopFreeze (s : State) (g : Nat) : State :=
  if s.time.freezes.any (fun f => f.g == g && f.left == 0) then
    let s := ((s.hopSet g).foldl (fun a r => a.setNode r { a.node r with
      frozen := true, base := a.nodeFt r, since := a.clock, spread := 0, left := 0 }) s).refreshTime
    match (s.rg g).step with
    | some d =>
      if d.ph = 1 ∧ s.time.freezes.any (fun f => f.g == g && f.why == 0 && f.left == 0) = true then
        s.updRg g (fun r => { r with step := some { d with ph := 2 } })
      else s
    | none => s
  else s

def execHopFreeze (g : Nat) (s : State) : Host.Outcome State Fault Refusal :=
  guardUnit s (s.hasRegion g) (s.hopFreeze g)

/-- The clock generator acknowledges the step's frequency; outside a handshake FC_ACK is ignored (R650). -/
def State.fcAck (s : State) (g : Nat) : State :=
  match (s.rg g).step with
  | some d => match d.ph, d.todo with
    | 2, true :: r => (s.setOp g d.mhz (s.mv g)).stepGo g { d with todo := r }
    | _, _ => s
  | none => s

def execFcAck (g : Nat) (s : State) : Host.Outcome State Fault Refusal := guardUnit s (s.hasRegion g) (s.fcAck g)

/-- The regulator has settled at the step's voltage. -/
def State.stepVr (s : State) (g : Nat) : State :=
  match (s.rg g).step with
  | some d => match d.ph, d.todo with
    | 2, false :: r => (s.setOp g (s.mhz g) d.mv).stepGo g { d with todo := r }
    | _, _ => s
  | none => s

/-- LIM.SUPPLY_US passes in a step: what it has made is undone and its hop set is calibrated (R520).
[DESIGN CHOICE: log 68] -/
def State.stepUndo (s : State) (g : Nat) : State :=
  match (s.rg g).step with
  | some d =>
    if d.ph = 2 then
      ((s.setOp g d.oldMhz d.oldMv).wr pcrB F.PCR_STAT_SUPPLY_FAIL 1).stepGo g { d with todo := [], bad := some 0x0038 }
    else s
  | none => s

/-! ### The governor's registers -/

/-- The Pacer's words that mirror what it holds: leaves held and requests waiting (R532). -/
def State.viewPcr (s : State) (rel : Nat) (w : Word) : Word :=
  if rel = 0x30 then put F.PCR_LEAVE_CFG_HELD s.leaves.length (put F.PCR_LEAVE_CFG_WAIT (min s.leaveQ.length 31) w)
  else w

/-- PWR_STATUS. -/
def execPwrStatus (x : Nat) (s : State) : Host.Outcome State Fault Refusal :=
  .next (s.runCmd x 0x52 [] (fun _ s =>
    s.reply x 0 (s.getBytes (pcrB + 4) 1 ++ s.getBytes (pcrB + 0x18) 1
      ++ leBytes 4 (s.viewPcr 0x30 (s.word (pcrB + 0x30))).toNat ++ s.getBytes (pcrB + 0xA0) s.rom.regions.length)))

/-- PWR_BUDGET. -/
def execPwrBudget (x : Nat) (s : State) : Host.Outcome State Fault Refusal :=
  .next (s.runCmd x 0x53 [(0, 16), (32, 20)] (fun c s =>
    if c.p 0 16 = 0 then s.reply x 0x0003 []
    else ((s.wr pcrB F.PCR_GOV_REFILL_STONES (c.p 0 16)).wr pcrB F.PCR_GOV_CAP_STONES (c.p 32 20)).reply x 0 []))

/-- PWR_POLICY. NIs follow by PWR_MASK_RECEIVE. -/
def execPwrPolicy (x : Nat) (s : State) : Host.Outcome State Fault Refusal :=
  .next (s.runCmd x 0x54 [(0, 4), (8, 3)] (fun c s =>
    if s.hasRegion (c.p 0 4) = false then s.reply x 0x0003 []
    else (s.wr pcrB (F.PCR_RG_CFG_POL.ix (c.p 0 4)) (c.p 8 3)).reply x 0 []))

/-- PWR_WAKE. -/
def execPwrWake (x : Nat) (s : State) : Host.Outcome State Fault Refusal :=
  .next (s.runCmd x 0x55 [(0, 4), (16, 16)] (fun c s =>
    ((((s.wr pcrB F.PCR_WAKE_CFG_EN_WAKEN (c.p 0 1)).wr pcrB F.PCR_WAKE_CFG_EN_MSP (c.p 1 1)).wr pcrB
      F.PCR_WAKE_CFG_EN_RELAY (c.p 2 1)).wr pcrB F.PCR_WAKE_CFG_EN_PPS (c.p 3 1)).wr pcrB F.PCR_WAKE_CFG_PPS_COUNT (c.p 16 16)
      |>.reply x 0 []))

end Sys2Proof.Machine
end

