-- ==== Sys2Proof/Machine/Scan.lean ====
section
/-! DEFINITION. Events and the configuration CRC (R594 to R614): causes set at their units, the log registers, the values that
the scanner computes, passes, commits, the quarantine, and the recomputes that take leave. -/

namespace Sys2Proof.Machine

/-! ### Causes and logs (R595, R602, R614) -/

/-- The source with number `k` whose unit the instance has, with member `j` of a router group. -/
def State.srcOf (s : State) (k j : Nat) : Option Src :=
  if k < 512 then
    (if k / 2 < s.rom.nis.length then some (if k % 2 = 0 then srcAlert (k / 2) else srcNotice (k / 2)) else none)
  else if k < 576 then
    let r := 5 * ((k - 512) % 32) + j
    if j < 5 ∧ r < s.rom.rtrs.length then some (srcRouter ((k - 512) / 32) r) else none
  else if k < 608 then
    (if (k - 576) / 8 < s.rom.spans.length then some (srcSpan ((k - 576) / 8) ((k - 576) % 8)) else none)
  else if k < 624 then (if k - 608 < s.rom.regions.length then some (srcRegion (k - 608)) else none)
  else if k < 639 then some (srcGlobal (k - 624))
  else none

/-- Whether bit `i` of source `k` is a cause that some rule defines (R596): a Span source stands for its own event only. -/
def causeOf (k i : Nat) : Bool :=
  if k < 512 then decide (i < (if k % 2 = 0 then 17 else 6))
  else if k < 576 then decide (i < 5)
  else if k < 608 then i == (k - 576) % 8
  else if k < 624 then decide (i < 4)
  else decide (i < ([5, 2, 3, 1, 2, 2, 3, 2, 3, 1, 3, 1, 5, 2, 2].getD (k - 624) 0))

/-- The words of the event unit that mirror the sources (R596, R597). -/
def State.viewEvt (s : State) (rel : Nat) (w : Word) : Word :=
  if rel = 0x14 then BitVec.ofNat 32 s.intOut
  else if 0x40 ≤ rel ∧ rel < 0x90 then
    BitVec.ofNat 32 (bitsWhere 32 (fun i => s.asserted (32 * ((rel - 0x40) / 4) + i)))
  else w

/-! ### Values (R604, R605) -/

/-- The mask of a register's covered fields. -/
def covMask (x : RSpec) : Nat := x.fields.foldl (fun a f => if f.cov then a ||| (2 ^ f.w - 1) * 2 ^ f.lo else a) 0

/-- Registers that exist in the map and not in this unit: they read 0 and ignore writes (R120, R444, R532, R589).
[DESIGN CHOICE: log 11] -/
def State.absent (s : State) (u : Un) (rel : Nat) : Bool :=
  let wired (t base : Nat) : Bool := decide (base ≤ rel) && decide (rel < base + 0x1040) && entryWired s.rom t ((rel - base) / 16)
  match u.kind with
  | .ni => rel / 8 == 0x25F8 / 8 || rel == 0x26FC || wired u.i 0x1000
  | .sp => wired (256 + u.i) 0x4000 || (decide (0x1000 ≤ rel) && decide (rel < 0x1400) && decide (s.nLinks u.i ≤ (rel - 0x1000) / 0x100))
  | .pcr =>
    let g := if rel < 0x100 then (rel - 0x60) / 4 % 16 else rel / 4 % 16
    ((decide (0x60 ≤ rel) && decide (rel < 0xE0)) || (decide (0x100 ≤ rel) && decide (rel < 0x140))
      || (decide (0x180 ≤ rel) && decide (rel < 0x280))) && !s.hasRegion g
  | _ => false

/-- The bits of a register that its unit implements: ports below RADIX, regions below NUM_REGION (R182, R248), and window
bases without the bits below their size (R392, R444). [DESIGN CHOICE: log 11] -/
def State.presentBits (s : State) (u : Un) (rel : Nat) : Nat :=
  let all := 2 ^ 32 - 1
  let above (k : Nat) : Nat := 2 ^ 64 - 2 ^ k
  match u.kind with
  | .rtr => if rel = 0x40 then 4 ^ (rtrRec s.rom u.i).radix - 1 else all
  | .pcr => if rel = 0x140 then (2 ^ s.rom.regions.length - 1) * 65537 else all
  | .ni =>
    let ep := above (min 40 (max 12 (s.rd u.base F.NI_HEAT_EP_CFG_SIZE_LOG2)))
    (match rel with
     | 0xE48 => above (12 + s.rd u.base F.NI_MIG_CTL_PAGE) % 2 ^ 32
     | 0x748 => ep % 2 ^ 32
     | 0x74C => ep / 2 ^ 32
     | _ => all)
  | _ => all

/-- What the register at `rel` in unit `u` gives to its unit's CRC: one word for a covered register, and for a data register
behind an index all that it selects from, in index order. A register that reads 0 because its unit does not hold it gives 0, and the
share of slice 63, which does not exist, nothing (R444, R445, R591). [DEDUCED: log 84] -/
def State.covWords (s : State) (u : Un) (rel : Nat) : List Nat :=
  let isNi := u.kind == .ni
  let x := s.ni u.i
  if isNi && rel == 0x214 then (List.range 512).map (fun k => mget (fun _ => 0) x.mcg k)
  else if isNi && rel == 0x508 then (List.range (schedSize s.rom u.i)).map (fun q => queueWord (x.q q) 0x508)
  else if isNi && rel == 0x50C then (List.range (schedSize s.rom u.i)).map (fun q => queueWord (x.q q) 0x50C)
  else if isNi && rel == 0xE04 then (List.range (niRec s.rom u.i).pidMap).map (fun k => mget (fun _ => 0) x.pid k)
  else if isNi && rel == 0x600 then [s.rd (niB u.i) (shpRate 8)]
  else match specAt rel (regsOf u.kind) with
    | none => []
    | some r =>
      let m := covMask r
      if m = 0 ∨ (isNi && rel / 8 == 0x25F8 / 8) = true then []
      else if s.absent u rel then [0]
      else [(s.word (u.base + rel)).toNat &&& m &&& s.presentBits u rel]

/-- The words of a unit's window. -/
def unitWords : UK → Nat
  | .ni => 0x1000
  | .rtr => 0x400
  | _ => 0x4000

/-- The unit CRC. -/
def State.unitCrc (s : State) (u : Un) : Nat :=
  crc32c ((List.range (unitWords u.kind)).flatMap (fun i => (s.covWords u (4 * i)).flatMap (leBytes 4)))

/-- The units of share `g`, by target number; 16 stands for the home layer's. -/
def shareUnits (rom : Rom) (g : Nat) : List Un :=
  let at' (o : Nat) : List Un := (unitOf rom o).toList
  if g = 16 then [glbB, strB, timB, hcuB, pcrB, evtB, slcB, cmxB, 0x80000, pfB, dbgB].flatMap at'
  else (nisOf rom g).flatMap (fun n => at' (niB n)) ++ (rtrsOf rom g).flatMap (fun r => at' (rtrB 0 r))
    ++ (rtrsOf rom g).flatMap (fun r => at' (rtrB 1 r)) ++ (spansOf rom g).flatMap (fun k => at' (spB k))

/-- A share's value. -/
def State.share (s : State) (g : Nat) : Nat := crc32c ((shareUnits s.rom g).flatMap (fun u => leBytes 4 (s.unitCrc u)))

/-- The numbers of the shares in the order of the combined value. -/
def shares (rom : Rom) : List Nat := List.range rom.regions.length ++ [16]

/-- Whether share `g` is not scanned: its region is without supply (R606). -/
def State.shareOff (s : State) (g : Nat) : Bool := g != 16 && s.rgState g == 4

/-- Whether share `g` takes no part in the combined comparison: its region is in OFF or in recovery (R606).
[DEDUCED: log 84] -/
def State.shareOut (s : State) (g : Nat) : Bool := s.shareOff g || (g != 16 && bitAt (s.rd glbB F.GLB_RECOV_RECOV) g)

/-- The combined value, a share that takes no part in the comparison standing at its reference; a commit takes every share that
is scanned (R606, R608). [DEDUCED: log 84] -/
def State.combined (s : State) : Nat :=
  let out (g : Nat) : Bool := if s.flag evtB F.EVT_STAT_COMMIT_PEND then s.shareOff g else s.shareOut g
  crc32c ((shares s.rom).flatMap (fun g => leBytes 4 (if out g then s.rd evtB (F.EVT_SHARE_REF_V.ix g) else s.share g)))

/-! ### Passes (R606 to R611) -/

/-- A pass starts. -/
def execCrcPassStart (s : State) : Host.Outcome State Fault Refusal := .next (s.wr evtB F.EVT_STAT_PASS_BUSY 1)

/-- A quarantine ends (R611). -/
def State.quarEnd (s : State) : State := s.wr evtB F.EVT_STAT_QUAR 0

/-- A confirmed mismatch under POLICY 1 begins a quarantine (R611). -/
def State.quarantine (s : State) : State :=
  if s.rd evtB F.EVT_CTL_POLICY = 0 then s else (s.wr evtB F.EVT_STAT_QUAR 1).glEvent 10 2

/-- Whether comparison is suspended (R609, R614). -/
def State.crcHeld (s : State) : Bool :=
  s.flag evtB F.EVT_CTL_HOLD || s.flag evtB F.EVT_STAT_COMMIT_PEND || s.flag evtB F.EVT_STAT_SUSP_HEAT
    || !s.flag evtB F.EVT_STAT_REF_VALID

/-- The offsets whose words the Starter captures at a commit (R608). -/
def capOffs (rom : Rom) : List Nat :=
  (List.range rom.nis.length).map (fun n => niB n + 0x404)
    ++ (List.range rom.rtrs.length).flatMap (fun r => rtrCapOffs 0 r ++ rtrCapOffs 1 r)

/-- A commit completes. [DESIGN CHOICE: log 85] -/
def State.commitDone (s : State) : State :=
  let s := (shares s.rom).foldl (fun a g =>
    if a.shareOff g then a else a.wr evtB (F.EVT_SHARE_REF_V.ix g) (a.rd evtB (F.EVT_SHARE_LAST_V.ix g))) s
  let s := ((s.wr evtB F.EVT_STAT_COMMIT_PEND 0).wr evtB F.EVT_STAT_MM_CNT 0).wr evtB F.EVT_STAT_REF_VALID 1
  let s := { s with captured := (capOffs s.rom).foldl (fun (m : Map Word) o =>
    mset (resetWord s.rom s.straps) m o (s.word o)) s.captured }
  let s := s.quarEnd.glEvent 10 1
  let s := s.scan.cmds.foldl (fun a x => (a.give 4 x).reply x 0 (leBytes 4 (a.rd evtB F.EVT_CRC_REF_REF))) s
  let s := { s with scan := { s.scan with cmds := [] } }
  if s.scan.heat then
    let busy := !(s.slotsIn [6, 7]).isEmpty
    ({ s with scan := { s.scan with heat := false }, heatCrc := busy }.give 4 0).wr evtB F.EVT_STAT_SUSP_HEAT (b2n busy)
  else s

/-- A pass that ends is compared (R610). -/
def State.crcCompare (s : State) (c : Nat) : State :=
  if s.crcHeld then s.wr evtB F.EVT_STAT_MM_CNT 0
  else
    let diff := (shares s.rom).filter (fun g =>
      !s.shareOut g && s.rd evtB (F.EVT_SHARE_LAST_V.ix g) != s.rd evtB (F.EVT_SHARE_REF_V.ix g))
    if c = s.rd evtB F.EVT_CRC_REF_REF ∧ diff.isEmpty = true then
      ((s.wr evtB F.EVT_STAT_MM_CNT 0).wr evtB F.EVT_MM_MASK_MASK 0).quarEnd
    else
      let s := diff.foldl (fun a g => a.setBit evtB F.EVT_MM_MASK_MASK g) s
      let k := s.rd evtB F.EVT_STAT_MM_CNT
      let s := s.wr evtB F.EVT_STAT_MM_CNT (min (k + 1) 2)
      if k = 1 then
        let s := ((s.wr evtB F.EVT_STAT_MISMATCH 1).glEvent 10 0).count evtB F.EVT_MM_EVT_CNT_COUNT 1
        { s with evd := { s.evd with crcMm := s.evd.crcMm + 1 } }.quarantine
      else s

/-- A pass ends: its values are shown, and it completes a pending commit or is compared. -/
def State.passEnd (s : State) : State :=
  let c := s.combined
  let s := (shares s.rom).foldl (fun a g =>
    if a.shareOff g then a else a.wr evtB (F.EVT_SHARE_LAST_V.ix g) (s.share g)) s
  let s := ((s.wr evtB F.EVT_STAT_PASS_BUSY 0).wr evtB F.EVT_CRC_LAST_CRC c).count evtB F.EVT_PASS_CNT_COUNT 1
  if s.flag evtB F.EVT_STAT_COMMIT_PEND then
    if s.scan.given then (if c = s.rd evtB F.EVT_CRC_REF_REF then s.commitDone else s)
    else (s.wr evtB F.EVT_CRC_REF_REF c).commitDone
  else s.crcCompare c

/-! ### Commits and recomputes (R608, R609, R613) -/

/-- A commit is made: it is pending, and a new pass starts at once. -/
def State.crcCommit (s : State) (given : Bool) : State :=
  let s := { s with scan := { s.scan with given := given } }
  (((s.wr evtB F.EVT_STAT_COMMIT_PEND 1).wr evtB F.EVT_STAT_MM_CNT 0).wr evtB F.EVT_STAT_PASS_BUSY 1)

/-- Leave of kind 4 is granted: to a CFG_RECOMPUTE by its number, or to the Starter's commit after heats (number 0). -/
def State.crcGranted (s : State) (x : Nat) : State :=
  if x = 0 then { s with scan := { s.scan with heat := true } }.crcCommit false
  else { s with scan := { s.scan with cmds := s.scan.cmds ++ [x] } }.crcCommit false

/-- CFG_RECOMPUTE takes leave. -/
def execCfgRecompute (x : Nat) (s : State) : Host.Outcome State Fault Refusal :=
  .next (s.runCmd x 0x04 [] (fun _ s => s.ask 4 x))

/-- After the last heat has left SETTLING, the Starter takes leave for its commit (R609). -/
def execHeatCrcRecommit (s : State) : Host.Outcome State Fault Refusal :=
  .next
    (let l : Leave := { kind := 4, who := 0 }
     if s.heatCrc && (s.slotsIn [6, 7]).isEmpty && !s.scan.heat && !s.asks.contains l && !s.leaveQ.contains l
        && !s.leaves.contains l then s.ask 4 0 else s)

end Sys2Proof.Machine
end

