-- ==== Sys2Proof/Machine/Span.lean ====
section
/-! DEFINITION. Span ports (R561 to R591): training of links, frames with replay and credits, lane faults, forwarding between
planes and links, stalls, and the Span commands. -/

namespace Sys2Proof.Machine

/-! ### Links and lanes (R561, R571, R588, R589) -/

/-- Lanes in the group of each link of Span port `k`. -/
def State.group (s : State) (k : Nat) : Nat := 8 / s.nLinks k
/-- A link enters a training state; LSTATE follows (R570, R589). -/
def State.setLst (s : State) (k j st : Nat) : State :=
  let code := if st = 0 ∨ st = 7 then 0 else if st ≠ 5 then 1 else if (s.lk (4 * k + j)).lanes = s.group k then 2 else 3
  (s.lw k j F.SP_L_STAT_STATE st).lw k j F.SP_L_STAT_LSTATE code

/-- The class of lane `l` of a link (R571). -/
def State.laneClass (s : State) (k j l : Nat) : Nat := bitsAt (s.lf k j F.SP_L_LANE_C) (4 * l) 4

/-- A lane takes a class; a new fault raises LANE_FAULT (R571). -/
def State.setClass (s : State) (k j l c : Nat) : State :=
  let old := s.laneClass k j l
  let s := s.lw k j F.SP_L_LANE_C (bitsPut (s.lf k j F.SP_L_LANE_C) (4 * l) 4 c)
  if c ≠ 0 ∧ c ≠ old then s.spanEvent k 3 else s

/-- The mask of good receive lanes of a link: GOOD and INVERTED ones (R571). -/
def State.goodLanes (s : State) (k j : Nat) : Nat :=
  (List.range (s.group k)).foldl (fun a l => if s.laneClass k j l = 0 ∨ s.laneClass k j l = 5 then a + 2 ^ l else a) 0

/-- Flits per VC of VN `v` that a link's receive buffer gives (R581). -/
def State.alloc (s : State) (k j v : Nat) : Nat := min 240 (bitsAt (s.lf k j F.SP_L_CRED_VN) (8 * v) 8)

/-- Whether a link's CRED allocation fits its receive buffer (R581). -/
def State.allocOk (s : State) (k j : Nat) : Bool :=
  decide (4 * ((List.range 4).foldl (fun a v => a + s.alloc k j v) 0) ≤ 1024 / s.nLinks k)

/-- The widest width that a WIDTH code asks for in a group of `g` lanes (R586, R589). -/
def widthOf (g code : Nat) : Nat := match code with
  | 1 => 8
  | 2 => 4
  | 3 => 2
  | 4 => 1
  | _ => g

/-- The lowest good aligned group of the widest width allowed, as lowest lane and width (R572). -/
def laneGroup (g limit mask : Nat) : Option (Nat × Nat) :=
  [8, 4, 2, 1].findSome? (fun w =>
    if g < w ∨ limit < w then none
    else ((List.range (g / w)).find? (fun i => (List.range w).all (fun b => bitAt mask (w * i + b)))).map
      (fun i => (w * i, w)))

/-- The UP links and the DOWN links of the instance by role (R582). [DESIGN CHOICE: log 91] -/
def State.roles (s : State) (r : Nat) : Nat :=
  ((List.range s.rom.spans.length).flatMap (fun k => (List.range (s.nLinks k)).filter
    (fun j => s.lf k j F.SP_L_CFG_RELAY == r))).length

/-! ### Flits that a Span port drops (R141, R547, R574, R580) -/

/-- A link's VC changed: a receive VC, or a crossbar VC. -/
def State.updRxv (s : State) (c v : Nat) (f : VcSt → VcSt) : State := s.updLk c (fun l => { l with rxv := listSet l.rxv v f })
def State.updXbv (s : State) (c v : Nat) (f : VcSt → VcSt) : State := s.updLk c (fun l => { l with xbv := listSet l.xbv v f })

/-- The credit count of a receive VC rises by `n` (R567). -/
def State.countUp (s : State) (c v n : Nat) : State :=
  s.updLk c (fun l => { l with cnt := listSet l.cnt v (fun a => (a + n) % 256) })

/-- Flits at the front of a buffer that belong to its front packet, and whether its tail is among them. -/
def frontFlits (b : List Flit) : Nat × Bool :=
  let n := (b.takeWhile (fun f => !(f.ft == 2 || f.ft == 3))).length
  if n < b.length then (n + 1, true) else (n, false)

/-- The front packet of a receive VC is dropped: its flits there leave, those to come are consumed as they arrive. -/
def State.rxDrop (s : State) (c v : Nat) : State :=
  match (s.lk c).rxv[v]? with
  | none => s
  | some x =>
    let (n, whole) := frontFlits x.buf
    (s.updLk c (fun l => { l with
      rxv := listSet l.rxv v (fun x => { x with buf := x.buf.drop n, tx := none
                                                rx := if whole then x.rx else x.rx.map (fun q => { q with drop := true }) })
      go := listSet l.go v (fun _ => none) })).countUp c v n

/-- The front packet of crossbar VC `v` of link `c` leaves it; what of it has not entered is dropped in the receive VC.
`tail` says that a poisoned tail takes its place, where part of it has been sent on. -/
def State.xbDrop (s : State) (c v : Nat) (tail : Bool) : State :=
  match (s.lk c).xbv[v]? with
  | none => s
  | some x =>
    let (n, whole) := frontFlits x.buf
    let rest := x.buf.drop n
    let s := s.updXbv c v (fun x => if tail then { x with buf := poisonTail v 0 :: rest } else { x with buf := rest, tx := frontPkt rest })
    if whole then s else s.rxDrop c v

/-- The front packets of a plane-side VC that go toward a link that takes and discards flits are discarded with their credits
returned, each counted once (R574). -/
def State.sinkPlane (s : State) (k p v : Nat) : Nat → State
  | 0 => s
  | fuel + 1 =>
    let o := Port.span p k
    match (s.port o).vcs[v]? with
    | none => s
    | some x => match x.tx with
      | none => s
      | some t =>
        if (s.lk t.hdr.via).sink = false then s
        else
          let (n, whole) := frontFlits x.buf
          let rest := x.buf.drop n
          let s := s.updVc o v (fun x => { x with buf := rest, tx := frontPkt rest
                                                  rx := if whole then x.rx else x.rx.map (fun q => { q with drop := true }) })
          let s := s.credits o v n
          (if t.next = 0 then s.count (spB k) F.SP_DOWN_DROP_CNT_COUNT 1 else s).sinkPlane k p v fuel

/-- The same for a crossbar VC of link `c` (R574): each packet is counted at the departure port. -/
def State.sinkXb (s : State) (c v : Nat) : Nat → State
  | 0 => s
  | fuel + 1 =>
    match (s.lk c).xbv[v]? with
    | none => s
    | some x => match x.tx with
      | none => s
      | some t =>
        if (s.lk t.hdr.via).sink = false then s
        else
          let s := s.xbDrop c v false
          (if t.next = 0 then s.count (spB (t.hdr.via / 4)) F.SP_DOWN_DROP_CNT_COUNT 1 else s).sinkXb c v fuel

/-- Every packet that waits toward a link whose port discards (R574). [DESIGN CHOICE: log 88] -/
def State.sinkAll (s : State) (k : Nat) : State :=
  (List.range 16).foldl (fun a v =>
    let a := (a.sinkPlane k 0 v 16).sinkPlane k 1 v 16
    (List.range 16).foldl (fun b c => b.sinkXb c v 8) a) s

/-- The plane outputs of a Span port send what their owners wait for. -/
def State.spanPump (s : State) (k : Nat) : State := (s.pump (.span 0 k)).pump (.span 1 k)

/-! ### Training (R570 to R574) -/

/-- A link's exchange of time frames under way is given up (R320). -/
def Link.noTime (l : Link) : Link := { l with t12 := none, t3 := none, t4 := none, exch := none }

/-- A training starts: full from DETECT, a retrain in RETRAIN with the lanes to be restored taken back. A retrain of a link
that was ACTIVE is counted; time exchanges stop and the first 16 after it do not count (R320). -/
def State.trainStart (s : State) (k j kind : Nat) : State :=
  let c := 4 * k + j
  let was := s.lst k j == 5
  let s := if was then s.lw k j F.SP_L_RETRAIN_CNT_COUNT (min (s.lf k j F.SP_L_RETRAIN_CNT_COUNT + 1) (2 ^ 32 - 1)) else s
  let s := if (was || s.start.spans.contains c) && j == 0 then s.updTime (fun u =>
      let o := mget (fun _ => ((0 : Int), (0 : Nat), (0 : Nat))) u.spanO k
      { u with spanO := mset (fun _ => ((0 : Int), (0 : Nat), (0 : Nat))) u.spanO k (o.1, o.2.1, 16) }) else s
  let s := s.updLk c Link.noTime
  let s := if kind = 1 then s else ((s.lk c).restore.foldl (fun a l => a.setClass k j l 0) s)
  (s.updLk c (fun l => { l with kind := kind, tries := 0, far := none, fall := none
                                restore := if kind = 1 then l.restore else [] })).setLst k j (if kind = 1 then 1 else 6)

/-- The first full training attempt of a link is over (R555). -/
def State.firstOver (s : State) (c : Nat) : State :=
  if s.start.spans.contains c then s else { s with start := { s.start with spans := c :: s.start.spans } }

/-- The bytes of LINK[j].STAT. -/
def State.linkStat (s : State) (k j : Nat) : List Byte := leBytes 4 (s.word (spB k + (F.SP_L_STAT_STATE.ix j).off)).toNat

/-- A SPAN_TRAIN that waits for a link is answered (R586). [DESIGN CHOICE: log 90] -/
def State.trainReply (s : State) (k j status : Nat) (data : List Byte) : State :=
  let c := 4 * k + j
  (s.replyOpt (s.lk c).cmd status data).updLk c (fun l => { l with cmd := none })

/-- A training attempt fails: the RETRAIN state falls back to a full training, and a full training that has failed ATTEMPTS
times in a row ends, with DOWN to follow (R570, R573). -/
def State.trainFail (s : State) (k j why : Nat) : State :=
  let c := 4 * k + j
  if s.lst k j = 6 then (s.updLk c (fun l => { l with tries := 0, far := none })).setLst k j 1
  else
    let s := s.firstOver c
    let l := s.lk c
    if l.tries + 1 < max 1 (s.rd (spB k) F.SP_TRAIN_CFG_ATTEMPTS) then
      (s.updLk c (fun l => { l with tries := l.tries + 1, far := none })).setLst k j 1
    else (s.trainReply k j why (s.linkStat k j)).updLk c (fun l => { l with fall := some why })

/-- A link reaches ACTIVE on lanes `lane0` to `lane0 + w - 1` (R565 to R567, R570 to R573, R582). -/
def State.linkUp (s : State) (k j lane0 w mask rtt : Nat) (f : LinkInfo) : State :=
  let c := 4 * k + j
  let old := s.lk c
  let role := s.lf k j F.SP_L_CFG_RELAY
  let pair := (role == 1 && f.role == 2) || (role == 2 && f.role == 1)
  let s := (((((s.lw k j F.SP_L_STAT_WIDTH (match w with
    | 8 => 0
    | 4 => 1
    | 2 => 2
    | _ => 3)).lw k j F.SP_L_STAT_GOOD mask).lw k j F.SP_L_STAT_RELAY_MISMATCH (b2n (!pair))).lw k j F.SP_L_FAR_INST f.inst).lw
      k j F.SP_L_RTT_NS (min rtt 65535))
  let s := s.updLk c (fun l => { l with kind := 0, tries := 0, lane0 := lane0, lanes := w })
  let s := if old.new then s.updLk c (fun l => { l with
      txSeq := 0, replay := [], rp := none, rrow := 0, nakSeen := false, rxSeq := 0xFFF, nak := false
      cnt := List.replicate 16 0, seen := List.replicate 16 0
      cred := (List.range 16).map (fun v => min 240 (f.cred.getD (v / 4) 0))
      hold := List.replicate 16 none, owner := none, new := false, sink := false }) else s
  let s := (s.setLst k j 5).spanEvent k 0
  let s := if old.kind = 2 ∧ w < old.lanes then s.spanEvent k 2 else s
  let s := (s.firstOver c).trainReply k j 0 (s.linkStat k j)
  (s.updLk c (fun l => { l with want := 0 })).give 3 c

/-- CONFIG ends once the far end's LINK frame has come (R570 to R572, R581). [DESIGN CHOICE: log 90] -/
def State.config (s : State) (k j rtt : Nat) : State :=
  match (s.lk (4 * k + j)).far with
  | none => s
  | some f =>
    let g := s.group k
    if f.inst = s.instNum then s.trainFail k j 0x43
    else if s.allocOk k j = false then s.trainFail k j 0x41
    else
      let mask := s.goodLanes k j &&& f.mask
      let limit := min (widthOf g (s.lf k j F.SP_L_CFG_WIDTH_REQ)) (widthOf g f.width)
      match laneGroup g limit mask with
      | none => s.trainFail k j 0x42
      | some (l0, w) => s.linkUp k j l0 w mask rtt f

/-- The lanes' classes as DETECT finds them, with new faults raised. A transmitter that a SHORT holds at high impedance stays so
until the next DOWN (R571). [DEDUCED: log 116] -/
def State.detect (s : State) (k j : Nat) (classes : List Nat) (rev : Bool) : State :=
  let s := forAll (s.group k) (fun l a =>
    let c := classes.getD l 0
    a.setClass k j l (if bitAt (s.lk (4 * k + j)).hiz l then 2 else if c = 1 ∨ c = 2 ∨ c = 3 ∨ c = 5 then c else 0)) s
  let short := bitsWhere (s.group k) (fun l => s.laneClass k j l == 2)
  (s.updLk (4 * k + j) (fun x => { x with hiz := short })).lw k j F.SP_L_STAT_REVERSED (b2n rev)

def execTrainStateDone (k j : Nat) (classes : List Nat) (rev : Bool) (rtt : Nat) (s : State) : Host.Outcome State Fault Refusal :=
  guardUnit s (s.hasLink k j)
    (if (s.lk (4 * k + j)).fall.isSome then s
     else match s.lst k j with
       | 1 => (s.detect k j classes rev).setLst k j 2
       | 2 => s.setLst k j 3
       | 3 => (s.updLk (4 * k + j) (fun l => { l with far := none })).setLst k j 4
       | 4 => s.config k j rtt
       | 6 => s.config k j rtt
       | _ => s)

def execTrainStateTmo (k j : Nat) (s : State) : Host.Outcome State Fault Refusal :=
  guardUnit s (s.hasLink k j)
    (if (s.lk (4 * k + j)).fall.isNone && [1, 2, 3, 4, 6].contains (s.lst k j) then s.trainFail k j 0x41 else s)

/-- A forced retrain starts at once (R573). -/
def State.forced (s : State) (k j : Nat) : State := s.trainStart k j 2

/-- A link asks leave for a training of the given kind (R573); one that already asks asks for a full training where either does. -/
def State.askTrain (s : State) (k j kind : Nat) : State :=
  let c := 4 * k + j
  if (s.lk c).want ≠ 0 then s.updLk c (fun l => { l with want := if kind = 1 then 1 else l.want })
  else (s.updLk c (fun l => { l with want := kind })).ask 3 c

/-- Leave for link `c` is granted: its training starts, or the leave goes back where the link is training already. -/
def State.spanGranted (s : State) (c : Nat) : State :=
  let k := c / 4
  let j := c % 4
  let kind := (s.lk c).want
  let s := s.updLk c (fun l => { l with want := 0 })
  match s.lst k j with
  | 5 => s.trainStart k j kind
  | 0 => s.trainStart k j 1
  | 7 => s.trainStart k j 1
  | _ => (s.trainReply k j 0x06 []).give 3 c

/-- Packets that DOWN loses of a link: those with flits in the replay buffer, and those in progress whose flits there have
all been acknowledged (R574). -/
def Link.lost (l : Link) : Nat :=
  (List.range 16).foldl (fun a v =>
    let fs := (l.replay.filterMap (fun f => f.flit)).filter (fun f => f.vc == v)
    let heads := (fs.filter (fun f => f.hdr.isSome)).length
    let cut := match fs.head? with
      | some f => b2n f.hdr.isNone
      | none => 0
    let open' := match fs.getLast? with
      | some f => !(f.ft == 2 || f.ft == 3)
      | none => false
    a + heads + cut + b2n ((l.hold.getD v none).isSome && !open')) 0

/-- A packet that the link has not finished is completed in its receive VC (R547, R574). -/
def State.finishRx (s : State) (c : Nat) : State :=
  (List.range 16).foldl (fun a v => match (a.lk c).rxv[v]? with
    | none => a
    | some x => match x.rx with
      | none => a
      | some q => a.updRxv c v (fun x => { x with buf := if q.drop then x.buf else x.buf ++ [poisonTail v 0], rx := none })) s

/-- A link enters DOWN or HELD (R574). [DESIGN CHOICE: log 88] -/
def State.linkDown (s : State) (k j st : Nat) : State :=
  let c := 4 * k + j
  if s.lst k j = 0 ∨ s.lst k j = 7 then s.setLst k j st
  else
    let n := (s.lk c).lost
    let s := (s.count (spB k) F.SP_DOWN_DROP_CNT_COUNT n).finishRx c
    let s := s.updLk c (fun l => { l.noTime with
      kind := 0, tries := 0, hiz := 0, fall := none, replay := [], rp := none, rrow := 0, nak := false, nakSeen := false
      cred := List.replicate 16 0, seen := List.replicate 16 0, cnt := List.replicate 16 0
      hold := List.replicate 16 none, owner := none, relayQ := [], relayIn := [], new := true, sink := true })
    let s := s.jointsLost c
    (((s.sinkAll k).spanPump k).setLst k j st).spanEvent k 1

def execLinkDownEntry (k j : Nat) (s : State) : Host.Outcome State Fault Refusal :=
  guardUnit s (s.hasLink k j)
    (if (s.lk (4 * k + j)).fall.isSome then ((s.linkDown k j 0).updLk (4 * k + j) (fun l => { l with want := 0 })).give 3 (4 * k + j) else s)

def execSpanDownRetry (k j : Nat) (s : State) : Host.Outcome State Fault Refusal :=
  guardUnit s (s.hasLink k j)
    (if s.lst k j = 0 ∧ s.rd (spB k) F.SP_CFG_RETRY_MS ≠ 0 then s.askTrain k j 1 else s)

/-- Whether lane `l` of a link carries traffic. -/
def State.laneUsed (s : State) (k j l : Nat) : Bool :=
  let x := s.lk (4 * k + j)
  s.lst k j == 5 && decide (x.lane0 ≤ l) && decide (l < x.lane0 + x.lanes)

/-- A lane of an ACTIVE link loses signal for 1 µs, which makes it OPEN, or loses lock (R571); a lane in use brings a forced retrain
(R573). -/
def execLaneLoss (k j l : Nat) (signal : Bool) (s : State) : Host.Outcome State Fault Refusal :=
  guardUnit s (s.hasLink k j)
    (let used := s.laneUsed k j l
     let s := if signal = true ∧ s.lst k j = 5 ∧ l < s.group k ∧ [0, 4, 5].contains (s.laneClass k j l) = true then
         (s.setClass k j l 1).lw k j F.SP_L_STAT_GOOD (s.lf k j F.SP_L_STAT_GOOD &&& (2 ^ 8 - 1 - 2 ^ l))
       else s
     if used then s.forced k j else s)

def execLaneRestore (k j l : Nat) (s : State) : Host.Outcome State Fault Refusal :=
  guardUnit s (s.hasLink k j)
    (if s.lst k j = 5 ∧ l < s.group k ∧ s.laneClass k j l = 1 ∧ s.flag (spB k) F.SP_CFG_AUTO_RESTORE = true then
       (s.updLk (4 * k + j) (fun x => { x with restore := l :: x.restore.filter (fun i => i != l) })).askTrain k j 3
     else s)

/-- A 1 ms window with its corrected and uncorrected codewords and the symbol errors of each lane (R571, R573). A NOISY lane in
use asks for a retrain in each window with AUTO_DEGRADE. [DESIGN CHOICE: log 111] -/
def execFecWindow (k j corr uncorr : Nat) (errs : List Nat) (s : State) : Host.Outcome State Fault Refusal :=
  guardUnit s (s.hasLink k j)
    (if s.lst k j ≠ 5 then s
     else
       let add (s : State) (f : Fld) (n : Nat) : State := s.lw k j f (min (s.lf k j f + n) (2 ^ 32 - 1))
       let s := add (add s F.SP_L_FEC_CORR_CNT_COUNT corr) F.SP_L_FEC_UNCORR_CNT_COUNT uncorr
       let thr := s.lf k j F.SP_L_LL_CFG_FEC_THR
       let s := if uncorr ≤ thr then s else forAll (s.group k) (fun l a =>
         if a.laneUsed k j l && decide (thr < errs.getD l 0) && (a.laneClass k j l == 0 || a.laneClass k j l == 5)
         then a.setClass k j l 4 else a) (s.spanEvent k 4)
       if s.flag (spB k) F.SP_CFG_AUTO_DEGRADE && (List.range 8).any (fun l => s.laneUsed k j l && s.laneClass k j l == 4)
       then s.askTrain k j 3 else s)

/-! ### Replay (R566) -/

/-- A replay starts from the oldest unacknowledged frame, or a forced retrain after REPLAY_MAX replays in a row. -/
def State.replay (s : State) (k j : Nat) : State :=
  let c := 4 * k + j
  let l := s.lk c
  if l.replay.isEmpty then s
  else if s.lst k j = 5 ∧ max 1 (s.lf k j F.SP_L_LL_CFG_REPLAY_MAX) ≤ l.rrow then
    ((s.updLk c (fun l => { l with rrow := 0, rp := none })).spanEvent k 5).forced k j
  else
    (s.updLk c (fun l => { l with rrow := l.rrow + 1, rp := some 0 })).lw k j F.SP_L_REPLAY_CNT_COUNT
      (min (s.lf k j F.SP_L_REPLAY_CNT_COUNT + 1) (2 ^ 32 - 1))

def execReplayTmo (k j : Nat) (s : State) : Host.Outcome State Fault Refusal :=
  guardUnit s (s.hasLink k j) (if s.lst k j = 5 then s.replay k j else s)

/-- The frames that an ACK covers leave the replay buffer (R565, R566). -/
def Link.acked (l : Link) (ack : Nat) : Link :=
  match l.replay.head? with
  | none => l
  | some f =>
    let n := (ack + 4097 - f.fseq) % 4096
    if n = 0 ∨ l.replay.length < n then l
    else
      let r := l.replay.drop n
      { l with replay := r, rrow := 0, rp := if r.isEmpty then none else l.rp.map (fun i => i - n) }

/-- The credits that a frame's counts give (R567). -/
def Link.credited (l : Link) (counts : List Nat) : Link :=
  { l with cred := (List.range 16).map (fun v => l.cred.getD v 0 + (counts.getD v 0 + 256 - l.seen.getD v 0) % 256)
           seen := (List.range 16).map (fun v => counts.getD v 0 % 256) }

/-! ### Frames as bits (R106, R108, R109, R111, R563, R564) -/

/-- The 384 bits of a header with its extension (R108, R109). -/
def hdrBits (h : Hdr) : Nat :=
  h.ptype % 16 + 2 ^ 4 * (h.op % 32) + 2 ^ 9 * (h.hop % 16) + 2 ^ 13 * (h.la % 16) + 2 ^ 17 * (h.plane % 2) + 2 ^ 18 * b2n h.rep
    + 2 ^ 19 * b2n h.ovalid + 2 ^ 20 * b2n h.unchk + 2 ^ 21 * b2n h.mc + 2 ^ 24 * (h.len % 2 ^ 14) + 2 ^ 38 * (h.slice % 64)
    + 2 ^ 44 * (h.tag % 512) + 2 ^ 53 * (h.gen % 8) + 2 ^ 56 * (h.src % 2 ^ 20) + 2 ^ 76 * (h.dest % 2 ^ 20)
    + 2 ^ 96 * (h.seq % 2 ^ 16) + 2 ^ 112 * (h.bound % 2 ^ 16) + 2 ^ 128 * h.istamp.toNat + 2 ^ 192 * (h.path % 2 ^ 64)
    + 2 ^ 256 * (h.addr % 2 ^ 64) + 2 ^ 320 * h.ostamp.toNat

/-- The 1,024 data bits of a flit (R108, R111). -/
def dataBits (f : Flit) : Nat := match f.hdr with
  | some h => hdrBits h + 2 ^ 384 * leNat (f.data.take 80)
  | none => leNat (f.data.take 128)

/-- The 1,088 bits of a flit with its five codes (R106). The spec gives no code matrix. [DESIGN CHOICE: log 124] -/
def flitBits (f : Flit) : Nat :=
  let d := dataBits f
  let c := f.vc % 16 + 16 * (f.ft % 4) + 64 * b2n f.segb + 128 * b2n f.poison + 256 * (f.fnum % 128)
  let decc := (List.range 4).foldl (fun a j => a + 2 ^ (24 + 10 * j) * (Config.decc (d / 2 ^ (256 * j) % 2 ^ 256)).toNat) 0
  d + 2 ^ 1024 * (c + 2 ^ 16 * (Config.cecc c).toNat + decc)

/-- PAYLOAD of a frame (R564). The spec gives no layout for TIME and LINK frames. [DESIGN CHOICE: log 124] -/
def payloadBits (f : Frame) : Nat := match f.ftype with
  | 1 => (f.flit.map flitBits).getD 0
  | 2 => leNat (f.words.flatMap (fun w => leBytes 4 w.toNat)) + 2 ^ 256 * f.words.length
  | 3 => Config.frameBits (match f.time with
    | some (.sync t1 t4) => [0, t1, b2n t4.isSome, t4.getD 0]
    | some .dreq => [1]
    | none => [])
  | 4 => Config.frameBits (match f.link with
    | some l => [l.inst, l.mask, l.width, l.role] ++ l.cred
    | none => [])
  | _ => 0

/-- The CRC-32 of a frame's bits 0 to 1247 (R7, R563). -/
def frameCrc (f : Frame) : Nat :=
  let head := f.ftype % 16 + 16 * (f.fseq % 4096) + 2 ^ 16 * (f.ack % 4096) + 2 ^ 28 * b2n f.nak
  crc32 (leBytes 4 head ++ (List.range 16).map (fun v => BitVec.ofNat 8 (f.cred.getD v 0)) ++ leBytes 136 (payloadBits f))

/-! ### Arrival of frames (R565, R567, R583) -/

/-- A packet whose body flit fails its check is cut out of a VC buffer, or completed there by a poisoned tail where its head
has left (R141): the VC, and the flits removed. -/
def VcSt.cut (x : VcSt) (v : Nat) : VcSt × Nat :=
  let body := (x.buf.reverse.takeWhile (fun f => f.hdr.isNone)).length
  if x.buf.length = body then ({ x with buf := x.buf ++ [poisonTail v 0] }, 0)
  else
    let keep := x.buf.take (x.buf.length - (body + 1))
    ({ x with buf := keep, tx := if keep.isEmpty then none else x.tx }, body + 1)

/-- The check of a flit that arrives at a Span port (R107): what its codes find, and the flit with POISON as the check leaves it.
[DESIGN CHOICE: log 54] -/
def spanCheck (fl : Flit) (e : FlitErr) : FlitErr × Flit :=
  let err := fl.found e
  (err, { fl with poison := fl.poison || err.dn || (err.d0 == .bad && fl.hdr.isNone), cbad := false, dbad := false })

/-- What follows a head flit of a packet of `f` flits. -/
def restOf (h : Hdr) (f : Nat) (drop : Bool) : Option RxPkt := if f ≤ 1 then none else some { drop := drop, left := f - 1, hdr := h }
/-- An accepted flit enters its receive VC (R107, R141, R547). -/
def State.rxFlit (s : State) (k j : Nat) (fl0 : Flit) (e : FlitErr) : State :=
  let c := 4 * k + j
  let v := fl0.vc
  let (err, fl) := spanCheck fl0 e
  let s := s.correcteds (.span 0 k) err.corrs
  let gone (s : State) (rx : Option RxPkt) : State := (s.updRxv c v (fun x => { x with rx := rx })).countUp c v 1
  let keep (s : State) (fl : Flit) (rx : Option RxPkt) : State :=
    (s.updRxv c v (fun x => { x with buf := x.buf ++ [fl], rx := rx })).spanPump k
  match (s.lk c).rxv[v]? with
  | none => s
  | some x => match x.rx with
    | some q =>
      if q.drop then gone s (q.after fl)
      else if err.c = .bad then
        let (y, n) := x.cut v
        let rest := (q.after fl).map (fun r => { r with drop := true })
        let s := (s.updLk c (fun l => { l with
          rxv := listSet l.rxv v (fun _ => { y with rx := rest })
          go := if y.buf.isEmpty then listSet l.go v (fun _ => none) else l.go })).spanPump k
        if n = 0 then s else s.countUp c v (n + 1)
      else keep s fl (q.after fl)
    | none => match fl.hdr with
      | none => gone s none
      | some h =>
        let f := hdrFlits h
        if err.head then gone s (restOf h f true)
        else keep s { fl with hdr := some { h with via := 0 } } (restOf h f false)

/-- Whether a FLIT frame finds room in its receive VC (R581). [DESIGN CHOICE: log 89] -/
def State.rxRoom (s : State) (k j : Nat) (f : Frame) : Bool := match f.ftype, f.flit with
  | 1, some fl => match (s.lk (4 * k + j)).rxv[fl.vc]? with
    | some x => decide (x.buf.length < s.alloc k j (fl.vc / 4))
    | none => false
  | 1, none => false
  | _, _ => true

/-- A TIME frame arrives, captured at `t` (R319, R320): at a CHILD, a SYNC, whose t4 ends the exchange under way; at a PARENT,
a DREQ, which is its exchange of the interval (R338). [DEDUCED: log 112] -/
def State.timeIn (s : State) (k j : Nat) (m : TimeMsg) (t : Nat) : State :=
  if j ≠ 0 then s
  else match s.rd (spB k) F.SP_TIME_CFG_ROLE, m with
    | 2, .sync t1 t4 => s.updLk (4 * k) (fun l =>
        { l with exch := match l.t12, l.t3, t4 with
                   | some p, some c, some d => some (p.1, p.2, c, d)
                   | _, _, _ => l.exch
                 t12 := some (t1, t), t3 := none })
    | 1, .dreq => (s.updLk (4 * k) (fun l => { l with t4 := some t })).updTime (fun u =>
        let o := mget (fun _ => ((0 : Int), (0 : Nat), (0 : Nat))) u.spanO k
        { u with spanO := mset (fun _ => ((0 : Int), (0 : Nat), (0 : Nat))) u.spanO k (o.1, o.2.1 + 1, o.2.2) })
    | _, _ => s

/-- The TIME frame that a link in time service sends at `t`, and what its end keeps of it (R319, R320): a PARENT's SYNC with
the t4 that it owes, a CHILD's DREQ after a SYNC. [DEDUCED: log 112] -/
def State.timeOut (s : State) (k j : Nat) (t : Nat) : Option (State × TimeMsg) :=
  if j ≠ 0 then none
  else match s.rd (spB k) F.SP_TIME_CFG_ROLE with
    | 1 => some (s.updLk (4 * k) (fun l => { l with t4 := none }), .sync t (s.lk (4 * k)).t4)
    | 2 => if (s.lk (4 * k)).t12.isSome then some (s.updLk (4 * k) (fun l => { l with t3 := some t }), .dreq) else none
    | _ => none

/-- A good frame reaches a link in ACTIVE, or one that trains anew without having been DOWN (R565 to R567).
[DESIGN CHOICE: log 31, 89] -/
def State.frameIn (s : State) (k j : Nat) (f : Frame) (t : Nat) : State :=
  let c := 4 * k + j
  let rise := f.nak && !(s.lk c).nakSeen
  let s := s.updLk c (fun l => { (l.acked f.ack).credited f.cred with nakSeen := f.nak })
  let s :=
    if f.ftype = 1 ∨ f.ftype = 2 then
      let d := (f.fseq + 4096 - (s.lk c).rxSeq) % 4096
      if d = 1 ∧ s.rxRoom k j f = true then
        let s := s.updLk c (fun l => { l with rxSeq := f.fseq % 4096, nak := false })
        match f.ftype, f.flit with
        | 1, some fl => s.rxFlit k j fl f.found
        | 2, _ => if s.relays k j then s.relayArrive (4 * k + j) f.words else s
        | _, _ => s
      else if d ≠ 0 ∧ d < 2048 then s.updLk c (fun l => { l with nak := true })
      else s
    else match f.ftype, f.time with
      | 3, some m => s.timeIn k j m t
      | _, _ => s
  if rise then s.replay k j else s

def execSpanFrameReceive (k j : Nat) (x : FrameIn) (s : State) : Host.Outcome State Fault Refusal :=
  guardUnit s (s.hasLink k j)
    (let c := 4 * k + j
     let st := s.lst k j
     let f := x.frame
     if st ≠ 4 ∧ st ≠ 5 ∧ st ≠ 6 then s
     else if f.crc.toNat ≠ frameCrc f ∨ 5 ≤ f.ftype then
       (s.lw k j F.SP_L_CRC_ERR_CNT_COUNT (min (s.lf k j F.SP_L_CRC_ERR_CNT_COUNT + 1) (2 ^ 32 - 1))).updLk c
         (fun l => { l with nak := true })
     else
       let s := if st = 5 ∨ (s.lk c).new = false then s.frameIn k j f x.t else s
       if st ≠ 5 ∧ f.ftype = 4 then s.updLk c (fun l => { l with far := f.link }) else s)

/-! ### Sending of frames (R565 to R568) -/

/-- Source `x` of flits toward the links of Span port `k`: its plane-side port on plane 0 or 1, or the crossbar VCs of link
`x - 2`; VC `v` of it. -/
def State.srcVc (s : State) (k x v : Nat) : Option VcSt :=
  if x < 2 then (s.port (.span x k)).vcs[v]? else (s.lk (x - 2)).xbv[v]?

/-- Flits of the next segment at the front of a VC, where all of it is there (R539, R568). -/
def wholeSeg (b : List Flit) : Option Nat :=
  let n := (b.takeWhile (fun f => !f.segb)).length
  if n < b.length then some (n + 1) else none

/-- Whether source `x`, VC `v` may start a segment toward link `c` (R539, R567, R568). [DESIGN CHOICE: log 87] -/
def State.segOk (s : State) (c x v : Nat) : Bool :=
  let l := s.lk c
  match s.srcVc (c / 4) x v with
  | none => false
  | some y => match y.tx, wholeSeg y.buf with
    | some t, some n => t.hdr.via == c && decide (n ≤ l.cred.getD v 0) &&
        (match l.hold.getD v none with
          | none => t.next == 0
          | some i => i == x)
    | _, _ => false

/-- The source and VC that a FLIT frame takes next: the segment in progress, else by class and rotation (R539, R568). -/
def State.nextSeg (s : State) (c : Nat) : Option (Nat × Nat) :=
  let l := s.lk c
  match l.owner with
  | some o => some o
  | none => (List.range 4).findSome? (fun cl => (l.rot.getD cl []).findSome? (fun q =>
      if s.segOk c (q / 4) (4 * (q % 4) + cl) then some (q / 4, 4 * (q % 4) + cl) else none))

/-- The front flit leaves its source; toward the planes its credit goes back (R155, R568). -/
def State.popSrc (s : State) (k x v : Nat) : State :=
  let pop (y : VcSt) : VcSt :=
    let b := y.buf.drop 1
    let isTail := match y.buf with
      | f :: _ => f.ft == 2 || f.ft == 3
      | [] => true
    { y with buf := b, tx := if isTail then frontPkt b else y.tx.map (fun t => { t with next := t.next + 1 }) }
  if x < 2 then ((s.updVc (.span x k) v pop).credit (.span x k) v).sinkPlane k x v 16
  else (s.updXbv (x - 2) v pop).sinkXb (x - 2) v 8

/-- A frame leaves a link, with the receiver's ACK, NAK and credit counts, and its CRC (R563, R565, R567). -/
def State.frameOut (s : State) (c : Nat) (f : Frame) : State :=
  s.updLk c (fun l =>
    let f : Frame := { f with ack := l.rxSeq, nak := l.nak, cred := l.cnt }
    { l with out := l.out ++ [{ f with crc := BitVec.ofNat 32 (frameCrc f) }] })

/-- A FLIT or RELAY frame leaves with the next FSEQ and is kept until it is acknowledged (R565, R566). -/
def State.seqOut (s : State) (c : Nat) (f : Frame) : State :=
  let f := { f with fseq := (s.lk c).txSeq }
  (s.updLk c (fun l => { l with txSeq := (l.txSeq + 1) % 4096, replay := l.replay ++ [f] })).frameOut c f

/-- A FLIT frame, where a flit may go (R568): none otherwise. -/
def State.flitOut (s : State) (c : Nat) : Option State :=
  let k := c / 4
  match s.nextSeg c with
  | none => none
  | some (x, v) =>
    match s.srcVc k x v with
    | none => none
    | some y => match y.buf with
      | [] => none
      | fl :: _ =>
        let isTail := fl.ft == 2 || fl.ft == 3
        let s := s.updLk c (fun l => { l with
          rot := if l.owner.isNone then listSet l.rot (v % 4) (fun q => toTail q (4 * x + v / 4)) else l.rot
          owner := if fl.segb then none else some (x, v)
          hold := listSet l.hold v (fun _ => if isTail then none else some x)
          cred := listSet l.cred v (fun n => n - 1) })
        let fl' : Flit := { fl with hdr := fl.hdr.map (fun h => { h with via := 0 }) }
        some ((s.seqOut c { ftype := 1, flit := some fl' }).popSrc k x v)

/-- One frame slot of a link (R568): `words` is the collect word that the relay root hands over to the UP link, `time` the capture
of a TIME frame that is due. In CONFIG and RETRAIN a LINK frame goes out (R570). -/
def State.frameSlot (s : State) (k j : Nat) (words : List Word) (time : Option Nat) : State :=
  let c := 4 * k + j
  match s.lst k j with
  | 5 =>
    let s := if s.lf k j F.SP_L_CFG_RELAY == 1 && s.relays k j then s.relayUp c words else s
    let l := s.lk c
    match l.rp.bind (fun i => l.replay[i]?.map (fun f => (i, f))) with
    | some (i, f) =>
      (s.updLk c (fun l => { l with rp := if i + 1 < l.replay.length then some (i + 1) else none })).frameOut c f
    | none =>
      let room := decide (l.replay.length < 256)
      if room && !l.relayQ.isEmpty then
        (s.updLk c (fun l => { l with relayQ := l.relayQ.drop 8 })).seqOut c { ftype := 2, words := l.relayQ.take 8 }
      else match time.bind (s.timeOut k j) with
        | some (s, m) => s.frameOut c { ftype := 3, time := some m }
        | none => match (if room then s.flitOut c else none) with
          | some t => t
          | none => s.frameOut c {}
  | st =>
    if st = 4 ∨ st = 6 then
      s.frameOut c { ftype := 4, link := some { inst := s.instNum, mask := s.goodLanes k j
                                                width := s.lf k j F.SP_L_CFG_WIDTH_REQ, role := s.lf k j F.SP_L_CFG_RELAY
                                                cred := (List.range 4).map (s.alloc k j) } }
    else s

def execSpanFrameSend (k j : Nat) (words : List Word) (time : Option Nat) (s : State) : Host.Outcome State Fault Refusal :=
  guardUnit s (s.hasLink k j) (s.frameSlot k j words time)

/-! ### Forwarding (R575 to R579) -/

/-- The forwarding range of an instance number: its port and link (R578). [DESIGN CHOICE: log 87] -/
def State.fwd (s : State) (k inst : Nat) : Option (Nat × Nat) :=
  ((List.range 16).find? (fun i => decide (s.rd (spB k) (F.SP_FWD_LO.ix i) ≤ inst) &&
    decide (inst ≤ s.rd (spB k) (F.SP_FWD_HI.ix i)))).map
    (fun i => (s.rd (spB k) (F.SP_FWD_PORT.ix i), s.rd (spB k) (F.SP_FWD_LINK.ix i)))

/-- A packet without a route is counted and reported (R578). [DEDUCED: log 86] -/
def State.noRoute (s : State) (k : Nat) : State := (s.count (spB k) F.SP_NOROUTE_CNT_COUNT 1).spanEvent k 6

/-- The judgement of a head flit from the planes by its context (R395, R399, R407): the context, and whether it passes. Without
a resequencer buffer a Span port delivers every packet at once, as R407 states for REORDER 0. [DEDUCED: log 86] -/
def spanJudge (v : Ctx) (vc seq : Nat) : Ctx × Bool :=
  let d := seqDiff seq v.ref
  if vc % 4 ≠ 0 then
    (if v.base || decide (0 ≤ d) then { v with base := false, ref := (seq + 1) % 65536 } else v, true)
  else if v.base then ({ v with base := false, ref := seq, h := 1 }, true)
  else if 0 < d then ({ v with ref := seq, h := (v.h * 2 ^ d.toNat + 1) % 2 ^ 32 }, true)
  else
    let m := (-d).toNat
    if m < 32 ∧ bitAt v.h m = false then ({ v with h := v.h + 2 ^ m }, true) else (v, false)

/-- A head flit from the planes: judged, then matched to its departure link, which VIA of its header holds until it leaves.
[DEDUCED: log 86] -/
def State.fromPlane (s : State) (k p : Nat) (fl : Flit) (h : Hdr) : State :=
  let o := Port.span p k
  let v := fl.vc
  let f := hdrFlits h
  let take (s : State) : State := (s.updVc o v (fun x => { x with rx := restOf h f true })).credit o v
  let key := s.ctxSrc h * 16 + v
  let (ctx, pass) := spanJudge (mget (fun _ => {}) (s.sp k).ctxs key) v h.seq
  let s := { s with sps := mset (fun _ => {}) s.sps k { s.sp k with ctxs := mset (fun _ => {}) (s.sp k).ctxs key ctx } }
  if pass = false then take s
  else match s.fwd k (h.dest / 256) with
    | none => take (s.noRoute k)
    | some (q, j) =>
      if q ≠ k ∨ s.hasLink k j = false then take (s.noRoute k)
      else
        let fl' : Flit := { fl with hdr := some { h with via := 4 * k + j } }
        s.updVc o v (fun x =>
          let b := x.buf ++ [fl']
          { x with buf := b, rx := restOf h f false, tx := if x.tx.isSome then x.tx else frontPkt b })

/-- One flit reaches a Span port from plane `p` (R107, R141, R150, R161, R547). [DEDUCED: log 86] -/
def State.spanFlit (s : State) (k p : Nat) (fl0 : Flit) (e : FlitErr) : State :=
  let o := Port.span p k
  let x := s.port o
  let v := fl0.vc
  if x.fault then s
  else
    let err := (spanCheck fl0 e).1
    let fl := (spanCheck fl0 e).2
    let s := s.correcteds o err.corrs
    match x.vcs[v]? with
    | none => s
    | some c =>
      if s.rom.vcDepth ≤ c.buf.length then s.updPort o (fun y => { y with fault := true })
      else
        let take (s : State) (rx : Option RxPkt) : State := (s.updVc o v (fun c => { c with rx := rx })).credit o v
        let s : State := match c.rx with
        | some q =>
          if q.drop then take s (q.after fl)
          else if err.c = .bad then
            let (y, n) := c.cut v
            let rest := (q.after fl).map (fun r => { r with drop := true })
            let s := s.updVc o v (fun _ => { y with rx := rest })
            if n = 0 then s else s.credits o v (n + 1)
          else s.updVc o v (fun c => { c with buf := c.buf ++ [fl], rx := q.after fl })
        | none => match fl.hdr with
          | none => take s none
          | some h => if err.head then take s (restOf h (hdrFlits h) true) else s.fromPlane k p fl h
        s.sinkPlane k p v 16

/-- A packet for the instance itself enters the planes on the port's own entry, once no other link's packet of its VC is on its
way there (R124, R394, R576 to R578). [DESIGN CHOICE: log 87] -/
def State.toPlanes (s : State) (k j v : Nat) (h : Hdr) : State :=
  let c := 4 * k + j
  let e := h.dest % 256
  let y := s.entry (256 + k) e
  if entryWired s.rom (256 + k) e || !y.usable || (v % 4 == 0 && (!y.rep || y.unchk)) then (s.noRoute k).rxDrop c v
  else if (List.range 4).any (fun i => (s.lk (4 * k + i)).go.getD v none == some 0) then s
  else
    let key := e * 16 + v
    let seq := mget (fun _ => 0) (s.sp k).seqs key
    let s := { s with sps := mset (fun _ => {}) s.sps k
                        { s.sp k with seqs := mset (fun _ => 0) (s.sp k).seqs key ((seq + 1) % 65536) } }
    let h' : Hdr := { h with path := y.path, hop := 0, la := pathField y.path 0, rep := false, seq := seq, bound := y.bound
                             unchk := y.unchk, via := 1 + k }
    s.updLk c (fun l => { l with
      go := listSet l.go v (fun _ => some 0)
      rxv := listSet l.rxv v (fun x => { x with
        buf := match x.buf with
          | f :: r => { f with hdr := some h' } :: r
          | [] => []
        tx := some { hdr := h', f := hdrFlits h, next := 0 } }) })

/-- A packet for another instance takes its departure link, where R578 and R579 let it. -/
def State.toLink (s : State) (k j v : Nat) (h : Hdr) : State :=
  let c := 4 * k + j
  match s.fwd k (h.dest / 256) with
  | none => (s.noRoute k).rxDrop c v
  | some (q, i) =>
    if s.hasLink q i = false ∨ 4 * q + i = c then (s.noRoute k).rxDrop c v
    else if s.lf k j F.SP_L_FAR_INST < s.instNum ∧ s.lf q i F.SP_L_FAR_INST < s.instNum then
      ((s.count (spB k) F.SP_TURN_DROP_CNT_COUNT 1).spanEvent k 6).rxDrop c v
    else s.updLk c (fun l => { l with
      go := listSet l.go v (fun _ => some (1 + (4 * q + i)))
      rxv := listSet l.rxv v (fun x => { x with tx := frontPkt x.buf }) })

/-- One flit of a packet in transit passes into the crossbar buffer of its VC, where it has room (R579). -/
def State.toXbar (s : State) (k j v : Nat) : State :=
  let c := 4 * k + j
  match (s.lk c).go.getD v none, (s.lk c).rxv[v]?, (s.lk c).xbv[v]? with
  | some (d + 1), some x, some y =>
    if 8 ≤ y.buf.length then s
    else match x.buf with
      | [] => s
      | fl :: _ =>
        let fl' : Flit := { fl with hdr := fl.hdr.map (fun h => { h with via := d }) }
        let s := s.updXbv c v (fun y =>
          let b := y.buf ++ [fl']
          { y with buf := b, tx := if y.tx.isSome then y.tx else frontPkt b })
        (s.popRx c v (fl.ft == 2 || fl.ft == 3)).sinkXb c v 8
  | _, _, _ => s

/-- The front packet of a link's receive VC is routed, and in transit moves by one flit. -/
def State.fromLink (s : State) (k j v : Nat) : State :=
  let l := s.lk (4 * k + j)
  let s := match l.go.getD v none, (l.rxv[v]?).bind (fun x => frontPkt x.buf) with
    | none, some t => if t.hdr.dest / 256 = s.instNum then s.toPlanes k j v t.hdr else s.toLink k j v t.hdr
    | _, _ => s
  s.toXbar k j v

/-- What has arrived is forwarded: `src` 0 and 1 the planes, 2 + j link j. -/
def execSpanForward (k src vc : Nat) (e : FlitErr) (s : State) : Host.Outcome State Fault Refusal :=
  guardUnit s (s.hasSpan k && decide (vc < 16) && (decide (src < 2) || s.hasLink k (src - 2)))
    (if src < 2 then
       let o := Port.span src k
       match (s.port o).wire with
       | [] => s
       | fl :: t =>
         let s := s.updPort o (fun y => { y with wire := t })
         if (s.port o).dead then s else s.spanFlit k src fl e
     else s.fromLink k (src - 2) vc)

/-! ### Stalls (R580) -/

/-- The packet at the front of a receive VC is dropped, or completed where part of it has been sent on. -/
def State.stallRx (s : State) (c v : Nat) (x : VcSt) : State :=
  match x.tx with
  | some t =>
    if t.next = 0 then s.rxDrop c v
    else
      let (n, whole) := frontFlits x.buf
      ((s.updRxv c v (fun x => { x with buf := poisonTail v 0 :: x.buf.drop n
                                        rx := if whole then x.rx else x.rx.map (fun q => { q with drop := true }) })).countUp
        c v (n - 1)).spanPump (c / 4)
  | none => s.rxDrop c v

def execSpanStall (k j vc : Nat) (xb : Bool) (s : State) : Host.Outcome State Fault Refusal :=
  guardUnit s (s.hasLink k j && decide (vc < 16))
    (let c := 4 * k + j
     match (if xb then (s.lk c).xbv[vc]? else (s.lk c).rxv[vc]?) with
     | none => s
     | some x =>
       if x.buf.isEmpty then s
       else
         let s := if xb then s.xbDrop c vc (match x.tx with
           | some t => t.next != 0
           | none => false) else s.stallRx c vc x
         (s.count (spB k) F.SP_STALL_DROP_CNT_COUNT 1).spanEvent k 7)

/-! ### Commands (R586) -/

/-- PORT and LINK of a Span command. -/
def Cmd.link (c : Cmd) : Nat × Nat := (c.p 0 2, c.p 2 2)

def execSpanTrain (x : Nat) (s : State) : Host.Outcome State Fault Refusal :=
  .next (s.runCmd x 0x70 [(0, 8)] (fun c s =>
    let (k, j) := c.link
    let w := c.p 4 3
    if s.hasLink k j = false ∨ 5 ≤ w ∨ s.group k < widthOf (s.group k) w ∨ s.allocOk k j = false then s.reply x 0x03 []
    else if 1 < s.roles 1 ∨ 8 < s.roles 2 then s.reply x 0x44 []
    else
      let st := s.lst k j
      let l := s.lk (4 * k + j)
      if (st ≠ 0 ∧ st ≠ 5 ∧ st ≠ 7) ∨ l.cmd.isSome = true ∨ l.fall.isSome = true then s.reply x 0x06 []
      else
        let s := (s.lw k j F.SP_L_CFG_WIDTH_REQ w).updLk (4 * k + j) (fun l => { l with cmd := some x })
        s.askTrain k j (if st = 5 ∧ c.p 7 1 = 0 then 3 else 1)))

def execSpanDown (x : Nat) (s : State) : Host.Outcome State Fault Refusal :=
  .next (s.runCmd x 0x71 [(0, 4)] (fun c s =>
    let (k, j) := c.link
    if s.hasLink k j = false then s.reply x 0x03 []
    else
      let s := ((s.trainReply k j 0x40 []).updLk (4 * k + j) (fun l => { l with want := 0, fall := none })).give 3 (4 * k + j)
      (s.linkDown k j 7).reply x 0 []))

def execSpanSplit (x : Nat) (s : State) : Host.Outcome State Fault Refusal :=
  .next (s.runCmd x 0x72 [(0, 2), (4, 2)] (fun c s =>
    let k := c.p 0 2
    if s.hasSpan k = false ∨ c.p 4 2 = 3 then s.reply x 0x03 []
    else if (List.range (s.nLinks k)).any (fun j => s.lst k j != 0 && s.lst k j != 7) then s.reply x 0x06 []
    else (s.wr (spB k) F.SP_CFG_SPLIT (c.p 4 2)).reply x 0 []))

def execSpanStatus (x : Nat) (s : State) : Host.Outcome State Fault Refusal :=
  .next (s.runCmd x 0x73 [(0, 2)] (fun c s =>
    let k := c.p 0 2
    if s.hasSpan k = false then s.reply x 0x03 []
    else s.reply x 0 ((List.range (s.nLinks k)).flatMap (fun j =>
      [F.SP_L_STAT_STATE, F.SP_L_FAR_INST, F.SP_L_LANE_C, F.SP_L_RTT_NS, F.SP_L_REPLAY_CNT_COUNT,
        F.SP_L_RETRAIN_CNT_COUNT].flatMap (fun f => leBytes 4 (s.word (spB k + (f.ix j).off)).toNat)))))

end Sys2Proof.Machine
end

