-- ==== Sys2Proof/Machine/Matrix.lean ====
section
/-! DEFINITION. The Control Matrix's entry and answers (R446 to R450, R457, R471), its locks (R465 to R468), and the accesses that a
reset of their target's region answers (R453). -/

namespace Sys2Proof.Machine

/-- DBG_DIS is in force (R618). -/
def State.dbgDis (s : State) : Bool := s.flag dbgB F.DBG_STAT_FUSE_DIS

def State.updCmx (s : State) (f : Cmx → Cmx) : State := { s with cmx := f s.cmx }

/-- Data as it stands on the lanes of a 64-bit port: the byte at offset `a` on lane `a` mod 8 (R447). [DEDUCED: log 103] -/
def toLanes (addr : Nat) (v : BitVec 64) : BitVec 64 := v <<< (8 * (addr % 8))
def fromLanes (addr : Nat) (v : BitVec 64) : BitVec 64 := v >>> (8 * (addr % 8))

/-! ### Reach and errors (R446, R471) -/

/-- Whether an offset of a unit lies in its snapshot banks. -/
def inBank (u : Un) (rel : Nat) : Bool :=
  match u.kind with
  | .ni => decide (0xC00 ≤ rel) && decide (rel < 0xC80)
  | .rtr => decide (0x200 ≤ rel) && decide (rel < 0x280)
  | .sp => decide (0x800 ≤ rel) && decide (rel < 0x880)
  | .tim => decide (0x100 ≤ rel) && decide (rel < 0x180)
  | _ => false

/-- Whether master `m` reaches a unit with an access (R446, R618). -/
def State.reaches (s : State) (m : Nat) (u : Un) (q : CsrReq) : Bool :=
  match m with
  | 0 => u.kind != .sram && u.kind != .brom
  | 1 => true
  | 2 => !s.dbgDis
  | 3 => u.kind == .str || (u.kind == .glb && !q.wr)
  | 4 => u.kind != .sram && u.kind != .brom
  | 5 => u.kind == .pf || inBank u (q.addr - u.base)
  | _ => false

/-- Whether a window offset that is a multiple of 4 holds a register. -/
def regAt (u : Un) (rel : Nat) : Bool := u.kind == .trc || (specAt rel (regsOf u.kind)).isSome

/-- Whether an access names an offset that holds no register, and no half of it does (R471). -/
def emptyAt (u : Un) (q : CsrReq) : Bool :=
  let rel := (q.addr - u.base) / 4 * 4
  !(u.kind == .rom || u.kind == .sram || u.kind == .brom) && !regAt u rel && !(q.size == 3 && regAt u (rel + 4))

/-- The code of an access that the CMX answers at its entry or at the default error target, and the unit of one that goes to a
target (R446, R471). -/
def State.entry? (s : State) (m : Nat) (q : CsrReq) : Except Nat Un :=
  match unitOf s.rom q.addr with
  | none => .error (if m = 3 ∨ m = 5 then 6 else 5)
  | some u => if s.reaches m u q = false then .error 6 else if emptyAt u q then .error 5 else .ok u

/-- A response other than OKAY sets its bit, and is logged while the log is empty. [DESIGN CHOICE: log 104] -/
def State.noteErr (s : State) (m : Nat) (q : CsrReq) (code : Nat) : State :=
  if code = 0 then s
  else
    let s := s.setBit cmxB F.CMX_ERR_STAT_CODE (code - 1)
    let s := if code = 5 then s.count cmxB F.CMX_DERR_CNT_COUNT 1 else s
    if s.flag cmxB F.CMX_ERR_LOG_INFO_VALID then s
    else
      let s := (s.wr cmxB F.CMX_ERR_LOG_OFFSET q.addr).wr cmxB F.CMX_ERR_LOG_INFO_MASTER m
      let s := (s.wr cmxB F.CMX_ERR_LOG_INFO_CODE code).wr cmxB F.CMX_ERR_LOG_INFO_WRITE (b2n q.wr)
      ((s.wr cmxB F.CMX_ERR_LOG_INFO_SIZE q.size).wr cmxB F.CMX_ERR_LOG_INFO_VALID 1).glEvent 5 1

/-- A MGMT access that its NI performs through its own register port (R449). -/
def Csa.atNi (a : Csa) : Bool := match a.mg with
  | some (n, _, _) => a.tgt == 16 + n
  | none => false

/-! ### Locks of the Control Matrix (R465 to R468) -/

/-- The region of a CMX target, none for the Pacer, which runs in the always-on domain (R31, R451). -/
def tgtRegion (rom : Rom) (t : Nat) : Option Nat :=
  if t = 4 then none
  else if t ≤ 12 then some rom.homeRegion
  else if 16 ≤ t ∧ t < 16 + rom.nis.length then some (niRec rom (t - 16)).region
  else if 272 ≤ t ∧ t < 272 + rom.rtrs.length then some (rtrRec rom (t - 272)).region
  else if 432 ≤ t ∧ t < 432 + rom.rtrs.length then some (rtrRec rom (t - 432)).region
  else if 592 ≤ t ∧ t < 592 + rom.spans.length then some (spanRec rom (t - 592)).region
  else none

/-- The owner of a target's lock with the clock of its grant. -/
def State.lockOf (s : State) (t : Nat) : Option (Nat × Nat) := mget (fun _ => none) s.cmx.locks t
/-- The key of a master's shadow and stage at a target. -/
abbrev mtKey (m t : Nat) : Nat := m * 1024 + t

/-- Break the lock of target `t` (R462, R467). -/
def State.breakLock (s : State) (t cause : Nat) : State :=
  match s.lockOf t with
  | none => s
  | some (m, _) =>
    let x := s.cmx
    let s := { s with cmx := { x with
      locks := mset (fun _ => none) x.locks t none
      brk := if x.brk.contains t then x.brk else t :: x.brk
      cuts := if cause = 1 then (m, t) :: x.cuts.filter (fun e => e != (m, t)) else x.cuts
      owed := x.owed.filter (fun e => e.1 != t)
      stage := mset (fun _ => none) x.stage (mtKey m t) none } }
    let s := s.wr cmxB (F.CMX_MST_STAT_CUT.ix m) 1
    let s := if s.flag cmxB F.CMX_LB_LOG_VALID then s else
      (((s.wr cmxB F.CMX_LB_LOG_TARGET t).wr cmxB F.CMX_LB_LOG_OWNER m).wr cmxB F.CMX_LB_LOG_CAUSE cause).wr cmxB
        F.CMX_LB_LOG_VALID 1
    s.glEvent 5 0

/-- Whether an access is at its target: granted, and not answered. -/
def Csa.working (a : Csa) : Bool := a.gr.isSome && a.rsp.isNone && !a.late

/-- The lock of target `t` breaks once no access of its owner is in progress there (R467). -/
def State.breakWhenDone (s : State) (t cause : Nat) : State :=
  match s.lockOf t with
  | none => s
  | some (m, _) =>
    if s.cmx.acs.any (fun a => a.m == m && a.tgt == t && a.working) then
      { s with cmx := { s.cmx with owed := s.cmx.owed.filter (fun e => e.1 != t) ++ [(t, cause)] } }
    else s.breakLock t cause

/-- The break that waited for the access in progress at target `t`. -/
def State.brokenNow (s : State) (t : Nat) : State :=
  match s.cmx.owed.find? (fun e => e.1 == t) with
  | none => s
  | some e => { s with cmx := { s.cmx with owed := s.cmx.owed.filter (fun e => e.1 != t) } }.breakLock t e.2

/-- The owner reset sideband of master `m` asserts: its locks break with cause 0, its stages are discarded, and its
outstanding accesses complete without an answer (R448, R462, R467, R468). -/
def State.ownerReset (s : State) (m : Nat) : State :=
  let ts := s.cmx.locks.filterMap (fun e => match e.2 with
    | some (o, _) => if o = m then some e.1 else none
    | none => none)
  let s := ts.foldl (fun a t => a.breakWhenDone t 0) s
  { s with cmx := { s.cmx with
    stage := s.cmx.stage.filter (fun e => e.1 / 1024 != m)
    acs := s.cmx.acs.map (fun a => if a.m = m then { a with mute := true } else a) } }

/-! ### Entry and answers -/

/-- The CMX accepts an access. One that it answers at its entry has its response at once. -/
def State.cmxIn (s : State) (m : Nat) (mg : Option (Nat × Nat × Hdr)) (q : CsrReq) (deny : Option Nat) : State :=
  let (t, rsp) := match deny, s.entry? m q with
    | some c, _ => (0, some ((0 : BitVec 64), c, false))
    | none, .error c => (0, some ((0 : BitVec 64), c, false))
    | none, .ok u => (u.target, none)
  s.updCmx (fun c => { c with next := c.next + 1, acs := c.acs ++ [{ ser := c.next, m := m, mg := mg, req := q, tgt := t, rsp := rsp }] })

/-- A MGMT response packet from NI `n`; one to a probe returns on the plane under test (R413, R450). -/
def State.mgmtAnswer (s : State) (n pl : Nat) (h : Hdr) (data : BitVec 64) (code : Nat) (lb : Bool) : State :=
  s.pushSys n { ser := 0, ptype := 8, op := 2, vn := 3, sc := 1, e := (s.entryFor n h.src).getD 260, dest := h.src, len := 16
                tag := h.tag, gen := h.gen, f := flitsOf 16, offer := s.clock
                payload := leBytes 8 data.toNat ++ leBytes 1 code ++ leBytes 1 (b2n lb) ++ leBytes 6 0
                probe := if pl = 0 then none else some (pl - 1) }

/-- Send the response of an access to its master. [DESIGN CHOICE: log 104] -/
def State.cmxAnswer (s : State) (a : Csa) (data : BitVec 64) (code : Nat) (lb : Bool) : State :=
  if a.mute then s
  else
    let s := s.noteErr a.m a.req code
    match a.mg, a.m with
    | some (n, pl, h), _ => s.mgmtAnswer n pl h data code lb
    | none, 0 => s.updCmx (fun c => { c with hcOut := c.hcOut ++ [{ id := a.req.id, data := toLanes a.req.addr data, code := code, lb := lb }] })
    | none, 2 => s.updCmx (fun c => { c with dbgOut := c.dbgOut ++ [{ id := 0, data := data, code := code, lb := lb }] })
    | none, _ => s

/-- MGMT accesses that wait at their NIs enter the CMX while master 4 has fewer than 16 outstanding (R446, R450). -/
def State.mgmtPump (s : State) : State :=
  forAll s.rom.nis.length (fun n a =>
    match (a.ni n).mgmtIn with
    | [] => a
    | (q, pl, h) :: r =>
      if (a.cmx.acs.filter (fun c => c.m == 4 && !c.late && !c.atNi)).length < 16 then
        (a.updNi n (fun x => { x with mgmtIn := r })).cmxIn 4 (some (n, pl, h)) q
          (if [2, 3, 4].contains (a.rgState a.rom.homeRegion) then some 7 else none)
      else a) s

/-- Send every response whose turn has come: those with one HC_ID return in issue order (R457). -/
def State.flushCmx (s : State) : State :=
  let (t, keep) := s.cmx.acs.foldl (fun (p : State × List Csa) (c : Csa) =>
    match c.rsp with
    | none => (p.1, p.2 ++ [c])
    | some (d, code, lb) =>
      if c.m == 0 && p.2.any (fun b => b.m == 0 && b.req.id == c.req.id && !b.late) then (p.1, p.2 ++ [c])
      else (p.1.cmxAnswer c d code lb, p.2)) (s, [])
  (t.updCmx (fun c => { c with acs := keep })).mgmtPump

/-- HC_REQ_READY. -/
def State.hcReady (s : State) : Bool :=
  !s.cmx.hcLow && s.pacer.rst == 0 && decide ((s.cmx.acs.filter (fun a => a.m == 0 && !a.late)).length < 16)
    && !([2, 3, 4].contains (s.rgState s.rom.homeRegion))

/-! ### Resets of a target's region (R453) -/

/-- Accesses in flight to targets of a region that enters reset are not performed; their answer is ASLEEP (R453). -/
def State.cutAccesses (s : State) (g : Nat) : State :=
  let x := s.cmx
  let hit (a : Csa) : Bool := a.gr.isSome && a.rsp.isNone && tgtRegion s.rom a.tgt == some g
  { s with cmx := { x with
    acs := (x.acs.filter (fun a => !(hit a && a.late))).map (fun a =>
      if hit a then { a with rsp := some (0, 7, x.brk.contains a.tgt) } else a) } }.flushCmx

end Sys2Proof.Machine
end

