-- ==== Sys2Proof/Machine/Regions.lean ====
section
/-! DEFINITION. What a region goes through: units under a reset (R545 to R549), commands that wait
for regions (R517, R530), the start of a wake (R515, R516), an entry that aborts (R517), a reset with its release (R543 to
R548), and what a deep sleep loses (R504). -/

namespace Sys2Proof.Machine

/-! ### Commands that wait for regions (R517, R530) -/

/-- The regions of a mask that are in state `st`. -/
def State.reached (s : State) (mask st : Nat) : Nat := bitsWhere 16 (fun g => bitAt mask g && s.rgState g == st)

/-- Answer a PWR_STATE that waits, with the regions that have reached their state. -/
def State.pwrAnswer (s : State) (x status : Nat) : State :=
  match s.pacer.cmds.find? (fun e => e.1 == x) with
  | none => s
  | some (_, mask, st) =>
    (s.updPacer (fun p => { p with cmds := p.cmds.filter (fun e => e.1 != x) })).reply x status (leBytes 2 (s.reached mask st))

/-- Every PWR_STATE whose regions have all reached their state is answered. -/
def State.pwrCheck (s : State) : State :=
  s.pacer.cmds.foldl (fun a e => if a.reached e.2.1 e.2.2 = e.2.1 then a.pwrAnswer e.1 0 else a) s

/-- The entry commands that name region `g` are answered with a status. -/
def State.pwrFail (s : State) (g status : Nat) : State :=
  s.pacer.cmds.foldl (fun a e => if bitAt e.2.1 g ∧ e.2.2 ≠ 0 then a.pwrAnswer e.1 status else a) s

/-! ### Units under a reset (R545 to R548) -/

/-- Every port of the units of region `g`. -/
def regionPorts (rom : Rom) (g : Nat) : List Port :=
  (rtrsOf rom g).flatMap (fun r => rtrPorts rom 0 r ++ rtrPorts rom 1 r) ++ (nisOf rom g).flatMap (fun n => [.ni 0 n, .ni 1 n])
    ++ (spansOf rom g).flatMap (fun k => [.span 0 k, .span 1 k])

/-- The links of a Span port go down with its reset: what waits for them is answered, and other ports' packets toward them are
discarded. -/
def State.dropLinks (s : State) (k : Nat) : State :=
  (List.range 4).foldl (fun a j =>
    let c := 4 * k + j
    let a := (a.trainReply k j 0x40 []).give 3 c
    (a.updLk c (fun l => ({ out := l.out } : Link))).jointsLost c) s

/-- A reset that covers Span port `k` (R545). -/
def State.resetSpan (s : State) (k : Nat) (dead : Bool) : State :=
  let s := (s.dropLinks k).resetWindow (spB k) 0x10000 kept545
  let s := { s with sps := mset (fun _ => {}) s.sps k {} }
  ((((s.clearPort (.span 0 k) dead).clearPort (.span 1 k) dead).pfLost (.span k)).updTime (fun u =>
    { u with spanO := mset (fun _ => ((0 : Int), (0 : Nat), (0 : Nat))) u.spanO k (0, 0, 16) }))

/-- Every unit of region `g` is reset, and the live ports beside it stand as R547 and R549 state. -/
def State.resetUnits (s : State) (g : Nat) : State :=
  let kept := s.farQueues (regionPorts s.rom g)
  let s := (rtrsOf s.rom g).foldl (fun a r => (a.resetRtr 0 r true).resetRtr 1 r true) s
  let s := (nisOf s.rom g).foldl (fun a n => a.resetNi n true) s
  let s := (spansOf s.rom g).foldl (fun a k => a.resetSpan k true) s
  let s := (regionPorts s.rom g).foldl (fun a o => a.clearPort o true) s
  let s := kept.foldl (fun a e => a.updPort e.1 (fun x => { x with stq := e.2 })) s
  let s := (regionPorts s.rom g).foldl (fun a o => a.farSides o) s
  (List.range s.rom.spans.length).foldl (fun a k => a.sinkAll k) s

/-- The BASE broadcast: every context that names one of the NIs has no reference (R395, R548), and what it holds is discarded and
counted in RSQ_SKIP_CNT (R416). -/
def State.baseAll (s : State) (l : List Nat) : State :=
  let base (m : Map Ctx) : Map Ctx := m.foldl (fun (a : Map Ctx) e =>
    if l.contains (e.1 / 16) then mset (fun _ => ({} : Ctx)) a e.1 {} else a) m
  let s := forAll s.rom.nis.length (fun n a =>
    let x := a.ni n
    let gone := (x.ctxs.filter (fun e => l.contains (e.1 / 16))).flatMap (fun e => e.2.held)
    let a := gone.foldl (fun a k => a.dropPk n k) (a.setNi n { x with ctxs := base x.ctxs })
    if gone.isEmpty then a else a.count (niB n) F.NI_RSQ_SKIP_CNT_COUNT gone.length) s
  forAll s.rom.spans.length (fun k a =>
    { a with sps := mset (fun _ => {}) a.sps k { a.sp k with ctxs := base (a.sp k).ctxs } }) s

/-- The units of region `g` leave reset: their ports may load credits again (R154, R553). -/
def State.aliveUnits (s : State) (g : Nat) : State :=
  (regionPorts s.rom g).foldl (fun a o => a.updPort o (fun y => { y with dead := false })) s

/-! ### Freezes and steps that a reset ends (R520) -/

/-- A step of region `g` ends because its region is reset: the region keeps the point that it held before (R520, R529). -/
def State.stepCut (s : State) (g status : Nat) : State :=
  match (s.rg g).step with
  | none => s
  | some d => (s.setOp g d.oldMhz d.oldMv).stepEnd g status

/-! ### Entry and wake (R515 to R517) -/

/-- The NIs of region `g` stop: NI_UP falls and every context stands in BASE (R416). -/
def State.downNis (s : State) (g : Nat) : State :=
  (nisOf s.rom g).foldl (fun a n => a.updNi n (fun x => { x with up := false, ctxs := [] })) s

/-- Region `g` starts to wake from SLEEP, DEEP_SLEEP or OFF (R516). [DESIGN CHOICE: log 74] -/
def State.wakeStart (s : State) (g : Nat) : State :=
  let st := s.rgState g
  if st = 2 ∨ st = 3 ∨ st = 4 then
    ((s.updRg g (fun r => { r with prev := st, goal := none, wake := if st = 4 then 7 else 1 })).rgGo g 6).refreshTime
  else s

/-- A wake of a source is recorded (R515, R534). -/
def State.woken (s : State) (src : Nat) : State := (s.wr pcrB F.PCR_STAT_WAKE_SRC src).glEvent 7 1

/-- Whether an entry of region `g` is in progress and may still abort: it waits for IDLE or for DEEP_SLEEP, or it is CLOSING and has
not passed edge Q (R514, R517). -/
def State.entering (s : State) (g : Nat) : Bool :=
  if s.rgState g = 5 then (s.rg g).q.isNone else (s.rg g).goal.isSome

/-- Region `g` leaves its entry for the state it had before (R517). -/
def State.abortOne (s : State) (g : Nat) : State :=
  if s.entering g = false then s
  else
    let v := s.updRg g (fun r => { r with goal := none, ready := false, comb := false })
    if s.rgState g = 5 then v.rgGo g (s.rg g).prev else v

/-- The home region is brought to RUN before any other wakes, where it is in IDLE (R30). -/
def State.homeUp (s : State) : State := if s.rgState s.rom.homeRegion = 1 then s.rgGo s.rom.homeRegion 0 else s

/-- An instance-wide entry ends with a status: every region that it has moved comes back to RUN, and the home region to the
state that it held (R30, R517); a region that has passed edge Q wakes once it has arrived. [DESIGN CHOICE: log 70] -/
def State.abortInst (s : State) (status : Nat) : State :=
  match s.pacer.inst with
  | none => s
  | some (st, x) =>
    let mask := s.pacer.moved
    let late := bitsWhere 16 (fun h => bitAt mask h && s.rgState h == 5 && (s.rg h).q.isSome)
    let s := (s.updPacer (fun p => { p with inst := none, wakes := p.wakes ||| late })).replyOpt x status (leBytes 2 (s.reached mask st))
    let s := (s.abortOne s.rom.homeRegion).homeUp
    (List.range s.rom.regions.length).foldl (fun a h =>
      let a := a.abortOne h
      if bitAt mask h = false ∨ h = a.rom.homeRegion then a
      else if a.rgState h = 1 then a.rgGo h 0
      else a.wakeStart h) s

/-- ENTRY_ABORT (R517, R534). -/
def State.abortNote (s : State) : State := (s.wr pcrB F.PCR_STAT_ENTRY_ABORT 1).glEvent 7 0

/-- An entry of region `g` aborts; in an instance-wide entry every region that it has moved comes back (R517). -/
def State.abortEntry (s : State) (g status : Nat) : State :=
  if s.entering g = false then s
  else
    let s := (s.abortOne g).abortNote
    if s.pacer.inst.isSome then s.abortInst status else s.pwrFail g status

/-- A wake that concerns an instance-wide entry aborts it, whichever regions have arrived (R517). -/
def State.abortWide (s : State) (status : Nat) : State := if s.pacer.inst.isSome then s.abortNote.abortInst status else s

/-! ### Region resets (R543, R545 to R549, R553) -/

/-- The Time Tree nodes of region `g` are reset: their counters are to be loaded anew (R301, R504). -/
def State.resetNodes (s : State) (g : Nat) : State :=
  (rtrsOf s.rom g).foldl (fun a r => if isRoot a.rom r then a else
    a.setNode r { frozen := a.time.freezes.any (fun f => f.left == 0 && a.inHopSet f.g r) }) s

/-- Region `g` is reset with a cause (R558): 0 command, 1 droop, 2 clock fault, 3 wake from OFF. [DESIGN CHOICE: log 92] -/
def State.rgReset (s : State) (g cause : Nat) : State :=
  let s := s.stepCut g (if cause = 1 then 0x39 else 0x33)
  let s := s.abortEntry g 0x37
  let s := (s.updRg g (fun r => { r with
    prev := 0, goal := none, ready := false, comb := false, gated := false, wake := 4, held := true })).rgGo g 6
  let s := ((s.setBit glbB F.GLB_RST_STAT_REGION g).setBit glbB F.GLB_RECOV_RECOV g).wr glbB (F.GLB_RG_CAUSE_CAUSE.ix g) cause
  let s := s.resetUnits g
  let ts := s.cmx.locks.map (fun e => e.1)
  let s := ts.foldl (fun a t => if tgtRegion a.rom t = some g then a.breakLock t 2 else a) (s.cutAccesses g)
  if cause = 1 ∨ cause = 2 then
    let s := (s.hopSet g).foldl (fun a r => a.setNode r { a.node r with cal := false, run := false }) s
    let s := (s.resetNodes g).calReply
    ((s.updPacer (fun p => { p with faults := p.faults ||| 2 ^ g })).orderSync).refreshTime
  else s.refreshTime

/-- The calibration that a wake or a release starts has ended, where it has. -/
def State.wakeCal (s : State) (g : Nat) : State :=
  if s.calRuns g then s
  else match (s.rg g).wake with
    | 2 => s.updRg g (fun r => { r with wake := 3 })
    | 5 => s.updRg g (fun r => { r with wake := 6 })
    | _ => s

/-- The reset of region `g` is released: the BASE broadcast, and the calibration of its hop set (R301, R548, R553). -/
def State.rgRelease (s : State) (g : Nat) : State :=
  if (s.rg g).held && (s.rg g).wake == 4 then
    let s := ((s.updRg g (fun r => { r with held := false, wake := 5 })).aliveUnits g).baseAll (nisOf s.rom g)
    ((s.startRuns (s.calNodes g)).refreshTime).wakeCal g
  else s

/-- The router ports that face NI `n` on both planes. -/
def facing (rom : Rom) (n : Nat) : List Port := [0, 1].map (fun p => .rtr p (niRec rom n).rtr (niRec rom n).port)

/-- NI `n` is reset with the router ports that face it (R543, R545, R548). [DESIGN CHOICE: log 92] -/
def State.niReset (s : State) (n : Nat) : State :=
  let s := s.resetNi n true
  let s := (facing s.rom n).foldl (fun a o => a.clearRtrPort o true) s
  s.breakLock (16 + n) 2

/-- The recovery of an NI that was reset alone begins: its region closes and reads WAKING, and its hop set is calibrated (R301,
R509, R553). A region that enters a deeper state or wakes from one recovers the NI at the end of its wake, one that already
recovers restores again. [DESIGN CHOICE: log 92] -/
def State.niRecover (s : State) (g : Nat) : State :=
  let s := (s.stepCut g 0x33).abortEntry g 0x37
  if s.rgOpen g then
    let s := ((s.updRg g (fun r => { r with goal := none, gated := false, wake := 5 })).rgGo g 6).setBit glbB F.GLB_RECOV_RECOV g
    ((s.startRuns (s.calNodes g)).refreshTime).wakeCal g
  else if (s.rg g).wake = 8 then s.updRg g (fun r => { r with wake := 6 })
  else s

/-- The reset of NI `n` is released: its ports may load credits, the BASE broadcast names it, and its recovery begins (R548,
R553). -/
def State.niRelease (s : State) (n : Nat) : State :=
  let g := (niRec s.rom n).region
  if (s.port (.ni 0 n)).dead && !(s.rg g).held then
    let s := ([Port.ni 0 n, Port.ni 1 n] ++ facing s.rom n).foldl (fun a o => a.updPort o (fun y => { y with dead := false })) s
    (s.baseAll [n]).niRecover g
  else s

/-! ### What DEEP_SLEEP and OFF lose (R504, R545) -/

/-- What an NI keeps in DEEP_SLEEP: its configuration, and nothing of its queues. -/
def NiSt.deep (x : NiSt) : NiSt :=
  { x.kept with recov := x.recov, genBase := x.genBase, gateLive := x.gateLive, reseqOwner := x.reseqOwner, timer := x.timer }

/-- The mirrors that an NI holds of the Pacer's, the Starter's and the slice manager's state (R441, R509, R553). -/
def State.mirror (s : State) (n : Nat) : State :=
  let openMask := bitsWhere s.rom.regions.length (fun g => s.rgOpen g)
  let pols := (List.range 3).map (fun i => bitsWhere s.rom.regions.length (fun g => bitAt (s.rd pcrB (F.PCR_RG_CFG_POL.ix g)) i))
  let st (f : Nat → Bool) : Nat := bitsWhere 63 (fun sl => f (s.slcSt sl))
  let g := (niRec s.rom n).region
  let att (p : Nat) : Nat := b2n (s.plnState p == 0)
  let s := ((((s.wr (niB n) F.NI_PWR_MASK_OPEN openMask).wr (niB n) F.NI_PLN_STAT_ATT_A (att 0)).wr (niB n) F.NI_PLN_STAT_ATT_B
    (att 1)).wr (niB n) F.NI_PLN_STAT_TEST (b2n (s.plnState 0 == 3 || s.plnState 1 == 3))).wr (niB n) F.NI_ORD_STAT_DEGRADED
    (b2n s.pacer.degraded)
  let s := (s.wr (niB n) F.NI_THR_STAT_A2 (s.rd pcrB (F.PCR_ALLOW_A2.ix g))).wr (niB n) F.NI_THR_STAT_A3 (s.rd pcrB (F.PCR_ALLOW_A3.ix g))
  s.updNi n (fun x => { x with
    pol := pols
    join := bitsWhere 2 (fun p => s.plnState p == 4)
    closed := st (fun v => v != 0)
    squash := st (fun v => v == 2 || v == 3 || v == 4) })

/-- What a region's NI has missed while its region slept: the slices that have been closed or squashed since, and the mirrors
(R441, R509, R516). -/
def State.catchUp (s : State) (n : Nat) : State :=
  ((List.range 63).foldl (fun a sl => match a.slcSt sl with
    | 0 => a
    | 1 => a.sliceClose n sl
    | _ => a.sliceSquash n sl) s).mirror n

/-- Region `g` has slept deeply: RO and W1C fields return to their reset values, buffers are empty (R504, R516).
[DESIGN CHOICE: log 76] -/
def State.deepReset (s : State) (g : Nat) : State :=
  let s := (rtrsOf s.rom g).foldl (fun a r => [0, 1].foldl (fun b p =>
    ((rtrPorts b.rom p r).foldl (fun c o => c.clearPort o false) b).resetWindow (rtrB p r) 0x1000 kept545) a) s
  let s := (nisOf s.rom g).foldl (fun a n =>
    let a := (a.setNi n (a.ni n).deep).resetWindow (niB n) 0x4000 kept545
    ((((a.loadShapers n).clearPort (.ni 0 n) false).clearPort (.ni 1 n) false)).mirror n) s
  let s := (spansOf s.rom g).foldl (fun a k => a.resetSpan k false) s
  let s := (regionPorts s.rom g).foldl (fun a o => a.farSides o) s
  let s := (s.hopSet g).foldl (fun a r => a.setNode r { a.node r with cal := false }) s
  (s.resetNodes g).refreshTime

/-- Region `g` has lost its supply: everything in it is cleared (R504, R545). -/
def State.offReset (s : State) (g : Nat) : State :=
  let s := s.resetUnits g
  let none' (_ : FSpec) : Bool := false
  let s := s.resetNodes g
  let s := (rtrsOf s.rom g).foldl (fun a r => (a.resetWindow (rtrB 0 r) 0x1000 none').resetWindow (rtrB 1 r) 0x1000 none') s
  let s := (nisOf s.rom g).foldl (fun a n =>
    let x := a.ni n
    (a.resetWindow (niB n) 0x4000 none').setNi n { nextSer := x.nextSer, out := x.out, epLow := x.epLow, recov := true }) s
  (spansOf s.rom g).foldl (fun a k => a.resetWindow (spB k) 0x10000 none') s

end Sys2Proof.Machine
end

