-- ==== Sys2Proof/Machine/Topology.lean ====
section
/-! DEFINITION. The bytes of the Topology Descriptor ROM (R41 to R53) and the checks that start-up makes of it (R54, R556). -/

namespace Sys2Proof.Machine

/-- An NI record. -/
def niRecBytes (i : Nat) (x : NiRec) : List Byte :=
  leBytes 2 i ++ leBytes 2 x.rtr ++ leBytes 1 (x.port + 16 * x.region) ++ leBytes 1 (x.epWidth + 8 * x.epRole)
    ++ leBytes 1 (x.stages + 4 * x.stages + 16 * x.sched) ++ leBytes 1 0 ++ leBytes 2 x.pidMap ++ leBytes 2 x.reseq
    ++ leBytes 2 x.epClkMax ++ leBytes 2 0

/-- A router record. -/
def rtrRecBytes (i : Nat) (x : RtrRec) : List Byte :=
  leBytes 2 i ++ leBytes 1 x.region ++ leBytes 1 x.radix ++ leBytes 2 x.relayParent ++ leBytes 1 x.relayLevel ++ leBytes 1 0
    ++ leBytes 2 x.timeParent ++ leBytes 1 x.timeLevel ++ leBytes 1 0 ++ leBytes 2 x.placeX ++ leBytes 2 x.placeY

/-- A link record (R48). -/
def linkRecBytes (r : Rom) (x : LinkRec) : List Byte :=
  leBytes 2 x.router ++ leBytes 1 (x.port + 16 * x.farKind + 64 * x.stages) ++ leBytes 2 x.farIndex
    ++ leBytes 1 ((if x.farKind = 1 then x.farPort else 0) + 16 * b2n (r.xing x)) ++ leBytes 2 x.wireUm

/-- The turn map of router `k` (R49). -/
def turnMap (r : Rom) (k : Nat) : Nat :=
  (List.range 144).foldl (fun a b => if r.turn k (b / 12) (b % 12) then a + 2 ^ b else a) 0

/-- A region record (R50). -/
def regionRecBytes (r : Rom) (g : Nat) (x : RegionRec) : List Byte :=
  leBytes 1 g ++ leBytes 1 (b2n (g == r.homeRegion) + 2 * b2n (r.spans.any (fun k => k.region == g))) ++ leBytes 2 x.vNom
    ++ leBytes 2 x.fcMax ++ leBytes 2 x.fcMin ++ leBytes 2 (r.rtrs.countP (fun y => y.region == g))
    ++ leBytes 2 (r.nis.countP (fun y => y.region == g)) ++ leBytes 4 0

/-- A Span port record. -/
def spanRecBytes (k : Nat) (x : SpanRec) : List Byte :=
  leBytes 1 k ++ leBytes 1 x.lanes ++ leBytes 1 x.region ++ leBytes 2 x.rtr ++ leBytes 1 x.port ++ leBytes 8 0 ++ leBytes 2 0

/-- A frequency-ceiling record. -/
def ceilRecBytes (x : CeilRec) : List Byte := leBytes 1 x.region ++ leBytes 1 0 ++ leBytes 2 x.mv ++ leBytes 2 x.fmax

/-- The records of a list, each with its index. -/
def numbered {α : Type} (f : Nat → α → List Byte) (l : List α) : List (List Byte) := l.zipIdx.map (fun e => f e.2 e.1)

/-- The sections in the order of their types: type, record length and records (R44). [DEDUCED: log 95] -/
def romSections (r : Rom) : List (Nat × Nat × List (List Byte)) :=
  [(1, 16, numbered niRecBytes r.nis), (2, 16, numbered rtrRecBytes r.rtrs), (3, 8, r.links.map (linkRecBytes r)),
   (4, 20, numbered (fun i _ => leBytes 2 i ++ leBytes 18 (turnMap r i)) r.rtrs), (5, 16, numbered (regionRecBytes r) r.regions),
   (6, 16, numbered spanRecBytes r.spans), (7, 6, r.ceils.map ceilRecBytes)]

/-- The directory entries of sections that start at `off` (R43). [DEDUCED: log 95] -/
def romDir : Nat → List (Nat × Nat × List (List Byte)) → List Byte
  | _, [] => []
  | off, (t, len, recs) :: r =>
    leBytes 1 t ++ leBytes 1 len ++ leBytes 2 recs.length ++ leBytes 4 off ++ romDir (off + len * recs.length) r

/-- Where the sections begin: after the header, the seven directory entries and 8 reserved bytes, at 0x80 as in the example of
R55. -/
def sectStart : Nat := 0x80

/-- The ROM without its CRC (R41, R42). -/
def romBody (r : Rom) : List Byte :=
  let secs := romSections r
  let data := secs.flatMap (fun x => x.2.2.flatten)
  let len := sectStart + data.length + 4
  leBytes 4 r.magic ++ leBytes 2 r.fmtVer ++ leBytes 2 0x40 ++ leBytes 4 len ++ leBytes 4 r.genId ++ leBytes 2 r.nis.length
    ++ leBytes 2 r.rtrs.length ++ leBytes 1 r.diameter ++ leBytes 1 r.regions.length ++ leBytes 1 r.spans.length
    ++ leBytes 1 r.relayDepth ++ leBytes 1 r.maxRadix ++ leBytes 1 r.vcDepth ++ leBytes 1 8 ++ leBytes 1 r.homeRegion
    ++ leBytes 2 r.fcMax ++ leBytes 2 r.fcMin ++ leBytes 1 secs.length ++ leBytes 3 0 ++ leBytes 4 0x40 ++ leBytes 24 0
    ++ romDir sectStart secs ++ leBytes (sectStart - 0x40 - 8 * secs.length) 0 ++ data

/-- The ROM's used area (R41, R53). [DEDUCED: log 95] -/
def romBytes (r : Rom) : List Byte := romBody r ++ leBytes 4 r.crc

/-- The first relay node that does not match its router record: CODE and index (R54, R556). -/
def romNodes (r : Rom) : Option (Nat × Nat) :=
  r.rtrs.zipIdx.findSome? (fun e => match r.wired[e.2]? with
    | none => some (6, e.2)
    | some w => if w.1 ≠ e.2 then some (4, e.2) else if w.2 ≠ e.1.region then some (5, e.2) else none)

/-- The topology failure, CODE and NODE, none where every check passes (R54, R556). -/
def topoFault (r : Rom) : Option (Nat × Nat) :=
  if r.magic ≠ 0x4E535243 then some (1, 0)
  else if r.fmtVer ≠ 3 then some (2, 0)
  else if r.crc ≠ crc32c (romBody r) then some (3, 0)
  else romNodes r

end Sys2Proof.Machine
end

