-- ==== Sys2Proof/Machine/Reset.lean ====
section
/-! DEFINITION. Instance resets (R543, R546), the release of resets (R548), recovery (R553, R554), start-up to READY (R54,
R555, R556) and the fuses (R616, R617). -/

namespace Sys2Proof.Machine

/-! ### Instance resets -/

/-- POR_N: everything returns to its state after reset. The ROM, the straps, the waiting commands and the model's counter of
free values are no part of it. -/
def State.por (s : State) : State :=
  { State.reset with rom := s.rom, straps := s.straps, pending := s.pending, free := s.free }

def execPor (s : State) : Host.Outcome State Fault Refusal := .next s.por

/-- Whether an offset lies outside the Pacer block (R532). -/
def notPcr (o : Nat) : Bool := decide (o < pcrB) || decide (pcrB + 0x10000 ≤ o)

/-- HRST_N, or an escalation to it, with its cause (R543, R546, R558): everything but sticky fields, the Pacer block and the
always-on domain. The Pacer keeps its regions' states, a transition in progress and the leaves held, which their holders return;
every region is under the reset. The entry into degraded ordering mode raises its event (R219). What the endpoint and host ports
and the test access port have shown stays. [DEDUCED: log 93; DESIGN CHOICE: log 129] -/
def State.hrst (s : State) (cause : Nat) : State :=
  let s := if s.pacer.degraded then s else s.glEvent 9 0
  let s := forAll s.rom.nis.length (fun n a => a.discardStores n) s
  let s := (List.range s.rom.spans.length).foldl (fun a k => a.dropLinks k) s
  let lost := s.evd.skip + s.evd.held.length
  let held (n : Nat) : Nat := (s.ni n).heldPkts.length
  let nis := s.nis.filterMap (fun e =>
    let x : NiSt := { nextSer := e.2.nextSer, out := e.2.out, epLow := e.2.epLow }
    if x = {} then none else some (e.1, x))
  let s := forAll s.rom.nis.length (fun n a => a.count (niB n) F.NI_RSQ_SKIP_CNT_COUNT (held n)) (s.resetRegs notPcr sticky)
  let s : State := { s with
    nis := nis, ports := [], planeFaults := []
    time := { carrier := s.time.carrier, pinOut := s.time.pinOut, pinEnd := s.time.pinEnd, pinSync := s.time.pinSync }
    pfs := [], evd := { skip := lost, rst := true }, evKey := List.replicate 32 0, trc := [], trcRun := false
    cmdQ := [], cmds := [], asks := [], leaveQ := [], gives := s.leaves
    heats := [], relay := none, joints := [], clients := [], heatCrc := false, slcs := [], migSync := none, captured := []
    plst := [], planeHit := 0, floorStep := 0, floorRun := false
    rgs := (List.range s.rom.regions.length).foldl (fun (m : Map Rg) g =>
      mset (fun _ => ({} : Rg)) m g { mget (fun _ => ({} : Rg)) m g with held := true }) s.rgs
    intKept := 0
    pacer := { s.pacer with cmds := [], faults := 0, degraded := true, rst := 2 }
    start := { t0 := s.clock }
    cmx := { next := s.cmx.next, hcLow := s.cmx.hcLow, hcOut := s.cmx.hcOut, dbgOut := s.cmx.dbgOut }
    starter := { wdog := s.clock, out := s.starter.out }, scan := {}, sps := [] }
  s.wr glbB F.GLB_RST_STAT_CAUSE cause

def execHrst (s : State) : Host.Outcome State Fault Refusal := .next (s.hrst 1)

/-- A region fault: the home region's escalates to an instance reset (R529, R537, R546). -/
def State.rgFault (s : State) (g cause : Nat) : State :=
  if g = s.rom.homeRegion then s.hrst (if cause = 1 then 2 else 3) else s.rgReset g cause

/-! ### Release (R547, R548, R553) -/

/-- The reset of a region or of an NI is released. -/
def execResetRelease (ni : Bool) (k : Nat) (s : State) : Host.Outcome State Fault Refusal :=
  guardUnit s (if ni then s.hasNi k else s.hasRegion k) (if ni then s.niRelease k else s.rgRelease k)

/-- An input port whose far end is under reset, or beside a half that has isolated, completes its packets (R547, R550). -/
def execFarEndReset (o : Port) (s : State) : Host.Outcome State Fault Refusal :=
  guardUnit s (s.hasPort o)
    (match farEnd s.rom o with
     | none => s
     | some f => if ((s.port f).dead || (s.port o).stIso) && !(s.port o).dead then s.completeIn o else s)

/-! ### Recovery (R553, R554) -/

/-- The late histogram of NI `n` runs again where the captured configuration says so and Photo Finish does not hold the timer
(R553). -/
def State.histBack (s : State) (n : Nat) : State :=
  let want := bitAt (mget (resetWord s.rom s.straps) s.captured (niB n + 0x404)).toNat 0
  let can := (s.ni n).timer == 0 || (s.ni n).timer == 2
  if want && can then (s.wr (niB n) F.NI_LATE_CFG_HIST_EN 1).updNi n (fun x => { x with timer := 2 }) else s

/-- The Starter restores what a reset of NI `n` has cleared: the late histogram with its claim, the resequencer buffer, the
lock and the mirrors. -/
def State.restoreNi (s : State) (n : Nat) : State :=
  let b := niB n
  let s := s.histBack n
  let s := if (s.ni n).reseqOwner = 0 then (s.wr b F.NI_RSQ_CTL_REORDER 1).updNi n (fun x => { x with reseqOwner := 1 }) else s
  (s.wr b F.NI_RTAB_CTRL_LOCK 1).mirror n

/-- The NIs of region `g` that recover: all after a reset of the region, else those whose own reset has been released. -/
def State.recovering (s : State) (g : Nat) : List Nat :=
  (nisOf s.rom g).filter (fun n => (s.ni n).recov && !(s.port (.ni 0 n)).dead)

/-- Stations leave isolation from region `g` (R551, R559). -/
def State.unIsolate (s : State) (g : Nat) : State :=
  let s := s.wr glbB F.GLB_RECOV_ISO (s.rd glbB F.GLB_RECOV_ISO &&& (2 ^ 16 - 1 - 2 ^ g))
  let clear (a : State) (p r q : Nat) : State :=
    a.wr (rtrB p r) F.RTR_XING_STAT_ISO (a.rd (rtrB p r) F.RTR_XING_STAT_ISO &&& (2 ^ 12 - 1 - 2 ^ q))
  let s := (allPorts s.rom).foldl (fun a o =>
    match farEnd a.rom o with
    | none => a
    | some f =>
      if hasXing a.rom o && regionOf a.rom f == g then
        let a := a.updPort o (fun y => { y with stIso := false })
        match o, f with
        | .rtr p r q, _ => clear a p r q
        | _, .rtr p r q => clear a p r q
        | _, _ => a
      else a) s
  forAll s.rom.nis.length (fun n a => a.updNi n (fun x => { x with iso := x.iso &&& (2 ^ 16 - 1 - 2 ^ g) })) s

/-- Region `g`'s configuration matches the committed reference, where there is one. [DESIGN CHOICE: log 92] -/
def State.shareOk (s : State) (g : Nat) : Bool :=
  !s.flag evtB F.EVT_STAT_REF_VALID || s.share g == s.rd evtB (F.EVT_SHARE_REF_V.ix g)

/-- A recovering NI comes up where its endpoint is not under reset (R60, R553). -/
def State.niBack (s : State) (n : Nat) : State :=
  s.updNi n (fun x => { x with recov := false, up := ({ x with recov := false } : NiSt).mayRise && !s.replayDue n })

/-- Step 4 of the recovery of region `g`: the Starter rewrites what the reset has cleared at the routers and at the NIs that
recover, and reconciles their stragglers (R386, R553). -/
def State.restoreRegion (s : State) (g : Nat) : State :=
  let s := (rtrsOf s.rom g).foldl (fun a r => (a.restoreRtr 0 r).restoreRtr 1 r) s
  let l := s.recovering g
  let s := l.foldl (fun a n => a.restoreNi n) s
  let first := (s.rg g).wake == 6
  let s := s.updRg g (fun r => { r with wake := 8 })
  if first then l.foldl (fun a n => a.reconStart n) s else s

/-- Step 6: a region that has been restored and whose share matches opens (R219, R553). -/
def State.openRegion (s : State) (g : Nat) : State :=
  if (s.rg g).held || (s.rg g).wake != 8 || !s.shareOk g then s
  else
    let s := ((nisOf s.rom g).filter (fun n => !(s.ni n).up && !(s.port (.ni 0 n)).dead)).foldl (fun a n => a.niBack n) s
    let s := (s.updRg g (fun r => { r with wake := 0 })).rgGo g 0
    let s := s.wr glbB F.GLB_RECOV_RECOV (s.rd glbB F.GLB_RECOV_RECOV &&& (2 ^ 16 - 1 - 2 ^ g))
    let s := (s.unIsolate g).glEvent 8 2
    let s := if g = s.rom.homeRegion then { s with starter := { s.starter with msp := false } } else s
    (((s.updPacer (fun p => { p with faults := p.faults &&& (2 ^ 16 - 1 - 2 ^ g) })).orderSync).refreshTime).pwrCheck

/-- Steps 4 to 6 of the recovery of region `g`: the restored region opens where the first comparison matches, and else at a later
scan (R553, R554). [DESIGN CHOICE: log 92] -/
def State.recover (s : State) (g : Nat) : State :=
  if (s.rg g).held || !((s.rg g).wake == 6 || (s.rg g).wake == 8) then s else (s.restoreRegion g).openRegion g

def execRegionRecovery (g : Nat) (s : State) : Host.Outcome State Fault Refusal := guardUnit s (s.hasRegion g) (s.recover g)

/-- A scan compares the shares of the regions that recover: the late histograms are claimed again where Photo Finish has freed their
timers, and a region whose share matches opens (R553, R554). -/
def State.scanOpen (s : State) : State :=
  forAll s.rom.regions.length (fun g a =>
    if (a.rg g).wake = 8 then ((a.recovering g).foldl (fun b n => b.histBack n) a).openRegion g else a) s

/-- A pass of the configuration CRC scanner ends (R554, R610). -/
def execCrcPassEnd (s : State) : Host.Outcome State Fault Refusal :=
  .next (if s.flag evtB F.EVT_STAT_PASS_BUSY then s.passEnd.scanOpen else s)

/-! ### Fuses (R616, R617) -/

/-- The fuses as step 1 takes them. -/
def State.fuses (s : State) (dis err : Bool) (key : List Byte) : State :=
  if s.pacer.rst = 0 ∧ s.rd glbB F.GLB_START_STAT_STEP = 1 ∧ s.start.fuse = false then
    { (s.wr dbgB F.DBG_STAT_FUSE_DIS (b2n dis)).wr dbgB F.DBG_STAT_FUSE_ERR (b2n err) with
      evKey := (key ++ List.replicate 32 0).take 32, start := { s.start with fuse := true } }
  else s

def execFuseRead (dis : Bool) (key : List Byte) (s : State) : Host.Outcome State Fault Refusal := .next (s.fuses dis false key)

def execFuseTmo (s : State) : Host.Outcome State Fault Refusal := .next (s.fuses true true [])

/-! ### Start-up (R555, R556) -/

/-- POR_N or HRST_N deasserts: the sequence begins, without step 0 after HRST_N. -/
def execPorHrstDeassert (s : State) : Host.Outcome State Fault Refusal :=
  .next
    (if s.pacer.rst = 0 then s
     else
       let first := if s.pacer.rst = 1 then 0 else 1
       let s := (s.updPacer (fun p => { p with rst := 0 })).wr glbB F.GLB_START_STAT_STEP first
       { s with start := { t0 := s.clock }, starter := { s.starter with wdog := s.clock } })

/-- The sequence moves to a step. -/
def State.stepTo (s : State) (k : Nat) : State :=
  { s.wr glbB F.GLB_START_STAT_STEP k with start := { s.start with t0 := s.clock } }

/-- The sequence stops in its step. -/
def State.startFail (s : State) : State := (s.wr glbB F.GLB_START_STAT_FAIL 1).glEvent 8 1

/-- A region comes up in start-up, at the point of its record; what the Pacer still held of it from before an HRST_N is over
(R555). -/
def State.rgUp (s : State) (g : Nat) : State :=
  let r := regionRec s.rom g
  let s := (s.updRg g (fun _ => { held := false })).setOp g r.fcMax r.vNom
  let low := (List.range s.rom.regions.length).any (fun h => match (s.rg h).step with
    | some e => decide (e.mhz < e.oldMhz)
    | none => false)
  let s := s.wr pcrB F.PCR_STAT_LOWER_BUSY (b2n low)
  let s := if g = s.rom.homeRegion then s.updPacer (fun p => { p with inst := none, wakes := 0 }) else s
  s.rgGo g 0

/-- The Starter's work in step 8. -/
def State.startConfig (s : State) : State :=
  let s := forAll s.rom.nis.length (fun n a =>
    let a := (a.wr (niB n) F.NI_RTAB_CTRL_LOCK 1).mirror n
    if (a.ni n).reseqOwner = 0 then (a.wr (niB n) F.NI_RSQ_CTL_REORDER 1).updNi n (fun x => { x with reseqOwner := 1 }) else a) s
  let s := forAll s.rom.spans.length (fun k a => a.wr (spB k) F.SP_RTAB_CTRL_LOCK 1) s
  (s.wr timB F.TIM_CTL_ELOCK 1).crcCommit false

/-- The end of start-up step `k`; step 8 is the Starter core's work, which needs it in RUN (R475); INST.LOCK is set between steps
6 and 7 (R640). [DESIGN CHOICE: log 78, 94] -/
def State.startStep (s : State) (k : Nat) : State :=
  match k with
  | 0 => s.stepTo 1
  | 1 => if s.start.fuse then s.stepTo 2 else s
  | 2 => { (s.rgUp s.rom.homeRegion).stepTo 3 with starter := { s.starter with msp := false } }
  | 3 => if s.rd strB F.STR_BOOT_STATE = 3 then s.stepTo 4 else s
  | 4 =>
    let s := forAll s.rom.regions.length (fun g a => if g = a.rom.homeRegion then a else a.rgUp g) s
    let s := (s.startRuns (List.range s.rom.rtrs.length)).refreshTime
    { s.stepTo 5 with start := { s.start with t0 := s.clock, marks := if s.calBusy then none else some s.time.marks } }
  | 5 => match s.start.marks with
    | some m => if m + 32 ≤ s.time.marks ∧ s.calBusy = false then s.stepTo 6 else s
    | none => s
  | 6 => match topoFault s.rom with
    | some (c, n) => ((s.wr glbB F.GLB_TOPO_ERR_CODE c).wr glbB F.GLB_TOPO_ERR_NODE n).startFail
    | none => (List.range s.rom.spans.length).foldl (fun a i =>
        (List.range (a.nLinks i)).foldl (fun b j => if b.lst i j = 0 then b.trainStart i j 1 else b) a)
        ((s.wr glbB F.GLB_INST_LOCK 1).stepTo 7)
  | 7 =>
    if (List.range s.rom.spans.length).all (fun i => (List.range (s.nLinks i)).all (fun j => s.start.spans.contains (4 * i + j)))
    then s.stepTo 8 else s
  | 8 =>
    if s.rd strB F.STR_BOOT_STATE ≠ 3 then s
    else
      let s := (s.startConfig.stepTo 9).wr glbB F.GLB_START_STAT_READY 1
      (({ s with start := { s.start with done := true } }.glEvent 8 0).orderSync).refreshTime
  | _ => s

def execStartupStepDone (s : State) : Host.Outcome State Fault Refusal :=
  .next
    (if s.pacer.rst ≠ 0 ∨ s.flag glbB F.GLB_START_STAT_FAIL = true ∨ s.ready = true then s
     else s.startStep (s.rd glbB F.GLB_START_STAT_STEP))

end Sys2Proof.Machine
end

