-- ==== Sys2Proof/Machine/Power.lean ====
section
/-! DEFINITION. Power states (R504 to R517, R651 to R654): requests, the open mask, CLOSING with its collect and commit, the
wake sources, WAKING, the IDLE gate, settled supplies and their limit, and the end of calibration runs (R296 to R302). -/

namespace Sys2Proof.Machine

/-! ### What still involves a region (R511) -/

/-- Flits held in a port's input: its wire, its crossing station and its VCs. -/
def PortSt.flits (y : PortSt) : Nat := y.wire.length + y.stq.length + y.vcs.foldl (fun a v => a + v.buf.length) 0

/-- Whether a region is in SLEEP or deeper. -/
def State.rgDown (s : State) (g : Nat) : Bool := [2, 3, 4].contains (s.rgState g)

/-- What an NI of the closing region contributes (R511). -/
def NiSt.work (x : NiSt) : Nat :=
  x.tags.length + x.dlv.length + x.sbSers.length + (x.qs.flatMap (fun e => e.2.pkts)).length + x.sysAll.length
    + x.migHeld.length + x.heldPkts.length

/-- What an NI elsewhere contributes for region `g`: tags and deliveries whose entries cross it. [DESIGN CHOICE: log 71] -/
def State.crossWork (s : State) (n g : Nat) : Nat :=
  let x := s.ni n
  (x.tags.filter (fun e => match e.2 with
    | some t => bitAt t.regmask g
    | none => false)).length
  + (x.dlv.filter (fun e => match e.2 with
    | some d => bitAt (s.entry n ((s.entryFor n d.hdr.src).getD 260)).regmask g
    | none => false)).length

/-- Flits in the buffers of the Span links of port `k`. [DESIGN CHOICE: log 71] -/
def State.linkFlits (s : State) (k : Nat) : Nat :=
  (List.range (s.nLinks k)).foldl (fun a j =>
    let l := s.lk (4 * k + j)
    a + (l.rxv ++ l.xbv).foldl (fun b v => b + v.buf.length) 0) 0

/-- The sum that a collect for region `g` gives. [DESIGN CHOICE: log 71] -/
def State.closingWork (s : State) (g : Nat) : Nat :=
  let mine := (nisOf s.rom g).foldl (fun a n => a + (s.ni n).work) 0
  let others := (List.range s.rom.nis.length).foldl (fun a n =>
    if s.rgDown (niRec s.rom n).region then a else a + s.crossWork n g) 0
  let links := (regionPorts s.rom g).foldl (fun a o =>
    match farEnd s.rom o with
    | none => a + (s.port o).flits
    | some f =>
      let y := s.port f
      let far := regionOf s.rom f
      let missing := if s.rgDown far || y.dead then 0 else y.cred.foldl (fun b c => b + (s.rom.vcDepth - c)) 0
      a + (s.port o).flits + missing + (if far = g then 0 else y.wire.length + y.stq.length)) 0
  mine + others + links
    + (regionPorts s.rom g).foldl (fun a o => a + (s.port o).slots.length) 0
    + (spansOf s.rom g).foldl (fun a k => a + s.linkFlits k) 0

/-! ### Combined hops (R302) -/

/-- The live descendants that hang below region `g`: their hops become combined ones when it passes into pass-through. -/
def State.combNodes (s : State) (g : Nat) : List Nat :=
  (List.range s.rom.rtrs.length).filter (fun r =>
    !isRoot s.rom r && !s.passNode r && (rtrRec s.rom r).region != g && (rtrRec s.rom (s.liveUp 10 r)).region == g)

/-! ### Entry (R506, R509, R510, R514) -/

/-- The home region has slept deeply: the global units lose what R504 lists, and the Starter core verifies its image again (R480,
R516). The fuses' result is what DBG.STAT reads at reset; the Time Unit's source follows its CTL (R305, R306), and an evidence
span still owes its RESET flag (R338). -/
def State.homeDeep (s : State) : State :=
  let lost := s.evd.skip + s.evd.held.length
  let dis := s.rd dbgB F.DBG_STAT_FUSE_DIS
  let err := s.rd dbgB F.DBG_STAT_FUSE_ERR
  let s := s.resetRegs (fun o => decide (o < 0x400000) && notPcr o) kept545
  let s := (s.wr dbgB F.DBG_STAT_FUSE_DIS dis).wr dbgB F.DBG_STAT_FUSE_ERR err
  let s := forAll s.rom.nis.length (fun n a => a.updNi n (fun x => if x.timer = 1 then { x with timer := 0 } else x)) s
  let s : State := { s.wr strB F.STR_BOOT_STATE 2 with
    planeFaults := []
    time := { carrier := s.time.carrier, pinOut := s.time.pinOut, pinEnd := s.time.pinEnd, pinSync := s.time.pinSync, src := s.rd timB F.TIM_CTL_SRC }
    pfs := [], evd := { skip := lost, wake := true, rst := s.evd.rst }, trc := [], trcRun := false
    cmdQ := [], cmds := [], asks := [], leaveQ := [], gives := s.leaves
    heats := [], relay := none, joints := [], clients := [], heatCrc := false, slcs := [], migSync := none
    plst := [], planeHit := 0
    cmx := { next := s.cmx.next, hcLow := s.cmx.hcLow, hcOut := s.cmx.hcOut, dbgOut := s.cmx.dbgOut }
    starter := { s.starter with wdog := s.clock }, scan := {} }
  s.orderSync

/-- Pins are claimed again for the settings that an instance DEEP_SLEEP has kept: time sync, gate markers and the trace trigger.
[DESIGN CHOICE: log 76] -/
def State.reclaimPins (s : State) : State :=
  forAll 4 (fun k a =>
    if a.flag timB (F.TIM_EVT0_SYNC_EN.ix k) then a.setPin k 1 0
    else match (List.range a.rom.nis.length).find? (fun n =>
        a.flag (niB n) F.NI_GATE_CTL_MARK_EN && a.rd (niB n) F.NI_GATE_CTL_MARK_PIN == k) with
      | some n => a.setPin k 3 n
      | none =>
        if a.rd dbgB F.DBG_TRC_CTL_EN = 1 ∧ a.rd dbgB F.DBG_TRC_CTL_PIN = k then a.setPin k 4 0 else a) s

/-- Whether region `g` is held against a state: pins against SLEEP and deeper, and the holds in Run against IDLE as well (R242,
R368). -/
def State.heldFrom (s : State) (g t : Nat) : Bool :=
  (decide (2 ≤ t) && bitAt (s.rd pcrB F.PCR_SC0_PIN_PIN ||| s.heatPins) g)
    || (decide (1 ≤ t) && bitAt (s.rd pcrB F.PCR_SC0_PIN_RUN ||| s.heatRuns) g)

/-- The store buffers of region `g`'s NIs are empty. -/
def State.drained (s : State) (g : Nat) : Bool := (nisOf s.rom g).all (fun n => (s.ni n).sbHeld.isEmpty)

/-- Region `g` has reached IDLE if its store buffers have drained (R202, R506). An entry accepted before the region came to be held
aborts (R242, R368). [DESIGN CHOICE: log 70] -/
def State.idleTry (s : State) (g : Nat) : State :=
  if (s.rg g).goal ≠ some 1 ∨ s.rgState g ≠ 0 then s
  else if s.heldFrom g 1 then s.abortEntry g 0x37
  else if s.drained g then (s.updRg g (fun r => { r with goal := none, gated := false })).rgGo g 1
  else s

/-- Region `g` starts toward IDLE. -/
def State.idleStart (s : State) (g : Nat) : State :=
  (s.updRg g (fun r => { r with goal := some 1, t0 := s.clock })).idleTry g

/-- Region `g` enters CLOSING toward a state (R510). -/
def State.closeStart (s : State) (g t : Nat) : State :=
  let st := s.rgState g
  (s.updRg g (fun r => { r with prev := st, goal := some t, t0 := s.clock, ready := false, comb := false, gated := false, q := none })).rgGo g 5

/-- Region `g` is in a new deep state: its clocks stand, and its monitors hold no reservation (R218, R505, R514, R654). -/
def State.enter (s : State) (g t : Nat) : State :=
  let home := decide (g = s.rom.homeRegion)
  let s := (s.updRg g (fun r => { r with goal := none, ready := false, comb := false })).downNis g
  let s := (nisOf s.rom g).foldl (fun a n => a.updNi n (fun x => { x with rsvs := [] })) s
  let s := if t = 4 ∧ home = false then s.offReset g else s
  let s := if home then s.updPacer (fun p => { p with pps := 0, aon := if t = 4 then false else p.aon }) else s
  (s.rgGo g t).refreshTime

/-- The calibration of the combined hops below region `g` before DEEP_SLEEP or OFF, where it has any (R302).
[DESIGN CHOICE: log 74] -/
def State.combStart (s : State) (g : Nat) : State :=
  let l := s.combNodes g
  if l.isEmpty then s.updRg g (fun r => { r with ready := true })
  else ((s.startRuns l).updRg g (fun r => { r with comb := true })).refreshTime

/-- The combined calibration of region `g` has ended, where it has. [DESIGN CHOICE: log 74] -/
def State.combCal (s : State) (g : Nat) : State :=
  if (s.rg g).comb && (s.combNodes g).all (fun r => !(s.node r).run) then
    s.updRg g (fun r => { r with comb := false, ready := true })
  else s

/-- SLEEP to DEEP_SLEEP or OFF is direct once the combined hops are calibrated (R302, R506). -/
def State.deepen (s : State) (g : Nat) : State :=
  match (s.rg g).goal with
  | some t => if s.rgState g = 2 ∧ (s.rg g).ready = true then (s.updRg g (fun r => { r with q := some s.clock })).enter g t else s
  | none => s

/-- A request for RUN reaches region `g`: an entry in progress aborts, IDLE ends, and a deeper state is left through WAKING (R506,
R515, R517). -/
def State.runStart (s : State) (g : Nat) : State :=
  let s := s.abortEntry g 0x37
  match s.rgState g with
  | 1 => s.rgGo g 0
  | 2 | 3 | 4 => (s.wakeStart g).woken 5
  | 6 => s.woken 5
  | _ => s

/-- Region `g` starts toward the state that a request names (R506). -/
def State.moveStart (s : State) (g t : Nat) : State :=
  if t = 0 then s.runStart g
  else match s.rgState g with
    | 0 => if t = 1 then s.idleStart g else s.closeStart g t
    | 1 => if t = 1 then s else s.closeStart g t
    | 2 => if 3 ≤ t then ((s.updRg g (fun r => { r with goal := some t, t0 := s.clock, ready := false })).combStart g).deepen g else s
    | _ => s

/-- An instance-wide move goes on: the home region follows once every other region has arrived, and the command is answered
before it closes (R30, R530). [DESIGN CHOICE: log 70] -/
def State.instNext (s : State) : State :=
  match s.pacer.inst with
  | none => s
  | some (t, x) =>
    let home := s.rom.homeRegion
    let there (g : Nat) : Bool := decide (t ≤ s.rgState g) && decide (s.rgState g ≤ 4)
    if (List.range s.rom.regions.length).all (fun g => g == home || there g) then
      if there home then (s.updPacer (fun p => { p with inst := none })).replyOpt x 0 (leBytes 2 (s.reached (2 ^ 16 - 1) t))
      else if s.rgState home = 0 ∨ s.rgState home = 1 then
        let s := if 2 ≤ t then
            (s.replyOpt x 0 (leBytes 2 (s.reached (2 ^ 16 - 1) t))).updPacer (fun p => { p with inst := some (t, none) })
          else s
        if (s.rg home).goal.isNone then s.moveStart home t else s
      else s
    else s

/-- What follows an arrival: commands are answered, and an instance-wide move goes on. [DESIGN CHOICE: log 70] -/
def State.arrived (s : State) : State := s.pwrCheck.instNext.instNext

/-! ### Requests (R508, R530) -/

/-- Whether the table of R506 allows a transition; RUN for a CLOSING region aborts its entry. -/
def moveOk (st t : Nat) : Bool :=
  match st with
  | 0 => decide (1 ≤ t)
  | 1 => decide (t ≠ 1)
  | 2 => t == 0 || t == 3 || t == 4
  | 3 | 4 | 5 => t == 0
  | _ => false

/-- How deep a region is or will be once what runs there ends: STEPPING counts as the state it returns to, CLOSING as the state
it enters, WAKING as RUN (R30, R504, R506). -/
def State.depth (s : State) (g : Nat) : Nat := match s.rgState g with
  | 5 => (s.rg g).goal.getD 2
  | 6 => 0
  | 7 => (s.rg g).prev
  | st => st

/-- Whether a region that a request names is in a transition that refuses it (R508). RUN refuses only where no abort is left: in
WAKING, in STEPPING, and past edge Q. [DESIGN CHOICE: log 69] -/
def State.pwrBusy (s : State) (g t : Nat) : Bool :=
  match s.rgState g with
  | 5 => t != 0 || (s.rg g).q.isSome
  | st => decide (6 ≤ st) || (t != 0 && (s.rg g).goal.isSome)

/-- The status that refuses PWR_STATE with its mask of pinned regions, status 0 for none. `l` holds the regions that move.
[DESIGN CHOICE: log 69] -/
def State.pwrRefusal (s : State) (inst : Bool) (mask t : Nat) (l : List Nat) : Nat × Nat :=
  let home := s.rom.homeRegion
  let all := List.range s.rom.regions.length
  let named (g : Nat) : Bool := inst || bitAt mask g
  let after (g : Nat) : Nat := if l.contains g then t else s.depth g
  let aborts := decide (t = 0) && s.pacer.inst.isSome
  let bad := bitsWhere 16 (fun g => l.contains g && s.heldFrom g t)
  if 4 < t ∨ (inst = false ∧ 2 ^ s.rom.regions.length ≤ mask) then (0x03, 0)
  else if s.rd dbgB F.DBG_STAT_TEST = 2 then (0x06, 0)
  else if all.any (fun g => named g && s.pwrBusy g t) = true then (0x06, 0)
  else if l.any (fun g => !moveOk (s.rgState g) t && !(t == 0 && s.entering g)) = true ∨ (inst = true ∧ l.isEmpty = true) then (0x34, 0)
  else if inst = false ∧ aborts = false ∧ ((t ≠ 0 ∧ l.contains home = true) ∨ (l.isEmpty = false ∧ all.any (fun g =>
      decide (after g < after home)) = true)) then (0x35, 0)
  else if bad ≠ 0 then (0x0D, bad)
  else (0, 0)

/-- The regions that a request moves: those it names, or for the instance those not yet there, the home region first on the way to
RUN (R30). -/
def State.pwrMoves (s : State) (inst : Bool) (mask t : Nat) : List Nat :=
  let home := s.rom.homeRegion
  let l := (List.range s.rom.regions.length).filter (fun g =>
    if inst then (if t = 0 then s.rgState g != 0 || s.entering g else decide (s.rgState g < t)) else bitAt mask g)
  if t = 0 then l.filter (fun g => g == home) ++ l.filter (fun g => g != home) else l

/-- PWR_STATE. RUN during an instance-wide entry aborts it (R517). [DESIGN CHOICE: log 69] -/
def State.pwrState (s : State) (x : Nat) (c : Cmd) : State :=
  let mask := c.p 0 16
  let inst := c.p 16 1 == 1
  let t := c.p 17 3
  let home := s.rom.homeRegion
  let l := s.pwrMoves inst mask t
  let (st, pins) := s.pwrRefusal inst mask t l
  if st = 0x0D then s.reply x st (leBytes 2 0 ++ leBytes 2 pins)
  else if st ≠ 0 then s.reply x st (leBytes 2 0)
  else if inst && decide (1 ≤ t) then
    let s := s.updPacer (fun p => { p with
      inst := some (t, some x), moved := bitsWhere 16 (fun g => l.contains g && decide (s.rgState g ≤ 1)) })
    ((l.filter (fun g => g != home)).foldl (fun a g => a.moveStart g t) s).arrived
  else
    let m := bitsWhere 16 (fun g => l.contains g)
    let s := if t = 0 ∧ l.isEmpty = false then s.abortWide 0x37 else s
    let s := s.updPacer (fun p => { p with cmds := p.cmds ++ [(x, m, t)] })
    (l.foldl (fun a g => a.moveStart g t) s).arrived

def execPwrState (x : Nat) (s : State) : Host.Outcome State Fault Refusal :=
  .next (s.runCmd x 0x50 [(0, 16), (16, 1), (17, 3)] (fun c s => s.pwrState x c))

/-- The broadcast of the open mask and the policies reaches NI `n`; the NIs of a closed region drain, flush and clear (R218,
R416, R509, R510). [DESIGN CHOICE: log 69] -/
def State.pwrMask (s : State) (n : Nat) : State :=
  let g := (niRec s.rom n).region
  let b := niB n
  let was := bitAt (s.rd b F.NI_PWR_MASK_OPEN) g
  let pols := (List.range 3).map (fun i => bitsWhere s.rom.regions.length (fun h => bitAt (s.rd pcrB (F.PCR_RG_CFG_POL.ix h)) i))
  let s := (s.wr b F.NI_PWR_MASK_OPEN (bitsWhere s.rom.regions.length (fun h => s.rgOpen h))).updNi n (fun x => { x with pol := pols })
  if was && s.rgState g == 5 then
    let s := (s.ni n).ctxs.foldl (fun a e => a.flushCtx n e.1) s
    s.updNi n (fun x => { x with rsvs := [], ctxs := [] })
  else s

def execPwrMaskReceive (n : Nat) (s : State) : Host.Outcome State Fault Refusal := guardUnit s (s.hears n) (s.pwrMask n)

/-! ### CLOSING (R510, R511, R514, R517) -/

/-- A collect for region `g`. The same event finds out that the store buffers have drained on the way to IDLE. A region that has
come to be held since its entry was accepted aborts it (R242, R368). [DESIGN CHOICE: log 70] -/
def State.collect (s : State) (g : Nat) : State :=
  let r := s.rg g
  if s.rgState g = 5 ∧ r.q.isNone = true ∧ s.heldFrom g (r.goal.getD 2) = true then s.abortEntry g 0x37
  else if s.rgState g = 5 ∧ r.ready = false ∧ r.comb = false then
    if s.closingWork g = 0 then
      (if r.goal = some 2 then s.updRg g (fun r => { r with ready := true }) else s.combStart g)
    else s
  else (s.idleTry g).arrived

def execClosingCollect (g : Nat) (s : State) : Host.Outcome State Fault Refusal := guardUnit s (s.hasRegion g) (s.collect g)

/-- LIM.ENTRY_US passes since an entry was accepted: DRAIN_FAIL. [DESIGN CHOICE: log 4, 70] -/
def State.entryLimit (s : State) (g : Nat) : State :=
  if s.rgState g = 5 ∧ (s.rg g).ready = true then s else s.abortEntry g 0x36

def execEntryLimit (g : Nat) (s : State) : Host.Outcome State Fault Refusal := guardUnit s (s.hasRegion g) (s.entryLimit g)

/-- Edge Q: the wake sources are sampled for the last time, and the entry is committed (R514). The region is in its state from edge
Q + 5. [DESIGN CHOICE: log 72] -/
def State.entryCommit (s : State) (g : Nat) : State :=
  let r := s.rg g
  if s.rgState g ≠ 5 ∨ r.ready = false ∨ r.q.isSome = true then s
  else if s.heldFrom g (r.goal.getD 2) || (s.pacer.inst.isSome && s.starter.msp && s.flag pcrB F.PCR_WAKE_CFG_EN_MSP) then
    s.abortEntry g 0x37
  else s.updRg g (fun r => { r with q := some s.clock })

def execEntryCommit (g : Nat) (s : State) : Host.Outcome State Fault Refusal := guardUnit s (s.hasRegion g) (s.entryCommit g)

/-! ### Wake (R505, R515, R516, R653) -/

/-- A wake from instance OFF: the always-on supply returns with the effects of POR, and start-up runs (R516, R532). -/
def State.powerOn (s : State) (src : Nat) : State :=
  let s := s.por
  (s.updPacer (fun p => { p with rst := 0, aon := true })).woken src

/-- A wake of the instance: every region that the last instance-wide move has moved, the home region first (R30, R515). A wake
during such a move into SLEEP or deeper aborts it, until the home region passes edge Q (R514, R517).
[DESIGN CHOICE: log 76] -/
def State.wakeInst (s : State) (src : Nat) : State :=
  let home := s.rom.homeRegion
  match s.rgState home with
  | 4 => s.powerOn src
  | 2 | 3 =>
    let mask := s.pacer.moved
    ({ (s.wakeStart home).updPacer (fun p => { p with wakes := mask }) with evd := { s.evd with wake := true } }).woken src
  | st =>
    match s.pacer.inst with
    | some (t, _) => if t < 2 ∨ (st = 5 ∧ (s.rg home).q.isSome = true) then s else s.abortWide 0x37
    | none => s

/-- Edge Q + 5: region `g` is in the state that its entry was committed to. A level that a wake source still holds wakes it, and a
region whose instance-wide entry has aborted since comes back (R514, R517). [DESIGN CHOICE: log 72] -/
def State.arrive (s : State) (g : Nat) : State :=
  let home := s.rom.homeRegion
  let s := (s.enter g ((s.rg g).goal.getD 2)).arrived
  if g = home then (if s.starter.msp && s.flag pcrB F.PCR_WAKE_CFG_EN_MSP then s.wakeInst 2 else s)
  else if bitAt s.pacer.wakes g && s.rgState home == 0 then
    (s.updPacer (fun p => { p with wakes := p.wakes - 2 ^ g })).wakeStart g
  else s

/-- Entries that passed edge Q `n` carrier cycles ago or earlier have arrived: 250 cycles are the 5 ac to edge Q + 5.
[DESIGN CHOICE: log 72] -/
def State.land (s : State) (n : Nat) : State :=
  forAll s.rom.regions.length (fun g a => match (a.rg g).q with
    | some q => if a.rgState g = 5 ∧ q + n ≤ a.clock then a.arrive g else a
    | none => a) s

/-- What an edge is sampled against: one that comes after edge Q + 4 finds the region in its new state (R514).
[DESIGN CHOICE: log 72] -/
def State.sampled (s : State) : State := s.land 201

/-- Whether an edge at region `g` falls into its entry window (R514). -/
def State.inWindow (s : State) (g : Nat) : Bool := match (s.rg g).q with
  | some q => decide (s.clock ≤ q + 200)
  | none => false

/-- WAKE_N is sampled low. [DESIGN CHOICE: log 73] -/
def execWakeNLow (s : State) : Host.Outcome State Fault Refusal :=
  .next (if s.flag pcrB F.PCR_WAKE_CFG_EN_WAKEN then s.sampled.wakeInst 1 else s)

/-- The regions that NI `n` asks to wake: those closed at its mirror that its held packets name (R512, R513). -/
def State.wakeAsks (s : State) (n : Nat) : Nat :=
  (s.ni n).qs.foldl (fun a e => match e.2.pkts with
    | p :: _ => if p.hold.isSome ∧ p.sc ≠ 0 then a ||| s.closedIn n (s.entry n ((s.expand n p).headD p).e).regmask else a
    | [] => a) 0

/-- A wake request for region `g`: an entry in progress aborts, the whole of it where it is the instance's, and a region that sleeps
wakes once the home region is in RUN (R30, R515, R517). An edge in the region's entry window is lost (R514).
[DESIGN CHOICE: log 70] -/
def State.relayOne (s : State) (g : Nat) : State :=
  if s.inWindow g || s.inWindow s.rom.homeRegion then s
  else if s.rgState g = 5 then s.abortEntry g 0x37
  else if s.rgDown g then
    let s := (if s.pacer.inst.isSome then s.abortWide 0x37 else s.abortEntry g 0x37).homeUp
    if s.rgDown g then (s.wakeStart g).woken 3 else s.woken 3
  else s

/-- NI `n`'s wake request reaches the Pacer. -/
def State.relayWake (s : State) (n : Nat) : State :=
  let mask := s.wakeAsks n
  if s.flag pcrB F.PCR_WAKE_CFG_EN_RELAY = false then s
  else (List.range s.rom.regions.length).foldl (fun a g => if bitAt mask g then a.relayOne g else a) s.sampled

def execRelayWakeRequest (n : Nat) (s : State) : Host.Outcome State Fault Refusal := guardUnit s (s.hasNi n) (s.relayWake n)

/-- The count of PPS_IN edges since entry reaches PPS_COUNT. [DESIGN CHOICE: log 73] -/
def execPpsWakeCount (s : State) : Host.Outcome State Fault Refusal :=
  .next
    (let st := s.rgState s.rom.homeRegion
     if s.flag pcrB F.PCR_WAKE_CFG_EN_PPS && (st == 2 || st == 3)
        && decide (atLeast1 (s.rd pcrB F.PCR_WAKE_CFG_PPS_COUNT) ≤ s.pacer.pps) then s.wakeInst 4 else s)

/-- HOLD_US passes over the held head of queue `q` of NI `n`: it is answered or dropped as for REFUSE (R513).
[DESIGN CHOICE: log 4] -/
def State.holdTmo (s : State) (n q : Nat) : State :=
  match ((s.ni n).q q).pkts with
  | p :: _ => if p.hold.isSome then s.depart n q 0 false (.refuse 0x07) else s
  | [] => s

def execPwrHoldTmo (n q : Nat) (s : State) : Host.Outcome State Fault Refusal := guardUnit s (s.hasNi n) (s.holdTmo n q)

/-- WAKING ends for region `g`: RUN, and NI_UP where the endpoint allows it (R60, R516). After an instance wake the other
regions follow the home region; after DEEP_SLEEP the Starter core must have verified its image. A region with an NI that was reset
while it slept recovers it first (R553). [DESIGN CHOICE: log 78, 92] -/
def State.wakeDone (s : State) (g : Nat) : State :=
  let home := s.rom.homeRegion
  let boot := s.rd strB F.STR_BOOT_STATE
  if s.rgState g ≠ 6 ∨ (s.rg g).wake ≠ 3 ∨ (g = home ∧ boot ≠ 3 ∧ boot ≠ 4) then s
  else if (nisOf s.rom g).any (fun n => (s.ni n).recov) then
    (nisOf s.rom g).foldl (fun a n => a.catchUp n) ((s.updRg g (fun r => { r with wake := 6, q := none })).setBit glbB F.GLB_RECOV_RECOV g)
  else
    let s := if g = home ∧ (s.rg g).prev = 3 then s.reclaimPins else s
    let s := ((s.updRg g (fun r => { r with wake := 0, q := none })).rgGo g 0)
    let s := (nisOf s.rom g).foldl (fun a n => (a.catchUp n).updNi n (fun x => { x with up := x.mayRise && !a.replayDue n })) s
    let s := if g = home then
        let m := s.pacer.wakes
        (List.range s.rom.regions.length).foldl (fun a h => if bitAt m h && h != home then a.wakeStart h else a)
          { s.updPacer (fun p => { p with wakes := 0 }) with starter := { s.starter with msp := false } }
      else s
    s.refreshTime.arrived

def execWakeDone (g : Nat) (s : State) : Host.Outcome State Fault Refusal := guardUnit s (s.hasRegion g) (s.wakeDone g)

/-! ### The IDLE gate (R507) -/

/-- Whether region `g` is quiet: no flit held, nothing to release or deliver, no access in progress. -/
def State.quiet (s : State) (g : Nat) : Bool :=
  (regionPorts s.rom g).all (fun o => (s.port o).flits == 0 && (s.port o).slots.isEmpty)
    && (nisOf s.rom g).all (fun n => let x := s.ni n
        x.waiting.isEmpty && x.pks.isEmpty && x.rpq.isEmpty && x.aqq.isEmpty && x.stq.isEmpty && x.evq.isEmpty)
    && (spansOf s.rom g).all (fun k => s.linkFlits k == 0)
    && s.cmx.acs.all (fun a => tgtRegion s.rom a.tgt != some g)

/-- Whether something opens the gate of region `g`: a flit, a credit vector, an ingress beat or a CMX access (R507). -/
def State.gateOpens (s : State) (g : Nat) : Bool :=
  !s.quiet g || (regionPorts s.rom g).any (fun o => !(s.port o).cwire.isEmpty || !(s.port o).swire.isEmpty)

/-- The units of region `g` run again: outputs send what their owners wait for. -/
def State.ungate (s : State) (g : Nat) : State :=
  let s := s.updRg g (fun r => { r with gated := false })
  (regionPorts s.rom g).foldl (fun a o => a.pump o) s

def execIdleGate (g : Nat) (s : State) : Host.Outcome State Fault Refusal :=
  guardUnit s (s.hasRegion g) (if s.rgState g = 1 ∧ s.quiet g = true then s.updRg g (fun r => { r with gated := true }) else s)

def execIdleUngate (g : Nat) (s : State) : Host.Outcome State Fault Refusal :=
  guardUnit s (s.hasRegion g) (if s.gateOpens g then s.ungate g else s)

/-! ### Supplies (R516, R519, R520, R649) -/

/-- The regulator of region `g` signals a settled supply; outside a handshake it is ignored (R650). -/
def State.vrOk (s : State) (g : Nat) : State :=
  let r := s.rg g
  if s.rgState g = 6 ∧ r.wake = 1 then
    let s := if r.prev = 3 then
        (let s := if g = s.rom.homeRegion then s.homeDeep else s
         s.deepReset g) else s
    (((s.updRg g (fun r => { r with wake := 2, gated := false })).startRuns (s.calNodes g)).refreshTime).wakeCal g
  else if s.rgState g = 6 ∧ r.wake = 7 then
    ((s.hopSet g).foldl (fun a n => a.setNode n { a.node n with cal := false }) s).rgReset g 3
  else s.stepVr g

def execVrOk (g : Nat) (s : State) : Host.Outcome State Fault Refusal := guardUnit s (s.hasRegion g) (s.vrOk g)

/-- LIM.SUPPLY_US passes without an acknowledgement: a step is undone, a wake's command is answered, and start-up stops
(R520, R530, R556). [DESIGN CHOICE: log 4] -/
def State.supplyTmo (s : State) (g : Nat) : State :=
  let r := s.rg g
  let step := s.rd glbB F.GLB_START_STAT_STEP
  if s.rgState g = 6 ∧ (r.wake = 1 ∨ r.wake = 7) then
    let s := s.wr pcrB F.PCR_STAT_SUPPLY_FAIL 1
    s.pacer.cmds.foldl (fun a e => if bitAt e.2.1 g ∧ e.2.2 = 0 then a.pwrAnswer e.1 0x38 else a) s
  else if s.pacer.rst = 0 ∧ s.ready = false ∧ s.flag glbB F.GLB_START_STAT_FAIL = false
      ∧ ((g = s.rom.homeRegion ∧ step = 2) ∨ (g ≠ s.rom.homeRegion ∧ step = 4)) then
    (s.wr pcrB F.PCR_STAT_SUPPLY_FAIL 1).startFail
  else s.stepUndo g

def execSupplyTmo (g : Nat) (s : State) : Host.Outcome State Fault Refusal := guardUnit s (s.hasRegion g) (s.supplyTmo g)

/-! ### Calibration runs end (R296 to R302) -/

/-- The droop warnings whose clearing has had their hop sets calibrated lift their freezes (R301). -/
def State.droopCal (s : State) (g : Nat) : State :=
  if s.time.freezes.any (fun f => f.g == g && f.why == 1) && s.rd pcrB (F.PCR_RG_STAT_DWARN_NOW.ix g) == 0 && !s.calRuns g then
    s.thaw g 1
  else s

/-- What waits for the runs of region `g` goes on. -/
def State.calWaits (s : State) (g : Nat) : State := ((((s.stepCal g).droopCal g).combCal g).deepen g).wakeCal g

/-- A run of node `r` ends, or is repeated. -/
def State.calRun (s : State) (r : Nat) (rtt : List (Option Nat)) : State :=
  if (s.node r).run = false then s
  else
    let (s, over') := s.runEnd r rtt
    if over' = false then s
    else
      let s := s.refreshTime.calReply
      let s := (forAll s.rom.regions.length (fun g a => a.calWaits g) s).arrived
      if s.rd glbB F.GLB_START_STAT_STEP = 5 ∧ s.start.marks.isNone = true ∧ s.calBusy = false then
        { s with start := { s.start with marks := some s.time.marks } }
      else s

def execCalRunDone (r : Nat) (rtt : List (Option Nat)) (s : State) : Host.Outcome State Fault Refusal :=
  guardUnit s (s.hasRtr 0 r) (s.calRun r rtt)

end Sys2Proof.Machine
end

