-- ==== Sys2Proof/Machine/Govern.lean ====
section
/-! DEFINITION. The governor (R521 to R526): the energy bucket, temperatures, allowances and leave; droop and clock faults
(R527 to R529, R537). -/

namespace Sys2Proof.Machine

/-! ### The window (R521 to R524) -/

/-- The energy of the window before, in 1/65,536 stone (R522). -/
def State.windowUse (s : State) : Nat :=
  let fixed := (List.range s.rom.regions.length).foldl (fun a g =>
    if s.rgDown g then a else a + s.rd pcrB (F.PCR_EN_STATIC_STONES.ix g)) 0
  let flits := s.pacer.flits.foldl (fun a e => a + e.2) 0
  let lanes := (List.range s.rom.spans.length).foldl (fun a k =>
    (List.range (s.nLinks k)).foldl (fun b j => if s.lst k j = 5 then b + (s.lk (4 * k + j)).lanes else b) a) 0
  65536 * (fixed + s.rd pcrB F.PCR_EN_SPAN_STONES * lanes) + flits * s.rd pcrB F.PCR_EN_FLIT_UNITS

/-- The bucket in 1/65,536 stone; GOV_LEVEL shows whole stones. [DEDUCED: log 66] -/
def State.setLevel (s : State) (b : Int) : State :=
  (s.updPacer (fun p => { p with level := b })).wr pcrB F.PCR_GOV_LEVEL_STONES (BitVec.ofInt 32 (b / 65536)).toNat

/-- TEMP of region `g`. [DESIGN CHOICE: log 67] -/
def State.temp (s : State) (g : Nat) : Int := (BitVec.ofNat 8 (s.rd pcrB (F.PCR_RG_STAT_TEMP.ix g))).toInt

/-- A temperature of region `g` is sampled; each crossing upward of a threshold is reported (R524).
[DESIGN CHOICE: log 67] -/
def State.tempIn (s : State) (g : Nat) (t : Int) : State :=
  let old := s.temp g
  let s := s.wr pcrB (F.PCR_RG_STAT_TEMP.ix g) (BitVec.ofInt 8 t).toNat
  let new := s.temp g
  [s.rd pcrB F.PCR_THERM_CFG_WARN, s.rd pcrB F.PCR_THERM_CFG_CRIT].foldl (fun a th =>
    if old < (th : Int) ∧ (th : Int) ≤ new then (a.wr pcrB (F.PCR_RG_STAT_THERM.ix g) 1).rgEvent g 2 else a) s

/-- The energy rule on the internal allowances (R523). -/
def State.govern (s : State) : Nat × Nat :=
  let full := s.rd pcrB F.PCR_GOV_STEP_FULL
  let step := atLeast1 (s.rd pcrB F.PCR_GOV_STEP_STEP)
  let lim (x : Nat) : Nat := if x = 0xFFFF then full else x
  let up (x : Nat) : Nat := if full ≤ x then 0xFFFF else x
  let a2 := s.pacer.a2
  let a3 := s.pacer.a3
  if s.pacer.level < 65536 * (s.rd pcrB F.PCR_GOV_THR_LOW : Nat) then
    (if a3 ≠ 0 then (a2, lim a3 - step) else (max (lim a2 - step) (s.rd pcrB F.PCR_GOV_MIN_A2_MIN), a3))
  else if 65536 * ((s.rd pcrB F.PCR_GOV_THR_HIGH : Nat) : Int) < s.pacer.level then
    (if a2 ≠ 0xFFFF then (up (a2 + step), a3) else (a2, up (a3 + step)))
  else (a2, a3)

/-- The allowances of region `g` (R523). -/
def State.allow (s : State) (g : Nat) : Nat × Nat :=
  let full := s.rd pcrB F.PCR_GOV_STEP_FULL
  let a2 := s.pacer.a2
  let lim := if a2 = 0xFFFF then full else a2
  if s.flag pcrB F.PCR_CTL_GOV_EN = false then (0xFFFF, 0xFFFF)
  else if ((s.rd pcrB F.PCR_THERM_CFG_CRIT : Nat) : Int) ≤ s.temp g then (0, 0)
  else if ((s.rd pcrB F.PCR_THERM_CFG_WARN : Nat) : Int) ≤ s.temp g then (min lim (s.rd pcrB F.PCR_GOV_MIN_A2_MIN), 0)
  else (a2, s.pacer.a3)

/-- A window boundary: `temps` holds each region's temperature where its input is valid (R658). [DEDUCED: log 66] -/
def State.window (s : State) (temps : List (Option Int)) : State :=
  let s := forAll s.rom.regions.length (fun g a => match temps.getD g none with
    | some t => a.tempIn g t
    | none => a) s
  let b := s.pacer.level + 65536 * (s.rd pcrB F.PCR_GOV_REFILL_STONES : Nat) - (s.windowUse : Nat)
  let s := (s.setLevel (min b (65536 * (s.rd pcrB F.PCR_GOV_CAP_STONES : Nat)))).updPacer (fun p => { p with flits := [] })
  let (a2, a3) := if s.flag pcrB F.PCR_CTL_GOV_EN then s.govern else (0xFFFF, 0xFFFF)
  let s := s.updPacer (fun p => { p with a2 := a2, a3 := a3 })
  forAll s.rom.regions.length (fun g a =>
    let (x, y) := a.allow g
    (a.wr pcrB (F.PCR_ALLOW_A2.ix g) x).wr pcrB (F.PCR_ALLOW_A3.ix g) y) s

def execGovernorWindow (temps : List (Option Int)) (s : State) : Host.Outcome State Fault Refusal := .next (s.window temps)

/-! ### Leave (R525, R526) -/

/-- Whether the request of a kind may be granted now. -/
def State.leaveOk (s : State) (kind : Nat) : Bool :=
  let all := List.range s.rom.regions.length
  decide (s.leaves.length < atLeast1 (s.rd pcrB F.PCR_LEAVE_CFG_MAX))
    && all.all (fun g => s.rd pcrB (F.PCR_RG_STAT_DWARN_NOW.ix g) == 0
        && decide (s.temp g < (s.rd pcrB F.PCR_THERM_CFG_CRIT : Nat)))
    && (!s.flag pcrB F.PCR_CTL_GOV_EN
        || decide (65536 * ((s.rd pcrB (F.PCR_LEAVE_COST0_STONES.ix kind) + s.rd pcrB F.PCR_GOV_MIN_RESERVE : Nat) : Int) ≤ s.pacer.level))

/-- What a requester does with its leave. A heat sends its COMMIT by HEAT_COMMIT_SEND. [DESIGN CHOICE: log 83] -/
def State.leaveGo (s : State) (l : Leave) : State :=
  match l.kind with
  | 1 => s.pfGranted l.who
  | 2 => s.testGranted l.who
  | 3 => s.spanGranted l.who
  | 4 => s.crcGranted l.who
  | _ => s

/-- The governor grants the request at the head of its queue. -/
def State.leaveGrant (s : State) : State :=
  match s.leaveQ with
  | [] => s
  | l :: r =>
    if s.leaveOk l.kind = false then s
    else
      let s := s.setLevel (s.pacer.level - 65536 * (s.rd pcrB (F.PCR_LEAVE_COST0_STONES.ix l.kind) : Nat))
      let s : State := { s with leaveQ := r, leaves := s.leaves ++ [l] }
      (s.count pcrB F.PCR_LEAVE_CNT_COUNT 1).leaveGo l

def execLeaveGrant (s : State) : Host.Outcome State Fault Refusal := .next s.leaveGrant

/-! ### Droop (R526 to R529) -/

/-- Whether the detector of region `g` acts (R527). -/
def State.watched (s : State) (g : Nat) : Bool :=
  let r := s.rg g
  !s.rgDown g && !(s.rgState g == 6 && (r.wake == 1 || r.wake == 7)) && !(r.held && r.wake == 0)

/-- The programmed voltage, mV: the lower one during a step (R527). -/
def State.droopMv (s : State) (g : Nat) : Nat := match (s.rg g).step with
  | some d => min d.oldMv d.mv
  | none => s.mv g

/-- The warning and reset codes in force in region `g` (R527). -/
def State.droopCodes (s : State) (g : Nat) : Int × Int :=
  let dr : Int := (min 20 (s.rd pcrB (F.PCR_RG_CFG_DRST.ix g)) : Nat)
  let dw : Int := (min 20 (s.rd pcrB (F.PCR_RG_CFG_DWARN.ix g)) : Nat)
  (if dr ≤ dw then dr - 1 else dw, dr)

/-- Whether a supply of `uv` microvolts lies below the threshold of a code (R527). -/
def State.under (s : State) (g uv : Nat) (code : Int) : Bool :=
  decide ((uv : Int) < (s.droopMv g : Int) * (1000 - (20 + 5 * code)))

/-- LEAVE_WD follows the warnings (R526). -/
def State.leaveWd (s : State) : State :=
  s.wr pcrB F.PCR_STAT_LEAVE_WD (b2n ((List.range s.rom.regions.length).any (fun g =>
    s.rd pcrB (F.PCR_RG_STAT_DWARN_NOW.ix g) == 1)))

/-- The supply of region `g` falls to `uv` below its warning threshold (R528). -/
def State.droopWarn (s : State) (g uv : Nat) : State :=
  if s.watched g = false ∨ s.under g uv (s.droopCodes g).1 = false ∨ s.rd pcrB (F.PCR_RG_STAT_DWARN_NOW.ix g) = 1 then s
  else
    let s := (s.wr pcrB (F.PCR_RG_STAT_DWARN_NOW.ix g) 1).wr pcrB (F.PCR_RG_STAT_DWARN.ix g) 1
    let s := (s.rgEvent g 0).count pcrB (F.PCR_DROOP_CNT_WARN.ix g) 1
    s.freezeNext.leaveWd.heatDroop

def execDroopWarn (g uv : Nat) (s : State) : Host.Outcome State Fault Refusal := guardUnit s (s.hasRegion g) (s.droopWarn g uv)

/-- The warning of region `g` clears: its hop set is calibrated again (R301, R528). -/
def State.droopClear (s : State) (g : Nat) : State :=
  if s.rd pcrB (F.PCR_RG_STAT_DWARN_NOW.ix g) = 0 then s
  else
    let s := (s.wr pcrB (F.PCR_RG_STAT_DWARN_NOW.ix g) 0).leaveWd
    ((s.startRuns (s.calNodes g)).refreshTime).calWaits g

def execDroopWarnClear (g : Nat) (s : State) : Host.Outcome State Fault Refusal := guardUnit s (s.hasRegion g) (s.droopClear g)

/-- The supply of region `g` falls to `uv` below its reset threshold: a region fault (R529). -/
def State.droopReset (s : State) (g uv : Nat) : State :=
  if s.watched g = false ∨ s.under g uv (s.droopCodes g).2 = false then s
  else
    let s := (s.wr pcrB (F.PCR_RG_STAT_DRST.ix g) 1).rgEvent g 1
    (s.count pcrB (F.PCR_DROOP_CNT_RST.ix g) 1).rgFault g 1

def execDroopReset (g uv : Nat) (s : State) : Host.Outcome State Fault Refusal := guardUnit s (s.hasRegion g) (s.droopReset g uv)

/-- The Pacer counts `edges` fabric clock edges of region `g` in an ac, outside a clock switch that it has requested (R537,
R650). -/
def State.clockFault (s : State) (g edges : Nat) : State :=
  let switching := match (s.rg g).step with
    | some d => d.ph == 2 && d.todo.head? == some true
    | none => false
  if edges < 4 ∧ [0, 1, 7].contains (s.rgState g) = true ∧ (s.rg g).held = false ∧ switching = false then s.rgFault g 2 else s

def execClockFault (g edges : Nat) (s : State) : Host.Outcome State Fault Refusal :=
  guardUnit s (s.hasRegion g) (s.clockFault g edges)

end Sys2Proof.Machine
end

