-- ==== Sys2Proof/Machine/Starter.lean ====
section
/-! DEFINITION. The Starter core: boot, image load and verification (R475 to R480), its reset (R494), the MSP (R485), and the
bound floors (R238, R240, R242). -/

namespace Sys2Proof.Machine

/-! ### Boot (R475 to R480) -/

/-- Bytes of Starter SRAM. -/
def State.sramBytes (s : State) (off k : Nat) : List Byte :=
  (List.range k).map (fun i => mget (fun _ => (0 : Byte)) s.starter.sram (off + i))
/-- A little-endian number in Starter SRAM. -/
def State.sramNat (s : State) (off k : Nat) : Nat := leNat (s.sramBytes off k)
/-- An octet string of Starter SRAM as a number, most significant byte first. -/
def State.sramBig (s : State) (off k : Nat) : Nat := (s.sramBytes off k).foldl (fun a b => 256 * a + b.toNat) 0

/-- The core enters a boot state. -/
def State.bootGo (s : State) (st : Nat) : State := s.wr strB F.STR_BOOT_STATE st

/-- The core enters FAILED with its cause; in step 3 start-up stops (R478, R556). -/
def State.bootFail (s : State) (err : Nat) : State :=
  let s := ((s.bootGo 4).wr strB F.STR_BOOT_ERR err).glEvent 6 2
  if s.rd glbB F.GLB_START_STAT_STEP = 3 then s.startFail else s

/-- Whether the boot ROM's SHA-256 is the digest that stands at its end (R478). -/
def bootRomOk : Bool :=
  sha256 ((List.range 0xFFE0).map Config.bootRom) == (List.range 32).map (fun i => Config.bootRom (0xFFE0 + i))

/-- The boot ROM's self-check ends; `ok` says that the ROM has been read without an error. The fuse read must be over (R475,
R478). -/
def State.selfcheck (s : State) (ok : Bool) : State :=
  if s.pacer.rst ≠ 0 ∨ s.rd strB F.STR_BOOT_STATE ≠ 0 ∨ (s.ready = false ∧ s.rd glbB F.GLB_START_STAT_STEP < 3) then s
  else if (ok && bootRomOk) = false then s.bootFail 6
  else if s.flag strB F.STR_BOOT_FW_OK then s.bootGo 2
  else s.bootGo 1

def execBootSelfcheck (ok : Bool) (s : State) : Host.Outcome State Fault Refusal := .next (s.selfcheck ok)

/-- The failure of the image that Starter SRAM holds, 0 for none (R477, R478). -/
def State.imageErr (s : State) : Nat :=
  let len := s.sramNat 8 4
  let key := s.sramBytes 0x20 64
  if s.sramNat 0 4 ≠ 0x57465343 ∨ s.sramNat 4 2 ≠ 1 ∨ s.sramNat 6 2 ≠ 0x100 then 1
  else if len = 0 ∨ len % 4 ≠ 0 ∨ 0x30000 < 256 + len ∨ s.starter.len < 256 + len ∨ len ≤ s.sramNat 12 4 then 2
  else if (s.sramBytes 0x14 12 ++ s.sramBytes 0xA0 96).any (fun b => b != 0) then 3
  else if sha256 key ≠ Config.vendorDigest then 4
  else
    let e := (sha256 (s.sramBytes 0 0x60 ++ s.sramBytes 0x100 len)).foldl (fun a b => 256 * a + b.toNat) 0
    if ecdsaOk (s.sramBig 0x20 32, s.sramBig 0x40 32) (s.sramBig 0x60 32) (s.sramBig 0x80 32) e then 0 else 5

/-- Verification ends: the core enters RUN, sets REMAP and owes the floors, or it enters FAILED and holds no verified image
(R240, R472, R475, R478). [DEDUCED: log 108] -/
def State.verify (s : State) : State :=
  if s.rd strB F.STR_BOOT_STATE ≠ 2 then s
  else
    let err := s.imageErr
    if err ≠ 0 then (s.wr strB F.STR_BOOT_FW_OK 0).bootFail err
    else
      let s := (((s.bootGo 3).wr strB F.STR_BOOT_ERR 0).wr strB F.STR_BOOT_FW_OK 1).wr strB F.STR_FW_VER_VER (s.sramNat 16 4)
      { (s.wr cmxB F.CMX_CTL_REMAP 1).floorsDue with floorRun := true }

def execBootVerifyDone (s : State) : Host.Outcome State Fault Refusal := .next s.verify

/-- The Starter core alone is reset: every executing command is answered STARTER_RESET, locks of master 1 break, REMAP clears,
and the boot ROM starts again (R467, R472, R480, R494). -/
def State.coreReset (s : State) : State :=
  let s := s.cmds.foldl (fun a c => a.reply c.id 8 []) s
  let s := ((s.bootGo 0).wr cmxB F.CMX_CTL_REMAP 0).ownerReset 1
  { s with floorRun := false, starter := { s.starter with wdog := s.clock } }

def execStarterCoreReset (s : State) : Host.Outcome State Fault Refusal := .next s.coreReset

/-- The watchdog expires (R502). -/
def execWdogExpire (s : State) : Host.Outcome State Fault Refusal :=
  .next (if s.rd strB F.STR_WDOG_LIMIT = 0 then s else (s.glEvent 6 2).coreReset)

/-! ### The MSP (R485) -/

/-- What the MSP answers on its bus: a NACK, or an acknowledged transfer with its data. [DESIGN CHOICE: log 82] -/
def State.mspOut (s : State) (v : Option (List Byte)) : State := { s with starter := { s.starter with out := s.starter.out ++ [v] } }

/-- Whether the block behind the MSP is awake. [DESIGN CHOICE: log 73] -/
def State.mspReady (s : State) : Bool := s.rgOpen s.rom.homeRegion

/-- One step of SMBus's CRC-8, of polynomial x^8 + x^2 + x + 1. -/
def crc8Bit (c : Nat) : Nat := if 128 ≤ c then (2 * c) % 256 ^^^ 7 else 2 * c
/-- The SMBus packet error code of a transfer's bytes, address bytes included (R7, R485). [PRESUMED: log 142] -/
def smbusPec (l : List Byte) : Byte :=
  BitVec.ofNat 8 (l.foldl (fun c b => (List.range 8).foldl (fun d _ => crc8Bit d) (c ^^^ b.toNat)) 0)

/-- The MSP's address byte, with the direction bit of a read or a write. -/
def State.mspAddr (s : State) (read : Bool) : Byte := BitVec.ofNat 8 (2 * (0x60 + s.straps.mspAsel) + b2n read)

/-- Whether a write's PEC is acceptable: with PEC_REQ = 1 the write must carry the right one (R485). `pec` is the one that it
carries and `l` the bytes of the transfer after the address. -/
def State.pecOk (s : State) (l : List Byte) (pec : Option Byte) : Bool :=
  !s.flag strB F.STR_MSP_CFG_PEC_REQ || pec == some (smbusPec (s.mspAddr false :: l))

/-- What a read with command code `code` gives on the bus: its bytes and their PEC, for a controller that clocks one (R485). -/
def State.mspData (s : State) (code : Byte) (l : List Byte) : State :=
  s.mspOut (some (l ++ [smbusPec ([s.mspAddr false, code, s.mspAddr true] ++ l)]))

/-- Put bytes into register words from byte `off` of a buffer on. -/
def State.pokeBytes (s : State) (base off : Nat) (l : List Byte) : State :=
  l.zipIdx.foldl (fun a e =>
    let i := off + e.2
    let o := base + 4 * (i / 4)
    a.setWord o (BitVec.ofNat 32 (bitsPut (a.word o).toNat (8 * (i % 4)) 8 e.1.toNat))) s

/-- A block write into MBX3's command buffer. [DESIGN CHOICE: log 81] -/
def State.mspWrite (s : State) (code : Byte) (off : Nat) (l : List Byte) (pec : Option Byte) : State :=
  if s.mspReady = false ∨ s.rd strB (F.STR_MBX_BUSY.ix 3) = 1 ∨ l.length = 0 ∨ 128 < l.length
      ∨ s.pecOk ([code, BitVec.ofNat 8 l.length] ++ l) pec = false then s.mspOut none
  else (s.pokeBytes (strB + 0x2600) off l).mspOut (some [])

def execMspBlockWriteLow (l : List Byte) (pec : Option Byte) (s : State) : Host.Outcome State Fault Refusal := .next (s.mspWrite 0x10 0 l pec)
def execMspBlockWriteHigh (l : List Byte) (pec : Option Byte) (s : State) : Host.Outcome State Fault Refusal := .next (s.mspWrite 0x11 128 l pec)

/-- The doorbell of MBX3. -/
def execMspDoorbell (d : Byte) (pec : Option Byte) (s : State) : Host.Outcome State Fault Refusal :=
  .next (if s.mspReady = false ∨ d ≠ 1 ∨ s.pecOk [0x12, d] pec = false then s.mspOut none else (s.doorbell 3).mspOut (some []))

/-- The status of MBX3; the read clears DONE. -/
def execMspStatusRead (s : State) : Host.Outcome State Fault Refusal :=
  .next
    (if s.mspReady = false then s.mspOut none
     else
       let v := s.rd strB (F.STR_MBX_BUSY.ix 3) + 2 * s.rd strB (F.STR_MBX_DONE.ix 3) + 4 * s.rd strB (F.STR_MBX_OVERRUN.ix 3)
       (s.wr strB (F.STR_MBX_DONE.ix 3) 0).mspData 0x13 (leBytes 1 v))

/-- A block read of 128 bytes of MBX3's reply buffer, its count first. [DESIGN CHOICE: log 81] -/
def State.mspRead (s : State) (code : Byte) (off : Nat) : State :=
  if s.mspReady = false then s.mspOut none else s.mspData code (128 :: s.getBytes (strB + 0x2700 + off) 32)

def execMspReplyReadLow (s : State) : Host.Outcome State Fault Refusal := .next (s.mspRead 0x14 0)
def execMspReplyReadHigh (s : State) : Host.Outcome State Fault Refusal := .next (s.mspRead 0x15 128)

/-- The matcher recognises its address: while the block sleeps it stretches SCL, and that level is a wake source (R485, R515).
[DESIGN CHOICE: log 73] -/
def execMspAddressMatch (s : State) : Host.Outcome State Fault Refusal :=
  .next
    (if s.mspReady then s
     else
       let s := if s.flag pcrB F.PCR_WAKE_CFG_EN_MSP && s.rgDown s.rom.homeRegion then s.wakeInst 2 else s
       { s with starter := { s.starter with msp := true } })

/-- 24 ms of stretching pass: SCL is released and the first data byte is NACKed. -/
def execMspStretchLimit (s : State) : Host.Outcome State Fault Refusal :=
  .next (if s.starter.msp then ({ s with starter := { s.starter with msp := false } }).mspOut none else s)

/-! ### Floors (R238, R240, R242) -/

/-- The SC0-fit entries of every NI with those that open heats have staged, each as NI, entry number and entry. -/
def State.fitEntries (s : State) : List (Nat × Nat × Entry) :=
  let own := (List.range s.rom.nis.length).flatMap (fun n => (List.range 260).map (fun e => (n, e, s.entry n e)))
  let staged := (s.slotsIn [1, 2, 3, 4, 5, 6, 7, 9]).flatMap (fun k =>
    let h := s.heat k
    h.acts.filterMap (fun a =>
      let node := h.tgts.getD a.tnum 0
      if a.kind = 0 ∧ node / 256 = s.instNum then some (node % 256, a.index, actEntry a.data) else none))
  let far := (List.range s.rom.nis.length).flatMap (fun n => (s.ni n).targets.flatMap (fun e =>
    if e.1 / 64 = s.instNum then []
    else (e.2.items.filter (fun i => i.kind == 0)).map (fun i => (n, i.index, actEntry i.data))))
  (own ++ staged ++ far).filter (fun x => x.2.2.sc0Fit)

/-- Whether an entry still keeps its BOUND with region `g` at `f` MHz. -/
def State.keepsBound (s : State) (g f : Nat) (x : Nat × Nat × Entry) : Bool :=
  let e := x.2.2
  match routeWalk s.rom x.1 x.2.1 e.path e.nhops with
  | .ok w => decide (routeBound s.rom (fun h => if h = g then f else s.mhz h) x.1 w s.sc0Q (s.tabMaxSeg x.1) ≤ e.bound)
  | .error _ => true

/-- The bound-floor frequency of region `g`. [DESIGN CHOICE: log 77] -/
def State.floorOf (s : State) (g : Nat) (es : List (Nat × Nat × Entry)) : Nat :=
  let r := regionRec s.rom g
  let mine := es.filter (fun x => bitAt x.2.2.regmask g)
  ((List.range (r.fcMax + 1 - r.fcMin)).find? (fun i => mine.all (s.keepsBound g (r.fcMin + i)))).elim r.fcMax (fun i => r.fcMin + i)

/-- The Starter has recomputed every floor and pin. -/
def State.floors (s : State) : State :=
  if s.flag glbB F.GLB_SC0_STAT_FLOOR_BUSY = false then s
  else
    let es := s.fitEntries
    let s1 := forAll s.rom.regions.length (fun g a => a.wr pcrB (F.PCR_SC0_FLOOR_FLOOR_MHZ.ix g) (s.floorOf g es)) s
    let s1 := (s1.wr pcrB F.PCR_SC0_PIN_PIN (es.foldl (fun a x => a ||| x.2.2.regmask) 0)).holdRuns
    { s1.wr glbB F.GLB_SC0_STAT_FLOOR_BUSY 0 with floorStep := 0, floorRun := false }

def execFloorRecompute (s : State) : Host.Outcome State Fault Refusal := .next s.floors

/-! ### Command limits (R492) -/

/-- The request for leave that a command's operation still waits with: a CFG_RECOMPUTE, a PLANE_TEST or a SPAN_TRAIN. -/
def State.leaveOf (s : State) (c : Cmd) : Option Leave :=
  let l : Option Leave := match c.op with
    | 0x04 => some { kind := 4, who := c.id }
    | 0x61 => some { kind := 2, who := c.p 0 1 }
    | 0x70 => some { kind := 3, who := 4 * c.p 0 2 + c.p 2 2 }
    | _ => none
  l.bind (fun l => if c.begun && (s.asks.contains l || s.leaveQ.contains l) then some l else none)

/-- A command's limit passes before its reply. One that still waits for leave withdraws its request and is answered NO_LEAVE;
another is answered TIMEOUT, and its operation goes on, one that has still to take effect among them (R483, R492, R525).
[DESIGN CHOICE: log 4, 53] -/
def State.cmdTimeout (s : State) (x : Nat) : State :=
  match s.cmd x with
  | none => s
  | some c =>
    match s.leaveOf c with
    | some l =>
      let s := s.give l.kind l.who
      let s := match l.kind with
        | 2 => s.updPln l.who (fun v => { v with test := none })
        | 3 => s.updLk l.who (fun k => { k with want := 0, cmd := none })
        | _ => s
      s.reply x 0x0007 []
    | none =>
      if c.begun || c.late then s.reply x 0x000C []
      else
        let s : State := { s with cmds := s.cmds.map (fun d => if d.id = x then { d with late := true } else d) }
        s.sendReply c 0x000C []

def execCmdTimeout (x : Nat) (s : State) : Host.Outcome State Fault Refusal := .next (s.cmdTimeout x)

/-! ### Causes set at units (R410, R593, R595) -/

/-- The HCU journal shows an uncorrectable error: the replays in progress fail, and their targets stay stragglers (R593). -/
def State.journalBad (s : State) : State :=
  if s.heats.any (fun e => e.2.recon.any (fun r => r.2.1 == 3)) then
    let s1 : State := { s with heats := s.heats.map (fun e => (e.1, { e.2 with recon := e.2.recon.filter (fun r => r.2.1 != 3) })) }
    s1.glEvent 1 1
  else s

/-- What an occurrence of cause `i` of source `k` brings besides its event: a correction is counted (R593), a plane fault of a
router or of the planes that NI.PLN_ERR names begins (R410), an error of the HCU journal fails the replays in progress, and one of
Starter SRAM resets the core (R593). [DESIGN CHOICE: log 110] -/
def State.causeMore (s : State) (k j i : Nat) : State :=
  let pln (p : Nat) (always : Bool) (a : State) : State :=
    if always then a.planeFault p 2 else if a.flag strB F.STR_PLN_CFG_OVR_FAULT then a.planeFault p 3 else a
  if k < 512 then
    let n := k / 2
    if k % 2 = 1 then
      (if i = 5 then (s.count evtB F.EVT_CORR_CNT_COUNT 1).count (niB n) F.NI_ECC_CNT_CORR 1 else s)
    else if i = 14 ∨ i = 15 then s.count (niB n) F.NI_ECC_CNT_UNCORR 1
    else if i = 16 then
      forAll 2 (fun p a =>
        let e := a.rd (niB n) (if p = 0 then F.NI_PLN_ERR_ERR_A else F.NI_PLN_ERR_ERR_B)
        if e = 0 then a else pln p (e != 1) a) s
    else s
  else if k < 576 then
    let p := (k - 512) / 32
    let r := 5 * ((k - 512) % 32) + j
    match i with
    | 1 => pln p true s
    | 2 => pln p false s
    | 4 => (s.count evtB F.EVT_CORR_CNT_COUNT 1).count (rtrB p r) F.RTR_ECC_CNT_CORR 1
    | _ => s
  else if k = 638 ∧ i = 0 then s.journalBad
  else if k = 638 ∧ i = 1 then (s.glEvent 6 2).coreReset
  else s

/-- A unit sets cause `i` of source `k`: an occurrence that no other command brings, such as a memory error (R593).
[DESIGN CHOICE: log 85, 110] -/
def execCauseSet (k j i : Nat) (s : State) : Host.Outcome State Fault Refusal :=
  .next (match s.srcOf k j with
    | some x => if causeOf k i then (s.raise x i).causeMore k j i else s
    | none => s)

end Sys2Proof.Machine
end

