-- ==== Sys2Proof/Machine/Debug.lean ====
section
/-! DEFINITION. Debug (R616 to R629): the trace's arming and start, test modes, the debug commands and the test access port. -/

namespace Sys2Proof.Machine

/-! ### Trace (R624, R625) -/

/-- Recording begins. -/
def State.trcBegin (s : State) : State := { s with trcRun := true }.glEvent 12 2

/-- EN is written 1 in a trace that is not armed: START 2 claims its pin, and START 0 begins at once.
[DESIGN CHOICE: log 80] -/
def State.trcArm (s : State) : State :=
  let k := s.rd dbgB F.DBG_TRC_CTL_PIN
  match s.rd dbgB F.DBG_TRC_CTL_START with
  | 1 => s.wr dbgB F.DBG_TRC_CTL_EN 1
  | 2 => if s.pinFree k 4 0 then (s.claimPin k 4 0).wr dbgB F.DBG_TRC_CTL_EN 1 else s.wr dbgB F.DBG_TRC_CTL_EN 0
  | _ => (s.wr dbgB F.DBG_TRC_CTL_EN 1).trcBegin

/-- EN is written 0: recording stops and the pin is free. -/
def State.trcStop (s : State) : State :=
  let s := { s.wr dbgB F.DBG_TRC_CTL_EN 0 with trcRun := false }
  (List.range 4).foldl (fun a k => a.freePin k 4) s

/-- Fabric Time at the tap is `t`, or an edge arrives on the trigger pin: a trace that waits for it begins. -/
def State.trcEvent (s : State) (t : Stamp) (rise : Bool) : State :=
  let full := s.flag dbgB F.DBG_TRC_PTR_FULL && !s.flag dbgB F.DBG_TRC_CTL_WRAP
  if s.flag dbgB F.DBG_TRC_CTL_EN = false ∨ s.trcRun = true ∨ full = true then s
  else match s.rd dbgB F.DBG_TRC_CTL_START with
    | 1 => if 0 ≤ stampDiff t (BitVec.ofNat 64 (s.rd64 dbgB F.DBG_TRC_T_LO_T F.DBG_TRC_T_HI_T)) then s.trcBegin else s
    | 2 => if s.pinOwner (s.rd dbgB F.DBG_TRC_CTL_PIN) = 4 ∧ rise = !s.flag dbgB F.DBG_TRC_CTL_EDGE then s.trcBegin else s
    | _ => s

def execTrcStartEvent (t : Stamp) (rise : Bool) (s : State) : Host.Outcome State Fault Refusal := .next (s.trcEvent t rise)

/-- Time sync takes the trigger pin: a trace that has not started is lost (R625). -/
def State.trcPinLost (s : State) : State := if s.trcRun then s else (s.wr dbgB F.DBG_TRC_CTL_EN 0).glEvent 12 4

/-! ### Test modes (R626, R627) -/

/-- The bits of the fields of the register at CSR offset `o`; `ro` takes in its read-only fields. -/
def fieldBits (rom : Rom) (ro : Bool) (o : Nat) : Nat :=
  match unitOf rom o with
  | none => 0
  | some u => match specAt (o - u.base) (regsOf u.kind) with
    | none => 0
    | some x => x.fields.foldl (fun b f => if ro || f.acc != .ro then b ||| (2 ^ f.w - 1) * 2 ^ f.lo else b) 0

/-- Words `off` to `off + 4 (k - 1)` hold free values in the bits of `mask`: their contents are destroyed. -/
def State.destroy (s : State) (off k : Nat) (mask : Nat → Nat) : State :=
  forAll k (fun i a =>
    let o := off + 4 * i
    let m := mask o
    let (v, a) := a.takeFree
    a.setWord o (BitVec.ofNat 32 ((a.word o).toNat &&& (2 ^ 32 - 1 - m) ||| v.toNat &&& m))) s

/-- BIST destroys what it tests: route tables, maps, descriptors, gate banks, shadow stores, VC and resequencer buffers and the
heat journal. [DESIGN CHOICE: log 75] -/
def State.bistWipe (s : State) : State :=
  let s := forAll s.rom.nis.length (fun n a =>
    let b := niB n
    let a := (a.destroy (b + 0x1000) 1040 (fieldBits a.rom true)).destroy (b + 0x800) 256 (fieldBits a.rom false)
    let a := a.destroy (b + 0x3000) 1024 (fun o => if o % 8 = 0 then 0x10E else 0x3FFFFFFF)
    let maps (m : Map Nat) (k w : Nat) (a : State) : State × Map Nat := (List.range k).foldl (fun (p : State × Map Nat) i =>
      let (v, q) := p.1.takeFree
      (q, mset (fun _ => 0) p.2 i (v.toNat % 2 ^ w))) (a, m)
    let (a, mcg) := maps (a.ni n).mcg 512 32 a
    let (a, pid) := maps (a.ni n).pid (niRec a.rom n).pidMap 32 a
    a.updNi n (fun x => { x with
      mcg := mcg, pid := pid
      ctxs := x.ctxs.filterMap (fun e => let v : Ctx := { e.2 with held := [], gap := none }
                                         if v = {} then none else some (e.1, v))
      tgts := x.tgts.map (fun e => (e.1, e.2.map (fun (g : Target) => { g with items := [] })) ) })) s
  let s := forAll s.rom.spans.length (fun k a => a.destroy (spB k + 0x4000) 1040 (fieldBits a.rom true)) s
  let s := (allPorts s.rom).foldl (fun a o => a.updPort o (fun y => { y with vcs := y.vcs.map (fun (v : VcSt) => { v with buf := [] }) })) s
  { s with heats := s.heats.map (fun e => (e.1, ({ e.2 with acts := [] } : Heat))) }

/-- A test mode is entered. -/
def State.testEnter (s : State) (mode : Nat) : State :=
  let s := (s.wr dbgB F.DBG_STAT_TEST mode).wr dbgB F.DBG_TEST_CTL_MODE mode
  let s := if mode = 2 then s.bistWipe else s
  (s.glEvent 12 3).orderSync.refreshTime

/-- FREEZE is left. -/
def State.testLeave (s : State) : State :=
  ((s.wr dbgB F.DBG_STAT_TEST 0).wr dbgB F.DBG_TEST_CTL_MODE 0).orderSync

/-- MODE is written: 3 is ignored, and BIST is left by HRST_N only. [DESIGN CHOICE: log 75] -/
def State.testMode (s : State) (v : Nat) : State :=
  let cur := s.rd dbgB F.DBG_STAT_TEST
  if cur = 2 ∨ v = 3 ∨ v = cur then s else if v = 0 then s.testLeave else s.testEnter v

/-- BIST finishes, with the target number of the first failing unit where it has found a fault. -/
def execBistDone (fail : Option Nat) (s : State) : Host.Outcome State Fault Refusal :=
  .next
    (if s.rd dbgB F.DBG_STAT_TEST ≠ 2 ∨ s.flag dbgB F.DBG_STAT_BIST_DONE = true then s
     else ((s.wr dbgB F.DBG_STAT_BIST_DONE 1).wr dbgB F.DBG_STAT_BIST_FAIL (b2n fail.isSome)).wr dbgB F.DBG_STAT_BIST_UNIT
       (fail.getD 0))

/-! ### Commands (R628) -/

/-- A debug command, answered DEBUG_LOCKED while DBG_DIS is in force. -/
def State.dbgCmd (s : State) (x op : Nat) (fs : List (Nat × Nat)) (f : Cmd → State → State) : State :=
  s.runCmd x op fs (fun c s => if s.dbgDis then s.reply x 0x0050 [] else f c s)

def execDbgStatus (x : Nat) (s : State) : Host.Outcome State Fault Refusal :=
  .next (s.dbgCmd x 0xF0 [] (fun _ s => s.reply x 0 (s.getBytes dbgB 1 ++ s.getBytes (dbgB + 0x38) 1)))

def execTrcStart (x : Nat) (s : State) : Host.Outcome State Fault Refusal :=
  .next (s.dbgCmd x 0xF1 [] (fun _ s =>
    if s.flag dbgB F.DBG_TRC_CTL_EN then s.reply x 0x0052 []
    else
      let s := s.trcArm
      s.reply x (if s.flag dbgB F.DBG_TRC_CTL_EN then 0 else 0x0009) []))

def execTrcStop (x : Nat) (s : State) : Host.Outcome State Fault Refusal :=
  .next (s.dbgCmd x 0xF2 [] (fun _ s => s.trcStop.reply x 0 []))

def execTestEnter (x : Nat) (s : State) : Host.Outcome State Fault Refusal :=
  .next (s.dbgCmd x 0xF3 [(0, 2)] (fun c s =>
    let m := c.p 0 2
    if m = 0 ∨ m = 3 then s.reply x 0x0003 []
    else if s.rd dbgB F.DBG_STAT_TEST ≠ 0 then s.reply x 0x0051 []
    else (s.testEnter m).reply x 0 []))

def execTestExit (x : Nat) (s : State) : Host.Outcome State Fault Refusal :=
  .next (s.dbgCmd x 0xF4 [] (fun _ s =>
    if s.rd dbgB F.DBG_STAT_TEST = 2 then s.reply x 0x0051 [] else (s.testMode 0).reply x 0 []))

/-! ### The test access port (R618, R619, R621) -/

/-- The port's data, with `v` shifted out under instruction `ir`. [DESIGN CHOICE: log 82] -/
def State.tapOut (s : State) (ir v : Nat) : State := { s with tap := { s.tap with ir := ir, out := s.tap.out ++ [v] } }

/-- IDCODE. -/
def execTapIdcode (s : State) : Host.Outcome State Fault Refusal :=
  .next (s.tapOut 2 (s.rd glbB F.GLB_ID_VER * 2 ^ 28 + 0x0C53 * 2 ^ 12 + s.rd glbB F.GLB_ID_MFR * 2 + 1))

/-- BYPASS: the 1-bit register, which holds 0 when it is captured. [PRESUMED: log 79] -/
def execTapBypass (s : State) : Host.Outcome State Fault Refusal := .next (s.tapOut 0xFF 0)

/-- Test-Logic-Reset or TRST_N: IDCODE is selected, and master 2's owner reset sideband asserts. [PRESUMED: log 79] -/
def execTapReset (s : State) : Host.Outcome State Fault Refusal :=
  .next ({ s with tap := { s.tap with ir := 2, rp := 0 } }.ownerReset 2)

/-- TRACE_RD: the entry at the read pointer; with DBG_DIS it acts as BYPASS. [DESIGN CHOICE: log 80] -/
def execTraceRd (s : State) : Host.Outcome State Fault Refusal :=
  .next
    (if s.dbgDis then s.tapOut 4 0
     else
       let v := mget (fun _ => 0) s.trc s.tap.rp
       let s := s.tapOut 4 v
       { s with tap := { s.tap with rp := (s.tap.rp + 1) % 4096 } })

end Sys2Proof.Machine
end

