-- ==== Sys2Proof/Machine/Regs.lean ====
section
/-! DEFINITION. Registers as masters see them: what a read shows, which fields are protected against a write (R464, R667),
and what a write does beside storing its value. -/

namespace Sys2Proof.Machine

/-! ### Reads -/

/-- Granted SC0 reservations of NI `n` (R248). -/
def State.grantedAt (s : State) (n : Nat) : Nat :=
  ((List.range 16).filter (fun k => s.flag (niB n) (F.NI_SC0_RSV0_GRANTED.ix k))).length

/-- Granted SC0 reservations of the instance. -/
def State.granted (s : State) : Nat := (List.range s.rom.nis.length).foldl (fun a n => a + s.grantedAt n) 0

/-- NI.HEAT_STAT (R392). -/
def State.heatStat (s : State) (n : Nat) (w : Word) : Word :=
  let x := s.ni n
  put F.NI_HEAT_STAT_SHADOW_USED x.shadowUsed (put F.NI_HEAT_STAT_STRAGGLER (b2n x.straggles) (put F.NI_HEAT_STAT_GLOCK (b2n x.glock)
    (put F.NI_HEAT_STAT_FENCED (b2n (s.flag hcuB F.HCU_CTL_FENCE && x.straggles)) (put F.NI_HEAT_STAT_EP_HELD (b2n x.epHeld) w))))

/-- The CMX's status words (R473). -/
def State.viewCmx (s : State) (rel : Nat) (w : Word) : Word :=
  let t := s.rd cmxB F.CMX_TGT_IDX_TARGET
  let c := s.cmx
  if rel = 0x44 then
    put F.CMX_TGT_STAT_LOCKED (b2n (s.lockOf t).isSome) (put F.CMX_TGT_STAT_OWNER (((s.lockOf t).map (fun o => o.1)).getD 0)
      (put F.CMX_TGT_STAT_LOCKBRK (b2n (c.brk.contains t)) w))
  else if rel = 0x48 then put F.CMX_STAT_LOCKBRK_ANY (b2n (!c.brk.isEmpty)) w
  else if 0x80 ≤ rel ∧ rel < 0x98 then
    let m := (rel - 0x80) / 4
    put F.CMX_MST_STAT_OUTST (c.acs.filter (fun a => a.m == m && !a.late && !a.atNi)).length
      (put F.CMX_MST_STAT_LOCKS (b2n (c.locks.any (fun e => match e.2 with
        | some (o, _) => o == m
        | none => false))) w)
  else w

/-- The Starter's status words (R502). -/
def State.viewStr (s : State) (rel : Nat) (w : Word) : Word :=
  let n := s.rd strB F.STR_CLAIM_IDX_NI
  if rel = 0x20 then BitVec.ofNat 32 s.cmdStat
  else if rel = 0x314 then
    (if s.hasNi n then put F.STR_CLAIM_NI_TIMER (s.ni n).timer (put F.STR_CLAIM_NI_RESEQ (s.ni n).reseqOwner w) else 0)
  else w

/-- The word of a register of unit `u` at offset `rel` of its window as a read sees it. [DESIGN CHOICE: log 10] -/
def State.view (s : State) (u : Un) (rel : Nat) : Word :=
  let w := s.word (u.base + rel)
  if s.absent u rel then 0
  else
    let v := match u.kind with
      | .ni => if rel = 0x740 then s.heatStat u.i w else s.viewNi u.i rel w
      | .rtr => s.viewRtr u.p u.i rel w
      | .tim => s.viewTime rel w
      | .hcu => s.viewHcu rel w
      | .slc => if rel = 8 then s.slcStat w else w
      | .pcr => s.viewPcr rel w
      | .evt => s.viewEvt rel w
      | .cmx => s.viewCmx rel w
      | .str => s.viewStr rel w
      | .pf => if rel = 0x11C then put F.PF_EVD_STAT_KEY_BLANK (b2n (s.start.fuse && s.evKey.all (fun b => b == 0))) w else w
      | .glb => if rel = 0x84 then put F.GLB_SC0_STAT_GRANTED s.granted w else w
      | .sp => if rel = 0x200 then put F.SP_RTAB_CTRL_UNCHK_CNT (s.unchkCnt (256 + u.i)) w else w
      | _ => w
    v &&& BitVec.ofNat 32 (s.presentBits u rel)

/-! ### Protection (R21, R464, R502, R667) -/

/-- Whether the lock of a field protects it against master `m`. [DEDUCED: log 48] -/
def State.locked (s : State) (m : Nat) (u : Un) (rel : Nat) : Lock → Bool
  | .free => false
  | .setOnly => false
  | .rtab => m != 1 && s.flag u.base F.NI_RTAB_CTRL_LOCK
  | .spRtab => m != 1 && s.flag u.base F.SP_RTAB_CTRL_LOCK
  | .m12 => m != 1 && m != 2
  | .set12 => m != 1 && m != 2
  | .dbg12 => m != 1 && m != 2
  | .m1 => m != 1
  | .m2 => m != 2
  | .m012 => decide (2 < m)
  | .m02 => m != 0 && m != 2
  | .inst => s.flag glbB F.GLB_INST_LOCK
  | .glbGrant => decide (0 < s.granted)
  | .niGrant => decide (0 < s.grantedAt u.i)
  | .pend => s.flag u.base F.NI_GATE_STAT_PENDING || (s.ni u.i).glock
  | .backlog => match s.qSel u.i with
    | some q => !((s.ni u.i).q q).pkts.isEmpty
    | none => false
  | .elock => s.flag timB F.TIM_CTL_ELOCK
  | .trcEn => s.flag dbgB F.DBG_TRC_CTL_EN
  | .dbgDis => s.dbgDis
  | .cmdBusy =>
    let k := (rel - 0x2000) / 0x200
    (if k = 3 then m != 3 else decide (2 < m)) || s.flag strB (F.STR_MBX_BUSY.ix k)
  | .nego =>
    let up (j : Nat) : Bool := !([0, 7].contains (s.lst u.i j))
    if rel < 0x1000 then (List.range (s.nLinks u.i)).any up else up ((rel - 0x1000) / 0x100)
  | .evEn => s.flag pfB F.PF_EVD_CTL_EN
  | .epHeld => (s.ni u.i).epHeld

/-- Whether a field is protected. The load port's GO and data also need the state LOAD (R476), a doorbell its own masters
(R484), and GATE_CTL.SWAP that no heat holds GLOCK (R367). -/
def State.guarded (s : State) (m : Nat) (u : Un) (rel : Nat) (f : FSpec) : Bool :=
  s.locked m u rel f.lock || (u.kind == .ni && rel == 0x700 && f.lo == 0 && (s.ni u.i).glock) || (u.kind == .str &&
    (((rel == 0xC && f.lo == 1 || rel == 0x10) && s.rd strB F.STR_BOOT_STATE != 1)
      || (decide (0x200 ≤ rel) && decide (rel < 0x240) && f.lo == 0 && (if rel = 0x230 then m != 3 else decide (2 < m)))))

/-- Whether a write can change a field or act on it. -/
def FSpec.writable (f : FSpec) : Bool := f.acc != .ro && f.acc != .ros

/-- What a write of `v` makes of a field that holds `old` (R19). -/
def FSpec.written (f : FSpec) (old v : Nat) : Nat :=
  match f.acc with
  | .ro => old
  | .ros => old
  | .w1c => old - (old &&& v)
  | _ => if f.lock = .setOnly ∨ f.lock = .set12 then old ||| v else v

/-- Whether a write of words at offsets of one unit, one register or one pair, is refused as a whole (R667). -/
def State.refuses (s : State) (m : Nat) (u : Un) (l : List (Nat × Nat)) : Bool :=
  let fs := l.flatMap (fun e => match specAt e.1 (regsOf u.kind) with
    | none => []
    | some x => (x.fields.filter FSpec.writable).map (fun f =>
        let old := bitsAt (s.view u e.1).toNat f.lo f.w
        (s.guarded m u e.1 f, f.written old (bitsAt e.2 f.lo f.w) != old)))
  fs.any (fun p => p.1) && (fs.any (fun p => p.1 && p.2) || fs.all (fun p => p.1))

/-! ### Claims by register writes (R498 to R501) -/

/-- HIST_EN of NI `n` (R246). -/
def State.histEn (s : State) (n : Nat) (v : Bool) : State :=
  let b := niB n
  if v then
    if (s.ni n).timer = 1 then s.wr b F.NI_LATE_CFG_HIST_EN 0
    else
      let s := if (s.ni n).timer = 2 then s else s.noteClaim (timerRes n)
      (s.wr b F.NI_LATE_CFG_HIST_EN 1).updNi n (fun x => { x with timer := 2, histRel := false })
  else (s.wr b F.NI_LATE_CFG_HIST_EN 0).updNi n (fun x => { x with histRel := x.timer == 2 })

/-- MARK_EN of NI `n`, which claims the pin of MARK_PIN (R282). [DESIGN CHOICE: log 99] -/
def State.markEn (s : State) (n : Nat) (v : Bool) : State :=
  let b := niB n
  let k := s.rd b F.NI_GATE_CTL_MARK_PIN
  if v then
    if s.flag b F.NI_GATE_CTL_MARK_EN then s
    else if s.pinFree k 3 n then (s.claimPin k 3 n).wr b F.NI_GATE_CTL_MARK_EN 1 else s
  else
    (forAll 4 (fun k a => if a.pinNi k = n then a.freePin k 3 else a) s).wr b F.NI_GATE_CTL_MARK_EN 0

/-- REORDER of NI `n` (R407); it has precedence over a staging claimed in the same cycle (R498, R499).
[DESIGN CHOICE: log 99] -/
def State.reorder (s : State) (n : Nat) (v : Bool) : State :=
  let b := niB n
  match (s.ni n).reseqOwner with
  | 2 =>
    if v && s.claimedNow (reseqRes n) then
      ((s.updNi n (fun x => { x with reseqOwner := 1 })).wr b F.NI_RSQ_CTL_REORDER 1).wr b F.NI_MIG_CTL_STAGE 0
    else s.wr b F.NI_RSQ_CTL_REORDER 0
  | _ => (s.updNi n (fun x => { x with reseqOwner := b2n v })).wr b F.NI_RSQ_CTL_REORDER (b2n v)

/-- SYNC_EN of pin `k`: time sync takes the pin from any owner, which is notified (R317, R500), or releases it.
[DESIGN CHOICE: log 127] -/
def State.syncEn (s : State) (k : Nat) (v : Bool) : State :=
  if v then
    let o := s.pinOwner k
    let n := s.pinNi k
    let s := (s.setPin k 1 0).wr timB (F.TIM_EVT0_SYNC_EN.ix k) 1
    if o = 0 ∨ o = 1 then s
    else
      let s := (s.wr strB (F.STR_CLAIM_PIN_PREEMPT.ix k) 1).glEvent 6 1
      match o with
      | 2 => s.pfPinLost k
      | 3 => ((s.wr (niB n) F.NI_GATE_CTL_MARK_EN 0).wr (niB n) F.NI_GATE_STAT_MARK_LOST 1).notice n 3
      | _ => s.trcPinLost
  else (s.freePin k 1).wr timB (F.TIM_EVT0_SYNC_EN.ix k) 0

/-! ### What a write does (R19, R463) -/

/-- The bits of a register that its action sets, or that are held elsewhere. -/
def actBits (k : UK) (rel : Nat) : Nat :=
  match k, rel with
  | .ni, 0x214 => 2 ^ 32 - 1
  | .ni, 0x404 => 1
  | .ni, 0x508 => 2 ^ 32 - 1
  | .ni, 0x50C => 2 ^ 32 - 1
  | .ni, 0x700 => 0x100
  | .ni, 0xD04 => 1
  | .ni, 0xE04 => 2 ^ 32 - 1
  | .ni, 0xE40 => 12
  | .dbg, 4 => 3
  | .dbg, 0x10 => 1
  | .tim, r => if 0x80 ≤ r ∧ r < 0xA0 ∧ r % 8 = 0 then 1 else 0
  | _, _ => 0

/-- The word stored by a write of `v` to the register of `u` at `rel`: protected and action fields keep their bits. -/
def State.putReg (s : State) (m : Nat) (u : Un) (rel v : Nat) : State :=
  match specAt rel (regsOf u.kind) with
  | none => s
  | some x =>
    let w := (s.word (u.base + rel)).toNat
    let hold := actBits u.kind rel
    s.setWord (u.base + rel) (BitVec.ofNat 32 (x.fields.foldl (fun a f =>
      if f.writable = false ∨ f.acc = .wo ∨ s.guarded m u rel f = true ∨ bitAt hold f.lo = true then a
      else bitsPut a f.lo f.w (f.written (bitsAt w f.lo f.w) (bitsAt v f.lo f.w))) w))

/-- Load port writes (R476): START, data and GO. [DEDUCED: log 108] -/
def State.loadStart (s : State) : State :=
  let st := s.rd strB F.STR_BOOT_STATE
  if st = 1 ∨ st = 4 then
    ({ s with starter := { s.starter with len := 0 } }.wr strB F.STR_LOAD_CTL_PTR 0).wr strB F.STR_BOOT_FW_OK 0 |>.bootGo 1
  else s

def State.loadData (s : State) (v : Nat) : State :=
  let p := s.rd strB F.STR_LOAD_CTL_PTR
  let sram := (leBytes 4 v).zipIdx.foldl (fun (m : Map Byte) e => mset (fun _ => 0) m ((p + e.2) % 0x40000) e.1) s.starter.sram
  { s with starter := { s.starter with sram := sram, len := p + 4 } }.wr strB F.STR_LOAD_CTL_PTR (p + 4)

def State.loadGo (s : State) : State := if s.rd strB F.STR_BOOT_STATE = 1 then s.bootGo 2 else s

/-- A capture of the root's Fabric Time and stamp (R322). -/
def State.nowCap (s : State) : State :=
  let ft := s.time.ft
  let sec := ftNs ft / 1000000000
  let s := s.wr timB F.TIM_NOW_SEC_LO_SEC sec
  let s := s.wr timB F.TIM_NOW_SEC_HI_SEC (sec / 2 ^ 32)
  let s := s.wr timB F.TIM_NOW_NS_NS (ftNs ft % 1000000000)
  let s := s.wr timB F.TIM_NOW_FRAC_FRAC (ft % 2 ^ 32 / 2 ^ 16)
  let st := s.rootStamp.toNat
  (s.wr timB F.TIM_NOW_STAMP_LO_STAMP st).wr timB F.TIM_NOW_STAMP_HI_STAMP (st / 2 ^ 32)

/-- A write reaches words that act on the queue that NI.Q_IDX selects (R264, R284, R285). -/
def State.actQueue (s : State) (n rel v : Nat) : State :=
  match s.qSel n with
  | none => s
  | some q =>
    match rel with
    | 0x504 => if bitAt v 31 then s.updNi n (fun x => x.setQ q { x.q q with sdMax := 0, dlMax := 0 }) else s
    | 0x508 => s.updNi n (fun x => x.setQ q { x.q q with cls := bitsAt v 0 2, en := bitAt v 2, shaper := bitsAt v 4 4 })
    | _ => s.qShare n q (bitsAt v 0 12) (bitsAt v 16 12)

/-- What a write of `v` over `old` to the register at `rel` does at NI `n`. [DESIGN CHOICE: log 97] -/
def State.actNi (s : State) (m n rel v old : Nat) : State :=
  let b := niB n
  if 0x1000 ≤ rel ∧ rel < 0x2040 then
    (if m = 1 then s else s.wr b (F.NI_RTAB_CTRLW_UNCHK.ix ((rel - 0x1000) / 16)) 1)
  else if 0x450 ≤ rel ∧ rel < 0x4D0 then
    (let f := F.NI_SC0_RSV0_GRANTED.ix ((rel - 0x450) / 8)
     if m = 1 ∨ s.flag b f = false then s else (s.wr b f 0).holdRuns)
  else if 0x580 ≤ rel ∧ rel < 0x680 ∧ rel % 16 < 8 ∧ rel ≠ 0x600 then
    (if m = 1 then s else s.wr b (shpGranted ((rel - 0x580) / 16)) 0)
  else match rel with
    | 0x214 =>
      let k := 8 * s.rd b F.NI_MCG_IDX_GROUP + s.rd b F.NI_MCG_IDX_WORD
      s.updNi n (fun x => { x with mcg := mset (fun _ => 0) x.mcg k v })
    | 0x318 => if bitAt v 30 then s.wr b F.NI_SB_LOG_INFO_VALID 0 else s
    | 0x320 => s.updNi n (fun x => { x with rsvs := [] })
    | 0x400 => if bitsAt v 0 5 = bitsAt old 0 5 then s else s.floorsDue
    | 0x404 => (if bitAt v 8 then s.wr b F.NI_LAT_MAX_VALUE 0 else s).histEn n (bitAt v 0)
    | 0x504 => s.actQueue n rel v
    | 0x508 => s.actQueue n rel v
    | 0x50C => s.actQueue n rel v
    | 0x700 =>
      let s := if bitAt v 0 then s.gateSwap n (s.wholeNs s.rootStamp) else s
      let s := if bitAt v 1 then s.gateCancel n else s
      s.markEn n (bitAt v 8)
    | 0xD04 => s.reorder n (bitAt v 0)
    | 0xE04 =>
      let k := s.rd b F.NI_PID_IDX_ENTRY
      if k < (niRec s.rom n).pidMap then s.updNi n (fun x => { x with pid := mset (fun _ => 0) x.pid k (v &&& 0x83FFFFFF) }) else s
    | 0xE40 => ((if bitAt v 1 then s.migSwap n else s).migStage n (bitAt v 2)).migHold n (bitAt v 3)
    | _ => s

/-- What a write does in the Starter block. [DESIGN CHOICE: log 97] -/
def State.actStr (s : State) (rel v : Nat) : State :=
  match rel with
  | 0xC => (fun a => if bitAt v 1 then State.loadGo a else a) (if bitAt v 0 then s.loadStart else s)
  | 0x10 => s.loadData v
  | 0x34 => if bitAt v 31 then { s with starter := { s.starter with wdog := s.clock } } else s
  | _ => if 0x200 ≤ rel ∧ rel < 0x240 ∧ rel % 16 = 0 ∧ bitAt v 0 = true then s.doorbell ((rel - 0x200) / 16) else s

/-- What a write does in the Global block (R546, R558, R641). -/
def State.actGlb (s : State) (rel v old : Nat) : State :=
  match rel with
  | 0x10 => if s.straps.g2 then s.wr glbB F.GLB_COMPAT_G2 1 else s
  | 0x80 => if bitsAt v 0 4 = bitsAt old 0 4 then s else s.floorsDue
  | 0xC0 => forAll s.rom.regions.length (fun g a =>
      if bitAt v g = true ∧ g ≠ a.rom.homeRegion then a.rgReset g 0 else a) s
  | 0xC4 => if bitAt v 31 = true ∧ s.hasNi (bitsAt v 0 8) = true then s.niReset (bitsAt v 0 8) else s
  | _ => s

/-- What a write does in the Time Unit. [DESIGN CHOICE: log 97] -/
def State.actTim (s : State) (rel v : Nat) : State :=
  match rel with
  | 0x10 => (fun a => if bitAt v 1 then State.wr a timB F.TIM_SKEW_MAX 0 else a) (if bitAt v 0 then s.nowCap else s)
  | _ => if 0x80 ≤ rel ∧ rel < 0xA0 ∧ rel % 8 = 0 then s.syncEn ((rel - 0x80) / 8) (bitAt v 0) else s

/-- What a write does in the event unit and the scanner (R608, R609, R611, R614). -/
def State.actEvt (s : State) (rel v : Nat) : State :=
  match rel with
  | 0x200 => if bitAt v 30 then s.wr evtB F.EVT_FIRST_INFO_VALID 0 else s
  | 0x210 => if bitAt v 30 then s.wr evtB F.EVT_NEXT_INFO_VALID 0 else s
  | 0x804 => if bitAt v 0 then s.crcCommit (bitAt v 1) else s
  | 0x808 =>
    let s := if bitAt v 0 then { s with evd := { s.evd with crcHold := true } }.wr evtB F.EVT_STAT_MM_CNT 0 else s
    if bitAt v 4 then s else s.quarEnd
  | _ => s

/-- What a write does in the debug block (R624, R626, R629). -/
def State.actDbg (s : State) (m rel v old : Nat) : State :=
  match rel with
  | 4 =>
    let s := if m = 1 ∨ m = 2 then s.testMode (bitsAt v 0 2) else s
    if bitAt v 8 then s.coreReset else s
  | 0x10 => if bitAt v 0 = bitAt old 0 then s else if bitAt v 0 then s.trcArm else s.trcStop
  | _ => s

/-- What a performed write of `v` over `old` by master `m` does beside storing its value. GOV_EN = 0 sets every allowance, and the
governor's internal ones, to their top (R523). -/
def State.acts (s : State) (m : Nat) (u : Un) (rel v old : Nat) : State :=
  match u.kind with
  | .ni => s.actNi m u.i rel v old
  | .str => s.actStr rel v
  | .glb => s.actGlb rel v old
  | .tim => s.actTim rel v
  | .evt => s.actEvt rel v
  | .dbg => s.actDbg m rel v old
  | .cmx =>
    if rel = 0x44 ∧ bitAt v 8 = true then
      { s with cmx := { s.cmx with brk := s.cmx.brk.filter (fun t => t != s.rd cmxB F.CMX_TGT_IDX_TARGET) } }
    else s
  | .pf => if rel = 0x118 then s.evPump else if rel = 0x110 then s.evShow else s
  | .pcr => if rel = 0 ∧ bitAt v 0 = false then
      forAll s.rom.regions.length (fun g a => (a.wr pcrB (F.PCR_ALLOW_A2.ix g) 0xFFFF).wr pcrB (F.PCR_ALLOW_A3.ix g) 0xFFFF)
        { s with pacer := { s.pacer with a2 := 0xFFFF, a3 := 0xFFFF } }
    else s
  | .sp =>
    if 0x4000 ≤ rel ∧ rel < 0x5040 ∧ m ≠ 1 then s.wr u.base (F.SP_RTAB_CTRLW_UNCHK.ix ((rel - 0x4000) / 16)) 1 else s
  | _ => s

/-- The sources whose enables the register at `rel` of `u` holds (R596, R614, R615). -/
def enSrcs (rom : Rom) (u : Un) (rel : Nat) : List Src :=
  match u.kind with
  | .ni => if rel = 0xF88 then [srcAlert u.i] else if rel = 0xF8C then [srcNotice u.i] else []
  | .rtr => if rel = 0x104 then [srcRouter u.p u.i] else []
  | .sp => if rel = 0x24 then (List.range 8).map (srcSpan u.i) else []
  | .evt =>
    if rel = 0x1C0 then (List.range rom.regions.length).map srcRegion
    else if 0x180 ≤ rel ∧ rel < 0x1C0 then [srcGlobal ((rel - 0x180) / 4)]
    else []
  | _ => []

/-- What a performed write of `v` over `old` does beside storing its value; a write of enables may assert sources (R599).
[DEDUCED: log 66] -/
def State.acted (s : State) (m : Nat) (u : Un) (rel v old : Nat) : State :=
  let s := s.acts m u rel v old
  let prev := s.setWord (u.base + rel) (BitVec.ofNat 32 old)
  (enSrcs s.rom u rel).foldl (fun a x => a.reassert x (prev.asserted x.num)) s

/-- A write of words by master `m` to one register or one pair of unit `u`, in one cycle: the state and the response code
(R463, R618, R667). -/
def State.regWrite (s : State) (m : Nat) (u : Un) (l : List (Nat × Nat)) : State × Nat :=
  if (u.kind == .dbg || u.kind == .trc) && s.dbgDis then (s, 3)
  else if s.refuses m u l then (s, 3)
  else
    let l := (l.filter (fun e => !s.absent u e.1)).map (fun e => (e.1, e.2, (s.view u e.1).toNat))
    let t := l.foldl (fun a e => a.putReg m u e.1 e.2.1) s
    (l.foldl (fun a e => a.acted m u e.1 e.2.1 e.2.2) t, 0)

end Sys2Proof.Machine
end

