-- ==== Sys2Proof/Machine/Access.lean ====
section
/-! DEFINITION. One register access from its grant to its response: reach (R446), alignment and pairs (R458 to R462), memories
(R459, R623), locks (R465 to R468), response codes and the error log (R470, R471). Data are little-endian values that start at
the addressed byte. -/

namespace Sys2Proof.Machine

/-- Whether the region of a unit is in Sleep or deeper, or the unit is in reset (R453). [DESIGN CHOICE: log 101] -/
def State.asleep (s : State) (u : Un) : Bool :=
  s.pacer.rst != 0 || (u.kind == .ni && (s.port (.ni 0 u.i)).dead) || (match tgtRegion s.rom u.target with
    | some g => (s.rg g).held || [2, 3, 4].contains (s.rgState g)
    | none => false)

/-! ### The Starter core's view (R472) -/

/-- Where the Starter core finds the byte at address `a`: an offset of the CSR window, at which its SRAM and boot ROM stand too
(R451). The window at 0 shows the one or the other by REMAP as it stands when the fetch or access begins. -/
def starterView (remap : Bool) (a : Nat) : Option Nat :=
  let sram (i : Nat) : Option Nat := if i < 0x40000 then some (0x100000 + i) else none
  let brom (i : Nat) : Option Nat := if i < 0x10000 then some (0x140000 + i) else none
  if a < 0x100000 then (if remap then sram a else brom a)
  else if a < 0x200000 then sram (a - 0x100000)
  else if a < 0x40000000 then brom (a - 0x200000)
  else if a < 0x41000000 then some (a - 0x40000000)
  else none

/-- The byte that an instruction fetch of the Starter core at `a` takes from its SRAM or boot ROM. -/
def State.starterFetch (s : State) (a : Nat) : Option Byte :=
  (starterView (s.flag cmxB F.CMX_CTL_REMAP) a).bind (fun o =>
    if 0x100000 ≤ o ∧ o < 0x140000 then (s.sramBytes (o - 0x100000) 1).head?
    else if 0x140000 ≤ o ∧ o < 0x150000 then some (Config.bootRom (o - 0x140000))
    else none)

/-! ### Reads (R458 to R460) -/

/-- Whether the register at `rel` is the low word of a pair. AGE and T of a heat slot, which R391 and R644 name as pairs, do not
start at multiples of 8. [DEDUCED: log 96] -/
def pairAt (u : Un) (rel : Nat) : Bool := (rel % 8 == 0 || u.kind == .hcu) && (match specAt rel (regsOf u.kind) with
  | some x => x.pair
  | none => false)

/-- A register's value; a word of the trace RAM reads 0 while DBG_DIS is in force. -/
def State.regNat (s : State) (u : Un) (rel : Nat) : Nat :=
  if u.kind = .trc then
    (if s.dbgDis then 0 else bitsAt (mget (fun _ => 0) s.trc (rel / 16)) (32 * (rel % 16 / 4)) 32)
  else (s.view u rel).toNat

/-- Bytes of a memory target; ROM bytes beyond its length read 0 (R41, R459). -/
def State.memBytes (s : State) (u : Un) (rel k : Nat) : List Byte :=
  match u.kind with
  | .sram => s.sramBytes rel k
  | .brom => (List.range k).map (fun i => Config.bootRom (rel + i))
  | _ => (List.range k).map (fun i => (romBytes s.rom).getD (rel + i) 0)

def State.setShadow (s : State) (m t : Nat) (v : Option (Nat × Word)) : State :=
  { s with cmx := { s.cmx with shadow := mset (fun _ => none) s.cmx.shadow (mtKey m t) v } }

/-- A 4-byte read: of a pair's low word, which latches the high word; of a high word, from a matching shadow; or of any other
register. -/
def State.readWord (s : State) (m : Nat) (u : Un) (rel : Nat) : State × Nat :=
  if pairAt u rel then (s.setShadow m u.target (some (u.base + rel, BitVec.ofNat 32 (s.regNat u (rel + 4)))), s.regNat u rel)
  else if 4 ≤ rel ∧ pairAt u (rel - 4) = true then
    match mget (fun _ => none) s.cmx.shadow (mtKey m u.target) with
    | some (o, w) => if o = u.base + (rel - 4) then (s.setShadow m u.target none, w.toNat) else (s, s.regNat u rel)
    | none => (s, s.regNat u rel)
  else (s, s.regNat u rel)

/-- A read of a register target: state, data and code. -/
def State.regRead (s : State) (m : Nat) (u : Un) (rel size : Nat) : State × Nat × Nat :=
  if size < 2 then
    (if regAt u (rel / 4 * 4) then (s, bitsAt (s.regNat u (rel / 4 * 4)) (8 * (rel % 4)) (8 * 2 ^ size), 0) else (s, 0, 5))
  else if size = 2 then
    (if regAt u rel then
       let (t, v) := s.readWord m u rel
       (t, v, 0)
     else (s, 0, 5))
  else if regAt u rel && regAt u (rel + 4) then (s, s.regNat u rel + 2 ^ 32 * s.regNat u (rel + 4), 0)
  else (s, 0, 5)

/-! ### Writes (R458, R461, R462) -/

def State.setStage (s : State) (m t : Nat) (v : Option (Nat × Word × Nat)) : State :=
  { s with cmx := { s.cmx with stage := mset (fun _ => none) s.cmx.stage (mtKey m t) v } }

/-- A 4-byte write of a register that is not the low word of a pair; the high word of a staged pair takes the stage with it. -/
def State.writeWord (s : State) (m : Nat) (u : Un) (rel v : Nat) : State × Nat :=
  match mget (fun _ => none) s.cmx.stage (mtKey m u.target) with
  | some (o, w, _) =>
    if 4 ≤ rel ∧ pairAt u (rel - 4) = true ∧ o = u.base + (rel - 4) then
      (s.setStage m u.target none).regWrite m u [(rel - 4, w.toNat), (rel, v)]
    else s.regWrite m u [(rel, v)]
  | none => s.regWrite m u [(rel, v)]

/-- A write to a register target: state and code. -/
def State.regStore (s : State) (m : Nat) (u : Un) (rel size v : Nat) : State × Nat :=
  let lo := bitsAt v 0 32
  let hi := bitsAt v 32 32
  if size < 2 then (s, if regAt u (rel / 4 * 4) then 1 else 5)
  else if size = 2 then
    (if regAt u rel = false then (s, 5)
     else if pairAt u rel then
       (if u.kind == .dbg && s.dbgDis then (s, 3)
        else (s.setStage m u.target (some (u.base + rel, BitVec.ofNat 32 v, s.clock)), 0))
     else s.writeWord m u rel lo)
  else if pairAt u rel then s.regWrite m u [(rel, lo), (rel + 4, hi)]
  else
    let (s, a) := if regAt u rel then s.regWrite m u [(rel, lo)] else (s, 5)
    let (s, b) := if regAt u (rel + 4) then s.regWrite m u [(rel + 4, hi)] else (s, 5)
    (s, max a b)

/-- An access at its target: state, data and response code (R453, R458, R459, R470). [DESIGN CHOICE: log 101, 102] -/
def State.perform (s : State) (m : Nat) (u : Un) (q : CsrReq) : State × BitVec 64 × Nat :=
  let rel := q.addr - u.base
  let k := 2 ^ q.size
  if s.asleep u then (s, 0, 7)
  else if 3 < q.size ∨ rel % k ≠ 0 then (s, 0, 2)
  else if u.kind == .rom || u.kind == .brom || u.kind == .sram then
    (if q.wr = false then (s, BitVec.ofNat 64 (leNat (s.memBytes u rel k)), 0)
     else if u.kind == .sram then
       let sram := (leBytes k q.data.toNat).zipIdx.foldl (fun (m : Map Byte) e => mset (fun _ => 0) m (rel + e.2) e.1) s.starter.sram
       ({ s with starter := { s.starter with sram := sram } }, 0, 0)
     else (s, 0, 4))
  else if q.wr then
    let (t, c) := s.regStore m u rel q.size q.data.toNat
    (t, 0, c)
  else
    let (t, v, c) := s.regRead m u rel q.size
    (t, BitVec.ofNat 64 v, c)

/-! ### Locks (R465 to R468) -/

/-- Whether an access carries LOCK: the Starter sets it through STR.CMX_LOCK, and masters 3 to 5 never do. -/
def State.lockBit (s : State) (m : Nat) (q : CsrReq) : Bool :=
  match m with
  | 0 => q.lock
  | 1 => s.flag strB F.STR_CMX_LOCK_LOCK
  | 2 => q.lock
  | _ => false

/-- Whether no other master holds the lock of target `t`. -/
def State.mayUse (s : State) (m t : Nat) : Bool :=
  match s.lockOf t with
  | none => true
  | some (o, _) => o == m

def State.setLock (s : State) (t : Nat) (v : Option (Nat × Nat)) : State :=
  { s with cmx := { s.cmx with locks := mset (fun _ => none) s.cmx.locks t v } }

/-- The grant of an access: one with LOCK opens a locked sequence unless its master is cut off from the target. -/
def State.granting (s : State) (m t : Nat) (q : CsrReq) : State :=
  if s.lockBit m q && (s.lockOf t).isNone && !s.cmx.cuts.contains (m, t) then s.setLock t (some (m, s.clock)) else s

/-- The end of an access: one without LOCK closes its master's locked sequence at the target. -/
def State.closing (s : State) (m t : Nat) (lock : Bool) : State :=
  if lock = false ∧ (s.lockOf t).any (fun o => o.1 == m) = true then s.setLock t none else s

/-- A granted access to unit `u` from its grant to its response: data and code. After a break by LOCK_MAX the owner's next
access is not performed, and ends the cut-off (R468). -/
def State.served (s : State) (m : Nat) (u : Un) (q : CsrReq) : State × BitVec 64 × Nat :=
  let t := u.target
  if s.cmx.cuts.contains (m, t) then
    ({ s with cmx := { s.cmx with cuts := s.cmx.cuts.filter (fun e => e != (m, t)) } }, 0, 9)
  else
    let (s', d, c) := s.perform m u q
    (s'.closing m t (s.lockBit m q), d, c)

/-! ### Arbitration and performance (R455 to R457) -/

/-- The PRIO group of a target (R473). -/
def prioGroup (t : Nat) : Nat :=
  if t ≤ 10 then 0 else if t ≤ 12 then 1 else if t < 272 then 2 else if t < 432 then 3 else if t < 592 then 4 else 5

/-- The level of master `m` at target `t`. -/
def State.cmxLevel (s : State) (m t : Nat) : Nat := bitsAt (s.rd cmxB (F.CMX_PRIO_LVL.ix (prioGroup t))) (2 * m) 2

/-- Whether an access requests its target. -/
def Csa.asks (a : Csa) : Bool := a.gr.isNone && a.rsp.isNone

/-- A target's rotation list. -/
def State.cmxRot (s : State) (t : Nat) : List Nat := mget (fun _ => List.range 6) s.cmx.rots t

/-- The master that wins a phase at target `t`: the highest level, then the nearest to the head of the rotation list. -/
def State.cmxWinner (s : State) (t : Nat) : Option Nat :=
  let asks (m : Nat) : Bool := s.mayUse m t && s.cmx.acs.any (fun a => a.m == m && a.tgt == t && a.asks)
  let l := (s.cmxRot t).filter asks
  let top := l.foldl (fun b m => max b (s.cmxLevel m t)) 0
  l.find? (fun m => s.cmxLevel m t == top)

/-- An arbitration phase at target `t`. -/
def State.cmxPhase (s : State) (t : Nat) : State :=
  if s.cmx.acs.any (fun a => a.tgt == t && a.working) then s
  else match s.cmxWinner t with
    | none => s
    | some m => match s.cmx.acs.find? (fun a => a.m == m && a.tgt == t && a.asks) with
      | none => s
      | some a =>
        let s := s.updCmx (fun c => { c with
          acs := c.acs.map (fun b => if b.ser = a.ser ∧ b.rsp.isNone = true then { b with gr := some s.clock } else b)
          rots := mset (fun _ => List.range 6) c.rots t ((s.cmxRot t).filter (fun k => k != m) ++ [m]) })
        s.granting m t a.req

/-- A granted access is performed, and a break of its target's lock that waited for it follows (R467); one that has been answered
TIMEOUT still takes effect (R453). [DESIGN CHOICE: log 106] -/
def State.cmxDone (s : State) (x : Nat) : State :=
  match s.cmx.acs.find? (fun a => a.ser == x && a.gr.isSome && a.rsp.isNone) with
  | none => s
  | some a =>
    match s.entry? a.m a.req with
    | .error c => (s.updCmx (fun d => { d with acs := d.acs.map (fun b =>
        if b.ser = x ∧ b.rsp.isNone = true then { b with rsp := some (0, c, false) } else b) })).flushCmx
    | .ok u =>
      if a.late then
        let (t, _, _) := s.perform a.m u a.req
        t.updCmx (fun c => { c with acs := c.acs.filter (fun b => !(b.ser == x && b.late)) })
      else
        let lb := s.cmx.brk.contains a.tgt
        let (t, d, code) := s.served a.m u a.req
        let t := t.updCmx (fun c => { c with acs := c.acs.map (fun b =>
          if b.ser = x ∧ b.rsp.isNone = true then { b with rsp := some (d, code, lb) } else b) })
        (t.brokenNow a.tgt).flushCmx

/-- The accesses that a master may have outstanding (R446). -/
def cmxLimit (m : Nat) : Nat := [16, 4, 1, 1, 16, 8].getD m 0

/-- Whether master `m` can present an access: it has not reached its limit, the host port is ready (R448), and with DBG_DIS no
access of master 2 reaches the CMX (R618). -/
def State.mayPresent (s : State) (m : Nat) : Bool :=
  decide ((s.cmx.acs.filter (fun a => a.m == m && !a.late && !a.atNi)).length < cmxLimit m) && (m != 0 || s.hcReady) && !(m == 2 && s.dbgDis)

/-- Master `m` presents an access. The arbiter of its target holds a phase where the target can take an access; the one that wins is
granted, and is performed at once where it is this one. Otherwise this one waits in the CMX (R455, R457, R465).
[DESIGN CHOICE: log 107] -/
def State.direct (s : State) (m : Nat) (q : CsrReq) : State :=
  if s.mayPresent m = false then s
  else
    let x := s.cmx.next
    let s := s.cmxIn m none q none
    match s.cmx.acs.find? (fun a => a.ser == x && a.rsp.isNone) with
    | none => s.flushCmx
    | some a =>
      let s := s.cmxPhase a.tgt
      if s.cmx.acs.any (fun b => b.ser == x && b.working) then s.cmxDone x else s

/-- A 4-byte write of `v` at CSR offset `off` by master `m`. [DESIGN CHOICE: log 107] -/
def State.store (s : State) (m off : Nat) (v : Word) : State :=
  s.direct m { addr := off, wr := true, size := 2, data := v.setWidth 64 }

end Sys2Proof.Machine
end

