-- ==== Sys2Proof/Machine/Writes.lean ====
section
/-! DEFINITION. The commands that are register writes: a master's access reaches the register named, and does what the spec
says a write to it does. Each is the access of R458 to R463 to that register, so locks, masters and alignment apply to it. -/

namespace Sys2Proof.Machine

/-- A 4-byte write to offset `rel` of NI `n`'s window. [DESIGN CHOICE: log 107] -/
def State.storeNi (s : State) (m n rel : Nat) (v : Word) : Host.Outcome State Fault Refusal :=
  guardUnit s (s.hasNi n) (s.store m (niB n + rel) v)

/-! ### Any register -/

/-- A register write. -/
def execRegisterWrite (m : Nat) (q : CsrReq) (s : State) : Host.Outcome State Fault Refusal :=
  .next (s.direct m { q with wr := true })

/-- A 4-byte write to a pair's low word, which is staged (R461); a write elsewhere is none. -/
def execPairLowWrite (m : Nat) (q : CsrReq) (s : State) : Host.Outcome State Fault Refusal :=
  .next
    (match unitOf s.rom q.addr with
     | none => s
     | some u => if pairAt u (q.addr - u.base) then s.direct m { q with wr := true, size := 2 } else s)

/-! ### Network interfaces -/

/-- A raw write of 8 bytes to pair `p` (0 PATH, 1 CTRL and INFO) of entry `e` of route table `t` (an NI, or 256 plus a Span
port), which sets UNCHK (R137). -/
def execRtabRawWrite (m t e p : Nat) (v : BitVec 64) (s : State) : Host.Outcome State Fault Refusal :=
  guardUnit s ((if t < 256 then s.hasNi t else s.hasSpan (t - 256)) && decide (e < 260) && decide (p < 2))
    (s.direct m { addr := rtabB t e + 8 * p, wr := true, size := 3, data := v })

/-- A raw write to word `w` of SC0 reservation `j` (R228). -/
def execSc0RsvWrite (m n j w : Nat) (v : Word) (s : State) : Host.Outcome State Fault Refusal :=
  guardUnit s (s.hasNi n && decide (j < 16) && decide (w < 2)) (s.store m (niB n + 0x450 + 8 * j + 4 * w) v)

/-- A raw write to RATE (word 0) or BURST (word 1) of shaper `k` (R267). [DEDUCED: log 12] -/
def execShaperWrite (m n k w : Nat) (v : Word) (s : State) : Host.Outcome State Fault Refusal :=
  guardUnit s (s.hasNi n && decide (k < 16) && decide (w < 2)) (s.store m (niB n + 0x580 + 16 * k + 4 * w) v)

/-- NI.LATE_CFG, for HIST_EN (R246). -/
def execHistEnWrite (m n : Nat) (v : Word) (s : State) : Host.Outcome State Fault Refusal := s.storeNi m n 0x404 v
/-- NI.LATE_CFG with MAX_CLR (R247). -/
def execLatMaxClr (m n : Nat) (v : Word) (s : State) : Host.Outcome State Fault Refusal := s.storeNi m n 0x404 (v ||| 0x100#32)
/-- NI.Q_SHARE (R264). -/
def execQShareWrite (m n : Nat) (v : Word) (s : State) : Host.Outcome State Fault Refusal := s.storeNi m n 0x50C v
/-- NI.Q_IDX with SAMP_CLR (R284). -/
def execSampClr (m n : Nat) (v : Word) (s : State) : Host.Outcome State Fault Refusal := s.storeNi m n 0x504 (v ||| 0x80000000#32)
/-- NI.GATE_CTL with SWAP (R278). -/
def execGateSwap (m n : Nat) (v : Word) (s : State) : Host.Outcome State Fault Refusal := s.storeNi m n 0x700 (v ||| 1#32)
/-- NI.GATE_CTL with CANCEL (R279). -/
def execGateCancel (m n : Nat) (v : Word) (s : State) : Host.Outcome State Fault Refusal := s.storeNi m n 0x700 (v ||| 2#32)
/-- NI.GATE_CTL, for MARK_EN (R282). -/
def execMarkEnWrite (m n : Nat) (v : Word) (s : State) : Host.Outcome State Fault Refusal := s.storeNi m n 0x700 v
/-- NI.RSQ_CTL, for REORDER (R407). -/
def execReorderWrite (m n : Nat) (v : Word) (s : State) : Host.Outcome State Fault Refusal := s.storeNi m n 0xD04 v
/-- NI.MIG_CTL with SWAP (R430). -/
def execMigSwap (m n : Nat) (v : Word) (s : State) : Host.Outcome State Fault Refusal := s.storeNi m n 0xE40 (v ||| 2#32)
/-- NI.MIG_CTL, for STAGE (R431, R433). -/
def execMigStage (m n : Nat) (v : Word) (s : State) : Host.Outcome State Fault Refusal := s.storeNi m n 0xE40 v
/-- NI.MIG_CTL, for HOLD (R431, R433). -/
def execMigHold (m n : Nat) (v : Word) (s : State) : Host.Outcome State Fault Refusal := s.storeNi m n 0xE40 v
/-- NI.ORD_CFG with SB_EN = 0 (R202). -/
def execSbEnClear (m n : Nat) (v : Word) (s : State) : Host.Outcome State Fault Refusal := s.storeNi m n 0x300 (v &&& 0xFFFFFFEF#32)
/-- NI.SB_LOG_INFO with CLR (R223). -/
def execSbLogClr (m n : Nat) (v : Word) (s : State) : Host.Outcome State Fault Refusal := s.storeNi m n 0x318 (v ||| 0x40000000#32)

/-! ### Time Unit -/

/-- TIME.NOW_CAP with CAP (R322). -/
def execNowCap (m : Nat) (v : Word) (s : State) : Host.Outcome State Fault Refusal := .next (s.store m (timB + 0x10) (v ||| 1#32))
/-- TIME.NOW_CAP with SKEW_CLR (R322). -/
def execSkewClr (m : Nat) (v : Word) (s : State) : Host.Outcome State Fault Refusal := .next (s.store m (timB + 0x10) (v ||| 2#32))
/-- TIME.CTL with ELOCK (R289). -/
def execElockSet (m : Nat) (v : Word) (s : State) : Host.Outcome State Fault Refusal := .next (s.store m timB (v ||| 0x100#32))
/-- Word 0 of TIME.EVT[k], for SYNC_EN (R317). -/
def execSyncEnWrite (m k : Nat) (v : Word) (s : State) : Host.Outcome State Fault Refusal :=
  guardUnit s (decide (k < 4)) (s.store m (timB + 0x80 + 8 * k) v)

/-! ### Resets, logs, scanner and debug -/

/-- GLB.RST_CTL (R558). -/
def execRstCtlRegion (m : Nat) (v : Word) (s : State) : Host.Outcome State Fault Refusal := .next (s.store m (glbB + 0xC0) v)
/-- GLB.RST_NI with GO (R558). -/
def execRstNiGo (m : Nat) (v : Word) (s : State) : Host.Outcome State Fault Refusal :=
  .next (s.store m (glbB + 0xC4) (v ||| 0x80000000#32))
/-- EVT.FIRST_INFO with CLR (R614). -/
def execFirstLogClr (m : Nat) (v : Word) (s : State) : Host.Outcome State Fault Refusal :=
  .next (s.store m (evtB + 0x200) (v ||| 0x40000000#32))
/-- EVT.NEXT_INFO with CLR (R614). -/
def execNextLogClr (m : Nat) (v : Word) (s : State) : Host.Outcome State Fault Refusal :=
  .next (s.store m (evtB + 0x210) (v ||| 0x40000000#32))
/-- CFG.CRC_COMMIT with COMMIT and MODE 0 (R608). -/
def execCrcCommitTake (m : Nat) (v : Word) (s : State) : Host.Outcome State Fault Refusal :=
  .next (s.store m (evtB + 0x804) (v &&& 0xFFFFFFFC#32 ||| 1#32))
/-- CFG.CRC_COMMIT with COMMIT and MODE 1 (R608). -/
def execCrcCommitGiven (m : Nat) (v : Word) (s : State) : Host.Outcome State Fault Refusal :=
  .next (s.store m (evtB + 0x804) (v ||| 3#32))
/-- TRC.CTL, for EN (R624). -/
def execTrcEnWrite (m : Nat) (v : Word) (s : State) : Host.Outcome State Fault Refusal := .next (s.store m (dbgB + 0x10) v)
/-- DBG.TEST_CTL, for MODE (R626). -/
def execTestModeWrite (m : Nat) (v : Word) (s : State) : Host.Outcome State Fault Refusal := .next (s.store m (dbgB + 4) v)
/-- DBG.TEST_CTL with STR_RST (R629). -/
def execStrRstWrite (m : Nat) (v : Word) (s : State) : Host.Outcome State Fault Refusal :=
  .next (s.store m (dbgB + 4) (v ||| 0x100#32))

/-! ### Starter and Control Matrix -/

/-- CMX.CTL, for REMAP (R472). -/
def execRemapWrite (m : Nat) (v : Word) (s : State) : Host.Outcome State Fault Refusal := .next (s.store m cmxB v)
/-- STR.LOAD_CTL with START (R476). -/
def execLoadStart (m : Nat) (v : Word) (s : State) : Host.Outcome State Fault Refusal := .next (s.store m (strB + 0xC) (v ||| 1#32))
/-- STR.LOAD_DATA (R476). -/
def execLoadData (m : Nat) (v : Word) (s : State) : Host.Outcome State Fault Refusal := .next (s.store m (strB + 0x10) v)
/-- STR.LOAD_CTL with GO (R476). -/
def execLoadGo (m : Nat) (v : Word) (s : State) : Host.Outcome State Fault Refusal := .next (s.store m (strB + 0xC) (v ||| 2#32))
/-- STR.WDOG with KICK (R502). -/
def execWdogKick (m : Nat) (v : Word) (s : State) : Host.Outcome State Fault Refusal :=
  .next (s.store m (strB + 0x34) (v ||| 0x80000000#32))
/-- MBX[k] with DOORBELL (R484). [DESIGN CHOICE: log 109] -/
def execMbxDoorbell (m k : Nat) (v : Word) (s : State) : Host.Outcome State Fault Refusal :=
  guardUnit s (decide (k < 4)) (s.store m (strB + 0x200 + 16 * k) (v ||| 1#32))

/-- CLAIM_RELEASE: the claim ends as if its owner had written 0 to its enable (R496). -/
def execClaimRelease (x : Nat) (s : State) : Host.Outcome State Fault Refusal :=
  .next (s.runCmd x 0x03 [(0, 2), (8, 8)] (fun c s =>
    let kind := c.p 0 2
    let i := c.p 8 8
    if s.claimOk kind i = false then s.reply x 0x0003 []
    else
      let o := (s.claimOf kind i).1
      let ni := s.pinNi i
      let busy := (kind == 0 && (o == 1 || o == 2)) || (kind == 1 && o == 1)
        || (kind == 2 && o == 2 && s.flag (niB i) F.NI_MIG_CTL_HOLD)
      if busy then s.reply x 0x0006 []
      else
        let s := match kind, o with
          | 0, 3 => s.markEn ni false
          | 0, 4 => s.trcStop
          | 1, 2 => s.histEn i false
          | 2, 1 => s.reorder i false
          | 2, 2 => s.migStage i false
          | _, _ => s
        s.reply x 0 []))

end Sys2Proof.Machine
end

