-- ==== Sys2Proof/Machine/Cmx.lean ====
section
/-! DEFINITION. The Control Matrix (R446 to R473): the host port, arbitration, accesses in progress, time limits, MGMT packets
and the debug port's accesses. -/

namespace Sys2Proof.Machine

/-! ### The host port (R447, R448) -/

/-- A request transfers at the host port. -/
def State.hcTake (s : State) (q : CsrReq) : State :=
  if s.hcReady then (s.cmxIn 0 none { q with data := fromLanes q.addr q.data } none).flushCmx else s

def execHcRequest (q : CsrReq) (s : State) : Host.Outcome State Fault Refusal := .next (s.hcTake q)

/-- HC_RST_N asserts: the host's locks break and the responses of its outstanding accesses are discarded. -/
def execHcRstAssert (s : State) : Host.Outcome State Fault Refusal :=
  .next ((s.ownerReset 0).updCmx (fun c => { c with hcLow := true })).flushCmx

/-- HC_RST_N deasserts. -/
def execHcRstDeassert (s : State) : Host.Outcome State Fault Refusal := .next (s.updCmx (fun c => { c with hcLow := false }))

/-! ### Arbitration and performance (R455 to R457) -/

def execCmxArbPhase (t : Nat) (s : State) : Host.Outcome State Fault Refusal := .next (s.cmxPhase t)

def execCmxAccess (x : Nat) (s : State) : Host.Outcome State Fault Refusal := .next (s.cmxDone x)

/-! ### Time limits (R453, R462, R467) -/

/-- CMX.TMO passes: the access is answered TIMEOUT and its target accepts the next one. [DESIGN CHOICE: log 106] -/
def State.cmxTimeout (s : State) (x : Nat) : State :=
  match s.cmx.acs.find? (fun a => a.ser == x && a.working) with
  | none => s
  | some a =>
    let s := s.closing a.m a.tgt (s.lockBit a.m a.req)
    let s := s.updCmx (fun c => { c with acs := c.acs.map (fun b =>
        if b.ser = x then { b with rsp := some (0, 8, s.cmx.brk.contains a.tgt) } else b) ++ [{ a with late := true, mute := true }] })
    (s.brokenNow a.tgt).flushCmx

def execCmxTimeout (x : Nat) (s : State) : Host.Outcome State Fault Refusal := .next (s.cmxTimeout x)

/-- LOCK_MAX passes: the lock breaks once no access of its owner is in progress. -/
def execLockMaxExpire (t : Nat) (s : State) : Host.Outcome State Fault Refusal :=
  .next (s.breakWhenDone t 1)

/-- A low word that master 4 has staged waits for 256 fc without its high word. -/
def execPairStageTmo (t : Nat) (s : State) : Host.Outcome State Fault Refusal := .next (s.setStage 4 t none)

/-! ### MGMT packets (R449, R450) -/

/-- The access that a MGMT packet asks for. -/
def mgmtReq (p : Pk) : CsrReq :=
  let size := match p.hdr.len with
    | 1 => 0
    | 2 => 1
    | 4 => 2
    | 8 => 3
    | _ => 4
  { addr := p.hdr.addr, wr := p.hdr.op == 1, size := size, data := BitVec.ofNat 64 (leNat p.got) }

/-- Whether a MGMT write from node `src` is authorised. [DESIGN CHOICE: log 32] -/
def State.mgmtAuth (s : State) (src : Nat) : Bool :=
  s.authBit (src % 256) && (src / 256 == s.instNum || s.flag cmxB F.CMX_CTL_REMOTE_WR)

/-- The oldest whole MGMT packet of NI `n` with an OP that `f` accepts. -/
def State.mgmtPk (s : State) (n : Nat) (f : Nat → Bool) : Option (Nat × Pk) :=
  (s.ni n).inbox.findSome? (fun k => match (s.ni n).pk k with
    | some p => if p.hdr.ptype = 8 ∧ f p.hdr.op = true ∧ p.left = 0 then some (k, p) else none
    | none => none)

/-- Take a packet out of NI `n`'s inbox. -/
def State.unbox (s : State) (n k : Nat) : State :=
  (s.updNi n (fun x => { x with inbox := x.inbox.filter (fun j => j != k) })).dropPk n k

/-- A MGMT read or write reaches its NI: it joins that NI's target where its ADDR lies in the NI's window, else the NI's queue
for the CMX; with 16 accesses queued it is answered MGMT_BUSY. [DESIGN CHOICE: log 104, 105] -/
def State.mgmtTake (s : State) (n : Nat) : State :=
  match s.mgmtPk n (fun op => decide (op ≤ 1)) with
  | none => s
  | some (k, p) =>
    let s := s.unbox n k
    let q := mgmtReq p
    let pl := if s.plnState p.plane = 3 then 1 + p.plane else 0
    let mine (c : Csa) : Bool := match c.mg with
      | some (i, _, _) => i == n && !c.late
      | none => false
    if 16 ≤ (s.ni n).mgmtIn.length + (s.cmx.acs.filter mine).length then (s.noteErr 4 q 10).mgmtAnswer n pl p.hdr 0 10 false
    else if q.wr = true ∧ s.mgmtAuth p.hdr.src = false then (s.noteErr 4 q 6).mgmtAnswer n pl p.hdr 0 6 false
    else if niB n ≤ q.addr ∧ q.addr < niB n + 0x4000 then (s.cmxIn 4 (some (n, pl, p.hdr)) q none).flushCmx
    else (s.updNi n (fun x => { x with mgmtIn := x.mgmtIn ++ [(q, pl, p.hdr)] })).mgmtPump.flushCmx

def execMgmtReceive (n : Nat) (s : State) : Host.Outcome State Fault Refusal := guardUnit s (s.hasNi n) (s.mgmtTake n)

/-- A MGMT response reaches the NI function that sent its request, which is a plane-test probe (R413); one that matches no
request is dropped and counted. -/
def State.mgmtEnd (s : State) (n : Nat) : State :=
  match s.mgmtPk n (fun op => op == 2) with
  | none => s
  | some (k, p) =>
    let s := s.unbox n k
    let x := s.ni n
    let i := x.probes.findIdx (fun r => r.1 == p.plane && r.2.1 == p.hdr.tag && r.2.2 == 0)
    if i < x.probes.length then
      s.setNi n { x with probes := listSet x.probes i (fun r => (r.1, r.2.1, if (p.got.getD 8 0).toNat = 0 then 1 else 2)) }
    else s.pktBad n

def execMgmtResponse (n : Nat) (s : State) : Host.Outcome State Fault Refusal := guardUnit s (s.hasNi n) (s.mgmtEnd n)

/-! ### The debug port (R619 to R621) -/

/-- An access of the debug port is outstanding. -/
def State.dbgBusy (s : State) : Bool := s.cmx.acs.any (fun a => a.m == 2 && !a.late && !a.mute)

/-- DBG_ACC: Capture-DR shows the last completed access, and Update-DR with GO issues one. With DBG_DIS it acts as BYPASS; in a
sleeping home region the port answers ASLEEP itself. [DESIGN CHOICE: log 104] -/
def State.dbgAcc (s : State) (w : BitVec 96) : State :=
  if s.dbgDis then s.tapOut 3 0
  else
    let v := w.toNat
    let last := (s.cmx.dbgOut.getLast?).getD { id := 0, data := 0, code := 0, lb := false }
    let busy := s.dbgBusy
    let s := s.tapOut 3 (last.code + 16 * b2n last.lb + 32 * b2n busy + 2 ^ 32 * last.data.toNat)
    if bitAt v 28 = false ∨ busy = true then s
    else
      let q : CsrReq := { addr := bitsAt v 0 24, size := bitsAt v 24 2, wr := bitAt v 26, lock := bitAt v 27, data := BitVec.ofNat 64 (v / 2 ^ 32) }
      let s := if s.flag dbgB F.DBG_STAT_TAP_ACC then s else (s.wr dbgB F.DBG_STAT_TAP_ACC 1).glEvent 12 0
      (s.cmxIn 2 none q (if [2, 3, 4].contains (s.rgState s.rom.homeRegion) then some 7 else none)).flushCmx

def execDbgAcc (w : BitVec 96) (s : State) : Host.Outcome State Fault Refusal := .next (s.dbgAcc w)

end Sys2Proof.Machine
end

