-- ==== Sys2Proof/Machine/Dispatch.lean ====
section
/-! DEFINITION. The meaning of each command: one arm per constructor, each a direct call. -/

namespace Sys2Proof.Machine

/-- One command on the state without the queue. -/
def exec (i : Instr) (s : State) : Host.Outcome State Fault Refusal :=
  match i with
  | .opRead n q => Sys2Proof.Machine.execOpRead n q s
  | .opWrite n q => Sys2Proof.Machine.execOpWrite n q s
  | .opReservedLoad n q => Sys2Proof.Machine.execOpReservedLoad n q s
  | .opCondStore n q => Sys2Proof.Machine.execOpCondStore n q s
  | .opAtomicSwap n q => Sys2Proof.Machine.execOpAtomicSwap n q s
  | .opAtomicAdd n q => Sys2Proof.Machine.execOpAtomicAdd n q s
  | .opAtomicCas n q => Sys2Proof.Machine.execOpAtomicCas n q s
  | .opBarrierOrder n q => Sys2Proof.Machine.execOpBarrierOrder n q s
  | .opBarrierComplete n q => Sys2Proof.Machine.execOpBarrierComplete n q s
  | .opHandleAlloc n q => Sys2Proof.Machine.execOpHandleAlloc n q s
  | .opHandleFree n q => Sys2Proof.Machine.execOpHandleFree n q s
  | .opCommand n q => Sys2Proof.Machine.execOpCommand n q s
  | .wqiData n b => Sys2Proof.Machine.execWqiData n b s
  | .stiPacket n p => Sys2Proof.Machine.execStiPacket n p s
  | .packetAdmit n st => Sys2Proof.Machine.execPacketAdmit n st s
  | .rpiResponse n dtag sc status data => Sys2Proof.Machine.execRpiResponse n dtag sc status data s
  | .sbiEvt n code => Sys2Proof.Machine.execSbiEvt n code s
  | .epEventTake n => Sys2Proof.Machine.execEpEventTake n s
  | .epRstAssert n => Sys2Proof.Machine.execEpRstAssert n s
  | .epRstDeassert n => Sys2Proof.Machine.execEpRstDeassert n s
  | .niUpRise n => Sys2Proof.Machine.execNiUpRise n s
  | .ctoExpire n tag part => Sys2Proof.Machine.execCtoExpire n tag part s
  | .barrierDone n => Sys2Proof.Machine.execBarrierDone n s
  | .stallLimitExpire n half => Sys2Proof.Machine.execStallLimitExpire n half s
  | .rspArrival n => Sys2Proof.Machine.execRspArrival n s
  | .sbEnClear m n v => Sys2Proof.Machine.execSbEnClear m n v s
  | .sbLogClr m n v => Sys2Proof.Machine.execSbLogClr m n v s
  | .packetRelease n t mem => Sys2Proof.Machine.execPacketRelease n t mem s
  | .sc0Release n t => Sys2Proof.Machine.execSc0Release n t s
  | .sc0Skew n t => Sys2Proof.Machine.execSc0Skew n t s
  | .routerFlitArrival plane r p e => Sys2Proof.Machine.execRouterFlitArrival plane r p e s
  | .arbPhase o => Sys2Proof.Machine.execArbPhase o s
  | .grantOverrun o => Sys2Proof.Machine.execGrantOverrun o s
  | .creditVectorArrival o flip => Sys2Proof.Machine.execCreditVectorArrival o flip s
  | .creditLoad o => Sys2Proof.Machine.execCreditLoad o s
  | .xingFlit o vc e => Sys2Proof.Machine.execXingFlit o vc e s
  | .xingIsolate o => Sys2Proof.Machine.execXingIsolate o s
  | .xingFlush o => Sys2Proof.Machine.execXingFlush o s
  | .isolateReceive n => Sys2Proof.Machine.execIsolateReceive n s
  | .niFlitArrival plane n e t => Sys2Proof.Machine.execNiFlitArrival plane n e t s
  | .targetDelivery n t => Sys2Proof.Machine.execTargetDelivery n t s
  | .egressSegmentStart n half rdy t => Sys2Proof.Machine.execEgressSegmentStart n half rdy t s
  | .twinTmo n ctx seq => Sys2Proof.Machine.execTwinTmo n ctx seq s
  | .gapTmo n ctx => Sys2Proof.Machine.execGapTmo n ctx s
  | .routeSet x => Sys2Proof.Machine.execRouteSet x s
  | .routeCheck x => Sys2Proof.Machine.execRouteCheck x s
  | .rtabRawWrite m t e p v => Sys2Proof.Machine.execRtabRawWrite m t e p v s
  | .floorRecompute => Sys2Proof.Machine.execFloorRecompute s
  | .sc0RsvWrite m n j w v => Sys2Proof.Machine.execSc0RsvWrite m n j w v s
  | .histEnWrite m n v => Sys2Proof.Machine.execHistEnWrite m n v s
  | .histWindowEnd n => Sys2Proof.Machine.execHistWindowEnd n s
  | .latMaxClr m n v => Sys2Proof.Machine.execLatMaxClr m n v s
  | .qShareWrite m n v => Sys2Proof.Machine.execQShareWrite m n v s
  | .sampClr m n v => Sys2Proof.Machine.execSampClr m n v s
  | .queueSample n q => Sys2Proof.Machine.execQueueSample n q s
  | .shaperRefill n => Sys2Proof.Machine.execShaperRefill n s
  | .shaperWrite m n k w v => Sys2Proof.Machine.execShaperWrite m n k w v s
  | .allowanceWindow n => Sys2Proof.Machine.execAllowanceWindow n s
  | .gateUpdate n e => Sys2Proof.Machine.execGateUpdate n e s
  | .gateSwap m n v => Sys2Proof.Machine.execGateSwap m n v s
  | .gateCancel m n v => Sys2Proof.Machine.execGateCancel m n v s
  | .gateListStart n t => Sys2Proof.Machine.execGateListStart n t s
  | .markEnWrite m n v => Sys2Proof.Machine.execMarkEnWrite m n v s
  | .markerAnnounce n t => Sys2Proof.Machine.execMarkerAnnounce n t s
  | .markerPulse k => Sys2Proof.Machine.execMarkerPulse k s
  | .timeMarker => Sys2Proof.Machine.execTimeMarker s
  | .markerArrival r x => Sys2Proof.Machine.execMarkerArrival r x s
  | .calRunDone r rtt => Sys2Proof.Machine.execCalRunDone r rtt s
  | .calPeriod => Sys2Proof.Machine.execCalPeriod s
  | .hopFreeze g => Sys2Proof.Machine.execHopFreeze g s
  | .timeStepApply => Sys2Proof.Machine.execTimeStepApply s
  | .stepWindowEnd => Sys2Proof.Machine.execStepWindowEnd s
  | .ppsInEdge e => Sys2Proof.Machine.execPpsInEdge e s
  | .ppsMiss => Sys2Proof.Machine.execPpsMiss s
  | .tsetLoad sec ns => Sys2Proof.Machine.execTsetLoad sec ns s
  | .spanTimeExchange k t1 t2 t3 t4 => Sys2Proof.Machine.execSpanTimeExchange k t1 t2 t3 t4 s
  | .spanTimeSample k => Sys2Proof.Machine.execSpanTimeSample k s
  | .holdoverExpire => Sys2Proof.Machine.execHoldoverExpire s
  | .carrierCheck count => Sys2Proof.Machine.execCarrierCheck count s
  | .carrierReturn => Sys2Proof.Machine.execCarrierReturn s
  | .timeSet x => Sys2Proof.Machine.execTimeSet x s
  | .timeAdjust x => Sys2Proof.Machine.execTimeAdjust x s
  | .timeCal x => Sys2Proof.Machine.execTimeCal x s
  | .timeStatus x => Sys2Proof.Machine.execTimeStatus x s
  | .slewEnd => Sys2Proof.Machine.execSlewEnd s
  | .nowCap m v => Sys2Proof.Machine.execNowCap m v s
  | .skewClr m v => Sys2Proof.Machine.execSkewClr m v s
  | .elockSet m v => Sys2Proof.Machine.execElockSet m v s
  | .syncEnWrite m k v => Sys2Proof.Machine.execSyncEnWrite m k v s
  | .syncPulse k => Sys2Proof.Machine.execSyncPulse k s
  | .ppsOutPulse up => Sys2Proof.Machine.execPpsOutPulse up s
  | .timeEvtEdge k e => Sys2Proof.Machine.execTimeEvtEdge k e s
  | .pfArm x => Sys2Proof.Machine.execPfArm x s
  | .pfStatus x => Sys2Proof.Machine.execPfStatus x s
  | .pfRelease x => Sys2Proof.Machine.execPfRelease x s
  | .pfCancel x => Sys2Proof.Machine.execPfCancel x s
  | .pfPinTrigger slot => Sys2Proof.Machine.execPfPinTrigger slot s
  | .pfArmReceive slot u t => Sys2Proof.Machine.execPfArmReceive slot u t s
  | .pfCapture slot u t => Sys2Proof.Machine.execPfCapture slot u t s
  | .pfCollect slot => Sys2Proof.Machine.execPfCollect slot s
  | .evStart x => Sys2Proof.Machine.execEvStart x s
  | .evStop x => Sys2Proof.Machine.execEvStop x s
  | .evMark x => Sys2Proof.Machine.execEvMark x s
  | .evStatus x => Sys2Proof.Machine.execEvStatus x s
  | .evdBoundary t => Sys2Proof.Machine.execEvdBoundary t s
  | .evdWriteResult => Sys2Proof.Machine.execEvdWriteResult s
  | .evdRetry => Sys2Proof.Machine.execEvdRetry s
  | .heatOpen x => Sys2Proof.Machine.execHeatOpen x s
  | .heatStage x => Sys2Proof.Machine.execHeatStage x s
  | .heatCommit x => Sys2Proof.Machine.execHeatCommit x s
  | .heatAbort x => Sys2Proof.Machine.execHeatAbort x s
  | .heatStatus x => Sys2Proof.Machine.execHeatStatus x s
  | .heatClose x => Sys2Proof.Machine.execHeatClose x s
  | .heatReconcile x => Sys2Proof.Machine.execHeatReconcile x s
  | .heatReconcileDrop x => Sys2Proof.Machine.execHeatReconcileDrop x s
  | .heatStragglers x => Sys2Proof.Machine.execHeatStragglers x s
  | .stageReceive n => Sys2Proof.Machine.execStageReceive n s
  | .stageAckReceive n mem => Sys2Proof.Machine.execStageAckReceive n mem s
  | .stageAckTmo slot aseq => Sys2Proof.Machine.execStageAckTmo slot aseq s
  | .heatScheduledStart slot => Sys2Proof.Machine.execHeatScheduledStart slot s
  | .prepareReceive n hid inst mem => Sys2Proof.Machine.execPrepareReceive n hid inst mem s
  | .voteCollectDone slot w => Sys2Proof.Machine.execVoteCollectDone slot w s
  | .heatCommitSend slot => Sys2Proof.Machine.execHeatCommitSend slot s
  | .commitReceive n hid inst tt t => Sys2Proof.Machine.execCommitReceive n hid inst tt t s
  | .commitCollectDone slot w => Sys2Proof.Machine.execCommitCollectDone slot w s
  | .armReceive n hid inst per t => Sys2Proof.Machine.execArmReceive n hid inst per t s
  | .heatApply n hid inst t mem => Sys2Proof.Machine.execHeatApply n hid inst t mem s
  | .heatMiss n hid inst t => Sys2Proof.Machine.execHeatMiss n hid inst t s
  | .abortReceive n hid inst => Sys2Proof.Machine.execAbortReceive n hid inst s
  | .heatSettle slot w maps => Sys2Proof.Machine.execHeatSettle slot w maps s
  | .heatDeadline slot => Sys2Proof.Machine.execHeatDeadline slot s
  | .leaveTmo slot => Sys2Proof.Machine.execLeaveTmo slot s
  | .relayFault slot => Sys2Proof.Machine.execRelayFault slot s
  | .reconcileStart n => Sys2Proof.Machine.execReconcileStart n s
  | .reconcileReceive n t mem => Sys2Proof.Machine.execReconcileReceive n t mem s
  | .heatCrcRecommit => Sys2Proof.Machine.execHeatCrcRecommit s
  | .planeDetach x => Sys2Proof.Machine.execPlaneDetach x s
  | .planeTest x => Sys2Proof.Machine.execPlaneTest x s
  | .planeAttach x => Sys2Proof.Machine.execPlaneAttach x s
  | .planeReset x => Sys2Proof.Machine.execPlaneReset x s
  | .planeStatus x => Sys2Proof.Machine.execPlaneStatus x s
  | .planeDrainCheck p => Sys2Proof.Machine.execPlaneDrainCheck p s
  | .planeDrainTmo p => Sys2Proof.Machine.execPlaneDrainTmo p s
  | .planeFailover => Sys2Proof.Machine.execPlaneFailover s
  | .planeStateReceive n t => Sys2Proof.Machine.execPlaneStateReceive n t s
  | .planeTestEnd p => Sys2Proof.Machine.execPlaneTestEnd p s
  | .planeJoin p n t => Sys2Proof.Machine.execPlaneJoin p n t s
  | .reorderWrite m n v => Sys2Proof.Machine.execReorderWrite m n v s
  | .sliceMap x => Sys2Proof.Machine.execSliceMap x s
  | .sliceShare x => Sys2Proof.Machine.execSliceShare x s
  | .sliceReset x => Sys2Proof.Machine.execSliceReset x s
  | .sliceOpen x => Sys2Proof.Machine.execSliceOpen x s
  | .sliceStatus x => Sys2Proof.Machine.execSliceStatus x s
  | .sliceMigSync x => Sys2Proof.Machine.execSliceMigSync x s
  | .sliceCloseReceive n sl => Sys2Proof.Machine.execSliceCloseReceive n sl s
  | .sliceCollect sl => Sys2Proof.Machine.execSliceCollect sl s
  | .sliceDrainTmo sl => Sys2Proof.Machine.execSliceDrainTmo sl s
  | .sliceSquashReceive n sl => Sys2Proof.Machine.execSliceSquashReceive n sl s
  | .sliceQuiesceTmo sl => Sys2Proof.Machine.execSliceQuiesceTmo sl s
  | .migSyncCollect => Sys2Proof.Machine.execMigSyncCollect s
  | .migSwap m n v => Sys2Proof.Machine.execMigSwap m n v s
  | .migStage m n v => Sys2Proof.Machine.execMigStage m n v s
  | .migHold m n v => Sys2Proof.Machine.execMigHold m n v s
  | .hcRequest q => Sys2Proof.Machine.execHcRequest q s
  | .hcRstAssert => Sys2Proof.Machine.execHcRstAssert s
  | .cmxArbPhase t => Sys2Proof.Machine.execCmxArbPhase t s
  | .cmxAccess x => Sys2Proof.Machine.execCmxAccess x s
  | .registerWrite m q => Sys2Proof.Machine.execRegisterWrite m q s
  | .pairLowWrite m q => Sys2Proof.Machine.execPairLowWrite m q s
  | .pairStageTmo t => Sys2Proof.Machine.execPairStageTmo t s
  | .cmxTimeout x => Sys2Proof.Machine.execCmxTimeout x s
  | .lockMaxExpire t => Sys2Proof.Machine.execLockMaxExpire t s
  | .mgmtReceive n => Sys2Proof.Machine.execMgmtReceive n s
  | .mgmtResponse n => Sys2Proof.Machine.execMgmtResponse n s
  | .remapWrite m v => Sys2Proof.Machine.execRemapWrite m v s
  | .bootSelfcheck ok => Sys2Proof.Machine.execBootSelfcheck ok s
  | .loadStart m v => Sys2Proof.Machine.execLoadStart m v s
  | .loadData m v => Sys2Proof.Machine.execLoadData m v s
  | .loadGo m v => Sys2Proof.Machine.execLoadGo m v s
  | .bootVerifyDone => Sys2Proof.Machine.execBootVerifyDone s
  | .wdogExpire => Sys2Proof.Machine.execWdogExpire s
  | .wdogKick m v => Sys2Proof.Machine.execWdogKick m v s
  | .starterCoreReset => Sys2Proof.Machine.execStarterCoreReset s
  | .mbxDoorbell m k v => Sys2Proof.Machine.execMbxDoorbell m k v s
  | .mspBlockWriteLow l pec => Sys2Proof.Machine.execMspBlockWriteLow l pec s
  | .mspBlockWriteHigh l pec => Sys2Proof.Machine.execMspBlockWriteHigh l pec s
  | .mspDoorbell d pec => Sys2Proof.Machine.execMspDoorbell d pec s
  | .mspStatusRead => Sys2Proof.Machine.execMspStatusRead s
  | .mspReplyReadLow => Sys2Proof.Machine.execMspReplyReadLow s
  | .mspReplyReadHigh => Sys2Proof.Machine.execMspReplyReadHigh s
  | .mspAddressMatch => Sys2Proof.Machine.execMspAddressMatch s
  | .mspStretchLimit => Sys2Proof.Machine.execMspStretchLimit s
  | .cmdPacketReceive n => Sys2Proof.Machine.execCmdPacketReceive n s
  | .cmdStart x => Sys2Proof.Machine.execCmdStart x s
  | .cmdTimeout x => Sys2Proof.Machine.execCmdTimeout x s
  | .cmdReplyReceive n => Sys2Proof.Machine.execCmdReplyReceive n s
  | .ping x => Sys2Proof.Machine.execPing x s
  | .info x => Sys2Proof.Machine.execInfo x s
  | .claimStatus x => Sys2Proof.Machine.execClaimStatus x s
  | .claimRelease x => Sys2Proof.Machine.execClaimRelease x s
  | .cfgRecompute x => Sys2Proof.Machine.execCfgRecompute x s
  | .authSet x => Sys2Proof.Machine.execAuthSet x s
  | .rsvSc0 x => Sys2Proof.Machine.execRsvSc0 x s
  | .rsvSc0Free x => Sys2Proof.Machine.execRsvSc0Free x s
  | .rsvSc1 x => Sys2Proof.Machine.execRsvSc1 x s
  | .rsvSc1Free x => Sys2Proof.Machine.execRsvSc1Free x s
  | .pwrState x => Sys2Proof.Machine.execPwrState x s
  | .pwrDvfs x => Sys2Proof.Machine.execPwrDvfs x s
  | .pwrStatus x => Sys2Proof.Machine.execPwrStatus x s
  | .pwrBudget x => Sys2Proof.Machine.execPwrBudget x s
  | .pwrPolicy x => Sys2Proof.Machine.execPwrPolicy x s
  | .pwrWake x => Sys2Proof.Machine.execPwrWake x s
  | .pwrMaskReceive n => Sys2Proof.Machine.execPwrMaskReceive n s
  | .closingCollect g => Sys2Proof.Machine.execClosingCollect g s
  | .entryLimit g => Sys2Proof.Machine.execEntryLimit g s
  | .entryCommit g => Sys2Proof.Machine.execEntryCommit g s
  | .wakeNLow => Sys2Proof.Machine.execWakeNLow s
  | .relayWakeRequest n => Sys2Proof.Machine.execRelayWakeRequest n s
  | .ppsWakeCount => Sys2Proof.Machine.execPpsWakeCount s
  | .pwrHoldTmo n q => Sys2Proof.Machine.execPwrHoldTmo n q s
  | .wakeDone g => Sys2Proof.Machine.execWakeDone g s
  | .idleGate g => Sys2Proof.Machine.execIdleGate g s
  | .idleUngate g => Sys2Proof.Machine.execIdleUngate g s
  | .fcAck g => Sys2Proof.Machine.execFcAck g s
  | .vrOk g => Sys2Proof.Machine.execVrOk g s
  | .supplyTmo g => Sys2Proof.Machine.execSupplyTmo g s
  | .governorWindow temps => Sys2Proof.Machine.execGovernorWindow temps s
  | .leaveRequest kind who => Sys2Proof.Machine.execLeaveRequest kind who s
  | .leaveGrant => Sys2Proof.Machine.execLeaveGrant s
  | .leaveReturn kind who => Sys2Proof.Machine.execLeaveReturn kind who s
  | .droopWarn g uv => Sys2Proof.Machine.execDroopWarn g uv s
  | .droopWarnClear g => Sys2Proof.Machine.execDroopWarnClear g s
  | .droopReset g uv => Sys2Proof.Machine.execDroopReset g uv s
  | .clockFault g edges => Sys2Proof.Machine.execClockFault g edges s
  | .por => Sys2Proof.Machine.execPor s
  | .hrst => Sys2Proof.Machine.execHrst s
  | .rstCtlRegion m v => Sys2Proof.Machine.execRstCtlRegion m v s
  | .rstNiGo m v => Sys2Proof.Machine.execRstNiGo m v s
  | .resetRelease ni k => Sys2Proof.Machine.execResetRelease ni k s
  | .farEndReset o => Sys2Proof.Machine.execFarEndReset o s
  | .regionRecovery g => Sys2Proof.Machine.execRegionRecovery g s
  | .startupStepDone => Sys2Proof.Machine.execStartupStepDone s
  | .fuseRead dis key => Sys2Proof.Machine.execFuseRead dis key s
  | .fuseTmo => Sys2Proof.Machine.execFuseTmo s
  | .spanTrain x => Sys2Proof.Machine.execSpanTrain x s
  | .spanDown x => Sys2Proof.Machine.execSpanDown x s
  | .spanSplit x => Sys2Proof.Machine.execSpanSplit x s
  | .spanStatus x => Sys2Proof.Machine.execSpanStatus x s
  | .trainStateDone k j classes rev rtt => Sys2Proof.Machine.execTrainStateDone k j classes rev rtt s
  | .trainStateTmo k j => Sys2Proof.Machine.execTrainStateTmo k j s
  | .spanDownRetry k j => Sys2Proof.Machine.execSpanDownRetry k j s
  | .spanFrameReceive k j f => Sys2Proof.Machine.execSpanFrameReceive k j f s
  | .spanFrameSend k j words time => Sys2Proof.Machine.execSpanFrameSend k j words time s
  | .replayTmo k j => Sys2Proof.Machine.execReplayTmo k j s
  | .laneLoss k j l signal => Sys2Proof.Machine.execLaneLoss k j l signal s
  | .laneRestore k j l => Sys2Proof.Machine.execLaneRestore k j l s
  | .fecWindow k j corr uncorr errs => Sys2Proof.Machine.execFecWindow k j corr uncorr errs s
  | .linkDownEntry k j => Sys2Proof.Machine.execLinkDownEntry k j s
  | .spanForward k src vc e => Sys2Proof.Machine.execSpanForward k src vc e s
  | .spanStall k j vc xb => Sys2Proof.Machine.execSpanStall k j vc xb s
  | .causeSet k j bit => Sys2Proof.Machine.execCauseSet k j bit s
  | .firstLogClr m v => Sys2Proof.Machine.execFirstLogClr m v s
  | .nextLogClr m v => Sys2Proof.Machine.execNextLogClr m v s
  | .crcPassStart => Sys2Proof.Machine.execCrcPassStart s
  | .crcPassEnd => Sys2Proof.Machine.execCrcPassEnd s
  | .crcCommitTake m v => Sys2Proof.Machine.execCrcCommitTake m v s
  | .crcCommitGiven m v => Sys2Proof.Machine.execCrcCommitGiven m v s
  | .tapIdcode => Sys2Proof.Machine.execTapIdcode s
  | .tapBypass => Sys2Proof.Machine.execTapBypass s
  | .dbgAcc w => Sys2Proof.Machine.execDbgAcc w s
  | .traceRd => Sys2Proof.Machine.execTraceRd s
  | .tapReset => Sys2Proof.Machine.execTapReset s
  | .trcEnWrite m v => Sys2Proof.Machine.execTrcEnWrite m v s
  | .trcStartEvent t rise => Sys2Proof.Machine.execTrcStartEvent t rise s
  | .testModeWrite m v => Sys2Proof.Machine.execTestModeWrite m v s
  | .strRstWrite m v => Sys2Proof.Machine.execStrRstWrite m v s
  | .bistDone fail => Sys2Proof.Machine.execBistDone fail s
  | .dbgStatus x => Sys2Proof.Machine.execDbgStatus x s
  | .trcStart x => Sys2Proof.Machine.execTrcStart x s
  | .trcStop x => Sys2Proof.Machine.execTrcStop x s
  | .testEnter x => Sys2Proof.Machine.execTestEnter x s
  | .testExit x => Sys2Proof.Machine.execTestExit x s
  | .hcRstDeassert => Sys2Proof.Machine.execHcRstDeassert s
  | .porHrstDeassert => Sys2Proof.Machine.execPorHrstDeassert s
  | .pfArmLeaveTmo slot => Sys2Proof.Machine.execPfArmLeaveTmo slot s

end Sys2Proof.Machine
end

