-- ==== Sys2Proof/Machine/Idle.lean ====
section
/-! DEFINITION. What passes while no command waits: one cycle of the Time carrier (R288, R290, R292) and the end of entry
windows (R514). -/

namespace Sys2Proof.Machine

/-- One carrier cycle: the root's Fabric Time advances by the increment in force, and the 1,024th cycle sends a marker. Without
the carrier only time passes. [DESIGN CHOICE: log 2, 6] -/
def State.tick (s : State) : State :=
  if s.time.carrier = false then { s with clock := s.clock + 1 }
  else if 1023 ≤ s.time.tc then s.marker
  else
    let t : TimeSt := { s.time with ft := s.time.ft + s.rd64 timB F.TIM_INC_LO_INC F.TIM_INC_HI_INC, tc := s.time.tc + 1 }
    { s with time := t, clock := s.clock + 1 }

/-- What an empty queue brings: one carrier cycle, and the arrival of the entries that it takes to edge Q + 5 (R514).
[DESIGN CHOICE: log 2, 6] -/
def State.idle (s : State) : State := s.tick.land 250

end Sys2Proof.Machine
end

