-- ==== Sys2Proof/Safety.lean ====
section
/-! DEFINITION. What a safe run is, in the terms that statements use: what a command leaves unchanged, when a command row
is in execution, when a register write goes through, and the canonical form of the block's memories. -/

namespace Sys2Proof.Machine

/-- A run that stops at neither a fault nor a refusal. -/
def safeRun : Nat → State → Prop
  | 0, _ => True
  | k + 1, s => ∃ t, step s = .next t ∧ safeRun k t

/-- Everything but the register words and the network interfaces is as before. -/
def sameElse (s t : State) : Prop := { t with csr := s.csr, nis := s.nis } = s

/-- Every register word outside `offs` is as before. -/
def sameWords (s t : State) (offs : List Nat) : Prop := ∀ o, o ∉ offs → t.word o = s.word o

/-- Every network interface outside `ns` is as before. -/
def sameNis (s t : State) (ns : List Nat) : Prop := ∀ m, m ∉ ns → t.ni m = s.ni m

/-- Only what NI `n` holds outside its registers has changed. -/
def onlyNi (n : Nat) (s t : State) : Prop := { t with nis := s.nis } = s ∧ sameNis s t [n]

/-- Only the register words of `offs` have changed. -/
def onlyWords (offs : List Nat) (s t : State) : Prop := { t with csr := s.csr } = s ∧ sameWords s t offs

/-- The canonical form of a memory of bytes: addresses strictly rising, no entry equal to the 0 that an unlisted byte reads
as. -/
def Memory.wf (m : Map Byte) : Bool := mwf (fun _ => 0) m

/-- Command `x` is in execution under opcode `op`, has not begun, has its turn on its object (R491), and has only the parameter bits
of `fs` set. -/
abbrev State.Issued (s : State) (x op : Nat) (fs : List (Nat × Nat)) (c : Cmd) : Prop :=
  s.cmd x = some c ∧ c.op = op ∧ c.begun = false ∧ s.turn c = true ∧ c.only fs = true

/-- Master `m` can present an access, and nothing else is in the Control Matrix or waits for a place there. -/
abbrev State.CmxFree (s : State) (m : Nat) : Prop :=
  m ≤ 5 ∧ s.mayPresent m = true ∧ s.cmx.acs = [] ∧ s.cmx.owed = [] ∧ ∀ n, (s.ni n).mgmtIn = []

/-- A 4-byte write of `v` at `rel` of unit `u`, as a master puts it to the Control Matrix. -/
abbrev wreq (u : Un) (rel v : Nat) : CsrReq := { addr := u.base + rel, wr := true, size := 2, data := BitVec.ofNat 64 v }

/-- Access `q` of master `m` to target `t`, the only one in the Control Matrix, has its grant: it takes the next serial number, and
the master goes to the end of the target's rotation list (R455). -/
def State.atTarget (s : State) (m t : Nat) (q : CsrReq) : State :=
  s.updCmx (fun c => { c with
    next := c.next + 1
    acs := [{ ser := c.next, m := m, mg := none, req := q, tgt := t, gr := some s.clock }]
    rots := mset (fun _ => List.range 6) c.rots t ((s.cmxRot t).filter (fun k => k != m) ++ [m]) })

/-- The access in the Control Matrix has the response `code` and the lock-break mark `lb`, which go to its master (R447, R470). -/
def State.responded (s : State) (code : Nat) (lb : Bool) : State :=
  (s.updCmx (fun c => { c with acs := c.acs.map (fun a => { a with rsp := some (0, code, lb) }) })).flushCmx

/-- A write by master `m` has its grant at the register at `rel` of unit `u`: the unit exists, the master reaches it, no lock,
cut-off or staged word stands in the way, and it is awake (R446, R453, R465, R618). -/
abbrev State.Reaches (s : State) (m : Nat) (u : Un) (rel : Nat) : Prop :=
  s.CmxFree m ∧ m ∈ s.cmxRot u.target ∧ (m = 1 → s.flag strB F.STR_CMX_LOCK_LOCK = false) ∧ unitOf s.rom (u.base + rel) = some u
  ∧ s.reaches m u (wreq u rel 0) = true ∧ s.lockOf u.target = none ∧ (m, u.target) ∉ s.cmx.cuts
  ∧ s.asleep u = false ∧ mget (fun _ => none) s.cmx.stage (mtKey m u.target) = none
  ∧ ((u.kind = .dbg ∨ u.kind = .trc) → s.dbgDis = false) ∧ regAt u rel = true ∧ u.kind ≠ .trc

/-- A 4-byte write of `v` is performed there: no field refuses it, and the register is not the low word of a pair. -/
abbrev State.Goes (s : State) (m : Nat) (u : Un) (rel v : Nat) : Prop :=
  s.Reaches m u rel ∧ v < 2 ^ 32 ∧ rel % 4 = 0 ∧ pairAt u rel = false ∧ s.absent u rel = false
  ∧ (s.atTarget m u.target (wreq u rel v)).refuses m u [(rel, v)] = false

/-- The state after that write: it has its grant, the register takes its fields, the write does what the register does, and the
master has its response. -/
def State.wrote (s : State) (m : Nat) (u : Un) (rel v : Nat) : State :=
  let g := s.atTarget m u.target (wreq u rel v)
  ((g.putReg m u rel v).acted m u rel v (g.view u rel).toNat).responded 0 (s.cmx.brk.contains u.target)

/-- The operation that a request on row `op` asks for: an undefined code of the operand stands for itself (R73). -/
def opOf (op : Nat) (q : AqReq) : Nat := if 12 ≤ q.code.toNat then q.code.toNat else op

/-- Request `q` of operation `op` transfers at AQI of NI `n` and passes checks 1 to 5 of R668, toward `d` for slice `sl`: the NI
is ready, no request with its ID and destination stands in another class, and no data has come ahead of it. -/
abbrev State.Checked (s : State) (n op : Nat) (q : AqReq) (sl : Nat) (d : Dst) : Prop :=
  q.code.toNat < 12 ∧ q.soft = [] ∧ s.hasNi n = true ∧ s.niOpen n = true ∧ s.cvtReady n false = true ∧ s.tagFree n = true
  ∧ s.tagShare n sl = true ∧ s.reqCheck n op q = .ok (sl, d)
  ∧ (s.ni n).tags.all (fun e => match e.2 with
      | some g => g.evd || g.id != q.id.toNat || g.dkey != d.key || g.sc == q.sc.toNat
      | none => true) = true
  ∧ ∀ b ∈ (s.ni n).ahead, b.sc ≠ q.sc

/-- The packets of request `q` toward `d`: one per leg, or one for a group (R129, R188). -/
def State.packetsOf (s : State) (n op : Nat) (q : AqReq) (sl : Nat) (d : Dst) : List Qp :=
  (match d.grp with
    | some _ => d.legs.take 1
    | none => d.legs).map (legQp op q (s.gapsOf n q.sc.toNat (d.legs.map (fun (l : Leg) => l.e))) sl (s.ni n).freeTagNo
      ((s.ni n).gen (s.ni n).freeTagNo) (s.ni n).nextSer d false ((s.ni n).overlapped op q.addr.toNat (opSpan op q.len.toNat))
      (s.flag (niB n) F.NI_EP_CFG_ORIG_EN) s.clock)

/-- It also passes admission on every leg (check 6), stays out of the store buffer, and its packets `ps` find room in its queue. -/
abbrev State.Admits (s : State) (n op : Nat) (q : AqReq) (sl : Nat) (d : Dst) (ps : List Qp) : Prop :=
  s.Checked n op q sl d ∧ s.sbEnters n op q.sc.toNat d = false ∧ d.legs.isEmpty = false
  ∧ (s.judgeLegs n op q.sc.toNat d q.now).all (fun j => j.2.isNone) = true
  ∧ (q.sc = 1 → s.sc1Ok n q.qsel.toNat = true) ∧ (2 ≤ q.sc.toNat → s.quarAt n = false)
  ∧ ps = s.packetsOf n op q sl d ∧ (∀ w ∈ (s.ni n).cvt, w.st = true)
  ∧ s.roomFor n q.qsel.toNat (ps.headD default).slice (ps.headD default).sc
      (Wait.flits { st := false, q := q.qsel.toNat, qps := ps }) = true

/-- `t` is `s` with that request in its tag and its order, its packets at the end of its queue, and its write data expected. -/
def TakenInto (n op : Nat) (q : AqReq) (sl : Nat) (d : Dst) (ps : List Qp) (s t : State) : Prop :=
  (∃ g, (t.ni n).tag (s.ni n).freeTagNo = some g ∧ g.ser = (s.ni n).nextSer ∧ g.id = q.id.toNat ∧ g.code = op
    ∧ g.sc = q.sc.toNat ∧ g.slice = sl ∧ g.addr = q.addr.toNat ∧ g.len = q.len.toNat ∧ g.dkey = d.key ∧ g.cto = d.cto
    ∧ g.nqueued = ps.length)
  ∧ (t.ni n).ord = (s.ni n).ord ++ [{ ser := (s.ni n).nextSer, id := q.id.toNat, key := d.key }]
  ∧ ((t.ni n).q q.qsel.toNat).pkts = ((s.ni n).q q.qsel.toNat).pkts ++ ps
  ∧ (t.ni n).wq.length = (s.ni n).wq.length + (if opData op then 1 else 0)
  ∧ (t.ni n).cvt = (s.ni n).cvt ∧ onlyNi n s t

/-- The key under which a request that a check refuses is ordered (R70). -/
def State.orderKey (s : State) (n op : Nat) (q : AqReq) : Nat :=
  ((s.softView n q.dest.toNat q.soft).refusedKey n op q).getD (2 ^ 22 + (s.ni n).nextSer)

/-- Request `q` of operation `op` transfers at AQI of NI `n`, one of checks 1 to 5 refuses it with `st`, and no earlier request of
its ID and destination is owed its response. -/
abbrev State.Refuses (s : State) (n op : Nat) (q : AqReq) (st : Nat) : Prop :=
  s.hasNi n = true ∧ s.niOpen n = true ∧ s.cvtReady n false = true ∧ s.tagFree n = true
  ∧ (∀ sl, (s.softView n q.dest.toNat q.soft).sliceOf n q.pid.toNat = some sl → s.tagShare n sl = true)
  ∧ (s.softView n q.dest.toNat q.soft).reqCheck n op q = .error st
  ∧ (s.ni n).tags.all (fun e => match e.2 with
      | some g => g.evd || g.id != q.id.toNat || g.dkey != s.orderKey n op q || g.sc == q.sc.toNat
      | none => true) = true
  ∧ (∀ o ∈ (s.ni n).ord, o.id = q.id.toNat → o.key ≠ s.orderKey n op q) ∧ ∀ b ∈ (s.ni n).ahead, b.sc ≠ q.sc

/-- `t` has answered that request with `st` and freed its tag; no packet of it is queued. -/
def AnsweredAtOnce (n : Nat) (q : AqReq) (st : Nat) (s t : State) : Prop :=
  (∃ e ∈ (t.ni n).rpq, e.id = q.id.toNat ∧ e.status = st ∧ e.pk = 0)
  ∧ (t.ni n).tag (s.ni n).freeTagNo = none
  ∧ (t.ni n).gen (s.ni n).freeTagNo = ((s.ni n).gen (s.ni n).freeTagNo + 1) % 8
  ∧ (t.ni n).qs = (s.ni n).qs ∧ (t.ni n).cvt = (s.ni n).cvt ∧ sameNis s t [n]

/-- `t` is `s` with a barrier of slice `sl` in its tag, its order and the row of waiting barriers. -/
def BarrierWaits (n : Nat) (q : AqReq) (sl : Nat) (complete : Bool) (s t : State) : Prop :=
  (t.ni n).bars = (s.ni n).bars ++ [{ ser := (s.ni n).nextSer, id := (s.ni n).freeTagNo, sc := q.sc.toNat, complete := complete }]
  ∧ (t.ni n).ord = (s.ni n).ord ++ [{ ser := (s.ni n).nextSer, id := q.id.toNat, key := 2 ^ 22 + (s.ni n).nextSer }]
  ∧ (∃ g, (t.ni n).tag (s.ni n).freeTagNo = some g ∧ g.id = q.id.toNat ∧ g.slice = sl)
  ∧ (t.ni n).qs = (s.ni n).qs ∧ onlyNi n s t

/-- The unit of NI `n`. -/
def niUnit (n : Nat) : Un := { kind := .ni, i := n, base := niB n, target := 16 + n }

end Sys2Proof.Machine
end

