-- ==== Sys2Proof/Certificates/Slice0/Obligations.lean ====
section
/-! DEFINITION. The statements for the provers. -/

open Sys2Proof Sys2Proof.Machine

/-- Requests and barriers at AQI take the lowest free tag and join their order; a refused one is answered at its NI; one that the NI does not take changes nothing.

Requests (R67, R73, R249, R253): one that transfers and passes every check of R668 takes the lowest free tag, joins the
order of its AQI, and queues one packet per leg, or one for a group, in the injection queue that it names; nothing else
changes.

Requests that a check refuses (R68, R81, R593, R668): each takes a tag, is answered at its NI with the status of the first
check that fails, and its tag is free with the next generation; nothing of it enters a queue.

AQI_READY and STI_READY (R60, R63, R67): a request, a barrier or a stream packet that the NI does not take changes nothing.

A write that enters the store buffer (R199, R200): it takes the lowest free tag, expects its data, and its packets go to the end of
the queue that it names, or behind the requests that wait for admission, holding no flits of the queue.

Barriers (R204, R205): each takes the lowest free tag and waits in order; nothing else changes. One whose process has no open
slice is answered SLICE_UNMAPPED (R90). -/
def Obligations.RequestsAndBarriersTakeTags : Prop :=
  (∀ (s : State) (n : Nat) (q : AqReq) (sl : Nat) (d : Dst) (ps : List Qp),
      (s.Admits n 0 q sl d ps → ∃ t, exec (.opRead n q) s = .next t ∧ TakenInto n 0 q sl d ps s t)
      ∧ (s.Admits n 1 q sl d ps → ∃ t, exec (.opWrite n q) s = .next t ∧ TakenInto n 1 q sl d ps s t)
      ∧ (s.Admits n 2 q sl d ps → ∃ t, exec (.opReservedLoad n q) s = .next t ∧ TakenInto n 2 q sl d ps s t)
      ∧ (s.Admits n 3 q sl d ps → ∃ t, exec (.opCondStore n q) s = .next t ∧ TakenInto n 3 q sl d ps s t)
      ∧ (s.Admits n 4 q sl d ps → ∃ t, exec (.opAtomicSwap n q) s = .next t ∧ TakenInto n 4 q sl d ps s t)
      ∧ (s.Admits n 5 q sl d ps → ∃ t, exec (.opAtomicAdd n q) s = .next t ∧ TakenInto n 5 q sl d ps s t)
      ∧ (s.Admits n 6 q sl d ps → ∃ t, exec (.opAtomicCas n q) s = .next t ∧ TakenInto n 6 q sl d ps s t)
      ∧ (s.Admits n 9 q sl d ps → ∃ t, exec (.opHandleAlloc n q) s = .next t ∧ TakenInto n 9 q sl d ps s t)
      ∧ (s.Admits n 10 q sl d ps → ∃ t, exec (.opHandleFree n q) s = .next t ∧ TakenInto n 10 q sl d ps s t)
      ∧ (s.Admits n 11 q sl d ps → ∃ t, exec (.opCommand n q) s = .next t ∧ TakenInto n 11 q sl d ps s t))
  ∧ (∀ (s : State) (n : Nat) (q : AqReq) (st : Nat),
      (s.Refuses n (opOf 0 q) q st → ∃ t, exec (.opRead n q) s = .next t ∧ AnsweredAtOnce n q st s t)
      ∧ (s.Refuses n (opOf 1 q) q st → ∃ t, exec (.opWrite n q) s = .next t ∧ AnsweredAtOnce n q st s t)
      ∧ (s.Refuses n (opOf 2 q) q st → ∃ t, exec (.opReservedLoad n q) s = .next t ∧ AnsweredAtOnce n q st s t)
      ∧ (s.Refuses n (opOf 3 q) q st → ∃ t, exec (.opCondStore n q) s = .next t ∧ AnsweredAtOnce n q st s t)
      ∧ (s.Refuses n (opOf 4 q) q st → ∃ t, exec (.opAtomicSwap n q) s = .next t ∧ AnsweredAtOnce n q st s t)
      ∧ (s.Refuses n (opOf 5 q) q st → ∃ t, exec (.opAtomicAdd n q) s = .next t ∧ AnsweredAtOnce n q st s t)
      ∧ (s.Refuses n (opOf 6 q) q st → ∃ t, exec (.opAtomicCas n q) s = .next t ∧ AnsweredAtOnce n q st s t)
      ∧ (s.Refuses n (opOf 9 q) q st → ∃ t, exec (.opHandleAlloc n q) s = .next t ∧ AnsweredAtOnce n q st s t)
      ∧ (s.Refuses n (opOf 10 q) q st → ∃ t, exec (.opHandleFree n q) s = .next t ∧ AnsweredAtOnce n q st s t)
      ∧ (s.Refuses n (opOf 11 q) q st → ∃ t, exec (.opCommand n q) s = .next t ∧ AnsweredAtOnce n q st s t))
  ∧ (∀ (s : State) (n : Nat) (q : AqReq) (p : StPkt), s.hasNi n = true →
      ((s.niOpen n = false ∨ s.cvtReady n false = false ∨ s.tagFree n = false) →
        exec (.opRead n q) s = .next s
        ∧ exec (.opWrite n q) s = .next s
        ∧ exec (.opReservedLoad n q) s = .next s
        ∧ exec (.opCondStore n q) s = .next s
        ∧ exec (.opAtomicSwap n q) s = .next s
        ∧ exec (.opAtomicAdd n q) s = .next s
        ∧ exec (.opAtomicCas n q) s = .next s
        ∧ exec (.opHandleAlloc n q) s = .next s
        ∧ exec (.opHandleFree n q) s = .next s
        ∧ exec (.opCommand n q) s = .next s
        ∧ exec (.opBarrierOrder n q) s = .next s
        ∧ exec (.opBarrierComplete n q) s = .next s)
      ∧ ((s.niOpen n = false ∨ s.cvtReady n true = false) → exec (.stiPacket n p) s = .next s))
  ∧ (∀ (s : State) (n : Nat) (q : AqReq) (sl : Nat) (d : Dst), s.Checked n 1 q sl d → s.sbEnters n 1 q.sc.toNat d = true →
      (s.ni n).sbSers.length < 32 → (s.ni n).sbBytes + q.len.toNat ≤ 32768 → s.quarAt n = false → d.legs.isEmpty = false →
      ∃ t, exec (.opWrite n q) s = .next t
        ∧ (∃ g, (t.ni n).tag (s.ni n).freeTagNo = some g ∧ g.sb = true ∧ g.ser = (s.ni n).nextSer ∧ g.id = q.id.toNat
          ∧ g.addr = q.addr.toNat ∧ g.len = q.len.toNat)
        ∧ (∃ ps : List Qp, ps ≠ [] ∧ (∀ p ∈ ps, p.sb = true ∧ p.occ = 0 ∧ p.ready = false ∧ p.ser = (s.ni n).nextSer)
          ∧ ((∀ w ∈ (s.ni n).cvt, w.st = true) → (t.ni n).cvt = (s.ni n).cvt
            ∧ ((t.ni n).q q.qsel.toNat).pkts = ((s.ni n).q q.qsel.toNat).pkts ++ ps)
          ∧ ((∃ w ∈ (s.ni n).cvt, w.st = false) → (t.ni n).qs = (s.ni n).qs
            ∧ (t.ni n).cvt = (s.ni n).cvt ++ [{ st := false, q := q.qsel.toNat, qps := ps }]))
        ∧ (t.ni n).wq.length = (s.ni n).wq.length + 1 ∧ onlyNi n s t)
  ∧ (∀ (s : State) (n : Nat) (q : AqReq), s.hasNi n = true → s.niOpen n = true → s.cvtReady n false = true → s.tagFree n = true →
      q.soft = [] → q.code.toNat < 12 → (∀ o ∈ (s.ni n).ord, o.id = q.id.toNat → o.key ≠ 2 ^ 22 + (s.ni n).nextSer) →
      (∀ sl, s.sliceOf n q.pid.toNat = some sl → s.tagShare n sl = true →
        (∃ t, exec (.opBarrierOrder n q) s = .next t ∧ BarrierWaits n q sl false s t)
        ∧ (∃ t, exec (.opBarrierComplete n q) s = .next t ∧ BarrierWaits n q sl true s t))
      ∧ (s.sliceOf n q.pid.toNat = none →
        (∃ t, exec (.opBarrierOrder n q) s = .next t ∧ (t.ni n).bars = (s.ni n).bars
          ∧ ∃ e ∈ (t.ni n).rpq, e.id = q.id.toNat ∧ e.status = 0x0F)
        ∧ (∃ t, exec (.opBarrierComplete n q) s = .next t ∧ (t.ni n).bars = (s.ni n).bars
          ∧ ∃ e ∈ (t.ni n).rpq, e.id = q.id.toNat ∧ e.status = 0x0F)))

/-- Write data, stream packets and waiting packets reach their queues.

Write data (R62, R72): a beat that WQI does not take changes nothing; one ahead of its address is kept; one within its request adds
the bytes of its lanes; the last one gives the request's packets their payload; where WQI_LAST comes early or late the request ends
UNSUPPORTED_OP and EP_STAT.PROTO is set; beats of a request that is answered already are discarded.

A stream packet that R668's checks and admission pass is offered to its queue with its payload (R87, R253); the first that a
check refuses is dropped and counted (R88).

A waiting packet enters the end of its queue as soon as depth, flits and share allow, or at once where it is a store of the store
buffer (R199, R252, R253); until then, and with none waiting, nothing changes. -/
def Obligations.WriteDataStreamsAndWaitersQueue : Prop :=
  (∀ (s : State) (n : Nat) (b : WBeat), s.hasNi n = true →
      (((s.ni n).up = false ∨ s.wqReady n b = false) → exec (.wqiData n b) s = .next s)
      ∧ ((s.ni n).up = true → s.wqReady n b = true →
        ((s.ni n).wq.find? (fun w => w.sc == b.sc.toNat) = none →
          exec (.wqiData n b) s = .next (s.setNi n { s.ni n with ahead := (s.ni n).ahead ++ [b] }))
        ∧ ∀ (w : WqExp) (want : Nat) (a : State × List Byte) (gone more : NiSt),
          (s.ni n).wq.find? (fun w => w.sc == b.sc.toNat) = some w →
          want = cdiv (w.addr % beatBytes s.rom n + w.len) (beatBytes s.rom n) →
          a = beatData s ((((b.lanes ++ List.replicate (beatBytes s.rom n) none).take (beatBytes s.rom n)).drop
            (if w.beats = 0 then w.addr % beatBytes s.rom n else 0)).take (w.len - w.got.length)) →
          gone = { s.ni n with wq := (s.ni n).wq.erase w } →
          more = { s.ni n with wq := (s.ni n).wq.map (fun u => if u = w then { w with beats := w.beats + 1, discard := true, answered := true } else u) } →
          (w.discard = false → b.last = true → w.beats + 1 = want →
            exec (.wqiData n b) s = .next (a.1.setNi n (gone.dataDone w a.1.clock (w.got ++ a.2))))
          ∧ (w.discard = false → b.last = false → w.beats + 1 ≠ want →
            exec (.wqiData n b) s = .next (a.1.setNi n { s.ni n with
              wq := (s.ni n).wq.map (fun u => if u = w then { w with beats := w.beats + 1, got := w.got ++ a.2 } else u) }))
          ∧ (w.discard = false → b.last = true → w.beats + 1 ≠ want →
            exec (.wqiData n b) s = .next ((a.1.setNi n (gone.dataBad (bigSched s.rom n) w)).wr (niB n) F.NI_EP_STAT_PROTO 1))
          ∧ (w.discard = false → b.last = false → w.beats + 1 = want →
            exec (.wqiData n b) s = .next ((a.1.setNi n (more.dataBad (bigSched s.rom n) w)).wr (niB n) F.NI_EP_STAT_PROTO 1))
          ∧ (w.discard = true → b.last = false → exec (.wqiData n b) s = .next (s.setNi n { s.ni n with
              wq := (s.ni n).wq.map (fun u => if u = w then { w with beats := w.beats + 1 } else u) }))
          ∧ (w.discard = true → b.last = true → (w.beats + 1 = want ∨ w.answered = true) →
            exec (.wqiData n b) s = .next (s.setNi n gone))
          ∧ (w.discard = true → b.last = true → w.beats + 1 ≠ want → w.answered = false →
            exec (.wqiData n b) s = .next ((s.setNi n gone).wr (niB n) F.NI_EP_STAT_PROTO 1))))
  ∧ (∀ (s : State) (n : Nat) (p : StPkt), s.hasNi n = true → s.niOpen n = true → s.cvtReady n true = true → p.soft = [] →
      (∀ (sl : Nat) (d : Dst) (a : State × List Byte), s.stCheck n p = some (sl, d) → d.legs.isEmpty = false →
        (d.legs.all (fun l => match l.e with
          | none => false
          | some e => p.sc != 0 || (s.partCheck n e [flitsOf p.len.toNat] p.now).isNone)) = true →
        (p.sc = 1 → s.sc1Ok n p.qsel.toNat = true) → (2 ≤ p.sc.toNat → s.quarAt n = false) →
        a = fillData s p.data p.len.toNat →
        ∃ qp : Qp, exec (.stiPacket n p) s = .next ((a.1.setNi n { s.ni n with nextSer := (s.ni n).nextSer + 1 }).offer n
            { st := true, q := p.qsel.toNat, qps := [qp] })
          ∧ qp.ptype = 2 ∧ qp.vn = 2 ∧ qp.sc = p.sc.toNat ∧ qp.len = p.len.toNat ∧ qp.slice = sl ∧ qp.grp = d.grp
          ∧ qp.payload = a.2 ∧ qp.f = flitsOf p.len.toNat
          ∧ ∃ l ∈ d.legs, qp.dest = l.dest ∧ l.e = some qp.e)
      ∧ (s.stCheck n p = none → exec (.stiPacket n p) s = .next (s.streamDrop n)))
  ∧ (∀ (s : State) (n : Nat) (st : Bool), s.hasNi n = true →
      ((s.ni n).cvt.find? (fun w => w.st == st) = none → exec (.packetAdmit n st) s = .next s)
      ∧ ∀ (w : Wait) (p : Qp) (r : List Qp), (s.ni n).cvt.find? (fun w => w.st == st) = some w → w.qps = p :: r →
        ((p.sb = true ∨ s.roomFor n w.q p.slice p.sc w.flits = true) → (∃ t : State, exec (.packetAdmit n st) s = .next t ∧ (t.ni n).cvt = (s.ni n).cvt.erase w ∧ ((t.ni n).q w.q).pkts = ((s.ni n).q w.q).pkts ++ w.qps
          ∧ (∀ j, j ≠ w.q → (t.ni n).q j = (s.ni n).q j) ∧ onlyNi n s t))
        ∧ (p.sb = false → s.roomFor n w.q p.slice p.sc w.flits = false → exec (.packetAdmit n st) s = .next s))

/-- The endpoint port's events, and its reset.

The endpoint's events and port. An event at SBI is queued while fewer than 4 are, counted in EVT_OVF once 4 are, and not taken with
NI_UP low; the NI takes the oldest one and raises EP_EVENT (R95). EP_RST_N goes high (R96). NI_UP rises exactly where nothing holds it low
(R98, R386). A half with a beat VALID past the stall limit is counted once, that beat stands, and EP_STAT.STALL is set (R57, R103).

EP_RST_N goes low: NI_UP falls, no request, data, stream packet or response waits for the endpoint any more, nor is write data expected of it, its
reservations and those that its node holds at other NIs are cleared (R218), and EP_STAT.EPRST is set (R96, R97); where it is low
already, nothing changes. -/
def Obligations.EndpointEventsAndReset : Prop :=
  (∀ (s : State) (n : Nat), s.hasNi n = true →
      (∀ code, ((s.ni n).up = true → (s.ni n).evq.length < 4 →
          exec (.sbiEvt n code) s = .next (s.setNi n { s.ni n with evq := (s.ni n).evq ++ [code] }))
        ∧ ((s.ni n).up = true → 4 ≤ (s.ni n).evq.length →
          exec (.sbiEvt n code) s = .next (s.count (niB n) F.NI_EP_EVT_OVF_COUNT 1))
        ∧ ((s.ni n).up = false → exec (.sbiEvt n code) s = .next s))
      ∧ (∀ e r, (s.ni n).evq = e :: r → exec (.epEventTake n) s = .next ((s.setNi n { s.ni n with evq := r }).notice n 0))
      ∧ ((s.ni n).evq = [] → exec (.epEventTake n) s = .next s)
      ∧ exec (.epRstDeassert n) s = .next (s.setNi n { s.ni n with epLow := false })
      ∧ ((s.ni n).mayRise = true → s.replayDue n = false → s.rgOpen (niRec s.rom n).region = true →
          exec (.niUpRise n) s = .next (s.setNi n { s.ni n with up := true }))
      ∧ (((s.ni n).mayRise = false ∨ s.replayDue n = true ∨ s.rgOpen (niRec s.rom n).region = false) →
          exec (.niUpRise n) s = .next s)
      ∧ (∀ half : Nat, half < 4 →
        (∀ (k : Nat) (x : NiSt), s.rd (niB n) F.NI_EP_CFG_STALL_EXP ≠ 0 → (s.ni n).up = true → (s.ni n).stood half = none →
          s.shown n half = some k → x = (s.ni n).moved half → exec (.stallLimitExpire n half) s =
            .next (((s.setNi n { x.begin half k with stalls := x.stalls ++ [(half, k)] }).count (niB n) F.NI_EP_STALL_CNT_COUNT 1).wr
              (niB n) F.NI_EP_STAT_STALL 1))
        ∧ ((s.rd (niB n) F.NI_EP_CFG_STALL_EXP = 0 ∨ (s.ni n).up = false ∨ (s.ni n).stood half ≠ none ∨ s.shown n half = none) →
          exec (.stallLimitExpire n half) s = .next s)))
  ∧ (∀ (s : State) (n : Nat), s.hasNi n = true →
      ((s.ni n).epLow = true → exec (.epRstAssert n) s = .next s)
      ∧ ((s.ni n).epLow = false → (∃ t : State, exec (.epRstAssert n) s = .next t ∧ (t.ni n).up = false ∧ (t.ni n).epLow = true ∧ (t.ni n).rsvs = [] ∧ (t.ni n).aqq = [] ∧ (t.ni n).wqq = []
        ∧ (t.ni n).stq = [] ∧ (t.ni n).rpq = [] ∧ (t.ni n).wq = [] ∧ (t.ni n).ahead = [] ∧ (t.ni n).ord = []
        ∧ t.flag (niB n) F.NI_EP_STAT_EPRST = true
        ∧ (∀ m, m < s.rom.nis.length → ∀ r ∈ (t.ni m).rsvs, r.node ≠ s.nodeId n))))

/-- Requests and barriers end, by a response or a timeout, and their tags are freed.

A completion timeout (R82, R209, R210, R211): a load, or a piece of a split request, ends TIMEOUT; a store is logged and ends
BARRIER_FAULT or TIMEOUT as the store log's rule says; the piece is forgotten, and the tag of a request that is not split is free.
With no piece outstanding nothing changes.

The first barrier whose condition holds is answered (R206, R207, R669): OKAY, or for COMPLETE the fault or the store
error that it reports and clears. One from before an endpoint reset ends without an answer (R97), and what it would have reported stays
for the next (log entry 134). While the first one's condition does not hold, or none waits, nothing changes.

A response that matches a request by TAG and GEN ends it with the status that it carries, its data kept for RPE (R68,
R70); one of a split request ends one piece of it (R83 to R85); one whose request an endpoint reset has cut off frees its tag and no more
(R97); one that matches none is dropped and counted; a command's reply ends OP_COMMAND with OKAY (R494). With none here nothing
changes.

A finished request frees its tag at once, with the next generation (R67, R68). It is answered on RPE with its ID, class and
status unless an earlier request of its ID and destination is owed its own; then it waits (R70, R71). -/
def Obligations.RequestsEndOnce : Prop :=
  ((∀ (s : State) (n tag part : Nat), s.hasNi n = true →
      (∀ g p, (s.ni n).tag tag = some g → g.parts[if g.split then part else 0]? = some p → p.pieces.isEmpty = true) →
      exec (.ctoExpire n tag part) s = .next s)
    ∧ ∀ (s v : State) (n tag part k : Nat) (g : Tag) (p : Part) (a : State × Nat), s.hasNi n = true → (s.ni n).tag tag = some g →
      k = (if g.split then part else 0) → g.parts[k]? = some p → p.pieces.isEmpty = false →
      v = (s.count (niB n) F.NI_CTO_CNT_COUNT 1).alert n (if g.store then 5 else 6) →
      a = (if g.store then v.dropStore n g else (v, 0x0C)) →
      exec (.ctoExpire n tag part) s = .next ((if a.2 = 0x0B ∧ g.sb = false ∧ g.split = false ∧ g.preRst = false then
          a.1.wr (niB n) F.NI_ORD_STAT_BFAULT 1 else a.1).updNi n (fun x =>
          (x.setTag tag (some { g with parts := listSet g.parts k (fun p => { p with pieces := p.pieces.drop 1 }) })).endPiece tag k
            (if g.split then 0x0C else a.2)))
        ∧ (g.store = false → a.2 = 0x0C) ∧ (g.store = true → a.2 = 0x0B ∨ a.2 = 0x0C)
        ∧ (g.split = false → ∃ u, exec (.ctoExpire n tag part) s = .next u ∧ (u.ni n).tag tag = none))
  ∧ (∀ (s : State) (n : Nat), s.hasNi n = true →
      ((s.ni n).bars = [] → exec (.barrierDone n) s = .next s)
      ∧ ∀ (b : Bar) (r : List Bar), (s.ni n).bars = b :: r →
        ((s.ni n).barMet b = false → exec (.barrierDone n) s = .next s)
        ∧ ((s.ni n).barMet b = true → ((s.ni n).tag b.id).any (fun g => g.preRst) = false →
          (b.complete = false →
            exec (.barrierDone n) s = .next (s.setNi n ({ s.ni n with bars := r }.finish b.id 0 0)))
          ∧ (b.complete = true → (b.fault || (s.ni n).bfPend) = true →
            exec (.barrierDone n) s = .next ((s.setNi n ({ s.ni n with bars := r, bfPend := false }.finish b.id 0x0B 0)).wr
              (niB n) F.NI_ORD_STAT_BFAULT 1))
          ∧ (b.complete = true → (b.fault || (s.ni n).bfPend) = false → s.flag (niB n) F.NI_ORD_STAT_SB_ERR = true →
            exec (.barrierDone n) s = .next ((s.setNi n ({ s.ni n with bars := r, bfPend := false }.finish b.id 0x08 0)).wr
              (niB n) F.NI_ORD_STAT_SB_ERR 0))
          ∧ (b.complete = true → (b.fault || (s.ni n).bfPend) = false → s.flag (niB n) F.NI_ORD_STAT_SB_ERR = false →
            exec (.barrierDone n) s = .next (s.setNi n ({ s.ni n with bars := r, bfPend := false }.finish b.id 0 0))))
        ∧ ((s.ni n).barMet b = true → ((s.ni n).tag b.id).any (fun g => g.preRst) = true →
          (∃ t : State, exec (.barrierDone n) s = .next t ∧ (t.ni n).bars = r ∧ (t.ni n).tag b.id = none ∧ (t.ni n).rpq = (s.ni n).rpq
            ∧ (t.ni n).bfPend = ((s.ni n).bfPend || (b.complete && b.fault)) ∧ onlyNi n s t)))
  ∧ (∀ (s : State) (n : Nat), s.hasNi n = true →
      ((s.ni n).nextRsp = none → exec (.rspArrival n) s = .next s)
      ∧ ((s.ni n).nextReply = none → exec (.cmdReplyReceive n) s = .next s)
      ∧ ∀ (k : Nat) (p : Pk) (x y : NiSt), (s.ni n).pk k = some p →
        x = { s.ni n with rin := (s.ni n).rin.filter (fun j => j != k) } →
        y = { s.ni n with inbox := (s.ni n).inbox.filter (fun j => j != k) } →
        (∀ (t : Nat) (g g' : Tag) (u v : State), (s.ni n).rspUse p = .whole t → (s.ni n).tag t = some g →
          g' = { g with rsc := p.vc % 4, parts := g.parts.map (fun r => { r with pieces := [] }) } →
          u = (s.setNi n x).updNi n (fun x => x.setTag t (some g')) → v = (s.setNi n y).updNi n (fun x => x.setTag t (some g')) →
          ((s.ni n).nextRsp = some k → g.preRst = false → g.sb = false →
            (p.hdr.ptype = 7 ∧ (p.hdr.op = 4 ∨ p.hdr.op = 5)) = False →
            exec (.rspArrival n) s = .next (u.updNi n (fun x => x.finish t p.hdr.op k)))
          ∧ ((s.ni n).nextRsp = some k → g.preRst = true → g.sb = false →
            exec (.rspArrival n) s = .next ((u.dropPk n k).updNi n (fun x => x.finish t p.hdr.op 0)))
          ∧ ((s.ni n).nextRsp = some k → g.preRst = false → g.sb = false →
            p.hdr.ptype = 7 → (p.hdr.op = 4 ∨ p.hdr.op = 5) →
            exec (.rspArrival n) s = .next ((u.handleFault n g p.hdr.op).updNi n
              (fun x => x.finish t p.hdr.op k)))
          ∧ ((s.ni n).nextRsp = some k → g.sb = true → errStatus p.hdr.op = false →
            exec (.rspArrival n) s = .next ((u.dropPk n k).updNi n (fun x => x.finish t p.hdr.op 0)))
          ∧ ((s.ni n).nextRsp = some k → g.sb = true → errStatus p.hdr.op = true →
            exec (.rspArrival n) s = .next (((u.sbFail n g p.hdr.op 1).dropPk n k).updNi n
              (fun x => x.finish t p.hdr.op 0)))
          ∧ ((s.ni n).nextReply = some k → g.preRst = false →
            exec (.cmdReplyReceive n) s = .next (v.updNi n (fun x => x.finish t 0 k)))
          ∧ ((s.ni n).nextReply = some k → g.preRst = true →
            exec (.cmdReplyReceive n) s = .next ((v.dropPk n k).updNi n (fun x => x.finish t 0 0))))
        ∧ (∀ (t j : Nat) (g : Tag), (s.ni n).rspUse p = .piece t j → (s.ni n).tag t = some g →
          (s.ni n).nextRsp = some k →
          exec (.rspArrival n) s = .next ((s.setNi n x).rspPiece n k t j p g))
        ∧ ((s.ni n).rspUse p = .discard →
          ((s.ni n).nextRsp = some k → exec (.rspArrival n) s = .next ((s.setNi n x).rspDrop n k))
          ∧ ((s.ni n).nextReply = some k → exec (.cmdReplyReceive n) s = .next ((s.setNi n y).rspDrop n k))))
  ∧ (∀ (x : NiSt) (t st pk : Nat) (g : Tag) (a r : List Owed) (o : Owed), x.tag t = some g → g.evd = false → g.sb = false →
      g.preRst = false → x.ord = a ++ o :: r → o.ser = g.ser → o.id = g.id → o.key = g.dkey →
      (∀ b ∈ a ++ r, b.rsp = none ∧ b.ser ≠ g.ser) →
      ((x.finish t st pk).tag t = none ∧ (x.finish t st pk).gen t = (x.gen t + 1) % 8)
      ∧ ((∀ b ∈ a, b.id = g.id → b.key ≠ g.dkey) →
          (x.finish t st pk).ord = a ++ r ∧ (x.finish t st pk).rpq = x.rpq ++ [rpEnt g st pk])
      ∧ ((∃ b ∈ a, b.id = g.id ∧ b.key = g.dkey) →
          (x.finish t st pk).ord = a ++ { o with rsp := some (rpEnt g st pk) } :: r ∧ (x.finish t st pk).rpq = x.rpq))

/-- Packets arrive at an NI and are presented on AQE.

A head flit of SC1 to SC3 with no uncorrectable error, for this node and a defined operation, makes a received packet at the NI while
reordering is off, and its type says where it waits (R77, R79, R114, R115, R407, R672).

A target's next request leaves on AQE with a free delivery tag and its sideband (R77, R91, R92); under the monitor a reserved
load shows as a read and sets a reservation (R216, R217), and a write clears those of other keys that it overlaps (R218). With
TGT_EN = 0 it is answered DECODE_ERROR (R79), unless its beat stands VALID already (R57). With no request to present, no free delivery
tag or NI_UP low nothing is presented, and while the fabric clock stands nothing changes.

A conditional store without a matching reservation never reaches the endpoint: it is answered COND_FAIL (R217), unless its beat
stands VALID already (R57). -/
def Obligations.PacketsArriveAndArePresented : Prop :=
  (∀ (s : State) (plane n : Nat) (e : FlitErr) (t : Stamp) (fl : Flit) (h : Hdr) (r : List Flit),
      s.hasPort (.ni plane n) = true → (s.port (.ni plane n)).dead = false → (s.port (.ni plane n)).fault = false →
      (s.port (.ni plane n)).wire = fl :: r → fl.hdr = some h → (fl.ft = 1 ∨ fl.ft = 3) → (fl.found e).bads = 0 → fl.poison = false →
      (s.ni n).vcHeld plane fl.vc < s.rom.vcDepth →
      (mget (fun _ => none) (s.ni n).rx (plane * 16 + fl.vc) : Option NiRx) = none →
      vnOf h.ptype = fl.vc / 4 → opDefined h.ptype h.op = true → h.dest = s.nodeId n → fl.vc % 4 ≠ 0 →
      s.flag (niB n) F.NI_RSQ_CTL_REORDER = false → s.sliceDrops n h.slice = false →
      (∃ u : State, exec (.niFlitArrival plane n e t) s = .next u ∧ (u.port (.ni plane n)).wire = r
        ∧ (h.ptype = 1 ∨ h.ptype = 7 → (u.ni n).rin = (s.ni n).rin ++ [(s.ni n).nextSer])
        ∧ (h.ptype = 3 ∨ h.ptype = 4 ∨ h.ptype = 8 → (u.ni n).inbox = (s.ni n).inbox ++ [(s.ni n).nextSer])
        ∧ (h.ptype = 0 → s.flag (niB n) F.NI_EP_CFG_TGT_EN = true → (s.ni n).epLow = false → s.migHolds n h = false →
            (u.ni n).aqq = (s.ni n).aqq ++ [(s.ni n).nextSer])
        ∧ (h.ptype = 6 → s.flag (niB n) F.NI_EP_CFG_TGT_EN = true → (s.ni n).epLow = false →
            (u.ni n).aqq = (s.ni n).aqq ++ [(s.ni n).nextSer])
        ∧ (h.ptype = 2 → (s.ni n).epLow = false → (u.ni n).stq = (s.ni n).stq ++ [(s.ni n).nextSer])
        ∧ (h.ptype = 1 ∨ h.ptype = 4 → ∃ p, (u.ni n).pk (s.ni n).nextSer = some p ∧ p.hdr = h ∧ p.plane = plane ∧ p.vc = fl.vc
            ∧ p.got = fl.data ∧ p.left = hdrFlits h - 1)))
  ∧ (∀ (s : State) (n : Nat) (t : Stamp), s.hasNi n = true →
      (s.niClocked n = false → exec (.targetDelivery n t) s = .next s)
      ∧ (s.niClocked n = true → s.nextReq n = none → exec (.targetDelivery n t) s = .next (s.settleAll n))
      ∧ ∀ (k : Nat) (p : Pk), s.niClocked n = true → s.nextReq n = some k → (s.ni n).pk k = some p →
      (s.flag (niB n) F.NI_EP_CFG_TGT_EN = false → (s.ni n).stood 3 ≠ some k →
        exec (.targetDelivery n t) s = .next ((s.turnAway n k p 0x0D).settleAll n))
      ∧ ((s.flag (niB n) F.NI_EP_CFG_TGT_EN = true ∨ (s.ni n).stood 3 = some k) → ((s.ni n).freeDtag = none ∨ (s.ni n).up = false) →
        exec (.targetDelivery n t) s = .next (s.settleAll n))
      ∧ ∀ (d : Nat) (mon : Bool), (s.flag (niB n) F.NI_EP_CFG_TGT_EN = true ∨ (s.ni n).stood 3 = some k) →
      (s.ni n).freeDtag = some d → (s.ni n).up = true →
      mon = (s.flag (niB n) F.NI_RSV_CFG_MON && p.hdr.ptype == 0) →
      (mon = true → p.hdr.op = 3 → (s.ni n).stood 3 = some k ∨
        s.rsvMatch n p.hdr.src p.hdr.slice p.hdr.addr = true ∧ s.flag (niB n) F.NI_ORD_STAT_DEGRADED = false) →
      ∃ u, exec (.targetDelivery n t) s = .next u
        ∧ (u.ni n).out = (s.ni n).out ++ [.aqe d (if mon = true ∧ p.hdr.op = 2 then 0 else p.hdr.op) p.hdr.addr p.hdr.len (p.vc % 4)
          p.hdr.src p.hdr.slice p.late p.hdr.istamp (if s.flag (niB n) F.NI_EP_CFG_ORIG_EN then p.hdr.ostamp else 0)
          (s.flag (niB n) F.NI_EP_CFG_ORIG_EN && p.hdr.ovalid)]
        ∧ (u.ni n).aqq = (s.ni n).aqq.filter (fun j => j != k)
        ∧ (∃ e, (u.ni n).del d = some e ∧ e.hdr = p.hdr ∧ e.sc = p.vc % 4 ∧ e.pk = k ∧ e.ep = p.ep ∧ e.ans = none ∧ e.drop = false
          ∧ e.rsvd = (mon && (p.hdr.op == 2 || p.hdr.op == 3)) ∧ e.rser = (if mon = true ∧ p.hdr.op = 2 then (s.ni n).nextSer else 0))
        ∧ (mon = true → p.hdr.op = 2 → ∃ r ∈ (u.ni n).rsvs,
            r.node = p.hdr.src ∧ r.slice = p.hdr.slice ∧ r.gran = p.hdr.addr / s.granule n)
        ∧ (mon = true → p.hdr.op = 1 ∨ (4 ≤ p.hdr.op ∧ p.hdr.op ≤ 6) → (u.ni n).rsvs = (s.ni n).rsvs.filter (fun r =>
            !(inGranule (s.granule n) r.gran p.hdr.addr (opSpan p.hdr.op p.hdr.len)
              && !(r.node == p.hdr.src && r.slice == p.hdr.slice))))
        ∧ sameWords s u [niB n + F.NI_RSV_EVICT_CNT_COUNT.off] ∧ sameNis s u [n])
  ∧ (∀ (s : State) (n k d : Nat) (t : Stamp) (p : Pk), s.hasNi n = true → s.niClocked n = true → s.nextReq n = some k →
      (s.ni n).pk k = some p → (s.ni n).stood 3 ≠ some k →
      s.flag (niB n) F.NI_EP_CFG_TGT_EN = true → (s.ni n).freeDtag = some d → (s.ni n).up = true → p.ep = none →
      s.flag (niB n) F.NI_RSV_CFG_MON = true → p.hdr.ptype = 0 → p.hdr.op = 3 →
      s.rsvMatch n p.hdr.src p.hdr.slice p.hdr.addr = false → (s.ni n).sysPend = [] → 1 ≤ (s.ni n).freeHigh →
      (∃ u : State, exec (.targetDelivery n t) s = .next u ∧ (u.ni n).out = (s.ni n).out ∧ (u.ni n).aqq = (s.ni n).aqq.filter (fun j => j != k)
        ∧ ∃ qp : Qp, (u.ni n).sysq = (s.ni n).sysq ++ [qp] ∧ qp.ptype = 1 ∧ qp.op = 2 ∧ qp.dest = p.hdr.src
          ∧ qp.tag = p.hdr.tag ∧ qp.gen = p.hdr.gen ∧ qp.payload = []))

/-- Segments leave on the egress halves, the endpoint's answers are returned, and the twin and gap timers expire.

A port segment leaves on the egress half whose class is picked: WQE, RPE or STE, with its bytes and its LAST (R62, R64,
R65, R83); a response without data is one beat. The data of a write whose AQE beat went before TGT_EN was cleared are not delivered (R79).
With nothing to start, no segment leaves; with NI_UP low or the fabric clock standing nothing changes.

The endpoint's response ends its delivery (R77, R78, R80, R100, R217): the data of a read, the fixed code of an error, and
EXOKAY of a reservation that held; FABRIC_ERROR stands for the answer to a request whose data were cut (R672). While an earlier
piece of the same request is to be answered the response waits (R189); that of a squashed slice's request goes nowhere (R438). A
response for no delivery only sets PROTO, and one that RPI does not take changes nothing.

A twin that does not come and a gap that does not close (R402, R405, R410): the entry is forgotten and the miss counted, and
flushed packets are delivered. With no such entry or no held packet nothing changes. -/
def Obligations.EgressAndEndpointResponses : Prop :=
  (∀ (s : State) (n : Nat) (rdy : BitVec 4) (t : Stamp), s.hasNi n = true →
      (∀ half, half < 3 → ((s.ni n).up = false ∨ s.niClocked n = false) → exec (.egressSegmentStart n half rdy t) s = .next s)
      ∧ ((s.ni n).up = true → s.niClocked n = true →
      (s.halfPick n 0 (s.ni n).wqeList (fun _ => true) t = none → exec (.egressSegmentStart n 0 rdy t) s = .next (s.settleAll n))
      ∧ (s.halfPick n 1 (s.ni n).rpeList (s.ni n).rpReady t = none → exec (.egressSegmentStart n 1 rdy t) s = .next (s.settleAll n))
      ∧ (s.halfPick n 2 (s.ni n).steList (fun c => rdy.getLsbD c) t = none →
        exec (.egressSegmentStart n 2 rdy t) s = .next (s.settleAll n))
      ∧ (∀ (k c : Nat) (p : Pk), (s.ni n).pk k = some p →
        (∀ w, s.halfPick n 0 (s.ni n).wqeList (fun _ => true) t = some (k, c) → (s.ni n).wqq.find? (fun w => w.2 == k) = some w →
          ((s.flag (niB n) F.NI_EP_CFG_TGT_EN = true ∨ (s.ni n).stood 0 = some k) →
            (∃ u : State, exec (.egressSegmentStart n 0 rdy t) s = .next u ∧ (u.ni n).out = (s.ni n).out ++ [.wqe w.1 c (p.sent == 0) p.seg.2
              (laneBeats (beatBytes s.rom n) ((p.hdr.addr + p.sent) % beatBytes s.rom n) p.seg.1)]))
          ∧ (s.flag (niB n) F.NI_EP_CFG_TGT_EN = false → (s.ni n).stood 0 ≠ some k →
            exec (.egressSegmentStart n 0 rdy t) s = .next ((s.dropWqe n w p).settleAll n)))
        ∧ (∀ r, s.halfPick n 1 (s.ni n).rpeList (s.ni n).rpReady t = some (k, c) → (s.ni n).rpq.find? (fun r => r.sc == c) = some r →
          (∃ u : State, exec (.egressSegmentStart n 1 rdy t) s = .next u ∧ (u.ni n).out = (s.ni n).out
            ++ [.rpe r.id c r.status (if p.sent = 0 then r.vec.length else 0) (p.sent == 0) p.seg.2
              ((r.lane + p.sent) % beatBytes s.rom n) p.seg.1 (if p.seg.2 then vecBeats (beatBytes s.rom n) r.vec else [])]))
        ∧ (s.halfPick n 2 (s.ni n).steList (fun c => rdy.getLsbD c) t = some (k, c) →
          (∃ u : State, exec (.egressSegmentStart n 2 rdy t) s = .next u ∧ (u.ni n).out = (s.ni n).out ++ [.ste p.hdr.src c p.hdr.slice p.hdr.len
            (p.sent == 0) p.seg.2 p.late p.hdr.istamp (if s.flag (niB n) F.NI_EP_CFG_ORIG_EN then p.hdr.ostamp else 0)
            (s.flag (niB n) F.NI_EP_CFG_ORIG_EN && p.hdr.ovalid) p.seg.1])))
      ∧ (∀ k c r, (s.ni n).pk k = none → s.halfPick n 1 (s.ni n).rpeList (s.ni n).rpReady t = some (k, c) →
          (s.ni n).rpq.find? (fun r => r.sc == c) = some r → r.sc = c →
          (∃ u : State, exec (.egressSegmentStart n 1 rdy t) s = .next u ∧ (u.ni n).rpq = (s.ni n).rpq.erase r
            ∧ (u.ni n).out = (s.ni n).out ++ [.rpe r.id c r.status r.vec.length true true (r.lane % beatBytes s.rom n) []
              (vecBeats (beatBytes s.rom n) r.vec)]))))
  ∧ (∀ (s : State) (n dtag sc status : Nat) (data : List Byte), s.hasNi n = true →
      (((s.ni n).up = false ∨ s.rpiReady n = false) → exec (.rpiResponse n dtag sc status data) s = .next s)
      ∧ ((s.ni n).up = true → s.rpiReady n = true →
        ((∀ d, (s.ni n).del dtag = some d → d.ans ≠ none) →
          exec (.rpiResponse n dtag sc status data) s = .next (s.wr (niB n) F.NI_EP_STAT_PROTO 1))
        ∧ ∀ (d : Dlv) (v : State), (s.ni n).del dtag = some d → d.ans = none → v = s.setNi n ((s.ni n).setDel dtag none) →
          (d.drop = true → d.cut = false → d.rsvd = false → ¬ (d.hdr.ptype = 0 ∧ d.hdr.op = 3) →
            exec (.rpiResponse n dtag sc status data) s = .next (v.rspFix n status).1)
          ∧ (∀ a, d.drop = false → d.cut = false → (v.ni n).owes d = true → status ≤ 1 → d.rsvd = false →
            ¬ (d.hdr.ptype = 0 ∧ d.hdr.op = 3 ∧ status = 1) → a = fillData v data (rspLen d.hdr) →
            exec (.rpiResponse n dtag sc status data) s = .next (a.1.updNi n (fun x => x.setDel dtag (some { d with ans := some (status, a.2) }))))
          ∧ (d.drop = false → (v.ni n).owes d = false →
            (d.cut = true →
              exec (.rpiResponse n dtag sc status data) s = .next (((v.rspFix n status).1.answerDlv n d true 0x11 []).answerHeld n d 512))
            ∧ (∀ a, d.cut = false → status ≤ 1 → d.rsvd = false → ¬ (d.hdr.ptype = 0 ∧ d.hdr.op = 3 ∧ status = 1) →
              a = fillData v data (rspLen d.hdr) →
              exec (.rpiResponse n dtag sc status data) s = .next ((a.1.answerDlv n d true status a.2).answerHeld n d 512))
            ∧ (∀ a, d.cut = false → status ≤ 1 → d.rsvd = true → d.hdr.op = 2 → a = fillData v data (rspLen d.hdr) →
              exec (.rpiResponse n dtag sc status data) s = .next ((a.1.answerDlv n d true 1 a.2).answerHeld n d 512))
            ∧ (d.cut = false → status ≤ 1 → d.rsvd = true → d.hdr.ptype = 0 → d.hdr.op = 3 →
              exec (.rpiResponse n dtag sc status data) s = .next
                ((((v.clearGranule n d.hdr.addr d.hdr.len).migLog n d.hdr.slice d.hdr.addr d.hdr.len).answerDlv n d true 1 []).answerHeld n d 512))
            ∧ (d.cut = false → 2 ≤ status → d.rsvd = false →
              exec (.rpiResponse n dtag sc status data) s = .next
                (((v.rspFix n status).1.answerDlv n d true (v.rspFix n status).2 []).answerHeld n d 512))
            ∧ (d.cut = false → 2 ≤ status → d.rsvd = true → d.hdr.op = 2 →
              exec (.rpiResponse n dtag sc status data) s = .next
                ((((v.rspFix n status).1.updNi n (fun x => { x with rsvs := x.rsvs.filter (fun r => r.ser != d.rser) })).answerDlv n d
                  true (v.rspFix n status).2 []).answerHeld n d 512))
            ∧ (d.cut = false → 2 ≤ status → d.rsvd = true → d.hdr.op = 3 →
              exec (.rpiResponse n dtag sc status data) s = .next
                (((v.rspFix n status).1.answerDlv n d true (v.rspFix n status).2 []).answerHeld n d 512)))))
  ∧ (∀ (s : State) (n ctx : Nat), s.hasNi n = true →
      (∀ seq w, (s.ni n).twins.find? (fun t => t.key == ctx && t.seq == seq) = some w →
        ∀ v, v = ((s.setNi n { s.ni n with twins := (s.ni n).twins.erase w }).count (niB n)
          (if w.miss = 0 then F.NI_RSQ_TWIN_MISS_A_COUNT else F.NI_RSQ_TWIN_MISS_B_COUNT) 1).alert n 10 →
        exec (.twinTmo n ctx seq) s = .next (if v.flag strB F.STR_PLN_CFG_MISS_FAULT then v.planeFault w.miss 4 else v))
      ∧ (∀ seq, (s.ni n).twins.find? (fun t => t.key == ctx && t.seq == seq) = none → exec (.twinTmo n ctx seq) s = .next s)
      ∧ (((s.ni n).ctx ctx).held.isEmpty = true → exec (.gapTmo n ctx) s = .next s)
      ∧ (((s.ni n).ctx ctx).held.isEmpty = false →
        exec (.gapTmo n ctx) s = .next (((s.flushCtx n ctx).count (niB n) F.NI_RSQ_GAP_CNT_COUNT 1).notice n 4)))

/-- Queued packets are released to the planes.

One release cycle: with no system packet and no packet of a higher class, the head packet of the first queue of its class
whose deficit suffices takes the staging slot of its plane and VC, with the next SEQ and the NI's time as ISTAMP (R254, R255,
R260, R394). While the fabric clock stands, or a reset covers both ports, nothing changes.

SC0 (R123, R256, R257): the selected packet leaves on every plane in the first cycle that all allow, if its entry still lets
it go; past the skew limit it leaves on the one that is ready, is counted, and its other copy waits. One that must wait again is no
longer selected, and one that its entry now refuses or drops leaves its queue so, the queue paying for it. With none selected, with the
planes not ready, or while the fabric clock stands, nothing changes. -/
def Obligations.PacketsAreReleased : Prop :=
  ((∀ (s : State) (n : Nat) (t : Stamp) (mem : Bool), s.hasNi n = true →
      (s.niClocked n = false ∨ (s.port (.ni 0 n)).dead = true ∧ (s.port (.ni 1 n)).dead = true) →
      exec (.packetRelease n t mem) s = .next s)
    ∧ ∀ (s v : State) (n q c pl : Nat) (t : Stamp) (p : Qp) (r : List Qp) (l : List Nat), s.hasNi n = true → s.niClocked n = true →
      ((s.port (.ni 0 n)).dead && (s.port (.ni 1 n)).dead) = false → v = (s.updNi n (fun x => x.admitSys x.sysPend)).noteHolds n t false →
      v.rd dbgB F.DBG_STAT_TEST ≠ 1 → bigSched v.rom n = false → (v.ni n).sysq = [] → 1 ≤ c → c < 4 →
      (∀ k, k < c → (v.ni n).act.getD k [] = []) → (v.ni n).act.getD c [] = q :: l → ((v.ni n).q q).pkts = p :: r →
      p.grp = none → p.sc = c → ((v.ni n).q q).cls = c → (v.ni n).sc0Sel.any (fun w => w.q == some q) = false → p.istamp = none → p.mc = false → p.probe = none → v.verdict n q p t false = .go →
      v.counted n p ≤ ((v.ni n).q q).vt → v.planeFor n p.e c (4 * p.vn + c) = some pl →
      (∃ u : State, exec (.packetRelease n t false) s = .next u ∧ ((u.ni n).q q).pkts = r
        ∧ (r ≠ [] → ((u.ni n).q q).vt = ((v.ni n).q q).vt - v.counted n p)
        ∧ ∃ b, (mget (fun _ => none) (u.port (.ni pl n)).slots (4 * p.vn + c) : Option Slot) = some b ∧ b.payload = p.payload
          ∧ b.hdr.dest = p.dest ∧ b.hdr.src = v.nodeId n ∧ b.hdr.istamp = t
          ∧ b.hdr.seq = mget (fun _ => 0) (v.ni n).seqs (p.e * 16 + (4 * p.vn + c))
          ∧ (u.ni n).seqs = mset (fun _ => 0) (v.ni n).seqs (p.e * 16 + (4 * p.vn + c)) ((b.hdr.seq + 1) % 65536)))
  ∧ (∀ (s : State) (n : Nat) (t : Stamp), s.hasNi n = true →
      ((s.niClocked n = false ∨ (s.ni n).selPk = none) → exec (.sc0Release n t) s = .next s ∧ exec (.sc0Skew n t) s = .next s)
      ∧ ∀ p : Qp, s.niClocked n = true → (s.ni n).selPk = some p →
      (((s.sc0Planes n p.e).isEmpty = true ∨ (s.sc0Planes n p.e).all (fun pl => s.sc0Ready n pl p) = false) →
        exec (.sc0Release n t) s = .next s)
      ∧ ((s.sc0Planes n p.e).isEmpty = false → (s.sc0Planes n p.e).all (fun pl => s.sc0Ready n pl p) = true →
        (s.selVerdict n p t = .go →
          exec (.sc0Release n t) s = .next (s.sc0Go n p (s.sc0Planes n p.e) none t)
          ∧ (∃ u : State, exec (.sc0Release n t) s = .next u ∧ (u.ni n).sc0Sel = none
              ∧ mget (fun _ => none) (u.ni n).sc0Last p.e = some (p.istamp.getD t)))
        ∧ ((s.selVerdict n p t = .wait ∨ s.selVerdict n p t = .hold) →
          exec (.sc0Release n t) s = .next (s.updNi n (fun x => { x with sc0Sel := none })))
        ∧ (∀ w v q st, w = s.updNi n (fun x => { x with sc0Sel := none }) → s.selVerdict n p t = v → (v = .refuse st ∨ v = .drop) →
          (s.ni n).sc0Sel.bind (fun v => v.q) = some q →
          exec (.sc0Release n t) s = .next ((w.payQ n q (w.headLen n q)).depart n q t false v)))
      ∧ (∀ pl a b, s.sc0Planes n p.e = [a, b] → (s.sc0Planes n p.e).filter (fun pl => s.sc0Ready n pl p) = [pl] →
        (s.selVerdict n p t = .go →
          exec (.sc0Skew n t) s = .next (((s.sc0Go n p [pl] (some (1 - pl)) t).count (niB n) F.NI_SC0_SKEW_CNT_COUNT 1).notice n 1))
        ∧ ((s.selVerdict n p t = .wait ∨ s.selVerdict n p t = .hold) →
          exec (.sc0Skew n t) s = .next (s.updNi n (fun x => { x with sc0Sel := none })))))

/-- A router buffers flits, grants its outputs and ends an overrun.

A head flit at a router input (R107, R140, R141, R142, R151, R161): one that R140 does not drop is buffered behind what its VC
holds, one that it drops is counted, logged and discarded with its credit returned, and one for a full VC puts the input in FAULT.
The errors that its checks find are counted. At a dead input the flit is lost, and with none on the wires nothing changes.

A phase at an output that no segment holds: the winner's pair moves to the tail of its class's rotation, and at a router output
without a crossing its first flit goes out on the link with HOP and LA advanced (R126, R162, R163, R167). An output that a segment holds,
one without a requester that wins, and one whose fabric clock stands (R507) change nothing.

The owner's grant-hold limit at an output of a router or an NI (R171, R172, R671): the grant ends, the overrun is counted and
reported, a plane fault follows where OVR_FAULT is set, and a phase without the owner is held; at a Span output only the grant ends. With no owner,
or while the fabric clock stands, nothing changes. -/
def Obligations.RouterBuffersAndGrants : Prop :=
  ((∀ (s : State) (plane r p : Nat) (e : FlitErr) (o : Port), o = .rtr plane r p → s.hasPort o = true →
      ((s.port o).wire = [] → exec (.routerFlitArrival plane r p e) s = .next s)
      ∧ ∀ fl l, (s.port o).wire = fl :: l → (s.port o).dead = true →
        exec (.routerFlitArrival plane r p e) s = .next (s.updPort o (fun y => { y with wire := l })))
    ∧ ∀ (s v : State) (plane r p : Nat) (e : FlitErr) (fl : Flit) (l : List Flit) (c : VcSt) (h : Hdr) (o : Port), o = .rtr plane r p →
      s.hasPort o = true → (s.port o).dead = false → (s.port o).fault = false → (s.port o).wire = fl :: l →
      (s.port o).vcs[fl.vc]? = some c → fl.hdr = some h →
      v = ((s.updPort o (fun y => { y with wire := l })).correcteds o (fl.found e).corrs).count (rtrB plane r) F.RTR_ECC_CNT_UNCORR
        (fl.found e).bads →
      (c.buf.length < s.rom.vcDepth → c.rx = none → dropReason s.rom r p h (fl.found e) = none →
        (∀ q k, (s.port (.rtr plane r q)).owner ≠ some (p, fl.vc, k)) →
        ∀ x : Flit, x = { fl with poison := fl.poison || (fl.found e).dn, cbad := false, dbad := false } →
        exec (.routerFlitArrival plane r p e) s = .next (v.updVc o fl.vc (fun c => { c with
          buf := c.buf ++ [x],
          rx := if hdrFlits h ≤ 1 then none else some { drop := false, left := hdrFlits h - 1, hdr := h },
          tx := if c.tx.isSome then c.tx else frontPkt (c.buf ++ [x]) })))
      ∧ (∀ k, c.buf.length < s.rom.vcDepth → c.rx = none → dropReason s.rom r p h (fl.found e) = some k →
        exec (.routerFlitArrival plane r p e) s = .next
          (((v.unusedGrant plane r p fl.vc h).routeDrop plane r p fl.vc k h).take plane r p fl.vc
            (if hdrFlits h ≤ 1 then none else some { drop := true, left := hdrFlits h - 1, hdr := h })))
      ∧ (s.rom.vcDepth ≤ c.buf.length → exec (.routerFlitArrival plane r p e) s =
          .next ((v.updPort o (fun y => { y with fault := true })).creditError o 3 fl.vc)))
  ∧ (∀ (s : State) (o : Port), s.hasPort o = true →
      ((s.clocked (regionOf s.rom o) = false ∨ (s.port o).owner.isSome = true ∨ s.winner o (s.requesters o none) = none) →
        exec (.arbPhase o) s = .next s)
      ∧ ∀ (i v f k : Nat) (fl : Flit), s.clocked (regionOf s.rom o) = true → (s.port o).owner = none →
        s.winner o (s.requesters o none) = some (i, v) → s.nextFlit o i v = some (fl, f, k) →
        (∀ far, farEnd s.rom o = some far → portKey far ≠ portKey o) →
        (∃ t : State, exec (.arbPhase o) s = .next t ∧ (t.port o).rot = listSet (s.port o).rot (v % 4) (fun l => toTail l (4 * i + v / 4))
          ∧ (∀ (plane r q : Nat) (far : Port), o = .rtr plane r q → farEnd s.rom o = some far → hasXing s.rom o = false →
            ∃ l, (t.port far).wire = (s.port far).wire ++ { fl with hdr := fl.hdr.map nextHop, cbad := false, dbad := false } :: l)))
  ∧ ((∀ (s : State) (o : Port), s.hasPort o = true → (s.clocked (regionOf s.rom o) = false ∨ (s.port o).owner = none) →
      exec (.grantOverrun o) s = .next s)
    ∧ ∀ (s : State) (plane i vc k : Nat) (o : Port), s.hasPort o = true → s.clocked (regionOf s.rom o) = true →
      (s.port o).owner = some (i, vc, k) →
      (∀ j, o = .span plane j → exec (.grantOverrun o) s = .next ((s.setPort o { s.port o with owner := none }).phase o (some (i, vc))))
      ∧ (∀ (r q : Nat) (v : State), o = .rtr plane r q →
        v = (((((s.setPort o { s.port o with owner := none }).count (rtrB plane r) F.RTR_OVERRUN_CNT_COUNT 1).wr (rtrB plane r)
          F.RTR_ERR_STAT_OVERRUN 1).arbLog plane r 0 q i vc).rtrEvent plane r 2) →
        exec (.grantOverrun o) s = .next
          ((if v.flag strB F.STR_PLN_CFG_OVR_FAULT then v.planeFault plane 3 else v).phase o (some (i, vc))))
      ∧ ∀ (n : Nat) (v : State), o = .ni plane n →
        v = (((s.setPort o { s.port o with owner := none }).setBit (niB n)
          (if plane = 0 then F.NI_PLN_ERR_ERR_A else F.NI_PLN_ERR_ERR_B) 0).count (niB n) F.NI_PLN_OVR_CNT_COUNT 1).alert n 16 →
        exec (.grantOverrun o) s = .next
          ((if v.flag strB F.STR_PLN_CFG_OVR_FAULT then v.planeFault plane 3 else v).phase o (some (i, vc))))

/-- The winner is a requester; no requester of a higher class exists, and none of its class has a higher level (R166). -/
def Obligations.WinnerHasBestClassAndLevel : Prop :=
  ∀ (s : State) (o : Port) (rs : List (Nat × Nat)) (w : Nat × Nat),
    (∀ r ∈ rs, 4 * r.1 + r.2 / 4 ∈ (s.port o).rot.getD (r.2 % 4) []) →
    (∀ r ∈ rs, ∀ k ∈ rs, 4 * r.1 + r.2 / 4 = 4 * k.1 + k.2 / 4 → r.2 % 4 = k.2 % 4 → r = k) →
    s.winner o rs = some w →
    w ∈ rs ∧ ∀ r ∈ rs, w.2 % 4 ≤ r.2 % 4 ∧ (r.2 % 4 = w.2 % 4 → s.level o r.1 r.2 ≤ s.level o w.1 w.2)

/-- Credits return and load, crossing stations pass flits, isolation flushes them.

Credits (R154, R155, R159, R160, R541): a vector with good parity adds one to each VC that it names, and one with bad parity is a
credit error; an output that has not loaded its counters ignores it. A vector that reaches the link's station is checked there, and sent
on or reported by the unit beside that half. A live output with a ready far end loads VC_DEPTH for every VC; any other loads nothing.

A crossing station passes the flit of its turn to its downstream wires, its codes corrected, and one whose control field or
data code 0 fails unchanged (R539, R542). A station that has stopped, whose region is held or whose fabric clock stands, and a VC whose turn
it is not, pass nothing.

Isolation (R550, R551, R552): a live, supplied station half isolates from its dead far half, and the region shows as isolated; not in
the forerunner's mode, where it flushes instead; and an NI ends every unsplit request whose path crosses a newly isolated region. -/
def Obligations.CreditsStationsAndIsolation : Prop :=
  (∀ (s : State) (o : Port), s.hasPort o = true →
      (∀ flip, (s.port o).cwire = [] → (s.port o).swire = [] → exec (.creditVectorArrival o flip) s = .next s)
      ∧ (∀ (v : BitVec 16) (r : List (BitVec 16)), (s.port o).cwire = v :: r → (s.port o).loaded = true →
        (s.port o).cred.length = 16 → (∀ c, c < 16 → bitAt v.toNat c = true → (s.port o).cred.getD c 0 < s.rom.vcDepth) →
        (∃ t : State, exec (.creditVectorArrival o 0) s = .next t ∧ (t.port o).cwire = r ∧ ∀ c, c < 16 → (t.port o).cred.getD c 0 = (s.port o).cred.getD c 0 + b2n (bitAt v.toNat c)))
      ∧ (∀ (v : BitVec 16) (r : List (BitVec 16)) (flip : BitVec 17), (s.port o).cwire = v :: r →
        ((s.port o).loaded = true → popBits flip.toNat 17 % 2 = 1 →
          exec (.creditVectorArrival o flip) s = .next ((s.updPort o (fun x => { x with cwire := r })).creditError o 1 0))
        ∧ ((s.port o).loaded = false → exec (.creditVectorArrival o flip) s = .next (s.updPort o (fun x => { x with cwire := r }))))
      ∧ (∀ (v : BitVec 16) (r : List (BitVec 16)) (flip : BitVec 17) (w : State), (s.port o).cwire = [] → (s.port o).swire = v :: r →
        w = s.updPort o (fun x => { x with swire := r }) →
        (popBits flip.toNat 17 % 2 = 0 → exec (.creditVectorArrival o flip) s =
          .next (w.updPort o (fun x => { x with cwire := x.cwire ++ [v ^^^ flip.setWidth 16] })))
        ∧ (∀ p k q, popBits flip.toNat 17 % 2 = 1 → farEnd s.rom o = some (.rtr p k q) →
          exec (.creditVectorArrival o flip) s = .next (w.creditError (.rtr p k q) 1 0))
        ∧ (popBits flip.toNat 17 % 2 = 1 → (∀ p k q, farEnd s.rom o ≠ some (.rtr p k q)) →
          exec (.creditVectorArrival o flip) s = .next (w.creditError o 1 0)))
      ∧ (∀ f, farEnd s.rom o = some f → (s.port o).dead = false → (s.port f).dead = false →
          (s.rg (regionOf s.rom o)).held = false → (s.rg (regionOf s.rom f)).held = false → (s.port o).loaded = false →
          s.inEmpty f = true →
          exec (.creditLoad o) s = .next (s.setPort o { s.port o with
            loaded := true, cwire := [], swire := [], cred := List.replicate 16 s.rom.vcDepth }))
      ∧ ((∀ f, farEnd s.rom o = some f → (s.port o).dead = true ∨ (s.port f).dead = true ∨ (s.rg (regionOf s.rom o)).held = true ∨
          (s.rg (regionOf s.rom f)).held = true ∨ (s.port o).loaded = true ∨ s.inEmpty f = false) →
          exec (.creditLoad o) s = .next s))
  ∧ (∀ (s : State) (o : Port) (vc : Nat) (e : FlitErr) (fl : Flit), s.hasPort o = true → hasXing s.rom o = true → vc < 16 →
      (((s.port o).stStop = true ∨ (s.rg (regionOf s.rom o)).held = true ∨ s.clocked (regionOf s.rom o) = false ∨ s.stNext o ≠ some vc) →
        exec (.xingFlit o vc e) s = .next s)
      ∧ ((s.port o).stStop = false → (s.rg (regionOf s.rom o)).held = false → s.clocked (regionOf s.rom o) = true →
      s.stNext o = some vc → (s.port o).stq.find? (fun f => f.vc == vc) = some fl →
      (∃ t : State, exec (.xingFlit o vc e) s = .next t ∧ (t.port o).wire = (s.port o).wire ++ [
          { fl with poison := fl.poison || (fl.found e).dn, cbad := (fl.found e).c == .bad, dbad := (fl.found e).d0 == .bad }]
        ∧ (t.port o).stq = (s.port o).stq.erase fl ∧ (t.port o).stSeg = (if fl.segb then none else some vc)
        ∧ ((fl.found e).corrs = 0 → { t with ports := s.ports } = s))))
  ∧ (∀ (s : State),
      (∀ (o f : Port), s.hasPort o = true → hasXing s.rom o = true → farEnd s.rom o = some f →
        (s.g2 = false → (s.port o).stIso = false → (s.port o).dead = false → s.isoFree (regionOf s.rom o) (regionOf s.rom f) = true →
          (∃ t : State, exec (.xingIsolate o) s = .next t ∧ (t.port o).stIso = true ∧ (t.port f).stq = []
            ∧ bitAt (t.rd glbB F.GLB_RECOV_ISO) (regionOf s.rom f) = decide (regionOf s.rom f < 16)))
        ∧ ((s.g2 = true ∨ (s.port o).stIso = true ∨ (s.port o).dead = true ∨ s.isoFree (regionOf s.rom o) (regionOf s.rom f) = false) →
          exec (.xingIsolate o) s = .next s)
        ∧ (s.g2 = false → exec (.xingFlush o) s = .next s)
        ∧ (s.g2 = true →
          exec (.xingFlush o) s = .next ((s.updPort f (fun y => { y with stq := [], stSeg := none })).updPort o (fun x =>
            { x with cwire := x.cwire ++ (s.port f).stq.map (fun fl => BitVec.ofNat 16 (2 ^ fl.vc)) }))))
      ∧ (∀ n, s.hears n = false → exec (.isolateReceive n) s = .next s)
      ∧ (∀ (n new : Nat), s.hears n = true → new = s.rd glbB F.GLB_RECOV_ISO &&& (2 ^ 16 - 1 - (s.ni n).iso % 2 ^ 16) →
          (∃ t : State, exec (.isolateReceive n) s = .next t ∧ (t.ni n).iso = (s.ni n).iso ||| new
            ∧ ∀ (k : Nat) (g : Tag), (s.ni n).tag k = some g → g.split = false → g.regmask &&& new ≠ 0 →
                g.parts.any (fun p => !p.pieces.isEmpty) = true → (t.ni n).tag k = none)))

/-- ROUTE_SET, ROUTE_CHECK and the reservations.

ROUTE_SET and ROUTE_CHECK (R131, R132, R135, R240, R241): with a route that passes R133 the entry is written whole with UNCHK 0,
its REGMASK and XINGS computed, BOUND computed where it is 0 (by ROUTE_CHECK on a replicated entry), the floors are owed and BOUND
is answered; a route that fails is answered with its REASON; a route that crosses a stepping region waits.

SC0 and SC1 reservations that pass R233 and R267 are granted in their registers, and freed ones are not (R232, R242, R497). One
whose flows cross a stepping region waits (R241); one that R233 or R267 refuses is answered RSV_REJECT, and one on an NI or entry that is
not there BAD_PARAM. -/
def Obligations.RoutesAndReservations : Prop :=
  (∀ (s : State) (x : Nat) (c : Cmd) (y : Entry),
      (s.Issued x 0x10 [(0, 120)] c → y = setEntryOf c →
        (s.routeHeld (c.p 0 16) (c.p 16 16) (c.p 32 64) (c.p 96 5) = true → exec (.routeSet x) s = .next s)
        ∧ (s.routeHeld (c.p 0 16) (c.p 16 16) (c.p 32 64) (c.p 96 5) = false →
          (∀ b mask xs bound, (s.begin x).routeCheck (c.p 0 16) (c.p 16 16) y = .ok (b, mask, xs) →
            bound = (if y.bound = 0 then boundField b else y.bound) →
            exec (.routeSet x) s = .next ((((s.begin x).setEntry (c.p 0 16) (c.p 16 16)
              { y with path := y.path % 16 ^ y.nhops, bound := bound, regmask := mask, xings := xs }).wr glbB
              F.GLB_SC0_STAT_FLOOR_BUSY 1).reply x 0 (leBytes 2 0 ++ leBytes 2 bound)))
          ∧ (∀ r, (s.begin x).routeCheck (c.p 0 16) (c.p 16 16) y = .error r → 0 < r →
            exec (.routeSet x) s = .next ((s.begin x).reply x 0x000E (leBytes 1 r)))))
      ∧ (s.Issued x 0x11 [(0, 32)] c → y = s.entry (c.p 0 16) (c.p 16 16) →
        (s.routeHeld (c.p 0 16) (c.p 16 16) y.path y.nhops = true → exec (.routeCheck x) s = .next s)
        ∧ (s.routeHeld (c.p 0 16) (c.p 16 16) y.path y.nhops = false →
        (∀ b mask xs bound, (s.begin x).routeCheck (c.p 0 16) (c.p 16 16) y = .ok (b, mask, xs) →
          bound = (if y.rep && y.bound == 0 then b else y.bound) →
          exec (.routeCheck x) s = .next ((((s.begin x).setEntry (c.p 0 16) (c.p 16 16)
            { y with unchk := false, bound := bound, regmask := mask, xings := xs }).wr glbB F.GLB_SC0_STAT_FLOOR_BUSY 1).reply x 0
            (leBytes 2 0 ++ leBytes 2 bound)))
        ∧ (∀ r, (s.begin x).routeCheck (c.p 0 16) (c.p 16 16) y = .error r → 0 < r →
          exec (.routeCheck x) s = .next ((s.begin x).reply x 0x000E (leBytes 1 r))))))
  ∧ (∀ (s : State) (x n k : Nat) (c : Cmd), n = c.p 0 8 → k = c.p 8 4 →
      (s.hasNi n = false →
        (s.Issued x 0x12 [(0, 12), (16, 11), (32, 6), (48, 16)] c → s.rsvHeld n (c.p 16 9) (c.p 26 1 == 1) = false →
          exec (.rsvSc0 x) s = .next ((s.begin x).reply x 3 []))
        ∧ (s.Issued x 0x13 [(0, 12)] c → s.rd (niB n) (F.NI_SC0_RSV0_VALID.ix k) ≠ 1 →
          exec (.rsvSc0Free x) s = .next ((s.begin x).reply x 3 []))
        ∧ (s.Issued x 0x14 [(0, 12), (16, 6), (32, 16), (48, 16)] c → exec (.rsvSc1 x) s = .next ((s.begin x).reply x 3 []))
        ∧ (s.Issued x 0x15 [(0, 12)] c → exec (.rsvSc1Free x) s = .next ((s.begin x).reply x 3 [])))
      ∧ (s.hasNi n = true → s.Issued x 0x12 [(0, 12), (16, 11), (32, 6), (48, 16)] c →
        (s.rsvHeld n (c.p 16 9) (c.p 26 1 == 1) = true → exec (.rsvSc0 x) s = .next s)
        ∧ (s.rsvHeld n (c.p 16 9) (c.p 26 1 == 1) = false →
          (entryWired s.rom n (c.p 16 9) = true → exec (.rsvSc0 x) s = .next ((s.begin x).reply x 3 []))
          ∧ (∀ d, entryWired s.rom n (c.p 16 9) = false → (s.begin x).rsvCheck n k (c.p 16 9) (c.p 26 1 == 1) = some d →
            exec (.rsvSc0 x) s = .next ((s.begin x).reply x 0x000F d))))
      ∧ (s.hasNi n = true →
      (s.Issued x 0x12 [(0, 12), (16, 11), (32, 6), (48, 16)] c → entryWired s.rom n (c.p 16 9) = false →
        s.rsvHeld n (c.p 16 9) (c.p 26 1 == 1) = false →
        (s.begin x).rsvCheck n k (c.p 16 9) (c.p 26 1 == 1) = none →
        exec (.rsvSc0 x) s = .next ((((((((((s.begin x).wr (niB n) (F.NI_SC0_RSV0_ENTRY.ix k) (c.p 16 9)).wr (niB n)
          (F.NI_SC0_RSV0_MODE.ix k) (c.p 25 1)).wr (niB n) (F.NI_SC0_RSV0_RESP.ix k) (c.p 26 1)).wr (niB n) (F.NI_SC0_RSV1_GAP.ix k)
          (c.p 48 16)).wr (niB n) (F.NI_SC0_RSV0_VALID.ix k) 1).wr (niB n) (F.NI_SC0_RSV0_GRANTED.ix k) 1).updNi n
          (fun y => { y with rsvSl := mset (fun _ => 63) y.rsvSl k (c.p 32 6) })).holdRuns).reply x 0 []))
      ∧ (s.Issued x 0x13 [(0, 12)] c → s.rd (niB n) (F.NI_SC0_RSV0_VALID.ix k) = 1 → s.rsvHeld n
          (s.rd (niB n) (F.NI_SC0_RSV0_ENTRY.ix k)) (s.rd (niB n) (F.NI_SC0_RSV0_RESP.ix k) == 1) = true →
        exec (.rsvSc0Free x) s = .next s)
      ∧ (s.Issued x 0x13 [(0, 12)] c → (s.rd (niB n) (F.NI_SC0_RSV0_VALID.ix k) ≠ 1 ∨ s.rsvHeld n
          (s.rd (niB n) (F.NI_SC0_RSV0_ENTRY.ix k)) (s.rd (niB n) (F.NI_SC0_RSV0_RESP.ix k) == 1) = false) →
        exec (.rsvSc0Free x) s = .next ((((((s.begin x).wr (niB n) (F.NI_SC0_RSV0_VALID.ix k) 0).wr (niB n)
          (F.NI_SC0_RSV0_GRANTED.ix k) 0).updNi n (fun y => { y with rsvSl := mset (fun _ => 63) y.rsvSl k 63 })).holdRuns).reply
          x 0 []))
      ∧ (s.Issued x 0x14 [(0, 12), (16, 6), (32, 16), (48, 16)] c →
        (s.begin x).rd (niB n) F.NI_SC1_CAP_CAP < (s.begin x).rateSum n k (c.p 32 16) →
        exec (.rsvSc1 x) s = .next ((s.begin x).reply x 0x000F
          (leBytes 2 4 ++ leBytes 4 ((s.begin x).rateSum n k (c.p 32 16)) ++ leBytes 2 0)))
      ∧ (s.Issued x 0x14 [(0, 12), (16, 6), (32, 16), (48, 16)] c →
        (s.begin x).rateSum n k (c.p 32 16) ≤ (s.begin x).rd (niB n) F.NI_SC1_CAP_CAP →
        exec (.rsvSc1 x) s = .next ((((((s.begin x).wr (niB n) (shpRate k) (c.p 32 16)).wr (niB n) (shpBurst k) (c.p 48 16)).wr
          (niB n) (shpGranted k) 1).updNi n (fun y => { y with shpSl := mset (fun _ => 63) y.shpSl k (c.p 16 6) })).reply x 0 []))
      ∧ (s.Issued x 0x15 [(0, 12)] c →
        exec (.rsvSc1Free x) s = .next ((((s.begin x).wr (niB n) (shpGranted k) 0).updNi n
          (fun y => { y with shpSl := mset (fun _ => 63) y.shpSl k 63 })).reply x 0 []))))

/-- A checked route goes where it says (R133): its walk takes one output per hop, each below the radix of its router, with its turn
allowed, and its last link ends at the destination of the entry. -/
def Obligations.CheckedRouteEndsAtItsEntry : Prop :=
  ∀ (s : State) (t e : Nat) (y : Entry) (i : RouteInfo), s.routeCheck t e y = .ok i →
    1 ≤ y.nhops ∧ y.nhops ≤ 16 ∧ ∃ w : List (Nat × Nat), routeWalk s.rom t e y.path y.nhops = .ok w ∧ w.length = y.nhops
      ∧ (∀ h ∈ w, h.2 < (rtrRec s.rom h.1).radix ∧ farKind s.rom h.1 h.2 ≠ 0)
      ∧ ∃ h ∈ w.getLast?, farEnd s.rom (.rtr 0 h.1 h.2) = some (if e < 256 then .ni 0 e else .span 0 (e - 256))

/-- R493: while STR.BOOT.STATE is not RUN, the front end answers PING with OK and every other command with NOT_READY. The command is
the next of its stream, and nothing blocks its start; the PING has an intact header, a path that may send it and no reserved
parameter bit set, so that no rule refuses it. -/
def Obligations.OnlyPingIsAnsweredOutsideRun : Prop :=
  ∀ (s : State) (x : Nat) (c : Cmd), s.rd strB F.STR_BOOT_STATE ≠ 3 → s.cmdQ.find? (fun c => c.id == x) = some c →
    s.cmdQ.any (fun d => d.sameStream c && decide (d.id < x)) = false →
    s.active.any (fun d => d.sameStream c && (c.fence || !d.begun)) = false → s.active.length < 16 → s.floorRun = false →
    (c.op ≠ 0 → exec (.cmdStart x) s = .next (({ s with cmdQ := s.cmdQ.filter (fun d => d.id != x) } : State).sendReply
        { c with t0 := s.clock } 4 []))
    ∧ (c.op = 0 → c.len ≤ 240 → (∀ k, c.carried = some k → k = 16 + c.len) → bitAt (s.pathMask c.path) 0 = true →
        c.only [] = true → c.begun = false → s.cmd x = none →
        ∃ t, exec (.cmdStart x) s = .next t ∧ t.cmd x = some { c with t0 := s.clock }
          ∧ exec (.ping x) t = .next ((t.begin x).reply x 0 (leBytes 4 (t.word (strB + 4)).toNat)))

/-- The general commands answer, and a command past its limit is answered TIMEOUT on its path.

The general commands answer with what R496 gives them, CLAIM_STATUS of no resource with BAD_PARAM; AUTH_SET writes one mask word and REMOTE_CMD (R488).

A command's limit (R481, R484, R486, R492, R525): it is answered TIMEOUT on its path, in the mailbox's reply packet with BUSY 0 and
DONE 1, or by a CMD packet from the home NI's system queue, and ends; one that has still to take effect stays, answered, and takes effect
later. One that waits for leave withdraws its request and is answered NO_LEAVE. -/
def Obligations.GeneralCommandsAndTimeouts : Prop :=
  (∀ (s : State) (x : Nat) (c : Cmd),
      (s.Issued x 0x00 [] c →
        exec (.ping x) s = .next ((s.begin x).reply x 0 (leBytes 4 (s.word (strB + 4)).toNat)))
      ∧ (s.Issued x 0x01 [] c →
        exec (.info x) s = .next ((s.begin x).reply x 0
          (leBytes 4 (s.rd strB F.STR_FW_VER_VER) ++ leBytes 4 s.rom.genId ++ leBytes 4 s.cmdStat)))
      ∧ (s.Issued x 0x02 [(0, 2), (8, 8)] c → s.claimOk (c.p 0 2) (c.p 8 8) = true →
        exec (.claimStatus x) s = .next ((s.begin x).reply x 0
          (leBytes 1 (s.claimOf (c.p 0 2) (c.p 8 8)).1 ++ leBytes 1 (s.claimOf (c.p 0 2) (c.p 8 8)).2)))
      ∧ (s.Issued x 0x02 [(0, 2), (8, 8)] c → s.claimOk (c.p 0 2) (c.p 8 8) = false →
        exec (.claimStatus x) s = .next ((s.begin x).reply x 3 []))
      ∧ (s.Issued x 0x05 [(0, 3), (8, 1), (32, 32)] c →
        exec (.authSet x) s = .next ((((s.begin x).wr strB (F.STR_CMD_AUTH_MASK.ix (c.p 0 3)) (c.p 32 32)).wr strB
          F.STR_CTL_REMOTE_CMD (c.p 8 1)).reply x 0 [])))
  ∧ (∀ (s : State) (x : Nat),
      (s.cmd x = none → exec (.cmdTimeout x) s = .next s)
      ∧ ∀ c : Cmd, s.cmd x = some c →
      (∀ (l : Leave) (w : State), s.leaveOf c = some l → w = s.give l.kind l.who →
        (l.kind = 2 → exec (.cmdTimeout x) s = .next ((w.updPln l.who (fun v => { v with test := none })).reply x 7 []))
        ∧ (l.kind = 3 → exec (.cmdTimeout x) s = .next ((w.updLk l.who (fun k => { k with want := 0, cmd := none })).reply x 7 []))
        ∧ (l.kind = 4 → exec (.cmdTimeout x) s = .next (w.reply x 7 [])))
      ∧ (s.leaveOf c = none → c.late = true → exec (.cmdTimeout x) s = .next { s with cmds := s.cmds.filter (fun d => d.id != x) })
      ∧ (s.leaveOf c = none → c.late = false → ∀ v w : State,
        w = { s with cmds := if c.begun then s.cmds.filter (fun d => d.id != x)
                             else s.cmds.map (fun d => if d.id = x then { d with late := true } else d) } →
        v = (w.count strB F.STR_CMD_CNT_COUNT 1).wr strB F.STR_CMD_STAT_ERR 1 →
        (c.path = 2 → exec (.cmdTimeout x) s = .next
          (v.pushVn3 v.homeNi 3 1 c.src 63 c.tag c.gen 0 (replyBytes c s.clock 0x000C [])))
        ∧ (c.path ≠ 2 → ∀ m, m = (if c.path = 1 then 3 else c.src) → exec (.cmdTimeout x) s = .next
          ((((v.putBytes (strB + 0x2100 + 0x200 * m) (replyBytes c s.clock 0x000C [])).wr strB (F.STR_MBX_BUSY.ix m) 0).wr strB
            (F.STR_MBX_DONE.ix m) 1).glEvent 6 0))
        ∧ (∃ t : State, exec (.cmdTimeout x) s = .next t ∧ t.cmd x = if c.begun then none else some { c with late := true })))

/-- Boot, and resets of the Starter core.

Boot (R475 to R480, R240, R472): after its self-check the core waits for an image or verifies the one it has, or it enters FAILED where
the ROM cannot be read or has another digest; a verified image enters RUN with REMAP set and the floors owed, any other enters FAILED with
its cause. Out of their states both do nothing.

A reset of the Starter core alone (R472, R480, R494, R502): every executing command is answered STARTER_RESET and leaves, boot
starts again and REMAP clears; the watchdog raises its event and does the same, unless its limit
is 0. -/
def Obligations.BootAndStarterCoreReset : Prop :=
  (∀ s : State,
      (s.pacer.rst = 0 → s.rd strB F.STR_BOOT_STATE = 0 → (s.ready = true ∨ 3 ≤ s.rd glbB F.GLB_START_STAT_STEP) →
        exec (.bootSelfcheck true) s = .next
          (if bootRomOk then s.wr strB F.STR_BOOT_STATE (if s.flag strB F.STR_BOOT_FW_OK then 2 else 1) else s.bootFail 6)
        ∧ exec (.bootSelfcheck false) s = .next (s.bootFail 6))
      ∧ ((s.pacer.rst ≠ 0 ∨ s.rd strB F.STR_BOOT_STATE ≠ 0 ∨ s.ready = false ∧ s.rd glbB F.GLB_START_STAT_STEP < 3) →
        ∀ ok, exec (.bootSelfcheck ok) s = .next s)
      ∧ (s.rd strB F.STR_BOOT_STATE ≠ 2 → exec .bootVerifyDone s = .next s)
      ∧ (s.rd strB F.STR_BOOT_STATE = 2 →
        exec .bootVerifyDone s = .next
          (if s.imageErr = 0 then
            { ((((((s.wr strB F.STR_BOOT_STATE 3).wr strB F.STR_BOOT_ERR 0).wr strB F.STR_BOOT_FW_OK 1).wr strB F.STR_FW_VER_VER
              (s.sramNat 16 4)).wr cmxB F.CMX_CTL_REMAP 1).wr glbB F.GLB_SC0_STAT_FLOOR_BUSY 1) with floorRun := true }
          else (s.wr strB F.STR_BOOT_FW_OK 0).bootFail s.imageErr)))
  ∧ (∀ s : State,
      (∃ t : State, exec .starterCoreReset s = .next t ∧ t.cmds = [] ∧ t.rd strB F.STR_BOOT_STATE = 0 ∧ t.rd cmxB F.CMX_CTL_REMAP = 0
        ∧ t.cmdQ = s.cmdQ ∧ t.starter.sram = s.starter.sram ∧ t.starter.wdog = s.clock ∧ t.floorRun = false)
      ∧ (s.rd strB F.STR_WDOG_LIMIT = 0 → exec .wdogExpire s = .next s)
      ∧ (s.rd strB F.STR_WDOG_LIMIT ≠ 0 → exec .wdogExpire s = .next (s.glEvent 6 2).coreReset
          ∧ exec .starterCoreReset (s.glEvent 6 2) = .next (s.glEvent 6 2).coreReset))

/-- The MSP (R485): block writes fill MBX3's command buffer, the doorbell submits it or, at a busy mailbox, is an overrun, the status read
clears DONE, the reads return the reply buffer, each with its PEC; a write with a wrong PEC under PEC_REQ, with no data, or to the buffer
while it is busy is NACKed. While the block sleeps the matcher stretches SCL, and past its limit the byte is NACKed. -/
def Obligations.MspTransfers : Prop :=
  ∀ s : State,
    (s.mspReady = true →
      (∀ (l : List Byte) (pec : Option Byte), s.rd strB (F.STR_MBX_BUSY.ix 3) ≠ 1 → 1 ≤ l.length → l.length ≤ 128 →
        (s.pecOk ([0x10, BitVec.ofNat 8 l.length] ++ l) pec = true →
          exec (.mspBlockWriteLow l pec) s = .next ((s.pokeBytes (strB + 0x2600) 0 l).mspOut (some [])))
        ∧ (s.pecOk ([0x11, BitVec.ofNat 8 l.length] ++ l) pec = true →
          exec (.mspBlockWriteHigh l pec) s = .next ((s.pokeBytes (strB + 0x2600) 128 l).mspOut (some []))))
      ∧ (∀ (l : List Byte) (pec : Option Byte),
        ((s.rd strB (F.STR_MBX_BUSY.ix 3) = 1 ∨ l.length = 0 ∨ 128 < l.length ∨
            s.pecOk ([0x10, BitVec.ofNat 8 l.length] ++ l) pec = false) → exec (.mspBlockWriteLow l pec) s = .next (s.mspOut none))
        ∧ ((s.rd strB (F.STR_MBX_BUSY.ix 3) = 1 ∨ l.length = 0 ∨ 128 < l.length ∨
            s.pecOk ([0x11, BitVec.ofNat 8 l.length] ++ l) pec = false) → exec (.mspBlockWriteHigh l pec) s = .next (s.mspOut none)))
      ∧ (∀ pec, s.pecOk [0x12, 1] pec = true →
        (s.rd strB (F.STR_MBX_BUSY.ix 3) ≠ 1 →
          exec (.mspDoorbell 1 pec) s = .next (((s.wr strB (F.STR_MBX_BUSY.ix 3) 1).submit
            { id := 0, path := 1, src := 0, bytes := s.getBytes (strB + 0x2600) 64 }).mspOut (some [])))
        ∧ (s.rd strB (F.STR_MBX_BUSY.ix 3) = 1 →
          exec (.mspDoorbell 1 pec) s = .next ((s.wr strB (F.STR_MBX_OVERRUN.ix 3) 1).mspOut (some []))))
      ∧ (∀ d pec, (d ≠ 1 ∨ s.pecOk [0x12, d] pec = false) → exec (.mspDoorbell d pec) s = .next (s.mspOut none))
      ∧ exec .mspStatusRead s = .next ((s.wr strB (F.STR_MBX_DONE.ix 3) 0).mspData 0x13 (leBytes 1
          (s.rd strB (F.STR_MBX_BUSY.ix 3) + 2 * s.rd strB (F.STR_MBX_DONE.ix 3) + 4 * s.rd strB (F.STR_MBX_OVERRUN.ix 3))))
      ∧ exec .mspReplyReadLow s = .next (s.mspData 0x14 (128 :: s.getBytes (strB + 0x2700) 32))
      ∧ exec .mspReplyReadHigh s = .next (s.mspData 0x15 (128 :: s.getBytes (strB + 0x2780) 32))
      ∧ exec .mspAddressMatch s = .next s)
    ∧ (s.mspReady = false →
      (∀ (l : List Byte) (d : Byte) (pec : Option Byte), exec (.mspBlockWriteLow l pec) s = .next (s.mspOut none)
        ∧ exec (.mspBlockWriteHigh l pec) s = .next (s.mspOut none) ∧ exec (.mspDoorbell d pec) s = .next (s.mspOut none)
        ∧ exec .mspStatusRead s = .next (s.mspOut none) ∧ exec .mspReplyReadLow s = .next (s.mspOut none)
        ∧ exec .mspReplyReadHigh s = .next (s.mspOut none))
      ∧ (∃ t : State, exec .mspAddressMatch s = .next t ∧ t.starter.msp = true))
    ∧ (s.starter.msp = false → exec .mspStretchLimit s = .next s)
    ∧ (s.starter.msp = true → (∃ t : State, exec .mspStretchLimit s = .next t ∧ t.starter.msp = false ∧ t.starter.out = s.starter.out ++ [none] ∧ t.csr = s.csr))

/-- The floors are recomputed, and commands queue and start.

Floors (R238, R240, R242): the recomputation gives every region its bound floor, pins the regions that SC0-fit entries cross,
leaves no region that a granted reservation crosses in IDLE, and clears what it owed. Where nothing is owed nothing changes.

The front end (R482, R486 to R493): a CMD packet of an authorised node that any NI receives joins the queue, one of another node is
answered NOT_PERMITTED and one for a full queue BUSY; the first command of its stream starts once nothing blocks it, or is answered with the
status that refuses it. With no such packet, and while a command is blocked, nothing changes. -/
def Obligations.FloorsAndCommandFrontEnd : Prop :=
  (∀ s : State,
      (s.flag glbB F.GLB_SC0_STAT_FLOOR_BUSY = false → exec .floorRecompute s = .next s)
      ∧ (s.flag glbB F.GLB_SC0_STAT_FLOOR_BUSY = true → s.rom.regions.length ≤ 16 →
      (∃ t : State, exec .floorRecompute s = .next t ∧ (∀ g, g < s.rom.regions.length →
          t.rd pcrB (F.PCR_SC0_FLOOR_FLOOR_MHZ.ix g) = s.floorOf g s.fitEntries % 2 ^ (F.PCR_SC0_FLOOR_FLOOR_MHZ.ix g).w
          ∧ (bitAt (t.rd pcrB F.PCR_SC0_PIN_RUN) g = true → t.rgState g ≠ 1))
        ∧ t.rd pcrB F.PCR_SC0_PIN_PIN = (s.fitEntries.foldl (fun a x => a ||| x.2.2.regmask) 0) % 2 ^ F.PCR_SC0_PIN_PIN.w
        ∧ t.rd glbB F.GLB_SC0_STAT_FLOOR_BUSY = 0 ∧ t.floorStep = 0 ∧ t.floorRun = false)))
  ∧ (∀ s : State,
      (∀ n, s.hasNi n = true → (s.ni n).nextCmd = none → exec (.cmdPacketReceive n) s = .next s)
      ∧ (∀ (n k : Nat) (p : Pk) (c : Cmd) (w : State), s.hasNi n = true → (s.ni n).nextCmd = some k → (s.ni n).pk k = some p →
        c = { id := 0, path := 2, src := p.hdr.src, tag := p.hdr.tag, gen := p.hdr.gen, bytes := p.got,
              carried := some p.got.length, t0 := s.clock } →
        w = (s.setNi n { s.ni n with inbox := (s.ni n).inbox.filter (fun j => j != k) }).dropPk n k →
        (s.authNode p.hdr.src = true → (s.cmdQ.filter (fun c => c.path == 2)).length < 32 →
          exec (.cmdPacketReceive n) s = .next (w.submit c)
          ∧ (∃ t : State, exec (.cmdPacketReceive n) s = .next t ∧ t.cmdNext = s.cmdNext + 1 ∧ t.cmdQ = s.cmdQ ++ [{ c with id := s.cmdNext }]
            ∧ (t.ni n).inbox = (s.ni n).inbox.filter (fun j => j != k)))
        ∧ (s.authNode p.hdr.src = false → exec (.cmdPacketReceive n) s = .next (w.sendReply c 0x0010 []))
        ∧ (s.authNode p.hdr.src = true → 32 ≤ (s.cmdQ.filter (fun c => c.path == 2)).length →
          exec (.cmdPacketReceive n) s = .next (((w.count strB F.STR_QFULL_CNT_COUNT 1).wr strB F.STR_CMD_STAT_QFULL 1).sendReply c 5 [])))
      ∧ (∀ x, s.cmdQ.find? (fun c => c.id == x) = none → exec (.cmdStart x) s = .next s)
      ∧ (∀ (x st : Nat) (c : Cmd), s.cmdQ.find? (fun c => c.id == x) = some c → st = s.startCheck { c with t0 := s.clock } →
        (s.cmdQ.any (fun d => d.sameStream c && decide (d.id < x)) = false →
          s.active.any (fun d => d.sameStream c && (c.fence || !d.begun)) = false → s.active.length < 16 →
          (s.floorRun = true → c.op = 0) →
          (st = 0 → exec (.cmdStart x) s = .next { s with
            cmdQ := s.cmdQ.filter (fun d => d.id != x), cmds := s.cmds ++ [{ c with t0 := s.clock }] })
          ∧ (st ≠ 0 → exec (.cmdStart x) s = .next (({ s with cmdQ := s.cmdQ.filter (fun d => d.id != x) } : State).sendReply
            { c with t0 := s.clock } st [])))
        ∧ ((s.cmdQ.any (fun d => d.sameStream c && decide (d.id < x)) = true ∨
          s.active.any (fun d => d.sameStream c && (c.fence || !d.begun)) = true ∨ 16 ≤ s.active.length ∨
          s.floorRun = true ∧ c.op ≠ 0) → exec (.cmdStart x) s = .next s)))

/-- Markers advance and track Fabric Time, and calibration runs end.

The root's marker (R292): Fabric Time advances to the next multiple of 1,024 carrier cycles by the increment in force, the count
of cycles starts again, the increment that the last marker carried comes into force, and every child of the root gets the marker
with the root's time. Without the carrier no marker leaves.

A marker that arrives `x` past the last carrier edge (R291, R292, R293, R303): the step whose marker it is applies, the increment
that the marker before carried comes into force, a new counter is loaded, and a tracking one takes its error; the sixteenth error
gives the mean, spread over the next 16 periods, and a mean above 1 ns is a tracking failure with a run of calibration. The marker
goes on to the node's children with the node's own time, the loaded one where a counter was loaded. Where none is on its way nothing
changes.

Calibration (R296, R297, R298, R322): a run whose 256 round trips agree loads HOP_DLY and ends; a fourth failure marks the hop
uncalibrated, is shown, and raises TIME_CAL_FAIL; the period starts the due runs. Where no run is in progress, and before the period has
passed, nothing changes. -/
def Obligations.MarkersAndCalibration : Prop :=
  (∀ s : State, (s.time.carrier = false → exec .timeMarker s = .next s)
    ∧ (s.time.carrier = true → (∀ p j, s.time.step = some p → p.placed = some j → 2 ≤ j) →
      (∃ t : State, exec .timeMarker s = .next t ∧ t.time.ft = s.time.ft + s.rd64 timB F.TIM_INC_LO_INC F.TIM_INC_HI_INC * (1024 - s.time.tc) ∧ t.time.tc = 0
        ∧ t.time.marks = s.time.marks + 1 ∧ t.clock = s.clock + (1024 - s.time.tc)
        ∧ t.rd64 timB F.TIM_INC_LO_INC F.TIM_INC_HI_INC = s.time.incCar % 2 ^ 40 ∧ t.ports = s.ports
        ∧ (s.time.slew = none → s.time.step = none → (∀ r, (s.node r).mark = none) →
            ∀ r, r < s.rom.rtrs.length → isRoot s.rom r = false → s.passNode r = false →
              s.liveUp 10 r = s.rom.rtrs.findIdx (fun x => x.timeParent == 0xFFFF) →
              (t.node r).mark = some { time := t.time.ft, inc := s.time.incNew }))))
  ∧ (∀ (s : State) (r x : Nat), ((s.hasRtr 0 r = false ∨ (s.node r).mark = none) → exec (.markerArrival r x) s = .next s)
    ∧ ∀ (v : Node) (m : Marker) (b a e : Int), s.hasRtr 0 r = true → v = s.node r → v.mark = some m →
      isRoot s.rom r = false → v.cal = true → s.liveUp 10 r ≠ r →
      b = ((((s.nodeFt r : Int) + (match m.step with
        | some (0, d) => d
        | _ => 0)).toNat : Nat) : Int) →
      a = ((m.time + 2 ^ 24 * v.dly : Nat) : Int) - x → e = (a - b) / 2 ^ 24 →
      (∃ t : State, exec (.markerArrival r x) s = .next t ∧ (t.node r).mark = none ∧ (t.node r).since = s.clock ∧ (t.node r).inc = v.incNext ∧ (t.node r).incNext = m.inc
        ∧ (v.load = true → (t.node r).load = false ∧ (t.node r).base = a.toNat)
        ∧ (v.load = false → (t.node r).base = b.toNat)
        ∧ (v.load = false → v.frozen = false → v.track = false →
          (v.n < 15 → (t.node r).sum = v.sum + e ∧ (t.node r).n = v.n + 1 ∧ (t.node r).track = false)
          ∧ (15 ≤ v.n → (v.sum + e).natAbs ≤ 16 * 256 → (t.node r).sum = 0 ∧ (t.node r).n = 0 ∧ (t.node r).track = false
              ∧ (t.node r).mean = (v.sum + e) / 16 ∧ (t.node r).spread = 1024 * ((v.sum + e) / 16) ∧ (t.node r).left = 16)
          ∧ (15 ≤ v.n → 16 * 256 < (v.sum + e).natAbs → (t.node r).track = true ∧ (t.node r).run = true
              ∧ (t.node r).mean = (v.sum + e) / 16 ∧ (t.node r).spread = 0))
        ∧ ∀ c, c < s.rom.rtrs.length → isRoot s.rom c = false → s.passNode c = false → s.liveUp 10 c = r →
            (t.node c).mark = some { m with time := (if v.load then a.toNat else b.toNat) + x }))
  ∧ (∀ s : State,
      (∀ (r d : Nat) (rtt : List (Option Nat)), s.hasRtr 0 r = true → (s.node r).run = true → hopDly rtt = some d →
        s.time.calCmds = [] → s.time.freezes = [] → s.pacer.cmds = [] → s.pacer.inst = none →
        (∀ g, (s.rg g).step = none ∧ (s.rg g).comb = false ∧ (s.rg g).goal = none ∧ (s.rg g).wake = 0) →
        (∃ t : State, exec (.calRunDone r rtt) s = .next t ∧ (t.node r).run = false ∧ (t.node r).cal = true ∧ (t.node r).dly = d
          ∧ (t.node r).track = false))
      ∧ (∀ (r : Nat) (rtt : List (Option Nat)), s.hasRtr 0 r = true → (s.node r).run = true → hopDly rtt = none →
          (s.node r).fails < 3 →
          exec (.calRunDone r rtt) s = .next (s.setNode r { s.node r with fails := (s.node r).fails + 1 }))
      ∧ (∀ (r : Nat) (rtt : List (Option Nat)), s.hasRtr 0 r = true → (s.node r).run = true → hopDly rtt = none →
          3 ≤ (s.node r).fails → s.time.calCmds = [] → s.time.freezes = [] → s.pacer.cmds = [] → s.pacer.inst = none →
          (∀ g, (s.rg g).step = none ∧ (s.rg g).comb = false ∧ (s.rg g).goal = none ∧ (s.rg g).wake = 0) →
          (∃ t : State, exec (.calRunDone r rtt) s = .next t ∧ (t.node r).run = false ∧ (t.node r).cal = false ∧ (t.node r).fails = 0
            ∧ t.flag timB F.TIM_STAT_CAL_FAIL = true ∧ t.rd timB F.TIM_CAL_STAT_FAIL_NODE = r % 65536))
      ∧ (∀ (r : Nat) (rtt : List (Option Nat)), (s.hasRtr 0 r = false ∨ (s.node r).run = false) →
          exec (.calRunDone r rtt) s = .next s)
      ∧ (s.clock < s.time.calAt + 1250000 * atLeast1 (s.rd timB F.TIM_CAL_CFG_PERIOD) → exec .calPeriod s = .next s)
      ∧ (s.time.calAt + 1250000 * atLeast1 (s.rd timB F.TIM_CAL_CFG_PERIOD) ≤ s.clock →
          (∃ t : State, exec .calPeriod s = .next t ∧ t.time.calAt = s.clock ∧ ∀ r, r < s.rom.rtrs.length → isRoot s.rom r = false →
            (s.node r).frozen = false → s.passNode r = false → (s.node r).cal = false → (t.node r).run = true)))

/-- Time steps apply, and the PPS input is sampled.

A placed step reaches its marker (R303): Fabric Time is set, the step is no longer pending, the step window opens, and its end
closes it after 10 µs. The second that the next PPS edge is expected at keeps its label, but under a commanded step (log 40).

PPS and the Time Set port (R305, R309, R310, R322): with PPS in force a loaded time of day labels a later edge or is rejected; an
accepted edge of the selected polarity gives the servo its sample, one outside the window or too soon is counted as spurious; a missed
one is noted and the next second expected. With PPS not selected the port is rejected and an edge does nothing. -/
def Obligations.TimeStepsAndPps : Prop :=
  (∀ s : State,
      ((s.time.carrier = false ∨ s.time.step = none ∨ ∃ p, s.time.step = some p ∧ p.placed = none) → exec .timeStepApply s = .next s)
      ∧ (s.clock < s.time.stepAt + 12500 → exec .stepWindowEnd s = .next s)
      ∧ (∀ p j, s.time.carrier = true → s.time.step = some p → p.placed = some j → j ≤ 16 →
        (∃ t : State, exec .timeStepApply s = .next t ∧ t.time.step = none ∧ t.time.win = true ∧ t.flag timB F.TIM_STAT_STEP_DONE = true
          ∧ t.rootOk = false ∧ (p.cmd = none → t.time.expect = s.time.expect)
          ∧ (j ≤ 1 → t.time.ft = (if p.abs then p.v.toNat
              else (((s.time.ft + s.rd64 timB F.TIM_INC_LO_INC F.TIM_INC_HI_INC * (1024 - s.time.tc) : Nat) : Int) + p.v).toNat))))
      ∧ (s.time.stepAt + 12500 ≤ s.clock →
          exec .stepWindowEnd s = .next (({ s with time := { s.time with win := false } }).refreshTime)))
  ∧ (∀ s : State,
      (s.srcSel ≠ 1 → ∀ (sec : BitVec 48) (ns : BitVec 32), exec (.tsetLoad sec ns) s = .next (s.wr timB F.TIM_STAT_TSET_REJ 1))
      ∧ (s.timeSrc ≠ 1 → s.srcSel ≠ 1 → (∀ e, exec (.ppsInEdge e) s = .next s))
      ∧ (s.timeSrc ≠ 1 → exec .ppsMiss s = .next s)
      ∧ (∀ x, s.time.expect = some x → ftNs s.time.ft ≤ x + s.rd timB F.TIM_PPS_CFG_WIN → exec .ppsMiss s = .next s)
      ∧ (s.time.expect = none → exec .ppsMiss s = .next s)
      ∧ (s.timeSrc = 1 → s.srcSel = 1 →
      (∀ (sec : BitVec 48) (ns : BitVec 32), ns.toNat < 1000000000 → s.time.step = none →
        exec (.tsetLoad sec ns) s = .next { s with time := { s.time with
          label := some (sec.toNat * 1000000000 + ns.toNat, s.clock + 400) } })
      ∧ (∀ (sec : BitVec 48) (ns : BitVec 32), 1000000000 ≤ ns.toNat →
        exec (.tsetLoad sec ns) s = .next (s.wr timB F.TIM_STAT_TSET_REJ 1))
      ∧ (∀ x, s.time.expect = some x → x + s.rd timB F.TIM_PPS_CFG_WIN < ftNs s.time.ft →
        exec .ppsMiss s = .next (((s.wr timB F.TIM_STAT_PPS_MISS 1).updTime (fun t => { t with
          expect := t.expect.map (· + 1000000000) })).missed.refreshTime))
      ∧ (∀ (rise : Bool) (t : Nat) (e : Int), s.flag timB F.TIM_CTL_PPS_POL ≠ rise → s.time.label = none → s.time.expect ≠ none →
        e = (t : Int) - (BitVec.ofNat 32 (s.rd timB F.TIM_PPS_IN_DLY_DLY)).toInt - 256 * (s.time.expect.getD 0 : Nat) →
        s.rd timB F.TIM_STAT_STATE = 3 → beyond e (s.rd timB F.TIM_PPS_CFG_WIN) = false → s.rgState s.rom.homeRegion = 0 →
        exec (.ppsInEdge ⟨rise, t⟩) s = .next ((({ s with time := { s.time with
          lastClk := some s.clock, expect := some (s.time.expect.getD 0 + 1000000000) } }).sample e 1 false).refreshTime))
      ∧ (∀ (rise : Bool) (t : Nat) (e : Int), s.flag timB F.TIM_CTL_PPS_POL ≠ rise → s.time.label = none → s.time.expect ≠ none →
        e = (t : Int) - (BitVec.ofNat 32 (s.rd timB F.TIM_PPS_IN_DLY_DLY)).toInt - 256 * (s.time.expect.getD 0 : Nat) →
        ((s.rd timB F.TIM_STAT_STATE = 3 ∨ s.rd timB F.TIM_STAT_STATE = 4) ∧ beyond e (s.rd timB F.TIM_PPS_CFG_WIN) = true)
          ∨ (s.rd timB F.TIM_STAT_STATE ≠ 3 ∧ s.rd timB F.TIM_STAT_STATE ≠ 4 ∧ ∃ c, s.time.lastClk = some c ∧ s.clock < c + 625000000) →
        exec (.ppsInEdge ⟨rise, t⟩) s = .next (s.count timB F.TIM_PPS_SPUR_CNT_COUNT 1))
      ∧ (∀ (rise : Bool) (t v c : Nat) (e : Int), s.flag timB F.TIM_CTL_PPS_POL ≠ rise → s.time.label = some (v, c) → c ≤ s.clock →
        e = (t : Int) - (BitVec.ofNat 32 (s.rd timB F.TIM_PPS_IN_DLY_DLY)).toInt - 256 * (v : Nat) →
        s.rd timB F.TIM_STAT_STATE < 3 → s.time.lastClk = none → s.rgState s.rom.homeRegion = 0 →
        exec (.ppsInEdge ⟨rise, t⟩) s = .next ((({ s with time := { s.time with
          lastClk := some s.clock, label := none, expect := some (v + 1000000000) } }).sample e 1 true).refreshTime))
      ∧ (∀ (rise : Bool) (t : Nat), s.flag timB F.TIM_CTL_PPS_POL = rise → exec (.ppsInEdge ⟨rise, t⟩) s = .next s)))

/-- Span time offsets, holdover, the carrier and slews.

Time across Span (R305, R320): at the child each exchange adds its offset to the interval, and the interval's mean is shown and
sampled; the 16 that follow a training are passed over. An end that is no CHILD, or an exchange that is not the link's, changes
nothing.

Holdover, carrier and slew ends (R306, R311, R312, R322): HOLD_ELAPSED past its limit ends holdover in FREERUN, a count outside
1,240 to 1,260 is a loss of the carrier, its return starts from UNSET with the whole tree to calibrate, and a slew that has removed its
offset ends. Where none of this holds nothing changes. -/
def Obligations.SpanTimeHoldoverAndSlew : Prop :=
  (∀ (s : State) (k : Nat),
      (∀ t1 t2 t3 t4 : Nat, (s.hasSpan k = false ∨ s.rd (spB k) F.SP_TIME_CFG_ROLE ≠ 2 ∨ (s.lk (4 * k)).exch ≠ some (t1, t2, t3, t4)) →
        exec (.spanTimeExchange k t1 t2 t3 t4) s = .next s)
      ∧ ((s.hasSpan k = false ∨ s.rd (spB k) F.SP_TIME_CFG_ROLE ≠ 1 ∧ s.rd (spB k) F.SP_TIME_CFG_ROLE ≠ 2) →
        exec (.spanTimeSample k) s = .next s)
      ∧ (∀ (sum : Int) (n skip : Nat), s.hasSpan k = true →
        mget (fun _ => ((0 : Int), (0 : Nat), (0 : Nat))) s.time.spanO k = (sum, n, skip) →
        (s.rd (spB k) F.SP_TIME_CFG_ROLE = 1 → exec (.spanTimeSample k) s = .next (s.updTime (fun t => { t with
          spanO := mset (fun _ => ((0 : Int), (0 : Nat), (0 : Nat))) t.spanO k (0, 0, skip),
          spanMiss := (if n = 0 then [k] else []) ++ t.spanMiss.filter (fun j => j != k) })))
        ∧ (s.rd (spB k) F.SP_TIME_CFG_ROLE = 2 → 0 < skip → ∀ t1 t2 t3 t4 : Nat, (s.lk (4 * k)).exch = some (t1, t2, t3, t4) →
          exec (.spanTimeExchange k t1 t2 t3 t4) s = .next ((s.updLk (4 * k) (fun l => { l with exch := none })).updTime (fun t => { t with
            spanO := mset (fun _ => ((0 : Int), (0 : Nat), (0 : Nat))) t.spanO k (sum, n, skip - 1) }))))
      ∧ ∀ (sum : Int) (n : Nat), s.hasSpan k = true → s.rd (spB k) F.SP_TIME_CFG_ROLE = 2 →
      mget (fun _ => ((0 : Int), (0 : Nat), (0 : Nat))) s.time.spanO k = (sum, n, 0) →
      (∀ t1 t2 t3 t4 : Nat, (s.lk (4 * k)).exch = some (t1, t2, t3, t4) →
        exec (.spanTimeExchange k t1 t2 t3 t4) s = .next ((s.updLk (4 * k) (fun l => { l with exch := none })).updTime (fun t => { t with
          spanO := mset (fun _ => ((0 : Int), (0 : Nat), (0 : Nat))) t.spanO k
            (sum + ((((t2 : Int) - t1) - ((t4 : Int) - t3)) - (BitVec.ofNat 32 (s.rd (spB k) F.SP_TIME_ASYM_ASYM)).toInt).tdiv 2,
              n + 1, 0) })))
      ∧ ∀ v : State, v = s.updTime (fun t => { t with
          spanO := mset (fun _ => ((0 : Int), (0 : Nat), (0 : Nat))) t.spanO k (0, 0, 0),
          spanMiss := (if n = 0 then [k] else []) ++ t.spanMiss.filter (fun j => j != k) }) →
        (n ≠ 0 → s.rd timB F.TIM_CTL_SPAN_PORT ≠ k →
          exec (.spanTimeSample k) s = .next (v.wr (spB k) F.SP_TIME_CFG_LAST_O (BitVec.ofInt 16 (sum / n * 16 / 1000)).toNat))
        ∧ (n ≠ 0 → s.timeSrc = 2 → s.srcSel = 2 → s.rd timB F.TIM_CTL_SPAN_PORT = k →
          exec (.spanTimeSample k) s = .next (((v.wr (spB k) F.SP_TIME_CFG_LAST_O
            (BitVec.ofInt 16 (sum / n * 16 / 1000)).toNat).sample (sum / n * 256 / 1000) 1000 true).refreshTime))
        ∧ (n = 0 → s.timeSrc = 2 → s.srcSel = 2 → s.rd timB F.TIM_CTL_SPAN_PORT = k →
          exec (.spanTimeSample k) s = .next (v.missed.refreshTime)))
  ∧ (∀ s : State,
      (s.rd timB F.TIM_STAT_STATE = 4 → 1000 * atLeast1 (s.rd timB F.TIM_HOLD_LIM) < s.holdMs →
        exec .holdoverExpire s = .next ((s.timeGo 5).refreshTime))
      ∧ ((s.rd timB F.TIM_STAT_STATE ≠ 4 ∨ s.holdMs ≤ 1000 * atLeast1 (s.rd timB F.TIM_HOLD_LIM)) → exec .holdoverExpire s = .next s)
      ∧ (s.time.carrier = false → ∀ count, exec (.carrierCheck count) s = .next s)
      ∧ (s.time.carrier = true → exec .carrierReturn s = .next s)
      ∧ (s.time.slew ≠ some 0 → exec .slewEnd s = .next s)
      ∧ (∀ count, s.time.carrier = true →
        exec (.carrierCheck count) s = .next (if 1240 ≤ count ∧ count ≤ 1260 then s.wr timB F.TIM_STAT_CARRIER_OK 1
          else ((({ (s.stopNodes.wr timB F.TIM_STAT_CARRIER_OK 0).wr timB F.TIM_STAT_CARRIER_LOSS 1 with
            time := { s.stopNodes.time with carrier := false } }).glEvent 0 4).refreshTime)))
      ∧ (s.time.carrier = false → (∃ t : State, exec .carrierReturn s = .next t ∧ t.time.carrier = true ∧ t.flag timB F.TIM_STAT_CARRIER_OK = true ∧ t.rd timB F.TIM_STAT_STATE = 0
          ∧ ∀ r, r < s.rom.rtrs.length → isRoot s.rom r = false → (t.node r).run = true))
      ∧ (s.time.slew = some 0 → (∃ t : State, exec .slewEnd s = .next t ∧ t.time.slew = none ∧ t.rd timB F.TIM_FREQ_ADJ_ADJ = 0)))

/-- The time commands, and the time pins.

The time commands (R311): TIME_SET labels the next edge or decides an absolute step, TIME_ADJUST steps or slews, TIME_CAL starts
runs on every free hop, TIME_STATUS answers four words. A value out of range is BAD_PARAM, the wrong source or state BAD_STATE, and a
step, slew or freeze under way BUSY.

The time pins (R282, R316, R317, R318, R326): PPS_OUT follows its instants, its enable and valid time; Time sync drives a pulse at a
multiple of PERIOD; an input edge is captured for its owner, for a snapshot the first of its polarity; a marker instant is queued
while its pin is the NI's, and pulsed when it comes. Where these do not hold nothing changes; a marker beyond the queue's 16 is counted
as late. -/
def Obligations.TimeCommandsAndPins : Prop :=
  (∀ (s : State) (x : Nat) (c : Cmd),
      (s.Issued x 0x20 [(0, 48), (48, 32), (80, 2)] c →
        ((1000000000 ≤ c.p 48 32 ∨ 2 ≤ c.p 80 2) → exec (.timeSet x) s = .next ((s.begin x).reply x 3 []))
        ∧ (c.p 48 32 < 1000000000 → c.p 80 2 < 2 → (c.p 80 2 = 0 ∧ s.srcSel ≠ 1 ∨ s.srcSel = 2) →
          exec (.timeSet x) s = .next ((s.begin x).reply x 11 []))
        ∧ (c.p 48 32 < 1000000000 → c.p 80 2 < 2 → (c.p 80 2 = 0 → s.srcSel = 1) → s.srcSel ≠ 2 → s.time.step ≠ none →
          exec (.timeSet x) s = .next ((s.begin x).reply x 6 [])))
      ∧ (s.Issued x 0x21 [(0, 64), (64, 2)] c →
        (s.rd timB F.TIM_STAT_STATE ≠ 1 → exec (.timeAdjust x) s = .next ((s.begin x).reply x 11 []))
        ∧ (s.rd timB F.TIM_STAT_STATE = 1 → 2 ≤ c.p 64 2 → exec (.timeAdjust x) s = .next ((s.begin x).reply x 3 []))
        ∧ (s.rd timB F.TIM_STAT_STATE = 1 → c.p 64 2 < 2 → (s.time.step ≠ none ∨ s.time.slew ≠ none) →
          exec (.timeAdjust x) s = .next ((s.begin x).reply x 6 [])))
      ∧ (s.Issued x 0x22 [] c → (s.time.freezes ≠ [] ∨ s.time.nodes.any (fun e => e.2.frozen) = true) →
        exec (.timeCal x) s = .next ((s.begin x).reply x 6 []))
      ∧ (s.Issued x 0x20 [(0, 48), (48, 32), (80, 2)] c → c.p 48 32 < 1000000000 → s.time.step = none →
        (c.p 80 2 = 0 → s.srcSel = 1 →
          exec (.timeSet x) s = .next (({ s.begin x with time := { s.time with
            label := some (c.p 0 48 * 1000000000 + c.p 48 32, s.clock + 400) } }).reply x 0 []))
        ∧ (c.p 80 2 = 1 → s.srcSel ≠ 2 →
          exec (.timeSet x) s = .next (({ s.begin x with time := { s.time with
            step := some { abs := true, v := ((c.p 0 48 * 1000000000 + c.p 48 32 : Nat) : Int) * 2 ^ 32, cmd := some x } } }).refreshTime)))
      ∧ (s.Issued x 0x21 [(0, 64), (64, 2)] c → s.rd timB F.TIM_STAT_STATE = 1 → s.time.step = none → s.time.slew = none →
        ∀ off : Int, off = (BitVec.ofNat 64 (c.p 0 64)).toInt * 2 ^ 24 →
        (c.p 64 2 = 1 →
          exec (.timeAdjust x) s = .next (({ s.begin x with time := { s.time with
            step := some { abs := false, v := off, cmd := some x } } }).refreshTime))
        ∧ (c.p 64 2 = 0 →
          (∃ t : State, exec (.timeAdjust x) s = .next t ∧ t.time.slew = some off ∧ t.cmd x = none)))
      ∧ (s.Issued x 0x22 [] c → s.time.freezes = [] → s.time.nodes.any (fun e => e.2.frozen) = false →
        (∃ t : State, exec (.timeCal x) s = .next t ∧ ∀ r, r < s.rom.rtrs.length → isRoot s.rom r = false → s.passNode r = false →
          (t.node r).run = true))
      ∧ (s.Issued x 0x23 [] c →
        exec (.timeStatus x) s = .next ((s.begin x).reply x 0 (leBytes 4 (s.word (timB + 4)).toNat
          ++ leBytes 4 (s.word (timB + 0x3C)).toNat ++ leBytes 4 (s.word (timB + 0x74)).toNat ++ leBytes 4 s.holdMs))))
  ∧ (∀ s : State,
      (∀ up : Bool, up = (s.ppsLevel && s.flag timB F.TIM_CTL_PPS_OUT_EN && s.rootOk) →
        exec (.ppsOutPulse up) s = .next { s with time := { s.time with ppsOut := up } })
      ∧ (∀ up : Bool, up ≠ (s.ppsLevel && s.flag timB F.TIM_CTL_PPS_OUT_EN && s.rootOk) → exec (.ppsOutPulse up) s = .next s)
      ∧ (∀ k, (4 ≤ k ∨ s.pinOwner k ≠ 1 ∨ s.rootOk = false ∨ s.syncDue k = false ∨ s.syncMay k = false) →
        exec (.syncPulse k) s = .next s)
      ∧ (∀ k e, (4 ≤ k ∨ s.pinOwner k ≠ 4 ∧ (s.pinOwner k ≠ 2 ∨ s.time.step ≠ none ∨ s.pfEdge k e.rise = false
          ∨ mget (fun _ => none) s.time.pinIn k ≠ none)) → exec (.timeEvtEdge k e) s = .next s)
      ∧ (∀ k, (4 ≤ k ∨ (mget (fun _ => []) s.time.markq k : List Nat) = []
          ∨ ∃ h r, (mget (fun _ => []) s.time.markq k : List Nat) = h :: r ∧ s.wholeNs s.rootStamp < h) →
        exec (.markerPulse k) s = .next s)
      ∧ (∀ k, k < 4 →
        (s.pinOwner k = 1 → s.rootOk = true → s.syncDue k = true → s.syncMay k = true →
          (∃ t : State, exec (.syncPulse k) s = .next t ∧ mget (fun _ => 0) t.time.pinOut k = mget (fun _ => 0) s.time.pinOut k + 1
            ∧ mget (fun _ => 0) t.time.pinEnd k
              = max (mget (fun _ => 0) s.time.pinEnd k) (s.clock + 5 * atLeast1 (s.rd timB (F.TIM_EVT0_WIDTH.ix k)))
            ∧ ∀ j, j ≠ k → mget (fun _ => 0) t.time.pinOut j = mget (fun _ => 0) s.time.pinOut j))
        ∧ (∀ rise t, (s.pinOwner k = 2 ∧ s.pfEdge k rise = true ∧ s.time.step = none ∧ mget (fun _ => none) s.time.pinIn k = none)
            ∨ s.pinOwner k = 4 →
          (∃ u : State, exec (.timeEvtEdge k ⟨rise, t⟩) s = .next u ∧ mget (fun _ => none) u.time.pinIn k = some t ∧ u.csr = s.csr ∧ u.nis = s.nis))
        ∧ (∀ a r, (mget (fun _ => []) s.time.markq k : List Nat) = a :: r → a ≤ s.wholeNs s.rootStamp → s.pinOwner k = 3 →
          (∃ t : State, exec (.markerPulse k) s = .next t ∧ mget (fun _ => 0) t.time.pinOut k = mget (fun _ => 0) s.time.pinOut k + 1
            ∧ (mget (fun _ => []) t.time.markq k : List Nat) = r)))
      ∧ (∀ (n t : Nat), (s.hasNi n = false ∨ (s.flag (niB n) F.NI_GATE_CTL_MARK_EN
            && s.pinOwner (s.rd (niB n) F.NI_GATE_CTL_MARK_PIN) == 3 && s.pinNi (s.rd (niB n) F.NI_GATE_CTL_MARK_PIN) == n
            && s.marksAt n t) = false ∨ s.wholeNs s.rootStamp + 2000 < t) →
        exec (.markerAnnounce n t) s = .next s)
      ∧ (∀ (n k t : Nat), s.hasNi n = true → k = s.rd (niB n) F.NI_GATE_CTL_MARK_PIN →
        (s.flag (niB n) F.NI_GATE_CTL_MARK_EN && s.pinOwner k == 3 && s.pinNi k == n && s.marksAt n t) = true →
        (t < s.wholeNs s.rootStamp + 1000 →
          exec (.markerAnnounce n t) s = .next (s.count timB F.TIM_EVT_LATE_CNT_COUNT 1))
        ∧ (s.wholeNs s.rootStamp + 1000 ≤ t → t ≤ s.wholeNs s.rootStamp + 2000 →
          (∃ u ∈ (mget (fun _ => []) s.time.markq k : List Nat), u < t + 100 ∧ t < u + 100) →
          exec (.markerAnnounce n t) s = .next s)
        ∧ (s.wholeNs s.rootStamp + 1000 ≤ t → t ≤ s.wholeNs s.rootStamp + 2000 →
          16 ≤ (mget (fun _ => []) s.time.markq k : List Nat).length →
          (∀ u ∈ (mget (fun _ => []) s.time.markq k : List Nat), t + 100 ≤ u ∨ u + 100 ≤ t) →
          exec (.markerAnnounce n t) s = .next (s.count timB F.TIM_EVT_LATE_CNT_COUNT 1))
        ∧ (s.wholeNs s.rootStamp + 1000 ≤ t → t ≤ s.wholeNs s.rootStamp + 2000 →
          (mget (fun _ => []) s.time.markq k : List Nat).length < 16 →
          (∀ u ∈ (mget (fun _ => []) s.time.markq k : List Nat), t + 100 ≤ u ∨ u + 100 ≤ t) →
          (∃ v : State, exec (.markerAnnounce n t) s = .next v ∧ (mget (fun _ => []) v.time.markq k : List Nat) = (mget (fun _ => []) s.time.markq k : List Nat) ++ [t]))))

/-- The Pacer's commands.

PWR_STATUS, PWR_BUDGET, PWR_POLICY and PWR_WAKE (R530): each answers or writes the Pacer's registers and answers;
a budget of 0 and an absent region are BAD_PARAM.

PWR_STATE (R506, R508, R517, R530). One that is not refused: every region that it moves starts toward the state, and the command waits
for them; RUN during an instance-wide entry aborts that entry first, and an instance-wide move into a deeper state leaves the home region
for last. A refused one is answered with its status and with the regions that pins hold (R508). -/
def Obligations.PacerCommandsAct : Prop :=
  (∀ (s : State) (x : Nat) (c : Cmd),
      (s.Issued x 0x52 [] c →
        exec (.pwrStatus x) s = .next ((s.begin x).reply x 0 (s.getBytes (pcrB + 4) 1 ++ s.getBytes (pcrB + 0x18) 1
          ++ leBytes 4 (s.viewPcr 0x30 (s.word (pcrB + 0x30))).toNat ++ s.getBytes (pcrB + 0xA0) s.rom.regions.length)))
      ∧ (s.Issued x 0x53 [(0, 16), (32, 20)] c → c.p 0 16 ≠ 0 →
        exec (.pwrBudget x) s = .next ((((s.begin x).wr pcrB F.PCR_GOV_REFILL_STONES (c.p 0 16)).wr pcrB F.PCR_GOV_CAP_STONES
          (c.p 32 20)).reply x 0 []))
      ∧ (s.Issued x 0x53 [(0, 16), (32, 20)] c → c.p 0 16 = 0 → exec (.pwrBudget x) s = .next ((s.begin x).reply x 3 []))
      ∧ (s.Issued x 0x54 [(0, 4), (8, 3)] c → s.hasRegion (c.p 0 4) = false →
        exec (.pwrPolicy x) s = .next ((s.begin x).reply x 3 []))
      ∧ (s.Issued x 0x54 [(0, 4), (8, 3)] c → s.hasRegion (c.p 0 4) = true →
        exec (.pwrPolicy x) s = .next (((s.begin x).wr pcrB (F.PCR_RG_CFG_POL.ix (c.p 0 4)) (c.p 8 3)).reply x 0 []))
      ∧ (s.Issued x 0x55 [(0, 4), (16, 16)] c →
        exec (.pwrWake x) s = .next (((((((s.begin x).wr pcrB F.PCR_WAKE_CFG_EN_WAKEN (c.p 0 1)).wr pcrB F.PCR_WAKE_CFG_EN_MSP
          (c.p 1 1)).wr pcrB F.PCR_WAKE_CFG_EN_RELAY (c.p 2 1)).wr pcrB F.PCR_WAKE_CFG_EN_PPS (c.p 3 1)).wr pcrB
          F.PCR_WAKE_CFG_PPS_COUNT (c.p 16 16)).reply x 0 [])))
  ∧ (∀ (s : State) (x st mask : Nat) (inst : Bool) (c : Cmd) (l : List Nat), s.Issued x 0x50 [(0, 16), (16, 1), (17, 3)] c →
      st = c.p 17 3 → mask = c.p 0 16 → inst = (c.p 16 1 == 1) → l = (s.begin x).pwrMoves inst mask st →
      ((inst = false → st ≠ 0 → l = (List.range s.rom.regions.length).filter (fun g => bitAt mask g))
        ∧ ∀ g, g ∈ l → s.hasRegion g = true)
      ∧ (∀ pins, (s.begin x).pwrRefusal inst mask st l = (0x0D, pins) →
        exec (.pwrState x) s = .next ((s.begin x).reply x 0x0D (leBytes 2 0 ++ leBytes 2 pins)))
      ∧ (∀ e pins, (s.begin x).pwrRefusal inst mask st l = (e, pins) → e ≠ 0 → e ≠ 0x0D →
        exec (.pwrState x) s = .next ((s.begin x).reply x e (leBytes 2 0)))
      ∧ (∀ v, (s.begin x).pwrRefusal inst mask st l = (0, 0) → (inst = false ∨ st = 0) →
        v = (if st = 0 ∧ l.isEmpty = false then (s.begin x).abortWide 0x37 else s.begin x) →
        exec (.pwrState x) s = .next ((l.foldl (fun a g => a.moveStart g st) (v.updPacer (fun p => { p with
          cmds := p.cmds ++ [(x, bitsWhere 16 (fun g => l.contains g), st)] }))).arrived))
      ∧ ((s.begin x).pwrRefusal inst mask st l = (0, 0) → inst = true → 1 ≤ st →
        exec (.pwrState x) s = .next (((l.filter (fun g => g != s.rom.homeRegion)).foldl (fun a g => a.moveStart g st)
          ((s.begin x).updPacer (fun p => { p with inst := some (st, some x),
                                                   moved := bitsWhere 16 (fun g => l.contains g && decide (s.rgState g ≤ 1)) }))).arrived)))

/-- Regions enter sleep, and wake.

CLOSING (R510, R511, R514, R517): the collect that finds no work lets a region commit, one that finds work waits. The commit is edge Q;
from edge Q + 5 on the region is in SLEEP with its NIs down and no reservation left. A region that has come to be held aborts its entry
(R242, R368), and so does LIM.ENTRY_US; past its limit and past edge Q no abort is left.

Wake sources (R30, R514, R515, R516, R517): an enabled source wakes the home region of a sleeping instance and is recorded, an instance in
OFF starts as from POR, and an instance-wide entry short of its edge Q aborts; an NI's request wakes the regions that its held packets
name, with the home region in RUN before them. A source that is not enabled does nothing.

WAKING ends (R60, R504, R516, R553, R649): a settled supply starts the calibration of the hop set, after what a DEEP_SLEEP loses; a woken
region runs with its NIs up where their endpoints and the heats that they have missed allow it, or first recovers an NI that was reset
alone; once the home region runs, the other regions that the instance has taken to sleep start to wake (R30). -/
def Obligations.RegionsSleepAndWake : Prop :=
  (∀ (s : State) (g : Nat),
      (s.hasRegion g = false → exec (.closingCollect g) s = .next s ∧ exec (.entryCommit g) s = .next s
        ∧ exec (.entryLimit g) s = .next s)
      ∧ ((s.rgState g ≠ 5 ∨ (s.rg g).ready = false ∨ (s.rg g).q.isSome = true) → exec (.entryCommit g) s = .next s)
      ∧ ((s.entering g = false ∨ s.rgState g = 5 ∧ (s.rg g).ready = true) → exec (.entryLimit g) s = .next s)
      ∧ (s.hasRegion g = true → s.rgState g = 0 → (s.rg g).goal = some 1 → s.pacer.inst = none → s.pacer.cmds = [] →
        (s.heldFrom g 1 = false → s.drained g = true →
          (∃ t : State, exec (.closingCollect g) s = .next t ∧ t.rgState g = 1 ∧ (t.rg g).goal = none))
        ∧ (s.heldFrom g 1 = false → s.drained g = false → exec (.closingCollect g) s = .next s)
        ∧ (s.heldFrom g 1 = true →
          (∃ t : State, exec (.closingCollect g) s = .next t ∧ t.rgState g = 0 ∧ (t.rg g).goal = none ∧ t.flag pcrB F.PCR_STAT_ENTRY_ABORT = true)))
      ∧ (s.hasRegion g = true → s.rgState g = 5 → (s.rg g).goal = some 2 → g ≠ s.rom.homeRegion → g < 16 →
        (s.heldFrom g 2 = false → (s.rg g).ready = false → (s.rg g).comb = false →
          exec (.closingCollect g) s = .next (if s.closingWork g = 0 then s.updRg g (fun r => { r with ready := true }) else s))
        ∧ (s.heldFrom g 2 = true → (s.rg g).q = none → exec (.closingCollect g) s = .next (s.abortEntry g 0x37)
          ∧ ((s.rg g).ready = true → exec (.entryCommit g) s = .next (s.abortEntry g 0x37)))
        ∧ (s.heldFrom g 2 = false → (s.rg g).ready = true → (s.rg g).q = none → s.pacer.inst = none →
          exec (.entryCommit g) s = .next (s.updRg g (fun r => { r with q := some s.clock })))
        ∧ (∀ q, (s.rg g).q = some q → q + 250 ≤ s.clock + 1 → s.pacer.inst = none → s.pacer.cmds = [] → bitAt s.pacer.wakes g = false →
          (∀ h, h ≠ g → (s.rg h).q = none) → s.pending = [] → (s.time.carrier = true → s.time.tc < 1023) →
          ∃ t, step s = .next t ∧ t.rgState g = 2 ∧ (t.rg g).goal = none
            ∧ ∀ n, n ∈ nisOf s.rom g → (t.ni n).up = false ∧ (t.ni n).rsvs = [])
        ∧ ((s.rg g).ready = false → (s.rg g).q = none → s.pacer.inst = none → s.pacer.cmds = [] → (s.rg g).prev < 2 →
          (∃ t : State, exec (.entryLimit g) s = .next t ∧ t.rgState g = (s.rg g).prev ∧ (t.rg g).goal = none
            ∧ t.flag pcrB F.PCR_STAT_ENTRY_ABORT = true))))
  ∧ (∀ s : State,
      (s.flag pcrB F.PCR_WAKE_CFG_EN_WAKEN = false → exec .wakeNLow s = .next s)
      ∧ ((s.flag pcrB F.PCR_WAKE_CFG_EN_PPS = false ∨ s.pacer.pps < atLeast1 (s.rd pcrB F.PCR_WAKE_CFG_PPS_COUNT)
          ∨ s.rgState s.rom.homeRegion ≠ 2 ∧ s.rgState s.rom.homeRegion ≠ 3) → exec .ppsWakeCount s = .next s)
      ∧ (∀ n, (s.hasNi n = false ∨ s.flag pcrB F.PCR_WAKE_CFG_EN_RELAY = false) → exec (.relayWakeRequest n) s = .next s)
      ∧ ((∀ h, (s.rg h).q = none) → s.flag pcrB F.PCR_WAKE_CFG_EN_WAKEN = true →
        (s.rgState s.rom.homeRegion = 4 → exec .wakeNLow s = .next
          ((s.por.updPacer (fun p => { p with rst := 0, aon := true })).woken 1))
        ∧ (s.rgState s.rom.homeRegion < 2 → s.pacer.inst = none → exec .wakeNLow s = .next s)
        ∧ (∀ t x, s.rgState s.rom.homeRegion < 2 → s.pacer.inst = some (t, x) → 2 ≤ t →
          exec .wakeNLow s = .next (s.abortNote.abortInst 0x37)))
      ∧ (s.rom.homeRegion < 16 → s.rgState s.rom.homeRegion = 2 ∨ s.rgState s.rom.homeRegion = 3 → (∀ h, (s.rg h).q = none) →
        (s.flag pcrB F.PCR_WAKE_CFG_EN_WAKEN = true →
          (∃ t : State, exec .wakeNLow s = .next t ∧ t.rgState s.rom.homeRegion = 6 ∧ (t.rg s.rom.homeRegion).wake = 1
            ∧ t.rd pcrB F.PCR_STAT_WAKE_SRC = 1 ∧ t.pacer.wakes = s.pacer.moved))
        ∧ (s.flag pcrB F.PCR_WAKE_CFG_EN_PPS = true → atLeast1 (s.rd pcrB F.PCR_WAKE_CFG_PPS_COUNT) ≤ s.pacer.pps →
          (∃ t : State, exec .ppsWakeCount s = .next t ∧ t.rgState s.rom.homeRegion = 6 ∧ t.rd pcrB F.PCR_STAT_WAKE_SRC = 4)))
      ∧ (∀ n g, s.hasNi n = true → s.flag pcrB F.PCR_WAKE_CFG_EN_RELAY = true → s.hasRegion g = true → s.wakeAsks n = 2 ^ g → g < 16 →
        s.rom.homeRegion < 16 → (∀ h, (s.rg h).q = none) → s.pacer.inst = none →
        (s.rgDown g = true → (s.rg g).goal = none →
          (∃ t : State, exec (.relayWakeRequest n) s = .next t ∧ t.rgState g = 6 ∧ t.rd pcrB F.PCR_STAT_WAKE_SRC = 3
            ∧ (s.rgState s.rom.homeRegion = 1 → t.rgState s.rom.homeRegion = 0)))
        ∧ (s.rgState g = 5 → exec (.relayWakeRequest n) s = .next (s.abortEntry g 0x37))
        ∧ (s.rgDown g = false → s.rgState g ≠ 5 → exec (.relayWakeRequest n) s = .next s)))
  ∧ (∀ (s : State) (g : Nat),
      ((s.hasRegion g = false ∨ s.rgState g ≠ 6 ∨ (s.rg g).wake ≠ 3) → exec (.wakeDone g) s = .next s)
      ∧ (s.hasRegion g = false ∨ s.rgState g ≠ 6 ∧ (s.rg g).step = none → exec (.vrOk g) s = .next s)
      ∧ (s.hasRegion g = true → g < 16 → s.rgState g = 6 →
      ((s.rg g).wake = 1 → (s.rg g).prev = 2 →
        exec (.vrOk g) s = .next (((((s.updRg g (fun r => { r with wake := 2, gated := false })).startRuns
          (s.calNodes g)).refreshTime).wakeCal g)))
      ∧ (∀ v, (s.rg g).wake = 1 → (s.rg g).prev = 3 →
        v = (if g = s.rom.homeRegion then s.homeDeep.deepReset g else s.deepReset g) →
        exec (.vrOk g) s = .next (((((v.updRg g (fun r => { r with wake := 2, gated := false })).startRuns
          (v.calNodes g)).refreshTime).wakeCal g)))
      ∧ ((s.rg g).wake = 3 → g = s.rom.homeRegion → s.rd strB F.STR_BOOT_STATE ≠ 3 → s.rd strB F.STR_BOOT_STATE ≠ 4 →
        exec (.wakeDone g) s = .next s)
      ∧ ((s.rg g).wake = 3 → (∃ n, n ∈ nisOf s.rom g ∧ (s.ni n).recov = true) →
        (g = s.rom.homeRegion → s.rd strB F.STR_BOOT_STATE = 3 ∨ s.rd strB F.STR_BOOT_STATE = 4) →
        (∃ t : State, exec (.wakeDone g) s = .next t ∧ (t.rg g).wake = 6 ∧ t.rgState g = 6 ∧ bitAt (t.rd glbB F.GLB_RECOV_RECOV) g = true))
      ∧ ((s.rg g).wake = 3 → s.pacer.cmds = [] → s.pacer.inst = none → (∀ sl, sl < 63 → s.slcSt sl = 0) →
        (∀ n, n ∈ nisOf s.rom g → (s.ni n).recov = false) →
        (g = s.rom.homeRegion → s.rd strB F.STR_BOOT_STATE = 3 ∨ s.rd strB F.STR_BOOT_STATE = 4) →
        (∃ t : State, exec (.wakeDone g) s = .next t ∧ t.rgState g = 0 ∧ (t.rg g).wake = 0
          ∧ (∀ n, n ∈ nisOf s.rom g → (t.ni n).up = ((s.ni n).mayRise && !s.replayDue n))
          ∧ (g = s.rom.homeRegion → ∀ h, h < 16 → s.hasRegion h = true → h ≠ g → bitAt s.pacer.wakes h = true →
              2 ≤ s.rgState h → s.rgState h ≤ 4 → t.rgState h = 6)))))

/-- Idle gating, holds and DVFS steps.

The IDLE gate, and a packet's hold for a closed region (R507, R513): a quiet region in IDLE gates, and a flit, a credit vector, an ingress
beat or a CMX access opens the gate; HOLD_US ends the
hold of a queue's head as REFUSE does. The NI's mirrors of the open mask and of the policies follow the Pacer (R509), and an NI
whose region closes clears its reservations and its contexts (R218, R416).

A step of frequency and voltage (R300, R518, R519, R520, R649): accepted or refused, frozen, changed by the clock generator's and
the regulator's acknowledgements, and undone where one does not come; an acknowledgement without a handshake is ignored (R650). A supply that does not settle in WAKING or
in start-up is SUPPLY_FAIL (R530, R556). -/
def Obligations.IdleGatesAndDvfsSteps : Prop :=
  (∀ s : State,
      (∀ g, (s.hasRegion g = false ∨ s.rgState g ≠ 1 ∨ s.quiet g = false) → exec (.idleGate g) s = .next s)
      ∧ (∀ g, (s.hasRegion g = false ∨ s.gateOpens g = false) → exec (.idleUngate g) s = .next s)
      ∧ (∀ g, s.hasRegion g = true →
        (s.rgState g = 1 → s.quiet g = true → (∃ t : State, exec (.idleGate g) s = .next t ∧ (t.rg g).gated = true ∧ t.csr = s.csr ∧ t.nis = s.nis
          ∧ t.ports = s.ports))
        ∧ (s.gateOpens g = true → exec (.idleUngate g) s = .next (s.ungate g)
          ∧ ((s.ungate g).rg g).gated = false))
      ∧ (∀ n q, (s.hasNi n = false ∨ ((s.ni n).q q).pkts = [] ∨ ∃ p r, ((s.ni n).q q).pkts = p :: r ∧ p.hold = none) →
        exec (.pwrHoldTmo n q) s = .next s)
      ∧ (∀ n q p r, s.hasNi n = true → ((s.ni n).q q).pkts = p :: r → p.hold.isSome = true →
        exec (.pwrHoldTmo n q) s = .next (s.depart n q 0 false (.refuse 0x07)))
      ∧ (∀ n, s.hears n = false → exec (.pwrMaskReceive n) s = .next s)
      ∧ (∀ n, s.hears n = true → (s.rgState (niRec s.rom n).region ≠ 5 ∨ (s.ni n).ctxs = []) → (∃ t : State, exec (.pwrMaskReceive n) s = .next t ∧ t.rd (niB n) F.NI_PWR_MASK_OPEN = bitsWhere s.rom.regions.length (fun h => s.rgOpen h) % 2 ^ F.NI_PWR_MASK_OPEN.w
          ∧ (t.ni n).pol = (List.range 3).map (fun i =>
              bitsWhere s.rom.regions.length (fun h => bitAt (s.rd pcrB (F.PCR_RG_CFG_POL.ix h)) i))))
      ∧ (∀ n, s.hears n = true → s.rgState (niRec s.rom n).region = 5 →
          bitAt (s.rd (niB n) F.NI_PWR_MASK_OPEN) (niRec s.rom n).region = true →
          (∃ t : State, exec (.pwrMaskReceive n) s = .next t ∧ (t.ni n).rsvs = [] ∧ (t.ni n).ctxs = [])))
  ∧ (∀ (s : State) (g : Nat),
      (∀ x c, s.Issued x 0x51 [(0, 4), (16, 12), (32, 12)] c → g = c.p 0 4 →
        (s.begin x).stepCheck g (c.p 16 12) (c.p 32 12) = 0 →
        ∀ v, v = (if c.p 16 12 < s.mhz g then (s.begin x).wr pcrB F.PCR_STAT_LOWER_BUSY 1 else s.begin x) →
        exec (.pwrDvfs x) s = .next (((v.updRg g (fun r => { r with
          prev := v.rgState g,
          step := some { cmd := x, mhz := c.p 16 12, mv := c.p 32 12, oldMhz := s.mhz g, oldMv := s.mv g,
                         todo := stepTodo (s.mhz g) (c.p 16 12) } })).rgGo g 7).freezeNext))
      ∧ (∀ x c, s.Issued x 0x51 [(0, 4), (16, 12), (32, 12)] c → (s.begin x).stepCheck (c.p 0 4) (c.p 16 12) (c.p 32 12) ≠ 0 →
        exec (.pwrDvfs x) s = .next ((s.begin x).reply x ((s.begin x).stepCheck (c.p 0 4) (c.p 16 12) (c.p 32 12)) []))
      ∧ ((s.hasRegion g = false ∨ (s.rg g).step = none ∨ ∃ d, (s.rg g).step = some d ∧ (d.ph ≠ 2 ∨ d.todo.head? ≠ some true)) →
        exec (.fcAck g) s = .next s)
      ∧ ((s.hasRegion g = false ∨ s.time.freezes.any (fun f => f.g == g && f.left == 0) = false) → exec (.hopFreeze g) s = .next s)
      ∧ (s.hasRegion g = true → s.rgState g = 6 → (s.rg g).wake = 1 ∨ (s.rg g).wake = 7 → s.pacer.cmds = [] →
        exec (.supplyTmo g) s = .next (s.wr pcrB F.PCR_STAT_SUPPLY_FAIL 1))
      ∧ (s.hasRegion g = true → s.rgState g ≠ 6 → s.pacer.rst = 0 → s.ready = false → s.flag glbB F.GLB_START_STAT_FAIL = false →
        (g = s.rom.homeRegion ∧ s.rd glbB F.GLB_START_STAT_STEP = 2 ∨ g ≠ s.rom.homeRegion ∧ s.rd glbB F.GLB_START_STAT_STEP = 4) →
        exec (.supplyTmo g) s = .next (s.wr pcrB F.PCR_STAT_SUPPLY_FAIL 1).startFail)
      ∧ (s.hasRegion g = false ∨ s.rgState g ≠ 6 ∧ s.ready = true ∧ (s.rg g).step = none → exec (.supplyTmo g) s = .next s)
      ∧ (s.hasRegion g = true → ∀ d, (s.rg g).step = some d →
        (d.ph = 1 → s.time.freezes.any (fun f => f.g == g && f.why == 0 && f.left == 0) = true →
          (∃ t : State, exec (.hopFreeze g) s = .next t ∧ (t.rg g).step = some { d with ph := 2 }
            ∧ ∀ r, r ∈ s.hopSet g → (t.node r).frozen = true ∧ (t.node r).spread = 0))
        ∧ (d.ph = 2 → ∀ r, d.todo = true :: r →
          exec (.fcAck g) s = .next ((s.setOp g d.mhz (s.mv g)).stepGo g { d with todo := r }))
        ∧ (d.ph = 2 → s.rgState g = 7 → ∀ r, d.todo = false :: r →
          exec (.vrOk g) s = .next ((s.setOp g (s.mhz g) d.mv).stepGo g { d with todo := r }))
        ∧ (d.ph = 2 → s.rgState g = 7 → s.ready = true →
          exec (.supplyTmo g) s = .next (((s.setOp g d.oldMhz d.oldMv).wr pcrB F.PCR_STAT_SUPPLY_FAIL 1).stepGo g
            { d with todo := [], bad := some 0x0038 }))))

/-- The governor's bucket, leave, and droop and clock faults.

The governor's window (R521, R522, R523): the bucket takes its refill less the energy of the window before, up to its cap, the
count of flits starts again, and with the governor off every region's allowances are without limit.

Leave (R525): a request joins the governor's queue, the head is granted when its cost is there and is charged, and a holder
returns its place without a refund; a head
whose cost is not there waits. What was not asked for or not held changes nothing.

Droop and clock faults (R526 to R529, R537): a warning is shown, counted and reported and its set asks for a freeze; its clearing
calibrates again; a reset threshold or a dead clock is a region fault. Above its threshold, or in a region whose detector does not act, a
supply changes nothing. -/
def Obligations.GovernorLeaveAndDroop : Prop :=
  (∀ (s v : State) (temps : List (Option Int)), s.rom.regions.length ≤ 16 →
      v = forAll s.rom.regions.length (fun g a => match temps.getD g none with
        | some t => a.tempIn g t
        | none => a) s →
      (∃ t : State, exec (.governorWindow temps) s = .next t ∧ t.pacer.level = min (v.pacer.level + 65536 * (v.rd pcrB F.PCR_GOV_REFILL_STONES : Nat) - (v.windowUse : Nat))
          (65536 * (v.rd pcrB F.PCR_GOV_CAP_STONES : Nat))
        ∧ t.pacer.flits = []
        ∧ (s.flag pcrB F.PCR_CTL_GOV_EN = false → ∀ g, g < s.rom.regions.length →
            t.rd pcrB (F.PCR_ALLOW_A2.ix g) = 0xFFFF ∧ t.rd pcrB (F.PCR_ALLOW_A3.ix g) = 0xFFFF)))
  ∧ (∀ (s : State) (kind who : Nat) (l : Leave), l = { kind := kind, who := who } →
      (s.asks.contains l = true →
        exec (.leaveRequest kind who) s = .next { s with asks := s.asks.erase l, leaveQ := s.leaveQ ++ [l] })
      ∧ (∀ r, s.leaveQ = l :: r → s.leaveOk kind = true →
        exec .leaveGrant s = .next (({ s.setLevel (s.pacer.level - 65536 * (s.rd pcrB (F.PCR_LEAVE_COST0_STONES.ix kind) : Nat)) with
          leaveQ := r, leaves := s.leaves ++ [l] }.count pcrB F.PCR_LEAVE_CNT_COUNT 1).leaveGo l)
        ∧ (kind = 0 → (∃ t : State, exec .leaveGrant s = .next t ∧ t.leaveQ = r ∧ t.leaves = s.leaves ++ [l])))
      ∧ (∀ r, s.leaveQ = l :: r → s.leaveOk kind = false → exec .leaveGrant s = .next s)
      ∧ (s.leaveQ = [] → exec .leaveGrant s = .next s)
      ∧ (s.asks.contains l = false → exec (.leaveRequest kind who) s = .next s)
      ∧ (s.gives.contains l = false → exec (.leaveReturn kind who) s = .next s)
      ∧ (s.gives.contains l = true →
        exec (.leaveReturn kind who) s = .next { s with gives := s.gives.erase l, leaves := s.leaves.erase l }))
  ∧ (∀ (s : State) (g : Nat),
      (∀ uv, (s.hasRegion g = false ∨ s.watched g = false ∨ s.under g uv (s.droopCodes g).1 = false
          ∨ s.rd pcrB (F.PCR_RG_STAT_DWARN_NOW.ix g) = 1) → exec (.droopWarn g uv) s = .next s)
      ∧ ((s.hasRegion g = false ∨ s.rd pcrB (F.PCR_RG_STAT_DWARN_NOW.ix g) = 0) → exec (.droopWarnClear g) s = .next s)
      ∧ (∀ uv, (s.hasRegion g = false ∨ s.watched g = false ∨ s.under g uv (s.droopCodes g).2 = false) →
        exec (.droopReset g uv) s = .next s)
      ∧ (∀ edges, (s.hasRegion g = false ∨ 4 ≤ edges ∨ (s.rg g).held = true ∨ 2 ≤ s.rgState g ∧ s.rgState g ≠ 7) →
        exec (.clockFault g edges) s = .next s)
      ∧ (s.hasRegion g = true →
      (∀ uv, s.watched g = true → s.under g uv (s.droopCodes g).1 = true → s.rd pcrB (F.PCR_RG_STAT_DWARN_NOW.ix g) ≠ 1 →
        exec (.droopWarn g uv) s = .next (((((((s.wr pcrB (F.PCR_RG_STAT_DWARN_NOW.ix g) 1).wr pcrB (F.PCR_RG_STAT_DWARN.ix g) 1).rgEvent g
          0).count pcrB (F.PCR_DROOP_CNT_WARN.ix g) 1).freezeNext).leaveWd).heatDroop))
      ∧ (s.rd pcrB (F.PCR_RG_STAT_DWARN_NOW.ix g) ≠ 0 →
        exec (.droopWarnClear g) s = .next ((((((s.wr pcrB (F.PCR_RG_STAT_DWARN_NOW.ix g) 0).leaveWd).startRuns
          (((s.wr pcrB (F.PCR_RG_STAT_DWARN_NOW.ix g) 0).leaveWd).calNodes g)).refreshTime).calWaits g)))
      ∧ (∀ uv, s.watched g = true → s.under g uv (s.droopCodes g).2 = true →
        exec (.droopReset g uv) s = .next (((((s.wr pcrB (F.PCR_RG_STAT_DRST.ix g) 1).rgEvent g 1).count pcrB
          (F.PCR_DROOP_CNT_RST.ix g) 1).rgFault g 1)))
      ∧ (∀ edges, edges < 4 → s.rgState g = 0 ∨ s.rgState g = 1 ∨ s.rgState g = 7 → (s.rg g).held = false →
        (∀ d, (s.rg g).step = some d → d.ph = 2 → d.todo.head? ≠ some true) →
        exec (.clockFault g edges) s = .next (s.rgFault g 2))))

/-- The Photo Finish commands and captures.

PF_ARM with every check of R327 passed, in mode TIME and in mode PIN (R326), claims the free spare timers of its NIs and its pin
and asks for leave; a check that fails answers its status, in the order of R327. Without leave in time the slot is idle again and the
command answered NO_LEAVE (R327, R328).

PF_STATUS answers six words of the slot; PF_RELEASE takes an idle or ended slot back to IDLE, PF_CANCEL an armed one that has not reached
T_c to CANCELLED; in any other state they answer BUSY (R332, R333, R334).

The trigger's edge fixes T_c; a participant that the arm reaches in time captures at T_c, its words being
written, a late one is MISSED, one that is left out says EXCLUDED and one whose region stands still is ABSENT; when nothing may
still capture the slot is complete or partial, and a record of kind 3 follows where SNAP_REC asks for it (R326, R327, R329, R330,
R331, R335). A participant that has a bank already, or whose region lies deeper than SLEEP at its arm, takes no part in the event. -/
def Obligations.PhotoFinishCommandsAndCaptures : Prop :=
  (∀ (s : State) (x k : Nat) (c : Cmd) (fit : Prop), k = c.p 0 1 →
      (fit ↔ (c.p 1 2 = 0 ∧ s.time.ft / 2 ^ 24 + 256 * 1000 ≤ 256 * (c.p 16 48 * secNs + c.p 64 32)
            ∧ 256 * (c.p 16 48 * secNs + c.p 64 32) ≤ s.time.ft / 2 ^ 24 + 256 * 60 * secNs
          ∨ c.p 1 2 = 1 ∧ c.p 16 48 = 0 ∧ 1000 ≤ c.p 64 32 ∧ c.p 64 32 ≤ 1000000)) →
      (s.Issued x 0x80 [(0, 1), (1, 2), (4, 2), (6, 1), (7, 1), (16, 48), (64, 32)] c →
        (¬ fit → exec (.pfArm x) s = .next ((s.begin x).reply x 3 []))
        ∧ (fit → (s.pfState k ≠ 0 ∨ (s.pf k).cmd ≠ none) → exec (.pfArm x) s = .next ((s.begin x).reply x 6 []))
        ∧ (fit → s.pfState k = 0 → (s.pf k).cmd = none →
          ((s.rootOk = false ∨ s.time.step ≠ none) → exec (.pfArm x) s = .next ((s.begin x).reply x 10 []))
          ∧ (s.rootOk = true → s.time.step = none → c.p 1 2 = 1 → s.pinFree (c.p 4 2) 2 0 = false →
            exec (.pfArm x) s = .next ((s.begin x).reply x 9 []))
          ∧ (s.rootOk = true → s.time.step = none → (c.p 1 2 = 1 → s.pinFree (c.p 4 2) 2 0 = true) →
            (∀ n r, s.pfNis.filter (fun n => (s.ni n).timer == 1
                || ((s.ni n).timer == 2 && !s.claimedNow (timerRes n)) && !(c.p 6 1 == 1)) = n :: r →
              exec (.pfArm x) s = .next ((s.begin x).reply x 9 (leBytes 2 n)))
            ∧ (s.pfNis.all (fun n => (s.ni n).timer != 1 && (!((s.ni n).timer == 2 && !s.claimedNow (timerRes n)) || c.p 6 1 == 1)) = true →
        (∃ t : State, exec (.pfArm x) s = .next t ∧ t.asks = s.asks ++ [{ kind := 1, who := k }] ∧ (t.pf k).cmd = some x
          ∧ (c.p 1 2 = 0 → (t.pf k).tc = 256 * (c.p 16 48 * secNs + c.p 64 32)
              ∧ ((∀ n, n ∈ s.pfNis → (s.ni n).timer ≠ 2) → t.csr = s.csr))
          ∧ (c.p 1 2 = 1 → t.pinOwner (c.p 4 2) = 2 ∧ (t.pf k).held = true ∧ (t.pf k).dly = c.p 64 32
              ∧ (t.pf k).fall = (c.p 7 1 == 1))
          ∧ (t.pf k).excl = s.pfNis.filter (fun n => (s.ni n).timer == 2 && !s.claimedNow (timerRes n))
          ∧ ∀ n, n ∈ s.pfNis → ((s.ni n).timer == 2 && !s.claimedNow (timerRes n)) = false →
              (t.ni n).timer = 1 ∧ (t.ni n).timerSlot = k)))))
      ∧ ((s.pf k).cmd = some x → s.hasLeave 1 k = false →
        exec (.pfArmLeaveTmo k) s = .next ((s.pfIdle k).reply x 0x0007 []))
      ∧ ∀ j, (2 ≤ j ∨ (s.pf j).cmd = none ∨ s.hasLeave 1 j = true) → exec (.pfArmLeaveTmo j) s = .next s)
  ∧ (∀ (s : State) (x k : Nat) (c : Cmd), k = c.p 0 1 →
      (s.Issued x 0x81 [(0, 1)] c →
        exec (.pfStatus x) s = .next ((s.begin x).reply x 0 (s.getBytes (pfB + 0x20 * k) 6)))
      ∧ (s.Issued x 0x82 [(0, 1)] c → s.pfState k ≠ 1 → s.pfState k ≠ 2 → (s.pf k).cmd = none →
        exec (.pfRelease x) s = .next (((s.begin x).pfIdle k).reply x 0 [])
        ∧ ((s.begin x).pfIdle k).pfState k = 0 ∧ (∃ t : State, exec (.pfRelease x) s = .next t ∧ t.cmd x = none))
      ∧ (s.Issued x 0x82 [(0, 1)] c → s.pfState k = 1 ∨ s.pfState k = 2 ∨ (s.pf k).cmd ≠ none →
        exec (.pfRelease x) s = .next ((s.begin x).reply x 6 []))
      ∧ (s.Issued x 0x83 [(0, 1)] c → ¬ (s.pfState k = 1 ∨ (s.pfState k = 2 ∧ s.time.ft / 2 ^ 24 < (s.pf k).tc)) →
        exec (.pfCancel x) s = .next ((s.begin x).reply x 6 []))
      ∧ (s.Issued x 0x83 [(0, 1)] c → s.pfState k = 1 ∨ (s.pfState k = 2 ∧ s.time.ft / 2 ^ 24 < (s.pf k).tc) →
        exec (.pfCancel x) s = .next (((s.begin x).pfCancel k).reply x 0 [])
        ∧ ((s.begin x).pfCancel k).pfState k = 5 ∧ (∃ t : State, exec (.pfCancel x) s = .next t ∧ t.cmd x = none)))
  ∧ (∀ (s : State) (k : Nat) (u : Site) (t : Stamp) (arm : Nat),
      ((2 ≤ k ∨ s.pfState k ≠ 1 ∨ mget (fun _ => none) s.time.pinIn (s.pf k).pin = none) → exec (.pfPinTrigger k) s = .next s)
      ∧ ((2 ≤ k ∨ s.hasSite u = false ∨ s.pfState k ≠ 2 ∨ s.bankState k u ≠ 0 ∨ (s.pf k).got.contains u = true
          ∨ s.rgState (siteRegion s.rom u) = 3 ∨ s.rgState (siteRegion s.rom u) = 4) → exec (.pfArmReceive k u t) s = .next s)
      ∧ ((2 ≤ k ∨ s.hasSite u = false ∨ s.pfState k ≠ 2 ∨ s.bankState k u ≠ 0 ∨ (s.pf k).got.contains u = false
          ∨ stampDiff t (s.pfTc k) < 0) → exec (.pfCapture k u t) s = .next s)
      ∧ ((2 ≤ k ∨ s.pfState k ≠ 2 ∨ s.time.ft / 2 ^ 24 < (s.pf k).tc + 256 * 1000
          ∨ ((sites s.rom).filter (fun u => !(s.pf k).leaves u)).any (s.pfOpen k) = true) → exec (.pfCollect k) s = .next s)
      ∧ (k < 2 → s.hasSite u = true → arm = s.rd pfB (F.PF_SLOT0_ARM_NUM.ix k) →
      (∀ e, (mget (fun _ => none) s.time.pinIn (s.pf k).pin : Option Nat) = some e → s.pfState k = 1 → s.time.step = none →
        (∃ v : State, exec (.pfPinTrigger k) s = .next v ∧ v.pfState k = 2 ∧ (v.pf k).tc = e + 256 * (s.pf k).dly))
      ∧ (s.pfState k = 2 → s.bankState k u = 0 → s.rgState (siteRegion s.rom u) ≠ 3 → s.rgState (siteRegion s.rom u) ≠ 4 →
        ((s.pf k).got.contains u = false → (∀ n, u = .ni n → (s.pf k).excl.contains n = false) → stampDiff t (s.pfTc k) ≤ 0 →
          exec (.pfArmReceive k u t) s = .next (s.setPf k { s.pf k with got := u :: (s.pf k).got }))
        ∧ ((s.pf k).got.contains u = false → (∀ n, u = .ni n → (s.pf k).excl.contains n = false) → 0 < stampDiff t (s.pfTc k) →
          exec (.pfArmReceive k u t) s = .next (s.setBank k u 2 false false arm))
        ∧ (∀ n, (s.pf k).got.contains u = false → u = .ni n → (s.pf k).excl.contains n = true →
          exec (.pfArmReceive k u t) s = .next (s.setBank k u 0 false true arm)))
      ∧ (s.pfState k = 2 → s.bankState k u = 0 → (s.pf k).got.contains u = true → 0 ≤ stampDiff t (s.pfTc k) →
        (s.rgStill (siteRegion s.rom u) = false →
          (∃ v : State, exec (.pfCapture k u t) s = .next v ∧ v.word64 (bankB k u) = t.toNat ∧ v.bankState k u = 1
            ∧ bitAt (v.word (bankB k u + 8)).toNat 2 = !s.siteTimeOk u
            ∧ (∀ i, i < (s.bankWords t u).length →
                v.word (bankB k u + 12 + 4 * i) = BitVec.ofNat 32 ((s.bankWords t u).getD i 0))
            ∧ { v with csr := s.csr } = s))
        ∧ (s.rgStill (siteRegion s.rom u) = true → exec (.pfCapture k u t) s = .next (s.setBank k u 3 false false arm)))
      ∧ (s.pfState k = 2 → (s.pf k).tc + 256 * 1000 ≤ s.time.ft / 2 ^ 24 →
        ((sites s.rom).filter (fun u => !(s.pf k).leaves u)).any (s.pfOpen k) = false →
        (s.flag pfB F.PF_EVD_CTL_SNAP_REC = false → (∃ v : State, exec (.pfCollect k) s = .next v ∧ v.pfState k = 3 ∨ v.pfState k = 4))
        ∧ (s.flag pfB F.PF_EVD_CTL_SNAP_REC = true → ∃ (v : State) (part : Bool), exec (.pfCollect k) s = .next (v.emitRec 3 (2 ^ 24 * (s.pf k).tc) part)
            ∧ (part = false ∧ v.pfState k = 3 ∨ part = true ∧ v.pfState k = 4)))))

/-- The evidence commands and records.

The evidence commands (R336, R343): EV_START enables, writes a first record of kind 0 on a new chain and goes on with
a kept one; EV_MARK writes kind 2; EV_STOP writes kind 4 and stops, and is answered once that record is written or held; EV_STATUS answers the head. A ring that cannot be is
BAD_PARAM, and a command against EN is BUSY.

A record takes the next SEQ, and the chain's head becomes its hash and its number (R338, R339, R342). At an interval boundary a
record of kind 1 is written; its write advances the ring or is retried once, and a second failure is a ring fault;
every pending EV_STOP is then answered (R340, R341, R343). Away from a boundary, and with nothing in flight or to retry, nothing
changes. -/
def Obligations.EvidenceRecords : Prop :=
  (∀ (s : State) (x : Nat) (c : Cmd),
      (s.Issued x 0x88 [] c → 4 ≤ s.rd pfB F.PF_RING_SIZE_LOG2 → s.rd pfB F.PF_RING_SIZE_LOG2 ≤ 16 →
        s.rd pfB F.PF_RING_NI_NI < s.rom.nis.length → s.flag pfB F.PF_EVD_CTL_EN = false → s.evd.held = [] →
        (s.flag pfB F.PF_EVD_STAT_HEAD_VALID = false →
        exec (.evStart x) s = .next ((((((s.begin x).wr pfB F.PF_EVD_CTL_EN 1).wr pfB F.PF_RING_WR_SLOT 0).evShow).emitRec 0
          s.time.ft false).reply x 0 []))
        ∧ (s.flag pfB F.PF_EVD_STAT_HEAD_VALID = true →
          exec (.evStart x) s = .next ((((((s.begin x).wr pfB F.PF_EVD_CTL_EN 1).wr pfB F.PF_RING_WR_SLOT ((s.headSeq + 1) % s.ringLen)).evShow).evPump).reply x 0 [])))
      ∧ (s.Issued x 0x88 [] c → (s.rd pfB F.PF_RING_SIZE_LOG2 < 4 ∨ 16 < s.rd pfB F.PF_RING_SIZE_LOG2
          ∨ s.rom.nis.length ≤ s.rd pfB F.PF_RING_NI_NI) → exec (.evStart x) s = .next ((s.begin x).reply x 3 []))
      ∧ (s.Issued x 0x88 [] c → 4 ≤ s.rd pfB F.PF_RING_SIZE_LOG2 → s.rd pfB F.PF_RING_SIZE_LOG2 ≤ 16 →
        s.rd pfB F.PF_RING_NI_NI < s.rom.nis.length → s.flag pfB F.PF_EVD_CTL_EN = true →
        exec (.evStart x) s = .next ((s.begin x).reply x 6 []))
      ∧ (s.Issued x 0x88 [] c → 4 ≤ s.rd pfB F.PF_RING_SIZE_LOG2 → s.rd pfB F.PF_RING_SIZE_LOG2 ≤ 16 →
        s.rd pfB F.PF_RING_NI_NI < s.rom.nis.length → s.flag pfB F.PF_EVD_CTL_EN = false → ∀ r l, s.evd.held = r :: l →
        s.flag pfB F.PF_EVD_STAT_HEAD_VALID = true →
        exec (.evStart x) s = .next ((((((s.begin x).wr pfB F.PF_EVD_CTL_EN 1).wr pfB F.PF_RING_WR_SLOT
          (leNat ((r.drop 8).take 8) % s.ringLen)).evShow).evPump).reply x 0 []))
      ∧ (s.Issued x 0x8A [] c → s.flag pfB F.PF_EVD_CTL_EN = false → exec (.evMark x) s = .next ((s.begin x).reply x 6 []))
      ∧ (s.Issued x 0x89 [] c → s.flag pfB F.PF_EVD_CTL_EN = false → exec (.evStop x) s = .next ((s.begin x).reply x 6 []))
      ∧ (s.Issued x 0x8A [] c → s.flag pfB F.PF_EVD_CTL_EN = true →
        exec (.evMark x) s = .next (((s.begin x).emitRec 2 s.time.ft false).reply x 0 []))
      ∧ (s.Issued x 0x89 [] c → s.flag pfB F.PF_EVD_CTL_EN = true →
        ∀ v, v = (s.begin x).emitRec 4 s.time.ft false →
        exec (.evStop x) s = .next (if v.evd.fly.isSome && v.evd.held.length == 1 then { v with evd := { v.evd with stop := v.evd.stop ++ [x] } }
          else { v with evd := { v.evd with stop := v.evd.stop ++ [x] } }.evStopped))
      ∧ (s.Issued x 0x8B [] c →
        exec (.evStatus x) s = .next ((s.begin x).reply x 0 (leBytes 8 s.headSeq ++ s.getBytes (pfB + 0x130) 8))))
  ∧ (∀ (s : State),
      (∀ (kind at' : Nat) (part : Bool), s.evd.held.length < 8 → s.nextRecSeq < 2 ^ 64 →
        (s.emitRec kind at' part).headSeq = s.nextRecSeq ∧ (s.emitRec kind at' part).getBytes (pfB + 0x130) 8 = sha256 (s.record kind at' part)
        ∧ (s.emitRec kind at' part).evd.held = s.evd.held ++ [s.record kind at' part] ∧ (s.record kind at' part).length = 128)
      ∧ (∀ t, s.flag pfB F.PF_EVD_CTL_EN = true → s.rgStill s.rom.homeRegion = false →
          (s.rootOk = true → t % (s.evPeriod * 1000000) = 0) →
          exec (.evdBoundary t) s = .next (s.emitRec 1 (2 ^ 32 * (t + s.epoch * secNs)) false))
      ∧ (∀ t, (s.flag pfB F.PF_EVD_CTL_EN = false ∨ s.rgStill s.rom.homeRegion = true
          ∨ s.rootOk = true ∧ t % (s.evPeriod * 1000000) ≠ 0) → exec (.evdBoundary t) s = .next s)
      ∧ ((s.evd.fly = none ∨ ∃ n, s.evd.fly = some n ∧ (s.ni n).evRes = none) → exec .evdWriteResult s = .next s)
      ∧ (s.evd.retry = false → exec .evdRetry s = .next s)
      ∧ (∀ n st, s.evd.fly = some n → (s.ni n).evRes = some st → s.evd.stop = [] →
          (st = 0 → (∃ t : State, exec .evdWriteResult s = .next t ∧ t.evd.held = s.evd.held.drop 1 ∧ t.evd.fails = 0
            ∧ t.rd pfB F.PF_RING_WR_SLOT = (leNat (((s.evd.held.headD []).drop 8).take 8) + 1) % s.ringLen % 2 ^ 16))
          ∧ (st ≠ 0 → s.evd.fails = 0 → (∃ t : State, exec .evdWriteResult s = .next t ∧ t.evd.retry = true ∧ t.evd.fly = none ∧ t.evd.fails = 1))
          ∧ (st ≠ 0 → s.evd.fails ≠ 0 → (∃ t : State, exec .evdWriteResult s = .next t ∧ t.flag pfB F.PF_EVD_STAT_RING_FAULT = true ∧ t.evd.fly = none)))
      ∧ (∀ n st, s.evd.fly = some n → (s.ni n).evRes = some st → s.evd.stop ≠ [] → (∃ t : State, exec .evdWriteResult s = .next t ∧ t.evd.stop = [] ∧ t.flag pfB F.PF_EVD_CTL_EN = false ∧ ∀ x, x ∈ s.evd.stop → t.cmd x = none))
      ∧ (s.evd.retry = true → exec .evdRetry s = .next s.evSend.evShow))

/-- Staging and reconciliation at a target.

Staging at a target (R355, R356, R357, R364, R365, R378, R379, R389): an item that no other heat holds is staged and acknowledged OK; one
that a committed, armed or older heat holds answers CONFLICT; one that a younger heat holds is given to the arriving heat, the
younger one is marked and named in the acknowledgement; an action that a check refuses answers that check's status, one without room
SHADOW_FULL, and an endpoint write goes to the endpoint, or is answered for one that is in reset or off. A heat of an earlier generation
in the same slot is let go first. Without a message nothing changes.

RECONCILE at a target (R386, R593): PROBE of a heat that it still holds answers OK, of any other STALE; APPLY applies what it holds, END
what has been replayed, and REPLAY stages an action again. A target that holds nothing of the heat any more lets go of it, and so does one
whose entries show an uncorrectable error: both answer STALE. -/
def Obligations.StagesAndReconcilesAtTargets : Prop :=
  (∀ (s : State) (n : Nat),
      ((s.hasNi n = false ∨ s.takeMsg n (fun h => h.ptype == 4 && h.op == 0) = none) → exec (.stageReceive n) s = .next s)
      ∧ ∀ (s0 s1 : State) (k : Nat) (h : Hdr) (l : List Byte) (m : StageMsg) (g : Target) (far : Bool), s.hasNi n = true →
      s.takeMsg n (fun h => h.ptype == 4 && h.op == 0) = some (h, l, s0) → m = stageMsg l → far = (h.src / 256 != s0.instNum) →
      k = heatKey (h.src / 256) m.hid →
      s1 = (if ((s0.ni n).tgt k).any (fun y => y.gen != m.hid / 64) then s0.dropTarget n k else s0) →
      g = ((s1.ni n).tgt k).getD { gen := m.hid / 64, st := 1, tnum := m.tnum, age := m.age,
                                   cut := (s1.ni n).cut.contains (k, m.hid / 64) } →
      (∀ st d, s1.targetCheck n far g.items m = some (st, d) →
        exec (.stageReceive n) s = .next ((s1.updNi n (fun x => x.setTgt k (some g))).stageAck n h.src m.hid m.aseq st d 0))
      ∧ (∀ k' g', s1.targetCheck n far g.items m = none → (s1.ni n).holder k (itemKey m.kind m.index) = some (k', g') →
        (g'.st = 3 ∨ g'.st = 4 ∨ g'.st = 6 ∨ older k m.age k' g'.age = false) →
        exec (.stageReceive n) s = .next ((s1.updNi n (fun x => x.setTgt k (some g))).stageAck n h.src m.hid m.aseq 1 0 0))
      ∧ ∀ (s2 : State) (disp : Nat) (its : List Shadow), s1.targetCheck n far g.items m = none →
        ((s1.ni n).holder k (itemKey m.kind m.index) = none ∧ s2 = s1 ∧ disp = 0
          ∨ ∃ k' g', (s1.ni n).holder k (itemKey m.kind m.index) = some (k', g') ∧ g'.st ≠ 3 ∧ g'.st ≠ 4 ∧ g'.st ≠ 6
            ∧ older k m.age k' g'.age = true ∧ disp = 65536 + k' % 64 + 64 * g'.gen
            ∧ ∃ v : State, v = s1.updNi n (fun x => x.setTgt k' (some { g' with
                conflict := true, win := g'.win && itemKey m.kind m.index != (7, 0),
                items := g'.items.filter (fun i => itemKey i.kind i.index != itemKey m.kind m.index) }))
              ∧ s2 = (if itemKey m.kind m.index = (7, 0) then v.heatCode n 2 k' else v)) →
        its = putShadow g.items { aseq := m.aseq, kind := m.kind, index := m.index, data := s2.stagedData n far m } →
        (m.kind ≠ 7 → (its.length = g.items.length ∨ (s2.ni n).shadowUsed < 512) →
          exec (.stageReceive n) s = .next (((s2.updNi n (fun x => x.setTgt k (some { g with items := its }))).farFloors k
            its).stageAck n h.src m.hid m.aseq 0 0 disp))
        ∧ (m.kind ≠ 7 → its.length ≠ g.items.length → 512 ≤ (s2.ni n).shadowUsed →
          exec (.stageReceive n) s = .next ((s2.updNi n (fun x => x.setTgt k (some g))).stageAck n h.src m.hid m.aseq 2 0 disp))
        ∧ (m.kind = 7 → ∀ v : State, v = s2.updNi n (fun x => x.setTgt k (some { g with win := true, ep := true })) →
          ((v.ni n).epLow = true → exec (.stageReceive n) s = .next (v.stageAck n h.src m.hid m.aseq 5 9 disp))
          ∧ ((v.ni n).epLow = false → v.flag (niB n) F.NI_EP_CFG_TGT_EN = false →
            exec (.stageReceive n) s = .next (v.stageAck n h.src m.hid m.aseq 5 0x0D disp))
          ∧ ((v.ni n).epLow = false → v.flag (niB n) F.NI_EP_CFG_TGT_EN = true →
            exec (.stageReceive n) s = .next (v.epWrite n h.src disp m))))
  ∧ (∀ (s : State) (n : Nat) (t : Stamp) (mem : Bool),
      ((s.hasNi n = false ∨ s.takeMsg n (fun h => h.ptype == 4 && h.op == 8) = none) → exec (.reconcileReceive n t mem) s = .next s)
      ∧ ∀ (s1 : State) (k : Nat) (h : Hdr) (l : List Byte) (m : StageMsg), s.hasNi n = true →
      s.takeMsg n (fun h => h.ptype == 4 && h.op == 8) = some (h, l, s1) → m = stageMsg l → k = heatKey (h.src / 256) m.hid →
      (∀ v st d disp, m.mode = 0 → s1.stageAct n h.src m = (v, some (st, d, disp)) →
        exec (.reconcileReceive n t mem) s = .next (v.stageAck n h.src m.hid m.aseq st d disp))
      ∧ (∀ v, m.mode = 0 → s1.stageAct n h.src m = (v, none) → exec (.reconcileReceive n t mem) s = .next v)
      ∧ (m.mode ≠ 0 → (s1.ni n).tgtOf (h.src / 256) m.hid = none →
        exec (.reconcileReceive n t mem) s = .next (s1.stageAck n h.src m.hid m.aseq 6 0 0))
      ∧ ∀ g, (s1.ni n).tgtOf (h.src / 256) m.hid = some g →
        (g.st = 6 → g.lost = false → m.mode = 3 →
          exec (.reconcileReceive n t mem) s = .next (s1.stageAck n h.src m.hid m.aseq 0 0 0))
        ∧ ((m.mode = 1 ∧ g.st = 6 ∧ g.lost = false ∨ m.mode = 2 ∧ g.st = 1 ∧ g.lost = false) →
          (mem = false ∨ g.items = [] →
            exec (.reconcileReceive n t mem) s = .next ((s1.applyHeat n k g t).stageAck n h.src m.hid m.aseq 0 0 0))
          ∧ (mem = true → g.items ≠ [] →
            exec (.reconcileReceive n t mem) s = .next (((s1.dropTarget n k).memUncorr n).stageAck n h.src m.hid m.aseq 6 0 0)))
        ∧ (((m.mode = 1 ∨ m.mode = 3) ∧ (g.st ≠ 6 ∨ g.lost = true) ∨ m.mode = 2 ∧ (g.st ≠ 1 ∨ g.lost = true)) →
          exec (.reconcileReceive n t mem) s = .next ((s1.dropTarget n k).stageAck n h.src m.hid m.aseq 6 0 0)))

/-- A target's course (R363, R365, R367, R369, R371, R376, R384, R382, R388): it votes, commits, is armed, applies at T and not before,
misses T while COMMITTED, and lets go on ABORT, of its own instance's heat or, once the operation has come on the UP link, of a joined
instance's. Entries whose memory shows an uncorrectable error vote NO and are not applied
(R593). An operation that has not gone out, or that finds the target in another state, changes nothing. -/
def Obligations.TargetFollowsItsHeat : Prop :=
  ∀ (s : State) (n hid inst : Nat),
    (((s.ni n).tgtOf inst hid = none ∨ s.hears n = false) →
      (∀ mem, exec (.prepareReceive n hid inst mem) s = .next s) ∧ (∀ tt t, exec (.commitReceive n hid inst tt t) s = .next s)
      ∧ (∀ per t, exec (.armReceive n hid inst per t) s = .next s) ∧ exec (.abortReceive n hid inst) s = .next s)
    ∧ (((s.ni n).tgtOf inst hid = none ∨ s.hasNi n = false) →
      (∀ t mem, exec (.heatApply n hid inst t mem) s = .next s) ∧ ∀ t, exec (.heatMiss n hid inst t) s = .next s)
    ∧ ∀ (k : Nat) (g : Target), s.hasNi n = true → (s.ni n).tgtOf inst hid = some g → k = heatKey inst hid →
    (∀ mem v, s.hears n = true → g.st ≤ 2 → s.relayed 0 inst hid g = true → v = s.voteOf n g mem →
      exec (.prepareReceive n hid inst mem) s = .next ((if mem && !g.items.isEmpty then s.memUncorr n else s).updNi n
        (fun x => x.setTgt k (some { g.heard 0 with ans := some v, st := if v = 0 then 2 else g.st }))))
    ∧ (∀ mem, (2 < g.st ∨ s.relayed 0 inst hid g = false) → exec (.prepareReceive n hid inst mem) s = .next s)
    ∧ (∀ tt t, (2 < g.st ∨ s.relayed 1 inst hid g = false ∨ inst ≠ s.instNum ∧ g.calls.contains (1, tt) = false) →
        exec (.commitReceive n hid inst tt t) s = .next s)
    ∧ (∀ tt t at', s.hears n = true → g.st ≤ 2 → s.relayed 1 inst hid g = true → (inst ≠ s.instNum → g.calls.contains (1, tt) = true) →
        at' = (if inst = s.instNum then s.heatT (hid % 64) else tt) →
        (s.niTimeOk n = true → g.conflict = false → g.lost = false →
          exec (.commitReceive n hid inst tt t) s = .next (s.updNi n (fun x => x.setTgt k (some (if 0 ≤ stampDiff t at' then
            { g.heard 1 with ans := some 7 } else { g.heard 1 with ans := some 0, st := 3, t := at' })))))
        ∧ ∀ e, (s.niTimeOk n = false ∧ e = 1 ∨ s.niTimeOk n = true ∧ g.conflict = true ∧ e = 4
          ∨ s.niTimeOk n = true ∧ g.conflict = false ∧ g.lost = true ∧ e = 5) →
          exec (.commitReceive n hid inst tt t) s = .next (s.updNi n (fun x => x.setTgt k (some { g.heard 1 with ans := some e }))))
    ∧ (∀ (per : Nat) (t : Stamp), (g.st ≠ 3 ∨ inst ≠ s.instNum ∧ s.relayed 2 inst hid g = false
          ∨ inst = s.instNum ∧ ∀ st, s.heatNow hid = some st → st < 6 ∨ 9 < st) →
        exec (.armReceive n hid inst per t) s = .next s)
    ∧ (∀ (per : Nat) (t : Stamp) (room : Int), s.hears n = true → g.st = 3 →
        (inst = s.instNum → ∃ st, s.heatNow hid = some st ∧ 6 ≤ st ∧ st ≤ 9) → (inst ≠ s.instNum → s.relayed 2 inst hid g = true) →
        room = (stampDiff g.t t - ((if g.ep then 2 * per else 0 : Nat) : Int)) * s.mhz (niRec s.rom n).region →
        (2 * 256000 ≤ room → exec (.armReceive n hid inst per t) s = .next (s.updNi n (fun x => x.setTgt k (some { g.heard 2 with
          st := if g.lost then 6 else 4 }))))
        ∧ (room < 2 * 256000 → exec (.armReceive n hid inst per t) s = .next s))
    ∧ (∀ t mem, (g.st ≠ 4 → exec (.heatApply n hid inst t mem) s = .next s)
        ∧ (g.st = 4 → stampDiff t g.t < 0 → exec (.heatApply n hid inst t mem) s = .next s)
        ∧ (g.st = 4 → 0 ≤ stampDiff t g.t → mem = false ∨ g.items = [] →
          exec (.heatApply n hid inst t mem) s = .next (s.applyHeat n k g g.t)
          ∧ (∃ u : State, exec (.heatApply n hid inst t mem) s = .next u ∧ (u.ni n).tgt k = some { g with st := 5, items := [], win := false }))
        ∧ (g.st = 4 → 0 ≤ stampDiff t g.t → mem = true → g.items ≠ [] →
          exec (.heatApply n hid inst t mem) s = .next ((s.updNi n (fun x => x.setTgt k (some { g with st := 6, lost := true }))).memUncorr
            n)))
    ∧ (∀ t, (g.st ≠ 3 ∨ stampDiff t g.t < 0) → exec (.heatMiss n hid inst t) s = .next s)
    ∧ (∀ t, g.st = 3 → 0 ≤ stampDiff t g.t →
        exec (.heatMiss n hid inst t) s = .next (((s.updNi n (fun x => x.setTgt k (some { g with st := 6 }))).count (niB n)
          F.NI_HEAT_MISS_CNT_COUNT 1).alert n 9))
    ∧ ((g.st = 5 ∨ inst ≠ s.instNum ∧ s.relayed 3 inst hid g = false
          ∨ inst = s.instNum ∧ ∃ st, s.heatNow hid = some st ∧ st ≠ 10) → exec (.abortReceive n hid inst) s = .next s)
    ∧ (s.hears n = true → g.st ≠ 5 → (inst = s.instNum → ∀ st, s.heatNow hid = some st → st = 10) →
        (inst ≠ s.instNum → s.relayed 3 inst hid g = true) →
        exec (.abortReceive n hid inst) s = .next (s.dropTarget n k)
        ∧ (∃ u : State, exec (.abortReceive n hid inst) s = .next u ∧ (u.ni n).tgt k = none))

/-- HEAT_OPEN and HEAT_STAGE.

HEAT_OPEN takes the lowest FREE slot with its next generation and the root's stamp as age; NO_SLOT with none free, BACKOFF
before the client's deadline, which the refusal restarts, and BAD_PARAM for a SPAN heat without Span ports (R347, R380, R390).

HEAT_STAGE with one action that passes the Starter's checks: the action is journalled under the next ASEQ with the values that the Starter
computes for it, its target numbered,
a STAGE is queued at HCU.HOME_NI, a route action owes the floors (R240), and the command stays in execution until the action is
acknowledged (R348, R352, R354, R364, R366, R390). An action that fails a check aborts the heat; another generation is BAD_HID, a heat that is
not OPEN BUSY, a count that does not fit BAD_PARAM, and a route across a region in a step waits (R241). -/
def Obligations.HeatsOpenAndStage : Prop :=
  (∀ (s : State) (x cl gen : Nat) (c : Cmd), s.Issued x 0x30 [(0, 15)] c → cl = c.p 0 8 →
      (c.p 14 1 = 1 → s.rom.spans = [] → exec (.heatOpen x) s = .next ((s.begin x).reply x 3 []))
      ∧ ((c.p 14 1 = 1 → s.rom.spans ≠ []) → (s.clock < (s.client cl).2 →
        exec (.heatOpen x) s = .next (((s.begin x).backOff cl (min (2 * (s.client cl).1) 10)).reply x 0x0013 []))
      ∧ ((s.client cl).2 ≤ s.clock → (s.slotsIn [0]).head? = none → exec (.heatOpen x) s = .next ((s.begin x).reply x 0x0012 []))
      ∧ (∀ k, (s.client cl).2 ≤ s.clock → (s.slotsIn [0]).head? = some k →
        gen = (s.rd hcuB (F.HCU_SLOT1_GEN.ix k) + 1) % 1024 →
        (∃ v : State, exec (.heatOpen x) s = .next (v.reply x 0 (leBytes 2 (k + 64 * gen) ++ leBytes 6 0 ++ leBytes 8 s.rootStamp.toNat)) ∧ v.heatSt k = 1 ∧ v.hidOf k = k + 64 * gen ∧ v.rd hcuB (F.HCU_SLOT0_CLIENT.ix k) = cl
          ∧ v.rd hcuB (F.HCU_SLOT0_SLICE.ix k) = c.p 8 6 ∧ v.rd hcuB (F.HCU_SLOT0_SPAN.ix k) = c.p 14 1
          ∧ v.rd hcuB (F.HCU_SLOT1_TARGETS.ix k) = 0 ∧ v.rd hcuB (F.HCU_SLOT7_FIRST.ix k) = 0x1FF ∧ v.heat k = {}
          ∧ v.word64 (hcuB + 0x10C + 0x20 * k) = s.rootStamp.toNat ∧ ∀ j, j ≠ k → j < 64 → v.heatSt j = s.heatSt j))))
  ∧ (∀ (s : State) (x k node tnum n0 : Nat) (c : Cmd) (a : Act) (d : Nat) (v : State), s.Issued x 0x31 [(0, 19), (128, 1792)] c →
      (s.stageHeld c = true → exec (.heatStage x) s = .next s)
      ∧ (s.stageHeld c = false → s.slotOf (c.p 0 16) = none → exec (.heatStage x) s = .next ((s.begin x).reply x 0x11 []))
      ∧ (s.stageHeld c = false → s.slotOf (c.p 0 16) = some k → (s.heatSt k ≠ 1 ∨ (s.heat k).due = true) →
        exec (.heatStage x) s = .next ((s.begin x).reply x 6 []))
      ∧ (s.stageHeld c = false → s.slotOf (c.p 0 16) = some k → s.heatSt k = 1 → (s.heat k).due = false →
        (c.p 16 3 = 0 ∨ 4096 < s.rd hcuB (F.HCU_SLOT2_ACTIONS.ix k) + c.p 16 3) →
        exec (.heatStage x) s = .next ((s.begin x).reply x 3 []))
      ∧ (s.stageHeld c = false →
      c.p 16 3 = 1 → s.slotOf (c.p 0 16) = some k → s.heatSt k = 1 → (s.heat k).due = false →
      s.rd hcuB (F.HCU_SLOT2_ACTIONS.ix k) < 4096 → (s.heat k).tgts.length < 256 → s.journal < 8192 →
      tnum = (s.heat k).tgts.findIdx (fun t => t == node) →
      v = (s.begin x).setHeat k { s.heat k with stages := (s.heat k).stages ++ [(x, 1)] } →
      (∀ clean, stagedAct c x 0 = (node, clean, a) →
        (clean = false ∨ s.actForm node a = false ∨ node / 256 ≠ s.instNum ∧ s.heatSpan k = false) →
        (∃ t : State, exec (.heatStage x) s = .next t ∧ t.heatSt k = 10 ∧ t.rd hcuB (F.HCU_SLOT0_REASON.ix k) = 3
          ∧ t.rd hcuB (F.HCU_SLOT7_FIRST.ix k) = tnum % 512 ∧ t.cmd x = none))
      ∧ (stagedAct c x 0 = (node, true, a) → s.actForm node a = true → (node / 256 = s.instNum ∨ s.heatSpan k = true) →
      (∀ j ∈ s.slotsIn [9], ∀ t ∈ (s.heat j).strag, (s.heat j).tgts.getD t 0 ≠ node) →
      (if node / 256 = s.instNum then v.itemCheck (node % 256) a.kind a.index a.data else .ok a.data) = .ok d →
      n0 = s.rd hcuB F.HCU_HOME_NI_NI → s.hasNi n0 = true →
      (∃ t : State, exec (.heatStage x) s = .next t ∧ (t.heat k).acts = (s.heat k).acts ++ [{ a with
          aseq := s.rd hcuB (F.HCU_SLOT2_ACTIONS.ix k), tnum := tnum, data := d }]
        ∧ (t.heat k).tgts.getD tnum 0 = node
        ∧ (t.heat k).stages = (s.heat k).stages ++ [(x, 1)]
        ∧ t.rd hcuB (F.HCU_SLOT2_ACTIONS.ix k) = s.rd hcuB (F.HCU_SLOT2_ACTIONS.ix k) + 1 ∧ (t.cmd x).isSome = true
        ∧ (a.kind = 0 → t.flag glbB F.GLB_SC0_STAT_FLOOR_BUSY = true)
        ∧ (t.ni n0).sysAll.length = (s.ni n0).sysAll.length + 1 ∧ ∀ m, m ≠ n0 → t.ni m = s.ni m))))

/-- The vote, COMMIT and ARM.

STAGE_ACKs and the vote (R361, R363, R366, R367, R378, R583): an OK is recorded, any other aborts, and a heat that an acknowledgement
names as displaced aborts whatever has become of the heat acknowledged; HEAT_COMMIT and a scheduled start enter VOTING
once every STAGE_ACK has arrived; a vote whose merged word every target passes enters LEAVE and asks for leave, any other aborts. HEAT_COMMIT
of another generation is BAD_HID, of a heat that is not OPEN BUSY, and with a T out of range BAD_PARAM.

COMMIT and ARM (R369, R370, R374, R375, R381, R583): with leave, a free Relay Tree and no step pending, COMMIT leaves with T the root's
Fabric Time plus LEAD, or with the T that the command gave, and not before; without valid time or past that T's deadline the heat aborts. A
collect that is short aborts; when every target has acknowledged and ARM can leave by T less GUARD the heat is ARMED, comparison of the
configuration CRC is suspended and HEAT_COMMIT is answered. -/
def Obligations.HeatsVoteAndCommit : Prop :=
  (∀ (s : State) (k : Nat), k < 64 →
      (∀ n mem, (s.hasNi n = false ∨ s.takeMsg n (fun h => h.ptype == 4 && h.op == 1) = none) →
        exec (.stageAckReceive n mem) s = .next s)
      ∧ (∀ n mem h l s1, s.hasNi n = true → s.takeMsg n (fun h => h.ptype == 4 && h.op == 1) = some (h, l, s1) →
        (n ≠ s1.rd hcuB F.HCU_HOME_NI_NI → exec (.stageAckReceive n mem) s = .next (s1.pktBad n))
        ∧ (n = s1.rd hcuB F.HCU_HOME_NI_NI → s1.slotOf (leNat (l.take 2)) = none → leNat ((l.drop 8).take 1) % 2 = 1 →
          s1.slotOf (leNat ((l.drop 6).take 2)) = some k → exec (.stageAckReceive n mem) s = .next (s1.heatAbort k 2 0x1FF 0)))
      ∧ (∀ n mem h l s1 tnum st (mine : Act → Bool), s.hasNi n = true → n = s1.rd hcuB F.HCU_HOME_NI_NI →
        s.takeMsg n (fun h => h.ptype == 4 && h.op == 1) = some (h, l, s1) → s1.slotOf (leNat (l.take 2)) = some k →
        s1.heatSt k ≠ 9 → leNat ((l.drop 8).take 1) % 2 = 0 → tnum = (s1.heat k).tgts.findIdx (fun t => t == h.src) →
        mine = (fun a => a.aseq == leNat ((l.drop 2).take 2) && a.tnum == tnum && a.ack.isNone) →
        st = leNat ((l.drop 4).take 1) →
        ((s1.heat k).acts.any mine = false → exec (.stageAckReceive n mem) s = .next s1)
        ∧ ((s1.heat k).acts.any mine = true →
        (st = 0 → (∃ t : State, exec (.stageAckReceive n mem) s = .next t ∧ (t.heat k).acts = (s1.heat k).acts.map (fun a =>
          if mine a then { a with ack := some (0, leNat ((l.drop 5).take 1)) } else a)))
        ∧ (st ≠ 0 → exec (.stageAckReceive n mem) s = .next ((s1.setHeat k { s1.heat k with
            acts := (s1.heat k).acts.map (fun a =>
              if mine a then { a with ack := some (st, leNat ((l.drop 5).take 1)) } else a) }).heatAbort k
            (if st = 1 then 2 else 3) tnum (leNat ((l.drop 5).take 1))))))
      ∧ (∀ x c, s.Issued x 0x32 [(0, 17), (32, 80)] c → s.slotOf (c.p 0 16) = none →
          exec (.heatCommit x) s = .next ((s.begin x).reply x 0x11 []))
      ∧ (∀ x c, s.Issued x 0x32 [(0, 17), (32, 80)] c → s.slotOf (c.p 0 16) = some k → (s.heatSt k ≠ 1 ∨ (s.heat k).due = true) →
          exec (.heatCommit x) s = .next ((s.begin x).reply x 6 []))
      ∧ (∀ x c, s.Issued x 0x32 [(0, 17), (32, 80)] c → s.slotOf (c.p 0 16) = some k → s.heatSt k = 1 → (s.heat k).due = false →
          (c.p 16 1 = 0 → (∃ t : State, exec (.heatCommit x) s = .next t ∧ (t.heat k).commit = some x ∧ (t.heat k).due = true ∧ (t.cmd x).isSome = true
            ∧ t.heatSt k = (if (s.heat k).acts.all (fun a => a.ack.isSome) then 3 else 1)))
          ∧ (∀ tc, c.p 16 1 = 1 → tc = 256 * (c.p 32 48 * secNs + c.p 80 32) →
            (tc < s.time.ft / 2 ^ 24 + s.heatLead k + s.startAdv ∨ s.time.ft / 2 ^ 24 + 256 * 60 * secNs < tc) →
            exec (.heatCommit x) s = .next ((s.begin x).reply x 3 []))
          ∧ (∀ v tc, c.p 16 1 = 1 → tc = 256 * (c.p 32 48 * secNs + c.p 80 32) →
            s.time.ft / 2 ^ 24 + s.heatLead k + s.startAdv ≤ tc → tc ≤ s.time.ft / 2 ^ 24 + 256 * 60 * secNs →
            v = (((s.begin x).setWord64 (hcuB + 0x114 + 0x20 * k) (BitVec.ofInt 64 ((tc : Int) - 256 * (s.epoch * secNs : Nat)) : Stamp).toNat).setHeat
              k { s.heat k with given := true }).heatGo k 2 →
            exec (.heatCommit x) s = .next (v.reply x 0 (v.commitReply k))))
      ∧ ((s.heatSt k ≠ 2 ∨ (s.heat k).due = true ∨ s.pastT k < -(s.startAdv : Int)) → exec (.heatScheduledStart k) s = .next s)
      ∧ (s.heatSt k = 2 → (s.heat k).due = false → -(s.startAdv : Int) ≤ s.pastT k → (∃ t : State, exec (.heatScheduledStart k) s = .next t ∧ (t.heat k).due = true ∧ t.heatSt k = (if (s.heat k).acts.all (fun a => a.ack.isSome) then 3 else 2)))
      ∧ (∀ w, (s.heatSt k ≠ 3 ∨ s.relay ≠ some (0, k) ∨ s.collectWord 0 k 0 ≠ (w, true)) → exec (.voteCollectDone k w) s = .next s)
      ∧ (∀ w yes no first reason, s.heatSt k = 3 → s.relay = some (0, k) → s.collectWord 0 k 0 = (w, true) →
          voteFields w = (yes, no, first, reason) →
          (yes = s.targetCount k → no = 0 →
            (∃ t : State, exec (.voteCollectDone k w) s = .next t ∧ t.heatSt k = 4 ∧ t.asks = s.asks ++ [{ kind := 0, who := k }]))
          ∧ (yes ≠ s.targetCount k → no = 0 →
            exec (.voteCollectDone k w) s = .next ((s.relayEnd k).heatAbort k 6 0x1FF 0))
          ∧ (no ≠ 0 → exec (.voteCollectDone k w) s = .next ((s.relayEnd k).heatAbort k 5 first reason))))
  ∧ (∀ (s : State) (k : Nat), k < 64 →
      ((s.heatSt k ≠ 4 ∨ s.hasLeave 0 k = false ∨ s.relay.isSome = true ∨ s.time.step.isSome = true) →
        exec (.heatCommitSend k) s = .next s)
      ∧ (s.heatSt k = 4 → s.hasLeave 0 k = true → s.relay = none → s.time.step = none →
        (s.rootOk = false → exec (.heatCommitSend k) s = .next (s.heatAbort k 0x0A 0x1FF 0))
        ∧ (s.rootOk = true → (s.heat k).given = true → -(s.heatLead k : Int) < s.pastT k →
          exec (.heatCommitSend k) s = .next (s.heatAbort k 8 0x1FF 0)))
      ∧ (s.heatSt k = 4 → s.hasLeave 0 k = true → s.relay = none → s.time.step = none → s.rootOk = true →
        ((s.heat k).given = true → s.pastT k ≤ -(s.heatLead k : Int)) →
        (∃ t : State, exec (.heatCommitSend k) s = .next t ∧ t.heatSt k = 5 ∧ t.relay = some (1, k)
          ∧ t.heatT k = (if (s.heat k).given then s.heatT k else s.rootStamp + BitVec.ofNat 64 (s.heatLead k))))
      ∧ (∀ w, (s.heatSt k ≠ 5 ∨ s.relay ≠ some (1, k) ∨ s.collectWord 1 k 0 ≠ (w, true)) → exec (.commitCollectDone k w) s = .next s)
      ∧ (∀ w yes no first reason, s.heatSt k = 5 → s.relay = some (1, k) → s.collectWord 1 k 0 = (w, true) →
        voteFields w = (yes, no, first, reason) →
        (yes ≠ s.targetCount k → no = 0 →
          exec (.commitCollectDone k w) s = .next ((s.relayEnd k).heatAbort k 6 0x1FF 0))
        ∧ (no ≠ 0 → exec (.commitCollectDone k w) s = .next ((s.relayEnd k).heatAbort k
            (if reason = 7 then 9 else if reason = 1 then 0x0A else 5) first reason)))
      ∧ (∀ w first reason, s.heatSt k = 5 → s.relay = some (1, k) → s.collectWord 1 k 0 = (w, true) →
        voteFields w = (s.targetCount k, 0, first, reason) →
        (-(s.heatGuard k : Int) < s.pastT k →
          exec (.commitCollectDone k w) s = .next ((s.relayEnd k).heatAbort k 8 0x1FF 0))
        ∧ (s.pastT k ≤ -(s.heatGuard k : Int) → ∃ v : State, v.heatSt k = 6 ∧ v.flag evtB F.EVT_STAT_SUSP_HEAT = true
          ∧ v.heatCrc = true ∧ (v.heat k).commit = none ∧ exec (.commitCollectDone k w) s = .next
            ((v.replyOpt (s.heat k).commit 0 (v.commitReply k)).heatPump))))

/-- Aborts (R363, R366, R368, R374, R375, R381, R382, R390): HEAT_ABORT before ARM records USER, counts and frees the journal, and is
refused from ARMED onward and for another generation; a missing STAGE_ACK, leave not granted, a collect not completed and a passed
deadline abort with their reasons, and out of their states change nothing. A collect of SETTLING not completed leaves every target a straggler (the model's choice, log 61). -/
def Obligations.HeatsAbortWithTheirReasons : Prop :=
  ∀ (s : State) (k : Nat), k < 64 →
    (∀ x c, s.Issued x 0x33 [(0, 16)] c → s.slotOf (c.p 0 16) = some k → 1 ≤ s.heatSt k → s.heatSt k ≤ 5 → (s.heat k).stages = [] →
      (s.heat k).commit = none → (∃ v : State, exec (.heatAbort x) s = .next (v.reply x 0 []) ∧ v.heatSt k = 10
        ∧ v.rd hcuB (F.HCU_SLOT0_REASON.ix k) = 1 ∧ v.rd hcuB (F.HCU_SLOT7_FIRST.ix k) = 0x1FF
        ∧ v.rd hcuB F.HCU_CNT_ABORT_COUNT = min (s.rd hcuB F.HCU_CNT_ABORT_COUNT + 1) (2 ^ 32 - 1)
        ∧ (v.heat k).acts = [] ∧ v.hasLeave 0 k = false))
    ∧ (∀ x c, s.Issued x 0x33 [(0, 16)] c → s.slotOf (c.p 0 16) = some k → 5 < s.heatSt k →
        exec (.heatAbort x) s = .next ((s.begin x).reply x 6 []))
    ∧ (∀ x c, s.Issued x 0x33 [(0, 16)] c → s.slotOf (c.p 0 16) = none →
        exec (.heatAbort x) s = .next ((s.begin x).reply x 0x11 []))
    ∧ (∀ aseq, (s.heat k).acts.find? (fun a => a.aseq == aseq && a.ack.isNone) = none → exec (.stageAckTmo k aseq) s = .next s)
    ∧ ((s.heatSt k ≠ 4 ∨ s.hasLeave 0 k = true) → exec (.leaveTmo k) s = .next s)
    ∧ ((∀ r, s.relay ≠ some (r, k)) → exec (.relayFault k) s = .next s)
    ∧ (¬ ((s.heat k).given = true ∧ (s.heatSt k = 2 ∨ s.heatSt k = 3 ∨ s.heatSt k = 4) ∧ -(s.heatLead k : Int) < s.pastT k)
      → ¬ (s.heatSt k = 5 ∧ -(s.heatGuard k : Int) < s.pastT k) → exec (.heatDeadline k) s = .next s)
    ∧ (∀ aseq a, (s.heat k).acts.find? (fun a => a.aseq == aseq && a.ack.isNone) = some a →
      exec (.stageAckTmo k aseq) s = .next (s.heatAbort k 4 a.tnum 0))
    ∧ (s.heatSt k = 4 → s.hasLeave 0 k = false → exec (.leaveTmo k) s = .next (s.heatAbort k 7 0x1FF 0))
    ∧ (∀ r, s.relay = some (r, k) → r ≤ 1 → exec (.relayFault k) s = .next (s.heatAbort k 0x0D 0x1FF 0))
    ∧ (∀ r, s.relay = some (r, k) → 1 < r → exec (.relayFault k) s = .next (s.settled k (List.range (s.heat k).tgts.length)))
    ∧ (((s.heat k).given = true ∧ (s.heatSt k = 2 ∨ s.heatSt k = 3 ∨ s.heatSt k = 4) ∧ -(s.heatLead k : Int) < s.pastT k)
        ∨ (s.heatSt k = 5 ∧ -(s.heatGuard k : Int) < s.pastT k) →
      exec (.heatDeadline k) s = .next (s.heatAbort k 8 0x1FF 0))

/-- Settling, and the commands that show, close and reconcile heats.

Settling (R361, R363, R372, R380, R383, R583): the SETTLE collect starts at T plus 100 ns, or 2,000 ns with SPAN; with every target applied
the heat is COMMITTED, its leave given back and the client's losses forgotten; else the MAP collects, a word for each 32 targets, give the
stragglers. A word that is not the collect's, or not whole, changes nothing.

The other heat commands (R386, R387, R390, R391): HEAT_STATUS, HEAT_STRAGGLERS, HEAT_CLOSE, and HEAT_RECONCILE, which probes a
straggler again or drops it; the Starter's report of an NI that is up probes it, once its configuration is restored. Another generation is
BAD_HID, a slot in another state BUSY, and a target that is no straggler BAD_PARAM. -/
def Obligations.HeatsSettleShowAndClose : Prop :=
  (∀ (s : State) (k : Nat) (w : Word) (maps : List Word), k < 64 →
      ((s.heatSt k ≠ 6 ∧ s.heatSt k ≠ 7
          ∨ s.heatSt k = 6 ∧ (s.pastT k < 256 * (if s.heatSpan k then 2000 else 100) ∨ s.relay.isSome = true)
          ∨ s.heatSt k = 7 ∧ s.relay ≠ some (4, k) ∧ s.relay ≠ some (5, k)
          ∨ s.heatSt k = 7 ∧ s.relay = some (4, k) ∧ s.collectWord 4 k 0 ≠ (w, true)
          ∨ s.heatSt k = 7 ∧ s.relay = some (5, k) ∧ (List.range (s.mapLen k)).map (s.collectWord 5 k) ≠ maps.map (fun x => (x, true))) →
        exec (.heatSettle k w maps) s = .next s)
      ∧ (s.heatSt k = 6 → 256 * (if s.heatSpan k then 2000 else 100) ≤ s.pastT k → s.relay = none →
        (∃ t : State, exec (.heatSettle k w maps) s = .next t ∧ t.heatSt k = 7 ∧ t.relay = some (4, k)))
      ∧ (s.heatSt k = 7 → s.relay = some (4, k) → s.collectWord 4 k 0 = (w, true) →
        ((voteFields w).1 = s.targetCount k →
          (∃ t : State, exec (.heatSettle k w maps) s = .next t ∧ t.heatSt k = 8 ∧ (t.heat k).acts = [] ∧ t.hasLeave 0 k = false
            ∧ (t.client (s.rd hcuB (F.HCU_SLOT0_CLIENT.ix k))).1 = 0))
        ∧ ((voteFields w).1 ≠ s.targetCount k →
          (∃ t : State, exec (.heatSettle k w maps) s = .next t ∧ t.heatSt k = 7 ∧ t.relay = some (5, k))))
      ∧ (∀ l, s.heatSt k = 7 → s.relay = some (5, k) →
        (List.range (s.mapLen k)).map (s.collectWord 5 k) = maps.map (fun x => (x, true)) →
        l = (List.range (s.heat k).tgts.length).filter (fun t => !bitAt (maps.getD (t / 32) 0).toNat (t % 32)) →
        (l ≠ [] → (∃ t : State, exec (.heatSettle k w maps) s = .next t ∧ t.heatSt k = 9 ∧ (t.heat k).strag = l ∧ t.hasLeave 0 k = false))
        ∧ (l = [] → (∃ t : State, exec (.heatSettle k w maps) s = .next t ∧ t.heatSt k = 8 ∧ (t.heat k).acts = [] ∧ t.hasLeave 0 k = false))))
  ∧ (∀ (s : State) (x k : Nat) (c : Cmd),
      (s.Issued x 0x34 [(0, 16)] c → s.slotOf (c.p 0 16) = some k →
        exec (.heatStatus x) s = .next ((s.begin x).reply x 0 ((List.range 8).flatMap (fun i =>
          leBytes 4 (s.slotWord k i).toNat))))
      ∧ (s.Issued x 0x37 [(0, 16)] c → s.slotOf (c.p 0 16) = some k →
        exec (.heatStragglers x) s = .next ((s.begin x).reply x 0 ((List.range 8).flatMap (fun w =>
          leBytes 4 (bitsWhere 32 (fun i => (s.heat k).strag.contains (32 * w + i)))))))
      ∧ (s.Issued x 0x35 [(0, 16)] c → s.slotOf (c.p 0 16) = some k → (s.heatSt k = 8 ∨ s.heatSt k = 10) →
        exec (.heatClose x) s = .next ((((s.begin x).heatGo k 0).setHeat k {}).reply x 0 []))
      ∧ (s.Issued x 0x36 [(0, 25)] c → s.slotOf (c.p 0 16) = some k → s.heatSt k = 9 →
        (s.heat k).strag.contains (c.p 16 8) = true →
        (c.p 24 1 = 0 → exec (.heatReconcile x) s = .next (((s.begin x).probeStrag k (c.p 16 8)).reply x 0 []))
        ∧ (c.p 24 1 = 1 → exec (.heatReconcileDrop x) s = .next (((s.begin x).unstrag k (c.p 16 8)).reply x 0 [])))
      ∧ (s.slotOf (c.p 0 16) = none →
        (s.Issued x 0x34 [(0, 16)] c → exec (.heatStatus x) s = .next ((s.begin x).reply x 0x11 []))
        ∧ (s.Issued x 0x37 [(0, 16)] c → exec (.heatStragglers x) s = .next ((s.begin x).reply x 0x11 []))
        ∧ (s.Issued x 0x35 [(0, 16)] c → exec (.heatClose x) s = .next ((s.begin x).reply x 0x11 []))
        ∧ (s.Issued x 0x36 [(0, 25)] c → c.p 24 1 = 0 → exec (.heatReconcile x) s = .next ((s.begin x).reply x 0x11 []))
        ∧ (s.Issued x 0x36 [(0, 25)] c → c.p 24 1 = 1 → exec (.heatReconcileDrop x) s = .next ((s.begin x).reply x 0x11 [])))
      ∧ (s.Issued x 0x35 [(0, 16)] c → s.slotOf (c.p 0 16) = some k → s.heatSt k ≠ 8 → s.heatSt k ≠ 10 →
        exec (.heatClose x) s = .next ((s.begin x).reply x 6 []))
      ∧ (∀ e, s.Issued x 0x36 [(0, 25)] c → s.slotOf (c.p 0 16) = some k →
        (s.heatSt k ≠ 9 ∧ e = 6 ∨ s.heatSt k = 9 ∧ (s.heat k).strag.contains (c.p 16 8) = false ∧ e = 3) →
        (c.p 24 1 = 0 → exec (.heatReconcile x) s = .next ((s.begin x).reply x e []))
        ∧ (c.p 24 1 = 1 → exec (.heatReconcileDrop x) s = .next ((s.begin x).reply x e [])))
      ∧ (∀ n, (s.hasNi n = false ∨ s.restored n = false ∨ s.slotsIn [9] = []) → exec (.reconcileStart n) s = .next s)
      ∧ (∀ n t, s.hasNi n = true → s.restored n = true → s.slotsIn [9] = [k] → (s.heat k).strag.find? (fun t =>
          (s.heat k).tgts.getD t 0 == s.nodeId n) = some t → exec (.reconcileStart n) s = .next (s.probeStrag k t)))

/-- R384: a target that is still COMMITTED when its local Fabric Time reaches T does not apply. It enters STRAGGLER and keeps its
shadow entries. NI.HEAT_STAT.STRAGGLER shows it, NI.HEAT_MISS_CNT is incremented (and saturates), and NI event HEAT_MISS is
raised. No other word outside the event unit changes. -/
def Obligations.MissedHeatLeavesAStraggler : Prop :=
  ∀ (s : State) (n hid inst : Nat) (t : Stamp) (g : Target), s.hasNi n = true → (s.ni n).tgtOf inst hid = some g → g.st = 3 →
    0 ≤ stampDiff t g.t → (∃ v : State, exec (.heatMiss n hid inst t) s = .next v ∧ (v.ni n).tgtOf inst hid = some { g with st := 6 }
      ∧ bitAt (v.view (niUnit n) 0x740).toNat 16 = true
      ∧ v.rd (niB n) F.NI_HEAT_MISS_CNT_COUNT = min (s.rd (niB n) F.NI_HEAT_MISS_CNT_COUNT + 1) (2 ^ 32 - 1)
      ∧ bitAt (v.rd (niB n) F.NI_EVT_CAUSE_A_C) 9 = true
      ∧ ∀ o, (o < evtB ∨ evtB + 0x10000 ≤ o) → o ≠ niB n + F.NI_HEAT_MISS_CNT_COUNT.off → o ≠ niB n + F.NI_EVT_CAUSE_A_C.off →
          v.word o = s.word o)

/-- R387: HEAT_RECONCILE with MODE DROP removes a target from the straggler map without applying anything. Every target keeps what
it holds, and no word outside the home layer changes. When the map becomes empty, the slot enters COMMITTED with RECONCILED = 1,
and its journal records are freed. -/
def Obligations.DroppedStragglerLeavesTheMap : Prop :=
  ∀ (s : State) (x k : Nat) (c : Cmd) (l : List Nat), s.Issued x 0x36 [(0, 25)] c → c.p 24 1 = 1 → s.slotOf (c.p 0 16) = some k →
    s.heatSt k = 9 → (s.heat k).strag.contains (c.p 16 8) = true → l = (s.heat k).strag.filter (fun i => i != c.p 16 8) →
    (∃ t : State, exec (.heatReconcileDrop x) s = .next t ∧ (t.heat k).strag = l ∧ (∀ n, (t.ni n).tgts = (s.ni n).tgts)
      ∧ (∀ o, niB 0 ≤ o → t.word o = s.word o)
      ∧ (l = [] → t.heatSt k = 8 ∧ t.rd hcuB (F.HCU_SLOT0_RECONCILED.ix k) = 1 ∧ (t.heat k).acts = [])
      ∧ (l ≠ [] → t.heatSt k = 9))

/-- The scanner (R606, R608 to R611, R613): a pass starts and ends; its end completes a TAKE commit, taking its combined value, or
compares; a second mismatch raises CFGCRC_MISMATCH; a share that matches opens its recovering region (R553, R554);
CFG_RECOMPUTE and the Starter's commit after heats ask for leave. -/
def Obligations.ScannerPassesCompareAndCommit : Prop :=
  ∀ s : State,
    exec .crcPassStart s = .next (s.wr evtB F.EVT_STAT_PASS_BUSY 1)
    ∧ (s.flag evtB F.EVT_STAT_PASS_BUSY = false → exec .crcPassEnd s = .next s)
    ∧ (s.flag evtB F.EVT_STAT_PASS_BUSY = true → exec .crcPassEnd s = .next s.passEnd.scanOpen)
    ∧ ((s.heatCrc = false ∨ s.slotsIn [6, 7] ≠ [] ∨ s.scan.heat = true ∨ { kind := 4, who := 0 } ∈ s.asks
        ∨ { kind := 4, who := 0 } ∈ s.leaveQ ∨ { kind := 4, who := 0 } ∈ s.leaves) → exec .heatCrcRecommit s = .next s)
    ∧ ((∀ g, (s.rg g).wake ≠ 8) → s.rom.regions.length ≤ 16 → s.flag evtB F.EVT_STAT_PASS_BUSY = true → s.flag evtB F.EVT_STAT_COMMIT_PEND = true →
      s.scan.given = false → s.scan.cmds = [] → s.scan.heat = false → (∃ t : State, exec .crcPassEnd s = .next t ∧ t.rd evtB F.EVT_CRC_REF_REF = s.combined % 2 ^ 32 ∧ t.rd evtB F.EVT_CRC_LAST_CRC = s.combined % 2 ^ 32
        ∧ t.flag evtB F.EVT_STAT_PASS_BUSY = false ∧ t.flag evtB F.EVT_STAT_COMMIT_PEND = false
        ∧ t.flag evtB F.EVT_STAT_REF_VALID = true ∧ t.rd evtB F.EVT_STAT_MM_CNT = 0
        ∧ t.flag evtB F.EVT_STAT_QUAR = false))
    ∧ ((∀ g, (s.rg g).wake ≠ 8) → s.rom.regions.length ≤ 16 → s.flag evtB F.EVT_STAT_PASS_BUSY = true → s.crcHeld = false →
      s.rd evtB F.EVT_STAT_MM_CNT = 1 → s.rd evtB F.EVT_CTL_POLICY = 0 → (∃ t : State, exec .crcPassEnd s = .next t ∧ (s.combined = s.rd evtB F.EVT_CRC_REF_REF ∧ (∀ g ∈ shares s.rom, s.shareOut g = false →
            s.share g % 2 ^ 32 = s.rd evtB (F.EVT_SHARE_REF_V.ix g)) →
          t.rd evtB F.EVT_STAT_MM_CNT = 0 ∧ t.rd evtB F.EVT_MM_MASK_MASK = 0 ∧ t.evd.crcMm = s.evd.crcMm)
        ∧ (s.combined ≠ s.rd evtB F.EVT_CRC_REF_REF ∨ (∃ g ∈ shares s.rom, s.shareOut g = false
            ∧ s.share g % 2 ^ 32 ≠ s.rd evtB (F.EVT_SHARE_REF_V.ix g)) →
          t.rd evtB F.EVT_STAT_MM_CNT = 2 ∧ t.flag evtB F.EVT_STAT_MISMATCH = true ∧ t.evd.crcMm = s.evd.crcMm + 1)))
    ∧ (∀ x c, s.Issued x 0x04 [] c → exec (.cfgRecompute x) s = .next { s.begin x with
        asks := s.asks ++ [{ kind := 4, who := x }] })
    ∧ (s.heatCrc = true → s.slotsIn [6, 7] = [] → s.scan.heat = false → { kind := 4, who := 0 } ∉ s.asks →
      { kind := 4, who := 0 } ∉ s.leaveQ → { kind := 4, who := 0 } ∉ s.leaves →
      exec .heatCrcRecommit s = .next { s with asks := s.asks ++ [{ kind := 4, who := 0 }] })

/-- The plane commands, and what happens to planes.

The plane commands (R408, R409, R412, R413, R414, R417): PLANE_DETACH drains or detaches at once, and never the last plane;
PLANE_TEST asks for leave; PLANE_ATTACH fixes T_j after a passed test; PLANE_RESET resets a detached or faulted plane; PLANE_STATUS
answers. A plane in another state is BUSY, a plane without a passed test BAD_PARAM, and without valid time PLANE_ATTACH is TIME_INVALID.

What happens to planes (R409, R410, R411, R413, R414): an empty plane, or one past DRAIN_TMO, is DETACHED; a fault of an attached
plane beside an attached one makes it FAULTED; a test sets TEST_PASS where no probe has failed and none has arrived at a wrong place; at T_j a plane is attached, and
NIs follow. A plane in another state, and an NI that does not follow one, are left as they are. -/
def Obligations.PlanesFollowTheirCommands : Prop :=
  (∀ (s : State) (x p : Nat) (c : Cmd), p = c.p 0 1 →
      (s.Issued x 0x60 [(0, 1), (1, 1)] c → s.plnState (1 - p) ≠ 0 → exec (.planeDetach x) s = .next ((s.begin x).reply x 0x0015 []))
      ∧ (s.Issued x 0x60 [(0, 1), (1, 1)] c → s.plnState (1 - p) = 0 → s.plnState p = 0 →
        (c.p 1 1 = 1 → (∃ v : State, exec (.planeDetach x) s = .next (v.reply x 0 []) ∧ v.plnState p = 2 ∧ v.plnState (1 - p) = 0))
        ∧ (c.p 1 1 = 0 → (∃ t : State, exec (.planeDetach x) s = .next t ∧ t.plnState p = 1 ∧ (t.pln p).detach = some x
            ∧ t.plnState (1 - p) = 0 ∧ (t.cmd x).isSome = true)))
      ∧ (s.Issued x 0x60 [(0, 1), (1, 1)] c → s.plnState (1 - p) = 0 → s.plnState p ≠ 0 →
        exec (.planeDetach x) s = .next ((s.begin x).reply x 6 []))
      ∧ (s.plnState p ≠ 2 → (s.Issued x 0x61 [(0, 1)] c → exec (.planeTest x) s = .next ((s.begin x).reply x 6 []))
        ∧ (s.Issued x 0x62 [(0, 1)] c → exec (.planeAttach x) s = .next ((s.begin x).reply x 6 []))
        ∧ (s.Issued x 0x63 [(0, 1)] c → s.plnState p ≠ 5 → exec (.planeReset x) s = .next ((s.begin x).reply x 6 [])))
      ∧ (s.Issued x 0x62 [(0, 1)] c → s.plnState p = 2 → s.flag strB (plnPass p) = false →
        exec (.planeAttach x) s = .next ((s.begin x).reply x 3 []))
      ∧ (s.Issued x 0x62 [(0, 1)] c → s.plnState p = 2 → s.flag strB (plnPass p) = true → s.rootOk = false →
        exec (.planeAttach x) s = .next ((s.begin x).reply x 10 []))
      ∧ (s.Issued x 0x61 [(0, 1)] c → s.plnState p = 2 → (s.plnState (1 - p) = 3 ∨ (s.pln p).test ≠ none ∨ (s.pln (1 - p)).test ≠ none) →
        exec (.planeTest x) s = .next ((s.begin x).reply x 6 []))
      ∧ (s.Issued x 0x61 [(0, 1)] c → s.plnState p = 2 → s.plnState (1 - p) ≠ 3 → (s.pln p).test = none →
        (s.pln (1 - p)).test = none → (∃ t : State, exec (.planeTest x) s = .next t ∧ (t.pln p).test = some x
          ∧ t.asks = s.asks ++ [{ kind := 2, who := p }] ∧ t.csr = s.csr))
      ∧ (s.Issued x 0x62 [(0, 1)] c → s.plnState p = 2 → s.flag strB (plnPass p) = true → s.rootOk = true →
        (∃ t : State, exec (.planeAttach x) s = .next t ∧ t.plnState p = 4 ∧ (t.pln p).attach = some x
          ∧ t.word64 (strB + 0x808) = (s.rootStamp.toNat + 256 * max (s.rd strB F.STR_PLN_CFG_JOIN_LEAD) 100) % 2 ^ 64))
      ∧ (s.Issued x 0x63 [(0, 1)] c → (s.plnState p = 2 ∨ s.plnState p = 5) →
        exec (.planeReset x) s = .next (((((s.begin x).planeReset p).plnGo p 2).updPln p (fun v => { v with reset := some x })).plnUp p))
      ∧ (s.Issued x 0x64 [] c → exec (.planeStatus x) s = .next ((s.begin x).reply x 0 (s.getBytes (strB + 0x804) 3))))
  ∧ (∀ (s : State) (p : Nat),
      ((2 ≤ p ∨ s.plnState p ≠ 1 ∨ s.plnEmpty p = false) → exec (.planeDrainCheck p) s = .next s)
      ∧ ((2 ≤ p ∨ s.plnState p ≠ 1) → exec (.planeDrainTmo p) s = .next s)
      ∧ ((2 ≤ p ∨ s.plnState p ≠ 3) → exec (.planeTestEnd p) s = .next s)
      ∧ (s.planeFaults = [] → exec .planeFailover s = .next s)
      ∧ (∀ cause r, s.planeFaults = (p, cause) :: r → (s.flag strB F.STR_PLN_CFG_AUTO_FAIL = false ∨ s.plnState p ≠ 0
          ∨ s.plnState (1 - p) ≠ 0) → exec .planeFailover s = .next { s with planeFaults := r })
      ∧ (∀ t, (2 ≤ p ∨ s.plnState p ≠ 4 ∨ stampDiff t (BitVec.ofNat 64 (s.word64 (strB + 0x808))) < 0) →
        exec (.planeJoin p none t) s = .next s)
      ∧ (∀ n t, (2 ≤ p ∨ s.hasNi n = false ∨ bitAt (s.ni n).join p = false
          ∨ stampDiff t (BitVec.ofNat 64 (s.word64 (strB + 0x808))) < 0) → exec (.planeJoin p (some n) t) s = .next s)
      ∧ (∀ n t, s.hears n = false → exec (.planeStateReceive n t) s = .next s)
      ∧ (p < 2 →
      (s.plnState p = 1 → s.plnEmpty p = true → exec (.planeDrainCheck p) s = .next (s.plnDetached p))
      ∧ (s.plnState p = 1 → exec (.planeDrainTmo p) s = .next (((s.planeReset p).plnCause p 5).plnDetached p))
      ∧ (∀ cause r, s.planeFaults = (p, cause) :: r → s.flag strB F.STR_PLN_CFG_AUTO_FAIL = true → s.plnState p = 0 →
        s.plnState (1 - p) = 0 → (∃ t : State, exec .planeFailover s = .next t ∧ t.plnState p = 5 ∧ t.plnState (1 - p) = 0 ∧ t.planeFaults = r
          ∧ t.rd strB F.STR_PLN_FAIL_CNT_COUNT = min (s.rd strB F.STR_PLN_FAIL_CNT_COUNT + 1) (2 ^ F.STR_PLN_FAIL_CNT_COUNT.w - 1)))
      ∧ (∀ x, s.plnState p = 3 → (s.pln p).test = some x → (∀ q ∈ s.probeList p, q.2.2 = true) → bitAt s.planeHit p = false →
        (∃ v : State, exec (.planeTestEnd p) s = .next (v.reply x 0 (leBytes 4 (s.probeList p).length ++ leBytes 4 0 ++ leBytes 4 (s.word (strB + 0x814)).toNat)) ∧ v.plnState p = 2 ∧ v.flag strB (plnPass p) = true ∧ (v.pln p).test = none))
      ∧ (∀ x, s.plnState p = 3 → (s.pln p).test = some x → (∃ q ∈ s.probeList p, q.2.2 = false) ∨ bitAt s.planeHit p = true →
        ∃ data, (∃ v : State, exec (.planeTestEnd p) s = .next (v.reply x 0 data) ∧ v.plnState p = 2 ∧ v.flag strB (plnPass p) = false
          ∧ (v.pln p).test = none))
      ∧ (∀ x t, s.plnState p = 4 → (s.pln p).attach = some x → 0 ≤ stampDiff t (BitVec.ofNat 64 (s.word64 (strB + 0x808))) →
        (∃ v : State, exec (.planeJoin p none t) s = .next (v.reply x 0 (leBytes 8 (s.word64 (strB + 0x808)))) ∧ v.plnState p = 0))
      ∧ (∀ n t, s.hasNi n = true → bitAt (s.ni n).join p = true → 0 ≤ stampDiff t (BitVec.ofNat 64 (s.word64 (strB + 0x808))) →
        (∃ v : State, exec (.planeJoin p (some n) t) s = .next v ∧ v.flag (niB n) (if p = 0 then F.NI_PLN_STAT_ATT_A else F.NI_PLN_STAT_ATT_B) = true
          ∧ (v.ni n).join = (s.ni n).join - 2 ^ p))
      ∧ (∀ n t, s.hears n = true → (∃ v : State, exec (.planeStateReceive n t) s = .next v ∧ ∀ on, on = (s.plnState p == 0 || (s.plnState p == 4 && decide (0 ≤ stampDiff t (BitVec.ofNat 64 (s.word64 (strB + 0x808)))))) →
            v.flag (niB n) (if p = 0 then F.NI_PLN_STAT_ATT_A else F.NI_PLN_STAT_ATT_B) = on))))

/-- The slice commands, and the course of a slice reset.

The slice commands (R422, R424, R435, R439, R442): map and share registers, SLICE_RESET to CLOSING or SQUASHING with one reset at
a time, its broadcasts yet to reach every NI, SLICE_OPEN 10 µs after CLOSED, SLICE_STATUS, and SLICE_MIG_SYNC; a slice, NI or
identifier that the table does not allow is BAD_PARAM, and what waits for another reset is BUSY.

A slice reset (R435 to R439): CLOSE and SQUASH reach each NI once; with nothing of the slice left its state is CLOSED and the
command answered; DRAIN_TMO squashes, QUIESCE_TMO fails with the last count; MIG_SYNC answers at 0 or at its limit. A broadcast that an NI has had, and a slice in another state, change nothing. -/
def Obligations.SlicesFollowTheirCommands : Prop :=
  (∀ (s : State) (x sl : Nat) (c : Cmd),
      (s.Issued x 0x40 [(0, 8), (16, 10), (32, 20), (56, 7)] c → s.hasNi (c.p 0 8) = true →
        c.p 16 10 < (niRec s.rom (c.p 0 8)).pidMap → c.p 56 6 ≠ 63 →
        exec (.sliceMap x) s = .next (((s.begin x).updNi (c.p 0 8) (fun y => { y with
          pid := mset (fun _ => 0) y.pid (c.p 16 10) (c.p 32 20 + 2 ^ 20 * c.p 56 6 + 2 ^ 31 * c.p 62 1) })).reply x 0 []))
      ∧ (s.Issued x 0x40 [(0, 8), (16, 10), (32, 20), (56, 7)] c →
        (s.hasNi (c.p 0 8) = false ∨ (niRec s.rom (c.p 0 8)).pidMap ≤ c.p 16 10 ∨ c.p 56 6 = 63) →
        exec (.sliceMap x) s = .next ((s.begin x).reply x 3 []))
      ∧ (s.Issued x 0x41 [(0, 14), (32, 10), (48, 11), (64, 10), (80, 11)] c → (s.hasNi (c.p 0 8) = false ∨ c.p 8 6 = 63) →
        exec (.sliceShare x) s = .next ((s.begin x).reply x 3 []))
      ∧ (c.p 0 6 = 63 → (s.Issued x 0x42 [(0, 6), (8, 1)] c → exec (.sliceReset x) s = .next ((s.begin x).reply x 3 []))
        ∧ (s.Issued x 0x43 [(0, 6)] c → exec (.sliceOpen x) s = .next ((s.begin x).reply x 3 [])))
      ∧ (s.Issued x 0x43 [(0, 6)] c → c.p 0 6 ≠ 63 → (s.slcSt (c.p 0 6) ≠ 3 ∨ s.clock < (s.slc (c.p 0 6)).since + 10 * usTc) →
        exec (.sliceOpen x) s = .next ((s.begin x).reply x 6 []))
      ∧ (s.Issued x 0x45 [(0, 6), (12, 20), (32, 32)] c → (s.slcBusy.isSome = true ∨ s.migSync.isSome = true) →
        exec (.sliceMigSync x) s = .next ((s.begin x).reply x 6 []))
      ∧ (s.Issued x 0x41 [(0, 14), (32, 10), (48, 11), (64, 10), (80, 11)] c → s.hasNi (c.p 0 8) = true → sl = c.p 8 6 → sl ≠ 63 →
        (∃ v : State, exec (.sliceShare x) s = .next (v.reply x 0 []) ∧ v.rd (niB (c.p 0 8)) (F.NI_SLC_SHARE0_TAGS.ix sl) = c.p 32 10
          ∧ v.rd (niB (c.p 0 8)) (F.NI_SLC_SHARE0_BUF.ix sl) = c.p 48 11 ∧ v.rd (niB (c.p 0 8)) (F.NI_SLC_SHARE1_QBASE.ix sl) = c.p 64 10
          ∧ v.rd (niB (c.p 0 8)) (F.NI_SLC_SHARE1_QCOUNT.ix sl) = c.p 80 11))
      ∧ (s.Issued x 0x42 [(0, 6), (8, 1)] c → sl = c.p 0 6 → sl ≠ 63 → s.slcBusy = none → (∃ t : State, exec (.sliceReset x) s = .next t ∧ t.slcSt sl = (if s.slcSt sl = 0 ∧ c.p 8 1 = 0 then 1 else 2) ∧ (t.slc sl).cmd = some x
          ∧ t.rd slcB F.SLC_RST_CNT_COUNT = min (s.rd slcB F.SLC_RST_CNT_COUNT + 1) (2 ^ F.SLC_RST_CNT_COUNT.w - 1)
          ∧ (∀ n, n < s.rom.nis.length → bitAt (t.ni n).closed sl = false ∧ bitAt (t.ni n).squash sl = false)
          ∧ (t.cmd x).isSome = true))
      ∧ (s.Issued x 0x42 [(0, 6), (8, 1)] c → c.p 0 6 ≠ 63 → s.slcBusy.isSome = true →
        exec (.sliceReset x) s = .next ((s.begin x).reply x 0x0006 []))
      ∧ (s.Issued x 0x43 [(0, 6)] c → sl = c.p 0 6 → sl ≠ 63 → s.slcSt sl = 3 → (s.slc sl).since + 10 * usTc ≤ s.clock →
        (∃ v : State, exec (.sliceOpen x) s = .next (v.reply x 0 []) ∧ v.slcSt sl = 0
          ∧ ∀ n, n < s.rom.nis.length → bitAt (v.ni n).closed sl = false ∧ bitAt (v.ni n).squash sl = false))
      ∧ (s.Issued x 0x44 [(0, 6)] c → exec (.sliceStatus x) s = .next ((s.begin x).reply x 0
          (leBytes 4 (s.word (slcB + 0x100 + 4 * c.p 0 6)).toNat ++ leBytes 4 (s.word (slcB + 0xC)).toNat)))
      ∧ (s.Issued x 0x45 [(0, 6), (12, 20), (32, 32)] c → s.slcBusy = none → s.migSync = none →
        exec (.sliceMigSync x) s = .next { s.begin x with
          migSync := some { cmd := x, slice := c.p 0 6, node := c.p 12 20, limit := c.p 32 32, t0 := s.clock } }))
  ∧ (∀ (s : State) (n sl : Nat),
      ((s.hears n = false ∨ 63 ≤ sl ∨ s.slcSt sl = 0 ∨ bitAt (s.ni n).closed sl = true) → exec (.sliceCloseReceive n sl) s = .next s)
      ∧ ((s.hears n = false ∨ 63 ≤ sl ∨ s.slcSt sl = 0 ∨ s.slcSt sl = 1
          ∨ bitAt (s.ni n).squash sl = true ∧ bitAt (s.ni n).closed sl = true) → exec (.sliceSquashReceive n sl) s = .next s)
      ∧ ((63 ≤ sl ∨ s.slcSt sl ≠ 1) → exec (.sliceDrainTmo sl) s = .next s)
      ∧ ((63 ≤ sl ∨ s.slcSt sl ≠ 2) → exec (.sliceQuiesceTmo sl) s = .next s)
      ∧ ((63 ≤ sl ∨ s.slcSt sl ≠ 1 ∧ s.slcSt sl ≠ 2 ∨ s.sliceTold sl = false) → exec (.sliceCollect sl) s = .next s)
      ∧ (s.migSync = none → exec .migSyncCollect s = .next s)
      ∧ (sl < 63 → (s.slcSt sl = 1 ∨ s.slcSt sl = 2) → s.sliceTold sl = true →
        ((s.sliceSum sl).1 ≠ 0 ∨ ∃ k ∈ s.slotsIn [6, 7], s.rd hcuB (F.HCU_SLOT0_SLICE.ix k) = sl) →
        exec (.sliceCollect sl) s = .next ((s.wr slcB (F.SLC_ST_LAST.ix sl) (min (s.sliceSum sl).1 0xFFFF)).updSlc sl (fun v => { v with
          ni := (s.sliceSum sl).2 })))
      ∧ (sl < 63 →
      (s.hears n = true → s.slcSt sl ≠ 0 → bitAt (s.ni n).closed sl = false →
        (∃ t : State, exec (.sliceCloseReceive n sl) s = .next t ∧ bitAt (t.ni n).closed sl = true ∧ ∀ b ∈ (t.ni n).rsvs, b.slice ≠ sl))
      ∧ (s.hears n = true → s.slcSt sl ≠ 0 → s.slcSt sl ≠ 1 → bitAt (s.ni n).squash sl = false →
        exec (.sliceSquashReceive n sl) s = .next (s.sliceSquash n sl)
        ∧ (∃ t : State, exec (.sliceSquashReceive n sl) s = .next t ∧ bitAt (t.ni n).squash sl = true ∧ bitAt (t.ni n).closed sl = true))
      ∧ (s.slcSt sl = 1 → exec (.sliceDrainTmo sl) s = .next (s.wr slcB (F.SLC_ST_STATE.ix sl) 2))
      ∧ (∀ x, s.slcSt sl = 1 ∨ s.slcSt sl = 2 → s.sliceTold sl = true → (s.sliceSum sl).1 = 0 →
        (∀ k ∈ s.slotsIn [6, 7], s.rd hcuB (F.HCU_SLOT0_SLICE.ix k) ≠ sl) → (s.slc sl).cmd = some x →
        (∃ v : State, exec (.sliceCollect sl) s = .next (v.reply x 0 []) ∧ v.slcSt sl = 3 ∧ (v.slc sl).since = s.clock
          ∧ v.flag slcB F.SLC_STAT_DONE = true ∧ v.rd slcB (F.SLC_ST_LAST.ix sl) = 0))
      ∧ (∀ x, s.slcSt sl = 2 → (s.slc sl).cmd = some x → (∃ v : State, exec (.sliceQuiesceTmo sl) s = .next (v.reply x 0x000C []) ∧ v.slcSt sl = 4
          ∧ v.flag slcB F.SLC_STAT_FAIL = true ∧ v.rd slcB F.SLC_RST_LOG_NI = (s.slc sl).ni % 2 ^ F.SLC_RST_LOG_NI.w
          ∧ v.rd slcB F.SLC_RST_LOG_COUNT = s.rd slcB (F.SLC_ST_LAST.ix sl)))
      ∧ (∀ m k, s.migSync = some m → k = (List.range s.rom.nis.length).foldl (fun a n => a + s.tagsToward n m.slice m.node) 0 →
        exec .migSyncCollect s = .next (if k = 0 then { s with migSync := none }.reply m.cmd 0 []
          else if m.t0 + m.limit * usTc ≤ s.clock then { s with migSync := none }.reply m.cmd 0x000C (leBytes 4 k)
          else { s with migSync := some { m with last := k } }))))

/-- Gates (R275, R276, R278, R279, R281): GATE_STAT shows the walk's entry and gates at the local Fabric Time; a pending list takes
over the operating bank at its start; without valid time, or with EN 0, every gate is open, and so it is at an entry with an
uncorrectable error (R593). Without a pending list that is due nothing starts. -/
def Obligations.GatesFollowTheirLists : Prop :=
  ∀ (s : State) (n : Nat) (t : Stamp),
    (s.hasNi n = false → (∀ mem, exec (.gateUpdate n ⟨t, mem⟩) s = .next s) ∧ exec (.gateListStart n t) s = .next s)
    ∧ (((s.ni n).gatePend = none ∨ s.niTimeOk n = false ∨ ∃ g, (s.ni n).gatePend = some g ∧ s.wholeNs t < g) →
      exec (.gateListStart n t) s = .next s)
    ∧ (s.hasNi n = true → (∀ (mem : Bool) (u : State), u = (if mem then s.memUncorr n else s).updNi n (fun x => { x with gateBad := mem }) →
      (∃ v : State, exec (.gateUpdate n ⟨t, mem⟩) s = .next v ∧ v.rd (niB n) F.NI_GATE_STAT_GATES = (u.gatesAt n (s.wholeNs t)).2 % 16
        ∧ v.rd (niB n) F.NI_GATE_STAT_ENTRY = (u.gatesAt n (s.wholeNs t)).1 % 2 ^ F.NI_GATE_STAT_ENTRY.w
        ∧ (mem = true → v.rd (niB n) F.NI_GATE_STAT_GATES = 0xF)
        ∧ onlyWords [niB n + F.NI_GATE_STAT_GATES.off] u v))
    ∧ ((s.flag (niB n) F.NI_GATE_CTL_EN = false ∨ s.niTimeOk n = false) → s.gatesAt n (s.wholeNs t) = (0, 0xF)
      ∧ ∀ cls, cls < 4 → s.gateOpen n cls (s.wholeNs t) = true)
    ∧ (∀ g, (s.ni n).gatePend = some g → s.niTimeOk n = true → g ≤ s.wholeNs t → (∃ v : State, exec (.gateListStart n t) s = .next v ∧ (v.ni n).gatePend = none ∧ (v.ni n).gateLive = true ∧ v.flag (niB n) F.NI_GATE_STAT_PENDING = false
        ∧ v.word64 (niB n + 0x720) = g % 2 ^ 64 ∧ v.rd (niB n) F.NI_GATE_OPER_LEN_LEN = s.admLen n
        ∧ v.rd (niB n) F.NI_GATE_OPER_CYCLE_CYCLE = s.admCycle n
        ∧ ∀ i, i < 512 → v.word (niB n + 0x3800 + 4 * i) = s.word (niB n + 0x3000 + 4 * i))))

/-- A gate list's walk (R276): with every interval but the last below the position in turn, the walk names the entry whose span
holds the position, and its gates. -/
def Obligations.GateWalkFindsTheEntry : Prop :=
  ∀ (es : List GateEntry) (x k : Nat), k < es.length →
    ((es.take k).map (fun e => e.2.2)).sum ≤ x → (k + 1 < es.length → x < ((es.take (k + 1)).map (fun e => e.2.2)).sum) →
    gateWalk es x 0 = (k, (es.getD k (0, false, 0)).1)

/-- What time drives in a scheduler (R246, R268, R271 to R273, R284): a queue's samples, one shaper refill, an allowance window, a window
of the late histogram. An NI or queue that is not there, and a spare timer that is no histogram's, change nothing. -/
def Obligations.SchedulerTimersAct : Prop :=
  ∀ (s : State) (n : Nat),
    (s.hasNi n = false → exec (.shaperRefill n) s = .next s ∧ exec (.allowanceWindow n) s = .next s)
    ∧ (∀ q, (s.hasNi n = false ∨ schedSize s.rom n ≤ q) → exec (.queueSample n q) s = .next s)
    ∧ ((s.hasNi n = false ∨ (s.ni n).timer ≠ 2) → exec (.histWindowEnd n) s = .next s)
    ∧ (s.hasNi n = true → (∀ q, q < schedSize s.rom n → (∃ t : State, exec (.queueSample n q) s = .next t ∧ ((t.ni n).q q).sdLast = ((s.ni n).q q).occ
        ∧ ((t.ni n).q q).sdMax = max ((s.ni n).q q).sdMax ((s.ni n).q q).occ ∧ ((t.ni n).q q).pkts = ((s.ni n).q q).pkts
        ∧ (∀ j, j ≠ q → (t.ni n).q j = (s.ni n).q j) ∧ onlyNi n s t))
    ∧ (∃ t : State, exec (.shaperRefill n) s = .next t ∧ onlyNi n s t ∧ (t.ni n).qs = (s.ni n).qs ∧ ∀ k, k < 16 →
        ((t.ni n).shaper k).rate = s.rd (niB n) (shpRate k) ∧ ((t.ni n).shaper k).burst = s.rd (niB n) (shpBurst k)
        ∧ ((t.ni n).shaper k).credit = (if (s.ni n).shpBusy k = true ∨ ((s.ni n).shaper k).credit < 0 then
            min (((s.ni n).shaper k).credit + s.rd (niB n) (shpRate k)) (8 * (s.rd (niB n) (shpBurst k) : Int)) else 0))
    ∧ (∃ t : State, exec (.allowanceWindow n) s = .next t ∧ ∀ g, g = (niRec s.rom n).region →
        (t.ni n).rem2 = s.rd pcrB (F.PCR_ALLOW_A2.ix g) + min (s.ni n).rem2 0
        ∧ (t.ni n).rem3 = s.rd pcrB (F.PCR_ALLOW_A3.ix g) + min (s.ni n).rem3 0 ∧ (t.ni n).thrHeld = false
        ∧ t.rd (niB n) F.NI_THR_STAT_A2 = s.rd pcrB (F.PCR_ALLOW_A2.ix g) % 2 ^ F.NI_THR_STAT_A2.w
        ∧ t.rd (niB n) F.NI_THR_HOLD_CNT_COUNT = (if (s.ni n).thrHeld then
            min (s.rd (niB n) F.NI_THR_HOLD_CNT_COUNT + 1) (2 ^ F.NI_THR_HOLD_CNT_COUNT.w - 1)
            else s.rd (niB n) F.NI_THR_HOLD_CNT_COUNT))
    ∧ ((s.ni n).timer = 2 → (∃ t : State, exec (.histWindowEnd n) s = .next t ∧ (t.ni n).hist = List.replicate 8 0
        ∧ (∀ m, m < 4 → t.rd (niB n) (F.NI_LATE_HIST_BIN_LO.ix m) = (s.ni n).hist.getD (2 * m) 0 % 2 ^ F.NI_LATE_HIST_BIN_LO.w)
        ∧ (t.ni n).timer = (if (s.ni n).histRel then 0 else 2))))

/-- Instance resets, releases, recovery and start-up.

Instance resets (R19, R543, R546, R636): POR_N returns everything to its state after reset; HRST_N ends every command and claim
and returns every register field outside the Pacer block to its reset value but the sticky ones, with its cause recorded. The Pacer keeps its
regions' states, every region is under the reset, and what held leave returns it.
NI.RSQ_SKIP_CNT, which counts what the reset discards (log 114, the model's choice), is left out.

The release of resets and what follows (R509, R547, R548, R550, R553, R554): a released region comes out of reset and calibrates, a
released NI's ports are live again and its open region closes to recover it, an input beside a unit under reset, or beside a half that has
isolated, completes its packets; the recovery of a region restores what the reset has cleared, and opens it once its share matches. A region
that is not in recovery, and what is not under a reset, is left as it is.

Start-up (R555, R616, R617, R640): the sequence begins at step 0 after POR_N and 1 after HRST_N; the fuses are read in step 1, or taken as
failed; the regions come up in steps 2 and 4, time is calibrated in step 5, INST.LOCK is set before step 7, whose links train; step 8, the Starter core's own, sets READY, locks the tables and starts the first commit; a topology that does not match ends it. Each step
waits for its condition, and once READY, stopped or under a reset nothing changes. -/
def Obligations.ResetsReleaseAndStartup : Prop :=
  (∀ s : State,
      exec .por s = .next { State.reset with rom := s.rom, straps := s.straps, pending := s.pending, free := s.free }
      ∧ (∃ t : State, exec .hrst s = .next t ∧ t.rd glbB F.GLB_RST_STAT_CAUSE = 1 ∧ t.cmdQ = [] ∧ t.cmds = [] ∧ t.heats = [] ∧ t.leaves = s.leaves ∧ t.gives = s.leaves
          ∧ t.asks = [] ∧ t.leaveQ = [] ∧ t.pacer.degraded = true ∧ t.pacer.rst = 2
          ∧ (∀ g, g < s.rom.regions.length → (t.rg g).held = true ∧ t.rgState g = s.rgState g)
          ∧ t.ports = [] ∧ t.starter.sram = [] ∧ t.rom = s.rom ∧ t.straps = s.straps ∧ t.pending = s.pending
          ∧ (∀ n, (t.ni n).tags = [] ∧ (t.ni n).qs = [] ∧ (t.ni n).up = false)
          ∧ ∀ o, notPcr o = true → o ≠ glbB + F.GLB_RST_STAT_CAUSE.off → (∀ n, o ≠ niB n + F.NI_RSQ_SKIP_CNT_COUNT.off) →
              t.word o = resetWord s.rom s.straps o ∨ ∃ w, t.word o = keptWord s.rom s.straps sticky o w))
  ∧ (∀ (s : State) (g n : Nat),
      ((s.hasRegion g = false ∨ (s.rg g).held = false ∨ (s.rg g).wake ≠ 4) → exec (.resetRelease false g) s = .next s)
      ∧ ((s.hasNi n = false ∨ (s.port (.ni 0 n)).dead = false ∨ (s.rg (niRec s.rom n).region).held = true) →
        exec (.resetRelease true n) s = .next s)
      ∧ (s.hasRegion g = true → (s.rg g).held = true → (s.rg g).wake = 4 →
        (∃ t : State, exec (.resetRelease false g) s = .next t ∧ (t.rg g).held = false ∧ ((t.rg g).wake = 5 ∨ (t.rg g).wake = 6)))
      ∧ (s.hasNi n = true → (s.port (.ni 0 n)).dead = true → (s.rg (niRec s.rom n).region).held = false →
        (∃ t : State, exec (.resetRelease true n) s = .next t ∧ (∀ p, p < 2 → (t.port (.ni p n)).dead = false
          ∧ (t.port (.rtr p (niRec s.rom n).rtr (niRec s.rom n).port)).dead = false)
          ∧ (g = (niRec s.rom n).region → g < 16 → s.rgState g = 0 → (s.rg g).step = none → (s.rg g).goal = none →
            t.rgState g = 6 ∧ ((t.rg g).wake = 5 ∨ (t.rg g).wake = 6) ∧ bitAt (t.rd glbB F.GLB_RECOV_RECOV) g = true)))
      ∧ (∀ o f : Port, s.hasPort o = true → farEnd s.rom o = some f → ((s.port f).dead = true ∨ (s.port o).stIso = true) →
        (s.port o).dead = false → exec (.farEndReset o) s = .next (s.completeIn o))
      ∧ (∀ o : Port, (s.hasPort o = false ∨ farEnd s.rom o = none ∨ (s.port o).dead = true
          ∨ ∃ f, farEnd s.rom o = some f ∧ (s.port f).dead = false ∧ (s.port o).stIso = false) → exec (.farEndReset o) s = .next s)
      ∧ ((s.hasRegion g = false ∨ (s.rg g).held = true ∨ (s.rg g).wake ≠ 6 ∧ (s.rg g).wake ≠ 8) →
        exec (.regionRecovery g) s = .next s)
      ∧ (∀ v, s.hasRegion g = true → (s.rg g).held = false → ((s.rg g).wake = 6 ∨ (s.rg g).wake = 8) → v = s.restoreRegion g →
        (v.shareOk g = false → exec (.regionRecovery g) s = .next v)
        ∧ ∀ u y, (v.rg g).held = false → (v.rg g).wake = 8 → v.shareOk g = true →
          u = ((((nisOf v.rom g).filter (fun n => !(v.ni n).up && !(v.port (.ni 0 n)).dead)).foldl (fun a n => a.niBack n) v).updRg g
            (fun r => { r with wake := 0 })).rgGo g 0 →
          y = ((u.wr glbB F.GLB_RECOV_RECOV (u.rd glbB F.GLB_RECOV_RECOV &&& (2 ^ 16 - 1 - 2 ^ g))).unIsolate g).glEvent 8 2 →
          exec (.regionRecovery g) s = .next (((((if g = y.rom.homeRegion then { y with starter := { y.starter with msp := false } }
            else y).updPacer (fun p => { p with faults := p.faults &&& (2 ^ 16 - 1 - 2 ^ g) })).orderSync).refreshTime).pwrCheck)))
  ∧ (∀ s : State,
      (s.pacer.rst ≠ 0 → (∃ t : State, exec .porHrstDeassert s = .next t ∧ t.pacer.rst = 0 ∧ t.start.t0 = s.clock ∧ t.starter.wdog = s.clock
          ∧ t.rd glbB F.GLB_START_STAT_STEP = (if s.pacer.rst = 1 then 0 else 1) ∧ t.nis = s.nis))
      ∧ (s.pacer.rst = 0 → exec .porHrstDeassert s = .next s)
      ∧ ((s.pacer.rst ≠ 0 ∨ s.rd glbB F.GLB_START_STAT_STEP ≠ 1 ∨ s.start.fuse = true) →
        exec .fuseTmo s = .next s ∧ ∀ dis key, exec (.fuseRead dis key) s = .next s)
      ∧ ((s.pacer.rst ≠ 0 ∨ s.flag glbB F.GLB_START_STAT_FAIL = true ∨ s.ready = true) → exec .startupStepDone s = .next s)
      ∧ ((s.rd glbB F.GLB_START_STAT_STEP = 1 ∧ s.start.fuse = false
          ∨ (s.rd glbB F.GLB_START_STAT_STEP = 3 ∨ s.rd glbB F.GLB_START_STAT_STEP = 8) ∧ s.rd strB F.STR_BOOT_STATE ≠ 3
          ∨ s.rd glbB F.GLB_START_STAT_STEP = 5 ∧ (∀ m, s.start.marks = some m → s.time.marks < m + 32 ∨ s.calBusy = true)
          ∨ s.rd glbB F.GLB_START_STAT_STEP = 7 ∧ (List.range s.rom.spans.length).all (fun i => (List.range (s.nLinks i)).all (fun j =>
              s.start.spans.contains (4 * i + j))) = false) → exec .startupStepDone s = .next s)
      ∧ (s.pacer.rst = 0 → s.rd glbB F.GLB_START_STAT_STEP = 1 → s.start.fuse = false →
        (∀ (dis : Bool) (key : List Byte), key.length = 32 → (∃ t : State, exec (.fuseRead dis key) s = .next t ∧ t.evKey = key ∧ t.flag dbgB F.DBG_STAT_FUSE_DIS = dis
          ∧ t.flag dbgB F.DBG_STAT_FUSE_ERR = false ∧ t.start.fuse = true))
        ∧ (∃ t : State, exec .fuseTmo s = .next t ∧ t.evKey = List.replicate 32 0 ∧ t.flag dbgB F.DBG_STAT_FUSE_DIS = true
          ∧ t.flag dbgB F.DBG_STAT_FUSE_ERR = true ∧ t.start.fuse = true))
      ∧ (s.pacer.rst = 0 → s.flag glbB F.GLB_START_STAT_FAIL = false → s.ready = false →
        (∀ k, k < 2 → s.rd glbB F.GLB_START_STAT_STEP = k → (k = 1 → s.start.fuse = true) →
          (∃ t : State, exec .startupStepDone s = .next t ∧ t.rd glbB F.GLB_START_STAT_STEP = k + 1))
        ∧ (s.rd glbB F.GLB_START_STAT_STEP = 2 → s.rom.homeRegion < 16 → (∃ t : State, exec .startupStepDone s = .next t ∧ t.rd glbB F.GLB_START_STAT_STEP = 3 ∧ t.rgState s.rom.homeRegion = 0))
        ∧ (s.rd glbB F.GLB_START_STAT_STEP = 4 → (∃ t : State, exec .startupStepDone s = .next t ∧ t.rd glbB F.GLB_START_STAT_STEP = 5))
        ∧ (∀ m, s.rd glbB F.GLB_START_STAT_STEP = 5 → s.start.marks = some m → m + 32 ≤ s.time.marks → s.calBusy = false →
          exec .startupStepDone s = .next (s.stepTo 6))
        ∧ (s.rd glbB F.GLB_START_STAT_STEP = 7 → (List.range s.rom.spans.length).all (fun i => (List.range (s.nLinks i)).all (fun j =>
            s.start.spans.contains (4 * i + j))) = true → exec .startupStepDone s = .next (s.stepTo 8))
        ∧ (s.rd glbB F.GLB_START_STAT_STEP = 3 → s.rd strB F.STR_BOOT_STATE = 3 →
          exec .startupStepDone s = .next (s.stepTo 4))
        ∧ (∀ c n, s.rd glbB F.GLB_START_STAT_STEP = 6 → topoFault s.rom = some (c, n) → (∃ t : State, exec .startupStepDone s = .next t ∧ t.flag glbB F.GLB_START_STAT_FAIL = true ∧ t.ready = false ∧ t.rd glbB F.GLB_START_STAT_STEP = 6))
        ∧ (s.rd glbB F.GLB_START_STAT_STEP = 6 → topoFault s.rom = none → (∃ t : State, exec .startupStepDone s = .next t ∧ t.rd glbB F.GLB_START_STAT_STEP = 7 ∧ t.flag glbB F.GLB_INST_LOCK = true))
        ∧ (s.rd glbB F.GLB_START_STAT_STEP = 8 → s.rd strB F.STR_BOOT_STATE = 3 → (∃ t : State, exec .startupStepDone s = .next t ∧ t.ready = true
          ∧ t.rd glbB F.GLB_START_STAT_STEP = 9 ∧ t.flag timB F.TIM_CTL_ELOCK = true ∧ t.flag evtB F.EVT_STAT_COMMIT_PEND = true
          ∧ ∀ n, n < s.rom.nis.length → t.flag (niB n) F.NI_RTAB_CTRL_LOCK = true))))

/-- R546: the home region has no separate region reset. A write of 1 to its bit in GLB.RST_CTL.REGION is ignored: at most the lock of
the access changes. A droop reset or a clock fault of the home region escalates to an instance reset: the state is the one that
HRST_N leaves, but that GLB.RST_STAT.CAUSE records the escalation, 2 for a droop and 3 for a clock fault. -/
def Obligations.HomeRegionResetsWithTheInstance : Prop :=
  ∀ (s : State) (g : Nat), g = s.rom.homeRegion → s.hasRegion g = true →
    (∀ (m : Nat) (v : Word), s.Goes m { kind := .glb, base := 0, target := 0 } 0xC0 v.toNat → v.toNat = 2 ^ g →
      (∃ t : State, exec (.rstCtlRegion m v) s = .next t ∧ { t with csr := s.csr, cmx := s.cmx } = s ∧ ∀ o, t.word o = s.word o))
    ∧ (∀ (uv : Nat) (v : State), s.watched g = true → s.under g uv (s.droopCodes g).2 = true →
      v = ((s.wr pcrB (F.PCR_RG_STAT_DRST.ix g) 1).rgEvent g 1).count pcrB (F.PCR_DROOP_CNT_RST.ix g) 1 →
      ∃ a b, exec (.droopReset g uv) s = .next a ∧ exec .hrst v = .next b ∧ { a with csr := b.csr } = b
        ∧ (∀ o, o ≠ glbB + F.GLB_RST_STAT_CAUSE.off → a.word o = b.word o) ∧ a.rd glbB F.GLB_RST_STAT_CAUSE = 2)
    ∧ (∀ edges : Nat, edges < 4 → [0, 1, 7].contains (s.rgState g) = true → (s.rg g).held = false →
      (∀ d, (s.rg g).step = some d → d.ph = 2 → d.todo.head? ≠ some true) →
      ∃ a b, exec (.clockFault g edges) s = .next a ∧ exec .hrst s = .next b ∧ { a with csr := b.csr } = b
        ∧ (∀ o, o ≠ glbB + F.GLB_RST_STAT_CAUSE.off → a.word o = b.word o) ∧ a.rd glbB F.GLB_RST_STAT_CAUSE = 3)

/-- The Span commands, and training.

The Span commands (R561, R570, R573, R574, R586): SPAN_TRAIN records its width and asks for leave; SPAN_DOWN holds the link down,
ending a training that another command waits for; SPAN_SPLIT with every link down; SPAN_STATUS answers six words a link. A training that
already asks for leave is asked for once, and becomes full where either is. A unit, width or split that is not there answers BAD_PARAM, a
second UP link or a ninth DOWN link 0x44, a link in training or a link that is up where it may not be BUSY.

Training (R570 to R574): DETECT, LOCK and ALIGN follow each other; CONFIG with the far end's LINK frame reaches ACTIVE on the
lowest good group of the widest width that both ends allow, and fails where the far end is this instance, the allocation does not fit, or no
group does; a timeout tries again, and after ATTEMPTS falls to DOWN. A link that is absent, falling, or in another state stays as it is. -/
def Obligations.SpanLinksTrain : Prop :=
  (∀ (s : State) (x k j : Nat) (c : Cmd), k = c.p 0 2 → j = c.p 2 2 →
      (s.Issued x 0x70 [(0, 8)] c → s.hasLink k j = true → c.p 4 3 < 5 → widthOf (s.group k) (c.p 4 3) ≤ s.group k →
        s.allocOk k j = true → s.roles 1 ≤ 1 → s.roles 2 ≤ 8 → (s.lst k j = 0 ∨ s.lst k j = 5 ∨ s.lst k j = 7) →
        (s.lk (4 * k + j)).cmd = none → (s.lk (4 * k + j)).fall = none →
        (∃ t : State, exec (.spanTrain x) s = .next t ∧ t.lf k j F.SP_L_CFG_WIDTH_REQ = c.p 4 3 ∧ (t.lk (4 * k + j)).cmd = some x
          ∧ (t.lk (4 * k + j)).want = (if s.lst k j = 5 ∧ c.p 7 1 = 0 then (if (s.lk (4 * k + j)).want = 0 then 3 else (s.lk (4 * k + j)).want)
            else 1)
          ∧ t.asks = s.asks ++ (if (s.lk (4 * k + j)).want = 0 then [{ kind := 3, who := 4 * k + j }] else []) ∧ t.lst k j = s.lst k j))
      ∧ (s.Issued x 0x70 [(0, 8)] c →
        ((s.hasLink k j = false ∨ 5 ≤ c.p 4 3 ∨ s.group k < widthOf (s.group k) (c.p 4 3) ∨ s.allocOk k j = false) →
          exec (.spanTrain x) s = .next ((s.begin x).reply x 3 []))
        ∧ (s.hasLink k j = true → c.p 4 3 < 5 → widthOf (s.group k) (c.p 4 3) ≤ s.group k → s.allocOk k j = true →
          ((1 < s.roles 1 ∨ 8 < s.roles 2) → exec (.spanTrain x) s = .next ((s.begin x).reply x 0x44 []))
          ∧ (s.roles 1 ≤ 1 → s.roles 2 ≤ 8 → ((s.lst k j ≠ 0 ∧ s.lst k j ≠ 5 ∧ s.lst k j ≠ 7) ∨ (s.lk (4 * k + j)).cmd.isSome = true
            ∨ (s.lk (4 * k + j)).fall.isSome = true) → exec (.spanTrain x) s = .next ((s.begin x).reply x 6 []))))
      ∧ (s.Issued x 0x71 [(0, 4)] c → s.hasLink k j = true → (s.lk (4 * k + j)).cmd = none →
        (∃ v : State, exec (.spanDown x) s = .next (v.reply x 0 []) ∧ v.lst k j = 7 ∧ v.lf k j F.SP_L_STAT_LSTATE = 0 ∧ (v.lk (4 * k + j)).want = 0))
      ∧ (s.Issued x 0x71 [(0, 4)] c → s.hasLink k j = true →
        exec (.spanDown x) s = .next ((((((s.begin x).trainReply k j 0x40 []).updLk (4 * k + j) (fun l =>
          { l with want := 0, fall := none })).give 3 (4 * k + j)).linkDown k j 7).reply x 0 []))
      ∧ (s.hasLink k j = false → (s.Issued x 0x70 [(0, 8)] c → exec (.spanTrain x) s = .next ((s.begin x).reply x 3 []))
        ∧ (s.Issued x 0x71 [(0, 4)] c → exec (.spanDown x) s = .next ((s.begin x).reply x 3 [])))
      ∧ (s.Issued x 0x72 [(0, 2), (4, 2)] c → s.hasSpan k = true → c.p 4 2 ≠ 3 →
        (∀ i, i < s.nLinks k → s.lst k i = 0 ∨ s.lst k i = 7) →
        exec (.spanSplit x) s = .next (((s.begin x).wr (spB k) F.SP_CFG_SPLIT (c.p 4 2)).reply x 0 []))
      ∧ (s.Issued x 0x72 [(0, 2), (4, 2)] c →
        ((s.hasSpan k = false ∨ c.p 4 2 = 3) → exec (.spanSplit x) s = .next ((s.begin x).reply x 3 []))
        ∧ (s.hasSpan k = true → c.p 4 2 ≠ 3 → ∀ i, i < s.nLinks k → s.lst k i ≠ 0 → s.lst k i ≠ 7 →
          exec (.spanSplit x) s = .next ((s.begin x).reply x 6 [])))
      ∧ (s.Issued x 0x73 [(0, 2)] c → s.hasSpan k = false → exec (.spanStatus x) s = .next ((s.begin x).reply x 3 []))
      ∧ (s.Issued x 0x73 [(0, 2)] c → s.hasSpan k = true →
        exec (.spanStatus x) s = .next ((s.begin x).reply x 0 ((List.range (s.nLinks k)).flatMap (fun i =>
          [F.SP_L_STAT_STATE, F.SP_L_FAR_INST, F.SP_L_LANE_C, F.SP_L_RTT_NS, F.SP_L_REPLAY_CNT_COUNT,
            F.SP_L_RETRAIN_CNT_COUNT].flatMap (fun f => leBytes 4 (s.word (spB k + (f.ix i).off)).toNat))))))
  ∧ (∀ (s : State) (k j : Nat), (s.hasLink k j = false → (∀ classes rev rtt, exec (.trainStateDone k j classes rev rtt) s = .next s)
        ∧ exec (.trainStateTmo k j) s = .next s ∧ exec (.linkDownEntry k j) s = .next s ∧ exec (.spanDownRetry k j) s = .next s)
      ∧ (s.hasLink k j = true →
      (∀ classes rev rtt, ((s.lk (4 * k + j)).fall.isSome = true ∨ s.lst k j = 0 ∨ s.lst k j = 5 ∨ 7 ≤ s.lst k j
          ∨ (s.lst k j = 4 ∨ s.lst k j = 6) ∧ (s.lk (4 * k + j)).far = none) → exec (.trainStateDone k j classes rev rtt) s = .next s)
      ∧ (∀ classes rev rtt (f : LinkInfo), (s.lk (4 * k + j)).fall = none → (s.lst k j = 4 ∨ s.lst k j = 6) →
        (s.lk (4 * k + j)).far = some f →
        (f.inst = s.instNum → exec (.trainStateDone k j classes rev rtt) s = .next (s.trainFail k j 0x43))
        ∧ (f.inst ≠ s.instNum → s.allocOk k j = false → exec (.trainStateDone k j classes rev rtt) s = .next (s.trainFail k j 0x41))
        ∧ (f.inst ≠ s.instNum → s.allocOk k j = true → laneGroup (s.group k)
            (min (widthOf (s.group k) (s.lf k j F.SP_L_CFG_WIDTH_REQ)) (widthOf (s.group k) f.width))
            (s.goodLanes k j &&& f.mask) = none → exec (.trainStateDone k j classes rev rtt) s = .next (s.trainFail k j 0x42)))
      ∧ ((s.lk (4 * k + j)).fall = none → ∀ classes rev rtt,
        (s.lst k j = 1 → exec (.trainStateDone k j classes rev rtt) s = .next ((s.detect k j classes rev).setLst k j 2))
        ∧ (s.lst k j = 2 → exec (.trainStateDone k j classes rev rtt) s = .next (s.setLst k j 3))
        ∧ (s.lst k j = 3 → (∃ t : State, exec (.trainStateDone k j classes rev rtt) s = .next t ∧ t.lst k j = 4 ∧ (t.lk (4 * k + j)).far = none))
        ∧ ∀ (f : LinkInfo) (l0 w : Nat), (s.lst k j = 4 ∨ s.lst k j = 6) → (s.lk (4 * k + j)).far = some f → f.inst ≠ s.instNum →
          s.allocOk k j = true → laneGroup (s.group k)
            (min (widthOf (s.group k) (s.lf k j F.SP_L_CFG_WIDTH_REQ)) (widthOf (s.group k) f.width))
            (s.goodLanes k j &&& f.mask) = some (l0, w) →
          exec (.trainStateDone k j classes rev rtt) s = .next (s.linkUp k j l0 w (s.goodLanes k j &&& f.mask) rtt f))
      ∧ (((s.lk (4 * k + j)).fall.isSome = true ∨ s.lst k j = 0 ∨ s.lst k j = 5 ∨ 7 ≤ s.lst k j) →
        exec (.trainStateTmo k j) s = .next s)
      ∧ ((s.lk (4 * k + j)).fall = none → exec (.linkDownEntry k j) s = .next s)
      ∧ ((s.lst k j ≠ 0 ∨ s.rd (spB k) F.SP_CFG_RETRY_MS = 0) → exec (.spanDownRetry k j) s = .next s)
      ∧ (s.lst k j = 0 → s.rd (spB k) F.SP_CFG_RETRY_MS ≠ 0 → (s.lk (4 * k + j)).want ≠ 0 →
        exec (.spanDownRetry k j) s = .next (s.updLk (4 * k + j) (fun l => { l with want := 1 })))
      ∧ ((s.lk (4 * k + j)).fall = none →
        (s.lst k j = 6 → (∃ t : State, exec (.trainStateTmo k j) s = .next t ∧ t.lst k j = 1))
        ∧ (s.lst k j = 1 ∨ s.lst k j = 2 ∨ s.lst k j = 3 ∨ s.lst k j = 4 →
          ((s.lk (4 * k + j)).tries + 1 < max 1 (s.rd (spB k) F.SP_TRAIN_CFG_ATTEMPTS) → (∃ t : State, exec (.trainStateTmo k j) s = .next t ∧ t.lst k j = 1 ∧ (t.lk (4 * k + j)).tries = (s.lk (4 * k + j)).tries + 1))
          ∧ (max 1 (s.rd (spB k) F.SP_TRAIN_CFG_ATTEMPTS) ≤ (s.lk (4 * k + j)).tries + 1 → (∃ t : State, exec (.trainStateTmo k j) s = .next t ∧ (t.lk (4 * k + j)).fall = some 0x41 ∧ (t.lk (4 * k + j)).cmd = none))))
      ∧ (∀ why, (s.lk (4 * k + j)).fall = some why → (∃ t : State, exec (.linkDownEntry k j) s = .next t ∧ t.lst k j = 0
          ∧ t.lf k j F.SP_L_STAT_LSTATE = 0 ∧ (t.lk (4 * k + j)).want = 0 ∧ t.hasLeave 3 (4 * k + j) = false))
      ∧ (s.lst k j = 0 → s.rd (spB k) F.SP_CFG_RETRY_MS ≠ 0 → (s.lk (4 * k + j)).want = 0 →
        (∃ t : State, exec (.spanDownRetry k j) s = .next t ∧ t.asks = s.asks ++ [{ kind := 3, who := 4 * k + j }]
          ∧ (t.lk (4 * k + j)).want = 1 ∧ t.csr = s.csr))))

/-- The width that training takes is the widest power of two up to both limits for which an aligned group of good lanes exists, and
the lowest such group (R572). -/
def Obligations.LaneGroupIsWidestThenLowest : Prop :=
  ∀ (g limit mask l0 w : Nat), laneGroup g limit mask = some (l0, w) →
    (w = 8 ∨ w = 4 ∨ w = 2 ∨ w = 1) ∧ w ≤ g ∧ w ≤ limit ∧ w ∣ l0 ∧ l0 + w ≤ g ∧ (∀ b, b < w → bitAt mask (l0 + b) = true)
    ∧ ∀ v m, (v = 8 ∨ v = 4 ∨ v = 2 ∨ v = 1) → v ≤ g → v ≤ limit → v ∣ m → m + v ≤ g → (∀ b, b < v → bitAt mask (m + b) = true) →
      v ≤ w ∧ (v = w → l0 ≤ m)

/-- Lane faults, frames, forwarding and stalls.

Lane faults (R571, R573): a lane of an ACTIVE link that loses its signal is classed OPEN, and one in use forces a retrain; a restored one
asks for leave; a window past the threshold marks its lanes, and a NOISY lane in use with AUTO_DEGRADE asks for leave. Another link or lane
stays as it is.

Frames (R319, R320, R563, R565 to R568, R570, R583): a frame whose CRC-32 fails counts and asks for NAK; a LINK frame in CONFIG or
RETRAIN tells the far end, and each other frame in those states gives its ACK, NAK and counts where the link has not been DOWN; the next FLIT or
RELAY frame in order is taken, one out of order asks for NAK; a TIME frame is taken by the port's role. A frame slot sends the next frame of a
replay, else the relay words that wait, else the TIME frame that is due, else a flit that may go, else an idle frame, and in CONFIG or RETRAIN
a LINK frame: each carries the receiver's ACK, NAK and counts, and its CRC. An UP link in ACTIVE takes up the oldest collect word that has all
its parts first. A replay sends from the oldest frame, and after REPLAY_MAX in a row the link trains anew. In other states, and with no link,
nothing happens. The layout of TIME and LINK payloads, which the CRC covers, is a free value (log 124).

Forwarding and stalls (R574, R576, R578 to R580): a flit from a plane is taken off its wire, and a port under reset drops it; the head
of a receive VC is routed to the planes or to its link, or dropped and counted without a route, and in transit moves flit by flit; a stalled VC
is drained, counted and reported. Nothing waiting, nothing happens. -/
def Obligations.SpanTrafficAndFaults : Prop :=
  (∀ (s : State) (k j l : Nat), (s.hasLink k j = false → (∀ b, exec (.laneLoss k j l b) s = .next s)
        ∧ exec (.laneRestore k j l) s = .next s ∧ ∀ corr uncorr errs, exec (.fecWindow k j corr uncorr errs) s = .next s)
      ∧ (s.hasLink k j = true →
      (∀ (b : Bool) (v : State),
        v = (if b = true ∧ s.lst k j = 5 ∧ l < s.group k ∧ (s.laneClass k j l = 0 ∨ s.laneClass k j l = 4 ∨ s.laneClass k j l = 5) then
          (s.setClass k j l 1).lw k j F.SP_L_STAT_GOOD (s.lf k j F.SP_L_STAT_GOOD &&& (2 ^ 8 - 1 - 2 ^ l)) else s) →
        exec (.laneLoss k j l b) s = .next (if s.laneUsed k j l then v.trainStart k j 2 else v))
      ∧ (s.laneUsed k j l = true → l < s.group k → l < 8 → (s.laneClass k j l = 0 ∨ s.laneClass k j l = 4 ∨ s.laneClass k j l = 5) →
        l ∉ (s.lk (4 * k + j)).restore → (∃ t : State, exec (.laneLoss k j l true) s = .next t ∧ t.lst k j = 6 ∧ t.laneClass k j l = 1
          ∧ bitAt (t.lf k j F.SP_L_STAT_GOOD) l = false))
      ∧ ((s.lst k j ≠ 5 ∨ s.group k ≤ l ∨ s.laneClass k j l ≠ 1 ∨ s.flag (spB k) F.SP_CFG_AUTO_RESTORE = false) →
        exec (.laneRestore k j l) s = .next s)
      ∧ (s.lst k j = 5 → l < s.group k → s.laneClass k j l = 1 → s.flag (spB k) F.SP_CFG_AUTO_RESTORE = true →
        (s.lk (4 * k + j)).want ≠ 0 → (∃ t : State, exec (.laneRestore k j l) s = .next t ∧ l ∈ (t.lk (4 * k + j)).restore
          ∧ (t.lk (4 * k + j)).want = (s.lk (4 * k + j)).want ∧ t.asks = s.asks ∧ t.csr = s.csr))
      ∧ (∀ corr uncorr errs, s.lst k j ≠ 5 → exec (.fecWindow k j corr uncorr errs) s = .next s)
      ∧ (s.lst k j = 5 → l < s.group k → s.laneClass k j l = 1 → s.flag (spB k) F.SP_CFG_AUTO_RESTORE = true →
        (s.lk (4 * k + j)).want = 0 → (∃ t : State, exec (.laneRestore k j l) s = .next t ∧ l ∈ (t.lk (4 * k + j)).restore
          ∧ (t.lk (4 * k + j)).want = 3 ∧ t.asks = s.asks ++ [{ kind := 3, who := 4 * k + j }] ∧ t.csr = s.csr))
      ∧ (∀ (corr uncorr : Nat) (errs : List Nat), s.lst k j = 5 → s.lf k j F.SP_L_LL_CFG_FEC_THR < uncorr → l < s.group k → s.laneUsed k j l = true →
        l < 8 → s.lf k j F.SP_L_LL_CFG_FEC_THR < errs.getD l 0 → (s.laneClass k j l = 0 ∨ s.laneClass k j l = 5) →
        s.flag (spB k) F.SP_CFG_AUTO_DEGRADE = true → (s.lk (4 * k + j)).want = 0 →
        (∃ t : State, exec (.fecWindow k j corr uncorr errs) s = .next t ∧ t.laneClass k j l = 4 ∧ (t.lk (4 * k + j)).want = 3
          ∧ t.asks = s.asks ++ [{ kind := 3, who := 4 * k + j }]))
      ∧ (∀ (corr uncorr : Nat) (errs : List Nat), s.lst k j = 5 → l < 8 → s.laneUsed k j l = true → s.laneClass k j l = 4 →
        s.flag (spB k) F.SP_CFG_AUTO_DEGRADE = true → (s.lk (4 * k + j)).want = 0 → uncorr ≤ s.lf k j F.SP_L_LL_CFG_FEC_THR →
        (∃ t : State, exec (.fecWindow k j corr uncorr errs) s = .next t ∧ (t.lk (4 * k + j)).want = 3
          ∧ t.asks = s.asks ++ [{ kind := 3, who := 4 * k + j }]))
      ∧ (∀ (corr uncorr : Nat) (errs : List Nat), s.lst k j = 5 → uncorr ≤ s.lf k j F.SP_L_LL_CFG_FEC_THR →
        (s.flag (spB k) F.SP_CFG_AUTO_DEGRADE = false ∨ ∀ i, i < 8 → s.laneUsed k j i = true → s.laneClass k j i ≠ 4) →
        (∃ t : State, exec (.fecWindow k j corr uncorr errs) s = .next t ∧ onlyWords [spB k + (F.SP_L_FEC_CORR_CNT_COUNT.ix j).off,
            spB k + (F.SP_L_FEC_UNCORR_CNT_COUNT.ix j).off] s t
          ∧ t.lf k j F.SP_L_FEC_CORR_CNT_COUNT = min (s.lf k j F.SP_L_FEC_CORR_CNT_COUNT + corr) (2 ^ 32 - 1)
          ∧ t.lf k j F.SP_L_FEC_UNCORR_CNT_COUNT = min (s.lf k j F.SP_L_FEC_UNCORR_CNT_COUNT + uncorr) (2 ^ 32 - 1)))))
  ∧ (∀ (s : State) (k j c t0 : Nat), (s.hasLink k j = false → (∀ f, exec (.spanFrameReceive k j f) s = .next s)
        ∧ (∀ ws tm, exec (.spanFrameSend k j ws tm) s = .next s) ∧ exec (.replayTmo k j) s = .next s)
      ∧ (s.hasLink k j = true → c = 4 * k + j →
      ((s.lst k j ≠ 4 ∧ s.lst k j ≠ 5 ∧ s.lst k j ≠ 6) → (∀ f, exec (.spanFrameReceive k j f) s = .next s)
        ∧ (∀ ws tm, exec (.spanFrameSend k j ws tm) s = .next s) ∧ exec (.replayTmo k j) s = .next s)
      ∧ (∀ f : Frame, f.crc.toNat = frameCrc f → f.ftype < 4 → (s.lst k j = 4 ∨ s.lst k j = 6) →
        exec (.spanFrameReceive k j ⟨f, t0⟩) s = .next (if (s.lk c).new then s else s.frameIn k j f t0))
      ∧ (∀ (f : Frame) (v : State), f.crc.toNat = frameCrc f → s.lst k j = 5 → f.fseq % 4096 = ((s.lk c).rxSeq + 1) % 4096 →
        (s.lk c).rxSeq < 4096 → f.fseq < 4096 → (f.nak = false ∨ (s.lk c).nakSeen = true) → s.rxRoom k j f = true →
        v = (s.updLk c (fun l => { (l.acked f.ack).credited f.cred with nakSeen := f.nak })).updLk c (fun l =>
          { l with rxSeq := f.fseq % 4096, nak := false }) →
        (∀ fl, f.ftype = 1 → f.flit = some fl → exec (.spanFrameReceive k j ⟨f, t0⟩) s = .next (v.rxFlit k j fl f.found))
        ∧ (f.ftype = 2 → exec (.spanFrameReceive k j ⟨f, t0⟩) s = .next (if v.relays k j then v.relayArrive c f.words else v)))
      ∧ (∀ f : Frame, (s.lst k j = 4 ∨ s.lst k j = 5 ∨ s.lst k j = 6) → (f.crc.toNat ≠ frameCrc f ∨ 5 ≤ f.ftype) →
        (∃ t : State, exec (.spanFrameReceive k j ⟨f, t0⟩) s = .next t ∧ (t.lk c).nak = true
          ∧ t.lf k j F.SP_L_CRC_ERR_CNT_COUNT = min (s.lf k j F.SP_L_CRC_ERR_CNT_COUNT + 1) (2 ^ 32 - 1)
          ∧ (t.lk c).rxv = (s.lk c).rxv ∧ (t.lk c).rxSeq = (s.lk c).rxSeq))
      ∧ (∀ f : Frame, (s.lst k j = 4 ∨ s.lst k j = 6) → f.crc.toNat = frameCrc f → f.ftype = 4 →
        exec (.spanFrameReceive k j ⟨f, t0⟩) s = .next ((if (s.lk c).new then s else s.frameIn k j f t0).updLk c (fun l =>
          { l with far := f.link })))
      ∧ (∀ (f : Frame) (d : Nat), s.lst k j = 5 → f.crc.toNat = frameCrc f → (f.ftype = 1 ∨ f.ftype = 2) → f.nak = false →
        d = (f.fseq + 4096 - (s.lk c).rxSeq) % 4096 → 1 < d → d < 2048 →
        (∃ t : State, exec (.spanFrameReceive k j ⟨f, t0⟩) s = .next t ∧ (t.lk c).nak = true ∧ (t.lk c).rxSeq = (s.lk c).rxSeq
          ∧ (t.lk c).rxv = (s.lk c).rxv ∧ (t.lk c).replay = ((s.lk c).acked f.ack).replay))
      ∧ (∀ f : Frame, s.lst k j = 5 → j = 0 → f.crc.toNat = frameCrc f → f.ftype = 3 → f.nak = false →
        (s.rd (spB k) F.SP_TIME_CFG_ROLE = 1 → f.time = some .dreq → (∃ t : State, exec (.spanFrameReceive k j ⟨f, t0⟩) s = .next t ∧ (t.lk c).t4 = some t0 ∧ (t.lk c).replay = ((s.lk c).acked f.ack).replay))
        ∧ (∀ t1 t4, s.rd (spB k) F.SP_TIME_CFG_ROLE = 2 → f.time = some (.sync t1 t4) → (∃ t : State, exec (.spanFrameReceive k j ⟨f, t0⟩) s = .next t ∧ (t.lk c).t12 = some (t1, t0) ∧ (t.lk c).t3 = none
          ∧ ∀ p x y, (s.lk c).t12 = some p → (s.lk c).t3 = some x → t4 = some y → (t.lk c).exch = some (p.1, p.2, x, y))))
      ∧ (∀ (tm : Option Nat) (g h : Frame), s.lst k j = 5 → (s.lk c).rp = none → (s.lk c).relayQ = [] →
        g = { ack := (s.lk c).rxSeq, nak := (s.lk c).nak, cred := (s.lk c).cnt } →
        (s.nextSeg c = none → tm = none → (∃ t : State, exec (.spanFrameSend k j [] tm) s = .next t ∧ (t.lk c).replay = (s.lk c).replay
          ∧ (t.lk c).txSeq = (s.lk c).txSeq ∧ t.csr = s.csr ∧ t.ports = s.ports
          ∧ (t.lk c).out = (s.lk c).out ++ [{ g with crc := BitVec.ofNat 32 (frameCrc g) }]))
        ∧ (∀ x, j = 0 → tm = some x → s.rd (spB k) F.SP_TIME_CFG_ROLE = 1 →
          h = { g with ftype := 3, time := some (.sync x (s.lk c).t4) } → (∃ t : State, exec (.spanFrameSend k j [] tm) s = .next t ∧ (t.lk c).out = (s.lk c).out ++ [{ h with crc := BitVec.ofNat 32 (frameCrc h) }] ∧ (t.lk c).t4 = none
          ∧ (t.lk c).replay = (s.lk c).replay ∧ (t.lk c).txSeq = (s.lk c).txSeq))
        ∧ (∀ x, j = 0 → tm = some x → s.rd (spB k) F.SP_TIME_CFG_ROLE = 2 → (s.lk c).t12.isSome = true →
          h = { g with ftype := 3, time := some .dreq } → (∃ t : State, exec (.spanFrameSend k j [] tm) s = .next t ∧ (t.lk c).out = (s.lk c).out ++ [{ h with crc := BitVec.ofNat 32 (frameCrc h) }] ∧ (t.lk c).t3 = some x
          ∧ (t.lk c).replay = (s.lk c).replay ∧ (t.lk c).txSeq = (s.lk c).txSeq)))
      ∧ (∀ (ws : List Word) tm, s.lst k j = 5 → (s.lf k j F.SP_L_CFG_RELAY ≠ 1 ∨ s.relays k j = false ∨ ws.length ≠ 1
          ∨ ∀ jn, s.joints.find? (fun y => !y.own) = some jn → s.jointWord jn ≠ (ws.headD 0, true)) →
        exec (.spanFrameSend k j ws tm) s = exec (.spanFrameSend k j [] tm) s)
      ∧ (∀ (w : Word) (tm : Option Nat) (jn : Joint) (v : State), s.lst k j = 5 → s.lf k j F.SP_L_CFG_RELAY = 1 → s.relays k j = true →
        s.joints.find? (fun y => !y.own) = some jn → s.jointWord jn = (w, true) → (s.lk c).rp = none → (s.lk c).replay.length < 256 →
        v = { s.updLk c (fun l => { l with relayQ := l.relayQ ++ [w] }) with joints := s.joints.erase jn } →
        exec (.spanFrameSend k j [w] tm) s = .next ((v.updLk c (fun l => { l with relayQ := l.relayQ.drop 8 })).seqOut c
          { ftype := 2, words := ((s.lk c).relayQ ++ [w]).take 8 }))
      ∧ (∀ tm : Option Nat, s.lst k j = 5 → (s.lk c).rp = none → (s.lk c).replay.length < 256 → (s.lk c).relayQ ≠ [] →
        exec (.spanFrameSend k j [] tm) s = .next ((s.updLk c (fun l => { l with relayQ := l.relayQ.drop 8 })).seqOut c
          { ftype := 2, words := (s.lk c).relayQ.take 8 }))
      ∧ (∀ u : State, s.lst k j = 5 → (s.lk c).rp = none → (s.lk c).relayQ = [] → (s.lk c).replay.length < 256 →
        s.flitOut c = some u → exec (.spanFrameSend k j [] none) s = .next u)
      ∧ (∀ (i : Nat) (f g : Frame), s.lst k j = 5 → (s.lk c).rp = some i → (s.lk c).replay[i]? = some f →
        g = { f with ack := (s.lk c).rxSeq, nak := (s.lk c).nak, cred := (s.lk c).cnt } →
        (∃ t : State, exec (.spanFrameSend k j [] none) s = .next t ∧ (t.lk c).out = (s.lk c).out ++ [{ g with crc := BitVec.ofNat 32 (frameCrc g) }]
          ∧ (t.lk c).rp = (if i + 1 < (s.lk c).replay.length then some (i + 1) else none) ∧ (t.lk c).replay = (s.lk c).replay
          ∧ (t.lk c).txSeq = (s.lk c).txSeq))
      ∧ (∀ ws tm, (s.lst k j = 4 ∨ s.lst k j = 6) → exec (.spanFrameSend k j ws tm) s = .next (s.frameOut c { ftype := 4, link := some {
          inst := s.instNum, mask := s.goodLanes k j, width := s.lf k j F.SP_L_CFG_WIDTH_REQ, role := s.lf k j F.SP_L_CFG_RELAY,
          cred := (List.range 4).map (s.alloc k j) } }))
      ∧ ((s.lst k j ≠ 5 ∨ (s.lk c).replay = []) → exec (.replayTmo k j) s = .next s)
      ∧ (s.lst k j = 5 → (s.lk c).replay ≠ [] →
        ((s.lk c).rrow < max 1 (s.lf k j F.SP_L_LL_CFG_REPLAY_MAX) →
          (∃ t : State, exec (.replayTmo k j) s = .next t ∧ (t.lk c).rp = some 0 ∧ (t.lk c).rrow = (s.lk c).rrow + 1
            ∧ t.lf k j F.SP_L_REPLAY_CNT_COUNT = min (s.lf k j F.SP_L_REPLAY_CNT_COUNT + 1) (2 ^ 32 - 1)))
        ∧ (max 1 (s.lf k j F.SP_L_LL_CFG_REPLAY_MAX) ≤ (s.lk c).rrow → (∃ t : State, exec (.replayTmo k j) s = .next t ∧ t.lst k j = 6 ∧ (t.lk c).rrow = 0 ∧ (t.lk c).rp = none)))))
  ∧ (∀ (s : State) (k : Nat), (∀ src vc e, (s.hasSpan k = false ∨ 16 ≤ vc ∨ 2 ≤ src ∧ s.hasLink k (src - 2) = false) →
        exec (.spanForward k src vc e) s = .next s)
      ∧ (∀ j v b, (s.hasLink k j = false ∨ 16 ≤ v) → exec (.spanStall k j v b) s = .next s)
      ∧ (s.hasSpan k = true →
      (∀ p vc e fl r, p < 2 → vc < 16 → (s.port (.span p k)).wire = fl :: r →
        ((s.port (.span p k)).dead = false →
          exec (.spanForward k p vc e) s = .next ((s.updPort (.span p k) (fun y => { y with wire := r })).spanFlit k p fl e))
        ∧ ((s.port (.span p k)).dead = true →
          exec (.spanForward k p vc e) s = .next (s.updPort (.span p k) (fun y => { y with wire := r }))))
      ∧ (∀ p vc e, p < 2 → (s.port (.span p k)).wire = [] → exec (.spanForward k p vc e) s = .next s)
      ∧ (∀ (j v : Nat) (x : VcSt) (t : TxPkt) (e : FlitErr), s.hasLink k j = true → v < 16 → (s.lk (4 * k + j)).go.getD v none = none →
        (s.lk (4 * k + j)).rxv[v]? = some x → frontPkt x.buf = some t →
        (t.hdr.dest / 256 = s.instNum → exec (.spanForward k (2 + j) v e) s = .next ((s.toPlanes k j v t.hdr).toXbar k j v))
        ∧ (t.hdr.dest / 256 ≠ s.instNum → exec (.spanForward k (2 + j) v e) s = .next ((s.toLink k j v t.hdr).toXbar k j v))
        ∧ (t.hdr.dest / 256 ≠ s.instNum → s.fwd k (t.hdr.dest / 256) = none → x.buf ≠ [] →
          exec (.spanForward k (2 + j) v e) s = .next (((s.noRoute k).rxDrop (4 * k + j) v).toXbar k j v)))
      ∧ (∀ (j v : Nat) (e : FlitErr), s.hasLink k j = true → v < 16 → ((s.lk (4 * k + j)).go.getD v none ≠ none
          ∨ ∀ x, (s.lk (4 * k + j)).rxv[v]? = some x → frontPkt x.buf = none) →
        exec (.spanForward k (2 + j) v e) s = .next (s.toXbar k j v))
      ∧ (∀ (j v : Nat) (b : Bool), s.hasLink k j = true → v < 16 →
        (∀ x, (if b then (s.lk (4 * k + j)).xbv[v]? else (s.lk (4 * k + j)).rxv[v]?) = some x → x.buf = []) →
        exec (.spanStall k j v b) s = .next s)
      ∧ (∀ (j v : Nat) (x : VcSt), s.hasLink k j = true → v < 16 → (s.lk (4 * k + j)).rxv[v]? = some x → x.buf ≠ [] →
        exec (.spanStall k j v false) s = .next (((s.stallRx (4 * k + j) v x).count (spB k) F.SP_STALL_DROP_CNT_COUNT 1).spanEvent k 7)
        ∧ ((∀ t, x.tx = some t → t.next = 0) → s.stallRx (4 * k + j) v x = s.rxDrop (4 * k + j) v))
      ∧ (∀ (j v : Nat) (x : VcSt), s.hasLink k j = true → v < 16 → (s.lk (4 * k + j)).xbv[v]? = some x → x.buf ≠ [] →
        (∀ t, x.tx = some t → exec (.spanStall k j v true) s = .next (((s.xbDrop (4 * k + j) v (t.next != 0)).count (spB k)
          F.SP_STALL_DROP_CNT_COUNT 1).spanEvent k 7))
        ∧ (x.tx = none → exec (.spanStall k j v true) s = .next (((s.xbDrop (4 * k + j) v false).count (spB k)
          F.SP_STALL_DROP_CNT_COUNT 1).spanEvent k 7)))))

/-- The test access port, the debug commands and the trace.

The test access port (R618, R619, R621, R623): IDCODE and BYPASS, TRACE_RD with its read pointer, and Test-Logic-Reset, which breaks
the debug master's locks, each once no access of it is in progress there.

The debug commands, the trace's start and BIST (R624 to R628): each is answered DEBUG_LOCKED under DBG_DIS; TRC_START arms; TRC_STOP
stops; TEST_ENTER and TEST_EXIT; an armed trace begins at its time or at the edge it waits for; BIST records its result. A mode that there is
not is BAD_PARAM, and leaving a mode that is not entered changes nothing; an event for a trace that does not wait for it, and the end of a BIST
that does not run, change nothing. -/
def Obligations.TestAccessDebugAndTrace : Prop :=
  (∀ s : State,
      exec .tapIdcode s = .next { s with tap := { s.tap with ir := 2, out := s.tap.out ++
          [s.rd glbB F.GLB_ID_VER * 2 ^ 28 + 0x0C53 * 2 ^ 12 + s.rd glbB F.GLB_ID_MFR * 2 + 1] } }
      ∧ exec .tapBypass s = .next { s with tap := { s.tap with ir := 0xFF, out := s.tap.out ++ [0] } }
      ∧ (s.dbgDis = false → exec .traceRd s = .next { s with tap := { s.tap with
          ir := 4, out := s.tap.out ++ [mget (fun _ => 0) s.trc s.tap.rp], rp := (s.tap.rp + 1) % 4096 } })
      ∧ (s.dbgDis = true → exec .traceRd s = .next { s with tap := { s.tap with ir := 4, out := s.tap.out ++ [0] } })
      ∧ (∃ t : State, exec .tapReset s = .next t ∧ t.tap = { s.tap with ir := 2, rp := 0 } ∧ ∀ k o, t.lockOf k = some o →
          o.1 = 2 → s.lockOf k = some o ∧ (k, 0) ∈ t.cmx.owed ∧ ∃ a ∈ s.cmx.acs, a.m = 2 ∧ a.tgt = k ∧ a.working = true))
  ∧ (∀ (s : State) (x : Nat) (c : Cmd),
      (s.dbgDis = true →
        (s.Issued x 0xF0 [] c → exec (.dbgStatus x) s = .next ((s.begin x).reply x 0x50 []))
        ∧ (s.Issued x 0xF1 [] c → exec (.trcStart x) s = .next ((s.begin x).reply x 0x50 []))
        ∧ (s.Issued x 0xF2 [] c → exec (.trcStop x) s = .next ((s.begin x).reply x 0x50 []))
        ∧ (s.Issued x 0xF3 [(0, 2)] c → exec (.testEnter x) s = .next ((s.begin x).reply x 0x50 []))
        ∧ (s.Issued x 0xF4 [] c → exec (.testExit x) s = .next ((s.begin x).reply x 0x50 [])))
      ∧ (s.dbgDis = false →
        (s.Issued x 0xF0 [] c →
          exec (.dbgStatus x) s = .next ((s.begin x).reply x 0 (s.getBytes dbgB 1 ++ s.getBytes (dbgB + 0x38) 1)))
        ∧ (s.Issued x 0xF1 [] c → s.flag dbgB F.DBG_TRC_CTL_EN = false →
          ((s.rd dbgB F.DBG_TRC_CTL_START = 2 → s.pinFree (s.rd dbgB F.DBG_TRC_CTL_PIN) 4 0 = true) →
            (∃ v : State, exec (.trcStart x) s = .next (v.reply x 0 []) ∧ v.flag dbgB F.DBG_TRC_CTL_EN = true
              ∧ v.trcRun = (if s.rd dbgB F.DBG_TRC_CTL_START = 1 ∨ s.rd dbgB F.DBG_TRC_CTL_START = 2 then s.trcRun else true)))
          ∧ (s.rd dbgB F.DBG_TRC_CTL_START = 2 → s.pinFree (s.rd dbgB F.DBG_TRC_CTL_PIN) 4 0 = false →
            (∃ v : State, exec (.trcStart x) s = .next (v.reply x 9 []) ∧ v.flag dbgB F.DBG_TRC_CTL_EN = false ∧ v.trcRun = s.trcRun)))
        ∧ (s.Issued x 0xF1 [] c → s.flag dbgB F.DBG_TRC_CTL_EN = true → exec (.trcStart x) s = .next ((s.begin x).reply x 0x52 []))
        ∧ (s.Issued x 0xF3 [(0, 2)] c → (c.p 0 2 = 1 ∨ c.p 0 2 = 2) → s.rd dbgB F.DBG_STAT_TEST ≠ 0 →
          exec (.testEnter x) s = .next ((s.begin x).reply x 0x51 []))
        ∧ (s.Issued x 0xF3 [(0, 2)] c → c.p 0 2 = 2 → s.rd dbgB F.DBG_STAT_TEST = 0 →
          (∃ v : State, exec (.testEnter x) s = .next (v.reply x 0 []) ∧ v.rd dbgB F.DBG_STAT_TEST = 2))
        ∧ (s.Issued x 0xF3 [(0, 2)] c → (c.p 0 2 = 0 ∨ c.p 0 2 = 3) → exec (.testEnter x) s = .next ((s.begin x).reply x 3 []))
        ∧ (s.Issued x 0xF4 [] c → s.rd dbgB F.DBG_STAT_TEST = 0 → exec (.testExit x) s = .next ((s.begin x).reply x 0 []))
        ∧ (s.Issued x 0xF4 [] c → s.rd dbgB F.DBG_STAT_TEST = 2 → exec (.testExit x) s = .next ((s.begin x).reply x 0x51 []))
        ∧ (s.Issued x 0xF2 [] c → (∃ v : State, exec (.trcStop x) s = .next (v.reply x 0 []) ∧ v.trcRun = false ∧ v.flag dbgB F.DBG_TRC_CTL_EN = false
            ∧ v.trc = s.trc ∧ ∀ k, k < 4 → v.pinOwner k ≠ 4))
        ∧ (s.Issued x 0xF3 [(0, 2)] c → c.p 0 2 = 1 → s.rd dbgB F.DBG_STAT_TEST = 0 →
          (∃ v : State, exec (.testEnter x) s = .next (v.reply x 0 []) ∧ v.rd dbgB F.DBG_STAT_TEST = 1 ∧ v.rd dbgB F.DBG_TEST_CTL_MODE = 1))
        ∧ (s.Issued x 0xF4 [] c → s.rd dbgB F.DBG_STAT_TEST = 1 →
          (∃ v : State, exec (.testExit x) s = .next (v.reply x 0 []) ∧ v.rd dbgB F.DBG_STAT_TEST = 0 ∧ v.rd dbgB F.DBG_TEST_CTL_MODE = 0)))
      ∧ (∀ t rise, (s.flag dbgB F.DBG_TRC_CTL_EN = false ∨ s.trcRun = true
          ∨ s.flag dbgB F.DBG_TRC_PTR_FULL = true ∧ s.flag dbgB F.DBG_TRC_CTL_WRAP = false
          ∨ s.rd dbgB F.DBG_TRC_CTL_START = 0 ∨ s.rd dbgB F.DBG_TRC_CTL_START = 3
          ∨ s.rd dbgB F.DBG_TRC_CTL_START = 1 ∧ stampDiff t (BitVec.ofNat 64 (s.rd64 dbgB F.DBG_TRC_T_LO_T F.DBG_TRC_T_HI_T)) < 0
          ∨ s.rd dbgB F.DBG_TRC_CTL_START = 2 ∧ s.pinOwner (s.rd dbgB F.DBG_TRC_CTL_PIN) ≠ 4) → exec (.trcStartEvent t rise) s = .next s)
      ∧ (∀ t rise, s.flag dbgB F.DBG_TRC_CTL_EN = true → s.trcRun = false →
        (s.flag dbgB F.DBG_TRC_PTR_FULL = false ∨ s.flag dbgB F.DBG_TRC_CTL_WRAP = true) →
        (s.rd dbgB F.DBG_TRC_CTL_START = 1 → 0 ≤ stampDiff t (BitVec.ofNat 64 (s.rd64 dbgB F.DBG_TRC_T_LO_T F.DBG_TRC_T_HI_T)) →
          exec (.trcStartEvent t rise) s = .next ({ s with trcRun := true }.glEvent 12 2))
        ∧ (s.rd dbgB F.DBG_TRC_CTL_START = 2 → s.pinOwner (s.rd dbgB F.DBG_TRC_CTL_PIN) = 4 →
          (rise = !s.flag dbgB F.DBG_TRC_CTL_EDGE →
            exec (.trcStartEvent t rise) s = .next ({ s with trcRun := true }.glEvent 12 2))
          ∧ (rise = s.flag dbgB F.DBG_TRC_CTL_EDGE → exec (.trcStartEvent t rise) s = .next s)))
      ∧ (∀ fail : Option Nat, (s.rd dbgB F.DBG_STAT_TEST ≠ 2 ∨ s.flag dbgB F.DBG_STAT_BIST_DONE = true) →
        exec (.bistDone fail) s = .next s)
      ∧ (∀ fail : Option Nat, s.rd dbgB F.DBG_STAT_TEST = 2 → s.flag dbgB F.DBG_STAT_BIST_DONE = false →
        (∃ t : State, exec (.bistDone fail) s = .next t ∧ onlyWords [dbgB + F.DBG_STAT_TEST.off] s t ∧ t.flag dbgB F.DBG_STAT_BIST_DONE = true
          ∧ t.flag dbgB F.DBG_STAT_BIST_FAIL = fail.isSome
          ∧ t.rd dbgB F.DBG_STAT_BIST_UNIT = fail.getD 0 % 2 ^ F.DBG_STAT_BIST_UNIT.w)))

/-- The control matrix, the host port, MGMT packets and the debug port.

Arbitration and service (R446, R453, R455, R465, R467): a phase grants the winner of a free target, which moves to the tail of its
rotation list; a granted access is performed and answered, and a break that waited for it follows; past CMX.TMO it is answered TIMEOUT and may be
performed later. A target at work, or that no master asks for, holds no phase; LOCK_MAX breaks a lock, once no access of its owner is in
progress. An access of a master that waits for a grant is performed only after it.

The host port (R446 to R448, R457, R466, R471): a request that the port accepts joins the accesses of its target, or has its answer at its
entry; one that it does not accept leaves the state; HC_RST_N breaks the host's locks, each once no access of it is in progress there, and mutes
what it has outstanding.

MGMT packets and the debug port (R449, R450, R413, R618 to R621): with 16 accesses queued a packet is answered MGMT_BUSY; an unauthorised
write is answered DENIED; a packet for the CMX waits at its NI; a response ends its probe, and one that no probe waits for is dropped and counted;
DBG_ACC captures the last answer and with GO issues an access where none is outstanding, which a sleeping home region answers ASLEEP, and
acts as BYPASS under DBG_DIS. -/
def Obligations.ControlMatrixAndItsMasters : Prop :=
  (∀ (s : State) (t m x : Nat) (a : Csa),
      (s.cmx.acs.any (fun a => a.tgt == t && a.working) = true ∨ s.cmxWinner t = none → exec (.cmxArbPhase t) s = .next s)
      ∧ (s.cmx.acs.any (fun a => a.tgt == t && a.working) = false → s.cmxWinner t = some m →
        s.cmx.acs.find? (fun a => a.m == m && a.tgt == t && a.asks) = some a → (∃ v : State, exec (.cmxArbPhase t) s = .next v ∧ v.cmx.acs = s.cmx.acs.map (fun b => if b.ser = a.ser ∧ b.rsp.isNone = true then { b with gr := some s.clock } else b)
          ∧ v.cmxRot t = (s.cmxRot t).filter (fun k => k != m) ++ [m] ∧ v.csr = s.csr
          ∧ (s.lockBit m a.req = true → s.lockOf t = none → (m, t) ∉ s.cmx.cuts → v.lockOf t = some (m, s.clock))))
      ∧ (s.cmx.acs.find? (fun a => a.ser == x && a.gr.isSome && a.rsp.isNone) = none → exec (.cmxAccess x) s = .next s)
      ∧ (∀ c, s.cmx.acs.find? (fun a => a.ser == x && a.gr.isSome && a.rsp.isNone) = some a → s.entry? a.m a.req = .error c →
        exec (.cmxAccess x) s = .next (s.updCmx (fun d => { d with acs := d.acs.map (fun b =>
          if b.ser = x ∧ b.rsp.isNone = true then { b with rsp := some (0, c, false) } else b) })).flushCmx)
      ∧ (∀ u r v, s.cmx.acs.find? (fun a => a.ser == x && a.gr.isSome && a.rsp.isNone) = some a → a.late = false →
        s.entry? a.m a.req = .ok u → r = s.served a.m u a.req →
        v = r.1.updCmx (fun c => { c with acs := c.acs.map (fun b =>
          if b.ser = x ∧ b.rsp.isNone = true then { b with rsp := some (r.2.1, r.2.2, s.cmx.brk.contains a.tgt) } else b) }) →
        exec (.cmxAccess x) s = .next (v.brokenNow a.tgt).flushCmx
        ∧ ((∀ e ∈ v.cmx.owed, e.1 ≠ a.tgt) → exec (.cmxAccess x) s = .next v.flushCmx))
      ∧ (∀ u, s.cmx.acs.find? (fun a => a.ser == x && a.gr.isSome && a.rsp.isNone) = some a → a.late = true →
        s.entry? a.m a.req = .ok u → exec (.cmxAccess x) s = .next ((s.perform a.m u a.req).1.updCmx (fun c =>
          { c with acs := c.acs.filter (fun b => !(b.ser == x && b.late)) })))
      ∧ (s.cmx.acs.find? (fun a => a.ser == x && a.working) = none → exec (.cmxTimeout x) s = .next s)
      ∧ (s.cmx.acs.find? (fun a => a.ser == x && a.working) = some a → (∃ v : State, exec (.cmxTimeout x) s = .next v ∧ ({ a with late := true, mute := true } : Csa) ∈ v.cmx.acs))
      ∧ exec (.pairStageTmo t) s = .next (s.setStage 4 t none)
      ∧ (s.lockOf t = none → exec (.lockMaxExpire t) s = .next s)
      ∧ (s.lockOf t = some (m, x) → s.cmx.acs.any (fun a => a.m == m && a.tgt == t && a.working) = true →
        (∃ v : State, exec (.lockMaxExpire t) s = .next v ∧ v.lockOf t = s.lockOf t ∧ (t, 1) ∈ v.cmx.owed ∧ v.cmx.acs = s.cmx.acs ∧ v.csr = s.csr))
      ∧ (s.cmx.acs.any (fun a => a.m == m && a.tgt == t && a.working) = false → s.lockOf t = some (m, x) →
        (∃ v : State, exec (.lockMaxExpire t) s = .next v ∧ v.lockOf t = none ∧ (m, t) ∈ v.cmx.cuts ∧ t ∈ v.cmx.brk))
      ∧ (∀ q u, s.mayPresent m = true → s.entry? m { q with wr := true } = .ok u → (∀ b ∈ s.cmx.acs, b.ser ≠ s.cmx.next) →
        (s.cmx.acs.any (fun a => a.tgt == u.target && a.working) = true ∨ s.mayUse m u.target = false ∧ (∀ b ∈ s.cmx.acs, b.tgt ≠ u.target)) →
        (∃ v : State, exec (.registerWrite m q) s = .next v ∧ v = s.updCmx (fun c => { c with
          next := c.next + 1,
          acs := c.acs ++ [{ ser := s.cmx.next, m := m, mg := none, req := { q with wr := true }, tgt := u.target, rsp := none }] })))
      ∧ (∀ q, s.mayPresent m = false → exec (.registerWrite m q) s = .next s))
  ∧ (∀ (s : State) (q : CsrReq) (u : Un),
      (s.hcReady = false → exec (.hcRequest q) s = .next s)
      ∧ (s.hcReady = true → s.entry? 0 q = .ok u → (∀ a ∈ s.cmx.acs, a.rsp = none) → (∀ n, (s.ni n).mgmtIn = []) →
        exec (.hcRequest q) s = .next { s with cmx := { s.cmx with
          next := s.cmx.next + 1,
          acs := s.cmx.acs ++ [{ ser := s.cmx.next, m := 0, req := { q with data := q.data >>> (8 * (q.addr % 8)) }, tgt := u.target }] } })
      ∧ (s.hcReady = true → exec (.hcRequest q) s = .next (s.cmxIn 0 none { q with data := q.data >>> (8 * (q.addr % 8)) } none).flushCmx)
      ∧ (∀ c, s.hcReady = true → s.entry? 0 q = .error c → s.cmx.acs = [] → (∀ n, (s.ni n).mgmtIn = []) →
        (∃ t : State, exec (.hcRequest q) s = .next t ∧ t.cmx.hcOut = s.cmx.hcOut ++ [{ id := q.id, data := 0, code := c, lb := false }] ∧ t.cmx.acs = []))
      ∧ (s.cmx.acs = [] → (∀ n, (s.ni n).mgmtIn = []) →
        (∃ t : State, exec .hcRstAssert s = .next t ∧ t.cmx.hcLow = true ∧ t.cmx.hcOut = s.cmx.hcOut ∧ ∀ k o, t.lockOf k = some o → o.1 ≠ 0))
      ∧ (∀ b, b = s.ownerReset 0 → exec .hcRstAssert s = .next (b.updCmx (fun c => { c with hcLow := true })).flushCmx
        ∧ (∀ a ∈ b.cmx.acs, a.m = 0 → a.mute = true)
        ∧ ∀ k o, b.lockOf k = some o → o.1 = 0 →
          s.lockOf k = some o ∧ (k, 0) ∈ b.cmx.owed ∧ ∃ a ∈ s.cmx.acs, a.m = 0 ∧ a.tgt = k ∧ a.working = true)
      ∧ exec .hcRstDeassert s = .next { s with cmx := { s.cmx with hcLow := false } })
  ∧ (∀ (s v : State) (n k : Nat) (p : Pk),
      (s.hasNi n = false → exec (.mgmtReceive n) s = .next s ∧ exec (.mgmtResponse n) s = .next s)
      ∧ (s.hasNi n = true → (s.mgmtPk n (fun op => decide (op ≤ 1)) = none → exec (.mgmtReceive n) s = .next s)
        ∧ (s.mgmtPk n (fun op => op == 2) = none → exec (.mgmtResponse n) s = .next s))
      ∧ (s.hasNi n = true → s.mgmtPk n (fun op => decide (op ≤ 1)) = some (k, p) → v = s.unbox n k → v.plnState p.plane ≠ 3 →
        16 ≤ (v.ni n).mgmtIn.length →
        exec (.mgmtReceive n) s = .next ((v.noteErr 4 (mgmtReq p) 10).mgmtAnswer n 0 p.hdr 0 10 false))
      ∧ (s.hasNi n = true → s.mgmtPk n (fun op => op == 2) = some (k, p) → v = s.unbox n k →
        (∀ r ∈ (v.ni n).probes, r.1 ≠ p.plane ∨ r.2.1 ≠ p.hdr.tag ∨ r.2.2 ≠ 0) → exec (.mgmtResponse n) s = .next (v.pktBad n))
      ∧ (s.hasNi n = true → s.mgmtPk n (fun op => decide (op ≤ 1)) = some (k, p) → v = s.unbox n k → v.plnState p.plane ≠ 3 →
        (v.ni n).mgmtIn = [] → v.cmx.acs = [] →
        (p.hdr.op = 1 → v.mgmtAuth p.hdr.src = false →
          exec (.mgmtReceive n) s = .next ((v.noteErr 4 (mgmtReq p) 6).mgmtAnswer n 0 p.hdr 0 6 false))
        ∧ ((p.hdr.op = 1 → v.mgmtAuth p.hdr.src = true) → niB n ≤ p.hdr.addr → p.hdr.addr < niB n + 0x4000 →
          exec (.mgmtReceive n) s = .next ((v.cmxIn 4 (some (n, 0, p.hdr)) (mgmtReq p) none).flushCmx))
        ∧ ((p.hdr.op = 1 → v.mgmtAuth p.hdr.src = true) → (p.hdr.addr < niB n ∨ niB n + 0x4000 ≤ p.hdr.addr) →
          exec (.mgmtReceive n) s = .next ((v.updNi n (fun x => { x with
            mgmtIn := x.mgmtIn ++ [(mgmtReq p, 0, p.hdr)] })).mgmtPump.flushCmx)))
      ∧ (∀ i, s.hasNi n = true → s.mgmtPk n (fun op => op == 2) = some (k, p) → v = s.unbox n k →
        i = (v.ni n).probes.findIdx (fun r => r.1 == p.plane && r.2.1 == p.hdr.tag && r.2.2 == 0) → i < (v.ni n).probes.length →
        exec (.mgmtResponse n) s = .next (v.setNi n { v.ni n with
          probes := listSet (v.ni n).probes i (fun r => (r.1, r.2.1, if (p.got.getD 8 0).toNat = 0 then 1 else 2)) }))
      ∧ (∀ w : BitVec 96, (s.dbgDis = true → exec (.dbgAcc w) s = .next { s with tap := { s.tap with ir := 3, out := s.tap.out ++ [0] } })
        ∧ (s.dbgDis = false → bitAt w.toNat 28 = false → ∀ last : CsrRsp, s.cmx.dbgOut.getLast? = some last →
          exec (.dbgAcc w) s = .next { s with tap := { s.tap with ir := 3, out := s.tap.out ++
            [last.code + 16 * b2n last.lb + 32 * b2n s.dbgBusy + 2 ^ 32 * last.data.toNat] } })
        ∧ (∀ q : CsrReq, s.dbgDis = false → bitAt w.toNat 28 = true → s.dbgBusy = false → s.flag dbgB F.DBG_STAT_TAP_ACC = true →
          s.rgState s.rom.homeRegion = 0 →
          q = { addr := bitsAt w.toNat 0 24, size := bitsAt w.toNat 24 2, wr := bitAt w.toNat 26, lock := bitAt w.toNat 27,
                data := BitVec.ofNat 64 (w.toNat / 2 ^ 32) } →
          ∃ v : State, { v with tap := s.tap } = s ∧ exec (.dbgAcc w) s = .next ((v.cmxIn 2 none q none).flushCmx))
        ∧ (∀ q : CsrReq, s.dbgDis = false → bitAt w.toNat 28 = true → s.dbgBusy = false → s.flag dbgB F.DBG_STAT_TAP_ACC = true →
          2 ≤ s.rgState s.rom.homeRegion → s.rgState s.rom.homeRegion ≤ 4 →
          q = { addr := bitsAt w.toNat 0 24, size := bitsAt w.toNat 24 2, wr := bitAt w.toNat 26, lock := bitAt w.toNat 27,
                data := BitVec.ofNat 64 (w.toNat / 2 ^ 32) } →
          ∃ v : State, { v with tap := s.tap } = s ∧ exec (.dbgAcc w) s = .next ((v.cmxIn 2 none q (some 7)).flushCmx))
        ∧ (s.dbgDis = false → bitAt w.toNat 28 = true → s.dbgBusy = true → ∀ last : CsrRsp, s.cmx.dbgOut.getLast? = some last →
          exec (.dbgAcc w) s = .next { s with tap := { s.tap with ir := 3, out := s.tap.out ++
            [last.code + 16 * b2n last.lb + 32 + 2 ^ 32 * last.data.toNat] } })
        ∧ (s.dbgDis = false → bitAt w.toNat 28 = true → s.dbgBusy = false → s.flag dbgB F.DBG_STAT_TAP_ACC = false →
          ∃ t, exec (.dbgAcc w) s = .next t ∧ t.flag dbgB F.DBG_STAT_TAP_ACC = true)))

/-- The winner of a phase requests the target, holds the highest level among those that do, and stands nearest the head of the
rotation list among its equals (R455). -/
def Obligations.PhaseWinnerHasHighestLevel : Prop :=
  ∀ (s : State) (t m : Nat), s.cmxWinner t = some m →
    m ∈ s.cmxRot t ∧ s.mayUse m t = true ∧ (∃ a ∈ s.cmx.acs, a.m = m ∧ a.tgt = t ∧ a.asks = true)
    ∧ ∀ k ∈ s.cmxRot t, s.mayUse k t = true → (∃ a ∈ s.cmx.acs, a.m = k ∧ a.tgt = t ∧ a.asks = true) →
      s.cmxLevel k t ≤ s.cmxLevel m t ∧ (s.cmxLevel k t = s.cmxLevel m t → (s.cmxRot t).idxOf m ≤ (s.cmxRot t).idxOf k)

/-- Register writes reach their registers; claims end.

A write by a master reaches its register (R19, R446, R453, R455, R458, R461, R463 to R465, R467, R468, R470, R471, R667). The commands that are
register writes are writes of 4 bytes, or of 8 for a route entry, to the register that they name; one that names a unit, entry or index that is
not there does nothing. A write that is performed puts its fields and does what the register does, and its master has the response OKAY; a
refused one changes nothing but the error record, and so does one to a unit that is asleep or in reset, a misaligned one, a narrow one, one
outside the master's reach or at an empty offset, and the one that ends a cut-off. A pair's low word is staged. Any write that finds its target
free is what the target does with it after its grant; a locked sequence opens or closes with it. A master that can present no access does
nothing.

CLAIM_RELEASE ends a claim as its owner would (R496, R500): MARK_EN, the trace, HIST_EN, REORDER or STAGE is written 0. It is BUSY
while time sync or Photo Finish owns the resource or migration staging holds its packets; a resource that does not exist is BAD_PARAM, and one
that is free stays so. -/
def Obligations.RegisterWritesAndClaims : Prop :=
  (∀ (s : State) (m n k : Nat) (v : Word) (u : Un) (blk : Nat → UK → Un) (dbg : Un) (w4 : Nat → Word → CsrReq),
      blk = (fun b x => { kind := x, base := b * 0x10000, target := b }) → dbg = { kind := .dbg, base := 0xC0000, target := 10 } →
      w4 = (fun off v => { addr := off, wr := true, size := 2, data := v.setWidth 64 }) →
      (s.hasNi n = true → exec (.histEnWrite m n v) s = exec (.registerWrite m (w4 (niB n + 0x404) (v))) s
        ∧ exec (.latMaxClr m n v) s = exec (.registerWrite m (w4 (niB n + 0x404) (v ||| 0x100#32))) s
        ∧ exec (.qShareWrite m n v) s = exec (.registerWrite m (w4 (niB n + 0x50C) (v))) s
        ∧ exec (.sampClr m n v) s = exec (.registerWrite m (w4 (niB n + 0x504) (v ||| 0x80000000#32))) s
        ∧ exec (.gateSwap m n v) s = exec (.registerWrite m (w4 (niB n + 0x700) (v ||| 1#32))) s
        ∧ exec (.gateCancel m n v) s = exec (.registerWrite m (w4 (niB n + 0x700) (v ||| 2#32))) s
        ∧ exec (.markEnWrite m n v) s = exec (.registerWrite m (w4 (niB n + 0x700) (v))) s
        ∧ exec (.reorderWrite m n v) s = exec (.registerWrite m (w4 (niB n + 0xD04) (v))) s
        ∧ exec (.migSwap m n v) s = exec (.registerWrite m (w4 (niB n + 0xE40) (v ||| 2#32))) s
        ∧ exec (.migStage m n v) s = exec (.registerWrite m (w4 (niB n + 0xE40) (v))) s
        ∧ exec (.migHold m n v) s = exec (.registerWrite m (w4 (niB n + 0xE40) (v))) s
        ∧ exec (.sbEnClear m n v) s = exec (.registerWrite m (w4 (niB n + 0x300) (v &&& 0xFFFFFFEF#32))) s
        ∧ exec (.sbLogClr m n v) s = exec (.registerWrite m (w4 (niB n + 0x318) (v ||| 0x40000000#32))) s
        ∧ (∀ j w, j < 16 → w < 2 → exec (.sc0RsvWrite m n j w v) s = exec (.registerWrite m (w4 (niB n + 0x450 + 8 * j + 4 * w) v)) s)
        ∧ (∀ j w, j < 16 → w < 2 → exec (.shaperWrite m n j w v) s = exec (.registerWrite m (w4 (niB n + 0x580 + 16 * j + 4 * w) v)) s))
      ∧ (s.hasNi n = false → exec (.histEnWrite m n v) s = .next s ∧ exec (.latMaxClr m n v) s = .next s ∧ exec (.qShareWrite m n v) s = .next s ∧ exec (.sampClr m n v) s = .next s ∧ exec (.gateSwap m n v) s = .next s ∧ exec (.gateCancel m n v) s = .next s ∧ exec (.markEnWrite m n v) s = .next s ∧ exec (.reorderWrite m n v) s = .next s ∧ exec (.migSwap m n v) s = .next s ∧ exec (.migStage m n v) s = .next s ∧ exec (.migHold m n v) s = .next s ∧ exec (.sbEnClear m n v) s = .next s ∧ exec (.sbLogClr m n v) s = .next s)
      ∧ (∀ j w, (s.hasNi n = false ∨ 16 ≤ j ∨ 2 ≤ w) → exec (.sc0RsvWrite m n j w v) s = .next s
        ∧ exec (.shaperWrite m n j w v) s = .next s)
      ∧ (exec (.nowCap m v) s = exec (.registerWrite m (w4 (timB + 0x10) (v ||| 1#32))) s
        ∧ exec (.skewClr m v) s = exec (.registerWrite m (w4 (timB + 0x10) (v ||| 2#32))) s
        ∧ exec (.elockSet m v) s = exec (.registerWrite m (w4 (timB) (v ||| 0x100#32))) s
        ∧ exec (.rstCtlRegion m v) s = exec (.registerWrite m (w4 (glbB + 0xC0) (v))) s
        ∧ exec (.rstNiGo m v) s = exec (.registerWrite m (w4 (glbB + 0xC4) (v ||| 0x80000000#32))) s
        ∧ exec (.firstLogClr m v) s = exec (.registerWrite m (w4 (evtB + 0x200) (v ||| 0x40000000#32))) s
        ∧ exec (.nextLogClr m v) s = exec (.registerWrite m (w4 (evtB + 0x210) (v ||| 0x40000000#32))) s
        ∧ exec (.crcCommitTake m v) s = exec (.registerWrite m (w4 (evtB + 0x804) (v &&& 0xFFFFFFFC#32 ||| 1#32))) s
        ∧ exec (.crcCommitGiven m v) s = exec (.registerWrite m (w4 (evtB + 0x804) (v ||| 3#32))) s
        ∧ exec (.trcEnWrite m v) s = exec (.registerWrite m (w4 (dbgB + 0x10) (v))) s
        ∧ exec (.testModeWrite m v) s = exec (.registerWrite m (w4 (dbgB + 4) (v))) s
        ∧ exec (.strRstWrite m v) s = exec (.registerWrite m (w4 (dbgB + 4) (v ||| 0x100#32))) s
        ∧ exec (.remapWrite m v) s = exec (.registerWrite m (w4 (cmxB) (v))) s
        ∧ exec (.loadStart m v) s = exec (.registerWrite m (w4 (strB + 0xC) (v ||| 1#32))) s
        ∧ exec (.loadData m v) s = exec (.registerWrite m (w4 (strB + 0x10) (v))) s
        ∧ exec (.loadGo m v) s = exec (.registerWrite m (w4 (strB + 0xC) (v ||| 2#32))) s
        ∧ exec (.wdogKick m v) s = exec (.registerWrite m (w4 (strB + 0x34) (v ||| 0x80000000#32))) s)
      ∧ (k < 4 → exec (.syncEnWrite m k v) s = exec (.registerWrite m (w4 (timB + 0x80 + 8 * k) (v))) s
        ∧ exec (.mbxDoorbell m k v) s = exec (.registerWrite m (w4 (strB + 0x200 + 16 * k) (v ||| 1#32))) s)
      ∧ (4 ≤ k → exec (.syncEnWrite m k v) s = .next s ∧ exec (.mbxDoorbell m k v) s = .next s)
      ∧ (∀ (e p : Nat) (x : BitVec 64),
        ((if n < 256 then s.hasNi n else s.hasSpan (n - 256)) = true → e < 260 → p < 2 → exec (.rtabRawWrite m n e p x) s =
          exec (.registerWrite m { addr := rtabB n e + 8 * p, wr := true, size := 3, data := x }) s)
        ∧ (((if n < 256 then s.hasNi n else s.hasSpan (n - 256)) = false ∨ 260 ≤ e ∨ 2 ≤ p) → exec (.rtabRawWrite m n e p x) s = .next s))
      ∧ (∀ q, exec (.registerWrite m q) s = exec (.registerWrite m { q with wr := true }) s
        ∧ (s.mayPresent m = false → exec (.registerWrite m q) s = .next s)
        ∧ (unitOf s.rom q.addr = none ∨ (∃ x, unitOf s.rom q.addr = some x ∧ pairAt x (q.addr - x.base) = false) →
          exec (.pairLowWrite m q) s = .next s)
        ∧ (∀ x, unitOf s.rom q.addr = some x → pairAt x (q.addr - x.base) = true →
          exec (.pairLowWrite m q) s = exec (.registerWrite m { q with size := 2 }) s)
        ∧ (∀ c, q.wr = true → s.CmxFree m → s.entry? m q = .error c → (∃ t : State, exec (.registerWrite m q) s = .next t ∧ t = (s.cmxIn m none q none).flushCmx ∧ t.cmx.acs = [])))
      ∧ (∀ (q : CsrReq) (g : State), q.wr = true → s.CmxFree m → m ∈ s.cmxRot u.target → s.entry? m q = .ok u → s.mayUse m u.target = true →
        g = (s.atTarget m u.target q).granting m u.target q →
        ((m, u.target) ∈ s.cmx.cuts → exec (.registerWrite m q) s = .next (({ g with cmx := { g.cmx with
            cuts := g.cmx.cuts.filter (fun e => e != (m, u.target)) } } : State).responded 9 (s.cmx.brk.contains u.target)))
        ∧ ((m, u.target) ∉ s.cmx.cuts →
          (∀ r, r = g.perform m u q → exec (.registerWrite m q) s = .next ((((r.1.closing m u.target (s.lockBit m q)).updCmx (fun c =>
            { c with acs := c.acs.map (fun b => if b.ser = s.cmx.next ∧ b.rsp.isNone = true then
              { b with rsp := some (r.2.1, r.2.2, s.cmx.brk.contains u.target) } else b) })).brokenNow u.target).flushCmx))
          ∧ (s.lockBit m q = false → s.lockOf u.target = none →
            (s.asleep u = true → exec (.registerWrite m q) s = .next (g.responded 7 (s.cmx.brk.contains u.target)))
            ∧ (s.asleep u = false →
              ((3 < q.size ∨ (q.addr - u.base) % 2 ^ q.size ≠ 0) → exec (.registerWrite m q) s = .next (g.responded 2 (s.cmx.brk.contains u.target)))
              ∧ (q.size < 2 → (q.addr - u.base) % 2 ^ q.size = 0 → u.kind ≠ .rom → u.kind ≠ .brom → u.kind ≠ .sram →
                regAt u ((q.addr - u.base) / 4 * 4) = true → exec (.registerWrite m q) s = .next (g.responded 1 (s.cmx.brk.contains u.target)))
              ∧ (q.size ≤ 3 → (q.addr - u.base) % 2 ^ q.size = 0 → (u.kind = .rom ∨ u.kind = .brom) →
                exec (.registerWrite m q) s = .next (g.responded 4 (s.cmx.brk.contains u.target)))))))
      ∧ (k < 4 →
      (s.hasNi n = true → u = niUnit n → s.Goes m u 0x404 v.toNat →
        exec (.histEnWrite m n v) s = .next (s.wrote m u 0x404 v.toNat))
      ∧ (s.hasNi n = true → u = niUnit n → s.Goes m u 0x404 (v ||| 0x100#32).toNat →
        exec (.latMaxClr m n v) s = .next (s.wrote m u 0x404 (v ||| 0x100#32).toNat))
      ∧ (s.hasNi n = true → u = niUnit n → s.Goes m u 0x50C v.toNat →
        exec (.qShareWrite m n v) s = .next (s.wrote m u 0x50C v.toNat))
      ∧ (s.hasNi n = true → u = niUnit n → s.Goes m u 0x504 (v ||| 0x80000000#32).toNat →
        exec (.sampClr m n v) s = .next (s.wrote m u 0x504 (v ||| 0x80000000#32).toNat))
      ∧ (s.hasNi n = true → u = niUnit n → s.Goes m u 0x700 (v ||| 1#32).toNat →
        exec (.gateSwap m n v) s = .next (s.wrote m u 0x700 (v ||| 1#32).toNat))
      ∧ (s.hasNi n = true → u = niUnit n → s.Goes m u 0x700 (v ||| 2#32).toNat →
        exec (.gateCancel m n v) s = .next (s.wrote m u 0x700 (v ||| 2#32).toNat))
      ∧ (s.hasNi n = true → u = niUnit n → s.Goes m u 0x700 v.toNat →
        exec (.markEnWrite m n v) s = .next (s.wrote m u 0x700 v.toNat))
      ∧ (s.hasNi n = true → u = niUnit n → s.Goes m u 0xD04 v.toNat →
        exec (.reorderWrite m n v) s = .next (s.wrote m u 0xD04 v.toNat))
      ∧ (s.hasNi n = true → u = niUnit n → s.Goes m u 0xE40 (v ||| 2#32).toNat →
        exec (.migSwap m n v) s = .next (s.wrote m u 0xE40 (v ||| 2#32).toNat))
      ∧ (s.hasNi n = true → u = niUnit n → s.Goes m u 0xE40 v.toNat →
        exec (.migStage m n v) s = .next (s.wrote m u 0xE40 v.toNat))
      ∧ (s.hasNi n = true → u = niUnit n → s.Goes m u 0xE40 v.toNat →
        exec (.migHold m n v) s = .next (s.wrote m u 0xE40 v.toNat))
      ∧ (s.hasNi n = true → u = niUnit n → s.Goes m u 0x300 (v &&& 0xFFFFFFEF#32).toNat →
        exec (.sbEnClear m n v) s = .next (s.wrote m u 0x300 (v &&& 0xFFFFFFEF#32).toNat))
      ∧ (s.hasNi n = true → u = niUnit n → s.Goes m u 0x318 (v ||| 0x40000000#32).toNat →
        exec (.sbLogClr m n v) s = .next (s.wrote m u 0x318 (v ||| 0x40000000#32).toNat))
      ∧ (s.Goes m (blk 2 .tim) 0x10 (v ||| 1#32).toNat →
        exec (.nowCap m v) s = .next (s.wrote m (blk 2 .tim) 0x10 (v ||| 1#32).toNat))
      ∧ (s.Goes m (blk 2 .tim) 0x10 (v ||| 2#32).toNat →
        exec (.skewClr m v) s = .next (s.wrote m (blk 2 .tim) 0x10 (v ||| 2#32).toNat))
      ∧ (s.Goes m (blk 2 .tim) 0 (v ||| 0x100#32).toNat →
        exec (.elockSet m v) s = .next (s.wrote m (blk 2 .tim) 0 (v ||| 0x100#32).toNat))
      ∧ (s.Goes m (blk 2 .tim) (0x80 + 8 * k) v.toNat →
        exec (.syncEnWrite m k v) s = .next (s.wrote m (blk 2 .tim) (0x80 + 8 * k) v.toNat))
      ∧ (s.Goes m (blk 0 .glb) 0xC0 v.toNat →
        exec (.rstCtlRegion m v) s = .next (s.wrote m (blk 0 .glb) 0xC0 v.toNat))
      ∧ (s.Goes m (blk 0 .glb) 0xC4 (v ||| 0x80000000#32).toNat →
        exec (.rstNiGo m v) s = .next (s.wrote m (blk 0 .glb) 0xC4 (v ||| 0x80000000#32).toNat))
      ∧ (s.Goes m (blk 5 .evt) 0x200 (v ||| 0x40000000#32).toNat →
        exec (.firstLogClr m v) s = .next (s.wrote m (blk 5 .evt) 0x200 (v ||| 0x40000000#32).toNat))
      ∧ (s.Goes m (blk 5 .evt) 0x210 (v ||| 0x40000000#32).toNat →
        exec (.nextLogClr m v) s = .next (s.wrote m (blk 5 .evt) 0x210 (v ||| 0x40000000#32).toNat))
      ∧ (s.Goes m (blk 5 .evt) 0x804 (v &&& 0xFFFFFFFC#32 ||| 1#32).toNat →
        exec (.crcCommitTake m v) s = .next (s.wrote m (blk 5 .evt) 0x804 (v &&& 0xFFFFFFFC#32 ||| 1#32).toNat))
      ∧ (s.Goes m (blk 5 .evt) 0x804 (v ||| 3#32).toNat →
        exec (.crcCommitGiven m v) s = .next (s.wrote m (blk 5 .evt) 0x804 (v ||| 3#32).toNat))
      ∧ (s.Goes m dbg 0x10 v.toNat →
        exec (.trcEnWrite m v) s = .next (s.wrote m dbg 0x10 v.toNat))
      ∧ (s.Goes m dbg 4 v.toNat →
        exec (.testModeWrite m v) s = .next (s.wrote m dbg 4 v.toNat))
      ∧ (s.Goes m dbg 4 (v ||| 0x100#32).toNat →
        exec (.strRstWrite m v) s = .next (s.wrote m dbg 4 (v ||| 0x100#32).toNat))
      ∧ (s.Goes m (blk 7 .cmx) 0 v.toNat →
        exec (.remapWrite m v) s = .next (s.wrote m (blk 7 .cmx) 0 v.toNat))
      ∧ (s.Goes m (blk 1 .str) 0xC (v ||| 1#32).toNat →
        exec (.loadStart m v) s = .next (s.wrote m (blk 1 .str) 0xC (v ||| 1#32).toNat))
      ∧ (s.Goes m (blk 1 .str) 0x10 v.toNat →
        exec (.loadData m v) s = .next (s.wrote m (blk 1 .str) 0x10 v.toNat))
      ∧ (s.Goes m (blk 1 .str) 0xC (v ||| 2#32).toNat →
        exec (.loadGo m v) s = .next (s.wrote m (blk 1 .str) 0xC (v ||| 2#32).toNat))
      ∧ (s.Goes m (blk 1 .str) 0x34 (v ||| 0x80000000#32).toNat →
        exec (.wdogKick m v) s = .next (s.wrote m (blk 1 .str) 0x34 (v ||| 0x80000000#32).toNat))
      ∧ (s.Goes m (blk 1 .str) (0x200 + 16 * k) (v ||| 1#32).toNat →
        exec (.mbxDoorbell m k v) s = .next (s.wrote m (blk 1 .str) (0x200 + 16 * k) (v ||| 1#32).toNat)))
      ∧ (∀ j w, s.hasNi n = true → u = niUnit n → j < 16 → w < 2 →
        (s.Goes m u (0x450 + 8 * j + 4 * w) v.toNat → exec (.sc0RsvWrite m n j w v) s = .next (s.wrote m u (0x450 + 8 * j + 4 * w) v.toNat))
        ∧ (s.Goes m u (0x580 + 16 * j + 4 * w) v.toNat → exec (.shaperWrite m n j w v) s = .next (s.wrote m u (0x580 + 16 * j + 4 * w) v.toNat)))
      ∧ (∀ (rel : Nat) (q : CsrReq) (g : State), q = w4 (u.base + rel) v → g = s.atTarget m u.target q →
        (s.Goes m u rel v.toNat → exec (.registerWrite m q) s = .next (s.wrote m u rel v.toNat))
        ∧ (s.Reaches m u rel → rel % 4 = 0 → pairAt u rel = false → g.refuses m u [(rel, v.toNat)] = true →
          exec (.registerWrite m q) s = .next (g.responded 3 (s.cmx.brk.contains u.target)))
        ∧ (s.Reaches m u rel → rel % 4 = 0 → pairAt u rel = false → g.refuses m u [(rel, v.toNat)] = false → s.absent u rel = true →
          exec (.registerWrite m q) s = .next (g.responded 0 (s.cmx.brk.contains u.target)))
        ∧ (s.Reaches m u rel → rel % 4 = 0 → pairAt u rel = true →
          exec (.pairLowWrite m q) s = .next ((g.setStage m u.target (some (u.base + rel, v, s.clock))).responded 0
            (s.cmx.brk.contains u.target)))))
  ∧ (∀ (s : State) (x i : Nat) (c : Cmd), s.Issued x 0x03 [(0, 2), (8, 8)] c → i = c.p 8 8 →
      (s.claimOk (c.p 0 2) i = false → exec (.claimRelease x) s = .next ((s.begin x).reply x 3 []))
      ∧ (s.claimOk (c.p 0 2) i = true →
        (c.p 0 2 = 0 ∧ ((s.claimOf 0 i).1 = 1 ∨ (s.claimOf 0 i).1 = 2) ∨ c.p 0 2 = 1 ∧ (s.claimOf 1 i).1 = 1
          ∨ c.p 0 2 = 2 ∧ (s.claimOf 2 i).1 = 2 ∧ s.flag (niB i) F.NI_MIG_CTL_HOLD = true) →
        exec (.claimRelease x) s = .next ((s.begin x).reply x 6 []))
      ∧ (s.claimOk (c.p 0 2) i = true → (s.claimOf (c.p 0 2) i).1 = 0 → exec (.claimRelease x) s = .next ((s.begin x).reply x 0 []))
      ∧ (s.claimOk (c.p 0 2) i = true → c.p 0 2 = 0 → (s.claimOf 0 i).1 = 3 →
        exec (.claimRelease x) s = .next (((s.begin x).markEn (s.pinNi i) false).reply x 0 []))
      ∧ (s.claimOk (c.p 0 2) i = true → c.p 0 2 = 0 → (s.claimOf 0 i).1 = 4 → exec (.claimRelease x) s = .next ((s.begin x).trcStop.reply x 0 []))
      ∧ (s.claimOk (c.p 0 2) i = true → c.p 0 2 = 1 → (s.claimOf 1 i).1 = 2 → exec (.claimRelease x) s = .next (((s.begin x).histEn i false).reply x 0 []))
      ∧ (s.claimOk (c.p 0 2) i = true → c.p 0 2 = 2 → (s.claimOf 2 i).1 = 1 → exec (.claimRelease x) s = .next (((s.begin x).reorder i false).reply x 0 []))
      ∧ (s.claimOk (c.p 0 2) i = true → c.p 0 2 = 2 → (s.claimOf 2 i).1 = 2 → s.flag (niB i) F.NI_MIG_CTL_HOLD = false →
        exec (.claimRelease x) s = .next (((s.begin x).migStage i false).reply x 0 [])))

/-- What a write leaves in its register (R19): a field that is writable, not write-only, not protected and not set by the register's
own action takes the written value, a W1C field loses the bits written 1; every other field keeps its value. -/
def Obligations.WrittenFieldsFollowTheirAccess : Prop :=
  ∀ (s : State) (m rel v : Nat) (u : Un) (x : RSpec) (f : FSpec), specAt rel (regsOf u.kind) = some x → f ∈ x.fields →
    bitsAt ((s.putReg m u rel v).word (u.base + rel)).toNat f.lo f.w =
      (if f.writable = true ∧ f.acc ≠ .wo ∧ s.guarded m u rel f = false ∧ bitAt (actBits u.kind rel) f.lo = false then
        f.written (bitsAt (s.word (u.base + rel)).toNat f.lo f.w) (bitsAt v f.lo f.w) % 2 ^ f.w
      else bitsAt (s.word (u.base + rel)).toNat f.lo f.w)

/-- What register writes do.

Raw writes (R137, R228, R267): a route entry of an NI or a Span port takes the words, with UNCHK set where another master than the
Starter writes it; a wired entry keeps its own; an SC0 reservation and a shaper lose GRANTED to another master, and keep it under the
Starter's write.

What writes to an NI's registers do (R202, R223, R246, R247, R264, R278 to R280, R282, R284, R407, R430 to R433), an enable written 1 and
written 0, a claim that wins and one that fails. RegisterWritesReachTheirRegister gives the whole state after each.

What writes to the home layer's registers do (R289, R317, R322, R472, R476, R484, R502, R558, R608, R614, R624, R626, R629), with
`blk` the block that each is in: what each names takes place where its state allows it, and else nothing does.
RegisterWritesReachTheirRegister gives the whole state after each. -/
def Obligations.RegisterWritesAct : Prop :=
  (∀ (s : State) (m n : Nat) (u : Un), 
      (∀ e w x rel b : Nat, (n < 256 ∧ s.hasNi n = true ∧ u = niUnit n ∧ rel = 0x1000 + 16 * e + 8 * w
          ∨ b = n - 256 ∧ 256 ≤ n ∧ s.hasSpan b = true ∧ u = { kind := .sp, i := b, base := spB b, target := 592 + b }
            ∧ rel = 0x4000 + 16 * e + 8 * w) →
        e < 260 → w < 2 → s.Reaches m u rel → x < 2 ^ 64 →
        (entryWired s.rom n e = false → s.refuses m u [(rel, x % 2 ^ 32), (rel + 4, x / 2 ^ 32)] = false →
          (∃ t : State, exec (.rtabRawWrite m n e w (BitVec.ofNat 64 x)) s = .next t ∧ (m ≠ 1 → (t.entry n e).unchk = true)
            ∧ (w = 0 → (t.entry n e).path = x ∧ (t.entry n e).valid = (s.entry n e).valid)
            ∧ (w = 1 → (t.entry n e).path = (s.entry n e).path ∧ (t.entry n e).valid = bitAt x 5
              ∧ (t.entry n e).nhops = bitsAt x 0 5)))
        ∧ (entryWired s.rom n e = true → s.refuses m u [(rel, x % 2 ^ 32), (rel + 4, x / 2 ^ 32)] = false →
          (∃ t : State, exec (.rtabRawWrite m n e w (BitVec.ofNat 64 x)) s = .next t ∧ t.entry n e = s.entry n e)))
      ∧ (s.hasNi n = true → u = niUnit n →
        (∀ (j w : Nat) (v : Word), j < 16 → w < 2 → s.Goes m u (0x450 + 8 * j + 4 * w) (BitVec.toNat v) →
          (∃ t : State, exec (.sc0RsvWrite m n j w v) s = .next t ∧ (m ≠ 1 → t.flag (niB n) (F.NI_SC0_RSV0_GRANTED.ix j) = false)
            ∧ (m = 1 → t.flag (niB n) (F.NI_SC0_RSV0_GRANTED.ix j) = s.flag (niB n) (F.NI_SC0_RSV0_GRANTED.ix j))))
        ∧ (∀ (k w : Nat) (v : Word), k < 16 → k ≠ 8 → w < 2 → s.Goes m u (0x580 + 16 * k + 4 * w) (BitVec.toNat v) →
          (∃ t : State, exec (.shaperWrite m n k w v) s = .next t ∧ (m ≠ 1 → t.flag (niB n) (shpGranted k) = false)
            ∧ (m = 1 → t.flag (niB n) (shpGranted k) = s.flag (niB n) (shpGranted k))))))
  ∧ (∀ (s : State) (m n : Nat) (v : Word) (u : Un), s.hasNi n = true → u = niUnit n →
      (s.Goes m u 0x404 (v ||| 0x100#32).toNat → (∃ t : State, exec (.latMaxClr m n v) s = .next t ∧ t.rd (niB n) F.NI_LAT_MAX_VALUE = 0))
      ∧ (s.Goes m u 0x404 v.toNat → bitAt v.toNat 0 = false → (∃ t : State, exec (.histEnWrite m n v) s = .next t ∧ t.flag (niB n) F.NI_LATE_CFG_HIST_EN = false ∧ (t.ni n).timer = (s.ni n).timer ∧ (t.ni n).histRel = decide ((s.ni n).timer = 2)))
      ∧ (s.Goes m u 0x404 v.toNat → bitAt v.toNat 0 = true → (∃ t : State, exec (.histEnWrite m n v) s = .next t ∧ t.flag (niB n) F.NI_LATE_CFG_HIST_EN = decide ((s.ni n).timer ≠ 1)
          ∧ (t.ni n).timer = (if (s.ni n).timer = 1 then 1 else 2)))
      ∧ (∀ q, s.Goes m u 0x50C v.toNat → s.qSel n = some q → ((s.ni n).q q).pkts ≠ [] → (∃ t : State, exec (.qShareWrite m n v) s = .next t ∧ ((t.ni n).q q).pend = some (bitsAt v.toNat 0 12, bitsAt v.toNat 16 12) ∧ ((t.ni n).q q).pkts = ((s.ni n).q q).pkts))
      ∧ (s.Goes m u 0x50C v.toNat → s.qSel n = none → (∃ t : State, exec (.qShareWrite m n v) s = .next t ∧ t.ni n = s.ni n))
      ∧ (∀ q, s.Goes m u 0x50C v.toNat → s.qSel n = some q → ((s.ni n).q q).pkts = [] → (∃ t : State, exec (.qShareWrite m n v) s = .next t ∧ (t.ni n).q q = ({ (s.ni n).q q with pend := some (bitsAt v.toNat 0 12, bitsAt v.toNat 16 12) } : Queue).refill))
      ∧ (s.Goes m u 0x504 (v ||| 0x80000000#32).toNat → (∃ t : State, exec (.sampClr m n v) s = .next t ∧ ∀ q, t.qSel n = some q →
          ((t.ni n).q q).sdMax = 0 ∧ ((t.ni n).q q).dlMax = 0))
      ∧ (s.Goes m u 0x700 (v ||| 1#32).toNat → bitAt v.toNat 1 = false → s.flag (niB n) F.NI_GATE_STAT_PENDING = false →
          (s.gateCheck n = 0 → (∃ t : State, exec (.gateSwap m n v) s = .next t ∧ t.flag (niB n) F.NI_GATE_STAT_PENDING = true
            ∧ (t.ni n).gatePend = some (s.gateStart n (s.wholeNs s.rootStamp))))
          ∧ (s.gateCheck n ≠ 0 → (∃ t : State, exec (.gateSwap m n v) s = .next t ∧ t.flag (niB n) F.NI_GATE_STAT_PENDING = false
            ∧ t.flag (niB n) F.NI_GATE_STAT_SWAP_ERR = true ∧ t.rd (niB n) F.NI_GATE_STAT_ERR_CODE = s.gateCheck n)))
      ∧ (s.Goes m u 0x700 (v ||| 2#32).toNat → bitAt v.toNat 0 = false → (∃ t : State, exec (.gateCancel m n v) s = .next t ∧ t.flag (niB n) F.NI_GATE_STAT_PENDING = false ∧ (t.ni n).gatePend = none))
      ∧ (∀ k, s.Goes m u 0x700 v.toNat → bitsAt v.toNat 0 2 = 0 → bitAt v.toNat 8 = true → k = bitsAt v.toNat 9 2 →
          s.flag (niB n) F.NI_GATE_CTL_MARK_EN = false → s.pinOwner k = 0 → n < 256 → (∃ t : State, exec (.markEnWrite m n v) s = .next t ∧ t.flag (niB n) F.NI_GATE_CTL_MARK_EN = true ∧ t.pinOwner k = 3 ∧ t.pinNi k = n))
      ∧ (∀ k, s.Goes m u 0x700 v.toNat → bitsAt v.toNat 0 2 = 0 → bitAt v.toNat 8 = true → k = bitsAt v.toNat 9 2 →
          s.flag (niB n) F.NI_GATE_CTL_MARK_EN = false → s.pinFree k 3 n = false → (∃ t : State, exec (.markEnWrite m n v) s = .next t ∧ t.flag (niB n) F.NI_GATE_CTL_MARK_EN = false ∧ t.pinOwner k = s.pinOwner k))
      ∧ (s.Goes m u 0x700 v.toNat → bitsAt v.toNat 0 2 = 0 → bitAt v.toNat 8 = false → (∃ t : State, exec (.markEnWrite m n v) s = .next t ∧ t.flag (niB n) F.NI_GATE_CTL_MARK_EN = false ∧ ∀ k, k < 4 → s.pinOwner k = 3 → s.pinNi k = n → t.pinOwner k = 0))
      ∧ (s.Goes m u 0x700 (v ||| 1#32).toNat → bitAt v.toNat 1 = false → s.flag (niB n) F.NI_GATE_STAT_PENDING = true →
          (∃ t : State, exec (.gateSwap m n v) s = .next t ∧ t.flag (niB n) F.NI_GATE_STAT_PENDING = true ∧ (t.ni n).gatePend = (s.ni n).gatePend))
      ∧ (s.Goes m u 0xD04 v.toNat → bitAt v.toNat 0 = true → (s.ni n).reseqOwner = 2 → s.claimedNow (reseqRes n) = true →
          (∃ t : State, exec (.reorderWrite m n v) s = .next t ∧ t.flag (niB n) F.NI_RSQ_CTL_REORDER = true ∧ (t.ni n).reseqOwner = 1
            ∧ t.flag (niB n) F.NI_MIG_CTL_STAGE = false))
      ∧ (s.Goes m u 0xD04 v.toNat → s.claimedNow (reseqRes n) = false → (∃ t : State, exec (.reorderWrite m n v) s = .next t ∧ t.flag (niB n) F.NI_RSQ_CTL_REORDER = (bitAt v.toNat 0 && (s.ni n).reseqOwner != 2)
          ∧ (t.ni n).reseqOwner = (if (s.ni n).reseqOwner = 2 then 2 else b2n (bitAt v.toNat 0))))
      ∧ (s.Goes m u 0xE40 (v ||| 2#32).toNat → (∃ t : State, exec (.migSwap m n v) s = .next t ∧ (t.ni n).migF = (s.ni n).migA ∧ (t.ni n).migA = 0))
      ∧ (s.Goes m u 0xE40 v.toNat → bitsAt v.toNat 1 2 = 2 → bitAt v.toNat 3 = false → s.flag (niB n) F.NI_MIG_CTL_HOLD = false →
          (s.ni n).reseqOwner = 0 → (∃ t : State, exec (.migStage m n v) s = .next t ∧ (t.ni n).reseqOwner = 2
            ∧ t.flag (niB n) F.NI_MIG_CTL_STAGE = true ∧ t.flag (niB n) F.NI_MIG_CTL_HOLD = false))
      ∧ (s.Goes m u 0xE40 v.toNat → bitsAt v.toNat 1 3 = 2 → s.flag (niB n) F.NI_MIG_CTL_HOLD = false → (s.ni n).reseqOwner = 1 →
          (∃ t : State, exec (.migStage m n v) s = .next t ∧ (t.ni n).reseqOwner = 1
            ∧ t.flag (niB n) F.NI_MIG_CTL_STAGE = s.flag (niB n) F.NI_MIG_CTL_STAGE))
      ∧ (s.Goes m u 0xE40 v.toNat → bitsAt v.toNat 1 3 = 0 → (s.ni n).reseqOwner = 2 → s.flag (niB n) F.NI_MIG_CTL_HOLD = false →
          (∃ t : State, exec (.migStage m n v) s = .next t ∧ (t.ni n).reseqOwner = 0 ∧ t.flag (niB n) F.NI_MIG_CTL_STAGE = false))
      ∧ (s.Goes m u 0xE40 v.toNat → bitAt v.toNat 1 = false → bitAt v.toNat 3 = false → (∃ t : State, exec (.migHold m n v) s = .next t ∧ t.flag (niB n) F.NI_MIG_CTL_HOLD = false ∧ (t.ni n).aqq = (s.ni n).migHeld ++ (s.ni n).aqq ∧ (t.ni n).migHeld = []))
      ∧ (s.Goes m u 0xE40 v.toNat → bitsAt v.toNat 1 3 = 6 → s.flag (niB n) F.NI_MIG_CTL_STAGE = true →
          (∃ t : State, exec (.migHold m n v) s = .next t ∧ t.flag (niB n) F.NI_MIG_CTL_HOLD = true))
      ∧ (s.Goes m u 0x300 (v &&& 0xFFFFFFEF#32).toNat → (∃ t : State, exec (.sbEnClear m n v) s = .next t ∧ t.flag (niB n) F.NI_ORD_CFG_SB_EN = false ∧ t.ni n = s.ni n ∧ ∀ op sc d, t.sbEnters n op sc d = false))
      ∧ (s.Goes m u 0x318 (v ||| 0x40000000#32).toNat → (∃ t : State, exec (.sbLogClr m n v) s = .next t ∧ t.flag (niB n) F.NI_SB_LOG_INFO_VALID = false)))
  ∧ (∀ (s : State) (m : Nat) (v : Word) (blk : Nat → UK → Un), blk = (fun b k => { kind := k, base := b * 0x10000, target := b }) →
      (s.Goes m (blk 2 .tim) 0x10 (v ||| 1#32).toNat → (∃ t : State, exec (.nowCap m v) s = .next t ∧ t.rd timB F.TIM_NOW_STAMP_LO_STAMP + 2 ^ 32 * t.rd timB F.TIM_NOW_STAMP_HI_STAMP = s.rootStamp.toNat))
      ∧ (s.Goes m (blk 2 .tim) 0x10 (v ||| 2#32).toNat → (∃ t : State, exec (.skewClr m v) s = .next t ∧ t.rd timB F.TIM_SKEW_MAX = 0))
      ∧ (s.Goes m (blk 2 .tim) 0 (v ||| 0x100#32).toNat → (∃ t : State, exec (.elockSet m v) s = .next t ∧ t.flag timB F.TIM_CTL_ELOCK = true))
      ∧ (∀ k, k < 4 → s.Goes m (blk 2 .tim) (0x80 + 8 * k) v.toNat → bitAt v.toNat 0 = true → (∃ t : State, exec (.syncEnWrite m k v) s = .next t ∧ t.flag timB (F.TIM_EVT0_SYNC_EN.ix k) = true ∧ t.pinOwner k = 1
          ∧ (2 ≤ s.pinOwner k → t.flag strB (F.STR_CLAIM_PIN_PREEMPT.ix k) = true)))
      ∧ (∀ k, k < 4 → s.Goes m (blk 2 .tim) (0x80 + 8 * k) v.toNat → bitAt v.toNat 0 = false → (∃ t : State, exec (.syncEnWrite m k v) s = .next t ∧ t.flag timB (F.TIM_EVT0_SYNC_EN.ix k) = false ∧ t.pinOwner k = (if s.pinOwner k = 1 then 0 else s.pinOwner k)))
      ∧ (∀ g, s.Goes m (blk 0 .glb) 0xC0 v.toNat → v.toNat = 2 ^ g → s.hasRegion g = true → g ≠ s.rom.homeRegion →
          (∃ t : State, exec (.rstCtlRegion m v) s = .next t ∧ (t.rg g).held = true ∧ (t.rg g).wake = 4))
      ∧ (∀ n, s.Goes m (blk 0 .glb) 0xC4 (v ||| 0x80000000#32).toNat → n = bitsAt v.toNat 0 8 → s.hasNi n = true →
          (∃ t : State, exec (.rstNiGo m v) s = .next t ∧ (t.port (.ni 0 n)).dead = true ∧ (t.port (.ni 1 n)).dead = true
            ∧ (t.ni n).up = false ∧ (t.ni n).tags = []))
      ∧ (s.Goes m (blk 0 .glb) 0xC4 (v ||| 0x80000000#32).toNat → s.hasNi (bitsAt v.toNat 0 8) = false →
          (∃ t : State, exec (.rstNiGo m v) s = .next t ∧ t.nis = s.nis ∧ t.ports = s.ports))
      ∧ (s.Goes m (blk 5 .evt) 0x200 (v ||| 0x40000000#32).toNat → (∃ t : State, exec (.firstLogClr m v) s = .next t ∧ t.flag evtB F.EVT_FIRST_INFO_VALID = false))
      ∧ (s.Goes m (blk 5 .evt) 0x210 (v ||| 0x40000000#32).toNat → (∃ t : State, exec (.nextLogClr m v) s = .next t ∧ t.flag evtB F.EVT_NEXT_INFO_VALID = false))
      ∧ (s.Goes m (blk 5 .evt) 0x804 (v &&& 0xFFFFFFFC#32 ||| 1#32).toNat → (∃ t : State, exec (.crcCommitTake m v) s = .next t ∧ t.scan.given = false
          ∧ t.flag evtB F.EVT_STAT_COMMIT_PEND = true ∧ t.flag evtB F.EVT_STAT_PASS_BUSY = true ∧ t.rd evtB F.EVT_STAT_MM_CNT = 0))
      ∧ (s.Goes m (blk 5 .evt) 0x804 (v ||| 3#32).toNat → (∃ t : State, exec (.crcCommitGiven m v) s = .next t ∧ t.scan.given = true
          ∧ t.flag evtB F.EVT_STAT_COMMIT_PEND = true ∧ t.rd evtB F.EVT_CRC_REF_REF = s.rd evtB F.EVT_CRC_REF_REF))
      ∧ (∀ d : Un, d = { kind := .dbg, base := 0xC0000, target := 10 } →
          (s.Goes m d 0x10 v.toNat → bitsAt v.toNat 0 3 = 1 → s.flag dbgB F.DBG_TRC_CTL_EN = false → (∃ t : State, exec (.trcEnWrite m v) s = .next t ∧ t.flag dbgB F.DBG_TRC_CTL_EN = true ∧ t.trcRun = true))
          ∧ (s.Goes m d 4 v.toNat → (m = 1 ∨ m = 2) → bitsAt v.toNat 0 2 = 1 → bitAt v.toNat 8 = false → s.rd dbgB F.DBG_STAT_TEST = 0 →
            (∃ t : State, exec (.testModeWrite m v) s = .next t ∧ t.rd dbgB F.DBG_STAT_TEST = 1))
          ∧ (s.Goes m d 0x10 v.toNat → bitAt v.toNat 0 = false → s.flag dbgB F.DBG_TRC_CTL_EN = true → (∃ t : State, exec (.trcEnWrite m v) s = .next t ∧ t.flag dbgB F.DBG_TRC_CTL_EN = false ∧ t.trcRun = false ∧ ∀ k, k < 4 → t.pinOwner k ≠ 4))
          ∧ (s.Goes m d 0x10 v.toNat → bitAt v.toNat 0 = s.flag dbgB F.DBG_TRC_CTL_EN → (∃ t : State, exec (.trcEnWrite m v) s = .next t ∧ t.trcRun = s.trcRun ∧ t.flag dbgB F.DBG_TRC_CTL_EN = s.flag dbgB F.DBG_TRC_CTL_EN))
          ∧ (s.Goes m d 4 v.toNat → bitAt v.toNat 8 = false → (m ≠ 1 ∧ m ≠ 2 ∨ s.rd dbgB F.DBG_STAT_TEST = 2 ∨ bitsAt v.toNat 0 2 = 3
              ∨ bitsAt v.toNat 0 2 = s.rd dbgB F.DBG_STAT_TEST) →
            (∃ t : State, exec (.testModeWrite m v) s = .next t ∧ t.rd dbgB F.DBG_STAT_TEST = s.rd dbgB F.DBG_STAT_TEST ∧ t.trc = s.trc ∧ t.nis = s.nis))
          ∧ (s.Goes m d 4 v.toNat → (m = 1 ∨ m = 2) → bitsAt v.toNat 0 2 = 0 → bitAt v.toNat 8 = false → s.rd dbgB F.DBG_STAT_TEST = 1 →
            (∃ t : State, exec (.testModeWrite m v) s = .next t ∧ t.rd dbgB F.DBG_STAT_TEST = 0 ∧ t.rd dbgB F.DBG_TEST_CTL_MODE = 0))
          ∧ (s.Goes m d 4 (v ||| 0x100#32).toNat → (∃ t : State, exec (.strRstWrite m v) s = .next t ∧ t.cmds = [] ∧ t.rd strB F.STR_BOOT_STATE = 0)))
      ∧ (s.Goes m (blk 7 .cmx) 0 v.toNat → (∃ t : State, exec (.remapWrite m v) s = .next t ∧ t.flag cmxB F.CMX_CTL_REMAP = bitAt v.toNat 0))
      ∧ (s.Goes m (blk 1 .str) 0xC (v ||| 1#32).toNat → bitAt v.toNat 1 = false → (s.rd strB F.STR_BOOT_STATE = 1 ∨
          s.rd strB F.STR_BOOT_STATE = 4) → (∃ t : State, exec (.loadStart m v) s = .next t ∧ t.rd strB F.STR_BOOT_STATE = 1 ∧ t.rd strB F.STR_LOAD_CTL_PTR = 0))
      ∧ (s.Goes m (blk 1 .str) 0xC (v ||| 1#32).toNat → bitAt v.toNat 1 = false → s.rd strB F.STR_BOOT_STATE ≠ 1 →
          s.rd strB F.STR_BOOT_STATE ≠ 4 → (∃ t : State, exec (.loadStart m v) s = .next t ∧ t.rd strB F.STR_BOOT_STATE = s.rd strB F.STR_BOOT_STATE
            ∧ t.rd strB F.STR_LOAD_CTL_PTR = s.rd strB F.STR_LOAD_CTL_PTR))
      ∧ (∀ i p, s.Goes m (blk 1 .str) 0x10 v.toNat → p = s.rd strB F.STR_LOAD_CTL_PTR → i < 4 → (∃ t : State, exec (.loadData m v) s = .next t ∧ mget (fun _ => 0) t.starter.sram ((p + i) % 0x40000) = BitVec.ofNat 8 (v.toNat / 2 ^ (8 * i)) ∧ t.rd strB F.STR_LOAD_CTL_PTR = (p + 4) % 2 ^ 18))
      ∧ (s.Goes m (blk 1 .str) 0xC (v ||| 2#32).toNat → bitAt v.toNat 0 = false → s.rd strB F.STR_BOOT_STATE = 1 →
          (∃ t : State, exec (.loadGo m v) s = .next t ∧ t.rd strB F.STR_BOOT_STATE = 2))
      ∧ (s.Goes m (blk 1 .str) 0x34 (v ||| 0x80000000#32).toNat → (∃ t : State, exec (.wdogKick m v) s = .next t ∧ t.starter.wdog = s.clock))
      ∧ (∀ k, k < 4 → s.Goes m (blk 1 .str) (0x200 + 16 * k) (v ||| 1#32).toNat → s.rd strB (F.STR_MBX_BUSY.ix k) = 0 →
          (∃ t : State, exec (.mbxDoorbell m k v) s = .next t ∧ t.rd strB (F.STR_MBX_BUSY.ix k) = 1 ∧ t.cmdQ.length = s.cmdQ.length + 1
            ∧ t.cmdNext = s.cmdNext + 1))
      ∧ (∀ k, k < 4 → s.Goes m (blk 1 .str) (0x200 + 16 * k) (v ||| 1#32).toNat → s.rd strB (F.STR_MBX_BUSY.ix k) = 1 →
          (∃ t : State, exec (.mbxDoorbell m k v) s = .next t ∧ t.flag strB (F.STR_MBX_OVERRUN.ix k) = true ∧ t.cmdQ = s.cmdQ ∧ t.cmds = s.cmds)))

/-- Causes and logs (R595, R602, R603): an occurrence sets its cause bit; one of severity RECOVERABLE or worse is counted and goes to
the FIRST log while that is empty, else to the NEXT log. What an occurrence brings beside its event (counts, a plane fault of R410, the end of the
replays in progress at an error of the heat journal and a core reset at one of Starter SRAM, both of R593) is `causeMore`, the model's choice for
CAUSE_SET (log entry 110). A source or cause that there is not changes nothing. -/
def Obligations.OccurrenceSetsItsCauseAndIsLogged : Prop :=
  ∀ (s : State) (k j i : Nat), ((s.srcOf k j = none ∨ causeOf k i = false) → exec (.causeSet k j i) s = .next s)
    ∧ ∀ x : Src, s.srcOf k j = some x → causeOf k i = true →
    exec (.causeSet k j i) s = .next ((s.raise x i).causeMore k j i)
    ∧ bitAt ((s.raise x i).rd x.base x.cause) i = true
    ∧ (s.rd evtB (F.EVT_ROUTE_MSG_EN.ix x.num) = 0 → ∀ t, t = s.raise x i →
      (x.sev i < 2 → t = s.setBit x.base x.cause i)
      ∧ (2 ≤ x.sev i → t.rd evtB F.EVT_LOG_CNT_COUNT = min (s.rd evtB F.EVT_LOG_CNT_COUNT + 1) (2 ^ 32 - 1)
        ∧ (s.flag evtB F.EVT_FIRST_INFO_VALID = false → t.flag evtB F.EVT_FIRST_INFO_VALID = true
          ∧ t.rd evtB F.EVT_FIRST_INFO_SOURCE = x.num ∧ t.rd evtB F.EVT_FIRST_INFO_CAUSE = i
          ∧ t.rd evtB F.EVT_FIRST_INFO_SEV = x.sev i ∧ t.word64 (evtB + 0x208) = s.rootStamp.toNat)
        ∧ (s.flag evtB F.EVT_FIRST_INFO_VALID = true → t.flag evtB F.EVT_NEXT_INFO_VALID = true
          ∧ t.rd evtB F.EVT_NEXT_INFO_SOURCE = x.num ∧ t.rd evtB F.EVT_NEXT_INFO_CAUSE = i
          ∧ t.word64 (evtB + 0x200) = s.word64 (evtB + 0x200))))
    ∧ (512 ≤ k → k < 576 → i = 1 → (∃ t : State, exec (.causeSet k j i) s = .next t ∧ t.flag strB (if k < 544 then F.STR_PLN_STAT_FAULT_A else F.STR_PLN_STAT_FAULT_B) = true
        ∧ t.planeFaults = s.planeFaults ++ [((k - 512) / 32, 2)]))
    ∧ (k = 638 → (i = 0 → exec (.causeSet k j i) s = .next (s.raise x i).journalBad)
      ∧ (i = 1 → exec (.causeSet k j i) s = .next (((s.raise x i).glEvent 6 2).coreReset)))

/-- INT_OUT (R597, R598): a line is high exactly when some source that is routed to it with INT_EN is asserted; while the home region is in
IDLE or SLEEP the lines keep the levels that they had, and in DEEP_SLEEP or OFF every line is low. A region in WAKING before its supply is up, or
that steps, shows what its state before did: the model's choice (log entry 140). -/
def Obligations.LineIsHighForItsAssertedSources : Prop :=
  ∀ (s : State) (l st e : Nat) (r : Rg), l < 16 → st = s.rd pcrB (F.PCR_RG_STAT_STATE.ix s.rom.homeRegion) → r = s.rg s.rom.homeRegion →
    e = (if st = 7 ∨ st = 6 ∧ 1 ≤ r.wake ∧ r.wake ≤ 3 then r.prev else st) →
    ((e = 1 ∨ e = 2) → s.intOut = s.intKept)
    ∧ ((e = 3 ∨ e = 4) → s.intOut = 0)
    ∧ ((e = 0 ∨ 5 ≤ e) → (bitAt s.intOut l = true ↔
      ∃ k, k < 640 ∧ s.rd evtB (F.EVT_ROUTE_INT_EN.ix k) = 1 ∧ s.rd evtB (F.EVT_ROUTE_LINE.ix k) = l ∧ s.asserted k = true))

/-- A step takes the command at the front of the queue and is that command's effect on the state with the queue's rest. -/
def Obligations.StepRunsTheFrontCommand : Prop :=
  ∀ (s : State) (c : Instr), step { s with pending := c :: s.pending } = exec c s

/-- With no command waiting, a cycle of the Time carrier passes: the model's choice (log entry 2). Between markers the root's Fabric Time
grows by the increment in force, the 1,024th cycle sends a marker, and without the carrier only time passes. The region entries that the cycle
takes to edge Q + 5 arrive with it; with none on its way nothing else happens. -/
def Obligations.EmptyQueuePassesACarrierCycle : Prop :=
  ∀ s : State, s.pending = [] →
    (s.time.carrier = false → step s = .next (({ s with clock := s.clock + 1 } : State).land 250))
    ∧ (s.time.carrier = true → s.time.tc < 1023 → step s = .next (({ s with
        clock := s.clock + 1,
        time := { s.time with ft := s.time.ft + s.rd64 timB F.TIM_INC_LO_INC F.TIM_INC_HI_INC, tc := s.time.tc + 1 } } : State).land 250))
    ∧ (s.time.carrier = true → 1023 ≤ s.time.tc → step s = .next (s.marker.land 250))
    ∧ ((∀ g, g < s.rom.regions.length → s.rgState g ≠ 5 ∨ (s.rg g).q = none ∨ ∃ q, (s.rg g).q = some q ∧ s.clock < q + 250) →
      s.land 250 = s)

/-- Right after reset nothing waits, every register word is at its reset value, no unit holds anything, and the memories are in
their canonical form. -/
def Obligations.ResetStateHoldsNothing : Prop :=
  State.reset.pending = [] ∧ (∀ o, State.reset.word o = resetWord Config.rom Config.straps o) ∧ (∀ n, State.reset.ni n = {})
    ∧ (∀ o, State.reset.port o = {}) ∧ State.reset.cmds = [] ∧ State.reset.cmdQ = [] ∧ State.reset.heats = []
    ∧ Memory.wf State.reset.starter.sram = true

/-- Every command answers a next state: none faults and none is refused. -/
def Obligations.EveryCommandAnswersANextState : Prop :=
  ∀ (c : Instr) (s : State), ∃ t, exec c s = .next t

/-- A step takes one command off the queue, and changes neither the rest of the queue nor the ROM nor the straps (R41, R54): every step
answers such a state. -/
def Obligations.StepKeepsQueueRomAndStraps : Prop :=
  ∀ s : State, ∃ t, step s = .next t ∧ t.pending = s.pending.tail ∧ t.rom = s.rom ∧ t.straps = s.straps

/-- Every step keeps the Starter's memory in its canonical form: addresses rising, no entry equal to what an unlisted byte reads as. -/
def Obligations.StepKeepsStarterMemoryCanonical : Prop :=
  ∀ s t : State, Memory.wf s.starter.sram = true → step s = .next t → Memory.wf t.starter.sram = true
end

