-- ==== Sys2Proof/Laws/Crypto.lean ====
section
/-! SUPPORT. The bound of the 32-bit CRCs, and a frame that carries its own CRC. -/

namespace Sys2Proof.Machine

theorem crcBit_lt {poly c : Nat} (hp : poly < 2 ^ 32) (hc : c < 2 ^ 32) : crcBit poly c < 2 ^ 32 := by
  have hh : c / 2 < 2 ^ 32 := by omega
  unfold crcBit
  split
  · exact Nat.xor_lt_two_pow hh hp
  · exact hh

theorem crcByte_lt {poly c : Nat} (hp : poly < 2 ^ 32) (hc : c < 2 ^ 32) (b : Byte) : crcByte poly c b < 2 ^ 32 := by
  have hb : b.toNat < 2 ^ 32 := Nat.lt_of_lt_of_le b.isLt (by decide)
  have f : ∀ {x}, x < 2 ^ 32 → crcBit poly x < 2 ^ 32 := crcBit_lt hp
  exact f (f (f (f (f (f (f (f (Nat.xor_lt_two_pow hc hb))))))))

theorem crcFold_lt {poly : Nat} (hp : poly < 2 ^ 32) (l : List Byte) {c : Nat} (hc : c < 2 ^ 32) :
    l.foldl (crcByte poly) c < 2 ^ 32 := by
  induction l generalizing c with
  | nil => exact hc
  | cons b l ih => exact ih (crcByte_lt hp hc b)

theorem crc32_lt (l : List Byte) : crc32 l < 2 ^ 32 :=
  Nat.xor_lt_two_pow (crcFold_lt (by decide) l (by decide)) (by decide)

theorem crc32c_lt (l : List Byte) : crc32c l < 2 ^ 32 :=
  Nat.xor_lt_two_pow (crcFold_lt (by decide) l (by decide)) (by decide)

/-- The CRC of a frame does not read its CRC field. -/
@[simp] theorem frameCrc_crc (f : Frame) (c : BitVec 32) : frameCrc { f with crc := c } = frameCrc f := rfl

/-- A frame sent with the CRC that its bits give passes the check at the receiver (R565). -/
theorem frameCrc_signed (f : Frame) :
    ({ f with crc := BitVec.ofNat 32 (frameCrc f) } : Frame).crc.toNat = frameCrc { f with crc := BitVec.ofNat 32 (frameCrc f) } := by
  have h : frameCrc f < 2 ^ 32 := crc32_lt _
  exact (BitVec.toNat_ofNat _ _).trans (Nat.mod_eq_of_lt h)

end Sys2Proof.Machine
end

