-- ==== Sys2Proof/Laws/Map.lean ====
section
/-! SUPPORT. Sparse tables: read after write, and the canonical form that every write keeps. -/

namespace Sys2Proof.Machine

variable {α : Type}

@[simp] theorem mget_nil (d : Nat → α) (i : Nat) : mget d [] i = d i := rfl

theorem mget_cons (d : Nat → α) (k : Nat) (v : α) (r : Map α) (i : Nat) :
    mget d ((k, v) :: r) i = if k = i then v else mget d r i := rfl

theorem mget_mins_same (d : Nat → α) (m : Map α) (i : Nat) (v : α) : mget d (mins m i v) i = v := by
  induction m with
  | nil => simp [mins, mget]
  | cons e r ih =>
    obtain ⟨k, u⟩ := e
    simp only [mins]
    split
    · simp [mget]
    · split
      · simp [mget]
      · rw [mget_cons, if_neg ‹_›, ih]

theorem mget_mins_ne (d : Nat → α) (m : Map α) {i j : Nat} (v : α) (h : j ≠ i) : mget d (mins m i v) j = mget d m j := by
  induction m with
  | nil => simp [mins, mget, h.symm]
  | cons e r ih =>
    obtain ⟨k, u⟩ := e
    simp only [mins]
    split
    · next hk => subst hk; simp [mget, h.symm]
    · split
      · simp only [mget_cons, if_neg h.symm]
      · simp only [mget_cons, ih]

theorem mget_mdel (d : Nat → α) (m : Map α) (i j : Nat) : mget d (mdel m i) j = if j = i then d j else mget d m j := by
  induction m with
  | nil => simp [mdel]
  | cons e r ih =>
    obtain ⟨k, u⟩ := e
    simp only [mdel]
    split
    · next hk => subst hk; rw [ih]; split
                 · rfl
                 · rw [mget_cons, if_neg (by omega)]
    · next hk =>
      rw [mget_cons, ih, mget_cons]
      split <;> split <;> first | rfl | omega

/-- A write is read back. -/
@[simp] theorem mget_mset_same [DecidableEq α] (d : Nat → α) (m : Map α) (i : Nat) (v : α) : mget d (mset d m i v) i = v := by
  unfold mset
  split
  · next hv => rw [mget_mdel, if_pos rfl, hv]
  · exact mget_mins_same d m i v

/-- A write leaves every other key alone. -/
theorem mget_mset_ne [DecidableEq α] (d : Nat → α) (m : Map α) {i j : Nat} (v : α) (h : j ≠ i) :
    mget d (mset d m i v) j = mget d m j := by
  unfold mset
  split
  · rw [mget_mdel, if_neg h]
  · exact mget_mins_ne d m v h

theorem mwfFrom_mono [DecidableEq α] (d : Nat → α) (m : Map α) {a b : Nat} (h : mwfFrom d b m = true) (hab : a ≤ b) :
    mwfFrom d a m = true := by
  cases m with
  | nil => rfl
  | cons e r =>
    obtain ⟨k, v⟩ := e
    simp only [mwfFrom, Bool.and_eq_true, decide_eq_true_eq] at h ⊢
    exact ⟨⟨by omega, h.1.2⟩, h.2⟩

theorem mwfFrom_mdel [DecidableEq α] (d : Nat → α) (m : Map α) : ∀ lo i, mwfFrom d lo m = true → mwfFrom d lo (mdel m i) = true := by
  induction m with
  | nil => intros; rfl
  | cons e r ih =>
    obtain ⟨k, u⟩ := e
    intro lo i h
    simp only [mwfFrom, Bool.and_eq_true, decide_eq_true_eq] at h
    simp only [mdel]
    split
    · exact mwfFrom_mono d _ (ih (k + 1) i h.2) (by omega)
    · simp only [mwfFrom, Bool.and_eq_true, decide_eq_true_eq]
      exact ⟨h.1, ih (k + 1) i h.2⟩

theorem mwfFrom_mins [DecidableEq α] (d : Nat → α) (m : Map α) :
    ∀ lo i v, mwfFrom d lo m = true → lo ≤ i → v ≠ d i → mwfFrom d lo (mins m i v) = true := by
  induction m with
  | nil => intro lo i v _ hi hv; simp [mins, mwfFrom, hi, hv]
  | cons e r ih =>
    obtain ⟨k, u⟩ := e
    intro lo i v h hi hv
    have h' := h
    simp only [mwfFrom, Bool.and_eq_true, decide_eq_true_eq] at h
    simp only [mins]
    split
    · next hk => subst hk; simp [mwfFrom, hi, hv, h.2]
    · split
      · next hlt =>
        simp only [mwfFrom, Bool.and_eq_true, decide_eq_true_eq]
        exact ⟨⟨hi, hv⟩, ⟨by omega, h.1.2⟩, h.2⟩
      · simp only [mwfFrom, Bool.and_eq_true, decide_eq_true_eq]
        exact ⟨h.1, ih (k + 1) i v h.2 (by omega) hv⟩

/-- A write keeps the canonical form. -/
theorem mwf_mset [DecidableEq α] (d : Nat → α) (m : Map α) (i : Nat) (v : α) (h : mwf d m = true) :
    mwf d (mset d m i v) = true := by
  unfold mset
  split
  · exact mwfFrom_mdel d m 0 i h
  · exact mwfFrom_mins d m 0 i v h (Nat.zero_le _) ‹_›

theorem mwf_nil [DecidableEq α] (d : Nat → α) : mwf d [] = true := rfl

end Sys2Proof.Machine
end

