-- ==== Sys2Proof/Laws/Word.lean ====
section
/-! SUPPORT. Bit fields of numbers: what replacing one field does to it and to the others. -/

namespace Sys2Proof

theorem bitsAt_lt (v lo w : Nat) : bitsAt v lo w < 2 ^ w := Nat.mod_lt _ (Nat.two_pow_pos w)

@[simp] theorem bitsAt_zero (lo w : Nat) : bitsAt 0 lo w = 0 := by simp [bitsAt]

theorem bitsAt_mod_self (v lo w : Nat) : bitsAt v lo w % 2 ^ w = bitsAt v lo w := Nat.mod_mod _ _

/-- A number is what stands above a field, the field, and what stands below it. -/
theorem bitsPut_eq (v lo w x : Nat) :
    bitsPut v lo w x = (v / 2 ^ lo / 2 ^ w * 2 ^ w + x % 2 ^ w) * 2 ^ lo + v % 2 ^ lo := by
  have h1 := Nat.div_add_mod v (2 ^ lo)
  have h2 := Nat.div_add_mod (v / 2 ^ lo) (2 ^ w)
  unfold bitsPut bitsAt
  generalize v / 2 ^ lo / 2 ^ w = q at h2 ⊢
  generalize v / 2 ^ lo % 2 ^ w = m at h2 ⊢
  generalize v % 2 ^ lo = l at h1 ⊢
  generalize x % 2 ^ w = y
  rw [← h2] at h1
  rw [← h1]
  have e : 2 ^ lo * (2 ^ w * q + m) = (q * 2 ^ w) * 2 ^ lo + m * 2 ^ lo := by ring
  rw [e, Nat.add_mul]
  omega

theorem bitsAt_bitsPut_same (v lo w x : Nat) : bitsAt (bitsPut v lo w x) lo w = x % 2 ^ w := by
  rw [bitsPut_eq, bitsAt]
  have hp : 0 < 2 ^ lo := Nat.two_pow_pos lo
  rw [Nat.add_comm, Nat.add_mul_div_right _ _ hp, Nat.div_eq_of_lt (Nat.mod_lt _ hp), Nat.zero_add, Nat.add_comm,
    Nat.add_mul_mod_self_right, Nat.mod_mod]

theorem bitsAt_bitsPut_above (v lo w x lo' w' : Nat) (h : lo + w ≤ lo') : bitsAt (bitsPut v lo w x) lo' w' = bitsAt v lo' w' := by
  obtain ⟨d, rfl⟩ := Nat.exists_eq_add_of_le h
  rw [bitsPut_eq, bitsAt, bitsAt, Nat.pow_add, Nat.pow_add, ← Nat.div_div_eq_div_mul, ← Nat.div_div_eq_div_mul,
    ← Nat.div_div_eq_div_mul, ← Nat.div_div_eq_div_mul]
  have hp : 0 < 2 ^ lo := Nat.two_pow_pos lo
  have hw : 0 < 2 ^ w := Nat.two_pow_pos w
  congr 2
  rw [Nat.add_comm, Nat.add_mul_div_right _ _ hp, Nat.div_eq_of_lt (Nat.mod_lt _ hp), Nat.zero_add, Nat.add_comm,
    Nat.add_mul_div_right _ _ hw, Nat.div_eq_of_lt (Nat.mod_lt _ hw), Nat.zero_add]

theorem bitsAt_bitsPut_below (v lo w x lo' w' : Nat) (h : lo' + w' ≤ lo) : bitsAt (bitsPut v lo w x) lo' w' = bitsAt v lo' w' := by
  obtain ⟨d, rfl⟩ := Nat.exists_eq_add_of_le h
  have key : ∀ k l, bitsAt (k * 2 ^ (lo' + w' + d) + l) lo' w' = bitsAt l lo' w' := by
    intro k l
    rw [bitsAt, bitsAt, show k * 2 ^ (lo' + w' + d) + l = l + k * 2 ^ d * 2 ^ w' * 2 ^ lo' by rw [Nat.pow_add, Nat.pow_add]; ring,
      Nat.add_mul_div_right _ _ (Nat.two_pow_pos lo'), Nat.add_mul_mod_self_right]
  rw [bitsPut_eq, key]
  conv_rhs => rw [← Nat.div_add_mod v (2 ^ (lo' + w' + d)), Nat.mul_comm, key]

/-- Replacing a field of a word leaves a word. -/
theorem bitsPut_lt (v lo w x n : Nat) (hv : v < 2 ^ n) (h : lo + w ≤ n) : bitsPut v lo w x < 2 ^ n := by
  obtain ⟨d, rfl⟩ := Nat.exists_eq_add_of_le h
  rw [bitsPut_eq]
  have hq : v / 2 ^ lo / 2 ^ w < 2 ^ d := by
    rw [Nat.div_div_eq_div_mul, ← Nat.pow_add]
    exact Nat.div_lt_of_lt_mul (by rwa [← Nat.pow_add])
  have hx : x % 2 ^ w < 2 ^ w := Nat.mod_lt _ (Nat.two_pow_pos w)
  have hl : v % 2 ^ lo < 2 ^ lo := Nat.mod_lt _ (Nat.two_pow_pos lo)
  generalize v / 2 ^ lo / 2 ^ w = q at *
  generalize x % 2 ^ w = y at *
  generalize v % 2 ^ lo = l at *
  have h1 : q * 2 ^ w + y + 1 ≤ 2 ^ d * 2 ^ w := by
    have := Nat.mul_le_mul_right (2 ^ w) (Nat.succ_le_of_lt hq)
    rw [Nat.succ_mul] at this
    omega
  have h2 : (q * 2 ^ w + y) * 2 ^ lo + 2 ^ lo ≤ 2 ^ d * 2 ^ w * 2 ^ lo := by
    have := Nat.mul_le_mul_right (2 ^ lo) h1
    rwa [Nat.succ_mul] at this
  rw [Nat.pow_add, Nat.pow_add, show 2 ^ lo * 2 ^ w * 2 ^ d = 2 ^ d * 2 ^ w * 2 ^ lo by ring]
  omega

theorem bitAt_eq (v i : Nat) : bitAt v i = (bitsAt v i 1 == 1) := by simp [bitAt, bitsAt]

@[simp] theorem b2n_true : b2n true = 1 := rfl
@[simp] theorem b2n_false : b2n false = 0 := rfl

end Sys2Proof
end

