-- ==== Sys2Proof/Laws/Csr.lean ====
section
/-! SUPPORT. Registers: a word reads as it was last written, and a field's write leaves every other field alone. -/

namespace Sys2Proof.Machine

variable (s : State)

@[simp] theorem State.word_setWord_same (o : Nat) (w : Word) : (s.setWord o w).word o = w := by
  simp [State.word, State.setWord]

theorem State.word_setWord_ne {o o' : Nat} (w : Word) (h : o' ≠ o) : (s.setWord o w).word o' = s.word o' := by
  simp [State.word, State.setWord, mget_mset_ne _ _ _ h]

theorem State.word_setWord (o o' : Nat) (w : Word) : (s.setWord o w).word o' = if o' = o then w else s.word o' := by
  split
  · next h => subst h; simp
  · next h => exact s.word_setWord_ne w h

/-- The word that a field's write leaves. -/
theorem State.word_wr (b : Nat) (f : Fld) (v o : Nat) : (s.wr b f v).word o =
    if o = b + f.off then BitVec.ofNat 32 (bitsPut (s.word (b + f.off)).toNat f.lo f.w v) else s.word o := by
  rw [State.wr, State.word_setWord]

theorem State.word_wr_ne (b : Nat) (f : Fld) (v : Nat) {o : Nat} (h : o ≠ b + f.off) : (s.wr b f v).word o = s.word o := by
  rw [State.word_wr, if_neg h]

/-- A field reads as it was written. -/
theorem State.rd_wr_same (b : Nat) (f : Fld) (v : Nat) (h : f.lo + f.w ≤ 32) : (s.wr b f v).rd b f = v % 2 ^ f.w := by
  rw [State.rd, State.word_wr, if_pos rfl, BitVec.toNat_ofNat, Nat.mod_eq_of_lt (bitsPut_lt _ _ _ _ 32 (BitVec.isLt _) h),
    bitsAt_bitsPut_same]

/-- A field's write leaves the fields of other registers alone. -/
theorem State.rd_wr_ne (b b' : Nat) (f f' : Fld) (v : Nat) (h : b' + f'.off ≠ b + f.off) : (s.wr b f v).rd b' f' = s.rd b' f' := by
  rw [State.rd, State.rd, State.word_wr_ne s b f v h]

/-- A field's write leaves the other fields of its register alone. -/
theorem State.rd_wr_apart (b : Nat) (f f' : Fld) (v : Nat) (ho : f'.off = f.off) (h : f.lo + f.w ≤ 32)
    (hd : f.lo + f.w ≤ f'.lo ∨ f'.lo + f'.w ≤ f.lo) : (s.wr b f v).rd b f' = s.rd b f' := by
  rw [State.rd, State.rd, ho, State.word_wr, if_pos rfl, BitVec.toNat_ofNat,
    Nat.mod_eq_of_lt (bitsPut_lt _ _ _ _ 32 (BitVec.isLt _) h)]
  rcases hd with hd | hd
  · exact bitsAt_bitsPut_above _ _ _ _ _ _ hd
  · exact bitsAt_bitsPut_below _ _ _ _ _ _ hd

theorem State.rd_setWord (b o : Nat) (f : Fld) (w : Word) :
    (s.setWord o w).rd b f = if b + f.off = o then bitsAt w.toNat f.lo f.w else s.rd b f := by
  rw [State.rd, State.word_setWord]
  split <;> rfl

theorem State.rd_lt (b : Nat) (f : Fld) : s.rd b f < 2 ^ f.w := bitsAt_lt _ _ _

theorem State.word64_setWord64 (o v : Nat) : (s.setWord64 o v).word64 o = v % 2 ^ 64 := by
  rw [State.word64, State.setWord64, State.word_setWord_ne _ _ (by omega), State.word_setWord_same, State.word_setWord_same,
    BitVec.toNat_ofNat, BitVec.toNat_ofNat]
  omega

@[simp] theorem State.flag_eq (b : Nat) (f : Fld) : s.flag b f = (s.rd b f == 1) := rfl

/-- A saturating count reads as the lesser of the sum and the counter's maximum. -/
theorem State.rd_count_same (b : Nat) (f : Fld) (k : Nat) (h : f.lo + f.w ≤ 32) :
    (s.count b f k).rd b f = min (s.rd b f + k) (2 ^ f.w - 1) := by
  rw [State.count, State.rd_wr_same s b f _ h, Nat.mod_eq_of_lt]
  have := Nat.two_pow_pos f.w
  omega

/-- A word that no store lists reads as its reset value. -/
theorem State.word_of_empty (h : s.csr = []) (o : Nat) : s.word o = resetWord s.rom s.straps o := by
  simp [State.word, h]

end Sys2Proof.Machine
end

