-- ==== Sys2Proof/Laws/Memory.lean ====
section
/-! SUPPORT. The Starter's memory: its bytes read as they were last written, and every operation that writes it keeps its
canonical form. The load port (`loadData`), a granted access of the CMX (`perform`) and a write of one register (`setWord`)
are the operations; the resets that clear it leave the empty memory. -/

namespace Sys2Proof.Machine

/-- Storing bytes one by one, at whatever addresses, keeps the canonical form. -/
theorem Memory.wf_store (f : Nat → Nat) (l : List (Byte × Nat)) : ∀ m : Map Byte, Memory.wf m = true →
    Memory.wf (l.foldl (fun (m : Map Byte) e => mset (fun _ => 0) m (f e.2) e.1) m) = true := by
  induction l with
  | nil => intro m h; exact h
  | cons e r ih => intro m h; exact ih _ (mwf_mset _ m (f e.2) e.1 h)

/-- A byte that none of the stores names reads as before. -/
theorem Memory.read_store_ne (f : Nat → Nat) (a : Nat) (l : List (Byte × Nat)) : ∀ m : Map Byte, (∀ e ∈ l, f e.2 ≠ a) →
    mget (fun _ => 0) (l.foldl (fun (m : Map Byte) e => mset (fun _ => 0) m (f e.2) e.1) m) a = mget (fun _ => 0) m a := by
  induction l with
  | nil => intro m _; rfl
  | cons e r ih =>
    intro m h
    rw [List.foldl_cons, ih _ (fun e' he => h e' (List.mem_cons_of_mem _ he)),
      mget_mset_ne _ _ _ (Ne.symm (h e List.mem_cons_self))]

/-- A register write leaves the Starter's memory alone. -/
@[simp] theorem State.sram_setWord (s : State) (o : Nat) (w : Word) : (s.setWord o w).starter.sram = s.starter.sram := rfl

/-- The load port keeps the canonical form. -/
theorem State.loadData_wf (s : State) (v : Nat) (h : Memory.wf s.starter.sram = true) :
    Memory.wf (s.loadData v).starter.sram = true :=
  Memory.wf_store (fun i => (s.rd strB F.STR_LOAD_CTL_PTR + i) % 0x40000) _ _ h

/-- A write of the CMX to the Starter's memory keeps the canonical form. -/
theorem State.perform_sram_wf (s : State) (m : Nat) (u : Un) (q : CsrReq) (hu : u.kind = .sram)
    (h : Memory.wf s.starter.sram = true) : Memory.wf (s.perform m u q).1.starter.sram = true := by
  unfold State.perform
  simp only [hu]
  split
  · exact h
  · split
    · exact h
    · simp only [beq_self_eq_true, Bool.or_true, ↓reduceIte]
      split
      · exact h
      · exact Memory.wf_store (fun i => q.addr - u.base + i) _ _ h

/-- Right after reset the memory is canonical. -/
theorem State.reset_memory_wf : Memory.wf State.reset.starter.sram = true := rfl

end Sys2Proof.Machine
end

