-- ==== Sys2Proof/Laws/State.lean ====
section
/-! SUPPORT. What each update of the state leaves alone, one lemma per field and update, and what the tables read after a
write. -/

namespace Sys2Proof.Machine

variable (s : State)

/-! ### setWord -/

@[simp] theorem State.setWord_pending (o w) : (s.setWord o w).pending = s.pending := rfl
@[simp] theorem State.setWord_rom (o w) : (s.setWord o w).rom = s.rom := rfl
@[simp] theorem State.setWord_straps (o w) : (s.setWord o w).straps = s.straps := rfl
@[simp] theorem State.setWord_clock (o w) : (s.setWord o w).clock = s.clock := rfl
@[simp] theorem State.setWord_free (o w) : (s.setWord o w).free = s.free := rfl
@[simp] theorem State.setWord_nis (o w) : (s.setWord o w).nis = s.nis := rfl
@[simp] theorem State.setWord_ports (o w) : (s.setWord o w).ports = s.ports := rfl
@[simp] theorem State.setWord_planeFaults (o w) : (s.setWord o w).planeFaults = s.planeFaults := rfl
@[simp] theorem State.setWord_time (o w) : (s.setWord o w).time = s.time := rfl
@[simp] theorem State.setWord_pfs (o w) : (s.setWord o w).pfs = s.pfs := rfl
@[simp] theorem State.setWord_evd (o w) : (s.setWord o w).evd = s.evd := rfl
@[simp] theorem State.setWord_evKey (o w) : (s.setWord o w).evKey = s.evKey := rfl
@[simp] theorem State.setWord_trc (o w) : (s.setWord o w).trc = s.trc := rfl
@[simp] theorem State.setWord_trcRun (o w) : (s.setWord o w).trcRun = s.trcRun := rfl
@[simp] theorem State.setWord_cmdNext (o w) : (s.setWord o w).cmdNext = s.cmdNext := rfl
@[simp] theorem State.setWord_cmdQ (o w) : (s.setWord o w).cmdQ = s.cmdQ := rfl
@[simp] theorem State.setWord_cmds (o w) : (s.setWord o w).cmds = s.cmds := rfl
@[simp] theorem State.setWord_asks (o w) : (s.setWord o w).asks = s.asks := rfl
@[simp] theorem State.setWord_leaveQ (o w) : (s.setWord o w).leaveQ = s.leaveQ := rfl
@[simp] theorem State.setWord_leaves (o w) : (s.setWord o w).leaves = s.leaves := rfl
@[simp] theorem State.setWord_gives (o w) : (s.setWord o w).gives = s.gives := rfl
@[simp] theorem State.setWord_claimAt (o w) : (s.setWord o w).claimAt = s.claimAt := rfl
@[simp] theorem State.setWord_heats (o w) : (s.setWord o w).heats = s.heats := rfl
@[simp] theorem State.setWord_relay (o w) : (s.setWord o w).relay = s.relay := rfl
@[simp] theorem State.setWord_joints (o w) : (s.setWord o w).joints = s.joints := rfl
@[simp] theorem State.setWord_clients (o w) : (s.setWord o w).clients = s.clients := rfl
@[simp] theorem State.setWord_heatCrc (o w) : (s.setWord o w).heatCrc = s.heatCrc := rfl
@[simp] theorem State.setWord_slcs (o w) : (s.setWord o w).slcs = s.slcs := rfl
@[simp] theorem State.setWord_migSync (o w) : (s.setWord o w).migSync = s.migSync := rfl
@[simp] theorem State.setWord_captured (o w) : (s.setWord o w).captured = s.captured := rfl
@[simp] theorem State.setWord_intKept (o w) : (s.setWord o w).intKept = s.intKept := rfl
@[simp] theorem State.setWord_plst (o w) : (s.setWord o w).plst = s.plst := rfl
@[simp] theorem State.setWord_planeHit (o w) : (s.setWord o w).planeHit = s.planeHit := rfl
@[simp] theorem State.setWord_floorStep (o w) : (s.setWord o w).floorStep = s.floorStep := rfl
@[simp] theorem State.setWord_floorRun (o w) : (s.setWord o w).floorRun = s.floorRun := rfl
@[simp] theorem State.setWord_rgs (o w) : (s.setWord o w).rgs = s.rgs := rfl
@[simp] theorem State.setWord_pacer (o w) : (s.setWord o w).pacer = s.pacer := rfl
@[simp] theorem State.setWord_start (o w) : (s.setWord o w).start = s.start := rfl
@[simp] theorem State.setWord_cmx (o w) : (s.setWord o w).cmx = s.cmx := rfl
@[simp] theorem State.setWord_starter (o w) : (s.setWord o w).starter = s.starter := rfl
@[simp] theorem State.setWord_sps (o w) : (s.setWord o w).sps = s.sps := rfl
@[simp] theorem State.setWord_links (o w) : (s.setWord o w).links = s.links := rfl
@[simp] theorem State.setWord_tap (o w) : (s.setWord o w).tap = s.tap := rfl
@[simp] theorem State.setWord_scan (o w) : (s.setWord o w).scan = s.scan := rfl

/-! ### wr -/

@[simp] theorem State.wr_pending (b f v) : (s.wr b f v).pending = s.pending := rfl
@[simp] theorem State.wr_rom (b f v) : (s.wr b f v).rom = s.rom := rfl
@[simp] theorem State.wr_straps (b f v) : (s.wr b f v).straps = s.straps := rfl
@[simp] theorem State.wr_clock (b f v) : (s.wr b f v).clock = s.clock := rfl
@[simp] theorem State.wr_free (b f v) : (s.wr b f v).free = s.free := rfl
@[simp] theorem State.wr_nis (b f v) : (s.wr b f v).nis = s.nis := rfl
@[simp] theorem State.wr_ports (b f v) : (s.wr b f v).ports = s.ports := rfl
@[simp] theorem State.wr_planeFaults (b f v) : (s.wr b f v).planeFaults = s.planeFaults := rfl
@[simp] theorem State.wr_time (b f v) : (s.wr b f v).time = s.time := rfl
@[simp] theorem State.wr_pfs (b f v) : (s.wr b f v).pfs = s.pfs := rfl
@[simp] theorem State.wr_evd (b f v) : (s.wr b f v).evd = s.evd := rfl
@[simp] theorem State.wr_evKey (b f v) : (s.wr b f v).evKey = s.evKey := rfl
@[simp] theorem State.wr_trc (b f v) : (s.wr b f v).trc = s.trc := rfl
@[simp] theorem State.wr_trcRun (b f v) : (s.wr b f v).trcRun = s.trcRun := rfl
@[simp] theorem State.wr_cmdNext (b f v) : (s.wr b f v).cmdNext = s.cmdNext := rfl
@[simp] theorem State.wr_cmdQ (b f v) : (s.wr b f v).cmdQ = s.cmdQ := rfl
@[simp] theorem State.wr_cmds (b f v) : (s.wr b f v).cmds = s.cmds := rfl
@[simp] theorem State.wr_asks (b f v) : (s.wr b f v).asks = s.asks := rfl
@[simp] theorem State.wr_leaveQ (b f v) : (s.wr b f v).leaveQ = s.leaveQ := rfl
@[simp] theorem State.wr_leaves (b f v) : (s.wr b f v).leaves = s.leaves := rfl
@[simp] theorem State.wr_gives (b f v) : (s.wr b f v).gives = s.gives := rfl
@[simp] theorem State.wr_claimAt (b f v) : (s.wr b f v).claimAt = s.claimAt := rfl
@[simp] theorem State.wr_heats (b f v) : (s.wr b f v).heats = s.heats := rfl
@[simp] theorem State.wr_relay (b f v) : (s.wr b f v).relay = s.relay := rfl
@[simp] theorem State.wr_joints (b f v) : (s.wr b f v).joints = s.joints := rfl
@[simp] theorem State.wr_clients (b f v) : (s.wr b f v).clients = s.clients := rfl
@[simp] theorem State.wr_heatCrc (b f v) : (s.wr b f v).heatCrc = s.heatCrc := rfl
@[simp] theorem State.wr_slcs (b f v) : (s.wr b f v).slcs = s.slcs := rfl
@[simp] theorem State.wr_migSync (b f v) : (s.wr b f v).migSync = s.migSync := rfl
@[simp] theorem State.wr_captured (b f v) : (s.wr b f v).captured = s.captured := rfl
@[simp] theorem State.wr_intKept (b f v) : (s.wr b f v).intKept = s.intKept := rfl
@[simp] theorem State.wr_plst (b f v) : (s.wr b f v).plst = s.plst := rfl
@[simp] theorem State.wr_planeHit (b f v) : (s.wr b f v).planeHit = s.planeHit := rfl
@[simp] theorem State.wr_floorStep (b f v) : (s.wr b f v).floorStep = s.floorStep := rfl
@[simp] theorem State.wr_floorRun (b f v) : (s.wr b f v).floorRun = s.floorRun := rfl
@[simp] theorem State.wr_rgs (b f v) : (s.wr b f v).rgs = s.rgs := rfl
@[simp] theorem State.wr_pacer (b f v) : (s.wr b f v).pacer = s.pacer := rfl
@[simp] theorem State.wr_start (b f v) : (s.wr b f v).start = s.start := rfl
@[simp] theorem State.wr_cmx (b f v) : (s.wr b f v).cmx = s.cmx := rfl
@[simp] theorem State.wr_starter (b f v) : (s.wr b f v).starter = s.starter := rfl
@[simp] theorem State.wr_sps (b f v) : (s.wr b f v).sps = s.sps := rfl
@[simp] theorem State.wr_links (b f v) : (s.wr b f v).links = s.links := rfl
@[simp] theorem State.wr_tap (b f v) : (s.wr b f v).tap = s.tap := rfl
@[simp] theorem State.wr_scan (b f v) : (s.wr b f v).scan = s.scan := rfl

/-! ### count -/

@[simp] theorem State.count_pending (b f v) : (s.count b f v).pending = s.pending := rfl
@[simp] theorem State.count_rom (b f v) : (s.count b f v).rom = s.rom := rfl
@[simp] theorem State.count_straps (b f v) : (s.count b f v).straps = s.straps := rfl
@[simp] theorem State.count_clock (b f v) : (s.count b f v).clock = s.clock := rfl
@[simp] theorem State.count_free (b f v) : (s.count b f v).free = s.free := rfl
@[simp] theorem State.count_nis (b f v) : (s.count b f v).nis = s.nis := rfl
@[simp] theorem State.count_ports (b f v) : (s.count b f v).ports = s.ports := rfl
@[simp] theorem State.count_planeFaults (b f v) : (s.count b f v).planeFaults = s.planeFaults := rfl
@[simp] theorem State.count_time (b f v) : (s.count b f v).time = s.time := rfl
@[simp] theorem State.count_pfs (b f v) : (s.count b f v).pfs = s.pfs := rfl
@[simp] theorem State.count_evd (b f v) : (s.count b f v).evd = s.evd := rfl
@[simp] theorem State.count_evKey (b f v) : (s.count b f v).evKey = s.evKey := rfl
@[simp] theorem State.count_trc (b f v) : (s.count b f v).trc = s.trc := rfl
@[simp] theorem State.count_trcRun (b f v) : (s.count b f v).trcRun = s.trcRun := rfl
@[simp] theorem State.count_cmdNext (b f v) : (s.count b f v).cmdNext = s.cmdNext := rfl
@[simp] theorem State.count_cmdQ (b f v) : (s.count b f v).cmdQ = s.cmdQ := rfl
@[simp] theorem State.count_cmds (b f v) : (s.count b f v).cmds = s.cmds := rfl
@[simp] theorem State.count_asks (b f v) : (s.count b f v).asks = s.asks := rfl
@[simp] theorem State.count_leaveQ (b f v) : (s.count b f v).leaveQ = s.leaveQ := rfl
@[simp] theorem State.count_leaves (b f v) : (s.count b f v).leaves = s.leaves := rfl
@[simp] theorem State.count_gives (b f v) : (s.count b f v).gives = s.gives := rfl
@[simp] theorem State.count_claimAt (b f v) : (s.count b f v).claimAt = s.claimAt := rfl
@[simp] theorem State.count_heats (b f v) : (s.count b f v).heats = s.heats := rfl
@[simp] theorem State.count_relay (b f v) : (s.count b f v).relay = s.relay := rfl
@[simp] theorem State.count_joints (b f v) : (s.count b f v).joints = s.joints := rfl
@[simp] theorem State.count_clients (b f v) : (s.count b f v).clients = s.clients := rfl
@[simp] theorem State.count_heatCrc (b f v) : (s.count b f v).heatCrc = s.heatCrc := rfl
@[simp] theorem State.count_slcs (b f v) : (s.count b f v).slcs = s.slcs := rfl
@[simp] theorem State.count_migSync (b f v) : (s.count b f v).migSync = s.migSync := rfl
@[simp] theorem State.count_captured (b f v) : (s.count b f v).captured = s.captured := rfl
@[simp] theorem State.count_intKept (b f v) : (s.count b f v).intKept = s.intKept := rfl
@[simp] theorem State.count_plst (b f v) : (s.count b f v).plst = s.plst := rfl
@[simp] theorem State.count_planeHit (b f v) : (s.count b f v).planeHit = s.planeHit := rfl
@[simp] theorem State.count_floorStep (b f v) : (s.count b f v).floorStep = s.floorStep := rfl
@[simp] theorem State.count_floorRun (b f v) : (s.count b f v).floorRun = s.floorRun := rfl
@[simp] theorem State.count_rgs (b f v) : (s.count b f v).rgs = s.rgs := rfl
@[simp] theorem State.count_pacer (b f v) : (s.count b f v).pacer = s.pacer := rfl
@[simp] theorem State.count_start (b f v) : (s.count b f v).start = s.start := rfl
@[simp] theorem State.count_cmx (b f v) : (s.count b f v).cmx = s.cmx := rfl
@[simp] theorem State.count_starter (b f v) : (s.count b f v).starter = s.starter := rfl
@[simp] theorem State.count_sps (b f v) : (s.count b f v).sps = s.sps := rfl
@[simp] theorem State.count_links (b f v) : (s.count b f v).links = s.links := rfl
@[simp] theorem State.count_tap (b f v) : (s.count b f v).tap = s.tap := rfl
@[simp] theorem State.count_scan (b f v) : (s.count b f v).scan = s.scan := rfl

/-! ### setBit -/

@[simp] theorem State.setBit_pending (b f v) : (s.setBit b f v).pending = s.pending := rfl
@[simp] theorem State.setBit_rom (b f v) : (s.setBit b f v).rom = s.rom := rfl
@[simp] theorem State.setBit_straps (b f v) : (s.setBit b f v).straps = s.straps := rfl
@[simp] theorem State.setBit_clock (b f v) : (s.setBit b f v).clock = s.clock := rfl
@[simp] theorem State.setBit_free (b f v) : (s.setBit b f v).free = s.free := rfl
@[simp] theorem State.setBit_nis (b f v) : (s.setBit b f v).nis = s.nis := rfl
@[simp] theorem State.setBit_ports (b f v) : (s.setBit b f v).ports = s.ports := rfl
@[simp] theorem State.setBit_planeFaults (b f v) : (s.setBit b f v).planeFaults = s.planeFaults := rfl
@[simp] theorem State.setBit_time (b f v) : (s.setBit b f v).time = s.time := rfl
@[simp] theorem State.setBit_pfs (b f v) : (s.setBit b f v).pfs = s.pfs := rfl
@[simp] theorem State.setBit_evd (b f v) : (s.setBit b f v).evd = s.evd := rfl
@[simp] theorem State.setBit_evKey (b f v) : (s.setBit b f v).evKey = s.evKey := rfl
@[simp] theorem State.setBit_trc (b f v) : (s.setBit b f v).trc = s.trc := rfl
@[simp] theorem State.setBit_trcRun (b f v) : (s.setBit b f v).trcRun = s.trcRun := rfl
@[simp] theorem State.setBit_cmdNext (b f v) : (s.setBit b f v).cmdNext = s.cmdNext := rfl
@[simp] theorem State.setBit_cmdQ (b f v) : (s.setBit b f v).cmdQ = s.cmdQ := rfl
@[simp] theorem State.setBit_cmds (b f v) : (s.setBit b f v).cmds = s.cmds := rfl
@[simp] theorem State.setBit_asks (b f v) : (s.setBit b f v).asks = s.asks := rfl
@[simp] theorem State.setBit_leaveQ (b f v) : (s.setBit b f v).leaveQ = s.leaveQ := rfl
@[simp] theorem State.setBit_leaves (b f v) : (s.setBit b f v).leaves = s.leaves := rfl
@[simp] theorem State.setBit_gives (b f v) : (s.setBit b f v).gives = s.gives := rfl
@[simp] theorem State.setBit_claimAt (b f v) : (s.setBit b f v).claimAt = s.claimAt := rfl
@[simp] theorem State.setBit_heats (b f v) : (s.setBit b f v).heats = s.heats := rfl
@[simp] theorem State.setBit_relay (b f v) : (s.setBit b f v).relay = s.relay := rfl
@[simp] theorem State.setBit_joints (b f v) : (s.setBit b f v).joints = s.joints := rfl
@[simp] theorem State.setBit_clients (b f v) : (s.setBit b f v).clients = s.clients := rfl
@[simp] theorem State.setBit_heatCrc (b f v) : (s.setBit b f v).heatCrc = s.heatCrc := rfl
@[simp] theorem State.setBit_slcs (b f v) : (s.setBit b f v).slcs = s.slcs := rfl
@[simp] theorem State.setBit_migSync (b f v) : (s.setBit b f v).migSync = s.migSync := rfl
@[simp] theorem State.setBit_captured (b f v) : (s.setBit b f v).captured = s.captured := rfl
@[simp] theorem State.setBit_intKept (b f v) : (s.setBit b f v).intKept = s.intKept := rfl
@[simp] theorem State.setBit_plst (b f v) : (s.setBit b f v).plst = s.plst := rfl
@[simp] theorem State.setBit_planeHit (b f v) : (s.setBit b f v).planeHit = s.planeHit := rfl
@[simp] theorem State.setBit_floorStep (b f v) : (s.setBit b f v).floorStep = s.floorStep := rfl
@[simp] theorem State.setBit_floorRun (b f v) : (s.setBit b f v).floorRun = s.floorRun := rfl
@[simp] theorem State.setBit_rgs (b f v) : (s.setBit b f v).rgs = s.rgs := rfl
@[simp] theorem State.setBit_pacer (b f v) : (s.setBit b f v).pacer = s.pacer := rfl
@[simp] theorem State.setBit_start (b f v) : (s.setBit b f v).start = s.start := rfl
@[simp] theorem State.setBit_cmx (b f v) : (s.setBit b f v).cmx = s.cmx := rfl
@[simp] theorem State.setBit_starter (b f v) : (s.setBit b f v).starter = s.starter := rfl
@[simp] theorem State.setBit_sps (b f v) : (s.setBit b f v).sps = s.sps := rfl
@[simp] theorem State.setBit_links (b f v) : (s.setBit b f v).links = s.links := rfl
@[simp] theorem State.setBit_tap (b f v) : (s.setBit b f v).tap = s.tap := rfl
@[simp] theorem State.setBit_scan (b f v) : (s.setBit b f v).scan = s.scan := rfl

/-! ### setWord64 -/

@[simp] theorem State.setWord64_pending (o v) : (s.setWord64 o v).pending = s.pending := rfl
@[simp] theorem State.setWord64_rom (o v) : (s.setWord64 o v).rom = s.rom := rfl
@[simp] theorem State.setWord64_straps (o v) : (s.setWord64 o v).straps = s.straps := rfl
@[simp] theorem State.setWord64_clock (o v) : (s.setWord64 o v).clock = s.clock := rfl
@[simp] theorem State.setWord64_free (o v) : (s.setWord64 o v).free = s.free := rfl
@[simp] theorem State.setWord64_nis (o v) : (s.setWord64 o v).nis = s.nis := rfl
@[simp] theorem State.setWord64_ports (o v) : (s.setWord64 o v).ports = s.ports := rfl
@[simp] theorem State.setWord64_planeFaults (o v) : (s.setWord64 o v).planeFaults = s.planeFaults := rfl
@[simp] theorem State.setWord64_time (o v) : (s.setWord64 o v).time = s.time := rfl
@[simp] theorem State.setWord64_pfs (o v) : (s.setWord64 o v).pfs = s.pfs := rfl
@[simp] theorem State.setWord64_evd (o v) : (s.setWord64 o v).evd = s.evd := rfl
@[simp] theorem State.setWord64_evKey (o v) : (s.setWord64 o v).evKey = s.evKey := rfl
@[simp] theorem State.setWord64_trc (o v) : (s.setWord64 o v).trc = s.trc := rfl
@[simp] theorem State.setWord64_trcRun (o v) : (s.setWord64 o v).trcRun = s.trcRun := rfl
@[simp] theorem State.setWord64_cmdNext (o v) : (s.setWord64 o v).cmdNext = s.cmdNext := rfl
@[simp] theorem State.setWord64_cmdQ (o v) : (s.setWord64 o v).cmdQ = s.cmdQ := rfl
@[simp] theorem State.setWord64_cmds (o v) : (s.setWord64 o v).cmds = s.cmds := rfl
@[simp] theorem State.setWord64_asks (o v) : (s.setWord64 o v).asks = s.asks := rfl
@[simp] theorem State.setWord64_leaveQ (o v) : (s.setWord64 o v).leaveQ = s.leaveQ := rfl
@[simp] theorem State.setWord64_leaves (o v) : (s.setWord64 o v).leaves = s.leaves := rfl
@[simp] theorem State.setWord64_gives (o v) : (s.setWord64 o v).gives = s.gives := rfl
@[simp] theorem State.setWord64_claimAt (o v) : (s.setWord64 o v).claimAt = s.claimAt := rfl
@[simp] theorem State.setWord64_heats (o v) : (s.setWord64 o v).heats = s.heats := rfl
@[simp] theorem State.setWord64_relay (o v) : (s.setWord64 o v).relay = s.relay := rfl
@[simp] theorem State.setWord64_joints (o v) : (s.setWord64 o v).joints = s.joints := rfl
@[simp] theorem State.setWord64_clients (o v) : (s.setWord64 o v).clients = s.clients := rfl
@[simp] theorem State.setWord64_heatCrc (o v) : (s.setWord64 o v).heatCrc = s.heatCrc := rfl
@[simp] theorem State.setWord64_slcs (o v) : (s.setWord64 o v).slcs = s.slcs := rfl
@[simp] theorem State.setWord64_migSync (o v) : (s.setWord64 o v).migSync = s.migSync := rfl
@[simp] theorem State.setWord64_captured (o v) : (s.setWord64 o v).captured = s.captured := rfl
@[simp] theorem State.setWord64_intKept (o v) : (s.setWord64 o v).intKept = s.intKept := rfl
@[simp] theorem State.setWord64_plst (o v) : (s.setWord64 o v).plst = s.plst := rfl
@[simp] theorem State.setWord64_planeHit (o v) : (s.setWord64 o v).planeHit = s.planeHit := rfl
@[simp] theorem State.setWord64_floorStep (o v) : (s.setWord64 o v).floorStep = s.floorStep := rfl
@[simp] theorem State.setWord64_floorRun (o v) : (s.setWord64 o v).floorRun = s.floorRun := rfl
@[simp] theorem State.setWord64_rgs (o v) : (s.setWord64 o v).rgs = s.rgs := rfl
@[simp] theorem State.setWord64_pacer (o v) : (s.setWord64 o v).pacer = s.pacer := rfl
@[simp] theorem State.setWord64_start (o v) : (s.setWord64 o v).start = s.start := rfl
@[simp] theorem State.setWord64_cmx (o v) : (s.setWord64 o v).cmx = s.cmx := rfl
@[simp] theorem State.setWord64_starter (o v) : (s.setWord64 o v).starter = s.starter := rfl
@[simp] theorem State.setWord64_sps (o v) : (s.setWord64 o v).sps = s.sps := rfl
@[simp] theorem State.setWord64_links (o v) : (s.setWord64 o v).links = s.links := rfl
@[simp] theorem State.setWord64_tap (o v) : (s.setWord64 o v).tap = s.tap := rfl
@[simp] theorem State.setWord64_scan (o v) : (s.setWord64 o v).scan = s.scan := rfl

/-! ### setNi -/

@[simp] theorem State.setNi_pending (n x) : (s.setNi n x).pending = s.pending := rfl
@[simp] theorem State.setNi_rom (n x) : (s.setNi n x).rom = s.rom := rfl
@[simp] theorem State.setNi_straps (n x) : (s.setNi n x).straps = s.straps := rfl
@[simp] theorem State.setNi_clock (n x) : (s.setNi n x).clock = s.clock := rfl
@[simp] theorem State.setNi_free (n x) : (s.setNi n x).free = s.free := rfl
@[simp] theorem State.setNi_csr (n x) : (s.setNi n x).csr = s.csr := rfl
@[simp] theorem State.setNi_ports (n x) : (s.setNi n x).ports = s.ports := rfl
@[simp] theorem State.setNi_planeFaults (n x) : (s.setNi n x).planeFaults = s.planeFaults := rfl
@[simp] theorem State.setNi_time (n x) : (s.setNi n x).time = s.time := rfl
@[simp] theorem State.setNi_pfs (n x) : (s.setNi n x).pfs = s.pfs := rfl
@[simp] theorem State.setNi_evd (n x) : (s.setNi n x).evd = s.evd := rfl
@[simp] theorem State.setNi_evKey (n x) : (s.setNi n x).evKey = s.evKey := rfl
@[simp] theorem State.setNi_trc (n x) : (s.setNi n x).trc = s.trc := rfl
@[simp] theorem State.setNi_trcRun (n x) : (s.setNi n x).trcRun = s.trcRun := rfl
@[simp] theorem State.setNi_cmdNext (n x) : (s.setNi n x).cmdNext = s.cmdNext := rfl
@[simp] theorem State.setNi_cmdQ (n x) : (s.setNi n x).cmdQ = s.cmdQ := rfl
@[simp] theorem State.setNi_cmds (n x) : (s.setNi n x).cmds = s.cmds := rfl
@[simp] theorem State.setNi_asks (n x) : (s.setNi n x).asks = s.asks := rfl
@[simp] theorem State.setNi_leaveQ (n x) : (s.setNi n x).leaveQ = s.leaveQ := rfl
@[simp] theorem State.setNi_leaves (n x) : (s.setNi n x).leaves = s.leaves := rfl
@[simp] theorem State.setNi_gives (n x) : (s.setNi n x).gives = s.gives := rfl
@[simp] theorem State.setNi_claimAt (n x) : (s.setNi n x).claimAt = s.claimAt := rfl
@[simp] theorem State.setNi_heats (n x) : (s.setNi n x).heats = s.heats := rfl
@[simp] theorem State.setNi_relay (n x) : (s.setNi n x).relay = s.relay := rfl
@[simp] theorem State.setNi_joints (n x) : (s.setNi n x).joints = s.joints := rfl
@[simp] theorem State.setNi_clients (n x) : (s.setNi n x).clients = s.clients := rfl
@[simp] theorem State.setNi_heatCrc (n x) : (s.setNi n x).heatCrc = s.heatCrc := rfl
@[simp] theorem State.setNi_slcs (n x) : (s.setNi n x).slcs = s.slcs := rfl
@[simp] theorem State.setNi_migSync (n x) : (s.setNi n x).migSync = s.migSync := rfl
@[simp] theorem State.setNi_captured (n x) : (s.setNi n x).captured = s.captured := rfl
@[simp] theorem State.setNi_intKept (n x) : (s.setNi n x).intKept = s.intKept := rfl
@[simp] theorem State.setNi_plst (n x) : (s.setNi n x).plst = s.plst := rfl
@[simp] theorem State.setNi_planeHit (n x) : (s.setNi n x).planeHit = s.planeHit := rfl
@[simp] theorem State.setNi_floorStep (n x) : (s.setNi n x).floorStep = s.floorStep := rfl
@[simp] theorem State.setNi_floorRun (n x) : (s.setNi n x).floorRun = s.floorRun := rfl
@[simp] theorem State.setNi_rgs (n x) : (s.setNi n x).rgs = s.rgs := rfl
@[simp] theorem State.setNi_pacer (n x) : (s.setNi n x).pacer = s.pacer := rfl
@[simp] theorem State.setNi_start (n x) : (s.setNi n x).start = s.start := rfl
@[simp] theorem State.setNi_cmx (n x) : (s.setNi n x).cmx = s.cmx := rfl
@[simp] theorem State.setNi_starter (n x) : (s.setNi n x).starter = s.starter := rfl
@[simp] theorem State.setNi_sps (n x) : (s.setNi n x).sps = s.sps := rfl
@[simp] theorem State.setNi_links (n x) : (s.setNi n x).links = s.links := rfl
@[simp] theorem State.setNi_tap (n x) : (s.setNi n x).tap = s.tap := rfl
@[simp] theorem State.setNi_scan (n x) : (s.setNi n x).scan = s.scan := rfl

/-! ### updNi -/

@[simp] theorem State.updNi_pending (n f) : (s.updNi n f).pending = s.pending := rfl
@[simp] theorem State.updNi_rom (n f) : (s.updNi n f).rom = s.rom := rfl
@[simp] theorem State.updNi_straps (n f) : (s.updNi n f).straps = s.straps := rfl
@[simp] theorem State.updNi_clock (n f) : (s.updNi n f).clock = s.clock := rfl
@[simp] theorem State.updNi_free (n f) : (s.updNi n f).free = s.free := rfl
@[simp] theorem State.updNi_csr (n f) : (s.updNi n f).csr = s.csr := rfl
@[simp] theorem State.updNi_ports (n f) : (s.updNi n f).ports = s.ports := rfl
@[simp] theorem State.updNi_planeFaults (n f) : (s.updNi n f).planeFaults = s.planeFaults := rfl
@[simp] theorem State.updNi_time (n f) : (s.updNi n f).time = s.time := rfl
@[simp] theorem State.updNi_pfs (n f) : (s.updNi n f).pfs = s.pfs := rfl
@[simp] theorem State.updNi_evd (n f) : (s.updNi n f).evd = s.evd := rfl
@[simp] theorem State.updNi_evKey (n f) : (s.updNi n f).evKey = s.evKey := rfl
@[simp] theorem State.updNi_trc (n f) : (s.updNi n f).trc = s.trc := rfl
@[simp] theorem State.updNi_trcRun (n f) : (s.updNi n f).trcRun = s.trcRun := rfl
@[simp] theorem State.updNi_cmdNext (n f) : (s.updNi n f).cmdNext = s.cmdNext := rfl
@[simp] theorem State.updNi_cmdQ (n f) : (s.updNi n f).cmdQ = s.cmdQ := rfl
@[simp] theorem State.updNi_cmds (n f) : (s.updNi n f).cmds = s.cmds := rfl
@[simp] theorem State.updNi_asks (n f) : (s.updNi n f).asks = s.asks := rfl
@[simp] theorem State.updNi_leaveQ (n f) : (s.updNi n f).leaveQ = s.leaveQ := rfl
@[simp] theorem State.updNi_leaves (n f) : (s.updNi n f).leaves = s.leaves := rfl
@[simp] theorem State.updNi_gives (n f) : (s.updNi n f).gives = s.gives := rfl
@[simp] theorem State.updNi_claimAt (n f) : (s.updNi n f).claimAt = s.claimAt := rfl
@[simp] theorem State.updNi_heats (n f) : (s.updNi n f).heats = s.heats := rfl
@[simp] theorem State.updNi_relay (n f) : (s.updNi n f).relay = s.relay := rfl
@[simp] theorem State.updNi_joints (n f) : (s.updNi n f).joints = s.joints := rfl
@[simp] theorem State.updNi_clients (n f) : (s.updNi n f).clients = s.clients := rfl
@[simp] theorem State.updNi_heatCrc (n f) : (s.updNi n f).heatCrc = s.heatCrc := rfl
@[simp] theorem State.updNi_slcs (n f) : (s.updNi n f).slcs = s.slcs := rfl
@[simp] theorem State.updNi_migSync (n f) : (s.updNi n f).migSync = s.migSync := rfl
@[simp] theorem State.updNi_captured (n f) : (s.updNi n f).captured = s.captured := rfl
@[simp] theorem State.updNi_intKept (n f) : (s.updNi n f).intKept = s.intKept := rfl
@[simp] theorem State.updNi_plst (n f) : (s.updNi n f).plst = s.plst := rfl
@[simp] theorem State.updNi_planeHit (n f) : (s.updNi n f).planeHit = s.planeHit := rfl
@[simp] theorem State.updNi_floorStep (n f) : (s.updNi n f).floorStep = s.floorStep := rfl
@[simp] theorem State.updNi_floorRun (n f) : (s.updNi n f).floorRun = s.floorRun := rfl
@[simp] theorem State.updNi_rgs (n f) : (s.updNi n f).rgs = s.rgs := rfl
@[simp] theorem State.updNi_pacer (n f) : (s.updNi n f).pacer = s.pacer := rfl
@[simp] theorem State.updNi_start (n f) : (s.updNi n f).start = s.start := rfl
@[simp] theorem State.updNi_cmx (n f) : (s.updNi n f).cmx = s.cmx := rfl
@[simp] theorem State.updNi_starter (n f) : (s.updNi n f).starter = s.starter := rfl
@[simp] theorem State.updNi_sps (n f) : (s.updNi n f).sps = s.sps := rfl
@[simp] theorem State.updNi_links (n f) : (s.updNi n f).links = s.links := rfl
@[simp] theorem State.updNi_tap (n f) : (s.updNi n f).tap = s.tap := rfl
@[simp] theorem State.updNi_scan (n f) : (s.updNi n f).scan = s.scan := rfl

/-! ### setPort -/

@[simp] theorem State.setPort_pending (o x) : (s.setPort o x).pending = s.pending := rfl
@[simp] theorem State.setPort_rom (o x) : (s.setPort o x).rom = s.rom := rfl
@[simp] theorem State.setPort_straps (o x) : (s.setPort o x).straps = s.straps := rfl
@[simp] theorem State.setPort_clock (o x) : (s.setPort o x).clock = s.clock := rfl
@[simp] theorem State.setPort_free (o x) : (s.setPort o x).free = s.free := rfl
@[simp] theorem State.setPort_csr (o x) : (s.setPort o x).csr = s.csr := rfl
@[simp] theorem State.setPort_nis (o x) : (s.setPort o x).nis = s.nis := rfl
@[simp] theorem State.setPort_planeFaults (o x) : (s.setPort o x).planeFaults = s.planeFaults := rfl
@[simp] theorem State.setPort_time (o x) : (s.setPort o x).time = s.time := rfl
@[simp] theorem State.setPort_pfs (o x) : (s.setPort o x).pfs = s.pfs := rfl
@[simp] theorem State.setPort_evd (o x) : (s.setPort o x).evd = s.evd := rfl
@[simp] theorem State.setPort_evKey (o x) : (s.setPort o x).evKey = s.evKey := rfl
@[simp] theorem State.setPort_trc (o x) : (s.setPort o x).trc = s.trc := rfl
@[simp] theorem State.setPort_trcRun (o x) : (s.setPort o x).trcRun = s.trcRun := rfl
@[simp] theorem State.setPort_cmdNext (o x) : (s.setPort o x).cmdNext = s.cmdNext := rfl
@[simp] theorem State.setPort_cmdQ (o x) : (s.setPort o x).cmdQ = s.cmdQ := rfl
@[simp] theorem State.setPort_cmds (o x) : (s.setPort o x).cmds = s.cmds := rfl
@[simp] theorem State.setPort_asks (o x) : (s.setPort o x).asks = s.asks := rfl
@[simp] theorem State.setPort_leaveQ (o x) : (s.setPort o x).leaveQ = s.leaveQ := rfl
@[simp] theorem State.setPort_leaves (o x) : (s.setPort o x).leaves = s.leaves := rfl
@[simp] theorem State.setPort_gives (o x) : (s.setPort o x).gives = s.gives := rfl
@[simp] theorem State.setPort_claimAt (o x) : (s.setPort o x).claimAt = s.claimAt := rfl
@[simp] theorem State.setPort_heats (o x) : (s.setPort o x).heats = s.heats := rfl
@[simp] theorem State.setPort_relay (o x) : (s.setPort o x).relay = s.relay := rfl
@[simp] theorem State.setPort_joints (o x) : (s.setPort o x).joints = s.joints := rfl
@[simp] theorem State.setPort_clients (o x) : (s.setPort o x).clients = s.clients := rfl
@[simp] theorem State.setPort_heatCrc (o x) : (s.setPort o x).heatCrc = s.heatCrc := rfl
@[simp] theorem State.setPort_slcs (o x) : (s.setPort o x).slcs = s.slcs := rfl
@[simp] theorem State.setPort_migSync (o x) : (s.setPort o x).migSync = s.migSync := rfl
@[simp] theorem State.setPort_captured (o x) : (s.setPort o x).captured = s.captured := rfl
@[simp] theorem State.setPort_intKept (o x) : (s.setPort o x).intKept = s.intKept := rfl
@[simp] theorem State.setPort_plst (o x) : (s.setPort o x).plst = s.plst := rfl
@[simp] theorem State.setPort_planeHit (o x) : (s.setPort o x).planeHit = s.planeHit := rfl
@[simp] theorem State.setPort_floorStep (o x) : (s.setPort o x).floorStep = s.floorStep := rfl
@[simp] theorem State.setPort_floorRun (o x) : (s.setPort o x).floorRun = s.floorRun := rfl
@[simp] theorem State.setPort_rgs (o x) : (s.setPort o x).rgs = s.rgs := rfl
@[simp] theorem State.setPort_pacer (o x) : (s.setPort o x).pacer = s.pacer := rfl
@[simp] theorem State.setPort_start (o x) : (s.setPort o x).start = s.start := rfl
@[simp] theorem State.setPort_cmx (o x) : (s.setPort o x).cmx = s.cmx := rfl
@[simp] theorem State.setPort_starter (o x) : (s.setPort o x).starter = s.starter := rfl
@[simp] theorem State.setPort_sps (o x) : (s.setPort o x).sps = s.sps := rfl
@[simp] theorem State.setPort_links (o x) : (s.setPort o x).links = s.links := rfl
@[simp] theorem State.setPort_tap (o x) : (s.setPort o x).tap = s.tap := rfl
@[simp] theorem State.setPort_scan (o x) : (s.setPort o x).scan = s.scan := rfl

/-! ### updPort -/

@[simp] theorem State.updPort_pending (o f) : (s.updPort o f).pending = s.pending := rfl
@[simp] theorem State.updPort_rom (o f) : (s.updPort o f).rom = s.rom := rfl
@[simp] theorem State.updPort_straps (o f) : (s.updPort o f).straps = s.straps := rfl
@[simp] theorem State.updPort_clock (o f) : (s.updPort o f).clock = s.clock := rfl
@[simp] theorem State.updPort_free (o f) : (s.updPort o f).free = s.free := rfl
@[simp] theorem State.updPort_csr (o f) : (s.updPort o f).csr = s.csr := rfl
@[simp] theorem State.updPort_nis (o f) : (s.updPort o f).nis = s.nis := rfl
@[simp] theorem State.updPort_planeFaults (o f) : (s.updPort o f).planeFaults = s.planeFaults := rfl
@[simp] theorem State.updPort_time (o f) : (s.updPort o f).time = s.time := rfl
@[simp] theorem State.updPort_pfs (o f) : (s.updPort o f).pfs = s.pfs := rfl
@[simp] theorem State.updPort_evd (o f) : (s.updPort o f).evd = s.evd := rfl
@[simp] theorem State.updPort_evKey (o f) : (s.updPort o f).evKey = s.evKey := rfl
@[simp] theorem State.updPort_trc (o f) : (s.updPort o f).trc = s.trc := rfl
@[simp] theorem State.updPort_trcRun (o f) : (s.updPort o f).trcRun = s.trcRun := rfl
@[simp] theorem State.updPort_cmdNext (o f) : (s.updPort o f).cmdNext = s.cmdNext := rfl
@[simp] theorem State.updPort_cmdQ (o f) : (s.updPort o f).cmdQ = s.cmdQ := rfl
@[simp] theorem State.updPort_cmds (o f) : (s.updPort o f).cmds = s.cmds := rfl
@[simp] theorem State.updPort_asks (o f) : (s.updPort o f).asks = s.asks := rfl
@[simp] theorem State.updPort_leaveQ (o f) : (s.updPort o f).leaveQ = s.leaveQ := rfl
@[simp] theorem State.updPort_leaves (o f) : (s.updPort o f).leaves = s.leaves := rfl
@[simp] theorem State.updPort_gives (o f) : (s.updPort o f).gives = s.gives := rfl
@[simp] theorem State.updPort_claimAt (o f) : (s.updPort o f).claimAt = s.claimAt := rfl
@[simp] theorem State.updPort_heats (o f) : (s.updPort o f).heats = s.heats := rfl
@[simp] theorem State.updPort_relay (o f) : (s.updPort o f).relay = s.relay := rfl
@[simp] theorem State.updPort_joints (o f) : (s.updPort o f).joints = s.joints := rfl
@[simp] theorem State.updPort_clients (o f) : (s.updPort o f).clients = s.clients := rfl
@[simp] theorem State.updPort_heatCrc (o f) : (s.updPort o f).heatCrc = s.heatCrc := rfl
@[simp] theorem State.updPort_slcs (o f) : (s.updPort o f).slcs = s.slcs := rfl
@[simp] theorem State.updPort_migSync (o f) : (s.updPort o f).migSync = s.migSync := rfl
@[simp] theorem State.updPort_captured (o f) : (s.updPort o f).captured = s.captured := rfl
@[simp] theorem State.updPort_intKept (o f) : (s.updPort o f).intKept = s.intKept := rfl
@[simp] theorem State.updPort_plst (o f) : (s.updPort o f).plst = s.plst := rfl
@[simp] theorem State.updPort_planeHit (o f) : (s.updPort o f).planeHit = s.planeHit := rfl
@[simp] theorem State.updPort_floorStep (o f) : (s.updPort o f).floorStep = s.floorStep := rfl
@[simp] theorem State.updPort_floorRun (o f) : (s.updPort o f).floorRun = s.floorRun := rfl
@[simp] theorem State.updPort_rgs (o f) : (s.updPort o f).rgs = s.rgs := rfl
@[simp] theorem State.updPort_pacer (o f) : (s.updPort o f).pacer = s.pacer := rfl
@[simp] theorem State.updPort_start (o f) : (s.updPort o f).start = s.start := rfl
@[simp] theorem State.updPort_cmx (o f) : (s.updPort o f).cmx = s.cmx := rfl
@[simp] theorem State.updPort_starter (o f) : (s.updPort o f).starter = s.starter := rfl
@[simp] theorem State.updPort_sps (o f) : (s.updPort o f).sps = s.sps := rfl
@[simp] theorem State.updPort_links (o f) : (s.updPort o f).links = s.links := rfl
@[simp] theorem State.updPort_tap (o f) : (s.updPort o f).tap = s.tap := rfl
@[simp] theorem State.updPort_scan (o f) : (s.updPort o f).scan = s.scan := rfl

/-! ### updRg -/

@[simp] theorem State.updRg_pending (g f) : (s.updRg g f).pending = s.pending := rfl
@[simp] theorem State.updRg_rom (g f) : (s.updRg g f).rom = s.rom := rfl
@[simp] theorem State.updRg_straps (g f) : (s.updRg g f).straps = s.straps := rfl
@[simp] theorem State.updRg_clock (g f) : (s.updRg g f).clock = s.clock := rfl
@[simp] theorem State.updRg_free (g f) : (s.updRg g f).free = s.free := rfl
@[simp] theorem State.updRg_csr (g f) : (s.updRg g f).csr = s.csr := rfl
@[simp] theorem State.updRg_nis (g f) : (s.updRg g f).nis = s.nis := rfl
@[simp] theorem State.updRg_ports (g f) : (s.updRg g f).ports = s.ports := rfl
@[simp] theorem State.updRg_planeFaults (g f) : (s.updRg g f).planeFaults = s.planeFaults := rfl
@[simp] theorem State.updRg_time (g f) : (s.updRg g f).time = s.time := rfl
@[simp] theorem State.updRg_pfs (g f) : (s.updRg g f).pfs = s.pfs := rfl
@[simp] theorem State.updRg_evd (g f) : (s.updRg g f).evd = s.evd := rfl
@[simp] theorem State.updRg_evKey (g f) : (s.updRg g f).evKey = s.evKey := rfl
@[simp] theorem State.updRg_trc (g f) : (s.updRg g f).trc = s.trc := rfl
@[simp] theorem State.updRg_trcRun (g f) : (s.updRg g f).trcRun = s.trcRun := rfl
@[simp] theorem State.updRg_cmdNext (g f) : (s.updRg g f).cmdNext = s.cmdNext := rfl
@[simp] theorem State.updRg_cmdQ (g f) : (s.updRg g f).cmdQ = s.cmdQ := rfl
@[simp] theorem State.updRg_cmds (g f) : (s.updRg g f).cmds = s.cmds := rfl
@[simp] theorem State.updRg_asks (g f) : (s.updRg g f).asks = s.asks := rfl
@[simp] theorem State.updRg_leaveQ (g f) : (s.updRg g f).leaveQ = s.leaveQ := rfl
@[simp] theorem State.updRg_leaves (g f) : (s.updRg g f).leaves = s.leaves := rfl
@[simp] theorem State.updRg_gives (g f) : (s.updRg g f).gives = s.gives := rfl
@[simp] theorem State.updRg_claimAt (g f) : (s.updRg g f).claimAt = s.claimAt := rfl
@[simp] theorem State.updRg_heats (g f) : (s.updRg g f).heats = s.heats := rfl
@[simp] theorem State.updRg_relay (g f) : (s.updRg g f).relay = s.relay := rfl
@[simp] theorem State.updRg_joints (g f) : (s.updRg g f).joints = s.joints := rfl
@[simp] theorem State.updRg_clients (g f) : (s.updRg g f).clients = s.clients := rfl
@[simp] theorem State.updRg_heatCrc (g f) : (s.updRg g f).heatCrc = s.heatCrc := rfl
@[simp] theorem State.updRg_slcs (g f) : (s.updRg g f).slcs = s.slcs := rfl
@[simp] theorem State.updRg_migSync (g f) : (s.updRg g f).migSync = s.migSync := rfl
@[simp] theorem State.updRg_captured (g f) : (s.updRg g f).captured = s.captured := rfl
@[simp] theorem State.updRg_intKept (g f) : (s.updRg g f).intKept = s.intKept := rfl
@[simp] theorem State.updRg_plst (g f) : (s.updRg g f).plst = s.plst := rfl
@[simp] theorem State.updRg_planeHit (g f) : (s.updRg g f).planeHit = s.planeHit := rfl
@[simp] theorem State.updRg_floorStep (g f) : (s.updRg g f).floorStep = s.floorStep := rfl
@[simp] theorem State.updRg_floorRun (g f) : (s.updRg g f).floorRun = s.floorRun := rfl
@[simp] theorem State.updRg_pacer (g f) : (s.updRg g f).pacer = s.pacer := rfl
@[simp] theorem State.updRg_start (g f) : (s.updRg g f).start = s.start := rfl
@[simp] theorem State.updRg_cmx (g f) : (s.updRg g f).cmx = s.cmx := rfl
@[simp] theorem State.updRg_starter (g f) : (s.updRg g f).starter = s.starter := rfl
@[simp] theorem State.updRg_sps (g f) : (s.updRg g f).sps = s.sps := rfl
@[simp] theorem State.updRg_links (g f) : (s.updRg g f).links = s.links := rfl
@[simp] theorem State.updRg_tap (g f) : (s.updRg g f).tap = s.tap := rfl
@[simp] theorem State.updRg_scan (g f) : (s.updRg g f).scan = s.scan := rfl

/-! ### updTime -/

@[simp] theorem State.updTime_pending (f) : (s.updTime f).pending = s.pending := rfl
@[simp] theorem State.updTime_rom (f) : (s.updTime f).rom = s.rom := rfl
@[simp] theorem State.updTime_straps (f) : (s.updTime f).straps = s.straps := rfl
@[simp] theorem State.updTime_clock (f) : (s.updTime f).clock = s.clock := rfl
@[simp] theorem State.updTime_free (f) : (s.updTime f).free = s.free := rfl
@[simp] theorem State.updTime_csr (f) : (s.updTime f).csr = s.csr := rfl
@[simp] theorem State.updTime_nis (f) : (s.updTime f).nis = s.nis := rfl
@[simp] theorem State.updTime_ports (f) : (s.updTime f).ports = s.ports := rfl
@[simp] theorem State.updTime_planeFaults (f) : (s.updTime f).planeFaults = s.planeFaults := rfl
@[simp] theorem State.updTime_pfs (f) : (s.updTime f).pfs = s.pfs := rfl
@[simp] theorem State.updTime_evd (f) : (s.updTime f).evd = s.evd := rfl
@[simp] theorem State.updTime_evKey (f) : (s.updTime f).evKey = s.evKey := rfl
@[simp] theorem State.updTime_trc (f) : (s.updTime f).trc = s.trc := rfl
@[simp] theorem State.updTime_trcRun (f) : (s.updTime f).trcRun = s.trcRun := rfl
@[simp] theorem State.updTime_cmdNext (f) : (s.updTime f).cmdNext = s.cmdNext := rfl
@[simp] theorem State.updTime_cmdQ (f) : (s.updTime f).cmdQ = s.cmdQ := rfl
@[simp] theorem State.updTime_cmds (f) : (s.updTime f).cmds = s.cmds := rfl
@[simp] theorem State.updTime_asks (f) : (s.updTime f).asks = s.asks := rfl
@[simp] theorem State.updTime_leaveQ (f) : (s.updTime f).leaveQ = s.leaveQ := rfl
@[simp] theorem State.updTime_leaves (f) : (s.updTime f).leaves = s.leaves := rfl
@[simp] theorem State.updTime_gives (f) : (s.updTime f).gives = s.gives := rfl
@[simp] theorem State.updTime_claimAt (f) : (s.updTime f).claimAt = s.claimAt := rfl
@[simp] theorem State.updTime_heats (f) : (s.updTime f).heats = s.heats := rfl
@[simp] theorem State.updTime_relay (f) : (s.updTime f).relay = s.relay := rfl
@[simp] theorem State.updTime_joints (f) : (s.updTime f).joints = s.joints := rfl
@[simp] theorem State.updTime_clients (f) : (s.updTime f).clients = s.clients := rfl
@[simp] theorem State.updTime_heatCrc (f) : (s.updTime f).heatCrc = s.heatCrc := rfl
@[simp] theorem State.updTime_slcs (f) : (s.updTime f).slcs = s.slcs := rfl
@[simp] theorem State.updTime_migSync (f) : (s.updTime f).migSync = s.migSync := rfl
@[simp] theorem State.updTime_captured (f) : (s.updTime f).captured = s.captured := rfl
@[simp] theorem State.updTime_intKept (f) : (s.updTime f).intKept = s.intKept := rfl
@[simp] theorem State.updTime_plst (f) : (s.updTime f).plst = s.plst := rfl
@[simp] theorem State.updTime_planeHit (f) : (s.updTime f).planeHit = s.planeHit := rfl
@[simp] theorem State.updTime_floorStep (f) : (s.updTime f).floorStep = s.floorStep := rfl
@[simp] theorem State.updTime_floorRun (f) : (s.updTime f).floorRun = s.floorRun := rfl
@[simp] theorem State.updTime_rgs (f) : (s.updTime f).rgs = s.rgs := rfl
@[simp] theorem State.updTime_pacer (f) : (s.updTime f).pacer = s.pacer := rfl
@[simp] theorem State.updTime_start (f) : (s.updTime f).start = s.start := rfl
@[simp] theorem State.updTime_cmx (f) : (s.updTime f).cmx = s.cmx := rfl
@[simp] theorem State.updTime_starter (f) : (s.updTime f).starter = s.starter := rfl
@[simp] theorem State.updTime_sps (f) : (s.updTime f).sps = s.sps := rfl
@[simp] theorem State.updTime_links (f) : (s.updTime f).links = s.links := rfl
@[simp] theorem State.updTime_tap (f) : (s.updTime f).tap = s.tap := rfl
@[simp] theorem State.updTime_scan (f) : (s.updTime f).scan = s.scan := rfl

/-! ### updPacer -/

@[simp] theorem State.updPacer_pending (f) : (s.updPacer f).pending = s.pending := rfl
@[simp] theorem State.updPacer_rom (f) : (s.updPacer f).rom = s.rom := rfl
@[simp] theorem State.updPacer_straps (f) : (s.updPacer f).straps = s.straps := rfl
@[simp] theorem State.updPacer_clock (f) : (s.updPacer f).clock = s.clock := rfl
@[simp] theorem State.updPacer_free (f) : (s.updPacer f).free = s.free := rfl
@[simp] theorem State.updPacer_csr (f) : (s.updPacer f).csr = s.csr := rfl
@[simp] theorem State.updPacer_nis (f) : (s.updPacer f).nis = s.nis := rfl
@[simp] theorem State.updPacer_ports (f) : (s.updPacer f).ports = s.ports := rfl
@[simp] theorem State.updPacer_planeFaults (f) : (s.updPacer f).planeFaults = s.planeFaults := rfl
@[simp] theorem State.updPacer_time (f) : (s.updPacer f).time = s.time := rfl
@[simp] theorem State.updPacer_pfs (f) : (s.updPacer f).pfs = s.pfs := rfl
@[simp] theorem State.updPacer_evd (f) : (s.updPacer f).evd = s.evd := rfl
@[simp] theorem State.updPacer_evKey (f) : (s.updPacer f).evKey = s.evKey := rfl
@[simp] theorem State.updPacer_trc (f) : (s.updPacer f).trc = s.trc := rfl
@[simp] theorem State.updPacer_trcRun (f) : (s.updPacer f).trcRun = s.trcRun := rfl
@[simp] theorem State.updPacer_cmdNext (f) : (s.updPacer f).cmdNext = s.cmdNext := rfl
@[simp] theorem State.updPacer_cmdQ (f) : (s.updPacer f).cmdQ = s.cmdQ := rfl
@[simp] theorem State.updPacer_cmds (f) : (s.updPacer f).cmds = s.cmds := rfl
@[simp] theorem State.updPacer_asks (f) : (s.updPacer f).asks = s.asks := rfl
@[simp] theorem State.updPacer_leaveQ (f) : (s.updPacer f).leaveQ = s.leaveQ := rfl
@[simp] theorem State.updPacer_leaves (f) : (s.updPacer f).leaves = s.leaves := rfl
@[simp] theorem State.updPacer_gives (f) : (s.updPacer f).gives = s.gives := rfl
@[simp] theorem State.updPacer_claimAt (f) : (s.updPacer f).claimAt = s.claimAt := rfl
@[simp] theorem State.updPacer_heats (f) : (s.updPacer f).heats = s.heats := rfl
@[simp] theorem State.updPacer_relay (f) : (s.updPacer f).relay = s.relay := rfl
@[simp] theorem State.updPacer_joints (f) : (s.updPacer f).joints = s.joints := rfl
@[simp] theorem State.updPacer_clients (f) : (s.updPacer f).clients = s.clients := rfl
@[simp] theorem State.updPacer_heatCrc (f) : (s.updPacer f).heatCrc = s.heatCrc := rfl
@[simp] theorem State.updPacer_slcs (f) : (s.updPacer f).slcs = s.slcs := rfl
@[simp] theorem State.updPacer_migSync (f) : (s.updPacer f).migSync = s.migSync := rfl
@[simp] theorem State.updPacer_captured (f) : (s.updPacer f).captured = s.captured := rfl
@[simp] theorem State.updPacer_intKept (f) : (s.updPacer f).intKept = s.intKept := rfl
@[simp] theorem State.updPacer_plst (f) : (s.updPacer f).plst = s.plst := rfl
@[simp] theorem State.updPacer_planeHit (f) : (s.updPacer f).planeHit = s.planeHit := rfl
@[simp] theorem State.updPacer_floorStep (f) : (s.updPacer f).floorStep = s.floorStep := rfl
@[simp] theorem State.updPacer_floorRun (f) : (s.updPacer f).floorRun = s.floorRun := rfl
@[simp] theorem State.updPacer_rgs (f) : (s.updPacer f).rgs = s.rgs := rfl
@[simp] theorem State.updPacer_start (f) : (s.updPacer f).start = s.start := rfl
@[simp] theorem State.updPacer_cmx (f) : (s.updPacer f).cmx = s.cmx := rfl
@[simp] theorem State.updPacer_starter (f) : (s.updPacer f).starter = s.starter := rfl
@[simp] theorem State.updPacer_sps (f) : (s.updPacer f).sps = s.sps := rfl
@[simp] theorem State.updPacer_links (f) : (s.updPacer f).links = s.links := rfl
@[simp] theorem State.updPacer_tap (f) : (s.updPacer f).tap = s.tap := rfl
@[simp] theorem State.updPacer_scan (f) : (s.updPacer f).scan = s.scan := rfl

/-! ### updCmx -/

@[simp] theorem State.updCmx_pending (f) : (s.updCmx f).pending = s.pending := rfl
@[simp] theorem State.updCmx_rom (f) : (s.updCmx f).rom = s.rom := rfl
@[simp] theorem State.updCmx_straps (f) : (s.updCmx f).straps = s.straps := rfl
@[simp] theorem State.updCmx_clock (f) : (s.updCmx f).clock = s.clock := rfl
@[simp] theorem State.updCmx_free (f) : (s.updCmx f).free = s.free := rfl
@[simp] theorem State.updCmx_csr (f) : (s.updCmx f).csr = s.csr := rfl
@[simp] theorem State.updCmx_nis (f) : (s.updCmx f).nis = s.nis := rfl
@[simp] theorem State.updCmx_ports (f) : (s.updCmx f).ports = s.ports := rfl
@[simp] theorem State.updCmx_planeFaults (f) : (s.updCmx f).planeFaults = s.planeFaults := rfl
@[simp] theorem State.updCmx_time (f) : (s.updCmx f).time = s.time := rfl
@[simp] theorem State.updCmx_pfs (f) : (s.updCmx f).pfs = s.pfs := rfl
@[simp] theorem State.updCmx_evd (f) : (s.updCmx f).evd = s.evd := rfl
@[simp] theorem State.updCmx_evKey (f) : (s.updCmx f).evKey = s.evKey := rfl
@[simp] theorem State.updCmx_trc (f) : (s.updCmx f).trc = s.trc := rfl
@[simp] theorem State.updCmx_trcRun (f) : (s.updCmx f).trcRun = s.trcRun := rfl
@[simp] theorem State.updCmx_cmdNext (f) : (s.updCmx f).cmdNext = s.cmdNext := rfl
@[simp] theorem State.updCmx_cmdQ (f) : (s.updCmx f).cmdQ = s.cmdQ := rfl
@[simp] theorem State.updCmx_cmds (f) : (s.updCmx f).cmds = s.cmds := rfl
@[simp] theorem State.updCmx_asks (f) : (s.updCmx f).asks = s.asks := rfl
@[simp] theorem State.updCmx_leaveQ (f) : (s.updCmx f).leaveQ = s.leaveQ := rfl
@[simp] theorem State.updCmx_leaves (f) : (s.updCmx f).leaves = s.leaves := rfl
@[simp] theorem State.updCmx_gives (f) : (s.updCmx f).gives = s.gives := rfl
@[simp] theorem State.updCmx_claimAt (f) : (s.updCmx f).claimAt = s.claimAt := rfl
@[simp] theorem State.updCmx_heats (f) : (s.updCmx f).heats = s.heats := rfl
@[simp] theorem State.updCmx_relay (f) : (s.updCmx f).relay = s.relay := rfl
@[simp] theorem State.updCmx_joints (f) : (s.updCmx f).joints = s.joints := rfl
@[simp] theorem State.updCmx_clients (f) : (s.updCmx f).clients = s.clients := rfl
@[simp] theorem State.updCmx_heatCrc (f) : (s.updCmx f).heatCrc = s.heatCrc := rfl
@[simp] theorem State.updCmx_slcs (f) : (s.updCmx f).slcs = s.slcs := rfl
@[simp] theorem State.updCmx_migSync (f) : (s.updCmx f).migSync = s.migSync := rfl
@[simp] theorem State.updCmx_captured (f) : (s.updCmx f).captured = s.captured := rfl
@[simp] theorem State.updCmx_intKept (f) : (s.updCmx f).intKept = s.intKept := rfl
@[simp] theorem State.updCmx_plst (f) : (s.updCmx f).plst = s.plst := rfl
@[simp] theorem State.updCmx_planeHit (f) : (s.updCmx f).planeHit = s.planeHit := rfl
@[simp] theorem State.updCmx_floorStep (f) : (s.updCmx f).floorStep = s.floorStep := rfl
@[simp] theorem State.updCmx_floorRun (f) : (s.updCmx f).floorRun = s.floorRun := rfl
@[simp] theorem State.updCmx_rgs (f) : (s.updCmx f).rgs = s.rgs := rfl
@[simp] theorem State.updCmx_pacer (f) : (s.updCmx f).pacer = s.pacer := rfl
@[simp] theorem State.updCmx_start (f) : (s.updCmx f).start = s.start := rfl
@[simp] theorem State.updCmx_starter (f) : (s.updCmx f).starter = s.starter := rfl
@[simp] theorem State.updCmx_sps (f) : (s.updCmx f).sps = s.sps := rfl
@[simp] theorem State.updCmx_links (f) : (s.updCmx f).links = s.links := rfl
@[simp] theorem State.updCmx_tap (f) : (s.updCmx f).tap = s.tap := rfl
@[simp] theorem State.updCmx_scan (f) : (s.updCmx f).scan = s.scan := rfl

/-! ### setHeat -/

@[simp] theorem State.setHeat_pending (k v) : (s.setHeat k v).pending = s.pending := rfl
@[simp] theorem State.setHeat_rom (k v) : (s.setHeat k v).rom = s.rom := rfl
@[simp] theorem State.setHeat_straps (k v) : (s.setHeat k v).straps = s.straps := rfl
@[simp] theorem State.setHeat_clock (k v) : (s.setHeat k v).clock = s.clock := rfl
@[simp] theorem State.setHeat_free (k v) : (s.setHeat k v).free = s.free := rfl
@[simp] theorem State.setHeat_csr (k v) : (s.setHeat k v).csr = s.csr := rfl
@[simp] theorem State.setHeat_nis (k v) : (s.setHeat k v).nis = s.nis := rfl
@[simp] theorem State.setHeat_ports (k v) : (s.setHeat k v).ports = s.ports := rfl
@[simp] theorem State.setHeat_planeFaults (k v) : (s.setHeat k v).planeFaults = s.planeFaults := rfl
@[simp] theorem State.setHeat_time (k v) : (s.setHeat k v).time = s.time := rfl
@[simp] theorem State.setHeat_pfs (k v) : (s.setHeat k v).pfs = s.pfs := rfl
@[simp] theorem State.setHeat_evd (k v) : (s.setHeat k v).evd = s.evd := rfl
@[simp] theorem State.setHeat_evKey (k v) : (s.setHeat k v).evKey = s.evKey := rfl
@[simp] theorem State.setHeat_trc (k v) : (s.setHeat k v).trc = s.trc := rfl
@[simp] theorem State.setHeat_trcRun (k v) : (s.setHeat k v).trcRun = s.trcRun := rfl
@[simp] theorem State.setHeat_cmdNext (k v) : (s.setHeat k v).cmdNext = s.cmdNext := rfl
@[simp] theorem State.setHeat_cmdQ (k v) : (s.setHeat k v).cmdQ = s.cmdQ := rfl
@[simp] theorem State.setHeat_cmds (k v) : (s.setHeat k v).cmds = s.cmds := rfl
@[simp] theorem State.setHeat_asks (k v) : (s.setHeat k v).asks = s.asks := rfl
@[simp] theorem State.setHeat_leaveQ (k v) : (s.setHeat k v).leaveQ = s.leaveQ := rfl
@[simp] theorem State.setHeat_leaves (k v) : (s.setHeat k v).leaves = s.leaves := rfl
@[simp] theorem State.setHeat_gives (k v) : (s.setHeat k v).gives = s.gives := rfl
@[simp] theorem State.setHeat_claimAt (k v) : (s.setHeat k v).claimAt = s.claimAt := rfl
@[simp] theorem State.setHeat_relay (k v) : (s.setHeat k v).relay = s.relay := rfl
@[simp] theorem State.setHeat_joints (k v) : (s.setHeat k v).joints = s.joints := rfl
@[simp] theorem State.setHeat_clients (k v) : (s.setHeat k v).clients = s.clients := rfl
@[simp] theorem State.setHeat_heatCrc (k v) : (s.setHeat k v).heatCrc = s.heatCrc := rfl
@[simp] theorem State.setHeat_slcs (k v) : (s.setHeat k v).slcs = s.slcs := rfl
@[simp] theorem State.setHeat_migSync (k v) : (s.setHeat k v).migSync = s.migSync := rfl
@[simp] theorem State.setHeat_captured (k v) : (s.setHeat k v).captured = s.captured := rfl
@[simp] theorem State.setHeat_intKept (k v) : (s.setHeat k v).intKept = s.intKept := rfl
@[simp] theorem State.setHeat_plst (k v) : (s.setHeat k v).plst = s.plst := rfl
@[simp] theorem State.setHeat_planeHit (k v) : (s.setHeat k v).planeHit = s.planeHit := rfl
@[simp] theorem State.setHeat_floorStep (k v) : (s.setHeat k v).floorStep = s.floorStep := rfl
@[simp] theorem State.setHeat_floorRun (k v) : (s.setHeat k v).floorRun = s.floorRun := rfl
@[simp] theorem State.setHeat_rgs (k v) : (s.setHeat k v).rgs = s.rgs := rfl
@[simp] theorem State.setHeat_pacer (k v) : (s.setHeat k v).pacer = s.pacer := rfl
@[simp] theorem State.setHeat_start (k v) : (s.setHeat k v).start = s.start := rfl
@[simp] theorem State.setHeat_cmx (k v) : (s.setHeat k v).cmx = s.cmx := rfl
@[simp] theorem State.setHeat_starter (k v) : (s.setHeat k v).starter = s.starter := rfl
@[simp] theorem State.setHeat_sps (k v) : (s.setHeat k v).sps = s.sps := rfl
@[simp] theorem State.setHeat_links (k v) : (s.setHeat k v).links = s.links := rfl
@[simp] theorem State.setHeat_tap (k v) : (s.setHeat k v).tap = s.tap := rfl
@[simp] theorem State.setHeat_scan (k v) : (s.setHeat k v).scan = s.scan := rfl

/-! ### updLk -/

@[simp] theorem State.updLk_pending (c f) : (s.updLk c f).pending = s.pending := rfl
@[simp] theorem State.updLk_rom (c f) : (s.updLk c f).rom = s.rom := rfl
@[simp] theorem State.updLk_straps (c f) : (s.updLk c f).straps = s.straps := rfl
@[simp] theorem State.updLk_clock (c f) : (s.updLk c f).clock = s.clock := rfl
@[simp] theorem State.updLk_free (c f) : (s.updLk c f).free = s.free := rfl
@[simp] theorem State.updLk_csr (c f) : (s.updLk c f).csr = s.csr := rfl
@[simp] theorem State.updLk_nis (c f) : (s.updLk c f).nis = s.nis := rfl
@[simp] theorem State.updLk_ports (c f) : (s.updLk c f).ports = s.ports := rfl
@[simp] theorem State.updLk_planeFaults (c f) : (s.updLk c f).planeFaults = s.planeFaults := rfl
@[simp] theorem State.updLk_time (c f) : (s.updLk c f).time = s.time := rfl
@[simp] theorem State.updLk_pfs (c f) : (s.updLk c f).pfs = s.pfs := rfl
@[simp] theorem State.updLk_evd (c f) : (s.updLk c f).evd = s.evd := rfl
@[simp] theorem State.updLk_evKey (c f) : (s.updLk c f).evKey = s.evKey := rfl
@[simp] theorem State.updLk_trc (c f) : (s.updLk c f).trc = s.trc := rfl
@[simp] theorem State.updLk_trcRun (c f) : (s.updLk c f).trcRun = s.trcRun := rfl
@[simp] theorem State.updLk_cmdNext (c f) : (s.updLk c f).cmdNext = s.cmdNext := rfl
@[simp] theorem State.updLk_cmdQ (c f) : (s.updLk c f).cmdQ = s.cmdQ := rfl
@[simp] theorem State.updLk_cmds (c f) : (s.updLk c f).cmds = s.cmds := rfl
@[simp] theorem State.updLk_asks (c f) : (s.updLk c f).asks = s.asks := rfl
@[simp] theorem State.updLk_leaveQ (c f) : (s.updLk c f).leaveQ = s.leaveQ := rfl
@[simp] theorem State.updLk_leaves (c f) : (s.updLk c f).leaves = s.leaves := rfl
@[simp] theorem State.updLk_gives (c f) : (s.updLk c f).gives = s.gives := rfl
@[simp] theorem State.updLk_claimAt (c f) : (s.updLk c f).claimAt = s.claimAt := rfl
@[simp] theorem State.updLk_heats (c f) : (s.updLk c f).heats = s.heats := rfl
@[simp] theorem State.updLk_relay (c f) : (s.updLk c f).relay = s.relay := rfl
@[simp] theorem State.updLk_joints (c f) : (s.updLk c f).joints = s.joints := rfl
@[simp] theorem State.updLk_clients (c f) : (s.updLk c f).clients = s.clients := rfl
@[simp] theorem State.updLk_heatCrc (c f) : (s.updLk c f).heatCrc = s.heatCrc := rfl
@[simp] theorem State.updLk_slcs (c f) : (s.updLk c f).slcs = s.slcs := rfl
@[simp] theorem State.updLk_migSync (c f) : (s.updLk c f).migSync = s.migSync := rfl
@[simp] theorem State.updLk_captured (c f) : (s.updLk c f).captured = s.captured := rfl
@[simp] theorem State.updLk_intKept (c f) : (s.updLk c f).intKept = s.intKept := rfl
@[simp] theorem State.updLk_plst (c f) : (s.updLk c f).plst = s.plst := rfl
@[simp] theorem State.updLk_planeHit (c f) : (s.updLk c f).planeHit = s.planeHit := rfl
@[simp] theorem State.updLk_floorStep (c f) : (s.updLk c f).floorStep = s.floorStep := rfl
@[simp] theorem State.updLk_floorRun (c f) : (s.updLk c f).floorRun = s.floorRun := rfl
@[simp] theorem State.updLk_rgs (c f) : (s.updLk c f).rgs = s.rgs := rfl
@[simp] theorem State.updLk_pacer (c f) : (s.updLk c f).pacer = s.pacer := rfl
@[simp] theorem State.updLk_start (c f) : (s.updLk c f).start = s.start := rfl
@[simp] theorem State.updLk_cmx (c f) : (s.updLk c f).cmx = s.cmx := rfl
@[simp] theorem State.updLk_starter (c f) : (s.updLk c f).starter = s.starter := rfl
@[simp] theorem State.updLk_sps (c f) : (s.updLk c f).sps = s.sps := rfl
@[simp] theorem State.updLk_tap (c f) : (s.updLk c f).tap = s.tap := rfl
@[simp] theorem State.updLk_scan (c f) : (s.updLk c f).scan = s.scan := rfl

/-! ### updSlc -/

@[simp] theorem State.updSlc_pending (l f) : (s.updSlc l f).pending = s.pending := rfl
@[simp] theorem State.updSlc_rom (l f) : (s.updSlc l f).rom = s.rom := rfl
@[simp] theorem State.updSlc_straps (l f) : (s.updSlc l f).straps = s.straps := rfl
@[simp] theorem State.updSlc_clock (l f) : (s.updSlc l f).clock = s.clock := rfl
@[simp] theorem State.updSlc_free (l f) : (s.updSlc l f).free = s.free := rfl
@[simp] theorem State.updSlc_csr (l f) : (s.updSlc l f).csr = s.csr := rfl
@[simp] theorem State.updSlc_nis (l f) : (s.updSlc l f).nis = s.nis := rfl
@[simp] theorem State.updSlc_ports (l f) : (s.updSlc l f).ports = s.ports := rfl
@[simp] theorem State.updSlc_planeFaults (l f) : (s.updSlc l f).planeFaults = s.planeFaults := rfl
@[simp] theorem State.updSlc_time (l f) : (s.updSlc l f).time = s.time := rfl
@[simp] theorem State.updSlc_pfs (l f) : (s.updSlc l f).pfs = s.pfs := rfl
@[simp] theorem State.updSlc_evd (l f) : (s.updSlc l f).evd = s.evd := rfl
@[simp] theorem State.updSlc_evKey (l f) : (s.updSlc l f).evKey = s.evKey := rfl
@[simp] theorem State.updSlc_trc (l f) : (s.updSlc l f).trc = s.trc := rfl
@[simp] theorem State.updSlc_trcRun (l f) : (s.updSlc l f).trcRun = s.trcRun := rfl
@[simp] theorem State.updSlc_cmdNext (l f) : (s.updSlc l f).cmdNext = s.cmdNext := rfl
@[simp] theorem State.updSlc_cmdQ (l f) : (s.updSlc l f).cmdQ = s.cmdQ := rfl
@[simp] theorem State.updSlc_cmds (l f) : (s.updSlc l f).cmds = s.cmds := rfl
@[simp] theorem State.updSlc_asks (l f) : (s.updSlc l f).asks = s.asks := rfl
@[simp] theorem State.updSlc_leaveQ (l f) : (s.updSlc l f).leaveQ = s.leaveQ := rfl
@[simp] theorem State.updSlc_leaves (l f) : (s.updSlc l f).leaves = s.leaves := rfl
@[simp] theorem State.updSlc_gives (l f) : (s.updSlc l f).gives = s.gives := rfl
@[simp] theorem State.updSlc_claimAt (l f) : (s.updSlc l f).claimAt = s.claimAt := rfl
@[simp] theorem State.updSlc_heats (l f) : (s.updSlc l f).heats = s.heats := rfl
@[simp] theorem State.updSlc_relay (l f) : (s.updSlc l f).relay = s.relay := rfl
@[simp] theorem State.updSlc_joints (l f) : (s.updSlc l f).joints = s.joints := rfl
@[simp] theorem State.updSlc_clients (l f) : (s.updSlc l f).clients = s.clients := rfl
@[simp] theorem State.updSlc_heatCrc (l f) : (s.updSlc l f).heatCrc = s.heatCrc := rfl
@[simp] theorem State.updSlc_migSync (l f) : (s.updSlc l f).migSync = s.migSync := rfl
@[simp] theorem State.updSlc_captured (l f) : (s.updSlc l f).captured = s.captured := rfl
@[simp] theorem State.updSlc_intKept (l f) : (s.updSlc l f).intKept = s.intKept := rfl
@[simp] theorem State.updSlc_plst (l f) : (s.updSlc l f).plst = s.plst := rfl
@[simp] theorem State.updSlc_planeHit (l f) : (s.updSlc l f).planeHit = s.planeHit := rfl
@[simp] theorem State.updSlc_floorStep (l f) : (s.updSlc l f).floorStep = s.floorStep := rfl
@[simp] theorem State.updSlc_floorRun (l f) : (s.updSlc l f).floorRun = s.floorRun := rfl
@[simp] theorem State.updSlc_rgs (l f) : (s.updSlc l f).rgs = s.rgs := rfl
@[simp] theorem State.updSlc_pacer (l f) : (s.updSlc l f).pacer = s.pacer := rfl
@[simp] theorem State.updSlc_start (l f) : (s.updSlc l f).start = s.start := rfl
@[simp] theorem State.updSlc_cmx (l f) : (s.updSlc l f).cmx = s.cmx := rfl
@[simp] theorem State.updSlc_starter (l f) : (s.updSlc l f).starter = s.starter := rfl
@[simp] theorem State.updSlc_sps (l f) : (s.updSlc l f).sps = s.sps := rfl
@[simp] theorem State.updSlc_links (l f) : (s.updSlc l f).links = s.links := rfl
@[simp] theorem State.updSlc_tap (l f) : (s.updSlc l f).tap = s.tap := rfl
@[simp] theorem State.updSlc_scan (l f) : (s.updSlc l f).scan = s.scan := rfl

/-! ### updPln -/

@[simp] theorem State.updPln_pending (p f) : (s.updPln p f).pending = s.pending := rfl
@[simp] theorem State.updPln_rom (p f) : (s.updPln p f).rom = s.rom := rfl
@[simp] theorem State.updPln_straps (p f) : (s.updPln p f).straps = s.straps := rfl
@[simp] theorem State.updPln_clock (p f) : (s.updPln p f).clock = s.clock := rfl
@[simp] theorem State.updPln_free (p f) : (s.updPln p f).free = s.free := rfl
@[simp] theorem State.updPln_csr (p f) : (s.updPln p f).csr = s.csr := rfl
@[simp] theorem State.updPln_nis (p f) : (s.updPln p f).nis = s.nis := rfl
@[simp] theorem State.updPln_ports (p f) : (s.updPln p f).ports = s.ports := rfl
@[simp] theorem State.updPln_planeFaults (p f) : (s.updPln p f).planeFaults = s.planeFaults := rfl
@[simp] theorem State.updPln_time (p f) : (s.updPln p f).time = s.time := rfl
@[simp] theorem State.updPln_pfs (p f) : (s.updPln p f).pfs = s.pfs := rfl
@[simp] theorem State.updPln_evd (p f) : (s.updPln p f).evd = s.evd := rfl
@[simp] theorem State.updPln_evKey (p f) : (s.updPln p f).evKey = s.evKey := rfl
@[simp] theorem State.updPln_trc (p f) : (s.updPln p f).trc = s.trc := rfl
@[simp] theorem State.updPln_trcRun (p f) : (s.updPln p f).trcRun = s.trcRun := rfl
@[simp] theorem State.updPln_cmdNext (p f) : (s.updPln p f).cmdNext = s.cmdNext := rfl
@[simp] theorem State.updPln_cmdQ (p f) : (s.updPln p f).cmdQ = s.cmdQ := rfl
@[simp] theorem State.updPln_cmds (p f) : (s.updPln p f).cmds = s.cmds := rfl
@[simp] theorem State.updPln_asks (p f) : (s.updPln p f).asks = s.asks := rfl
@[simp] theorem State.updPln_leaveQ (p f) : (s.updPln p f).leaveQ = s.leaveQ := rfl
@[simp] theorem State.updPln_leaves (p f) : (s.updPln p f).leaves = s.leaves := rfl
@[simp] theorem State.updPln_gives (p f) : (s.updPln p f).gives = s.gives := rfl
@[simp] theorem State.updPln_claimAt (p f) : (s.updPln p f).claimAt = s.claimAt := rfl
@[simp] theorem State.updPln_heats (p f) : (s.updPln p f).heats = s.heats := rfl
@[simp] theorem State.updPln_relay (p f) : (s.updPln p f).relay = s.relay := rfl
@[simp] theorem State.updPln_joints (p f) : (s.updPln p f).joints = s.joints := rfl
@[simp] theorem State.updPln_clients (p f) : (s.updPln p f).clients = s.clients := rfl
@[simp] theorem State.updPln_heatCrc (p f) : (s.updPln p f).heatCrc = s.heatCrc := rfl
@[simp] theorem State.updPln_slcs (p f) : (s.updPln p f).slcs = s.slcs := rfl
@[simp] theorem State.updPln_migSync (p f) : (s.updPln p f).migSync = s.migSync := rfl
@[simp] theorem State.updPln_captured (p f) : (s.updPln p f).captured = s.captured := rfl
@[simp] theorem State.updPln_intKept (p f) : (s.updPln p f).intKept = s.intKept := rfl
@[simp] theorem State.updPln_planeHit (p f) : (s.updPln p f).planeHit = s.planeHit := rfl
@[simp] theorem State.updPln_floorStep (p f) : (s.updPln p f).floorStep = s.floorStep := rfl
@[simp] theorem State.updPln_floorRun (p f) : (s.updPln p f).floorRun = s.floorRun := rfl
@[simp] theorem State.updPln_rgs (p f) : (s.updPln p f).rgs = s.rgs := rfl
@[simp] theorem State.updPln_pacer (p f) : (s.updPln p f).pacer = s.pacer := rfl
@[simp] theorem State.updPln_start (p f) : (s.updPln p f).start = s.start := rfl
@[simp] theorem State.updPln_cmx (p f) : (s.updPln p f).cmx = s.cmx := rfl
@[simp] theorem State.updPln_starter (p f) : (s.updPln p f).starter = s.starter := rfl
@[simp] theorem State.updPln_sps (p f) : (s.updPln p f).sps = s.sps := rfl
@[simp] theorem State.updPln_links (p f) : (s.updPln p f).links = s.links := rfl
@[simp] theorem State.updPln_tap (p f) : (s.updPln p f).tap = s.tap := rfl
@[simp] theorem State.updPln_scan (p f) : (s.updPln p f).scan = s.scan := rfl

/-! ### begin -/

@[simp] theorem State.begin_pending (x) : (s.begin x).pending = s.pending := rfl
@[simp] theorem State.begin_rom (x) : (s.begin x).rom = s.rom := rfl
@[simp] theorem State.begin_straps (x) : (s.begin x).straps = s.straps := rfl
@[simp] theorem State.begin_clock (x) : (s.begin x).clock = s.clock := rfl
@[simp] theorem State.begin_free (x) : (s.begin x).free = s.free := rfl
@[simp] theorem State.begin_csr (x) : (s.begin x).csr = s.csr := rfl
@[simp] theorem State.begin_nis (x) : (s.begin x).nis = s.nis := rfl
@[simp] theorem State.begin_ports (x) : (s.begin x).ports = s.ports := rfl
@[simp] theorem State.begin_planeFaults (x) : (s.begin x).planeFaults = s.planeFaults := rfl
@[simp] theorem State.begin_time (x) : (s.begin x).time = s.time := rfl
@[simp] theorem State.begin_pfs (x) : (s.begin x).pfs = s.pfs := rfl
@[simp] theorem State.begin_evd (x) : (s.begin x).evd = s.evd := rfl
@[simp] theorem State.begin_evKey (x) : (s.begin x).evKey = s.evKey := rfl
@[simp] theorem State.begin_trc (x) : (s.begin x).trc = s.trc := rfl
@[simp] theorem State.begin_trcRun (x) : (s.begin x).trcRun = s.trcRun := rfl
@[simp] theorem State.begin_cmdNext (x) : (s.begin x).cmdNext = s.cmdNext := rfl
@[simp] theorem State.begin_cmdQ (x) : (s.begin x).cmdQ = s.cmdQ := rfl
@[simp] theorem State.begin_asks (x) : (s.begin x).asks = s.asks := rfl
@[simp] theorem State.begin_leaveQ (x) : (s.begin x).leaveQ = s.leaveQ := rfl
@[simp] theorem State.begin_leaves (x) : (s.begin x).leaves = s.leaves := rfl
@[simp] theorem State.begin_gives (x) : (s.begin x).gives = s.gives := rfl
@[simp] theorem State.begin_claimAt (x) : (s.begin x).claimAt = s.claimAt := rfl
@[simp] theorem State.begin_heats (x) : (s.begin x).heats = s.heats := rfl
@[simp] theorem State.begin_relay (x) : (s.begin x).relay = s.relay := rfl
@[simp] theorem State.begin_joints (x) : (s.begin x).joints = s.joints := rfl
@[simp] theorem State.begin_clients (x) : (s.begin x).clients = s.clients := rfl
@[simp] theorem State.begin_heatCrc (x) : (s.begin x).heatCrc = s.heatCrc := rfl
@[simp] theorem State.begin_slcs (x) : (s.begin x).slcs = s.slcs := rfl
@[simp] theorem State.begin_migSync (x) : (s.begin x).migSync = s.migSync := rfl
@[simp] theorem State.begin_captured (x) : (s.begin x).captured = s.captured := rfl
@[simp] theorem State.begin_intKept (x) : (s.begin x).intKept = s.intKept := rfl
@[simp] theorem State.begin_plst (x) : (s.begin x).plst = s.plst := rfl
@[simp] theorem State.begin_planeHit (x) : (s.begin x).planeHit = s.planeHit := rfl
@[simp] theorem State.begin_floorStep (x) : (s.begin x).floorStep = s.floorStep := rfl
@[simp] theorem State.begin_floorRun (x) : (s.begin x).floorRun = s.floorRun := rfl
@[simp] theorem State.begin_rgs (x) : (s.begin x).rgs = s.rgs := rfl
@[simp] theorem State.begin_pacer (x) : (s.begin x).pacer = s.pacer := rfl
@[simp] theorem State.begin_start (x) : (s.begin x).start = s.start := rfl
@[simp] theorem State.begin_cmx (x) : (s.begin x).cmx = s.cmx := rfl
@[simp] theorem State.begin_starter (x) : (s.begin x).starter = s.starter := rfl
@[simp] theorem State.begin_sps (x) : (s.begin x).sps = s.sps := rfl
@[simp] theorem State.begin_links (x) : (s.begin x).links = s.links := rfl
@[simp] theorem State.begin_tap (x) : (s.begin x).tap = s.tap := rfl
@[simp] theorem State.begin_scan (x) : (s.begin x).scan = s.scan := rfl

/-! ### The tables -/

@[simp] theorem State.ni_setNi_same (n : Nat) (x : NiSt) : (s.setNi n x).ni n = x := mget_mset_same _ _ _ _
theorem State.ni_setNi_ne {n m : Nat} (x : NiSt) (h : m ≠ n) : (s.setNi n x).ni m = s.ni m := mget_mset_ne _ _ _ h
@[simp] theorem State.ni_updNi_same (n : Nat) (f : NiSt → NiSt) : (s.updNi n f).ni n = f (s.ni n) := mget_mset_same _ _ _ _
theorem State.ni_updNi_ne {n m : Nat} (f : NiSt → NiSt) (h : m ≠ n) : (s.updNi n f).ni m = s.ni m := mget_mset_ne _ _ _ h
@[simp] theorem State.port_setPort_same (o : Port) (x : PortSt) : (s.setPort o x).port o = x := mget_mset_same _ _ _ _
@[simp] theorem State.port_updPort_same (o : Port) (f : PortSt → PortSt) : (s.updPort o f).port o = f (s.port o) :=
  mget_mset_same _ _ _ _
@[simp] theorem State.rg_updRg_same (g : Nat) (f : Rg → Rg) : (s.updRg g f).rg g = f (s.rg g) := mget_mset_same _ _ _ _
theorem State.rg_updRg_ne {g h : Nat} (f : Rg → Rg) (hn : h ≠ g) : (s.updRg g f).rg h = s.rg h := mget_mset_ne _ _ _ hn
@[simp] theorem State.heat_setHeat_same (k : Nat) (v : Heat) : (s.setHeat k v).heat k = v := mget_mset_same _ _ _ _
theorem State.heat_setHeat_ne {k j : Nat} (v : Heat) (h : j ≠ k) : (s.setHeat k v).heat j = s.heat j := mget_mset_ne _ _ _ h
@[simp] theorem State.lk_updLk_same (c : Nat) (f : Link → Link) : (s.updLk c f).lk c = f (s.lk c) := mget_mset_same _ _ _ _
theorem State.lk_updLk_ne {c d : Nat} (f : Link → Link) (h : d ≠ c) : (s.updLk c f).lk d = s.lk d := mget_mset_ne _ _ _ h
@[simp] theorem State.slc_updSlc_same (l : Nat) (f : SliceSt → SliceSt) : (s.updSlc l f).slc l = f (s.slc l) :=
  mget_mset_same _ _ _ _
@[simp] theorem State.pln_updPln_same (p : Nat) (f : PlaneSt → PlaneSt) : (s.updPln p f).pln p = f (s.pln p) :=
  mget_mset_same _ _ _ _

/-! ### Reads that an update leaves alone -/

@[simp] theorem State.setWord_ni (o w) (i) : (s.setWord o w).ni i = s.ni i := rfl
@[simp] theorem State.wr_ni (b f v) (i) : (s.wr b f v).ni i = s.ni i := rfl
@[simp] theorem State.count_ni (b f v) (i) : (s.count b f v).ni i = s.ni i := rfl
@[simp] theorem State.setBit_ni (b f v) (i) : (s.setBit b f v).ni i = s.ni i := rfl
@[simp] theorem State.setWord64_ni (o v) (i) : (s.setWord64 o v).ni i = s.ni i := rfl
@[simp] theorem State.setPort_ni (o x) (i) : (s.setPort o x).ni i = s.ni i := rfl
@[simp] theorem State.updPort_ni (o f) (i) : (s.updPort o f).ni i = s.ni i := rfl
@[simp] theorem State.updRg_ni (g f) (i) : (s.updRg g f).ni i = s.ni i := rfl
@[simp] theorem State.updTime_ni (f) (i) : (s.updTime f).ni i = s.ni i := rfl
@[simp] theorem State.updPacer_ni (f) (i) : (s.updPacer f).ni i = s.ni i := rfl
@[simp] theorem State.updCmx_ni (f) (i) : (s.updCmx f).ni i = s.ni i := rfl
@[simp] theorem State.setHeat_ni (k v) (i) : (s.setHeat k v).ni i = s.ni i := rfl
@[simp] theorem State.updLk_ni (c f) (i) : (s.updLk c f).ni i = s.ni i := rfl
@[simp] theorem State.updSlc_ni (l f) (i) : (s.updSlc l f).ni i = s.ni i := rfl
@[simp] theorem State.updPln_ni (p f) (i) : (s.updPln p f).ni i = s.ni i := rfl
@[simp] theorem State.begin_ni (x) (i) : (s.begin x).ni i = s.ni i := rfl
@[simp] theorem State.setWord_port (o w) (i) : (s.setWord o w).port i = s.port i := rfl
@[simp] theorem State.wr_port (b f v) (i) : (s.wr b f v).port i = s.port i := rfl
@[simp] theorem State.count_port (b f v) (i) : (s.count b f v).port i = s.port i := rfl
@[simp] theorem State.setBit_port (b f v) (i) : (s.setBit b f v).port i = s.port i := rfl
@[simp] theorem State.setWord64_port (o v) (i) : (s.setWord64 o v).port i = s.port i := rfl
@[simp] theorem State.setNi_port (n x) (i) : (s.setNi n x).port i = s.port i := rfl
@[simp] theorem State.updNi_port (n f) (i) : (s.updNi n f).port i = s.port i := rfl
@[simp] theorem State.updRg_port (g f) (i) : (s.updRg g f).port i = s.port i := rfl
@[simp] theorem State.updTime_port (f) (i) : (s.updTime f).port i = s.port i := rfl
@[simp] theorem State.updPacer_port (f) (i) : (s.updPacer f).port i = s.port i := rfl
@[simp] theorem State.updCmx_port (f) (i) : (s.updCmx f).port i = s.port i := rfl
@[simp] theorem State.setHeat_port (k v) (i) : (s.setHeat k v).port i = s.port i := rfl
@[simp] theorem State.updLk_port (c f) (i) : (s.updLk c f).port i = s.port i := rfl
@[simp] theorem State.updSlc_port (l f) (i) : (s.updSlc l f).port i = s.port i := rfl
@[simp] theorem State.updPln_port (p f) (i) : (s.updPln p f).port i = s.port i := rfl
@[simp] theorem State.begin_port (x) (i) : (s.begin x).port i = s.port i := rfl
@[simp] theorem State.setWord_rg (o w) (i) : (s.setWord o w).rg i = s.rg i := rfl
@[simp] theorem State.wr_rg (b f v) (i) : (s.wr b f v).rg i = s.rg i := rfl
@[simp] theorem State.count_rg (b f v) (i) : (s.count b f v).rg i = s.rg i := rfl
@[simp] theorem State.setBit_rg (b f v) (i) : (s.setBit b f v).rg i = s.rg i := rfl
@[simp] theorem State.setWord64_rg (o v) (i) : (s.setWord64 o v).rg i = s.rg i := rfl
@[simp] theorem State.setNi_rg (n x) (i) : (s.setNi n x).rg i = s.rg i := rfl
@[simp] theorem State.updNi_rg (n f) (i) : (s.updNi n f).rg i = s.rg i := rfl
@[simp] theorem State.setPort_rg (o x) (i) : (s.setPort o x).rg i = s.rg i := rfl
@[simp] theorem State.updPort_rg (o f) (i) : (s.updPort o f).rg i = s.rg i := rfl
@[simp] theorem State.updTime_rg (f) (i) : (s.updTime f).rg i = s.rg i := rfl
@[simp] theorem State.updPacer_rg (f) (i) : (s.updPacer f).rg i = s.rg i := rfl
@[simp] theorem State.updCmx_rg (f) (i) : (s.updCmx f).rg i = s.rg i := rfl
@[simp] theorem State.setHeat_rg (k v) (i) : (s.setHeat k v).rg i = s.rg i := rfl
@[simp] theorem State.updLk_rg (c f) (i) : (s.updLk c f).rg i = s.rg i := rfl
@[simp] theorem State.updSlc_rg (l f) (i) : (s.updSlc l f).rg i = s.rg i := rfl
@[simp] theorem State.updPln_rg (p f) (i) : (s.updPln p f).rg i = s.rg i := rfl
@[simp] theorem State.begin_rg (x) (i) : (s.begin x).rg i = s.rg i := rfl
@[simp] theorem State.setWord_heat (o w) (i) : (s.setWord o w).heat i = s.heat i := rfl
@[simp] theorem State.wr_heat (b f v) (i) : (s.wr b f v).heat i = s.heat i := rfl
@[simp] theorem State.count_heat (b f v) (i) : (s.count b f v).heat i = s.heat i := rfl
@[simp] theorem State.setBit_heat (b f v) (i) : (s.setBit b f v).heat i = s.heat i := rfl
@[simp] theorem State.setWord64_heat (o v) (i) : (s.setWord64 o v).heat i = s.heat i := rfl
@[simp] theorem State.setNi_heat (n x) (i) : (s.setNi n x).heat i = s.heat i := rfl
@[simp] theorem State.updNi_heat (n f) (i) : (s.updNi n f).heat i = s.heat i := rfl
@[simp] theorem State.setPort_heat (o x) (i) : (s.setPort o x).heat i = s.heat i := rfl
@[simp] theorem State.updPort_heat (o f) (i) : (s.updPort o f).heat i = s.heat i := rfl
@[simp] theorem State.updRg_heat (g f) (i) : (s.updRg g f).heat i = s.heat i := rfl
@[simp] theorem State.updTime_heat (f) (i) : (s.updTime f).heat i = s.heat i := rfl
@[simp] theorem State.updPacer_heat (f) (i) : (s.updPacer f).heat i = s.heat i := rfl
@[simp] theorem State.updCmx_heat (f) (i) : (s.updCmx f).heat i = s.heat i := rfl
@[simp] theorem State.updLk_heat (c f) (i) : (s.updLk c f).heat i = s.heat i := rfl
@[simp] theorem State.updSlc_heat (l f) (i) : (s.updSlc l f).heat i = s.heat i := rfl
@[simp] theorem State.updPln_heat (p f) (i) : (s.updPln p f).heat i = s.heat i := rfl
@[simp] theorem State.begin_heat (x) (i) : (s.begin x).heat i = s.heat i := rfl
@[simp] theorem State.setWord_lk (o w) (i) : (s.setWord o w).lk i = s.lk i := rfl
@[simp] theorem State.wr_lk (b f v) (i) : (s.wr b f v).lk i = s.lk i := rfl
@[simp] theorem State.count_lk (b f v) (i) : (s.count b f v).lk i = s.lk i := rfl
@[simp] theorem State.setBit_lk (b f v) (i) : (s.setBit b f v).lk i = s.lk i := rfl
@[simp] theorem State.setWord64_lk (o v) (i) : (s.setWord64 o v).lk i = s.lk i := rfl
@[simp] theorem State.setNi_lk (n x) (i) : (s.setNi n x).lk i = s.lk i := rfl
@[simp] theorem State.updNi_lk (n f) (i) : (s.updNi n f).lk i = s.lk i := rfl
@[simp] theorem State.setPort_lk (o x) (i) : (s.setPort o x).lk i = s.lk i := rfl
@[simp] theorem State.updPort_lk (o f) (i) : (s.updPort o f).lk i = s.lk i := rfl
@[simp] theorem State.updRg_lk (g f) (i) : (s.updRg g f).lk i = s.lk i := rfl
@[simp] theorem State.updTime_lk (f) (i) : (s.updTime f).lk i = s.lk i := rfl
@[simp] theorem State.updPacer_lk (f) (i) : (s.updPacer f).lk i = s.lk i := rfl
@[simp] theorem State.updCmx_lk (f) (i) : (s.updCmx f).lk i = s.lk i := rfl
@[simp] theorem State.setHeat_lk (k v) (i) : (s.setHeat k v).lk i = s.lk i := rfl
@[simp] theorem State.updSlc_lk (l f) (i) : (s.updSlc l f).lk i = s.lk i := rfl
@[simp] theorem State.updPln_lk (p f) (i) : (s.updPln p f).lk i = s.lk i := rfl
@[simp] theorem State.begin_lk (x) (i) : (s.begin x).lk i = s.lk i := rfl
@[simp] theorem State.setWord_slc (o w) (i) : (s.setWord o w).slc i = s.slc i := rfl
@[simp] theorem State.wr_slc (b f v) (i) : (s.wr b f v).slc i = s.slc i := rfl
@[simp] theorem State.count_slc (b f v) (i) : (s.count b f v).slc i = s.slc i := rfl
@[simp] theorem State.setBit_slc (b f v) (i) : (s.setBit b f v).slc i = s.slc i := rfl
@[simp] theorem State.setWord64_slc (o v) (i) : (s.setWord64 o v).slc i = s.slc i := rfl
@[simp] theorem State.setNi_slc (n x) (i) : (s.setNi n x).slc i = s.slc i := rfl
@[simp] theorem State.updNi_slc (n f) (i) : (s.updNi n f).slc i = s.slc i := rfl
@[simp] theorem State.setPort_slc (o x) (i) : (s.setPort o x).slc i = s.slc i := rfl
@[simp] theorem State.updPort_slc (o f) (i) : (s.updPort o f).slc i = s.slc i := rfl
@[simp] theorem State.updRg_slc (g f) (i) : (s.updRg g f).slc i = s.slc i := rfl
@[simp] theorem State.updTime_slc (f) (i) : (s.updTime f).slc i = s.slc i := rfl
@[simp] theorem State.updPacer_slc (f) (i) : (s.updPacer f).slc i = s.slc i := rfl
@[simp] theorem State.updCmx_slc (f) (i) : (s.updCmx f).slc i = s.slc i := rfl
@[simp] theorem State.setHeat_slc (k v) (i) : (s.setHeat k v).slc i = s.slc i := rfl
@[simp] theorem State.updLk_slc (c f) (i) : (s.updLk c f).slc i = s.slc i := rfl
@[simp] theorem State.updPln_slc (p f) (i) : (s.updPln p f).slc i = s.slc i := rfl
@[simp] theorem State.begin_slc (x) (i) : (s.begin x).slc i = s.slc i := rfl
@[simp] theorem State.setWord_pln (o w) (i) : (s.setWord o w).pln i = s.pln i := rfl
@[simp] theorem State.wr_pln (b f v) (i) : (s.wr b f v).pln i = s.pln i := rfl
@[simp] theorem State.count_pln (b f v) (i) : (s.count b f v).pln i = s.pln i := rfl
@[simp] theorem State.setBit_pln (b f v) (i) : (s.setBit b f v).pln i = s.pln i := rfl
@[simp] theorem State.setWord64_pln (o v) (i) : (s.setWord64 o v).pln i = s.pln i := rfl
@[simp] theorem State.setNi_pln (n x) (i) : (s.setNi n x).pln i = s.pln i := rfl
@[simp] theorem State.updNi_pln (n f) (i) : (s.updNi n f).pln i = s.pln i := rfl
@[simp] theorem State.setPort_pln (o x) (i) : (s.setPort o x).pln i = s.pln i := rfl
@[simp] theorem State.updPort_pln (o f) (i) : (s.updPort o f).pln i = s.pln i := rfl
@[simp] theorem State.updRg_pln (g f) (i) : (s.updRg g f).pln i = s.pln i := rfl
@[simp] theorem State.updTime_pln (f) (i) : (s.updTime f).pln i = s.pln i := rfl
@[simp] theorem State.updPacer_pln (f) (i) : (s.updPacer f).pln i = s.pln i := rfl
@[simp] theorem State.updCmx_pln (f) (i) : (s.updCmx f).pln i = s.pln i := rfl
@[simp] theorem State.setHeat_pln (k v) (i) : (s.setHeat k v).pln i = s.pln i := rfl
@[simp] theorem State.updLk_pln (c f) (i) : (s.updLk c f).pln i = s.pln i := rfl
@[simp] theorem State.updSlc_pln (l f) (i) : (s.updSlc l f).pln i = s.pln i := rfl
@[simp] theorem State.begin_pln (x) (i) : (s.begin x).pln i = s.pln i := rfl
@[simp] theorem State.setNi_word (n x) (i) : (s.setNi n x).word i = s.word i := rfl
@[simp] theorem State.updNi_word (n f) (i) : (s.updNi n f).word i = s.word i := rfl
@[simp] theorem State.setPort_word (o x) (i) : (s.setPort o x).word i = s.word i := rfl
@[simp] theorem State.updPort_word (o f) (i) : (s.updPort o f).word i = s.word i := rfl
@[simp] theorem State.updRg_word (g f) (i) : (s.updRg g f).word i = s.word i := rfl
@[simp] theorem State.updTime_word (f) (i) : (s.updTime f).word i = s.word i := rfl
@[simp] theorem State.updPacer_word (f) (i) : (s.updPacer f).word i = s.word i := rfl
@[simp] theorem State.updCmx_word (f) (i) : (s.updCmx f).word i = s.word i := rfl
@[simp] theorem State.setHeat_word (k v) (i) : (s.setHeat k v).word i = s.word i := rfl
@[simp] theorem State.updLk_word (c f) (i) : (s.updLk c f).word i = s.word i := rfl
@[simp] theorem State.updSlc_word (l f) (i) : (s.updSlc l f).word i = s.word i := rfl
@[simp] theorem State.updPln_word (p f) (i) : (s.updPln p f).word i = s.word i := rfl
@[simp] theorem State.begin_word (x) (i) : (s.begin x).word i = s.word i := rfl
@[simp] theorem State.setNi_rd (n x) (i j) : (s.setNi n x).rd i j = s.rd i j := rfl
@[simp] theorem State.updNi_rd (n f) (i j) : (s.updNi n f).rd i j = s.rd i j := rfl
@[simp] theorem State.setPort_rd (o x) (i j) : (s.setPort o x).rd i j = s.rd i j := rfl
@[simp] theorem State.updPort_rd (o f) (i j) : (s.updPort o f).rd i j = s.rd i j := rfl
@[simp] theorem State.updRg_rd (g f) (i j) : (s.updRg g f).rd i j = s.rd i j := rfl
@[simp] theorem State.updTime_rd (f) (i j) : (s.updTime f).rd i j = s.rd i j := rfl
@[simp] theorem State.updPacer_rd (f) (i j) : (s.updPacer f).rd i j = s.rd i j := rfl
@[simp] theorem State.updCmx_rd (f) (i j) : (s.updCmx f).rd i j = s.rd i j := rfl
@[simp] theorem State.setHeat_rd (k v) (i j) : (s.setHeat k v).rd i j = s.rd i j := rfl
@[simp] theorem State.updLk_rd (c f) (i j) : (s.updLk c f).rd i j = s.rd i j := rfl
@[simp] theorem State.updSlc_rd (l f) (i j) : (s.updSlc l f).rd i j = s.rd i j := rfl
@[simp] theorem State.updPln_rd (p f) (i j) : (s.updPln p f).rd i j = s.rd i j := rfl
@[simp] theorem State.begin_rd (x) (i j) : (s.begin x).rd i j = s.rd i j := rfl
@[simp] theorem State.setWord_cmd (o w) (i) : (s.setWord o w).cmd i = s.cmd i := rfl
@[simp] theorem State.wr_cmd (b f v) (i) : (s.wr b f v).cmd i = s.cmd i := rfl
@[simp] theorem State.count_cmd (b f v) (i) : (s.count b f v).cmd i = s.cmd i := rfl
@[simp] theorem State.setBit_cmd (b f v) (i) : (s.setBit b f v).cmd i = s.cmd i := rfl
@[simp] theorem State.setWord64_cmd (o v) (i) : (s.setWord64 o v).cmd i = s.cmd i := rfl
@[simp] theorem State.setNi_cmd (n x) (i) : (s.setNi n x).cmd i = s.cmd i := rfl
@[simp] theorem State.updNi_cmd (n f) (i) : (s.updNi n f).cmd i = s.cmd i := rfl
@[simp] theorem State.setPort_cmd (o x) (i) : (s.setPort o x).cmd i = s.cmd i := rfl
@[simp] theorem State.updPort_cmd (o f) (i) : (s.updPort o f).cmd i = s.cmd i := rfl
@[simp] theorem State.updRg_cmd (g f) (i) : (s.updRg g f).cmd i = s.cmd i := rfl
@[simp] theorem State.updTime_cmd (f) (i) : (s.updTime f).cmd i = s.cmd i := rfl
@[simp] theorem State.updPacer_cmd (f) (i) : (s.updPacer f).cmd i = s.cmd i := rfl
@[simp] theorem State.updCmx_cmd (f) (i) : (s.updCmx f).cmd i = s.cmd i := rfl
@[simp] theorem State.setHeat_cmd (k v) (i) : (s.setHeat k v).cmd i = s.cmd i := rfl
@[simp] theorem State.updLk_cmd (c f) (i) : (s.updLk c f).cmd i = s.cmd i := rfl
@[simp] theorem State.updSlc_cmd (l f) (i) : (s.updSlc l f).cmd i = s.cmd i := rfl
@[simp] theorem State.updPln_cmd (p f) (i) : (s.updPln p f).cmd i = s.cmd i := rfl

end Sys2Proof.Machine
end

