-- ==== Sys2Proof/Laws/Ops.lean ====
section
/-! SUPPORT. What each shared operation does, said once: the guard of absent units, the start of a command's operation, replies,
free values, occurrences of causes. -/

namespace Sys2Proof.Machine

variable (s : State)

@[simp] theorem guardUnit_true (s t : State) : guardUnit s true t = .next t := rfl
@[simp] theorem guardUnit_false (s t : State) : guardUnit s false t = .next s := rfl
theorem guardUnit_of {b : Bool} (h : b = true) (s t : State) : guardUnit s b t = .next t := by rw [h]; rfl

/-- A command in execution that has not begun, has its turn and has no reserved bit runs its operation. -/
theorem State.runCmd_issued {x op : Nat} {fs : List (Nat × Nat)} {c : Cmd} (h : s.Issued x op fs c) (f : Cmd → State → State) :
    s.runCmd x op fs f = f c (s.begin x) := by
  obtain ⟨h1, h2, h3, h4, h5⟩ := h
  simp [State.runCmd, h1, h2, h3, h4, h5]

/-- A command that is not in execution, or that is another, or that has begun, or that has not its turn, leaves the state. -/
theorem State.runCmd_other {x op : Nat} (fs : List (Nat × Nat)) (f : Cmd → State → State)
    (h : ∀ c, s.cmd x = some c → c.op ≠ op ∨ c.begun = true ∨ s.turn c = false) : s.runCmd x op fs f = s := by
  unfold State.runCmd
  split
  · rfl
  · next c hc => rw [if_pos (h c hc)]

theorem find_map_begun (l : List Cmd) (x y : Nat) :
    (l.map (fun c => if c.id = x then { c with begun := true } else c)).find? (fun c => c.id == y)
      = (l.find? (fun c => c.id == y)).map (fun c => if c.id = x then { c with begun := true } else c) := by
  induction l with
  | nil => rfl
  | cons a r ih =>
    simp only [List.map_cons, List.find?_cons, ih]
    by_cases h : a.id = x <;> simp only [h, if_true, if_false] <;> split <;> simp_all

/-- A command that has begun is still in execution. -/
theorem State.cmd_begin (x : Nat) (c : Cmd) (h : s.cmd x = some c) : (s.begin x).cmd x = some { c with begun := true } := by
  have hid : c.id = x := by simpa using List.find?_some h
  unfold State.cmd State.begin at *
  rw [find_map_begun, h]
  simp [hid]

/-- A free value changes only the model's counter. -/
@[simp] theorem State.takeFree_snd : s.takeFree.2 = { s with free := s.free + 1 } := rfl

/-- The first reply to a command takes it out of execution and sends it. -/
theorem State.reply_of {x : Nat} {c : Cmd} (h : s.cmd x = some c) (hl : c.late = false) (status : Nat) (data : List Byte) :
    s.reply x status data = ({ s with cmds := s.cmds.filter (fun d => d.id != x) }).sendReply c status data := by
  simp [State.reply, h, hl]

/-- The reply to a command that has been answered at its limit only takes it out of execution (R492). -/
theorem State.reply_late {x : Nat} {c : Cmd} (h : s.cmd x = some c) (hl : c.late = true) (status : Nat) (data : List Byte) :
    s.reply x status data = { s with cmds := s.cmds.filter (fun d => d.id != x) } := by
  simp [State.reply, h, hl]

/-- A reply to a command that is not in execution does nothing. -/
theorem State.reply_none {x : Nat} (h : s.cmd x = none) (status : Nat) (data : List Byte) : s.reply x status data = s := by
  simp [State.reply, h]

/-! ### What an occurrence of a cause leaves alone -/

/-- Register words, network interfaces and nothing else differ. -/
def State.Near (s t : State) : Prop := { t with csr := s.csr, nis := s.nis } = s

theorem State.Near.refl (s : State) : s.Near s := rfl
theorem State.Near.trans {s t u : State} (h : s.Near t) (k : t.Near u) : s.Near u := by
  unfold State.Near at *
  rw [← h, ← k]

theorem State.Near.setWord (o : Nat) (w : Word) : s.Near (s.setWord o w) := rfl
theorem State.Near.wr (b : Nat) (f : Fld) (v : Nat) : s.Near (s.wr b f v) := rfl
theorem State.Near.setNi (n : Nat) (x : NiSt) : s.Near (s.setNi n x) := rfl

theorem State.Near.setWord64 (o v : Nat) : s.Near (s.setWord64 o v) := (State.Near.setWord s _ _).trans (.setWord _ _ _)
theorem State.Near.count (b : Nat) (f : Fld) (k : Nat) : s.Near (s.count b f k) := .wr s _ _ _
theorem State.Near.setBit (b : Nat) (f : Fld) (k : Nat) : s.Near (s.setBit b f k) := .wr s _ _ _

theorem State.near_logErr (src cause sev data : Nat) : s.Near (s.logErr src cause sev data) := by
  unfold State.logErr
  exact (((State.Near.setWord s _ _).trans (.setWord _ _ _)).trans (.setWord64 _ _ _)).trans (.count _ _ _ _)

theorem State.near_sendMsg (x : Src) (f v : Fld) (cause : Nat) : s.Near (s.sendMsg x f v cause).1 := by
  unfold State.sendMsg
  dsimp only
  split
  · exact .refl s
  · split
    · exact .refl s
    · split
      · exact .count ..
      · exact .setNi ..

theorem State.near_sendMsgs (x : Src) (cause : Nat) : s.Near (s.sendMsgs x cause).1 :=
  (State.near_sendMsg s x _ _ cause).trans (State.near_sendMsg _ x _ _ cause)

theorem State.near_occur (x : Src) (i : Nat) : s.Near (s.occur x i).1 := by
  unfold State.occur
  dsimp only
  have h : s.Near (if 2 ≤ x.sev i then (s.setBit x.base x.cause i).logErr x.num i (x.sev i) x.data
      else s.setBit x.base x.cause i) := by
    split
    · exact (State.Near.setBit s _ _ _).trans (State.near_logErr ..)
    · exact .setBit ..
  generalize (if 2 ≤ x.sev i then (s.setBit x.base x.cause i).logErr x.num i (x.sev i) x.data
      else s.setBit x.base x.cause i) = t at h ⊢
  split
  · exact h.trans (State.near_sendMsgs ..)
  · exact h

theorem State.near_msgLost (ovf bad : Bool) : s.Near (s.msgLost ovf bad) := by
  unfold State.msgLost
  dsimp only
  split <;> split
  · exact (State.near_occur ..).trans (State.near_occur ..)
  · exact State.near_occur ..
  · exact State.near_occur ..
  · exact .refl _

/-- An occurrence of a cause changes register words and an NI's system queue, and nothing else. -/
theorem State.near_raise (x : Src) (i : Nat) : s.Near (s.raise x i) :=
  (State.near_occur s x i).trans (State.near_msgLost ..)

end Sys2Proof.Machine
end

