-- ==== Sys2Proof/Machine/Levels.lean ====
section
/-! DEFINITION. Levels that the macro drives on its ports and that follow from its state: SBE_NOW (R94), NI_RST_N (R544), and
the clock and supply requests of the Pacer (R519, R555, R649, R651). INT_OUT is `State.intOut`, NI_UP is `NiSt.up` and AON_REQ is
`Pacer.aon`. -/

namespace Sys2Proof.Machine

/-- The stamp of NI `n` at an edge in bin `bin` of the present carrier cycle: the TDC reports the centre of the 25 ps bin, and the
conversion rounds down to 1/256 ns (R288, R314). -/
def State.niStamp (s : State) (n bin : Nat) : Stamp := stampOf s.epoch (s.niFt n + (2 * bin + 1) * 2 ^ 32 / 80)

/-- SBE_NOW and SBE_NOW_OK of NI `n` at an endpoint clock edge in bin `bin` of the present carrier cycle (R94, R314). -/
def State.sbeNow (s : State) (n bin : Nat) : Stamp × Bool :=
  if s.flag (niB n) F.NI_EP_CFG_NOW_EN then (s.niStamp n bin, s.niTimeOk n) else (0, false)

/-- PPS_OUT: low at once while it is not enabled or time is not valid at the root (R316). -/
def State.ppsOut (s : State) : Bool := s.time.ppsOut && s.flag timB F.TIM_CTL_PPS_OUT_EN && s.rootOk

/-- NI_RST_N of NI `n` is high: no reset that covers it is asserted, of the instance, of its region or of its own (R544). -/
def State.niRstN (s : State) (n : Nat) : Bool :=
  s.pacer.rst == 0 && !(s.port (.ni 0 n)).dead && !(s.rg (niRec s.rom n).region).held

/-- FC_REQ of region `g` with its FC_MHZ, while the Pacer waits for a new frequency (R519, R649). -/
def State.fcReq (s : State) (g : Nat) : Option Nat := match (s.rg g).step with
  | some d => if d.ph = 2 ∧ d.todo.head? = some true then some d.mhz else none
  | none => none

/-- VR_REQ of region `g` with its VR_MV, while the Pacer waits for a supply: in a step, in a wake, and in start-up (R516, R519,
R555, R649, R651). -/
def State.vrReq (s : State) (g : Nat) : Option Nat :=
  let first := s.rd glbB F.GLB_START_STAT_STEP
  if s.rgState g = 6 ∧ ((s.rg g).wake = 1 ∨ (s.rg g).wake = 7) then some (s.mv g)
  else match (s.rg g).step with
    | some d => if d.ph = 2 ∧ d.todo.head? = some false then some d.mv else none
    | none =>
      if s.pacer.rst = 0 ∧ s.ready = false ∧ s.flag glbB F.GLB_START_STAT_FAIL = false
          ∧ ((g = s.rom.homeRegion ∧ first = 2) ∨ (g ≠ s.rom.homeRegion ∧ first = 4))
      then some (regionRec s.rom g).vNom else none

/-- PWR_EN of region `g`: low asks for its supplies to be removed (R651). -/
def State.pwrEn (s : State) (g : Nat) : Bool := s.rgState g != 4

/-- RET_EN of region `g`: high asks for retention levels (R651). -/
def State.retEn (s : State) (g : Nat) : Bool := s.rgState g == 2 || s.rgState g == 3

end Sys2Proof.Machine
end

