-- ==== Sys2Proof/Machine/Limits.lean ====
section
/-! DEFINITION. The limits and periods that registers set for the events of the table, with the values that act as others. A
timeout row is the expiry itself: it stands for the instant at which the limit named here has passed. -/

namespace Sys2Proof.Machine

/-- Carrier cycles of `k` cycles of the always-on clock (R535). -/
def acTc (k : Nat) : Nat := 50 * k
/-- Carrier cycles of `k` ms. -/
def msTc (k : Nat) : Nat := 1250000 * k

/-! ### Network interfaces, in fc of the NI's region or in carrier cycles -/

/-- The completion timeouts of R192 by code, in µs. -/
def ctoUs (code : Nat) : Nat :=
  [1, 2, 5, 10, 20, 50, 100, 200, 500, 1000, 2000, 5000, 10000, 20000, 50000, 100000].getD code 0
/-- The completion timeout of a request, by its tag: that of its code, and for a COMMAND its limit plus 1 ms (R192, R209, R492).
The NI counts it in ac, so that it passes up to 50 carrier cycles later (R209). -/
def State.ctoTc (s : State) (g : Tag) : Nat :=
  if g.code = 11 then msTc ((if g.tmo = 0 then atLeast1 (s.rd strB F.STR_CMD_CFG_DEF_TMO) else g.tmo) + 1) else ctoUs g.cto * usTc

/-- The egress stall limit in fc, none where the check is disabled (R103). -/
def State.stallFc (s : State) (n : Nat) : Option Nat :=
  let k := s.rd (niB n) F.NI_EP_CFG_STALL_EXP
  if k = 0 then none else some (2 ^ k)
/-- The window of the late histogram (R246). -/
def State.histTc (s : State) (n : Nat) : Nat := 2 ^ s.rd (niB n) F.NI_LATE_CFG_HIST_WIN * usTc
/-- The sampling period of the queues in fc (R284). -/
def State.sampFc (s : State) (n : Nat) : Nat := 2 ^ min 24 (max (schedSize s.rom n).log2 (s.rd (niB n) F.NI_SCHED_CFG_SAMP_EXP))
/-- The plane-skew limit of SC0 in fc (R257). -/
def State.skewFc (s : State) (n : Nat) : Nat := atLeast1 (s.rd (niB n) F.NI_SCHED_CFG_SC0_SKEW)
/-- The gap and twin timeouts (R402, R405). -/
def State.gapTc (s : State) (n : Nat) : Nat := acTc (atLeast1 (s.rd (niB n) F.NI_RSQ_CTL_GAP_TMO))
def State.twinTc (s : State) (n : Nat) : Nat := acTc (atLeast1 (s.rd (niB n) F.NI_RSQ_CTL_TWIN_TMO))
/-- The longest hold of a packet for a closed region (R512). -/
def State.pwrHoldTc (s : State) (n : Nat) : Nat := atLeast1 (s.rd (niB n) F.NI_PWR_CFG_HOLD_US) * usTc
/-- The grant-hold limits of an NI's plane outputs and of a router in fc (R171, R671). -/
def State.niHoldFc (s : State) (n : Nat) : Nat := max 4 (s.rd (niB n) F.NI_PLN_CFG_HOLD_LIM)
def State.rtrHoldFc (s : State) (p r : Nat) : Nat := max 4 (s.rd (rtrB p r) F.RTR_HOLD_LIM_LIMIT)

/-! ### Starter, heats, slices and planes -/

/-- The limit of a command in execution (R492). -/
def State.cmdTc (s : State) (c : Cmd) : Nat := msTc (if c.tmo = 0 then atLeast1 (s.rd strB F.STR_CMD_CFG_DEF_TMO) else c.tmo)
/-- The watchdog, none where it is disabled (R502). -/
def State.wdogTc (s : State) : Option Nat :=
  let k := s.rd strB F.STR_WDOG_LIMIT
  if k = 0 then none else some (msTc k)
/-- The drain limit of a detaching plane (R408). -/
def State.planeDrainTc (s : State) : Nat := atLeast1 (s.rd strB F.STR_PLN_CFG_DRAIN_TMO) * usTc
/-- The limits of STAGE_ACK and of a heat's leave (R366, R368). -/
def State.stageTc (s : State) : Nat := atLeast1 (s.rd hcuB F.HCU_TMO_STAGE_US) * usTc
def State.heatLeaveTc (s : State) : Nat := atLeast1 (s.rd hcuB F.HCU_TMO_LEAVE_US) * usTc
/-- The limits of a slice's DRAIN and QUIESCE (R438, R439). -/
def State.sliceDrainTc (s : State) : Nat := atLeast1 (s.rd slcB F.SLC_DRAIN_TMO_US) * usTc
def State.sliceQuiesceTc (s : State) : Nat := atLeast1 (s.rd slcB F.SLC_QUIESCE_TMO_US) * usTc

/-! ### Control Matrix, Pacer, scanner and Span -/

/-- The lock limit and the response limit of the CMX, in fc of the home region (R453, R467, R473). -/
def State.lockFc (s : State) : Nat := max 64 (s.rd cmxB F.CMX_LOCK_MAX_FC)
def State.cmxFc (s : State) : Nat := max 256 (s.rd cmxB F.CMX_TMO_FC)
/-- The limits of an entry and of a clock or supply request (R510, R520, R649). -/
def State.entryTc (s : State) : Nat := atLeast1 (s.rd pcrB F.PCR_LIM_ENTRY_US) * usTc
def State.supplyTc (s : State) : Nat := atLeast1 (s.rd pcrB F.PCR_LIM_SUPPLY_US) * usTc
/-- The quiet time of an IDLE region before its clock is gated, in fc (R507). -/
def State.idleFc (s : State) (g : Nat) : Nat := 64 * atLeast1 (s.rd pcrB (F.PCR_RG_CFG_IDLE_Q.ix g))
/-- The period of the scanner's passes, and the cycles per word (R606). -/
def State.passTc (s : State) : Nat := atLeast1 (s.rd evtB F.EVT_CTL_PERIOD_US) * usTc
def State.paceFc (s : State) : Nat := 2 ^ s.rd evtB F.EVT_CTL_PACE
/-- The stall limit of a Span port, its retry period, none where retry is disabled, and a link's replay timeout in units of
16 ns of 20 carrier cycles (R566, R573, R580). -/
def State.spanStallTc (s : State) (k : Nat) : Nat := atLeast1 (s.rd (spB k) F.SP_CFG_STALL_US) * usTc
def State.retryTc (s : State) (k : Nat) : Option Nat :=
  let v := s.rd (spB k) F.SP_CFG_RETRY_MS
  if v = 0 then none else some (msTc v)
def State.replayTc (s : State) (k j : Nat) : Nat := 20 * atLeast1 (s.lf k j F.SP_L_LL_CFG_REPLAY_TMO)

end Sys2Proof.Machine
end

