-- ==== Sys2Proof/WellFormed.lean ====
section
/-! DEFINITION. Which commands are well formed: every operand is one that the spec's encoding of it can hold. Whether the
instance has the unit that a command names is not asked here: a command that names one that it lacks changes nothing. -/

namespace Sys2Proof

/-- An NI index (R104). -/
def isNi (n : Nat) : Bool := decide (n < 256)
/-- A router index: routers have windows in the CSR window (R630, R632). -/
def isRtr (r : Nat) : Bool := decide (r < 160)
/-- A router port: path fields are 4 bits (R108). -/
def isPort (p : Nat) : Bool := decide (p < 16)
/-- A plane. -/
def isPlane (p : Nat) : Bool := decide (p < 2)
/-- A Span port, or one of its links (R561). -/
def isSpan (k : Nat) : Bool := decide (k < 4)
/-- A virtual channel (R106). -/
def isVc (v : Nat) : Bool := decide (v < 16)
/-- A TIME_EVT pin or a mailbox. -/
def isPin (k : Nat) : Bool := decide (k < 4)
/-- A region. -/
def isRegion (g : Nat) : Bool := decide (g < 16)
/-- A heat slot (R346). -/
def isHeat (k : Nat) : Bool := decide (k < 64)
/-- A slice other than the owner tag 63 (R421). -/
def isSlice (k : Nat) : Bool := decide (k < 63)
/-- A CMX master (R446). -/
def isMaster (m : Nat) : Bool := decide (m ≤ 5)
/-- A CMX target number (R632). -/
def isTarget (t : Nat) : Bool := decide (t < 596)

/-- A port of the instance's address space. -/
def Port.wf : Port → Bool
  | .rtr p r q => isPlane p && isRtr r && isPort q
  | .ni p n => isPlane p && isNi n
  | .span p k => isPlane p && isSpan k

/-- A unit with a snapshot bank. -/
def Site.wf : Site → Bool
  | .ni n => isNi n
  | .rtr p r => isPlane p && isRtr r
  | .span k => isSpan k
  | .time => true

/-- A CSR access (R447): a 24-bit offset, a 2-bit size code and a 4-bit ID. -/
def CsrReq.wf (q : CsrReq) : Bool := decide (q.addr < 2 ^ 24) && decide (q.size < 4) && decide (q.id < 16)

/-- A link-layer frame (R563): a 4-bit type and 12-bit sequence numbers. -/
def Frame.wf (f : Frame) : Bool := decide (f.ftype < 16) && decide (f.fseq < 4096) && decide (f.ack < 4096)

/-- The operands of a command are in range. -/
def Instr.wf : Instr → Bool
  | .opRead n _ => isNi n
  | .opWrite n _ => isNi n
  | .opReservedLoad n _ => isNi n
  | .opCondStore n _ => isNi n
  | .opAtomicSwap n _ => isNi n
  | .opAtomicAdd n _ => isNi n
  | .opAtomicCas n _ => isNi n
  | .opBarrierOrder n _ => isNi n
  | .opBarrierComplete n _ => isNi n
  | .opHandleAlloc n _ => isNi n
  | .opHandleFree n _ => isNi n
  | .opCommand n _ => isNi n
  | .wqiData n _ => isNi n
  | .stiPacket n _ => isNi n
  | .packetAdmit n _ => isNi n
  | .rpiResponse n _ sc status _ => isNi n && decide (sc < 4) && decide (status < 16)
  | .sbiEvt n _ => isNi n
  | .epEventTake n => isNi n
  | .epRstAssert n => isNi n
  | .epRstDeassert n => isNi n
  | .niUpRise n => isNi n
  | .ctoExpire n tag _ => isNi n && decide (tag < 512)
  | .barrierDone n => isNi n
  | .stallLimitExpire n half => isNi n && decide (half < 5)
  | .rspArrival n => isNi n
  | .sbEnClear m n _ => isMaster m && isNi n
  | .sbLogClr m n _ => isMaster m && isNi n
  | .packetRelease n _ _ => isNi n
  | .sc0Release n _ => isNi n
  | .sc0Skew n _ => isNi n
  | .routerFlitArrival plane r p _ => isPlane plane && isRtr r && isPort p
  | .arbPhase o => o.wf
  | .grantOverrun o => o.wf
  | .creditVectorArrival o _ => o.wf
  | .creditLoad o => o.wf
  | .xingFlit o vc _ => o.wf && isVc vc
  | .xingIsolate o => o.wf
  | .xingFlush o => o.wf
  | .isolateReceive n => isNi n
  | .niFlitArrival plane n _ _ => isPlane plane && isNi n
  | .targetDelivery n _ => isNi n
  | .egressSegmentStart n half _ _ => isNi n && decide (half < 3)
  | .twinTmo n _ seq => isNi n && decide (seq < 65536)
  | .gapTmo n _ => isNi n
  | .routeSet _ => true
  | .routeCheck _ => true
  | .rtabRawWrite m t e p _ => isMaster m && isNi t && decide (e < 260) && decide (p < 2)
  | .floorRecompute => true
  | .sc0RsvWrite m n j w _ => isMaster m && isNi n && decide (j < 16) && decide (w < 2)
  | .histEnWrite m n _ => isMaster m && isNi n
  | .histWindowEnd n => isNi n
  | .latMaxClr m n _ => isMaster m && isNi n
  | .qShareWrite m n _ => isMaster m && isNi n
  | .sampClr m n _ => isMaster m && isNi n
  | .queueSample n q => isNi n && decide (q < 1024)
  | .shaperRefill n => isNi n
  | .shaperWrite m n k w _ => isMaster m && isNi n && decide (k < 16) && decide (w < 2)
  | .allowanceWindow n => isNi n
  | .gateUpdate n _ => isNi n
  | .gateSwap m n _ => isMaster m && isNi n
  | .gateCancel m n _ => isMaster m && isNi n
  | .gateListStart n _ => isNi n
  | .markEnWrite m n _ => isMaster m && isNi n
  | .markerAnnounce n _ => isNi n
  | .markerPulse k => isPin k
  | .timeMarker => true
  | .markerArrival r _ => isRtr r
  | .calRunDone r rtt => isRtr r && decide (rtt.length = 256)
  | .calPeriod => true
  | .hopFreeze g => isRegion g
  | .timeStepApply => true
  | .stepWindowEnd => true
  | .ppsInEdge _ => true
  | .ppsMiss => true
  | .tsetLoad _ _ => true
  | .spanTimeExchange k _ _ _ _ => isSpan k
  | .spanTimeSample k => isSpan k
  | .holdoverExpire => true
  | .carrierCheck _ => true
  | .carrierReturn => true
  | .timeSet _ => true
  | .timeAdjust _ => true
  | .timeCal _ => true
  | .timeStatus _ => true
  | .slewEnd => true
  | .nowCap m _ => isMaster m
  | .skewClr m _ => isMaster m
  | .elockSet m _ => isMaster m
  | .syncEnWrite m k _ => isMaster m && isPin k
  | .syncPulse k => isPin k
  | .ppsOutPulse _ => true
  | .timeEvtEdge k _ => isPin k
  | .pfArm _ => true
  | .pfStatus _ => true
  | .pfRelease _ => true
  | .pfCancel _ => true
  | .pfPinTrigger slot => decide (slot < 2)
  | .pfArmReceive slot u _ => decide (slot < 2) && u.wf
  | .pfCapture slot u _ => decide (slot < 2) && u.wf
  | .pfCollect slot => decide (slot < 2)
  | .evStart _ => true
  | .evStop _ => true
  | .evMark _ => true
  | .evStatus _ => true
  | .evdBoundary _ => true
  | .evdWriteResult => true
  | .evdRetry => true
  | .heatOpen _ => true
  | .heatStage _ => true
  | .heatCommit _ => true
  | .heatAbort _ => true
  | .heatStatus _ => true
  | .heatClose _ => true
  | .heatReconcile _ => true
  | .heatReconcileDrop _ => true
  | .heatStragglers _ => true
  | .stageReceive n => isNi n
  | .stageAckReceive n _ => isNi n
  | .stageAckTmo slot aseq => isHeat slot && decide (aseq < 4096)
  | .heatScheduledStart slot => isHeat slot
  | .prepareReceive n hid inst _ => isNi n && decide (hid < 65536) && decide (inst < 4096)
  | .voteCollectDone slot _ => isHeat slot
  | .heatCommitSend slot => isHeat slot
  | .commitReceive n hid inst _ _ => isNi n && decide (hid < 65536) && decide (inst < 4096)
  | .commitCollectDone slot _ => isHeat slot
  | .armReceive n hid inst _ _ => isNi n && decide (hid < 65536) && decide (inst < 4096)
  | .heatApply n hid inst _ _ => isNi n && decide (hid < 65536) && decide (inst < 4096)
  | .heatMiss n hid inst _ => isNi n && decide (hid < 65536) && decide (inst < 4096)
  | .abortReceive n hid inst => isNi n && decide (hid < 65536) && decide (inst < 4096)
  | .heatSettle slot _ maps => isHeat slot && decide (maps.length ≤ 8)
  | .heatDeadline slot => isHeat slot
  | .leaveTmo slot => isHeat slot
  | .relayFault slot => isHeat slot
  | .reconcileStart n => isNi n
  | .reconcileReceive n _ _ => isNi n
  | .heatCrcRecommit => true
  | .planeDetach _ => true
  | .planeTest _ => true
  | .planeAttach _ => true
  | .planeReset _ => true
  | .planeStatus _ => true
  | .planeDrainCheck p => isPlane p
  | .planeDrainTmo p => isPlane p
  | .planeFailover => true
  | .planeStateReceive n _ => isNi n
  | .planeTestEnd p => isPlane p
  | .planeJoin p n _ => isPlane p && n.all isNi
  | .reorderWrite m n _ => isMaster m && isNi n
  | .sliceMap _ => true
  | .sliceShare _ => true
  | .sliceReset _ => true
  | .sliceOpen _ => true
  | .sliceStatus _ => true
  | .sliceMigSync _ => true
  | .sliceCloseReceive n sl => isNi n && isSlice sl
  | .sliceCollect sl => isSlice sl
  | .sliceDrainTmo sl => isSlice sl
  | .sliceSquashReceive n sl => isNi n && isSlice sl
  | .sliceQuiesceTmo sl => isSlice sl
  | .migSyncCollect => true
  | .migSwap m n _ => isMaster m && isNi n
  | .migStage m n _ => isMaster m && isNi n
  | .migHold m n _ => isMaster m && isNi n
  | .hcRequest q => q.wf
  | .hcRstAssert => true
  | .cmxArbPhase t => isTarget t
  | .cmxAccess _ => true
  | .registerWrite m q => isMaster m && q.wf
  | .pairLowWrite m q => isMaster m && q.wf
  | .pairStageTmo t => isTarget t
  | .cmxTimeout _ => true
  | .lockMaxExpire t => isTarget t
  | .mgmtReceive n => isNi n
  | .mgmtResponse n => isNi n
  | .remapWrite m _ => isMaster m
  | .bootSelfcheck _ => true
  | .loadStart m _ => isMaster m
  | .loadData m _ => isMaster m
  | .loadGo m _ => isMaster m
  | .bootVerifyDone => true
  | .wdogExpire => true
  | .wdogKick m _ => isMaster m
  | .starterCoreReset => true
  | .mbxDoorbell m k _ => isMaster m && isPin k
  | .mspBlockWriteLow _ _ => true
  | .mspBlockWriteHigh _ _ => true
  | .mspDoorbell _ _ => true
  | .mspStatusRead => true
  | .mspReplyReadLow => true
  | .mspReplyReadHigh => true
  | .mspAddressMatch => true
  | .mspStretchLimit => true
  | .cmdPacketReceive n => isNi n
  | .cmdStart _ => true
  | .cmdTimeout _ => true
  | .cmdReplyReceive n => isNi n
  | .ping _ => true
  | .info _ => true
  | .claimStatus _ => true
  | .claimRelease _ => true
  | .cfgRecompute _ => true
  | .authSet _ => true
  | .rsvSc0 _ => true
  | .rsvSc0Free _ => true
  | .rsvSc1 _ => true
  | .rsvSc1Free _ => true
  | .pwrState _ => true
  | .pwrDvfs _ => true
  | .pwrStatus _ => true
  | .pwrBudget _ => true
  | .pwrPolicy _ => true
  | .pwrWake _ => true
  | .pwrMaskReceive n => isNi n
  | .closingCollect g => isRegion g
  | .entryLimit g => isRegion g
  | .entryCommit g => isRegion g
  | .wakeNLow => true
  | .relayWakeRequest n => isNi n
  | .ppsWakeCount => true
  | .pwrHoldTmo n q => isNi n && decide (q < 1024)
  | .wakeDone g => isRegion g
  | .idleGate g => isRegion g
  | .idleUngate g => isRegion g
  | .fcAck g => isRegion g
  | .vrOk g => isRegion g
  | .supplyTmo g => isRegion g
  | .governorWindow _ => true
  | .leaveRequest kind _ => decide (kind < 6)
  | .leaveGrant => true
  | .leaveReturn kind _ => decide (kind < 6)
  | .droopWarn g _ => isRegion g
  | .droopWarnClear g => isRegion g
  | .droopReset g _ => isRegion g
  | .clockFault g _ => isRegion g
  | .por => true
  | .hrst => true
  | .rstCtlRegion m _ => isMaster m
  | .rstNiGo m _ => isMaster m
  | .resetRelease _ k => isNi k
  | .farEndReset o => o.wf
  | .regionRecovery g => isRegion g
  | .startupStepDone => true
  | .fuseRead _ key => decide (key.length = 32)
  | .fuseTmo => true
  | .spanTrain _ => true
  | .spanDown _ => true
  | .spanSplit _ => true
  | .spanStatus _ => true
  | .trainStateDone k j classes _ _ => isSpan k && isSpan j && decide (classes.length ≤ 8) && classes.all (fun k => decide (k < 16))
  | .trainStateTmo k j => isSpan k && isSpan j
  | .spanDownRetry k j => isSpan k && isSpan j
  | .spanFrameReceive k j f => isSpan k && isSpan j && f.frame.wf
  | .spanFrameSend k j _ _ => isSpan k && isSpan j
  | .replayTmo k j => isSpan k && isSpan j
  | .laneLoss k j l _ => isSpan k && isSpan j && decide (l < 8)
  | .laneRestore k j l => isSpan k && isSpan j && decide (l < 8)
  | .fecWindow k j _ _ errs => isSpan k && isSpan j && decide (errs.length ≤ 8)
  | .linkDownEntry k j => isSpan k && isSpan j
  | .spanForward k src vc _ => isSpan k && decide (src < 6) && isVc vc
  | .spanStall k j vc _ => isSpan k && isSpan j && isVc vc
  | .causeSet k j bit => decide (k < 640) && decide (j < 5) && decide (bit < 32)
  | .firstLogClr m _ => isMaster m
  | .nextLogClr m _ => isMaster m
  | .crcPassStart => true
  | .crcPassEnd => true
  | .crcCommitTake m _ => isMaster m
  | .crcCommitGiven m _ => isMaster m
  | .tapIdcode => true
  | .tapBypass => true
  | .dbgAcc _ => true
  | .traceRd => true
  | .tapReset => true
  | .trcEnWrite m _ => isMaster m
  | .trcStartEvent _ _ => true
  | .testModeWrite m _ => isMaster m
  | .strRstWrite m _ => isMaster m
  | .bistDone _ => true
  | .dbgStatus _ => true
  | .trcStart _ => true
  | .trcStop _ => true
  | .testEnter _ => true
  | .testExit _ => true
  | .hcRstDeassert => true
  | .porHrstDeassert => true
  | .pfArmLeaveTmo slot => decide (slot < 2)

end Sys2Proof
end

