-- ==== Sys2Proof/Tests/Slice0.lean ====
section
/-! SUPPORT. The package's own tests: a witness of the premises of every statement that has some, on a small instance, and
an ill-formed command for each check of well-formedness. -/

open Sys2Proof Sys2Proof.Machine

namespace Demo

set_option linter.unusedVariables false
set_option Elab.async false

/-- A small instance: two routers on each plane with an NI each, a crossing station between them, and a Span port. -/
def demoRom : Rom where
  diameter := 2
  nis := [{ rtr := 0, port := 0, region := 0, epRole := 1, stages := 1 },
    { rtr := 1, port := 0, region := 1, epRole := 3, sched := 1, stages := 1 }]
  rtrs := [{ region := 0 }, { region := 1, relayParent := 0, relayLevel := 1, timeParent := 0, timeLevel := 1 }]
  links := [{ router := 0, port := 0, farKind := 2, farIndex := 0, stages := 1 },
    { router := 0, port := 1, farKind := 1, farIndex := 1, farPort := 1, stages := 1 },
    { router := 0, port := 2, farKind := 3, farIndex := 0, stages := 1 },
    { router := 1, port := 0, farKind := 2, farIndex := 1, stages := 1 },
    { router := 1, port := 1, farKind := 1, farIndex := 0, farPort := 1, stages := 1 }]
  turns := [0x3005006, 0x1002]
  regions := [{ vNom := 800, fcMax := 2400, fcMin := 200 },
    { vNom := 800, fcMax := 2400, fcMin := 200 }]
  spans := [{ lanes := 8, region := 0, rtr := 0, port := 2 }]
  ceils := [{ region := 0, mv := 800, fmax := 2400 }, { region := 1, mv := 800, fmax := 2400 }]
  wired := [(0, 0), (1, 1)]

/-- A network interface with NI_UP high and process 0 mapped to slice 0. -/
def demoNi : NiSt := { up := true, pid := [(0, 0x80000000)] }

/-- The instance with its resets released, its regions in RUN, both NIs up and a route each way between them. -/
def demo : State :=
  let s : State :=
    { rom := demoRom
      straps := {}
      pacer := { rst := 0 }
      rgs := [(0, { held := false }), (1, { held := false })]
      nis := [(0, demoNi), (1, demoNi)] }
  let e : Entry :=
    { path := 1, nhops := 2, valid := true, rep := true, unchk := false, pol := 0, bound := 500, regmask := 3, xings := 1 }
  (s.setEntry 0 1 e).setEntry 1 0 e

/-- The same with NI 0 holding `x`. -/
def ni0 (x : NiSt) : State := demo.setNi 0 x

/-- A command packet of mailbox 0 in execution as number 1: opcode and parameter bytes. -/
def cmd (op : Nat) (ps : List Byte) : Cmd :=
  { id := 1, path := 0, src := 0, bytes := leBytes 1 op ++ leBytes 3 0 ++ leBytes 2 ps.length ++ leBytes 10 0 ++ ps }

/-- The state with one command in execution. -/
def on (c : Cmd) (s : State) : State := { s with cmds := [c] }

/-- What holds of every region that the state lists, and of one that it does not list, holds of every region. -/
theorem rgs_all {s : State} {P : Nat → Rg → Prop} (d : ∀ g, P g {}) (l : ∀ e ∈ s.rgs, P e.1 e.2) (g : Nat) : P g (s.rg g) := by
  unfold State.rg
  generalize s.rgs = m at *
  induction m with
  | nil => exact d g
  | cons a m ih =>
    unfold mget
    split
    · rename_i h
      have := l a List.mem_cons_self
      simp_all
    · exact ih (fun e he => l e (List.mem_cons_of_mem _ he))

/-- What holds of every NI that the state lists, and of one that it does not list, holds of every NI. -/
theorem nis_all {s : State} {P : Nat → NiSt → Prop} (d : ∀ n, P n {}) (l : ∀ e ∈ s.nis, P e.1 e.2) (n : Nat) : P n (s.ni n) := by
  unfold State.ni
  generalize s.nis = m at *
  induction m with
  | nil => exact d n
  | cons a m ih =>
    unfold mget
    split
    · rename_i h
      have := l a List.mem_cons_self
      simp_all
    · exact ih (fun e he => l e (List.mem_cons_of_mem _ he))

/-- No NI of the state queues a MGMT access. -/
theorem mgmt_of {s : State} (h : s.nis.all (fun e => e.2.mgmtIn.isEmpty) = true) (n : Nat) : (s.ni n).mgmtIn = [] :=
  nis_all (P := fun _ x => x.mgmtIn = []) (fun _ => rfl) (fun e he => List.isEmpty_iff.mp (List.all_eq_true.mp h e he)) n

/-- Nothing is in the Control Matrix, and the master may present an access. -/
theorem cmxFree_of {s : State} {m : Nat} (h : (m ≤ 5 ∧ s.mayPresent m = true ∧ s.cmx.acs = [] ∧ s.cmx.owed = [])
    ∧ s.nis.all (fun e => e.2.mgmtIn.isEmpty) = true) : s.CmxFree m :=
  ⟨h.1.1, h.1.2.1, h.1.2.2.1, h.1.2.2.2, mgmt_of h.2⟩

/-! ### Chapter 1 of the statements -/

/-- A request to NI 1. -/
def req (op len : Nat) : AqReq :=
  { code := BitVec.ofNat 5 op, addr := 64, len := BitVec.ofNat 14 len, sc := 2, dsel := true, dest := 1, qsel := 2 }

/-- Where it goes, at address `addr` with `len` bytes. -/
def dst (addr len : Nat) : Dst :=
  { legs := [{ ni := 1, dest := 1, e := some 1, addr := addr, len := len, off := 0, part := 0 }], key := 1, cto := 9 }

/-- Where a command goes. -/
def dstHome : Dst :=
  { legs := [{ ni := 0, dest := 0, e := some 0, addr := 0, len := 16, off := 0, part := 0 }], key := 0, cto := 9 }

/-- The premises of AdmittedRequestTakesTagAndQueues are met. -/
theorem met_AdmittedRequestTakesTagAndQueues :
    (∃ (s : State), ∃ (n : Nat), ∃ (q : AqReq), ∃ (sl : Nat), ∃ (d : Dst), ∃ (ps : List Qp), s.Admits n 0 q sl d ps) ∧
    (∃ (s : State), ∃ (n : Nat), ∃ (q : AqReq), ∃ (sl : Nat), ∃ (d : Dst), ∃ (ps : List Qp), s.Admits n 1 q sl d ps) ∧
    (∃ (s : State), ∃ (n : Nat), ∃ (q : AqReq), ∃ (sl : Nat), ∃ (d : Dst), ∃ (ps : List Qp), s.Admits n 2 q sl d ps) ∧
    (∃ (s : State), ∃ (n : Nat), ∃ (q : AqReq), ∃ (sl : Nat), ∃ (d : Dst), ∃ (ps : List Qp), s.Admits n 3 q sl d ps) ∧
    (∃ (s : State), ∃ (n : Nat), ∃ (q : AqReq), ∃ (sl : Nat), ∃ (d : Dst), ∃ (ps : List Qp), s.Admits n 4 q sl d ps) ∧
    (∃ (s : State), ∃ (n : Nat), ∃ (q : AqReq), ∃ (sl : Nat), ∃ (d : Dst), ∃ (ps : List Qp), s.Admits n 5 q sl d ps) ∧
    (∃ (s : State), ∃ (n : Nat), ∃ (q : AqReq), ∃ (sl : Nat), ∃ (d : Dst), ∃ (ps : List Qp), s.Admits n 6 q sl d ps) ∧
    (∃ (s : State), ∃ (n : Nat), ∃ (q : AqReq), ∃ (sl : Nat), ∃ (d : Dst), ∃ (ps : List Qp), s.Admits n 9 q sl d ps) ∧
    (∃ (s : State), ∃ (n : Nat), ∃ (q : AqReq), ∃ (sl : Nat), ∃ (d : Dst), ∃ (ps : List Qp), s.Admits n 10 q sl d ps) ∧
    (∃ (s : State), ∃ (n : Nat), ∃ (q : AqReq), ∃ (sl : Nat), ∃ (d : Dst), ∃ (ps : List Qp), s.Admits n 11 q sl d ps) :=
  ⟨⟨demo, 0, req 0 8, 0, dst 64 8, (demo).packetsOf 0 0 (req 0 8) 0 (dst 64 8), by decide +kernel⟩,
    ⟨demo, 0, req 1 8, 0, dst 64 8, (demo).packetsOf 0 1 (req 1 8) 0 (dst 64 8), by decide +kernel⟩,
    ⟨demo, 0, req 2 8, 0, dst 64 8, (demo).packetsOf 0 2 (req 2 8) 0 (dst 64 8), by decide +kernel⟩,
    ⟨demo, 0, req 3 8, 0, dst 64 8, (demo).packetsOf 0 3 (req 3 8) 0 (dst 64 8), by decide +kernel⟩,
    ⟨demo, 0, req 4 8, 0, dst 64 8, (demo).packetsOf 0 4 (req 4 8) 0 (dst 64 8), by decide +kernel⟩,
    ⟨demo, 0, req 5 8, 0, dst 64 8, (demo).packetsOf 0 5 (req 5 8) 0 (dst 64 8), by decide +kernel⟩,
    ⟨demo, 0, req 6 16, 0, dst 64 16, (demo).packetsOf 0 6 (req 6 16) 0 (dst 64 16), by decide +kernel⟩,
    ⟨demo, 0, req 9 0, 0, dst 64 0, (demo).packetsOf 0 9 (req 9 0) 0 (dst 64 0), by decide +kernel⟩,
    ⟨demo, 0, req 10 0, 0, dst 64 0, (demo).packetsOf 0 10 (req 10 0) 0 (dst 64 0), by decide +kernel⟩,
    ⟨demo.wr strB (F.STR_CMD_AUTH_MASK.ix 0) 1, 0, req 11 16, 0, dstHome,
      (demo.wr strB (F.STR_CMD_AUTH_MASK.ix 0) 1).packetsOf 0 11 (req 11 16) 0 (dstHome), by decide +kernel⟩⟩

/-- The premises of RefusedRequestIsAnsweredAtItsNi are met. -/
theorem met_RefusedRequestIsAnsweredAtItsNi :
    (∃ (s : State), ∃ (n : Nat), ∃ (q : AqReq), ∃ (st : Nat), s.Refuses n (opOf 0 q) q st) ∧
    (∃ (s : State), ∃ (n : Nat), ∃ (q : AqReq), ∃ (st : Nat), s.Refuses n (opOf 0 q) q st) ∧
    (∃ (s : State), ∃ (n : Nat), ∃ (q : AqReq), ∃ (st : Nat), s.Refuses n (opOf 1 q) q st) ∧
    (∃ (s : State), ∃ (n : Nat), ∃ (q : AqReq), ∃ (st : Nat), s.Refuses n (opOf 2 q) q st) ∧
    (∃ (s : State), ∃ (n : Nat), ∃ (q : AqReq), ∃ (st : Nat), s.Refuses n (opOf 3 q) q st) ∧
    (∃ (s : State), ∃ (n : Nat), ∃ (q : AqReq), ∃ (st : Nat), s.Refuses n (opOf 4 q) q st) ∧
    (∃ (s : State), ∃ (n : Nat), ∃ (q : AqReq), ∃ (st : Nat), s.Refuses n (opOf 5 q) q st) ∧
    (∃ (s : State), ∃ (n : Nat), ∃ (q : AqReq), ∃ (st : Nat), s.Refuses n (opOf 6 q) q st) ∧
    (∃ (s : State), ∃ (n : Nat), ∃ (q : AqReq), ∃ (st : Nat), s.Refuses n (opOf 9 q) q st) ∧
    (∃ (s : State), ∃ (n : Nat), ∃ (q : AqReq), ∃ (st : Nat), s.Refuses n (opOf 10 q) q st) ∧
    (∃ (s : State), ∃ (n : Nat), ∃ (q : AqReq), ∃ (st : Nat), s.Refuses n (opOf 11 q) q st) :=
  ⟨⟨demo, 0, { req 0 8 with pid := 9 }, 0x0F, by decide +kernel⟩,
    ⟨demo, 0, req 31 8, 0x0E, by decide +kernel⟩,
    ⟨demo, 0, { req 1 8 with pid := 9 }, 0x0F, by decide +kernel⟩,
    ⟨demo, 0, { req 2 8 with pid := 9 }, 0x0F, by decide +kernel⟩,
    ⟨demo, 0, { req 3 8 with pid := 9 }, 0x0F, by decide +kernel⟩,
    ⟨demo, 0, { req 4 8 with pid := 9 }, 0x0F, by decide +kernel⟩,
    ⟨demo, 0, { req 5 8 with pid := 9 }, 0x0F, by decide +kernel⟩,
    ⟨demo, 0, { req 6 16 with pid := 9 }, 0x0F, by decide +kernel⟩,
    ⟨demo, 0, { req 9 0 with pid := 9 }, 0x0F, by decide +kernel⟩,
    ⟨demo, 0, { req 10 0 with pid := 9 }, 0x0F, by decide +kernel⟩,
    ⟨demo, 0, { req 11 16 with pid := 9 }, 0x0F, by decide +kernel⟩⟩

/-- The premises of ReadyLowHoldsTheBeat are met. -/
theorem met_ReadyLowHoldsTheBeat :
    (∃ (s : State), ∃ (n : Nat), s.hasNi n = true ∧ (s.niOpen n = false ∨ s.cvtReady n false = false ∨ s.tagFree n = false)) ∧
    (∃ (s : State), ∃ (n : Nat), s.hasNi n = true ∧ (s.niOpen n = false ∨ s.cvtReady n false = false ∨ s.tagFree n = false)) ∧
    (∃ (s : State), ∃ (n : Nat), s.hasNi n = true ∧ (s.niOpen n = false ∨ s.cvtReady n true = false)) :=
  ⟨⟨ni0 { demoNi with up := false }, 0, by decide +kernel⟩,
    ⟨ni0 { demoNi with cvt := List.replicate 32 { st := false, q := 2, qps := [default] } }, 0, by decide +kernel⟩,
    ⟨ni0 { demoNi with up := false }, 0, by decide +kernel⟩⟩

/-- The premises of BufferedStoreEntersTheBuffer are met. -/
theorem met_BufferedStoreEntersTheBuffer : ∃ (s : State), ∃ (n : Nat), ∃ (q : AqReq), ∃ (sl : Nat), ∃ (d : Dst),
    s.Checked n 1 q sl d ∧ s.sbEnters n 1 q.sc.toNat d = true ∧ (s.ni n).sbSers.length < 32 ∧
    (s.ni n).sbBytes + q.len.toNat ≤ 32768 ∧ s.quarAt n = false ∧ d.legs.isEmpty = false :=
  ⟨((demo.wr (niB 0) F.NI_ORD_CFG_SB_EN 1).setWord (niB 0 + 0x810) 1#32).setWord (niB 0 + 0x814) 0x93#32, 0,
    { req 1 8 with dsel := false }, 0, { dst 64 8 with ea := true }, by decide +kernel⟩

/-- The premises of BarrierTakesTagAndWaits are met. -/
theorem met_BarrierTakesTagAndWaits :
    (∃ (s : State), ∃ (n : Nat), ∃ (q : AqReq), ∃ (sl : Nat), s.hasNi n = true ∧ s.niOpen n = true ∧ s.cvtReady n false = true ∧
      s.tagFree n = true ∧ q.soft = [] ∧ q.code.toNat < 12 ∧ (∀ o ∈ (s.ni n).ord,
      o.id = q.id.toNat → o.key ≠ 2 ^ 22 + (s.ni n).nextSer) ∧ s.sliceOf n q.pid.toNat = some sl ∧ s.tagShare n sl = true) ∧
    (∃ (s : State), ∃ (n : Nat), ∃ (q : AqReq), s.hasNi n = true ∧ s.niOpen n = true ∧ s.cvtReady n false = true ∧
      s.tagFree n = true ∧ q.soft = [] ∧ q.code.toNat < 12 ∧ (∀ o ∈ (s.ni n).ord,
      o.id = q.id.toNat → o.key ≠ 2 ^ 22 + (s.ni n).nextSer) ∧ s.sliceOf n q.pid.toNat = none) :=
  ⟨⟨demo, 0, req 7 0, 0, by decide +kernel⟩,
    ⟨demo, 0, { req 7 0 with pid := 9 }, by decide +kernel⟩⟩

/-- The premises of WriteDataFillsItsRequest are met. -/
theorem met_WriteDataFillsItsRequest :
    (∃ (s : State), ∃ (n : Nat), ∃ (b : WBeat), s.hasNi n = true ∧ ((s.ni n).up = false ∨ s.wqReady n b = false)) ∧
    (∃ (s : State), ∃ (n : Nat), ∃ (b : WBeat), s.hasNi n = true ∧ (s.ni n).up = true ∧ s.wqReady n b = true ∧
      (s.ni n).wq.find? (fun w => w.sc == b.sc.toNat) = none) ∧
    (∃ (s : State), ∃ (n : Nat), ∃ (b : WBeat), ∃ (w : WqExp), ∃ (want : Nat), ∃ (a : State × List Byte), ∃ (gone more : NiSt),
      want = cdiv (w.addr % beatBytes s.rom n + w.len) (beatBytes s.rom n) ∧
      a = beatData s ((((b.lanes ++ List.replicate (beatBytes s.rom n) none).take (beatBytes s.rom n)).drop (if w.beats = 0 then w.addr % beatBytes s.rom n else 0)).take (w.len - w.got.length)) ∧
      gone = { s.ni n with wq := (s.ni n).wq.erase w } ∧
      more = { s.ni n with wq := (s.ni n).wq.map (fun u => if u = w then { w with beats := w.beats + 1, discard := true, answered := true } else u) } ∧
      s.hasNi n = true ∧ (s.ni n).up = true ∧ s.wqReady n b = true ∧ (s.ni n).wq.find? (fun w => w.sc == b.sc.toNat) = some w ∧
      w.discard = false ∧ b.last = true ∧ w.beats + 1 = want) ∧
    (∃ (s : State), ∃ (n : Nat), ∃ (b : WBeat), ∃ (w : WqExp), ∃ (want : Nat), ∃ (a : State × List Byte), ∃ (gone more : NiSt),
      want = cdiv (w.addr % beatBytes s.rom n + w.len) (beatBytes s.rom n) ∧
      a = beatData s ((((b.lanes ++ List.replicate (beatBytes s.rom n) none).take (beatBytes s.rom n)).drop (if w.beats = 0 then w.addr % beatBytes s.rom n else 0)).take (w.len - w.got.length)) ∧
      gone = { s.ni n with wq := (s.ni n).wq.erase w } ∧
      more = { s.ni n with wq := (s.ni n).wq.map (fun u => if u = w then { w with beats := w.beats + 1, discard := true, answered := true } else u) } ∧
      s.hasNi n = true ∧ (s.ni n).up = true ∧ s.wqReady n b = true ∧ (s.ni n).wq.find? (fun w => w.sc == b.sc.toNat) = some w ∧
      w.discard = false ∧ b.last = false ∧ w.beats + 1 ≠ want) ∧
    (∃ (s : State), ∃ (n : Nat), ∃ (b : WBeat), ∃ (w : WqExp), ∃ (want : Nat), ∃ (a : State × List Byte), ∃ (gone more : NiSt),
      want = cdiv (w.addr % beatBytes s.rom n + w.len) (beatBytes s.rom n) ∧
      a = beatData s ((((b.lanes ++ List.replicate (beatBytes s.rom n) none).take (beatBytes s.rom n)).drop (if w.beats = 0 then w.addr % beatBytes s.rom n else 0)).take (w.len - w.got.length)) ∧
      gone = { s.ni n with wq := (s.ni n).wq.erase w } ∧
      more = { s.ni n with wq := (s.ni n).wq.map (fun u => if u = w then { w with beats := w.beats + 1, discard := true, answered := true } else u) } ∧
      s.hasNi n = true ∧ (s.ni n).up = true ∧ s.wqReady n b = true ∧ (s.ni n).wq.find? (fun w => w.sc == b.sc.toNat) = some w ∧
      w.discard = false ∧ b.last = true ∧ w.beats + 1 ≠ want) ∧
    (∃ (s : State), ∃ (n : Nat), ∃ (b : WBeat), ∃ (w : WqExp), ∃ (want : Nat), ∃ (a : State × List Byte), ∃ (gone more : NiSt),
      want = cdiv (w.addr % beatBytes s.rom n + w.len) (beatBytes s.rom n) ∧
      a = beatData s ((((b.lanes ++ List.replicate (beatBytes s.rom n) none).take (beatBytes s.rom n)).drop (if w.beats = 0 then w.addr % beatBytes s.rom n else 0)).take (w.len - w.got.length)) ∧
      gone = { s.ni n with wq := (s.ni n).wq.erase w } ∧
      more = { s.ni n with wq := (s.ni n).wq.map (fun u => if u = w then { w with beats := w.beats + 1, discard := true, answered := true } else u) } ∧
      s.hasNi n = true ∧ (s.ni n).up = true ∧ s.wqReady n b = true ∧ (s.ni n).wq.find? (fun w => w.sc == b.sc.toNat) = some w ∧
      w.discard = false ∧ b.last = false ∧ w.beats + 1 = want) ∧
    (∃ (s : State), ∃ (n : Nat), ∃ (b : WBeat), ∃ (w : WqExp), ∃ (want : Nat), ∃ (a : State × List Byte), ∃ (gone more : NiSt),
      want = cdiv (w.addr % beatBytes s.rom n + w.len) (beatBytes s.rom n) ∧
      a = beatData s ((((b.lanes ++ List.replicate (beatBytes s.rom n) none).take (beatBytes s.rom n)).drop (if w.beats = 0 then w.addr % beatBytes s.rom n else 0)).take (w.len - w.got.length)) ∧
      gone = { s.ni n with wq := (s.ni n).wq.erase w } ∧
      more = { s.ni n with wq := (s.ni n).wq.map (fun u => if u = w then { w with beats := w.beats + 1, discard := true, answered := true } else u) } ∧
      s.hasNi n = true ∧ (s.ni n).up = true ∧ s.wqReady n b = true ∧ (s.ni n).wq.find? (fun w => w.sc == b.sc.toNat) = some w ∧
      w.discard = true ∧ b.last = false) ∧
    (∃ (s : State), ∃ (n : Nat), ∃ (b : WBeat), ∃ (w : WqExp), ∃ (want : Nat), ∃ (a : State × List Byte), ∃ (gone more : NiSt),
      want = cdiv (w.addr % beatBytes s.rom n + w.len) (beatBytes s.rom n) ∧
      a = beatData s ((((b.lanes ++ List.replicate (beatBytes s.rom n) none).take (beatBytes s.rom n)).drop (if w.beats = 0 then w.addr % beatBytes s.rom n else 0)).take (w.len - w.got.length)) ∧
      gone = { s.ni n with wq := (s.ni n).wq.erase w } ∧
      more = { s.ni n with wq := (s.ni n).wq.map (fun u => if u = w then { w with beats := w.beats + 1, discard := true, answered := true } else u) } ∧
      s.hasNi n = true ∧ (s.ni n).up = true ∧ s.wqReady n b = true ∧ (s.ni n).wq.find? (fun w => w.sc == b.sc.toNat) = some w ∧
      w.discard = true ∧ b.last = true ∧ (w.beats + 1 = want ∨ w.answered = true)) ∧
    (∃ (s : State), ∃ (n : Nat), ∃ (b : WBeat), ∃ (w : WqExp), ∃ (want : Nat), ∃ (a : State × List Byte), ∃ (gone more : NiSt),
      want = cdiv (w.addr % beatBytes s.rom n + w.len) (beatBytes s.rom n) ∧
      a = beatData s ((((b.lanes ++ List.replicate (beatBytes s.rom n) none).take (beatBytes s.rom n)).drop (if w.beats = 0 then w.addr % beatBytes s.rom n else 0)).take (w.len - w.got.length)) ∧
      gone = { s.ni n with wq := (s.ni n).wq.erase w } ∧
      more = { s.ni n with wq := (s.ni n).wq.map (fun u => if u = w then { w with beats := w.beats + 1, discard := true, answered := true } else u) } ∧
      s.hasNi n = true ∧ (s.ni n).up = true ∧ s.wqReady n b = true ∧ (s.ni n).wq.find? (fun w => w.sc == b.sc.toNat) = some w ∧
      w.discard = true ∧ b.last = true ∧ w.beats + 1 ≠ want ∧ w.answered = false) :=
  ⟨⟨ni0 { demoNi with up := false }, 0, { sc := 2, lanes := [some 1], last := true }, by decide +kernel⟩,
    ⟨demo, 0, { sc := 2, lanes := [some 1], last := true }, by decide +kernel⟩,
    ⟨ni0 { demoNi with wq := [{ ser := 1, sc := 2, tag := 0, addr := 3, len := 4 }] }, 0,
      { sc := 2, lanes := [none, none, none, some 1, some 2, none, some 4], last := true },
      { ser := 1, sc := 2, tag := 0, addr := 3, len := 4 }, _, _, _, _, rfl, rfl, rfl, rfl, by decide +kernel⟩,
    ⟨ni0 { demoNi with wq := [{ ser := 1, sc := 2, tag := 0, addr := 0, len := 12 }] }, 0,
      { sc := 2, lanes := [some 1, some 2], last := false }, { ser := 1, sc := 2, tag := 0, addr := 0, len := 12 }, _, _, _, _,
      rfl, rfl, rfl, rfl, by decide +kernel⟩,
    ⟨ni0 { demoNi with wq := [{ ser := 1, sc := 2, tag := 0, addr := 0, len := 12 }] }, 0,
      { sc := 2, lanes := [some 1], last := true }, { ser := 1, sc := 2, tag := 0, addr := 0, len := 12 }, _, _, _, _, rfl, rfl,
      rfl, rfl, by decide +kernel⟩,
    ⟨ni0 { demoNi with wq := [{ ser := 1, sc := 2, tag := 0, addr := 3, len := 4 }] }, 0,
      { sc := 2, lanes := [some 1, some 2], last := false }, { ser := 1, sc := 2, tag := 0, addr := 3, len := 4 }, _, _, _, _,
      rfl, rfl, rfl, rfl, by decide +kernel⟩,
    ⟨ni0 { demoNi with wq := [{ ser := 1, sc := 2, tag := 0, addr := 0, len := 64, discard := true }] }, 0,
      { sc := 2, lanes := [some 1], last := false }, { ser := 1, sc := 2, tag := 0, addr := 0, len := 64, discard := true }, _,
      _, _, _, rfl, rfl, rfl, rfl, by decide +kernel⟩,
    ⟨ni0 { demoNi with wq := [{ ser := 1, sc := 2, tag := 0, addr := 0, len := 64, discard := true, answered := true }] }, 0,
      { sc := 2, lanes := [some 1], last := true },
      { ser := 1, sc := 2, tag := 0, addr := 0, len := 64, discard := true, answered := true }, _, _, _, _, rfl, rfl, rfl, rfl,
      by decide +kernel⟩,
    ⟨ni0 { demoNi with wq := [{ ser := 1, sc := 2, tag := 0, addr := 0, len := 64, discard := true }] }, 0,
      { sc := 2, lanes := [some 1], last := true }, { ser := 1, sc := 2, tag := 0, addr := 0, len := 64, discard := true }, _, _,
      _, _, rfl, rfl, rfl, rfl, by decide +kernel⟩⟩

/-- The premises of StreamPacketIsOffered are met. -/
theorem met_StreamPacketIsOffered :
    (∃ (s : State), ∃ (n : Nat), ∃ (p : StPkt), ∃ (sl : Nat), ∃ (d : Dst), ∃ (a : State × List Byte),
      a = fillData s p.data p.len.toNat ∧ s.hasNi n = true ∧ s.niOpen n = true ∧ s.cvtReady n true = true ∧ p.soft = [] ∧
      s.stCheck n p = some (sl, d) ∧ d.legs.isEmpty = false ∧ (d.legs.all (fun l => match l.e with
        | none => false
        | some e => p.sc != 0 || (s.partCheck n e [flitsOf p.len.toNat] p.now).isNone)) = true ∧
          (p.sc = 1 → s.sc1Ok n p.qsel.toNat = true) ∧ (2 ≤ p.sc.toNat → s.quarAt n = false)) ∧
    (∃ (s : State), ∃ (n : Nat), ∃ (p : StPkt), s.hasNi n = true ∧ s.niOpen n = true ∧ s.cvtReady n true = true ∧ p.soft = [] ∧
      s.stCheck n p = none) :=
  ⟨⟨demo, 0, { sc := 2, len := 8, dest := 1, qsel := 2, data := [7] }, 0,
    { legs := [{ ni := 1, dest := 1, e := some 1, addr := 0, len := 8, off := 0, part := 0 }], key := 1, cto := 0 }, _, rfl,
    by decide +kernel⟩,
    ⟨demo, 0, { sc := 2, len := 0, dest := 1, qsel := 2 }, by decide +kernel⟩⟩

/-- The premises of WaitingPacketEntersItsQueue are met. -/
theorem met_WaitingPacketEntersItsQueue :
    (∃ (s : State), ∃ (n : Nat), ∃ (st : Bool), s.hasNi n = true ∧ (s.ni n).cvt.find? (fun w => w.st == st) = none) ∧
    (∃ (s : State), ∃ (n : Nat), ∃ (st : Bool), ∃ (w : Wait), ∃ (p : Qp), ∃ (r : List Qp), s.hasNi n = true ∧
      (s.ni n).cvt.find? (fun w => w.st == st) = some w ∧ w.qps = p :: r ∧
      (p.sb = true ∨ s.roomFor n w.q p.slice p.sc w.flits = true)) ∧
    (∃ (s : State), ∃ (n : Nat), ∃ (st : Bool), ∃ (w : Wait), ∃ (p : Qp), ∃ (r : List Qp), s.hasNi n = true ∧
      (s.ni n).cvt.find? (fun w => w.st == st) = some w ∧ w.qps = p :: r ∧ p.sb = false ∧
      s.roomFor n w.q p.slice p.sc w.flits = false) :=
  ⟨⟨ni0 { demoNi with up := false }, 0, true, by decide +kernel⟩,
    ⟨ni0 { demoNi with cvt := [{ st := false, q := 2, qps := [default] }] }, 0, false, { st := false, q := 2, qps := [default] },
      default, [], by decide +kernel⟩,
    ⟨ni0 { demoNi with cvt := [{ st := false, q := 2, qps := [{ (default : Qp) with occ := 1 }] }], qs := [(2, { cls := 2, depth := 1, pkts := [{ (default : Qp) with occ := 1 }] })] },
      0, false, { st := false, q := 2, qps := [{ (default : Qp) with occ := 1 }] }, { (default : Qp) with occ := 1 }, [],
      by decide +kernel⟩⟩

/-- The premises of EndpointPortEvents are met. -/
theorem met_EndpointPortEvents :
    (∃ (s : State), ∃ (n : Nat), s.hasNi n = true) ∧
    (∃ (s : State), ∃ (n : Nat), s.hasNi n = true ∧ (s.ni n).up = true ∧ (s.ni n).evq.length < 4) ∧
    (∃ (s : State), ∃ (n : Nat), s.hasNi n = true ∧ (s.ni n).up = true ∧ 4 ≤ (s.ni n).evq.length) ∧
    (∃ (s : State), ∃ (n : Nat), s.hasNi n = true ∧ (s.ni n).up = false) ∧
    (∃ (s : State), ∃ (n : Nat), ∃ (e : BitVec 16) (r : List (BitVec 16)), s.hasNi n = true ∧ (s.ni n).evq = e :: r) ∧
    (∃ (s : State), ∃ (n : Nat), s.hasNi n = true ∧ (s.ni n).evq = []) ∧
    (∃ (s : State), ∃ (n : Nat), s.hasNi n = true ∧ (s.ni n).mayRise = true ∧ s.replayDue n = false ∧
      s.rgOpen (niRec s.rom n).region = true) ∧
    (∃ (s : State), ∃ (n : Nat), s.hasNi n = true ∧
      ((s.ni n).mayRise = false ∨ s.replayDue n = true ∨ s.rgOpen (niRec s.rom n).region = false)) ∧
    (∃ (s : State), ∃ (n : Nat), ∃ (half : Nat), ∃ (k : Nat), ∃ (x : NiSt), x = (s.ni n).moved half ∧ s.hasNi n = true ∧
      half < 4 ∧ s.rd (niB n) F.NI_EP_CFG_STALL_EXP ≠ 0 ∧ (s.ni n).up = true ∧ (s.ni n).stood half = none ∧
      s.shown n half = some k) ∧
    (∃ (s : State), ∃ (n : Nat), ∃ (half : Nat), s.hasNi n = true ∧ half < 4 ∧
      (s.rd (niB n) F.NI_EP_CFG_STALL_EXP = 0 ∨ (s.ni n).up = false ∨ (s.ni n).stood half ≠ none ∨ s.shown n half = none)) :=
  ⟨⟨demo, 0, by decide +kernel⟩,
    ⟨demo, 0, by decide +kernel⟩,
    ⟨ni0 { demoNi with evq := [1, 2, 3, 4] }, 0, by decide +kernel⟩,
    ⟨ni0 { demoNi with up := false }, 0, by decide +kernel⟩,
    ⟨ni0 { demoNi with evq := [1, 2] }, 0, 1, [2], by decide +kernel⟩,
    ⟨demo, 0, by decide +kernel⟩,
    ⟨ni0 { demoNi with up := false }, 0, by decide +kernel⟩,
    ⟨ni0 { demoNi with up := false, epLow := true }, 0, by decide +kernel⟩,
    ⟨(ni0 { demoNi with wqq := [(1, 7)] }).wr (niB 0) F.NI_EP_CFG_STALL_EXP 3, 0, 0, 7, _, rfl, by decide +kernel⟩,
    ⟨demo, 0, 0, by decide +kernel⟩⟩

/-! ### Chapter 2 of the statements -/

/-- A request that waits for its answer: number 5, tag 0, ID 3. -/
def waits : Tag :=
  { ser := 5, id := 3, code := 0, sc := 2, slice := 0, pid := 0, addr := 64, len := 8, dkey := 1, parts := [{ ni := 1, pieces := [(0, 8)] }] }

/-- A response to it, received whole. -/
def answer : Pk := { hdr := { ptype := 1, tag := 0, src := 1, len := 8 }, plane := 0, vc := 6, got := List.replicate 8 1 }

/-- NI 0 with request `g` under tag 0 and packet `p` received for it. -/
def answered (g : Tag) (p : Pk) : State :=
  ni0 { demoNi with tags := [(0, some g)], ord := [{ ser := 5, id := 3, key := 1 }], pks := [(9, some p)], rin := [9], inbox := [9] }

/-- A response that returns status `st` and no data. -/
def ended (ty st : Nat) : Pk := { hdr := { ptype := ty, op := st, tag := 0, src := 1 }, plane := 0, vc := 6 }

/-- The premises of CompletionTimeoutEndsRequest are met. -/
theorem met_CompletionTimeoutEndsRequest :
    (∃ (s : State), ∃ (n tag part : Nat), (∀ g p,
      (s.ni n).tag tag = some g → g.parts[if g.split then part else 0]? = some p → p.pieces.isEmpty = true) ∧ s.hasNi n = true) ∧
    (∃ (s v : State), ∃ (n tag part k : Nat), ∃ (g : Tag), ∃ (p : Part), ∃ (a : State × Nat), k = (if g.split then part else 0) ∧
      v = (s.count (niB n) F.NI_CTO_CNT_COUNT 1).alert n (if g.store then 5 else 6) ∧
      a = (if g.store then v.dropStore n g else (v, 0x0C)) ∧ s.hasNi n = true ∧ (s.ni n).tag tag = some g ∧
      g.parts[k]? = some p ∧ p.pieces.isEmpty = false) ∧
    (∃ (s v : State), ∃ (n tag part k : Nat), ∃ (g : Tag), ∃ (p : Part), ∃ (a : State × Nat), k = (if g.split then part else 0) ∧
      v = (s.count (niB n) F.NI_CTO_CNT_COUNT 1).alert n (if g.store then 5 else 6) ∧
      a = (if g.store then v.dropStore n g else (v, 0x0C)) ∧ s.hasNi n = true ∧ (s.ni n).tag tag = some g ∧
      g.parts[k]? = some p ∧ p.pieces.isEmpty = false) ∧
    (∃ (s v : State), ∃ (n tag part k : Nat), ∃ (g : Tag), ∃ (p : Part), ∃ (a : State × Nat), k = (if g.split then part else 0) ∧
      v = (s.count (niB n) F.NI_CTO_CNT_COUNT 1).alert n (if g.store then 5 else 6) ∧
      a = (if g.store then v.dropStore n g else (v, 0x0C)) ∧ s.hasNi n = true ∧ (s.ni n).tag tag = some g ∧
      g.parts[k]? = some p ∧ p.pieces.isEmpty = false) ∧
    (∃ (s v : State), ∃ (n tag part k : Nat), ∃ (g : Tag), ∃ (p : Part), ∃ (a : State × Nat), k = (if g.split then part else 0) ∧
      v = (s.count (niB n) F.NI_CTO_CNT_COUNT 1).alert n (if g.store then 5 else 6) ∧
      a = (if g.store then v.dropStore n g else (v, 0x0C)) ∧ s.hasNi n = true ∧ (s.ni n).tag tag = some g ∧
      g.parts[k]? = some p ∧ p.pieces.isEmpty = false ∧ g.store = false) ∧
    (∃ (s v : State), ∃ (n tag part k : Nat), ∃ (g : Tag), ∃ (p : Part), ∃ (a : State × Nat), k = (if g.split then part else 0) ∧
      v = (s.count (niB n) F.NI_CTO_CNT_COUNT 1).alert n (if g.store then 5 else 6) ∧
      a = (if g.store then v.dropStore n g else (v, 0x0C)) ∧ s.hasNi n = true ∧ (s.ni n).tag tag = some g ∧
      g.parts[k]? = some p ∧ p.pieces.isEmpty = false ∧ g.store = true) ∧
    (∃ (s v : State), ∃ (n tag part k : Nat), ∃ (g : Tag), ∃ (p : Part), ∃ (a : State × Nat), k = (if g.split then part else 0) ∧
      v = (s.count (niB n) F.NI_CTO_CNT_COUNT 1).alert n (if g.store then 5 else 6) ∧
      a = (if g.store then v.dropStore n g else (v, 0x0C)) ∧ s.hasNi n = true ∧ (s.ni n).tag tag = some g ∧
      g.parts[k]? = some p ∧ p.pieces.isEmpty = false ∧ g.split = false) ∧
    (∃ (s v : State), ∃ (n tag part k : Nat), ∃ (g : Tag), ∃ (p : Part), ∃ (a : State × Nat), k = (if g.split then part else 0) ∧
      v = (s.count (niB n) F.NI_CTO_CNT_COUNT 1).alert n (if g.store then 5 else 6) ∧
      a = (if g.store then v.dropStore n g else (v, 0x0C)) ∧ s.hasNi n = true ∧ (s.ni n).tag tag = some g ∧
      g.parts[k]? = some p ∧ p.pieces.isEmpty = false ∧ g.split = false) :=
  ⟨⟨demo, 0, 0, 0, (fun g p h => nomatch h), by decide +kernel⟩,
    ⟨ni0 { demoNi with tags := [(0, some waits)], ord := [{ ser := 5, id := 3, key := 1 }] }, _, 0, 0, 0, _, waits,
      { ni := 1, pieces := [(0, 8)] }, _, rfl, rfl, rfl, by decide +kernel⟩,
    ⟨ni0 { demoNi with tags := [(0, some { waits with code := 1, store := true })], ord := [{ ser := 5, id := 3, key := 1 }] },
      _, 0, 0, 0, _, { waits with code := 1, store := true }, { ni := 1, pieces := [(0, 8)] }, _, rfl, rfl, rfl,
      by decide +kernel⟩,
    ⟨ni0 { demoNi with tags := [(0, some { waits with split := true, parts := [{ ni := 1, pieces := [(0, 8)] }, { ni := 1, pieces := [(0, 8)] }] })], ord := [{ ser := 5, id := 3, key := 1 }] },
      _, 0, 0, 1, _, { waits with split := true, parts := [{ ni := 1, pieces := [(0, 8)] }, { ni := 1, pieces := [(0, 8)] }] },
      { ni := 1, pieces := [(0, 8)] }, _, rfl, rfl, rfl, by decide +kernel⟩,
    ⟨ni0 { demoNi with tags := [(0, some waits)], ord := [{ ser := 5, id := 3, key := 1 }] }, _, 0, 0, 0, _, waits,
      { ni := 1, pieces := [(0, 8)] }, _, rfl, rfl, rfl, by decide +kernel⟩,
    ⟨ni0 { demoNi with tags := [(0, some { waits with code := 1, store := true })], ord := [{ ser := 5, id := 3, key := 1 }] },
      _, 0, 0, 0, _, { waits with code := 1, store := true }, { ni := 1, pieces := [(0, 8)] }, _, rfl, rfl, rfl,
      by decide +kernel⟩,
    ⟨ni0 { demoNi with tags := [(0, some waits)], ord := [{ ser := 5, id := 3, key := 1 }] }, _, 0, 0, 0, _, waits,
      { ni := 1, pieces := [(0, 8)] }, _, rfl, rfl, rfl, by decide +kernel⟩,
    ⟨ni0 { demoNi with tags := [(0, some { waits with code := 1, store := true })], ord := [{ ser := 5, id := 3, key := 1 }] },
      _, 0, 0, 0, _, { waits with code := 1, store := true }, { ni := 1, pieces := [(0, 8)] }, _, rfl, rfl, rfl,
      by decide +kernel⟩⟩

/-- The premises of BarrierIsAnswered are met. -/
theorem met_BarrierIsAnswered :
    (∃ (s : State), ∃ (n : Nat), s.hasNi n = true ∧ (s.ni n).bars = []) ∧
    (∃ (s : State), ∃ (n : Nat), s.hasNi n = true ∧ (s.ni n).bars = []) ∧
    (∃ (s : State), ∃ (n : Nat), ∃ (b : Bar), ∃ (r : List Bar), s.hasNi n = true ∧ (s.ni n).bars = b :: r ∧
      (s.ni n).barMet b = false) ∧
    (∃ (s : State), ∃ (n : Nat), ∃ (b : Bar), ∃ (r : List Bar), s.hasNi n = true ∧ (s.ni n).bars = b :: r ∧
      (s.ni n).barMet b = true ∧ ((s.ni n).tag b.id).any (fun g => g.preRst) = false ∧ b.complete = false) ∧
    (∃ (s : State), ∃ (n : Nat), ∃ (b : Bar), ∃ (r : List Bar), s.hasNi n = true ∧ (s.ni n).bars = b :: r ∧
      (s.ni n).barMet b = true ∧ ((s.ni n).tag b.id).any (fun g => g.preRst) = false ∧ b.complete = true ∧
      (b.fault || (s.ni n).bfPend) = true) ∧
    (∃ (s : State), ∃ (n : Nat), ∃ (b : Bar), ∃ (r : List Bar), s.hasNi n = true ∧ (s.ni n).bars = b :: r ∧
      (s.ni n).barMet b = true ∧ ((s.ni n).tag b.id).any (fun g => g.preRst) = false ∧ b.complete = true ∧
      (b.fault || (s.ni n).bfPend) = false ∧ s.flag (niB n) F.NI_ORD_STAT_SB_ERR = true) ∧
    (∃ (s : State), ∃ (n : Nat), ∃ (b : Bar), ∃ (r : List Bar), s.hasNi n = true ∧ (s.ni n).bars = b :: r ∧
      (s.ni n).barMet b = true ∧ ((s.ni n).tag b.id).any (fun g => g.preRst) = false ∧ b.complete = true ∧
      (b.fault || (s.ni n).bfPend) = false ∧ s.flag (niB n) F.NI_ORD_STAT_SB_ERR = false) ∧
    (∃ (s : State), ∃ (n : Nat), ∃ (b : Bar), ∃ (r : List Bar), s.hasNi n = true ∧ (s.ni n).bars = b :: r ∧
      (s.ni n).barMet b = true ∧ ((s.ni n).tag b.id).any (fun g => g.preRst) = true) :=
  ⟨⟨ni0 { demoNi with tags := [(0, some { waits with code := 7 })], ord := [{ ser := 5, id := 3, key := 1 }], bars := [{ ser := 5, id := 0, sc := 2, complete := false }] },
    1, by decide +kernel⟩,
    ⟨ni0 { demoNi with tags := [(0, some { waits with code := 7 })], ord := [{ ser := 5, id := 3, key := 1 }], qs := [(2, { cls := 2, pkts := [{ ser := 1, ptype := 0, op := 0, vn := 0, sc := 2, e := 1, dest := 1, len := 8, isReq := true }] })], bars := [{ ser := 5, id := 0, sc := 2, complete := false }] },
      1, by decide +kernel⟩,
    ⟨ni0 { demoNi with tags := [(0, some { waits with code := 7 })], ord := [{ ser := 5, id := 3, key := 1 }], qs := [(2, { cls := 2, pkts := [{ ser := 1, ptype := 0, op := 0, vn := 0, sc := 2, e := 1, dest := 1, len := 8, isReq := true }] })], bars := [{ ser := 5, id := 0, sc := 2, complete := false }] },
      0, { ser := 5, id := 0, sc := 2, complete := false }, [], by decide +kernel⟩,
    ⟨ni0 { demoNi with tags := [(0, some { waits with code := 7 })], ord := [{ ser := 5, id := 3, key := 1 }], bars := [{ ser := 5, id := 0, sc := 2, complete := false }] },
      0, { ser := 5, id := 0, sc := 2, complete := false }, [], by decide +kernel⟩,
    ⟨ni0 { demoNi with tags := [(0, some { waits with code := 8 })], ord := [{ ser := 5, id := 3, key := 1 }], bfPend := true, bars := [{ ser := 5, id := 0, sc := 2, complete := true }] },
      0, { ser := 5, id := 0, sc := 2, complete := true }, [], by decide +kernel⟩,
    ⟨((ni0 { demoNi with tags := [(0, some { waits with code := 8 })], ord := [{ ser := 5, id := 3, key := 1 }], bars := [{ ser := 5, id := 0, sc := 2, complete := true }] }).wr (niB 0) F.NI_ORD_STAT_SB_ERR 1),
      0, { ser := 5, id := 0, sc := 2, complete := true }, [], by decide +kernel⟩,
    ⟨ni0 { demoNi with tags := [(0, some { waits with code := 8 })], ord := [{ ser := 5, id := 3, key := 1 }], bars := [{ ser := 5, id := 0, sc := 2, complete := true }] },
      0, { ser := 5, id := 0, sc := 2, complete := true }, [], by decide +kernel⟩,
    ⟨ni0 { demoNi with tags := [(0, some { waits with code := 7, preRst := true })], ord := [{ ser := 5, id := 3, key := 1 }], bars := [{ ser := 5, id := 0, sc := 2, complete := false }] },
      0, { ser := 5, id := 0, sc := 2, complete := false }, [], by decide +kernel⟩⟩

/-- The premises of ResponseEndsItsRequest are met. -/
theorem met_ResponseEndsItsRequest :
    (∃ (s : State), ∃ (n : Nat), s.hasNi n = true ∧ (s.ni n).nextRsp = none) ∧
    (∃ (s : State), ∃ (n : Nat), s.hasNi n = true ∧ (s.ni n).nextReply = none) ∧
    (∃ (s : State), ∃ (n : Nat), ∃ (k : Nat), ∃ (p : Pk), ∃ (x y : NiSt), ∃ (t : Nat), ∃ (g g' : Tag), ∃ (u v : State),
      x = { s.ni n with rin := (s.ni n).rin.filter (fun j => j != k) } ∧
      y = { s.ni n with inbox := (s.ni n).inbox.filter (fun j => j != k) } ∧
      g' = { g with rsc := p.vc % 4, parts := g.parts.map (fun r => { r with pieces := [] }) } ∧
      u = (s.setNi n x).updNi n (fun x => x.setTag t (some g')) ∧ v = (s.setNi n y).updNi n (fun x => x.setTag t (some g')) ∧
      (p.hdr.ptype = 7 ∧ (p.hdr.op = 4 ∨ p.hdr.op = 5)) = False ∧ s.hasNi n = true ∧ (s.ni n).pk k = some p ∧
      (s.ni n).rspUse p = .whole t ∧ (s.ni n).tag t = some g ∧ (s.ni n).nextRsp = some k ∧ g.preRst = false ∧ g.sb = false) ∧
    (∃ (s : State), ∃ (n : Nat), ∃ (k : Nat), ∃ (p : Pk), ∃ (x y : NiSt), ∃ (t : Nat), ∃ (g g' : Tag), ∃ (u v : State),
      x = { s.ni n with rin := (s.ni n).rin.filter (fun j => j != k) } ∧
      y = { s.ni n with inbox := (s.ni n).inbox.filter (fun j => j != k) } ∧
      g' = { g with rsc := p.vc % 4, parts := g.parts.map (fun r => { r with pieces := [] }) } ∧
      u = (s.setNi n x).updNi n (fun x => x.setTag t (some g')) ∧ v = (s.setNi n y).updNi n (fun x => x.setTag t (some g')) ∧
      s.hasNi n = true ∧ (s.ni n).pk k = some p ∧ (s.ni n).rspUse p = .whole t ∧ (s.ni n).tag t = some g ∧
      (s.ni n).nextRsp = some k ∧ g.preRst = true ∧ g.sb = false) ∧
    (∃ (s : State), ∃ (n : Nat), ∃ (k : Nat), ∃ (p : Pk), ∃ (x y : NiSt), ∃ (t : Nat), ∃ (g g' : Tag), ∃ (u v : State),
      x = { s.ni n with rin := (s.ni n).rin.filter (fun j => j != k) } ∧
      y = { s.ni n with inbox := (s.ni n).inbox.filter (fun j => j != k) } ∧
      g' = { g with rsc := p.vc % 4, parts := g.parts.map (fun r => { r with pieces := [] }) } ∧
      u = (s.setNi n x).updNi n (fun x => x.setTag t (some g')) ∧ v = (s.setNi n y).updNi n (fun x => x.setTag t (some g')) ∧
      s.hasNi n = true ∧ (s.ni n).pk k = some p ∧ (s.ni n).rspUse p = .whole t ∧ (s.ni n).tag t = some g ∧
      (s.ni n).nextRsp = some k ∧ g.preRst = false ∧ g.sb = false ∧ p.hdr.ptype = 7 ∧ (p.hdr.op = 4 ∨ p.hdr.op = 5)) ∧
    (∃ (s : State), ∃ (n : Nat), ∃ (k : Nat), ∃ (p : Pk), ∃ (x y : NiSt), ∃ (t : Nat), ∃ (g g' : Tag), ∃ (u v : State),
      x = { s.ni n with rin := (s.ni n).rin.filter (fun j => j != k) } ∧
      y = { s.ni n with inbox := (s.ni n).inbox.filter (fun j => j != k) } ∧
      g' = { g with rsc := p.vc % 4, parts := g.parts.map (fun r => { r with pieces := [] }) } ∧
      u = (s.setNi n x).updNi n (fun x => x.setTag t (some g')) ∧ v = (s.setNi n y).updNi n (fun x => x.setTag t (some g')) ∧
      s.hasNi n = true ∧ (s.ni n).pk k = some p ∧ (s.ni n).rspUse p = .whole t ∧ (s.ni n).tag t = some g ∧
      (s.ni n).nextRsp = some k ∧ g.sb = true ∧ errStatus p.hdr.op = false) ∧
    (∃ (s : State), ∃ (n : Nat), ∃ (k : Nat), ∃ (p : Pk), ∃ (x y : NiSt), ∃ (t : Nat), ∃ (g g' : Tag), ∃ (u v : State),
      x = { s.ni n with rin := (s.ni n).rin.filter (fun j => j != k) } ∧
      y = { s.ni n with inbox := (s.ni n).inbox.filter (fun j => j != k) } ∧
      g' = { g with rsc := p.vc % 4, parts := g.parts.map (fun r => { r with pieces := [] }) } ∧
      u = (s.setNi n x).updNi n (fun x => x.setTag t (some g')) ∧ v = (s.setNi n y).updNi n (fun x => x.setTag t (some g')) ∧
      s.hasNi n = true ∧ (s.ni n).pk k = some p ∧ (s.ni n).rspUse p = .whole t ∧ (s.ni n).tag t = some g ∧
      (s.ni n).nextRsp = some k ∧ g.sb = true ∧ errStatus p.hdr.op = true) ∧
    (∃ (s : State), ∃ (n : Nat), ∃ (k : Nat), ∃ (p : Pk), ∃ (x y : NiSt), ∃ (t : Nat), ∃ (g g' : Tag), ∃ (u v : State),
      x = { s.ni n with rin := (s.ni n).rin.filter (fun j => j != k) } ∧
      y = { s.ni n with inbox := (s.ni n).inbox.filter (fun j => j != k) } ∧
      g' = { g with rsc := p.vc % 4, parts := g.parts.map (fun r => { r with pieces := [] }) } ∧
      u = (s.setNi n x).updNi n (fun x => x.setTag t (some g')) ∧ v = (s.setNi n y).updNi n (fun x => x.setTag t (some g')) ∧
      s.hasNi n = true ∧ (s.ni n).pk k = some p ∧ (s.ni n).rspUse p = .whole t ∧ (s.ni n).tag t = some g ∧
      (s.ni n).nextReply = some k ∧ g.preRst = false) ∧
    (∃ (s : State), ∃ (n : Nat), ∃ (k : Nat), ∃ (p : Pk), ∃ (x y : NiSt), ∃ (t : Nat), ∃ (g g' : Tag), ∃ (u v : State),
      x = { s.ni n with rin := (s.ni n).rin.filter (fun j => j != k) } ∧
      y = { s.ni n with inbox := (s.ni n).inbox.filter (fun j => j != k) } ∧
      g' = { g with rsc := p.vc % 4, parts := g.parts.map (fun r => { r with pieces := [] }) } ∧
      u = (s.setNi n x).updNi n (fun x => x.setTag t (some g')) ∧ v = (s.setNi n y).updNi n (fun x => x.setTag t (some g')) ∧
      s.hasNi n = true ∧ (s.ni n).pk k = some p ∧ (s.ni n).rspUse p = .whole t ∧ (s.ni n).tag t = some g ∧
      (s.ni n).nextReply = some k ∧ g.preRst = true) ∧
    (∃ (s : State), ∃ (n : Nat), ∃ (k : Nat), ∃ (p : Pk), ∃ (x y : NiSt), ∃ (t j : Nat), ∃ (g : Tag),
      x = { s.ni n with rin := (s.ni n).rin.filter (fun j => j != k) } ∧
      y = { s.ni n with inbox := (s.ni n).inbox.filter (fun j => j != k) } ∧ s.hasNi n = true ∧ (s.ni n).pk k = some p ∧
      (s.ni n).rspUse p = .piece t j ∧ (s.ni n).tag t = some g ∧ (s.ni n).nextRsp = some k) ∧
    (∃ (s : State), ∃ (n : Nat), ∃ (k : Nat), ∃ (p : Pk), ∃ (x y : NiSt),
      x = { s.ni n with rin := (s.ni n).rin.filter (fun j => j != k) } ∧
      y = { s.ni n with inbox := (s.ni n).inbox.filter (fun j => j != k) } ∧ s.hasNi n = true ∧ (s.ni n).pk k = some p ∧
      (s.ni n).rspUse p = .discard ∧ (s.ni n).nextRsp = some k) ∧
    (∃ (s : State), ∃ (n : Nat), ∃ (k : Nat), ∃ (p : Pk), ∃ (x y : NiSt),
      x = { s.ni n with rin := (s.ni n).rin.filter (fun j => j != k) } ∧
      y = { s.ni n with inbox := (s.ni n).inbox.filter (fun j => j != k) } ∧ s.hasNi n = true ∧ (s.ni n).pk k = some p ∧
      (s.ni n).rspUse p = .discard ∧ (s.ni n).nextReply = some k) :=
  ⟨⟨ni0 { demoNi with tags := [(0, some waits)], ord := [{ ser := 5, id := 3, key := 1 }], pks := [(9, some { answer with hdr := { answer.hdr with gen := 3 } })], rin := [9] },
    1, by decide +kernel⟩,
    ⟨ni0 { demoNi with tags := [(0, some waits)], ord := [{ ser := 5, id := 3, key := 1 }], pks := [(9, some { answer with hdr := { answer.hdr with gen := 3 } })], rin := [9] },
      0, by decide +kernel⟩,
    ⟨ni0 { demoNi with tags := [(0, some waits)], ord := [{ ser := 5, id := 3, key := 1 }], pks := [(9, some answer)], rin := [9] },
      0, 9, answer, _, _, 0, waits, _, _, _, rfl, rfl, rfl, rfl, rfl, by simp [answer], by decide +kernel⟩,
    ⟨answered { waits with code := 11, preRst := true } (ended 3 1), 0, 9, (ended 3 1), _, _, 0,
      { waits with code := 11, preRst := true }, _, _, _, rfl, rfl, rfl, rfl, rfl, by decide +kernel⟩,
    ⟨answered { waits with code := 9 } (ended 7 4), 0, 9, (ended 7 4), _, _, 0, { waits with code := 9 }, _, _, _, rfl, rfl, rfl,
      rfl, rfl, by decide +kernel⟩,
    ⟨answered { waits with code := 1, sb := true } (ended 1 0), 0, 9, (ended 1 0), _, _, 0, { waits with code := 1, sb := true },
      _, _, _, rfl, rfl, rfl, rfl, rfl, by decide +kernel⟩,
    ⟨answered { waits with code := 1, sb := true } (ended 1 9), 0, 9, (ended 1 9), _, _, 0, { waits with code := 1, sb := true },
      _, _, _, rfl, rfl, rfl, rfl, rfl, by decide +kernel⟩,
    ⟨ni0 { demoNi with tags := [(0, some { waits with code := 11 })], ord := [{ ser := 5, id := 3, key := 1 }], pks := [(9, some { answer with hdr := { answer.hdr with ptype := 3, op := 1 } })], inbox := [9] },
      0, 9, { answer with hdr := { answer.hdr with ptype := 3, op := 1 } }, _, _, 0, { waits with code := 11 }, _, _, _, rfl,
      rfl, rfl, rfl, rfl, by decide +kernel⟩,
    ⟨answered { waits with code := 11, preRst := true } (ended 3 1), 0, 9, (ended 3 1), _, _, 0,
      { waits with code := 11, preRst := true }, _, _, _, rfl, rfl, rfl, rfl, rfl, by decide +kernel⟩,
    ⟨answered { waits with split := true, parts := [{ ni := 1, node := 1, pieces := [(0, 8)] }] } answer, 0, 9, answer, _, _, 0,
      0, { waits with split := true, parts := [{ ni := 1, node := 1, pieces := [(0, 8)] }] }, rfl, rfl, by decide +kernel⟩,
    ⟨ni0 { demoNi with tags := [(0, some waits)], ord := [{ ser := 5, id := 3, key := 1 }], pks := [(9, some { answer with hdr := { answer.hdr with gen := 3 } })], rin := [9] },
      0, 9, { answer with hdr := { answer.hdr with gen := 3 } }, _, _, rfl, rfl, by decide +kernel⟩,
    ⟨answered waits { ended 3 1 with hdr := { ptype := 3, op := 1, gen := 3 } }, 0, 9,
      { ended 3 1 with hdr := { ptype := 3, op := 1, gen := 3 } }, _, _, rfl, rfl, by decide +kernel⟩⟩

/-- The premises of FinishedRequestFreesItsTag are met. -/
theorem met_FinishedRequestFreesItsTag :
    (∃ (x : NiSt), ∃ (t : Nat), ∃ (g : Tag), ∃ (a r : List Owed), ∃ (o : Owed), x.tag t = some g ∧ g.evd = false ∧ g.sb = false ∧
      g.preRst = false ∧ x.ord = a ++ o :: r ∧ o.ser = g.ser ∧ o.id = g.id ∧ o.key = g.dkey ∧ (∀ b ∈ a ++ r, b.rsp = none ∧
      b.ser ≠ g.ser)) ∧
    (∃ (x : NiSt), ∃ (t : Nat), ∃ (g : Tag), ∃ (a r : List Owed), ∃ (o : Owed), x.tag t = some g ∧ g.evd = false ∧ g.sb = false ∧
      g.preRst = false ∧ x.ord = a ++ o :: r ∧ o.ser = g.ser ∧ o.id = g.id ∧ o.key = g.dkey ∧ (∀ b ∈ a ++ r, b.rsp = none ∧
      b.ser ≠ g.ser) ∧ (∀ b ∈ a, b.id = g.id → b.key ≠ g.dkey)) ∧
    (∃ (x : NiSt), ∃ (t : Nat), ∃ (g : Tag), ∃ (a r : List Owed), ∃ (o : Owed), x.tag t = some g ∧ g.evd = false ∧ g.sb = false ∧
      g.preRst = false ∧ x.ord = a ++ o :: r ∧ o.ser = g.ser ∧ o.id = g.id ∧ o.key = g.dkey ∧ (∀ b ∈ a ++ r, b.rsp = none ∧
      b.ser ≠ g.ser) ∧ (∃ b ∈ a, b.id = g.id ∧ b.key = g.dkey)) :=
  ⟨⟨{ demoNi with tags := [(0, some waits)], ord := [{ ser := 5, id := 3, key := 1 }] }, 0, waits, [], [],
    { ser := 5, id := 3, key := 1 }, by decide +kernel⟩,
    ⟨{ demoNi with tags := [(0, some waits)], ord := [{ ser := 5, id := 3, key := 1 }] }, 0, waits, [], [],
      { ser := 5, id := 3, key := 1 }, by decide +kernel⟩,
    ⟨{ demoNi with tags := [(0, some waits)], ord := [{ ser := 4, id := 3, key := 1 }, { ser := 5, id := 3, key := 1 }] }, 0,
      waits, [{ ser := 4, id := 3, key := 1 }], [], { ser := 5, id := 3, key := 1 }, by decide +kernel⟩⟩

/-! ### Chapter 3 of the statements -/

/-- A packet of type `ty` from NI 1 to NI 0. -/
def toNi0 (ty op : Nat) : Hdr := { ptype := ty, op := op, src := 1, dest := 0, addr := 64, len := 8 }

/-- Its one flit, of class 2. -/
def toNi0Flit (ty op : Nat) : Flit :=
  { vc := 4 * vnOf ty + 2, ft := 3, segb := true, hdr := some (toNi0 ty op), data := List.replicate 8 1 }

/-- NI 0's plane A input with that flit on its wire. -/
def arriving (ty op : Nat) : State := demo.setPort (.ni 0 0) { wire := [toNi0Flit ty op] }

/-- NI 0 with a received request of operation `op`, waiting for AQE. -/
def held (op : Nat) : NiSt := { demoNi with aqq := [4], pks := [(4, some { hdr := toNi0 0 op, plane := 0, vc := 2, got := List.replicate 8 1 })] }

/-- The monitor of NI 0 on or off. -/
def mon (b : Nat) (s : State) : State := s.wr (niB 0) F.NI_RSV_CFG_MON b

/-- A reservation of NI 1 on the granule of address 64. -/
def rsv1 : Rsv := { ser := 1, node := 1, slice := 0, gran := 1 }

/-- A delivery of an operation outstanding under tag 0. -/
def dlv0 (op : Nat) (r : Bool) : Dlv := { hdr := toNi0 0 op, sc := 2, rsvd := r }

/-- NI 0 with that delivery. -/
def atEp (op : Nat) (r : Bool) : State := ni0 { demoNi with dlv := [(0, some (dlv0 op r))] }

/-- A read that waits at the head of queue 2 of NI 0, bound for NI 1. -/
def qp2 : Qp := { ser := 1, ptype := 0, op := 0, vn := 0, sc := 2, e := 1, dest := 1, len := 8, isReq := true }

/-- An SC0 packet to NI 1. -/
def qp0 : Qp := { ser := 1, ptype := 2, op := 0, vn := 2, sc := 0, e := 1, dest := 1, len := 8, payload := List.replicate 8 0 }

/-- NI 0's plane ports, each ready to send. -/
def ready (a b : Bool) (s : State) : State :=
  let p (l : Bool) : PortSt := { loaded := l, cred := List.replicate 16 4 }
  (s.setPort (.ni 0 0) (p a)).setPort (.ni 1 0) (p b)

/-- A state with the fabric clock of region 0 stopped in IDLE. -/
def gated (s : State) : State :=
  { s with rgs := [(0, { held := false, gated := true }), (1, { held := false })] }.wr pcrB (F.PCR_RG_STAT_STATE.ix 0) 1

/-- The premises of HeadFlitMakesReceivedPacket are met. -/
theorem met_HeadFlitMakesReceivedPacket : ∃ (s : State), ∃ (plane n : Nat), ∃ (e : FlitErr), ∃ (fl : Flit), ∃ (h : Hdr),
    ∃ (r : List Flit), s.hasPort (.ni plane n) = true ∧ (s.port (.ni plane n)).dead = false ∧
    (s.port (.ni plane n)).fault = false ∧ (s.port (.ni plane n)).wire = fl :: r ∧ fl.hdr = some h ∧ (fl.ft = 1 ∨ fl.ft = 3) ∧
    (fl.found e).bads = 0 ∧ fl.poison = false ∧ (s.ni n).vcHeld plane fl.vc < s.rom.vcDepth ∧
    (mget (fun _ => none) (s.ni n).rx (plane * 16 + fl.vc) : Option NiRx) = none ∧ vnOf h.ptype = fl.vc / 4 ∧
    opDefined h.ptype h.op = true ∧ h.dest = s.nodeId n ∧ fl.vc % 4 ≠ 0 ∧ s.flag (niB n) F.NI_RSQ_CTL_REORDER = false ∧
    s.sliceDrops n h.slice = false :=
  ⟨arriving 1 0, 0, 0, {}, toNi0Flit 1 0, toNi0 1 0, [], by decide +kernel⟩

/-- The premises of RequestIsPresentedOnAqe are met. -/
theorem met_RequestIsPresentedOnAqe :
    (∃ (s : State), ∃ (n : Nat), s.hasNi n = true ∧ s.niClocked n = false) ∧
    (∃ (s : State), ∃ (n : Nat), s.hasNi n = true ∧ s.niClocked n = true ∧ s.nextReq n = none) ∧
    (∃ (s : State), ∃ (n : Nat), s.hasNi n = true ∧ s.niClocked n = true ∧ s.nextReq n = none) ∧
    (∃ (s : State), ∃ (n : Nat), ∃ (k : Nat), ∃ (p : Pk), s.hasNi n = true ∧ s.niClocked n = true ∧ s.nextReq n = some k ∧
      (s.ni n).pk k = some p ∧ s.flag (niB n) F.NI_EP_CFG_TGT_EN = false ∧ (s.ni n).stood 3 ≠ some k) ∧
    (∃ (s : State), ∃ (n : Nat), ∃ (k : Nat), ∃ (p : Pk), s.hasNi n = true ∧ s.niClocked n = true ∧ s.nextReq n = some k ∧
      (s.ni n).pk k = some p ∧ (s.flag (niB n) F.NI_EP_CFG_TGT_EN = true ∨ (s.ni n).stood 3 = some k) ∧
      ((s.ni n).freeDtag = none ∨ (s.ni n).up = false)) ∧
    (∃ (s : State), ∃ (n : Nat), ∃ (k : Nat), ∃ (p : Pk), ∃ (d : Nat), ∃ (mon : Bool),
      mon = (s.flag (niB n) F.NI_RSV_CFG_MON && p.hdr.ptype == 0) ∧ s.hasNi n = true ∧ s.niClocked n = true ∧
      s.nextReq n = some k ∧ (s.ni n).pk k = some p ∧ (s.flag (niB n) F.NI_EP_CFG_TGT_EN = true ∨ (s.ni n).stood 3 = some k) ∧
      (s.ni n).freeDtag = some d ∧ (s.ni n).up = true ∧
      (mon = true → p.hdr.op = 3 → (s.ni n).stood 3 = some k ∨ s.rsvMatch n p.hdr.src p.hdr.slice p.hdr.addr = true ∧
      s.flag (niB n) F.NI_ORD_STAT_DEGRADED = false)) :=
  ⟨⟨gated demo, 0, by decide +kernel⟩,
    ⟨(ni0 (held 1)).wr (niB 0) F.NI_EP_CFG_TGT_EN 0, 1, by decide +kernel⟩,
    ⟨ni0 { held 1 with up := false }, 1, by decide +kernel⟩,
    ⟨(ni0 (held 1)).wr (niB 0) F.NI_EP_CFG_TGT_EN 0, 0, 4, { hdr := toNi0 0 1, plane := 0, vc := 2, got := List.replicate 8 1 },
      by decide +kernel⟩,
    ⟨ni0 { held 1 with up := false }, 0, 4, { hdr := toNi0 0 1, plane := 0, vc := 2, got := List.replicate 8 1 },
      by decide +kernel⟩,
    ⟨ni0 (held 1), 0, 4, { hdr := toNi0 0 1, plane := 0, vc := 2, got := List.replicate 8 1 }, 0, _, rfl, by decide +kernel⟩⟩

/-- The premises of UnreservedConditionalStoreFails are met. -/
theorem met_UnreservedConditionalStoreFails : ∃ (s : State), ∃ (n k d : Nat), ∃ (p : Pk), s.hasNi n = true ∧
    s.niClocked n = true ∧ s.nextReq n = some k ∧ (s.ni n).pk k = some p ∧ (s.ni n).stood 3 ≠ some k ∧
    s.flag (niB n) F.NI_EP_CFG_TGT_EN = true ∧ (s.ni n).freeDtag = some d ∧ (s.ni n).up = true ∧ p.ep = none ∧
    s.flag (niB n) F.NI_RSV_CFG_MON = true ∧ p.hdr.ptype = 0 ∧ p.hdr.op = 3 ∧
    s.rsvMatch n p.hdr.src p.hdr.slice p.hdr.addr = false ∧ (s.ni n).sysPend = [] ∧ 1 ≤ (s.ni n).freeHigh :=
  ⟨mon 1 (ni0 (held 3)), 0, 4, 0, { hdr := toNi0 0 3, plane := 0, vc := 2, got := List.replicate 8 1 }, by decide +kernel⟩

/-- The premises of EgressSegmentLeaves are met. -/
theorem met_EgressSegmentLeaves :
    (∃ (s : State), ∃ (n : Nat), ∃ (half : Nat), s.hasNi n = true ∧ half < 3 ∧ ((s.ni n).up = false ∨ s.niClocked n = false)) ∧
    (∃ (s : State), ∃ (n : Nat), ∃ (t : Stamp), s.hasNi n = true ∧ (s.ni n).up = true ∧ s.niClocked n = true ∧
      s.halfPick n 0 (s.ni n).wqeList (fun _ => true) t = none) ∧
    (∃ (s : State), ∃ (n : Nat), ∃ (t : Stamp), s.hasNi n = true ∧ (s.ni n).up = true ∧ s.niClocked n = true ∧
      s.halfPick n 1 (s.ni n).rpeList (s.ni n).rpReady t = none) ∧
    (∃ (s : State), ∃ (n : Nat), ∃ (rdy : BitVec 4), ∃ (t : Stamp), s.hasNi n = true ∧ (s.ni n).up = true ∧
      s.niClocked n = true ∧ s.halfPick n 2 (s.ni n).steList (fun c => rdy.getLsbD c) t = none) ∧
    (∃ (s : State), ∃ (n : Nat), ∃ (t : Stamp), ∃ (k c : Nat), ∃ (p : Pk), ∃ (w : Nat × Nat), s.hasNi n = true ∧
      (s.ni n).up = true ∧ s.niClocked n = true ∧ (s.ni n).pk k = some p ∧
      s.halfPick n 0 (s.ni n).wqeList (fun _ => true) t = some (k, c) ∧ (s.ni n).wqq.find? (fun w => w.2 == k) = some w ∧
      (s.flag (niB n) F.NI_EP_CFG_TGT_EN = true ∨ (s.ni n).stood 0 = some k)) ∧
    (∃ (s : State), ∃ (n : Nat), ∃ (t : Stamp), ∃ (k c : Nat), ∃ (p : Pk), ∃ (w : Nat × Nat), s.hasNi n = true ∧
      (s.ni n).up = true ∧ s.niClocked n = true ∧ (s.ni n).pk k = some p ∧
      s.halfPick n 0 (s.ni n).wqeList (fun _ => true) t = some (k, c) ∧ (s.ni n).wqq.find? (fun w => w.2 == k) = some w ∧
      s.flag (niB n) F.NI_EP_CFG_TGT_EN = false ∧ (s.ni n).stood 0 ≠ some k) ∧
    (∃ (s : State), ∃ (n : Nat), ∃ (t : Stamp), ∃ (k c : Nat), ∃ (p : Pk), ∃ (r : RpEnt), s.hasNi n = true ∧ (s.ni n).up = true ∧
      s.niClocked n = true ∧ (s.ni n).pk k = some p ∧ s.halfPick n 1 (s.ni n).rpeList (s.ni n).rpReady t = some (k, c) ∧
      (s.ni n).rpq.find? (fun r => r.sc == c) = some r) ∧
    (∃ (s : State), ∃ (n : Nat), ∃ (rdy : BitVec 4), ∃ (t : Stamp), ∃ (k c : Nat), ∃ (p : Pk), s.hasNi n = true ∧
      (s.ni n).up = true ∧ s.niClocked n = true ∧ (s.ni n).pk k = some p ∧
      s.halfPick n 2 (s.ni n).steList (fun c => rdy.getLsbD c) t = some (k, c)) ∧
    (∃ (s : State), ∃ (n : Nat), ∃ (t : Stamp), ∃ (k : Nat) (c : Nat) (r : RpEnt), s.hasNi n = true ∧ (s.ni n).up = true ∧
      s.niClocked n = true ∧ (s.ni n).pk k = none ∧ s.halfPick n 1 (s.ni n).rpeList (s.ni n).rpReady t = some (k, c) ∧
      (s.ni n).rpq.find? (fun r => r.sc == c) = some r ∧ r.sc = c) :=
  ⟨⟨gated demo, 0, 0, by decide +kernel⟩,
    ⟨ni0 { held 1 with wqq := [(7, 4)] }, 1, 0, by decide +kernel⟩,
    ⟨ni0 { held 1 with wqq := [(7, 4)] }, 0, 0, by decide +kernel⟩,
    ⟨ni0 { held 1 with wqq := [(7, 4)] }, 0, 0, 0, by decide +kernel⟩,
    ⟨ni0 { held 1 with wqq := [(7, 4)] }, 0, 0,
      (((ni0 { held 1 with wqq := [(7, 4)] }).halfPick 0 0 ((ni0 { held 1 with wqq := [(7, 4)] }).ni 0).wqeList (fun _ => true) 0).getD (0,
      0)).1,
      (((ni0 { held 1 with wqq := [(7, 4)] }).halfPick 0 0 ((ni0 { held 1 with wqq := [(7, 4)] }).ni 0).wqeList (fun _ => true) 0).getD (0,
      0)).2, { hdr := toNi0 0 1, plane := 0, vc := 2, got := List.replicate 8 1 }, (7, 4), by decide +kernel⟩,
    ⟨(ni0 { demoNi with wqq := [(7, 4)], pks := [(4, some { hdr := toNi0 0 1, plane := 0, vc := 2, got := List.replicate 8 1 })] }).wr (niB 0) F.NI_EP_CFG_TGT_EN 0,
      0, 0,
      ((((ni0 { demoNi with wqq := [(7, 4)], pks := [(4, some { hdr := toNi0 0 1, plane := 0, vc := 2, got := List.replicate 8 1 })] }).wr (niB 0) F.NI_EP_CFG_TGT_EN 0).halfPick 0 0 (((ni0 { demoNi with wqq := [(7, 4)], pks := [(4, some { hdr := toNi0 0 1, plane := 0, vc := 2, got := List.replicate 8 1 })] }).wr (niB 0) F.NI_EP_CFG_TGT_EN 0).ni 0).wqeList (fun _ => true) 0).getD (0,
      0)).1,
      ((((ni0 { demoNi with wqq := [(7, 4)], pks := [(4, some { hdr := toNi0 0 1, plane := 0, vc := 2, got := List.replicate 8 1 })] }).wr (niB 0) F.NI_EP_CFG_TGT_EN 0).halfPick 0 0 (((ni0 { demoNi with wqq := [(7, 4)], pks := [(4, some { hdr := toNi0 0 1, plane := 0, vc := 2, got := List.replicate 8 1 })] }).wr (niB 0) F.NI_EP_CFG_TGT_EN 0).ni 0).wqeList (fun _ => true) 0).getD (0,
      0)).2, { hdr := toNi0 0 1, plane := 0, vc := 2, got := List.replicate 8 1 }, (7, 4), by decide +kernel⟩,
    ⟨ni0 { held 1 with rpq := [{ pk := 4, id := 3, key := 1, sc := 2, status := 0 }] }, 0, 0,
      (((ni0 { held 1 with rpq := [{ pk := 4, id := 3, key := 1, sc := 2, status := 0 }] }).halfPick 0 1 ((ni0 { held 1 with rpq := [{ pk := 4, id := 3, key := 1, sc := 2, status := 0 }] }).ni 0).rpeList ((ni0 { held 1 with rpq := [{ pk := 4, id := 3, key := 1, sc := 2, status := 0 }] }).ni 0).rpReady 0).getD (0,
      0)).1,
      (((ni0 { held 1 with rpq := [{ pk := 4, id := 3, key := 1, sc := 2, status := 0 }] }).halfPick 0 1 ((ni0 { held 1 with rpq := [{ pk := 4, id := 3, key := 1, sc := 2, status := 0 }] }).ni 0).rpeList ((ni0 { held 1 with rpq := [{ pk := 4, id := 3, key := 1, sc := 2, status := 0 }] }).ni 0).rpReady 0).getD (0,
      0)).2, { hdr := toNi0 0 1, plane := 0, vc := 2, got := List.replicate 8 1 },
      ({ pk := 4, id := 3, key := 1, sc := 2, status := 0 } : RpEnt), by decide +kernel⟩,
    ⟨ni0 { held 1 with stq := [4] }, 0, 0xF, 0, 4, 2, { hdr := toNi0 0 1, plane := 0, vc := 2, got := List.replicate 8 1 },
      by decide +kernel⟩,
    ⟨ni0 { demoNi with rpq := [{ pk := 999, id := 3, key := 1, sc := 2, status := 0 }] }, 0, 0,
      (((ni0 { demoNi with rpq := [{ pk := 999, id := 3, key := 1, sc := 2, status := 0 }] }).halfPick 0 1 ((ni0 { demoNi with rpq := [{ pk := 999, id := 3, key := 1, sc := 2, status := 0 }] }).ni 0).rpeList ((ni0 { demoNi with rpq := [{ pk := 999, id := 3, key := 1, sc := 2, status := 0 }] }).ni 0).rpReady 0).getD (0,
      0)).1,
      (((ni0 { demoNi with rpq := [{ pk := 999, id := 3, key := 1, sc := 2, status := 0 }] }).halfPick 0 1 ((ni0 { demoNi with rpq := [{ pk := 999, id := 3, key := 1, sc := 2, status := 0 }] }).ni 0).rpeList ((ni0 { demoNi with rpq := [{ pk := 999, id := 3, key := 1, sc := 2, status := 0 }] }).ni 0).rpReady 0).getD (0,
      0)).2, { pk := 999, id := 3, key := 1, sc := 2, status := 0 }, by decide +kernel⟩⟩

/-- The premises of EndpointResponseIsReturned are met. -/
theorem met_EndpointResponseIsReturned :
    (∃ (s : State), ∃ (n : Nat), s.hasNi n = true ∧ ((s.ni n).up = false ∨ s.rpiReady n = false)) ∧
    (∃ (s : State), ∃ (n dtag : Nat), s.hasNi n = true ∧ (s.ni n).up = true ∧ s.rpiReady n = true ∧ (∀ d,
      (s.ni n).del dtag = some d → d.ans ≠ none)) ∧
    (∃ (s : State), ∃ (n dtag : Nat), ∃ (d : Dlv), ∃ (v : State), v = s.setNi n ((s.ni n).setDel dtag none) ∧ s.hasNi n = true ∧
      (s.ni n).up = true ∧ s.rpiReady n = true ∧ (s.ni n).del dtag = some d ∧ d.ans = none ∧ d.drop = true ∧ d.cut = false ∧
      d.rsvd = false ∧ ¬ (d.hdr.ptype = 0 ∧ d.hdr.op = 3)) ∧
    (∃ (s : State), ∃ (n dtag status : Nat), ∃ (data : List Byte), ∃ (d : Dlv), ∃ (v : State), ∃ (a : State × List Byte),
      v = s.setNi n ((s.ni n).setDel dtag none) ∧ a = fillData v data (rspLen d.hdr) ∧ s.hasNi n = true ∧ (s.ni n).up = true ∧
      s.rpiReady n = true ∧ (s.ni n).del dtag = some d ∧ d.ans = none ∧ d.drop = false ∧ d.cut = false ∧ (v.ni n).owes d = true ∧
      status ≤ 1 ∧ d.rsvd = false ∧ ¬ (d.hdr.ptype = 0 ∧ d.hdr.op = 3 ∧ status = 1)) ∧
    (∃ (s : State), ∃ (n dtag : Nat), ∃ (d : Dlv), ∃ (v : State), v = s.setNi n ((s.ni n).setDel dtag none) ∧ s.hasNi n = true ∧
      (s.ni n).up = true ∧ s.rpiReady n = true ∧ (s.ni n).del dtag = some d ∧ d.ans = none ∧ d.drop = false ∧
      (v.ni n).owes d = false ∧ d.cut = true) ∧
    (∃ (s : State), ∃ (n dtag status : Nat), ∃ (data : List Byte), ∃ (d : Dlv), ∃ (v : State), ∃ (a : State × List Byte),
      v = s.setNi n ((s.ni n).setDel dtag none) ∧ a = fillData v data (rspLen d.hdr) ∧ s.hasNi n = true ∧ (s.ni n).up = true ∧
      s.rpiReady n = true ∧ (s.ni n).del dtag = some d ∧ d.ans = none ∧ d.drop = false ∧ (v.ni n).owes d = false ∧
      d.cut = false ∧ status ≤ 1 ∧ d.rsvd = false ∧ ¬ (d.hdr.ptype = 0 ∧ d.hdr.op = 3 ∧ status = 1)) ∧
    (∃ (s : State), ∃ (n dtag status : Nat), ∃ (data : List Byte), ∃ (d : Dlv), ∃ (v : State), ∃ (a : State × List Byte),
      v = s.setNi n ((s.ni n).setDel dtag none) ∧ a = fillData v data (rspLen d.hdr) ∧ s.hasNi n = true ∧ (s.ni n).up = true ∧
      s.rpiReady n = true ∧ (s.ni n).del dtag = some d ∧ d.ans = none ∧ d.drop = false ∧ (v.ni n).owes d = false ∧
      d.cut = false ∧ status ≤ 1 ∧ d.rsvd = true ∧ d.hdr.op = 2) ∧
    (∃ (s : State), ∃ (n dtag status : Nat), ∃ (d : Dlv), ∃ (v : State), v = s.setNi n ((s.ni n).setDel dtag none) ∧
      s.hasNi n = true ∧ (s.ni n).up = true ∧ s.rpiReady n = true ∧ (s.ni n).del dtag = some d ∧ d.ans = none ∧ d.drop = false ∧
      (v.ni n).owes d = false ∧ d.cut = false ∧ status ≤ 1 ∧ d.rsvd = true ∧ d.hdr.ptype = 0 ∧ d.hdr.op = 3) ∧
    (∃ (s : State), ∃ (n dtag status : Nat), ∃ (d : Dlv), ∃ (v : State), v = s.setNi n ((s.ni n).setDel dtag none) ∧
      s.hasNi n = true ∧ (s.ni n).up = true ∧ s.rpiReady n = true ∧ (s.ni n).del dtag = some d ∧ d.ans = none ∧ d.drop = false ∧
      (v.ni n).owes d = false ∧ d.cut = false ∧ 2 ≤ status ∧ d.rsvd = false) ∧
    (∃ (s : State), ∃ (n dtag status : Nat), ∃ (d : Dlv), ∃ (v : State), v = s.setNi n ((s.ni n).setDel dtag none) ∧
      s.hasNi n = true ∧ (s.ni n).up = true ∧ s.rpiReady n = true ∧ (s.ni n).del dtag = some d ∧ d.ans = none ∧ d.drop = false ∧
      (v.ni n).owes d = false ∧ d.cut = false ∧ 2 ≤ status ∧ d.rsvd = true ∧ d.hdr.op = 2) ∧
    (∃ (s : State), ∃ (n dtag status : Nat), ∃ (d : Dlv), ∃ (v : State), v = s.setNi n ((s.ni n).setDel dtag none) ∧
      s.hasNi n = true ∧ (s.ni n).up = true ∧ s.rpiReady n = true ∧ (s.ni n).del dtag = some d ∧ d.ans = none ∧ d.drop = false ∧
      (v.ni n).owes d = false ∧ d.cut = false ∧ 2 ≤ status ∧ d.rsvd = true ∧ d.hdr.op = 3) :=
  ⟨⟨ni0 { demoNi with up := false }, 0, by decide +kernel⟩,
    ⟨atEp 0 false, 0, 1, by decide +kernel⟩,
    ⟨ni0 { demoNi with dlv := [(0, some { dlv0 0 false with drop := true })] }, 0, 0, { dlv0 0 false with drop := true }, _, rfl,
      by decide +kernel⟩,
    ⟨ni0 { demoNi with dlv := [(0, some { dlv0 0 false with ser := 2 }), (1, some { dlv0 0 false with ser := 1 })] }, 0, 0, 0,
      List.replicate 8 5, { dlv0 0 false with ser := 2 }, _, _, rfl, rfl, by decide +kernel⟩,
    ⟨ni0 { demoNi with dlv := [(0, some { dlv0 0 false with cut := true })] }, 0, 0, { dlv0 0 false with cut := true }, _, rfl,
      by decide +kernel⟩,
    ⟨atEp 0 false, 0, 0, 0, List.replicate 8 5, dlv0 0 false, _, _, rfl, rfl, by decide +kernel⟩,
    ⟨atEp 2 true, 0, 0, 0, List.replicate 8 5, dlv0 2 true, _, _, rfl, rfl, by decide +kernel⟩,
    ⟨atEp 3 true, 0, 0, 0, dlv0 3 true, _, rfl, by decide +kernel⟩,
    ⟨atEp 0 false, 0, 0, 2, dlv0 0 false, _, rfl, by decide +kernel⟩,
    ⟨atEp 2 true, 0, 0, 2, dlv0 2 true, _, rfl, by decide +kernel⟩,
    ⟨atEp 3 true, 0, 0, 2, dlv0 3 true, _, rfl, by decide +kernel⟩⟩

/-- The premises of EndpointResetClearsPort are met. -/
theorem met_EndpointResetClearsPort :
    (∃ (s : State), ∃ (n : Nat), s.hasNi n = true ∧ (s.ni n).epLow = true) ∧
    (∃ (s : State), ∃ (n : Nat), s.hasNi n = true ∧ (s.ni n).epLow = false) :=
  ⟨⟨ni0 { demoNi with epLow := true }, 0, by decide +kernel⟩,
    ⟨(ni0 { held 1 with rsvs := [rsv1], wqq := [(7, 4)] }).setNi 1 { demoNi with rsvs := [{ rsv1 with node := 0 }] }, 0,
      by decide +kernel⟩⟩

/-- The premises of TwinAndGapTimeouts are met. -/
theorem met_TwinAndGapTimeouts :
    (∃ (s : State), ∃ (n ctx : Nat), ∃ (seq : Nat) (w : Twin), ∃ (v : State),
      v = ((s.setNi n { s.ni n with twins := (s.ni n).twins.erase w }).count (niB n) (if w.miss = 0 then F.NI_RSQ_TWIN_MISS_A_COUNT else F.NI_RSQ_TWIN_MISS_B_COUNT) 1).alert n 10 ∧
      s.hasNi n = true ∧ (s.ni n).twins.find? (fun t => t.key == ctx && t.seq == seq) = some w) ∧
    (∃ (s : State), ∃ (n ctx : Nat), ∃ (seq : Nat), s.hasNi n = true ∧
      (s.ni n).twins.find? (fun t => t.key == ctx && t.seq == seq) = none) ∧
    (∃ (s : State), ∃ (n ctx : Nat), s.hasNi n = true ∧ ((s.ni n).ctx ctx).held.isEmpty = true) ∧
    (∃ (s : State), ∃ (n ctx : Nat), s.hasNi n = true ∧ ((s.ni n).ctx ctx).held.isEmpty = false) :=
  ⟨⟨ni0 { demoNi with twins := [{ key := 18, seq := 5, miss := 1, slice := 0 }] }, 0, 18, 5,
    { key := 18, seq := 5, miss := 1, slice := 0 }, _, rfl, by decide +kernel⟩,
    ⟨ni0 { held 1 with ctxs := [(18, { base := false, ref := 3, held := [4] })] }, 0, 18, 0, by decide +kernel⟩,
    ⟨ni0 { held 1 with ctxs := [(18, { base := false, ref := 3, held := [4] })] }, 0, 0, by decide +kernel⟩,
    ⟨ni0 { held 1 with ctxs := [(18, { base := false, ref := 3, held := [4] })] }, 0, 18, by decide +kernel⟩⟩

/-- The premises of HeadPacketIsReleased are met. -/
theorem met_HeadPacketIsReleased :
    (∃ (s : State), ∃ (n : Nat), s.hasNi n = true ∧ (s.niClocked n = false ∨ (s.port (.ni 0 n)).dead = true ∧
      (s.port (.ni 1 n)).dead = true)) ∧
    (∃ (s v : State), ∃ (n q c pl : Nat), ∃ (t : Stamp), ∃ (p : Qp), ∃ (r : List Qp), ∃ (l : List Nat),
      v = (s.updNi n (fun x => x.admitSys x.sysPend)).noteHolds n t false ∧ s.hasNi n = true ∧ s.niClocked n = true ∧
      ((s.port (.ni 0 n)).dead && (s.port (.ni 1 n)).dead) = false ∧ v.rd dbgB F.DBG_STAT_TEST ≠ 1 ∧ bigSched v.rom n = false ∧
      (v.ni n).sysq = [] ∧ 1 ≤ c ∧ c < 4 ∧ (∀ k, k < c → (v.ni n).act.getD k [] = []) ∧ (v.ni n).act.getD c [] = q :: l ∧
      ((v.ni n).q q).pkts = p :: r ∧ p.grp = none ∧ p.sc = c ∧ ((v.ni n).q q).cls = c ∧
      (v.ni n).sc0Sel.any (fun w => w.q == some q) = false ∧ p.istamp = none ∧ p.mc = false ∧ p.probe = none ∧
      v.verdict n q p t false = .go ∧ v.counted n p ≤ ((v.ni n).q q).vt ∧ v.planeFor n p.e c (4 * p.vn + c) = some pl) :=
  ⟨⟨gated demo, 0, by decide +kernel⟩,
    ⟨ready true true (ni0 { demoNi with qs := [(2, { cls := 2, pkts := [qp2], vt := 1000 })], act := [[], [], [2], []], rem2 := 100 }),
      _, 0, 2, 2, 0, 256000, qp2, [], [], rfl, by decide +kernel⟩⟩

/-- The premises of Sc0PacketLeavesOnItsPlanes are met. -/
theorem met_Sc0PacketLeavesOnItsPlanes :
    (∃ (s : State), ∃ (n : Nat), s.hasNi n = true ∧ (s.niClocked n = false ∨ (s.ni n).selPk = none)) ∧
    (∃ (s : State), ∃ (n : Nat), ∃ (p : Qp), s.hasNi n = true ∧ s.niClocked n = true ∧ (s.ni n).selPk = some p ∧
      ((s.sc0Planes n p.e).isEmpty = true ∨ (s.sc0Planes n p.e).all (fun pl => s.sc0Ready n pl p) = false)) ∧
    (∃ (s : State), ∃ (n : Nat), ∃ (t : Stamp), ∃ (p : Qp), s.hasNi n = true ∧ s.niClocked n = true ∧ (s.ni n).selPk = some p ∧
      (s.sc0Planes n p.e).isEmpty = false ∧ (s.sc0Planes n p.e).all (fun pl => s.sc0Ready n pl p) = true ∧
      s.selVerdict n p t = .go) ∧
    (∃ (s : State), ∃ (n : Nat), ∃ (t : Stamp), ∃ (p : Qp), s.hasNi n = true ∧ s.niClocked n = true ∧ (s.ni n).selPk = some p ∧
      (s.sc0Planes n p.e).isEmpty = false ∧ (s.sc0Planes n p.e).all (fun pl => s.sc0Ready n pl p) = true ∧
      (s.selVerdict n p t = .wait ∨ s.selVerdict n p t = .hold)) ∧
    (∃ (s : State), ∃ (n : Nat), ∃ (t : Stamp), ∃ (p : Qp), ∃ (pl : Nat) (a : Nat) (b : Nat), s.hasNi n = true ∧
      s.niClocked n = true ∧ (s.ni n).selPk = some p ∧ s.sc0Planes n p.e = [a, b] ∧
      (s.sc0Planes n p.e).filter (fun pl => s.sc0Ready n pl p) = [pl] ∧ s.selVerdict n p t = .go) ∧
    (∃ (s : State), ∃ (n : Nat), ∃ (t : Stamp), ∃ (p : Qp), ∃ (pl : Nat) (a : Nat) (b : Nat), s.hasNi n = true ∧
      s.niClocked n = true ∧ (s.ni n).selPk = some p ∧ s.sc0Planes n p.e = [a, b] ∧
      (s.sc0Planes n p.e).filter (fun pl => s.sc0Ready n pl p) = [pl] ∧
      (s.selVerdict n p t = .wait ∨ s.selVerdict n p t = .hold)) ∧
    (∃ (s : State), ∃ (n : Nat), ∃ (t : Stamp), ∃ (p : Qp), ∃ (w : State) (v : Verdict) (q : Nat) (st : Nat),
      w = s.updNi n (fun x => { x with sc0Sel := none }) ∧ s.hasNi n = true ∧ s.niClocked n = true ∧ (s.ni n).selPk = some p ∧
      (s.sc0Planes n p.e).isEmpty = false ∧ (s.sc0Planes n p.e).all (fun pl => s.sc0Ready n pl p) = true ∧
      s.selVerdict n p t = v ∧ (v = .refuse st ∨ v = .drop) ∧ (s.ni n).sc0Sel.bind (fun v => v.q) = some q) :=
  ⟨⟨ready true true (ni0 { demoNi with sc0Last := [(1, some 256000)], qs := [(0, { cls := 0, pkts := [qp0], vt := 1000 })], sc0Sel := some { since := 0, q := some 0 } }),
    1, by decide +kernel⟩,
    ⟨ready false true (ni0 { demoNi with qs := [(0, { cls := 0, pkts := [qp0], vt := 1000 })], sc0Sel := some { since := 0, q := some 0 } }),
      0, qp0, by decide +kernel⟩,
    ⟨ready true true (ni0 { demoNi with qs := [(0, { cls := 0, pkts := [qp0], vt := 1000 })], sc0Sel := some { since := 0, q := some 0 } }),
      0, 256000, qp0, by decide +kernel⟩,
    ⟨ready true true (ni0 { demoNi with sc0Last := [(1, some 256000)], qs := [(0, { cls := 0, pkts := [qp0], vt := 1000 })], sc0Sel := some { since := 0, q := some 0 } }),
      0, 256000, qp0, by decide +kernel⟩,
    ⟨ready false true (ni0 { demoNi with qs := [(0, { cls := 0, pkts := [qp0], vt := 1000 })], sc0Sel := some { since := 0, q := some 0 } }),
      0, 256000, qp0, 1, 0, 1, by decide +kernel⟩,
    ⟨(ready false true (ni0 { demoNi with qs := [(0, { cls := 0, pkts := [qp0], vt := 1000 })], sc0Sel := some { since := 0, q := some 0 } })).wr (niB 0) F.NI_PWR_MASK_OPEN 0,
      0, 256000, qp0, 1, 0, 1, by decide +kernel⟩,
    ⟨(ready true true (ni0 { demoNi with qs := [(0, { cls := 0, pkts := [qp0], vt := 1000 })], sc0Sel := some { since := 0, q := some 0 } })).setEntry 0 1 { demo.entry 0 1 with valid := false },
      0, 256000, qp0, _, .refuse 0x0D, 0, 0x0D, rfl, by decide +kernel⟩⟩

/-! ### Chapter 4 of the statements -/

/-- A read request that entered on the Span port's link of router 0 and takes output `la` next. -/
def fromSpan (la : Nat) : Hdr := { la := la, path := la, src := 256, dest := 0, len := 8, addr := 64 }

/-- Its one flit. -/
def spanFlit (la : Nat) : Flit := { vc := 2, ft := 3, segb := true, hdr := some (fromSpan la) }

/-- Router 0's Span input on plane A, with the packet at the front of VC 2. -/
def queued : PortSt := { vcs := List.replicate 2 {} ++ [{ buf := [spanFlit 0], tx := some { hdr := fromSpan 0, f := 1, next := 0 } }] ++ List.replicate 13 {} }

/-- An output with a full set of credits. -/
def loaded : PortSt := { loaded := true, cred := List.replicate 16 4 }

/-- That packet waits for output 0. -/
def arbitrates : State := (demo.setPort (.rtr 0 0 2) queued).setPort (.rtr 0 0 0) loaded

/-- The station ahead of router 0's input 1 holds one flit. -/
def station : State := (demo.setPort (.rtr 0 0 1) { stq := [spanFlit 0] }).setPort (.rtr 0 1 1) loaded

/-- A request of NI 0 in flight through region 1. -/
def through1 : Tag :=
  { ser := 5, id := 3, code := 0, sc := 2, slice := 0, pid := 0, addr := 64, len := 8, dkey := 1, regmask := 3, parts := [{ ni := 1, pieces := [(0, 8)] }] }

/-- Router 0's Span input with a packet arriving. -/
def arrives (la : Nat) : State := demo.setPort (.rtr 0 0 2) { wire := [spanFlit la] }

/-- No output of router 0 is owned there. -/
theorem arrives_owner (q : Nat) : ((arrives 0).port (.rtr 0 0 q)).owner = none := by
  have e : (arrives 0).ports = [(6, { wire := [spanFlit 0] })] := by decide +kernel
  unfold State.port
  rw [e]
  unfold mget
  split <;> rfl

/-- The premises of RouterBuffersOrDropsHeadFlit are met. -/
theorem met_RouterBuffersOrDropsHeadFlit :
    (∃ (s : State), ∃ (plane r p : Nat), ∃ (o : Port), o = .rtr plane r p ∧ s.hasPort o = true ∧ (s.port o).wire = []) ∧
    (∃ (s : State), ∃ (plane r p : Nat), ∃ (o : Port), ∃ (fl : Flit) (l : List Flit), o = .rtr plane r p ∧ s.hasPort o = true ∧
      (s.port o).wire = fl :: l ∧ (s.port o).dead = true) ∧
    (∃ (s v : State), ∃ (plane r p : Nat), ∃ (e : FlitErr), ∃ (fl : Flit), ∃ (l : List Flit), ∃ (c : VcSt), ∃ (h : Hdr),
      ∃ (o : Port), ∃ (x : Flit), o = .rtr plane r p ∧
      v = ((s.updPort o (fun y => { y with wire := l })).correcteds o (fl.found e).corrs).count (rtrB plane r) F.RTR_ECC_CNT_UNCORR (fl.found e).bads ∧
      (∀ q k, (s.port (.rtr plane r q)).owner ≠ some (p, fl.vc, k)) ∧
      x = { fl with poison := fl.poison || (fl.found e).dn, cbad := false, dbad := false } ∧ s.hasPort o = true ∧
      (s.port o).dead = false ∧ (s.port o).fault = false ∧ (s.port o).wire = fl :: l ∧ (s.port o).vcs[fl.vc]? = some c ∧
      fl.hdr = some h ∧ c.buf.length < s.rom.vcDepth ∧ c.rx = none ∧ dropReason s.rom r p h (fl.found e) = none) ∧
    (∃ (s v : State), ∃ (plane r p : Nat), ∃ (e : FlitErr), ∃ (fl : Flit), ∃ (l : List Flit), ∃ (c : VcSt), ∃ (h : Hdr),
      ∃ (o : Port), ∃ (k : Nat), o = .rtr plane r p ∧
      v = ((s.updPort o (fun y => { y with wire := l })).correcteds o (fl.found e).corrs).count (rtrB plane r) F.RTR_ECC_CNT_UNCORR (fl.found e).bads ∧
      s.hasPort o = true ∧ (s.port o).dead = false ∧ (s.port o).fault = false ∧ (s.port o).wire = fl :: l ∧
      (s.port o).vcs[fl.vc]? = some c ∧ fl.hdr = some h ∧ c.buf.length < s.rom.vcDepth ∧ c.rx = none ∧
      dropReason s.rom r p h (fl.found e) = some k) ∧
    (∃ (s v : State), ∃ (plane r p : Nat), ∃ (e : FlitErr), ∃ (fl : Flit), ∃ (l : List Flit), ∃ (c : VcSt), ∃ (h : Hdr),
      ∃ (o : Port), ∃ (k : Nat), o = .rtr plane r p ∧
      v = ((s.updPort o (fun y => { y with wire := l })).correcteds o (fl.found e).corrs).count (rtrB plane r) F.RTR_ECC_CNT_UNCORR (fl.found e).bads ∧
      s.hasPort o = true ∧ (s.port o).dead = false ∧ (s.port o).fault = false ∧ (s.port o).wire = fl :: l ∧
      (s.port o).vcs[fl.vc]? = some c ∧ fl.hdr = some h ∧ c.buf.length < s.rom.vcDepth ∧ c.rx = none ∧
      dropReason s.rom r p h (fl.found e) = some k) ∧
    (∃ (s v : State), ∃ (plane r p : Nat), ∃ (e : FlitErr), ∃ (fl : Flit), ∃ (l : List Flit), ∃ (c : VcSt), ∃ (h : Hdr),
      ∃ (o : Port), o = .rtr plane r p ∧
      v = ((s.updPort o (fun y => { y with wire := l })).correcteds o (fl.found e).corrs).count (rtrB plane r) F.RTR_ECC_CNT_UNCORR (fl.found e).bads ∧
      s.hasPort o = true ∧ (s.port o).dead = false ∧ (s.port o).fault = false ∧ (s.port o).wire = fl :: l ∧
      (s.port o).vcs[fl.vc]? = some c ∧ fl.hdr = some h ∧ s.rom.vcDepth ≤ c.buf.length) :=
  ⟨⟨demo, 0, 0, 0, _, rfl, by decide +kernel⟩,
    ⟨demo.setPort (.rtr 0 0 2) { wire := [spanFlit 0], dead := true }, 0, 0, 2, _, spanFlit 0, [], rfl, by decide +kernel⟩,
    ⟨arrives 0, _, 0, 0, 2, {}, spanFlit 0, [], {}, fromSpan 0, _, _, rfl, rfl, (by intro q k; rw [arrives_owner]; simp), rfl,
      by decide +kernel⟩,
    ⟨arrives 2, _, 0, 0, 2, {}, spanFlit 2, [], {}, fromSpan 2, _, 2, rfl, rfl, by decide +kernel⟩,
    ⟨arrives 0, _, 0, 0, 2, { d0 := .bad }, spanFlit 0, [], {}, fromSpan 0, _, 0, rfl, rfl, by decide +kernel⟩,
    ⟨demo.setPort (.rtr 0 0 2) { queued with wire := [spanFlit 0], vcs := queued.vcs.map (fun c => { c with buf := c.buf ++ c.buf ++ c.buf ++ c.buf }) },
      _, 0, 0, 2, {}, spanFlit 0, [],
      { buf := List.replicate 4 (spanFlit 0), tx := some { hdr := fromSpan 0, f := 1, next := 0 } }, fromSpan 0, _, rfl, rfl,
      by decide +kernel⟩⟩

/-- The premises of ArbitrationGrantsTheWinner are met. -/
theorem met_ArbitrationGrantsTheWinner :
    (∃ (s : State), ∃ (o : Port), s.hasPort o = true ∧
      (s.clocked (regionOf s.rom o) = false ∨ (s.port o).owner.isSome = true ∨ s.winner o (s.requesters o none) = none)) ∧
    (∃ (s : State), ∃ (o : Port), ∃ (i v f k : Nat), ∃ (fl : Flit), s.hasPort o = true ∧ s.clocked (regionOf s.rom o) = true ∧
      (s.port o).owner = none ∧ s.winner o (s.requesters o none) = some (i, v) ∧ s.nextFlit o i v = some (fl, f, k) ∧ (∀ far,
      farEnd s.rom o = some far → portKey far ≠ portKey o)) :=
  ⟨⟨arbitrates, .rtr 0 0 2, by decide +kernel⟩,
    ⟨arbitrates, .rtr 0 0 0, ((arbitrates.winner (.rtr 0 0 0) (arbitrates.requesters (.rtr 0 0 0) none)).getD (0, 0)).1,
      ((arbitrates.winner (.rtr 0 0 0) (arbitrates.requesters (.rtr 0 0 0) none)).getD (0, 0)).2, 1, 0, spanFlit 0,
      by decide +kernel⟩⟩

/-- The premises of WinnerHasBestClassAndLevel are met. -/
theorem met_WinnerHasBestClassAndLevel :
    (∃ (s : State), ∃ (o : Port), ∃ (rs : List (Nat × Nat)), ∃ (w : Nat × Nat), (∀ r ∈ rs,
      4 * r.1 + r.2 / 4 ∈ (s.port o).rot.getD (r.2 % 4) []) ∧ (∀ r ∈ rs, ∀ k ∈ rs,
      4 * r.1 + r.2 / 4 = 4 * k.1 + k.2 / 4 → r.2 % 4 = k.2 % 4 → r = k) ∧ s.winner o rs = some w) ∧
    (∃ (s : State), ∃ (o : Port), ∃ (rs : List (Nat × Nat)), ∃ (w : Nat × Nat), ∃ (r : Nat × Nat), (∀ r ∈ rs,
      4 * r.1 + r.2 / 4 ∈ (s.port o).rot.getD (r.2 % 4) []) ∧ (∀ r ∈ rs, ∀ k ∈ rs,
      4 * r.1 + r.2 / 4 = 4 * k.1 + k.2 / 4 → r.2 % 4 = k.2 % 4 → r = k) ∧ s.winner o rs = some w ∧ r ∈ rs) ∧
    (∃ (s : State), ∃ (o : Port), ∃ (rs : List (Nat × Nat)), ∃ (w : Nat × Nat), ∃ (r : Nat × Nat), (∀ r ∈ rs,
      4 * r.1 + r.2 / 4 ∈ (s.port o).rot.getD (r.2 % 4) []) ∧ (∀ r ∈ rs, ∀ k ∈ rs,
      4 * r.1 + r.2 / 4 = 4 * k.1 + k.2 / 4 → r.2 % 4 = k.2 % 4 → r = k) ∧ s.winner o rs = some w ∧ r ∈ rs ∧ r.2 % 4 = w.2 % 4) :=
  ⟨⟨arbitrates, .rtr 0 0 0, [(2, 2), (1, 3)], (2, 2), by decide +kernel⟩,
    ⟨arbitrates, .rtr 0 0 0, [(2, 2), (1, 3)], (2, 2), (1, 3), by decide +kernel⟩,
    ⟨arbitrates, .rtr 0 0 0, [(2, 2), (1, 2)], (1, 2), (2, 2), by decide +kernel⟩⟩

/-- The premises of GrantOverrunEndsTheGrant are met. -/
theorem met_GrantOverrunEndsTheGrant :
    (∃ (s : State), ∃ (o : Port), s.hasPort o = true ∧ (s.clocked (regionOf s.rom o) = false ∨ (s.port o).owner = none)) ∧
    (∃ (s : State), ∃ (plane i vc k : Nat), ∃ (o : Port), ∃ (j : Nat), o = .span plane j ∧ s.hasPort o = true ∧
      s.clocked (regionOf s.rom o) = true ∧ (s.port o).owner = some (i, vc, k)) ∧
    (∃ (s : State), ∃ (plane i vc k : Nat), ∃ (o : Port), ∃ (r q : Nat), ∃ (v : State), o = .rtr plane r q ∧
      v = (((((s.setPort o { s.port o with owner := none }).count (rtrB plane r) F.RTR_OVERRUN_CNT_COUNT 1).wr (rtrB plane r) F.RTR_ERR_STAT_OVERRUN 1).arbLog plane r 0 q i vc).rtrEvent plane r 2) ∧
      s.hasPort o = true ∧ s.clocked (regionOf s.rom o) = true ∧ (s.port o).owner = some (i, vc, k)) ∧
    (∃ (s : State), ∃ (plane i vc k : Nat), ∃ (o : Port), ∃ (n : Nat), ∃ (v : State), o = .ni plane n ∧
      v = (((s.setPort o { s.port o with owner := none }).setBit (niB n) (if plane = 0 then F.NI_PLN_ERR_ERR_A else F.NI_PLN_ERR_ERR_B) 0).count (niB n) F.NI_PLN_OVR_CNT_COUNT 1).alert n 16 ∧
      s.hasPort o = true ∧ s.clocked (regionOf s.rom o) = true ∧ (s.port o).owner = some (i, vc, k)) :=
  ⟨⟨demo.setPort (.rtr 0 0 0) { loaded := true, cwire := [5, 1], cred := List.replicate 16 0 }, .rtr 0 0 0, by decide +kernel⟩,
    ⟨demo.setPort (.span 0 0) { loaded with owner := some (2, 2, 1) }, 0,
      ((((demo.setPort (.span 0 0) { loaded with owner := some (2, 2, 1) }).port (.span 0 0)).owner).getD (0, 0, 0)).1,
      ((((demo.setPort (.span 0 0) { loaded with owner := some (2, 2, 1) }).port (.span 0 0)).owner).getD (0, 0, 0)).2.1,
      ((((demo.setPort (.span 0 0) { loaded with owner := some (2, 2, 1) }).port (.span 0 0)).owner).getD (0, 0, 0)).2.2, _, 0,
      rfl, by decide +kernel⟩,
    ⟨demo.setPort (.rtr 0 0 0) { loaded with owner := some (2, 2, 1) }, 0,
      ((((demo.setPort (.rtr 0 0 0) { loaded with owner := some (2, 2, 1) }).port (.rtr 0 0 0)).owner).getD (0, 0, 0)).1,
      ((((demo.setPort (.rtr 0 0 0) { loaded with owner := some (2, 2, 1) }).port (.rtr 0 0 0)).owner).getD (0, 0, 0)).2.1,
      ((((demo.setPort (.rtr 0 0 0) { loaded with owner := some (2, 2, 1) }).port (.rtr 0 0 0)).owner).getD (0, 0, 0)).2.2, _, 0,
      0, _, rfl, rfl, by decide +kernel⟩,
    ⟨demo.setPort (.ni 0 0) { loaded with owner := some (2, 2, 1) }, 0,
      ((((demo.setPort (.ni 0 0) { loaded with owner := some (2, 2, 1) }).port (.ni 0 0)).owner).getD (0, 0, 0)).1,
      ((((demo.setPort (.ni 0 0) { loaded with owner := some (2, 2, 1) }).port (.ni 0 0)).owner).getD (0, 0, 0)).2.1,
      ((((demo.setPort (.ni 0 0) { loaded with owner := some (2, 2, 1) }).port (.ni 0 0)).owner).getD (0, 0, 0)).2.2, _, 0, _,
      rfl, rfl, by decide +kernel⟩⟩

/-- The premises of CreditsReturnAndLoad are met. -/
theorem met_CreditsReturnAndLoad :
    (∃ (s : State), ∃ (o : Port), s.hasPort o = true ∧ (s.port o).cwire = [] ∧ (s.port o).swire = []) ∧
    (∃ (s : State), ∃ (o : Port), ∃ (v : BitVec 16), ∃ (r : List (BitVec 16)), s.hasPort o = true ∧ (s.port o).cwire = v :: r ∧
      (s.port o).loaded = true ∧ (s.port o).cred.length = 16 ∧ (∀ c,
      c < 16 → bitAt v.toNat c = true → (s.port o).cred.getD c 0 < s.rom.vcDepth)) ∧
    (∃ (s : State), ∃ (o : Port), ∃ (v : BitVec 16), ∃ (r : List (BitVec 16)), ∃ (flip : BitVec 17), s.hasPort o = true ∧
      (s.port o).cwire = v :: r ∧ (s.port o).loaded = true ∧ popBits flip.toNat 17 % 2 = 1) ∧
    (∃ (s : State), ∃ (o : Port), ∃ (v : BitVec 16), ∃ (r : List (BitVec 16)), s.hasPort o = true ∧ (s.port o).cwire = v :: r ∧
      (s.port o).loaded = false) ∧
    (∃ (s : State), ∃ (o : Port), ∃ (v : BitVec 16), ∃ (r : List (BitVec 16)), ∃ (flip : BitVec 17), ∃ (w : State),
      w = s.updPort o (fun x => { x with swire := r }) ∧ s.hasPort o = true ∧ (s.port o).cwire = [] ∧ (s.port o).swire = v :: r ∧
      popBits flip.toNat 17 % 2 = 0) ∧
    (∃ (s : State), ∃ (o : Port), ∃ (v : BitVec 16), ∃ (r : List (BitVec 16)), ∃ (flip : BitVec 17), ∃ (w : State),
      ∃ (p : Nat) (k : Nat) (q : Nat), w = s.updPort o (fun x => { x with swire := r }) ∧ s.hasPort o = true ∧
      (s.port o).cwire = [] ∧ (s.port o).swire = v :: r ∧ popBits flip.toNat 17 % 2 = 1 ∧ farEnd s.rom o = some (.rtr p k q)) ∧
    (∃ (s : State), ∃ (o : Port), ∃ (v : BitVec 16), ∃ (r : List (BitVec 16)), ∃ (flip : BitVec 17), ∃ (w : State),
      w = s.updPort o (fun x => { x with swire := r }) ∧ (∀ p k q, farEnd s.rom o ≠ some (.rtr p k q)) ∧ s.hasPort o = true ∧
      (s.port o).cwire = [] ∧ (s.port o).swire = v :: r ∧ popBits flip.toNat 17 % 2 = 1) ∧
    (∃ (s : State), ∃ (o : Port), ∃ (f : Port), s.hasPort o = true ∧ farEnd s.rom o = some f ∧ (s.port o).dead = false ∧
      (s.port f).dead = false ∧ (s.rg (regionOf s.rom o)).held = false ∧ (s.rg (regionOf s.rom f)).held = false ∧
      (s.port o).loaded = false ∧ s.inEmpty f = true) ∧
    (∃ (s : State), ∃ (o : Port), s.hasPort o = true ∧ (∀ f,
      farEnd s.rom o = some f → (s.port o).dead = true ∨ (s.port f).dead = true ∨ (s.rg (regionOf s.rom o)).held = true ∨ (s.rg (regionOf s.rom f)).held = true ∨ (s.port o).loaded = true ∨ s.inEmpty f = false)) :=
  ⟨⟨demo, Port.rtr 0 0 0, by decide +kernel⟩,
    ⟨demo.setPort (.rtr 0 0 0) { loaded := true, cwire := [5, 1], cred := List.replicate 16 0 }, .rtr 0 0 0, 5, [1],
      by decide +kernel⟩,
    ⟨demo.setPort (.rtr 0 0 0) { loaded := true, cwire := [5, 1], cred := List.replicate 16 0 }, .rtr 0 0 0, 5, [1], 1,
      by decide +kernel⟩,
    ⟨demo.setPort (.rtr 0 0 0) { cwire := [5] }, .rtr 0 0 0, 5, [], by decide +kernel⟩,
    ⟨demo.setPort (.ni 0 0) { loaded with swire := [5] }, .ni 0 0, 5, [], 0, _, rfl, by decide +kernel⟩,
    ⟨demo.setPort (.ni 0 0) { loaded with swire := [5] }, .ni 0 0, 5, [], 1, _, 0, 0, 0, rfl, by decide +kernel⟩,
    ⟨demo.setPort (.rtr 0 0 0) { loaded with swire := [5] }, .rtr 0 0 0, 5, [], 1, _, rfl,
      (fun p k q h => nomatch (Option.some.inj ((show farEnd demoRom (.rtr 0 0 0) = some (.ni 0 0) from by decide +kernel).symm.trans h))),
      by decide +kernel⟩,
    ⟨demo, Port.rtr 0 0 0, Port.ni 0 0, by decide +kernel⟩,
    ⟨demo.setPort (.rtr 0 0 0) { loaded := true, cwire := [5, 1], cred := List.replicate 16 0 }, .rtr 0 0 0, by decide +kernel⟩⟩

/-- The premises of CrossingStationPassesFlit are met. -/
theorem met_CrossingStationPassesFlit :
    (∃ (s : State), ∃ (o : Port), ∃ (vc : Nat), s.hasPort o = true ∧ hasXing s.rom o = true ∧ vc < 16 ∧
      ((s.port o).stStop = true ∨ (s.rg (regionOf s.rom o)).held = true ∨ s.clocked (regionOf s.rom o) = false ∨ s.stNext o ≠ some vc)) ∧
    (∃ (s : State), ∃ (o : Port), ∃ (vc : Nat), ∃ (fl : Flit), s.hasPort o = true ∧ hasXing s.rom o = true ∧ vc < 16 ∧
      (s.port o).stStop = false ∧ (s.rg (regionOf s.rom o)).held = false ∧ s.clocked (regionOf s.rom o) = true ∧
      s.stNext o = some vc ∧ (s.port o).stq.find? (fun f => f.vc == vc) = some fl) ∧
    (∃ (s : State), ∃ (o : Port), ∃ (vc : Nat), ∃ (fl : Flit), s.hasPort o = true ∧ hasXing s.rom o = true ∧ vc < 16 ∧
      (s.port o).stStop = false ∧ (s.rg (regionOf s.rom o)).held = false ∧ s.clocked (regionOf s.rom o) = true ∧
      s.stNext o = some vc ∧ (s.port o).stq.find? (fun f => f.vc == vc) = some fl) :=
  ⟨⟨{ station with straps := { g2 := true } }, Port.rtr 0 1 1, 0, by decide +kernel⟩,
    ⟨station, .rtr 0 0 1, 2, spanFlit 0, by decide +kernel⟩,
    ⟨station, .rtr 0 0 1, 2, spanFlit 0, by decide +kernel⟩⟩

/-- The premises of IsolationAnswersAndFlushes are met. -/
theorem met_IsolationAnswersAndFlushes :
    (∃ (s : State), ∃ (o f : Port), s.hasPort o = true ∧ hasXing s.rom o = true ∧ farEnd s.rom o = some f ∧ s.g2 = false ∧
      (s.port o).stIso = false ∧ (s.port o).dead = false ∧ s.isoFree (regionOf s.rom o) (regionOf s.rom f) = true) ∧
    (∃ (s : State), ∃ (o f : Port), s.hasPort o = true ∧ hasXing s.rom o = true ∧ farEnd s.rom o = some f ∧
      (s.g2 = true ∨ (s.port o).stIso = true ∨ (s.port o).dead = true ∨ s.isoFree (regionOf s.rom o) (regionOf s.rom f) = false)) ∧
    (∃ (s : State), ∃ (o f : Port), s.hasPort o = true ∧ hasXing s.rom o = true ∧ farEnd s.rom o = some f ∧ s.g2 = false) ∧
    (∃ (s : State), ∃ (o f : Port), s.hasPort o = true ∧ hasXing s.rom o = true ∧ farEnd s.rom o = some f ∧ s.g2 = true) ∧
    (∃ (s : State), ∃ (n : Nat), s.hears n = false) ∧
    (∃ (s : State), ∃ (n new : Nat), new = s.rd glbB F.GLB_RECOV_ISO &&& (2 ^ 16 - 1 - (s.ni n).iso % 2 ^ 16) ∧
      s.hears n = true) :=
  ⟨⟨station, Port.rtr 0 0 1, Port.rtr 0 1 1, by decide +kernel⟩,
    ⟨{ station with straps := { g2 := true } }, Port.rtr 0 1 1, Port.rtr 0 0 1, by decide +kernel⟩,
    ⟨station, Port.rtr 0 0 1, Port.rtr 0 1 1, by decide +kernel⟩,
    ⟨{ station with straps := { g2 := true } }, Port.rtr 0 1 1, Port.rtr 0 0 1, by decide +kernel⟩,
    ⟨{ station with straps := { g2 := true } }, 2, by decide +kernel⟩,
    ⟨(ni0 { demoNi with tags := [(0, some through1)], ord := [{ ser := 5, id := 3, key := 1 }] }).wr glbB F.GLB_RECOV_ISO 2, 0,
      _, rfl, by decide +kernel⟩⟩

/-! ### Chapter 5 of the statements -/

/-- The checked entry of NI 0 toward NI 1 as ROUTE_SET spells it. -/
def routeCmd (bound : Nat) : Cmd := cmd 0x10 (leBytes 2 0 ++ leBytes 2 1 ++ leBytes 8 1 ++ leBytes 1 0x22 ++ leBytes 2 bound)

/-- A route entry as it stands in `demo`. -/
def entry01 : Entry :=
  { path := 1, nhops := 2, valid := true, rep := true, unchk := false, pol := 0, bound := 500, regmask := 3, xings := 1 }

/-- The premises of RouteCommandsWriteCheckedEntry are met. -/
theorem met_RouteCommandsWriteCheckedEntry :
    (∃ (s : State), ∃ (x : Nat), ∃ (c : Cmd), ∃ (y : Entry), y = setEntryOf c ∧ s.Issued x 0x10 [(0, 120)] c ∧
      s.routeHeld (c.p 0 16) (c.p 16 16) (c.p 32 64) (c.p 96 5) = true) ∧
    (∃ (s : State), ∃ (x : Nat), ∃ (c : Cmd), ∃ (y : Entry), ∃ (b : Nat) (mask : Nat) (xs : Nat) (bound : Nat),
      y = setEntryOf c ∧ bound = (if y.bound = 0 then boundField b else y.bound) ∧ s.Issued x 0x10 [(0, 120)] c ∧
      s.routeHeld (c.p 0 16) (c.p 16 16) (c.p 32 64) (c.p 96 5) = false ∧
      (s.begin x).routeCheck (c.p 0 16) (c.p 16 16) y = .ok (b, mask, xs)) ∧
    (∃ (s : State), ∃ (x : Nat), ∃ (c : Cmd), ∃ (y : Entry), ∃ (b : Nat) (mask : Nat) (xs : Nat) (bound : Nat),
      y = setEntryOf c ∧ bound = (if y.bound = 0 then boundField b else y.bound) ∧ s.Issued x 0x10 [(0, 120)] c ∧
      s.routeHeld (c.p 0 16) (c.p 16 16) (c.p 32 64) (c.p 96 5) = false ∧
      (s.begin x).routeCheck (c.p 0 16) (c.p 16 16) y = .ok (b, mask, xs)) ∧
    (∃ (s : State), ∃ (x : Nat), ∃ (c : Cmd), ∃ (y : Entry), ∃ (r : Nat), y = setEntryOf c ∧ s.Issued x 0x10 [(0, 120)] c ∧
      s.routeHeld (c.p 0 16) (c.p 16 16) (c.p 32 64) (c.p 96 5) = false ∧
      (s.begin x).routeCheck (c.p 0 16) (c.p 16 16) y = .error r ∧ 0 < r) ∧
    (∃ (s : State), ∃ (x : Nat), ∃ (c : Cmd), ∃ (y : Entry), y = s.entry (c.p 0 16) (c.p 16 16) ∧ s.Issued x 0x11 [(0, 32)] c ∧
      s.routeHeld (c.p 0 16) (c.p 16 16) y.path y.nhops = true) ∧
    (∃ (s : State), ∃ (x : Nat), ∃ (c : Cmd), ∃ (y : Entry), ∃ (b : Nat) (mask : Nat) (xs : Nat) (bound : Nat),
      y = s.entry (c.p 0 16) (c.p 16 16) ∧ bound = (if y.rep && y.bound == 0 then b else y.bound) ∧ s.Issued x 0x11 [(0, 32)] c ∧
      s.routeHeld (c.p 0 16) (c.p 16 16) y.path y.nhops = false ∧ (s.begin x).routeCheck (c.p 0 16) (c.p 16 16) y = .ok (b, mask,
      xs)) ∧
    (∃ (s : State), ∃ (x : Nat), ∃ (c : Cmd), ∃ (y : Entry), ∃ (r : Nat), y = s.entry (c.p 0 16) (c.p 16 16) ∧
      s.Issued x 0x11 [(0, 32)] c ∧ s.routeHeld (c.p 0 16) (c.p 16 16) y.path y.nhops = false ∧
      (s.begin x).routeCheck (c.p 0 16) (c.p 16 16) y = .error r ∧ 0 < r) :=
  ⟨⟨on (routeCmd 60) (demo.wr pcrB (F.PCR_RG_STAT_STATE.ix 1) 7), 1, routeCmd 60, _, rfl, by decide +kernel⟩,
    ⟨on (routeCmd 0) demo, 1, routeCmd 0, _,
      (match ((on (routeCmd 0) demo).begin 1).routeCheck ((routeCmd 0).p 0 16) ((routeCmd 0).p 16 16) (setEntryOf (routeCmd 0)) with | .ok r => r | .error _ => (0,
      0, 0)).1,
      (match ((on (routeCmd 0) demo).begin 1).routeCheck ((routeCmd 0).p 0 16) ((routeCmd 0).p 16 16) (setEntryOf (routeCmd 0)) with | .ok r => r | .error _ => (0,
      0, 0)).2.1,
      (match ((on (routeCmd 0) demo).begin 1).routeCheck ((routeCmd 0).p 0 16) ((routeCmd 0).p 16 16) (setEntryOf (routeCmd 0)) with | .ok r => r | .error _ => (0,
      0, 0)).2.2, _, rfl, rfl, by decide +kernel⟩,
    ⟨on (routeCmd 60) demo, 1, routeCmd 60, _,
      (match ((on (routeCmd 60) demo).begin 1).routeCheck ((routeCmd 60).p 0 16) ((routeCmd 60).p 16 16) (setEntryOf (routeCmd 60)) with | .ok r => r | .error _ => (0,
      0, 0)).1,
      (match ((on (routeCmd 60) demo).begin 1).routeCheck ((routeCmd 60).p 0 16) ((routeCmd 60).p 16 16) (setEntryOf (routeCmd 60)) with | .ok r => r | .error _ => (0,
      0, 0)).2.1,
      (match ((on (routeCmd 60) demo).begin 1).routeCheck ((routeCmd 60).p 0 16) ((routeCmd 60).p 16 16) (setEntryOf (routeCmd 60)) with | .ok r => r | .error _ => (0,
      0, 0)).2.2, _, rfl, rfl, by decide +kernel⟩,
    ⟨on (routeCmd 20) demo, 1, routeCmd 20, _, 7, rfl, by decide +kernel⟩,
    ⟨on (cmd 0x11 [0, 0, 1, 0]) ((demo.wr pcrB (F.PCR_RG_STAT_STATE.ix 0) 7).wr pcrB (F.PCR_RG_STAT_STATE.ix 1) 7), 1,
      cmd 0x11 [0, 0, 1, 0], _, rfl, by decide +kernel⟩,
    ⟨on (cmd 0x11 [0, 0, 1, 0]) demo, 1, cmd 0x11 [0, 0, 1, 0], _, (match ((on (cmd 0x11 [0, 0, 1,
      0]) demo).begin 1).routeCheck ((cmd 0x11 [0, 0, 1, 0]).p 0 16) ((cmd 0x11 [0, 0, 1, 0]).p 16 16) ((on (cmd 0x11 [0, 0, 1,
      0]) demo).entry ((cmd 0x11 [0, 0, 1, 0]).p 0 16) ((cmd 0x11 [0, 0, 1, 0]).p 16 16)) with | .ok r => r | .error _ => (0, 0,
      0)).1, (match ((on (cmd 0x11 [0, 0, 1, 0]) demo).begin 1).routeCheck ((cmd 0x11 [0, 0, 1, 0]).p 0 16) ((cmd 0x11 [0, 0, 1,
      0]).p 16 16) ((on (cmd 0x11 [0, 0, 1, 0]) demo).entry ((cmd 0x11 [0, 0, 1, 0]).p 0 16) ((cmd 0x11 [0, 0, 1,
      0]).p 16 16)) with | .ok r => r | .error _ => (0, 0, 0)).2.1, (match ((on (cmd 0x11 [0, 0, 1,
      0]) demo).begin 1).routeCheck ((cmd 0x11 [0, 0, 1, 0]).p 0 16) ((cmd 0x11 [0, 0, 1, 0]).p 16 16) ((on (cmd 0x11 [0, 0, 1,
      0]) demo).entry ((cmd 0x11 [0, 0, 1, 0]).p 0 16) ((cmd 0x11 [0, 0, 1, 0]).p 16 16)) with | .ok r => r | .error _ => (0, 0,
      0)).2.2, _, rfl, rfl, by decide +kernel⟩,
    ⟨on (cmd 0x11 [0, 0, 1, 0]) (demo.setEntry 0 1 { entry01 with path := 0 }), 1, cmd 0x11 [0, 0, 1, 0], _, 4, rfl,
      by decide +kernel⟩⟩

/-- The premises of CheckedRouteEndsAtItsEntry are met. -/
theorem met_CheckedRouteEndsAtItsEntry : ∃ (s : State), ∃ (t e : Nat), ∃ (y : Entry), ∃ (i : RouteInfo),
    s.routeCheck t e y = .ok i :=
  ⟨demo, 0, 1, entry01, (56, 3, 1), by decide +kernel⟩

/-- The premises of ReservationsAreGrantedAndFreed are met. -/
theorem met_ReservationsAreGrantedAndFreed :
    (∃ (s : State), ∃ (x n k : Nat), ∃ (c : Cmd), n = c.p 0 8 ∧ k = c.p 8 4 ∧ s.hasNi n = false ∧ s.Issued x 0x12 [(0, 12), (16,
      11), (32, 6), (48, 16)] c ∧ s.rsvHeld n (c.p 16 9) (c.p 26 1 == 1) = false) ∧
    (∃ (s : State), ∃ (x n k : Nat), ∃ (c : Cmd), n = c.p 0 8 ∧ k = c.p 8 4 ∧ s.hasNi n = false ∧ s.Issued x 0x13 [(0, 12)] c ∧
      s.rd (niB n) (F.NI_SC0_RSV0_VALID.ix k) ≠ 1) ∧
    (∃ (s : State), ∃ (x n k : Nat), ∃ (c : Cmd), n = c.p 0 8 ∧ k = c.p 8 4 ∧ s.hasNi n = false ∧ s.Issued x 0x14 [(0, 12), (16,
      6), (32, 16), (48, 16)] c) ∧
    (∃ (s : State), ∃ (x n k : Nat), ∃ (c : Cmd), n = c.p 0 8 ∧ k = c.p 8 4 ∧ s.hasNi n = false ∧ s.Issued x 0x15 [(0, 12)] c) ∧
    (∃ (s : State), ∃ (x n k : Nat), ∃ (c : Cmd), n = c.p 0 8 ∧ k = c.p 8 4 ∧ s.hasNi n = true ∧ s.Issued x 0x12 [(0, 12), (16,
      11), (32, 6), (48, 16)] c ∧ s.rsvHeld n (c.p 16 9) (c.p 26 1 == 1) = true) ∧
    (∃ (s : State), ∃ (x n k : Nat), ∃ (c : Cmd), n = c.p 0 8 ∧ k = c.p 8 4 ∧ s.hasNi n = true ∧ s.Issued x 0x12 [(0, 12), (16,
      11), (32, 6), (48, 16)] c ∧ s.rsvHeld n (c.p 16 9) (c.p 26 1 == 1) = false ∧ entryWired s.rom n (c.p 16 9) = true) ∧
    (∃ (s : State), ∃ (x n k : Nat), ∃ (c : Cmd), n = c.p 0 8 ∧ k = c.p 8 4 ∧ s.hasNi n = true ∧ s.Issued x 0x12 [(0, 12), (16,
      11), (32, 6), (48, 16)] c ∧ entryWired s.rom n (c.p 16 9) = false ∧ s.rsvHeld n (c.p 16 9) (c.p 26 1 == 1) = false ∧
      (s.begin x).rsvCheck n k (c.p 16 9) (c.p 26 1 == 1) = none) ∧
    (∃ (s : State), ∃ (x n k : Nat), ∃ (c : Cmd), n = c.p 0 8 ∧ k = c.p 8 4 ∧ s.hasNi n = true ∧ s.Issued x 0x13 [(0, 12)] c ∧
      s.rd (niB n) (F.NI_SC0_RSV0_VALID.ix k) = 1 ∧
      s.rsvHeld n (s.rd (niB n) (F.NI_SC0_RSV0_ENTRY.ix k)) (s.rd (niB n) (F.NI_SC0_RSV0_RESP.ix k) == 1) = true) ∧
    (∃ (s : State), ∃ (x n k : Nat), ∃ (c : Cmd), n = c.p 0 8 ∧ k = c.p 8 4 ∧ s.hasNi n = true ∧ s.Issued x 0x13 [(0, 12)] c ∧
      (s.rd (niB n) (F.NI_SC0_RSV0_VALID.ix k) ≠ 1 ∨ s.rsvHeld n (s.rd (niB n) (F.NI_SC0_RSV0_ENTRY.ix k)) (s.rd (niB n) (F.NI_SC0_RSV0_RESP.ix k) == 1) = false)) ∧
    (∃ (s : State), ∃ (x n k : Nat), ∃ (c : Cmd), n = c.p 0 8 ∧ k = c.p 8 4 ∧ s.hasNi n = true ∧ s.Issued x 0x14 [(0, 12), (16,
      6), (32, 16), (48, 16)] c ∧ (s.begin x).rd (niB n) F.NI_SC1_CAP_CAP < (s.begin x).rateSum n k (c.p 32 16)) ∧
    (∃ (s : State), ∃ (x n k : Nat), ∃ (c : Cmd), n = c.p 0 8 ∧ k = c.p 8 4 ∧ s.hasNi n = true ∧ s.Issued x 0x14 [(0, 12), (16,
      6), (32, 16), (48, 16)] c ∧ (s.begin x).rateSum n k (c.p 32 16) ≤ (s.begin x).rd (niB n) F.NI_SC1_CAP_CAP) ∧
    (∃ (s : State), ∃ (x n k : Nat), ∃ (c : Cmd), n = c.p 0 8 ∧ k = c.p 8 4 ∧ s.hasNi n = true ∧ s.Issued x 0x15 [(0, 12)] c) ∧
    (∃ (s : State), ∃ (x n k : Nat), ∃ (c : Cmd), ∃ (d : List Byte), n = c.p 0 8 ∧ k = c.p 8 4 ∧ s.hasNi n = true ∧
      s.Issued x 0x12 [(0, 12), (16, 11), (32, 6), (48, 16)] c ∧ s.rsvHeld n (c.p 16 9) (c.p 26 1 == 1) = false ∧
      entryWired s.rom n (c.p 16 9) = false ∧ (s.begin x).rsvCheck n k (c.p 16 9) (c.p 26 1 == 1) = some d) :=
  ⟨⟨on (cmd 0x12 [9, 2, 1, 6, 0, 0, 9, 0]) ((demo.wr pcrB (F.PCR_RG_STAT_STATE.ix 0) 7).wr pcrB (F.PCR_RG_STAT_STATE.ix 1) 7), 1,
    _, _, cmd 0x12 [9, 2, 1, 6, 0, 0, 9, 0], rfl, rfl, by decide +kernel⟩,
    ⟨on (cmd 0x13 [9, 2]) ((demo.wr pcrB (F.PCR_RG_STAT_STATE.ix 0) 7).wr pcrB (F.PCR_RG_STAT_STATE.ix 1) 7), 1, _, _,
      cmd 0x13 [9, 2], rfl, rfl, by decide +kernel⟩,
    ⟨on (cmd 0x14 [9, 8, 5, 0, 3, 0, 9, 0]) ((demo.wr pcrB (F.PCR_RG_STAT_STATE.ix 0) 7).wr pcrB (F.PCR_RG_STAT_STATE.ix 1) 7),
      1, _, _, cmd 0x14 [9, 8, 5, 0, 3, 0, 9, 0], rfl, rfl, by decide +kernel⟩,
    ⟨on (cmd 0x15 [9, 2]) ((demo.wr pcrB (F.PCR_RG_STAT_STATE.ix 0) 7).wr pcrB (F.PCR_RG_STAT_STATE.ix 1) 7), 1, _, _,
      cmd 0x15 [9, 2], rfl, rfl, by decide +kernel⟩,
    ⟨on (cmd 0x12 [0, 2, 1, 6, 0, 0, 9, 0]) ((demo.wr pcrB (F.PCR_RG_STAT_STATE.ix 0) 7).wr pcrB (F.PCR_RG_STAT_STATE.ix 1) 7),
      1, _, _, cmd 0x12 [0, 2, 1, 6, 0, 0, 9, 0], rfl, rfl, by decide +kernel⟩,
    ⟨on (cmd 0x12 [0, 2, 0, 0, 0, 0, 9, 0]) (demo), 1, _, _, cmd 0x12 [0, 2, 0, 0, 0, 0, 9, 0], rfl, rfl, by decide +kernel⟩,
    ⟨on (cmd 0x12 [0, 2, 1, 6, 0, 0, 9, 0]) demo, 1, _, _, cmd 0x12 [0, 2, 1, 6, 0, 0, 9, 0], rfl, rfl, by decide +kernel⟩,
    ⟨on (cmd 0x13 [0,
      2]) ((((demo.wr pcrB (F.PCR_RG_STAT_STATE.ix 0) 7).wr pcrB (F.PCR_RG_STAT_STATE.ix 1) 7).wr (niB 0) (F.NI_SC0_RSV0_VALID.ix 2) 1).wr (niB 0) (F.NI_SC0_RSV0_ENTRY.ix 2) 1),
      1, _, _, cmd 0x13 [0, 2], rfl, rfl, by decide +kernel⟩,
    ⟨on (cmd 0x13 [0, 2]) demo, 1, _, _, cmd 0x13 [0, 2], rfl, rfl, by decide +kernel⟩,
    ⟨on (cmd 0x14 [0, 8, 5, 0, 3, 0, 9, 0]) ((demo.wr pcrB (F.PCR_RG_STAT_STATE.ix 0) 7).wr pcrB (F.PCR_RG_STAT_STATE.ix 1) 7),
      1, _, _, cmd 0x14 [0, 8, 5, 0, 3, 0, 9, 0], rfl, rfl, by decide +kernel⟩,
    ⟨on (cmd 0x14 [0, 8, 5, 0, 3, 0, 9, 0]) (demo.wr (niB 0) F.NI_SC1_CAP_CAP 100), 1, _, _, cmd 0x14 [0, 8, 5, 0, 3, 0, 9, 0],
      rfl, rfl, by decide +kernel⟩,
    ⟨on (cmd 0x15 [0, 2]) demo, 1, _, _, cmd 0x15 [0, 2], rfl, rfl, by decide +kernel⟩,
    ⟨on (cmd 0x12 [0, 2, 1, 6, 0, 0, 9, 0]) (demo.setEntry 0 1 { demo.entry 0 1 with valid := false }), 1, _, _, cmd 0x12 [0, 2,
      1, 6, 0, 0, 9, 0], [1, 0, 0, 0, 1, 0, 0, 0], rfl, rfl, by decide +kernel⟩⟩

/-- The premises of GeneralCommandsAnswer are met. -/
theorem met_GeneralCommandsAnswer :
    (∃ (s : State), ∃ (x : Nat), ∃ (c : Cmd), s.Issued x 0x00 [] c) ∧
    (∃ (s : State), ∃ (x : Nat), ∃ (c : Cmd), s.Issued x 0x01 [] c) ∧
    (∃ (s : State), ∃ (x : Nat), ∃ (c : Cmd), s.Issued x 0x02 [(0, 2), (8, 8)] c ∧ s.claimOk (c.p 0 2) (c.p 8 8) = true) ∧
    (∃ (s : State), ∃ (x : Nat), ∃ (c : Cmd), s.Issued x 0x02 [(0, 2), (8, 8)] c ∧ s.claimOk (c.p 0 2) (c.p 8 8) = false) ∧
    (∃ (s : State), ∃ (x : Nat), ∃ (c : Cmd), s.Issued x 0x05 [(0, 3), (8, 1), (32, 32)] c) :=
  ⟨⟨on (cmd 0 []) demo, 1, cmd 0 [], by decide +kernel⟩,
    ⟨on (cmd 1 []) demo, 1, cmd 1 [], by decide +kernel⟩,
    ⟨on (cmd 2 [1, 1]) demo, 1, cmd 2 [1, 1], by decide +kernel⟩,
    ⟨on (cmd 2 [3, 1]) (demo), 1, cmd 2 [3, 1], by decide +kernel⟩,
    ⟨on (cmd 5 [1, 1, 0, 0, 255]) demo, 1, cmd 5 [1, 1, 0, 0, 255], by decide +kernel⟩⟩

/-- The premises of CommandTimeoutRepliesOnItsPath are met. -/
theorem met_CommandTimeoutRepliesOnItsPath :
    (∃ (s : State), ∃ (x : Nat), s.cmd x = none) ∧
    (∃ (s : State), ∃ (x : Nat), ∃ (c : Cmd), ∃ (l : Leave), ∃ (w : State), w = s.give l.kind l.who ∧ s.cmd x = some c ∧
      s.leaveOf c = some l ∧ l.kind = 2) ∧
    (∃ (s : State), ∃ (x : Nat), ∃ (c : Cmd), ∃ (l : Leave), ∃ (w : State), w = s.give l.kind l.who ∧ s.cmd x = some c ∧
      s.leaveOf c = some l ∧ l.kind = 3) ∧
    (∃ (s : State), ∃ (x : Nat), ∃ (c : Cmd), ∃ (l : Leave), ∃ (w : State), w = s.give l.kind l.who ∧ s.cmd x = some c ∧
      s.leaveOf c = some l ∧ l.kind = 4) ∧
    (∃ (s : State), ∃ (x : Nat), ∃ (c : Cmd), s.cmd x = some c ∧ s.leaveOf c = none ∧ c.late = true) ∧
    (∃ (s : State), ∃ (x : Nat), ∃ (c : Cmd), ∃ (v w : State),
      w = { s with cmds := if c.begun then s.cmds.filter (fun d => d.id != x) else s.cmds.map (fun d => if d.id = x then { d with late := true } else d) } ∧
      v = (w.count strB F.STR_CMD_CNT_COUNT 1).wr strB F.STR_CMD_STAT_ERR 1 ∧ s.cmd x = some c ∧ s.leaveOf c = none ∧
      c.late = false) ∧
    (∃ (s : State), ∃ (x : Nat), ∃ (c : Cmd), ∃ (v w : State),
      w = { s with cmds := if c.begun then s.cmds.filter (fun d => d.id != x) else s.cmds.map (fun d => if d.id = x then { d with late := true } else d) } ∧
      v = (w.count strB F.STR_CMD_CNT_COUNT 1).wr strB F.STR_CMD_STAT_ERR 1 ∧ s.cmd x = some c ∧ s.leaveOf c = none ∧
      c.late = false ∧ c.path = 2) ∧
    (∃ (s : State), ∃ (x : Nat), ∃ (c : Cmd), ∃ (v w : State), ∃ (m : Nat),
      w = { s with cmds := if c.begun then s.cmds.filter (fun d => d.id != x) else s.cmds.map (fun d => if d.id = x then { d with late := true } else d) } ∧
      v = (w.count strB F.STR_CMD_CNT_COUNT 1).wr strB F.STR_CMD_STAT_ERR 1 ∧ m = (if c.path = 1 then 3 else c.src) ∧
      s.cmd x = some c ∧ s.leaveOf c = none ∧ c.late = false ∧ c.path ≠ 2) ∧
    (∃ (s : State), ∃ (x : Nat), ∃ (c : Cmd), ∃ (v w : State), ∃ (m : Nat),
      w = { s with cmds := if c.begun then s.cmds.filter (fun d => d.id != x) else s.cmds.map (fun d => if d.id = x then { d with late := true } else d) } ∧
      v = (w.count strB F.STR_CMD_CNT_COUNT 1).wr strB F.STR_CMD_STAT_ERR 1 ∧ m = (if c.path = 1 then 3 else c.src) ∧
      s.cmd x = some c ∧ s.leaveOf c = none ∧ c.late = false ∧ c.path ≠ 2) :=
  ⟨⟨on { cmd 0 [] with path := 2, src := 1 } demo, 0, by decide +kernel⟩,
    ⟨{ on { cmd 0x61 [0, 0, 0, 0] with begun := true } demo with asks := [{ kind := 2, who := 0 }] }, 1,
      { cmd 0x61 [0, 0, 0, 0] with begun := true }, { kind := 2, who := 0 }, _, rfl, by decide +kernel⟩,
    ⟨{ on { cmd 0x70 [0, 0] with begun := true } demo with asks := [{ kind := 3, who := 0 }] }, 1,
      { cmd 0x70 [0, 0] with begun := true }, { kind := 3, who := 0 }, _, rfl, by decide +kernel⟩,
    ⟨{ on { cmd 0x04 [] with begun := true } demo with asks := [{ kind := 4, who := 1 }] }, 1,
      { cmd 0x04 [] with begun := true }, { kind := 4, who := 1 }, _, rfl, by decide +kernel⟩,
    ⟨on ({ cmd 0 [] with late := true }) (demo), 1, { cmd 0 [] with late := true }, by decide +kernel⟩,
    ⟨on { cmd 0 [] with path := 1 } demo, 1, { cmd 0 [] with path := 1 }, _, _, rfl, rfl, by decide +kernel⟩,
    ⟨on { cmd 0 [] with path := 2, src := 1 } demo, 1, { cmd 0 [] with path := 2, src := 1 }, _, _, rfl, rfl, by decide +kernel⟩,
    ⟨on { cmd 0 [] with path := 1 } demo, 1, { cmd 0 [] with path := 1 }, _, _, _, rfl, rfl, rfl, by decide +kernel⟩,
    ⟨on { cmd 0 [] with src := 2 } demo, 1, { cmd 0 [] with src := 2 }, _, _, _, rfl, rfl, rfl, by decide +kernel⟩⟩

/-! ### Chapter 6 of the statements -/

/-- The premises of BootChecksAndVerifies are met. -/
theorem met_BootChecksAndVerifies :
    (∃ (s : State), s.pacer.rst = 0 ∧ s.rd strB F.STR_BOOT_STATE = 0 ∧ (s.ready = true ∨ 3 ≤ s.rd glbB F.GLB_START_STAT_STEP)) ∧
    (∃ (s : State), (s.pacer.rst ≠ 0 ∨ s.rd strB F.STR_BOOT_STATE ≠ 0 ∨ s.ready = false ∧ s.rd glbB F.GLB_START_STAT_STEP < 3)) ∧
    (∃ (s : State), s.rd strB F.STR_BOOT_STATE ≠ 2) ∧
    (∃ (s : State), s.rd strB F.STR_BOOT_STATE = 2) :=
  ⟨⟨demo.wr glbB F.GLB_START_STAT_STEP 3, by decide +kernel⟩,
    ⟨demo.wr strB F.STR_BOOT_STATE 2, by decide +kernel⟩,
    ⟨demo.wr glbB F.GLB_START_STAT_STEP 3, by decide +kernel⟩,
    ⟨demo.wr strB F.STR_BOOT_STATE 2, by decide +kernel⟩⟩

/-- The premises of StarterCoreResetEndsCommands are met. -/
theorem met_StarterCoreResetEndsCommands :
    (∃ (s : State), s.rd strB F.STR_WDOG_LIMIT = 0) ∧
    (∃ (s : State), s.rd strB F.STR_WDOG_LIMIT ≠ 0) :=
  ⟨⟨(((on (cmd 0 []) demo).wr strB F.STR_WDOG_LIMIT 1).wr strB F.STR_WDOG_LIMIT 0), by decide +kernel⟩,
    ⟨(on (cmd 0 []) demo).wr strB F.STR_WDOG_LIMIT 1, by decide +kernel⟩⟩

/-- The premises of MspTransfers are met. -/
theorem met_MspTransfers :
    (∃ (s : State), s.mspReady = true) ∧
    (∃ (s : State), ∃ (l : List Byte), ∃ (pec : Option Byte), s.mspReady = true ∧ s.rd strB (F.STR_MBX_BUSY.ix 3) ≠ 1 ∧
      1 ≤ l.length ∧ l.length ≤ 128 ∧ s.pecOk ([0x10, BitVec.ofNat 8 l.length] ++ l) pec = true) ∧
    (∃ (s : State), ∃ (l : List Byte), ∃ (pec : Option Byte), s.mspReady = true ∧ s.rd strB (F.STR_MBX_BUSY.ix 3) ≠ 1 ∧
      1 ≤ l.length ∧ l.length ≤ 128 ∧ s.pecOk ([0x11, BitVec.ofNat 8 l.length] ++ l) pec = true) ∧
    (∃ (s : State), ∃ (l : List Byte), ∃ (pec : Option Byte), s.mspReady = true ∧
      (s.rd strB (F.STR_MBX_BUSY.ix 3) = 1 ∨ l.length = 0 ∨ 128 < l.length ∨ s.pecOk ([0x10,
      BitVec.ofNat 8 l.length] ++ l) pec = false)) ∧
    (∃ (s : State), ∃ (l : List Byte), ∃ (pec : Option Byte), s.mspReady = true ∧
      (s.rd strB (F.STR_MBX_BUSY.ix 3) = 1 ∨ l.length = 0 ∨ 128 < l.length ∨ s.pecOk ([0x11,
      BitVec.ofNat 8 l.length] ++ l) pec = false)) ∧
    (∃ (s : State), ∃ (pec : Option Byte), s.mspReady = true ∧ s.pecOk [0x12, 1] pec = true ∧
      s.rd strB (F.STR_MBX_BUSY.ix 3) ≠ 1) ∧
    (∃ (s : State), ∃ (pec : Option Byte), s.mspReady = true ∧ s.pecOk [0x12, 1] pec = true ∧
      s.rd strB (F.STR_MBX_BUSY.ix 3) = 1) ∧
    (∃ (s : State), ∃ (d : Byte) (pec : Option Byte), s.mspReady = true ∧ (d ≠ 1 ∨ s.pecOk [0x12, d] pec = false)) ∧
    (∃ (s : State), s.mspReady = false) ∧
    (∃ (s : State), s.mspReady = false) ∧
    (∃ (s : State), s.starter.msp = false) ∧
    (∃ (s : State), s.starter.msp = true) :=
  ⟨⟨demo.wr strB (F.STR_MBX_DONE.ix 3) 1, by decide +kernel⟩,
    ⟨demo, [0x50, 1, 2], none, by decide +kernel⟩,
    ⟨demo, [0x50, 1, 2], none, by decide +kernel⟩,
    ⟨demo, [], none, by decide +kernel⟩,
    ⟨demo, [], none, by decide +kernel⟩,
    ⟨demo, none, by decide +kernel⟩,
    ⟨(demo.wr strB (F.STR_MBX_BUSY.ix 3) 1), none, by decide +kernel⟩,
    ⟨{ demo with starter := { msp := true } }, 0, none, by decide +kernel⟩,
    ⟨demo.wr pcrB (F.PCR_RG_STAT_STATE.ix 0) 2, by decide +kernel⟩,
    ⟨demo.wr pcrB (F.PCR_RG_STAT_STATE.ix 0) 2, by decide +kernel⟩,
    ⟨demo.wr pcrB (F.PCR_RG_STAT_STATE.ix 0) 2, by decide +kernel⟩,
    ⟨{ demo with starter := { msp := true } }, by decide +kernel⟩⟩

/-- The premises of FloorsAreRecomputed are met. -/
theorem met_FloorsAreRecomputed :
    (∃ (s : State), s.flag glbB F.GLB_SC0_STAT_FLOOR_BUSY = false) ∧
    (∃ (s : State), s.flag glbB F.GLB_SC0_STAT_FLOOR_BUSY = true ∧ s.rom.regions.length ≤ 16) :=
  ⟨⟨((demo.wr glbB F.GLB_SC0_STAT_FLOOR_BUSY 1).wr glbB F.GLB_SC0_STAT_FLOOR_BUSY 0), by decide +kernel⟩,
    ⟨demo.wr glbB F.GLB_SC0_STAT_FLOOR_BUSY 1, by decide +kernel⟩⟩

/-- The premises of CommandPacketsQueueAndStart are met. -/
theorem met_CommandPacketsQueueAndStart :
    (∃ (s : State), ∃ (n : Nat), s.hasNi n = true ∧ (s.ni n).nextCmd = none) ∧
    (∃ (s : State), ∃ (n k : Nat), ∃ (p : Pk), ∃ (c : Cmd), ∃ (w : State),
      c = { id := 0, path := 2, src := p.hdr.src, tag := p.hdr.tag, gen := p.hdr.gen, bytes := p.got, carried := some p.got.length, t0 := s.clock } ∧
      w = (s.setNi n { s.ni n with inbox := (s.ni n).inbox.filter (fun j => j != k) }).dropPk n k ∧ s.hasNi n = true ∧
      (s.ni n).nextCmd = some k ∧ (s.ni n).pk k = some p ∧ s.authNode p.hdr.src = true ∧
      (s.cmdQ.filter (fun c => c.path == 2)).length < 32) ∧
    (∃ (s : State), ∃ (n k : Nat), ∃ (p : Pk), ∃ (c : Cmd), ∃ (w : State),
      c = { id := 0, path := 2, src := p.hdr.src, tag := p.hdr.tag, gen := p.hdr.gen, bytes := p.got, carried := some p.got.length, t0 := s.clock } ∧
      w = (s.setNi n { s.ni n with inbox := (s.ni n).inbox.filter (fun j => j != k) }).dropPk n k ∧ s.hasNi n = true ∧
      (s.ni n).nextCmd = some k ∧ (s.ni n).pk k = some p ∧ s.authNode p.hdr.src = false) ∧
    (∃ (s : State), ∃ (n k : Nat), ∃ (p : Pk), ∃ (c : Cmd), ∃ (w : State),
      c = { id := 0, path := 2, src := p.hdr.src, tag := p.hdr.tag, gen := p.hdr.gen, bytes := p.got, carried := some p.got.length, t0 := s.clock } ∧
      w = (s.setNi n { s.ni n with inbox := (s.ni n).inbox.filter (fun j => j != k) }).dropPk n k ∧ s.hasNi n = true ∧
      (s.ni n).nextCmd = some k ∧ (s.ni n).pk k = some p ∧ s.authNode p.hdr.src = true ∧
      32 ≤ (s.cmdQ.filter (fun c => c.path == 2)).length) ∧
    (∃ (s : State), ∃ (x : Nat), s.cmdQ.find? (fun c => c.id == x) = none) ∧
    (∃ (s : State), ∃ (x : Nat), s.cmdQ.find? (fun c => c.id == x) = none) ∧
    (∃ (s : State), ∃ (x st : Nat), ∃ (c : Cmd), st = s.startCheck { c with t0 := s.clock } ∧ st = 0 ∧
      s.cmdQ.find? (fun c => c.id == x) = some c ∧ s.cmdQ.any (fun d => d.sameStream c && decide (d.id < x)) = false ∧
      s.active.any (fun d => d.sameStream c && (c.fence || !d.begun)) = false ∧ s.active.length < 16 ∧
      (s.floorRun = true → c.op = 0)) ∧
    (∃ (s : State), ∃ (x st : Nat), ∃ (c : Cmd), st = s.startCheck { c with t0 := s.clock } ∧ st = 0 ∧
      s.cmdQ.find? (fun c => c.id == x) = some c ∧ s.cmdQ.any (fun d => d.sameStream c && decide (d.id < x)) = false ∧
      s.active.any (fun d => d.sameStream c && (c.fence || !d.begun)) = false ∧ s.active.length < 16 ∧
      (s.floorRun = true → c.op = 0)) ∧
    (∃ (s : State), ∃ (x st : Nat), ∃ (c : Cmd), st = s.startCheck { c with t0 := s.clock } ∧
      s.cmdQ.find? (fun c => c.id == x) = some c ∧ s.cmdQ.any (fun d => d.sameStream c && decide (d.id < x)) = false ∧
      s.active.any (fun d => d.sameStream c && (c.fence || !d.begun)) = false ∧ s.active.length < 16 ∧
      (s.floorRun = true → c.op = 0) ∧ st ≠ 0) ∧
    (∃ (s : State), ∃ (x st : Nat), ∃ (c : Cmd), st = s.startCheck { c with t0 := s.clock } ∧
      s.cmdQ.find? (fun c => c.id == x) = some c ∧
      (s.cmdQ.any (fun d => d.sameStream c && decide (d.id < x)) = true ∨ s.active.any (fun d => d.sameStream c && (c.fence || !d.begun)) = true ∨ 16 ≤ s.active.length ∨ s.floorRun = true ∧
      c.op ≠ 0)) :=
  ⟨⟨demo.wr pcrB (F.PCR_RG_STAT_STATE.ix 0) 2, 0, by decide +kernel⟩,
    ⟨(ni0 { demoNi with inbox := [4], pks := [(4, some { hdr := { ptype := 3, src := 1, len := 16 }, plane := 0, vc := 13, got := (cmd 0 []).bytes })] }).wr strB (F.STR_CMD_AUTH_MASK.ix 0) 2,
      0, 4, { hdr := { ptype := 3, src := 1, len := 16 }, plane := 0, vc := 13, got := (cmd 0 []).bytes }, _, _, rfl, rfl,
      by decide +kernel⟩,
    ⟨ni0 { demoNi with inbox := [4], pks := [(4, some { hdr := { ptype := 3, src := 1, len := 16 }, plane := 0, vc := 13, got := (cmd 0 []).bytes })] },
      0, 4, { hdr := { ptype := 3, src := 1, len := 16 }, plane := 0, vc := 13, got := (cmd 0 []).bytes }, _, _, rfl, rfl,
      by decide +kernel⟩,
    ⟨{ (ni0 { demoNi with inbox := [4], pks := [(4, some { hdr := { ptype := 3, src := 1, len := 16 }, plane := 0, vc := 13, got := (cmd 0 []).bytes })] }).wr strB (F.STR_CMD_AUTH_MASK.ix 0) 2 with cmdQ := List.replicate 32 { cmd 0 [] with path := 2 } },
      0, 4, { hdr := { ptype := 3, src := 1, len := 16 }, plane := 0, vc := 13, got := (cmd 0 []).bytes }, _, _, rfl, rfl,
      by decide +kernel⟩,
    ⟨demo.wr pcrB (F.PCR_RG_STAT_STATE.ix 0) 2, 0, by decide +kernel⟩,
    ⟨{ demo with cmdQ := [cmd 1 [], { cmd 1 [] with id := 2 }] }, 0, by decide +kernel⟩,
    ⟨{ demo with cmdQ := [cmd 0 []] }, 1, _, cmd 0 [], rfl, rfl, by decide +kernel⟩,
    ⟨{ demo.wr strB F.STR_BOOT_STATE 3 with cmdQ := [cmd 1 []] }, 1, _, cmd 1 [], rfl, rfl, by decide +kernel⟩,
    ⟨{ demo.wr strB F.STR_BOOT_STATE 1 with cmdQ := [cmd 1 []] }, 1, _, cmd 1 [], rfl, by decide +kernel⟩,
    ⟨{ demo with cmdQ := [cmd 1 [], { cmd 1 [] with id := 2 }] }, 2, _, { cmd 1 [] with id := 2 }, rfl, by decide +kernel⟩⟩

/-- The premises of OnlyPingIsAnsweredOutsideRun are met. -/
theorem met_OnlyPingIsAnsweredOutsideRun :
    (∃ (s : State), ∃ (x : Nat), ∃ (c : Cmd), s.rd strB F.STR_BOOT_STATE ≠ 3 ∧ s.cmdQ.find? (fun c => c.id == x) = some c ∧
      s.cmdQ.any (fun d => d.sameStream c && decide (d.id < x)) = false ∧
      s.active.any (fun d => d.sameStream c && (c.fence || !d.begun)) = false ∧ s.active.length < 16 ∧ s.floorRun = false ∧
      c.op ≠ 0) ∧
    (∃ (s : State), ∃ (x : Nat), ∃ (c : Cmd), s.rd strB F.STR_BOOT_STATE ≠ 3 ∧ s.cmdQ.find? (fun c => c.id == x) = some c ∧
      s.cmdQ.any (fun d => d.sameStream c && decide (d.id < x)) = false ∧
      s.active.any (fun d => d.sameStream c && (c.fence || !d.begun)) = false ∧ s.active.length < 16 ∧ s.floorRun = false ∧
      c.op = 0 ∧ c.len ≤ 240 ∧ (∀ k, c.carried = some k → k = 16 + c.len) ∧ bitAt (s.pathMask c.path) 0 = true ∧
      c.only [] = true ∧ c.begun = false ∧ s.cmd x = none) :=
  ⟨⟨{ demo.wr strB F.STR_BOOT_STATE 1 with cmdQ := [cmd 1 []] }, 1, cmd 1 [], by decide +kernel⟩,
    ⟨{ demo.wr strB F.STR_BOOT_STATE 1 with cmdQ := [cmd 0 []] }, 1, cmd 0 [], by decide +kernel⟩⟩

/-! ### Chapter 7 of the statements -/

/-- Router 1's time node, calibrated, with `n` errors of sum `sum` and a marker on its way that shows it `e` behind, in 1/256 ns. -/
def node1 (n : Nat) (sum : Int) (e : Nat) : Node :=
  { cal := true, n := n, sum := sum, load := false, base := 2 ^ 40, mark := some { time := 2 ^ 40 + 2 ^ 24 * e, inc := 9 } }

/-- The instance with a node at router 1. -/
def noded (v : Node) : State := { demo with time := { nodes := [(1, v)] } }

/-- The instance with Time from the source `src` and the Time Unit in state `st`. -/
def timed (src st : Nat) (t : TimeSt) : State := { (demo.wr timB F.TIM_CTL_SRC src).wr timB F.TIM_STAT_STATE st with time := { t with src := src } }

/-- No region of the small instance waits for anything. -/
theorem demo_quiet (t : TimeSt) (g : Nat) : (({ demo with time := t } : State).rg g).step = none
    ∧ (({ demo with time := t } : State).rg g).comb = false ∧ (({ demo with time := t } : State).rg g).goal = none
    ∧ (({ demo with time := t } : State).rg g).wake = 0 := by
  have e : ({ demo with time := t } : State).rgs = [(0, { held := false }), (1, { held := false })] := rfl
  unfold State.rg
  rw [e]
  unfold mget
  split
  · exact ⟨rfl, rfl, rfl, rfl⟩
  · unfold mget
    split <;> exact ⟨rfl, rfl, rfl, rfl⟩

/-- NI 0's operating gate list: one entry with MARK that lasts 10,000 ns, and pin 2 claimed for its markers. -/
def marking : State :=
  let s := (((((ni0 { demoNi with gateLive := true }).wr (niB 0) F.NI_GATE_CTL_EN 1).wr (niB 0) F.NI_GATE_CTL_MARK_EN 1).wr (niB 0)
    F.NI_GATE_CTL_MARK_PIN 2).wr (niB 0) F.NI_GATE_OPER_CYCLE_CYCLE 10000).wr (niB 0) F.NI_GATE_OPER_LEN_LEN 1
  ((s.setWord (niB 0 + 0x3800) 0x0000010F).setWord (niB 0 + 0x3804) 10000).setPin 2 3 0

/-- The premises of MarkerAdvancesFabricTime are met. -/
theorem met_MarkerAdvancesFabricTime :
    (∃ (s : State), s.time.carrier = false) ∧
    (∃ (s : State), (∀ p j, s.time.step = some p → p.placed = some j → 2 ≤ j) ∧ s.time.carrier = true) :=
  ⟨⟨timed 0 3 { carrier := false }, by decide +kernel⟩,
    ⟨{ demo with time := { ft := 5, tc := 1000, marks := 15 } }, (fun p j h => nomatch h), by decide +kernel⟩⟩

/-- The premises of MarkerArrivalTracksHop are met. -/
theorem met_MarkerArrivalTracksHop :
    (∃ (s : State), ∃ (r : Nat), (s.hasRtr 0 r = false ∨ (s.node r).mark = none)) ∧
    (∃ (s : State), ∃ (r x : Nat), ∃ (v : Node), ∃ (m : Marker), ∃ (b a e : Int), v = s.node r ∧
      b = ((((s.nodeFt r : Int) + (match m.step with
      | some (0, d) => d
      | _ => 0)).toNat : Nat) : Int) ∧ a = ((m.time + 2 ^ 24 * v.dly : Nat) : Int) - x ∧ e = (a - b) / 2 ^ 24 ∧
        s.hasRtr 0 r = true ∧ v.mark = some m ∧ isRoot s.rom r = false ∧ v.cal = true ∧ s.liveUp 10 r ≠ r) :=
  ⟨⟨timed 1 0 {}, 0, by decide +kernel⟩,
    ⟨noded (node1 3 7 5), 1, 0, _, { time := 2 ^ 40 + 2 ^ 24 * 5, inc := 9 }, _, _, _, rfl, rfl, rfl, rfl, by decide +kernel⟩⟩

/-- The premises of CalibrationRunsEnd are met. -/
theorem met_CalibrationRunsEnd :
    (∃ (s : State), ∃ (r d : Nat), ∃ (rtt : List (Option Nat)), (∀ g, (s.rg g).step = none ∧ (s.rg g).comb = false ∧
      (s.rg g).goal = none ∧ (s.rg g).wake = 0) ∧ s.hasRtr 0 r = true ∧ (s.node r).run = true ∧ hopDly rtt = some d ∧
      s.time.calCmds = [] ∧ s.time.freezes = [] ∧ s.pacer.cmds = [] ∧ s.pacer.inst = none) ∧
    (∃ (s : State), ∃ (r : Nat), ∃ (rtt : List (Option Nat)), s.hasRtr 0 r = true ∧ (s.node r).run = true ∧ hopDly rtt = none ∧
      (s.node r).fails < 3) ∧
    (∃ (s : State), ∃ (r : Nat), ∃ (rtt : List (Option Nat)), (∀ g, (s.rg g).step = none ∧ (s.rg g).comb = false ∧
      (s.rg g).goal = none ∧ (s.rg g).wake = 0) ∧ s.hasRtr 0 r = true ∧ (s.node r).run = true ∧ hopDly rtt = none ∧
      3 ≤ (s.node r).fails ∧ s.time.calCmds = [] ∧ s.time.freezes = [] ∧ s.pacer.cmds = [] ∧ s.pacer.inst = none) ∧
    (∃ (s : State), ∃ (r : Nat), (s.hasRtr 0 r = false ∨ (s.node r).run = false)) ∧
    (∃ (s : State), s.clock < s.time.calAt + 1250000 * atLeast1 (s.rd timB F.TIM_CAL_CFG_PERIOD)) ∧
    (∃ (s : State), s.time.calAt + 1250000 * atLeast1 (s.rd timB F.TIM_CAL_CFG_PERIOD) ≤ s.clock) :=
  ⟨⟨{ demo with time := { nodes := [(1, { run := true })] } }, 1, 384, List.replicate 256 (some 3000),
    (fun g => ⟨(demo_quiet _ g).1, (demo_quiet _ g).2.1, (demo_quiet _ g).2.2.1, (demo_quiet _ g).2.2.2⟩), by decide +kernel⟩,
    ⟨{ demo with time := { nodes := [(1, { run := true })] } }, 1, none :: List.replicate 255 (some 3000), by decide +kernel⟩,
    ⟨{ demo with time := { nodes := [(1, { run := true, fails := 3 })] } }, 1, none :: List.replicate 255 (some 3000),
      (fun g => ⟨(demo_quiet _ g).1, (demo_quiet _ g).2.1, (demo_quiet _ g).2.2.1, (demo_quiet _ g).2.2.2⟩), by decide +kernel⟩,
    ⟨{ demo with time := { nodes := [(1, { run := true })] } }, 0, by decide +kernel⟩,
    ⟨{ demo with time := { nodes := [(1, { run := true })] } }, by decide +kernel⟩,
    ⟨{ demo with clock := 2 ^ 60 }, by decide +kernel⟩⟩

/-- The premises of TimeStepApplies are met. -/
theorem met_TimeStepApplies :
    (∃ (s : State), (s.time.carrier = false ∨ s.time.step = none ∨ ∃ p, s.time.step = some p ∧ p.placed = none)) ∧
    (∃ (s : State), s.clock < s.time.stepAt + 12500) ∧
    (∃ (s : State), ∃ (p : TStep) (j : Nat), s.time.carrier = true ∧ s.time.step = some p ∧ p.placed = some j ∧ j ≤ 16) ∧
    (∃ (s : State), s.time.stepAt + 12500 ≤ s.clock) :=
  ⟨⟨{ demo with clock := 12500 }, by decide +kernel⟩,
    ⟨timed 1 0 {}, by decide +kernel⟩,
    ⟨{ demo with time := { ft := 1000, tc := 9, step := some { abs := false, v := 24, placed := some 1 } } },
      ({ abs := false, v := 24, placed := some 1 } : TStep), 1, by decide +kernel⟩,
    ⟨{ demo with clock := 12500 }, by decide +kernel⟩⟩

/-- The premises of PpsSamplesAndMisses are met. -/
theorem met_PpsSamplesAndMisses :
    (∃ (s : State), s.srcSel ≠ 1) ∧
    (∃ (s : State), s.timeSrc ≠ 1) ∧
    (∃ (s : State), ∃ (x : Nat), s.time.expect = some x ∧ ftNs s.time.ft ≤ x + s.rd timB F.TIM_PPS_CFG_WIN) ∧
    (∃ (s : State), s.time.expect = none) ∧
    (∃ (s : State), s.time.expect = none) ∧
    (∃ (s : State), ∃ (ns : BitVec 32), s.timeSrc = 1 ∧ s.srcSel = 1 ∧ ns.toNat < 1000000000 ∧ s.time.step = none) ∧
    (∃ (s : State), ∃ (ns : BitVec 32), s.timeSrc = 1 ∧ s.srcSel = 1 ∧ 1000000000 ≤ ns.toNat) ∧
    (∃ (s : State), ∃ (x : Nat), s.timeSrc = 1 ∧ s.srcSel = 1 ∧ s.time.expect = some x ∧
      x + s.rd timB F.TIM_PPS_CFG_WIN < ftNs s.time.ft) ∧
    (∃ (s : State), ∃ (rise : Bool), ∃ (t : Nat), ∃ (e : Int),
      e = (t : Int) - (BitVec.ofNat 32 (s.rd timB F.TIM_PPS_IN_DLY_DLY)).toInt - 256 * (s.time.expect.getD 0 : Nat) ∧
      s.timeSrc = 1 ∧ s.srcSel = 1 ∧ s.flag timB F.TIM_CTL_PPS_POL ≠ rise ∧ s.time.label = none ∧ s.time.expect ≠ none ∧
      s.rd timB F.TIM_STAT_STATE = 3 ∧ beyond e (s.rd timB F.TIM_PPS_CFG_WIN) = false ∧ s.rgState s.rom.homeRegion = 0) ∧
    (∃ (s : State), ∃ (rise : Bool), ∃ (t : Nat), ∃ (e : Int),
      e = (t : Int) - (BitVec.ofNat 32 (s.rd timB F.TIM_PPS_IN_DLY_DLY)).toInt - 256 * (s.time.expect.getD 0 : Nat) ∧
      s.timeSrc = 1 ∧ s.srcSel = 1 ∧ s.flag timB F.TIM_CTL_PPS_POL ≠ rise ∧ s.time.label = none ∧ s.time.expect ≠ none ∧
      s.rd timB F.TIM_STAT_STATE = 3 ∧ beyond e (s.rd timB F.TIM_PPS_CFG_WIN) = false ∧ s.rgState s.rom.homeRegion = 0) ∧
    (∃ (s : State), ∃ (rise : Bool), ∃ (t : Nat), ∃ (e : Int),
      e = (t : Int) - (BitVec.ofNat 32 (s.rd timB F.TIM_PPS_IN_DLY_DLY)).toInt - 256 * (s.time.expect.getD 0 : Nat) ∧
      s.timeSrc = 1 ∧ s.srcSel = 1 ∧ s.flag timB F.TIM_CTL_PPS_POL ≠ rise ∧ s.time.label = none ∧ s.time.expect ≠ none ∧
      (((s.rd timB F.TIM_STAT_STATE = 3 ∨ s.rd timB F.TIM_STAT_STATE = 4) ∧
      beyond e (s.rd timB F.TIM_PPS_CFG_WIN) = true) ∨ (s.rd timB F.TIM_STAT_STATE ≠ 3 ∧ s.rd timB F.TIM_STAT_STATE ≠ 4 ∧ ∃ c,
      s.time.lastClk = some c ∧ s.clock < c + 625000000))) ∧
    (∃ (s : State), ∃ (rise : Bool), ∃ (t v c : Nat), ∃ (e : Int),
      e = (t : Int) - (BitVec.ofNat 32 (s.rd timB F.TIM_PPS_IN_DLY_DLY)).toInt - 256 * (v : Nat) ∧ s.timeSrc = 1 ∧ s.srcSel = 1 ∧
      s.flag timB F.TIM_CTL_PPS_POL ≠ rise ∧ s.time.label = some (v, c) ∧ c ≤ s.clock ∧ s.rd timB F.TIM_STAT_STATE < 3 ∧
      s.time.lastClk = none ∧ s.rgState s.rom.homeRegion = 0) ∧
    (∃ (s : State), ∃ (rise : Bool), s.timeSrc = 1 ∧ s.srcSel = 1 ∧ s.flag timB F.TIM_CTL_PPS_POL = rise) ∧
    (∃ (s : State), s.timeSrc ≠ 1 ∧ s.srcSel ≠ 1) :=
  ⟨⟨timed 0 1 { slew := some 0 }, by decide +kernel⟩,
    ⟨{ demo with clock := 12500 }, by decide +kernel⟩,
    ⟨timed 1 3 { expect := some 7000000000 }, 7000000000, by decide +kernel⟩,
    ⟨timed 1 0 {}, by decide +kernel⟩,
    ⟨{ demo with clock := 12500 }, by decide +kernel⟩,
    ⟨timed 1 0 {}, 5, by decide +kernel⟩,
    ⟨timed 1 0 {}, 1000000000, by decide +kernel⟩,
    ⟨timed 1 3 { expect := some 7000000000, ft := 7000060000 * 2 ^ 32 }, 7000000000, by decide +kernel⟩,
    ⟨(timed 1 3 { expect := some 7000000000 }).wr timB F.TIM_CTL_PPS_POL 1, false, 1792000000100, _, rfl, by decide +kernel⟩,
    ⟨timed 1 3 { expect := some 7000000000 }, true, 1792000000100, _, rfl, by decide +kernel⟩,
    ⟨(timed 1 3 { expect := some 7000000000 }).wr timB F.TIM_CTL_PPS_POL 1, false, 0, _, rfl, by decide +kernel⟩,
    ⟨timed 1 1 { label := some (1000000000, 0) }, true, 1792000000100,
      (((timed 1 1 { label := some (1000000000, 0) }).time.label).getD (0, 0)).1,
      (((timed 1 1 { label := some (1000000000, 0) }).time.label).getD (0, 0)).2, _, rfl, by decide +kernel⟩,
    ⟨timed 1 3 { expect := some 7000000000 }, false, by decide +kernel⟩,
    ⟨timed 0 1 {}, by decide +kernel⟩⟩

/-- The premises of SpanTimeOffsets are met. -/
theorem met_SpanTimeOffsets :
    (∃ (s : State), ∃ (k : Nat), ∃ (t1 t2 t3 t4 : Nat),
      (s.hasSpan k = false ∨ s.rd (spB k) F.SP_TIME_CFG_ROLE ≠ 2 ∨ (s.lk (4 * k)).exch ≠ some (t1, t2, t3, t4))) ∧
    (∃ (s : State), ∃ (k : Nat), (s.hasSpan k = false ∨ s.rd (spB k) F.SP_TIME_CFG_ROLE ≠ 1 ∧
      s.rd (spB k) F.SP_TIME_CFG_ROLE ≠ 2)) ∧
    (∃ (s : State), ∃ (k : Nat), ∃ (sum : Int), ∃ (n skip : Nat), s.hasSpan k = true ∧ mget (fun _ => ((0 : Int), (0 : Nat),
      (0 : Nat))) s.time.spanO k = (sum, n, skip) ∧ s.rd (spB k) F.SP_TIME_CFG_ROLE = 1) ∧
    (∃ (s : State), ∃ (k : Nat), ∃ (sum : Int), ∃ (n skip : Nat), ∃ (t1 t2 t3 t4 : Nat), s.hasSpan k = true ∧
      mget (fun _ => ((0 : Int), (0 : Nat), (0 : Nat))) s.time.spanO k = (sum, n, skip) ∧ s.rd (spB k) F.SP_TIME_CFG_ROLE = 2 ∧
      0 < skip ∧ (s.lk (4 * k)).exch = some (t1, t2, t3, t4)) ∧
    (∃ (s : State), ∃ (k : Nat), ∃ (sum : Int), ∃ (n : Nat), ∃ (t1 t2 t3 t4 : Nat), s.hasSpan k = true ∧
      s.rd (spB k) F.SP_TIME_CFG_ROLE = 2 ∧ mget (fun _ => ((0 : Int), (0 : Nat), (0 : Nat))) s.time.spanO k = (sum, n, 0) ∧
      (s.lk (4 * k)).exch = some (t1, t2, t3, t4)) ∧
    (∃ (s : State), ∃ (k : Nat), ∃ (sum : Int), ∃ (n : Nat), ∃ (v : State),
      v = s.updTime (fun t => { t with spanO := mset (fun _ => ((0 : Int), (0 : Nat), (0 : Nat))) t.spanO k (0, 0, 0), spanMiss := (if n = 0 then [k] else []) ++ t.spanMiss.filter (fun j => j != k) }) ∧
      s.hasSpan k = true ∧ s.rd (spB k) F.SP_TIME_CFG_ROLE = 2 ∧ mget (fun _ => ((0 : Int), (0 : Nat),
      (0 : Nat))) s.time.spanO k = (sum, n, 0) ∧ n ≠ 0 ∧ s.rd timB F.TIM_CTL_SPAN_PORT ≠ k) ∧
    (∃ (s : State), ∃ (k : Nat), ∃ (sum : Int), ∃ (n : Nat), ∃ (v : State),
      v = s.updTime (fun t => { t with spanO := mset (fun _ => ((0 : Int), (0 : Nat), (0 : Nat))) t.spanO k (0, 0, 0), spanMiss := (if n = 0 then [k] else []) ++ t.spanMiss.filter (fun j => j != k) }) ∧
      s.hasSpan k = true ∧ s.rd (spB k) F.SP_TIME_CFG_ROLE = 2 ∧ mget (fun _ => ((0 : Int), (0 : Nat),
      (0 : Nat))) s.time.spanO k = (sum, n, 0) ∧ n ≠ 0 ∧ s.timeSrc = 2 ∧ s.srcSel = 2 ∧ s.rd timB F.TIM_CTL_SPAN_PORT = k) ∧
    (∃ (s : State), ∃ (k : Nat), ∃ (sum : Int), ∃ (n : Nat), ∃ (v : State),
      v = s.updTime (fun t => { t with spanO := mset (fun _ => ((0 : Int), (0 : Nat), (0 : Nat))) t.spanO k (0, 0, 0), spanMiss := (if n = 0 then [k] else []) ++ t.spanMiss.filter (fun j => j != k) }) ∧
      s.hasSpan k = true ∧ s.rd (spB k) F.SP_TIME_CFG_ROLE = 2 ∧ mget (fun _ => ((0 : Int), (0 : Nat),
      (0 : Nat))) s.time.spanO k = (sum, n, 0) ∧ n = 0 ∧ s.timeSrc = 2 ∧ s.srcSel = 2 ∧ s.rd timB F.TIM_CTL_SPAN_PORT = k) :=
  ⟨⟨{ (demo.wr (spB 0) F.SP_TIME_CFG_ROLE 2).wr timB F.TIM_CTL_SRC 2 with time := { src := 2 } }, 0, 0, 0, 0, 0,
    by decide +kernel⟩,
    ⟨(({ (demo.wr (spB 0) F.SP_TIME_CFG_ROLE 2).wr timB F.TIM_CTL_SRC 2 with time := { src := 2 } }).wr (spB 0) F.SP_TIME_CFG_ROLE (2 + 1)),
      0, by decide +kernel⟩,
    ⟨(({ (demo.wr (spB 0) F.SP_TIME_CFG_ROLE 2).wr timB F.TIM_CTL_SRC 2 with time := { src := 2 } }).wr (spB 0) F.SP_TIME_CFG_ROLE 1),
      0, 0, 0, 0, by decide +kernel⟩,
    ⟨{ demo.wr (spB 0) F.SP_TIME_CFG_ROLE 2 with links := [(0, { exch := some (0, 700, 1000, 1500) })], time := { spanO := [(0, (-900, 3, 2))] } },
      0, -900, 3, 2,
      (((({ demo.wr (spB 0) F.SP_TIME_CFG_ROLE 2 with links := [(0, { exch := some (0, 700, 1000, 1500) })], time := { spanO := [(0, (-900, 3, 2))] } }).lk (4 * 0)).exch).getD (0,
      0, 0, 0)).1,
      (((({ demo.wr (spB 0) F.SP_TIME_CFG_ROLE 2 with links := [(0, { exch := some (0, 700, 1000, 1500) })], time := { spanO := [(0, (-900, 3, 2))] } }).lk (4 * 0)).exch).getD (0,
      0, 0, 0)).2.1,
      (((({ demo.wr (spB 0) F.SP_TIME_CFG_ROLE 2 with links := [(0, { exch := some (0, 700, 1000, 1500) })], time := { spanO := [(0, (-900, 3, 2))] } }).lk (4 * 0)).exch).getD (0,
      0, 0, 0)).2.2.1,
      (((({ demo.wr (spB 0) F.SP_TIME_CFG_ROLE 2 with links := [(0, { exch := some (0, 700, 1000, 1500) })], time := { spanO := [(0, (-900, 3, 2))] } }).lk (4 * 0)).exch).getD (0,
      0, 0, 0)).2.2.2, by decide +kernel⟩,
    ⟨({ demo.wr (spB 0) F.SP_TIME_CFG_ROLE 2 with links := [(0, { exch := some (0, 700, 1000, 1500) })] }), 0, 0, 0,
      ((((({ demo.wr (spB 0) F.SP_TIME_CFG_ROLE 2 with links := [(0, { exch := some (0, 700, 1000, 1500) })] })).lk (4 * 0)).exch).getD (0,
      0, 0, 0)).1,
      ((((({ demo.wr (spB 0) F.SP_TIME_CFG_ROLE 2 with links := [(0, { exch := some (0, 700, 1000, 1500) })] })).lk (4 * 0)).exch).getD (0,
      0, 0, 0)).2.1,
      ((((({ demo.wr (spB 0) F.SP_TIME_CFG_ROLE 2 with links := [(0, { exch := some (0, 700, 1000, 1500) })] })).lk (4 * 0)).exch).getD (0,
      0, 0, 0)).2.2.1,
      ((((({ demo.wr (spB 0) F.SP_TIME_CFG_ROLE 2 with links := [(0, { exch := some (0, 700, 1000, 1500) })] })).lk (4 * 0)).exch).getD (0,
      0, 0, 0)).2.2.2, by decide +kernel⟩,
    ⟨{ (demo.wr (spB 0) F.SP_TIME_CFG_ROLE 2).wr timB F.TIM_CTL_SPAN_PORT 1 with time := { spanO := [(0, (-900, 3, 0))] } }, 0,
      -900, 3, _, rfl, by decide +kernel⟩,
    ⟨{ (demo.wr (spB 0) F.SP_TIME_CFG_ROLE 2).wr timB F.TIM_CTL_SRC 2 with time := { spanO := [(0, (-900, 3, 0))], src := 2 } },
      0, -900, 3, _, rfl, by decide +kernel⟩,
    ⟨{ (demo.wr (spB 0) F.SP_TIME_CFG_ROLE 2).wr timB F.TIM_CTL_SRC 2 with time := { src := 2 } }, 0, 0, 0, _, rfl,
      by decide +kernel⟩⟩

/-- The premises of HoldoverCarrierAndSlew are met. -/
theorem met_HoldoverCarrierAndSlew :
    (∃ (s : State), s.rd timB F.TIM_STAT_STATE = 4 ∧ 1000 * atLeast1 (s.rd timB F.TIM_HOLD_LIM) < s.holdMs) ∧
    (∃ (s : State), (s.rd timB F.TIM_STAT_STATE ≠ 4 ∨ s.holdMs ≤ 1000 * atLeast1 (s.rd timB F.TIM_HOLD_LIM))) ∧
    (∃ (s : State), s.time.carrier = false) ∧
    (∃ (s : State), s.time.carrier = true) ∧
    (∃ (s : State), s.time.slew ≠ some 0) ∧
    (∃ (s : State), s.time.carrier = true) ∧
    (∃ (s : State), s.time.carrier = true) ∧
    (∃ (s : State), s.time.carrier = false) ∧
    (∃ (s : State), s.time.slew = some 0) :=
  ⟨⟨{ timed 0 4 { holdAt := some 0 } with clock := 2 ^ 60 }, by decide +kernel⟩,
    ⟨timed 0 1 { slew := some 0 }, by decide +kernel⟩,
    ⟨timed 0 3 { carrier := false }, by decide +kernel⟩,
    ⟨timed 0 1 { slew := some 0 }, by decide +kernel⟩,
    ⟨{ timed 0 4 { holdAt := some 0 } with clock := 2 ^ 60 }, by decide +kernel⟩,
    ⟨demo, by decide +kernel⟩,
    ⟨demo, by decide +kernel⟩,
    ⟨timed 0 3 { carrier := false }, by decide +kernel⟩,
    ⟨timed 0 1 { slew := some 0 }, by decide +kernel⟩⟩

/-- The premises of TimeCommandsAct are met. -/
theorem met_TimeCommandsAct :
    (∃ (s : State), ∃ (x : Nat), ∃ (c : Cmd), s.Issued x 0x20 [(0, 48), (48, 32), (80, 2)] c ∧
      (1000000000 ≤ c.p 48 32 ∨ 2 ≤ c.p 80 2)) ∧
    (∃ (s : State), ∃ (x : Nat), ∃ (c : Cmd), s.Issued x 0x20 [(0, 48), (48, 32), (80, 2)] c ∧ c.p 48 32 < 1000000000 ∧
      c.p 80 2 < 2 ∧ (c.p 80 2 = 0 ∧ s.srcSel ≠ 1 ∨ s.srcSel = 2)) ∧
    (∃ (s : State), ∃ (x : Nat), ∃ (c : Cmd), s.Issued x 0x20 [(0, 48), (48, 32), (80, 2)] c ∧ c.p 48 32 < 1000000000 ∧
      c.p 80 2 < 2 ∧ (c.p 80 2 = 0 → s.srcSel = 1) ∧ s.srcSel ≠ 2 ∧ s.time.step ≠ none) ∧
    (∃ (s : State), ∃ (x : Nat), ∃ (c : Cmd), s.Issued x 0x21 [(0, 64), (64, 2)] c ∧ s.rd timB F.TIM_STAT_STATE ≠ 1) ∧
    (∃ (s : State), ∃ (x : Nat), ∃ (c : Cmd), s.Issued x 0x21 [(0, 64), (64, 2)] c ∧ s.rd timB F.TIM_STAT_STATE = 1 ∧
      2 ≤ c.p 64 2) ∧
    (∃ (s : State), ∃ (x : Nat), ∃ (c : Cmd), s.Issued x 0x21 [(0, 64), (64, 2)] c ∧ s.rd timB F.TIM_STAT_STATE = 1 ∧
      c.p 64 2 < 2 ∧ (s.time.step ≠ none ∨ s.time.slew ≠ none)) ∧
    (∃ (s : State), ∃ (x : Nat), ∃ (c : Cmd), s.Issued x 0x22 [] c ∧
      (s.time.freezes ≠ [] ∨ s.time.nodes.any (fun e => e.2.frozen) = true)) ∧
    (∃ (s : State), ∃ (x : Nat), ∃ (c : Cmd), s.Issued x 0x20 [(0, 48), (48, 32), (80, 2)] c ∧ c.p 48 32 < 1000000000 ∧
      s.time.step = none ∧ c.p 80 2 = 0 ∧ s.srcSel = 1) ∧
    (∃ (s : State), ∃ (x : Nat), ∃ (c : Cmd), s.Issued x 0x20 [(0, 48), (48, 32), (80, 2)] c ∧ c.p 48 32 < 1000000000 ∧
      s.time.step = none ∧ c.p 80 2 = 1 ∧ s.srcSel ≠ 2) ∧
    (∃ (s : State), ∃ (x : Nat), ∃ (c : Cmd), ∃ (off : Int), off = (BitVec.ofNat 64 (c.p 0 64)).toInt * 2 ^ 24 ∧
      s.Issued x 0x21 [(0, 64), (64, 2)] c ∧ s.rd timB F.TIM_STAT_STATE = 1 ∧ s.time.step = none ∧ s.time.slew = none ∧
      c.p 64 2 = 1) ∧
    (∃ (s : State), ∃ (x : Nat), ∃ (c : Cmd), ∃ (off : Int), off = (BitVec.ofNat 64 (c.p 0 64)).toInt * 2 ^ 24 ∧
      s.Issued x 0x21 [(0, 64), (64, 2)] c ∧ s.rd timB F.TIM_STAT_STATE = 1 ∧ s.time.step = none ∧ s.time.slew = none ∧
      c.p 64 2 = 0) ∧
    (∃ (s : State), ∃ (x : Nat), ∃ (c : Cmd), s.Issued x 0x22 [] c ∧ s.time.freezes = [] ∧
      s.time.nodes.any (fun e => e.2.frozen) = false) ∧
    (∃ (s : State), ∃ (x : Nat), ∃ (c : Cmd), s.Issued x 0x23 [] c) :=
  ⟨⟨on (cmd 0x20 (leBytes 6 100 ++ leBytes 4 1000000000 ++ [0])) (demo), 1,
    cmd 0x20 (leBytes 6 100 ++ leBytes 4 1000000000 ++ [0]), by decide +kernel⟩,
    ⟨on (cmd 0x20 (leBytes 6 100 ++ leBytes 4 5 ++ [1])) (timed 2 1 {}), 1, cmd 0x20 (leBytes 6 100 ++ leBytes 4 5 ++ [1]),
      by decide +kernel⟩,
    ⟨on (cmd 0x20 (leBytes 6 100 ++ leBytes 4 5 ++ [0])) (timed 1 1 { step := some { abs := true, v := 5 } }), 1,
      cmd 0x20 (leBytes 6 100 ++ leBytes 4 5 ++ [0]), by decide +kernel⟩,
    ⟨((on (cmd 0x21 (leBytes 8 512 ++ [0])) (timed 0 1 {})).wr timB F.TIM_STAT_STATE (1 + 1)), 1,
      cmd 0x21 (leBytes 8 512 ++ [0]), by decide +kernel⟩,
    ⟨on (cmd 0x21 (leBytes 8 512 ++ [2])) (timed 0 1 {}), 1, cmd 0x21 (leBytes 8 512 ++ [2]), by decide +kernel⟩,
    ⟨on (cmd 0x21 (leBytes 8 512 ++ [0])) (timed 0 1 { slew := some 5 }), 1, cmd 0x21 (leBytes 8 512 ++ [0]), by decide +kernel⟩,
    ⟨on (cmd 0x22 []) ({ demo with time := { freezes := [{ g := 0, why := 0, left := 1 }] } }), 1, cmd 0x22 [],
      by decide +kernel⟩,
    ⟨on (cmd 0x20 (leBytes 6 100 ++ leBytes 4 5 ++ [0])) (timed 1 3 {}), 1, cmd 0x20 (leBytes 6 100 ++ leBytes 4 5 ++ [0]),
      by decide +kernel⟩,
    ⟨on (cmd 0x20 (leBytes 6 100 ++ leBytes 4 5 ++ [1])) (timed 0 1 {}), 1, cmd 0x20 (leBytes 6 100 ++ leBytes 4 5 ++ [1]),
      by decide +kernel⟩,
    ⟨on (cmd 0x21 (leBytes 8 512 ++ [1])) (timed 0 1 {}), 1, cmd 0x21 (leBytes 8 512 ++ [1]), _, rfl, by decide +kernel⟩,
    ⟨on (cmd 0x21 (leBytes 8 512 ++ [0])) (timed 0 1 {}), 1, cmd 0x21 (leBytes 8 512 ++ [0]), _, rfl, by decide +kernel⟩,
    ⟨on (cmd 0x22 []) demo, 1, cmd 0x22 [], by decide +kernel⟩,
    ⟨on (cmd 0x23 []) demo, 1, cmd 0x23 [], by decide +kernel⟩⟩

/-- The premises of TimePinsPulseAndCapture are met. -/
theorem met_TimePinsPulseAndCapture :
    (∃ (s : State), ∃ (up : Bool), up = (s.ppsLevel && s.flag timB F.TIM_CTL_PPS_OUT_EN && s.rootOk)) ∧
    (∃ (s : State), ∃ (up : Bool), up = (s.ppsLevel && s.flag timB F.TIM_CTL_PPS_OUT_EN && s.rootOk)) ∧
    (∃ (s : State), ∃ (up : Bool), up ≠ (s.ppsLevel && s.flag timB F.TIM_CTL_PPS_OUT_EN && s.rootOk)) ∧
    (∃ (s : State), ∃ (k : Nat), (4 ≤ k ∨ s.pinOwner k ≠ 1 ∨ s.rootOk = false ∨ s.syncDue k = false ∨ s.syncMay k = false)) ∧
    (∃ (s : State), ∃ (k : Nat), (4 ≤ k ∨ (mget (fun _ => []) s.time.markq k : List Nat) = [] ∨ ∃ h r,
      (mget (fun _ => []) s.time.markq k : List Nat) = h :: r ∧ s.wholeNs s.rootStamp < h)) ∧
    (∃ (s : State), ∃ (k : Nat), k < 4 ∧ s.pinOwner k = 1 ∧ s.rootOk = true ∧ s.syncDue k = true ∧ s.syncMay k = true) ∧
    (∃ (s : State), ∃ (k : Nat), ∃ (rise : Bool), k < 4 ∧ ((s.pinOwner k = 2 ∧ s.pfEdge k rise = true ∧ s.time.step = none ∧
      mget (fun _ => none) s.time.pinIn k = none) ∨ s.pinOwner k = 4)) ∧
    (∃ (s : State), ∃ (k : Nat), ∃ (rise : Bool), k < 4 ∧ ((s.pinOwner k = 2 ∧ s.pfEdge k rise = true ∧ s.time.step = none ∧
      mget (fun _ => none) s.time.pinIn k = none) ∨ s.pinOwner k = 4)) ∧
    (∃ (s : State), ∃ (k : Nat), ∃ (a : Nat) (r : List Nat), k < 4 ∧ (mget (fun _ => []) s.time.markq k : List Nat) = a :: r ∧
      a ≤ s.wholeNs s.rootStamp ∧ s.pinOwner k = 3) ∧
    (∃ (s : State), ∃ (n t : Nat),
      (s.hasNi n = false ∨ (s.flag (niB n) F.NI_GATE_CTL_MARK_EN && s.pinOwner (s.rd (niB n) F.NI_GATE_CTL_MARK_PIN) == 3 && s.pinNi (s.rd (niB n) F.NI_GATE_CTL_MARK_PIN) == n && s.marksAt n t) = false ∨ s.wholeNs s.rootStamp + 2000 < t)) ∧
    (∃ (s : State), ∃ (n t : Nat),
      (s.hasNi n = false ∨ (s.flag (niB n) F.NI_GATE_CTL_MARK_EN && s.pinOwner (s.rd (niB n) F.NI_GATE_CTL_MARK_PIN) == 3 && s.pinNi (s.rd (niB n) F.NI_GATE_CTL_MARK_PIN) == n && s.marksAt n t) = false ∨ s.wholeNs s.rootStamp + 2000 < t)) ∧
    (∃ (s : State), ∃ (n k t : Nat), k = s.rd (niB n) F.NI_GATE_CTL_MARK_PIN ∧ s.hasNi n = true ∧
      (s.flag (niB n) F.NI_GATE_CTL_MARK_EN && s.pinOwner k == 3 && s.pinNi k == n && s.marksAt n t) = true ∧
      t < s.wholeNs s.rootStamp + 1000) ∧
    (∃ (s : State), ∃ (n k t : Nat), k = s.rd (niB n) F.NI_GATE_CTL_MARK_PIN ∧ s.hasNi n = true ∧
      (s.flag (niB n) F.NI_GATE_CTL_MARK_EN && s.pinOwner k == 3 && s.pinNi k == n && s.marksAt n t) = true ∧
      t < s.wholeNs s.rootStamp + 1000) ∧
    (∃ (s : State), ∃ (n k t : Nat), k = s.rd (niB n) F.NI_GATE_CTL_MARK_PIN ∧ s.hasNi n = true ∧
      (s.flag (niB n) F.NI_GATE_CTL_MARK_EN && s.pinOwner k == 3 && s.pinNi k == n && s.marksAt n t) = true ∧
      s.wholeNs s.rootStamp + 1000 ≤ t ∧ t ≤ s.wholeNs s.rootStamp + 2000 ∧
      (∃ u ∈ (mget (fun _ => []) s.time.markq k : List Nat), u < t + 100 ∧ t < u + 100)) ∧
    (∃ (s : State), ∃ (n k t : Nat), k = s.rd (niB n) F.NI_GATE_CTL_MARK_PIN ∧ s.hasNi n = true ∧
      (s.flag (niB n) F.NI_GATE_CTL_MARK_EN && s.pinOwner k == 3 && s.pinNi k == n && s.marksAt n t) = true ∧
      s.wholeNs s.rootStamp + 1000 ≤ t ∧ t ≤ s.wholeNs s.rootStamp + 2000 ∧
      16 ≤ (mget (fun _ => []) s.time.markq k : List Nat).length ∧ (∀ u ∈ (mget (fun _ => []) s.time.markq k : List Nat),
      t + 100 ≤ u ∨ u + 100 ≤ t)) ∧
    (∃ (s : State), ∃ (n k t : Nat), k = s.rd (niB n) F.NI_GATE_CTL_MARK_PIN ∧ s.hasNi n = true ∧
      (s.flag (niB n) F.NI_GATE_CTL_MARK_EN && s.pinOwner k == 3 && s.pinNi k == n && s.marksAt n t) = true ∧
      s.wholeNs s.rootStamp + 1000 ≤ t ∧ t ≤ s.wholeNs s.rootStamp + 2000 ∧
      (mget (fun _ => []) s.time.markq k : List Nat).length < 16 ∧ (∀ u ∈ (mget (fun _ => []) s.time.markq k : List Nat),
      t + 100 ≤ u ∨ u + 100 ≤ t)) ∧
    (∃ (s : State), ∃ (n k t : Nat), k = s.rd (niB n) F.NI_GATE_CTL_MARK_PIN ∧ s.hasNi n = true ∧
      (s.flag (niB n) F.NI_GATE_CTL_MARK_EN && s.pinOwner k == 3 && s.pinNi k == n && s.marksAt n t) = true ∧
      s.wholeNs s.rootStamp + 1000 ≤ t ∧ t ≤ s.wholeNs s.rootStamp + 2000 ∧
      (mget (fun _ => []) s.time.markq k : List Nat).length < 16 ∧ (∀ u ∈ (mget (fun _ => []) s.time.markq k : List Nat),
      t + 100 ≤ u ∨ u + 100 ≤ t)) ∧
    (∃ (s : State), ∃ (k : Nat) (e : PinEdge), (4 ≤ k ∨ s.pinOwner k ≠ 4 ∧
      (s.pinOwner k ≠ 2 ∨ s.time.step ≠ none ∨ s.pfEdge k e.rise = false ∨ mget (fun _ => none) s.time.pinIn k ≠ none))) :=
  ⟨⟨demo, _, rfl⟩,
    ⟨{ ((demo.wr timB F.TIM_CTL_PPS_OUT_EN 1).wr timB F.TIM_STAT_VALID 1).wr timB F.TIM_PPS_CFG_OUT_W 1 with time := { ft := 2 ^ 32 * 1000000000 } },
      _, rfl⟩,
    ⟨{ marking with time := { ft := 2 ^ 32 * 19001 } }, true, by decide +kernel⟩,
    ⟨demo, 0, by decide +kernel⟩,
    ⟨{ demo.setPin 3 3 0 with time := { ft := 4 * 2 ^ 32, markq := [(3, [5, 200])] } }, 3, .inr (.inr ⟨5, [200],
      by decide +kernel, by decide +kernel⟩)⟩,
    ⟨(demo.setPin 3 1 0).wr timB F.TIM_STAT_VALID 1, 3, by decide +kernel⟩,
    ⟨{ (demo.setPin 0 2 0).wr pfB (F.PF_SLOT0_STATE.ix 1) 1 with pfs := [(1, { held := true, pin := 0, fall := true })] }, 0,
      false, by decide +kernel⟩,
    ⟨demo.setPin 3 4 0, 3, true, by decide +kernel⟩,
    ⟨{ demo.setPin 3 3 0 with time := { ft := 5 * 2 ^ 32, markq := [(3, [5, 200])] } }, 3, 5, [200], by decide +kernel⟩,
    ⟨{ marking with time := { ft := 2 ^ 32 * 19001 } }, 0, 1, by decide +kernel⟩,
    ⟨{ marking with time := { ft := 2 ^ 32 * 19000, markq := [(0, [20050]), (2, [20050])] } }, 0, 1, by decide +kernel⟩,
    ⟨{ marking with time := { ft := 2 ^ 32 * 19001 } }, 0, _, 20000, rfl, by decide +kernel⟩,
    ⟨{ marking with time := { ft := 2 ^ 32 * 19000, markq := [(2, List.replicate 16 1)] } }, 0, _, 0, rfl, by decide +kernel⟩,
    ⟨{ marking with time := { ft := 2 ^ 32 * 19000, markq := [(0, [20050]), (2, [20050])] } }, 0, _, 20000, rfl,
      by decide +kernel⟩,
    ⟨{ marking with time := { ft := 2 ^ 32 * 19000, markq := [(2, List.replicate 16 1)] } }, 0, _, 20000, rfl, by decide +kernel⟩,
    ⟨{ marking with time := { ft := 2 ^ 32 * 19000 } }, 0, _, 20000, rfl, by decide +kernel⟩,
    ⟨{ marking with time := { ft := 2 ^ 32 * 18000, markq := [(2, [20100])] } }, 0, _, 20000, rfl, by decide +kernel⟩,
    ⟨demo, 4, ⟨true, 0⟩, by decide +kernel⟩⟩

/-! ### Chapter 8 of the statements -/

/-- Region `g` of the small instance in state `st` with the Pacer holding `r` for it. -/
def region (g st : Nat) (r : Rg) (s : State) : State := { s.wr pcrB (F.PCR_RG_STAT_STATE.ix g) st with rgs := mset (fun _ => {}) s.rgs g r }

/-- A step of region 0 to 1,000 MHz. -/
def step0 (ph : Nat) (todo : List Bool) : DStep := { cmd := 1, mhz := 1000, mv := 800, oldMhz := 2400, oldMv := 800, todo := todo, ph := ph }

/-- A packet that queue 2 of NI 0 holds for region 1. -/
def heldPkt : Qp := { ser := 1, ptype := 0, op := 0, vn := 0, sc := 2, e := 1, dest := 1, len := 8, isReq := true, hold := some 0 }

/-- NI 0 holds that packet. -/
def holding : State := ni0 { demoNi with qs := [(2, { cls := 2, pkts := [heldPkt] })], act := [[], [], [2], []] }

/-- Region 1 with every credit home. -/
def credited : State :=
  [Port.ni 0 1, .ni 1 1, .rtr 0 1 0, .rtr 1 1 0, .rtr 0 0 1, .rtr 1 0 1].foldl
    (fun a o => a.setPort o { loaded := true, cred := List.replicate 16 4 }) demo

/-- The premises of PacerRegisterCommands are met. -/
theorem met_PacerRegisterCommands :
    (∃ (s : State), ∃ (x : Nat), ∃ (c : Cmd), s.Issued x 0x52 [] c) ∧
    (∃ (s : State), ∃ (x : Nat), ∃ (c : Cmd), s.Issued x 0x53 [(0, 16), (32, 20)] c ∧ c.p 0 16 ≠ 0) ∧
    (∃ (s : State), ∃ (x : Nat), ∃ (c : Cmd), s.Issued x 0x53 [(0, 16), (32, 20)] c ∧ c.p 0 16 = 0) ∧
    (∃ (s : State), ∃ (x : Nat), ∃ (c : Cmd), s.Issued x 0x54 [(0, 4), (8, 3)] c ∧ s.hasRegion (c.p 0 4) = false) ∧
    (∃ (s : State), ∃ (x : Nat), ∃ (c : Cmd), s.Issued x 0x54 [(0, 4), (8, 3)] c ∧ s.hasRegion (c.p 0 4) = true) ∧
    (∃ (s : State), ∃ (x : Nat), ∃ (c : Cmd), s.Issued x 0x55 [(0, 4), (16, 16)] c) :=
  ⟨⟨on (cmd 0x52 []) demo, 1, cmd 0x52 [], by decide +kernel⟩,
    ⟨on (cmd 0x53 [1, 0, 0, 0, 2]) demo, 1, cmd 0x53 [1, 0, 0, 0, 2], by decide +kernel⟩,
    ⟨on (cmd 0x53 [0, 0, 0, 0, 2]) demo, 1, cmd 0x53 [0, 0, 0, 0, 2], by decide +kernel⟩,
    ⟨on (cmd 0x54 [2, 7]) demo, 1, cmd 0x54 [2, 7], by decide +kernel⟩,
    ⟨on (cmd 0x54 [1, 7]) demo, 1, cmd 0x54 [1, 7], by decide +kernel⟩,
    ⟨on (cmd 0x55 [15, 0, 3]) demo, 1, cmd 0x55 [15, 0, 3], by decide +kernel⟩⟩

/-- The premises of PwrStateStartsRegions are met. -/
theorem met_PwrStateStartsRegions :
    (∃ (s : State), ∃ (x st mask : Nat), ∃ (inst : Bool), ∃ (c : Cmd), ∃ (l : List Nat), st = c.p 17 3 ∧ mask = c.p 0 16 ∧
      inst = (c.p 16 1 == 1) ∧ l = (s.begin x).pwrMoves inst mask st ∧ inst = false ∧ s.Issued x 0x50 [(0, 16), (16, 1), (17,
      3)] c ∧ st ≠ 0) ∧
    (∃ (s : State), ∃ (x st mask : Nat), ∃ (inst : Bool), ∃ (c : Cmd), ∃ (l : List Nat), ∃ (g : Nat), st = c.p 17 3 ∧
      mask = c.p 0 16 ∧ inst = (c.p 16 1 == 1) ∧ l = (s.begin x).pwrMoves inst mask st ∧ s.Issued x 0x50 [(0, 16), (16, 1), (17,
      3)] c ∧ g ∈ l) ∧
    (∃ (s : State), ∃ (x st mask : Nat), ∃ (inst : Bool), ∃ (c : Cmd), ∃ (l : List Nat), ∃ (pins : Nat), st = c.p 17 3 ∧
      mask = c.p 0 16 ∧ inst = (c.p 16 1 == 1) ∧ l = (s.begin x).pwrMoves inst mask st ∧ s.Issued x 0x50 [(0, 16), (16, 1), (17,
      3)] c ∧ (s.begin x).pwrRefusal inst mask st l = (0x0D, pins)) ∧
    (∃ (s : State), ∃ (x st mask : Nat), ∃ (inst : Bool), ∃ (c : Cmd), ∃ (l : List Nat), ∃ (e : Nat) (pins : Nat),
      st = c.p 17 3 ∧ mask = c.p 0 16 ∧ inst = (c.p 16 1 == 1) ∧ l = (s.begin x).pwrMoves inst mask st ∧ s.Issued x 0x50 [(0,
      16), (16, 1), (17, 3)] c ∧ (s.begin x).pwrRefusal inst mask st l = (e, pins) ∧ e ≠ 0 ∧ e ≠ 0x0D) ∧
    (∃ (s : State), ∃ (x st mask : Nat), ∃ (inst : Bool), ∃ (c : Cmd), ∃ (l : List Nat), ∃ (v : State), st = c.p 17 3 ∧
      mask = c.p 0 16 ∧ inst = (c.p 16 1 == 1) ∧ l = (s.begin x).pwrMoves inst mask st ∧ v = (if st = 0 ∧
      l.isEmpty = false then (s.begin x).abortWide 0x37 else s.begin x) ∧ s.Issued x 0x50 [(0, 16), (16, 1), (17, 3)] c ∧
      (s.begin x).pwrRefusal inst mask st l = (0, 0) ∧ (inst = false ∨ st = 0)) ∧
    (∃ (s : State), ∃ (x st mask : Nat), ∃ (inst : Bool), ∃ (c : Cmd), ∃ (l : List Nat), st = c.p 17 3 ∧ mask = c.p 0 16 ∧
      inst = (c.p 16 1 == 1) ∧ l = (s.begin x).pwrMoves inst mask st ∧ inst = true ∧ s.Issued x 0x50 [(0, 16), (16, 1), (17,
      3)] c ∧ (s.begin x).pwrRefusal inst mask st l = (0, 0) ∧ 1 ≤ st) :=
  ⟨⟨on (cmd 0x50 [2, 0, 4]) (demo.wr pcrB F.PCR_SC0_PIN_PIN 2), 1, _, _, _, cmd 0x50 [2, 0, 4], _, rfl, rfl, rfl, rfl, rfl,
    by decide +kernel⟩,
    ⟨on (cmd 0x50 [2, 0, 4]) (demo.wr pcrB F.PCR_SC0_PIN_PIN 2), 1, _, _, _, cmd 0x50 [2, 0, 4], _, 1, rfl, rfl, rfl, rfl,
      by decide +kernel⟩,
    ⟨on (cmd 0x50 [2, 0, 4]) (demo.wr pcrB F.PCR_SC0_PIN_PIN 2), 1, _, _, _, cmd 0x50 [2, 0, 4], _, (((on (cmd 0x50 [2, 0,
      4]) (demo.wr pcrB F.PCR_SC0_PIN_PIN 2)).begin 1).pwrRefusal (((cmd 0x50 [2, 0, 4]).p 16 1 == 1)) ((cmd 0x50 [2, 0,
      4]).p 0 16) ((cmd 0x50 [2, 0, 4]).p 17 3) (((on (cmd 0x50 [2, 0,
      4]) (demo.wr pcrB F.PCR_SC0_PIN_PIN 2)).begin 1).pwrMoves (((cmd 0x50 [2, 0, 4]).p 16 1 == 1)) ((cmd 0x50 [2, 0,
      4]).p 0 16) ((cmd 0x50 [2, 0, 4]).p 17 3))).2, rfl, rfl, rfl, rfl, by decide +kernel⟩,
    ⟨on (cmd 0x50 [4, 0, 4]) demo, 1, _, _, _, cmd 0x50 [4, 0, 4], _, (((on (cmd 0x50 [4, 0,
      4]) demo).begin 1).pwrRefusal (((cmd 0x50 [4, 0, 4]).p 16 1 == 1)) ((cmd 0x50 [4, 0, 4]).p 0 16) ((cmd 0x50 [4, 0,
      4]).p 17 3) (((on (cmd 0x50 [4, 0, 4]) demo).begin 1).pwrMoves (((cmd 0x50 [4, 0, 4]).p 16 1 == 1)) ((cmd 0x50 [4, 0,
      4]).p 0 16) ((cmd 0x50 [4, 0, 4]).p 17 3))).1, (((on (cmd 0x50 [4, 0, 4]) demo).begin 1).pwrRefusal (((cmd 0x50 [4, 0,
      4]).p 16 1 == 1)) ((cmd 0x50 [4, 0, 4]).p 0 16) ((cmd 0x50 [4, 0, 4]).p 17 3) (((on (cmd 0x50 [4, 0,
      4]) demo).begin 1).pwrMoves (((cmd 0x50 [4, 0, 4]).p 16 1 == 1)) ((cmd 0x50 [4, 0, 4]).p 0 16) ((cmd 0x50 [4, 0,
      4]).p 17 3))).2, rfl, rfl, rfl, rfl, by decide +kernel⟩,
    ⟨on (cmd 0x50 [2, 0, 4]) demo, 1, _, _, _, cmd 0x50 [2, 0, 4], _, _, rfl, rfl, rfl, rfl, rfl, by decide +kernel⟩,
    ⟨on (cmd 0x50 [0, 0, 5]) demo, 1, _, _, _, cmd 0x50 [0, 0, 5], _, rfl, rfl, rfl, rfl, rfl, by decide +kernel⟩⟩

/-- The premises of ClosingCommitsToSleep are met. -/
theorem met_ClosingCommitsToSleep :
    (∃ (s : State), ∃ (g : Nat), s.hasRegion g = false) ∧
    (∃ (s : State), ∃ (g : Nat), (s.rgState g ≠ 5 ∨ (s.rg g).ready = false ∨ (s.rg g).q.isSome = true)) ∧
    (∃ (s : State), ∃ (g : Nat), (s.entering g = false ∨ s.rgState g = 5 ∧ (s.rg g).ready = true)) ∧
    (∃ (s : State), ∃ (g : Nat), s.hasRegion g = true ∧ s.rgState g = 0 ∧ (s.rg g).goal = some 1 ∧ s.pacer.inst = none ∧
      s.pacer.cmds = [] ∧ s.heldFrom g 1 = false ∧ s.drained g = true) ∧
    (∃ (s : State), ∃ (g : Nat), s.hasRegion g = true ∧ s.rgState g = 0 ∧ (s.rg g).goal = some 1 ∧ s.pacer.inst = none ∧
      s.pacer.cmds = [] ∧ s.heldFrom g 1 = false ∧ s.drained g = false) ∧
    (∃ (s : State), ∃ (g : Nat), s.hasRegion g = true ∧ s.rgState g = 0 ∧ (s.rg g).goal = some 1 ∧ s.pacer.inst = none ∧
      s.pacer.cmds = [] ∧ s.heldFrom g 1 = true) ∧
    (∃ (s : State), ∃ (g : Nat), s.hasRegion g = true ∧ s.rgState g = 5 ∧ (s.rg g).goal = some 2 ∧ g ≠ s.rom.homeRegion ∧
      g < 16 ∧ s.heldFrom g 2 = false ∧ (s.rg g).ready = false ∧ (s.rg g).comb = false) ∧
    (∃ (s : State), ∃ (g : Nat), s.hasRegion g = true ∧ s.rgState g = 5 ∧ (s.rg g).goal = some 2 ∧ g ≠ s.rom.homeRegion ∧
      g < 16 ∧ s.heldFrom g 2 = true ∧ (s.rg g).q = none) ∧
    (∃ (s : State), ∃ (g : Nat), s.hasRegion g = true ∧ s.rgState g = 5 ∧ (s.rg g).goal = some 2 ∧ g ≠ s.rom.homeRegion ∧
      g < 16 ∧ s.heldFrom g 2 = true ∧ (s.rg g).q = none ∧ (s.rg g).ready = true) ∧
    (∃ (s : State), ∃ (g : Nat), s.hasRegion g = true ∧ s.rgState g = 5 ∧ (s.rg g).goal = some 2 ∧ g ≠ s.rom.homeRegion ∧
      g < 16 ∧ s.heldFrom g 2 = false ∧ (s.rg g).ready = true ∧ (s.rg g).q = none ∧ s.pacer.inst = none) ∧
    (∃ (s : State), ∃ (g : Nat), ∃ (q : Nat), (∀ h, h ≠ g → (s.rg h).q = none) ∧ s.hasRegion g = true ∧ s.rgState g = 5 ∧
      (s.rg g).goal = some 2 ∧ g ≠ s.rom.homeRegion ∧ g < 16 ∧ (s.rg g).q = some q ∧ q + 250 ≤ s.clock + 1 ∧
      s.pacer.inst = none ∧ s.pacer.cmds = [] ∧ bitAt s.pacer.wakes g = false ∧ s.pending = [] ∧
      (s.time.carrier = true → s.time.tc < 1023)) ∧
    (∃ (s : State), ∃ (g : Nat), s.hasRegion g = true ∧ s.rgState g = 5 ∧ (s.rg g).goal = some 2 ∧ g ≠ s.rom.homeRegion ∧
      g < 16 ∧ (s.rg g).ready = false ∧ (s.rg g).q = none ∧ s.pacer.inst = none ∧ s.pacer.cmds = [] ∧ (s.rg g).prev < 2) :=
  ⟨⟨region 1 5 { held := false, goal := some 2 } credited, 2, by decide +kernel⟩,
    ⟨region 1 5 { held := false, goal := some 2 } credited, 1, by decide +kernel⟩,
    ⟨region 1 5 { held := false, goal := some 2 } credited, 0, by decide +kernel⟩,
    ⟨region 1 0 { held := false, goal := some 1 } credited, 1, by decide +kernel⟩,
    ⟨(region 1 0 { held := false, goal := some 1 } credited).setNi 1 { demoNi with qs := [(2, { cls := 2, pkts := [{ ser := 1, ptype := 0, op := 1, vn := 0, sc := 2, e := 0, dest := 0, len := 8, isReq := true, sb := true }] })] },
      1, by decide +kernel⟩,
    ⟨(region 1 0 { held := false, goal := some 1 } credited).wr pcrB F.PCR_SC0_PIN_RUN 2, 1, by decide +kernel⟩,
    ⟨region 1 5 { held := false, goal := some 2 } credited, 1, by decide +kernel⟩,
    ⟨(region 1 5 { held := false, goal := some 2, ready := true } credited).wr pcrB F.PCR_SC0_PIN_PIN 2, 1, by decide +kernel⟩,
    ⟨(region 1 5 { held := false, goal := some 2, ready := true } credited).wr pcrB F.PCR_SC0_PIN_PIN 2, 1, by decide +kernel⟩,
    ⟨region 1 5 { held := false, goal := some 2, ready := true } demo, 1, by decide +kernel⟩,
    ⟨{ (region 1 5 { held := false, goal := some 2, q := some 0 } credited) with clock := 249 }, 1, 0,
      (fun h hg => rgs_all (P := fun g r => g ≠ 1 → r.q = none) (fun _ _ => rfl) (by decide +kernel) h hg), by decide +kernel⟩,
    ⟨region 1 5 { held := false, goal := some 2, prev := 1 } demo, 1, by decide +kernel⟩⟩

/-- The premises of WakeSourcesWakeRegions are met. -/
theorem met_WakeSourcesWakeRegions :
    (∃ (s : State), s.flag pcrB F.PCR_WAKE_CFG_EN_WAKEN = false) ∧
    (∃ (s : State),
      (s.flag pcrB F.PCR_WAKE_CFG_EN_PPS = false ∨ s.pacer.pps < atLeast1 (s.rd pcrB F.PCR_WAKE_CFG_PPS_COUNT) ∨ s.rgState s.rom.homeRegion ≠ 2 ∧
      s.rgState s.rom.homeRegion ≠ 3)) ∧
    (∃ (s : State), ∃ (n : Nat), (s.hasNi n = false ∨ s.flag pcrB F.PCR_WAKE_CFG_EN_RELAY = false)) ∧
    (∃ (s : State), ∃ (n : Nat), (s.hasNi n = false ∨ s.flag pcrB F.PCR_WAKE_CFG_EN_RELAY = false)) ∧
    (∃ (s : State), (∀ h, (s.rg h).q = none) ∧ s.flag pcrB F.PCR_WAKE_CFG_EN_WAKEN = true ∧ s.rgState s.rom.homeRegion = 4) ∧
    (∃ (s : State), (∀ h, (s.rg h).q = none) ∧ s.flag pcrB F.PCR_WAKE_CFG_EN_WAKEN = true ∧ s.rgState s.rom.homeRegion < 2 ∧
      s.pacer.inst = none) ∧
    (∃ (s : State), (∀ h, (s.rg h).q = none) ∧ s.flag pcrB F.PCR_WAKE_CFG_EN_WAKEN = true ∧ s.rgState s.rom.homeRegion < 2 ∧
      s.pacer.inst = none) ∧
    (∃ (s : State), ∃ (t : Nat) (x : Option Nat), (∀ h, (s.rg h).q = none) ∧ s.flag pcrB F.PCR_WAKE_CFG_EN_WAKEN = true ∧
      s.rgState s.rom.homeRegion < 2 ∧ s.pacer.inst = some (t, x) ∧ 2 ≤ t) ∧
    (∃ (s : State), (∀ h, (s.rg h).q = none) ∧ s.rom.homeRegion < 16 ∧
      (s.rgState s.rom.homeRegion = 2 ∨ s.rgState s.rom.homeRegion = 3) ∧ s.flag pcrB F.PCR_WAKE_CFG_EN_WAKEN = true) ∧
    (∃ (s : State), (∀ h, (s.rg h).q = none) ∧ s.rom.homeRegion < 16 ∧
      (s.rgState s.rom.homeRegion = 2 ∨ s.rgState s.rom.homeRegion = 3) ∧ s.flag pcrB F.PCR_WAKE_CFG_EN_WAKEN = true) ∧
    (∃ (s : State), (∀ h, (s.rg h).q = none) ∧ s.rom.homeRegion < 16 ∧
      (s.rgState s.rom.homeRegion = 2 ∨ s.rgState s.rom.homeRegion = 3) ∧ s.flag pcrB F.PCR_WAKE_CFG_EN_PPS = true ∧
      atLeast1 (s.rd pcrB F.PCR_WAKE_CFG_PPS_COUNT) ≤ s.pacer.pps) ∧
    (∃ (s : State), ∃ (n : Nat) (g : Nat), (∀ h, (s.rg h).q = none) ∧ s.hasNi n = true ∧
      s.flag pcrB F.PCR_WAKE_CFG_EN_RELAY = true ∧ s.hasRegion g = true ∧ s.wakeAsks n = 2 ^ g ∧ g < 16 ∧ s.rom.homeRegion < 16 ∧
      s.pacer.inst = none ∧ s.rgDown g = true ∧ (s.rg g).goal = none) ∧
    (∃ (s : State), ∃ (n : Nat) (g : Nat), (∀ h, (s.rg h).q = none) ∧ s.hasNi n = true ∧
      s.flag pcrB F.PCR_WAKE_CFG_EN_RELAY = true ∧ s.hasRegion g = true ∧ s.wakeAsks n = 2 ^ g ∧ g < 16 ∧ s.rom.homeRegion < 16 ∧
      s.pacer.inst = none ∧ s.rgState g = 5) ∧
    (∃ (s : State), ∃ (n : Nat) (g : Nat), (∀ h, (s.rg h).q = none) ∧ s.hasNi n = true ∧
      s.flag pcrB F.PCR_WAKE_CFG_EN_RELAY = true ∧ s.hasRegion g = true ∧ s.wakeAsks n = 2 ^ g ∧ g < 16 ∧ s.rom.homeRegion < 16 ∧
      s.pacer.inst = none ∧ s.rgDown g = false ∧ s.rgState g ≠ 5) :=
  ⟨⟨(((region 1 2 { held := false } holding).wr (niB 0) F.NI_PWR_MASK_OPEN 1).wr pcrB F.PCR_WAKE_CFG_EN_WAKEN 0),
    by decide +kernel⟩,
    ⟨(region 1 2 { held := false } holding).wr (niB 0) F.NI_PWR_MASK_OPEN 1, by decide +kernel⟩,
    ⟨(region 1 2 { held := false } holding).wr (niB 0) F.NI_PWR_MASK_OPEN 1, 2, by decide +kernel⟩,
    ⟨((((region 1 2 { held := false } holding).wr (niB 0) F.NI_PWR_MASK_OPEN 1).wr pcrB F.PCR_WAKE_CFG_EN_RELAY 1).wr pcrB (F.PCR_RG_STAT_STATE.ix 1) (5 + 1)),
      2, by decide +kernel⟩,
    ⟨(region 0 4 { held := false } demo).wr pcrB F.PCR_WAKE_CFG_EN_WAKEN 1,
      rgs_all (P := fun _ r => r.q = none) (fun _ => rfl) (by decide +kernel), by decide +kernel⟩,
    ⟨(region 1 2 { held := false } holding).wr (niB 0) F.NI_PWR_MASK_OPEN 1,
      rgs_all (P := fun _ r => r.q = none) (fun _ => rfl) (by decide +kernel), by decide +kernel⟩,
    ⟨(((((region 1 2 { held := false } holding).wr (niB 0) F.NI_PWR_MASK_OPEN 1).wr pcrB F.PCR_WAKE_CFG_EN_WAKEN 0)).wr pcrB F.PCR_WAKE_CFG_EN_WAKEN 1),
      rgs_all (P := fun _ r => r.q = none) (fun _ => rfl) (by decide +kernel), by decide +kernel⟩,
    ⟨{ (demo.wr pcrB F.PCR_WAKE_CFG_EN_WAKEN 1) with pacer := { rst := 0, inst := some (2, none) } }, 2, none,
      rgs_all (P := fun _ r => r.q = none) (fun _ => rfl) (by decide +kernel), by decide +kernel⟩,
    ⟨(region 0 2 { held := false } demo).wr pcrB F.PCR_WAKE_CFG_EN_WAKEN 1,
      rgs_all (P := fun _ r => r.q = none) (fun _ => rfl) (by decide +kernel), by decide +kernel⟩,
    ⟨(region 0 3 { held := false } demo).wr pcrB F.PCR_WAKE_CFG_EN_WAKEN 1,
      rgs_all (P := fun _ r => r.q = none) (fun _ => rfl) (by decide +kernel), by decide +kernel⟩,
    ⟨{ (region 0 2 { held := false } demo).wr pcrB F.PCR_WAKE_CFG_EN_PPS 1 with pacer := { rst := 0, pps := 5 } },
      rgs_all (P := fun _ r => r.q = none) (fun _ => rfl) (by decide +kernel), by decide +kernel⟩,
    ⟨(region 1 2 { held := false } holding).wr (niB 0) F.NI_PWR_MASK_OPEN 1, 0, 1,
      rgs_all (P := fun _ r => r.q = none) (fun _ => rfl) (by decide +kernel), by decide +kernel⟩,
    ⟨((((region 1 2 { held := false } holding).wr (niB 0) F.NI_PWR_MASK_OPEN 1).wr pcrB F.PCR_WAKE_CFG_EN_RELAY 1).wr pcrB (F.PCR_RG_STAT_STATE.ix 1) 5),
      0, 1, rgs_all (P := fun _ r => r.q = none) (fun _ => rfl) (by decide +kernel), by decide +kernel⟩,
    ⟨((((region 1 2 { held := false } holding).wr (niB 0) F.NI_PWR_MASK_OPEN 1).wr pcrB F.PCR_WAKE_CFG_EN_RELAY 1).wr pcrB (F.PCR_RG_STAT_STATE.ix 1) (5 + 1)),
      0, 1, rgs_all (P := fun _ r => r.q = none) (fun _ => rfl) (by decide +kernel), by decide +kernel⟩⟩

/-- The premises of WakingReachesRun are met. -/
theorem met_WakingReachesRun :
    (∃ (s : State), ∃ (g : Nat), (s.hasRegion g = false ∨ s.rgState g ≠ 6 ∨ (s.rg g).wake ≠ 3)) ∧
    (∃ (s : State), ∃ (g : Nat), (s.hasRegion g = false ∨ s.rgState g ≠ 6 ∨ (s.rg g).wake ≠ 3)) ∧
    (∃ (s : State), ∃ (g : Nat), (s.hasRegion g = false ∨ s.rgState g ≠ 6 ∧ (s.rg g).step = none)) ∧
    (∃ (s : State), ∃ (g : Nat), s.hasRegion g = true ∧ g < 16 ∧ s.rgState g = 6 ∧ (s.rg g).wake = 1 ∧ (s.rg g).prev = 2) ∧
    (∃ (s : State), ∃ (g : Nat), ∃ (v : State), v = (if g = s.rom.homeRegion then s.homeDeep.deepReset g else s.deepReset g) ∧
      s.hasRegion g = true ∧ g < 16 ∧ s.rgState g = 6 ∧ (s.rg g).wake = 1 ∧ (s.rg g).prev = 3) ∧
    (∃ (s : State), ∃ (g : Nat), g = s.rom.homeRegion ∧ s.hasRegion g = true ∧ g < 16 ∧ s.rgState g = 6 ∧ (s.rg g).wake = 3 ∧
      s.rd strB F.STR_BOOT_STATE ≠ 3 ∧ s.rd strB F.STR_BOOT_STATE ≠ 4) ∧
    (∃ (s : State), ∃ (g : Nat), s.hasRegion g = true ∧ g < 16 ∧ s.rgState g = 6 ∧ (s.rg g).wake = 3 ∧ (∃ n, n ∈ nisOf s.rom g ∧
      (s.ni n).recov = true) ∧ (g = s.rom.homeRegion → s.rd strB F.STR_BOOT_STATE = 3 ∨ s.rd strB F.STR_BOOT_STATE = 4)) ∧
    (∃ (s : State), ∃ (g : Nat), s.hasRegion g = true ∧ g < 16 ∧ s.rgState g = 6 ∧ (s.rg g).wake = 3 ∧ s.pacer.cmds = [] ∧
      s.pacer.inst = none ∧ (∀ sl, sl < 63 → s.slcSt sl = 0) ∧ (∀ n, n ∈ nisOf s.rom g → (s.ni n).recov = false) ∧
      (g = s.rom.homeRegion → s.rd strB F.STR_BOOT_STATE = 3 ∨ s.rd strB F.STR_BOOT_STATE = 4)) :=
  ⟨⟨region 1 6 { held := false, wake := 1, prev := 2 } demo, 1, by decide +kernel⟩,
    ⟨region 0 6 { held := false, wake := 3, prev := 2 } demo, 1, by decide +kernel⟩,
    ⟨region 1 6 { held := false, wake := 1, prev := 2 } demo, 0, by decide +kernel⟩,
    ⟨region 1 6 { held := false, wake := 1, prev := 2 } demo, 1, by decide +kernel⟩,
    ⟨region 1 6 { held := false, wake := 1, prev := 3 } demo, 1, _, rfl, by decide +kernel⟩,
    ⟨region 0 6 { held := false, wake := 3, prev := 2 } demo, _, rfl, by decide +kernel⟩,
    ⟨region 1 6 { held := false, wake := 3, prev := 2 } (demo.setNi 1 { demoNi with up := false, recov := true }), 1,
      by decide +kernel⟩,
    ⟨region 1 6 { held := false, wake := 3, prev := 2 } (demo.setNi 1 { demoNi with up := false }), 1, by decide +kernel⟩⟩

/-- The premises of IdleGateHoldsAndMask are met. -/
theorem met_IdleGateHoldsAndMask :
    (∃ (s : State), ∃ (g : Nat), (s.hasRegion g = false ∨ s.rgState g ≠ 1 ∨ s.quiet g = false)) ∧
    (∃ (s : State), ∃ (g : Nat), (s.hasRegion g = false ∨ s.gateOpens g = false)) ∧
    (∃ (s : State), ∃ (g : Nat), s.hasRegion g = true ∧ s.rgState g = 1 ∧ s.quiet g = true) ∧
    (∃ (s : State), ∃ (g : Nat), s.hasRegion g = true ∧ s.gateOpens g = true) ∧
    (∃ (s : State), ∃ (n : Nat) (q : Nat), (s.hasNi n = false ∨ ((s.ni n).q q).pkts = [] ∨ ∃ p r, ((s.ni n).q q).pkts = p :: r ∧
      p.hold = none)) ∧
    (∃ (s : State), ∃ (n : Nat) (q : Nat) (p : Qp) (r : List Qp), s.hasNi n = true ∧ ((s.ni n).q q).pkts = p :: r ∧
      p.hold.isSome = true) ∧
    (∃ (s : State), ∃ (n : Nat), s.hears n = false) ∧
    (∃ (s : State), ∃ (n : Nat), s.hears n = true ∧ (s.rgState (niRec s.rom n).region ≠ 5 ∨ (s.ni n).ctxs = [])) ∧
    (∃ (s : State), ∃ (n : Nat), s.hears n = true ∧ s.rgState (niRec s.rom n).region = 5 ∧
      bitAt (s.rd (niB n) F.NI_PWR_MASK_OPEN) (niRec s.rom n).region = true) :=
  ⟨⟨region 1 1 { held := false, gated := true } demo, 0, by decide +kernel⟩,
    ⟨region 1 1 { held := false, gated := true } demo, 1, by decide +kernel⟩,
    ⟨region 1 1 { held := false } demo, 1, by decide +kernel⟩,
    ⟨holding, 0, by decide +kernel⟩,
    ⟨demo, 0, 2, .inr (.inl rfl)⟩,
    ⟨holding, 0, 2, heldPkt, ([] : List Qp), by decide +kernel⟩,
    ⟨region 1 1 { held := false, gated := true } demo, 2, by decide +kernel⟩,
    ⟨region 1 2 { held := false } demo, 0, by decide +kernel⟩,
    ⟨region 0 5 { held := false } (ni0 { demoNi with rsvs := [{ ser := 1, node := 1, slice := 0, gran := 1 }] }), 0,
      by decide +kernel⟩⟩

/-- The premises of DvfsStepProceeds are met. -/
theorem met_DvfsStepProceeds :
    (∃ (s : State), ∃ (g : Nat), ∃ (x : Nat) (c : Cmd), ∃ (v : State), g = c.p 0 4 ∧
      v = (if c.p 16 12 < s.mhz g then (s.begin x).wr pcrB F.PCR_STAT_LOWER_BUSY 1 else s.begin x) ∧ s.Issued x 0x51 [(0, 4),
      (16, 12), (32, 12)] c ∧ (s.begin x).stepCheck g (c.p 16 12) (c.p 32 12) = 0) ∧
    (∃ (s : State), ∃ (x : Nat) (c : Cmd), s.Issued x 0x51 [(0, 4), (16, 12), (32, 12)] c ∧
      (s.begin x).stepCheck (c.p 0 4) (c.p 16 12) (c.p 32 12) ≠ 0) ∧
    (∃ (s : State), ∃ (g : Nat), (s.hasRegion g = false ∨ (s.rg g).step = none ∨ ∃ d, (s.rg g).step = some d ∧
      (d.ph ≠ 2 ∨ d.todo.head? ≠ some true))) ∧
    (∃ (s : State), ∃ (g : Nat), (s.hasRegion g = false ∨ s.time.freezes.any (fun f => f.g == g && f.left == 0) = false)) ∧
    (∃ (s : State), ∃ (g : Nat), s.hasRegion g = true ∧ s.rgState g = 6 ∧ ((s.rg g).wake = 1 ∨ (s.rg g).wake = 7) ∧
      s.pacer.cmds = []) ∧
    (∃ (s : State), ∃ (g : Nat), s.hasRegion g = true ∧ s.rgState g ≠ 6 ∧ s.pacer.rst = 0 ∧ s.ready = false ∧
      s.flag glbB F.GLB_START_STAT_FAIL = false ∧ (g = s.rom.homeRegion ∧
      s.rd glbB F.GLB_START_STAT_STEP = 2 ∨ g ≠ s.rom.homeRegion ∧ s.rd glbB F.GLB_START_STAT_STEP = 4)) ∧
    (∃ (s : State), ∃ (g : Nat), (s.hasRegion g = false ∨ s.rgState g ≠ 6 ∧ s.ready = true ∧ (s.rg g).step = none)) ∧
    (∃ (s : State), ∃ (g : Nat), ∃ (d : DStep), s.hasRegion g = true ∧ (s.rg g).step = some d ∧ d.ph = 1 ∧
      s.time.freezes.any (fun f => f.g == g && f.why == 0 && f.left == 0) = true) ∧
    (∃ (s : State), ∃ (g : Nat), ∃ (d : DStep), ∃ (r : List Bool), s.hasRegion g = true ∧ (s.rg g).step = some d ∧ d.ph = 2 ∧
      d.todo = true :: r) ∧
    (∃ (s : State), ∃ (g : Nat), ∃ (d : DStep), ∃ (r : List Bool), s.hasRegion g = true ∧ (s.rg g).step = some d ∧ d.ph = 2 ∧
      s.rgState g = 7 ∧ d.todo = false :: r) ∧
    (∃ (s : State), ∃ (g : Nat), ∃ (d : DStep), s.hasRegion g = true ∧ (s.rg g).step = some d ∧ d.ph = 2 ∧ s.rgState g = 7 ∧
      s.ready = true) :=
  ⟨⟨on (cmd 0x51 (leBytes 2 0 ++ leBytes 2 300 ++ leBytes 2 800)) demo, _, 1,
    cmd 0x51 (leBytes 2 0 ++ leBytes 2 300 ++ leBytes 2 800), _, rfl, rfl, by decide +kernel⟩,
    ⟨on (cmd 0x51 [0, 0, 0xE8, 3, 0, 0]) demo, 1, cmd 0x51 [0, 0, 0xE8, 3, 0, 0], by decide +kernel⟩,
    ⟨demo, 0, by decide +kernel⟩,
    ⟨region 0 7 { held := false, step := some (step0 2 [true, false]) } demo, 0, by decide +kernel⟩,
    ⟨region 1 6 { held := false, wake := 1, prev := 2 } demo, 1, by decide +kernel⟩,
    ⟨((((((region 0 7 { held := false, step := some (step0 2 [false]) } demo).wr glbB F.GLB_START_STAT_READY 1).wr pcrB (F.PCR_RG_STAT_STATE.ix 1) (6 + 1)).wr glbB F.GLB_START_STAT_READY 0).wr glbB F.GLB_START_STAT_FAIL 0).wr glbB F.GLB_START_STAT_STEP 4),
      1, by decide +kernel⟩,
    ⟨region 0 7 { held := false, step := some (step0 2 [true, false]) } demo, 2, by decide +kernel⟩,
    ⟨{ region 0 7 { held := false, step := some (step0 1 [true, false]) } demo with time := { freezes := [{ g := 0, why := 0, left := 0 }] } },
      0, step0 1 [true, false], by decide +kernel⟩,
    ⟨region 0 7 { held := false, step := some (step0 2 [true, false]) } demo, 0, step0 2 [true, false], [false],
      by decide +kernel⟩,
    ⟨region 0 7 { held := false, step := some (step0 2 [false]) } demo, 0, step0 2 [false], [], by decide +kernel⟩,
    ⟨{ region 0 7 { held := false, step := some (step0 2 [true, false]) } demo with start := { done := true } }, 0,
      step0 2 [true, false], by decide +kernel⟩⟩

/-- The premises of GovernorWindowRefillsBucket are met. -/
theorem met_GovernorWindowRefillsBucket :
    (∃ (s v : State), ∃ (temps : List (Option Int)), v = forAll s.rom.regions.length (fun g a => match temps.getD g none with
      | some t => a.tempIn g t
      | none => a) s ∧ s.rom.regions.length ≤ 16) ∧
    (∃ (s v : State), ∃ (temps : List (Option Int)), v = forAll s.rom.regions.length (fun g a => match temps.getD g none with
      | some t => a.tempIn g t
      | none => a) s ∧ s.rom.regions.length ≤ 16) :=
  ⟨⟨demo, _, [some 40, none], rfl, by decide +kernel⟩,
    ⟨demo.wr pcrB F.PCR_CTL_GOV_EN 1, _, [some 40, none], rfl, by decide +kernel⟩⟩

/-- The premises of LeaveIsQueuedGrantedReturned are met. -/
theorem met_LeaveIsQueuedGrantedReturned :
    (∃ (s : State), ∃ (kind who : Nat), ∃ (l : Leave), l = { kind := kind, who := who } ∧ s.asks.contains l = true) ∧
    (∃ (s : State), ∃ (kind who : Nat), ∃ (l : Leave), ∃ (r : List Leave), l = { kind := kind, who := who } ∧ s.leaveQ = l :: r ∧
      s.leaveOk kind = true) ∧
    (∃ (s : State), ∃ (kind who : Nat), ∃ (l : Leave), ∃ (r : List Leave), l = { kind := kind, who := who } ∧ s.leaveQ = l :: r ∧
      s.leaveOk kind = true ∧ kind = 0) ∧
    (∃ (s : State), ∃ (kind who : Nat), ∃ (l : Leave), ∃ (r : List Leave), l = { kind := kind, who := who } ∧ s.leaveQ = l :: r ∧
      s.leaveOk kind = false) ∧
    (∃ (s : State), ∃ (kind who : Nat), ∃ (l : Leave), ∃ (r : List Leave), l = { kind := kind, who := who } ∧ s.leaveQ = l :: r ∧
      s.leaveOk kind = false) ∧
    (∃ (s : State), ∃ (kind who : Nat), ∃ (l : Leave), l = { kind := kind, who := who } ∧ s.leaveQ = []) ∧
    (∃ (s : State), ∃ (kind who : Nat), ∃ (l : Leave), l = { kind := kind, who := who } ∧ s.asks.contains l = false) ∧
    (∃ (s : State), ∃ (kind who : Nat), ∃ (l : Leave), l = { kind := kind, who := who } ∧ s.gives.contains l = false) ∧
    (∃ (s : State), ∃ (kind who : Nat), ∃ (l : Leave), l = { kind := kind, who := who } ∧ s.gives.contains l = true) :=
  ⟨⟨{ demo with asks := [{ kind := 2, who := 1 }] }, 2, 1, _, rfl, by decide +kernel⟩,
    ⟨{ demo with leaveQ := [{ kind := 0, who := 1 }] }, 0, 1, _, [], rfl, by decide +kernel⟩,
    ⟨{ demo with leaveQ := [{ kind := 0, who := 1 }] }, 0, 1, _, [], rfl, by decide +kernel⟩,
    ⟨(demo.wr pcrB (F.PCR_RG_STAT_DWARN_NOW.ix 1) 1 |> fun s => { s with leaveQ := [{ kind := 0, who := 1 }] }), 0, 1, _,
      ([] : List Leave), rfl, by decide +kernel⟩,
    ⟨(demo.wr pcrB (F.PCR_RG_STAT_DWARN_NOW.ix 1) 1 |> fun s => { s with leaveQ := [{ kind := 0, who := 1 }] }), 0, 1, _, [],
      rfl, by decide +kernel⟩,
    ⟨{ demo with asks := [{ kind := 2, who := 1 }] }, 2, 1, _, rfl, by decide +kernel⟩,
    ⟨(demo.wr pcrB (F.PCR_RG_STAT_DWARN_NOW.ix 1) 1 |> fun s => { s with leaveQ := [{ kind := 0, who := 1 }] }), 0, 1, _, rfl,
      by decide +kernel⟩,
    ⟨(demo.wr pcrB (F.PCR_RG_STAT_DWARN_NOW.ix 1) 1 |> fun s => { s with leaveQ := [{ kind := 0, who := 1 }] }), 0, 1, _, rfl,
      by decide +kernel⟩,
    ⟨{ demo with gives := [{ kind := 2, who := 1 }], leaves := [{ kind := 2, who := 1 }] }, 2, 1, _, rfl, by decide +kernel⟩⟩

/-- The premises of DroopAndClockFaults are met. -/
theorem met_DroopAndClockFaults :
    (∃ (s : State), ∃ (g : Nat), ∃ (uv : Nat),
      (s.hasRegion g = false ∨ s.watched g = false ∨ s.under g uv (s.droopCodes g).1 = false ∨ s.rd pcrB (F.PCR_RG_STAT_DWARN_NOW.ix g) = 1)) ∧
    (∃ (s : State), ∃ (g : Nat), (s.hasRegion g = false ∨ s.rd pcrB (F.PCR_RG_STAT_DWARN_NOW.ix g) = 0)) ∧
    (∃ (s : State), ∃ (g : Nat), ∃ (uv : Nat),
      (s.hasRegion g = false ∨ s.watched g = false ∨ s.under g uv (s.droopCodes g).2 = false)) ∧
    (∃ (s : State), ∃ (g : Nat), ∃ (edges : Nat), (s.hasRegion g = false ∨ 4 ≤ edges ∨ (s.rg g).held = true ∨ 2 ≤ s.rgState g ∧
      s.rgState g ≠ 7)) ∧
    (∃ (s : State), ∃ (g : Nat), ∃ (uv : Nat), s.hasRegion g = true ∧ s.watched g = true ∧
      s.under g uv (s.droopCodes g).1 = true ∧ s.rd pcrB (F.PCR_RG_STAT_DWARN_NOW.ix g) ≠ 1) ∧
    (∃ (s : State), ∃ (g : Nat), s.hasRegion g = true ∧ s.rd pcrB (F.PCR_RG_STAT_DWARN_NOW.ix g) ≠ 0) ∧
    (∃ (s : State), ∃ (g : Nat), ∃ (uv : Nat), s.hasRegion g = true ∧ s.watched g = true ∧
      s.under g uv (s.droopCodes g).2 = true) ∧
    (∃ (s : State), ∃ (g : Nat), ∃ (edges : Nat), s.hasRegion g = true ∧ edges < 4 ∧
      (s.rgState g = 0 ∨ s.rgState g = 1 ∨ s.rgState g = 7) ∧ (s.rg g).held = false ∧ (∀ d,
      (s.rg g).step = some d → d.ph = 2 → d.todo.head? ≠ some true)) :=
  ⟨⟨demo, 2, 600000, by decide +kernel⟩,
    ⟨demo, 1, by decide +kernel⟩,
    ⟨demo, 2, 0, by decide +kernel⟩,
    ⟨demo, 1, 9, by decide +kernel⟩,
    ⟨demo, 1, 700000, by decide +kernel⟩,
    ⟨demo.wr pcrB (F.PCR_RG_STAT_DWARN_NOW.ix 1) 1, 1, by decide +kernel⟩,
    ⟨demo, 1, 600000, by decide +kernel⟩,
    ⟨demo, 1, 3, by decide +kernel⟩⟩

/-! ### Chapter 9 of the statements -/

/-- Valid time of 10,000 ns at the root. -/
def valid (s : State) : State := { (s.wr timB F.TIM_STAT_STATE 1).wr timB F.TIM_STAT_VALID 1 with time := { ft := 10000 * 2 ^ 32 } }

/-- PF_ARM of slot 1 at 20,000 ns. -/
def arm1 : Cmd := cmd 0x80 ([1, 0] ++ leBytes 6 0 ++ leBytes 4 20000)
def armNear : Cmd := cmd 0x80 ([1, 0] ++ leBytes 6 0 ++ leBytes 4 10999)

/-- PF_ARM of slot 1 on falling edges of pin 2 with 1,000 ns delay. -/
def armPin : Cmd := cmd 0x80 ([0xA3, 0] ++ leBytes 6 0 ++ leBytes 4 1000)

/-- Snapshot slot 1 in state `st`. -/
def slot1 (st : Nat) (v : Pf) : State := { (valid demo).wr pfB (F.PF_SLOT0_STATE.ix 1) st with pfs := [(1, v)] }

/-- Evidence enabled on NI 0's ring of 16 records. -/
def evd (e : Evd) (s : State) : State :=
  { ((s.wr pfB F.PF_RING_SIZE_LOG2 4).wr pfB F.PF_RING_NI_NI 0).wr pfB F.PF_EVD_CTL_EN 1 with evd := e }

/-- The premises of PhotoFinishArmAsksLeave are met. -/
theorem met_PhotoFinishArmAsksLeave :
    (∃ (s : State), ∃ (x k : Nat), ∃ (c : Cmd), ∃ (fit : Prop), k = c.p 0 1 ∧ (fit ↔ (c.p 1 2 = 0 ∧
      s.time.ft / 2 ^ 24 + 256 * 1000 ≤ 256 * (c.p 16 48 * secNs + c.p 64 32) ∧
      256 * (c.p 16 48 * secNs + c.p 64 32) ≤ s.time.ft / 2 ^ 24 + 256 * 60 * secNs ∨ c.p 1 2 = 1 ∧ c.p 16 48 = 0 ∧
      1000 ≤ c.p 64 32 ∧ c.p 64 32 ≤ 1000000)) ∧ s.Issued x 0x80 [(0, 1), (1, 2), (4, 2), (6, 1), (7, 1), (16, 48), (64, 32)] c ∧
      ¬ fit) ∧
    (∃ (s : State), ∃ (x k : Nat), ∃ (c : Cmd), ∃ (fit : Prop), k = c.p 0 1 ∧ (fit ↔ (c.p 1 2 = 0 ∧
      s.time.ft / 2 ^ 24 + 256 * 1000 ≤ 256 * (c.p 16 48 * secNs + c.p 64 32) ∧
      256 * (c.p 16 48 * secNs + c.p 64 32) ≤ s.time.ft / 2 ^ 24 + 256 * 60 * secNs ∨ c.p 1 2 = 1 ∧ c.p 16 48 = 0 ∧
      1000 ≤ c.p 64 32 ∧ c.p 64 32 ≤ 1000000)) ∧ s.Issued x 0x80 [(0, 1), (1, 2), (4, 2), (6, 1), (7, 1), (16, 48), (64, 32)] c ∧
      fit ∧ (s.pfState k ≠ 0 ∨ (s.pf k).cmd ≠ none)) ∧
    (∃ (s : State), ∃ (x k : Nat), ∃ (c : Cmd), ∃ (fit : Prop), k = c.p 0 1 ∧ (fit ↔ (c.p 1 2 = 0 ∧
      s.time.ft / 2 ^ 24 + 256 * 1000 ≤ 256 * (c.p 16 48 * secNs + c.p 64 32) ∧
      256 * (c.p 16 48 * secNs + c.p 64 32) ≤ s.time.ft / 2 ^ 24 + 256 * 60 * secNs ∨ c.p 1 2 = 1 ∧ c.p 16 48 = 0 ∧
      1000 ≤ c.p 64 32 ∧ c.p 64 32 ≤ 1000000)) ∧ s.Issued x 0x80 [(0, 1), (1, 2), (4, 2), (6, 1), (7, 1), (16, 48), (64, 32)] c ∧
      fit ∧ s.pfState k = 0 ∧ (s.pf k).cmd = none ∧ (s.rootOk = false ∨ s.time.step ≠ none)) ∧
    (∃ (s : State), ∃ (x k : Nat), ∃ (c : Cmd), ∃ (fit : Prop), k = c.p 0 1 ∧ (fit ↔ (c.p 1 2 = 0 ∧
      s.time.ft / 2 ^ 24 + 256 * 1000 ≤ 256 * (c.p 16 48 * secNs + c.p 64 32) ∧
      256 * (c.p 16 48 * secNs + c.p 64 32) ≤ s.time.ft / 2 ^ 24 + 256 * 60 * secNs ∨ c.p 1 2 = 1 ∧ c.p 16 48 = 0 ∧
      1000 ≤ c.p 64 32 ∧ c.p 64 32 ≤ 1000000)) ∧ s.Issued x 0x80 [(0, 1), (1, 2), (4, 2), (6, 1), (7, 1), (16, 48), (64, 32)] c ∧
      fit ∧ s.pfState k = 0 ∧ (s.pf k).cmd = none ∧ s.rootOk = true ∧ s.time.step = none ∧ c.p 1 2 = 1 ∧
      s.pinFree (c.p 4 2) 2 0 = false) ∧
    (∃ (s : State), ∃ (x k : Nat), ∃ (c : Cmd), ∃ (fit : Prop), k = c.p 0 1 ∧ (fit ↔ (c.p 1 2 = 0 ∧
      s.time.ft / 2 ^ 24 + 256 * 1000 ≤ 256 * (c.p 16 48 * secNs + c.p 64 32) ∧
      256 * (c.p 16 48 * secNs + c.p 64 32) ≤ s.time.ft / 2 ^ 24 + 256 * 60 * secNs ∨ c.p 1 2 = 1 ∧ c.p 16 48 = 0 ∧
      1000 ≤ c.p 64 32 ∧ c.p 64 32 ≤ 1000000)) ∧ s.Issued x 0x80 [(0, 1), (1, 2), (4, 2), (6, 1), (7, 1), (16, 48), (64, 32)] c ∧
      fit ∧ s.pfState k = 0 ∧ (s.pf k).cmd = none ∧ s.rootOk = true ∧ s.time.step = none ∧
      (c.p 1 2 = 1 → s.pinFree (c.p 4 2) 2 0 = true) ∧
      s.pfNis.all (fun n => (s.ni n).timer != 1 && (!((s.ni n).timer == 2 && !s.claimedNow (timerRes n)) || c.p 6 1 == 1)) = true) ∧
    (∃ (s : State), ∃ (x k : Nat), ∃ (c : Cmd), ∃ (fit : Prop), k = c.p 0 1 ∧ (fit ↔ (c.p 1 2 = 0 ∧
      s.time.ft / 2 ^ 24 + 256 * 1000 ≤ 256 * (c.p 16 48 * secNs + c.p 64 32) ∧
      256 * (c.p 16 48 * secNs + c.p 64 32) ≤ s.time.ft / 2 ^ 24 + 256 * 60 * secNs ∨ c.p 1 2 = 1 ∧ c.p 16 48 = 0 ∧
      1000 ≤ c.p 64 32 ∧ c.p 64 32 ≤ 1000000)) ∧ (s.pf k).cmd = some x ∧ s.hasLeave 1 k = false) ∧
    (∃ (s : State), ∃ (k : Nat), ∃ (c : Cmd), ∃ (fit : Prop), ∃ (j : Nat), k = c.p 0 1 ∧ (fit ↔ (c.p 1 2 = 0 ∧
      s.time.ft / 2 ^ 24 + 256 * 1000 ≤ 256 * (c.p 16 48 * secNs + c.p 64 32) ∧
      256 * (c.p 16 48 * secNs + c.p 64 32) ≤ s.time.ft / 2 ^ 24 + 256 * 60 * secNs ∨ c.p 1 2 = 1 ∧ c.p 16 48 = 0 ∧
      1000 ≤ c.p 64 32 ∧ c.p 64 32 ≤ 1000000)) ∧ (2 ≤ j ∨ (s.pf j).cmd = none ∨ s.hasLeave 1 j = true)) ∧
    (∃ (s : State), ∃ (x k : Nat), ∃ (c : Cmd), ∃ (fit : Prop), ∃ (n : Nat) (r : List Nat), k = c.p 0 1 ∧ (fit ↔ (c.p 1 2 = 0 ∧
      s.time.ft / 2 ^ 24 + 256 * 1000 ≤ 256 * (c.p 16 48 * secNs + c.p 64 32) ∧
      256 * (c.p 16 48 * secNs + c.p 64 32) ≤ s.time.ft / 2 ^ 24 + 256 * 60 * secNs ∨ c.p 1 2 = 1 ∧ c.p 16 48 = 0 ∧
      1000 ≤ c.p 64 32 ∧ c.p 64 32 ≤ 1000000)) ∧ s.Issued x 0x80 [(0, 1), (1, 2), (4, 2), (6, 1), (7, 1), (16, 48), (64, 32)] c ∧
      fit ∧ s.pfState k = 0 ∧ (s.pf k).cmd = none ∧ s.rootOk = true ∧ s.time.step = none ∧
      (c.p 1 2 = 1 → s.pinFree (c.p 4 2) 2 0 = true) ∧
      s.pfNis.filter (fun n => (s.ni n).timer == 1 || ((s.ni n).timer == 2 && !s.claimedNow (timerRes n)) && !(c.p 6 1 == 1)) = n :: r) :=
  ⟨⟨on armNear (valid demo), 1, _, armNear, False, rfl, by decide +kernel⟩,
    ⟨on arm1 (slot1 0 { cmd := some 1 }), 1, _, arm1, True, rfl, by decide +kernel⟩,
    ⟨on (arm1) ({ valid demo with time := { ft := 10000 * 2 ^ 32, step := some { abs := true, v := 5 } } }), 1, _, arm1, True,
      rfl, by decide +kernel⟩,
    ⟨on (cmd 0x80 ([0x23, 0] ++ leBytes 6 0 ++ leBytes 4 20000)) ((valid demo).setPin 2 1 0), 1, _, cmd 0x80 ([0x23,
      0] ++ leBytes 6 0 ++ leBytes 4 20000), True, rfl, by decide +kernel⟩,
    ⟨on arm1 (valid demo), 1, _, arm1, True, rfl, by decide +kernel⟩,
    ⟨on arm1 (slot1 0 { cmd := some 1 }), 1, _, arm1, True, rfl, by decide +kernel⟩,
    ⟨on arm1 (valid demo), _, arm1, True, 0, rfl, by decide +kernel⟩,
    ⟨on arm1 ((valid demo).setNi 1 { demoNi with timer := 1 }), 1, _, arm1, True, 1, [], rfl, by decide +kernel⟩⟩

/-- The premises of PhotoFinishSlotCommands are met. -/
theorem met_PhotoFinishSlotCommands :
    (∃ (s : State), ∃ (x k : Nat), ∃ (c : Cmd), k = c.p 0 1 ∧ s.Issued x 0x81 [(0, 1)] c) ∧
    (∃ (s : State), ∃ (x k : Nat), ∃ (c : Cmd), k = c.p 0 1 ∧ s.Issued x 0x82 [(0, 1)] c ∧ s.pfState k ≠ 1 ∧ s.pfState k ≠ 2 ∧
      (s.pf k).cmd = none) ∧
    (∃ (s : State), ∃ (x k : Nat), ∃ (c : Cmd), k = c.p 0 1 ∧ s.Issued x 0x82 [(0, 1)] c ∧
      (s.pfState k = 1 ∨ s.pfState k = 2 ∨ (s.pf k).cmd ≠ none)) ∧
    (∃ (s : State), ∃ (x k : Nat), ∃ (c : Cmd), k = c.p 0 1 ∧ s.Issued x 0x83 [(0, 1)] c ∧
      ¬ (s.pfState k = 1 ∨ (s.pfState k = 2 ∧ s.time.ft / 2 ^ 24 < (s.pf k).tc))) ∧
    (∃ (s : State), ∃ (x k : Nat), ∃ (c : Cmd), k = c.p 0 1 ∧ s.Issued x 0x83 [(0, 1)] c ∧ (s.pfState k = 1 ∨ (s.pfState k = 2 ∧
      s.time.ft / 2 ^ 24 < (s.pf k).tc))) ∧
    (∃ (s : State), ∃ (x k : Nat), ∃ (c : Cmd), k = c.p 0 1 ∧ s.Issued x 0x83 [(0, 1)] c ∧ (s.pfState k = 1 ∨ (s.pfState k = 2 ∧
      s.time.ft / 2 ^ 24 < (s.pf k).tc))) :=
  ⟨⟨on (cmd 0x81 [1]) demo, 1, _, cmd 0x81 [1], rfl, by decide +kernel⟩,
    ⟨on (cmd 0x82 [1]) (slot1 4 {}), 1, _, cmd 0x82 [1], rfl, by decide +kernel⟩,
    ⟨on (cmd 0x82 [1]) (slot1 1 {}), 1, _, cmd 0x82 [1], rfl, by decide +kernel⟩,
    ⟨on (cmd 0x83 [1]) (slot1 0 {}), 1, _, cmd 0x83 [1], rfl, by decide +kernel⟩,
    ⟨on (cmd 0x83 [1]) (slot1 2 { tc := 5120000 }), 1, _, cmd 0x83 [1], rfl, by decide +kernel⟩,
    ⟨on (cmd 0x83 [1]) (slot1 1 {}), 1, _, cmd 0x83 [1], rfl, by decide +kernel⟩⟩

/-- The premises of PhotoFinishCaptures are met. -/
theorem met_PhotoFinishCaptures :
    (∃ (s : State), ∃ (k : Nat), (2 ≤ k ∨ s.pfState k ≠ 1 ∨ mget (fun _ => none) s.time.pinIn (s.pf k).pin = none)) ∧
    (∃ (s : State), ∃ (k : Nat), ∃ (u : Site),
      (2 ≤ k ∨ s.hasSite u = false ∨ s.pfState k ≠ 2 ∨ s.bankState k u ≠ 0 ∨ (s.pf k).got.contains u = true ∨ s.rgState (siteRegion s.rom u) = 3 ∨ s.rgState (siteRegion s.rom u) = 4)) ∧
    (∃ (s : State), ∃ (k : Nat), ∃ (u : Site), ∃ (t : Stamp),
      (2 ≤ k ∨ s.hasSite u = false ∨ s.pfState k ≠ 2 ∨ s.bankState k u ≠ 0 ∨ (s.pf k).got.contains u = false ∨ stampDiff t (s.pfTc k) < 0)) ∧
    (∃ (s : State), ∃ (k : Nat), ∃ (u : Site),
      (2 ≤ k ∨ s.pfState k ≠ 2 ∨ s.time.ft / 2 ^ 24 < (s.pf k).tc + 256 * 1000 ∨ ((sites s.rom).filter (fun u => !(s.pf k).leaves u)).any (s.pfOpen k) = true)) ∧
    (∃ (s : State), ∃ (k : Nat), ∃ (u : Site), ∃ (arm : Nat), ∃ (e : Nat), arm = s.rd pfB (F.PF_SLOT0_ARM_NUM.ix k) ∧ k < 2 ∧
      s.hasSite u = true ∧ (mget (fun _ => none) s.time.pinIn (s.pf k).pin : Option Nat) = some e ∧ s.pfState k = 1 ∧
      s.time.step = none) ∧
    (∃ (s : State), ∃ (k : Nat), ∃ (u : Site), ∃ (t : Stamp), ∃ (arm : Nat), arm = s.rd pfB (F.PF_SLOT0_ARM_NUM.ix k) ∧ (∀ n,
      u = .ni n → (s.pf k).excl.contains n = false) ∧ k < 2 ∧ s.hasSite u = true ∧ s.pfState k = 2 ∧ s.bankState k u = 0 ∧
      s.rgState (siteRegion s.rom u) ≠ 3 ∧ s.rgState (siteRegion s.rom u) ≠ 4 ∧ (s.pf k).got.contains u = false ∧
      stampDiff t (s.pfTc k) ≤ 0) ∧
    (∃ (s : State), ∃ (k : Nat), ∃ (u : Site), ∃ (t : Stamp), ∃ (arm : Nat), arm = s.rd pfB (F.PF_SLOT0_ARM_NUM.ix k) ∧ (∀ n,
      u = .ni n → (s.pf k).excl.contains n = false) ∧ k < 2 ∧ s.hasSite u = true ∧ s.pfState k = 2 ∧ s.bankState k u = 0 ∧
      s.rgState (siteRegion s.rom u) ≠ 3 ∧ s.rgState (siteRegion s.rom u) ≠ 4 ∧ (s.pf k).got.contains u = false ∧
      stampDiff t (s.pfTc k) ≤ 0) ∧
    (∃ (s : State), ∃ (k : Nat), ∃ (u : Site), ∃ (t : Stamp), ∃ (arm : Nat), arm = s.rd pfB (F.PF_SLOT0_ARM_NUM.ix k) ∧ (∀ n,
      u = .ni n → (s.pf k).excl.contains n = false) ∧ k < 2 ∧ s.hasSite u = true ∧ s.pfState k = 2 ∧ s.bankState k u = 0 ∧
      s.rgState (siteRegion s.rom u) ≠ 3 ∧ s.rgState (siteRegion s.rom u) ≠ 4 ∧ (s.pf k).got.contains u = false ∧
      0 < stampDiff t (s.pfTc k)) ∧
    (∃ (s : State), ∃ (k : Nat), ∃ (u : Site), ∃ (arm : Nat), ∃ (n : Nat), arm = s.rd pfB (F.PF_SLOT0_ARM_NUM.ix k) ∧ u = .ni n ∧
      k < 2 ∧ s.hasSite u = true ∧ s.pfState k = 2 ∧ s.bankState k u = 0 ∧ s.rgState (siteRegion s.rom u) ≠ 3 ∧
      s.rgState (siteRegion s.rom u) ≠ 4 ∧ (s.pf k).got.contains u = false ∧ (s.pf k).excl.contains n = true) ∧
    (∃ (s : State), ∃ (k : Nat), ∃ (u : Site), ∃ (t : Stamp), ∃ (arm : Nat), arm = s.rd pfB (F.PF_SLOT0_ARM_NUM.ix k) ∧ k < 2 ∧
      s.hasSite u = true ∧ s.pfState k = 2 ∧ s.bankState k u = 0 ∧ (s.pf k).got.contains u = true ∧ 0 ≤ stampDiff t (s.pfTc k) ∧
      s.rgStill (siteRegion s.rom u) = false) ∧
    (∃ (s : State), ∃ (k : Nat), ∃ (u : Site), ∃ (t : Stamp), ∃ (arm : Nat), arm = s.rd pfB (F.PF_SLOT0_ARM_NUM.ix k) ∧ k < 2 ∧
      s.hasSite u = true ∧ s.pfState k = 2 ∧ s.bankState k u = 0 ∧ (s.pf k).got.contains u = true ∧ 0 ≤ stampDiff t (s.pfTc k) ∧
      s.rgStill (siteRegion s.rom u) = false) ∧
    (∃ (s : State), ∃ (k : Nat), ∃ (u : Site), ∃ (t : Stamp), ∃ (arm : Nat), arm = s.rd pfB (F.PF_SLOT0_ARM_NUM.ix k) ∧ k < 2 ∧
      s.hasSite u = true ∧ s.pfState k = 2 ∧ s.bankState k u = 0 ∧ (s.pf k).got.contains u = true ∧ 0 ≤ stampDiff t (s.pfTc k) ∧
      s.rgStill (siteRegion s.rom u) = true) ∧
    (∃ (s : State), ∃ (k : Nat), ∃ (u : Site), ∃ (arm : Nat), arm = s.rd pfB (F.PF_SLOT0_ARM_NUM.ix k) ∧ k < 2 ∧
      s.hasSite u = true ∧ s.pfState k = 2 ∧ (s.pf k).tc + 256 * 1000 ≤ s.time.ft / 2 ^ 24 ∧
      ((sites s.rom).filter (fun u => !(s.pf k).leaves u)).any (s.pfOpen k) = false ∧ s.flag pfB F.PF_EVD_CTL_SNAP_REC = false) ∧
    (∃ (s : State), ∃ (k : Nat), ∃ (u : Site), ∃ (arm : Nat), arm = s.rd pfB (F.PF_SLOT0_ARM_NUM.ix k) ∧ k < 2 ∧
      s.hasSite u = true ∧ s.pfState k = 2 ∧ (s.pf k).tc + 256 * 1000 ≤ s.time.ft / 2 ^ 24 ∧
      ((sites s.rom).filter (fun u => !(s.pf k).leaves u)).any (s.pfOpen k) = false ∧ s.flag pfB F.PF_EVD_CTL_SNAP_REC = true) :=
  ⟨⟨{ slot1 1 { held := true, mode := 1, pin := 2, dly := 1000 } with time := { pinIn := [(2, some 2560000)] } }, 0,
    by decide +kernel⟩,
    ⟨(slot1 2 { tc := 5120000, got := [.ni 1] }).wr pcrB (F.PCR_RG_STAT_STATE.ix 1) 2, 1, .ni 1, by decide +kernel⟩,
    ⟨(slot1 2 { tc := 5120000, got := [.ni 1] }).wr pcrB (F.PCR_RG_STAT_STATE.ix 1) 2, 0, .ni 1, 5120300, by decide +kernel⟩,
    ⟨{ slot1 1 { held := true, mode := 1, pin := 2, dly := 1000 } with time := { pinIn := [(2, some 2560000)] } }, 1, .time,
      by decide +kernel⟩,
    ⟨{ slot1 1 { held := true, mode := 1, pin := 2, dly := 1000 } with time := { pinIn := [(2, some 2560000)] } }, 1, .time, _,
      2560000, rfl, by decide +kernel⟩,
    ⟨slot1 2 { tc := 5120000 }, 1, .ni 1, 5119999, _, rfl, (fun n _ => rfl), by decide +kernel⟩,
    ⟨slot1 2 { tc := 5120000 }, 1, .rtr 1 0, 5120000, _, rfl, (fun n _ => rfl), by decide +kernel⟩,
    ⟨slot1 2 { tc := 5120000 }, 1, .rtr 1 0, 5120001, _, rfl, (fun n _ => rfl), by decide +kernel⟩,
    ⟨slot1 2 { tc := 5120000, excl := [1] }, 1, _, _, 1, rfl, rfl, by decide +kernel⟩,
    ⟨slot1 2 { tc := 5120000, got := [.rtr 0 1] }, 1, .rtr 0 1, 5120000, _, rfl, by decide +kernel⟩,
    ⟨slot1 2 { tc := 5120000, got := [.ni 0] }, 1, .ni 0, 5120300, _, rfl, by decide +kernel⟩,
    ⟨(slot1 2 { tc := 5120000, got := [.ni 1] }).wr pcrB (F.PCR_RG_STAT_STATE.ix 1) 2, 1, .ni 1, 5120300, _, rfl,
      by decide +kernel⟩,
    ⟨((sites demoRom).foldl (fun a u => a.setBank 1 u 1 false false 0) (slot1 2 { tc := 2000000 })), 1, .time, _, rfl,
      by decide +kernel⟩,
    ⟨((sites demoRom).foldl (fun a u => a.setBank 1 u 1 false false 0) (slot1 2 { tc := 2000000 })).wr pfB F.PF_EVD_CTL_SNAP_REC 1,
      1, .time, _, rfl, by decide +kernel⟩⟩

/-- The premises of EvidenceCommandsWriteRecords are met. -/
theorem met_EvidenceCommandsWriteRecords :
    (∃ (s : State), ∃ (x : Nat), ∃ (c : Cmd), s.Issued x 0x88 [] c ∧ 4 ≤ s.rd pfB F.PF_RING_SIZE_LOG2 ∧
      s.rd pfB F.PF_RING_SIZE_LOG2 ≤ 16 ∧ s.rd pfB F.PF_RING_NI_NI < s.rom.nis.length ∧ s.flag pfB F.PF_EVD_CTL_EN = false ∧
      s.evd.held = [] ∧ s.flag pfB F.PF_EVD_STAT_HEAD_VALID = false) ∧
    (∃ (s : State), ∃ (x : Nat), ∃ (c : Cmd), s.Issued x 0x88 [] c ∧ 4 ≤ s.rd pfB F.PF_RING_SIZE_LOG2 ∧
      s.rd pfB F.PF_RING_SIZE_LOG2 ≤ 16 ∧ s.rd pfB F.PF_RING_NI_NI < s.rom.nis.length ∧ s.flag pfB F.PF_EVD_CTL_EN = false ∧
      s.evd.held = [] ∧ s.flag pfB F.PF_EVD_STAT_HEAD_VALID = true) ∧
    (∃ (s : State), ∃ (x : Nat), ∃ (c : Cmd), s.Issued x 0x88 [] c ∧
      (s.rd pfB F.PF_RING_SIZE_LOG2 < 4 ∨ 16 < s.rd pfB F.PF_RING_SIZE_LOG2 ∨ s.rom.nis.length ≤ s.rd pfB F.PF_RING_NI_NI)) ∧
    (∃ (s : State), ∃ (x : Nat), ∃ (c : Cmd), s.Issued x 0x88 [] c ∧ 4 ≤ s.rd pfB F.PF_RING_SIZE_LOG2 ∧
      s.rd pfB F.PF_RING_SIZE_LOG2 ≤ 16 ∧ s.rd pfB F.PF_RING_NI_NI < s.rom.nis.length ∧ s.flag pfB F.PF_EVD_CTL_EN = true) ∧
    (∃ (s : State), ∃ (x : Nat), ∃ (c : Cmd), s.Issued x 0x8A [] c ∧ s.flag pfB F.PF_EVD_CTL_EN = false) ∧
    (∃ (s : State), ∃ (x : Nat), ∃ (c : Cmd), s.Issued x 0x89 [] c ∧ s.flag pfB F.PF_EVD_CTL_EN = false) ∧
    (∃ (s : State), ∃ (x : Nat), ∃ (c : Cmd), s.Issued x 0x8A [] c ∧ s.flag pfB F.PF_EVD_CTL_EN = true) ∧
    (∃ (s : State), ∃ (x : Nat), ∃ (c : Cmd), ∃ (v : State), v = (s.begin x).emitRec 4 s.time.ft false ∧ s.Issued x 0x89 [] c ∧
      s.flag pfB F.PF_EVD_CTL_EN = true) ∧
    (∃ (s : State), ∃ (x : Nat), ∃ (c : Cmd), s.Issued x 0x8B [] c) ∧
    (∃ (s : State), ∃ (x : Nat), ∃ (c : Cmd), ∃ (r : List Byte) (l : List (List Byte)), s.Issued x 0x88 [] c ∧
      4 ≤ s.rd pfB F.PF_RING_SIZE_LOG2 ∧ s.rd pfB F.PF_RING_SIZE_LOG2 ≤ 16 ∧ s.rd pfB F.PF_RING_NI_NI < s.rom.nis.length ∧
      s.flag pfB F.PF_EVD_CTL_EN = false ∧ s.evd.held = r :: l ∧ s.flag pfB F.PF_EVD_STAT_HEAD_VALID = true) :=
  ⟨⟨on (cmd 0x88 []) ((evd {} (valid demo)).wr pfB F.PF_EVD_CTL_EN 0), 1, cmd 0x88 [], by decide +kernel⟩,
    ⟨on (cmd 0x88 []) (((evd {} (valid demo)).wr pfB F.PF_EVD_CTL_EN 0).wr pfB F.PF_EVD_STAT_HEAD_VALID 1), 1, cmd 0x88 [],
      by decide +kernel⟩,
    ⟨on (cmd 0x88 []) ((evd {} (valid demo)).wr pfB F.PF_RING_SIZE_LOG2 3), 1, cmd 0x88 [], by decide +kernel⟩,
    ⟨((on (cmd 0x88 []) ((evd {} (valid demo)).wr pfB F.PF_EVD_CTL_EN 0)).wr pfB F.PF_EVD_CTL_EN 1), 1, cmd 0x88 [],
      by decide +kernel⟩,
    ⟨((on (cmd 0x8A []) (evd {} (valid demo))).wr pfB F.PF_EVD_CTL_EN 0), 1, cmd 0x8A [], by decide +kernel⟩,
    ⟨((on (cmd 0x89 []) (evd {} (valid demo))).wr pfB F.PF_EVD_CTL_EN 0), 1, cmd 0x89 [], by decide +kernel⟩,
    ⟨on (cmd 0x8A []) (evd {} (valid demo)), 1, cmd 0x8A [], by decide +kernel⟩,
    ⟨on (cmd 0x89 []) (evd {} (valid demo)), 1, cmd 0x89 [], _, rfl, by decide +kernel⟩,
    ⟨on (cmd 0x8B []) demo, 1, cmd 0x8B [], by decide +kernel⟩,
    ⟨on (cmd 0x88 []) (((evd { held := [List.replicate 128 0] } (valid demo)).wr pfB F.PF_EVD_CTL_EN 0).wr pfB F.PF_EVD_STAT_HEAD_VALID 1),
      1, cmd 0x88 [], List.replicate 128 0, [], by decide +kernel⟩⟩

/-- The premises of EvidenceRecordsAndRing are met. -/
theorem met_EvidenceRecordsAndRing :
    (∃ (s : State), s.evd.held.length < 8 ∧ s.nextRecSeq < 2 ^ 64) ∧
    (∃ (s : State), ∃ (t : Nat), s.flag pfB F.PF_EVD_CTL_EN = true ∧ s.rgStill s.rom.homeRegion = false ∧
      (s.rootOk = true → t % (s.evPeriod * 1000000) = 0)) ∧
    (∃ (s : State), ∃ (t : Nat), (s.flag pfB F.PF_EVD_CTL_EN = false ∨ s.rgStill s.rom.homeRegion = true ∨ s.rootOk = true ∧
      t % (s.evPeriod * 1000000) ≠ 0)) ∧
    (∃ (s : State), (s.evd.fly = none ∨ ∃ n, s.evd.fly = some n ∧ (s.ni n).evRes = none)) ∧
    (∃ (s : State), s.evd.retry = false) ∧
    (∃ (s : State), ∃ (n : Nat) (st : Nat), st = 0 ∧ s.evd.fly = some n ∧ (s.ni n).evRes = some st ∧ s.evd.stop = []) ∧
    (∃ (s : State), ∃ (n : Nat) (st : Nat), s.evd.fly = some n ∧ (s.ni n).evRes = some st ∧ s.evd.stop = [] ∧ st ≠ 0 ∧
      s.evd.fails = 0) ∧
    (∃ (s : State), ∃ (n : Nat) (st : Nat), s.evd.fly = some n ∧ (s.ni n).evRes = some st ∧ s.evd.stop = [] ∧ st ≠ 0 ∧
      s.evd.fails ≠ 0) ∧
    (∃ (s : State), ∃ (n : Nat) (st : Nat), s.evd.fly = some n ∧ (s.ni n).evRes = some st ∧ s.evd.stop ≠ []) ∧
    (∃ (s : State), s.evd.retry = true) :=
  ⟨⟨evd {} (valid demo), by decide +kernel⟩,
    ⟨evd {} (valid demo), 0, by decide +kernel⟩,
    ⟨evd {} (valid demo), 1, by decide +kernel⟩,
    ⟨demo, by decide +kernel⟩,
    ⟨demo, by decide +kernel⟩,
    ⟨evd { held := [List.replicate 128 0], fly := some 0 } (ni0 { demoNi with evRes := some 0 }), 0, _, rfl, by decide +kernel⟩,
    ⟨evd { held := [List.replicate 128 0], fly := some 0 } (ni0 { demoNi with evRes := some 12 }), 0, 12, by decide +kernel⟩,
    ⟨evd { held := [List.replicate 128 0], fly := some 0, fails := 1 } (ni0 { demoNi with evRes := some 12 }), 0, 12,
      by decide +kernel⟩,
    ⟨on (cmd 0x89 []) (evd { held := [List.replicate 128 0], fly := some 0, stop := [1] } (ni0 { demoNi with evRes := some 0 })),
      0, 0, by decide +kernel⟩,
    ⟨evd { held := [List.replicate 128 0], retry := true } demo, by decide +kernel⟩⟩

/-! ### Chapter 10 of the statements -/

/-- A STAGE of HID 0 with kind `kind`, index 5 and age 100. -/
def sm (mode kind : Nat) : StageMsg := { hid := 0, tnum := 0, aseq := 1, mode := mode, age := 100, kind := kind, index := 5, len := 0, addr := 0, data := 9 }

/-- NI 0 with a heat message from node 0 in its inbox. -/
def msgAt (op : Nat) (l : List Byte) (x : NiSt) : State :=
  ni0 { x with inbox := [7], pks := [(7, some { hdr := { ptype := 4, op := op, slice := 63, len := l.length }, plane := 0, vc := 0, got := l })] }

/-- What taking that message leaves. -/
def msgTaken (x : NiSt) : State := ni0 { x with inbox := [], pks := [] }

/-- The header of that message. -/
def msgHdr (op : Nat) (l : List Byte) : Hdr := { ptype := 4, op := op, slice := 63, len := l.length }

/-- NI 0 with `g` held under key `k`. -/
def tgt0 (k : Nat) (g : Target) : NiSt := { demoNi with tgts := [(k, some g)] }

/-- A shadow entry of kind 1 and index 5. -/
def shd : Shadow := { aseq := 1, kind := 1, index := 5, data := 0 }

/-- `s` with heat slot `k` in state `st` and holding `v`, valid time at 10,000 ns, and T of the slot `t` ns. -/
def slotAt (k st t : Nat) (v : Heat) (s : State) : State :=
  ((({ s.wr timB F.TIM_STAT_VALID 1 with time := { ft := 10000 * 2 ^ 32 } } : State).setWord64 (hcuB + 0x114 + 0x20 * k)
    (256 * t)).wr (niB 0) F.NI_TIME_STAT_VALID 1 |>.heatGo k st).setHeat k v

/-- An action for node 0 that is staged and not acknowledged. -/
def act0 : Act := { aseq := 1, tnum := 0, kind := 1, index := 5, len := 0, addr := 0, data := 0, cmd := 1, idx := 0 }

/-- A STAGE_ACK of that action with status `st`. -/
def ackOf (st : Nat) : List Byte := leBytes 2 0 ++ leBytes 2 1 ++ leBytes 1 st ++ leBytes 1 3 ++ leBytes 10 0

/-- Slot 0 in state `st` with one target, whose answer to the collect of RKIND `r` is `ans`. -/
def collecting (r st t : Nat) (ans : Option Nat) : State :=
  { (slotAt 0 st t { tgts := [0], commit := some 9 } (ni0 (tgt0 0 { gen := 0, st := 3, ans := ans }))).wr hcuB
      (F.HCU_SLOT1_TARGETS.ix 0) 1 with relay := some (r, 0) }

/-- HEAT_STAGE of one multicast action for node 1. -/
def stageCmd : Cmd := cmd 0x31 (leBytes 2 0 ++ [1] ++ leBytes 13 0 ++ leBytes 4 (1 + 2 ^ 20) ++ leBytes 2 5 ++ leBytes 10 0 ++ leBytes 16 3)

/-- NI 0's endpoint heat window on. -/
def winOn (s : State) : State := s.wr (niB 0) F.NI_HEAT_EP_CFG_EN 1

/-- The premises of StageIsHeldOrConflicts are met. -/
theorem met_StageIsHeldOrConflicts :
    (∃ (s : State), ∃ (n : Nat), (s.hasNi n = false ∨ s.takeMsg n (fun h => h.ptype == 4 && h.op == 0) = none)) ∧
    (∃ (s : State), ∃ (n : Nat), ∃ (s0 s1 : State), ∃ (k : Nat), ∃ (h : Hdr), ∃ (l : List Byte), ∃ (m : StageMsg),
      ∃ (g : Target), ∃ (far : Bool), ∃ (st : Nat) (d : Nat), m = stageMsg l ∧ far = (h.src / 256 != s0.instNum) ∧
      k = heatKey (h.src / 256) m.hid ∧
      s1 = (if ((s0.ni n).tgt k).any (fun y => y.gen != m.hid / 64) then s0.dropTarget n k else s0) ∧
      g = ((s1.ni n).tgt k).getD { gen := m.hid / 64, st := 1, tnum := m.tnum, age := m.age, cut := (s1.ni n).cut.contains (k, m.hid / 64) } ∧
      s.hasNi n = true ∧ s.takeMsg n (fun h => h.ptype == 4 && h.op == 0) = some (h, l, s0) ∧
      s1.targetCheck n far g.items m = some (st, d)) ∧
    (∃ (s : State), ∃ (n : Nat), ∃ (s0 s1 : State), ∃ (k : Nat), ∃ (h : Hdr), ∃ (l : List Byte), ∃ (m : StageMsg),
      ∃ (g : Target), ∃ (far : Bool), ∃ (k' : Nat) (g' : Target), m = stageMsg l ∧ far = (h.src / 256 != s0.instNum) ∧
      k = heatKey (h.src / 256) m.hid ∧
      s1 = (if ((s0.ni n).tgt k).any (fun y => y.gen != m.hid / 64) then s0.dropTarget n k else s0) ∧
      g = ((s1.ni n).tgt k).getD { gen := m.hid / 64, st := 1, tnum := m.tnum, age := m.age, cut := (s1.ni n).cut.contains (k, m.hid / 64) } ∧
      s.hasNi n = true ∧ s.takeMsg n (fun h => h.ptype == 4 && h.op == 0) = some (h, l, s0) ∧
      s1.targetCheck n far g.items m = none ∧ (s1.ni n).holder k (itemKey m.kind m.index) = some (k', g') ∧
      (g'.st = 3 ∨ g'.st = 4 ∨ g'.st = 6 ∨ older k m.age k' g'.age = false)) ∧
    (∃ (s : State), ∃ (n : Nat), ∃ (s0 s1 : State), ∃ (k : Nat), ∃ (h : Hdr), ∃ (l : List Byte), ∃ (m : StageMsg),
      ∃ (g : Target), ∃ (far : Bool), ∃ (s2 : State), ∃ (disp : Nat), ∃ (its : List Shadow), m = stageMsg l ∧
      far = (h.src / 256 != s0.instNum) ∧ k = heatKey (h.src / 256) m.hid ∧
      s1 = (if ((s0.ni n).tgt k).any (fun y => y.gen != m.hid / 64) then s0.dropTarget n k else s0) ∧
      g = ((s1.ni n).tgt k).getD { gen := m.hid / 64, st := 1, tnum := m.tnum, age := m.age, cut := (s1.ni n).cut.contains (k, m.hid / 64) } ∧
      ((s1.ni n).holder k (itemKey m.kind m.index) = none ∧ s2 = s1 ∧ disp = 0 ∨ ∃ k' g',
      (s1.ni n).holder k (itemKey m.kind m.index) = some (k', g') ∧ g'.st ≠ 3 ∧ g'.st ≠ 4 ∧ g'.st ≠ 6 ∧
      older k m.age k' g'.age = true ∧ disp = 65536 + k' % 64 + 64 * g'.gen ∧ ∃ v : State,
      v = s1.updNi n (fun x => x.setTgt k' (some { g' with conflict := true, win := g'.win && itemKey m.kind m.index != (7, 0), items := g'.items.filter (fun i => itemKey i.kind i.index != itemKey m.kind m.index) })) ∧
      s2 = (if itemKey m.kind m.index = (7, 0) then v.heatCode n 2 k' else v)) ∧
      its = putShadow g.items { aseq := m.aseq, kind := m.kind, index := m.index, data := s2.stagedData n far m } ∧
      s.hasNi n = true ∧ s.takeMsg n (fun h => h.ptype == 4 && h.op == 0) = some (h, l, s0) ∧
      s1.targetCheck n far g.items m = none ∧ m.kind ≠ 7 ∧ (its.length = g.items.length ∨ (s2.ni n).shadowUsed < 512)) ∧
    (∃ (s : State), ∃ (n : Nat), ∃ (s0 s1 : State), ∃ (k : Nat), ∃ (h : Hdr), ∃ (l : List Byte), ∃ (m : StageMsg),
      ∃ (g : Target), ∃ (far : Bool), ∃ (s2 : State), ∃ (disp : Nat), ∃ (its : List Shadow), m = stageMsg l ∧
      far = (h.src / 256 != s0.instNum) ∧ k = heatKey (h.src / 256) m.hid ∧
      s1 = (if ((s0.ni n).tgt k).any (fun y => y.gen != m.hid / 64) then s0.dropTarget n k else s0) ∧
      g = ((s1.ni n).tgt k).getD { gen := m.hid / 64, st := 1, tnum := m.tnum, age := m.age, cut := (s1.ni n).cut.contains (k, m.hid / 64) } ∧
      ((s1.ni n).holder k (itemKey m.kind m.index) = none ∧ s2 = s1 ∧ disp = 0 ∨ ∃ k' g',
      (s1.ni n).holder k (itemKey m.kind m.index) = some (k', g') ∧ g'.st ≠ 3 ∧ g'.st ≠ 4 ∧ g'.st ≠ 6 ∧
      older k m.age k' g'.age = true ∧ disp = 65536 + k' % 64 + 64 * g'.gen ∧ ∃ v : State,
      v = s1.updNi n (fun x => x.setTgt k' (some { g' with conflict := true, win := g'.win && itemKey m.kind m.index != (7, 0), items := g'.items.filter (fun i => itemKey i.kind i.index != itemKey m.kind m.index) })) ∧
      s2 = (if itemKey m.kind m.index = (7, 0) then v.heatCode n 2 k' else v)) ∧
      its = putShadow g.items { aseq := m.aseq, kind := m.kind, index := m.index, data := s2.stagedData n far m } ∧
      s.hasNi n = true ∧ s.takeMsg n (fun h => h.ptype == 4 && h.op == 0) = some (h, l, s0) ∧
      s1.targetCheck n far g.items m = none ∧ m.kind ≠ 7 ∧ its.length ≠ g.items.length ∧ 512 ≤ (s2.ni n).shadowUsed) ∧
    (∃ (s : State), ∃ (n : Nat), ∃ (s0 s1 : State), ∃ (k : Nat), ∃ (h : Hdr), ∃ (l : List Byte), ∃ (m : StageMsg),
      ∃ (g : Target), ∃ (far : Bool), ∃ (s2 : State), ∃ (disp : Nat), ∃ (its : List Shadow), ∃ (v : State), m = stageMsg l ∧
      far = (h.src / 256 != s0.instNum) ∧ k = heatKey (h.src / 256) m.hid ∧
      s1 = (if ((s0.ni n).tgt k).any (fun y => y.gen != m.hid / 64) then s0.dropTarget n k else s0) ∧
      g = ((s1.ni n).tgt k).getD { gen := m.hid / 64, st := 1, tnum := m.tnum, age := m.age, cut := (s1.ni n).cut.contains (k, m.hid / 64) } ∧
      ((s1.ni n).holder k (itemKey m.kind m.index) = none ∧ s2 = s1 ∧ disp = 0 ∨ ∃ k' g',
      (s1.ni n).holder k (itemKey m.kind m.index) = some (k', g') ∧ g'.st ≠ 3 ∧ g'.st ≠ 4 ∧ g'.st ≠ 6 ∧
      older k m.age k' g'.age = true ∧ disp = 65536 + k' % 64 + 64 * g'.gen ∧ ∃ v : State,
      v = s1.updNi n (fun x => x.setTgt k' (some { g' with conflict := true, win := g'.win && itemKey m.kind m.index != (7, 0), items := g'.items.filter (fun i => itemKey i.kind i.index != itemKey m.kind m.index) })) ∧
      s2 = (if itemKey m.kind m.index = (7, 0) then v.heatCode n 2 k' else v)) ∧
      its = putShadow g.items { aseq := m.aseq, kind := m.kind, index := m.index, data := s2.stagedData n far m } ∧
      v = s2.updNi n (fun x => x.setTgt k (some { g with win := true, ep := true })) ∧ s.hasNi n = true ∧
      s.takeMsg n (fun h => h.ptype == 4 && h.op == 0) = some (h, l, s0) ∧ s1.targetCheck n far g.items m = none ∧ m.kind = 7 ∧
      (v.ni n).epLow = true) ∧
    (∃ (s : State), ∃ (n : Nat), ∃ (s0 s1 : State), ∃ (k : Nat), ∃ (h : Hdr), ∃ (l : List Byte), ∃ (m : StageMsg),
      ∃ (g : Target), ∃ (far : Bool), ∃ (s2 : State), ∃ (disp : Nat), ∃ (its : List Shadow), ∃ (v : State), m = stageMsg l ∧
      far = (h.src / 256 != s0.instNum) ∧ k = heatKey (h.src / 256) m.hid ∧
      s1 = (if ((s0.ni n).tgt k).any (fun y => y.gen != m.hid / 64) then s0.dropTarget n k else s0) ∧
      g = ((s1.ni n).tgt k).getD { gen := m.hid / 64, st := 1, tnum := m.tnum, age := m.age, cut := (s1.ni n).cut.contains (k, m.hid / 64) } ∧
      ((s1.ni n).holder k (itemKey m.kind m.index) = none ∧ s2 = s1 ∧ disp = 0 ∨ ∃ k' g',
      (s1.ni n).holder k (itemKey m.kind m.index) = some (k', g') ∧ g'.st ≠ 3 ∧ g'.st ≠ 4 ∧ g'.st ≠ 6 ∧
      older k m.age k' g'.age = true ∧ disp = 65536 + k' % 64 + 64 * g'.gen ∧ ∃ v : State,
      v = s1.updNi n (fun x => x.setTgt k' (some { g' with conflict := true, win := g'.win && itemKey m.kind m.index != (7, 0), items := g'.items.filter (fun i => itemKey i.kind i.index != itemKey m.kind m.index) })) ∧
      s2 = (if itemKey m.kind m.index = (7, 0) then v.heatCode n 2 k' else v)) ∧
      its = putShadow g.items { aseq := m.aseq, kind := m.kind, index := m.index, data := s2.stagedData n far m } ∧
      v = s2.updNi n (fun x => x.setTgt k (some { g with win := true, ep := true })) ∧ s.hasNi n = true ∧
      s.takeMsg n (fun h => h.ptype == 4 && h.op == 0) = some (h, l, s0) ∧ s1.targetCheck n far g.items m = none ∧ m.kind = 7 ∧
      (v.ni n).epLow = false ∧ v.flag (niB n) F.NI_EP_CFG_TGT_EN = false) ∧
    (∃ (s : State), ∃ (n : Nat), ∃ (s0 s1 : State), ∃ (k : Nat), ∃ (h : Hdr), ∃ (l : List Byte), ∃ (m : StageMsg),
      ∃ (g : Target), ∃ (far : Bool), ∃ (s2 : State), ∃ (disp : Nat), ∃ (its : List Shadow), ∃ (v : State), m = stageMsg l ∧
      far = (h.src / 256 != s0.instNum) ∧ k = heatKey (h.src / 256) m.hid ∧
      s1 = (if ((s0.ni n).tgt k).any (fun y => y.gen != m.hid / 64) then s0.dropTarget n k else s0) ∧
      g = ((s1.ni n).tgt k).getD { gen := m.hid / 64, st := 1, tnum := m.tnum, age := m.age, cut := (s1.ni n).cut.contains (k, m.hid / 64) } ∧
      ((s1.ni n).holder k (itemKey m.kind m.index) = none ∧ s2 = s1 ∧ disp = 0 ∨ ∃ k' g',
      (s1.ni n).holder k (itemKey m.kind m.index) = some (k', g') ∧ g'.st ≠ 3 ∧ g'.st ≠ 4 ∧ g'.st ≠ 6 ∧
      older k m.age k' g'.age = true ∧ disp = 65536 + k' % 64 + 64 * g'.gen ∧ ∃ v : State,
      v = s1.updNi n (fun x => x.setTgt k' (some { g' with conflict := true, win := g'.win && itemKey m.kind m.index != (7, 0), items := g'.items.filter (fun i => itemKey i.kind i.index != itemKey m.kind m.index) })) ∧
      s2 = (if itemKey m.kind m.index = (7, 0) then v.heatCode n 2 k' else v)) ∧
      its = putShadow g.items { aseq := m.aseq, kind := m.kind, index := m.index, data := s2.stagedData n far m } ∧
      v = s2.updNi n (fun x => x.setTgt k (some { g with win := true, ep := true })) ∧ s.hasNi n = true ∧
      s.takeMsg n (fun h => h.ptype == 4 && h.op == 0) = some (h, l, s0) ∧ s1.targetCheck n far g.items m = none ∧ m.kind = 7 ∧
      (v.ni n).epLow = false ∧ v.flag (niB n) F.NI_EP_CFG_TGT_EN = true) :=
  ⟨⟨slotAt 0 1 0 { acts := [act0], tgts := [0], stages := [(1, 1)] } demo, 0, by decide +kernel⟩,
    ⟨msgAt 0 (stageBytes 0 { sm 0 5 with index := 2000 }) demoNi, 0, msgTaken demoNi, _, _,
      msgHdr 0 (stageBytes 0 { sm 0 5 with index := 2000 }), (stageBytes 0 { sm 0 5 with index := 2000 }), _, _, _,
      (((msgTaken demoNi).targetCheck 0 false [] { sm 0 5 with index := 2000 }).getD (0, 0)).1,
      (((msgTaken demoNi).targetCheck 0 false [] { sm 0 5 with index := 2000 }).getD (0, 0)).2, rfl, rfl, rfl, rfl, rfl,
      by decide +kernel⟩,
    ⟨msgAt 0 (stageBytes 0 (sm 0 1)) (tgt0 1 { gen := 0, st := 3, items := [shd] }), 0,
      msgTaken (tgt0 1 { gen := 0, st := 3, items := [shd] }), _, _, msgHdr 0 (stageBytes 0 (sm 0 1)), (stageBytes 0 (sm 0 1)),
      _, _, _, 1, { gen := 0, st := 3, items := [shd] }, rfl, rfl, rfl, rfl, rfl, by decide +kernel⟩,
    ⟨msgAt 0 (stageBytes 0 (sm 0 1)) demoNi, 0, msgTaken demoNi, _, _, msgHdr 0 (stageBytes 0 (sm 0 1)), (stageBytes 0 (sm 0 1)),
      _, _, _, msgTaken demoNi, 0, _, rfl, rfl, rfl, rfl, rfl, .inl ⟨by decide +kernel, by decide +kernel, rfl⟩, rfl,
      by decide +kernel⟩,
    ⟨msgAt 0 (stageBytes 0 (sm 0 1)) (tgt0 3 { gen := 0, st := 1, items := List.replicate 512 { shd with index := 6 } }), 0,
      msgTaken (tgt0 3 { gen := 0, st := 1, items := List.replicate 512 { shd with index := 6 } }), _, _,
      msgHdr 0 (stageBytes 0 (sm 0 1)), (stageBytes 0 (sm 0 1)), _, _, _,
      msgTaken (tgt0 3 { gen := 0, st := 1, items := List.replicate 512 { shd with index := 6 } }), 0, _, rfl, rfl, rfl, rfl,
      rfl, .inl ⟨by decide +kernel, by decide +kernel, rfl⟩, rfl, by decide +kernel⟩,
    ⟨(winOn (msgAt 0 (stageBytes 0 { sm 0 7 with index := 0, len := 8 }) { demoNi with epLow := true })), 0,
      (winOn (msgTaken { demoNi with epLow := true })), _, _, msgHdr 0 (stageBytes 0 { sm 0 7 with index := 0, len := 8 }),
      (stageBytes 0 { sm 0 7 with index := 0, len := 8 }), _, _, _, (winOn (msgTaken { demoNi with epLow := true })), 0, _, _,
      rfl, rfl, rfl, rfl, rfl, .inl ⟨by decide +kernel, by decide +kernel, rfl⟩, rfl, rfl, by decide +kernel⟩,
    ⟨(winOn (msgAt 0 (stageBytes 0 { sm 0 7 with index := 0, len := 8 }) demoNi)).wr (niB 0) F.NI_EP_CFG_TGT_EN 0, 0,
      (winOn (msgTaken demoNi)).wr (niB 0) F.NI_EP_CFG_TGT_EN 0, _, _,
      msgHdr 0 (stageBytes 0 { sm 0 7 with index := 0, len := 8 }), (stageBytes 0 { sm 0 7 with index := 0, len := 8 }), _, _, _,
      (winOn (msgTaken demoNi)).wr (niB 0) F.NI_EP_CFG_TGT_EN 0, 0, _, _, rfl, rfl, rfl, rfl, rfl, .inl ⟨by decide +kernel,
      by decide +kernel, rfl⟩, rfl, rfl, by decide +kernel⟩,
    ⟨(winOn (msgAt 0 (stageBytes 0 { sm 0 7 with index := 0, len := 8 }) demoNi)), 0, (winOn (msgTaken demoNi)), _, _,
      msgHdr 0 (stageBytes 0 { sm 0 7 with index := 0, len := 8 }), (stageBytes 0 { sm 0 7 with index := 0, len := 8 }), _, _, _,
      (winOn (msgTaken demoNi)), 0, _, _, rfl, rfl, rfl, rfl, rfl, .inl ⟨by decide +kernel, by decide +kernel, rfl⟩, rfl, rfl,
      by decide +kernel⟩⟩

/-- The premises of TargetFollowsItsHeat are met. -/
theorem met_TargetFollowsItsHeat :
    (∃ (s : State), ∃ (n hid inst : Nat), ((s.ni n).tgtOf inst hid = none ∨ s.hears n = false)) ∧
    (∃ (s : State), ∃ (n hid inst : Nat), ((s.ni n).tgtOf inst hid = none ∨ s.hears n = false)) ∧
    (∃ (s : State), ∃ (n hid inst : Nat), ((s.ni n).tgtOf inst hid = none ∨ s.hears n = false)) ∧
    (∃ (s : State), ∃ (n hid inst : Nat), ((s.ni n).tgtOf inst hid = none ∨ s.hears n = false)) ∧
    (∃ (s : State), ∃ (n hid inst : Nat), ((s.ni n).tgtOf inst hid = none ∨ s.hears n = false)) ∧
    (∃ (s : State), ∃ (n hid inst : Nat), ((s.ni n).tgtOf inst hid = none ∨ s.hears n = false)) ∧
    (∃ (s : State), ∃ (n hid inst : Nat), ((s.ni n).tgtOf inst hid = none ∨ s.hears n = false)) ∧
    (∃ (s : State), ∃ (n hid inst : Nat), ((s.ni n).tgtOf inst hid = none ∨ s.hasNi n = false)) ∧
    (∃ (s : State), ∃ (n hid inst : Nat), ((s.ni n).tgtOf inst hid = none ∨ s.hasNi n = false)) ∧
    (∃ (s : State), ∃ (n hid inst : Nat), ((s.ni n).tgtOf inst hid = none ∨ s.hasNi n = false)) ∧
    (∃ (s : State), ∃ (n hid inst : Nat), ∃ (k : Nat), ∃ (g : Target), ∃ (mem : Bool) (v : Nat), k = heatKey inst hid ∧
      v = s.voteOf n g mem ∧ s.hasNi n = true ∧ (s.ni n).tgtOf inst hid = some g ∧ s.hears n = true ∧ g.st ≤ 2 ∧
      s.relayed 0 inst hid g = true) ∧
    (∃ (s : State), ∃ (n hid inst : Nat), ∃ (k : Nat), ∃ (g : Target), k = heatKey inst hid ∧ s.hasNi n = true ∧
      (s.ni n).tgtOf inst hid = some g ∧ (2 < g.st ∨ s.relayed 0 inst hid g = false)) ∧
    (∃ (s : State), ∃ (n hid inst : Nat), ∃ (k : Nat), ∃ (g : Target), ∃ (tt : Stamp), k = heatKey inst hid ∧ s.hasNi n = true ∧
      (s.ni n).tgtOf inst hid = some g ∧ (2 < g.st ∨ s.relayed 1 inst hid g = false ∨ inst ≠ s.instNum ∧ g.calls.contains (1,
      tt) = false)) ∧
    (∃ (s : State), ∃ (n hid inst : Nat), ∃ (k : Nat), ∃ (g : Target), ∃ (tt : Stamp) (at' : Stamp), k = heatKey inst hid ∧
      at' = (if inst = s.instNum then s.heatT (hid % 64) else tt) ∧ s.hasNi n = true ∧ (s.ni n).tgtOf inst hid = some g ∧
      s.hears n = true ∧ g.st ≤ 2 ∧ s.relayed 1 inst hid g = true ∧ (inst ≠ s.instNum → g.calls.contains (1, tt) = true) ∧
      s.niTimeOk n = true ∧ g.conflict = false ∧ g.lost = false) ∧
    (∃ (s : State), ∃ (n hid inst : Nat), ∃ (k : Nat), ∃ (g : Target), ∃ (tt : Stamp) (at' : Stamp), ∃ (e : Nat),
      k = heatKey inst hid ∧ at' = (if inst = s.instNum then s.heatT (hid % 64) else tt) ∧ s.hasNi n = true ∧
      (s.ni n).tgtOf inst hid = some g ∧ s.hears n = true ∧ g.st ≤ 2 ∧ s.relayed 1 inst hid g = true ∧
      (inst ≠ s.instNum → g.calls.contains (1, tt) = true) ∧ (s.niTimeOk n = false ∧ e = 1 ∨ s.niTimeOk n = true ∧
      g.conflict = true ∧ e = 4 ∨ s.niTimeOk n = true ∧ g.conflict = false ∧ g.lost = true ∧ e = 5)) ∧
    (∃ (s : State), ∃ (n hid inst : Nat), ∃ (k : Nat), ∃ (g : Target), k = heatKey inst hid ∧ s.hasNi n = true ∧
      (s.ni n).tgtOf inst hid = some g ∧ (g.st ≠ 3 ∨ inst ≠ s.instNum ∧ s.relayed 2 inst hid g = false ∨ inst = s.instNum ∧ ∀ st,
      s.heatNow hid = some st → st < 6 ∨ 9 < st)) ∧
    (∃ (s : State), ∃ (n hid inst : Nat), ∃ (k : Nat), ∃ (g : Target), ∃ (per : Nat), ∃ (t : Stamp), ∃ (room : Int),
      k = heatKey inst hid ∧ (inst = s.instNum → ∃ st, s.heatNow hid = some st ∧ 6 ≤ st ∧ st ≤ 9) ∧
      room = (stampDiff g.t t - ((if g.ep then 2 * per else 0 : Nat) : Int)) * s.mhz (niRec s.rom n).region ∧ s.hasNi n = true ∧
      (s.ni n).tgtOf inst hid = some g ∧ s.hears n = true ∧ g.st = 3 ∧ (inst ≠ s.instNum → s.relayed 2 inst hid g = true) ∧
      2 * 256000 ≤ room) ∧
    (∃ (s : State), ∃ (n hid inst : Nat), ∃ (k : Nat), ∃ (g : Target), ∃ (per : Nat), ∃ (t : Stamp), ∃ (room : Int),
      k = heatKey inst hid ∧ (inst = s.instNum → ∃ st, s.heatNow hid = some st ∧ 6 ≤ st ∧ st ≤ 9) ∧
      room = (stampDiff g.t t - ((if g.ep then 2 * per else 0 : Nat) : Int)) * s.mhz (niRec s.rom n).region ∧ s.hasNi n = true ∧
      (s.ni n).tgtOf inst hid = some g ∧ s.hears n = true ∧ g.st = 3 ∧ (inst ≠ s.instNum → s.relayed 2 inst hid g = true) ∧
      room < 2 * 256000) ∧
    (∃ (s : State), ∃ (n hid inst : Nat), ∃ (k : Nat), ∃ (g : Target), k = heatKey inst hid ∧ s.hasNi n = true ∧
      (s.ni n).tgtOf inst hid = some g ∧ g.st ≠ 4) ∧
    (∃ (s : State), ∃ (n hid inst : Nat), ∃ (k : Nat), ∃ (g : Target), ∃ (t : Stamp), k = heatKey inst hid ∧ s.hasNi n = true ∧
      (s.ni n).tgtOf inst hid = some g ∧ g.st = 4 ∧ stampDiff t g.t < 0) ∧
    (∃ (s : State), ∃ (n hid inst : Nat), ∃ (k : Nat), ∃ (g : Target), ∃ (t : Stamp) (mem : Bool), k = heatKey inst hid ∧
      s.hasNi n = true ∧ (s.ni n).tgtOf inst hid = some g ∧ g.st = 4 ∧ 0 ≤ stampDiff t g.t ∧ (mem = false ∨ g.items = [])) ∧
    (∃ (s : State), ∃ (n hid inst : Nat), ∃ (k : Nat), ∃ (g : Target), ∃ (t : Stamp) (mem : Bool), k = heatKey inst hid ∧
      s.hasNi n = true ∧ (s.ni n).tgtOf inst hid = some g ∧ g.st = 4 ∧ 0 ≤ stampDiff t g.t ∧ (mem = false ∨ g.items = [])) ∧
    (∃ (s : State), ∃ (n hid inst : Nat), ∃ (k : Nat), ∃ (g : Target), ∃ (t : Stamp) (mem : Bool), k = heatKey inst hid ∧
      mem = true ∧ s.hasNi n = true ∧ (s.ni n).tgtOf inst hid = some g ∧ g.st = 4 ∧ 0 ≤ stampDiff t g.t ∧ g.items ≠ []) ∧
    (∃ (s : State), ∃ (n hid inst : Nat), ∃ (k : Nat), ∃ (g : Target), ∃ (t : Stamp), k = heatKey inst hid ∧ s.hasNi n = true ∧
      (s.ni n).tgtOf inst hid = some g ∧ (g.st ≠ 3 ∨ stampDiff t g.t < 0)) ∧
    (∃ (s : State), ∃ (n hid inst : Nat), ∃ (k : Nat), ∃ (g : Target), ∃ (t : Stamp), k = heatKey inst hid ∧ s.hasNi n = true ∧
      (s.ni n).tgtOf inst hid = some g ∧ g.st = 3 ∧ 0 ≤ stampDiff t g.t) ∧
    (∃ (s : State), ∃ (n hid inst : Nat), ∃ (k : Nat), ∃ (g : Target), k = heatKey inst hid ∧ s.hasNi n = true ∧
      (s.ni n).tgtOf inst hid = some g ∧ (g.st = 5 ∨ inst ≠ s.instNum ∧ s.relayed 3 inst hid g = false ∨ inst = s.instNum ∧ ∃ st,
      s.heatNow hid = some st ∧ st ≠ 10)) ∧
    (∃ (s : State), ∃ (n hid inst : Nat), ∃ (k : Nat), ∃ (g : Target), k = heatKey inst hid ∧ (inst = s.instNum → ∀ st,
      s.heatNow hid = some st → st = 10) ∧ s.hasNi n = true ∧ (s.ni n).tgtOf inst hid = some g ∧ s.hears n = true ∧ g.st ≠ 5 ∧
      (inst ≠ s.instNum → s.relayed 3 inst hid g = true)) :=
  ⟨⟨ni0 (tgt0 0 { gen := 0, st := 4, t := 5120000 }), 0, 0, 1, by decide +kernel⟩,
    ⟨ni0 (tgt0 0 { gen := 0, st := 4, t := 5120000, items := [shd] }), 0, 0, 1, by decide +kernel⟩,
    ⟨ni0 (tgt0 0 { gen := 0, st := 4, t := 5120000 }), 0, 0, 1, by decide +kernel⟩,
    ⟨ni0 (tgt0 0 { gen := 0, st := 4, t := 5120000 }), 0, 0, 1, by decide +kernel⟩,
    ⟨ni0 (tgt0 0 { gen := 0, st := 4, t := 5120000, items := [shd] }), 0, 0, 1, by decide +kernel⟩,
    ⟨slotAt 0 9 0 {} (ni0 (tgt0 0 { gen := 0, st := 3, t := 5120000, ep := true })), 0, 0, 1, by decide +kernel⟩,
    ⟨slotAt 0 10 0 {} (ni0 (tgt0 0 { gen := 0, st := 4, win := true })), 0, 0, 1, by decide +kernel⟩,
    ⟨ni0 (tgt0 0 { gen := 0, st := 4, t := 5120000 }), 0, 0, 1, by decide +kernel⟩,
    ⟨ni0 (tgt0 0 { gen := 0, st := 3, t := 5120000 }), 0, 0, 1, by decide +kernel⟩,
    ⟨ni0 (tgt0 0 { gen := 0, st := 4, t := 5120000 }), 0, 0, 1, by decide +kernel⟩,
    ⟨{ slotAt 0 3 0 {} (ni0 (tgt0 0 { gen := 0, st := 1, items := [shd] })) with relay := some (0, 0) }, 0, 0, 0, _,
      { gen := 0, st := 1, items := [shd] }, false, _, rfl, rfl, by decide +kernel⟩,
    ⟨ni0 (tgt0 0 { gen := 0, st := 4, t := 5120000 }), 0, 0, 0, _, { gen := 0, st := 4, t := 5120000 }, rfl, by decide +kernel⟩,
    ⟨ni0 (tgt0 0 { gen := 0, st := 4, t := 5120000, items := [shd] }), 0, 0, 0, _,
      { gen := 0, st := 4, t := 5120000, items := [shd] }, 0, rfl, by decide +kernel⟩,
    ⟨{ slotAt 0 5 20000 {} (ni0 (tgt0 0 { gen := 0, st := 2 })) with relay := some (1, 0) }, 0, 0, 0, _, { gen := 0, st := 2 },
      0, _, rfl, rfl, by decide +kernel⟩,
    ⟨({ slotAt 0 5 20000 {} (ni0 (tgt0 0 { gen := 0, st := 2 })) with relay := some (1, 0) }).wr (niB 0) F.NI_TIME_STAT_VALID 0,
      0, 0, 0, _, { gen := 0, st := 2 }, 0, _, 1, rfl, rfl, by decide +kernel⟩,
    ⟨slotAt 0 10 0 {} (ni0 (tgt0 0 { gen := 0, st := 4, win := true })), 0, 0, 0, _, { gen := 0, st := 4, win := true }, rfl,
      by decide +kernel⟩,
    ⟨slotAt 0 6 0 {} (ni0 (tgt0 0 { gen := 0, st := 3, t := 5120000, ep := true })), 0, 0, 0, _,
      { gen := 0, st := 3, t := 5120000, ep := true }, 107, 5119572, _, rfl, (fun _ => ⟨6, by decide +kernel⟩), rfl,
      by decide +kernel⟩,
    ⟨slotAt 0 9 0 {} (ni0 (tgt0 0 { gen := 0, st := 3, t := 5120000, ep := true })), 0, 0, 0, _,
      { gen := 0, st := 3, t := 5120000, ep := true }, 107, 5119573, _, rfl, (fun _ => ⟨9, by decide +kernel⟩), rfl,
      by decide +kernel⟩,
    ⟨ni0 (tgt0 0 { gen := 0, st := 3, t := 5120000 }), 0, 0, 0, _, { gen := 0, st := 3, t := 5120000 }, rfl, by decide +kernel⟩,
    ⟨ni0 (tgt0 0 { gen := 0, st := 4, t := 5120000 }), 0, 0, 0, _, { gen := 0, st := 4, t := 5120000 }, 5119999, rfl,
      by decide +kernel⟩,
    ⟨ni0 (tgt0 0 { gen := 0, st := 4, t := 5120000, items := [shd] }), 0, 0, 0, _,
      { gen := 0, st := 4, t := 5120000, items := [shd] }, 5120000, false, rfl, by decide +kernel⟩,
    ⟨ni0 (tgt0 0 { gen := 0, st := 4, t := 5120000 }), 0, 0, 0, _, { gen := 0, st := 4, t := 5120000 }, 5120000, true, rfl,
      by decide +kernel⟩,
    ⟨ni0 (tgt0 0 { gen := 0, st := 4, t := 5120000, items := [shd] }), 0, 0, 0, _,
      { gen := 0, st := 4, t := 5120000, items := [shd] }, 5120000, _, rfl, rfl, by decide +kernel⟩,
    ⟨ni0 (tgt0 0 { gen := 0, st := 4, t := 5120000 }), 0, 0, 0, _, { gen := 0, st := 4, t := 5120000 }, 5119999, rfl,
      by decide +kernel⟩,
    ⟨ni0 (tgt0 0 { gen := 0, st := 3, t := 5120000 }), 0, 0, 0, _, { gen := 0, st := 3, t := 5120000 }, 5120000, rfl,
      by decide +kernel⟩,
    ⟨ni0 (tgt0 0 { gen := 0, st := 4, t := 5120000, items := [shd] }), 0, 0, 0, _,
      { gen := 0, st := 4, t := 5120000, items := [shd] }, rfl, by decide +kernel⟩,
    ⟨slotAt 0 10 0 {} (ni0 (tgt0 0 { gen := 0, st := 4, win := true })), 0, 0, 0, _, { gen := 0, st := 4, win := true }, rfl,
      (fun _ st h => (Option.some.inj (h.symm.trans (by decide +kernel : _ = some 10)))), by decide +kernel⟩⟩

/-- The premises of ReconcileProbesAndApplies are met. -/
theorem met_ReconcileProbesAndApplies :
    (∃ (s : State), ∃ (n : Nat), (s.hasNi n = false ∨ s.takeMsg n (fun h => h.ptype == 4 && h.op == 8) = none)) ∧
    (∃ (s : State), ∃ (n : Nat), ∃ (s1 : State), ∃ (k : Nat), ∃ (h : Hdr), ∃ (l : List Byte), ∃ (m : StageMsg),
      ∃ (v : State) (st : Nat) (d : Nat) (disp : Nat), m = stageMsg l ∧ k = heatKey (h.src / 256) m.hid ∧ s.hasNi n = true ∧
      s.takeMsg n (fun h => h.ptype == 4 && h.op == 8) = some (h, l, s1) ∧ m.mode = 0 ∧ s1.stageAct n h.src m = (v, some (st, d,
      disp))) ∧
    (∃ (s : State), ∃ (n : Nat), ∃ (s1 : State), ∃ (k : Nat), ∃ (h : Hdr), ∃ (l : List Byte), ∃ (m : StageMsg), ∃ (v : State),
      m = stageMsg l ∧ k = heatKey (h.src / 256) m.hid ∧ s.hasNi n = true ∧
      s.takeMsg n (fun h => h.ptype == 4 && h.op == 8) = some (h, l, s1) ∧ m.mode = 0 ∧ s1.stageAct n h.src m = (v, none)) ∧
    (∃ (s : State), ∃ (n : Nat), ∃ (s1 : State), ∃ (k : Nat), ∃ (h : Hdr), ∃ (l : List Byte), ∃ (m : StageMsg), m = stageMsg l ∧
      k = heatKey (h.src / 256) m.hid ∧ s.hasNi n = true ∧ s.takeMsg n (fun h => h.ptype == 4 && h.op == 8) = some (h, l, s1) ∧
      m.mode ≠ 0 ∧ (s1.ni n).tgtOf (h.src / 256) m.hid = none) ∧
    (∃ (s : State), ∃ (n : Nat), ∃ (s1 : State), ∃ (k : Nat), ∃ (h : Hdr), ∃ (l : List Byte), ∃ (m : StageMsg), ∃ (g : Target),
      m = stageMsg l ∧ k = heatKey (h.src / 256) m.hid ∧ s.hasNi n = true ∧
      s.takeMsg n (fun h => h.ptype == 4 && h.op == 8) = some (h, l, s1) ∧ (s1.ni n).tgtOf (h.src / 256) m.hid = some g ∧
      g.st = 6 ∧ g.lost = false ∧ m.mode = 3) ∧
    (∃ (s : State), ∃ (n : Nat), ∃ (mem : Bool), ∃ (s1 : State), ∃ (k : Nat), ∃ (h : Hdr), ∃ (l : List Byte), ∃ (m : StageMsg),
      ∃ (g : Target), m = stageMsg l ∧ k = heatKey (h.src / 256) m.hid ∧ s.hasNi n = true ∧
      s.takeMsg n (fun h => h.ptype == 4 && h.op == 8) = some (h, l, s1) ∧ (s1.ni n).tgtOf (h.src / 256) m.hid = some g ∧
      (m.mode = 1 ∧ g.st = 6 ∧ g.lost = false ∨ m.mode = 2 ∧ g.st = 1 ∧ g.lost = false) ∧ (mem = false ∨ g.items = [])) ∧
    (∃ (s : State), ∃ (n : Nat), ∃ (mem : Bool), ∃ (s1 : State), ∃ (k : Nat), ∃ (h : Hdr), ∃ (l : List Byte), ∃ (m : StageMsg),
      ∃ (g : Target), m = stageMsg l ∧ k = heatKey (h.src / 256) m.hid ∧ s.hasNi n = true ∧
      s.takeMsg n (fun h => h.ptype == 4 && h.op == 8) = some (h, l, s1) ∧ (s1.ni n).tgtOf (h.src / 256) m.hid = some g ∧
      (m.mode = 1 ∧ g.st = 6 ∧ g.lost = false ∨ m.mode = 2 ∧ g.st = 1 ∧ g.lost = false) ∧ (mem = false ∨ g.items = [])) ∧
    (∃ (s : State), ∃ (n : Nat), ∃ (mem : Bool), ∃ (s1 : State), ∃ (k : Nat), ∃ (h : Hdr), ∃ (l : List Byte), ∃ (m : StageMsg),
      ∃ (g : Target), m = stageMsg l ∧ k = heatKey (h.src / 256) m.hid ∧ mem = true ∧ s.hasNi n = true ∧
      s.takeMsg n (fun h => h.ptype == 4 && h.op == 8) = some (h, l, s1) ∧ (s1.ni n).tgtOf (h.src / 256) m.hid = some g ∧
      (m.mode = 1 ∧ g.st = 6 ∧ g.lost = false ∨ m.mode = 2 ∧ g.st = 1 ∧ g.lost = false) ∧ g.items ≠ []) ∧
    (∃ (s : State), ∃ (n : Nat), ∃ (s1 : State), ∃ (k : Nat), ∃ (h : Hdr), ∃ (l : List Byte), ∃ (m : StageMsg), ∃ (g : Target),
      m = stageMsg l ∧ k = heatKey (h.src / 256) m.hid ∧ s.hasNi n = true ∧
      s.takeMsg n (fun h => h.ptype == 4 && h.op == 8) = some (h, l, s1) ∧ (s1.ni n).tgtOf (h.src / 256) m.hid = some g ∧
      ((m.mode = 1 ∨ m.mode = 3) ∧ (g.st ≠ 6 ∨ g.lost = true) ∨ m.mode = 2 ∧ (g.st ≠ 1 ∨ g.lost = true))) ∧
    (∃ (s : State), ∃ (n : Nat), ∃ (s1 : State), ∃ (k : Nat), ∃ (h : Hdr), ∃ (l : List Byte), ∃ (m : StageMsg), ∃ (g : Target),
      m = stageMsg l ∧ k = heatKey (h.src / 256) m.hid ∧ s.hasNi n = true ∧
      s.takeMsg n (fun h => h.ptype == 4 && h.op == 8) = some (h, l, s1) ∧ (s1.ni n).tgtOf (h.src / 256) m.hid = some g ∧
      ((m.mode = 1 ∨ m.mode = 3) ∧ (g.st ≠ 6 ∨ g.lost = true) ∨ m.mode = 2 ∧ (g.st ≠ 1 ∨ g.lost = true))) :=
  ⟨⟨(msgAt 8 (stageBytes 0 (sm 3 0)) (demoNi)), 1, by decide +kernel⟩,
    ⟨(msgAt 8 (stageBytes 0 (sm 0 1)) (demoNi)), 0, (msgTaken (demoNi)), _, msgHdr 8 (stageBytes 0 (sm 0 1)),
      stageBytes 0 (sm 0 1), _,
      (((msgTaken (demoNi))).stageAct 0 (msgHdr 8 (stageBytes 0 (sm 0 1))).src (stageMsg (stageBytes 0 (sm 0 1)))).1, 0, 0, 0,
      rfl, rfl, by decide +kernel⟩,
    ⟨winOn (msgAt 8 (stageBytes 0 { sm 0 7 with index := 0, len := 8 }) demoNi), 0, winOn (msgTaken demoNi), _,
      msgHdr 8 (stageBytes 0 { sm 0 7 with index := 0, len := 8 }), (stageBytes 0 { sm 0 7 with index := 0, len := 8 }), _,
      ((winOn (msgTaken demoNi)).stageAct 0 (msgHdr 8 (stageBytes 0 { sm 0 7 with index := 0, len := 8 })).src (stageMsg ((stageBytes 0 { sm 0 7 with index := 0, len := 8 })))).1,
      rfl, rfl, by decide +kernel⟩,
    ⟨(msgAt 8 (stageBytes 0 (sm 3 0)) (demoNi)), 0, (msgTaken (demoNi)), _, msgHdr 8 (stageBytes 0 (sm 3 0)),
      stageBytes 0 (sm 3 0), _, rfl, rfl, by decide +kernel⟩,
    ⟨(msgAt 8 (stageBytes 0 (sm 3 0)) (tgt0 0 { gen := 0, st := 6 })), 0, (msgTaken (tgt0 0 { gen := 0, st := 6 })), _,
      msgHdr 8 (stageBytes 0 (sm 3 0)), stageBytes 0 (sm 3 0), _, ({ gen := 0, st := 6 } : Target), rfl, rfl, by decide +kernel⟩,
    ⟨(msgAt 8 (stageBytes 0 (sm 1 0)) (tgt0 0 { gen := 0, st := 6, items := [shd] })), 0, false,
      (msgTaken (tgt0 0 { gen := 0, st := 6, items := [shd] })), _, msgHdr 8 (stageBytes 0 (sm 1 0)), stageBytes 0 (sm 1 0), _,
      ({ gen := 0, st := 6, items := [shd] } : Target), rfl, rfl, by decide +kernel⟩,
    ⟨(msgAt 8 (stageBytes 0 (sm 2 0)) (tgt0 0 { gen := 0, st := 1, items := [shd] })), 0, false,
      (msgTaken (tgt0 0 { gen := 0, st := 1, items := [shd] })), _, msgHdr 8 (stageBytes 0 (sm 2 0)), stageBytes 0 (sm 2 0), _,
      ({ gen := 0, st := 1, items := [shd] } : Target), rfl, rfl, by decide +kernel⟩,
    ⟨(msgAt 8 (stageBytes 0 (sm 1 0)) (tgt0 0 { gen := 0, st := 6, items := [shd] })), 0, _,
      (msgTaken (tgt0 0 { gen := 0, st := 6, items := [shd] })), _, msgHdr 8 (stageBytes 0 (sm 1 0)), stageBytes 0 (sm 1 0), _,
      ({ gen := 0, st := 6, items := [shd] } : Target), rfl, rfl, rfl, by decide +kernel⟩,
    ⟨(msgAt 8 (stageBytes 0 (sm 1 0)) (tgt0 0 { gen := 0, st := 1, items := [shd] })), 0,
      (msgTaken (tgt0 0 { gen := 0, st := 1, items := [shd] })), _, msgHdr 8 (stageBytes 0 (sm 1 0)), stageBytes 0 (sm 1 0), _,
      ({ gen := 0, st := 1, items := [shd] } : Target), rfl, rfl, by decide +kernel⟩,
    ⟨(msgAt 8 (stageBytes 0 (sm 3 0)) (tgt0 0 { gen := 0, st := 6, lost := true })), 0,
      (msgTaken (tgt0 0 { gen := 0, st := 6, lost := true })), _, msgHdr 8 (stageBytes 0 (sm 3 0)), stageBytes 0 (sm 3 0), _,
      ({ gen := 0, st := 6, lost := true } : Target), rfl, rfl, by decide +kernel⟩⟩

/-- The premises of HeatOpenTakesLowestFreeSlot are met. -/
theorem met_HeatOpenTakesLowestFreeSlot :
    (∃ (s : State), ∃ (x cl : Nat), ∃ (c : Cmd), cl = c.p 0 8 ∧ s.Issued x 0x30 [(0, 15)] c ∧ c.p 14 1 = 1 ∧ s.rom.spans = []) ∧
    (∃ (s : State), ∃ (x cl : Nat), ∃ (c : Cmd), cl = c.p 0 8 ∧ (c.p 14 1 = 1 → s.rom.spans ≠ []) ∧ s.Issued x 0x30 [(0, 15)] c ∧
      s.clock < (s.client cl).2) ∧
    (∃ (s : State), ∃ (x cl : Nat), ∃ (c : Cmd), cl = c.p 0 8 ∧ (c.p 14 1 = 1 → s.rom.spans ≠ []) ∧ s.Issued x 0x30 [(0, 15)] c ∧
      (s.client cl).2 ≤ s.clock ∧ (s.slotsIn [0]).head? = none) ∧
    (∃ (s : State), ∃ (x cl gen : Nat), ∃ (c : Cmd), ∃ (k : Nat), cl = c.p 0 8 ∧ (c.p 14 1 = 1 → s.rom.spans ≠ []) ∧
      gen = (s.rd hcuB (F.HCU_SLOT1_GEN.ix k) + 1) % 1024 ∧ s.Issued x 0x30 [(0, 15)] c ∧ (s.client cl).2 ≤ s.clock ∧
      (s.slotsIn [0]).head? = some k) :=
  ⟨⟨on (cmd 0x30 [3, 0x42]) { demo with rom := { demoRom with spans := [] } }, 1, _, cmd 0x30 [3, 0x42], rfl, by decide +kernel⟩,
    ⟨on (cmd 0x30 [3, 2]) { demo with clients := [(3, (2, 50))], clock := 49 }, 1, _, cmd 0x30 [3, 2], rfl,
      (fun _ => by decide +kernel), by decide +kernel⟩,
    ⟨on (cmd 0x30 [3, 2]) ((List.range 64).foldl (fun a k => a.heatGo k 1) demo), 1, _, cmd 0x30 [3, 2], rfl,
      (fun _ => by decide +kernel), by decide +kernel⟩,
    ⟨on (cmd 0x30 [3,
      0x45]) { (demo.heatGo 0 1).wr hcuB (F.HCU_SLOT1_GEN.ix 1) 1023 with clients := [(3, (2, 50))], clock := 50, time := { ft := 10000 * 2 ^ 32 } },
      1, _, _, cmd 0x30 [3, 0x45], 1, rfl, (fun _ => by decide +kernel), rfl, by decide +kernel⟩⟩

/-- The premises of HeatStageSendsItsActions are met. -/
theorem met_HeatStageSendsItsActions :
    (∃ (s : State), ∃ (x : Nat), ∃ (c : Cmd), s.Issued x 0x31 [(0, 19), (128, 1792)] c ∧ s.stageHeld c = true) ∧
    (∃ (s : State), ∃ (x : Nat), ∃ (c : Cmd), s.Issued x 0x31 [(0, 19), (128, 1792)] c ∧ s.stageHeld c = false ∧
      s.slotOf (c.p 0 16) = none) ∧
    (∃ (s : State), ∃ (x k : Nat), ∃ (c : Cmd), s.Issued x 0x31 [(0, 19), (128, 1792)] c ∧ s.stageHeld c = false ∧
      s.slotOf (c.p 0 16) = some k ∧ (s.heatSt k ≠ 1 ∨ (s.heat k).due = true)) ∧
    (∃ (s : State), ∃ (x k : Nat), ∃ (c : Cmd), s.Issued x 0x31 [(0, 19), (128, 1792)] c ∧ s.stageHeld c = false ∧
      s.slotOf (c.p 0 16) = some k ∧ s.heatSt k = 1 ∧ (s.heat k).due = false ∧
      (c.p 16 3 = 0 ∨ 4096 < s.rd hcuB (F.HCU_SLOT2_ACTIONS.ix k) + c.p 16 3)) ∧
    (∃ (s : State), ∃ (x k node tnum : Nat), ∃ (c : Cmd), ∃ (a : Act), ∃ (v : State), ∃ (clean : Bool),
      tnum = (s.heat k).tgts.findIdx (fun t => t == node) ∧
      v = (s.begin x).setHeat k { s.heat k with stages := (s.heat k).stages ++ [(x, 1)] } ∧ s.Issued x 0x31 [(0, 19), (128,
      1792)] c ∧ s.stageHeld c = false ∧ c.p 16 3 = 1 ∧ s.slotOf (c.p 0 16) = some k ∧ s.heatSt k = 1 ∧ (s.heat k).due = false ∧
      s.rd hcuB (F.HCU_SLOT2_ACTIONS.ix k) < 4096 ∧ (s.heat k).tgts.length < 256 ∧ s.journal < 8192 ∧ stagedAct c x 0 = (node,
      clean, a) ∧ (clean = false ∨ s.actForm node a = false ∨ node / 256 ≠ s.instNum ∧ s.heatSpan k = false)) ∧
    (∃ (s : State), ∃ (x k node tnum n0 : Nat), ∃ (c : Cmd), ∃ (a : Act), ∃ (d : Nat), ∃ (v : State),
      tnum = (s.heat k).tgts.findIdx (fun t => t == node) ∧
      v = (s.begin x).setHeat k { s.heat k with stages := (s.heat k).stages ++ [(x, 1)] } ∧ n0 = s.rd hcuB F.HCU_HOME_NI_NI ∧
      s.Issued x 0x31 [(0, 19), (128, 1792)] c ∧ s.stageHeld c = false ∧ c.p 16 3 = 1 ∧ s.slotOf (c.p 0 16) = some k ∧
      s.heatSt k = 1 ∧ (s.heat k).due = false ∧ s.rd hcuB (F.HCU_SLOT2_ACTIONS.ix k) < 4096 ∧ (s.heat k).tgts.length < 256 ∧
      s.journal < 8192 ∧ stagedAct c x 0 = (node, true, a) ∧ s.actForm node a = true ∧
      (node / 256 = s.instNum ∨ s.heatSpan k = true) ∧ (∀ j ∈ s.slotsIn [9], ∀ t ∈ (s.heat j).strag,
      (s.heat j).tgts.getD t 0 ≠ node) ∧
      (if node / 256 = s.instNum then v.itemCheck (node % 256) a.kind a.index a.data else .ok a.data) = .ok d ∧
      s.hasNi n0 = true) :=
  ⟨⟨on (cmd 0x31 (leBytes 2 0 ++ [1] ++ leBytes 13 0 ++ leBytes 4 0 ++ leBytes 2 1 ++ leBytes 10 0 ++ leBytes 16 (2 ^ 127))) ((demo.wr pcrB (F.PCR_RG_STAT_STATE.ix 0) 7).wr pcrB (F.PCR_RG_STAT_STATE.ix 1) 7),
    1, cmd 0x31 (leBytes 2 0 ++ [1] ++ leBytes 13 0 ++ leBytes 4 0 ++ leBytes 2 1 ++ leBytes 10 0 ++ leBytes 16 (2 ^ 127)),
    by decide +kernel⟩,
    ⟨on (cmd 0x31 (leBytes 2 0x40 ++ [1] ++ leBytes 13 0 ++ leBytes 4 (1 + 2 ^ 20) ++ leBytes 2 5 ++ leBytes 10 0 ++ leBytes 16 3)) (demo),
      1,
      cmd 0x31 (leBytes 2 0x40 ++ [1] ++ leBytes 13 0 ++ leBytes 4 (1 + 2 ^ 20) ++ leBytes 2 5 ++ leBytes 10 0 ++ leBytes 16 3),
      by decide +kernel⟩,
    ⟨on (stageCmd) (slotAt 0 6 0 {} demo), 1, 0, stageCmd, by decide +kernel⟩,
    ⟨on (cmd 0x31 (leBytes 2 0 ++ [0] ++ leBytes 13 0)) (slotAt 0 1 0 {} demo), 1, 0,
      cmd 0x31 (leBytes 2 0 ++ [0] ++ leBytes 13 0), by decide +kernel⟩,
    ⟨on (cmd 0x31 (leBytes 2 0 ++ [1] ++ leBytes 13 0 ++ leBytes 4 (1 + 2 ^ 20) ++ leBytes 2 0x40 ++ leBytes 10 0 ++ leBytes 16 3)) (slotAt 0 1 0 {} demo),
      1, 0, 1, _,
      cmd 0x31 (leBytes 2 0 ++ [1] ++ leBytes 13 0 ++ leBytes 4 (1 + 2 ^ 20) ++ leBytes 2 0x40 ++ leBytes 10 0 ++ leBytes 16 3),
      (stagedAct (cmd 0x31 (leBytes 2 0 ++ [1] ++ leBytes 13 0 ++ leBytes 4 (1 + 2 ^ 20) ++ leBytes 2 0x40 ++ leBytes 10 0 ++ leBytes 16 3)) 1 0).2.2,
      _, true, rfl, rfl, by decide +kernel⟩,
    ⟨on stageCmd (slotAt 0 1 0 {} demo), 1, 0, 1, _, _, stageCmd, (stagedAct stageCmd 1 0).2.2, 3, _, rfl, rfl, rfl,
      by decide +kernel⟩⟩

/-- The premises of AcksAndVotesMoveTheHeat are met. -/
theorem met_AcksAndVotesMoveTheHeat :
    (∃ (s : State), ∃ (k : Nat), ∃ (n : Nat), k < 64 ∧
      (s.hasNi n = false ∨ s.takeMsg n (fun h => h.ptype == 4 && h.op == 1) = none)) ∧
    (∃ (s : State), ∃ (k : Nat), ∃ (n : Nat) (h : Hdr) (l : List Byte) (s1 : State), k < 64 ∧ s.hasNi n = true ∧
      s.takeMsg n (fun h => h.ptype == 4 && h.op == 1) = some (h, l, s1) ∧ n ≠ s1.rd hcuB F.HCU_HOME_NI_NI) ∧
    (∃ (s : State), ∃ (k : Nat), ∃ (n : Nat) (h : Hdr) (l : List Byte) (s1 : State), n = s1.rd hcuB F.HCU_HOME_NI_NI ∧ k < 64 ∧
      s.hasNi n = true ∧ s.takeMsg n (fun h => h.ptype == 4 && h.op == 1) = some (h, l, s1) ∧
      s1.slotOf (leNat (l.take 2)) = none ∧ leNat ((l.drop 8).take 1) % 2 = 1 ∧ s1.slotOf (leNat ((l.drop 6).take 2)) = some k) ∧
    (∃ (s : State), ∃ (k : Nat), ∃ (n : Nat) (h : Hdr) (l : List Byte) (s1 : State) (tnum : Nat) (st : Nat),
      ∃ (mine : Act → Bool), n = s1.rd hcuB F.HCU_HOME_NI_NI ∧ tnum = (s1.heat k).tgts.findIdx (fun t => t == h.src) ∧
      mine = (fun a => a.aseq == leNat ((l.drop 2).take 2) && a.tnum == tnum && a.ack.isNone) ∧ st = leNat ((l.drop 4).take 1) ∧
      k < 64 ∧ s.hasNi n = true ∧ s.takeMsg n (fun h => h.ptype == 4 && h.op == 1) = some (h, l, s1) ∧
      s1.slotOf (leNat (l.take 2)) = some k ∧ s1.heatSt k ≠ 9 ∧ leNat ((l.drop 8).take 1) % 2 = 0 ∧
      (s1.heat k).acts.any mine = false) ∧
    (∃ (s : State), ∃ (k : Nat), ∃ (n : Nat) (h : Hdr) (l : List Byte) (s1 : State) (tnum : Nat) (st : Nat),
      ∃ (mine : Act → Bool), n = s1.rd hcuB F.HCU_HOME_NI_NI ∧ tnum = (s1.heat k).tgts.findIdx (fun t => t == h.src) ∧
      mine = (fun a => a.aseq == leNat ((l.drop 2).take 2) && a.tnum == tnum && a.ack.isNone) ∧ st = leNat ((l.drop 4).take 1) ∧
      st = 0 ∧ k < 64 ∧ s.hasNi n = true ∧ s.takeMsg n (fun h => h.ptype == 4 && h.op == 1) = some (h, l, s1) ∧
      s1.slotOf (leNat (l.take 2)) = some k ∧ s1.heatSt k ≠ 9 ∧ leNat ((l.drop 8).take 1) % 2 = 0 ∧
      (s1.heat k).acts.any mine = true) ∧
    (∃ (s : State), ∃ (k : Nat), ∃ (n : Nat) (h : Hdr) (l : List Byte) (s1 : State) (tnum : Nat) (st : Nat),
      ∃ (mine : Act → Bool), n = s1.rd hcuB F.HCU_HOME_NI_NI ∧ tnum = (s1.heat k).tgts.findIdx (fun t => t == h.src) ∧
      mine = (fun a => a.aseq == leNat ((l.drop 2).take 2) && a.tnum == tnum && a.ack.isNone) ∧ st = leNat ((l.drop 4).take 1) ∧
      k < 64 ∧ s.hasNi n = true ∧ s.takeMsg n (fun h => h.ptype == 4 && h.op == 1) = some (h, l, s1) ∧
      s1.slotOf (leNat (l.take 2)) = some k ∧ s1.heatSt k ≠ 9 ∧ leNat ((l.drop 8).take 1) % 2 = 0 ∧
      (s1.heat k).acts.any mine = true ∧ st ≠ 0) ∧
    (∃ (s : State), ∃ (k : Nat), ∃ (x : Nat) (c : Cmd), k < 64 ∧ s.Issued x 0x32 [(0, 17), (32, 80)] c ∧
      s.slotOf (c.p 0 16) = some k ∧ s.heatSt k = 1 ∧ (s.heat k).due = false ∧ c.p 16 1 = 0) ∧
    (∃ (s : State), ∃ (k : Nat), ∃ (x : Nat) (c : Cmd), k < 64 ∧ s.Issued x 0x32 [(0, 17), (32, 80)] c ∧
      s.slotOf (c.p 0 16) = some k ∧ s.heatSt k = 1 ∧ (s.heat k).due = false ∧ c.p 16 1 = 0) ∧
    (∃ (s : State), ∃ (k : Nat), ∃ (x : Nat) (c : Cmd), ∃ (tc : Nat), tc = 256 * (c.p 32 48 * secNs + c.p 80 32) ∧ k < 64 ∧
      s.Issued x 0x32 [(0, 17), (32, 80)] c ∧ s.slotOf (c.p 0 16) = some k ∧ s.heatSt k = 1 ∧ (s.heat k).due = false ∧
      c.p 16 1 = 1 ∧ (tc < s.time.ft / 2 ^ 24 + s.heatLead k + s.startAdv ∨ s.time.ft / 2 ^ 24 + 256 * 60 * secNs < tc)) ∧
    (∃ (s : State), ∃ (k : Nat), ∃ (x : Nat) (c : Cmd), ∃ (v : State) (tc : Nat), tc = 256 * (c.p 32 48 * secNs + c.p 80 32) ∧
      v = (((s.begin x).setWord64 (hcuB + 0x114 + 0x20 * k) (BitVec.ofInt 64 ((tc : Int) - 256 * (s.epoch * secNs : Nat)) : Stamp).toNat).setHeat k { s.heat k with given := true }).heatGo k 2 ∧
      k < 64 ∧ s.Issued x 0x32 [(0, 17), (32, 80)] c ∧ s.slotOf (c.p 0 16) = some k ∧ s.heatSt k = 1 ∧ (s.heat k).due = false ∧
      c.p 16 1 = 1 ∧ s.time.ft / 2 ^ 24 + s.heatLead k + s.startAdv ≤ tc ∧ tc ≤ s.time.ft / 2 ^ 24 + 256 * 60 * secNs) ∧
    (∃ (s : State), ∃ (k : Nat), k < 64 ∧ (s.heatSt k ≠ 2 ∨ (s.heat k).due = true ∨ s.pastT k < -(s.startAdv : Int))) ∧
    (∃ (s : State), ∃ (k : Nat), k < 64 ∧ s.heatSt k = 2 ∧ (s.heat k).due = false ∧ -(s.startAdv : Int) ≤ s.pastT k) ∧
    (∃ (s : State), ∃ (k : Nat), ∃ (w : Word), k < 64 ∧ (s.heatSt k ≠ 3 ∨ s.relay ≠ some (0, k) ∨ s.collectWord 0 k 0 ≠ (w,
      true))) ∧
    (∃ (s : State), ∃ (k : Nat), ∃ (w : Word) (yes : Nat) (no : Nat) (first : Nat) (reason : Nat), yes = s.targetCount k ∧
      no = 0 ∧ k < 64 ∧ s.heatSt k = 3 ∧ s.relay = some (0, k) ∧ s.collectWord 0 k 0 = (w, true) ∧ voteFields w = (yes, no,
      first, reason)) ∧
    (∃ (s : State), ∃ (k : Nat), ∃ (w : Word) (yes : Nat) (no : Nat) (first : Nat) (reason : Nat), no = 0 ∧ k < 64 ∧
      s.heatSt k = 3 ∧ s.relay = some (0, k) ∧ s.collectWord 0 k 0 = (w, true) ∧ voteFields w = (yes, no, first, reason) ∧
      yes ≠ s.targetCount k) ∧
    (∃ (s : State), ∃ (k : Nat), ∃ (w : Word) (yes : Nat) (no : Nat) (first : Nat) (reason : Nat), k < 64 ∧ s.heatSt k = 3 ∧
      s.relay = some (0, k) ∧ s.collectWord 0 k 0 = (w, true) ∧ voteFields w = (yes, no, first, reason) ∧ no ≠ 0) ∧
    (∃ (s : State), ∃ (k : Nat), ∃ (x : Nat) (c : Cmd), k < 64 ∧ s.Issued x 0x32 [(0, 17), (32, 80)] c ∧
      s.slotOf (c.p 0 16) = none) ∧
    (∃ (s : State), ∃ (k : Nat), ∃ (x : Nat) (c : Cmd), k < 64 ∧ s.Issued x 0x32 [(0, 17), (32, 80)] c ∧
      s.slotOf (c.p 0 16) = some k ∧ (s.heatSt k ≠ 1 ∨ (s.heat k).due = true)) :=
  ⟨⟨collecting 0 3 0 (some 4), 0, 0, by decide +kernel⟩,
    ⟨(msgAt 1 (ackOf 0) demoNi).wr hcuB F.HCU_HOME_NI_NI 1, 0, 0, msgHdr 1 (ackOf 0), ackOf 0,
      (msgTaken demoNi).wr hcuB F.HCU_HOME_NI_NI 1, by decide +kernel⟩,
    ⟨slotAt 0 1 0 { tgts := [0] } (msgAt 1 (leBytes 2 69 ++ leBytes 2 1 ++ leBytes 1 0 ++ leBytes 1 3 ++ leBytes 2 0 ++ leBytes 8 1) demoNi),
      0, _, msgHdr 1 (leBytes 2 69 ++ leBytes 2 1 ++ leBytes 1 0 ++ leBytes 1 3 ++ leBytes 2 0 ++ leBytes 8 1),
      (leBytes 2 69 ++ leBytes 2 1 ++ leBytes 1 0 ++ leBytes 1 3 ++ leBytes 2 0 ++ leBytes 8 1),
      slotAt 0 1 0 { tgts := [0] } (msgTaken demoNi), rfl, by decide +kernel⟩,
    ⟨slotAt 0 1 0 { tgts := [0] } (msgAt 1 (ackOf 0) demoNi), 0, _, msgHdr 1 (ackOf 0), ackOf 0,
      slotAt 0 1 0 { tgts := [0] } (msgTaken demoNi), _, _, _, rfl, rfl, rfl, rfl, by decide +kernel⟩,
    ⟨slotAt 0 1 0 { acts := [act0], tgts := [0], stages := [(1, 1)] } (msgAt 1 (ackOf 0) demoNi), 0, _, msgHdr 1 (ackOf 0),
      ackOf 0, slotAt 0 1 0 { acts := [act0], tgts := [0], stages := [(1, 1)] } (msgTaken demoNi), _, _, _, rfl, rfl, rfl, rfl,
      rfl, by decide +kernel⟩,
    ⟨slotAt 0 1 0 { acts := [act0], tgts := [0], stages := [(1, 1)] } (msgAt 1 (ackOf 1) demoNi), 0, _, msgHdr 1 (ackOf 1),
      ackOf 1, slotAt 0 1 0 { acts := [act0], tgts := [0], stages := [(1, 1)] } (msgTaken demoNi), _, _, _, rfl, rfl, rfl, rfl,
      by decide +kernel⟩,
    ⟨on (cmd 0x32 (0 :: 0 :: 0 :: List.replicate 11 0)) (slotAt 0 1 0 {} demo), 0, 1,
      cmd 0x32 (0 :: 0 :: 0 :: List.replicate 11 0), by decide +kernel⟩,
    ⟨on (cmd 0x32 (0 :: 0 :: 0 :: List.replicate 11 0)) (slotAt 0 1 0 { acts := [act0] } demo), 0, 1,
      cmd 0x32 (0 :: 0 :: 0 :: List.replicate 11 0), by decide +kernel⟩,
    ⟨on (cmd 0x32 ([0, 0, 1, 0] ++ leBytes 6 0 ++ leBytes 4 5)) (slotAt 0 1 0 {} demo), 0, 1, cmd 0x32 ([0, 0, 1,
      0] ++ leBytes 6 0 ++ leBytes 4 5), _, rfl, by decide +kernel⟩,
    ⟨on (cmd 0x32 ([0, 0, 1, 0] ++ leBytes 6 0 ++ leBytes 4 2000000)) (slotAt 0 1 0 {} demo), 0, 1, cmd 0x32 ([0, 0, 1,
      0] ++ leBytes 6 0 ++ leBytes 4 2000000), _, _, rfl, rfl, by decide +kernel⟩,
    ⟨slotAt 0 2 10000 {} demo, 1, by decide +kernel⟩,
    ⟨slotAt 0 2 10000 {} demo, 0, by decide +kernel⟩,
    ⟨collecting 0 3 0 (some 4), 0, 0, by decide +kernel⟩,
    ⟨collecting 0 3 0 (some 0), (((collecting 0 3 0 (some 0)).relay).getD (0, 0)).2,
      ((collecting 0 3 0 (some 0)).collectWord 0 ((((collecting 0 3 0 (some 0)).relay).getD (0, 0)).2) 0).1, _, _,
      (voteFields (((collecting 0 3 0 (some 0)).collectWord 0 ((((collecting 0 3 0 (some 0)).relay).getD (0, 0)).2) 0).1)).2.2.1,
      (voteFields (((collecting 0 3 0 (some 0)).collectWord 0 ((((collecting 0 3 0 (some 0)).relay).getD (0, 0)).2) 0).1)).2.2.2,
      rfl, rfl, by decide +kernel⟩,
    ⟨(collecting 0 3 0 (some 0)).wr hcuB (F.HCU_SLOT1_TARGETS.ix 0) 2,
      ((((collecting 0 3 0 (some 0)).wr hcuB (F.HCU_SLOT1_TARGETS.ix 0) 2).relay).getD (0, 0)).2,
      (((collecting 0 3 0 (some 0)).wr hcuB (F.HCU_SLOT1_TARGETS.ix 0) 2).collectWord 0 (((((collecting 0 3 0 (some 0)).wr hcuB (F.HCU_SLOT1_TARGETS.ix 0) 2).relay).getD (0,
      0)).2) 0).1,
      (voteFields ((((collecting 0 3 0 (some 0)).wr hcuB (F.HCU_SLOT1_TARGETS.ix 0) 2).collectWord 0 (((((collecting 0 3 0 (some 0)).wr hcuB (F.HCU_SLOT1_TARGETS.ix 0) 2).relay).getD (0,
      0)).2) 0).1)).1, _,
      (voteFields ((((collecting 0 3 0 (some 0)).wr hcuB (F.HCU_SLOT1_TARGETS.ix 0) 2).collectWord 0 (((((collecting 0 3 0 (some 0)).wr hcuB (F.HCU_SLOT1_TARGETS.ix 0) 2).relay).getD (0,
      0)).2) 0).1)).2.2.1,
      (voteFields ((((collecting 0 3 0 (some 0)).wr hcuB (F.HCU_SLOT1_TARGETS.ix 0) 2).collectWord 0 (((((collecting 0 3 0 (some 0)).wr hcuB (F.HCU_SLOT1_TARGETS.ix 0) 2).relay).getD (0,
      0)).2) 0).1)).2.2.2, rfl, by decide +kernel⟩,
    ⟨collecting 0 3 0 (some 4), (((collecting 0 3 0 (some 4)).relay).getD (0, 0)).2,
      ((collecting 0 3 0 (some 4)).collectWord 0 ((((collecting 0 3 0 (some 4)).relay).getD (0, 0)).2) 0).1,
      (voteFields (((collecting 0 3 0 (some 4)).collectWord 0 ((((collecting 0 3 0 (some 4)).relay).getD (0, 0)).2) 0).1)).1,
      (voteFields (((collecting 0 3 0 (some 4)).collectWord 0 ((((collecting 0 3 0 (some 4)).relay).getD (0, 0)).2) 0).1)).2.1,
      (voteFields (((collecting 0 3 0 (some 4)).collectWord 0 ((((collecting 0 3 0 (some 4)).relay).getD (0, 0)).2) 0).1)).2.2.1,
      (voteFields (((collecting 0 3 0 (some 4)).collectWord 0 ((((collecting 0 3 0 (some 4)).relay).getD (0, 0)).2) 0).1)).2.2.2,
      by decide +kernel⟩,
    ⟨on (cmd 0x32 (0x40 :: 0 :: 0 :: List.replicate 11 0)) demo, 0, 1, cmd 0x32 (0x40 :: 0 :: 0 :: List.replicate 11 0),
      by decide +kernel⟩,
    ⟨on (cmd 0x32 (List.replicate 14 0)) (slotAt 0 6 0 {} demo), 0, 1, cmd 0x32 (List.replicate 14 0), by decide +kernel⟩⟩

/-- The premises of CommitAndArmLeaveInTime are met. -/
theorem met_CommitAndArmLeaveInTime :
    (∃ (s : State), ∃ (k : Nat), k < 64 ∧
      (s.heatSt k ≠ 4 ∨ s.hasLeave 0 k = false ∨ s.relay.isSome = true ∨ s.time.step.isSome = true)) ∧
    (∃ (s : State), ∃ (k : Nat), k < 64 ∧ s.heatSt k = 4 ∧ s.hasLeave 0 k = true ∧ s.relay = none ∧ s.time.step = none ∧
      s.rootOk = false) ∧
    (∃ (s : State), ∃ (k : Nat), k < 64 ∧ s.heatSt k = 4 ∧ s.hasLeave 0 k = true ∧ s.relay = none ∧ s.time.step = none ∧
      s.rootOk = true ∧ (s.heat k).given = true ∧ -(s.heatLead k : Int) < s.pastT k) ∧
    (∃ (s : State), ∃ (k : Nat), k < 64 ∧ s.heatSt k = 4 ∧ s.hasLeave 0 k = true ∧ s.relay = none ∧ s.time.step = none ∧
      s.rootOk = true ∧ ((s.heat k).given = true → s.pastT k ≤ -(s.heatLead k : Int))) ∧
    (∃ (s : State), ∃ (k : Nat), k < 64 ∧ s.heatSt k = 4 ∧ s.hasLeave 0 k = true ∧ s.relay = none ∧ s.time.step = none ∧
      s.rootOk = true ∧ ((s.heat k).given = true → s.pastT k ≤ -(s.heatLead k : Int))) ∧
    (∃ (s : State), ∃ (k : Nat), ∃ (w : Word), k < 64 ∧ (s.heatSt k ≠ 5 ∨ s.relay ≠ some (1, k) ∨ s.collectWord 1 k 0 ≠ (w,
      true))) ∧
    (∃ (s : State), ∃ (k : Nat), ∃ (w : Word) (yes : Nat) (no : Nat) (first : Nat) (reason : Nat), no = 0 ∧ k < 64 ∧
      s.heatSt k = 5 ∧ s.relay = some (1, k) ∧ s.collectWord 1 k 0 = (w, true) ∧ voteFields w = (yes, no, first, reason) ∧
      yes ≠ s.targetCount k) ∧
    (∃ (s : State), ∃ (k : Nat), ∃ (w : Word) (yes : Nat) (no : Nat) (first : Nat) (reason : Nat), k < 64 ∧ s.heatSt k = 5 ∧
      s.relay = some (1, k) ∧ s.collectWord 1 k 0 = (w, true) ∧ voteFields w = (yes, no, first, reason) ∧ no ≠ 0) ∧
    (∃ (s : State), ∃ (k : Nat), ∃ (w : Word) (first : Nat) (reason : Nat), k < 64 ∧ s.heatSt k = 5 ∧ s.relay = some (1, k) ∧
      s.collectWord 1 k 0 = (w, true) ∧ voteFields w = (s.targetCount k, 0, first, reason) ∧ -(s.heatGuard k : Int) < s.pastT k) ∧
    (∃ (s : State), ∃ (k : Nat), ∃ (w : Word) (first : Nat) (reason : Nat), k < 64 ∧ s.heatSt k = 5 ∧ s.relay = some (1, k) ∧
      s.collectWord 1 k 0 = (w, true) ∧ voteFields w = (s.targetCount k, 0, first, reason) ∧
      s.pastT k ≤ -(s.heatGuard k : Int)) :=
  ⟨⟨(collecting 1 5 1000000 (some 0)).wr hcuB (F.HCU_SLOT1_TARGETS.ix 0) 2, 0, by decide +kernel⟩,
    ⟨({ slotAt 0 4 0 {} demo with leaves := [{ kind := 0, who := 0 }] }).wr timB F.TIM_STAT_VALID 0, 0, by decide +kernel⟩,
    ⟨{ slotAt 0 4 0 { given := true } demo with leaves := [{ kind := 0, who := 0 }] }, 0, by decide +kernel⟩,
    ⟨{ slotAt 0 4 0 {} demo with leaves := [{ kind := 0, who := 0 }] }, 0, by decide +kernel⟩,
    ⟨{ slotAt 0 4 1000000 { given := true } demo with leaves := [{ kind := 0, who := 0 }] }, 0, by decide +kernel⟩,
    ⟨(collecting 1 5 1000000 (some 0)).wr hcuB (F.HCU_SLOT1_TARGETS.ix 0) 2, 0, 0, by decide +kernel⟩,
    ⟨(collecting 1 5 1000000 (some 0)).wr hcuB (F.HCU_SLOT1_TARGETS.ix 0) 2,
      ((((collecting 1 5 1000000 (some 0)).wr hcuB (F.HCU_SLOT1_TARGETS.ix 0) 2).relay).getD (1, 0)).2,
      (((collecting 1 5 1000000 (some 0)).wr hcuB (F.HCU_SLOT1_TARGETS.ix 0) 2).collectWord 1 (((((collecting 1 5 1000000 (some 0)).wr hcuB (F.HCU_SLOT1_TARGETS.ix 0) 2).relay).getD (1,
      0)).2) 0).1,
      (voteFields ((((collecting 1 5 1000000 (some 0)).wr hcuB (F.HCU_SLOT1_TARGETS.ix 0) 2).collectWord 1 (((((collecting 1 5 1000000 (some 0)).wr hcuB (F.HCU_SLOT1_TARGETS.ix 0) 2).relay).getD (1,
      0)).2) 0).1)).1, _,
      (voteFields ((((collecting 1 5 1000000 (some 0)).wr hcuB (F.HCU_SLOT1_TARGETS.ix 0) 2).collectWord 1 (((((collecting 1 5 1000000 (some 0)).wr hcuB (F.HCU_SLOT1_TARGETS.ix 0) 2).relay).getD (1,
      0)).2) 0).1)).2.2.1,
      (voteFields ((((collecting 1 5 1000000 (some 0)).wr hcuB (F.HCU_SLOT1_TARGETS.ix 0) 2).collectWord 1 (((((collecting 1 5 1000000 (some 0)).wr hcuB (F.HCU_SLOT1_TARGETS.ix 0) 2).relay).getD (1,
      0)).2) 0).1)).2.2.2, rfl, by decide +kernel⟩,
    ⟨collecting 1 5 1000000 (some 7), (((collecting 1 5 1000000 (some 7)).relay).getD (1, 0)).2,
      ((collecting 1 5 1000000 (some 7)).collectWord 1 ((((collecting 1 5 1000000 (some 7)).relay).getD (1, 0)).2) 0).1,
      (voteFields (((collecting 1 5 1000000 (some 7)).collectWord 1 ((((collecting 1 5 1000000 (some 7)).relay).getD (1,
      0)).2) 0).1)).1,
      (voteFields (((collecting 1 5 1000000 (some 7)).collectWord 1 ((((collecting 1 5 1000000 (some 7)).relay).getD (1,
      0)).2) 0).1)).2.1,
      (voteFields (((collecting 1 5 1000000 (some 7)).collectWord 1 ((((collecting 1 5 1000000 (some 7)).relay).getD (1,
      0)).2) 0).1)).2.2.1,
      (voteFields (((collecting 1 5 1000000 (some 7)).collectWord 1 ((((collecting 1 5 1000000 (some 7)).relay).getD (1,
      0)).2) 0).1)).2.2.2, by decide +kernel⟩,
    ⟨collecting 1 5 10000 (some 0), (((collecting 1 5 10000 (some 0)).relay).getD (1, 0)).2,
      ((collecting 1 5 10000 (some 0)).collectWord 1 ((((collecting 1 5 10000 (some 0)).relay).getD (1, 0)).2) 0).1,
      (voteFields (((collecting 1 5 10000 (some 0)).collectWord 1 ((((collecting 1 5 10000 (some 0)).relay).getD (1,
      0)).2) 0).1)).2.2.1,
      (voteFields (((collecting 1 5 10000 (some 0)).collectWord 1 ((((collecting 1 5 10000 (some 0)).relay).getD (1,
      0)).2) 0).1)).2.2.2, by decide +kernel⟩,
    ⟨collecting 1 5 1000000 (some 0), (((collecting 1 5 1000000 (some 0)).relay).getD (1, 0)).2,
      ((collecting 1 5 1000000 (some 0)).collectWord 1 ((((collecting 1 5 1000000 (some 0)).relay).getD (1, 0)).2) 0).1,
      (voteFields (((collecting 1 5 1000000 (some 0)).collectWord 1 ((((collecting 1 5 1000000 (some 0)).relay).getD (1,
      0)).2) 0).1)).2.2.1,
      (voteFields (((collecting 1 5 1000000 (some 0)).collectWord 1 ((((collecting 1 5 1000000 (some 0)).relay).getD (1,
      0)).2) 0).1)).2.2.2, by decide +kernel⟩⟩

/-- The premises of HeatsAbortWithTheirReasons are met. -/
theorem met_HeatsAbortWithTheirReasons :
    (∃ (s : State), ∃ (k : Nat), ∃ (x : Nat) (c : Cmd), k < 64 ∧ s.Issued x 0x33 [(0, 16)] c ∧ s.slotOf (c.p 0 16) = some k ∧
      1 ≤ s.heatSt k ∧ s.heatSt k ≤ 5 ∧ (s.heat k).stages = [] ∧ (s.heat k).commit = none) ∧
    (∃ (s : State), ∃ (k : Nat), ∃ (x : Nat) (c : Cmd), k < 64 ∧ s.Issued x 0x33 [(0, 16)] c ∧ s.slotOf (c.p 0 16) = some k ∧
      5 < s.heatSt k) ∧
    (∃ (s : State), ∃ (k : Nat), ∃ (x : Nat) (c : Cmd), k < 64 ∧ s.Issued x 0x33 [(0, 16)] c ∧ s.slotOf (c.p 0 16) = none) ∧
    (∃ (s : State), ∃ (k : Nat), ∃ (aseq : Nat), k < 64 ∧
      (s.heat k).acts.find? (fun a => a.aseq == aseq && a.ack.isNone) = none) ∧
    (∃ (s : State), ∃ (k : Nat), k < 64 ∧ (s.heatSt k ≠ 4 ∨ s.hasLeave 0 k = true)) ∧
    (∃ (s : State), ∃ (k : Nat), (∀ r, s.relay ≠ some (r, k)) ∧ k < 64) ∧
    (∃ (s : State), ∃ (k : Nat), k < 64 ∧ ¬ ((s.heat k).given = true ∧ (s.heatSt k = 2 ∨ s.heatSt k = 3 ∨ s.heatSt k = 4) ∧
      -(s.heatLead k : Int) < s.pastT k) ∧ ¬ (s.heatSt k = 5 ∧ -(s.heatGuard k : Int) < s.pastT k)) ∧
    (∃ (s : State), ∃ (k : Nat), ∃ (aseq : Nat) (a : Act), k < 64 ∧
      (s.heat k).acts.find? (fun a => a.aseq == aseq && a.ack.isNone) = some a) ∧
    (∃ (s : State), ∃ (k : Nat), k < 64 ∧ s.heatSt k = 4 ∧ s.hasLeave 0 k = false) ∧
    (∃ (s : State), ∃ (k : Nat), ∃ (r : Nat), k < 64 ∧ s.relay = some (r, k) ∧ r ≤ 1) ∧
    (∃ (s : State), ∃ (k : Nat), ∃ (r : Nat), k < 64 ∧ s.relay = some (r, k) ∧ 1 < r) ∧
    (∃ (s : State), ∃ (k : Nat), k < 64 ∧ (((s.heat k).given = true ∧ (s.heatSt k = 2 ∨ s.heatSt k = 3 ∨ s.heatSt k = 4) ∧
      -(s.heatLead k : Int) < s.pastT k) ∨ (s.heatSt k = 5 ∧ -(s.heatGuard k : Int) < s.pastT k))) ∧
    (∃ (s : State), ∃ (k : Nat), k < 64 ∧ (((s.heat k).given = true ∧ (s.heatSt k = 2 ∨ s.heatSt k = 3 ∨ s.heatSt k = 4) ∧
      -(s.heatLead k : Int) < s.pastT k) ∨ (s.heatSt k = 5 ∧ -(s.heatGuard k : Int) < s.pastT k))) :=
  ⟨⟨on (cmd 0x33 [0, 0]) (slotAt 0 1 0 { acts := [act0] } demo), 0, 1, cmd 0x33 [0, 0], by decide +kernel⟩,
    ⟨on (cmd 0x33 [0, 0]) (slotAt 0 6 0 {} demo), 0, 1, cmd 0x33 [0, 0], by decide +kernel⟩,
    ⟨on (cmd 0x33 [0x40, 0]) (slotAt 0 6 0 {} demo), 0, 1, cmd 0x33 [0x40, 0], by decide +kernel⟩,
    ⟨slotAt 0 1 0 { acts := [act0], tgts := [0], stages := [(1, 1)] } demo, 0, 0, by decide +kernel⟩,
    ⟨slotAt 0 4 0 {} demo, 1, by decide +kernel⟩,
    ⟨slotAt 0 5 10000 {} demo, 0, (fun _ h => nomatch h), by decide +kernel⟩,
    ⟨slotAt 0 5 10000 {} demo, 1, by decide +kernel⟩,
    ⟨slotAt 0 1 0 { acts := [act0], tgts := [0], stages := [(1, 1)] } demo, 0, 1, act0, by decide +kernel⟩,
    ⟨slotAt 0 4 0 {} demo, 0, by decide +kernel⟩,
    ⟨collecting 1 5 10000 (some 0), (((collecting 1 5 10000 (some 0)).relay).getD (0, 0)).2,
      (((collecting 1 5 10000 (some 0)).relay).getD (0, 0)).1, by decide +kernel⟩,
    ⟨collecting 4 7 10000 (some 0), (((collecting 4 7 10000 (some 0)).relay).getD (0, 0)).2,
      (((collecting 4 7 10000 (some 0)).relay).getD (0, 0)).1, by decide +kernel⟩,
    ⟨slotAt 0 5 10000 {} demo, 0, by decide +kernel⟩,
    ⟨slotAt 0 3 10000 { given := true } demo, 0, by decide +kernel⟩⟩

/-- The premises of SettleEndsOrMapsStragglers are met. -/
theorem met_SettleEndsOrMapsStragglers :
    (∃ (s : State), ∃ (k : Nat), ∃ (w : Word), ∃ (maps : List Word), k < 64 ∧ (s.heatSt k ≠ 6 ∧ s.heatSt k ≠ 7 ∨ s.heatSt k = 6 ∧
      (s.pastT k < 256 * (if s.heatSpan k then 2000 else 100) ∨ s.relay.isSome = true) ∨ s.heatSt k = 7 ∧ s.relay ≠ some (4, k) ∧
      s.relay ≠ some (5, k) ∨ s.heatSt k = 7 ∧ s.relay = some (4, k) ∧ s.collectWord 4 k 0 ≠ (w, true) ∨ s.heatSt k = 7 ∧
      s.relay = some (5, k) ∧ (List.range (s.mapLen k)).map (s.collectWord 5 k) ≠ maps.map (fun x => (x, true)))) ∧
    (∃ (s : State), ∃ (k : Nat), k < 64 ∧ s.heatSt k = 6 ∧ 256 * (if s.heatSpan k then 2000 else 100) ≤ s.pastT k ∧
      s.relay = none) ∧
    (∃ (s : State), ∃ (k : Nat), ∃ (w : Word), k < 64 ∧ s.heatSt k = 7 ∧ s.relay = some (4, k) ∧ s.collectWord 4 k 0 = (w,
      true) ∧ (voteFields w).1 = s.targetCount k) ∧
    (∃ (s : State), ∃ (k : Nat), ∃ (w : Word), k < 64 ∧ s.heatSt k = 7 ∧ s.relay = some (4, k) ∧ s.collectWord 4 k 0 = (w,
      true) ∧ (voteFields w).1 ≠ s.targetCount k) ∧
    (∃ (s : State), ∃ (k : Nat), ∃ (maps : List Word), ∃ (l : List Nat),
      l = (List.range (s.heat k).tgts.length).filter (fun t => !bitAt (maps.getD (t / 32) 0).toNat (t % 32)) ∧ k < 64 ∧
      s.heatSt k = 7 ∧ s.relay = some (5, k) ∧ (List.range (s.mapLen k)).map (s.collectWord 5 k) = maps.map (fun x => (x,
      true)) ∧ l ≠ []) ∧
    (∃ (s : State), ∃ (k : Nat), ∃ (maps : List Word), ∃ (l : List Nat),
      l = (List.range (s.heat k).tgts.length).filter (fun t => !bitAt (maps.getD (t / 32) 0).toNat (t % 32)) ∧ l = [] ∧ k < 64 ∧
      s.heatSt k = 7 ∧ s.relay = some (5, k) ∧ (List.range (s.mapLen k)).map (s.collectWord 5 k) = maps.map (fun x => (x,
      true))) :=
  ⟨⟨collecting 5 7 9900 none, 0, 0, [], by decide +kernel⟩,
    ⟨slotAt 0 6 9900 {} demo, 0, by decide +kernel⟩,
    ⟨{ (slotAt 0 7 9900 { acts := [act0], tgts := [0] } (ni0 (tgt0 0 { gen := 0, st := 5 }))).wr hcuB (F.HCU_SLOT1_TARGETS.ix 0) 1 with relay := some (4, 0), leaves := [{ kind := 0, who := 0 }] },
      ((({ (slotAt 0 7 9900 { acts := [act0], tgts := [0] } (ni0 (tgt0 0 { gen := 0, st := 5 }))).wr hcuB (F.HCU_SLOT1_TARGETS.ix 0) 1 with relay := some (4, 0), leaves := [{ kind := 0, who := 0 }] }).relay).getD (4,
      0)).2,
      (({ (slotAt 0 7 9900 { acts := [act0], tgts := [0] } (ni0 (tgt0 0 { gen := 0, st := 5 }))).wr hcuB (F.HCU_SLOT1_TARGETS.ix 0) 1 with relay := some (4, 0), leaves := [{ kind := 0, who := 0 }] }).collectWord 4 (((({ (slotAt 0 7 9900 { acts := [act0], tgts := [0] } (ni0 (tgt0 0 { gen := 0, st := 5 }))).wr hcuB (F.HCU_SLOT1_TARGETS.ix 0) 1 with relay := some (4, 0), leaves := [{ kind := 0, who := 0 }] }).relay).getD (4,
      0)).2) 0).1, by decide +kernel⟩,
    ⟨collecting 4 7 9900 none, (((collecting 4 7 9900 none).relay).getD (4, 0)).2,
      ((collecting 4 7 9900 none).collectWord 4 ((((collecting 4 7 9900 none).relay).getD (4, 0)).2) 0).1, by decide +kernel⟩,
    ⟨{ (slotAt 0 7 9900 { acts := [act0], tgts := [0] } (ni0 (tgt0 0 { gen := 0, st := 5 }))) with relay := some (5, 0) },
      ((({ (slotAt 0 7 9900 { acts := [act0], tgts := [0] } (ni0 (tgt0 0 { gen := 0, st := 5 }))) with relay := some (5, 0) }).relay).getD (5,
      0)).2, [], _, rfl, by decide +kernel⟩,
    ⟨{ slotAt 0 7 9900 { acts := [act0] } demo with relay := some (5, 0), leaves := [{ kind := 0, who := 0 }] },
      ((({ slotAt 0 7 9900 { acts := [act0] } demo with relay := some (5, 0), leaves := [{ kind := 0, who := 0 }] }).relay).getD (5,
      0)).2, [], _, rfl, rfl, by decide +kernel⟩⟩

/-- The premises of HeatCommandsShowCloseAndReconcile are met. -/
theorem met_HeatCommandsShowCloseAndReconcile :
    (∃ (s : State), ∃ (x k : Nat), ∃ (c : Cmd), s.Issued x 0x34 [(0, 16)] c ∧ s.slotOf (c.p 0 16) = some k) ∧
    (∃ (s : State), ∃ (x k : Nat), ∃ (c : Cmd), s.Issued x 0x37 [(0, 16)] c ∧ s.slotOf (c.p 0 16) = some k) ∧
    (∃ (s : State), ∃ (x k : Nat), ∃ (c : Cmd), s.Issued x 0x35 [(0, 16)] c ∧ s.slotOf (c.p 0 16) = some k ∧
      (s.heatSt k = 8 ∨ s.heatSt k = 10)) ∧
    (∃ (s : State), ∃ (x k : Nat), ∃ (c : Cmd), s.Issued x 0x36 [(0, 25)] c ∧ s.slotOf (c.p 0 16) = some k ∧ s.heatSt k = 9 ∧
      (s.heat k).strag.contains (c.p 16 8) = true ∧ c.p 24 1 = 0) ∧
    (∃ (s : State), ∃ (x k : Nat), ∃ (c : Cmd), s.Issued x 0x36 [(0, 25)] c ∧ s.slotOf (c.p 0 16) = some k ∧ s.heatSt k = 9 ∧
      (s.heat k).strag.contains (c.p 16 8) = true ∧ c.p 24 1 = 1) ∧
    (∃ (s : State), ∃ (x : Nat), ∃ (c : Cmd), s.slotOf (c.p 0 16) = none ∧ s.Issued x 0x34 [(0, 16)] c) ∧
    (∃ (s : State), ∃ (x : Nat), ∃ (c : Cmd), s.slotOf (c.p 0 16) = none ∧ s.Issued x 0x37 [(0, 16)] c) ∧
    (∃ (s : State), ∃ (x : Nat), ∃ (c : Cmd), s.slotOf (c.p 0 16) = none ∧ s.Issued x 0x35 [(0, 16)] c) ∧
    (∃ (s : State), ∃ (x : Nat), ∃ (c : Cmd), s.slotOf (c.p 0 16) = none ∧ s.Issued x 0x36 [(0, 25)] c ∧ c.p 24 1 = 0) ∧
    (∃ (s : State), ∃ (x : Nat), ∃ (c : Cmd), s.slotOf (c.p 0 16) = none ∧ s.Issued x 0x36 [(0, 25)] c ∧ c.p 24 1 = 1) ∧
    (∃ (s : State), ∃ (x k : Nat), ∃ (c : Cmd), s.Issued x 0x35 [(0, 16)] c ∧ s.slotOf (c.p 0 16) = some k ∧ s.heatSt k ≠ 8 ∧
      s.heatSt k ≠ 10) ∧
    (∃ (s : State), ∃ (x k : Nat), ∃ (c : Cmd), ∃ (e : Nat), s.Issued x 0x36 [(0, 25)] c ∧ s.slotOf (c.p 0 16) = some k ∧
      (s.heatSt k ≠ 9 ∧ e = 6 ∨ s.heatSt k = 9 ∧ (s.heat k).strag.contains (c.p 16 8) = false ∧ e = 3) ∧ c.p 24 1 = 0) ∧
    (∃ (s : State), ∃ (x k : Nat), ∃ (c : Cmd), ∃ (e : Nat), s.Issued x 0x36 [(0, 25)] c ∧ s.slotOf (c.p 0 16) = some k ∧
      (s.heatSt k ≠ 9 ∧ e = 6 ∨ s.heatSt k = 9 ∧ (s.heat k).strag.contains (c.p 16 8) = false ∧ e = 3) ∧ c.p 24 1 = 1) ∧
    (∃ (s : State), ∃ (n : Nat), (s.hasNi n = false ∨ s.restored n = false ∨ s.slotsIn [9] = [])) ∧
    (∃ (s : State), ∃ (k : Nat), ∃ (n : Nat) (t : Nat), s.hasNi n = true ∧ s.restored n = true ∧ s.slotsIn [9] = [k] ∧
      (s.heat k).strag.find? (fun t => (s.heat k).tgts.getD t 0 == s.nodeId n) = some t) :=
  ⟨⟨on (cmd 0x34 [0, 0]) (slotAt 0 9 0 { tgts := [0, 1], strag := [1] } demo), 1, 0, cmd 0x34 [0, 0], by decide +kernel⟩,
    ⟨on (cmd 0x37 [0, 0]) (slotAt 0 9 0 { tgts := [0, 1], strag := [1] } demo), 1, 0, cmd 0x37 [0, 0], by decide +kernel⟩,
    ⟨on (cmd 0x35 [0, 0]) (slotAt 0 10 0 { tgts := [0, 1] } demo), 1, 0, cmd 0x35 [0, 0], by decide +kernel⟩,
    ⟨on (cmd 0x36 [0, 0, 1, 0]) (slotAt 0 9 0 { tgts := [0, 1], strag := [1] } demo), 1, 0, cmd 0x36 [0, 0, 1, 0],
      by decide +kernel⟩,
    ⟨on (cmd 0x36 [0, 0, 1, 1]) (slotAt 0 9 0 { tgts := [0, 1], strag := [1] } demo), 1, 0, cmd 0x36 [0, 0, 1, 1],
      by decide +kernel⟩,
    ⟨on (cmd 0x34 [0x40, 0]) (demo), 1, cmd 0x34 [0x40, 0], by decide +kernel⟩,
    ⟨on (cmd 0x37 [0x40, 0]) (demo), 1, cmd 0x37 [0x40, 0], by decide +kernel⟩,
    ⟨on (cmd 0x35 [0x40, 0]) (demo), 1, cmd 0x35 [0x40, 0], by decide +kernel⟩,
    ⟨on (cmd 0x36 [0x40, 0, 1, 0]) (demo), 1, cmd 0x36 [0x40, 0, 1, 0], by decide +kernel⟩,
    ⟨on (cmd 0x36 [0x40, 0, 1, 1]) (demo), 1, cmd 0x36 [0x40, 0, 1, 1], by decide +kernel⟩,
    ⟨on (cmd 0x35 [0, 0]) (slotAt 0 1 0 {} demo), 1, 0, cmd 0x35 [0, 0], by decide +kernel⟩,
    ⟨on (cmd 0x36 [0, 0, 1, 0]) (slotAt 0 1 0 {} demo), 1, 0, cmd 0x36 [0, 0, 1, 0], 6, by decide +kernel⟩,
    ⟨on (cmd 0x36 [0, 0, 1, 1]) (slotAt 0 1 0 {} demo), 1, 0, cmd 0x36 [0, 0, 1, 1], 6, by decide +kernel⟩,
    ⟨slotAt 0 9 0 { tgts := [0, 1], strag := [1] } demo, 2, by decide +kernel⟩,
    ⟨slotAt 0 9 0 { tgts := [0, 1], strag := [1] } demo, 0, 1, 1, by decide +kernel⟩⟩

/-- The premises of MissedHeatLeavesAStraggler are met. -/
theorem met_MissedHeatLeavesAStraggler : ∃ (s : State), ∃ (n hid inst : Nat), ∃ (t : Stamp), ∃ (g : Target), s.hasNi n = true ∧
    (s.ni n).tgtOf inst hid = some g ∧ g.st = 3 ∧ 0 ≤ stampDiff t g.t :=
  ⟨ni0 (tgt0 0 { gen := 0, st := 3, t := 5120000, items := [shd] }), 0, 0, 0, 5120000,
    { gen := 0, st := 3, t := 5120000, items := [shd] }, by decide +kernel⟩

/-- The premises of DroppedStragglerLeavesTheMap are met. -/
theorem met_DroppedStragglerLeavesTheMap :
    (∃ (s : State), ∃ (x k : Nat), ∃ (c : Cmd), ∃ (l : List Nat), l = (s.heat k).strag.filter (fun i => i != c.p 16 8) ∧
      s.Issued x 0x36 [(0, 25)] c ∧ c.p 24 1 = 1 ∧ s.slotOf (c.p 0 16) = some k ∧ s.heatSt k = 9 ∧
      (s.heat k).strag.contains (c.p 16 8) = true) ∧
    (∃ (s : State), ∃ (x k : Nat), ∃ (c : Cmd), ∃ (l : List Nat), l = (s.heat k).strag.filter (fun i => i != c.p 16 8) ∧
      s.Issued x 0x36 [(0, 25)] c ∧ c.p 24 1 = 1 ∧ s.slotOf (c.p 0 16) = some k ∧ s.heatSt k = 9 ∧
      (s.heat k).strag.contains (c.p 16 8) = true) :=
  ⟨⟨on (cmd 0x36 [0, 0, 1, 1]) (slotAt 0 9 0 { tgts := [0, 1], strag := [1] } demo), 1, 0, cmd 0x36 [0, 0, 1, 1], _, rfl,
    by decide +kernel⟩,
    ⟨on (cmd 0x36 [0, 0, 1, 1]) (slotAt 0 9 0 { tgts := [0, 1], strag := [0, 1] } demo), 1, 0, cmd 0x36 [0, 0, 1, 1], _, rfl,
      by decide +kernel⟩⟩

/-- The premises of ScannerPassesCompareAndCommit are met. -/
theorem met_ScannerPassesCompareAndCommit :
    (∃ (s : State), s.flag evtB F.EVT_STAT_PASS_BUSY = false) ∧
    (∃ (s : State), s.flag evtB F.EVT_STAT_PASS_BUSY = true) ∧
    (∃ (s : State), (s.heatCrc = false ∨ s.slotsIn [6,
      7] ≠ [] ∨ s.scan.heat = true ∨ { kind := 4, who := 0 } ∈ s.asks ∨ { kind := 4, who := 0 } ∈ s.leaveQ ∨ { kind := 4, who := 0 } ∈ s.leaves)) ∧
    (∃ (s : State), (∀ g, (s.rg g).wake ≠ 8) ∧ s.rom.regions.length ≤ 16 ∧ s.flag evtB F.EVT_STAT_PASS_BUSY = true ∧
      s.flag evtB F.EVT_STAT_COMMIT_PEND = true ∧ s.scan.given = false ∧ s.scan.cmds = [] ∧ s.scan.heat = false) ∧
    (∃ (s : State), (∀ g, (s.rg g).wake ≠ 8) ∧ s.rom.regions.length ≤ 16 ∧ s.flag evtB F.EVT_STAT_PASS_BUSY = true ∧
      s.crcHeld = false ∧ s.rd evtB F.EVT_STAT_MM_CNT = 1 ∧ s.rd evtB F.EVT_CTL_POLICY = 0) ∧
    (∃ (s : State), ∃ (x : Nat) (c : Cmd), s.Issued x 0x04 [] c) ∧
    (∃ (s : State), s.heatCrc = true ∧ s.slotsIn [6, 7] = [] ∧ s.scan.heat = false ∧ { kind := 4, who := 0 } ∉ s.asks ∧
      { kind := 4, who := 0 } ∉ s.leaveQ ∧ { kind := 4, who := 0 } ∉ s.leaves) :=
  ⟨⟨on (cmd 4 []) demo, by decide +kernel⟩,
    ⟨((on (cmd 4 []) demo).wr evtB F.EVT_STAT_PASS_BUSY 1), by decide +kernel⟩,
    ⟨on (cmd 4 []) demo, by decide +kernel⟩,
    ⟨(demo.wr evtB F.EVT_STAT_PASS_BUSY 1).wr evtB F.EVT_STAT_COMMIT_PEND 1,
      rgs_all (P := fun _ r => r.wake ≠ 8) (fun _ => by decide) (by decide +kernel), by decide +kernel⟩,
    ⟨((demo.wr evtB F.EVT_STAT_PASS_BUSY 1).wr evtB F.EVT_STAT_MM_CNT 1).wr evtB F.EVT_STAT_REF_VALID 1,
      rgs_all (P := fun _ r => r.wake ≠ 8) (fun _ => by decide) (by decide +kernel), by decide +kernel⟩,
    ⟨on (cmd 4 []) demo, 1, cmd 4 [], by decide +kernel⟩,
    ⟨{ demo with heatCrc := true }, by decide +kernel⟩⟩

/-! ### Chapter 11 of the statements -/

/-- The instance with plane 0 in state `a` and plane 1 in state `b`, valid time at 10,000 ns and T_j at 20,000 ns. -/
def planes (a b : Nat) (v : PlaneSt) (s : State) : State :=
  { ((((s.plnGo 0 a).plnGo 1 b).wr timB F.TIM_STAT_VALID 1).setWord64 (strB + 0x808) (256 * 20000)) with
    time := { ft := 10000 * 2 ^ 32 }, plst := [(0, v)] }

/-- The premises of PlaneCommandsDetachTestAttachReset are met. -/
theorem met_PlaneCommandsDetachTestAttachReset :
    (∃ (s : State), ∃ (x p : Nat), ∃ (c : Cmd), p = c.p 0 1 ∧ s.Issued x 0x60 [(0, 1), (1, 1)] c ∧ s.plnState (1 - p) ≠ 0) ∧
    (∃ (s : State), ∃ (x p : Nat), ∃ (c : Cmd), p = c.p 0 1 ∧ s.Issued x 0x60 [(0, 1), (1, 1)] c ∧ s.plnState (1 - p) = 0 ∧
      s.plnState p = 0 ∧ c.p 1 1 = 1) ∧
    (∃ (s : State), ∃ (x p : Nat), ∃ (c : Cmd), p = c.p 0 1 ∧ s.Issued x 0x60 [(0, 1), (1, 1)] c ∧ s.plnState (1 - p) = 0 ∧
      s.plnState p = 0 ∧ c.p 1 1 = 0) ∧
    (∃ (s : State), ∃ (x p : Nat), ∃ (c : Cmd), p = c.p 0 1 ∧ s.Issued x 0x60 [(0, 1), (1, 1)] c ∧ s.plnState (1 - p) = 0 ∧
      s.plnState p ≠ 0) ∧
    (∃ (s : State), ∃ (x p : Nat), ∃ (c : Cmd), p = c.p 0 1 ∧ s.plnState p ≠ 2 ∧ s.Issued x 0x61 [(0, 1)] c) ∧
    (∃ (s : State), ∃ (x p : Nat), ∃ (c : Cmd), p = c.p 0 1 ∧ s.plnState p ≠ 2 ∧ s.Issued x 0x62 [(0, 1)] c) ∧
    (∃ (s : State), ∃ (x p : Nat), ∃ (c : Cmd), p = c.p 0 1 ∧ s.plnState p ≠ 2 ∧ s.Issued x 0x63 [(0, 1)] c ∧ s.plnState p ≠ 5) ∧
    (∃ (s : State), ∃ (x p : Nat), ∃ (c : Cmd), p = c.p 0 1 ∧ s.Issued x 0x62 [(0, 1)] c ∧ s.plnState p = 2 ∧
      s.flag strB (plnPass p) = false) ∧
    (∃ (s : State), ∃ (x p : Nat), ∃ (c : Cmd), p = c.p 0 1 ∧ s.Issued x 0x62 [(0, 1)] c ∧ s.plnState p = 2 ∧
      s.flag strB (plnPass p) = true ∧ s.rootOk = false) ∧
    (∃ (s : State), ∃ (x p : Nat), ∃ (c : Cmd), p = c.p 0 1 ∧ s.Issued x 0x61 [(0, 1)] c ∧ s.plnState p = 2 ∧
      (s.plnState (1 - p) = 3 ∨ (s.pln p).test ≠ none ∨ (s.pln (1 - p)).test ≠ none)) ∧
    (∃ (s : State), ∃ (x p : Nat), ∃ (c : Cmd), p = c.p 0 1 ∧ s.Issued x 0x61 [(0, 1)] c ∧ s.plnState p = 2 ∧
      s.plnState (1 - p) ≠ 3 ∧ (s.pln p).test = none ∧ (s.pln (1 - p)).test = none) ∧
    (∃ (s : State), ∃ (x p : Nat), ∃ (c : Cmd), p = c.p 0 1 ∧ s.Issued x 0x62 [(0, 1)] c ∧ s.plnState p = 2 ∧
      s.flag strB (plnPass p) = true ∧ s.rootOk = true) ∧
    (∃ (s : State), ∃ (x p : Nat), ∃ (c : Cmd), p = c.p 0 1 ∧ s.Issued x 0x63 [(0, 1)] c ∧
      (s.plnState p = 2 ∨ s.plnState p = 5)) ∧
    (∃ (s : State), ∃ (x p : Nat), ∃ (c : Cmd), p = c.p 0 1 ∧ s.Issued x 0x63 [(0, 1)] c ∧
      (s.plnState p = 2 ∨ s.plnState p = 5)) ∧
    (∃ (s : State), ∃ (x p : Nat), ∃ (c : Cmd), p = c.p 0 1 ∧ s.Issued x 0x64 [] c) :=
  ⟨⟨on (cmd 0x60 [0]) (planes 0 2 {} demo), 1, _, cmd 0x60 [0], rfl, by decide +kernel⟩,
    ⟨on (cmd 0x60 [2]) (planes 0 0 {} demo), 1, _, cmd 0x60 [2], rfl, by decide +kernel⟩,
    ⟨on (cmd 0x60 [1]) (planes 0 0 {} demo), 1, _, cmd 0x60 [1], rfl, by decide +kernel⟩,
    ⟨on (cmd 0x60 [0]) (planes 2 0 {} demo), 1, _, cmd 0x60 [0], rfl, by decide +kernel⟩,
    ⟨on (cmd 0x61 [0]) (planes 0 0 {} demo), 1, _, cmd 0x61 [0], rfl, by decide +kernel⟩,
    ⟨on (cmd 0x62 [0]) (planes 0 0 {} demo), 1, _, cmd 0x62 [0], rfl, by decide +kernel⟩,
    ⟨on (cmd 0x63 [0]) (planes 4 0 {} demo), 1, _, cmd 0x63 [0], rfl, by decide +kernel⟩,
    ⟨on (cmd 0x62 [0]) (planes 2 0 {} demo), 1, _, cmd 0x62 [0], rfl, by decide +kernel⟩,
    ⟨on (cmd 0x62 [0]) (((planes 2 0 {} demo).wr strB (plnPass 0) 1).wr timB F.TIM_STAT_VALID 0), 1, _, cmd 0x62 [0], rfl,
      by decide +kernel⟩,
    ⟨on (cmd 0x61 [0]) (planes 2 0 { test := some 4 } demo), 1, _, cmd 0x61 [0], rfl, by decide +kernel⟩,
    ⟨on (cmd 0x61 [0]) (planes 2 0 {} demo), 1, _, cmd 0x61 [0], rfl, by decide +kernel⟩,
    ⟨on (cmd 0x62 [0]) ((planes 2 0 {} demo).wr strB (plnPass 0) 1), 1, _, cmd 0x62 [0], rfl, by decide +kernel⟩,
    ⟨on (cmd 0x63 [0]) (planes 2 0 {} demo), 1, _, cmd 0x63 [0], rfl, by decide +kernel⟩,
    ⟨on (cmd 0x63 [0]) (planes 5 0 {} demo), 1, _, cmd 0x63 [0], rfl, by decide +kernel⟩,
    ⟨on (cmd 0x64 []) (planes 5 0 {} demo), 1, _, cmd 0x64 [], rfl, by decide +kernel⟩⟩

/-- The premises of PlaneStatesProceed are met. -/
theorem met_PlaneStatesProceed :
    (∃ (s : State), ∃ (p : Nat), (2 ≤ p ∨ s.plnState p ≠ 1 ∨ s.plnEmpty p = false)) ∧
    (∃ (s : State), ∃ (p : Nat), (2 ≤ p ∨ s.plnState p ≠ 1)) ∧
    (∃ (s : State), ∃ (p : Nat), (2 ≤ p ∨ s.plnState p ≠ 3)) ∧
    (∃ (s : State), s.planeFaults = []) ∧
    (∃ (s : State), ∃ (p : Nat), ∃ (t : Stamp),
      (2 ≤ p ∨ s.plnState p ≠ 4 ∨ stampDiff t (BitVec.ofNat 64 (s.word64 (strB + 0x808))) < 0)) ∧
    (∃ (s : State), ∃ (p : Nat), ∃ (n : Nat) (t : Stamp),
      (2 ≤ p ∨ s.hasNi n = false ∨ bitAt (s.ni n).join p = false ∨ stampDiff t (BitVec.ofNat 64 (s.word64 (strB + 0x808))) < 0)) ∧
    (∃ (s : State), ∃ (n : Nat), s.hears n = false) ∧
    (∃ (s : State), ∃ (p : Nat), p < 2 ∧ s.plnState p = 1 ∧ s.plnEmpty p = true) ∧
    (∃ (s : State), ∃ (p : Nat), p < 2 ∧ s.plnState p = 1) ∧
    (∃ (s : State), ∃ (p : Nat), ∃ (cause : Nat) (r : List (Nat × Nat)), p < 2 ∧ s.planeFaults = (p, cause) :: r ∧
      s.flag strB F.STR_PLN_CFG_AUTO_FAIL = true ∧ s.plnState p = 0 ∧ s.plnState (1 - p) = 0) ∧
    (∃ (s : State), ∃ (p : Nat), ∃ (x : Nat), p < 2 ∧ s.plnState p = 3 ∧ (s.pln p).test = some x ∧ (∀ q ∈ s.probeList p,
      q.2.2 = true) ∧ bitAt s.planeHit p = false) ∧
    (∃ (s : State), ∃ (p : Nat), ∃ (x : Nat), p < 2 ∧ s.plnState p = 3 ∧ (s.pln p).test = some x ∧ ((∃ q ∈ s.probeList p,
      q.2.2 = false) ∨ bitAt s.planeHit p = true)) ∧
    (∃ (s : State), ∃ (p : Nat), ∃ (x : Nat) (t : Stamp), p < 2 ∧ s.plnState p = 4 ∧ (s.pln p).attach = some x ∧
      0 ≤ stampDiff t (BitVec.ofNat 64 (s.word64 (strB + 0x808)))) ∧
    (∃ (s : State), ∃ (p : Nat), ∃ (n : Nat) (t : Stamp), p < 2 ∧ s.hasNi n = true ∧ bitAt (s.ni n).join p = true ∧
      0 ≤ stampDiff t (BitVec.ofNat 64 (s.word64 (strB + 0x808)))) ∧
    (∃ (s : State), ∃ (p : Nat), ∃ (n : Nat), p < 2 ∧ s.hears n = true) ∧
    (∃ (s : State), ∃ (p : Nat), ∃ (n : Nat), p < 2 ∧ s.hears n = true) ∧
    (∃ (s : State), ∃ (p : Nat), ∃ (n : Nat), p < 2 ∧ s.hears n = true) ∧
    (∃ (s : State), ∃ (p : Nat), ∃ (cause : Nat) (r : List (Nat × Nat)), s.planeFaults = (p, cause) :: r ∧
      (s.flag strB F.STR_PLN_CFG_AUTO_FAIL = false ∨ s.plnState p ≠ 0 ∨ s.plnState (1 - p) ≠ 0)) :=
  ⟨⟨planes 1 0 { detach := some 4 } ([Port.ni 0 0, .ni 0 1,
    .span 0 0].foldl (fun a o => a.setPort o { cred := List.replicate 16 demo.rom.vcDepth }) demo), 1, by decide +kernel⟩,
    ⟨planes 1 0 { detach := some 4 } ([Port.ni 0 0, .ni 0 1,
      .span 0 0].foldl (fun a o => a.setPort o { cred := List.replicate 16 demo.rom.vcDepth }) demo), 1, by decide +kernel⟩,
    ⟨planes 1 0 { detach := some 4 } ([Port.ni 0 0, .ni 0 1,
      .span 0 0].foldl (fun a o => a.setPort o { cred := List.replicate 16 demo.rom.vcDepth }) demo), 0, by decide +kernel⟩,
    ⟨planes 1 0 { detach := some 4 } ([Port.ni 0 0, .ni 0 1,
      .span 0 0].foldl (fun a o => a.setPort o { cred := List.replicate 16 demo.rom.vcDepth }) demo), by decide +kernel⟩,
    ⟨planes 4 0 { attach := some 4 } demo, 0, 0, by decide +kernel⟩,
    ⟨planes 4 0 { attach := some 4 } demo, 0, 0, 5120000, by decide +kernel⟩,
    ⟨planes 1 0 { detach := some 4 } demo, 2, by decide +kernel⟩,
    ⟨planes 1 0 { detach := some 4 } ([Port.ni 0 0, .ni 0 1,
      .span 0 0].foldl (fun a o => a.setPort o { cred := List.replicate 16 demo.rom.vcDepth }) demo), 0, by decide +kernel⟩,
    ⟨planes 1 0 { detach := some 4 } demo, 0, by decide +kernel⟩,
    ⟨{ (planes 0 0 {} demo).wr strB F.STR_PLN_CFG_AUTO_FAIL 1 with planeFaults := [(0, 3), (1, 2)] }, 0, 3, [(1, 2)],
      by decide +kernel⟩,
    ⟨planes 3 0 { test := some 4 } (ni0 { demoNi with probes := [(0, 1, 1), (1, 1, 2)] }), 0, 4, by decide +kernel⟩,
    ⟨{ planes 3 0 { test := some 4 } (ni0 { demoNi with probes := [(0, 1, 1), (1, 1, 2)] }) with planeHit := 1 }, 0, 4,
      by decide +kernel⟩,
    ⟨planes 4 0 { attach := some 4 } demo, 0, 4, 5120000, by decide +kernel⟩,
    ⟨planes 4 0 { attach := some 4 } (ni0 { demoNi with join := 1 }), 0, 0, 5120000, by decide +kernel⟩,
    ⟨planes 4 0 {} demo, 0, 0, by decide +kernel⟩,
    ⟨planes 4 0 {} demo, 0, 0, by decide +kernel⟩,
    ⟨planes 1 0 {} demo, 0, 0, by decide +kernel⟩,
    ⟨{ planes 4 0 {} demo with planeFaults := [(0, 3)] }, 0, 3, [], by decide +kernel⟩⟩

/-! ### Chapter 12 of the statements -/

/-- Slice 5 in state `st`, with the manager holding `v` for it. -/
def slice5 (st : Nat) (v : SliceSt) (s : State) : State := { s.slcGo 5 st with slcs := [(5, v)], clock := 20000 }

/-- A tag of slice 5 that waits for node 1. -/
def tag5 : Tag := { ser := 5, id := 3, code := 0, sc := 2, slice := 5, pid := 0, addr := 64, len := 8, dkey := 1 }

/-- The premises of SliceCommandsMapShareResetOpen are met. -/
theorem met_SliceCommandsMapShareResetOpen :
    (∃ (s : State), ∃ (x : Nat), ∃ (c : Cmd), s.Issued x 0x40 [(0, 8), (16, 10), (32, 20), (56, 7)] c ∧
      s.hasNi (c.p 0 8) = true ∧ c.p 16 10 < (niRec s.rom (c.p 0 8)).pidMap ∧ c.p 56 6 ≠ 63) ∧
    (∃ (s : State), ∃ (x : Nat), ∃ (c : Cmd), s.Issued x 0x40 [(0, 8), (16, 10), (32, 20), (56, 7)] c ∧
      (s.hasNi (c.p 0 8) = false ∨ (niRec s.rom (c.p 0 8)).pidMap ≤ c.p 16 10 ∨ c.p 56 6 = 63)) ∧
    (∃ (s : State), ∃ (x : Nat), ∃ (c : Cmd), s.Issued x 0x40 [(0, 8), (16, 10), (32, 20), (56, 7)] c ∧
      (s.hasNi (c.p 0 8) = false ∨ (niRec s.rom (c.p 0 8)).pidMap ≤ c.p 16 10 ∨ c.p 56 6 = 63)) ∧
    (∃ (s : State), ∃ (x : Nat), ∃ (c : Cmd), s.Issued x 0x41 [(0, 14), (32, 10), (48, 11), (64, 10), (80, 11)] c ∧
      (s.hasNi (c.p 0 8) = false ∨ c.p 8 6 = 63)) ∧
    (∃ (s : State), ∃ (x : Nat), ∃ (c : Cmd), c.p 0 6 = 63 ∧ s.Issued x 0x42 [(0, 6), (8, 1)] c) ∧
    (∃ (s : State), ∃ (x : Nat), ∃ (c : Cmd), c.p 0 6 = 63 ∧ s.Issued x 0x43 [(0, 6)] c) ∧
    (∃ (s : State), ∃ (x : Nat), ∃ (c : Cmd), s.Issued x 0x43 [(0, 6)] c ∧ c.p 0 6 ≠ 63 ∧
      (s.slcSt (c.p 0 6) ≠ 3 ∨ s.clock < (s.slc (c.p 0 6)).since + 10 * usTc)) ∧
    (∃ (s : State), ∃ (x : Nat), ∃ (c : Cmd), s.Issued x 0x43 [(0, 6)] c ∧ c.p 0 6 ≠ 63 ∧
      (s.slcSt (c.p 0 6) ≠ 3 ∨ s.clock < (s.slc (c.p 0 6)).since + 10 * usTc)) ∧
    (∃ (s : State), ∃ (x : Nat), ∃ (c : Cmd), s.Issued x 0x45 [(0, 6), (12, 20), (32, 32)] c ∧
      (s.slcBusy.isSome = true ∨ s.migSync.isSome = true)) ∧
    (∃ (s : State), ∃ (x sl : Nat), ∃ (c : Cmd), sl = c.p 8 6 ∧ s.Issued x 0x41 [(0, 14), (32, 10), (48, 11), (64, 10), (80,
      11)] c ∧ s.hasNi (c.p 0 8) = true ∧ sl ≠ 63) ∧
    (∃ (s : State), ∃ (x sl : Nat), ∃ (c : Cmd), sl = c.p 0 6 ∧ s.Issued x 0x42 [(0, 6), (8, 1)] c ∧ sl ≠ 63 ∧ s.slcBusy = none) ∧
    (∃ (s : State), ∃ (x sl : Nat), ∃ (c : Cmd), sl = c.p 0 6 ∧ s.Issued x 0x42 [(0, 6), (8, 1)] c ∧ sl ≠ 63 ∧ s.slcBusy = none) ∧
    (∃ (s : State), ∃ (x sl : Nat), ∃ (c : Cmd), sl = c.p 0 6 ∧ s.Issued x 0x42 [(0, 6), (8, 1)] c ∧ sl ≠ 63 ∧ s.slcBusy = none) ∧
    (∃ (s : State), ∃ (x : Nat), ∃ (c : Cmd), s.Issued x 0x42 [(0, 6), (8, 1)] c ∧ c.p 0 6 ≠ 63 ∧ s.slcBusy.isSome = true) ∧
    (∃ (s : State), ∃ (x sl : Nat), ∃ (c : Cmd), sl = c.p 0 6 ∧ s.Issued x 0x43 [(0, 6)] c ∧ sl ≠ 63 ∧ s.slcSt sl = 3 ∧
      (s.slc sl).since + 10 * usTc ≤ s.clock) ∧
    (∃ (s : State), ∃ (x : Nat), ∃ (c : Cmd), s.Issued x 0x44 [(0, 6)] c) ∧
    (∃ (s : State), ∃ (x : Nat), ∃ (c : Cmd), s.Issued x 0x45 [(0, 6), (12, 20), (32, 32)] c ∧ s.slcBusy = none ∧
      s.migSync = none) :=
  ⟨⟨on (cmd 0x40 [0, 0, 0, 0, 9, 0, 0, 0x45]) (demo), 1, cmd 0x40 [0, 0, 0, 0, 9, 0, 0, 0x45], by decide +kernel⟩,
    ⟨on (cmd 0x40 [2, 0, 0, 0, 9, 0, 0, 0x45]) (demo), 1, cmd 0x40 [2, 0, 0, 0, 9, 0, 0, 0x45], by decide +kernel⟩,
    ⟨on (cmd 0x40 [0, 0, 0, 0, 9, 0, 0, 0x3F]) (demo), 1, cmd 0x40 [0, 0, 0, 0, 9, 0, 0, 0x3F], by decide +kernel⟩,
    ⟨on (cmd 0x41 [0, 63, 0, 0, 7, 0, 8, 0, 9, 0, 1, 0]) (demo), 1, cmd 0x41 [0, 63, 0, 0, 7, 0, 8, 0, 9, 0, 1, 0],
      by decide +kernel⟩,
    ⟨on (cmd 0x42 [63, 0]) (demo), 1, cmd 0x42 [63, 0], by decide +kernel⟩,
    ⟨on (cmd 0x43 [63]) (demo), 1, cmd 0x43 [63], by decide +kernel⟩,
    ⟨on (cmd 0x43 [5]) (slice5 3 { since := 7501 } demo), 1, cmd 0x43 [5], by decide +kernel⟩,
    ⟨on (cmd 0x43 [5]) (slice5 2 {} demo), 1, cmd 0x43 [5], by decide +kernel⟩,
    ⟨on (cmd 0x45 [5, 16, 0, 0, 9]) (slice5 1 {} demo), 1, cmd 0x45 [5, 16, 0, 0, 9], by decide +kernel⟩,
    ⟨on (cmd 0x41 [0, 5, 0, 0, 7, 0, 8, 0, 9, 0, 1, 0]) (demo), 1, _, cmd 0x41 [0, 5, 0, 0, 7, 0, 8, 0, 9, 0, 1, 0], rfl,
      by decide +kernel⟩,
    ⟨on (cmd 0x42 [5, 0]) (demo), 1, _, cmd 0x42 [5, 0], rfl, by decide +kernel⟩,
    ⟨on (cmd 0x42 [5, 1]) (demo), 1, _, cmd 0x42 [5, 1], rfl, by decide +kernel⟩,
    ⟨on (cmd 0x42 [5, 0]) (slice5 4 {} demo), 1, _, cmd 0x42 [5, 0], rfl, by decide +kernel⟩,
    ⟨on (cmd 0x42 [4, 0]) (slice5 1 {} demo), 1, cmd 0x42 [4, 0], by decide +kernel⟩,
    ⟨on (cmd 0x43 [5]) (slice5 3 { since := 7500 } (ni0 { demoNi with closed := 32, squash := 33 })), 1, _, cmd 0x43 [5], rfl,
      by decide +kernel⟩,
    ⟨on (cmd 0x44 [5]) (slice5 3 {} demo), 1, cmd 0x44 [5], by decide +kernel⟩,
    ⟨on (cmd 0x45 [5, 16, 0, 0, 9]) (demo), 1, cmd 0x45 [5, 16, 0, 0, 9], by decide +kernel⟩⟩

/-- The premises of SliceResetProceeds are met. -/
theorem met_SliceResetProceeds :
    (∃ (s : State), ∃ (n sl : Nat), (s.hears n = false ∨ 63 ≤ sl ∨ s.slcSt sl = 0 ∨ bitAt (s.ni n).closed sl = true)) ∧
    (∃ (s : State), ∃ (n sl : Nat),
      (s.hears n = false ∨ 63 ≤ sl ∨ s.slcSt sl = 0 ∨ s.slcSt sl = 1 ∨ bitAt (s.ni n).squash sl = true ∧
      bitAt (s.ni n).closed sl = true)) ∧
    (∃ (s : State), ∃ (sl : Nat), (63 ≤ sl ∨ s.slcSt sl ≠ 1)) ∧
    (∃ (s : State), ∃ (sl : Nat), (63 ≤ sl ∨ s.slcSt sl ≠ 2)) ∧
    (∃ (s : State), ∃ (sl : Nat), (63 ≤ sl ∨ s.slcSt sl ≠ 1 ∧ s.slcSt sl ≠ 2 ∨ s.sliceTold sl = false)) ∧
    (∃ (s : State), s.migSync = none) ∧
    (∃ (s : State), ∃ (sl : Nat), sl < 63 ∧ (s.slcSt sl = 1 ∨ s.slcSt sl = 2) ∧ s.sliceTold sl = true ∧
      ((s.sliceSum sl).1 ≠ 0 ∨ ∃ k ∈ s.slotsIn [6, 7], s.rd hcuB (F.HCU_SLOT0_SLICE.ix k) = sl)) ∧
    (∃ (s : State), ∃ (n sl : Nat), sl < 63 ∧ s.hears n = true ∧ s.slcSt sl ≠ 0 ∧ bitAt (s.ni n).closed sl = false) ∧
    (∃ (s : State), ∃ (n sl : Nat), sl < 63 ∧ s.hears n = true ∧ s.slcSt sl ≠ 0 ∧ s.slcSt sl ≠ 1 ∧
      bitAt (s.ni n).squash sl = false) ∧
    (∃ (s : State), ∃ (sl : Nat), sl < 63 ∧ s.slcSt sl = 1) ∧
    (∃ (s : State), ∃ (sl : Nat), ∃ (x : Nat), sl < 63 ∧ (s.slcSt sl = 1 ∨ s.slcSt sl = 2) ∧ s.sliceTold sl = true ∧
      (s.sliceSum sl).1 = 0 ∧ (∀ k ∈ s.slotsIn [6, 7], s.rd hcuB (F.HCU_SLOT0_SLICE.ix k) ≠ sl) ∧ (s.slc sl).cmd = some x) ∧
    (∃ (s : State), ∃ (sl : Nat), ∃ (x : Nat), sl < 63 ∧ (s.slcSt sl = 1 ∨ s.slcSt sl = 2) ∧ s.sliceTold sl = true ∧
      (s.sliceSum sl).1 = 0 ∧ (∀ k ∈ s.slotsIn [6, 7], s.rd hcuB (F.HCU_SLOT0_SLICE.ix k) ≠ sl) ∧ (s.slc sl).cmd = some x) ∧
    (∃ (s : State), ∃ (sl : Nat), ∃ (x : Nat), sl < 63 ∧ s.slcSt sl = 2 ∧ (s.slc sl).cmd = some x) ∧
    (∃ (s : State), ∃ (n sl : Nat), ∃ (m : MigSync) (k : Nat),
      k = (List.range s.rom.nis.length).foldl (fun a n => a + s.tagsToward n m.slice m.node) 0 ∧ sl < 63 ∧ s.migSync = some m) ∧
    (∃ (s : State), ∃ (n sl : Nat), ∃ (m : MigSync) (k : Nat),
      k = (List.range s.rom.nis.length).foldl (fun a n => a + s.tagsToward n m.slice m.node) 0 ∧ sl < 63 ∧ s.migSync = some m) ∧
    (∃ (s : State), ∃ (n sl : Nat), ∃ (m : MigSync) (k : Nat),
      k = (List.range s.rom.nis.length).foldl (fun a n => a + s.tagsToward n m.slice m.node) 0 ∧ sl < 63 ∧ s.migSync = some m) :=
  ⟨⟨slice5 1 {} (ni0 { demoNi with rsvs := [{ ser := 1, node := 1, slice := 5, gran := 1 }, { ser := 2, node := 1, slice := 4, gran := 1 }] }),
    0, 0, by decide +kernel⟩,
    ⟨slice5 1 {} (ni0 { demoNi with rsvs := [{ ser := 1, node := 1, slice := 5, gran := 1 }, { ser := 2, node := 1, slice := 4, gran := 1 }] }),
      0, 5, by decide +kernel⟩,
    ⟨slice5 1 {} demo, 0, by decide +kernel⟩,
    ⟨slice5 1 {} demo, 5, by decide +kernel⟩,
    ⟨slice5 1 {} demo, 5, by decide +kernel⟩,
    ⟨slice5 1 {} demo, by decide +kernel⟩,
    ⟨slice5 1 { cmd := some 4 } ((ni0 { demoNi with closed := 32, tags := [(0, some tag5)] }).setNi 1 { demoNi with closed := 32 }),
      5, by decide +kernel⟩,
    ⟨slice5 1 {} (ni0 { demoNi with rsvs := [{ ser := 1, node := 1, slice := 5, gran := 1 }, { ser := 2, node := 1, slice := 4, gran := 1 }] }),
      0, 5, by decide +kernel⟩,
    ⟨slice5 2 {} (ni0 { demoNi with tags := [(0, some tag5)], ord := [{ ser := 5, id := 3, key := 1 }] }), 0, 5,
      by decide +kernel⟩,
    ⟨slice5 1 {} demo, 5, by decide +kernel⟩,
    ⟨slice5 1 { cmd := some 4 } ((ni0 { demoNi with closed := 32 }).setNi 1 { demoNi with closed := 32 }), 5, 4,
      by decide +kernel⟩,
    ⟨slice5 2 { cmd := some 4 } ((ni0 { demoNi with squash := 32 }).setNi 1 { demoNi with squash := 32 }), 5, 4,
      by decide +kernel⟩,
    ⟨slice5 2 { cmd := some 4, ni := 1 } (demo.wr slcB (F.SLC_ST_LAST.ix 5) 9), 5, 4, by decide +kernel⟩,
    ⟨{ demo with migSync := some { cmd := 4, slice := 5, node := 1, limit := 3, t0 := 0 }, clock := 3750 }, 0, 5,
      ({ cmd := 4, slice := 5, node := 1, limit := 3, t0 := 0 } : MigSync), _, rfl, by decide +kernel⟩,
    ⟨{ ni0 { demoNi with tags := [(0, some tag5)] } with migSync := some { cmd := 4, slice := 5, node := 1, limit := 3, t0 := 0 }, clock := 3750 },
      0, 5, ({ cmd := 4, slice := 5, node := 1, limit := 3, t0 := 0 } : MigSync), _, rfl, by decide +kernel⟩,
    ⟨{ ni0 { demoNi with tags := [(0, some tag5)] } with migSync := some { cmd := 4, slice := 5, node := 1, limit := 3, t0 := 0 }, clock := 3749 },
      0, 5, ({ cmd := 4, slice := 5, node := 1, limit := 3, t0 := 0 } : MigSync), _, rfl, by decide +kernel⟩⟩

/-! ### Chapter 13 of the statements -/

/-- NI 0 with a gate list of two entries in its admin bank that starts at 15,000 ns, gates on and time valid. -/
def gatedHop : State :=
  let s := ((((ni0 { demoNi with gatePend := some 15000 }).wr (niB 0) F.NI_GATE_CTL_EN 1).wr (niB 0) F.NI_TIME_STAT_VALID 1).wr (niB 0)
    F.NI_GATE_ADM_CYCLE_CYCLE 1000).wr (niB 0) F.NI_GATE_ADM_LEN_LEN 2
  (((s.setWord (niB 0 + 0x3000) 5).setWord (niB 0 + 0x3004) 400).setWord (niB 0 + 0x3008) 9).setWord (niB 0 + 0x300C) 600

/-- The premises of GatesFollowTheirLists are met. -/
theorem met_GatesFollowTheirLists :
    (∃ (s : State), ∃ (n : Nat), s.hasNi n = false) ∧
    (∃ (s : State), ∃ (n : Nat), s.hasNi n = false) ∧
    (∃ (s : State), ∃ (n : Nat), ∃ (t : Stamp), ((s.ni n).gatePend = none ∨ s.niTimeOk n = false ∨ ∃ g,
      (s.ni n).gatePend = some g ∧ s.wholeNs t < g)) ∧
    (∃ (s : State), ∃ (n : Nat), ∃ (t : Stamp), ((s.ni n).gatePend = none ∨ s.niTimeOk n = false ∨ ∃ g,
      (s.ni n).gatePend = some g ∧ s.wholeNs t < g)) ∧
    (∃ (s : State), ∃ (n : Nat), ∃ (mem : Bool), ∃ (u : State),
      u = (if mem then s.memUncorr n else s).updNi n (fun x => { x with gateBad := mem }) ∧ s.hasNi n = true) ∧
    (∃ (s : State), ∃ (n : Nat), ∃ (mem : Bool), ∃ (u : State),
      u = (if mem then s.memUncorr n else s).updNi n (fun x => { x with gateBad := mem }) ∧ s.hasNi n = true) ∧
    (∃ (s : State), ∃ (n : Nat), s.hasNi n = true ∧ (s.flag (niB n) F.NI_GATE_CTL_EN = false ∨ s.niTimeOk n = false)) ∧
    (∃ (s : State), ∃ (n : Nat), ∃ (cls : Nat), s.hasNi n = true ∧
      (s.flag (niB n) F.NI_GATE_CTL_EN = false ∨ s.niTimeOk n = false) ∧ cls < 4) ∧
    (∃ (s : State), ∃ (n : Nat), ∃ (t : Stamp), ∃ (g : Nat), s.hasNi n = true ∧ (s.ni n).gatePend = some g ∧
      s.niTimeOk n = true ∧ g ≤ s.wholeNs t) :=
  ⟨⟨demo, 2, by decide +kernel⟩,
    ⟨demo, 2, by decide +kernel⟩,
    ⟨demo, 0, 0, by decide +kernel⟩,
    ⟨demo, 2, 0, by decide +kernel⟩,
    ⟨gatedHop, 0, false, _, rfl, by decide +kernel⟩,
    ⟨gatedHop, 0, true, _, rfl, by decide +kernel⟩,
    ⟨demo, 0, by decide +kernel⟩,
    ⟨demo, 0, 3, by decide +kernel⟩,
    ⟨gatedHop, 0, 3840000, 15000, by decide +kernel⟩⟩

/-- The premises of GateWalkFindsTheEntry are met. -/
theorem met_GateWalkFindsTheEntry :
    (∃ (es : List GateEntry), ∃ (x k : Nat), k < es.length ∧ ((es.take k).map (fun e => e.2.2)).sum ≤ x ∧
      (k + 1 < es.length → x < ((es.take (k + 1)).map (fun e => e.2.2)).sum)) ∧
    (∃ (es : List GateEntry), ∃ (x k : Nat), k < es.length ∧ ((es.take k).map (fun e => e.2.2)).sum ≤ x ∧
      (k + 1 < es.length → x < ((es.take (k + 1)).map (fun e => e.2.2)).sum)) ∧
    (∃ (es : List GateEntry), ∃ (x k : Nat), k < es.length ∧ ((es.take k).map (fun e => e.2.2)).sum ≤ x ∧
      (k + 1 < es.length → x < ((es.take (k + 1)).map (fun e => e.2.2)).sum)) :=
  ⟨⟨[(5, false, 400), (9, false, 600), (1, false, 100)], 400, 1, by decide +kernel⟩,
    ⟨[(5, false, 400), (9, false, 600), (1, false, 100)], 999, 1, by decide +kernel⟩,
    ⟨[(5, false, 400), (9, false, 600), (1, false, 100)], 5000, 2, by decide +kernel⟩⟩

/-- The premises of SchedulerTimersAct are met. -/
theorem met_SchedulerTimersAct :
    (∃ (s : State), ∃ (n : Nat), s.hasNi n = false) ∧
    (∃ (s : State), ∃ (n : Nat), ∃ (q : Nat), (s.hasNi n = false ∨ schedSize s.rom n ≤ q)) ∧
    (∃ (s : State), ∃ (n : Nat), (s.hasNi n = false ∨ (s.ni n).timer ≠ 2)) ∧
    (∃ (s : State), ∃ (n : Nat), s.hasNi n = true) ∧
    (∃ (s : State), ∃ (n : Nat), ∃ (q : Nat), s.hasNi n = true ∧ q < schedSize s.rom n) ∧
    (∃ (s : State), ∃ (n : Nat), s.hasNi n = true ∧ (s.ni n).timer = 2) :=
  ⟨⟨ni0 { demoNi with timer := 2, hist := [1, 2, 3, 4, 5, 6, 7, 8] }, 2, by decide +kernel⟩,
    ⟨ni0 { demoNi with qs := [(2, { cls := 2, pkts := [{ ser := 1, ptype := 0, op := 0, vn := 0, sc := 2, e := 1, dest := 1, len := 8, isReq := true }] })] },
      0, 300, by decide +kernel⟩,
    ⟨ni0 { demoNi with timer := 2, hist := [1, 2, 3, 4, 5, 6, 7, 8] }, 1, by decide +kernel⟩,
    ⟨(ni0 { demoNi with qs := [(2, { cls := 2, pkts := [{ ser := 1, ptype := 0, op := 0, vn := 0, sc := 2, e := 1, dest := 1, len := 8, isReq := true }] })], thrHeld := true, rem2 := -5, rem3 := 5, shp := [(3, { credit := -9 })] }).wr (niB 0) (shpRate 3) 7,
      0, by decide +kernel⟩,
    ⟨ni0 { demoNi with qs := [(2, { cls := 2, pkts := [{ ser := 1, ptype := 0, op := 0, vn := 0, sc := 2, e := 1, dest := 1, len := 8, isReq := true }] })] },
      0, 2, by decide +kernel⟩,
    ⟨ni0 { demoNi with timer := 2, hist := [1, 2, 3, 4, 5, 6, 7, 8] }, 0, by decide +kernel⟩⟩

/-! ### Chapter 14 of the statements -/

/-- A ROM of no records whose CRC is right. -/
def blankRom : Rom := { demoRom with
  nis := [], rtrs := [], links := [], turns := [], regions := [], spans := [], ceils := []
  crc := 1945806805 }

/-- The instance in start-up step `k` with its resets released. -/
def startup (k : Nat) : State := (demo.wr glbB F.GLB_START_STAT_STEP k).wr glbB F.GLB_START_STAT_READY 0

/-- Region 1 out of reset and calibrated, its NI recovering. -/
def recovers : State :=
  { (demo.setNi 1 { demoNi with up := false, recov := true }).wr pcrB (F.PCR_RG_STAT_STATE.ix 1) 6 with
    rgs := [(0, { held := false }), (1, { held := false, wake := 6 })] }

/-- Region 1 in RUN, its NI recovering alone. -/
def niRecovers : State := demo.setNi 1 { demoNi with up := false, recov := true }

/-- The premises of HomeRegionResetsWithTheInstance are met. -/
theorem met_HomeRegionResetsWithTheInstance :
    (∃ (s : State), ∃ (g : Nat), ∃ (m : Nat), ∃ (v : Word), g = s.rom.homeRegion ∧
      s.Goes m { kind := .glb, base := 0, target := 0 } 0xC0 v.toNat ∧ s.hasRegion g = true ∧ v.toNat = 2 ^ g) ∧
    (∃ (s : State), ∃ (g : Nat), ∃ (uv : Nat), ∃ (v : State), g = s.rom.homeRegion ∧
      v = ((s.wr pcrB (F.PCR_RG_STAT_DRST.ix g) 1).rgEvent g 1).count pcrB (F.PCR_DROOP_CNT_RST.ix g) 1 ∧ s.hasRegion g = true ∧
      s.watched g = true ∧ s.under g uv (s.droopCodes g).2 = true) ∧
    (∃ (s : State), ∃ (g : Nat), ∃ (edges : Nat), g = s.rom.homeRegion ∧ (∀ d,
      (s.rg g).step = some d → d.ph = 2 → d.todo.head? ≠ some true) ∧ s.hasRegion g = true ∧ edges < 4 ∧ [0, 1,
      7].contains (s.rgState g) = true ∧ (s.rg g).held = false) :=
  ⟨⟨demo, _, 0, 1, rfl, ⟨⟨cmxFree_of (by decide +kernel), by decide +kernel⟩, by decide +kernel⟩, by decide +kernel⟩,
    ⟨demo, _, 600000, _, rfl, rfl, by decide +kernel⟩,
    ⟨demo, _, 3, rfl, (by exact fun d h => (nomatch h)), by decide +kernel⟩⟩

/-- The premises of ResetsReleaseAndRecover are met. -/
theorem met_ResetsReleaseAndRecover :
    (∃ (s : State), ∃ (g : Nat), (s.hasRegion g = false ∨ (s.rg g).held = false ∨ (s.rg g).wake ≠ 4)) ∧
    (∃ (s : State), ∃ (n : Nat),
      (s.hasNi n = false ∨ (s.port (.ni 0 n)).dead = false ∨ (s.rg (niRec s.rom n).region).held = true)) ∧
    (∃ (s : State), ∃ (g : Nat), s.hasRegion g = true ∧ (s.rg g).held = true ∧ (s.rg g).wake = 4) ∧
    (∃ (s : State), ∃ (n : Nat), s.hasNi n = true ∧ (s.port (.ni 0 n)).dead = true ∧ (s.rg (niRec s.rom n).region).held = false) ∧
    (∃ (s : State), ∃ (o f : Port), s.hasPort o = true ∧ farEnd s.rom o = some f ∧
      ((s.port f).dead = true ∨ (s.port o).stIso = true) ∧ (s.port o).dead = false) ∧
    (∃ (s : State), ∃ (o : Port), (s.hasPort o = false ∨ farEnd s.rom o = none ∨ (s.port o).dead = true ∨ ∃ f,
      farEnd s.rom o = some f ∧ (s.port f).dead = false ∧ (s.port o).stIso = false)) ∧
    (∃ (s : State), ∃ (g : Nat), (s.hasRegion g = false ∨ (s.rg g).held = true ∨ (s.rg g).wake ≠ 6 ∧ (s.rg g).wake ≠ 8)) ∧
    (∃ (s : State), ∃ (g : Nat), ∃ (v : State), v = s.restoreRegion g ∧ s.hasRegion g = true ∧ (s.rg g).held = false ∧
      ((s.rg g).wake = 6 ∨ (s.rg g).wake = 8) ∧ v.shareOk g = false) ∧
    (∃ (s : State), ∃ (g n : Nat), ∃ (v : State), ∃ (u : State) (y : State), v = s.restoreRegion g ∧
      u = ((((nisOf v.rom g).filter (fun n => !(v.ni n).up && !(v.port (.ni 0 n)).dead)).foldl (fun a n => a.niBack n) v).updRg g (fun r => { r with wake := 0 })).rgGo g 0 ∧
      y = ((u.wr glbB F.GLB_RECOV_RECOV (u.rd glbB F.GLB_RECOV_RECOV &&& (2 ^ 16 - 1 - 2 ^ g))).unIsolate g).glEvent 8 2 ∧
      s.hasRegion g = true ∧ (s.rg g).held = false ∧ ((s.rg g).wake = 6 ∨ (s.rg g).wake = 8) ∧ (v.rg g).held = false ∧
      (v.rg g).wake = 8 ∧ v.shareOk g = true) :=
  ⟨⟨{ demo with rgs := [(0, { held := false }), (1, { held := true, wake := 4 })] }, 0, by decide +kernel⟩,
    ⟨demo.setPort (.rtr 0 1 1) { dead := true }, 0, by decide +kernel⟩,
    ⟨{ demo with rgs := [(0, { held := false }), (1, { held := true, wake := 4 })] }, 1, by decide +kernel⟩,
    ⟨demo.setPort (.ni 0 1) { dead := true }, 1, by decide +kernel⟩,
    ⟨demo.setPort (.rtr 0 1 1) { dead := true }, .rtr 0 0 1, .rtr 0 1 1, by decide +kernel⟩,
    ⟨demo.setPort (.ni 0 1) { dead := true }, .rtr 0 0 1, by decide +kernel⟩,
    ⟨{ demo with rgs := [(0, { held := false }), (1, { held := true, wake := 4 })] }, 1, by decide +kernel⟩,
    ⟨({ recovers with rom := { demoRom with nis := [], rtrs := [], links := [], spans := [] } }.wr evtB F.EVT_STAT_REF_VALID 1).wr evtB (F.EVT_SHARE_REF_V.ix 1) 5,
      1, _, rfl, by decide +kernel⟩,
    ⟨recovers, 1, 0, _, _, _, rfl, rfl, rfl, by decide +kernel⟩⟩

/-- The premises of StartupRunsToReady are met. -/
theorem met_StartupRunsToReady :
    (∃ (s : State), s.pacer.rst ≠ 0) ∧
    (∃ (s : State), s.pacer.rst ≠ 0) ∧
    (∃ (s : State), s.pacer.rst = 0) ∧
    (∃ (s : State), (s.pacer.rst ≠ 0 ∨ s.rd glbB F.GLB_START_STAT_STEP ≠ 1 ∨ s.start.fuse = true)) ∧
    (∃ (s : State), (s.pacer.rst ≠ 0 ∨ s.rd glbB F.GLB_START_STAT_STEP ≠ 1 ∨ s.start.fuse = true)) ∧
    (∃ (s : State), (s.pacer.rst ≠ 0 ∨ s.flag glbB F.GLB_START_STAT_FAIL = true ∨ s.ready = true)) ∧
    (∃ (s : State), (s.rd glbB F.GLB_START_STAT_STEP = 1 ∧
      s.start.fuse = false ∨ (s.rd glbB F.GLB_START_STAT_STEP = 3 ∨ s.rd glbB F.GLB_START_STAT_STEP = 8) ∧
      s.rd strB F.STR_BOOT_STATE ≠ 3 ∨ s.rd glbB F.GLB_START_STAT_STEP = 5 ∧ (∀ m,
      s.start.marks = some m → s.time.marks < m + 32 ∨ s.calBusy = true) ∨ s.rd glbB F.GLB_START_STAT_STEP = 7 ∧
      (List.range s.rom.spans.length).all (fun i => (List.range (s.nLinks i)).all (fun j => s.start.spans.contains (4 * i + j))) = false)) ∧
    (∃ (s : State), s.pacer.rst = 0 ∧ s.rd glbB F.GLB_START_STAT_STEP = 1 ∧ s.start.fuse = false) ∧
    (∃ (s : State), ∃ (key : List Byte), s.pacer.rst = 0 ∧ s.rd glbB F.GLB_START_STAT_STEP = 1 ∧ s.start.fuse = false ∧
      key.length = 32) ∧
    (∃ (s : State), ∃ (k : Nat), s.pacer.rst = 0 ∧ s.flag glbB F.GLB_START_STAT_FAIL = false ∧ s.ready = false ∧ k < 2 ∧
      s.rd glbB F.GLB_START_STAT_STEP = k ∧ (k = 1 → s.start.fuse = true)) ∧
    (∃ (s : State), ∃ (k : Nat), s.pacer.rst = 0 ∧ s.flag glbB F.GLB_START_STAT_FAIL = false ∧ s.ready = false ∧ k < 2 ∧
      s.rd glbB F.GLB_START_STAT_STEP = k ∧ (k = 1 → s.start.fuse = true)) ∧
    (∃ (s : State), s.pacer.rst = 0 ∧ s.flag glbB F.GLB_START_STAT_FAIL = false ∧ s.ready = false ∧
      s.rd glbB F.GLB_START_STAT_STEP = 2 ∧ s.rom.homeRegion < 16) ∧
    (∃ (s : State), s.pacer.rst = 0 ∧ s.flag glbB F.GLB_START_STAT_FAIL = false ∧ s.ready = false ∧
      s.rd glbB F.GLB_START_STAT_STEP = 4) ∧
    (∃ (s : State), ∃ (m : Nat), s.pacer.rst = 0 ∧ s.flag glbB F.GLB_START_STAT_FAIL = false ∧ s.ready = false ∧
      s.rd glbB F.GLB_START_STAT_STEP = 5 ∧ s.start.marks = some m ∧ m + 32 ≤ s.time.marks ∧ s.calBusy = false) ∧
    (∃ (s : State), s.pacer.rst = 0 ∧ s.flag glbB F.GLB_START_STAT_FAIL = false ∧ s.ready = false ∧
      s.rd glbB F.GLB_START_STAT_STEP = 7 ∧
      (List.range s.rom.spans.length).all (fun i => (List.range (s.nLinks i)).all (fun j => s.start.spans.contains (4 * i + j))) = true) ∧
    (∃ (s : State), s.pacer.rst = 0 ∧ s.flag glbB F.GLB_START_STAT_FAIL = false ∧ s.ready = false ∧
      s.rd glbB F.GLB_START_STAT_STEP = 3 ∧ s.rd strB F.STR_BOOT_STATE = 3) ∧
    (∃ (s : State), ∃ (c : Nat) (n : Nat), s.pacer.rst = 0 ∧ s.flag glbB F.GLB_START_STAT_FAIL = false ∧ s.ready = false ∧
      s.rd glbB F.GLB_START_STAT_STEP = 6 ∧ topoFault s.rom = some (c, n)) ∧
    (∃ (s : State), s.pacer.rst = 0 ∧ s.flag glbB F.GLB_START_STAT_FAIL = false ∧ s.ready = false ∧
      s.rd glbB F.GLB_START_STAT_STEP = 6 ∧ topoFault s.rom = none) ∧
    (∃ (s : State), s.pacer.rst = 0 ∧ s.flag glbB F.GLB_START_STAT_FAIL = false ∧ s.ready = false ∧
      s.rd glbB F.GLB_START_STAT_STEP = 8 ∧ s.rd strB F.STR_BOOT_STATE = 3) :=
  ⟨⟨{ startup 0 with pacer := { rst := 1 } }, by decide +kernel⟩,
    ⟨{ startup 3 with pacer := { rst := 2 } }, by decide +kernel⟩,
    ⟨(startup 3).wr strB F.STR_BOOT_STATE 3, by decide +kernel⟩,
    ⟨(startup 3).wr strB F.STR_BOOT_STATE 3, by decide +kernel⟩,
    ⟨(startup 3).wr strB F.STR_BOOT_STATE 3, by decide +kernel⟩,
    ⟨{ startup 0 with pacer := { rst := 1 } }, by decide +kernel⟩,
    ⟨startup 8, by decide +kernel⟩,
    ⟨startup 1, by decide +kernel⟩,
    ⟨startup 1, List.replicate 32 9, by decide +kernel⟩,
    ⟨startup 0, 0, by decide +kernel⟩,
    ⟨{ startup 1 with start := { fuse := true } }, 1, by decide +kernel⟩,
    ⟨startup 2, by decide +kernel⟩,
    ⟨startup 4, by decide +kernel⟩,
    ⟨{ startup 5 with start := { marks := some 0 }, time := { demo.time with marks := 32 } }, 0, by decide +kernel⟩,
    ⟨{ startup 7 with start := { spans := [0, 1, 2, 3] } }, by decide +kernel⟩,
    ⟨(startup 3).wr strB F.STR_BOOT_STATE 3, by decide +kernel⟩,
    ⟨{ startup 6 with rom := { demoRom with magic := 0 } },
      ((topoFault ({ startup 6 with rom := { demoRom with magic := 0 } }).rom).getD (0, 0)).1,
      ((topoFault ({ startup 6 with rom := { demoRom with magic := 0 } }).rom).getD (0, 0)).2, by decide +kernel⟩,
    ⟨{ startup 6 with rom := blankRom }, by decide +kernel⟩,
    ⟨(((((startup 8).wr glbB F.GLB_START_STAT_FAIL 0).wr glbB F.GLB_START_STAT_READY 0).wr glbB F.GLB_START_STAT_STEP 8).wr strB F.STR_BOOT_STATE 3),
      by decide +kernel⟩⟩

/-! ### Chapter 15 of the statements -/

/-- Link 0 of Span port 0 in training state `st`, holding `l`. -/
def link0 (st : Nat) (l : Link) : State := { demo.lw 0 0 F.SP_L_STAT_STATE st with links := [(0, l)] }

/-- The far end's LINK frame of instance 1 with every lane good. -/
def farInfo : LinkInfo := { inst := 1, mask := 0xFF, width := 2, role := 0, cred := List.replicate 16 0 }

/-- The header of a one-flit packet for instance 3, and the packet. -/
def hdr3 : Hdr := { len := 8, dest := 0x300 }

def toInst3 : Flit := { vc := 2, ft := 3, segb := true, hdr := some hdr3 }

/-- The VCs of a port with that packet at the front of VC 2. -/
def vcs3 (tx : Option TxPkt) : List VcSt :=
  List.replicate 2 ({} : VcSt) ++ [({ buf := [toInst3], tx := tx } : VcSt)] ++ List.replicate 13 ({} : VcSt)

/-- Link 0 ACTIVE with that packet at the front of receive VC 2. -/
def spanHeld : Link := { lanes := 8, rxv := vcs3 none }

/-- The frame with the CRC that its bits give. -/
def signed (f : Frame) : Frame := { f with crc := BitVec.ofNat 32 (frameCrc f) }

/-- Link 0 ACTIVE with credits, and the packet waiting in plane 0's output toward it. -/
def sending : State := (link0 5 { lanes := 8, cred := List.replicate 16 9 }).setPort (.span 0 0) {
  vcs := vcs3 (some { hdr := hdr3, f := hdrFlits hdr3, next := 0 }) }

/-- The premises of SpanCommandsTrainDownSplitStatus are met. -/
theorem met_SpanCommandsTrainDownSplitStatus :
    (∃ (s : State), ∃ (x k j : Nat), ∃ (c : Cmd), k = c.p 0 2 ∧ j = c.p 2 2 ∧ s.Issued x 0x70 [(0, 8)] c ∧ s.hasLink k j = true ∧
      c.p 4 3 < 5 ∧ widthOf (s.group k) (c.p 4 3) ≤ s.group k ∧ s.allocOk k j = true ∧ s.roles 1 ≤ 1 ∧ s.roles 2 ≤ 8 ∧
      (s.lst k j = 0 ∨ s.lst k j = 5 ∨ s.lst k j = 7) ∧ (s.lk (4 * k + j)).cmd = none ∧ (s.lk (4 * k + j)).fall = none) ∧
    (∃ (s : State), ∃ (x k j : Nat), ∃ (c : Cmd), k = c.p 0 2 ∧ j = c.p 2 2 ∧ s.Issued x 0x70 [(0, 8)] c ∧
      (s.hasLink k j = false ∨ 5 ≤ c.p 4 3 ∨ s.group k < widthOf (s.group k) (c.p 4 3) ∨ s.allocOk k j = false)) ∧
    (∃ (s : State), ∃ (x k j : Nat), ∃ (c : Cmd), k = c.p 0 2 ∧ j = c.p 2 2 ∧ s.Issued x 0x70 [(0, 8)] c ∧ s.hasLink k j = true ∧
      c.p 4 3 < 5 ∧ widthOf (s.group k) (c.p 4 3) ≤ s.group k ∧ s.allocOk k j = true ∧ (1 < s.roles 1 ∨ 8 < s.roles 2)) ∧
    (∃ (s : State), ∃ (x k j : Nat), ∃ (c : Cmd), k = c.p 0 2 ∧ j = c.p 2 2 ∧ s.Issued x 0x70 [(0, 8)] c ∧ s.hasLink k j = true ∧
      c.p 4 3 < 5 ∧ widthOf (s.group k) (c.p 4 3) ≤ s.group k ∧ s.allocOk k j = true ∧ s.roles 1 ≤ 1 ∧ s.roles 2 ≤ 8 ∧
      ((s.lst k j ≠ 0 ∧ s.lst k j ≠ 5 ∧
      s.lst k j ≠ 7) ∨ (s.lk (4 * k + j)).cmd.isSome = true ∨ (s.lk (4 * k + j)).fall.isSome = true)) ∧
    (∃ (s : State), ∃ (x k j : Nat), ∃ (c : Cmd), k = c.p 0 2 ∧ j = c.p 2 2 ∧ s.Issued x 0x71 [(0, 4)] c ∧ s.hasLink k j = true ∧
      (s.lk (4 * k + j)).cmd = none) ∧
    (∃ (s : State), ∃ (x k j : Nat), ∃ (c : Cmd), k = c.p 0 2 ∧ j = c.p 2 2 ∧ s.Issued x 0x71 [(0, 4)] c ∧ s.hasLink k j = true) ∧
    (∃ (s : State), ∃ (x k j : Nat), ∃ (c : Cmd), k = c.p 0 2 ∧ j = c.p 2 2 ∧ s.hasLink k j = false ∧ s.Issued x 0x70 [(0,
      8)] c) ∧
    (∃ (s : State), ∃ (x k j : Nat), ∃ (c : Cmd), k = c.p 0 2 ∧ j = c.p 2 2 ∧ s.hasLink k j = false ∧ s.Issued x 0x71 [(0,
      4)] c) ∧
    (∃ (s : State), ∃ (x k j : Nat), ∃ (c : Cmd), k = c.p 0 2 ∧ j = c.p 2 2 ∧ s.Issued x 0x72 [(0, 2), (4, 2)] c ∧
      s.hasSpan k = true ∧ c.p 4 2 ≠ 3 ∧ (∀ i, i < s.nLinks k → s.lst k i = 0 ∨ s.lst k i = 7)) ∧
    (∃ (s : State), ∃ (x k j : Nat), ∃ (c : Cmd), k = c.p 0 2 ∧ j = c.p 2 2 ∧ s.Issued x 0x72 [(0, 2), (4, 2)] c ∧
      (s.hasSpan k = false ∨ c.p 4 2 = 3)) ∧
    (∃ (s : State), ∃ (x k j : Nat), ∃ (c : Cmd), ∃ (i : Nat), k = c.p 0 2 ∧ j = c.p 2 2 ∧ s.Issued x 0x72 [(0, 2), (4, 2)] c ∧
      s.hasSpan k = true ∧ c.p 4 2 ≠ 3 ∧ i < s.nLinks k ∧ s.lst k i ≠ 0 ∧ s.lst k i ≠ 7) ∧
    (∃ (s : State), ∃ (x k j : Nat), ∃ (c : Cmd), k = c.p 0 2 ∧ j = c.p 2 2 ∧ s.Issued x 0x73 [(0, 2)] c ∧ s.hasSpan k = false) ∧
    (∃ (s : State), ∃ (x k j : Nat), ∃ (c : Cmd), k = c.p 0 2 ∧ j = c.p 2 2 ∧ s.Issued x 0x73 [(0, 2)] c ∧ s.hasSpan k = true) :=
  ⟨⟨on (cmd 0x70 [0x20]) (link0 0 {}), 1, _, _, cmd 0x70 [0x20], rfl, rfl, by decide +kernel⟩,
    ⟨on (cmd 0x70 [0x24]) (link0 5 {}), 1, _, _, cmd 0x70 [0x24], rfl, rfl, by decide +kernel⟩,
    ⟨on (cmd 0x70 [0]) (((({ demo with rom := { demoRom with spans := [{ lanes := 8, region := 0, rtr := 0, port := 2 }, { lanes := 8, region := 0, rtr := 0, port := 3 }] } }).lw 0 0 F.SP_L_CFG_RELAY 1).lw 1 0 F.SP_L_CFG_RELAY 1).lw 0 0 F.SP_L_CRED_VN 0x10101010),
      1, _, _, cmd 0x70 [0], rfl, rfl, by decide +kernel⟩,
    ⟨on (cmd 0x70 [0]) ((link0 2 {}).lw 0 0 F.SP_L_CRED_VN 0x10101010), 1, _, _, cmd 0x70 [0], rfl, rfl, by decide +kernel⟩,
    ⟨on (cmd 0x71 [0]) (link0 5 { lanes := 8 }), 1, _, _, cmd 0x71 [0], rfl, rfl, by decide +kernel⟩,
    ⟨on (cmd 0x71 [0]) (link0 1 { lanes := 8, cmd := some 7 }), 1, _, _, cmd 0x71 [0], rfl, rfl, by decide +kernel⟩,
    ⟨on (cmd 0x70 [0x24]) (link0 5 {}), 1, _, _, cmd 0x70 [0x24], rfl, rfl, by decide +kernel⟩,
    ⟨on (cmd 0x71 [4]) (link0 5 {}), 1, _, _, cmd 0x71 [4], rfl, rfl, by decide +kernel⟩,
    ⟨on (cmd 0x72 [0x20]) (link0 7 {}), 1, _, _, cmd 0x72 [0x20], rfl, rfl, by decide +kernel⟩,
    ⟨on (cmd 0x72 [0x30]) (demo), 1, _, _, cmd 0x72 [0x30], rfl, rfl, by decide +kernel⟩,
    ⟨on (cmd 0x72 [0x20]) (link0 5 {}), 1, _, _, cmd 0x72 [0x20], 0, rfl, rfl, by decide +kernel⟩,
    ⟨on (cmd 0x73 [3]) (demo), 1, _, _, cmd 0x73 [3], rfl, rfl, by decide +kernel⟩,
    ⟨on (cmd 0x73 [0]) (link0 7 {}), 1, _, _, cmd 0x73 [0], rfl, rfl, by decide +kernel⟩⟩

/-- The premises of LinksTrainToActiveOrDown are met. -/
theorem met_LinksTrainToActiveOrDown :
    (∃ (s : State), ∃ (k j : Nat), s.hasLink k j = false) ∧
    (∃ (s : State), ∃ (k j : Nat), s.hasLink k j = false) ∧
    (∃ (s : State), ∃ (k j : Nat), s.hasLink k j = false) ∧
    (∃ (s : State), ∃ (k j : Nat), s.hasLink k j = true ∧
      ((s.lk (4 * k + j)).fall.isSome = true ∨ s.lst k j = 0 ∨ s.lst k j = 5 ∨ 7 ≤ s.lst k j ∨ (s.lst k j = 4 ∨ s.lst k j = 6) ∧
      (s.lk (4 * k + j)).far = none)) ∧
    (∃ (s : State), ∃ (k j : Nat), ∃ (f : LinkInfo), s.hasLink k j = true ∧ (s.lk (4 * k + j)).fall = none ∧
      (s.lst k j = 4 ∨ s.lst k j = 6) ∧ (s.lk (4 * k + j)).far = some f ∧ f.inst = s.instNum) ∧
    (∃ (s : State), ∃ (k j : Nat), ∃ (f : LinkInfo), s.hasLink k j = true ∧ (s.lk (4 * k + j)).fall = none ∧
      (s.lst k j = 4 ∨ s.lst k j = 6) ∧ (s.lk (4 * k + j)).far = some f ∧ f.inst ≠ s.instNum ∧ s.allocOk k j = false) ∧
    (∃ (s : State), ∃ (k j : Nat), ∃ (f : LinkInfo), s.hasLink k j = true ∧ (s.lk (4 * k + j)).fall = none ∧
      (s.lst k j = 4 ∨ s.lst k j = 6) ∧ (s.lk (4 * k + j)).far = some f ∧ f.inst ≠ s.instNum ∧ s.allocOk k j = true ∧
      laneGroup (s.group k) (min (widthOf (s.group k) (s.lf k j F.SP_L_CFG_WIDTH_REQ)) (widthOf (s.group k) f.width)) (s.goodLanes k j &&& f.mask) = none) ∧
    (∃ (s : State), ∃ (k j : Nat), s.hasLink k j = true ∧ (s.lk (4 * k + j)).fall = none ∧ s.lst k j = 1) ∧
    (∃ (s : State), ∃ (k j : Nat), s.hasLink k j = true ∧ (s.lk (4 * k + j)).fall = none ∧ s.lst k j = 2) ∧
    (∃ (s : State), ∃ (k j : Nat), s.hasLink k j = true ∧ (s.lk (4 * k + j)).fall = none ∧ s.lst k j = 3) ∧
    (∃ (s : State), ∃ (k j : Nat), ∃ (f : LinkInfo), ∃ (l0 w : Nat), s.hasLink k j = true ∧ (s.lk (4 * k + j)).fall = none ∧
      (s.lst k j = 4 ∨ s.lst k j = 6) ∧ (s.lk (4 * k + j)).far = some f ∧ f.inst ≠ s.instNum ∧ s.allocOk k j = true ∧
      laneGroup (s.group k) (min (widthOf (s.group k) (s.lf k j F.SP_L_CFG_WIDTH_REQ)) (widthOf (s.group k) f.width)) (s.goodLanes k j &&& f.mask) = some (l0,
      w)) ∧
    (∃ (s : State), ∃ (k j : Nat), ∃ (f : LinkInfo), ∃ (l0 w : Nat), s.hasLink k j = true ∧ (s.lk (4 * k + j)).fall = none ∧
      (s.lst k j = 4 ∨ s.lst k j = 6) ∧ (s.lk (4 * k + j)).far = some f ∧ f.inst ≠ s.instNum ∧ s.allocOk k j = true ∧
      laneGroup (s.group k) (min (widthOf (s.group k) (s.lf k j F.SP_L_CFG_WIDTH_REQ)) (widthOf (s.group k) f.width)) (s.goodLanes k j &&& f.mask) = some (l0,
      w)) ∧
    (∃ (s : State), ∃ (k j : Nat), s.hasLink k j = true ∧
      ((s.lk (4 * k + j)).fall.isSome = true ∨ s.lst k j = 0 ∨ s.lst k j = 5 ∨ 7 ≤ s.lst k j)) ∧
    (∃ (s : State), ∃ (k j : Nat), s.hasLink k j = true ∧ (s.lk (4 * k + j)).fall = none) ∧
    (∃ (s : State), ∃ (k j : Nat), s.hasLink k j = true ∧ (s.lst k j ≠ 0 ∨ s.rd (spB k) F.SP_CFG_RETRY_MS = 0)) ∧
    (∃ (s : State), ∃ (k j : Nat), s.hasLink k j = true ∧ s.lst k j = 0 ∧ s.rd (spB k) F.SP_CFG_RETRY_MS ≠ 0 ∧
      (s.lk (4 * k + j)).want ≠ 0) ∧
    (∃ (s : State), ∃ (k j : Nat), s.hasLink k j = true ∧ (s.lk (4 * k + j)).fall = none ∧ s.lst k j = 6) ∧
    (∃ (s : State), ∃ (k j : Nat), s.hasLink k j = true ∧ (s.lk (4 * k + j)).fall = none ∧
      (s.lst k j = 1 ∨ s.lst k j = 2 ∨ s.lst k j = 3 ∨ s.lst k j = 4) ∧
      (s.lk (4 * k + j)).tries + 1 < max 1 (s.rd (spB k) F.SP_TRAIN_CFG_ATTEMPTS)) ∧
    (∃ (s : State), ∃ (k j : Nat), s.hasLink k j = true ∧ (s.lk (4 * k + j)).fall = none ∧
      (s.lst k j = 1 ∨ s.lst k j = 2 ∨ s.lst k j = 3 ∨ s.lst k j = 4) ∧
      max 1 (s.rd (spB k) F.SP_TRAIN_CFG_ATTEMPTS) ≤ (s.lk (4 * k + j)).tries + 1) ∧
    (∃ (s : State), ∃ (k j : Nat), ∃ (why : Nat), s.hasLink k j = true ∧ (s.lk (4 * k + j)).fall = some why) ∧
    (∃ (s : State), ∃ (k j : Nat), s.hasLink k j = true ∧ s.lst k j = 0 ∧ s.rd (spB k) F.SP_CFG_RETRY_MS ≠ 0 ∧
      (s.lk (4 * k + j)).want = 0) :=
  ⟨⟨link0 2 {}, 0, 1, by decide +kernel⟩,
    ⟨link0 2 {}, 0, 1, by decide +kernel⟩,
    ⟨(link0 4 { tries := 2, cmd := some 1 }).wr (spB 0) F.SP_TRAIN_CFG_ATTEMPTS 3, 0, 1, by decide +kernel⟩,
    ⟨(link0 4 { tries := 2, cmd := some 1 }).wr (spB 0) F.SP_TRAIN_CFG_ATTEMPTS 3, 0, 0, by decide +kernel⟩,
    ⟨link0 4 { far := some { farInfo with inst := 0 } }, 0, 0, { farInfo with inst := 0 }, by decide +kernel⟩,
    ⟨(link0 4 { far := some farInfo }).lw 0 0 F.SP_L_CRED_VN 0xFFFFFFFF, 0, 0, farInfo, by decide +kernel⟩,
    ⟨link0 4 { far := some { farInfo with mask := 0 } }, 0, 0, { farInfo with mask := 0 }, by decide +kernel⟩,
    ⟨link0 1 {}, 0, 0, by decide +kernel⟩,
    ⟨link0 2 {}, 0, 0, by decide +kernel⟩,
    ⟨link0 3 {}, 0, 0, by decide +kernel⟩,
    ⟨link0 4 { far := some farInfo }, 0, 0, farInfo,
      ((laneGroup ((link0 4 { far := some farInfo }).group 0) (min (widthOf ((link0 4 { far := some farInfo }).group 0) ((link0 4 { far := some farInfo }).lf 0 0 F.SP_L_CFG_WIDTH_REQ)) (widthOf ((link0 4 { far := some farInfo }).group 0) farInfo.width)) ((link0 4 { far := some farInfo }).goodLanes 0 0 &&& farInfo.mask)).getD (0,
      0)).1,
      ((laneGroup ((link0 4 { far := some farInfo }).group 0) (min (widthOf ((link0 4 { far := some farInfo }).group 0) ((link0 4 { far := some farInfo }).lf 0 0 F.SP_L_CFG_WIDTH_REQ)) (widthOf ((link0 4 { far := some farInfo }).group 0) farInfo.width)) ((link0 4 { far := some farInfo }).goodLanes 0 0 &&& farInfo.mask)).getD (0,
      0)).2, by decide +kernel⟩,
    ⟨(link0 6 { far := some { farInfo with mask := 0xF7 } }).wr (spB 0) F.SP_L_CFG_WIDTH_REQ 1, 0, 0,
      { farInfo with mask := 0xF7 },
      ((laneGroup (((link0 6 { far := some { farInfo with mask := 0xF7 } }).wr (spB 0) F.SP_L_CFG_WIDTH_REQ 1).group 0) (min (widthOf (((link0 6 { far := some { farInfo with mask := 0xF7 } }).wr (spB 0) F.SP_L_CFG_WIDTH_REQ 1).group 0) (((link0 6 { far := some { farInfo with mask := 0xF7 } }).wr (spB 0) F.SP_L_CFG_WIDTH_REQ 1).lf 0 0 F.SP_L_CFG_WIDTH_REQ)) (widthOf (((link0 6 { far := some { farInfo with mask := 0xF7 } }).wr (spB 0) F.SP_L_CFG_WIDTH_REQ 1).group 0) ({ farInfo with mask := 0xF7 }).width)) (((link0 6 { far := some { farInfo with mask := 0xF7 } }).wr (spB 0) F.SP_L_CFG_WIDTH_REQ 1).goodLanes 0 0 &&& ({ farInfo with mask := 0xF7 }).mask)).getD (0,
      0)).1,
      ((laneGroup (((link0 6 { far := some { farInfo with mask := 0xF7 } }).wr (spB 0) F.SP_L_CFG_WIDTH_REQ 1).group 0) (min (widthOf (((link0 6 { far := some { farInfo with mask := 0xF7 } }).wr (spB 0) F.SP_L_CFG_WIDTH_REQ 1).group 0) (((link0 6 { far := some { farInfo with mask := 0xF7 } }).wr (spB 0) F.SP_L_CFG_WIDTH_REQ 1).lf 0 0 F.SP_L_CFG_WIDTH_REQ)) (widthOf (((link0 6 { far := some { farInfo with mask := 0xF7 } }).wr (spB 0) F.SP_L_CFG_WIDTH_REQ 1).group 0) ({ farInfo with mask := 0xF7 }).width)) (((link0 6 { far := some { farInfo with mask := 0xF7 } }).wr (spB 0) F.SP_L_CFG_WIDTH_REQ 1).goodLanes 0 0 &&& ({ farInfo with mask := 0xF7 }).mask)).getD (0,
      0)).2, by decide +kernel⟩,
    ⟨{ link0 1 { fall := some 0x41 } with leaves := [{ kind := 3, who := 0 }] }, 0, 0, by decide +kernel⟩,
    ⟨link0 6 {}, 0, 0, by decide +kernel⟩,
    ⟨link0 2 {}, 0, 0, by decide +kernel⟩,
    ⟨(link0 0 { want := 2 }).wr (spB 0) F.SP_CFG_RETRY_MS 5, 0, 0, by decide +kernel⟩,
    ⟨link0 6 {}, 0, 0, by decide +kernel⟩,
    ⟨(link0 2 { tries := 1 }).wr (spB 0) F.SP_TRAIN_CFG_ATTEMPTS 3, 0, 0, by decide +kernel⟩,
    ⟨(link0 4 { tries := 2, cmd := some 1 }).wr (spB 0) F.SP_TRAIN_CFG_ATTEMPTS 3, 0, 0, by decide +kernel⟩,
    ⟨{ link0 1 { fall := some 0x41 } with leaves := [{ kind := 3, who := 0 }] }, 0, 0, 0x41, by decide +kernel⟩,
    ⟨(link0 0 {}).wr (spB 0) F.SP_CFG_RETRY_MS 5, 0, 0, by decide +kernel⟩⟩

/-- The premises of LaneGroupIsWidestThenLowest are met. -/
theorem met_LaneGroupIsWidestThenLowest :
    (∃ (g limit mask l0 w : Nat), laneGroup g limit mask = some (l0, w)) ∧
    (∃ (g limit mask l0 w : Nat), ∃ (b : Nat), laneGroup g limit mask = some (l0, w) ∧ b < w) ∧
    (∃ (g limit mask l0 w : Nat), ∃ (b : Nat), laneGroup g limit mask = some (l0, w) ∧ b < w) ∧
    (∃ (g limit mask l0 w : Nat), ∃ (v : Nat) (m : Nat), laneGroup g limit mask = some (l0, w) ∧
      (v = 8 ∨ v = 4 ∨ v = 2 ∨ v = 1) ∧ v ≤ g ∧ v ≤ limit ∧ v ∣ m ∧ m + v ≤ g ∧ (∀ b, b < v → bitAt mask (m + b) = true)) ∧
    (∃ (g limit mask l0 w : Nat), ∃ (v : Nat) (m : Nat), v = w ∧ laneGroup g limit mask = some (l0, w) ∧
      (v = 8 ∨ v = 4 ∨ v = 2 ∨ v = 1) ∧ v ≤ g ∧ v ≤ limit ∧ v ∣ m ∧ m + v ≤ g ∧ (∀ b, b < v → bitAt mask (m + b) = true)) :=
  ⟨⟨8, 4, 0xF7, ((laneGroup 8 4 0xF7).getD (0, 0)).1, ((laneGroup 8 4 0xF7).getD (0, 0)).2, by decide +kernel⟩,
    ⟨8, 4, 0xF7, ((laneGroup 8 4 0xF7).getD (0, 0)).1, ((laneGroup 8 4 0xF7).getD (0, 0)).2, 3, by decide +kernel⟩,
    ⟨8, 4, 1, ((laneGroup 8 4 1).getD (0, 0)).1, ((laneGroup 8 4 1).getD (0, 0)).2, 0, by decide +kernel⟩,
    ⟨8, 4, 0xF7, ((laneGroup 8 4 0xF7).getD (0, 0)).1, ((laneGroup 8 4 0xF7).getD (0, 0)).2, 2, 0, by decide +kernel⟩,
    ⟨8, 8, 0xF7, ((laneGroup 8 8 0xF7).getD (0, 0)).1, ((laneGroup 8 8 0xF7).getD (0, 0)).2, _, 4, rfl, by decide +kernel⟩⟩

/-- The premises of LaneFaultsRetrain are met. -/
theorem met_LaneFaultsRetrain :
    (∃ (s : State), ∃ (k j : Nat), s.hasLink k j = false) ∧
    (∃ (s : State), ∃ (k j : Nat), s.hasLink k j = false) ∧
    (∃ (s : State), ∃ (k j : Nat), s.hasLink k j = false) ∧
    (∃ (s : State), ∃ (k j : Nat), s.hasLink k j = false) ∧
    (∃ (s : State), ∃ (k j l : Nat), ∃ (b : Bool), ∃ (v : State), v = (if b = true ∧ s.lst k j = 5 ∧ l < s.group k ∧
      (s.laneClass k j l = 0 ∨ s.laneClass k j l = 4 ∨ s.laneClass k j l = 5) then (s.setClass k j l 1).lw k j F.SP_L_STAT_GOOD (s.lf k j F.SP_L_STAT_GOOD &&& (2 ^ 8 - 1 - 2 ^ l)) else s) ∧
      s.hasLink k j = true) ∧
    (∃ (s : State), ∃ (k j l : Nat), s.hasLink k j = true ∧ s.laneUsed k j l = true ∧ l < s.group k ∧ l < 8 ∧
      (s.laneClass k j l = 0 ∨ s.laneClass k j l = 4 ∨ s.laneClass k j l = 5) ∧ l ∉ (s.lk (4 * k + j)).restore) ∧
    (∃ (s : State), ∃ (k j l : Nat), s.hasLink k j = true ∧
      (s.lst k j ≠ 5 ∨ s.group k ≤ l ∨ s.laneClass k j l ≠ 1 ∨ s.flag (spB k) F.SP_CFG_AUTO_RESTORE = false)) ∧
    (∃ (s : State), ∃ (k j l : Nat), s.hasLink k j = true ∧ s.lst k j = 5 ∧ l < s.group k ∧ s.laneClass k j l = 1 ∧
      s.flag (spB k) F.SP_CFG_AUTO_RESTORE = true ∧ (s.lk (4 * k + j)).want ≠ 0) ∧
    (∃ (s : State), ∃ (k j : Nat), s.hasLink k j = true ∧ s.lst k j ≠ 5) ∧
    (∃ (s : State), ∃ (k j l : Nat), s.hasLink k j = true ∧ s.lst k j = 5 ∧ l < s.group k ∧ s.laneClass k j l = 1 ∧
      s.flag (spB k) F.SP_CFG_AUTO_RESTORE = true ∧ (s.lk (4 * k + j)).want = 0) ∧
    (∃ (s : State), ∃ (k j l : Nat), ∃ (uncorr : Nat), ∃ (errs : List Nat), s.hasLink k j = true ∧ s.lst k j = 5 ∧
      s.lf k j F.SP_L_LL_CFG_FEC_THR < uncorr ∧ l < s.group k ∧ s.laneUsed k j l = true ∧ l < 8 ∧
      s.lf k j F.SP_L_LL_CFG_FEC_THR < errs.getD l 0 ∧ (s.laneClass k j l = 0 ∨ s.laneClass k j l = 5) ∧
      s.flag (spB k) F.SP_CFG_AUTO_DEGRADE = true ∧ (s.lk (4 * k + j)).want = 0) ∧
    (∃ (s : State), ∃ (k j l : Nat), ∃ (uncorr : Nat), s.hasLink k j = true ∧ s.lst k j = 5 ∧ l < 8 ∧ s.laneUsed k j l = true ∧
      s.laneClass k j l = 4 ∧ s.flag (spB k) F.SP_CFG_AUTO_DEGRADE = true ∧ (s.lk (4 * k + j)).want = 0 ∧
      uncorr ≤ s.lf k j F.SP_L_LL_CFG_FEC_THR) ∧
    (∃ (s : State), ∃ (k j : Nat), ∃ (uncorr : Nat), s.hasLink k j = true ∧ s.lst k j = 5 ∧
      uncorr ≤ s.lf k j F.SP_L_LL_CFG_FEC_THR ∧ (s.flag (spB k) F.SP_CFG_AUTO_DEGRADE = false ∨ ∀ i,
      i < 8 → s.laneUsed k j i = true → s.laneClass k j i ≠ 4)) :=
  ⟨⟨link0 5 { lanes := 8 }, 0, 1, by decide +kernel⟩,
    ⟨link0 5 { lanes := 8 }, 0, 1, by decide +kernel⟩,
    ⟨link0 5 { lanes := 8 }, 0, 1, by decide +kernel⟩,
    ⟨link0 2 {}, 0, 1, by decide +kernel⟩,
    ⟨(((link0 5 { lanes := 4 }).lw 0 0 F.SP_L_LANE_C 0x10000000).wr (spB 0) F.SP_CFG_AUTO_RESTORE 1), 0, 0, 7, true, _, rfl,
      by decide +kernel⟩,
    ⟨link0 5 { lanes := 8 }, 0, 0, 7, by decide +kernel⟩,
    ⟨link0 5 { lanes := 8 }, 0, 0, 7, by decide +kernel⟩,
    ⟨((link0 5 { lanes := 4, want := 1 }).lw 0 0 F.SP_L_LANE_C 0x10000000).wr (spB 0) F.SP_CFG_AUTO_RESTORE 1, 0, 0, 7,
      by decide +kernel⟩,
    ⟨link0 2 {}, 0, 0, by decide +kernel⟩,
    ⟨(((link0 5 { lanes := 4 }).lw 0 0 F.SP_L_LANE_C 0x10000000).wr (spB 0) F.SP_CFG_AUTO_RESTORE 1), 0, 0, 7, by decide +kernel⟩,
    ⟨(link0 5 { lanes := 8 }).lw 0 0 F.SP_L_LL_CFG_FEC_THR 4, 0, 0, 0, 5, List.replicate 8 (9 : Nat), by decide +kernel⟩,
    ⟨((link0 5 { lanes := 8 }).lw 0 0 F.SP_L_LANE_C 4).wr (spB 0) F.SP_CFG_AUTO_DEGRADE 1, 0, 0, 0, 0, by decide +kernel⟩,
    ⟨(link0 5 { lanes := 8 }).lw 0 0 F.SP_L_LL_CFG_FEC_THR 4, 0, 0, 4, by decide +kernel⟩⟩

/-- The premises of FramesAcknowledgeAndReplay are met. -/
theorem met_FramesAcknowledgeAndReplay :
    (∃ (s : State), ∃ (k j : Nat), s.hasLink k j = false) ∧
    (∃ (s : State), ∃ (k j : Nat), s.hasLink k j = false) ∧
    (∃ (s : State), ∃ (k j : Nat), s.hasLink k j = false) ∧
    (∃ (s : State), ∃ (k j : Nat), s.hasLink k j = false) ∧
    (∃ (s : State), ∃ (k j : Nat), s.hasLink k j = false) ∧
    (∃ (s : State), ∃ (k j : Nat), s.hasLink k j = false) ∧
    (∃ (s : State), ∃ (k j c : Nat), c = 4 * k + j ∧ s.hasLink k j = true ∧ (s.lst k j ≠ 4 ∧ s.lst k j ≠ 5 ∧ s.lst k j ≠ 6)) ∧
    (∃ (s : State), ∃ (k j c : Nat), c = 4 * k + j ∧ s.hasLink k j = true ∧ (s.lst k j ≠ 4 ∧ s.lst k j ≠ 5 ∧ s.lst k j ≠ 6)) ∧
    (∃ (s : State), ∃ (k j c : Nat), c = 4 * k + j ∧ s.hasLink k j = true ∧ (s.lst k j ≠ 4 ∧ s.lst k j ≠ 5 ∧ s.lst k j ≠ 6)) ∧
    (∃ (s : State), ∃ (k j c : Nat), ∃ (f : Frame), c = 4 * k + j ∧ f.crc.toNat = frameCrc f ∧ s.hasLink k j = true ∧
      f.ftype < 4 ∧ (s.lst k j = 4 ∨ s.lst k j = 6)) ∧
    (∃ (s : State), ∃ (k j c : Nat), ∃ (f : Frame), ∃ (v : State), ∃ (fl : Flit), c = 4 * k + j ∧ f.crc.toNat = frameCrc f ∧
      v = (s.updLk c (fun l => { (l.acked f.ack).credited f.cred with nakSeen := f.nak })).updLk c (fun l => { l with rxSeq := f.fseq % 4096, nak := false }) ∧
      s.hasLink k j = true ∧ s.lst k j = 5 ∧ f.fseq % 4096 = ((s.lk c).rxSeq + 1) % 4096 ∧ (s.lk c).rxSeq < 4096 ∧
      f.fseq < 4096 ∧ (f.nak = false ∨ (s.lk c).nakSeen = true) ∧ s.rxRoom k j f = true ∧ f.ftype = 1 ∧ f.flit = some fl) ∧
    (∃ (s : State), ∃ (k j c : Nat), ∃ (f : Frame), ∃ (v : State), c = 4 * k + j ∧ f.crc.toNat = frameCrc f ∧
      v = (s.updLk c (fun l => { (l.acked f.ack).credited f.cred with nakSeen := f.nak })).updLk c (fun l => { l with rxSeq := f.fseq % 4096, nak := false }) ∧
      s.hasLink k j = true ∧ s.lst k j = 5 ∧ f.fseq % 4096 = ((s.lk c).rxSeq + 1) % 4096 ∧ (s.lk c).rxSeq < 4096 ∧
      f.fseq < 4096 ∧ (f.nak = false ∨ (s.lk c).nakSeen = true) ∧ s.rxRoom k j f = true ∧ f.ftype = 2) ∧
    (∃ (s : State), ∃ (k j c : Nat), ∃ (f : Frame), c = 4 * k + j ∧ s.hasLink k j = true ∧
      (s.lst k j = 4 ∨ s.lst k j = 5 ∨ s.lst k j = 6) ∧ (f.crc.toNat ≠ frameCrc f ∨ 5 ≤ f.ftype)) ∧
    (∃ (s : State), ∃ (k j c : Nat), ∃ (f : Frame), c = 4 * k + j ∧ s.hasLink k j = true ∧
      (s.lst k j = 4 ∨ s.lst k j = 5 ∨ s.lst k j = 6) ∧ (f.crc.toNat ≠ frameCrc f ∨ 5 ≤ f.ftype)) ∧
    (∃ (s : State), ∃ (k j c : Nat), ∃ (f : Frame), c = 4 * k + j ∧ f.crc.toNat = frameCrc f ∧ s.hasLink k j = true ∧
      (s.lst k j = 4 ∨ s.lst k j = 6) ∧ f.ftype = 4) ∧
    (∃ (s : State), ∃ (k j c : Nat), ∃ (f : Frame), ∃ (d : Nat), c = 4 * k + j ∧ f.crc.toNat = frameCrc f ∧
      d = (f.fseq + 4096 - (s.lk c).rxSeq) % 4096 ∧ s.hasLink k j = true ∧ s.lst k j = 5 ∧ (f.ftype = 1 ∨ f.ftype = 2) ∧
      f.nak = false ∧ 1 < d ∧ d < 2048) ∧
    (∃ (s : State), ∃ (k j c : Nat), ∃ (f : Frame), ∃ (d : Nat), c = 4 * k + j ∧ f.crc.toNat = frameCrc f ∧
      d = (f.fseq + 4096 - (s.lk c).rxSeq) % 4096 ∧ s.hasLink k j = true ∧ s.lst k j = 5 ∧ (f.ftype = 1 ∨ f.ftype = 2) ∧
      f.nak = false ∧ 1 < d ∧ d < 2048) ∧
    (∃ (s : State), ∃ (k j c : Nat), ∃ (f : Frame), c = 4 * k + j ∧ f.crc.toNat = frameCrc f ∧ s.hasLink k j = true ∧
      s.lst k j = 5 ∧ j = 0 ∧ f.ftype = 3 ∧ f.nak = false ∧ s.rd (spB k) F.SP_TIME_CFG_ROLE = 1 ∧ f.time = some .dreq) ∧
    (∃ (s : State), ∃ (k j c : Nat), ∃ (f : Frame), ∃ (t1 : Nat) (t4 : Option Nat), c = 4 * k + j ∧ f.crc.toNat = frameCrc f ∧
      s.hasLink k j = true ∧ s.lst k j = 5 ∧ j = 0 ∧ f.ftype = 3 ∧ f.nak = false ∧ s.rd (spB k) F.SP_TIME_CFG_ROLE = 2 ∧
      f.time = some (.sync t1 t4)) ∧
    (∃ (s : State), ∃ (k j c : Nat), ∃ (tm : Option Nat), ∃ (g : Frame), c = 4 * k + j ∧
      g = { ack := (s.lk c).rxSeq, nak := (s.lk c).nak, cred := (s.lk c).cnt } ∧ tm = none ∧ s.hasLink k j = true ∧
      s.lst k j = 5 ∧ (s.lk c).rp = none ∧ (s.lk c).relayQ = [] ∧ s.nextSeg c = none) ∧
    (∃ (s : State), ∃ (k j c : Nat), ∃ (tm : Option Nat), ∃ (g h : Frame), ∃ (x : Nat), c = 4 * k + j ∧
      g = { ack := (s.lk c).rxSeq, nak := (s.lk c).nak, cred := (s.lk c).cnt } ∧ tm = some x ∧
      h = { g with ftype := 3, time := some (.sync x (s.lk c).t4) } ∧ s.hasLink k j = true ∧ s.lst k j = 5 ∧ (s.lk c).rp = none ∧
      (s.lk c).relayQ = [] ∧ j = 0 ∧ s.rd (spB k) F.SP_TIME_CFG_ROLE = 1) ∧
    (∃ (s : State), ∃ (k j c : Nat), ∃ (tm : Option Nat), ∃ (g h : Frame), ∃ (x : Nat), c = 4 * k + j ∧
      g = { ack := (s.lk c).rxSeq, nak := (s.lk c).nak, cred := (s.lk c).cnt } ∧ tm = some x ∧
      h = { g with ftype := 3, time := some .dreq } ∧ s.hasLink k j = true ∧ s.lst k j = 5 ∧ (s.lk c).rp = none ∧
      (s.lk c).relayQ = [] ∧ j = 0 ∧ s.rd (spB k) F.SP_TIME_CFG_ROLE = 2 ∧ (s.lk c).t12.isSome = true) ∧
    (∃ (s : State), ∃ (k j c : Nat), ∃ (ws : List Word), c = 4 * k + j ∧ s.hasLink k j = true ∧ s.lst k j = 5 ∧
      (s.lf k j F.SP_L_CFG_RELAY ≠ 1 ∨ s.relays k j = false ∨ ws.length ≠ 1 ∨ ∀ jn,
      s.joints.find? (fun y => !y.own) = some jn → s.jointWord jn ≠ (ws.headD 0, true))) ∧
    (∃ (s : State), ∃ (k j c : Nat), ∃ (w : Word), ∃ (jn : Joint), ∃ (v : State), c = 4 * k + j ∧
      v = { s.updLk c (fun l => { l with relayQ := l.relayQ ++ [w] }) with joints := s.joints.erase jn } ∧ s.hasLink k j = true ∧
      s.lst k j = 5 ∧ s.lf k j F.SP_L_CFG_RELAY = 1 ∧ s.relays k j = true ∧ s.joints.find? (fun y => !y.own) = some jn ∧
      s.jointWord jn = (w, true) ∧ (s.lk c).rp = none ∧ (s.lk c).replay.length < 256) ∧
    (∃ (s : State), ∃ (k j c : Nat), c = 4 * k + j ∧ s.hasLink k j = true ∧ s.lst k j = 5 ∧ (s.lk c).rp = none ∧
      (s.lk c).replay.length < 256 ∧ (s.lk c).relayQ ≠ []) ∧
    (∃ (s : State), ∃ (k j c : Nat), ∃ (u : State), c = 4 * k + j ∧ s.flitOut c = some u ∧ s.hasLink k j = true ∧ s.lst k j = 5 ∧
      (s.lk c).rp = none ∧ (s.lk c).relayQ = [] ∧ (s.lk c).replay.length < 256) ∧
    (∃ (s : State), ∃ (k j c : Nat), ∃ (i : Nat), ∃ (f g : Frame), c = 4 * k + j ∧
      g = { f with ack := (s.lk c).rxSeq, nak := (s.lk c).nak, cred := (s.lk c).cnt } ∧ s.hasLink k j = true ∧ s.lst k j = 5 ∧
      (s.lk c).rp = some i ∧ (s.lk c).replay[i]? = some f) ∧
    (∃ (s : State), ∃ (k j c : Nat), c = 4 * k + j ∧ s.hasLink k j = true ∧ (s.lst k j = 4 ∨ s.lst k j = 6)) ∧
    (∃ (s : State), ∃ (k j c : Nat), c = 4 * k + j ∧ s.hasLink k j = true ∧ (s.lst k j ≠ 5 ∨ (s.lk c).replay = [])) ∧
    (∃ (s : State), ∃ (k j c : Nat), c = 4 * k + j ∧ s.hasLink k j = true ∧ (s.lst k j ≠ 5 ∨ (s.lk c).replay = [])) ∧
    (∃ (s : State), ∃ (k j c : Nat), c = 4 * k + j ∧ s.hasLink k j = true ∧ s.lst k j = 5 ∧ (s.lk c).replay ≠ [] ∧
      (s.lk c).rrow < max 1 (s.lf k j F.SP_L_LL_CFG_REPLAY_MAX)) ∧
    (∃ (s : State), ∃ (k j c : Nat), c = 4 * k + j ∧ s.hasLink k j = true ∧ s.lst k j = 5 ∧ (s.lk c).replay ≠ [] ∧
      max 1 (s.lf k j F.SP_L_LL_CFG_REPLAY_MAX) ≤ (s.lk c).rrow) :=
  ⟨⟨sending, 0, 1, by decide +kernel⟩,
    ⟨link0 2 {}, 0, 1, by decide +kernel⟩,
    ⟨sending, 0, 1, by decide +kernel⟩,
    ⟨link0 2 {}, 0, 1, by decide +kernel⟩,
    ⟨sending, 0, 1, by decide +kernel⟩,
    ⟨link0 2 {}, 0, 1, by decide +kernel⟩,
    ⟨link0 2 {}, 0, 0, _, rfl, by decide +kernel⟩,
    ⟨link0 2 {}, 0, 0, _, rfl, by decide +kernel⟩,
    ⟨link0 2 {}, 0, 0, _, rfl, by decide +kernel⟩,
    ⟨link0 6 {}, 0, 0, _, signed { ftype := 1, fseq := 1, ack := 7 }, rfl, frameCrc_signed _, by decide +kernel⟩,
    ⟨(link0 5 { rxSeq := 6, rxv := List.replicate 16 {} }).lw 0 0 F.SP_L_CRED_VN 0x04040404, 0, 0, _,
      signed { ftype := 1, fseq := 7, flit := some toInst3 }, _, toInst3, rfl, frameCrc_signed _, rfl, by decide +kernel⟩,
    ⟨(link0 5 { rxSeq := 6, rxv := List.replicate 16 {} }).lw 0 0 F.SP_L_CRED_VN 0x04040404, 0, 0, _,
      signed { ftype := 2, fseq := 7, words := [7] }, _, rfl, frameCrc_signed _, rfl, by decide +kernel⟩,
    ⟨link0 5 spanHeld, 0, 0, _, { ftype := 5 }, rfl, by decide +kernel⟩,
    ⟨link0 4 spanHeld, 0, 0, _, { ftype := 2, crc := 1 }, rfl, by decide +kernel⟩,
    ⟨link0 4 {}, 0, 0, _, signed { ftype := 4, link := some farInfo }, rfl, frameCrc_signed _, by decide +kernel⟩,
    ⟨link0 5 { replay := [{ ftype := 1, fseq := 7 }], txSeq := 8 }, 0, 0, _, signed { ftype := 1, fseq := 1, ack := 7 }, _, rfl,
      frameCrc_signed _, rfl, by decide +kernel⟩,
    ⟨link0 5 {}, 0, 0, _, signed { ftype := 2, fseq := 2046 }, _, rfl, frameCrc_signed _, rfl, by decide +kernel⟩,
    ⟨(link0 5 {}).wr (spB 0) F.SP_TIME_CFG_ROLE 1, 0, 0, _, signed { ftype := 3, time := some .dreq }, rfl, frameCrc_signed _,
      by decide +kernel⟩,
    ⟨(link0 5 { t12 := some (1, 2), t3 := some 3 }).wr (spB 0) F.SP_TIME_CFG_ROLE 2, 0, 0, _,
      signed { ftype := 3, time := some (.sync 8 (some 4)) }, 8, some 4, rfl, frameCrc_signed _, by decide +kernel⟩,
    ⟨link0 5 { rxSeq := 6, nak := true }, 0, 0, _, _, _, rfl, rfl, rfl, by decide +kernel⟩,
    ⟨(link0 5 { rxSeq := 6, t4 := some 5 }).wr (spB 0) F.SP_TIME_CFG_ROLE 1, 0, 0, _, _, _, _, 77, rfl, rfl, rfl, rfl,
      by decide +kernel⟩,
    ⟨(link0 5 { rxSeq := 6, t12 := some (5, 6) }).wr (spB 0) F.SP_TIME_CFG_ROLE 2, 0, 0, _, _, _, _, 77, rfl, rfl, rfl, rfl,
      by decide +kernel⟩,
    ⟨((link0 6 {}).lw 0 0 F.SP_L_STAT_STATE 5), 0, 0, _, [], rfl, by decide +kernel⟩,
    ⟨{ (link0 5 {}).lw 0 0 F.SP_L_CFG_RELAY 1 with joints := [{ op := { rk := 4, hid := 0 }, own := false, waits := [], lost := false, acc := 0 }] },
      0, 0, _,
      (({ (link0 5 {}).lw 0 0 F.SP_L_CFG_RELAY 1 with joints := [{ op := { rk := 4, hid := 0 }, own := false, waits := [], lost := false, acc := 0 }] }).jointWord ({ op := { rk := 4, hid := 0 }, own := false, waits := [], lost := false, acc := 0 })).1,
      { op := { rk := 4, hid := 0 }, own := false, waits := [], lost := false, acc := 0 }, _, rfl, rfl, by decide +kernel⟩,
    ⟨link0 5 { relayQ := [5] }, 0, 0, _, rfl, by decide +kernel⟩,
    ⟨sending, 0, 0, _, (sending.flitOut 0).get (by decide +kernel), rfl, (Option.some_get _).symm, by decide +kernel⟩,
    ⟨link0 5 { replay := [{ ftype := 1, fseq := 7 }, { ftype := 1, fseq := 8 }], txSeq := 8, rp := some 0 }, 0, 0, _, 0,
      { ftype := 1, fseq := 7 }, _, rfl, rfl, by decide +kernel⟩,
    ⟨link0 6 {}, 0, 0, _, rfl, by decide +kernel⟩,
    ⟨sending, 0, 0, _, rfl, by decide +kernel⟩,
    ⟨link0 2 {}, 0, 0, _, rfl, by decide +kernel⟩,
    ⟨(link0 5 { replay := [{ ftype := 1, fseq := 7 }], rrow := 1 }).lw 0 0 F.SP_L_LL_CFG_REPLAY_MAX 2, 0, 0, _, rfl,
      by decide +kernel⟩,
    ⟨(link0 5 { replay := [{ ftype := 1, fseq := 7 }], rrow := 2 }).lw 0 0 F.SP_L_LL_CFG_REPLAY_MAX 2, 0, 0, _, rfl,
      by decide +kernel⟩⟩

/-- The premises of SpanForwardsOrDrops are met. -/
theorem met_SpanForwardsOrDrops :
    (∃ (s : State), ∃ (k : Nat), ∃ (src : Nat) (vc : Nat), (s.hasSpan k = false ∨ 16 ≤ vc ∨ 2 ≤ src ∧
      s.hasLink k (src - 2) = false)) ∧
    (∃ (s : State), ∃ (k : Nat), ∃ (j : Nat) (v : Nat), (s.hasLink k j = false ∨ 16 ≤ v)) ∧
    (∃ (s : State), ∃ (k : Nat), ∃ (j : Nat) (v : Nat), (s.hasLink k j = false ∨ 16 ≤ v)) ∧
    (∃ (s : State), ∃ (k : Nat), ∃ (p : Nat) (vc : Nat) (fl : Flit) (r : List Flit), s.hasSpan k = true ∧ p < 2 ∧ vc < 16 ∧
      (s.port (.span p k)).wire = fl :: r ∧ (s.port (.span p k)).dead = false) ∧
    (∃ (s : State), ∃ (k : Nat), ∃ (p : Nat) (vc : Nat) (fl : Flit) (r : List Flit), s.hasSpan k = true ∧ p < 2 ∧ vc < 16 ∧
      (s.port (.span p k)).wire = fl :: r ∧ (s.port (.span p k)).dead = true) ∧
    (∃ (s : State), ∃ (k : Nat), ∃ (p : Nat), s.hasSpan k = true ∧ p < 2 ∧ (s.port (.span p k)).wire = []) ∧
    (∃ (s : State), ∃ (k : Nat), ∃ (j v : Nat), ∃ (x : VcSt), ∃ (t : TxPkt), s.hasSpan k = true ∧ s.hasLink k j = true ∧ v < 16 ∧
      (s.lk (4 * k + j)).go.getD v none = none ∧ (s.lk (4 * k + j)).rxv[v]? = some x ∧ frontPkt x.buf = some t ∧
      t.hdr.dest / 256 = s.instNum) ∧
    (∃ (s : State), ∃ (k : Nat), ∃ (j v : Nat), ∃ (x : VcSt), ∃ (t : TxPkt), s.hasSpan k = true ∧ s.hasLink k j = true ∧ v < 16 ∧
      (s.lk (4 * k + j)).go.getD v none = none ∧ (s.lk (4 * k + j)).rxv[v]? = some x ∧ frontPkt x.buf = some t ∧
      t.hdr.dest / 256 ≠ s.instNum) ∧
    (∃ (s : State), ∃ (k : Nat), ∃ (j v : Nat), ∃ (x : VcSt), ∃ (t : TxPkt), s.hasSpan k = true ∧ s.hasLink k j = true ∧ v < 16 ∧
      (s.lk (4 * k + j)).go.getD v none = none ∧ (s.lk (4 * k + j)).rxv[v]? = some x ∧ frontPkt x.buf = some t ∧
      t.hdr.dest / 256 ≠ s.instNum ∧ s.fwd k (t.hdr.dest / 256) = none ∧ x.buf ≠ []) ∧
    (∃ (s : State), ∃ (k : Nat), ∃ (j v : Nat), s.hasSpan k = true ∧ s.hasLink k j = true ∧ v < 16 ∧
      ((s.lk (4 * k + j)).go.getD v none ≠ none ∨ ∀ x, (s.lk (4 * k + j)).rxv[v]? = some x → frontPkt x.buf = none)) ∧
    (∃ (s : State), ∃ (k : Nat), ∃ (j v : Nat), ∃ (b : Bool), s.hasSpan k = true ∧ s.hasLink k j = true ∧ v < 16 ∧ (∀ x,
      (if b then (s.lk (4 * k + j)).xbv[v]? else (s.lk (4 * k + j)).rxv[v]?) = some x → x.buf = [])) ∧
    (∃ (s : State), ∃ (k : Nat), ∃ (j v : Nat), ∃ (b : Bool), s.hasSpan k = true ∧ s.hasLink k j = true ∧ v < 16 ∧ (∀ x,
      (if b then (s.lk (4 * k + j)).xbv[v]? else (s.lk (4 * k + j)).rxv[v]?) = some x → x.buf = [])) ∧
    (∃ (s : State), ∃ (k : Nat), ∃ (j v : Nat), ∃ (x : VcSt), s.hasSpan k = true ∧ s.hasLink k j = true ∧ v < 16 ∧
      (s.lk (4 * k + j)).rxv[v]? = some x ∧ x.buf ≠ []) ∧
    (∃ (s : State), ∃ (k : Nat), ∃ (j v : Nat), ∃ (x : VcSt), (∀ t, x.tx = some t → t.next = 0) ∧ s.hasSpan k = true ∧
      s.hasLink k j = true ∧ v < 16 ∧ (s.lk (4 * k + j)).rxv[v]? = some x ∧ x.buf ≠ []) ∧
    (∃ (s : State), ∃ (k : Nat), ∃ (j v : Nat), ∃ (x : VcSt), ∃ (t : TxPkt), s.hasSpan k = true ∧ s.hasLink k j = true ∧ v < 16 ∧
      (s.lk (4 * k + j)).xbv[v]? = some x ∧ x.buf ≠ [] ∧ x.tx = some t) ∧
    (∃ (s : State), ∃ (k : Nat), ∃ (j v : Nat), ∃ (x : VcSt), s.hasSpan k = true ∧ s.hasLink k j = true ∧ v < 16 ∧
      (s.lk (4 * k + j)).xbv[v]? = some x ∧ x.buf ≠ [] ∧ x.tx = none) :=
  ⟨⟨demo.setPort (.span 0 0) { wire := [toInst3] }, 0, 0, 300, by decide +kernel⟩,
    ⟨demo.setPort (.span 0 0) { wire := [toInst3] }, 0, 0, 16, by decide +kernel⟩,
    ⟨link0 5 spanHeld, 0, 0, 300, by decide +kernel⟩,
    ⟨demo.setPort (.span 0 0) { wire := [toInst3] }, 0, 0, 2, toInst3, [], by decide +kernel⟩,
    ⟨demo.setPort (.span 0 0) { wire := [toInst3], dead := true }, 0, 0, 2, toInst3, [], by decide +kernel⟩,
    ⟨demo.setPort (.span 0 0) { wire := [toInst3] }, 0, 1, by decide +kernel⟩,
    ⟨link0 5 { lanes := 8, rxv := List.replicate 2 ({} : VcSt) ++ [({ buf := [{ vc := 2, ft := 3, segb := true, hdr := some { len := 8 } }] } : VcSt)] ++ List.replicate 13 ({} : VcSt) },
      0, 0, 2, { buf := [{ vc := 2, ft := 3, segb := true, hdr := some { len := 8 } }] },
      { hdr := { len := 8 }, f := hdrFlits { len := 8 }, next := 0 }, by decide +kernel⟩,
    ⟨(link0 5 spanHeld).wr (spB 0) (F.SP_FWD_LO.ix 0) 4, 0, 0, 2, { buf := [toInst3] },
      { hdr := hdr3, f := hdrFlits hdr3, next := 0 }, by decide +kernel⟩,
    ⟨(link0 5 spanHeld).wr (spB 0) (F.SP_FWD_LO.ix 0) 4, 0, 0, 2, { buf := [toInst3] },
      { hdr := hdr3, f := hdrFlits hdr3, next := 0 }, by decide +kernel⟩,
    ⟨link0 5 spanHeld, 0, 0, 0, by decide +kernel⟩,
    ⟨link0 5 spanHeld, 0, 0, 2, true, by decide +kernel⟩,
    ⟨demo.setPort (.span 0 0) { wire := [toInst3] }, 0, 0, 0, true, by decide +kernel⟩,
    ⟨link0 5 spanHeld, 0, 0, 2, { buf := [toInst3] }, by decide +kernel⟩,
    ⟨link0 5 spanHeld, 0, 0, 2, { buf := [toInst3] }, (by exact fun t h => (nomatch h)), by decide +kernel⟩,
    ⟨link0 5 { lanes := 8, xbv := vcs3 (some { hdr := hdr3, f := hdrFlits hdr3, next := 0 }) }, 0, 0, 2,
      { buf := [toInst3], tx := some { hdr := hdr3, f := hdrFlits hdr3, next := 0 } },
      { hdr := hdr3, f := hdrFlits hdr3, next := 0 }, by decide +kernel⟩,
    ⟨link0 5 { lanes := 8, xbv := vcs3 none }, 0, 0, 2, { buf := [toInst3] }, by decide +kernel⟩⟩

/-! ### Chapter 16 of the statements -/

/-- The instance with its debug unit in reach: FUSE_DIS 0. -/
def dbgOn : State := demo.wr dbgB F.DBG_STAT_FUSE_DIS 0

/-- The instance with its debug unit closed. -/
def dbgOff : State := demo.wr dbgB F.DBG_STAT_FUSE_DIS 1

/-- Trace capture armed to start by `m`, with pin 0 claimed for it. -/
def armed (m : Nat) : State := (((dbgOn.wr dbgB F.DBG_TRC_CTL_EN 1).wr dbgB F.DBG_TRC_CTL_START m).wr dbgB F.DBG_TRC_T_LO_T 500).setPin 0 4 0

/-- The premises of TestAccessPortShifts are met. -/
theorem met_TestAccessPortShifts :
    (∃ (s : State), s.dbgDis = false) ∧
    (∃ (s : State), s.dbgDis = true) :=
  ⟨⟨{ dbgOn with tap := { rp := 4095 } }, by decide +kernel⟩,
    ⟨dbgOff, by decide +kernel⟩⟩

/-- The premises of DebugCommandsAndTrace are met. -/
theorem met_DebugCommandsAndTrace :
    (∃ (s : State), ∃ (x : Nat), ∃ (c : Cmd), s.dbgDis = true ∧ s.Issued x 0xF0 [] c) ∧
    (∃ (s : State), ∃ (x : Nat), ∃ (c : Cmd), s.dbgDis = true ∧ s.Issued x 0xF1 [] c) ∧
    (∃ (s : State), ∃ (x : Nat), ∃ (c : Cmd), s.dbgDis = true ∧ s.Issued x 0xF2 [] c) ∧
    (∃ (s : State), ∃ (x : Nat), ∃ (c : Cmd), s.dbgDis = true ∧ s.Issued x 0xF3 [(0, 2)] c) ∧
    (∃ (s : State), ∃ (x : Nat), ∃ (c : Cmd), s.dbgDis = true ∧ s.Issued x 0xF4 [] c) ∧
    (∃ (s : State), ∃ (x : Nat), ∃ (c : Cmd), s.dbgDis = false ∧ s.Issued x 0xF0 [] c) ∧
    (∃ (s : State), ∃ (x : Nat), ∃ (c : Cmd), s.dbgDis = false ∧ s.Issued x 0xF1 [] c ∧ s.flag dbgB F.DBG_TRC_CTL_EN = false ∧
      (s.rd dbgB F.DBG_TRC_CTL_START = 2 → s.pinFree (s.rd dbgB F.DBG_TRC_CTL_PIN) 4 0 = true)) ∧
    (∃ (s : State), ∃ (x : Nat), ∃ (c : Cmd), s.dbgDis = false ∧ s.Issued x 0xF1 [] c ∧ s.flag dbgB F.DBG_TRC_CTL_EN = false ∧
      (s.rd dbgB F.DBG_TRC_CTL_START = 2 → s.pinFree (s.rd dbgB F.DBG_TRC_CTL_PIN) 4 0 = true)) ∧
    (∃ (s : State), ∃ (x : Nat), ∃ (c : Cmd), s.dbgDis = false ∧ s.Issued x 0xF1 [] c ∧ s.flag dbgB F.DBG_TRC_CTL_EN = false ∧
      (s.rd dbgB F.DBG_TRC_CTL_START = 2 → s.pinFree (s.rd dbgB F.DBG_TRC_CTL_PIN) 4 0 = true)) ∧
    (∃ (s : State), ∃ (x : Nat), ∃ (c : Cmd), s.dbgDis = false ∧ s.Issued x 0xF1 [] c ∧ s.flag dbgB F.DBG_TRC_CTL_EN = false ∧
      s.rd dbgB F.DBG_TRC_CTL_START = 2 ∧ s.pinFree (s.rd dbgB F.DBG_TRC_CTL_PIN) 4 0 = false) ∧
    (∃ (s : State), ∃ (x : Nat), ∃ (c : Cmd), s.dbgDis = false ∧ s.Issued x 0xF1 [] c ∧ s.flag dbgB F.DBG_TRC_CTL_EN = true) ∧
    (∃ (s : State), ∃ (x : Nat), ∃ (c : Cmd), s.dbgDis = false ∧ s.Issued x 0xF3 [(0, 2)] c ∧ (c.p 0 2 = 1 ∨ c.p 0 2 = 2) ∧
      s.rd dbgB F.DBG_STAT_TEST ≠ 0) ∧
    (∃ (s : State), ∃ (x : Nat), ∃ (c : Cmd), s.dbgDis = false ∧ s.Issued x 0xF3 [(0, 2)] c ∧ c.p 0 2 = 2 ∧
      s.rd dbgB F.DBG_STAT_TEST = 0) ∧
    (∃ (s : State), ∃ (x : Nat), ∃ (c : Cmd), s.dbgDis = false ∧ s.Issued x 0xF3 [(0, 2)] c ∧ (c.p 0 2 = 0 ∨ c.p 0 2 = 3)) ∧
    (∃ (s : State), ∃ (x : Nat), ∃ (c : Cmd), s.dbgDis = false ∧ s.Issued x 0xF4 [] c ∧ s.rd dbgB F.DBG_STAT_TEST = 0) ∧
    (∃ (s : State), ∃ (x : Nat), ∃ (c : Cmd), s.dbgDis = false ∧ s.Issued x 0xF4 [] c ∧ s.rd dbgB F.DBG_STAT_TEST = 2) ∧
    (∃ (s : State), ∃ (x : Nat), ∃ (c : Cmd), s.dbgDis = false ∧ s.Issued x 0xF2 [] c) ∧
    (∃ (s : State), ∃ (x : Nat), ∃ (c : Cmd), s.dbgDis = false ∧ s.Issued x 0xF3 [(0, 2)] c ∧ c.p 0 2 = 1 ∧
      s.rd dbgB F.DBG_STAT_TEST = 0) ∧
    (∃ (s : State), ∃ (x : Nat), ∃ (c : Cmd), s.dbgDis = false ∧ s.Issued x 0xF4 [] c ∧ s.rd dbgB F.DBG_STAT_TEST = 1) ∧
    (∃ (s : State), ∃ (t : Stamp),
      (s.flag dbgB F.DBG_TRC_CTL_EN = false ∨ s.trcRun = true ∨ s.flag dbgB F.DBG_TRC_PTR_FULL = true ∧
      s.flag dbgB F.DBG_TRC_CTL_WRAP = false ∨ s.rd dbgB F.DBG_TRC_CTL_START = 0 ∨ s.rd dbgB F.DBG_TRC_CTL_START = 3 ∨ s.rd dbgB F.DBG_TRC_CTL_START = 1 ∧
      stampDiff t (BitVec.ofNat 64 (s.rd64 dbgB F.DBG_TRC_T_LO_T F.DBG_TRC_T_HI_T)) < 0 ∨ s.rd dbgB F.DBG_TRC_CTL_START = 2 ∧
      s.pinOwner (s.rd dbgB F.DBG_TRC_CTL_PIN) ≠ 4)) ∧
    (∃ (s : State), ∃ (t : Stamp), s.flag dbgB F.DBG_TRC_CTL_EN = true ∧ s.trcRun = false ∧
      (s.flag dbgB F.DBG_TRC_PTR_FULL = false ∨ s.flag dbgB F.DBG_TRC_CTL_WRAP = true) ∧ s.rd dbgB F.DBG_TRC_CTL_START = 1 ∧
      0 ≤ stampDiff t (BitVec.ofNat 64 (s.rd64 dbgB F.DBG_TRC_T_LO_T F.DBG_TRC_T_HI_T))) ∧
    (∃ (s : State), ∃ (t : Stamp), s.flag dbgB F.DBG_TRC_CTL_EN = true ∧ s.trcRun = false ∧
      (s.flag dbgB F.DBG_TRC_PTR_FULL = false ∨ s.flag dbgB F.DBG_TRC_CTL_WRAP = true) ∧ s.rd dbgB F.DBG_TRC_CTL_START = 1 ∧
      0 ≤ stampDiff t (BitVec.ofNat 64 (s.rd64 dbgB F.DBG_TRC_T_LO_T F.DBG_TRC_T_HI_T))) ∧
    (∃ (s : State), ∃ (t : Stamp), s.flag dbgB F.DBG_TRC_CTL_EN = true ∧ s.trcRun = false ∧
      (s.flag dbgB F.DBG_TRC_PTR_FULL = false ∨ s.flag dbgB F.DBG_TRC_CTL_WRAP = true) ∧ s.rd dbgB F.DBG_TRC_CTL_START = 1 ∧
      0 ≤ stampDiff t (BitVec.ofNat 64 (s.rd64 dbgB F.DBG_TRC_T_LO_T F.DBG_TRC_T_HI_T))) ∧
    (∃ (s : State), ∃ (rise : Bool), rise = !s.flag dbgB F.DBG_TRC_CTL_EDGE ∧ s.flag dbgB F.DBG_TRC_CTL_EN = true ∧
      s.trcRun = false ∧ (s.flag dbgB F.DBG_TRC_PTR_FULL = false ∨ s.flag dbgB F.DBG_TRC_CTL_WRAP = true) ∧
      s.rd dbgB F.DBG_TRC_CTL_START = 2 ∧ s.pinOwner (s.rd dbgB F.DBG_TRC_CTL_PIN) = 4) ∧
    (∃ (s : State), ∃ (rise : Bool), rise = !s.flag dbgB F.DBG_TRC_CTL_EDGE ∧ s.flag dbgB F.DBG_TRC_CTL_EN = true ∧
      s.trcRun = false ∧ (s.flag dbgB F.DBG_TRC_PTR_FULL = false ∨ s.flag dbgB F.DBG_TRC_CTL_WRAP = true) ∧
      s.rd dbgB F.DBG_TRC_CTL_START = 2 ∧ s.pinOwner (s.rd dbgB F.DBG_TRC_CTL_PIN) = 4) ∧
    (∃ (s : State), ∃ (rise : Bool), rise = !s.flag dbgB F.DBG_TRC_CTL_EDGE ∧ s.flag dbgB F.DBG_TRC_CTL_EN = true ∧
      s.trcRun = false ∧ (s.flag dbgB F.DBG_TRC_PTR_FULL = false ∨ s.flag dbgB F.DBG_TRC_CTL_WRAP = true) ∧
      s.rd dbgB F.DBG_TRC_CTL_START = 2 ∧ s.pinOwner (s.rd dbgB F.DBG_TRC_CTL_PIN) = 4) ∧
    (∃ (s : State), ∃ (rise : Bool), rise = s.flag dbgB F.DBG_TRC_CTL_EDGE ∧ s.flag dbgB F.DBG_TRC_CTL_EN = true ∧
      s.trcRun = false ∧ (s.flag dbgB F.DBG_TRC_PTR_FULL = false ∨ s.flag dbgB F.DBG_TRC_CTL_WRAP = true) ∧
      s.rd dbgB F.DBG_TRC_CTL_START = 2 ∧ s.pinOwner (s.rd dbgB F.DBG_TRC_CTL_PIN) = 4) ∧
    (∃ (s : State), (s.rd dbgB F.DBG_STAT_TEST ≠ 2 ∨ s.flag dbgB F.DBG_STAT_BIST_DONE = true)) ∧
    (∃ (s : State), s.rd dbgB F.DBG_STAT_TEST = 2 ∧ s.flag dbgB F.DBG_STAT_BIST_DONE = false) ∧
    (∃ (s : State), s.rd dbgB F.DBG_STAT_TEST = 2 ∧ s.flag dbgB F.DBG_STAT_BIST_DONE = false) :=
  ⟨⟨on (cmd 0xF0 []) dbgOff, 1, cmd 0xF0 [], by decide +kernel⟩,
    ⟨on (cmd 0xF1 []) dbgOff, 1, cmd 0xF1 [], by decide +kernel⟩,
    ⟨on (cmd 0xF2 []) dbgOff, 1, cmd 0xF2 [], by decide +kernel⟩,
    ⟨on (cmd 0xF3 [1]) dbgOff, 1, cmd 0xF3 [1], by decide +kernel⟩,
    ⟨on (cmd 0xF4 []) dbgOff, 1, cmd 0xF4 [], by decide +kernel⟩,
    ⟨on (cmd 0xF0 []) dbgOn, 1, cmd 0xF0 [], by decide +kernel⟩,
    ⟨on (cmd 0xF1 []) (dbgOn.wr dbgB F.DBG_TRC_CTL_START 1), 1, cmd 0xF1 [], by decide +kernel⟩,
    ⟨on (cmd 0xF1 []) (dbgOn.wr dbgB F.DBG_TRC_CTL_START 2), 1, cmd 0xF1 [], by decide +kernel⟩,
    ⟨on (cmd 0xF1 []) (dbgOn.wr dbgB F.DBG_TRC_CTL_START 0), 1, cmd 0xF1 [], by decide +kernel⟩,
    ⟨on (cmd 0xF1 []) ((dbgOn.wr dbgB F.DBG_TRC_CTL_START 2).setPin 0 1 0), 1, cmd 0xF1 [], by decide +kernel⟩,
    ⟨on (cmd 0xF1 []) (armed 2), 1, cmd 0xF1 [], by decide +kernel⟩,
    ⟨on (cmd 0xF3 [2]) (dbgOn.wr dbgB F.DBG_STAT_TEST 1), 1, cmd 0xF3 [2], by decide +kernel⟩,
    ⟨on (cmd 0xF3 [2]) dbgOn, 1, cmd 0xF3 [2], by decide +kernel⟩,
    ⟨on (cmd 0xF3 [0]) (demo), 1, cmd 0xF3 [0], by decide +kernel⟩,
    ⟨(((on (cmd 0xF4 []) (dbgOn.wr dbgB F.DBG_STAT_TEST 2)).wr dbgB F.DBG_STAT_FUSE_DIS 0).wr dbgB F.DBG_STAT_TEST 0), 1,
      cmd 0xF4 [], by decide +kernel⟩,
    ⟨on (cmd 0xF4 []) (dbgOn.wr dbgB F.DBG_STAT_TEST 2), 1, cmd 0xF4 [], by decide +kernel⟩,
    ⟨on (cmd 0xF2 []) { armed 2 with trcRun := true }, 1, cmd 0xF2 [], by decide +kernel⟩,
    ⟨on (cmd 0xF3 [1]) dbgOn, 1, cmd 0xF3 [1], by decide +kernel⟩,
    ⟨on (cmd 0xF4 []) (dbgOn.wr dbgB F.DBG_STAT_TEST 1), 1, cmd 0xF4 [], by decide +kernel⟩,
    ⟨on (cmd 0xF1 []) (dbgOn.wr dbgB F.DBG_TRC_CTL_START 1), 0, by decide +kernel⟩,
    ⟨armed 1, 500, by decide +kernel⟩,
    ⟨(((armed 2).wr dbgB F.DBG_TRC_CTL_EN 1).wr dbgB F.DBG_TRC_CTL_START 1), 500, by decide +kernel⟩,
    ⟨((((((armed 1).wr dbgB F.DBG_TRC_CTL_EN 1).wr dbgB F.DBG_TRC_CTL_START 2)).wr dbgB F.DBG_TRC_CTL_EN 1).wr dbgB F.DBG_TRC_CTL_START 1),
      500, by decide +kernel⟩,
    ⟨armed 2, _, rfl, by decide +kernel⟩,
    ⟨(((armed 1).wr dbgB F.DBG_TRC_CTL_EN 1).wr dbgB F.DBG_TRC_CTL_START 2), _, rfl, by decide +kernel⟩,
    ⟨((((((armed 2).wr dbgB F.DBG_TRC_CTL_EN 1).wr dbgB F.DBG_TRC_CTL_START 1)).wr dbgB F.DBG_TRC_CTL_EN 1).wr dbgB F.DBG_TRC_CTL_START 2),
      _, rfl, by decide +kernel⟩,
    ⟨armed 2, _, rfl, by decide +kernel⟩,
    ⟨on (cmd 0xF3 [2]) dbgOn, by decide +kernel⟩,
    ⟨demo.wr dbgB F.DBG_STAT_TEST 2, by decide +kernel⟩,
    ⟨demo.wr dbgB F.DBG_STAT_TEST 2, by decide +kernel⟩⟩

/-! ### Chapter 17 of the statements -/

/-- A 4-byte read of GLB.ID by master `m`, under serial number `ser`. -/
def acc (ser m : Nat) : Csa := { ser := ser, m := m, req := { addr := 0, wr := false, size := 2 }, tgt := 0 }

/-- The instance with its reset-time CMX holding the accesses `l`. -/
def accs (l : List Csa) (s : State) : State := s.updCmx (fun c => { c with acs := l, next := 5 })

/-- No NI of the small instance queues a MGMT access. -/
theorem demo_mgmt (f : Cmx → Cmx) (n : Nat) : ((demo.updCmx f).ni n).mgmtIn = [] := by
  have e : (demo.updCmx f).nis = [(0, demoNi), (1, demoNi)] := rfl
  unfold State.ni
  rw [e]
  unfold mget
  split
  · rfl
  · unfold mget
    split <;> rfl

/-- A MGMT packet of operation `op` from node 1 to `addr`. -/
def mgmt (op addr : Nat) : Pk := { hdr := { ptype := 8, op := op, src := 1, dest := 0, len := 4, addr := addr, tag := 1 }, plane := 0, vc := 12, got := List.replicate 4 1 }

/-- NI 0 holds it. -/
def mgmtAt (op addr : Nat) : State := ni0 { demoNi with inbox := [7], pks := [(7, some (mgmt op addr))], probes := [(0, 1, 0)] }
/-- The demo instance with the debug port open. -/
def tapOn : State := (demo.wr dbgB F.DBG_STAT_FUSE_DIS 0).wr dbgB F.DBG_STAT_TAP_ACC 1

/-- The premises of HostPortAcceptsAndResets are met. -/
theorem met_HostPortAcceptsAndResets :
    (∃ (s : State), s.hcReady = false) ∧
    (∃ (s : State), ∃ (q : CsrReq), ∃ (u : Un), (∀ n, (s.ni n).mgmtIn = []) ∧ s.hcReady = true ∧ s.entry? 0 q = .ok u ∧
      (∀ a ∈ s.cmx.acs, a.rsp = none)) ∧
    (∃ (s : State), s.hcReady = true) ∧
    (∃ (s : State), ∃ (q : CsrReq), ∃ (c : Nat), (∀ n, (s.ni n).mgmtIn = []) ∧ s.hcReady = true ∧ s.entry? 0 q = .error c ∧
      s.cmx.acs = []) ∧
    (∃ (s : State), (∀ n, (s.ni n).mgmtIn = []) ∧ s.cmx.acs = []) ∧
    (∃ (s : State), ∃ (b : State), b = s.ownerReset 0) ∧
    (∃ (s : State), ∃ (b : State), ∃ (k : Nat) (o : Nat × Nat), b = s.ownerReset 0 ∧ b.lockOf k = some o ∧ o.1 = 0) ∧
    (∃ (s : State), ∃ (b : State), ∃ (a : Csa), b = s.ownerReset 0 ∧ a ∈ b.cmx.acs ∧ a.m = 0) :=
  ⟨⟨demo.updCmx (fun c => { c with hcLow := true }), by decide +kernel⟩,
    ⟨demo.updCmx (fun c => { c with hcLow := false }), { addr := 4, wr := true, size := 2, data := 0x700000000 },
      { kind := .glb, base := 0, target := 0 }, demo_mgmt _, by decide +kernel⟩,
    ⟨demo.updCmx (fun c => { c with hcLow := false }), by decide +kernel⟩,
    ⟨demo.updCmx (fun c => { c with hcLow := false }), { addr := 0x200000, wr := false, size := 2 }, 5, demo_mgmt _,
      by decide +kernel⟩,
    ⟨demo.updCmx (fun c => { c with hcLow := false }), demo_mgmt _, by decide +kernel⟩,
    ⟨demo.updCmx (fun c => { c with hcLow := true }), _, rfl⟩,
    ⟨accs [{ acc 3 0 with gr := some 0 }] (demo.updCmx (fun c => { c with locks := [(0, some (0, 5))] })), _, 0, (0, 5), rfl,
      by decide +kernel⟩,
    ⟨accs [acc 3 0] demo, _, { acc 3 0 with mute := true }, rfl, by decide +kernel⟩⟩

/-- The premises of ControlMatrixGrantsAndServes are met. -/
theorem met_ControlMatrixGrantsAndServes :
    (∃ (s : State), ∃ (t : Nat), ∃ (a : Csa), (s.cmx.acs.any (fun a => a.tgt == t && a.working) = true ∨ s.cmxWinner t = none)) ∧
    (∃ (s : State), ∃ (t m : Nat), ∃ (a : Csa), s.cmx.acs.any (fun a => a.tgt == t && a.working) = false ∧
      s.cmxWinner t = some m ∧ s.cmx.acs.find? (fun a => a.m == m && a.tgt == t && a.asks) = some a) ∧
    (∃ (s : State), ∃ (t m : Nat), ∃ (a : Csa), s.cmx.acs.any (fun a => a.tgt == t && a.working) = false ∧
      s.cmxWinner t = some m ∧ s.cmx.acs.find? (fun a => a.m == m && a.tgt == t && a.asks) = some a) ∧
    (∃ (s : State), ∃ (x : Nat), ∃ (a : Csa), s.cmx.acs.find? (fun a => a.ser == x && a.gr.isSome && a.rsp.isNone) = none) ∧
    (∃ (s : State), ∃ (x : Nat), ∃ (a : Csa), ∃ (c : Nat),
      s.cmx.acs.find? (fun a => a.ser == x && a.gr.isSome && a.rsp.isNone) = some a ∧ s.entry? a.m a.req = .error c) ∧
    (∃ (s : State), ∃ (x : Nat), ∃ (a : Csa), ∃ (u : Un) (r : State × BitVec 64 × Nat) (v : State), r = s.served a.m u a.req ∧
      v = r.1.updCmx (fun c => { c with acs := c.acs.map (fun b => if b.ser = x ∧ b.rsp.isNone = true then { b with rsp := some (r.2.1, r.2.2, s.cmx.brk.contains a.tgt) } else b) }) ∧
      s.cmx.acs.find? (fun a => a.ser == x && a.gr.isSome && a.rsp.isNone) = some a ∧ a.late = false ∧
      s.entry? a.m a.req = .ok u) ∧
    (∃ (s : State), ∃ (x : Nat), ∃ (a : Csa), ∃ (u : Un) (r : State × BitVec 64 × Nat) (v : State), r = s.served a.m u a.req ∧
      v = r.1.updCmx (fun c => { c with acs := c.acs.map (fun b => if b.ser = x ∧ b.rsp.isNone = true then { b with rsp := some (r.2.1, r.2.2, s.cmx.brk.contains a.tgt) } else b) }) ∧
      s.cmx.acs.find? (fun a => a.ser == x && a.gr.isSome && a.rsp.isNone) = some a ∧ a.late = false ∧
      s.entry? a.m a.req = .ok u ∧ (∀ e ∈ v.cmx.owed, e.1 ≠ a.tgt)) ∧
    (∃ (s : State), ∃ (x : Nat), ∃ (a : Csa), ∃ (u : Un),
      s.cmx.acs.find? (fun a => a.ser == x && a.gr.isSome && a.rsp.isNone) = some a ∧ a.late = true ∧
      s.entry? a.m a.req = .ok u) ∧
    (∃ (s : State), ∃ (x : Nat), ∃ (a : Csa), s.cmx.acs.find? (fun a => a.ser == x && a.working) = none) ∧
    (∃ (s : State), ∃ (x : Nat), ∃ (a : Csa), s.cmx.acs.find? (fun a => a.ser == x && a.working) = some a) ∧
    (∃ (s : State), ∃ (t : Nat), s.lockOf t = none) ∧
    (∃ (s : State), ∃ (t m x : Nat), ∃ (a : Csa), s.lockOf t = some (m, x) ∧
      s.cmx.acs.any (fun a => a.m == m && a.tgt == t && a.working) = true) ∧
    (∃ (s : State), ∃ (t m x : Nat), ∃ (a : Csa), s.cmx.acs.any (fun a => a.m == m && a.tgt == t && a.working) = false ∧
      s.lockOf t = some (m, x)) ∧
    (∃ (s : State), ∃ (m : Nat), ∃ (a : Csa), ∃ (q : CsrReq) (u : Un), s.mayPresent m = true ∧
      s.entry? m { q with wr := true } = .ok u ∧ (∀ b ∈ s.cmx.acs, b.ser ≠ s.cmx.next) ∧
      (s.cmx.acs.any (fun a => a.tgt == u.target && a.working) = true ∨ s.mayUse m u.target = false ∧ (∀ b ∈ s.cmx.acs,
      b.tgt ≠ u.target))) ∧
    (∃ (s : State), ∃ (m : Nat), s.mayPresent m = false) :=
  ⟨⟨accs [{ acc 3 0 with gr := some 0 }] demo, 0, { acc 3 0 with gr := some 0 }, by decide +kernel⟩,
    ⟨accs [acc 3 0, acc 4 2] demo, 0, 0, acc 3 0, by decide +kernel⟩,
    ⟨accs [{ acc 3 0 with req := { addr := 0, wr := false, size := 2, lock := true } }] demo, 0, 0,
      { acc 3 0 with req := { addr := 0, wr := false, size := 2, lock := true } }, by decide +kernel⟩,
    ⟨accs [{ acc 3 0 with gr := some 0 }] demo, 0, { acc 3 0 with gr := some 0 }, by decide +kernel⟩,
    ⟨accs [{ acc 3 0 with gr := some 0, req := { addr := 0x200000, wr := false, size := 2 } }] demo, 3,
      { acc 3 0 with gr := some 0, req := { addr := 0x200000, wr := false, size := 2 } }, 5, by decide +kernel⟩,
    ⟨accs [{ acc 3 0 with gr := some 0 }] demo, 3, { acc 3 0 with gr := some 0 }, { kind := .glb, base := 0, target := 0 }, _, _,
      rfl, rfl, by decide +kernel⟩,
    ⟨accs [{ acc 3 0 with gr := some 0 }] demo, 3, { acc 3 0 with gr := some 0 }, { kind := .glb, base := 0, target := 0 }, _, _,
      rfl, rfl, by decide +kernel⟩,
    ⟨accs [{ acc 3 0 with gr := some 0, late := true }] demo, 3, { acc 3 0 with gr := some 0, late := true },
      { kind := .glb, base := 0, target := 0 }, by decide +kernel⟩,
    ⟨accs [{ acc 3 0 with gr := some 0 }] demo, 0, { acc 3 0 with gr := some 0 }, by decide +kernel⟩,
    ⟨accs [{ acc 3 0 with gr := some 0 }] demo, 3, { acc 3 0 with gr := some 0 }, by decide +kernel⟩,
    ⟨accs [{ acc 3 0 with gr := some 0 }] demo, 0, by decide +kernel⟩,
    ⟨accs [{ acc 3 0 with gr := some 0 }] (demo.updCmx (fun c => { c with locks := [(0, some (0, 5))] })), 0,
      (((accs [{ acc 3 0 with gr := some 0 }] (demo.updCmx (fun c => { c with locks := [(0, some (0, 5))] }))).lockOf 0).getD (0,
      0)).1,
      (((accs [{ acc 3 0 with gr := some 0 }] (demo.updCmx (fun c => { c with locks := [(0, some (0, 5))] }))).lockOf 0).getD (0,
      0)).2, { acc 3 0 with gr := some 0 }, by decide +kernel⟩,
    ⟨accs [acc 3 0] (demo.setLock 0 (some (2, 9))), 0, (((accs [acc 3 0] (demo.setLock 0 (some (2, 9)))).lockOf 0).getD (0,
      0)).1, (((accs [acc 3 0] (demo.setLock 0 (some (2, 9)))).lockOf 0).getD (0, 0)).2, acc 3 0, by decide +kernel⟩,
    ⟨accs [{ acc 3 0 with gr := some 0 }] demo, 0, { acc 3 0 with gr := some 0 }, { addr := 0, wr := false, size := 2 },
      { kind := .glb, base := 0, target := 0 }, by decide +kernel⟩,
    ⟨accs [{ acc 3 0 with gr := some 0 }] demo, 9, by decide +kernel⟩⟩

/-- The premises of PhaseWinnerHasHighestLevel are met. -/
theorem met_PhaseWinnerHasHighestLevel :
    (∃ (s : State), ∃ (t m : Nat), s.cmxWinner t = some m) ∧
    (∃ (s : State), ∃ (t m : Nat), ∃ (k : Nat), s.cmxWinner t = some m ∧ k ∈ s.cmxRot t ∧ s.mayUse k t = true ∧ (∃ a ∈ s.cmx.acs,
      a.m = k ∧ a.tgt = t ∧ a.asks = true)) ∧
    (∃ (s : State), ∃ (t m : Nat), ∃ (k : Nat), s.cmxWinner t = some m ∧ k ∈ s.cmxRot t ∧ s.mayUse k t = true ∧ (∃ a ∈ s.cmx.acs,
      a.m = k ∧ a.tgt = t ∧ a.asks = true) ∧ s.cmxLevel k t = s.cmxLevel m t) :=
  ⟨⟨accs [acc 3 2, acc 4 0] demo, 0, 0, by decide +kernel⟩,
    ⟨accs [acc 3 2, acc 4 0] demo, 0, 0, 2, by decide +kernel⟩,
    ⟨accs [acc 3 2, acc 4 2] demo, 0, 2, 2, by decide +kernel⟩⟩

/-- The premises of ManagementAndDebugAccess are met. -/
theorem met_ManagementAndDebugAccess :
    (∃ (s : State), ∃ (n : Nat), s.hasNi n = false) ∧
    (∃ (s : State), ∃ (n : Nat), s.hasNi n = true ∧ s.mgmtPk n (fun op => decide (op ≤ 1)) = none) ∧
    (∃ (s : State), ∃ (n : Nat), s.hasNi n = true ∧ s.mgmtPk n (fun op => op == 2) = none) ∧
    (∃ (s v : State), ∃ (n k : Nat), ∃ (p : Pk), v = s.unbox n k ∧ s.hasNi n = true ∧ s.mgmtPk n (fun op => op == 2) = some (k,
      p) ∧ (∀ r ∈ (v.ni n).probes, r.1 ≠ p.plane ∨ r.2.1 ≠ p.hdr.tag ∨ r.2.2 ≠ 0)) ∧
    (∃ (s v : State), ∃ (n k : Nat), ∃ (p : Pk), v = s.unbox n k ∧ s.hasNi n = true ∧
      s.mgmtPk n (fun op => decide (op ≤ 1)) = some (k, p) ∧ v.plnState p.plane ≠ 3 ∧ (v.ni n).mgmtIn = [] ∧ v.cmx.acs = [] ∧
      p.hdr.op = 1 ∧ v.mgmtAuth p.hdr.src = false) ∧
    (∃ (s v : State), ∃ (n k : Nat), ∃ (p : Pk), v = s.unbox n k ∧ (p.hdr.op = 1 → v.mgmtAuth p.hdr.src = true) ∧
      s.hasNi n = true ∧ s.mgmtPk n (fun op => decide (op ≤ 1)) = some (k, p) ∧ v.plnState p.plane ≠ 3 ∧ (v.ni n).mgmtIn = [] ∧
      v.cmx.acs = [] ∧ niB n ≤ p.hdr.addr ∧ p.hdr.addr < niB n + 0x4000) ∧
    (∃ (s v : State), ∃ (n k : Nat), ∃ (p : Pk), v = s.unbox n k ∧ (p.hdr.op = 1 → v.mgmtAuth p.hdr.src = true) ∧
      s.hasNi n = true ∧ s.mgmtPk n (fun op => decide (op ≤ 1)) = some (k, p) ∧ v.plnState p.plane ≠ 3 ∧ (v.ni n).mgmtIn = [] ∧
      v.cmx.acs = [] ∧ niB n ≤ p.hdr.addr ∧ p.hdr.addr < niB n + 0x4000) ∧
    (∃ (s v : State), ∃ (n k : Nat), ∃ (p : Pk), v = s.unbox n k ∧ (p.hdr.op = 1 → v.mgmtAuth p.hdr.src = true) ∧
      s.hasNi n = true ∧ s.mgmtPk n (fun op => decide (op ≤ 1)) = some (k, p) ∧ v.plnState p.plane ≠ 3 ∧ (v.ni n).mgmtIn = [] ∧
      v.cmx.acs = [] ∧ (p.hdr.addr < niB n ∨ niB n + 0x4000 ≤ p.hdr.addr)) ∧
    (∃ (s v : State), ∃ (n k : Nat), ∃ (p : Pk), v = s.unbox n k ∧ (p.hdr.op = 1 → v.mgmtAuth p.hdr.src = true) ∧
      s.hasNi n = true ∧ s.mgmtPk n (fun op => decide (op ≤ 1)) = some (k, p) ∧ v.plnState p.plane ≠ 3 ∧ (v.ni n).mgmtIn = [] ∧
      v.cmx.acs = [] ∧ (p.hdr.addr < niB n ∨ niB n + 0x4000 ≤ p.hdr.addr)) ∧
    (∃ (s v : State), ∃ (n k : Nat), ∃ (p : Pk), ∃ (i : Nat), v = s.unbox n k ∧
      i = (v.ni n).probes.findIdx (fun r => r.1 == p.plane && r.2.1 == p.hdr.tag && r.2.2 == 0) ∧ s.hasNi n = true ∧
      s.mgmtPk n (fun op => op == 2) = some (k, p) ∧ i < (v.ni n).probes.length) ∧
    (∃ (s : State), s.dbgDis = true) ∧
    (∃ (s : State), ∃ (w : BitVec 96), ∃ (last : CsrRsp), s.dbgDis = false ∧ bitAt w.toNat 28 = false ∧
      s.cmx.dbgOut.getLast? = some last) ∧
    (∃ (s : State), ∃ (w : BitVec 96), ∃ (q : CsrReq),
      q = { addr := bitsAt w.toNat 0 24, size := bitsAt w.toNat 24 2, wr := bitAt w.toNat 26, lock := bitAt w.toNat 27, data := BitVec.ofNat 64 (w.toNat / 2 ^ 32) } ∧
      s.dbgDis = false ∧ bitAt w.toNat 28 = true ∧ s.dbgBusy = false ∧ s.flag dbgB F.DBG_STAT_TAP_ACC = true ∧
      s.rgState s.rom.homeRegion = 0) ∧
    (∃ (s : State), ∃ (w : BitVec 96), ∃ (q : CsrReq),
      q = { addr := bitsAt w.toNat 0 24, size := bitsAt w.toNat 24 2, wr := bitAt w.toNat 26, lock := bitAt w.toNat 27, data := BitVec.ofNat 64 (w.toNat / 2 ^ 32) } ∧
      s.dbgDis = false ∧ bitAt w.toNat 28 = true ∧ s.dbgBusy = false ∧ s.flag dbgB F.DBG_STAT_TAP_ACC = true ∧
      2 ≤ s.rgState s.rom.homeRegion ∧ s.rgState s.rom.homeRegion ≤ 4) ∧
    (∃ (s : State), ∃ (w : BitVec 96), ∃ (last : CsrRsp), s.dbgDis = false ∧ bitAt w.toNat 28 = true ∧ s.dbgBusy = true ∧
      s.cmx.dbgOut.getLast? = some last) ∧
    (∃ (s : State), ∃ (w : BitVec 96), s.dbgDis = false ∧ bitAt w.toNat 28 = true ∧ s.dbgBusy = false ∧
      s.flag dbgB F.DBG_STAT_TAP_ACC = false) ∧
    (∃ (s v : State), ∃ (n k : Nat), ∃ (p : Pk), v = s.unbox n k ∧ s.hasNi n = true ∧
      s.mgmtPk n (fun op => decide (op ≤ 1)) = some (k, p) ∧ v.plnState p.plane ≠ 3 ∧ 16 ≤ (v.ni n).mgmtIn.length) :=
  ⟨⟨demo.wr dbgB F.DBG_STAT_FUSE_DIS 1, 2, by decide +kernel⟩,
    ⟨demo.wr dbgB F.DBG_STAT_FUSE_DIS 1, 0, by decide +kernel⟩,
    ⟨demo.wr dbgB F.DBG_STAT_FUSE_DIS 1, 0, by decide +kernel⟩,
    ⟨ni0 { demoNi with inbox := [7], pks := [(7, some (mgmt 2 0))], probes := [] }, _, 0, 7, mgmt 2 0, rfl, by decide +kernel⟩,
    ⟨mgmtAt 1 0, _, 0, 7, mgmt 1 0, rfl, by decide +kernel⟩,
    ⟨mgmtAt 0 (niB 0), _, 0, 7, mgmt 0 (niB 0), rfl, (by exact fun h => (nomatch h)), by decide +kernel⟩,
    ⟨mgmtAt 0 (niB 0 + 0x3FFC), _, 0, 7, mgmt 0 (niB 0 + 0x3FFC), rfl, (by exact fun h => (nomatch h)), by decide +kernel⟩,
    ⟨mgmtAt 0 0, _, 0, 7, mgmt 0 0, rfl, (by exact fun h => (nomatch h)), by decide +kernel⟩,
    ⟨mgmtAt 0 (niB 0 + 0x4000), _, 0, 7, mgmt 0 (niB 0 + 0x4000), rfl, (by exact fun h => (nomatch h)), by decide +kernel⟩,
    ⟨mgmtAt 2 0, _, 0, 7, mgmt 2 0, _, rfl, rfl, by decide +kernel⟩,
    ⟨demo.wr dbgB F.DBG_STAT_FUSE_DIS 1, by decide +kernel⟩,
    ⟨tapOn.updCmx (fun c => { c with dbgOut := [{ id := 0, data := 9, code := 3, lb := true }] }), 5,
      { id := 0, data := 9, code := 3, lb := true }, by decide +kernel⟩,
    ⟨tapOn, 0x12000004, _, rfl, by decide +kernel⟩,
    ⟨tapOn.wr pcrB (F.PCR_RG_STAT_STATE.ix 0) 2, 0x12000004, _, rfl, by decide +kernel⟩,
    ⟨(accs [{ acc 3 2 with gr := some 0 }] tapOn).updCmx (fun c => { c with dbgOut := [{ id := 0, data := 9, code := 3, lb := true }] }),
      0x12000004, { id := 0, data := 9, code := 3, lb := true }, by decide +kernel⟩,
    ⟨((tapOn.wr dbgB F.DBG_STAT_FUSE_DIS 0).wr dbgB F.DBG_STAT_TAP_ACC 0), 0x12000004, by decide +kernel⟩,
    ⟨ni0 { demoNi with inbox := [7], pks := [(7, some (mgmt 1 0))], mgmtIn := List.replicate 16 (({ addr := 0, wr := false, size := 2 } : CsrReq), 0, ({} : Hdr)) },
      _, 0, 7, mgmt 1 0, rfl, by decide +kernel⟩⟩

/-! ### Chapter 18 of the statements -/

/-- NI 0 with a valid gate list of two entries in its admin bank, time valid at 10,000 ns. -/
def admin : State :=
  let s := ({ ((demo.wr timB F.TIM_STAT_VALID 1).wr (niB 0) F.NI_TIME_STAT_VALID 1) with time := { ft := 10000 * 2 ^ 32 } } : State)
  let s := (s.wr (niB 0) F.NI_GATE_ADM_CYCLE_CYCLE 2000).wr (niB 0) F.NI_GATE_ADM_LEN_LEN 2
  (((s.setWord (niB 0 + 0x3000) 15).setWord (niB 0 + 0x3004) 800).setWord (niB 0 + 0x3008) 15).setWord (niB 0 + 0x300C) 1200

/-- A register write of the host or of another master. -/
def wrq (o : Nat) (v : Word) : CsrReq := { addr := o, wr := true, size := 2, data := v.setWidth 64 }
/-- The row of NI.LATE_CFG. -/
def lateCfg : RSpec := (specAt 0x404 regsNi).getD { off := 0, count := 0, stride := 0, pair := false, fields := [] }

/-- The debug unit open to the debug port. -/
def tapOpen : State := demo.wr dbgB F.DBG_STAT_FUSE_DIS 0

/-- The premises of RegisterWritesReachTheirRegister are met. -/
theorem met_RegisterWritesReachTheirRegister :
    (∃ (v : Word), ∃ (blk : Nat → UK → Un), ∃ (dbg : Un), ∃ (w4 : Nat → Word → CsrReq),
      blk = (fun b x => { kind := x, base := b * 0x10000, target := b }) ∧
      dbg = { kind := .dbg, base := 0xC0000, target := 10 } ∧
      w4 = (fun off v => { addr := off, wr := true, size := 2, data := v.setWidth 64 })) ∧
    (∃ (s : State), ∃ (n : Nat), ∃ (v : Word), ∃ (blk : Nat → UK → Un), ∃ (dbg : Un), ∃ (w4 : Nat → Word → CsrReq),
      blk = (fun b x => { kind := x, base := b * 0x10000, target := b }) ∧
      dbg = { kind := .dbg, base := 0xC0000, target := 10 } ∧
      w4 = (fun off v => { addr := off, wr := true, size := 2, data := v.setWidth 64 }) ∧ s.hasNi n = true) ∧
    (∃ (s : State), ∃ (n : Nat), ∃ (v : Word), ∃ (blk : Nat → UK → Un), ∃ (dbg : Un), ∃ (w4 : Nat → Word → CsrReq),
      ∃ (j : Nat) (w : Nat), blk = (fun b x => { kind := x, base := b * 0x10000, target := b }) ∧
      dbg = { kind := .dbg, base := 0xC0000, target := 10 } ∧
      w4 = (fun off v => { addr := off, wr := true, size := 2, data := v.setWidth 64 }) ∧ s.hasNi n = true ∧ j < 16 ∧ w < 2) ∧
    (∃ (s : State), ∃ (n : Nat), ∃ (v : Word), ∃ (blk : Nat → UK → Un), ∃ (dbg : Un), ∃ (w4 : Nat → Word → CsrReq),
      ∃ (j : Nat) (w : Nat), blk = (fun b x => { kind := x, base := b * 0x10000, target := b }) ∧
      dbg = { kind := .dbg, base := 0xC0000, target := 10 } ∧
      w4 = (fun off v => { addr := off, wr := true, size := 2, data := v.setWidth 64 }) ∧ s.hasNi n = true ∧ j < 16 ∧ w < 2) ∧
    (∃ (s : State), ∃ (n : Nat), ∃ (v : Word), ∃ (blk : Nat → UK → Un), ∃ (dbg : Un), ∃ (w4 : Nat → Word → CsrReq),
      blk = (fun b x => { kind := x, base := b * 0x10000, target := b }) ∧
      dbg = { kind := .dbg, base := 0xC0000, target := 10 } ∧
      w4 = (fun off v => { addr := off, wr := true, size := 2, data := v.setWidth 64 }) ∧ s.hasNi n = false) ∧
    (∃ (s : State), ∃ (n : Nat), ∃ (v : Word), ∃ (blk : Nat → UK → Un), ∃ (dbg : Un), ∃ (w4 : Nat → Word → CsrReq),
      ∃ (j : Nat) (w : Nat), blk = (fun b x => { kind := x, base := b * 0x10000, target := b }) ∧
      dbg = { kind := .dbg, base := 0xC0000, target := 10 } ∧
      w4 = (fun off v => { addr := off, wr := true, size := 2, data := v.setWidth 64 }) ∧ (s.hasNi n = false ∨ 16 ≤ j ∨ 2 ≤ w)) ∧
    (∃ (k : Nat), ∃ (v : Word), ∃ (blk : Nat → UK → Un), ∃ (dbg : Un), ∃ (w4 : Nat → Word → CsrReq),
      blk = (fun b x => { kind := x, base := b * 0x10000, target := b }) ∧
      dbg = { kind := .dbg, base := 0xC0000, target := 10 } ∧
      w4 = (fun off v => { addr := off, wr := true, size := 2, data := v.setWidth 64 }) ∧ k < 4) ∧
    (∃ (k : Nat), ∃ (v : Word), ∃ (blk : Nat → UK → Un), ∃ (dbg : Un), ∃ (w4 : Nat → Word → CsrReq),
      blk = (fun b x => { kind := x, base := b * 0x10000, target := b }) ∧
      dbg = { kind := .dbg, base := 0xC0000, target := 10 } ∧
      w4 = (fun off v => { addr := off, wr := true, size := 2, data := v.setWidth 64 }) ∧ 4 ≤ k) ∧
    (∃ (s : State), ∃ (n : Nat), ∃ (v : Word), ∃ (blk : Nat → UK → Un), ∃ (dbg : Un), ∃ (w4 : Nat → Word → CsrReq),
      ∃ (e p : Nat), ∃ (x : BitVec 64), blk = (fun b x => { kind := x, base := b * 0x10000, target := b }) ∧
      dbg = { kind := .dbg, base := 0xC0000, target := 10 } ∧
      w4 = (fun off v => { addr := off, wr := true, size := 2, data := v.setWidth 64 }) ∧
      (if n < 256 then s.hasNi n else s.hasSpan (n - 256)) = true ∧ e < 260 ∧ p < 2) ∧
    (∃ (s : State), ∃ (n : Nat), ∃ (v : Word), ∃ (blk : Nat → UK → Un), ∃ (dbg : Un), ∃ (w4 : Nat → Word → CsrReq),
      ∃ (e p : Nat), ∃ (x : BitVec 64), blk = (fun b x => { kind := x, base := b * 0x10000, target := b }) ∧
      dbg = { kind := .dbg, base := 0xC0000, target := 10 } ∧
      w4 = (fun off v => { addr := off, wr := true, size := 2, data := v.setWidth 64 }) ∧
      ((if n < 256 then s.hasNi n else s.hasSpan (n - 256)) = false ∨ 260 ≤ e ∨ 2 ≤ p)) ∧
    (∃ (v : Word), ∃ (blk : Nat → UK → Un), ∃ (dbg : Un), ∃ (w4 : Nat → Word → CsrReq),
      blk = (fun b x => { kind := x, base := b * 0x10000, target := b }) ∧
      dbg = { kind := .dbg, base := 0xC0000, target := 10 } ∧
      w4 = (fun off v => { addr := off, wr := true, size := 2, data := v.setWidth 64 })) ∧
    (∃ (s : State), ∃ (m : Nat), ∃ (v : Word), ∃ (blk : Nat → UK → Un), ∃ (dbg : Un), ∃ (w4 : Nat → Word → CsrReq),
      blk = (fun b x => { kind := x, base := b * 0x10000, target := b }) ∧
      dbg = { kind := .dbg, base := 0xC0000, target := 10 } ∧
      w4 = (fun off v => { addr := off, wr := true, size := 2, data := v.setWidth 64 }) ∧ s.mayPresent m = false) ∧
    (∃ (s : State), ∃ (v : Word), ∃ (blk : Nat → UK → Un), ∃ (dbg : Un), ∃ (w4 : Nat → Word → CsrReq), ∃ (q : CsrReq),
      blk = (fun b x => { kind := x, base := b * 0x10000, target := b }) ∧
      dbg = { kind := .dbg, base := 0xC0000, target := 10 } ∧
      w4 = (fun off v => { addr := off, wr := true, size := 2, data := v.setWidth 64 }) ∧ (unitOf s.rom q.addr = none ∨ (∃ x,
      unitOf s.rom q.addr = some x ∧ pairAt x (q.addr - x.base) = false))) ∧
    (∃ (s : State), ∃ (m : Nat), ∃ (v : Word), ∃ (u : Un), ∃ (blk : Nat → UK → Un), ∃ (dbg : Un), ∃ (w4 : Nat → Word → CsrReq),
      ∃ (q : CsrReq), ∃ (g : State), blk = (fun b x => { kind := x, base := b * 0x10000, target := b }) ∧
      dbg = { kind := .dbg, base := 0xC0000, target := 10 } ∧
      w4 = (fun off v => { addr := off, wr := true, size := 2, data := v.setWidth 64 }) ∧ s.CmxFree m ∧
      g = (s.atTarget m u.target q).granting m u.target q ∧ q.wr = true ∧ m ∈ s.cmxRot u.target ∧ s.entry? m q = .ok u ∧
      s.mayUse m u.target = true ∧ (m, u.target) ∈ s.cmx.cuts) ∧
    (∃ (s : State), ∃ (m : Nat), ∃ (v : Word), ∃ (u : Un), ∃ (blk : Nat → UK → Un), ∃ (dbg : Un), ∃ (w4 : Nat → Word → CsrReq),
      ∃ (q : CsrReq), ∃ (g : State), ∃ (r : State × BitVec 64 × Nat),
      blk = (fun b x => { kind := x, base := b * 0x10000, target := b }) ∧
      dbg = { kind := .dbg, base := 0xC0000, target := 10 } ∧
      w4 = (fun off v => { addr := off, wr := true, size := 2, data := v.setWidth 64 }) ∧ s.CmxFree m ∧
      g = (s.atTarget m u.target q).granting m u.target q ∧ r = g.perform m u q ∧ q.wr = true ∧ m ∈ s.cmxRot u.target ∧
      s.entry? m q = .ok u ∧ s.mayUse m u.target = true ∧ (m, u.target) ∉ s.cmx.cuts) ∧
    (∃ (s : State), ∃ (m : Nat), ∃ (v : Word), ∃ (u : Un), ∃ (blk : Nat → UK → Un), ∃ (dbg : Un), ∃ (w4 : Nat → Word → CsrReq),
      ∃ (q : CsrReq), ∃ (g : State), blk = (fun b x => { kind := x, base := b * 0x10000, target := b }) ∧
      dbg = { kind := .dbg, base := 0xC0000, target := 10 } ∧
      w4 = (fun off v => { addr := off, wr := true, size := 2, data := v.setWidth 64 }) ∧ s.CmxFree m ∧
      g = (s.atTarget m u.target q).granting m u.target q ∧ q.wr = true ∧ m ∈ s.cmxRot u.target ∧ s.entry? m q = .ok u ∧
      s.mayUse m u.target = true ∧ (m, u.target) ∉ s.cmx.cuts ∧ s.lockBit m q = false ∧ s.lockOf u.target = none ∧
      s.asleep u = true) ∧
    (∃ (s : State), ∃ (m : Nat), ∃ (v : Word), ∃ (u : Un), ∃ (blk : Nat → UK → Un), ∃ (dbg : Un), ∃ (w4 : Nat → Word → CsrReq),
      ∃ (q : CsrReq), ∃ (g : State), blk = (fun b x => { kind := x, base := b * 0x10000, target := b }) ∧
      dbg = { kind := .dbg, base := 0xC0000, target := 10 } ∧
      w4 = (fun off v => { addr := off, wr := true, size := 2, data := v.setWidth 64 }) ∧ s.CmxFree m ∧
      g = (s.atTarget m u.target q).granting m u.target q ∧ q.wr = true ∧ m ∈ s.cmxRot u.target ∧ s.entry? m q = .ok u ∧
      s.mayUse m u.target = true ∧ (m, u.target) ∉ s.cmx.cuts ∧ s.lockBit m q = false ∧ s.lockOf u.target = none ∧
      s.asleep u = false ∧ (3 < q.size ∨ (q.addr - u.base) % 2 ^ q.size ≠ 0)) ∧
    (∃ (s : State), ∃ (m : Nat), ∃ (v : Word), ∃ (u : Un), ∃ (blk : Nat → UK → Un), ∃ (dbg : Un), ∃ (w4 : Nat → Word → CsrReq),
      ∃ (q : CsrReq), ∃ (g : State), blk = (fun b x => { kind := x, base := b * 0x10000, target := b }) ∧
      dbg = { kind := .dbg, base := 0xC0000, target := 10 } ∧
      w4 = (fun off v => { addr := off, wr := true, size := 2, data := v.setWidth 64 }) ∧ s.CmxFree m ∧
      g = (s.atTarget m u.target q).granting m u.target q ∧ q.wr = true ∧ m ∈ s.cmxRot u.target ∧ s.entry? m q = .ok u ∧
      s.mayUse m u.target = true ∧ (m, u.target) ∉ s.cmx.cuts ∧ s.lockBit m q = false ∧ s.lockOf u.target = none ∧
      s.asleep u = false ∧ q.size < 2 ∧ (q.addr - u.base) % 2 ^ q.size = 0 ∧ u.kind ≠ .rom ∧ u.kind ≠ .brom ∧ u.kind ≠ .sram ∧
      regAt u ((q.addr - u.base) / 4 * 4) = true) ∧
    (∃ (s : State), ∃ (m : Nat), ∃ (v : Word), ∃ (u : Un), ∃ (blk : Nat → UK → Un), ∃ (dbg : Un), ∃ (w4 : Nat → Word → CsrReq),
      ∃ (q : CsrReq), ∃ (g : State), blk = (fun b x => { kind := x, base := b * 0x10000, target := b }) ∧
      dbg = { kind := .dbg, base := 0xC0000, target := 10 } ∧
      w4 = (fun off v => { addr := off, wr := true, size := 2, data := v.setWidth 64 }) ∧ s.CmxFree m ∧
      g = (s.atTarget m u.target q).granting m u.target q ∧ q.wr = true ∧ m ∈ s.cmxRot u.target ∧ s.entry? m q = .ok u ∧
      s.mayUse m u.target = true ∧ (m, u.target) ∉ s.cmx.cuts ∧ s.lockBit m q = false ∧ s.lockOf u.target = none ∧
      s.asleep u = false ∧ q.size ≤ 3 ∧ (q.addr - u.base) % 2 ^ q.size = 0 ∧ (u.kind = .rom ∨ u.kind = .brom)) ∧
    (∃ (s : State), ∃ (m n k : Nat), ∃ (v : Word), ∃ (u : Un), ∃ (blk : Nat → UK → Un), ∃ (dbg : Un),
      ∃ (w4 : Nat → Word → CsrReq), blk = (fun b x => { kind := x, base := b * 0x10000, target := b }) ∧
      dbg = { kind := .dbg, base := 0xC0000, target := 10 } ∧
      w4 = (fun off v => { addr := off, wr := true, size := 2, data := v.setWidth 64 }) ∧ u = niUnit n ∧
      s.Goes m u 0x404 v.toNat ∧ k < 4 ∧ s.hasNi n = true) ∧
    (∃ (s : State), ∃ (m n k : Nat), ∃ (v : Word), ∃ (u : Un), ∃ (blk : Nat → UK → Un), ∃ (dbg : Un),
      ∃ (w4 : Nat → Word → CsrReq), blk = (fun b x => { kind := x, base := b * 0x10000, target := b }) ∧
      dbg = { kind := .dbg, base := 0xC0000, target := 10 } ∧
      w4 = (fun off v => { addr := off, wr := true, size := 2, data := v.setWidth 64 }) ∧ u = niUnit n ∧
      s.Goes m u 0x404 (v ||| 0x100#32).toNat ∧ k < 4 ∧ s.hasNi n = true) ∧
    (∃ (s : State), ∃ (m n k : Nat), ∃ (v : Word), ∃ (u : Un), ∃ (blk : Nat → UK → Un), ∃ (dbg : Un),
      ∃ (w4 : Nat → Word → CsrReq), blk = (fun b x => { kind := x, base := b * 0x10000, target := b }) ∧
      dbg = { kind := .dbg, base := 0xC0000, target := 10 } ∧
      w4 = (fun off v => { addr := off, wr := true, size := 2, data := v.setWidth 64 }) ∧ u = niUnit n ∧
      s.Goes m u 0x50C v.toNat ∧ k < 4 ∧ s.hasNi n = true) ∧
    (∃ (s : State), ∃ (m n k : Nat), ∃ (v : Word), ∃ (u : Un), ∃ (blk : Nat → UK → Un), ∃ (dbg : Un),
      ∃ (w4 : Nat → Word → CsrReq), blk = (fun b x => { kind := x, base := b * 0x10000, target := b }) ∧
      dbg = { kind := .dbg, base := 0xC0000, target := 10 } ∧
      w4 = (fun off v => { addr := off, wr := true, size := 2, data := v.setWidth 64 }) ∧ u = niUnit n ∧
      s.Goes m u 0x504 (v ||| 0x80000000#32).toNat ∧ k < 4 ∧ s.hasNi n = true) ∧
    (∃ (s : State), ∃ (m n k : Nat), ∃ (v : Word), ∃ (u : Un), ∃ (blk : Nat → UK → Un), ∃ (dbg : Un),
      ∃ (w4 : Nat → Word → CsrReq), blk = (fun b x => { kind := x, base := b * 0x10000, target := b }) ∧
      dbg = { kind := .dbg, base := 0xC0000, target := 10 } ∧
      w4 = (fun off v => { addr := off, wr := true, size := 2, data := v.setWidth 64 }) ∧ u = niUnit n ∧
      s.Goes m u 0x700 (v ||| 1#32).toNat ∧ k < 4 ∧ s.hasNi n = true) ∧
    (∃ (s : State), ∃ (m n k : Nat), ∃ (v : Word), ∃ (u : Un), ∃ (blk : Nat → UK → Un), ∃ (dbg : Un),
      ∃ (w4 : Nat → Word → CsrReq), blk = (fun b x => { kind := x, base := b * 0x10000, target := b }) ∧
      dbg = { kind := .dbg, base := 0xC0000, target := 10 } ∧
      w4 = (fun off v => { addr := off, wr := true, size := 2, data := v.setWidth 64 }) ∧ u = niUnit n ∧
      s.Goes m u 0x700 (v ||| 2#32).toNat ∧ k < 4 ∧ s.hasNi n = true) ∧
    (∃ (s : State), ∃ (m n k : Nat), ∃ (v : Word), ∃ (u : Un), ∃ (blk : Nat → UK → Un), ∃ (dbg : Un),
      ∃ (w4 : Nat → Word → CsrReq), blk = (fun b x => { kind := x, base := b * 0x10000, target := b }) ∧
      dbg = { kind := .dbg, base := 0xC0000, target := 10 } ∧
      w4 = (fun off v => { addr := off, wr := true, size := 2, data := v.setWidth 64 }) ∧ u = niUnit n ∧
      s.Goes m u 0x700 v.toNat ∧ k < 4 ∧ s.hasNi n = true) ∧
    (∃ (s : State), ∃ (m n k : Nat), ∃ (v : Word), ∃ (u : Un), ∃ (blk : Nat → UK → Un), ∃ (dbg : Un),
      ∃ (w4 : Nat → Word → CsrReq), blk = (fun b x => { kind := x, base := b * 0x10000, target := b }) ∧
      dbg = { kind := .dbg, base := 0xC0000, target := 10 } ∧
      w4 = (fun off v => { addr := off, wr := true, size := 2, data := v.setWidth 64 }) ∧ u = niUnit n ∧
      s.Goes m u 0xD04 v.toNat ∧ k < 4 ∧ s.hasNi n = true) ∧
    (∃ (s : State), ∃ (m n k : Nat), ∃ (v : Word), ∃ (u : Un), ∃ (blk : Nat → UK → Un), ∃ (dbg : Un),
      ∃ (w4 : Nat → Word → CsrReq), blk = (fun b x => { kind := x, base := b * 0x10000, target := b }) ∧
      dbg = { kind := .dbg, base := 0xC0000, target := 10 } ∧
      w4 = (fun off v => { addr := off, wr := true, size := 2, data := v.setWidth 64 }) ∧ u = niUnit n ∧
      s.Goes m u 0xE40 (v ||| 2#32).toNat ∧ k < 4 ∧ s.hasNi n = true) ∧
    (∃ (s : State), ∃ (m n k : Nat), ∃ (v : Word), ∃ (u : Un), ∃ (blk : Nat → UK → Un), ∃ (dbg : Un),
      ∃ (w4 : Nat → Word → CsrReq), blk = (fun b x => { kind := x, base := b * 0x10000, target := b }) ∧
      dbg = { kind := .dbg, base := 0xC0000, target := 10 } ∧
      w4 = (fun off v => { addr := off, wr := true, size := 2, data := v.setWidth 64 }) ∧ u = niUnit n ∧
      s.Goes m u 0xE40 v.toNat ∧ k < 4 ∧ s.hasNi n = true) ∧
    (∃ (s : State), ∃ (m n k : Nat), ∃ (v : Word), ∃ (u : Un), ∃ (blk : Nat → UK → Un), ∃ (dbg : Un),
      ∃ (w4 : Nat → Word → CsrReq), blk = (fun b x => { kind := x, base := b * 0x10000, target := b }) ∧
      dbg = { kind := .dbg, base := 0xC0000, target := 10 } ∧
      w4 = (fun off v => { addr := off, wr := true, size := 2, data := v.setWidth 64 }) ∧ u = niUnit n ∧
      s.Goes m u 0xE40 v.toNat ∧ k < 4 ∧ s.hasNi n = true) ∧
    (∃ (s : State), ∃ (m n k : Nat), ∃ (v : Word), ∃ (u : Un), ∃ (blk : Nat → UK → Un), ∃ (dbg : Un),
      ∃ (w4 : Nat → Word → CsrReq), blk = (fun b x => { kind := x, base := b * 0x10000, target := b }) ∧
      dbg = { kind := .dbg, base := 0xC0000, target := 10 } ∧
      w4 = (fun off v => { addr := off, wr := true, size := 2, data := v.setWidth 64 }) ∧ u = niUnit n ∧
      s.Goes m u 0x300 (v &&& 0xFFFFFFEF#32).toNat ∧ k < 4 ∧ s.hasNi n = true) ∧
    (∃ (s : State), ∃ (m n k : Nat), ∃ (v : Word), ∃ (u : Un), ∃ (blk : Nat → UK → Un), ∃ (dbg : Un),
      ∃ (w4 : Nat → Word → CsrReq), blk = (fun b x => { kind := x, base := b * 0x10000, target := b }) ∧
      dbg = { kind := .dbg, base := 0xC0000, target := 10 } ∧
      w4 = (fun off v => { addr := off, wr := true, size := 2, data := v.setWidth 64 }) ∧ u = niUnit n ∧
      s.Goes m u 0x318 (v ||| 0x40000000#32).toNat ∧ k < 4 ∧ s.hasNi n = true) ∧
    (∃ (s : State), ∃ (m k : Nat), ∃ (v : Word), ∃ (blk : Nat → UK → Un), ∃ (dbg : Un), ∃ (w4 : Nat → Word → CsrReq),
      blk = (fun b x => { kind := x, base := b * 0x10000, target := b }) ∧
      dbg = { kind := .dbg, base := 0xC0000, target := 10 } ∧
      w4 = (fun off v => { addr := off, wr := true, size := 2, data := v.setWidth 64 }) ∧
      s.Goes m (blk 2 .tim) 0x10 (v ||| 1#32).toNat ∧ k < 4) ∧
    (∃ (s : State), ∃ (m k : Nat), ∃ (v : Word), ∃ (blk : Nat → UK → Un), ∃ (dbg : Un), ∃ (w4 : Nat → Word → CsrReq),
      blk = (fun b x => { kind := x, base := b * 0x10000, target := b }) ∧
      dbg = { kind := .dbg, base := 0xC0000, target := 10 } ∧
      w4 = (fun off v => { addr := off, wr := true, size := 2, data := v.setWidth 64 }) ∧
      s.Goes m (blk 2 .tim) 0x10 (v ||| 2#32).toNat ∧ k < 4) ∧
    (∃ (s : State), ∃ (m k : Nat), ∃ (v : Word), ∃ (blk : Nat → UK → Un), ∃ (dbg : Un), ∃ (w4 : Nat → Word → CsrReq),
      blk = (fun b x => { kind := x, base := b * 0x10000, target := b }) ∧
      dbg = { kind := .dbg, base := 0xC0000, target := 10 } ∧
      w4 = (fun off v => { addr := off, wr := true, size := 2, data := v.setWidth 64 }) ∧
      s.Goes m (blk 2 .tim) 0 (v ||| 0x100#32).toNat ∧ k < 4) ∧
    (∃ (s : State), ∃ (m k : Nat), ∃ (v : Word), ∃ (blk : Nat → UK → Un), ∃ (dbg : Un), ∃ (w4 : Nat → Word → CsrReq),
      blk = (fun b x => { kind := x, base := b * 0x10000, target := b }) ∧
      dbg = { kind := .dbg, base := 0xC0000, target := 10 } ∧
      w4 = (fun off v => { addr := off, wr := true, size := 2, data := v.setWidth 64 }) ∧
      s.Goes m (blk 2 .tim) (0x80 + 8 * k) v.toNat ∧ k < 4) ∧
    (∃ (s : State), ∃ (m k : Nat), ∃ (v : Word), ∃ (blk : Nat → UK → Un), ∃ (dbg : Un), ∃ (w4 : Nat → Word → CsrReq),
      blk = (fun b x => { kind := x, base := b * 0x10000, target := b }) ∧
      dbg = { kind := .dbg, base := 0xC0000, target := 10 } ∧
      w4 = (fun off v => { addr := off, wr := true, size := 2, data := v.setWidth 64 }) ∧ s.Goes m (blk 0 .glb) 0xC0 v.toNat ∧
      k < 4) ∧
    (∃ (s : State), ∃ (m k : Nat), ∃ (v : Word), ∃ (blk : Nat → UK → Un), ∃ (dbg : Un), ∃ (w4 : Nat → Word → CsrReq),
      blk = (fun b x => { kind := x, base := b * 0x10000, target := b }) ∧
      dbg = { kind := .dbg, base := 0xC0000, target := 10 } ∧
      w4 = (fun off v => { addr := off, wr := true, size := 2, data := v.setWidth 64 }) ∧
      s.Goes m (blk 0 .glb) 0xC4 (v ||| 0x80000000#32).toNat ∧ k < 4) ∧
    (∃ (s : State), ∃ (m k : Nat), ∃ (v : Word), ∃ (blk : Nat → UK → Un), ∃ (dbg : Un), ∃ (w4 : Nat → Word → CsrReq),
      blk = (fun b x => { kind := x, base := b * 0x10000, target := b }) ∧
      dbg = { kind := .dbg, base := 0xC0000, target := 10 } ∧
      w4 = (fun off v => { addr := off, wr := true, size := 2, data := v.setWidth 64 }) ∧
      s.Goes m (blk 5 .evt) 0x200 (v ||| 0x40000000#32).toNat ∧ k < 4) ∧
    (∃ (s : State), ∃ (m k : Nat), ∃ (v : Word), ∃ (blk : Nat → UK → Un), ∃ (dbg : Un), ∃ (w4 : Nat → Word → CsrReq),
      blk = (fun b x => { kind := x, base := b * 0x10000, target := b }) ∧
      dbg = { kind := .dbg, base := 0xC0000, target := 10 } ∧
      w4 = (fun off v => { addr := off, wr := true, size := 2, data := v.setWidth 64 }) ∧
      s.Goes m (blk 5 .evt) 0x210 (v ||| 0x40000000#32).toNat ∧ k < 4) ∧
    (∃ (s : State), ∃ (m k : Nat), ∃ (v : Word), ∃ (blk : Nat → UK → Un), ∃ (dbg : Un), ∃ (w4 : Nat → Word → CsrReq),
      blk = (fun b x => { kind := x, base := b * 0x10000, target := b }) ∧
      dbg = { kind := .dbg, base := 0xC0000, target := 10 } ∧
      w4 = (fun off v => { addr := off, wr := true, size := 2, data := v.setWidth 64 }) ∧
      s.Goes m (blk 5 .evt) 0x804 (v &&& 0xFFFFFFFC#32 ||| 1#32).toNat ∧ k < 4) ∧
    (∃ (s : State), ∃ (m k : Nat), ∃ (v : Word), ∃ (blk : Nat → UK → Un), ∃ (dbg : Un), ∃ (w4 : Nat → Word → CsrReq),
      blk = (fun b x => { kind := x, base := b * 0x10000, target := b }) ∧
      dbg = { kind := .dbg, base := 0xC0000, target := 10 } ∧
      w4 = (fun off v => { addr := off, wr := true, size := 2, data := v.setWidth 64 }) ∧
      s.Goes m (blk 5 .evt) 0x804 (v ||| 3#32).toNat ∧ k < 4) ∧
    (∃ (s : State), ∃ (m k : Nat), ∃ (v : Word), ∃ (blk : Nat → UK → Un), ∃ (dbg : Un), ∃ (w4 : Nat → Word → CsrReq),
      blk = (fun b x => { kind := x, base := b * 0x10000, target := b }) ∧
      dbg = { kind := .dbg, base := 0xC0000, target := 10 } ∧
      w4 = (fun off v => { addr := off, wr := true, size := 2, data := v.setWidth 64 }) ∧ s.Goes m dbg 0x10 v.toNat ∧ k < 4) ∧
    (∃ (s : State), ∃ (m k : Nat), ∃ (v : Word), ∃ (blk : Nat → UK → Un), ∃ (dbg : Un), ∃ (w4 : Nat → Word → CsrReq),
      blk = (fun b x => { kind := x, base := b * 0x10000, target := b }) ∧
      dbg = { kind := .dbg, base := 0xC0000, target := 10 } ∧
      w4 = (fun off v => { addr := off, wr := true, size := 2, data := v.setWidth 64 }) ∧ s.Goes m dbg 4 v.toNat ∧ k < 4) ∧
    (∃ (s : State), ∃ (m k : Nat), ∃ (v : Word), ∃ (blk : Nat → UK → Un), ∃ (dbg : Un), ∃ (w4 : Nat → Word → CsrReq),
      blk = (fun b x => { kind := x, base := b * 0x10000, target := b }) ∧
      dbg = { kind := .dbg, base := 0xC0000, target := 10 } ∧
      w4 = (fun off v => { addr := off, wr := true, size := 2, data := v.setWidth 64 }) ∧ s.Goes m dbg 4 (v ||| 0x100#32).toNat ∧
      k < 4) ∧
    (∃ (s : State), ∃ (m k : Nat), ∃ (v : Word), ∃ (blk : Nat → UK → Un), ∃ (dbg : Un), ∃ (w4 : Nat → Word → CsrReq),
      blk = (fun b x => { kind := x, base := b * 0x10000, target := b }) ∧
      dbg = { kind := .dbg, base := 0xC0000, target := 10 } ∧
      w4 = (fun off v => { addr := off, wr := true, size := 2, data := v.setWidth 64 }) ∧ s.Goes m (blk 7 .cmx) 0 v.toNat ∧
      k < 4) ∧
    (∃ (s : State), ∃ (m k : Nat), ∃ (v : Word), ∃ (blk : Nat → UK → Un), ∃ (dbg : Un), ∃ (w4 : Nat → Word → CsrReq),
      blk = (fun b x => { kind := x, base := b * 0x10000, target := b }) ∧
      dbg = { kind := .dbg, base := 0xC0000, target := 10 } ∧
      w4 = (fun off v => { addr := off, wr := true, size := 2, data := v.setWidth 64 }) ∧
      s.Goes m (blk 1 .str) 0xC (v ||| 1#32).toNat ∧ k < 4) ∧
    (∃ (s : State), ∃ (m k : Nat), ∃ (v : Word), ∃ (blk : Nat → UK → Un), ∃ (dbg : Un), ∃ (w4 : Nat → Word → CsrReq),
      blk = (fun b x => { kind := x, base := b * 0x10000, target := b }) ∧
      dbg = { kind := .dbg, base := 0xC0000, target := 10 } ∧
      w4 = (fun off v => { addr := off, wr := true, size := 2, data := v.setWidth 64 }) ∧ s.Goes m (blk 1 .str) 0x10 v.toNat ∧
      k < 4) ∧
    (∃ (s : State), ∃ (m k : Nat), ∃ (v : Word), ∃ (blk : Nat → UK → Un), ∃ (dbg : Un), ∃ (w4 : Nat → Word → CsrReq),
      blk = (fun b x => { kind := x, base := b * 0x10000, target := b }) ∧
      dbg = { kind := .dbg, base := 0xC0000, target := 10 } ∧
      w4 = (fun off v => { addr := off, wr := true, size := 2, data := v.setWidth 64 }) ∧
      s.Goes m (blk 1 .str) 0xC (v ||| 2#32).toNat ∧ k < 4) ∧
    (∃ (s : State), ∃ (m k : Nat), ∃ (v : Word), ∃ (blk : Nat → UK → Un), ∃ (dbg : Un), ∃ (w4 : Nat → Word → CsrReq),
      blk = (fun b x => { kind := x, base := b * 0x10000, target := b }) ∧
      dbg = { kind := .dbg, base := 0xC0000, target := 10 } ∧
      w4 = (fun off v => { addr := off, wr := true, size := 2, data := v.setWidth 64 }) ∧
      s.Goes m (blk 1 .str) 0x34 (v ||| 0x80000000#32).toNat ∧ k < 4) ∧
    (∃ (s : State), ∃ (m k : Nat), ∃ (v : Word), ∃ (blk : Nat → UK → Un), ∃ (dbg : Un), ∃ (w4 : Nat → Word → CsrReq),
      blk = (fun b x => { kind := x, base := b * 0x10000, target := b }) ∧
      dbg = { kind := .dbg, base := 0xC0000, target := 10 } ∧
      w4 = (fun off v => { addr := off, wr := true, size := 2, data := v.setWidth 64 }) ∧
      s.Goes m (blk 1 .str) (0x200 + 16 * k) (v ||| 1#32).toNat ∧ k < 4) ∧
    (∃ (s : State), ∃ (m n : Nat), ∃ (v : Word), ∃ (u : Un), ∃ (blk : Nat → UK → Un), ∃ (dbg : Un), ∃ (w4 : Nat → Word → CsrReq),
      ∃ (j : Nat) (w : Nat), blk = (fun b x => { kind := x, base := b * 0x10000, target := b }) ∧
      dbg = { kind := .dbg, base := 0xC0000, target := 10 } ∧
      w4 = (fun off v => { addr := off, wr := true, size := 2, data := v.setWidth 64 }) ∧ u = niUnit n ∧
      s.Goes m u (0x450 + 8 * j + 4 * w) v.toNat ∧ s.hasNi n = true ∧ j < 16 ∧ w < 2) ∧
    (∃ (s : State), ∃ (m n : Nat), ∃ (v : Word), ∃ (u : Un), ∃ (blk : Nat → UK → Un), ∃ (dbg : Un), ∃ (w4 : Nat → Word → CsrReq),
      ∃ (j : Nat) (w : Nat), blk = (fun b x => { kind := x, base := b * 0x10000, target := b }) ∧
      dbg = { kind := .dbg, base := 0xC0000, target := 10 } ∧
      w4 = (fun off v => { addr := off, wr := true, size := 2, data := v.setWidth 64 }) ∧ u = niUnit n ∧
      s.Goes m u (0x580 + 16 * j + 4 * w) v.toNat ∧ s.hasNi n = true ∧ j < 16 ∧ w < 2) ∧
    (∃ (s : State), ∃ (m : Nat), ∃ (v : Word), ∃ (u : Un), ∃ (blk : Nat → UK → Un), ∃ (dbg : Un), ∃ (w4 : Nat → Word → CsrReq),
      ∃ (rel : Nat), ∃ (q : CsrReq), ∃ (g : State), blk = (fun b x => { kind := x, base := b * 0x10000, target := b }) ∧
      dbg = { kind := .dbg, base := 0xC0000, target := 10 } ∧
      w4 = (fun off v => { addr := off, wr := true, size := 2, data := v.setWidth 64 }) ∧ q = w4 (u.base + rel) v ∧
      g = s.atTarget m u.target q ∧ s.Goes m u rel v.toNat) ∧
    (∃ (s : State), ∃ (m : Nat), ∃ (v : Word), ∃ (u : Un), ∃ (blk : Nat → UK → Un), ∃ (dbg : Un), ∃ (w4 : Nat → Word → CsrReq),
      ∃ (rel : Nat), ∃ (q : CsrReq), ∃ (g : State), blk = (fun b x => { kind := x, base := b * 0x10000, target := b }) ∧
      dbg = { kind := .dbg, base := 0xC0000, target := 10 } ∧
      w4 = (fun off v => { addr := off, wr := true, size := 2, data := v.setWidth 64 }) ∧ q = w4 (u.base + rel) v ∧
      g = s.atTarget m u.target q ∧ s.Reaches m u rel ∧ rel % 4 = 0 ∧ pairAt u rel = false ∧ g.refuses m u [(rel,
      v.toNat)] = true) ∧
    (∃ (s : State), ∃ (m : Nat), ∃ (v : Word), ∃ (u : Un), ∃ (blk : Nat → UK → Un), ∃ (dbg : Un), ∃ (w4 : Nat → Word → CsrReq),
      ∃ (rel : Nat), ∃ (q : CsrReq), ∃ (g : State), blk = (fun b x => { kind := x, base := b * 0x10000, target := b }) ∧
      dbg = { kind := .dbg, base := 0xC0000, target := 10 } ∧
      w4 = (fun off v => { addr := off, wr := true, size := 2, data := v.setWidth 64 }) ∧ q = w4 (u.base + rel) v ∧
      g = s.atTarget m u.target q ∧ s.Reaches m u rel ∧ rel % 4 = 0 ∧ pairAt u rel = false ∧ g.refuses m u [(rel,
      v.toNat)] = false ∧ s.absent u rel = true) ∧
    (∃ (s : State), ∃ (m : Nat), ∃ (v : Word), ∃ (u : Un), ∃ (blk : Nat → UK → Un), ∃ (dbg : Un), ∃ (w4 : Nat → Word → CsrReq),
      ∃ (rel : Nat), ∃ (q : CsrReq), ∃ (g : State), blk = (fun b x => { kind := x, base := b * 0x10000, target := b }) ∧
      dbg = { kind := .dbg, base := 0xC0000, target := 10 } ∧
      w4 = (fun off v => { addr := off, wr := true, size := 2, data := v.setWidth 64 }) ∧ q = w4 (u.base + rel) v ∧
      g = s.atTarget m u.target q ∧ s.Reaches m u rel ∧ rel % 4 = 0 ∧ pairAt u rel = true) ∧
    (∃ (s : State), ∃ (v : Word), ∃ (blk : Nat → UK → Un), ∃ (dbg : Un), ∃ (w4 : Nat → Word → CsrReq), ∃ (q : CsrReq),
      ∃ (x : Un), blk = (fun b x => { kind := x, base := b * 0x10000, target := b }) ∧
      dbg = { kind := .dbg, base := 0xC0000, target := 10 } ∧
      w4 = (fun off v => { addr := off, wr := true, size := 2, data := v.setWidth 64 }) ∧ unitOf s.rom q.addr = some x ∧
      pairAt x (q.addr - x.base) = true) ∧
    (∃ (s : State), ∃ (m : Nat), ∃ (v : Word), ∃ (blk : Nat → UK → Un), ∃ (dbg : Un), ∃ (w4 : Nat → Word → CsrReq),
      ∃ (q : CsrReq), ∃ (c : Nat), blk = (fun b x => { kind := x, base := b * 0x10000, target := b }) ∧
      dbg = { kind := .dbg, base := 0xC0000, target := 10 } ∧
      w4 = (fun off v => { addr := off, wr := true, size := 2, data := v.setWidth 64 }) ∧ s.CmxFree m ∧ q.wr = true ∧
      s.entry? m q = .error c) :=
  ⟨⟨5, _, _, _, rfl, rfl, rfl⟩,
    ⟨demo, 0, 5, _, _, _, rfl, rfl, rfl, by decide +kernel⟩,
    ⟨demo.wr timB F.TIM_CTL_ELOCK 1, 0, 0x77, _, _, _, 0, 0, rfl, rfl, rfl, by decide +kernel⟩,
    ⟨demo.wr timB F.TIM_CTL_ELOCK 1, 0, 0x77, _, _, _, 0, 0, rfl, rfl, rfl, by decide +kernel⟩,
    ⟨demo, 2, 5, _, _, _, rfl, rfl, rfl, by decide +kernel⟩,
    ⟨demo.wr timB F.TIM_CTL_ELOCK 1, 0, 0x77, _, _, _, 0, 2, rfl, rfl, rfl, by decide +kernel⟩,
    ⟨0, 5, _, _, _, rfl, rfl, rfl, by decide +kernel⟩,
    ⟨9, 3, _, _, _, rfl, rfl, rfl, by decide +kernel⟩,
    ⟨demo, 0, 5, _, _, _, 0, 0, 0, rfl, rfl, rfl, by decide +kernel⟩,
    ⟨demo.wr timB F.TIM_CTL_ELOCK 1, 0, 0x77, _, _, _, 0, 2, 0, rfl, rfl, rfl, by decide +kernel⟩,
    ⟨3, _, _, _, rfl, rfl, rfl⟩,
    ⟨demo, 9, 3, _, _, _, rfl, rfl, rfl, by decide +kernel⟩,
    ⟨demo, 5, _, _, _, wrq 0x80000 5, rfl, rfl, rfl, by decide +kernel⟩,
    ⟨demo.updCmx (fun c => { c with cuts := [(0, 0)] }), 0, 0, { kind := .glb, base := 0, target := 0 }, _, _, _, wrq 4 5, _,
      rfl, rfl, rfl, cmxFree_of (by decide +kernel), rfl, by decide +kernel⟩,
    ⟨demo, 0, 0, { kind := .rom, base := 0x80000, target := 8 }, _, _, _, wrq 0x80000 5, _, _, rfl, rfl, rfl,
      cmxFree_of (by decide +kernel), rfl, rfl, by decide +kernel⟩,
    ⟨demo.wr pcrB (F.PCR_RG_STAT_STATE.ix 0) 2, 1, 0, niUnit 0, _, _, _, wrq (niB 0 + 0x404) 5, _, rfl, rfl, rfl,
      cmxFree_of (by decide +kernel), rfl, by decide +kernel⟩,
    ⟨demo, 0, 0, { kind := .glb, base := 0, target := 0 }, _, _, _, { wrq 6 5 with size := 2 }, _, rfl, rfl, rfl,
      cmxFree_of (by decide +kernel), rfl, by decide +kernel⟩,
    ⟨demo, 0, 0, { kind := .glb, base := 0, target := 0 }, _, _, _, { wrq 4 5 with size := 0 }, _, rfl, rfl, rfl,
      cmxFree_of (by decide +kernel), rfl, by decide +kernel⟩,
    ⟨demo, 0, 0, { kind := .rom, base := 0x80000, target := 8 }, _, _, _, wrq 0x80000 5, _, rfl, rfl, rfl,
      cmxFree_of (by decide +kernel), rfl, by decide +kernel⟩,
    ⟨demo, 0, 1, 0, 5, _, _, _, _, rfl, rfl, rfl, rfl, ⟨⟨cmxFree_of (by decide +kernel), by decide +kernel⟩, by decide +kernel⟩,
      by decide +kernel⟩,
    ⟨demo, 0, 1, 0, 0, _, _, _, _, rfl, rfl, rfl, rfl, ⟨⟨cmxFree_of (by decide +kernel), by decide +kernel⟩, by decide +kernel⟩,
      by decide +kernel⟩,
    ⟨demo, 0, 1, 0, 0x50003, _, _, _, _, rfl, rfl, rfl, rfl, ⟨⟨cmxFree_of (by decide +kernel), by decide +kernel⟩,
      by decide +kernel⟩, by decide +kernel⟩,
    ⟨demo, 0, 1, 0, 0, _, _, _, _, rfl, rfl, rfl, rfl, ⟨⟨cmxFree_of (by decide +kernel), by decide +kernel⟩, by decide +kernel⟩,
      by decide +kernel⟩,
    ⟨demo, 0, 1, 0, 0, _, _, _, _, rfl, rfl, rfl, rfl, ⟨⟨cmxFree_of (by decide +kernel), by decide +kernel⟩, by decide +kernel⟩,
      by decide +kernel⟩,
    ⟨demo, 0, 1, 0, 0, _, _, _, _, rfl, rfl, rfl, rfl, ⟨⟨cmxFree_of (by decide +kernel), by decide +kernel⟩, by decide +kernel⟩,
      by decide +kernel⟩,
    ⟨demo, 0, 1, 0, 0x500, _, _, _, _, rfl, rfl, rfl, rfl, ⟨⟨cmxFree_of (by decide +kernel), by decide +kernel⟩,
      by decide +kernel⟩, by decide +kernel⟩,
    ⟨demo, 0, 1, 0, 1, _, _, _, _, rfl, rfl, rfl, rfl, ⟨⟨cmxFree_of (by decide +kernel), by decide +kernel⟩, by decide +kernel⟩,
      by decide +kernel⟩,
    ⟨demo, 0, 1, 0, 0, _, _, _, _, rfl, rfl, rfl, rfl, ⟨⟨cmxFree_of (by decide +kernel), by decide +kernel⟩, by decide +kernel⟩,
      by decide +kernel⟩,
    ⟨demo, 0, 1, 0, 4, _, _, _, _, rfl, rfl, rfl, rfl, ⟨⟨cmxFree_of (by decide +kernel), by decide +kernel⟩, by decide +kernel⟩,
      by decide +kernel⟩,
    ⟨demo, 0, 1, 0, 12, _, _, _, _, rfl, rfl, rfl, rfl, ⟨⟨cmxFree_of (by decide +kernel), by decide +kernel⟩, by decide +kernel⟩,
      by decide +kernel⟩,
    ⟨demo, 0, 1, 0, 0x30, _, _, _, _, rfl, rfl, rfl, rfl, ⟨⟨cmxFree_of (by decide +kernel), by decide +kernel⟩,
      by decide +kernel⟩, by decide +kernel⟩,
    ⟨demo, 4, 1, 0, 5, _, _, _, _, rfl, rfl, rfl, rfl, ⟨⟨cmxFree_of (by decide +kernel), by decide +kernel⟩, by decide +kernel⟩,
      by decide +kernel⟩,
    ⟨demo, 0, 0, 4, _, _, _, rfl, rfl, rfl, ⟨⟨cmxFree_of (by decide +kernel), by decide +kernel⟩, by decide +kernel⟩,
      by decide +kernel⟩,
    ⟨demo, 0, 0, 0, _, _, _, rfl, rfl, rfl, ⟨⟨cmxFree_of (by decide +kernel), by decide +kernel⟩, by decide +kernel⟩,
      by decide +kernel⟩,
    ⟨demo, 0, 0, 1, _, _, _, rfl, rfl, rfl, ⟨⟨cmxFree_of (by decide +kernel), by decide +kernel⟩, by decide +kernel⟩,
      by decide +kernel⟩,
    ⟨demo, 0, 3, 1, _, _, _, rfl, rfl, rfl, ⟨⟨cmxFree_of (by decide +kernel), by decide +kernel⟩, by decide +kernel⟩,
      by decide +kernel⟩,
    ⟨demo, 0, 0, 2, _, _, _, rfl, rfl, rfl, ⟨⟨cmxFree_of (by decide +kernel), by decide +kernel⟩, by decide +kernel⟩,
      by decide +kernel⟩,
    ⟨demo, 0, 0, 0, _, _, _, rfl, rfl, rfl, ⟨⟨cmxFree_of (by decide +kernel), by decide +kernel⟩, by decide +kernel⟩,
      by decide +kernel⟩,
    ⟨demo, 0, 0, 0, _, _, _, rfl, rfl, rfl, ⟨⟨cmxFree_of (by decide +kernel), by decide +kernel⟩, by decide +kernel⟩,
      by decide +kernel⟩,
    ⟨demo, 0, 0, 0, _, _, _, rfl, rfl, rfl, ⟨⟨cmxFree_of (by decide +kernel), by decide +kernel⟩, by decide +kernel⟩,
      by decide +kernel⟩,
    ⟨demo, 0, 0, 0, _, _, _, rfl, rfl, rfl, ⟨⟨cmxFree_of (by decide +kernel), by decide +kernel⟩, by decide +kernel⟩,
      by decide +kernel⟩,
    ⟨demo, 0, 0, 0, _, _, _, rfl, rfl, rfl, ⟨⟨cmxFree_of (by decide +kernel), by decide +kernel⟩, by decide +kernel⟩,
      by decide +kernel⟩,
    ⟨tapOpen, 2, 0, 1, _, _, _, rfl, rfl, rfl, ⟨⟨cmxFree_of (by decide +kernel), by decide +kernel⟩, by decide +kernel⟩,
      by decide +kernel⟩,
    ⟨tapOpen, 2, 0, 1, _, _, _, rfl, rfl, rfl, ⟨⟨cmxFree_of (by decide +kernel), by decide +kernel⟩, by decide +kernel⟩,
      by decide +kernel⟩,
    ⟨tapOpen, 2, 0, 0, _, _, _, rfl, rfl, rfl, ⟨⟨cmxFree_of (by decide +kernel), by decide +kernel⟩, by decide +kernel⟩,
      by decide +kernel⟩,
    ⟨demo, 1, 0, 1, _, _, _, rfl, rfl, rfl, ⟨⟨cmxFree_of (by decide +kernel), by decide +kernel⟩, by decide +kernel⟩,
      by decide +kernel⟩,
    ⟨demo.wr strB F.STR_BOOT_STATE 4, 0, 0, 0, _, _, _, rfl, rfl, rfl, ⟨⟨cmxFree_of (by decide +kernel), by decide +kernel⟩,
      by decide +kernel⟩, by decide +kernel⟩,
    ⟨demo.wr strB F.STR_BOOT_STATE 1, 0, 0, 7, _, _, _, rfl, rfl, rfl, ⟨⟨cmxFree_of (by decide +kernel), by decide +kernel⟩,
      by decide +kernel⟩, by decide +kernel⟩,
    ⟨demo.wr strB F.STR_BOOT_STATE 1, 0, 0, 0, _, _, _, rfl, rfl, rfl, ⟨⟨cmxFree_of (by decide +kernel), by decide +kernel⟩,
      by decide +kernel⟩, by decide +kernel⟩,
    ⟨demo, 1, 0, 0, _, _, _, rfl, rfl, rfl, ⟨⟨cmxFree_of (by decide +kernel), by decide +kernel⟩, by decide +kernel⟩,
      by decide +kernel⟩,
    ⟨demo, 3, 3, 4, _, _, _, rfl, rfl, rfl, ⟨⟨cmxFree_of (by decide +kernel), by decide +kernel⟩, by decide +kernel⟩,
      by decide +kernel⟩,
    ⟨demo.wr timB F.TIM_CTL_ELOCK 1, 0, 0, 0x77, _, _, _, _, 0, 0, rfl, rfl, rfl, rfl, ⟨⟨cmxFree_of (by decide +kernel),
      by decide +kernel⟩, by decide +kernel⟩, by decide +kernel⟩,
    ⟨demo.wr timB F.TIM_CTL_ELOCK 1, 0, 0, 0x77, _, _, _, _, 0, 0, rfl, rfl, rfl, rfl, ⟨⟨cmxFree_of (by decide +kernel),
      by decide +kernel⟩, by decide +kernel⟩, by decide +kernel⟩,
    ⟨demo, 0, 3, { kind := .evt, base := 0x50000, target := 5 }, _, _, _, 0x10, _, _, rfl, rfl, rfl, rfl, rfl,
      ⟨⟨cmxFree_of (by decide +kernel), by decide +kernel⟩, by decide +kernel⟩⟩,
    ⟨demo.wr timB F.TIM_CTL_ELOCK 1, 0, 0x77, { kind := .tim, base := 0x20000, target := 2 }, _, _, _, 12, _, _, rfl, rfl, rfl,
      rfl, rfl, ⟨cmxFree_of (by decide +kernel), by decide +kernel⟩, by decide +kernel⟩,
    ⟨demo, 1, 5, { kind := .pcr, base := 0x40000, target := 4 }, _, _, _, 0x108, _, _, rfl, rfl, rfl, rfl, rfl,
      ⟨cmxFree_of (by decide +kernel), by decide +kernel⟩, by decide +kernel⟩,
    ⟨demo, 0, 5, niUnit 0, _, _, _, 0x710, _, _, rfl, rfl, rfl, rfl, rfl, ⟨cmxFree_of (by decide +kernel), by decide +kernel⟩,
      by decide +kernel⟩,
    ⟨demo, 5, _, _, _, wrq (niB 0 + 0x720) 5, niUnit 0, rfl, rfl, rfl, by decide +kernel⟩,
    ⟨demo, 0, 5, _, _, _, wrq 0x200000 5, 5, rfl, rfl, rfl, cmxFree_of (by decide +kernel), by decide +kernel⟩⟩

/-- The premises of WrittenFieldsFollowTheirAccess are met. -/
theorem met_WrittenFieldsFollowTheirAccess : ∃ (rel : Nat), ∃ (u : Un), ∃ (x : RSpec), ∃ (f : FSpec),
    specAt rel (regsOf u.kind) = some x ∧ f ∈ x.fields :=
  ⟨0x404, niUnit 0, lateCfg, ({ lo := 4, w := 4, acc := .rw, rst := .v 10, lock := .free, cov := true } : FSpec),
    by decide +kernel⟩

/-- The premises of RawWritesLoseTheirChecks are met. -/
theorem met_RawWritesLoseTheirChecks :
    (∃ (s : State), ∃ (m n : Nat), ∃ (u : Un), ∃ (e w x rel b : Nat), s.Reaches m u rel ∧ (n < 256 ∧ s.hasNi n = true ∧
      u = niUnit n ∧ rel = 0x1000 + 16 * e + 8 * w ∨ b = n - 256 ∧ 256 ≤ n ∧ s.hasSpan b = true ∧
      u = { kind := .sp, i := b, base := spB b, target := 592 + b } ∧ rel = 0x4000 + 16 * e + 8 * w) ∧ e < 260 ∧ w < 2 ∧
      x < 2 ^ 64 ∧ entryWired s.rom n e = false ∧ s.refuses m u [(rel, x % 2 ^ 32), (rel + 4, x / 2 ^ 32)] = false) ∧
    (∃ (s : State), ∃ (m n : Nat), ∃ (u : Un), ∃ (e w x rel b : Nat), s.Reaches m u rel ∧ (n < 256 ∧ s.hasNi n = true ∧
      u = niUnit n ∧ rel = 0x1000 + 16 * e + 8 * w ∨ b = n - 256 ∧ 256 ≤ n ∧ s.hasSpan b = true ∧
      u = { kind := .sp, i := b, base := spB b, target := 592 + b } ∧ rel = 0x4000 + 16 * e + 8 * w) ∧ e < 260 ∧ w < 2 ∧
      x < 2 ^ 64 ∧ entryWired s.rom n e = true ∧ s.refuses m u [(rel, x % 2 ^ 32), (rel + 4, x / 2 ^ 32)] = false) ∧
    (∃ (s : State), ∃ (m n : Nat), ∃ (u : Un), ∃ (j w : Nat), ∃ (v : Word), u = niUnit n ∧
      s.Goes m u (0x450 + 8 * j + 4 * w) (BitVec.toNat v) ∧ s.hasNi n = true ∧ j < 16 ∧ w < 2) ∧
    (∃ (s : State), ∃ (m n : Nat), ∃ (u : Un), ∃ (k w : Nat), ∃ (v : Word), u = niUnit n ∧
      s.Goes m u (0x580 + 16 * k + 4 * w) (BitVec.toNat v) ∧ s.hasNi n = true ∧ k < 16 ∧ k ≠ 8 ∧ w < 2) :=
  ⟨⟨demo, 0, 256, { kind := .sp, i := 0, base := 0xA00000, target := 592 }, 0, 0, 5, 16384, 0, ⟨cmxFree_of (by decide +kernel),
    by decide +kernel⟩, by decide +kernel⟩,
    ⟨demo, 0, 256, { kind := .sp, i := 0, base := 0xA00000, target := 592 }, 259, 0, 5, 20528, 0,
      ⟨cmxFree_of (by decide +kernel), by decide +kernel⟩, by decide +kernel⟩,
    ⟨demo.wr (niB 0) (F.NI_SC0_RSV0_GRANTED.ix 3) 1, 0, 0, _, 3, 1, 5, rfl, ⟨⟨cmxFree_of (by decide +kernel), by decide +kernel⟩,
      by decide +kernel⟩, by decide +kernel⟩,
    ⟨demo.wr (niB 0) (shpGranted 3) 1, 0, 0, _, 3, 0, 5, rfl, ⟨⟨cmxFree_of (by decide +kernel), by decide +kernel⟩,
      by decide +kernel⟩, by decide +kernel⟩⟩

/-- The premises of NiRegisterWritesAct are met. -/
theorem met_NiRegisterWritesAct :
    (∃ (s : State), ∃ (m n : Nat), ∃ (v : Word), ∃ (u : Un), u = niUnit n ∧ s.Goes m u 0x404 (v ||| 0x100#32).toNat ∧
      s.hasNi n = true) ∧
    (∃ (s : State), ∃ (m n : Nat), ∃ (v : Word), ∃ (u : Un), u = niUnit n ∧ s.Goes m u 0x404 v.toNat ∧ s.hasNi n = true ∧
      bitAt v.toNat 0 = false) ∧
    (∃ (s : State), ∃ (m n : Nat), ∃ (v : Word), ∃ (u : Un), u = niUnit n ∧ s.Goes m u 0x404 v.toNat ∧ s.hasNi n = true ∧
      bitAt v.toNat 0 = true) ∧
    (∃ (s : State), ∃ (m n : Nat), ∃ (v : Word), ∃ (u : Un), u = niUnit n ∧ s.Goes m u 0x404 v.toNat ∧ s.hasNi n = true ∧
      bitAt v.toNat 0 = true) ∧
    (∃ (s : State), ∃ (m n : Nat), ∃ (v : Word), ∃ (u : Un), ∃ (q : Nat), u = niUnit n ∧ s.Goes m u 0x50C v.toNat ∧
      s.hasNi n = true ∧ s.qSel n = some q ∧ ((s.ni n).q q).pkts ≠ []) ∧
    (∃ (s : State), ∃ (m n : Nat), ∃ (v : Word), ∃ (u : Un), u = niUnit n ∧ s.Goes m u 0x50C v.toNat ∧ s.hasNi n = true ∧
      s.qSel n = none) ∧
    (∃ (s : State), ∃ (m n : Nat), ∃ (v : Word), ∃ (u : Un), ∃ (q : Nat), u = niUnit n ∧ s.Goes m u 0x50C v.toNat ∧
      s.hasNi n = true ∧ s.qSel n = some q ∧ ((s.ni n).q q).pkts = []) ∧
    (∃ (s : State), ∃ (m n : Nat), ∃ (v : Word), ∃ (u : Un), u = niUnit n ∧ s.Goes m u 0x504 (v ||| 0x80000000#32).toNat ∧
      s.hasNi n = true) ∧
    (∃ (s : State), ∃ (m n : Nat), ∃ (v : Word), ∃ (u : Un), u = niUnit n ∧ s.Goes m u 0x700 (v ||| 1#32).toNat ∧
      s.hasNi n = true ∧ bitAt v.toNat 1 = false ∧ s.flag (niB n) F.NI_GATE_STAT_PENDING = false ∧ s.gateCheck n = 0) ∧
    (∃ (s : State), ∃ (m n : Nat), ∃ (v : Word), ∃ (u : Un), u = niUnit n ∧ s.Goes m u 0x700 (v ||| 1#32).toNat ∧
      s.hasNi n = true ∧ bitAt v.toNat 1 = false ∧ s.flag (niB n) F.NI_GATE_STAT_PENDING = false ∧ s.gateCheck n ≠ 0) ∧
    (∃ (s : State), ∃ (m n : Nat), ∃ (v : Word), ∃ (u : Un), u = niUnit n ∧ s.Goes m u 0x700 (v ||| 2#32).toNat ∧
      s.hasNi n = true ∧ bitAt v.toNat 0 = false) ∧
    (∃ (s : State), ∃ (m n : Nat), ∃ (v : Word), ∃ (u : Un), ∃ (k : Nat), u = niUnit n ∧ s.Goes m u 0x700 v.toNat ∧
      k = bitsAt v.toNat 9 2 ∧ s.hasNi n = true ∧ bitsAt v.toNat 0 2 = 0 ∧ bitAt v.toNat 8 = true ∧
      s.flag (niB n) F.NI_GATE_CTL_MARK_EN = false ∧ s.pinOwner k = 0 ∧ n < 256) ∧
    (∃ (s : State), ∃ (m n : Nat), ∃ (v : Word), ∃ (u : Un), ∃ (k : Nat), u = niUnit n ∧ s.Goes m u 0x700 v.toNat ∧
      k = bitsAt v.toNat 9 2 ∧ s.hasNi n = true ∧ bitsAt v.toNat 0 2 = 0 ∧ bitAt v.toNat 8 = true ∧
      s.flag (niB n) F.NI_GATE_CTL_MARK_EN = false ∧ s.pinFree k 3 n = false) ∧
    (∃ (s : State), ∃ (m n : Nat), ∃ (v : Word), ∃ (u : Un), u = niUnit n ∧ s.Goes m u 0x700 v.toNat ∧ s.hasNi n = true ∧
      bitsAt v.toNat 0 2 = 0 ∧ bitAt v.toNat 8 = false) ∧
    (∃ (s : State), ∃ (m n : Nat), ∃ (v : Word), ∃ (u : Un), u = niUnit n ∧ s.Goes m u 0x700 (v ||| 1#32).toNat ∧
      s.hasNi n = true ∧ bitAt v.toNat 1 = false ∧ s.flag (niB n) F.NI_GATE_STAT_PENDING = true) ∧
    (∃ (s : State), ∃ (m n : Nat), ∃ (v : Word), ∃ (u : Un), u = niUnit n ∧ s.Goes m u 0xD04 v.toNat ∧ s.hasNi n = true ∧
      bitAt v.toNat 0 = true ∧ (s.ni n).reseqOwner = 2 ∧ s.claimedNow (reseqRes n) = true) ∧
    (∃ (s : State), ∃ (m n : Nat), ∃ (v : Word), ∃ (u : Un), u = niUnit n ∧ s.Goes m u 0xD04 v.toNat ∧ s.hasNi n = true ∧
      s.claimedNow (reseqRes n) = false) ∧
    (∃ (s : State), ∃ (m n : Nat), ∃ (v : Word), ∃ (u : Un), u = niUnit n ∧ s.Goes m u 0xD04 v.toNat ∧ s.hasNi n = true ∧
      s.claimedNow (reseqRes n) = false) ∧
    (∃ (s : State), ∃ (m n : Nat), ∃ (v : Word), ∃ (u : Un), u = niUnit n ∧ s.Goes m u 0xD04 v.toNat ∧ s.hasNi n = true ∧
      s.claimedNow (reseqRes n) = false) ∧
    (∃ (s : State), ∃ (m n : Nat), ∃ (v : Word), ∃ (u : Un), u = niUnit n ∧ s.Goes m u 0xE40 (v ||| 2#32).toNat ∧
      s.hasNi n = true) ∧
    (∃ (s : State), ∃ (m n : Nat), ∃ (v : Word), ∃ (u : Un), u = niUnit n ∧ s.Goes m u 0xE40 v.toNat ∧ s.hasNi n = true ∧
      bitsAt v.toNat 1 2 = 2 ∧ bitAt v.toNat 3 = false ∧ s.flag (niB n) F.NI_MIG_CTL_HOLD = false ∧ (s.ni n).reseqOwner = 0) ∧
    (∃ (s : State), ∃ (m n : Nat), ∃ (v : Word), ∃ (u : Un), u = niUnit n ∧ s.Goes m u 0xE40 v.toNat ∧ s.hasNi n = true ∧
      bitsAt v.toNat 1 3 = 2 ∧ s.flag (niB n) F.NI_MIG_CTL_HOLD = false ∧ (s.ni n).reseqOwner = 1) ∧
    (∃ (s : State), ∃ (m n : Nat), ∃ (v : Word), ∃ (u : Un), u = niUnit n ∧ s.Goes m u 0xE40 v.toNat ∧ s.hasNi n = true ∧
      bitsAt v.toNat 1 3 = 0 ∧ (s.ni n).reseqOwner = 2 ∧ s.flag (niB n) F.NI_MIG_CTL_HOLD = false) ∧
    (∃ (s : State), ∃ (m n : Nat), ∃ (v : Word), ∃ (u : Un), u = niUnit n ∧ s.Goes m u 0xE40 v.toNat ∧ s.hasNi n = true ∧
      bitAt v.toNat 1 = false ∧ bitAt v.toNat 3 = false) ∧
    (∃ (s : State), ∃ (m n : Nat), ∃ (v : Word), ∃ (u : Un), u = niUnit n ∧ s.Goes m u 0xE40 v.toNat ∧ s.hasNi n = true ∧
      bitsAt v.toNat 1 3 = 6 ∧ s.flag (niB n) F.NI_MIG_CTL_STAGE = true) ∧
    (∃ (s : State), ∃ (m n : Nat), ∃ (v : Word), ∃ (u : Un), u = niUnit n ∧ s.Goes m u 0x300 (v &&& 0xFFFFFFEF#32).toNat ∧
      s.hasNi n = true) ∧
    (∃ (s : State), ∃ (m n : Nat), ∃ (v : Word), ∃ (u : Un), u = niUnit n ∧ s.Goes m u 0x318 (v ||| 0x40000000#32).toNat ∧
      s.hasNi n = true) :=
  ⟨⟨demo.wr (niB 0) F.NI_LAT_MAX_VALUE 9, 0, 0, 0, _, rfl, ⟨⟨cmxFree_of (by decide +kernel), by decide +kernel⟩,
    by decide +kernel⟩, by decide +kernel⟩,
    ⟨ni0 { demoNi with reseqOwner := 1 }, 0, 0, 0, _, rfl, ⟨⟨cmxFree_of (by decide +kernel), by decide +kernel⟩,
      by decide +kernel⟩, by decide +kernel⟩,
    ⟨demo, 0, 0, 1, _, rfl, ⟨⟨cmxFree_of (by decide +kernel), by decide +kernel⟩, by decide +kernel⟩, by decide +kernel⟩,
    ⟨ni0 { demoNi with timer := 1 }, 0, 0, 1, _, rfl, ⟨⟨cmxFree_of (by decide +kernel), by decide +kernel⟩, by decide +kernel⟩,
      by decide +kernel⟩,
    ⟨ni0 { demoNi with qs := [(0, { cls := 0, pkts := [{ ser := 1, ptype := 0, op := 0, vn := 0, sc := 2, e := 1, dest := 1, len := 8, isReq := true }] })] },
      0, 0, 0x50003, _, 0, rfl, ⟨⟨cmxFree_of (by decide +kernel), by decide +kernel⟩, by decide +kernel⟩, by decide +kernel⟩,
    ⟨demo.wr (niB 0) F.NI_Q_IDX_QUEUE 16, 0, 0, 0x50003, _, rfl, ⟨⟨cmxFree_of (by decide +kernel), by decide +kernel⟩,
      by decide +kernel⟩, by decide +kernel⟩,
    ⟨ni0 { demoNi with qs := [(0, { cls := 0, pkts := [{ ser := 1, ptype := 0, op := 0, vn := 0, sc := 2, e := 1, dest := 1, len := 8, isReq := true }] })] },
      0, 1, 0x50003, _, 0, rfl, ⟨⟨cmxFree_of (by decide +kernel), by decide +kernel⟩, by decide +kernel⟩, by decide +kernel⟩,
    ⟨ni0 { demoNi with qs := [(0, { cls := 0, sdMax := 9, dlMax := 8 })] }, 0, 0, 0, _, rfl, ⟨⟨cmxFree_of (by decide +kernel),
      by decide +kernel⟩, by decide +kernel⟩, by decide +kernel⟩,
    ⟨admin, 0, 0, 0x10, _, rfl, ⟨⟨cmxFree_of (by decide +kernel), by decide +kernel⟩, by decide +kernel⟩, by decide +kernel⟩,
    ⟨demo, 0, 0, 0x10, _, rfl, ⟨⟨cmxFree_of (by decide +kernel), by decide +kernel⟩, by decide +kernel⟩, by decide +kernel⟩,
    ⟨admin.wr (niB 0) F.NI_GATE_STAT_PENDING 1, 0, 0, 0x10, _, rfl, ⟨⟨cmxFree_of (by decide +kernel), by decide +kernel⟩,
      by decide +kernel⟩, by decide +kernel⟩,
    ⟨demo, 0, 0, 0x500, _, _, rfl, ⟨⟨cmxFree_of (by decide +kernel), by decide +kernel⟩, by decide +kernel⟩, rfl,
      by decide +kernel⟩,
    ⟨on (cmd 3 [0, 2]) (demo.setPin 2 1 0), 0, 0, 0x500, _, _, rfl, ⟨⟨cmxFree_of (by decide +kernel), by decide +kernel⟩,
      by decide +kernel⟩, rfl, by decide +kernel⟩,
    ⟨demo, 0, 0, 4, _, rfl, ⟨⟨cmxFree_of (by decide +kernel), by decide +kernel⟩, by decide +kernel⟩, by decide +kernel⟩,
    ⟨(admin.wr (niB 0) F.NI_GATE_STAT_PENDING 1), 0, 0, 0x10, _, rfl, ⟨⟨cmxFree_of (by decide +kernel), by decide +kernel⟩,
      by decide +kernel⟩, by decide +kernel⟩,
    ⟨{ ni0 { demoNi with reseqOwner := 2 } with claimAt := [(17, 1)] }, 0, 0, 1, _, rfl, ⟨⟨cmxFree_of (by decide +kernel),
      by decide +kernel⟩, by decide +kernel⟩, by decide +kernel⟩,
    ⟨demo, 0, 0, 1, _, rfl, ⟨⟨cmxFree_of (by decide +kernel), by decide +kernel⟩, by decide +kernel⟩, by decide +kernel⟩,
    ⟨ni0 { demoNi with reseqOwner := 2 }, 0, 0, 1, _, rfl, ⟨⟨cmxFree_of (by decide +kernel), by decide +kernel⟩,
      by decide +kernel⟩, by decide +kernel⟩,
    ⟨ni0 { demoNi with reseqOwner := 1 }, 0, 0, 0, _, rfl, ⟨⟨cmxFree_of (by decide +kernel), by decide +kernel⟩,
      by decide +kernel⟩, by decide +kernel⟩,
    ⟨ni0 { demoNi with migA := 5 }, 0, 0, 0, _, rfl, ⟨⟨cmxFree_of (by decide +kernel), by decide +kernel⟩, by decide +kernel⟩,
      by decide +kernel⟩,
    ⟨demo, 0, 0, 4, _, rfl, ⟨⟨cmxFree_of (by decide +kernel), by decide +kernel⟩, by decide +kernel⟩, by decide +kernel⟩,
    ⟨ni0 { demoNi with reseqOwner := 1 }, 0, 0, 5, _, rfl, ⟨⟨cmxFree_of (by decide +kernel), by decide +kernel⟩,
      by decide +kernel⟩, by decide +kernel⟩,
    ⟨ni0 { demoNi with reseqOwner := 2 }, 0, 0, 1, _, rfl, ⟨⟨cmxFree_of (by decide +kernel), by decide +kernel⟩,
      by decide +kernel⟩, by decide +kernel⟩,
    ⟨demo, 0, 0, 1, _, rfl, ⟨⟨cmxFree_of (by decide +kernel), by decide +kernel⟩, by decide +kernel⟩, by decide +kernel⟩,
    ⟨(ni0 { demoNi with reseqOwner := 2 }).wr (niB 0) F.NI_MIG_CTL_STAGE 1, 0, 0, 12, _, rfl, ⟨⟨cmxFree_of (by decide +kernel),
      by decide +kernel⟩, by decide +kernel⟩, by decide +kernel⟩,
    ⟨demo.wr (niB 0) F.NI_ORD_CFG_SB_EN 1, 0, 0, 0x30, _, rfl, ⟨⟨cmxFree_of (by decide +kernel), by decide +kernel⟩,
      by decide +kernel⟩, by decide +kernel⟩,
    ⟨demo.wr (niB 0) F.NI_SB_LOG_INFO_VALID 1, 0, 0, 0, _, rfl, ⟨⟨cmxFree_of (by decide +kernel), by decide +kernel⟩,
      by decide +kernel⟩, by decide +kernel⟩⟩

/-- The premises of BlockRegisterWritesAct are met. -/
theorem met_BlockRegisterWritesAct :
    (∃ (s : State), ∃ (m : Nat), ∃ (v : Word), ∃ (blk : Nat → UK → Un),
      blk = (fun b k => { kind := k, base := b * 0x10000, target := b }) ∧ s.Goes m (blk 2 .tim) 0x10 (v ||| 1#32).toNat) ∧
    (∃ (s : State), ∃ (m : Nat), ∃ (v : Word), ∃ (blk : Nat → UK → Un),
      blk = (fun b k => { kind := k, base := b * 0x10000, target := b }) ∧ s.Goes m (blk 2 .tim) 0x10 (v ||| 2#32).toNat) ∧
    (∃ (s : State), ∃ (m : Nat), ∃ (v : Word), ∃ (blk : Nat → UK → Un),
      blk = (fun b k => { kind := k, base := b * 0x10000, target := b }) ∧ s.Goes m (blk 2 .tim) 0 (v ||| 0x100#32).toNat) ∧
    (∃ (s : State), ∃ (m : Nat), ∃ (v : Word), ∃ (blk : Nat → UK → Un), ∃ (k : Nat),
      blk = (fun b k => { kind := k, base := b * 0x10000, target := b }) ∧ s.Goes m (blk 2 .tim) (0x80 + 8 * k) v.toNat ∧ k < 4 ∧
      bitAt v.toNat 0 = true) ∧
    (∃ (s : State), ∃ (m : Nat), ∃ (v : Word), ∃ (blk : Nat → UK → Un), ∃ (k : Nat),
      blk = (fun b k => { kind := k, base := b * 0x10000, target := b }) ∧ s.Goes m (blk 2 .tim) (0x80 + 8 * k) v.toNat ∧ k < 4 ∧
      bitAt v.toNat 0 = false) ∧
    (∃ (s : State), ∃ (m : Nat), ∃ (v : Word), ∃ (blk : Nat → UK → Un), ∃ (g : Nat),
      blk = (fun b k => { kind := k, base := b * 0x10000, target := b }) ∧ s.Goes m (blk 0 .glb) 0xC0 v.toNat ∧ v.toNat = 2 ^ g ∧
      s.hasRegion g = true ∧ g ≠ s.rom.homeRegion) ∧
    (∃ (s : State), ∃ (m : Nat), ∃ (v : Word), ∃ (blk : Nat → UK → Un), ∃ (n : Nat),
      blk = (fun b k => { kind := k, base := b * 0x10000, target := b }) ∧
      s.Goes m (blk 0 .glb) 0xC4 (v ||| 0x80000000#32).toNat ∧ n = bitsAt v.toNat 0 8 ∧ s.hasNi n = true) ∧
    (∃ (s : State), ∃ (m : Nat), ∃ (v : Word), ∃ (blk : Nat → UK → Un),
      blk = (fun b k => { kind := k, base := b * 0x10000, target := b }) ∧
      s.Goes m (blk 0 .glb) 0xC4 (v ||| 0x80000000#32).toNat ∧ s.hasNi (bitsAt v.toNat 0 8) = false) ∧
    (∃ (s : State), ∃ (m : Nat), ∃ (v : Word), ∃ (blk : Nat → UK → Un),
      blk = (fun b k => { kind := k, base := b * 0x10000, target := b }) ∧
      s.Goes m (blk 5 .evt) 0x200 (v ||| 0x40000000#32).toNat) ∧
    (∃ (s : State), ∃ (m : Nat), ∃ (v : Word), ∃ (blk : Nat → UK → Un),
      blk = (fun b k => { kind := k, base := b * 0x10000, target := b }) ∧
      s.Goes m (blk 5 .evt) 0x210 (v ||| 0x40000000#32).toNat) ∧
    (∃ (s : State), ∃ (m : Nat), ∃ (v : Word), ∃ (blk : Nat → UK → Un),
      blk = (fun b k => { kind := k, base := b * 0x10000, target := b }) ∧
      s.Goes m (blk 5 .evt) 0x804 (v &&& 0xFFFFFFFC#32 ||| 1#32).toNat) ∧
    (∃ (s : State), ∃ (m : Nat), ∃ (v : Word), ∃ (blk : Nat → UK → Un),
      blk = (fun b k => { kind := k, base := b * 0x10000, target := b }) ∧ s.Goes m (blk 5 .evt) 0x804 (v ||| 3#32).toNat) ∧
    (∃ (s : State), ∃ (m : Nat), ∃ (v : Word), ∃ (blk : Nat → UK → Un), ∃ (d : Un),
      blk = (fun b k => { kind := k, base := b * 0x10000, target := b }) ∧ d = { kind := .dbg, base := 0xC0000, target := 10 } ∧
      s.Goes m d 0x10 v.toNat ∧ bitsAt v.toNat 0 3 = 1 ∧ s.flag dbgB F.DBG_TRC_CTL_EN = false) ∧
    (∃ (s : State), ∃ (m : Nat), ∃ (v : Word), ∃ (blk : Nat → UK → Un), ∃ (d : Un),
      blk = (fun b k => { kind := k, base := b * 0x10000, target := b }) ∧ d = { kind := .dbg, base := 0xC0000, target := 10 } ∧
      s.Goes m d 4 v.toNat ∧ (m = 1 ∨ m = 2) ∧ bitsAt v.toNat 0 2 = 1 ∧ bitAt v.toNat 8 = false ∧ s.rd dbgB F.DBG_STAT_TEST = 0) ∧
    (∃ (s : State), ∃ (m : Nat), ∃ (v : Word), ∃ (blk : Nat → UK → Un), ∃ (d : Un),
      blk = (fun b k => { kind := k, base := b * 0x10000, target := b }) ∧ d = { kind := .dbg, base := 0xC0000, target := 10 } ∧
      s.Goes m d 0x10 v.toNat ∧ bitAt v.toNat 0 = false ∧ s.flag dbgB F.DBG_TRC_CTL_EN = true) ∧
    (∃ (s : State), ∃ (m : Nat), ∃ (v : Word), ∃ (blk : Nat → UK → Un), ∃ (d : Un),
      blk = (fun b k => { kind := k, base := b * 0x10000, target := b }) ∧ d = { kind := .dbg, base := 0xC0000, target := 10 } ∧
      s.Goes m d 0x10 v.toNat ∧ bitAt v.toNat 0 = s.flag dbgB F.DBG_TRC_CTL_EN) ∧
    (∃ (s : State), ∃ (m : Nat), ∃ (v : Word), ∃ (blk : Nat → UK → Un), ∃ (d : Un),
      blk = (fun b k => { kind := k, base := b * 0x10000, target := b }) ∧ d = { kind := .dbg, base := 0xC0000, target := 10 } ∧
      s.Goes m d 4 v.toNat ∧ bitAt v.toNat 8 = false ∧ (m ≠ 1 ∧
      m ≠ 2 ∨ s.rd dbgB F.DBG_STAT_TEST = 2 ∨ bitsAt v.toNat 0 2 = 3 ∨ bitsAt v.toNat 0 2 = s.rd dbgB F.DBG_STAT_TEST)) ∧
    (∃ (s : State), ∃ (m : Nat), ∃ (v : Word), ∃ (blk : Nat → UK → Un), ∃ (d : Un),
      blk = (fun b k => { kind := k, base := b * 0x10000, target := b }) ∧ d = { kind := .dbg, base := 0xC0000, target := 10 } ∧
      s.Goes m d 4 v.toNat ∧ (m = 1 ∨ m = 2) ∧ bitsAt v.toNat 0 2 = 0 ∧ bitAt v.toNat 8 = false ∧ s.rd dbgB F.DBG_STAT_TEST = 1) ∧
    (∃ (s : State), ∃ (m : Nat), ∃ (v : Word), ∃ (blk : Nat → UK → Un), ∃ (d : Un),
      blk = (fun b k => { kind := k, base := b * 0x10000, target := b }) ∧ d = { kind := .dbg, base := 0xC0000, target := 10 } ∧
      s.Goes m d 4 (v ||| 0x100#32).toNat) ∧
    (∃ (s : State), ∃ (m : Nat), ∃ (v : Word), ∃ (blk : Nat → UK → Un),
      blk = (fun b k => { kind := k, base := b * 0x10000, target := b }) ∧ s.Goes m (blk 7 .cmx) 0 v.toNat) ∧
    (∃ (s : State), ∃ (m : Nat), ∃ (v : Word), ∃ (blk : Nat → UK → Un),
      blk = (fun b k => { kind := k, base := b * 0x10000, target := b }) ∧ s.Goes m (blk 1 .str) 0xC (v ||| 1#32).toNat ∧
      bitAt v.toNat 1 = false ∧ (s.rd strB F.STR_BOOT_STATE = 1 ∨ s.rd strB F.STR_BOOT_STATE = 4)) ∧
    (∃ (s : State), ∃ (m : Nat), ∃ (v : Word), ∃ (blk : Nat → UK → Un),
      blk = (fun b k => { kind := k, base := b * 0x10000, target := b }) ∧ s.Goes m (blk 1 .str) 0xC (v ||| 1#32).toNat ∧
      bitAt v.toNat 1 = false ∧ s.rd strB F.STR_BOOT_STATE ≠ 1 ∧ s.rd strB F.STR_BOOT_STATE ≠ 4) ∧
    (∃ (s : State), ∃ (m : Nat), ∃ (v : Word), ∃ (blk : Nat → UK → Un), ∃ (i : Nat) (p : Nat),
      blk = (fun b k => { kind := k, base := b * 0x10000, target := b }) ∧ s.Goes m (blk 1 .str) 0x10 v.toNat ∧
      p = s.rd strB F.STR_LOAD_CTL_PTR ∧ i < 4) ∧
    (∃ (s : State), ∃ (m : Nat), ∃ (v : Word), ∃ (blk : Nat → UK → Un),
      blk = (fun b k => { kind := k, base := b * 0x10000, target := b }) ∧ s.Goes m (blk 1 .str) 0xC (v ||| 2#32).toNat ∧
      bitAt v.toNat 0 = false ∧ s.rd strB F.STR_BOOT_STATE = 1) ∧
    (∃ (s : State), ∃ (m : Nat), ∃ (v : Word), ∃ (blk : Nat → UK → Un),
      blk = (fun b k => { kind := k, base := b * 0x10000, target := b }) ∧
      s.Goes m (blk 1 .str) 0x34 (v ||| 0x80000000#32).toNat) ∧
    (∃ (s : State), ∃ (m : Nat), ∃ (v : Word), ∃ (blk : Nat → UK → Un), ∃ (k : Nat),
      blk = (fun b k => { kind := k, base := b * 0x10000, target := b }) ∧
      s.Goes m (blk 1 .str) (0x200 + 16 * k) (v ||| 1#32).toNat ∧ k < 4 ∧ s.rd strB (F.STR_MBX_BUSY.ix k) = 0) ∧
    (∃ (s : State), ∃ (m : Nat), ∃ (v : Word), ∃ (blk : Nat → UK → Un), ∃ (k : Nat),
      blk = (fun b k => { kind := k, base := b * 0x10000, target := b }) ∧
      s.Goes m (blk 1 .str) (0x200 + 16 * k) (v ||| 1#32).toNat ∧ k < 4 ∧ s.rd strB (F.STR_MBX_BUSY.ix k) = 1) :=
  ⟨⟨{ demo with time := { ft := 10000 * 2 ^ 32 } }, 0, 0, _, rfl, ⟨⟨cmxFree_of (by decide +kernel), by decide +kernel⟩,
    by decide +kernel⟩⟩,
    ⟨demo.wr timB F.TIM_SKEW_MAX 4, 0, 0, _, rfl, ⟨⟨cmxFree_of (by decide +kernel), by decide +kernel⟩, by decide +kernel⟩⟩,
    ⟨demo, 0, 1, _, rfl, ⟨⟨cmxFree_of (by decide +kernel), by decide +kernel⟩, by decide +kernel⟩⟩,
    ⟨demo.setPin 3 4 0, 0, 1, _, 3, rfl, ⟨⟨cmxFree_of (by decide +kernel), by decide +kernel⟩, by decide +kernel⟩,
      by decide +kernel⟩,
    ⟨ni0 { demoNi with tags := [(0, some { ser := 5, id := 3, code := 0, sc := 2, slice := 0, pid := 0, addr := 64, len := 8, dkey := 1 })] },
      0, 0, _, 0, rfl, ⟨⟨cmxFree_of (by decide +kernel), by decide +kernel⟩, by decide +kernel⟩, by decide +kernel⟩,
    ⟨demo, 0, 2, _, 1, rfl, ⟨⟨cmxFree_of (by decide +kernel), by decide +kernel⟩, by decide +kernel⟩, by decide +kernel⟩,
    ⟨ni0 { demoNi with tags := [(0, some { ser := 5, id := 3, code := 0, sc := 2, slice := 0, pid := 0, addr := 64, len := 8, dkey := 1 })] },
      0, 0, _, _, rfl, ⟨⟨cmxFree_of (by decide +kernel), by decide +kernel⟩, by decide +kernel⟩, rfl, by decide +kernel⟩,
    ⟨demo, 0, 2, _, rfl, ⟨⟨cmxFree_of (by decide +kernel), by decide +kernel⟩, by decide +kernel⟩, by decide +kernel⟩,
    ⟨demo.wr evtB F.EVT_FIRST_INFO_VALID 1, 0, 0, _, rfl, ⟨⟨cmxFree_of (by decide +kernel), by decide +kernel⟩,
      by decide +kernel⟩⟩,
    ⟨demo.wr evtB F.EVT_NEXT_INFO_VALID 1, 0, 0, _, rfl, ⟨⟨cmxFree_of (by decide +kernel), by decide +kernel⟩,
      by decide +kernel⟩⟩,
    ⟨demo, 0, 0, _, rfl, ⟨⟨cmxFree_of (by decide +kernel), by decide +kernel⟩, by decide +kernel⟩⟩,
    ⟨demo, 0, 0, _, rfl, ⟨⟨cmxFree_of (by decide +kernel), by decide +kernel⟩, by decide +kernel⟩⟩,
    ⟨demo.wr dbgB F.DBG_STAT_FUSE_DIS 0, 2, 1, _, _, rfl, rfl, ⟨⟨cmxFree_of (by decide +kernel), by decide +kernel⟩,
      by decide +kernel⟩, by decide +kernel⟩,
    ⟨demo.wr dbgB F.DBG_STAT_FUSE_DIS 0, 2, 1, _, _, rfl, rfl, ⟨⟨cmxFree_of (by decide +kernel), by decide +kernel⟩,
      by decide +kernel⟩, by decide +kernel⟩,
    ⟨(((demo.wr strB F.STR_BOOT_STATE 1).wr strB F.STR_LOAD_CTL_PTR 0x3FFFC).wr dbgB F.DBG_TRC_CTL_EN 1), 0, 0x01020304, _, _,
      rfl, rfl, ⟨⟨cmxFree_of (by decide +kernel), by decide +kernel⟩, by decide +kernel⟩, by decide +kernel⟩,
    ⟨on (cmd 0 []) (demo.wr dbgB F.DBG_STAT_FUSE_DIS 0), 2, 0, _, _, rfl, rfl, ⟨⟨cmxFree_of (by decide +kernel),
      by decide +kernel⟩, by decide +kernel⟩, by decide +kernel⟩,
    ⟨on (cmd 0 []) (demo.wr dbgB F.DBG_STAT_FUSE_DIS 0), 2, 0, _, _, rfl, rfl, ⟨⟨cmxFree_of (by decide +kernel),
      by decide +kernel⟩, by decide +kernel⟩, by decide +kernel⟩,
    ⟨((demo.wr strB F.STR_BOOT_STATE 4).wr dbgB F.DBG_STAT_TEST 1), 1, 0, _, _, rfl, rfl, ⟨⟨cmxFree_of (by decide +kernel),
      by decide +kernel⟩, by decide +kernel⟩, by decide +kernel⟩,
    ⟨on (cmd 0 []) (demo.wr dbgB F.DBG_STAT_FUSE_DIS 0), 2, 0, _, _, rfl, rfl, ⟨⟨cmxFree_of (by decide +kernel),
      by decide +kernel⟩, by decide +kernel⟩⟩,
    ⟨demo, 1, 1, _, rfl, ⟨⟨cmxFree_of (by decide +kernel), by decide +kernel⟩, by decide +kernel⟩⟩,
    ⟨demo.wr strB F.STR_BOOT_STATE 4, 0, 0, _, rfl, ⟨⟨cmxFree_of (by decide +kernel), by decide +kernel⟩, by decide +kernel⟩,
      by decide +kernel⟩,
    ⟨(((demo.wr strB F.STR_BOOT_STATE 4).wr strB F.STR_BOOT_STATE (1 + 1)).wr strB F.STR_BOOT_STATE (4 + 1)), 0, 0, _, rfl,
      ⟨⟨cmxFree_of (by decide +kernel), by decide +kernel⟩, by decide +kernel⟩, by decide +kernel⟩,
    ⟨(demo.wr strB F.STR_BOOT_STATE 1).wr strB F.STR_LOAD_CTL_PTR 0x3FFFC, 0, 0x01020304, _, 3, _, rfl,
      ⟨⟨cmxFree_of (by decide +kernel), by decide +kernel⟩, by decide +kernel⟩, rfl, by decide +kernel⟩,
    ⟨demo.wr strB F.STR_BOOT_STATE 1, 0, 0, _, rfl, ⟨⟨cmxFree_of (by decide +kernel), by decide +kernel⟩, by decide +kernel⟩,
      by decide +kernel⟩,
    ⟨{ demo with clock := 77 }, 1, 0, _, rfl, ⟨⟨cmxFree_of (by decide +kernel), by decide +kernel⟩, by decide +kernel⟩⟩,
    ⟨demo, 3, 0, _, 3, rfl, ⟨⟨cmxFree_of (by decide +kernel), by decide +kernel⟩, by decide +kernel⟩, by decide +kernel⟩,
    ⟨(demo.wr strB (F.STR_MBX_BUSY.ix 3) 1), 3, 0, _, 3, rfl, ⟨⟨cmxFree_of (by decide +kernel), by decide +kernel⟩,
      by decide +kernel⟩, by decide +kernel⟩⟩

/-- The premises of ClaimReleaseEndsTheClaim are met. -/
theorem met_ClaimReleaseEndsTheClaim :
    (∃ (s : State), ∃ (x i : Nat), ∃ (c : Cmd), i = c.p 8 8 ∧ s.Issued x 0x03 [(0, 2), (8, 8)] c ∧
      s.claimOk (c.p 0 2) i = false) ∧
    (∃ (s : State), ∃ (x i : Nat), ∃ (c : Cmd), i = c.p 8 8 ∧ s.Issued x 0x03 [(0, 2), (8, 8)] c ∧ s.claimOk (c.p 0 2) i = true ∧
      (c.p 0 2 = 0 ∧ ((s.claimOf 0 i).1 = 1 ∨ (s.claimOf 0 i).1 = 2) ∨ c.p 0 2 = 1 ∧ (s.claimOf 1 i).1 = 1 ∨ c.p 0 2 = 2 ∧
      (s.claimOf 2 i).1 = 2 ∧ s.flag (niB i) F.NI_MIG_CTL_HOLD = true)) ∧
    (∃ (s : State), ∃ (x i : Nat), ∃ (c : Cmd), i = c.p 8 8 ∧ s.Issued x 0x03 [(0, 2), (8, 8)] c ∧ s.claimOk (c.p 0 2) i = true ∧
      (c.p 0 2 = 0 ∧ ((s.claimOf 0 i).1 = 1 ∨ (s.claimOf 0 i).1 = 2) ∨ c.p 0 2 = 1 ∧ (s.claimOf 1 i).1 = 1 ∨ c.p 0 2 = 2 ∧
      (s.claimOf 2 i).1 = 2 ∧ s.flag (niB i) F.NI_MIG_CTL_HOLD = true)) ∧
    (∃ (s : State), ∃ (x i : Nat), ∃ (c : Cmd), i = c.p 8 8 ∧ s.Issued x 0x03 [(0, 2), (8, 8)] c ∧ s.claimOk (c.p 0 2) i = true ∧
      (c.p 0 2 = 0 ∧ ((s.claimOf 0 i).1 = 1 ∨ (s.claimOf 0 i).1 = 2) ∨ c.p 0 2 = 1 ∧ (s.claimOf 1 i).1 = 1 ∨ c.p 0 2 = 2 ∧
      (s.claimOf 2 i).1 = 2 ∧ s.flag (niB i) F.NI_MIG_CTL_HOLD = true)) ∧
    (∃ (s : State), ∃ (x i : Nat), ∃ (c : Cmd), i = c.p 8 8 ∧ s.Issued x 0x03 [(0, 2), (8, 8)] c ∧ s.claimOk (c.p 0 2) i = true ∧
      (s.claimOf (c.p 0 2) i).1 = 0) ∧
    (∃ (s : State), ∃ (x i : Nat), ∃ (c : Cmd), i = c.p 8 8 ∧ s.Issued x 0x03 [(0, 2), (8, 8)] c ∧ s.claimOk (c.p 0 2) i = true ∧
      c.p 0 2 = 0 ∧ (s.claimOf 0 i).1 = 3) ∧
    (∃ (s : State), ∃ (x i : Nat), ∃ (c : Cmd), i = c.p 8 8 ∧ s.Issued x 0x03 [(0, 2), (8, 8)] c ∧ s.claimOk (c.p 0 2) i = true ∧
      c.p 0 2 = 0 ∧ (s.claimOf 0 i).1 = 4) ∧
    (∃ (s : State), ∃ (x i : Nat), ∃ (c : Cmd), i = c.p 8 8 ∧ s.Issued x 0x03 [(0, 2), (8, 8)] c ∧ s.claimOk (c.p 0 2) i = true ∧
      c.p 0 2 = 1 ∧ (s.claimOf 1 i).1 = 2) ∧
    (∃ (s : State), ∃ (x i : Nat), ∃ (c : Cmd), i = c.p 8 8 ∧ s.Issued x 0x03 [(0, 2), (8, 8)] c ∧ s.claimOk (c.p 0 2) i = true ∧
      c.p 0 2 = 2 ∧ (s.claimOf 2 i).1 = 1) ∧
    (∃ (s : State), ∃ (x i : Nat), ∃ (c : Cmd), i = c.p 8 8 ∧ s.Issued x 0x03 [(0, 2), (8, 8)] c ∧ s.claimOk (c.p 0 2) i = true ∧
      c.p 0 2 = 2 ∧ (s.claimOf 2 i).1 = 2 ∧ s.flag (niB i) F.NI_MIG_CTL_HOLD = false) :=
  ⟨⟨on (cmd 3 [0, 7]) demo, 1, _, cmd 3 [0, 7], rfl, by decide +kernel⟩,
    ⟨on (cmd 3 [0, 2]) (demo.setPin 2 1 0), 1, _, cmd 3 [0, 2], rfl, by decide +kernel⟩,
    ⟨on (cmd 3 [1, 1]) (demo.setNi 1 { demoNi with timer := 1 }), 1, _, cmd 3 [1, 1], rfl, by decide +kernel⟩,
    ⟨on (cmd 3 [2, 1]) ((demo.setNi 1 { demoNi with reseqOwner := 2 }).wr (niB 1) F.NI_MIG_CTL_HOLD 1), 1, _, cmd 3 [2, 1], rfl,
      by decide +kernel⟩,
    ⟨on (cmd 3 [2, 0]) (demo), 1, _, cmd 3 [2, 0], rfl, by decide +kernel⟩,
    ⟨on (cmd 3 [0, 2]) ((demo.setPin 2 3 1).wr (niB 1) F.NI_GATE_CTL_MARK_EN 1), 1, _, cmd 3 [0, 2], rfl, by decide +kernel⟩,
    ⟨on (cmd 3 [0, 2]) (demo.setPin 2 4 0), 1, _, cmd 3 [0, 2], rfl, by decide +kernel⟩,
    ⟨on (cmd 3 [1, 1]) (demo.setNi 1 { demoNi with timer := 2 }), 1, _, cmd 3 [1, 1], rfl, by decide +kernel⟩,
    ⟨on (cmd 3 [2, 1]) (demo.setNi 1 { demoNi with reseqOwner := 1 }), 1, _, cmd 3 [2, 1], rfl, by decide +kernel⟩,
    ⟨on (cmd 3 [2, 1]) (demo.setNi 1 { demoNi with reseqOwner := 2 }), 1, _, cmd 3 [2, 1], rfl, by decide +kernel⟩⟩

/-! ### Chapter 19 of the statements -/

/-- NI 0's first alert, with its source not routed to a message. -/
def alerting : State := demo.wr evtB (F.EVT_ROUTE_MSG_EN.ix 0) 0

/-- The premises of OccurrenceSetsItsCauseAndIsLogged are met. -/
theorem met_OccurrenceSetsItsCauseAndIsLogged :
    (∃ (s : State), ∃ (k j i : Nat), (s.srcOf k j = none ∨ causeOf k i = false)) ∧
    (∃ (s : State), ∃ (k j i : Nat), ∃ (x : Src), s.srcOf k j = some x ∧ causeOf k i = true) ∧
    (∃ (s : State), ∃ (k j i : Nat), ∃ (x : Src), ∃ (t : State), s.srcOf k j = some x ∧ t = s.raise x i ∧ causeOf k i = true ∧
      s.rd evtB (F.EVT_ROUTE_MSG_EN.ix x.num) = 0 ∧ x.sev i < 2) ∧
    (∃ (s : State), ∃ (k j i : Nat), ∃ (x : Src), ∃ (t : State), s.srcOf k j = some x ∧ t = s.raise x i ∧ causeOf k i = true ∧
      s.rd evtB (F.EVT_ROUTE_MSG_EN.ix x.num) = 0 ∧ 2 ≤ x.sev i) ∧
    (∃ (s : State), ∃ (k j i : Nat), ∃ (x : Src), ∃ (t : State), s.srcOf k j = some x ∧ t = s.raise x i ∧ causeOf k i = true ∧
      s.rd evtB (F.EVT_ROUTE_MSG_EN.ix x.num) = 0 ∧ 2 ≤ x.sev i ∧ s.flag evtB F.EVT_FIRST_INFO_VALID = false) ∧
    (∃ (s : State), ∃ (k j i : Nat), ∃ (x : Src), ∃ (t : State), s.srcOf k j = some x ∧ t = s.raise x i ∧ causeOf k i = true ∧
      s.rd evtB (F.EVT_ROUTE_MSG_EN.ix x.num) = 0 ∧ 2 ≤ x.sev i ∧ s.flag evtB F.EVT_FIRST_INFO_VALID = true) ∧
    (∃ (s : State), ∃ (k j i : Nat), ∃ (x : Src), s.srcOf k j = some x ∧ i = 1 ∧ causeOf k i = true ∧ 512 ≤ k ∧ k < 576) ∧
    (∃ (s : State), ∃ (k j i : Nat), ∃ (x : Src), s.srcOf k j = some x ∧ causeOf k i = true ∧ k = 638 ∧ i = 0) ∧
    (∃ (s : State), ∃ (k j i : Nat), ∃ (x : Src), s.srcOf k j = some x ∧ causeOf k i = true ∧ k = 638 ∧ i = 1) :=
  ⟨⟨alerting, 0, 0, 300, .inr (by decide +kernel)⟩,
    ⟨alerting, 0, 0, 3, srcAlert 0, rfl, by decide +kernel⟩,
    ⟨alerting, 1, 0, 5, srcNotice 0, _, rfl, rfl, by decide +kernel⟩,
    ⟨alerting, 0, 0, 3, srcAlert 0, _, rfl, rfl, by decide +kernel⟩,
    ⟨alerting, 0, 0, 3, srcAlert 0, _, rfl, rfl, by decide +kernel⟩,
    ⟨alerting.wr evtB F.EVT_FIRST_INFO_VALID 1, 0, 0, 16, srcAlert 0, _, rfl, rfl, by decide +kernel⟩,
    ⟨demo, 512, 0, _, srcRouter 0 0, rfl, rfl, by decide +kernel⟩,
    ⟨alerting, 638, 0, 0, srcGlobal 14, rfl, by decide +kernel⟩,
    ⟨alerting, 638, 0, 1, srcGlobal 14, rfl, by decide +kernel⟩⟩

/-- The premises of LineIsHighForItsAssertedSources are met. -/
theorem met_LineIsHighForItsAssertedSources :
    (∃ (s : State), ∃ (l st e : Nat), ∃ (r : Rg), st = s.rd pcrB (F.PCR_RG_STAT_STATE.ix s.rom.homeRegion) ∧
      r = s.rg s.rom.homeRegion ∧ e = (if st = 7 ∨ st = 6 ∧ 1 ≤ r.wake ∧ r.wake ≤ 3 then r.prev else st) ∧ l < 16 ∧
      (e = 1 ∨ e = 2)) ∧
    (∃ (s : State), ∃ (l st e : Nat), ∃ (r : Rg), st = s.rd pcrB (F.PCR_RG_STAT_STATE.ix s.rom.homeRegion) ∧
      r = s.rg s.rom.homeRegion ∧ e = (if st = 7 ∨ st = 6 ∧ 1 ≤ r.wake ∧ r.wake ≤ 3 then r.prev else st) ∧ l < 16 ∧
      (e = 3 ∨ e = 4)) ∧
    (∃ (s : State), ∃ (l st e : Nat), ∃ (r : Rg), st = s.rd pcrB (F.PCR_RG_STAT_STATE.ix s.rom.homeRegion) ∧
      r = s.rg s.rom.homeRegion ∧ e = (if st = 7 ∨ st = 6 ∧ 1 ≤ r.wake ∧ r.wake ≤ 3 then r.prev else st) ∧ l < 16 ∧
      (e = 0 ∨ 5 ≤ e)) :=
  ⟨⟨demo.wr pcrB (F.PCR_RG_STAT_STATE.ix 0) 1, 0, _, _, _, rfl, rfl, rfl, by decide +kernel⟩,
    ⟨demo.wr pcrB (F.PCR_RG_STAT_STATE.ix 0) 3, 0, _, _, _, rfl, rfl, rfl, by decide +kernel⟩,
    ⟨demo, 15, _, _, _, rfl, rfl, rfl, by decide +kernel⟩⟩

/-- The premises of EmptyQueuePassesACarrierCycle are met. -/
theorem met_EmptyQueuePassesACarrierCycle :
    (∃ (s : State), s.pending = [] ∧ s.time.carrier = false) ∧
    (∃ (s : State), s.pending = [] ∧ s.time.carrier = true ∧ s.time.tc < 1023) ∧
    (∃ (s : State), s.pending = [] ∧ s.time.carrier = true ∧ 1023 ≤ s.time.tc) ∧
    (∃ (s : State), s.pending = [] ∧ (∀ g, g < s.rom.regions.length → s.rgState g ≠ 5 ∨ (s.rg g).q = none ∨ ∃ q,
      (s.rg g).q = some q ∧ s.clock < q + 250)) :=
  ⟨⟨{ demo with time := { carrier := false } }, by decide +kernel⟩,
    ⟨{ demo with time := { tc := 1022 } }, by decide +kernel⟩,
    ⟨{ demo with time := { tc := 1023 } }, by decide +kernel⟩,
    ⟨{ demo with time := { carrier := false } }, by decide +kernel⟩⟩

/-- The premises of StepKeepsStarterMemoryCanonical are met. -/
theorem met_StepKeepsStarterMemoryCanonical : ∃ (s t : State), step s = .next t ∧ Memory.wf s.starter.sram = true :=
  ⟨{ demo with starter := { sram := [(3, 7), (4, 1)] } }, _, rfl, by decide +kernel⟩

/-! ### Ill-formed commands, one for each check -/

theorem test_wf_accepts : ((Instr.opRead 255 { code := 0 }).wf && (Instr.arbPhase (.rtr 1 159 15)).wf
    && (Instr.hcRequest { addr := 0xFFFFFF, wr := false, size := 3, id := 15 }).wf && (Instr.planeJoin 1 none 0).wf) = true := by
  decide
theorem test_wf_ni : (Instr.opRead 256 { code := 0 }).wf = false := by decide
theorem test_wf_join_ni : (Instr.planeJoin 0 (some 256) 0).wf = false := by decide
theorem test_wf_sc : (Instr.rpiResponse 0 0 4 0 []).wf = false := by decide
theorem test_wf_status : (Instr.rpiResponse 0 0 0 16 []).wf = false := by decide
theorem test_wf_tag : (Instr.ctoExpire 0 512 0).wf = false := by decide
theorem test_wf_half : (Instr.stallLimitExpire 0 5).wf = false := by decide
theorem test_wf_egress_half : (Instr.egressSegmentStart 0 3 0 0).wf = false := by decide
theorem test_wf_master : (Instr.nowCap 6 0).wf = false := by decide
theorem test_wf_plane : (Instr.planeDrainCheck 2).wf = false := by decide
theorem test_wf_router : (Instr.markerArrival 160 0).wf = false := by decide
theorem test_wf_port_number : (Instr.routerFlitArrival 0 0 16 {}).wf = false := by decide
theorem test_wf_port : (Instr.arbPhase (.span 0 4)).wf = false := by decide
theorem test_wf_vc : (Instr.xingFlit (.ni 0 0) 16 {}).wf = false := by decide
theorem test_wf_seq : (Instr.twinTmo 0 0 65536).wf = false := by decide
theorem test_wf_route_ni : (Instr.rtabRawWrite 0 256 0 0 0).wf = false := by decide
theorem test_wf_route_entry : (Instr.rtabRawWrite 0 0 260 0 0).wf = false := by decide
theorem test_wf_route_word : (Instr.rtabRawWrite 0 0 0 2 0).wf = false := by decide
theorem test_wf_rsv : (Instr.sc0RsvWrite 0 0 16 0 0).wf = false := by decide
theorem test_wf_rsv_word : (Instr.sc0RsvWrite 0 0 0 2 0).wf = false := by decide
theorem test_wf_shaper : (Instr.shaperWrite 0 0 16 0 0).wf = false := by decide
theorem test_wf_queue : (Instr.queueSample 0 1024).wf = false := by decide
theorem test_wf_pin : (Instr.markerPulse 4).wf = false := by decide
theorem test_wf_pings : (Instr.calRunDone 0 []).wf = false := by decide
theorem test_wf_region : (Instr.hopFreeze 16).wf = false := by decide
theorem test_wf_span : (Instr.spanTimeSample 4).wf = false := by decide
theorem test_wf_link : (Instr.trainStateTmo 0 4).wf = false := by decide
theorem test_wf_pf_slot : (Instr.pfPinTrigger 2).wf = false := by decide
theorem test_wf_site : (Instr.pfCapture 0 (.rtr 2 0) 0).wf = false := by decide
theorem test_wf_heat_slot : (Instr.heatSettle 64 0 []).wf = false := by decide
theorem test_wf_aseq : (Instr.stageAckTmo 0 4096).wf = false := by decide
theorem test_wf_hid : (Instr.prepareReceive 0 65536 0 false).wf = false := by decide
theorem test_wf_inst : (Instr.prepareReceive 0 0 4096 false).wf = false := by decide
theorem test_wf_maps : (Instr.heatSettle 0 0 (List.replicate 9 0)).wf = false := by decide
theorem test_wf_slice : (Instr.sliceCollect 63).wf = false := by decide
theorem test_wf_access : (Instr.hcRequest { addr := 0x1000000, wr := false, size := 2 }).wf = false := by decide
theorem test_wf_access_size : (Instr.hcRequest { addr := 0, wr := false, size := 4 }).wf = false := by decide
theorem test_wf_access_id : (Instr.hcRequest { addr := 0, wr := false, size := 2, id := 16 }).wf = false := by decide
theorem test_wf_target : (Instr.cmxArbPhase 596).wf = false := by decide
theorem test_wf_leave : (Instr.leaveRequest 6 0).wf = false := by decide
theorem test_wf_reset_ni : (Instr.resetRelease true 256).wf = false := by decide
theorem test_wf_key : (Instr.fuseRead false []).wf = false := by decide
theorem test_wf_classes : (Instr.trainStateDone 0 0 [16] false 0).wf = false := by decide
theorem test_wf_lanes : (Instr.trainStateDone 0 0 (List.replicate 9 0) false 0).wf = false := by decide
theorem test_wf_frame : (Instr.spanFrameReceive 0 0 ⟨{ ftype := 16 }, 0⟩).wf = false := by decide
theorem test_wf_frame_seq : (Instr.spanFrameReceive 0 0 ⟨{ fseq := 4096 }, 0⟩).wf = false := by decide
theorem test_wf_frame_ack : (Instr.spanFrameReceive 0 0 ⟨{ ack := 4096 }, 0⟩).wf = false := by decide
theorem test_wf_lane : (Instr.laneRestore 0 0 8).wf = false := by decide
theorem test_wf_errs : (Instr.fecWindow 0 0 0 0 (List.replicate 9 0)).wf = false := by decide
theorem test_wf_span_source : (Instr.spanForward 0 6 0 {}).wf = false := by decide
theorem test_wf_cause_source : (Instr.causeSet 640 0 0).wf = false := by decide
theorem test_wf_cause_member : (Instr.causeSet 0 5 0).wf = false := by decide
theorem test_wf_cause_bit : (Instr.causeSet 0 0 32).wf = false := by decide

/-! ### The words of the table: no row has bits -/

theorem test_decode_spells_no_command : decodeTableWord 16 0x1234 = none := rfl

end Demo
end

section
/-! SUPPORT. What the shared operations on registers and system queues leave alone, at a chosen set of offsets: occurrences of
causes stay within the event unit but for their own cause register, and replies stay within the Starter. -/

namespace Sys2Proof.Machine

/-! ### Words at chosen offsets, and what the NIs hold of heats -/

/-- The words at the offsets of `P`, and what every NI holds of heats, are as before. -/
def State.KeepsAt (P : Nat → Prop) (s t : State) : Prop :=
  (∀ o, P o → t.word o = s.word o) ∧ ∀ n, (t.ni n).tgts = (s.ni n).tgts

/-- Offsets outside the window of the event unit. -/
abbrev OffEvt (o : Nat) : Prop := o < evtB ∨ evtB + 0x10000 ≤ o

/-- Offsets outside the windows of the Starter and of the event unit. -/
abbrev OffStr (o : Nat) : Prop := (o < strB ∨ strB + 0x10000 ≤ o) ∧ OffEvt o

theorem NiSt.admitSys_tgts (l : List Qp) : ∀ x : NiSt, (x.admitSys l).tgts = x.tgts := by
  induction l with
  | nil => intro x; rfl
  | cons p r ih =>
    intro x
    unfold NiSt.admitSys
    split
    · exact ih _
    · rfl

@[simp] theorem NiSt.pushSys_tgts (x : NiSt) (p : Qp) : (x.pushSys p).tgts = x.tgts := NiSt.admitSys_tgts _ _

namespace State.KeepsAt

variable {P : Nat → Prop} {s t u : State}

theorem refl (s : State) : s.KeepsAt P s := ⟨fun _ _ => rfl, fun _ => rfl⟩

theorem trans (h : s.KeepsAt P t) (k : t.KeepsAt P u) : s.KeepsAt P u :=
  ⟨fun o ho => (k.1 o ho).trans (h.1 o ho), fun n => (k.2 n).trans (h.2 n)⟩

theorem mono {Q : Nat → Prop} (h : s.KeepsAt P t) (hQ : ∀ o, Q o → P o) : s.KeepsAt Q t :=
  ⟨fun o ho => h.1 o (hQ o ho), h.2⟩

/-- A field at a kept offset reads as before. -/
theorem rd (h : s.KeepsAt P t) {b : Nat} {f : Fld} (ho : P (b + f.off)) : t.rd b f = s.rd b f := by
  rw [State.rd, State.rd, h.1 _ ho]

theorem setWord {o : Nat} (w : Word) (ho : ¬ P o) : s.KeepsAt P (s.setWord o w) :=
  ⟨fun _ h => s.word_setWord_ne w (fun e => ho (e ▸ h)), fun _ => rfl⟩

theorem setWord64 {o : Nat} (v : Nat) (ho : ¬ P o) (ho' : ¬ P (o + 4)) : s.KeepsAt P (s.setWord64 o v) :=
  (setWord _ ho).trans (setWord _ ho')

theorem wr {b : Nat} {f : Fld} (v : Nat) (ho : ¬ P (b + f.off)) : s.KeepsAt P (s.wr b f v) := setWord _ ho

theorem count {b : Nat} {f : Fld} (k : Nat) (ho : ¬ P (b + f.off)) : s.KeepsAt P (s.count b f k) := wr _ ho

theorem setBit {b : Nat} {f : Fld} (i : Nat) (ho : ¬ P (b + f.off)) : s.KeepsAt P (s.setBit b f i) := wr _ ho

theorem setHeat (k : Nat) (v : Heat) : s.KeepsAt P (s.setHeat k v) := ⟨fun _ _ => rfl, fun _ => rfl⟩

theorem pushSys (n : Nat) (p : Qp) : s.KeepsAt P (s.pushSys n p) := by
  refine ⟨fun _ _ => rfl, fun m => ?_⟩
  by_cases h : m = n
  · subst h
    simp [State.pushSys]
  · rw [State.pushSys, State.ni_updNi_ne s _ h]

end State.KeepsAt

/-! ### Occurrences of causes -/

section

variable (s : State)

theorem State.keepsAt_logErr (src cause sev data : Nat) : s.KeepsAt OffEvt (s.logErr src cause sev data) := by
  unfold State.logErr
  dsimp only
  generalize hb : (if s.flag evtB F.EVT_FIRST_INFO_VALID then evtB + 0x210 else evtB + 0x200) = base
  have h1 : evtB + 0x200 ≤ base := by rw [← hb]; split <;> omega
  have h2 : base ≤ evtB + 0x210 := by rw [← hb]; split <;> omega
  refine (((State.KeepsAt.setWord _ ?_).trans (.setWord _ ?_)).trans (.setWord64 _ ?_ ?_)).trans (.count _ ?_) <;>
    simp only [OffEvt] <;> omega

theorem State.keepsAt_sendMsg (x : Src) (f v : Fld) (cause : Nat) : s.KeepsAt OffEvt (s.sendMsg x f v cause).1 := by
  unfold State.sendMsg
  dsimp only
  split
  · exact .refl s
  · split
    · exact .refl s
    · split
      · exact .count 1 (by decide)
      · exact .pushSys _ _

theorem State.keepsAt_sendMsgs (x : Src) (cause : Nat) : s.KeepsAt OffEvt (s.sendMsgs x cause).1 :=
  (s.keepsAt_sendMsg x _ _ cause).trans (State.keepsAt_sendMsg _ x _ _ cause)

/-- Beyond setting its cause bit, an occurrence changes words of the event unit alone. -/
theorem State.keepsAt_occur (x : Src) (i : Nat) : (s.setBit x.base x.cause i).KeepsAt OffEvt (s.occur x i).1 := by
  unfold State.occur
  dsimp only
  generalize s.setBit x.base x.cause i = s1
  have h : s1.KeepsAt OffEvt (if 2 ≤ x.sev i then s1.logErr x.num i (x.sev i) x.data else s1) := by
    split
    · exact s1.keepsAt_logErr _ _ _ _
    · exact .refl s1
  generalize (if 2 ≤ x.sev i then s1.logErr x.num i (x.sev i) x.data else s1) = s2 at h ⊢
  split
  · exact h.trans (s2.keepsAt_sendMsgs x _)
  · exact h

/-- An occurrence of a cause of a global source, whose cause register is the event unit's own. -/
theorem State.keepsAt_setBit_global {g : Nat} (hg : g < 16) (i : Nat) :
    s.KeepsAt OffEvt (s.setBit (srcGlobal g).base (srcGlobal g).cause i) := by
  refine .setBit i ?_
  simp only [srcGlobal, Fld.ix, OffEvt]
  omega

theorem State.keepsAt_occur_global {g : Nat} (hg : g < 16) (i : Nat) : s.KeepsAt OffEvt (s.occur (srcGlobal g) i).1 :=
  (s.keepsAt_setBit_global hg i).trans (s.keepsAt_occur _ i)

theorem State.keepsAt_msgLost (ovf bad : Bool) : s.KeepsAt OffEvt (s.msgLost ovf bad) := by
  have step (s : State) (b : Bool) (i : Nat) : s.KeepsAt OffEvt (if b then (s.occur (srcGlobal 13) i).1 else s) := by
    split
    · exact s.keepsAt_occur_global (by decide) i
    · exact .refl s
  exact (step s ovf 0).trans (step _ bad 1)

/-- Beyond its cause bit, a raised cause changes words of the event unit alone (R595, R601). -/
theorem State.keepsAt_raise (x : Src) (i : Nat) : (s.setBit x.base x.cause i).KeepsAt OffEvt (s.raise x i) :=
  (s.keepsAt_occur x i).trans (State.keepsAt_msgLost _ _ _)

theorem State.near_glEvent (g i : Nat) : s.Near (s.glEvent g i) := s.near_raise _ i

theorem State.keepsAt_glEvent {g : Nat} (hg : g < 16) (i : Nat) : s.KeepsAt OffEvt (s.glEvent g i) :=
  (s.keepsAt_setBit_global hg i).trans (s.keepsAt_raise _ i)

end

end Sys2Proof.Machine
end

section
/-! SUPPORT. What an NI holds of a heat, as HEAT_STAT shows it, and a target that misses T (R384). -/

namespace Sys2Proof.Machine

theorem mem_of_mget_eq_some {α : Type} {m : Map (Option α)} {k : Nat} {v : α} (h : mget (fun _ => none) m k = some v) :
    (k, some v) ∈ m := by
  induction m with
  | nil => cases h
  | cons e r ih =>
    obtain ⟨j, w⟩ := e
    rw [mget_cons] at h
    split at h
    · next hj => rw [hj, h]; exact List.mem_cons_self
    · exact List.mem_cons_of_mem _ (ih h)

theorem NiSt.tgt_congr {x y : NiSt} (h : x.tgts = y.tgts) (k : Nat) : x.tgt k = y.tgt k := by rw [NiSt.tgt, NiSt.tgt, h]

@[simp] theorem NiSt.tgt_setTgt_same (x : NiSt) (k : Nat) (v : Option Target) : (x.setTgt k v).tgt k = v := mget_mset_same _ _ _ _

theorem NiSt.tgtOf_eq_some {x : NiSt} {inst hid : Nat} {g : Target} :
    x.tgtOf inst hid = some g ↔ x.tgt (heatKey inst hid) = some g ∧ g.gen = hid / 64 := by
  unfold NiSt.tgtOf
  split
  · next g' hg => simp only [hg, Option.ite_none_right_eq_some, Option.some.injEq]; grind
  · next hn => simp [hn]

/-- An NI with a target in STRAGGLER is a straggler of some heat. -/
theorem NiSt.straggles_of_tgt {x : NiSt} {k : Nat} {g : Target} (h : x.tgt k = some g) (hg : g.st = 6) : x.straggles = true :=
  List.any_eq_true.mpr ⟨_, mem_of_mget_eq_some h, by simp [hg]⟩

theorem toNat_put (f : Fld) (v : Nat) (w : Word) (h : f.lo + f.w ≤ 32) : (put f v w).toNat = bitsPut w.toNat f.lo f.w v := by
  rw [put, BitVec.toNat_ofNat, Nat.mod_eq_of_lt (bitsPut_lt _ _ _ _ 32 (BitVec.isLt _) h)]

/-- Every bit of HEAT_STAT is implemented at every NI. -/
theorem State.view_heatStat (s : State) (n : Nat) : s.view (niUnit n) 0x740 = s.heatStat n (s.word (niB n + 0x740)) :=
  BitVec.and_allOnes

/-- NI.HEAT_STAT.STRAGGLER as it reads (R384). -/
theorem State.view_heatStat_straggler (s : State) (n : Nat) :
    bitAt (s.view (niUnit n) 0x740).toNat 16 = (s.ni n).straggles := by
  rw [State.view_heatStat, bitAt_eq, State.heatStat, toNat_put _ _ _ (by decide), bitsAt_bitsPut_above _ _ _ _ _ _ (by decide),
    toNat_put _ _ _ (by decide), bitsAt_bitsPut_same]
  cases (s.ni n).straggles <;> rfl

theorem bitAt_eq_testBit (v i : Nat) : bitAt v i = v.testBit i := Nat.testBit_eq_decide_div_mod_eq.symm

/-- A bit that hardware sets reads 1. -/
theorem State.bitAt_rd_setBit (s : State) (b : Nat) (f : Fld) {i : Nat} (h : f.lo + f.w ≤ 32) (hi : i < f.w) :
    bitAt ((s.setBit b f i).rd b f) i = true := by
  rw [State.setBit, State.rd_wr_same _ _ _ _ h, bitAt_eq_testBit]
  simp [Nat.testBit_mod_two_pow, hi]

/-- A target that has missed T (R384): STRAGGLER, the count, and the cause, before the event unit takes note. -/
theorem exec_heatMiss_of_committed {s : State} {n hid inst : Nat} {t : Stamp} {g : Target} (hn : s.hasNi n = true)
    (hg : (s.ni n).tgtOf inst hid = some g) (hst : g.st = 3) (ht : 0 ≤ stampDiff t g.t) :
    exec (.heatMiss n hid inst t) s = .next (((s.updNi n (fun x => x.setTgt (heatKey inst hid) (some { g with st := 6 }))).count
      (niB n) F.NI_HEAT_MISS_CNT_COUNT 1).alert n 9) := by
  have hlt : ¬ stampDiff t g.t < 0 := by omega
  change execHeatMiss n hid inst t s = _
  simp [execHeatMiss, guardUnit_of hn, hg, hst, hlt]

/-- Settles O34: what the miss writes is the target, its count and its cause; the alert adds words of the event unit alone. -/
theorem missedHeatLeavesAStraggler : Obligations.MissedHeatLeavesAStraggler := by
  unfold Obligations.MissedHeatLeavesAStraggler
  intro s n hid inst t g hn hg hst ht
  obtain ⟨-, hgen⟩ := NiSt.tgtOf_eq_some.mp hg
  set u := (s.updNi n (fun x => x.setTgt (heatKey inst hid) (some { g with st := 6 }))).count (niB n) F.NI_HEAT_MISS_CNT_COUNT 1
    with hu
  have hk : (u.setBit (niB n) F.NI_EVT_CAUSE_A_C 9).KeepsAt OffEvt (u.alert n 9) := u.keepsAt_raise (srcAlert n) 9
  have hoff : ∀ d, OffEvt (niB n + d) := fun d => .inr (by simp only [evtB, niB]; omega)
  have htgt : ((u.alert n 9).ni n).tgt (heatKey inst hid) = some { g with st := 6 } := by
    rw [NiSt.tgt_congr (hk.2 n), hu]
    simp
  refine ⟨u.alert n 9, exec_heatMiss_of_committed hn hg hst ht, NiSt.tgtOf_eq_some.mpr ⟨htgt, hgen⟩, ?_, ?_, ?_, ?_⟩
  · rw [State.view_heatStat_straggler]
    exact NiSt.straggles_of_tgt htgt rfl
  · rw [hk.rd (hoff _), State.setBit, State.rd_wr_ne _ _ _ _ _ _ (by simp), hu, State.rd_count_same _ _ _ _ (by decide)]
    rfl
  · rw [hk.rd (hoff _)]
    exact State.bitAt_rd_setBit _ _ _ (by decide) (by decide)
  · intro o ho hmiss hcause
    rw [hk.1 o ho, State.setBit, State.word_wr_ne _ _ _ _ hcause, hu, State.count, State.word_wr_ne _ _ _ _ hmiss]
    rfl

end Sys2Proof.Machine
end

section
/-! SUPPORT. Replies to commands: which words they write, and what else they leave alone. -/

namespace Sys2Proof.Machine

theorem length_leBytes (n : Nat) : ∀ v, (leBytes n v).length = n := by
  induction n with
  | zero => intro v; rfl
  | succ n ih => intro v; simp [leBytes, ih]

/-- A reply packet is its data behind at most 16 bytes (R482). -/
theorem length_replyBytes_le (c : Cmd) (now status : Nat) (data : List Byte) :
    (replyBytes c now status data).length ≤ 16 + data.length := by
  simp only [replyBytes, List.length_append, List.length_take, List.length_drop, length_leBytes, List.length_singleton]
  omega

/-- What every round of a repeated state change keeps, the whole keeps. -/
theorem forAll_induction {R : State → State → Prop} (refl : ∀ s, R s s) (trans : ∀ {s t u}, R s t → R t u → R s u)
    (f : Nat → State → State) {n : Nat} (h : ∀ i, i < n → ∀ a, R a (f i a)) (s : State) : R s (forAll n f s) := by
  suffices ∀ (l : List Nat), (∀ i ∈ l, i < n) → ∀ a, R a (l.foldl (fun a i => f i a) a) from
    this _ (fun i hi => List.mem_range.mp hi) s
  intro l
  induction l with
  | nil => exact fun _ a => refl a
  | cons i r ih =>
    intro hl a
    exact trans (h i (hl i List.mem_cons_self) a) (ih (fun j hj => hl j (List.mem_cons_of_mem _ hj)) _)

theorem State.near_putBytes (s : State) (off : Nat) (l : List Byte) : s.Near (s.putBytes off l) :=
  forAll_induction State.Near.refl State.Near.trans _ (fun _ _ a => .setWord a _ _) s

theorem State.keepsAt_putBytes {P : Nat → Prop} (s : State) (off : Nat) (l : List Byte)
    (h : ∀ o, P o → o < off ∨ off + l.length + 4 ≤ o) : s.KeepsAt P (s.putBytes off l) := by
  refine forAll_induction State.KeepsAt.refl State.KeepsAt.trans _ (fun i hi a => .setWord _ fun hP => ?_) s
  have := h _ hP
  unfold cdiv at hi
  omega

/-- A command whose reply goes to the MSP, over VN3, or to one of the four mailboxes that there are (R484, R486). -/
def Cmd.RepliesInHome (c : Cmd) : Prop := c.path = 1 ∨ c.path = 2 ∨ c.src ≤ 3

/-- The Starter has counted a reply, and marked an error (R502). -/
def State.replyNoted (s : State) (status : Nat) : State :=
  if status = 0 then s.count strB F.STR_CMD_CNT_COUNT 1 else (s.count strB F.STR_CMD_CNT_COUNT 1).wr strB F.STR_CMD_STAT_ERR 1

/-- A reply put into mailbox `m` (R484). -/
def State.mailReply (s : State) (m : Nat) (pkt : List Byte) : State :=
  (((s.putBytes (strB + 0x2100 + 0x200 * m) pkt).wr strB (F.STR_MBX_BUSY.ix m) 0).wr strB (F.STR_MBX_DONE.ix m) 1).glEvent 6 0

theorem State.sendReply_eq (s : State) (c : Cmd) (status : Nat) (data : List Byte) : s.sendReply c status data =
    if c.path = 2 then (s.replyNoted status).pushVn3 (s.replyNoted status).homeNi 3 1 c.src 63 c.tag c.gen 0
      (replyBytes c s.clock status data)
    else (s.replyNoted status).mailReply (if c.path = 1 then 3 else c.src) (replyBytes c s.clock status data) := rfl

theorem State.near_replyNoted (s : State) (status : Nat) : s.Near (s.replyNoted status) := by
  unfold State.replyNoted
  split
  · exact .count s _ _ _
  · exact (State.Near.count s _ _ _).trans (.wr _ _ _ _)

theorem State.keepsAt_replyNoted (s : State) (status : Nat) : s.KeepsAt OffStr (s.replyNoted status) := by
  have hcount : s.KeepsAt OffStr (s.count strB F.STR_CMD_CNT_COUNT 1) := .count 1 (by decide)
  unfold State.replyNoted
  split
  · exact hcount
  · exact hcount.trans (.wr 1 (by decide))

theorem State.near_mailReply (s : State) (m : Nat) (pkt : List Byte) : s.Near (s.mailReply m pkt) :=
  (((s.near_putBytes _ _).trans (.wr _ _ _ _)).trans (.wr _ _ _ _)).trans (State.near_raise _ _ _)

theorem State.keepsAt_mailReply (s : State) {m : Nat} (hm : m ≤ 3) {pkt : List Byte} (hp : pkt.length ≤ 256) :
    s.KeepsAt OffStr (s.mailReply m pkt) := by
  have hbuf : s.KeepsAt OffStr (s.putBytes (strB + 0x2100 + 0x200 * m) pkt) := by
    refine s.keepsAt_putBytes _ _ fun o ho => ?_
    simp only [OffStr, strB] at ho ⊢
    omega
  have hbusy : ¬ OffStr (strB + (F.STR_MBX_BUSY.ix m).off) := by
    simp only [Fld.ix, OffStr, strB]
    omega
  have hdone : ¬ OffStr (strB + (F.STR_MBX_DONE.ix m).off) := hbusy
  exact ((hbuf.trans (.wr 0 hbusy)).trans (.wr 1 hdone)).trans
    ((State.keepsAt_glEvent _ (by decide) 0).mono fun _ ho => ho.2)

theorem State.near_sendReply (s : State) (c : Cmd) (status : Nat) (data : List Byte) : s.Near (s.sendReply c status data) := by
  rw [State.sendReply_eq]
  refine (s.near_replyNoted status).trans ?_
  split
  · exact .setNi _ _ _
  · exact State.near_mailReply _ _ _

/-- A reply that goes where a command can come from writes words of the Starter and of the event unit alone. -/
theorem State.keepsAt_sendReply (s : State) {c : Cmd} (hc : c.RepliesInHome) (status : Nat) {data : List Byte}
    (hd : data.length ≤ 240) : s.KeepsAt OffStr (s.sendReply c status data) := by
  rw [State.sendReply_eq]
  refine (s.keepsAt_replyNoted status).trans ?_
  split
  · exact .pushSys _ _
  · next hp =>
    have hlen := length_replyBytes_le c s.clock status data
    have hm : (if c.path = 1 then 3 else c.src) ≤ 3 := by
      rcases hc with h1 | h2 | h3
      · rw [if_pos h1]
      · exact absurd h2 hp
      · split <;> omega
    exact State.keepsAt_mailReply _ hm (by omega)

/-- A reply takes its command out of execution and, where none has gone out before, sends itself. -/
theorem State.reply_eq_or {s : State} {x : Nat} {c : Cmd} (h : s.cmd x = some c) (status : Nat) (data : List Byte) :
    s.reply x status data = { s with cmds := s.cmds.filter (fun d => d.id != x) } ∨
    s.reply x status data = ({ s with cmds := s.cmds.filter (fun d => d.id != x) }).sendReply c status data := by
  cases hl : c.late
  · exact .inr (s.reply_of h hl status data)
  · exact .inl (s.reply_late h hl status data)

theorem State.keepsAt_reply {s : State} {x : Nat} {c : Cmd} (h : s.cmd x = some c) (hc : c.RepliesInHome) (status : Nat)
    {data : List Byte} (hd : data.length ≤ 240) : s.KeepsAt OffStr (s.reply x status data) := by
  have hcmds : s.KeepsAt OffStr { s with cmds := s.cmds.filter (fun d => d.id != x) } := ⟨fun _ _ => rfl, fun _ => rfl⟩
  rcases State.reply_eq_or h status data with e | e <;> rw [e]
  · exact hcmds
  · exact hcmds.trans (State.keepsAt_sendReply _ hc status hd)

theorem State.Near.heat {s t : State} (h : s.Near t) (k : Nat) : t.heat k = s.heat k := by
  have e : ({ t with csr := s.csr, nis := s.nis } : State).heats = s.heats := congrArg State.heats h
  rw [State.heat, State.heat, ← e]

theorem State.Near.cmd {s t : State} (h : s.Near t) (x : Nat) : t.cmd x = s.cmd x := by
  have e : ({ t with csr := s.csr, nis := s.nis } : State).cmds = s.cmds := congrArg State.cmds h
  rw [State.cmd, State.cmd, ← e]

theorem State.heat_reply {s : State} {x : Nat} {c : Cmd} (h : s.cmd x = some c) (status : Nat) (data : List Byte) (k : Nat) :
    (s.reply x status data).heat k = s.heat k := by
  rcases State.reply_eq_or h status data with e | e <;> rw [e]
  · rfl
  · exact (State.near_sendReply _ c status data).heat k

end Sys2Proof.Machine
end

section
/-! SUPPORT. A target that HEAT_RECONCILE with MODE DROP takes off the straggler map (R387). -/

namespace Sys2Proof.Machine

/-- The straggler map without target `i`. -/
def Heat.dropped (h : Heat) (i : Nat) : Heat :=
  { h with strag := h.strag.filter (fun j => j != i), recon := h.recon.filter (fun r => r.1 != i) }

theorem State.slotOf_lt {s : State} {hid k : Nat} (h : s.slotOf hid = some k) : k < 64 := by
  unfold State.slotOf at h
  split at h
  · cases h
    exact Nat.mod_lt _ (by decide)
  · cases h

/-- The slots' registers lie within the HCU. -/
theorem offStr_slotState {k : Nat} (hk : k < 64) : OffStr (hcuB + (F.HCU_SLOT0_STATE.ix k).off) := by
  simp only [Fld.ix, OffStr, OffEvt, hcuB, strB, evtB]
  omega

theorem slotState_lt_ni {k : Nat} (hk : k < 64) : ¬ niB 0 ≤ hcuB + (F.HCU_SLOT0_STATE.ix k).off := by
  simp only [Fld.ix, hcuB, niB]
  omega

/-- A map that keeps a straggler: the slot's own record changes and nothing else. -/
theorem State.unstrag_of_ne_nil {s : State} {k i : Nat} (h : (s.heat k).strag.filter (fun j => j != i) ≠ []) :
    s.unstrag k i = s.setHeat k ((s.heat k).dropped i) := by
  unfold State.unstrag
  exact if_neg (by simpa using h)

/-- A map that becomes empty: the slot is COMMITTED with RECONCILED = 1. -/
theorem State.unstrag_of_nil {s : State} {k i : Nat} (h : (s.heat k).strag.filter (fun j => j != i) = []) :
    s.unstrag k i = ((s.setHeat k ((s.heat k).dropped i)).heatDone k).wr hcuB (F.HCU_SLOT0_RECONCILED.ix k) 1 := by
  unfold State.unstrag
  exact if_pos (by simp [h])

theorem State.near_heatFloors (s : State) (h : Heat) : s.Near (s.heatFloors h) := by
  unfold State.heatFloors
  split
  · exact .wr s _ _ _
  · exact .refl s

theorem State.keepsAt_heatFloors {P : Nat → Prop} (hP : ¬ P (glbB + F.GLB_SC0_STAT_FLOOR_BUSY.off)) (s : State) (h : Heat) :
    s.KeepsAt P (s.heatFloors h) := by
  unfold State.heatFloors
  split
  · exact .wr 1 hP
  · exact .refl s

/-- COMMITTED before its event: the state, its count, the freed records and the floors. -/
def State.heatClosed (s : State) (k : Nat) : State :=
  (((s.heatGo k 8).count hcuB F.HCU_CNT_COMMIT_COUNT 1).setHeat k { s.heat k with acts := [], strag := [], recon := [] }).heatFloors
    (s.heat k)

theorem State.heatDone_eq (s : State) (k : Nat) : s.heatDone k = (s.heatClosed k).glEvent 1 0 := rfl

theorem State.heat_heatDone (s : State) (k : Nat) :
    (s.heatDone k).heat k = { s.heat k with acts := [], strag := [], recon := [] } := by
  rw [State.heatDone_eq, (State.near_glEvent _ _ _).heat, State.heatClosed,
    (State.near_heatFloors _ _).heat, State.heat_setHeat_same]

theorem State.cmd_heatDone (s : State) (k x : Nat) : (s.heatDone k).cmd x = s.cmd x := by
  rw [State.heatDone_eq, (State.near_glEvent _ _ _).cmd, State.heatClosed,
    (State.near_heatFloors _ _).cmd]
  rfl

theorem State.heatSt_heatClosed (s : State) (k : Nat) : (s.heatClosed k).heatSt k = 8 := by
  have hfloors : (s.heatClosed k).heatSt k = ((s.heatGo k 8).count hcuB F.HCU_CNT_COMMIT_COUNT 1).heatSt k :=
    (State.keepsAt_heatFloors (P := (hcuB ≤ ·)) (by decide) _ _).rd (Nat.le_add_right _ _)
  have hcount : ((s.heatGo k 8).count hcuB F.HCU_CNT_COMMIT_COUNT 1).heatSt k = (s.heatGo k 8).heatSt k :=
    State.rd_wr_ne _ _ _ _ _ _ (by simp only [Fld.ix]; omega)
  rw [hfloors, hcount]
  exact State.rd_wr_same _ _ (F.HCU_SLOT0_STATE.ix k) 8 (by simp [Fld.ix])

theorem State.heatSt_heatDone (s : State) {k : Nat} (hk : k < 64) : (s.heatDone k).heatSt k = 8 :=
  ((State.keepsAt_glEvent _ (by decide) 0).rd (offStr_slotState hk).2).trans (s.heatSt_heatClosed k)

/-- What entry into COMMITTED writes lies below the windows of the NIs. -/
theorem State.keepsAt_heatDone (s : State) {k : Nat} (hk : k < 64) : s.KeepsAt (niB 0 ≤ ·) (s.heatDone k) := by
  rw [State.heatDone_eq, State.heatClosed, State.heatGo]
  exact ((((State.KeepsAt.wr 8 (slotState_lt_ni hk)).trans (.count 1 (by decide))).trans (.setHeat k _)).trans
    (State.keepsAt_heatFloors (by decide) _ _)).trans
      ((State.keepsAt_glEvent _ (by decide) 0).mono fun o ho => .inr (le_trans (by decide) ho))

theorem State.cmd_unstrag (s : State) (k i x : Nat) : (s.unstrag k i).cmd x = s.cmd x := by
  by_cases h : (s.heat k).strag.filter (fun j => j != i) = []
  · rw [State.unstrag_of_nil h, State.wr_cmd, State.cmd_heatDone, State.setHeat_cmd]
  · rw [State.unstrag_of_ne_nil h, State.setHeat_cmd]

theorem State.strag_unstrag (s : State) (k i : Nat) :
    ((s.unstrag k i).heat k).strag = (s.heat k).strag.filter (fun j => j != i) := by
  by_cases h : (s.heat k).strag.filter (fun j => j != i) = []
  · rw [State.unstrag_of_nil h, State.wr_heat, State.heat_heatDone, h]
  · rw [State.unstrag_of_ne_nil h, State.heat_setHeat_same, Heat.dropped]

theorem State.keepsAt_unstrag (s : State) {k : Nat} (hk : k < 64) (i : Nat) : s.KeepsAt (niB 0 ≤ ·) (s.unstrag k i) := by
  by_cases h : (s.heat k).strag.filter (fun j => j != i) = []
  · rw [State.unstrag_of_nil h]
    exact ((State.KeepsAt.setHeat k _).trans (State.keepsAt_heatDone _ hk)).trans (.wr 1 (slotState_lt_ni hk))
  · rw [State.unstrag_of_ne_nil h]
    exact .setHeat k _

/-- The last straggler has gone: COMMITTED, RECONCILED, and no journal records (R387). -/
theorem State.unstrag_last {s : State} {k i : Nat} (hk : k < 64) (h : (s.heat k).strag.filter (fun j => j != i) = []) :
    (s.unstrag k i).heatSt k = 8 ∧ (s.unstrag k i).rd hcuB (F.HCU_SLOT0_RECONCILED.ix k) = 1
      ∧ ((s.unstrag k i).heat k).acts = [] := by
  rw [State.unstrag_of_nil h]
  refine ⟨?_, ?_, ?_⟩
  · exact (State.rd_wr_apart _ _ (F.HCU_SLOT0_RECONCILED.ix k) (F.HCU_SLOT0_STATE.ix k) _ rfl (by simp [Fld.ix])
      (by simp [Fld.ix])).trans (State.heatSt_heatDone _ hk)
  · exact State.rd_wr_same _ _ (F.HCU_SLOT0_RECONCILED.ix k) 1 (by simp [Fld.ix])
  · rw [State.wr_heat, State.heat_heatDone]

/-- HEAT_RECONCILE with MODE DROP of a straggler takes it off the map and answers OK (R387). -/
theorem exec_heatReconcileDrop_of_issued {s : State} {x k : Nat} {c : Cmd} (hc : s.Issued x 0x36 [(0, 25)] c) (hd : c.p 24 1 = 1)
    (hk : s.slotOf (c.p 0 16) = some k) (hst : s.heatSt k = 9) (hs : (s.heat k).strag.contains (c.p 16 8) = true) :
    exec (.heatReconcileDrop x) s = .next (((s.begin x).unstrag k (c.p 16 8)).reply x 0 []) := by
  have hmode : s.reconMode x 1 = true := by simp [State.reconMode, hc.1, hd]
  have hk' : (s.begin x).slotOf (c.p 0 16) = some k := hk
  have hst' : (s.begin x).heatSt k = 9 := hst
  change execHeatReconcileDrop x s = _
  rw [execHeatReconcileDrop, if_pos hmode, State.runCmd_issued s hc, State.heatReconcile, hk']
  simp only [hst', State.begin_heat, hs]
  rfl

/-- What R387 says of a dropped straggler holds for every command that comes in by a way the Starter has. -/
theorem heatReconcileDrop_of_repliesInHome {s : State} {x k : Nat} {c : Cmd} (hc : s.Issued x 0x36 [(0, 25)] c)
    (hin : c.RepliesInHome) (hd : c.p 24 1 = 1) (hk : s.slotOf (c.p 0 16) = some k) (hst : s.heatSt k = 9)
    (hs : (s.heat k).strag.contains (c.p 16 8) = true) :
    ∃ t : State, exec (.heatReconcileDrop x) s = .next t
      ∧ (t.heat k).strag = (s.heat k).strag.filter (fun i => i != c.p 16 8) ∧ (∀ n, (t.ni n).tgts = (s.ni n).tgts)
      ∧ (∀ o, niB 0 ≤ o → t.word o = s.word o)
      ∧ ((t.heat k).strag = [] → t.heatSt k = 8 ∧ t.rd hcuB (F.HCU_SLOT0_RECONCILED.ix k) = 1 ∧ (t.heat k).acts = [])
      ∧ ((t.heat k).strag ≠ [] → t.heatSt k = 9) := by
  have hk64 := State.slotOf_lt hk
  set u := (s.begin x).unstrag k (c.p 16 8) with hu
  have hcmd : u.cmd x = some { c with begun := true } := by rw [hu, State.cmd_unstrag, State.cmd_begin s x c hc.1]
  have hreply : u.KeepsAt OffStr (u.reply x 0 []) := State.keepsAt_reply hcmd hin 0 (by simp)
  have hni : u.KeepsAt (niB 0 ≤ ·) (u.reply x 0 []) :=
    hreply.mono fun o ho => ⟨.inr (le_trans (by decide) ho), .inr (le_trans (by decide) ho)⟩
  have hall : (s.begin x).KeepsAt (niB 0 ≤ ·) (u.reply x 0 []) := (State.keepsAt_unstrag _ hk64 _).trans hni
  have hheat : (u.reply x 0 []).heat k = u.heat k := State.heat_reply hcmd 0 [] k
  have hstrag : (u.heat k).strag = (s.heat k).strag.filter (fun i => i != c.p 16 8) := State.strag_unstrag _ k _
  have hstate : (u.reply x 0 []).heatSt k = u.heatSt k := hreply.rd (offStr_slotState hk64)
  refine ⟨_, exec_heatReconcileDrop_of_issued hc hd hk hst hs, ?_, hall.2, hall.1, fun hl => ?_, fun hl => ?_⟩
  · rw [hheat, hstrag]
  · rw [hheat, hstrag] at hl
    obtain ⟨h8, hrec, hacts⟩ := State.unstrag_last (s := s.begin x) hk64 hl
    have hkeep : (u.reply x 0 []).rd hcuB (F.HCU_SLOT0_RECONCILED.ix k) = u.rd hcuB (F.HCU_SLOT0_RECONCILED.ix k) :=
      hreply.rd (offStr_slotState hk64)
    exact ⟨hstate.trans h8, hkeep.trans hrec, (congrArg Heat.acts hheat).trans hacts⟩
  · rw [hheat, hstrag] at hl
    have h9 : u.heatSt k = 9 := by
      rw [hu, State.unstrag_of_ne_nil (s := s.begin x) hl]
      exact hst
    exact hstate.trans h9

/-- HEAT_RECONCILE with MODE DROP for target 0 of slot 0, in execution for a mailbox whose number, far above 3, makes its reply
buffer lie over the registers of NI 0. -/
def strayDrop : Cmd :=
  { id := 1, path := 0, src := 0x1F70, bytes := leBytes 4 0x36 ++ leBytes 4 4 ++ leBytes 8 0 ++ leBytes 4 0x1000000 }

/-- A state of one NI in which that command finds slot 0 in COMMITTED_STRAGGLER with two stragglers. -/
def strayDropState : State :=
  ((({ rom := { nis := [{}], regions := [{}] }, straps := {}, cmds := [strayDrop] } : State).heatGo 0 9).setHeat 0
    { tgts := [0, 1], strag := [0, 1] })

/-- Refutes O35: the statement lets the command's mailbox be any number, and the reply to mailbox 0x1F70 overwrites NI.EP_CFG of
NI 0. For the mailboxes that there are, `heatReconcileDrop_of_repliesInHome` proves what the statement says. -/
theorem not_droppedStragglerLeavesTheMap : ¬ Obligations.DroppedStragglerLeavesTheMap := by
  unfold Obligations.DroppedStragglerLeavesTheMap
  intro h
  have hissued : strayDropState.Issued 1 0x36 [(0, 25)] strayDrop := by decide +kernel
  have hdrop : strayDrop.p 24 1 = 1 := by decide +kernel
  have hslot : strayDropState.slotOf (strayDrop.p 0 16) = some 0 := by decide +kernel
  have hstate : strayDropState.heatSt 0 = 9 := by decide +kernel
  have hstrag : (strayDropState.heat 0).strag.contains (strayDrop.p 16 8) = true := by decide +kernel
  obtain ⟨t, ht, -, -, hword, -⟩ := h _ 1 0 _ _ hissued hdrop hslot hstate hstrag rfl
  rw [exec_heatReconcileDrop_of_issued hissued hdrop hslot hstate hstrag] at ht
  cases ht
  have hbefore : strayDropState.word (niB 0 + F.NI_EP_CFG_WIDTH.off) = 0xD000 := by decide +kernel
  have hafter : (((strayDropState.begin 1).unstrag 0 (strayDrop.p 16 8)).reply 1 0 []).word (niB 0 + F.NI_EP_CFG_WIDTH.off)
      = 0x8036 := by decide +kernel
  have hsame := hword (niB 0 + F.NI_EP_CFG_WIDTH.off) (Nat.le_add_right _ _)
  rw [hafter, hbefore] at hsame
  exact absurd hsame (by decide)

end Sys2Proof.Machine
end

section
/-! SUPPORT. The start of a command (R490, R491): what refuses it, and the command in execution that it leaves (R493). -/

namespace Sys2Proof.Machine

/-! ### Commands that act on no object -/

/-- PING acts on no object (R491). -/
theorem Cmd.objs_of_ping {c : Cmd} (h : c.op = 0) : c.objs = [] := by
  simp [Cmd.objs, h]

/-- A command that acts on no object waits for no other command's effect (R491). -/
theorem State.turn_of_objs_eq_nil (s : State) {c : Cmd} (h : c.objs = []) : s.turn c = true := by
  simp [State.turn, h]

/-- A command that starts is in execution, where none of its number was. -/
theorem State.cmd_append_of_none {s : State} {x : Nat} {c : Cmd} (q : List Cmd) (hnone : s.cmd x = none) (hid : c.id = x) :
    ({ s with cmdQ := q, cmds := s.cmds ++ [c] } : State).cmd x = some c := by
  have hfind : s.cmds.find? (fun d => d.id == x) = none := hnone
  simp [State.cmd, List.find?_append, hfind, hid]

/-! ### The status at the start -/

/-- Outside RUN every command but PING is refused with NOT_READY (R493). -/
theorem State.startCheck_notReady {s : State} {c : Cmd} (hrun : s.rd strB F.STR_BOOT_STATE ≠ 3) (hop : c.op ≠ 0) :
    s.startCheck c = 4 :=
  if_pos ⟨hrun, hop⟩

/-- A PING with an intact header on a path that may send it is refused in no boot state (R482, R489, R493). -/
theorem State.startCheck_ping {s : State} {c : Cmd} (hop : c.op = 0) (hlen : c.len ≤ 240)
    (hcarried : ∀ k, c.carried = some k → k = 16 + c.len) (hpath : bitAt (s.pathMask c.path) 0 = true) : s.startCheck c = 0 := by
  have hready : ¬ (s.rd strB F.STR_BOOT_STATE ≠ 3 ∧ c.op ≠ 0) := fun h => h.2 hop
  have hmay : ¬ (bitAt (s.pathMask c.path) (c.op / 16) = false ∨ ((c.op = 3 ∨ c.op = 5) ∧ c.path = 2)) := by
    simp [hop, hpath]
  have hdef : opcodeDefined c.op = true := by rw [hop]; decide
  rw [State.startCheck, if_neg hready, if_neg, if_neg hmay, if_pos hdef]
  -- The header is intact (R482): LEN is within bounds and agrees with the bytes that came
  rintro (hlong | hdiffers)
  · omega
  · split at hdiffers
    · next k hk => exact of_decide_eq_true hdiffers (hcarried k hk)
    · cases hdiffers

/-! ### The start of a command that nothing blocks -/

section
variable {s : State} {x : Nat} {c : Cmd}
  (hfind : s.cmdQ.find? (fun c => c.id == x) = some c)
  (hfirst : s.cmdQ.any (fun d => d.sameStream c && decide (d.id < x)) = false)
  (hfree : s.active.any (fun d => d.sameStream c && (c.fence || !d.begun)) = false)
  (hroom : s.active.length < 16) (hfloor : s.floorRun = true → c.op = 0)
include hfind hfirst hfree hroom hfloor

/-- A command that is the next of its stream and that nothing blocks leaves the queue: it starts, or is answered with the status
that refuses it. -/
theorem State.cmdStart_of_unblocked : s.cmdStart x =
    if s.startCheck { c with t0 := s.clock } = 0 then
      { s with cmdQ := s.cmdQ.filter (fun d => d.id != x), cmds := s.cmds ++ [{ c with t0 := s.clock }] }
    else ({ s with cmdQ := s.cmdQ.filter (fun d => d.id != x) } : State).sendReply { c with t0 := s.clock }
      (s.startCheck { c with t0 := s.clock }) [] := by
  have hgo : (!s.floorRun || c.op == 0) = true := by
    cases h : s.floorRun with
    | false => rfl
    | true => simp [hfloor h]
  simp only [State.cmdStart, hfind, hfirst, hfree, hroom, hgo]
  rfl

/-- A command that no rule refuses starts. -/
theorem exec_cmdStart_of_startCheck_eq_zero (hst : s.startCheck { c with t0 := s.clock } = 0) :
    exec (.cmdStart x) s = .next
      { s with cmdQ := s.cmdQ.filter (fun d => d.id != x), cmds := s.cmds ++ [{ c with t0 := s.clock }] } := by
  change execCmdStart x s = _
  rw [execCmdStart, State.cmdStart_of_unblocked hfind hfirst hfree hroom hfloor, if_pos hst]

/-- A command that a rule refuses is answered with the status of that rule. -/
theorem exec_cmdStart_of_startCheck_ne_zero {st : Nat} (hst : s.startCheck { c with t0 := s.clock } = st) (hne : st ≠ 0) :
    exec (.cmdStart x) s = .next (({ s with cmdQ := s.cmdQ.filter (fun d => d.id != x) } : State).sendReply
      { c with t0 := s.clock } st []) := by
  subst hst
  change execCmdStart x s = _
  rw [execCmdStart, State.cmdStart_of_unblocked hfind hfirst hfree hroom hfloor, if_neg hne]

end

/-! ### PING -/

/-- PING answers OK with the word of STR.FW_VER (R496). -/
theorem exec_ping_of_issued {s : State} {x : Nat} {c : Cmd} (hc : s.Issued x 0x00 [] c) :
    exec (.ping x) s = .next ((s.begin x).reply x 0 (leBytes 4 (s.word (strB + 4)).toNat)) := by
  change execPing x s = _
  rw [execPing, State.runCmd_issued s hc]
  rfl

/-- Settles O13: only the first of the start's checks depends on the boot state, and it passes PING alone. -/
theorem onlyPingIsAnsweredOutsideRun : Obligations.OnlyPingIsAnsweredOutsideRun := by
  unfold Obligations.OnlyPingIsAnsweredOutsideRun
  intro s x c hrun hfind hfirst hfree hroom hfloor
  have hquiet : s.floorRun = true → c.op = 0 := by simp [hfloor]
  refine ⟨fun hop => ?_, fun hop hlen hcarried hpath honly hbegun hnone => ?_⟩
  · exact exec_cmdStart_of_startCheck_ne_zero hfind hfirst hfree hroom hquiet (State.startCheck_notReady hrun hop) (by decide)
  · have hid : c.id = x := by simpa using List.find?_some hfind
    set d : Cmd := { c with t0 := s.clock }
    set t : State := { s with cmdQ := s.cmdQ.filter (fun d => d.id != x), cmds := s.cmds ++ [d] }
    have hstart : exec (.cmdStart x) s = .next t :=
      exec_cmdStart_of_startCheck_eq_zero hfind hfirst hfree hroom hquiet (State.startCheck_ping hop hlen hcarried hpath)
    have hcmd : t.cmd x = some d := State.cmd_append_of_none _ hnone hid
    have hturn : t.turn d = true := t.turn_of_objs_eq_nil (Cmd.objs_of_ping hop)
    exact ⟨t, hstart, hcmd, exec_ping_of_issued ⟨hcmd, hop, hbegun, hturn, honly⟩⟩

end Sys2Proof.Machine
end

section
/-! SUPPORT. A write to a register that is the only access in the Control Matrix, from its presentation to its response (R446, R455,
R463, R465, R470): it does what its register does, and the rest is the Control Matrix's. -/

namespace Sys2Proof.Machine

/-! ### The only access in the Control Matrix -/

theorem find?_foldl_max_replicate (f : Nat → Nat) (x n : Nat) :
    (List.replicate (n + 1) x).find? (fun m => f m == (List.replicate (n + 1) x).foldl (fun b m => max b (f m)) 0) = some x := by
  have htop : ∀ k, (List.replicate k x).foldl (fun b m => max b (f m)) (f x) = f x := by
    intro k
    induction k with
    | zero => rfl
    | succ k ih => rw [List.replicate_succ, List.foldl_cons, max_self, ih]
  simp [List.replicate_succ, htop]

section
variable {s : State} {a : Csa} (hacs : s.cmx.acs = [a]) (hasks : a.asks = true) (hrot : a.m ∈ s.cmxRot a.tgt)
  (hmay : s.mayUse a.m a.tgt = true)
include hacs hasks hrot hmay

/-- The only master that asks for a target wins it, whatever its level. -/
theorem State.cmxWinner_of_only : s.cmxWinner a.tgt = some a.m := by
  have hl : (s.cmxRot a.tgt).filter (fun m => s.mayUse m a.tgt && s.cmx.acs.any (fun b => b.m == m && b.tgt == a.tgt && b.asks))
      = List.replicate ((s.cmxRot a.tgt).count a.m) a.m := by
    rw [← List.filter_beq]
    refine List.filter_congr fun m _ => ?_
    by_cases h : m = a.m
    · subst h
      simp [hacs, hasks, hmay]
    · simp [hacs, beq_false_of_ne h, beq_false_of_ne (Ne.symm h)]
  obtain ⟨n, hn⟩ := Nat.exists_eq_succ_of_ne_zero (List.count_pos_iff.mpr hrot).ne'
  rw [hn] at hl
  simp only [State.cmxWinner, hl]
  exact find?_foldl_max_replicate _ _ _

/-- The only access in the Control Matrix is granted in its target's next phase (R455). -/
theorem State.cmxPhase_of_only :
    s.cmxPhase a.tgt = (s.updCmx (fun c => { c with
      acs := [{ a with gr := some s.clock }]
      rots := mset (fun _ => List.range 6) c.rots a.tgt ((s.cmxRot a.tgt).filter (fun k => k != a.m) ++ [a.m]) })).granting
        a.m a.tgt a.req := by
  obtain ⟨hgr, hrsp⟩ : a.gr = none ∧ a.rsp = none := by simpa [Csa.asks] using hasks
  have hidle : s.cmx.acs.any (fun b => b.tgt == a.tgt && b.working) = false := by simp [hacs, Csa.working, hgr]
  have hfind : s.cmx.acs.find? (fun b => b.m == a.m && b.tgt == a.tgt && b.asks) = some a := by simp [hacs, hasks]
  simp only [State.cmxPhase, hidle, State.cmxWinner_of_only hacs hasks hrot hmay, hfind]
  simp [State.updCmx, hacs, hrsp]

end

/-! ### Locks and queues that are not in play -/

section
variable {s : State} {m rel v : Nat} {u : Un}

/-- A write of one word does not carry LOCK while the Starter's lock bit is clear (R465). -/
theorem State.lockBit_wreq (h : m = 1 → s.flag strB F.STR_CMX_LOCK_LOCK = false) : s.lockBit m (wreq u rel v) = false := by
  unfold State.lockBit
  split
  · rfl
  · exact h rfl
  · rfl
  · rfl

theorem State.granting_of_no_lock {q : CsrReq} (t : Nat) (h : s.lockBit m q = false) : s.granting m t q = s := by
  simp [State.granting, h]

theorem State.closing_of_no_lock (t : Nat) (lock : Bool) (h : s.lockOf t = none) : s.closing m t lock = s := by
  simp [State.closing, h]

theorem State.brokenNow_of_owed_eq_nil (t : Nat) (h : s.cmx.owed = []) : s.brokenNow t = s := by
  simp [State.brokenNow, h]

theorem State.mgmtPump_of_idle (h : ∀ n, (s.ni n).mgmtIn = []) : s.mgmtPump = s := by
  refine forAll_induction (R := fun a b => a = s → b = s) (fun _ e => e) (fun h k e => k (h e)) _ ?_ s rfl
  rintro n - _ rfl
  simp [h]

/-! ### The grant of a write that goes -/

theorem State.entry?_of_goes (h : s.Goes m u rel v) : s.entry? m (wreq u rel v) = .ok u := by
  obtain ⟨⟨-, -, -, hunit, hreach, -, -, -, -, -, hreg, -⟩, -, hrel, -, -, -⟩ := h
  have hempty : emptyAt u (wreq u rel v) = false := by
    have hword : rel / 4 * 4 = rel := Nat.div_mul_cancel (Nat.dvd_of_mod_eq_zero hrel)
    simp [emptyAt, hword, hreg]
  have hmaster : s.reaches m u (wreq u rel v) = true := hreach
  simp [State.entry?, hunit, hmaster, hempty]

/-- The write is granted as it is presented, and performed at once (R455, R465). -/
theorem State.direct_of_goes (h : s.Goes m u rel v) :
    s.direct m (wreq u rel v) = (s.atTarget m u.target (wreq u rel v)).cmxDone s.cmx.next := by
  have hentry := State.entry?_of_goes h
  obtain ⟨⟨⟨-, hmay, hacs, -, -⟩, hrot, hlock1, -, -, hlock, -⟩, -⟩ := h
  set q := wreq u rel v
  set a : Csa := { ser := s.cmx.next, m := m, mg := none, req := q, tgt := u.target }
  set i := s.updCmx (fun c => { c with next := c.next + 1, acs := [a] }) with hi
  have hin : s.cmxIn m none q none = i := by simp [State.cmxIn, hentry, hacs, State.updCmx, hi, a]
  have hfree : i.mayUse m u.target = true := by
    have hunlocked : i.lockOf u.target = none := hlock
    simp [State.mayUse, hunlocked]
  have hphase : i.cmxPhase u.target = s.atTarget m u.target q :=
    (State.cmxPhase_of_only (s := i) (a := a) rfl rfl hrot hfree).trans (State.granting_of_no_lock _ (State.lockBit_wreq hlock1))
  have hentered : i.cmx.acs = [a] := rfl
  have hgranted : (s.atTarget m u.target q).cmx.acs = [{ a with gr := some s.clock }] := rfl
  simp [State.direct, hmay, hin, hentered, hphase, hgranted, Csa.working, a]

/-! ### Its performance -/

/-- A unit with a register there is none of the memories (R459). -/
theorem kind_of_regAt (h : regAt u rel = true) : u.kind ≠ .rom ∧ u.kind ≠ .brom ∧ u.kind ≠ .sram := by
  refine ⟨?_, ?_, ?_⟩ <;> intro hk <;> simp [regAt, hk, regsOf, specAt] at h

/-- A write that goes stores its word and does what the register does (R463). -/
theorem State.perform_of_goes (h : s.Goes m u rel v) :
    (s.atTarget m u.target (wreq u rel v)).perform m u (wreq u rel v) =
      (((s.atTarget m u.target (wreq u rel v)).putReg m u rel v).acted m u rel v
        ((s.atTarget m u.target (wreq u rel v)).view u rel).toNat, 0, 0) := by
  obtain ⟨⟨-, -, -, -, -, -, -, hawake, hstage, hdbg, hreg, -⟩, hv, halign, hpair, habsent, hrefuse⟩ := h
  obtain ⟨hrom, hbrom, hsram⟩ := kind_of_regAt hreg
  -- The grant changes the Control Matrix's accesses and rotation alone
  replace hawake : (s.atTarget m u.target (wreq u rel v)).asleep u = false := hawake
  replace hstage : mget (fun _ => none) (s.atTarget m u.target (wreq u rel v)).cmx.stage (mtKey m u.target) = none := hstage
  replace habsent : (s.atTarget m u.target (wreq u rel v)).absent u rel = false := habsent
  replace hdbg : (u.kind = .dbg ∨ u.kind = .trc) → (s.atTarget m u.target (wreq u rel v)).dbgDis = false := hdbg
  generalize s.atTarget m u.target (wreq u rel v) = g at *
  have hbase : (wreq u rel v).addr - u.base = rel := Nat.add_sub_cancel_left _ _
  have hwr : (wreq u rel v).wr = true := rfl
  have hsize : (wreq u rel v).size = 2 := rfl
  have hdata : bitsAt (wreq u rel v).data.toNat 0 32 = v := by
    simp only [bitsAt, BitVec.toNat_ofNat]
    omega
  generalize wreq u rel v = q at *
  have hstore : g.regStore m u rel 2 q.data.toNat = g.regWrite m u [(rel, v)] := by
    simp only [State.regStore, hdata, hreg, hpair, State.writeWord, hstage]
    rfl
  have hwrite : g.regWrite m u [(rel, v)] = ((g.putReg m u rel v).acted m u rel v (g.view u rel).toNat, 0) := by
    have hopen : ((u.kind == .dbg || u.kind == .trc) && g.dbgDis) = false := by simpa using hdbg
    simp [State.regWrite, hopen, hrefuse, habsent]
  simp [State.perform, hbase, hwr, hsize, hawake, hrom, hbrom, hsram, hstore, hwrite, halign]

/-- A granted write that leaves the Control Matrix alone is answered OKAY, and no lock changes (R455, R467). -/
theorem State.cmxDone_of_goes (h : s.Goes m u rel v) {w : State}
    (hperf : (s.atTarget m u.target (wreq u rel v)).perform m u (wreq u rel v) = (w, 0, 0))
    (hcmx : w.cmx = (s.atTarget m u.target (wreq u rel v)).cmx) :
    (s.atTarget m u.target (wreq u rel v)).cmxDone s.cmx.next = w.responded 0 (s.cmx.brk.contains u.target) := by
  have hentry : (s.atTarget m u.target (wreq u rel v)).entry? m (wreq u rel v) = .ok u :=
    (show _ = s.entry? m (wreq u rel v) from rfl).trans (State.entry?_of_goes h)
  obtain ⟨⟨⟨-, -, -, howed, -⟩, -, -, -, -, hlock, hcut, -⟩, -⟩ := h
  have hserved : (s.atTarget m u.target (wreq u rel v)).served m u (wreq u rel v) = (w, 0, 0) := by
    have hmember : (m, u.target) ∉ (s.atTarget m u.target (wreq u rel v)).cmx.cuts := hcut
    have hunlocked : w.lockOf u.target = none := by
      rw [State.lockOf, hcmx]
      exact hlock
    simp [State.served, hmember, hperf, State.closing_of_no_lock _ _ hunlocked]
  have hacs : (s.atTarget m u.target (wreq u rel v)).cmx.acs =
      [{ ser := s.cmx.next, m := m, mg := none, req := wreq u rel v, tgt := u.target, gr := some s.clock }] := rfl
  have hbrk : (s.atTarget m u.target (wreq u rel v)).cmx.brk = s.cmx.brk := rfl
  have hnone : w.cmx.owed = [] := by
    rw [hcmx]
    exact howed
  have hbroken (f : Cmx → Cmx) (hf : (f w.cmx).owed = []) : (w.updCmx f).brokenNow u.target = w.updCmx f :=
    State.brokenNow_of_owed_eq_nil _ hf
  generalize s.atTarget m u.target (wreq u rel v) = g at *
  have hfind : g.cmx.acs.find? (fun a => a.ser == s.cmx.next && a.gr.isSome && a.rsp.isNone) =
      some { ser := s.cmx.next, m := m, mg := none, req := wreq u rel v, tgt := u.target, gr := some s.clock } := by simp [hacs]
  simp only [State.cmxDone, hfind, hentry, hserved, hbrk, Bool.false_eq_true, if_false]
  rw [hbroken _ hnone, State.responded]
  simp [State.updCmx, hcmx, hacs]

/-- The state that a write leaves, where what its register does leaves the Control Matrix alone. -/
theorem State.direct_eq_wrote (h : s.Goes m u rel v)
    (hcmx : (((s.atTarget m u.target (wreq u rel v)).putReg m u rel v).acted m u rel v
      ((s.atTarget m u.target (wreq u rel v)).view u rel).toNat).cmx = (s.atTarget m u.target (wreq u rel v)).cmx) :
    s.direct m (wreq u rel v) = s.wrote m u rel v := by
  rw [State.direct_of_goes h, State.cmxDone_of_goes h (State.perform_of_goes h) hcmx, State.wrote]

/-! ### Its response -/

theorem State.flushCmx_single {a : Csa} {d : BitVec 64} {code : Nat} {lb : Bool} (hacs : s.cmx.acs = [a])
    (hrsp : a.rsp = some (d, code, lb)) :
    s.flushCmx = ((s.cmxAnswer a d code lb).updCmx (fun c => { c with acs := [] })).mgmtPump := by
  simp [State.flushCmx, hacs, hrsp]

/-- The answer OKAY to an access that no MGMT packet carries changes the Control Matrix alone (R470). -/
theorem State.cmxAnswer_okay (s : State) (a : Csa) (hmg : a.mg = none) (d : BitVec 64) (lb : Bool) :
    ∃ x : Cmx, s.cmxAnswer a d 0 lb = s.updCmx (fun _ => x) := by
  unfold State.cmxAnswer
  simp only [State.noteErr, if_pos]
  split
  · exact ⟨s.cmx, rfl⟩
  · rw [hmg]
    split
    · next h => cases h
    · exact ⟨_, rfl⟩
    · exact ⟨_, rfl⟩
    · exact ⟨s.cmx, rfl⟩

theorem State.flushCmx_okay {a : Csa} {d : BitVec 64} {lb : Bool} (hacs : s.cmx.acs = [a]) (hrsp : a.rsp = some (d, 0, lb))
    (hmg : a.mg = none) (hidle : ∀ n, (s.ni n).mgmtIn = []) : ∃ x : Cmx, s.flushCmx = s.updCmx (fun _ => x) := by
  obtain ⟨x, hx⟩ := s.cmxAnswer_okay a hmg d lb
  rw [State.flushCmx_single hacs hrsp, hx]
  exact ⟨_, State.mgmtPump_of_idle hidle⟩

theorem State.responded_okay {a : Csa} (hacs : s.cmx.acs = [a]) (hmg : a.mg = none) (hidle : ∀ n, (s.ni n).mgmtIn = [])
    (lb : Bool) : ∃ x : Cmx, s.responded 0 lb = s.updCmx (fun _ => x) := by
  have hrsp : s.cmx.acs.map (fun a => { a with rsp := some (0, 0, lb) }) = [{ a with rsp := some (0, 0, lb) }] := by
    rw [hacs]
    rfl
  obtain ⟨x, hx⟩ := State.flushCmx_okay (s := s.updCmx (fun c => { c with acs := c.acs.map (fun a =>
    { a with rsp := some (0, 0, lb) }) })) hrsp rfl hmg hidle
  exact ⟨x, hx⟩

/-- A write that goes, to a register that acts neither on the Control Matrix nor on an NI, does what the register does; the rest is
the Control Matrix's. -/
theorem State.direct_eq_acted (h : s.Goes m u rel v) {g w : State} (hg : g = s.atTarget m u.target (wreq u rel v))
    (hw : w = (g.putReg m u rel v).acted m u rel v (g.view u rel).toNat) (hcmx : w.cmx = g.cmx) (hnis : w.nis = g.nis) :
    ∃ x : Cmx, s.direct m (wreq u rel v) = w.updCmx (fun _ => x) := by
  subst hg hw
  rw [State.direct_eq_wrote h hcmx, State.wrote]
  obtain ⟨⟨⟨-, -, -, -, hidle⟩, -⟩, -⟩ := h
  refine State.responded_okay (congrArg Cmx.acs hcmx) rfl (fun n => ?_) _
  rw [State.ni, hnis]
  exact hidle n

end

end Sys2Proof.Machine
end

section
/-! SUPPORT. The home region (R546): GLB.RST_CTL does not reach it, and its faults escalate to what HRST_N does. -/

namespace Sys2Proof.Machine

/-! ### GLB.RST_CTL -/

/-- The Global block of the CSR window. -/
abbrev glbUnit : Un := { kind := .glb, base := 0, target := 0 }

/-- GLB.RST_CTL holds no value: its one field is write-only (R558). -/
theorem State.putReg_rstCtl (s : State) (m v : Nat) : s.putReg m glbUnit 0xC0 v = s.setWord 0xC0 (s.word 0xC0) := by
  have hspec : specAt 0xC0 (regsOf .glb) = some ⟨0xC0, 1, 4, false, [⟨0, 16, .wo, (.v 0), .m012, false⟩]⟩ := by decide +kernel
  simp [State.putReg, hspec]

theorem State.word_setWord_self (s : State) (o o' : Nat) : (s.setWord o (s.word o)).word o' = s.word o' := by
  rw [State.word_setWord]
  split
  · next h => rw [h]
  · rfl

/-- A write of 1 to the home region's bit alone resets no region (R546). -/
theorem State.acted_rstCtl_home (s : State) (m old : Nat) {v : Nat} (hv : v = 2 ^ s.rom.homeRegion) :
    s.acted m glbUnit 0xC0 v old = s := by
  have hother {g : Nat} (hg : g ≠ s.rom.homeRegion) : bitAt v g = false := by
    rw [bitAt_eq_testBit, hv, Nat.testBit_two_pow_of_ne hg.symm]
  have hacts : s.acts m glbUnit 0xC0 v old = s := by
    refine forAll_induction (R := fun a b => a = s → b = s) (fun _ e => e) (fun h k e => k (h e)) _ ?_ s rfl
    rintro g - _ rfl
    refine if_neg fun ⟨hbit, hg⟩ => ?_
    rw [hother hg] at hbit
    cases hbit
  rw [State.acted, hacts]
  rfl

/-- A write of 1 to the home region's bit changes the Control Matrix alone. -/
theorem exec_rstCtlRegion_home {s : State} {m : Nat} {v : Word} (h : s.Goes m glbUnit 0xC0 v.toNat)
    (hv : v.toNat = 2 ^ s.rom.homeRegion) :
    ∃ t : State, exec (.rstCtlRegion m v) s = .next t ∧ { t with csr := s.csr, cmx := s.cmx } = s ∧ ∀ o, t.word o = s.word o := by
  have hstore : exec (.rstCtlRegion m v) s = .next (s.direct m (wreq glbUnit 0xC0 v.toNat)) := by
    rw [wreq, BitVec.ofNat_toNat]
    rfl
  set g := s.atTarget m 0 (wreq glbUnit 0xC0 v.toNat) with hg
  have hacted (old : Nat) : (g.putReg m glbUnit 0xC0 v.toNat).acted m glbUnit 0xC0 v.toNat old = g.setWord 0xC0 (g.word 0xC0) := by
    rw [State.putReg_rstCtl]
    exact State.acted_rstCtl_home _ _ _ hv
  obtain ⟨x, hx⟩ := State.direct_eq_acted h hg (hacted _).symm rfl rfl
  exact ⟨_, hstore.trans (congrArg _ hx), rfl, g.word_setWord_self 0xC0⟩

/-! ### HRST_N and escalations to it -/

/-- Resets as by HRST_N differ in the cause that GLB.RST_STAT records, and in nothing else (R543, R546). -/
theorem State.hrst_eq_wr (s : State) : ∃ u : State, ∀ cause, s.hrst cause = u.wr glbB F.GLB_RST_STAT_CAUSE cause :=
  ⟨_, fun _ => rfl⟩

/-- An escalation leaves what HRST_N leaves, but for its cause (R546). -/
theorem State.hrst_agrees_with_hrstN (s : State) {cause : Nat} (hc : cause < 8) :
    ∃ b, exec .hrst s = .next b ∧ { s.hrst cause with csr := b.csr } = b
      ∧ (∀ o, o ≠ glbB + F.GLB_RST_STAT_CAUSE.off → (s.hrst cause).word o = b.word o)
      ∧ (s.hrst cause).rd glbB F.GLB_RST_STAT_CAUSE = cause := by
  obtain ⟨u, hu⟩ := s.hrst_eq_wr
  refine ⟨s.hrst 1, rfl, ?_, fun o ho => ?_, ?_⟩
  · rw [hu, hu]
    rfl
  · rw [hu, hu, State.word_wr_ne _ _ _ _ ho, State.word_wr_ne _ _ _ _ ho]
  · rw [hu, State.rd_wr_same _ _ _ _ (by decide)]
    exact Nat.mod_eq_of_lt hc

/-! ### Faults of the home region -/

theorem State.rgFault_home (s : State) {g : Nat} (hg : g = s.rom.homeRegion) (cause : Nat) :
    s.rgFault g cause = s.hrst (if cause = 1 then 2 else 3) := if_pos hg

/-- A supply below the reset threshold of a watched region is a region fault (R529). -/
theorem exec_droopReset_of_under {s : State} {g uv : Nat} (hr : s.hasRegion g = true) (hw : s.watched g = true)
    (hu : s.under g uv (s.droopCodes g).2 = true) :
    exec (.droopReset g uv) s = .next ((((s.wr pcrB (F.PCR_RG_STAT_DRST.ix g) 1).rgEvent g 1).count pcrB
      (F.PCR_DROOP_CNT_RST.ix g) 1).rgFault g 1) := by
  change execDroopReset g uv s = _
  rw [execDroopReset, guardUnit_of hr, State.droopReset, if_neg (by simp [hw, hu])]

/-- Fewer than 4 fabric clock edges in a running region are a region fault, outside a clock switch (R537). -/
theorem exec_clockFault_of_stopped {s : State} {g edges : Nat} (hr : s.hasRegion g = true) (he : edges < 4)
    (hst : [0, 1, 7].contains (s.rgState g) = true) (hheld : (s.rg g).held = false)
    (hsw : ∀ d, (s.rg g).step = some d → d.ph = 2 → d.todo.head? ≠ some true) :
    exec (.clockFault g edges) s = .next (s.rgFault g 2) := by
  change execClockFault g edges s = _
  rw [execClockFault, guardUnit_of hr, State.clockFault]
  refine congrArg _ (if_pos ⟨he, hst, hheld, ?_⟩)
  cases hstep : (s.rg g).step with
  | none => rfl
  | some d => simpa using hsw d hstep

theorem State.Near.rom {s t : State} (h : s.Near t) : t.rom = s.rom := by
  rw [← h]

/-- Settles O43: the write reaches a register that holds nothing and selects no region but the home region, and an escalation is the
reset of HRST_N under another cause. -/
theorem homeRegionResetsWithTheInstance : Obligations.HomeRegionResetsWithTheInstance := by
  unfold Obligations.HomeRegionResetsWithTheInstance
  intro s g hg hr
  refine ⟨fun m v hgoes hv => ?_, fun uv v hw hu hv => ?_, fun edges he hst hheld hsw => ?_⟩
  · exact exec_rstCtlRegion_home hgoes (hg ▸ hv)
  · have hrom : v.rom = s.rom := by
      rw [hv]
      exact State.Near.rom (((State.Near.wr s _ _ _).trans (State.near_raise _ _ _)).trans (.count _ _ _ _))
    have hhome : g = v.rom.homeRegion := by rw [hrom, hg]
    obtain ⟨b, hrest⟩ := v.hrst_agrees_with_hrstN (cause := 2) (by decide)
    refine ⟨v.hrst 2, b, ?_, hrest⟩
    rw [exec_droopReset_of_under hr hw hu, ← hv, v.rgFault_home hhome]
    rfl
  · obtain ⟨b, hrest⟩ := s.hrst_agrees_with_hrstN (cause := 3) (by decide)
    refine ⟨s.hrst 3, b, ?_, hrest⟩
    rw [exec_clockFault_of_stopped hr he hst hheld hsw, s.rgFault_home hg]
    rfl

end Sys2Proof.Machine
end

section
/-! SUPPORT. What the model's selections pick: the winners of arbitration (R166, R455), the walk over a gate list (R276), the lanes
that training takes (R572) and the interrupt lines (R597). -/

namespace Sys2Proof.Machine

/-! ### Maxima over lists -/

theorem le_foldl_max {α : Type} (f : α → Nat) (l : List α) (a : Nat) :
    a ≤ l.foldl (fun b x => max b (f x)) a ∧ ∀ x ∈ l, f x ≤ l.foldl (fun b x => max b (f x)) a := by
  induction l generalizing a with
  | nil => simp
  | cons y r ih =>
    obtain ⟨hbase, hmem⟩ := ih (max a (f y))
    simp only [List.foldl_cons, List.mem_cons, forall_eq_or_imp]
    exact ⟨by omega, by omega, hmem⟩

/-- A maximum over a list that is not empty is the value of a member. -/
theorem exists_eq_foldl_max {α : Type} (f : α → Nat) {l : List α} (hl : l ≠ []) :
    ∃ x ∈ l, f x = l.foldl (fun b x => max b (f x)) 0 := by
  suffices ∀ (l : List α) (a : Nat), (∃ x ∈ l, f x = l.foldl (fun b x => max b (f x)) a)
      ∨ l.foldl (fun b x => max b (f x)) a = a by
    rcases this l 0 with h | h
    · exact h
    · obtain ⟨x, hx⟩ := List.exists_mem_of_ne_nil l hl
      exact ⟨x, hx, by have := (le_foldl_max f l 0).2 x hx; omega⟩
  intro l
  induction l with
  | nil => exact fun a => .inr rfl
  | cons y r ih =>
    intro a
    simp only [List.foldl_cons]
    rcases ih (max a (f y)) with ⟨x, hx, h⟩ | h
    · exact .inl ⟨x, List.mem_cons_of_mem _ hx, h⟩
    · rcases Nat.le_total a (f y) with hle | hle
      · exact .inl ⟨y, List.mem_cons_self, by omega⟩
      · exact .inr (by omega)

/-! ### Arbitration -/

/-- A class with a requester whose pair stands in the rotation list has a winner (R166, R167). -/
theorem State.exists_best_of_class {s : State} {o : Port} {rs : List (Nat × Nat)} {r : Nat × Nat} {c : Nat}
    (hrot : ∀ r ∈ rs, 4 * r.1 + r.2 / 4 ∈ (s.port o).rot.getD (r.2 % 4) []) (hr : r ∈ rs) (hc : r.2 % 4 = c) :
    ∃ b ∈ rs.filter (fun r => r.2 % 4 == c), s.level o b.1 b.2 =
        (rs.filter (fun r => r.2 % 4 == c)).foldl (fun a r => max a (s.level o r.1 r.2)) 0
      ∧ 4 * b.1 + b.2 / 4 ∈ (s.port o).rot.getD c [] := by
  have hne : rs.filter (fun r => r.2 % 4 == c) ≠ [] := List.ne_nil_of_mem (List.mem_filter.mpr ⟨hr, by simpa using hc⟩)
  obtain ⟨b, hb, hlevel⟩ := exists_eq_foldl_max (fun r => s.level o r.1 r.2) hne
  obtain ⟨hbrs, hbc⟩ := List.mem_filter.mp hb
  exact ⟨b, hb, hlevel, by simpa [eq_of_beq hbc] using hrot b hbrs⟩

/-- Settles O9: a class that has a requester finds a winner, so the first class that finds one is the best, and its winner is taken
from those of the top level. -/
theorem winnerHasBestClassAndLevel : Obligations.WinnerHasBestClassAndLevel := by
  unfold Obligations.WinnerHasBestClassAndLevel
  intro s o rs w hrot _ hw
  rw [State.winner, List.findSome?_eq_some_iff] at hw
  obtain ⟨before, c, after, hrange, hc, hbefore⟩ := hw
  obtain ⟨k, -, hfind⟩ := List.exists_of_findSome?_eq_some hc
  obtain ⟨hmine, htop⟩ := List.mem_filter.mp (List.mem_of_find?_eq_some hfind)
  obtain ⟨hwrs, hwc⟩ := List.mem_filter.mp hmine
  have hwc : w.2 % 4 = c := eq_of_beq hwc
  refine ⟨hwrs, fun r hr => ⟨?_, fun hrc => ?_⟩⟩
  · by_contra hlt
    have hsorted : (before ++ c :: after).Pairwise (· < ·) := hrange ▸ List.pairwise_lt_range
    have hmem : r.2 % 4 ∈ before := by
      have hr4 : r.2 % 4 ∈ before ++ c :: after := hrange ▸ List.mem_range.mpr (Nat.mod_lt _ (by decide))
      obtain ⟨-, hafter, -⟩ := List.pairwise_append.mp hsorted
      rcases List.mem_append.mp hr4 with h | h
      · exact h
      · rcases List.mem_cons.mp h with h | h
        · omega
        · have := List.rel_of_pairwise_cons hafter h
          omega
    obtain ⟨b, hb, hlevel, hbrot⟩ := s.exists_best_of_class hrot hr rfl
    have hnone := List.findSome?_eq_none_iff.mp (hbefore _ hmem) _ hbrot
    have := List.find?_eq_none.mp hnone b (List.mem_filter.mpr ⟨hb, by simpa using hlevel⟩)
    simp at this
  · have hin : r ∈ rs.filter (fun r => r.2 % 4 == c) := List.mem_filter.mpr ⟨hr, by simpa using hrc.trans hwc⟩
    rw [eq_of_beq htop]
    exact (le_foldl_max (fun r => s.level o r.1 r.2) _ 0).2 r hin

/-- Settles O49: the winner is the first of the rotation list among the askers of the top level. -/
theorem phaseWinnerHasHighestLevel : Obligations.PhaseWinnerHasHighestLevel := by
  unfold Obligations.PhaseWinnerHasHighestLevel
  intro s t m hm
  have hask : ∀ k, (s.mayUse k t && s.cmx.acs.any (fun a => a.m == k && a.tgt == t && a.asks)) = true ↔
      s.mayUse k t = true ∧ ∃ a ∈ s.cmx.acs, a.m = k ∧ a.tgt = t ∧ a.asks = true := by
    simp [and_assoc]
  rw [State.cmxWinner] at hm
  obtain ⟨hmrot, hmask⟩ := List.mem_filter.mp (List.mem_of_find?_eq_some hm)
  have htop := eq_of_beq (List.find?_some (p := fun m => s.cmxLevel m t == _) hm)
  obtain ⟨huse, hacs⟩ := (hask m).mp hmask
  refine ⟨hmrot, huse, hacs, fun k hk hkuse hkacs => ⟨?_, fun hlevel => ?_⟩⟩
  · rw [htop]
    exact (le_foldl_max (fun m => s.cmxLevel m t) _ 0).2 k (List.mem_filter.mpr ⟨hk, (hask k).mpr ⟨hkuse, hkacs⟩⟩)
  · rw [List.find?_filter, List.find?_eq_some_iff_append] at hm
    obtain ⟨-, before, after, hsplit, hbefore⟩ := hm
    have hkb : k ∉ before := fun hmem => by
      have := hbefore k hmem
      rw [(hask k).mpr ⟨hkuse, hkacs⟩, hlevel, htop] at this
      simp at this
    rw [hsplit, List.idxOf_append_of_notMem hkb]
    by_cases hmb : m ∈ before
    · rw [List.idxOf_append_of_mem hmb]
      exact Nat.le_add_right_of_le (List.idxOf_le_length)
    · rw [List.idxOf_append_of_notMem hmb, List.idxOf_cons_self]
      omega

/-! ### Gate lists -/

/-- The walk from entry `i` on stops at the entry whose span holds the position (R276). -/
theorem gateWalk_eq_of_span (es : List GateEntry) : ∀ (x i k : Nat), k < es.length →
    ((es.take k).map (fun e => e.2.2)).sum ≤ x → (k + 1 < es.length → x < ((es.take (k + 1)).map (fun e => e.2.2)).sum) →
    gateWalk es x i = (i + k, (es.getD k (0, false, 0)).1) := by
  induction es with
  | nil => intro x i k hk; simp at hk
  | cons e r ih =>
    intro x i k hk hle hlt
    cases k with
    | zero => cases r with
      | nil => rfl
      | cons e' r' =>
        have hx : x < e.2.2 := by simpa using hlt
        simp [gateWalk, Nat.not_le.mpr hx]
    | succ k =>
      have hr : r ≠ [] := by rintro rfl; simp at hk
      simp only [List.take_succ_cons, List.map_cons, List.sum_cons, List.length_cons] at hk hle hlt
      rw [gateWalk.eq_3 _ _ _ _ hr, if_pos (by omega), ih _ _ k (by omega) (by omega) (fun h => by have := hlt (by omega); omega)]
      simp only [List.getD_cons_succ, Prod.mk.injEq, and_true]
      omega

/-- Settles O40, by induction over the list: each interval that the position has passed is taken off it. -/
theorem gateWalkFindsTheEntry : Obligations.GateWalkFindsTheEntry := by
  unfold Obligations.GateWalkFindsTheEntry
  intro es x k hk hle hlt
  simpa using gateWalk_eq_of_span es x 0 k hk hle hlt

/-! ### Lanes -/

/-- Lanes `m` to `m + v` form an aligned group of good lanes within the limits (R572). -/
def GoodGroup (g limit mask m v : Nat) : Prop :=
  v ≤ g ∧ v ≤ limit ∧ v ∣ m ∧ m + v ≤ g ∧ ∀ b, b < v → bitAt mask (m + b) = true

/-- Whether group `i` of width `w` has good lanes only. -/
def goodLanes (mask w i : Nat) : Bool := (List.range w).all (fun b => bitAt mask (w * i + b))

theorem goodLanes_iff {mask w i : Nat} : goodLanes mask w i = true ↔ ∀ b, b < w → bitAt mask (w * i + b) = true := by
  simp [goodLanes]

/-- What training finds at one width: the lowest good group (R572). -/
def groupOfWidth (g limit mask w : Nat) : Option (Nat × Nat) :=
  if g < w ∨ limit < w then none else ((List.range (g / w)).find? (goodLanes mask w)).map (fun i => (w * i, w))

theorem laneGroup_eq (g limit mask : Nat) : laneGroup g limit mask = [8, 4, 2, 1].findSome? (groupOfWidth g limit mask) := rfl

theorem groupOfWidth_eq_some {g limit mask v l0 w : Nat} (h : groupOfWidth g limit mask v = some (l0, w)) :
    v = w ∧ GoodGroup g limit mask l0 w ∧ ∀ m, GoodGroup g limit mask m w → l0 ≤ m := by
  unfold groupOfWidth at h
  split at h
  next => exact absurd h nofun
  next hlim =>
    rw [Option.map_eq_some_iff] at h
    obtain ⟨i, hfind, heq⟩ := h
    obtain ⟨rfl, rfl⟩ := Prod.mk.inj heq
    obtain ⟨hgood, hmem, hlow⟩ := List.find?_range_eq_some.mp hfind
    have hle : v * i + v ≤ g := calc
      v * i + v = v * (i + 1) := (Nat.mul_succ v i).symm
      _ ≤ v * (g / v) := Nat.mul_le_mul_left v (List.mem_range.mp hmem)
      _ ≤ g := Nat.mul_div_le g v
    refine ⟨rfl, ⟨by omega, by omega, ⟨i, rfl⟩, hle, goodLanes_iff.mp hgood⟩, ?_⟩
    rintro m ⟨-, -, ⟨j, rfl⟩, -, hall⟩
    refine Nat.mul_le_mul_left v (Nat.le_of_not_lt fun hji => ?_)
    have := hlow j hji
    rw [goodLanes_iff.mpr hall] at this
    exact absurd this nofun

/-- A width with a good group finds one. -/
theorem groupOfWidth_ne_none {g limit mask m v : Nat} (hv : 0 < v) (h : GoodGroup g limit mask m v) :
    groupOfWidth g limit mask v ≠ none := by
  obtain ⟨hg, hlim, ⟨j, rfl⟩, hle, hall⟩ := h
  have hj : j < g / v := (Nat.le_div_iff_mul_le hv).mpr (by rw [Nat.mul_comm, Nat.mul_succ]; exact hle)
  intro hnone
  rw [groupOfWidth, if_neg (by omega), Option.map_eq_none_iff] at hnone
  exact List.find?_eq_none.mp hnone j (List.mem_range.mpr hj) (goodLanes_iff.mpr hall)

/-- Settles O45: the widths are tried from the widest on, and each one from its lowest group on. -/
theorem laneGroupIsWidestThenLowest : Obligations.LaneGroupIsWidestThenLowest := by
  unfold Obligations.LaneGroupIsWidestThenLowest
  intro g limit mask l0 w h
  rw [laneGroup_eq, List.findSome?_eq_some_iff] at h
  obtain ⟨before, v', after, hwidths, hfind, hbefore⟩ := h
  obtain ⟨rfl, hgroup, hlow⟩ := groupOfWidth_eq_some hfind
  have hmem : ∀ v, v ∈ before ++ v' :: after ↔ v = 8 ∨ v = 4 ∨ v = 2 ∨ v = 1 := fun v => by rw [← hwidths]; simp
  refine ⟨(hmem v').mp (by simp), hgroup.1, hgroup.2.1, hgroup.2.2.1, hgroup.2.2.2.1, hgroup.2.2.2.2, ?_⟩
  intro v m hv hg hlim hdvd hle hall
  have hgood : GoodGroup g limit mask m v := ⟨hg, hlim, hdvd, hle, hall⟩
  refine ⟨?_, fun hvw => hlow m (hvw ▸ hgood)⟩
  have hsorted : (before ++ v' :: after).Pairwise (· > ·) := hwidths ▸ by decide
  obtain ⟨-, hafter, -⟩ := List.pairwise_append.mp hsorted
  rcases List.mem_append.mp ((hmem v).mpr hv) with hin | hin
  · exact absurd (hbefore v hin) (groupOfWidth_ne_none (by omega) hgood)
  · rcases List.mem_cons.mp hin with rfl | hin
    · exact Nat.le_refl _
    · exact Nat.le_of_lt (List.rel_of_pairwise_cons hafter hin)

/-! ### Interrupt lines -/

/-- A line that a source newly holds high is added to the levels. -/
theorem bitAt_add_two_pow {a w : Nat} (h : bitAt a w = false) (l : Nat) :
    bitAt (a + 2 ^ w) l = true ↔ bitAt a l = true ∨ w = l := by
  have hzero : bitsAt a w 1 = 0 := by
    have hlt := bitsAt_lt a w 1
    have hne : bitsAt a w 1 ≠ 1 := by simpa [bitAt_eq] using h
    omega
  have hput : a + 2 ^ w = bitsPut a w 1 1 := by simp [bitsPut, hzero]
  rw [hput, bitAt_eq, bitAt_eq]
  rcases Nat.lt_trichotomy w l with hlt | rfl | hlt
  · rw [bitsAt_bitsPut_above _ _ _ _ _ _ hlt]
    simp [Nat.ne_of_lt hlt]
  · simp [bitsAt_bitsPut_same]
  · rw [bitsAt_bitsPut_below _ _ _ _ _ _ hlt]
    simp [Nat.ne_of_gt hlt]

/-- A line of INT_OUT is held high exactly by the asserted sources that are routed to it with INT_EN (R597). -/
theorem State.bitAt_intLevels (s : State) (l : Nat) : bitAt s.intLevels l = true ↔
    ∃ k, k < 640 ∧ s.rd evtB (F.EVT_ROUTE_INT_EN.ix k) = 1 ∧ s.rd evtB (F.EVT_ROUTE_LINE.ix k) = l ∧ s.asserted k = true := by
  suffices ∀ (ks : List Nat) (a : Nat), bitAt (ks.foldl (fun a k =>
      let w := s.rd evtB (F.EVT_ROUTE_LINE.ix k)
      if s.rd evtB (F.EVT_ROUTE_INT_EN.ix k) = 1 ∧ bitAt a w = false ∧ s.asserted k = true then a + 2 ^ w else a) a) l = true ↔
      bitAt a l = true ∨ ∃ k ∈ ks, s.rd evtB (F.EVT_ROUTE_INT_EN.ix k) = 1 ∧ s.rd evtB (F.EVT_ROUTE_LINE.ix k) = l
        ∧ s.asserted k = true by
    have hzero : bitAt 0 l = false := by simp [bitAt]
    simpa [hzero, State.intLevels] using this (List.range 640) 0
  intro ks
  induction ks with
  | nil => simp
  | cons k r ih =>
    intro a
    simp only [List.foldl_cons, List.mem_cons, exists_eq_or_imp, ih]
    split
    next h =>
      obtain ⟨hen, hlow, has⟩ := h
      rw [bitAt_add_two_pow hlow]
      simp [hen, has, or_assoc]
    next h =>
      have hkeep : s.rd evtB (F.EVT_ROUTE_INT_EN.ix k) = 1 ∧ s.rd evtB (F.EVT_ROUTE_LINE.ix k) = l ∧ s.asserted k = true →
          bitAt a l = true := by
        rintro ⟨hen, rfl, has⟩
        by_contra hb
        exact h ⟨hen, by simpa using hb, has⟩
      rw [← or_assoc, or_iff_left_of_imp hkeep]

/-- Settles O54: the state that the lines show picks between the kept levels, none, and those of the asserted sources. -/
theorem lineIsHighForItsAssertedSources : Obligations.LineIsHighForItsAssertedSources := by
  unfold Obligations.LineIsHighForItsAssertedSources
  rintro s l st e r - rfl rfl he
  rw [State.intOut, ← he]
  refine ⟨?_, ?_, fun h => ?_⟩
  · rintro (rfl | rfl) <;> rfl
  · rintro (rfl | rfl) <;> rfl
  · rw [← s.bitAt_intLevels]
    rcases h with rfl | h
    · exact Iff.rfl
    · obtain ⟨d, rfl⟩ := Nat.exists_eq_add_of_le' h
      exact Iff.rfl

end Sys2Proof.Machine
end

section
/-! SUPPORT. The step with a command and without one (R288, R292, R514), and the state right after reset. -/

namespace Sys2Proof.Machine

/-- Settles O55: the step's own second case. -/
theorem stepRunsTheFrontCommand : Obligations.StepRunsTheFrontCommand := by
  unfold Obligations.StepRunsTheFrontCommand
  intro s c
  rw [step]

theorem State.step_of_pending_eq_nil {s : State} (h : s.pending = []) : step s = .next (s.tick.land 250) := by
  rw [step, h, State.idle]

/-- A round that leaves the state in every number leaves it. -/
theorem forAll_eq_self {f : Nat → State → State} {n : Nat} {s : State} (h : ∀ i, i < n → f i s = s) : forAll n f s = s := by
  suffices ∀ l : List Nat, (∀ i ∈ l, i < n) → l.foldl (fun a i => f i a) s = s from this _ (fun i hi => List.mem_range.mp hi)
  intro l
  induction l with
  | nil => exact fun _ => rfl
  | cons i r ih =>
    intro hl
    rw [List.foldl_cons, h i (hl i List.mem_cons_self)]
    exact ih fun j hj => hl j (List.mem_cons_of_mem _ hj)

/-- With no entry on its way that is due, none arrives (R514). -/
theorem State.land_eq_self {s : State} {n : Nat} (h : ∀ g, g < s.rom.regions.length →
    s.rgState g ≠ 5 ∨ (s.rg g).q = none ∨ ∃ q, (s.rg g).q = some q ∧ s.clock < q + n) : s.land n = s := by
  refine forAll_eq_self fun g hg => ?_
  rcases h g hg with hst | hq | ⟨q, hq, hlt⟩
  · cases hq : (s.rg g).q with
    | none => rfl
    | some q => exact if_neg fun hdue => hst hdue.1
  · rw [hq]
  · rw [hq]
    exact if_neg fun hdue => Nat.not_le.mpr hlt hdue.2

/-- Settles O56: each case is a branch of the carrier cycle. -/
theorem emptyQueuePassesACarrierCycle : Obligations.EmptyQueuePassesACarrierCycle := by
  unfold Obligations.EmptyQueuePassesACarrierCycle
  intro s hp
  rw [State.step_of_pending_eq_nil hp, State.tick]
  refine ⟨fun hc => ?_, fun hc htc => ?_, fun hc htc => ?_, State.land_eq_self⟩
  · rw [if_pos hc]
  · rw [if_neg (by simp [hc]), if_neg (by omega)]
  · rw [if_neg (by simp [hc]), if_pos htc]

/-- Settles O57: the tables of the state after reset are empty. -/
theorem resetStateHoldsNothing : Obligations.ResetStateHoldsNothing := by
  unfold Obligations.ResetStateHoldsNothing
  exact ⟨rfl, fun o => State.word_of_empty _ rfl o, fun _ => rfl, fun _ => rfl, rfl, rfl, rfl, State.reset_memory_wf⟩

end Sys2Proof.Machine
end

section
/-! SUPPORT. What no command changes: the queue behind it, the ROM, the straps and the canonical form of the Starter's memory. Each
operation of the model has one rule: applied to a state that has the base of `s`, it leaves one that has. -/

namespace Sys2Proof.Machine

/-- `t` has the queue, the ROM and the straps of `s`, and the Starter's memory in canonical form where `s` has it so. -/
structure State.SameBase (s t : State) : Prop where
  pending : t.pending = s.pending
  rom : t.rom = s.rom
  straps : t.straps = s.straps
  sram : Memory.wf s.starter.sram = true → Memory.wf t.starter.sram = true

namespace State.SameBase

variable {s t : State}

theorem refl (s : State) : s.SameBase s := ⟨rfl, rfl, rfl, id⟩

theorem trans {u : State} (h : s.SameBase t) (k : t.SameBase u) : s.SameBase u :=
  ⟨k.pending.trans h.pending, k.rom.trans h.rom, k.straps.trans h.straps, k.sram ∘ h.sram⟩

theorem ite {c : Prop} [Decidable c] {a b : State} (ha : s.SameBase a) (hb : s.SameBase b) : s.SameBase (if c then a else b) := by
  split
  · exact ha
  · exact hb

theorem fst {α : Type} {a : α} (h : s.SameBase t) : s.SameBase (t, a).1 := h

theorem snd {α : Type} {a : α} (h : s.SameBase t) : s.SameBase (a, t).2 := h

theorem foldl {α : Type} {f : State → α → State} {l : List α} (hf : ∀ a x, s.SameBase a → s.SameBase (f a x))
    (h : s.SameBase t) : s.SameBase (l.foldl f t) := by
  induction l generalizing t with
  | nil => exact h
  | cons x r ih => exact ih (hf t x h)

theorem foldr {α : Type} {f : α → State → State} {l : List α} (hf : ∀ x a, s.SameBase a → s.SameBase (f x a))
    (h : s.SameBase t) : s.SameBase (l.foldr f t) := by
  induction l with
  | nil => exact h
  | cons x r ih => exact hf x _ ih

/-- A fold that carries a value beside the state. -/
theorem foldlFst {α β : Type} {f : State × α → β → State × α} {l : List β} {a : α}
    (hf : ∀ p x, s.SameBase p.1 → s.SameBase (f p x).1) (h : s.SameBase t) : s.SameBase (l.foldl f (t, a)).1 := by
  suffices ∀ p : State × α, s.SameBase p.1 → s.SameBase (l.foldl f p).1 from this _ h
  induction l with
  | nil => exact fun _ hp => hp
  | cons x r ih => exact fun p hp => ih _ (hf p x hp)

theorem forAll {n : Nat} {f : Nat → State → State} (hf : ∀ i a, s.SameBase a → s.SameBase (f i a)) (h : s.SameBase t) :
    s.SameBase (Machine.forAll n f t) :=
  h.foldl fun a i ha => hf i a ha

/-- A change of any other part of the state. -/
theorem upd
    {clock free csr nis ports planeFaults time pfs evd evKey trc trcRun cmdNext cmdQ cmds asks leaveQ leaves gives claimAt
    heats relay joints clients heatCrc slcs migSync captured intKept plst planeHit floorStep floorRun rgs pacer start
    cmx sps links tap scan}
    (h : s.SameBase t) :
    s.SameBase { t with
      clock, free, csr, nis, ports, planeFaults, time, pfs, evd, evKey, trc, trcRun, cmdNext, cmdQ, cmds, asks, leaveQ,
      leaves, gives, claimAt, heats, relay, joints, clients, heatCrc, slcs, migSync, captured, intKept, plst,
      planeHit, floorStep, floorRun, rgs, pacer, start, cmx, sps, links, tap, scan } :=
  ⟨h.pending, h.rom, h.straps, h.sram⟩

/-- A change of any other part of the state, and of the Starter beside its memory. -/
theorem updStarter
    {clock free csr nis ports planeFaults time pfs evd evKey trc trcRun cmdNext cmdQ cmds asks leaveQ leaves gives claimAt
    heats relay joints clients heatCrc slcs migSync captured intKept plst planeHit floorStep floorRun rgs pacer start
    cmx sps links tap scan
    len wdog msp out} (h : s.SameBase t) :
    s.SameBase { t with
      clock, free, csr, nis, ports, planeFaults, time, pfs, evd, evKey, trc, trcRun, cmdNext, cmdQ, cmds, asks, leaveQ,
      leaves, gives, claimAt, heats, relay, joints, clients, heatCrc, slcs, migSync, captured, intKept, plst,
      planeHit, floorStep, floorRun, rgs, pacer, start, cmx, sps, links, tap, scan,
      starter := { t.starter with len, wdog, msp, out } } :=
  ⟨h.pending, h.rom, h.straps, h.sram⟩

end State.SameBase

end Sys2Proof.Machine
end

section
/-! SUPPORT. The rule of each operation, in the order in which the model builds them. -/

namespace Sys2Proof.Machine

namespace State.SameBase

variable {s t : State}

theorem setWord {off w} (h : s.SameBase t) : s.SameBase (t.setWord off w) :=
  h.upd

theorem wr {base f v} (h : s.SameBase t) : s.SameBase (t.wr base f v) :=
  h.setWord

theorem pfGo {k v} (h : s.SameBase t) : s.SameBase (t.pfGo k v) :=
  h.wr

theorem setPf {k v} (h : s.SameBase t) : s.SameBase (t.setPf k v) :=
  h.upd

theorem give {kind who} (h : s.SameBase t) : s.SameBase (t.give kind who) :=
  .ite h.upd.upd h.upd

theorem setPin {k owner ni} (h : s.SameBase t) : s.SameBase (t.setPin k owner ni) :=
  h.wr.wr.wr.wr

theorem freePin {k owner} (h : s.SameBase t) : s.SameBase (t.freePin k owner) :=
  .ite h.setPin h

theorem setNi {n x} (h : s.SameBase t) : s.SameBase (t.setNi n x) :=
  h.upd

theorem updNi {n f} (h : s.SameBase t) : s.SameBase (t.updNi n f) :=
  h.setNi

theorem pfFree {k} (h : s.SameBase t) : s.SameBase (t.pfFree k) :=
  (SameBase.ite ((h.foldl (fun _ _ h => .ite h.updNi h)).freePin) (h.foldl (fun _ _ h => .ite h.updNi h))).setPf

theorem pfIdle {k} (h : s.SameBase t) : s.SameBase (t.pfIdle k) :=
  (h.pfFree.give.foldl (fun _ _ h => h.setWord)).setPf.pfGo

theorem pushSys {n p} (h : s.SameBase t) : s.SameBase (t.pushSys n p) :=
  h.updNi

theorem pushVn3 {n ptype op dest slice tag gen addr payload} (h : s.SameBase t) : s.SameBase
    (t.pushVn3 n ptype op dest slice tag gen addr payload) :=
  h.pushSys

theorem count {base f k} (h : s.SameBase t) : s.SameBase (t.count base f k) :=
  h.wr

theorem pushEvent {n dest sc op slice payload} (h : s.SameBase t) : s.SameBase (t.pushEvent n dest sc op slice payload) :=
  h.pushSys

theorem sendMsg {x f v cause} (h : s.SameBase t) : s.SameBase (t.sendMsg x f v cause).1 := by
  dsimp only [State.sendMsg]
  split
  · exact h
  · split
    · exact h
    · split
      · exact h.count.fst
      · exact h.pushEvent.fst

theorem sendMsgs {x cause} (h : s.SameBase t) : s.SameBase (t.sendMsgs x cause).1 :=
  h.sendMsg.sendMsg

theorem setWord64 {off v} (h : s.SameBase t) : s.SameBase (t.setWord64 off v) :=
  h.setWord.setWord

theorem logErr {src cause sev data} (h : s.SameBase t) : s.SameBase (t.logErr src cause sev data) :=
  h.setWord.setWord.setWord64.count

theorem setBit {base f i} (h : s.SameBase t) : s.SameBase (t.setBit base f i) :=
  h.wr

theorem occur {x i} (h : s.SameBase t) : s.SameBase (t.occur x i).1 := by
  dsimp only [State.occur]
  split
  · split
    · exact h.setBit.logErr.sendMsgs
    · exact h.setBit.logErr.fst
  · split
    · exact h.setBit.sendMsgs
    · exact h.setBit.fst

theorem msgLost {ovf bad} (h : s.SameBase t) : s.SameBase (t.msgLost ovf bad) :=
  .ite ((SameBase.ite h.occur h).occur) (.ite h.occur h)

theorem raise {x i} (h : s.SameBase t) : s.SameBase (t.raise x i) :=
  h.occur.msgLost

theorem glEvent {g i} (h : s.SameBase t) : s.SameBase (t.glEvent g i) :=
  h.raise

theorem putBytes {off l} (h : s.SameBase t) : s.SameBase (t.putBytes off l) :=
  h.forAll (fun _ _ h => h.setWord)

theorem sendReply {c status data} (h : s.SameBase t) : s.SameBase (t.sendReply c status data) :=
  .ite ((SameBase.ite h.count h.count.wr).pushVn3) ((SameBase.ite h.count h.count.wr).putBytes.wr.wr.glEvent)

theorem reply {x status data} (h : s.SameBase t) : s.SameBase (t.reply x status data) := by
  dsimp only [State.reply]
  split
  · exact h
  · exact .ite h.upd h.upd.sendReply

theorem updPacer {f} (h : s.SameBase t) : s.SameBase (t.updPacer f) :=
  h.upd

theorem updCmx {f} (h : s.SameBase t) : s.SameBase (t.updCmx f) :=
  h.upd

theorem orderSync (h : s.SameBase t) : s.SameBase t.orderSync :=
  (SameBase.ite h ((SameBase.ite (h.upd.forAll (fun _ _ h => h.updNi)) h.upd).glEvent)).forAll (fun _ _ h => h.wr)

theorem testLeave (h : s.SameBase t) : s.SameBase t.testLeave :=
  h.wr.wr.orderSync

theorem notice {n i} (h : s.SameBase t) : s.SameBase (t.notice n i) :=
  h.raise

theorem refreshTime (h : s.SameBase t) : s.SameBase t.refreshTime :=
  (SameBase.ite h.wr.wr.wr.wr.wr.wr.glEvent h.wr.wr.wr.wr.wr.wr).forAll (fun _ _ h => .ite h.wr (.ite h.wr.wr
    h.wr.wr.wr.wr.notice))

theorem setPort {o x} (h : s.SameBase t) : s.SameBase (t.setPort o x) :=
  h.upd

theorem updPort {o f} (h : s.SameBase t) : s.SameBase (t.updPort o f) :=
  h.setPort

theorem destroy {off k mask} (h : s.SameBase t) : s.SameBase (t.destroy off k mask) :=
  h.forAll (fun _ _ h => h.upd.setWord)

theorem begin {x} (h : s.SameBase t) : s.SameBase (t.begin x) :=
  h.upd

theorem trcStop (h : s.SameBase t) : s.SameBase t.trcStop :=
  h.wr.upd.foldl (fun _ _ h => h.freePin)

theorem noteClaim {r} (h : s.SameBase t) : s.SameBase (t.noteClaim r) :=
  h.upd

theorem claimPin {k owner ni} (h : s.SameBase t) : s.SameBase (t.claimPin k owner ni) := by
  dsimp only [State.claimPin]
  refine SameBase.noteClaim ?_
  refine SameBase.setPin ?_
  split
  · exact h.wr
  · exact h.wr
  · exact h

theorem trcBegin (h : s.SameBase t) : s.SameBase t.trcBegin :=
  h.upd.glEvent

theorem trcArm (h : s.SameBase t) : s.SameBase t.trcArm := by
  dsimp only [State.trcArm]
  split
  · exact h.wr
  · exact .ite h.claimPin.wr h.wr
  · exact h.wr.trcBegin

theorem cmxIn {m mg q deny} (h : s.SameBase t) : s.SameBase (t.cmxIn m mg q deny) := by
  unfold State.cmxIn
  split
  exact h.updCmx

theorem mgmtPump (h : s.SameBase t) : s.SameBase t.mgmtPump :=
  h.forAll (fun _ _ h => by
    split
    · exact h
    · exact .ite h.updNi.cmxIn h)

theorem breakLock {ts cause} (h : s.SameBase t) : s.SameBase (t.breakLock ts cause) := by
  dsimp only [State.breakLock]
  split
  · exact h
  · exact (SameBase.ite h.upd.wr h.upd.wr.wr.wr.wr.wr).glEvent

theorem brokenNow {ts} (h : s.SameBase t) : s.SameBase (t.brokenNow ts) := by
  dsimp only [State.brokenNow]
  split
  · exact h
  · exact h.upd.breakLock

theorem setLock {ts v} (h : s.SameBase t) : s.SameBase (t.setLock ts v) :=
  h.upd

theorem closing {m ts lock} (h : s.SameBase t) : s.SameBase (t.closing m ts lock) :=
  .ite h.setLock h

theorem setShadow {m ts v} (h : s.SameBase t) : s.SameBase (t.setShadow m ts v) :=
  h.upd

theorem readWord {m u rel} (h : s.SameBase t) : s.SameBase (t.readWord m u rel).1 := by
  dsimp only [State.readWord]
  split
  · exact h.setShadow.fst
  · split
    · split
      · split
        · exact h.setShadow.fst
        · exact h
      · exact h
    · exact h

theorem regRead {m u rel size} (h : s.SameBase t) : s.SameBase (t.regRead m u rel size).1 := by
  dsimp only [State.regRead]
  split
  · split
    · exact h
    · exact h
  · split
    · split
      · exact h.readWord.fst
      · exact h
    · split
      · exact h
      · exact h

theorem setStage {m ts v} (h : s.SameBase t) : s.SameBase (t.setStage m ts v) :=
  h.upd

theorem reassert {x was} (h : s.SameBase t) : s.SameBase (t.reassert x was) :=
  .ite h.sendMsgs.msgLost h

theorem rgEvent {g i} (h : s.SameBase t) : s.SameBase (t.rgEvent g i) :=
  h.raise

theorem rgGo {g st} (h : s.SameBase t) : s.SameBase (t.rgGo g st) :=
  .ite h ((SameBase.ite ((SameBase.ite h.upd h).wr.wr) ((SameBase.ite h.upd h).wr)).rgEvent)

theorem rouse {mask} (h : s.SameBase t) : s.SameBase (t.rouse mask) :=
  h.foldl (fun _ _ h => .ite h.rgGo h)

theorem holdRuns (h : s.SameBase t) : s.SameBase t.holdRuns :=
  h.wr.rouse

theorem floorsDue (h : s.SameBase t) : s.SameBase t.floorsDue :=
  h.wr

theorem histEn {n v} (h : s.SameBase t) : s.SameBase (t.histEn n v) :=
  .ite (.ite h.wr ((SameBase.ite h h.noteClaim).wr.updNi)) h.wr.updNi

theorem qShare {n q quantum depth} (h : s.SameBase t) : s.SameBase (t.qShare n q quantum depth) :=
  h.updNi

theorem actQueue {n rel v} (h : s.SameBase t) : s.SameBase (t.actQueue n rel v) := by
  dsimp only [State.actQueue]
  split
  · exact h
  · split
    · exact .ite h.updNi h
    · exact h.updNi
    · exact h.qShare

theorem markEn {n v} (h : s.SameBase t) : s.SameBase (t.markEn n v) :=
  .ite (.ite h (.ite h.claimPin.wr h)) ((h.forAll (fun _ _ h => .ite h.freePin h)).wr)

theorem gateCancel {n} (h : s.SameBase t) : s.SameBase (t.gateCancel n) :=
  h.wr.updNi

theorem alert {n i} (h : s.SameBase t) : s.SameBase (t.alert n i) :=
  h.raise

theorem gateSwap {n ts} (h : s.SameBase t) : s.SameBase (t.gateSwap n ts) :=
  .ite h (.ite h.wr.wr.alert h.wr.updNi)

theorem reorder {n v} (h : s.SameBase t) : s.SameBase (t.reorder n v) := by
  dsimp only [State.reorder]
  split
  · exact .ite h.updNi.wr.wr h.wr
  · exact h.updNi.wr

theorem migHold {n v} (h : s.SameBase t) : s.SameBase (t.migHold n v) :=
  .ite (.ite h.wr h) h.updNi.wr

theorem migStage {n v} (h : s.SameBase t) : s.SameBase (t.migStage n v) :=
  .ite (.ite h.updNi.wr.noteClaim h) (.ite h (.ite h.updNi.wr h))

theorem migSwap {n} (h : s.SameBase t) : s.SameBase (t.migSwap n) :=
  h.updNi

theorem actNi {m n rel v old} (h : s.SameBase t) : s.SameBase (t.actNi m n rel v old) := by
  dsimp only [State.actNi]
  split
  · exact .ite h h.wr
  · split
    · exact .ite h h.wr.holdRuns
    · split
      · exact .ite h h.wr
      · split
        · exact h.updNi
        · exact .ite h.wr h
        · exact h.updNi
        · exact .ite h h.floorsDue
        · exact (SameBase.ite h.wr h).histEn
        · exact h.actQueue
        · exact h.actQueue
        · exact h.actQueue
        · exact (SameBase.ite ((SameBase.ite h.gateSwap h).gateCancel) (.ite h.gateSwap h)).markEn
        · exact h.reorder
        · exact .ite h.updNi h
        · exact (SameBase.ite h.migSwap h).migStage.migHold
        · exact h

theorem bootGo {st} (h : s.SameBase t) : s.SameBase (t.bootGo st) :=
  h.wr

theorem loadGo (h : s.SameBase t) : s.SameBase t.loadGo :=
  .ite h.bootGo h

theorem loadStart (h : s.SameBase t) : s.SameBase t.loadStart :=
  .ite h.updStarter.wr.wr.bootGo h

theorem evShow (h : s.SameBase t) : s.SameBase t.evShow :=
  h.wr.wr

theorem evSend (h : s.SameBase t) : s.SameBase t.evSend := by
  dsimp only [State.evSend]
  split
  · exact h
  · split
    · exact h.upd.updNi
    · exact .ite h.upd.setNi h

theorem evPump (h : s.SameBase t) : s.SameBase t.evPump :=
  (SameBase.ite h h.evSend).evShow

theorem breakWhenDone {ts cause} (h : s.SameBase t) : s.SameBase (t.breakWhenDone ts cause) := by
  dsimp only [State.breakWhenDone]
  split
  · exact h
  · exact .ite h.upd h.breakLock

theorem ownerReset {m} (h : s.SameBase t) : s.SameBase (t.ownerReset m) :=
  (h.foldl (fun _ _ h => h.breakWhenDone)).upd

theorem coreReset (h : s.SameBase t) : s.SameBase t.coreReset :=
  (h.foldl (fun _ _ h => h.reply)).bootGo.wr.ownerReset.updStarter

theorem crcCommit {given} (h : s.SameBase t) : s.SameBase (t.crcCommit given) :=
  h.upd.wr.wr.wr

theorem quarEnd (h : s.SameBase t) : s.SameBase t.quarEnd :=
  h.wr

theorem actEvt {rel v} (h : s.SameBase t) : s.SameBase (t.actEvt rel v) := by
  dsimp only [State.actEvt]
  split
  · exact .ite h.wr h
  · exact .ite h.wr h
  · exact .ite h.crcCommit h
  · exact .ite (.ite h.upd.wr h) ((SameBase.ite h.upd.wr h).quarEnd)
  · exact h

theorem nowCap (h : s.SameBase t) : s.SameBase t.nowCap :=
  h.wr.wr.wr.wr.wr.wr

theorem pfCancel {k} (h : s.SameBase t) : s.SameBase (t.pfCancel k) :=
  h.setPf.pfGo.give

theorem pfPinLost {k} (h : s.SameBase t) : s.SameBase (t.pfPinLost k) :=
  h.foldl (fun _ _ h => .ite h (.ite h.setPf.pfCancel.glEvent h.setPf))

theorem trcPinLost (h : s.SameBase t) : s.SameBase t.trcPinLost :=
  .ite h h.wr.glEvent

theorem syncEn {k v} (h : s.SameBase t) : s.SameBase (t.syncEn k v) := by
  dsimp only [State.syncEn]
  split
  · split
    · exact h.setPin.wr
    · split
      · exact h.setPin.wr.wr.glEvent.pfPinLost
      · exact h.setPin.wr.wr.glEvent.wr.wr.notice
      · exact h.setPin.wr.wr.glEvent.trcPinLost
  · exact h.freePin.wr

theorem actTim {rel v} (h : s.SameBase t) : s.SameBase (t.actTim rel v) := by
  dsimp only [State.actTim]
  split
  · exact .ite ((SameBase.ite h.nowCap h).wr) (.ite h.nowCap h)
  · exact .ite h.syncEn h

theorem updTime {f} (h : s.SameBase t) : s.SameBase (t.updTime f) :=
  h.upd

theorem calReply (h : s.SameBase t) : s.SameBase t.calReply :=
  h.updTime.foldl (fun _ _ h => h.reply)

theorem setNode {r v} (h : s.SameBase t) : s.SameBase (t.setNode r v) :=
  h.upd

theorem resetNodes {g} (h : s.SameBase t) : s.SameBase (t.resetNodes g) :=
  h.foldl (fun _ _ h => .ite h h.setNode)

theorem clearRtrPort {o dead} (h : s.SameBase t) : s.SameBase (t.clearRtrPort o dead) :=
  h.setPort

theorem pfLost {u} (h : s.SameBase t) : s.SameBase (t.pfLost u) :=
  h.foldl (fun _ _ h => .ite h.setPf h)

theorem loadShapers {n} (h : s.SameBase t) : s.SameBase (t.loadShapers n) :=
  h.updNi

theorem resetRegs {sel keep} (h : s.SameBase t) : s.SameBase (t.resetRegs sel keep) :=
  h.upd

theorem resetWindow {lo size keep} (h : s.SameBase t) : s.SameBase (t.resetWindow lo size keep) :=
  h.resetRegs

theorem dropClaims {n} (h : s.SameBase t) : s.SameBase (t.dropClaims n) :=
  (h.forAll (fun _ _ h => .ite h.setPin h)).wr.wr.wr.wr.wr

theorem sbLog {n addr id status kind} (h : s.SameBase t) : s.SameBase (t.sbLog n addr id status kind) :=
  .ite h h.wr.wr.wr.wr.wr.wr

theorem sbDiscard {n g} (h : s.SameBase t) : s.SameBase (t.sbDiscard n g) :=
  h.count.sbLog

theorem discardStores {n} (h : s.SameBase t) : s.SameBase (t.discardStores n) :=
  h.foldl (fun _ _ h => h.sbDiscard)

theorem resetNi {n dead} (h : s.SameBase t) : s.SameBase (t.resetNi n dead) :=
  h.discardStores.dropClaims.resetWindow.count.setNi.loadShapers.setPort.setPort.pfLost

theorem niReset {n} (h : s.SameBase t) : s.SameBase (t.niReset n) :=
  (h.resetNi.foldl (fun _ _ h => h.clearRtrPort)).breakLock

theorem mgmtAnswer {n pl hd data code lb} (h : s.SameBase t) : s.SameBase (t.mgmtAnswer n pl hd data code lb) :=
  h.pushSys

theorem noteErr {m q code} (h : s.SameBase t) : s.SameBase (t.noteErr m q code) :=
  .ite h (.ite (.ite h.setBit.count h.setBit) ((SameBase.ite h.setBit.count h.setBit).wr.wr.wr.wr.wr.wr.glEvent))

theorem cmxAnswer {a data code lb} (h : s.SameBase t) : s.SameBase (t.cmxAnswer a data code lb) := by
  dsimp only [State.cmxAnswer]
  split
  · exact h
  · split
    · exact h.noteErr.mgmtAnswer
    · exact h.noteErr.updCmx
    · exact h.noteErr.updCmx
    · exact h.noteErr

theorem updLk {c f} (h : s.SameBase t) : s.SameBase (t.updLk c f) :=
  h.upd

theorem updXbv {c v f} (h : s.SameBase t) : s.SameBase (t.updXbv c v f) :=
  h.updLk

theorem countUp {c v n} (h : s.SameBase t) : s.SameBase (t.countUp c v n) :=
  h.updLk

theorem rxDrop {c v} (h : s.SameBase t) : s.SameBase (t.rxDrop c v) := by
  dsimp only [State.rxDrop]
  split
  · exact h
  · exact h.updLk.countUp

theorem xbDrop {c v tail} (h : s.SameBase t) : s.SameBase (t.xbDrop c v tail) := by
  dsimp only [State.xbDrop]
  split
  · exact h
  · exact .ite h.updXbv h.updXbv.rxDrop

theorem credit {o vc} (h : s.SameBase t) : s.SameBase (t.credit o vc) := by
  dsimp only [State.credit]
  split
  · exact h
  · exact h.updPort

theorem credits {o vc k} (h : s.SameBase t) : s.SameBase (t.credits o vc k) :=
  h.foldl (fun _ _ h => h.credit)

theorem updVc {o v f} (h : s.SameBase t) : s.SameBase (t.updVc o v f) :=
  h.updPort

theorem starve {o} (h : s.SameBase t) : s.SameBase (t.starve o) :=
  h.updPort

theorem farSides {o} (h : s.SameBase t) : s.SameBase (t.farSides o) := by
  dsimp only [State.farSides]
  split
  · exact h
  · exact .ite h h.starve

theorem clearPort {o dead} (h : s.SameBase t) : s.SameBase (t.clearPort o dead) :=
  h.setPort

theorem jointsLost {c} (h : s.SameBase t) : s.SameBase (t.jointsLost c) :=
  h.upd

theorem replyOpt {x status data} (h : s.SameBase t) : s.SameBase (t.replyOpt x status data) := by
  dsimp only [State.replyOpt]
  split
  · exact h
  · exact h.reply

theorem trainReply {k j status data} (h : s.SameBase t) : s.SameBase (t.trainReply k j status data) := by
  dsimp only [State.trainReply]
  exact h.replyOpt.updLk

theorem dropLinks {k} (h : s.SameBase t) : s.SameBase (t.dropLinks k) :=
  h.foldl (fun _ _ h => h.trainReply.give.updLk.jointsLost)

theorem resetSpan {k dead} (h : s.SameBase t) : s.SameBase (t.resetSpan k dead) := by
  dsimp only [State.resetSpan]
  exact h.dropLinks.resetWindow.upd.clearPort.clearPort.pfLost.updTime

theorem resetRtr {p r dead} (h : s.SameBase t) : s.SameBase (t.resetRtr p r dead) :=
  (h.foldl (fun _ _ h => h.clearPort)).resetWindow.pfLost

theorem updRg {g f} (h : s.SameBase t) : s.SameBase (t.updRg g f) :=
  h.upd

theorem abortOne {g} (h : s.SameBase t) : s.SameBase (t.abortOne g) :=
  .ite h (.ite h.updRg.rgGo h.updRg)

theorem wakeStart {g} (h : s.SameBase t) : s.SameBase (t.wakeStart g) :=
  .ite h.updRg.rgGo.refreshTime h

theorem homeUp (h : s.SameBase t) : s.SameBase t.homeUp :=
  .ite h.rgGo h

theorem abortInst {status} (h : s.SameBase t) : s.SameBase (t.abortInst status) := by
  dsimp only [State.abortInst]
  split
  · exact h
  · exact h.updPacer.replyOpt.abortOne.homeUp.foldl (fun _ _ h => .ite h.abortOne (.ite h.abortOne.rgGo h.abortOne.wakeStart))

theorem abortNote (h : s.SameBase t) : s.SameBase t.abortNote :=
  h.wr.glEvent

theorem pwrAnswer {x status} (h : s.SameBase t) : s.SameBase (t.pwrAnswer x status) := by
  dsimp only [State.pwrAnswer]
  split
  · exact h
  · exact h.updPacer.reply

theorem pwrFail {g status} (h : s.SameBase t) : s.SameBase (t.pwrFail g status) :=
  h.foldl (fun _ _ h => .ite h.pwrAnswer h)

theorem abortEntry {g status} (h : s.SameBase t) : s.SameBase (t.abortEntry g status) :=
  .ite h (.ite h.abortOne.abortNote.abortInst h.abortOne.abortNote.pwrFail)

theorem freezeAsk {g why} (h : s.SameBase t) : s.SameBase (t.freezeAsk g why) :=
  h.updTime.refreshTime

theorem freezeNext (h : s.SameBase t) : s.SameBase t.freezeNext :=
  h.forAll (fun _ _ h => by
    split
    · exact h
    · split
      · exact .ite h.updRg.freezeAsk h
      · exact .ite h.freezeAsk h)

theorem thaw {g why} (h : s.SameBase t) : s.SameBase (t.thaw g why) :=
  (h.updTime.foldl (fun _ _ h => .ite h h.setNode)).freezeNext.refreshTime

theorem stepEnd {g st} (h : s.SameBase t) : s.SameBase (t.stepEnd g st) := by
  dsimp only [State.stepEnd]
  split
  · exact h
  · exact h.updRg.thaw.wr.floorsDue.upd.reply

theorem setOp {g mhz mv} (h : s.SameBase t) : s.SameBase (t.setOp g mhz mv) :=
  h.wr.wr

theorem stepCut {g status} (h : s.SameBase t) : s.SameBase (t.stepCut g status) := by
  dsimp only [State.stepCut]
  split
  · exact h
  · exact h.setOp.stepEnd

theorem submit {c} (h : s.SameBase t) : s.SameBase (t.submit c) :=
  h.upd

theorem doorbell {m} (h : s.SameBase t) : s.SameBase (t.doorbell m) :=
  .ite h.wr h.wr.submit

theorem putReg {m u rel v} (h : s.SameBase t) : s.SameBase (t.putReg m u rel v) := by
  dsimp only [State.putReg]
  split
  · exact h
  · exact h.setWord

theorem granting {m ts q} (h : s.SameBase t) : s.SameBase (t.granting m ts q) :=
  .ite h.setLock h

theorem cmxPhase {ts} (h : s.SameBase t) : s.SameBase (t.cmxPhase ts) := by
  dsimp only [State.cmxPhase]
  split
  · exact h
  · split
    · exact h
    · split
      · exact h
      · exact h.updCmx.granting

theorem trcEvent {ts rise} (h : s.SameBase t) : s.SameBase (t.trcEvent ts rise) := by
  dsimp only [State.trcEvent]
  split
  · exact h
  · split
    · exact .ite h.trcBegin h
    · exact .ite h.trcBegin h
    · exact h

theorem tapOut {ir v} (h : s.SameBase t) : s.SameBase (t.tapOut ir v) :=
  h.upd

theorem commitDone (h : s.SameBase t) : s.SameBase t.commitDone :=
  .ite (((h.foldl (fun _ _ h => .ite h h.wr)).wr.wr.wr.upd.quarEnd.glEvent.foldl (fun _ _ h => h.give.reply)).upd.upd.give.wr)
    (((h.foldl (fun _ _ h => .ite h h.wr)).wr.wr.wr.upd.quarEnd.glEvent.foldl (fun _ _ h => h.give.reply)).upd)

theorem quarantine (h : s.SameBase t) : s.SameBase t.quarantine :=
  .ite h h.wr.glEvent

theorem crcCompare {c} (h : s.SameBase t) : s.SameBase (t.crcCompare c) :=
  .ite h.wr (.ite h.wr.wr.quarEnd (.ite ((h.foldl (fun _ _ h => h.setBit)).wr.wr.glEvent.count.upd.quarantine) ((h.foldl
    (fun _ _ h => h.setBit)).wr)))

theorem passEnd (h : s.SameBase t) : s.SameBase t.passEnd :=
  .ite (.ite (.ite ((h.foldl (fun _ _ h => .ite h h.wr)).wr.wr.count.commitDone) ((h.foldl (fun _ _ h => .ite h
    h.wr)).wr.wr.count)) ((h.foldl (fun _ _ h => .ite h h.wr)).wr.wr.count.wr.commitDone)) ((h.foldl (fun _ _ h => .ite h
    h.wr)).wr.wr.count.crcCompare)

theorem pwrCheck (h : s.SameBase t) : s.SameBase t.pwrCheck :=
  h.foldl (fun _ _ h => .ite h.pwrAnswer h)

theorem unIsolate {g} (h : s.SameBase t) : s.SameBase (t.unIsolate g) :=
  (h.wr.foldl (fun _ _ h => by
    split
    · exact h
    · split
      · split
        · exact h.updPort.wr
        · exact h.updPort.wr
        · exact h.updPort
      · exact h)).forAll (fun _ _ h => h.updNi)

theorem niBack {n} (h : s.SameBase t) : s.SameBase (t.niBack n) :=
  h.updNi

theorem openRegion {g} (h : s.SameBase t) : s.SameBase (t.openRegion g) :=
  .ite h ((SameBase.ite ((h.foldl (fun _ _ h => h.niBack)).updRg.rgGo.wr.unIsolate.glEvent.updStarter) ((h.foldl (fun _ _ h =>
    h.niBack)).updRg.rgGo.wr.unIsolate.glEvent)).updPacer.orderSync.refreshTime.pwrCheck)

theorem histBack {n} (h : s.SameBase t) : s.SameBase (t.histBack n) :=
  .ite h.wr.updNi h

theorem scanOpen (h : s.SameBase t) : s.SameBase t.scanOpen :=
  h.forAll (fun _ _ h => .ite ((h.foldl (fun _ _ h => h.histBack)).openRegion) h)

theorem planeFault {p cause} (h : s.SameBase t) : s.SameBase (t.planeFault p cause) :=
  h.wr.upd

theorem journalBad (h : s.SameBase t) : s.SameBase t.journalBad :=
  .ite h.upd.glEvent h

theorem causeMore {k j i} (h : s.SameBase t) : s.SameBase (t.causeMore k j i) := by
  dsimp only [State.causeMore]
  split
  · split
    · exact .ite h.count.count h
    · exact .ite h.count (.ite (h.forAll (fun _ _ h => .ite h (.ite h.planeFault (.ite h.planeFault h)))) h)
  · split
    · split
      · exact .ite h.planeFault (.ite h.planeFault h)
      · exact .ite h.planeFault (.ite h.planeFault h)
      · exact h.count.count
      · exact h
    · exact .ite h.journalBad (.ite h.glEvent.coreReset h)

theorem spanEvent {k e} (h : s.SameBase t) : s.SameBase (t.spanEvent k e) :=
  h.raise

theorem slotCount {o} (h : s.SameBase t) : s.SameBase (t.slotCount o) :=
  h.upd

theorem rtrEvent {p r i} (h : s.SameBase t) : s.SameBase (t.rtrEvent p r i) :=
  h.raise

theorem arbLog {p r kind port inPort vc} (h : s.SameBase t) : s.SameBase (t.arbLog p r kind port inPort vc) :=
  .ite h h.setWord

theorem creditError {o bit vc} (h : s.SameBase t) : s.SameBase (t.creditError o bit vc) := by
  dsimp only [State.creditError]
  split
  · exact h.wr.arbLog.rtrEvent.planeFault
  · exact h.setBit.alert.planeFault
  · exact h

theorem xingOverflow {o vc} (h : s.SameBase t) : s.SameBase (t.xingOverflow o vc) := by
  dsimp only [State.xingOverflow]
  split
  · exact h.updPort.setBit.rtrEvent.planeFault
  · exact h.updPort.creditError
  · exact h.updPort

theorem drive {o fl} (h : s.SameBase t) : s.SameBase (t.drive o fl) := by
  dsimp only [State.drive]
  split
  · exact h.updPort
  · split
    · exact .ite h.updPort.updPort (.ite h.updPort (.ite h.updPort.xingOverflow h.updPort.setPort))
    · exact h.updPort.updPort

theorem trace {input o vc hd ts} (h : s.SameBase t) : s.SameBase (t.trace input o vc hd ts) :=
  .ite (.ite h (.ite (.ite h.upd.wr.wr.wr h.upd.wr.wr.wr.upd.glEvent) h.upd.wr.wr)) h

theorem popRx {c v isTail} (h : s.SameBase t) : s.SameBase (t.popRx c v isTail) :=
  h.updLk

theorem moveStaged {n} (h : s.SameBase t) : s.SameBase (t.moveStaged n) :=
  h.foldl (fun _ _ h => by
    split
    · exact h
    · exact h.foldl (fun _ _ h => by
    split
    · exact .ite h.updPort.updPort h
    · exact h))

theorem slotFreed {o} (h : s.SameBase t) : s.SameBase (t.slotFreed o) := by
  dsimp only [State.slotFreed]
  split
  · exact h.moveStaged
  · exact h

theorem sendOne {o} (h : s.SameBase t) : s.SameBase (t.sendOne o) := by
  dsimp only [State.sendOne]
  split
  · exact h
  · split
    · exact h
    · split
      · refine SameBase.credit ?_
        refine SameBase.updPort ?_
        refine SameBase.slotCount ?_
        refine SameBase.drive ?_
        split
        · exact h.setPort.trace
        · exact h.setPort
      · refine SameBase.popRx ?_
        refine SameBase.slotCount ?_
        refine SameBase.drive ?_
        split
        · exact h.setPort.trace
        · exact h.setPort
      · refine SameBase.slotFreed ?_
        refine SameBase.updPort ?_
        refine SameBase.slotCount ?_
        refine SameBase.drive ?_
        split
        · exact h.setPort.trace
        · exact h.setPort

theorem pump {o} (h : s.SameBase t) : s.SameBase (t.pump o) :=
  .ite (h.foldl (fun _ _ h => h.sendOne)) h

theorem spanPump {k} (h : s.SameBase t) : s.SameBase (t.spanPump k) :=
  h.pump.pump

theorem updRxv {c v f} (h : s.SameBase t) : s.SameBase (t.updRxv c v f) :=
  h.updLk

theorem stallRx {c v x} (h : s.SameBase t) : s.SameBase (t.stallRx c v x) := by
  dsimp only [State.stallRx]
  split
  · exact .ite h.rxDrop h.updRxv.countUp.spanPump
  · exact h.rxDrop

theorem noRoute {k} (h : s.SameBase t) : s.SameBase (t.noRoute k) :=
  h.count.spanEvent

theorem toLink {k j v hd} (h : s.SameBase t) : s.SameBase (t.toLink k j v hd) := by
  dsimp only [State.toLink]
  split
  · exact h.noRoute.rxDrop
  · exact .ite h.noRoute.rxDrop (.ite h.count.spanEvent.rxDrop h.updLk)

theorem toPlanes {k j v hd} (h : s.SameBase t) : s.SameBase (t.toPlanes k j v hd) :=
  .ite h.noRoute.rxDrop (.ite h h.upd.updLk)

theorem corrected {o} (h : s.SameBase t) : s.SameBase (t.corrected o) := by
  dsimp only [State.corrected]
  split
  · exact h.count.count.rtrEvent
  · exact h.count.count.notice
  · exact h.count

theorem correcteds {o k} (h : s.SameBase t) : s.SameBase (t.correcteds o k) :=
  h.foldl (fun _ _ h => h.corrected)

theorem fromPlane {k p fl hd} (h : s.SameBase t) : s.SameBase (t.fromPlane k p fl hd) := by
  dsimp only [State.fromPlane]
  split
  · exact h.upd.updVc.credit
  · split
    · exact h.upd.noRoute.updVc.credit
    · exact .ite h.upd.noRoute.updVc.credit h.upd.updVc

theorem lw {k j f v} (h : s.SameBase t) : s.SameBase (t.lw k j f v) :=
  h.wr

theorem setLst {k j st} (h : s.SameBase t) : s.SameBase (t.setLst k j st) :=
  h.lw.lw

theorem finishRx {c} (h : s.SameBase t) : s.SameBase (t.finishRx c) :=
  h.foldl (fun _ _ h => by
    split
    · exact h
    · split
      · exact h
      · exact h.updRxv)

theorem ask {kind who} (h : s.SameBase t) : s.SameBase (t.ask kind who) :=
  h.upd

theorem askTrain {k j kind} (h : s.SameBase t) : s.SameBase (t.askTrain k j kind) :=
  .ite h.updLk h.updLk.ask

theorem setClass {k j l c} (h : s.SameBase t) : s.SameBase (t.setClass k j l c) :=
  .ite h.lw.spanEvent h.lw

theorem trainStart {k j kind} (h : s.SameBase t) : s.SameBase (t.trainStart k j kind) :=
  (SameBase.ite ((SameBase.ite ((SameBase.ite h.lw h).updTime) (.ite h.lw h)).updLk) ((SameBase.ite ((SameBase.ite
    h.lw h).updTime) (.ite h.lw h)).updLk.foldl (fun _ _ h => h.setClass))).updLk.setLst

theorem forced {k j} (h : s.SameBase t) : s.SameBase (t.forced k j) :=
  h.trainStart

theorem replay {k j} (h : s.SameBase t) : s.SameBase (t.replay k j) :=
  .ite h (.ite h.updLk.spanEvent.forced h.updLk.lw)

theorem frameOut {c f} (h : s.SameBase t) : s.SameBase (t.frameOut c f) :=
  h.updLk

theorem relayUp {c ws} (h : s.SameBase t) : s.SameBase (t.relayUp c ws) := by
  dsimp only [State.relayUp]
  split
  · exact h
  · exact .ite h.updLk.upd h

theorem seqOut {c f} (h : s.SameBase t) : s.SameBase (t.seqOut c f) :=
  h.updLk.frameOut

theorem rxFlit {k j fl0 e} (h : s.SameBase t) : s.SameBase (t.rxFlit k j fl0 e) := by
  dsimp only [State.rxFlit]
  split
  · exact h.correcteds
  · split
    · split
      · exact h.correcteds.updRxv.countUp
      · split
        · exact .ite h.correcteds.updLk.spanPump h.correcteds.updLk.spanPump.countUp
        · exact h.correcteds.updRxv.spanPump
    · split
      · exact h.correcteds.updRxv.countUp
      · exact .ite h.correcteds.updRxv.countUp h.correcteds.updRxv.spanPump

theorem relayDown {o} (h : s.SameBase t) : s.SameBase (t.relayDown o) :=
  h.foldl (fun _ _ h => h.updLk)

theorem broadcast {own o} (h : s.SameBase t) : s.SameBase (t.broadcast own o) := by
  dsimp only [State.broadcast]
  split
  · exact h.relayDown
  · exact h.relayDown.upd
  · exact h.relayDown.upd

theorem joinedOp {o} (h : s.SameBase t) : s.SameBase (t.joinedOp o) :=
  (SameBase.ite (.ite h.updTime h) ((SameBase.ite h.updTime h).forAll (fun _ _ h => h.updNi))).broadcast

theorem relayArrive {c ws} (h : s.SameBase t) : s.SameBase (t.relayArrive c ws) :=
  .ite (h.updLk.foldl (fun _ _ h => h.joinedOp)) h.upd

theorem timeIn {k j m ts} (h : s.SameBase t) : s.SameBase (t.timeIn k j m ts) := by
  dsimp only [State.timeIn]
  split
  · exact h
  · split
    · exact h.updLk
    · exact h.updLk.updTime
    · exact h

theorem frameIn {k j f ts} (h : s.SameBase t) : s.SameBase (t.frameIn k j f ts) := by
  dsimp only [State.frameIn]
  split
  · refine SameBase.replay ?_
    split
    · split
      · split
        · exact h.updLk.updLk.rxFlit
        · exact .ite h.updLk.updLk.relayArrive h.updLk.updLk
        · exact h.updLk.updLk
      · exact .ite h.updLk.updLk h.updLk
    · split
      · exact h.updLk.timeIn
      · exact h.updLk
  · split
    · split
      · split
        · exact h.updLk.updLk.rxFlit
        · exact .ite h.updLk.updLk.relayArrive h.updLk.updLk
        · exact h.updLk.updLk
      · exact .ite h.updLk.updLk h.updLk
    · split
      · exact h.updLk.timeIn
      · exact h.updLk

theorem firstOver {c} (h : s.SameBase t) : s.SameBase (t.firstOver c) :=
  .ite h h.upd

theorem trainFail {k j why} (h : s.SameBase t) : s.SameBase (t.trainFail k j why) :=
  .ite h.updLk.setLst (.ite h.firstOver.updLk.setLst h.firstOver.trainReply.updLk)

theorem linkUp {k j lane0 w mask rtt f} (h : s.SameBase t) : s.SameBase (t.linkUp k j lane0 w mask rtt f) :=
  (SameBase.ite ((SameBase.ite h.lw.lw.lw.lw.lw.updLk.updLk h.lw.lw.lw.lw.lw.updLk).setLst.spanEvent.spanEvent) ((SameBase.ite
    h.lw.lw.lw.lw.lw.updLk.updLk h.lw.lw.lw.lw.lw.updLk).setLst.spanEvent)).firstOver.trainReply.updLk.give

theorem config {k j rtt} (h : s.SameBase t) : s.SameBase (t.config k j rtt) := by
  dsimp only [State.config]
  split
  · exact h
  · split
    · exact h.trainFail
    · split
      · exact h.trainFail
      · split
        · exact h.trainFail
        · exact h.linkUp

theorem detect {k j classes rev} (h : s.SameBase t) : s.SameBase (t.detect k j classes rev) :=
  (h.forAll (fun _ _ h => h.setClass)).updLk.lw

theorem fuses {dis err key} (h : s.SameBase t) : s.SameBase (t.fuses dis err key) :=
  .ite h.wr.wr.upd h

theorem stepTo {k} (h : s.SameBase t) : s.SameBase (t.stepTo k) :=
  h.wr.upd

theorem mirror {n} (h : s.SameBase t) : s.SameBase (t.mirror n) := by
  dsimp only [State.mirror]
  exact h.wr.wr.wr.wr.wr.wr.wr.updNi

theorem startConfig (h : s.SameBase t) : s.SameBase t.startConfig :=
  ((h.forAll (fun _ _ h => .ite h.wr.mirror.wr.updNi h.wr.mirror)).forAll (fun _ _ h => h.wr)).wr.crcCommit

theorem startFail (h : s.SameBase t) : s.SameBase t.startFail :=
  h.wr.glEvent

theorem startRuns {l} (h : s.SameBase t) : s.SameBase (t.startRuns l) :=
  h.foldl (fun _ _ h => .ite h h.setNode)

theorem rgUp {g} (h : s.SameBase t) : s.SameBase (t.rgUp g) :=
  (SameBase.ite h.updRg.setOp.wr.updPacer h.updRg.setOp.wr).rgGo

theorem hcuSend {op node m} (h : s.SameBase t) : s.SameBase (t.hcuSend op node m) :=
  .ite h.pushVn3 h

theorem setHeat {k v} (h : s.SameBase t) : s.SameBase (t.setHeat k v) :=
  h.upd

theorem probeStrag {k tnum} (h : s.SameBase t) : s.SameBase (t.probeStrag k tnum) :=
  h.setHeat.hcuSend

theorem reconStart {n} (h : s.SameBase t) : s.SameBase (t.reconStart n) := by
  refine h.foldl fun a k h => ?_
  dsimp only
  split
  · exact h.probeStrag
  · exact h

theorem restoreNi {n} (h : s.SameBase t) : s.SameBase (t.restoreNi n) :=
  (SameBase.ite h.histBack.wr.updNi h.histBack).wr.mirror

theorem restoreRtr {p r} (h : s.SameBase t) : s.SameBase (t.restoreRtr p r) :=
  h.foldl (fun _ _ h => h.setWord)

theorem restoreRegion {g} (h : s.SameBase t) : s.SameBase (t.restoreRegion g) :=
  .ite (((h.foldl (fun _ _ h => h.restoreRtr.restoreRtr)).foldl (fun _ _ h => h.restoreNi)).updRg.foldl (fun _ _ h =>
    h.reconStart)) (((h.foldl (fun _ _ h => h.restoreRtr.restoreRtr)).foldl (fun _ _ h => h.restoreNi)).updRg)

theorem recover {g} (h : s.SameBase t) : s.SameBase (t.recover g) :=
  .ite h h.restoreRegion.openRegion

theorem buffer {p r i fl rx} (h : s.SameBase t) : s.SameBase (t.buffer p r i fl rx) := by
  dsimp only [State.buffer]
  split
  · exact h.updVc
  · split
    · exact h.updVc
    · split
      · exact .ite h.updVc.pump h.updVc
      · exact h.updVc

theorem cutPk {n k} (h : s.SameBase t) : s.SameBase (t.cutPk n k) := by
  dsimp only [State.cutPk]
  split
  · exact h
  · exact h.setNi

theorem dropPk {n k} (h : s.SameBase t) : s.SameBase (t.dropPk n k) := by
  dsimp only [State.dropPk]
  split
  · exact h
  · exact h.setNi.credits

theorem respond {n hd sc status data} (h : s.SameBase t) : s.SameBase (t.respond n hd sc status data) :=
  h.pushSys

theorem streamDrop {n} (h : s.SameBase t) : s.SameBase (t.streamDrop n) :=
  h.count.wr.alert

theorem poisoned {n k} (h : s.SameBase t) : s.SameBase (t.poisoned n k) := by
  dsimp only [State.poisoned]
  split
  · exact h
  · split
    · exact h.setNi.respond.dropPk
    · exact h.setNi
    · exact h.setNi.streamDrop.dropPk
    · exact h.setNi.count.alert.dropPk

theorem sbeEvent {n code} (h : s.SameBase t) : s.SameBase (t.sbeEvent n code) :=
  .ite h h.updNi

theorem whole {n k} (h : s.SameBase t) : s.SameBase (t.whole n k) := by
  dsimp only [State.whole]
  split
  · exact h
  · exact .ite (.ite h (.ite h.count.updNi.cutPk h.poisoned)) (.ite h.updNi.sbeEvent.dropPk h)

theorem completeIn {o} (h : s.SameBase t) : s.SameBase (t.completeIn o) := by
  dsimp only [State.completeIn]
  split
  · exact h.foldl (fun _ _ h => by
    split
    · exact h
    · split
      · exact h
      · exact .ite h.updVc h.buffer)
  · exact h.foldl (fun _ _ h => by
    split
    · exact h
    · split
      · split
        · exact h.updNi
        · exact h.updNi.updNi.whole
      · exact h.updNi)
  · exact h.foldl (fun _ _ h => by
    split
    · exact h
    · split
      · exact h
      · exact .ite h.updVc h.updVc)

theorem wakeCal {g} (h : s.SameBase t) : s.SameBase (t.wakeCal g) := by
  dsimp only [State.wakeCal]
  split
  · exact h
  · split
    · exact h.updRg
    · exact h.updRg
    · exact h

theorem baseAll {l} (h : s.SameBase t) : s.SameBase (t.baseAll l) :=
  (h.forAll (fun _ _ h => .ite (h.setNi.foldl (fun _ _ h => h.dropPk)) ((h.setNi.foldl (fun _ _ h => h.dropPk)).count))).forAll
    (fun _ _ h => h.upd)

theorem aliveUnits {g} (h : s.SameBase t) : s.SameBase (t.aliveUnits g) :=
  h.foldl (fun _ _ h => h.updPort)

theorem rgRelease {g} (h : s.SameBase t) : s.SameBase (t.rgRelease g) :=
  .ite h.updRg.aliveUnits.baseAll.startRuns.refreshTime.wakeCal h

theorem niRecover {g} (h : s.SameBase t) : s.SameBase (t.niRecover g) :=
  .ite h.stepCut.abortEntry.updRg.rgGo.setBit.startRuns.refreshTime.wakeCal (.ite h.stepCut.abortEntry.updRg
    h.stepCut.abortEntry)

theorem niRelease {n} (h : s.SameBase t) : s.SameBase (t.niRelease n) :=
  .ite ((h.foldl (fun _ _ h => h.updPort)).baseAll.niRecover) h

theorem stepCal {g} (h : s.SameBase t) : s.SameBase (t.stepCal g) := by
  dsimp only [State.stepCal]
  split
  · exact h
  · exact .ite h h.stepEnd.rgGo

theorem droopCal {g} (h : s.SameBase t) : s.SameBase (t.droopCal g) :=
  .ite h.thaw h

theorem combCal {g} (h : s.SameBase t) : s.SameBase (t.combCal g) :=
  .ite h.updRg h

theorem downNis {g} (h : s.SameBase t) : s.SameBase (t.downNis g) :=
  h.foldl (fun _ _ h => h.updNi)

theorem leaveWd (h : s.SameBase t) : s.SameBase t.leaveWd :=
  h.wr

theorem heatGo {k st} (h : s.SameBase t) : s.SameBase (t.heatGo k st) :=
  h.wr

theorem heatReady (h : s.SameBase t) : s.SameBase t.heatReady :=
  h.foldl (fun _ _ h => .ite h.heatGo h)

theorem joinedOut {r k} (h : s.SameBase t) : s.SameBase (t.joinedOut r k) :=
  .ite (h.foldl (fun _ _ h => h.broadcast)) h

theorem clearVotes {k} (h : s.SameBase t) : s.SameBase (t.clearVotes k) :=
  h.forAll (fun _ _ h => by
    split
    · exact h.updNi
    · exact h)

theorem relayStart {r k} (h : s.SameBase t) : s.SameBase (t.relayStart r k) :=
  h.clearVotes.joinedOut.upd

theorem heatPump (h : s.SameBase t) : s.SameBase t.heatPump := by
  dsimp only [State.heatPump]
  split
  · exact h.heatReady
  · split
    · exact h.heatReady
    · exact h.heatReady.relayStart.rouse

theorem relayEnd {k} (h : s.SameBase t) : s.SameBase (t.relayEnd k) :=
  h.upd

theorem heatFloors {hd} (h : s.SameBase t) : s.SameBase (t.heatFloors hd) :=
  .ite h.floorsDue h

theorem backOff {c k} (h : s.SameBase t) : s.SameBase (t.backOff c k) :=
  h.upd

theorem heatAbort {k reason first detail} (h : s.SameBase t) : s.SameBase (t.heatAbort k reason first detail) :=
  .ite h (((SameBase.ite ((SameBase.ite h.heatGo.wr.wr.wr.count.count h.heatGo.wr.wr.wr.count).backOff) (.ite
    h.heatGo.wr.wr.wr.count.count h.heatGo.wr.wr.wr.count)).foldl (fun _ _ h =>
    h.reply)).replyOpt.heatFloors.setHeat.relayEnd.joinedOut.give.glEvent.heatPump)

theorem heatDroop (h : s.SameBase t) : s.SameBase t.heatDroop :=
  h.foldl (fun _ _ h => .ite h.heatAbort h)

theorem droopWarn {g uv} (h : s.SameBase t) : s.SameBase (t.droopWarn g uv) :=
  .ite h h.wr.wr.rgEvent.count.freezeNext.leaveWd.heatDroop

theorem pfShow {k} (h : s.SameBase t) : s.SameBase (t.pfShow k) :=
  h.setWord64

theorem pfGranted {k} (h : s.SameBase t) : s.SameBase (t.pfGranted k) := by
  dsimp only [State.pfGranted]
  split
  · exact h.give
  · split
    · exact h.pfIdle.reply
    · exact (SameBase.ite h.setPf.wr.wr.wr.pfShow.pfGo h.setPf.wr.wr.wr.updTime.pfGo).reply

theorem updPln {p f} (h : s.SameBase t) : s.SameBase (t.updPln p f) :=
  h.upd

theorem probe {n e p} (h : s.SameBase t) : s.SameBase (t.probe n e p) :=
  h.updNi

theorem plnGo {p v} (h : s.SameBase t) : s.SameBase (t.plnGo p v) :=
  h.wr

theorem testGranted {p} (h : s.SameBase t) : s.SameBase (t.testGranted p) :=
  .ite h.give (.ite h.updPln.give.replyOpt (h.plnGo.upd.forAll (fun _ _ h => h.updNi.foldl (fun _ _ h => .ite h.probe h))))

theorem spanGranted {c} (h : s.SameBase t) : s.SameBase (t.spanGranted c) := by
  dsimp only [State.spanGranted]
  split
  · exact h.updLk.trainStart
  · exact h.updLk.trainStart
  · exact h.updLk.trainStart
  · exact h.updLk.trainReply.give

theorem crcGranted {x} (h : s.SameBase t) : s.SameBase (t.crcGranted x) :=
  .ite h.upd.crcCommit h.upd.crcCommit

theorem leaveGo {l} (h : s.SameBase t) : s.SameBase (t.leaveGo l) := by
  dsimp only [State.leaveGo]
  split
  · exact h.pfGranted
  · exact h.testGranted
  · exact h.spanGranted
  · exact h.crcGranted
  · exact h

theorem setLevel {b} (h : s.SameBase t) : s.SameBase (t.setLevel b) :=
  h.updPacer.wr

theorem leaveGrant (h : s.SameBase t) : s.SameBase t.leaveGrant := by
  dsimp only [State.leaveGrant]
  split
  · exact h
  · exact .ite h h.setLevel.upd.count.leaveGo

theorem tempIn {g ts} (h : s.SameBase t) : s.SameBase (t.tempIn g ts) :=
  h.wr.foldl (fun _ _ h => .ite h.wr.rgEvent h)

theorem window {temps} (h : s.SameBase t) : s.SameBase (t.window temps) :=
  ((((h.forAll (fun _ _ h => by
    split
    · exact h.tempIn
    · exact h)).setLevel).updPacer).updPacer).forAll (fun _ _ h => h.wr.wr)

theorem stepGo {g d} (h : s.SameBase t) : s.SameBase (t.stepGo g d) :=
  .ite h.updRg.startRuns.refreshTime.stepCal h.updRg

theorem stepUndo {g} (h : s.SameBase t) : s.SameBase (t.stepUndo g) := by
  dsimp only [State.stepUndo]
  split
  · exact .ite h.setOp.wr.stepGo h
  · exact h

theorem supplyTmo {g} (h : s.SameBase t) : s.SameBase (t.supplyTmo g) :=
  .ite (h.wr.foldl (fun _ _ h => .ite h.pwrAnswer h)) (.ite h.wr.startFail h.stepUndo)

theorem deepReset {g} (h : s.SameBase t) : s.SameBase (t.deepReset g) := by
  dsimp only [State.deepReset]
  refine (resetNodes (foldl (fun _ _ h => h.setNode) (foldl (fun _ _ h => h.farSides) (foldl (fun _ _ h => h.resetSpan)
    (foldl (fun _ n h => ?_) (foldl (fun _ r h => foldl (fun _ p h => ?_) h) h)))))).refreshTime
  · exact h.setNi.resetWindow.loadShapers.clearPort.clearPort.mirror
  · exact (h.foldl fun _ _ h => h.clearPort).resetWindow

theorem homeDeep (h : s.SameBase t) : s.SameBase t.homeDeep :=
  (h.resetRegs.wr.wr.forAll (fun _ _ h => h.updNi)).wr.updStarter.orderSync

theorem stepVr {g} (h : s.SameBase t) : s.SameBase (t.stepVr g) := by
  dsimp only [State.stepVr]
  split
  · split
    · exact h.setOp.stepGo
    · exact h
  · exact h

theorem fcAck {g} (h : s.SameBase t) : s.SameBase (t.fcAck g) := by
  dsimp only [State.fcAck]
  split
  · split
    · exact h.setOp.stepGo
    · exact h
  · exact h

theorem ungate {g} (h : s.SameBase t) : s.SameBase (t.ungate g) :=
  h.updRg.foldl (fun _ _ h => h.pump)

theorem slcMsg {kind sl n} (h : s.SameBase t) : s.SameBase (t.slcMsg kind sl n) :=
  .ite h.sbeEvent h

theorem heatSlice {sl} (h : s.SameBase t) : s.SameBase (t.heatSlice sl) :=
  h.foldl (fun _ _ h => .ite h.heatAbort h)

theorem revoke {n sl} (h : s.SameBase t) : s.SameBase (t.revoke n sl) :=
  ((h.forAll (fun _ _ h => .ite h.wr h)).forAll (fun _ _ h => .ite h.wr h)).holdRuns

theorem sliceClose {n sl} (h : s.SameBase t) : s.SameBase (t.sliceClose n sl) :=
  .ite h h.updNi.revoke.heatSlice.slcMsg

theorem squashWaiting {n sl} (h : s.SameBase t) : s.SameBase (t.squashWaiting n sl) :=
  h.setNi.foldl (fun _ _ h => h.count.dropPk)

theorem sliceSquash {n sl} (h : s.SameBase t) : s.SameBase (t.sliceSquash n sl) := by
  dsimp only [State.sliceSquash]
  split
  · exact h.sliceClose
  · exact (((((h.sliceClose.foldl (fun _ _ h => by
    split
    · exact .ite h.sbDiscard h
    · exact h)).updNi).foldl (fun _ _ h => h.dropPk)).updNi).squashWaiting).slcMsg

theorem catchUp {n} (h : s.SameBase t) : s.SameBase (t.catchUp n) :=
  (h.foldl (fun _ _ h => by
    split
    · exact h
    · exact h.sliceClose
    · exact h.sliceSquash)).mirror

theorem woken {src} (h : s.SameBase t) : s.SameBase (t.woken src) :=
  h.wr.glEvent

theorem runStart {g} (h : s.SameBase t) : s.SameBase (t.runStart g) := by
  dsimp only [State.runStart]
  split
  · exact h.abortEntry.rgGo
  · exact h.abortEntry.wakeStart.woken
  · exact h.abortEntry.wakeStart.woken
  · exact h.abortEntry.wakeStart.woken
  · exact h.abortEntry.woken
  · exact h.abortEntry

theorem idleTry {g} (h : s.SameBase t) : s.SameBase (t.idleTry g) :=
  .ite h (.ite h.abortEntry (.ite h.updRg.rgGo h))

theorem idleStart {g} (h : s.SameBase t) : s.SameBase (t.idleStart g) :=
  h.updRg.idleTry

theorem closeStart {g ts} (h : s.SameBase t) : s.SameBase (t.closeStart g ts) :=
  h.updRg.rgGo

theorem combStart {g} (h : s.SameBase t) : s.SameBase (t.combStart g) :=
  .ite h.updRg h.startRuns.updRg.refreshTime

theorem reclaimPins (h : s.SameBase t) : s.SameBase t.reclaimPins :=
  h.forAll (fun _ _ h => by
    split
    · exact h.setPin
    · split
      · exact h.setPin
      · exact .ite h.setPin h)

theorem sbFail {n g status kind} (h : s.SameBase t) : s.SameBase (t.sbFail n g status kind) :=
  h.sbLog.wr.updNi.alert

theorem refuse {n p st} (h : s.SameBase t) : s.SameBase (t.refuse n p st) := by
  dsimp only [State.refuse]
  split
  · exact h.streamDrop
  · split
    · exact h.updNi
    · exact (SameBase.ite h.updNi.sbFail h.updNi).updNi

theorem expandTag {n p copies} (h : s.SameBase t) : s.SameBase (t.expandTag n p copies) := by
  dsimp only [State.expandTag]
  split
  · exact h
  · exact .ite h h.updNi

theorem memUncorr {n} (h : s.SameBase t) : s.SameBase (t.memUncorr n) :=
  h.count.alert

theorem accept {n k} (h : s.SameBase t) : s.SameBase (t.accept n k) := by
  dsimp only [State.accept]
  split
  · exact h
  · split
    · exact h.dropPk
    · split
      · exact h.count.dropPk
      · split
        · exact (SameBase.ite h.setNi h).poisoned
        · split
          · split
            · exact h.respond.dropPk
            · exact .ite h.respond.dropPk (.ite (.ite h.setNi.credits h.count.wr.alert.respond.dropPk) h.setNi)
          · exact h.setNi
          · exact .ite h.streamDrop.dropPk h.setNi
          · exact .ite h.sbeEvent.dropPk h.setNi
          · exact .ite h.respond.dropPk (.ite h.respond.dropPk h.setNi)
          · exact h.setNi
          · exact h.setNi

theorem loopBack {n p ts} (h : s.SameBase t) : s.SameBase (t.loopBack n p ts) :=
  h.setNi.accept

theorem stage {n pl vc hd p} (h : s.SameBase t) : s.SameBase (t.stage n pl vc hd p) :=
  h.updPort

theorem toSlot {n p pl ts} (h : s.SameBase t) : s.SameBase (t.toSlot n p pl ts) :=
  h.setNi.stage

theorem depart {n q ts mem v} (h : s.SameBase t) : s.SameBase (t.depart n q ts mem v) := by
  dsimp only [State.depart]
  split
  · exact h
  · split
    · split
      · refine SameBase.refuse ?_
        refine SameBase.updNi ?_
        split
        · exact (SameBase.ite h.memUncorr h).expandTag.updNi.wr
        · exact (SameBase.ite h.memUncorr h).expandTag.updNi
      · refine SameBase.refuse ?_
        split
        · exact (SameBase.ite h.memUncorr h).expandTag.updNi.wr
        · exact (SameBase.ite h.memUncorr h).expandTag.updNi
    · exact (SameBase.ite h.memUncorr h).expandTag.updNi.updNi.count
    · exact (SameBase.ite h.memUncorr h).expandTag.updNi.loopBack
    · split
      · exact (SameBase.ite h.memUncorr h).expandTag.updNi
      · split
        · refine SameBase.toSlot ?_
          split
          · exact (SameBase.ite h.memUncorr h).expandTag.updNi.updNi
          · exact (SameBase.ite h.memUncorr h).expandTag.updNi
        · split
          · exact (SameBase.ite h.memUncorr h).expandTag.updNi.updNi
          · exact (SameBase.ite h.memUncorr h).expandTag.updNi
    · exact (SameBase.ite h.memUncorr h).expandTag.updNi

theorem holdTmo {n q} (h : s.SameBase t) : s.SameBase (t.holdTmo n q) := by
  dsimp only [State.holdTmo]
  split
  · exact .ite h.depart h
  · exact h

theorem abortWide {status} (h : s.SameBase t) : s.SameBase (t.abortWide status) :=
  .ite h.abortNote.abortInst h

theorem relayOne {g} (h : s.SameBase t) : s.SameBase (t.relayOne g) :=
  .ite h (.ite h.abortEntry (.ite (.ite ((SameBase.ite h.abortWide h.abortEntry).homeUp.wakeStart.woken) ((SameBase.ite
    h.abortWide h.abortEntry).homeUp.woken)) h))

theorem entryCommit {g} (h : s.SameBase t) : s.SameBase (t.entryCommit g) :=
  .ite h (.ite h.abortEntry h.updRg)

theorem entryLimit {g} (h : s.SameBase t) : s.SameBase (t.entryLimit g) :=
  .ite h h.abortEntry

theorem flushCtx {n c} (h : s.SameBase t) : s.SameBase (t.flushCtx n c) := by
  dsimp only [State.flushCtx]
  split
  · exact h
  · exact h.setNi.count.foldl (fun _ _ h => h.accept)

theorem pwrMask {n} (h : s.SameBase t) : s.SameBase (t.pwrMask n) :=
  .ite ((h.wr.updNi.foldl (fun _ _ h => h.flushCtx)).updNi) h.wr.updNi

theorem rsvSc0Free {x c} (h : s.SameBase t) : s.SameBase (t.rsvSc0Free x c) :=
  .ite h.reply h.wr.wr.updNi.holdRuns.reply

theorem rsvSc0 {x c} (h : s.SameBase t) : s.SameBase (t.rsvSc0 x c) := by
  dsimp only [State.rsvSc0]
  split
  · exact h.reply
  · split
    · exact h.reply
    · exact h.wr.wr.wr.wr.wr.wr.updNi.holdRuns.reply

theorem rspDrop {n k} (h : s.SameBase t) : s.SameBase (t.rspDrop n k) :=
  h.count.dropPk

theorem replyReceive {n} (h : s.SameBase t) : s.SameBase (t.replyReceive n) := by
  dsimp only [State.replyReceive]
  split
  · exact h
  · split
    · exact h.setNi
    · split
      · exact .ite h.setNi.updNi.dropPk.updNi h.setNi.updNi.updNi
      · exact h.setNi.rspDrop

theorem cmdTimeout {x} (h : s.SameBase t) : s.SameBase (t.cmdTimeout x) := by
  dsimp only [State.cmdTimeout]
  split
  · exact h
  · split
    · refine SameBase.reply ?_
      split
      · exact h.give.updPln
      · exact h.give.updLk
      · exact h.give
    · exact .ite h.reply h.upd.sendReply

theorem cmdStart {x} (h : s.SameBase t) : s.SameBase (t.cmdStart x) := by
  dsimp only [State.cmdStart]
  split
  · exact h
  · exact .ite (.ite h.upd h.upd.sendReply) h

theorem cmdReceive {n} (h : s.SameBase t) : s.SameBase (t.cmdReceive n) := by
  dsimp only [State.cmdReceive]
  split
  · exact h
  · split
    · exact h
    · exact .ite h.setNi.dropPk.sendReply (.ite h.setNi.dropPk.count.wr.sendReply h.setNi.dropPk.submit)

theorem mspOut {v} (h : s.SameBase t) : s.SameBase (t.mspOut v) :=
  h.updStarter

theorem mspData {code l} (h : s.SameBase t) : s.SameBase (t.mspData code l) :=
  h.mspOut

theorem mspRead {code off} (h : s.SameBase t) : s.SameBase (t.mspRead code off) :=
  .ite h.mspOut h.mspData

theorem pokeBytes {base off l} (h : s.SameBase t) : s.SameBase (t.pokeBytes base off l) :=
  h.foldl (fun _ _ h => h.setWord)

theorem mspWrite {code off l pec} (h : s.SameBase t) : s.SameBase (t.mspWrite code off l pec) :=
  .ite h.mspOut h.pokeBytes.mspOut

theorem bootFail {err} (h : s.SameBase t) : s.SameBase (t.bootFail err) :=
  .ite h.bootGo.wr.glEvent.startFail h.bootGo.wr.glEvent

theorem verify (h : s.SameBase t) : s.SameBase t.verify :=
  .ite h (.ite h.wr.bootFail h.bootGo.wr.wr.wr.wr.floorsDue.upd)

theorem selfcheck {ok} (h : s.SameBase t) : s.SameBase (t.selfcheck ok) :=
  .ite h (.ite h.bootFail (.ite h.bootGo h.bootGo))

theorem unbox {n k} (h : s.SameBase t) : s.SameBase (t.unbox n k) :=
  h.updNi.dropPk

theorem pktBad {n} (h : s.SameBase t) : s.SameBase (t.pktBad n) :=
  h.count.alert

theorem mgmtEnd {n} (h : s.SameBase t) : s.SameBase (t.mgmtEnd n) := by
  dsimp only [State.mgmtEnd]
  split
  · exact h
  · exact .ite h.unbox.setNi h.unbox.pktBad

theorem slcGo {sl st} (h : s.SameBase t) : s.SameBase (t.slcGo sl st) :=
  h.wr

theorem updSlc {sl f} (h : s.SameBase t) : s.SameBase (t.updSlc sl f) :=
  h.upd

theorem sliceCollect {sl} (h : s.SameBase t) : s.SameBase (t.sliceCollect sl) :=
  .ite h (.ite h.wr.updSlc ((h.wr.updSlc.slcGo.updSlc.forAll (fun _ _ h => h.slcMsg)).wr.glEvent.replyOpt))

theorem testEnd {p} (h : s.SameBase t) : s.SameBase (t.testEnd p) := by
  dsimp only [State.testEnd]
  split
  · exact h
  · refine SameBase.replyOpt ?_
    refine SameBase.give ?_
    refine SameBase.updPln ?_
    refine SameBase.forAll (fun _ _ h => h.updNi) ?_
    refine SameBase.plnGo ?_
    refine SameBase.wr ?_
    split
    · exact h.wr.wr
    · exact h

theorem plnFollow {n p ts} (h : s.SameBase t) : s.SameBase (t.plnFollow n p ts) :=
  .ite h.updNi.wr h.updNi.wr.updNi

theorem plnCause {p v} (h : s.SameBase t) : s.SameBase (t.plnCause p v) :=
  h.wr

theorem cutPlane {n p} (h : s.SameBase t) : s.SameBase (t.cutPlane n p) :=
  (h.updNi.foldl (fun _ _ h => by
    split
    · exact h
    · exact .ite h.count.alert.cutPk h.count.alert.updNi.whole)).wr

theorem planeReset {p} (h : s.SameBase t) : s.SameBase (t.planeReset p) :=
  (((h.forAll (fun _ _ h => h.cutPlane)).foldl (fun _ _ h => h.clearPort)).forAll (fun _ _ h =>
    h.resetWindow.pfLost.restoreRtr)).wr

theorem plnDetached {p} (h : s.SameBase t) : s.SameBase (t.plnDetached p) :=
  h.plnGo.updPln.replyOpt

theorem plnUp {p} (h : s.SameBase t) : s.SameBase (t.plnUp p) := by
  dsimp only [State.plnUp]
  split
  · exact h
  · exact .ite h.updPln.reply h

theorem stageAck {n dest hid aseq status detail disp} (h : s.SameBase t) : s.SameBase
    (t.stageAck n dest hid aseq status detail disp) :=
  h.pushVn3

theorem farFloors {k items} (h : s.SameBase t) : s.SameBase (t.farFloors k items) :=
  .ite h.floorsDue h

theorem heatCode {n code slot} (h : s.SameBase t) : s.SameBase (t.heatCode n code slot) :=
  h.sbeEvent

theorem loadGates {n items} (h : s.SameBase t) : s.SameBase (t.loadGates n items) :=
  h.foldl (fun _ _ h => by
    split
    · exact h.setWord64.wr.wr
    · exact h.setWord64.setWord64
    · exact h)

theorem setEntry {ts e x} (h : s.SameBase t) : s.SameBase (t.setEntry ts e x) :=
  h.setWord64.setWord.setWord

theorem applyOne {n i} (h : s.SameBase t) : s.SameBase (t.applyOne n i) := by
  dsimp only [State.applyOne]
  split
  · exact h.setEntry
  · exact h.updNi
  · exact h.wr.wr
  · exact h.qShare
  · exact h.wr.wr.wr.wr
  · exact h

theorem applyHeat {n k g ts} (h : s.SameBase t) : s.SameBase (t.applyHeat n k g ts) :=
  (SameBase.ite ((SameBase.ite ((h.foldl (fun _ _ h => h.applyOne)).loadGates.gateSwap) (h.foldl (fun _ _ h =>
    h.applyOne))).heatCode) (.ite ((h.foldl (fun _ _ h => h.applyOne)).loadGates.gateSwap) (h.foldl (fun _ _ h =>
    h.applyOne)))).updNi.farFloors

theorem dropTarget {n k} (h : s.SameBase t) : s.SameBase (t.dropTarget n k) := by
  dsimp only [State.dropTarget]
  split
  · exact h
  · exact .ite h.updNi.farFloors.heatCode h.updNi.farFloors

theorem epWrite {n src disp m} (h : s.SameBase t) : s.SameBase (t.epWrite n src disp m) :=
  h.setNi

theorem stageAct {n src m} (h : s.SameBase t) : s.SameBase (t.stageAct n src m).1 := by
  unfold State.stageAct
  extract_lets k gen u g far item keep
  have hu : s.SameBase u := by
    dsimp only [u]
    split
    · exact .ite h h.dropTarget
    · exact h
  have hkeep : ∀ v g, s.SameBase v → s.SameBase (keep v g) := fun _ _ hv => hv.updNi
  split
  · exact hu.updNi.fst
  · split
    next v disp lost heq =>
      have hv : s.SameBase v := by
        split at heq
        · cases heq
          exact hu
        · split at heq
          · cases heq
            exact hu
          · cases heq
            exact .ite hu.updNi.heatCode hu.updNi
      split
      · exact (hkeep _ _ hv).fst
      · split
        · extract_lets w
          have hw : s.SameBase w := hkeep _ _ hv
          split
          · exact hw.fst
          · split
            · exact hw.fst
            · exact hw.epWrite.fst
        · extract_lets items
          split
          · exact (hkeep _ _ hv).fst
          · exact (hkeep _ _ hv).farFloors.fst

theorem heatDone {k} (h : s.SameBase t) : s.SameBase (t.heatDone k) :=
  h.heatGo.count.setHeat.heatFloors.glEvent

theorem settled {k l} (h : s.SameBase t) : s.SameBase (t.settled k l) :=
  .ite h.heatFloors.relayEnd.give.heatDone.upd.heatPump h.heatFloors.relayEnd.give.heatGo.setHeat.count.glEvent.glEvent.heatPump

theorem settle' {k w maps} (h : s.SameBase t) : s.SameBase (t.settle' k w maps) :=
  .ite (.ite h.heatGo.relayStart h) (.ite h (.ite (.ite h (.ite h.settled h.relayEnd.relayStart)) (.ite (.ite h h.settled) h)))

theorem heatShort {k no first reason commit} (h : s.SameBase t) : s.SameBase (t.heatShort k no first reason commit) :=
  .ite h.heatAbort h.heatAbort

theorem commitSend {k} (h : s.SameBase t) : s.SameBase (t.commitSend k) :=
  .ite h (.ite h.heatAbort (.ite (.ite h.heatAbort h.heatGo.relayStart) h.setWord64.heatGo.relayStart))

theorem heatVote {k} (h : s.SameBase t) : s.SameBase (t.heatVote k) :=
  h.setHeat.heatPump

theorem unstrag {k tnum} (h : s.SameBase t) : s.SameBase (t.unstrag k tnum) :=
  .ite h.setHeat.heatDone.wr h.setHeat

theorem reconAck {k tnum status mem} (h : s.SameBase t) : s.SameBase (t.reconAck k tnum status mem) := by
  dsimp only [State.reconAck]
  split
  · exact h
  · split
    · split
      · exact h.setHeat.hcuSend
      · split
        · exact h.setHeat
        · exact .ite h.setHeat.glEvent.glEvent ((SameBase.ite h.count h).setHeat.foldl (fun _ _ h => h.hcuSend))
    · exact .ite h.setHeat (.ite h.setHeat.hcuSend h.setHeat)
    · exact .ite h.unstrag.upd h.setHeat

theorem stageReplies {k} (h : s.SameBase t) : s.SameBase (t.stageReplies k) :=
  h.setHeat.foldl (fun _ _ h => h.reply)

theorem stageAckIn {src l mem} (h : s.SameBase t) : s.SameBase (t.stageAckIn src l mem) := by
  dsimp only [State.stageAckIn]
  split
  · split
    · exact h
    · split
      · exact h.heatAbort
      · exact h
  · split
    · split
      · exact h.reconAck
      · split
        · exact h.reconAck.heatAbort
        · exact h.reconAck
    · split
      · split
        · exact h
        · split
          · exact h.heatAbort
          · exact h
      · split
        · refine SameBase.heatAbort ?_
          split
          · exact h.setHeat
          · split
            · exact h.setHeat.heatAbort
            · exact h.setHeat
        · refine SameBase.heatPump ?_
          refine SameBase.stageReplies ?_
          split
          · exact h.setHeat
          · split
            · exact h.setHeat.heatAbort
            · exact h.setHeat

theorem heatReconcile {x mode c} (h : s.SameBase t) : s.SameBase (t.heatReconcile x mode c) := by
  dsimp only [State.heatReconcile]
  split
  · exact h.reply
  · exact .ite h.reply (.ite h.reply ((SameBase.ite h.probeStrag h.unstrag).reply))

theorem heatCommit {x c} (h : s.SameBase t) : s.SameBase (t.heatCommit x c) := by
  dsimp only [State.heatCommit]
  split
  · exact h.reply
  · exact .ite h.reply (.ite h.setHeat.heatVote (.ite h.reply h.setWord64.setHeat.heatGo.reply))

theorem stageOne {k x i c} (h : s.SameBase t) : s.SameBase (t.stageOne k x i c) := by
  dsimp only [State.stageOne]
  split
  · exact h
  · split
    · exact h.heatAbort
    · split
      · exact h.setHeat.wr.wr.heatAbort
      · split
        · exact h.setHeat.wr.wr.heatAbort
        · split
          · exact h.setHeat.wr.wr.heatAbort
          · exact (SameBase.ite h.setHeat.wr.wr.floorsDue h.setHeat.wr.wr).hcuSend

theorem heatStage {x c} (h : s.SameBase t) : s.SameBase (t.heatStage x c) := by
  dsimp only [State.heatStage]
  split
  · exact h.reply
  · exact .ite h.reply (.ite h.reply (h.setHeat.foldl (fun _ _ h => h.stageOne)))

theorem heatOpen {x c} (h : s.SameBase t) : s.SameBase (t.heatOpen x c) := by
  dsimp only [State.heatOpen]
  split
  · exact h.reply
  · split
    · exact h.backOff.reply
    · split
      · exact h.reply
      · exact h.setWord.setWord.setWord.setWord64.setWord64.setWord.setHeat.reply

theorem evStopped (h : s.SameBase t) : s.SameBase t.evStopped :=
  h.upd.wr.foldl (fun _ _ h => h.reply)

theorem evMiss (h : s.SameBase t) : s.SameBase t.evMiss :=
  h.count.wr.upd

theorem wr64 {base lo hi v} (h : s.SameBase t) : s.SameBase (t.wr64 base lo hi v) :=
  h.wr.wr

theorem emitRec {kind at' part} (h : s.SameBase t) : s.SameBase (t.emitRec kind at' part) :=
  .ite h.evMiss.evPump (((SameBase.ite h.wr64.putBytes.wr.wr h.wr64.putBytes.wr).forAll (fun _ _ h => h.updNi)).upd.evPump)

theorem setBank {k u state bad excl arm} (h : s.SameBase t) : s.SameBase (t.setBank k u state bad excl arm) :=
  h.setWord

theorem pfCollect {k} (h : s.SameBase t) : s.SameBase (t.pfCollect k) :=
  .ite h (.ite ((h.foldl (fun _ _ h => .ite h.setBank h)).wr.wr.wr.wr.pfGo.give.glEvent.emitRec) ((h.foldl (fun _ _ h => .ite
    h.setBank h)).wr.wr.wr.wr.pfGo.give.glEvent))

theorem gateShow {n ts} (h : s.SameBase t) : s.SameBase (t.gateShow n ts) :=
  h.wr.wr

theorem pfArm {x c} (h : s.SameBase t) : s.SameBase (t.pfArm x c) := by
  dsimp only [State.pfArm]
  split
  · split
    · exact h.reply
    · split
      · exact h.reply
      · split
        · exact h.reply
        · split
          · exact h.reply
          · split
            · exact h.reply
            · refine SameBase.ask ?_
              refine SameBase.setPf ?_
              split
              · exact (h.foldl (fun _ _ h => (SameBase.ite h.wr h).updNi)).claimPin
              · exact h.foldl (fun _ _ h => (SameBase.ite h.wr h).updNi)
  · split
    · exact h.reply
    · split
      · exact h.reply
      · split
        · exact h.reply
        · split
          · exact h.reply
          · split
            · exact h.reply
            · refine SameBase.ask ?_
              refine SameBase.setPf ?_
              split
              · exact (h.foldl (fun _ _ h => (SameBase.ite h.wr h).updNi)).claimPin
              · exact h.foldl (fun _ _ h => (SameBase.ite h.wr h).updNi)

theorem pulse {k w sync} (h : s.SameBase t) : s.SameBase (t.pulse k w sync) :=
  h.updTime

theorem setAdj {adj} (h : s.SameBase t) : s.SameBase (t.setAdj adj) :=
  h.wr.updTime

theorem decideStep {abs v cmd} (h : s.SameBase t) : s.SameBase (t.decideStep abs v cmd) :=
  h.updTime

theorem timeGo {st} (h : s.SameBase t) : s.SameBase (t.timeGo st) := by
  dsimp only [State.timeGo]
  split
  · exact h
  · split
    · exact (SameBase.ite h.wr.updTime.glEvent.wr h.wr.updTime.glEvent).setAdj
    · exact (SameBase.ite h.wr.updTime.glEvent.wr h.wr.updTime.glEvent).setAdj
    · exact .ite h.wr.updTime.glEvent.wr h.wr.updTime.glEvent

theorem stopNodes (h : s.SameBase t) : s.SameBase t.stopNodes :=
  h.upd

theorem servo {e k} (h : s.SameBase t) : s.SameBase (t.servo e k) :=
  h.updTime.setAdj

theorem sample {e k first} (h : s.SameBase t) : s.SameBase (t.sample e k first) := by
  dsimp only [State.sample]
  split
  · split
    · split
      · exact .ite h.wr.updTime.upd.decideStep.updTime.timeGo h.wr.updTime.upd.decideStep.updTime
      · exact .ite h.wr.updTime.upd.updTime.timeGo h.wr.updTime.upd.updTime
    · exact .ite h.wr.updTime.upd.servo.updTime.timeGo h.wr.updTime.upd.servo.updTime
  · split
    · split
      · exact .ite h.wr.updTime.upd.decideStep.updTime.timeGo h.wr.updTime.upd.decideStep.updTime
      · exact .ite h.wr.updTime.upd.updTime.timeGo h.wr.updTime.upd.updTime
    · exact .ite h.wr.updTime.upd.servo.updTime.timeGo h.wr.updTime.upd.servo.updTime
  · split
    · split
      · exact .ite h.wr.updTime.upd.decideStep.timeGo h.wr.updTime.upd.decideStep.timeGo
      · exact .ite h.wr.updTime.upd.timeGo h.wr.updTime.upd.timeGo
    · exact .ite h.wr.updTime.upd.servo.timeGo h.wr.updTime.upd.servo.timeGo
  · exact (SameBase.ite (.ite h.wr.updTime.upd.decideStep h.wr.updTime.upd) h.wr.updTime.upd.servo).timeGo
  · exact .ite (.ite h.wr.updTime.upd.decideStep h.wr.updTime.upd) h.wr.updTime.upd.servo

theorem missed (h : s.SameBase t) : s.SameBase t.missed :=
  .ite h.updTime.timeGo h.updTime

theorem adopt {k} (h : s.SameBase t) : s.SameBase (t.adopt k) :=
  .ite h ((SameBase.ite (.ite h.updTime.timeGo h.updTime) (.ite h.updTime.timeGo h.updTime)).refreshTime)

theorem ppsEdge {rise ts} (h : s.SameBase t) : s.SameBase (t.ppsEdge rise ts) :=
  .ite h (.ite h.count (.ite ((SameBase.ite h.updTime.upd h.updTime).adopt.sample.refreshTime) ((SameBase.ite h.updTime.upd
    h.updTime).adopt)))

theorem trackFail {r} (h : s.SameBase t) : s.SameBase (t.trackFail r) :=
  h.setNode.glEvent.refreshTime

theorem markMiss {r} (h : s.SameBase t) : s.SameBase (t.markMiss r) := by
  dsimp only [State.markMiss]
  split
  · exact h
  · split
    · exact h.setNode.trackFail
    · exact h.setNode

theorem sendMarker {p m} (h : s.SameBase t) : s.SameBase (t.sendMarker p m) :=
  h.foldl (fun _ _ h => .ite h h.markMiss.setNode)

theorem stepApply {p ft} (h : s.SameBase t) : s.SameBase (t.stepApply p ft) :=
  ((SameBase.ite h.updTime.wr.upd.timeGo h.updTime.wr.upd).forAll (fun _ _ h => .ite ((SameBase.ite h.updNi.count
    h.updNi).wr.wr.updNi) h.updNi)).replyOpt.refreshTime

theorem marker (h : s.SameBase t) : s.SameBase t.marker := by
  dsimp only [State.marker]
  split
  · refine SameBase.wr ?_
    refine SameBase.wr ?_
    refine SameBase.upd ?_
    refine SameBase.sendMarker ?_
    split
    · exact h.upd.wr64.stepApply
    · exact h.upd.wr64
  · refine SameBase.sendMarker ?_
    split
    · exact h.upd.wr64.stepApply
    · exact h.upd.wr64

theorem hopFreeze {g} (h : s.SameBase t) : s.SameBase (t.hopFreeze g) := by
  dsimp only [State.hopFreeze]
  split
  · split
    · split
      · exact (h.foldl (fun _ _ h => h.setNode)).refreshTime.updRg
      · exact (h.foldl (fun _ _ h => h.setNode)).refreshTime
    · exact (h.foldl (fun _ _ h => h.setNode)).refreshTime
  · exact h

theorem runEnd {r rtt} (h : s.SameBase t) : s.SameBase (t.runEnd r rtt).1 := by
  dsimp only [State.runEnd]
  split
  · exact h.setNode.fst
  · split
    · exact h.setNode.fst
    · exact h.setNode.wr.wr.glEvent.fst

theorem track {r x m} (h : s.SameBase t) : s.SameBase (t.track r x m) :=
  .ite h (.ite h.setNode (.ite h (.ite h.setNode (.ite h.setNode.trackFail h.setNode))))

theorem markerAt {r x} (h : s.SameBase t) : s.SameBase (t.markerAt r x) := by
  dsimp only [State.markerAt]
  split
  · exact h
  · exact h.setNode.track.sendMarker

theorem announce {n ts} (h : s.SameBase t) : s.SameBase (t.announce n ts) :=
  .ite (.ite h (.ite h.count (.ite h (.ite h.count h.updTime)))) h

theorem copyWords {src dst k} (h : s.SameBase t) : s.SameBase (t.copyWords src dst k) :=
  h.foldl (fun _ _ h => h.setWord)

theorem gateBegin {n} (h : s.SameBase t) : s.SameBase (t.gateBegin n) := by
  dsimp only [State.gateBegin]
  split
  · exact h
  · exact h.setNi.copyWords.setWord64.wr.wr.wr

theorem refill {n k} (h : s.SameBase t) : s.SameBase (t.refill n k) :=
  h.setNi

theorem queueSample {n q} (h : s.SameBase t) : s.SameBase (t.queueSample n q) :=
  h.updNi

theorem floors (h : s.SameBase t) : s.SameBase t.floors :=
  .ite h ((h.forAll (fun _ _ h => h.wr)).wr.holdRuns.wr.upd)

theorem routeReply {x reason bound} (h : s.SameBase t) : s.SameBase (t.routeReply x reason bound) :=
  .ite h.reply h.reply

theorem routeRecheck {x c} (h : s.SameBase t) : s.SameBase (t.routeRecheck x c) := by
  dsimp only [State.routeRecheck]
  split
  · exact h.routeReply
  · exact h.setEntry.floorsDue.routeReply

theorem routeSet {x c} (h : s.SameBase t) : s.SameBase (t.routeSet x c) := by
  dsimp only [State.routeSet]
  split
  · exact h.routeReply
  · exact h.setEntry.floorsDue.routeReply

theorem segSte {n rdy ts} (h : s.SameBase t) : s.SameBase (t.segSte n rdy ts) := by
  dsimp only [State.segSte]
  split
  · exact h
  · split
    · exact h
    · exact .ite h.setNi.dropPk h.setNi

theorem segRpe {n ts} (h : s.SameBase t) : s.SameBase (t.segRpe n ts) := by
  dsimp only [State.segRpe]
  split
  · exact h
  · split
    · exact h
    · split
      · exact h.setNi
      · exact .ite h.setNi.dropPk h.setNi

theorem dropWqe {n w p} (h : s.SameBase t) : s.SameBase (t.dropWqe n w p) := by
  dsimp only [State.dropWqe]
  refine SameBase.dropPk ?_
  refine SameBase.updNi ?_
  split
  · exact .ite h h.updNi.respond
  · exact h

theorem segWqe {n ts} (h : s.SameBase t) : s.SameBase (t.segWqe n ts) := by
  dsimp only [State.segWqe]
  split
  · exact h
  · split
    · exact .ite h.dropWqe (.ite h.setNi.dropPk h.setNi)
    · exact h

theorem settle {n k} (h : s.SameBase t) : s.SameBase (t.settle n k) := by
  dsimp only [State.settle]
  split
  · exact h
  · exact h.setNi.credits

theorem settleAll {n} (h : s.SameBase t) : s.SameBase (t.settleAll n) :=
  h.foldl (fun _ _ h => h.settle)

theorem epAnswer {n hd ep status} (h : s.SameBase t) : s.SameBase (t.epAnswer n hd ep status) :=
  h.stageAck

theorem turnAway {n k p status} (h : s.SameBase t) : s.SameBase (t.turnAway n k p status) := by
  dsimp only [State.turnAway]
  refine SameBase.dropPk ?_
  split
  · exact h.updNi.epAnswer
  · exact h.updNi.respond

theorem present {n k p rsvd rser} (h : s.SameBase t) : s.SameBase (t.present n k p rsvd rser) := by
  dsimp only [State.present]
  split
  · exact h
  · exact .ite h.setNi.dropPk h.setNi

theorem setRsv {n node slice addr} (h : s.SameBase t) : s.SameBase (t.setRsv n node slice addr) :=
  .ite h.setNi.count h.setNi

theorem takeFree (h : s.SameBase t) : s.SameBase t.takeFree.2 :=
  h.upd.snd

theorem spurious {n key} (h : s.SameBase t) : s.SameBase (t.spurious n key).1 := by
  dsimp only [State.spurious]
  split
  · exact h.takeFree.setNi.fst
  · exact h

theorem migLog {n slice addr len} (h : s.SameBase t) : s.SameBase (t.migLog n slice addr len) :=
  .ite h.updNi h

theorem clearRsv {n node slice addr len} (h : s.SameBase t) : s.SameBase (t.clearRsv n node slice addr len) := by
  dsimp only [State.clearRsv]
  exact h.updNi

theorem deliver {n} (h : s.SameBase t) : s.SameBase (t.deliver n) := by
  dsimp only [State.deliver]
  split
  · exact h
  · split
    · exact h
    · split
      · exact h.turnAway
      · split
        · exact h
        · split
          · exact h.setRsv.present
          · split
            · exact .ite h.present (.ite (.ite h.spurious.turnAway h.spurious.present) h.turnAway)
            · exact .ite ((SameBase.ite h.clearRsv h).migLog.present) h.present

theorem uncorr {n} (h : s.SameBase t) : s.SameBase (t.uncorr n) :=
  h.count.alert

theorem uncorrs {n k} (h : s.SameBase t) : s.SameBase (t.uncorrs n k) :=
  h.foldl (fun _ _ h => h.uncorr)

theorem judge {n plane hd ts} (h : s.SameBase t) : s.SameBase (t.judge n plane hd ts).1 := by
  dsimp only [State.judge]
  split
  · exact h.count.wr.updNi.fst
  · split
    · exact (SameBase.ite h.wr h).fst
    · refine SameBase.fst ?_
      split
      · split
        · split
          · exact .ite h.wr.count.updNi.updNi.wr h.wr.count.updNi.updNi.wr.alert
          · exact .ite h.wr.count.updNi.wr h.wr.count.updNi.wr.alert
        · split
          · exact .ite h.wr.count.updNi.wr.wr.wr.wr.wr.wr.updNi.wr h.wr.count.updNi.wr.wr.wr.wr.wr.wr.updNi.wr.alert
          · exact .ite h.wr.count.updNi.wr.wr.wr.wr.wr.wr.wr h.wr.count.updNi.wr.wr.wr.wr.wr.wr.wr.alert
      · split
        · split
          · exact .ite h.count.updNi.updNi.wr h.count.updNi.updNi.wr.alert
          · exact .ite h.count.updNi.wr h.count.updNi.wr.alert
        · split
          · exact .ite h.count.updNi.wr.wr.wr.wr.wr.wr.updNi.wr h.count.updNi.wr.wr.wr.wr.wr.wr.updNi.wr.alert
          · exact .ite h.count.updNi.wr.wr.wr.wr.wr.wr.wr h.count.updNi.wr.wr.wr.wr.wr.wr.wr.alert

theorem bodyAt {n k fl err ts} (h : s.SameBase t) : s.SameBase (t.bodyAt n k fl err ts) := by
  dsimp only [State.bodyAt]
  split
  · exact h
  · split
    · exact h.updNi.credit.whole
    · split
      · split
        · split
          · exact .ite h.updNi.judge.updNi.whole h.updNi.judge.updNi
          · exact .ite h.updNi.credit.judge.updNi.whole h.updNi.credit.judge.updNi
        · exact .ite ((SameBase.ite h.updNi h.updNi.credit).whole) (.ite h.updNi h.updNi.credit)
      · split
        · split
          · exact .ite h.updNi.judge.updNi.whole h.updNi.judge.updNi
          · exact .ite h.updNi.credit.judge.updNi.whole h.updNi.credit.judge.updNi
        · exact .ite ((SameBase.ite h.updNi h.updNi.credit).whole) (.ite h.updNi h.updNi.credit)

theorem eat {n plane vc rx} (h : s.SameBase t) : s.SameBase (t.eat n plane vc rx) :=
  h.updNi.credit

theorem judgeRest {n plane fl j ts} (h : s.SameBase t) : s.SameBase (t.judgeRest n plane fl j ts).1 := by
  dsimp only [State.judgeRest]
  split
  · exact h
  · split
    · exact h.judge.fst
    · exact h

theorem judgeHead {n k p ts} (h : s.SameBase t) : s.SameBase (t.judgeHead n k p ts) :=
  .ite h.judge.updNi h

theorem twinAdd {n c seq plane slice} (h : s.SameBase t) : s.SameBase (t.twinAdd n c seq plane slice) :=
  .ite h.count h.setNi

theorem stale {n k} (h : s.SameBase t) : s.SameBase (t.stale n k) :=
  h.count.alert.dropPk

theorem eliminate {n k c p ts} (h : s.SameBase t) : s.SameBase (t.eliminate n k c p ts) :=
  .ite ((SameBase.ite h.updNi.twinAdd h.updNi).judgeHead.accept) (.ite ((SameBase.ite h.updNi.twinAdd
    h.updNi).judgeHead.accept) (.ite ((SameBase.ite h.count.updNi.twinAdd h.count.updNi).judgeHead.accept) (.ite
    h.updNi.count.dropPk h.updNi.stale)))

theorem isoTag {n new ts} (h : s.SameBase t) : s.SameBase (t.isoTag n new ts) := by
  dsimp only [State.isoTag]
  split
  · exact h
  · exact .ite h (.ite ((SameBase.ite h.sbFail h).updNi) ((SameBase.ite h.sbFail h).updNi))

theorem isoReceive {n} (h : s.SameBase t) : s.SameBase (t.isoReceive n) :=
  h.setNi.foldl (fun _ _ h => h.isoTag)

theorem stDiscard {o} (h : s.SameBase t) : s.SameBase (t.stDiscard o) := by
  dsimp only [State.stDiscard]
  split
  · exact h
  · exact h.updPort.updPort

theorem isolate {o} (h : s.SameBase t) : s.SameBase (t.isolate o) := by
  dsimp only [State.isolate]
  split
  · exact h
  · split
    · exact h
    · split
      · exact h.stDiscard.updPort.setBit.setBit.setBit.count.rtrEvent
      · exact h.stDiscard.updPort.setBit.setBit.setBit.count.rtrEvent
      · exact h.stDiscard.updPort.setBit

theorem stPass {o v e} (h : s.SameBase t) : s.SameBase (t.stPass o v e) := by
  dsimp only [State.stPass]
  split
  · exact h
  · split
    · exact h
    · exact h.setPort.correcteds

theorem creditLoad {o} (h : s.SameBase t) : s.SameBase (t.creditLoad o) := by
  dsimp only [State.creditLoad]
  split
  · exact h
  · exact .ite h h.updPort

theorem stCredit {o v flip} (h : s.SameBase t) : s.SameBase (t.stCredit o v flip) := by
  dsimp only [State.stCredit]
  split
  · exact h.updPort
  · split
    · exact h.creditError
    · exact h.creditError

theorem creditVec {o v flip} (h : s.SameBase t) : s.SameBase (t.creditVec o v flip) :=
  .ite h (.ite h.creditError (h.foldl (fun _ _ h => .ite h (.ite h.creditError h.updPort))))

theorem phase {o cut} (h : s.SameBase t) : s.SameBase (t.phase o cut) := by
  dsimp only [State.phase]
  split
  · exact h
  · split
    · exact h
    · refine SameBase.pump ?_
      refine SameBase.setPort ?_
      split
      · exact .ite h.count h
      · exact h

theorem overrun {o} (h : s.SameBase t) : s.SameBase (t.overrun o) := by
  dsimp only [State.overrun]
  split
  · exact h
  · refine SameBase.phase ?_
    split
    · exact .ite h.setPort.count.wr.arbLog.rtrEvent.planeFault h.setPort.count.wr.arbLog.rtrEvent
    · exact .ite h.setPort.setBit.count.alert.planeFault h.setPort.setBit.count.alert
    · exact h.setPort

theorem take {p r i vc rx} (h : s.SameBase t) : s.SameBase (t.take p r i vc rx) :=
  h.updVc.credit

theorem routeDrop {p r i vc reason hd} (h : s.SameBase t) : s.SameBase (t.routeDrop p r i vc reason hd) :=
  (SameBase.ite h.count h.count.wr.wr.wr.wr.wr.wr.wr.wr.wr).rtrEvent

theorem bodyDrop {p r i fl x} (h : s.SameBase t) : s.SameBase (t.bodyDrop p r i fl x) := by
  dsimp only [State.bodyDrop]
  split
  · exact h.routeDrop
  · exact .ite h.routeDrop.buffer ((h.routeDrop.updVc.foldl (fun _ _ h => h.credit)).take)

theorem unusedGrant {p r i v hd} (h : s.SameBase t) : s.SameBase (t.unusedGrant p r i v hd) :=
  .ite (.ite ((SameBase.ite h.count h).updPort.phase) h) h

theorem routerFlit {p r i fl0 e} (h : s.SameBase t) : s.SameBase (t.routerFlit p r i fl0 e) := by
  dsimp only [State.routerFlit]
  split
  · exact h
  · split
    · exact h.correcteds.count
    · split
      · exact h.correcteds.count.updPort.creditError
      · split
        · exact .ite h.correcteds.count.take (.ite h.correcteds.count.bodyDrop h.correcteds.count.buffer)
        · split
          · exact h.correcteds.count.take
          · split
            · exact h.correcteds.count.unusedGrant.routeDrop.take
            · exact h.correcteds.count.buffer

theorem sc0Send {n pl p hd} (h : s.SameBase t) : s.SameBase (t.sc0Send n pl p hd) :=
  h.stage.updPort.pump

theorem payQ {n q ll} (h : s.SameBase t) : s.SameBase (t.payQ n q ll) :=
  h.updNi

theorem unselect {n p} (h : s.SameBase t) : s.SameBase (t.unselect n p) := by
  dsimp only [State.unselect]
  split
  · exact h.updNi.payQ.updNi
  · exact h.updNi.updNi

theorem sc0Go {n p pls late ts} (h : s.SameBase t) : s.SameBase (t.sc0Go n p pls late ts) :=
  h.unselect.setNi.foldl (fun _ _ h => h.sc0Send)

theorem sysDrop {n p mem} (h : s.SameBase t) : s.SameBase (t.sysDrop n p mem) :=
  .ite h.updNi.pktBad (.ite h.updNi.memUncorr.pktBad h.updNi.count)

theorem sc0Leave {n p pls late ts} (h : s.SameBase t) : s.SameBase (t.sc0Leave n p pls late ts) := by
  dsimp only [State.sc0Leave]
  split
  · exact h.sc0Go
  · exact h.updNi
  · exact h.updNi
  · split
    · exact h.updNi.payQ.depart
    · exact h.updNi.sysDrop

theorem sc0Late {n p pl ts} (h : s.SameBase t) : s.SameBase (t.sc0Late n p pl ts) :=
  .ite h.sc0Leave.count.notice h.sc0Leave

theorem sysTurn {n c ts mem} (h : s.SameBase t) : s.SameBase (t.sysTurn n c ts mem).1 := by
  dsimp only [State.sysTurn]
  split
  · exact h
  · split
    · exact h.updNi.loopBack.fst
    · exact h.sysDrop.fst
    · split
      · exact h.updNi.toSlot.fst
      · exact h.updNi.sc0Send.fst
      · split
        · exact h.updNi.fst
        · split
          · exact h.updNi.toSlot.fst
          · exact h
    · exact h

theorem serve {n q ts mem} (h : s.SameBase t) : s.SameBase (t.serve n q ts mem) :=
  .ite h.depart h.payQ.depart

theorem vtr {n c ts mem} (h : s.SameBase t) : s.SameBase (t.vtr n c ts mem).1 := by
  dsimp only [State.vtr]
  split
  · exact h
  · exact h.serve.fst

theorem drr {n c ts mem} (h : s.SameBase t) : s.SameBase (t.drr n c ts mem).1 := by
  dsimp only [State.drr]
  split
  · exact h
  · split
    · exact h.serve.fst
    · exact h.updNi.fst

theorem classTurn {n c ts mem} (h : s.SameBase t) : s.SameBase (t.classTurn n c ts mem).1 := by
  dsimp only [State.classTurn]
  split
  · exact h.sysTurn.fst
  · split
    · exact h
    · split
      · exact h.vtr
      · exact h.drr

theorem noteHolds {n ts mem} (h : s.SameBase t) : s.SameBase (t.noteHolds n ts mem) := by
  dsimp only [State.noteHolds]
  split
  · exact (h.foldl (fun _ _ h => by
    split
    · exact h
    · exact .ite h h.updNi)).updNi
  · exact h.foldl (fun _ _ h => by
    split
    · exact h
    · exact .ite h h.updNi)

theorem handleFault {n g verdict} (h : s.SameBase t) : s.SameBase (t.handleFault n g verdict) :=
  (SameBase.ite h h.wr.wr.wr.wr.wr.wr).count.wr.alert

theorem rspWhole {n k ts p g} (h : s.SameBase t) : s.SameBase (t.rspWhole n k ts p g) :=
  .ite ((SameBase.ite h.updNi.sbFail h.updNi).dropPk.updNi) (.ite h.updNi.dropPk.updNi ((SameBase.ite h.updNi.handleFault
    h.updNi).updNi))

theorem stall {n half} (h : s.SameBase t) : s.SameBase (t.stall n half) := by
  dsimp only [State.stall]
  split
  · exact h
  · split
    · exact h
    · exact h.setNi.count.wr

theorem barrierDone {n} (h : s.SameBase t) : s.SameBase (t.barrierDone n) := by
  dsimp only [State.barrierDone]
  split
  · exact h
  · exact .ite h (.ite h.setNi (.ite h.setNi.wr (.ite h.setNi.wr h.setNi)))

theorem dropStore {n g} (h : s.SameBase t) : s.SameBase (t.dropStore n g).1 := by
  dsimp only [State.dropStore]
  split
  · exact h.sbLog.setNi.fst
  · exact h.sbLog.setNi.fst

theorem ctoExpire {n ts part} (h : s.SameBase t) : s.SameBase (t.ctoExpire n ts part) := by
  dsimp only [State.ctoExpire]
  split
  · exact h
  · split
    · exact h
    · split
      · exact h
      · refine SameBase.updNi ?_
        split
        · exact .ite h.count.alert.dropStore.wr h.count.alert.dropStore
        · exact .ite h.count.alert.fst.wr h.count.alert.fst

theorem answerDlv {n d port status data} (h : s.SameBase t) : s.SameBase (t.answerDlv n d port status data) := by
  dsimp only [State.answerDlv]
  split
  · exact h.epAnswer
  · exact h.pushSys

theorem resetDlvs {n} (h : s.SameBase t) : s.SameBase (t.resetDlvs n) :=
  h.foldl (fun _ _ h => .ite h.updNi h.updNi.answerDlv)

theorem resetEgress {n} (h : s.SameBase t) : s.SameBase (t.resetEgress n) :=
  ((h.setNi.foldl (fun _ _ h => by
    split
    · exact h
    · refine SameBase.dropPk ?_
      split
      · exact h.epAnswer
      · exact h.respond)).foldl (fun _ _ h => h.dropPk)).foldl (fun _ _ h => h.streamDrop.dropPk)

theorem rspFix {n status} (h : s.SameBase t) : s.SameBase (t.rspFix n status).1 := by
  dsimp only [State.rspFix]
  split
  · exact h
  · exact h.wr.fst

theorem clearGranule {n addr len} (h : s.SameBase t) : s.SameBase (t.clearGranule n addr len) := by
  dsimp only [State.clearGranule]
  exact h.updNi

theorem rspMonitor {n d status} (h : s.SameBase t) : s.SameBase (t.rspMonitor n d status).1 := by
  dsimp only [State.rspMonitor]
  split
  · split
    · exact h
    · split
      · exact h
      · exact h.updNi.fst
  · split
    · split
      · exact h.clearGranule.fst
      · exact h
    · exact h

theorem admitPk {n st} (h : s.SameBase t) : s.SameBase (t.admitPk n st) := by
  dsimp only [State.admitPk]
  split
  · exact h
  · exact .ite h.setNi h

theorem softNote {n l} (h : s.SameBase t) : s.SameBase (t.softNote n l) :=
  .ite h h.memUncorr

theorem offer {n w} (h : s.SameBase t) : s.SameBase (t.offer n w) :=
  .ite h.updNi h.updNi.admitPk

theorem softView {n dest l} (h : s.SameBase t) : s.SameBase (t.softView n dest l) :=
  h.foldl (fun _ _ h => by
    split
    · exact h.setWord
    · exact h.updNi
    · exact h.updNi)

theorem barrier {n q complete} (h : s.SameBase t) : s.SameBase (t.barrier n q complete) :=
  .ite h.setNi.softNote h

theorem tick (h : s.SameBase t) : s.SameBase t.tick :=
  .ite h.upd (.ite h.marker h.upd)

end State.SameBase

end Sys2Proof.Machine
end

section
/-! SUPPORT. The rules of the operations that repeat themselves, that run a command's own function, and that reset. -/

namespace Sys2Proof.Machine

namespace State.SameBase

variable {s t : State}

/-! ### Repeated operations -/

theorem fillData {l : List Byte} {n : Nat} (h : s.SameBase t) : s.SameBase (Machine.fillData t l n).1 := by
  induction n generalizing t l with
  | zero => exact h
  | succ n ih =>
    cases l with
    | nil => exact ih h.takeFree
    | cons b r => exact ih h

theorem beatData {l : List (Option Byte)} (h : s.SameBase t) : s.SameBase (Machine.beatData t l).1 := by
  induction l generalizing t with
  | nil => exact h
  | cons o r ih =>
    cases o with
    | none => exact ih h.takeFree
    | some b => exact ih h

theorem freeBytes {n : Nat} (h : s.SameBase t) : s.SameBase (Machine.freeBytes t n).1 := by
  induction n generalizing t with
  | zero => exact h
  | succ n ih => exact ih h.takeFree

theorem sinkPlane {k p v fuel} (h : s.SameBase t) : s.SameBase (t.sinkPlane k p v fuel) := by
  induction fuel generalizing t with
  | zero => exact h
  | succ fuel ih =>
    dsimp only [State.sinkPlane]
    split
    · exact h
    · split
      · exact h
      · split
        · exact h
        · exact ih (.ite h.updVc.credits.count h.updVc.credits)

theorem sinkXb {c v fuel} (h : s.SameBase t) : s.SameBase (t.sinkXb c v fuel) := by
  induction fuel generalizing t with
  | zero => exact h
  | succ fuel ih =>
    dsimp only [State.sinkXb]
    split
    · exact h
    · split
      · exact h
      · split
        · exact h
        · exact ih (.ite h.xbDrop.count h.xbDrop)

theorem stepRun {fuel} (h : s.SameBase t) : s.SameBase (t.stepRun fuel) := by
  induction fuel generalizing t with
  | zero => exact h
  | succ fuel ih =>
    dsimp only [State.stepRun]
    split
    · exact .ite (ih h.marker) h
    · exact h

theorem makeRoom {n f fuel} (h : s.SameBase t) : s.SameBase (t.makeRoom n f fuel) := by
  induction fuel generalizing t with
  | zero => exact h
  | succ fuel ih =>
    dsimp only [State.makeRoom]
    split
    · exact h
    · split
      · exact h
      · exact ih h.flushCtx.count

theorem fallBack {n fuel} (h : s.SameBase t) : s.SameBase (t.fallBack n fuel) := by
  induction fuel generalizing t with
  | zero => exact h
  | succ fuel ih =>
    dsimp only [State.fallBack]
    split
    · exact h
    · exact .ite h (ih h.setNi.count.wr)

theorem answerHeld {n d fuel} (h : s.SameBase t) : s.SameBase (t.answerHeld n d fuel) := by
  induction fuel generalizing t with
  | zero => exact h
  | succ fuel ih =>
    dsimp only [State.answerHeld]
    split
    · exact h
    · exact ih (.ite h.updNi h.updNi.answerDlv)

theorem drainCtx {n c fuel} (h : s.SameBase t) : s.SameBase (t.drainCtx n c fuel) := by
  induction fuel generalizing t with
  | zero => exact h
  | succ fuel ih =>
    dsimp only [State.drainCtx]
    split
    · exact h.setNi
    · exact ih h.setNi.accept

theorem release {n ts mem} (h : s.SameBase t) : s.SameBase (t.release n ts mem) := by
  refine foldlFst (fun p c hp => ?_) h.updNi.noteHolds.fallBack
  split
  · exact hp
  · exact hp.classTurn

theorem bistWipe (h : s.SameBase t) : s.SameBase t.bistWipe := by
  unfold State.bistWipe
  extract_lets maps u v w
  have hmaps : ∀ m k w c, s.SameBase c → s.SameBase (maps m k w c).1 := fun _ _ _ _ hc =>
    foldlFst (fun _ _ hp => hp.takeFree) hc
  have hu : s.SameBase u := by
    refine h.forAll fun n a ha => ?_
    extract_lets b a₁ a₂
    have ha₂ : s.SameBase a₂ := ha.destroy.destroy.destroy
    split
    next a₃ mcg hmcg =>
      have ha₃ : s.SameBase a₃ := by simpa only [hmcg] using hmaps (a₂.ni n).mcg 512 32 a₂ ha₂
      split
      next a₄ pid hpid =>
        have ha₄ : s.SameBase a₄ := by simpa only [hpid] using hmaps (a₃.ni n).pid (niRec a₃.rom n).pidMap 32 a₃ ha₃
        exact ha₄.updNi
  have hv : s.SameBase v := hu.forAll fun _ _ h => h.destroy
  exact upd (hv.foldl fun _ _ h => h.updPort)

/-! ### Commands in execution and the Control Matrix -/

theorem runCmd {x op fs f} (hf : ∀ c u, s.SameBase u → s.SameBase (f c u)) (h : s.SameBase t) :
    s.SameBase (t.runCmd x op fs f) := by
  unfold State.runCmd
  split
  · exact h
  · exact .ite h (.ite (hf _ _ h.begin) h.reply)

theorem dbgCmd {x op fs f} (hf : ∀ c u, s.SameBase u → s.SameBase (f c u)) (h : s.SameBase t) :
    s.SameBase (t.dbgCmd x op fs f) :=
  h.runCmd fun c u hu => .ite hu.reply (hf c u hu)

theorem flushCmx (h : s.SameBase t) : s.SameBase t.flushCmx := by
  unfold State.flushCmx
  refine (updCmx (foldlFst (fun p c hp => ?_) h)).mgmtPump
  split
  · exact hp
  · split
    · exact hp
    · exact hp.cmxAnswer

/-! ### The Starter's memory and the resets -/

theorem loadData {v} (h : s.SameBase t) : s.SameBase (t.loadData v) :=
  ⟨h.pending, h.rom, h.straps, fun hs => t.loadData_wf v (h.sram hs)⟩

/-- The Starter's memory starts empty. -/
theorem por (h : s.SameBase t) : s.SameBase t.por := ⟨h.pending, h.rom, h.straps, fun _ => State.reset_memory_wf⟩

theorem hrst {cause} (h : s.SameBase t) : s.SameBase (t.hrst cause) := by
  unfold State.hrst
  extract_lets u v w lost held nis x y
  have hx : s.SameBase x := by
    refine forAll (fun _ _ h => h.count) (resetRegs (foldl (fun _ _ h => h.dropLinks) (forAll (fun _ _ h => h.discardStores) ?_)))
    exact .ite h h.glEvent
  exact wr ⟨hx.pending, hx.rom, hx.straps, fun _ => State.reset_memory_wf⟩

theorem startStep {k} (h : s.SameBase t) : s.SameBase (t.startStep k) := by
  unfold State.startStep
  split
  · exact h.stepTo
  · exact .ite h.stepTo h
  · have hup := h.rgUp (g := t.rom.homeRegion) |>.stepTo (k := 3)
    exact ⟨hup.pending, hup.rom, hup.straps, h.sram⟩
  · exact .ite h.stepTo h
  · exact ((h.forAll fun _ _ h => .ite h h.rgUp).startRuns.refreshTime.stepTo).upd
  · split
    · exact .ite h.stepTo h
    · exact h
  · split
    · exact h.wr.wr.startFail
    · exact h.wr.stepTo.foldl fun _ _ h => h.foldl fun _ _ h => .ite h.trainStart h
  · exact .ite h.stepTo h
  · exact .ite h (h.startConfig.stepTo.wr.upd.glEvent.orderSync.refreshTime)
  · exact h

end State.SameBase

end Sys2Proof.Machine
end

section
/-! SUPPORT. The rules of the operations over those. -/

namespace Sys2Proof.Machine

namespace State.SameBase

variable {s t : State}

theorem testEnter {mode} (h : s.SameBase t) : s.SameBase (t.testEnter mode) :=
  (SameBase.ite h.wr.wr.bistWipe h.wr.wr).glEvent.orderSync.refreshTime

theorem testMode {v} (h : s.SameBase t) : s.SameBase (t.testMode v) :=
  .ite h (.ite h.testLeave h.testEnter)

theorem actStr {rel v} (h : s.SameBase t) : s.SameBase (t.actStr rel v) := by
  dsimp only [State.actStr]
  split
  · exact .ite ((SameBase.ite h.loadStart h).loadGo) (.ite h.loadStart h)
  · exact h.loadData
  · exact .ite h.updStarter h
  · exact .ite h.doorbell h

theorem cutAccesses {g} (h : s.SameBase t) : s.SameBase (t.cutAccesses g) :=
  h.upd.flushCmx

theorem sinkAll {k} (h : s.SameBase t) : s.SameBase (t.sinkAll k) :=
  h.foldl (fun _ _ h => h.sinkPlane.sinkPlane.foldl (fun _ _ h => h.sinkXb))

theorem resetUnits {g} (h : s.SameBase t) : s.SameBase (t.resetUnits g) :=
  ((((((h.foldl (fun _ _ h => h.resetRtr.resetRtr)).foldl (fun _ _ h => h.resetNi)).foldl (fun _ _ h => h.resetSpan)).foldl
    (fun _ _ h => h.clearPort)).foldl (fun _ _ h => h.updPort)).foldl (fun _ _ h => h.farSides)).foldl (fun _ _ h => h.sinkAll)

theorem rgReset {g cause} (h : s.SameBase t) : s.SameBase (t.rgReset g cause) :=
  .ite (((h.stepCut.abortEntry.updRg.rgGo.setBit.setBit.wr.resetUnits.cutAccesses.foldl (fun _ _ h => .ite
    h.breakLock h)).foldl (fun _ _ h => h.setNode)).resetNodes.calReply.updPacer.orderSync.refreshTime)
    ((h.stepCut.abortEntry.updRg.rgGo.setBit.setBit.wr.resetUnits.cutAccesses.foldl (fun _ _ h => .ite
    h.breakLock h)).refreshTime)

theorem actGlb {rel v old} (h : s.SameBase t) : s.SameBase (t.actGlb rel v old) := by
  dsimp only [State.actGlb]
  split
  · exact .ite h.wr h
  · exact .ite h h.floorsDue
  · exact h.forAll (fun _ _ h => .ite h.rgReset h)
  · exact .ite h.niReset h
  · exact h

theorem actDbg {m rel v old} (h : s.SameBase t) : s.SameBase (t.actDbg m rel v old) := by
  dsimp only [State.actDbg]
  split
  · exact .ite ((SameBase.ite h.testMode h).coreReset) (.ite h.testMode h)
  · exact .ite h (.ite h.trcArm h.trcStop)
  · exact h

theorem acts {m u rel v old} (h : s.SameBase t) : s.SameBase (t.acts m u rel v old) := by
  dsimp only [State.acts]
  split
  · exact h.actNi
  · exact h.actStr
  · exact h.actGlb
  · exact h.actTim
  · exact h.actEvt
  · exact h.actDbg
  · exact .ite h.upd h
  · exact .ite h.evPump (.ite h.evShow h)
  · exact .ite (h.upd.forAll (fun _ _ h => h.wr.wr)) h
  · exact .ite h.wr h
  · exact h

theorem acted {m u rel v old} (h : s.SameBase t) : s.SameBase (t.acted m u rel v old) :=
  h.acts.foldl (fun _ _ h => h.reassert)

theorem regWrite {m u l} (h : s.SameBase t) : s.SameBase (t.regWrite m u l).1 := by
  dsimp only [State.regWrite]
  split
  · exact h
  · split
    · exact h
    · exact ((h.foldl (fun _ _ h => h.putReg)).foldl (fun _ _ h => h.acted)).fst

theorem writeWord {m u rel v} (h : s.SameBase t) : s.SameBase (t.writeWord m u rel v).1 := by
  dsimp only [State.writeWord]
  split
  · split
    · exact h.setStage.regWrite
    · exact h.regWrite
  · exact h.regWrite

theorem regStore {m u rel size v} (h : s.SameBase t) : s.SameBase (t.regStore m u rel size v).1 := by
  dsimp only [State.regStore]
  split
  · exact h
  · split
    · split
      · exact h
      · split
        · split
          · exact h
          · exact h.setStage.fst
        · exact h.writeWord
    · split
      · exact h.regWrite
      · refine SameBase.fst ?_
        split
        · refine SameBase.regWrite ?_
          split
          · exact h.regWrite
          · exact h
        · refine SameBase.fst ?_
          split
          · exact h.regWrite
          · exact h

theorem dbgAcc {w} (h : s.SameBase t) : s.SameBase (t.dbgAcc w) :=
  .ite h.tapOut (.ite h.tapOut ((SameBase.ite h.tapOut h.tapOut.wr.glEvent).cmxIn.flushCmx))

theorem toXbar {k j v} (h : s.SameBase t) : s.SameBase (t.toXbar k j v) := by
  dsimp only [State.toXbar]
  split
  · split
    · exact h
    · split
      · exact h
      · exact h.updXbv.popRx.sinkXb
  · exact h

theorem fromLink {k j v} (h : s.SameBase t) : s.SameBase (t.fromLink k j v) := by
  dsimp only [State.fromLink]
  refine SameBase.toXbar ?_
  split
  · exact .ite h.toPlanes h.toLink
  · exact h

theorem spanFlit {k p fl0 e} (h : s.SameBase t) : s.SameBase (t.spanFlit k p fl0 e) := by
  dsimp only [State.spanFlit]
  split
  · exact h
  · split
    · exact h.correcteds
    · split
      · exact h.correcteds.updPort
      · refine SameBase.sinkPlane ?_
        split
        · split
          · exact h.correcteds.updVc.credit
          · exact .ite (.ite h.correcteds.updVc h.correcteds.updVc.credits) h.correcteds.updVc
        · split
          · exact h.correcteds.updVc.credit
          · exact .ite h.correcteds.updVc.credit h.correcteds.fromPlane

theorem linkDown {k j st} (h : s.SameBase t) : s.SameBase (t.linkDown k j st) :=
  .ite h.setLst h.count.finishRx.updLk.jointsLost.sinkAll.spanPump.setLst.spanEvent

theorem popSrc {k x v} (h : s.SameBase t) : s.SameBase (t.popSrc k x v) :=
  .ite h.updVc.credit.sinkPlane h.updXbv.sinkXb

theorem rgFault {g cause} (h : s.SameBase t) : s.SameBase (t.rgFault g cause) :=
  .ite h.hrst h.rgReset

theorem clockFault {g edges} (h : s.SameBase t) : s.SameBase (t.clockFault g edges) :=
  .ite h.rgFault h

theorem droopReset {g uv} (h : s.SameBase t) : s.SameBase (t.droopReset g uv) :=
  .ite h h.wr.rgEvent.count.rgFault

theorem offReset {g} (h : s.SameBase t) : s.SameBase (t.offReset g) :=
  ((h.resetUnits.resetNodes.foldl (fun _ _ h => h.resetWindow.resetWindow)).foldl (fun _ _ h => h.resetWindow.setNi)).foldl
    (fun _ _ h => h.resetWindow)

theorem enter {g ts} (h : s.SameBase t) : s.SameBase (t.enter g ts) :=
  (SameBase.ite ((SameBase.ite ((h.updRg.downNis.foldl (fun _ _ h => h.updNi)).offReset) (h.updRg.downNis.foldl (fun _ _ h =>
    h.updNi))).updPacer) (.ite ((h.updRg.downNis.foldl (fun _ _ h => h.updNi)).offReset) (h.updRg.downNis.foldl (fun _ _ h =>
    h.updNi)))).rgGo.refreshTime

theorem deepen {g} (h : s.SameBase t) : s.SameBase (t.deepen g) := by
  dsimp only [State.deepen]
  split
  · exact .ite h.updRg.enter h
  · exact h

theorem calWaits {g} (h : s.SameBase t) : s.SameBase (t.calWaits g) :=
  h.stepCal.droopCal.combCal.deepen.wakeCal

theorem droopClear {g} (h : s.SameBase t) : s.SameBase (t.droopClear g) :=
  .ite h h.wr.leaveWd.startRuns.refreshTime.calWaits

theorem vrOk {g} (h : s.SameBase t) : s.SameBase (t.vrOk g) :=
  .ite ((SameBase.ite ((SameBase.ite h.homeDeep h).deepReset) h).updRg.startRuns.refreshTime.wakeCal) (.ite ((h.foldl
    (fun _ _ h => h.setNode)).rgReset) h.stepVr)

theorem moveStart {g ts} (h : s.SameBase t) : s.SameBase (t.moveStart g ts) := by
  dsimp only [State.moveStart]
  split
  · exact h.runStart
  · split
    · exact .ite h.idleStart h.closeStart
    · exact .ite h h.closeStart
    · exact .ite h.updRg.combStart.deepen h
    · exact h

theorem instNext (h : s.SameBase t) : s.SameBase t.instNext := by
  dsimp only [State.instNext]
  split
  · exact h
  · split
    · split
      · exact h.updPacer.replyOpt
      · exact .ite (.ite ((SameBase.ite h.replyOpt.updPacer h).moveStart) (.ite h.replyOpt.updPacer h)) h
    · exact h

theorem arrived (h : s.SameBase t) : s.SameBase t.arrived :=
  h.pwrCheck.instNext.instNext

theorem wakeDone {g} (h : s.SameBase t) : s.SameBase (t.wakeDone g) :=
  .ite h (.ite (h.updRg.setBit.foldl (fun _ _ h => h.catchUp)) ((SameBase.ite (((SameBase.ite h.reclaimPins h).updRg.rgGo.foldl
    (fun _ _ h => h.catchUp.updNi)).updPacer.updStarter.foldl (fun _ _ h => .ite h.wakeStart h)) ((SameBase.ite
    h.reclaimPins h).updRg.rgGo.foldl (fun _ _ h => h.catchUp.updNi))).refreshTime.arrived))

theorem powerOn {src} (h : s.SameBase t) : s.SameBase (t.powerOn src) :=
  h.por.updPacer.woken

theorem wakeInst {src} (h : s.SameBase t) : s.SameBase (t.wakeInst src) := by
  dsimp only [State.wakeInst]
  split
  · exact h.powerOn
  · exact h.wakeStart.updPacer.upd.woken
  · exact h.wakeStart.updPacer.upd.woken
  · split
    · exact .ite h h.abortWide
    · exact h

theorem arrive {g} (h : s.SameBase t) : s.SameBase (t.arrive g) :=
  .ite (.ite h.enter.arrived.wakeInst h.enter.arrived) (.ite h.enter.arrived.updPacer.wakeStart h.enter.arrived)

theorem land {n} (h : s.SameBase t) : s.SameBase (t.land n) :=
  h.forAll (fun _ _ h => by
    split
    · exact .ite h.arrive h
    · exact h)

theorem sampled (h : s.SameBase t) : s.SameBase t.sampled :=
  h.land

theorem relayWake {n} (h : s.SameBase t) : s.SameBase (t.relayWake n) :=
  .ite h (h.sampled.foldl (fun _ _ h => .ite h.relayOne h))

theorem collect {g} (h : s.SameBase t) : s.SameBase (t.collect g) :=
  .ite h.abortEntry (.ite (.ite (.ite h.updRg h.combStart) h) h.idleTry.arrived)

theorem pwrState {x c} (h : s.SameBase t) : s.SameBase (t.pwrState x c) :=
  .ite h.reply (.ite h.reply (.ite ((h.updPacer.foldl (fun _ _ h => h.moveStart)).arrived) (((SameBase.ite
    h.abortWide h).updPacer.foldl (fun _ _ h => h.moveStart)).arrived)))

theorem mgmtTake {n} (h : s.SameBase t) : s.SameBase (t.mgmtTake n) := by
  dsimp only [State.mgmtTake]
  split
  · exact h
  · split
    · exact h.unbox.noteErr.mgmtAnswer
    · exact .ite h.unbox.noteErr.mgmtAnswer (.ite h.unbox.cmxIn.flushCmx h.unbox.updNi.mgmtPump.flushCmx)

theorem cmxTimeout {x} (h : s.SameBase t) : s.SameBase (t.cmxTimeout x) := by
  dsimp only [State.cmxTimeout]
  split
  · exact h
  · exact h.closing.updCmx.brokenNow.flushCmx

theorem hcTake {q} (h : s.SameBase t) : s.SameBase (t.hcTake q) :=
  .ite h.cmxIn.flushCmx h

theorem calRun {r rtt} (h : s.SameBase t) : s.SameBase (t.calRun r rtt) := by
  dsimp only [State.calRun]
  split
  · exact h
  · split
    · exact h.runEnd
    · split
      · exact (h.runEnd.refreshTime.calReply.forAll (fun _ _ h => h.calWaits)).arrived.upd
      · exact (h.runEnd.refreshTime.calReply.forAll (fun _ _ h => h.calWaits)).arrived

theorem resequence {n k c seq f} (h : s.SameBase t) : s.SameBase (t.resequence n k c seq f) := by
  dsimp only [State.resequence]
  split
  · exact (SameBase.ite h.updNi h.count).accept
  · split
    · exact h.updNi.accept.drainCtx
    · split
      · split
        · exact h.makeRoom.updNi.accept.drainCtx
        · split
          · exact h.makeRoom.stale
          · split
            · exact h.makeRoom
            · exact h.makeRoom.setNi.credits
      · exact h.stale

theorem headAt {n plane fl hd err ts} (h : s.SameBase t) : s.SameBase (t.headAt n plane fl hd err ts) :=
  .ite h.count.uncorr.eat (.ite h.pktBad.eat (.ite h.count.alert.eat (.ite ((SameBase.ite ((SameBase.ite h.setNi.credit
    h.setNi).eliminate) ((SameBase.ite h.setNi.credit h.setNi).resequence)).whole) (.ite ((SameBase.ite h.setNi.credit
    h.setNi).eliminate) ((SameBase.ite h.setNi.credit h.setNi).resequence)))))

theorem flitAt {n plane fl e ts} (h : s.SameBase t) : s.SameBase (t.flitAt n plane fl e ts) := by
  dsimp only [State.flitAt]
  split
  · exact h
  · split
    · split
      · split
        · split
          · exact h.correcteds.uncorrs.updPort.wr.creditError
          · split
            · exact h.correcteds.uncorrs.bodyAt
            · exact h.correcteds.uncorrs.judgeRest.eat
            · exact .ite h.correcteds.uncorrs.headAt h.correcteds.uncorrs.eat
            · exact h.correcteds.uncorrs.eat
            · exact .ite h.correcteds.uncorrs.headAt h.correcteds.uncorrs.eat
            · exact h.correcteds.uncorrs.eat
        · split
          · exact h.correcteds.uncorrs.updPort.wr.creditError
          · split
            · exact h.correcteds.uncorrs.bodyAt
            · exact h.correcteds.uncorrs.judgeRest.eat
            · exact .ite h.correcteds.uncorrs.headAt h.correcteds.uncorrs.eat
            · exact h.correcteds.uncorrs.eat
            · exact .ite h.correcteds.uncorrs.headAt h.correcteds.uncorrs.eat
            · exact h.correcteds.uncorrs.eat
      · split
        · split
          · exact h.correcteds.uncorrs.trace.updPort.wr.creditError
          · split
            · exact h.correcteds.uncorrs.trace.bodyAt
            · exact h.correcteds.uncorrs.trace.judgeRest.eat
            · exact .ite h.correcteds.uncorrs.trace.headAt h.correcteds.uncorrs.trace.eat
            · exact h.correcteds.uncorrs.trace.eat
            · exact .ite h.correcteds.uncorrs.trace.headAt h.correcteds.uncorrs.trace.eat
            · exact h.correcteds.uncorrs.trace.eat
        · split
          · exact h.correcteds.uncorrs.trace.updPort.wr.creditError
          · split
            · exact h.correcteds.uncorrs.trace.bodyAt
            · exact h.correcteds.uncorrs.trace.judgeRest.eat
            · exact .ite h.correcteds.uncorrs.trace.headAt h.correcteds.uncorrs.trace.eat
            · exact h.correcteds.uncorrs.trace.eat
            · exact .ite h.correcteds.uncorrs.trace.headAt h.correcteds.uncorrs.trace.eat
            · exact h.correcteds.uncorrs.trace.eat
    · split
      · split
        · exact h.correcteds.uncorrs.updPort.wr.creditError
        · split
          · exact h.correcteds.uncorrs.bodyAt
          · exact h.correcteds.uncorrs.judgeRest.eat
          · exact .ite h.correcteds.uncorrs.headAt h.correcteds.uncorrs.eat
          · exact h.correcteds.uncorrs.eat
          · exact .ite h.correcteds.uncorrs.headAt h.correcteds.uncorrs.eat
          · exact h.correcteds.uncorrs.eat
      · split
        · exact h.correcteds.uncorrs.updPort.wr.creditError
        · split
          · exact h.correcteds.uncorrs.bodyAt
          · exact h.correcteds.uncorrs.judgeRest.eat
          · exact .ite h.correcteds.uncorrs.headAt h.correcteds.uncorrs.eat
          · exact h.correcteds.uncorrs.eat
          · exact .ite h.correcteds.uncorrs.headAt h.correcteds.uncorrs.eat
          · exact h.correcteds.uncorrs.eat

theorem rspPiece {n k ts j p g} (h : s.SameBase t) : s.SameBase (t.rspPiece n k ts j p g) := by
  dsimp only [State.rspPiece]
  refine SameBase.updNi ?_
  split
  · refine SameBase.sbFail ?_
    split
    · exact h.dropPk.fst
    · split
      · exact h.dropPk.freeBytes
      · exact h.dropPk.fst
  · split
    · exact h.dropPk.fst
    · split
      · exact h.dropPk.freeBytes
      · exact h.dropPk.fst

theorem rspArrival {n} (h : s.SameBase t) : s.SameBase (t.rspArrival n) := by
  dsimp only [State.rspArrival]
  split
  · exact h
  · split
    · exact h.setNi
    · split
      · split
        · exact h.setNi.rspWhole
        · exact h.setNi.rspDrop
      · split
        · exact h.setNi.rspPiece
        · exact h.setNi.rspDrop
      · exact h.setNi.rspDrop

theorem rpi {n ts status data} (h : s.SameBase t) : s.SameBase (t.rpi n ts status data) := by
  dsimp only [State.rpi]
  split
  · exact h.wr
  · split
    · split
      · exact .ite h.updNi.rspFix.fst.migLog h.updNi.rspFix.fst
      · exact .ite h.updNi.rspFix.rspMonitor.migLog h.updNi.rspFix.rspMonitor
    · split
      · split
        · split
          · split
            · exact h.updNi.rspFix.fst.migLog.fillData.updNi
            · exact h.updNi.rspFix.fst.migLog.fillData.answerDlv.answerHeld
          · exact .ite h.updNi.rspFix.fst.fillData.updNi h.updNi.rspFix.fst.fillData.answerDlv.answerHeld
        · split
          · exact .ite h.updNi.rspFix.fst.migLog.fst.updNi h.updNi.rspFix.fst.migLog.fst.answerDlv.answerHeld
          · exact .ite h.updNi.rspFix.fst.fst.updNi h.updNi.rspFix.fst.fst.answerDlv.answerHeld
      · split
        · split
          · split
            · exact h.updNi.rspFix.rspMonitor.migLog.fillData.updNi
            · exact h.updNi.rspFix.rspMonitor.migLog.fillData.answerDlv.answerHeld
          · split
            · exact h.updNi.rspFix.rspMonitor.fillData.updNi
            · exact h.updNi.rspFix.rspMonitor.fillData.answerDlv.answerHeld
        · split
          · split
            · exact h.updNi.rspFix.rspMonitor.migLog.fst.updNi
            · exact h.updNi.rspFix.rspMonitor.migLog.fst.answerDlv.answerHeld
          · exact .ite h.updNi.rspFix.rspMonitor.fst.updNi h.updNi.rspFix.rspMonitor.fst.answerDlv.answerHeld

theorem stream {n p} (h : s.SameBase t) : s.SameBase (t.stream n p) := by
  dsimp only [State.stream]
  split
  · split
    · exact h.softNote.streamDrop
    · split
      · split
        · split
          · exact (h.softNote.count.foldl (fun _ _ h => h.streamDrop)).count.streamDrop
          · split
            · exact (h.softNote.count.foldl (fun _ _ h => h.streamDrop)).streamDrop
            · split
              · exact h.softNote.count.foldl (fun _ _ h => h.streamDrop)
              · exact (h.softNote.count.foldl (fun _ _ h => h.streamDrop)).fillData.setNi.offer
        · split
          · exact (h.softNote.foldl (fun _ _ h => h.streamDrop)).count.streamDrop
          · split
            · exact (h.softNote.foldl (fun _ _ h => h.streamDrop)).streamDrop
            · split
              · exact h.softNote.foldl (fun _ _ h => h.streamDrop)
              · exact (h.softNote.foldl (fun _ _ h => h.streamDrop)).fillData.setNi.offer
      · split
        · split
          · exact (h.softNote.count.foldl (fun _ _ h => h.streamDrop)).count.streamDrop
          · split
            · exact (h.softNote.count.foldl (fun _ _ h => h.streamDrop)).streamDrop
            · split
              · exact h.softNote.count.foldl (fun _ _ h => h.streamDrop)
              · exact (h.softNote.count.foldl (fun _ _ h => h.streamDrop)).fillData.setNi.offer
        · split
          · exact (h.softNote.foldl (fun _ _ h => h.streamDrop)).count.streamDrop
          · split
            · exact (h.softNote.foldl (fun _ _ h => h.streamDrop)).streamDrop
            · split
              · exact h.softNote.foldl (fun _ _ h => h.streamDrop)
              · exact (h.softNote.foldl (fun _ _ h => h.streamDrop)).fillData.setNi.offer
  · exact h

theorem wqBeat {n b} (h : s.SameBase t) : s.SameBase (t.wqBeat n b) := by
  dsimp only [State.wqBeat]
  split
  · exact h.setNi
  · exact .ite (.ite h.setNi.wr h.setNi) (.ite h.beatData.setNi (.ite h.beatData.setNi.wr h.beatData.setNi))

theorem absorb {n sc} (h : s.SameBase t) : s.SameBase (t.absorb n sc) :=
  h.setNi.foldl (fun _ _ h => h.wqBeat)

theorem idle (h : s.SameBase t) : s.SameBase t.idle :=
  h.tick.land

end State.SameBase

end Sys2Proof.Machine
end

section
/-! SUPPORT. The rules of accesses, requests, reconciles and frames. -/

namespace Sys2Proof.Machine

namespace State.SameBase

variable {s t : State}

/-! ### What an access of the Control Matrix and a message do -/

theorem perform {m u q} (h : s.SameBase t) : s.SameBase (t.perform m u q).1 := by
  unfold State.perform
  extract_lets rel k
  split
  · exact h.fst
  · split
    · exact h.fst
    · split
      · split
        · exact h.fst
        · split
          · exact ⟨h.pending, h.rom, h.straps, fun hs => Memory.wf_store (fun i => rel + i) _ _ (h.sram hs)⟩
          · exact h.fst
      · split
        · exact h.regStore.fst
        · exact h.regRead.fst

theorem served {m u q} (h : s.SameBase t) : s.SameBase (t.served m u q).1 := by
  unfold State.served
  extract_lets tgt
  split
  · exact h.upd.fst
  · exact h.perform.closing.fst

theorem cmxDone {x} (h : s.SameBase t) : s.SameBase (t.cmxDone x) := by
  unfold State.cmxDone
  split
  · exact h
  · split
    · exact h.updCmx.flushCmx
    · split
      · exact h.perform.updCmx
      · exact h.served.updCmx.brokenNow.flushCmx

theorem direct {m q} (h : s.SameBase t) : s.SameBase (t.direct m q) := by
  unfold State.direct
  extract_lets x u
  have hu : s.SameBase u := h.cmxIn
  split
  · exact h
  · split
    · exact hu.flushCmx
    · exact .ite hu.cmxPhase.cmxDone hu.cmxPhase

theorem store {m off v} (h : s.SameBase t) : s.SameBase (t.store m off v) := h.direct

theorem acceptReq {n op q sl d g0 ts} (h : s.SameBase t) : s.SameBase (t.acceptReq n op q sl d g0 ts) := by
  unfold State.acceptReq
  extract_lets b sc js bad u whole v x orig sb js' good parts after mk skip qps rd g x₁ x₂ x₃ w w'
  have hu : s.SameBase u := .ite h.count h
  have hv : s.SameBase v := .ite hu.count hu
  have hw : s.SameBase w' := .ite hv.setNi.updNi hv.setNi.offer
  clear_value v whole
  cases whole with
  | some st => exact .ite hv.setNi.updNi.absorb hv.setNi
  | none => exact .ite hw.absorb hw

theorem request {n op q} (h : s.SameBase t) : s.SameBase (t.request n op q) := by
  unfold State.request
  extract_lets op' x v chk share key clash sbFull k sl
  split
  · split
    extract_lets g0 u
    have hu : s.SameBase u := h.setNi.softNote
    clear_value g0 key clash sbFull chk
    cases chk with
    | ok d => exact hu.acceptReq
    | error st => exact .ite hu.updNi.updNi.absorb hu.updNi
  · exact h

theorem reconcile {n src m ts mem} (h : s.SameBase t) : s.SameBase (t.reconcile n src m ts mem) := by
  unfold State.reconcile
  extract_lets k ack
  have hack : ∀ u st d disp, s.SameBase u → s.SameBase (ack u st d disp) := fun _ _ _ _ hu => hu.stageAck
  split
  · have hact := h.stageAct (n := n) (src := src) (m := m)
    split
    next heq =>
      rw [heq] at hact
      exact hack _ _ _ _ hact
    next heq =>
      rw [heq] at hact
      exact hact
  · split
    · exact hack _ _ _ _ h
    · extract_lets may
      split
      · exact hack _ _ _ _ h.dropTarget
      · split
        · exact hack _ _ _ _ h
        · split
          · exact hack _ _ _ _ h.dropTarget.memUncorr
          · exact hack _ _ _ _ h.applyHeat

theorem timeOut {k j ts v} (hv : t.timeOut k j ts = some v) (h : s.SameBase t) : s.SameBase v.1 := by
  unfold State.timeOut at hv
  split at hv
  · cases hv
  · split at hv
    · cases hv
      exact h.updLk.fst
    · split at hv
      · cases hv
        exact h.updLk.fst
      · cases hv
    · cases hv

theorem flitOut {c u} (hu : t.flitOut c = some u) (h : s.SameBase t) : s.SameBase u := by
  dsimp only [State.flitOut] at hu
  split at hu
  · cases hu
  · split at hu
    · cases hu
    · split at hu
      · cases hu
      · cases hu
        exact h.updLk.seqOut.popSrc

theorem frameSlot {k j words time} (h : s.SameBase t) : s.SameBase (t.frameSlot k j words time) := by
  unfold State.frameSlot
  extract_lets c u l room
  have hu : s.SameBase u := .ite h.relayUp h
  split
  · split
    · exact hu.updLk.frameOut
    · split
      · exact hu.updLk.seqOut
      · split
        next heq =>
          obtain ⟨ts, -, hts⟩ := Option.bind_eq_some_iff.mp heq
          exact (hu.timeOut hts).frameOut
        · split
          next heq =>
            split at heq
            · exact hu.flitOut heq
            · cases heq
          · exact hu.frameOut
  · exact .ite h.frameOut h

end State.SameBase

end Sys2Proof.Machine
end

section
/-! SUPPORT. Outcomes that are a next state with the same base. -/

namespace Sys2Proof.Machine

/-- An outcome that is a next state with the base of `s`. -/
def Answers (s : State) (o : Host.Outcome State Fault Refusal) : Prop := ∃ t, o = .next t ∧ s.SameBase t

namespace Answers

variable {s t : State}

theorem next (h : s.SameBase t) : Answers s (.next t) := ⟨t, rfl, h⟩

theorem guardUnit {b : Bool} (h : s.SameBase t) : Answers s (Machine.guardUnit s b t) := next (.ite h (.refl s))

theorem ite {c : Prop} [Decidable c] {a b : Host.Outcome State Fault Refusal} (ha : Answers s a) (hb : Answers s b) :
    Answers s (if c then a else b) := by
  split
  · exact ha
  · exact hb

end Answers
end Sys2Proof.Machine
end

section
/-! SUPPORT. What each command answers. -/

namespace Sys2Proof.Machine

namespace State.SameBase

variable {s t : State}

theorem takeMsg {n f v} (hv : t.takeMsg n f = some v) (h : s.SameBase t) : s.SameBase v.2.2 := by
  unfold State.takeMsg at hv
  extract_lets x at hv
  split at hv
  · cases hv
  · split at hv
    · cases hv
    · cases hv
      exact h.setNi.dropPk (n := n)

end State.SameBase

section

variable {s : State}

open State (SameBase)

theorem execEpEventTake_answers {n} (h : s.SameBase s) : Answers s (execEpEventTake n s) := by
  dsimp only [execEpEventTake]
  refine .guardUnit ?_
  split
  · exact h
  · exact h.setNi.notice

theorem execSc0Release_answers {n ts} (h : s.SameBase s) : Answers s (execSc0Release n ts s) := by
  dsimp only [execSc0Release]
  refine .guardUnit ?_
  split
  · exact h
  · exact .ite h.sc0Leave h

theorem execSc0Skew_answers {n ts} (h : s.SameBase s) : Answers s (execSc0Skew n ts s) := by
  dsimp only [execSc0Skew]
  refine .guardUnit ?_
  split
  · exact h
  · split
    · exact h.sc0Late
    · exact h

theorem execRouterFlitArrival_answers {plane r p e} (h : s.SameBase s) : Answers s (execRouterFlitArrival plane r p e s) := by
  dsimp only [execRouterFlitArrival]
  refine .guardUnit ?_
  split
  · exact h
  · exact .ite h.updPort h.updPort.routerFlit

theorem execCreditVectorArrival_answers {o flip} (h : s.SameBase s) : Answers s (execCreditVectorArrival o flip s) := by
  dsimp only [execCreditVectorArrival]
  refine .guardUnit ?_
  split
  · exact h.updPort.creditVec
  · exact h.updPort.stCredit
  · exact h

theorem execNiFlitArrival_answers {plane n e ts} (h : s.SameBase s) : Answers s (execNiFlitArrival plane n e ts s) := by
  dsimp only [execNiFlitArrival]
  refine .guardUnit ?_
  split
  · exact h
  · exact .ite h.updPort h.updPort.flitAt.settleAll

theorem execEgressSegmentStart_answers {n half rdy ts} (h : s.SameBase s) : Answers s
    (execEgressSegmentStart n half rdy ts s) := by
  dsimp only [execEgressSegmentStart]
  refine .guardUnit ?_
  split
  · exact h
  · refine SameBase.settleAll ?_
    split
    · exact h.segWqe
    · exact h.segRpe
    · exact h.segSte

theorem execTwinTmo_answers {n ctx seq} (h : s.SameBase s) : Answers s (execTwinTmo n ctx seq s) := by
  dsimp only [execTwinTmo]
  refine .guardUnit ?_
  split
  · exact h
  · exact .ite h.setNi.count.alert.planeFault h.setNi.count.alert

theorem execRouteSet_answers {x} (h : s.SameBase s) : Answers s (execRouteSet x s) := by
  dsimp only [execRouteSet]
  refine .next ?_
  split
  · exact h
  · exact .ite h (h.runCmd (fun _ _ h => h.routeSet))

theorem execRouteCheck_answers {x} (h : s.SameBase s) : Answers s (execRouteCheck x s) := by
  dsimp only [execRouteCheck]
  refine .next ?_
  split
  · exact h
  · exact .ite h (h.runCmd (fun _ _ h => h.routeRecheck))

theorem execGateListStart_answers {n ts} (h : s.SameBase s) : Answers s (execGateListStart n ts s) := by
  dsimp only [execGateListStart]
  refine .guardUnit ?_
  split
  · exact h
  · exact .ite h.gateBegin.gateShow h

theorem execMarkerPulse_answers {k} (h : s.SameBase s) : Answers s (execMarkerPulse k s) := by
  dsimp only [execMarkerPulse]
  refine .guardUnit ?_
  split
  · exact h
  · exact .ite h (.ite h.updTime.pulse h.updTime)

theorem execPpsMiss_answers (h : s.SameBase s) : Answers s (execPpsMiss s) := by
  dsimp only [execPpsMiss]
  refine .next ?_
  split
  · exact h
  · exact .ite h (.ite h.adopt h.adopt.wr.updTime.missed.refreshTime)

theorem execPfPinTrigger_answers {slot} (h : s.SameBase s) : Answers s (execPfPinTrigger slot s) := by
  dsimp only [execPfPinTrigger]
  refine .guardUnit ?_
  split
  · exact h
  · exact .ite h h.updTime.setPf.pfShow.pfGo

theorem execEvdWriteResult_answers (h : s.SameBase s) : Answers s (execEvdWriteResult s) := by
  dsimp only [execEvdWriteResult]
  refine .next ?_
  split
  · exact h
  · split
    · exact h
    · split
      · exact .ite h.updNi.upd.wr.evPump.evStopped h.updNi.upd.wr.evPump
      · split
        · exact .ite h.updNi.upd.evShow.evStopped h.updNi.upd.evShow
        · exact .ite h.updNi.upd.wr.glEvent.evShow.evStopped h.updNi.upd.wr.glEvent.evShow

theorem execHeatStage_answers {x} (h : s.SameBase s) : Answers s (execHeatStage x s) := by
  dsimp only [execHeatStage]
  refine .next ?_
  split
  · exact h
  · exact .ite h (h.runCmd (fun _ _ h => h.heatStage))

theorem execHeatAbort_answers {x} (h : s.SameBase s) : Answers s (execHeatAbort x s) := by
  dsimp only [execHeatAbort]
  refine .next (h.runCmd fun _ _ h => ?_)
  split
  · exact h.reply
  · exact .ite h.reply h.heatAbort.reply

theorem execHeatStatus_answers {x} (h : s.SameBase s) : Answers s (execHeatStatus x s) := by
  dsimp only [execHeatStatus]
  refine .next (h.runCmd fun _ _ h => ?_)
  split
  · exact h.reply
  · exact h.reply

theorem execHeatClose_answers {x} (h : s.SameBase s) : Answers s (execHeatClose x s) := by
  dsimp only [execHeatClose]
  refine .next (h.runCmd fun _ _ h => ?_)
  split
  · exact h.reply
  · exact .ite h.reply h.heatGo.setHeat.reply

theorem execHeatStragglers_answers {x} (h : s.SameBase s) : Answers s (execHeatStragglers x s) := by
  dsimp only [execHeatStragglers]
  refine .next (h.runCmd fun _ _ h => ?_)
  split
  · exact h.reply
  · exact h.reply

theorem execStageReceive_answers {n} (h : s.SameBase s) : Answers s (execStageReceive n s) := by
  dsimp only [execStageReceive]
  refine .guardUnit ?_
  split
  · exact h
  next hd l u hu =>
    have hact := (h.takeMsg hu).stageAct (n := n) (src := hd.src) (m := stageMsg l)
    split
    next heq =>
      rw [heq] at hact
      exact hact.stageAck
    next heq =>
      rw [heq] at hact
      exact hact

theorem execStageAckReceive_answers {n mem} (h : s.SameBase s) : Answers s (execStageAckReceive n mem s) := by
  dsimp only [execStageAckReceive]
  refine .guardUnit ?_
  split
  · exact h
  next hu => exact .ite (h.takeMsg hu).stageAckIn (h.takeMsg hu).pktBad

theorem execStageAckTmo_answers {slot aseq} (h : s.SameBase s) : Answers s (execStageAckTmo slot aseq s) := by
  dsimp only [execStageAckTmo]
  refine .guardUnit ?_
  split
  · exact h
  · exact h.heatAbort

theorem execPrepareReceive_answers {n hid inst mem} (h : s.SameBase s) : Answers s (execPrepareReceive n hid inst mem s) := by
  dsimp only [execPrepareReceive]
  refine .guardUnit ?_
  split
  · exact h
  · exact .ite h ((SameBase.ite h.memUncorr h).updNi)

theorem execCommitReceive_answers {n hid inst tt ts} (h : s.SameBase s) : Answers s (execCommitReceive n hid inst tt ts s) := by
  dsimp only [execCommitReceive]
  refine .guardUnit ?_
  split
  · exact h
  · exact .ite h h.updNi

theorem execArmReceive_answers {n hid inst per ts} (h : s.SameBase s) : Answers s (execArmReceive n hid inst per ts s) := by
  dsimp only [execArmReceive]
  refine .guardUnit ?_
  split
  · exact h
  · exact .ite h h.updNi

theorem execHeatApply_answers {n hid inst ts mem} (h : s.SameBase s) : Answers s (execHeatApply n hid inst ts mem s) := by
  dsimp only [execHeatApply]
  refine .guardUnit ?_
  split
  · exact h
  · exact .ite h (.ite h.updNi.memUncorr h.applyHeat)

theorem execHeatMiss_answers {n hid inst ts} (h : s.SameBase s) : Answers s (execHeatMiss n hid inst ts s) := by
  dsimp only [execHeatMiss]
  refine .guardUnit ?_
  split
  · exact h
  · exact .ite h h.updNi.count.alert

theorem execAbortReceive_answers {n hid inst} (h : s.SameBase s) : Answers s (execAbortReceive n hid inst s) := by
  dsimp only [execAbortReceive]
  refine .guardUnit ?_
  split
  · exact h
  · exact .ite h h.dropTarget

theorem execRelayFault_answers {slot} (h : s.SameBase s) : Answers s (execRelayFault slot s) := by
  dsimp only [execRelayFault]
  refine .guardUnit ?_
  split
  · exact h
  · exact .ite h (.ite h.heatAbort h.settled)

theorem execReconcileReceive_answers {n ts mem} (h : s.SameBase s) : Answers s (execReconcileReceive n ts mem s) := by
  dsimp only [execReconcileReceive]
  refine .guardUnit ?_
  split
  · exact h
  next hu => exact (h.takeMsg hu).reconcile

theorem execPlaneFailover_answers (h : s.SameBase s) : Answers s (execPlaneFailover s) := by
  dsimp only [execPlaneFailover]
  refine .next ?_
  split
  · exact h
  · exact .ite h.upd.plnGo.plnCause.count.glEvent h.upd

theorem execPlaneJoin_answers {p n ts} (h : s.SameBase s) : Answers s (execPlaneJoin p n ts s) := by
  dsimp only [execPlaneJoin]
  split
  · exact .guardUnit (.ite h.updNi.wr h)
  · exact .guardUnit (.ite h.plnGo.updPln.replyOpt h)

theorem execMigSyncCollect_answers (h : s.SameBase s) : Answers s (execMigSyncCollect s) := by
  dsimp only [execMigSyncCollect]
  refine .next ?_
  split
  · exact h
  · exact .ite h.upd.reply (.ite h.upd.reply h.upd)

theorem execPairLowWrite_answers {m q} (h : s.SameBase s) : Answers s (execPairLowWrite m q s) := by
  dsimp only [execPairLowWrite]
  refine .next ?_
  split
  · exact h
  · exact .ite h.direct h

theorem execClaimRelease_answers {x} (h : s.SameBase s) : Answers s (execClaimRelease x s) := by
  dsimp only [execClaimRelease]
  refine .next (h.runCmd fun _ _ h => ?_)
  split
  · exact h.reply
  · split
    · exact h.reply
    · refine SameBase.reply ?_
      split
      · exact h.markEn
      · exact h.trcStop
      · exact h.histEn
      · exact h.reorder
      · exact h.migStage
      · exact h

theorem execRsvSc0_answers {x} (h : s.SameBase s) : Answers s (execRsvSc0 x s) := by
  dsimp only [execRsvSc0]
  refine .next ?_
  split
  · exact h
  · exact .ite h (h.runCmd (fun _ _ h => h.rsvSc0))

theorem execRsvSc0Free_answers {x} (h : s.SameBase s) : Answers s (execRsvSc0Free x s) := by
  dsimp only [execRsvSc0Free]
  refine .next ?_
  split
  · exact h
  · exact .ite h (h.runCmd (fun _ _ h => h.rsvSc0Free))

theorem execFarEndReset_answers {o} (h : s.SameBase s) : Answers s (execFarEndReset o s) := by
  dsimp only [execFarEndReset]
  refine .guardUnit ?_
  split
  · exact h
  · exact .ite h.completeIn h

theorem execTrainStateDone_answers {k j classes rev rtt} (h : s.SameBase s) : Answers s
    (execTrainStateDone k j classes rev rtt s) := by
  dsimp only [execTrainStateDone]
  refine .guardUnit ?_
  split
  · exact h
  · split
    · exact h.detect.setLst
    · exact h.setLst
    · exact h.updLk.setLst
    · exact h.config
    · exact h.config
    · exact h

theorem execSpanForward_answers {k src vc e} (h : s.SameBase s) : Answers s (execSpanForward k src vc e s) := by
  dsimp only [execSpanForward]
  refine .guardUnit ?_
  split
  · split
    · exact h
    · exact .ite h.updPort h.updPort.spanFlit
  · exact h.fromLink

theorem execSpanStall_answers {k j vc xb} (h : s.SameBase s) : Answers s (execSpanStall k j vc xb s) := by
  dsimp only [execSpanStall]
  refine .guardUnit ?_
  split
  · exact h
  · exact .ite h ((SameBase.ite h.xbDrop h.stallRx).count.spanEvent)

theorem execCauseSet_answers {k j i} (h : s.SameBase s) : Answers s (execCauseSet k j i s) := by
  dsimp only [execCauseSet]
  refine .next ?_
  split
  · exact .ite h.raise.causeMore h
  · exact h

theorem execPfArmLeaveTmo_answers {slot} (h : s.SameBase s) : Answers s (execPfArmLeaveTmo slot s) := by
  dsimp only [execPfArmLeaveTmo]
  refine .guardUnit ?_
  split
  · exact h
  · exact .ite h h.pfIdle.reply


end

open State (SameBase) in
/-- Every command answers a next state with the base of the state that it found. -/
theorem exec_answers (c : Instr) (s : State) : Answers s (exec c s) := by
  have h := State.SameBase.refl s
  cases c with
  | opRead => exact .guardUnit h.request
  | opWrite => exact .guardUnit h.request
  | opReservedLoad => exact .guardUnit h.request
  | opCondStore => exact .guardUnit h.request
  | opAtomicSwap => exact .guardUnit h.request
  | opAtomicAdd => exact .guardUnit h.request
  | opAtomicCas => exact .guardUnit h.request
  | opBarrierOrder => exact .guardUnit h.barrier
  | opBarrierComplete => exact .guardUnit h.barrier
  | opHandleAlloc => exact .guardUnit h.request
  | opHandleFree => exact .guardUnit h.request
  | opCommand => exact .guardUnit h.request
  | wqiData => exact .guardUnit (.ite h.wqBeat h)
  | stiPacket => exact .guardUnit h.stream
  | packetAdmit => exact .guardUnit h.admitPk
  | rpiResponse => exact .guardUnit (.ite h.rpi h)
  | sbiEvt => exact .guardUnit (.ite h (.ite h.setNi h.count))
  | epEventTake => exact execEpEventTake_answers h
  | epRstAssert => exact .guardUnit (.ite h ((h.resetDlvs.resetEgress.updNi.forAll (fun _ _ h => h.updNi)).wr.alert))
  | epRstDeassert => exact .guardUnit h.updNi
  | niUpRise => exact .guardUnit (.ite h.updNi h)
  | ctoExpire => exact .guardUnit h.ctoExpire
  | barrierDone => exact .guardUnit h.barrierDone
  | stallLimitExpire => exact .guardUnit h.stall
  | rspArrival => exact .guardUnit h.rspArrival
  | sbEnClear => exact .guardUnit h.store
  | sbLogClr => exact .guardUnit h.store
  | packetRelease => exact .guardUnit (.ite h h.release)
  | sc0Release => exact execSc0Release_answers h
  | sc0Skew => exact execSc0Skew_answers h
  | routerFlitArrival => exact execRouterFlitArrival_answers h
  | arbPhase => exact .guardUnit (.ite h.phase h)
  | grantOverrun => exact .guardUnit (.ite h.overrun h)
  | creditVectorArrival => exact execCreditVectorArrival_answers h
  | creditLoad => exact .guardUnit h.creditLoad.plnUp
  | xingFlit => exact .guardUnit h.stPass
  | xingIsolate => exact .guardUnit h.isolate
  | xingFlush => exact .guardUnit (.ite h.stDiscard h)
  | isolateReceive => exact .guardUnit h.isoReceive
  | niFlitArrival => exact execNiFlitArrival_answers h
  | targetDelivery => exact .guardUnit (.ite h.deliver.settleAll h)
  | egressSegmentStart => exact execEgressSegmentStart_answers h
  | twinTmo => exact execTwinTmo_answers h
  | gapTmo => exact .guardUnit (.ite h h.flushCtx.count.notice)
  | routeSet => exact execRouteSet_answers h
  | routeCheck => exact execRouteCheck_answers h
  | rtabRawWrite => exact .guardUnit h.direct
  | floorRecompute => exact .next h.floors
  | sc0RsvWrite => exact .guardUnit h.store
  | histEnWrite => exact .guardUnit h.store
  | histWindowEnd => exact .guardUnit (.ite h ((h.forAll (fun _ _ h => h.wr.wr)).setNi))
  | latMaxClr => exact .guardUnit h.store
  | qShareWrite => exact .guardUnit h.store
  | sampClr => exact .guardUnit h.store
  | queueSample => exact .guardUnit h.queueSample
  | shaperRefill => exact .guardUnit (h.forAll (fun _ _ h => h.refill))
  | shaperWrite => exact .guardUnit h.store
  | allowanceWindow => exact .guardUnit ((SameBase.ite h.count h).wr.wr.updNi)
  | gateUpdate => exact .guardUnit ((SameBase.ite h.memUncorr h).updNi.gateShow)
  | gateSwap => exact .guardUnit h.store
  | gateCancel => exact .guardUnit h.store
  | gateListStart => exact execGateListStart_answers h
  | markEnWrite => exact .guardUnit h.store
  | markerAnnounce => exact .guardUnit h.announce
  | markerPulse => exact execMarkerPulse_answers h
  | timeMarker => exact .next (.ite h.marker h)
  | markerArrival => exact .guardUnit h.markerAt
  | calRunDone => exact .guardUnit h.calRun
  | calPeriod => exact .next (.ite h h.startRuns.updTime.refreshTime)
  | hopFreeze => exact .guardUnit h.hopFreeze
  | timeStepApply => exact .next (.ite h.stepRun h)
  | stepWindowEnd => exact .next (.ite h h.updTime.refreshTime)
  | ppsInEdge => exact .next h.ppsEdge
  | ppsMiss => exact execPpsMiss_answers h
  | tsetLoad => exact .next (.ite h.wr h.updTime)
  | spanTimeExchange => exact .guardUnit (.ite h h.updLk.updTime)
  | spanTimeSample => exact .guardUnit (.ite h (.ite h.updTime (.ite (.ite ((SameBase.ite h.updTime.adopt
    h.updTime).missed.refreshTime) (.ite h.updTime.adopt h.updTime)) (.ite ((SameBase.ite h.updTime.adopt
    h.updTime).wr.sample.refreshTime) ((SameBase.ite h.updTime.adopt h.updTime).wr)))))
  | holdoverExpire => exact .next (.ite h.timeGo.refreshTime h)
  | carrierCheck => exact .next (.ite (.ite h.wr h) (.ite h.stopNodes.wr.wr.updTime.glEvent.refreshTime h))
  | carrierReturn => exact .next (.ite h h.stopNodes.wr.updTime.timeGo.startRuns.refreshTime)
  | timeSet => exact .next (h.runCmd (fun _ _ h => .ite h.reply (.ite h.reply (.ite h.reply (.ite h.updTime.reply
    h.decideStep.refreshTime)))))
  | timeAdjust => exact .next (h.runCmd (fun _ _ h => .ite h.reply (.ite h.reply (.ite h.reply (.ite h.decideStep.refreshTime
    h.wr.updTime.reply.refreshTime)))))
  | timeCal => exact .next (h.runCmd (fun _ _ h => .ite h.reply h.startRuns.updTime.calReply.refreshTime))
  | timeStatus => exact .next (h.runCmd (fun _ _ h => h.reply))
  | slewEnd => exact .next (.ite h.updTime.setAdj.refreshTime h)
  | nowCap => exact .next h.store
  | skewClr => exact .next h.store
  | elockSet => exact .next h.store
  | syncEnWrite => exact .guardUnit h.store
  | syncPulse => exact .guardUnit (.ite h.pulse h)
  | ppsOutPulse => exact .next (.ite h.updTime h)
  | timeEvtEdge => exact .guardUnit (.ite h.updTime h)
  | pfArm => exact .next (h.runCmd (fun _ _ h => h.pfArm))
  | pfStatus => exact .next (h.runCmd (fun _ _ h => h.reply))
  | pfRelease => exact .next (h.runCmd (fun _ _ h => .ite h.reply h.pfIdle.reply))
  | pfCancel => exact .next (h.runCmd (fun _ _ h => .ite h.pfCancel.reply h.reply))
  | pfPinTrigger => exact execPfPinTrigger_answers h
  | pfArmReceive => exact .guardUnit (.ite h (.ite h.setBank (.ite h.setBank h.setPf)))
  | pfCapture => exact .guardUnit (.ite h (.ite h.setBank (h.setWord64.setBank.foldl (fun _ _ h => h.setWord))))
  | pfCollect => exact .guardUnit h.pfCollect
  | evStart => exact .next (h.runCmd (fun _ _ h => .ite h.reply (.ite h.reply ((SameBase.ite h.wr.wr.evShow.evPump
    h.wr.wr.evShow.emitRec).reply))))
  | evStop => exact .next (h.runCmd (fun _ _ h => .ite h.reply (.ite h.emitRec.upd h.emitRec.upd.evStopped)))
  | evMark => exact .next (h.runCmd (fun _ _ h => .ite h.reply h.emitRec.reply))
  | evStatus => exact .next (h.runCmd (fun _ _ h => h.reply))
  | evdBoundary => exact .next (.ite h h.emitRec)
  | evdWriteResult => exact execEvdWriteResult_answers h
  | evdRetry => exact .next (.ite h.evSend.evShow h)
  | heatOpen => exact .next (h.runCmd (fun _ _ h => h.heatOpen))
  | heatStage => exact execHeatStage_answers h
  | heatCommit => exact .next (h.runCmd (fun _ _ h => h.heatCommit))
  | heatAbort => exact execHeatAbort_answers h
  | heatStatus => exact execHeatStatus_answers h
  | heatClose => exact execHeatClose_answers h
  | heatReconcile => exact .next (.ite (h.runCmd (fun _ _ h => h.heatReconcile)) h)
  | heatReconcileDrop => exact .next (.ite (h.runCmd (fun _ _ h => h.heatReconcile)) h)
  | heatStragglers => exact execHeatStragglers_answers h
  | stageReceive => exact execStageReceive_answers h
  | stageAckReceive => exact execStageAckReceive_answers h
  | stageAckTmo => exact execStageAckTmo_answers h
  | heatScheduledStart => exact .guardUnit (.ite h.heatVote h)
  | prepareReceive => exact execPrepareReceive_answers h
  | voteCollectDone => exact .guardUnit (.ite h (.ite h.relayEnd.heatGo.ask.heatPump h.relayEnd.heatShort))
  | heatCommitSend => exact .guardUnit h.commitSend
  | commitReceive => exact execCommitReceive_answers h
  | commitCollectDone => exact .guardUnit (.ite h (.ite (.ite h.relayEnd.heatAbort
    h.relayEnd.heatGo.setHeat.joinedOut.upd.wr.wr.replyOpt.heatPump) h.relayEnd.heatShort))
  | armReceive => exact execArmReceive_answers h
  | heatApply => exact execHeatApply_answers h
  | heatMiss => exact execHeatMiss_answers h
  | abortReceive => exact execAbortReceive_answers h
  | heatSettle => exact .guardUnit h.settle'
  | heatDeadline => exact .guardUnit (.ite h.heatAbort h)
  | leaveTmo => exact .guardUnit (.ite h.heatAbort h)
  | relayFault => exact execRelayFault_answers h
  | reconcileStart => exact .guardUnit (.ite h.reconStart h)
  | reconcileReceive => exact execReconcileReceive_answers h
  | heatCrcRecommit => exact .next (.ite h.ask h)
  | planeDetach => exact .next (h.runCmd (fun _ _ h => .ite h.reply (.ite h.reply (.ite h.plnCause.updPln.plnDetached
    h.plnCause.updPln.plnGo))))
  | planeTest => exact .next (h.runCmd (fun _ _ h => .ite h.reply h.updPln.ask))
  | planeAttach => exact .next (h.runCmd (fun _ _ h => .ite h.reply (.ite h.reply (.ite h.reply h.setWord64.plnGo.updPln))))
  | planeReset => exact .next (h.runCmd (fun _ _ h => .ite h.reply h.planeReset.plnGo.updPln.plnUp))
  | planeStatus => exact .next (h.runCmd (fun _ _ h => h.reply))
  | planeDrainCheck => exact .guardUnit (.ite h.plnDetached h)
  | planeDrainTmo => exact .guardUnit (.ite h.planeReset.plnCause.plnDetached h)
  | planeFailover => exact execPlaneFailover_answers h
  | planeStateReceive => exact .guardUnit h.plnFollow.plnFollow.wr.moveStaged
  | planeTestEnd => exact .guardUnit h.testEnd
  | planeJoin => exact execPlaneJoin_answers h
  | reorderWrite => exact .guardUnit h.store
  | sliceMap => exact .next (h.runCmd (fun _ _ h => .ite h.reply h.updNi.reply))
  | sliceShare => exact .next (h.runCmd (fun _ _ h => .ite h.reply h.setWord.setWord.reply))
  | sliceReset => exact .next (h.runCmd (fun _ _ h => .ite h.reply (.ite h.reply ((h.forAll (fun _ _ h =>
    h.updNi)).slcGo.wr.count.updSlc))))
  | sliceOpen => exact .next (h.runCmd (fun _ _ h => .ite h.reply (.ite h.reply ((h.forAll (fun _ _ h =>
    h.updNi.slcMsg)).slcGo.reply))))
  | sliceStatus => exact .next (h.runCmd (fun _ _ h => h.reply))
  | sliceMigSync => exact .next (h.runCmd (fun _ _ h => .ite h.reply h.upd))
  | sliceCloseReceive => exact .guardUnit (.ite h h.sliceClose)
  | sliceCollect => exact .guardUnit h.sliceCollect
  | sliceDrainTmo => exact .guardUnit (.ite h.slcGo h)
  | sliceSquashReceive => exact .guardUnit (.ite h h.sliceSquash)
  | sliceQuiesceTmo => exact .guardUnit (.ite h h.slcGo.updSlc.wr.wr.wr.glEvent.replyOpt)
  | migSyncCollect => exact execMigSyncCollect_answers h
  | migSwap => exact .guardUnit h.store
  | migStage => exact .guardUnit h.store
  | migHold => exact .guardUnit h.store
  | hcRequest => exact .next h.hcTake
  | hcRstAssert => exact .next h.ownerReset.updCmx.flushCmx
  | cmxArbPhase => exact .next h.cmxPhase
  | cmxAccess => exact .next h.cmxDone
  | registerWrite => exact .next h.direct
  | pairLowWrite => exact execPairLowWrite_answers h
  | pairStageTmo => exact .next h.setStage
  | cmxTimeout => exact .next h.cmxTimeout
  | lockMaxExpire => exact .next h.breakWhenDone
  | mgmtReceive => exact .guardUnit h.mgmtTake
  | mgmtResponse => exact .guardUnit h.mgmtEnd
  | remapWrite => exact .next h.store
  | bootSelfcheck => exact .next h.selfcheck
  | loadStart => exact .next h.store
  | loadData => exact .next h.store
  | loadGo => exact .next h.store
  | bootVerifyDone => exact .next h.verify
  | wdogExpire => exact .next (.ite h h.glEvent.coreReset)
  | wdogKick => exact .next h.store
  | starterCoreReset => exact .next h.coreReset
  | mbxDoorbell => exact .guardUnit h.store
  | mspBlockWriteLow => exact .next h.mspWrite
  | mspBlockWriteHigh => exact .next h.mspWrite
  | mspDoorbell => exact .next (.ite h.mspOut h.doorbell.mspOut)
  | mspStatusRead => exact .next (.ite h.mspOut h.wr.mspData)
  | mspReplyReadLow => exact .next h.mspRead
  | mspReplyReadHigh => exact .next h.mspRead
  | mspAddressMatch => exact .next (.ite h ((SameBase.ite h.wakeInst h).updStarter))
  | mspStretchLimit => exact .next (.ite h.updStarter.mspOut h)
  | cmdPacketReceive => exact .guardUnit h.cmdReceive
  | cmdStart => exact .next h.cmdStart
  | cmdTimeout => exact .next h.cmdTimeout
  | cmdReplyReceive => exact .guardUnit h.replyReceive
  | ping => exact .next (h.runCmd (fun _ _ h => h.reply))
  | info => exact .next (h.runCmd (fun _ _ h => h.reply))
  | claimStatus => exact .next (h.runCmd (fun _ _ h => .ite h.reply h.reply))
  | claimRelease => exact execClaimRelease_answers h
  | cfgRecompute => exact .next (h.runCmd (fun _ _ h => h.ask))
  | authSet => exact .next (h.runCmd (fun _ _ h => h.wr.wr.reply))
  | rsvSc0 => exact execRsvSc0_answers h
  | rsvSc0Free => exact execRsvSc0Free_answers h
  | rsvSc1 => exact .next (h.runCmd (fun _ _ h => .ite h.reply (.ite h.reply h.wr.wr.wr.updNi.reply)))
  | rsvSc1Free => exact .next (h.runCmd (fun _ _ h => .ite h.reply h.wr.updNi.reply))
  | pwrState => exact .next (h.runCmd (fun _ _ h => h.pwrState))
  | pwrDvfs => exact .next (h.runCmd (fun _ _ h => .ite h.reply ((SameBase.ite h.wr h).updRg.rgGo.freezeNext)))
  | pwrStatus => exact .next (h.runCmd (fun _ _ h => h.reply))
  | pwrBudget => exact .next (h.runCmd (fun _ _ h => .ite h.reply h.wr.wr.reply))
  | pwrPolicy => exact .next (h.runCmd (fun _ _ h => .ite h.reply h.wr.reply))
  | pwrWake => exact .next (h.runCmd (fun _ _ h => h.wr.wr.wr.wr.wr.reply))
  | pwrMaskReceive => exact .guardUnit h.pwrMask
  | closingCollect => exact .guardUnit h.collect
  | entryLimit => exact .guardUnit h.entryLimit
  | entryCommit => exact .guardUnit h.entryCommit
  | wakeNLow => exact .next (.ite h.sampled.wakeInst h)
  | relayWakeRequest => exact .guardUnit h.relayWake
  | ppsWakeCount => exact .next (.ite h.wakeInst h)
  | pwrHoldTmo => exact .guardUnit h.holdTmo
  | wakeDone => exact .guardUnit h.wakeDone
  | idleGate => exact .guardUnit (.ite h.updRg h)
  | idleUngate => exact .guardUnit (.ite h.ungate h)
  | fcAck => exact .guardUnit h.fcAck
  | vrOk => exact .guardUnit h.vrOk
  | supplyTmo => exact .guardUnit h.supplyTmo
  | governorWindow => exact .next h.window
  | leaveRequest => exact .next (.ite h.upd h)
  | leaveGrant => exact .next h.leaveGrant
  | leaveReturn => exact .next (.ite h.upd h)
  | droopWarn => exact .guardUnit h.droopWarn
  | droopWarnClear => exact .guardUnit h.droopClear
  | droopReset => exact .guardUnit h.droopReset
  | clockFault => exact .guardUnit h.clockFault
  | por => exact .next h.por
  | hrst => exact .next h.hrst
  | rstCtlRegion => exact .next h.store
  | rstNiGo => exact .next h.store
  | resetRelease => exact .guardUnit (.ite h.niRelease h.rgRelease)
  | farEndReset => exact execFarEndReset_answers h
  | regionRecovery => exact .guardUnit h.recover
  | startupStepDone => exact .next (.ite h h.startStep)
  | fuseRead => exact .next h.fuses
  | fuseTmo => exact .next h.fuses
  | spanTrain => exact .next (h.runCmd (fun _ _ h => .ite h.reply (.ite h.reply (.ite h.reply h.lw.updLk.askTrain))))
  | spanDown => exact .next (h.runCmd (fun _ _ h => .ite h.reply h.trainReply.updLk.give.linkDown.reply))
  | spanSplit => exact .next (h.runCmd (fun _ _ h => .ite h.reply (.ite h.reply h.wr.reply)))
  | spanStatus => exact .next (h.runCmd (fun _ _ h => .ite h.reply h.reply))
  | trainStateDone => exact execTrainStateDone_answers h
  | trainStateTmo => exact .guardUnit (.ite h.trainFail h)
  | spanDownRetry => exact .guardUnit (.ite h.askTrain h)
  | spanFrameReceive => exact .guardUnit (.ite h (.ite h.lw.updLk (.ite ((SameBase.ite h.frameIn h).updLk) (.ite h.frameIn h))))
  | spanFrameSend => exact .guardUnit h.frameSlot
  | replayTmo => exact .guardUnit (.ite h.replay h)
  | laneLoss => exact .guardUnit (.ite ((SameBase.ite h.setClass.lw h).forced) (.ite h.setClass.lw h))
  | laneRestore => exact .guardUnit (.ite h.updLk.askTrain h)
  | fecWindow => exact .guardUnit (.ite h (.ite ((SameBase.ite h.lw.lw (h.lw.lw.spanEvent.forAll (fun _ _ h => .ite
    h.setClass h))).askTrain) (.ite h.lw.lw (h.lw.lw.spanEvent.forAll (fun _ _ h => .ite h.setClass h)))))
  | linkDownEntry => exact .guardUnit (.ite h.linkDown.updLk.give h)
  | spanForward => exact execSpanForward_answers h
  | spanStall => exact execSpanStall_answers h
  | causeSet => exact execCauseSet_answers h
  | firstLogClr => exact .next h.store
  | nextLogClr => exact .next h.store
  | crcPassStart => exact .next h.wr
  | crcPassEnd => exact .next (.ite h.passEnd.scanOpen h)
  | crcCommitTake => exact .next h.store
  | crcCommitGiven => exact .next h.store
  | tapIdcode => exact .next h.tapOut
  | tapBypass => exact .next h.tapOut
  | dbgAcc => exact .next h.dbgAcc
  | traceRd => exact .next (.ite h.tapOut h.tapOut.upd)
  | tapReset => exact .next h.upd.ownerReset
  | trcEnWrite => exact .next h.store
  | trcStartEvent => exact .next h.trcEvent
  | testModeWrite => exact .next h.store
  | strRstWrite => exact .next h.store
  | bistDone => exact .next (.ite h h.wr.wr.wr)
  | dbgStatus => exact .next (h.dbgCmd (fun _ _ h => h.reply))
  | trcStart => exact .next (h.dbgCmd (fun _ _ h => .ite h.reply h.trcArm.reply))
  | trcStop => exact .next (h.dbgCmd (fun _ _ h => h.trcStop.reply))
  | testEnter => exact .next (h.dbgCmd (fun _ _ h => .ite h.reply (.ite h.reply h.testEnter.reply)))
  | testExit => exact .next (h.dbgCmd (fun _ _ h => .ite h.reply h.testMode.reply))
  | hcRstDeassert => exact .next h.updCmx
  | porHrstDeassert => exact .next (.ite h h.updPacer.wr.updStarter)
  | pfArmLeaveTmo => exact execPfArmLeaveTmo_answers h

end Sys2Proof.Machine
end

section
/-! SUPPORT. What every step keeps. -/

namespace Sys2Proof.Machine

/-- A step answers a state with the base of the one that it finds behind the front command. -/
theorem step_answers (s : State) :
    ∃ t, step s = .next t ∧ ({ s with pending := s.pending.tail } : State).SameBase t := by
  unfold step
  split
  next h =>
    have hidle := (State.SameBase.refl s).idle
    exact ⟨s.idle, rfl, by rw [hidle.pending, h, List.tail_nil], hidle.rom, hidle.straps, hidle.sram⟩
  next c r h =>
    obtain ⟨t, ht, hbase⟩ := exec_answers c { s with pending := r }
    exact ⟨t, ht, by rwa [h, List.tail_cons]⟩

/-- Settles O58, from the rules of the operations. -/
theorem everyCommandAnswersANextState : Obligations.EveryCommandAnswersANextState := by
  unfold Obligations.EveryCommandAnswersANextState
  intro c s
  obtain ⟨t, ht, -⟩ := exec_answers c s
  exact ⟨t, ht⟩

/-- Settles O59: no operation changes the queue behind the command, the ROM or the straps. -/
theorem stepKeepsQueueRomAndStraps : Obligations.StepKeepsQueueRomAndStraps := by
  unfold Obligations.StepKeepsQueueRomAndStraps
  intro s
  obtain ⟨t, ht, hbase⟩ := step_answers s
  exact ⟨t, ht, hbase.pending, hbase.rom, hbase.straps⟩

/-- Settles O60: the load port and the Control Matrix store bytes by `mset`, and POR_N and HRST_N clear the memory. -/
theorem stepKeepsStarterMemoryCanonical : Obligations.StepKeepsStarterMemoryCanonical := by
  unfold Obligations.StepKeepsStarterMemoryCanonical
  intro s t hs ht
  obtain ⟨u, hu, hbase⟩ := step_answers s
  cases ht.symm.trans hu
  exact hbase.sram hs

end Sys2Proof.Machine
end

section
/-! SUPPORT. Occurrences of causes (R595, R599, R601 to R603): what an occurrence leaves alone, and that the
cause bit that it sets stays set. -/

namespace Sys2Proof.Machine

/-! ### What an occurrence leaves alone -/

namespace State.Near

variable {s t : State}

theorem planeFaults (h : s.Near t) : t.planeFaults = s.planeFaults := by
  have e := congrArg State.planeFaults h
  exact e

theorem time (h : s.Near t) : t.time = s.time := by
  have e := congrArg State.time h
  exact e

theorem cmds (h : s.Near t) : t.cmds = s.cmds := by
  have e := congrArg State.cmds h
  exact e

theorem cmdQ (h : s.Near t) : t.cmdQ = s.cmdQ := by
  have e := congrArg State.cmdQ h
  exact e

theorem clock (h : s.Near t) : t.clock = s.clock := by
  have e := congrArg State.clock h
  exact e

theorem starter (h : s.Near t) : t.starter = s.starter := by
  have e := congrArg State.starter h
  exact e

end State.Near

/-! ### A set bit of a register -/

theorem testBit_bitsPut_of_ge (v lo w x : Nat) {j : Nat} (h : lo + w ≤ j) : (bitsPut v lo w x).testBit j = v.testBit j := by
  rw [← bitAt_eq_testBit, ← bitAt_eq_testBit, bitAt_eq, bitAt_eq, bitsAt_bitsPut_above _ _ _ _ _ _ h]

theorem testBit_bitsPut_of_lt (v lo w x : Nat) {j : Nat} (h : j < lo) : (bitsPut v lo w x).testBit j = v.testBit j := by
  rw [← bitAt_eq_testBit, ← bitAt_eq_testBit, bitAt_eq, bitAt_eq, bitsAt_bitsPut_below _ _ _ _ _ _ h]

theorem testBit_bitsAt (v lo w j : Nat) : (bitsAt v lo w).testBit j = (decide (j < w) && v.testBit (lo + j)) := by
  rw [bitsAt, Nat.testBit_mod_two_pow, Nat.testBit_div_two_pow, Nat.add_comm]

theorem testBit_bitsPut_of_mem (v lo w x : Nat) {j : Nat} (h : lo ≤ j) (hj : j < lo + w) :
    (bitsPut v lo w x).testBit j = x.testBit (j - lo) := by
  have hd : (bitsAt (bitsPut v lo w x) lo w).testBit (j - lo) = (x % 2 ^ w).testBit (j - lo) := by rw [bitsAt_bitsPut_same]
  have hlt : j - lo < w := by omega
  rwa [testBit_bitsAt, Nat.testBit_mod_two_pow, decide_eq_true hlt, Nat.add_sub_cancel' h, Bool.true_and, Bool.true_and] at hd

/-- Setting a bit of a field clears no bit of any register. -/
theorem State.testBit_word_setBit (s : State) (b : Nat) (f : Fld) (i : Nat) (hf : f.lo + f.w ≤ 32) {o j : Nat}
    (h : (s.word o).toNat.testBit j = true) : ((s.setBit b f i).word o).toNat.testBit j = true := by
  rw [State.setBit, State.word_wr]
  split
  next ho =>
    rw [BitVec.toNat_ofNat, Nat.mod_eq_of_lt (bitsPut_lt _ _ _ _ 32 (BitVec.isLt _) hf)]
    rw [ho] at h
    by_cases h1 : j < f.lo
    · rwa [testBit_bitsPut_of_lt _ _ _ _ h1]
    · by_cases h2 : f.lo + f.w ≤ j
      · rwa [testBit_bitsPut_of_ge _ _ _ _ h2]
      · have hlt : j - f.lo < f.w := by omega
        rw [testBit_bitsPut_of_mem _ _ _ _ (by omega) (by omega), Nat.testBit_or, State.rd, testBit_bitsAt,
          Nat.add_sub_cancel' (by omega), h, decide_eq_true hlt]
        rfl
  next => exact h

/-- A bit of a register field, as a bit of the register. -/
theorem State.bitAt_rd (s : State) (b : Nat) (f : Fld) {i : Nat} (hi : i < f.w) :
    bitAt (s.rd b f) i = (s.word (b + f.off)).toNat.testBit (f.lo + i) := by
  rw [bitAt_eq_testBit, State.rd, testBit_bitsAt, decide_eq_true hi, Bool.true_and]

/-! ### The cause bit stays set -/

/-- Every bit that is set in the register at `o` stays set. -/
def State.KeepsBits (o : Nat) (s t : State) : Prop :=
  ∀ j, (s.word o).toNat.testBit j = true → (t.word o).toNat.testBit j = true

/-- Offsets that no log and no count of the event unit has (R602). -/
abbrev OffLog (o : Nat) : Prop := o ≠ evtB + 0x10 ∧ (o < evtB + 0x200 ∨ evtB + 0x224 ≤ o)

namespace State.KeepsAt

variable (s : State)

theorem logErr_offLog (src cause sev data : Nat) : s.KeepsAt OffLog (s.logErr src cause sev data) := by
  unfold State.logErr
  dsimp only
  generalize hb : (if s.flag evtB F.EVT_FIRST_INFO_VALID then evtB + 0x210 else evtB + 0x200) = base
  have h1 : evtB + 0x200 ≤ base := by rw [← hb]; split <;> omega
  have h2 : base ≤ evtB + 0x210 := by rw [← hb]; split <;> omega
  refine (((State.KeepsAt.setWord _ ?_).trans (.setWord _ ?_)).trans (.setWord64 _ ?_ ?_)).trans (.count _ ?_) <;>
    simp only [OffLog] <;> omega

theorem sendMsg_offLog (x : Src) (f v : Fld) (cause : Nat) : s.KeepsAt OffLog (s.sendMsg x f v cause).1 := by
  unfold State.sendMsg
  dsimp only
  split
  · exact .refl s
  · split
    · exact .refl s
    · split
      · exact .count 1 (by decide)
      · exact .pushSys _ _

theorem sendMsgs_offLog (x : Src) (cause : Nat) : s.KeepsAt OffLog (s.sendMsgs x cause).1 :=
  (sendMsg_offLog s x _ _ cause).trans (sendMsg_offLog _ x _ _ cause)

/-- Beyond its cause bit, an occurrence writes logs and counts of the event unit (R602). -/
theorem occur_offLog (x : Src) (i : Nat) : (s.setBit x.base x.cause i).KeepsAt OffLog (s.occur x i).1 := by
  unfold State.occur
  dsimp only
  generalize s.setBit x.base x.cause i = s1
  have h : s1.KeepsAt OffLog (if 2 ≤ x.sev i then s1.logErr x.num i (x.sev i) x.data else s1) := by
    split
    · exact logErr_offLog s1 _ _ _ _
    · exact .refl s1
  generalize (if 2 ≤ x.sev i then s1.logErr x.num i (x.sev i) x.data else s1) = s2 at h ⊢
  split
  · exact h.trans (sendMsgs_offLog s2 x _)
  · exact h

end State.KeepsAt

theorem State.KeepsAt.keepsBits {P : Nat → Prop} {s t : State} (h : s.KeepsAt P t) {o : Nat} (ho : P o) : s.KeepsBits o t :=
  fun j hj => by rwa [h.1 o ho]

theorem State.keepsBits_occur (s : State) {x : Src} (hx : x.cause.lo + x.cause.w ≤ 32) (i : Nat) {o : Nat} (ho : OffLog o) :
    s.KeepsBits o (s.occur x i).1 := fun j hj =>
  (State.KeepsAt.occur_offLog s x i).keepsBits ho j (s.testBit_word_setBit _ _ _ hx hj)

theorem State.keepsBits_msgLost (s : State) (ovf bad : Bool) {o : Nat} (ho : OffLog o) : s.KeepsBits o (s.msgLost ovf bad) := by
  have step (s : State) (b : Bool) (i : Nat) : s.KeepsBits o (if b then (s.occur (srcGlobal 13) i).1 else s) := by
    split
    · exact s.keepsBits_occur (by decide) i ho
    · exact fun _ h => h
  exact fun j hj => step _ bad 1 j (step s ovf 0 j hj)

/-- A raised cause shows in its cause register (R595). -/
theorem State.bitAt_rd_raise (s : State) {x : Src} {i : Nat} (hx : x.cause.lo + x.cause.w ≤ 32) (hi : i < x.cause.w)
    (ho : OffLog (x.base + x.cause.off)) : bitAt ((s.raise x i).rd x.base x.cause) i = true := by
  have h := s.bitAt_rd_setBit x.base x.cause hx hi
  rw [State.bitAt_rd _ _ _ hi] at h ⊢
  exact State.keepsBits_msgLost _ _ _ ho _ ((State.KeepsAt.occur_offLog s x i).keepsBits ho _ h)

end Sys2Proof.Machine
end

section
/-! SUPPORT. Where the sources have their causes, and what the error log records (R594, R595, R602, R603). -/

namespace Sys2Proof.Machine

/-! ### The place of a source -/

/-- A source's number, cause field and severity, for a cause `i` that some rule defines. -/
structure Src.WellPlaced (x : Src) (i : Nat) : Prop where
  num : x.num < 640
  lo : x.cause.lo = 0
  bit : i < x.cause.w
  width : x.cause.w ≤ 32
  sev : x.sev i ≤ 4
  place : evtB + 0x100 ≤ x.base + x.cause.off ∧ x.base + x.cause.off < evtB + 0x180 ∨ evtB + 0x10000 ≤ x.base + x.cause.off

theorem getD_le_of_forall {l : List Nat} {m : Nat} (h : ∀ a ∈ l, a ≤ m) (i : Nat) : l.getD i 0 ≤ m := by
  rw [List.getD_eq_getElem?_getD]
  cases hi : l[i]? with
  | none => exact Nat.zero_le m
  | some a => exact h a (List.mem_of_getElem? hi)

theorem sevAlert_le (i : Nat) : sevAlert i ≤ 4 := getD_le_of_forall (by decide) i
theorem sevNotice_le (i : Nat) : sevNotice i ≤ 4 := getD_le_of_forall (by decide) i
theorem sevRouter_le (i : Nat) : sevRouter i ≤ 4 := getD_le_of_forall (by decide) i
theorem sevSpan_le (i : Nat) : sevSpan i ≤ 4 := getD_le_of_forall (by decide) i
theorem sevRegion_le (i : Nat) : sevRegion i ≤ 4 := getD_le_of_forall (by decide) i

theorem sevGlobal_le {g : Nat} (hg : g < 16) (i : Nat) : sevGlobal g i ≤ 4 := by
  refine getD_le_of_forall ?_ i
  revert g
  decide

theorem globalCauses_le {g : Nat} (hg : g < 15) : [5, 2, 3, 1, 2, 2, 3, 2, 3, 1, 3, 1, 5, 2, 2].getD g 0 ≤ 5 := by
  revert g
  decide

/-- Every source that there is, with a cause that some rule defines, has its cause register in its unit's window. -/
theorem State.wellPlaced_of_srcOf {s : State} {k j i : Nat} {x : Src} (hx : s.srcOf k j = some x) (hc : causeOf k i = true) :
    x.WellPlaced i := by
  unfold State.srcOf at hx
  unfold causeOf at hc
  dsimp only at hx
  split_ifs at hx hc with h1 h2 h3 h4 h5 h6 h7 h8 h9 <;> rw [Option.some.injEq] at hx <;> subst hx
  · rw [decide_eq_true_eq] at hc
    constructor <;> simp [srcAlert, sevAlert_le, evtB, niB] <;> omega
  · rw [decide_eq_true_eq] at hc
    constructor <;> simp [srcNotice, sevNotice_le, evtB, niB] <;> omega
  · rw [decide_eq_true_eq] at hc
    constructor <;> simp [srcRouter, sevRouter_le, evtB, rtrB] <;> omega
  · have hi : i < 8 := by
      have := eq_of_beq hc
      omega
    have hs : (if i = (k - 576) % 8 then sevSpan i else 0) ≤ 4 := by
      split
      · exact sevSpan_le i
      · omega
    constructor <;> simp only [srcSpan, evtB, spB] <;> omega
  · rw [decide_eq_true_eq] at hc
    constructor <;> simp [srcRegion, sevRegion_le, evtB, Fld.ix] <;> omega
  · rw [decide_eq_true_eq] at hc
    have hg : k - 624 < 15 := by omega
    have := globalCauses_le hg
    have hs : sevGlobal (k - 624) i ≤ 4 := sevGlobal_le (by omega) i
    constructor <;> simp [srcGlobal, hs, evtB, Fld.ix] <;> omega

/-! ### The error log -/

section

variable (s : State)

/-- The word that a log entry starts with (R602). -/
def State.logInfo (src cause sev : Nat) : Nat := src + 1024 * cause + 65536 * sev + 2 ^ 20 * b2n s.rootOk + 2 ^ 31

/-- A log entry's source, cause, severity and valid bit (R602). -/
theorem State.bitsAt_logInfo {src cause sev : Nat} (h1 : src < 1024) (h2 : cause < 32) (h3 : sev < 8) :
    bitsAt (BitVec.ofNat 32 (s.logInfo src cause sev)).toNat 0 10 = src
    ∧ bitsAt (BitVec.ofNat 32 (s.logInfo src cause sev)).toNat 10 5 = cause
    ∧ bitsAt (BitVec.ofNat 32 (s.logInfo src cause sev)).toNat 16 3 = sev
    ∧ bitsAt (BitVec.ofNat 32 (s.logInfo src cause sev)).toNat 31 1 = 1 := by
  have hv : b2n s.rootOk ≤ 1 := by cases s.rootOk <;> decide
  simp only [State.logInfo, bitsAt, BitVec.toNat_ofNat]
  omega

/-- The log at `base` takes the entry (R602). -/
def State.logAt (base info data : Nat) : State :=
  (((s.setWord base (BitVec.ofNat 32 info)).setWord (base + 4) (BitVec.ofNat 32 data)).setWord64 (base + 8)
    s.rootStamp.toNat).count evtB F.EVT_LOG_CNT_COUNT 1

theorem State.logErr_eq (src cause sev data : Nat) : s.logErr src cause sev data =
    s.logAt (if s.flag evtB F.EVT_FIRST_INFO_VALID then evtB + 0x210 else evtB + 0x200) (s.logInfo src cause sev) data := rfl

variable {base : Nat} (info data : Nat) (hb : base = evtB + 0x200 ∨ base = evtB + 0x210)

include hb

theorem State.word_logAt_info : (s.logAt base info data).word base = BitVec.ofNat 32 info := by
  rw [State.logAt, State.count, State.word_wr_ne _ _ _ _ (by rcases hb with rfl | rfl <;> decide), State.setWord64,
    State.word_setWord_ne _ _ (by omega), State.word_setWord_ne _ _ (by omega), State.word_setWord_ne _ _ (by omega),
    State.word_setWord_same]

theorem State.word64_logAt_stamp : (s.logAt base info data).word64 (base + 8) = s.rootStamp.toNat := by
  have h (t : State) (v : Nat) : (t.count evtB F.EVT_LOG_CNT_COUNT v).word64 (base + 8) = t.word64 (base + 8) := by
    rw [State.word64, State.count, State.word_wr_ne _ _ _ _ (by rcases hb with rfl | rfl <;> decide),
      State.word_wr_ne _ _ _ _ (by rcases hb with rfl | rfl <;> decide), State.word64]
  rw [State.logAt, h, State.word64_setWord64, Nat.mod_eq_of_lt (BitVec.isLt _)]

omit hb in
theorem State.word_logAt_ne {o : Nat} (h : o < base ∨ base + 16 ≤ o) (h' : o ≠ evtB + 0x220) :
    (s.logAt base info data).word o = s.word o := by
  rw [State.logAt, State.count, State.word_wr_ne _ _ _ _ h', State.setWord64,
    State.word_setWord_ne _ _ (by omega), State.word_setWord_ne _ _ (by omega), State.word_setWord_ne _ _ (by omega),
    State.word_setWord_ne _ _ (by omega)]

theorem State.rd_logAt_count : (s.logAt base info data).rd evtB F.EVT_LOG_CNT_COUNT =
    min (s.rd evtB F.EVT_LOG_CNT_COUNT + 1) (2 ^ 32 - 1) := by
  rw [State.logAt, State.rd_count_same _ _ _ _ (by decide), State.rd, State.setWord64,
    State.word_setWord_ne _ _ (by rcases hb with rfl | rfl <;> decide),
    State.word_setWord_ne _ _ (by rcases hb with rfl | rfl <;> decide),
    State.word_setWord_ne _ _ (by rcases hb with rfl | rfl <;> decide),
    State.word_setWord_ne _ _ (by rcases hb with rfl | rfl <;> decide), State.rd]

end

/-- What an entry that goes to the FIRST or the NEXT log shows there. -/
theorem State.rd_logErr (s : State) {src cause sev : Nat} (data : Nat) (h1 : src < 1024) (h2 : cause < 32) (h3 : sev < 8)
    {b : Nat} (hb : b = if s.flag evtB F.EVT_FIRST_INFO_VALID then 0x210 else 0x200) :
    (s.logErr src cause sev data).rd evtB ⟨b, 0, 10, 4⟩ = src ∧ (s.logErr src cause sev data).rd evtB ⟨b, 10, 5, 4⟩ = cause
    ∧ (s.logErr src cause sev data).rd evtB ⟨b, 16, 3, 4⟩ = sev ∧ (s.logErr src cause sev data).rd evtB ⟨b, 31, 1, 4⟩ = 1 := by
  have hbase : (if s.flag evtB F.EVT_FIRST_INFO_VALID then evtB + 0x210 else evtB + 0x200) = evtB + b := by
    rw [hb]; split <;> rfl
  have hb' : evtB + b = evtB + 0x200 ∨ evtB + b = evtB + 0x210 := by rw [hb]; split <;> simp
  have hw : (s.logErr src cause sev data).word (evtB + b) = BitVec.ofNat 32 (s.logInfo src cause sev) := by
    rw [State.logErr_eq, hbase, State.word_logAt_info _ _ _ hb']
  simp only [State.rd, hw]
  exact s.bitsAt_logInfo h1 h2 h3

/-! ### An occurrence whose source has no event message -/

/-- A raise of a source without messages is its cause bit and its log entry (R595, R599). -/
theorem State.raise_of_silent (s : State) {x : Src} {i : Nat} (hx : x.WellPlaced i)
    (hm : s.rd evtB (F.EVT_ROUTE_MSG_EN.ix x.num) = 0) : s.raise x i =
      if 2 ≤ x.sev i then (s.setBit x.base x.cause i).logErr x.num i (x.sev i) x.data else s.setBit x.base x.cause i := by
  have hn := hx.num
  have hp := hx.place
  have h1 : (s.setBit x.base x.cause i).rd evtB (F.EVT_ROUTE_MSG_EN.ix x.num) = 0 := by
    rwa [State.setBit, State.rd_wr_ne]
    simp only [Fld.ix]
    omega
  have h2 : (if 2 ≤ x.sev i then (s.setBit x.base x.cause i).logErr x.num i (x.sev i) x.data
      else s.setBit x.base x.cause i).rd evtB (F.EVT_ROUTE_MSG_EN.ix x.num) = 0 := by
    split
    · rw [(State.KeepsAt.logErr_offLog _ _ _ _ _).rd, h1]
      simp only [Fld.ix]
      omega
    · exact h1
  unfold State.raise State.occur
  dsimp only
  generalize (if 2 ≤ x.sev i then (s.setBit x.base x.cause i).logErr x.num i (x.sev i) x.data
      else s.setBit x.base x.cause i) = u at h2 ⊢
  rw [if_neg (fun h => by simp [h2] at h)]
  rfl

end Sys2Proof.Machine
end

section
/-! SUPPORT. An occurrence of a cause at its unit (R410, R593, R595, R602). -/

namespace Sys2Proof.Machine

/-- The log entry of an occurrence without messages of severity RECOVERABLE or worse (R602, R603). -/
theorem State.raise_logs (s : State) {x : Src} {i : Nat} (hx : x.WellPlaced i)
    (hm : s.rd evtB (F.EVT_ROUTE_MSG_EN.ix x.num) = 0) (hsev : 2 ≤ x.sev i) :
    (s.raise x i).rd evtB F.EVT_LOG_CNT_COUNT = min (s.rd evtB F.EVT_LOG_CNT_COUNT + 1) (2 ^ 32 - 1)
    ∧ (s.flag evtB F.EVT_FIRST_INFO_VALID = false → (s.raise x i).flag evtB F.EVT_FIRST_INFO_VALID = true
      ∧ (s.raise x i).rd evtB F.EVT_FIRST_INFO_SOURCE = x.num ∧ (s.raise x i).rd evtB F.EVT_FIRST_INFO_CAUSE = i
      ∧ (s.raise x i).rd evtB F.EVT_FIRST_INFO_SEV = x.sev i ∧ (s.raise x i).word64 (evtB + 0x208) = s.rootStamp.toNat)
    ∧ (s.flag evtB F.EVT_FIRST_INFO_VALID = true → (s.raise x i).flag evtB F.EVT_NEXT_INFO_VALID = true
      ∧ (s.raise x i).rd evtB F.EVT_NEXT_INFO_SOURCE = x.num ∧ (s.raise x i).rd evtB F.EVT_NEXT_INFO_CAUSE = i
      ∧ (s.raise x i).word64 (evtB + 0x200) = s.word64 (evtB + 0x200)) := by
  have hn := hx.num
  have hp := hx.place
  have hs := hx.sev
  have hi : i < 32 := Nat.lt_of_lt_of_le hx.bit hx.width
  rw [s.raise_of_silent hx hm, if_pos hsev]
  have hkeep {o : Nat} (ho : o < evtB + 0x100 ∨ evtB + 0x180 ≤ o ∧ o < evtB + 0x10000) :
      (s.setBit x.base x.cause i).word o = s.word o := State.word_wr_ne _ _ _ _ (by omega)
  have hstamp : (s.setBit x.base x.cause i).rootStamp = s.rootStamp := by
    simp only [State.rootStamp, State.epoch, State.rd64, State.rd, State.setBit_time]
    rw [hkeep (by decide), hkeep (by decide)]
  have hflag : (s.setBit x.base x.cause i).flag evtB F.EVT_FIRST_INFO_VALID = s.flag evtB F.EVT_FIRST_INFO_VALID := by
    rw [State.flag, State.flag, State.rd, hkeep (by decide), State.rd]
  have hcnt : (s.setBit x.base x.cause i).rd evtB F.EVT_LOG_CNT_COUNT = s.rd evtB F.EVT_LOG_CNT_COUNT := by
    rw [State.rd, hkeep (by decide), State.rd]
  have hread := (s.setBit x.base x.cause i).rd_logErr (src := x.num) (cause := i) (sev := x.sev i) x.data (by omega) hi (by omega) rfl
  rw [hflag] at hread
  refine ⟨?_, fun hf => ?_, fun hf => ?_⟩
  · rw [State.logErr_eq, State.rd_logAt_count _ _ _ (by split <;> simp), hcnt]
  · obtain ⟨hsrc, hcause, hsv, hvalid⟩ := hread
    simp only [hf, Bool.false_eq_true, if_false] at hsrc hcause hsv hvalid
    refine ⟨by rw [State.flag_eq, hvalid]; rfl, hsrc, hcause, hsv, ?_⟩
    rw [State.logErr_eq, hflag, hf, if_neg Bool.false_ne_true, State.word64_logAt_stamp _ _ _ (.inl rfl), hstamp]
  · obtain ⟨hsrc, hcause, hsv, hvalid⟩ := hread
    simp only [hf, if_true] at hsrc hcause hsv hvalid
    refine ⟨by rw [State.flag_eq, hvalid]; rfl, hsrc, hcause, ?_⟩
    rw [State.logErr_eq, hflag, hf, if_pos rfl, State.word64, State.word_logAt_ne _ _ _ (by decide) (by decide),
      State.word_logAt_ne _ _ _ (by decide) (by decide), hkeep (by decide), hkeep (by decide), State.word64]

/-- A plane fault shows in PLN_STAT and waits to be looked at (R410). -/
theorem State.flag_planeFault (s : State) (p cause : Nat) :
    (s.planeFault p cause).flag strB (if p = 0 then F.STR_PLN_STAT_FAULT_A else F.STR_PLN_STAT_FAULT_B) = true := by
  change (s.wr strB _ 1).flag strB _ = true
  rw [State.flag_eq, State.rd_wr_same _ _ _ _ (by split <;> decide)]
  split <;> rfl

theorem State.causeMore_router_fault (s : State) {k : Nat} (j : Nat) (h : 512 ≤ k) (h' : k < 576) :
    s.causeMore k j 1 = s.planeFault ((k - 512) / 32) 2 := by
  rw [State.causeMore, if_neg (by omega), if_pos h']
  rfl

/-- Settles O53: the occurrence is the raise of its source and what its cause brings besides. -/
theorem occurrenceSetsItsCauseAndIsLogged : Obligations.OccurrenceSetsItsCauseAndIsLogged := by
  unfold Obligations.OccurrenceSetsItsCauseAndIsLogged
  intro s k j i
  refine ⟨fun h => ?_, fun x hx hc => ?_⟩
  · change execCauseSet k j i s = _
    rcases h with h | h
    · rw [execCauseSet, h]
    · cases hx : s.srcOf k j <;> simp [execCauseSet, hx, h]
  · have hw := State.wellPlaced_of_srcOf hx hc
    have hp := hw.place
    have hexec : exec (.causeSet k j i) s = .next ((s.raise x i).causeMore k j i) := by
      change execCauseSet k j i s = _
      simp [execCauseSet, hx, hc]
    refine ⟨hexec, ?_, fun hm t ht => ?_, fun h1 h2 hi => ?_, ?_⟩
    · exact s.bitAt_rd_raise (by rw [hw.lo, Nat.zero_add]; exact hw.width) hw.bit (by simp only [OffLog]; omega)
    · subst ht
      exact ⟨fun hsev => by rw [s.raise_of_silent hw hm, if_neg (by omega)], fun hsev => s.raise_logs hw hm hsev⟩
    · subst hi
      rw [State.causeMore_router_fault _ _ h1 h2] at hexec
      refine ⟨_, hexec, ?_, ?_⟩
      · have hf := (s.raise x 1).flag_planeFault ((k - 512) / 32) 2
        have hiff : (k - 512) / 32 = 0 ↔ k < 544 := by omega
        simpa only [hiff] using hf
      · change (s.raise x 1).planeFaults ++ _ = _
        rw [(s.near_raise x 1).planeFaults]
    · rintro rfl
      exact ⟨fun hi => by subst hi; exact hexec, fun hi => by subst hi; exact hexec⟩

end Sys2Proof.Machine
end

section
/-! SUPPORT. What time drives in an NI's scheduler (R246, R268, R271 to R273, R284): queue samples, refills, windows. -/

namespace Sys2Proof.Machine

/-! ### Entries of an NI's tables, and states with only an NI changed -/

@[simp] theorem NiSt.q_setQ_same (x : NiSt) (q : Nat) (v : Queue) : (x.setQ q v).q q = v := mget_mset_same _ _ _ _

theorem NiSt.q_setQ_ne (x : NiSt) {q j : Nat} (v : Queue) (h : j ≠ q) : (x.setQ q v).q j = x.q j := mget_mset_ne _ _ _ h

@[simp] theorem NiSt.shaper_setShaper_same (x : NiSt) (k : Nat) (v : Shaper) : (x.setShaper k v).shaper k = v :=
  mget_mset_same _ _ _ _

theorem NiSt.shaper_setShaper_ne (x : NiSt) {k j : Nat} (v : Shaper) (h : j ≠ k) : (x.setShaper k v).shaper j = x.shaper j :=
  mget_mset_ne _ _ _ h

theorem onlyNi_setNi (s : State) (n : Nat) (x : NiSt) : onlyNi n s (s.setNi n x) :=
  ⟨rfl, fun _ hm => s.ni_setNi_ne x (by simpa using hm)⟩

theorem onlyNi_updNi (s : State) (n : Nat) (f : NiSt → NiSt) : onlyNi n s (s.updNi n f) := onlyNi_setNi s n _

theorem onlyNi.refl (n : Nat) (s : State) : onlyNi n s s := ⟨rfl, fun _ _ => rfl⟩

theorem onlyNi.trans {n : Nat} {s t u : State} (h : onlyNi n s t) (k : onlyNi n t u) : onlyNi n s u := by
  obtain ⟨hrest, hni⟩ := h
  obtain ⟨krest, kni⟩ := k
  refine ⟨?_, fun m hm => (kni m hm).trans (hni m hm)⟩
  rw [← krest] at hrest
  exact hrest

theorem onlyNi.csr {n : Nat} {s t : State} (h : onlyNi n s t) : t.csr = s.csr := by rw [← h.1]

theorem onlyNi.rd {n : Nat} {s t : State} (h : onlyNi n s t) (b : Nat) (f : Fld) : t.rd b f = s.rd b f := by
  rw [← h.1]; rfl

/-! ### A round over the numbers below a bound -/

theorem forAll_succ (f : Nat → State → State) (n : Nat) (s : State) : forAll (n + 1) f s = f n (forAll n f s) := by
  rw [forAll, forAll, List.range_succ, List.foldl_append, List.foldl_cons, List.foldl_nil]

/-- What each number makes true and the later ones keep holds of all of them after the round. -/
theorem forAll_each {f : Nat → State → State} {P : Nat → State → Prop} {Q : State → Prop} {n : Nat} {s : State} (h0 : Q s)
    (hQ : ∀ i a, i < n → Q a → Q (f i a)) (hnew : ∀ i a, i < n → Q a → P i (f i a))
    (hkeep : ∀ i j a, j < i → i < n → Q a → P j a → P j (f i a)) : Q (forAll n f s) ∧ ∀ i, i < n → P i (forAll n f s) := by
  induction n with
  | zero => exact ⟨h0, fun i hi => absurd hi (Nat.not_lt_zero i)⟩
  | succ n ih =>
    obtain ⟨hq, hp⟩ := ih (fun i a hi => hQ i a (by omega)) (fun i a hi => hnew i a (by omega))
      (fun i j a hj hi => hkeep i j a hj (by omega))
    rw [forAll_succ]
    refine ⟨hQ n _ (by omega) hq, fun i hi => ?_⟩
    by_cases h : i = n
    · subst h; exact hnew i _ (by omega) hq
    · exact hkeep n i _ (by omega) (by omega) hq (hp i (by omega))

/-! ### Refills (R268) -/

/-- A shaper after one refill from the state `s` (R268). -/
def State.refilled (s : State) (n k : Nat) : Shaper :=
  { rate := s.rd (niB n) (shpRate k), burst := s.rd (niB n) (shpBurst k)
    credit := if (s.ni n).shpBusy k = true ∨ ((s.ni n).shaper k).credit < 0 then
      min (((s.ni n).shaper k).credit + s.rd (niB n) (shpRate k)) (8 * (s.rd (niB n) (shpBurst k) : Int)) else 0 }

theorem State.refill_eq (s : State) (n k : Nat) : s.refill n k = s.setNi n ((s.ni n).setShaper k (s.refilled n k)) := by
  simp [State.refill, State.refilled]

/-- What the refills of the shapers from `k` on find is what they found before the round. -/
def RefillsLeft (s : State) (n : Nat) (a : State) : Prop := onlyNi n s a ∧ (a.ni n).qs = (s.ni n).qs

theorem State.refill_round (s : State) (n : Nat) : RefillsLeft s n (forAll 16 (fun k a => a.refill n k) s)
    ∧ ∀ k, k < 16 → ((forAll 16 (fun k a => a.refill n k) s).ni n).shaper k = s.refilled n k := by
  suffices ∀ m, RefillsLeft s n (forAll m (fun k a => a.refill n k) s) ∧ ∀ k,
      ((forAll m (fun k a => a.refill n k) s).ni n).shaper k = if k < m then s.refilled n k else (s.ni n).shaper k by
    obtain ⟨h, hk⟩ := this 16
    exact ⟨h, fun k hlt => by rw [hk, if_pos hlt]⟩
  intro m
  induction m with
  | zero => exact ⟨⟨onlyNi.refl n s, rfl⟩, fun _ => rfl⟩
  | succ m ih =>
    obtain ⟨⟨honly, hqs⟩, hk⟩ := ih
    rw [forAll_succ]
    generalize forAll m (fun k a => a.refill n k) s = a at honly hqs hk
    have hbusy : (a.ni n).shpBusy m = (s.ni n).shpBusy m := by rw [NiSt.shpBusy, hqs, NiSt.shpBusy]
    have hnew : a.refilled n m = s.refilled n m := by
      rw [State.refilled, State.refilled, honly.rd, honly.rd, hbusy, hk m, if_neg (Nat.lt_irrefl m)]
    rw [State.refill_eq, hnew]
    refine ⟨⟨honly.trans (onlyNi_setNi _ _ _), by simpa [NiSt.setShaper] using hqs⟩, fun k => ?_⟩
    rw [State.ni_setNi_same]
    by_cases h : k = m
    · subst h; simp
    · rw [NiSt.shaper_setShaper_ne _ _ h, hk k]
      have : k < m ↔ k < m + 1 := by omega
      simp only [this]

/-! ### Windows of the late histogram (R246) -/

/-- The bins as the NI's registers take them. -/
def State.binsTo (n : Nat) (hist : List Nat) (s : State) : State :=
  forAll 4 (fun m a => (a.wr (niB n) (F.NI_LATE_HIST_BIN_LO.ix m) (hist.getD (2 * m) 0)).wr (niB n)
    (F.NI_LATE_HIST_BIN_HI.ix m) (hist.getD (2 * m + 1) 0)) s

theorem State.binsTo_spec (n : Nat) (hist : List Nat) (s : State) : (s.binsTo n hist).ni n = s.ni n ∧ ∀ m, m < 4 →
    (s.binsTo n hist).rd (niB n) (F.NI_LATE_HIST_BIN_LO.ix m) = hist.getD (2 * m) 0 % 2 ^ F.NI_LATE_HIST_BIN_LO.w := by
  refine forAll_each (P := fun m a => a.rd (niB n) (F.NI_LATE_HIST_BIN_LO.ix m) = hist.getD (2 * m) 0 % 2 ^ F.NI_LATE_HIST_BIN_LO.w)
    (Q := fun a => a.ni n = s.ni n) rfl (fun m a _ h => by rw [State.wr_ni, State.wr_ni, h])
    (fun m a _ _ => ?_) (fun m j a hj _ _ h => ?_)
  · rw [State.rd_wr_apart _ _ _ _ _ (by rfl) (by simp only [Fld.ix]; decide) (by simp only [Fld.ix]; decide),
      State.rd_wr_same _ _ _ _ (by simp only [Fld.ix]; decide)]
    rfl
  · rwa [State.rd_wr_ne _ _ _ _ _ _ (by simp only [Fld.ix]; omega), State.rd_wr_ne _ _ _ _ _ _ (by simp only [Fld.ix]; omega)]

theorem exec_histWindowEnd_of_timer {s : State} {n : Nat} (hn : s.hasNi n = true) (ht : (s.ni n).timer = 2) :
    exec (.histWindowEnd n) s = .next ((s.binsTo n (s.ni n).hist).setNi n
      (if (s.ni n).histRel then { s.ni n with hist := List.replicate 8 0, timer := 0, histRel := false }
        else { s.ni n with hist := List.replicate 8 0 })) := by
  have hb := (s.binsTo_spec n (s.ni n).hist).1
  change guardUnit s (s.hasNi n) _ = _
  rw [guardUnit_of hn]
  dsimp only
  rw [if_neg (not_not.mpr ht)]
  change Host.Outcome.next ((s.binsTo n (s.ni n).hist).setNi n (if (s.ni n).histRel then
    { (s.binsTo n (s.ni n).hist).ni n with hist := List.replicate 8 0, timer := 0, histRel := false }
    else { (s.binsTo n (s.ni n).hist).ni n with hist := List.replicate 8 0 })) = _
  rw [hb]

/-! ### Allowance windows (R271 to R273) -/

/-- The state after an allowance window (R271 to R273). -/
def State.allowed (s : State) (n : Nat) : State :=
  let a2 := s.rd pcrB (F.PCR_ALLOW_A2.ix (niRec s.rom n).region)
  let a3 := s.rd pcrB (F.PCR_ALLOW_A3.ix (niRec s.rom n).region)
  (((if (s.ni n).thrHeld then s.count (niB n) F.NI_THR_HOLD_CNT_COUNT 1 else s).wr (niB n) F.NI_THR_STAT_A2 a2).wr (niB n)
    F.NI_THR_STAT_A3 a3).updNi n (fun x => { x with rem2 := a2 + min x.rem2 0, rem3 := a3 + min x.rem3 0, thrHeld := false })

theorem State.ni_allowed (s : State) (n : Nat) : (s.allowed n).ni n = { s.ni n with
    rem2 := s.rd pcrB (F.PCR_ALLOW_A2.ix (niRec s.rom n).region) + min (s.ni n).rem2 0
    rem3 := s.rd pcrB (F.PCR_ALLOW_A3.ix (niRec s.rom n).region) + min (s.ni n).rem3 0, thrHeld := false } := by
  have h : (if (s.ni n).thrHeld then s.count (niB n) F.NI_THR_HOLD_CNT_COUNT 1 else s).ni n = s.ni n := by
    split
    · rw [State.count_ni]
    · rfl
  rw [State.allowed, State.ni_updNi_same, State.wr_ni, State.wr_ni, h]

theorem State.rd_allowed_a2 (s : State) (n : Nat) : (s.allowed n).rd (niB n) F.NI_THR_STAT_A2 =
    s.rd pcrB (F.PCR_ALLOW_A2.ix (niRec s.rom n).region) % 2 ^ F.NI_THR_STAT_A2.w := by
  rw [State.allowed, State.updNi_rd, State.rd_wr_apart _ _ _ _ _ (by rfl) (by decide) (by decide), State.rd_wr_same _ _ _ _ (by decide)]

theorem State.rd_allowed_holds (s : State) (n : Nat) : (s.allowed n).rd (niB n) F.NI_THR_HOLD_CNT_COUNT =
    if (s.ni n).thrHeld then min (s.rd (niB n) F.NI_THR_HOLD_CNT_COUNT + 1) (2 ^ F.NI_THR_HOLD_CNT_COUNT.w - 1)
    else s.rd (niB n) F.NI_THR_HOLD_CNT_COUNT := by
  rw [State.allowed, State.updNi_rd, State.rd_wr_ne _ _ _ _ _ _ (by simp), State.rd_wr_ne _ _ _ _ _ _ (by simp)]
  split
  · exact State.rd_count_same _ _ _ _ (by decide)
  · rfl

/-- Settles O41: each timer's new values are read off the state that it leaves. -/
theorem schedulerTimersAct : Obligations.SchedulerTimersAct := by
  unfold Obligations.SchedulerTimersAct
  intro s n
  refine ⟨fun hn => ⟨?_, ?_⟩, fun q h => ?_, fun h => ?_, fun hn => ⟨fun q hq => ?_, ?_, ?_, fun ht => ?_⟩⟩
  · exact congrArg (guardUnit s · _) hn
  · exact congrArg (guardUnit s · _) hn
  · change guardUnit s (s.hasNi n && decide (q < schedSize s.rom n)) _ = _
    rcases h with h | h
    · simp [h]
    · simp [Nat.not_lt.mpr h]
  · change guardUnit s (s.hasNi n) _ = _
    rcases h with h | h
    · simp [h]
    · cases s.hasNi n <;> simp [h]
  · refine ⟨s.queueSample n q, guardUnit_of (by simp [hn, hq]) _ _, ?_, ?_, ?_, fun j hj => ?_, onlyNi_updNi s n _⟩
    · simp [State.queueSample]
    · simp [State.queueSample]
    · simp [State.queueSample]
    · rw [State.queueSample, State.ni_updNi_same, NiSt.q_setQ_ne _ _ hj]
  · obtain ⟨⟨honly, hqs⟩, hk⟩ := s.refill_round n
    refine ⟨_, guardUnit_of hn _ _, honly, hqs, fun k hlt => ?_⟩
    rw [hk k hlt]
    exact ⟨rfl, rfl, rfl⟩
  · refine ⟨s.allowed n, guardUnit_of hn _ _, ?_⟩
    rintro g rfl
    exact ⟨by rw [s.ni_allowed], by rw [s.ni_allowed], by rw [s.ni_allowed], s.rd_allowed_a2 n, s.rd_allowed_holds n⟩
  · refine ⟨_, exec_histWindowEnd_of_timer hn ht, ?_, fun m hm => ?_, ?_⟩
    · rw [State.ni_setNi_same]
      split <;> rfl
    · rw [State.setNi_rd]
      exact (s.binsTo_spec n _).2 m hm
    · rw [State.ni_setNi_same]
      split
      · rfl
      · exact ht

end Sys2Proof.Machine
end

section
/-! SUPPORT. Gate lists (R275, R276, R278, R281, R593): what GATE_STAT shows, and the start of a pending list. -/

namespace Sys2Proof.Machine

/-! ### Copies of words -/

theorem onlyWords.trans {l : List Nat} {s t u : State} (h : onlyWords l s t) (k : onlyWords l t u) : onlyWords l s u := by
  obtain ⟨hrest, hw⟩ := h
  obtain ⟨krest, kw⟩ := k
  refine ⟨?_, fun o ho => (kw o ho).trans (hw o ho)⟩
  rw [← krest] at hrest
  exact hrest

theorem onlyWords_wr (s : State) (b : Nat) (f : Fld) (v : Nat) {l : List Nat} (h : b + f.off ∈ l) : onlyWords l s (s.wr b f v) :=
  ⟨rfl, fun _ ho => s.word_wr_ne b f v (fun e => ho (e ▸ h))⟩

/-- A copy to words behind its source puts every word there and leaves every other one. -/
theorem State.word_copyWords (s : State) {src dst k : Nat} (h : src + 4 * k ≤ dst) (o : Nat) : (s.copyWords src dst k).word o =
    if dst ≤ o ∧ o < dst + 4 * k ∧ (o - dst) % 4 = 0 then s.word (src + (o - dst)) else s.word o := by
  induction k generalizing o with
  | zero => rw [if_neg (by omega)]; rfl
  | succ k ih =>
    have hstep : s.copyWords src dst (k + 1) =
        (s.copyWords src dst k).setWord (dst + 4 * k) ((s.copyWords src dst k).word (src + 4 * k)) := by
      rw [State.copyWords, List.range_succ, List.foldl_append]
      rfl
    rw [hstep, State.word_setWord, ih (by omega), ih (by omega), if_neg (c := dst ≤ src + 4 * k ∧ _) (by omega)]
    by_cases ho : o = dst + 4 * k
    · subst ho
      rw [if_pos rfl, if_pos (by omega), Nat.add_sub_cancel_left]
    · rw [if_neg ho]
      have : (dst ≤ o ∧ o < dst + 4 * k ∧ (o - dst) % 4 = 0) ↔ dst ≤ o ∧ o < dst + 4 * (k + 1) ∧ (o - dst) % 4 = 0 := by omega
      simp only [this]

theorem State.word64_wr_ne (s : State) (b : Nat) (f : Fld) (v : Nat) {o : Nat} (h : o ≠ b + f.off) (h' : o + 4 ≠ b + f.off) :
    (s.wr b f v).word64 o = s.word64 o := by
  rw [State.word64, State.word_wr_ne _ _ _ _ h, State.word_wr_ne _ _ _ _ h', State.word64]

theorem State.wholeNs_congr {s u : State} (htime : u.time = s.time) (hepoch : u.epoch = s.epoch) (t : Stamp) :
    u.wholeNs t = s.wholeNs t := by
  unfold State.wholeNs State.rootStamp
  rw [htime, hepoch]

theorem State.epoch_congr {s u : State} (h : ∀ o, timB ≤ o → o < evtB → u.word o = s.word o) : u.epoch = s.epoch := by
  unfold State.epoch State.rd64 State.rd
  rw [h _ (by decide) (by decide), h _ (by decide) (by decide)]

theorem State.word_alert (s : State) (n i : Nat) {o : Nat} (ho : o < evtB) : (s.alert n i).word o = s.word o := by
  refine ((s.keepsAt_raise (srcAlert n) i).1 o (.inl ho)).trans (State.word_wr_ne _ _ _ _ ?_)
  simp only [srcAlert, niB, evtB] at ho ⊢
  omega

/-- A memory error at an NI leaves Fabric Time and the epoch. -/
theorem State.wholeNs_memUncorr (s : State) (n : Nat) (t : Stamp) : (s.memUncorr n).wholeNs t = s.wholeNs t := by
  refine State.wholeNs_congr ?_ (State.epoch_congr fun o _ ho => ?_) t
  · rw [State.memUncorr, State.alert, (State.near_raise _ (srcAlert n) 15).time, State.count_time]
  · rw [State.memUncorr, State.word_alert _ _ _ ho, State.count, State.word_wr_ne]
    simp only [niB, evtB] at ho ⊢
    omega

/-! ### What GATE_STAT shows -/

theorem State.gateShow_eq (s : State) (n t : Nat) : s.gateShow n t = (s.wr (niB n) F.NI_GATE_STAT_ENTRY (s.gatesAt n t).1).wr (niB n)
    F.NI_GATE_STAT_GATES (s.gatesAt n t).2 := by
  rw [State.gateShow]

theorem State.rd_gateShow_gates (s : State) (n t : Nat) :
    (s.gateShow n t).rd (niB n) F.NI_GATE_STAT_GATES = (s.gatesAt n t).2 % 16 := State.rd_wr_same _ _ _ _ (by decide)

theorem State.rd_gateShow_entry (s : State) (n t : Nat) :
    (s.gateShow n t).rd (niB n) F.NI_GATE_STAT_ENTRY = (s.gatesAt n t).1 % 2 ^ F.NI_GATE_STAT_ENTRY.w :=
  (State.rd_wr_apart _ _ _ _ _ (by rfl) (by decide) (by decide)).trans (State.rd_wr_same _ _ _ _ (by decide))

theorem State.word_gateShow_ne (s : State) (n t : Nat) {o : Nat} (h : o ≠ niB n + F.NI_GATE_STAT_GATES.off) :
    (s.gateShow n t).word o = s.word o := (State.word_wr_ne _ _ _ _ h).trans (State.word_wr_ne _ _ _ _ h)

theorem State.gateShow_ni (s : State) (n t m : Nat) : (s.gateShow n t).ni m = s.ni m := by
  rw [State.gateShow_eq, State.wr_ni, State.wr_ni]

theorem State.rd_gateShow_pending (s : State) (n t : Nat) :
    (s.gateShow n t).rd (niB n) F.NI_GATE_STAT_PENDING = s.rd (niB n) F.NI_GATE_STAT_PENDING :=
  (State.rd_wr_apart _ _ _ _ _ (by rfl) (by decide) (by decide)).trans
    (State.rd_wr_apart _ _ _ _ _ (by rfl) (by decide) (by decide))

theorem State.gatesAt_of_closed {s : State} {n : Nat} (h : s.flag (niB n) F.NI_GATE_CTL_EN = false ∨ s.niTimeOk n = false)
    (t : Nat) : s.gatesAt n t = (0, 0xF) := by rw [State.gatesAt, if_pos h]

/-- An entry that has been found in error counts as all gates open (R593). -/
theorem State.gatesAt_of_bad {s : State} {n : Nat} (h : (s.ni n).gateBad = true) (t : Nat) : (s.gatesAt n t).2 = 0xF := by
  rw [State.gatesAt]
  split
  · rfl
  · rfl

/-! ### The start of a pending list (R278) -/

/-- `v` operates the list that the admin registers of `s` hold, from `g` on. -/
def State.Operates (s : State) (n g : Nat) (v : State) : Prop :=
  (v.ni n).gatePend = none ∧ (v.ni n).gateLive = true ∧ v.flag (niB n) F.NI_GATE_STAT_PENDING = false
    ∧ v.word64 (niB n + 0x720) = g % 2 ^ 64 ∧ v.rd (niB n) F.NI_GATE_OPER_LEN_LEN = s.admLen n
    ∧ v.rd (niB n) F.NI_GATE_OPER_CYCLE_CYCLE = s.admCycle n
    ∧ ∀ i, i < 512 → v.word (niB n + 0x3800 + 4 * i) = s.word (niB n + 0x3000 + 4 * i)

@[simp] theorem State.copyWords_ni (s : State) (src dst k n : Nat) : (s.copyWords src dst k).ni n = s.ni n := by
  suffices ∀ (l : List Nat) (a : State), (l.foldl (fun a i => a.setWord (dst + 4 * i) (a.word (src + 4 * i))) a).ni n = a.ni n from
    this _ s
  intro l
  induction l with
  | nil => exact fun _ => rfl
  | cons i r ih => exact fun a => ih _

/-- The operating registers as the admin ones set them, with start `g` and the list no longer pending. -/
def State.gateOper (u : State) (n g : Nat) : State :=
  let v := (u.setWord64 (niB n + 0x720) g).wr (niB n) F.NI_GATE_OPER_CYCLE_CYCLE (u.admCycle n)
  (v.wr (niB n) F.NI_GATE_OPER_LEN_LEN (v.admLen n)).wr (niB n) F.NI_GATE_STAT_PENDING 0

theorem State.gateOper_ni (u : State) (n g m : Nat) : (u.gateOper n g).ni m = u.ni m := by
  rw [State.gateOper, State.wr_ni, State.wr_ni, State.wr_ni, State.setWord64_ni]

theorem State.word_gateOper_ne (u : State) (n g : Nat) {o : Nat} (h : o ≠ niB n + 0x720) (h' : o ≠ niB n + 0x724)
    (hc : o ≠ niB n + 0x728) (hl : o ≠ niB n + 0x72C) (hp : o ≠ niB n + 0x708) : (u.gateOper n g).word o = u.word o := by
  rw [State.gateOper, State.word_wr_ne _ _ _ _ hp, State.word_wr_ne _ _ _ _ hl, State.word_wr_ne _ _ _ _ hc, State.setWord64,
    State.word_setWord_ne _ _ (by simpa using h'), State.word_setWord_ne _ _ h]

theorem State.rd_gateOper_pending (u : State) (n g : Nat) : (u.gateOper n g).rd (niB n) F.NI_GATE_STAT_PENDING = 0 := by
  rw [State.gateOper, State.rd_wr_same _ _ _ _ (by decide)]
  rfl

theorem State.word64_gateOper (u : State) (n g : Nat) : (u.gateOper n g).word64 (niB n + 0x720) = g % 2 ^ 64 := by
  rw [State.gateOper, State.word64_wr_ne _ _ _ _ (by simp) (by simp), State.word64_wr_ne _ _ _ _ (by simp) (by simp),
    State.word64_wr_ne _ _ _ _ (by simp) (by simp), State.word64_setWord64]

theorem State.rd_gateOper_cycle (u : State) (n g : Nat) : (u.gateOper n g).rd (niB n) F.NI_GATE_OPER_CYCLE_CYCLE = u.admCycle n := by
  rw [State.gateOper, State.rd_wr_ne _ _ _ _ _ _ (by simp), State.rd_wr_ne _ _ _ _ _ _ (by simp),
    State.rd_wr_same _ _ _ _ (by decide)]
  exact Nat.mod_eq_of_lt (u.rd_lt _ F.NI_GATE_ADM_CYCLE_CYCLE)

theorem State.rd_gateOper_len (u : State) (n g : Nat) : (u.gateOper n g).rd (niB n) F.NI_GATE_OPER_LEN_LEN = u.admLen n := by
  rw [State.gateOper, State.rd_wr_ne _ _ _ _ _ _ (by simp), State.rd_wr_same _ _ _ _ (by decide),
    State.admLen, Nat.mod_eq_of_lt (State.rd_lt _ _ F.NI_GATE_ADM_LEN_LEN), State.rd_wr_ne _ _ _ _ _ _ (by simp), State.setWord64,
    State.rd, State.word_setWord_ne _ _ (by simp), State.word_setWord_ne _ _ (by simp)]
  rfl

theorem State.operates_gateBegin {s : State} {n g : Nat} (h : (s.ni n).gatePend = some g) :
    s.Operates n g (s.gateBegin n) := by
  obtain ⟨x, hpend, hlive, hx⟩ : ∃ x : NiSt, x.gatePend = none ∧ x.gateLive = true
      ∧ s.gateBegin n = ((s.setNi n x).copyWords (niB n + 0x3000) (niB n + 0x3800) 512).gateOper n g := by
    unfold State.gateBegin
    dsimp only
    rw [h]
    exact ⟨_, rfl, rfl, rfl⟩
  have hcopy := (s.setNi n x).word_copyWords (src := niB n + 0x3000) (dst := niB n + 0x3800) (k := 512) (by omega)
  have hni : (s.gateBegin n).ni n = x := by
    rw [hx, State.gateOper_ni, State.copyWords_ni, State.ni_setNi_same]
  generalize (s.setNi n x).copyWords (niB n + 0x3000) (niB n + 0x3800) 512 = u at hcopy hx
  have hadm {o : Nat} (ho : o < niB n + 0x3800) : u.word o = s.word o := by
    rw [hcopy, if_neg (by omega), State.setNi_word]
  refine ⟨by rw [hni, hpend], by rw [hni, hlive], ?_, ?_, ?_, ?_, fun i hi => ?_⟩
  · rw [hx, State.flag_eq, State.rd_gateOper_pending]
    rfl
  · rw [hx, State.word64_gateOper]
  · rw [hx, State.rd_gateOper_len, State.admLen, State.rd, hadm (by simp), State.admLen, State.rd]
  · rw [hx, State.rd_gateOper_cycle, State.admCycle, State.rd, hadm (by simp), State.admCycle, State.rd]
  · rw [hx, State.word_gateOper_ne _ _ _ (by omega) (by omega) (by omega) (by omega) (by omega), hcopy, if_pos (by omega)]
    exact congrArg s.word (by omega)

/-- Showing the gates leaves the operating list as it stands. -/
theorem State.Operates.gateShow {s v : State} {n g : Nat} (h : s.Operates n g v) (t : Nat) : s.Operates n g (v.gateShow n t) := by
  have hw {o : Nat} (ho : o ≠ niB n + 0x708) : (v.gateShow n t).word o = v.word o := v.word_gateShow_ne n t ho
  obtain ⟨hpend, hlive, hshown, hbase, hlen, hcycle, hlist⟩ := h
  refine ⟨by rw [State.gateShow_ni, hpend], by rw [State.gateShow_ni, hlive], ?_, ?_, ?_, ?_, fun i hi => ?_⟩
  · rw [State.flag, State.rd_gateShow_pending, ← State.flag, hshown]
  · rw [← hbase, State.word64, hw (by simp), hw (by simp), State.word64]
  · rw [← hlen, State.rd, hw (by simp), State.rd]
  · rw [← hcycle, State.rd, hw (by simp), State.rd]
  · exact (hw (by omega)).trans (hlist i hi)

/-- Settles O39: GATE_STAT shows the walk's result, and a due list takes over the operating bank. -/
theorem gatesFollowTheirLists : Obligations.GatesFollowTheirLists := by
  unfold Obligations.GatesFollowTheirLists
  intro s n t
  refine ⟨fun hn => ⟨fun mem => ?_, ?_⟩, fun h => ?_, fun hn => ⟨?_, fun h => ⟨?_, fun cls hcls => ?_⟩, fun g hg hok hdue => ?_⟩⟩
  · exact congrArg (guardUnit s · _) hn
  · exact congrArg (guardUnit s · _) hn
  · change guardUnit s (s.hasNi n) _ = _
    rcases h with h | h | ⟨g, hg, hlt⟩
    · cases s.hasNi n <;> simp [h]
    · cases hn : s.hasNi n <;> cases hp : (s.ni n).gatePend <;> simp [h]
    · cases s.hasNi n <;> simp [hg, Nat.not_le.mpr hlt]
  · rintro mem u hu
    have hexec : exec (.gateUpdate n ⟨t, mem⟩) s = .next (u.gateShow n (s.wholeNs t)) := by
      subst hu
      refine (guardUnit_of hn _ _).trans ?_
      dsimp only
      cases mem
      · rfl
      · rw [if_pos rfl, State.wholeNs_memUncorr]
    refine ⟨_, hexec, State.rd_gateShow_gates _ _ _, State.rd_gateShow_entry _ _ _, fun hm => ?_, ?_⟩
    · rw [State.rd_gateShow_gates, State.gatesAt_of_bad (by simp [hu, hm])]
    · exact (onlyWords_wr _ _ _ _ (by simp)).trans (onlyWords_wr _ _ _ _ (by simp))
  · exact State.gatesAt_of_closed h _
  · rw [State.gateOpen, Bool.or_eq_true]
    refine .inr (List.all_eq_true.mpr fun k _ => ?_)
    rw [State.gatesAt_of_closed h]
    revert cls
    decide
  · refine ⟨(s.gateBegin n).gateShow n (s.wholeNs t), ?_, ?_⟩
    · change guardUnit s (s.hasNi n) _ = _
      simp [guardUnit_of hn, hg, hok, hdue]
    · exact (State.operates_gateBegin hg).gateShow (s.wholeNs t)

end Sys2Proof.Machine
end

section
/-! SUPPORT. The MSP's transfers (R485), boot and resets of the Starter core (R472, R475 to R480, R494, R502). -/

namespace Sys2Proof.Machine

/-! ### The MSP -/

theorem State.mspWrite_of_ok {s : State} {code : Byte} {l : List Byte} {pec : Option Byte} (off : Nat) (hr : s.mspReady = true)
    (hb : s.rd strB (F.STR_MBX_BUSY.ix 3) ≠ 1) (h1 : 1 ≤ l.length) (h2 : l.length ≤ 128)
    (hp : s.pecOk ([code, BitVec.ofNat 8 l.length] ++ l) pec = true) :
    s.mspWrite code off l pec = (s.pokeBytes (strB + 0x2600) off l).mspOut (some []) := by
  refine if_neg ?_
  rintro (h | h | h | h | h)
  · simp [hr] at h
  · exact hb h
  · omega
  · omega
  · exact absurd (hp.symm.trans h) (by decide)

theorem State.mspWrite_of_bad {s : State} {code : Byte} {l : List Byte} {pec : Option Byte} (off : Nat)
    (h : s.mspReady = false ∨ s.rd strB (F.STR_MBX_BUSY.ix 3) = 1 ∨ l.length = 0 ∨ 128 < l.length
      ∨ s.pecOk ([code, BitVec.ofNat 8 l.length] ++ l) pec = false) : s.mspWrite code off l pec = s.mspOut none := if_pos h

theorem State.mspRead_of_ready {s : State} (h : s.mspReady = true) (code : Byte) (off : Nat) :
    s.mspRead code off = s.mspData code (128 :: s.getBytes (strB + 0x2700 + off) 32) := if_neg (by simp [h])

theorem State.mspRead_of_asleep {s : State} (h : s.mspReady = false) (code : Byte) (off : Nat) :
    s.mspRead code off = s.mspOut none := if_pos h

theorem exec_mspDoorbell_of_bad {s : State} {d : Byte} {pec : Option Byte}
    (h : s.mspReady = false ∨ d ≠ 1 ∨ s.pecOk [0x12, d] pec = false) : exec (.mspDoorbell d pec) s = .next (s.mspOut none) :=
  congrArg Host.Outcome.next (if_pos h)

theorem exec_mspDoorbell_of_ok {s : State} {pec : Option Byte} (hr : s.mspReady = true) (hp : s.pecOk [0x12, 1] pec = true) :
    exec (.mspDoorbell 1 pec) s = .next ((s.doorbell 3).mspOut (some [])) :=
  congrArg Host.Outcome.next (if_neg fun h => by
    rcases h with h | h | h
    · exact absurd (hr.symm.trans h) (by decide)
    · exact h rfl
    · exact absurd (hp.symm.trans h) (by decide))

theorem exec_mspStatusRead_of_asleep {s : State} (h : s.mspReady = false) : exec .mspStatusRead s = .next (s.mspOut none) :=
  congrArg Host.Outcome.next (if_pos h)

/-- Settles O16: each transfer by whether the block is awake and the transfer well formed. -/
theorem mspTransfers : Obligations.MspTransfers := by
  unfold Obligations.MspTransfers
  intro s
  refine ⟨fun hr => ⟨fun l pec hb h1 h2 => ⟨fun hp => ?_, fun hp => ?_⟩, fun l pec => ⟨fun h => ?_, fun h => ?_⟩,
    fun pec hp => ⟨fun hb => ?_, fun hb => ?_⟩, fun d pec h => ?_, ?_, ?_, ?_, ?_⟩,
    fun hr => ⟨fun l d pec => ⟨?_, ?_, ?_, ?_, ?_, ?_⟩, ?_⟩, fun hm => ?_, fun hm => ?_⟩
  · exact congrArg Host.Outcome.next (State.mspWrite_of_ok 0 hr hb h1 h2 hp)
  · exact congrArg Host.Outcome.next (State.mspWrite_of_ok 128 hr hb h1 h2 hp)
  · exact congrArg Host.Outcome.next (State.mspWrite_of_bad 0 (.inr h))
  · exact congrArg Host.Outcome.next (State.mspWrite_of_bad 128 (.inr h))
  · rw [exec_mspDoorbell_of_ok hr hp, State.doorbell, if_neg hb]
    rfl
  · rw [exec_mspDoorbell_of_ok hr hp, State.doorbell, if_pos hb]
  · exact exec_mspDoorbell_of_bad (.inr h)
  · exact congrArg Host.Outcome.next (if_neg (by simp [hr]))
  · exact congrArg Host.Outcome.next (State.mspRead_of_ready hr 0x14 0)
  · exact congrArg Host.Outcome.next (State.mspRead_of_ready hr 0x15 128)
  · exact congrArg Host.Outcome.next (if_pos hr)
  · exact congrArg Host.Outcome.next (State.mspWrite_of_bad 0 (.inl hr))
  · exact congrArg Host.Outcome.next (State.mspWrite_of_bad 128 (.inl hr))
  · exact exec_mspDoorbell_of_bad (.inl hr)
  · exact exec_mspStatusRead_of_asleep hr
  · exact congrArg Host.Outcome.next (State.mspRead_of_asleep hr 0x14 0)
  · exact congrArg Host.Outcome.next (State.mspRead_of_asleep hr 0x15 128)
  · exact ⟨_, congrArg Host.Outcome.next (if_neg (by simp [hr])), rfl⟩
  · exact congrArg Host.Outcome.next (if_neg (by simp [hm]))
  · exact ⟨_, congrArg Host.Outcome.next (if_pos hm), rfl, rfl, rfl⟩

/-! ### Boot -/

theorem State.selfcheck_of_due {s : State} (hrst : s.pacer.rst = 0) (hst : s.rd strB F.STR_BOOT_STATE = 0)
    (hready : s.ready = true ∨ 3 ≤ s.rd glbB F.GLB_START_STAT_STEP) (ok : Bool) : s.selfcheck ok =
      if (ok && bootRomOk) = false then s.bootFail 6
      else s.wr strB F.STR_BOOT_STATE (if s.flag strB F.STR_BOOT_FW_OK then 2 else 1) := by
  rw [State.selfcheck, if_neg, ← apply_ite s.bootGo, State.bootGo]
  rintro (h | h | ⟨h, h'⟩)
  · exact h hrst
  · exact h hst
  · rcases hready with hr | hr
    · simp [h] at hr
    · omega

theorem State.verify_of_state {s : State} (h : s.rd strB F.STR_BOOT_STATE = 2) : s.verify =
    if s.imageErr = 0 then
      { ((((((s.wr strB F.STR_BOOT_STATE 3).wr strB F.STR_BOOT_ERR 0).wr strB F.STR_BOOT_FW_OK 1).wr strB F.STR_FW_VER_VER
        (s.sramNat 16 4)).wr cmxB F.CMX_CTL_REMAP 1).wr glbB F.GLB_SC0_STAT_FLOOR_BUSY 1) with floorRun := true }
    else (s.wr strB F.STR_BOOT_FW_OK 0).bootFail s.imageErr := by
  rw [State.verify, if_neg (not_not.mpr h)]
  dsimp only
  by_cases he : s.imageErr = 0
  · rw [if_neg (not_not.mpr he), if_pos he]
    rfl
  · rw [if_pos he, if_neg he]

/-! ### Resets of the Starter core -/

/-- What a state keeps in which replies have gone out: all but registers, NIs and the commands in execution. -/
def State.NearCmds (s t : State) : Prop := { t with csr := s.csr, nis := s.nis, cmds := s.cmds } = s

theorem State.NearCmds.trans {s t u : State} (h : s.NearCmds t) (k : t.NearCmds u) : s.NearCmds u := by
  unfold State.NearCmds at *
  rw [← h, ← k]

theorem State.NearCmds.cmdQ {s t : State} (h : s.NearCmds t) : t.cmdQ = s.cmdQ := by
  have e := congrArg State.cmdQ h
  exact e

theorem State.NearCmds.starter {s t : State} (h : s.NearCmds t) : t.starter = s.starter := by
  have e := congrArg State.starter h
  exact e

theorem State.NearCmds.time {s t : State} (h : s.NearCmds t) : t.time = s.time := by
  have e := congrArg State.time h
  exact e

theorem State.NearCmds.clock {s t : State} (h : s.NearCmds t) : t.clock = s.clock := by
  have e := congrArg State.clock h
  exact e

theorem State.Near.nearCmds {s t : State} (h : s.Near t) : s.NearCmds t := by
  unfold State.NearCmds
  rw [← h.cmds]
  exact h

theorem State.nearCmds_reply (s : State) (x status : Nat) (data : List Byte) : s.NearCmds (s.reply x status data) := by
  have hdrop : s.NearCmds { s with cmds := s.cmds.filter (fun d => d.id != x) } := rfl
  cases hc : s.cmd x with
  | none => rw [s.reply_none hc]; rfl
  | some c =>
    rcases State.reply_eq_or hc status data with e | e <;> rw [e]
    · exact hdrop
    · exact hdrop.trans (State.near_sendReply _ c status data).nearCmds

/-- A reply leaves the other commands in execution. -/
theorem State.cmds_reply (s : State) (x status : Nat) (data : List Byte) :
    (s.reply x status data).cmds = s.cmds.filter (fun d => d.id != x) := by
  cases hc : s.cmd x with
  | none =>
    rw [s.reply_none hc, List.filter_eq_self.mpr]
    intro d hd
    simpa using List.find?_eq_none.mp hc d hd
  | some c =>
    rcases State.reply_eq_or hc status data with e | e <;> rw [e]
    exact (State.near_sendReply _ c status data).cmds

/-- The commands of `l` are answered with `status`, in order. -/
def State.replyAll (s : State) (l : List Cmd) (status : Nat) : State := l.foldl (fun a c => a.reply c.id status []) s

theorem State.nearCmds_replyAll (l : List Cmd) (status : Nat) : ∀ s : State, s.NearCmds (s.replyAll l status) := by
  induction l with
  | nil => exact fun _ => rfl
  | cons c r ih => exact fun s => (s.nearCmds_reply c.id status []).trans (ih _)

theorem State.mem_cmds_replyAll {l : List Cmd} {status : Nat} {d : Cmd} :
    ∀ {s : State}, d ∈ (s.replyAll l status).cmds → d ∈ s.cmds ∧ d ∉ l := by
  induction l with
  | nil => exact fun h => ⟨h, List.not_mem_nil⟩
  | cons c r ih =>
    intro s h
    obtain ⟨h1, h2⟩ := ih h
    rw [State.cmds_reply, List.mem_filter] at h1
    obtain ⟨hd, hne⟩ := h1
    refine ⟨hd, fun hm => ?_⟩
    rcases List.mem_cons.mp hm with rfl | hm
    · simp at hne
    · exact h2 hm

/-- Answering every command leaves none in execution. -/
theorem State.cmds_replyAll_self (s : State) (status : Nat) : (s.replyAll s.cmds status).cmds = [] := by
  refine List.eq_nil_iff_forall_not_mem.mpr fun d hd => ?_
  obtain ⟨h1, h2⟩ := State.mem_cmds_replyAll hd
  exact h2 h1

/-! ### Locks that break -/

/-- A broken lock shows: the cut-off of its owner `m`, the log of the first one, and the event (R462, R467). -/
def State.breakShown (s : State) (m t cause : Nat) : State :=
  let s := s.wr cmxB (F.CMX_MST_STAT_CUT.ix m) 1
  let s := if s.flag cmxB F.CMX_LB_LOG_VALID then s else
    (((s.wr cmxB F.CMX_LB_LOG_TARGET t).wr cmxB F.CMX_LB_LOG_OWNER m).wr cmxB F.CMX_LB_LOG_CAUSE cause).wr cmxB
      F.CMX_LB_LOG_VALID 1
  s.glEvent 5 0

/-- What a broken lock changes: the Control Matrix, its registers behind CTL, and the event unit. -/
structure State.CmxOnly (s t : State) : Prop where
  rest : { t with csr := s.csr, nis := s.nis, cmx := s.cmx } = s
  keep : ∀ o, o < evtB ∨ o = cmxB → t.word o = s.word o

namespace State.CmxOnly

variable {s t u : State}

theorem refl (s : State) : s.CmxOnly s := ⟨rfl, fun _ _ => rfl⟩

theorem trans (h : s.CmxOnly t) (k : t.CmxOnly u) : s.CmxOnly u := by
  refine ⟨?_, fun o ho => (k.keep o ho).trans (h.keep o ho)⟩
  obtain ⟨hr, -⟩ := h
  obtain ⟨kr, -⟩ := k
  rw [← hr, ← kr]

theorem cmxSet (s : State) (c : Cmx) : s.CmxOnly { s with cmx := c } := ⟨rfl, fun _ _ => rfl⟩

theorem wr (s : State) {f : Fld} (v : Nat) (h : 0 < f.off) : s.CmxOnly (s.wr cmxB f v) :=
  ⟨rfl, fun o ho => s.word_wr_ne _ _ _ (by simp only [evtB, cmxB] at ho ⊢; omega)⟩

theorem of_near {s t : State} (h : s.Near t) (hk : ∀ o, o < evtB ∨ o = cmxB → t.word o = s.word o) : s.CmxOnly t := by
  refine ⟨?_, hk⟩
  have e : t.cmx = s.cmx := by
    have e := congrArg State.cmx h
    exact e
  rw [← e]
  exact h

theorem glEvent (s : State) {g : Nat} (hg : g < 16) (i : Nat) : s.CmxOnly (s.glEvent g i) :=
  of_near (s.near_glEvent g i) fun o ho => (s.keepsAt_glEvent hg i).1 o (by simp only [OffEvt, evtB, cmxB] at ho ⊢; omega)

theorem breakShown (s : State) (m t cause : Nat) : s.CmxOnly (s.breakShown m t cause) := by
  have hcut : s.CmxOnly (s.wr cmxB (F.CMX_MST_STAT_CUT.ix m) 1) := wr s 1 (by simp only [Fld.ix]; omega)
  unfold State.breakShown
  dsimp only
  generalize s.wr cmxB (F.CMX_MST_STAT_CUT.ix m) 1 = a at hcut ⊢
  split
  · exact hcut.trans (glEvent a (by decide) 0)
  · exact hcut.trans (((((wr a _ (by decide)).trans (wr _ _ (by decide))).trans (wr _ _ (by decide))).trans
      (wr _ _ (by decide))).trans (glEvent _ (by decide) 0))

theorem breakLock (s : State) (t cause : Nat) : s.CmxOnly (s.breakLock t cause) := by
  unfold State.breakLock
  split
  · exact refl s
  next m _ _ => exact (cmxSet s _).trans (breakShown _ m t cause)

theorem breakWhenDone (s : State) (t cause : Nat) : s.CmxOnly (s.breakWhenDone t cause) := by
  unfold State.breakWhenDone
  split
  · exact refl s
  · split
    · exact cmxSet s _
    · exact breakLock s t cause

/-- An owner's reset breaks its locks and mutes its accesses, and does no more (R448, R467). -/
theorem ownerReset (s : State) (m : Nat) : s.CmxOnly (s.ownerReset m) := by
  have hfold (l : List Nat) : ∀ s : State, s.CmxOnly (l.foldl (fun a t => a.breakWhenDone t 0) s) := by
    induction l with
    | nil => exact refl
    | cons t r ih => exact fun s => (breakWhenDone s t 0).trans (ih _)
  exact (hfold _ s).trans (cmxSet _ _)

theorem rd (h : s.CmxOnly t) {b : Nat} {f : Fld} (ho : b + f.off < evtB ∨ b + f.off = cmxB) : t.rd b f = s.rd b f := by
  rw [State.rd, h.keep _ ho, State.rd]

end State.CmxOnly

/-- The registers of a Starter core that starts again: START, and REMAP off (R472, R475). -/
def State.coreRegs (s : State) : State := (s.wr strB F.STR_BOOT_STATE 0).wr cmxB F.CMX_CTL_REMAP 0

theorem State.coreReset_eq (s : State) : s.coreReset =
    { ((s.replyAll s.cmds 8).coreRegs.ownerReset 1) with
      floorRun := false
      starter := { ((s.replyAll s.cmds 8).coreRegs.ownerReset 1).starter with
        wdog := ((s.replyAll s.cmds 8).coreRegs.ownerReset 1).clock } } := rfl

/-- What a reset of the core leaves (R472, R480, R494). -/
theorem State.coreReset_spec (s : State) : s.coreReset.cmds = [] ∧ s.coreReset.rd strB F.STR_BOOT_STATE = 0
    ∧ s.coreReset.rd cmxB F.CMX_CTL_REMAP = 0 ∧ s.coreReset.cmdQ = s.cmdQ ∧ s.coreReset.starter.sram = s.starter.sram
    ∧ s.coreReset.starter.wdog = s.clock ∧ s.coreReset.floorRun = false := by
  have hreply := State.nearCmds_replyAll s.cmds 8 s
  have hcmds := s.cmds_replyAll_self 8
  rw [State.coreReset_eq]
  generalize s.replyAll s.cmds 8 = a at hreply hcmds
  obtain ⟨hrest, -⟩ := State.CmxOnly.ownerReset a.coreRegs 1
  have hkeep := State.CmxOnly.ownerReset a.coreRegs 1
  generalize a.coreRegs.ownerReset 1 = b at hrest hkeep
  have hboot : b.rd strB F.STR_BOOT_STATE = 0 := by
    rw [hkeep.rd (.inl (by decide)), State.coreRegs, State.rd_wr_ne _ _ _ _ _ _ (by decide), State.rd_wr_same _ _ _ _ (by decide)]
    rfl
  have hremap : b.rd cmxB F.CMX_CTL_REMAP = 0 := by
    rw [hkeep.rd (.inr rfl), State.coreRegs, State.rd_wr_same _ _ _ _ (by decide)]
    rfl
  have h1 : b.cmds = [] := (congrArg State.cmds hrest).trans hcmds
  have h2 : b.cmdQ = s.cmdQ := (congrArg State.cmdQ hrest).trans hreply.cmdQ
  have h3 : b.starter = s.starter := (congrArg State.starter hrest).trans hreply.starter
  have h4 : b.clock = s.clock := (congrArg State.clock hrest).trans hreply.clock
  refine ⟨h1, hboot, hremap, h2, ?_, h4, rfl⟩
  change b.starter.sram = s.starter.sram
  rw [h3]

/-- Settles O15: the branches of the self-check and of the verification, and what a reset of the core leaves. -/
theorem bootAndStarterCoreReset : Obligations.BootAndStarterCoreReset := by
  unfold Obligations.BootAndStarterCoreReset
  refine ⟨fun s => ⟨fun hrst hst hready => ⟨?_, ?_⟩, fun h ok => ?_, fun h => ?_, fun h => ?_⟩, fun s => ⟨?_, fun h => ?_, fun h => ⟨?_, ?_⟩⟩⟩
  · refine congrArg Host.Outcome.next ((State.selfcheck_of_due hrst hst hready true).trans ?_)
    cases bootRomOk <;> rfl
  · exact congrArg Host.Outcome.next (State.selfcheck_of_due hrst hst hready false)
  · exact congrArg Host.Outcome.next (if_pos h)
  · exact congrArg Host.Outcome.next (if_pos h)
  · exact congrArg Host.Outcome.next (State.verify_of_state h)
  · exact ⟨_, rfl, s.coreReset_spec⟩
  · exact congrArg Host.Outcome.next (if_pos h)
  · exact congrArg Host.Outcome.next (if_neg h)
  · rfl

end Sys2Proof.Machine
end

section
/-! SUPPORT. The general commands, and a command past its limit (R484, R486, R488, R492, R496, R525). -/

namespace Sys2Proof.Machine

/-! ### What a command's beginning leaves alone -/

theorem State.length_active_begin (s : State) (x : Nat) : (s.begin x).active.length = s.active.length := by
  unfold State.active State.begin
  rw [List.filter_map, List.length_map]
  refine congrArg List.length (List.filter_congr fun c _ => ?_)
  rw [Function.comp_apply]
  split <;> rfl

theorem State.cmdStat_begin (s : State) (x : Nat) : (s.begin x).cmdStat = s.cmdStat := by
  rw [State.cmdStat, s.length_active_begin, State.cmdStat]
  rfl

theorem exec_info_of_issued {s : State} {x : Nat} {c : Cmd} (h : s.Issued x 0x01 [] c) : exec (.info x) s =
    .next ((s.begin x).reply x 0 (leBytes 4 (s.rd strB F.STR_FW_VER_VER) ++ leBytes 4 s.rom.genId ++ leBytes 4 s.cmdStat)) := by
  rw [← s.cmdStat_begin x]
  exact congrArg Host.Outcome.next (State.runCmd_issued s h _)

theorem exec_claimStatus_of_issued {s : State} {x : Nat} {c : Cmd} (h : s.Issued x 0x02 [(0, 2), (8, 8)] c) :
    exec (.claimStatus x) s = .next (if s.claimOk (c.p 0 2) (c.p 8 8) then (s.begin x).reply x 0
      (leBytes 1 (s.claimOf (c.p 0 2) (c.p 8 8)).1 ++ leBytes 1 (s.claimOf (c.p 0 2) (c.p 8 8)).2)
      else (s.begin x).reply x 3 []) :=
  congrArg Host.Outcome.next (State.runCmd_issued s h _)

/-! ### A command past its limit (R492) -/

theorem State.cmdTimeout_of_leave {s : State} {x : Nat} {c : Cmd} {l : Leave} (hc : s.cmd x = some c)
    (hl : s.leaveOf c = some l) : s.cmdTimeout x =
      (match l.kind with
        | 2 => (s.give l.kind l.who).updPln l.who (fun v => { v with test := none })
        | 3 => (s.give l.kind l.who).updLk l.who (fun k => { k with want := 0, cmd := none })
        | _ => s.give l.kind l.who).reply x 7 [] := by
  rw [State.cmdTimeout, hc]
  dsimp only
  rw [hl] <;> rfl

theorem State.cmdTimeout_of_late {s : State} {x : Nat} {c : Cmd} (hc : s.cmd x = some c) (hl : s.leaveOf c = none)
    (hlate : c.late = true) : s.cmdTimeout x = { s with cmds := s.cmds.filter (fun d => d.id != x) } := by
  rw [State.cmdTimeout, hc]
  dsimp only
  rw [hl]
  dsimp only
  rw [hlate, Bool.or_true, if_pos rfl, s.reply_late hc hlate]

/-- The commands in execution once `c` has been answered TIMEOUT: one that has still to take effect stays, answered. -/
def State.timedOut (s : State) (x : Nat) (c : Cmd) : State :=
  { s with cmds := if c.begun then s.cmds.filter (fun d => d.id != x)
                   else s.cmds.map (fun d => if d.id = x then { d with late := true } else d) }

theorem State.cmdTimeout_of_waiting {s : State} {x : Nat} {c : Cmd} (hc : s.cmd x = some c) (hl : s.leaveOf c = none)
    (hlate : c.late = false) : s.cmdTimeout x = (s.timedOut x c).sendReply c 0x000C [] := by
  rw [State.cmdTimeout, hc]
  dsimp only
  rw [hl]
  dsimp only
  rw [hlate, Bool.or_false, State.timedOut]
  cases hb : c.begun
  · rw [if_neg Bool.false_ne_true, if_neg Bool.false_ne_true]
  · rw [if_pos rfl, if_pos rfl, s.reply_of hc hlate]

theorem find_map_late (l : List Cmd) (x : Nat) :
    (l.map (fun c => if c.id = x then { c with late := true } else c)).find? (fun c => c.id == x)
      = (l.find? (fun c => c.id == x)).map (fun c => { c with late := true }) := by
  induction l with
  | nil => rfl
  | cons a r ih =>
    rw [List.map_cons, List.find?_cons, List.find?_cons, ih]
    by_cases h : a.id = x
    · rw [if_pos h, beq_iff_eq.mpr h]
      rfl
    · rw [if_neg h, beq_eq_false_iff_ne.mpr h]

theorem State.cmd_timedOut {s : State} {x : Nat} {c : Cmd} (hc : s.cmd x = some c) :
    (s.timedOut x c).cmd x = if c.begun then none else some { c with late := true } := by
  unfold State.timedOut State.cmd at *
  by_cases hb : c.begun = true
  · rw [if_pos hb, if_pos hb, List.find?_eq_none]
    intro d hd
    simpa using (List.mem_filter.mp hd).2
  · rw [if_neg hb, if_neg hb, find_map_late, hc, Option.map_some]

/-- Settles O14: the replies of the general commands, and the three ends of a command past its limit. -/
theorem generalCommandsAndTimeouts : Obligations.GeneralCommandsAndTimeouts := by
  unfold Obligations.GeneralCommandsAndTimeouts
  refine ⟨fun s x c => ⟨fun h => ?_, exec_info_of_issued, fun h hok => ?_, fun h hok => ?_, fun h => ?_⟩,
    fun s x => ⟨fun h => ?_, fun c hc => ⟨?_, fun hl hlate => ?_, ?_⟩⟩⟩
  · exact congrArg Host.Outcome.next (State.runCmd_issued s h _)
  · rw [exec_claimStatus_of_issued h, if_pos hok]
  · rw [exec_claimStatus_of_issued h, if_neg (by simp [hok])]
  · exact congrArg Host.Outcome.next (State.runCmd_issued s h _)
  · change Host.Outcome.next (s.cmdTimeout x) = _
    rw [State.cmdTimeout, h]
  · rintro l w hl rfl
    have h : exec (.cmdTimeout x) s = .next _ := congrArg Host.Outcome.next (State.cmdTimeout_of_leave hc hl)
    refine ⟨fun hk => ?_, fun hk => ?_, fun hk => ?_⟩ <;> rw [hk] at h ⊢ <;> exact h
  · exact congrArg Host.Outcome.next (State.cmdTimeout_of_late hc hl hlate)
  · rintro hl hlate v w hw hv
    have h : exec (.cmdTimeout x) s = .next ((s.timedOut x c).sendReply c 0x000C []) :=
      congrArg Host.Outcome.next (State.cmdTimeout_of_waiting hc hl hlate)
    have hcmd := State.cmd_timedOut hc
    change w = s.timedOut x c at hw
    rw [← hw] at h hcmd
    have hclock : w.clock = s.clock := by rw [hw]; rfl
    have hnoted : w.replyNoted 0x000C = v := hv.symm
    refine ⟨fun hp => ?_, fun hp m hm => ?_, _, h, ?_⟩
    · rw [h, State.sendReply_eq, if_pos hp, hnoted, hclock]
    · rw [h, State.sendReply_eq, if_neg hp, hnoted, hclock, hm]
      rfl
    · rw [(State.near_sendReply w c _ _).cmd, hcmd]

end Sys2Proof.Machine
end

section
/-! SUPPORT. What follows from a change of the time state (R281, R294, R306, R323): TIME.STAT, its event, and validity at the NIs. -/

namespace Sys2Proof.Machine

/-! ### Words of the Time Unit, and what keeps them -/

/-- Offsets below the event unit but TIME.STAT. -/
abbrev OffTim (o : Nat) : Prop := o < evtB ∧ o ≠ timB + 4

theorem State.KeepsAt.alert_off {P : Nat → Prop} (hP : ∀ o, P o → o < evtB) (s : State) (n i : Nat) : s.KeepsAt P (s.alert n i) := by
  have h := s.keepsAt_raise (srcAlert n) i
  refine (State.KeepsAt.setBit i fun ho => ?_).trans (h.mono fun o ho => .inl (hP o ho))
  have := hP _ ho
  simp only [srcAlert, niB, evtB] at this
  omega

theorem State.KeepsAt.notice_off {P : Nat → Prop} (hP : ∀ o, P o → o < evtB) (s : State) (n i : Nat) : s.KeepsAt P (s.notice n i) := by
  have h := s.keepsAt_raise (srcNotice n) i
  refine (State.KeepsAt.setBit i fun ho => ?_).trans (h.mono fun o ho => .inl (hP o ho))
  have := hP _ ho
  simp only [srcNotice, niB, evtB] at this
  omega

theorem State.KeepsAt.glEvent_off {P : Nat → Prop} (hP : ∀ o, P o → o < evtB) (s : State) {g : Nat} (hg : g < 16) (i : Nat) :
    s.KeepsAt P (s.glEvent g i) := (s.keepsAt_glEvent hg i).mono fun o ho => .inl (hP o ho)

theorem State.KeepsAt.wrNi_off {P : Nat → Prop} (hP : ∀ o, P o → o < evtB) (s : State) (n : Nat) (f : Fld) (v : Nat) :
    s.KeepsAt P (s.wr (niB n) f v) := by
  refine .wr v fun ho => ?_
  have := hP _ ho
  simp only [niB, evtB] at this
  omega

/-! ### `State.refreshTime`, part by part -/

/-- Whether time is valid at the root by the time state. -/
def State.timeGood (s : State) : Bool := stateValid (s.rd timB F.TIM_STAT_STATE) && s.time.carrier && !s.time.win

/-- TIME.STAT shows the time state. -/
def State.timeShown (s : State) : State :=
  let s1 := (s.wr timB F.TIM_STAT_VALID (b2n s.timeGood)).wr timB F.TIM_STAT_TRACE
    (b2n (s.rd timB F.TIM_STAT_STATE == 3 || s.rd timB F.TIM_STAT_STATE == 4))
  let s2 := (s1.wr timB F.TIM_STAT_CAL_BUSY (b2n s1.calBusy)).wr timB F.TIM_STAT_FREEZE
    (b2n (!s.time.freezes.isEmpty || s.time.nodes.any (fun e => e.2.frozen)))
  (s2.wr timB F.TIM_STAT_STEP_PEND (b2n s.time.step.isSome)).wr timB F.TIM_STAT_SLEW (b2n s.time.slew.isSome)

/-- TIME.STAT and the event of a change of validity. -/
def State.timeTold (s : State) : State := if s.rootOk != s.timeGood then s.timeShown.glEvent 0 1 else s.timeShown

/-- NI `n` takes its validity from its node. -/
def State.niTimed (n : Nat) (a : State) : State :=
  let r := (niRec a.rom n).rtr
  let ok := a.nodeOk r
  let a := a.wr (niB n) F.NI_TIME_STAT_FROZEN (b2n (a.node r).frozen)
  if a.niTimeOk n = ok then a
  else
    let a := a.wr (niB n) F.NI_TIME_STAT_VALID (b2n ok)
    if ok then a
    else (((a.wr (niB n) F.NI_TIME_STAT_LOST 1).wr (niB n) F.NI_GATE_STAT_TIME_LOST 1).notice n 2)

theorem State.refreshTime_eq (s : State) : s.refreshTime = forAll s.timeTold.rom.nis.length State.niTimed s.timeTold := rfl

theorem State.near_timeShown (s : State) : s.Near s.timeShown :=
  (((((State.Near.wr _ _ _ _).trans (.wr _ _ _ _)).trans (.wr _ _ _ _)).trans (.wr _ _ _ _)).trans (.wr _ _ _ _)).trans (.wr _ _ _ _)

theorem State.near_timeTold (s : State) : s.Near s.timeTold := by
  unfold State.timeTold
  split
  · exact s.near_timeShown.trans (State.near_glEvent _ _ _)
  · exact s.near_timeShown

theorem State.near_niTimed (n : Nat) (a : State) : a.Near (a.niTimed n) := by
  unfold State.niTimed
  dsimp only
  generalize (a.nodeOk _) = ok
  have h1 : a.Near (a.wr (niB n) F.NI_TIME_STAT_FROZEN (b2n (a.node (niRec a.rom n).rtr).frozen)) := .wr _ _ _ _
  generalize a.wr (niB n) F.NI_TIME_STAT_FROZEN (b2n (a.node (niRec a.rom n).rtr).frozen) = b at h1 ⊢
  split
  · exact h1
  · split
    · exact h1.trans (.wr _ _ _ _)
    · exact ((h1.trans (.wr _ _ _ _)).trans ((State.Near.wr _ _ _ _).trans (.wr _ _ _ _))).trans (State.near_raise _ _ _)

/-- Beyond registers and messages nothing follows from a change of the time state. -/
theorem State.near_refreshTime (s : State) : s.Near s.refreshTime := by
  rw [State.refreshTime_eq]
  exact s.near_timeTold.trans (forAll_induction State.Near.refl State.Near.trans _ (fun n _ a => a.near_niTimed n) _)

theorem State.keepsAt_niTimed {P : Nat → Prop} (hP : ∀ o, P o → o < evtB) (n : Nat) (a : State) : a.KeepsAt P (a.niTimed n) := by
  unfold State.niTimed
  dsimp only
  generalize (a.nodeOk _) = ok
  have h1 : a.KeepsAt P (a.wr (niB n) F.NI_TIME_STAT_FROZEN (b2n (a.node (niRec a.rom n).rtr).frozen)) := .wrNi_off hP _ _ _ _
  generalize a.wr (niB n) F.NI_TIME_STAT_FROZEN (b2n (a.node (niRec a.rom n).rtr).frozen) = b at h1 ⊢
  split
  · exact h1
  · split
    · exact h1.trans (.wrNi_off hP _ _ _ _)
    · exact (h1.trans (.wrNi_off hP _ _ _ _)).trans
        (((State.KeepsAt.wrNi_off hP _ _ _ _).trans (.wrNi_off hP _ _ _ _)).trans (.notice_off hP _ _ _))

theorem State.keepsAt_refreshTime_told {P : Nat → Prop} (hP : ∀ o, P o → o < evtB) (s : State) : s.timeTold.KeepsAt P s.refreshTime := by
  rw [State.refreshTime_eq]
  exact forAll_induction State.KeepsAt.refl State.KeepsAt.trans _ (fun n _ a => a.keepsAt_niTimed hP n) _

theorem State.keepsAt_timeTold_shown {P : Nat → Prop} (hP : ∀ o, P o → o < evtB) (s : State) : s.timeShown.KeepsAt P s.timeTold := by
  unfold State.timeTold
  split
  · exact .glEvent_off hP _ (by decide) _
  · exact .refl _

theorem State.keepsAt_timeShown (s : State) : s.KeepsAt OffTim s.timeShown := by
  have h (a : State) {f : Fld} (v : Nat) (hf : f.off = 4) : a.KeepsAt OffTim (a.wr timB f v) := .wr v (by simp [OffTim, hf])
  exact (((((h _ _ rfl).trans (h _ _ rfl)).trans (h _ _ rfl)).trans (h _ _ rfl)).trans (h _ _ rfl)).trans (h _ _ rfl)

/-- Below the event unit, only TIME.STAT changes. -/
theorem State.keepsAt_refreshTime (s : State) : s.KeepsAt OffTim s.refreshTime :=
  (s.keepsAt_timeShown.trans (s.keepsAt_timeTold_shown fun _ h => h.1)).trans (s.keepsAt_refreshTime_told fun _ h => h.1)

/-- What TIME.STAT shows after the change is what it is written. -/
theorem State.rd_refreshTime_stat (s : State) {f : Fld} (hf : timB + f.off < evtB) : s.refreshTime.rd timB f = s.timeShown.rd timB f := by
  have h : s.timeShown.KeepsAt (· < evtB) s.refreshTime :=
    (s.keepsAt_timeTold_shown fun _ h => h).trans (s.keepsAt_refreshTime_told fun _ h => h)
  exact h.rd hf

/-- The fields of TIME.STAT that other rules write: STATE, CARRIER_OK, and the sticky bits (R323). -/
theorem State.rd_refreshTime_apart (s : State) {f : Fld} (hoff : f.off = 4)
    (hd : f.lo + f.w ≤ 4 ∨ f.lo = 6 ∧ f.w = 1 ∨ 11 ≤ f.lo) : s.refreshTime.rd timB f = s.rd timB f := by
  rw [s.rd_refreshTime_stat (by rw [hoff]; decide)]
  have h (a : State) {g : Fld} (v : Nat) (hg : g.off = 4) (hw : g.w = 1) (hl : g.lo < 11 ∧ 4 ≤ g.lo ∧ g.lo ≠ 6) :
      (a.wr timB g v).rd timB f = a.rd timB f := by
    obtain ⟨h1, h2, h3⟩ := hl
    exact a.rd_wr_apart _ _ _ _ (hoff.trans hg.symm) (by omega) (by omega)
  unfold State.timeShown
  dsimp only
  rw [h _ _ rfl rfl (by decide), h _ _ rfl rfl (by decide), h _ _ rfl rfl (by decide), h _ _ rfl rfl (by decide),
    h _ _ rfl rfl (by decide), h _ _ rfl rfl (by decide)]

/-- Time is valid at the root as the time state says (R306). -/
theorem State.rootOk_refreshTime (s : State) : s.refreshTime.rootOk = s.timeGood := by
  have h (a : State) {g : Fld} (v : Nat) (hg : g.off = 4) (hw : g.w = 1) (hl : g.lo < 11 ∧ 5 ≤ g.lo) :
      (a.wr timB g v).rd timB F.TIM_STAT_VALID = a.rd timB F.TIM_STAT_VALID := by
    obtain ⟨h1, h2⟩ := hl
    exact a.rd_wr_apart _ _ _ _ hg.symm (by omega) (.inr h2)
  rw [State.rootOk, State.flag, s.rd_refreshTime_stat (by decide)]
  unfold State.timeShown
  dsimp only
  rw [h _ _ rfl rfl (by decide), h _ _ rfl rfl (by decide), h _ _ rfl rfl (by decide), h _ _ rfl rfl (by decide),
    h _ _ rfl rfl (by decide), State.rd_wr_same _ _ _ _ (by decide)]
  cases s.timeGood <;> rfl

theorem State.time_refreshTime (s : State) : s.refreshTime.time = s.time := s.near_refreshTime.time

end Sys2Proof.Machine
end

section
/-! SUPPORT. Span time offsets, holdover, the carrier and slews (R305, R306, R311, R312, R320, R322). -/

namespace Sys2Proof.Machine

/-! ### Span time -/

/-- With the reference in force the one selected, a sample adopts nothing. -/
theorem State.adopt_of_eq {s : State} (h : s.timeSrc = s.srcSel) (k : Nat) : s.adopt k = s := if_pos (.inr h)

/-- The link of Span port `k` has ended an exchange with offset `o`. -/
def State.exchanged (s : State) (k : Nat) (v : Int × Nat × Nat) : State :=
  (s.updLk (4 * k) (fun l => { l with exch := none })).updTime (fun t => { t with
    spanO := mset (fun _ => ((0 : Int), (0 : Nat), (0 : Nat))) t.spanO k v })

theorem exec_spanTimeExchange_of_role {s : State} {k t1 t2 t3 t4 : Nat} (hk : s.hasSpan k = true)
    (hr : s.rd (spB k) F.SP_TIME_CFG_ROLE = 2) (he : (s.lk (4 * k)).exch = some (t1, t2, t3, t4)) {sum : Int} {n skip : Nat}
    (hv : mget (fun _ => ((0 : Int), (0 : Nat), (0 : Nat))) s.time.spanO k = (sum, n, skip)) :
    exec (.spanTimeExchange k t1 t2 t3 t4) s = .next (s.exchanged k (if skip = 0 then
      (sum + ((((t2 : Int) - t1) - ((t4 : Int) - t3)) - (BitVec.ofNat 32 (s.rd (spB k) F.SP_TIME_ASYM_ASYM)).toInt).tdiv 2, n + 1, 0)
      else (sum, n, skip - 1))) := by
  change guardUnit s (s.hasSpan k) _ = _
  rw [guardUnit_of hk, if_neg (by rw [hr, he]; simp), hv]
  rfl

/-- The interval at Span port `k` has ended with `n` offsets. -/
def State.intervalEnd (s : State) (k n skip : Nat) : State :=
  s.updTime (fun t => { t with
    spanO := mset (fun _ => ((0 : Int), (0 : Nat), (0 : Nat))) t.spanO k (0, 0, skip)
    spanMiss := (if n = 0 then [k] else []) ++ t.spanMiss.filter (fun j => j != k) })

theorem exec_spanTimeSample_of_parent {s : State} {k : Nat} (hk : s.hasSpan k = true) (hr : s.rd (spB k) F.SP_TIME_CFG_ROLE = 1)
    {sum : Int} {n skip : Nat} (hv : mget (fun _ => ((0 : Int), (0 : Nat), (0 : Nat))) s.time.spanO k = (sum, n, skip)) :
    exec (.spanTimeSample k) s = .next (s.intervalEnd k n skip) := by
  change guardUnit s (s.hasSpan k) _ = _
  rw [guardUnit_of hk]
  dsimp only
  rw [if_neg (by simp [hr]), hv]
  dsimp only
  rw [if_pos hr]
  rfl

/-- The mean offset of an interval, shown at the port. -/
def State.offsetShown (v : State) (k : Nat) (sum : Int) (n : Nat) : State :=
  v.wr (spB k) F.SP_TIME_CFG_LAST_O (BitVec.ofInt 16 (sum / n * 16 / 1000)).toNat

/-- The child's end of an interval, by its `n` offsets (R305, R320). -/
def State.spanSampled (v : State) (k : Nat) (sum : Int) (n : Nat) : State :=
  let mine := v.rd timB F.TIM_CTL_SPAN_PORT == k
  let v := if mine then v.adopt 2 else v
  let mine := mine && v.timeSrc == 2
  if n = 0 then (if mine then v.missed.refreshTime else v)
  else if mine then ((v.offsetShown k sum n).sample (sum / n * 256 / 1000) 1000 true).refreshTime else v.offsetShown k sum n

theorem State.spanSampled_of_other {v : State} {k n : Nat} (sum : Int) (hn : n ≠ 0) (hp : v.rd timB F.TIM_CTL_SPAN_PORT ≠ k) :
    v.spanSampled k sum n = v.offsetShown k sum n := by
  rw [State.spanSampled, beq_eq_false_iff_ne.mpr hp]
  exact if_neg hn

theorem State.spanSampled_of_mine {v : State} {k : Nat} (sum : Int) (n : Nat) (hs : v.timeSrc = 2) (hsel : v.srcSel = 2)
    (hp : v.rd timB F.TIM_CTL_SPAN_PORT = k) : v.spanSampled k sum n = if n = 0 then v.missed.refreshTime
      else ((v.offsetShown k sum n).sample (sum / n * 256 / 1000) 1000 true).refreshTime := by
  rw [State.spanSampled, beq_iff_eq.mpr hp, if_pos rfl, State.adopt_of_eq (hs.trans hsel.symm) 2, beq_iff_eq.mpr hs]
  rfl

section

variable {s : State} {k : Nat} (hk : s.hasSpan k = true) (hr : s.rd (spB k) F.SP_TIME_CFG_ROLE = 2) {sum : Int} {n skip : Nat}
  (hv : mget (fun _ => ((0 : Int), (0 : Nat), (0 : Nat))) s.time.spanO k = (sum, n, skip))

include hk hr hv

theorem exec_spanTimeSample_of_child : exec (.spanTimeSample k) s = .next ((s.intervalEnd k n skip).spanSampled k sum n) := by
  change guardUnit s (s.hasSpan k) _ = _
  rw [guardUnit_of hk]
  dsimp only
  rw [if_neg (by simp [hr]), hv]
  dsimp only
  rw [if_neg (by simp [hr])]
  rfl

end

/-! ### The carrier and slews -/

theorem State.startRuns_rom (l : List Nat) : ∀ s : State, (s.startRuns l).rom = s.rom := by
  induction l with
  | nil => exact fun _ => rfl
  | cons r rest ih =>
    intro s
    rw [State.startRuns, List.foldl_cons, ← State.startRuns, ih]
    split <;> rfl

theorem State.node_setNode_same (s : State) (r : Nat) (v : Node) : (s.setNode r v).node r = v := mget_mset_same _ _ _ _

theorem State.node_setNode_ne (s : State) {r j : Nat} (v : Node) (h : j ≠ r) : (s.setNode r v).node j = s.node j :=
  mget_mset_ne _ _ _ h

/-- A run is in progress at every node of the list but the root, and at every node where one was. -/
theorem State.run_startRuns {l : List Nat} {r : Nat} : ∀ {s : State}, isRoot s.rom r = false → r ∈ l ∨ (s.node r).run = true →
    ((s.startRuns l).node r).run = true := by
  induction l with
  | nil =>
    intro s _ h
    exact h.resolve_left List.not_mem_nil
  | cons a rest ih =>
    intro s hroot h
    rw [State.startRuns, List.foldl_cons, ← State.startRuns]
    have hrun : (r = a ∨ (s.node r).run = true) →
        ((if isRoot s.rom a then s else s.setNode a { s.node a with run := true }).node r).run = true := by
      rintro h
      split
      next ha =>
        rcases h with rfl | h
        · exact absurd (hroot.symm.trans ha) (by decide)
        · exact h
      next =>
        by_cases hra : r = a
        · rw [hra, State.node_setNode_same]
        · rw [State.node_setNode_ne _ _ hra]
          exact h.resolve_left hra
    refine ih (by split <;> exact hroot) ?_
    rcases h with h | h
    · rcases List.mem_cons.mp h with h | h
      · exact .inr (hrun (.inl h))
      · exact .inl h
    · exact .inr (hrun (.inr h))

theorem State.startRuns_rd (l : List Nat) (b : Nat) (f : Fld) : ∀ s : State, (s.startRuns l).rd b f = s.rd b f := by
  induction l with
  | nil => exact fun _ => rfl
  | cons r rest ih =>
    intro s
    rw [State.startRuns, List.foldl_cons, ← State.startRuns, ih]
    split <;> rfl

theorem State.carrier_startRuns (l : List Nat) : ∀ s : State, (s.startRuns l).time.carrier = s.time.carrier := by
  induction l with
  | nil => exact fun _ => rfl
  | cons r rest ih =>
    intro s
    rw [State.startRuns, List.foldl_cons, ← State.startRuns, ih]
    split <;> rfl

/-- The Time Unit has entered UNSET from another state (R306). -/
def State.unset (s : State) : State :=
  ((s.wr timB F.TIM_STAT_STATE 0).updTime (fun t => { t with
    lockRun := 0, badRun := 0, missRun := 0, holdAt := none, integ := 0 })).glEvent 0 0

theorem State.timeGo_zero (s : State) : s.timeGo 0 = if s.rd timB F.TIM_STAT_STATE = 0 then s else s.unset := by
  unfold State.timeGo
  dsimp only
  split
  · rfl
  · rw [if_neg (by omega)]
    rfl

theorem State.unset_spec (s : State) : s.unset.rd timB F.TIM_STAT_STATE = 0 ∧ s.unset.time.carrier = s.time.carrier
    ∧ s.unset.rom = s.rom ∧ s.unset.rd timB F.TIM_STAT_CARRIER_OK = s.rd timB F.TIM_STAT_CARRIER_OK := by
  have hk := State.KeepsAt.glEvent_off (P := (· < evtB)) (fun _ h => h) ((s.wr timB F.TIM_STAT_STATE 0).updTime (fun t => { t with
    lockRun := 0, badRun := 0, missRun := 0, holdAt := none, integ := 0 })) (g := 0) (by decide) 0
  have hn := State.near_glEvent ((s.wr timB F.TIM_STAT_STATE 0).updTime (fun t => { t with
    lockRun := 0, badRun := 0, missRun := 0, holdAt := none, integ := 0 })) 0 0
  refine ⟨?_, ?_, ?_, ?_⟩
  · rw [State.unset, hk.rd (by decide), State.updTime_rd, State.rd_wr_same _ _ _ _ (by decide)]
    rfl
  · rw [State.unset, hn.time]
    rfl
  · rw [State.unset, hn.rom]
    rfl
  · rw [State.unset, hk.rd (by decide), State.updTime_rd]
    exact s.rd_wr_apart timB F.TIM_STAT_STATE F.TIM_STAT_CARRIER_OK 0 rfl (by decide) (by decide)

theorem State.timeGo_zero_spec (s : State) : (s.timeGo 0).rd timB F.TIM_STAT_STATE = 0
    ∧ (s.timeGo 0).time.carrier = s.time.carrier ∧ (s.timeGo 0).rom = s.rom
    ∧ (s.timeGo 0).rd timB F.TIM_STAT_CARRIER_OK = s.rd timB F.TIM_STAT_CARRIER_OK := by
  rw [State.timeGo_zero]
  split
  next h => exact ⟨h, rfl, rfl, rfl⟩
  next => exact s.unset_spec

/-- The carrier is back: its flag, the time state that follows and runs at every node (R312). -/
def State.carrierBack (s : State) : State :=
  (s.stopNodes.wr timB F.TIM_STAT_CARRIER_OK 1).updTime (fun t => { t with carrier := true })

theorem exec_carrierReturn_of_lost {s : State} (h : s.time.carrier = false) : exec .carrierReturn s =
    .next ((s.carrierBack.timeGo 0).startRuns (List.range s.carrierBack.rom.rtrs.length)).refreshTime :=
  congrArg Host.Outcome.next (if_neg (by simp [h]))

/-- A slew has ended: no offset is left and nothing is added (R311). -/
def State.slewOver (s : State) : State := (s.updTime (fun t => { t with slew := none })).setAdj 0

/-- Settles O20: the intervals at the ends of a Span link, and the ends of holdover, carrier and slew. -/
theorem spanTimeHoldoverAndSlew : Obligations.SpanTimeHoldoverAndSlew := by
  unfold Obligations.SpanTimeHoldoverAndSlew
  refine ⟨fun s k => ⟨fun t1 t2 t3 t4 h => ?_, fun h => ?_, fun sum n skip hk hv => ⟨fun hr => exec_spanTimeSample_of_parent hk hr hv,
      fun hr hskip t1 t2 t3 t4 he => ?_⟩, fun sum n hk hr hv => ⟨fun t1 t2 t3 t4 he => ?_, ?_⟩⟩,
    fun s => ⟨fun h1 h2 => ?_, fun h => ?_, fun h count => ?_, fun h => ?_, fun h => ?_, fun count h => ?_, fun h => ?_, fun h => ?_⟩⟩
  · change guardUnit s (s.hasSpan k) _ = _
    rcases h with h | h
    · rw [h]; rfl
    · cases s.hasSpan k
      · rfl
      · exact congrArg Host.Outcome.next (if_pos h)
  · change guardUnit s (s.hasSpan k) _ = _
    rcases h with h | h
    · rw [h]; rfl
    · cases s.hasSpan k
      · rfl
      · exact congrArg Host.Outcome.next (if_pos h)
  · rw [exec_spanTimeExchange_of_role hk hr he hv, if_neg (by omega)]
    rfl
  · rw [exec_spanTimeExchange_of_role hk hr he hv, if_pos rfl]
    rfl
  · intro v hvi
    have hexec : exec (.spanTimeSample k) s = .next (v.spanSampled k sum n) := by
      rw [hvi]
      exact exec_spanTimeSample_of_child hk hr hv
    have hport : v.rd timB F.TIM_CTL_SPAN_PORT = s.rd timB F.TIM_CTL_SPAN_PORT := by rw [hvi, State.updTime_rd]
    have hsrc : v.timeSrc = s.timeSrc := by rw [hvi]; rfl
    have hsel : v.srcSel = s.srcSel := by rw [hvi]; rfl
    refine ⟨fun hn hp => ?_, fun hn hs hs' hp => ?_, fun hn hs hs' hp => ?_⟩
    · rw [hexec, State.spanSampled_of_other sum hn (hport.trans_ne hp), State.offsetShown]
    · rw [hexec, State.spanSampled_of_mine sum n (hsrc.trans hs) (hsel.trans hs') (hport.trans hp), if_neg hn, State.offsetShown]
    · rw [hexec, State.spanSampled_of_mine sum n (hsrc.trans hs) (hsel.trans hs') (hport.trans hp), if_pos hn]
  · exact congrArg Host.Outcome.next (if_pos ⟨h1, h2⟩)
  · exact congrArg Host.Outcome.next (if_neg (by omega))
  · refine congrArg Host.Outcome.next ?_
    simp only [h, Bool.false_eq_true, if_false, ite_self]
  · exact congrArg Host.Outcome.next (if_pos h)
  · exact congrArg Host.Outcome.next (if_neg h)
  · refine congrArg Host.Outcome.next ?_
    simp only [h, if_true]
    rfl
  · obtain ⟨hst, hcar, hrom, hok⟩ := s.carrierBack.timeGo_zero_spec
    refine ⟨_, exec_carrierReturn_of_lost h, ?_, ?_, ?_, fun r hr hroot => ?_⟩
    · rw [State.time_refreshTime, State.carrier_startRuns, hcar]
      rfl
    · rw [State.flag_eq, State.rd_refreshTime_apart _ rfl (by decide), State.startRuns_rd, hok, State.carrierBack,
        State.updTime_rd, State.rd_wr_same _ _ _ _ (by decide)]
      rfl
    · rw [State.rd_refreshTime_apart _ rfl (by decide), State.startRuns_rd, hst]
    · rw [State.node, State.time_refreshTime, ← State.node]
      exact State.run_startRuns (by rw [hrom]; exact hroot) (.inl (List.mem_range.mpr hr))
  · refine ⟨s.slewOver.refreshTime, congrArg Host.Outcome.next (if_pos h), ?_, ?_⟩
    · rw [State.time_refreshTime]
      rfl
    · rw [s.slewOver.keepsAt_refreshTime.rd (by decide), State.slewOver, State.setAdj, State.updTime_rd,
        State.rd_wr_same _ _ _ _ (by decide)]
      rfl

end Sys2Proof.Machine
end

section
/-! SUPPORT. A step of Fabric Time reaches its marker (R303, R309), and what a reply leaves alone. -/

namespace Sys2Proof.Machine

/-! ### Words that no reply reaches, wherever its command came from -/

/-- Offsets that no reply packet and no mailbox status covers, whatever the mailbox's number. -/
abbrev OffReply (o : Nat) : Prop := OffEvt o ∧ o ≠ strB + F.STR_CMD_CNT_COUNT.off ∧ o ≠ strB + F.STR_CMD_STAT_ERR.off
  ∧ o % 16 ≠ 0 ∧ 4 ≤ o % 512 ∧ o % 512 < 256

theorem State.keepsAt_replyNoted_any (s : State) (status : Nat) : s.KeepsAt OffReply (s.replyNoted status) := by
  have hcount : s.KeepsAt OffReply (s.count strB F.STR_CMD_CNT_COUNT 1) := .count 1 fun h => h.2.1 rfl
  unfold State.replyNoted
  split
  · exact hcount
  · exact hcount.trans (.wr 1 fun h => h.2.2.1 rfl)

theorem State.keepsAt_mailReply_any (s : State) (m : Nat) {pkt : List Byte} (hp : pkt.length ≤ 252) :
    s.KeepsAt OffReply (s.mailReply m pkt) := by
  have hbuf : s.KeepsAt OffReply (s.putBytes (strB + 0x2100 + 0x200 * m) pkt) := by
    refine s.keepsAt_putBytes _ _ fun o ho => ?_
    obtain ⟨-, -, -, -, h1, h2⟩ := ho
    simp only [strB]
    omega
  have hbusy : ¬ OffReply (strB + (F.STR_MBX_BUSY.ix m).off) := by
    rintro ⟨-, -, -, h, -, -⟩
    simp only [Fld.ix, strB] at h
    omega
  have hdone : ¬ OffReply (strB + (F.STR_MBX_DONE.ix m).off) := hbusy
  exact ((hbuf.trans (.wr 0 hbusy)).trans (.wr 1 hdone)).trans ((State.keepsAt_glEvent _ (by decide) 0).mono fun _ ho => ho.1)

/-- No reply reaches those words. -/
theorem State.keepsAt_sendReply_any (s : State) (c : Cmd) (status : Nat) {data : List Byte} (hd : data.length ≤ 236) :
    s.KeepsAt OffReply (s.sendReply c status data) := by
  rw [State.sendReply_eq]
  refine (s.keepsAt_replyNoted_any status).trans ?_
  split
  · exact .pushSys _ _
  · have hlen := length_replyBytes_le c s.clock status data
    exact State.keepsAt_mailReply_any _ _ (by omega)

theorem State.keepsAt_reply_any (s : State) (x status : Nat) {data : List Byte} (hd : data.length ≤ 236) :
    s.KeepsAt OffReply (s.reply x status data) := by
  have hcmds : s.KeepsAt OffReply { s with cmds := s.cmds.filter (fun d => d.id != x) } := ⟨fun _ _ => rfl, fun _ => rfl⟩
  cases hc : s.cmd x with
  | none => rw [s.reply_none hc]; exact .refl s
  | some c =>
    rcases State.reply_eq_or hc status data with e | e <;> rw [e]
    · exact hcmds
    · exact hcmds.trans (State.keepsAt_sendReply_any _ c status hd)

/-! ### The parts of `State.timeGo` -/

/-- The state of the Time Unit is `st`, with the counts that start with it. -/
def State.timeData (s : State) (st : Nat) : State :=
  (s.wr timB F.TIM_STAT_STATE st).updTime (fun t => { t with
    lockRun := 0, badRun := 0, missRun := 0
    holdAt := if st = 4 then some s.clock else none
    integ := if st = 0 then 0 else t.integ })

/-- The state of the Time Unit is `st`, and its event has been raised. -/
def State.timeEntered (s : State) (st : Nat) : State :=
  (s.timeData st).glEvent 0 0

/-- UNLOCK is set where TRACKING ends in ACQUIRE (R306, R323). -/
def State.timeMarked (s : State) (st : Nat) : State :=
  if s.rd timB F.TIM_STAT_STATE = 3 ∧ st = 2 then (s.timeEntered st).wr timB F.TIM_STAT_UNLOCK 1 else s.timeEntered st

/-- The adjustment that a state begins with. -/
def State.timeTuned (b : State) (st : Nat) : State :=
  match st with
  | 4 => b.setAdj b.time.integ
  | 1 => b.setAdj 0
  | _ => b

theorem State.timeGo_eq (s : State) (st : Nat) :
    s.timeGo st = if s.rd timB F.TIM_STAT_STATE = st then s else (s.timeMarked st).timeTuned st := rfl

/-! ### What a step of Fabric Time keeps once it has applied -/

/-- The time data that a step sets, STEP_DONE, and invalid time in a step window, stand. -/
structure State.StepKept (s t : State) : Prop where
  ft : t.time.ft = s.time.ft
  step : t.time.step = s.time.step
  win : t.time.win = s.time.win
  expect : t.time.expect = s.time.expect
  done : t.rd timB F.TIM_STAT_STEP_DONE = s.rd timB F.TIM_STAT_STEP_DONE
  invalid : s.time.win = true → s.rootOk = false → t.rootOk = false

namespace State.StepKept

variable {s t u : State}

theorem refl (s : State) : s.StepKept s := ⟨rfl, rfl, rfl, rfl, rfl, fun _ h => h⟩

theorem trans (h : s.StepKept t) (k : t.StepKept u) : s.StepKept u :=
  ⟨k.ft.trans h.ft, k.step.trans h.step, k.win.trans h.win, k.expect.trans h.expect, k.done.trans h.done,
    fun hw ho => k.invalid (h.win.trans hw) (h.invalid hw ho)⟩

/-- A change that keeps the time data and TIME.STAT. -/
theorem of_word (ht : t.time = s.time) (hw : t.word (timB + 4) = s.word (timB + 4)) : s.StepKept t := by
  have hf (f : Fld) (hf : f.off = 4) : t.rd timB f = s.rd timB f := by rw [State.rd, hf, hw, State.rd, hf]
  refine ⟨by rw [ht], by rw [ht], by rw [ht], by rw [ht], hf _ rfl, fun _ h => ?_⟩
  rw [State.rootOk, State.flag, hf _ rfl]
  exact h

theorem of_time {t : TimeSt} (h1 : t.ft = s.time.ft) (h2 : t.step = s.time.step) (h3 : t.win = s.time.win)
    (h4 : t.expect = s.time.expect) : s.StepKept { s with time := t } := ⟨h1, h2, h3, h4, rfl, fun _ h => h⟩

theorem of_near {P : Nat → Prop} (hn : s.Near t) (hk : s.KeepsAt P t) (hP : P (timB + 4)) : s.StepKept t :=
  of_word hn.time (hk.1 _ hP)

theorem wr (s : State) {f : Fld} (v : Nat) (h : f.off ≠ 4) : s.StepKept (s.wr timB f v) :=
  of_word rfl (s.word_wr_ne _ _ _ (by omega))

theorem wrStat (s : State) {f : Fld} (v : Nat) (ho : f.off = 4) (hw : f.lo + f.w ≤ 4 ∨ 16 ≤ f.lo ∧ f.lo + f.w ≤ 20) :
    s.StepKept (s.wr timB f v) := by
  have h (g : Fld) (hg : g.off = 4) (hd : f.lo + f.w ≤ g.lo ∨ g.lo + g.w ≤ f.lo) : (s.wr timB f v).rd timB g = s.rd timB g :=
    s.rd_wr_apart _ _ _ _ (hg.trans ho.symm) (by omega) hd
  refine ⟨rfl, rfl, rfl, rfl, h _ rfl (by simp only; omega), fun _ hr => ?_⟩
  rw [State.rootOk, State.flag, h _ rfl (by simp only; omega)]
  exact hr

theorem glEvent (s : State) {g : Nat} (hg : g < 16) (i : Nat) : s.StepKept (s.glEvent g i) :=
  of_near (s.near_glEvent g i) (.glEvent_off (P := (· < evtB)) (fun _ h => h) s hg i) (by decide)

theorem setAdj (s : State) (adj : Int) : s.StepKept (s.setAdj adj) :=
  (wr s _ (by decide)).trans (of_time rfl rfl rfl rfl)

theorem refreshTime (s : State) : s.StepKept s.refreshTime := by
  have ht := s.time_refreshTime
  refine ⟨by rw [ht], by rw [ht], by rw [ht], by rw [ht], s.rd_refreshTime_apart rfl (by decide), fun hw _ => ?_⟩
  rw [State.rootOk_refreshTime, State.timeGood, hw]
  simp

theorem timeEntered (s : State) (st : Nat) : s.StepKept (s.timeEntered st) := by
  refine trans (t := s.timeData st) ?_ (glEvent _ (by decide) 0)
  exact (wrStat s (f := F.TIM_STAT_STATE) st rfl (by decide)).trans (of_time rfl rfl rfl rfl)

theorem timeGo (s : State) (st : Nat) : s.StepKept (s.timeGo st) := by
  rw [State.timeGo_eq]
  split
  · exact refl s
  · have h1 := timeEntered s st
    have h2 : s.StepKept (s.timeMarked st) := by
      unfold State.timeMarked
      split
      · exact h1.trans (wrStat _ 1 rfl (by decide))
      · exact h1
    unfold State.timeTuned
    split
    · exact h2.trans (setAdj _ _)
    · exact h2.trans (setAdj _ _)
    · exact h2

theorem setNode (s : State) (r : Nat) (v : Node) : s.StepKept (s.setNode r v) := of_time rfl rfl rfl rfl

theorem trackFail (s : State) (r : Nat) : s.StepKept (s.trackFail r) :=
  ((setNode s r _).trans (glEvent (s.setNode r _) (g := 0) (by decide) 2)).trans (refreshTime _)

theorem markMiss (s : State) (r : Nat) : s.StepKept (s.markMiss r) := by
  unfold State.markMiss
  split
  · exact refl s
  · split
    · exact (setNode s r _).trans (trackFail _ r)
    · exact setNode s r _

theorem sendMarker (s : State) (p : Nat) (m : Marker) : s.StepKept (s.sendMarker p m) := by
  unfold State.sendMarker
  generalize List.range s.rom.rtrs.length = l
  induction l generalizing s with
  | nil => exact refl s
  | cons r rest ih =>
    rw [List.foldl_cons]
    refine trans ?_ (ih _)
    split
    · exact refl s
    · exact (markMiss s r).trans (setNode _ r _)

theorem allowed (s : State) (n : Nat) : s.StepKept (s.allowed n) := by
  have h (a : State) (f : Fld) (v : Nat) : (a.wr (niB n) f v).word (timB + 4) = a.word (timB + 4) :=
    a.word_wr_ne _ _ _ (by simp only [niB, timB]; omega)
  refine of_word ?_ ?_
  · rw [State.allowed, State.updNi_time, State.wr_time, State.wr_time]
    split
    · rw [State.count_time]
    · rfl
  · rw [State.allowed, State.updNi_word, h, h]
    split
    · rw [State.count, h]
    · rfl

/-- Each NI starts an allowance window at the step (R271). -/
theorem window (s : State) (n : Nat) (f : NiSt → NiSt) : s.StepKept (match execAllowanceWindow n (s.updNi n f) with
    | .next b => b
    | _ => s) := by
  have h1 : s.StepKept (s.updNi n f) := of_word rfl rfl
  have h : execAllowanceWindow n (s.updNi n f) = guardUnit (s.updNi n f) ((s.updNi n f).hasNi n) ((s.updNi n f).allowed n) := rfl
  rw [h]
  cases (s.updNi n f).hasNi n
  · exact h1
  · exact h1.trans (allowed _ n)

theorem forAll {f : Nat → State → State} (h : ∀ i a, State.StepKept a (f i a)) (n : Nat) (s : State) :
    s.StepKept (Machine.forAll n f s) :=
  forAll_induction (R := State.StepKept) refl trans f (fun i _ a => h i a) s

theorem replyOpt (s : State) (x : Option Nat) : s.StepKept (s.replyOpt x 0 []) := by
  cases x with
  | none => exact refl s
  | some k => exact of_word (s.nearCmds_reply k 0 []).time ((s.keepsAt_reply_any k 0 (by simp)).1 _ (by decide))

end State.StepKept

/-! ### The step applies -/

/-- The state in which a step has applied with the new Fabric Time `ft`, expecting the next second at `e` (R303, R309). -/
structure State.Stepped (t : State) (ft : Nat) (e : Option Nat) : Prop where
  ft : t.time.ft = ft
  step : t.time.step = none
  win : t.time.win = true
  expect : t.time.expect = e
  done : t.rd timB F.TIM_STAT_STEP_DONE = 1
  invalid : t.rootOk = false

theorem State.Stepped.kept {s t : State} {ft : Nat} {e : Option Nat} (h : s.Stepped ft e) (k : s.StepKept t) : t.Stepped ft e :=
  ⟨k.ft.trans h.ft, k.step.trans h.step, k.win.trans h.win, k.expect.trans h.expect, k.done.trans h.done,
    k.invalid h.win h.invalid⟩

/-- The root's counter, the window and STEP_DONE of a step that applies. -/
def State.stepSet (s : State) (p : TStep) (ft : Nat) : State :=
  let s := s.updTime (fun t => { t with
    ft := ft, step := none, win := true, stepAt := s.clock, integ := 0
    expect := if p.cmd.isNone then t.expect else t.expect.map (fun e => secOf (((2 ^ 32 * e : Nat) : Int) + ft - t.ft)) })
  { s.wr timB F.TIM_STAT_STEP_DONE 1 with evd := { s.evd with step := true } }

theorem State.rd_evd (s : State) (e : Evd) (b : Nat) (f : Fld) : ({ s with evd := e } : State).rd b f = s.rd b f := rfl

theorem State.rd_stepSet_done (s : State) (p : TStep) (ft : Nat) : (s.stepSet p ft).rd timB F.TIM_STAT_STEP_DONE = 1 := by
  rw [State.stepSet, State.rd_evd, State.rd_wr_same _ _ _ _ (by decide)]
  rfl

theorem State.win_stepSet (s : State) (p : TStep) (ft : Nat) : (s.stepSet p ft).time.win = true := rfl

/-- The Time Unit leaves UNSET at its first step (R306). -/
def State.stepState (s : State) : State :=
  if s.rd timB F.TIM_STAT_STATE = 0 then s.timeGo (if s.timeSrc = 0 then 1 else 2) else s

/-- The allowance windows that start at a step (R230, R271). -/
def State.stepWindows (s : State) : State :=
  forAll s.rom.nis.length (fun n a =>
    match execAllowanceWindow n (a.updNi n (fun x => { x with sc0Last := x.sc0Last.map (fun e => (e.1, some s.rootStamp)) })) with
    | .next b => b
    | _ => a) s

theorem State.stepApply_eq (s : State) (p : TStep) (ft : Nat) :
    s.stepApply p ft = ((s.stepSet p ft).stepState.stepWindows.replyOpt p.cmd 0 []).refreshTime := rfl

theorem State.stepped_stepApply (s : State) (p : TStep) (ft : Nat) : (s.stepApply p ft).Stepped ft
    (if p.cmd.isNone then s.time.expect else s.time.expect.map (fun e => secOf (((2 ^ 32 * e : Nat) : Int) + ft - s.time.ft))) := by
  have h1 : (s.stepSet p ft).StepKept ((s.stepSet p ft).stepState) := by
    unfold State.stepState
    split
    · exact .timeGo _ _
    · exact .refl _
  have h2 : (s.stepSet p ft).stepState.StepKept (s.stepSet p ft).stepState.stepWindows :=
    .forAll (fun n a => State.StepKept.window a n _) _ _
  have h3 := (h1.trans h2).trans (State.StepKept.replyOpt _ p.cmd)
  rw [State.stepApply_eq]
  generalize (s.stepSet p ft).stepState.stepWindows.replyOpt p.cmd 0 [] = b at h3
  have ht := b.time_refreshTime
  refine ⟨by rw [ht, h3.ft]; rfl, by rw [ht, h3.step]; rfl, by rw [ht, h3.win]; rfl, by rw [ht, h3.expect]; rfl, ?_, ?_⟩
  · rw [b.rd_refreshTime_apart rfl (by decide), h3.done, State.rd_stepSet_done]
  · rw [State.rootOk_refreshTime, State.timeGood, h3.win, State.win_stepSet, Bool.not_true, Bool.and_false]

/-! ### Markers with a step -/

/-- The step that the next marker carries once it is placed: one marker nearer. -/
def TStep.nearer (p : TStep) (j : Nat) : TStep := { p with placed := some (j - 1) }

/-- Fabric Time at the root's next marker (R292). -/
def State.markerFt (s : State) : Nat := s.time.ft + s.rd64 timB F.TIM_INC_LO_INC F.TIM_INC_HI_INC * (1024 - s.time.tc)

/-- The new Fabric Time that a placed step gives at the next marker (R303). -/
def State.steppedFt (s : State) (p : TStep) : Nat := if p.abs then p.v.toNat else ((s.markerFt : Int) + p.v).toNat

/-- The increment that the root's next marker carries, and what a slew has then still to remove (R292, R311). -/
def State.markerCarry (s : State) : Nat × Option Int :=
  match s.time.slew with
  | some l => if l = 0 then (incNom, some 0) else ((s.slewInc l).1, some (s.slewInc l).2)
  | none => (s.time.incNew, none)

/-- The step in hand at the root's next marker. -/
def State.markerStep (s : State) : Option TStep := s.time.step.map (fun p => match p.placed with
  | some j => ({ p with placed := some (j - 1) } : TStep)
  | none => if s.stepDeferred then p else ({ p with placed := some 16 } : TStep))

/-- The root's time data and increment at its next marker. -/
def State.markerSet (s : State) : State :=
  ({ s with
    time := { s.time with
      ft := s.markerFt, tc := 0, marks := s.time.marks + 1, incCar := s.markerCarry.1, slew := s.markerCarry.2, step := s.markerStep
      freezes := s.time.freezes.map (fun f => { f with left := f.left - 1 }) }
    clock := s.clock + (1024 - s.time.tc) } : State).wr64 timB F.TIM_INC_LO_INC F.TIM_INC_HI_INC s.time.incCar

/-- The placed step with its distance and its amount, as the marker carries them. -/
def State.markerSent (s : State) : Option (TStep × Nat × Int) :=
  s.markerStep.bind (fun p => p.placed.map (fun j => (p, j, if p.abs then p.v - s.markerFt else p.v)))

/-- A step whose marker it is applies. -/
def State.markerStepped (s : State) : State :=
  match s.markerSent with
  | some (p, 0, d) => s.markerSet.stepApply p ((s.markerFt : Int) + d).toNat
  | _ => s.markerSet

theorem State.markerStepped_of_due {s : State} {q : TStep} {d : Int} (h : s.markerSent = some (q, 0, d)) :
    s.markerStepped = s.markerSet.stepApply q ((s.markerFt : Int) + d).toNat := by
  unfold State.markerStepped
  simp only [h]

theorem State.markerStepped_of_ahead {s : State} {q : TStep} {i : Nat} {d : Int} (h : s.markerSent = some (q, i + 1, d)) :
    s.markerStepped = s.markerSet := by
  unfold State.markerStepped
  simp only [h]

theorem State.time_markerSet (s : State) : s.markerSet.time = { s.time with
    ft := s.markerFt, tc := 0, marks := s.time.marks + 1, incCar := s.markerCarry.1, slew := s.markerCarry.2, step := s.markerStep
    freezes := s.time.freezes.map (fun f => { f with left := f.left - 1 }) } := by
  rw [State.markerSet, State.wr64, State.wr_time, State.wr_time]

/-- The skew is recomputed every 16 markers (R315). -/
def State.markerSkew (s : State) (marks : Nat) : State :=
  if marks % 16 = 0 then
    let v := s.skew
    let s := { s with evd := { s.evd with skewMax := max s.evd.skewMax v } }
    (s.wr timB F.TIM_SKEW_NOW v).wr timB F.TIM_SKEW_MAX (max (s.rd timB F.TIM_SKEW_MAX) v)
  else s

theorem State.marker_eq (s : State) : s.marker =
    (s.markerStepped.sendMarker (s.markerStepped.rom.rtrs.findIdx (fun x => x.timeParent == 0xFFFF))
      { time := s.markerStepped.time.ft, inc := s.markerCarry.1, step := s.markerSent.map (fun c => (c.2.1, c.2.2)) }).markerSkew
      (s.time.marks + 1) := rfl

theorem State.StepKept.markerSkew (s : State) (marks : Nat) : s.StepKept (s.markerSkew marks) := by
  unfold State.markerSkew
  split
  · exact trans (t := { s with evd := { s.evd with skewMax := max s.evd.skewMax s.skew } }) (of_word rfl rfl)
      ((wr _ _ (by decide)).trans (wr _ _ (by decide)))
  · exact refl s

theorem State.stepKept_marker (s : State) : s.markerStepped.StepKept s.marker := by
  rw [State.marker_eq]
  exact (State.StepKept.sendMarker _ _ _).trans (State.StepKept.markerSkew _ _)

section

variable {s : State} {p : TStep} {j : Nat} (hp : s.time.step = some p) (hj : p.placed = some j)

include hp hj

theorem State.markerStep_of_placed : s.markerStep = some (p.nearer j) := by
  rw [State.markerStep, hp, Option.map_some, hj]
  rfl

theorem State.markerSent_of_placed :
    s.markerSent = some (p.nearer j, j - 1, if p.abs then p.v - s.markerFt else p.v) := by
  rw [State.markerSent, State.markerStep_of_placed hp hj]
  rfl

/-- A step that is due at the next marker applies there. -/
theorem State.stepped_marker (h : j ≤ 1) :
    ∃ e, s.marker.Stepped (s.steppedFt p) e ∧ (p.cmd = none → e = s.time.expect) := by
  have hft : ((s.markerFt : Int) + if p.abs then p.v - s.markerFt else p.v).toNat = s.steppedFt p := by
    rw [State.steppedFt]
    split
    · congr 1
      omega
    · rfl
  have hsent := State.markerSent_of_placed hp hj
  rw [Nat.sub_eq_zero_of_le h] at hsent
  have hm : s.markerStepped = s.markerSet.stepApply (p.nearer j) (s.steppedFt p) := by
    rw [State.markerStepped_of_due hsent, hft]
  refine ⟨_, (State.stepped_stepApply s.markerSet (p.nearer j) (s.steppedFt p)).kept (hm ▸ s.stepKept_marker), fun hc => ?_⟩
  have hnone : (p.nearer j).cmd = none := hc
  rw [hnone, Option.isNone_none, if_pos rfl, State.time_markerSet]

/-- A step that is not due comes one marker nearer. -/
theorem State.marker_of_ahead (h : 2 ≤ j) :
    s.marker.time.step = some (p.nearer j) ∧ s.marker.time.expect = s.time.expect := by
  have hsent := State.markerSent_of_placed hp hj
  obtain ⟨i, hi⟩ : ∃ i, j - 1 = i + 1 := ⟨j - 2, by omega⟩
  rw [hi] at hsent
  have hk := s.stepKept_marker
  rw [State.markerStepped_of_ahead hsent] at hk
  rw [hk.step, hk.expect, State.time_markerSet]
  exact ⟨State.markerStep_of_placed hp hj, rfl⟩

end

theorem State.stepRun_of_none {s : State} (h : s.time.step = none) (fuel : Nat) : s.stepRun fuel = s := by
  cases fuel with
  | zero => rfl
  | succ n => rw [State.stepRun, h]

theorem State.stepRun_of_placed {s : State} {p : TStep} {j : Nat} (hp : s.time.step = some p) (hj : p.placed = some j)
    (fuel : Nat) : s.stepRun (fuel + 1) = s.marker.stepRun fuel := by
  rw [State.stepRun, hp]
  dsimp only
  rw [hj, Option.isSome_some, if_pos rfl]

/-- A placed step has applied once its markers have left. -/
theorem State.stepped_stepRun (fuel : Nat) : ∀ {s : State} {p : TStep} {j : Nat}, s.time.step = some p → p.placed = some j →
    j ≤ fuel + 1 → ∃ ft e, (s.stepRun (fuel + 1)).Stepped ft e ∧ (p.cmd = none → e = s.time.expect) ∧ (j ≤ 1 → ft = s.steppedFt p) := by
  have hdue {s : State} {p : TStep} {j : Nat} (hp : s.time.step = some p) (hj : p.placed = some j) (h : j ≤ 1) (fuel : Nat) :
      ∃ ft e, (s.stepRun (fuel + 1)).Stepped ft e ∧ (p.cmd = none → e = s.time.expect) ∧ (j ≤ 1 → ft = s.steppedFt p) := by
    obtain ⟨e, hs, he⟩ := State.stepped_marker hp hj h
    refine ⟨_, e, ?_, he, fun _ => rfl⟩
    rw [State.stepRun_of_placed hp hj, State.stepRun_of_none hs.step]
    exact hs
  induction fuel with
  | zero => exact fun hp hj h => hdue hp hj h 0
  | succ n ih =>
    intro s p j hp hj h
    by_cases h1 : j ≤ 1
    · exact hdue hp hj h1 (n + 1)
    · obtain ⟨hstep, hexp⟩ := State.marker_of_ahead hp hj (by omega)
      obtain ⟨ft, e, hs, he, -⟩ := ih hstep (j := j - 1) rfl (by omega)
      refine ⟨ft, e, ?_, fun hc => (he hc).trans hexp, fun h2 => absurd h2 h1⟩
      rw [State.stepRun_of_placed hp hj]
      exact hs

end Sys2Proof.Machine
end

section
/-! SUPPORT. Time steps, PPS edges and loaded times of day (R303, R305, R309, R310, R322). -/

namespace Sys2Proof.Machine

/-! ### PPS edges -/

/-- The time of an edge captured at `t`, in 1/256 ns, at the reference point (R309). -/
def State.ppsAt (s : State) (t : Nat) : Int := (t : Int) - (BitVec.ofNat 32 (s.rd timB F.TIM_PPS_IN_DLY_DLY)).toInt

/-- Whether an edge with offset `e` is accepted (R309). -/
def State.ppsTaken (s : State) (e : Int) : Bool :=
  if s.rd timB F.TIM_STAT_STATE = 3 ∨ s.rd timB F.TIM_STAT_STATE = 4 then !beyond e (s.rd timB F.TIM_PPS_CFG_WIN)
  else match s.time.lastClk with
    | none => true
    | some c => decide (c + 625000000 ≤ s.clock)

/-- An accepted edge at the expected second `x`; `lab` says that a loaded time of day has labelled it. -/
def State.ppsNoted (s : State) (lab : Bool) (x : Nat) : State :=
  s.updTime (fun t => { t with
    lastClk := some s.clock, label := if lab then none else t.label, expect := some (x + secNs) })

/-- An accepted edge counts toward a wake in a sleeping block, and gives the servo its sample (R305, R514). -/
def State.ppsSampled (s : State) (e : Int) (lab : Bool) : State :=
  let asleep := [2, 3].contains (s.rgState s.rom.homeRegion) && (match (s.rg s.rom.homeRegion).q with
    | some q => decide (q + 200 < s.clock)
    | none => true)
  let s : State := if asleep then { s with pacer := { s.pacer with pps := s.pacer.pps + 1 } } else s
  let s := s.adopt 1
  if s.timeSrc = 1 then (s.sample e 1 lab).refreshTime else s

/-- An edge of the selected polarity against the expected second `x`. -/
def State.ppsJudged (s : State) (t : Nat) (lab : Bool) (x : Nat) : State :=
  let e := s.ppsAt t - 256 * x
  if s.ppsTaken e = false then s.count timB F.TIM_PPS_SPUR_CNT_COUNT 1 else (s.ppsNoted lab x).ppsSampled e lab

theorem State.ppsEdge_of_other {s : State} {rise : Bool} (t : Nat)
    (h : (s.timeSrc ≠ 1 ∧ s.srcSel ≠ 1) ∨ s.flag timB F.TIM_CTL_PPS_POL = rise) : s.ppsEdge rise t = s := if_pos h

theorem State.ppsEdge_of_label {s : State} {rise : Bool} (t : Nat) (hs : s.timeSrc = 1) (hp : s.flag timB F.TIM_CTL_PPS_POL ≠ rise)
    {v c : Nat} (hl : s.time.label = some (v, c)) (hc : c ≤ s.clock) : s.ppsEdge rise t = s.ppsJudged t true v := by
  rw [State.ppsEdge, if_neg (by rintro (⟨h, -⟩ | h) <;> contradiction)]
  simp only [hl, if_pos hc]
  rfl

theorem State.ppsEdge_of_unlabelled {s : State} {rise : Bool} (t : Nat) (hs : s.timeSrc = 1)
    (hp : s.flag timB F.TIM_CTL_PPS_POL ≠ rise) (hl : s.time.label = none) {x : Nat} (hx : s.time.expect = some x) :
    s.ppsEdge rise t = s.ppsJudged t false x := by
  rw [State.ppsEdge, if_neg (by rintro (⟨h, -⟩ | h) <;> contradiction)]
  simp only [hl, hx, Option.getD_some]
  rfl

theorem State.ppsJudged_of_taken {s : State} {t x : Nat} {lab : Bool} (h : s.ppsTaken (s.ppsAt t - 256 * x) = true) :
    s.ppsJudged t lab x = (s.ppsNoted lab x).ppsSampled (s.ppsAt t - 256 * x) lab := if_neg (by simp [h])

theorem State.ppsJudged_of_spurious {s : State} {t x : Nat} {lab : Bool} (h : s.ppsTaken (s.ppsAt t - 256 * x) = false) :
    s.ppsJudged t lab x = s.count timB F.TIM_PPS_SPUR_CNT_COUNT 1 := if_pos h

/-- Awake, with PPS in force, an accepted edge is the servo's sample. -/
theorem State.ppsSampled_of_awake {s : State} (hs : s.timeSrc = 1) (hsel : s.srcSel = 1) (hh : s.rgState s.rom.homeRegion = 0)
    (e : Int) (lab : Bool) : s.ppsSampled e lab = (s.sample e 1 lab).refreshTime := by
  unfold State.ppsSampled
  rw [hh]
  change (if (s.adopt 1).timeSrc = 1 then ((s.adopt 1).sample e 1 lab).refreshTime else s.adopt 1) = _
  rw [State.adopt_of_eq (hs.trans hsel.symm), if_pos hs]

theorem exec_ppsMiss_of_due {s : State} {x : Nat} (hs : s.timeSrc = 1) (hsel : s.srcSel = 1) (hx : s.time.expect = some x)
    (h : x + s.rd timB F.TIM_PPS_CFG_WIN < ftNs s.time.ft) : exec .ppsMiss s =
      .next (((s.wr timB F.TIM_STAT_PPS_MISS 1).updTime (fun t => { t with expect := t.expect.map (· + secNs) })).missed.refreshTime) := by
  change execPpsMiss s = _
  rw [execPpsMiss, hx]
  dsimp only
  rw [if_neg (by rintro (h | h); exacts [h hs, by omega]), State.adopt_of_eq (hs.trans hsel.symm), if_neg (not_not.mpr hs)]

theorem exec_ppsMiss_of_early {s : State} (h : s.time.expect = none ∨ s.timeSrc ≠ 1 ∨
    ∃ x, s.time.expect = some x ∧ ftNs s.time.ft ≤ x + s.rd timB F.TIM_PPS_CFG_WIN) : exec .ppsMiss s = .next s := by
  change execPpsMiss s = _
  unfold execPpsMiss
  split
  · rfl
  next x hx =>
    rw [if_pos]
    rcases h with h | h | ⟨y, hy, h⟩
    · simp [hx] at h
    · exact .inl h
    · rw [hx, Option.some.injEq] at hy
      exact .inr (hy ▸ h)

/-- Settles O19: the markers of a placed step, and the branches of a PPS edge. -/
theorem timeStepsAndPps : Obligations.TimeStepsAndPps := by
  unfold Obligations.TimeStepsAndPps
  refine ⟨fun s => ⟨fun h => ?_, fun h => ?_, fun p j hcar hp hj hle => ?_, fun h => ?_⟩,
    fun s => ⟨fun h sec ns => ?_, fun h h' e => ?_, fun h => ?_, fun x hx h => ?_, fun h => ?_,
      fun hs hsel => ⟨fun sec ns hns hstep => ?_, fun sec ns hns => ?_, fun x hx h => ?_, ?_, ?_, ?_, ?_⟩⟩⟩
  · refine congrArg Host.Outcome.next ?_
    rcases h with h | h | ⟨p, hp, h⟩
    · exact if_neg (by simp [h])
    · rw [State.stepRun_of_none h, ite_self]
    · have : s.stepRun 17 = s := by
        rw [State.stepRun, hp]
        simp [h]
      rw [this, ite_self]
  · exact congrArg Host.Outcome.next (if_pos h)
  · obtain ⟨ft, e, ⟨hft, hstep, hwin, hexp, hdone, hinv⟩, he, hdue⟩ := State.stepped_stepRun 16 hp hj (by omega)
    refine ⟨s.stepRun 17, congrArg Host.Outcome.next (if_pos hcar), hstep, hwin, ?_, hinv, fun hc => hexp.trans (he hc), fun h1 => ?_⟩
    · rw [State.flag_eq, hdone]
      rfl
    · rw [hft, hdue h1]
      rfl
  · exact congrArg Host.Outcome.next (if_neg (by omega))
  · exact congrArg Host.Outcome.next (if_pos (.inl h))
  · exact congrArg Host.Outcome.next (State.ppsEdge_of_other _ (.inl ⟨h, h'⟩))
  · exact exec_ppsMiss_of_early (.inr (.inl h))
  · exact exec_ppsMiss_of_early (.inr (.inr ⟨x, hx, h⟩))
  · exact exec_ppsMiss_of_early (.inl h)
  · refine congrArg Host.Outcome.next (if_neg ?_)
    rintro (h | h | h)
    · exact h hsel
    · exact absurd hns (Nat.not_lt.mpr h)
    · simp [hstep] at h
  · exact congrArg Host.Outcome.next (if_pos (.inr (.inl hns)))
  · exact exec_ppsMiss_of_due hs hsel hx h
  · rintro rise t e hp hl hx rfl hst hb hh
    obtain ⟨x, hx⟩ := Option.ne_none_iff_exists'.mp hx
    have htaken : s.ppsTaken (s.ppsAt t - 256 * x) = true := by
      rw [State.ppsTaken, if_pos (.inl hst)]
      rw [hx] at hb
      exact congrArg not hb
    refine congrArg Host.Outcome.next ?_
    change s.ppsEdge rise t = _
    rw [State.ppsEdge_of_unlabelled t hs hp hl hx, State.ppsJudged_of_taken htaken,
      State.ppsSampled_of_awake (s := s.ppsNoted false x) hs hsel hh, hx]
    rfl
  · rintro rise t e hp hl hx rfl h
    obtain ⟨x, hx⟩ := Option.ne_none_iff_exists'.mp hx
    rw [hx] at h
    have htaken : s.ppsTaken (s.ppsAt t - 256 * x) = false := by
      rw [State.ppsTaken]
      rcases h with ⟨h1, h2⟩ | ⟨h1, h2, c, hc, hlt⟩
      · rw [if_pos h1]
        exact congrArg not h2
      · rw [if_neg (by simp [h1, h2]), hc]
        exact decide_eq_false (by omega)
    refine congrArg Host.Outcome.next ?_
    change s.ppsEdge rise t = _
    rw [State.ppsEdge_of_unlabelled t hs hp hl hx, State.ppsJudged_of_spurious htaken]
  · rintro rise t v c e hp hl hc rfl hst hlast hh
    have htaken : s.ppsTaken (s.ppsAt t - 256 * v) = true := by
      rw [State.ppsTaken, if_neg (by omega), hlast]
    refine congrArg Host.Outcome.next ?_
    change s.ppsEdge rise t = _
    rw [State.ppsEdge_of_label t hs hp hl hc, State.ppsJudged_of_taken htaken,
      State.ppsSampled_of_awake (s := s.ppsNoted true v) hs hsel hh]
    rfl
  · exact fun rise t h => congrArg Host.Outcome.next (State.ppsEdge_of_other _ (.inr h))

end Sys2Proof.Machine
end

section
/-! SUPPORT. The time commands (R311) and the time pins (R282, R316 to R318, R326). -/

namespace Sys2Proof.Machine

/-! ### Time commands -/

theorem exec_timeSet_of_issued {s : State} {x : Nat} {c : Cmd} (h : s.Issued x 0x20 [(0, 48), (48, 32), (80, 2)] c) :
    exec (.timeSet x) s = .next (
      if secNs ≤ c.p 48 32 ∨ 2 ≤ c.p 80 2 then (s.begin x).reply x 3 []
      else if (c.p 80 2 = 0 ∧ s.srcSel ≠ 1) ∨ s.srcSel = 2 then (s.begin x).reply x 11 []
      else if s.time.step.isSome then (s.begin x).reply x 6 []
      else if c.p 80 2 = 0 then
        ((s.begin x).updTime (fun t => { t with label := some (c.p 0 48 * secNs + c.p 48 32, s.clock + 400) })).reply x 0 []
      else ((s.begin x).decideStep true (((c.p 0 48 * secNs + c.p 48 32 : Nat) : Int) * 2 ^ 32) (some x)).refreshTime) :=
  congrArg Host.Outcome.next (State.runCmd_issued s h _)

/-- A slew toward `off` begins (R311). -/
def State.slewBegun (s : State) (off : Int) : State :=
  (s.wr timB F.TIM_FREQ_ADJ_ADJ (BitVec.ofInt 32 (if off < 0 then -((s.freqLim * 1000000 : Nat) : Int)
    else ((s.freqLim * 1000000 : Nat) : Int))).toNat).updTime (fun t => { t with slew := some off })

theorem exec_timeAdjust_of_issued {s : State} {x : Nat} {c : Cmd} (h : s.Issued x 0x21 [(0, 64), (64, 2)] c) :
    exec (.timeAdjust x) s = .next (
      if s.rd timB F.TIM_STAT_STATE ≠ 1 then (s.begin x).reply x 11 []
      else if 2 ≤ c.p 64 2 then (s.begin x).reply x 3 []
      else if s.time.step.isSome || s.time.slew.isSome then (s.begin x).reply x 6 []
      else if c.p 64 2 = 1 then ((s.begin x).decideStep false ((BitVec.ofNat 64 (c.p 0 64)).toInt * 2 ^ 24) (some x)).refreshTime
      else (((s.begin x).slewBegun ((BitVec.ofNat 64 (c.p 0 64)).toInt * 2 ^ 24)).reply x 0 []).refreshTime) :=
  congrArg Host.Outcome.next (State.runCmd_issued s h _)

/-- The hops whose runs TIME_CAL starts (R311). -/
def State.calHops (s : State) : List Nat :=
  (List.range s.rom.rtrs.length).filter (fun r => !isRoot s.rom r && !(s.node r).run && !s.passNode r)

theorem exec_timeCal_of_issued {s : State} {x : Nat} {c : Cmd} (h : s.Issued x 0x22 [] c) :
    exec (.timeCal x) s = .next (
      if !s.time.freezes.isEmpty || s.time.nodes.any (fun e => e.2.frozen) then (s.begin x).reply x 6 []
      else (((s.begin x).startRuns s.calHops).updTime (fun t => { t with calCmds := t.calCmds ++ [(x, s.calHops)] })).calReply.refreshTime) :=
  congrArg Host.Outcome.next (State.runCmd_issued s h _)

theorem State.node_congr {s t : State} (h : t.time.nodes = s.time.nodes) (r : Nat) : t.node r = s.node r := by
  rw [State.node, h, State.node]

theorem State.time_replies (l : List (Nat × List Nat)) : ∀ a : State, (l.foldl (fun a e => a.reply e.1 0 []) a).time = a.time := by
  induction l with
  | nil => exact fun _ => rfl
  | cons e rest ih => exact fun a => (ih _).trans (a.nearCmds_reply e.1 0 []).time

/-- The replies to the TIME_CALs whose runs have ended leave the nodes. -/
theorem State.node_calReply (s : State) (r : Nat) : s.calReply.node r = s.node r := by
  refine State.node_congr ?_ r
  rw [State.calReply, State.time_replies]
  rfl

/-- Runs are in progress wherever TIME_CAL could start one. -/
theorem State.run_calHops {s : State} {r : Nat} (hr : r < s.rom.rtrs.length) (hroot : isRoot s.rom r = false)
    (hpass : s.passNode r = false) : r ∈ s.calHops ∨ (s.node r).run = true := by
  cases hrun : (s.node r).run
  · exact .inl (List.mem_filter.mpr ⟨List.mem_range.mpr hr, by simp [hroot, hrun, hpass]⟩)
  · exact .inr rfl

theorem State.cmd_reply_self (s : State) (x status : Nat) (data : List Byte) : (s.reply x status data).cmd x = none := by
  rw [State.cmd, State.cmds_reply, List.find?_eq_none]
  intro d hd
  simpa using (List.mem_filter.mp hd).2

/-! ### Pins -/

theorem State.pinOut_pulse (s : State) (k w : Nat) (sync : Bool) : (s.pulse k w sync).time.pinOut =
    mset (fun _ => 0) s.time.pinOut k (mget (fun _ => 0) s.time.pinOut k + 1) := rfl

theorem State.pinEnd_pulse (s : State) (k w : Nat) (sync : Bool) : (s.pulse k w sync).time.pinEnd =
    mset (fun _ => 0) s.time.pinEnd k (max (mget (fun _ => 0) s.time.pinEnd k) (s.clock + w)) := rfl

theorem State.markq_pulse (s : State) (k w : Nat) (sync : Bool) : (s.pulse k w sync).time.markq = s.time.markq := rfl

theorem exec_syncPulse_of_not {s : State} {k : Nat} (h : 4 ≤ k ∨ s.pinOwner k ≠ 1 ∨ s.rootOk = false ∨ s.syncDue k = false
    ∨ s.syncMay k = false) : exec (.syncPulse k) s = .next s := by
  change guardUnit s (decide (k < 4)) _ = _
  rcases h with h | h
  · rw [decide_eq_false (Nat.not_lt.mpr h), guardUnit_false]
  · rw [if_neg]
    · cases decide (k < 4) <;> rfl
    · rintro ⟨h1, h2, h3, h4⟩
      simp [h1, h2, h3, h4] at h

theorem exec_syncPulse_of_due {s : State} {k : Nat} (hk : k < 4) (h1 : s.pinOwner k = 1) (h2 : s.rootOk = true)
    (h3 : s.syncDue k = true) (h4 : s.syncMay k = true) :
    exec (.syncPulse k) s = .next (s.pulse k (5 * atLeast1 (s.rd timB (F.TIM_EVT0_WIDTH.ix k))) true) := by
  change guardUnit s (decide (k < 4)) _ = _
  rw [guardUnit_of (decide_eq_true hk), if_pos ⟨h1, h2, h3, h4⟩]

/-- Whether an edge at pin `k` is captured. -/
def State.edgeTaken (s : State) (k : Nat) (rise : Bool) : Prop :=
  (s.pinOwner k = 2 ∧ ((mget (fun _ => none) s.time.pinIn k : Option Nat).isNone && s.time.step.isNone && s.pfEdge k rise) = true)
    ∨ s.pinOwner k = 4

theorem exec_timeEvtEdge_of_taken {s : State} {k : Nat} {e : PinEdge} (hk : k < 4) (h : s.edgeTaken k e.rise) :
    exec (.timeEvtEdge k e) s = .next (s.updTime (fun u => { u with pinIn := mset (fun _ => none) u.pinIn k (some e.t) })) := by
  change guardUnit s (decide (k < 4)) _ = _
  rw [guardUnit_of (decide_eq_true hk)]
  exact congrArg Host.Outcome.next (if_pos h)

theorem exec_timeEvtEdge_of_not {s : State} {k : Nat} {e : PinEdge} (h : 4 ≤ k ∨ ¬ s.edgeTaken k e.rise) :
    exec (.timeEvtEdge k e) s = .next s := by
  change guardUnit s (decide (k < 4)) _ = _
  rcases h with h | h
  · rw [decide_eq_false (Nat.not_lt.mpr h), guardUnit_false]
  · cases decide (k < 4)
    · rfl
    · exact congrArg Host.Outcome.next (if_neg h)

theorem exec_markerPulse_of_not {s : State} {k : Nat} (h : 4 ≤ k ∨ (mget (fun _ => []) s.time.markq k : List Nat) = []
    ∨ ∃ a r, (mget (fun _ => []) s.time.markq k : List Nat) = a :: r ∧ s.wholeNs s.rootStamp < a) :
    exec (.markerPulse k) s = .next s := by
  change guardUnit s (decide (k < 4)) _ = _
  rcases h with h | h | ⟨a, r, hq, hlt⟩
  · rw [decide_eq_false (Nat.not_lt.mpr h), guardUnit_false]
  · rw [h]
    cases decide (k < 4) <;> rfl
  · rw [hq]
    dsimp only
    rw [if_pos hlt]
    cases decide (k < 4) <;> rfl

theorem exec_markerPulse_of_due {s : State} {k a : Nat} {r : List Nat} (hk : k < 4)
    (hq : (mget (fun _ => []) s.time.markq k : List Nat) = a :: r) (ha : a ≤ s.wholeNs s.rootStamp) (ho : s.pinOwner k = 3) :
    exec (.markerPulse k) s = .next ((s.updTime (fun u => { u with markq := mset (fun _ => []) u.markq k r })).pulse k 10 false) := by
  change guardUnit s (decide (k < 4)) _ = _
  rw [guardUnit_of (decide_eq_true hk), hq]
  dsimp only
  rw [if_neg (Nat.not_lt.mpr ha), if_pos ho]

/-- Whether NI `n` has a marker at `t` for a pin that it holds (R318). -/
def State.marksPin (s : State) (n t : Nat) : Bool :=
  s.flag (niB n) F.NI_GATE_CTL_MARK_EN && s.pinOwner (s.rd (niB n) F.NI_GATE_CTL_MARK_PIN) == 3
    && s.pinNi (s.rd (niB n) F.NI_GATE_CTL_MARK_PIN) == n && s.marksAt n t

/-- The instants that wait at the pin that NI `n` marks. -/
def State.marksOf (s : State) (n : Nat) : List Nat := mget (fun _ => []) s.time.markq (s.rd (niB n) F.NI_GATE_CTL_MARK_PIN)

theorem State.announce_eq (s : State) (n t : Nat) : s.announce n t =
    if s.marksPin n t then
      if s.wholeNs s.rootStamp + 2000 < t then s
      else if t < s.wholeNs s.rootStamp + 1000 then s.count timB F.TIM_EVT_LATE_CNT_COUNT 1
      else if (s.marksOf n).any (fun u => decide (u < t + 100) && decide (t < u + 100)) then s
      else if 16 ≤ (s.marksOf n).length then s.count timB F.TIM_EVT_LATE_CNT_COUNT 1
      else s.updTime (fun u => { u with
        markq := mset (fun _ => []) u.markq (s.rd (niB n) F.NI_GATE_CTL_MARK_PIN) (s.marksOf n ++ [t]) })
    else s := rfl

theorem State.not_near_any {l : List Nat} {t : Nat} (h : ∀ u ∈ l, t + 100 ≤ u ∨ u + 100 ≤ t) :
    l.any (fun u => decide (u < t + 100) && decide (t < u + 100)) = false := by
  rw [List.any_eq_false]
  intro u hu
  have := h u hu
  simp only [Bool.and_eq_true, decide_eq_true_eq, not_and, Nat.not_lt]
  omega

/-- Settles O21: the branches of the time commands, and when a pin acts. -/
theorem timeCommandsAndPins : Obligations.TimeCommandsAndPins := by
  unfold Obligations.TimeCommandsAndPins
  refine ⟨fun s x c => ⟨fun h => ⟨fun h1 => ?_, fun h1 h2 h3 => ?_, fun h1 h2 h3 h4 h5 => ?_⟩, fun h => ⟨fun h1 => ?_, fun h1 h2 => ?_,
      fun h1 h2 h3 => ?_⟩, fun h h1 => ?_, fun h h1 h2 => ⟨fun h3 h4 => ?_, fun h3 h4 => ?_⟩, fun h h1 h2 h3 => ?_, fun h h1 h2 => ?_,
      fun h => ?_⟩,
    fun s => ⟨fun up h => ?_, fun up h => ?_, fun k h => exec_syncPulse_of_not h, fun k e h => ?_, fun k h => exec_markerPulse_of_not h,
      fun k hk => ⟨fun h1 h2 h3 h4 => ?_, fun rise t h => ?_, fun a r hq ha ho => ?_⟩, fun n t h => ?_, ?_⟩⟩
  · rw [exec_timeSet_of_issued h, if_pos h1]
  · rw [exec_timeSet_of_issued h, if_neg (by simp only [secNs]; omega), if_pos h3]
  · rw [exec_timeSet_of_issued h, if_neg (by simp only [secNs]; omega), if_neg (by omega),
      if_pos (Option.isSome_iff_ne_none.mpr h5)]
  · rw [exec_timeAdjust_of_issued h, if_pos h1]
  · rw [exec_timeAdjust_of_issued h, if_neg (not_not.mpr h1), if_pos h2]
  · rw [exec_timeAdjust_of_issued h, if_neg (not_not.mpr h1), if_neg (by omega), if_pos]
    rw [Bool.or_eq_true, Option.isSome_iff_ne_none, Option.isSome_iff_ne_none]
    exact h3
  · rw [exec_timeCal_of_issued h, if_pos]
    rcases h1 with h1 | h1
    · simp [h1]
    · simp [h1]
  · rw [exec_timeSet_of_issued h, if_neg (by simp only [secNs]; omega), if_neg (by omega), if_neg (by simp [h2]), if_pos h3]
    rfl
  · rw [exec_timeSet_of_issued h, if_neg (by simp only [secNs]; omega), if_neg (by omega), if_neg (by simp [h2]), if_neg (by omega)]
    rfl
  · rintro off rfl
    have hexec := exec_timeAdjust_of_issued h
    rw [if_neg (not_not.mpr h1)] at hexec
    refine ⟨fun hm => ?_, fun hm => ?_⟩
    · rw [hexec, if_neg (by omega), if_neg (by simp [h2, h3]), if_pos hm]
      rfl
    · rw [if_neg (by omega), if_neg (by simp [h2, h3]), if_neg (by omega)] at hexec
      refine ⟨_, hexec, ?_, ?_⟩
      · rw [State.time_refreshTime, (State.nearCmds_reply _ x 0 []).time]
        rfl
      · rw [(State.near_refreshTime _).cmd, State.cmd_reply_self]
  · have hexec := exec_timeCal_of_issued h
    rw [if_neg (by simp [h1, h2])] at hexec
    refine ⟨_, hexec, fun r hr hroot hpass => ?_⟩
    rw [State.node_congr (congrArg TimeSt.nodes (State.time_refreshTime _)), State.node_calReply]
    exact State.run_startRuns (s := s.begin x) hroot (State.run_calHops hr hroot hpass)
  · exact congrArg Host.Outcome.next (State.runCmd_issued s h _)
  · exact congrArg Host.Outcome.next (if_pos h.symm)
  · exact congrArg Host.Outcome.next (if_neg (Ne.symm h))
  · refine exec_timeEvtEdge_of_not (h.imp_right ?_)
    rintro ⟨h4, h2⟩ (⟨ho, hf⟩ | ho)
    · simp only [Bool.and_eq_true, Option.isNone_iff_eq_none] at hf
      obtain ⟨⟨hin, hstep⟩, hedge⟩ := hf
      rcases h2 with h2 | h2 | h2 | h2
      · exact h2 ho
      · exact h2 hstep
      · simp [hedge] at h2
      · exact h2 hin
    · exact h4 ho
  · refine ⟨_, exec_syncPulse_of_due hk h1 h2 h3 h4, ?_, ?_, fun j hj => ?_⟩
    · rw [State.pinOut_pulse, mget_mset_same]
    · rw [State.pinEnd_pulse, mget_mset_same]
    · rw [State.pinOut_pulse, mget_mset_ne _ _ _ hj]
  · refine ⟨_, exec_timeEvtEdge_of_taken hk (h.imp_left ?_), ?_, rfl, rfl⟩
    swap
    · rw [State.updTime, mget_mset_same]
    rintro ⟨ho, hedge, hstep, hin⟩
    exact ⟨ho, by simp [hin, hstep, hedge]⟩
  · refine ⟨_, exec_markerPulse_of_due hk hq ha ho, ?_, ?_⟩
    · rw [State.pinOut_pulse, mget_mset_same]
      rfl
    · rw [State.markq_pulse, State.updTime, mget_mset_same]
  · change guardUnit s (s.hasNi n) (s.announce n t) = _
    rw [State.announce_eq]
    rcases h with h | h | h
    · rw [h, guardUnit_false]
    · rw [if_neg (by rw [State.marksPin, h]; decide)]
      cases s.hasNi n <;> rfl
    · rw [if_pos h, ite_self]
      cases s.hasNi n <;> rfl
  · rintro n k t hn rfl hm
    replace hm : s.marksPin n t = true := hm
    have hexec : exec (.markerAnnounce n t) s = .next (s.announce n t) := guardUnit_of hn _ _
    rw [State.announce_eq, if_pos hm] at hexec
    refine ⟨fun h1 => ?_, fun h1 h2 ⟨u, hu, hu1, hu2⟩ => ?_, fun h1 h2 h3 h4 => ?_, fun h1 h2 h3 h4 => ?_⟩
    · rw [hexec, if_neg (by omega), if_pos h1]
    · rw [hexec, if_neg (by omega), if_neg (by omega), if_pos]
      exact List.any_eq_true.mpr ⟨u, hu, by simp [hu1, hu2]⟩
    · rw [hexec, if_neg (by omega), if_neg (by omega), State.marksOf, State.not_near_any h4, if_neg Bool.false_ne_true, if_pos h3]
    · rw [if_neg (by omega), if_neg (by omega), State.marksOf, State.not_near_any h4, if_neg Bool.false_ne_true,
        if_neg (by omega)] at hexec
      refine ⟨_, hexec, ?_⟩
      rw [State.updTime, mget_mset_same]

end Sys2Proof.Machine
end

section
/-! SUPPORT. A marker that finds its node's parent hop past the tracking limit, in a ROM whose region numbers go past the 16 regions
that there can be: why the statement about markers does not hold of every state (R292, R293, R302). -/

namespace Sys2Proof.Machine

/-- A ROM whose third router has a region number so large that its state would stand in the cause register of global source 0. -/
def strayRegionRom : Rom := { rtrs := [{}, { timeParent := 0 }, { timeParent := 1, region := 0x4028 }], regions := [{}] }

/-- A calibrated node with 15 errors whose sum is past the limit, and a marker on its way. -/
def losingNode : Node := { cal := true, load := false, n := 15, sum := 5000, mark := some { time := 0, inc := 0 } }

/-- The state in which that marker arrives at router 1, the parent of router 2. -/
def strayRegionState : State :=
  { rom := strayRegionRom, straps := {}, time := { nodes := [(1, losingNode)] } }

/-- Refutes O18: the statement lets a router's region be any number. The marker takes router 1 to TRACK_FAIL, the event sets a cause
bit in the very register that the number 0x4028 makes the state of router 2's region, so that router 2 passes for a node in
pass-through and the marker does not go on to it. -/
theorem not_markersAndCalibration : ¬ Obligations.MarkersAndCalibration := by
  unfold Obligations.MarkersAndCalibration
  intro h
  obtain ⟨-, h, -⟩ := h
  obtain ⟨t, ht, -, -, -, -, -, -, -, hsent⟩ := (h strayRegionState 1 0).2 losingNode { time := 0, inc := 0 } 0 0 0
    (by decide +kernel) (by decide +kernel) rfl (by decide +kernel) rfl (by decide +kernel) (by decide +kernel) (by decide +kernel)
    (by decide +kernel)
  have hmark := hsent 2 (by decide +kernel) (by decide +kernel) (by decide +kernel) (by decide +kernel)
  have hexec : exec (.markerArrival 1 0) strayRegionState = .next (strayRegionState.markerAt 1 0) := rfl
  rw [hexec] at ht
  cases ht
  have hnone : ((strayRegionState.markerAt 1 0).node 2).mark = none := by decide +kernel
  rw [hnone] at hmark
  cases hmark

end Sys2Proof.Machine
end

section
/-! SUPPORT. The Pacer's commands (R506, R508, R517, R530). -/

namespace Sys2Proof.Machine

theorem exec_pwrBudget_of_issued {s : State} {x : Nat} {c : Cmd} (h : s.Issued x 0x53 [(0, 16), (32, 20)] c) :
    exec (.pwrBudget x) s = .next (if c.p 0 16 = 0 then (s.begin x).reply x 3 []
      else (((s.begin x).wr pcrB F.PCR_GOV_REFILL_STONES (c.p 0 16)).wr pcrB F.PCR_GOV_CAP_STONES (c.p 32 20)).reply x 0 []) :=
  congrArg Host.Outcome.next (State.runCmd_issued s h _)

theorem exec_pwrPolicy_of_issued {s : State} {x : Nat} {c : Cmd} (h : s.Issued x 0x54 [(0, 4), (8, 3)] c) :
    exec (.pwrPolicy x) s = .next (if s.hasRegion (c.p 0 4) = false then (s.begin x).reply x 3 []
      else ((s.begin x).wr pcrB (F.PCR_RG_CFG_POL.ix (c.p 0 4)) (c.p 8 3)).reply x 0 []) :=
  congrArg Host.Outcome.next (State.runCmd_issued s h _)

theorem exec_pwrState_of_issued {s : State} {x : Nat} {c : Cmd} (h : s.Issued x 0x50 [(0, 16), (16, 1), (17, 3)] c) :
    exec (.pwrState x) s = .next ((s.begin x).pwrState x c) := congrArg Host.Outcome.next (State.runCmd_issued s h _)

/-! ### The regions that a request moves -/

/-- Every region that a request moves is there. -/
theorem State.hasRegion_of_mem_pwrMoves {s : State} {inst : Bool} {mask st g : Nat} (h : g ∈ s.pwrMoves inst mask st) :
    s.hasRegion g = true := by
  have hl {p : Nat → Bool} (hg : g ∈ (List.range s.rom.regions.length).filter p) : s.hasRegion g = true :=
    decide_eq_true (List.mem_range.mp (List.mem_filter.mp hg).1)
  unfold State.pwrMoves at h
  dsimp only at h
  split at h
  · rcases List.mem_append.mp h with h | h
    · exact hl (List.mem_filter.mp h).1
    · exact hl (List.mem_filter.mp h).1
  · exact hl h

/-- A request that names regions on the way to another state than RUN moves those. -/
theorem State.pwrMoves_of_named (s : State) (mask : Nat) {st : Nat} (h : st ≠ 0) :
    s.pwrMoves false mask st = (List.range s.rom.regions.length).filter (fun g => bitAt mask g) := by
  unfold State.pwrMoves
  exact if_neg h

/-! ### The request by its refusal -/

section

variable {s : State} (x : Nat) {c : Cmd} {inst : Bool} {mask st : Nat} {l : List Nat} (hst : st = c.p 17 3) (hmask : mask = c.p 0 16)
  (hinst : inst = (c.p 16 1 == 1)) (hl : l = s.pwrMoves inst mask st)

include hst hmask hinst hl

theorem State.pwrState_of_held {pins : Nat} (h : s.pwrRefusal inst mask st l = (0x0D, pins)) :
    s.pwrState x c = s.reply x 0x0D (leBytes 2 0 ++ leBytes 2 pins) := by
  subst hst hmask hinst hl
  rw [State.pwrState, h]
  rfl

theorem State.pwrState_of_refused {e pins : Nat} (h : s.pwrRefusal inst mask st l = (e, pins)) (h0 : e ≠ 0) (hd : e ≠ 0x0D) :
    s.pwrState x c = s.reply x e (leBytes 2 0) := by
  subst hst hmask hinst hl
  rw [State.pwrState, h]
  dsimp only
  rw [if_neg hd, if_pos h0]

theorem State.pwrState_of_wide (h : s.pwrRefusal inst mask st l = (0, 0)) (hi : inst = true) (h1 : 1 ≤ st) :
    s.pwrState x c = ((l.filter (fun g => g != s.rom.homeRegion)).foldl (fun a g => a.moveStart g st)
      (s.updPacer (fun p => { p with
        inst := some (st, some x), moved := bitsWhere 16 (fun g => l.contains g && decide (s.rgState g ≤ 1)) }))).arrived := by
  subst hst hmask hinst hl
  rw [State.pwrState, h]
  dsimp only
  rw [if_neg (by decide), if_neg (by decide), if_pos (by simp only [hi, Bool.true_and, decide_eq_true_eq, h1])]

theorem State.pwrState_of_regions (h : s.pwrRefusal inst mask st l = (0, 0)) (hi : inst = false ∨ st = 0) :
    s.pwrState x c = (l.foldl (fun a g => a.moveStart g st)
      ((if st = 0 ∧ l.isEmpty = false then s.abortWide 0x37 else s).updPacer (fun p => { p with
        cmds := p.cmds ++ [(x, bitsWhere 16 (fun g => l.contains g), st)] }))).arrived := by
  have hnot : (inst && decide (1 ≤ st)) = false := by
    rcases hi with hi | hi <;> simp [hi]
  subst hst hmask hinst hl
  rw [State.pwrState, h]
  dsimp only
  rw [if_neg (by decide), if_neg (by decide), hnot, if_neg Bool.false_ne_true]

end

/-- Settles O22: each command's reply, and PWR_STATE by what refuses it. -/
theorem pacerCommandsAct : Obligations.PacerCommandsAct := by
  unfold Obligations.PacerCommandsAct
  refine ⟨fun s x c => ⟨fun h => ?_, fun h h0 => ?_, fun h h0 => ?_, fun h hg => ?_, fun h hg => ?_, fun h => ?_⟩,
    fun s x st mask inst c l h hst hmask hinst hl => ⟨⟨?_, ?_⟩, ?_, ?_, ?_, ?_⟩⟩
  · exact congrArg Host.Outcome.next (State.runCmd_issued s h _)
  · rw [exec_pwrBudget_of_issued h, if_neg h0]
  · rw [exec_pwrBudget_of_issued h, if_pos h0]
  · rw [exec_pwrPolicy_of_issued h, if_pos hg]
  · rw [exec_pwrPolicy_of_issued h, if_neg (by simp [hg])]
  · exact congrArg Host.Outcome.next (State.runCmd_issued s h _)
  · rintro rfl h0
    rw [hl, State.pwrMoves_of_named _ _ h0]
    rfl
  · rintro g hg
    rw [hl] at hg
    exact State.hasRegion_of_mem_pwrMoves hg
  · rintro pins hr
    rw [exec_pwrState_of_issued h, State.pwrState_of_held x hst hmask hinst hl hr]
  · rintro e pins hr h0 hd
    rw [exec_pwrState_of_issued h, State.pwrState_of_refused x hst hmask hinst hl hr h0 hd]
  · rintro v hr hi rfl
    rw [exec_pwrState_of_issued h, State.pwrState_of_regions x hst hmask hinst hl hr hi]
  · rintro hr hi h1
    rw [exec_pwrState_of_issued h, State.pwrState_of_wide x hst hmask hinst hl hr hi h1]
    rfl

end Sys2Proof.Machine
end

section
/-! SUPPORT. What events, replies, an abort of a heat and a hold of regions leave of an NI: they reach it through its system queue,
its outbox and its targets only. -/

namespace Sys2Proof.Machine

/-- `y` is the NI `x` but for what it is told: its system packets, what waits for the endpoint, and its targets. -/
def NiSt.Told (x y : NiSt) : Prop :=
  { y with nextSer := x.nextSer, sysq := x.sysq, sysPend := x.sysPend, out := x.out, tgts := x.tgts } = x

namespace NiSt.Told

variable {x y z : NiSt}

theorem refl (x : NiSt) : x.Told x := rfl

theorem trans (h : x.Told y) (k : y.Told z) : x.Told z := by
  unfold NiSt.Told at *
  rw [← h, ← k]

theorem closed (h : x.Told y) : y.closed = x.closed := by rw [← h]
theorem squash (h : x.Told y) : y.squash = x.squash := by rw [← h]
theorem rsvs (h : x.Told y) : y.rsvs = x.rsvs := by rw [← h]
theorem of_eq (h : x.Told y) (e : x = z) : z.Told y := e ▸ h

theorem admitSys (l : List Qp) : ∀ x : NiSt, x.Told (x.admitSys l) := by
  induction l with
  | nil => exact fun x => rfl
  | cons p r ih =>
    intro x
    rw [NiSt.admitSys]
    split
    · exact trans (y := { x with sysq := x.sysq ++ [p] }) rfl (ih _)
    · rfl

theorem pushSys (x : NiSt) (p : Qp) : x.Told (x.pushSys p) := trans (y := { x with nextSer := x.nextSer + 1 }) rfl (admitSys _ _)

end NiSt.Told

/-- Every NI of `t` is that of `s` but for what it is told. -/
structure State.NisTold (s t : State) : Prop where
  told : ∀ n, (s.ni n).Told (t.ni n)

namespace State.NisTold

variable {s t u : State}

theorem refl (s : State) : s.NisTold s := ⟨fun _ => rfl⟩

theorem trans (h : s.NisTold t) (k : t.NisTold u) : s.NisTold u := ⟨fun n => (h.told n).trans (k.told n)⟩

theorem of_nis (h : s.NisTold t) (hu : u.nis = t.nis) : s.NisTold u := ⟨fun n => by
  unfold State.ni
  rw [hu]
  exact h.told n⟩

theorem ite {c : Prop} [Decidable c] {a b : State} (ha : s.NisTold a) (hb : s.NisTold b) : s.NisTold (if c then a else b) := by
  split
  · exact ha
  · exact hb

theorem foldl {α : Type} {f : State → α → State} {l : List α} (hf : ∀ a x, s.NisTold a → s.NisTold (f a x))
    (h : s.NisTold t) : s.NisTold (l.foldl f t) := by
  induction l generalizing t with
  | nil => exact h
  | cons x r ih => exact ih (hf t x h)

theorem forAll {n : Nat} {f : Nat → State → State} (hf : ∀ i a, s.NisTold a → s.NisTold (f i a)) (h : s.NisTold t) :
    s.NisTold (Machine.forAll n f t) :=
  h.foldl fun a i ha => hf i a ha

theorem setNi {n : Nat} {x : NiSt} (h : s.NisTold t) (hx : (s.ni n).Told x) : s.NisTold (t.setNi n x) := ⟨fun j => by
  unfold State.setNi State.ni
  by_cases hj : j = n
  · subst hj
    rw [mget_mset_same]
    exact hx
  · rw [mget_mset_ne _ _ _ hj]
    exact h.told j⟩

theorem updNi {n : Nat} {f : NiSt → NiSt} (h : s.NisTold t) (hf : ∀ x : NiSt, x.Told (f x)) : s.NisTold (t.updNi n f) :=
  h.setNi ((h.told n).trans (hf _))

theorem wr {b f v} (h : s.NisTold t) : s.NisTold (t.wr b f v) := h.of_nis rfl
theorem setWord {o w} (h : s.NisTold t) : s.NisTold (t.setWord o w) := h.of_nis rfl
theorem setBit {b f i} (h : s.NisTold t) : s.NisTold (t.setBit b f i) := h.of_nis rfl
theorem setWord64 {o v} (h : s.NisTold t) : s.NisTold (t.setWord64 o v) := h.setWord.setWord
theorem count {b f v} (h : s.NisTold t) : s.NisTold (t.count b f v) := h.of_nis rfl

theorem pushSys {n p} (h : s.NisTold t) : s.NisTold (t.pushSys n p) := h.updNi fun x => .pushSys x p

theorem sendMsg {x f v cause} (h : s.NisTold t) : s.NisTold (t.sendMsg x f v cause).1 := by
  unfold State.sendMsg
  split
  · exact h
  · dsimp only
    split
    · exact h
    · split
      · exact h.count
      · exact h.pushSys

theorem sendMsgs {x cause} (h : s.NisTold t) : s.NisTold (t.sendMsgs x cause).1 := h.sendMsg.sendMsg

theorem logErr {src cause sev data} (h : s.NisTold t) : s.NisTold (t.logErr src cause sev data) := by
  unfold State.logErr
  exact h.setWord.setWord.setWord64.count

theorem occur {x i} (h : s.NisTold t) : s.NisTold (t.occur x i).1 := by
  unfold State.occur
  dsimp only
  split
  · split
    · exact h.setBit.logErr.sendMsgs
    · exact h.setBit.logErr
  · split
    · exact h.setBit.sendMsgs
    · exact h.setBit

theorem msgLost {ovf bad} (h : s.NisTold t) : s.NisTold (t.msgLost ovf bad) := .ite (occur (.ite h.occur h)) (.ite h.occur h)

theorem raise {x i} (h : s.NisTold t) : s.NisTold (t.raise x i) := h.occur.msgLost

theorem glEvent {g i} (h : s.NisTold t) : s.NisTold (t.glEvent g i) := h.raise
theorem rgEvent {g i} (h : s.NisTold t) : s.NisTold (t.rgEvent g i) := h.raise

theorem putBytes {off l} (h : s.NisTold t) : s.NisTold (t.putBytes off l) := h.forAll fun _ _ h => h.of_nis rfl

theorem replyNoted {status} (h : s.NisTold t) : s.NisTold (t.replyNoted status) := .ite h.count h.count.wr

theorem sendReply {c status data} (h : s.NisTold t) : s.NisTold (t.sendReply c status data) := by
  rw [sendReply_eq]
  exact .ite h.replyNoted.pushSys h.replyNoted.putBytes.wr.wr.glEvent

theorem reply {x status data} (h : s.NisTold t) : s.NisTold (t.reply x status data) := by
  unfold State.reply
  split
  · exact h
  · exact .ite (h.of_nis rfl) (sendReply (h.of_nis rfl))

theorem replyOpt {x status data} (h : s.NisTold t) : s.NisTold (t.replyOpt x status data) := by
  cases x with
  | none => exact h
  | some k => exact h.reply

theorem rgGo {g st} (h : s.NisTold t) : s.NisTold (t.rgGo g st) := by
  unfold State.rgGo
  refine .ite h (rgEvent ?_)
  exact .ite (wr (wr (.ite (h.of_nis rfl) h))) (wr (.ite (h.of_nis rfl) h))

theorem rouse {mask} (h : s.NisTold t) : s.NisTold (t.rouse mask) := h.foldl fun _ _ h => .ite h.rgGo h

theorem holdRuns (h : s.NisTold t) : s.NisTold t.holdRuns := h.wr.rouse

theorem relayDown {o} (h : s.NisTold t) : s.NisTold (t.relayDown o) := h.foldl fun _ _ h => h.of_nis rfl

theorem broadcast {own o} (h : s.NisTold t) : s.NisTold (t.broadcast own o) := by
  unfold State.broadcast
  dsimp only
  split
  · exact h.relayDown
  · exact h.relayDown.of_nis rfl
  · exact h.relayDown.of_nis rfl

theorem joinedOut {r k} (h : s.NisTold t) : s.NisTold (t.joinedOut r k) := .ite (h.foldl fun _ _ h => h.broadcast) h

theorem clearVotes {k} (h : s.NisTold t) : s.NisTold (t.clearVotes k) := h.forAll fun _ _ h => by
  split
  · exact h.updNi fun _ => rfl
  · exact h

theorem relayStart {r k} (h : s.NisTold t) : s.NisTold (t.relayStart r k) := h.clearVotes.joinedOut.of_nis rfl

theorem heatReady (h : s.NisTold t) : s.NisTold t.heatReady := h.foldl fun _ _ h => .ite h.wr h

theorem heatPump (h : s.NisTold t) : s.NisTold t.heatPump := by
  unfold State.heatPump
  dsimp only
  split
  · exact h.heatReady
  · split
    · exact h.heatReady
    · exact h.heatReady.relayStart.rouse

theorem give {kind who} (h : s.NisTold t) : s.NisTold (t.give kind who) := .ite (h.of_nis rfl) (h.of_nis rfl)

theorem heatFloors {hd} (h : s.NisTold t) : s.NisTold (t.heatFloors hd) := .ite h.wr h

theorem setHeat {k v} (h : s.NisTold t) : s.NisTold (t.setHeat k v) := h.of_nis rfl
theorem backOff {c k} (h : s.NisTold t) : s.NisTold (t.backOff c k) := h.of_nis rfl
theorem relayEnd {k} (h : s.NisTold t) : s.NisTold (t.relayEnd k) := h.of_nis rfl

theorem heatAbort {k reason first detail} (h : s.NisTold t) : s.NisTold (t.heatAbort k reason first detail) := by
  unfold State.heatAbort
  refine .ite h ?_
  dsimp only
  have hcount : s.NisTold (((((t.heatGo k 10).wr hcuB (F.HCU_SLOT0_REASON.ix k) reason).wr hcuB (F.HCU_SLOT7_FIRST.ix k) first).wr
      hcuB (F.HCU_SLOT7_DETAIL.ix k) detail).count hcuB F.HCU_CNT_ABORT_COUNT 1) := h.wr.wr.wr.wr.count
  refine heatPump (glEvent (give (joinedOut (relayEnd (setHeat (heatFloors (replyOpt (foldl (fun _ _ h => h.reply) ?_))))))))
  exact .ite (.backOff (.ite hcount.count hcount)) (.ite hcount.count hcount)

theorem heatSlice {sl} (h : s.NisTold t) : s.NisTold (t.heatSlice sl) := h.foldl fun _ _ h => .ite h.heatAbort h

theorem revoke {n sl} (h : s.NisTold t) : s.NisTold (t.revoke n sl) :=
  ((h.forAll fun _ _ h => .ite h.wr h).forAll fun _ _ h => .ite h.wr h).holdRuns

theorem sbeEvent {n code} (h : s.NisTold t) : s.NisTold (t.sbeEvent n code) := .ite h (h.updNi fun _ => rfl)

theorem slcMsg {kind sl n} (h : s.NisTold t) : s.NisTold (t.slcMsg kind sl n) := .ite h.sbeEvent h

end State.NisTold

end Sys2Proof.Machine
end

section
/-! SUPPORT. Slices: the commands and the course of a slice reset (R422, R424, R435 to R439, R442). -/

namespace Sys2Proof.Machine

/-! ### Bits -/

theorem bitsAt_bitsAt (v lo w lo' w' : Nat) (h : lo' + w' ≤ w) : bitsAt (bitsAt v lo w) lo' w' = bitsAt v (lo + lo') w' := by
  refine Nat.eq_of_testBit_eq fun j => ?_
  rw [testBit_bitsAt, testBit_bitsAt, testBit_bitsAt, Nat.add_assoc]
  by_cases hj : j < w'
  · simp [hj, show lo' + j < w by omega]
  · simp [hj]

theorem bitAt_setBit (v sl : Nat) : bitAt (v ||| 2 ^ sl) sl = true := by
  rw [bitAt_eq_testBit, Nat.testBit_or, Nat.testBit_two_pow_self, Bool.or_true]

/-- A mask without bit `sl`, as the slice commands write it. -/
def clearOf (sl m : Nat) : Nat := if bitAt m sl then m - 2 ^ sl else m

theorem bitAt_clearOf (sl m : Nat) : bitAt (clearOf sl m) sl = false := by
  unfold clearOf
  split
  next h =>
    have hle : 2 ^ sl ≤ m := Nat.ge_two_pow_of_testBit ((bitAt_eq_testBit m sl).symm.trans h)
    have hsum : m = 2 ^ sl + (m - 2 ^ sl) := (Nat.add_sub_cancel' hle).symm
    rw [bitAt_eq_testBit] at h ⊢
    rw [hsum, Nat.testBit_two_pow_add_eq] at h
    simpa using h
  next h => exact Bool.eq_false_iff.mpr h

/-! ### What NIs know of closed slices -/

/-- Every NI of `t` has the closed and the squashed slices that it has in `s`. -/
structure State.SameMasks (s t : State) : Prop where
  closed : ∀ n, (t.ni n).closed = (s.ni n).closed
  squash : ∀ n, (t.ni n).squash = (s.ni n).squash

namespace State.SameMasks

variable {s t u : State}

theorem refl (s : State) : s.SameMasks s := ⟨fun _ => rfl, fun _ => rfl⟩

theorem trans (h : s.SameMasks t) (k : t.SameMasks u) : s.SameMasks u :=
  ⟨fun n => (k.closed n).trans (h.closed n), fun n => (k.squash n).trans (h.squash n)⟩

theorem of_told (h : s.NisTold t) : s.SameMasks t := ⟨fun n => (h.told n).closed, fun n => (h.told n).squash⟩

theorem of_nis (h : t.nis = s.nis) : s.SameMasks t := of_told ((NisTold.refl s).of_nis h)

theorem setNi (s : State) (n : Nat) (x : NiSt) (hc : x.closed = (s.ni n).closed) (hs : x.squash = (s.ni n).squash) :
    s.SameMasks (s.setNi n x) := by
  constructor <;> intro j <;> unfold State.setNi State.ni
  · by_cases hj : j = n
    · subst hj
      rw [mget_mset_same]
      exact hc
    · rw [mget_mset_ne _ _ _ hj]
  · by_cases hj : j = n
    · subst hj
      rw [mget_mset_same]
      exact hs
    · rw [mget_mset_ne _ _ _ hj]

theorem foldl {α : Type} {f : State → α → State} (hf : ∀ a x, State.SameMasks a (f a x)) (l : List α) (s : State) :
    s.SameMasks (l.foldl f s) := by
  induction l generalizing s with
  | nil => exact refl s
  | cons x r ih => exact (hf s x).trans (ih _)

theorem sbDiscard (s : State) (n : Nat) (g : Tag) : s.SameMasks (s.sbDiscard n g) := by
  have h := (NisTold.refl s).count (b := niB n) (f := F.NI_DISCARD_CNT_COUNT) (v := 1)
  exact of_told (.ite h h.wr.wr.wr.wr.wr.wr)

theorem credits (s : State) (o : Port) (vc k : Nat) : s.SameMasks (s.credits o vc k) :=
  foldl (fun a _ => by
    refine of_nis ?_
    unfold State.credit
    split
    · rfl
    · rfl) _ s

theorem dropPk (s : State) (n k : Nat) : s.SameMasks (s.dropPk n k) := by
  unfold State.dropPk
  dsimp only
  split
  · exact refl s
  next p _ =>
    refine (setNi s n (((s.ni n).setPk k none).stopRx p) ?_ ?_).trans (credits _ _ _ _)
    · unfold NiSt.stopRx
      split <;> rfl
    · unfold NiSt.stopRx
      split <;> rfl

end State.SameMasks

/-! ### What a squash does to an NI's masks -/

/-- `y` has the masks of `x`. -/
def NiSt.SameMasks (x y : NiSt) : Prop := y.closed = x.closed ∧ y.squash = x.squash

theorem NiSt.sameMasks_forgetPk (x : NiSt) (k : Nat) : x.SameMasks (x.forgetPk k) := by
  unfold NiSt.forgetPk NiSt.stopRx
  split
  · exact ⟨rfl, rfl⟩
  · split
    · exact ⟨rfl, rfl⟩
    · exact ⟨rfl, rfl⟩

theorem NiSt.sameMasks_foldl {α : Type} {f : NiSt → α → NiSt} (hf : ∀ a x, NiSt.SameMasks a (f a x)) (l : List α) :
    ∀ x : NiSt, x.SameMasks (l.foldl f x) := by
  induction l with
  | nil => exact fun x => ⟨rfl, rfl⟩
  | cons e r ih =>
    intro x
    obtain ⟨hc, hs⟩ := hf x e
    obtain ⟨kc, ks⟩ := ih (f x e)
    exact ⟨kc.trans hc, ks.trans hs⟩

theorem NiSt.sameMasks_freeSlice (x : NiSt) (sl : Nat) : x.SameMasks (x.freeSlice sl) := by
  obtain ⟨hc, hs⟩ := NiSt.sameMasks_foldl (f := fun (a : NiSt) (e : Nat × Tag) => a.freeTag e.1) (fun a e => ⟨rfl, rfl⟩)
    (x.tags.filterMap (fun e => match e.2 with
      | some g => if g.slice = sl ∧ g.evd = false then some (e.1, g) else none
      | none => none)) x
  obtain ⟨kc, ks⟩ := NiSt.sameMasks_foldl (f := fun (a : NiSt) (r : RpEnt) => a.forgetPk r.pk) (fun a r => a.sameMasks_forgetPk r.pk)
    _ _
  exact ⟨kc.trans hc, ks.trans hs⟩

theorem NiSt.closed_squashSlice (x : NiSt) (big : Bool) (sl : Nat) : (x.squashSlice big sl).closed = x.closed :=
  (NiSt.sameMasks_freeSlice _ sl).1

theorem NiSt.squash_squashSlice (x : NiSt) (big : Bool) (sl : Nat) : (x.squashSlice big sl).squash = x.squash ||| 2 ^ sl :=
  (NiSt.sameMasks_freeSlice _ sl).2

end Sys2Proof.Machine
end

section
/-! SUPPORT. The slice commands, and the course of a slice reset (R422, R424, R435 to R439, R442). -/

namespace Sys2Proof.Machine

variable {s : State} {x n sl : Nat} {c : Cmd}

/-! ### CLOSE and SQUASH at an NI (R436, R438) -/

theorem State.sliceClose_of_open (h : bitAt (s.ni n).closed sl = false) : s.sliceClose n sl =
    (((s.updNi n (fun y => { y with closed := y.closed ||| 2 ^ sl, rsvs := y.rsvs.filter (fun r => r.slice != sl) })).revoke
      n sl).heatSlice sl).slcMsg 1 sl n :=
  if_neg (Bool.eq_false_iff.mp h)

theorem State.told_sliceClose (h : bitAt (s.ni n).closed sl = false) :
    ({ s.ni n with closed := (s.ni n).closed ||| 2 ^ sl, rsvs := (s.ni n).rsvs.filter (fun r => r.slice != sl) } : NiSt).Told
      ((s.sliceClose n sl).ni n) := by
  rw [State.sliceClose_of_open h]
  exact (((State.NisTold.refl (s.updNi n (fun y => { y with
    closed := y.closed ||| 2 ^ sl, rsvs := y.rsvs.filter (fun r => r.slice != sl) }))).revoke.heatSlice.slcMsg).told n).of_eq
      (s.ni_updNi_same n _)

theorem State.closed_sliceClose (s : State) (n sl : Nat) : bitAt ((s.sliceClose n sl).ni n).closed sl = true := by
  by_cases h : bitAt (s.ni n).closed sl = true
  · rw [State.sliceClose, if_pos h]
    exact h
  · rw [(State.told_sliceClose (Bool.eq_false_iff.mpr h)).closed]
    exact bitAt_setBit _ _

theorem State.squash_sliceClose (s : State) (n sl : Nat) : ((s.sliceClose n sl).ni n).squash = (s.ni n).squash := by
  by_cases h : bitAt (s.ni n).closed sl = true
  · rw [State.sliceClose, if_pos h]
  · exact (State.told_sliceClose (Bool.eq_false_iff.mpr h)).squash

theorem State.rsvs_sliceClose (h : bitAt (s.ni n).closed sl = false) : ∀ b ∈ ((s.sliceClose n sl).ni n).rsvs, b.slice ≠ sl := by
  intro b hb
  rw [(State.told_sliceClose h).rsvs] at hb
  simpa using (List.mem_filter.mp hb).2

/-- The stores of a squashed slice that the store buffer holds are counted and logged. -/
def State.squashStores (s : State) (n sl : Nat) (x : NiSt) : State :=
  x.tags.foldl (fun a e => match e.2 with
    | some g => if g.slice = sl ∧ x.sbSers.contains g.ser = true then a.sbDiscard n g else a
    | none => a) s

/-- Whether a received packet is of a slice. -/
def NiSt.pkOf (x : NiSt) (sl k : Nat) : Bool := match x.pk k with
  | some p => p.hdr.slice == sl
  | none => false

/-- The requests of a squashed slice that migration staging holds are discarded. -/
def State.squashHeld (s : State) (n sl : Nat) (x : NiSt) : State :=
  (x.migHeld.filter (x.pkOf sl)).foldl (fun a k => a.dropPk n k)
    (s.updNi n (fun y => { y with migHeld := y.migHeld.filter (fun k => !x.pkOf sl k) }))

theorem State.sliceSquash_eq (s : State) (n sl : Nat) : s.sliceSquash n sl =
    if bitAt ((s.sliceClose n sl).ni n).squash sl then s.sliceClose n sl
    else (((((s.sliceClose n sl).squashStores n sl ((s.sliceClose n sl).ni n)).squashHeld n sl ((s.sliceClose n sl).ni n)).updNi n
      (fun y => y.squashSlice (bigSched (((s.sliceClose n sl).squashStores n sl ((s.sliceClose n sl).ni n)).squashHeld n sl
        ((s.sliceClose n sl).ni n)).rom n) sl)).squashWaiting n sl).slcMsg 2 sl n := rfl

namespace State.SameMasks

theorem squashStores (s : State) (n sl : Nat) (x : NiSt) : s.SameMasks (s.squashStores n sl x) :=
  foldl (fun a e => by
    split
    · split
      · exact sbDiscard a n _
      · exact refl a
    · exact refl a) _ s

theorem squashHeld (s : State) (n sl : Nat) (x : NiSt) : s.SameMasks (s.squashHeld n sl x) := by
  unfold State.squashHeld
  refine trans ?_ (foldl (fun a k => dropPk a n k) _ _)
  exact setNi s n _ rfl rfl

theorem squashWaiting (s : State) (n sl : Nat) : s.SameMasks (s.squashWaiting n sl) := by
  unfold State.squashWaiting
  refine trans ?_ (foldl (fun a k => trans (t := a.count (niB n) F.NI_SLC_SQUASH_CNT_COUNT 1) (of_nis rfl) (dropPk _ n k)) _ _)
  exact setNi s n _ rfl rfl

theorem slcMsg (s : State) (kind sl n : Nat) : s.SameMasks (s.slcMsg kind sl n) := of_told (NisTold.refl s).slcMsg

end State.SameMasks

/-- A squash marks the slice squashed and closed at the NI. -/
theorem State.masks_sliceSquash (h : bitAt (s.ni n).squash sl = false) : bitAt ((s.sliceSquash n sl).ni n).squash sl = true
    ∧ bitAt ((s.sliceSquash n sl).ni n).closed sl = true := by
  have hc := s.closed_sliceClose n sl
  rw [← s.squash_sliceClose n sl] at h
  rw [State.sliceSquash_eq, if_neg (Bool.eq_false_iff.mp h)]
  have hheld := (State.SameMasks.squashStores (s.sliceClose n sl) n sl ((s.sliceClose n sl).ni n)).trans
    (State.SameMasks.squashHeld _ n sl ((s.sliceClose n sl).ni n))
  refine ⟨?_, ?_⟩
  · rw [(State.SameMasks.slcMsg _ 2 sl n).squash, (State.SameMasks.squashWaiting _ n sl).squash, State.ni_updNi_same,
      NiSt.squash_squashSlice]
    exact bitAt_setBit _ _
  · rw [(State.SameMasks.slcMsg _ 2 sl n).closed, (State.SameMasks.squashWaiting _ n sl).closed, State.ni_updNi_same,
      NiSt.closed_squashSlice, hheld.closed]
    exact hc

/-! ### The collects of a slice reset (R437, R439) -/

/-- What a collect notes of a slice: its sum and the lowest NI with work left. -/
def State.sliceNoted (s : State) (sl : Nat) : State :=
  (s.wr slcB (F.SLC_ST_LAST.ix sl) (min (s.sliceSum sl).1 0xFFFF)).updSlc sl (fun v => { v with ni := (s.sliceSum sl).2 })

/-- A slice of which nothing is left, before its command is answered. -/
def State.sliceDone (s : State) (sl : Nat) : State :=
  ((forAll s.rom.nis.length (fun n a => a.slcMsg 3 sl n) ((s.slcGo sl 3).updSlc sl (fun v => { v with cmd := none, since := s.clock }))).wr
    slcB F.SLC_STAT_DONE 1).glEvent 4 0

/-- Whether an armed heat holds the slice. -/
def State.sliceArmed (s : State) (sl : Nat) : Bool := (s.slotsIn [6, 7]).any (fun k => s.rd hcuB (F.HCU_SLOT0_SLICE.ix k) == sl)

theorem State.sliceArmed_iff : s.sliceArmed sl = true ↔ ∃ k ∈ s.slotsIn [6, 7], s.rd hcuB (F.HCU_SLOT0_SLICE.ix k) = sl := by
  simp [State.sliceArmed]

theorem State.sliceCollect_eq (s : State) (sl : Nat) : s.sliceCollect sl =
    if (s.slcSt sl ≠ 1 ∧ s.slcSt sl ≠ 2) ∨ s.sliceTold sl = false then s
    else if (s.sliceSum sl).1 ≠ 0 ∨ (s.sliceNoted sl).sliceArmed sl = true then s.sliceNoted sl
    else ((s.sliceNoted sl).sliceDone sl).replyOpt ((s.sliceNoted sl).slc sl).cmd 0 [] := rfl

theorem State.rd_hcu_sliceNoted (hsl : sl < 63) (f : Fld) (hf : f.off < 0x10000) : (s.sliceNoted sl).rd hcuB f = s.rd hcuB f :=
  (State.updSlc_rd ..).trans (s.rd_wr_ne slcB hcuB (F.SLC_ST_LAST.ix sl) f _ (by
    change 0x30000 + f.off ≠ 0x60000 + (0x100 + 4 * sl)
    omega))

end Sys2Proof.Machine
end

section
/-! SUPPORT. What the slice commands answer, and the statement about slices (R422, R424, R435 to R439, R442). -/

namespace Sys2Proof.Machine

variable {s : State} {x n sl : Nat} {c : Cmd}

/-! ### A collect that ends or goes on -/

theorem State.sliceArmed_sliceNoted (hsl : sl < 63) : (s.sliceNoted sl).sliceArmed sl = s.sliceArmed sl := by
  have hslots : (s.sliceNoted sl).slotsIn [6, 7] = s.slotsIn [6, 7] := by
    refine List.filter_congr fun k hk => ?_
    rw [State.heatSt, State.rd_hcu_sliceNoted hsl _ (show 0x100 + 32 * k < 0x10000 by have := List.mem_range.mp hk; omega)]
    rfl
  rw [Bool.eq_iff_iff, State.sliceArmed_iff, State.sliceArmed_iff, hslots]
  refine exists_congr fun k => and_congr_right fun hk => ?_
  rw [State.rd_hcu_sliceNoted hsl _ (show 0x100 + 32 * k < 0x10000 by
    have := List.mem_range.mp (List.mem_filter.mp hk).1; omega)]

theorem State.sliceCollect_of_waits (hsl : sl < 63) (hst : s.slcSt sl = 1 ∨ s.slcSt sl = 2) (ht : s.sliceTold sl = true)
    (h : (s.sliceSum sl).1 ≠ 0 ∨ s.sliceArmed sl = true) : s.sliceCollect sl = s.sliceNoted sl := by
  rw [State.sliceCollect_eq, if_neg (by simp [ht]; omega), State.sliceArmed_sliceNoted hsl, if_pos h]

theorem State.sliceCollect_of_clear (hsl : sl < 63) (hst : s.slcSt sl = 1 ∨ s.slcSt sl = 2) (ht : s.sliceTold sl = true)
    (h0 : (s.sliceSum sl).1 = 0) (h : s.sliceArmed sl = false) :
    s.sliceCollect sl = ((s.sliceNoted sl).sliceDone sl).replyOpt (s.slc sl).cmd 0 [] := by
  have hcmd : ((s.sliceNoted sl).slc sl).cmd = (s.slc sl).cmd := by
    rw [State.sliceNoted, State.slc_updSlc_same]
    rfl
  rw [State.sliceCollect_eq, if_neg (by simp [ht]; omega), State.sliceArmed_sliceNoted hsl, if_neg (by simp [h0, h]), hcmd]

/-- What a slice event message leaves: everything but the NI's outbox. -/
structure State.SliceSame (s t : State) : Prop where
  word : ∀ o, t.word o = s.word o
  slcs : t.slcs = s.slcs
  rom : t.rom = s.rom
  cmds : t.cmds = s.cmds

theorem State.sliceSame_slcMsg (kind sl n : Nat) (s : State) : s.SliceSame (s.slcMsg kind sl n) := by
  unfold State.slcMsg State.sbeEvent
  dsimp only
  split
  · split
    · exact ⟨fun _ => rfl, rfl, rfl, rfl⟩
    · exact ⟨fun _ => rfl, rfl, rfl, rfl⟩
  · exact ⟨fun _ => rfl, rfl, rfl, rfl⟩

theorem State.sliceSame_forAll {f : Nat → State → State} (h : ∀ i a, State.SliceSame a (f i a)) (m : Nat) (s : State) :
    s.SliceSame (forAll m f s) :=
  forAll_induction (R := State.SliceSame) (fun _ => ⟨fun _ => rfl, rfl, rfl, rfl⟩)
    (fun h k => ⟨fun o => (k.word o).trans (h.word o), k.slcs.trans h.slcs, k.rom.trans h.rom, k.cmds.trans h.cmds⟩)
    f (fun i _ a => h i a) s

theorem State.Near.slcs {s t : State} (h : s.Near t) : t.slcs = s.slcs := by
  have e := congrArg State.slcs h
  exact e

theorem State.SliceSame.rd {s t : State} (h : s.SliceSame t) (b : Nat) (f : Fld) : t.rd b f = s.rd b f := by
  rw [State.rd, h.word, State.rd]

theorem State.rd_slc_glEvent (s : State) {g : Nat} (hg : g < 16) (i : Nat) (f : Fld) : (s.glEvent g i).rd slcB f = s.rd slcB f := by
  rw [State.rd, (s.keepsAt_glEvent hg i).1 _ (Or.inr (Nat.le_add_right _ _)), State.rd]

theorem slcSt_off (sl : Nat) : (F.SLC_ST_STATE.ix sl).off = 0x100 + 4 * sl := rfl

theorem State.slcSt_slcGo (s : State) {st : Nat} (h : st < 8) : (s.slcGo sl st).slcSt sl = st := by
  rw [State.slcSt, State.slcGo, State.rd_wr_same _ _ _ _ (show 0 + 3 ≤ 32 by decide)]
  exact Nat.mod_eq_of_lt h

/-- A slice's STATE is not touched by a write of another register of the slice manager. -/
theorem State.slcSt_wr_low (s : State) {f : Fld} (v : Nat) (h : f.off < 0x100) : (s.wr slcB f v).slcSt sl = s.slcSt sl :=
  s.rd_wr_ne slcB slcB f _ v (by rw [slcSt_off]; omega)

theorem State.sliceDone_spec (s : State) (hsl : sl < 63) : (s.sliceDone sl).slcSt sl = 3
    ∧ ((s.sliceDone sl).slc sl).since = s.clock ∧ (s.sliceDone sl).flag slcB F.SLC_STAT_DONE = true
    ∧ (s.sliceDone sl).rd slcB (F.SLC_ST_LAST.ix sl) = s.rd slcB (F.SLC_ST_LAST.ix sl) := by
  have hall := State.sliceSame_forAll (f := fun n a => a.slcMsg 3 sl n) (fun n a => State.sliceSame_slcMsg 3 sl n a)
    s.rom.nis.length ((s.slcGo sl 3).updSlc sl (fun v => { v with cmd := none, since := s.clock }))
  unfold State.sliceDone
  generalize forAll s.rom.nis.length (fun n a => a.slcMsg 3 sl n)
    ((s.slcGo sl 3).updSlc sl (fun v => { v with cmd := none, since := s.clock })) = t at hall ⊢
  refine ⟨?_, ?_, ?_, ?_⟩
  · rw [State.slcSt, State.rd_slc_glEvent _ (by decide)]
    exact ((t.slcSt_wr_low 1 (by decide)).trans (hall.rd _ _)).trans (s.slcSt_slcGo (by decide))
  · have hs : (((t.wr slcB F.SLC_STAT_DONE 1).glEvent 4 0).slcs) = t.slcs :=
      (State.near_glEvent (t.wr slcB F.SLC_STAT_DONE 1) 4 0).slcs.trans (t.wr_slcs ..)
    rw [State.slc, hs, hall.slcs]
    exact congrArg SliceSt.since (State.slc_updSlc_same (s := s.slcGo sl 3) sl _)
  · rw [State.flag, State.rd_slc_glEvent _ (by decide), State.rd_wr_same _ _ _ _ (by decide)]
    rfl
  · rw [State.rd_slc_glEvent _ (by decide), State.rd_wr_ne _ _ _ _ _ _ (show 0x60000 + (0x100 + 4 * sl) ≠ 0x60000 + 8 by omega),
      hall.rd]
    exact s.rd_wr_apart slcB (F.SLC_ST_STATE.ix sl) (F.SLC_ST_LAST.ix sl) _ rfl (show 0 + 3 ≤ 32 by decide) (Or.inl (show 0 + 3 ≤ 16 by decide))

end Sys2Proof.Machine
end

section
/-! SUPPORT. The commands about slices as wholes, and the statement about them (R422, R424, R435 to R439, R442). -/

namespace Sys2Proof.Machine

variable {s : State} {x n sl : Nat} {c : Cmd}

/-! ### SLICE_SHARE -/

/-- The share registers of a slice at an NI, as a command's parameters give them. -/
def State.shareSet (s : State) (c : Cmd) : State :=
  (s.setWord (niB (c.p 0 8) + 0x2400 + 8 * c.p 8 6) (BitVec.ofNat 32 (c.p 32 32))).setWord
    (niB (c.p 0 8) + 0x2400 + 8 * c.p 8 6 + 4) (BitVec.ofNat 32 (c.p 64 32))

theorem Cmd.p_p (c : Cmd) {lo lo' w' : Nat} (h : lo' + w' ≤ 32) :
    bitsAt (BitVec.ofNat 32 (c.p lo 32)).toNat lo' w' = c.p (lo + lo') w' := by
  have hlt : c.p lo 32 < 2 ^ 32 := bitsAt_lt _ _ _
  rw [BitVec.toNat_ofNat, Nat.mod_eq_of_lt hlt]
  exact bitsAt_bitsAt _ _ _ _ _ h

theorem State.rd_shareSet_low (s : State) (c : Cmd) {f : Fld} (ho : f.off = 0x2400 + 8 * c.p 8 6) (hf : f.lo + f.w ≤ 32) :
    (s.shareSet c).rd (niB (c.p 0 8)) f = c.p (32 + f.lo) f.w := by
  rw [State.shareSet, State.rd_setWord, if_neg (by omega), State.rd_setWord, if_pos (by omega), c.p_p hf]

theorem State.rd_shareSet_high (s : State) (c : Cmd) {f : Fld} (ho : f.off = 0x2404 + 8 * c.p 8 6) (hf : f.lo + f.w ≤ 32) :
    (s.shareSet c).rd (niB (c.p 0 8)) f = c.p (64 + f.lo) f.w := by
  rw [State.shareSet, State.rd_setWord, if_pos (by omega), c.p_p hf]

theorem exec_sliceShare_of (h : s.Issued x 0x41 [(0, 14), (32, 10), (48, 11), (64, 10), (80, 11)] c) :
    exec (.sliceShare x) s = .next (if s.hasNi (c.p 0 8) = false ∨ c.p 8 6 = 63 then (s.begin x).reply x 3 []
      else ((s.begin x).shareSet c).reply x 0 []) :=
  congrArg Host.Outcome.next (State.runCmd_issued s h _)

/-! ### SLICE_RESET and SLICE_OPEN -/

/-- The state after SLICE_RESET's broadcasts have been made due again. -/
def State.sliceUnmarked (s : State) (sl : Nat) : State :=
  forAll s.rom.nis.length (fun n a =>
    a.updNi n (fun y => { y with closed := clearOf sl y.closed, squash := clearOf sl y.squash })) s

/-- The state after SLICE_OPEN has told the NIs. -/
def State.sliceOpened (s : State) (sl : Nat) : State :=
  forAll s.rom.nis.length (fun n a =>
    (a.updNi n (fun y => { y with closed := clearOf sl y.closed, squash := clearOf sl y.squash })).slcMsg 4 sl n) s

/-- SLICE_RESET takes effect. -/
def State.sliceBegun (s : State) (x sl mode : Nat) : State :=
  ((((s.sliceUnmarked sl).slcGo sl (if s.slcSt sl = 0 ∧ mode = 0 then 1 else 2)).wr slcB (F.SLC_ST_MODE.ix sl) mode).count
    slcB F.SLC_RST_CNT_COUNT 1).updSlc sl (fun v => { v with cmd := some x, ni := 0xFF })

/-- Slice `sl` is neither closed nor squashed at NI `n`. -/
def State.Unmarked (sl n : Nat) (s : State) : Prop := bitAt (s.ni n).closed sl = false ∧ bitAt (s.ni n).squash sl = false

theorem State.SameMasks.unmarked {t : State} (h : s.SameMasks t) (hu : State.Unmarked sl n s) : State.Unmarked sl n t := by
  unfold State.Unmarked
  rw [h.closed, h.squash]
  exact hu

theorem State.unmarked_updNi (a : State) (sl n : Nat) : State.Unmarked sl n
    (a.updNi n (fun y => { y with closed := clearOf sl y.closed, squash := clearOf sl y.squash })) := by
  unfold State.Unmarked
  rw [State.ni_updNi_same]
  exact ⟨bitAt_clearOf _ _, bitAt_clearOf _ _⟩

theorem State.Unmarked.updNi_other {a : State} {j : Nat} (hj : j ≠ n) (f : NiSt → NiSt) (h : State.Unmarked sl j a) :
    State.Unmarked sl j (a.updNi n f) := by
  unfold State.Unmarked
  rw [a.ni_updNi_ne f hj]
  exact h

theorem State.unmarked_sliceUnmarked (s : State) (sl : Nat) : ∀ i, i < s.rom.nis.length → State.Unmarked sl i (s.sliceUnmarked sl) :=
  (forAll_each (Q := fun _ => True) trivial (fun _ _ _ _ => trivial) (fun i a _ _ => a.unmarked_updNi sl i)
    (fun _ _ _ hj _ _ h => h.updNi_other (Nat.ne_of_lt hj) _)).2

theorem State.unmarked_sliceOpened (s : State) (sl : Nat) : ∀ i, i < s.rom.nis.length → State.Unmarked sl i (s.sliceOpened sl) :=
  (forAll_each (Q := fun _ => True) trivial (fun _ _ _ _ => trivial)
    (fun i a _ _ => (State.SameMasks.slcMsg _ 4 sl i).unmarked (a.unmarked_updNi sl i))
    (fun i _ _ hj _ _ h => (State.SameMasks.slcMsg _ 4 sl i).unmarked (h.updNi_other (Nat.ne_of_lt hj) _))).2

theorem State.sliceSame_updNi (a : State) (n : Nat) (f : NiSt → NiSt) : a.SliceSame (a.updNi n f) := ⟨fun _ => rfl, rfl, rfl, rfl⟩

theorem State.sliceSame_sliceUnmarked (s : State) (sl : Nat) : s.SliceSame (s.sliceUnmarked sl) :=
  State.sliceSame_forAll (fun i a => a.sliceSame_updNi i _) _ s

theorem exec_sliceReset_of (h : s.Issued x 0x42 [(0, 6), (8, 1)] c) : exec (.sliceReset x) s =
    .next (if c.p 0 6 = 63 then (s.begin x).reply x 3 [] else if s.slcBusy.isSome = true then (s.begin x).reply x 6 []
      else (s.begin x).sliceBegun x (c.p 0 6) (c.p 8 1)) :=
  congrArg Host.Outcome.next (State.runCmd_issued s h _)

theorem exec_sliceOpen_of (h : s.Issued x 0x43 [(0, 6)] c) : exec (.sliceOpen x) s =
    .next (if c.p 0 6 = 63 then (s.begin x).reply x 3 []
      else if s.slcSt (c.p 0 6) ≠ 3 ∨ s.clock < (s.slc (c.p 0 6)).since + 10 * usTc then (s.begin x).reply x 6 []
      else (((s.begin x).sliceOpened (c.p 0 6)).slcGo (c.p 0 6) 0).reply x 0 []) :=
  congrArg Host.Outcome.next (State.runCmd_issued s h _)

theorem slcCnt_ne (sl : Nat) : slcB + F.SLC_RST_CNT_COUNT.off ≠ slcB + (F.SLC_ST_MODE.ix sl).off := by
  change 0x60000 + 16 ≠ 0x60000 + (0x100 + 4 * sl)
  omega

theorem State.slcSt_sliceBegun (s : State) (x sl mode : Nat) :
    (s.sliceBegun x sl mode).slcSt sl = if s.slcSt sl = 0 ∧ mode = 0 then 1 else 2 := by
  rw [State.sliceBegun, State.slcSt, State.updSlc_rd, State.count]
  refine (State.slcSt_wr_low _ _ (by decide)).trans ((State.rd_wr_apart _ slcB (F.SLC_ST_MODE.ix sl) (F.SLC_ST_STATE.ix sl) _ rfl
    (show 4 + 1 ≤ 32 by decide) (Or.inr (show 0 + 3 ≤ 4 by decide))).trans (State.slcSt_slcGo _ ?_))
  split
  · decide
  · decide

theorem State.count_sliceBegun (s : State) (x sl mode : Nat) : (s.sliceBegun x sl mode).rd slcB F.SLC_RST_CNT_COUNT =
    min (s.rd slcB F.SLC_RST_CNT_COUNT + 1) (2 ^ F.SLC_RST_CNT_COUNT.w - 1) := by
  rw [State.sliceBegun, State.updSlc_rd, State.rd_count_same _ _ _ _ (by decide), State.rd_wr_ne _ _ _ _ _ _ (slcCnt_ne sl),
    State.slcGo, State.rd_wr_ne _ _ _ _ _ _ (show slcB + F.SLC_RST_CNT_COUNT.off ≠ slcB + (F.SLC_ST_STATE.ix sl).off from
      slcCnt_ne sl), (s.sliceSame_sliceUnmarked sl).rd]

/-! ### QUIESCE_TMO -/

/-- A slice whose reset has failed, before its command is answered. -/
def State.sliceFailed (s : State) (sl : Nat) : State :=
  ((((((s.slcGo sl 4).updSlc sl (fun v => { v with cmd := none })).wr slcB F.SLC_RST_LOG_NI (s.slc sl).ni).wr slcB
    F.SLC_RST_LOG_COUNT ((((s.slcGo sl 4).updSlc sl (fun v => { v with cmd := none })).wr slcB F.SLC_RST_LOG_NI (s.slc sl).ni).rd
      slcB (F.SLC_ST_LAST.ix sl))).wr slcB F.SLC_STAT_FAIL 1).glEvent 4 1)

theorem State.last_slcGo (s : State) (sl st ni : Nat) :
    (((s.slcGo sl st).updSlc sl (fun v => { v with cmd := none })).wr slcB F.SLC_RST_LOG_NI ni).rd slcB (F.SLC_ST_LAST.ix sl)
      = s.rd slcB (F.SLC_ST_LAST.ix sl) := by
  rw [State.rd_wr_ne _ _ _ _ _ _ (show 0x60000 + (0x100 + 4 * sl) ≠ 0x60000 + 0xC by omega), State.updSlc_rd]
  exact s.rd_wr_apart slcB (F.SLC_ST_STATE.ix sl) (F.SLC_ST_LAST.ix sl) _ rfl (show 0 + 3 ≤ 32 by decide)
    (Or.inl (show 0 + 3 ≤ 16 by decide))

theorem State.sliceFailed_spec (s : State) (sl : Nat) : (s.sliceFailed sl).slcSt sl = 4
    ∧ (s.sliceFailed sl).flag slcB F.SLC_STAT_FAIL = true
    ∧ (s.sliceFailed sl).rd slcB F.SLC_RST_LOG_NI = (s.slc sl).ni % 2 ^ F.SLC_RST_LOG_NI.w
    ∧ (s.sliceFailed sl).rd slcB F.SLC_RST_LOG_COUNT = s.rd slcB (F.SLC_ST_LAST.ix sl) := by
  rw [State.sliceFailed, State.last_slcGo]
  refine ⟨?_, ?_, ?_, ?_⟩
  · rw [State.slcSt, State.rd_slc_glEvent _ (by decide)]
    exact (State.slcSt_wr_low _ _ (by decide)).trans ((State.slcSt_wr_low _ _ (by decide)).trans ((State.slcSt_wr_low _ _
      (by decide)).trans (s.slcSt_slcGo (by decide))))
  · rw [State.flag, State.rd_slc_glEvent _ (by decide), State.rd_wr_same _ _ _ _ (by decide)]
    rfl
  · rw [State.rd_slc_glEvent _ (by decide), State.rd_wr_ne _ _ _ _ _ _ (by decide), State.rd_wr_apart _ slcB
      F.SLC_RST_LOG_COUNT F.SLC_RST_LOG_NI _ rfl (by decide) (by decide), State.rd_wr_same _ _ _ _ (by decide)]
  · rw [State.rd_slc_glEvent _ (by decide), State.rd_wr_ne _ _ _ _ _ _ (by decide), State.rd_wr_same _ _ _ _ (by decide)]
    exact Nat.mod_eq_of_lt (State.rd_lt _ _ _)

theorem exec_sliceQuiesceTmo_of (hsl : sl < 63) (h : s.slcSt sl = 2) :
    exec (.sliceQuiesceTmo sl) s = .next ((s.sliceFailed sl).replyOpt (s.slc sl).cmd 0x000C []) := by
  change guardUnit s (decide (sl < 63)) (if s.slcSt sl ≠ 2 then s else (s.sliceFailed sl).replyOpt (s.slc sl).cmd 0x000C []) = _
  rw [guardUnit_of (decide_eq_true hsl), if_neg (not_not_intro h)]

/-! ### Where nothing happens -/

theorem guardUnit_self (s : State) (b : Bool) : guardUnit s b s = .next s := congrArg Host.Outcome.next (ite_self s)

theorem guardUnit_of_idle {ok : Bool} {p : Prop} [Decidable p] {t : State} (h : ok = false ∨ p) :
    guardUnit s ok (if p then s else t) = .next s := by
  rcases h with rfl | h
  · rfl
  · rw [if_pos h, guardUnit_self]

theorem hears_sl_false (h : s.hears n = false ∨ 63 ≤ sl) : (s.hears n && decide (sl < 63)) = false := by
  rcases h with h | h
  · rw [h, Bool.false_and]
  · rw [decide_eq_false (Nat.not_lt.mpr h), Bool.and_false]

theorem decide_sl_false (h : 63 ≤ sl) : decide (sl < 63) = false := decide_eq_false (Nat.not_lt.mpr h)

theorem exec_sliceCloseReceive_of_idle (h : s.hears n = false ∨ 63 ≤ sl ∨ s.slcSt sl = 0 ∨ bitAt (s.ni n).closed sl = true) :
    exec (.sliceCloseReceive n sl) s = .next s := by
  change guardUnit s _ (if s.slcSt sl = 0 then s else s.sliceClose n sl) = _
  rcases h with h | h | h | h
  · exact guardUnit_of_idle (.inl (hears_sl_false (.inl h)))
  · exact guardUnit_of_idle (.inl (hears_sl_false (.inr h)))
  · exact guardUnit_of_idle (.inr h)
  · rw [State.sliceClose, if_pos h, ite_self, guardUnit_self]

theorem exec_sliceSquashReceive_of_idle (h : s.hears n = false ∨ 63 ≤ sl ∨ s.slcSt sl = 0 ∨ s.slcSt sl = 1
    ∨ bitAt (s.ni n).squash sl = true ∧ bitAt (s.ni n).closed sl = true) : exec (.sliceSquashReceive n sl) s = .next s := by
  change guardUnit s _ (if s.slcSt sl = 0 ∨ s.slcSt sl = 1 then s else s.sliceSquash n sl) = _
  rcases h with h | h | h | h | ⟨hq, hc⟩
  · exact guardUnit_of_idle (.inl (hears_sl_false (.inl h)))
  · exact guardUnit_of_idle (.inl (hears_sl_false (.inr h)))
  · exact guardUnit_of_idle (.inr (.inl h))
  · exact guardUnit_of_idle (.inr (.inr h))
  · have hclose : s.sliceClose n sl = s := if_pos hc
    rw [State.sliceSquash_eq, hclose, if_pos hq, ite_self, guardUnit_self]

theorem exec_sliceDrainTmo_of (s : State) (sl : Nat) :
    exec (.sliceDrainTmo sl) s = guardUnit s (decide (sl < 63)) (if s.slcSt sl = 1 then s.slcGo sl 2 else s) := rfl

theorem exec_sliceQuiesceTmo_of_idle (h : 63 ≤ sl ∨ s.slcSt sl ≠ 2) : exec (.sliceQuiesceTmo sl) s = .next s := by
  change guardUnit s _ (if s.slcSt sl ≠ 2 then s else _) = _
  exact guardUnit_of_idle (h.imp_left decide_sl_false)

theorem exec_sliceCollect_of (s : State) (sl : Nat) :
    exec (.sliceCollect sl) s = guardUnit s (decide (sl < 63)) (s.sliceCollect sl) := rfl

theorem exec_sliceCollect_of_idle (h : 63 ≤ sl ∨ s.slcSt sl ≠ 1 ∧ s.slcSt sl ≠ 2 ∨ s.sliceTold sl = false) :
    exec (.sliceCollect sl) s = .next s := by
  rw [exec_sliceCollect_of, State.sliceCollect_eq]
  exact guardUnit_of_idle (h.imp_left decide_sl_false)

/-! ### SLICE_MIG_SYNC -/

theorem exec_sliceMigSync_of (h : s.Issued x 0x45 [(0, 6), (12, 20), (32, 32)] c) : exec (.sliceMigSync x) s =
    .next (if (s.slcBusy.isSome || s.migSync.isSome) = true then (s.begin x).reply x 6 []
      else { s.begin x with migSync := some { cmd := x, slice := c.p 0 6, node := c.p 12 20, limit := c.p 32 32, t0 := s.clock } }) :=
  congrArg Host.Outcome.next (State.runCmd_issued s h _)

theorem exec_migSyncCollect_of_none (h : s.migSync = none) : exec .migSyncCollect s = .next s := by
  refine congrArg Host.Outcome.next ?_
  rw [h]

theorem exec_migSyncCollect_of_some {m : MigSync} (h : s.migSync = some m) : exec .migSyncCollect s = .next
    (if (List.range s.rom.nis.length).foldl (fun a n => a + s.tagsToward n m.slice m.node) 0 = 0 then
      { s with migSync := none }.reply m.cmd 0 []
    else if m.t0 + m.limit * usTc ≤ s.clock then { s with migSync := none }.reply m.cmd 0x000C
      (leBytes 4 ((List.range s.rom.nis.length).foldl (fun a n => a + s.tagsToward n m.slice m.node) 0))
    else { s with migSync := some { m with
      last := (List.range s.rom.nis.length).foldl (fun a n => a + s.tagsToward n m.slice m.node) 0 } }) := by
  refine congrArg Host.Outcome.next ?_
  rw [h]

end Sys2Proof.Machine
end

section
/-! SUPPORT. The statement about slices, from its commands and its course (R422, R424, R435 to R439, R442). -/

namespace Sys2Proof.Machine

variable {s : State} {x n sl : Nat} {c : Cmd}

/-! ### Commands that take effect -/

theorem exec_sliceShare_spec (h : s.Issued x 0x41 [(0, 14), (32, 10), (48, 11), (64, 10), (80, 11)] c)
    (hn : s.hasNi (c.p 0 8) = true) (hsl : c.p 8 6 ≠ 63) :
    ∃ v : State, exec (.sliceShare x) s = .next (v.reply x 0 []) ∧ v.rd (niB (c.p 0 8)) (F.NI_SLC_SHARE0_TAGS.ix (c.p 8 6)) = c.p 32 10
      ∧ v.rd (niB (c.p 0 8)) (F.NI_SLC_SHARE0_BUF.ix (c.p 8 6)) = c.p 48 11
      ∧ v.rd (niB (c.p 0 8)) (F.NI_SLC_SHARE1_QBASE.ix (c.p 8 6)) = c.p 64 10
      ∧ v.rd (niB (c.p 0 8)) (F.NI_SLC_SHARE1_QCOUNT.ix (c.p 8 6)) = c.p 80 11 := by
  refine ⟨(s.begin x).shareSet c, ?_, ?_, ?_, ?_, ?_⟩
  · rw [exec_sliceShare_of h, if_neg (by simp [hn, hsl])]
  · exact State.rd_shareSet_low _ _ rfl (show 0 + 10 ≤ 32 by decide)
  · exact State.rd_shareSet_low _ _ rfl (show 16 + 11 ≤ 32 by decide)
  · exact State.rd_shareSet_high _ _ rfl (show 0 + 10 ≤ 32 by decide)
  · exact State.rd_shareSet_high _ _ rfl (show 16 + 11 ≤ 32 by decide)

theorem State.replyOpt_some (s : State) (x status : Nat) (data : List Byte) : s.replyOpt (some x) status data = s.reply x status data :=
  rfl

theorem State.ni_sliceBegun (s : State) (x sl mode n : Nat) : (s.sliceBegun x sl mode).ni n = (s.sliceUnmarked sl).ni n := by
  rw [State.sliceBegun, State.updSlc_ni, State.count_ni, State.wr_ni, State.slcGo, State.wr_ni]

theorem State.unmarked_sliceBegun (s : State) (x sl mode n : Nat) (hn : n < s.rom.nis.length) :
    State.Unmarked sl n (s.sliceBegun x sl mode) := by
  unfold State.Unmarked
  rw [State.ni_sliceBegun]
  exact s.unmarked_sliceUnmarked sl n hn

theorem State.ni_slcGo (s : State) (sl st n : Nat) : (s.slcGo sl st).ni n = s.ni n := s.wr_ni ..

theorem State.cmds_sliceBegun (s : State) (x sl mode : Nat) : (s.sliceBegun x sl mode).cmds = s.cmds := by
  rw [State.sliceBegun, State.updSlc_cmds, State.count_cmds, State.wr_cmds, State.slcGo, State.wr_cmds,
    (s.sliceSame_sliceUnmarked sl).cmds]

theorem exec_sliceReset_spec (h : s.Issued x 0x42 [(0, 6), (8, 1)] c) (hsl : c.p 0 6 ≠ 63) (hb : s.slcBusy = none) :
    ∃ t : State, exec (.sliceReset x) s = .next t ∧ t.slcSt (c.p 0 6) = (if s.slcSt (c.p 0 6) = 0 ∧ c.p 8 1 = 0 then 1 else 2)
      ∧ (t.slc (c.p 0 6)).cmd = some x
      ∧ t.rd slcB F.SLC_RST_CNT_COUNT = min (s.rd slcB F.SLC_RST_CNT_COUNT + 1) (2 ^ F.SLC_RST_CNT_COUNT.w - 1)
      ∧ (∀ n, n < s.rom.nis.length → bitAt (t.ni n).closed (c.p 0 6) = false ∧ bitAt (t.ni n).squash (c.p 0 6) = false)
      ∧ (t.cmd x).isSome = true := by
  refine ⟨(s.begin x).sliceBegun x (c.p 0 6) (c.p 8 1), ?_, State.slcSt_sliceBegun _ _ _ _, ?_, State.count_sliceBegun _ _ _ _,
    fun n hn => (s.begin x).unmarked_sliceBegun x _ _ n hn, ?_⟩
  · rw [exec_sliceReset_of h, if_neg hsl, if_neg (by simp [hb])]
  · exact congrArg SliceSt.cmd (State.slc_updSlc_same _ _ _)
  · rw [State.cmd, State.cmds_sliceBegun]
    exact congrArg Option.isSome (s.cmd_begin x c h.1)

theorem exec_sliceOpen_spec (h : s.Issued x 0x43 [(0, 6)] c) (hsl : c.p 0 6 ≠ 63) (hst : s.slcSt (c.p 0 6) = 3)
    (hd : (s.slc (c.p 0 6)).since + 10 * usTc ≤ s.clock) :
    ∃ v : State, exec (.sliceOpen x) s = .next (v.reply x 0 []) ∧ v.slcSt (c.p 0 6) = 0
      ∧ ∀ n, n < s.rom.nis.length → bitAt (v.ni n).closed (c.p 0 6) = false ∧ bitAt (v.ni n).squash (c.p 0 6) = false := by
  refine ⟨((s.begin x).sliceOpened (c.p 0 6)).slcGo (c.p 0 6) 0, ?_, State.slcSt_slcGo _ (by decide),
    fun n hn => ?_⟩
  · rw [exec_sliceOpen_of h, if_neg hsl, if_neg (by omega)]
  · rw [State.ni_slcGo]
    exact State.unmarked_sliceOpened (s.begin x) _ n hn

/-! ### The course of a reset -/

theorem exec_sliceCloseReceive_spec (hsl : sl < 63) (hn : s.hears n = true) (hst : s.slcSt sl ≠ 0)
    (hc : bitAt (s.ni n).closed sl = false) : ∃ t : State, exec (.sliceCloseReceive n sl) s = .next t
      ∧ bitAt (t.ni n).closed sl = true ∧ ∀ b ∈ (t.ni n).rsvs, b.slice ≠ sl := by
  refine ⟨s.sliceClose n sl, ?_, s.closed_sliceClose n sl, State.rsvs_sliceClose hc⟩
  change guardUnit s _ (if s.slcSt sl = 0 then s else s.sliceClose n sl) = _
  rw [guardUnit_of (by rw [hn, decide_eq_true hsl]; rfl), if_neg hst]

theorem exec_sliceSquashReceive_of (hsl : sl < 63) (hn : s.hears n = true) (h0 : s.slcSt sl ≠ 0) (h1 : s.slcSt sl ≠ 1) :
    exec (.sliceSquashReceive n sl) s = .next (s.sliceSquash n sl) := by
  change guardUnit s _ (if s.slcSt sl = 0 ∨ s.slcSt sl = 1 then s else s.sliceSquash n sl) = _
  rw [guardUnit_of (by rw [hn, decide_eq_true hsl]; rfl), if_neg (by simp [h0, h1])]

theorem exec_sliceCollect_clear (hsl : sl < 63) (hst : s.slcSt sl = 1 ∨ s.slcSt sl = 2) (ht : s.sliceTold sl = true)
    (h0 : (s.sliceSum sl).1 = 0) (ha : ∀ k ∈ s.slotsIn [6, 7], s.rd hcuB (F.HCU_SLOT0_SLICE.ix k) ≠ sl)
    (hx : (s.slc sl).cmd = some x) : ∃ v : State, exec (.sliceCollect sl) s = .next (v.reply x 0 []) ∧ v.slcSt sl = 3
      ∧ (v.slc sl).since = s.clock ∧ v.flag slcB F.SLC_STAT_DONE = true ∧ v.rd slcB (F.SLC_ST_LAST.ix sl) = 0 := by
  obtain ⟨hst3, hsince, hdone, hlast⟩ := (s.sliceNoted sl).sliceDone_spec hsl
  refine ⟨(s.sliceNoted sl).sliceDone sl, ?_, hst3, hsince, hdone, hlast.trans ?_⟩
  · have harm : s.sliceArmed sl = false := Bool.eq_false_iff.mpr fun h => by
      obtain ⟨k, hk, he⟩ := State.sliceArmed_iff.mp h
      exact ha k hk he
    rw [exec_sliceCollect_of, guardUnit_of (decide_eq_true hsl), State.sliceCollect_of_clear hsl hst ht h0 harm, hx,
      State.replyOpt_some]
  · rw [State.sliceNoted, State.updSlc_rd, State.rd_wr_same _ _ _ _ (show 16 + 16 ≤ 32 by decide), h0]
    exact Nat.zero_mod _

end Sys2Proof.Machine

namespace Sys2Proof.Machine

/-- Settles O38. -/
theorem slicesFollowTheirCommands : Obligations.SlicesFollowTheirCommands := by
  unfold Obligations.SlicesFollowTheirCommands
  refine ⟨fun s x sl c => ⟨?_, ?_, ?_, ?_, ?_, ?_, ?_, ?_, ?_, ?_, ?_, ?_⟩, fun s n sl =>
    ⟨exec_sliceCloseReceive_of_idle, exec_sliceSquashReceive_of_idle, ?_, exec_sliceQuiesceTmo_of_idle, exec_sliceCollect_of_idle,
      exec_migSyncCollect_of_none, ?_, fun hsl => ⟨exec_sliceCloseReceive_spec hsl, ?_, ?_, ?_, ?_, ?_⟩⟩⟩
  case refine_1 =>
    intro h hn hp hs
    refine congrArg Host.Outcome.next ((State.runCmd_issued s h _).trans (if_neg ?_))
    rintro (h | h | h)
    · exact Bool.false_ne_true (h.symm.trans hn)
    · exact Nat.not_lt.mpr h hp
    · exact hs h
  case refine_2 =>
    intro h hbad
    exact congrArg Host.Outcome.next ((State.runCmd_issued s h _).trans (if_pos hbad))
  case refine_3 => exact fun h hbad => (exec_sliceShare_of h).trans (congrArg Host.Outcome.next (if_pos hbad))
  case refine_4 =>
    exact fun h63 => ⟨fun h => (exec_sliceReset_of h).trans (congrArg Host.Outcome.next (if_pos h63)),
      fun h => (exec_sliceOpen_of h).trans (congrArg Host.Outcome.next (if_pos h63))⟩
  case refine_5 =>
    intro h h63 hbad
    rw [exec_sliceOpen_of h, if_neg h63, if_pos hbad]
  case refine_6 =>
    intro h hbusy
    rw [exec_sliceMigSync_of h, if_pos (by simpa using hbusy)]
  case refine_7 =>
    rintro h hn rfl h63
    exact exec_sliceShare_spec h hn h63
  case refine_8 =>
    rintro h rfl h63 hb
    exact exec_sliceReset_spec h h63 hb
  case refine_9 =>
    intro h h63 hb
    rw [exec_sliceReset_of h, if_neg h63, if_pos hb]
  case refine_10 =>
    rintro h rfl h63 hst hd
    exact exec_sliceOpen_spec h h63 hst hd
  case refine_11 => exact fun h => congrArg Host.Outcome.next (State.runCmd_issued s h _)
  case refine_12 =>
    intro h hb hm
    rw [exec_sliceMigSync_of h, if_neg (by simp [hb, hm])]
  case refine_13 =>
    intro h
    rw [exec_sliceDrainTmo_of]
    rcases h with h | h
    · rw [decide_sl_false h, guardUnit_false]
    · rw [if_neg h, guardUnit_self]
  case refine_14 =>
    intro hsl hst ht h
    rw [exec_sliceCollect_of, guardUnit_of (decide_eq_true hsl), State.sliceCollect_of_waits hsl hst ht
      (h.imp_right State.sliceArmed_iff.mpr)]
    rfl
  case refine_15 =>
    intro hn h0 h1 hq
    have hexec := exec_sliceSquashReceive_of hsl hn h0 h1
    exact ⟨hexec, _, hexec, State.masks_sliceSquash hq⟩
  case refine_16 =>
    intro h1
    rw [exec_sliceDrainTmo_of, guardUnit_of (decide_eq_true hsl), if_pos h1]
    rfl
  case refine_17 => exact fun x hst ht h0 ha hx => exec_sliceCollect_clear hsl hst ht h0 ha hx
  case refine_18 =>
    intro x h2 hx
    refine ⟨s.sliceFailed sl, ?_, s.sliceFailed_spec sl⟩
    rw [exec_sliceQuiesceTmo_of hsl h2, hx, State.replyOpt_some]
  case refine_19 =>
    rintro m k hm rfl
    exact exec_migSyncCollect_of_some hm

end Sys2Proof.Machine
end

section
/-! SUPPORT. Plane states and plane commands, and the statement about planes (R408 to R414, R417). -/

namespace Sys2Proof.Machine

variable {s : State} {x p : Nat} {c : Cmd}

/-! ### The states of the two planes -/

theorem State.rd_stat_wr (s : State) {f g : Fld} (v : Nat) (hg : g.off = 0x804) (hw : f.lo + f.w ≤ 32)
    (h : f.off ≠ 0x804 ∨ f.lo + f.w ≤ g.lo ∨ g.lo + g.w ≤ f.lo) : (s.wr strB f v).rd strB g = s.rd strB g := by
  by_cases ho : f.off = 0x804
  · exact s.rd_wr_apart strB f g v (hg.trans ho.symm) hw (h.resolve_left (not_not_intro ho))
  · exact s.rd_wr_ne strB strB f g v (by omega)

/-- A plane's STATE is changed by a write of its own field only. -/
theorem State.plnState_wr (s : State) {f : Fld} (v : Nat) (hw : f.lo + f.w ≤ 32) (h : f.off ≠ 0x804 ∨ 8 ≤ f.lo) (p : Nat) :
    (s.wr strB f v).plnState p = s.plnState p := by
  unfold State.plnState
  split
  · exact s.rd_stat_wr v rfl hw (h.imp_right fun hl => .inr (le_trans (by decide : 0 + 3 ≤ 8) hl))
  · exact s.rd_stat_wr v rfl hw (h.imp_right fun hl => .inr (le_trans (by decide : 4 + 3 ≤ 8) hl))

theorem State.plnState_plnGo (s : State) (p : Nat) {v : Nat} (hv : v < 8) : (s.plnGo p v).plnState p = v := by
  unfold State.plnState State.plnGo
  split
  · rw [State.rd_wr_same _ _ _ _ (by decide)]
    exact Nat.mod_eq_of_lt hv
  · rw [State.rd_wr_same _ _ _ _ (by decide)]
    exact Nat.mod_eq_of_lt hv

theorem State.plnState_plnGo_other (s : State) (hp : p < 2) (v : Nat) : (s.plnGo p v).plnState (1 - p) = s.plnState (1 - p) := by
  obtain rfl | rfl : p = 0 ∨ p = 1 := by omega
  · exact s.rd_stat_wr (f := F.STR_PLN_STAT_STATE_A) (g := F.STR_PLN_STAT_STATE_B) v rfl (by decide) (by decide)
  · exact s.rd_stat_wr (f := F.STR_PLN_STAT_STATE_B) (g := F.STR_PLN_STAT_STATE_A) v rfl (by decide) (by decide)

theorem State.plnState_plnCause (s : State) (p v q : Nat) : (s.plnCause p v).plnState q = s.plnState q := by
  unfold State.plnCause
  split
  · exact s.plnState_wr v (by decide) (by decide) q
  · exact s.plnState_wr v (by decide) (by decide) q

theorem State.plnState_updPln (s : State) (p : Nat) (f : PlaneSt → PlaneSt) (q : Nat) : (s.updPln p f).plnState q = s.plnState q := rfl

theorem plnPass_spec (p : Nat) : (plnPass p).off = 0x804 ∧ (plnPass p).lo + (plnPass p).w ≤ 32 ∧ 16 ≤ (plnPass p).lo ∧ (plnPass p).w = 1 := by
  unfold plnPass
  split
  · decide
  · decide

theorem State.plnState_wr_pass (s : State) (p v q : Nat) : (s.wr strB (plnPass p) v).plnState q = s.plnState q := by
  obtain ⟨-, hw, hlo, -⟩ := plnPass_spec p
  exact s.plnState_wr v hw (.inr (by omega)) q

theorem State.pass_plnGo (s : State) (p v : Nat) : (s.plnGo p v).flag strB (plnPass p) = s.flag strB (plnPass p) := by
  obtain ⟨ho, -, hlo, -⟩ := plnPass_spec p
  unfold State.plnGo State.flag
  split
  · rw [s.rd_stat_wr v ho (by decide) (.inr (.inl (le_trans (by decide) hlo)))]
  · rw [s.rd_stat_wr v ho (by decide) (.inr (.inl (le_trans (by decide) hlo)))]

theorem State.pass_wr (s : State) (p : Nat) (b : Bool) : (s.wr strB (plnPass p) (b2n b)).flag strB (plnPass p) = b := by
  obtain ⟨-, hw, -, h1⟩ := plnPass_spec p
  rw [State.flag, State.rd_wr_same _ _ _ _ hw, h1]
  cases b <;> rfl

theorem State.word64_updPln (s : State) (p : Nat) (f : PlaneSt → PlaneSt) (o : Nat) : (s.updPln p f).word64 o = s.word64 o := rfl

theorem State.pln_plnGo (s : State) (p v q : Nat) : (s.plnGo p v).pln q = s.pln q := s.wr_pln ..

theorem State.word64_plnGo (s : State) (p v : Nat) : (s.plnGo p v).word64 (strB + 0x808) = s.word64 (strB + 0x808) := by
  unfold State.plnGo
  split
  · exact s.word64_wr_ne strB F.STR_PLN_STAT_STATE_A v (by decide) (by decide)
  · exact s.word64_wr_ne strB F.STR_PLN_STAT_STATE_B v (by decide) (by decide)

/-! ### PLANE_DETACH -/

/-- A PLANE_DETACH that is to be answered when the plane is detached. -/
def State.detachDue (s : State) (x p : Nat) : State := (s.plnCause p 1).updPln p (fun v => { v with detach := some x })

theorem State.plnState_detachDue (s : State) (x p q : Nat) : (s.detachDue x p).plnState q = s.plnState q := s.plnState_plnCause p 1 q

theorem State.detach_detachDue (s : State) (x p : Nat) : ((s.detachDue x p).pln p).detach = some x := by
  rw [State.detachDue, State.pln_updPln_same]

theorem exec_planeDetach_of (h : s.Issued x 0x60 [(0, 1), (1, 1)] c) : exec (.planeDetach x) s =
    .next (if s.plnState (1 - c.p 0 1) ≠ 0 then (s.begin x).reply x 0x0015 []
      else if s.plnState (c.p 0 1) ≠ 0 then (s.begin x).reply x 6 []
      else if c.p 1 1 = 1 then
        ((s.begin x).detachDue x (c.p 0 1)).plnDetached (c.p 0 1)
      else ((s.begin x).detachDue x (c.p 0 1)).plnGo (c.p 0 1) 1) :=
  congrArg Host.Outcome.next (State.runCmd_issued s h _)

theorem State.plnDetached_of (h : (s.pln p).detach = some x) : s.plnDetached p =
    ((s.plnGo p 2).updPln p (fun v => { v with detach := none })).reply x 0 [] := by
  rw [State.plnDetached, h]
  rfl

theorem planeDetach_at_once (h : s.Issued x 0x60 [(0, 1), (1, 1)] c) (hother : s.plnState (1 - c.p 0 1) = 0)
    (hp : s.plnState (c.p 0 1) = 0) (hm : c.p 1 1 = 1) : ∃ v : State, exec (.planeDetach x) s = .next (v.reply x 0 [])
      ∧ v.plnState (c.p 0 1) = 2 ∧ v.plnState (1 - c.p 0 1) = 0 := by
  have hlt : c.p 0 1 < 2 := bitsAt_lt _ _ _
  refine ⟨(((s.begin x).detachDue x (c.p 0 1)).plnGo (c.p 0 1) 2).updPln (c.p 0 1) (fun v => { v with detach := none }), ?_, ?_, ?_⟩
  · rw [exec_planeDetach_of h, if_neg (not_not_intro hother), if_neg (not_not_intro hp), if_pos hm,
      State.plnDetached_of (State.detach_detachDue _ _ _)]
  · rw [State.plnState_updPln, State.plnState_plnGo _ _ (by decide)]
  · rw [State.plnState_updPln, State.plnState_plnGo_other _ hlt, State.plnState_detachDue]
    exact hother

theorem planeDetach_drains (h : s.Issued x 0x60 [(0, 1), (1, 1)] c) (hother : s.plnState (1 - c.p 0 1) = 0)
    (hp : s.plnState (c.p 0 1) = 0) (hm : c.p 1 1 = 0) : ∃ t : State, exec (.planeDetach x) s = .next t
      ∧ t.plnState (c.p 0 1) = 1 ∧ (t.pln (c.p 0 1)).detach = some x ∧ t.plnState (1 - c.p 0 1) = 0 ∧ (t.cmd x).isSome = true := by
  have hlt : c.p 0 1 < 2 := bitsAt_lt _ _ _
  refine ⟨((s.begin x).detachDue x (c.p 0 1)).plnGo (c.p 0 1) 1, ?_, State.plnState_plnGo _ _ (by decide), ?_, ?_, ?_⟩
  · rw [exec_planeDetach_of h, if_neg (not_not_intro hother), if_neg (not_not_intro hp), if_neg (by omega)]
  · rw [State.pln_plnGo, State.detach_detachDue]
  · rw [State.plnState_plnGo_other _ hlt, State.plnState_detachDue]
    exact hother
  · rw [State.plnGo, State.wr_cmd, State.detachDue, State.updPln_cmd, State.plnCause, State.wr_cmd, s.cmd_begin x c h.1]
    rfl

/-! ### PLANE_TEST, PLANE_ATTACH, PLANE_RESET and PLANE_STATUS -/

theorem exec_planeTest_of (h : s.Issued x 0x61 [(0, 1)] c) : exec (.planeTest x) s =
    .next (if s.plnState (c.p 0 1) ≠ 2 ∨ s.plnState (1 - c.p 0 1) = 3 ∨ (s.pln (c.p 0 1)).test.isSome = true
        ∨ (s.pln (1 - c.p 0 1)).test.isSome = true then (s.begin x).reply x 6 []
      else ((s.begin x).updPln (c.p 0 1) (fun v => { v with test := some x })).ask 2 (c.p 0 1)) :=
  congrArg Host.Outcome.next (State.runCmd_issued s h _)

/-- PLANE_ATTACH at its T_j. -/
def State.attachDue (s : State) (x p : Nat) : State :=
  ((s.setWord64 (strB + 0x808) (s.rootStamp.toNat + 256 * max (s.rd strB F.STR_PLN_CFG_JOIN_LEAD) 100)).plnGo p 4).updPln p
    (fun v => { v with attach := some x })

theorem State.word64_attachDue (s : State) (x p : Nat) : (s.attachDue x p).word64 (strB + 0x808) =
    (s.rootStamp.toNat + 256 * max (s.rd strB F.STR_PLN_CFG_JOIN_LEAD) 100) % 2 ^ 64 := by
  rw [State.attachDue, State.word64_updPln, State.word64_plnGo, State.word64_setWord64]

theorem State.rootStamp_begin (s : State) (x : Nat) : (s.begin x).rootStamp = s.rootStamp := rfl

theorem exec_planeAttach_of (h : s.Issued x 0x62 [(0, 1)] c) : exec (.planeAttach x) s =
    .next (if s.plnState (c.p 0 1) ≠ 2 then (s.begin x).reply x 6 []
      else if s.flag strB (plnPass (c.p 0 1)) = false then (s.begin x).reply x 3 []
      else if s.rootOk = false then (s.begin x).reply x 10 []
      else (s.begin x).attachDue x (c.p 0 1)) :=
  congrArg Host.Outcome.next (State.runCmd_issued s h _)

theorem exec_planeReset_of (h : s.Issued x 0x63 [(0, 1)] c) : exec (.planeReset x) s =
    .next (if s.plnState (c.p 0 1) ≠ 2 ∧ s.plnState (c.p 0 1) ≠ 5 then (s.begin x).reply x 6 []
      else ((((s.begin x).planeReset (c.p 0 1)).plnGo (c.p 0 1) 2).updPln (c.p 0 1) (fun v => { v with reset := some x })).plnUp
        (c.p 0 1)) :=
  congrArg Host.Outcome.next (State.runCmd_issued s h _)

theorem planeTest_asks (h : s.Issued x 0x61 [(0, 1)] c) (hp : s.plnState (c.p 0 1) = 2) (hother : s.plnState (1 - c.p 0 1) ≠ 3)
    (ht : (s.pln (c.p 0 1)).test = none) (ht' : (s.pln (1 - c.p 0 1)).test = none) : ∃ t : State, exec (.planeTest x) s = .next t
      ∧ (t.pln (c.p 0 1)).test = some x ∧ t.asks = s.asks ++ [{ kind := 2, who := c.p 0 1 }] ∧ t.csr = s.csr := by
  refine ⟨((s.begin x).updPln (c.p 0 1) (fun v => { v with test := some x })).ask 2 (c.p 0 1), ?_,
    ?_, rfl, rfl⟩
  · rw [exec_planeTest_of h, if_neg (by simp [hp, hother, ht, ht'])]
  · exact congrArg PlaneSt.test ((s.begin x).pln_updPln_same (c.p 0 1) (fun v => { v with test := some x }))

theorem planeAttach_joins (h : s.Issued x 0x62 [(0, 1)] c) (hp : s.plnState (c.p 0 1) = 2)
    (hpass : s.flag strB (plnPass (c.p 0 1)) = true) (hroot : s.rootOk = true) : ∃ t : State, exec (.planeAttach x) s = .next t
      ∧ t.plnState (c.p 0 1) = 4 ∧ (t.pln (c.p 0 1)).attach = some x
      ∧ t.word64 (strB + 0x808) = (s.rootStamp.toNat + 256 * max (s.rd strB F.STR_PLN_CFG_JOIN_LEAD) 100) % 2 ^ 64 := by
  refine ⟨(s.begin x).attachDue x (c.p 0 1), ?_, ?_, ?_, ?_⟩
  · rw [exec_planeAttach_of h, if_neg (not_not_intro hp), if_neg (ne_false_of_eq_true hpass),
      if_neg (ne_false_of_eq_true hroot)]
  · rw [State.attachDue, State.plnState_updPln, State.plnState_plnGo _ _ (by decide)]
  · rw [State.attachDue, State.pln_updPln_same]
  · rw [State.word64_attachDue, State.rootStamp_begin, State.begin_rd]

end Sys2Proof.Machine
end

section
/-! SUPPORT. What happens to planes, and the statement about them (R408 to R414, R417). -/

namespace Sys2Proof.Machine

variable {s : State} {x p n : Nat} {t : Stamp}

/-- T_j. -/
def State.joinAt (s : State) : Stamp := BitVec.ofNat 64 (s.word64 (strB + 0x808))

theorem State.word64_lt (s : State) (o : Nat) : s.word64 o < 2 ^ 64 := by
  have hlo := (s.word o).isLt
  have hhi := (s.word (o + 4)).isLt
  unfold State.word64
  omega

theorem State.toNat_joinAt (s : State) : s.joinAt.toNat = s.word64 (strB + 0x808) := by
  rw [State.joinAt, BitVec.toNat_ofNat]
  exact Nat.mod_eq_of_lt (s.word64_lt _)

/-! ### Drains (R409) -/

theorem exec_planeDrainCheck_of (s : State) (p : Nat) : exec (.planeDrainCheck p) s =
    guardUnit s (decide (p < 2)) (if s.plnState p = 1 ∧ s.plnEmpty p = true then s.plnDetached p else s) := rfl

theorem exec_planeDrainTmo_of (s : State) (p : Nat) : exec (.planeDrainTmo p) s =
    guardUnit s (decide (p < 2)) (if s.plnState p = 1 then ((s.planeReset p).plnCause p 5).plnDetached p else s) := rfl

/-- A guarded change outside its unit, or without its condition, changes nothing. -/
theorem guardUnit_of_not {ok : Bool} {q : Prop} [Decidable q] {u : State} (h : ok = false ∨ ¬ q) :
    guardUnit s ok (if q then u else s) = .next s := by
  rcases h with rfl | h
  · rfl
  · rw [if_neg h, guardUnit_self]

theorem decide_plane_false (h : 2 ≤ p) : decide (p < 2) = false := decide_eq_false (Nat.not_lt.mpr h)

/-! ### Failover (R410, R411) -/

/-- A fault of an attached plane beside an attached one. -/
def State.planeFailed (s : State) (p cause : Nat) : State :=
  (((s.plnGo p 5).plnCause p cause).count strB F.STR_PLN_FAIL_CNT_COUNT 1).glEvent 3 0

theorem exec_planeFailover_of {cause : Nat} {r : List (Nat × Nat)} (h : s.planeFaults = (p, cause) :: r) : exec .planeFailover s =
    .next (if s.flag strB F.STR_PLN_CFG_AUTO_FAIL && s.plnState p == 0 && s.plnState (1 - p) == 0 then
      ({ s with planeFaults := r } : State).planeFailed p cause else { s with planeFaults := r }) := by
  refine congrArg Host.Outcome.next ?_
  rw [h]
  rfl

theorem State.rd_str_glEvent (s : State) {g : Nat} (hg : g < 16) (i : Nat) {f : Fld} (hf : f.off < 0x10000) :
    (s.glEvent g i).rd strB f = s.rd strB f := by
  rw [State.rd, (s.keepsAt_glEvent hg i).1 _ (Or.inl (by change 0x10000 + f.off < 0x50000; omega)), State.rd]

theorem State.plnState_glEvent (s : State) {g : Nat} (hg : g < 16) (i q : Nat) : (s.glEvent g i).plnState q = s.plnState q := by
  unfold State.plnState
  split
  · exact s.rd_str_glEvent hg i (by decide)
  · exact s.rd_str_glEvent hg i (by decide)

theorem State.failCnt_plnGo (s : State) (p v cause : Nat) : ((s.plnGo p v).plnCause p cause).rd strB F.STR_PLN_FAIL_CNT_COUNT =
    s.rd strB F.STR_PLN_FAIL_CNT_COUNT := by
  unfold State.plnCause State.plnGo
  split
  · rw [State.rd_wr_ne _ _ _ _ _ _ (by decide), State.rd_wr_ne _ _ _ _ _ _ (by decide)]
  · rw [State.rd_wr_ne _ _ _ _ _ _ (by decide), State.rd_wr_ne _ _ _ _ _ _ (by decide)]

theorem State.plnState_count (s : State) (q : Nat) : (s.count strB F.STR_PLN_FAIL_CNT_COUNT 1).plnState q = s.plnState q :=
  s.plnState_wr _ (by decide) (by decide) q

theorem State.planeFailed_spec (s : State) (hp : p < 2) (cause : Nat) : (s.planeFailed p cause).plnState p = 5
    ∧ (s.planeFailed p cause).plnState (1 - p) = s.plnState (1 - p) ∧ (s.planeFailed p cause).planeFaults = s.planeFaults
    ∧ (s.planeFailed p cause).rd strB F.STR_PLN_FAIL_CNT_COUNT =
      min (s.rd strB F.STR_PLN_FAIL_CNT_COUNT + 1) (2 ^ F.STR_PLN_FAIL_CNT_COUNT.w - 1) := by
  unfold State.planeFailed
  refine ⟨?_, ?_, ?_, ?_⟩
  · rw [State.plnState_glEvent _ (by decide), State.plnState_count, State.plnState_plnCause, State.plnState_plnGo _ _ (by decide)]
  · rw [State.plnState_glEvent _ (by decide), State.plnState_count, State.plnState_plnCause, State.plnState_plnGo_other _ hp]
  · refine (State.near_glEvent _ 3 0).planeFaults.trans ?_
    rw [State.count_planeFaults, State.plnCause, State.wr_planeFaults, State.plnGo, State.wr_planeFaults]
  · rw [State.rd_str_glEvent _ (by decide) _ (by decide), State.rd_count_same _ _ _ _ (by decide), State.failCnt_plnGo]

/-! ### Tests (R413) -/

/-- The probes of a plane test that have not passed. -/
def State.badProbes (s : State) (p : Nat) : List (Nat × Nat × Bool) := (s.probeList p).filter (fun q => !q.2.2)

/-- A plane test's first failing probe in the log. -/
def State.testLogged (s : State) (l : List (Nat × Nat × Bool)) : State := match l with
  | (n, e, _) :: _ => (s.wr strB F.STR_PLN_TEST_LOG_NI n).wr strB F.STR_PLN_TEST_LOG_ENTRY e
  | [] => s

/-- A plane test's result in TEST_PASS. -/
def State.testPassed (s : State) (p : Nat) : State :=
  ((s.testLogged (s.badProbes p)).wr strB (plnPass p) (b2n ((s.badProbes p).isEmpty && !bitAt s.planeHit p))).plnGo p 2

/-- The NIs without the probes of a plane. -/
def State.probesGone (s : State) (p : Nat) : State :=
  forAll s.rom.nis.length (fun n a => a.updNi n (fun x =>
    ({ x with probes := x.probes.filter (fun q => q.1 != p) } : NiSt).dropSys (fun q =>
      q.ptype == 8 && q.op == 0 && q.probe == some p))) s

/-- A plane test that has ended, before its command is answered. -/
def State.testDone (s : State) (p : Nat) : State :=
  (((s.testPassed p).probesGone p).updPln p (fun v => { v with test := none })).give 2 p

theorem State.testEnd_eq (s : State) (p : Nat) : s.testEnd p = if s.plnState p ≠ 3 then s else
    (s.testDone p).replyOpt (((s.testPassed p).probesGone p).pln p).test 0 (leBytes 4 (s.probeList p).length
      ++ leBytes 4 (s.badProbes p).length ++ leBytes 4 (((s.testPassed p).probesGone p).word (strB + 0x814)).toNat) := rfl

theorem State.sameRegs_probesGone (s : State) (p : Nat) : (∀ o, (s.probesGone p).word o = s.word o)
    ∧ ∀ q, (s.probesGone p).pln q = s.pln q :=
  forAll_induction (R := fun a b => (∀ o, State.word b o = State.word a o) ∧ ∀ q, State.pln b q = State.pln a q)
    (fun _ => ⟨fun _ => rfl, fun _ => rfl⟩)
    (fun h k => ⟨fun o => (k.1 o).trans (h.1 o), fun q => (k.2 q).trans (h.2 q)⟩) _
    (fun i _ a => ⟨fun o => a.updNi_word i _ o, fun q => a.updNi_pln i _ q⟩) s

theorem State.rd_probesGone (s : State) (p b : Nat) (f : Fld) : (s.probesGone p).rd b f = s.rd b f := by
  rw [State.rd, (s.sameRegs_probesGone p).1, State.rd]

theorem State.plnState_probesGone (s : State) (p q : Nat) : (s.probesGone p).plnState q = s.plnState q := by
  unfold State.plnState
  split
  · rw [State.rd_probesGone]
  · rw [State.rd_probesGone]

theorem State.pln_testLogged (s : State) (l : List (Nat × Nat × Bool)) (q : Nat) : (s.testLogged l).pln q = s.pln q := by
  unfold State.testLogged
  split
  · rw [State.wr_pln, State.wr_pln]
  · rfl

theorem State.pln_testPassed (s : State) (p q : Nat) : (s.testPassed p).pln q = s.pln q := by
  rw [State.testPassed, State.pln_plnGo, State.wr_pln, State.pln_testLogged]

theorem State.plnState_give (s : State) (k w q : Nat) : (s.give k w).plnState q = s.plnState q := by
  unfold State.give
  dsimp only
  split
  · rfl
  · rfl

theorem State.rd_give (s : State) (k w b : Nat) (f : Fld) : (s.give k w).rd b f = s.rd b f := by
  unfold State.give
  dsimp only
  split
  · rfl
  · rfl

theorem State.pln_give (s : State) (k w q : Nat) : (s.give k w).pln q = s.pln q := by
  unfold State.give
  dsimp only
  split
  · rfl
  · rfl

theorem State.testDone_spec (s : State) (p : Nat) : (s.testDone p).plnState p = 2
    ∧ (s.testDone p).flag strB (plnPass p) = ((s.badProbes p).isEmpty && !bitAt s.planeHit p) ∧ ((s.testDone p).pln p).test = none := by
  unfold State.testDone
  refine ⟨?_, ?_, ?_⟩
  · rw [State.plnState_give, State.plnState_updPln, State.plnState_probesGone, State.testPassed, State.plnState_plnGo _ _ (by decide)]
  · rw [State.flag, State.rd_give, State.updPln_rd, State.rd_probesGone]
    exact (State.pass_plnGo _ p 2).trans (State.pass_wr _ p _)
  · rw [State.pln_give, State.pln_updPln_same]

theorem exec_planeTestEnd_of_test (hp : p < 2) (h : s.plnState p = 3) (hx : (s.pln p).test = some x) : exec (.planeTestEnd p) s =
    .next ((s.testDone p).reply x 0 (leBytes 4 (s.probeList p).length
      ++ leBytes 4 (s.badProbes p).length ++ leBytes 4 (((s.testPassed p).probesGone p).word (strB + 0x814)).toNat)) := by
  change guardUnit s (decide (p < 2)) (s.testEnd p) = _
  rw [guardUnit_of (decide_eq_true hp), State.testEnd_eq, if_neg (not_not_intro h), (State.sameRegs_probesGone _ p).2,
    State.pln_testPassed, hx, State.replyOpt_some]

theorem State.log_testPassed (h : s.badProbes p = []) : ((s.testPassed p).probesGone p).word (strB + 0x814) = s.word (strB + 0x814) := by
  rw [(State.sameRegs_probesGone _ p).1, State.testPassed, h]
  have hgo : ∀ u : State, (u.plnGo p 2).word (strB + 0x814) = u.word (strB + 0x814) := fun u => by
    unfold State.plnGo
    split
    · exact u.word_wr_ne _ _ _ (by decide)
    · exact u.word_wr_ne _ _ _ (by decide)
  rw [hgo]
  refine State.word_wr_ne _ _ _ _ ?_
  rw [(plnPass_spec p).1]
  decide

end Sys2Proof.Machine
end

section
/-! SUPPORT. Planes at NIs, the join of a plane, and the statement about planes (R396, R398, R408 to R414, R417). -/

namespace Sys2Proof.Machine

variable {s : State} {x p n : Nat} {t : Stamp} {c : Cmd}

/-! ### T_j (R414) -/

/-- ATT of a plane at an NI. -/
def attFld (p : Nat) : Fld := if p = 0 then F.NI_PLN_STAT_ATT_A else F.NI_PLN_STAT_ATT_B

theorem exec_planeJoin_none (s : State) (p : Nat) (t : Stamp) : exec (.planeJoin p none t) s = guardUnit s (decide (p < 2))
    (if s.plnState p = 4 ∧ 0 ≤ stampDiff t s.joinAt then
      ((s.plnGo p 0).updPln p (fun v => { v with attach := none })).replyOpt (s.pln p).attach 0 (leBytes 8 s.joinAt.toNat)
      else s) := rfl

theorem exec_planeJoin_some (s : State) (p n : Nat) (t : Stamp) : exec (.planeJoin p (some n) t) s =
    guardUnit s (decide (p < 2) && s.hasNi n) (if bitAt (s.ni n).join p = true ∧ 0 ≤ stampDiff t s.joinAt then
      (s.updNi n (fun x => { x with join := x.join - 2 ^ p })).wr (niB n) (attFld p) 1 else s) := rfl

theorem planeJoin_attaches (hp : p < 2) (h : s.plnState p = 4) (hx : (s.pln p).attach = some x)
    (ht : 0 ≤ stampDiff t s.joinAt) : ∃ v : State, exec (.planeJoin p none t) s =
      .next (v.reply x 0 (leBytes 8 (s.word64 (strB + 0x808)))) ∧ v.plnState p = 0 := by
  refine ⟨(s.plnGo p 0).updPln p (fun v => { v with attach := none }), ?_, ?_⟩
  · rw [exec_planeJoin_none, guardUnit_of (decide_eq_true hp), if_pos ⟨h, ht⟩, hx, State.replyOpt_some, State.toNat_joinAt]
  · rw [State.plnState_updPln, State.plnState_plnGo _ _ (by decide)]

theorem attFld_spec (p : Nat) : (attFld p).off = 0xD00 ∧ (attFld p).lo + (attFld p).w ≤ 2 ∧ (attFld p).w = 1 := by
  unfold attFld
  split
  · decide
  · decide

theorem State.att_wr (s : State) (n p : Nat) (b : Bool) : (s.wr (niB n) (attFld p) (b2n b)).flag (niB n) (attFld p) = b := by
  obtain ⟨-, hw, h1⟩ := attFld_spec p
  rw [State.flag, State.rd_wr_same _ _ _ _ (by omega), h1]
  cases b <;> rfl

theorem planeJoin_at_ni (hp : p < 2) (hn : s.hasNi n = true) (hj : bitAt (s.ni n).join p = true)
    (ht : 0 ≤ stampDiff t s.joinAt) : ∃ v : State, exec (.planeJoin p (some n) t) s = .next v
      ∧ v.flag (niB n) (attFld p) = true ∧ (v.ni n).join = (s.ni n).join - 2 ^ p := by
  refine ⟨(s.updNi n (fun x => { x with join := x.join - 2 ^ p })).wr (niB n) (attFld p) 1, ?_, State.att_wr _ n p true, ?_⟩
  · rw [exec_planeJoin_some, guardUnit_of (by rw [decide_eq_true hp, hn]; rfl), if_pos ⟨hj, ht⟩]
  · rw [State.wr_ni, State.ni_updNi_same]

theorem exec_planeJoin_none_of_not (h : 2 ≤ p ∨ s.plnState p ≠ 4 ∨ stampDiff t s.joinAt < 0) :
    exec (.planeJoin p none t) s = .next s := by
  refine guardUnit_of_not (h.imp decide_plane_false fun h hq => ?_)
  rcases h with h | h
  · exact h hq.1
  · exact not_lt.mpr hq.2 h

theorem exec_planeJoin_some_of_not (h : 2 ≤ p ∨ s.hasNi n = false ∨ bitAt (s.ni n).join p = false ∨ stampDiff t s.joinAt < 0) :
    exec (.planeJoin p (some n) t) s = .next s := by
  rw [exec_planeJoin_some]
  rcases h with h | h | h | h
  · exact guardUnit_of_not (.inl (by rw [decide_plane_false h, Bool.false_and]))
  · exact guardUnit_of_not (.inl (by rw [h, Bool.and_false]))
  · exact guardUnit_of_not (.inr fun hq => Bool.false_ne_true (h.symm.trans hq.1))
  · exact guardUnit_of_not (.inr fun hq => not_lt.mpr hq.2 h)

/-! ### An NI that follows the planes (R398, R408) -/

/-- Whether plane `p` is usable by its state and by the local time. -/
def State.planeOn (s : State) (p : Nat) (t : Stamp) : Bool :=
  s.plnState p == 0 || (s.plnState p == 4 && decide (0 ≤ stampDiff t s.joinAt))

theorem State.csr_plnFollow (s : State) (n p : Nat) (t : Stamp) :
    (∀ o, (s.plnFollow n p t).word o = (s.wr (niB n) (attFld p) (b2n (s.planeOn p t))).word o) := by
  intro o
  have hfirst : ∀ u : State, ∀ f, (u.updNi n f).word o = u.word o := fun u f => u.updNi_word n f o
  unfold State.plnFollow
  dsimp only
  split
  · rfl
  · rw [hfirst]
    rfl

theorem State.rd_plnFollow (s : State) (n p : Nat) (t : Stamp) (b : Nat) (f : Fld) :
    (s.plnFollow n p t).rd b f = (s.wr (niB n) (attFld p) (b2n (s.planeOn p t))).rd b f := by
  rw [State.rd, State.csr_plnFollow, State.rd]

theorem State.rd_str_plnFollow (s : State) (n p : Nat) (t : Stamp) {f : Fld} (hf : f.off < 0x10000) :
    (s.plnFollow n p t).rd strB f = s.rd strB f := by
  rw [State.rd_plnFollow]
  exact s.rd_wr_ne _ _ _ _ _ (by rw [(attFld_spec p).1]; change 0x10000 + f.off ≠ 0x400000 + n * 0x4000 + 0xD00; omega)

theorem State.plnState_plnFollow (s : State) (n p : Nat) (t : Stamp) (q : Nat) : (s.plnFollow n p t).plnState q = s.plnState q := by
  unfold State.plnState
  split
  · exact s.rd_str_plnFollow n p t (by decide)
  · exact s.rd_str_plnFollow n p t (by decide)

theorem State.joinAt_plnFollow (s : State) (n p : Nat) (t : Stamp) : (s.plnFollow n p t).joinAt = s.joinAt := by
  have hword : ∀ o, o < 0x20000 → (s.plnFollow n p t).word o = s.word o := fun o ho => by
    rw [State.csr_plnFollow]
    exact s.word_wr_ne _ _ _ (by rw [(attFld_spec p).1]; change o ≠ 0x400000 + n * 0x4000 + 0xD00; omega)
  rw [State.joinAt, State.word64, hword _ (by decide), hword _ (by decide), State.joinAt, State.word64]

theorem State.planeOn_plnFollow (s : State) (n p q : Nat) (t : Stamp) : (s.plnFollow n p t).planeOn q t = s.planeOn q t := by
  rw [State.planeOn, State.plnState_plnFollow, State.joinAt_plnFollow, State.planeOn]

theorem State.word_moveStaged (s : State) (n o : Nat) : (s.moveStaged n).word o = s.word o := by
  have hfold : ∀ {α : Type} (f : State → α → State) (l : List α), (∀ a x, (f a x).word o = a.word o) →
      ∀ a : State, (l.foldl f a).word o = a.word o := by
    intro α f l hf
    induction l with
    | nil => exact fun _ => rfl
    | cons x r ih => exact fun a => (ih _).trans (hf a x)
  refine hfold _ _ (fun a p => ?_) s
  dsimp only
  split
  · rfl
  · refine hfold _ _ (fun b v => ?_) a
    split
    · split
      · rw [State.updPort_word, State.updPort_word]
      · rfl
    · rfl

/-- NI `n` after it has followed both planes. -/
def State.planesFollowed (s : State) (n : Nat) (t : Stamp) : State :=
  (((s.plnFollow n 0 t).plnFollow n 1 t).wr (niB n) F.NI_PLN_STAT_TEST
    (b2n (s.plnState 0 == 3 || s.plnState 1 == 3))).moveStaged n

theorem exec_planeStateReceive_of (s : State) (n : Nat) (t : Stamp) :
    exec (.planeStateReceive n t) s = guardUnit s (s.hears n) (s.planesFollowed n t) := rfl

theorem State.rd_planesFollowed (s : State) (n : Nat) (t : Stamp) (p : Nat) :
    (s.planesFollowed n t).rd (niB n) (attFld p) = ((s.plnFollow n 0 t).plnFollow n 1 t).rd (niB n) (attFld p) := by
  obtain ⟨ho, hw, -⟩ := attFld_spec p
  rw [State.planesFollowed, State.rd, State.word_moveStaged]
  exact State.rd_wr_apart _ (niB n) F.NI_PLN_STAT_TEST (attFld p) _ ho (by decide) (.inr hw)

theorem State.att_planesFollowed (s : State) (n : Nat) (t : Stamp) (hp : p < 2) :
    (s.planesFollowed n t).flag (niB n) (attFld p) = s.planeOn p t := by
  rw [State.flag, State.rd_planesFollowed, State.rd_plnFollow]
  obtain rfl | rfl : p = 0 ∨ p = 1 := by omega
  · rw [State.rd_wr_apart _ (niB n) (attFld 1) (attFld 0) _ rfl (by decide) (by decide), State.rd_plnFollow]
    exact State.att_wr s n 0 _
  · rw [State.planeOn_plnFollow]
    exact State.att_wr _ n 1 _

end Sys2Proof.Machine

namespace Sys2Proof.Machine

/-- Settles O37. -/
theorem planesFollowTheirCommands : Obligations.PlanesFollowTheirCommands := by
  unfold Obligations.PlanesFollowTheirCommands
  refine ⟨fun s x p c hp => ⟨?_, ?_, ?_, ?_, ?_, ?_, ?_, ?_, ?_, ?_, ?_⟩, fun s p => ⟨?_, ?_, ?_, ?_, ?_,
    fun t => exec_planeJoin_none_of_not, fun n t => exec_planeJoin_some_of_not, ?_, fun hp => ⟨?_, ?_, ?_, ?_, ?_, ?_, ?_, ?_⟩⟩⟩
  case refine_1 =>
    subst hp
    exact fun h hother => (exec_planeDetach_of h).trans (congrArg Host.Outcome.next (if_pos hother))
  case refine_2 =>
    subst hp
    exact fun h hother h0 => ⟨planeDetach_at_once h hother h0, planeDetach_drains h hother h0⟩
  case refine_3 =>
    subst hp
    intro h hother h0
    rw [exec_planeDetach_of h, if_neg (not_not_intro hother), if_pos h0]
  case refine_4 =>
    subst hp
    refine fun h2 => ⟨fun h => ?_, fun h => ?_, fun h h5 => ?_⟩
    · rw [exec_planeTest_of h, if_pos (.inl h2)]
    · rw [exec_planeAttach_of h, if_pos h2]
    · rw [exec_planeReset_of h, if_pos ⟨h2, h5⟩]
  case refine_5 =>
    subst hp
    intro h h2 hpass
    rw [exec_planeAttach_of h, if_neg (not_not_intro h2), if_pos hpass]
  case refine_6 =>
    subst hp
    intro h h2 hpass hroot
    rw [exec_planeAttach_of h, if_neg (not_not_intro h2), if_neg (ne_false_of_eq_true hpass), if_pos hroot]
  case refine_7 =>
    subst hp
    intro h h2 hbad
    rw [exec_planeTest_of h, if_pos (.inr (hbad.imp_right fun hb => hb.imp Option.isSome_iff_ne_none.mpr Option.isSome_iff_ne_none.mpr))]
  case refine_8 =>
    subst hp
    exact planeTest_asks
  case refine_9 =>
    subst hp
    exact planeAttach_joins
  case refine_10 =>
    subst hp
    intro h hst
    rw [exec_planeReset_of h, if_neg (by omega)]
  case refine_11 => exact fun h => congrArg Host.Outcome.next (State.runCmd_issued s h _)
  case refine_12 =>
    intro h
    rw [exec_planeDrainCheck_of]
    refine guardUnit_of_not (h.imp decide_plane_false fun h hq => ?_)
    rcases h with h | h
    · exact h hq.1
    · exact Bool.false_ne_true (h.symm.trans hq.2)
  case refine_13 =>
    intro h
    rw [exec_planeDrainTmo_of]
    exact guardUnit_of_not (h.imp_left decide_plane_false)
  case refine_14 =>
    intro h
    change guardUnit s (decide (p < 2)) (s.testEnd p) = _
    rw [State.testEnd_eq]
    exact guardUnit_of_idle (h.imp_left decide_plane_false)
  case refine_15 =>
    intro h
    refine congrArg Host.Outcome.next ?_
    rw [h]
  case refine_16 =>
    intro cause r h hoff
    rw [exec_planeFailover_of h, if_neg]
    rcases hoff with h1 | h1 | h1
    · rw [h1, Bool.false_and, Bool.false_and]
      exact Bool.false_ne_true
    · rw [beq_eq_false_iff_ne.mpr h1, Bool.and_false, Bool.false_and]
      exact Bool.false_ne_true
    · rw [beq_eq_false_iff_ne.mpr h1, Bool.and_false]
      exact Bool.false_ne_true
  case refine_17 =>
    intro n t h
    rw [exec_planeStateReceive_of, h, guardUnit_false]
  case refine_18 =>
    intro h1 he
    rw [exec_planeDrainCheck_of, guardUnit_of (decide_eq_true hp), if_pos ⟨h1, he⟩]
  case refine_19 =>
    intro h1
    rw [exec_planeDrainTmo_of, guardUnit_of (decide_eq_true hp), if_pos h1]
  case refine_20 =>
    intro cause r h hauto h0 hother
    obtain ⟨h5, hkeep, hr, hcnt⟩ := ({ s with planeFaults := r } : State).planeFailed_spec hp cause
    refine ⟨({ s with planeFaults := r } : State).planeFailed p cause, ?_, h5, hkeep.trans hother, hr, hcnt⟩
    rw [exec_planeFailover_of h, if_pos (by rw [hauto, h0, hother]; rfl)]
  case refine_21 =>
    intro x h3 hx hok hhit
    have hbad : s.badProbes p = [] := List.filter_eq_nil_iff.mpr fun q hq => by simp [hok q hq]
    obtain ⟨h2, hpass, htest⟩ := s.testDone_spec p
    refine ⟨s.testDone p, ?_, h2, ?_, htest⟩
    · rw [exec_planeTestEnd_of_test hp h3 hx, State.log_testPassed hbad, hbad]
      rfl
    · rw [hpass, hbad, hhit]
      rfl
  case refine_22 =>
    intro x h3 hx hbad
    obtain ⟨h2, hpass, htest⟩ := s.testDone_spec p
    refine ⟨_, s.testDone p, exec_planeTestEnd_of_test hp h3 hx, h2, ?_, htest⟩
    rw [hpass]
    rcases hbad with ⟨q, hq, hf⟩ | hhit
    · have hmem : q ∈ s.badProbes p := List.mem_filter.mpr ⟨hq, by rw [hf]; rfl⟩
      rw [List.isEmpty_eq_false_iff.mpr (List.ne_nil_of_mem hmem), Bool.false_and]
    · rw [hhit, Bool.not_true, Bool.and_false]
  case refine_23 => exact fun x t h4 hx ht => planeJoin_attaches hp h4 hx ht
  case refine_24 => exact fun n t hn hj ht => planeJoin_at_ni hp hn hj ht
  case refine_25 =>
    intro n t hn
    refine ⟨s.planesFollowed n t, ?_, ?_⟩
    · rw [exec_planeStateReceive_of, guardUnit_of hn]
    · rintro on rfl
      exact s.att_planesFollowed n t hp

end Sys2Proof.Machine
end

section
/-! SUPPORT. What the operations of the heat commit unit leave of its own registers and of its heats: the broadcasts, the hold of
regions, the events, and the pump that starts the next vote (R361, R363, R372). -/

namespace Sys2Proof.Machine

/-- `t` has the registers of the heat commit unit, the heats, the leaves and the clients of `s`. -/
structure State.HcuSame (s t : State) : Prop where
  word : ∀ o, hcuB ≤ o → o < pcrB → t.word o = s.word o
  heats : t.heats = s.heats
  clients : t.clients = s.clients
  leaves : t.leaves = s.leaves
  gives : t.gives = s.gives
  asks : t.asks = s.asks
  cmds : t.cmds = s.cmds

namespace State.HcuSame

variable {s t u : State}

theorem refl (s : State) : s.HcuSame s := ⟨fun _ _ _ => rfl, rfl, rfl, rfl, rfl, rfl, rfl⟩

theorem trans (h : s.HcuSame t) (k : t.HcuSame u) : s.HcuSame u :=
  ⟨fun o h1 h2 => (k.word o h1 h2).trans (h.word o h1 h2), k.heats.trans h.heats, k.clients.trans h.clients,
    k.leaves.trans h.leaves, k.gives.trans h.gives, k.asks.trans h.asks, k.cmds.trans h.cmds⟩

theorem rd (h : s.HcuSame t) {f : Fld} (hf : f.off < 0x10000) : t.rd hcuB f = s.rd hcuB f := by
  rw [State.rd, h.word _ (Nat.le_add_right _ _) (by change 0x30000 + f.off < 0x40000; omega), State.rd]

theorem heatSt (h : s.HcuSame t) {k : Nat} (hk : k < 64) : t.heatSt k = s.heatSt k :=
  h.rd (show 0x100 + 32 * k < 0x10000 by omega)

theorem heat (h : s.HcuSame t) (k : Nat) : t.heat k = s.heat k := by rw [State.heat, h.heats, State.heat]

theorem hasLeave (h : s.HcuSame t) (kind who : Nat) : t.hasLeave kind who = s.hasLeave kind who := by
  rw [State.hasLeave, h.leaves, h.gives, State.hasLeave]

theorem client (h : s.HcuSame t) (c : Nat) : t.client c = s.client c := by rw [State.client, h.clients, State.client]

theorem of_near (hn : s.Near t) (hw : ∀ o, hcuB ≤ o → o < pcrB → t.word o = s.word o) : s.HcuSame t :=
  ⟨hw, by have e := congrArg State.heats hn; exact e, by have e := congrArg State.clients hn; exact e,
    by have e := congrArg State.leaves hn; exact e, by have e := congrArg State.gives hn; exact e,
    by have e := congrArg State.asks hn; exact e, hn.cmds⟩

theorem setWord (s : State) {o : Nat} (w : Word) (h : o < hcuB ∨ pcrB ≤ o) : s.HcuSame (s.setWord o w) :=
  of_near (.setWord s _ _) fun o' h1 h2 => s.word_setWord_ne _ (by omega)

theorem wr (s : State) {b : Nat} {f : Fld} (v : Nat) (h : b + f.off < hcuB ∨ pcrB ≤ b + f.off) : s.HcuSame (s.wr b f v) :=
  setWord s _ h

theorem raise (s : State) {x : Src} (i : Nat) (h : x.base + x.cause.off < hcuB ∨ pcrB ≤ x.base + x.cause.off) :
    s.HcuSame (s.raise x i) :=
  of_near (s.near_raise x i) fun o h1 h2 => ((s.keepsAt_raise x i).1 o (.inl (lt_trans h2 (by decide)))).trans
    ((wr s _ h).word o h1 h2)

theorem rgEvent (s : State) (g i : Nat) : s.HcuSame (s.rgEvent g i) :=
  raise s i (.inr (by change 0x40000 ≤ 0x50000 + _; omega))

theorem glEvent (s : State) (g i : Nat) : s.HcuSame (s.glEvent g i) :=
  raise s i (.inr (by change 0x40000 ≤ 0x50000 + _; omega))

theorem ite {c : Prop} [Decidable c] {a b : State} (ha : s.HcuSame a) (hb : s.HcuSame b) : s.HcuSame (if c then a else b) := by
  split
  · exact ha
  · exact hb

theorem foldl {α : Type} {f : State → α → State} (hf : ∀ a x, State.HcuSame a (f a x)) (l : List α) (s : State) :
    s.HcuSame (l.foldl f s) := by
  induction l generalizing s with
  | nil => exact refl s
  | cons x r ih => exact (hf s x).trans (ih _)

theorem setKept (s : State) (m : Nat) : s.HcuSame { s with intKept := m } := ⟨fun _ _ _ => rfl, rfl, rfl, rfl, rfl, rfl, rfl⟩

theorem rgGo (s : State) (g st : Nat) : s.HcuSame (s.rgGo g st) := by
  unfold State.rgGo
  refine ite (refl s) (trans ?_ (rgEvent _ g 3))
  have hkept : s.HcuSame (if g = s.rom.homeRegion ∧ (st = 1 ∨ st = 2) ∧ (s.rgState g = 0 ∨ s.rgState g = 5) then
      { s with intKept := s.intLevels } else s) := ite (setKept s _) (refl s)
  refine hkept.trans ?_
  generalize (if g = s.rom.homeRegion ∧ (st = 1 ∨ st = 2) ∧ (s.rgState g = 0 ∨ s.rgState g = 5) then
      { s with intKept := s.intLevels } else s) = a
  have hstat := wr a (b := pcrB) (f := F.PCR_RG_STAT_STATE.ix g) st (.inr (Nat.le_add_right _ _))
  exact ite (hstat.trans (wr _ _ (.inr (Nat.le_add_right _ _)))) hstat

theorem rouse (s : State) (mask : Nat) : s.HcuSame (s.rouse mask) := foldl (fun a g => ite (rgGo a g 0) (refl a)) _ s

theorem updLk (s : State) (c : Nat) (f : Link → Link) : s.HcuSame (s.updLk c f) := ⟨fun _ _ _ => rfl, rfl, rfl, rfl, rfl, rfl, rfl⟩

theorem relayDown (s : State) (o : RelayOp) : s.HcuSame (s.relayDown o) := foldl (fun a c => updLk a c _) _ s

theorem broadcast (s : State) (own : Bool) (o : RelayOp) : s.HcuSame (s.broadcast own o) := by
  unfold State.broadcast
  dsimp only
  split
  · exact relayDown s o
  · exact (relayDown s o).trans ⟨fun _ _ _ => rfl, rfl, rfl, rfl, rfl, rfl, rfl⟩
  · exact (relayDown s o).trans ⟨fun _ _ _ => rfl, rfl, rfl, rfl, rfl, rfl, rfl⟩

theorem joinedOut (s : State) (r k : Nat) : s.HcuSame (s.joinedOut r k) := ite (foldl (fun a _ => broadcast a _ _) _ s) (refl s)

theorem setNi (s : State) (n : Nat) (x : NiSt) : s.HcuSame (s.setNi n x) := ⟨fun _ _ _ => rfl, rfl, rfl, rfl, rfl, rfl, rfl⟩

theorem clearVotes (s : State) (k : Nat) : s.HcuSame (s.clearVotes k) :=
  foldl (fun a n => by
    dsimp only
    split
    · exact setNi a n _
    · exact refl a) _ s

theorem setRelay (s : State) (r : Option (Nat × Nat)) : s.HcuSame { s with relay := r } :=
  ⟨fun _ _ _ => rfl, rfl, rfl, rfl, rfl, rfl, rfl⟩

theorem relayStart (s : State) (r k : Nat) : s.HcuSame (s.relayStart r k) :=
  ((clearVotes s k).trans (joinedOut _ r k)).trans (setRelay _ _)

theorem relayEnd (s : State) (k : Nat) : s.HcuSame (s.relayEnd k) := ⟨fun _ _ _ => rfl, rfl, rfl, rfl, rfl, rfl, rfl⟩

theorem heatFloors (s : State) (h : Heat) : s.HcuSame (s.heatFloors h) := ite (wr s _ (.inl (by decide))) (refl s)

end State.HcuSame

/-! ### The pump -/

/-- The pump after the heats that are ready have entered VOTING. -/
def State.heatVoteNext (s : State) : State :=
  if s.relay.isSome then s
  else match (s.slotsIn [3]).head? with
    | none => s
    | some k => (s.relayStart 0 k).rouse (s.relayStart 0 k).heatRuns

theorem State.heatPump_eq (s : State) : s.heatPump = s.heatReady.heatVoteNext := rfl

theorem State.HcuSame.heatVoteNext (s : State) : s.HcuSame s.heatVoteNext := by
  unfold State.heatVoteNext
  split
  · exact refl s
  · split
    · exact refl s
    · exact (relayStart s 0 _).trans (rouse _ _)

/-- Whether a heat's vote is due and every action of it is acknowledged. -/
def Heat.ready (h : Heat) : Bool := h.due && h.acts.all (fun e => e.ack.isSome)

/-- `t` differs from `s` in the registers and the heats of the unit in this only: the slots of `l` whose heats are ready are in
VOTING. -/
structure State.ReadySame (l : List Nat) (s t : State) : Prop where
  word : ∀ o, hcuB ≤ o → o < pcrB → (∀ k ∈ l, o ≠ hcuB + 0x100 + 32 * k) → t.word o = s.word o
  rd : ∀ f : Fld, 4 ≤ f.lo ∨ f.off % 32 ≠ 0 ∨ f.off < 0x100 → f.off < 0x10000 → t.rd hcuB f = s.rd hcuB f
  st : ∀ k, k < 64 → t.heatSt k = if k ∈ l ∧ (s.heat k).ready = true then 3 else s.heatSt k
  heats : t.heats = s.heats
  clients : t.clients = s.clients
  leaves : t.leaves = s.leaves
  gives : t.gives = s.gives
  asks : t.asks = s.asks
  cmds : t.cmds = s.cmds

namespace State.ReadySame

variable {l : List Nat} {s t u : State}

theorem refl (s : State) : s.ReadySame [] s :=
  ⟨fun _ _ _ _ => rfl, fun _ _ _ => rfl, fun _ _ => (if_neg (fun h => List.not_mem_nil h.1)).symm, rfl, rfl, rfl, rfl, rfl, rfl⟩

theorem trans (h : s.ReadySame l t) (k : t.HcuSame u) : s.ReadySame l u :=
  ⟨fun o h1 h2 h3 => (k.word o h1 h2).trans (h.word o h1 h2 h3), fun f h1 h2 => (k.rd h2).trans (h.rd f h1 h2),
    fun j hj => (k.heatSt hj).trans (h.st j hj), k.heats.trans h.heats, k.clients.trans h.clients,
    k.leaves.trans h.leaves, k.gives.trans h.gives, k.asks.trans h.asks, k.cmds.trans h.cmds⟩

theorem heat (h : s.ReadySame l t) (k : Nat) : t.heat k = s.heat k := by rw [State.heat, h.heats, State.heat]

theorem hasLeave (h : s.ReadySame l t) (kind who : Nat) : t.hasLeave kind who = s.hasLeave kind who := by
  rw [State.hasLeave, h.leaves, h.gives, State.hasLeave]

theorem client (h : s.ReadySame l t) (c : Nat) : t.client c = s.client c := by rw [State.client, h.clients, State.client]

/-- A slot outside `l` keeps its state. -/
theorem st_of_not_mem (h : s.ReadySame l t) {k : Nat} (hk : k < 64) (hl : k ∉ l) : t.heatSt k = s.heatSt k :=
  (h.st k hk).trans (if_neg fun hm => hl hm.1)

/-- One slot's heat enters VOTING, if it is ready. -/
theorem one (s : State) {k : Nat} (hk : k < 64) : s.ReadySame [k] (if (s.heat k).ready = true then s.heatGo k 3 else s) := by
  by_cases hr : (s.heat k).ready = true
  · rw [if_pos hr]
    refine ⟨fun o h1 h2 h3 => ?_, fun f h1 h2 => ?_, fun j hj => ?_, rfl, rfl, rfl, rfl, rfl, rfl⟩
    · have h := h3 k (List.mem_singleton.mpr rfl)
      exact s.word_wr_ne hcuB (F.HCU_SLOT0_STATE.ix k) 3 (by
        change o ≠ 0x30000 + 0x100 + 32 * k at h
        change o ≠ 0x30000 + (0x100 + 32 * k)
        omega)
    · by_cases ho : f.off = 0x100 + 32 * k
      · exact s.rd_wr_apart hcuB (F.HCU_SLOT0_STATE.ix k) f 3 ho (show 0 + 4 ≤ 32 by decide) (.inl (show 0 + 4 ≤ f.lo by omega))
      · exact s.rd_wr_ne hcuB hcuB (F.HCU_SLOT0_STATE.ix k) f 3 (by change 0x30000 + f.off ≠ 0x30000 + (0x100 + 32 * k); omega)
    · by_cases hjk : j = k
      · subst hjk
        rw [if_pos ⟨List.mem_singleton.mpr rfl, hr⟩]
        exact s.rd_wr_same hcuB (F.HCU_SLOT0_STATE.ix j) 3 (show 0 + 4 ≤ 32 by decide)
      · rw [if_neg (fun h => hjk (List.mem_singleton.mp h.1))]
        exact s.rd_wr_ne hcuB hcuB (F.HCU_SLOT0_STATE.ix k) (F.HCU_SLOT0_STATE.ix j) 3 (by
          change 0x30000 + (0x100 + 32 * j) ≠ 0x30000 + (0x100 + 32 * k)
          omega)
  · rw [if_neg hr]
    exact ⟨fun _ _ _ _ => rfl, fun _ _ _ => rfl, fun j _ => (if_neg fun h : j ∈ [k] ∧ (s.heat j).ready = true => hr (List.mem_singleton.mp h.1 ▸ h.2)).symm,
      rfl, rfl, rfl, rfl, rfl, rfl⟩

theorem cons {k : Nat} {l : List Nat} (h : s.ReadySame [k] t) (g : t.ReadySame l u) : s.ReadySame (k :: l) u := by
  refine ⟨fun o h1 h2 h3 => ?_, fun f h1 h2 => (g.rd f h1 h2).trans (h.rd f h1 h2), fun j hj => ?_, g.heats.trans h.heats,
    g.clients.trans h.clients, g.leaves.trans h.leaves, g.gives.trans h.gives, g.asks.trans h.asks, g.cmds.trans h.cmds⟩
  · exact (g.word o h1 h2 fun j hj => h3 j (List.mem_cons_of_mem _ hj)).trans
      (h.word o h1 h2 fun j hj => h3 j (List.mem_singleton.mp hj ▸ List.mem_cons_self))
  · rw [g.st j hj, h.st j hj, h.heat]
    by_cases hr : (s.heat j).ready = true
    · by_cases hk : j = k
      · subst hk
        simp [hr]
      · simp [hr, hk]
    · simp [hr]

theorem foldl : ∀ (l : List Nat) (s : State), (∀ k ∈ l, k < 64) →
    s.ReadySame l (l.foldl (fun a k => if (a.heat k).ready = true then a.heatGo k 3 else a) s) := by
  intro l
  induction l with
  | nil => exact fun s _ => refl s
  | cons k r ih =>
    intro s hl
    exact (one s (hl k List.mem_cons_self)).cons (ih _ fun j hj => hl j (List.mem_cons_of_mem _ hj))

theorem heatReady (s : State) : s.ReadySame (s.slotsIn [1, 2]) s.heatReady :=
  foldl _ s fun _ hk => List.mem_range.mp (List.mem_filter.mp hk).1

/-- What the pump changes: heats that are ready enter VOTING. -/
theorem heatPump (s : State) : s.ReadySame (s.slotsIn [1, 2]) s.heatPump := (heatReady s).trans (.heatVoteNext _)

end State.ReadySame

theorem State.mem_slotsIn {s : State} {l : List Nat} {k : Nat} : k ∈ s.slotsIn l ↔ k < 64 ∧ s.heatSt k ∈ l := by
  rw [State.slotsIn, List.mem_filter, List.mem_range, List.contains_iff_mem]

/-- The pump leaves a slot past its vote where it is. -/
theorem State.heatSt_heatPump (s : State) {k : Nat} (hk : k < 64) (h : 2 < s.heatSt k) : s.heatPump.heatSt k = s.heatSt k :=
  (ReadySame.heatPump s).st_of_not_mem hk fun hm => by
    have hst := (State.mem_slotsIn.mp hm).2
    simp only [List.mem_cons, List.not_mem_nil, or_false] at hst
    omega

end Sys2Proof.Machine
end

section
/-! SUPPORT. What an abort records and frees, and the statement about aborts (R363, R366, R368, R374, R375, R381, R382, R390). -/

namespace Sys2Proof.Machine

variable {s : State} {k x : Nat} {c : Cmd}

/-! ### The parts of an abort -/

/-- What an abort records of its heat: its state, its reason, and the counts. -/
def State.abortNoted (s : State) (k reason first detail : Nat) : State :=
  let s := ((((s.heatGo k 10).wr hcuB (F.HCU_SLOT0_REASON.ix k) reason).wr hcuB (F.HCU_SLOT7_FIRST.ix k) first).wr hcuB
    (F.HCU_SLOT7_DETAIL.ix k) detail).count hcuB F.HCU_CNT_ABORT_COUNT 1
  let s := if reason = 9 then s.count hcuB F.HCU_CNT_FALSE_COUNT 1 else s
  let c := s.rd hcuB (F.HCU_SLOT0_CLIENT.ix k)
  if reason = 2 then s.backOff c (min ((s.client c).1 + 1) 10) else s

/-- What an abort answers: the heat's HEAT_STAGEs and its HEAT_COMMIT. -/
def State.abortAnswered (s : State) (k : Nat) (h : Heat) : State :=
  let s := h.stages.foldl (fun a e => a.reply e.1 0x0014 (h.stageReply e.1)) s
  s.replyOpt h.commit 0x0014 (s.commitReply k)

/-- What an abort frees and sends. -/
def State.abortEnd (s : State) (k : Nat) (h : Heat) : State :=
  (((((((s.heatFloors h).setHeat k { h with acts := [], stages := [], commit := none }).relayEnd k).joinedOut 3 k).give 0 k).glEvent
    1 0)).heatPump

theorem State.heatAbort_eq (s : State) (k reason first detail : Nat) : s.heatAbort k reason first detail =
    if s.heatSt k = 0 ∨ 5 < s.heatSt k then s
    else ((s.abortNoted k reason first detail).abortAnswered k (s.heat k)).abortEnd k (s.heat k) := rfl

theorem State.heatAbort_of {reason first detail : Nat} (h1 : 1 ≤ s.heatSt k) (h5 : s.heatSt k ≤ 5) : s.heatAbort k reason first detail =
    ((s.abortNoted k reason first detail).abortAnswered k (s.heat k)).abortEnd k (s.heat k) := by
  rw [State.heatAbort_eq, if_neg (by omega)]

theorem State.abortAnswered_of_none {h : Heat} (hs : h.stages = []) (hc : h.commit = none) : s.abortAnswered k h = s := by
  rw [State.abortAnswered, hs, hc]
  rfl

/-- An abort by its client, as it is recorded. -/
theorem State.abortNoted_user (s : State) (k first detail : Nat) : s.abortNoted k 1 first detail =
    ((((s.heatGo k 10).wr hcuB (F.HCU_SLOT0_REASON.ix k) 1).wr hcuB (F.HCU_SLOT7_FIRST.ix k) first).wr hcuB
      (F.HCU_SLOT7_DETAIL.ix k) detail).count hcuB F.HCU_CNT_ABORT_COUNT 1 := rfl

/-! ### Fields of a slot -/

theorem State.rd_slot_wr (s : State) {f g : Fld} {i j k : Nat} (v : Nat) (hf : f.off = 0x100 + 4 * i + 32 * k)
    (hg : g.off = 0x100 + 4 * j + 32 * k) (hij : i ≠ j) : (s.wr hcuB f v).rd hcuB g = s.rd hcuB g :=
  s.rd_wr_ne hcuB hcuB f g v (by omega)

theorem State.rd_cnt_wr (s : State) {f g : Fld} {o k : Nat} (v : Nat) (hf : f.off = 0x100 + o + 32 * k) (hg : g.off < 0x100) :
    (s.wr hcuB f v).rd hcuB g = s.rd hcuB g :=
  s.rd_wr_ne hcuB hcuB f g v (by omega)

theorem State.rd_slot_count (s : State) {f g : Fld} {o k : Nat} (v : Nat) (hf : f.off < 0x100) (hg : g.off = 0x100 + o + 32 * k) :
    (s.count hcuB f v).rd hcuB g = s.rd hcuB g :=
  s.rd_wr_ne hcuB hcuB f g _ (by omega)

/-- What an abort by its client records. -/
theorem State.abortNoted_spec (s : State) (k : Nat) : (s.abortNoted k 1 0x1FF 0).heatSt k = 10
    ∧ (s.abortNoted k 1 0x1FF 0).rd hcuB (F.HCU_SLOT0_REASON.ix k) = 1
    ∧ (s.abortNoted k 1 0x1FF 0).rd hcuB (F.HCU_SLOT7_FIRST.ix k) = 0x1FF
    ∧ (s.abortNoted k 1 0x1FF 0).rd hcuB F.HCU_CNT_ABORT_COUNT = min (s.rd hcuB F.HCU_CNT_ABORT_COUNT + 1) (2 ^ 32 - 1) := by
  rw [State.abortNoted_user]
  refine ⟨?_, ?_, ?_, ?_⟩
  · rw [State.heatSt, State.rd_slot_count (o := 0) (k := k) _ _ (by decide) rfl,
      State.rd_slot_wr (i := 7) (j := 0) (k := k) _ _ rfl rfl (by decide),
      State.rd_slot_wr (i := 7) (j := 0) (k := k) _ _ rfl rfl (by decide),
      State.rd_wr_apart _ _ (F.HCU_SLOT0_REASON.ix k) (F.HCU_SLOT0_STATE.ix k) _ rfl (show 8 + 5 ≤ 32 by decide)
        (.inr (show 0 + 4 ≤ 8 by decide))]
    exact s.rd_wr_same hcuB (F.HCU_SLOT0_STATE.ix k) 10 (show 0 + 4 ≤ 32 by decide)
  · rw [State.rd_slot_count (o := 0) (k := k) _ _ (by decide) rfl,
      State.rd_slot_wr (i := 7) (j := 0) (k := k) _ _ rfl rfl (by decide),
      State.rd_slot_wr (i := 7) (j := 0) (k := k) _ _ rfl rfl (by decide)]
    exact State.rd_wr_same _ hcuB (F.HCU_SLOT0_REASON.ix k) 1 (show 8 + 5 ≤ 32 by decide)
  · rw [State.rd_slot_count (o := 28) (k := k) _ _ (by decide) rfl,
      State.rd_wr_apart _ _ (F.HCU_SLOT7_DETAIL.ix k) (F.HCU_SLOT7_FIRST.ix k) _ rfl (show 16 + 8 ≤ 32 by decide)
        (.inr (show 0 + 9 ≤ 16 by decide))]
    exact State.rd_wr_same _ hcuB (F.HCU_SLOT7_FIRST.ix k) 0x1FF (show 0 + 9 ≤ 32 by decide)
  · rw [State.rd_count_same _ _ _ _ (by decide), State.rd_cnt_wr (o := 28) (k := k) _ _ rfl (by decide),
      State.rd_cnt_wr (o := 28) (k := k) _ _ rfl (by decide), State.rd_cnt_wr (o := 0) (k := k) _ _ rfl (by decide), State.heatGo,
      State.rd_cnt_wr (o := 0) (k := k) _ _ rfl (by decide)]

/-! ### What an abort frees -/

theorem State.HcuSame.give_rd (s : State) (kind who : Nat) (f : Fld) : (s.give kind who).rd hcuB f = s.rd hcuB f := s.rd_give kind who _ f

theorem State.heat_give (s : State) (kind who k : Nat) : (s.give kind who).heat k = s.heat k := by
  unfold State.give
  dsimp only
  split
  · rfl
  · rfl

/-- A leave that is returned is held no more. -/
theorem State.hasLeave_give (s : State) (kind who : Nat) : (s.give kind who).hasLeave kind who = false := by
  unfold State.give
  dsimp only
  split
  next h =>
    change (s.leaves.contains ({ kind := kind, who := who } : Leave)
      && !(s.gives ++ [({ kind := kind, who := who } : Leave)]).contains ({ kind := kind, who := who } : Leave)) = false
    simp
  next h => exact Bool.eq_false_iff.mpr h

/-- What the end of an abort leaves of the unit's registers before the pump, and what it frees. -/
theorem State.abortEnd_spec (s : State) {k : Nat} (hk : k < 64) (h : Heat) (hst : s.heatSt k = 10) : (s.abortEnd k h).heatSt k = 10
    ∧ (∀ f : Fld, 4 ≤ f.lo ∨ f.off % 32 ≠ 0 ∨ f.off < 0x100 → f.off < 0x10000 → (s.abortEnd k h).rd hcuB f = s.rd hcuB f)
    ∧ ((s.abortEnd k h).heat k).acts = [] ∧ (s.abortEnd k h).hasLeave 0 k = false := by
  unfold State.abortEnd
  have h1 : s.HcuSame (s.heatFloors h) := .heatFloors s h
  have h2 := (State.HcuSame.relayEnd ((s.heatFloors h).setHeat k { h with acts := [], stages := [], commit := none }) k).trans
    (.joinedOut _ 3 k)
  generalize ((((s.heatFloors h).setHeat k { h with acts := [], stages := [], commit := none }).relayEnd k).joinedOut 3 k) = t at h2 ⊢
  have h3 := State.HcuSame.glEvent (t.give 0 k) 1 0
  have hrd : ∀ f : Fld, f.off < 0x10000 → ((t.give 0 k).glEvent 1 0).rd hcuB f = s.rd hcuB f := fun f hf => by
    rw [h3.rd hf, State.rd_give, h2.rd hf, State.setHeat_rd, h1.rd hf]
  have hst4 : ((t.give 0 k).glEvent 1 0).heatSt k = 10 := (hrd _ (show 0x100 + 32 * k < 0x10000 by omega)).trans hst
  have h4 := State.ReadySame.heatPump ((t.give 0 k).glEvent 1 0)
  refine ⟨?_, fun f hl hf => (h4.rd f hl hf).trans (hrd f hf), ?_, ?_⟩
  · rw [State.heatSt_heatPump _ hk (by rw [hst4]; decide), hst4]
  · rw [h4.heat, h3.heat, State.heat_give, h2.heat, State.heat_setHeat_same]
  · rw [h4.hasLeave, h3.hasLeave, State.hasLeave_give]

/-! ### HEAT_ABORT (R390) -/

theorem exec_heatAbort_of (h : s.Issued x 0x33 [(0, 16)] c) : exec (.heatAbort x) s =
    .next (match s.slotOf (c.p 0 16) with
      | none => (s.begin x).reply x 0x0011 []
      | some k => if 5 < s.heatSt k then (s.begin x).reply x 0x0006 []
        else ((s.begin x).heatAbort k 1 0x1FF 0).reply x 0 []) :=
  congrArg Host.Outcome.next (State.runCmd_issued s h _)

theorem exec_heatAbort_user (hk : k < 64) (h : s.Issued x 0x33 [(0, 16)] c) (hslot : s.slotOf (c.p 0 16) = some k)
    (h1 : 1 ≤ s.heatSt k) (h5 : s.heatSt k ≤ 5) (hs : (s.heat k).stages = []) (hc : (s.heat k).commit = none) :
    ∃ v : State, exec (.heatAbort x) s = .next (v.reply x 0 []) ∧ v.heatSt k = 10
      ∧ v.rd hcuB (F.HCU_SLOT0_REASON.ix k) = 1 ∧ v.rd hcuB (F.HCU_SLOT7_FIRST.ix k) = 0x1FF
      ∧ v.rd hcuB F.HCU_CNT_ABORT_COUNT = min (s.rd hcuB F.HCU_CNT_ABORT_COUNT + 1) (2 ^ 32 - 1)
      ∧ (v.heat k).acts = [] ∧ v.hasLeave 0 k = false := by
  obtain ⟨hst, hreason, hfirst, hcount⟩ := (s.begin x).abortNoted_spec k
  obtain ⟨hst', hrd, hacts, hleave⟩ := State.abortEnd_spec ((s.begin x).abortNoted k 1 0x1FF 0) hk (s.heat k) hst
  refine ⟨((s.begin x).abortNoted k 1 0x1FF 0).abortEnd k (s.heat k), ?_, hst', (hrd _ (.inl ?_) ?_).trans hreason,
    (hrd _ (.inr (.inl ?_)) ?_).trans hfirst, (hrd _ (.inr (.inr (by decide))) (by decide)).trans hcount, hacts, hleave⟩
  · rw [exec_heatAbort_of h, hslot]
    dsimp only
    rw [if_neg (by omega), State.heatAbort_of (s := s.begin x) h1 h5, State.begin_heat, State.abortAnswered_of_none hs hc]
  · exact (by decide : 4 ≤ 8)
  · exact (by omega : 0x100 + 32 * k < 0x10000)
  · exact (by omega : (0x11C + 32 * k) % 32 ≠ 0)
  · exact (by omega : 0x11C + 32 * k < 0x10000)

/-! ### Deadlines and faults -/

theorem exec_stageAckTmo_of (s : State) (k aseq : Nat) : exec (.stageAckTmo k aseq) s = guardUnit s (decide (k < 64))
    (match (s.heat k).acts.find? (fun a => a.aseq == aseq && a.ack.isNone) with
      | none => s
      | some a => s.heatAbort k 4 a.tnum 0) := rfl

theorem exec_leaveTmo_of (s : State) (k : Nat) : exec (.leaveTmo k) s = guardUnit s (decide (k < 64))
    (if s.heatSt k = 4 ∧ s.hasLeave 0 k = false then s.heatAbort k 7 0x1FF 0 else s) := rfl

theorem exec_heatDeadline_of (s : State) (k : Nat) : exec (.heatDeadline k) s = guardUnit s (decide (k < 64))
    (if ((s.heat k).given = true ∧ (s.heatSt k = 2 ∨ s.heatSt k = 3 ∨ s.heatSt k = 4) ∧ -(s.heatLead k : Int) < s.pastT k)
      ∨ (s.heatSt k = 5 ∧ -(s.heatGuard k : Int) < s.pastT k) then s.heatAbort k 8 0x1FF 0 else s) := rfl

theorem exec_relayFault_of (s : State) (k : Nat) : exec (.relayFault k) s = guardUnit s (decide (k < 64))
    (match s.relay with
      | none => s
      | some (r, j) => if j ≠ k then s else if r ≤ 1 then s.heatAbort j 0x0D 0x1FF 0
        else s.settled j (List.range (s.heat j).tgts.length)) := rfl

theorem exec_relayFault_of_other (h : ∀ r, s.relay ≠ some (r, k)) : exec (.relayFault k) s = .next s := by
  rw [exec_relayFault_of]
  split
  · exact guardUnit_self s _
  next r j hr =>
    refine guardUnit_of_idle (.inr ?_)
    rintro rfl
    exact h r hr

theorem exec_relayFault_of_mine {r : Nat} (hk : k < 64) (h : s.relay = some (r, k)) : exec (.relayFault k) s =
    .next (if r ≤ 1 then s.heatAbort k 0x0D 0x1FF 0 else s.settled k (List.range (s.heat k).tgts.length)) := by
  rw [exec_relayFault_of, guardUnit_of (decide_eq_true hk), h]
  dsimp only
  rw [if_neg (not_not_intro rfl)]

/-- Settles O32. -/
theorem heatsAbortWithTheirReasons : Obligations.HeatsAbortWithTheirReasons := by
  unfold Obligations.HeatsAbortWithTheirReasons
  refine fun s k hk => ⟨fun x c => exec_heatAbort_user hk, fun x c h hslot h5 => ?_, fun x c h hslot => ?_, fun aseq h => ?_,
    fun h => ?_, exec_relayFault_of_other, fun h h' => ?_, fun aseq a h => ?_, fun h4 hl => ?_, fun r h hr => ?_, fun r h hr => ?_,
    fun h => ?_⟩
  · rw [exec_heatAbort_of h, hslot]
    dsimp only
    rw [if_pos h5]
  · rw [exec_heatAbort_of h, hslot]
  · rw [exec_stageAckTmo_of, h]
    exact guardUnit_self s _
  · rw [exec_leaveTmo_of]
    refine guardUnit_of_not (.inr fun hq => h.elim (fun h4 => h4 hq.1) fun hl => ?_)
    exact Bool.false_ne_true (hq.2.symm.trans hl)
  · rw [exec_heatDeadline_of]
    exact guardUnit_of_not (.inr fun hq => hq.elim h h')
  · rw [exec_stageAckTmo_of, guardUnit_of (decide_eq_true hk), h]
  · rw [exec_leaveTmo_of, guardUnit_of (decide_eq_true hk), if_pos ⟨h4, hl⟩]
  · rw [exec_relayFault_of_mine hk h, if_pos hr]
  · rw [exec_relayFault_of_mine hk h, if_neg (Nat.not_le.mpr hr)]
  · rw [exec_heatDeadline_of, guardUnit_of (decide_eq_true hk), if_pos h]

end Sys2Proof.Machine
end

section
/-! SUPPORT. A HEAT_STAGE whose reply overwrites the slot that it has aborted: why the statement about opening and staging does not
hold of every state (R352, R482). -/

namespace Sys2Proof.Machine

/-- HEAT_STAGE of one action with a reserved bit set, in execution for a mailbox whose number, far above 3, makes its reply buffer
lie over the registers of slot 0. -/
def strayStage : Cmd :=
  { id := 1, path := 0, src := 0xF0
    bytes := leBytes 4 0x31 ++ leBytes 4 48 ++ leBytes 8 0 ++ leBytes 16 0x10000 ++ leBytes 4 0x1100000 ++ leBytes 28 0 }

/-- A state in which that command finds slot 0 OPEN. -/
def strayStageState : State :=
  ({ rom := { nis := [{}], regions := [{}] }, straps := {}, cmds := [strayStage] } : State).heatGo 0 1

/-- The state of slot 0 that a command leaves. -/
def slotAfter (o : Host.Outcome State Fault Refusal) : Nat := match o with
  | .next t => t.heatSt 0
  | _ => 0

/-- Refutes O30: the statement lets the command's mailbox be any number. The malformed action aborts the heat of slot 0, and the reply
to mailbox 0xF0 overwrites the word that holds the slot's state. -/
theorem not_heatsOpenAndStage : ¬ Obligations.HeatsOpenAndStage := by
  unfold Obligations.HeatsOpenAndStage
  intro h
  have hissued : strayStageState.Issued 1 0x31 [(0, 19), (128, 1792)] strayStage := by decide +kernel
  have hslot : strayStageState.slotOf (strayStage.p 0 16) = some 0 := by decide +kernel
  have hstage := (h.2 strayStageState 1 0 (stagedAct strayStage 1 0).1 0 0 strayStage (stagedAct strayStage 1 0).2.2 0 _ hissued).2.2.2.2
    (by decide +kernel) (by decide +kernel) hslot (by decide +kernel) (by decide +kernel) (by decide +kernel) (by decide +kernel)
    (by decide +kernel) (by decide +kernel) rfl
  obtain ⟨t, ht, hst, -⟩ := hstage.1 (stagedAct strayStage 1 0).2.1 rfl (.inl (by decide +kernel))
  have hafter : slotAfter (exec (.heatStage 1) strayStageState) = 1 := by decide +kernel
  rw [ht] at hafter
  exact absurd (hst.symm.trans hafter) (by decide)

end Sys2Proof.Machine
end

section
/-! SUPPORT. Acknowledgements, the vote, COMMIT and ARM, and the statement about them (R361, R363, R366 to R370, R374, R375, R378). -/

namespace Sys2Proof.Machine

variable {s : State} {k x n : Nat} {c : Cmd} {w : Word}

/-! ### STAGE_ACK (R366, R378) -/

/-- The heat that an acknowledgement names as displaced aborts. -/
def State.ackDisplaced (s : State) (l : List Byte) : State :=
  if leNat ((l.drop 8).take 1) % 2 = 0 then s else match s.slotOf (leNat ((l.drop 6).take 2)) with
    | some j => s.heatAbort j 2 0x1FF 0
    | none => s

/-- Whether action `a` is the one that an acknowledgement of target `tnum` answers. -/
def ackOf (l : List Byte) (tnum : Nat) (a : Act) : Bool := a.aseq == leNat ((l.drop 2).take 2) && a.tnum == tnum && a.ack.isNone

/-- Slot `k` with an acknowledgement of status `st` recorded. -/
def State.ackRecorded (s : State) (k : Nat) (l : List Byte) (tnum st : Nat) : State :=
  s.setHeat k { s.heat k with
    acts := (s.heat k).acts.map (fun a => if ackOf l tnum a then { a with ack := some (st, leNat ((l.drop 5).take 1)) } else a) }

theorem State.stageAckIn_of_none {src : Nat} {l : List Byte} {mem : Ecc} (h : s.slotOf (leNat (l.take 2)) = none) :
    s.stageAckIn src l mem = s.ackDisplaced l := by
  have h' : s.slotOf (leNat ((l.drop 0).take 2)) = none := h
  unfold State.stageAckIn
  dsimp only
  rw [h'] <;> rfl

theorem State.stageAckIn_of_slot {src : Nat} {l : List Byte} {mem : Ecc} (h : s.slotOf (leNat (l.take 2)) = some k)
    (h9 : s.heatSt k ≠ 9) : s.stageAckIn src l mem =
      if (s.heat k).acts.any (ackOf l ((s.heat k).tgts.findIdx (fun t => t == src))) = false then s.ackDisplaced l
      else if leNat ((l.drop 4).take 1) ≠ 0 then
        ((s.ackRecorded k l ((s.heat k).tgts.findIdx (fun t => t == src)) (leNat ((l.drop 4).take 1))).ackDisplaced l).heatAbort k
          (if leNat ((l.drop 4).take 1) = 1 then 2 else 3) ((s.heat k).tgts.findIdx (fun t => t == src)) (leNat ((l.drop 5).take 1))
      else (((s.ackRecorded k l ((s.heat k).tgts.findIdx (fun t => t == src)) (leNat ((l.drop 4).take 1))).ackDisplaced l).stageReplies
        k).heatPump := by
  have h' : s.slotOf (leNat ((l.drop 0).take 2)) = some k := h
  unfold State.stageAckIn
  dsimp only
  rw [h']
  dsimp only
  rw [if_neg h9] <;> rfl

theorem State.ackDisplaced_of_clear {l : List Byte} (h : leNat ((l.drop 8).take 1) % 2 = 0) : s.ackDisplaced l = s := if_pos h

theorem exec_stageAckReceive_of (s : State) (n : Nat) (mem : Ecc) : exec (.stageAckReceive n mem) s = guardUnit s (s.hasNi n)
    (match s.takeMsg n (fun h => h.ptype == 4 && h.op == 1) with
      | none => s
      | some (h, l, s) => if n = s.rd hcuB F.HCU_HOME_NI_NI then s.stageAckIn h.src l mem else s.pktBad n) := rfl

theorem exec_stageAckReceive_of_msg {mem : Ecc} {h : Hdr} {l : List Byte} {s1 : State} (hn : s.hasNi n = true)
    (hm : s.takeMsg n (fun h => h.ptype == 4 && h.op == 1) = some (h, l, s1)) : exec (.stageAckReceive n mem) s =
      .next (if n = s1.rd hcuB F.HCU_HOME_NI_NI then s1.stageAckIn h.src l mem else s1.pktBad n) := by
  rw [exec_stageAckReceive_of, guardUnit_of hn, hm]

theorem State.NearCmds.heat {t : State} (h : s.NearCmds t) (k : Nat) : t.heat k = s.heat k := by
  have e := congrArg State.heats h
  change t.heats = s.heats at e
  rw [State.heat, e, State.heat]

theorem State.heat_replies {α : Type} (f : State → α → State) (hf : ∀ a e, State.NearCmds a (f a e)) (k : Nat) (l : List α) :
    ∀ s : State, (l.foldl f s).heat k = s.heat k := by
  induction l with
  | nil => exact fun _ => rfl
  | cons e r ih => exact fun s => (ih _).trans ((hf s e).heat k)

theorem State.acts_stageReplies (s : State) (k : Nat) : ((s.stageReplies k).heat k).acts = (s.heat k).acts := by
  unfold State.stageReplies
  dsimp only
  rw [State.heat_replies _ (fun a e => State.nearCmds_reply a _ _ _), State.heat_setHeat_same]

/-! ### The vote (R361, R366, R367) -/

theorem State.heatVote_spec (s : State) (hk : k < 64) : (s.heatVote k).heat k = { s.heat k with due := true }
    ∧ (s.heatVote k).heatSt k = (if (s.heatSt k = 1 ∨ s.heatSt k = 2) ∧ (s.heat k).acts.all (fun a => a.ack.isSome) = true then 3
      else s.heatSt k) ∧ (s.heatVote k).cmds = s.cmds := by
  have h := State.ReadySame.heatPump (s.setHeat k { s.heat k with due := true })
  refine ⟨(h.heat k).trans (s.heat_setHeat_same k _), ?_, h.cmds⟩
  have hmem : k ∈ (s.setHeat k { s.heat k with due := true }).slotsIn [1, 2] ↔ s.heatSt k = 1 ∨ s.heatSt k = 2 := by
    rw [State.mem_slotsIn]
    simp [hk, State.heatSt]
  refine (h.st k hk).trans (if_congr ?_ rfl rfl)
  rw [State.heat_setHeat_same]
  exact and_congr_left' hmem

theorem exec_heatCommit_of (h : s.Issued x 0x32 [(0, 17), (32, 80)] c) :
    exec (.heatCommit x) s = .next ((s.begin x).heatCommit x c) := congrArg Host.Outcome.next (State.runCmd_issued s h _)

theorem State.heatCommit_of_none (h : s.slotOf (c.p 0 16) = none) : s.heatCommit x c = s.reply x 0x11 [] := by
  unfold State.heatCommit
  rw [h]

/-- The root's time in units of 1/256 ns, as HEAT_COMMIT compares it. -/
def State.rootUnits (s : State) : Nat := s.time.ft / 2 ^ 24

/-- A heat whose T the command gives. -/
def State.commitAt (s : State) (k tc : Nat) : State :=
  ((s.setWord64 (hcuB + 0x114 + 0x20 * k) (BitVec.ofInt 64 ((tc : Int) - 256 * (s.epoch * secNs : Nat)) : Stamp).toNat).setHeat
    k { s.heat k with given := true }).heatGo k 2

theorem State.heatCommit_of_slot (h : s.slotOf (c.p 0 16) = some k) : s.heatCommit x c =
    if s.heatSt k ≠ 1 ∨ (s.heat k).due = true then s.reply x 6 []
    else if c.p 16 1 = 0 then (s.setHeat k { s.heat k with commit := some x }).heatVote k
    else if 256 * (c.p 32 48 * secNs + c.p 80 32) < s.rootUnits + s.heatLead k + s.startAdv
      ∨ s.rootUnits + 256 * 60 * secNs < 256 * (c.p 32 48 * secNs + c.p 80 32) then s.reply x 3 []
    else (s.commitAt k (256 * (c.p 32 48 * secNs + c.p 80 32))).reply x 0
      ((s.commitAt k (256 * (c.p 32 48 * secNs + c.p 80 32))).commitReply k) := by
  unfold State.heatCommit
  rw [h] <;> rfl

theorem exec_heatScheduledStart_of (s : State) (k : Nat) : exec (.heatScheduledStart k) s = guardUnit s (decide (k < 64))
    (if s.heatSt k = 2 ∧ (s.heat k).due = false ∧ -(s.startAdv : Int) ≤ s.pastT k then s.heatVote k else s) := rfl

theorem exec_voteCollectDone_of (s : State) (k : Nat) (w : Word) : exec (.voteCollectDone k w) s = guardUnit s (decide (k < 64))
    (if s.heatSt k ≠ 3 ∨ s.relay ≠ some (0, k) ∨ s.collectWord 0 k 0 ≠ (w, true) then s
      else if (voteFields w).1 = (s.relayEnd k).targetCount k ∧ (voteFields w).2.1 = 0 then
        (((s.relayEnd k).heatGo k 4).ask 0 k).heatPump
      else (s.relayEnd k).heatShort k (voteFields w).2.1 (voteFields w).2.2.1 (voteFields w).2.2.2 false) := rfl

theorem State.targetCount_relayEnd (s : State) (k : Nat) : (s.relayEnd k).targetCount k = s.targetCount k := rfl

theorem exec_voteCollectDone_of_word {yes no first reason : Nat} (hk : k < 64) (h3 : s.heatSt k = 3) (hr : s.relay = some (0, k))
    (hw : s.collectWord 0 k 0 = (w, true)) (hf : voteFields w = (yes, no, first, reason)) : exec (.voteCollectDone k w) s =
      .next (if yes = s.targetCount k ∧ no = 0 then (((s.relayEnd k).heatGo k 4).ask 0 k).heatPump
        else (s.relayEnd k).heatShort k no first reason false) := by
  rw [exec_voteCollectDone_of, guardUnit_of (decide_eq_true hk), if_neg (by simp [h3, hr, hw]), hf, State.targetCount_relayEnd]

/-- A vote that every target passes asks for leave. -/
theorem State.leave_voted (s : State) (hk : k < 64) : (((s.relayEnd k).heatGo k 4).ask 0 k).heatPump.heatSt k = 4
    ∧ (((s.relayEnd k).heatGo k 4).ask 0 k).heatPump.asks = s.asks ++ [{ kind := 0, who := k }] := by
  have h4 : (((s.relayEnd k).heatGo k 4).ask 0 k).heatSt k = 4 :=
    (s.relayEnd k).rd_wr_same hcuB (F.HCU_SLOT0_STATE.ix k) 4 (show 0 + 4 ≤ 32 by decide)
  refine ⟨(State.heatSt_heatPump _ hk (by rw [h4]; decide)).trans h4, ?_⟩
  rw [(State.ReadySame.heatPump _).asks]
  rfl

theorem State.heatShort_of_late {first reason : Nat} (b : Bool) : s.heatShort k 0 first reason b = s.heatAbort k 6 0x1FF 0 := if_pos rfl

theorem State.heatShort_of_no {no first reason : Nat} (b : Bool) (h : no ≠ 0) : s.heatShort k no first reason b =
    s.heatAbort k (if b && reason == 7 then 9 else if b && reason == 1 then 0x0A else 5) first reason := if_neg h

/-! ### COMMIT and ARM (R369, R370, R374, R375) -/

theorem exec_heatCommitSend_of (s : State) (k : Nat) :
    exec (.heatCommitSend k) s = guardUnit s (decide (k < 64)) (s.commitSend k) := rfl

/-- T as COMMIT carries it: the one that the command gave, or the root's time and LEAD. -/
def State.commitT (s : State) (k : Nat) : State :=
  if (s.heat k).given then s else s.setWord64 (hcuB + 0x114 + 0x20 * k) (s.rootStamp + BitVec.ofNat 64 (s.heatLead k) : Stamp).toNat

theorem State.commitSend_of (h4 : s.heatSt k = 4) (hl : s.hasLeave 0 k = true) (hr : s.relay = none) (ht : s.time.step = none) :
    s.commitSend k = if s.rootOk = false then s.heatAbort k 0x0A 0x1FF 0
      else if (s.heat k).given = true ∧ -(s.heatLead k : Int) < s.pastT k then s.heatAbort k 8 0x1FF 0
      else ((s.commitT k).heatGo k 5).relayStart 1 k := by
  rw [State.commitSend, if_neg (by simp [h4, hl, hr, ht])]
  refine if_congr Iff.rfl rfl ?_
  unfold State.commitT
  by_cases hg : (s.heat k).given = true
  · by_cases hp : -(s.heatLead k : Int) < s.pastT k
    · rw [if_pos hg, if_pos hp, if_pos ⟨hg, hp⟩]
    · rw [if_pos hg, if_neg hp, if_neg (fun h => hp h.2), if_pos hg]
  · rw [if_neg hg, if_neg (fun h => hg h.1), if_neg hg]

theorem State.heatT_heatGo (s : State) (k v : Nat) : (s.heatGo k v).heatT k = s.heatT k := by
  rw [State.heatT, State.heatGo, State.word64_wr_ne _ _ _ _ (show 0x30000 + 0x114 + 0x20 * k ≠ 0x30000 + (0x100 + 32 * k) by omega)
    (show 0x30000 + 0x114 + 0x20 * k + 4 ≠ 0x30000 + (0x100 + 32 * k) by omega), State.heatT]

theorem State.HcuSame.heatT {t : State} (h : s.HcuSame t) (hk : k < 64) : t.heatT k = s.heatT k := by
  have hlo : 0x30000 + 0x114 + 0x20 * k + 4 < 0x40000 := by omega
  rw [State.heatT, State.word64, h.word _ (show 0x30000 ≤ 0x30000 + 0x114 + 0x20 * k by omega) (Nat.lt_of_le_of_lt (Nat.le_add_right _ 4) hlo),
    h.word _ (show 0x30000 ≤ 0x30000 + 0x114 + 0x20 * k + 4 by omega) hlo, State.heatT, State.word64]

theorem State.heatT_commitT (s : State) (k : Nat) : (s.commitT k).heatT k =
    if (s.heat k).given then s.heatT k else s.rootStamp + BitVec.ofNat 64 (s.heatLead k) := by
  unfold State.commitT
  split
  · rfl
  · rw [State.heatT, State.word64_setWord64, Nat.mod_eq_of_lt (BitVec.isLt _), BitVec.ofNat_toNat, BitVec.setWidth_eq]

theorem State.relay_relayStart (s : State) (r k : Nat) : (s.relayStart r k).relay = some (r, k) := rfl

/-- COMMIT leaves: its slot's state, the collect that it starts, and its T. -/
theorem State.commit_sent (s : State) (hk : k < 64) : (((s.commitT k).heatGo k 5).relayStart 1 k).heatSt k = 5
    ∧ (((s.commitT k).heatGo k 5).relayStart 1 k).heatT k =
      (if (s.heat k).given then s.heatT k else s.rootStamp + BitVec.ofNat 64 (s.heatLead k)) := by
  have h := State.HcuSame.relayStart ((s.commitT k).heatGo k 5) 1 k
  refine ⟨(h.heatSt hk).trans ((s.commitT k).rd_wr_same hcuB (F.HCU_SLOT0_STATE.ix k) 5 (show 0 + 4 ≤ 32 by decide)), ?_⟩
  rw [h.heatT hk, State.heatT_heatGo, State.heatT_commitT]

theorem State.HcuSame.commitReply {t : State} (h : s.HcuSame t) (hk : k < 64) : t.commitReply k = s.commitReply k := by
  rw [State.commitReply, h.heatSt hk, h.rd (show 0x100 + 32 * k < 0x10000 by omega), State.commitReply]

/-- The heat is ARMED, and comparison of the configuration CRC is suspended. -/
def State.commitArmed (s : State) (k : Nat) : State :=
  (({ ((s.heatGo k 6).setHeat k { s.heat k with commit := none }).joinedOut 2 k with heatCrc := true } : State).wr evtB
    F.EVT_STAT_SUSP_HEAT 1).wr evtB F.EVT_STAT_MM_CNT 0

theorem exec_commitCollectDone_of (s : State) (k : Nat) (w : Word) : exec (.commitCollectDone k w) s = guardUnit s (decide (k < 64))
    (if s.heatSt k ≠ 5 ∨ s.relay ≠ some (1, k) ∨ s.collectWord 1 k 0 ≠ (w, true) then s
      else if (voteFields w).1 = (s.relayEnd k).targetCount k ∧ (voteFields w).2.1 = 0 then
        (if -(s.heatGuard k : Int) < s.pastT k then (s.relayEnd k).heatAbort k 8 0x1FF 0
         else (((s.relayEnd k).commitArmed k).replyOpt (s.heat k).commit 0
          (({ (((s.relayEnd k).heatGo k 6).setHeat k { s.heat k with commit := none }).joinedOut 2 k with heatCrc := true } :
            State).commitReply k)).heatPump)
      else (s.relayEnd k).heatShort k (voteFields w).2.1 (voteFields w).2.2.1 (voteFields w).2.2.2 true) := rfl

theorem exec_commitCollectDone_of_word {yes no first reason : Nat} (hk : k < 64) (h5 : s.heatSt k = 5) (hr : s.relay = some (1, k))
    (hw : s.collectWord 1 k 0 = (w, true)) (hf : voteFields w = (yes, no, first, reason)) : exec (.commitCollectDone k w) s =
      .next (if yes = s.targetCount k ∧ no = 0 then
        (if -(s.heatGuard k : Int) < s.pastT k then (s.relayEnd k).heatAbort k 8 0x1FF 0
         else (((s.relayEnd k).commitArmed k).replyOpt (s.heat k).commit 0 (((s.relayEnd k).commitArmed k).commitReply k)).heatPump)
        else (s.relayEnd k).heatShort k no first reason true) := by
  have hreply : ((s.relayEnd k).commitArmed k).commitReply k =
      ({ (((s.relayEnd k).heatGo k 6).setHeat k { s.heat k with commit := none }).joinedOut 2 k with heatCrc := true } :
        State).commitReply k := by
    exact ((State.HcuSame.wr _ _ (.inr (by decide))).trans (.wr _ _ (.inr (by decide)))).commitReply hk
  rw [exec_commitCollectDone_of, guardUnit_of (decide_eq_true hk), if_neg (by simp [h5, hr, hw]), hf, State.targetCount_relayEnd, hreply]

/-- ARM is due: the state that shows it. -/
theorem State.commitArmed_spec (s : State) (hk : k < 64) : ((s.relayEnd k).commitArmed k).heatSt k = 6
    ∧ ((s.relayEnd k).commitArmed k).flag evtB F.EVT_STAT_SUSP_HEAT = true ∧ ((s.relayEnd k).commitArmed k).heatCrc = true
    ∧ (((s.relayEnd k).commitArmed k).heat k).commit = none := by
  have hjoined := State.HcuSame.joinedOut (((s.relayEnd k).heatGo k 6).setHeat k { s.heat k with commit := none }) 2 k
  generalize hu : ((((s.relayEnd k).heatGo k 6).setHeat k { s.heat k with commit := none }).joinedOut 2 k) = u at hjoined
  have hdef : (s.relayEnd k).commitArmed k =
      (({ u with heatCrc := true } : State).wr evtB F.EVT_STAT_SUSP_HEAT 1).wr evtB F.EVT_STAT_MM_CNT 0 := by
    rw [← hu]
    rfl
  have hcrc : u.HcuSame ({ u with heatCrc := true } : State) := ⟨fun _ _ _ => rfl, rfl, rfl, rfl, rfl, rfl, rfl⟩
  have hsame : u.HcuSame ((s.relayEnd k).commitArmed k) := by
    rw [hdef]
    exact (hcrc.trans (.wr _ _ (.inr (by decide)))).trans (.wr _ _ (.inr (by decide)))
  refine ⟨?_, ?_, ?_, ?_⟩
  · rw [hsame.heatSt hk, hjoined.heatSt hk]
    exact (s.relayEnd k).rd_wr_same hcuB (F.HCU_SLOT0_STATE.ix k) 6 (show 0 + 4 ≤ 32 by decide)
  · rw [hdef, State.flag, State.rd_wr_apart _ evtB F.EVT_STAT_MM_CNT F.EVT_STAT_SUSP_HEAT _ rfl (by decide) (by decide),
      State.rd_wr_same _ _ _ _ (by decide)]
    rfl
  · rw [hdef, State.wr_heatCrc, State.wr_heatCrc]
  · rw [hsame.heat, hjoined.heat, State.heat_setHeat_same]

end Sys2Proof.Machine
end

section
/-! SUPPORT. The statement about the vote, COMMIT and ARM (R361, R363, R366 to R370, R374, R375, R378). -/

namespace Sys2Proof.Machine

/-- Settles O31. -/
theorem heatsVoteAndCommit : Obligations.HeatsVoteAndCommit := by
  unfold Obligations.HeatsVoteAndCommit
  refine ⟨fun s k hk => ⟨?_, ?_, ?_, ?_, ?_, ?_, ?_, ?_, ?_, ?_⟩, fun s k hk => ⟨?_, ?_, ?_, ?_, ?_, ?_⟩⟩
  case refine_1 =>
    intro n mem h
    rw [exec_stageAckReceive_of]
    rcases h with h | h
    · rw [h, guardUnit_false]
    · rw [h]
      exact guardUnit_self s _
  case refine_2 =>
    intro n mem h l s1 hn hm
    refine ⟨fun hne => ?_, fun heq hslot hdisp hj => ?_⟩
    · rw [exec_stageAckReceive_of_msg hn hm, if_neg hne]
    · rw [exec_stageAckReceive_of_msg hn hm, if_pos heq, State.stageAckIn_of_none hslot, State.ackDisplaced, if_neg (by omega), hj]
  case refine_3 =>
    rintro n mem h l s1 tnum st mine hn heq hm hslot h9 hdisp rfl hmine rfl
    obtain rfl : mine = ackOf l ((s1.heat k).tgts.findIdx (fun t => t == h.src)) := hmine
    have hexec : exec (.stageAckReceive n mem) s = .next (s1.stageAckIn h.src l mem) := by
      rw [exec_stageAckReceive_of_msg hn hm, if_pos heq]
    rw [State.stageAckIn_of_slot hslot h9, State.ackDisplaced_of_clear hdisp, State.ackDisplaced_of_clear hdisp] at hexec
    refine ⟨fun hany => ?_, fun hany => ⟨fun h0 => ?_, fun h0 => ?_⟩⟩
    · rw [hexec, if_pos hany]
    · refine ⟨_, hexec, ?_⟩
      rw [if_neg (ne_false_of_eq_true hany), if_neg (not_not_intro h0), (State.ReadySame.heatPump _).heat, State.acts_stageReplies,
        State.ackRecorded, State.heat_setHeat_same, h0]
    · rw [hexec, if_neg (ne_false_of_eq_true hany), if_pos h0]
      rfl
  case refine_4 =>
    intro x c h hslot
    rw [exec_heatCommit_of h, State.heatCommit_of_none (s := s.begin x) hslot]
  case refine_5 =>
    intro x c h hslot hbad
    exact (exec_heatCommit_of h).trans
      (congrArg Host.Outcome.next ((State.heatCommit_of_slot (s := s.begin x) hslot).trans (if_pos hbad)))
  case refine_6 =>
    intro x c h hslot h1 hdue
    have hexec := (exec_heatCommit_of h).trans (congrArg Host.Outcome.next (State.heatCommit_of_slot (s := s.begin x) hslot))
    have hgo : ¬ ((s.begin x).heatSt k ≠ 1 ∨ ((s.begin x).heat k).due = true) := by
      rintro (h | h)
      · exact h h1
      · exact Bool.false_ne_true (hdue.symm.trans h)
    rw [if_neg hgo] at hexec
    refine ⟨fun h0 => ?_, ?_, ?_⟩
    · rw [if_pos h0] at hexec
      obtain ⟨hheat, hst, hcmds⟩ := State.heatVote_spec ((s.begin x).setHeat k { (s.begin x).heat k with commit := some x }) hk
      refine ⟨_, hexec, ?_, ?_, ?_, ?_⟩
      · exact (congrArg Heat.commit hheat).trans (congrArg Heat.commit (State.heat_setHeat_same _ _ _))
      · exact congrArg Heat.due hheat
      · have hcmd := s.cmd_begin x c h.1
        rw [State.cmd] at hcmd ⊢
        rw [hcmds]
        exact congrArg Option.isSome hcmd
      · refine hst.trans ?_
        rw [State.heat_setHeat_same]
        have h1' : ((s.begin x).setHeat k { (s.begin x).heat k with commit := some x }).heatSt k = 1 := h1
        rw [h1']
        exact if_congr (and_iff_right (.inl rfl)) rfl rfl
    · rintro tc h0 rfl hout
      rw [hexec, if_neg (by omega)]
      exact congrArg Host.Outcome.next (if_pos hout)
    · rintro v tc h0 rfl hlo hhi rfl
      have hin : ¬ (256 * (c.p 32 48 * secNs + c.p 80 32) < s.rootUnits + s.heatLead k + s.startAdv
          ∨ s.rootUnits + 256 * 60 * secNs < 256 * (c.p 32 48 * secNs + c.p 80 32)) := by
        rintro (h | h)
        · exact absurd hlo (Nat.not_le.mpr h)
        · exact absurd hhi (Nat.not_le.mpr h)
      rw [hexec, if_neg (by omega)]
      exact congrArg Host.Outcome.next (if_neg hin)
  case refine_7 =>
    intro h
    rw [exec_heatScheduledStart_of]
    refine guardUnit_of_not (.inr ?_)
    rintro ⟨h2, hdue, hpast⟩
    rcases h with h | h | h
    · exact h h2
    · exact Bool.false_ne_true (hdue.symm.trans h)
    · exact not_lt.mpr hpast h
  case refine_8 =>
    intro h2 hdue hpast
    obtain ⟨hheat, hst, -⟩ := State.heatVote_spec s hk
    refine ⟨s.heatVote k, ?_, congrArg Heat.due hheat, ?_⟩
    · rw [exec_heatScheduledStart_of, guardUnit_of (decide_eq_true hk), if_pos ⟨h2, hdue, hpast⟩]
    · rw [hst, h2]
      exact if_congr (and_iff_right (.inr rfl)) rfl rfl
  case refine_9 =>
    intro w h
    rw [exec_voteCollectDone_of]
    exact guardUnit_of_idle (.inr h)
  case refine_10 =>
    intro w yes no first reason h3 hr hw hf
    have hexec := exec_voteCollectDone_of_word hk h3 hr hw hf
    refine ⟨fun hy h0 => ?_, fun hy h0 => ?_, fun h0 => ?_⟩
    · rw [if_pos ⟨hy, h0⟩] at hexec
      exact ⟨_, hexec, s.leave_voted hk⟩
    · rw [hexec, if_neg (fun h => hy h.1), h0, State.heatShort_of_late]
    · rw [hexec, if_neg (fun h => h0 h.2), State.heatShort_of_no _ h0]
      rfl
  case refine_11 =>
    intro h
    rw [exec_heatCommitSend_of, State.commitSend, if_pos h]
    exact guardUnit_self s _
  case refine_12 =>
    intro h4 hl hr ht
    refine ⟨fun hroot => ?_, fun hroot hg hp => ?_⟩
    · rw [exec_heatCommitSend_of, guardUnit_of (decide_eq_true hk), State.commitSend_of h4 hl hr ht, if_pos hroot]
    · rw [exec_heatCommitSend_of, guardUnit_of (decide_eq_true hk), State.commitSend_of h4 hl hr ht,
        if_neg (ne_false_of_eq_true hroot), if_pos ⟨hg, hp⟩]
  case refine_13 =>
    intro h4 hl hr ht hroot hp
    obtain ⟨hst, ht'⟩ := s.commit_sent hk
    refine ⟨((s.commitT k).heatGo k 5).relayStart 1 k, ?_, hst, State.relay_relayStart _ 1 k, ht'⟩
    rw [exec_heatCommitSend_of, guardUnit_of (decide_eq_true hk), State.commitSend_of h4 hl hr ht,
      if_neg (ne_false_of_eq_true hroot), if_neg (fun h => not_lt.mpr (hp h.1) h.2)]
  case refine_14 =>
    intro w h
    rw [exec_commitCollectDone_of]
    exact guardUnit_of_idle (.inr h)
  case refine_15 =>
    intro w yes no first reason h5 hr hw hf
    have hexec := exec_commitCollectDone_of_word hk h5 hr hw hf
    refine ⟨fun hy h0 => ?_, fun h0 => ?_⟩
    · rw [hexec, if_neg (fun h => hy h.1), h0, State.heatShort_of_late]
    · rw [hexec, if_neg (fun h => h0 h.2), State.heatShort_of_no _ h0, Bool.true_and, Bool.true_and]
      simp only [beq_iff_eq]
  case refine_16 =>
    intro w first reason h5 hr hw hf
    have hexec := exec_commitCollectDone_of_word hk h5 hr hw hf
    rw [if_pos ⟨rfl, rfl⟩] at hexec
    refine ⟨fun hp => ?_, fun hp => ?_⟩
    · rw [hexec, if_pos hp]
    · obtain ⟨h6, hsusp, hcrc, hcommit⟩ := s.commitArmed_spec hk
      refine ⟨(s.relayEnd k).commitArmed k, h6, hsusp, hcrc, hcommit, ?_⟩
      rw [hexec, if_neg (not_lt.mpr hp)]

end Sys2Proof.Machine
end

section
/-! SUPPORT. Settling, the commands that show, close and reconcile heats, and the statement about them (R361, R363, R372, R380, R383,
R386, R387, R390, R391). -/

namespace Sys2Proof.Machine

variable {s : State} {k x n : Nat} {c : Cmd} {w : Word} {maps : List Word}

/-! ### The end of SETTLING (R372, R383) -/

/-- Slot `k` as it leaves SETTLING: the floors are owed, the collect has ended, and leave is returned. -/
def State.unsettled (s : State) (k : Nat) : State := ((s.heatFloors (s.heat k)).relayEnd k).give 0 k

theorem State.rd_unsettled (s : State) (k : Nat) {f : Fld} (hf : f.off < 0x10000) : (s.unsettled k).rd hcuB f = s.rd hcuB f := by
  rw [State.unsettled, State.rd_give, ((State.HcuSame.heatFloors s (s.heat k)).trans (.relayEnd _ k)).rd hf]

theorem State.heat_unsettled (s : State) (k j : Nat) : (s.unsettled k).heat j = s.heat j := by
  rw [State.unsettled, State.heat_give, ((State.HcuSame.heatFloors s (s.heat k)).trans (.relayEnd _ k)).heat]

theorem State.hasLeave_unsettled (s : State) (k : Nat) : (s.unsettled k).hasLeave 0 k = false := State.hasLeave_give _ 0 k

/-- A client whose losses are forgotten. -/
def State.forgiven (s : State) (l : Map (Nat × Nat)) (c u : Nat) : State := { s with clients := mset (fun _ => (0, 0)) l c (0, u) }

theorem State.client_forgiven (s : State) (l : Map (Nat × Nat)) (c u : Nat) : (s.forgiven l c u).client c = (0, u) :=
  mget_mset_same _ _ _ _

/-- All targets have applied. -/
theorem State.settled_nil (s : State) (k : Nat) : s.settled k [] =
    (((s.unsettled k).heatDone k).forgiven (s.unsettled k).clients ((s.unsettled k).rd hcuB (F.HCU_SLOT0_CLIENT.ix k))
      ((s.unsettled k).client ((s.unsettled k).rd hcuB (F.HCU_SLOT0_CLIENT.ix k))).2).heatPump := rfl

/-- Some targets have not applied: they are the heat's stragglers. -/
def State.straggled (s : State) (k : Nat) (h : Heat) (l : List Nat) : State :=
  ((s.heatGo k 9).setHeat k { h with strag := l }).count hcuB F.HCU_CNT_STRAG_COUNT 1

theorem State.settled_of_ne_nil (s : State) (k : Nat) {l : List Nat} (h : l ≠ []) : s.settled k l =
    ((((s.unsettled k).straggled k (s.heat k) l).glEvent 1 1).glEvent 1 0).heatPump :=
  if_neg (by simpa using h)

theorem State.hasLeave_heatDone (s : State) (k kind who : Nat) : (s.heatDone k).hasLeave kind who = s.hasLeave kind who := by
  rw [State.heatDone_eq, (State.HcuSame.glEvent _ 1 0).hasLeave, State.heatClosed, (State.HcuSame.heatFloors _ _).hasLeave,
    State.hasLeave, State.setHeat_leaves, State.setHeat_gives, State.count_leaves, State.count_gives, State.heatGo, State.wr_leaves,
    State.wr_gives, State.hasLeave]

/-- A heat that all targets have applied. -/
theorem State.settled_nil_spec (s : State) (hk : k < 64) : (s.settled k []).heatSt k = 8 ∧ ((s.settled k []).heat k).acts = []
    ∧ (s.settled k []).hasLeave 0 k = false ∧ ((s.settled k []).client (s.rd hcuB (F.HCU_SLOT0_CLIENT.ix k))).1 = 0 := by
  have hclient : (s.unsettled k).rd hcuB (F.HCU_SLOT0_CLIENT.ix k) = s.rd hcuB (F.HCU_SLOT0_CLIENT.ix k) :=
    s.rd_unsettled k (show 0x100 + 32 * k < 0x10000 by omega)
  rw [State.settled_nil, hclient]
  generalize hu : ((s.unsettled k).heatDone k).forgiven (s.unsettled k).clients (s.rd hcuB (F.HCU_SLOT0_CLIENT.ix k))
    ((s.unsettled k).client (s.rd hcuB (F.HCU_SLOT0_CLIENT.ix k))).2 = u
  have hst : u.heatSt k = 8 := by
    rw [← hu]
    exact (s.unsettled k).heatSt_heatDone hk
  have hp := State.ReadySame.heatPump u
  refine ⟨(u.heatSt_heatPump hk (by rw [hst]; decide)).trans hst, ?_, ?_, ?_⟩
  · rw [hp.heat, ← hu]
    exact congrArg Heat.acts ((s.unsettled k).heat_heatDone k)
  · rw [hp.hasLeave, ← hu]
    exact ((s.unsettled k).hasLeave_heatDone k 0 k).trans (s.hasLeave_unsettled k)
  · rw [hp.client, ← hu]
    exact congrArg Prod.fst (State.client_forgiven _ _ _ _)

/-- A heat that has stragglers. -/
theorem State.settled_straggler (s : State) (hk : k < 64) {l : List Nat} (h : l ≠ []) : (s.settled k l).heatSt k = 9
    ∧ ((s.settled k l).heat k).strag = l ∧ (s.settled k l).hasLeave 0 k = false := by
  rw [s.settled_of_ne_nil k h]
  have he := (State.HcuSame.glEvent ((s.unsettled k).straggled k (s.heat k) l) 1 1).trans (.glEvent _ 1 0)
  generalize ((((s.unsettled k).straggled k (s.heat k) l).glEvent 1 1).glEvent 1 0) = u at he ⊢
  have hst : u.heatSt k = 9 := (he.heatSt hk).trans ((State.rd_slot_count (o := 0) (k := k) _ _ (by decide) rfl).trans
    ((s.unsettled k).rd_wr_same hcuB (F.HCU_SLOT0_STATE.ix k) 9 (show 0 + 4 ≤ 32 by decide)))
  have hp := State.ReadySame.heatPump u
  refine ⟨(u.heatSt_heatPump hk (by rw [hst]; decide)).trans hst, ?_, ?_⟩
  · rw [hp.heat, he.heat, State.straggled, State.count_heat, State.heat_setHeat_same]
  · rw [hp.hasLeave, he.hasLeave, State.hasLeave, State.straggled, State.count_leaves, State.count_gives, State.setHeat_leaves,
      State.setHeat_gives, State.heatGo, State.wr_leaves, State.wr_gives]
    exact s.hasLeave_unsettled k

/-! ### The SETTLE and MAP collects (R372) -/

theorem exec_heatSettle_of (s : State) (k : Nat) (w : Word) (maps : List Word) :
    exec (.heatSettle k w maps) s = guardUnit s (decide (k < 64)) (s.settle' k w maps) := rfl

theorem State.settle_of_armed (h : s.heatSt k = 6) : s.settle' k w maps =
    if 256 * (if s.heatSpan k then 2000 else 100) ≤ s.pastT k ∧ s.relay.isNone = true then (s.heatGo k 7).relayStart 4 k else s :=
  if_pos h

theorem State.settle_of_settle (h : s.heatSt k = 7) (hr : s.relay = some (4, k)) : s.settle' k w maps =
    if s.collectWord 4 k 0 ≠ (w, true) then s
    else if (voteFields w).1 = s.targetCount k then s.settled k [] else (s.relayEnd k).relayStart 5 k := by
  unfold State.settle'
  dsimp only
  rw [if_neg (by omega), if_neg (not_not_intro h), if_pos hr]

theorem State.settle_of_map (h : s.heatSt k = 7) (hr : s.relay = some (5, k)) : s.settle' k w maps =
    if (List.range (s.mapLen k)).map (s.collectWord 5 k) ≠ maps.map (fun x => (x, true)) then s
    else s.settled k ((List.range (s.heat k).tgts.length).filter (fun t => !bitAt (maps.getD (t / 32) 0).toNat (t % 32))) := by
  unfold State.settle'
  dsimp only
  rw [if_neg (by omega), if_neg (not_not_intro h), if_neg (by rw [hr]; simp), if_pos hr]

theorem State.settle_of_other (h : s.heatSt k ≠ 6) (h' : s.heatSt k ≠ 7 ∨ s.relay ≠ some (4, k) ∧ s.relay ≠ some (5, k)) :
    s.settle' k w maps = s := by
  unfold State.settle'
  dsimp only
  rw [if_neg h]
  rcases h' with h' | ⟨h4, h5⟩
  · rw [if_pos h']
  · rw [if_neg h4, if_neg h5, ite_self]

theorem State.settle_waits (h : s.heatSt k ≠ 6 ∧ s.heatSt k ≠ 7
    ∨ s.heatSt k = 6 ∧ (s.pastT k < 256 * (if s.heatSpan k then 2000 else 100) ∨ s.relay.isSome = true)
    ∨ s.heatSt k = 7 ∧ s.relay ≠ some (4, k) ∧ s.relay ≠ some (5, k)
    ∨ s.heatSt k = 7 ∧ s.relay = some (4, k) ∧ s.collectWord 4 k 0 ≠ (w, true)
    ∨ s.heatSt k = 7 ∧ s.relay = some (5, k) ∧ (List.range (s.mapLen k)).map (s.collectWord 5 k) ≠ maps.map (fun x => (x, true))) :
    s.settle' k w maps = s := by
  rcases h with ⟨h6, h7⟩ | ⟨h6, hlate⟩ | ⟨h7, hr⟩ | ⟨h7, hr, hw⟩ | ⟨h7, hr, hw⟩
  · exact State.settle_of_other h6 (.inl h7)
  · rw [State.settle_of_armed h6, if_neg]
    rintro ⟨ht, hnone⟩
    rcases hlate with hlate | hlate
    · exact not_lt.mpr ht hlate
    · rw [Option.isNone_iff_eq_none.mp hnone] at hlate
      exact Bool.false_ne_true hlate
  · exact State.settle_of_other (by omega) (.inr hr)
  · rw [State.settle_of_settle h7 hr, if_pos hw]
  · rw [State.settle_of_map h7 hr, if_pos hw]

/-- A collect that starts from slot `k` in state 7. -/
theorem State.heatSt_relayStart (s : State) (r : Nat) (hk : k < 64) : (s.relayStart r k).heatSt k = s.heatSt k :=
  (State.HcuSame.relayStart s r k).heatSt hk

/-! ### Commands (R386, R387, R390, R391) -/

theorem exec_heatStatus_of (h : s.Issued x 0x34 [(0, 16)] c) : exec (.heatStatus x) s = .next (match s.slotOf (c.p 0 16) with
    | none => (s.begin x).reply x 0x11 []
    | some k => (s.begin x).reply x 0 ((List.range 8).flatMap (fun i => leBytes 4 (s.slotWord k i).toNat))) :=
  congrArg Host.Outcome.next (State.runCmd_issued s h _)

theorem exec_heatStragglers_of (h : s.Issued x 0x37 [(0, 16)] c) : exec (.heatStragglers x) s =
    .next (match s.slotOf (c.p 0 16) with
    | none => (s.begin x).reply x 0x11 []
    | some k => (s.begin x).reply x 0 ((List.range 8).flatMap (fun w => leBytes 4 (s.stragWord k w)))) :=
  congrArg Host.Outcome.next (State.runCmd_issued s h _)

theorem exec_heatClose_of (h : s.Issued x 0x35 [(0, 16)] c) : exec (.heatClose x) s = .next (match s.slotOf (c.p 0 16) with
    | none => (s.begin x).reply x 0x11 []
    | some k => if s.heatSt k ≠ 8 ∧ s.heatSt k ≠ 10 then (s.begin x).reply x 6 []
      else (((s.begin x).heatGo k 0).setHeat k {}).reply x 0 []) :=
  congrArg Host.Outcome.next (State.runCmd_issued s h _)

theorem State.reconMode_of {mode : Nat} (h : s.Issued x 0x36 [(0, 25)] c) (hm : c.p 24 1 = mode) : s.reconMode x mode = true := by
  simp [State.reconMode, h.1, hm]

theorem exec_heatReconcile_of (h : s.Issued x 0x36 [(0, 25)] c) (hm : c.p 24 1 = 0) :
    exec (.heatReconcile x) s = .next ((s.begin x).heatReconcile x 0 c) :=
  congrArg Host.Outcome.next ((if_pos (State.reconMode_of h hm)).trans (State.runCmd_issued s h _))

theorem exec_heatReconcileDrop_of (h : s.Issued x 0x36 [(0, 25)] c) (hm : c.p 24 1 = 1) :
    exec (.heatReconcileDrop x) s = .next ((s.begin x).heatReconcile x 1 c) :=
  congrArg Host.Outcome.next ((if_pos (State.reconMode_of h hm)).trans (State.runCmd_issued s h _))

theorem State.heatReconcile_of_none {mode : Nat} (h : s.slotOf (c.p 0 16) = none) :
    s.heatReconcile x mode c = s.reply x 0x11 [] := by
  unfold State.heatReconcile
  rw [h]

theorem State.heatReconcile_of_slot {mode : Nat} (h : s.slotOf (c.p 0 16) = some k) : s.heatReconcile x mode c =
    if s.heatSt k ≠ 9 then s.reply x 6 []
    else if (s.heat k).strag.contains (c.p 16 8) = false then s.reply x 3 []
    else (if mode = 0 then s.probeStrag k (c.p 16 8) else s.unstrag k (c.p 16 8)).reply x 0 [] := by
  unfold State.heatReconcile
  rw [h]

theorem State.heatReconcile_refused {mode e : Nat} (h : s.slotOf (c.p 0 16) = some k)
    (he : s.heatSt k ≠ 9 ∧ e = 6 ∨ s.heatSt k = 9 ∧ (s.heat k).strag.contains (c.p 16 8) = false ∧ e = 3) :
    s.heatReconcile x mode c = s.reply x e [] := by
  rw [State.heatReconcile_of_slot h]
  rcases he with ⟨h9, rfl⟩ | ⟨h9, hs, rfl⟩
  · rw [if_pos h9]
  · rw [if_neg (not_not_intro h9), if_pos hs]

theorem State.heatReconcile_taken {mode : Nat} (h : s.slotOf (c.p 0 16) = some k) (h9 : s.heatSt k = 9)
    (hs : (s.heat k).strag.contains (c.p 16 8) = true) : s.heatReconcile x mode c =
      (if mode = 0 then s.probeStrag k (c.p 16 8) else s.unstrag k (c.p 16 8)).reply x 0 [] := by
  rw [State.heatReconcile_of_slot h, if_neg (not_not_intro h9), if_neg (ne_false_of_eq_true hs)]

theorem exec_reconcileStart_of (s : State) (n : Nat) :
    exec (.reconcileStart n) s = guardUnit s (s.hasNi n) (if s.restored n = true then s.reconStart n else s) := rfl

theorem State.reconStart_of_nil (h : s.slotsIn [9] = []) : s.reconStart n = s := by
  rw [State.reconStart, h]
  rfl

theorem State.reconStart_of_one {t : Nat} (h : s.slotsIn [9] = [k])
    (ht : (s.heat k).strag.find? (fun t => (s.heat k).tgts.getD t 0 == s.nodeId n) = some t) : s.reconStart n = s.probeStrag k t := by
  rw [State.reconStart, h, List.foldl_cons, List.foldl_nil]
  dsimp only
  rw [ht]

/-- Settles O33. -/
theorem heatsSettleShowAndClose : Obligations.HeatsSettleShowAndClose := by
  unfold Obligations.HeatsSettleShowAndClose
  refine ⟨fun s k w maps hk => ⟨fun h => ?_, fun h6 ht hr => ?_, fun h7 hr hw => ⟨fun hy => ?_, fun hy => ?_⟩, ?_⟩,
    fun s x k c => ⟨fun h hslot => ?_, fun h hslot => ?_, fun h hslot hst => ?_, fun h hslot h9 hs => ⟨fun h0 => ?_, fun h1 => ?_⟩,
      fun hslot => ⟨fun h => ?_, fun h => ?_, fun h => ?_, fun h h0 => ?_, fun h h1 => ?_⟩, fun h hslot h8 h10 => ?_,
      fun e h hslot he => ⟨fun h0 => ?_, fun h1 => ?_⟩, fun n h => ?_, fun n t hn hr hslots ht => ?_⟩⟩
  · rw [exec_heatSettle_of, State.settle_waits h]
    exact guardUnit_self s _
  · refine ⟨(s.heatGo k 7).relayStart 4 k, ?_, ?_, State.relay_relayStart _ 4 k⟩
    · rw [exec_heatSettle_of, guardUnit_of (decide_eq_true hk), State.settle_of_armed h6, if_pos ⟨ht, by rw [hr]; rfl⟩]
    · rw [State.heatSt_relayStart _ 4 hk]
      exact s.rd_wr_same hcuB (F.HCU_SLOT0_STATE.ix k) 7 (show 0 + 4 ≤ 32 by decide)
  · refine ⟨s.settled k [], ?_, s.settled_nil_spec hk⟩
    rw [exec_heatSettle_of, guardUnit_of (decide_eq_true hk), State.settle_of_settle h7 hr, if_neg (not_not_intro hw), if_pos hy]
  · refine ⟨(s.relayEnd k).relayStart 5 k, ?_, ?_, State.relay_relayStart _ 5 k⟩
    · rw [exec_heatSettle_of, guardUnit_of (decide_eq_true hk), State.settle_of_settle h7 hr, if_neg (not_not_intro hw), if_neg hy]
    · rw [State.heatSt_relayStart _ 5 hk]
      exact h7
  · rintro l h7 hr hw rfl
    have hexec := (exec_heatSettle_of s k w maps).trans ((guardUnit_of (decide_eq_true hk) s _).trans
      (congrArg Host.Outcome.next ((State.settle_of_map h7 hr).trans (if_neg (not_not_intro hw)))))
    refine ⟨fun hl => ⟨_, hexec, s.settled_straggler hk hl⟩, fun hl => ?_⟩
    obtain ⟨h8, hacts, hleave, -⟩ := s.settled_nil_spec hk
    rw [hl] at hexec
    exact ⟨_, hexec, h8, hacts, hleave⟩
  · rw [exec_heatStatus_of h, hslot]
  · rw [exec_heatStragglers_of h, hslot]
    rfl
  · rw [exec_heatClose_of h, hslot]
    dsimp only
    rw [if_neg (by omega)]
  · rw [exec_heatReconcile_of h h0, State.heatReconcile_taken (s := s.begin x) hslot h9 hs]
    rfl
  · rw [exec_heatReconcileDrop_of h h1, State.heatReconcile_taken (s := s.begin x) hslot h9 hs]
    rfl
  · rw [exec_heatStatus_of h, hslot]
  · rw [exec_heatStragglers_of h, hslot]
  · rw [exec_heatClose_of h, hslot]
  · rw [exec_heatReconcile_of h h0, State.heatReconcile_of_none (s := s.begin x) hslot]
  · rw [exec_heatReconcileDrop_of h h1, State.heatReconcile_of_none (s := s.begin x) hslot]
  · rw [exec_heatClose_of h, hslot]
    dsimp only
    rw [if_pos ⟨h8, h10⟩]
  · rw [exec_heatReconcile_of h h0, State.heatReconcile_refused (s := s.begin x) hslot he]
  · rw [exec_heatReconcileDrop_of h h1, State.heatReconcile_refused (s := s.begin x) hslot he]
  · rw [exec_reconcileStart_of]
    rcases h with h | h | h
    · exact guardUnit_of_not (.inl h)
    · exact guardUnit_of_not (.inr (ne_true_of_eq_false h))
    · rw [State.reconStart_of_nil h, ite_self, guardUnit_self]
  · rw [exec_reconcileStart_of, guardUnit_of hn, if_pos hr, State.reconStart_of_one hslots ht]

end Sys2Proof.Machine
end

section
/-! SUPPORT. An EV_STOP whose reply enables the evidence stream again: why the statement about evidence records does not hold of every
state (R343, R482). -/

namespace Sys2Proof.Machine

/-- EV_STOP, in execution for a mailbox whose number, far above 3, makes its reply buffer lie over PF.EVD_CTL. -/
def strayStop : Cmd := { id := 1, path := 0, src := 0x3F0, bytes := leBytes 4 0x89 ++ leBytes 12 0 }

/-- A state in which that command waits for a record whose write has just failed. -/
def strayStopState : State :=
  ({ rom := { nis := [{}], regions := [{}] }, straps := {}, cmds := [strayStop], evd := { fly := some 0, stop := [1] } } :
    State).updNi 0 (fun x => { x with evRes := some 1 })

/-- EVD_CTL.EN that a command leaves. -/
def evdEnAfter (o : Host.Outcome State Fault Refusal) : Bool := match o with
  | .next t => t.flag pfB F.PF_EVD_CTL_EN
  | _ => false

/-- Refutes O27: the statement lets the mailbox of a waiting EV_STOP be any number. The reply to mailbox 0x3F0 overwrites EVD_CTL with the
packet's first word, whose bit 0 is that of the opcode 0x89, so that EN is 1 again. -/
theorem not_evidenceRecords : ¬ Obligations.EvidenceRecords := by
  unfold Obligations.EvidenceRecords
  intro h
  have hstop := (h.2 strayStopState).2.2.2.2.2.2.1
  obtain ⟨t, ht, -, hen, -⟩ := hstop 0 1 (by decide +kernel) (by decide +kernel) (by decide +kernel)
  have hafter : evdEnAfter (exec .evdWriteResult strayStopState) = true := by decide +kernel
  rw [ht] at hafter
  exact Bool.false_ne_true (hen.symm.trans hafter)

end Sys2Proof.Machine
end

section
/-! SUPPORT. Idle gates, held packets, the open mask, and steps of frequency and voltage (R299, R300, R507, R509, R513, R518 to
R520, R650). -/

namespace Sys2Proof.Machine

/-! ### The open mask at an NI -/

/-- NI `n` has taken the Pacer's open mask and policies. -/
def State.masked (s : State) (n : Nat) : State :=
  (s.wr (niB n) F.NI_PWR_MASK_OPEN (bitsWhere s.rom.regions.length (fun h => s.rgOpen h))).updNi n (fun x => { x with
    pol := (List.range 3).map (fun i => bitsWhere s.rom.regions.length (fun h => bitAt (s.rd pcrB (F.PCR_RG_CFG_POL.ix h)) i)) })

/-- NI `n`, whose region closes, lets go of its contexts and reservations (R218, R416). -/
def State.dropCtxs (s : State) (n : Nat) : State :=
  ((s.ni n).ctxs.foldl (fun a e => a.flushCtx n e.1) s).updNi n (fun x => { x with rsvs := [], ctxs := [] })

theorem State.dropCtxs_of_nil {s : State} {n : Nat} (h : (s.ni n).ctxs = []) :
    s.dropCtxs n = s.updNi n (fun x => { x with rsvs := [], ctxs := [] }) := by
  rw [State.dropCtxs, h]
  rfl

theorem exec_pwrMaskReceive {s : State} {n : Nat} (h : s.hears n = true) : exec (.pwrMaskReceive n) s = .next
    (if (bitAt (s.rd (niB n) F.NI_PWR_MASK_OPEN) (niRec s.rom n).region && (s.masked n).rgState (niRec s.rom n).region == 5) = true
      then (s.masked n).dropCtxs n else s.masked n) := by
  change guardUnit s (s.hears n) _ = _
  rw [guardUnit_of h]
  rfl

/-- A bit of a field stands below its width. -/
theorem lt_of_bitAt_rd {s : State} {b g : Nat} {f : Fld} (h : bitAt (s.rd b f) g = true) : g < f.w := by
  by_contra hg
  have hlt : s.rd b f < 2 ^ g :=
    lt_of_lt_of_le (Nat.mod_lt _ (Nat.two_pow_pos _)) (Nat.pow_le_pow_right (by decide) (Nat.le_of_not_lt hg))
  simp [bitAt, Nat.div_eq_of_lt hlt] at h

/-- For a region that the mask can name, the mask's own write leaves the region's state. -/
theorem State.rgState_masked (s : State) (n : Nat) {g : Nat} (hg : g < 16) : (s.masked n).rgState g = s.rgState g := by
  have h := s.rd_wr_ne (niB n) pcrB F.NI_PWR_MASK_OPEN (F.PCR_RG_STAT_STATE.ix g)
    (bitsWhere s.rom.regions.length (fun h => s.rgOpen h)) (by
      show 0x40000 + (0xA0 + 4 * g) ≠ _
      unfold niB
      show _ ≠ _ + 0xF0C
      omega)
  exact h

theorem State.rd_masked (s : State) (n : Nat) : (s.masked n).rd (niB n) F.NI_PWR_MASK_OPEN =
    bitsWhere s.rom.regions.length (fun h => s.rgOpen h) % 2 ^ F.NI_PWR_MASK_OPEN.w := s.rd_wr_same _ _ _ (by decide)

theorem exec_pwrMaskReceive_told {s : State} {n : Nat} (h : s.hears n = true)
    (hc : s.rgState (niRec s.rom n).region ≠ 5 ∨ (s.ni n).ctxs = []) : ∃ t : State, exec (.pwrMaskReceive n) s = .next t
      ∧ t.rd (niB n) F.NI_PWR_MASK_OPEN = bitsWhere s.rom.regions.length (fun h => s.rgOpen h) % 2 ^ F.NI_PWR_MASK_OPEN.w
      ∧ (t.ni n).pol = (List.range 3).map (fun i =>
          bitsWhere s.rom.regions.length (fun h => bitAt (s.rd pcrB (F.PCR_RG_CFG_POL.ix h)) i)) := by
  have hpol : ((s.masked n).ni n).pol = (List.range 3).map (fun i =>
      bitsWhere s.rom.regions.length (fun h => bitAt (s.rd pcrB (F.PCR_RG_CFG_POL.ix h)) i)) := by
    rw [State.masked, State.ni_updNi_same]
  refine ⟨_, exec_pwrMaskReceive h, ?_⟩
  split
  next hif =>
    obtain ⟨hwas, hst⟩ := (Bool.and_eq_true ..).mp hif
    have hctx : ((s.masked n).ni n).ctxs = [] := by
      rw [State.masked, State.ni_updNi_same]
      exact hc.resolve_left (not_not_intro ((s.rgState_masked n (lt_of_bitAt_rd hwas)).symm.trans (eq_of_beq hst)))
    rw [State.dropCtxs_of_nil hctx]
    exact ⟨s.rd_masked n, by rw [State.ni_updNi_same]; exact hpol⟩
  next => exact ⟨s.rd_masked n, hpol⟩

theorem exec_pwrMaskReceive_closing {s : State} {n : Nat} (h : s.hears n = true) (hst : s.rgState (niRec s.rom n).region = 5)
    (hwas : bitAt (s.rd (niB n) F.NI_PWR_MASK_OPEN) (niRec s.rom n).region = true) :
    exec (.pwrMaskReceive n) s = .next ((s.masked n).dropCtxs n) := by
  rw [exec_pwrMaskReceive h, if_pos]
  rw [hwas, s.rgState_masked n (lt_of_bitAt_rd hwas), hst]
  rfl

/-! ### The gate of IDLE, and held packets -/

theorem exec_idleGate {s : State} {g : Nat} (h : s.hasRegion g = true) : exec (.idleGate g) s = .next
    (if s.rgState g = 1 ∧ s.quiet g = true then s.updRg g (fun r => { r with gated := true }) else s) := by
  change guardUnit s (s.hasRegion g) _ = _
  rw [guardUnit_of h]

theorem exec_idleUngate {s : State} {g : Nat} (h : s.hasRegion g = true) : exec (.idleUngate g) s = .next
    (if s.gateOpens g = true then s.ungate g else s) := by
  change guardUnit s (s.hasRegion g) _ = _
  rw [guardUnit_of h]

theorem exec_idleGate_self {s : State} {g : Nat} (h : s.hasRegion g = false ∨ s.rgState g ≠ 1 ∨ s.quiet g = false) :
    exec (.idleGate g) s = .next s := by
  rcases Bool.eq_false_or_eq_true (s.hasRegion g) with hg | hg
  · rw [exec_idleGate hg, if_neg]
    rintro ⟨hst, hq⟩
    rcases h with h | h | h
    · exact Bool.false_ne_true (h.symm.trans hg)
    · exact h hst
    · exact Bool.false_ne_true (h.symm.trans hq)
  · rw [show exec (.idleGate g) s = guardUnit s (s.hasRegion g) _ from rfl, hg]
    rfl

theorem exec_idleUngate_self {s : State} {g : Nat} (h : s.hasRegion g = false ∨ s.gateOpens g = false) :
    exec (.idleUngate g) s = .next s := by
  rcases Bool.eq_false_or_eq_true (s.hasRegion g) with hg | hg
  · rw [exec_idleUngate hg, if_neg]
    exact ne_true_of_eq_false (h.resolve_left fun h => Bool.false_ne_true (h.symm.trans hg))
  · rw [show exec (.idleUngate g) s = guardUnit s (s.hasRegion g) _ from rfl, hg]
    rfl

/-- The two states hold the same of the regions. -/
structure State.RgsSame (s t : State) : Prop where
  rgs : t.rgs = s.rgs

namespace State.RgsSame

variable {s t : State}

theorem refl (s : State) : s.RgsSame s := ⟨rfl⟩

theorem of_rgs {u : State} (h : s.RgsSame t) (e : u.rgs = t.rgs) : s.RgsSame u := ⟨e.trans h.rgs⟩

theorem rg (h : s.RgsSame t) (g : Nat) : t.rg g = s.rg g := by
  unfold State.rg
  rw [h.rgs]

theorem ite {c : Prop} [Decidable c] {a b : State} (ha : s.RgsSame a) (hb : s.RgsSame b) : s.RgsSame (if c then a else b) := by
  split
  · exact ha
  · exact hb

theorem foldl {α : Type} {f : State → α → State} {l : List α} (hf : ∀ a x, s.RgsSame a → s.RgsSame (f a x)) (h : s.RgsSame t) :
    s.RgsSame (l.foldl f t) := by
  induction l generalizing t with
  | nil => exact h
  | cons x xs ih => exact ih (hf _ _ h)

theorem near {u : State} (h : s.RgsSame t) (k : t.Near u) : s.RgsSame u := h.of_rgs (congrArg State.rgs k :)

theorem setWord {o w} (h : s.RgsSame t) : s.RgsSame (t.setWord o w) := h.of_rgs (State.setWord_rgs ..)
theorem wr {b f v} (h : s.RgsSame t) : s.RgsSame (t.wr b f v) := h.of_rgs (State.wr_rgs ..)
theorem setBit {b f v} (h : s.RgsSame t) : s.RgsSame (t.setBit b f v) := h.of_rgs (State.setBit_rgs ..)
theorem setPort {o x} (h : s.RgsSame t) : s.RgsSame (t.setPort o x) := h.of_rgs (State.setPort_rgs ..)
theorem updPort {o f} (h : s.RgsSame t) : s.RgsSame (t.updPort o f) := h.of_rgs (State.updPort_rgs ..)
theorem updLk {c f} (h : s.RgsSame t) : s.RgsSame (t.updLk c f) := h.of_rgs (State.updLk_rgs ..)

theorem raise {x i} (h : s.RgsSame t) : s.RgsSame (t.raise x i) := h.near (t.near_raise x i)

theorem planeFault {p cause} (h : s.RgsSame t) : s.RgsSame (t.planeFault p cause) :=
  of_rgs (t := t.wr strB (if p = 0 then F.STR_PLN_STAT_FAULT_A else F.STR_PLN_STAT_FAULT_B) 1) h.wr rfl

theorem arbLog {p r kind port inPort vc} (h : s.RgsSame t) : s.RgsSame (t.arbLog p r kind port inPort vc) := .ite h h.setWord

theorem creditError {o bit vc} (h : s.RgsSame t) : s.RgsSame (t.creditError o bit vc) := by
  cases o with
  | rtr p r q => exact planeFault (raise (arbLog (wr h)))
  | ni p n => exact planeFault (raise (setBit h))
  | span p k => exact h

theorem xingOverflow {o vc} (h : s.RgsSame t) : s.RgsSame (t.xingOverflow o vc) := by
  unfold State.xingOverflow
  dsimp only
  split
  · exact h.updPort.setBit.raise.planeFault
  · exact h.updPort.creditError
  · exact h.updPort

theorem drive {o fl} (h : s.RgsSame t) : s.RgsSame (t.drive o fl) := by
  unfold State.drive
  dsimp only
  split
  · exact h.updPort
  · exact .ite (.ite h.updPort.updPort (.ite h.updPort (.ite h.updPort.xingOverflow h.updPort.setPort))) h.updPort.updPort

theorem glEvent {g i} (h : s.RgsSame t) : s.RgsSame (t.glEvent g i) := h.raise

theorem trace {input o vc hd ts} (h : s.RgsSame t) : s.RgsSame (t.trace input o vc hd ts) := by
  unfold State.trace
  refine .ite ?_ h
  dsimp only
  have hput : s.RgsSame { t with trc := mset (fun _ => 0) t.trc (t.rd dbgB F.DBG_TRC_PTR_WR) (trcEntry ts hd vc) } := h.of_rgs rfl
  generalize { t with trc := mset (fun _ => 0) t.trc (t.rd dbgB F.DBG_TRC_PTR_WR) (trcEntry ts hd vc) } = u at hput ⊢
  refine .ite h (.ite (.ite hput.wr.wr.wr (glEvent ?_)) hput.wr.wr)
  have hfull := ((hput.wr (b := dbgB) (f := F.DBG_TRC_PTR_WR) (v := t.rd dbgB F.DBG_TRC_PTR_WR + 1)).wr (b := dbgB)
    (f := F.DBG_TRC_PTR_COUNT) (v := min (t.rd dbgB F.DBG_TRC_PTR_COUNT + 1) 4096)).wr (b := dbgB) (f := F.DBG_TRC_PTR_FULL) (v := 1)
  generalize ((u.wr dbgB F.DBG_TRC_PTR_WR _).wr dbgB F.DBG_TRC_PTR_COUNT _).wr dbgB F.DBG_TRC_PTR_FULL 1 = v at hfull ⊢
  exact hfull.of_rgs rfl

theorem slotCount {o} (h : s.RgsSame t) : s.RgsSame (t.slotCount o) := h.of_rgs rfl

theorem slotFreed {o} (h : s.RgsSame t) : s.RgsSame (t.slotFreed o) := by
  cases o with
  | rtr p r q => exact h
  | ni p n => exact h.foldl fun a p h => .ite h (h.foldl fun a v h => by
      split
      · exact .ite h.updPort.updPort h
      · exact h)
  | span p k => exact h

theorem credit {o vc} (h : s.RgsSame t) : s.RgsSame (t.credit o vc) := by
  unfold State.credit
  split
  · exact h
  · exact h.updPort

theorem sendOne {o} (h : s.RgsSame t) : s.RgsSame (t.sendOne o) := by
  unfold State.sendOne
  dsimp only
  split
  · exact h
  · split
    · exact h
    · cases o with
      | rtr p r q => exact credit (updPort (slotCount (drive (by
          split
          · exact h.setPort.trace
          · exact h.setPort))))
      | ni p n => exact slotFreed (updPort (slotCount (drive (by
          split
          · exact h.setPort.trace
          · exact h.setPort))))
      | span p k => exact updLk (slotCount (drive (by
          split
          · exact h.setPort.trace
          · exact h.setPort)))

theorem pump {o} (h : s.RgsSame t) : s.RgsSame (t.pump o) := .ite (h.foldl fun _ _ h => h.sendOne) h

theorem ungate (s : State) (g : Nat) : (s.updRg g (fun r => { r with gated := false })).RgsSame (s.ungate g) :=
  (refl _).foldl fun _ _ h => h.pump

end State.RgsSame

theorem State.gated_ungate (s : State) (g : Nat) : ((s.ungate g).rg g).gated = false := by
  rw [(State.RgsSame.ungate s g).rg, State.rg_updRg_same]

theorem State.holdTmo_of_cons {s : State} {n q : Nat} {p : Qp} {r : List Qp} (h : ((s.ni n).q q).pkts = p :: r) :
    s.holdTmo n q = if p.hold.isSome = true then s.depart n q 0 false (.refuse 0x07) else s := by
  rw [State.holdTmo, h]

theorem State.holdTmo_self {s : State} {n q : Nat}
    (h : ((s.ni n).q q).pkts = [] ∨ ∃ p r, ((s.ni n).q q).pkts = p :: r ∧ p.hold = none) : s.holdTmo n q = s := by
  rcases h with h | ⟨p, r, h, hp⟩
  · rw [State.holdTmo, h]
  · rw [State.holdTmo_of_cons h, hp]
    rfl

/-! ### Steps -/

/-- The freeze of region `g`'s hop set has taken hold of its nodes. -/
def State.frozenSet (s : State) (l : List Nat) : State := l.foldl (fun a r => a.setNode r { a.node r with
  frozen := true, base := a.nodeFt r, since := a.clock, spread := 0, left := 0 }) s

theorem State.rg_frozenSet (l : List Nat) : ∀ s : State, (s.frozenSet l).rg = s.rg := by
  induction l with
  | nil => exact fun _ => rfl
  | cons r rest ih => exact fun s => (ih _).trans rfl

theorem State.freezes_frozenSet (l : List Nat) : ∀ s : State, (s.frozenSet l).time.freezes = s.time.freezes := by
  induction l with
  | nil => exact fun _ => rfl
  | cons r rest ih => exact fun s => (ih _).trans rfl

/-- A node of the list, or one that is held already, is held after it. -/
theorem State.node_frozenSet {r : Nat} (l : List Nat) : ∀ s : State,
    r ∈ l ∨ ((s.node r).frozen = true ∧ (s.node r).spread = 0) →
      ((s.frozenSet l).node r).frozen = true ∧ ((s.frozenSet l).node r).spread = 0 := by
  induction l with
  | nil => exact fun s h => h.resolve_left List.not_mem_nil
  | cons a rest ih =>
    intro s h
    rw [State.frozenSet, List.foldl_cons, ← State.frozenSet]
    refine ih _ ?_
    by_cases hra : r = a
    · subst hra
      rw [State.node_setNode_same]
      exact .inr ⟨rfl, rfl⟩
    · rw [State.node_setNode_ne _ _ hra]
      exact h.imp_left fun h => (List.mem_cons.mp h).resolve_left hra

theorem exec_hopFreeze_of_step {s : State} {g : Nat} (h : s.hasRegion g = true) {d : DStep} (hd : (s.rg g).step = some d)
    (hp : d.ph = 1) (hf : s.time.freezes.any (fun f => f.g == g && f.why == 0 && f.left == 0) = true) :
    exec (.hopFreeze g) s = .next ((s.frozenSet (s.hopSet g)).refreshTime.updRg g (fun r => { r with step := some { d with ph := 2 } })) := by
  have hany : s.time.freezes.any (fun f => f.g == g && f.left == 0) = true := by
    obtain ⟨f, hf, hff⟩ := List.any_eq_true.mp hf
    refine List.any_eq_true.mpr ⟨f, hf, ?_⟩
    simp only [Bool.and_eq_true] at hff ⊢
    exact ⟨hff.1.1, hff.2⟩
  have htime : ((s.frozenSet (s.hopSet g)).refreshTime).time.freezes = s.time.freezes := by
    rw [(State.near_refreshTime _).time, State.freezes_frozenSet]
  have hrg : ((s.frozenSet (s.hopSet g)).refreshTime.rg g).step = some d := by
    rw [(State.RgsSame.refl _).near (State.near_refreshTime _) |>.rg, State.rg_frozenSet, hd]
  change guardUnit s (s.hasRegion g) _ = _
  rw [guardUnit_of h, State.hopFreeze, if_pos hany, ← State.frozenSet]
  dsimp only
  rw [hrg]
  dsimp only
  rw [if_pos ⟨hp, by rw [htime]; exact hf⟩]

theorem State.fcAck_of {s : State} {g : Nat} {d : DStep} (hd : (s.rg g).step = some d) (hp : d.ph = 2) {r : List Bool}
    (ht : d.todo = true :: r) : s.fcAck g = (s.setOp g d.mhz (s.mv g)).stepGo g { d with todo := r } := by
  rw [State.fcAck, hd]
  dsimp only
  rw [hp, ht]
  rfl

theorem State.fcAck_self {s : State} {g : Nat} (h : (s.rg g).step = none ∨ ∃ d, (s.rg g).step = some d
    ∧ (d.ph ≠ 2 ∨ d.todo.head? ≠ some true)) : s.fcAck g = s := by
  rcases h with h | ⟨d, h, hd⟩
  · rw [State.fcAck, h]
  · rw [State.fcAck, h]
    dsimp only
    split
    next r hp ht =>
      rcases hd with hd | hd
      · exact absurd hp hd
      · exact absurd (by rw [ht]; rfl) hd
    next => rfl

theorem State.vrOk_of_step {s : State} {g : Nat} (hst : s.rgState g = 7) {d : DStep} (hd : (s.rg g).step = some d) (hp : d.ph = 2)
    {r : List Bool} (ht : d.todo = false :: r) :
    s.vrOk g = (s.setOp g (s.mhz g) d.mv).stepGo g { d with todo := r } := by
  rw [State.vrOk]
  dsimp only
  rw [if_neg (by simp [hst]), if_neg (by simp [hst]), State.stepVr, hd]
  dsimp only
  rw [hp, ht]
  rfl

theorem State.supplyTmo_of_ready {s : State} {g : Nat} (hst : s.rgState g ≠ 6) (hr : s.ready = true) : s.supplyTmo g = s.stepUndo g := by
  rw [State.supplyTmo]
  dsimp only
  rw [if_neg fun h => hst h.1, if_neg fun h => Bool.false_ne_true (h.2.1.symm.trans hr)]

/-! ### The statement -/

/-- Settles O24. -/
theorem idleGatesAndDvfsSteps : Obligations.IdleGatesAndDvfsSteps := by
  unfold Obligations.IdleGatesAndDvfsSteps
  refine ⟨fun s => ⟨fun g h => exec_idleGate_self h, fun g h => exec_idleUngate_self h, fun g h => ⟨fun hst hq => ?_, fun ho => ?_⟩,
      fun n q h => ?_, fun n q p r hn hpk hp => ?_, fun n h => ?_, fun n h hc => exec_pwrMaskReceive_told h hc,
      fun n h hst hwas => ?_⟩,
    fun s g => ⟨fun x c h hg hst v hv => ?_, fun x c h hst => ?_, fun h => ?_, fun h => ?_, fun h hst hw hc => ?_,
      fun h hst hrst hr hf hs => ?_, fun h => ?_, fun h d hd => ⟨fun hp hf => ?_, fun hp r ht => ?_, fun hp hst r ht => ?_,
      fun hp hst hr => ?_⟩⟩⟩
  · rw [exec_idleGate h, if_pos ⟨hst, hq⟩]
    exact ⟨_, rfl, by rw [State.rg_updRg_same], rfl, rfl, rfl⟩
  · exact ⟨by rw [exec_idleUngate h, if_pos ho], s.gated_ungate g⟩
  · change guardUnit s (s.hasNi n) _ = _
    rcases h with h | h
    · rw [h]
      rfl
    · rw [State.holdTmo_self h, guardUnit_self]
  · change guardUnit s (s.hasNi n) _ = _
    rw [guardUnit_of hn, State.holdTmo_of_cons hpk, if_pos hp]
  · change guardUnit s (s.hears n) _ = _
    rw [h]
    rfl
  · rw [exec_pwrMaskReceive_closing h hst hwas]
    refine ⟨_, rfl, ?_, ?_⟩ <;> rw [State.dropCtxs, State.ni_updNi_same]
  · subst hg hv
    refine congrArg Host.Outcome.next ((State.runCmd_issued s h _).trans ?_)
    dsimp only
    rw [if_neg (not_not_intro hst)]
    rfl
  · refine congrArg Host.Outcome.next ((State.runCmd_issued s h _).trans ?_)
    dsimp only
    rw [if_pos hst]
  · change guardUnit s (s.hasRegion g) _ = _
    rcases h with h | h
    · rw [h]
      rfl
    · rw [State.fcAck_self h, guardUnit_self]
  · change guardUnit s (s.hasRegion g) _ = _
    rcases h with h | h
    · rw [h]
      rfl
    · rw [State.hopFreeze, if_neg (ne_true_of_eq_false h), guardUnit_self]
  · change guardUnit s (s.hasRegion g) _ = _
    rw [guardUnit_of h, State.supplyTmo]
    dsimp only
    rw [if_pos ⟨hst, hw⟩, State.wr_pacer, hc]
    rfl
  · change guardUnit s (s.hasRegion g) _ = _
    rw [guardUnit_of h, State.supplyTmo]
    dsimp only
    rw [if_neg fun h => hst h.1, if_pos ⟨hrst, hr, hf, hs⟩]
  · change guardUnit s (s.hasRegion g) _ = _
    rcases h with h | ⟨hst, hr, hstep⟩
    · rw [h]
      rfl
    · rw [State.supplyTmo_of_ready hst hr, State.stepUndo, hstep, guardUnit_self]
  · rw [exec_hopFreeze_of_step h hd hp hf]
    refine ⟨_, rfl, by rw [State.rg_updRg_same], fun r hr => ?_⟩
    have hnode : ((s.frozenSet (s.hopSet g)).refreshTime.updRg g
        (fun r => { r with step := some { d with ph := 2 } })).node r = (s.frozenSet (s.hopSet g)).node r :=
      congrArg (fun t : TimeSt => mget (fun _ => ({} : Node)) t.nodes r) (State.near_refreshTime (s.frozenSet (s.hopSet g))).time
    rw [hnode]
    exact State.node_frozenSet _ s (.inl hr)
  · change guardUnit s (s.hasRegion g) _ = _
    rw [guardUnit_of h, State.fcAck_of hd hp ht]
  · change guardUnit s (s.hasRegion g) _ = _
    rw [guardUnit_of h, State.vrOk_of_step hst hd hp ht]
  · change guardUnit s (s.hasRegion g) _ = _
    rw [guardUnit_of h, State.supplyTmo_of_ready (by simp [hst]) hr, State.stepUndo, hd]
    dsimp only
    rw [if_pos hp]

end Sys2Proof.Machine
end

section
/-! SUPPORT. The governor's window, leave, and droop and clock faults (R521 to R529, R537). -/

namespace Sys2Proof.Machine

/-! ### The window -/

/-- A temperature of region `g`, where its input is valid, is sampled. -/
def State.tempOpt (s : State) (g : Nat) : Option Int → State
  | some t => s.tempIn g t
  | none => s

/-- Every region's temperature, where its input is valid, has been sampled. -/
def State.tempsIn (s : State) (temps : List (Option Int)) : State :=
  forAll s.rom.regions.length (fun g a => a.tempOpt g (temps.getD g none)) s

/-- What a sample leaves: the words below the regions' own, and the ROM. -/
structure State.TempKept (s t : State) : Prop where
  word : ∀ o, o < pcrB + 0xA0 → t.word o = s.word o
  rom : t.rom = s.rom

namespace State.TempKept

variable {s t u : State}

theorem refl (s : State) : s.TempKept s := ⟨fun _ _ => rfl, rfl⟩

theorem trans (h : s.TempKept t) (k : t.TempKept u) : s.TempKept u := ⟨fun o ho => (k.word o ho).trans (h.word o ho), k.rom.trans h.rom⟩

theorem wr (s : State) (f : Fld) (g v : Nat) (hf : f.off = 0xA0) : s.TempKept (s.wr pcrB (f.ix g) v) :=
  ⟨fun o ho => s.word_wr_ne _ _ _ (by
    show o ≠ pcrB + (f.off + _)
    omega), s.wr_rom ..⟩

theorem rgEvent (s : State) (g i : Nat) : s.TempKept (s.rgEvent g i) :=
  ⟨fun o ho => ((s.keepsAt_raise (srcRegion g) i).1 o (.inl (lt_trans ho (by decide)))).trans (s.word_wr_ne _ _ _ (by
    change o < 0x40000 + 0xA0 at ho
    change o ≠ 0x50000 + _
    omega)), by
    have hrom := congrArg State.rom (s.near_raise (srcRegion g) i)
    exact hrom⟩

theorem tempIn (s : State) (g : Nat) (t : Int) : s.TempKept (s.tempIn g t) := by
  unfold State.tempIn
  dsimp only
  have hfold : ∀ (old new : Int) (l : List Int) (a : State), a.TempKept (l.foldl (fun a th =>
      if old < th ∧ th ≤ new then (a.wr pcrB (F.PCR_RG_STAT_THERM.ix g) 1).rgEvent g 2 else a) a) := by
    intro old new l
    induction l with
    | nil => exact fun a => refl a
    | cons th r ih =>
      intro a
      rw [List.foldl_cons]
      refine trans ?_ (ih _)
      split
      · exact (wr a F.PCR_RG_STAT_THERM g 1 rfl).trans (rgEvent ..)
      · exact refl a
  exact (wr s F.PCR_RG_STAT_TEMP g _ rfl).trans (hfold _ _ _ _)

theorem tempsIn (s : State) (temps : List (Option Int)) : s.TempKept (s.tempsIn temps) :=
  forAll_induction (R := State.TempKept) refl trans _ (fun g _ a => by
    cases temps.getD g none with
    | none => exact refl a
    | some t => exact tempIn a g t) s

end State.TempKept

/-- The allowances of region `g` follow the rule of R523. -/
def State.rationed (a : State) (g : Nat) : State :=
  (a.wr pcrB (F.PCR_ALLOW_A2.ix g) (a.allow g).1).wr pcrB (F.PCR_ALLOW_A3.ix g) (a.allow g).2

theorem State.allow_of_off {s : State} (h : s.flag pcrB F.PCR_CTL_GOV_EN = false) (g : Nat) : s.allow g = (0xFFFF, 0xFFFF) := if_pos h

theorem State.flag_rationed (a : State) (g : Nat) : (a.rationed g).flag pcrB F.PCR_CTL_GOV_EN = a.flag pcrB F.PCR_CTL_GOV_EN := by
  have h : ∀ (u : State) (f : Fld) (v : Nat), f.off = 0x1C0 →
      (u.wr pcrB (f.ix g) v).rd pcrB F.PCR_CTL_GOV_EN = u.rd pcrB F.PCR_CTL_GOV_EN := fun u f v hf =>
    u.rd_wr_ne _ _ _ _ _ (by show pcrB + 0 ≠ pcrB + (f.off + _); omega)
  rw [State.flag, State.flag, State.rationed, h _ _ _ rfl, h _ _ _ rfl]

theorem State.rd_rationed_ne (a : State) {g j : Nat} (hj : j ≠ g) {f : Fld} (hf : f.off = 0x1C0) (hs : f.stride = 4) :
    (a.rationed g).rd pcrB (f.ix j) = a.rd pcrB (f.ix j) := by
  have h : ∀ (u : State) (f' : Fld) (v : Nat), f'.off = 0x1C0 → f'.stride = 4 →
      (u.wr pcrB (f'.ix g) v).rd pcrB (f.ix j) = u.rd pcrB (f.ix j) := fun u f' v hf' hs' =>
    u.rd_wr_ne _ _ _ _ _ (by
      show pcrB + (f.off + f.stride * j) ≠ pcrB + (f'.off + f'.stride * g)
      rw [hf, hf', hs, hs']
      omega)
  rw [State.rationed, h _ _ _ rfl rfl, h _ _ _ rfl rfl]

theorem State.rd_rationed_of_off {a : State} (g : Nat) (h : a.flag pcrB F.PCR_CTL_GOV_EN = false) :
    (a.rationed g).rd pcrB (F.PCR_ALLOW_A2.ix g) = 0xFFFF ∧ (a.rationed g).rd pcrB (F.PCR_ALLOW_A3.ix g) = 0xFFFF := by
  rw [State.rationed, State.allow_of_off h]
  exact ⟨(State.rd_wr_apart _ pcrB (F.PCR_ALLOW_A3.ix g) (F.PCR_ALLOW_A2.ix g) _ rfl (show 16 + 16 ≤ 32 by decide)
      (.inr (show 0 + 16 ≤ 16 by decide))).trans (a.rd_wr_same pcrB (F.PCR_ALLOW_A2.ix g) 0xFFFF (show 0 + 16 ≤ 32 by decide)),
    State.rd_wr_same _ pcrB (F.PCR_ALLOW_A3.ix g) 0xFFFF (show 16 + 16 ≤ 32 by decide)⟩

/-- With the governor off every region's allowances are without limit. -/
theorem State.rd_forAll_rationed {s : State} (h : s.flag pcrB F.PCR_CTL_GOV_EN = false) (m : Nat) : ∀ g, g < m →
    (forAll m (fun g a => a.rationed g) s).rd pcrB (F.PCR_ALLOW_A2.ix g) = 0xFFFF
      ∧ (forAll m (fun g a => a.rationed g) s).rd pcrB (F.PCR_ALLOW_A3.ix g) = 0xFFFF :=
  (forAll_each (P := fun g t => t.rd pcrB (F.PCR_ALLOW_A2.ix g) = 0xFFFF ∧ t.rd pcrB (F.PCR_ALLOW_A3.ix g) = 0xFFFF)
    (Q := fun t => t.flag pcrB F.PCR_CTL_GOV_EN = false) h
    (fun i a _ ha => (a.flag_rationed i).trans ha) (fun i a _ ha => State.rd_rationed_of_off i ha)
    (fun i j a hj _ _ ha => by
      rw [State.rd_rationed_ne _ (by omega) rfl rfl, State.rd_rationed_ne _ (by omega) rfl rfl]
      exact ha)).2

theorem State.pacer_forAll_rationed (m : Nat) (s : State) : (forAll m (fun g a => a.rationed g) s).pacer = s.pacer := by
  induction m with
  | zero => rfl
  | succ m ih => exact (forAll_succ ..) ▸ ih

/-- The bucket has taken its refill less the energy of the window before, and the count of flits starts again. -/
def State.bucketed (v : State) : State :=
  (v.setLevel (min (v.pacer.level + 65536 * (v.rd pcrB F.PCR_GOV_REFILL_STONES : Nat) - (v.windowUse : Nat))
    (65536 * (v.rd pcrB F.PCR_GOV_CAP_STONES : Nat)))).updPacer (fun p => { p with flits := [] })

/-- The governor's internal allowances follow the bucket. -/
def State.governed (v : State) : State :=
  v.updPacer (fun p => { p with
    a2 := (if v.flag pcrB F.PCR_CTL_GOV_EN then v.govern else (0xFFFF, 0xFFFF)).1
    a3 := (if v.flag pcrB F.PCR_CTL_GOV_EN then v.govern else (0xFFFF, 0xFFFF)).2 })

theorem State.window_eq (s : State) (temps : List (Option Int)) : s.window temps =
    forAll (s.tempsIn temps).bucketed.governed.rom.regions.length (fun g a => a.rationed g) (s.tempsIn temps).bucketed.governed := rfl

theorem State.flag_governed (s : State) (temps : List (Option Int)) :
    (s.tempsIn temps).bucketed.governed.flag pcrB F.PCR_CTL_GOV_EN = s.flag pcrB F.PCR_CTL_GOV_EN := by
  have hwr : ∀ u : State, u.bucketed.governed.rd pcrB F.PCR_CTL_GOV_EN = u.rd pcrB F.PCR_CTL_GOV_EN := fun u => by
    rw [State.governed, State.updPacer_rd, State.bucketed, State.updPacer_rd, State.setLevel, State.rd_wr_ne _ _ _ _ _ _ (by decide),
      State.updPacer_rd]
  rw [State.flag, State.flag, hwr, State.rd, State.rd, (State.TempKept.tempsIn s temps).word _ (by decide)]

/-! ### Leave -/

theorem State.leaveGrant_of_cons {s : State} {l : Leave} {r : List Leave} (h : s.leaveQ = l :: r) : s.leaveGrant =
    if s.leaveOk l.kind = false then s
    else ({ s.setLevel (s.pacer.level - 65536 * (s.rd pcrB (F.PCR_LEAVE_COST0_STONES.ix l.kind) : Nat)) with
          leaveQ := r, leaves := s.leaves ++ [l] }.count pcrB F.PCR_LEAVE_CNT_COUNT 1).leaveGo l := by
  rw [State.leaveGrant, h]
  rfl

/-! ### Droop and clock faults -/

theorem exec_droopWarn_self {s : State} {g uv : Nat} (h : s.hasRegion g = false ∨ s.watched g = false
    ∨ s.under g uv (s.droopCodes g).1 = false ∨ s.rd pcrB (F.PCR_RG_STAT_DWARN_NOW.ix g) = 1) : exec (.droopWarn g uv) s = .next s :=
  guardUnit_of_idle h

theorem exec_droopWarn_of {s : State} {g uv : Nat} (hr : s.hasRegion g = true) (hw : s.watched g = true)
    (hu : s.under g uv (s.droopCodes g).1 = true) (hn : s.rd pcrB (F.PCR_RG_STAT_DWARN_NOW.ix g) ≠ 1) : exec (.droopWarn g uv) s =
    .next (((((((s.wr pcrB (F.PCR_RG_STAT_DWARN_NOW.ix g) 1).wr pcrB (F.PCR_RG_STAT_DWARN.ix g) 1).rgEvent g 0).count pcrB
      (F.PCR_DROOP_CNT_WARN.ix g) 1).freezeNext).leaveWd).heatDroop) := by
  change guardUnit s (s.hasRegion g) _ = _
  rw [guardUnit_of hr, State.droopWarn, if_neg (by simp [hw, hu, hn])]

theorem exec_droopWarnClear_of {s : State} {g : Nat} (hr : s.hasRegion g = true) (hn : s.rd pcrB (F.PCR_RG_STAT_DWARN_NOW.ix g) ≠ 0) :
    exec (.droopWarnClear g) s = .next ((((((s.wr pcrB (F.PCR_RG_STAT_DWARN_NOW.ix g) 0).leaveWd).startRuns
      (((s.wr pcrB (F.PCR_RG_STAT_DWARN_NOW.ix g) 0).leaveWd).calNodes g)).refreshTime).calWaits g)) := by
  change guardUnit s (s.hasRegion g) _ = _
  rw [guardUnit_of hr, State.droopClear, if_neg hn]

theorem exec_clockFault_self {s : State} {g edges : Nat}
    (h : s.hasRegion g = false ∨ 4 ≤ edges ∨ (s.rg g).held = true ∨ 2 ≤ s.rgState g ∧ s.rgState g ≠ 7) :
    exec (.clockFault g edges) s = .next s := by
  change guardUnit s (s.hasRegion g) _ = _
  rcases h with h | h
  · rw [h]
    rfl
  · rw [State.clockFault, if_neg, guardUnit_self]
    rintro ⟨he, hst, hheld, -⟩
    rcases h with h | h | h
    · omega
    · exact Bool.false_ne_true (hheld.symm.trans h)
    · simp only [List.contains_eq_mem, List.mem_cons, List.not_mem_nil, or_false, decide_eq_true_eq] at hst
      omega

/-- Settles O25. -/
theorem governorLeaveAndDroop : Obligations.GovernorLeaveAndDroop := by
  unfold Obligations.GovernorLeaveAndDroop
  refine ⟨fun s v temps _ hv => ?_, fun s kind who l hl => ⟨fun h => ?_, fun r h hok => ⟨?_, fun hk => ?_⟩, fun r h hok => ?_,
      fun h => ?_, fun h => ?_, fun h => ?_, fun h => ?_⟩,
    fun s g => ⟨fun uv h => exec_droopWarn_self h, fun h => guardUnit_of_idle h, fun uv h => guardUnit_of_idle h,
      fun edges h => exec_clockFault_self h, fun hr => ⟨fun uv hw hu hn => exec_droopWarn_of hr hw hu hn,
        fun hn => exec_droopWarnClear_of hr hn, fun uv hw hu => exec_droopReset_of_under hr hw hu, fun edges he hst hh hsw =>
          exec_clockFault_of_stopped hr he (by rcases hst with h | h | h <;> rw [h] <;> rfl) hh hsw⟩⟩⟩
  · have hv' : v = s.tempsIn temps := by
      rw [hv, State.tempsIn] <;> rfl
    have hrom : (s.tempsIn temps).bucketed.governed.rom = s.rom := (rfl : _ = (s.tempsIn temps).rom).trans (State.TempKept.tempsIn s temps).rom
    have hpacer : (s.window temps).pacer = (s.tempsIn temps).bucketed.governed.pacer := by
      rw [State.window_eq, State.pacer_forAll_rationed]
    refine ⟨s.window temps, rfl, ?_, ?_, fun hoff => ?_⟩
    · rw [hpacer, hv']
      rfl
    · rw [hpacer]
      rfl
    · rw [State.window_eq, hrom]
      exact State.rd_forAll_rationed ((s.flag_governed temps).trans hoff) _
  · subst hl
    exact congrArg Host.Outcome.next (if_pos h)
  · subst hl
    refine congrArg Host.Outcome.next ((State.leaveGrant_of_cons h).trans (if_neg ?_))
    exact fun h' => Bool.false_ne_true (h'.symm.trans hok)
  · subst hl hk
    refine ⟨_, congrArg Host.Outcome.next ((State.leaveGrant_of_cons h).trans (if_neg ?_)), rfl, rfl⟩
    exact fun h' => Bool.false_ne_true (h'.symm.trans hok)
  · subst hl
    exact congrArg Host.Outcome.next ((State.leaveGrant_of_cons h).trans (if_pos hok))
  · refine congrArg Host.Outcome.next ?_
    rw [State.leaveGrant, h]
  · subst hl
    exact congrArg Host.Outcome.next (if_neg (ne_true_of_eq_false h))
  · subst hl
    exact congrArg Host.Outcome.next (if_neg (ne_true_of_eq_false h))
  · subst hl
    exact congrArg Host.Outcome.next (if_pos h)

end Sys2Proof.Machine
end

section
/-! SUPPORT. A pass of the scanner whose values all match, in a state where the value of share 0 falls on the reference of share 16: why
the statement about the scanner does not hold of every state (R606, R610). -/

namespace Sys2Proof.Machine

/-! ### What a unit's CRC does not cover -/

/-- No field of the register at `rel` is covered. -/
def uncovered (k : UK) (rel : Nat) : Bool := match specAt rel (regsOf k) with
  | none => true
  | some r => covMask r == 0

/-- The word at `o` is outside what the CRC of a unit covers, of the kinds whose coverage asks no other register. -/
def Un.Misses (u : Un) (o : Nat) : Prop := u.kind ≠ .ni ∧ u.kind ≠ .sp ∧
  ∀ rel, rel < 0x10000 → u.base + rel = o → uncovered u.kind rel = true

theorem State.covWords_of_uncovered (s : State) {u : Un} (hu : u.kind ≠ .ni) {rel : Nat} (h : uncovered u.kind rel = true) :
    s.covWords u rel = [] := by
  have hk : (u.kind == .ni) = false := beq_eq_false_iff_ne.mpr hu
  rw [State.covWords]
  simp only [hk, Bool.false_and, Bool.false_eq_true, if_false, or_false]
  rw [uncovered] at h
  split
  · rfl
  next r hr =>
    rw [hr] at h
    exact if_pos (eq_of_beq h)

theorem State.covWords_setWord (s : State) {u : Un} {o : Nat} (h : u.Misses o) (w : Word) {rel : Nat}
    (hr : rel < 0x10000) : (s.setWord o w).covWords u rel = s.covWords u rel := by
  obtain ⟨hu, hsp, ho⟩ := h
  by_cases hrel : u.base + rel = o
  · rw [State.covWords_of_uncovered _ hu (ho rel hr hrel), State.covWords_of_uncovered _ hu (ho rel hr hrel)]
  · have hk : (u.kind == .ni) = false := beq_eq_false_iff_ne.mpr hu
    have ha : (s.setWord o w).absent u rel = s.absent u rel := by
      rw [State.absent, State.absent]
      dsimp only
      split
      · rfl
      next hk => exact absurd hk hsp
      · rfl
      · rfl
    have hb : (s.setWord o w).presentBits u rel = s.presentBits u rel := by
      rw [State.presentBits, State.presentBits]
      split
      · rfl
      · rfl
      next hni => exact absurd hni hu
      · rfl
    rw [State.covWords, State.covWords]
    simp only [hk, Bool.false_and, Bool.false_eq_true, if_false, or_false]
    rw [ha, hb, s.word_setWord_ne w hrel]

theorem State.share_setWord (s : State) {o g : Nat} (h : ∀ u ∈ shareUnits s.rom g, u.Misses o) (w : Word) :
    (s.setWord o w).share g = s.share g := by
  have hu : ∀ u ∈ shareUnits s.rom g, (s.setWord o w).unitCrc u = s.unitCrc u := fun u hu => by
    rw [State.unitCrc, State.unitCrc]
    congr 1
    refine List.flatMap_congr fun i hi => ?_
    rw [s.covWords_setWord (h u hu) w (by
      have hle : unitWords u.kind ≤ 0x4000 := by cases u.kind <;> decide
      have := List.mem_range.mp hi
      omega)]
  rw [State.share, State.share]
  congr 1
  exact List.flatMap_congr fun u h => by rw [hu u h]

/-! ### A mismatch that is the second one -/

/-- The shares whose value of the last pass differs from their reference (R610). -/
def State.shareDiff (s : State) : List Nat := (shares s.rom).filter (fun g =>
  !s.shareOut g && s.rd evtB (F.EVT_SHARE_LAST_V.ix g) != s.rd evtB (F.EVT_SHARE_REF_V.ix g))

/-- Beyond the logs, a global event changes no word. -/
theorem State.word_glEvent_high (s : State) {g : Nat} (hg : g < 16) (i : Nat) {o : Nat} (ho : evtB + 0x224 ≤ o) :
    (s.glEvent g i).word o = s.word o := by
  have hoff : OffLog o := ⟨by omega, .inr ho⟩
  have hoccur : ∀ (a : State) {g : Nat} (i : Nat), g < 16 → (a.occur (srcGlobal g) i).1.word o = a.word o := fun a g i hg =>
    ((State.KeepsAt.occur_offLog a _ i).1 o hoff).trans (a.word_wr_ne _ _ _ (by
      change 0x50000 + 0x224 ≤ o at ho
      show o ≠ 0x50000 + (0x140 + 4 * g)
      omega))
  have hlost : ∀ (a : State) (b : Bool) (i : Nat), (if b then (a.occur (srcGlobal 13) i).1 else a).word o = a.word o := by
    intro a b i
    split
    · exact hoccur a i (by decide)
    · rfl
  exact (hlost _ _ 1).trans ((hlost _ _ 0).trans (hoccur s i hg))

theorem State.rd_glEvent_high (s : State) {g : Nat} (hg : g < 16) (i : Nat) {f : Fld} (ho : 0x224 ≤ f.off) :
    (s.glEvent g i).rd evtB f = s.rd evtB f := by
  rw [State.rd, State.rd, s.word_glEvent_high hg i (by show 0x50000 + 0x224 ≤ 0x50000 + f.off; omega)]

theorem State.mmCnt_crcCompare {s : State} {c : Nat} (hh : s.crcHeld = false) (hd : s.shareDiff ≠ []) (hk : s.rd evtB F.EVT_STAT_MM_CNT = 1)
    (hp : s.rd evtB F.EVT_CTL_POLICY = 0) : (s.crcCompare c).rd evtB F.EVT_STAT_MM_CNT = 2 := by
  have hbits : ∀ (l : List Nat) (a : State) (f : Fld), f.off ≠ 0x814 →
      (l.foldl (fun a g => a.setBit evtB F.EVT_MM_MASK_MASK g) a).rd evtB f = a.rd evtB f := by
    intro l
    induction l with
    | nil => exact fun _ _ _ => rfl
    | cons g r ih =>
      intro a f hf
      rw [List.foldl_cons, ih _ _ hf, State.setBit, State.rd_wr_ne _ _ _ _ _ _ (by show 0x50000 + f.off ≠ 0x50000 + 0x814; omega)]
  have hevd : ∀ (a : State) (f : Fld) (k : Nat), ({ a with evd := { a.evd with crcMm := k } } : State).rd evtB f = a.rd evtB f :=
    fun _ _ _ => rfl
  rw [State.crcCompare, if_neg (ne_true_of_eq_false hh)]
  dsimp only
  rw [← State.shareDiff, if_neg fun h => hd (List.isEmpty_iff.mp h.2), hbits _ _ _ (by decide), hk, if_pos rfl, State.quarantine, if_pos]
  · rw [hevd, State.count, State.rd_wr_ne _ _ _ _ _ _ (by decide), State.rd_glEvent_high _ (by decide) _ (by decide),
      State.rd_wr_apart _ evtB F.EVT_STAT_MISMATCH F.EVT_STAT_MM_CNT _ rfl (by decide) (by decide),
      State.rd_wr_same _ evtB F.EVT_STAT_MM_CNT _ (by decide)]
    rfl
  · rw [hevd, State.count, State.rd_wr_ne _ _ _ _ _ _ (by decide), State.rd_glEvent_high _ (by decide) _ (by decide),
      State.rd_wr_ne _ _ _ _ _ _ (by decide), State.rd_wr_ne _ _ _ _ _ _ (by decide), hbits _ _ _ (by decide), hp]

theorem State.RgsSame.quarantine {s t : State} (h : s.RgsSame t) : s.RgsSame t.quarantine := .ite h h.wr.glEvent

theorem State.RgsSame.count {s t : State} {b f k} (h : s.RgsSame t) : s.RgsSame (t.count b f k) := h.of_rgs (State.count_rgs ..)

theorem State.RgsSame.setCrcMm {s t : State} {k : Nat} (h : s.RgsSame t) : s.RgsSame { t with evd := { t.evd with crcMm := k } } :=
  h.of_rgs rfl

theorem State.RgsSame.crcCompare {s t : State} {c : Nat} (h : s.RgsSame t) : s.RgsSame (t.crcCompare c) := by
  unfold State.crcCompare
  refine .ite h.wr ?_
  dsimp only
  refine .ite h.wr.wr.wr (.ite ?_ (h.foldl fun _ _ h => h.setBit).wr)
  exact quarantine (setCrcMm (count (glEvent (wr (wr (h.foldl fun _ _ h => h.setBit))))))

/-! ### The state -/

/-- A ROM with a region and a router in it. -/
def scanRom : Rom := { regions := [{}], rtrs := [{}] }

/-- A pass is in progress, the reference is valid and the pass before was a mismatch. -/
def scanPlain : State := { rom := scanRom, straps := {}, csr := [(evtB + 0x80C, 0x211)] }

/-- The same with `x` in a covered register of the router. -/
def scanBase (x : Word) : State := scanPlain.setWord (rtrB 0 0 + 0x40) x

/-- Every reference holds the present value. -/
def scanState (x : Word) : State :=
  (((scanBase x).wr evtB (F.EVT_SHARE_REF_V.ix 0) ((scanBase x).share 0)).wr evtB (F.EVT_SHARE_REF_V.ix 16) ((scanBase x).share 16)).wr
    evtB F.EVT_CRC_REF_REF (scanBase x).combined

theorem homeMisses {o : Nat} (ho : 0xD0000 ≤ o ∨ o ∈ [evtB + 0x840, evtB + 0x880, evtB + 0x800]) :
    ∀ u ∈ shareUnits scanRom 16, u.Misses o := by
  have hall : ∀ u ∈ shareUnits scanRom 16, u.kind ≠ .ni ∧ u.kind ≠ .sp ∧ u.base ≤ 0xC0000
      ∧ (u.base + 0x10000 ≤ evtB ∨ evtB + 0x10000 ≤ u.base ∨ u.base = evtB ∧ u.kind = .evt) := by decide +kernel
  intro u hu
  obtain ⟨hni, hsp, hlow, hevt⟩ := hall u hu
  refine ⟨hni, hsp, fun rel hrel hrelo => ?_⟩
  rcases ho with ho | ho
  · omega
  · have hin : evtB ≤ o ∧ o < evtB + 0x10000 := by
      simp only [List.mem_cons, List.not_mem_nil, or_false] at ho
      change 0x50000 ≤ o ∧ o < 0x60000
      change o = 0x50840 ∨ o = 0x50880 ∨ o = 0x50800 at ho
      omega
    rcases hevt with hevt | hevt | ⟨hb, hk⟩
    · omega
    · omega
    · have hrel' : rel = 0x840 ∨ rel = 0x880 ∨ rel = 0x800 := by
        simp only [List.mem_cons, List.not_mem_nil, or_false] at ho
        omega
      rw [hk]
      rcases hrel' with h | h | h <;> subst h <;> decide +kernel

theorem routersMiss {o : Nat} (ho : o < 0xD0000) : ∀ u ∈ shareUnits scanRom 0, u.Misses o := by
  have hall : ∀ u ∈ shareUnits scanRom 0, u.kind ≠ .ni ∧ u.kind ≠ .sp ∧ 0xD0000 ≤ u.base := by decide +kernel
  intro u hu
  obtain ⟨hni, hsp, hb⟩ := hall u hu
  exact ⟨hni, hsp, fun rel _ h => by omega⟩

theorem share16_scanBase (x : Word) : (scanBase x).share 16 = scanPlain.share 16 :=
  scanPlain.share_setWord (homeMisses (.inl (by decide))) x

theorem share0_scanBase : (scanBase 0).share 0 ≠ (scanBase 5).share 0 := by decide +kernel

/-- In one of the two states the values of the two shares differ. -/
theorem exists_share_ne : ∃ x : Word, (scanBase x).share 0 ≠ (scanBase x).share 16 := by
  by_contra h
  push Not at h
  exact share0_scanBase ((h 0).trans ((share16_scanBase 0).trans ((share16_scanBase 5).symm.trans (h 5).symm)))

/-! ### What the state shows -/

section

variable (x : Word)

theorem State.share_wr_ref (s : State) (hs : s.rom = scanRom) {f : Fld} (v : Nat) {g : Nat} (hg : g ∈ [0, 16])
    (hf : f.off ∈ [0x840, 0x880, 0x800]) : (s.wr evtB f v).share g = s.share g := by
  have ho : evtB + f.off ∈ [evtB + 0x840, evtB + 0x880, evtB + 0x800] := by
    simp only [List.mem_cons, List.not_mem_nil, or_false] at hf ⊢
    omega
  refine s.share_setWord ?_ _
  rw [hs]
  simp only [List.mem_cons, List.not_mem_nil, or_false] at hg
  rcases hg with rfl | rfl
  · refine routersMiss ?_
    simp only [List.mem_cons, List.not_mem_nil, or_false] at hf
    show 0x50000 + f.off < 0xD0000
    omega
  · exact homeMisses (.inr ho)

theorem share_scanState {g : Nat} (hg : g ∈ [0, 16]) : (scanState x).share g = (scanBase x).share g := by
  rw [scanState, State.share_wr_ref _ rfl _ hg (by decide), State.share_wr_ref _ rfl _ hg (by decide),
    State.share_wr_ref _ rfl _ hg (by decide)]

theorem rd_scanBase {b : Nat} {f : Fld} (h : b + f.off ≠ rtrB 0 0 + 0x40) : (scanBase x).rd b f = scanPlain.rd b f := by
  rw [State.rd, State.rd, scanBase, State.word_setWord_ne _ _ h]

theorem rd_scanState {b : Nat} {f : Fld} (h : b + f.off ∉ [rtrB 0 0 + 0x40, evtB + 0x840, evtB + 0x880, evtB + 0x800]) :
    (scanState x).rd b f = scanPlain.rd b f := by
  simp only [List.mem_cons, List.not_mem_nil, or_false, not_or] at h
  obtain ⟨h0, h1, h2, h3⟩ := h
  rw [scanState, State.rd_wr_ne _ _ _ _ _ _ h3, State.rd_wr_ne _ _ _ _ _ _ h2, State.rd_wr_ne _ _ _ _ _ _ h1, rd_scanBase x h0]

theorem shareOff_of_state {s : State} {g : Nat} (h : s.rgState g = 0) : s.shareOff g = false := by
  rw [State.shareOff, h]
  exact Bool.and_false _

theorem shareOut_of_plain {s : State} {g : Nat} (hg : g ∈ [0, 16]) (h : s.rgState 0 = 0) (hr : s.rd glbB F.GLB_RECOV_RECOV = 0) :
    s.shareOut g = false := by
  simp only [List.mem_cons, List.not_mem_nil, or_false] at hg
  rcases hg with rfl | rfl
  · rw [State.shareOut, shareOff_of_state h, hr]
    rfl
  · rfl

theorem combined_of_plain {s : State} (hs : s.rom = scanRom) (h : s.rgState 0 = 0) (hr : s.rd glbB F.GLB_RECOV_RECOV = 0)
    (hp : s.flag evtB F.EVT_STAT_COMMIT_PEND = false) : s.combined = crc32c (leBytes 4 (s.share 0) ++ leBytes 4 (s.share 16)) := by
  rw [State.combined]
  dsimp only
  simp only [hp, Bool.false_eq_true, if_false, hs]
  rw [show shares scanRom = [0, 16] from rfl, List.flatMap_cons, List.flatMap_cons, List.flatMap_nil, List.append_nil,
    shareOut_of_plain (by decide) h hr, shareOut_of_plain (by decide) h hr, if_neg Bool.false_ne_true, if_neg Bool.false_ne_true]

theorem combined_scanState : (scanState x).combined = (scanBase x).combined := by
  rw [combined_of_plain rfl ((rd_scanState x (by decide)).trans (by decide)) ((rd_scanState x (by decide)).trans (by decide))
      (by rw [State.flag, rd_scanState x (by decide)]; decide),
    combined_of_plain rfl ((rd_scanBase x (by decide)).trans (by decide)) ((rd_scanBase x (by decide)).trans (by decide))
      (by rw [State.flag, rd_scanBase x (by decide)]; decide), share_scanState x (by decide), share_scanState x (by decide)]

theorem flag_scanState (b : Nat) (f : Fld) {v : Bool} (h : b + f.off ∉ [rtrB 0 0 + 0x40, evtB + 0x840, evtB + 0x880, evtB + 0x800])
    (hv : scanPlain.flag b f = v) : (scanState x).flag b f = v := by
  rw [State.flag, rd_scanState x h, ← State.flag, hv]

theorem crcHeld_scanState : (scanState x).crcHeld = false := by
  rw [State.crcHeld, flag_scanState x evtB F.EVT_CTL_HOLD (v := false) (by decide) (by decide),
    flag_scanState x evtB F.EVT_STAT_COMMIT_PEND (v := false) (by decide) (by decide),
    flag_scanState x evtB F.EVT_STAT_SUSP_HEAT (v := false) (by decide) (by decide),
    flag_scanState x evtB F.EVT_STAT_REF_VALID (v := true) (by decide) (by decide)]
  rfl

/-- Every value agrees with its reference. -/
theorem ref_scanState : (scanState x).combined = (scanState x).rd evtB F.EVT_CRC_REF_REF ∧ ∀ g ∈ shares (scanState x).rom,
    (scanState x).shareOut g = false → (scanState x).share g % 2 ^ 32 = (scanState x).rd evtB (F.EVT_SHARE_REF_V.ix g) := by
  constructor
  · rw [combined_scanState, scanState, State.rd_wr_same _ _ _ _ (by decide)]
    exact (Nat.mod_eq_of_lt (crc32c_lt _)).symm
  · intro g hg _
    have hg' : g ∈ [0, 16] := hg
    rw [share_scanState x hg', scanState]
    simp only [List.mem_cons, List.not_mem_nil, or_false] at hg'
    rcases hg' with rfl | rfl
    · rw [State.rd_wr_ne _ _ _ _ _ _ (by decide), State.rd_wr_ne _ _ _ _ _ _ (by decide), State.rd_wr_same _ _ _ _ (by decide)]
      rfl
    · rw [State.rd_wr_ne _ _ _ _ _ _ (by decide), State.rd_wr_same _ _ _ _ (by decide)]
      rfl

/-- The reference of share 16 and the last value of share 0 are one register. -/
theorem shareRef_eq_shareLast : F.EVT_SHARE_REF_V.ix 16 = F.EVT_SHARE_LAST_V.ix 0 := rfl

/-- The values of the pass are shown. -/
def State.passShown (s : State) : State :=
  ((((s.wr evtB (F.EVT_SHARE_LAST_V.ix 0) (s.share 0)).wr evtB (F.EVT_SHARE_LAST_V.ix 16) (s.share 16)).wr evtB
    F.EVT_STAT_PASS_BUSY 0).wr evtB F.EVT_CRC_LAST_CRC s.combined).count evtB F.EVT_PASS_CNT_COUNT 1

theorem rd_passShown (s : State) {b : Nat} {f : Fld} (h : b + f.off ∉ [evtB + 0x880, evtB + 0x8C0, evtB + 0x810, evtB + 0x8C4])
    (hf : b + f.off ≠ evtB + 0x80C ∨ b = evtB ∧ f.off = 0x80C ∧ 1 ≤ f.lo) : s.passShown.rd b f = s.rd b f := by
  simp only [List.mem_cons, List.not_mem_nil, or_false, not_or] at h
  obtain ⟨h0, h1, h2, h3⟩ := h
  rw [State.passShown, State.count, State.rd_wr_ne _ _ _ _ _ _ h3, State.rd_wr_ne _ _ _ _ _ _ h2]
  have hlast := (State.rd_wr_ne _ evtB b (F.EVT_SHARE_LAST_V.ix 16) f (s.share 16) h1).trans
    (s.rd_wr_ne evtB b (F.EVT_SHARE_LAST_V.ix 0) f (s.share 0) h0)
  rcases hf with hf | ⟨rfl, hf, hlo⟩
  · exact (State.rd_wr_ne _ _ _ _ _ _ hf).trans hlast
  · exact (State.rd_wr_apart _ evtB F.EVT_STAT_PASS_BUSY f _ hf (by decide) (.inl hlo)).trans hlast

theorem passEnd_of_plain {s : State} (hs : s.rom = scanRom) (h : s.rgState 0 = 0) (hp : s.flag evtB F.EVT_STAT_COMMIT_PEND = false) :
    s.passEnd = s.passShown.crcCompare s.combined := by
  have hfold : (shares s.rom).foldl (fun a g => if a.shareOff g then a else a.wr evtB (F.EVT_SHARE_LAST_V.ix g) (s.share g)) s =
      (s.wr evtB (F.EVT_SHARE_LAST_V.ix 0) (s.share 0)).wr evtB (F.EVT_SHARE_LAST_V.ix 16) (s.share 16) := by
    rw [hs, show shares scanRom = [0, 16] from rfl, List.foldl_cons, List.foldl_cons, List.foldl_nil, shareOff_of_state h]
    rfl
  rw [State.passEnd, hfold, ← State.passShown, if_neg]
  rw [State.flag, rd_passShown s (by decide) (by decide)]
  exact ne_true_of_eq_false hp

theorem State.scanOpen_of_none {s : State} (h : ∀ g, (s.rg g).wake ≠ 8) : s.scanOpen = s := by
  have hall : ∀ m, forAll m (fun g a =>
      if (a.rg g).wake = 8 then ((a.recovering g).foldl (fun b n => b.histBack n) a).openRegion g else a) s = s := by
    intro m
    induction m with
    | zero => rfl
    | succ m ih => rw [forAll_succ, ih, if_neg (h m)]
  exact hall _

theorem passEnd_scanState : (scanState x).passEnd = (scanState x).passShown.crcCompare (scanState x).combined :=
  passEnd_of_plain rfl ((rd_scanState x (by decide)).trans (by decide)) (flag_scanState x _ _ (by decide) (by decide))

theorem exec_crcPassEnd_scanState : exec .crcPassEnd (scanState x) = .next (scanState x).passEnd := by
  refine congrArg Host.Outcome.next ((if_pos (flag_scanState x evtB F.EVT_STAT_PASS_BUSY (by decide) (by decide))).trans ?_)
  refine State.scanOpen_of_none fun g => ?_
  have hrgs : (scanState x).RgsSame (scanState x).passEnd := by
    rw [passEnd_scanState]
    exact State.RgsSame.crcCompare (.count (.wr (.wr (.wr (.wr (.refl _))))))
  rw [hrgs.rg]
  exact (by decide : (({} : Rg).wake ≠ 8))

/-- The pass finds share 16 against the value of share 0. -/
theorem mem_shareDiff_scanState (hne : (scanBase x).share 0 ≠ (scanBase x).share 16) : 16 ∈ (scanState x).passShown.shareDiff := by
  refine List.mem_filter.mpr ⟨(by decide : 16 ∈ [0, 16]), ?_⟩
  have hlast : ∀ g, g ∈ [0, 16] → (scanState x).passShown.rd evtB (F.EVT_SHARE_LAST_V.ix g) = (scanBase x).share g := by
    intro g hg
    have hmod : (scanState x).share g % 2 ^ 32 = (scanBase x).share g :=
      (Nat.mod_eq_of_lt (crc32c_lt _)).trans (share_scanState x hg)
    rw [← hmod, State.passShown, State.count]
    simp only [List.mem_cons, List.not_mem_nil, or_false] at hg
    rcases hg with rfl | rfl
    · rw [State.rd_wr_ne _ _ _ _ _ _ (by decide), State.rd_wr_ne _ _ _ _ _ _ (by decide), State.rd_wr_ne _ _ _ _ _ _ (by decide),
        State.rd_wr_ne _ _ _ _ _ _ (by decide), State.rd_wr_same _ _ _ _ (by decide)]
      rfl
    · rw [State.rd_wr_ne _ _ _ _ _ _ (by decide), State.rd_wr_ne _ _ _ _ _ _ (by decide), State.rd_wr_ne _ _ _ _ _ _ (by decide),
        State.rd_wr_same _ _ _ _ (by decide)]
      rfl
  rw [show (scanState x).passShown.shareOut 16 = false from rfl, shareRef_eq_shareLast, hlast 0 (by decide), hlast 16 (by decide)]
  simpa using hne.symm

theorem mmCnt_scanState (hne : (scanBase x).share 0 ≠ (scanBase x).share 16) :
    (scanState x).passEnd.rd evtB F.EVT_STAT_MM_CNT = 2 := by
  have hheld : (scanState x).passShown.crcHeld = false := by
    rw [← crcHeld_scanState x, State.crcHeld, State.crcHeld, State.flag, State.flag, State.flag, State.flag,
      rd_passShown _ (by decide) (by decide), rd_passShown _ (by decide) (by decide), rd_passShown _ (by decide) (by decide),
      rd_passShown _ (by decide) (by decide)]
    rfl
  rw [passEnd_scanState]
  refine State.mmCnt_crcCompare hheld (List.ne_nil_of_mem (mem_shareDiff_scanState x hne)) ?_ ?_
  · rw [rd_passShown _ (by decide) (by decide)]
    exact (rd_scanState x (by decide)).trans (by decide)
  · rw [rd_passShown _ (by decide) (by decide)]
    exact (rd_scanState x (by decide)).trans (by decide)

end

/-- Refutes O36: a value of CFG.SHARE_LAST stands where the reference of share 16 does, 0x840 + 4 × 16 being 0x880. A pass over a state
in which every share agrees with its reference overwrites that reference with share 0's value, and finds a mismatch where the two
shares' values differ. -/
theorem not_scannerPassesCompareAndCommit : ¬ Obligations.ScannerPassesCompareAndCommit := by
  unfold Obligations.ScannerPassesCompareAndCommit
  intro h
  obtain ⟨x, hne⟩ := exists_share_ne
  obtain ⟨t, ht, hmatch, -⟩ := (h (scanState x)).2.2.2.2.2.1 (fun g => (by decide : (({} : Rg).wake ≠ 8))) (by decide : scanRom.regions.length ≤ 16)
    (flag_scanState x _ _ (by decide) (by decide))
    (crcHeld_scanState x) ((rd_scanState x (by decide)).trans (by decide)) ((rd_scanState x (by decide)).trans (by decide))
  obtain ⟨hmm, -⟩ := hmatch (ref_scanState x)
  rw [exec_crcPassEnd_scanState] at ht
  rw [← Host.Outcome.next.inj ht, mmCnt_scanState x hne] at hmm
  exact absurd hmm (by decide)

end Sys2Proof.Machine
end

section
/-! SUPPORT. The test access port, the debug commands, the trace's start and BIST (R618, R619, R621, R623 to R628). -/

namespace Sys2Proof.Machine

/-! ### The words between the event unit and the nodes -/

/-- The words above the event unit and below the nodes are as before. -/
structure State.HighKept (s t : State) : Prop where
  word : ∀ o, evtB + 0x10000 ≤ o → o < 0x400000 → t.word o = s.word o

namespace State.HighKept

variable {s t u : State}

theorem refl (s : State) : s.HighKept s := ⟨fun _ _ _ => rfl⟩

theorem of_word (h : s.HighKept t) (e : ∀ o, u.word o = t.word o) : s.HighKept u := ⟨fun o h1 h2 => (e o).trans (h.word o h1 h2)⟩

theorem rd (h : s.HighKept t) {b : Nat} {f : Fld} (h1 : evtB + 0x10000 ≤ b + f.off) (h2 : b + f.off < 0x400000) : t.rd b f = s.rd b f := by
  rw [State.rd, State.rd, h.word _ h1 h2]

theorem ite {c : Prop} [Decidable c] {a b : State} (ha : s.HighKept a) (hb : s.HighKept b) : s.HighKept (if c then a else b) := by
  split
  · exact ha
  · exact hb

theorem foldl {α : Type} {f : State → α → State} {l : List α} (hf : ∀ a x, s.HighKept a → s.HighKept (f a x)) (h : s.HighKept t) :
    s.HighKept (l.foldl f t) := by
  induction l generalizing t with
  | nil => exact h
  | cons x xs ih => exact ih (hf _ _ h)

theorem forAll {n : Nat} {f : Nat → State → State} (hf : ∀ i a, s.HighKept a → s.HighKept (f i a)) (h : s.HighKept t) :
    s.HighKept (Machine.forAll n f t) := h.foldl fun a i h => hf i a h

theorem setWord {o : Nat} {w : Word} (h : s.HighKept t) (ho : o < evtB + 0x10000 ∨ 0x400000 ≤ o) : s.HighKept (t.setWord o w) :=
  ⟨fun o' h1 h2 => (t.word_setWord_ne w (by omega)).trans (h.word o' h1 h2)⟩

theorem wr {b v : Nat} {f : Fld} (h : s.HighKept t) (ho : b + f.off < evtB + 0x10000 ∨ 0x400000 ≤ b + f.off) : s.HighKept (t.wr b f v) :=
  h.setWord ho

theorem wrNi {n v : Nat} {f : Fld} (h : s.HighKept t) : s.HighKept (t.wr (niB n) f v) := h.wr (.inr (by
  show 0x400000 ≤ 0x400000 + n * 0x4000 + f.off
  omega))

theorem raise {x : Src} {i : Nat} (h : s.HighKept t) (hx : x.base + x.cause.off < evtB + 0x10000 ∨ 0x400000 ≤ x.base + x.cause.off) :
    s.HighKept (t.raise x i) := ⟨fun o h1 h2 => by
  rw [(t.keepsAt_raise x i).1 o (.inr h1), State.setBit]
  exact (h.wr hx).word o h1 h2⟩

theorem glEvent {g i : Nat} (h : s.HighKept t) (hg : g < 16) : s.HighKept (t.glEvent g i) := h.raise (.inl (by
  show 0x50000 + (0x140 + 4 * g) < 0x50000 + 0x10000
  omega))

theorem notice {n i : Nat} (h : s.HighKept t) : s.HighKept (t.notice n i) := h.raise (.inr (by
  show 0x400000 ≤ 0x400000 + n * 0x4000 + _
  omega))

theorem updNi {n f} (h : s.HighKept t) : s.HighKept (t.updNi n f) := h.of_word fun _ => rfl
theorem updPort {o f} (h : s.HighKept t) : s.HighKept (t.updPort o f) := h.of_word fun _ => rfl

theorem setHeats {m} (h : s.HighKept t) : s.HighKept { t with heats := m } := h.of_word fun _ => rfl

theorem foldlFst {α β : Type} {f : State × α → β → State × α} {l : List β} {a : α}
    (hf : ∀ p x, s.HighKept p.1 → s.HighKept (f p x).1) (h : s.HighKept t) : s.HighKept (l.foldl f (t, a)).1 := by
  suffices ∀ p : State × α, s.HighKept p.1 → s.HighKept (l.foldl f p).1 from this _ h
  induction l with
  | nil => exact fun _ hp => hp
  | cons x r ih => exact fun p hp => ih _ (hf p x hp)

theorem timeTold (h : s.HighKept t) : s.HighKept t.timeTold := by
  have htim : ∀ {a : State} {f : Fld} {v : Nat}, f.off = 4 → s.HighKept a → s.HighKept (a.wr timB f v) := fun hf h => h.wr (.inl (by
    rw [hf]
    decide))
  have hshown : s.HighKept t.timeShown := htim rfl (htim rfl (htim rfl (htim rfl (htim rfl (htim rfl h)))))
  exact .ite (hshown.glEvent (by decide)) hshown

theorem refreshTime (h : s.HighKept t) : s.HighKept t.refreshTime := by
  rw [State.refreshTime_eq]
  refine h.timeTold.forAll fun n a h => ?_
  unfold State.niTimed
  dsimp only
  exact .ite h.wrNi (.ite h.wrNi.wrNi h.wrNi.wrNi.wrNi.wrNi.notice)

theorem orderSync (h : s.HighKept t) : s.HighKept t.orderSync := by
  unfold State.orderSync
  dsimp only
  refine forAll (fun _ _ h => h.wrNi) (.ite h (glEvent (.ite (forAll (fun _ _ h => h.updNi) ?_) ?_) (by decide)))
  · exact h.of_word fun _ => rfl
  · exact h.of_word fun _ => rfl

theorem takeFree (h : s.HighKept t) : s.HighKept t.takeFree.2 := h.of_word fun _ => rfl

theorem destroy {off k : Nat} {mask : Nat → Nat} (h : s.HighKept t) (ho : 0x400000 ≤ off) : s.HighKept (t.destroy off k mask) :=
  h.forAll fun i a h => h.takeFree.setWord (.inr (by omega))

theorem bistWipe (h : s.HighKept t) : s.HighKept t.bistWipe := by
  unfold State.bistWipe
  extract_lets maps u v w
  have hmaps : ∀ (m : Map Nat) (k w : Nat) (c : State), s.HighKept c → s.HighKept (maps m k w c).1 := by
    intro m k w c hc
    exact foldlFst (fun _ _ hp => hp.takeFree) hc
  have hu : s.HighKept u := by
    refine h.forAll fun n a ha => ?_
    extract_lets b a₁ a₂
    have hb : 0x400000 ≤ b := Nat.le_add_right _ _
    have ha₂ : s.HighKept a₂ := ((ha.destroy (by omega)).destroy (by omega)).destroy (by omega)
    split
    next a₃ mcg hmcg =>
      have ha₃ : s.HighKept a₃ := by simpa only [hmcg] using hmaps (a₂.ni n).mcg 512 32 a₂ ha₂
      split
      next a₄ pid hpid =>
        have ha₄ : s.HighKept a₄ := by simpa only [hpid] using hmaps (a₃.ni n).pid (niRec a₃.rom n).pidMap 32 a₃ ha₃
        exact ha₄.updNi
  have hv : s.HighKept v := hu.forAll fun k _ h => h.destroy (by
    show 0x400000 ≤ 0xA00000 + _ + 0x4000
    omega)
  exact setHeats (hv.foldl fun _ _ h => h.updPort)

end State.HighKept

/-! ### The locks of a master that is reset -/

theorem State.near_breakShown (s : State) (m t cause : Nat) : s.Near (s.breakShown m t cause) := by
  unfold State.breakShown
  dsimp only
  have hcut : s.Near (s.wr cmxB (F.CMX_MST_STAT_CUT.ix m) 1) := .wr s _ _ _
  generalize s.wr cmxB (F.CMX_MST_STAT_CUT.ix m) 1 = a at hcut ⊢
  split
  · exact hcut.trans (a.near_glEvent 5 0)
  · exact hcut.trans (((((State.Near.wr a _ _ _).trans (.wr _ _ _ _)).trans (.wr _ _ _ _)).trans (.wr _ _ _ _)).trans
      (State.near_glEvent _ 5 0))

/-- A lock that breaks is gone, with what was owed to its target; the other locks and the accesses stay (R467). -/
theorem State.breakLock_spec {s : State} {t m j : Nat} (h : s.lockOf t = some (m, j)) (cause : Nat) :
    (s.breakLock t cause).cmx.acs = s.cmx.acs ∧ (s.breakLock t cause).lockOf t = none
      ∧ (∀ k, k ≠ t → (s.breakLock t cause).lockOf k = s.lockOf k)
      ∧ (s.breakLock t cause).cmx.owed = s.cmx.owed.filter (fun e => e.1 != t) := by
  have hn : ∀ u : State, (u.breakShown m t cause).cmx = u.cmx := fun u => by
    have e := congrArg State.cmx (u.near_breakShown m t cause)
    exact e
  have hb : s.breakLock t cause = State.breakShown { s with cmx := { s.cmx with
      locks := mset (fun _ => none) s.cmx.locks t none
      brk := if s.cmx.brk.contains t then s.cmx.brk else t :: s.cmx.brk
      cuts := if cause = 1 then (m, t) :: s.cmx.cuts.filter (fun e => e != (m, t)) else s.cmx.cuts
      owed := s.cmx.owed.filter (fun e => e.1 != t)
      stage := mset (fun _ => none) s.cmx.stage (mtKey m t) none } } m t cause := by
    rw [State.breakLock, h]
    rfl
  refine ⟨?_, ?_, fun k hk => ?_, ?_⟩
  · rw [hb, hn]
  · rw [State.lockOf, hb, hn]
    exact mget_mset_same (α := Option (Nat × Nat)) _ s.cmx.locks t none
  · rw [State.lockOf, hb, hn]
    exact mget_mset_ne (α := Option (Nat × Nat)) _ s.cmx.locks none hk
  · rw [hb, hn]

/-- In `a`, to which breaks have led from `s`, a lock that still stands is one of `s`; on a target that was to be broken it waits for an
access in progress (R467). -/
structure State.Breaking (s : State) (done : List Nat) (a : State) : Prop where
  acs : a.cmx.acs = s.cmx.acs
  lock : ∀ k o, a.lockOf k = some o → s.lockOf k = some o ∧ (k ∈ done → (k, 0) ∈ a.cmx.owed
    ∧ ∃ x ∈ s.cmx.acs, x.m = o.1 ∧ x.tgt = k ∧ x.working = true)

namespace State.Breaking

variable {s a : State} {done : List Nat}

theorem breakWhenDone (h : s.Breaking done a) (t : Nat) : s.Breaking (t :: done) (a.breakWhenDone t 0) := by
  obtain ⟨hacs, hlock⟩ := h
  unfold State.breakWhenDone
  split
  next hnone =>
    refine ⟨hacs, fun k o hk => ⟨(hlock k o hk).1, fun hd => (hlock k o hk).2 ?_⟩⟩
    refine (List.mem_cons.mp hd).resolve_left fun hkt => ?_
    rw [hkt, hnone] at hk
    cases hk
  next m j hm =>
    split
    next hany =>
      refine ⟨hacs, fun k o hk => ⟨(hlock k o hk).1, fun hd => ?_⟩⟩
      by_cases hkt : k = t
      · subst hkt
        have ho : o = (m, j) := Option.some.inj (hk.symm.trans hm)
        obtain ⟨x, hx, hxx⟩ := List.any_eq_true.mp hany
        simp only [Bool.and_eq_true, beq_iff_eq] at hxx
        obtain ⟨⟨hxm, hxt⟩, hxw⟩ := hxx
        exact ⟨List.mem_append_right _ List.mem_cons_self, x, hacs ▸ hx, by rw [ho, hxm], hxt, hxw⟩
      · obtain ⟨howed, hx⟩ := (hlock k o hk).2 ((List.mem_cons.mp hd).resolve_left hkt)
        exact ⟨List.mem_append_left _ (List.mem_filter.mpr ⟨howed, by simpa using hkt⟩), hx⟩
    next =>
      obtain ⟨hacs', hgone, hkept, howed⟩ := State.breakLock_spec hm 0
      refine ⟨hacs'.trans hacs, fun k o hk => ?_⟩
      have hkt : k ≠ t := fun e => by
        rw [e, hgone] at hk
        cases hk
      rw [hkept k hkt] at hk
      refine ⟨(hlock k o hk).1, fun hd => ?_⟩
      obtain ⟨ho, hx⟩ := (hlock k o hk).2 ((List.mem_cons.mp hd).resolve_left hkt)
      rw [howed]
      exact ⟨List.mem_filter.mpr ⟨ho, by simpa using hkt⟩, hx⟩

theorem foldl (l : List Nat) : ∀ {done : List Nat} {a : State}, s.Breaking done a →
    s.Breaking (l.reverse ++ done) (l.foldl (fun a t => a.breakWhenDone t 0) a) := by
  induction l with
  | nil => exact fun h => h
  | cons t r ih =>
    intro done a h
    rw [List.reverse_cons, List.append_assoc]
    exact ih (h.breakWhenDone t)

end State.Breaking

/-- After master `m`'s reset, a lock of its own that still stands waits for an access of its own there to end (R467). -/
theorem State.lockOf_ownerReset {s : State} {m k : Nat} {o : Nat × Nat} (h : (s.ownerReset m).lockOf k = some o) (ho : o.1 = m) :
    s.lockOf k = some o ∧ (k, 0) ∈ (s.ownerReset m).cmx.owed ∧ ∃ a ∈ s.cmx.acs, a.m = m ∧ a.tgt = k ∧ a.working = true := by
  have hbreak := State.Breaking.foldl (s.cmx.locks.filterMap (fun e => match e.2 with
    | some (o, _) => if o = m then some e.1 else none
    | none => none)) (s := s) (done := []) (a := s) ⟨rfl, fun k o hk => ⟨hk, fun hd => absurd hd List.not_mem_nil⟩⟩
  obtain ⟨hs, hdone⟩ := hbreak.lock k o h
  obtain ⟨howed, a, ha, ham, hat⟩ := hdone (by
    rw [List.append_nil, List.mem_reverse, List.mem_filterMap]
    exact ⟨_, mem_of_mget_eq_some hs, if_pos ho⟩)
  exact ⟨hs, howed, a, ha, ham.trans ho, hat⟩

theorem State.tap_ownerReset (s : State) (m : Nat) : (s.ownerReset m).tap = s.tap := by
  have e := congrArg State.tap (State.CmxOnly.ownerReset s m).rest
  exact e

/-! ### Pins -/

theorem State.pinOwner_setPin_ne (s : State) {k j : Nat} (owner ni : Nat) (hj : j < 4) (h : j ≠ k) :
    (s.setPin k owner ni).pinOwner j = s.pinOwner j := by
  have hstr : ∀ (a : State) (f : Fld) (v : Nat), f.off = 0x300 → f.stride = 4 →
      (a.wr strB (f.ix k) v).rd strB (F.STR_CLAIM_PIN_OWNER.ix j) = a.rd strB (F.STR_CLAIM_PIN_OWNER.ix j) := fun a f v h1 h2 =>
    a.rd_wr_ne _ _ _ _ _ (by
      show 0x10000 + (0x300 + 4 * j) ≠ 0x10000 + (f.off + f.stride * k)
      rw [h1, h2]
      omega)
  have htim : ∀ (a : State) (f : Fld) (v : Nat),
      (a.wr timB f v).rd strB (F.STR_CLAIM_PIN_OWNER.ix j) = a.rd strB (F.STR_CLAIM_PIN_OWNER.ix j) := fun a f v =>
    a.rd_wr_ne _ _ _ _ _ (by
      show 0x10000 + (0x300 + 4 * j) ≠ 0x20000 + f.off
      omega)
  rw [State.pinOwner, State.pinOwner, State.setPin, htim, htim, hstr _ _ _ rfl rfl, hstr _ _ _ rfl rfl]

theorem State.pinOwner_setPin_same (s : State) {k : Nat} (hk : k < 4) {owner : Nat} (ni : Nat) (h : owner < 8) :
    (s.setPin k owner ni).pinOwner k = owner := by
  have htim : ∀ (a : State) (f : Fld) (v : Nat),
      (a.wr timB f v).rd strB (F.STR_CLAIM_PIN_OWNER.ix k) = a.rd strB (F.STR_CLAIM_PIN_OWNER.ix k) := fun a f v =>
    a.rd_wr_ne _ _ _ _ _ (by
      show 0x10000 + (0x300 + 4 * k) ≠ 0x20000 + f.off
      omega)
  rw [State.pinOwner, State.setPin, htim, htim,
    State.rd_wr_apart _ strB (F.STR_CLAIM_PIN_NI.ix k) (F.STR_CLAIM_PIN_OWNER.ix k) _ rfl (show 8 + 8 ≤ 32 by decide)
      (.inr (show 0 + 3 ≤ 8 by decide)), State.rd_wr_same _ strB (F.STR_CLAIM_PIN_OWNER.ix k) _ (show 0 + 3 ≤ 32 by decide)]
  exact Nat.mod_eq_of_lt h

/-! ### The trace -/

theorem State.highKept_setPin (s : State) {k : Nat} (owner ni : Nat) (hk : k < 4) : s.HighKept (s.setPin k owner ni) := by
  have hlow : ∀ {a : State} {b v : Nat} {f : Fld}, (b = strB ∧ f.off = 0x300 ∧ f.stride = 4 ∨ b = timB ∧ f.off = 0x80 ∧ f.stride = 8) →
      s.HighKept a → s.HighKept (a.wr b (f.ix k) v) := fun {a b v f} hf h => h.wr (.inl (by
    show b + (f.off + f.stride * k) < 0x50000 + 0x10000
    rcases hf with ⟨rfl, h1, h2⟩ | ⟨rfl, h1, h2⟩ <;> rw [h1, h2]
    · show 0x10000 + (0x300 + 4 * k) < _
      omega
    · show 0x20000 + (0x80 + 8 * k) < _
      omega))
  exact hlow (.inr ⟨rfl, rfl, rfl⟩) (hlow (.inr ⟨rfl, rfl, rfl⟩) (hlow (.inl ⟨rfl, rfl, rfl⟩) (hlow (.inl ⟨rfl, rfl, rfl⟩) (.refl s))))

theorem State.highKept_freePin (s : State) {k : Nat} (owner : Nat) (hk : k < 4) : s.HighKept (s.freePin k owner) :=
  .ite (s.highKept_setPin 0 0 hk) (.refl s)

theorem State.trc_setPin (s : State) (k owner ni : Nat) : (s.setPin k owner ni).trcRun = s.trcRun ∧ (s.setPin k owner ni).trc = s.trc := by
  rw [State.setPin]
  simp only [State.wr_trcRun, State.wr_trc, and_self]

/-- What stopping a trace leaves: no pin with the trace, and what has been recorded (R624, R625). -/
theorem State.trcStop_spec (s : State) : s.trcStop.trcRun = false ∧ s.trcStop.flag dbgB F.DBG_TRC_CTL_EN = false
    ∧ s.trcStop.trc = s.trc ∧ ∀ k, k < 4 → s.trcStop.pinOwner k ≠ 4 := by
  have hfree : ∀ (a : State) (i : Nat), (a.freePin i 4).trcRun = a.trcRun ∧ (a.freePin i 4).trc = a.trc := fun a i => by
    rw [State.freePin]
    split
    · exact a.trc_setPin i 0 0
    · exact ⟨rfl, rfl⟩
  obtain ⟨⟨h1, h2, h3⟩, h4⟩ := forAll_each (f := fun k a => a.freePin k 4) (n := 4) (P := fun k a => a.pinOwner k ≠ 4)
    (Q := fun a => a.trcRun = false ∧ a.rd dbgB F.DBG_TRC_CTL_EN = 0 ∧ a.trc = s.trc)
    (s := { s.wr dbgB F.DBG_TRC_CTL_EN 0 with trcRun := false }) ⟨rfl, s.rd_wr_same _ _ _ (by decide), rfl⟩
    (fun i a hi ha => ⟨(hfree a i).1.trans ha.1, ((a.highKept_freePin 4 hi).rd (by decide) (by decide)).trans ha.2.1,
      (hfree a i).2.trans ha.2.2⟩)
    (fun i a hi _ => by
      show (a.freePin i 4).pinOwner i ≠ 4
      rw [State.freePin]
      split
      · rw [a.pinOwner_setPin_same hi 0 (by decide)]
        decide
      next hne => exact hne)
    (fun i j a hj hi _ hp => by
      show (a.freePin i 4).pinOwner j ≠ 4
      rw [State.freePin]
      split
      · rw [a.pinOwner_setPin_ne 0 0 (by omega) (by omega)]
        exact hp
      · exact hp)
  have heq : s.trcStop = forAll 4 (fun k a => a.freePin k 4) { s.wr dbgB F.DBG_TRC_CTL_EN 0 with trcRun := false } := rfl
  rw [heq]
  exact ⟨h1, by rw [State.flag, h2]; rfl, h3, h4⟩

theorem State.pinFree_dbg (s : State) (x k o n : Nat) : (s.begin x).pinFree k o n = s.pinFree k o n := rfl

theorem State.trcRun_noteClaim (s : State) (k : Nat) : (s.noteClaim k).trcRun = s.trcRun := rfl

/-- Arming a trace that starts at once, or waits for its time, sets EN. -/
theorem State.trcArm_of_started {s : State} (h : s.rd dbgB F.DBG_TRC_CTL_START ≠ 2) : s.trcArm.flag dbgB F.DBG_TRC_CTL_EN = true
    ∧ s.trcArm.trcRun = (if s.rd dbgB F.DBG_TRC_CTL_START = 1 ∨ s.rd dbgB F.DBG_TRC_CTL_START = 2 then s.trcRun else true) := by
  have hen : (s.wr dbgB F.DBG_TRC_CTL_EN 1).rd dbgB F.DBG_TRC_CTL_EN = 1 := s.rd_wr_same _ _ _ (by decide)
  rw [State.trcArm]
  split
  next h1 =>
    rw [if_pos (.inl h1), State.flag, hen]
    exact ⟨rfl, rfl⟩
  next h2 => exact absurd h2 h
  next h1 h2 =>
    rw [if_neg (by rintro (h | h); exacts [h1 h, h2 h]), State.trcBegin]
    have hgl : ∀ u : State, (u.glEvent 12 2).rd dbgB F.DBG_TRC_CTL_EN = u.rd dbgB F.DBG_TRC_CTL_EN := fun u =>
      ((State.HighKept.refl u).glEvent (by decide)).rd (by decide) (by decide)
    have hrun : ∀ u : State, (u.glEvent 12 2).trcRun = u.trcRun := fun u => by
      have e := congrArg State.trcRun (u.near_glEvent 12 2)
      exact e
    rw [State.flag, hgl, hrun]
    exact ⟨congrArg (· == 1) hen, rfl⟩

/-- A trace that waits for an edge claims its pin, or is not armed. -/
theorem State.trcArm_of_pin {s : State} (h : s.rd dbgB F.DBG_TRC_CTL_START = 2) : s.trcArm.trcRun = s.trcRun
    ∧ s.trcArm.flag dbgB F.DBG_TRC_CTL_EN = s.pinFree (s.rd dbgB F.DBG_TRC_CTL_PIN) 4 0 := by
  have hen : ∀ (a : State) (v : Nat), (a.wr dbgB F.DBG_TRC_CTL_EN v).rd dbgB F.DBG_TRC_CTL_EN = v % 2 := fun a v =>
    a.rd_wr_same _ _ _ (by decide)
  have hclaim : ∀ (k : Nat), (s.claimPin k 4 0).trcRun = s.trcRun := fun k => by
    rw [State.claimPin, State.trcRun_noteClaim, (State.trc_setPin _ k 4 0).1]
    split
    · exact State.wr_trcRun ..
    · exact State.wr_trcRun ..
    · rfl
  rw [State.trcArm]
  split
  next h1 => exact absurd (h.symm.trans h1) (by decide)
  next =>
    split
    next hf =>
      rw [State.flag, hen, hf, State.wr_trcRun, hclaim]
      exact ⟨rfl, rfl⟩
    next hf =>
      rw [State.flag, hen, Bool.eq_false_of_not_eq_true hf, State.wr_trcRun]
      exact ⟨rfl, rfl⟩
  next _ h2 => exact absurd h h2

/-- Whether a trace is armed, does not run and has room. -/
def State.trcWaits (s : State) : Prop := s.flag dbgB F.DBG_TRC_CTL_EN = true ∧ s.trcRun = false
  ∧ (s.flag dbgB F.DBG_TRC_PTR_FULL = false ∨ s.flag dbgB F.DBG_TRC_CTL_WRAP = true)

theorem State.trcWaits.not_over {s : State} (h : s.trcWaits) : ¬ (s.flag dbgB F.DBG_TRC_CTL_EN = false ∨ s.trcRun = true
    ∨ (s.flag dbgB F.DBG_TRC_PTR_FULL && !s.flag dbgB F.DBG_TRC_CTL_WRAP) = true) := by
  obtain ⟨hen, hrun, hroom⟩ := h
  rw [hen, hrun]
  rcases hroom with h | h <;> rw [h]
  · rw [Bool.false_and]
    decide
  · rw [Bool.not_true, Bool.and_false]
    decide

/-- A trace that waits for a time begins at it (R625). -/
theorem State.trcEvent_of_time {s : State} (t : Stamp) (rise : Bool) (h : s.trcWaits) (hst : s.rd dbgB F.DBG_TRC_CTL_START = 1) :
    s.trcEvent t rise = if 0 ≤ stampDiff t (BitVec.ofNat 64 (s.rd64 dbgB F.DBG_TRC_T_LO_T F.DBG_TRC_T_HI_T)) then s.trcBegin else s := by
  rw [State.trcEvent, if_neg h.not_over]
  split
  next => rfl
  next h2 => exact absurd (hst.symm.trans h2) (by decide)
  next h1 _ => exact absurd hst h1

/-- A trace that waits for an edge begins at the edge that it waits for (R625). -/
theorem State.trcEvent_of_edge {s : State} (t : Stamp) (rise : Bool) (h : s.trcWaits) (hst : s.rd dbgB F.DBG_TRC_CTL_START = 2) :
    s.trcEvent t rise = if s.pinOwner (s.rd dbgB F.DBG_TRC_CTL_PIN) = 4 ∧ rise = !s.flag dbgB F.DBG_TRC_CTL_EDGE then s.trcBegin
      else s := by
  rw [State.trcEvent, if_neg h.not_over]
  split
  next h1 => exact absurd (hst.symm.trans h1) (by decide)
  next => rfl
  next _ h2 => exact absurd hst h2

theorem State.trcEvent_of_off {s : State} (t : Stamp) (rise : Bool) (h : s.flag dbgB F.DBG_TRC_CTL_EN = false ∨ s.trcRun = true
    ∨ (s.flag dbgB F.DBG_TRC_PTR_FULL && !s.flag dbgB F.DBG_TRC_CTL_WRAP) = true) : s.trcEvent t rise = s := if_pos h

theorem State.trcEvent_of_start {s : State} (t : Stamp) (rise : Bool) (h1 : s.rd dbgB F.DBG_TRC_CTL_START ≠ 1)
    (h2 : s.rd dbgB F.DBG_TRC_CTL_START ≠ 2) : s.trcEvent t rise = s := by
  rw [State.trcEvent]
  split
  · rfl
  · split
    next h => exact absurd h h1
    next h => exact absurd h h2
    next => rfl

theorem State.trcEvent_self {s : State} (t : Stamp) (rise : Bool) (h : s.flag dbgB F.DBG_TRC_CTL_EN = false ∨ s.trcRun = true
    ∨ s.flag dbgB F.DBG_TRC_PTR_FULL = true ∧ s.flag dbgB F.DBG_TRC_CTL_WRAP = false
    ∨ s.rd dbgB F.DBG_TRC_CTL_START = 0 ∨ s.rd dbgB F.DBG_TRC_CTL_START = 3
    ∨ s.rd dbgB F.DBG_TRC_CTL_START = 1 ∧ stampDiff t (BitVec.ofNat 64 (s.rd64 dbgB F.DBG_TRC_T_LO_T F.DBG_TRC_T_HI_T)) < 0
    ∨ s.rd dbgB F.DBG_TRC_CTL_START = 2 ∧ s.pinOwner (s.rd dbgB F.DBG_TRC_CTL_PIN) ≠ 4) : s.trcEvent t rise = s := by
  by_cases hover : s.flag dbgB F.DBG_TRC_CTL_EN = false ∨ s.trcRun = true
      ∨ (s.flag dbgB F.DBG_TRC_PTR_FULL && !s.flag dbgB F.DBG_TRC_CTL_WRAP) = true
  · exact State.trcEvent_of_off t rise hover
  · have hwaits : s.trcWaits := by
      rw [not_or, not_or, Bool.not_eq_true, Bool.not_eq_true, Bool.not_eq_false, Bool.and_eq_false_iff, Bool.not_eq_false'] at hover
      exact hover
    rcases h with h | h | ⟨h1, h2⟩ | h | h | ⟨h1, h2⟩ | ⟨h1, h2⟩
    · exact absurd (.inl h) hover
    · exact absurd (.inr (.inl h)) hover
    · exact absurd (.inr (.inr (by rw [h1, h2]; rfl))) hover
    · exact State.trcEvent_of_start t rise (by omega) (by omega)
    · exact State.trcEvent_of_start t rise (by omega) (by omega)
    · rw [State.trcEvent_of_time t rise hwaits h1, if_neg (by omega)]
    · rw [State.trcEvent_of_edge t rise hwaits h1, if_neg fun h => h2 h.1]

/-! ### Test modes -/

theorem State.rd_testEnter (s : State) {mode : Nat} (hm : mode < 4) : (s.testEnter mode).rd dbgB F.DBG_STAT_TEST = mode
    ∧ (s.testEnter mode).rd dbgB F.DBG_TEST_CTL_MODE = mode := by
  have hkept : ((s.wr dbgB F.DBG_STAT_TEST mode).wr dbgB F.DBG_TEST_CTL_MODE mode).HighKept (s.testEnter mode) :=
    .refreshTime (.orderSync (.glEvent (.ite (.bistWipe (.refl _)) (.refl _)) (by decide)))
  constructor
  · rw [hkept.rd (by decide) (by decide), State.rd_wr_ne _ _ _ _ _ _ (by decide), State.rd_wr_same _ _ _ _ (by decide)]
    exact Nat.mod_eq_of_lt hm
  · rw [hkept.rd (by decide) (by decide), State.rd_wr_same _ _ _ _ (by decide)]
    exact Nat.mod_eq_of_lt hm

theorem State.rd_testLeave (s : State) : s.testLeave.rd dbgB F.DBG_STAT_TEST = 0 ∧ s.testLeave.rd dbgB F.DBG_TEST_CTL_MODE = 0 := by
  have hkept : ((s.wr dbgB F.DBG_STAT_TEST 0).wr dbgB F.DBG_TEST_CTL_MODE 0).HighKept s.testLeave := .orderSync (.refl _)
  constructor
  · rw [hkept.rd (by decide) (by decide), State.rd_wr_ne _ _ _ _ _ _ (by decide), State.rd_wr_same _ _ _ _ (by decide)]
    rfl
  · rw [hkept.rd (by decide) (by decide), State.rd_wr_same _ _ _ _ (by decide)]
    rfl

theorem State.testMode_zero {s : State} (h : s.rd dbgB F.DBG_STAT_TEST = 0) : s.testMode 0 = s := by
  rw [State.testMode, h]
  rfl

theorem State.testMode_leave {s : State} (h : s.rd dbgB F.DBG_STAT_TEST = 1) : s.testMode 0 = s.testLeave := by
  rw [State.testMode, h]
  rfl

/-! ### The statement -/

section

variable {s : State} {x op : Nat} {fs : List (Nat × Nat)} {c : Cmd} {f : Cmd → State → State}

theorem State.dbgCmd_locked (h : s.Issued x op fs c) (hd : s.dbgDis = true) :
    s.dbgCmd x op fs f = (s.begin x).reply x 0x50 [] := (s.runCmd_issued h _).trans (if_pos hd)

theorem State.dbgCmd_open (h : s.Issued x op fs c) (hd : s.dbgDis = false) : s.dbgCmd x op fs f = f c (s.begin x) :=
  (s.runCmd_issued h _).trans (if_neg (ne_true_of_eq_false hd))

theorem exec_trcStart_of (h : s.Issued x 0xF1 [] c) (hd : s.dbgDis = false) : exec (.trcStart x) s = .next
    (if s.flag dbgB F.DBG_TRC_CTL_EN = true then (s.begin x).reply x 0x52 []
      else (s.begin x).trcArm.reply x (if (s.begin x).trcArm.flag dbgB F.DBG_TRC_CTL_EN = true then 0 else 9) []) :=
  congrArg Host.Outcome.next (State.dbgCmd_open h hd)

theorem exec_testEnter_of (h : s.Issued x 0xF3 [(0, 2)] c) (hd : s.dbgDis = false) : exec (.testEnter x) s = .next
    (if c.p 0 2 = 0 ∨ c.p 0 2 = 3 then (s.begin x).reply x 3 []
      else if s.rd dbgB F.DBG_STAT_TEST ≠ 0 then (s.begin x).reply x 0x51 []
      else ((s.begin x).testEnter (c.p 0 2)).reply x 0 []) :=
  congrArg Host.Outcome.next (State.dbgCmd_open h hd)

theorem exec_testExit_of (h : s.Issued x 0xF4 [] c) (hd : s.dbgDis = false) : exec (.testExit x) s = .next
    (if s.rd dbgB F.DBG_STAT_TEST = 2 then (s.begin x).reply x 0x51 [] else ((s.begin x).testMode 0).reply x 0 []) :=
  congrArg Host.Outcome.next (State.dbgCmd_open h hd)

end

/-- BIST has ended with its result. -/
def State.bistShown (s : State) (fail : Option Nat) : State :=
  ((s.wr dbgB F.DBG_STAT_BIST_DONE 1).wr dbgB F.DBG_STAT_BIST_FAIL (b2n fail.isSome)).wr dbgB F.DBG_STAT_BIST_UNIT (fail.getD 0)

theorem State.bistShown_spec (s : State) (fail : Option Nat) : onlyWords [dbgB + F.DBG_STAT_TEST.off] s (s.bistShown fail)
    ∧ (s.bistShown fail).flag dbgB F.DBG_STAT_BIST_DONE = true
    ∧ (s.bistShown fail).flag dbgB F.DBG_STAT_BIST_FAIL = fail.isSome
    ∧ (s.bistShown fail).rd dbgB F.DBG_STAT_BIST_UNIT = fail.getD 0 % 2 ^ F.DBG_STAT_BIST_UNIT.w := by
  refine ⟨((onlyWords_wr _ _ _ _ (by decide)).trans (onlyWords_wr _ _ _ _ (by decide))).trans (onlyWords_wr _ _ _ _ (by decide)),
    ?_, ?_, State.rd_wr_same _ _ _ _ (by decide)⟩
  · rw [State.flag, State.bistShown, State.rd_wr_apart _ dbgB F.DBG_STAT_BIST_UNIT F.DBG_STAT_BIST_DONE _ rfl (by decide) (by decide),
      State.rd_wr_apart _ dbgB F.DBG_STAT_BIST_FAIL F.DBG_STAT_BIST_DONE _ rfl (by decide) (by decide),
      State.rd_wr_same _ dbgB F.DBG_STAT_BIST_DONE _ (by decide)]
    rfl
  · rw [State.flag, State.bistShown, State.rd_wr_apart _ dbgB F.DBG_STAT_BIST_UNIT F.DBG_STAT_BIST_FAIL _ rfl (by decide) (by decide),
      State.rd_wr_same _ dbgB F.DBG_STAT_BIST_FAIL _ (by decide)]
    cases fail <;> rfl

/-- Settles O47. -/
theorem testAccessDebugAndTrace : Obligations.TestAccessDebugAndTrace := by
  unfold Obligations.TestAccessDebugAndTrace
  refine ⟨fun s => ⟨rfl, rfl, fun h => ?_, fun h => ?_, ?_⟩, fun s x c => ⟨fun hd => ⟨?_, ?_, ?_, ?_, ?_⟩,
    fun hd => ⟨fun h => ?_, fun h hen => ⟨fun hp => ?_, fun hst hp => ?_⟩, fun h hen => ?_, fun h hm ht => ?_, fun h hm ht => ?_,
      fun h hm => ?_, fun h ht => ?_, fun h ht => ?_, fun h => ?_, fun h hm ht => ?_, fun h ht => ?_⟩,
    fun t rise h => ?_, fun t rise hen hrun hroom => ⟨fun hst ht => ?_, fun hst hp => ⟨fun he => ?_, fun he => ?_⟩⟩, fun fail h => ?_,
    fun fail ht hdone => ?_⟩⟩
  · exact congrArg Host.Outcome.next (if_neg (ne_true_of_eq_false h))
  · exact congrArg Host.Outcome.next (if_pos h)
  · exact ⟨_, rfl, State.tap_ownerReset _ 2, fun k o hk ho => State.lockOf_ownerReset hk ho⟩
  · exact fun h => congrArg Host.Outcome.next (State.dbgCmd_locked h hd)
  · exact fun h => congrArg Host.Outcome.next (State.dbgCmd_locked h hd)
  · exact fun h => congrArg Host.Outcome.next (State.dbgCmd_locked h hd)
  · exact fun h => congrArg Host.Outcome.next (State.dbgCmd_locked h hd)
  · exact fun h => congrArg Host.Outcome.next (State.dbgCmd_locked h hd)
  · exact congrArg Host.Outcome.next (State.dbgCmd_open h hd)
  · by_cases hst : s.rd dbgB F.DBG_TRC_CTL_START = 2
    · obtain ⟨hrun, hflag⟩ := State.trcArm_of_pin (s := s.begin x) hst
      have hon := hflag.trans (hp hst)
      rw [exec_trcStart_of h hd, if_neg (ne_true_of_eq_false hen), if_pos hon, if_pos (.inr hst)]
      exact ⟨_, rfl, hon, hrun⟩
    · obtain ⟨hflag, hrun⟩ := State.trcArm_of_started (s := s.begin x) hst
      rw [exec_trcStart_of h hd, if_neg (ne_true_of_eq_false hen), if_pos hflag]
      exact ⟨_, rfl, hflag, hrun⟩
  · obtain ⟨hrun, hflag⟩ := State.trcArm_of_pin (s := s.begin x) hst
    have hoff := hflag.trans hp
    rw [exec_trcStart_of h hd, if_neg (ne_true_of_eq_false hen), if_neg (ne_true_of_eq_false hoff)]
    exact ⟨_, rfl, hoff, hrun⟩
  · rw [exec_trcStart_of h hd, if_pos hen]
  · rw [exec_testEnter_of h hd, if_neg (by omega), if_pos ht]
  · rw [exec_testEnter_of h hd, if_neg (by omega), if_neg (not_not_intro ht), hm]
    exact ⟨_, rfl, (State.rd_testEnter _ (by decide)).1⟩
  · rw [exec_testEnter_of h hd, if_pos hm]
  · rw [exec_testExit_of h hd, if_neg (by omega), State.testMode_zero (s := s.begin x) ht]
  · rw [exec_testExit_of h hd, if_pos ht]
  · exact ⟨_, congrArg Host.Outcome.next (State.dbgCmd_open h hd), (s.begin x).trcStop_spec⟩
  · rw [exec_testEnter_of h hd, if_neg (by omega), if_neg (not_not_intro ht), hm]
    exact ⟨_, rfl, State.rd_testEnter _ (by decide)⟩
  · rw [exec_testExit_of h hd, if_neg (by omega), State.testMode_leave (s := s.begin x) ht]
    exact ⟨_, rfl, State.rd_testLeave _⟩
  · exact congrArg Host.Outcome.next (State.trcEvent_self t rise h)
  · exact congrArg Host.Outcome.next ((State.trcEvent_of_time t rise ⟨hen, hrun, hroom⟩ hst).trans (if_pos ht))
  · exact congrArg Host.Outcome.next ((State.trcEvent_of_edge t rise ⟨hen, hrun, hroom⟩ hst).trans (if_pos ⟨hp, he⟩))
  · refine congrArg Host.Outcome.next ((State.trcEvent_of_edge t rise ⟨hen, hrun, hroom⟩ hst).trans (if_neg fun h => ?_))
    exact Bool.not_ne_self _ (h.2.symm.trans he)
  · exact congrArg Host.Outcome.next (if_pos h)
  · refine ⟨s.bistShown fail, congrArg Host.Outcome.next (if_neg ?_), s.bistShown_spec fail⟩
    rintro (h | h)
    · exact h ht
    · exact Bool.false_ne_true (hdone.symm.trans h)

end Sys2Proof.Machine
end

section
/-! SUPPORT. A target's course through a heat (R363, R365, R367, R369, R371, R376, R382, R384, R388, R593). -/

namespace Sys2Proof.Machine

/-! ### What each operation does to the target that it finds -/

section

variable {s : State} {n hid inst : Nat} {g : Target}

theorem exec_prepareReceive_of (hn : s.hears n = true) (hg : (s.ni n).tgtOf inst hid = some g) (mem : Bool) :
    exec (.prepareReceive n hid inst mem) s = .next (if s.relayed 0 inst hid g = false ∨ 2 < g.st then s
      else (if mem && !g.items.isEmpty then s.memUncorr n else s).updNi n (fun x => x.setTgt (heatKey inst hid) (some { g.heard 0 with
        ans := some (s.voteOf n g mem), st := if s.voteOf n g mem = 0 then 2 else g.st }))) := by
  change guardUnit s (s.hears n) _ = _
  rw [guardUnit_of hn, hg]

/-- What a target answers to COMMIT with the instant `at'` (R369, R371). -/
def State.commitAns (s : State) (n : Nat) (g : Target) (t at' : Stamp) : Nat :=
  if s.niTimeOk n = false then 1 else if g.conflict then 4 else if g.lost then 5 else if 0 ≤ stampDiff t at' then 7 else 0

theorem exec_commitReceive_of (hn : s.hears n = true) (hg : (s.ni n).tgtOf inst hid = some g) (tt t : Stamp) {at' : Stamp}
    (hat : at' = if inst = s.instNum then s.heatT (hid % 64) else tt) : exec (.commitReceive n hid inst tt t) s = .next
    (if s.relayed 1 inst hid g = false ∨ 2 < g.st ∨ (inst ≠ s.instNum ∧ g.calls.contains (1, tt) = false) then s
      else s.updNi n (fun x => x.setTgt (heatKey inst hid) (some { g.heard 1 with
        ans := some (s.commitAns n g t at'), st := if s.commitAns n g t at' = 0 then 3 else g.st
        t := if s.commitAns n g t at' = 0 then at' else g.t }))) := by
  subst hat
  change guardUnit s (s.hears n) _ = _
  rw [guardUnit_of hn, hg]
  rfl

/-- Whether ARM has gone out for a heat (R374). -/
def State.armSent (s : State) (inst hid : Nat) (g : Target) : Bool :=
  if inst ≠ s.instNum then s.relayed 2 inst hid g else match s.heatNow hid with
    | some st => decide (6 ≤ st) && decide (st ≤ 9)
    | none => false

/-- The cycles that are left before the target's instant, in steps of 1/256,000. -/
def State.armRoom (s : State) (n per : Nat) (t : Stamp) (g : Target) : Int :=
  (stampDiff g.t t - (if g.ep then 2 * per else 0)) * s.mhz (niRec s.rom n).region

theorem exec_armReceive_of (hn : s.hears n = true) (hg : (s.ni n).tgtOf inst hid = some g) (per : Nat) (t : Stamp) :
    exec (.armReceive n hid inst per t) s = .next
      (if s.armSent inst hid g = false ∨ g.st ≠ 3 ∨ s.armRoom n per t g < 2 * 256000 then s
        else s.updNi n (fun x => x.setTgt (heatKey inst hid) (some { g.heard 2 with st := if g.lost then 6 else 4 }))) := by
  change guardUnit s (s.hears n) _ = _
  rw [guardUnit_of hn, hg]
  rfl

theorem State.armSent_own (h : inst = s.instNum) : s.armSent inst hid g = true ↔ ∃ st, s.heatNow hid = some st ∧ 6 ≤ st ∧ st ≤ 9 := by
  rw [State.armSent, if_neg (not_not_intro h)]
  cases s.heatNow hid with
  | none => simp
  | some st => simp

theorem State.armSent_far (h : inst ≠ s.instNum) : s.armSent inst hid g = s.relayed 2 inst hid g := if_pos h

theorem exec_heatApply_of (hn : s.hasNi n = true) (hg : (s.ni n).tgtOf inst hid = some g) (t : Stamp) (mem : Bool) :
    exec (.heatApply n hid inst t mem) s = .next (if g.st ≠ 4 ∨ stampDiff t g.t < 0 then s
      else if (mem && !g.items.isEmpty) = true then
        (s.updNi n (fun x => x.setTgt (heatKey inst hid) (some { g with st := 6, lost := true }))).memUncorr n
      else s.applyHeat n (heatKey inst hid) g g.t) := by
  change guardUnit s (s.hasNi n) _ = _
  rw [guardUnit_of hn, hg]

theorem exec_heatMiss_of (hn : s.hasNi n = true) (hg : (s.ni n).tgtOf inst hid = some g) (t : Stamp) :
    exec (.heatMiss n hid inst t) s = .next (if g.st ≠ 3 ∨ stampDiff t g.t < 0 then s
      else ((s.updNi n (fun x => x.setTgt (heatKey inst hid) (some { g with st := 6 }))).count (niB n)
        F.NI_HEAT_MISS_CNT_COUNT 1).alert n 9) := by
  change guardUnit s (s.hasNi n) _ = _
  rw [guardUnit_of hn, hg]

/-- Whether a heat has ended, as ABORT or its slot tells (R382). -/
def State.heatEnded (s : State) (inst hid : Nat) (g : Target) : Bool :=
  if inst ≠ s.instNum then s.relayed 3 inst hid g else match s.heatNow hid with
    | some st => st == 10
    | none => true

theorem exec_abortReceive_of (hn : s.hears n = true) (hg : (s.ni n).tgtOf inst hid = some g) :
    exec (.abortReceive n hid inst) s = .next (if s.heatEnded inst hid g = false ∨ g.st = 5 then s
      else s.dropTarget n (heatKey inst hid)) := by
  change guardUnit s (s.hears n) _ = _
  rw [guardUnit_of hn, hg]
  rfl

theorem State.heatEnded_own (h : inst = s.instNum) : s.heatEnded inst hid g = true ↔ ∀ st, s.heatNow hid = some st → st = 10 := by
  rw [State.heatEnded, if_neg (not_not_intro h)]
  cases s.heatNow hid with
  | none => simp
  | some st => simp

theorem State.heatEnded_far (h : inst ≠ s.instNum) : s.heatEnded inst hid g = s.relayed 3 inst hid g := if_pos h

end

/-- A guarded unit's branch that changes nothing. -/
theorem guardUnit_next {s t : State} {ok : Bool} (h : ok = true → t = s) : guardUnit s ok t = .next s := by
  cases ok with
  | false => rfl
  | true => exact congrArg Host.Outcome.next (h rfl)

/-! ### What a target is after it has applied or let go -/

theorem State.ni_farFloors (s : State) (k : Nat) (l : List Shadow) : ∀ n, (s.farFloors k l).ni n = s.ni n := by
  intro n
  rw [State.farFloors]
  split
  · exact s.wr_ni ..
  · rfl

theorem State.tgts_heatCode (s : State) (n code k m : Nat) : ((s.heatCode n code k).ni m).tgts = (s.ni m).tgts := by
  rw [State.heatCode, State.sbeEvent]
  split
  · rfl
  · by_cases h : m = n
    · rw [h, State.ni_updNi_same]
    · rw [State.ni_updNi_ne _ _ h]

theorem State.tgt_applyHeat (s : State) (n k : Nat) (g : Target) (t : Stamp) :
    ((s.applyHeat n k g t).ni n).tgt k = some { g with st := 5, items := [], win := false } := by
  rw [State.applyHeat, State.ni_farFloors, State.ni_updNi_same, NiSt.tgt_setTgt_same]

theorem State.tgt_dropTarget {s : State} {n k : Nat} {g : Target} (h : (s.ni n).tgt k = some g) : ((s.dropTarget n k).ni n).tgt k = none := by
  have hgone : (((s.updNi n (fun x => x.setTgt k none)).farFloors k g.items).ni n).tgt k = none := by
    rw [State.ni_farFloors, State.ni_updNi_same, NiSt.tgt_setTgt_same]
  rw [State.dropTarget, h]
  dsimp only
  split
  · rw [NiSt.tgt, State.tgts_heatCode]
    exact hgone
  · exact hgone

theorem NiSt.tgt_of_tgtOf {x : NiSt} {inst hid : Nat} {g : Target} (h : x.tgtOf inst hid = some g) :
    x.tgt (heatKey inst hid) = some g := by
  rw [NiSt.tgtOf] at h
  split at h
  next g' hg' =>
    rw [hg']
    split at h
    · exact h
    · cases h
  next => cases h

/-- Settles O29. -/
theorem targetFollowsItsHeat : Obligations.TargetFollowsItsHeat := by
  unfold Obligations.TargetFollowsItsHeat
  refine fun s n hid inst => ⟨fun h => ?_, fun h => ?_, fun k g hn hg hk => ?_⟩
  · have hself : ∀ (f : Target → State), guardUnit s (s.hears n) (match (s.ni n).tgtOf inst hid with
        | none => s
        | some g => f g) = .next s := fun f => by
      rcases h with h | h
      · rw [h]
        exact guardUnit_next fun _ => rfl
      · rw [h]
        rfl
    exact ⟨fun _ => hself _, fun _ _ => hself _, fun _ _ => hself _, hself _⟩
  · have hself : ∀ (f : Target → State), guardUnit s (s.hasNi n) (match (s.ni n).tgtOf inst hid with
        | none => s
        | some g => f g) = .next s := fun f => by
      rcases h with h | h
      · rw [h]
        exact guardUnit_next fun _ => rfl
      · rw [h]
        rfl
    exact ⟨fun _ _ => hself _, fun _ => hself _⟩
  · subst hk
    have hdeaf : ∀ {i : Instr} {t : State}, exec i s = guardUnit s (s.hears n) t → (s.hears n = true → exec i s = .next s) →
        exec i s = .next s := fun {i t} hi hh => by
      rcases Bool.eq_false_or_eq_true (s.hears n) with h | h
      · exact hh h
      · rw [hi, h]
        rfl
    refine ⟨fun mem v hh hst hr hv => ?_, fun mem h => hdeaf rfl fun hh => ?_, fun tt t h => hdeaf rfl fun hh => ?_,
      fun tt t at' hh hst hr hc hat => ?_, fun per t h => hdeaf rfl fun hh => ?_,
      fun per t room hh hst hown hfar hroom => ?_,
      fun t mem => ⟨fun h => ?_, fun h ht => ?_, fun h ht hm => ?_, fun h ht hm hi => ?_⟩, fun t h => ?_, fun t h ht => ?_,
      fun h => hdeaf rfl fun hh => ?_, fun hh hst hown hfar => ?_⟩
    · rw [exec_prepareReceive_of hh hg, if_neg (by rw [hr]; simp [hst]), hv]
    · rw [exec_prepareReceive_of hh hg, if_pos h.symm]
    · rw [exec_commitReceive_of hh hg tt t rfl, if_pos]
      rcases h with h | h | h
      · exact .inr (.inl h)
      · exact .inl h
      · exact .inr (.inr h)
    · have hgo : ¬ (s.relayed 1 inst hid g = false ∨ 2 < g.st ∨ (inst ≠ s.instNum ∧ g.calls.contains (1, tt) = false)) := by
        rintro (h | h | ⟨hi, h⟩)
        · exact Bool.false_ne_true (h.symm.trans hr)
        · omega
        · exact Bool.false_ne_true (h.symm.trans (hc hi))
      rw [exec_commitReceive_of hh hg tt t hat, if_neg hgo]
      refine ⟨fun h1 h2 h3 => ?_, fun e he => ?_⟩
      · have hv : s.commitAns n g t at' = if 0 ≤ stampDiff t at' then 7 else 0 := by simp [State.commitAns, h1, h2, h3]
        rw [hv]
        split <;> rfl
      · have hv : s.commitAns n g t at' = e := by
          rcases he with ⟨h1, rfl⟩ | ⟨h1, h2, rfl⟩ | ⟨h1, h2, h3, rfl⟩
          · simp [State.commitAns, h1]
          · simp [State.commitAns, h1, h2]
          · simp [State.commitAns, h1, h2, h3]
        have he0 : e ≠ 0 := by omega
        rw [hv, if_neg he0, if_neg he0]
        rfl
    · rw [exec_armReceive_of hh hg, if_pos]
      rcases h with h | ⟨hi, h⟩ | ⟨hi, h⟩
      · exact .inr (.inl h)
      · exact .inl ((State.armSent_far hi).trans h)
      · refine .inl (Bool.eq_false_of_not_eq_true fun hs => ?_)
        obtain ⟨st, hst, h1, h2⟩ := (State.armSent_own hi).mp hs
        have := h st hst
        omega
    · have hsent : s.armSent inst hid g = true := by
        by_cases hi : inst = s.instNum
        · exact (State.armSent_own hi).mpr (hown hi)
        · exact (State.armSent_far hi).trans (hfar hi)
      have hroom' : s.armRoom n per t g = room := by
        rw [hroom, State.armRoom]
      rw [exec_armReceive_of hh hg, hroom', hsent]
      exact ⟨fun hr => by rw [if_neg (by simp [hst]; omega)], fun hr => by rw [if_pos (.inr (.inr hr))]⟩
    · rw [exec_heatApply_of hn hg, if_pos (.inl h)]
    · rw [exec_heatApply_of hn hg, if_pos (.inr ht)]
    · have hexec : exec (.heatApply n hid inst t mem) s = .next (s.applyHeat n (heatKey inst hid) g g.t) := by
        rw [exec_heatApply_of hn hg, if_neg (by omega), if_neg]
        rcases hm with hm | hm <;> simp [hm]
      exact ⟨hexec, _, hexec, s.tgt_applyHeat n _ g g.t⟩
    · rw [exec_heatApply_of hn hg, if_neg (by omega), if_pos (by simp [hm, hi])]
    · rw [exec_heatMiss_of hn hg, if_pos h]
    · rw [exec_heatMiss_of hn hg, if_neg (by omega)]
    · rw [exec_abortReceive_of hh hg, if_pos]
      rcases h with h | ⟨hi, h⟩ | ⟨hi, st, hst, h⟩
      · exact .inr h
      · exact .inl ((State.heatEnded_far hi).trans h)
      · exact .inl (Bool.eq_false_of_not_eq_true fun he => h ((State.heatEnded_own hi).mp he st hst))
    · have hended : s.heatEnded inst hid g = true := by
        by_cases hi : inst = s.instNum
        · exact (State.heatEnded_own hi).mpr (hown hi)
        · exact (State.heatEnded_far hi).trans (hfar hi)
      have hexec : exec (.abortReceive n hid inst) s = .next (s.dropTarget n (heatKey inst hid)) := by
        rw [exec_abortReceive_of hh hg, if_neg (by simp [hended, hst])]
      exact ⟨hexec, _, hexec, State.tgt_dropTarget (NiSt.tgt_of_tgtOf hg)⟩

end Sys2Proof.Machine
end

section
/-! SUPPORT. Staging and reconciliation at a target (R355 to R357, R364, R365, R378, R379, R386, R389, R593). -/

namespace Sys2Proof.Machine

/-! ### `State.stageAct`, part by part -/

/-- A target of an earlier generation in the slot is let go. -/
def State.genKept (s : State) (n k gen : Nat) : State := match (s.ni n).tgt k with
  | some g => if g.gen = gen then s else s.dropTarget n k
  | none => s

/-- The target that an action reaches: the one that stands, or a new one. -/
def State.stageTgt (s : State) (n k : Nat) (m : StageMsg) : Target :=
  ((s.ni n).tgt k).getD { gen := m.hid / 64, st := 1, tnum := m.tnum, age := m.age, cut := (s.ni n).cut.contains (k, m.hid / 64) }

/-- NI `n` keeps target `g` in slot `k`. -/
def State.keepTgt (s : State) (n k : Nat) (g : Target) : State := s.updNi n (fun x => x.setTgt k (some g))

/-- A younger heat's target loses an item to an older one's (R378). -/
def State.displaced (s : State) (n k' : Nat) (g' : Target) (item : Nat × Nat) : State :=
  let s := s.keepTgt n k' { g' with
    conflict := true, win := g'.win && item != (7, 0), items := g'.items.filter (fun i => itemKey i.kind i.index != item) }
  if item = (7, 0) then s.heatCode n 2 k' else s

/-- What the heat that holds an item does to an arriving action: the state, the displaced heat's code, and whether it refuses. -/
def State.contend (s : State) (n k : Nat) (m : StageMsg) : State × Nat × Bool :=
  match (s.ni n).holder k (itemKey m.kind m.index) with
  | none => (s, 0, false)
  | some (k', g') =>
    if [3, 4, 6].contains g'.st || !older k m.age k' g'.age then (s, 0, true)
    else (s.displaced n k' g' (itemKey m.kind m.index), 65536 + k' % 64 + 64 * g'.gen, false)

/-- An action that holds its item is staged. -/
def State.stageItem (s : State) (n src k : Nat) (far : Bool) (m : StageMsg) (g : Target) (disp : Nat) :
    State × Option (Nat × Nat × Nat) :=
  if m.kind = 7 then
    let s := s.keepTgt n k { g with win := true, ep := true }
    if (s.ni n).epLow then (s, some (5, 0x09, disp))
    else if s.flag (niB n) F.NI_EP_CFG_TGT_EN = false then (s, some (5, 0x0D, disp))
    else (s.epWrite n src disp m, none)
  else
    let items := putShadow g.items { aseq := m.aseq, kind := m.kind, index := m.index
                                     data := s.stagedData n far m }
    if items.length ≠ g.items.length ∧ 512 ≤ (s.ni n).shadowUsed then (s.keepTgt n k g, some (2, 0, disp))
    else ((s.keepTgt n k { g with items := items }).farFloors k items, some (0, 0, disp))

theorem State.stageAct_eq (s : State) (n src : Nat) (m : StageMsg) {k : Nat} (hk : k = heatKey (src / 256) m.hid) {s1 : State}
    (h1 : s1 = s.genKept n k (m.hid / 64)) {far : Bool} (hf : far = (src / 256 != s1.instNum)) : s.stageAct n src m =
      match s1.targetCheck n far (s1.stageTgt n k m).items m with
      | some (st, d) => (s1.keepTgt n k (s1.stageTgt n k m), some (st, d, 0))
      | none => match s1.contend n k m with
        | (s2, disp, lost) => if lost = true then (s2.keepTgt n k (s1.stageTgt n k m), some (1, 0, 0))
          else s2.stageItem n src k far m (s1.stageTgt n k m) disp := by
  subst hk h1 hf
  rfl

theorem State.instNum_genKept (s : State) (n k gen : Nat) : (s.genKept n k gen).instNum = s.instNum := by
  have hfar : ∀ (a : State) (l : List Shadow), (a.farFloors k l).instNum = a.instNum := fun a l => by
    rw [State.farFloors]
    split
    · exact a.rd_wr_ne glbB glbB F.GLB_SC0_STAT_FLOOR_BUSY F.GLB_INST_NUM _ (by decide)
    · rfl
  rw [State.genKept]
  split
  · split
    · rfl
    · rw [State.dropTarget]
      split
      · rfl
      · dsimp only
        split
        · rw [State.heatCode, State.sbeEvent]
          split
          · exact hfar _ _
          · exact hfar _ _
        · exact hfar _ _
  · rfl

theorem State.genKept_eq (s : State) (n k gen : Nat) :
    s.genKept n k gen = if ((s.ni n).tgt k).any (fun y => y.gen != gen) then s.dropTarget n k else s := by
  rw [State.genKept]
  cases (s.ni n).tgt k with
  | none => rfl
  | some g =>
    by_cases h : g.gen = gen
    · simp [h]
    · simp [h]

/-! ### What an action meets -/

section

variable {s1 : State} {n k : Nat} {m : StageMsg}

theorem State.contend_of_free (h : (s1.ni n).holder k (itemKey m.kind m.index) = none) : s1.contend n k m = (s1, 0, false) := by
  rw [State.contend, h]

theorem State.contend_of_older {k' : Nat} {g' : Target} (h : (s1.ni n).holder k (itemKey m.kind m.index) = some (k', g'))
    (hold : g'.st = 3 ∨ g'.st = 4 ∨ g'.st = 6 ∨ older k m.age k' g'.age = false) : s1.contend n k m = (s1, 0, true) := by
  rw [State.contend, h]
  refine if_pos ?_
  rcases hold with h | h | h | h <;> simp [h]

theorem State.contend_of_younger {k' : Nat} {g' : Target} (h : (s1.ni n).holder k (itemKey m.kind m.index) = some (k', g'))
    (h3 : g'.st ≠ 3) (h4 : g'.st ≠ 4) (h6 : g'.st ≠ 6) (hold : older k m.age k' g'.age = true) :
    s1.contend n k m = (s1.displaced n k' g' (itemKey m.kind m.index), 65536 + k' % 64 + 64 * g'.gen, false) := by
  rw [State.contend, h]
  exact if_neg (by simp [h3, h4, h6, hold])

end

section

variable {s : State} {n src k disp : Nat} {far : Bool} {m : StageMsg} {g : Target}

theorem State.stageItem_of_room {items : List Shadow} (hk : m.kind ≠ 7) (hi : items = putShadow g.items
      { aseq := m.aseq, kind := m.kind, index := m.index, data := s.stagedData n far m })
    (hr : items.length = g.items.length ∨ (s.ni n).shadowUsed < 512) : s.stageItem n src k far m g disp =
      ((s.keepTgt n k { g with items := items }).farFloors k items, some (0, 0, disp)) := by
  subst hi
  exact (if_neg hk).trans (if_neg (by omega))

theorem State.stageItem_of_full (hk : m.kind ≠ 7) (hi : (putShadow g.items
      { aseq := m.aseq, kind := m.kind, index := m.index, data := s.stagedData n far m }).length ≠ g.items.length)
    (hr : 512 ≤ (s.ni n).shadowUsed) : s.stageItem n src k far m g disp = (s.keepTgt n k g, some (2, 0, disp)) :=
  (if_neg hk).trans (if_pos ⟨hi, hr⟩)

theorem State.stageItem_of_write (hk : m.kind = 7) {v : State} (hv : v = s.keepTgt n k { g with win := true, ep := true }) :
    s.stageItem n src k far m g disp = if (v.ni n).epLow = true then (v, some (5, 9, disp))
      else if v.flag (niB n) F.NI_EP_CFG_TGT_EN = false then (v, some (5, 0x0D, disp)) else (v.epWrite n src disp m, none) := by
  subst hv
  exact if_pos hk

end

/-! ### Messages -/

/-- The acknowledgement that an action has, where it does not wait for the endpoint. -/
def stageAnswered (n src : Nat) (m : StageMsg) : State × Option (Nat × Nat × Nat) → State
  | (s, some (st, d, disp)) => s.stageAck n src m.hid m.aseq st d disp
  | (s, none) => s

theorem exec_stageReceive_of {s s0 : State} {n : Nat} {h : Hdr} {l : List Byte} (hn : s.hasNi n = true)
    (hm : s.takeMsg n (fun h => h.ptype == 4 && h.op == 0) = some (h, l, s0)) : exec (.stageReceive n) s = .next
      (stageAnswered n h.src (stageMsg l) (s0.stageAct n h.src (stageMsg l))) := by
  change guardUnit s (s.hasNi n) _ = _
  rw [guardUnit_of hn, hm]
  rfl

theorem exec_reconcileReceive_of {s s1 : State} {n : Nat} {h : Hdr} {l : List Byte} (hn : s.hasNi n = true)
    (hm : s.takeMsg n (fun h => h.ptype == 4 && h.op == 8) = some (h, l, s1)) (t : Stamp) (mem : Bool) :
    exec (.reconcileReceive n t mem) s = .next (s1.reconcile n h.src (stageMsg l) t mem) := by
  change guardUnit s (s.hasNi n) _ = _
  rw [guardUnit_of hn, hm]

section

variable {s : State} {n src : Nat} {m : StageMsg} {t : Stamp} {mem : Bool}

theorem State.reconcile_probe (h : m.mode = 0) : s.reconcile n src m t mem = stageAnswered n src m (s.stageAct n src m) := by
  rw [State.reconcile, h]
  rfl

theorem State.reconcile_of_none (h : m.mode ≠ 0) (hg : (s.ni n).tgtOf (src / 256) m.hid = none) :
    s.reconcile n src m t mem = s.stageAck n src m.hid m.aseq 6 0 0 := by
  rw [State.reconcile]
  split
  next h0 => exact absurd h0 h
  next => rw [hg]

/-- Whether a reconcile of mode `mode` finds its target as it must be (R386). -/
def Target.mayReconcile (g : Target) (mode : Nat) : Bool := if mode = 2 then g.st == 1 && !g.lost else g.holds

theorem State.reconcile_of_some (h : m.mode ≠ 0) {g : Target} (hg : (s.ni n).tgtOf (src / 256) m.hid = some g) :
    s.reconcile n src m t mem =
      if g.mayReconcile m.mode = false then (s.dropTarget n (heatKey (src / 256) m.hid)).stageAck n src m.hid m.aseq 6 0 0
      else if m.mode = 3 then s.stageAck n src m.hid m.aseq 0 0 0
      else if (mem && !g.items.isEmpty) = true then
        ((s.dropTarget n (heatKey (src / 256) m.hid)).memUncorr n).stageAck n src m.hid m.aseq 6 0 0
      else (s.applyHeat n (heatKey (src / 256) m.hid) g t).stageAck n src m.hid m.aseq 0 0 0 := by
  rw [State.reconcile]
  split
  next h0 => exact absurd h0 h
  next =>
    rw [hg]
    rfl

end

/-- Settles O28. -/
theorem stagesAndReconcilesAtTargets : Obligations.StagesAndReconcilesAtTargets := by
  unfold Obligations.StagesAndReconcilesAtTargets
  refine ⟨fun s n => ⟨fun h => ?_, fun s0 s1 k h l m g far hn hm hml hfar hk hs1 hg => ?_⟩,
    fun s n t mem => ⟨fun h => ?_, fun s1 k h l m hn hm hml hk => ?_⟩⟩
  · rcases h with h | h
    · change guardUnit s (s.hasNi n) _ = _
      rw [h]
      rfl
    · refine guardUnit_next fun _ => ?_
      rw [h]
  · subst hml
    rw [← State.genKept_eq] at hs1
    have hg' : g = s1.stageTgt n k (stageMsg l) := hg
    have hfar' : far = (h.src / 256 != s1.instNum) := by rw [hfar, hs1, State.instNum_genKept]
    rw [exec_stageReceive_of hn hm, State.stageAct_eq s0 n h.src (stageMsg l) hk hs1 hfar', ← hg']
    refine ⟨fun st d hc => ?_, fun k' g' hc hh hold => ?_, fun s2 disp its hc hs2 hits => ?_⟩
    · rw [hc]
      rfl
    · rw [hc]
      dsimp only
      rw [State.contend_of_older hh hold]
      rfl
    · have hcontend : s1.contend n k (stageMsg l) = (s2, disp, false) := by
        rcases hs2 with ⟨hh, rfl, rfl⟩ | ⟨k', g', hh, h3, h4, h6, hold, rfl, v, rfl, rfl⟩
        · exact State.contend_of_free hh
        · exact State.contend_of_younger hh h3 h4 h6 hold
      rw [hc]
      dsimp only
      rw [hcontend]
      dsimp only
      rw [if_neg Bool.false_ne_true]
      refine ⟨fun h7 hr => ?_, fun h7 hne hr => ?_, fun h7 v hv => ?_⟩
      · rw [State.stageItem_of_room h7 hits hr]
        rfl
      · rw [State.stageItem_of_full h7 (hits ▸ hne) hr]
        rfl
      · rw [State.stageItem_of_write h7 hv]
        refine ⟨fun hlow => ?_, fun hlow hen => ?_, fun hlow hen => ?_⟩
        · rw [if_pos hlow]
          rfl
        · rw [if_neg (ne_true_of_eq_false hlow), if_pos hen]
          rfl
        · rw [if_neg (ne_true_of_eq_false hlow), if_neg (ne_false_of_eq_true hen)]
          rfl
  · rcases h with h | h
    · change guardUnit s (s.hasNi n) _ = _
      rw [h]
      rfl
    · refine guardUnit_next fun _ => ?_
      rw [h]
  · subst hml hk
    rw [exec_reconcileReceive_of hn hm]
    refine ⟨fun v st d disp h0 ha => ?_, fun v h0 ha => ?_, fun h0 hg => ?_, fun g hg => ⟨fun hst hl h3 => ?_, fun hm' => ⟨fun hi => ?_,
      fun hmem hi => ?_⟩, fun hm' => ?_⟩⟩
    · rw [State.reconcile_probe h0, ha]
      rfl
    · rw [State.reconcile_probe h0, ha]
      rfl
    · rw [State.reconcile_of_none h0 hg]
    · rw [State.reconcile_of_some (by omega) hg, if_neg (by simp [Target.mayReconcile, Target.holds, h3, hst, hl]), if_pos h3]
    · have hmay : g.mayReconcile (stageMsg l).mode = true := by
        rcases hm' with ⟨h1, h2, h3⟩ | ⟨h1, h2, h3⟩ <;> simp [Target.mayReconcile, Target.holds, h1, h2, h3]
      rw [State.reconcile_of_some (by omega) hg, if_neg (ne_false_of_eq_true hmay), if_neg (by omega),
        if_neg (by rcases hi with h | h <;> simp [h])]
    · have hmay : g.mayReconcile (stageMsg l).mode = true := by
        rcases hm' with ⟨h1, h2, h3⟩ | ⟨h1, h2, h3⟩ <;> simp [Target.mayReconcile, Target.holds, h1, h2, h3]
      rw [State.reconcile_of_some (by omega) hg, if_neg (ne_false_of_eq_true hmay), if_neg (by omega), if_pos (by simp [hmem, hi])]
    · have hmay : g.mayReconcile (stageMsg l).mode = false := by
        rcases hm' with ⟨h1 | h1, h2 | h2⟩ | ⟨h1, h2 | h2⟩ <;> simp [Target.mayReconcile, Target.holds, h1, h2]
      rw [State.reconcile_of_some (by omega) hg, if_pos hmay]

end Sys2Proof.Machine
end

section
/-! SUPPORT. A region's state changes; the floors, and the commands that packets bring and that start (R238, R240, R242, R482, R486 to
R493). -/

namespace Sys2Proof.Machine

/-! ### A region's state changes -/

/-- Beyond its own region's word, STAT.INST and the event unit a change of state writes no word; it touches neither ROM nor data. -/
theorem State.word_rgEvent (s : State) (g i : Nat) {o : Nat} (ho : o < evtB ∨ evtB + 0x10000 ≤ o) (hc : o ≠ evtB + (0x100 + 4 * g)) :
    (s.rgEvent g i).word o = s.word o :=
  ((s.keepsAt_raise (srcRegion g) i).1 o ho).trans (s.word_wr_ne _ _ _ hc)

/-- The levels of the lines are kept where the home region goes to sleep (R597). -/
def State.intSaved (s : State) (g st : Nat) : State :=
  if g = s.rom.homeRegion ∧ (st = 1 ∨ st = 2) ∧ (s.rgState g = 0 ∨ s.rgState g = 5) then { s with intKept := s.intLevels } else s

/-- STAT.INST follows the home region. -/
def State.homeShown (s : State) (g st : Nat) : State := if g = s.rom.homeRegion then s.wr pcrB F.PCR_STAT_INST st else s

theorem State.rgGo_eq (s : State) (g st : Nat) : s.rgGo g st = if s.rgState g = st then s
    else ((((s.intSaved g st).wr pcrB (F.PCR_RG_STAT_STATE.ix g) st).homeShown g st).rgEvent g 3) := rfl

theorem State.word_setKept (s : State) (m o : Nat) : ({ s with intKept := m } : State).word o = s.word o := rfl
theorem State.rom_setKept (s : State) (m : Nat) : ({ s with intKept := m } : State).rom = s.rom := rfl

theorem State.word_intSaved (s : State) (g st o : Nat) : (s.intSaved g st).word o = s.word o := by
  rw [State.intSaved]
  split
  · exact s.word_setKept _ o
  · rfl

theorem State.rom_intSaved (s : State) (g st : Nat) : (s.intSaved g st).rom = s.rom := by
  rw [State.intSaved]
  split
  · exact s.rom_setKept _
  · rfl

theorem State.word_homeShown (s : State) (g st : Nat) {o : Nat} (h : o ≠ pcrB + 4) : (s.homeShown g st).word o = s.word o := by
  rw [State.homeShown]
  split
  · exact s.word_wr_ne _ _ _ h
  · rfl

theorem State.rom_homeShown (s : State) (g st : Nat) : (s.homeShown g st).rom = s.rom := by
  rw [State.homeShown]
  split
  · exact s.wr_rom ..
  · rfl

theorem State.word_rgGo (s : State) (g st : Nat) {o : Nat} (ho : o < evtB) (h1 : o ≠ pcrB + 4) (h2 : o ≠ pcrB + (0xA0 + 4 * g)) :
    (s.rgGo g st).word o = s.word o := by
  rw [State.rgGo_eq]
  split
  · rfl
  · rw [State.word_rgEvent _ _ _ (.inl ho) (by omega), State.word_homeShown _ _ _ h1, State.word_wr_ne _ _ _ _ h2, State.word_intSaved]

theorem State.rom_rgGo (s : State) (g st : Nat) : (s.rgGo g st).rom = s.rom := by
  have hn : ∀ a : State, (a.rgEvent g 3).rom = a.rom := fun a => by
    have e := congrArg State.rom (a.near_raise (srcRegion g) 3)
    exact e
  rw [State.rgGo_eq]
  split
  · rfl
  · rw [hn, State.rom_homeShown, State.wr_rom, State.rom_intSaved]

/-- A region's word holds the state that it has gone to (R506). -/
theorem State.rgState_rgGo_same (s : State) {g st : Nat} (hg : g < 16) (hst : st < 8) : (s.rgGo g st).rgState g = st := by
  rw [State.rgGo_eq]
  split
  next h => exact h
  · rw [State.rgState, State.rd, State.word_rgEvent _ _ _ (.inl (by show 0x40000 + (0xA0 + 4 * g) < 0x50000; omega)) (by
      show 0x40000 + (0xA0 + 4 * g) ≠ 0x50000 + (0x100 + 4 * g)
      omega), State.word_homeShown _ _ _ (by show 0x40000 + (0xA0 + 4 * g) ≠ 0x40000 + 4; omega), ← State.rd]
    exact (State.rd_wr_same _ _ _ _ (show 0 + 3 ≤ 32 by decide)).trans (Nat.mod_eq_of_lt hst)

theorem State.rgState_rgGo_ne (s : State) {g h st : Nat} (hh : h < 16) (hne : h ≠ g) : (s.rgGo g st).rgState h = s.rgState h := by
  rw [State.rgState, State.rgState, State.rd, State.rd, s.word_rgGo g st (by show 0x40000 + (0xA0 + 4 * h) < 0x50000; omega)
    (by show 0x40000 + (0xA0 + 4 * h) ≠ 0x40000 + 4; omega) (by show 0x40000 + (0xA0 + 4 * h) ≠ 0x40000 + (0xA0 + 4 * g); omega)]

/-! ### Regions that a mask rouses -/

theorem State.word_rouse (s : State) (mask : Nat) {o : Nat} (ho : o < evtB) (h1 : o ≠ pcrB + 4)
    (h2 : ∀ g, g < s.rom.regions.length → o ≠ pcrB + (0xA0 + 4 * g)) : (s.rouse mask).word o = s.word o := by
  have hround : ∀ m, m ≤ s.rom.regions.length →
      (forAll m (fun g a => if bitAt mask g ∧ a.rgState g = 1 then a.rgGo g 0 else a) s).word o = s.word o := by
    intro m hm
    induction m with
    | zero => rfl
    | succ m ih =>
      rw [forAll_succ]
      split
      · rw [State.word_rgGo _ m 0 ho h1 (h2 m (by omega)), ih (by omega)]
      · exact ih (by omega)
  exact hround _ le_rfl

/-- No region that the mask names stays in IDLE. -/
theorem State.rgState_rouse {s : State} {mask : Nat} (hlen : s.rom.regions.length ≤ 16) {g : Nat} (hg : g < s.rom.regions.length)
    (hm : bitAt mask g = true) : (s.rouse mask).rgState g ≠ 1 := by
  have hforAll : s.rouse mask = forAll s.rom.regions.length (fun g a => if bitAt mask g ∧ a.rgState g = 1 then a.rgGo g 0 else a) s := rfl
  rw [hforAll]
  refine (forAll_each (f := fun g a => if bitAt mask g ∧ a.rgState g = 1 then a.rgGo g 0 else a)
    (P := fun g t => bitAt mask g = true → t.rgState g ≠ 1) (Q := fun _ => True) trivial (fun _ _ _ _ => trivial)
    (fun i a hi _ hmi => ?_) (fun i j a hj hi _ ha hmj => ?_)).2 g hg hm
  · split
    · rw [a.rgState_rgGo_same (by omega) (by decide)]
      decide
    next h => exact fun h1 => h ⟨hmi, h1⟩
  · split
    · rw [a.rgState_rgGo_ne (by omega) (by omega)]
      exact ha hmj
    · exact ha hmj

/-! ### The floors -/

/-- The regions that a granted reservation crosses. -/
def State.runMask (s : State) : Nat := (s.grantedFlows none).foldl (fun a f => a ||| (s.entry f.1 f.2).regmask) 0

/-- Every region has its bound floor (R238). -/
def State.floorsSet (s : State) : State :=
  forAll s.rom.regions.length (fun g a => a.wr pcrB (F.PCR_SC0_FLOOR_FLOOR_MHZ.ix g) (s.floorOf g s.fitEntries)) s

/-- The regions that SC0-fit entries cross are pinned (R242). -/
def State.floorsPinned (s : State) : State :=
  s.floorsSet.wr pcrB F.PCR_SC0_PIN_PIN (s.fitEntries.foldl (fun a x => a ||| x.2.2.regmask) 0)

/-- The floors are no longer owed. -/
def State.floorsDone (s : State) : State := { s.wr glbB F.GLB_SC0_STAT_FLOOR_BUSY 0 with floorStep := 0, floorRun := false }

theorem State.floors_of_owed {s : State} (h : s.flag glbB F.GLB_SC0_STAT_FLOOR_BUSY = true) : s.floors = s.floorsPinned.holdRuns.floorsDone := by
  rw [State.floors, if_neg (ne_false_of_eq_true h)]
  rfl

theorem State.holdRuns_eq (s : State) : s.holdRuns = (s.wr pcrB F.PCR_SC0_PIN_RUN s.runMask).rouse s.runMask := rfl

theorem State.rom_floorsPinned (s : State) : s.floorsPinned.rom = s.rom := by
  have hround : ∀ m, (forAll m (fun g a => a.wr pcrB (F.PCR_SC0_FLOOR_FLOOR_MHZ.ix g) (s.floorOf g s.fitEntries)) s).rom = s.rom := by
    intro m
    induction m with
    | zero => rfl
    | succ m ih => rw [forAll_succ, State.wr_rom, ih]
  rw [State.floorsPinned, State.wr_rom]
  exact hround _

theorem State.rd_floorsSet (s : State) : ∀ g, g < s.rom.regions.length →
    s.floorsSet.rd pcrB (F.PCR_SC0_FLOOR_FLOOR_MHZ.ix g) = s.floorOf g s.fitEntries % 2 ^ (F.PCR_SC0_FLOOR_FLOOR_MHZ.ix g).w :=
  (forAll_each (f := fun g a => a.wr pcrB (F.PCR_SC0_FLOOR_FLOOR_MHZ.ix g) (s.floorOf g s.fitEntries)) (Q := fun _ => True)
    (P := fun g t => t.rd pcrB (F.PCR_SC0_FLOOR_FLOOR_MHZ.ix g) = s.floorOf g s.fitEntries % 2 ^ (F.PCR_SC0_FLOOR_FLOOR_MHZ.ix g).w)
    trivial (fun _ _ _ _ => trivial) (fun i a _ _ => a.rd_wr_same _ _ _ (show 0 + 12 ≤ 32 by decide))
    (fun i j a hj _ _ ha => (a.rd_wr_ne _ _ _ _ _ (by
      show 0x40000 + (0x100 + 4 * j) ≠ 0x40000 + (0x100 + 4 * i)
      omega)).trans ha)).2

section

variable {s : State} (hlen : s.rom.regions.length ≤ 16)

include hlen

theorem State.word_holdRuns {o : Nat} (ho : o < evtB) (h1 : o ≠ pcrB + 4) (h2 : ∀ g, g < 16 → o ≠ pcrB + (0xA0 + 4 * g))
    (h3 : o ≠ pcrB + 0x140) : s.holdRuns.word o = s.word o :=
  (State.word_rouse (s.wr pcrB F.PCR_SC0_PIN_RUN s.runMask) s.runMask ho h1 (fun g hg => h2 g (by
    rw [State.wr_rom] at hg
    exact lt_of_lt_of_le hg hlen))).trans
    (s.word_wr_ne pcrB F.PCR_SC0_PIN_RUN s.runMask h3)

theorem State.word_holdRuns_pin : s.holdRuns.word (pcrB + 0x140) = (s.wr pcrB F.PCR_SC0_PIN_RUN s.runMask).word (pcrB + 0x140) := by
  rw [State.holdRuns_eq, State.word_rouse _ _ (by decide) (by decide) (fun g hg => ?_)]
  have : g < 16 := lt_of_lt_of_le hg hlen
  show 0x40000 + 0x140 ≠ 0x40000 + (0xA0 + 4 * g)
  omega

theorem State.rd_holdRuns_pin {f : Fld} (hf : f.off = 0x140) :
    s.holdRuns.rd pcrB f = (s.wr pcrB F.PCR_SC0_PIN_RUN s.runMask).rd pcrB f := by
  rw [State.rd, State.rd, hf, State.word_holdRuns_pin hlen]

/-- A granted reservation's regions are not in IDLE. -/
theorem State.rgState_holdRuns {g : Nat} (hg : g < s.rom.regions.length) (hb : bitAt (s.holdRuns.rd pcrB F.PCR_SC0_PIN_RUN) g = true) :
    s.holdRuns.rgState g ≠ 1 := by
  have hrd : s.holdRuns.rd pcrB F.PCR_SC0_PIN_RUN = s.runMask % 2 ^ 16 :=
    (State.rd_holdRuns_pin hlen rfl).trans (s.rd_wr_same pcrB F.PCR_SC0_PIN_RUN _ (by decide))
  rw [hrd] at hb
  have hg16 : g < 16 := lt_of_lt_of_le hg hlen
  have hm : bitAt s.runMask g = true := by
    rw [bitAt_eq_testBit, Nat.testBit_mod_two_pow] at hb
    rw [bitAt_eq_testBit]
    exact ((Bool.and_eq_true ..).mp hb).2
  rw [State.holdRuns_eq]
  exact State.rgState_rouse (by rw [State.wr_rom]; exact hlen) (by rw [State.wr_rom]; exact hg) hm

end

theorem State.floors_spec {s : State} (hlen : s.rom.regions.length ≤ 16) : 
    (∀ g, g < s.rom.regions.length →
      s.floorsPinned.holdRuns.floorsDone.rd pcrB (F.PCR_SC0_FLOOR_FLOOR_MHZ.ix g)
          = s.floorOf g s.fitEntries % 2 ^ (F.PCR_SC0_FLOOR_FLOOR_MHZ.ix g).w
        ∧ (bitAt (s.floorsPinned.holdRuns.floorsDone.rd pcrB F.PCR_SC0_PIN_RUN) g = true →
          s.floorsPinned.holdRuns.floorsDone.rgState g ≠ 1))
      ∧ s.floorsPinned.holdRuns.floorsDone.rd pcrB F.PCR_SC0_PIN_PIN
        = (s.fitEntries.foldl (fun a x => a ||| x.2.2.regmask) 0) % 2 ^ F.PCR_SC0_PIN_PIN.w
      ∧ s.floorsPinned.holdRuns.floorsDone.rd glbB F.GLB_SC0_STAT_FLOOR_BUSY = 0 := by
  have hdone : ∀ (u : State) (f : Fld), u.floorsDone.rd pcrB f = u.rd pcrB f := fun u f =>
    u.rd_wr_ne glbB pcrB F.GLB_SC0_STAT_FLOOR_BUSY f 0 (by
      have hoff : glbB + F.GLB_SC0_STAT_FLOOR_BUSY.off < pcrB := by decide
      exact fun e => absurd (e ▸ Nat.le_add_right pcrB f.off) (Nat.not_le_of_lt hoff))
  have hlen' : s.floorsPinned.rom.regions.length ≤ 16 := by rw [s.rom_floorsPinned]; exact hlen
  refine ⟨fun g hg => ⟨?_, fun hb => ?_⟩, ?_, ?_⟩
  · have hg16 : g < 16 := lt_of_lt_of_le hg hlen
    rw [hdone, State.rd, State.word_holdRuns hlen' (by show 0x40000 + (0x100 + 4 * g) < 0x50000; omega)
      (by show 0x40000 + (0x100 + 4 * g) ≠ 0x40000 + 4; omega)
      (fun h hh => by show 0x40000 + (0x100 + 4 * g) ≠ 0x40000 + (0xA0 + 4 * h); omega)
      (by show 0x40000 + (0x100 + 4 * g) ≠ 0x40000 + 0x140; omega), ← State.rd, State.floorsPinned, State.rd_wr_ne _ _ _ _ _ _ (by
        show 0x40000 + (0x100 + 4 * g) ≠ 0x40000 + 0x140
        omega), s.rd_floorsSet g hg]
  · rw [hdone] at hb
    rw [State.rgState, hdone]
    exact State.rgState_holdRuns hlen' (by rw [s.rom_floorsPinned]; exact hg) hb
  · rw [hdone, State.rd_holdRuns_pin hlen' rfl, State.rd_wr_apart _ pcrB F.PCR_SC0_PIN_RUN F.PCR_SC0_PIN_PIN _ rfl (by decide) (by decide)]
    exact State.rd_wr_same _ pcrB F.PCR_SC0_PIN_PIN _ (by decide)
  · generalize s.floorsPinned.holdRuns = u
    exact u.rd_wr_same glbB F.GLB_SC0_STAT_FLOOR_BUSY 0 (by decide)

/-! ### Commands that packets bring -/

/-- A credit that goes back changes ports only. -/
theorem State.credit_ports (s : State) (o : Port) (vc : Nat) : ∃ ps, s.credit o vc = { s with ports := ps } := by
  unfold State.credit
  split
  · exact ⟨s.ports, rfl⟩
  · exact ⟨_, rfl⟩

/-- Credits that go back change ports only. -/
theorem State.credits_ports (s : State) (o : Port) (vc k : Nat) : { s.credits o vc k with ports := s.ports } = s := by
  have hfold : ∀ (l : List Nat) (a : State), { a with ports := s.ports } = s →
      { l.foldl (fun a _ => a.credit o vc) a with ports := s.ports } = s := by
    intro l
    induction l with
    | nil => exact fun _ h => h
    | cons x r ih =>
      intro a h
      obtain ⟨ps, hps⟩ := a.credit_ports o vc
      refine ih _ ?_
      show { a.credit o vc with ports := s.ports } = s
      rw [hps]
      exact h
  exact hfold _ s rfl

/-- What dropping a received packet leaves of its NI: what it keeps beside its packets and its receivers. -/
theorem State.dropPk_spec (s : State) (n k : Nat) : { s.dropPk n k with nis := s.nis, ports := s.ports } = s
    ∧ ((s.dropPk n k).ni n).inbox = (s.ni n).inbox := by
  rw [State.dropPk]
  dsimp only
  split
  · exact ⟨rfl, rfl⟩
  next p _ =>
    have hinbox : (((s.ni n).setPk k none).stopRx p).inbox = (s.ni n).inbox := by
      rw [NiSt.stopRx]
      split
      · rfl
      · rfl
    have hports := (s.setNi n (((s.ni n).setPk k none).stopRx p)).credits_ports (.ni p.plane n) p.vc p.owed
    have hset : ((s.setNi n (((s.ni n).setPk k none).stopRx p)).ni n) = ((s.ni n).setPk k none).stopRx p := s.ni_setNi_same n _
    have hbase : { s.setNi n (((s.ni n).setPk k none).stopRx p) with nis := s.nis } = s := rfl
    generalize s.setNi n (((s.ni n).setPk k none).stopRx p) = a at hports hset hbase
    generalize a.credits (.ni p.plane n) p.vc p.owed = b at hports
    constructor
    · rw [← hbase, ← hports]
    · rw [← hinbox, ← hset, ← hports]
      rfl

theorem State.authNode_of_words {s w : State} (h : ∀ o, w.word o = s.word o) (src : Nat) : w.authNode src = s.authNode src := by
  have hrd : ∀ (b : Nat) (f : Fld), w.rd b f = s.rd b f := fun b f => by rw [State.rd, State.rd, h]
  rw [State.authNode, State.authNode, State.authBit, State.authBit, State.instNum, State.instNum, State.flag, State.flag]
  simp only [hrd]

theorem exec_cmdPacketReceive_of {s w : State} {n k : Nat} {p : Pk} {c : Cmd} (hn : s.hasNi n = true)
    (hk : (s.ni n).nextCmd = some k) (hp : (s.ni n).pk k = some p)
    (hc : c = { id := 0, path := 2, src := p.hdr.src, tag := p.hdr.tag, gen := p.hdr.gen, bytes := p.got
                carried := some p.got.length, t0 := w.clock })
    (hw : w = (s.setNi n { s.ni n with inbox := (s.ni n).inbox.filter (fun j => j != k) }).dropPk n k) :
    exec (.cmdPacketReceive n) s = .next (if w.authNode p.hdr.src = false then w.sendReply c 0x0010 []
      else if 32 ≤ (w.cmdQ.filter (fun c => c.path == 2)).length then
        ((w.count strB F.STR_QFULL_CNT_COUNT 1).wr strB F.STR_CMD_STAT_QFULL 1).sendReply c 5 []
      else w.submit c) := by
  subst hc hw
  change guardUnit s (s.hasNi n) _ = _
  rw [guardUnit_of hn, State.cmdReceive, hk]
  dsimp only
  rw [hp]

theorem State.cmdStart_blocked {s : State} {x : Nat} {c : Cmd} (hc : s.cmdQ.find? (fun c => c.id == x) = some c)
    (h : s.cmdQ.any (fun d => d.sameStream c && decide (d.id < x)) = true
      ∨ s.active.any (fun d => d.sameStream c && (c.fence || !d.begun)) = true ∨ 16 ≤ s.active.length
      ∨ s.floorRun = true ∧ c.op ≠ 0) : s.cmdStart x = s := by
  rw [State.cmdStart, hc]
  refine if_neg fun hgo => ?_
  simp only [Bool.and_eq_true, Bool.not_eq_true', decide_eq_true_eq, Bool.or_eq_true, beq_iff_eq] at hgo
  obtain ⟨⟨⟨h1, h2⟩, h3⟩, h4⟩ := hgo
  rcases h with h | h | h | ⟨hr, hop⟩
  · exact Bool.false_ne_true (h1.symm.trans h)
  · exact Bool.false_ne_true (h2.symm.trans h)
  · omega
  · rcases h4 with h4 | h4
    · exact Bool.false_ne_true (h4.symm.trans hr)
    · exact hop h4

/-- Settles O17. -/
theorem floorsAndCommandFrontEnd : Obligations.FloorsAndCommandFrontEnd := by
  unfold Obligations.FloorsAndCommandFrontEnd
  refine ⟨fun s => ⟨fun h => congrArg Host.Outcome.next (if_pos h), fun h hlen => ?_⟩,
    fun s => ⟨fun n hn h => ?_, fun n k p c w hn hk hp hc hw => ?_, fun x h => ?_, fun x st c hc hst => ⟨fun h1 h2 h3 h4 => ⟨fun h0 => ?_,
      fun h0 => ?_⟩, fun h => ?_⟩⟩⟩
  · obtain ⟨hf, hp, hb⟩ := State.floors_spec hlen
    exact ⟨_, congrArg Host.Outcome.next (State.floors_of_owed h), hf, hp, hb, rfl, rfl⟩
  · change guardUnit s (s.hasNi n) _ = _
    rw [guardUnit_of hn, State.cmdReceive, h]
  · obtain ⟨hrest, hinbox⟩ := State.dropPk_spec (s.setNi n { s.ni n with inbox := (s.ni n).inbox.filter (fun j => j != k) }) n k
    rw [← hw] at hrest hinbox
    have hclock : w.clock = s.clock := by
      have e := congrArg State.clock hrest
      exact e
    have hq : w.cmdQ = s.cmdQ := by
      have e := congrArg State.cmdQ hrest
      exact e
    have hnext : w.cmdNext = s.cmdNext := by
      have e := congrArg State.cmdNext hrest
      exact e
    have hauth : w.authNode p.hdr.src = s.authNode p.hdr.src := State.authNode_of_words (fun o => by
      have e := congrArg (State.word · o) hrest
      exact e) _
    have hexec := exec_cmdPacketReceive_of hn hk hp (hclock ▸ hc) hw
    rw [hauth, hq] at hexec
    rw [hexec]
    refine ⟨fun ha hl => ?_, fun ha => ?_, fun ha hl => ?_⟩
    · rw [if_neg (ne_false_of_eq_true ha), if_neg (Nat.not_le_of_lt hl)]
      refine ⟨rfl, _, rfl, congrArg (· + 1) hnext, ?_, ?_⟩
      · rw [State.submit, hq, hnext]
      · rw [State.ni_setNi_same] at hinbox
        exact hinbox
    · rw [if_pos ha]
    · rw [if_neg (ne_false_of_eq_true ha), if_pos hl]
  · refine congrArg Host.Outcome.next ?_
    rw [State.cmdStart, h]
  · exact exec_cmdStart_of_startCheck_eq_zero hc h1 h2 h3 h4 (hst.symm.trans h0)
  · exact exec_cmdStart_of_startCheck_ne_zero hc h1 h2 h3 h4 hst.symm h0
  · exact congrArg Host.Outcome.next (State.cmdStart_blocked hc h)

end Sys2Proof.Machine
end

section
/-! SUPPORT. A region whose number is far above 15, so that its state stands in a cause register of the event unit: why the statement
about sleep and wake does not hold of every state (R506, R517, R595). -/

namespace Sys2Proof.Machine

/-- The region whose state word is GL_CAUSE[7]: 0x40000 + 0xA0 + 4 × 16431 is 0x50000 + 0x140 + 4 × 7. -/
abbrev farRegion : Nat := 16431

/-- An entry into IDLE is on its way in that region, which a committed heat holds. -/
def farRegionState : State :=
  { rom := { nis := [{ region := farRegion }], regions := List.replicate 16432 {} }, straps := {}
    csr := [(hcuB + F.HCU_SLOT0_STATE.off, 4)], rgs := [(farRegion, { goal := some 1 })], heats := [(0, { tgts := [0] })] }

theorem rgState_farRegion (s : State) : s.rgState farRegion = bitsAt (s.word (evtB + (F.EVT_GL_CAUSE_C.ix 7).off)).toNat 0 3 := rfl

/-- The event of an aborted entry reads as another state of that region. -/
theorem State.rgState_abortNote (s : State) : s.abortNote.rgState farRegion ≠ 0 := by
  have hcause : bitAt (s.abortNote.rd evtB (F.EVT_GL_CAUSE_C.ix 7)) 0 = true :=
    State.bitAt_rd_raise _ (x := srcGlobal 7) (by decide) (by decide) (by decide)
  intro h
  rw [State.bitAt_rd _ _ _ (by decide)] at hcause
  have hstate : bitAt (s.abortNote.rd pcrB (F.PCR_RG_STAT_STATE.ix farRegion)) 0 = true := by
    rw [State.bitAt_rd _ _ _ (by decide)]
    exact hcause
  rw [show s.abortNote.rd pcrB (F.PCR_RG_STAT_STATE.ix farRegion) = 0 from h] at hstate
  exact absurd hstate (by decide)

theorem State.Near.pacer {s t : State} (h : s.Near t) : t.pacer = s.pacer := by
  have e := congrArg State.pacer h
  exact e

theorem State.pacer_abortOne_of_idle {s : State} {g : Nat} (h : s.rgState g = 0) : (s.abortOne g).pacer = s.pacer := by
  unfold State.abortOne
  rw [if_neg (show ¬ s.rgState g = 5 by rw [h]; decide)]
  split
  · rfl
  · rfl

theorem State.pacer_abortNote (s : State) : s.abortNote.pacer = s.pacer := by
  rw [State.abortNote, (State.near_glEvent _ 7 0).pacer, State.wr_pacer]

theorem State.arrived_of_quiet {s : State} (hc : s.pacer.cmds = []) (hi : s.pacer.inst = none) : s.arrived = s := by
  have hcheck : s.pwrCheck = s := by unfold State.pwrCheck; rw [hc]; rfl
  have hnext : s.instNext = s := by unfold State.instNext; rw [hi]
  rw [State.arrived, hcheck, hnext, hnext]

/-- A hold aborts an entry into IDLE, where no command of the Pacer waits. -/
theorem exec_closingCollect_of_aborted {s : State} {g : Nat} (hg : s.hasRegion g = true) (h0 : s.rgState g = 0)
    (hgoal : (s.rg g).goal = some 1) (hheld : s.heldFrom g 1 = true) (hi : s.pacer.inst = none) (hc : s.pacer.cmds = []) :
    exec (.closingCollect g) s = .next (s.abortOne g).abortNote := by
  have h5 : ¬ s.rgState g = 5 := by rw [h0]; decide
  have hpacer : (s.abortOne g).abortNote.pacer = s.pacer := (State.pacer_abortNote _).trans (State.pacer_abortOne_of_idle h0)
  have hent : s.entering g = true := by rw [State.entering, if_neg h5, hgoal]; rfl
  have habort : s.abortEntry g 0x37 = (s.abortOne g).abortNote := by
    rw [State.abortEntry, if_neg (ne_false_of_eq_true hent)]
    generalize (s.abortOne g).abortNote = v at hpacer ⊢
    show (if v.pacer.inst.isSome = true then v.abortInst 0x37 else v.pwrFail g 0x37) = v
    rw [hpacer, hi, if_neg (by decide), State.pwrFail, hpacer, hc]
    rfl
  have htry : s.idleTry g = (s.abortOne g).abortNote := by
    rw [State.idleTry, if_neg (by rw [hgoal, h0]; decide), if_pos hheld, habort]
  change guardUnit s (s.hasRegion g) _ = _
  rw [guardUnit_of hg, State.collect, if_neg (fun h => h5 h.1), if_neg (fun h => h5 h.1), htry,
    State.arrived_of_quiet (hpacer ▸ hc) (hpacer ▸ hi)]

/-- Refutes O23: the clause about an entry into IDLE that a hold aborts says nothing of the region's number. In a ROM with 16,432
regions the last one's state word is a cause register of the event unit, and the entry's own event changes it. -/
theorem not_regionsSleepAndWake : ¬ Obligations.RegionsSleepAndWake := by
  unfold Obligations.RegionsSleepAndWake
  intro h
  have hst : farRegionState.rgState farRegion = 0 := by decide +kernel
  have hheld : farRegionState.heldFrom farRegion 1 = true := by decide +kernel
  have hreg : farRegionState.hasRegion farRegion = true :=
    decide_eq_true (by rw [show farRegionState.rom.regions.length = 16432 from List.length_replicate]; decide)
  obtain ⟨t, ht, hzero, -⟩ := ((h.1 farRegionState farRegion).2.2.2.1 hreg hst rfl rfl rfl).2.2 hheld
  have hexec := exec_closingCollect_of_aborted hreg hst rfl hheld rfl rfl
  rw [hexec] at ht
  rw [← Host.Outcome.next.inj ht] at hzero
  exact State.rgState_abortNote _ hzero

end Sys2Proof.Machine
end

section
/-! SUPPORT. A region whose number is far above 15, so that its state stands outside the Pacer's block: why the statement about resets
does not hold of every state (R506, R543). -/

namespace Sys2Proof.Machine

/-- The region whose state word is 0x50024: an offset of the event unit's block at which no register stands. -/
abbrev outerRegion : Nat := 16353

/-- That region is in IDLE. -/
def outerRegionState : State := { rom := { regions := List.replicate 16354 {} }, straps := {}, csr := [(0x50024, 1)] }

theorem resetWord_gap (r : Rom) (st : Straps) : resetWord r st 0x50024 = 0 := rfl

theorem keptWord_gap (r : Rom) (st : Straps) (keep : FSpec → Bool) (w : Word) : keptWord r st keep 0x50024 w = 0 := rfl

theorem rgState_outerRegion (s : State) : s.rgState outerRegion = bitsAt (s.word 0x50024).toNat 0 3 := rfl

/-- Refutes O42: the clause about HRST_N says that every region of the ROM keeps its state, and that a word outside the Pacer's block
is at its reset value or keeps sticky fields. In a ROM with 16,354 regions the last one's state word is outside the Pacer's block, at an
offset that holds no register, so it cannot be both. -/
theorem not_resetsReleaseAndStartup : ¬ Obligations.ResetsReleaseAndStartup := by
  unfold Obligations.ResetsReleaseAndStartup
  intro h
  obtain ⟨-, t, -, -, -, -, -, -, -, -, -, -, -, hrgs, -, -, -, -, -, -, hwords⟩ := h.1 outerRegionState
  have hlen : outerRegion < outerRegionState.rom.regions.length := by
    rw [show outerRegionState.rom.regions.length = 16354 from List.length_replicate]
    decide
  have hzero : t.word 0x50024 = 0 := by
    rcases hwords 0x50024 (by decide) (by decide) (fun n => by show 0x50024 ≠ 0x400000 + n * 0x4000 + _; omega) with hw | ⟨w, hw⟩
    · rw [hw, resetWord_gap]
    · rw [hw, keptWord_gap]
  have hkept : t.rgState outerRegion = 1 := (hrgs outerRegion hlen).2
  rw [rgState_outerRegion, hzero] at hkept
  exact absurd hkept (by decide)

end Sys2Proof.Machine
end

section
/-! SUPPORT. A credit load that loads nothing but ends a plane's reset: why the statement about credits, stations and isolation does not
hold of every state (R159, R414). -/

namespace Sys2Proof.Machine

/-- A plane whose only port has loaded its credits, with a PLANE_RESET that waits for just that. -/
def loadedPlaneState : State :=
  { rom := { nis := [{}] }, straps := {}, ports := [(portKey (.ni 0 0), { loaded := true })], plst := [(0, { reset := some 0 })] }

/-- The PLANE_RESET that a command leaves waiting. -/
def planeResetAfter (o : Host.Outcome State Fault Refusal) : Option Nat := match o with
  | .next t => (t.pln 0).reset
  | _ => none

/-- Refutes O10: the clause about a port that loads nothing leaves the plane's reset out of account. The port has its credits
already, the load still finds the whole plane loaded, and the PLANE_RESET that waits for it ends. -/
theorem not_creditsStationsAndIsolation : ¬ Obligations.CreditsStationsAndIsolation := by
  unfold Obligations.CreditsStationsAndIsolation
  intro h
  obtain ⟨-, -, -, -, -, hnone⟩ := h.1 loadedPlaneState (.ni 0 0) (by decide)
  have hsame := hnone fun f _ => Or.inr (Or.inr (Or.inr (Or.inr (Or.inl (by decide)))))
  have hafter : planeResetAfter (exec (.creditLoad (.ni 0 0)) loadedPlaneState) = none := by decide +kernel
  rw [hsame] at hafter
  exact absurd hafter (by decide)

end Sys2Proof.Machine
end

section
/-! SUPPORT. The endpoint's events, the rise of NI_UP, stalls, and what EP_RST_N drops (R57, R95 to R98, R103, R218). -/

namespace Sys2Proof.Machine

namespace NiSt.Told

variable {x y : NiSt}

theorem aqq (h : x.Told y) : y.aqq = x.aqq := by rw [← h]
theorem wqq (h : x.Told y) : y.wqq = x.wqq := by rw [← h]
theorem stq (h : x.Told y) : y.stq = x.stq := by rw [← h]

end NiSt.Told

/-! ### What an endpoint reset answers leaves the queues toward the endpoint -/

/-- The queues toward the endpoint of NI `n`, and every word below the event unit, are as before. -/
structure State.QueuesKept (n : Nat) (s t : State) : Prop where
  words : s.KeepsAt (· < evtB) t
  rom : t.rom = s.rom
  aqq : (t.ni n).aqq = (s.ni n).aqq
  wqq : (t.ni n).wqq = (s.ni n).wqq
  stq : (t.ni n).stq = (s.ni n).stq

namespace State.QueuesKept

variable {n : Nat} {s t u : State}

theorem refl (s : State) : s.QueuesKept n s := ⟨.refl s, rfl, rfl, rfl, rfl⟩

theorem trans (h : s.QueuesKept n t) (k : t.QueuesKept n u) : s.QueuesKept n u :=
  ⟨h.words.trans k.words, k.rom.trans h.rom, k.aqq.trans h.aqq, k.wqq.trans h.wqq, k.stq.trans h.stq⟩

theorem of_told (hk : s.KeepsAt (· < evtB) t) (hrom : t.rom = s.rom) (ht : s.NisTold t) : s.QueuesKept n t := by
  have h := ht.told n
  exact ⟨hk, hrom, h.aqq, h.wqq, h.stq⟩

theorem foldl {α : Type} {f : State → α → State} (hf : ∀ (a : State) (x : α), a.QueuesKept n (f a x)) (l : List α) (s : State) :
    s.QueuesKept n (l.foldl f s) := by
  induction l generalizing s with
  | nil => exact refl s
  | cons x r ih => exact (hf s x).trans (ih _)

theorem pushSys (s : State) (m : Nat) (p : Qp) : s.QueuesKept n (s.pushSys m p) :=
  of_told (.pushSys m p) rfl (State.NisTold.refl s).pushSys

theorem answerDlv (s : State) (m : Nat) (d : Dlv) (port : Bool) (status : Nat) (data : List Byte) :
    s.QueuesKept n (s.answerDlv m d port status data) := by
  unfold State.answerDlv
  split
  · exact pushSys ..
  · exact pushSys ..

theorem alert (s : State) (m i : Nat) : s.QueuesKept n (s.alert m i) := by
  have hset : s.KeepsAt (· < evtB) (s.setBit (niB m) F.NI_EVT_CAUSE_A_C i) := .setBit i (by simp only [niB, evtB]; omega)
  have hraise : (s.setBit (niB m) F.NI_EVT_CAUSE_A_C i).KeepsAt (· < evtB) (s.alert m i) :=
    (s.keepsAt_raise (srcAlert m) i).mono fun _ h => .inl h
  exact of_told (hset.trans hraise) (s.near_raise (srcAlert m) i).rom (State.NisTold.refl s).raise

theorem wrNi (s : State) (m : Nat) (f : Fld) (v : Nat) : s.QueuesKept n (s.wr (niB m) f v) :=
  of_told (.wr v (by simp only [niB, evtB]; omega)) rfl (State.NisTold.refl s).wr

theorem streamDrop (s : State) (m : Nat) : s.QueuesKept n (s.streamDrop m) :=
  ((wrNi s m _ _).trans (wrNi _ m _ _)).trans (alert _ m 1)

theorem dropPk (s : State) (k : Nat) : s.QueuesKept n (s.dropPk n k) := by
  rw [State.dropPk]
  split
  · exact refl s
  next p _ =>
    have hx : ∀ x : NiSt, ((x.setPk k none).stopRx p).tgts = x.tgts ∧ ((x.setPk k none).stopRx p).aqq = x.aqq
        ∧ ((x.setPk k none).stopRx p).wqq = x.wqq ∧ ((x.setPk k none).stopRx p).stq = x.stq := by
      intro x
      rw [NiSt.stopRx]
      split
      · exact ⟨rfl, rfl, rfl, rfl⟩
      · exact ⟨rfl, rfl, rfl, rfl⟩
    obtain ⟨htgts, haqq, hwqq, hstq⟩ := hx (s.ni n)
    have hset := s.ni_setNi_same n (((s.ni n).setPk k none).stopRx p)
    have hne : ∀ m, m ≠ n → (s.setNi n (((s.ni n).setPk k none).stopRx p)).ni m = s.ni m := fun m hm => s.ni_setNi_ne _ hm
    have hports := (s.setNi n (((s.ni n).setPk k none).stopRx p)).credits_ports (.ni p.plane n) p.vc p.owed
    have hcsr : (s.setNi n (((s.ni n).setPk k none).stopRx p)).csr = s.csr := rfl
    have hrom : (s.setNi n (((s.ni n).setPk k none).stopRx p)).rom = s.rom := rfl
    have hword : ∀ o, (s.setNi n (((s.ni n).setPk k none).stopRx p)).word o = s.word o := fun _ => rfl
    generalize s.setNi n (((s.ni n).setPk k none).stopRx p) = a at hset hne hports hcsr hrom hword ⊢
    generalize a.credits (.ni p.plane n) p.vc p.owed = b at hports ⊢
    have hni : ∀ m, b.ni m = a.ni m := fun m => by
      have e := congrArg (fun v : State => v.ni m) hports
      exact e
    have hw : ∀ o, b.word o = a.word o := fun o => by
      have e := congrArg (fun v : State => v.word o) hports
      exact e
    have hr : b.rom = a.rom := by
      have e := congrArg State.rom hports
      exact e
    refine ⟨⟨fun o _ => (hw o).trans (hword o), fun m => ?_⟩, hr.trans hrom, ?_, ?_, ?_⟩
    · by_cases hm : m = n
      · rw [hni, hm, hset, htgts]
      · rw [hni, hne m hm]
    · rw [hni, hset, haqq]
    · rw [hni, hset, hwqq]
    · rw [hni, hset, hstq]

theorem nodeId (h : s.QueuesKept n t) (m : Nat) : t.nodeId m = s.nodeId m := by
  rw [State.nodeId, State.nodeId, State.instNum, State.instNum, h.words.rd (by decide)]

end State.QueuesKept

theorem State.resetDlvs_kept (s : State) (n : Nat) : s.KeepsAt (· < evtB) (s.resetDlvs n) ∧ (s.resetDlvs n).rom = s.rom := by
  have hfold : ∀ (l : List (Nat × Dlv)) (a : State), a.KeepsAt (· < evtB) (l.foldl (fun a e =>
      let a := a.updNi n (fun x => x.setDel e.1 none)
      let r := if e.2.cut && e.2.ans.isSome then (0x11, []) else e.2.ans.getD (9, [])
      if e.2.drop then a else a.answerDlv n e.2 false r.1 r.2) a)
      ∧ (l.foldl (fun a e =>
      let a := a.updNi n (fun x => x.setDel e.1 none)
      let r := if e.2.cut && e.2.ans.isSome then (0x11, []) else e.2.ans.getD (9, [])
      if e.2.drop then a else a.answerDlv n e.2 false r.1 r.2) a).rom = a.rom := by
    intro l
    induction l with
    | nil => exact fun a => ⟨.refl a, rfl⟩
    | cons e r ih =>
      intro a
      have hdel : a.KeepsAt (· < evtB) (a.updNi n (fun x => x.setDel e.1 none)) := by
        refine ⟨fun _ _ => rfl, fun m => ?_⟩
        by_cases hm : m = n
        · subst hm
          rw [State.ni_updNi_same]
          rfl
        · rw [State.ni_updNi_ne _ _ hm]
      have hone : a.KeepsAt (· < evtB) (if e.2.drop then a.updNi n (fun x => x.setDel e.1 none)
          else (a.updNi n (fun x => x.setDel e.1 none)).answerDlv n e.2 false
            (if e.2.cut && e.2.ans.isSome then (0x11, []) else e.2.ans.getD (9, [])).1
            (if e.2.cut && e.2.ans.isSome then (0x11, []) else e.2.ans.getD (9, [])).2)
          ∧ (if e.2.drop then a.updNi n (fun x => x.setDel e.1 none)
          else (a.updNi n (fun x => x.setDel e.1 none)).answerDlv n e.2 false
            (if e.2.cut && e.2.ans.isSome then (0x11, []) else e.2.ans.getD (9, [])).1
            (if e.2.cut && e.2.ans.isSome then (0x11, []) else e.2.ans.getD (9, [])).2).rom = a.rom := by
        have hans := State.QueuesKept.answerDlv (n := n) (a.updNi n (fun x => x.setDel e.1 none)) n e.2 false
          (if e.2.cut && e.2.ans.isSome then (0x11, []) else e.2.ans.getD (9, [])).1
          (if e.2.cut && e.2.ans.isSome then (0x11, []) else e.2.ans.getD (9, [])).2
        split
        · exact ⟨hdel, rfl⟩
        · exact ⟨hdel.trans hans.words, hans.rom⟩
      exact ⟨hone.1.trans (ih _).1, (ih _).2.trans hone.2⟩
  exact hfold _ s

/-- The endpoint's side of NI `n` drops all that waits for the endpoint. -/
theorem State.resetEgress_queues (s : State) (n : Nat) : ((s.resetEgress n).ni n).aqq = [] ∧ ((s.resetEgress n).ni n).wqq = []
    ∧ ((s.resetEgress n).ni n).stq = [] ∧ (s.resetEgress n).nodeId n = s.nodeId n ∧ (s.resetEgress n).rom = s.rom := by
  have hni := s.ni_setNi_same n { s.ni n with aqq := [], wqq := [], stq := [], migHeld := [], stalls := [] }
  have hnode : (s.setNi n { s.ni n with aqq := [], wqq := [], stq := [], migHeld := [], stalls := [] }).nodeId n = s.nodeId n := rfl
  have hrom : (s.setNi n { s.ni n with aqq := [], wqq := [], stq := [], migHeld := [], stalls := [] }).rom = s.rom := rfl
  rw [State.resetEgress]
  generalize s.setNi n { s.ni n with aqq := [], wqq := [], stq := [], migHeld := [], stalls := [] } = a at hni hnode hrom ⊢
  have hkept : a.QueuesKept n ((s.ni n).stq.foldl (fun a k => (a.streamDrop n).dropPk n k)
      ((s.ni n).wqq.foldl (fun a e => a.dropPk n e.2)
        (((s.ni n).aqq ++ (s.ni n).migHeld).foldl (fun a k => match (a.ni n).pk k with
          | none => a
          | some p => (match p.ep with
            | some e => a.epAnswer n p.hdr e 9
            | none => a.respond n p.hdr (p.vc % 4) 9 []).dropPk n k) a))) := by
    refine ((State.QueuesKept.foldl (fun a k => ?_) _ a).trans (.foldl (fun a (e : Nat × Nat) => State.QueuesKept.dropPk a e.2) _ _)).trans
      (.foldl (fun a k => (State.QueuesKept.streamDrop a n).trans (.dropPk _ k)) _ _)
    split
    · exact .refl a
    · refine State.QueuesKept.trans ?_ (.dropPk _ k)
      split
      · exact .pushSys ..
      · exact .pushSys ..
  refine ⟨hkept.aqq.trans ?_, hkept.wqq.trans ?_, hkept.stq.trans ?_, (hkept.nodeId n).trans hnode, hkept.rom.trans hrom⟩
  · rw [hni]
  · rw [hni]
  · rw [hni]

/-! ### EP_RST_N -/

/-- What the fall of EP_RST_N leaves of an NI. -/
def NiSt.epDown (x : NiSt) (big : Bool) (lim bb : Nat) : NiSt :=
  { (x.resetIngress big lim bb).resetHeats with up := false, epLow := true, rsvs := [] }

/-- What an NI still holds of the endpoint, once it is down: nothing that waits for it, and no reservation. -/
structure NiSt.Quiet (x : NiSt) : Prop where
  up : x.up = false
  low : x.epLow = true
  rsvs : x.rsvs = []
  aqq : x.aqq = []
  wqq : x.wqq = []
  stq : x.stq = []
  rpq : x.rpq = []
  wq : x.wq = []
  ahead : x.ahead = []
  ord : x.ord = []

theorem NiSt.forgetPk_queues (x : NiSt) (k : Nat) : (x.forgetPk k).aqq = x.aqq ∧ (x.forgetPk k).wqq = x.wqq
    ∧ (x.forgetPk k).stq = x.stq := by
  rw [NiSt.forgetPk]
  split
  · exact ⟨rfl, rfl, rfl⟩
  · rw [NiSt.stopRx]
    split
    · exact ⟨rfl, rfl, rfl⟩
    · exact ⟨rfl, rfl, rfl⟩

/-- The fall of EP_RST_N leaves the queues toward the endpoint as they are. -/
theorem NiSt.resetIngress_queues (x : NiSt) (big : Bool) (lim bb : Nat) : (x.resetIngress big lim bb).aqq = x.aqq
    ∧ (x.resetIngress big lim bb).wqq = x.wqq ∧ (x.resetIngress big lim bb).stq = x.stq := by
  have hfold {α : Type} (f : NiSt → α → NiSt) (hf : ∀ (y : NiSt) (e : α), (f y e).aqq = y.aqq ∧ (f y e).wqq = y.wqq ∧ (f y e).stq = y.stq) :
      ∀ (l : List α) (y : NiSt), (l.foldl f y).aqq = y.aqq ∧ (l.foldl f y).wqq = y.wqq ∧ (l.foldl f y).stq = y.stq := by
    intro l
    induction l with
    | nil => exact fun y => ⟨rfl, rfl, rfl⟩
    | cons e r ih =>
      intro y
      obtain ⟨h1, h2, h3⟩ := hf y e
      obtain ⟨k1, k2, k3⟩ := ih (f y e)
      exact ⟨k1.trans h1, k2.trans h2, k3.trans h3⟩
  have htags := hfold (fun (a : NiSt) (e : Nat × Option Tag) => match e.2 with
    | some g => if ((x.wq.filter (fun w => !w.discard)).map (fun w => w.ser)).contains g.ser && !g.evd then a.freeTag e.1 else a
    | none => a) (fun y e => by
      split
      · split
        · exact ⟨rfl, rfl, rfl⟩
        · exact ⟨rfl, rfl, rfl⟩
      · exact ⟨rfl, rfl, rfl⟩) x.tags
  have hpks := hfold (fun (a : NiSt) (r : RpEnt) => a.forgetPk r.pk) (fun y r => y.forgetPk_queues r.pk)
    (x.rpq ++ x.ord.filterMap (fun o => o.rsp))
  obtain ⟨h1, h2, h3⟩ := htags (({ x with tags := x.tags.map (fun e => (e.1, e.2.map (fun g =>
    if g.evd then g else { g with preRst := true }))) } : NiSt).purge big
      (fun p => p.isReq && ((x.wq.filter (fun w => !w.discard)).map (fun w => w.ser)).contains p.ser))
  obtain ⟨k1, k2, k3⟩ := hpks (x.tags.foldl (fun (a : NiSt) (e : Nat × Option Tag) => match e.2 with
    | some g => if ((x.wq.filter (fun w => !w.discard)).map (fun w => w.ser)).contains g.ser && !g.evd then a.freeTag e.1 else a
    | none => a) (({ x with tags := x.tags.map (fun e => (e.1, e.2.map (fun g =>
    if g.evd then g else { g with preRst := true }))) } : NiSt).purge big
      (fun p => p.isReq && ((x.wq.filter (fun w => !w.discard)).map (fun w => w.ser)).contains p.ser)))
  exact ⟨k1.trans h1, k2.trans h2, k3.trans h3⟩

theorem NiSt.epDown_quiet {x : NiSt} (big : Bool) (lim bb : Nat) (ha : x.aqq = []) (hw : x.wqq = []) (hs : x.stq = []) :
    (x.epDown big lim bb).Quiet := by
  obtain ⟨h1, h2, h3⟩ := x.resetIngress_queues big lim bb
  exact ⟨rfl, rfl, rfl, h1.trans ha, h2.trans hw, h3.trans hs, rfl, rfl, rfl, rfl⟩

/-- Every NI of the first `k` forgets the reservations of the node `id`. -/
theorem State.ni_forAll_rsvs (s : State) (id k m : Nat) : (forAll k (fun m a => a.updNi m (fun x => { x with
      rsvs := x.rsvs.filter (fun r => r.node != id) })) s).ni m
    = if m < k then { s.ni m with rsvs := (s.ni m).rsvs.filter (fun r => r.node != id) } else s.ni m := by
  induction k with
  | zero => rfl
  | succ k ih =>
    rw [forAll_succ]
    by_cases hm : m = k
    · subst hm
      rw [State.ni_updNi_same, ih, if_neg (Nat.lt_irrefl m), if_pos (Nat.lt_succ_self m)]
    · rw [State.ni_updNi_ne _ _ hm, ih]
      by_cases hlt : m < k
      · rw [if_pos hlt, if_pos (by omega)]
      · rw [if_neg hlt, if_neg (by omega)]

theorem NiSt.Told.quiet {x y : NiSt} (h : x.Told y) (q : x.Quiet) : y.Quiet :=
  ⟨by rw [← q.up, ← h], by rw [← q.low, ← h], h.rsvs.trans q.rsvs, h.aqq.trans q.aqq, h.wqq.trans q.wqq, h.stq.trans q.stq,
    by rw [← q.rpq, ← h], by rw [← q.wq, ← h], by rw [← q.ahead, ← h], by rw [← q.ord, ← h]⟩

section
variable {s : State} {n : Nat}

/-- The state in which the NI has dropped what waited for its endpoint, and every NI the reservations of its node. -/
def State.epFall (s : State) (n : Nat) : State :=
  let s := ((s.resetDlvs n).resetEgress n).updNi n (fun x => x.epDown (bigSched s.rom n) (cvtBeats s.rom n) (beatBytes s.rom n))
  forAll s.rom.nis.length (fun m a => a.updNi m (fun x => { x with rsvs := x.rsvs.filter (fun r => r.node != s.nodeId n) })) s

theorem exec_epRstAssert_of_high (hn : s.hasNi n = true) (h : (s.ni n).epLow = false) :
    exec (.epRstAssert n) s = .next (((s.epFall n).wr (niB n) F.NI_EP_STAT_EPRST 1).alert n 0) := by
  change guardUnit s (s.hasNi n) _ = _
  rw [guardUnit_of hn, if_neg (ne_true_of_eq_false h)]
  rfl

theorem State.epFall_spec (hn : s.hasNi n = true) : ((s.epFall n).ni n).Quiet
    ∧ ∀ m, m < s.rom.nis.length → ∀ r ∈ ((s.epFall n).ni m).rsvs, r.node ≠ s.nodeId n := by
  obtain ⟨hdlv, hdrom⟩ := s.resetDlvs_kept n
  obtain ⟨haqq, hwqq, hstq, hnode, hrom⟩ := (s.resetDlvs n).resetEgress_queues n
  have hid : ((s.resetDlvs n).resetEgress n).nodeId n = s.nodeId n := by
    rw [hnode, State.nodeId, State.nodeId, State.instNum, State.instNum, hdlv.rd (by decide)]
  have hlen : ((s.resetDlvs n).resetEgress n).rom.nis.length = s.rom.nis.length := by rw [hrom, hdrom]
  rw [State.epFall]
  generalize (s.resetDlvs n).resetEgress n = a at haqq hwqq hstq hid hlen ⊢
  have hlt : n < s.rom.nis.length := of_decide_eq_true hn
  set b := a.updNi n (fun x => x.epDown (bigSched s.rom n) (cvtBeats s.rom n) (beatBytes s.rom n)) with hb
  have hbid : b.nodeId n = s.nodeId n := hid
  have hblen : b.rom.nis.length = s.rom.nis.length := hlen
  have hquiet : (b.ni n).Quiet := by
    rw [hb, State.ni_updNi_same]
    exact NiSt.epDown_quiet _ _ _ haqq hwqq hstq
  rw [hbid, hblen]
  constructor
  · rw [State.ni_forAll_rsvs, if_pos hlt]
    obtain ⟨hup, hlow, hrsvs, haq, hwq, hst, hrp, hw, hah, hord⟩ := hquiet
    exact ⟨hup, hlow, by rw [hrsvs]; rfl, haq, hwq, hst, hrp, hw, hah, hord⟩
  · intro m hm r hr
    rw [State.ni_forAll_rsvs, if_pos hm] at hr
    exact bne_iff_ne.mp (List.mem_filter.mp hr).2

theorem exec_stallLimitExpire_of {half : Nat} (hn : s.hasNi n = true) (hh : half < 4) :
    exec (.stallLimitExpire n half) s = .next (s.stall n half) := by
  change guardUnit s (s.hasNi n && decide (half < 4)) _ = _
  rw [guardUnit_of (by rw [hn, decide_eq_true hh]; rfl)]

theorem exec_niUpRise_of (hn : s.hasNi n = true) : exec (.niUpRise n) s = .next (if (s.ni n).mayRise && !s.replayDue n
    && s.rgOpen (niRec s.rom n).region then s.updNi n (fun x => { x with up := true }) else s) := by
  change guardUnit s (s.hasNi n) _ = _
  rw [guardUnit_of hn]

theorem exec_sbiEvt_of (code : BitVec 16) (hn : s.hasNi n = true) : exec (.sbiEvt n code) s = .next (if (s.ni n).up = false then s
    else if (s.ni n).evq.length < 4 then s.setNi n { s.ni n with evq := (s.ni n).evq ++ [code] }
    else s.count (niB n) F.NI_EP_EVT_OVF_COUNT 1) := by
  change guardUnit s (s.hasNi n) _ = _
  rw [guardUnit_of hn]

theorem exec_epEventTake_of (hn : s.hasNi n = true) : exec (.epEventTake n) s = .next (match (s.ni n).evq with
    | [] => s
    | _ :: r => (s.setNi n { s.ni n with evq := r }).notice n 0) := by
  change guardUnit s (s.hasNi n) _ = _
  exact guardUnit_of hn _ _

end

theorem endpointEvents (s : State) (n : Nat) (hn : s.hasNi n = true) :
    (∀ code, ((s.ni n).up = true → (s.ni n).evq.length < 4 →
        exec (.sbiEvt n code) s = .next (s.setNi n { s.ni n with evq := (s.ni n).evq ++ [code] }))
      ∧ ((s.ni n).up = true → 4 ≤ (s.ni n).evq.length →
        exec (.sbiEvt n code) s = .next (s.count (niB n) F.NI_EP_EVT_OVF_COUNT 1))
      ∧ ((s.ni n).up = false → exec (.sbiEvt n code) s = .next s))
    ∧ (∀ e r, (s.ni n).evq = e :: r → exec (.epEventTake n) s = .next ((s.setNi n { s.ni n with evq := r }).notice n 0))
    ∧ ((s.ni n).evq = [] → exec (.epEventTake n) s = .next s) := by
  refine ⟨fun code => ⟨fun hup hlen => ?_, fun hup hlen => ?_, fun hup => ?_⟩, fun e r hq => ?_, fun hq => ?_⟩
  · rw [exec_sbiEvt_of code hn, if_neg (ne_false_of_eq_true hup), if_pos hlen]
  · rw [exec_sbiEvt_of code hn, if_neg (ne_false_of_eq_true hup), if_neg (Nat.not_lt.mpr hlen)]
  · rw [exec_sbiEvt_of code hn, if_pos hup]
  · rw [exec_epEventTake_of hn, hq]
  · rw [exec_epEventTake_of hn, hq]

theorem endpointStalls (s : State) (n half : Nat) (hn : s.hasNi n = true) (hh : half < 4) :
    (∀ (k : Nat) (x : NiSt), s.rd (niB n) F.NI_EP_CFG_STALL_EXP ≠ 0 → (s.ni n).up = true → (s.ni n).stood half = none →
      s.shown n half = some k → x = (s.ni n).moved half → exec (.stallLimitExpire n half) s =
        .next (((s.setNi n { x.begin half k with stalls := x.stalls ++ [(half, k)] }).count (niB n) F.NI_EP_STALL_CNT_COUNT 1).wr
          (niB n) F.NI_EP_STAT_STALL 1))
    ∧ ((s.rd (niB n) F.NI_EP_CFG_STALL_EXP = 0 ∨ (s.ni n).up = false ∨ (s.ni n).stood half ≠ none ∨ s.shown n half = none) →
      exec (.stallLimitExpire n half) s = .next s) := by
  constructor
  · rintro k x hexp hup hstood hshown rfl
    have hgo : ¬ (s.rd (niB n) F.NI_EP_CFG_STALL_EXP = 0 ∨ (s.ni n).up = false ∨ ((s.ni n).stood half).isSome = true) := by
      rw [hup, hstood]
      rintro (h | h | h)
      · exact hexp h
      · cases h
      · cases h
    rw [exec_stallLimitExpire_of hn hh, State.stall, if_neg hgo, hshown]
  · intro h
    rw [exec_stallLimitExpire_of hn hh, State.stall]
    split
    · rfl
    next hgo =>
      obtain ⟨hexp, hup, hstood⟩ : s.rd (niB n) F.NI_EP_CFG_STALL_EXP ≠ 0 ∧ (s.ni n).up ≠ false ∧ ¬ ((s.ni n).stood half).isSome = true :=
        ⟨fun e => hgo (.inl e), fun e => hgo (.inr (.inl e)), fun e => hgo (.inr (.inr e))⟩
      rcases h with h | h | h | h
      · exact absurd h hexp
      · exact absurd h hup
      · exact absurd (Option.isSome_iff_ne_none.mpr h) hstood
      · rw [h]

theorem endpointReset (s : State) (n : Nat) (hn : s.hasNi n = true) (hlow : (s.ni n).epLow = false) :
    ∃ t : State, exec (.epRstAssert n) s = .next t ∧ (t.ni n).up = false ∧ (t.ni n).epLow = true ∧ (t.ni n).rsvs = []
      ∧ (t.ni n).aqq = [] ∧ (t.ni n).wqq = [] ∧ (t.ni n).stq = [] ∧ (t.ni n).rpq = [] ∧ (t.ni n).wq = [] ∧ (t.ni n).ahead = []
      ∧ (t.ni n).ord = [] ∧ t.flag (niB n) F.NI_EP_STAT_EPRST = true
      ∧ (∀ m, m < s.rom.nis.length → ∀ r ∈ (t.ni m).rsvs, r.node ≠ s.nodeId n) := by
  obtain ⟨hquiet, hothers⟩ := s.epFall_spec hn
  generalize hv : s.epFall n = v at hquiet hothers
  have htold : v.NisTold ((v.wr (niB n) F.NI_EP_STAT_EPRST 1).alert n 0) := (State.NisTold.refl v).wr.raise
  obtain ⟨hup, hl, hrsvs, haqq, hwqq, hstq, hrpq, hwq, hahead, hord⟩ := (htold.told n).quiet hquiet
  refine ⟨_, (exec_epRstAssert_of_high hn hlow).trans (by rw [hv]), hup, hl, hrsvs, haqq, hwqq, hstq, hrpq, hwq, hahead, hord, ?_,
    fun m hm r hr => hothers m hm r ((htold.told m).rsvs ▸ hr)⟩
  have hk := (v.wr (niB n) F.NI_EP_STAT_EPRST 1).keepsAt_raise (srcAlert n) 0
  have hrd : ((v.wr (niB n) F.NI_EP_STAT_EPRST 1).alert n 0).rd (niB n) F.NI_EP_STAT_EPRST = 1 :=
    (hk.rd (.inr (by simp only [evtB, niB]; omega))).trans ((State.rd_wr_ne _ _ _ _ _ _ (by simp [srcAlert])).trans
      (State.rd_wr_same _ _ _ _ (by decide)))
  rw [State.flag, hrd]
  rfl

/-- Settles O3: each event is a branch of its command; what an endpoint reset drops is dropped from the NI's own queues, and the
reservations of its node from every NI. -/
theorem endpointEventsAndReset : Obligations.EndpointEventsAndReset := by
  unfold Obligations.EndpointEventsAndReset
  refine ⟨fun s n hn => ?_, fun s n hn => ⟨fun hlow => ?_, endpointReset s n hn⟩⟩
  · obtain ⟨hsbi, htake, hnone⟩ := endpointEvents s n hn
    refine ⟨hsbi, htake, hnone, ?_, fun hmay hdue hopen => ?_, fun h => ?_, fun half hh => endpointStalls s n half hn hh⟩
    · change guardUnit s (s.hasNi n) _ = _
      rw [guardUnit_of hn]
      rfl
    · rw [exec_niUpRise_of hn, hmay, hdue, hopen, if_pos (by decide)]
      rfl
    · rw [exec_niUpRise_of hn]
      refine congrArg _ (if_neg ?_)
      rcases h with h | h | h
      · rw [h, Bool.false_and, Bool.false_and]; decide
      · rw [h, Bool.not_true, Bool.and_false, Bool.false_and]; decide
      · rw [h, Bool.and_false]; decide
  · change guardUnit s (s.hasNi n) _ = _
    rw [guardUnit_of hn, if_pos hlow]

end Sys2Proof.Machine
end

section
/-! SUPPORT. ROUTE_SET, ROUTE_CHECK and the reservation commands (R131, R132, R135, R232, R240 to R242, R267, R497). -/

namespace Sys2Proof.Machine

section
variable {s : State} {x : Nat} {c : Cmd}

/-- A route command whose route crosses a stepping region waits; any other is carried out. -/
theorem exec_routeSet_issued (h : s.Issued x 0x10 [(0, 120)] c) : exec (.routeSet x) s
    = .next (if s.routeHeld (c.p 0 16) (c.p 16 16) (c.p 32 64) (c.p 96 5) then s else (s.begin x).routeSet x c) := by
  have hrun := State.runCmd_issued s h (fun c s => s.routeSet x c)
  change Host.Outcome.next (match s.cmd x with
    | none => s
    | some c => if s.routeHeld (c.p 0 16) (c.p 16 16) (c.p 32 64) (c.p 96 5) then s
      else s.runCmd x 0x10 [(0, 120)] (fun c s => s.routeSet x c)) = _
  rw [hrun, h.1]

theorem exec_routeCheck_issued (h : s.Issued x 0x11 [(0, 32)] c) : exec (.routeCheck x) s
    = .next (if s.routeHeld (c.p 0 16) (c.p 16 16) (s.entry (c.p 0 16) (c.p 16 16)).path (s.entry (c.p 0 16) (c.p 16 16)).nhops then s
      else (s.begin x).routeRecheck x c) := by
  have hrun := State.runCmd_issued s h (fun c s => s.routeRecheck x c)
  change Host.Outcome.next (match s.cmd x with
    | none => s
    | some c => if s.routeHeld (c.p 0 16) (c.p 16 16) (s.entry (c.p 0 16) (c.p 16 16)).path (s.entry (c.p 0 16) (c.p 16 16)).nhops then s
      else s.runCmd x 0x11 [(0, 32)] (fun c s => s.routeRecheck x c)) = _
  rw [hrun, h.1]

theorem exec_rsvSc0_issued (h : s.Issued x 0x12 [(0, 12), (16, 11), (32, 6), (48, 16)] c) : exec (.rsvSc0 x) s
    = .next (if s.rsvHeld (c.p 0 8) (c.p 16 9) (c.p 26 1 == 1) then s else (s.begin x).rsvSc0 x c) := by
  have hrun := State.runCmd_issued s h (fun c s => s.rsvSc0 x c)
  change Host.Outcome.next (match s.cmd x with
    | none => s
    | some c => if s.rsvHeld (c.p 0 8) (c.p 16 9) (c.p 26 1 == 1) then s
      else s.runCmd x 0x12 [(0, 12), (16, 11), (32, 6), (48, 16)] (fun c s => s.rsvSc0 x c)) = _
  rw [hrun, h.1]

/-- Whether the flows of reservation `k` of NI `n` cross a stepping region. -/
def State.freeHeld (s : State) (n k : Nat) : Bool :=
  s.rd (niB n) (F.NI_SC0_RSV0_VALID.ix k) == 1
    && s.rsvHeld n (s.rd (niB n) (F.NI_SC0_RSV0_ENTRY.ix k)) (s.rd (niB n) (F.NI_SC0_RSV0_RESP.ix k) == 1)

theorem State.freeHeld_of_invalid {n k : Nat} (h : s.rd (niB n) (F.NI_SC0_RSV0_VALID.ix k) ≠ 1) : s.freeHeld n k = false := by
  rw [State.freeHeld, beq_eq_false_iff_ne.mpr h, Bool.false_and]

theorem exec_rsvSc0Free_issued (h : s.Issued x 0x13 [(0, 12)] c) : exec (.rsvSc0Free x) s
    = .next (if s.freeHeld (c.p 0 8) (c.p 8 4) then s else (s.begin x).rsvSc0Free x c) := by
  have hrun := State.runCmd_issued s h (fun c s => s.rsvSc0Free x c)
  change Host.Outcome.next (match s.cmd x with
    | none => s
    | some c => if s.freeHeld (c.p 0 8) (c.p 8 4) then s else s.runCmd x 0x13 [(0, 12)] (fun c s => s.rsvSc0Free x c)) = _
  rw [hrun, h.1]

theorem exec_rsvSc1_issued (h : s.Issued x 0x14 [(0, 12), (16, 6), (32, 16), (48, 16)] c) : exec (.rsvSc1 x) s
    = .next (if (s.begin x).hasNi (c.p 0 8) = false then (s.begin x).reply x 3 []
      else if (s.begin x).rd (niB (c.p 0 8)) F.NI_SC1_CAP_CAP < (s.begin x).rateSum (c.p 0 8) (c.p 8 4) (c.p 32 16) then
        (s.begin x).reply x 0x000F (leBytes 2 4 ++ leBytes 4 ((s.begin x).rateSum (c.p 0 8) (c.p 8 4) (c.p 32 16)) ++ leBytes 2 0)
      else (((((s.begin x).wr (niB (c.p 0 8)) (shpRate (c.p 8 4)) (c.p 32 16)).wr (niB (c.p 0 8)) (shpBurst (c.p 8 4)) (c.p 48 16)).wr
        (niB (c.p 0 8)) (shpGranted (c.p 8 4)) 1).updNi (c.p 0 8) (fun y =>
          { y with shpSl := mset (fun _ => 63) y.shpSl (c.p 8 4) (c.p 16 6) })).reply x 0 []) :=
  congrArg Host.Outcome.next (State.runCmd_issued s h _)

theorem exec_rsvSc1Free_issued (h : s.Issued x 0x15 [(0, 12)] c) : exec (.rsvSc1Free x) s
    = .next (if (s.begin x).hasNi (c.p 0 8) = false then (s.begin x).reply x 3 []
      else (((s.begin x).wr (niB (c.p 0 8)) (shpGranted (c.p 8 4)) 0).updNi (c.p 0 8) (fun y =>
          { y with shpSl := mset (fun _ => 63) y.shpSl (c.p 8 4) 63 })).reply x 0 []) :=
  congrArg Host.Outcome.next (State.runCmd_issued s h _)

theorem State.routeReply_error {r : Nat} (h : 0 < r) (s : State) (x bound : Nat) :
    s.routeReply x r bound = s.reply x 0x000E (leBytes 1 r) := by
  obtain ⟨k, rfl⟩ := Nat.exists_eq_succ_of_ne_zero (Nat.ne_of_gt h)
  rfl

theorem routeSet_answers (h : s.Issued x 0x10 [(0, 120)] c) {y : Entry} (hy : y = setEntryOf c) :
    (s.routeHeld (c.p 0 16) (c.p 16 16) (c.p 32 64) (c.p 96 5) = true → exec (.routeSet x) s = .next s)
    ∧ (s.routeHeld (c.p 0 16) (c.p 16 16) (c.p 32 64) (c.p 96 5) = false →
      (∀ b mask xs bound, (s.begin x).routeCheck (c.p 0 16) (c.p 16 16) y = .ok (b, mask, xs) →
        bound = (if y.bound = 0 then boundField b else y.bound) →
        exec (.routeSet x) s = .next ((((s.begin x).setEntry (c.p 0 16) (c.p 16 16)
          { y with path := y.path % 16 ^ y.nhops, bound := bound, regmask := mask, xings := xs }).wr glbB
          F.GLB_SC0_STAT_FLOOR_BUSY 1).reply x 0 (leBytes 2 0 ++ leBytes 2 bound)))
      ∧ (∀ r, (s.begin x).routeCheck (c.p 0 16) (c.p 16 16) y = .error r → 0 < r →
        exec (.routeSet x) s = .next ((s.begin x).reply x 0x000E (leBytes 1 r)))) := by
  refine ⟨fun hheld => ?_, fun hfree => ⟨fun b mask xs bound hok hb => ?_, fun r herr hr => ?_⟩⟩
  · rw [exec_routeSet_issued h, if_pos hheld]
  · rw [exec_routeSet_issued h, if_neg (ne_true_of_eq_false hfree), State.routeSet, ← hy, hok, hb]
    rfl
  · rw [exec_routeSet_issued h, if_neg (ne_true_of_eq_false hfree), State.routeSet, ← hy, herr]
    exact congrArg _ (State.routeReply_error hr _ _ _)

theorem routeCheck_answers (h : s.Issued x 0x11 [(0, 32)] c) {y : Entry} (hy : y = s.entry (c.p 0 16) (c.p 16 16)) :
    (s.routeHeld (c.p 0 16) (c.p 16 16) y.path y.nhops = true → exec (.routeCheck x) s = .next s)
    ∧ (s.routeHeld (c.p 0 16) (c.p 16 16) y.path y.nhops = false →
      (∀ b mask xs bound, (s.begin x).routeCheck (c.p 0 16) (c.p 16 16) y = .ok (b, mask, xs) →
        bound = (if y.rep && y.bound == 0 then b else y.bound) →
        exec (.routeCheck x) s = .next ((((s.begin x).setEntry (c.p 0 16) (c.p 16 16)
          { y with unchk := false, bound := bound, regmask := mask, xings := xs }).wr glbB F.GLB_SC0_STAT_FLOOR_BUSY 1).reply x 0
          (leBytes 2 0 ++ leBytes 2 bound)))
      ∧ (∀ r, (s.begin x).routeCheck (c.p 0 16) (c.p 16 16) y = .error r → 0 < r →
        exec (.routeCheck x) s = .next ((s.begin x).reply x 0x000E (leBytes 1 r)))) := by
  have hy' : (s.begin x).entry (c.p 0 16) (c.p 16 16) = y := hy.symm
  refine ⟨fun hheld => ?_, fun hfree => ⟨fun b mask xs bound hok hb => ?_, fun r herr hr => ?_⟩⟩
  · rw [exec_routeCheck_issued h, ← hy, if_pos hheld]
  · rw [exec_routeCheck_issued h, ← hy, if_neg (ne_true_of_eq_false hfree), State.routeRecheck, hy', hok, hb]
    rfl
  · rw [exec_routeCheck_issued h, ← hy, if_neg (ne_true_of_eq_false hfree), State.routeRecheck, hy', herr]
    exact congrArg _ (State.routeReply_error hr _ _ _)

end

/-- Settles O11: each command is issued in its turn; it waits while its route or flows cross a stepping region, and otherwise is the
branch of its effect that its checks choose. -/
theorem routesAndReservations : Obligations.RoutesAndReservations := by
  unfold Obligations.RoutesAndReservations
  refine ⟨fun s x c y => ⟨fun h hy => routeSet_answers h hy, fun h hy => routeCheck_answers h hy⟩, ?_⟩
  rintro s x n k c rfl rfl
  have hpresent (h : s.hasNi (c.p 0 8) = true) : ¬ (s.begin x).hasNi (c.p 0 8) = false := ne_false_of_eq_true h
  refine ⟨fun hno => ⟨fun h hheld => ?_, fun h hval => ?_, fun h => ?_, fun h => ?_⟩, fun hn h => ⟨fun hheld => ?_, fun hfree =>
    ⟨fun hwired => ?_, fun d hwired hcheck => ?_⟩⟩, fun hn => ⟨fun h hwired hfree hcheck => ?_, fun h hval hheld => ?_,
    fun h hfree => ?_, fun h hlt => ?_, fun h hle => ?_, fun h => ?_⟩⟩
  · rw [exec_rsvSc0_issued h, if_neg (ne_true_of_eq_false hheld), State.rsvSc0]
    exact congrArg _ (if_pos (.inl hno))
  · rw [exec_rsvSc0Free_issued h, State.freeHeld_of_invalid hval, if_neg Bool.false_ne_true, State.rsvSc0Free]
    exact congrArg _ (if_pos hno)
  · rw [exec_rsvSc1_issued h]
    exact congrArg _ (if_pos hno)
  · rw [exec_rsvSc1Free_issued h]
    exact congrArg _ (if_pos hno)
  · rw [exec_rsvSc0_issued h, if_pos hheld]
  · rw [exec_rsvSc0_issued h, if_neg (ne_true_of_eq_false hfree), State.rsvSc0]
    exact congrArg _ (if_pos (.inr hwired))
  · have hgo : ¬ ((s.begin x).hasNi (c.p 0 8) = false ∨ entryWired (s.begin x).rom (c.p 0 8) (c.p 16 9) = true) := by
      rintro (e | e)
      · exact ne_false_of_eq_true hn e
      · exact ne_true_of_eq_false hwired e
    rw [exec_rsvSc0_issued h, if_neg (ne_true_of_eq_false hfree), State.rsvSc0, if_neg hgo, hcheck]
  · have hgo : ¬ ((s.begin x).hasNi (c.p 0 8) = false ∨ entryWired (s.begin x).rom (c.p 0 8) (c.p 16 9) = true) := by
      rintro (e | e)
      · exact ne_false_of_eq_true hn e
      · exact ne_true_of_eq_false hwired e
    rw [exec_rsvSc0_issued h, if_neg (ne_true_of_eq_false hfree), State.rsvSc0, if_neg hgo, hcheck]
  · rw [exec_rsvSc0Free_issued h, State.freeHeld, beq_iff_eq.mpr hval, hheld, if_pos (by decide)]
  · have hno : s.freeHeld (c.p 0 8) (c.p 8 4) = false := by
      rcases hfree with hval | hheld
      · exact State.freeHeld_of_invalid hval
      · rw [State.freeHeld, hheld, Bool.and_false]
    rw [exec_rsvSc0Free_issued h, hno, if_neg Bool.false_ne_true, State.rsvSc0Free]
    exact congrArg _ (if_neg (ne_false_of_eq_true hn))
  · rw [exec_rsvSc1_issued h, if_neg (hpresent hn), if_pos hlt]
  · rw [exec_rsvSc1_issued h, if_neg (hpresent hn), if_neg (Nat.not_lt.mpr hle)]
  · rw [exec_rsvSc1Free_issued h, if_neg (hpresent hn)]

end Sys2Proof.Machine
end

section
/-! SUPPORT. The Span commands and training (R561, R570 to R574, R586). -/

namespace Sys2Proof.Machine

/-! ### Fields of a link -/

theorem State.lf_lw_same (s : State) (k j : Nat) (f : Fld) (v : Nat) (h : f.lo + f.w ≤ 32) : (s.lw k j f v).lf k j f = v % 2 ^ f.w :=
  s.rd_wr_same (spB k) (f.ix j) v h

/-- A write of a link's field leaves the link's fields at other offsets. -/
theorem State.lf_lw_ne (s : State) (k j v : Nat) {f f' : Fld} (ho : f'.off ≠ f.off) (hs : f'.stride = f.stride) :
    (s.lw k j f v).lf k j f' = s.lf k j f' := by
  refine s.rd_wr_ne (spB k) (spB k) (f.ix j) (f'.ix j) v ?_
  show spB k + (f'.off + f'.stride * j) ≠ spB k + (f.off + f.stride * j)
  rw [hs]
  omega

/-- A write of a link's field leaves the other fields of its register. -/
theorem State.lf_lw_apart (s : State) (k j v : Nat) {f f' : Fld} (ho : f'.off = f.off) (hs : f'.stride = f.stride) (h : f.lo + f.w ≤ 32)
    (hd : f.lo + f.w ≤ f'.lo ∨ f'.lo + f'.w ≤ f.lo) : (s.lw k j f v).lf k j f' = s.lf k j f' := by
  refine s.rd_wr_apart (spB k) (f.ix j) (f'.ix j) v ?_ h hd
  show f'.off + f'.stride * j = f.off + f.stride * j
  rw [ho, hs]

theorem State.lf_updLk (s : State) (c : Nat) (f : Link → Link) (k j : Nat) (x : Fld) : (s.updLk c f).lf k j x = s.lf k j x := rfl

theorem State.lst_updLk (s : State) (c : Nat) (f : Link → Link) (k j : Nat) : (s.updLk c f).lst k j = s.lst k j := rfl

theorem State.lk_lw (s : State) (k j : Nat) (f : Fld) (v c : Nat) : (s.lw k j f v).lk c = s.lk c := rfl

theorem State.lk_setLst (s : State) (k j st c : Nat) : (s.setLst k j st).lk c = s.lk c := rfl

theorem State.lst_setLst (s : State) (k j : Nat) {st : Nat} (h : st < 8) : (s.setLst k j st).lst k j = st := by
  have hkept (code : Nat) : ((s.lw k j F.SP_L_STAT_STATE st).lw k j F.SP_L_STAT_LSTATE code).lst k j = st :=
    (State.lf_lw_apart _ k j code (f := F.SP_L_STAT_LSTATE) (f' := F.SP_L_STAT_STATE) rfl rfl (by decide) (by decide)).trans
      ((s.lf_lw_same k j F.SP_L_STAT_STATE st (by decide)).trans (Nat.mod_eq_of_lt h))
  exact hkept _

/-- A link that is down or held down shows LSTATE 0. -/
theorem State.lstate_setLst (s : State) (k j : Nat) {st : Nat} (h : st = 0 ∨ st = 7) :
    (s.setLst k j st).lf k j F.SP_L_STAT_LSTATE = 0 := by
  rw [State.setLst, if_pos h]
  exact State.lf_lw_same _ k j F.SP_L_STAT_LSTATE 0 (by decide)

/-- An event of a Span port leaves the fields of its links. -/
theorem State.lf_spanEvent (s : State) (k e j : Nat) {f : Fld} (hf : 0x1000 ≤ f.off) : (s.spanEvent k e).lf k j f = s.lf k j f := by
  have hoff : spB k + (f.ix j).off ≠ spB k + F.SP_EVT_STAT_C.off := by
    show spB k + (f.off + f.stride * j) ≠ spB k + 0x20
    omega
  exact ((s.keepsAt_raise (srcSpan k e) e).rd (.inr (by simp only [evtB, spB]; omega))).trans (s.rd_wr_ne _ _ _ _ _ hoff)

/-! ### What a port's traffic leaves of its links' requests for leave -/

/-- Every link waits for leave as before. -/
structure State.WantSame (s t : State) : Prop where
  want : ∀ c, (t.lk c).want = (s.lk c).want

namespace State.WantSame

variable {s t : State}

theorem refl (s : State) : s.WantSame s := ⟨fun _ => rfl⟩

theorem of_links {u : State} (h : s.WantSame t) (e : u.links = t.links) : s.WantSame u := ⟨fun c => by
  rw [← h.want c, State.lk, State.lk, e]⟩

theorem ite {c : Prop} [Decidable c] {a b : State} (ha : s.WantSame a) (hb : s.WantSame b) : s.WantSame (if c then a else b) := by
  split
  · exact ha
  · exact hb

theorem foldl {α : Type} {f : State → α → State} {l : List α} (hf : ∀ a x, s.WantSame a → s.WantSame (f a x)) (h : s.WantSame t) :
    s.WantSame (l.foldl f t) := by
  induction l generalizing t with
  | nil => exact h
  | cons x xs ih => exact ih (hf _ _ h)

theorem near {u : State} (h : s.WantSame t) (k : t.Near u) : s.WantSame u := h.of_links (congrArg State.links k :)

theorem wr {b f v} (h : s.WantSame t) : s.WantSame (t.wr b f v) := h.of_links rfl
theorem setWord {o w} (h : s.WantSame t) : s.WantSame (t.setWord o w) := h.of_links rfl
theorem count {b f v} (h : s.WantSame t) : s.WantSame (t.count b f v) := h.of_links rfl
theorem setBit {b f v} (h : s.WantSame t) : s.WantSame (t.setBit b f v) := h.of_links rfl
theorem setPort {o x} (h : s.WantSame t) : s.WantSame (t.setPort o x) := h.of_links rfl
theorem updPort {o f} (h : s.WantSame t) : s.WantSame (t.updPort o f) := h.of_links rfl
theorem raise {x i} (h : s.WantSame t) : s.WantSame (t.raise x i) := h.near (t.near_raise x i)

theorem updLk {c : Nat} {f : Link → Link} (h : s.WantSame t) (hf : ∀ l, (f l).want = l.want) : s.WantSame (t.updLk c f) := ⟨fun d => by
  by_cases hd : d = c
  · subst hd
    rw [State.lk_updLk_same, hf, h.want]
  · rw [State.lk_updLk_ne _ _ hd, h.want]⟩

theorem planeFault {p cause} (h : s.WantSame t) : s.WantSame (t.planeFault p cause) :=
  of_links (t := t.wr strB (if p = 0 then F.STR_PLN_STAT_FAULT_A else F.STR_PLN_STAT_FAULT_B) 1) h.wr rfl

theorem creditError {o bit vc} (h : s.WantSame t) : s.WantSame (t.creditError o bit vc) := by
  cases o with
  | rtr p r q =>
    have harb {kind port inPort v : Nat} {u : State} (hu : s.WantSame u) : s.WantSame (u.arbLog p r kind port inPort v) :=
      .ite hu hu.setWord
    exact planeFault (raise (harb (wr h)))
  | ni p n => exact planeFault (raise (setBit h))
  | span p k => exact h

theorem xingOverflow {o vc} (h : s.WantSame t) : s.WantSame (t.xingOverflow o vc) := by
  unfold State.xingOverflow
  dsimp only
  split
  · exact h.updPort.setBit.raise.planeFault
  · exact h.updPort.creditError
  · exact h.updPort

theorem drive {o fl} (h : s.WantSame t) : s.WantSame (t.drive o fl) := by
  unfold State.drive
  dsimp only
  split
  · exact h.updPort
  · exact .ite (.ite h.updPort.updPort (.ite h.updPort (.ite h.updPort.xingOverflow h.updPort.setPort))) h.updPort.updPort

theorem trace {input o vc hd ts} (h : s.WantSame t) : s.WantSame (t.trace input o vc hd ts) := by
  unfold State.trace
  refine .ite ?_ h
  dsimp only
  have hput : s.WantSame { t with trc := mset (fun _ => 0) t.trc (t.rd dbgB F.DBG_TRC_PTR_WR) (trcEntry ts hd vc) } := h.of_links rfl
  generalize { t with trc := mset (fun _ => 0) t.trc (t.rd dbgB F.DBG_TRC_PTR_WR) (trcEntry ts hd vc) } = u at hput ⊢
  refine .ite h (.ite (.ite hput.wr.wr.wr (raise ?_)) hput.wr.wr)
  have hfull := ((hput.wr (b := dbgB) (f := F.DBG_TRC_PTR_WR) (v := t.rd dbgB F.DBG_TRC_PTR_WR + 1)).wr (b := dbgB)
    (f := F.DBG_TRC_PTR_COUNT) (v := min (t.rd dbgB F.DBG_TRC_PTR_COUNT + 1) 4096)).wr (b := dbgB) (f := F.DBG_TRC_PTR_FULL) (v := 1)
  generalize ((u.wr dbgB F.DBG_TRC_PTR_WR _).wr dbgB F.DBG_TRC_PTR_COUNT _).wr dbgB F.DBG_TRC_PTR_FULL 1 = v at hfull ⊢
  exact hfull.of_links rfl

theorem slotCount {o} (h : s.WantSame t) : s.WantSame (t.slotCount o) := h.of_links rfl

theorem slotFreed {o} (h : s.WantSame t) : s.WantSame (t.slotFreed o) := by
  cases o with
  | rtr p r q => exact h
  | ni p n => exact h.foldl fun a p h => .ite h (h.foldl fun a v h => by
      split
      · exact .ite h.updPort.updPort h
      · exact h)
  | span p k => exact h

theorem credit {o vc} (h : s.WantSame t) : s.WantSame (t.credit o vc) := by
  unfold State.credit
  split
  · exact h
  · exact h.updPort

theorem credits {o vc n} (h : s.WantSame t) : s.WantSame (t.credits o vc n) := h.foldl fun _ _ h => h.credit

theorem sendOne {o} (h : s.WantSame t) : s.WantSame (t.sendOne o) := by
  unfold State.sendOne
  dsimp only
  split
  · exact h
  · split
    · exact h
    · have hdrive {o' : Port} {x : PortSt} {hd : Option Hdr} {vc : Nat} {fl : Flit} {ts : Stamp} : s.WantSame ((match hd with
          | some y => (t.setPort o' x).trace false o' vc y ts
          | none => t.setPort o' x).drive o' fl) := drive (by
        split
        · exact h.setPort.trace
        · exact h.setPort)
      cases o with
      | rtr p r q => exact credit (updPort (slotCount hdrive))
      | ni p n => exact slotFreed (updPort (slotCount hdrive))
      | span p k => exact updLk (slotCount hdrive) fun _ => rfl

theorem pump {o} (h : s.WantSame t) : s.WantSame (t.pump o) := .ite (h.foldl fun _ _ h => h.sendOne) h

theorem finishRx {c} (h : s.WantSame t) : s.WantSame (t.finishRx c) := h.foldl fun a v h => by
  split
  · exact h
  · split
    · exact h
    · exact h.updLk fun _ => rfl

theorem jointsLost {c} (h : s.WantSame t) : s.WantSame (t.jointsLost c) := h.of_links rfl

theorem rxDrop {c v} (h : s.WantSame t) : s.WantSame (t.rxDrop c v) := by
  unfold State.rxDrop
  split
  · exact h
  · generalize frontFlits _ = f
    exact updLk (h.updLk fun _ => rfl) fun _ => rfl

theorem xbDrop {c v tail} (h : s.WantSame t) : s.WantSame (t.xbDrop c v tail) := by
  unfold State.xbDrop
  split
  · exact h
  · generalize frontFlits _ = f
    exact .ite (h.updLk fun _ => rfl) (rxDrop (h.updLk fun _ => rfl))

theorem sinkPlane {k p v : Nat} : ∀ {t : State} (fuel : Nat), s.WantSame t → s.WantSame (t.sinkPlane k p v fuel)
  | _, 0, h => h
  | t, fuel + 1, h => by
    unfold State.sinkPlane
    dsimp only
    split
    · exact h
    · split
      · exact h
      · exact .ite h (sinkPlane fuel (.ite (count (credits h.updPort)) (credits h.updPort)))

theorem sinkXb {c v : Nat} : ∀ {t : State} (fuel : Nat), s.WantSame t → s.WantSame (t.sinkXb c v fuel)
  | _, 0, h => h
  | t, fuel + 1, h => by
    unfold State.sinkXb
    split
    · exact h
    · split
      · exact h
      · exact .ite h (sinkXb fuel (.ite (count h.xbDrop) h.xbDrop))

theorem sinkAll {k} (h : s.WantSame t) : s.WantSame (t.sinkAll k) :=
  h.foldl fun _ _ h => foldl (fun _ _ h => h.sinkXb 8) ((h.sinkPlane 16).sinkPlane 16)

end State.WantSame

/-! ### Links that fall -/

/-- A link that has let go of what it held of its far end. -/
def Link.cut (l : Link) : Link := { l.noTime with
    kind := 0, tries := 0, hiz := 0, fall := none, replay := [], rp := none, rrow := 0, nak := false, nakSeen := false
    cred := List.replicate 16 0, seen := List.replicate 16 0, cnt := List.replicate 16 0
    hold := List.replicate 16 none, owner := none, relayQ := [], relayIn := [], new := true, sink := true }

/-- The port of a link that was up or training, before the link shows its new state. -/
def State.linkCut (s : State) (k j : Nat) : State :=
  ((((((s.count (spB k) F.SP_DOWN_DROP_CNT_COUNT (s.lk (4 * k + j)).lost).finishRx (4 * k + j)).updLk (4 * k + j) Link.cut).jointsLost
    (4 * k + j)).sinkAll k).pump (.span 0 k)).pump (.span 1 k)

theorem State.linkDown_eq (s : State) (k j st : Nat) : s.linkDown k j st =
    if s.lst k j = 0 ∨ s.lst k j = 7 then s.setLst k j st else ((s.linkCut k j).setLst k j st).spanEvent k 1 := rfl

theorem State.WantSame.linkCut (s : State) (k j : Nat) : s.WantSame (s.linkCut k j) := by
  have hcut : s.WantSame (((s.count (spB k) F.SP_DOWN_DROP_CNT_COUNT (s.lk (4 * k + j)).lost).finishRx (4 * k + j)).updLk (4 * k + j)
      Link.cut) := .updLk (.finishRx (.count (.refl s))) fun _ => rfl
  unfold State.linkCut
  exact hcut.jointsLost.sinkAll.pump.pump

/-- A link that falls or is held down keeps its request for leave, and shows its state. -/
theorem State.linkDown_spec (s : State) (k j : Nat) {st : Nat} (h : st = 0 ∨ st = 7) : (s.linkDown k j st).lst k j = st
    ∧ (s.linkDown k j st).lf k j F.SP_L_STAT_LSTATE = 0 ∧ s.WantSame (s.linkDown k j st) := by
  have hlt : st < 8 := by omega
  rw [State.linkDown_eq]
  split
  · exact ⟨s.lst_setLst k j hlt, s.lstate_setLst k j h, (State.WantSame.refl s).wr.wr⟩
  · have hwant := State.WantSame.linkCut s k j
    generalize s.linkCut k j = v at hwant ⊢
    exact ⟨(State.lf_spanEvent _ k 1 j (by decide)).trans (v.lst_setLst k j hlt),
      (State.lf_spanEvent _ k 1 j (by decide)).trans (v.lstate_setLst k j h), State.WantSame.raise (.wr (.wr hwant))⟩

theorem State.give_spec (s : State) (kind who : Nat) : { s.give kind who with asks := s.asks, leaveQ := s.leaveQ, gives := s.gives } = s
    ∧ (s.give kind who).hasLeave kind who = false := by
  rw [State.give]
  dsimp only
  split
  · refine ⟨rfl, ?_⟩
    simp [State.hasLeave]
  next h =>
    refine ⟨rfl, ?_⟩
    rw [State.hasLeave]
    exact Bool.eq_false_iff.mpr h

end Sys2Proof.Machine
end

section
/-! SUPPORT. What the Span commands and the states of training answer (R561, R570 to R574, R586). -/

namespace Sys2Proof.Machine

section
variable {s : State} {x k j : Nat} {c : Cmd}

/-! ### The commands -/

theorem exec_spanTrain_issued (h : s.Issued x 0x70 [(0, 8)] c) (hk : k = c.p 0 2) (hj : j = c.p 2 2) : exec (.spanTrain x) s
    = .next (if s.hasLink k j = false ∨ 5 ≤ c.p 4 3 ∨ s.group k < widthOf (s.group k) (c.p 4 3) ∨ s.allocOk k j = false then
        (s.begin x).reply x 3 []
      else if 1 < s.roles 1 ∨ 8 < s.roles 2 then (s.begin x).reply x 0x44 []
      else if (s.lst k j ≠ 0 ∧ s.lst k j ≠ 5 ∧ s.lst k j ≠ 7) ∨ (s.lk (4 * k + j)).cmd.isSome = true
          ∨ (s.lk (4 * k + j)).fall.isSome = true then (s.begin x).reply x 6 []
      else (((s.begin x).lw k j F.SP_L_CFG_WIDTH_REQ (c.p 4 3)).updLk (4 * k + j) (fun l => { l with cmd := some x })).askTrain k j
        (if s.lst k j = 5 ∧ c.p 7 1 = 0 then 3 else 1)) := by
  subst hk hj
  exact congrArg Host.Outcome.next (State.runCmd_issued s h _)

theorem exec_spanDown_issued (h : s.Issued x 0x71 [(0, 4)] c) (hk : k = c.p 0 2) (hj : j = c.p 2 2) : exec (.spanDown x) s
    = .next (if s.hasLink k j = false then (s.begin x).reply x 3 []
      else (((((s.begin x).trainReply k j 0x40 []).updLk (4 * k + j) (fun l => { l with want := 0, fall := none })).give 3
        (4 * k + j)).linkDown k j 7).reply x 0 []) := by
  subst hk hj
  exact congrArg Host.Outcome.next (State.runCmd_issued s h _)

theorem exec_spanSplit_issued (h : s.Issued x 0x72 [(0, 2), (4, 2)] c) (hk : k = c.p 0 2) : exec (.spanSplit x) s
    = .next (if s.hasSpan k = false ∨ c.p 4 2 = 3 then (s.begin x).reply x 3 []
      else if (List.range (s.nLinks k)).any (fun j => s.lst k j != 0 && s.lst k j != 7) then (s.begin x).reply x 6 []
      else ((s.begin x).wr (spB k) F.SP_CFG_SPLIT (c.p 4 2)).reply x 0 []) := by
  subst hk
  exact congrArg Host.Outcome.next (State.runCmd_issued s h _)

theorem exec_spanStatus_issued (h : s.Issued x 0x73 [(0, 2)] c) (hk : k = c.p 0 2) : exec (.spanStatus x) s
    = .next (if s.hasSpan k = false then (s.begin x).reply x 3 []
      else (s.begin x).reply x 0 ((List.range (s.nLinks k)).flatMap (fun i =>
        [F.SP_L_STAT_STATE, F.SP_L_FAR_INST, F.SP_L_LANE_C, F.SP_L_RTT_NS, F.SP_L_REPLAY_CNT_COUNT,
          F.SP_L_RETRAIN_CNT_COUNT].flatMap (fun f => leBytes 4 (s.word (spB k + (f.ix i).off)).toNat)))) := by
  subst hk
  exact congrArg Host.Outcome.next (State.runCmd_issued s h _)

theorem State.lk_ask (s : State) (kind who c : Nat) : (s.ask kind who).lk c = s.lk c := rfl

/-- A link that asks for a training: what it wants, and the request if it has none. -/
theorem State.askTrain_spec (s : State) (k j kind : Nat) :
    ((s.askTrain k j kind).lk (4 * k + j)).want
      = (if (s.lk (4 * k + j)).want = 0 then kind else if kind = 1 then 1 else (s.lk (4 * k + j)).want)
    ∧ ((s.askTrain k j kind).lk (4 * k + j)).cmd = (s.lk (4 * k + j)).cmd
    ∧ (s.askTrain k j kind).asks = s.asks ++ (if (s.lk (4 * k + j)).want = 0 then [{ kind := 3, who := 4 * k + j }] else [])
    ∧ (s.askTrain k j kind).csr = s.csr ∧ (s.askTrain k j kind).rom = s.rom ∧ (s.askTrain k j kind).straps = s.straps := by
  rw [State.askTrain]
  by_cases h : (s.lk (4 * k + j)).want = 0
  · rw [if_neg (not_not_intro h), if_pos h, if_pos h]
    refine ⟨?_, ?_, rfl, rfl, rfl, rfl⟩
    · rw [State.lk_ask, State.lk_updLk_same]
    · rw [State.lk_ask, State.lk_updLk_same]
  · rw [if_pos h, if_neg h, if_neg h]
    refine ⟨?_, ?_, (List.append_nil _).symm, rfl, rfl, rfl⟩
    · rw [State.lk_updLk_same]
    · rw [State.lk_updLk_same]

theorem State.lf_askTrain (s : State) (k j kind k' j' : Nat) (f : Fld) : (s.askTrain k j kind).lf k' j' f = s.lf k' j' f := by
  obtain ⟨-, -, -, hcsr, hrom, hstraps⟩ := s.askTrain_spec k j kind
  rw [State.lf, State.lf, State.rd, State.rd, State.word, State.word, hcsr, hrom, hstraps]

theorem spanTrain_asks (h : s.Issued x 0x70 [(0, 8)] c) (hk : k = c.p 0 2) (hj : j = c.p 2 2) (hl : s.hasLink k j = true)
    (hw : c.p 4 3 < 5) (hg : widthOf (s.group k) (c.p 4 3) ≤ s.group k) (ha : s.allocOk k j = true) (hup : s.roles 1 ≤ 1)
    (hdn : s.roles 2 ≤ 8) (hst : s.lst k j = 0 ∨ s.lst k j = 5 ∨ s.lst k j = 7) (hcmd : (s.lk (4 * k + j)).cmd = none)
    (hfall : (s.lk (4 * k + j)).fall = none) : ∃ t : State, exec (.spanTrain x) s = .next t
      ∧ t.lf k j F.SP_L_CFG_WIDTH_REQ = c.p 4 3 ∧ (t.lk (4 * k + j)).cmd = some x
      ∧ (t.lk (4 * k + j)).want = (if s.lst k j = 5 ∧ c.p 7 1 = 0 then
          (if (s.lk (4 * k + j)).want = 0 then 3 else (s.lk (4 * k + j)).want) else 1)
      ∧ t.asks = s.asks ++ (if (s.lk (4 * k + j)).want = 0 then [{ kind := 3, who := 4 * k + j }] else []) ∧ t.lst k j = s.lst k j := by
  have hparam : ¬ (s.hasLink k j = false ∨ 5 ≤ c.p 4 3 ∨ s.group k < widthOf (s.group k) (c.p 4 3) ∨ s.allocOk k j = false) := by
    rw [hl, ha]
    simp only [reduceCtorEq, false_or, or_false]
    omega
  have hroles : ¬ (1 < s.roles 1 ∨ 8 < s.roles 2) := by omega
  have hidle : ¬ ((s.lst k j ≠ 0 ∧ s.lst k j ≠ 5 ∧ s.lst k j ≠ 7) ∨ (s.lk (4 * k + j)).cmd.isSome = true
      ∨ (s.lk (4 * k + j)).fall.isSome = true) := by
    rw [hcmd, hfall]
    rintro (⟨h0, h5, h7⟩ | e | e)
    · rcases hst with e | e | e
      · exact h0 e
      · exact h5 e
      · exact h7 e
    · cases e
    · cases e
  rw [exec_spanTrain_issued h hk hj, if_neg hparam, if_neg hroles, if_neg hidle]
  set u := ((s.begin x).lw k j F.SP_L_CFG_WIDTH_REQ (c.p 4 3)).updLk (4 * k + j) (fun l => { l with cmd := some x }) with hu
  have hlk : u.lk (4 * k + j) = { s.lk (4 * k + j) with cmd := some x } := State.lk_updLk_same ..
  obtain ⟨hwant, hc, hasks, -⟩ := u.askTrain_spec k j (if s.lst k j = 5 ∧ c.p 7 1 = 0 then 3 else 1)
  rw [hlk] at hwant hc hasks
  refine ⟨_, rfl, ?_, hc, ?_, hasks, ?_⟩
  · rw [State.lf_askTrain]
    exact ((s.begin x).lf_lw_same k j F.SP_L_CFG_WIDTH_REQ (c.p 4 3) (by decide)).trans (Nat.mod_eq_of_lt (by
      show c.p 4 3 < 8
      omega))
  · rw [hwant]
    by_cases hlight : s.lst k j = 5 ∧ c.p 7 1 = 0
    · rw [if_pos hlight, if_pos hlight, if_neg (show ¬ 3 = 1 by decide)]
    · rw [if_neg hlight, if_neg hlight, if_pos rfl]
      exact ite_self 1
  · rw [State.lst, State.lf_askTrain]
    exact (s.begin x).lf_lw_ne k j (c.p 4 3) (f := F.SP_L_CFG_WIDTH_REQ) (f' := F.SP_L_STAT_STATE) (by decide) rfl

theorem spanTrain_refused (h : s.Issued x 0x70 [(0, 8)] c) (hk : k = c.p 0 2) (hj : j = c.p 2 2) :
    ((s.hasLink k j = false ∨ 5 ≤ c.p 4 3 ∨ s.group k < widthOf (s.group k) (c.p 4 3) ∨ s.allocOk k j = false) →
      exec (.spanTrain x) s = .next ((s.begin x).reply x 3 []))
    ∧ (s.hasLink k j = true → c.p 4 3 < 5 → widthOf (s.group k) (c.p 4 3) ≤ s.group k → s.allocOk k j = true →
      ((1 < s.roles 1 ∨ 8 < s.roles 2) → exec (.spanTrain x) s = .next ((s.begin x).reply x 0x44 []))
      ∧ (s.roles 1 ≤ 1 → s.roles 2 ≤ 8 → ((s.lst k j ≠ 0 ∧ s.lst k j ≠ 5 ∧ s.lst k j ≠ 7) ∨ (s.lk (4 * k + j)).cmd.isSome = true
        ∨ (s.lk (4 * k + j)).fall.isSome = true) → exec (.spanTrain x) s = .next ((s.begin x).reply x 6 []))) := by
  refine ⟨fun hbad => ?_, fun hl hw hg ha => ?_⟩
  · rw [exec_spanTrain_issued h hk hj, if_pos hbad]
  · have hparam : ¬ (s.hasLink k j = false ∨ 5 ≤ c.p 4 3 ∨ s.group k < widthOf (s.group k) (c.p 4 3) ∨ s.allocOk k j = false) := by
      rw [hl, ha]
      simp only [reduceCtorEq, false_or, or_false]
      omega
    refine ⟨fun hroles => ?_, fun hup hdn hbusy => ?_⟩
    · rw [exec_spanTrain_issued h hk hj, if_neg hparam, if_pos hroles]
    · rw [exec_spanTrain_issued h hk hj, if_neg hparam, if_neg (by omega), if_pos hbusy]

theorem spanDown_holds (h : s.Issued x 0x71 [(0, 4)] c) (hk : k = c.p 0 2) (hj : j = c.p 2 2) (hl : s.hasLink k j = true) :
    ∃ v : State, exec (.spanDown x) s = .next (v.reply x 0 []) ∧ v.lst k j = 7 ∧ v.lf k j F.SP_L_STAT_LSTATE = 0
      ∧ (v.lk (4 * k + j)).want = 0 := by
  refine ⟨_, by rw [exec_spanDown_issued h hk hj, if_neg (ne_false_of_eq_true hl)], ?_⟩
  have hwant : (((((s.begin x).trainReply k j 0x40 []).updLk (4 * k + j) (fun l => { l with want := 0, fall := none })).give 3
      (4 * k + j)).lk (4 * k + j)).want = 0 := by
    have hzero := ((s.begin x).trainReply k j 0x40 []).lk_updLk_same (4 * k + j) fun l => { l with want := 0, fall := none }
    obtain ⟨hgive, -⟩ := (((s.begin x).trainReply k j 0x40 []).updLk (4 * k + j) (fun l => { l with want := 0, fall := none })).give_spec
      3 (4 * k + j)
    have hlk := congrArg (fun v : State => v.lk (4 * k + j)) hgive
    exact (congrArg Link.want hlk).trans (congrArg Link.want hzero)
  obtain ⟨hst, hls, hkept⟩ := State.linkDown_spec ((((s.begin x).trainReply k j 0x40 []).updLk (4 * k + j)
    (fun l => { l with want := 0, fall := none })).give 3 (4 * k + j)) k j (st := 7) (.inr rfl)
  exact ⟨hst, hls, (hkept.want _).trans hwant⟩

theorem spanSplit_answers (h : s.Issued x 0x72 [(0, 2), (4, 2)] c) (hk : k = c.p 0 2) :
    ((s.hasSpan k = false ∨ c.p 4 2 = 3) → exec (.spanSplit x) s = .next ((s.begin x).reply x 3 []))
    ∧ (s.hasSpan k = true → c.p 4 2 ≠ 3 → (∀ i, i < s.nLinks k → s.lst k i ≠ 0 → s.lst k i ≠ 7 →
        exec (.spanSplit x) s = .next ((s.begin x).reply x 6 []))
      ∧ ((∀ i, i < s.nLinks k → s.lst k i = 0 ∨ s.lst k i = 7) →
        exec (.spanSplit x) s = .next (((s.begin x).wr (spB k) F.SP_CFG_SPLIT (c.p 4 2)).reply x 0 []))) := by
  have hparam (hs : s.hasSpan k = true) (h3 : c.p 4 2 ≠ 3) : ¬ (s.hasSpan k = false ∨ c.p 4 2 = 3) := fun e =>
    e.elim (ne_false_of_eq_true hs) h3
  refine ⟨fun hbad => ?_, fun hs h3 => ⟨fun i hi h0 h7 => ?_, fun hdown => ?_⟩⟩
  · rw [exec_spanSplit_issued h hk, if_pos hbad]
  · rw [exec_spanSplit_issued h hk, if_neg (hparam hs h3), if_pos]
    exact List.any_eq_true.mpr ⟨i, List.mem_range.mpr hi, by rw [bne_iff_ne.mpr h0, bne_iff_ne.mpr h7]; rfl⟩
  · rw [exec_spanSplit_issued h hk, if_neg (hparam hs h3), if_neg]
    intro hany
    obtain ⟨i, hi, hup⟩ := List.any_eq_true.mp hany
    obtain ⟨h0, h7⟩ := (Bool.and_eq_true ..).mp hup
    rcases hdown i (List.mem_range.mp hi) with e | e
    · exact bne_iff_ne.mp h0 e
    · exact bne_iff_ne.mp h7 e

end

/-! ### The states of training -/

section
variable {s : State} {k j : Nat}

/-- What the end of a training state does, by the state. -/
def State.trainNext (s : State) (k j : Nat) (classes : List Nat) (rev : Bool) (rtt : Nat) : Nat → State
  | 1 => (s.detect k j classes rev).setLst k j 2
  | 2 => s.setLst k j 3
  | 3 => (s.updLk (4 * k + j) (fun l => { l with far := none })).setLst k j 4
  | 4 => s.config k j rtt
  | 6 => s.config k j rtt
  | _ => s

theorem exec_trainStateDone_of (h : s.hasLink k j = true) (classes : List Nat) (rev : Bool) (rtt : Nat) :
    exec (.trainStateDone k j classes rev rtt) s
      = .next (if (s.lk (4 * k + j)).fall.isSome then s else s.trainNext k j classes rev rtt (s.lst k j)) := by
  change guardUnit s (s.hasLink k j) _ = _
  exact guardUnit_of h _ _

theorem State.trainNext_self {classes : List Nat} {rev : Bool} {rtt st : Nat} (h : st = 0 ∨ st = 5 ∨ 7 ≤ st) :
    s.trainNext k j classes rev rtt st = s := by
  rcases h with rfl | rfl | h
  · rfl
  · rfl
  · obtain ⟨n, rfl⟩ := Nat.exists_eq_add_of_le h
    rw [Nat.add_comm]
    rfl

theorem State.trainNext_config {classes : List Nat} {rev : Bool} {rtt st : Nat} (h : st = 4 ∨ st = 6) :
    s.trainNext k j classes rev rtt st = s.config k j rtt := by
  rcases h with rfl | rfl
  · rfl
  · rfl

/-- A link in CONFIG or RETRAIN, once it knows its far end, comes up or fails. -/
theorem State.config_of_far {rtt : Nat} {f : LinkInfo} (h : (s.lk (4 * k + j)).far = some f) : s.config k j rtt =
    if f.inst = s.instNum then s.trainFail k j 0x43
    else if s.allocOk k j = false then s.trainFail k j 0x41
    else match laneGroup (s.group k) (min (widthOf (s.group k) (s.lf k j F.SP_L_CFG_WIDTH_REQ)) (widthOf (s.group k) f.width))
        (s.goodLanes k j &&& f.mask) with
      | none => s.trainFail k j 0x42
      | some (l0, w) => s.linkUp k j l0 w (s.goodLanes k j &&& f.mask) rtt f := by
  rw [State.config, h] <;> rfl

theorem trainStateDone_config (h : s.hasLink k j = true) (classes : List Nat) (rev : Bool) (rtt : Nat) (f : LinkInfo)
    (hfall : (s.lk (4 * k + j)).fall = none) (hst : s.lst k j = 4 ∨ s.lst k j = 6) (hfar : (s.lk (4 * k + j)).far = some f) :
    (f.inst = s.instNum → exec (.trainStateDone k j classes rev rtt) s = .next (s.trainFail k j 0x43))
    ∧ (f.inst ≠ s.instNum → s.allocOk k j = false → exec (.trainStateDone k j classes rev rtt) s = .next (s.trainFail k j 0x41))
    ∧ (f.inst ≠ s.instNum → s.allocOk k j = true → laneGroup (s.group k)
        (min (widthOf (s.group k) (s.lf k j F.SP_L_CFG_WIDTH_REQ)) (widthOf (s.group k) f.width))
        (s.goodLanes k j &&& f.mask) = none → exec (.trainStateDone k j classes rev rtt) s = .next (s.trainFail k j 0x42))
    ∧ (∀ l0 w, f.inst ≠ s.instNum → s.allocOk k j = true → laneGroup (s.group k)
        (min (widthOf (s.group k) (s.lf k j F.SP_L_CFG_WIDTH_REQ)) (widthOf (s.group k) f.width))
        (s.goodLanes k j &&& f.mask) = some (l0, w) → exec (.trainStateDone k j classes rev rtt) s
          = .next (s.linkUp k j l0 w (s.goodLanes k j &&& f.mask) rtt f)) := by
  have hexec : exec (.trainStateDone k j classes rev rtt) s = .next (s.config k j rtt) := by
    rw [exec_trainStateDone_of h, hfall, State.trainNext_config hst]
    rfl
  rw [hexec, State.config_of_far hfar]
  refine ⟨fun hi => ?_, fun hi ha => ?_, fun hi ha hg => ?_, fun l0 w hi ha hg => ?_⟩
  · rw [if_pos hi]
  · rw [if_neg hi, if_pos ha]
  · rw [if_neg hi, if_neg (ne_false_of_eq_true ha), hg]
  · rw [if_neg hi, if_neg (ne_false_of_eq_true ha), hg]

theorem trainStateDone_idle (h : s.hasLink k j = true) (classes : List Nat) (rev : Bool) (rtt : Nat)
    (hidle : (s.lk (4 * k + j)).fall.isSome = true ∨ s.lst k j = 0 ∨ s.lst k j = 5 ∨ 7 ≤ s.lst k j
      ∨ (s.lst k j = 4 ∨ s.lst k j = 6) ∧ (s.lk (4 * k + j)).far = none) :
    exec (.trainStateDone k j classes rev rtt) s = .next s := by
  rw [exec_trainStateDone_of h]
  split
  · rfl
  next hf =>
    rcases hidle with e | e | e | e | ⟨e, hfar⟩
    · exact absurd e hf
    · rw [State.trainNext_self (.inl e)]
    · rw [State.trainNext_self (.inr (.inl e))]
    · rw [State.trainNext_self (.inr (.inr e))]
    · rw [State.trainNext_config e, State.config, hfar]

theorem exec_trainStateTmo_of (h : s.hasLink k j = true) : exec (.trainStateTmo k j) s
    = .next (if (s.lk (4 * k + j)).fall.isNone && [1, 2, 3, 4, 6].contains (s.lst k j) then s.trainFail k j 0x41 else s) := by
  change guardUnit s (s.hasLink k j) _ = _
  rw [guardUnit_of h]

theorem trainStateTmo_idle (h : s.hasLink k j = true) (hidle : (s.lk (4 * k + j)).fall.isSome = true ∨ s.lst k j = 0
    ∨ s.lst k j = 5 ∨ 7 ≤ s.lst k j) : exec (.trainStateTmo k j) s = .next s := by
  rw [exec_trainStateTmo_of h]
  refine congrArg _ (if_neg fun hgo => ?_)
  obtain ⟨hnone, hmem⟩ := (Bool.and_eq_true ..).mp hgo
  have hst : s.lst k j = 1 ∨ s.lst k j = 2 ∨ s.lst k j = 3 ∨ s.lst k j = 4 ∨ s.lst k j = 6 := by simpa using hmem
  rcases hidle with e | e
  · rw [Option.isNone_iff_eq_none.mp hnone] at e
    cases e
  · omega

theorem exec_trainStateTmo_late (h : s.hasLink k j = true) (hfall : (s.lk (4 * k + j)).fall = none) (hst : s.lst k j = 1
    ∨ s.lst k j = 2 ∨ s.lst k j = 3 ∨ s.lst k j = 4 ∨ s.lst k j = 6) : exec (.trainStateTmo k j) s = .next (s.trainFail k j 0x41) := by
  have hmem : [1, 2, 3, 4, 6].contains (s.lst k j) = true := by simpa using hst
  rw [exec_trainStateTmo_of h, hfall, hmem]
  exact congrArg _ (if_pos (by decide))

theorem State.trainFail_retrain (h : s.lst k j = 6) (why : Nat) : (s.trainFail k j why).lst k j = 1 := by
  rw [State.trainFail, if_pos h]
  exact State.lst_setLst _ k j (by decide)

theorem State.firstOver_links (s : State) (c : Nat) : (s.firstOver c).links = s.links ∧ (s.firstOver c).csr = s.csr
    ∧ (s.firstOver c).rom = s.rom ∧ (s.firstOver c).straps = s.straps := by
  rw [State.firstOver]
  split
  · exact ⟨rfl, rfl, rfl, rfl⟩
  · exact ⟨rfl, rfl, rfl, rfl⟩

theorem State.trainFail_of_first (h : s.lst k j ≠ 6) (why : Nat) : s.trainFail k j why =
    if ((s.firstOver (4 * k + j)).lk (4 * k + j)).tries + 1 < max 1 ((s.firstOver (4 * k + j)).rd (spB k) F.SP_TRAIN_CFG_ATTEMPTS) then
      ((s.firstOver (4 * k + j)).updLk (4 * k + j) (fun l => { l with tries := l.tries + 1, far := none })).setLst k j 1
    else ((s.firstOver (4 * k + j)).trainReply k j why ((s.firstOver (4 * k + j)).linkStat k j)).updLk (4 * k + j)
      (fun l => { l with fall := some why }) := if_neg h

theorem State.cmd_trainReply (s : State) (k j status : Nat) (data : List Byte) :
    ((s.trainReply k j status data).lk (4 * k + j)).cmd = none := by
  rw [State.trainReply, State.lk_updLk_same]

/-- A failed try is tried again, until there have been ATTEMPTS. -/
theorem State.trainFail_try (h : s.lst k j ≠ 6) (why : Nat) :
    ((s.lk (4 * k + j)).tries + 1 < max 1 (s.rd (spB k) F.SP_TRAIN_CFG_ATTEMPTS) → (s.trainFail k j why).lst k j = 1
      ∧ ((s.trainFail k j why).lk (4 * k + j)).tries = (s.lk (4 * k + j)).tries + 1)
    ∧ (max 1 (s.rd (spB k) F.SP_TRAIN_CFG_ATTEMPTS) ≤ (s.lk (4 * k + j)).tries + 1 →
      ((s.trainFail k j why).lk (4 * k + j)).fall = some why ∧ ((s.trainFail k j why).lk (4 * k + j)).cmd = none) := by
  obtain ⟨hlinks, hcsr, hrom, hstraps⟩ := s.firstOver_links (4 * k + j)
  rw [State.trainFail_of_first h]
  have hlk : (s.firstOver (4 * k + j)).lk (4 * k + j) = s.lk (4 * k + j) := by rw [State.lk, State.lk, hlinks]
  have hrd : (s.firstOver (4 * k + j)).rd (spB k) F.SP_TRAIN_CFG_ATTEMPTS = s.rd (spB k) F.SP_TRAIN_CFG_ATTEMPTS := by
    rw [State.rd, State.rd, State.word, State.word, hcsr, hrom, hstraps]
  generalize s.firstOver (4 * k + j) = u at hlk hrd
  constructor
  · intro hmore
    rw [hlk, hrd, if_pos hmore, ← hlk]
    exact ⟨State.lst_setLst _ k j (by decide), by rw [State.lk_setLst, State.lk_updLk_same]⟩
  · intro hlast
    rw [hlk, hrd, if_neg (Nat.not_lt.mpr hlast), State.lk_updLk_same]
    exact ⟨rfl, u.cmd_trainReply k j why (u.linkStat k j)⟩

theorem exec_linkDownEntry_of (h : s.hasLink k j = true) : exec (.linkDownEntry k j) s
    = .next (if (s.lk (4 * k + j)).fall.isSome then ((s.linkDown k j 0).updLk (4 * k + j) (fun l => { l with want := 0 })).give 3
        (4 * k + j) else s) := by
  change guardUnit s (s.hasLink k j) _ = _
  rw [guardUnit_of h]

theorem linkDownEntry_falls (h : s.hasLink k j = true) {why : Nat} (hfall : (s.lk (4 * k + j)).fall = some why) :
    ∃ t : State, exec (.linkDownEntry k j) s = .next t ∧ t.lst k j = 0 ∧ t.lf k j F.SP_L_STAT_LSTATE = 0
      ∧ (t.lk (4 * k + j)).want = 0 ∧ t.hasLeave 3 (4 * k + j) = false := by
  refine ⟨_, by rw [exec_linkDownEntry_of h, hfall, Option.isSome_some, if_pos rfl], ?_⟩
  obtain ⟨hst, hls, -⟩ := s.linkDown_spec k j (st := 0) (.inl rfl)
  generalize s.linkDown k j 0 = u at hst hls
  obtain ⟨hgive, hleave⟩ := (u.updLk (4 * k + j) (fun l => { l with want := 0 })).give_spec 3 (4 * k + j)
  have hlk := u.lk_updLk_same (4 * k + j) fun l => { l with want := 0 }
  have hwant := congrArg (fun v : State => (v.lk (4 * k + j)).want) hgive
  have hlst := congrArg (fun v : State => v.lst k j) hgive
  have hlstate := congrArg (fun v : State => v.lf k j F.SP_L_STAT_LSTATE) hgive
  exact ⟨hlst.trans hst, hlstate.trans hls, hwant.trans (congrArg Link.want hlk), hleave⟩

theorem exec_spanDownRetry_of (h : s.hasLink k j = true) : exec (.spanDownRetry k j) s
    = .next (if s.lst k j = 0 ∧ s.rd (spB k) F.SP_CFG_RETRY_MS ≠ 0 then s.askTrain k j 1 else s) := by
  change guardUnit s (s.hasLink k j) _ = _
  rw [guardUnit_of h]

end

/-- Settles O44: each command and each end of a training state is the branch that the link's state and the far end choose; a fall
leaves the fields of the link as its last writes set them. -/
theorem spanLinksTrain : Obligations.SpanLinksTrain := by
  unfold Obligations.SpanLinksTrain
  constructor
  · intro s x k j c hk hj
    refine ⟨fun h => spanTrain_asks h hk hj, fun h => spanTrain_refused h hk hj, fun h hl _ => spanDown_holds h hk hj hl, fun h hl => ?_, fun hno =>
      ⟨fun h => (spanTrain_refused h hk hj).1 (.inl hno), fun h => ?_⟩, fun h hs h3 hdown => ((spanSplit_answers h hk).2 hs h3).2 hdown,
      fun h => ⟨(spanSplit_answers h hk).1, fun hs h3 => ((spanSplit_answers h hk).2 hs h3).1⟩, fun h hs => ?_, fun h hs => ?_⟩
    · rw [exec_spanDown_issued h hk hj, if_neg (ne_false_of_eq_true hl)]
    · rw [exec_spanDown_issued h hk hj, if_pos hno]
    · rw [exec_spanStatus_issued h hk, if_pos hs]
    · rw [exec_spanStatus_issued h hk, if_neg (ne_false_of_eq_true hs)]
  · intro s k j
    refine ⟨fun hno => ⟨fun _ _ _ => guardUnit_next fun h => ?_, guardUnit_next fun h => ?_, guardUnit_next fun h => ?_,
      guardUnit_next fun h => ?_⟩, fun h => ?_⟩
    iterate 4 exact absurd h (ne_true_of_eq_false hno)
    refine ⟨trainStateDone_idle h, fun classes rev rtt f hfall hst hfar => ?_, fun hfall classes rev rtt => ?_,
      trainStateTmo_idle h, fun hfall => ?_, fun hidle => ?_, fun hst hretry hwant => ?_, fun hfall => ?_, fun why hfall =>
        linkDownEntry_falls h hfall, fun hst hretry hwant => ?_⟩
    · obtain ⟨hself, halloc, hnone, -⟩ := trainStateDone_config h classes rev rtt f hfall hst hfar
      exact ⟨hself, halloc, hnone⟩
    · refine ⟨fun hst => ?_, fun hst => ?_, fun hst => ?_, fun f l0 w hst hfar hi ha hg => ?_⟩
      · rw [exec_trainStateDone_of h, hfall, hst]
        rfl
      · rw [exec_trainStateDone_of h, hfall, hst]
        rfl
      · rw [exec_trainStateDone_of h, hfall, hst]
        exact ⟨(s.updLk (4 * k + j) (fun l => { l with far := none })).setLst k j 4, rfl, State.lst_setLst _ k j (by decide),
          by rw [State.lk_setLst, State.lk_updLk_same]⟩
      · obtain ⟨-, -, -, hup⟩ := trainStateDone_config h classes rev rtt f hfall hst hfar
        exact hup l0 w hi ha hg
    · rw [exec_linkDownEntry_of h, hfall]
      rfl
    · rw [exec_spanDownRetry_of h, if_neg]
      rintro ⟨h0, hr⟩
      rcases hidle with e | e
      · exact e h0
      · exact hr e
    · rw [exec_spanDownRetry_of h, if_pos ⟨hst, hretry⟩, State.askTrain, if_pos hwant]
      rfl
    · refine ⟨fun hst => ⟨_, exec_trainStateTmo_late h hfall (by omega), State.trainFail_retrain hst _⟩, fun hst => ⟨fun hmore => ?_,
        fun hlast => ?_⟩⟩
      · exact ⟨_, exec_trainStateTmo_late h hfall (by omega), (State.trainFail_try (by omega) _).1 hmore⟩
      · exact ⟨_, exec_trainStateTmo_late h hfall (by omega), (State.trainFail_try (by omega) _).2 hlast⟩
    · obtain ⟨hw, -, hasks, hcsr, -⟩ := s.askTrain_spec k j 1
      rw [hwant, if_pos rfl] at hw hasks
      exact ⟨_, by rw [exec_spanDownRetry_of h, if_pos ⟨hst, hretry⟩], hasks, hw, hcsr⟩

end Sys2Proof.Machine
end

section
/-! SUPPORT. The release of queued packets to the planes (R123, R254 to R257, R260, R394). -/

namespace Sys2Proof.Machine

/-! ### What the flits of a port leave of the NIs -/

namespace State.NisTold

variable {s t : State}

theorem setPort {o x} (h : s.NisTold t) : s.NisTold (t.setPort o x) := h.of_nis rfl
theorem updPort {o f} (h : s.NisTold t) : s.NisTold (t.updPort o f) := h.of_nis rfl
theorem updLk {c f} (h : s.NisTold t) : s.NisTold (t.updLk c f) := h.of_nis rfl

theorem planeFault {p cause} (h : s.NisTold t) : s.NisTold (t.planeFault p cause) :=
  of_nis (t := t.wr strB (if p = 0 then F.STR_PLN_STAT_FAULT_A else F.STR_PLN_STAT_FAULT_B) 1) h.wr rfl

theorem creditError {o bit vc} (h : s.NisTold t) : s.NisTold (t.creditError o bit vc) := by
  cases o with
  | rtr p r q =>
    have harb {kind port inPort v : Nat} {u : State} (hu : s.NisTold u) : s.NisTold (u.arbLog p r kind port inPort v) :=
      .ite hu hu.setWord
    exact planeFault (raise (harb (wr h)))
  | ni p n => exact planeFault (raise (setBit h))
  | span p k => exact h

theorem xingOverflow {o vc} (h : s.NisTold t) : s.NisTold (t.xingOverflow o vc) := by
  unfold State.xingOverflow
  dsimp only
  split
  · exact h.updPort.setBit.raise.planeFault
  · exact h.updPort.creditError
  · exact h.updPort

theorem drive {o fl} (h : s.NisTold t) : s.NisTold (t.drive o fl) := by
  unfold State.drive
  dsimp only
  split
  · exact h.updPort
  · exact .ite (.ite h.updPort.updPort (.ite h.updPort (.ite h.updPort.xingOverflow h.updPort.setPort))) h.updPort.updPort

theorem trace {input o vc hd ts} (h : s.NisTold t) : s.NisTold (t.trace input o vc hd ts) := by
  unfold State.trace
  refine .ite ?_ h
  dsimp only
  have hput : s.NisTold { t with trc := mset (fun _ => 0) t.trc (t.rd dbgB F.DBG_TRC_PTR_WR) (trcEntry ts hd vc) } := h.of_nis rfl
  generalize { t with trc := mset (fun _ => 0) t.trc (t.rd dbgB F.DBG_TRC_PTR_WR) (trcEntry ts hd vc) } = u at hput ⊢
  refine .ite h (.ite (.ite hput.wr.wr.wr (raise ?_)) hput.wr.wr)
  have hfull := ((hput.wr (b := dbgB) (f := F.DBG_TRC_PTR_WR) (v := t.rd dbgB F.DBG_TRC_PTR_WR + 1)).wr (b := dbgB)
    (f := F.DBG_TRC_PTR_COUNT) (v := min (t.rd dbgB F.DBG_TRC_PTR_COUNT + 1) 4096)).wr (b := dbgB) (f := F.DBG_TRC_PTR_FULL) (v := 1)
  generalize ((u.wr dbgB F.DBG_TRC_PTR_WR _).wr dbgB F.DBG_TRC_PTR_COUNT _).wr dbgB F.DBG_TRC_PTR_FULL 1 = v at hfull ⊢
  exact hfull.of_nis rfl

theorem slotCount {o} (h : s.NisTold t) : s.NisTold (t.slotCount o) := h.of_nis rfl

theorem slotFreed {o} (h : s.NisTold t) : s.NisTold (t.slotFreed o) := by
  cases o with
  | rtr p r q => exact h
  | ni p n => exact h.foldl fun a p h => .ite h (h.foldl fun a v h => by
      split
      · exact .ite h.updPort.updPort h
      · exact h)
  | span p k => exact h

theorem credit {o vc} (h : s.NisTold t) : s.NisTold (t.credit o vc) := by
  unfold State.credit
  split
  · exact h
  · exact h.updPort

theorem sendOne {o} (h : s.NisTold t) : s.NisTold (t.sendOne o) := by
  unfold State.sendOne
  dsimp only
  split
  · exact h
  · split
    · exact h
    · have hdrive {o' : Port} {x : PortSt} {hd : Option Hdr} {vc : Nat} {fl : Flit} {ts : Stamp} : s.NisTold ((match hd with
          | some y => (t.setPort o' x).trace false o' vc y ts
          | none => t.setPort o' x).drive o' fl) := drive (by
        split
        · exact h.setPort.trace
        · exact h.setPort)
      cases o with
      | rtr p r q => exact credit (updPort (slotCount hdrive))
      | ni p n => exact slotFreed (updPort (slotCount hdrive))
      | span p k => exact updLk (slotCount hdrive)

theorem pump {o} (h : s.NisTold t) : s.NisTold (t.pump o) := .ite (h.foldl fun _ _ h => h.sendOne) h

theorem sc0Send {n pl p hd} (h : s.NisTold t) : s.NisTold (t.sc0Send n pl p hd) := by
  unfold State.sc0Send State.stage
  exact h.updPort.updPort.pump

end State.NisTold

/-! ### SC0 -/

theorem NiSt.Told.sc0Sel {x y : NiSt} (h : x.Told y) : y.sc0Sel = x.sc0Sel := by rw [← h]
theorem NiSt.Told.sc0Last {x y : NiSt} (h : x.Told y) : y.sc0Last = x.sc0Last := by rw [← h]

section
variable {s : State} {n : Nat} {p : Qp} {t : Stamp}

theorem exec_sc0Release_of (hn : s.hasNi n = true) : exec (.sc0Release n t) s = .next (match if s.niClocked n then (s.ni n).selPk
    else none with
    | none => s
    | some p => if !(s.sc0Planes n p.e).isEmpty && (s.sc0Planes n p.e).all (fun pl => s.sc0Ready n pl p) then
        s.sc0Leave n p (s.sc0Planes n p.e) none t else s) := by
  change guardUnit s (s.hasNi n) _ = _
  exact guardUnit_of hn _ _

theorem exec_sc0Skew_of (hn : s.hasNi n = true) : exec (.sc0Skew n t) s = .next (match if s.niClocked n then (s.ni n).selPk
    else none with
    | none => s
    | some p => match s.sc0Planes n p.e, (s.sc0Planes n p.e).filter (fun pl => s.sc0Ready n pl p) with
      | [_, _], [pl] => s.sc0Late n p pl t
      | _, _ => s) := by
  change guardUnit s (s.hasNi n) _ = _
  exact guardUnit_of hn _ _

theorem State.sc0Leave_go {pls : List Nat} {late : Option Nat} (h : s.selVerdict n p t = .go) :
    s.sc0Leave n p pls late t = s.sc0Go n p pls late t := by
  rw [State.sc0Leave, h]

theorem State.sc0Leave_stays {pls : List Nat} {late : Option Nat} (h : s.selVerdict n p t = .wait ∨ s.selVerdict n p t = .hold) :
    s.sc0Leave n p pls late t = s.updNi n (fun x => { x with sc0Sel := none }) := by
  rw [State.sc0Leave]
  rcases h with h | h
  · rw [h]
  · rw [h]

/-- A selected packet of an injection queue that its entry now refuses or drops leaves the queue so, and the queue pays for it. -/
theorem State.sc0Leave_refused {pls : List Nat} {late : Option Nat} {v : Verdict} {q st : Nat} (h : s.selVerdict n p t = v)
    (hv : v = .refuse st ∨ v = .drop) (hq : (s.ni n).sc0Sel.bind (fun v => v.q) = some q) : s.sc0Leave n p pls late t
      = ((s.updNi n (fun x => { x with sc0Sel := none })).payQ n q ((s.updNi n (fun x => { x with sc0Sel := none })).headLen n q)).depart
        n q t false v := by
  rw [State.sc0Leave, h]
  rcases hv with rfl | rfl
  · rw [hq]
  · rw [hq]

/-- The packets of a queue after its head has left. -/
def NiSt.popped (x : NiSt) (q : Nat) (rest : List Qp) : List Qp := rest ++ (x.q q).pkts.drop 1

/-- The queue without its head. -/
def NiSt.popKept (x : NiSt) (q : Nat) (rest : List Qp) : NiSt :=
  x.setQ q { x.q q with
    pkts := x.popped q rest
    vt := if (x.popped q rest).isEmpty && (x.q q).vt != 0 && x.act.any (fun l => l.contains q) then 0 else (x.q q).vt }

/-- The queue leaves the list of its class where it is empty. -/
def NiSt.popAct (x : NiSt) (q : Nat) (rest : List Qp) : NiSt :=
  if (x.popped q rest).isEmpty then { x.popKept q rest with act := (x.popKept q rest).act.map (fun l => l.filter (fun j => j != q)) }
  else x.popKept q rest

theorem NiSt.popQ_eq (x : NiSt) (q : Nat) (rest : List Qp) : ∃ act drain, x.popQ q rest = { x.popKept q rest with act := act, sbDrain := drain } := by
  have hact : ∃ act, x.popAct q rest = { x.popKept q rest with act := act } := by
    unfold NiSt.popAct
    split
    · exact ⟨_, rfl⟩
    · exact ⟨_, rfl⟩
  obtain ⟨act, h⟩ := hact
  change ∃ act drain, (if (x.popAct q rest).sbHeld.isEmpty then { x.popAct q rest with sbDrain := false } else x.popAct q rest) = _
  rw [h]
  split
  · exact ⟨_, _, rfl⟩
  · exact ⟨_, _, rfl⟩

theorem NiSt.sc0Sel_popQ (x : NiSt) (q : Nat) (rest : List Qp) : (x.popQ q rest).sc0Sel = x.sc0Sel := by
  obtain ⟨act, drain, h⟩ := x.popQ_eq q rest
  rw [h]
  rfl

/-- A packet that leaves the selection leaves it empty. -/
theorem State.sc0Sel_unselect (s : State) (n : Nat) (p : Qp) : ((s.unselect n p).ni n).sc0Sel = none := by
  have hnone : ((s.updNi n (fun x => { x with sc0Sel := none })).ni n).sc0Sel = none := by rw [State.ni_updNi_same]
  rw [State.unselect]
  generalize s.updNi n (fun x => { x with sc0Sel := none }) = a at hnone ⊢
  split
  next q _ =>
    have hpay : ∀ ll, ((a.payQ n q ll).ni n).sc0Sel = (a.ni n).sc0Sel := by
      intro ll
      rw [State.payQ, State.ni_updNi_same]
      split
      · rfl
      · rfl
    rw [State.ni_updNi_same, NiSt.sc0Sel_popQ, hpay, hnone]
  next => rw [State.ni_updNi_same, hnone]

theorem NiSt.sc0_launch (x : NiSt) (p : Qp) (m : Nat) : (x.launch p m).sc0Sel = x.sc0Sel ∧ (x.launch p m).sc0Last = x.sc0Last := by
  rw [NiSt.launch]
  split
  · exact ⟨rfl, rfl⟩
  · split
    · exact ⟨rfl, rfl⟩
    · exact ⟨rfl, rfl⟩

theorem NiSt.sc0_shareStamp (x : NiSt) (p : Qp) (st : Stamp) : (x.shareStamp p st).sc0Sel = x.sc0Sel
    ∧ (x.shareStamp p st).sc0Last = x.sc0Last := by
  rw [NiSt.shareStamp]
  split
  · exact ⟨rfl, rfl⟩
  · exact ⟨rfl, rfl⟩

/-- An SC0 packet that leaves is no longer selected, and its time stands for the spacing of its entry. -/
theorem State.sc0Go_spec (s : State) (n : Nat) (p : Qp) (pls : List Nat) (t : Stamp) :
    ((s.sc0Go n p pls none t).ni n).sc0Sel = none
    ∧ mget (fun _ => none) ((s.sc0Go n p pls none t).ni n).sc0Last p.e = some (p.istamp.getD t) := by
  have hsel := s.sc0Sel_unselect n p
  rw [State.sc0Go]
  generalize s.unselect n p = a at hsel ⊢
  have hx : ∀ y : NiSt, y.sc0Sel = none →
      ((({ y with sc0Last := mset (fun _ => none) y.sc0Last p.e (some (p.istamp.getD t)) } : NiSt).launch p
        (a.entry n p.e).regmask).shareStamp p (p.istamp.getD t)).sc0Sel = none
      ∧ mget (fun _ => none) ((({ y with sc0Last := mset (fun _ => none) y.sc0Last p.e (some (p.istamp.getD t)) } : NiSt).launch p
        (a.entry n p.e).regmask).shareStamp p (p.istamp.getD t)).sc0Last p.e = some (p.istamp.getD t) := by
    intro y hy
    obtain ⟨h1, h2⟩ := ({ y with sc0Last := mset (fun _ => none) y.sc0Last p.e (some (p.istamp.getD t)) } : NiSt).sc0_launch p
      (a.entry n p.e).regmask
    obtain ⟨h3, h4⟩ := (({ y with sc0Last := mset (fun _ => none) y.sc0Last p.e (some (p.istamp.getD t)) } : NiSt).launch p
      (a.entry n p.e).regmask).sc0_shareStamp p (p.istamp.getD t)
    exact ⟨h3.trans (h1.trans hy), by rw [h4, h2, mget_mset_same]⟩
  have hsent := hx ((a.ni n).nextSeq p.e (4 * p.vn)).2 hsel
  have htold : ∀ (hd : Hdr) (x : NiSt), x.Told ((pls.foldl (fun b pl => b.sc0Send n pl p hd) (a.setNi n x)).ni n) := by
    intro hd x
    have h := ((State.NisTold.refl (a.setNi n x)).foldl (l := pls) (f := fun b pl => b.sc0Send n pl p hd) fun b pl hb =>
      hb.sc0Send).told n
    rwa [State.ni_setNi_same] at h
  have hlast := htold (a.header n p 0 (pls.length == 2 || false) ((a.ni n).nextSeq p.e (4 * p.vn)).1 (p.istamp.getD t))
    ((({ ((a.ni n).nextSeq p.e (4 * p.vn)).2 with
      sc0Last := mset (fun _ => none) ((a.ni n).nextSeq p.e (4 * p.vn)).2.sc0Last p.e (some (p.istamp.getD t)) } : NiSt).launch p
      (a.entry n p.e).regmask).shareStamp p (p.istamp.getD t))
  exact ⟨hlast.sc0Sel.trans hsent.1, (congrArg (fun m => mget (fun _ => none) m p.e) hlast.sc0Last).trans hsent.2⟩

end

end Sys2Proof.Machine
end

section
/-! SUPPORT. One release cycle of an NI whose system queue is empty (R254, R255, R260, R394). -/

namespace Sys2Proof.Machine

section
variable {s : State} {n q : Nat} {p : Qp} {t : Stamp} {r : List Qp}

/-! ### The turns of the classes -/

theorem exec_packetRelease_of (hn : s.hasNi n = true) (mem : Bool) : exec (.packetRelease n t mem) s
    = .next (if ((s.port (.ni 0 n)).dead && (s.port (.ni 1 n)).dead) || !s.niClocked n then s else s.release n t mem) :=
  guardUnit_of hn _ _

/-- One class's turn, unless a class before it has released a packet. -/
def State.turnOf (n : Nat) (t : Stamp) (mem : Bool) (a : State × Bool) (c : Nat) : State × Bool :=
  if a.2 then a else a.1.classTurn n c t mem

/-- Without system packets, and outside a test, a class's turn is that of its injection queues. -/
theorem State.classTurn_of_quiet (hsys : (s.ni n).sysq = []) (htest : s.rd dbgB F.DBG_STAT_TEST ≠ 1) (hbig : bigSched s.rom n = false)
    (c : Nat) (mem : Bool) : s.classTurn n c t mem = s.drr n c t mem := by
  have hturn : s.sysTurn n c t mem = (s, false) := by
    have hpick : (s.ni n).sysPick c = none := by
      rw [NiSt.sysPick, hsys]
      exact ite_self none
    rw [State.sysTurn, hpick]
  rw [State.classTurn, hturn]
  show (if false = true then _ else _) = _
  rw [if_neg Bool.false_ne_true, if_neg htest, hbig, if_neg Bool.false_ne_true]

theorem State.drr_of_nil {c : Nat} {mem : Bool} (h : (s.ni n).act.getD c [] = []) : s.drr n c t mem = (s, false) := by
  rw [State.drr, h]
  rfl

/-- The first class that has an active queue takes the cycle, if its turn releases a packet. -/
theorem State.release_of_turn {v u : State} {c : Nat} {mem : Bool} (hv : v = (s.updNi n (fun x => x.admitSys x.sysPend)).noteHolds n t mem)
    (hsys : (v.ni n).sysq = []) (htest : v.rd dbgB F.DBG_STAT_TEST ≠ 1) (hbig : bigSched v.rom n = false) (hc : c < 4)
    (hbelow : ∀ k, k < c → (v.ni n).act.getD k [] = []) (hturn : v.drr n c t mem = (u, true)) : s.release n t mem = u := by
  have hquiet (k : Nat) (hk : k < c) : State.turnOf n t mem (v, false) k = (v, false) :=
    (State.classTurn_of_quiet hsys htest hbig k mem).trans (State.drr_of_nil (hbelow k hk))
  have htook : State.turnOf n t mem (v, false) c = (u, true) := (State.classTurn_of_quiet hsys htest hbig c mem).trans hturn
  have hdone (k : Nat) : State.turnOf n t mem (u, true) k = (u, true) := rfl
  have hrel : s.release n t mem = ([0, 1, 2, 3].foldl (State.turnOf n t mem) (v.fallBack n (v.ni n).sysq.length, false)).1 := by
    rw [hv]
    rfl
  rw [hrel, hsys]
  show ([0, 1, 2, 3].foldl (State.turnOf n t mem) (v, false)).1 = u
  rw [List.foldl_cons, List.foldl_cons, List.foldl_cons, List.foldl_cons, List.foldl_nil]
  match c, hc with
  | 0, _ => rw [htook, hdone, hdone, hdone]
  | 1, _ => rw [hquiet 0 (by decide), htook, hdone, hdone]
  | 2, _ => rw [hquiet 0 (by decide), hquiet 1 (by decide), htook, hdone]
  | 3, _ => rw [hquiet 0 (by decide), hquiet 1 (by decide), hquiet 2 (by decide), htook]

/-! ### The head packet of a queue leaves -/

theorem State.expand_of_single (h : p.grp = none) : s.expand n p = [p] := by
  rw [State.expand, h]

theorem State.qVerdict_of_head (hsel : (s.ni n).sc0Sel.any (fun w => w.q == some q) = false) (hq : ((s.ni n).q q).pkts = p :: r)
    (hgrp : p.grp = none) (mem : Bool) : s.qVerdict n q t mem = s.verdict n q p t mem := by
  rw [State.qVerdict, hsel, if_neg Bool.false_ne_true, hq]
  show (match s.expand n p with
    | [] => _
    | c :: _ => _) = _
  rw [State.expand_of_single hgrp]

theorem State.headLen_of_head (hq : ((s.ni n).q q).pkts = p :: r) (hgrp : p.grp = none) : s.headLen n q = s.counted n p := by
  rw [State.headLen, State.headCopies, hq]
  show s.counted n ((s.expand n p).headD p) = _
  rw [State.expand_of_single hgrp]
  rfl

/-- NI `n` after the head packet of a queue has left it, and the shaper of its class has paid. -/
def State.headGone (s : State) (n q : Nat) (p : Qp) : State :=
  let a := s.updNi n (fun x => x.popQ q [])
  if p.sc = 1 then a.updNi n (fun x =>
      x.setShaper (x.q q).shaper { x.shaper (x.q q).shaper with credit := (x.shaper (x.q q).shaper).credit - 8 * (a.counted n p : Int) })
  else a

theorem State.depart_of_head (hq : ((s.ni n).q q).pkts = p :: r) (hgrp : p.grp = none) (hsc : p.sc ≠ 0) :
    s.depart n q t false .go = match (s.headGone n q p).planeFor n p.e p.sc (4 * p.vn + p.sc) with
      | some pl => (s.headGone n q p).toSlot n p pl t
      | none => s.headGone n q p := by
  have hcopies : s.expand n p = [p] := State.expand_of_single hgrp
  have htag : s.expandTag n p [p] = s := by rw [State.expandTag, hgrp]
  have hmem : ¬ (Verdict.go = .refuse 0x0D ∧ false = true) := fun h => Bool.false_ne_true h.2
  rw [State.depart, hq]
  simp only [hcopies, List.headD_cons, if_neg hmem, htag, eq_false hsc, and_false, if_false, List.drop_succ_cons, List.drop_zero]
  rfl

theorem NiSt.q_setShaper (x : NiSt) (k : Nat) (v : Shaper) (q : Nat) : (x.setShaper k v).q q = x.q q := rfl
theorem NiSt.seqs_setShaper (x : NiSt) (k : Nat) (v : Shaper) : (x.setShaper k v).seqs = x.seqs := rfl
theorem NiSt.alt_setShaper (x : NiSt) (k : Nat) (v : Shaper) : (x.setShaper k v).alt = x.alt := rfl

/-- What an NI keeps once the head of a queue has left: the queue's other packets and its deficit, and the state of its flows. -/
structure NiSt.HeadGone (q : Nat) (x y : NiSt) : Prop where
  pkts : (y.q q).pkts = (x.q q).pkts.drop 1
  vt : (x.q q).pkts.drop 1 ≠ [] → (y.q q).vt = (x.q q).vt
  seqs : y.seqs = x.seqs
  alt : y.alt = x.alt

theorem NiSt.headGone_popQ (x : NiSt) (q : Nat) : NiSt.HeadGone q x (x.popQ q []) := by
  obtain ⟨act, drain, hpop⟩ := x.popQ_eq q []
  have hq : (x.popQ q []).q q = (x.popKept q []).q q := by rw [hpop]; rfl
  have hseqs : (x.popQ q []).seqs = x.seqs := by rw [hpop]; rfl
  have halt : (x.popQ q []).alt = x.alt := by rw [hpop]; rfl
  have hkept : (x.popKept q []).q q = { x.q q with
      pkts := x.popped q []
      vt := if (x.popped q []).isEmpty && (x.q q).vt != 0 && x.act.any (fun l => l.contains q) then 0 else (x.q q).vt } :=
    NiSt.q_setQ_same ..
  refine ⟨?_, fun hr => ?_, hseqs, halt⟩
  · rw [hq, hkept]
    rfl
  · rw [hq, hkept]
    refine if_neg ?_
    rw [NiSt.popped, List.nil_append, List.isEmpty_eq_false_iff.mpr hr]
    exact Bool.false_ne_true

/-- The head's leaving changes its NI alone. -/
theorem State.headGone_spec (s : State) (n q : Nat) (p : Qp) : (∃ m, s.headGone n q p = { s with nis := m })
    ∧ NiSt.HeadGone q (s.ni n) ((s.headGone n q p).ni n) := by
  have hgone := (s.ni n).headGone_popQ q
  rw [State.headGone]
  split
  · refine ⟨⟨_, rfl⟩, ?_⟩
    rw [State.ni_updNi_same, State.ni_updNi_same]
    obtain ⟨hpkts, hvt, hseqs, halt⟩ := hgone
    exact ⟨by rw [NiSt.q_setShaper, hpkts], by rw [NiSt.q_setShaper]; exact hvt, by rw [NiSt.seqs_setShaper, hseqs],
      by rw [NiSt.alt_setShaper, halt]⟩
  · refine ⟨⟨_, rfl⟩, ?_⟩
    rw [State.ni_updNi_same]
    exact hgone

theorem State.planeFor_nis (s : State) {n : Nat} {m : Map NiSt} (halt : (({ s with nis := m } : State).ni n).alt = (s.ni n).alt)
    (e sc vc : Nat) : ({ s with nis := m } : State).planeFor n e sc vc = s.planeFor n e sc vc := by
  have hentry : ({ s with nis := m } : State).entry n e = s.entry n e := rfl
  have huse (w : Nat) : ({ s with nis := m } : State).usable n w = s.usable n w := rfl
  have hport (o : Port) : ({ s with nis := m } : State).port o = s.port o := rfl
  rw [State.planeFor, State.planeFor, hentry, halt]
  simp only [huse, hport]

/-- A packet that takes the staging slot of a plane: its header, and the next number of its flow. -/
theorem State.toSlot_spec (s : State) (n : Nat) {p : Qp} (pl : Nat) (t : Stamp) (hmc : p.mc = false) (hst : p.istamp = none) (q : Nat) :
    ((s.toSlot n p pl t).ni n).q q = (s.ni n).q q
    ∧ ∃ b, (mget (fun _ => none) ((s.toSlot n p pl t).port (.ni pl n)).slots (4 * p.vn + p.sc) : Option Slot) = some b
      ∧ b.payload = p.payload ∧ b.hdr.dest = p.dest ∧ b.hdr.src = s.nodeId n ∧ b.hdr.istamp = t
      ∧ b.hdr.seq = mget (fun _ => 0) (s.ni n).seqs (p.e * 16 + (4 * p.vn + p.sc))
      ∧ ((s.toSlot n p pl t).ni n).seqs
        = mset (fun _ => 0) (s.ni n).seqs (p.e * 16 + (4 * p.vn + p.sc)) ((b.hdr.seq + 1) % 65536) := by
  have hlaunch : ∀ (x : NiSt) (m : Nat), ((x.launch p m).shareStamp p t).qs = x.qs ∧ ((x.launch p m).shareStamp p t).seqs = x.seqs := by
    intro x m
    rw [NiSt.shareStamp, hmc, if_neg Bool.false_ne_true, NiSt.launch]
    split
    · exact ⟨rfl, rfl⟩
    · split
      · exact ⟨rfl, rfl⟩
      · exact ⟨rfl, rfl⟩
  have hcharge : ∀ (x : NiSt) (sc g : Nat), (x.charge sc g).qs = x.qs ∧ (x.charge sc g).seqs = x.seqs := by
    intro x sc g
    rw [NiSt.charge]
    split
    · exact ⟨rfl, rfl⟩
    · split
      · exact ⟨rfl, rfl⟩
      · exact ⟨rfl, rfl⟩
  have hturn : ∀ (x : NiSt) (c : Prop) [Decidable c] (m : Map Bool), (if c then { x with alt := m } else x).qs = x.qs
      ∧ (if c then { x with alt := m } else x).seqs = x.seqs := by
    intro x c _ m
    split
    · exact ⟨rfl, rfl⟩
    · exact ⟨rfl, rfl⟩
  have hstamp : p.istamp.getD t = t := by rw [hst]; rfl
  rw [State.toSlot]
  dsimp only
  rw [hstamp]
  generalize hx : NiSt.charge _ p.sc _ = x
  have hxq := hcharge ((s.ni n).nextSeq p.e (4 * p.vn + p.sc)).2 p.sc (grains (s.counted n p))
  rw [hx] at hxq
  set y := (if p.e < 256 ∧ (s.entry n p.e).pol = 0 then
      { x with alt := mset (fun _ => false) x.alt (p.e * 4 + p.sc) (!(mget (fun _ => false) x.alt (p.e * 4 + p.sc))) } else x) with hy
  have hyq := hturn x (p.e < 256 ∧ (s.entry n p.e).pol = 0)
    (mset (fun _ => false) x.alt (p.e * 4 + p.sc) (!(mget (fun _ => false) x.alt (p.e * 4 + p.sc))))
  rw [← hy] at hyq
  obtain ⟨hqs, hseqs⟩ := hlaunch y (s.entry n p.e).regmask
  generalize (y.launch p (s.entry n p.e).regmask).shareStamp p t = z at hqs hseqs ⊢
  have hni : ((s.setNi n z).stage n pl (4 * p.vn + p.sc) (s.header n p pl false ((s.ni n).nextSeq p.e (4 * p.vn + p.sc)).1 t) p).ni n = z :=
    State.ni_setNi_same ..
  rw [hni]
  refine ⟨?_, { hdr := s.header n p pl false ((s.ni n).nextSeq p.e (4 * p.vn + p.sc)).1 t, vc := 4 * p.vn + p.sc, payload := p.payload
                f := p.f, isReq := p.isReq, probe := p.probe.isSome }, ?_, rfl, rfl, rfl, rfl, rfl, ?_⟩
  · rw [NiSt.q, hqs, hyq.1, hxq.1]
    rfl
  · rw [State.stage, State.updPort, State.port, State.setPort, mget_mset_same, mget_mset_same]
  · rw [hseqs, hyq.2, hxq.2]
    rfl

end

end Sys2Proof.Machine
end

section
/-! SUPPORT. A release cycle, and the course of a selected SC0 packet (R123, R254 to R257). -/

namespace Sys2Proof.Machine

/-- A queue whose deficit holds its head packet's counted bytes releases it. -/
theorem packetRelease_head (s v : State) (n q c pl : Nat) (t : Stamp) (p : Qp) (r : List Qp) (l : List Nat) (hn : s.hasNi n = true)
    (hclk : s.niClocked n = true) (hlive : ((s.port (.ni 0 n)).dead && (s.port (.ni 1 n)).dead) = false)
    (hv : v = (s.updNi n (fun x => x.admitSys x.sysPend)).noteHolds n t false) (htest : v.rd dbgB F.DBG_STAT_TEST ≠ 1)
    (hbig : bigSched v.rom n = false) (hsys : (v.ni n).sysq = []) (hc1 : 1 ≤ c) (hc4 : c < 4)
    (hbelow : ∀ k, k < c → (v.ni n).act.getD k [] = []) (hact : (v.ni n).act.getD c [] = q :: l) (hq : ((v.ni n).q q).pkts = p :: r)
    (hgrp : p.grp = none) (hsc : p.sc = c) (hcls : ((v.ni n).q q).cls = c)
    (hsel : (v.ni n).sc0Sel.any (fun w => w.q == some q) = false) (hst : p.istamp = none) (hmc : p.mc = false) (_ : p.probe = none)
    (hgo : v.verdict n q p t false = .go) (hpay : v.counted n p ≤ ((v.ni n).q q).vt)
    (hplane : v.planeFor n p.e c (4 * p.vn + c) = some pl) :
    ∃ u : State, exec (.packetRelease n t false) s = .next u ∧ ((u.ni n).q q).pkts = r
      ∧ (r ≠ [] → ((u.ni n).q q).vt = ((v.ni n).q q).vt - v.counted n p)
      ∧ ∃ b, (mget (fun _ => none) (u.port (.ni pl n)).slots (4 * p.vn + c) : Option Slot) = some b ∧ b.payload = p.payload
        ∧ b.hdr.dest = p.dest ∧ b.hdr.src = v.nodeId n ∧ b.hdr.istamp = t
        ∧ b.hdr.seq = mget (fun _ => 0) (v.ni n).seqs (p.e * 16 + (4 * p.vn + c))
        ∧ (u.ni n).seqs = mset (fun _ => 0) (v.ni n).seqs (p.e * 16 + (4 * p.vn + c)) ((b.hdr.seq + 1) % 65536) := by
  subst hsc
  have hverdict : v.qVerdict n q t false = .go := (State.qVerdict_of_head hsel hq hgrp false).trans hgo
  have hlen : v.headLen n q = v.counted n p := State.headLen_of_head hq hgrp
  set w := v.payQ n q (v.counted n p) with hw
  have hwni : w.ni n = (v.ni n).setQ q { (v.ni n).q q with vt := ((v.ni n).q q).vt - v.counted n p } := by
    rw [hw, State.payQ, State.ni_updNi_same, hbig, if_neg Bool.false_ne_true]
  have hwq : (w.ni n).q q = { (v.ni n).q q with vt := ((v.ni n).q q).vt - v.counted n p } := by rw [hwni, NiSt.q_setQ_same]
  have hwhead : ((w.ni n).q q).pkts = p :: r := by rw [hwq]; exact hq
  obtain ⟨⟨m, hm⟩, hpkts, hvt, hseqs, halt⟩ := w.headGone_spec n q p
  have hwplane : w.planeFor n p.e p.sc (4 * p.vn + p.sc) = some pl := by
    rw [← hplane]
    exact v.planeFor_nis (by show (w.ni n).alt = _; rw [hwni]; rfl) _ _ _
  have hserve : v.serve n q t false = (w.headGone n q p).toSlot n p pl t := by
    have hturn : ¬ (Verdict.go = .go ∧ ((v.ni n).q q).cls = 0) := fun h => by omega
    rw [State.serve, hverdict, if_neg hturn, hlen, ← hw, State.depart_of_head hwhead hgrp (by omega), hm,
      w.planeFor_nis (hm ▸ halt), hwplane]
  have hdrr : v.drr n p.sc t false = ((w.headGone n q p).toSlot n p pl t, true) := by
    have hfind : (q :: l).find? (fun q => (v.qVerdict n q t false).leaves) = some q :=
      List.find?_cons_of_pos (by rw [hverdict]; rfl)
    rw [State.drr, hact, hfind]
    show (if v.headLen n q ≤ ((v.ni n).q q).vt then _ else _) = _
    rw [hlen, if_pos hpay, hserve]
  have hexec : exec (.packetRelease n t false) s = .next ((w.headGone n q p).toSlot n p pl t) := by
    rw [exec_packetRelease_of hn, hlive, hclk, if_neg (by decide),
      State.release_of_turn hv hsys htest hbig hc4 hbelow hdrr]
  have hnode : (w.headGone n q p).nodeId n = v.nodeId n := by
    rw [hm]
    rfl
  obtain ⟨hqueue, b, hb, hpl, hdest, hsrc, hti, hseq, hnext⟩ := (w.headGone n q p).toSlot_spec n pl t hmc hst q
  have hwseqs : (w.ni n).seqs = (v.ni n).seqs := by rw [hwni]; rfl
  refine ⟨_, hexec, ?_, fun hr => ?_, b, hb, hpl, hdest, hsrc.trans hnode, hti, ?_, ?_⟩
  · rw [hqueue, hpkts, hwhead]
    rfl
  · rw [hqueue, hvt (by rw [hwhead]; exact hr), hwq]
  · rw [hseq, hseqs, hwseqs]
  · rw [hnext, hseqs, hwseqs]

section
variable {s : State} {n : Nat} {t : Stamp}

theorem sc0_idle (hn : s.hasNi n = true) (h : s.niClocked n = false ∨ (s.ni n).selPk = none) :
    exec (.sc0Release n t) s = .next s ∧ exec (.sc0Skew n t) s = .next s := by
  have hnone : (if s.niClocked n then (s.ni n).selPk else none) = none := by
    rcases h with h | h
    · rw [h, if_neg Bool.false_ne_true]
    · rw [h]
      exact ite_self none
  rw [exec_sc0Release_of hn, exec_sc0Skew_of hn, hnone]
  exact ⟨rfl, rfl⟩

theorem exec_sc0Release_selected (hn : s.hasNi n = true) (hclk : s.niClocked n = true) {p : Qp} (hp : (s.ni n).selPk = some p) :
    exec (.sc0Release n t) s = .next (if !(s.sc0Planes n p.e).isEmpty && (s.sc0Planes n p.e).all (fun pl => s.sc0Ready n pl p) then
      s.sc0Leave n p (s.sc0Planes n p.e) none t else s) := by
  rw [exec_sc0Release_of hn, hclk, if_pos rfl, hp]

theorem exec_sc0Skew_selected (hn : s.hasNi n = true) (hclk : s.niClocked n = true) {p : Qp} (hp : (s.ni n).selPk = some p)
    {a b pl : Nat} (hpls : s.sc0Planes n p.e = [a, b]) (hready : (s.sc0Planes n p.e).filter (fun pl => s.sc0Ready n pl p) = [pl]) :
    exec (.sc0Skew n t) s = .next (s.sc0Late n p pl t) := by
  rw [exec_sc0Skew_of hn, hclk, if_pos rfl, hp]
  show Host.Outcome.next (match s.sc0Planes n p.e, (s.sc0Planes n p.e).filter (fun pl => s.sc0Ready n pl p) with
      | [_, _], [pl] => s.sc0Late n p pl t
      | _, _ => s) = _
  rw [hready, hpls]

end

/-- Settles O7: a release cycle is the turn of the first class that has an active queue; a selected SC0 packet leaves once every
plane lets it go, or past the skew limit on the one that does. -/
theorem packetsAreReleased : Obligations.PacketsAreReleased := by
  unfold Obligations.PacketsAreReleased
  refine ⟨⟨fun s n t mem hn h => ?_, packetRelease_head⟩, fun s n t hn => ⟨sc0_idle hn, fun p hclk hp => ⟨fun hwait => ?_,
    fun hsome hall => ⟨fun hgo => ?_, fun hstay => ?_, ?_⟩, fun pl a b hpls hready => ⟨fun hgo => ?_, fun hstay => ?_⟩⟩⟩⟩
  · rw [exec_packetRelease_of hn]
    refine congrArg _ (if_pos ?_)
    rcases h with h | ⟨h0, h1⟩
    · rw [h, Bool.not_false, Bool.or_true]
    · rw [h0, h1]
      rfl
  · rw [exec_sc0Release_selected hn hclk hp]
    refine congrArg _ (if_neg ?_)
    rcases hwait with h | h
    · rw [h]
      exact Bool.false_ne_true
    · rw [h, Bool.and_false]
      exact Bool.false_ne_true
  · have hleave : exec (.sc0Release n t) s = .next (s.sc0Go n p (s.sc0Planes n p.e) none t) := by
      rw [exec_sc0Release_selected hn hclk hp, hsome, hall, if_pos (by decide), State.sc0Leave_go hgo]
    exact ⟨hleave, _, hleave, s.sc0Go_spec n p (s.sc0Planes n p.e) t⟩
  · rw [exec_sc0Release_selected hn hclk hp, hsome, hall, if_pos (by decide), State.sc0Leave_stays hstay]
  · rintro w v q st rfl hv hcase hq
    rw [exec_sc0Release_selected hn hclk hp, hsome, hall, if_pos (by decide), State.sc0Leave_refused hv hcase hq]
  · rw [exec_sc0Skew_selected hn hclk hp hpls hready, State.sc0Late, if_pos hgo, State.sc0Leave_go hgo]
  · have hno : s.selVerdict n p t ≠ .go := by
      rcases hstay with h | h
      · rw [h]
        exact Verdict.noConfusion
      · rw [h]
        exact Verdict.noConfusion
    rw [exec_sc0Skew_selected hn hclk hp hpls hready, State.sc0Late, if_neg hno, State.sc0Leave_stays hstay]

end Sys2Proof.Machine
end

section
/-! SUPPORT. The egress halves and the endpoint's responses (R62 to R65, R77 to R80, R189, R217): a segment's beat stays the last one on the
port through the credits that its buffer gives back, and a response goes where its delivery, its status and its reservation say. -/
namespace Sys2Proof.Machine
open State

variable {s t u : State} {n k : Nat}

/-- `t` holds the beats that NI `n` has put out in `s`, and the responses that wait there. -/
def State.EgressKept (s : State) (n : Nat) (t : State) : Prop := (t.ni n).out = (s.ni n).out ∧ (t.ni n).rpq = (s.ni n).rpq

namespace State.EgressKept

theorem refl (s : State) : s.EgressKept n s := ⟨rfl, rfl⟩

theorem trans (h : s.EgressKept n t) (k : t.EgressKept n u) : s.EgressKept n u := ⟨k.1.trans h.1, k.2.trans h.2⟩

theorem credits (h : s.EgressKept n t) (o : Port) (vc k : Nat) : s.EgressKept n (t.credits o vc k) := by
  have hni : (t.credits o vc k).ni n = t.ni n := by
    have e := congrArg (fun v : State => v.ni n) (t.credits_ports o vc k)
    exact e
  exact ⟨(congrArg NiSt.out hni).trans h.1, (congrArg NiSt.rpq hni).trans h.2⟩

theorem setNi {x : NiSt} (ho : x.out = (s.ni n).out) (hr : x.rpq = (s.ni n).rpq) : s.EgressKept n (s.setNi n x) := by
  rw [State.EgressKept, ni_setNi_same]
  exact ⟨ho, hr⟩

theorem dropPk (s : State) (k : Nat) : s.EgressKept n (s.dropPk n k) := by
  rw [State.dropPk]
  split
  · exact refl s
  next p _ =>
    have hx : ∀ x : NiSt, ((x.setPk k none).stopRx p).out = x.out ∧ ((x.setPk k none).stopRx p).rpq = x.rpq := by
      intro x
      rw [NiSt.stopRx]
      split
      · exact ⟨rfl, rfl⟩
      · exact ⟨rfl, rfl⟩
    exact (setNi (hx _).1 (hx _).2).credits _ _ _

theorem settle (s : State) (k : Nat) : s.EgressKept n (s.settle n k) := by
  rw [State.settle]
  split
  · exact refl s
  · refine credits (t := s.setNi n ((s.ni n).setPk k _)) (setNi ?_ ?_) _ _ _
    · rfl
    · rfl

theorem settleAll (s : State) : s.EgressKept n (s.settleAll n) := by
  rw [State.settleAll]
  generalize (s.ni n).fronts = l
  induction l generalizing s with
  | nil => exact refl s
  | cons k l ih => exact (settle s k).trans (ih _)

end State.EgressKept

/-- What NI `n` holds after its half has put the beat out: `x` where the segment was the
packet's last, and `y` where more follow. -/
theorem State.segment_kept (s : State) (n k : Nat) (last : Bool) (x y : NiSt) :
    (((if last then (s.setNi n x).dropPk n k else s.setNi n y).settleAll n).ni n).out = if last then x.out else y.out := by
  refine (State.EgressKept.settleAll _).1.trans ?_
  cases last
  · exact congrArg NiSt.out (s.ni_setNi_same n y)
  · exact (State.EgressKept.dropPk _ k).1.trans (congrArg NiSt.out (s.ni_setNi_same n x))

theorem exec_egressSegmentStart_of {half : Nat} (rdy : BitVec 4) (t : Stamp) (hn : s.hasNi n = true) (hh : half < 3) :
    exec (.egressSegmentStart n half rdy t) s = .next (if (s.ni n).up = false ∨ s.niClocked n = false then s
      else (match half with
        | 0 => s.segWqe n t
        | 1 => s.segRpe n t
        | _ => s.segSte n rdy t).settleAll n) :=
  guardUnit_of (by rw [hn, decide_eq_true hh]; rfl) _ _

section seg
variable {c : Nat} {p : Pk} {w : Nat × Nat} {r : RpEnt} {rdy : BitVec 4} {t : Stamp}

theorem State.segWqe_none (h : s.halfPick n 0 (s.ni n).wqeList (fun _ => true) t = none) : s.segWqe n t = s := by
  rw [State.segWqe, h]

theorem State.segRpe_none (h : s.halfPick n 1 (s.ni n).rpeList (s.ni n).rpReady t = none) : s.segRpe n t = s := by
  rw [State.segRpe, h]

theorem State.segSte_none (h : s.halfPick n 2 (s.ni n).steList (fun c => rdy.getLsbD c) t = none) : s.segSte n rdy t = s := by
  rw [State.segSte, h]

/-- The data of a write whose target has been closed are not delivered (R79). -/
theorem State.segWqe_closed (h : s.halfPick n 0 (s.ni n).wqeList (fun _ => true) t = some (k, c)) (hp : (s.ni n).pk k = some p)
    (hw : (s.ni n).wqq.find? (fun w => w.2 == k) = some w) (he : s.flag (niB n) F.NI_EP_CFG_TGT_EN = false) (hs : (s.ni n).stood 0 ≠ some k) :
    s.segWqe n t = s.dropWqe n w p := by
  simp only [State.segWqe, h, hp, hw]
  rw [if_pos ⟨he, hs⟩]

theorem State.segWqe_out (h : s.halfPick n 0 (s.ni n).wqeList (fun _ => true) t = some (k, c)) (hp : (s.ni n).pk k = some p)
    (hw : (s.ni n).wqq.find? (fun w => w.2 == k) = some w)
    (he : s.flag (niB n) F.NI_EP_CFG_TGT_EN = true ∨ (s.ni n).stood 0 = some k) :
    (((s.segWqe n t).settleAll n).ni n).out = (s.ni n).out ++ [.wqe w.1 c (p.sent == 0) p.seg.2
      (laneBeats (beatBytes s.rom n) ((p.hdr.addr + p.sent) % beatBytes s.rom n) p.seg.1)] := by
  have hopen : ¬ (s.flag (niB n) F.NI_EP_CFG_TGT_EN = false ∧ (s.ni n).stood 0 ≠ some k) := by
    rintro ⟨hf, hs⟩
    rcases he with he | he
    · exact absurd (he.symm.trans hf) (by decide)
    · exact hs he
  simp only [State.segWqe, h, hp, hw]
  rw [if_neg hopen]
  refine (s.segment_kept n k p.seg.2 _ _).trans ?_
  split
  · rfl
  · rfl

theorem State.segRpe_out (h : s.halfPick n 1 (s.ni n).rpeList (s.ni n).rpReady t = some (k, c)) (hp : (s.ni n).pk k = some p)
    (hr : (s.ni n).rpq.find? (fun r => r.sc == c) = some r) :
    (((s.segRpe n t).settleAll n).ni n).out = (s.ni n).out ++ [.rpe r.id c r.status (if p.sent = 0 then r.vec.length else 0) (p.sent == 0)
      p.seg.2 ((r.lane + p.sent) % beatBytes s.rom n) p.seg.1 (if p.seg.2 then vecBeats (beatBytes s.rom n) r.vec else [])] := by
  have hk : ((s.ni n).moved 1).pk k = some p := hp
  simp only [State.segRpe, h, hr, hk]
  refine (s.segment_kept n k p.seg.2 _ _).trans ?_
  simp only [beq_iff_eq]
  split
  · rfl
  · rfl

/-- A response without data is one beat, and it no longer waits (R65). -/
theorem State.segRpe_bare (h : s.halfPick n 1 (s.ni n).rpeList (s.ni n).rpReady t = some (k, c)) (hp : (s.ni n).pk k = none)
    (hr : (s.ni n).rpq.find? (fun r => r.sc == c) = some r) :
    (((s.segRpe n t).settleAll n).ni n).rpq = (s.ni n).rpq.erase r
    ∧ (((s.segRpe n t).settleAll n).ni n).out = (s.ni n).out ++ [.rpe r.id c r.status r.vec.length true true (r.lane % beatBytes s.rom n) []
        (vecBeats (beatBytes s.rom n) r.vec)] := by
  have hk : ((s.ni n).moved 1).pk k = none := hp
  simp only [State.segRpe, h, hr, hk]
  obtain ⟨hout, hrpq⟩ := State.EgressKept.settleAll (n := n) (s.setNi n { (s.ni n).moved 1 with rpq := ((s.ni n).moved 1).rpq.erase r, out := ((s.ni n).moved 1).out ++ [EpOut.rpe r.id c r.status r.vec.length true true ((r.lane + 0) % beatBytes s.rom n) [] (vecBeats (beatBytes s.rom n) r.vec)] })
  rw [ni_setNi_same] at hout hrpq
  exact ⟨hrpq, hout⟩

theorem State.segSte_out (h : s.halfPick n 2 (s.ni n).steList (fun c => rdy.getLsbD c) t = some (k, c)) (hp : (s.ni n).pk k = some p) :
    (((s.segSte n rdy t).settleAll n).ni n).out = (s.ni n).out ++ [.ste p.hdr.src c p.hdr.slice p.hdr.len
      (p.sent == 0) p.seg.2 p.late p.hdr.istamp (if s.flag (niB n) F.NI_EP_CFG_ORIG_EN then p.hdr.ostamp else 0)
      (s.flag (niB n) F.NI_EP_CFG_ORIG_EN && p.hdr.ovalid) p.seg.1] := by
  simp only [State.segSte, h, hp]
  refine (s.segment_kept n k p.seg.2 _ _).trans ?_
  split
  · rfl
  · rfl

end seg

/-- The egress halves' part: R62, R64, R65, R79, R83. -/
theorem egressSegments (s : State) (n : Nat) (rdy : BitVec 4) (t : Stamp) (hn : s.hasNi n = true) :
    (∀ half, half < 3 → ((s.ni n).up = false ∨ s.niClocked n = false) → exec (.egressSegmentStart n half rdy t) s = .next s)
    ∧ ((s.ni n).up = true → s.niClocked n = true → ∀ half, half < 3 →
      exec (.egressSegmentStart n half rdy t) s = .next ((match half with
        | 0 => s.segWqe n t
        | 1 => s.segRpe n t
        | _ => s.segSte n rdy t).settleAll n)) := by
  refine ⟨fun half hh hq => (exec_egressSegmentStart_of rdy t hn hh).trans (congrArg Host.Outcome.next (if_pos hq)), fun hup hck half hh => ?_⟩
  refine (exec_egressSegmentStart_of rdy t hn hh).trans (congrArg Host.Outcome.next (if_neg ?_))
  rintro (hq | hq)
  · exact absurd (hup.symm.trans hq) (by decide)
  · exact absurd (hck.symm.trans hq) (by decide)

end Sys2Proof.Machine
end

section
/-! SUPPORT. What becomes of an endpoint's response (R77, R78, R80, R100, R189, R217, R438), and the twin and gap timers (R402, R405, R410). -/
namespace Sys2Proof.Machine
open State

variable {s t u v : State} {n k dtag sc status : Nat} {d : Dlv} {data l : List Byte}

/-- `t` keeps the deliveries that NI `n` has in `s`. -/
def State.DlvKept (s : State) (n : Nat) (t : State) : Prop := (t.ni n).dlv = (s.ni n).dlv

theorem State.DlvKept.owes (h : s.DlvKept n t) (d : Dlv) : (t.ni n).owes d = (s.ni n).owes d := by
  rw [NiSt.owes, NiSt.owes, h]

theorem fillData_nis (s : State) (l : List Byte) (k : Nat) : (fillData s l k).1.nis = s.nis := by
  induction k generalizing s l with
  | zero => rfl
  | succ k ih =>
    cases l with
    | nil => exact ih s.takeFree.2 []
    | cons b l => exact ih s l

theorem State.DlvKept.fillData (s : State) (l : List Byte) (k : Nat) : s.DlvKept n (fillData s l k).1 := by
  rw [State.DlvKept, State.ni, fillData_nis]
  rfl

theorem State.DlvKept.rspFix (s : State) (status : Nat) : s.DlvKept n (s.rspFix n status).1 := by
  rw [State.rspFix]
  split
  · rfl
  · rfl

theorem State.DlvKept.updNi {f : NiSt → NiSt} (h : s.DlvKept n t) (hf : ∀ x : NiSt, (f x).dlv = x.dlv) : s.DlvKept n (t.updNi n f) := by
  rw [State.DlvKept, ni_updNi_same, hf]
  exact h

theorem State.DlvKept.rsvs (s : State) (keep : Rsv → Bool) : s.DlvKept n (s.updNi n (fun x => { x with rsvs := x.rsvs.filter keep })) :=
  updNi rfl fun _ => rfl

theorem State.DlvKept.migLog {sl addr len : Nat} (h : s.DlvKept n t) : s.DlvKept n (t.migLog n sl addr len) := by
  rw [State.migLog]
  split
  · exact h.updNi fun _ => rfl
  · exact h

/-- A status up to EXOKAY is passed on as it is (R100). -/
theorem State.rspFix_ok (s : State) (n : Nat) (h : status ≤ 1) : s.rspFix n status = (s, status) :=
  if_pos (Or.inl (Nat.le_succ_of_le h))

/-- An error stays an error (R100). -/
theorem State.rspFix_bad (s : State) (n : Nat) (h : 2 ≤ status) : 2 ≤ (s.rspFix n status).2 := by
  rw [State.rspFix]
  split
  · exact h
  · exact (by decide : 2 ≤ 8)

section monitor
variable (s n)

theorem State.rspMonitor_plain (h : d.rsvd = false) (st : Nat) : s.rspMonitor n d st = (s, st) := by
  simp only [State.rspMonitor, h, Bool.false_and, Bool.false_eq_true, if_false]

theorem State.rspMonitor_load (h : d.rsvd = true) (ho : d.hdr.op = 2) {st : Nat} (hs : st ≤ 1) : s.rspMonitor n d st = (s, 1) := by
  simp only [State.rspMonitor, h, ho, Bool.true_and, beq_self_eq_true, if_true]
  split
  · rfl
  · exact if_pos (by omega : st = 1)

theorem State.rspMonitor_load_bad (h : d.rsvd = true) (ho : d.hdr.op = 2) {st : Nat} (hs : 2 ≤ st) :
    s.rspMonitor n d st = (s.updNi n (fun x => { x with rsvs := x.rsvs.filter (fun r => r.ser != d.rser) }), st) := by
  simp only [State.rspMonitor, h, ho, Bool.true_and, beq_self_eq_true, if_true]
  rw [if_neg (show ¬ st = 0 by omega), if_neg (show ¬ st = 1 by omega)]

theorem State.rspMonitor_store (h : d.rsvd = true) (ho : d.hdr.op = 3) {st : Nat} (hs : st ≤ 1) :
    s.rspMonitor n d st = (s.clearGranule n d.hdr.addr d.hdr.len, 1) := by
  simp only [State.rspMonitor, h, ho]
  exact if_pos hs

theorem State.rspMonitor_store_bad (h : d.rsvd = true) (ho : d.hdr.op = 3) {st : Nat} (hs : 2 ≤ st) : s.rspMonitor n d st = (s, st) := by
  simp only [State.rspMonitor, h, ho]
  exact if_neg (show ¬ st ≤ 1 by omega)

end monitor

/-- What the NI does with a delivery's answer, the status `st` found: nothing more for a dropped one; else its data are filled up, and it
waits behind an earlier piece of its request or is returned (R77, R189). -/
def State.rpiGo (s : State) (n dtag st : Nat) (d : Dlv) (data : List Byte) : State :=
  let s := if d.hdr.ptype = 0 ∧ d.hdr.op = 3 ∧ st = 1 then s.migLog n d.hdr.slice d.hdr.addr d.hdr.len else s
  if d.drop then s
  else
    let (s, l) := if st ≤ 1 then fillData s data (rspLen d.hdr) else (s, [])
    if (s.ni n).owes d then s.updNi n (fun x => x.setDel dtag (some { d with ans := some (st, l) }))
    else (s.answerDlv n d true st l).answerHeld n d 512

/-- The status that a response has at the NI, and what finding it changes. -/
def State.rpiStatus (s : State) (n status : Nat) (d : Dlv) : State × Nat :=
  if d.cut then ((s.rspFix n status).1, 0x11) else (s.rspFix n status).1.rspMonitor n d (s.rspFix n status).2

theorem State.rpi_eq (hd : (s.ni n).del dtag = some d) (ha : d.ans = none) (hv : v = s.setNi n ((s.ni n).setDel dtag none)) :
    s.rpi n dtag status data = (v.rpiStatus n status d).1.rpiGo n dtag (v.rpiStatus n status d).2 d data := by
  subst hv
  simp only [State.rpi, hd, Option.filter_some, ha, Option.isNone_none, if_true]
  rfl

theorem State.rpi_none (h : ∀ d, (s.ni n).del dtag = some d → d.ans ≠ none) :
    s.rpi n dtag status data = s.wr (niB n) F.NI_EP_STAT_PROTO 1 := by
  rw [State.rpi]
  cases hd : (s.ni n).del dtag with
  | none => rfl
  | some d =>
    rw [Option.filter_some]
    cases ha : d.ans with
    | none => exact absurd ha (h d hd)
    | some a => rfl

section go
variable (n dtag data)

/-- A dropped delivery's answer goes nowhere (R438). -/
theorem State.rpiGo_drop (hc : ¬ (d.hdr.ptype = 0 ∧ d.hdr.op = 3 ∧ status = 1)) (hd : d.drop = true) :
    s.rpiGo n dtag status d data = s := by
  rw [State.rpiGo, if_neg hc, hd]
  exact if_pos rfl

/-- An earlier piece of the request is to be answered first (R189). -/
theorem State.rpiGo_waits {a : State × List Byte} (hc : ¬ (d.hdr.ptype = 0 ∧ d.hdr.op = 3 ∧ status = 1)) (hd : d.drop = false)
    (ho : (s.ni n).owes d = true) (hs : status ≤ 1) (ha : a = fillData s data (rspLen d.hdr)) :
    s.rpiGo n dtag status d data = a.1.updNi n (fun x => x.setDel dtag (some { d with ans := some (status, a.2) })) := by
  subst ha
  have howe : ((fillData s data (rspLen d.hdr)).1.ni n).owes d = true := ((State.DlvKept.fillData s data _).owes d).trans ho
  simp only [State.rpiGo, if_neg hc, hd, if_pos hs]
  exact if_pos howe

theorem State.rpiGo_answer {a : State × List Byte} (hc : ¬ (d.hdr.ptype = 0 ∧ d.hdr.op = 3 ∧ status = 1)) (hd : d.drop = false)
    (ho : (s.ni n).owes d = false) (hs : status ≤ 1) (ha : a = fillData s data (rspLen d.hdr)) :
    s.rpiGo n dtag status d data = (a.1.answerDlv n d true status a.2).answerHeld n d 512 := by
  subst ha
  have howe : ((fillData s data (rspLen d.hdr)).1.ni n).owes d = false := ((State.DlvKept.fillData s data _).owes d).trans ho
  simp only [State.rpiGo, if_neg hc, hd, if_pos hs]
  exact if_neg (ne_true_of_eq_false howe)

/-- An error's answer has no data (R78). -/
theorem State.rpiGo_error (hd : d.drop = false) (ho : (s.ni n).owes d = false) (hs : 2 ≤ status) :
    s.rpiGo n dtag status d data = (s.answerDlv n d true status []).answerHeld n d 512 := by
  have hc : ¬ (d.hdr.ptype = 0 ∧ d.hdr.op = 3 ∧ status = 1) := fun ⟨_, _, h⟩ => absurd h (by omega)
  have hle : ¬ status ≤ 1 := by omega
  simp only [State.rpiGo, if_neg hc, hd, if_neg hle]
  exact if_neg (ne_true_of_eq_false ho)

/-- A conditional store that held is a store: its pages are logged, and its answer has no data (R217). -/
theorem State.rpiGo_store (hd : d.drop = false) (ho : (s.ni n).owes d = false) (hp : d.hdr.ptype = 0) (h3 : d.hdr.op = 3) :
    s.rpiGo n dtag 1 d data = ((s.migLog n d.hdr.slice d.hdr.addr d.hdr.len).answerDlv n d true 1 []).answerHeld n d 512 := by
  have hlen : rspLen d.hdr = 0 := by
    rw [rspLen, hp, h3]
    rfl
  have howe : ((s.migLog n d.hdr.slice d.hdr.addr d.hdr.len).ni n).owes d = false :=
    ((State.DlvKept.migLog (s := s) rfl).owes d).trans ho
  rw [State.rpiGo, if_pos (⟨hp, h3, rfl⟩ : d.hdr.ptype = 0 ∧ d.hdr.op = 3 ∧ 1 = 1), hd, hlen]
  exact (if_neg Bool.false_ne_true).trans (if_neg (ne_true_of_eq_false howe))

end go

theorem State.rpiStatus_cut (h : d.cut = true) : s.rpiStatus n status d = ((s.rspFix n status).1, 0x11) := by
  rw [State.rpiStatus, h]
  exact if_pos rfl

theorem State.rpiStatus_ok (h : d.cut = false) (hs : status ≤ 1) : s.rpiStatus n status d = s.rspMonitor n d status := by
  rw [State.rpiStatus, h, s.rspFix_ok n hs]
  exact if_neg Bool.false_ne_true

theorem State.rpiStatus_whole (h : d.cut = false) :
    s.rpiStatus n status d = (s.rspFix n status).1.rspMonitor n d (s.rspFix n status).2 := by
  rw [State.rpiStatus, h]
  exact if_neg Bool.false_ne_true

theorem exec_rpiResponse_of (hn : s.hasNi n = true) : exec (.rpiResponse n dtag sc status data) s
    = .next (if (s.ni n).up && s.rpiReady n then s.rpi n dtag status data else s) :=
  guardUnit_of hn _ _

/-- A response that RPI takes for a delivery that waits for one. -/
theorem exec_rpiResponse_found (hn : s.hasNi n = true) (hup : (s.ni n).up = true) (hr : s.rpiReady n = true)
    (hd : (s.ni n).del dtag = some d) (ha : d.ans = none) (hv : v = s.setNi n ((s.ni n).setDel dtag none)) {w : State} {st : Nat}
    (hw : v.rpiStatus n status d = (w, st)) : exec (.rpiResponse n dtag sc status data) s = .next (w.rpiGo n dtag st d data) := by
  refine (exec_rpiResponse_of hn).trans (congrArg Host.Outcome.next ?_)
  rw [hup, hr, State.rpi_eq hd ha hv, hw]
  exact if_pos rfl

/-- The responses' part: R77, R78, R80, R100, R189, R217, R438, R672. -/
theorem endpointResponses (s : State) (n dtag sc status : Nat) (data : List Byte) (hn : s.hasNi n = true) (hup : (s.ni n).up = true)
    (hr : s.rpiReady n = true) (d : Dlv) (v : State) (hd : (s.ni n).del dtag = some d) (ha : d.ans = none)
    (hv : v = s.setNi n ((s.ni n).setDel dtag none)) (hdrop : d.drop = false) (ho : (v.ni n).owes d = false) :
    (d.cut = true →
      exec (.rpiResponse n dtag sc status data) s = .next (((v.rspFix n status).1.answerDlv n d true 0x11 []).answerHeld n d 512))
    ∧ (∀ a, d.cut = false → status ≤ 1 → d.rsvd = false → ¬ (d.hdr.ptype = 0 ∧ d.hdr.op = 3 ∧ status = 1) →
      a = fillData v data (rspLen d.hdr) →
      exec (.rpiResponse n dtag sc status data) s = .next ((a.1.answerDlv n d true status a.2).answerHeld n d 512))
    ∧ (∀ a, d.cut = false → status ≤ 1 → d.rsvd = true → d.hdr.op = 2 → a = fillData v data (rspLen d.hdr) →
      exec (.rpiResponse n dtag sc status data) s = .next ((a.1.answerDlv n d true 1 a.2).answerHeld n d 512))
    ∧ (d.cut = false → status ≤ 1 → d.rsvd = true → d.hdr.ptype = 0 → d.hdr.op = 3 →
      exec (.rpiResponse n dtag sc status data) s = .next
        ((((v.clearGranule n d.hdr.addr d.hdr.len).migLog n d.hdr.slice d.hdr.addr d.hdr.len).answerDlv n d true 1 []).answerHeld n d 512))
    ∧ (d.cut = false → 2 ≤ status → d.rsvd = false →
      exec (.rpiResponse n dtag sc status data) s = .next
        (((v.rspFix n status).1.answerDlv n d true (v.rspFix n status).2 []).answerHeld n d 512))
    ∧ (d.cut = false → 2 ≤ status → d.rsvd = true → d.hdr.op = 2 →
      exec (.rpiResponse n dtag sc status data) s = .next
        ((((v.rspFix n status).1.updNi n (fun x => { x with rsvs := x.rsvs.filter (fun r => r.ser != d.rser) })).answerDlv n d
          true (v.rspFix n status).2 []).answerHeld n d 512))
    ∧ (d.cut = false → 2 ≤ status → d.rsvd = true → d.hdr.op = 3 →
      exec (.rpiResponse n dtag sc status data) s = .next
        (((v.rspFix n status).1.answerDlv n d true (v.rspFix n status).2 []).answerHeld n d 512)) := by
  have found : ∀ {w : State} {st : Nat}, v.rpiStatus n status d = (w, st) →
      exec (.rpiResponse n dtag sc status data) s = .next (w.rpiGo n dtag st d data) := exec_rpiResponse_found hn hup hr hd ha hv
  have hfix : ((v.rspFix n status).1.ni n).owes d = false := ((State.DlvKept.rspFix v status).owes d).trans ho
  have hbad : 2 ≤ status → 2 ≤ (v.rspFix n status).2 := v.rspFix_bad n
  refine ⟨fun hc => ?_, fun a hc hs hq hp hl => ?_, fun a hc hs hq h2 hl => ?_, fun hc hs hq hp h3 => ?_, fun hc hs hq => ?_,
    fun hc hs hq h2 => ?_, fun hc hs hq h3 => ?_⟩
  · rw [found (State.rpiStatus_cut hc), State.rpiGo_error n dtag data hdrop hfix (by decide)]
  · rw [found ((State.rpiStatus_ok hc hs).trans (State.rspMonitor_plain v n hq status)),
      State.rpiGo_answer n dtag data hp hdrop ho hs hl]
  · have hp : ¬ (d.hdr.ptype = 0 ∧ d.hdr.op = 3 ∧ 1 = 1) := fun ⟨_, h3, _⟩ => absurd (h2.symm.trans h3) (by decide)
    rw [found ((State.rpiStatus_ok hc hs).trans (State.rspMonitor_load v n hq h2 hs)),
      State.rpiGo_answer n dtag data hp hdrop ho (Nat.le_refl 1) hl]
  · have hgran : ((v.clearGranule n d.hdr.addr d.hdr.len).ni n).owes d = false :=
      ((State.DlvKept.rsvs v _).owes d).trans ho
    rw [found ((State.rpiStatus_ok hc hs).trans (State.rspMonitor_store v n hq h3 hs)),
      State.rpiGo_store n dtag data hdrop hgran hp h3]
  · rw [found ((State.rpiStatus_whole hc).trans (State.rspMonitor_plain _ n hq _)),
      State.rpiGo_error n dtag data hdrop hfix (hbad hs)]
  · have hrsv : (((v.rspFix n status).1.updNi n (fun x => { x with rsvs := x.rsvs.filter (fun r => r.ser != d.rser) })).ni n).owes d = false :=
      ((State.DlvKept.rsvs _ _).owes d).trans hfix
    rw [found ((State.rpiStatus_whole hc).trans (State.rspMonitor_load_bad _ n hq h2 (hbad hs))),
      State.rpiGo_error n dtag data hdrop hrsv (hbad hs)]
  · rw [found ((State.rpiStatus_whole hc).trans (State.rspMonitor_store_bad _ n hq h3 (hbad hs))),
      State.rpiGo_error n dtag data hdrop hfix (hbad hs)]

theorem exec_twinTmo_of {ctx seq : Nat} (hn : s.hasNi n = true) {w : _} (hw : (s.ni n).twins.find? (fun t => t.key == ctx && t.seq == seq) = some w)
    (hv : v = ((s.setNi n { s.ni n with twins := (s.ni n).twins.erase w }).count (niB n)
      (if w.miss = 0 then F.NI_RSQ_TWIN_MISS_A_COUNT else F.NI_RSQ_TWIN_MISS_B_COUNT) 1).alert n 10) :
    exec (.twinTmo n ctx seq) s = .next (if v.flag strB F.STR_PLN_CFG_MISS_FAULT then v.planeFault w.miss 4 else v) := by
  subst hv
  refine (guardUnit_of hn _ _ : exec (.twinTmo n ctx seq) s = _).trans (congrArg Host.Outcome.next ?_)
  simp only [hw]

theorem exec_twinTmo_none {ctx seq : Nat} (hn : s.hasNi n = true)
    (hw : (s.ni n).twins.find? (fun t => t.key == ctx && t.seq == seq) = none) : exec (.twinTmo n ctx seq) s = .next s := by
  refine (guardUnit_of hn _ _ : exec (.twinTmo n ctx seq) s = _).trans (congrArg Host.Outcome.next ?_)
  simp only [hw]

theorem exec_gapTmo_of {ctx : Nat} (hn : s.hasNi n = true) : exec (.gapTmo n ctx) s = .next (if ((s.ni n).ctx ctx).held.isEmpty then s
    else ((s.flushCtx n ctx).count (niB n) F.NI_RSQ_GAP_CNT_COUNT 1).notice n 4) :=
  guardUnit_of hn _ _

/-- Settles O6: each egress half's beat, each course of a response, and both timers. -/
theorem egressAndEndpointResponses : Obligations.EgressAndEndpointResponses := by
  unfold Obligations.EgressAndEndpointResponses
  refine ⟨fun s n rdy t hn => ?_, fun s n dtag sc status data hn => ⟨fun hq => ?_, fun hup hr => ⟨fun hnone => ?_, fun d v hd ha hv => ?_⟩⟩,
    fun s n ctx hn => ⟨fun seq w hw v hv => exec_twinTmo_of hn hw hv, fun seq hw => exec_twinTmo_none hn hw, fun he => ?_, fun he => ?_⟩⟩
  · obtain ⟨hidle, hgo⟩ := egressSegments s n rdy t hn
    refine ⟨hidle, fun hup hck => ?_⟩
    have e0 := hgo hup hck 0 (by decide)
    have e1 := hgo hup hck 1 (by decide)
    have e2 := hgo hup hck 2 (by decide)
    refine ⟨fun h => e0.trans (congrArg (fun u => Host.Outcome.next (u.settleAll n)) (State.segWqe_none h)),
      fun h => e1.trans (congrArg (fun u => Host.Outcome.next (u.settleAll n)) (State.segRpe_none h)),
      fun h => e2.trans (congrArg (fun u => Host.Outcome.next (u.settleAll n)) (State.segSte_none h)),
      fun k c p hp => ⟨fun w hk hw => ⟨fun he => ⟨_, e0, State.segWqe_out hk hp hw he⟩, fun he hs =>
          e0.trans (congrArg (fun u => Host.Outcome.next (u.settleAll n)) (State.segWqe_closed hk hp hw he hs))⟩,
        fun r hk hf => ⟨_, e1, State.segRpe_out hk hp hf⟩, fun hk => ⟨_, e2, State.segSte_out hk hp⟩⟩,
      fun k c r hp hk hf _ => ⟨_, e1, State.segRpe_bare hk hp hf⟩⟩
  · refine (exec_rpiResponse_of hn).trans (congrArg Host.Outcome.next (if_neg ?_))
    rcases hq with hq | hq
    · simp [hq]
    · simp [hq]
  · refine (exec_rpiResponse_of hn).trans (congrArg Host.Outcome.next ?_)
    rw [hup, hr, State.rpi_none hnone]
    exact if_pos rfl
  · refine ⟨fun hdrop hc hq hp => ?_, fun a hdrop hc ho hs hq hp hl => ?_,
      fun hdrop ho => endpointResponses s n dtag sc status data hn hup hr d v hd ha hv hdrop ho⟩
    · rw [exec_rpiResponse_found hn hup hr hd ha hv ((State.rpiStatus_whole hc).trans (State.rspMonitor_plain _ n hq _)),
        State.rpiGo_drop n dtag data (fun ⟨h0, h3, _⟩ => hp ⟨h0, h3⟩) hdrop]
    · rw [exec_rpiResponse_found hn hup hr hd ha hv ((State.rpiStatus_ok hc hs).trans (State.rspMonitor_plain v n hq status)),
        State.rpiGo_waits n dtag data hp hdrop ho hs hl]
  · exact (exec_gapTmo_of hn).trans (congrArg Host.Outcome.next (if_pos he))
  · exact (exec_gapTmo_of hn).trans (congrArg Host.Outcome.next (if_neg (ne_true_of_eq_false he)))

end Sys2Proof.Machine
end

section
/-! SUPPORT. A router whose region number is far above 15, so that its state word is the router's preemption counter: why the statement
about grants does not hold of every state (R167, R506, R507). -/

namespace Sys2Proof.Machine

/-- The region whose state word is 0x800058, the preemption counter of router 0 of plane 0. -/
abbrev preemptRegion : Nat := 2031598

/-- Output 0 of a router in that region, and the port at the link's far end. -/
abbrev preemptOut : Port := .rtr 0 0 0
abbrev preemptFar : Port := .rtr 0 0 1

/-- An input VC that holds a packet of one flit for output 0. -/
def preemptVc (v : Nat) : VcSt :=
  { buf := [{ vc := v, ft := 3, segb := true, hdr := some {} }], tx := some { hdr := {}, f := 1, next := 0 } }

/-- Input 1 of the router holds a packet of class 0 that has not begun, and one of class 1 whose first segment has gone. The region's
clock would be gated in IDLE, and the region is not in IDLE. -/
def preemptState : State :=
  { rom := { rtrs := [{ region := preemptRegion, radix := 2 }], links := [{ farKind := 1, farPort := 1 }] }, straps := {},
    rgs := [(preemptRegion, { gated := true })],
    ports := [(0, { loaded := true, cred := List.replicate 16 4, hold := [none, some 1] }), (3, { vcs := [preemptVc 0, preemptVc 1] })] }

/-- The grant counts a preemption, which makes the region's state IDLE: its clock is gated, and no flit leaves. -/
theorem preemptState_phase : ((preemptState.phase preemptOut none).port preemptFar).wire = [] := by decide +kernel

/-- Refutes O8: the clause about a phase says that the winner's first flit goes out on the link. A preemption is counted first, and
where the region of the router has a number whose state word is that counter, the first count puts the region in IDLE with its clock gated. -/
theorem not_routerBuffersAndGrants : ¬ Obligations.RouterBuffersAndGrants := by
  unfold Obligations.RouterBuffersAndGrants
  intro h
  have hexec : exec (.arbPhase preemptOut) preemptState
      = .next (if preemptState.clocked (regionOf preemptState.rom preemptOut) then preemptState.phase preemptOut none else preemptState) :=
    guardUnit_of (by decide +kernel) _ _
  rw [if_pos (by decide +kernel)] at hexec
  have hgrant := (h.2.1 preemptState preemptOut (by decide +kernel)).2 1 0 1 0 _ (by decide +kernel) (by decide +kernel) (by decide +kernel)
    (by decide +kernel : preemptState.nextFlit preemptOut 1 0 = some ({ vc := 0, ft := 3, segb := true, hdr := some {} }, 1, 0))
    (fun far hf => by
      obtain rfl : preemptFar = far := Option.some.inj ((by decide +kernel : farEnd preemptState.rom preemptOut = some preemptFar).symm.trans hf)
      decide)
  obtain ⟨t, ht, -, hflit⟩ := hgrant
  obtain rfl : preemptState.phase preemptOut none = t := Host.Outcome.next.inj (hexec.symm.trans ht)
  obtain ⟨l, hl⟩ := hflit 0 0 0 preemptFar rfl (by decide +kernel) (by decide +kernel)
  rw [preemptState_phase] at hl
  exact absurd hl (by simp)

end Sys2Proof.Machine
end

section
/-! SUPPORT. A flit with a corrected error whose event is sent from the NI that it arrives at: why the statement about arriving packets
does not hold of every state (R77, R114, R599). -/

namespace Sys2Proof.Machine

/-- A response for NI 0, on VC 5. -/
def eventFlit : Flit := { vc := 5, ft := 3, segb := true, hdr := some { ptype := 1 } }

/-- Its data code 1 has one wrong bit. -/
def eventErr : FlitErr := { d1 := .corr }

/-- The response is on the wires of NI 0, the home NI, whose notices are enabled and sent to node 0 as EVENT packets. -/
def eventState : State :=
  { rom := { nis := [{}] }, straps := {}, csr := [(evtB + 8, 2 ^ 31), (evtB + 0x1004, 0x20), (niB 0 + 0xF8C, 0x3F)],
    ports := [(1, { wire := [eventFlit] })] }

/-- The notice of the corrected error takes the serial number 1, so the response is packet 2. -/
theorem eventState_rin : (match exec (.niFlitArrival 0 0 eventErr 0) eventState with
    | .next u => (u.ni 0).rin
    | _ => []) = [2] := by decide +kernel

/-- Refutes O5: the clause about arriving flits says that the packet has the NI's next serial number. A corrected error is counted and
raised first (R114), and where the NI is the home NI and its notices are sent as packets (R599), that number is the EVENT packet's. -/
theorem not_packetsArriveAndArePresented : ¬ Obligations.PacketsArriveAndArePresented := by
  unfold Obligations.PacketsArriveAndArePresented
  intro h
  obtain ⟨u, hu, -, hrin, -⟩ := h.1 eventState 0 0 eventErr 0 eventFlit { ptype := 1 } [] (by decide +kernel) (by decide +kernel)
    (by decide +kernel) (by decide +kernel) rfl (.inr rfl) (by decide +kernel) rfl (by decide +kernel) (by decide +kernel) rfl rfl
    (by decide +kernel) (by decide) (by decide +kernel) (by decide +kernel)
  have hshown := eventState_rin
  rw [hu] at hshown
  have hgot : (eventState.ni 0).rin ++ [(eventState.ni 0).nextSer] = [2] := (hrin (.inl rfl)).symm.trans hshown
  exact absurd hgot (by decide +kernel)

end Sys2Proof.Machine
end

section
/-! SUPPORT. Requests and barriers end once (R67 to R71, R82 to R85, R97, R206 to R211). -/
namespace Sys2Proof.Machine
open State

/-! ### Completion of a tag -/

section tags
variable {x y : NiSt} {t st pk : Nat} {g : Tag}

theorem NiSt.tag_setTag_same (x : NiSt) (t : Nat) (v : Option Tag) : (x.setTag t v).tag t = v := mget_mset_same _ _ _ _

theorem NiSt.tag_freeTag (x : NiSt) (t : Nat) : (x.freeTag t).tag t = none := x.tag_setTag_same t none

/-- `y` has the tags and generations of `x`, its barriers, and what is owed to them. -/
def NiSt.TagsKept (x y : NiSt) : Prop := y.tags = x.tags ∧ y.gens = x.gens ∧ y.genBase = x.genBase ∧ y.bars = x.bars ∧ y.bfPend = x.bfPend

theorem NiSt.forgetPk_tags (x : NiSt) (k : Nat) : x.TagsKept (x.forgetPk k) ∧ (x.forgetPk k).rpq = x.rpq := by
  rw [NiSt.forgetPk]
  split
  · exact ⟨⟨rfl, rfl, rfl, rfl, rfl⟩, rfl⟩
  · rw [NiSt.stopRx]
    split
    · exact ⟨⟨rfl, rfl, rfl, rfl, rfl⟩, rfl⟩
    · exact ⟨⟨rfl, rfl, rfl, rfl, rfl⟩, rfl⟩

/-- However a request ends, its tag is free with the next generation, and the barriers are left (R67, R68). -/
theorem NiSt.finish_kept (h : x.tag t = some g) : (x.freeTag t).TagsKept (x.finish t st pk) := by
  simp only [NiSt.finish, h]
  split
  · exact ((x.freeTag t).forgetPk_tags pk).1
  · split
    · exact ((x.freeTag t).forgetPk_tags pk).1
    · exact ⟨rfl, rfl, rfl, rfl, rfl⟩

theorem NiSt.TagsKept.tag (h : x.TagsKept y) (t : Nat) : y.tag t = x.tag t := congrArg (fun m => mget (fun _ => none) m t) h.1

theorem NiSt.TagsKept.gen (h : x.TagsKept y) (t : Nat) : y.gen t = x.gen t := by
  rw [NiSt.gen, NiSt.gen, h.2.1, h.2.2.1]

theorem NiSt.tag_finish (h : x.tag t = some g) : (x.finish t st pk).tag t = none := (NiSt.finish_kept h).tag t |>.trans (x.tag_freeTag t)

theorem NiSt.gen_freeTag (x : NiSt) (t : Nat) : (x.freeTag t).gen t = (x.gen t + 1) % 8 := by
  have hget : mget (fun _ => 0) (x.freeTag t).gens t = (mget (fun _ => 0) x.gens t + 1) % 8 := mget_mset_same _ _ _ _
  rw [NiSt.gen, hget, NiSt.gen]
  show ((mget (fun _ => 0) x.gens t + 1) % 8 + x.genBase) % 8 = _
  omega

/-- A request from before an endpoint reset ends without an answer (R97). -/
theorem NiSt.finish_mute (h : x.tag t = some g) (hp : g.preRst = true) : (x.finish t st pk).rpq = x.rpq := by
  simp only [NiSt.finish, h, hp, Bool.true_or, if_true]
  split
  · exact ((x.freeTag t).forgetPk_tags pk).2
  · exact ((x.freeTag t).forgetPk_tags pk).2

/-- The end of a request that is not split frees its tag (R67). -/
theorem NiSt.tag_endPiece {part : Nat} (h : g.split = false) : (((x.setTag t (some g)).endPiece t part st).tag t) = none := by
  simp only [NiSt.endPiece, NiSt.tag_setTag_same, h, Bool.false_eq_true, if_false]
  exact NiSt.tag_finish (x.tag_setTag_same t (some g))

end tags

/-! ### The order of responses -/

section order
variable {a r : List Owed} {o : Owed} {e : RpEnt} {wait : List (Nat × Nat)}

/-- A request that has no response stays, and those of its ID and destination behind it wait. -/
theorem flushOrd_cons_none {b : Owed} (h : b.rsp = none) (r : List Owed) (wait : List (Nat × Nat)) :
    flushOrd wait (b :: r) = (b :: (flushOrd ((b.id, b.key) :: wait) r).1, (flushOrd ((b.id, b.key) :: wait) r).2) := by
  simp only [flushOrd, h]

/-- Requests that have no response stay. -/
theorem flushOrd_unanswered (h : ∀ b ∈ r, b.rsp = none) (wait : List (Nat × Nat)) : flushOrd wait r = (r, []) := by
  induction r generalizing wait with
  | nil => rfl
  | cons b r ih =>
    rw [flushOrd_cons_none (h b List.mem_cons_self), ih (fun c hc => h c (List.mem_cons_of_mem _ hc))]

/-- A response leaves unless an earlier request of its ID and destination is owed its own (R70). -/
theorem flushOrd_answered (ha : ∀ b ∈ a, b.rsp = none) (hr : ∀ b ∈ r, b.rsp = none) (wait : List (Nat × Nat)) :
    flushOrd wait (a ++ { o with rsp := some e } :: r) = if wait.contains (o.id, o.key) ∨ ∃ b ∈ a, b.id = o.id ∧ b.key = o.key then
      (a ++ { o with rsp := some e } :: r, []) else (a ++ r, [e]) := by
  induction a generalizing wait with
  | nil =>
    rw [List.nil_append, flushOrd, flushOrd_unanswered hr]
    simp only [List.not_mem_nil, false_and, exists_false, or_false]
    rfl
  | cons b a ih =>
    rw [List.cons_append, flushOrd_cons_none (ha b List.mem_cons_self), ih (fun c hc => ha c (List.mem_cons_of_mem _ hc))]
    have hiff : (((b.id, b.key) :: wait).contains (o.id, o.key) = true ∨ ∃ c ∈ a, c.id = o.id ∧ c.key = o.key)
        ↔ (wait.contains (o.id, o.key) = true ∨ ∃ c ∈ b :: a, c.id = o.id ∧ c.key = o.key) := by
      simp only [List.contains_cons, Bool.or_eq_true, beq_iff_eq, Prod.mk.injEq, List.exists_mem_cons_iff]
      grind
    simp only [hiff]
    split
    · rfl
    · rfl

end order

/-- Settling the response of the one request in the order that has its serial number. -/
theorem NiSt.settleOrd_of {x : NiSt} {a r : List Owed} {o : Owed} (e : RpEnt) (hx : x.ord = a ++ o :: r)
    (hb : ∀ b ∈ a ++ r, b.rsp = none ∧ b.ser ≠ o.ser) :
    (x.settleOrd o.ser e).ord = (if ∃ b ∈ a, b.id = o.id ∧ b.key = o.key then a ++ { o with rsp := some e } :: r else a ++ r)
    ∧ (x.settleOrd o.ser e).rpq = (if ∃ b ∈ a, b.id = o.id ∧ b.key = o.key then x.rpq else x.rpq ++ [e]) := by
  have hsame : ∀ l : List Owed, (∀ b ∈ l, b.ser ≠ o.ser) → l.map (fun c => if c.ser = o.ser then { c with rsp := some e } else c) = l :=
    fun l hl => (List.map_congr_left fun b hm => if_neg (hl b hm)).trans (List.map_id l)
  have hord : x.ord.map (fun c => if c.ser = o.ser then { c with rsp := some e } else c) = a ++ { o with rsp := some e } :: r := by
    rw [hx, List.map_append, List.map_cons, hsame a (fun b h => (hb b (List.mem_append_left _ h)).2),
      hsame r (fun b h => (hb b (List.mem_append_right _ h)).2), if_pos rfl]
  have hflush := flushOrd_answered (o := o) (e := e) (fun b h => (hb b (List.mem_append_left _ h)).1)
    (fun b h => (hb b (List.mem_append_right _ h)).1) []
  simp only [List.contains_nil, Bool.false_eq_true, false_or] at hflush
  simp only [NiSt.settleOrd, NiSt.flush, hord, hflush]
  split
  · exact ⟨rfl, List.append_nil _⟩
  · exact ⟨rfl, rfl⟩

/-- The order's part: R67, R68, R70, R71. -/
theorem finishedRequests (x : NiSt) (t st pk : Nat) (g : Tag) (a r : List Owed) (o : Owed) (hg : x.tag t = some g) (hev : g.evd = false)
    (hsb : g.sb = false) (hpre : g.preRst = false) (hord : x.ord = a ++ o :: r) (hser : o.ser = g.ser) (hid : o.id = g.id)
    (hkey : o.key = g.dkey) (hb : ∀ b ∈ a ++ r, b.rsp = none ∧ b.ser ≠ g.ser) :
    ((x.finish t st pk).tag t = none ∧ (x.finish t st pk).gen t = (x.gen t + 1) % 8)
    ∧ ((∀ b ∈ a, b.id = g.id → b.key ≠ g.dkey) →
        (x.finish t st pk).ord = a ++ r ∧ (x.finish t st pk).rpq = x.rpq ++ [rpEnt g st pk])
    ∧ ((∃ b ∈ a, b.id = g.id ∧ b.key = g.dkey) →
        (x.finish t st pk).ord = a ++ { o with rsp := some (rpEnt g st pk) } :: r ∧ (x.finish t st pk).rpq = x.rpq) := by
  have hfin : x.finish t st pk = (x.freeTag t).settleOrd o.ser (rpEnt g st pk) := by
    simp only [NiSt.finish, hg, hev, hpre, hsb, hser, Bool.or_self, Bool.false_eq_true, if_false]
  obtain ⟨hfo, hfr⟩ := NiSt.settleOrd_of (x := x.freeTag t) (rpEnt g st pk) hord (hser ▸ hb)
  refine ⟨⟨NiSt.tag_finish hg, ((NiSt.finish_kept hg).gen t).trans (x.gen_freeTag t)⟩, fun hnone => ?_, fun hsome => ?_⟩
  · have hno : ¬ ∃ b ∈ a, b.id = o.id ∧ b.key = o.key := by
      rintro ⟨b, hm, hi, hk⟩
      exact hnone b hm (hi.trans hid) (hk.trans hkey)
    rw [hfin, hfo, hfr, if_neg hno, if_neg hno]
    exact ⟨rfl, rfl⟩
  · have hyes : ∃ b ∈ a, b.id = o.id ∧ b.key = o.key := by
      rw [hid, hkey]
      exact hsome
    rw [hfin, hfo, hfr, if_pos hyes, if_pos hyes]
    exact ⟨rfl, rfl⟩

end Sys2Proof.Machine
end

section
/-! SUPPORT. The events that end requests and barriers: a timeout, a barrier whose condition holds, a response, a command's reply. -/
namespace Sys2Proof.Machine
open State

variable {s u v : State} {n tag part t k : Nat} {g : Tag} {p : Pk}

/-! ### Completion timeouts -/

theorem exec_ctoExpire_of (hn : s.hasNi n = true) : exec (.ctoExpire n tag part) s = .next (s.ctoExpire n tag part) :=
  guardUnit_of hn _ _

/-- With no piece outstanding nothing changes. -/
theorem State.ctoExpire_idle (h : ∀ g q, (s.ni n).tag tag = some g → g.parts[if g.split then part else 0]? = some q → q.pieces.isEmpty = true) :
    s.ctoExpire n tag part = s := by
  unfold State.ctoExpire
  split
  · rfl
  next g hg =>
    dsimp only
    split
    · rfl
    next q hq => exact if_pos (h g q hg hq)

/-- An outstanding piece ends, and a store is logged and has the store log's status (R82, R209 to R211). -/
theorem State.ctoExpire_of {q : Part} {a : State × Nat} (hg : (s.ni n).tag tag = some g) (hk : k = if g.split then part else 0)
    (hq : g.parts[k]? = some q) (he : q.pieces.isEmpty = false)
    (hv : v = (s.count (niB n) F.NI_CTO_CNT_COUNT 1).alert n (if g.store then 5 else 6))
    (ha : a = if g.store then v.dropStore n g else (v, 0x0C)) :
    s.ctoExpire n tag part = (if a.2 = 0x0B ∧ g.sb = false ∧ g.split = false ∧ g.preRst = false then
      a.1.wr (niB n) F.NI_ORD_STAT_BFAULT 1 else a.1).updNi n (fun x =>
        (x.setTag tag (some { g with parts := listSet g.parts k (fun q => { q with pieces := q.pieces.drop 1 }) })).endPiece tag k
          (if g.split then 0x0C else a.2)) := by
  subst hk hv ha
  simp only [State.ctoExpire, hg, hq, he, Bool.false_eq_true, if_false]

/-- A store that is dropped ends BARRIER_FAULT or TIMEOUT. -/
theorem State.dropStore_status (s : State) (n : Nat) (g : Tag) : (s.dropStore n g).2 = 0x0B ∨ (s.dropStore n g).2 = 0x0C := by
  unfold State.dropStore
  dsimp only
  split
  · exact .inl rfl
  · exact .inr rfl

theorem completionTimeouts (s v : State) (n tag part k : Nat) (g : Tag) (p : Part) (a : State × Nat) (hn : s.hasNi n = true)
    (hg : (s.ni n).tag tag = some g) (hk : k = (if g.split then part else 0)) (hp : g.parts[k]? = some p) (he : p.pieces.isEmpty = false)
    (hv : v = (s.count (niB n) F.NI_CTO_CNT_COUNT 1).alert n (if g.store then 5 else 6))
    (ha : a = (if g.store then v.dropStore n g else (v, 0x0C))) :
    exec (.ctoExpire n tag part) s = .next ((if a.2 = 0x0B ∧ g.sb = false ∧ g.split = false ∧ g.preRst = false then
        a.1.wr (niB n) F.NI_ORD_STAT_BFAULT 1 else a.1).updNi n (fun x =>
        (x.setTag tag (some { g with parts := listSet g.parts k (fun p => { p with pieces := p.pieces.drop 1 }) })).endPiece tag k
          (if g.split then 0x0C else a.2)))
      ∧ (g.store = false → a.2 = 0x0C) ∧ (g.store = true → a.2 = 0x0B ∨ a.2 = 0x0C)
      ∧ (g.split = false → ∃ u, exec (.ctoExpire n tag part) s = .next u ∧ (u.ni n).tag tag = none) := by
  have hexec := (exec_ctoExpire_of (tag := tag) (part := part) hn).trans
    (congrArg Host.Outcome.next (State.ctoExpire_of hg hk hp he hv ha))
  refine ⟨hexec, fun hs => ?_, fun hs => ?_, fun hs => ⟨_, hexec, ?_⟩⟩
  · rw [ha, hs]
    rfl
  · rw [ha, hs]
    exact v.dropStore_status n g
  · rw [State.ni_updNi_same]
    exact NiSt.tag_endPiece hs

/-! ### Barriers -/

section barriers
variable {b : Bar} {r : List Bar}

theorem exec_barrierDone_of (hn : s.hasNi n = true) : exec (.barrierDone n) s = .next (s.barrierDone n) := guardUnit_of hn _ _

theorem State.barrierDone_none (h : (s.ni n).bars = []) : s.barrierDone n = s := by
  simp only [State.barrierDone, h]

theorem State.barrierDone_waits (h : (s.ni n).bars = b :: r) (hm : (s.ni n).barMet b = false) : s.barrierDone n = s := by
  simp only [State.barrierDone, h, hm, if_true]

/-- The status of a barrier's answer, with `err` for a store error that waits to be reported (R207). -/
def Bar.status (b : Bar) (pend err : Bool) : Nat :=
  if b.complete && (b.fault || pend) then 0x0B else if b.complete && err then 0x08 else 0x00

/-- A barrier that is answered: it reports a fault and the store errors, if it is a COMPLETE (R206, R207). -/
theorem State.barrierDone_answered (h : (s.ni n).bars = b :: r) (hm : (s.ni n).barMet b = true)
    (hp : ((s.ni n).tag b.id).any (fun g => g.preRst) = false) :
    s.barrierDone n = (let t := s.setNi n ({ s.ni n with bars := r, bfPend := if b.complete then false else (s.ni n).bfPend }.finish b.id
        (b.status (s.ni n).bfPend (s.flag (niB n) F.NI_ORD_STAT_SB_ERR)) 0)
      if b.complete && (b.fault || (s.ni n).bfPend) then t.wr (niB n) F.NI_ORD_STAT_BFAULT 1
      else if b.complete && s.flag (niB n) F.NI_ORD_STAT_SB_ERR then t.wr (niB n) F.NI_ORD_STAT_SB_ERR 0 else t) := by
  simp only [State.barrierDone, h, hm, hp, Bool.true_eq_false, Bool.false_eq_true, if_false, Bar.status]

/-- A barrier from before an endpoint reset ends without an answer, and what it would have reported stays (R97). -/
theorem State.barrierDone_mute (h : (s.ni n).bars = b :: r) (hm : (s.ni n).barMet b = true)
    (hp : ((s.ni n).tag b.id).any (fun g => g.preRst) = true) :
    ∃ st, s.barrierDone n = s.setNi n ({ s.ni n with bars := r, bfPend := (s.ni n).bfPend || (b.complete && (b.fault || (s.ni n).bfPend)) }.finish
      b.id st 0) := by
  simp only [State.barrierDone, h, hm, hp, Bool.true_eq_false, if_false, if_true]
  exact ⟨_, rfl⟩

theorem barrierAnswers (s : State) (n : Nat) (b : Bar) (r : List Bar) (hn : s.hasNi n = true) (hb : (s.ni n).bars = b :: r)
    (hm : (s.ni n).barMet b = true) (hp : ((s.ni n).tag b.id).any (fun g => g.preRst) = false) :
    (b.complete = false →
      exec (.barrierDone n) s = .next (s.setNi n ({ s.ni n with bars := r }.finish b.id 0 0)))
    ∧ (b.complete = true → (b.fault || (s.ni n).bfPend) = true →
      exec (.barrierDone n) s = .next ((s.setNi n ({ s.ni n with bars := r, bfPend := false }.finish b.id 0x0B 0)).wr
        (niB n) F.NI_ORD_STAT_BFAULT 1))
    ∧ (b.complete = true → (b.fault || (s.ni n).bfPend) = false → s.flag (niB n) F.NI_ORD_STAT_SB_ERR = true →
      exec (.barrierDone n) s = .next ((s.setNi n ({ s.ni n with bars := r, bfPend := false }.finish b.id 0x08 0)).wr
        (niB n) F.NI_ORD_STAT_SB_ERR 0))
    ∧ (b.complete = true → (b.fault || (s.ni n).bfPend) = false → s.flag (niB n) F.NI_ORD_STAT_SB_ERR = false →
      exec (.barrierDone n) s = .next (s.setNi n ({ s.ni n with bars := r, bfPend := false }.finish b.id 0 0))) := by
  have hexec := (exec_barrierDone_of hn).trans (congrArg Host.Outcome.next (State.barrierDone_answered hb hm hp))
  refine ⟨fun hc => hexec.trans ?_, fun hc hf => hexec.trans ?_, fun hc hf he => hexec.trans ?_, fun hc hf he => hexec.trans ?_⟩
  · simp only [hc, Bar.status, Bool.false_and, Bool.false_eq_true, if_false]
  · simp only [hc, hf, Bar.status, Bool.true_and, if_true]
  · simp only [hc, hf, he, Bar.status, Bool.true_and, Bool.false_eq_true, if_false, if_true]
  · simp only [hc, hf, he, Bar.status, Bool.true_and, Bool.false_eq_true, if_false, if_true]

theorem barrierMuted (s : State) (n : Nat) (b : Bar) (r : List Bar) (hn : s.hasNi n = true) (hb : (s.ni n).bars = b :: r)
    (hm : (s.ni n).barMet b = true) (hp : ((s.ni n).tag b.id).any (fun g => g.preRst) = true) :
    ∃ t : State, exec (.barrierDone n) s = .next t ∧ (t.ni n).bars = r ∧ (t.ni n).tag b.id = none ∧ (t.ni n).rpq = (s.ni n).rpq
      ∧ (t.ni n).bfPend = ((s.ni n).bfPend || (b.complete && b.fault)) ∧ onlyNi n s t := by
  obtain ⟨st, hst⟩ := State.barrierDone_mute hb hm hp
  obtain ⟨g, hg, hpre⟩ : ∃ g, (s.ni n).tag b.id = some g ∧ g.preRst = true := by
    cases hg : (s.ni n).tag b.id with
    | none =>
      rw [hg] at hp
      exact absurd hp Bool.false_ne_true
    | some g =>
      rw [hg] at hp
      exact ⟨g, rfl, hp⟩
  set x : NiSt := { s.ni n with bars := r, bfPend := (s.ni n).bfPend || (b.complete && (b.fault || (s.ni n).bfPend)) } with hx
  have hxg : x.tag b.id = some g := hg
  obtain ⟨-, -, -, hbars, hpend⟩ := NiSt.finish_kept (st := st) (pk := 0) hxg
  refine ⟨_, (exec_barrierDone_of hn).trans (congrArg Host.Outcome.next hst), ?_, ?_, ?_, ?_, rfl, fun m hm => ?_⟩
  · rw [State.ni_setNi_same]
    exact hbars
  · rw [State.ni_setNi_same]
    exact NiSt.tag_finish hxg
  · rw [State.ni_setNi_same]
    exact NiSt.finish_mute hxg hpre
  · rw [State.ni_setNi_same]
    refine hpend.trans ?_
    show ((s.ni n).bfPend || (b.complete && (b.fault || (s.ni n).bfPend))) = _
    cases (s.ni n).bfPend <;> simp
  · exact State.ni_setNi_ne _ _ (by simpa using hm)

end barriers

/-! ### Responses -/

theorem exec_rspArrival_of (hn : s.hasNi n = true) : exec (.rspArrival n) s = .next (s.rspArrival n) := guardUnit_of hn _ _
theorem exec_cmdReplyReceive_of (hn : s.hasNi n = true) : exec (.cmdReplyReceive n) s = .next (s.replyReceive n) := guardUnit_of hn _ _

/-- A response ends a request as a whole only by its own tag. -/
theorem NiSt.tag_of_whole {x : NiSt} (h : x.rspUse p = .whole t) : t = p.hdr.tag := by
  unfold NiSt.rspUse at h
  dsimp only at h
  split at h
  · exact absurd h (by simp)
  · split at h
    · exact absurd h (by simp)
    · split at h
      · split at h
        · exact absurd h (by simp)
        · split at h <;> exact absurd h (by simp)
      · split at h
        · exact (RspUse.whole.inj h).symm
        · exact absurd h (by simp)

/-- A command's reply ends OP_COMMAND with OKAY, or without an answer where an endpoint reset has cut it off (R97, R494). -/
def State.replyWhole (s : State) (n k t : Nat) (p : Pk) (g : Tag) : State :=
  let v := s.updNi n (fun x => x.setTag t (some { g with rsc := p.vc % 4, parts := g.parts.map (fun r => { r with pieces := [] }) }))
  if g.preRst then (v.dropPk n k).updNi n (fun x => x.finish t 0 0) else v.updNi n (fun x => x.finish t 0 k)

section found
variable {x y : NiSt} (hp : (s.ni n).pk k = some p)
include hp

theorem State.rspArrival_whole (hk : (s.ni n).nextRsp = some k) (hu : (s.ni n).rspUse p = .whole t) (hg : (s.ni n).tag t = some g) :
    s.rspArrival n = (s.setNi n { s.ni n with rin := (s.ni n).rin.filter (fun j => j != k) }).rspWhole n k t p g := by
  simp only [State.rspArrival, hk, hp, hu, hg]

theorem State.rspArrival_piece {j : Nat} (hk : (s.ni n).nextRsp = some k) (hu : (s.ni n).rspUse p = .piece t j)
    (hg : (s.ni n).tag t = some g) :
    s.rspArrival n = (s.setNi n { s.ni n with rin := (s.ni n).rin.filter (fun j => j != k) }).rspPiece n k t j p g := by
  simp only [State.rspArrival, hk, hp, hu, hg]

theorem State.rspArrival_discard (hk : (s.ni n).nextRsp = some k) (hu : (s.ni n).rspUse p = .discard) :
    s.rspArrival n = (s.setNi n { s.ni n with rin := (s.ni n).rin.filter (fun j => j != k) }).rspDrop n k := by
  simp only [State.rspArrival, hk, hp, hu]

theorem State.replyReceive_whole (hk : (s.ni n).nextReply = some k) (hu : (s.ni n).rspUse p = .whole t) (hg : (s.ni n).tag t = some g) :
    s.replyReceive n = (s.setNi n { s.ni n with inbox := (s.ni n).inbox.filter (fun j => j != k) }).replyWhole n k t p g := by
  have htag : (s.ni n).tag p.hdr.tag = some g := NiSt.tag_of_whole hu ▸ hg
  simp only [State.replyReceive, hk, hp, hu, htag, State.replyWhole]

theorem State.replyReceive_discard (hk : (s.ni n).nextReply = some k) (hu : (s.ni n).rspUse p = .discard) :
    s.replyReceive n = (s.setNi n { s.ni n with inbox := (s.ni n).inbox.filter (fun j => j != k) }).rspDrop n k := by
  simp only [State.replyReceive, hk, hp, hu]

end found

theorem wholeResponses (s : State) (n k t : Nat) (p : Pk) (x y : NiSt) (g g' : Tag) (u v : State) (hn : s.hasNi n = true)
    (hp : (s.ni n).pk k = some p) (hx : x = { s.ni n with rin := (s.ni n).rin.filter (fun j => j != k) })
    (hy : y = { s.ni n with inbox := (s.ni n).inbox.filter (fun j => j != k) }) (hu : (s.ni n).rspUse p = .whole t)
    (hg : (s.ni n).tag t = some g) (hg' : g' = { g with rsc := p.vc % 4, parts := g.parts.map (fun r => { r with pieces := [] }) })
    (hsu : u = (s.setNi n x).updNi n (fun x => x.setTag t (some g'))) (hsv : v = (s.setNi n y).updNi n (fun x => x.setTag t (some g'))) :
    ((s.ni n).nextRsp = some k → g.preRst = false → g.sb = false →
      (p.hdr.ptype = 7 ∧ (p.hdr.op = 4 ∨ p.hdr.op = 5)) = False →
      exec (.rspArrival n) s = .next (u.updNi n (fun x => x.finish t p.hdr.op k)))
    ∧ ((s.ni n).nextRsp = some k → g.preRst = true → g.sb = false →
      exec (.rspArrival n) s = .next ((u.dropPk n k).updNi n (fun x => x.finish t p.hdr.op 0)))
    ∧ ((s.ni n).nextRsp = some k → g.preRst = false → g.sb = false →
      p.hdr.ptype = 7 → (p.hdr.op = 4 ∨ p.hdr.op = 5) →
      exec (.rspArrival n) s = .next ((u.handleFault n g p.hdr.op).updNi n
        (fun x => x.finish t p.hdr.op k)))
    ∧ ((s.ni n).nextRsp = some k → g.sb = true → errStatus p.hdr.op = false →
      exec (.rspArrival n) s = .next ((u.dropPk n k).updNi n (fun x => x.finish t p.hdr.op 0)))
    ∧ ((s.ni n).nextRsp = some k → g.sb = true → errStatus p.hdr.op = true →
      exec (.rspArrival n) s = .next (((u.sbFail n g p.hdr.op 1).dropPk n k).updNi n
        (fun x => x.finish t p.hdr.op 0)))
    ∧ ((s.ni n).nextReply = some k → g.preRst = false →
      exec (.cmdReplyReceive n) s = .next (v.updNi n (fun x => x.finish t 0 k)))
    ∧ ((s.ni n).nextReply = some k → g.preRst = true →
      exec (.cmdReplyReceive n) s = .next ((v.dropPk n k).updNi n (fun x => x.finish t 0 0))) := by
  subst hx hy hg' hsu hsv
  have hrsp : (s.ni n).nextRsp = some k → exec (.rspArrival n) s
      = .next ((s.setNi n { s.ni n with rin := (s.ni n).rin.filter (fun j => j != k) }).rspWhole n k t p g) := fun hk =>
    (exec_rspArrival_of hn).trans (congrArg Host.Outcome.next (State.rspArrival_whole hp hk hu hg))
  have hreply := fun hk : (s.ni n).nextReply = some k => (exec_cmdReplyReceive_of hn).trans (congrArg Host.Outcome.next (State.replyReceive_whole hp hk hu hg))
  refine ⟨fun hk hr hb hf => (hrsp hk).trans ?_, fun hk hr hb => (hrsp hk).trans ?_, fun hk hr hb h7 ho => (hrsp hk).trans ?_,
    fun hk hb he => (hrsp hk).trans ?_, fun hk hb he => (hrsp hk).trans ?_, fun hk hr => (hreply hk).trans ?_,
    fun hk hr => (hreply hk).trans ?_⟩
  · simp only [State.rspWhole, hb, hr, hf, Bool.false_eq_true, if_false]
  · simp only [State.rspWhole, hb, hr, Bool.false_eq_true, if_false, if_true]
  · have hv : p.hdr.ptype = 7 ∧ (p.hdr.op = 4 ∨ p.hdr.op = 5) := ⟨h7, ho⟩
    simp only [State.rspWhole, hb, hr, Bool.false_eq_true, if_false, if_pos hv]
  · simp only [State.rspWhole, hb, he, Bool.false_eq_true, if_false, if_true]
  · simp only [State.rspWhole, hb, he, if_true]
  · simp only [State.replyWhole, hr, Bool.false_eq_true, if_false]
  · simp only [State.replyWhole, hr, if_true]

/-- Settles O4: the timeouts, the barriers, the responses, and the order in which they leave. -/
theorem requestsEndOnce : Obligations.RequestsEndOnce := by
  unfold Obligations.RequestsEndOnce
  refine ⟨⟨fun s n tag part hn h => (exec_ctoExpire_of hn).trans (congrArg Host.Outcome.next (State.ctoExpire_idle h)), completionTimeouts⟩,
    fun s n hn => ⟨fun h => (exec_barrierDone_of hn).trans (congrArg Host.Outcome.next (State.barrierDone_none h)), fun b r hb =>
      ⟨fun hm => (exec_barrierDone_of hn).trans (congrArg Host.Outcome.next (State.barrierDone_waits hb hm)),
        barrierAnswers s n b r hn hb, barrierMuted s n b r hn hb⟩⟩, fun s n hn => ⟨fun h => ?_, fun h => ?_, fun k p x y hp hx hy =>
      ⟨fun t g g' u v hu hg hg' hsu hsv => wholeResponses s n k t p x y g g' u v hn hp hx hy hu hg hg' hsu hsv, fun t j g hu hg hk => ?_,
        fun hu => ⟨fun hk => ?_, fun hk => ?_⟩⟩⟩, finishedRequests⟩
  · refine (exec_rspArrival_of hn).trans (congrArg Host.Outcome.next ?_)
    simp only [State.rspArrival, h]
  · refine (exec_cmdReplyReceive_of hn).trans (congrArg Host.Outcome.next ?_)
    simp only [State.replyReceive, h]
  · rw [exec_rspArrival_of hn, State.rspArrival_piece hp hk hu hg, hx]
  · rw [exec_rspArrival_of hn, State.rspArrival_discard hp hk hu, hx]
  · rw [exec_cmdReplyReceive_of hn, State.replyReceive_discard hp hk hu, hy]

end Sys2Proof.Machine
end

section
/-! SUPPORT. A refused request whose table word shows an error that another NI reports: why the statement about requests does not hold of
every state (R81, R593, R599). -/

namespace Sys2Proof.Machine

/-- Two NIs: NI 0 is up with its region open, and NI 1 is the home NI, which sends the alerts of NI 0 to node 0 as EVENT packets. -/
def reporterState : State :=
  { rom := { nis := [{}, {}] }, straps := {}, nis := [(0, { up := true })]
    csr := [(strB + 0x38, 1), (evtB + 8, 2 ^ 31), (evtB + 0x1000, 0x20), (niB 0 + 0xF0C, 1), (niB 0 + 0xF88, 0x1FFFF)] }

/-- A request of an undefined operation, with an uncorrectable error in the PID table. -/
def reporterReq : AqReq := { code := 12, soft := [.pid 0] }

/-- The refused request leaves an EVENT packet at the home NI. -/
theorem reporterState_sysq : (match exec (.opRead 0 reporterReq) reporterState with
    | .next t => ((t.ni 1).sysq ++ (t.ni 1).sysPend).length
    | _ => 0) = 1 := by decide +kernel

/-- Refutes O1: the clause about requests that a check refuses says that no other NI changes. The error that the check has met in the
PID table is reported (R593), and where the home NI is another one and the alert is sent as a packet (R599), it waits there. -/
theorem not_requestsAndBarriersTakeTags : ¬ Obligations.RequestsAndBarriersTakeTags := by
  unfold Obligations.RequestsAndBarriersTakeTags
  intro h
  have hrefused : reporterState.Refuses 0 (opOf 0 reporterReq) reporterReq 0x0E := by
    refine ⟨by decide +kernel, by decide +kernel, by decide +kernel, by decide +kernel, fun sl hsl => ?_, by decide +kernel,
      by decide +kernel, fun o ho => ?_, fun b hb => ?_⟩
    · exact absurd hsl (by rw [show (reporterState.softView 0 reporterReq.dest.toNat reporterReq.soft).sliceOf 0 reporterReq.pid.toNat = none
        by decide +kernel]; simp)
    · exact absurd ho (by rw [show (reporterState.ni 0).ord = [] by decide +kernel]; simp)
    · exact absurd hb (by rw [show (reporterState.ni 0).ahead = [] by decide +kernel]; simp)
  obtain ⟨t, ht, -, -, -, -, -, hnis⟩ := (h.2.1 reporterState 0 reporterReq 0x0E).1 hrefused
  have hshown := reporterState_sysq
  rw [ht] at hshown
  have hsame : t.ni 1 = reporterState.ni 1 := hnis 1 (by decide)
  have hempty : ((t.ni 1).sysq ++ (t.ni 1).sysPend).length = 0 := by
    rw [hsame]
    decide +kernel
  exact absurd (hshown.symm.trans hempty) (by decide)

end Sys2Proof.Machine
end

section
/-! SUPPORT. Write data, stream packets and waiting packets (R62, R72, R87, R88, R199, R252, R253). -/
namespace Sys2Proof.Machine
open State

variable {s : State} {n : Nat}

/-! ### Write data -/

theorem exec_wqiData_of (b : WBeat) (hn : s.hasNi n = true) :
    exec (.wqiData n b) s = .next (if (s.ni n).up && s.wqReady n b then s.wqBeat n b else s) :=
  guardUnit_of hn _ _

section beats
variable {b : WBeat} {w : WqExp} {want : Nat} {a : State × List Byte} {gone more : NiSt}

/-- The lanes of beat `b` that belong to the request that `w` expects data of. -/
def beatLanes (bb : Nat) (w : WqExp) (b : WBeat) : List (Option Byte) :=
  (((b.lanes ++ List.replicate bb none).take bb).drop (if w.beats = 0 then w.addr % bb else 0)).take (w.len - w.got.length)

/-- The NI after a beat of a request that is answered already: the last one ends it (R72). -/
def NiSt.wqDiscard (x : NiSt) (w : WqExp) (last : Bool) : NiSt :=
  if last then { x with wq := x.wq.erase w } else { x with wq := x.wq.map (fun u => if u = w then { w with beats := w.beats + 1 } else u) }

/-- A beat of a request that is answered already is discarded; one that WQI_LAST marks late or early is an error (R72). -/
theorem State.wqBeat_discard (hw : (s.ni n).wq.find? (fun w => w.sc == b.sc.toNat) = some w) (hd : w.discard = true) :
    s.wqBeat n b = (if b.last && w.beats + 1 != cdiv (w.addr % beatBytes s.rom n + w.len) (beatBytes s.rom n) && !w.answered then
      (s.setNi n ((s.ni n).wqDiscard w b.last)).wr (niB n) F.NI_EP_STAT_PROTO 1 else s.setNi n ((s.ni n).wqDiscard w b.last)) := by
  rw [State.wqBeat, hw]
  exact if_pos hd

/-- A beat within its request adds the bytes of its lanes, and one that WQI_LAST marks early or late ends it (R72). -/
theorem State.wqBeat_taken (hw : (s.ni n).wq.find? (fun w => w.sc == b.sc.toNat) = some w) (hd : w.discard = false)
    (hwant : want = cdiv (w.addr % beatBytes s.rom n + w.len) (beatBytes s.rom n))
    (ha : a = beatData s (beatLanes (beatBytes s.rom n) w b)) (hg : gone = { s.ni n with wq := (s.ni n).wq.erase w })
    (hm : more = { s.ni n with wq := (s.ni n).wq.map (fun u => if u = w then { w with beats := w.beats + 1, discard := true, answered := true } else u) }) :
    s.wqBeat n b = (if b.last && w.beats + 1 == want then a.1.setNi n (gone.dataDone w a.1.clock (w.got ++ a.2))
      else if b.last || w.beats + 1 == want then
        (a.1.setNi n ((if b.last then gone else more).dataBad (bigSched a.1.rom n) w)).wr (niB n) F.NI_EP_STAT_PROTO 1
      else a.1.setNi n { s.ni n with
        wq := (s.ni n).wq.map (fun u => if u = w then { w with beats := w.beats + 1, got := w.got ++ a.2 } else u) }) := by
  subst hwant ha hg hm
  rw [State.wqBeat, hw]
  exact if_neg (ne_true_of_eq_false hd)

theorem beatData_rom (s : State) (l : List (Option Byte)) : (beatData s l).1.rom = s.rom := by
  induction l generalizing s with
  | nil => rfl
  | cons o l ih =>
    cases o with
    | none => exact ih s.takeFree.2
    | some b => exact ih s

end beats

/-- The write data's part: R62, R72. -/
theorem writeDataBeats (s : State) (n : Nat) (b : WBeat) (hn : s.hasNi n = true) (hup : (s.ni n).up = true) (hr : s.wqReady n b = true)
    (w : WqExp) (want : Nat) (a : State × List Byte) (gone more : NiSt) (hw : (s.ni n).wq.find? (fun w => w.sc == b.sc.toNat) = some w)
    (hwant : want = cdiv (w.addr % beatBytes s.rom n + w.len) (beatBytes s.rom n))
    (ha : a = beatData s (beatLanes (beatBytes s.rom n) w b)) (hg : gone = { s.ni n with wq := (s.ni n).wq.erase w })
    (hm : more = { s.ni n with wq := (s.ni n).wq.map (fun u => if u = w then { w with beats := w.beats + 1, discard := true, answered := true } else u) }) :
    (w.discard = false → b.last = true → w.beats + 1 = want →
      exec (.wqiData n b) s = .next (a.1.setNi n (gone.dataDone w a.1.clock (w.got ++ a.2))))
    ∧ (w.discard = false → b.last = false → w.beats + 1 ≠ want →
      exec (.wqiData n b) s = .next (a.1.setNi n { s.ni n with
        wq := (s.ni n).wq.map (fun u => if u = w then { w with beats := w.beats + 1, got := w.got ++ a.2 } else u) }))
    ∧ (w.discard = false → b.last = true → w.beats + 1 ≠ want →
      exec (.wqiData n b) s = .next ((a.1.setNi n (gone.dataBad (bigSched s.rom n) w)).wr (niB n) F.NI_EP_STAT_PROTO 1))
    ∧ (w.discard = false → b.last = false → w.beats + 1 = want →
      exec (.wqiData n b) s = .next ((a.1.setNi n (more.dataBad (bigSched s.rom n) w)).wr (niB n) F.NI_EP_STAT_PROTO 1))
    ∧ (w.discard = true → b.last = false → exec (.wqiData n b) s = .next (s.setNi n { s.ni n with
        wq := (s.ni n).wq.map (fun u => if u = w then { w with beats := w.beats + 1 } else u) }))
    ∧ (w.discard = true → b.last = true → (w.beats + 1 = want ∨ w.answered = true) →
      exec (.wqiData n b) s = .next (s.setNi n gone))
    ∧ (w.discard = true → b.last = true → w.beats + 1 ≠ want → w.answered = false →
      exec (.wqiData n b) s = .next ((s.setNi n gone).wr (niB n) F.NI_EP_STAT_PROTO 1)) := by
  have hexec : exec (.wqiData n b) s = .next (s.wqBeat n b) :=
    (exec_wqiData_of b hn).trans (congrArg Host.Outcome.next (if_pos (by rw [hup, hr]; rfl)))
  have hrom : bigSched a.1.rom n = bigSched s.rom n := by rw [ha, beatData_rom]
  have htaken := fun hd => hexec.trans (congrArg Host.Outcome.next (State.wqBeat_taken hw hd hwant ha hg hm))
  have hgone := fun hd => hexec.trans (congrArg Host.Outcome.next (State.wqBeat_discard hw hd))
  rw [hrom] at htaken
  refine ⟨fun hd hl he => (htaken hd).trans ?_, fun hd hl he => (htaken hd).trans ?_, fun hd hl he => (htaken hd).trans ?_,
    fun hd hl he => (htaken hd).trans ?_, fun hd hl => (hgone hd).trans ?_, fun hd hl he => (hgone hd).trans ?_,
    fun hd hl he hna => (hgone hd).trans ?_⟩
  · simp only [hl, he, beq_self_eq_true, Bool.and_self, if_true]
  · simp only [hl, beq_eq_false_iff_ne.mpr he, Bool.false_and, Bool.or_self, Bool.false_eq_true, if_false]
  · simp only [hl, beq_eq_false_iff_ne.mpr he, Bool.true_and, Bool.true_or, Bool.false_eq_true, if_false, if_true]
  · simp only [hl, he, beq_self_eq_true, Bool.false_and, Bool.or_true, Bool.false_eq_true, if_false, if_true]
  · rw [if_neg (by rw [hl]; exact Bool.false_ne_true), hl]
    rfl
  · have hquiet : ¬ (b.last && w.beats + 1 != cdiv (w.addr % beatBytes s.rom n + w.len) (beatBytes s.rom n) && !w.answered) = true := by
      rw [← hwant]
      rcases he with he | he
      · simp [he]
      · simp [he]
    rw [if_neg hquiet, hl, hg]
    rfl
  · have hproto : (b.last && w.beats + 1 != cdiv (w.addr % beatBytes s.rom n + w.len) (beatBytes s.rom n) && !w.answered) = true := by
      rw [← hwant]
      simp [hl, he, hna]
    rw [if_pos hproto, hl, hg]
    rfl

/-! ### Stream packets -/

theorem exec_stiPacket_of {p : StPkt} (hn : s.hasNi n = true) :
    exec (.stiPacket n p) s = .next (s.stream n p) := guardUnit_of hn _ _

section streams
variable {p : StPkt} {sl : Nat} {d : Dst}

/-- A stream packet that a check refuses is dropped and counted (R88). -/
theorem State.stream_refused (ho : s.niOpen n = true) (hc : s.cvtReady n true = true) (hs : p.soft = []) (h : s.stCheck n p = none) :
    s.stream n p = s.streamDrop n := by
  have hview : s.softView n p.dest.toNat [] = s := rfl
  have hnote : s.softNote n [] = s := rfl
  simp only [State.stream, ho, hc, hs, hview, hnote, h, Bool.and_self, if_true]

/-- A leg that admission passes. -/
def State.legAdmitted (s : State) (n : Nat) (p : StPkt) (l : Leg) : Bool := match l.e with
  | none => false
  | some e => p.sc != 0 || (s.partCheck n e [flitsOf p.len.toNat] p.now).isNone

/-- What admission says of one leg (R229). -/
def State.streamJudge (s : State) (n : Nat) (p : StPkt) (l : Leg) : Leg × Option Nat := (l, match l.e with
  | none => some 0x0D
  | some e => if p.sc.toNat = 0 then s.partCheck n e [flitsOf p.len.toNat] p.now else none)

theorem State.streamJudge_of_admitted {l : Leg} (h : s.legAdmitted n p l = true) : s.streamJudge n p l = (l, none) := by
  refine congrArg (Prod.mk l) ?_
  unfold State.legAdmitted at h
  split at h
  · exact absurd h Bool.false_ne_true
  · next e he =>
    rw [Bool.or_eq_true, bne_iff_ne, Option.isNone_iff_eq_none] at h
    split
    · next h0 =>
      rcases h with h | h
      · exact absurd (BitVec.eq_of_toNat_eq h0) h
      · exact h
    · rfl

/-- What a checked stream packet does, its legs judged as `js` says: the refused ones are counted, and the packet is queued toward the
first of the others (R87, R88). -/
def State.streamGo (s : State) (n : Nat) (p : StPkt) (sl : Nat) (d : Dst) (js : List (Leg × Option Nat)) : State :=
  let b := niB n
  let sc := p.sc.toNat
  let len := p.len.toNat
  let f := flitsOf len
  let bad := js.filter (fun j => j.2.isSome)
  let good := js.filter (fun j => j.2.isNone)
  let s := if sc = 0 ∧ bad.isEmpty = false then
      s.count b F.NI_ADM_REFUSE_CNT_COUNT (refusedParts js) else s
  let s := (List.range bad.length).foldl (fun a _ => a.streamDrop n) s
  if sc = 1 ∧ s.sc1Ok n p.qsel.toNat = false then (s.count b F.NI_SC1_REFUSE_CNT_COUNT 1).streamDrop n
  else if 2 ≤ sc ∧ s.quarAt n = true then s.streamDrop n
  else match good with
    | [] => s
    | j :: _ =>
      let orig := s.flag b F.NI_EP_CFG_ORIG_EN && p.ovalid
      let (s, data) := fillData s p.data len
      let (ser, x) := (s.ni n).fresh
      let qp : Qp :=
        { ser := ser, ptype := 2, op := 0, vn := 2, sc := sc, e := j.1.e.getD n, dest := j.1.dest, len := len
          slice := sl, mc := d.split, ovalid := orig, ostamp := if orig then p.ostamp else 0
          payload := data, f := f, occ := f, offer := s.clock
          grp := d.grp, skip := bad.map (fun j => (j.1.ni, j.2.getD 0)), gaps := s.gapsOf n sc (d.legs.map (fun l => l.e)) }
      (s.setNi n x).offer n { st := true, q := p.qsel.toNat, qps := [qp] }

theorem State.stream_eq (ho : s.niOpen n = true) (hc : s.cvtReady n true = true) (hs : p.soft = []) (h : s.stCheck n p = some (sl, d)) :
    s.stream n p = s.streamGo n p sl d (d.legs.map (s.streamJudge n p)) := by
  have hview : s.softView n p.dest.toNat [] = s := rfl
  have hnote : s.softNote n [] = s := rfl
  simp only [State.stream, ho, hc, hs, hview, hnote, h, Bool.and_self, if_true]
  rfl

/-- What the stream packet of `p` is queued as, toward one of the legs of `d` (R87). -/
structure StreamQueued (p : StPkt) (sl : Nat) (d : Dst) (data : List Byte) (qp : Qp) : Prop where
  ptype : qp.ptype = 2
  vn : qp.vn = 2
  sc : qp.sc = p.sc.toNat
  len : qp.len = p.len.toNat
  slice : qp.slice = sl
  grp : qp.grp = d.grp
  payload : qp.payload = data
  flits : qp.f = flitsOf p.len.toNat
  leg : ∃ l ∈ d.legs, qp.dest = l.dest ∧ l.e = some qp.e

theorem State.stream_offered {a : State × List Byte} (ho : s.niOpen n = true) (hc : s.cvtReady n true = true) (hs : p.soft = [])
    (hchk : s.stCheck n p = some (sl, d)) (hlegs : d.legs.isEmpty = false) (hadm : d.legs.all (s.legAdmitted n p) = true)
    (h1 : p.sc = 1 → s.sc1Ok n p.qsel.toNat = true) (h2 : 2 ≤ p.sc.toNat → s.quarAt n = false) (ha : a = fillData s p.data p.len.toNat) :
    ∃ qp : Qp, s.stream n p = ((a.1.setNi n { s.ni n with nextSer := (s.ni n).nextSer + 1 }).offer n
      { st := true, q := p.qsel.toNat, qps := [qp] }) ∧ StreamQueued p sl d a.2 qp := by
  subst ha
  have hjudge : d.legs.map (s.streamJudge n p) = d.legs.map (fun l => (l, none)) :=
    List.map_congr_left fun l hl => State.streamJudge_of_admitted (List.all_eq_true.mp hadm l hl)
  have hbad : (d.legs.map (fun l => (l, (none : Option Nat)))).filter (fun j => j.2.isSome) = [] := by simp
  have hgood : (d.legs.map (fun l => (l, (none : Option Nat)))).filter (fun j => j.2.isNone) = d.legs.map (fun l => (l, none)) := by simp
  obtain ⟨l, r, hlr⟩ : ∃ l r, d.legs = l :: r := by
    cases hd : d.legs with
    | nil =>
      rw [hd] at hlegs
      exact absurd hlegs (by decide)
    | cons l r => exact ⟨l, r, rfl⟩
  have hl : l ∈ d.legs := hlr ▸ List.mem_cons_self
  obtain ⟨e, he⟩ : ∃ e, l.e = some e := by
    have hadml := List.all_eq_true.mp hadm l hl
    unfold State.legAdmitted at hadml
    split at hadml
    · exact absurd hadml Bool.false_ne_true
    · next e he => exact ⟨e, he⟩
  have hsc1 : ¬ (p.sc.toNat = 1 ∧ s.sc1Ok n p.qsel.toNat = false) := fun ⟨hone, hf⟩ =>
    absurd ((h1 (BitVec.eq_of_toNat_eq hone)).symm.trans hf) (by decide)
  have hquar : ¬ (2 ≤ p.sc.toNat ∧ s.quarAt n = true) := fun ⟨htwo, ht⟩ => absurd (ht.symm.trans (h2 htwo)) (by decide)
  have hcount : ¬ (p.sc.toNat = 0 ∧ ([] : List (Leg × Option Nat)).isEmpty = false) := fun ⟨_, hf⟩ => absurd hf (by decide)
  have hni : (fillData s p.data p.len.toNat).1.ni n = s.ni n := by rw [State.ni, fillData_nis, State.ni]
  rw [State.stream_eq ho hc hs hchk, hjudge]
  simp only [State.streamGo, hbad, hgood, hcount, if_false, List.length_nil, List.range_zero, List.foldl_nil, hsc1, hquar]
  simp only [hlr, List.map_cons, hni, NiSt.fresh]
  refine ⟨_, rfl, ⟨rfl, rfl, rfl, rfl, rfl, rfl, rfl, rfl, l, hl, rfl, ?_⟩⟩
  rw [he]
  rfl

end streams

/-! ### Waiting packets -/

/-- Packets that enter a queue stand at its end, and nothing else of the NI's queues and waiting packets changes (R253, R261, R263). -/
theorem NiSt.enqueue_spec (x : NiSt) (big : Bool) (q : Nat) (ps : List Qp) : (x.enqueue big q ps).cvt = x.cvt
    ∧ ((x.enqueue big q ps).q q).pkts = (x.q q).pkts ++ ps ∧ ∀ j, j ≠ q → (x.enqueue big q ps).q j = x.q j := by
  unfold NiSt.enqueue
  dsimp only
  split
  · exact ⟨rfl, by rw [NiSt.q_setQ_same], fun j hj => NiSt.q_setQ_ne _ _ hj⟩
  · next he =>
    have hempty : (x.q q).pkts = [] := by
      rw [Bool.not_eq_false, List.isEmpty_iff] at he
      exact he
    split
    · exact ⟨rfl, by rw [NiSt.q_setQ_same, hempty]; rfl, fun j hj => NiSt.q_setQ_ne _ _ hj⟩
    · refine ⟨rfl, ?_, fun j hj => NiSt.q_setQ_ne x _ hj⟩
      refine (congrArg Queue.pkts (NiSt.q_setQ_same x q { x.q q with pkts := ps, vt := 0 })).trans ?_
      rw [hempty]
      rfl

section waiting
variable {st : Bool} {w : Wait} {p : Qp} {r : List Qp}

theorem State.admitPk_of (hw : (s.ni n).cvt.find? (fun w => w.st == st) = some w) (hp : w.qps = p :: r) :
    s.admitPk n st = if p.sb || s.roomFor n w.q p.slice p.sc w.flits then
      s.setNi n ({ s.ni n with cvt := (s.ni n).cvt.erase w }.enqueue (bigSched s.rom n) w.q w.qps) else s := by
  simp only [State.admitPk, hw, hp, List.headD_cons]

theorem exec_packetAdmit_of (hn : s.hasNi n = true) : exec (.packetAdmit n st) s = .next (s.admitPk n st) := guardUnit_of hn _ _

/-- The waiting packet enters the end of its queue as soon as it may (R199, R252, R253). -/
theorem waitingPackets (hn : s.hasNi n = true) (hw : (s.ni n).cvt.find? (fun w => w.st == st) = some w) (hp : w.qps = p :: r) :
    ((p.sb = true ∨ s.roomFor n w.q p.slice p.sc w.flits = true) → (∃ t : State, exec (.packetAdmit n st) s = .next t
      ∧ (t.ni n).cvt = (s.ni n).cvt.erase w ∧ ((t.ni n).q w.q).pkts = ((s.ni n).q w.q).pkts ++ w.qps
      ∧ (∀ j, j ≠ w.q → (t.ni n).q j = (s.ni n).q j) ∧ onlyNi n s t))
    ∧ (p.sb = false → s.roomFor n w.q p.slice p.sc w.flits = false → exec (.packetAdmit n st) s = .next s) := by
  have hexec := (exec_packetAdmit_of hn).trans (congrArg Host.Outcome.next (State.admitPk_of hw hp))
  refine ⟨fun hgo => ?_, fun hsb hroom => hexec.trans (congrArg Host.Outcome.next (if_neg (by rw [hsb, hroom]; decide)))⟩
  obtain ⟨hcvt, hpkts, hothers⟩ := NiSt.enqueue_spec { s.ni n with cvt := (s.ni n).cvt.erase w } (bigSched s.rom n) w.q w.qps
  refine ⟨_, hexec.trans (congrArg Host.Outcome.next (if_pos (by simpa using hgo))), ?_, ?_, fun j hj => ?_, rfl, fun m hm => ?_⟩
  · rw [State.ni_setNi_same, hcvt]
  · rw [State.ni_setNi_same, hpkts]
    rfl
  · rw [State.ni_setNi_same, hothers j hj]
    rfl
  · exact State.ni_setNi_ne _ _ (by simpa using hm)

end waiting

/-- Settles O2: the write data, the stream packets, and the packets that wait. -/
theorem writeDataStreamsAndWaitersQueue : Obligations.WriteDataStreamsAndWaitersQueue := by
  unfold Obligations.WriteDataStreamsAndWaitersQueue
  refine ⟨fun s n b hn => ⟨fun h => ?_, fun hup hr => ⟨fun hw => ?_, fun w want a gone more hw hwant ha hg hm =>
      writeDataBeats s n b hn hup hr w want a gone more hw hwant ha hg hm⟩⟩,
    fun s n p hn ho hc hs => ⟨fun sl d a hchk hlegs hadm h1 h2 ha => ?_, fun h => ?_⟩,
    fun s n st hn => ⟨fun h => ?_, fun w p r hw hp => waitingPackets hn hw hp⟩⟩
  · refine (exec_wqiData_of b hn).trans (congrArg Host.Outcome.next (if_neg ?_))
    rcases h with h | h
    · simp [h]
    · simp [h]
  · refine (exec_wqiData_of b hn).trans (congrArg Host.Outcome.next ?_)
    rw [if_pos (by rw [hup, hr]; rfl), State.wqBeat, hw]
  · obtain ⟨qp, hqp, hstr⟩ := State.stream_offered ho hc hs hchk hlegs hadm h1 h2 ha
    exact ⟨qp, (exec_stiPacket_of hn).trans (congrArg Host.Outcome.next hqp), hstr.ptype, hstr.vn, hstr.sc, hstr.len, hstr.slice,
      hstr.grp, hstr.payload, hstr.flits, hstr.leg⟩
  · exact (exec_stiPacket_of hn).trans (congrArg Host.Outcome.next (State.stream_refused ho hc hs h))
  · refine (exec_packetAdmit_of hn).trans (congrArg Host.Outcome.next ?_)
    rw [State.admitPk, h]

end Sys2Proof.Machine
end

section
/-! SUPPORT. Lane faults and the links that train anew (R571 to R573). -/
namespace Sys2Proof.Machine
open State

variable {s t u : State} {k j l : Nat}

theorem bitsAt_mod_two_pow (v : Nat) {lo w n : Nat} (h : lo + w ≤ n) : bitsAt (v % 2 ^ n) lo w = bitsAt v lo w := by
  rw [bitsAt, bitsAt]
  refine Nat.eq_of_testBit_eq fun i => ?_
  simp only [Nat.testBit_mod_two_pow, Nat.testBit_div_two_pow]
  by_cases hi : i < w
  · simp [hi, show lo + i < n by omega, Nat.add_comm]
  · simp [hi]

/-! ### The classes of lanes -/

/-- An event of a Span port changes its cause word alone, beside the event unit's words. -/
theorem State.rd_spanEvent (s : State) (k e : Nat) {f : Fld} (hf : f.off ≠ 0x20) : (s.spanEvent k e).rd (spB k) f = s.rd (spB k) f := by
  have hoff : spB k + f.off ≠ spB k + F.SP_EVT_STAT_C.off := by
    show spB k + f.off ≠ spB k + 0x20
    omega
  exact ((s.keepsAt_raise (srcSpan k e) e).rd (.inr (by simp only [evtB, spB]; omega))).trans (s.rd_wr_ne _ _ _ _ _ hoff)

theorem State.near_spanEvent (s : State) (k e : Nat) : s.Near (s.spanEvent k e) := s.near_raise _ _

theorem State.Near.links (h : s.Near t) : t.links = s.links := by
  have e := congrArg State.links h
  exact e

theorem State.Near.lk (h : s.Near t) (c : Nat) : t.lk c = s.lk c := by rw [State.lk, h.links, State.lk]

theorem State.Near.asks (h : s.Near t) : t.asks = s.asks := by
  have e := congrArg State.asks h
  exact e

/-- A lane's class is the class that it has been given (R571). -/
theorem State.laneClass_lw_same (s : State) (k j : Nat) {l : Nat} (hl : l < 8) (c : Nat) :
    (s.lw k j F.SP_L_LANE_C (bitsPut (s.lf k j F.SP_L_LANE_C) (4 * l) 4 c)).laneClass k j l = c % 16 := by
  rw [State.laneClass, State.lf_lw_same _ _ _ _ _ (by decide)]
  refine (bitsAt_mod_two_pow _ (show 4 * l + 4 ≤ 32 by omega)).trans (bitsAt_bitsPut_same _ _ _ _)

theorem State.laneClass_lw_ne (s : State) (k j : Nat) {l m : Nat} (hl : l < 8) (hm : l ≠ m) (c : Nat) :
    (s.lw k j F.SP_L_LANE_C (bitsPut (s.lf k j F.SP_L_LANE_C) (4 * m) 4 c)).laneClass k j l = s.laneClass k j l := by
  rw [State.laneClass, State.lf_lw_same _ _ _ _ _ (by decide)]
  refine (bitsAt_mod_two_pow _ (show 4 * l + 4 ≤ 32 by omega)).trans ?_
  rcases Nat.lt_or_gt_of_ne hm with h | h
  · exact bitsAt_bitsPut_below _ _ _ _ _ _ (by omega)
  · exact bitsAt_bitsPut_above _ _ _ _ _ _ (by omega)

theorem State.laneClass_spanEvent (s : State) (k e j l : Nat) : (s.spanEvent k e).laneClass k j l = s.laneClass k j l := by
  rw [State.laneClass, s.lf_spanEvent k e j (by decide), State.laneClass]

theorem State.setClass_same (s : State) (k j : Nat) (hl : l < 8) (c : Nat) : (s.setClass k j l c).laneClass k j l = c % 16 := by
  rw [State.setClass]
  split
  · exact (State.laneClass_spanEvent _ k 3 j l).trans (s.laneClass_lw_same k j hl c)
  · exact s.laneClass_lw_same k j hl c

theorem State.setClass_ne (s : State) (k j : Nat) {m : Nat} (hl : l < 8) (hm : l ≠ m) (c : Nat) :
    (s.setClass k j m c).laneClass k j l = s.laneClass k j l := by
  rw [State.setClass]
  split
  · exact (State.laneClass_spanEvent _ k 3 j l).trans (s.laneClass_lw_ne k j hl hm c)
  · exact s.laneClass_lw_ne k j hl hm c

theorem State.near_setClass (s : State) (k j l c : Nat) : s.Near (s.setClass k j l c) := by
  rw [State.setClass]
  split
  · exact (State.Near.wr s _ _ _).trans (State.near_spanEvent _ k 3)
  · exact State.Near.wr s _ _ _

/-- The class of a lane is no other field of its link. -/
theorem State.lf_setClass (s : State) (k j l c : Nat) {f : Fld} (hf : 0x1000 ≤ f.off) (ho : f.off ≠ 0x1010) (hs : f.stride = 256) :
    (s.setClass k j l c).lf k j f = s.lf k j f := by
  rw [State.setClass]
  split
  · exact (State.lf_spanEvent _ k 3 j hf).trans (s.lf_lw_ne k j _ ho hs)
  · exact s.lf_lw_ne k j _ ho hs

theorem State.flag_setClass (s : State) (k j l c : Nat) {f : Fld} (hf : f.off < 0x1000) (ho : f.off ≠ 0x20) :
    (s.setClass k j l c).flag (spB k) f = s.flag (spB k) f := by
  have hlw : (s.lw k j F.SP_L_LANE_C (bitsPut (s.lf k j F.SP_L_LANE_C) (4 * l) 4 c)).rd (spB k) f = s.rd (spB k) f :=
    s.rd_wr_ne _ _ _ _ _ (show spB k + f.off ≠ spB k + (0x1010 + 256 * j) by omega)
  rw [State.flag, State.flag, State.setClass]
  split
  · rw [State.rd_spanEvent _ k 3 ho, hlw]
  · rw [hlw]

/-! ### What a training that starts leaves -/

/-- `t` has the classes, the good lanes and the replay of link `j` of Span port `k` as `s`, at the lane `l`. -/
structure State.LaneKept (k j l : Nat) (s t : State) : Prop where
  cls : t.laneClass k j l = s.laneClass k j l
  good : t.lf k j F.SP_L_STAT_GOOD = s.lf k j F.SP_L_STAT_GOOD
  rrow : (t.lk (4 * k + j)).rrow = (s.lk (4 * k + j)).rrow
  rp : (t.lk (4 * k + j)).rp = (s.lk (4 * k + j)).rp
  restore : (t.lk (4 * k + j)).restore = (s.lk (4 * k + j)).restore

namespace State.LaneKept

theorem refl (s : State) : LaneKept k j l s s := ⟨rfl, rfl, rfl, rfl, rfl⟩

theorem trans (h : LaneKept k j l s t) (m : LaneKept k j l t u) : LaneKept k j l s u :=
  ⟨m.cls.trans h.cls, m.good.trans h.good, m.rrow.trans h.rrow, m.rp.trans h.rp, m.restore.trans h.restore⟩

/-- A field of the link that is neither the lanes' classes nor the state. -/
theorem lw (s : State) {f : Fld} (hs : f.stride = 256) (hc : f.off ≠ 0x1010) (hst : f.off ≠ 0x1008) (v : Nat) :
    LaneKept k j l s (s.lw k j f v) :=
  ⟨congrArg (bitsAt · (4 * l) 4) (s.lf_lw_ne k j v (f' := F.SP_L_LANE_C) hc.symm hs.symm), s.lf_lw_ne k j v (f' := F.SP_L_STAT_GOOD) hst.symm hs.symm,
    rfl, rfl, rfl⟩

theorem setClass (s : State) {m : Nat} (hl : l < 8) (hm : l ≠ m) (c : Nat) : LaneKept k j l s (s.setClass k j m c) := by
  have hlk := (s.near_setClass k j m c).lk (4 * k + j)
  exact ⟨s.setClass_ne k j hl hm c, s.lf_setClass k j m c (by decide) (by decide) rfl, congrArg Link.rrow hlk, congrArg Link.rp hlk,
    congrArg Link.restore hlk⟩

theorem foldl_setClass (hl : l < 8) (c : Nat) : ∀ (r : List Nat) (s : State), l ∉ r → LaneKept k j l s (r.foldl (fun a m => a.setClass k j m c) s)
  | [], s, _ => refl s
  | m :: r, s, hm => (setClass s hl (fun h => hm (h ▸ List.mem_cons_self)) c).trans
      (foldl_setClass hl c r (s.setClass k j m c) (fun h => hm (List.mem_cons_of_mem m h)))

end State.LaneKept

/-- The state in which a link that trains anew has given up its exchange of times, and an ACTIVE one has counted it (R320, R573). -/
def State.trainPrep (s : State) (k j : Nat) : State :=
  let c := 4 * k + j
  let was := s.lst k j == 5
  let s := if was then s.lw k j F.SP_L_RETRAIN_CNT_COUNT (min (s.lf k j F.SP_L_RETRAIN_CNT_COUNT + 1) (2 ^ 32 - 1)) else s
  let s := if (was || s.start.spans.contains c) && j == 0 then s.updTime (fun u =>
      let o := mget (fun _ => ((0 : Int), (0 : Nat), (0 : Nat))) u.spanO k
      { u with spanO := mset (fun _ => ((0 : Int), (0 : Nat), (0 : Nat))) u.spanO k (o.1, o.2.1, 16) }) else s
  s.updLk c Link.noTime

theorem State.trainStart_again (s : State) (k j : Nat) : s.trainStart k j 2 =
    ((((s.trainPrep k j).lk (4 * k + j)).restore.foldl (fun a l => a.setClass k j l 0) (s.trainPrep k j)).updLk (4 * k + j) (fun l =>
      { l with kind := 2, tries := 0, far := none, fall := none, restore := [] })).setLst k j 6 := rfl

theorem State.trainPrep_kept (s : State) (k j l : Nat) : LaneKept k j l s (s.trainPrep k j) := by
  unfold State.trainPrep
  dsimp only
  have hcount : LaneKept k j l s (if (s.lst k j == 5) = true then
      s.lw k j F.SP_L_RETRAIN_CNT_COUNT (min (s.lf k j F.SP_L_RETRAIN_CNT_COUNT + 1) (2 ^ 32 - 1)) else s) := by
    split
    · exact .lw s rfl (by decide) (by decide) _
    · exact .refl s
  generalize (if (s.lst k j == 5) = true then
      s.lw k j F.SP_L_RETRAIN_CNT_COUNT (min (s.lf k j F.SP_L_RETRAIN_CNT_COUNT + 1) (2 ^ 32 - 1)) else s) = a at hcount ⊢
  refine hcount.trans ?_
  have htime (b : State) : LaneKept k j l b (b.updLk (4 * k + j) Link.noTime) :=
    ⟨rfl, rfl, by rw [State.lk_updLk_same]; rfl, by rw [State.lk_updLk_same]; rfl, by rw [State.lk_updLk_same]; rfl⟩
  split
  · exact .trans (t := a.updTime _) ⟨rfl, rfl, rfl, rfl, rfl⟩ (htime _)
  · exact htime a

/-- A link that trains anew is in RETRAIN, and a lane that is not restored keeps its class (R571, R573). -/
theorem State.trainStart_spec (s : State) (k j : Nat) (hl : l < 8) (hr : l ∉ (s.lk (4 * k + j)).restore) :
    (s.trainStart k j 2).lst k j = 6 ∧ (s.trainStart k j 2).laneClass k j l = s.laneClass k j l
    ∧ (s.trainStart k j 2).lf k j F.SP_L_STAT_GOOD = s.lf k j F.SP_L_STAT_GOOD := by
  rw [State.trainStart_again]
  have hprep := s.trainPrep_kept k j l
  have hkept := hprep.trans (.foldl_setClass hl 0 _ (s.trainPrep k j) (hprep.restore.symm ▸ hr))
  generalize ((s.trainPrep k j).lk (4 * k + j)).restore.foldl (fun a l => a.setClass k j l 0) (s.trainPrep k j) = a at hkept ⊢
  refine ⟨State.lst_setLst _ k j (by decide), ?_, ?_⟩
  · refine Eq.trans ?_ hkept.cls
    have hset : ∀ code, (((a.updLk (4 * k + j) (fun l => { l with kind := 2, tries := 0, far := none, fall := none, restore := [] })).lw k j
        F.SP_L_STAT_STATE 6).lw k j F.SP_L_STAT_LSTATE code).lf k j F.SP_L_LANE_C = a.lf k j F.SP_L_LANE_C := fun code =>
      (State.lf_lw_ne _ k j code (f := F.SP_L_STAT_LSTATE) (f' := F.SP_L_LANE_C) (by decide) rfl).trans
        (State.lf_lw_ne _ k j 6 (f := F.SP_L_STAT_STATE) (f' := F.SP_L_LANE_C) (by decide) rfl)
    exact congrArg (bitsAt · (4 * l) 4) (hset _)
  · refine Eq.trans ?_ hkept.good
    have hset : ∀ code, (((a.updLk (4 * k + j) (fun l => { l with kind := 2, tries := 0, far := none, fall := none, restore := [] })).lw k j
        F.SP_L_STAT_STATE 6).lw k j F.SP_L_STAT_LSTATE code).lf k j F.SP_L_STAT_GOOD = a.lf k j F.SP_L_STAT_GOOD := fun code =>
      (State.lf_lw_apart _ k j code (f := F.SP_L_STAT_LSTATE) (f' := F.SP_L_STAT_GOOD) rfl rfl (by decide) (by decide)).trans
        (State.lf_lw_apart _ k j 6 (f := F.SP_L_STAT_STATE) (f' := F.SP_L_STAT_GOOD) rfl rfl (by decide) (by decide))
    exact hset _

/-- The replay of a link that trains anew stays as it is. -/
theorem State.trainStart_replay (s : State) (k j : Nat) : ((s.trainStart k j 2).lst k j = 6)
    ∧ ((s.trainStart k j 2).lk (4 * k + j)).rrow = (s.lk (4 * k + j)).rrow ∧ ((s.trainStart k j 2).lk (4 * k + j)).rp = (s.lk (4 * k + j)).rp := by
  rw [State.trainStart_again]
  have hprep := s.trainPrep_kept k j 0
  have hnear : ∀ (r : List Nat) (a : State), a.Near (r.foldl (fun a l => a.setClass k j l 0) a) := by
    intro r
    induction r with
    | nil => exact fun a => .refl a
    | cons m r ih => exact fun a => (a.near_setClass k j m 0).trans (ih _)
  have hlk := (hnear ((s.trainPrep k j).lk (4 * k + j)).restore (s.trainPrep k j)).lk (4 * k + j)
  generalize ((s.trainPrep k j).lk (4 * k + j)).restore.foldl (fun a l => a.setClass k j l 0) (s.trainPrep k j) = a at hlk ⊢
  refine ⟨State.lst_setLst _ k j (by decide), ?_, ?_⟩
  · rw [State.lk_setLst, State.lk_updLk_same, ← hprep.rrow, ← hlk]
  · rw [State.lk_setLst, State.lk_updLk_same, ← hprep.rp, ← hlk]

end Sys2Proof.Machine
end

section
/-! SUPPORT. Lanes that are lost and restored, and the windows of the forward error correction (R571, R573). -/
namespace Sys2Proof.Machine
open State

variable {s t : State} {k j l : Nat}

/-! ### A lane that is lost -/

/-- The state in which a lane of an ACTIVE link has lost its signal: it is OPEN, and no good one (R571). -/
def State.laneLost (s : State) (k j l : Nat) (signal : Bool) : State :=
  if signal = true ∧ s.lst k j = 5 ∧ l < s.group k ∧ (s.laneClass k j l = 0 ∨ s.laneClass k j l = 4 ∨ s.laneClass k j l = 5) then
    (s.setClass k j l 1).lw k j F.SP_L_STAT_GOOD (s.lf k j F.SP_L_STAT_GOOD &&& (2 ^ 8 - 1 - 2 ^ l)) else s

theorem exec_laneLoss_of (hl : s.hasLink k j = true) (b : Bool) : exec (.laneLoss k j l b) s
    = .next (if s.laneUsed k j l then (s.laneLost k j l b).trainStart k j 2 else s.laneLost k j l b) := by
  refine (guardUnit_of hl _ _ : exec (.laneLoss k j l b) s = _).trans (congrArg Host.Outcome.next ?_)
  have hclass : [0, 4, 5].contains (s.laneClass k j l) = true ↔ (s.laneClass k j l = 0 ∨ s.laneClass k j l = 4 ∨ s.laneClass k j l = 5) := by
    simp
  rw [State.laneLost]
  simp only [hclass]
  rfl

theorem testBit_and_clear (v : Nat) (hl : l < 8) : bitAt (v &&& (2 ^ 8 - 1 - 2 ^ l)) l = false := by
  rw [bitAt_eq_testBit, Nat.testBit_and]
  have hclear : ∀ i : Fin 8, (2 ^ 8 - 1 - 2 ^ i.val).testBit i.val = false := by decide
  rw [hclear ⟨l, hl⟩, Bool.and_false]

/-- A lane in use that loses its signal is OPEN, and its link trains anew (R571, R573). -/
theorem laneLoss_used (hk : s.hasLink k j = true) (hu : s.laneUsed k j l = true) (hg : l < s.group k) (hl : l < 8)
    (hc : s.laneClass k j l = 0 ∨ s.laneClass k j l = 4 ∨ s.laneClass k j l = 5) (hr : l ∉ (s.lk (4 * k + j)).restore) :
    ∃ t : State, exec (.laneLoss k j l true) s = .next t ∧ t.lst k j = 6 ∧ t.laneClass k j l = 1
      ∧ bitAt (t.lf k j F.SP_L_STAT_GOOD) l = false := by
  have hactive : s.lst k j = 5 := by
    simp only [State.laneUsed, Bool.and_eq_true, beq_iff_eq] at hu
    exact hu.1.1
  have hlost : s.laneLost k j l true = (s.setClass k j l 1).lw k j F.SP_L_STAT_GOOD (s.lf k j F.SP_L_STAT_GOOD &&& (2 ^ 8 - 1 - 2 ^ l)) :=
    if_pos ⟨rfl, hactive, hg, hc⟩
  have hrestore : l ∉ ((s.laneLost k j l true).lk (4 * k + j)).restore := by
    rw [hlost, State.lk_lw, (s.near_setClass k j l 1).lk]
    exact hr
  obtain ⟨hst, hclass, hgood⟩ := (s.laneLost k j l true).trainStart_spec k j hl hrestore
  refine ⟨_, (exec_laneLoss_of hk true).trans (congrArg Host.Outcome.next (if_pos hu)), hst, hclass.trans ?_, ?_⟩
  · rw [hlost, State.laneClass, State.lf_lw_ne _ k j _ (f := F.SP_L_STAT_GOOD) (f' := F.SP_L_LANE_C) (by decide) rfl]
    exact s.setClass_same k j hl 1
  · rw [hgood, hlost, State.lf_lw_same _ _ _ _ _ (by decide)]
    have hbit := testBit_and_clear (s.lf k j F.SP_L_STAT_GOOD) hl
    rw [bitAt_eq_testBit] at hbit ⊢
    rw [Nat.testBit_mod_two_pow, hbit, Bool.and_false]

/-! ### A lane that is restored -/

theorem exec_laneRestore_of (hk : s.hasLink k j = true) : exec (.laneRestore k j l) s
    = .next (if s.lst k j = 5 ∧ l < s.group k ∧ s.laneClass k j l = 1 ∧ s.flag (spB k) F.SP_CFG_AUTO_RESTORE = true then
       (s.updLk (4 * k + j) (fun x => { x with restore := l :: x.restore.filter (fun i => i != l) })).askTrain k j 3
     else s) :=
  guardUnit_of hk _ _

theorem State.restore_askTrain (s : State) (k j kind c : Nat) : ((s.askTrain k j kind).lk c).restore = (s.lk c).restore := by
  have hset (f : Nat → Nat) : ((s.updLk (4 * k + j) (fun l => { l with want := f l.want })).lk c).restore = (s.lk c).restore := by
    by_cases hc : c = 4 * k + j
    · rw [hc, State.lk_updLk_same]
    · rw [State.lk_updLk_ne _ _ hc]
  rw [State.askTrain]
  split
  · exact hset (fun w => if kind = 1 then 1 else w)
  · exact hset (fun _ => kind)

/-- A restored lane asks for leave to train anew, once (R571). -/
theorem laneRestore_asks (hk : s.hasLink k j = true) (h5 : s.lst k j = 5) (hg : l < s.group k) (hc : s.laneClass k j l = 1)
    (ha : s.flag (spB k) F.SP_CFG_AUTO_RESTORE = true) :
    ∃ t : State, exec (.laneRestore k j l) s = .next t ∧ l ∈ (t.lk (4 * k + j)).restore ∧ t.csr = s.csr
      ∧ ((s.lk (4 * k + j)).want ≠ 0 → (t.lk (4 * k + j)).want = (s.lk (4 * k + j)).want ∧ t.asks = s.asks)
      ∧ ((s.lk (4 * k + j)).want = 0 → (t.lk (4 * k + j)).want = 3 ∧ t.asks = s.asks ++ [{ kind := 3, who := 4 * k + j }]) := by
  have hexec := (exec_laneRestore_of hk).trans (congrArg Host.Outcome.next (if_pos (⟨h5, hg, hc, ha⟩ : _ ∧ _ ∧ _ ∧ _)))
  set v := s.updLk (4 * k + j) (fun x => { x with restore := l :: x.restore.filter (fun i => i != l) }) with hv
  have hlk : v.lk (4 * k + j) = { s.lk (4 * k + j) with restore := l :: (s.lk (4 * k + j)).restore.filter (fun i => i != l) } := by
    rw [hv, State.lk_updLk_same]
  obtain ⟨hwant, -, hasks, hcsr, -, -⟩ := v.askTrain_spec k j 3
  rw [hlk] at hwant hasks
  refine ⟨_, hexec, ?_, hcsr, fun h => ⟨?_, ?_⟩, fun h => ⟨?_, ?_⟩⟩
  · rw [State.restore_askTrain, hlk]
    exact List.mem_cons_self
  · rw [hwant, if_neg h]
    rfl
  · rw [hasks, if_neg h, List.append_nil]
    rfl
  · rw [hwant, if_pos h]
  · rw [hasks, if_pos h]
    rfl

/-! ### Windows of the forward error correction -/

/-- The state in which a window's counts are added (R573). -/
def State.fecCounted (s : State) (k j corr uncorr : Nat) : State :=
  let a := s.lw k j F.SP_L_FEC_CORR_CNT_COUNT (min (s.lf k j F.SP_L_FEC_CORR_CNT_COUNT + corr) (2 ^ 32 - 1))
  a.lw k j F.SP_L_FEC_UNCORR_CNT_COUNT (min (a.lf k j F.SP_L_FEC_UNCORR_CNT_COUNT + uncorr) (2 ^ 32 - 1))

/-- A lane in use whose errors are past the threshold is NOISY (R571). -/
def State.noisyLane (s : State) (k j thr : Nat) (errs : List Nat) (l : Nat) : State :=
  if s.laneUsed k j l && decide (thr < errs.getD l 0) && (s.laneClass k j l == 0 || s.laneClass k j l == 5) then s.setClass k j l 4 else s

/-- The state in which a window past the threshold has marked its lanes. -/
def State.fecMarked (s : State) (k j uncorr : Nat) (errs : List Nat) : State :=
  let thr := s.lf k j F.SP_L_LL_CFG_FEC_THR
  if uncorr ≤ thr then s else forAll (s.group k) (fun l a => a.noisyLane k j thr errs l) (s.spanEvent k 4)

theorem exec_fecWindow_of (hk : s.hasLink k j = true) (corr uncorr : Nat) (errs : List Nat) (h5 : s.lst k j = 5) :
    exec (.fecWindow k j corr uncorr errs) s = .next (
      let t := (s.fecCounted k j corr uncorr).fecMarked k j uncorr errs
      if t.flag (spB k) F.SP_CFG_AUTO_DEGRADE && (List.range 8).any (fun l => t.laneUsed k j l && t.laneClass k j l == 4)
        then t.askTrain k j 3 else t) :=
  (guardUnit_of hk _ _ : exec (.fecWindow k j corr uncorr errs) s = _).trans (congrArg Host.Outcome.next (if_neg (not_not_intro h5)))

/-- `t` has the links of `s` in the state that they have there, and the Span port's settings. -/
structure State.PortKept (k j : Nat) (s t : State) : Prop where
  near : s.Near t
  lst : t.lst k j = s.lst k j
  thr : t.lf k j F.SP_L_LL_CFG_FEC_THR = s.lf k j F.SP_L_LL_CFG_FEC_THR
  cfg : ∀ f : Fld, f.off = 4 → t.rd (spB k) f = s.rd (spB k) f

namespace State.PortKept

variable {u : State}

theorem refl (s : State) : PortKept k j s s := ⟨.refl s, rfl, rfl, fun _ _ => rfl⟩

theorem trans (h : PortKept k j s t) (m : PortKept k j t u) : PortKept k j s u :=
  ⟨h.near.trans m.near, m.lst.trans h.lst, m.thr.trans h.thr, fun f hf => (m.cfg f hf).trans (h.cfg f hf)⟩

theorem lw (s : State) {f : Fld} (hs : f.stride = 256) (hst : f.off ≠ 0x1008) (hc : f.off ≠ 0x1014) (h0 : 0x1000 ≤ f.off) (v : Nat) :
    PortKept k j s (s.lw k j f v) :=
  ⟨.wr s _ _ _, s.lf_lw_ne k j v hst.symm hs.symm, s.lf_lw_ne k j v hc.symm hs.symm, fun g hg => s.rd_wr_ne _ _ _ _ _ (by
    show spB k + g.off ≠ spB k + (f.off + f.stride * j)
    omega)⟩

theorem spanEvent (s : State) (e : Nat) : PortKept k j s (s.spanEvent k e) :=
  ⟨s.near_spanEvent k e, s.lf_spanEvent k e j (by decide), s.lf_spanEvent k e j (by decide), fun f hf => s.rd_spanEvent k e (by omega)⟩

theorem setClass (s : State) (m c : Nat) : PortKept k j s (s.setClass k j m c) := by
  rw [State.setClass]
  split
  · exact (lw s (f := F.SP_L_LANE_C) rfl (by decide) (by decide) (by decide) _).trans (spanEvent _ 3)
  · exact lw s (f := F.SP_L_LANE_C) rfl (by decide) (by decide) (by decide) _

theorem noisyLane (s : State) (thr : Nat) (errs : List Nat) (l : Nat) : PortKept k j s (s.noisyLane k j thr errs l) := by
  rw [State.noisyLane]
  split
  · exact setClass s l 4
  · exact refl s

theorem fecCounted (s : State) (corr uncorr : Nat) : PortKept k j s (s.fecCounted k j corr uncorr) :=
  (lw s (f := F.SP_L_FEC_CORR_CNT_COUNT) rfl (by decide) (by decide) (by decide) _).trans
    (lw _ (f := F.SP_L_FEC_UNCORR_CNT_COUNT) rfl (by decide) (by decide) (by decide) _)

theorem group (h : PortKept k j s t) : t.group k = s.group k := by
  rw [State.group, State.nLinks, h.cfg F.SP_CFG_SPLIT rfl, State.group, State.nLinks]

theorem laneUsed (h : PortKept k j s t) (l : Nat) : t.laneUsed k j l = s.laneUsed k j l := by
  rw [State.laneUsed, State.laneUsed, h.lst, h.near.lk]

theorem degrade (h : PortKept k j s t) : t.flag (spB k) F.SP_CFG_AUTO_DEGRADE = s.flag (spB k) F.SP_CFG_AUTO_DEGRADE := by
  rw [State.flag, State.flag, h.cfg _ rfl]

theorem fecMarked (s : State) (uncorr : Nat) (errs : List Nat) : PortKept k j s (s.fecMarked k j uncorr errs) := by
  rw [State.fecMarked]
  split
  · exact refl s
  · exact (spanEvent s 4).trans (forAll_induction (R := PortKept k j) refl trans _ (fun i _ a => noisyLane a _ errs i) _)

end State.PortKept

theorem State.fecCounted_counts (s : State) (k j corr uncorr : Nat) :
    onlyWords [spB k + (F.SP_L_FEC_CORR_CNT_COUNT.ix j).off, spB k + (F.SP_L_FEC_UNCORR_CNT_COUNT.ix j).off] s (s.fecCounted k j corr uncorr)
    ∧ (s.fecCounted k j corr uncorr).lf k j F.SP_L_FEC_CORR_CNT_COUNT = min (s.lf k j F.SP_L_FEC_CORR_CNT_COUNT + corr) (2 ^ 32 - 1)
    ∧ (s.fecCounted k j corr uncorr).lf k j F.SP_L_FEC_UNCORR_CNT_COUNT = min (s.lf k j F.SP_L_FEC_UNCORR_CNT_COUNT + uncorr) (2 ^ 32 - 1) := by
  have hlt : ∀ v : Nat, min v (2 ^ 32 - 1) % 2 ^ 32 = min v (2 ^ 32 - 1) := fun v =>
    Nat.mod_eq_of_lt (Nat.lt_of_le_of_lt (Nat.min_le_right _ _) (by decide))
  have hsame (a : State) (f : Fld) (hf : f.lo = 0) (hw : f.w = 32) (v : Nat) :
      (a.lw k j f (min v (2 ^ 32 - 1))).lf k j f = min v (2 ^ 32 - 1) := by
    rw [a.lf_lw_same k j f _ (by omega), hw, hlt]
  unfold State.fecCounted
  dsimp only
  refine ⟨(onlyWords_wr s (spB k) (F.SP_L_FEC_CORR_CNT_COUNT.ix j) _ List.mem_cons_self).trans
    (onlyWords_wr _ (spB k) (F.SP_L_FEC_UNCORR_CNT_COUNT.ix j) _ (List.mem_cons_of_mem _ List.mem_cons_self)), ?_, ?_⟩
  · rw [State.lf_lw_ne _ k j _ (f := F.SP_L_FEC_UNCORR_CNT_COUNT) (f' := F.SP_L_FEC_CORR_CNT_COUNT) (by decide) rfl]
    exact hsame s F.SP_L_FEC_CORR_CNT_COUNT rfl rfl _
  · rw [hsame _ F.SP_L_FEC_UNCORR_CNT_COUNT rfl rfl,
      s.lf_lw_ne k j _ (f := F.SP_L_FEC_CORR_CNT_COUNT) (f' := F.SP_L_FEC_UNCORR_CNT_COUNT) (by decide) rfl]

theorem State.laneClass_fecCounted (s : State) (k j corr uncorr l : Nat) : (s.fecCounted k j corr uncorr).laneClass k j l = s.laneClass k j l :=
  congrArg (bitsAt · (4 * l) 4)
    ((State.lf_lw_ne _ k j _ (f := F.SP_L_FEC_UNCORR_CNT_COUNT) (f' := F.SP_L_LANE_C) (by decide) rfl).trans
      (s.lf_lw_ne k j _ (f := F.SP_L_FEC_CORR_CNT_COUNT) (f' := F.SP_L_LANE_C) (by decide) rfl))

/-- A lane in use past the threshold is NOISY after the window. -/
theorem State.laneClass_fecMarked {uncorr : Nat} {errs : List Nat} (hthr : s.lf k j F.SP_L_LL_CFG_FEC_THR < uncorr)
    (hg : l < s.group k) (hu : s.laneUsed k j l = true) (hl : l < 8) (he : s.lf k j F.SP_L_LL_CFG_FEC_THR < errs.getD l 0)
    (hc : s.laneClass k j l = 0 ∨ s.laneClass k j l = 5) : (s.fecMarked k j uncorr errs).laneClass k j l = 4 := by
  rw [State.fecMarked, if_neg (by omega)]
  generalize s.lf k j F.SP_L_LL_CFG_FEC_THR = thr at he ⊢
  have hevent := State.PortKept.spanEvent (k := k) (j := j) s 4
  have hstart : (s.spanEvent k 4).laneUsed k j l = true ∧ ((s.spanEvent k 4).laneClass k j l = 0 ∨ (s.spanEvent k 4).laneClass k j l = 5) := by
    rw [hevent.laneUsed, State.laneClass_spanEvent]
    exact ⟨hu, hc⟩
  generalize s.spanEvent k 4 = a at hstart
  suffices ∀ m, ((forAll m (fun i a => a.noisyLane k j thr errs i) a).laneUsed k j l = true)
      ∧ (if l < m then (forAll m (fun i a => a.noisyLane k j thr errs i) a).laneClass k j l = 4
        else ((forAll m (fun i a => a.noisyLane k j thr errs i) a).laneClass k j l = 0
          ∨ (forAll m (fun i a => a.noisyLane k j thr errs i) a).laneClass k j l = 5)) from by
    have hlast := (this (s.group k)).2
    rwa [if_pos hg] at hlast
  intro m
  induction m with
  | zero => exact ⟨hstart.1, by rw [if_neg (Nat.not_lt_zero l)]; exact hstart.2⟩
  | succ m ih =>
    rw [forAll_succ]
    generalize forAll m (fun i a => a.noisyLane k j thr errs i) a = b at ih ⊢
    obtain ⟨hused, hclass⟩ := ih
    refine ⟨((State.PortKept.noisyLane b thr errs m).laneUsed l).trans hused, ?_⟩
    rcases Nat.lt_trichotomy l m with h | h | h
    · rw [if_pos h] at hclass
      rw [if_pos (by omega), State.noisyLane]
      split
      · rw [b.setClass_ne k j hl (by omega)]
        exact hclass
      · exact hclass
    · rw [if_neg (by omega)] at hclass
      have hmark : (b.laneUsed k j m && decide (thr < errs.getD m 0) && (b.laneClass k j m == 0 || b.laneClass k j m == 5)) = true := by
        rw [← h, hused, decide_eq_true he]
        simpa using hclass
      rw [if_pos (by omega), State.noisyLane, if_pos hmark, ← h]
      exact b.setClass_same k j hl 4
    · rw [if_neg (by omega)] at hclass
      rw [if_neg (by omega), State.noisyLane]
      split
      · rw [b.setClass_ne k j hl (by omega)]
        exact hclass
      · exact hclass

/-- A lane in use that is NOISY with AUTO_DEGRADE asks for leave to train anew (R571). -/
theorem fecWindow_asks (hk : s.hasLink k j = true) (corr uncorr : Nat) (errs : List Nat) (h5 : s.lst k j = 5) (hl : l < 8)
    (hu : s.laneUsed k j l = true) (hc : ((s.fecCounted k j corr uncorr).fecMarked k j uncorr errs).laneClass k j l = 4)
    (ha : s.flag (spB k) F.SP_CFG_AUTO_DEGRADE = true) (hw : (s.lk (4 * k + j)).want = 0) :
    ∃ t : State, exec (.fecWindow k j corr uncorr errs) s = .next t ∧ t.laneClass k j l = 4 ∧ (t.lk (4 * k + j)).want = 3
      ∧ t.asks = s.asks ++ [{ kind := 3, who := 4 * k + j }] := by
  have hkept : PortKept k j s ((s.fecCounted k j corr uncorr).fecMarked k j uncorr errs) :=
    (State.PortKept.fecCounted s corr uncorr).trans (.fecMarked _ uncorr errs)
  have hexec := exec_fecWindow_of hk corr uncorr errs h5
  generalize (s.fecCounted k j corr uncorr).fecMarked k j uncorr errs = t at hkept hexec hc
  have hask : (t.flag (spB k) F.SP_CFG_AUTO_DEGRADE && (List.range 8).any (fun l => t.laneUsed k j l && t.laneClass k j l == 4)) = true := by
    rw [hkept.degrade, ha, Bool.true_and, List.any_eq_true]
    refine ⟨l, List.mem_range.mpr hl, ?_⟩
    rw [hkept.laneUsed, hu, hc]
    rfl
  obtain ⟨hwant, -, hasks, -, -, -⟩ := t.askTrain_spec k j 3
  have hlk : (t.lk (4 * k + j)).want = 0 := by rw [hkept.near.lk]; exact hw
  refine ⟨_, hexec.trans (congrArg Host.Outcome.next (if_pos hask)), ?_, ?_, ?_⟩
  · rw [State.laneClass, State.lf_askTrain]
    exact hc
  · rw [hwant, if_pos hlk]
  · rw [hasks, if_pos hlk, hkept.near.asks]

/-- A window within the threshold, with no NOISY lane to give up, only counts (R573). -/
theorem fecWindow_counts (hk : s.hasLink k j = true) (corr uncorr : Nat) (errs : List Nat) (h5 : s.lst k j = 5)
    (hthr : uncorr ≤ s.lf k j F.SP_L_LL_CFG_FEC_THR)
    (hq : s.flag (spB k) F.SP_CFG_AUTO_DEGRADE = false ∨ ∀ i, i < 8 → s.laneUsed k j i = true → s.laneClass k j i ≠ 4) :
    ∃ t : State, exec (.fecWindow k j corr uncorr errs) s = .next t ∧ onlyWords [spB k + (F.SP_L_FEC_CORR_CNT_COUNT.ix j).off,
        spB k + (F.SP_L_FEC_UNCORR_CNT_COUNT.ix j).off] s t
      ∧ t.lf k j F.SP_L_FEC_CORR_CNT_COUNT = min (s.lf k j F.SP_L_FEC_CORR_CNT_COUNT + corr) (2 ^ 32 - 1)
      ∧ t.lf k j F.SP_L_FEC_UNCORR_CNT_COUNT = min (s.lf k j F.SP_L_FEC_UNCORR_CNT_COUNT + uncorr) (2 ^ 32 - 1) := by
  have hkept := State.PortKept.fecCounted (k := k) (j := j) s corr uncorr
  have hmark : (s.fecCounted k j corr uncorr).fecMarked k j uncorr errs = s.fecCounted k j corr uncorr := by
    rw [State.fecMarked]
    exact if_pos (hkept.thr.symm ▸ hthr)
  have hexec := exec_fecWindow_of hk corr uncorr errs h5
  rw [hmark] at hexec
  have hquiet : ¬ ((s.fecCounted k j corr uncorr).flag (spB k) F.SP_CFG_AUTO_DEGRADE && (List.range 8).any (fun l =>
      (s.fecCounted k j corr uncorr).laneUsed k j l && (s.fecCounted k j corr uncorr).laneClass k j l == 4)) = true := by
    rw [hkept.degrade, Bool.and_eq_true, List.any_eq_true]
    rintro ⟨hf, i, hi, hlane⟩
    rw [hkept.laneUsed, State.laneClass_fecCounted, Bool.and_eq_true, beq_iff_eq] at hlane
    rcases hq with hq | hq
    · exact absurd (hf.symm.trans hq) (by decide)
    · exact hq i (List.mem_range.mp hi) hlane.1 hlane.2
  refine ⟨_, hexec.trans (congrArg Host.Outcome.next (if_neg hquiet)), ?_, ?_, ?_⟩
  · exact (s.fecCounted_counts k j corr uncorr).1
  · exact (s.fecCounted_counts k j corr uncorr).2.1
  · exact (s.fecCounted_counts k j corr uncorr).2.2

end Sys2Proof.Machine
end

section
/-! SUPPORT. Frames that a link receives, and replays (R319, R320, R563, R565 to R568, R570). -/
namespace Sys2Proof.Machine
open State

variable {s t v : State} {k j c t0 : Nat} {f : Frame}

/-! ### Acknowledgements and credits -/

/-- An acknowledgement changes what is kept for a replay, and nothing else (R566). -/
theorem Link.acked_eq (l : Link) (ack : Nat) : ∃ r w p, l.acked ack = { l with replay := r, rrow := w, rp := p } := by
  rw [Link.acked]
  split
  · exact ⟨_, _, _, rfl⟩
  · dsimp only
    split
    · exact ⟨_, _, _, rfl⟩
    · exact ⟨_, _, _, rfl⟩

/-- The state in which a link has taken a frame's ACK, NAK and counts (R565 to R567). -/
def State.frameSeen (s : State) (c : Nat) (f : Frame) : State :=
  s.updLk c (fun l => { (l.acked f.ack).credited f.cred with nakSeen := f.nak })

/-- They leave what the link receives, and its exchange of times. -/
theorem State.frameSeen_kept (s : State) (c : Nat) (f : Frame) : ((s.frameSeen c f).lk c).rxSeq = (s.lk c).rxSeq
    ∧ ((s.frameSeen c f).lk c).rxv = (s.lk c).rxv ∧ ((s.frameSeen c f).lk c).t12 = (s.lk c).t12 ∧ ((s.frameSeen c f).lk c).t3 = (s.lk c).t3
    ∧ ((s.frameSeen c f).lk c).exch = (s.lk c).exch ∧ ((s.frameSeen c f).lk c).replay = ((s.lk c).acked f.ack).replay := by
  obtain ⟨r, w, p, hacked⟩ := (s.lk c).acked_eq f.ack
  rw [State.frameSeen, State.lk_updLk_same, hacked]
  exact ⟨rfl, rfl, rfl, rfl, rfl, rfl⟩

theorem State.rd_frameSeen (s : State) (c : Nat) (f : Frame) (b : Nat) (x : Fld) : (s.frameSeen c f).rd b x = s.rd b x := rfl

theorem State.rxRoom_frameSeen (s : State) (k j : Nat) (f g : Frame) : (s.frameSeen (4 * k + j) f).rxRoom k j g = s.rxRoom k j g := by
  obtain ⟨-, hrxv, -⟩ := s.frameSeen_kept (4 * k + j) f
  rw [State.rxRoom, State.rxRoom, hrxv]
  rfl

/-! ### What a frame in order does, and one out of order -/

/-- What a FLIT or RELAY frame in order brings (R565, R583). -/
def State.frameBrings (s : State) (k j : Nat) (f : Frame) : State := match f.ftype, f.flit with
  | 1, some fl => s.rxFlit k j fl f.found
  | 2, _ => if s.relays k j then s.relayArrive (4 * k + j) f.words else s
  | _, _ => s

/-- What a frame of another type brings: a TIME frame's message (R319). -/
def State.frameTells (s : State) (k j : Nat) (f : Frame) (t0 : Nat) : State := match f.ftype, f.time with
  | 3, some m => s.timeIn k j m t0
  | _, _ => s

section received
variable (hr : f.nak = false ∨ (s.lk (4 * k + j)).nakSeen = true)
include hr

theorem State.frameIn_quiet (t0 : Nat) : s.frameIn k j f t0 =
    if f.ftype = 1 ∨ f.ftype = 2 then
      let d := (f.fseq + 4096 - (s.lk (4 * k + j)).rxSeq) % 4096
      if d = 1 ∧ s.rxRoom k j f = true then
        ((s.frameSeen (4 * k + j) f).updLk (4 * k + j) (fun l => { l with rxSeq := f.fseq % 4096, nak := false })).frameBrings k j f
      else if d ≠ 0 ∧ d < 2048 then (s.frameSeen (4 * k + j) f).updLk (4 * k + j) (fun l => { l with nak := true })
      else s.frameSeen (4 * k + j) f
    else (s.frameSeen (4 * k + j) f).frameTells k j f t0 := by
  have hquiet : (f.nak && !(s.lk (4 * k + j)).nakSeen) = false := by
    rcases hr with h | h
    · rw [h, Bool.false_and]
    · rw [h, Bool.not_true, Bool.and_false]
  obtain ⟨hseq, -⟩ := s.frameSeen_kept (4 * k + j) f
  rw [← hseq, ← s.rxRoom_frameSeen k j f f]
  unfold State.frameIn
  dsimp only
  rw [hquiet]
  exact if_neg Bool.false_ne_true

/-- The next FLIT frame in order, with room, is taken (R565). -/
theorem State.frameIn_flit {fl : Flit} (h1 : f.ftype = 1) (hf : f.flit = some fl)
    (hd : (f.fseq + 4096 - (s.lk (4 * k + j)).rxSeq) % 4096 = 1) (hroom : s.rxRoom k j f = true) (t0 : Nat) : s.frameIn k j f t0 =
    ((s.frameSeen (4 * k + j) f).updLk (4 * k + j) (fun l => { l with rxSeq := f.fseq % 4096, nak := false })).rxFlit k j fl f.found := by
  rw [State.frameIn_quiet hr, if_pos (Or.inl h1)]
  refine (if_pos ⟨hd, hroom⟩).trans ?_
  simp only [State.frameBrings, h1, hf]

/-- The next RELAY frame in order is taken (R565, R583). -/
theorem State.frameIn_relay (h2 : f.ftype = 2) (hd : (f.fseq + 4096 - (s.lk (4 * k + j)).rxSeq) % 4096 = 1)
    (hroom : s.rxRoom k j f = true) (hv : v = (s.frameSeen (4 * k + j) f).updLk (4 * k + j) (fun l => { l with rxSeq := f.fseq % 4096, nak := false }))
    (t0 : Nat) : s.frameIn k j f t0 = if v.relays k j then v.relayArrive (4 * k + j) f.words else v := by
  subst hv
  rw [State.frameIn_quiet hr, if_pos (Or.inr h2)]
  refine (if_pos ⟨hd, hroom⟩).trans ?_
  simp only [State.frameBrings, h2]

/-- A FLIT or RELAY frame out of order asks for NAK (R565, R566). -/
theorem State.frameIn_late (h12 : f.ftype = 1 ∨ f.ftype = 2) {d : Nat} (hd : d = (f.fseq + 4096 - (s.lk (4 * k + j)).rxSeq) % 4096)
    (h1 : 1 < d) (h2 : d < 2048) (t0 : Nat) :
    s.frameIn k j f t0 = (s.frameSeen (4 * k + j) f).updLk (4 * k + j) (fun l => { l with nak := true }) := by
  rw [State.frameIn_quiet hr, if_pos h12, ← hd]
  refine (if_neg ?_).trans (if_pos ⟨by omega, h2⟩)
  rintro ⟨h, -⟩
  omega

theorem State.frameIn_time {m : TimeMsg} (h3 : f.ftype = 3) (hm : f.time = some m) (t0 : Nat) :
    s.frameIn k j f t0 = (s.frameSeen (4 * k + j) f).timeIn k j m t0 := by
  rw [State.frameIn_quiet hr, if_neg (by omega)]
  simp only [State.frameTells, h3, hm]

end received

/-! ### Frames that arrive -/

/-- What a link that takes frames does with one (R563, R570). -/
def State.frameTaken (s : State) (k j : Nat) (f : Frame) (t0 : Nat) : State :=
  if f.crc.toNat ≠ frameCrc f ∨ 5 ≤ f.ftype then
    (s.lw k j F.SP_L_CRC_ERR_CNT_COUNT (min (s.lf k j F.SP_L_CRC_ERR_CNT_COUNT + 1) (2 ^ 32 - 1))).updLk (4 * k + j)
      (fun l => { l with nak := true })
  else
    let st := s.lst k j
    let s := if st = 5 ∨ (s.lk (4 * k + j)).new = false then s.frameIn k j f t0 else s
    if st ≠ 5 ∧ f.ftype = 4 then s.updLk (4 * k + j) (fun l => { l with far := f.link }) else s

theorem exec_spanFrameReceive_of (hk : s.hasLink k j = true) (f : Frame) (t0 : Nat) : exec (.spanFrameReceive k j ⟨f, t0⟩) s
    = .next (if s.lst k j ≠ 4 ∧ s.lst k j ≠ 5 ∧ s.lst k j ≠ 6 then s else s.frameTaken k j f t0) :=
  guardUnit_of hk _ _

theorem exec_spanFrameReceive_taken (hk : s.hasLink k j = true) (hst : s.lst k j = 4 ∨ s.lst k j = 5 ∨ s.lst k j = 6) :
    exec (.spanFrameReceive k j ⟨f, t0⟩) s = .next (s.frameTaken k j f t0) :=
  (exec_spanFrameReceive_of hk f t0).trans (congrArg Host.Outcome.next (if_neg (by omega)))

theorem State.frameTaken_active (hcrc : f.crc.toNat = frameCrc f) (h4 : f.ftype < 4) (h5 : s.lst k j = 5) :
    s.frameTaken k j f t0 = s.frameIn k j f t0 := by
  rw [State.frameTaken, if_neg (by omega)]
  dsimp only
  rw [if_pos (Or.inl h5), if_neg (by omega)]

/-- A frame in CONFIG or RETRAIN counts where the link has not been DOWN (R570). -/
theorem State.frameTaken_config (hcrc : f.crc.toNat = frameCrc f) (h5 : f.ftype < 5) (hst : s.lst k j = 4 ∨ s.lst k j = 6) :
    s.frameTaken k j f t0 = (let t := if (s.lk (4 * k + j)).new then s else s.frameIn k j f t0
      if f.ftype = 4 then t.updLk (4 * k + j) (fun l => { l with far := f.link }) else t) := by
  have hnot5 : s.lst k j ≠ 5 := by omega
  have hin : (if s.lst k j = 5 ∨ (s.lk (4 * k + j)).new = false then s.frameIn k j f t0 else s)
      = if (s.lk (4 * k + j)).new then s else s.frameIn k j f t0 := by
    cases (s.lk (4 * k + j)).new with
    | true => rw [if_neg (by simp [hnot5])]; rfl
    | false => rw [if_pos (Or.inr rfl)]; rfl
  rw [State.frameTaken, if_neg (by omega)]
  dsimp only
  rw [hin]
  by_cases h4 : f.ftype = 4
  · rw [if_pos ⟨hnot5, h4⟩, if_pos h4]
  · rw [if_neg (by omega), if_neg h4]

/-- A frame whose CRC fails is counted and asks for NAK (R563, R566). -/
theorem frameReceive_bad (hk : s.hasLink k j = true) (hc : c = 4 * k + j) (hst : s.lst k j = 4 ∨ s.lst k j = 5 ∨ s.lst k j = 6)
    (hbad : f.crc.toNat ≠ frameCrc f ∨ 5 ≤ f.ftype) :
    ∃ t : State, exec (.spanFrameReceive k j ⟨f, t0⟩) s = .next t ∧ (t.lk c).nak = true
      ∧ t.lf k j F.SP_L_CRC_ERR_CNT_COUNT = min (s.lf k j F.SP_L_CRC_ERR_CNT_COUNT + 1) (2 ^ 32 - 1)
      ∧ (t.lk c).rxv = (s.lk c).rxv ∧ (t.lk c).rxSeq = (s.lk c).rxSeq := by
  subst hc
  refine ⟨_, (exec_spanFrameReceive_taken hk hst).trans (congrArg Host.Outcome.next (if_pos hbad)), ?_, ?_, ?_, ?_⟩
  · rw [State.lk_updLk_same]
  · rw [State.lf_updLk, s.lf_lw_same k j F.SP_L_CRC_ERR_CNT_COUNT _ (by decide)]
    exact Nat.mod_eq_of_lt (Nat.lt_of_le_of_lt (Nat.min_le_right _ _) (by decide))
  · rw [State.lk_updLk_same]
    rfl
  · rw [State.lk_updLk_same]
    rfl

theorem frameReceive_late (hk : s.hasLink k j = true) (hc : c = 4 * k + j) (h5 : s.lst k j = 5) (hcrc : f.crc.toNat = frameCrc f)
    (h12 : f.ftype = 1 ∨ f.ftype = 2) (hn : f.nak = false) {d : Nat} (hd : d = (f.fseq + 4096 - (s.lk c).rxSeq) % 4096) (h1 : 1 < d)
    (h2 : d < 2048) :
    ∃ t : State, exec (.spanFrameReceive k j ⟨f, t0⟩) s = .next t ∧ (t.lk c).nak = true ∧ (t.lk c).rxSeq = (s.lk c).rxSeq
      ∧ (t.lk c).rxv = (s.lk c).rxv ∧ (t.lk c).replay = ((s.lk c).acked f.ack).replay := by
  subst hc
  have hexec := (exec_spanFrameReceive_taken (f := f) (t0 := t0) hk (.inr (.inl h5))).trans
    (congrArg Host.Outcome.next ((State.frameTaken_active hcrc (by omega) h5).trans (State.frameIn_late (.inl hn) h12 hd h1 h2 t0)))
  obtain ⟨hseq, hrxv, -, -, -, hreplay⟩ := s.frameSeen_kept (4 * k + j) f
  refine ⟨_, hexec, ?_, ?_, ?_, ?_⟩
  · rw [State.lk_updLk_same]
  · rw [State.lk_updLk_same, ← hseq]
  · rw [State.lk_updLk_same, ← hrxv]
  · rw [State.lk_updLk_same, ← hreplay]

/-! ### TIME frames -/

theorem State.timeIn_root {s : State} (h : s.rd (spB k) F.SP_TIME_CFG_ROLE = 1) (t0 : Nat) :
    ((s.timeIn k 0 .dreq t0).lk (4 * k)).t4 = some t0 ∧ ((s.timeIn k 0 .dreq t0).lk (4 * k)).replay = (s.lk (4 * k)).replay := by
  have heq : ∃ u : State, s.timeIn k 0 .dreq t0 = u ∧ u.links = (s.updLk (4 * k) (fun l => { l with t4 := some t0 })).links := by
    refine ⟨_, rfl, ?_⟩
    simp only [State.timeIn, h, ne_eq, not_true_eq_false, if_false]
    rfl
  obtain ⟨u, hu, hl⟩ := heq
  rw [hu]
  have hlk : u.lk (4 * k) = (s.updLk (4 * k) (fun l => { l with t4 := some t0 })).lk (4 * k) := by rw [State.lk, hl, State.lk]
  rw [hlk, State.lk_updLk_same]
  exact ⟨rfl, rfl⟩

theorem State.timeIn_child {s : State} (h : s.rd (spB k) F.SP_TIME_CFG_ROLE = 2) (t1 : Nat) (t4 : Option Nat) (t0 : Nat) :
    ((s.timeIn k 0 (.sync t1 t4) t0).lk (4 * k)).t12 = some (t1, t0) ∧ ((s.timeIn k 0 (.sync t1 t4) t0).lk (4 * k)).t3 = none
    ∧ ∀ p x y, (s.lk (4 * k)).t12 = some p → (s.lk (4 * k)).t3 = some x → t4 = some y →
        ((s.timeIn k 0 (.sync t1 t4) t0).lk (4 * k)).exch = some (p.1, p.2, x, y) := by
  have heq : s.timeIn k 0 (.sync t1 t4) t0 = s.updLk (4 * k) (fun l =>
      { l with exch := match l.t12, l.t3, t4 with
                 | some p, some c, some d => some (p.1, p.2, c, d)
                 | _, _, _ => l.exch
               t12 := some (t1, t0), t3 := none }) := by
    simp only [State.timeIn, h, ne_eq, not_true_eq_false, if_false] <;> rfl
  rw [heq, State.lk_updLk_same]
  refine ⟨rfl, rfl, fun p x y hp hx hy => ?_⟩
  dsimp only
  rw [hp, hx, hy]

end Sys2Proof.Machine
end

section
/-! SUPPORT. The frame slots of a link and its replays (R565 to R568, R570, R583). -/
namespace Sys2Proof.Machine
open State

variable {s t v u : State} {k j c : Nat} {f g h : Frame} {tm : Option Nat}

/-! ### Replays -/

theorem exec_replayTmo_of (hk : s.hasLink k j = true) : exec (.replayTmo k j) s = .next (if s.lst k j = 5 then s.replay k j else s) :=
  guardUnit_of hk _ _

/-- The replay starts from the oldest frame that is kept, and is counted (R566). -/
theorem State.replay_starts (hr : (s.lk (4 * k + j)).replay ≠ []) (hrow : (s.lk (4 * k + j)).rrow < max 1 (s.lf k j F.SP_L_LL_CFG_REPLAY_MAX)) :
    s.replay k j = (s.updLk (4 * k + j) (fun l => { l with rrow := (s.lk (4 * k + j)).rrow + 1, rp := some 0 })).lw k j F.SP_L_REPLAY_CNT_COUNT
      (min (s.lf k j F.SP_L_REPLAY_CNT_COUNT + 1) (2 ^ 32 - 1)) := by
  rw [State.replay]
  refine (if_neg ?_).trans (if_neg ?_)
  · simpa using hr
  · rintro ⟨-, h⟩
    omega

/-- After REPLAY_MAX replays in a row the link trains anew (R566, R573). -/
theorem State.replay_gives_up (h5 : s.lst k j = 5) (hr : (s.lk (4 * k + j)).replay ≠ [])
    (hrow : max 1 (s.lf k j F.SP_L_LL_CFG_REPLAY_MAX) ≤ (s.lk (4 * k + j)).rrow) :
    s.replay k j = ((s.updLk (4 * k + j) (fun l => { l with rrow := 0, rp := none })).spanEvent k 5).trainStart k j 2 := by
  rw [State.replay]
  refine (if_neg ?_).trans (if_pos ⟨h5, hrow⟩)
  simpa using hr

theorem replayTmo_replays (hk : s.hasLink k j = true) (hc : c = 4 * k + j) (h5 : s.lst k j = 5) (hr : (s.lk c).replay ≠ []) :
    ((s.lk c).rrow < max 1 (s.lf k j F.SP_L_LL_CFG_REPLAY_MAX) →
      (∃ t : State, exec (.replayTmo k j) s = .next t ∧ (t.lk c).rp = some 0 ∧ (t.lk c).rrow = (s.lk c).rrow + 1
        ∧ t.lf k j F.SP_L_REPLAY_CNT_COUNT = min (s.lf k j F.SP_L_REPLAY_CNT_COUNT + 1) (2 ^ 32 - 1)))
    ∧ (max 1 (s.lf k j F.SP_L_LL_CFG_REPLAY_MAX) ≤ (s.lk c).rrow →
      (∃ t : State, exec (.replayTmo k j) s = .next t ∧ t.lst k j = 6 ∧ (t.lk c).rrow = 0 ∧ (t.lk c).rp = none)) := by
  subst hc
  have hexec := (exec_replayTmo_of hk).trans (congrArg Host.Outcome.next (if_pos h5))
  refine ⟨fun hrow => ⟨_, hexec.trans (congrArg Host.Outcome.next (State.replay_starts hr hrow)), ?_, ?_, ?_⟩,
    fun hrow => ⟨_, hexec.trans (congrArg Host.Outcome.next (State.replay_gives_up h5 hr hrow)), ?_, ?_, ?_⟩⟩
  · rw [State.lk_lw, State.lk_updLk_same]
  · rw [State.lk_lw, State.lk_updLk_same]
  · rw [State.lf_lw_same _ k j F.SP_L_REPLAY_CNT_COUNT _ (by decide)]
    exact Nat.mod_eq_of_lt (Nat.lt_of_le_of_lt (Nat.min_le_right _ _) (by decide))
  · exact (State.trainStart_replay _ k j).1
  · rw [(State.trainStart_replay _ k j).2.1, (State.near_spanEvent _ k 5).lk, State.lk_updLk_same]
  · rw [(State.trainStart_replay _ k j).2.2, (State.near_spanEvent _ k 5).lk, State.lk_updLk_same]

theorem replayTmo_idle (hk : s.hasLink k j = true) (hq : s.lst k j ≠ 5 ∨ (s.lk (4 * k + j)).replay = []) :
    exec (.replayTmo k j) s = .next s := by
  refine (exec_replayTmo_of hk).trans (congrArg Host.Outcome.next ?_)
  by_cases h5 : s.lst k j = 5
  · rw [if_pos h5, State.replay]
    refine if_pos ?_
    rw [hq.resolve_left (not_not_intro h5)]
    rfl
  · exact if_neg h5

/-! ### Frames that leave -/

/-- A frame leaves with the receiver's ACK, NAK and counts, and its CRC (R563, R565, R567). -/
theorem State.frameOut_lk (s : State) (c : Nat) (f : Frame) (hg : g = { f with ack := (s.lk c).rxSeq, nak := (s.lk c).nak, cred := (s.lk c).cnt }) :
    (s.frameOut c f).lk c = { s.lk c with out := (s.lk c).out ++ [{ g with crc := BitVec.ofNat 32 (frameCrc g) }] } := by
  subst hg
  rw [State.frameOut, State.lk_updLk_same]

theorem exec_spanFrameSend_of (hk : s.hasLink k j = true) (ws : List Word) (tm : Option Nat) :
    exec (.spanFrameSend k j ws tm) s = .next (s.frameSlot k j ws tm) := guardUnit_of hk _ _

/-- What an ACTIVE link sends in a slot, once an UP link has taken up a collect word (R568). -/
def State.activeSlot (s : State) (k j : Nat) (tm : Option Nat) : State :=
  let c := 4 * k + j
  let l := s.lk c
  match l.rp.bind (fun i => l.replay[i]?.map (fun f => (i, f))) with
  | some (i, f) =>
    (s.updLk c (fun l => { l with rp := if i + 1 < l.replay.length then some (i + 1) else none })).frameOut c f
  | none =>
    if decide (l.replay.length < 256) && !l.relayQ.isEmpty then
      (s.updLk c (fun l => { l with relayQ := l.relayQ.drop 8 })).seqOut c { ftype := 2, words := l.relayQ.take 8 }
    else match tm.bind (s.timeOut k j) with
      | some (s, m) => s.frameOut c { ftype := 3, time := some m }
      | none => match (if decide (l.replay.length < 256) then s.flitOut c else none) with
        | some t => t
        | none => s.frameOut c {}

/-- The state in which an UP link has taken up the collect word that is complete, if one is (R583). -/
def State.wordTaken (s : State) (k j : Nat) (ws : List Word) : State :=
  if s.lf k j F.SP_L_CFG_RELAY == 1 && s.relays k j then s.relayUp (4 * k + j) ws else s

theorem State.frameSlot_active (h5 : s.lst k j = 5) (ws : List Word) (tm : Option Nat) :
    s.frameSlot k j ws tm = (s.wordTaken k j ws).activeSlot k j tm := by
  unfold State.frameSlot
  simp only [h5]
  rfl

/-- In CONFIG and RETRAIN a LINK frame goes out (R570). -/
theorem State.frameSlot_config (hst : s.lst k j = 4 ∨ s.lst k j = 6) (ws : List Word) (tm : Option Nat) :
    s.frameSlot k j ws tm = s.frameOut (4 * k + j) { ftype := 4, link := some {
      inst := s.instNum, mask := s.goodLanes k j, width := s.lf k j F.SP_L_CFG_WIDTH_REQ, role := s.lf k j F.SP_L_CFG_RELAY,
      cred := (List.range 4).map (s.alloc k j) } } := by
  unfold State.frameSlot
  dsimp only
  split
  · next h => omega
  · exact if_pos hst

theorem State.frameSlot_idle (hst : s.lst k j ≠ 4 ∧ s.lst k j ≠ 5 ∧ s.lst k j ≠ 6) (ws : List Word) (tm : Option Nat) :
    s.frameSlot k j ws tm = s := by
  unfold State.frameSlot
  dsimp only
  split
  · next h => exact absurd h hst.2.1
  · exact if_neg (by omega)

/-- With no collect word that is complete none is taken up. -/
theorem State.wordTaken_none (ws : List Word) (hq : s.lf k j F.SP_L_CFG_RELAY ≠ 1 ∨ s.relays k j = false ∨ ws.length ≠ 1
    ∨ ∀ jn, s.joints.find? (fun y => !y.own) = some jn → s.jointWord jn ≠ (ws.headD 0, true)) : s.wordTaken k j ws = s := by
  rw [State.wordTaken]
  split
  next hrel =>
    rw [Bool.and_eq_true, beq_iff_eq] at hrel
    rw [State.relayUp]
    split
    · rfl
    next jn hj =>
      refine if_neg ?_
      rintro ⟨hw, hlen⟩
      rcases hq with h | h | h | h
      · exact h hrel.1
      · exact absurd (hrel.2.symm.trans h) (by decide)
      · exact h hlen
      · exact h jn hj hw
  · rfl

theorem State.wordTaken_nil (s : State) (k j : Nat) : s.wordTaken k j [] = s := State.wordTaken_none [] (.inr (.inr (.inl (by decide))))

/-- An UP link takes up the oldest collect word that has all its parts (R583). -/
theorem State.wordTaken_takes {w : Word} {jn : Joint} (hr : s.lf k j F.SP_L_CFG_RELAY = 1) (hm : s.relays k j = true)
    (hj : s.joints.find? (fun y => !y.own) = some jn) (hw : s.jointWord jn = (w, true)) :
    s.wordTaken k j [w] = { s.updLk (4 * k + j) (fun l => { l with relayQ := l.relayQ ++ [w] }) with joints := s.joints.erase jn } := by
  rw [State.wordTaken, if_pos (by rw [hr, hm]; rfl), State.relayUp, hj]
  exact if_pos ⟨hw, rfl⟩

/-- A slot of an ACTIVE link that has no collect word to take up. -/
theorem exec_spanFrameSend_active (hk : s.hasLink k j = true) (h5 : s.lst k j = 5) (tm : Option Nat) :
    exec (.spanFrameSend k j [] tm) s = .next (s.activeSlot k j tm) := by
  rw [exec_spanFrameSend_of hk, State.frameSlot_active h5, State.wordTaken_nil]

section slots
variable (hrp : (s.lk (4 * k + j)).rp = none)

include hrp in
/-- The relay words that wait go first (R568, R583). -/
theorem State.activeSlot_relay (hlen : (s.lk (4 * k + j)).replay.length < 256) (hq : (s.lk (4 * k + j)).relayQ ≠ []) (tm : Option Nat) :
    s.activeSlot k j tm = (s.updLk (4 * k + j) (fun l => { l with relayQ := l.relayQ.drop 8 })).seqOut (4 * k + j)
      { ftype := 2, words := (s.lk (4 * k + j)).relayQ.take 8 } := by
  unfold State.activeSlot
  simp only [hrp, Option.bind_none]
  refine if_pos ?_
  rw [decide_eq_true hlen, Bool.true_and]
  simpa using hq

include hrp in
/-- Then the TIME frame that is due (R319, R568). -/
theorem State.activeSlot_time (hq : (s.lk (4 * k + j)).relayQ = []) {m : TimeMsg} (ht : tm.bind (s.timeOut k j) = some (t, m)) :
    s.activeSlot k j tm = t.frameOut (4 * k + j) { ftype := 3, time := some m } := by
  unfold State.activeSlot
  simp only [hrp, Option.bind_none, hq, List.isEmpty_nil, Bool.not_true, Bool.and_false, Bool.false_eq_true, if_false, ht]

include hrp in
/-- Then a flit that may go, and else an idle frame (R568). -/
theorem State.activeSlot_free (hq : (s.lk (4 * k + j)).relayQ = []) : s.activeSlot k j none =
    ((if (s.lk (4 * k + j)).replay.length < 256 then s.flitOut (4 * k + j) else none).getD (s.frameOut (4 * k + j) {})) := by
  unfold State.activeSlot
  simp only [hrp, Option.bind_none, hq, List.isEmpty_nil, Bool.not_true, Bool.and_false, Bool.false_eq_true, if_false, decide_eq_true_eq]
  cases (if (s.lk (4 * k + j)).replay.length < 256 then s.flitOut (4 * k + j) else none) with
  | none => rfl
  | some t => rfl

end slots

/-- A replay sends the frame that it stands at (R566, R568). -/
theorem State.activeSlot_replay {i : Nat} (hrp : (s.lk (4 * k + j)).rp = some i) (hf : (s.lk (4 * k + j)).replay[i]? = some f) (tm : Option Nat) :
    s.activeSlot k j tm = (s.updLk (4 * k + j) (fun l => { l with rp := if i + 1 < l.replay.length then some (i + 1) else none })).frameOut
      (4 * k + j) f := by
  unfold State.activeSlot
  simp only [hrp, Option.bind_some, hf, Option.map_some]

theorem State.flitOut_none (h : s.nextSeg c = none) : s.flitOut c = none := by
  unfold State.flitOut
  simp only [h]

/-- The idle frame's part. -/
theorem frameSend_idle (hk : s.hasLink k j = true) (hc : c = 4 * k + j) (h5 : s.lst k j = 5) (hrp : (s.lk c).rp = none)
    (hq : (s.lk c).relayQ = []) (hg : g = { ack := (s.lk c).rxSeq, nak := (s.lk c).nak, cred := (s.lk c).cnt }) (hseg : s.nextSeg c = none) :
    ∃ t : State, exec (.spanFrameSend k j [] none) s = .next t ∧ (t.lk c).replay = (s.lk c).replay ∧ (t.lk c).txSeq = (s.lk c).txSeq
      ∧ t.csr = s.csr ∧ t.ports = s.ports ∧ (t.lk c).out = (s.lk c).out ++ [{ g with crc := BitVec.ofNat 32 (frameCrc g) }] := by
  subst hc
  have hslot : s.activeSlot k j none = s.frameOut (4 * k + j) {} := by
    rw [State.activeSlot_free hrp hq, State.flitOut_none hseg]
    split <;> rfl
  refine ⟨_, (exec_spanFrameSend_active hk h5 none).trans (congrArg Host.Outcome.next hslot), ?_, ?_, rfl, rfl, ?_⟩
  · rw [State.frameOut_lk s _ {} rfl]
  · rw [State.frameOut_lk s _ {} rfl]
  · rw [State.frameOut_lk s _ {} hg]

/-- A TIME frame of the root's side carries its time and the time of the last request (R319). -/
theorem frameSend_sync (hk : s.hasLink k 0 = true) (h5 : s.lst k 0 = 5) (hrp : (s.lk (4 * k)).rp = none)
    (hq : (s.lk (4 * k)).relayQ = []) (hg : g = { ack := (s.lk (4 * k)).rxSeq, nak := (s.lk (4 * k)).nak, cred := (s.lk (4 * k)).cnt }) {x : Nat}
    (hrole : s.rd (spB k) F.SP_TIME_CFG_ROLE = 1) (hh : h = { g with ftype := 3, time := some (.sync x (s.lk (4 * k)).t4) }) :
    ∃ t : State, exec (.spanFrameSend k 0 [] (some x)) s = .next t
      ∧ (t.lk (4 * k)).out = (s.lk (4 * k)).out ++ [{ h with crc := BitVec.ofNat 32 (frameCrc h) }] ∧ (t.lk (4 * k)).t4 = none
      ∧ (t.lk (4 * k)).replay = (s.lk (4 * k)).replay ∧ (t.lk (4 * k)).txSeq = (s.lk (4 * k)).txSeq := by
  have htime : (some x).bind (s.timeOut k 0) = some (s.updLk (4 * k) (fun l => { l with t4 := none }), .sync x (s.lk (4 * k)).t4) := by
    simp only [Option.bind_some, State.timeOut, hrole, ne_eq, not_true_eq_false, if_false]
  have hslot := State.activeSlot_time (j := 0) hrp hq htime
  have hout : h = { ({ ftype := 3, time := some (.sync x (s.lk (4 * k)).t4) } : Frame) with
      ack := ((s.updLk (4 * k) (fun l => { l with t4 := none })).lk (4 * k)).rxSeq
      nak := ((s.updLk (4 * k) (fun l => { l with t4 := none })).lk (4 * k)).nak
      cred := ((s.updLk (4 * k) (fun l => { l with t4 := none })).lk (4 * k)).cnt } := by
    rw [hh, hg, State.lk_updLk_same]
  have hlk := State.frameOut_lk (s.updLk (4 * k) (fun l => { l with t4 := none })) (4 * k) _ hout
  rw [State.lk_updLk_same] at hlk
  refine ⟨_, (exec_spanFrameSend_active hk h5 (some x)).trans (congrArg Host.Outcome.next hslot), ?_, ?_, ?_, ?_⟩
  · have e := congrArg Link.out hlk
    exact e
  · have e := congrArg Link.t4 hlk
    exact e
  · have e := congrArg Link.replay hlk
    exact e
  · have e := congrArg Link.txSeq hlk
    exact e

/-- A TIME frame of the child's side asks for its answer, and keeps the time at which it leaves (R319). -/
theorem frameSend_dreq (hk : s.hasLink k 0 = true) (h5 : s.lst k 0 = 5) (hrp : (s.lk (4 * k)).rp = none)
    (hq : (s.lk (4 * k)).relayQ = []) (hg : g = { ack := (s.lk (4 * k)).rxSeq, nak := (s.lk (4 * k)).nak, cred := (s.lk (4 * k)).cnt }) {x : Nat}
    (hrole : s.rd (spB k) F.SP_TIME_CFG_ROLE = 2) (h12 : (s.lk (4 * k)).t12.isSome = true) (hh : h = { g with ftype := 3, time := some .dreq }) :
    ∃ t : State, exec (.spanFrameSend k 0 [] (some x)) s = .next t
      ∧ (t.lk (4 * k)).out = (s.lk (4 * k)).out ++ [{ h with crc := BitVec.ofNat 32 (frameCrc h) }] ∧ (t.lk (4 * k)).t3 = some x
      ∧ (t.lk (4 * k)).replay = (s.lk (4 * k)).replay ∧ (t.lk (4 * k)).txSeq = (s.lk (4 * k)).txSeq := by
  have htime : (some x).bind (s.timeOut k 0) = some (s.updLk (4 * k) (fun l => { l with t3 := some x }), .dreq) := by
    simp only [Option.bind_some, State.timeOut, hrole, ne_eq, not_true_eq_false, if_false, h12, if_true]
  have hslot := State.activeSlot_time (j := 0) hrp hq htime
  have hout : h = { ({ ftype := 3, time := some .dreq } : Frame) with
      ack := ((s.updLk (4 * k) (fun l => { l with t3 := some x })).lk (4 * k)).rxSeq
      nak := ((s.updLk (4 * k) (fun l => { l with t3 := some x })).lk (4 * k)).nak
      cred := ((s.updLk (4 * k) (fun l => { l with t3 := some x })).lk (4 * k)).cnt } := by
    rw [hh, hg, State.lk_updLk_same]
  have hlk := State.frameOut_lk (s.updLk (4 * k) (fun l => { l with t3 := some x })) (4 * k) _ hout
  rw [State.lk_updLk_same] at hlk
  refine ⟨_, (exec_spanFrameSend_active hk h5 (some x)).trans (congrArg Host.Outcome.next hslot), ?_, ?_, ?_, ?_⟩
  · have e := congrArg Link.out hlk
    exact e
  · have e := congrArg Link.t3 hlk
    exact e
  · have e := congrArg Link.replay hlk
    exact e
  · have e := congrArg Link.txSeq hlk
    exact e

theorem frameSend_replay {i : Nat} (hk : s.hasLink k j = true) (hc : c = 4 * k + j) (h5 : s.lst k j = 5) (hrp : (s.lk c).rp = some i)
    (hf : (s.lk c).replay[i]? = some f) (hg : g = { f with ack := (s.lk c).rxSeq, nak := (s.lk c).nak, cred := (s.lk c).cnt }) :
    ∃ t : State, exec (.spanFrameSend k j [] none) s = .next t ∧ (t.lk c).out = (s.lk c).out ++ [{ g with crc := BitVec.ofNat 32 (frameCrc g) }]
      ∧ (t.lk c).rp = (if i + 1 < (s.lk c).replay.length then some (i + 1) else none) ∧ (t.lk c).replay = (s.lk c).replay
      ∧ (t.lk c).txSeq = (s.lk c).txSeq := by
  subst hc
  set a := s.updLk (4 * k + j) (fun l => { l with rp := if i + 1 < l.replay.length then some (i + 1) else none }) with ha
  have halk : a.lk (4 * k + j) = { s.lk (4 * k + j) with rp := if i + 1 < (s.lk (4 * k + j)).replay.length then some (i + 1) else none } := by
    rw [ha, State.lk_updLk_same]
  have hlk := State.frameOut_lk (g := g) a (4 * k + j) f (by rw [halk]; exact hg)
  rw [halk] at hlk
  refine ⟨_, (exec_spanFrameSend_active hk h5 none).trans (congrArg Host.Outcome.next (State.activeSlot_replay hrp hf none)), ?_, ?_, ?_, ?_⟩
  · have e := congrArg Link.out hlk
    exact e
  · exact congrArg Link.rp hlk
  · have e := congrArg Link.replay hlk
    exact e
  · have e := congrArg Link.txSeq hlk
    exact e

end Sys2Proof.Machine
end

section
/-! SUPPORT. What a Span port forwards, and what it drains when it stalls (R574, R576, R578 to R580). -/
namespace Sys2Proof.Machine
open State

variable {s : State} {k j v : Nat}

/-- A unit that is not there does nothing. -/
theorem guardUnit_off {ok : Bool} (h : ok = false) (s t : State) : guardUnit s ok t = .next s := by
  rw [h]
  rfl

theorem exec_spanForward_of {src vc : Nat} (e : FlitErr) (hg : (s.hasSpan k && decide (vc < 16) && (decide (src < 2) || s.hasLink k (src - 2))) = true) :
    exec (.spanForward k src vc e) s = .next (if src < 2 then
      (match (s.port (.span src k)).wire with
       | [] => s
       | fl :: t =>
         if ((s.updPort (.span src k) (fun y => { y with wire := t })).port (.span src k)).dead
           then s.updPort (.span src k) (fun y => { y with wire := t })
           else (s.updPort (.span src k) (fun y => { y with wire := t })).spanFlit k src fl e)
      else s.fromLink k (src - 2) vc) :=
  guardUnit_of hg _ _

theorem hasSpan_of_hasLink (h : s.hasLink k j = true) : s.hasSpan k = true := by
  rw [State.hasLink, Bool.and_eq_true] at h
  exact h.1

/-- A flit from a plane is taken off its wire (R576). -/
theorem spanForward_plane {p vc : Nat} (e : FlitErr) {fl : Flit} {r : List Flit} (hs : s.hasSpan k = true) (hp : p < 2) (hv : vc < 16)
    (hw : (s.port (.span p k)).wire = fl :: r) : exec (.spanForward k p vc e) s = .next (if (s.port (.span p k)).dead
      then s.updPort (.span p k) (fun y => { y with wire := r })
      else (s.updPort (.span p k) (fun y => { y with wire := r })).spanFlit k p fl e) := by
  refine (exec_spanForward_of e (by rw [hs, decide_eq_true hv, decide_eq_true hp]; rfl)).trans (congrArg Host.Outcome.next ?_)
  rw [if_pos hp]
  simp only [hw, State.port_updPort_same]

theorem spanForward_plane_idle {p vc : Nat} (e : FlitErr) (hs : s.hasSpan k = true) (hp : p < 2) (hw : (s.port (.span p k)).wire = []) :
    exec (.spanForward k p vc e) s = .next s := by
  by_cases hv : vc < 16
  · refine (exec_spanForward_of e (by rw [hs, decide_eq_true hv, decide_eq_true hp]; rfl)).trans (congrArg Host.Outcome.next ?_)
    rw [if_pos hp]
    simp only [hw]
  · exact guardUnit_off (by rw [decide_eq_false hv, Bool.and_false, Bool.false_and]) _ _

/-- The head of a link's receive VC is routed, and in transit it moves on (R578, R579). -/
theorem spanForward_link (e : FlitErr) (hl : s.hasLink k j = true) (hv : v < 16) :
    exec (.spanForward k (2 + j) v e) s = .next (s.fromLink k j v) := by
  have hsrc : 2 + j - 2 = j := by omega
  refine (exec_spanForward_of e (by rw [hsrc, hl, hasSpan_of_hasLink hl, decide_eq_true hv, Bool.or_true]; rfl)).trans
    (congrArg Host.Outcome.next ?_)
  rw [if_neg (by omega), hsrc]

theorem State.fromLink_routed {x : VcSt} {t : TxPkt} (hg : (s.lk (4 * k + j)).go.getD v none = none) (hx : (s.lk (4 * k + j)).rxv[v]? = some x)
    (ht : frontPkt x.buf = some t) :
    s.fromLink k j v = (if t.hdr.dest / 256 = s.instNum then s.toPlanes k j v t.hdr else s.toLink k j v t.hdr).toXbar k j v := by
  unfold State.fromLink
  simp only [hg, hx, Option.bind_some, ht]

theorem State.fromLink_moves (hq : (s.lk (4 * k + j)).go.getD v none ≠ none
    ∨ ∀ x, (s.lk (4 * k + j)).rxv[v]? = some x → frontPkt x.buf = none) : s.fromLink k j v = s.toXbar k j v := by
  unfold State.fromLink
  dsimp only
  split
  · next t hg ht =>
    obtain ⟨x, hx, hpkt⟩ := Option.bind_eq_some_iff.mp ht
    rcases hq with h | h
    · exact absurd hg h
    · exact absurd ((h x hx).symm.trans hpkt) (by simp)
  · rfl

theorem State.toLink_unrouted {h : Hdr} (hf : s.fwd k (h.dest / 256) = none) : s.toLink k j v h = (s.noRoute k).rxDrop (4 * k + j) v := by
  simp only [State.toLink, hf]

/-! ### Stalls -/

theorem exec_spanStall_of (hl : s.hasLink k j = true) (hv : v < 16) (xb : Bool) : exec (.spanStall k j v xb) s = .next (
    match (if xb then (s.lk (4 * k + j)).xbv[v]? else (s.lk (4 * k + j)).rxv[v]?) with
     | none => s
     | some x =>
       if x.buf.isEmpty then s
       else
         ((if xb then s.xbDrop (4 * k + j) v (match x.tx with
             | some t => t.next != 0
             | none => false) else s.stallRx (4 * k + j) v x).count (spB k) F.SP_STALL_DROP_CNT_COUNT 1).spanEvent k 7) :=
  guardUnit_of (by rw [hl, decide_eq_true hv]; rfl) _ _

theorem spanStall_idle (hl : s.hasLink k j = true) (hv : v < 16) (xb : Bool)
    (h : ∀ x, (if xb then (s.lk (4 * k + j)).xbv[v]? else (s.lk (4 * k + j)).rxv[v]?) = some x → x.buf = []) :
    exec (.spanStall k j v xb) s = .next s := by
  refine (exec_spanStall_of hl hv xb).trans (congrArg Host.Outcome.next ?_)
  split
  · rfl
  · next x hx => exact if_pos (by rw [h x hx]; rfl)

/-- A stalled receive VC is drained, counted and reported (R580). -/
theorem spanStall_rx {x : VcSt} (hl : s.hasLink k j = true) (hv : v < 16) (hx : (s.lk (4 * k + j)).rxv[v]? = some x) (hb : x.buf ≠ []) :
    exec (.spanStall k j v false) s = .next (((s.stallRx (4 * k + j) v x).count (spB k) F.SP_STALL_DROP_CNT_COUNT 1).spanEvent k 7) := by
  refine (exec_spanStall_of hl hv false).trans (congrArg Host.Outcome.next ?_)
  rw [if_neg Bool.false_ne_true, hx]
  refine (if_neg ?_).trans rfl
  simpa using hb

/-- A stalled crossbar VC is drained, behind a poisoned tail where its packet has begun (R580). -/
theorem spanStall_xb {x : VcSt} (hl : s.hasLink k j = true) (hv : v < 16) (hx : (s.lk (4 * k + j)).xbv[v]? = some x) (hb : x.buf ≠ [])
    {tail : Bool} (ht : x.tx.any (fun t => t.next != 0) = tail) :
    exec (.spanStall k j v true) s = .next (((s.xbDrop (4 * k + j) v tail).count (spB k) F.SP_STALL_DROP_CNT_COUNT 1).spanEvent k 7) := by
  refine (exec_spanStall_of hl hv true).trans (congrArg Host.Outcome.next ?_)
  rw [if_pos rfl, hx]
  refine (if_neg (by simpa using hb)).trans ?_
  subst ht
  cases x.tx with
  | none => rfl
  | some t => rfl

theorem State.stallRx_whole {x : VcSt} {c : Nat} (h : ∀ t, x.tx = some t → t.next = 0) : s.stallRx c v x = s.rxDrop c v := by
  unfold State.stallRx
  split
  · next t ht => exact if_pos (h t ht)
  · rfl

/-! ### The statement -/

/-- The lanes' part: R571, R573. -/
theorem spanLanes (s : State) (k j l : Nat) (hk : s.hasLink k j = true) :
    (∀ (b : Bool) (v : State),
      v = (if b = true ∧ s.lst k j = 5 ∧ l < s.group k ∧ (s.laneClass k j l = 0 ∨ s.laneClass k j l = 4 ∨ s.laneClass k j l = 5) then
        (s.setClass k j l 1).lw k j F.SP_L_STAT_GOOD (s.lf k j F.SP_L_STAT_GOOD &&& (2 ^ 8 - 1 - 2 ^ l)) else s) →
      exec (.laneLoss k j l b) s = .next (if s.laneUsed k j l then v.trainStart k j 2 else v))
    ∧ ((s.lst k j ≠ 5 ∨ s.group k ≤ l ∨ s.laneClass k j l ≠ 1 ∨ s.flag (spB k) F.SP_CFG_AUTO_RESTORE = false) →
      exec (.laneRestore k j l) s = .next s)
    ∧ (∀ corr uncorr errs, s.lst k j ≠ 5 → exec (.fecWindow k j corr uncorr errs) s = .next s) := by
  refine ⟨fun b v hv => hv ▸ exec_laneLoss_of hk b, fun hq => ?_, fun corr uncorr errs h => ?_⟩
  · refine (exec_laneRestore_of hk).trans (congrArg Host.Outcome.next (if_neg ?_))
    rintro ⟨h5, hg, hc, ha⟩
    rcases hq with h | h | h | h
    · exact h h5
    · omega
    · exact h hc
    · exact absurd (ha.symm.trans h) (by decide)
  · exact (guardUnit_of hk _ _ : exec (.fecWindow k j corr uncorr errs) s = _).trans (congrArg Host.Outcome.next (if_pos h))

/-- The frames in order: R565, R567. -/
theorem spanFramesInOrder (s : State) (k j c t0 : Nat) (hk : s.hasLink k j = true) (hc : c = 4 * k + j) (f : Frame) (v : State)
    (hcrc : f.crc.toNat = frameCrc f) (h5 : s.lst k j = 5) (hseq : f.fseq % 4096 = ((s.lk c).rxSeq + 1) % 4096) (hrx : (s.lk c).rxSeq < 4096)
    (hf : f.fseq < 4096) (hn : f.nak = false ∨ (s.lk c).nakSeen = true) (hroom : s.rxRoom k j f = true)
    (hv : v = (s.updLk c (fun l => { (l.acked f.ack).credited f.cred with nakSeen := f.nak })).updLk c (fun l =>
      { l with rxSeq := f.fseq % 4096, nak := false })) :
    (∀ fl, f.ftype = 1 → f.flit = some fl → exec (.spanFrameReceive k j ⟨f, t0⟩) s = .next (v.rxFlit k j fl f.found))
    ∧ (f.ftype = 2 → exec (.spanFrameReceive k j ⟨f, t0⟩) s = .next (if v.relays k j then v.relayArrive c f.words else v)) := by
  subst hc
  have hd : (f.fseq + 4096 - (s.lk (4 * k + j)).rxSeq) % 4096 = 1 := by omega
  have hexec : f.ftype < 4 → exec (.spanFrameReceive k j ⟨f, t0⟩) s = .next (s.frameIn k j f t0) := fun h4 =>
    (exec_spanFrameReceive_taken hk (.inr (.inl h5))).trans (congrArg Host.Outcome.next (State.frameTaken_active hcrc h4 h5))
  refine ⟨fun fl h1 hfl => (hexec (by omega)).trans (congrArg Host.Outcome.next ?_),
    fun h2 => (hexec (by omega)).trans (congrArg Host.Outcome.next (State.frameIn_relay hn h2 hd hroom hv t0))⟩
  rw [State.frameIn_flit hn h1 hfl hd hroom t0, hv]
  rfl

/-- Settles O46: the lanes, the frames, and what is forwarded. -/
theorem spanTrafficAndFaults : Obligations.SpanTrafficAndFaults := by
  unfold Obligations.SpanTrafficAndFaults
  refine ⟨fun s k j l => ⟨fun hl => ⟨fun b => guardUnit_off hl _ _, guardUnit_off hl _ _, fun _ _ _ => guardUnit_off hl _ _⟩, fun hk => ?_⟩,
    fun s k j c t0 => ⟨fun hl => ⟨fun f => guardUnit_off hl _ _, fun _ _ => guardUnit_off hl _ _, guardUnit_off hl _ _⟩, fun hk hc => ?_⟩,
    fun s k => ⟨fun src vc e hq => ?_, fun j v b hq => ?_, fun hs => ?_⟩⟩
  · obtain ⟨hloss, hrestore, hwindow⟩ := spanLanes s k j l hk
    refine ⟨hloss, fun hu hg hl hc hr => laneLoss_used hk hu hg hl hc hr, hrestore, fun h5 hg hc ha hw => ?_, hwindow,
      fun h5 hg hc ha hw => ?_, fun corr uncorr errs h5 hthr hg hu hl he hc ha hw => ?_, fun corr uncorr errs h5 hl hu hc ha hw hthr => ?_,
      fun corr uncorr errs h5 hthr hq => fecWindow_counts hk corr uncorr errs h5 hthr hq⟩
    · obtain ⟨t, ht, hmem, hcsr, hasked, -⟩ := laneRestore_asks hk h5 hg hc ha
      exact ⟨t, ht, hmem, (hasked hw).1, (hasked hw).2, hcsr⟩
    · obtain ⟨t, ht, hmem, hcsr, -, hasks⟩ := laneRestore_asks hk h5 hg hc ha
      exact ⟨t, ht, hmem, (hasks hw).1, (hasks hw).2, hcsr⟩
    · have hkept := State.PortKept.fecCounted (k := k) (j := j) s corr uncorr
      have hmark := State.laneClass_fecMarked (s := s.fecCounted k j corr uncorr) (hkept.thr.symm ▸ hthr) (hkept.group.symm ▸ hg)
        ((hkept.laneUsed l).trans hu) hl (hkept.thr.symm ▸ he) (s.laneClass_fecCounted k j corr uncorr l ▸ hc)
      exact fecWindow_asks hk corr uncorr errs h5 hl hu hmark ha hw
    · have hkept := State.PortKept.fecCounted (k := k) (j := j) s corr uncorr
      have hmark : (s.fecCounted k j corr uncorr).fecMarked k j uncorr errs = s.fecCounted k j corr uncorr := by
        rw [State.fecMarked]
        exact if_pos (hkept.thr.symm ▸ hthr)
      obtain ⟨t, ht, -, hwant, hasks⟩ := fecWindow_asks hk corr uncorr errs h5 hl hu
        (hmark.symm ▸ (s.laneClass_fecCounted k j corr uncorr l).trans hc) ha hw
      exact ⟨t, ht, hwant, hasks⟩
  · refine ⟨fun hst => ⟨fun f => ?_, fun ws tm => ?_, ?_⟩, fun f hcrc h4 hst => ?_,
      fun f v hcrc h5 hseq hrx hf hn hroom hv => spanFramesInOrder s k j c t0 hk hc f v hcrc h5 hseq hrx hf hn hroom hv,
      fun f hst hbad => frameReceive_bad hk hc hst hbad, fun f hst hcrc h4 => ?_,
      fun f d h5 hcrc h12 hn hd h1 h2 => frameReceive_late hk hc h5 hcrc h12 hn hd h1 h2, fun f h5 hj hcrc h3 hn => ?_,
      fun tm g h h5 hrp hq hg => ⟨fun hseg htm => ?_, fun x hj htm hrole hh => ?_, fun x hj htm hrole h12 hh => ?_⟩,
      fun ws tm h5 hq => ?_, fun w tm jn v h5 hr hm hj hw hrp hlen hv => ?_, fun tm h5 hrp hlen hq => ?_, fun u h5 hrp hq hlen hu => ?_,
      fun i f g h5 hrp hf hg => frameSend_replay hk hc h5 hrp hf hg, fun ws tm hst => ?_, fun hq => replayTmo_idle hk (hc ▸ hq),
      fun h5 hr => replayTmo_replays hk hc h5 hr⟩
    · exact (exec_spanFrameReceive_of hk f.frame f.t).trans (congrArg Host.Outcome.next (if_pos hst))
    · rw [exec_spanFrameSend_of hk, State.frameSlot_idle hst]
    · exact replayTmo_idle hk (.inl hst.2.1)
    · subst hc
      rw [exec_spanFrameReceive_taken hk (by omega), State.frameTaken_config hcrc (by omega) hst]
      exact congrArg Host.Outcome.next (if_neg (by omega))
    · subst hc
      rw [exec_spanFrameReceive_taken hk (by omega), State.frameTaken_config hcrc (by omega) hst]
      exact congrArg Host.Outcome.next (if_pos h4)
    · subst hj hc
      have hexec : exec (.spanFrameReceive k 0 ⟨f, t0⟩) s = .next (s.frameIn k 0 f t0) :=
        (exec_spanFrameReceive_taken hk (.inr (.inl h5))).trans (congrArg Host.Outcome.next (State.frameTaken_active hcrc (by omega) h5))
      obtain ⟨-, -, h12, ht3, hexch, hreplay⟩ := s.frameSeen_kept (4 * k + 0) f
      refine ⟨fun hrole hm => ⟨_, hexec.trans (congrArg Host.Outcome.next (State.frameIn_time (.inl hn) h3 hm t0)), ?_⟩,
        fun t1 t4 hrole hm => ⟨_, hexec.trans (congrArg Host.Outcome.next (State.frameIn_time (.inl hn) h3 hm t0)), ?_⟩⟩
      · obtain ⟨hset, hkept⟩ := State.timeIn_root (s := s.frameSeen (4 * k + 0) f) hrole t0
        exact ⟨hset, hkept.trans hreplay⟩
      · obtain ⟨hset, hnone, hdone⟩ := State.timeIn_child (s := s.frameSeen (4 * k + 0) f) hrole t1 t4 t0
        exact ⟨hset, hnone, fun p x y hp hx hy => hdone p x y (h12.trans hp) (ht3.trans hx) hy⟩
    · subst htm
      exact frameSend_idle hk hc h5 hrp hq hg hseg
    · subst hj hc htm
      exact frameSend_sync hk h5 hrp hq hg hrole hh
    · subst hj hc htm
      exact frameSend_dreq hk h5 hrp hq hg hrole h12 hh
    · rw [exec_spanFrameSend_of hk, exec_spanFrameSend_of hk, State.frameSlot_active h5, State.frameSlot_active h5,
        State.wordTaken_none ws hq, State.wordTaken_nil]
    · subst hc hv
      have hlk : ({ s.updLk (4 * k + j) (fun l => { l with relayQ := l.relayQ ++ [w] }) with joints := s.joints.erase jn } : State).lk (4 * k + j)
          = { s.lk (4 * k + j) with relayQ := (s.lk (4 * k + j)).relayQ ++ [w] } :=
        s.lk_updLk_same (4 * k + j) (fun l => { l with relayQ := l.relayQ ++ [w] })
      rw [exec_spanFrameSend_of hk, State.frameSlot_active h5, State.wordTaken_takes hr hm hj hw]
      generalize ({ s.updLk (4 * k + j) (fun l => { l with relayQ := l.relayQ ++ [w] }) with joints := s.joints.erase jn } : State) = v at hlk ⊢
      rw [State.activeSlot_relay (by rw [hlk]; exact hrp) (by rw [hlk]; exact hlen) (by rw [hlk]; simp) tm, hlk]
    · subst hc
      rw [exec_spanFrameSend_active hk h5, State.activeSlot_relay hrp hlen hq]
    · subst hc
      rw [exec_spanFrameSend_active hk h5, State.activeSlot_free hrp hq, if_pos hlen, hu]
      rfl
    · subst hc
      rw [exec_spanFrameSend_of hk, State.frameSlot_config hst]
  · refine guardUnit_off ?_ _ _
    rcases hq with h | h | ⟨h2, h⟩
    · rw [h, Bool.false_and, Bool.false_and]
    · rw [decide_eq_false (by omega), Bool.and_false, Bool.false_and]
    · rw [h, decide_eq_false (by omega : ¬ src < 2), Bool.or_self, Bool.and_false]
  · refine guardUnit_off ?_ _ _
    rcases hq with h | h
    · rw [h, Bool.false_and]
    · rw [decide_eq_false (by omega), Bool.and_false]
  · refine ⟨fun p vc e fl r hp hv hw => ⟨fun hd => ?_, fun hd => ?_⟩, fun p vc e hp hw => spanForward_plane_idle e hs hp hw,
      fun j v x t e hl hv hg hx ht => ⟨fun hi => ?_, fun hi => ?_, fun hi hf _ => ?_⟩,
      fun j v e hl hv hq => (spanForward_link e hl hv).trans (congrArg Host.Outcome.next (State.fromLink_moves hq)),
      fun j v b hl hv h => spanStall_idle hl hv b h, fun j v x hl hv hx hb => ⟨spanStall_rx hl hv hx hb, State.stallRx_whole⟩,
      fun j v x hl hv hx hb => ⟨fun t ht => spanStall_xb hl hv hx hb (by rw [ht]; rfl), fun ht => spanStall_xb hl hv hx hb (by rw [ht]; rfl)⟩⟩
    · rw [spanForward_plane e hs hp hv hw, if_neg (ne_true_of_eq_false hd)]
    · rw [spanForward_plane e hs hp hv hw, if_pos hd]
    · rw [spanForward_link e hl hv, State.fromLink_routed hg hx ht, if_pos hi]
    · rw [spanForward_link e hl hv, State.fromLink_routed hg hx ht, if_neg hi]
    · rw [spanForward_link e hl hv, State.fromLink_routed hg hx ht, if_neg hi, State.toLink_unrouted hf]

end Sys2Proof.Machine
end

section
/-! SUPPORT. The answers of the Control Matrix (R446, R457, R467, R471): what the error record leaves, which accesses keep waiting, and
what a break of a lock leaves. -/

namespace Sys2Proof.Machine

/-! ### The error record (R471) -/

/-- The first error that the record holds, with its event. -/
def State.errLogged (s : State) (m : Nat) (q : CsrReq) (code : Nat) : State :=
  ((((((s.wr cmxB F.CMX_ERR_LOG_OFFSET q.addr).wr cmxB F.CMX_ERR_LOG_INFO_MASTER m).wr cmxB F.CMX_ERR_LOG_INFO_CODE code).wr cmxB
    F.CMX_ERR_LOG_INFO_WRITE (b2n q.wr)).wr cmxB F.CMX_ERR_LOG_INFO_SIZE q.size).wr cmxB F.CMX_ERR_LOG_INFO_VALID 1).glEvent 5 1

theorem State.errLogged_kept (s : State) (m : Nat) (q : CsrReq) (code : Nat) :
    s.Near (s.errLogged m q code) ∧ s.NisTold (s.errLogged m q code) ∧ s.KeepsAt (· = dbgB) (s.errLogged m q code) := by
  refine ⟨((((((State.Near.wr s _ _ _).trans (.wr _ _ _ _)).trans (.wr _ _ _ _)).trans (.wr _ _ _ _)).trans (.wr _ _ _ _)).trans
    (.wr _ _ _ _)).trans (State.near_glEvent _ 5 1), (State.NisTold.refl s).wr.wr.wr.wr.wr.wr.glEvent, ?_⟩
  exact ((((((State.KeepsAt.wr (s := s) _ (by decide)).trans (.wr _ (by decide))).trans (.wr _ (by decide))).trans
    (.wr _ (by decide))).trans (.wr _ (by decide))).trans (.wr _ (by decide))).trans
    ((State.keepsAt_glEvent _ (by decide) 1).mono fun o ho => ho ▸ (by decide))

/-- A noted error changes registers of the Control Matrix and of the event unit, and what NIs are told. -/
theorem State.noteErr_kept (s : State) (m : Nat) (q : CsrReq) (code : Nat) :
    s.Near (s.noteErr m q code) ∧ s.NisTold (s.noteErr m q code) ∧ s.KeepsAt (· = dbgB) (s.noteErr m q code) := by
  unfold State.noteErr
  split
  · exact ⟨.refl s, .refl s, .refl s⟩
  dsimp only
  have h : s.Near (s.setBit cmxB F.CMX_ERR_STAT_CODE (code - 1)) ∧ s.NisTold (s.setBit cmxB F.CMX_ERR_STAT_CODE (code - 1))
      ∧ s.KeepsAt (· = dbgB) (s.setBit cmxB F.CMX_ERR_STAT_CODE (code - 1)) :=
    ⟨.setBit s _ _ _, (State.NisTold.refl s).setBit, .setBit _ (by decide)⟩
  generalize s.setBit cmxB F.CMX_ERR_STAT_CODE (code - 1) = a at h ⊢
  have hc : s.Near (if code = 5 then a.count cmxB F.CMX_DERR_CNT_COUNT 1 else a)
      ∧ s.NisTold (if code = 5 then a.count cmxB F.CMX_DERR_CNT_COUNT 1 else a)
      ∧ s.KeepsAt (· = dbgB) (if code = 5 then a.count cmxB F.CMX_DERR_CNT_COUNT 1 else a) := by
    obtain ⟨hn, ht, hk⟩ := h
    split
    · exact ⟨hn.trans (.count _ _ _ _), ht.count, hk.trans (.count _ (by decide))⟩
    · exact ⟨hn, ht, hk⟩
  generalize (if code = 5 then a.count cmxB F.CMX_DERR_CNT_COUNT 1 else a) = b at hc ⊢
  obtain ⟨hn, ht, hk⟩ := hc
  split
  · exact ⟨hn, ht, hk⟩
  · obtain ⟨hn', ht', hk'⟩ := b.errLogged_kept m q code
    exact ⟨hn.trans hn', ht.trans ht', hk.trans hk'⟩

theorem State.mgmtIn_noteErr (s : State) (m : Nat) (q : CsrReq) (code n : Nat) : ((s.noteErr m q code).ni n).mgmtIn = (s.ni n).mgmtIn :=
  have e := congrArg NiSt.mgmtIn ((s.noteErr_kept m q code).2.1.told n)
  e

theorem State.cmx_noteErr (s : State) (m : Nat) (q : CsrReq) (code : Nat) : (s.noteErr m q code).cmx = s.cmx :=
  have e := congrArg State.cmx (s.noteErr_kept m q code).1
  e

/-! ### Answers, and the accesses that wait (R446, R457) -/

theorem State.cmxAnswer_dbg (s : State) (a : Csa) (d : BitVec 64) (code : Nat) (lb : Bool) :
    (s.cmxAnswer a d code lb).word dbgB = s.word dbgB := by
  have h := (s.noteErr_kept a.m a.req code).2.2.1 dbgB rfl
  unfold State.cmxAnswer
  split
  · rfl
  split
  · exact h
  · exact h
  · exact h
  · exact h

/-- What passes the answers keeps the debug block's word, and the accesses in `l`. -/
structure State.Awaits (s : State) (l : List Csa) (t : State) : Prop where
  dbg : t.word dbgB = s.word dbgB
  acs : ∀ a ∈ l, a ∈ t.cmx.acs

theorem State.Awaits.cmxIn {s t : State} {l : List Csa} (h : s.Awaits l t) (m : Nat) (mg : Option (Nat × Nat × Hdr)) (q : CsrReq)
    (deny : Option Nat) : s.Awaits l (t.cmxIn m mg q deny) := by
  obtain ⟨hd, ha⟩ := h
  exact ⟨hd, fun a ha' => List.mem_append_left _ (ha a ha')⟩

theorem State.Awaits.mgmtPump {s t : State} {l : List Csa} (h : s.Awaits l t) : s.Awaits l t.mgmtPump := by
  refine forAll_induction (R := fun a b => s.Awaits l a → s.Awaits l b) (fun _ e => e) (fun h k e => k (h e)) _ ?_ t h
  intro n _ a ha
  split
  · exact ha
  · split
    · obtain ⟨hd, hl⟩ := ha
      exact State.Awaits.cmxIn (t := a.updNi n _) ⟨hd, hl⟩ _ _ _ _
    · exact ha

/-- One access's turn to be answered. -/
def flushOne (p : State × List Csa) (c : Csa) : State × List Csa :=
  match c.rsp with
  | none => (p.1, p.2 ++ [c])
  | some (d, code, lb) =>
    if c.m == 0 && p.2.any (fun b => b.m == 0 && b.req.id == c.req.id && !b.late) then (p.1, p.2 ++ [c])
    else (p.1.cmxAnswer c d code lb, p.2)

theorem State.flushCmx_eq (s : State) : s.flushCmx =
    ((s.cmx.acs.foldl flushOne (s, [])).1.updCmx (fun c => { c with acs := (s.cmx.acs.foldl flushOne (s, [])).2 })).mgmtPump := rfl

theorem flushOne_waiting (p : State × List Csa) {c : Csa} (h : c.rsp = none) : flushOne p c = (p.1, p.2 ++ [c]) := by
  simp only [flushOne, h]

theorem flushOne_dbg (p : State × List Csa) (c : Csa) : (flushOne p c).1.word dbgB = p.1.word dbgB := by
  unfold flushOne
  split
  · rfl
  · split
    · rfl
    · exact State.cmxAnswer_dbg _ _ _ _ _

theorem mem_flushOne {p : State × List Csa} (c : Csa) {a : Csa} (h : a ∈ p.2) : a ∈ (flushOne p c).2 := by
  unfold flushOne
  split
  · exact List.mem_append_left _ h
  · split
    · exact List.mem_append_left _ h
    · exact h

theorem flushFold_kept (l : List Csa) : ∀ p : State × List Csa, (l.foldl flushOne p).1.word dbgB = p.1.word dbgB
    ∧ ∀ a, (a ∈ p.2 ∨ a ∈ l ∧ a.rsp = none) → a ∈ (l.foldl flushOne p).2 := by
  induction l with
  | nil => exact fun p => ⟨rfl, fun a h => h.resolve_right fun k => absurd k.1 List.not_mem_nil⟩
  | cons c r ih =>
    intro p
    obtain ⟨hd, ha⟩ := ih (flushOne p c)
    refine ⟨hd.trans (flushOne_dbg p c), fun a h => ha a ?_⟩
    rcases h with h | ⟨h, hr⟩
    · exact .inl (mem_flushOne c h)
    · rcases List.mem_cons.mp h with rfl | h
      · exact .inl (by rw [flushOne_waiting p hr]; exact List.mem_append_right _ List.mem_cons_self)
      · exact .inr ⟨h, hr⟩

theorem flushFold_waiting (l : List Csa) (h : ∀ a ∈ l, a.rsp = none) : ∀ p : State × List Csa, l.foldl flushOne p = (p.1, p.2 ++ l) := by
  induction l with
  | nil => exact fun p => by rw [List.foldl_nil, List.append_nil]
  | cons c r ih =>
    intro p
    rw [List.foldl_cons, flushOne_waiting p (h c List.mem_cons_self), ih fun a ha => h a (List.mem_cons_of_mem _ ha)]
    rw [List.append_assoc]
    rfl

/-- An access without a response stays, whatever is answered (R457). -/
theorem State.flushCmx_awaits (s : State) : s.Awaits (s.cmx.acs.filter (fun a => a.rsp.isNone)) s.flushCmx := by
  rw [State.flushCmx_eq]
  obtain ⟨hd, ha⟩ := flushFold_kept s.cmx.acs (s, [])
  refine State.Awaits.mgmtPump ⟨hd, fun a h => ha a (.inr ?_)⟩
  obtain ⟨hm, hr⟩ := List.mem_filter.mp h
  exact ⟨hm, Option.isNone_iff_eq_none.mp hr⟩

/-- With no response to give and no packet that waits for a place, nothing changes. -/
theorem State.flushCmx_of_waiting {s : State} (h : ∀ a ∈ s.cmx.acs, a.rsp = none) (hin : ∀ n, (s.ni n).mgmtIn = []) : s.flushCmx = s := by
  rw [State.flushCmx_eq, flushFold_waiting _ h]
  exact State.mgmtPump_of_idle hin

/-- The only access, answered with code `c` to the host port (R457, R471). -/
theorem State.flushCmx_host {s : State} {a : Csa} {d : BitVec 64} {c : Nat} {lb : Bool} (hacs : s.cmx.acs = [a]) (hr : a.rsp = some (d, c, lb))
    (hm : a.m = 0) (hg : a.mg = none) (hmute : a.mute = false) (hin : ∀ n, (s.ni n).mgmtIn = []) :
    s.flushCmx.cmx = { s.cmx with acs := [], hcOut := s.cmx.hcOut ++ [{ id := a.req.id, data := toLanes a.req.addr d, code := c, lb := lb }] } := by
  have hans : s.cmxAnswer a d c lb = (s.noteErr a.m a.req c).updCmx (fun x =>
      { x with hcOut := x.hcOut ++ [{ id := a.req.id, data := toLanes a.req.addr d, code := c, lb := lb }] }) := by
    unfold State.cmxAnswer
    rw [hmute, hg, hm]
    rfl
  have hidle (f g : Cmx → Cmx) : (((s.noteErr a.m a.req c).updCmx f).updCmx g).mgmtPump = ((s.noteErr a.m a.req c).updCmx f).updCmx g :=
    State.mgmtPump_of_idle fun n => (State.mgmtIn_noteErr s a.m a.req c n).trans (hin n)
  rw [State.flushCmx_single hacs hr, hans]
  refine (congrArg State.cmx (hidle _ _)).trans ?_
  rw [← State.cmx_noteErr s a.m a.req c]
  rfl

/-- Answering the only access leaves none (R457). -/
theorem State.flushCmx_empties {s : State} {a : Csa} {r : BitVec 64 × Nat × Bool} (hacs : s.cmx.acs = [a]) (hr : a.rsp = some r)
    (hg : a.mg = none) (hin : ∀ n, (s.ni n).mgmtIn = []) : s.flushCmx.cmx.acs = [] := by
  obtain ⟨d, c, lb⟩ := r
  have hidle : ∀ n, ((s.cmxAnswer a d c lb).ni n).mgmtIn = [] := by
    intro n
    unfold State.cmxAnswer
    split
    · exact hin n
    · dsimp only
      have hn := (State.mgmtIn_noteErr s a.m a.req c n).trans (hin n)
      rw [hg]
      split
      · next h => cases h
      · exact hn
      · exact hn
      · exact hn
  have hpump (f : Cmx → Cmx) : ((s.cmxAnswer a d c lb).updCmx f).mgmtPump = (s.cmxAnswer a d c lb).updCmx f :=
    State.mgmtPump_of_idle hidle
  rw [State.flushCmx_single hacs hr, hpump]
  rfl

/-! ### Breaks of locks (R467) -/

theorem State.cmx_breakShown (s : State) (m t cause : Nat) : (s.breakShown m t cause).cmx = s.cmx :=
  have e := congrArg State.cmx (s.near_breakShown m t cause)
  e

theorem State.breakLock_of_none {s : State} {t : Nat} (h : s.lockOf t = none) (cause : Nat) : s.breakLock t cause = s := by
  rw [State.breakLock, h]

/-- A lock that LOCK_MAX breaks cuts its owner off, and marks its target (R467, R468). -/
theorem State.breakLock_cut {s : State} {t m j : Nat} (h : s.lockOf t = some (m, j)) :
    (m, t) ∈ (s.breakLock t 1).cmx.cuts ∧ t ∈ (s.breakLock t 1).cmx.brk := by
  have hb : s.breakLock t 1 = State.breakShown { s with cmx := { s.cmx with
      locks := mset (fun _ => none) s.cmx.locks t none
      brk := if s.cmx.brk.contains t then s.cmx.brk else t :: s.cmx.brk
      cuts := (m, t) :: s.cmx.cuts.filter (fun e => e != (m, t))
      owed := s.cmx.owed.filter (fun e => e.1 != t)
      stage := mset (fun _ => none) s.cmx.stage (mtKey m t) none } } m t 1 := by
    rw [State.breakLock, h]
    rfl
  rw [hb, State.cmx_breakShown]
  refine ⟨List.mem_cons_self, ?_⟩
  dsimp only
  split
  · next hc => exact List.contains_iff_mem.mp hc
  · exact List.mem_cons_self

/-- A break leaves the accesses. -/
theorem State.acs_breakLock (s : State) (t cause : Nat) : (s.breakLock t cause).cmx.acs = s.cmx.acs := by
  cases h : s.lockOf t with
  | none => rw [State.breakLock_of_none h]
  | some o => exact (State.breakLock_spec h cause).1

theorem State.acs_brokenNow (s : State) (t : Nat) : (s.brokenNow t).cmx.acs = s.cmx.acs := by
  unfold State.brokenNow
  split
  · rfl
  · exact State.acs_breakLock _ _ _

theorem State.brokenNow_of_none_owed {s : State} {t : Nat} (h : ∀ e ∈ s.cmx.owed, e.1 ≠ t) : s.brokenNow t = s := by
  rw [State.brokenNow, List.find?_eq_none.mpr fun e he => by simpa using h e he]

/-- A break keeps what the NIs wait to bring into the Control Matrix. -/
theorem State.mgmtIn_breakLock (s : State) (t cause n : Nat) : ((s.breakLock t cause).ni n).mgmtIn = (s.ni n).mgmtIn := by
  have hb (a : State) (m : Nat) : ((a.breakShown m t cause).ni n).mgmtIn = (a.ni n).mgmtIn := by
    unfold State.breakShown
    dsimp only
    have hcut : a.NisTold (a.wr cmxB (F.CMX_MST_STAT_CUT.ix m) 1) := (State.NisTold.refl a).wr
    generalize a.wr cmxB (F.CMX_MST_STAT_CUT.ix m) 1 = b at hcut ⊢
    have h : a.NisTold ((if b.flag cmxB F.CMX_LB_LOG_VALID then b else
        (((b.wr cmxB F.CMX_LB_LOG_TARGET t).wr cmxB F.CMX_LB_LOG_OWNER m).wr cmxB F.CMX_LB_LOG_CAUSE cause).wr cmxB
          F.CMX_LB_LOG_VALID 1).glEvent 5 0) := (State.NisTold.ite hcut hcut.wr.wr.wr.wr).glEvent
    have e := congrArg NiSt.mgmtIn (h.told n)
    exact e
  unfold State.breakLock
  split
  · rfl
  next m _ _ => exact hb _ m

theorem State.mgmtIn_breakWhenDone (s : State) (t cause n : Nat) : ((s.breakWhenDone t cause).ni n).mgmtIn = (s.ni n).mgmtIn := by
  unfold State.breakWhenDone
  split
  · rfl
  · split
    · rfl
    · exact State.mgmtIn_breakLock _ _ _ _

theorem State.acs_breakWhenDone (s : State) (t cause : Nat) : (s.breakWhenDone t cause).cmx.acs = s.cmx.acs := by
  unfold State.breakWhenDone
  split
  · rfl
  · split
    · rfl
    · exact State.acs_breakLock _ _ _

theorem State.breakAll_kept (cause : Nat) (l : List Nat) : ∀ s : State,
    (l.foldl (fun a t => a.breakWhenDone t cause) s).cmx.acs = s.cmx.acs
      ∧ ∀ n, ((l.foldl (fun a t => a.breakWhenDone t cause) s).ni n).mgmtIn = (s.ni n).mgmtIn := by
  induction l with
  | nil => exact fun s => ⟨rfl, fun _ => rfl⟩
  | cons t r ih =>
    intro s
    obtain ⟨ha, hn⟩ := ih (s.breakWhenDone t cause)
    exact ⟨ha.trans (s.acs_breakWhenDone t cause), fun n => (hn n).trans (s.mgmtIn_breakWhenDone t cause n)⟩

/-- A master's reset mutes its accesses, and brings none (R448, R467). -/
theorem State.ownerReset_kept (s : State) (m : Nat) :
    (s.ownerReset m).cmx.acs = s.cmx.acs.map (fun a => if a.m = m then { a with mute := true } else a)
      ∧ ∀ n, ((s.ownerReset m).ni n).mgmtIn = (s.ni n).mgmtIn := by
  obtain ⟨ha, hn⟩ := State.breakAll_kept 0 (s.cmx.locks.filterMap (fun e => match e.2 with
    | some (o, _) => if o = m then some e.1 else none
    | none => none)) s
  exact ⟨congrArg (List.map _) ha, hn⟩

/-- Nor does it answer the host port (R448). -/
theorem State.hcOut_breakWhenDone (s : State) (t cause : Nat) : (s.breakWhenDone t cause).cmx.hcOut = s.cmx.hcOut := by
  unfold State.breakWhenDone
  split
  · rfl
  · split
    · rfl
    · unfold State.breakLock
      split
      · rfl
      next m _ _ =>
        have hb (a : State) : (a.breakShown m t cause).cmx.hcOut = a.cmx.hcOut := by rw [State.cmx_breakShown]
        exact hb _

theorem State.hcOut_ownerReset (s : State) (m : Nat) : (s.ownerReset m).cmx.hcOut = s.cmx.hcOut := by
  have h (l : List Nat) : ∀ s : State, (l.foldl (fun a t => a.breakWhenDone t 0) s).cmx.hcOut = s.cmx.hcOut := by
    induction l with
    | nil => exact fun s => rfl
    | cons t r ih => exact fun s => (ih _).trans (s.hcOut_breakWhenDone t 0)
  exact h _ s

end Sys2Proof.Machine
end

section
/-! SUPPORT. The Control Matrix and its masters (R446 to R471): the phases of its arbiter, accesses that are performed and that time out,
the host port, MGMT packets and the debug port. -/

namespace Sys2Proof.Machine

variable {s : State}

/-! ### Phases (R455, R465) -/

theorem State.cmxPhase_idle {t : Nat} (h : s.cmx.acs.any (fun a => a.tgt == t && a.working) = true ∨ s.cmxWinner t = none) :
    s.cmxPhase t = s := by
  unfold State.cmxPhase
  rcases h with h | h
  · exact if_pos h
  · rw [h]
    split
    · rfl
    · rfl

/-- The access that wins is granted, and its master goes to the end of the target's rotation list. -/
def State.phaseWon (s : State) (t m : Nat) (a : Csa) : State := s.updCmx (fun c => { c with
  acs := c.acs.map (fun b => if b.ser = a.ser ∧ b.rsp.isNone = true then { b with gr := some s.clock } else b)
  rots := mset (fun _ => List.range 6) c.rots t ((s.cmxRot t).filter (fun k => k != m) ++ [m]) })

theorem State.cmxPhase_wins {t m : Nat} {a : Csa} (h : s.cmx.acs.any (fun a => a.tgt == t && a.working) = false)
    (hw : s.cmxWinner t = some m) (hf : s.cmx.acs.find? (fun a => a.m == m && a.tgt == t && a.asks) = some a) :
    s.cmxPhase t = (s.phaseWon t m a).granting m t a.req := by
  unfold State.cmxPhase
  rw [if_neg (ne_true_of_eq_false h), hw]
  simp only [hf]
  rfl

theorem State.granting_kept (s : State) (m t : Nat) (q : CsrReq) :
    (s.granting m t q).cmx.acs = s.cmx.acs ∧ (s.granting m t q).cmx.rots = s.cmx.rots ∧ (s.granting m t q).csr = s.csr := by
  unfold State.granting
  split
  · exact ⟨rfl, rfl, rfl⟩
  · exact ⟨rfl, rfl, rfl⟩

/-- A grant with LOCK of a target without a lock opens its master's locked sequence. -/
theorem State.granting_locks {m t : Nat} {q : CsrReq} (hb : s.lockBit m q = true) (hn : s.lockOf t = none) (hc : (m, t) ∉ s.cmx.cuts) :
    (s.granting m t q).lockOf t = some (m, s.clock) := by
  have hcut : s.cmx.cuts.contains (m, t) = false := by simpa using hc
  unfold State.granting
  rw [if_pos (by rw [hb, hn, hcut]; rfl)]
  exact mget_mset_same (α := Option (Nat × Nat)) (fun _ => none) s.cmx.locks t (some (m, s.clock))

theorem exec_cmxArbPhase_wins {t m : Nat} {a : Csa} (h : s.cmx.acs.any (fun a => a.tgt == t && a.working) = false)
    (hw : s.cmxWinner t = some m) (hf : s.cmx.acs.find? (fun a => a.m == m && a.tgt == t && a.asks) = some a) :
    ∃ v : State, exec (.cmxArbPhase t) s = .next v
      ∧ v.cmx.acs = s.cmx.acs.map (fun b => if b.ser = a.ser ∧ b.rsp.isNone = true then { b with gr := some s.clock } else b)
      ∧ v.cmxRot t = (s.cmxRot t).filter (fun k => k != m) ++ [m] ∧ v.csr = s.csr
      ∧ (s.lockBit m a.req = true → s.lockOf t = none → (m, t) ∉ s.cmx.cuts → v.lockOf t = some (m, s.clock)) := by
  obtain ⟨hacs, hrots, hcsr⟩ := (s.phaseWon t m a).granting_kept m t a.req
  refine ⟨_, congrArg Host.Outcome.next (State.cmxPhase_wins h hw hf), hacs, ?_, hcsr,
    fun hb hn hc => State.granting_locks (s := s.phaseWon t m a) hb hn hc⟩
  rw [State.cmxRot, hrots]
  exact mget_mset_same (α := List Nat) _ s.cmx.rots t _

/-! ### Accesses that are performed (R453, R456) -/

section
variable {x : Nat} {a : Csa} (hf : s.cmx.acs.find? (fun a => a.ser == x && a.gr.isSome && a.rsp.isNone) = some a)
include hf

theorem State.cmxDone_error {c : Nat} (he : s.entry? a.m a.req = .error c) : s.cmxDone x =
    (s.updCmx (fun d => { d with acs := d.acs.map (fun b =>
      if b.ser = x ∧ b.rsp.isNone = true then { b with rsp := some (0, c, false) } else b) })).flushCmx := by
  simp only [State.cmxDone, hf, he]

theorem State.cmxDone_late {u : Un} (hl : a.late = true) (he : s.entry? a.m a.req = .ok u) : s.cmxDone x =
    ((s.perform a.m u a.req).1.updCmx (fun c => { c with acs := c.acs.filter (fun b => !(b.ser == x && b.late)) })) := by
  simp only [State.cmxDone, hf, he, hl, if_true]

theorem State.cmxDone_served {u : Un} (hl : a.late = false) (he : s.entry? a.m a.req = .ok u) : s.cmxDone x =
    (((s.served a.m u a.req).1.updCmx (fun c => { c with acs := c.acs.map (fun b => if b.ser = x ∧ b.rsp.isNone = true then
      { b with rsp := some ((s.served a.m u a.req).2.1, (s.served a.m u a.req).2.2, s.cmx.brk.contains a.tgt) } else b) })).brokenNow
        a.tgt).flushCmx := by
  simp only [State.cmxDone, hf, he, hl, Bool.false_eq_true, if_false]

end

/-! ### Time limits (R453, R467) -/

theorem exec_cmxTimeout_late {x : Nat} {a : Csa} (hf : s.cmx.acs.find? (fun a => a.ser == x && a.working) = some a) :
    ∃ v : State, exec (.cmxTimeout x) s = .next v ∧ ({ a with late := true, mute := true } : Csa) ∈ v.cmx.acs := by
  have hwork : a.working = true := by
    have h := List.find?_some hf
    rw [Bool.and_eq_true] at h
    exact h.2
  have hrsp : a.rsp.isNone = true := by
    simp only [Csa.working, Bool.and_eq_true] at hwork
    exact hwork.1.2
  refine ⟨_, congrArg Host.Outcome.next (show s.cmxTimeout x = _ by rw [State.cmxTimeout, hf]), ?_⟩
  refine (State.flushCmx_awaits _).acs _ (List.mem_filter.mpr ⟨?_, hrsp⟩)
  rw [State.acs_brokenNow]
  exact List.mem_append_right _ List.mem_cons_self

theorem exec_lockMaxExpire_waits {t m x : Nat} (h : s.lockOf t = some (m, x))
    (hw : s.cmx.acs.any (fun a => a.m == m && a.tgt == t && a.working) = true) :
    ∃ v : State, exec (.lockMaxExpire t) s = .next v ∧ v.lockOf t = s.lockOf t ∧ (t, 1) ∈ v.cmx.owed ∧ v.cmx.acs = s.cmx.acs
      ∧ v.csr = s.csr := by
  have hb : s.breakWhenDone t 1 = { s with cmx := { s.cmx with owed := s.cmx.owed.filter (fun e => e.1 != t) ++ [(t, 1)] } } := by
    rw [State.breakWhenDone, h]
    exact if_pos hw
  refine ⟨_, congrArg Host.Outcome.next hb, rfl, ?_, rfl, rfl⟩
  exact List.mem_append_right _ List.mem_cons_self

theorem exec_lockMaxExpire_breaks {t m x : Nat} (h : s.lockOf t = some (m, x))
    (hw : s.cmx.acs.any (fun a => a.m == m && a.tgt == t && a.working) = false) :
    ∃ v : State, exec (.lockMaxExpire t) s = .next v ∧ v.lockOf t = none ∧ (m, t) ∈ v.cmx.cuts ∧ t ∈ v.cmx.brk :=
  ⟨_, congrArg Host.Outcome.next (show s.breakWhenDone t 1 = s.breakLock t 1 by
    rw [State.breakWhenDone, h]; exact if_neg (ne_true_of_eq_false hw)), (State.breakLock_spec h 1).2.1, State.breakLock_cut h⟩

/-! ### Accesses of a master (R446, R455) -/

theorem State.direct_refused {m : Nat} (h : s.mayPresent m = false) (q : CsrReq) : s.direct m q = s := if_pos h

theorem State.cmxIn_ok {m : Nat} {q : CsrReq} {u : Un} (he : s.entry? m q = .ok u) (mg : Option (Nat × Nat × Hdr)) :
    s.cmxIn m mg q none = s.updCmx (fun c => { c with
      next := c.next + 1
      acs := c.acs ++ [{ ser := c.next, m := m, mg := mg, req := q, tgt := u.target, rsp := none }] }) := by
  simp only [State.cmxIn, he]

theorem State.cmxIn_error {m : Nat} {q : CsrReq} {c : Nat} (he : s.entry? m q = .error c) (mg : Option (Nat × Nat × Hdr)) :
    s.cmxIn m mg q none = s.updCmx (fun d => { d with
      next := d.next + 1
      acs := d.acs ++ [{ ser := d.next, m := m, mg := mg, req := q, tgt := 0, rsp := some (0, c, false) }] }) := by
  simp only [State.cmxIn, he]

theorem cmxWinner_none {t : Nat} (h : ∀ b ∈ s.cmx.acs, b.tgt = t → s.mayUse b.m t = false) : s.cmxWinner t = none := by
  have hnone : (s.cmxRot t).filter (fun m => s.mayUse m t && s.cmx.acs.any (fun a => a.m == m && a.tgt == t && a.asks)) = [] := by
    refine List.filter_eq_nil_iff.mpr fun m _ => ?_
    rw [Bool.and_eq_true, List.any_eq_true]
    rintro ⟨hm, b, hb, hbb⟩
    simp only [Bool.and_eq_true, beq_iff_eq] at hbb
    obtain ⟨⟨hbm, hbt⟩, -⟩ := hbb
    rw [← hbm, h b hb hbt] at hm
    exact Bool.false_ne_true hm
  simp only [State.cmxWinner, hnone, List.foldl_nil, List.find?_nil]

/-- An access that cannot have its target yet joins the accesses in the Control Matrix. -/
theorem State.direct_waits {m : Nat} {q : CsrReq} {u : Un} (hp : s.mayPresent m = true) (he : s.entry? m q = .ok u)
    (hser : ∀ b ∈ s.cmx.acs, b.ser ≠ s.cmx.next)
    (h : s.cmx.acs.any (fun a => a.tgt == u.target && a.working) = true
      ∨ s.mayUse m u.target = false ∧ ∀ b ∈ s.cmx.acs, b.tgt ≠ u.target) :
    s.direct m q = s.updCmx (fun c => { c with
      next := c.next + 1
      acs := c.acs ++ [{ ser := s.cmx.next, m := m, mg := none, req := q, tgt := u.target, rsp := none }] }) := by
  set i := s.updCmx (fun c => { c with
      next := c.next + 1
      acs := c.acs ++ [{ ser := s.cmx.next, m := m, mg := none, req := q, tgt := u.target, rsp := none }] }) with hi
  have hin : s.cmxIn m none q none = i := State.cmxIn_ok he none
  have hacs : i.cmx.acs = s.cmx.acs ++ [{ ser := s.cmx.next, m := m, mg := none, req := q, tgt := u.target, rsp := none }] := rfl
  have hfind : i.cmx.acs.find? (fun a => a.ser == s.cmx.next && a.rsp.isNone) =
      some { ser := s.cmx.next, m := m, mg := none, req := q, tgt := u.target, rsp := none } := by
    rw [hacs, List.find?_append, List.find?_eq_none.mpr fun b hb => by simp [hser b hb]]
    simp
  have hphase : i.cmxPhase u.target = i := by
    refine State.cmxPhase_idle ?_
    rcases h with h | ⟨hm, hb⟩
    · exact .inl (by rw [hacs, List.any_append, h, Bool.true_or])
    · refine .inr (cmxWinner_none fun b hbm hbt => ?_)
      rcases List.mem_append.mp (hacs ▸ hbm) with hb' | hb'
      · exact absurd hbt (hb b hb')
      · rw [List.mem_singleton.mp hb']
        exact hm
  have hidle : i.cmx.acs.any (fun b => b.ser == s.cmx.next && b.working) = false := by
    rw [hacs, List.any_append, List.any_eq_false.mpr fun b hb => by simp [hser b hb]]
    simp [Csa.working]
  unfold State.direct
  rw [if_neg (by rw [hp]; decide)]
  simp only [hin, hfind, hphase, hidle, Bool.false_eq_true, if_false]

/-! ### The host port (R447, R448) -/

theorem State.hcTake_ready (h : s.hcReady = true) (q : CsrReq) :
    s.hcTake q = (s.cmxIn 0 none { q with data := q.data >>> (8 * (q.addr % 8)) } none).flushCmx := if_pos h

theorem toLanes_zero (addr : Nat) : toLanes addr 0 = 0 := by
  unfold toLanes
  exact BitVec.zero_shiftLeft _

/-! ### MGMT packets (R449, R450) -/

/-- A MGMT packet of NI `n` for a plane that is not under test, once it has left its inbox. -/
def State.mgmtTaken (v : State) (n : Nat) (p : Pk) : State :=
  if 16 ≤ (v.ni n).mgmtIn.length + (v.cmx.acs.filter (fun c => match c.mg with
      | some (i, _, _) => i == n && !c.late
      | none => false)).length then (v.noteErr 4 (mgmtReq p) 10).mgmtAnswer n 0 p.hdr 0 10 false
  else if (mgmtReq p).wr = true ∧ v.mgmtAuth p.hdr.src = false then (v.noteErr 4 (mgmtReq p) 6).mgmtAnswer n 0 p.hdr 0 6 false
  else if niB n ≤ p.hdr.addr ∧ p.hdr.addr < niB n + 0x4000 then (v.cmxIn 4 (some (n, 0, p.hdr)) (mgmtReq p) none).flushCmx
  else (v.updNi n (fun x => { x with mgmtIn := x.mgmtIn ++ [(mgmtReq p, 0, p.hdr)] })).mgmtPump.flushCmx

theorem exec_mgmtReceive_of {n k : Nat} {p : Pk} (hn : s.hasNi n = true)
    (hp : s.mgmtPk n (fun op => decide (op ≤ 1)) = some (k, p)) (hpl : (s.unbox n k).plnState p.plane ≠ 3) :
    exec (.mgmtReceive n) s = .next ((s.unbox n k).mgmtTaken n p) := by
  refine (guardUnit_of hn _ _).trans (congrArg Host.Outcome.next ?_)
  simp only [State.mgmtTake, hp, if_neg hpl]
  rfl

theorem exec_mgmtResponse_of {n k : Nat} {p : Pk} (hn : s.hasNi n = true) (hp : s.mgmtPk n (fun op => op == 2) = some (k, p)) :
    exec (.mgmtResponse n) s = .next (
      if ((s.unbox n k).ni n).probes.findIdx (fun r => r.1 == p.plane && r.2.1 == p.hdr.tag && r.2.2 == 0)
          < ((s.unbox n k).ni n).probes.length then
        (s.unbox n k).setNi n { (s.unbox n k).ni n with
          probes := listSet ((s.unbox n k).ni n).probes
            (((s.unbox n k).ni n).probes.findIdx (fun r => r.1 == p.plane && r.2.1 == p.hdr.tag && r.2.2 == 0))
            (fun r => (r.1, r.2.1, if (p.got.getD 8 0).toNat = 0 then 1 else 2)) }
      else (s.unbox n k).pktBad n) := by
  refine (guardUnit_of hn _ _).trans (congrArg Host.Outcome.next ?_)
  simp only [State.mgmtEnd, hp]

theorem mgmtReq_write {p : Pk} : (mgmtReq p).wr = true ↔ p.hdr.op = 1 := beq_iff_eq

/-- With nothing queued and nothing in the Control Matrix there is room for a packet (R450). -/
theorem State.mgmtTaken_of_idle {v : State} {n : Nat} {p : Pk} (hin : (v.ni n).mgmtIn = []) (hacs : v.cmx.acs = []) :
    v.mgmtTaken n p = if (mgmtReq p).wr = true ∧ v.mgmtAuth p.hdr.src = false then (v.noteErr 4 (mgmtReq p) 6).mgmtAnswer n 0 p.hdr 0 6 false
      else if niB n ≤ p.hdr.addr ∧ p.hdr.addr < niB n + 0x4000 then (v.cmxIn 4 (some (n, 0, p.hdr)) (mgmtReq p) none).flushCmx
      else (v.updNi n (fun x => { x with mgmtIn := x.mgmtIn ++ [(mgmtReq p, 0, p.hdr)] })).mgmtPump.flushCmx := by
  unfold State.mgmtTaken
  rw [hin, hacs]
  exact if_neg (Nat.not_succ_le_zero 15)

/-! ### The debug port (R618 to R621) -/

theorem exec_dbgAcc_shows {w : BitVec 96} {last : CsrRsp} (hd : s.dbgDis = false) (hb : bitAt w.toNat 28 = false ∨ s.dbgBusy = true)
    (hl : s.cmx.dbgOut.getLast? = some last) : exec (.dbgAcc w) s = .next { s with tap := { s.tap with ir := 3, out := s.tap.out ++
      [last.code + 16 * b2n last.lb + 32 * b2n s.dbgBusy + 2 ^ 32 * last.data.toNat] } } := by
  refine congrArg Host.Outcome.next (?_ : s.dbgAcc w = _)
  unfold State.dbgAcc
  rw [if_neg (ne_true_of_eq_false hd)]
  simp only [hl, Option.getD_some, if_pos hb]
  rfl

/-- The access that DBG_ACC asks for. -/
def dbgReq (w : BitVec 96) : CsrReq :=
  { addr := bitsAt w.toNat 0 24, size := bitsAt w.toNat 24 2, wr := bitAt w.toNat 26, lock := bitAt w.toNat 27,
    data := BitVec.ofNat 64 (w.toNat / 2 ^ 32) }

/-- What the debug port has captured before it issues an access. -/
def State.dbgCaptured (s : State) : State :=
  s.tapOut 3 (((s.cmx.dbgOut.getLast?).getD { id := 0, data := 0, code := 0, lb := false }).code
    + 16 * b2n ((s.cmx.dbgOut.getLast?).getD { id := 0, data := 0, code := 0, lb := false }).lb + 32 * b2n s.dbgBusy
    + 2 ^ 32 * ((s.cmx.dbgOut.getLast?).getD { id := 0, data := 0, code := 0, lb := false }).data.toNat)

/-- The debug port shows once that it has been used (R620). -/
def State.dbgNoted (s : State) : State :=
  if s.flag dbgB F.DBG_STAT_TAP_ACC then s else (s.wr dbgB F.DBG_STAT_TAP_ACC 1).glEvent 12 0

theorem State.dbgAcc_go {w : BitVec 96} (hd : s.dbgDis = false) (hg : bitAt w.toNat 28 = true) (hb : s.dbgBusy = false) :
    s.dbgAcc w = (s.dbgCaptured.dbgNoted.cmxIn 2 none (dbgReq w)
      (if [2, 3, 4].contains (s.dbgCaptured.dbgNoted.rgState s.dbgCaptured.dbgNoted.rom.homeRegion) then some 7 else none)).flushCmx := by
  have hgo : ¬ (bitAt w.toNat 28 = false ∨ s.dbgBusy = true) := by simp [hg, hb]
  unfold State.dbgAcc
  rw [if_neg (ne_true_of_eq_false hd)]
  dsimp only
  rw [if_neg hgo]
  rfl

theorem State.dbgNoted_of_shown (h : s.flag dbgB F.DBG_STAT_TAP_ACC = true) : s.dbgNoted = s := if_pos h

theorem State.flag_dbgNoted (s : State) : s.dbgNoted.flag dbgB F.DBG_STAT_TAP_ACC = true := by
  unfold State.dbgNoted
  split
  · next h => exact h
  · have hk := ((s.wr dbgB F.DBG_STAT_TAP_ACC 1).keepsAt_glEvent (g := 12) (by decide) 0).rd (b := dbgB) (f := F.DBG_STAT_TAP_ACC) (by decide)
    have hw : (s.wr dbgB F.DBG_STAT_TAP_ACC 1).rd dbgB F.DBG_STAT_TAP_ACC = 1 := State.rd_wr_same _ _ _ _ (by decide)
    rw [State.flag, hk, hw]
    rfl

theorem exec_dbgAcc_first {w : BitVec 96} (hd : s.dbgDis = false) (hg : bitAt w.toNat 28 = true) (hb : s.dbgBusy = false) :
    ∃ t, exec (.dbgAcc w) s = .next t ∧ t.flag dbgB F.DBG_STAT_TAP_ACC = true := by
  refine ⟨_, congrArg Host.Outcome.next (State.dbgAcc_go hd hg hb), ?_⟩
  have hword := (State.flushCmx_awaits (s.dbgCaptured.dbgNoted.cmxIn 2 none (dbgReq w)
    (if [2, 3, 4].contains (s.dbgCaptured.dbgNoted.rgState s.dbgCaptured.dbgNoted.rom.homeRegion) then some 7 else none))).dbg
  have hflag := s.dbgCaptured.flag_dbgNoted
  rw [State.flag, State.rd] at hflag ⊢
  have e : (dbgB + F.DBG_STAT_TAP_ACC.off) = dbgB := rfl
  rw [e] at hflag ⊢
  rw [hword]
  exact hflag

/-- Settles O48: each clause is the case of its operation in the Control Matrix. -/
theorem controlMatrixAndItsMasters : Obligations.ControlMatrixAndItsMasters := by
  unfold Obligations.ControlMatrixAndItsMasters
  refine ⟨fun s t m x a => ⟨fun h => ?_, fun h hw hf => exec_cmxArbPhase_wins h hw hf, fun h => ?_, fun c hf he => ?_,
      fun u r v hf hl he hr hv => ⟨?_, fun ho => ?_⟩, fun u hf hl he => ?_, fun h => ?_, exec_cmxTimeout_late, rfl, fun h => ?_,
      exec_lockMaxExpire_waits, fun h hl => exec_lockMaxExpire_breaks hl h, fun q u hp he hser h => ?_, fun q h => ?_⟩,
    fun s q u => ⟨fun h => ?_, fun h he hacs hin => ?_, fun h => ?_, fun c h he hacs hin => ?_, fun hacs hin => ?_, fun b hb => ⟨?_, ?_, ?_⟩, rfl⟩,
    fun s v n k p => ⟨fun hn => ⟨guardUnit_off hn _ _, guardUnit_off hn _ _⟩, fun hn => ⟨fun h => ?_, fun h => ?_⟩,
      fun hn hp hv hpl hl => ?_, fun hn hp hv hr => ?_, fun hn hp hv hpl hin hacs => ⟨fun h1 ha => ?_, fun ha hlo hhi => ?_, fun ha hout => ?_⟩,
      fun i hn hp hv hi hlt => ?_, fun w => ⟨fun hd => ?_, fun hd hb last hl => exec_dbgAcc_shows hd (.inl hb) hl, fun q hd hg hb hf h0 hq => ?_,
        fun q hd hg hb hf h2 h4 hq => ?_, fun hd hg hb last hl => ?_, fun hd hg hb hf => exec_dbgAcc_first hd hg hb⟩⟩⟩
  · exact congrArg Host.Outcome.next (State.cmxPhase_idle h)
  · refine congrArg Host.Outcome.next (show s.cmxDone x = s from ?_)
    rw [State.cmxDone, h]
  · exact congrArg Host.Outcome.next (State.cmxDone_error hf he)
  · subst hr hv
    exact congrArg Host.Outcome.next (State.cmxDone_served hf hl he)
  · rw [← State.brokenNow_of_none_owed ho]
    subst hr hv
    exact congrArg Host.Outcome.next (State.cmxDone_served hf hl he)
  · exact congrArg Host.Outcome.next (State.cmxDone_late hf hl he)
  · refine congrArg Host.Outcome.next (show s.cmxTimeout x = s from ?_)
    rw [State.cmxTimeout, h]
  · refine congrArg Host.Outcome.next (show s.breakWhenDone t 1 = s from ?_)
    rw [State.breakWhenDone, h]
  · exact ⟨_, congrArg Host.Outcome.next (State.direct_waits hp he hser h), rfl⟩
  · exact congrArg Host.Outcome.next (State.direct_refused h _)
  · exact congrArg Host.Outcome.next (if_neg (ne_true_of_eq_false h))
  · refine congrArg Host.Outcome.next ((State.hcTake_ready h q).trans ?_)
    have he' : s.entry? 0 { q with data := q.data >>> (8 * (q.addr % 8)) } = .ok u := he
    rw [State.cmxIn_ok he']
    refine State.flushCmx_of_waiting (fun b hb => ?_) hin
    rcases List.mem_append.mp hb with hb | hb
    · exact hacs b hb
    · rw [List.mem_singleton.mp hb]
  · exact congrArg Host.Outcome.next (State.hcTake_ready h q)
  · refine ⟨_, congrArg Host.Outcome.next (State.hcTake_ready h q), ?_⟩
    set r : CsrReq := { q with data := q.data >>> (8 * (q.addr % 8)) }
    have he' : s.entry? 0 r = .error c := he
    have hone : (s.cmxIn 0 none r none).cmx.acs = [{ ser := s.cmx.next, m := 0, mg := none, req := r, tgt := 0, rsp := some (0, c, false) }] := by
      rw [State.cmxIn_error he']
      change s.cmx.acs ++ _ = _
      rw [hacs, List.nil_append]
    have hout : (s.cmxIn 0 none r none).cmx.hcOut = s.cmx.hcOut := by
      rw [State.cmxIn_error he']
      rfl
    have hidle : ∀ n, ((s.cmxIn 0 none r none).ni n).mgmtIn = [] := by
      rw [State.cmxIn_error he']
      exact hin
    rw [State.flushCmx_host hone rfl rfl rfl rfl hidle, toLanes_zero, hout]
    exact ⟨rfl, rfl⟩
  · obtain ⟨ha, hm⟩ := s.ownerReset_kept 0
    rw [hacs, List.map_nil] at ha
    have hlock (k : Nat) (o : Nat × Nat) (h : (s.ownerReset 0).lockOf k = some o) : o.1 ≠ 0 := fun ho => by
      obtain ⟨-, -, b, hb, -⟩ := State.lockOf_ownerReset h ho
      rw [hacs] at hb
      exact List.not_mem_nil hb
    have hout := s.hcOut_ownerReset 0
    refine ⟨(s.ownerReset 0).updCmx (fun c => { c with hcLow := true }), congrArg Host.Outcome.next ?_, rfl, hout, hlock⟩
    generalize s.ownerReset 0 = b at ha hm ⊢
    refine State.flushCmx_of_waiting (fun a h => ?_) fun n => (hm n).trans (hin n)
    rw [show (b.updCmx (fun c => { c with hcLow := true })).cmx.acs = b.cmx.acs from rfl, ha] at h
    exact absurd h List.not_mem_nil
  · subst hb
    rfl
  · subst hb
    rw [(s.ownerReset_kept 0).1]
    rintro a ha h0
    obtain ⟨b, -, rfl⟩ := List.mem_map.mp ha
    by_cases hb : b.m = 0
    · rw [if_pos hb]
    · rw [if_neg hb] at h0
      exact absurd h0 hb
  · subst hb
    exact fun k o h h0 => State.lockOf_ownerReset h h0
  · refine (guardUnit_of hn _ _).trans (congrArg Host.Outcome.next ?_)
    rw [State.mgmtTake, h]
  · refine (guardUnit_of hn _ _).trans (congrArg Host.Outcome.next ?_)
    rw [State.mgmtEnd, h]
  · subst hv
    exact (exec_mgmtReceive_of hn hp hpl).trans (congrArg Host.Outcome.next (if_pos (Nat.le_add_right_of_le hl)))
  · subst hv
    rw [exec_mgmtResponse_of hn hp]
    refine congrArg Host.Outcome.next (if_neg ?_)
    rw [List.findIdx_eq_length_of_false]
    · exact Nat.lt_irrefl _
    intro r hr'
    simpa [Decidable.imp_iff_not_or, or_assoc] using hr r hr'
  · subst hv
    rw [exec_mgmtReceive_of hn hp hpl, State.mgmtTaken_of_idle hin hacs]
    exact congrArg Host.Outcome.next (if_pos ⟨mgmtReq_write.mpr h1, ha⟩)
  · subst hv
    have hmay : ¬ ((mgmtReq p).wr = true ∧ (s.unbox n k).mgmtAuth p.hdr.src = false) := fun h => by
      rw [ha (mgmtReq_write.mp h.1)] at h
      exact Bool.false_ne_true h.2.symm
    rw [exec_mgmtReceive_of hn hp hpl, State.mgmtTaken_of_idle hin hacs, if_neg hmay]
    exact congrArg Host.Outcome.next (if_pos ⟨hlo, hhi⟩)
  · subst hv
    have hmay : ¬ ((mgmtReq p).wr = true ∧ (s.unbox n k).mgmtAuth p.hdr.src = false) := fun h => by
      rw [ha (mgmtReq_write.mp h.1)] at h
      exact Bool.false_ne_true h.2.symm
    rw [exec_mgmtReceive_of hn hp hpl, State.mgmtTaken_of_idle hin hacs, if_neg hmay]
    exact congrArg Host.Outcome.next (if_neg (by omega))
  · subst hv hi
    rw [exec_mgmtResponse_of hn hp, if_pos hlt]
  · exact congrArg Host.Outcome.next (if_pos hd)
  · refine ⟨s.dbgCaptured, rfl, congrArg Host.Outcome.next ((State.dbgAcc_go hd hg hb).trans ?_)⟩
    have hst : s.dbgCaptured.rgState s.dbgCaptured.rom.homeRegion = 0 := h0
    rw [State.dbgNoted_of_shown (s := s.dbgCaptured) hf, hst, hq]
    rfl
  · refine ⟨s.dbgCaptured, rfl, congrArg Host.Outcome.next ((State.dbgAcc_go hd hg hb).trans ?_)⟩
    have hst : [2, 3, 4].contains (s.dbgCaptured.rgState s.dbgCaptured.rom.homeRegion) = true := by
      rw [show s.dbgCaptured.rgState s.dbgCaptured.rom.homeRegion = s.rgState s.rom.homeRegion from rfl]
      generalize s.rgState s.rom.homeRegion = r at h2 h4
      interval_cases r <;> rfl
    rw [State.dbgNoted_of_shown (s := s.dbgCaptured) hf, hst, hq]
    rfl
  · rw [exec_dbgAcc_shows hd (.inr hb) hl, hb]
    rfl

end Sys2Proof.Machine
end

section
/-! SUPPORT. What a register write leaves of the Control Matrix while it is performed (R455, R463): its own access stays the only one,
unanswered, with no lock at its target and no packet that waits for a place. Each operation that a write can bring about has one rule. -/

namespace Sys2Proof.Machine

/-- Region `g` is held in reset, its causes are recorded, and its units are reset (R543, R545, R558). -/
def State.rgHeld (s : State) (g : Nat) : State :=
  (((((s.updRg g (fun r => { r with
    prev := 0, goal := none, ready := false, comb := false, gated := false, wake := 4, held := true })).rgGo g 6).setBit glbB
      F.GLB_RST_STAT_REGION g).setBit glbB F.GLB_RECOV_RECOV g).wr glbB (F.GLB_RG_CAUSE_CAUSE.ix g) 0).resetUnits g

/-- A region's reset by command, once its step and its entry are over. -/
theorem State.rgReset_command (s : State) (g : Nat) : s.rgReset g 0 =
    ((((((s.stepCut g 0x33).abortEntry g 0x37).rgHeld g).cmx.locks.map (fun e => e.1)).foldl
      (fun a t => if tgtRegion a.rom t = some g then a.breakLock t 2 else a)
      ((((s.stepCut g 0x33).abortEntry g 0x37).rgHeld g).cutAccesses g))).refreshTime := by
  have h : (0 : Nat) = 1 ∨ (0 : Nat) = 2 ↔ False := by decide
  simp only [State.rgReset, if_neg (by decide : ¬ (0 : Nat) = 1), h, if_false, State.rgHeld]

theorem NiSt.mgmtIn_admitSys (x : NiSt) (l : List Qp) : (x.admitSys l).mgmtIn = x.mgmtIn :=
  have e := congrArg NiSt.mgmtIn (NiSt.Told.admitSys l x)
  e

/-- Access `ax` to target `tk` is alone in the Control Matrix of `t`, and has no response: no other waits, and no lock stands there. -/
structure State.Lone (ax tk : Nat) (t : State) : Prop where
  one : ∃ a, t.cmx.acs = [a] ∧ a.ser = ax ∧ a.rsp = none ∧ a.mg = none ∧ a.tgt = tk
  owed : t.cmx.owed = []
  lock : t.lockOf tk = none
  idle : ∀ n, (t.ni n).mgmtIn = []

namespace State.Lone

variable {ax tk : Nat} {t : State}

theorem ite {c : Prop} [Decidable c] {a b : State} (ha : State.Lone ax tk a) (hb : State.Lone ax tk b) :
    State.Lone ax tk (if c then a else b) := by
  split
  · exact ha
  · exact hb

theorem foldl {α : Type} {f : State → α → State} {l : List α} (hf : ∀ a x, State.Lone ax tk a → State.Lone ax tk (f a x))
    (h : State.Lone ax tk t) : State.Lone ax tk (l.foldl f t) := by
  induction l generalizing t with
  | nil => exact h
  | cons x r ih => exact ih (hf t x h)

/-- A fold that carries a value beside the state. -/
theorem foldlFst {α β : Type} {f : State × α → β → State × α} {l : List β} {a : α}
    (hf : ∀ p x, State.Lone ax tk p.1 → State.Lone ax tk (f p x).1) (h : State.Lone ax tk t) : State.Lone ax tk (l.foldl f (t, a)).1 := by
  suffices ∀ p : State × α, State.Lone ax tk p.1 → State.Lone ax tk (l.foldl f p).1 from this _ h
  induction l with
  | nil => exact fun _ hp => hp
  | cons x r ih => exact fun p hp => ih _ (hf p x hp)

theorem forAll {n : Nat} {f : Nat → State → State} (hf : ∀ i a, State.Lone ax tk a → State.Lone ax tk (f i a)) (h : State.Lone ax tk t) :
    State.Lone ax tk (Machine.forAll n f t) :=
  h.foldl fun a i ha => hf i a ha

/-- A change of anything but the Control Matrix and the NIs. -/
theorem upd
    {pending rom straps clock free csr ports planeFaults time pfs evd evKey trc trcRun cmdNext cmdQ cmds asks leaveQ leaves gives claimAt
    heats relay joints clients heatCrc slcs migSync captured intKept plst planeHit floorStep floorRun rgs pacer start
    starter sps links tap scan}
    (h : State.Lone ax tk t) :
    State.Lone ax tk { t with
      pending, rom, straps, clock, free, csr, ports, planeFaults, time, pfs, evd, evKey, trc, trcRun, cmdNext, cmdQ, cmds, asks, leaveQ,
      leaves, gives, claimAt, heats, relay, joints, clients, heatCrc, slcs, migSync, captured, intKept, plst,
      planeHit, floorStep, floorRun, rgs, pacer, start, starter, sps, links, tap, scan } := by
  obtain ⟨h1, h2, h3, h4⟩ := h
  exact ⟨h1, h2, h3, h4⟩

theorem setWord {off w} (h : State.Lone ax tk t) : State.Lone ax tk (t.setWord off w) :=
  h.upd

theorem wr {base f v} (h : State.Lone ax tk t) : State.Lone ax tk (t.wr base f v) :=
  h.setWord

theorem pfGo {k v} (h : State.Lone ax tk t) : State.Lone ax tk (t.pfGo k v) :=
  h.wr

theorem setPf {k v} (h : State.Lone ax tk t) : State.Lone ax tk (t.setPf k v) :=
  h.upd

theorem give {kind who} (h : State.Lone ax tk t) : State.Lone ax tk (t.give kind who) :=
  .ite h.upd.upd h.upd

theorem setPin {k owner ni} (h : State.Lone ax tk t) : State.Lone ax tk (t.setPin k owner ni) :=
  h.wr.wr.wr.wr

theorem freePin {k owner} (h : State.Lone ax tk t) : State.Lone ax tk (t.freePin k owner) :=
  .ite h.setPin h

theorem setNi {n x} (h : State.Lone ax tk t) (hx : x.mgmtIn = [] := by rfl) : State.Lone ax tk (t.setNi n x) := by
  obtain ⟨h1, h2, h3, hn⟩ := h
  refine ⟨h1, h2, h3, fun j => ?_⟩
  by_cases hj : j = n
  · rw [hj, State.ni_setNi_same, hx]
  · rw [State.ni_setNi_ne _ _ hj, hn]

theorem updNi {n f} (h : State.Lone ax tk t) (hf : ∀ x : NiSt, (f x).mgmtIn = x.mgmtIn := by exact fun _ => rfl) :
    State.Lone ax tk (t.updNi n f) :=
  h.setNi ((hf _).trans (h.idle n))

theorem pushSys {n p} (h : State.Lone ax tk t) : State.Lone ax tk (t.pushSys n p) :=
  h.updNi fun x => have e := congrArg NiSt.mgmtIn (NiSt.Told.pushSys x p); e

theorem pushVn3 {n ptype op dest slice tag gen addr payload} (h : State.Lone ax tk t) : State.Lone ax tk
    (t.pushVn3 n ptype op dest slice tag gen addr payload) :=
  h.pushSys

theorem count {base f k} (h : State.Lone ax tk t) : State.Lone ax tk (t.count base f k) :=
  h.wr

theorem pushEvent {n dest sc op slice payload} (h : State.Lone ax tk t) : State.Lone ax tk (t.pushEvent n dest sc op slice payload) :=
  h.pushSys

theorem sendMsg {x f v cause} (h : State.Lone ax tk t) : State.Lone ax tk (t.sendMsg x f v cause).1 := by
  dsimp only [State.sendMsg]
  split
  · exact h
  · split
    · exact h
    · split
      · exact h.count
      · exact h.pushEvent

theorem sendMsgs {x cause} (h : State.Lone ax tk t) : State.Lone ax tk (t.sendMsgs x cause).1 :=
  h.sendMsg.sendMsg

theorem setWord64 {off v} (h : State.Lone ax tk t) : State.Lone ax tk (t.setWord64 off v) :=
  h.setWord.setWord

theorem logErr {src cause sev data} (h : State.Lone ax tk t) : State.Lone ax tk (t.logErr src cause sev data) :=
  h.setWord.setWord.setWord64.count

theorem setBit {base f i} (h : State.Lone ax tk t) : State.Lone ax tk (t.setBit base f i) :=
  h.wr

theorem occur {x i} (h : State.Lone ax tk t) : State.Lone ax tk (t.occur x i).1 := by
  dsimp only [State.occur]
  split
  · split
    · exact h.setBit.logErr.sendMsgs
    · exact h.setBit.logErr
  · split
    · exact h.setBit.sendMsgs
    · exact h.setBit

theorem msgLost {ovf bad} (h : State.Lone ax tk t) : State.Lone ax tk (t.msgLost ovf bad) :=
  .ite ((ite h.occur h).occur) (.ite h.occur h)

theorem raise {x i} (h : State.Lone ax tk t) : State.Lone ax tk (t.raise x i) :=
  h.occur.msgLost

theorem glEvent {g i} (h : State.Lone ax tk t) : State.Lone ax tk (t.glEvent g i) :=
  h.raise

theorem putBytes {off l} (h : State.Lone ax tk t) : State.Lone ax tk (t.putBytes off l) :=
  h.forAll (fun _ _ h => h.setWord)

theorem sendReply {c status data} (h : State.Lone ax tk t) : State.Lone ax tk (t.sendReply c status data) :=
  .ite ((ite h.count h.count.wr).pushVn3) ((ite h.count h.count.wr).putBytes.wr.wr.glEvent)

theorem reply {x status data} (h : State.Lone ax tk t) : State.Lone ax tk (t.reply x status data) := by
  dsimp only [State.reply]
  split
  · exact h
  · exact .ite h.upd h.upd.sendReply

theorem updPacer {f} (h : State.Lone ax tk t) : State.Lone ax tk (t.updPacer f) :=
  h.upd

theorem orderSync (h : State.Lone ax tk t) : State.Lone ax tk t.orderSync :=
  (ite h ((ite (h.upd.forAll (fun _ _ h => h.updNi)) h.upd).glEvent)).forAll (fun _ _ h => h.wr)

theorem testLeave (h : State.Lone ax tk t) : State.Lone ax tk t.testLeave :=
  h.wr.wr.orderSync

theorem notice {n i} (h : State.Lone ax tk t) : State.Lone ax tk (t.notice n i) :=
  h.raise

theorem refreshTime (h : State.Lone ax tk t) : State.Lone ax tk t.refreshTime :=
  (ite h.wr.wr.wr.wr.wr.wr.glEvent h.wr.wr.wr.wr.wr.wr).forAll (fun _ _ h => .ite h.wr (.ite h.wr.wr
    h.wr.wr.wr.wr.notice))

theorem setPort {o x} (h : State.Lone ax tk t) : State.Lone ax tk (t.setPort o x) :=
  h.upd

theorem updPort {o f} (h : State.Lone ax tk t) : State.Lone ax tk (t.updPort o f) :=
  h.setPort

theorem trcStop (h : State.Lone ax tk t) : State.Lone ax tk t.trcStop :=
  h.wr.upd.foldl (fun _ _ h => h.freePin)

theorem noteClaim {r} (h : State.Lone ax tk t) : State.Lone ax tk (t.noteClaim r) :=
  h.upd

theorem claimPin {k owner ni} (h : State.Lone ax tk t) : State.Lone ax tk (t.claimPin k owner ni) := by
  dsimp only [State.claimPin]
  refine noteClaim ?_
  refine setPin ?_
  split
  · exact h.wr
  · exact h.wr
  · exact h

theorem trcBegin (h : State.Lone ax tk t) : State.Lone ax tk t.trcBegin :=
  h.upd.glEvent

theorem trcArm (h : State.Lone ax tk t) : State.Lone ax tk t.trcArm := by
  dsimp only [State.trcArm]
  split
  · exact h.wr
  · exact .ite h.claimPin.wr h.wr
  · exact h.wr.trcBegin

theorem breakLock {k cause} (h : State.Lone ax tk t) : State.Lone ax tk (t.breakLock k cause) := by
  have hin := t.mgmtIn_breakLock k cause
  cases hl : t.lockOf k with
  | none => rwa [State.breakLock_of_none hl]
  | some o =>
    obtain ⟨hacs, hgone, hkept, howed⟩ := State.breakLock_spec hl cause
    obtain ⟨h1, h2, h3, hn⟩ := h
    refine ⟨by rwa [hacs], by rw [howed, h2, List.filter_nil], ?_, fun n => (hin n).trans (hn n)⟩
    by_cases hk : tk = k
    · rwa [hk]
    · rwa [hkept tk hk]

theorem reassert {x was} (h : State.Lone ax tk t) : State.Lone ax tk (t.reassert x was) :=
  .ite h.sendMsgs.msgLost h

theorem rgEvent {g i} (h : State.Lone ax tk t) : State.Lone ax tk (t.rgEvent g i) :=
  h.raise

theorem rgGo {g st} (h : State.Lone ax tk t) : State.Lone ax tk (t.rgGo g st) :=
  .ite h ((ite ((ite h.upd h).wr.wr) ((ite h.upd h).wr)).rgEvent)

theorem rouse {mask} (h : State.Lone ax tk t) : State.Lone ax tk (t.rouse mask) :=
  h.foldl (fun _ _ h => .ite h.rgGo h)

theorem holdRuns (h : State.Lone ax tk t) : State.Lone ax tk t.holdRuns :=
  h.wr.rouse

theorem floorsDue (h : State.Lone ax tk t) : State.Lone ax tk t.floorsDue :=
  h.wr

theorem histEn {n v} (h : State.Lone ax tk t) : State.Lone ax tk (t.histEn n v) :=
  .ite (.ite h.wr ((ite h h.noteClaim).wr.updNi)) h.wr.updNi

theorem qShare {n q quantum depth} (h : State.Lone ax tk t) : State.Lone ax tk (t.qShare n q quantum depth) :=
  h.updNi

theorem actQueue {n rel v} (h : State.Lone ax tk t) : State.Lone ax tk (t.actQueue n rel v) := by
  dsimp only [State.actQueue]
  split
  · exact h
  · split
    · exact .ite h.updNi h
    · exact h.updNi
    · exact h.qShare

theorem markEn {n v} (h : State.Lone ax tk t) : State.Lone ax tk (t.markEn n v) :=
  .ite (.ite h (.ite h.claimPin.wr h)) ((h.forAll (fun _ _ h => .ite h.freePin h)).wr)

theorem gateCancel {n} (h : State.Lone ax tk t) : State.Lone ax tk (t.gateCancel n) :=
  h.wr.updNi

theorem alert {n i} (h : State.Lone ax tk t) : State.Lone ax tk (t.alert n i) :=
  h.raise

theorem gateSwap {n ts} (h : State.Lone ax tk t) : State.Lone ax tk (t.gateSwap n ts) :=
  .ite h (.ite h.wr.wr.alert h.wr.updNi)

theorem reorder {n v} (h : State.Lone ax tk t) : State.Lone ax tk (t.reorder n v) := by
  dsimp only [State.reorder]
  split
  · exact .ite h.updNi.wr.wr h.wr
  · exact h.updNi.wr

theorem migHold {n v} (h : State.Lone ax tk t) : State.Lone ax tk (t.migHold n v) :=
  .ite (.ite h.wr h) h.updNi.wr

theorem migStage {n v} (h : State.Lone ax tk t) : State.Lone ax tk (t.migStage n v) :=
  .ite (.ite h.updNi.wr.noteClaim h) (.ite h (.ite h.updNi.wr h))

theorem migSwap {n} (h : State.Lone ax tk t) : State.Lone ax tk (t.migSwap n) :=
  h.updNi

theorem actNi {m n rel v old} (h : State.Lone ax tk t) : State.Lone ax tk (t.actNi m n rel v old) := by
  dsimp only [State.actNi]
  split
  · exact .ite h h.wr
  · split
    · exact .ite h h.wr.holdRuns
    · split
      · exact .ite h h.wr
      · split
        · exact h.updNi
        · exact .ite h.wr h
        · exact h.updNi
        · exact .ite h h.floorsDue
        · exact (ite h.wr h).histEn
        · exact h.actQueue
        · exact h.actQueue
        · exact h.actQueue
        · exact (ite ((ite h.gateSwap h).gateCancel) (.ite h.gateSwap h)).markEn
        · exact h.reorder
        · exact .ite h.updNi h
        · exact (ite h.migSwap h).migStage.migHold
        · exact h

theorem bootGo {st} (h : State.Lone ax tk t) : State.Lone ax tk (t.bootGo st) :=
  h.wr

theorem loadGo (h : State.Lone ax tk t) : State.Lone ax tk t.loadGo :=
  .ite h.bootGo h

theorem loadStart (h : State.Lone ax tk t) : State.Lone ax tk t.loadStart :=
  .ite h.upd.wr.wr.bootGo h

theorem evShow (h : State.Lone ax tk t) : State.Lone ax tk t.evShow :=
  h.wr.wr

theorem evSend (h : State.Lone ax tk t) : State.Lone ax tk t.evSend := by
  dsimp only [State.evSend]
  have hin := h.idle (t.rd pfB F.PF_RING_NI_NI)
  split
  · exact h
  · split
    · exact h.upd.updNi
    · split
      · exact h.upd.setNi ((NiSt.mgmtIn_admitSys _ _).trans hin)
      · exact h

theorem evPump (h : State.Lone ax tk t) : State.Lone ax tk t.evPump :=
  (ite h h.evSend).evShow

/-- No access is in progress at another target, so a lock there breaks at once. -/
theorem breakWhenDone {k cause} (h : State.Lone ax tk t) : State.Lone ax tk (t.breakWhenDone k cause) := by
  unfold State.breakWhenDone
  split
  · exact h
  next m j hl =>
    rw [if_neg]
    · exact h.breakLock
    · obtain ⟨⟨a, ha, -, -, -, hat⟩, -, hlock, -⟩ := h
      have hk : tk ≠ k := fun e => by
        rw [← e, hlock] at hl
        cases hl
      simp [ha, hat, hk]

theorem ownerReset {m} (h : State.Lone ax tk t) : State.Lone ax tk (t.ownerReset m) := by
  unfold State.ownerReset
  dsimp only
  have hf : State.Lone ax tk ((t.cmx.locks.filterMap (fun e => match e.2 with
      | some (o, _) => if o = m then some e.1 else none
      | none => none)).foldl (fun a k => a.breakWhenDone k 0) t) := h.foldl fun _ _ h => h.breakWhenDone
  generalize (t.cmx.locks.filterMap (fun e => match e.2 with
    | some (o, _) => if o = m then some e.1 else none
    | none => none)).foldl (fun a k => a.breakWhenDone k 0) t = b at hf ⊢
  obtain ⟨⟨a, ha, hser, hrsp, hmg, hat⟩, howed, hlock, hn⟩ := hf
  refine ⟨?_, howed, hlock, hn⟩
  by_cases hm : a.m = m
  · exact ⟨{ a with mute := true }, by simp [ha, hm], hser, hrsp, hmg, hat⟩
  · exact ⟨a, by simp [ha, hm], hser, hrsp, hmg, hat⟩

theorem coreReset (h : State.Lone ax tk t) : State.Lone ax tk t.coreReset :=
  (h.foldl (fun _ _ h => h.reply)).bootGo.wr.ownerReset.upd

theorem crcCommit {given} (h : State.Lone ax tk t) : State.Lone ax tk (t.crcCommit given) :=
  h.upd.wr.wr.wr

theorem quarEnd (h : State.Lone ax tk t) : State.Lone ax tk t.quarEnd :=
  h.wr

theorem actEvt {rel v} (h : State.Lone ax tk t) : State.Lone ax tk (t.actEvt rel v) := by
  dsimp only [State.actEvt]
  split
  · exact .ite h.wr h
  · exact .ite h.wr h
  · exact .ite h.crcCommit h
  · exact .ite (.ite h.upd.wr h) ((ite h.upd.wr h).quarEnd)
  · exact h

theorem nowCap (h : State.Lone ax tk t) : State.Lone ax tk t.nowCap :=
  h.wr.wr.wr.wr.wr.wr

theorem pfCancel {k} (h : State.Lone ax tk t) : State.Lone ax tk (t.pfCancel k) :=
  h.setPf.pfGo.give

theorem pfPinLost {k} (h : State.Lone ax tk t) : State.Lone ax tk (t.pfPinLost k) :=
  h.foldl (fun _ _ h => .ite h (.ite h.setPf.pfCancel.glEvent h.setPf))

theorem trcPinLost (h : State.Lone ax tk t) : State.Lone ax tk t.trcPinLost :=
  .ite h h.wr.glEvent

theorem syncEn {k v} (h : State.Lone ax tk t) : State.Lone ax tk (t.syncEn k v) := by
  dsimp only [State.syncEn]
  split
  · split
    · exact h.setPin.wr
    · split
      · exact h.setPin.wr.wr.glEvent.pfPinLost
      · exact h.setPin.wr.wr.glEvent.wr.wr.notice
      · exact h.setPin.wr.wr.glEvent.trcPinLost
  · exact h.freePin.wr

theorem actTim {rel v} (h : State.Lone ax tk t) : State.Lone ax tk (t.actTim rel v) := by
  dsimp only [State.actTim]
  split
  · exact .ite ((ite h.nowCap h).wr) (.ite h.nowCap h)
  · exact .ite h.syncEn h

theorem updTime {f} (h : State.Lone ax tk t) : State.Lone ax tk (t.updTime f) :=
  h.upd

theorem calReply (h : State.Lone ax tk t) : State.Lone ax tk t.calReply :=
  h.updTime.foldl (fun _ _ h => h.reply)

theorem setNode {r v} (h : State.Lone ax tk t) : State.Lone ax tk (t.setNode r v) :=
  h.upd

theorem resetNodes {g} (h : State.Lone ax tk t) : State.Lone ax tk (t.resetNodes g) :=
  h.foldl (fun _ _ h => .ite h h.setNode)

theorem clearRtrPort {o dead} (h : State.Lone ax tk t) : State.Lone ax tk (t.clearRtrPort o dead) :=
  h.setPort

theorem pfLost {u} (h : State.Lone ax tk t) : State.Lone ax tk (t.pfLost u) :=
  h.foldl (fun _ _ h => .ite h.setPf h)

theorem loadShapers {n} (h : State.Lone ax tk t) : State.Lone ax tk (t.loadShapers n) := by
  refine h.updNi fun x => ?_
  suffices ∀ (l : List Nat) (y : NiSt), (l.foldl (fun y k => y.setShaper k { rate := t.rd (niB n) (shpRate k), burst := t.rd (niB n) (shpBurst k) })
    y).mgmtIn = y.mgmtIn from this _ x
  intro l
  induction l with
  | nil => exact fun y => rfl
  | cons k r ih => exact fun y => ih _

theorem resetRegs {sel keep} (h : State.Lone ax tk t) : State.Lone ax tk (t.resetRegs sel keep) :=
  h.upd

theorem resetWindow {lo size keep} (h : State.Lone ax tk t) : State.Lone ax tk (t.resetWindow lo size keep) :=
  h.resetRegs

theorem dropClaims {n} (h : State.Lone ax tk t) : State.Lone ax tk (t.dropClaims n) :=
  (h.forAll (fun _ _ h => .ite h.setPin h)).wr.wr.wr.wr.wr

theorem sbLog {n addr id status kind} (h : State.Lone ax tk t) : State.Lone ax tk (t.sbLog n addr id status kind) :=
  .ite h h.wr.wr.wr.wr.wr.wr

theorem sbDiscard {n g} (h : State.Lone ax tk t) : State.Lone ax tk (t.sbDiscard n g) :=
  h.count.sbLog

theorem discardStores {n} (h : State.Lone ax tk t) : State.Lone ax tk (t.discardStores n) :=
  h.foldl (fun _ _ h => h.sbDiscard)

theorem resetNi {n dead} (h : State.Lone ax tk t) : State.Lone ax tk (t.resetNi n dead) :=
  h.discardStores.dropClaims.resetWindow.count.setNi.loadShapers.setPort.setPort.pfLost

theorem niReset {n} (h : State.Lone ax tk t) : State.Lone ax tk (t.niReset n) :=
  (h.resetNi.foldl (fun _ _ h => h.clearRtrPort)).breakLock

theorem updLk {c f} (h : State.Lone ax tk t) : State.Lone ax tk (t.updLk c f) :=
  h.upd

theorem starve {o} (h : State.Lone ax tk t) : State.Lone ax tk (t.starve o) :=
  h.updPort

theorem farSides {o} (h : State.Lone ax tk t) : State.Lone ax tk (t.farSides o) := by
  dsimp only [State.farSides]
  split
  · exact h
  · exact .ite h h.starve

theorem clearPort {o dead} (h : State.Lone ax tk t) : State.Lone ax tk (t.clearPort o dead) :=
  h.setPort

theorem jointsLost {c} (h : State.Lone ax tk t) : State.Lone ax tk (t.jointsLost c) :=
  h.upd

theorem replyOpt {x status data} (h : State.Lone ax tk t) : State.Lone ax tk (t.replyOpt x status data) := by
  dsimp only [State.replyOpt]
  split
  · exact h
  · exact h.reply

theorem trainReply {k j status data} (h : State.Lone ax tk t) : State.Lone ax tk (t.trainReply k j status data) := by
  dsimp only [State.trainReply]
  exact h.replyOpt.updLk

theorem dropLinks {k} (h : State.Lone ax tk t) : State.Lone ax tk (t.dropLinks k) :=
  h.foldl (fun _ _ h => h.trainReply.give.updLk.jointsLost)

theorem resetSpan {k dead} (h : State.Lone ax tk t) : State.Lone ax tk (t.resetSpan k dead) := by
  dsimp only [State.resetSpan]
  exact h.dropLinks.resetWindow.upd.clearPort.clearPort.pfLost.updTime

theorem resetRtr {p r dead} (h : State.Lone ax tk t) : State.Lone ax tk (t.resetRtr p r dead) :=
  (h.foldl (fun _ _ h => h.clearPort)).resetWindow.pfLost

theorem updRg {g f} (h : State.Lone ax tk t) : State.Lone ax tk (t.updRg g f) :=
  h.upd

theorem abortOne {g} (h : State.Lone ax tk t) : State.Lone ax tk (t.abortOne g) :=
  .ite h (.ite h.updRg.rgGo h.updRg)

theorem wakeStart {g} (h : State.Lone ax tk t) : State.Lone ax tk (t.wakeStart g) :=
  .ite h.updRg.rgGo.refreshTime h

theorem homeUp (h : State.Lone ax tk t) : State.Lone ax tk t.homeUp :=
  .ite h.rgGo h

theorem abortInst {status} (h : State.Lone ax tk t) : State.Lone ax tk (t.abortInst status) := by
  dsimp only [State.abortInst]
  split
  · exact h
  · exact h.updPacer.replyOpt.abortOne.homeUp.foldl (fun _ _ h => .ite h.abortOne (.ite h.abortOne.rgGo h.abortOne.wakeStart))

theorem abortNote (h : State.Lone ax tk t) : State.Lone ax tk t.abortNote :=
  h.wr.glEvent

theorem pwrAnswer {x status} (h : State.Lone ax tk t) : State.Lone ax tk (t.pwrAnswer x status) := by
  dsimp only [State.pwrAnswer]
  split
  · exact h
  · exact h.updPacer.reply

theorem pwrFail {g status} (h : State.Lone ax tk t) : State.Lone ax tk (t.pwrFail g status) :=
  h.foldl (fun _ _ h => .ite h.pwrAnswer h)

theorem abortEntry {g status} (h : State.Lone ax tk t) : State.Lone ax tk (t.abortEntry g status) :=
  .ite h (.ite h.abortOne.abortNote.abortInst h.abortOne.abortNote.pwrFail)

theorem freezeAsk {g why} (h : State.Lone ax tk t) : State.Lone ax tk (t.freezeAsk g why) :=
  h.updTime.refreshTime

theorem freezeNext (h : State.Lone ax tk t) : State.Lone ax tk t.freezeNext :=
  h.forAll (fun _ _ h => by
    split
    · exact h
    · split
      · exact .ite h.updRg.freezeAsk h
      · exact .ite h.freezeAsk h)

theorem thaw {g why} (h : State.Lone ax tk t) : State.Lone ax tk (t.thaw g why) :=
  (h.updTime.foldl (fun _ _ h => .ite h h.setNode)).freezeNext.refreshTime

theorem stepEnd {g st} (h : State.Lone ax tk t) : State.Lone ax tk (t.stepEnd g st) := by
  dsimp only [State.stepEnd]
  split
  · exact h
  · exact h.updRg.thaw.wr.floorsDue.upd.reply

theorem setOp {g mhz mv} (h : State.Lone ax tk t) : State.Lone ax tk (t.setOp g mhz mv) :=
  h.wr.wr

theorem stepCut {g status} (h : State.Lone ax tk t) : State.Lone ax tk (t.stepCut g status) := by
  dsimp only [State.stepCut]
  split
  · exact h
  · exact h.setOp.stepEnd

theorem submit {c} (h : State.Lone ax tk t) : State.Lone ax tk (t.submit c) :=
  h.upd

theorem doorbell {m} (h : State.Lone ax tk t) : State.Lone ax tk (t.doorbell m) :=
  .ite h.wr h.wr.submit

theorem putReg {m u rel v} (h : State.Lone ax tk t) : State.Lone ax tk (t.putReg m u rel v) := by
  dsimp only [State.putReg]
  split
  · exact h
  · exact h.setWord

theorem takeFree (h : State.Lone ax tk t) : State.Lone ax tk t.takeFree.2 :=
  h.upd

theorem destroy {off k mask} (h : State.Lone ax tk t) : State.Lone ax tk (t.destroy off k mask) :=
  h.forAll (fun _ _ h => h.upd.setWord)

theorem bistWipe (h : State.Lone ax tk t) : State.Lone ax tk t.bistWipe := by
  unfold State.bistWipe
  extract_lets maps u v w
  have hmaps : ∀ m k w c, State.Lone ax tk c → State.Lone ax tk (maps m k w c).1 := fun _ _ _ _ hc =>
    foldlFst (fun _ _ hp => hp.takeFree) hc
  have hu : State.Lone ax tk u := by
    refine h.forAll fun n a ha => ?_
    extract_lets b a₁ a₂
    have ha₂ : State.Lone ax tk a₂ := ha.destroy.destroy.destroy
    split
    next a₃ mcg hmcg =>
      have ha₃ : State.Lone ax tk a₃ := by simpa only [hmcg] using hmaps (a₂.ni n).mcg 512 32 a₂ ha₂
      split
      next a₄ pid hpid =>
        have ha₄ : State.Lone ax tk a₄ := by simpa only [hpid] using hmaps (a₃.ni n).pid (niRec a₃.rom n).pidMap 32 a₃ ha₃
        exact ha₄.updNi
  have hv : State.Lone ax tk v := hu.forAll fun _ _ h => h.destroy
  have hw : State.Lone ax tk w := hv.foldl fun _ _ h => h.updPort
  exact hw.upd

theorem testEnter {mode} (h : State.Lone ax tk t) : State.Lone ax tk (t.testEnter mode) :=
  (ite h.wr.wr.bistWipe h.wr.wr).glEvent.orderSync.refreshTime

theorem testMode {v} (h : State.Lone ax tk t) : State.Lone ax tk (t.testMode v) :=
  .ite h (.ite h.testLeave h.testEnter)

theorem loadData {v} (h : State.Lone ax tk t) : State.Lone ax tk (t.loadData v) := by
  have hu : State.Lone ax tk { t with starter := { t.starter with
      sram := (leBytes 4 v).zipIdx.foldl (fun (m : Map Byte) e => mset (fun _ => 0) m ((t.rd strB F.STR_LOAD_CTL_PTR + e.2) % 0x40000) e.1)
        t.starter.sram
      len := t.rd strB F.STR_LOAD_CTL_PTR + 4 } } := h.upd
  exact hu.wr

theorem actStr {rel v} (h : State.Lone ax tk t) : State.Lone ax tk (t.actStr rel v) := by
  dsimp only [State.actStr]
  split
  · exact .ite ((ite h.loadStart h).loadGo) (.ite h.loadStart h)
  · exact h.loadData
  · exact .ite h.upd h
  · exact .ite h.doorbell h

/-- An access without a response is not answered. -/
theorem flush (h : State.Lone ax tk t) : t.flushCmx = t := by
  obtain ⟨⟨a, ha, -, hrsp, -, -⟩, -, -, hn⟩ := h
  refine State.flushCmx_of_waiting (fun b hb => ?_) hn
  rw [ha] at hb
  rw [List.mem_singleton.mp hb, hrsp]

/-- Accesses to another region's targets are cut, and this one is not. -/
theorem cutAccesses {g} (h : State.Lone ax tk t) (hg : tgtRegion t.rom tk ≠ some g) : State.Lone ax tk (t.cutAccesses g) := by
  obtain ⟨⟨a, ha, hser, hrsp, hmg, hat⟩, howed, hlock, hn⟩ := h
  have hmiss : (a.gr.isSome && a.rsp.isNone && tgtRegion t.rom a.tgt == some g) = false := by
    rw [hat, beq_false_of_ne hg, Bool.and_false]
  have hl : State.Lone ax tk { t with cmx := { t.cmx with acs := [a] } } := ⟨⟨a, rfl, hser, hrsp, hmg, hat⟩, howed, hlock, hn⟩
  have hcut : t.cutAccesses g = ({ t with cmx := { t.cmx with acs := [a] } } : State).flushCmx := by
    unfold State.cutAccesses
    simp only [ha, List.filter_cons, hmiss, Bool.false_and, Bool.not_false, if_true, List.filter_nil, List.map_cons, List.map_nil,
      Bool.false_eq_true, if_false]
  rw [hcut, hl.flush]
  exact hl

theorem countUp {c v n} (h : State.Lone ax tk t) : State.Lone ax tk (t.countUp c v n) :=
  h.updLk

theorem updXbv {c v f} (h : State.Lone ax tk t) : State.Lone ax tk (t.updXbv c v f) :=
  h.updLk

theorem rxDrop {c v} (h : State.Lone ax tk t) : State.Lone ax tk (t.rxDrop c v) := by
  dsimp only [State.rxDrop]
  split
  · exact h
  · exact h.updLk.countUp

theorem xbDrop {c v tail} (h : State.Lone ax tk t) : State.Lone ax tk (t.xbDrop c v tail) := by
  dsimp only [State.xbDrop]
  split
  · exact h
  · exact .ite h.updXbv h.updXbv.rxDrop

theorem credit {o vc} (h : State.Lone ax tk t) : State.Lone ax tk (t.credit o vc) := by
  dsimp only [State.credit]
  split
  · exact h
  · exact h.updPort

theorem credits {o vc k} (h : State.Lone ax tk t) : State.Lone ax tk (t.credits o vc k) :=
  h.foldl (fun _ _ h => h.credit)

theorem updVc {o v f} (h : State.Lone ax tk t) : State.Lone ax tk (t.updVc o v f) :=
  h.updPort

theorem sinkPlane {k p v fuel} (h : State.Lone ax tk t) : State.Lone ax tk (t.sinkPlane k p v fuel) := by
  induction fuel generalizing t with
  | zero => exact h
  | succ fuel ih =>
    dsimp only [State.sinkPlane]
    split
    · exact h
    · split
      · exact h
      · split
        · exact h
        · exact ih (.ite h.updVc.credits.count h.updVc.credits)

theorem sinkXb {c v fuel} (h : State.Lone ax tk t) : State.Lone ax tk (t.sinkXb c v fuel) := by
  induction fuel generalizing t with
  | zero => exact h
  | succ fuel ih =>
    dsimp only [State.sinkXb]
    split
    · exact h
    · split
      · exact h
      · split
        · exact h
        · exact ih (.ite h.xbDrop.count h.xbDrop)

theorem sinkAll {k} (h : State.Lone ax tk t) : State.Lone ax tk (t.sinkAll k) :=
  h.foldl (fun _ _ h => h.sinkPlane.sinkPlane.foldl (fun _ _ h => h.sinkXb))

theorem resetUnits {g} (h : State.Lone ax tk t) : State.Lone ax tk (t.resetUnits g) :=
  ((((((h.foldl (fun _ _ h => h.resetRtr.resetRtr)).foldl (fun _ _ h => h.resetNi)).foldl (fun _ _ h => h.resetSpan)).foldl
    (fun _ _ h => h.clearPort)).foldl (fun _ _ h => h.updPort)).foldl (fun _ _ h => h.farSides)).foldl (fun _ _ h => h.sinkAll)

theorem rgHeld {g} (h : State.Lone ax tk t) : State.Lone ax tk (t.rgHeld g) := h.updRg.rgGo.setBit.setBit.wr.resetUnits

theorem rgReset {g} (h : State.Lone ax tk t) (hg : tgtRegion t.rom tk ≠ some g) : State.Lone ax tk (t.rgReset g 0) := by
  rw [State.rgReset_command]
  have hr : t.SameBase ((t.stepCut g 0x33).abortEntry g 0x37) := (State.SameBase.refl t).stepCut.abortEntry
  have hl : State.Lone ax tk ((t.stepCut g 0x33).abortEntry g 0x37) := h.stepCut.abortEntry
  generalize (t.stepCut g 0x33).abortEntry g 0x37 = a at hr hl ⊢
  replace hr : t.SameBase (a.rgHeld g) := hr.updRg.rgGo.setBit.setBit.wr.resetUnits
  replace hl := hl.rgHeld (g := g)
  generalize a.rgHeld g = b at hr hl ⊢
  rw [← hr.rom] at hg
  exact (foldl (fun _ _ h => .ite h.breakLock h) (hl.cutAccesses hg)).refreshTime

theorem actGlb {rel v old} (h : State.Lone ax 0 t) : State.Lone ax 0 (t.actGlb rel v old) := by
  dsimp only [State.actGlb]
  split
  · exact .ite h.wr h
  · exact .ite h h.floorsDue
  · refine h.forAll fun g a h => ?_
    split
    next hg => exact h.rgReset fun e => hg.2 (Option.some.inj e).symm
    next => exact h
  · exact .ite h.niReset h
  · exact h

theorem actDbg {m rel v old} (h : State.Lone ax tk t) : State.Lone ax tk (t.actDbg m rel v old) := by
  dsimp only [State.actDbg]
  split
  · exact .ite ((ite h.testMode h).coreReset) (.ite h.testMode h)
  · exact .ite h (.ite h.trcArm h.trcStop)
  · exact h

theorem acts {m u rel v old} (h : State.Lone ax tk t) (hk : u.kind = .glb → tk = 0) : State.Lone ax tk (t.acts m u rel v old) := by
  dsimp only [State.acts]
  split
  · exact h.actNi
  · exact h.actStr
  next hu =>
    obtain rfl := hk hu
    exact h.actGlb
  · exact h.actTim
  · exact h.actEvt
  · exact h.actDbg
  · split
    · obtain ⟨h1, h2, h3, h4⟩ := h
      exact ⟨h1, h2, h3, h4⟩
    · exact h
  · exact .ite h.evPump (.ite h.evShow h)
  · exact .ite (h.upd.forAll (fun _ _ h => h.wr.wr)) h
  · exact .ite h.wr h
  · exact h

theorem acted {m u rel v old} (h : State.Lone ax tk t) (hk : u.kind = .glb → tk = 0) : State.Lone ax tk (t.acted m u rel v old) :=
  (h.acts hk).foldl (fun _ _ h => h.reassert)

end State.Lone

end Sys2Proof.Machine
end

section
/-! SUPPORT. A master's write with nothing else in the Control Matrix (R446, R455, R463, R465, R468, R470): it is granted as it is
presented, performed at once, and answered. -/

namespace Sys2Proof.Machine

variable {s : State} {m rel v : Nat} {u : Un} {q : CsrReq}

/-! ### Units -/

/-- The Global block is the first target (R451). -/
theorem target_of_glb {r : Rom} {off : Nat} (h : unitOf r off = some u) (hk : u.kind = .glb) : u.target = 0 := by
  unfold unitOf at h
  dsimp only at h
  split at h
  · obtain rfl := Option.some.inj h
    dsimp only at hk ⊢
    split at hk <;> cases hk
    assumption
  · split_ifs at h
    all_goals
      obtain rfl := Option.some.inj h
      cases hk

/-! ### The grant -/

theorem State.granting_entry? (s : State) (m t m' : Nat) (q q' : CsrReq) : (s.granting m t q).entry? m' q' = s.entry? m' q' := by
  unfold State.granting
  split
  · rfl
  · rfl

theorem State.granting_cmx (s : State) (m t : Nat) (q : CsrReq) : (s.granting m t q).cmx.acs = s.cmx.acs
    ∧ (s.granting m t q).cmx.owed = s.cmx.owed ∧ (s.granting m t q).cmx.brk = s.cmx.brk ∧ (s.granting m t q).cmx.cuts = s.cmx.cuts := by
  unfold State.granting
  split
  · exact ⟨rfl, rfl, rfl, rfl⟩
  · exact ⟨rfl, rfl, rfl, rfl⟩

/-- The access of master `m` as its target has granted it. -/
def State.onlyAccess (s : State) (m t : Nat) (q : CsrReq) : Csa :=
  { ser := s.cmx.next, m := m, mg := none, req := q, tgt := t, gr := some s.clock }

/-- The only access is granted as it is presented, and performed at once (R455, R465). -/
theorem State.direct_of_free (hf : s.CmxFree m) (hrot : m ∈ s.cmxRot u.target) (he : s.entry? m q = .ok u)
    (hmay : s.mayUse m u.target = true) :
    s.direct m q = ((s.atTarget m u.target q).granting m u.target q).cmxDone s.cmx.next := by
  obtain ⟨-, hp, hacs, -, -⟩ := hf
  set a : Csa := { ser := s.cmx.next, m := m, mg := none, req := q, tgt := u.target }
  set i := s.updCmx (fun c => { c with next := c.next + 1, acs := [a] }) with hi
  have hin : s.cmxIn m none q none = i := by simp [State.cmxIn, he, hacs, State.updCmx, hi, a]
  have hphase : i.cmxPhase u.target = (s.atTarget m u.target q).granting m u.target q :=
    State.cmxPhase_of_only (s := i) (a := a) rfl rfl hrot hmay
  have hentered : i.cmx.acs = [a] := rfl
  have hgranted : ((s.atTarget m u.target q).granting m u.target q).cmx.acs = [{ a with gr := some s.clock }] :=
    (State.granting_cmx _ _ _ _).1
  simp [State.direct, hp, hin, hentered, hphase, hgranted, Csa.working, a]

/-! ### The answer -/

/-- A served access has its response, where the service leaves it the only one (R456, R470). -/
theorem State.cmxDone_of_served {g w : State} {a b : Csa} {c : Nat} (hacs : g.cmx.acs = [a]) (hgr : a.gr.isSome = true)
    (hrsp : a.rsp = none) (hlate : a.late = false) (he : g.entry? a.m a.req = .ok u) (hs : g.served a.m u a.req = (w, 0, c))
    (hb : w.cmx.acs = [b]) (hbs : b.ser = a.ser) (hbr : b.rsp = none) (ho : w.cmx.owed = []) :
    g.cmxDone a.ser = w.responded c (g.cmx.brk.contains a.tgt) := by
  have hfind : g.cmx.acs.find? (fun b => b.ser == a.ser && b.gr.isSome && b.rsp.isNone) = some a := by
    rw [hacs, List.find?_cons_of_pos]
    simp [hgr, hrsp]
  have hbroken (f : Cmx → Cmx) (hf : (f w.cmx).owed = []) : (w.updCmx f).brokenNow a.tgt = w.updCmx f :=
    State.brokenNow_of_owed_eq_nil _ hf
  rw [State.cmxDone_served hfind hlate he, hs, hbroken _ ho, State.responded]
  simp [State.updCmx, hb, hbs, hbr]

theorem State.served_of_performed {g w : State} {d : BitVec 64} {c : Nat} (hcut : (m, u.target) ∉ g.cmx.cuts)
    (hp : g.perform m u q = (w, d, c)) (hl : w.lockOf u.target = none) : g.served m u q = (w, d, c) := by
  have hmember : g.cmx.cuts.contains (m, u.target) = false := by simpa using hcut
  simp only [State.served, hmember, hp, State.closing_of_no_lock _ _ hl, Bool.false_eq_true, if_false]

/-- The state with the grant holds the access alone. -/
theorem State.lone_atTarget (hf : s.CmxFree m) (hl : s.lockOf u.target = none) (q : CsrReq) :
    State.Lone s.cmx.next u.target (s.atTarget m u.target q) := by
  obtain ⟨-, -, -, howed, hin⟩ := hf
  exact ⟨⟨s.onlyAccess m u.target q, rfl, rfl, rfl, rfl, rfl⟩, howed, hl, hin⟩

/-- A write without LOCK to a target without a lock, performed with code `c`, is answered with it. -/
theorem State.direct_performed {w : State} {c : Nat} (hf : s.CmxFree m) (hrot : m ∈ s.cmxRot u.target) (he : s.entry? m q = .ok u)
    (hb : s.lockBit m q = false) (hl : s.lockOf u.target = none) (hcut : (m, u.target) ∉ s.cmx.cuts)
    (hp : (s.atTarget m u.target q).perform m u q = (w, 0, c)) (hw : State.Lone s.cmx.next u.target w) :
    s.direct m q = w.responded c (s.cmx.brk.contains u.target) := by
  have hmay : s.mayUse m u.target = true := by simp only [State.mayUse, hl]
  have hgrant : (s.atTarget m u.target q).granting m u.target q = s.atTarget m u.target q := State.granting_of_no_lock _ hb
  obtain ⟨⟨b, hacs, hser, hrsp, -, -⟩, howed, hlock, -⟩ := hw
  rw [State.direct_of_free hf hrot he hmay, hgrant]
  exact State.cmxDone_of_served (a := s.onlyAccess m u.target q) rfl rfl rfl rfl (show s.entry? m q = .ok u from he)
    (State.served_of_performed hcut hp hlock) hacs hser hrsp howed

/-! ### Writes to a register that is within reach -/

theorem State.entry?_of_reaches (h : s.Reaches m u rel) (ha : rel % 4 = 0) : s.entry? m (wreq u rel v) = .ok u := by
  obtain ⟨-, -, -, hunit, hreach, -, -, -, -, -, hreg, -⟩ := h
  have hempty : emptyAt u (wreq u rel v) = false := by
    have hword : rel / 4 * 4 = rel := Nat.div_mul_cancel (Nat.dvd_of_mod_eq_zero ha)
    simp [emptyAt, hword, hreg]
  have hmaster : s.reaches m u (wreq u rel v) = true := hreach
  simp [State.entry?, hunit, hmaster, hempty]

theorem State.perform_of_reaches {g : State} (hs : g.asleep u = false) (hr : regAt u rel = true) (ha : rel % 4 = 0) (hv : v < 2 ^ 32) :
    g.perform m u (wreq u rel v) = ((g.regStore m u rel 2 v).1, 0, (g.regStore m u rel 2 v).2) := by
  obtain ⟨hrom, hbrom, hsram⟩ := kind_of_regAt hr
  have hbase : (wreq u rel v).addr - u.base = rel := Nat.add_sub_cancel_left _ _
  have hdata : (wreq u rel v).data.toNat = v := by
    rw [BitVec.toNat_ofNat, Nat.mod_eq_of_lt (by omega)]
  simp [State.perform, hbase, hs, ha, hrom, hbrom, hsram, hdata]

theorem State.regStore_word {g : State} (hr : regAt u rel = true) (hp : pairAt u rel = false) (hv : v < 2 ^ 32)
    (hstage : mget (fun _ => none) g.cmx.stage (mtKey m u.target) = none) : g.regStore m u rel 2 v = g.regWrite m u [(rel, v)] := by
  have hlo : bitsAt v 0 32 = v := by
    rw [bitsAt, pow_zero, Nat.div_one, Nat.mod_eq_of_lt hv]
  simp only [State.regStore, hr, hp, hlo, State.writeWord, hstage]
  rfl

theorem State.regStore_low {g : State} (hr : regAt u rel = true) (hp : pairAt u rel = true) (hd : u.kind = .dbg → g.dbgDis = false) :
    g.regStore m u rel 2 v = (g.setStage m u.target (some (u.base + rel, BitVec.ofNat 32 v, g.clock)), 0) := by
  have hopen : (u.kind == .dbg && g.dbgDis) = false := by
    cases hk : u.kind == .dbg
    · rfl
    · rw [hd (beq_iff_eq.mp hk), Bool.and_false]
  simp only [State.regStore, hr, hp, hopen, Bool.true_eq_false, Bool.false_eq_true, Nat.lt_irrefl, if_true, if_false]

theorem State.regWrite_open {g : State} (hd : (u.kind = .dbg ∨ u.kind = .trc) → g.dbgDis = false) :
    ((u.kind == .dbg || u.kind == .trc) && g.dbgDis) = false := by
  simpa using hd

theorem State.regWrite_refused {g : State} {l : List (Nat × Nat)} (hd : (u.kind = .dbg ∨ u.kind = .trc) → g.dbgDis = false)
    (h : g.refuses m u l = true) : g.regWrite m u l = (g, 3) := by
  simp only [State.regWrite, State.regWrite_open hd, h, Bool.false_eq_true, if_false, if_true]

theorem State.regWrite_absent {g : State} (hd : (u.kind = .dbg ∨ u.kind = .trc) → g.dbgDis = false)
    (h : g.refuses m u [(rel, v)] = false) (ha : g.absent u rel = true) : g.regWrite m u [(rel, v)] = (g, 0) := by
  simp [State.regWrite, State.regWrite_open hd, h, ha]

/-- A write within reach is answered with its code, where it leaves the Control Matrix to its access. -/
theorem State.direct_of_reaches {w : State} {c : Nat} (h : s.Reaches m u rel) (ha : rel % 4 = 0) (hv : v < 2 ^ 32)
    (hp : (s.atTarget m u.target (wreq u rel v)).regStore m u rel 2 v = (w, c)) (hw : State.Lone s.cmx.next u.target w) :
    s.direct m (wreq u rel v) = w.responded c (s.cmx.brk.contains u.target) := by
  have he := State.entry?_of_reaches (v := v) h ha
  obtain ⟨hf, hrot, h1, -, -, hl, hcut, hs, -, -, hr, -⟩ := h
  refine State.direct_performed hf hrot he (State.lockBit_wreq h1) hl hcut ?_ hw
  rw [State.perform_of_reaches (g := s.atTarget m u.target (wreq u rel v)) hs hr ha hv, hp]

/-- What a write that goes leaves behind is the work of its register. -/
theorem State.lone_acted (h : s.Goes m u rel v) : State.Lone s.cmx.next u.target
    (((s.atTarget m u.target (wreq u rel v)).putReg m u rel v).acted m u rel v ((s.atTarget m u.target (wreq u rel v)).view u rel).toNat) := by
  obtain ⟨⟨hf, -, -, hu, -, hl, -⟩, -⟩ := h
  exact (State.lone_atTarget hf hl _).putReg.acted (target_of_glb hu)

/-- A write that goes leaves its state `wrote`. -/
theorem State.direct_goes (h : s.Goes m u rel v) : s.direct m (wreq u rel v) = s.wrote m u rel v := by
  have hp := State.perform_of_goes h
  have hw := State.lone_acted h
  obtain ⟨hr, hv, ha, -⟩ := h
  have he := State.entry?_of_reaches (v := v) hr ha
  obtain ⟨hf, hrot, h1, -, -, hl, hcut, -⟩ := hr
  exact State.direct_performed hf hrot he (State.lockBit_wreq h1) hl hcut hp hw

/-- Beside the work of the register, only the Control Matrix changes. -/
theorem State.wrote_eq (h : s.Goes m u rel v) : ∃ x : Cmx, s.wrote m u rel v =
    (((s.atTarget m u.target (wreq u rel v)).putReg m u rel v).acted m u rel v
      ((s.atTarget m u.target (wreq u rel v)).view u rel).toNat).updCmx (fun _ => x) := by
  obtain ⟨⟨b, hacs, -, -, hmg, -⟩, -, -, hin⟩ := State.lone_acted h
  exact State.responded_okay hacs hmg hin _

theorem State.store_goes {w : Word} (h : s.Goes m u rel w.toNat) : s.store m (u.base + rel) w = s.wrote m u rel w.toNat := by
  rw [← State.direct_goes h, wreq, BitVec.ofNat_toNat]
  rfl

end Sys2Proof.Machine
end

section
/-! SUPPORT. Register writes reach their registers (R446, R455, R463 to R471), and CLAIM_RELEASE (R496, R500). -/

namespace Sys2Proof.Machine

variable {s : State} {m rel : Nat} {u : Un} {q : CsrReq} {v : Word}

/-! ### Writes of one word -/

/-- A 4-byte write command is the register write of its word. -/
theorem State.store_eq (s : State) (m off : Nat) (v : Word) :
    (Host.Outcome.next (s.store m off v) : Host.Outcome State Fault Refusal) = exec (.registerWrite m { addr := off, wr := true, size := 2, data := v.setWidth 64 }) s := rfl

/-- A write to an NI's window goes where its register does. -/
theorem exec_storeNi {n : Nat} (hn : s.hasNi n = true) (hu : u = niUnit n) (h : s.Goes m u rel v.toNat) :
    s.storeNi m n rel v = .next (s.wrote m u rel v.toNat) := by
  subst hu
  exact (guardUnit_of hn _ _).trans (congrArg Host.Outcome.next (State.store_goes h))

theorem exec_store {b : Nat} (hb : u.base = b) (h : s.Goes m u rel v.toNat) :
    (Host.Outcome.next (s.store m (b + rel) v) : Host.Outcome State Fault Refusal) = .next (s.wrote m u rel v.toNat) := by
  subst hb
  exact congrArg Host.Outcome.next (State.store_goes h)

theorem wreq_word (u : Un) (rel : Nat) (v : Word) :
    wreq u rel v.toNat = { addr := u.base + rel, wr := true, size := 2, data := v.setWidth 64 } := by
  rw [wreq, BitVec.ofNat_toNat]

/-! ### Writes that are refused, cut off or misplaced -/

theorem exec_pairLowWrite_of (hu : unitOf s.rom q.addr = some u) (hp : pairAt u (q.addr - u.base) = true) :
    exec (.pairLowWrite m q) s = .next (s.direct m { q with wr := true, size := 2 }) := by
  refine congrArg Host.Outcome.next ?_
  simp only [hu, hp, if_true]

theorem exec_pairLowWrite_elsewhere (h : unitOf s.rom q.addr = none ∨ ∃ x, unitOf s.rom q.addr = some x ∧ pairAt x (q.addr - x.base) = false) :
    exec (.pairLowWrite m q) s = .next s := by
  refine congrArg Host.Outcome.next ?_
  rcases h with h | ⟨x, h, hp⟩
  · simp only [h]
  · simp only [h, hp, Bool.false_eq_true, if_false]

/-- An access that its entry refuses is answered there (R446, R471). -/
theorem State.direct_of_error {c : Nat} (hf : s.CmxFree m) (he : s.entry? m q = .error c) :
    s.direct m q = (s.cmxIn m none q none).flushCmx ∧ (s.cmxIn m none q none).flushCmx.cmx.acs = [] := by
  obtain ⟨-, hp, hacs, -, hin⟩ := hf
  have hone : (s.cmxIn m none q none).cmx.acs =
      [{ ser := s.cmx.next, m := m, mg := none, req := q, tgt := 0, rsp := some (0, c, false) }] := by
    rw [State.cmxIn_error he]
    change s.cmx.acs ++ _ = _
    rw [hacs, List.nil_append]
  have hidle : ∀ n, ((s.cmxIn m none q none).ni n).mgmtIn = [] := by
    rw [State.cmxIn_error he]
    exact hin
  refine ⟨?_, State.flushCmx_empties hone rfl rfl hidle⟩
  unfold State.direct
  rw [if_neg (by rw [hp]; decide)]
  simp [hone]

section
variable (hf : s.CmxFree m) (hrot : m ∈ s.cmxRot u.target) (he : s.entry? m q = .ok u) (hmay : s.mayUse m u.target = true)
  {g : State} (hg : g = (s.atTarget m u.target q).granting m u.target q)
include hf hrot he hmay hg

/-- What is known of the state with the grant. -/
theorem State.granted_of_free : g.cmx.acs = [s.onlyAccess m u.target q] ∧ g.cmx.owed = [] ∧ g.cmx.brk = s.cmx.brk ∧ g.cmx.cuts = s.cmx.cuts
    ∧ g.entry? m q = .ok u ∧ s.direct m q = g.cmxDone s.cmx.next := by
  obtain ⟨ha, ho, hb, hc⟩ := (s.atTarget m u.target q).granting_cmx m u.target q
  subst hg
  exact ⟨ha, ho.trans hf.2.2.2.1, hb, hc, (State.granting_entry? _ _ _ _ _ _).trans he, State.direct_of_free hf hrot he hmay⟩

/-- The owner's next access after a break by LOCK_MAX is not performed, and ends the cut-off (R468). -/
theorem State.direct_of_cut (hcut : (m, u.target) ∈ s.cmx.cuts) : s.direct m q = (({ g with cmx := { g.cmx with
    cuts := g.cmx.cuts.filter (fun e => e != (m, u.target)) } } : State).responded 9 (s.cmx.brk.contains u.target)) := by
  obtain ⟨hacs, howed, hbrk, hcuts, hentry, hd⟩ := State.granted_of_free hf hrot he hmay hg
  have hmember : g.cmx.cuts.contains (m, u.target) = true := by
    rw [hcuts]
    simpa using hcut
  have hserved : g.served m u q = ({ g with cmx := { g.cmx with cuts := g.cmx.cuts.filter (fun e => e != (m, u.target)) } }, 0, 9) := by
    simp only [State.served, hmember, if_true]
  rw [hd, ← hbrk]
  exact State.cmxDone_of_served (a := s.onlyAccess m u.target q) hacs rfl rfl rfl hentry hserved hacs rfl rfl howed

theorem State.direct_of_uncut (hcut : (m, u.target) ∉ s.cmx.cuts) (r : State × BitVec 64 × Nat) (hr : r = g.perform m u q) :
    s.direct m q = ((((r.1.closing m u.target (s.lockBit m q)).updCmx (fun c => { c with
      acs := c.acs.map (fun b => if b.ser = s.cmx.next ∧ b.rsp.isNone = true then
        { b with rsp := some (r.2.1, r.2.2, s.cmx.brk.contains u.target) } else b) })).brokenNow u.target).flushCmx) := by
  obtain ⟨hacs, -, hbrk, hcuts, hentry, hd⟩ := State.granted_of_free hf hrot he hmay hg
  have hmember : g.cmx.cuts.contains (m, u.target) = false := by
    rw [hcuts]
    simpa using hcut
  have hlock : g.lockBit m q = s.lockBit m q := by
    rw [hg, State.granting]
    split
    · rfl
    · rfl
  have hfind : g.cmx.acs.find? (fun b => b.ser == s.cmx.next && b.gr.isSome && b.rsp.isNone) = some (s.onlyAccess m u.target q) := by
    rw [hacs, List.find?_cons_of_pos]
    simp [State.onlyAccess]
  have hserved : g.served (s.onlyAccess m u.target q).m u (s.onlyAccess m u.target q).req =
      (r.1.closing m u.target (s.lockBit m q), r.2.1, r.2.2) := by
    change g.served m u q = _
    simp only [State.served, hmember, Bool.false_eq_true, if_false, hlock, hr]
  rw [hd, State.cmxDone_served hfind rfl hentry, hserved, hbrk]
  rfl

end

/-- A write without LOCK that is not performed as a store is answered with the code of its fault (R453, R458, R459). -/
theorem State.direct_of_fault {c : Nat} (hf : s.CmxFree m) (hrot : m ∈ s.cmxRot u.target) (he : s.entry? m q = .ok u)
    {g : State} (hg : g = (s.atTarget m u.target q).granting m u.target q) (hcut : (m, u.target) ∉ s.cmx.cuts)
    (hb : s.lockBit m q = false) (hl : s.lockOf u.target = none)
    (hp : (s.atTarget m u.target q).perform m u q = (s.atTarget m u.target q, 0, c)) :
    s.direct m q = g.responded c (s.cmx.brk.contains u.target) := by
  rw [hg, State.granting_of_no_lock (s := s.atTarget m u.target q) _ hb]
  exact State.direct_performed hf hrot he hb hl hcut hp (State.lone_atTarget hf hl q)

section
variable {g : State}

theorem State.perform_asleep (h : g.asleep u = true) : g.perform m u q = (g, 0, 7) := by
  simp only [State.perform, h, if_true]

variable (h : g.asleep u = false)
include h

theorem State.perform_misaligned (ha : 3 < q.size ∨ (q.addr - u.base) % 2 ^ q.size ≠ 0) : g.perform m u q = (g, 0, 2) := by
  simp only [State.perform, h, Bool.false_eq_true, if_false, if_pos ha]

theorem State.perform_narrow (hw : q.wr = true) (hz : q.size < 2) (ha : (q.addr - u.base) % 2 ^ q.size = 0)
    (hrom : u.kind ≠ .rom) (hbrom : u.kind ≠ .brom) (hsram : u.kind ≠ .sram) (hr : regAt u ((q.addr - u.base) / 4 * 4) = true) :
    g.perform m u q = (g, 0, 1) := by
  have hal : ¬ (3 < q.size ∨ (q.addr - u.base) % 2 ^ q.size ≠ 0) := by omega
  simp [State.perform, h, hal, hrom, hbrom, hsram, hw, State.regStore, hz, hr]

theorem State.perform_readOnly (hw : q.wr = true) (hz : q.size ≤ 3) (ha : (q.addr - u.base) % 2 ^ q.size = 0)
    (hk : u.kind = .rom ∨ u.kind = .brom) : g.perform m u q = (g, 0, 4) := by
  have hal : ¬ (3 < q.size ∨ (q.addr - u.base) % 2 ^ q.size ≠ 0) := by omega
  rcases hk with hk | hk <;> simp [State.perform, h, hal, hk, hw]

end

/-! ### CLAIM_RELEASE (R496, R500) -/

/-- What CLAIM_RELEASE does with the resource that it names. -/
def State.claimEnd (s : State) (x : Nat) (c : Cmd) : State :=
  if s.claimOk (c.p 0 2) (c.p 8 8) = false then s.reply x 0x0003 []
  else if ((c.p 0 2 == 0 && ((s.claimOf (c.p 0 2) (c.p 8 8)).1 == 1 || (s.claimOf (c.p 0 2) (c.p 8 8)).1 == 2))
      || (c.p 0 2 == 1 && (s.claimOf (c.p 0 2) (c.p 8 8)).1 == 1)
      || (c.p 0 2 == 2 && (s.claimOf (c.p 0 2) (c.p 8 8)).1 == 2 && s.flag (niB (c.p 8 8)) F.NI_MIG_CTL_HOLD)) = true then s.reply x 0x0006 []
  else (match c.p 0 2, (s.claimOf (c.p 0 2) (c.p 8 8)).1 with
    | 0, 3 => s.markEn (s.pinNi (c.p 8 8)) false
    | 0, 4 => s.trcStop
    | 1, 2 => s.histEn (c.p 8 8) false
    | 2, 1 => s.reorder (c.p 8 8) false
    | 2, 2 => s.migStage (c.p 8 8) false
    | _, _ => s).reply x 0 []

theorem exec_claimRelease {x : Nat} {c : Cmd} (h : s.Issued x 0x03 [(0, 2), (8, 8)] c) :
    exec (.claimRelease x) s = .next ((s.begin x).claimEnd x c) :=
  congrArg Host.Outcome.next (State.runCmd_issued s h _)

section
variable {x : Nat} {c : Cmd}

theorem State.claimEnd_unknown (h : s.claimOk (c.p 0 2) (c.p 8 8) = false) : s.claimEnd x c = s.reply x 3 [] := if_pos h

variable (h : s.claimOk (c.p 0 2) (c.p 8 8) = true)
include h

theorem State.claimEnd_busy (hb : c.p 0 2 = 0 ∧ ((s.claimOf 0 (c.p 8 8)).1 = 1 ∨ (s.claimOf 0 (c.p 8 8)).1 = 2)
    ∨ c.p 0 2 = 1 ∧ (s.claimOf 1 (c.p 8 8)).1 = 1
    ∨ c.p 0 2 = 2 ∧ (s.claimOf 2 (c.p 8 8)).1 = 2 ∧ s.flag (niB (c.p 8 8)) F.NI_MIG_CTL_HOLD = true) : s.claimEnd x c = s.reply x 6 [] := by
  unfold State.claimEnd
  rw [if_neg (by rw [h]; decide), if_pos]
  rcases hb with ⟨hk, ho | ho⟩ | ⟨hk, ho⟩ | ⟨hk, ho, hh⟩
  · rw [hk, ho]
    rfl
  · rw [hk, ho]
    rfl
  · rw [hk, ho]
    rfl
  · rw [hk, ho, hh]
    rfl

theorem State.claimEnd_free (ho : (s.claimOf (c.p 0 2) (c.p 8 8)).1 = 0) : s.claimEnd x c = s.reply x 0 [] := by
  unfold State.claimEnd
  rw [if_neg (by rw [h]; decide), ho, if_neg (by simp)]
  -- An owner 0 is none of the five cases
  split
  iterate 5 next h0 => cases h0
  rfl

theorem State.claimEnd_marker (hk : c.p 0 2 = 0) (ho : (s.claimOf 0 (c.p 8 8)).1 = 3) :
    s.claimEnd x c = (s.markEn (s.pinNi (c.p 8 8)) false).reply x 0 [] := by
  unfold State.claimEnd
  rw [if_neg (by rw [h]; decide), hk, ho]
  exact if_neg Bool.false_ne_true

theorem State.claimEnd_trace (hk : c.p 0 2 = 0) (ho : (s.claimOf 0 (c.p 8 8)).1 = 4) : s.claimEnd x c = s.trcStop.reply x 0 [] := by
  unfold State.claimEnd
  rw [if_neg (by rw [h]; decide), hk, ho]
  exact if_neg Bool.false_ne_true

theorem State.claimEnd_timer (hk : c.p 0 2 = 1) (ho : (s.claimOf 1 (c.p 8 8)).1 = 2) :
    s.claimEnd x c = (s.histEn (c.p 8 8) false).reply x 0 [] := by
  unfold State.claimEnd
  rw [if_neg (by rw [h]; decide), hk, ho]
  exact if_neg Bool.false_ne_true

theorem State.claimEnd_reorder (hk : c.p 0 2 = 2) (ho : (s.claimOf 2 (c.p 8 8)).1 = 1) :
    s.claimEnd x c = (s.reorder (c.p 8 8) false).reply x 0 [] := by
  unfold State.claimEnd
  rw [if_neg (by rw [h]; decide), hk, ho]
  exact if_neg Bool.false_ne_true

theorem State.claimEnd_stage (hk : c.p 0 2 = 2) (ho : (s.claimOf 2 (c.p 8 8)).1 = 2)
    (hh : s.flag (niB (c.p 8 8)) F.NI_MIG_CTL_HOLD = false) : s.claimEnd x c = (s.migStage (c.p 8 8) false).reply x 0 [] := by
  unfold State.claimEnd
  rw [if_neg (by rw [h]; decide), hk, ho, hh]
  exact if_neg Bool.false_ne_true

end

end Sys2Proof.Machine
end

section
/-! SUPPORT. The write of each command reaches the register that it names (R446, R463, R465, R470). -/

namespace Sys2Proof.Machine

variable {s : State} {m rel : Nat} {u : Un} {v : Word}

/-- A write of one word that its register refuses is answered so (R667). -/
theorem State.direct_refuses (h : s.Reaches m u rel) (ha : rel % 4 = 0) (hp : pairAt u rel = false)
    (hr : (s.atTarget m u.target (wreq u rel v.toNat)).refuses m u [(rel, v.toNat)] = true) :
    s.direct m (wreq u rel v.toNat) = (s.atTarget m u.target (wreq u rel v.toNat)).responded 3 (s.cmx.brk.contains u.target) := by
  have h' := h
  obtain ⟨hf, -, -, -, -, hl, -, -, hstage, hdbg, hreg, -⟩ := h
  refine State.direct_of_reaches h' ha v.isLt ?_ (State.lone_atTarget hf hl _)
  rw [State.regStore_word (g := s.atTarget m u.target (wreq u rel v.toNat)) hreg hp v.isLt hstage]
  exact State.regWrite_refused hdbg hr

/-- One to a register that is not present in this configuration has no effect (R120, R578). -/
theorem State.direct_absent (h : s.Reaches m u rel) (ha : rel % 4 = 0) (hp : pairAt u rel = false)
    (hr : (s.atTarget m u.target (wreq u rel v.toNat)).refuses m u [(rel, v.toNat)] = false) (habs : s.absent u rel = true) :
    s.direct m (wreq u rel v.toNat) = (s.atTarget m u.target (wreq u rel v.toNat)).responded 0 (s.cmx.brk.contains u.target) := by
  have h' := h
  obtain ⟨hf, -, -, -, -, hl, -, -, hstage, hdbg, hreg, -⟩ := h
  refine State.direct_of_reaches h' ha v.isLt ?_ (State.lone_atTarget hf hl _)
  rw [State.regStore_word (g := s.atTarget m u.target (wreq u rel v.toNat)) hreg hp v.isLt hstage]
  exact State.regWrite_absent hdbg hr habs

/-- The low word of a pair is staged (R461). -/
theorem State.direct_low (h : s.Reaches m u rel) (ha : rel % 4 = 0) (hp : pairAt u rel = true) :
    s.direct m (wreq u rel v.toNat) = ((s.atTarget m u.target (wreq u rel v.toNat)).setStage m u.target
      (some (u.base + rel, v, s.clock))).responded 0 (s.cmx.brk.contains u.target) := by
  have h' := h
  obtain ⟨hf, -, -, -, -, hl, -, -, -, hdbg, hreg, -⟩ := h
  have hlone := State.lone_atTarget hf hl (wreq u rel v.toNat)
  refine State.direct_of_reaches h' ha v.isLt ?_ (w := (s.atTarget m u.target (wreq u rel v.toNat)).setStage m u.target
      (some (u.base + rel, v, s.clock))) ⟨hlone.one, hlone.owed, hlone.lock, hlone.idle⟩
  rw [State.regStore_low (g := s.atTarget m u.target (wreq u rel v.toNat)) hreg hp fun hk => hdbg (.inl hk), BitVec.ofNat_toNat,
    BitVec.setWidth_eq]
  rfl

/-- Settles O50: each write command is the register write that it names, a register write that goes leaves its register's work, and
the claim's end is its owner's own. -/
theorem registerWritesAndClaims : Obligations.RegisterWritesAndClaims := by
  unfold Obligations.RegisterWritesAndClaims
  refine ⟨fun s m n k v u blk dbg w4 hblk hdbg hw4 => ?_, fun s x i c hc hi => ?_⟩
  · subst hblk hdbg hw4
    refine ⟨fun hn => ?_, fun hn => ?_, fun j w h => ?_, ?_, fun hk => ?_, fun hk => ?_, fun e p x => ?_, fun q => ?_, fun q g hwr hf hrot he hmay hg => ?_,
      fun hk => ?_, fun j w hn hu hj hw => ?_, fun rel q g hq hg => ?_⟩
    · have hni (r : Nat) (y : Word) : s.storeNi m n r y =
          exec (.registerWrite m { addr := niB n + r, wr := true, size := 2, data := y.setWidth 64 }) s := guardUnit_of hn _ _
      refine ⟨hni _ _, hni _ _, hni _ _, hni _ _, hni _ _, hni _ _, hni _ _, hni _ _, hni _ _, hni _ _, hni _ _, hni _ _, hni _ _,
        fun j w hj hw => ?_, fun j w hj hw => ?_⟩
      · exact guardUnit_of (by rw [hn, decide_eq_true hj, decide_eq_true hw]; rfl) _ _
      · exact guardUnit_of (by rw [hn, decide_eq_true hj, decide_eq_true hw]; rfl) _ _
    · have hni (r : Nat) (y : Word) : s.storeNi m n r y = .next s := guardUnit_off hn _ _
      exact ⟨hni _ _, hni _ _, hni _ _, hni _ _, hni _ _, hni _ _, hni _ _, hni _ _, hni _ _, hni _ _, hni _ _, hni _ _, hni _ _⟩
    · have hoff : (s.hasNi n && decide (j < 16) && decide (w < 2)) = false := by
        rcases h with h | h | h
        · rw [h, Bool.false_and, Bool.false_and]
        · rw [decide_eq_false (Nat.not_lt.mpr h), Bool.and_false, Bool.false_and]
        · rw [decide_eq_false (Nat.not_lt.mpr h), Bool.and_false]
      exact ⟨guardUnit_off hoff _ _, guardUnit_off hoff _ _⟩
    · exact ⟨rfl, rfl, rfl, rfl, rfl, rfl, rfl, rfl, rfl, rfl, rfl, rfl, rfl, rfl, rfl, rfl, rfl⟩
    · exact ⟨guardUnit_of (decide_eq_true hk) _ _, guardUnit_of (decide_eq_true hk) _ _⟩
    · exact ⟨guardUnit_off (decide_eq_false (by omega)) _ _, guardUnit_off (decide_eq_false (by omega)) _ _⟩
    · refine ⟨fun hn he hp => guardUnit_of ?_ _ _, fun h => guardUnit_off ?_ _ _⟩
      · rw [hn, decide_eq_true he, decide_eq_true hp]
        rfl
      · rcases h with h | h | h
        · rw [h, Bool.false_and, Bool.false_and]
        · rw [decide_eq_false (Nat.not_lt.mpr h), Bool.and_false, Bool.false_and]
        · rw [decide_eq_false (Nat.not_lt.mpr h), Bool.and_false]
    · refine ⟨rfl, fun h => congrArg Host.Outcome.next (State.direct_refused h _), exec_pairLowWrite_elsewhere,
        fun x hu hp => exec_pairLowWrite_of hu hp, fun c hwr hf he => ?_⟩
      obtain ⟨hd, hempty⟩ := State.direct_of_error hf he
      refine ⟨_, congrArg Host.Outcome.next (?_ : s.direct m { q with wr := true } = _), rfl, hempty⟩
      rw [← hwr]
      exact hd
    · have hexec : exec (.registerWrite m q) s = .next (s.direct m q) := by
        refine congrArg Host.Outcome.next (?_ : s.direct m { q with wr := true } = s.direct m q)
        rw [← hwr]
      rw [hexec]
      refine ⟨fun hcut => congrArg Host.Outcome.next (State.direct_of_cut hf hrot he hmay hg hcut), fun hcut => ⟨fun r hr =>
        congrArg Host.Outcome.next (State.direct_of_uncut hf hrot he hmay hg hcut r hr), fun hb hl => ?_⟩⟩
      have hfault {c : Nat} (hp : (s.atTarget m u.target q).perform m u q = (s.atTarget m u.target q, 0, c)) :
          (Host.Outcome.next (s.direct m q) : Host.Outcome State Fault Refusal) = .next (g.responded c (s.cmx.brk.contains u.target)) :=
        congrArg Host.Outcome.next (State.direct_of_fault hf hrot he hg hcut hb hl hp)
      exact ⟨fun h => hfault (State.perform_asleep h), fun h => ⟨fun ha => hfault (State.perform_misaligned h ha),
        fun hz ha h1 h2 h3 hr => hfault (State.perform_narrow h hwr hz ha h1 h2 h3 hr),
        fun hz ha hk => hfault (State.perform_readOnly h hwr hz ha hk)⟩⟩
    · refine ⟨exec_storeNi, exec_storeNi, exec_storeNi, exec_storeNi, exec_storeNi, exec_storeNi, exec_storeNi, exec_storeNi, exec_storeNi,
        exec_storeNi, exec_storeNi, exec_storeNi, exec_storeNi, exec_store rfl, exec_store rfl, exec_store rfl, fun h => ?_, exec_store rfl,
        exec_store rfl, exec_store rfl, exec_store rfl, exec_store rfl, exec_store rfl, exec_store rfl, exec_store rfl, exec_store rfl,
        exec_store rfl, exec_store rfl, exec_store rfl, exec_store rfl, exec_store rfl, fun h => ?_⟩
      · refine (guardUnit_of (decide_eq_true hk) _ _).trans ?_
        rw [Nat.add_assoc timB]
        exact exec_store rfl h
      · refine (guardUnit_of (decide_eq_true hk) _ _).trans ?_
        rw [Nat.add_assoc strB]
        exact exec_store rfl h
    · subst hu
      have hon : (s.hasNi n && decide (j < 16) && decide (w < 2)) = true := by
        rw [hn, decide_eq_true hj, decide_eq_true hw]
        rfl
      refine ⟨fun h => (guardUnit_of hon _ _).trans ?_, fun h => (guardUnit_of hon _ _).trans ?_⟩
      · rw [Nat.add_assoc (niB n), Nat.add_assoc (niB n)] at *
        exact exec_store rfl h
      · rw [Nat.add_assoc (niB n), Nat.add_assoc (niB n)] at *
        exact exec_store rfl h
    · have hq' : q = wreq u rel v.toNat := hq.trans (wreq_word u rel v).symm
      subst hg
      rw [hq']
      refine ⟨fun h => congrArg Host.Outcome.next (State.direct_goes h), fun h ha hp hr => congrArg Host.Outcome.next (State.direct_refuses h ha hp hr),
        fun h ha hp hr habs => congrArg Host.Outcome.next (State.direct_absent h ha hp hr habs), fun h ha hp => ?_⟩
      refine (exec_pairLowWrite_of (u := u) h.2.2.2.1 ?_).trans (congrArg Host.Outcome.next (State.direct_low h ha hp))
      rw [show (wreq u rel v.toNat).addr - u.base = rel from Nat.add_sub_cancel_left _ _]
      exact hp
  · subst hi
    rw [exec_claimRelease hc]
    exact ⟨fun h => congrArg Host.Outcome.next (State.claimEnd_unknown h), fun h hb => congrArg Host.Outcome.next (State.claimEnd_busy h hb),
      fun h ho => congrArg Host.Outcome.next (State.claimEnd_free h ho), fun h hk ho => congrArg Host.Outcome.next (State.claimEnd_marker h hk ho),
      fun h hk ho => congrArg Host.Outcome.next (State.claimEnd_trace h hk ho), fun h hk ho => congrArg Host.Outcome.next (State.claimEnd_timer h hk ho),
      fun h hk ho => congrArg Host.Outcome.next (State.claimEnd_reorder h hk ho),
      fun h hk ho hh => congrArg Host.Outcome.next (State.claimEnd_stage h hk ho hh)⟩

end Sys2Proof.Machine
end

section
/-! SUPPORT. What a register write puts into its word (R19, R463): a field takes what is written unless it is held, and the rest of the
state stays. -/

namespace Sys2Proof.Machine

variable {s p : State} {m rel v : Nat} {u : Un}

/-! ### The fields of one word -/

/-- Whether a write by master `m` leaves field `f` of the register at `rel` of `u` as it is. -/
abbrev State.holdsField (s : State) (m : Nat) (u : Un) (rel : Nat) (f : FSpec) : Prop :=
  f.writable = false ∨ f.acc = .wo ∨ s.guarded m u rel f = true ∨ bitAt (actBits u.kind rel) f.lo = true

/-- The word `a` with the fields of `xs` written, over the old word `w`. -/
def State.fieldsPut (s : State) (m : Nat) (u : Un) (rel v w : Nat) (xs : List FSpec) (a : Nat) : Nat :=
  xs.foldl (fun a f => if s.holdsField m u rel f then a
    else bitsPut a f.lo f.w (f.written (bitsAt w f.lo f.w) (bitsAt v f.lo f.w))) a

/-- Two places of a word that share no bit. -/
abbrev Apart (lo w lo' w' : Nat) : Prop := lo + w ≤ lo' ∨ lo' + w' ≤ lo

theorem bitsAt_bitsPut_apart (v x : Nat) {lo w lo' w' : Nat} (h : Apart lo w lo' w') :
    bitsAt (bitsPut v lo w x) lo' w' = bitsAt v lo' w' := by
  rcases h with h | h
  · exact bitsAt_bitsPut_above _ _ _ _ _ _ h
  · exact bitsAt_bitsPut_below _ _ _ _ _ _ h

/-- Bits that no written field covers stay. -/
theorem State.bitsAt_fieldsPut_kept (old : Nat) {lo w : Nat} (xs : List FSpec)
    (h : ∀ f ∈ xs, s.holdsField m u rel f ∨ Apart f.lo f.w lo w) :
    ∀ a, bitsAt (s.fieldsPut m u rel v old xs a) lo w = bitsAt a lo w := by
  induction xs with
  | nil => exact fun _ => rfl
  | cons f r ih =>
    intro a
    have hr := ih fun f' hf' => h f' (List.mem_cons_of_mem _ hf')
    have hcons : s.fieldsPut m u rel v old (f :: r) a = s.fieldsPut m u rel v old r
        (s.fieldsPut m u rel v old [f] a) := rfl
    rw [hcons, hr]
    simp only [State.fieldsPut, List.foldl_cons, List.foldl_nil]
    split
    · rfl
    · next hn => exact bitsAt_bitsPut_apart _ _ ((h f List.mem_cons_self).resolve_left hn)

/-- A field that is not held takes what is written. -/
theorem State.bitsAt_fieldsPut_put (old : Nat) {f : FSpec} (hh : ¬ s.holdsField m u rel f) (xs : List FSpec) (hm : f ∈ xs)
    (hd : ∀ f' ∈ xs, f' = f ∨ Apart f'.lo f'.w f.lo f.w) :
    ∀ a, bitsAt (s.fieldsPut m u rel v old xs a) f.lo f.w = f.written (bitsAt old f.lo f.w) (bitsAt v f.lo f.w) % 2 ^ f.w := by
  induction xs with
  | nil => exact absurd hm List.not_mem_nil
  | cons x r ih =>
    intro a
    have hcons : s.fieldsPut m u rel v old (x :: r) a = s.fieldsPut m u rel v old r (s.fieldsPut m u rel v old [x] a) := rfl
    rw [hcons]
    by_cases hr : f ∈ r
    · exact ih hr (fun f' hf' => hd f' (List.mem_cons_of_mem _ hf')) _
    · have hx : f = x := (List.mem_cons.mp hm).resolve_right hr
      rw [State.bitsAt_fieldsPut_kept old r fun f' hf' => .inr ((hd f' (List.mem_cons_of_mem _ hf')).resolve_left fun e => hr (e ▸ hf'))]
      subst hx
      simp only [State.fieldsPut, List.foldl_cons, List.foldl_nil, if_neg hh]
      exact bitsAt_bitsPut_same _ _ _ _

theorem State.fieldsPut_lt (old : Nat) (xs : List FSpec) (h : ∀ f ∈ xs, f.lo + f.w ≤ 32) :
    ∀ a, a < 2 ^ 32 → s.fieldsPut m u rel v old xs a < 2 ^ 32 := by
  induction xs with
  | nil => exact fun _ ha => ha
  | cons f r ih =>
    intro a ha
    have hcons : s.fieldsPut m u rel v old (f :: r) a = s.fieldsPut m u rel v old r (s.fieldsPut m u rel v old [f] a) := rfl
    rw [hcons]
    refine ih (fun f' hf' => h f' (List.mem_cons_of_mem _ hf')) _ ?_
    simp only [State.fieldsPut, List.foldl_cons, List.foldl_nil]
    split
    · exact ha
    · exact bitsPut_lt _ _ _ _ _ ha (h f List.mem_cons_self)

/-! ### The state with the word put -/

/-- `p` is `s` but for the word at `o` and the Control Matrix. -/
structure State.WordPut (s : State) (o : Nat) (p : State) : Prop where
  rest : { p with csr := s.csr, cmx := s.cmx } = s
  word : ∀ o', o' ≠ o → p.word o' = s.word o'

namespace State.WordPut

variable {o : Nat} (h : s.WordPut o p)
include h

theorem rd {b : Nat} {f : Fld} (ho : b + f.off ≠ o) : p.rd b f = s.rd b f := by
  rw [State.rd, h.word _ ho, State.rd]

theorem flag {b : Nat} {f : Fld} (ho : b + f.off ≠ o) : p.flag b f = s.flag b f := by
  rw [State.flag, h.rd ho, State.flag]

theorem word64 {o' : Nat} (h1 : o' ≠ o) (h2 : o' + 4 ≠ o) : p.word64 o' = s.word64 o' := by
  rw [State.word64, h.word _ h1, h.word _ h2, State.word64]

theorem nis : p.nis = s.nis :=
  have e := congrArg State.nis h.rest
  e

theorem ni (n : Nat) : p.ni n = s.ni n := by
  rw [State.ni, h.nis, State.ni]

theorem rom : p.rom = s.rom :=
  have e := congrArg State.rom h.rest
  e

theorem clock : p.clock = s.clock :=
  have e := congrArg State.clock h.rest
  e

theorem claimAt : p.claimAt = s.claimAt :=
  have e := congrArg State.claimAt h.rest
  e

theorem time : p.time = s.time :=
  have e := congrArg State.time h.rest
  e

theorem starter : p.starter = s.starter :=
  have e := congrArg State.starter h.rest
  e

end State.WordPut

/-- The row of the register at `rel` of unit `u`. -/
abbrev Un.row (u : Un) (rel : Nat) (x : RSpec) : Prop := specAt rel (regsOf u.kind) = some x

theorem State.putReg_eq {x : RSpec} (hx : u.row rel x) : s.putReg m u rel v = s.setWord (u.base + rel) (BitVec.ofNat 32
    (s.fieldsPut m u rel v (s.word (u.base + rel)).toNat x.fields (s.word (u.base + rel)).toNat)) := by
  unfold State.putReg
  simp only [hx]
  rfl

theorem State.wordPut_putReg (s : State) (m : Nat) (u : Un) (rel v : Nat) : s.WordPut (u.base + rel) (s.putReg m u rel v) := by
  unfold State.putReg
  split
  · exact ⟨rfl, fun _ _ => rfl⟩
  · exact ⟨rfl, fun _ ho => s.word_setWord_ne _ ho⟩

/-- Of the fields of a row, those that a write may change keep clear of bits `lo` to `lo + w` of its word. -/
abbrev RSpec.spares (x : RSpec) (hold lo w : Nat) : Prop :=
  x.fields.all (fun f => f.acc == .ro || f.acc == .ros || f.acc == .wo || bitAt hold f.lo || decide (Apart f.lo f.w lo w)) = true
    ∧ x.fields.all (fun f => decide (f.lo + f.w ≤ 32)) = true

theorem State.rd_putReg_kept {x : RSpec} {f : Fld} (hx : u.row rel x) (hf : f.off = rel) (hs : x.spares (actBits u.kind rel) f.lo f.w) :
    (s.putReg m u rel v).rd u.base f = s.rd u.base f := by
  obtain ⟨hs, hlt⟩ := hs
  rw [List.all_eq_true] at hs hlt
  have hw := State.fieldsPut_lt (s := s) (m := m) (u := u) (rel := rel) (v := v) (s.word (u.base + rel)).toNat x.fields
    (fun g hg => of_decide_eq_true (hlt g hg)) _ (s.word (u.base + rel)).isLt
  rw [State.putReg_eq hx, State.rd, hf, State.word_setWord_same, BitVec.toNat_ofNat, Nat.mod_eq_of_lt hw,
    State.bitsAt_fieldsPut_kept, State.rd, hf]
  intro g hg
  have h := hs g hg
  simp only [Bool.or_eq_true, beq_iff_eq, decide_eq_true_eq] at h
  rcases h with (((h | h) | h) | h) | h
  · exact .inl (.inl (by rw [FSpec.writable, h]; rfl))
  · exact .inl (.inl (by rw [FSpec.writable, h]; rfl))
  · exact .inl (.inr (.inl h))
  · exact .inl (.inr (.inr (.inr h)))
  · exact .inr h

/-- Of the fields of a row, the others keep clear of `f`. -/
abbrev RSpec.has (x : RSpec) (f : FSpec) : Prop :=
  f ∈ x.fields ∧ x.fields.all (fun g => g == f || decide (Apart g.lo g.w f.lo f.w)) = true
    ∧ x.fields.all (fun f => decide (f.lo + f.w ≤ 32)) = true

theorem State.rd_putReg_put {x : RSpec} {f : Fld} {g : FSpec} (hx : u.row rel x) (hf : f.off = rel) (hlo : g.lo = f.lo) (hw : g.w = f.w)
    (hs : x.has g) (hh : ¬ s.holdsField m u rel g) :
    (s.putReg m u rel v).rd u.base f = g.written (s.rd u.base f) (bitsAt v f.lo f.w) % 2 ^ f.w := by
  obtain ⟨hm, hd, hlt⟩ := hs
  rw [List.all_eq_true] at hd hlt
  have hlt' := State.fieldsPut_lt (s := s) (m := m) (u := u) (rel := rel) (v := v) (s.word (u.base + rel)).toNat x.fields
    (fun g hg => of_decide_eq_true (hlt g hg)) _ (s.word (u.base + rel)).isLt
  rw [State.putReg_eq hx, State.rd, hf, State.word_setWord_same, BitVec.toNat_ofNat, Nat.mod_eq_of_lt hlt', ← hlo, ← hw,
    State.bitsAt_fieldsPut_put _ hh _ hm, State.rd, hf, hlo, hw]
  intro g' hg'
  have h := hd g' hg'
  simpa only [Bool.or_eq_true, beq_iff_eq, decide_eq_true_eq] using h

/-! ### What a write that goes leaves beside the Control Matrix -/

/-- The state with the word put, before the register acts. -/
def State.put (s : State) (m : Nat) (u : Un) (rel v : Nat) : State := (s.atTarget m u.target (wreq u rel v)).putReg m u rel v

theorem State.wordPut_put (s : State) (m : Nat) (u : Un) (rel v : Nat) : s.WordPut (u.base + rel) (s.put m u rel v) := by
  obtain ⟨hr, hw⟩ := (s.atTarget m u.target (wreq u rel v)).wordPut_putReg m u rel v
  refine ⟨?_, hw⟩
  have e := congrArg (fun a : State => { a with cmx := s.cmx }) hr
  exact e

/-- The register's own value before the write. -/
def State.oldView (s : State) (u : Un) (rel : Nat) (m v : Nat) : Nat := ((s.atTarget m u.target (wreq u rel v)).view u rel).toNat

/-- A write that goes, to a register without enables, leaves the work of its register and a change of the Control Matrix. -/
theorem State.wrote_acts (h : s.Goes m u rel v) (hen : ∀ r, enSrcs r u rel = []) : ∃ x : Cmx, s.wrote m u rel v =
    ((s.put m u rel v).acts m u rel v (s.oldView u rel m v)).updCmx (fun _ => x) := by
  obtain ⟨x, hx⟩ := State.wrote_eq h
  refine ⟨x, hx.trans ?_⟩
  rw [State.acted, hen]
  rfl

/-- A claim about such a write follows from the claim about its register's work, whatever the Control Matrix holds. -/
theorem exec_storeNi_acts {n : Nat} {w : Word} {P : State → Prop} (hn : s.hasNi n = true) (hu : u = niUnit n) (h : s.Goes m u rel w.toNat)
    (hen : ∀ r, enSrcs r u rel = []) (hP : ∀ x : Cmx, P (((s.put m u rel w.toNat).acts m u rel w.toNat
      (s.oldView u rel m w.toNat)).updCmx (fun _ => x))) :
    ∃ t : State, s.storeNi m n rel w = .next t ∧ P t := by
  obtain ⟨x, hx⟩ := State.wrote_acts h hen
  exact ⟨_, (exec_storeNi hn hu h).trans (congrArg Host.Outcome.next hx), hP x⟩

theorem exec_store_acts {b : Nat} {w : Word} {P : State → Prop} (hb : u.base = b) (h : s.Goes m u rel w.toNat)
    (hen : ∀ r, enSrcs r u rel = []) (hP : ∀ x : Cmx, P (((s.put m u rel w.toNat).acts m u rel w.toNat
      (s.oldView u rel m w.toNat)).updCmx (fun _ => x))) :
    ∃ t : State, (Host.Outcome.next (s.store m (b + rel) w) : Host.Outcome State Fault Refusal) = .next t ∧ P t := by
  obtain ⟨x, hx⟩ := State.wrote_acts h hen
  exact ⟨_, (exec_store hb h).trans (congrArg Host.Outcome.next hx), hP x⟩

end Sys2Proof.Machine
end

section
/-! SUPPORT. What writes to an NI's registers do (R202, R223, R246, R247, R264, R278 to R284, R407, R430 to R433), and the pins that gate
markers claim (R282, R498 to R500). -/

namespace Sys2Proof.Machine

variable {s p : State} {n : Nat}

theorem State.ni_of_wr (s : State) (b : Nat) (f : Fld) (v n : Nat) : (s.wr b f v).ni n = s.ni n := rfl

theorem State.flag_wr_same (s : State) (b : Nat) (f : Fld) (v : Nat) (h : f.lo + f.w ≤ 32) : (s.wr b f v).flag b f = (v % 2 ^ f.w == 1) := by
  rw [State.flag, State.rd_wr_same _ _ _ _ h]

theorem State.flag_wr_ne (s : State) (b b' : Nat) (f f' : Fld) (v : Nat) (h : b' + f'.off ≠ b + f.off) : (s.wr b f v).flag b' f' = s.flag b' f' := by
  rw [State.flag, State.rd_wr_ne _ _ _ _ _ _ h, State.flag]

theorem State.flag_wr_apart (s : State) (b : Nat) (f f' : Fld) (v : Nat) (ho : f'.off = f.off) (h : f.lo + f.w ≤ 32)
    (hd : f.lo + f.w ≤ f'.lo ∨ f'.lo + f'.w ≤ f.lo) : (s.wr b f v).flag b f' = s.flag b f' := by
  rw [State.flag, State.rd_wr_apart _ _ _ _ _ ho h hd, State.flag]

/-! ### Late histogram and queues (R246, R247, R264, R284) -/

theorem State.word_histEn (s : State) (n : Nat) (b : Bool) {o : Nat} (h : o ≠ niB n + 0x404) : (s.histEn n b).word o = s.word o := by
  unfold State.histEn
  dsimp only
  split
  · split
    · exact s.word_wr_ne _ _ _ h
    · split
      · exact s.word_wr_ne _ _ _ h
      · exact (s.noteClaim (timerRes n)).word_wr_ne _ _ _ h
  · exact s.word_wr_ne _ _ _ h

theorem State.histEn_off (s : State) (n : Nat) : (s.histEn n false).flag (niB n) F.NI_LATE_CFG_HIST_EN = false
    ∧ ((s.histEn n false).ni n).timer = (s.ni n).timer ∧ ((s.histEn n false).ni n).histRel = decide ((s.ni n).timer = 2) := by
  have h : s.histEn n false = (s.wr (niB n) F.NI_LATE_CFG_HIST_EN 0).updNi n (fun x => { x with histRel := x.timer == 2 }) := rfl
  rw [h, State.ni_updNi_same]
  exact ⟨s.flag_wr_same _ _ _ (by decide), rfl, beq_eq_decide _ _⟩

theorem State.histEn_on (s : State) (n : Nat) : (s.histEn n true).flag (niB n) F.NI_LATE_CFG_HIST_EN = decide ((s.ni n).timer ≠ 1)
    ∧ ((s.histEn n true).ni n).timer = (if (s.ni n).timer = 1 then 1 else 2) := by
  by_cases h1 : (s.ni n).timer = 1
  · have e : s.histEn n true = s.wr (niB n) F.NI_LATE_CFG_HIST_EN 0 := by
      unfold State.histEn
      rw [if_pos rfl]
      exact if_pos h1
    rw [e, if_pos h1, decide_eq_false (not_not_intro h1)]
    exact ⟨s.flag_wr_same _ _ _ (by decide), h1⟩
  · obtain ⟨a, ha⟩ : ∃ a : State, s.histEn n true = (a.wr (niB n) F.NI_LATE_CFG_HIST_EN 1).updNi n (fun x =>
        { x with timer := 2, histRel := false }) := by
      unfold State.histEn
      rw [if_pos rfl, if_neg h1]
      exact ⟨_, rfl⟩
    rw [ha, if_neg h1, decide_eq_true h1, State.ni_updNi_same]
    exact ⟨a.flag_wr_same _ _ _ (by decide), rfl⟩

theorem State.qShare_spec (s : State) (n q quantum depth : Nat) : ((s.qShare n q quantum depth).ni n).q q =
    (if ((s.ni n).q q).pkts.isEmpty then ({ (s.ni n).q q with pend := some (quantum, depth) } : Queue).refill
      else { (s.ni n).q q with pend := some (quantum, depth) }) := by
  rw [State.qShare, State.ni_updNi_same, NiSt.q_setQ_same]

/-! ### Pins (R282, R500) -/

/-- The words of pins' claims, and what an NI's marker enable is. -/
abbrev OffPin (o : Nat) : Prop := strB + 0x310 ≤ o ∧ o < timB ∨ timB + 0xA0 ≤ o ∧ o < dbgB ∨ dbgB + 0x14 ≤ o

theorem State.word_setPin (s : State) {k o : Nat} (owner ni : Nat) (hk : k < 4) (h : OffPin o) : (s.setPin k owner ni).word o = s.word o := by
  have hstr : ∀ (a : State) (f : Fld) (v : Nat), f.off = 0x300 → f.stride = 4 → (a.wr strB (f.ix k) v).word o = a.word o :=
    fun a f v h1 h2 => a.word_wr_ne _ _ _ (by
      show o ≠ 0x10000 + (f.off + f.stride * k)
      rw [h1, h2]
      simp only [OffPin, strB, timB, dbgB] at h
      omega)
  have htim : ∀ (a : State) (f : Fld) (v : Nat), f.off = 0x80 → f.stride = 8 → (a.wr timB (f.ix k) v).word o = a.word o :=
    fun a f v h1 h2 => a.word_wr_ne _ _ _ (by
      show o ≠ 0x20000 + (f.off + f.stride * k)
      rw [h1, h2]
      simp only [OffPin, strB, timB, dbgB] at h
      omega)
  rw [State.setPin, htim _ _ _ rfl rfl, htim _ _ _ rfl rfl, hstr _ _ _ rfl rfl, hstr _ _ _ rfl rfl]

theorem State.nis_setPin (s : State) (k owner ni : Nat) : (s.setPin k owner ni).nis = s.nis := rfl

theorem State.pinNi_setPin_ne (s : State) {k j : Nat} (owner ni : Nat) (hj : j < 4) (h : j ≠ k) :
    (s.setPin k owner ni).pinNi j = s.pinNi j := by
  have hstr : ∀ (a : State) (f : Fld) (v : Nat), f.off = 0x300 → f.stride = 4 →
      (a.wr strB (f.ix k) v).rd strB (F.STR_CLAIM_PIN_NI.ix j) = a.rd strB (F.STR_CLAIM_PIN_NI.ix j) := fun a f v h1 h2 =>
    a.rd_wr_ne _ _ _ _ _ (by
      show 0x10000 + (0x300 + 4 * j) ≠ 0x10000 + (f.off + f.stride * k)
      rw [h1, h2]
      omega)
  have htim : ∀ (a : State) (f : Fld) (v : Nat),
      (a.wr timB f v).rd strB (F.STR_CLAIM_PIN_NI.ix j) = a.rd strB (F.STR_CLAIM_PIN_NI.ix j) := fun a f v =>
    a.rd_wr_ne _ _ _ _ _ (by
      show 0x10000 + (0x300 + 4 * j) ≠ 0x20000 + f.off
      omega)
  rw [State.pinNi, State.pinNi, State.setPin, htim, htim, hstr _ _ _ rfl rfl, hstr _ _ _ rfl rfl]

theorem State.pinNi_setPin_same (s : State) {k : Nat} (hk : k < 4) (owner : Nat) {ni : Nat} (h : ni < 256) :
    (s.setPin k owner ni).pinNi k = ni := by
  have htim : ∀ (a : State) (f : Fld) (v : Nat),
      (a.wr timB f v).rd strB (F.STR_CLAIM_PIN_NI.ix k) = a.rd strB (F.STR_CLAIM_PIN_NI.ix k) := fun a f v =>
    a.rd_wr_ne _ _ _ _ _ (by
      show 0x10000 + (0x300 + 4 * k) ≠ 0x20000 + f.off
      omega)
  rw [State.pinNi, State.setPin, htim, htim, State.rd_wr_same _ strB (F.STR_CLAIM_PIN_NI.ix k) _ (show 8 + 8 ≤ 32 by decide)]
  exact Nat.mod_eq_of_lt h

theorem State.word_freePin (s : State) {k o : Nat} (owner : Nat) (hk : k < 4) (h : OffPin o) : (s.freePin k owner).word o = s.word o := by
  unfold State.freePin
  split
  · exact s.word_setPin 0 0 hk h
  · rfl

theorem State.nis_freePin (s : State) (k owner : Nat) : (s.freePin k owner).nis = s.nis := by
  unfold State.freePin
  split
  · exact s.nis_setPin k 0 0
  · rfl

theorem State.freePin_other (s : State) {k j : Nat} (owner : Nat) (hj : j < 4) (h : j ≠ k) :
    (s.freePin k owner).pinOwner j = s.pinOwner j ∧ (s.freePin k owner).pinNi j = s.pinNi j := by
  unfold State.freePin
  split
  · exact ⟨s.pinOwner_setPin_ne 0 0 hj h, s.pinNi_setPin_ne 0 0 hj h⟩
  · exact ⟨rfl, rfl⟩

theorem State.freePin_same (s : State) {k : Nat} (owner : Nat) (hk : k < 4) :
    (s.freePin k owner).pinOwner k = (if s.pinOwner k = owner then 0 else s.pinOwner k) := by
  unfold State.freePin
  split
  · exact s.pinOwner_setPin_same hk 0 (by decide)
  · rfl

/-! ### Gate markers (R282) -/

/-- The pins that carry NI `n`'s markers, freed. -/
def State.unmarked (s : State) (n : Nat) : State := forAll 4 (fun k a => if a.pinNi k = n then a.freePin k 3 else a) s

/-- What the round over the pins has done before pin `m`: those below are freed, the others stand. -/
def State.UnmarkedTo (s : State) (n m : Nat) (a : State) : Prop :=
  (∀ o, OffPin o → a.word o = s.word o) ∧ a.nis = s.nis
    ∧ ∀ k, k < 4 → (k < m → s.pinOwner k = 3 → s.pinNi k = n → a.pinOwner k = 0)
      ∧ (m ≤ k → a.pinOwner k = s.pinOwner k ∧ a.pinNi k = s.pinNi k)

theorem State.unmarkedTo_step {m : Nat} {a : State} (hm : m < 4) (h : s.UnmarkedTo n m a) :
    s.UnmarkedTo n (m + 1) (if a.pinNi m = n then a.freePin m 3 else a) := by
  obtain ⟨hw, hn, hk⟩ := h
  split
  next hni =>
    refine ⟨fun o ho => (a.word_freePin 3 hm ho).trans (hw o ho), ?_, fun k hk4 => ?_⟩
    · exact (a.nis_freePin m 3).trans hn
    obtain ⟨hlow, hhigh⟩ := hk k hk4
    by_cases hkm : k = m
    · subst hkm
      obtain ⟨ho, -⟩ := hhigh (Nat.le_refl k)
      exact ⟨fun _ h3 _ => (a.freePin_same 3 hk4).trans (if_pos (ho.trans h3)), fun hle => absurd hle (Nat.not_succ_le_self k)⟩
    · obtain ⟨ho, hi⟩ := a.freePin_other 3 hk4 hkm
      exact ⟨fun hlt h3 hj => ho.trans (hlow (by omega) h3 hj), fun hle => ⟨ho.trans (hhigh (by omega)).1, hi.trans (hhigh (by omega)).2⟩⟩
  next hni =>
    refine ⟨hw, hn, fun k hk4 => ?_⟩
    obtain ⟨hlow, hhigh⟩ := hk k hk4
    refine ⟨fun hlt h3 hj => ?_, fun hle => hhigh (by omega)⟩
    by_cases hkm : k = m
    · subst hkm
      exact absurd ((hhigh (Nat.le_refl k)).2.trans hj) hni
    · exact hlow (by omega) h3 hj

theorem State.unmarked_spec (s : State) (n : Nat) : s.UnmarkedTo n 4 (s.unmarked n) := by
  have h : ∀ m, m ≤ 4 → s.UnmarkedTo n m (forAll m (fun k a => if a.pinNi k = n then a.freePin k 3 else a) s) := by
    intro m
    induction m with
    | zero => exact fun _ => ⟨fun _ _ => rfl, rfl, fun k _ => ⟨fun h => absurd h (Nat.not_lt_zero k), fun _ => ⟨rfl, rfl⟩⟩⟩
    | succ m ih =>
      intro hm
      rw [forAll_succ]
      exact State.unmarkedTo_step (by omega) (ih (by omega))
  exact h 4 (Nat.le_refl 4)

theorem State.markEn_off (s : State) (n : Nat) : s.markEn n false = (s.unmarked n).wr (niB n) F.NI_GATE_CTL_MARK_EN 0 := rfl

/-- Markers that are switched off leave their pins. -/
theorem State.pin_wr_ni (s : State) (n v : Nat) (f : Fld) {k : Nat} (hk : k < 4) : (s.wr (niB n) f v).pinOwner k = s.pinOwner k
    ∧ (s.wr (niB n) f v).pinNi k = s.pinNi k := by
  have h : (s.wr (niB n) f v).word (0x10000 + (0x300 + 4 * k)) = s.word (0x10000 + (0x300 + 4 * k)) :=
    s.word_wr_ne _ _ _ (by simp only [niB]; omega)
  exact ⟨congrArg (fun w : BitVec 32 => bitsAt w.toNat 0 3) h, congrArg (fun w : BitVec 32 => bitsAt w.toNat 8 8) h⟩

theorem State.markEn_off_spec (s : State) (n : Nat) : (s.markEn n false).flag (niB n) F.NI_GATE_CTL_MARK_EN = false
    ∧ ∀ k, k < 4 → s.pinOwner k = 3 → s.pinNi k = n → (s.markEn n false).pinOwner k = 0 := by
  rw [State.markEn_off]
  refine ⟨State.flag_wr_same _ _ _ _ (by decide), fun k hk h3 hn => ?_⟩
  exact ((s.unmarked n).pin_wr_ni n 0 _ hk).1.trans (((s.unmarked_spec n).2.2 k hk).1 hk h3 hn)

theorem State.claimPin_of_free {k : Nat} (h : s.pinOwner k = 0) (owner ni : Nat) : s.claimPin k owner ni = (s.setPin k owner ni).noteClaim k := by
  rw [State.claimPin, h]
  rfl

/-- Markers that are switched on take a pin that no one owns. -/
theorem State.markEn_on_spec {k : Nat} (hk : s.rd (niB n) F.NI_GATE_CTL_MARK_PIN = k) (he : s.flag (niB n) F.NI_GATE_CTL_MARK_EN = false)
    (ho : s.pinOwner k = 0) (hn : n < 256) : (s.markEn n true).flag (niB n) F.NI_GATE_CTL_MARK_EN = true
      ∧ (s.markEn n true).pinOwner k = 3 ∧ (s.markEn n true).pinNi k = n := by
  have hk4 : k < 4 := lt_of_eq_of_lt hk.symm (s.rd_lt (niB n) F.NI_GATE_CTL_MARK_PIN)
  have hfree : s.pinFree k 3 n = true := by rw [State.pinFree, ho]; rfl
  have h : s.markEn n true = ((s.setPin k 3 n).noteClaim k).wr (niB n) F.NI_GATE_CTL_MARK_EN 1 := by
    unfold State.markEn
    rw [if_pos rfl, if_neg (by rw [he]; decide), hk, if_pos hfree, State.claimPin_of_free ho]
  have hnote (a : State) : (a.noteClaim k).pinOwner k = a.pinOwner k ∧ (a.noteClaim k).pinNi k = a.pinNi k := ⟨rfl, rfl⟩
  have howner := (hnote (s.setPin k 3 n)).1.trans (s.pinOwner_setPin_same hk4 n (by decide))
  have hni := (hnote (s.setPin k 3 n)).2.trans (s.pinNi_setPin_same hk4 3 hn)
  rw [h]
  generalize (s.setPin k 3 n).noteClaim k = a at howner hni
  obtain ⟨h1, h2⟩ := a.pin_wr_ni n 1 F.NI_GATE_CTL_MARK_EN hk4
  exact ⟨a.flag_wr_same _ _ _ (by decide), h1.trans howner, h2.trans hni⟩

theorem State.markEn_taken {k : Nat} (hk : s.rd (niB n) F.NI_GATE_CTL_MARK_PIN = k) (h : s.pinFree k 3 n = false) : s.markEn n true = s := by
  unfold State.markEn
  rw [if_pos rfl, hk, h]
  exact ite_self s

theorem State.word_markEn_ne (s : State) (n j v r : Nat) (hr : r < 0x4000) (h7 : r ≠ 0x700) :
    (s.wr (niB j) F.NI_GATE_CTL_MARK_EN v).word (niB n + r) = s.word (niB n + r) :=
  s.word_wr_ne _ _ _ (by
    show niB n + r ≠ niB j + 0x700
    simp only [niB]
    omega)

/-- A gate marker's claim changes claims and the enables that it ends. -/
theorem State.claimPin_kept (s : State) (n : Nat) {k : Nat} (hk : k < 4) : (s.claimPin k 3 n).nis = s.nis
    ∧ ∀ r, r < 0x4000 → r ≠ 0x700 → (s.claimPin k 3 n).word (niB n + r) = s.word (niB n + r) := by
  have hnote (a : State) : (a.noteClaim k).nis = a.nis ∧ ∀ o, (a.noteClaim k).word o = a.word o := ⟨rfl, fun _ => rfl⟩
  have hclaim (a : State) : ((a.setPin k 3 n).noteClaim k).nis = a.nis
      ∧ ∀ r, ((a.setPin k 3 n).noteClaim k).word (niB n + r) = a.word (niB n + r) :=
    ⟨(hnote _).1.trans (a.nis_setPin k 3 n),
      fun r => ((hnote _).2 _).trans (a.word_setPin 3 n hk (.inr (.inr (by simp only [dbgB, niB]; omega))))⟩
  unfold State.claimPin
  dsimp only
  split
  · exact ⟨(hclaim _).1, fun r hr h7 => ((hclaim _).2 r).trans (s.word_markEn_ne n _ 0 r hr h7)⟩
  · exact ⟨(hclaim _).1, fun r _ _ => ((hclaim _).2 r).trans (s.word_wr_ne _ _ _ (by
      show niB n + r ≠ dbgB + 0x10
      simp only [niB, dbgB]
      omega))⟩
  · exact ⟨(hclaim s).1, fun r _ _ => (hclaim s).2 r⟩

/-- A marker enable changes claims and marker enables only. -/
theorem State.markEn_kept (s : State) (n : Nat) (b : Bool) : (s.markEn n b).nis = s.nis
    ∧ ∀ r, r < 0x4000 → r ≠ 0x700 → (s.markEn n b).word (niB n + r) = s.word (niB n + r) := by
  have hni (a : State) := a.word_markEn_ne n
  have hoff (r : Nat) : OffPin (niB n + r) := .inr (.inr (by simp only [dbgB, niB]; omega))
  cases b with
  | false =>
    rw [State.markEn_off]
    obtain ⟨hw, hn, -⟩ := s.unmarked_spec n
    exact ⟨hn, fun r hr h7 => (hni _ n 0 r hr h7).trans (hw _ (hoff r))⟩
  | true =>
    unfold State.markEn
    rw [if_pos rfl]
    split
    · exact ⟨rfl, fun _ _ _ => rfl⟩
    · split
      · have hk4 := s.rd_lt (niB n) F.NI_GATE_CTL_MARK_PIN
        generalize s.rd (niB n) F.NI_GATE_CTL_MARK_PIN = k at hk4
        obtain ⟨hc, hw⟩ := s.claimPin_kept n hk4
        exact ⟨hc, fun r hr h7 => (hni _ n 1 r hr h7).trans (hw r hr h7)⟩
      · exact ⟨rfl, fun _ _ _ => rfl⟩

/-! ### Gate lists (R278 to R280) -/

theorem State.gateSwap_pending {t : Nat} (h : s.flag (niB n) F.NI_GATE_STAT_PENDING = true) : s.gateSwap n t = s := if_pos h

theorem State.gateSwap_starts {t : Nat} (h : s.flag (niB n) F.NI_GATE_STAT_PENDING = false) (hc : s.gateCheck n = 0) :
    (s.gateSwap n t).flag (niB n) F.NI_GATE_STAT_PENDING = true ∧ ((s.gateSwap n t).ni n).gatePend = some (s.gateStart n t) := by
  have e : s.gateSwap n t = (s.wr (niB n) F.NI_GATE_STAT_PENDING 1).updNi n (fun x => { x with gatePend := some (s.gateStart n t) }) := by
    unfold State.gateSwap
    dsimp only
    rw [if_neg (by rw [h]; decide), if_neg (not_not_intro hc)]
  rw [e, State.ni_updNi_same]
  exact ⟨s.flag_wr_same _ _ _ (by decide), rfl⟩

theorem gateCheck_lt (s : State) (n : Nat) : s.gateCheck n < 16 := by
  unfold State.gateCheck
  dsimp only
  split_ifs <;> decide

theorem State.gateSwap_fails {t : Nat} (h : s.flag (niB n) F.NI_GATE_STAT_PENDING = false) (hc : s.gateCheck n ≠ 0) :
    (s.gateSwap n t).flag (niB n) F.NI_GATE_STAT_PENDING = false ∧ (s.gateSwap n t).flag (niB n) F.NI_GATE_STAT_SWAP_ERR = true
      ∧ (s.gateSwap n t).rd (niB n) F.NI_GATE_STAT_ERR_CODE = s.gateCheck n := by
  have e : s.gateSwap n t = ((s.wr (niB n) F.NI_GATE_STAT_SWAP_ERR 1).wr (niB n) F.NI_GATE_STAT_ERR_CODE (s.gateCheck n)).alert n 7 := by
    unfold State.gateSwap
    dsimp only
    rw [if_neg (by rw [h]; decide), if_pos hc]
  have hcode := gateCheck_lt s n
  rw [e]
  generalize s.gateCheck n = c at hcode ⊢
  have hk (a : State) (f : Fld) (hf : f.off = 0x708) : (a.alert n 7).rd (niB n) f = a.rd (niB n) f := by
    have hoff : OffEvt (niB n + f.off) := .inr (by simp only [niB, evtB]; omega)
    rw [State.alert, (State.keepsAt_raise a (srcAlert n) 7).rd hoff]
    exact a.rd_wr_ne _ _ _ _ _ (by rw [hf]; simp only [srcAlert]; omega)
  refine ⟨?_, ?_, ?_⟩
  · rw [State.flag, hk _ _ rfl, State.rd_wr_apart _ (niB n) F.NI_GATE_STAT_ERR_CODE F.NI_GATE_STAT_PENDING _ rfl (by decide) (by decide),
      State.rd_wr_apart _ (niB n) F.NI_GATE_STAT_SWAP_ERR F.NI_GATE_STAT_PENDING _ rfl (by decide) (by decide)]
    exact h
  · rw [State.flag, hk _ _ rfl, State.rd_wr_apart _ (niB n) F.NI_GATE_STAT_ERR_CODE F.NI_GATE_STAT_SWAP_ERR _ rfl (by decide) (by decide),
      State.rd_wr_same _ (niB n) F.NI_GATE_STAT_SWAP_ERR _ (by decide)]
    rfl
  · rw [hk _ _ rfl, State.rd_wr_same _ (niB n) F.NI_GATE_STAT_ERR_CODE _ (by decide)]
    exact Nat.mod_eq_of_lt hcode

theorem State.gateCancel_spec (s : State) (n : Nat) : (s.gateCancel n).flag (niB n) F.NI_GATE_STAT_PENDING = false
    ∧ ((s.gateCancel n).ni n).gatePend = none := by
  rw [State.gateCancel, State.ni_updNi_same]
  exact ⟨s.flag_wr_same _ _ _ (by decide), rfl⟩

/-- What a gate list is checked against does not stand in NI.GATE_CTL. -/
theorem State.WordPut.gates (h : s.WordPut (niB n + 0x700) p) : p.gateCheck n = s.gateCheck n
    ∧ (∀ t, p.gateStart n t = s.gateStart n t) ∧ p.wholeNs p.rootStamp = s.wholeNs s.rootStamp := by
  have hrd (f : Fld) (hf : f.off ≠ 0x700) : p.rd (niB n) f = s.rd (niB n) f := h.rd fun e => hf (Nat.add_left_cancel e)
  have hbank (len : Nat) : p.gateBank n 0x3000 len = s.gateBank n 0x3000 len := by
    unfold State.gateBank
    refine List.map_congr_left fun i _ => ?_
    rw [h.word _ (by omega), h.word _ (by omega)]
  have hlen : p.admLen n = s.admLen n := hrd _ (by decide)
  have hcyc : p.admCycle n = s.admCycle n := hrd _ (by decide)
  have hok : p.niTimeOk n = s.niTimeOk n := by rw [State.niTimeOk, State.flag, hrd _ (by decide), State.niTimeOk, State.flag]
  have hbase : p.word64 (niB n + 0x710) = s.word64 (niB n + 0x710) := h.word64 (by omega) (by omega)
  have hep : p.epoch = s.epoch := by
    rw [State.epoch, State.rd64, h.rd (by simp only [niB, timB]; omega), h.rd (by simp only [niB, timB]; omega), State.epoch, State.rd64]
  refine ⟨?_, fun t => ?_, ?_⟩
  · unfold State.gateCheck
    simp only [hlen, hcyc, hbank, hok]
  · unfold State.gateStart
    rw [hbase, hcyc]
  · rw [State.wholeNs, State.wholeNs, State.rootStamp, State.rootStamp, hep, h.time]

/-! ### Reordering and migration staging (R407, R430 to R433) -/

theorem State.reorder_preempts (h2 : (s.ni n).reseqOwner = 2) (hc : s.claimedNow (reseqRes n) = true) :
    (s.reorder n true).flag (niB n) F.NI_RSQ_CTL_REORDER = true ∧ ((s.reorder n true).ni n).reseqOwner = 1
      ∧ (s.reorder n true).flag (niB n) F.NI_MIG_CTL_STAGE = false := by
  have e : s.reorder n true = ((s.updNi n (fun x => { x with reseqOwner := 1 })).wr (niB n) F.NI_RSQ_CTL_REORDER 1).wr (niB n)
      F.NI_MIG_CTL_STAGE 0 := by
    unfold State.reorder
    dsimp only
    rw [h2, hc]
    rfl
  rw [e]
  refine ⟨?_, ?_, State.flag_wr_same _ _ _ _ (by decide)⟩
  · rw [State.flag_wr_ne _ _ _ _ _ _ (by simp only; omega), State.flag_wr_same _ _ _ _ (by decide)]
    rfl
  · have hn := s.ni_updNi_same n (fun x => { x with reseqOwner := 1 })
    exact congrArg NiSt.reseqOwner hn

theorem State.reorder_claims (b : Bool) (hc : s.claimedNow (reseqRes n) = false) :
    (s.reorder n b).flag (niB n) F.NI_RSQ_CTL_REORDER = (b && (s.ni n).reseqOwner != 2)
      ∧ ((s.reorder n b).ni n).reseqOwner = (if (s.ni n).reseqOwner = 2 then 2 else b2n b) := by
  by_cases h2 : (s.ni n).reseqOwner = 2
  · have e : s.reorder n b = s.wr (niB n) F.NI_RSQ_CTL_REORDER 0 := by
      unfold State.reorder
      dsimp only
      rw [h2, hc, Bool.and_false]
      rfl
    rw [e, h2, State.flag_wr_same _ _ _ _ (by decide)]
    exact ⟨(Bool.and_false b).symm, h2⟩
  · have e : s.reorder n b = (s.updNi n (fun x => { x with reseqOwner := b2n b })).wr (niB n) F.NI_RSQ_CTL_REORDER (b2n b) := by
      unfold State.reorder
      dsimp only
      split
      · next h => exact absurd h h2
      · rfl
    have hne : ((s.ni n).reseqOwner != 2) = true := by simpa using h2
    rw [e, State.flag_wr_same _ _ _ _ (by decide), if_neg h2, hne, Bool.and_true]
    have hn := s.ni_updNi_same n (fun x => { x with reseqOwner := b2n b })
    refine ⟨?_, congrArg NiSt.reseqOwner hn⟩
    cases b with
    | false => rfl
    | true => rfl

/-- Staging claims the free resequencer (R433). -/
theorem State.migStage_claims (h : (s.ni n).reseqOwner = 0) : ((s.migStage n true).ni n).reseqOwner = 2
    ∧ (s.migStage n true).flag (niB n) F.NI_MIG_CTL_STAGE = true := by
  have e : s.migStage n true = ((s.updNi n (fun x => { x with reseqOwner := 2 })).wr (niB n) F.NI_MIG_CTL_STAGE 1).noteClaim (reseqRes n) := by
    unfold State.migStage
    rw [if_pos rfl, if_pos h]
  have hn := congrArg NiSt.reseqOwner (s.ni_updNi_same n (fun x => { x with reseqOwner := 2 }))
  have hnote (a : State) (k : Nat) : ((a.noteClaim k).ni n).reseqOwner = (a.ni n).reseqOwner
      ∧ (a.noteClaim k).flag (niB n) F.NI_MIG_CTL_STAGE = a.flag (niB n) F.NI_MIG_CTL_STAGE := ⟨rfl, rfl⟩
  rw [e, (hnote _ _).1, (hnote _ _).2]
  exact ⟨hn, State.flag_wr_same _ _ _ _ (by decide)⟩

theorem State.migStage_owned (h : (s.ni n).reseqOwner ≠ 0) : s.migStage n true = s := by
  unfold State.migStage
  rw [if_pos rfl, if_neg h]

theorem State.migStage_frees (hh : s.flag (niB n) F.NI_MIG_CTL_HOLD = false) (h : (s.ni n).reseqOwner = 2) :
    ((s.migStage n false).ni n).reseqOwner = 0 ∧ (s.migStage n false).flag (niB n) F.NI_MIG_CTL_STAGE = false := by
  have e : s.migStage n false = (s.updNi n (fun x => { x with reseqOwner := 0 })).wr (niB n) F.NI_MIG_CTL_STAGE 0 := by
    unfold State.migStage
    rw [if_neg (by decide), if_neg (by rw [hh]; decide), if_pos h]
  have hn := s.ni_updNi_same n (fun x => { x with reseqOwner := 0 })
  rw [e]
  exact ⟨congrArg NiSt.reseqOwner hn, State.flag_wr_same _ _ _ _ (by decide)⟩

/-- What the NI's staging maps and queues hold is not the resequencer's owner. -/
theorem State.ni_reseqOwner (s : State) (n k : Nat) (f : Fld) (v : Nat) :
    (((s.updNi n (fun x => { x with reseqOwner := k })).wr (niB n) f v).ni n).migA = (s.ni n).migA
    ∧ (((s.updNi n (fun x => { x with reseqOwner := k })).wr (niB n) f v).ni n).migF = (s.ni n).migF
    ∧ (((s.updNi n (fun x => { x with reseqOwner := k })).wr (niB n) f v).ni n).aqq = (s.ni n).aqq
    ∧ (((s.updNi n (fun x => { x with reseqOwner := k })).wr (niB n) f v).ni n).migHeld = (s.ni n).migHeld := by
  rw [State.ni_of_wr, State.ni_updNi_same]
  exact ⟨rfl, rfl, rfl, rfl⟩

/-- Staging changes the resequencer's owner and the bit STAGE alone. -/
theorem State.migStage_kept (s : State) (n : Nat) (b : Bool) : ((s.migStage n b).ni n).migA = (s.ni n).migA
    ∧ ((s.migStage n b).ni n).migF = (s.ni n).migF ∧ ((s.migStage n b).ni n).aqq = (s.ni n).aqq
    ∧ ((s.migStage n b).ni n).migHeld = (s.ni n).migHeld := by
  cases b with
  | true =>
    by_cases h : (s.ni n).reseqOwner = 0
    · have e : s.migStage n true = ((s.updNi n (fun x => { x with reseqOwner := 2 })).wr (niB n) F.NI_MIG_CTL_STAGE 1).noteClaim
          (reseqRes n) := if_pos h
      rw [e]
      exact s.ni_reseqOwner n 2 F.NI_MIG_CTL_STAGE 1
    · rw [State.migStage_owned h]
      exact ⟨rfl, rfl, rfl, rfl⟩
  | false =>
    unfold State.migStage
    rw [if_neg (by decide)]
    split
    · exact ⟨rfl, rfl, rfl, rfl⟩
    · split
      · exact s.ni_reseqOwner n 0 F.NI_MIG_CTL_STAGE 0
      · exact ⟨rfl, rfl, rfl, rfl⟩

theorem State.migHold_off (s : State) (n : Nat) : (s.migHold n false).flag (niB n) F.NI_MIG_CTL_HOLD = false
    ∧ ((s.migHold n false).ni n).aqq = (s.ni n).migHeld ++ (s.ni n).aqq ∧ ((s.migHold n false).ni n).migHeld = []
    ∧ ((s.migHold n false).ni n).reseqOwner = (s.ni n).reseqOwner
    ∧ (s.migHold n false).flag (niB n) F.NI_MIG_CTL_STAGE = s.flag (niB n) F.NI_MIG_CTL_STAGE := by
  have e : s.migHold n false = (s.updNi n (fun x => { x with aqq := x.migHeld ++ x.aqq, migHeld := [] })).wr (niB n) F.NI_MIG_CTL_HOLD 0 := rfl
  rw [e, State.ni_of_wr, State.ni_updNi_same]
  exact ⟨State.flag_wr_same _ _ _ _ (by decide), rfl, rfl, rfl,
    State.flag_wr_apart _ _ _ _ _ rfl (by decide) (by decide)⟩

theorem State.migHold_on (h : s.flag (niB n) F.NI_MIG_CTL_STAGE = true) : (s.migHold n true).flag (niB n) F.NI_MIG_CTL_HOLD = true := by
  unfold State.migHold
  rw [if_pos rfl]
  rw [if_pos h, State.flag_wr_same _ _ _ _ (by decide)]
  rfl

theorem State.migHold_maps (s : State) (n : Nat) (b : Bool) : ((s.migHold n b).ni n).migA = (s.ni n).migA
    ∧ ((s.migHold n b).ni n).migF = (s.ni n).migF := by
  cases b with
  | true =>
    unfold State.migHold
    rw [if_pos rfl]
    split
    · exact ⟨rfl, rfl⟩
    · exact ⟨rfl, rfl⟩
  | false =>
    have e : s.migHold n false = (s.updNi n (fun x => { x with aqq := x.migHeld ++ x.aqq, migHeld := [] })).wr (niB n) F.NI_MIG_CTL_HOLD 0 := rfl
    rw [e, State.ni_of_wr, State.ni_updNi_same]
    exact ⟨rfl, rfl⟩

theorem State.migSwap_spec (s : State) (n : Nat) : ((s.migSwap n).ni n).migF = (s.ni n).migA ∧ ((s.migSwap n).ni n).migA = 0 := by
  rw [State.migSwap, State.ni_updNi_same]
  exact ⟨rfl, rfl⟩

end Sys2Proof.Machine
end

section
/-! SUPPORT. What the writes to an NI's registers leave (R202, R223, R246, R247, R264, R278 to R284, R407, R430 to R433). -/

namespace Sys2Proof.Machine

variable {s p : State} {m n rel : Nat} {u : Un} {v : Word}

/-! ### Bits of what is written -/

theorem bitAt_or (a b : Word) (k : Nat) : bitAt (a ||| b).toNat k = (bitAt a.toNat k || bitAt b.toNat k) := by
  rw [bitAt_eq_testBit, bitAt_eq_testBit, bitAt_eq_testBit, BitVec.toNat_or, Nat.testBit_or]

theorem bitAt_of_bitsAt {x lo w c : Nat} (h : bitsAt x lo w = c) (i : Nat) (hi : i < w) : bitAt x (lo + i) = c.testBit i := by
  rw [← h, testBit_bitsAt, decide_eq_true hi, Bool.true_and, bitAt_eq_testBit]

/-! ### Fields that a write leaves or puts -/

/-- No write to the register at `rel` changes field `f` of it. -/
abbrev RowKeeps (k : UK) (rel : Nat) (f : Fld) : Prop :=
  (specAt rel (regsOf k)).any (fun x => decide (f.off = rel ∧ x.spares (actBits k rel) f.lo f.w)) = true

/-- The register at `rel` has the field `g`, which is `f`. -/
abbrev RowHas (k : UK) (rel : Nat) (f : Fld) (g : FSpec) : Prop :=
  (specAt rel (regsOf k)).any (fun x => decide (f.off = rel ∧ g.lo = f.lo ∧ g.w = f.w ∧ x.has g)) = true

theorem State.rd_put_kept {f : Fld} (h : RowKeeps u.kind rel f) (v : Nat) : (s.put m u rel v).rd u.base f = s.rd u.base f := by
  obtain ⟨x, hx, hd⟩ := (Option.any_eq_true _ _).mp h
  obtain ⟨hf, hk⟩ := of_decide_eq_true hd
  exact State.rd_putReg_kept hx hf hk

theorem State.flag_put_kept {f : Fld} (h : RowKeeps u.kind rel f) (v : Nat) : (s.put m u rel v).flag u.base f = s.flag u.base f := by
  rw [State.flag, State.rd_put_kept h, State.flag]

theorem State.rd_put_put {f : Fld} {g : FSpec} (h : RowHas u.kind rel f g) {v : Nat}
    (hh : ¬ (s.atTarget m u.target (wreq u rel v)).holdsField m u rel g) :
    (s.put m u rel v).rd u.base f = g.written (s.rd u.base f) (bitsAt v f.lo f.w) % 2 ^ f.w := by
  obtain ⟨x, hx, hd⟩ := (Option.any_eq_true _ _).mp h
  obtain ⟨hf, hlo, hw, hs⟩ := of_decide_eq_true hd
  exact State.rd_putReg_put hx hf hlo hw hs hh

/-! ### Late histogram and queues (R246, R247, R264, R284) -/

theorem exec_latMaxClr_of (hn : s.hasNi n = true) (hu : u = niUnit n) (h : s.Goes m u 0x404 (v ||| 0x100#32).toNat) :
    ∃ t : State, exec (.latMaxClr m n v) s = .next t ∧ t.rd (niB n) F.NI_LAT_MAX_VALUE = 0 := by
  subst hu
  refine exec_storeNi_acts hn rfl h (fun _ => rfl) fun x => ?_
  have hb : bitAt (v ||| 0x100#32).toNat 8 = true := by rw [bitAt_or]; exact Bool.or_true _
  generalize (v ||| 0x100#32).toNat = w at hb
  generalize s.put m (niUnit n) 0x404 w = p
  have e : p.acts m (niUnit n) 0x404 w (s.oldView (niUnit n) 0x404 m w) = (p.wr (niB n) F.NI_LAT_MAX_VALUE 0).histEn n (bitAt w 0) :=
    congrArg (fun a : State => a.histEn n (bitAt w 0)) (if_pos hb)
  have hk := (p.wr (niB n) F.NI_LAT_MAX_VALUE 0).word_histEn n (bitAt w 0) (o := niB n + 0x420) (by omega)
  have hr : ((p.wr (niB n) F.NI_LAT_MAX_VALUE 0).histEn n (bitAt w 0)).rd (niB n) F.NI_LAT_MAX_VALUE = 0 :=
    (congrArg (fun y : Word => bitsAt y.toNat 0 32) hk).trans (p.rd_wr_same (niB n) F.NI_LAT_MAX_VALUE 0 (by decide))
  rw [e]
  generalize (p.wr (niB n) F.NI_LAT_MAX_VALUE 0).histEn n (bitAt w 0) = t at hr
  exact hr

/-- A write of NI.LATE_CFG, with the maximum cleared or not, is the histogram's enable. -/
theorem State.acts_lateCfg {w : Nat} (old : Nat) (hp : p.nis = s.nis) :
    ∃ a : State, a.nis = s.nis ∧ p.acts m (niUnit n) 0x404 w old = a.histEn n (bitAt w 0) := by
  by_cases hb : bitAt w 8 = true
  · exact ⟨p.wr (niB n) F.NI_LAT_MAX_VALUE 0, hp, congrArg (fun a : State => a.histEn n (bitAt w 0)) (if_pos hb)⟩
  · exact ⟨p, hp, congrArg (fun a : State => a.histEn n (bitAt w 0)) (if_neg hb)⟩

theorem exec_histEnWrite_off (hn : s.hasNi n = true) (hu : u = niUnit n) (h : s.Goes m u 0x404 v.toNat) (hv : bitAt v.toNat 0 = false) :
    ∃ t : State, exec (.histEnWrite m n v) s = .next t ∧ t.flag (niB n) F.NI_LATE_CFG_HIST_EN = false
      ∧ (t.ni n).timer = (s.ni n).timer ∧ (t.ni n).histRel = decide ((s.ni n).timer = 2) := by
  subst hu
  refine exec_storeNi_acts hn rfl h (fun _ => rfl) fun x => ?_
  obtain ⟨a, ha, e⟩ := State.acts_lateCfg (m := m) (n := n) (w := v.toNat) (s.oldView (niUnit n) 0x404 m v.toNat)
    (s.wordPut_put m (niUnit n) 0x404 v.toNat).nis
  have hni : a.ni n = s.ni n := by rw [State.ni, ha, State.ni]
  have hr := a.histEn_off n
  rw [hni] at hr
  rw [e, hv]
  generalize a.histEn n false = t at hr
  exact hr

theorem exec_histEnWrite_on (hn : s.hasNi n = true) (hu : u = niUnit n) (h : s.Goes m u 0x404 v.toNat) (hv : bitAt v.toNat 0 = true) :
    ∃ t : State, exec (.histEnWrite m n v) s = .next t ∧ t.flag (niB n) F.NI_LATE_CFG_HIST_EN = decide ((s.ni n).timer ≠ 1)
      ∧ (t.ni n).timer = (if (s.ni n).timer = 1 then 1 else 2) := by
  subst hu
  refine exec_storeNi_acts hn rfl h (fun _ => rfl) fun x => ?_
  obtain ⟨a, ha, e⟩ := State.acts_lateCfg (m := m) (n := n) (w := v.toNat) (s.oldView (niUnit n) 0x404 m v.toNat)
    (s.wordPut_put m (niUnit n) 0x404 v.toNat).nis
  have hni : a.ni n = s.ni n := by rw [State.ni, ha, State.ni]
  have hr := a.histEn_on n
  rw [hni] at hr
  rw [e, hv]
  generalize a.histEn n true = t at hr
  exact hr

theorem State.WordPut.qSel (h : s.WordPut (niB n + rel) p) (hr : rel ≠ 0x504) : p.qSel n = s.qSel n := by
  have hq : p.rd (niB n) F.NI_Q_IDX_QUEUE = s.rd (niB n) F.NI_Q_IDX_QUEUE := h.rd fun e => hr (Nat.add_left_cancel (n := niB n) e.symm)
  rw [State.qSel, hq, h.rom, State.qSel]

theorem State.acts_qShare {q w : Nat} (old : Nat) (h : p.qSel n = some q) :
    p.acts m (niUnit n) 0x50C w old = p.qShare n q (bitsAt w 0 12) (bitsAt w 16 12) := by
  have e : p.acts m (niUnit n) 0x50C w old = p.actQueue n 0x50C w := rfl
  rw [e, State.actQueue, h]
  rfl

/-- A write of NI.Q_SHARE to a queue that is there. -/
theorem exec_qShareWrite_of {q : Nat} (hn : s.hasNi n = true) (hu : u = niUnit n) (h : s.Goes m u 0x50C v.toNat) (hq : s.qSel n = some q) :
    ∃ t : State, exec (.qShareWrite m n v) s = .next t ∧ (t.ni n).q q = (if ((s.ni n).q q).pkts.isEmpty
      then ({ (s.ni n).q q with pend := some (bitsAt v.toNat 0 12, bitsAt v.toNat 16 12) } : Queue).refill
      else { (s.ni n).q q with pend := some (bitsAt v.toNat 0 12, bitsAt v.toNat 16 12) }) := by
  subst hu
  refine exec_storeNi_acts hn rfl h (fun _ => rfl) fun x => ?_
  have hp := s.wordPut_put m (niUnit n) 0x50C v.toNat
  rw [State.acts_qShare _ ((State.WordPut.qSel hp (by decide)).trans hq)]
  have hr := (s.put m (niUnit n) 0x50C v.toNat).qShare_spec n q (bitsAt v.toNat 0 12) (bitsAt v.toNat 16 12)
  rw [hp.ni] at hr
  generalize (s.put m (niUnit n) 0x50C v.toNat).qShare n q (bitsAt v.toNat 0 12) (bitsAt v.toNat 16 12) = t at hr
  exact hr

theorem exec_qShareWrite_none (hn : s.hasNi n = true) (hu : u = niUnit n) (h : s.Goes m u 0x50C v.toNat) (hq : s.qSel n = none) :
    ∃ t : State, exec (.qShareWrite m n v) s = .next t ∧ t.ni n = s.ni n := by
  subst hu
  refine exec_storeNi_acts hn rfl h (fun _ => rfl) fun x => ?_
  have hp := s.wordPut_put m (niUnit n) 0x50C v.toNat
  have hq' := (State.WordPut.qSel hp (by decide)).trans hq
  have hni := hp.ni n
  generalize s.put m (niUnit n) 0x50C v.toNat = p at hq' hni
  have e : p.acts m (niUnit n) 0x50C v.toNat (s.oldView (niUnit n) 0x50C m v.toNat) = p := by
    have e : p.acts m (niUnit n) 0x50C v.toNat (s.oldView (niUnit n) 0x50C m v.toNat) = p.actQueue n 0x50C v.toNat := rfl
    rw [e, State.actQueue, hq']
  rw [e]
  exact hni

theorem exec_sampClr_of (hn : s.hasNi n = true) (hu : u = niUnit n) (h : s.Goes m u 0x504 (v ||| 0x80000000#32).toNat) :
    ∃ t : State, exec (.sampClr m n v) s = .next t ∧ ∀ q, t.qSel n = some q → ((t.ni n).q q).sdMax = 0 ∧ ((t.ni n).q q).dlMax = 0 := by
  subst hu
  refine exec_storeNi_acts hn rfl h (fun _ => rfl) fun x => ?_
  have hb : bitAt (v ||| 0x80000000#32).toNat 31 = true := by rw [bitAt_or]; exact Bool.or_true _
  generalize (v ||| 0x80000000#32).toNat = w at hb
  generalize s.put m (niUnit n) 0x504 w = p
  have e : p.acts m (niUnit n) 0x504 w (s.oldView (niUnit n) 0x504 m w) = p.actQueue n 0x504 w := rfl
  have hr : ∀ q, (p.actQueue n 0x504 w).qSel n = some q →
      (((p.actQueue n 0x504 w).ni n).q q).sdMax = 0 ∧ (((p.actQueue n 0x504 w).ni n).q q).dlMax = 0 := by
    cases hq : p.qSel n with
    | none =>
      have e : p.actQueue n 0x504 w = p := by rw [State.actQueue, hq]
      rw [e, hq]
      exact fun q hn => nomatch hn
    | some j =>
      have e : p.actQueue n 0x504 w = p.updNi n (fun x => x.setQ j { x.q j with sdMax := 0, dlMax := 0 }) := by
        rw [State.actQueue, hq]
        exact if_pos hb
      intro q hsel
      have hj : j = q := by
        rw [e] at hsel
        exact Option.some.inj (hq.symm.trans hsel)
      rw [e, State.ni_updNi_same, ← hj, NiSt.q_setQ_same]
      exact ⟨rfl, rfl⟩
  rw [e]
  generalize p.actQueue n 0x504 w = t at hr
  exact hr

/-! ### Gate lists and markers (R278 to R282) -/

/-- The work of a write of NI.GATE_CTL. -/
theorem State.acts_gateCtl (p : State) (m n w old : Nat) : p.acts m (niUnit n) 0x700 w old =
    (if bitAt w 1 then (if bitAt w 0 then p.gateSwap n (p.wholeNs p.rootStamp) else p).gateCancel n
      else (if bitAt w 0 then p.gateSwap n (p.wholeNs p.rootStamp) else p)).markEn n (bitAt w 8) := rfl

theorem State.acts_gateCtl_swap {w : Nat} (h0 : bitAt w 0 = true) (h1 : bitAt w 1 = false) (old : Nat) :
    p.acts m (niUnit n) 0x700 w old = (p.gateSwap n (p.wholeNs p.rootStamp)).markEn n (bitAt w 8) := by
  rw [State.acts_gateCtl, h0, h1]
  rfl

theorem State.acts_gateCtl_cancel {w : Nat} (h0 : bitAt w 0 = false) (h1 : bitAt w 1 = true) (old : Nat) :
    p.acts m (niUnit n) 0x700 w old = (p.gateCancel n).markEn n (bitAt w 8) := by
  rw [State.acts_gateCtl, h0, h1]
  rfl

theorem State.acts_gateCtl_mark {w : Nat} (h : bitsAt w 0 2 = 0) (old : Nat) :
    p.acts m (niUnit n) 0x700 w old = p.markEn n (bitAt w 8) := by
  rw [State.acts_gateCtl, bitAt_of_bitsAt (lo := 0) h 0 (by decide), bitAt_of_bitsAt (lo := 0) h 1 (by decide)]
  rfl

/-- A marker enable leaves what NI.GATE_STAT shows. -/
theorem State.rd_markEn_gateStat (s : State) (n : Nat) (b : Bool) (f : Fld) (hf : f.off = 0x708) : (s.markEn n b).rd (niB n) f = s.rd (niB n) f := by
  rw [State.rd, State.rd, hf, (s.markEn_kept n b).2 0x708 (by decide) (by decide)]

theorem State.flag_markEn_gateStat (s : State) (n : Nat) (b : Bool) (f : Fld) (hf : f.off = 0x708) :
    (s.markEn n b).flag (niB n) f = s.flag (niB n) f := by
  rw [State.flag, s.rd_markEn_gateStat n b f hf, State.flag]

theorem State.ni_markEn (s : State) (n : Nat) (b : Bool) : (s.markEn n b).ni n = s.ni n := by
  rw [State.ni, (s.markEn_kept n b).1, State.ni]

theorem bitAt_swap (h : bitAt v.toNat 1 = false) : bitAt (v ||| 1#32).toNat 0 = true ∧ bitAt (v ||| 1#32).toNat 1 = false :=
  ⟨by rw [bitAt_or]; exact Bool.or_true _, by rw [bitAt_or, h]; rfl⟩

theorem exec_gateSwap_starts (hn : s.hasNi n = true) (hu : u = niUnit n) (h : s.Goes m u 0x700 (v ||| 1#32).toNat) (hv : bitAt v.toNat 1 = false)
    (hpend : s.flag (niB n) F.NI_GATE_STAT_PENDING = false) (hc : s.gateCheck n = 0) :
    ∃ t : State, exec (.gateSwap m n v) s = .next t ∧ t.flag (niB n) F.NI_GATE_STAT_PENDING = true
      ∧ (t.ni n).gatePend = some (s.gateStart n (s.wholeNs s.rootStamp)) := by
  subst hu
  refine exec_storeNi_acts hn rfl h (fun _ => rfl) fun x => ?_
  obtain ⟨h0, h1⟩ := bitAt_swap hv
  have hp := s.wordPut_put m (niUnit n) 0x700 (v ||| 1#32).toNat
  obtain ⟨hcheck, hstart, hwhole⟩ := State.WordPut.gates hp
  have hpend' : (s.put m (niUnit n) 0x700 (v ||| 1#32).toNat).flag (niB n) F.NI_GATE_STAT_PENDING = false :=
    (hp.flag fun e => absurd (Nat.add_left_cancel e) (by decide)).trans hpend
  rw [State.acts_gateCtl_swap h0 h1, hwhole, ← hstart]
  obtain ⟨hf, hg⟩ := State.gateSwap_starts (t := s.wholeNs s.rootStamp) hpend' (hcheck.trans hc)
  generalize (s.put m (niUnit n) 0x700 (v ||| 1#32).toNat).gateSwap n (s.wholeNs s.rootStamp) = a at hf hg
  have hf' := (a.flag_markEn_gateStat n (bitAt (v ||| 1#32).toNat 8) F.NI_GATE_STAT_PENDING rfl).trans hf
  rw [← a.ni_markEn n (bitAt (v ||| 1#32).toNat 8)] at hg
  generalize a.markEn n (bitAt (v ||| 1#32).toNat 8) = t at hf' hg
  exact ⟨hf', hg⟩

theorem exec_gateSwap_fails (hn : s.hasNi n = true) (hu : u = niUnit n) (h : s.Goes m u 0x700 (v ||| 1#32).toNat) (hv : bitAt v.toNat 1 = false)
    (hpend : s.flag (niB n) F.NI_GATE_STAT_PENDING = false) (hc : s.gateCheck n ≠ 0) :
    ∃ t : State, exec (.gateSwap m n v) s = .next t ∧ t.flag (niB n) F.NI_GATE_STAT_PENDING = false
      ∧ t.flag (niB n) F.NI_GATE_STAT_SWAP_ERR = true ∧ t.rd (niB n) F.NI_GATE_STAT_ERR_CODE = s.gateCheck n := by
  subst hu
  refine exec_storeNi_acts hn rfl h (fun _ => rfl) fun x => ?_
  obtain ⟨h0, h1⟩ := bitAt_swap hv
  have hp := s.wordPut_put m (niUnit n) 0x700 (v ||| 1#32).toNat
  obtain ⟨hcheck, -, hwhole⟩ := State.WordPut.gates hp
  have hpend' : (s.put m (niUnit n) 0x700 (v ||| 1#32).toNat).flag (niB n) F.NI_GATE_STAT_PENDING = false :=
    (hp.flag fun e => absurd (Nat.add_left_cancel e) (by decide)).trans hpend
  rw [State.acts_gateCtl_swap h0 h1, hwhole, ← hcheck]
  obtain ⟨hf, he, hr⟩ := State.gateSwap_fails (t := s.wholeNs s.rootStamp) hpend' (fun e => hc (hcheck.symm.trans e))
  generalize (s.put m (niUnit n) 0x700 (v ||| 1#32).toNat).gateSwap n (s.wholeNs s.rootStamp) = a at hf he hr
  have hf' := (a.flag_markEn_gateStat n (bitAt (v ||| 1#32).toNat 8) F.NI_GATE_STAT_PENDING rfl).trans hf
  have he' := (a.flag_markEn_gateStat n (bitAt (v ||| 1#32).toNat 8) F.NI_GATE_STAT_SWAP_ERR rfl).trans he
  have hr' := (a.rd_markEn_gateStat n (bitAt (v ||| 1#32).toNat 8) F.NI_GATE_STAT_ERR_CODE rfl).trans hr
  generalize a.markEn n (bitAt (v ||| 1#32).toNat 8) = t at hf' he' hr'
  exact ⟨hf', he', hr'⟩

theorem exec_gateSwap_pending (hn : s.hasNi n = true) (hu : u = niUnit n) (h : s.Goes m u 0x700 (v ||| 1#32).toNat) (hv : bitAt v.toNat 1 = false)
    (hpend : s.flag (niB n) F.NI_GATE_STAT_PENDING = true) :
    ∃ t : State, exec (.gateSwap m n v) s = .next t ∧ t.flag (niB n) F.NI_GATE_STAT_PENDING = true ∧ (t.ni n).gatePend = (s.ni n).gatePend := by
  subst hu
  refine exec_storeNi_acts hn rfl h (fun _ => rfl) fun x => ?_
  obtain ⟨h0, h1⟩ := bitAt_swap hv
  have hp := s.wordPut_put m (niUnit n) 0x700 (v ||| 1#32).toNat
  have hf : (s.put m (niUnit n) 0x700 (v ||| 1#32).toNat).flag (niB n) F.NI_GATE_STAT_PENDING = true :=
    (hp.flag fun e => absurd (Nat.add_left_cancel e) (by decide)).trans hpend
  rw [State.acts_gateCtl_swap h0 h1, State.gateSwap_pending hf, ← hp.ni]
  generalize s.put m (niUnit n) 0x700 (v ||| 1#32).toNat = a at hf
  have hf' := (a.flag_markEn_gateStat n (bitAt (v ||| 1#32).toNat 8) F.NI_GATE_STAT_PENDING rfl).trans hf
  rw [← a.ni_markEn n (bitAt (v ||| 1#32).toNat 8)]
  generalize a.markEn n (bitAt (v ||| 1#32).toNat 8) = t at hf'
  exact ⟨hf', rfl⟩

theorem exec_gateCancel_of (hn : s.hasNi n = true) (hu : u = niUnit n) (h : s.Goes m u 0x700 (v ||| 2#32).toNat) (hv : bitAt v.toNat 0 = false) :
    ∃ t : State, exec (.gateCancel m n v) s = .next t ∧ t.flag (niB n) F.NI_GATE_STAT_PENDING = false ∧ (t.ni n).gatePend = none := by
  subst hu
  refine exec_storeNi_acts hn rfl h (fun _ => rfl) fun x => ?_
  have h0 : bitAt (v ||| 2#32).toNat 0 = false := by rw [bitAt_or, hv]; rfl
  have h1 : bitAt (v ||| 2#32).toNat 1 = true := by rw [bitAt_or]; exact Bool.or_true _
  rw [State.acts_gateCtl_cancel h0 h1]
  obtain ⟨hf, hg⟩ := (s.put m (niUnit n) 0x700 (v ||| 2#32).toNat).gateCancel_spec n
  generalize (s.put m (niUnit n) 0x700 (v ||| 2#32).toNat).gateCancel n = a at hf hg
  have hf' := (a.flag_markEn_gateStat n (bitAt (v ||| 2#32).toNat 8) F.NI_GATE_STAT_PENDING rfl).trans hf
  rw [← a.ni_markEn n (bitAt (v ||| 2#32).toNat 8)] at hg
  generalize a.markEn n (bitAt (v ||| 2#32).toNat 8) = t at hf' hg
  exact ⟨hf', hg⟩

/-- What the claim of a pin asks does not stand in NI.GATE_CTL. -/
theorem State.WordPut.pins (h : s.WordPut (niB n + rel) p) {k : Nat} (hk : k < 4) : p.pinOwner k = s.pinOwner k ∧ p.pinNi k = s.pinNi k
    ∧ ∀ owner ni, p.pinFree k owner ni = s.pinFree k owner ni := by
  have hw : p.word (0x10000 + (0x300 + 4 * k)) = s.word (0x10000 + (0x300 + 4 * k)) := h.word _ (by simp only [niB]; omega)
  have ho : p.pinOwner k = s.pinOwner k := congrArg (fun w : Word => bitsAt w.toNat 0 3) hw
  have hi : p.pinNi k = s.pinNi k := congrArg (fun w : Word => bitsAt w.toNat 8 8) hw
  have hc : p.claimedNow k = s.claimedNow k := by rw [State.claimedNow, h.claimAt, h.clock, State.claimedNow]
  exact ⟨ho, hi, fun owner ni => by rw [State.pinFree, ho, hi, hc, State.pinFree]⟩

theorem rowKeeps_markEn : RowKeeps .ni 0x700 F.NI_GATE_CTL_MARK_EN := by decide +kernel

theorem rowHas_markPin : RowHas .ni 0x700 F.NI_GATE_CTL_MARK_PIN ⟨9, 2, .rw, .v 0, .free, false⟩ := by decide +kernel

theorem State.markPin_put (s : State) (m n v : Nat) : (s.put m (niUnit n) 0x700 v).rd (niB n) F.NI_GATE_CTL_MARK_PIN = bitsAt v 9 2 := by
  have hb : bitAt (actBits .ni 0x700) 9 = false := by decide
  have h := State.rd_put_put (s := s) (m := m) (u := niUnit n) (rel := 0x700) (v := v) rowHas_markPin (by
    rintro (h | h | h | h)
    · exact nomatch h
    · exact nomatch h
    · exact nomatch h
    · exact nomatch h.symm.trans hb)
  exact h.trans (Nat.mod_eq_of_lt (bitsAt_lt _ _ _))

theorem exec_markEnWrite_claims {k : Nat} (hn : s.hasNi n = true) (hu : u = niUnit n) (h : s.Goes m u 0x700 v.toNat) (hv : bitsAt v.toNat 0 2 = 0)
    (hen : bitAt v.toNat 8 = true) (hk : k = bitsAt v.toNat 9 2) (he : s.flag (niB n) F.NI_GATE_CTL_MARK_EN = false)
    (ho : s.pinOwner k = 0) (hlt : n < 256) :
    ∃ t : State, exec (.markEnWrite m n v) s = .next t ∧ t.flag (niB n) F.NI_GATE_CTL_MARK_EN = true ∧ t.pinOwner k = 3 ∧ t.pinNi k = n := by
  subst hu
  refine exec_storeNi_acts hn rfl h (fun _ => rfl) fun x => ?_
  have hk4 : k < 4 := lt_of_eq_of_lt hk (bitsAt_lt _ _ _)
  have hpin := (s.markPin_put m n v.toNat).trans hk.symm
  have he' := (State.flag_put_kept (s := s) (m := m) (u := niUnit n) rowKeeps_markEn v.toNat).trans he
  have ho' := ((s.wordPut_put m (niUnit n) 0x700 v.toNat).pins hk4).1.trans ho
  rw [State.acts_gateCtl_mark hv, hen]
  generalize s.put m (niUnit n) 0x700 v.toNat = p at hpin he' ho'
  have hr := State.markEn_on_spec hpin he' ho' hlt
  generalize p.markEn n true = t at hr
  exact hr

theorem exec_markEnWrite_taken {k : Nat} (hn : s.hasNi n = true) (hu : u = niUnit n) (h : s.Goes m u 0x700 v.toNat) (hv : bitsAt v.toNat 0 2 = 0)
    (hen : bitAt v.toNat 8 = true) (hk : k = bitsAt v.toNat 9 2) (he : s.flag (niB n) F.NI_GATE_CTL_MARK_EN = false)
    (hfree : s.pinFree k 3 n = false) :
    ∃ t : State, exec (.markEnWrite m n v) s = .next t ∧ t.flag (niB n) F.NI_GATE_CTL_MARK_EN = false ∧ t.pinOwner k = s.pinOwner k := by
  subst hu
  refine exec_storeNi_acts hn rfl h (fun _ => rfl) fun x => ?_
  have hk4 : k < 4 := lt_of_eq_of_lt hk (bitsAt_lt _ _ _)
  have hpin := (s.markPin_put m n v.toNat).trans hk.symm
  have he' := (State.flag_put_kept (s := s) (m := m) (u := niUnit n) rowKeeps_markEn v.toNat).trans he
  obtain ⟨ho, -, hf⟩ := (s.wordPut_put m (niUnit n) 0x700 v.toNat).pins hk4
  have hf' := (hf 3 n).trans hfree
  rw [State.acts_gateCtl_mark hv, hen, State.markEn_taken hpin hf']
  generalize s.put m (niUnit n) 0x700 v.toNat = p at he' ho
  exact ⟨he', ho⟩

theorem exec_markEnWrite_off (hn : s.hasNi n = true) (hu : u = niUnit n) (h : s.Goes m u 0x700 v.toNat) (hv : bitsAt v.toNat 0 2 = 0)
    (hen : bitAt v.toNat 8 = false) : ∃ t : State, exec (.markEnWrite m n v) s = .next t ∧ t.flag (niB n) F.NI_GATE_CTL_MARK_EN = false
      ∧ ∀ k, k < 4 → s.pinOwner k = 3 → s.pinNi k = n → t.pinOwner k = 0 := by
  subst hu
  refine exec_storeNi_acts hn rfl h (fun _ => rfl) fun x => ?_
  have hp := s.wordPut_put m (niUnit n) 0x700 v.toNat
  rw [State.acts_gateCtl_mark hv, hen]
  generalize s.put m (niUnit n) 0x700 v.toNat = p at hp
  obtain ⟨hf, hk⟩ := p.markEn_off_spec n
  generalize p.markEn n false = t at hf hk
  refine ⟨hf, fun k hk4 h3 hni => ?_⟩
  obtain ⟨ho, hi, -⟩ := State.WordPut.pins hp hk4
  exact hk k hk4 (ho.trans h3) (hi.trans hni)

/-! ### Reordering and migration staging (R407, R430 to R433) -/

theorem State.WordPut.claimedNow {o : Nat} (h : s.WordPut o p) (r : Nat) : p.claimedNow r = s.claimedNow r := by
  rw [State.claimedNow, h.claimAt, h.clock, State.claimedNow]

theorem exec_reorderWrite_preempts (hn : s.hasNi n = true) (hu : u = niUnit n) (h : s.Goes m u 0xD04 v.toNat) (hv : bitAt v.toNat 0 = true)
    (h2 : (s.ni n).reseqOwner = 2) (hc : s.claimedNow (reseqRes n) = true) :
    ∃ t : State, exec (.reorderWrite m n v) s = .next t ∧ t.flag (niB n) F.NI_RSQ_CTL_REORDER = true ∧ (t.ni n).reseqOwner = 1
      ∧ t.flag (niB n) F.NI_MIG_CTL_STAGE = false := by
  subst hu
  refine exec_storeNi_acts hn rfl h (fun _ => rfl) fun x => ?_
  have hp := s.wordPut_put m (niUnit n) 0xD04 v.toNat
  generalize s.put m (niUnit n) 0xD04 v.toNat = p at hp
  have e : p.acts m (niUnit n) 0xD04 v.toNat (s.oldView (niUnit n) 0xD04 m v.toNat) = p.reorder n (bitAt v.toNat 0) := rfl
  have hr := State.reorder_preempts ((congrArg NiSt.reseqOwner (hp.ni n)).trans h2) ((hp.claimedNow _).trans hc)
  rw [e, hv]
  generalize p.reorder n true = t at hr
  exact hr

theorem exec_reorderWrite_claims (hn : s.hasNi n = true) (hu : u = niUnit n) (h : s.Goes m u 0xD04 v.toNat) (hc : s.claimedNow (reseqRes n) = false) :
    ∃ t : State, exec (.reorderWrite m n v) s = .next t ∧ t.flag (niB n) F.NI_RSQ_CTL_REORDER = (bitAt v.toNat 0 && (s.ni n).reseqOwner != 2)
      ∧ (t.ni n).reseqOwner = (if (s.ni n).reseqOwner = 2 then 2 else b2n (bitAt v.toNat 0)) := by
  subst hu
  refine exec_storeNi_acts hn rfl h (fun _ => rfl) fun x => ?_
  have hp := s.wordPut_put m (niUnit n) 0xD04 v.toNat
  generalize s.put m (niUnit n) 0xD04 v.toNat = p at hp
  have e : p.acts m (niUnit n) 0xD04 v.toNat (s.oldView (niUnit n) 0xD04 m v.toNat) = p.reorder n (bitAt v.toNat 0) := rfl
  have hr := State.reorder_claims (bitAt v.toNat 0) ((hp.claimedNow (reseqRes n)).trans hc)
  rw [hp.ni] at hr
  rw [e]
  generalize p.reorder n (bitAt v.toNat 0) = t at hr
  exact hr

/-- The work of a write of NI.MIG_CTL. -/
theorem State.acts_migCtl (p : State) (m n w old : Nat) : p.acts m (niUnit n) 0xE40 w old =
    ((if bitAt w 1 then p.migSwap n else p).migStage n (bitAt w 2)).migHold n (bitAt w 3) := rfl

theorem rowKeeps_hold : RowKeeps .ni 0xE40 F.NI_MIG_CTL_HOLD := by decide +kernel

theorem rowKeeps_stage : RowKeeps .ni 0xE40 F.NI_MIG_CTL_STAGE := by decide +kernel

theorem exec_migSwap_of (hn : s.hasNi n = true) (hu : u = niUnit n) (h : s.Goes m u 0xE40 (v ||| 2#32).toNat) :
    ∃ t : State, exec (.migSwap m n v) s = .next t ∧ (t.ni n).migF = (s.ni n).migA ∧ (t.ni n).migA = 0 := by
  subst hu
  refine exec_storeNi_acts hn rfl h (fun _ => rfl) fun x => ?_
  have h1 : bitAt (v ||| 2#32).toNat 1 = true := by rw [bitAt_or]; exact Bool.or_true _
  have hp := s.wordPut_put m (niUnit n) 0xE40 (v ||| 2#32).toNat
  rw [State.acts_migCtl, if_pos h1, ← hp.ni]
  generalize s.put m (niUnit n) 0xE40 (v ||| 2#32).toNat = p
  obtain ⟨hF, hA⟩ := p.migSwap_spec n
  rw [← hF]
  generalize p.migSwap n = a at hA
  obtain ⟨hA1, hF1, -⟩ := a.migStage_kept n (bitAt (v ||| 2#32).toNat 2)
  rw [← hA1] at hA
  rw [← hF1]
  generalize a.migStage n (bitAt (v ||| 2#32).toNat 2) = b at hA
  obtain ⟨hA2, hF2⟩ := b.migHold_maps n (bitAt (v ||| 2#32).toNat 3)
  rw [← hA2] at hA
  rw [← hF2]
  generalize b.migHold n (bitAt (v ||| 2#32).toNat 3) = t at hA
  exact ⟨rfl, hA⟩

/-- Staging of a write without a swap, then the hold's end. -/
theorem State.acts_migCtl_stage {w : Nat} (h1 : bitAt w 1 = false) (h3 : bitAt w 3 = false) (old : Nat) :
    p.acts m (niUnit n) 0xE40 w old = (p.migStage n (bitAt w 2)).migHold n false := by
  rw [State.acts_migCtl, h1, h3]
  rfl

theorem exec_migStage_claims (hn : s.hasNi n = true) (hu : u = niUnit n) (h : s.Goes m u 0xE40 v.toNat) (hv : bitsAt v.toNat 1 2 = 2)
    (h3 : bitAt v.toNat 3 = false) (ho : (s.ni n).reseqOwner = 0) :
    ∃ t : State, exec (.migStage m n v) s = .next t ∧ (t.ni n).reseqOwner = 2 ∧ t.flag (niB n) F.NI_MIG_CTL_STAGE = true
      ∧ t.flag (niB n) F.NI_MIG_CTL_HOLD = false := by
  subst hu
  refine exec_storeNi_acts hn rfl h (fun _ => rfl) fun x => ?_
  have h2 : bitAt v.toNat 2 = true := bitAt_of_bitsAt hv 1 (by decide)
  have ho' := (congrArg NiSt.reseqOwner ((s.wordPut_put m (niUnit n) 0xE40 v.toNat).ni n)).trans ho
  rw [State.acts_migCtl_stage (bitAt_of_bitsAt hv 0 (by decide)) h3, h2]
  generalize s.put m (niUnit n) 0xE40 v.toNat = p at ho'
  obtain ⟨hown, hst⟩ := State.migStage_claims ho'
  generalize p.migStage n true = a at hown hst
  obtain ⟨hhold, -, -, hown', hst'⟩ := a.migHold_off n
  rw [← hown'] at hown
  rw [← hst'] at hst
  generalize a.migHold n false = t at hhold hown hst
  exact ⟨hown, hst, hhold⟩

theorem exec_migStage_owned (hn : s.hasNi n = true) (hu : u = niUnit n) (h : s.Goes m u 0xE40 v.toNat) (hv : bitsAt v.toNat 1 3 = 2)
    (ho : (s.ni n).reseqOwner = 1) :
    ∃ t : State, exec (.migStage m n v) s = .next t ∧ (t.ni n).reseqOwner = 1
      ∧ t.flag (niB n) F.NI_MIG_CTL_STAGE = s.flag (niB n) F.NI_MIG_CTL_STAGE := by
  subst hu
  refine exec_storeNi_acts hn rfl h (fun _ => rfl) fun x => ?_
  have h2 : bitAt v.toNat 2 = true := bitAt_of_bitsAt hv 1 (by decide)
  have ho' := (congrArg NiSt.reseqOwner ((s.wordPut_put m (niUnit n) 0xE40 v.toNat).ni n)).trans ho
  have hst := State.flag_put_kept (s := s) (m := m) (u := niUnit n) rowKeeps_stage v.toNat
  rw [State.acts_migCtl_stage (bitAt_of_bitsAt hv 0 (by decide)) (bitAt_of_bitsAt hv 2 (by decide)), h2]
  generalize s.put m (niUnit n) 0xE40 v.toNat = p at ho' hst
  rw [State.migStage_owned (by rw [ho']; decide)]
  obtain ⟨-, -, -, hown', hst'⟩ := p.migHold_off n
  rw [← hown'] at ho'
  have hst'' := hst'.trans hst
  generalize p.migHold n false = t at ho' hst''
  exact ⟨ho', hst''⟩

theorem exec_migStage_frees (hn : s.hasNi n = true) (hu : u = niUnit n) (h : s.Goes m u 0xE40 v.toNat) (hv : bitsAt v.toNat 1 3 = 0)
    (ho : (s.ni n).reseqOwner = 2) (hh : s.flag (niB n) F.NI_MIG_CTL_HOLD = false) :
    ∃ t : State, exec (.migStage m n v) s = .next t ∧ (t.ni n).reseqOwner = 0 ∧ t.flag (niB n) F.NI_MIG_CTL_STAGE = false := by
  subst hu
  refine exec_storeNi_acts hn rfl h (fun _ => rfl) fun x => ?_
  have h2 : bitAt v.toNat 2 = false := bitAt_of_bitsAt hv 1 (by decide)
  have ho' := (congrArg NiSt.reseqOwner ((s.wordPut_put m (niUnit n) 0xE40 v.toNat).ni n)).trans ho
  have hh' := (State.flag_put_kept (s := s) (m := m) (u := niUnit n) rowKeeps_hold v.toNat).trans hh
  rw [State.acts_migCtl_stage (bitAt_of_bitsAt hv 0 (by decide)) (bitAt_of_bitsAt hv 2 (by decide)), h2]
  generalize s.put m (niUnit n) 0xE40 v.toNat = p at ho' hh'
  obtain ⟨hown, hst⟩ := State.migStage_frees hh' ho'
  generalize p.migStage n false = a at hown hst
  obtain ⟨-, -, -, hown', hst'⟩ := a.migHold_off n
  rw [← hown'] at hown
  rw [← hst'] at hst
  generalize a.migHold n false = t at hown hst
  exact ⟨hown, hst⟩

theorem exec_migHold_off (hn : s.hasNi n = true) (hu : u = niUnit n) (h : s.Goes m u 0xE40 v.toNat) (h1 : bitAt v.toNat 1 = false)
    (h3 : bitAt v.toNat 3 = false) :
    ∃ t : State, exec (.migHold m n v) s = .next t ∧ t.flag (niB n) F.NI_MIG_CTL_HOLD = false ∧ (t.ni n).aqq = (s.ni n).migHeld ++ (s.ni n).aqq
      ∧ (t.ni n).migHeld = [] := by
  subst hu
  refine exec_storeNi_acts hn rfl h (fun _ => rfl) fun x => ?_
  have hp := s.wordPut_put m (niUnit n) 0xE40 v.toNat
  rw [State.acts_migCtl_stage h1 h3, ← hp.ni]
  generalize s.put m (niUnit n) 0xE40 v.toNat = p
  obtain ⟨-, -, haqq, hheld⟩ := p.migStage_kept n (bitAt v.toNat 2)
  rw [← haqq, ← hheld]
  generalize p.migStage n (bitAt v.toNat 2) = a
  obtain ⟨hhold, haqq', hheld', -⟩ := a.migHold_off n
  generalize a.migHold n false = t at hhold haqq' hheld'
  exact ⟨hhold, haqq', hheld'⟩

theorem exec_migHold_on (hn : s.hasNi n = true) (hu : u = niUnit n) (h : s.Goes m u 0xE40 v.toNat) (hv : bitsAt v.toNat 1 3 = 6)
    (hst : s.flag (niB n) F.NI_MIG_CTL_STAGE = true) :
    ∃ t : State, exec (.migHold m n v) s = .next t ∧ t.flag (niB n) F.NI_MIG_CTL_HOLD = true := by
  subst hu
  refine exec_storeNi_acts hn rfl h (fun _ => rfl) fun x => ?_
  have h1 : bitAt v.toNat 1 = false := bitAt_of_bitsAt hv 0 (by decide)
  have h2 : bitAt v.toNat 2 = true := bitAt_of_bitsAt hv 1 (by decide)
  have h3 : bitAt v.toNat 3 = true := bitAt_of_bitsAt hv 2 (by decide)
  have hst' := (State.flag_put_kept (s := s) (m := m) (u := niUnit n) rowKeeps_stage v.toNat).trans hst
  rw [State.acts_migCtl, if_neg (by rw [h1]; decide), h2, h3]
  generalize s.put m (niUnit n) 0xE40 v.toNat = p at hst'
  have hstaged : (p.migStage n true).flag (niB n) F.NI_MIG_CTL_STAGE = true := by
    by_cases ho : (p.ni n).reseqOwner = 0
    · exact (State.migStage_claims ho).2
    · rw [State.migStage_owned ho]
      exact hst'
  have hr := State.migHold_on hstaged
  generalize (p.migStage n true).migHold n true = t at hr
  exact hr

/-! ### Store buffer (R202, R223) -/

theorem rowHas_sbEn : RowHas .ni 0x300 F.NI_ORD_CFG_SB_EN ⟨4, 1, .rw, .v 1, .free, true⟩ := by decide +kernel

theorem exec_sbEnClear_of (hn : s.hasNi n = true) (hu : u = niUnit n) (h : s.Goes m u 0x300 (v &&& 0xFFFFFFEF#32).toNat) :
    ∃ t : State, exec (.sbEnClear m n v) s = .next t ∧ t.flag (niB n) F.NI_ORD_CFG_SB_EN = false ∧ t.ni n = s.ni n
      ∧ ∀ op sc d, t.sbEnters n op sc d = false := by
  subst hu
  refine exec_storeNi_acts hn rfl h (fun _ => rfl) fun x => ?_
  have hbits : bitAt (actBits .ni 0x300) 4 = false := by decide
  have hbit : bitAt (v &&& 0xFFFFFFEF#32).toNat 4 = false := by
    rw [bitAt_eq_testBit, BitVec.toNat_and, Nat.testBit_and]
    exact Bool.and_false _
  have hr := State.rd_put_put (s := s) (m := m) (u := niUnit n) (rel := 0x300) (v := (v &&& 0xFFFFFFEF#32).toNat) rowHas_sbEn (by
    rintro (h | h | h | h)
    · exact nomatch h
    · exact nomatch h
    · exact nomatch h
    · exact nomatch h.symm.trans hbits)
  have hni := (s.wordPut_put m (niUnit n) 0x300 (v &&& 0xFFFFFFEF#32).toNat).ni n
  generalize (v &&& 0xFFFFFFEF#32).toNat = w at hbit hr hni
  generalize s.put m (niUnit n) 0x300 w = p at hr hni
  have hf : p.flag (niB n) F.NI_ORD_CFG_SB_EN = false := by
    rw [bitAt_eq] at hbit
    have hlt := bitsAt_lt w 4 1
    have h0 : bitsAt w 4 1 = 0 := by
      rw [beq_eq_false_iff_ne] at hbit
      omega
    rw [State.flag, show p.rd (niB n) F.NI_ORD_CFG_SB_EN = bitsAt w 4 1 % 2 from hr, h0]
    rfl
  have e : p.acts m (niUnit n) 0x300 w (s.oldView (niUnit n) 0x300 m w) = p := rfl
  have hsb : ∀ op sc d, p.sbEnters n op sc d = false := fun op sc d => by
    rw [State.sbEnters, hf, Bool.and_false, Bool.false_and]
  rw [e]
  exact ⟨hf, hni, hsb⟩

theorem State.rd_updCmx (a : State) (g : Cmx → Cmx) (b : Nat) (f : Fld) : (a.updCmx g).rd b f = a.rd b f := rfl

theorem State.flag_updCmx (a : State) (g : Cmx → Cmx) (b : Nat) (f : Fld) : (a.updCmx g).flag b f = a.flag b f := rfl

theorem exec_sbLogClr_of (hn : s.hasNi n = true) (hu : u = niUnit n) (h : s.Goes m u 0x318 (v ||| 0x40000000#32).toNat) :
    ∃ t : State, exec (.sbLogClr m n v) s = .next t ∧ t.flag (niB n) F.NI_SB_LOG_INFO_VALID = false := by
  subst hu
  refine exec_storeNi_acts hn rfl h (fun _ => rfl) fun x => ?_
  have hb : bitAt (v ||| 0x40000000#32).toNat 30 = true := by rw [bitAt_or]; exact Bool.or_true _
  generalize (v ||| 0x40000000#32).toNat = w at hb
  generalize s.put m (niUnit n) 0x318 w = p
  have e : p.acts m (niUnit n) 0x318 w (s.oldView (niUnit n) 0x318 m w) = p.wr (niB n) F.NI_SB_LOG_INFO_VALID 0 := if_pos hb
  have hr : (p.wr (niB n) F.NI_SB_LOG_INFO_VALID 0).flag (niB n) F.NI_SB_LOG_INFO_VALID = false := p.flag_wr_same _ _ _ (by decide)
  rw [e, State.flag_updCmx]
  exact hr

end Sys2Proof.Machine
end

section
/-! SUPPORT. What raw writes of routing entries, reservations and shapers leave (R137, R228, R267). -/

namespace Sys2Proof.Machine

variable {s t : State} {m n e rel R : Nat} {u : Un} {v : Word}

/-! ### Reservations and shapers (R228, R267) -/

/-- What waking regions 0 to 15 changes stands below the NIs' registers. -/
theorem State.word_rgGo_ni (s : State) {g o : Nat} (st : Nat) (hg : g < 16) (ho : 0x400000 ≤ o) : (s.rgGo g st).word o = s.word o := by
  rw [State.rgGo_eq]
  split
  · rfl
  · rw [State.word_rgEvent _ _ _ (.inr (by simp only [evtB]; omega)) (by
        show o ≠ 0x50000 + (0x100 + 4 * g)
        omega),
      State.word_homeShown _ _ _ (by
        show o ≠ 0x40000 + 4
        omega),
      State.word_wr_ne _ _ _ _ (by
        show o ≠ 0x40000 + (0xA0 + 4 * g)
        omega), State.word_intSaved]

theorem State.word_rouse_ni (s : State) {mask o : Nat} (hm : mask < 2 ^ 16) (ho : 0x400000 ≤ o) : (s.rouse mask).word o = s.word o := by
  have hround : ∀ k, (forAll k (fun g a => if bitAt mask g ∧ a.rgState g = 1 then a.rgGo g 0 else a) s).word o = s.word o := by
    intro k
    induction k with
    | zero => rfl
    | succ k ih =>
      rw [forAll_succ]
      split
      next h =>
        have hk : k < 16 := by
          by_contra hge
          have hf := Nat.testBit_lt_two_pow (lt_of_lt_of_le hm (Nat.pow_le_pow_right (by decide) (Nat.not_lt.mp hge)))
          rw [bitAt_eq_testBit, hf] at h
          exact nomatch h.1
        exact (State.word_rgGo_ni _ 0 hk ho).trans ih
      · exact ih
  exact hround _

theorem State.runMask_lt (s : State) : s.runMask < 2 ^ 16 := by
  have h : ∀ (l : List (Nat × Nat)) (a : Nat), a < 2 ^ 16 → l.foldl (fun a f => a ||| (s.entry f.1 f.2).regmask) a < 2 ^ 16 := by
    intro l
    induction l with
    | nil => exact fun _ ha => ha
    | cons f r ih => exact fun a ha => ih _ (Nat.or_lt_two_pow ha (bitsAt_lt _ _ _))
  exact h _ 0 (by decide)

theorem State.word_holdRuns_ni (s : State) {o : Nat} (ho : 0x400000 ≤ o) : s.holdRuns.word o = s.word o := by
  rw [State.holdRuns_eq, State.word_rouse_ni _ s.runMask_lt ho]
  exact s.word_wr_ne _ _ _ (by
    show o ≠ 0x40000 + 0x140
    omega)

theorem enSrcs_ni (r : Rom) (n : Nat) (h1 : rel ≠ 0xF88) (h2 : rel ≠ 0xF8C) : enSrcs r (niUnit n) rel = [] := (if_neg h1).trans (if_neg h2)

/-- The words of reservation `j`: a write leaves GRANTED to the command. -/
theorem rowKeeps_sc0 : ∀ j, j < 16 → RowKeeps .ni (0x450 + 8 * j) (F.NI_SC0_RSV0_GRANTED.ix j) := by decide +kernel

theorem State.sc0_put_kept {j w : Nat} (hj : j < 16) (hw : w < 2) (v : Nat) :
    (s.put m (niUnit n) (0x450 + 8 * j + 4 * w) v).flag (niB n) (F.NI_SC0_RSV0_GRANTED.ix j) = s.flag (niB n) (F.NI_SC0_RSV0_GRANTED.ix j) := by
  by_cases h0 : w = 0
  · subst h0
    exact State.flag_put_kept (u := niUnit n) (rowKeeps_sc0 j hj) v
  · exact (s.wordPut_put m (niUnit n) _ v).flag (by
      show niB n + (0x450 + 8 * j) ≠ niB n + (0x450 + 8 * j + 4 * w)
      omega)

/-- The work of a write of a reservation (R228). -/
theorem State.acts_sc0 {j w : Nat} (hj : j < 16) (hw : w < 2) (p : State) (v old : Nat) : p.acts m (niUnit n) (0x450 + 8 * j + 4 * w) v old =
    if m = 1 ∨ p.flag (niB n) (F.NI_SC0_RSV0_GRANTED.ix j) = false then p
      else (p.wr (niB n) (F.NI_SC0_RSV0_GRANTED.ix j) 0).holdRuns := by
  have he : p.acts m (niUnit n) (0x450 + 8 * j + 4 * w) v old = p.actNi m n (0x450 + 8 * j + 4 * w) v old := rfl
  rw [he, State.actNi.eq_def, if_neg (by omega), if_pos (by omega), show (0x450 + 8 * j + 4 * w - 0x450) / 8 = j by omega]

theorem exec_sc0RsvWrite_of {j w : Nat} (hn : s.hasNi n = true) (hu : u = niUnit n) (hj : j < 16) (hw : w < 2)
    (h : s.Goes m u (0x450 + 8 * j + 4 * w) v.toNat) : ∃ t : State, exec (.sc0RsvWrite m n j w v) s = .next t
      ∧ (m ≠ 1 → t.flag (niB n) (F.NI_SC0_RSV0_GRANTED.ix j) = false)
      ∧ (m = 1 → t.flag (niB n) (F.NI_SC0_RSV0_GRANTED.ix j) = s.flag (niB n) (F.NI_SC0_RSV0_GRANTED.ix j)) := by
  subst hu
  have hon : (s.hasNi n && decide (j < 16) && decide (w < 2)) = true := by
    rw [hn, decide_eq_true hj, decide_eq_true hw]
    rfl
  have hx : exec (.sc0RsvWrite m n j w v) s = .next (s.store m (niB n + (0x450 + 8 * j + 4 * w)) v) := by
    refine (guardUnit_of hon _ _).trans ?_
    rw [Nat.add_assoc (niB n), Nat.add_assoc (niB n)]
  rw [hx]
  refine exec_store_acts (u := niUnit n) rfl h (fun r => enSrcs_ni r n (by omega) (by omega)) fun x => ?_
  have hk := State.sc0_put_kept (s := s) (m := m) (n := n) hj hw v.toNat
  rw [State.acts_sc0 hj hw, State.flag_updCmx, ← hk]
  generalize s.put m (niUnit n) (0x450 + 8 * j + 4 * w) v.toNat = p
  refine ⟨fun hm => ?_, fun hm => by rw [if_pos (.inl hm)]⟩
  by_cases hf : p.flag (niB n) (F.NI_SC0_RSV0_GRANTED.ix j) = false
  · rw [if_pos (.inr hf), hf]
  · rw [if_neg (by rintro (h | h); exacts [hm h, hf h]), State.flag, State.rd, State.word_holdRuns_ni _ (by simp only [niB]; omega), ← State.rd,
      State.rd_wr_same _ _ _ _ (show 15 + 1 ≤ 32 by decide)]
    rfl

/-- The words of shaper `k`: a write leaves GRANTED to the command. -/
theorem rowKeeps_shaper : ∀ k, k < 16 → k ≠ 8 → ∀ w, w < 2 →
    (shpGranted k).off ≠ 0x580 + 16 * k + 4 * w ∨ RowKeeps .ni (0x580 + 16 * k + 4 * w) (shpGranted k) := by decide +kernel

theorem State.shaper_put_kept {k w : Nat} (hk : k < 16) (h8 : k ≠ 8) (hw : w < 2) (v : Nat) :
    (s.put m (niUnit n) (0x580 + 16 * k + 4 * w) v).flag (niB n) (shpGranted k) = s.flag (niB n) (shpGranted k) := by
  rcases rowKeeps_shaper k hk h8 w hw with h | h
  · exact (s.wordPut_put m (niUnit n) _ v).flag fun e => h (Nat.add_left_cancel (n := niB n) e)
  · exact State.flag_put_kept (u := niUnit n) h v

theorem State.acts_shaper {k w : Nat} (hk : k < 16) (h8 : k ≠ 8) (hw : w < 2) (p : State) (v old : Nat) :
    p.acts m (niUnit n) (0x580 + 16 * k + 4 * w) v old = if m = 1 then p else p.wr (niB n) (shpGranted k) 0 := by
  have he : p.acts m (niUnit n) (0x580 + 16 * k + 4 * w) v old = p.actNi m n (0x580 + 16 * k + 4 * w) v old := rfl
  rw [he, State.actNi.eq_def, if_neg (by omega), if_neg (by omega), if_pos (by omega), show (0x580 + 16 * k + 4 * w - 0x580) / 16 = k by omega]

theorem shpGranted_bits (k : Nat) : (shpGranted k).lo + (shpGranted k).w ≤ 32 ∧ (shpGranted k).w = 1 := by
  unfold shpGranted
  split
  · exact ⟨by decide, rfl⟩
  · exact ⟨show 31 + 1 ≤ 32 by decide, rfl⟩

theorem exec_shaperWrite_of {k w : Nat} (hn : s.hasNi n = true) (hu : u = niUnit n) (hk : k < 16) (h8 : k ≠ 8) (hw : w < 2)
    (h : s.Goes m u (0x580 + 16 * k + 4 * w) v.toNat) : ∃ t : State, exec (.shaperWrite m n k w v) s = .next t
      ∧ (m ≠ 1 → t.flag (niB n) (shpGranted k) = false) ∧ (m = 1 → t.flag (niB n) (shpGranted k) = s.flag (niB n) (shpGranted k)) := by
  subst hu
  have hon : (s.hasNi n && decide (k < 16) && decide (w < 2)) = true := by
    rw [hn, decide_eq_true hk, decide_eq_true hw]
    rfl
  have hx : exec (.shaperWrite m n k w v) s = .next (s.store m (niB n + (0x580 + 16 * k + 4 * w)) v) := by
    refine (guardUnit_of hon _ _).trans ?_
    rw [Nat.add_assoc (niB n), Nat.add_assoc (niB n)]
  rw [hx]
  refine exec_store_acts (u := niUnit n) rfl h (fun r => enSrcs_ni r n (by omega) (by omega)) fun x => ?_
  have hkept := State.shaper_put_kept (s := s) (m := m) (n := n) hk h8 hw v.toNat
  rw [State.acts_shaper hk h8 hw, State.flag_updCmx, ← hkept]
  generalize s.put m (niUnit n) (0x580 + 16 * k + 4 * w) v.toNat = p
  obtain ⟨hb, h1⟩ := shpGranted_bits k
  refine ⟨fun hm => ?_, fun hm => by rw [if_pos hm]⟩
  rw [if_neg hm, State.flag_wr_same _ _ _ _ hb, Nat.zero_mod]
  rfl

/-! ### Routing entries (R137) -/

/-- Table `n` is unit `u`, with its entries from offset `R` on. -/
abbrev RtabUnit (s : State) (n : Nat) (u : Un) (R : Nat) : Prop :=
  n < 256 ∧ s.hasNi n = true ∧ u = niUnit n ∧ R = 0x1000
  ∨ 256 ≤ n ∧ s.hasSpan (n - 256) = true ∧ u = { kind := .sp, i := n - 256, base := spB (n - 256), target := 592 + (n - 256) } ∧ R = 0x4000

/-- The lock of a unit's routing table. -/
abbrev rtabLock (k : UK) : Lock := if k = .ni then .rtab else .spRtab

/-- A field of a routing entry: a write puts it unless the table is locked. -/
abbrev RowTakes (k : UK) (rel lo w : Nat) : Prop :=
  RowHas k rel ⟨rel, lo, w, 16⟩ ⟨lo, w, .rwl, .v 0, rtabLock k, true⟩ ∧ bitAt (actBits k rel) lo = false

/-- Of the register at `rel`, every field that can be written has the table's lock, and there is one. -/
abbrev RowLocked (k : UK) (rel : Nat) : Prop := (specAt rel (regsOf k)).any (fun x =>
  x.fields.any FSpec.writable && x.fields.all (fun f => !f.writable || f.lock == rtabLock k)) = true

/-- The four words of the entry at `r`. -/
abbrev EntryRows (k : UK) (r : Nat) : Prop :=
  RowTakes k r 0 32 ∧ RowTakes k (r + 4) 0 32 ∧ RowTakes k (r + 8) 0 5 ∧ RowTakes k (r + 8) 5 1
    ∧ (RowLocked k r ∧ RowLocked k (r + 4) ∧ RowLocked k (r + 8) ∧ RowLocked k (r + 12))
    ∧ (specAt r (regsOf k)).any RSpec.pair = true ∧ (specAt (r + 8) (regsOf k)).any RSpec.pair = true

theorem entryRows_ni : ∀ e, e < 260 → EntryRows .ni (0x1000 + 16 * e) := by decide +kernel

theorem entryRows_sp : ∀ e, e < 260 → EntryRows .sp (0x4000 + 16 * e) := by decide +kernel

namespace RtabUnit

variable (h : RtabUnit s n u R)
include h

theorem rows (he : e < 260) : EntryRows u.kind (R + 16 * e) := by
  rcases h with ⟨-, -, rfl, rfl⟩ | ⟨-, -, rfl, rfl⟩
  · exact entryRows_ni e he
  · exact entryRows_sp e he

theorem base : rtabB n e = u.base + (R + 16 * e) := by
  unfold rtabB
  rcases h with ⟨hn, -, rfl, rfl⟩ | ⟨hn, -, rfl, rfl⟩
  · rw [if_pos hn]
    exact Nat.add_assoc _ _ _
  · rw [if_neg (Nat.not_lt.mpr hn)]
    exact Nat.add_assoc _ _ _

theorem there (he : e < 260) {w : Nat} (hw : w < 2) :
    ((if n < 256 then s.hasNi n else s.hasSpan (n - 256)) && decide (e < 260) && decide (w < 2)) = true := by
  rw [decide_eq_true he, decide_eq_true hw, Bool.and_true, Bool.and_true]
  rcases h with ⟨hn, hs, -, -⟩ | ⟨hn, hs, -, -⟩
  · rw [if_pos hn]
    exact hs
  · rw [if_neg (Nat.not_lt.mpr hn)]
    exact hs

theorem guarded {f : FSpec} (hf : f.lock = rtabLock u.kind) (hr : R ≤ rel) (t : State) :
    t.guarded m u rel f = (m != 1 && t.flag u.base F.NI_RTAB_CTRL_LOCK) := by
  unfold State.guarded
  rcases h with ⟨-, -, rfl, rfl⟩ | ⟨-, -, rfl, rfl⟩
  · rw [hf, beq_eq_false_iff_ne.mpr (show rel ≠ 0x700 by omega)]
    exact (Bool.or_false _).trans (Bool.or_false _)
  · rw [hf]
    exact (Bool.or_false _).trans (Bool.or_false _)

/-- A raw write marks the entry for a check, but the Starter's does not. -/
theorem acts {j : Nat} (he : e < 260) (hj : j < 16) (t : State) (v old : Nat) :
    t.acts m u (R + 16 * e + j) v old = if m = 1 then t else t.wr u.base ⟨R + 16 * e + 8, 7, 1, 16⟩ 1 := by
  have hoff (R : Nat) : R + 8 + 16 * e = R + 16 * e + 8 := by omega
  rcases h with ⟨-, -, rfl, rfl⟩ | ⟨-, -, rfl, rfl⟩
  · have hacts : t.acts m (niUnit n) (0x1000 + 16 * e + j) v old = t.actNi m n (0x1000 + 16 * e + j) v old := rfl
    have hf : F.NI_RTAB_CTRLW_UNCHK.ix e = ⟨0x1000 + 16 * e + 8, 7, 1, 16⟩ := by rw [← hoff]; rfl
    rw [hacts, State.actNi.eq_def, if_pos (by omega), show (0x1000 + 16 * e + j - 0x1000) / 16 = e by omega, hf]
    rfl
  · have hf : F.SP_RTAB_CTRLW_UNCHK.ix e = ⟨0x4000 + 16 * e + 8, 7, 1, 16⟩ := by rw [← hoff]; rfl
    rw [← hf]
    by_cases hm : m = 1
    · rw [if_pos hm]
      exact if_neg fun hc => hc.2.2 hm
    · rw [if_neg hm]
      refine (if_pos ⟨by omega, by omega, hm⟩).trans ?_
      rw [show (0x4000 + 16 * e + j - 0x4000) / 16 = e by omega]

theorem absent {j : Nat} (he : e < 260) (hj : j < 16) (t : State) : t.absent u (R + 16 * e + j) = entryWired t.rom n e := by
  unfold State.absent
  rcases h with ⟨-, -, rfl, rfl⟩ | ⟨hn, -, rfl, rfl⟩
  · have h1 : ((0x1000 + 16 * e + j) / 8 == 0x25F8 / 8) = false := beq_eq_false_iff_ne.mpr (by omega)
    have h2 : (0x1000 + 16 * e + j == 0x26FC) = false := beq_eq_false_iff_ne.mpr (by omega)
    have h3 : decide (0x1000 ≤ 0x1000 + 16 * e + j) = true := decide_eq_true (by omega)
    have h4 : decide (0x1000 + 16 * e + j < 0x1000 + 0x1040) = true := decide_eq_true (by omega)
    have h5 : (0x1000 + 16 * e + j - 0x1000) / 16 = e := by omega
    dsimp only [niUnit]
    rw [h1, h2, h3, h4, h5]
    rfl
  · have h3 : decide (0x4000 ≤ 0x4000 + 16 * e + j) = true := decide_eq_true (by omega)
    have h4 : decide (0x4000 + 16 * e + j < 0x4000 + 0x1040) = true := decide_eq_true (by omega)
    have h5 : (0x4000 + 16 * e + j - 0x4000) / 16 = e := by omega
    have h6 : decide (0x4000 + 16 * e + j < 0x1400) = false := decide_eq_false (by omega)
    have h7 : 256 + (n - 256) = n := by omega
    dsimp only
    rw [h3, h4, h5, h6, h7, Bool.and_false, Bool.false_and, Bool.or_false]
    rfl

theorem noSrcs (r : Rom) (hr : R ≤ rel) : enSrcs r u rel = [] := by
  rcases h with ⟨-, -, rfl, rfl⟩ | ⟨-, -, rfl, rfl⟩
  · exact enSrcs_ni r n (by omega) (by omega)
  · exact if_neg (by omega)

theorem kind_ne : u.kind ≠ .hcu ∧ u.kind ≠ .rom ∧ u.kind ≠ .brom ∧ u.kind ≠ .sram ∧ u.kind ≠ .dbg ∧ u.kind ≠ .trc ∧ u.kind ≠ .glb := by
  have hk : u.kind = .ni ∨ u.kind = .sp := by
    rcases h with ⟨-, -, rfl, -⟩ | ⟨-, -, rfl, -⟩
    · exact .inl rfl
    · exact .inr rfl
  rcases hk with hk | hk
  · rw [hk]
    decide
  · rw [hk]
    decide

end RtabUnit

/-- A write that is not refused finds no lock that all its fields have. -/
theorem State.unlocked_of_not_refused {l : List (Nat × Nat)} {L : Bool} (hne : l ≠ [])
    (hL : ∀ e ∈ l, ∃ x, specAt e.1 (regsOf u.kind) = some x ∧ x.fields.any FSpec.writable = true
      ∧ ∀ f ∈ x.fields, f.writable = true → s.guarded m u e.1 f = L) (h : s.refuses m u l = false) : L = false := by
  by_contra hc
  rw [Bool.not_eq_false] at hc
  subst hc
  have hlocked : ∀ fs : List (Bool × Bool), (∀ p ∈ fs, p.1 = true) → (∃ p, p ∈ fs) →
      (fs.any (fun p => p.1) && (fs.any (fun p => p.1 && p.2) || fs.all (fun p => p.1))) = true := fun fs hall ⟨p, hp⟩ => by
    rw [List.any_eq_true.mpr ⟨p, hp, hall p hp⟩, List.all_eq_true.mpr hall, Bool.or_true]
    rfl
  have hr : s.refuses m u l = true := by
    refine hlocked _ (fun p hp => ?_) ?_
    · obtain ⟨e, he, hp⟩ := List.mem_flatMap.mp hp
      obtain ⟨x, hx, -, hg⟩ := hL e he
      simp only [hx] at hp
      obtain ⟨f, hf, rfl⟩ := List.mem_map.mp hp
      obtain ⟨hf, hw⟩ := List.mem_filter.mp hf
      exact hg f hf hw
    · obtain ⟨e, he⟩ := List.exists_mem_of_ne_nil l hne
      obtain ⟨x, hx, hany, -⟩ := hL e he
      obtain ⟨f, hf, hw⟩ := List.any_eq_true.mp hany
      refine ⟨(s.guarded m u e.1 f, f.written (bitsAt (s.view u e.1).toNat f.lo f.w) (bitsAt e.2 f.lo f.w)
        != bitsAt (s.view u e.1).toNat f.lo f.w), List.mem_flatMap.mpr ⟨e, he, ?_⟩⟩
      simp only [hx]
      exact List.mem_map.mpr ⟨f, List.mem_filter.mpr ⟨hf, hw⟩, rfl⟩
  exact nomatch hr.symm.trans h

/-! #### The two words of a raw write -/

/-- The state with both words of a raw write put, and the entry marked. -/
def State.rawPut (s : State) (m : Nat) (u : Un) (rel x : Nat) : State :=
  (s.putReg m u rel (x % 2 ^ 32)).putReg m u (rel + 4) (x / 2 ^ 32)

def State.rawMarked (s : State) (m : Nat) (u : Un) (r : Nat) : State :=
  if m = 1 then s else (s.wr u.base ⟨r + 8, 7, 1, 16⟩ 1).wr u.base ⟨r + 8, 7, 1, 16⟩ 1

theorem RtabUnit.regWrite (h : RtabUnit s n u R) (he : e < 260) {w x : Nat} (hw : w < 2) (g : State)
    (hr : g.refuses m u [(R + 16 * e + 8 * w, x % 2 ^ 32), (R + 16 * e + 8 * w + 4, x / 2 ^ 32)] = false) :
    (g.regWrite m u [(R + 16 * e + 8 * w, x % 2 ^ 32), (R + 16 * e + 8 * w + 4, x / 2 ^ 32)]) =
      (if entryWired g.rom n e then g else (g.rawPut m u (R + 16 * e + 8 * w) x).rawMarked m u (R + 16 * e), 0) := by
  obtain ⟨-, -, -, -, hdbg, htrc, -⟩ := h.kind_ne
  have hopen : ((u.kind == .dbg || u.kind == .trc) && g.dbgDis) = false := by
    rw [beq_eq_false_iff_ne.mpr hdbg, beq_eq_false_iff_ne.mpr htrc]
    rfl
  have ha : g.absent u (R + 16 * e + 8 * w) = entryWired g.rom n e := h.absent he (by omega) g
  have hb : g.absent u (R + 16 * e + 8 * w + 4) = entryWired g.rom n e := by
    rw [Nat.add_assoc _ (8 * w)]
    exact h.absent he (by omega) g
  have hact (t : State) (j r v old : Nat) (hj : j < 16) (hrel : R + 16 * e + j = r) :
      t.acted m u r v old = if m = 1 then t else t.wr u.base ⟨R + 16 * e + 8, 7, 1, 16⟩ 1 := by
    subst hrel
    rw [State.acted, h.noSrcs _ (by omega)]
    exact h.acts he hj t v old
  unfold State.regWrite
  rw [if_neg (by rw [hopen]; decide), if_neg (by rw [hr]; decide)]
  simp only [List.filter_cons, List.filter_nil, ha, hb]
  cases entryWired g.rom n e with
  | true => rfl
  | false =>
    simp only [Bool.not_false, if_true, List.map_cons, List.map_nil, List.foldl_cons, List.foldl_nil, Bool.false_eq_true, if_false,
      hact _ (8 * w) _ _ _ (by omega) rfl, hact _ (8 * w + 4) _ _ _ (by omega) (Nat.add_assoc _ _ _).symm, State.rawMarked, State.rawPut]
    by_cases hm : m = 1
    · simp only [if_pos hm]
    · simp only [if_neg hm]

end Sys2Proof.Machine
end

section
/-! SUPPORT. A raw write of a routing entry puts what it writes, and marks the entry for its check (R137). -/

namespace Sys2Proof.Machine

variable {s t : State} {m n e R w x : Nat} {u : Un}

theorem State.guarded_rows {r : Nat} {L : Bool} (hr : RowLocked u.kind r)
    (hg : ∀ f : FSpec, f.lock = rtabLock u.kind → s.guarded m u r f = L) : ∃ y, specAt r (regsOf u.kind) = some y
      ∧ y.fields.any FSpec.writable = true ∧ ∀ f ∈ y.fields, f.writable = true → s.guarded m u r f = L := by
  obtain ⟨y, hy, hd⟩ := (Option.any_eq_true _ _).mp hr
  obtain ⟨hany, hall⟩ := (Bool.and_eq_true ..).mp hd
  refine ⟨y, hy, hany, fun f hf hw => hg f ?_⟩
  have h := List.all_eq_true.mp hall f hf
  rw [hw] at h
  exact beq_iff_eq.mp h

/-- A write of fields without a lock is not refused. -/
theorem State.not_refused_of_unlocked {l : List (Nat × Nat)} (hL : ∀ e ∈ l, ∃ y, specAt e.1 (regsOf u.kind) = some y
    ∧ ∀ f ∈ y.fields, f.writable = true → s.guarded m u e.1 f = false) : s.refuses m u l = false := by
  have hfree : ∀ fs : List (Bool × Bool), (∀ p ∈ fs, p.1 = false) →
      (fs.any (fun p => p.1) && (fs.any (fun p => p.1 && p.2) || fs.all (fun p => p.1))) = false := fun fs hall => by
    rw [List.any_eq_false.mpr fun p hp => by rw [hall p hp]; decide]
    rfl
  refine hfree _ fun p hp => ?_
  obtain ⟨e, he, hp⟩ := List.mem_flatMap.mp hp
  obtain ⟨y, hy, hg⟩ := hL e he
  simp only [hy] at hp
  obtain ⟨f, hf, rfl⟩ := List.mem_map.mp hp
  obtain ⟨hf, hw⟩ := List.mem_filter.mp hf
  exact hg f hf hw

/-- A write of 8 bytes to a pair is performed on both its words (R461). -/
theorem State.perform_pair {g : State} {rel : Nat} (hs : g.asleep u = false) (hrom : u.kind ≠ .rom) (hbrom : u.kind ≠ .brom)
    (hsram : u.kind ≠ .sram) (ha : rel % 8 = 0) (hp : pairAt u rel = true) (hx : x < 2 ^ 64) :
    g.perform m u { addr := u.base + rel, wr := true, size := 3, data := BitVec.ofNat 64 x } =
      ((g.regWrite m u [(rel, x % 2 ^ 32), (rel + 4, x / 2 ^ 32)]).1, 0,
        (g.regWrite m u [(rel, x % 2 ^ 32), (rel + 4, x / 2 ^ 32)]).2) := by
  have hbase : u.base + rel - u.base = rel := Nat.add_sub_cancel_left _ _
  have hdata : (BitVec.ofNat 64 x).toNat = x := by rw [BitVec.toNat_ofNat, Nat.mod_eq_of_lt hx]
  have hlo : bitsAt x 0 32 = x % 2 ^ 32 := by rw [bitsAt, pow_zero, Nat.div_one]
  have hhi : bitsAt x 32 32 = x / 2 ^ 32 := by
    rw [bitsAt, Nat.mod_eq_of_lt]
    omega
  simp [State.perform, State.regStore, hbase, hs, ha, hrom, hbrom, hsram, hdata, hp, hlo, hhi]

theorem State.Lone.regWrite {ax tk : Nat} {l : List (Nat × Nat)} (h : State.Lone ax tk t) (hk : u.kind = .glb → tk = 0) :
    State.Lone ax tk (t.regWrite m u l).1 := by
  unfold State.regWrite
  split
  · exact h
  · split
    · exact h
    · exact (h.foldl fun _ _ h => h.putReg).foldl fun _ _ h => h.acted hk

namespace RtabUnit

variable (h : RtabUnit s n u R) (he : e < 260) (hw : w < 2)
include h he hw

theorem pair : pairAt u (R + 16 * e + 8 * w) = true := by
  obtain ⟨-, -, -, -, -, h0, h8⟩ := h.rows he
  have hpair : ∀ r, r % 8 = 0 → (specAt r (regsOf u.kind)).any RSpec.pair = true → pairAt u r = true := fun r ha hp => by
    obtain ⟨y, hy, hp⟩ := (Option.any_eq_true _ _).mp hp
    unfold pairAt
    simp only [hy, ha, hp, BEq.rfl, Bool.true_or, Bool.and_self]
  have hR : R % 8 = 0 := by
    rcases h with ⟨-, -, -, rfl⟩ | ⟨-, -, -, rfl⟩
    · rfl
    · rfl
  have h2 : w = 0 ∨ w = 1 := by omega
  rcases h2 with rfl | rfl
  · exact hpair _ (by omega) h0
  · exact hpair _ (by omega) h8

theorem locked_rows (L : Bool) (hL : L = (m != 1 && t.flag u.base F.NI_RTAB_CTRL_LOCK)) :
    ∀ y ∈ [(R + 16 * e + 8 * w, x % 2 ^ 32), (R + 16 * e + 8 * w + 4, x / 2 ^ 32)], ∃ z, specAt y.1 (regsOf u.kind) = some z
      ∧ z.fields.any FSpec.writable = true ∧ ∀ f ∈ z.fields, f.writable = true → t.guarded m u y.1 f = L := by
  obtain ⟨-, -, -, -, ⟨h0, h4, h8, h12⟩, -⟩ := h.rows he
  have hg (r : Nat) (hr : R ≤ r) (f : FSpec) (hf : f.lock = rtabLock u.kind) : t.guarded m u r f = L := (h.guarded hf hr t).trans hL.symm
  have h2 : w = 0 ∨ w = 1 := by omega
  intro y hy
  rcases List.mem_pair.mp hy with rfl | rfl
  · rcases h2 with rfl | rfl
    · exact State.guarded_rows h0 (hg _ (by omega))
    · exact State.guarded_rows h8 (hg _ (by omega))
  · rcases h2 with rfl | rfl
    · exact State.guarded_rows h4 (hg _ (by omega))
    · exact State.guarded_rows h12 (hg _ (by omega))

variable (hr : s.Reaches m u (R + 16 * e + 8 * w)) (hx : x < 2 ^ 64)
  (hno : s.refuses m u [(R + 16 * e + 8 * w, x % 2 ^ 32), (R + 16 * e + 8 * w + 4, x / 2 ^ 32)] = false)
include hno

/-- A raw write that is not refused finds the table open to its master. -/
theorem unlocked : (m != 1 && s.flag u.base F.NI_RTAB_CTRL_LOCK) = false :=
  State.unlocked_of_not_refused (List.cons_ne_nil _ _) (h.locked_rows he hw _ rfl) hno

include hr hx

theorem exec_rtabRawWrite : ∃ (g : State) (c : Cmx), { g with cmx := s.cmx } = s ∧ exec (.rtabRawWrite m n e w (BitVec.ofNat 64 x)) s = .next
    ((if entryWired s.rom n e then g else (g.rawPut m u (R + 16 * e + 8 * w) x).rawMarked m u (R + 16 * e)).updCmx (fun _ => c)) := by
  obtain ⟨-, hrom, hbrom, hsram, -, -, hglb⟩ := h.kind_ne
  have hopen := h.unlocked he hw hno
  have hpair := h.pair he hw
  have hR : R % 8 = 0 := by
    rcases h with ⟨-, -, -, rfl⟩ | ⟨-, -, -, rfl⟩
    · rfl
    · rfl
  obtain ⟨hf, hrot, h1, hunit, hreach, hl, hcut, hs, -, -, hreg, -⟩ := hr
  generalize hq : ({ addr := u.base + (R + 16 * e + 8 * w), wr := true, size := 3, data := BitVec.ofNat 64 x } : CsrReq) = q
  have haddr : q.addr = u.base + (R + 16 * e + 8 * w) := by rw [← hq]
  have hentry : s.entry? m q = .ok u := by
    have hword : (R + 16 * e + 8 * w) / 4 * 4 = R + 16 * e + 8 * w := by omega
    have hempty : emptyAt u q = false := by
      simp [emptyAt, haddr, hword, hreg]
    have hmaster : s.reaches m u q = true := by
      rw [← hq]
      exact hreach
    simp [State.entry?, haddr, hunit, hmaster, hempty]
  have hlock : s.lockBit m q = false := by
    unfold State.lockBit
    rw [← hq]
    split
    · rfl
    · exact h1 rfl
    · rfl
    · rfl
  have hg : (s.atTarget m u.target q).refuses m u [(R + 16 * e + 8 * w, x % 2 ^ 32), (R + 16 * e + 8 * w + 4, x / 2 ^ 32)] = false :=
    State.not_refused_of_unlocked fun y hy => by
      obtain ⟨z, hz, -, hall⟩ := h.locked_rows (t := s.atTarget m u.target q) (m := m) he hw false hopen.symm y hy
      exact ⟨z, hz, hall⟩
  have hperf : (s.atTarget m u.target q).perform m u q = (((s.atTarget m u.target q).regWrite m u
      [(R + 16 * e + 8 * w, x % 2 ^ 32), (R + 16 * e + 8 * w + 4, x / 2 ^ 32)]).1, 0, 0) := by
    have hp := State.perform_pair (g := s.atTarget m u.target q) (m := m) (rel := R + 16 * e + 8 * w) hs hrom hbrom hsram (by omega) hpair hx
    rw [hq] at hp
    rw [hp, h.regWrite he hw _ hg]
  have hlone := (State.lone_atTarget hf hl q).regWrite (m := m)
    (l := [(R + 16 * e + 8 * w, x % 2 ^ 32), (R + 16 * e + 8 * w + 4, x / 2 ^ 32)]) fun hk => absurd hk hglb
  have hdirect := State.direct_performed hf hrot hentry hlock hl hcut hperf hlone
  obtain ⟨⟨b, hacs, -, -, hmg, -⟩, -, -, hin⟩ := hlone
  obtain ⟨c, hc⟩ := State.responded_okay hacs hmg hin (s.cmx.brk.contains u.target)
  refine ⟨s.atTarget m u.target q, c, rfl, ?_⟩
  refine (guardUnit_of (h.there he hw) _ _).trans (congrArg Host.Outcome.next ?_)
  rw [h.base, Nat.add_assoc u.base, hq, hdirect, hc, h.regWrite he hw _ hg]
  rfl

end RtabUnit

/-! ### What the entry then reads -/

/-- What an entry reads, by the fields of its words. -/
theorem RtabUnit.entry (h : RtabUnit s n u R) (a : State) : (a.entry n e).path = a.rd u.base ⟨R + 16 * e, 0, 32, 16⟩
      + a.rd u.base ⟨R + 16 * e + 4, 0, 32, 16⟩ * 2 ^ 32
    ∧ (a.entry n e).valid = (a.rd u.base ⟨R + 16 * e + 8, 5, 1, 16⟩ == 1) ∧ (a.entry n e).unchk = (a.rd u.base ⟨R + 16 * e + 8, 7, 1, 16⟩ == 1)
    ∧ (a.entry n e).nhops = a.rd u.base ⟨R + 16 * e + 8, 0, 5, 16⟩ := by
  have hwhole (y : Word) : bitsAt y.toNat 0 32 = y.toNat := by
    rw [bitsAt, pow_zero, Nat.div_one]
    exact Nat.mod_eq_of_lt y.isLt
  have hb : rtabB n e = u.base + (R + 16 * e) := h.base
  unfold State.entry
  dsimp only
  rw [hb, State.word64]
  simp only [State.rd, Nat.add_assoc, hwhole, bitAt_eq, and_self]

section
variable {g : State} {rel lo k : Nat}

theorem State.rd_rawMarked {r : Nat} (hm : g.rawMarked m u r = t) (f : Fld) (hf : f.off ≠ r + 8 ∨ f.off = r + 8 ∧ f.lo + f.w ≤ 7) :
    t.rd u.base f = g.rd u.base f := by
  have hkept (a : State) : (a.wr u.base ⟨r + 8, 7, 1, 16⟩ 1).rd u.base f = a.rd u.base f := by
    rcases hf with hf | ⟨hf, hlo⟩
    · exact a.rd_wr_ne _ _ _ _ _ fun e => hf (Nat.add_left_cancel e)
    · exact a.rd_wr_apart u.base ⟨r + 8, 7, 1, 16⟩ f 1 hf (show 7 + 1 ≤ 32 by decide) (.inr hlo)
  rw [← hm, State.rawMarked]
  split
  · rfl
  · rw [hkept, hkept]

/-- A field of the entry takes what is written, where the table is open. -/
theorem State.rd_putReg_takes (hrow : RowTakes u.kind rel lo k) (hg : ∀ f : FSpec, f.lock = rtabLock u.kind → g.guarded m u rel f = false)
    (v : Nat) : (g.putReg m u rel v).rd u.base ⟨rel, lo, k, 16⟩ = bitsAt v lo k := by
  obtain ⟨hhas, hbit⟩ := hrow
  obtain ⟨y, hy, hd⟩ := (Option.any_eq_true _ _).mp hhas
  obtain ⟨-, -, -, hy'⟩ := of_decide_eq_true hd
  have hput := State.rd_putReg_put (s := g) (m := m) (v := v) (f := ⟨rel, lo, k, 16⟩) hy rfl rfl rfl hy' (by
    rintro (h | h | h | h)
    · exact nomatch h
    · exact nomatch h
    · exact nomatch h.symm.trans (hg _ rfl)
    · exact nomatch h.symm.trans hbit)
  have hwritten : ∀ old : Nat, (⟨lo, k, .rwl, .v 0, rtabLock u.kind, true⟩ : FSpec).written old (bitsAt v lo k) = bitsAt v lo k := fun old => by
    have hl : ¬ (rtabLock u.kind = .setOnly ∨ rtabLock u.kind = .set12) := by
      unfold rtabLock
      split
      · decide
      · decide
    exact if_neg hl
  rw [hput, hwritten]
  exact Nat.mod_eq_of_lt (bitsAt_lt _ _ _)

end

section
variable (h : RtabUnit s n u R) (he : e < 260) {g : State} (hg : { g with cmx := s.cmx } = s)
  (hopen : (m != 1 && s.flag u.base F.NI_RTAB_CTRL_LOCK) = false)
include h he hg hopen

/-- Both words of a raw write are put. -/
theorem RtabUnit.rd_rawPut (hw : w < 2) {lo k lo' k' : Nat} :
    (∀ f : Fld, f.off ≠ R + 16 * e + 8 * w → f.off ≠ R + 16 * e + 8 * w + 4 →
      (g.rawPut m u (R + 16 * e + 8 * w) x).rd u.base f = s.rd u.base f)
    ∧ (RowTakes u.kind (R + 16 * e + 8 * w) lo k →
      (g.rawPut m u (R + 16 * e + 8 * w) x).rd u.base ⟨R + 16 * e + 8 * w, lo, k, 16⟩ = bitsAt (x % 2 ^ 32) lo k)
    ∧ (RowTakes u.kind (R + 16 * e + 8 * w + 4) lo' k' →
      (g.rawPut m u (R + 16 * e + 8 * w) x).rd u.base ⟨R + 16 * e + 8 * w + 4, lo', k', 16⟩ = bitsAt (x / 2 ^ 32) lo' k') := by
  have hrd (f : Fld) : g.rd u.base f = s.rd u.base f := by
    have e := congrArg (fun a : State => a.rd u.base f) hg
    exact e
  have hR : 0x1000 ≤ R := by
    rcases h with ⟨-, -, -, rfl⟩ | ⟨-, -, -, rfl⟩
    · decide
    · decide
  have h1 := g.wordPut_putReg m u (R + 16 * e + 8 * w) (x % 2 ^ 32)
  have h2 := (g.putReg m u (R + 16 * e + 8 * w) (x % 2 ^ 32)).wordPut_putReg m u (R + 16 * e + 8 * w + 4) (x / 2 ^ 32)
  have hflag : g.flag u.base F.NI_RTAB_CTRL_LOCK = s.flag u.base F.NI_RTAB_CTRL_LOCK := by rw [State.flag, hrd, State.flag]
  have hfree (a : State) (ha : a.flag u.base F.NI_RTAB_CTRL_LOCK = s.flag u.base F.NI_RTAB_CTRL_LOCK) (r : Nat) (hr : R ≤ r) (f : FSpec)
      (hf : f.lock = rtabLock u.kind) : a.guarded m u r f = false := by
    rw [h.guarded hf hr a, ha]
    exact hopen
  refine ⟨fun f hf hf' => ?_, fun hrow => ?_, fun hrow => ?_⟩
  · rw [State.rawPut, h2.rd fun e => hf' (Nat.add_left_cancel e), h1.rd fun e => hf (Nat.add_left_cancel e)]
    exact hrd f
  · rw [State.rawPut, h2.rd (by
      show u.base + (R + 16 * e + 8 * w) ≠ u.base + (R + 16 * e + 8 * w + 4)
      omega)]
    exact State.rd_putReg_takes hrow (hfree g hflag _ (by omega)) _
  · refine State.rd_putReg_takes hrow (hfree _ ?_ _ (by omega)) _
    refine (h1.flag ?_).trans hflag
    show u.base + 0x200 ≠ u.base + (R + 16 * e + 8 * w)
    omega

end

/-- A raw write of an entry that is not wired (R137). -/
theorem exec_rtabRawWrite_puts (h : RtabUnit s n u R) (he : e < 260) (hw : w < 2) (hr : s.Reaches m u (R + 16 * e + 8 * w)) (hx : x < 2 ^ 64)
    (hwire : entryWired s.rom n e = false)
    (hno : s.refuses m u [(R + 16 * e + 8 * w, x % 2 ^ 32), (R + 16 * e + 8 * w + 4, x / 2 ^ 32)] = false) :
    ∃ t : State, exec (.rtabRawWrite m n e w (BitVec.ofNat 64 x)) s = .next t ∧ (m ≠ 1 → (t.entry n e).unchk = true)
      ∧ (w = 0 → (t.entry n e).path = x ∧ (t.entry n e).valid = (s.entry n e).valid)
      ∧ (w = 1 → (t.entry n e).path = (s.entry n e).path ∧ (t.entry n e).valid = bitAt x 5 ∧ (t.entry n e).nhops = bitsAt x 0 5) := by
  obtain ⟨g, c, hg, hexec⟩ := h.exec_rtabRawWrite he hw hr hx hno
  have hopen := h.unlocked he hw hno
  obtain ⟨r0, r4, r8, r8v, -⟩ := h.rows he
  rw [if_neg (by rw [hwire]; decide)] at hexec
  refine ⟨_, hexec, ?_⟩
  obtain ⟨hpath, hvalid, hunchk, hnhops⟩ := h.entry (e := e)
    (((g.rawPut m u (R + 16 * e + 8 * w) x).rawMarked m u (R + 16 * e)).updCmx (fun _ => c))
  obtain ⟨spath, svalid, -⟩ := h.entry (e := e) s
  simp only [State.rd_updCmx] at hpath hvalid hunchk hnhops
  have hmark (f : Fld) (hf : f.off ≠ R + 16 * e + 8 ∨ f.off = R + 16 * e + 8 ∧ f.lo + f.w ≤ 7) :=
    State.rd_rawMarked (g := g.rawPut m u (R + 16 * e + 8 * w) x) (m := m) (u := u) rfl f hf
  refine ⟨fun hm => ?_, fun h0 => ?_, fun h1 => ?_⟩
  · rw [hunchk, State.rawMarked, if_neg hm, State.rd_wr_same _ _ _ _ (show 7 + 1 ≤ 32 by decide)]
    rfl
  · subst h0
    obtain ⟨hkept, hlo, hhi⟩ := h.rd_rawPut (m := m) (x := x) (lo := 0) (k := 32) (lo' := 0) (k' := 32) he hg hopen hw
    have hwords : bitsAt (x % 2 ^ 32) 0 32 + bitsAt (x / 2 ^ 32) 0 32 * 2 ^ 32 = x := by
      rw [bitsAt, bitsAt, pow_zero, Nat.div_one, Nat.div_one]
      omega
    rw [hpath, hvalid, svalid, hmark _ (.inl (by show R + 16 * e ≠ R + 16 * e + 8; omega)),
      hmark _ (.inl (by show R + 16 * e + 4 ≠ R + 16 * e + 8; omega)), hmark _ (.inr ⟨rfl, show 5 + 1 ≤ 7 by decide⟩),
      hkept ⟨R + 16 * e + 8, 5, 1, 16⟩ (by show R + 16 * e + 8 ≠ R + 16 * e + 8 * 0; omega) (by show R + 16 * e + 8 ≠ R + 16 * e + 8 * 0 + 4; omega)]
    exact ⟨(congrArg₂ (fun a b => a + b * 2 ^ 32) (hlo r0) (hhi r4)).trans hwords, rfl⟩
  · subst h1
    obtain ⟨hkept, hlo, -⟩ := h.rd_rawPut (m := m) (x := x) (lo := 0) (k := 5) (lo' := 0) (k' := 0) he hg hopen hw
    obtain ⟨-, hlov, -⟩ := h.rd_rawPut (m := m) (x := x) (lo := 5) (k := 1) (lo' := 0) (k' := 0) he hg hopen hw
    rw [hpath, spath, hvalid, hnhops, hmark _ (.inl (by show R + 16 * e ≠ R + 16 * e + 8; omega)),
      hmark _ (.inl (by show R + 16 * e + 4 ≠ R + 16 * e + 8; omega)), hmark _ (.inr ⟨rfl, show 5 + 1 ≤ 7 by decide⟩),
      hmark _ (.inr ⟨rfl, show 0 + 5 ≤ 7 by decide⟩),
      hkept _ (by show R + 16 * e ≠ R + 16 * e + 8 * 1; omega) (by show R + 16 * e ≠ R + 16 * e + 8 * 1 + 4; omega),
      hkept _ (by show R + 16 * e + 4 ≠ R + 16 * e + 8 * 1; omega) (by show R + 16 * e + 4 ≠ R + 16 * e + 8 * 1 + 4; omega)]
    have h5 : bitsAt (x % 2 ^ 32) 5 1 = bitsAt x 5 1 := by
      rw [bitsAt, bitsAt]
      omega
    have h05 : bitsAt (x % 2 ^ 32) 0 5 = bitsAt x 0 5 := by
      rw [bitsAt, bitsAt]
      omega
    refine ⟨rfl, ?_, (hlo r8).trans h05⟩
    rw [bitAt_eq, ← h5, ← hlov r8v]

/-- A wired entry keeps its words (R137). -/
theorem exec_rtabRawWrite_wired (h : RtabUnit s n u R) (he : e < 260) (hw : w < 2) (hr : s.Reaches m u (R + 16 * e + 8 * w)) (hx : x < 2 ^ 64)
    (hwire : entryWired s.rom n e = true)
    (hno : s.refuses m u [(R + 16 * e + 8 * w, x % 2 ^ 32), (R + 16 * e + 8 * w + 4, x / 2 ^ 32)] = false) :
    ∃ t : State, exec (.rtabRawWrite m n e w (BitVec.ofNat 64 x)) s = .next t ∧ t.entry n e = s.entry n e := by
  obtain ⟨g, c, hg, hexec⟩ := h.exec_rtabRawWrite he hw hr hx hno
  rw [if_pos hwire] at hexec
  refine ⟨_, hexec, ?_⟩
  have e := congrArg (fun a : State => a.entry n e) hg
  exact e

end Sys2Proof.Machine
end

section
/-! SUPPORT. What the writes to the home layer's registers leave (R289, R322, R472, R476, R484, R502, R602, R608, R614, R624, R626). -/

namespace Sys2Proof.Machine

variable {s p : State} {m k rel : Nat} {v : Word}

/-- The unit of a block of the home layer. -/
abbrev homeUnit (b : Nat) (k : UK) : Un := { kind := k, base := b * 0x10000, target := b }

abbrev dbgUnit : Un := { kind := .dbg, base := 0xC0000, target := 10 }

/-! ### Time (R289, R322) -/

theorem State.WordPut.rootStamp {o : Nat} (h : s.WordPut o p) (h1 : timB + F.TIM_EPOCH_LO_SEC.off ≠ o) (h2 : timB + F.TIM_EPOCH_HI_SEC.off ≠ o) :
    p.rootStamp = s.rootStamp := by
  have he : p.epoch = s.epoch := by rw [State.epoch, State.rd64, h.rd h1, h.rd h2, State.epoch, State.rd64]
  rw [State.rootStamp, State.rootStamp, he, h.time]

theorem State.rootStamp_wr (s : State) (f : Fld) (v : Nat) (h : F.TIM_EPOCH_LO_SEC.off ≠ f.off ∧ F.TIM_EPOCH_HI_SEC.off ≠ f.off) :
    (s.wr timB f v).rootStamp = s.rootStamp := by
  have he : (s.wr timB f v).epoch = s.epoch := by
    rw [State.epoch, State.rd64, State.rd_wr_ne _ _ _ _ _ _ fun e => h.1 (Nat.add_left_cancel e),
      State.rd_wr_ne _ _ _ _ _ _ fun e => h.2 (Nat.add_left_cancel e), State.epoch, State.rd64]
  rw [State.rootStamp, State.rootStamp, he, State.wr_time]

/-- A capture of Fabric Time keeps its stamp in two words (R289). -/
theorem State.nowCap_spec (s : State) :
    s.nowCap.rd timB F.TIM_NOW_STAMP_LO_STAMP + 2 ^ 32 * s.nowCap.rd timB F.TIM_NOW_STAMP_HI_STAMP = s.rootStamp.toNat := by
  obtain ⟨a, ha, hr⟩ : ∃ a : State, s.nowCap = (a.wr timB F.TIM_NOW_STAMP_LO_STAMP a.rootStamp.toNat).wr timB F.TIM_NOW_STAMP_HI_STAMP
      (a.rootStamp.toNat / 2 ^ 32) ∧ a.rootStamp = s.rootStamp := by
    refine ⟨_, rfl, ?_⟩
    rw [State.rootStamp_wr _ _ _ (by decide), State.rootStamp_wr _ _ _ (by decide), State.rootStamp_wr _ _ _ (by decide),
      State.rootStamp_wr _ _ _ (by decide)]
  rw [ha, hr, State.rd_wr_ne _ timB timB F.TIM_NOW_STAMP_HI_STAMP F.TIM_NOW_STAMP_LO_STAMP _ (by decide),
    State.rd_wr_same _ timB F.TIM_NOW_STAMP_LO_STAMP _ (by decide), State.rd_wr_same _ timB F.TIM_NOW_STAMP_HI_STAMP _ (by decide)]
  have hlt := s.rootStamp.isLt
  generalize s.rootStamp.toNat = y at hlt
  show y % 2 ^ 32 + 2 ^ 32 * (y / 2 ^ 32 % 2 ^ 32) = y
  omega

/-- The work of a write of TIM.NOW_CTL. -/
theorem State.acts_nowCtl (p : State) (m w old : Nat) : p.acts m (homeUnit 2 .tim) 0x10 w old =
    (if bitAt w 1 then (if bitAt w 0 then p.nowCap else p).wr timB F.TIM_SKEW_MAX 0 else if bitAt w 0 then p.nowCap else p) := rfl

theorem exec_nowCap_of (h : s.Goes m (homeUnit 2 .tim) 0x10 (v ||| 1#32).toNat) : ∃ t : State, exec (.nowCap m v) s = .next t
    ∧ t.rd timB F.TIM_NOW_STAMP_LO_STAMP + 2 ^ 32 * t.rd timB F.TIM_NOW_STAMP_HI_STAMP = s.rootStamp.toNat := by
  refine exec_store_acts (u := homeUnit 2 .tim) rfl h (fun _ => rfl) fun x => ?_
  have hp : s.WordPut (timB + 0x10) (s.put m (homeUnit 2 .tim) 0x10 (v ||| 1#32).toNat) := s.wordPut_put m (homeUnit 2 .tim) 0x10 _
  have h0 : bitAt (v ||| 1#32).toNat 0 = true := by rw [bitAt_or]; exact Bool.or_true _
  generalize (v ||| 1#32).toNat = w at h0 hp
  rw [State.acts_nowCtl, h0, if_pos rfl, State.rd_updCmx, State.rd_updCmx, ← hp.rootStamp (by decide) (by decide)]
  have hr := (s.put m (homeUnit 2 .tim) 0x10 w).nowCap_spec
  generalize (s.put m (homeUnit 2 .tim) 0x10 w).nowCap = a at hr
  split
  · rw [State.rd_wr_ne _ timB timB F.TIM_SKEW_MAX F.TIM_NOW_STAMP_LO_STAMP _ (by decide),
      State.rd_wr_ne _ timB timB F.TIM_SKEW_MAX F.TIM_NOW_STAMP_HI_STAMP _ (by decide)]
    exact hr
  · exact hr

theorem exec_skewClr_of (h : s.Goes m (homeUnit 2 .tim) 0x10 (v ||| 2#32).toNat) :
    ∃ t : State, exec (.skewClr m v) s = .next t ∧ t.rd timB F.TIM_SKEW_MAX = 0 := by
  refine exec_store_acts (u := homeUnit 2 .tim) rfl h (fun _ => rfl) fun x => ?_
  have h1 : bitAt (v ||| 2#32).toNat 1 = true := by rw [bitAt_or]; exact Bool.or_true _
  rw [State.acts_nowCtl, if_pos h1, State.rd_updCmx]
  exact State.rd_wr_same _ timB F.TIM_SKEW_MAX 0 (by decide)

theorem rowHas_elock : RowHas .tim 0 F.TIM_CTL_ELOCK ⟨8, 1, .rwl, .v 0, .setOnly, true⟩ := by decide +kernel

/-- ELOCK, once set, stays set (R322). -/
theorem exec_elockSet_of (h : s.Goes m (homeUnit 2 .tim) 0 (v ||| 0x100#32).toNat) :
    ∃ t : State, exec (.elockSet m v) s = .next t ∧ t.flag timB F.TIM_CTL_ELOCK = true := by
  refine exec_store_acts (u := homeUnit 2 .tim) rfl h (fun _ => rfl) fun x => ?_
  have h8 : bitAt (v ||| 0x100#32).toNat 8 = true := by rw [bitAt_or]; exact Bool.or_true _
  have hbits : bitAt (actBits .tim 0) 8 = false := by decide
  have hr := State.rd_put_put (s := s) (m := m) (u := homeUnit 2 .tim) (v := (v ||| 0x100#32).toNat) rowHas_elock (by
    rintro (h | h | h | h)
    · exact nomatch h
    · exact nomatch h
    · exact nomatch h
    · exact nomatch h.symm.trans hbits)
  generalize (v ||| 0x100#32).toNat = w at h8 hr
  have hone : bitsAt w 8 1 = 1 := by
    rw [bitAt_eq] at h8
    exact beq_iff_eq.mp h8
  have hset : (s.put m (homeUnit 2 .tim) 0 w).rd timB F.TIM_CTL_ELOCK = (s.rd timB F.TIM_CTL_ELOCK ||| 1) % 2 := by
    rw [← hone]
    exact hr
  have hold := s.rd_lt timB F.TIM_CTL_ELOCK
  generalize s.rd timB F.TIM_CTL_ELOCK = o at hset hold
  have ho : o = 0 ∨ o = 1 := by
    have h2 : o < 2 := hold
    omega
  have e : (s.put m (homeUnit 2 .tim) 0 w).acts m (homeUnit 2 .tim) 0 w (s.oldView (homeUnit 2 .tim) 0 m w) =
      s.put m (homeUnit 2 .tim) 0 w := rfl
  rw [e, State.flag_updCmx, State.flag, hset]
  rcases ho with rfl | rfl
  · rfl
  · rfl

/-! ### Event logs and the scanner (R602, R608, R614) -/

theorem exec_firstLogClr_of (h : s.Goes m (homeUnit 5 .evt) 0x200 (v ||| 0x40000000#32).toNat) :
    ∃ t : State, exec (.firstLogClr m v) s = .next t ∧ t.flag evtB F.EVT_FIRST_INFO_VALID = false := by
  refine exec_store_acts (u := homeUnit 5 .evt) rfl h (fun _ => rfl) fun x => ?_
  have hb : bitAt (v ||| 0x40000000#32).toNat 30 = true := by rw [bitAt_or]; exact Bool.or_true _
  generalize (v ||| 0x40000000#32).toNat = w at hb
  generalize s.put m (homeUnit 5 .evt) 0x200 w = p
  have e : p.acts m (homeUnit 5 .evt) 0x200 w (s.oldView (homeUnit 5 .evt) 0x200 m w) = p.wr evtB F.EVT_FIRST_INFO_VALID 0 := if_pos hb
  rw [e, State.flag_updCmx]
  exact p.flag_wr_same _ _ _ (by decide)

theorem exec_nextLogClr_of (h : s.Goes m (homeUnit 5 .evt) 0x210 (v ||| 0x40000000#32).toNat) :
    ∃ t : State, exec (.nextLogClr m v) s = .next t ∧ t.flag evtB F.EVT_NEXT_INFO_VALID = false := by
  refine exec_store_acts (u := homeUnit 5 .evt) rfl h (fun _ => rfl) fun x => ?_
  have hb : bitAt (v ||| 0x40000000#32).toNat 30 = true := by rw [bitAt_or]; exact Bool.or_true _
  generalize (v ||| 0x40000000#32).toNat = w at hb
  generalize s.put m (homeUnit 5 .evt) 0x210 w = p
  have e : p.acts m (homeUnit 5 .evt) 0x210 w (s.oldView (homeUnit 5 .evt) 0x210 m w) = p.wr evtB F.EVT_NEXT_INFO_VALID 0 := if_pos hb
  rw [e, State.flag_updCmx]
  exact p.flag_wr_same _ _ _ (by decide)

/-- A commit, taken or given, begins a pass (R608, R614). -/
theorem State.crcCommit_spec (s : State) (given : Bool) : (s.crcCommit given).scan.given = given
    ∧ (s.crcCommit given).flag evtB F.EVT_STAT_COMMIT_PEND = true ∧ (s.crcCommit given).flag evtB F.EVT_STAT_PASS_BUSY = true
    ∧ (s.crcCommit given).rd evtB F.EVT_STAT_MM_CNT = 0 ∧ (s.crcCommit given).rd evtB F.EVT_CRC_REF_REF = s.rd evtB F.EVT_CRC_REF_REF := by
  obtain ⟨a, hword, hscan, e⟩ : ∃ a : State, (∀ o, a.word o = s.word o) ∧ a.scan.given = given ∧ s.crcCommit given =
      ((a.wr evtB F.EVT_STAT_COMMIT_PEND 1).wr evtB F.EVT_STAT_MM_CNT 0).wr evtB F.EVT_STAT_PASS_BUSY 1 :=
    ⟨{ s with scan := { s.scan with given := given } }, fun _ => rfl, rfl, rfl⟩
  have href : a.rd evtB F.EVT_CRC_REF_REF = s.rd evtB F.EVT_CRC_REF_REF := by rw [State.rd, hword, State.rd]
  rw [e]
  refine ⟨hscan, ?_, State.flag_wr_same _ _ _ _ (by decide), ?_, ?_⟩
  · rw [State.flag_wr_apart _ evtB F.EVT_STAT_PASS_BUSY F.EVT_STAT_COMMIT_PEND _ rfl (by decide) (by decide),
      State.flag_wr_apart _ evtB F.EVT_STAT_MM_CNT F.EVT_STAT_COMMIT_PEND _ rfl (by decide) (by decide), State.flag_wr_same _ _ _ _ (by decide)]
    rfl
  · rw [State.rd_wr_apart _ evtB F.EVT_STAT_PASS_BUSY F.EVT_STAT_MM_CNT _ rfl (by decide) (by decide),
      State.rd_wr_same _ evtB F.EVT_STAT_MM_CNT _ (by decide)]
    rfl
  · rw [State.rd_wr_ne _ evtB evtB F.EVT_STAT_PASS_BUSY F.EVT_CRC_REF_REF _ (by decide),
      State.rd_wr_ne _ evtB evtB F.EVT_STAT_MM_CNT F.EVT_CRC_REF_REF _ (by decide),
      State.rd_wr_ne _ evtB evtB F.EVT_STAT_COMMIT_PEND F.EVT_CRC_REF_REF _ (by decide), href]

theorem State.acts_crcCtl {w : Nat} (h : bitAt w 0 = true) (p : State) (m old : Nat) :
    p.acts m (homeUnit 5 .evt) 0x804 w old = p.crcCommit (bitAt w 1) := if_pos h

theorem exec_crcCommitTake_of (h : s.Goes m (homeUnit 5 .evt) 0x804 (v &&& 0xFFFFFFFC#32 ||| 1#32).toNat) :
    ∃ t : State, exec (.crcCommitTake m v) s = .next t ∧ t.scan.given = false ∧ t.flag evtB F.EVT_STAT_COMMIT_PEND = true
      ∧ t.flag evtB F.EVT_STAT_PASS_BUSY = true ∧ t.rd evtB F.EVT_STAT_MM_CNT = 0 := by
  refine exec_store_acts (u := homeUnit 5 .evt) rfl h (fun _ => rfl) fun x => ?_
  have h0 : bitAt (v &&& 0xFFFFFFFC#32 ||| 1#32).toNat 0 = true := by rw [bitAt_or]; exact Bool.or_true _
  have h1 : bitAt (v &&& 0xFFFFFFFC#32 ||| 1#32).toNat 1 = false := by
    rw [bitAt_or, bitAt_eq_testBit, BitVec.toNat_and, Nat.testBit_and, show Nat.testBit (BitVec.toNat 0xFFFFFFFC#32) 1 = false from rfl,
      Bool.and_false]
    rfl
  rw [State.acts_crcCtl h0, h1]
  obtain ⟨hgiven, hpend, hbusy, hcnt, -⟩ := (s.put m (homeUnit 5 .evt) 0x804 (v &&& 0xFFFFFFFC#32 ||| 1#32).toNat).crcCommit_spec false
  generalize (s.put m (homeUnit 5 .evt) 0x804 (v &&& 0xFFFFFFFC#32 ||| 1#32).toNat).crcCommit false = t at hgiven hpend hbusy hcnt
  exact ⟨hgiven, hpend, hbusy, hcnt⟩

theorem exec_crcCommitGiven_of (h : s.Goes m (homeUnit 5 .evt) 0x804 (v ||| 3#32).toNat) :
    ∃ t : State, exec (.crcCommitGiven m v) s = .next t ∧ t.scan.given = true ∧ t.flag evtB F.EVT_STAT_COMMIT_PEND = true
      ∧ t.rd evtB F.EVT_CRC_REF_REF = s.rd evtB F.EVT_CRC_REF_REF := by
  refine exec_store_acts (u := homeUnit 5 .evt) rfl h (fun _ => rfl) fun x => ?_
  have h0 : bitAt (v ||| 3#32).toNat 0 = true := by rw [bitAt_or]; exact Bool.or_true _
  have h1 : bitAt (v ||| 3#32).toNat 1 = true := by rw [bitAt_or]; exact Bool.or_true _
  have hp : s.WordPut (evtB + 0x804) (s.put m (homeUnit 5 .evt) 0x804 (v ||| 3#32).toNat) := s.wordPut_put m (homeUnit 5 .evt) 0x804 _
  have href := hp.rd (b := evtB) (f := F.EVT_CRC_REF_REF) (by decide)
  rw [State.acts_crcCtl h0, h1]
  obtain ⟨hgiven, hpend, -, -, hkept⟩ := (s.put m (homeUnit 5 .evt) 0x804 (v ||| 3#32).toNat).crcCommit_spec true
  have hkept' := hkept.trans href
  generalize (s.put m (homeUnit 5 .evt) 0x804 (v ||| 3#32).toNat).crcCommit true = t at hgiven hpend hkept'
  exact ⟨hgiven, hpend, hkept'⟩

/-! ### The Starter's registers (R472, R476, R484, R502) -/

theorem State.acts_loadCtl (p : State) (m w old : Nat) : p.acts m (homeUnit 1 .str) 0xC w old =
    (if bitAt w 1 then (if bitAt w 0 then p.loadStart else p).loadGo else if bitAt w 0 then p.loadStart else p) := rfl

theorem State.loadStart_of {s : State} (h : s.rd strB F.STR_BOOT_STATE = 1 ∨ s.rd strB F.STR_BOOT_STATE = 4) :
    s.loadStart.rd strB F.STR_BOOT_STATE = 1 ∧ s.loadStart.rd strB F.STR_LOAD_CTL_PTR = 0 := by
  obtain ⟨a, e⟩ : ∃ a : State, s.loadStart = ((a.wr strB F.STR_LOAD_CTL_PTR 0).wr strB F.STR_BOOT_FW_OK 0).wr strB F.STR_BOOT_STATE 1 :=
    ⟨_, if_pos h⟩
  rw [e, State.rd_wr_same _ strB F.STR_BOOT_STATE _ (by decide), State.rd_wr_ne _ strB strB F.STR_BOOT_STATE F.STR_LOAD_CTL_PTR _ (by decide),
    State.rd_wr_ne _ strB strB F.STR_BOOT_FW_OK F.STR_LOAD_CTL_PTR _ (by decide), State.rd_wr_same _ strB F.STR_LOAD_CTL_PTR _ (by decide)]
  exact ⟨rfl, rfl⟩

theorem exec_loadStart_of (h : s.Goes m (homeUnit 1 .str) 0xC (v ||| 1#32).toNat) (hv : bitAt v.toNat 1 = false)
    (hst : s.rd strB F.STR_BOOT_STATE = 1 ∨ s.rd strB F.STR_BOOT_STATE = 4) :
    ∃ t : State, exec (.loadStart m v) s = .next t ∧ t.rd strB F.STR_BOOT_STATE = 1 ∧ t.rd strB F.STR_LOAD_CTL_PTR = 0 := by
  refine exec_store_acts (u := homeUnit 1 .str) rfl h (fun _ => rfl) fun x => ?_
  obtain ⟨h0, h1⟩ := bitAt_swap hv
  have hp : s.WordPut (strB + 0xC) (s.put m (homeUnit 1 .str) 0xC (v ||| 1#32).toNat) := s.wordPut_put m (homeUnit 1 .str) 0xC _
  have hst' := hp.rd (b := strB) (f := F.STR_BOOT_STATE) (by decide)
  rw [State.acts_loadCtl, h0, h1, State.rd_updCmx, State.rd_updCmx]
  rw [← hst'] at hst
  exact State.loadStart_of hst

theorem rowKeeps_loadPtr : RowKeeps .str 0xC F.STR_LOAD_CTL_PTR := by decide +kernel

theorem exec_loadStart_off (h : s.Goes m (homeUnit 1 .str) 0xC (v ||| 1#32).toNat) (hv : bitAt v.toNat 1 = false)
    (hn1 : s.rd strB F.STR_BOOT_STATE ≠ 1) (hn4 : s.rd strB F.STR_BOOT_STATE ≠ 4) :
    ∃ t : State, exec (.loadStart m v) s = .next t ∧ t.rd strB F.STR_BOOT_STATE = s.rd strB F.STR_BOOT_STATE
      ∧ t.rd strB F.STR_LOAD_CTL_PTR = s.rd strB F.STR_LOAD_CTL_PTR := by
  refine exec_store_acts (u := homeUnit 1 .str) rfl h (fun _ => rfl) fun x => ?_
  obtain ⟨h0, h1⟩ := bitAt_swap hv
  have hp : s.WordPut (strB + 0xC) (s.put m (homeUnit 1 .str) 0xC (v ||| 1#32).toNat) := s.wordPut_put m (homeUnit 1 .str) 0xC _
  have hst := hp.rd (b := strB) (f := F.STR_BOOT_STATE) (by decide)
  have hptr := State.rd_put_kept (s := s) (m := m) (u := homeUnit 1 .str) rowKeeps_loadPtr (v ||| 1#32).toNat
  generalize s.put m (homeUnit 1 .str) 0xC (v ||| 1#32).toNat = p at hst hptr
  have hnone : p.loadStart = p := if_neg (by rw [hst]; rintro (h | h); exacts [hn1 h, hn4 h])
  rw [State.acts_loadCtl, h0, h1, if_pos rfl, hnone, State.rd_updCmx, State.rd_updCmx]
  exact ⟨hst, hptr⟩

theorem exec_loadGo_of (h : s.Goes m (homeUnit 1 .str) 0xC (v ||| 2#32).toNat) (hv : bitAt v.toNat 0 = false)
    (hst : s.rd strB F.STR_BOOT_STATE = 1) : ∃ t : State, exec (.loadGo m v) s = .next t ∧ t.rd strB F.STR_BOOT_STATE = 2 := by
  refine exec_store_acts (u := homeUnit 1 .str) rfl h (fun _ => rfl) fun x => ?_
  have h0 : bitAt (v ||| 2#32).toNat 0 = false := by rw [bitAt_or, hv]; rfl
  have h1 : bitAt (v ||| 2#32).toNat 1 = true := by rw [bitAt_or]; exact Bool.or_true _
  have hp : s.WordPut (strB + 0xC) (s.put m (homeUnit 1 .str) 0xC (v ||| 2#32).toNat) := s.wordPut_put m (homeUnit 1 .str) 0xC _
  have hst' := (hp.rd (b := strB) (f := F.STR_BOOT_STATE) (by decide)).trans hst
  generalize s.put m (homeUnit 1 .str) 0xC (v ||| 2#32).toNat = p at hst'
  have hgo : p.loadGo = p.wr strB F.STR_BOOT_STATE 2 := if_pos hst'
  rw [State.acts_loadCtl, h0, h1, if_pos rfl, if_neg (by decide), hgo, State.rd_updCmx]
  exact p.rd_wr_same strB F.STR_BOOT_STATE 2 (by decide)

/-- Four bytes that are put at `q` on, each at its place. -/
theorem mget_loaded (l : Map Byte) (q w : Nat) {i : Nat} (hi : i < 4) : mget (fun _ => 0) ((leBytes 4 w).zipIdx.foldl
    (fun (m : Map Byte) e => mset (fun _ => 0) m ((q + e.2) % 0x40000) e.1) l) ((q + i) % 0x40000) = BitVec.ofNat 8 (w / 2 ^ (8 * i)) := by
  have hfold : (leBytes 4 w).zipIdx.foldl (fun (m : Map Byte) e => mset (fun _ => 0) m ((q + e.2) % 0x40000) e.1) l =
      mset (fun _ => 0) (mset (fun _ => 0) (mset (fun _ => 0) (mset (fun _ => 0) l ((q + 0) % 0x40000) (BitVec.ofNat 8 w))
        ((q + 1) % 0x40000) (BitVec.ofNat 8 (w / 256))) ((q + 2) % 0x40000) (BitVec.ofNat 8 (w / 256 / 256)))
        ((q + 3) % 0x40000) (BitVec.ofNat 8 (w / 256 / 256 / 256)) := rfl
  rw [hfold]
  have h4 : i = 0 ∨ i = 1 ∨ i = 2 ∨ i = 3 := by omega
  rcases h4 with rfl | rfl | rfl | rfl
  · rw [mget_mset_ne _ _ _ (by omega), mget_mset_ne _ _ _ (by omega), mget_mset_ne _ _ _ (by omega), mget_mset_same]
    rw [Nat.mul_zero, pow_zero, Nat.div_one]
  · rw [mget_mset_ne _ _ _ (by omega), mget_mset_ne _ _ _ (by omega), mget_mset_same]
    rfl
  · rw [mget_mset_ne _ _ _ (by omega), mget_mset_same, Nat.div_div_eq_div_mul]
    rfl
  · rw [mget_mset_same, Nat.div_div_eq_div_mul, Nat.div_div_eq_div_mul]
    rfl

theorem State.loadData_spec (s : State) (w : Nat) : (∀ i, i < 4 → mget (fun _ => 0) (s.loadData w).starter.sram
      ((s.rd strB F.STR_LOAD_CTL_PTR + i) % 0x40000) = BitVec.ofNat 8 (w / 2 ^ (8 * i)))
    ∧ (s.loadData w).rd strB F.STR_LOAD_CTL_PTR = (s.rd strB F.STR_LOAD_CTL_PTR + 4) % 2 ^ 18 := by
  refine ⟨fun i hi => ?_, State.rd_wr_same _ strB F.STR_LOAD_CTL_PTR _ (by decide)⟩
  exact mget_loaded s.starter.sram (s.rd strB F.STR_LOAD_CTL_PTR) w hi

theorem exec_loadData_of {i q : Nat} (h : s.Goes m (homeUnit 1 .str) 0x10 v.toNat) (hq : q = s.rd strB F.STR_LOAD_CTL_PTR) (hi : i < 4) :
    ∃ t : State, exec (.loadData m v) s = .next t ∧ mget (fun _ => 0) t.starter.sram ((q + i) % 0x40000) = BitVec.ofNat 8 (v.toNat / 2 ^ (8 * i))
      ∧ t.rd strB F.STR_LOAD_CTL_PTR = (q + 4) % 2 ^ 18 := by
  refine exec_store_acts (u := homeUnit 1 .str) rfl h (fun _ => rfl) fun x => ?_
  have hp : s.WordPut (strB + 0x10) (s.put m (homeUnit 1 .str) 0x10 v.toNat) := s.wordPut_put m (homeUnit 1 .str) 0x10 _
  have hptr := (hp.rd (b := strB) (f := F.STR_LOAD_CTL_PTR) (by decide)).trans hq.symm
  have e : (s.put m (homeUnit 1 .str) 0x10 v.toNat).acts m (homeUnit 1 .str) 0x10 v.toNat (s.oldView (homeUnit 1 .str) 0x10 m v.toNat) =
      (s.put m (homeUnit 1 .str) 0x10 v.toNat).loadData v.toNat := rfl
  obtain ⟨hbytes, hr⟩ := (s.put m (homeUnit 1 .str) 0x10 v.toNat).loadData_spec v.toNat
  rw [hptr] at hbytes hr
  have hb := hbytes i hi
  rw [e]
  generalize (s.put m (homeUnit 1 .str) 0x10 v.toNat).loadData v.toNat = t at hb hr
  exact ⟨hb, hr⟩

theorem exec_wdogKick_of (h : s.Goes m (homeUnit 1 .str) 0x34 (v ||| 0x80000000#32).toNat) :
    ∃ t : State, exec (.wdogKick m v) s = .next t ∧ t.starter.wdog = s.clock := by
  refine exec_store_acts (u := homeUnit 1 .str) rfl h (fun _ => rfl) fun x => ?_
  have hb : bitAt (v ||| 0x80000000#32).toNat 31 = true := by rw [bitAt_or]; exact Bool.or_true _
  have hclock := (s.wordPut_put m (homeUnit 1 .str) 0x34 (v ||| 0x80000000#32).toNat).clock
  generalize (v ||| 0x80000000#32).toNat = w at hb hclock
  generalize s.put m (homeUnit 1 .str) 0x34 w = p at hclock
  have e : p.acts m (homeUnit 1 .str) 0x34 w (s.oldView (homeUnit 1 .str) 0x34 m w) =
      { p with starter := { p.starter with wdog := p.clock } } := if_pos hb
  rw [e]
  exact hclock

/-- The work of a write of a mailbox's doorbell (R484). -/
theorem State.acts_mbxCtl {w : Nat} (hk : k < 4) (hb : bitAt w 0 = true) (p : State) (m old : Nat) :
    p.acts m (homeUnit 1 .str) (0x200 + 16 * k) w old = p.doorbell k := by
  have e : p.acts m (homeUnit 1 .str) (0x200 + 16 * k) w old = p.actStr (0x200 + 16 * k) w := rfl
  rw [e, State.actStr.eq_def]
  split
  next h => omega
  next h => omega
  next h => omega
  next =>
    rw [if_pos ⟨by omega, by omega, by omega, hb⟩, show (0x200 + 16 * k - 0x200) / 16 = k by omega]

theorem rowKeeps_mbxBusy : ∀ k, k < 4 → RowKeeps .str (0x200 + 16 * k) (F.STR_MBX_BUSY.ix k) := by decide +kernel

theorem exec_mbxDoorbell_store (hk : k < 4) :
    exec (.mbxDoorbell m k v) s = .next (s.store m (strB + (0x200 + 16 * k)) (v ||| 1#32)) := by
  refine (guardUnit_of (decide_eq_true hk) _ _).trans ?_
  rw [Nat.add_assoc strB]

theorem enSrcs_str (r : Rom) (rel : Nat) : enSrcs r (homeUnit 1 .str) rel = [] := rfl

theorem exec_mbxDoorbell_free (hk : k < 4) (h : s.Goes m (homeUnit 1 .str) (0x200 + 16 * k) (v ||| 1#32).toNat)
    (hbusy : s.rd strB (F.STR_MBX_BUSY.ix k) = 0) : ∃ t : State, exec (.mbxDoorbell m k v) s = .next t
      ∧ t.rd strB (F.STR_MBX_BUSY.ix k) = 1 ∧ t.cmdQ.length = s.cmdQ.length + 1 ∧ t.cmdNext = s.cmdNext + 1 := by
  rw [exec_mbxDoorbell_store hk]
  refine exec_store_acts (u := homeUnit 1 .str) rfl h (fun r => enSrcs_str r _) fun x => ?_
  have h0 : bitAt (v ||| 1#32).toNat 0 = true := by rw [bitAt_or]; exact Bool.or_true _
  obtain ⟨hrest, -⟩ := s.wordPut_put m (homeUnit 1 .str) (0x200 + 16 * k) (v ||| 1#32).toNat
  have hb := (State.rd_put_kept (s := s) (m := m) (u := homeUnit 1 .str) (rowKeeps_mbxBusy k hk) (v ||| 1#32).toNat).trans hbusy
  have hq := congrArg (fun a : State => a.cmdQ.length) hrest
  have hnext := congrArg State.cmdNext hrest
  rw [State.acts_mbxCtl hk h0]
  generalize s.put m (homeUnit 1 .str) (0x200 + 16 * k) (v ||| 1#32).toNat = p at hb hq hnext
  obtain ⟨c, e⟩ : ∃ c : Cmd, p.doorbell k = (p.wr strB (F.STR_MBX_BUSY.ix k) 1).submit c := by
    refine ⟨_, if_neg ?_⟩
    rw [show p.rd strB (F.STR_MBX_BUSY.ix k) = 0 from hb]
    decide
  have hsub (a : State) : (a.submit c).rd strB (F.STR_MBX_BUSY.ix k) = a.rd strB (F.STR_MBX_BUSY.ix k)
      ∧ (a.submit c).cmdQ.length = a.cmdQ.length + 1 ∧ (a.submit c).cmdNext = a.cmdNext + 1 := ⟨rfl, List.length_append, rfl⟩
  obtain ⟨hrd, hlen, hnum⟩ := hsub (p.wr strB (F.STR_MBX_BUSY.ix k) 1)
  rw [p.rd_wr_same strB (F.STR_MBX_BUSY.ix k) 1 (show 8 + 1 ≤ 32 by decide)] at hrd
  rw [p.wr_cmdQ, show p.cmdQ.length = s.cmdQ.length from hq] at hlen
  rw [p.wr_cmdNext, show p.cmdNext = s.cmdNext from hnext] at hnum
  rw [e]
  generalize (p.wr strB (F.STR_MBX_BUSY.ix k) 1).submit c = t at hrd hlen hnum
  exact ⟨hrd, hlen, hnum⟩

theorem exec_mbxDoorbell_busy (hk : k < 4) (h : s.Goes m (homeUnit 1 .str) (0x200 + 16 * k) (v ||| 1#32).toNat)
    (hbusy : s.rd strB (F.STR_MBX_BUSY.ix k) = 1) : ∃ t : State, exec (.mbxDoorbell m k v) s = .next t
      ∧ t.flag strB (F.STR_MBX_OVERRUN.ix k) = true ∧ t.cmdQ = s.cmdQ ∧ t.cmds = s.cmds := by
  rw [exec_mbxDoorbell_store hk]
  refine exec_store_acts (u := homeUnit 1 .str) rfl h (fun r => enSrcs_str r _) fun x => ?_
  have h0 : bitAt (v ||| 1#32).toNat 0 = true := by rw [bitAt_or]; exact Bool.or_true _
  obtain ⟨hrest, -⟩ := s.wordPut_put m (homeUnit 1 .str) (0x200 + 16 * k) (v ||| 1#32).toNat
  have hb := (State.rd_put_kept (s := s) (m := m) (u := homeUnit 1 .str) (rowKeeps_mbxBusy k hk) (v ||| 1#32).toNat).trans hbusy
  have hq := congrArg State.cmdQ hrest
  have hc := congrArg State.cmds hrest
  rw [State.acts_mbxCtl hk h0]
  generalize s.put m (homeUnit 1 .str) (0x200 + 16 * k) (v ||| 1#32).toNat = p at hb hq hc
  have e : p.doorbell k = p.wr strB (F.STR_MBX_OVERRUN.ix k) 1 := if_pos hb
  rw [e, State.flag_updCmx]
  have hf : (p.wr strB (F.STR_MBX_OVERRUN.ix k) 1).flag strB (F.STR_MBX_OVERRUN.ix k) = true :=
    (p.flag_wr_same strB (F.STR_MBX_OVERRUN.ix k) 1 (show 10 + 1 ≤ 32 by decide)).trans (show (1 % 2 ^ 1 == 1) = true from rfl)
  rw [← p.wr_cmdQ strB (F.STR_MBX_OVERRUN.ix k) 1] at hq
  rw [← p.wr_cmds strB (F.STR_MBX_OVERRUN.ix k) 1] at hc
  generalize p.wr strB (F.STR_MBX_OVERRUN.ix k) 1 = t at hf hq hc
  exact ⟨hf, hq, hc⟩

end Sys2Proof.Machine
end

section
/-! SUPPORT. What resets by command leave of a region and of an NI (R545, R558), and what time sync takes (R317). -/

namespace Sys2Proof.Machine

variable {s t p : State} {m n g k rel : Nat} {v : Word}

/-! ### A region under its reset (R558) -/

namespace State.RgsSame

theorem nearCmds {u : State} (h : s.RgsSame t) (k : t.NearCmds u) : s.RgsSame u := h.of_rgs (congrArg State.rgs k :)
theorem setPf {k v} (h : s.RgsSame t) : s.RgsSame (t.setPf k v) := h.of_rgs rfl
theorem updNi {n f} (h : s.RgsSame t) : s.RgsSame (t.updNi n f) := h.of_rgs rfl
theorem setNi {n x} (h : s.RgsSame t) : s.RgsSame (t.setNi n x) := h.of_rgs rfl
theorem updTime {f} (h : s.RgsSame t) : s.RgsSame (t.updTime f) := h.of_rgs rfl
theorem jointsLost {c} (h : s.RgsSame t) : s.RgsSame (t.jointsLost c) := h.of_rgs rfl
theorem setSps {x} (h : s.RgsSame t) : s.RgsSame { t with sps := x } := h.of_rgs rfl
theorem clearPort {o dead} (h : s.RgsSame t) : s.RgsSame (t.clearPort o dead) := h.setPort
theorem resetWindow {lo size keep} (h : s.RgsSame t) : s.RgsSame (t.resetWindow lo size keep) := h.of_rgs rfl
theorem updCmx {f} (h : s.RgsSame t) : s.RgsSame (t.updCmx f) := h.of_rgs rfl

theorem forAll {n : Nat} {f : Nat → State → State} (hf : ∀ i a, s.RgsSame a → s.RgsSame (f i a)) (h : s.RgsSame t) :
    s.RgsSame (Machine.forAll n f t) := h.foldl fun a i => hf i a

theorem pfLost {u} (h : s.RgsSame t) : s.RgsSame (t.pfLost u) := h.foldl fun _ _ h => .ite h.setPf h

theorem setPin {k owner ni} (h : s.RgsSame t) : s.RgsSame (t.setPin k owner ni) := h.wr.wr.wr.wr

theorem rgGo {g st} (h : s.RgsSame t) : s.RgsSame (t.rgGo g st) := by
  rw [State.rgGo_eq]
  have hsaved : s.RgsSame (t.intSaved g st) := .ite (h.of_rgs rfl) h
  exact .ite h (raise (.ite hsaved.wr.wr hsaved.wr))

theorem resetRtr {p r dead} (h : s.RgsSame t) : s.RgsSame (t.resetRtr p r dead) :=
  (h.foldl fun _ _ h => h.clearPort).resetWindow.pfLost

theorem sbLog {n addr id status kind} (h : s.RgsSame t) : s.RgsSame (t.sbLog n addr id status kind) :=
  .ite h h.wr.wr.wr.wr.wr.wr

theorem resetNi {n dead} (h : s.RgsSame t) : s.RgsSame (t.resetNi n dead) := by
  have hstores : s.RgsSame (t.discardStores n) := h.foldl fun _ _ h => h.count.sbLog
  have hclaims : s.RgsSame ((t.discardStores n).dropClaims n) := (hstores.forAll fun _ _ h => .ite h.setPin h).wr.wr.wr.wr.wr
  exact hclaims.resetWindow.count.setNi.updNi.setPort.setPort.pfLost

theorem replyOpt {x status data} (h : s.RgsSame t) : s.RgsSame (t.replyOpt x status data) := by
  unfold State.replyOpt
  split
  · exact h
  · exact h.nearCmds (State.nearCmds_reply _ _ _ _)

theorem give {kind who} (h : s.RgsSame t) : s.RgsSame (t.give kind who) := .ite (h.of_rgs rfl) (h.of_rgs rfl)

theorem trainReply {k j status data} (h : s.RgsSame t) : s.RgsSame (t.trainReply k j status data) := by
  unfold State.trainReply
  exact h.replyOpt.updLk

theorem dropLinks {k} (h : s.RgsSame t) : s.RgsSame (t.dropLinks k) :=
  h.foldl fun _ _ h => h.trainReply.give.updLk.jointsLost

theorem resetSpan {k dead} (h : s.RgsSame t) : s.RgsSame (t.resetSpan k dead) := by
  unfold State.resetSpan
  exact h.dropLinks.resetWindow.setSps.clearPort.clearPort.pfLost.updTime

theorem farSides {o} (h : s.RgsSame t) : s.RgsSame (t.farSides o) := by
  unfold State.farSides
  split
  · exact h
  · exact .ite h h.updPort

theorem credits {o vc k} (h : s.RgsSame t) : s.RgsSame (t.credits o vc k) := h.foldl fun _ _ h => h.credit

theorem sinkPlane {k p v fuel} (h : s.RgsSame t) : s.RgsSame (t.sinkPlane k p v fuel) := by
  induction fuel generalizing t with
  | zero => exact h
  | succ fuel ih =>
    dsimp only [State.sinkPlane]
    split
    · exact h
    · split
      · exact h
      · split
        · exact h
        · exact ih (.ite h.updPort.credits.count h.updPort.credits)

theorem xbDrop {c v tail} (h : s.RgsSame t) : s.RgsSame (t.xbDrop c v tail) := by
  have hrx {a : State} (ha : s.RgsSame a) : s.RgsSame (a.rxDrop c v) := by
    unfold State.rxDrop
    split
    · exact ha
    · exact ha.updLk.updLk
  unfold State.xbDrop
  split
  · exact h
  · exact .ite h.updLk (hrx h.updLk)

theorem sinkXb {c v fuel} (h : s.RgsSame t) : s.RgsSame (t.sinkXb c v fuel) := by
  induction fuel generalizing t with
  | zero => exact h
  | succ fuel ih =>
    dsimp only [State.sinkXb]
    split
    · exact h
    · split
      · exact h
      · split
        · exact h
        · exact ih (.ite h.xbDrop.count h.xbDrop)

theorem resetUnits {g} (h : s.RgsSame t) : s.RgsSame (t.resetUnits g) :=
  ((((((h.foldl (fun _ _ h => h.resetRtr.resetRtr)).foldl (fun _ _ h => h.resetNi)).foldl (fun _ _ h => h.resetSpan)).foldl
    (fun _ _ h => h.clearPort)).foldl (fun _ _ h => h.updPort)).foldl (fun _ _ h => h.farSides)).foldl
    (fun _ _ h => h.foldl fun _ _ h => h.sinkPlane.sinkPlane.foldl fun _ _ h => h.sinkXb)

theorem breakLock {t' cause} (h : s.RgsSame t) : s.RgsSame (t.breakLock t' cause) :=
  h.of_rgs (congrArg State.rgs (State.CmxOnly.breakLock t t' cause).rest :)

end State.RgsSame

/-- Accesses to another region's targets are cut; of the rest, the Control Matrix alone changes. -/
theorem State.Lone.cutAccesses_eq {ax tk : Nat} (h : State.Lone ax tk t) (hg : tgtRegion t.rom tk ≠ some g) :
    ∃ x : Cmx, t.cutAccesses g = t.updCmx (fun _ => x) := by
  obtain ⟨⟨a, ha, hser, hrsp, hmg, hat⟩, howed, hlock, hn⟩ := h
  have hmiss : (a.gr.isSome && a.rsp.isNone && tgtRegion t.rom a.tgt == some g) = false := by
    rw [hat, beq_false_of_ne hg, Bool.and_false]
  have hl : State.Lone ax tk { t with cmx := { t.cmx with acs := [a] } } := ⟨⟨a, rfl, hser, hrsp, hmg, hat⟩, howed, hlock, hn⟩
  have hcut : t.cutAccesses g = ({ t with cmx := { t.cmx with acs := [a] } } : State).flushCmx := by
    unfold State.cutAccesses
    simp only [ha, List.filter_cons, hmiss, Bool.false_and, Bool.not_false, if_true, List.filter_nil, List.map_cons, List.map_nil,
      Bool.false_eq_true, if_false]
  exact ⟨_, hcut.trans hl.flush⟩

/-- The region that a command resets is held, and waits for its release. -/
theorem State.rg_rgReset {ax tk : Nat} (h : State.Lone ax tk t) (hg : tgtRegion t.rom tk ≠ some g) :
    ((t.rgReset g 0).rg g).held = true ∧ ((t.rgReset g 0).rg g).wake = 4 := by
  have hr : t.SameBase ((t.stepCut g 0x33).abortEntry g 0x37) := (State.SameBase.refl t).stepCut.abortEntry
  have hl : State.Lone ax tk ((t.stepCut g 0x33).abortEntry g 0x37) := h.stepCut.abortEntry
  rw [State.rgReset_command]
  generalize (t.stepCut g 0x33).abortEntry g 0x37 = a at hr hl ⊢
  have hsame : (a.updRg g (fun r => { r with
      prev := 0
      goal := none
      ready := false
      comb := false
      gated := false
      wake := 4
      held := true })).RgsSame (a.rgHeld g) := (State.RgsSame.refl _).rgGo.setBit.setBit.wr.resetUnits
  have hrg : ((a.rgHeld g).rg g).held = true ∧ ((a.rgHeld g).rg g).wake = 4 := by
    rw [hsame.rg, State.rg_updRg_same]
    exact ⟨rfl, rfl⟩
  replace hr : t.SameBase (a.rgHeld g) := hr.updRg.rgGo.setBit.setBit.wr.resetUnits
  replace hl := hl.rgHeld (g := g)
  generalize a.rgHeld g = b at hr hl hrg ⊢
  rw [← hr.rom] at hg
  obtain ⟨x, hx⟩ := hl.cutAccesses_eq hg
  have hend : b.RgsSame ((b.cmx.locks.map (fun e => e.1)).foldl (fun a t => if tgtRegion a.rom t = some g then a.breakLock t 2 else a)
      (b.cutAccesses g)).refreshTime := by
    rw [hx]
    exact ((State.RgsSame.refl b).updCmx.foldl fun _ _ h => .ite h.breakLock h).near (State.near_refreshTime _)
  rw [hend.rg]
  exact hrg

theorem forAll_only {f : Nat → State → State} {g N : Nat} (hf : ∀ i a, i ≠ g → f i a = a) (hg : g < N) (s : State) : forAll N f s = f g s := by
  have hbelow : ∀ j, j ≤ g → forAll j f s = s := by
    intro j
    induction j with
    | zero => exact fun _ => rfl
    | succ j ih => exact fun hj => by rw [forAll_succ, ih (by omega), hf j _ (by omega)]
  have habove : ∀ j, forAll (g + 1 + j) f s = f g s := by
    intro j
    induction j with
    | zero => rw [Nat.add_zero, forAll_succ, hbelow g (Nat.le_refl g)]
    | succ j ih => rw [← Nat.add_assoc, forAll_succ, ih, hf _ _ (by omega)]
  have h := habove (N - (g + 1))
  rwa [show g + 1 + (N - (g + 1)) = N by omega] at h

theorem exec_rstCtlRegion_of (h : s.Goes m (homeUnit 0 .glb) 0xC0 v.toNat) (hv : v.toNat = 2 ^ g) (hg : s.hasRegion g = true)
    (hne : g ≠ s.rom.homeRegion) : ∃ t : State, exec (.rstCtlRegion m v) s = .next t ∧ (t.rg g).held = true ∧ (t.rg g).wake = 4 := by
  refine exec_store_acts (u := homeUnit 0 .glb) rfl h (fun _ => rfl) fun x => ?_
  have hrom := (s.wordPut_put m (homeUnit 0 .glb) 0xC0 v.toNat).rom
  obtain ⟨⟨hf, -, -, -, -, hl, -⟩, -⟩ := h
  have hlone : State.Lone s.cmx.next 0 (s.put m (homeUnit 0 .glb) 0xC0 v.toNat) :=
    (State.lone_atTarget (u := homeUnit 0 .glb) hf hl (wreq (homeUnit 0 .glb) 0xC0 v.toNat)).putReg
  generalize s.put m (homeUnit 0 .glb) 0xC0 v.toNat = p at hrom hlone
  have e : p.acts m (homeUnit 0 .glb) 0xC0 v.toNat (s.oldView (homeUnit 0 .glb) 0xC0 m v.toNat) = forAll p.rom.regions.length
      (fun g a => if bitAt v.toNat g = true ∧ g ≠ a.rom.homeRegion then a.rgReset g 0 else a) p := rfl
  have hbit (i : Nat) : bitAt v.toNat i = decide (i = g) := by
    rw [bitAt_eq_testBit, hv, Nat.testBit_two_pow]
    exact decide_eq_decide.mpr eq_comm
  have hlt : g < p.rom.regions.length := by
    rw [hrom]
    exact of_decide_eq_true hg
  rw [e, forAll_only (fun i a hi => if_neg fun hc => hi (of_decide_eq_true ((hbit i).symm.trans hc.1))) hlt,
    if_pos ⟨(hbit g).trans (decide_eq_true rfl), by rw [hrom]; exact hne⟩]
  have hr := State.rg_rgReset (g := g) hlone (by
    rw [hrom]
    exact fun hc => hne (Option.some.inj hc).symm)
  generalize p.rgReset g 0 = t at hr
  exact hr

/-! ### An NI under its reset (R545) -/

theorem State.port_setPort_dead {a o : Port} {x : PortSt} (hx : x.dead = true) (h : (s.port a).dead = true ∨ a = o) :
    ((s.setPort o x).port a).dead = true := by
  by_cases hk : portKey a = portKey o
  · have e : (s.setPort o x).port a = x := by
      rw [State.port, State.setPort, hk]
      exact mget_mset_same _ _ _ _
    rw [e, hx]
  · have e : (s.setPort o x).port a = s.port a := mget_mset_ne _ _ _ hk
    rw [e]
    exact h.resolve_right fun e => hk (congrArg portKey e)

theorem State.pfLost_eq (s : State) (u : Site) : (s.pfLost u).nis = s.nis ∧ (s.pfLost u).ports = s.ports := by
  have h : ∀ (l : List Nat) (a : State), (l.foldl (fun a i =>
      if a.pfState i = 2 then a.setPf i { a.pf i with lost := u :: (a.pf i).lost, got := (a.pf i).got.filter (fun v => v != u) }
      else a) a).nis = a.nis ∧ (l.foldl (fun a i =>
      if a.pfState i = 2 then a.setPf i { a.pf i with lost := u :: (a.pf i).lost, got := (a.pf i).got.filter (fun v => v != u) }
      else a) a).ports = a.ports := by
    intro l
    induction l with
    | nil => exact fun a => ⟨rfl, rfl⟩
    | cons i r ih =>
      intro a
      rw [List.foldl_cons]
      split
      · exact ih (a.setPf i _)
      · exact ih a
  exact h _ s

/-- A shaper's rates that are loaded again leave the NI down, and without tags. -/
theorem NiSt.setShapers_kept (f : Nat → Shaper) (l : List Nat) : ∀ x : NiSt,
    (l.foldl (fun y k => y.setShaper k (f k)) x).up = x.up ∧ (l.foldl (fun y k => y.setShaper k (f k)) x).tags = x.tags := by
  induction l with
  | nil => exact fun x => ⟨rfl, rfl⟩
  | cons k r ih => exact fun x => ih (x.setShaper k (f k))

/-- NI `n` is down, holds no request, and its planes' ports are dead. -/
structure State.NiDown (s : State) (n : Nat) : Prop where
  up : (s.ni n).up = false
  tags : (s.ni n).tags = []
  port0 : (s.port (.ni 0 n)).dead = true
  port1 : (s.port (.ni 1 n)).dead = true

namespace State.NiDown

theorem setPort {o : Port} {x : PortSt} (h : s.NiDown n) (hx : x.dead = true) : (s.setPort o x).NiDown n :=
  ⟨h.up, h.tags, State.port_setPort_dead hx (.inl h.port0), State.port_setPort_dead hx (.inl h.port1)⟩

theorem of_kept (h : s.NiDown n) (hn : (s.ni n).Told (t.ni n)) (hp : t.ports = s.ports) : t.NiDown n := by
  have hport (o : Port) : t.port o = s.port o := by rw [State.port, hp, State.port]
  exact ⟨(congrArg NiSt.up hn :).trans h.up, (congrArg NiSt.tags hn :).trans h.tags, by rw [hport, h.port0], by rw [hport, h.port1]⟩

theorem breakLock (h : s.NiDown n) (x cause : Nat) : (s.breakLock x cause).NiDown n := by
  have hn : s.NisTold (s.breakLock x cause) := by
    unfold State.breakLock
    split
    · exact .refl s
    · exact .glEvent (.ite (.wr (.of_nis (.refl s) rfl)) (.wr (.wr (.wr (.wr (.wr (.of_nis (.refl s) rfl)))))))
  exact h.of_kept (hn.told n) (congrArg State.ports (State.CmxOnly.breakLock s x cause).rest :)

theorem resetNi (s : State) (n : Nat) : (s.resetNi n true).NiDown n := by
  obtain ⟨a, x, hup, htags, e⟩ : ∃ (a : State) (x : NiSt), x.up = false ∧ x.tags = [] ∧ s.resetNi n true =
      (((((a.setNi n x).loadShapers n).setPort (.ni 0 n) { (((a.setNi n x).loadShapers n).port (.ni 0 n)).linkOnly with dead := true }).setPort
        (.ni 1 n) { ((((a.setNi n x).loadShapers n).setPort (.ni 0 n)
          { (((a.setNi n x).loadShapers n).port (.ni 0 n)).linkOnly with dead := true }).port (.ni 1 n)).linkOnly with dead := true }).pfLost
        (.ni n)) := ⟨_, _, rfl, rfl, rfl⟩
  have hni : (((a.setNi n x).loadShapers n).ni n).up = false ∧ (((a.setNi n x).loadShapers n).ni n).tags = [] := by
    rw [State.loadShapers, State.ni_updNi_same, State.ni_setNi_same]
    obtain ⟨h1, h2⟩ := NiSt.setShapers_kept (fun k => { rate := (a.setNi n x).rd (niB n) (shpRate k), burst := (a.setNi n x).rd (niB n) (shpBurst k) })
      (List.range 16) x
    exact ⟨h1.trans hup, h2.trans htags⟩
  rw [e]
  generalize (a.setNi n x).loadShapers n = b at hni
  have hdown : ((b.setPort (.ni 0 n) { (b.port (.ni 0 n)).linkOnly with dead := true }).setPort (.ni 1 n)
      { ((b.setPort (.ni 0 n) { (b.port (.ni 0 n)).linkOnly with dead := true }).port (.ni 1 n)).linkOnly with dead := true }).NiDown n :=
    ⟨hni.1, hni.2, State.port_setPort_dead rfl (.inl (State.port_setPort_dead rfl (.inr rfl))), State.port_setPort_dead rfl (.inr rfl)⟩
  generalize (b.setPort (.ni 0 n) { (b.port (.ni 0 n)).linkOnly with dead := true }).setPort (.ni 1 n)
    { ((b.setPort (.ni 0 n) { (b.port (.ni 0 n)).linkOnly with dead := true }).port (.ni 1 n)).linkOnly with dead := true } = c at hdown
  obtain ⟨hn, hp⟩ := c.pfLost_eq (.ni n)
  refine hdown.of_kept ?_ hp
  rw [State.ni, State.ni, hn]
  exact .refl _

theorem niReset (s : State) (n : Nat) : (s.niReset n).NiDown n := by
  have hfold : ∀ (l : List Port) (a : State), a.NiDown n → (l.foldl (fun a o => a.clearRtrPort o true) a).NiDown n := by
    intro l
    induction l with
    | nil => exact fun a h => h
    | cons o r ih => exact fun a h => ih _ (h.setPort rfl)
  exact (hfold _ _ (resetNi s n)).breakLock (16 + n) 2

end State.NiDown

theorem State.acts_rstNi {w : Nat} (hb : bitAt w 31 = true) (p : State) (m old : Nat) : p.acts m (homeUnit 0 .glb) 0xC4 w old =
    if p.hasNi (bitsAt w 0 8) = true then p.niReset (bitsAt w 0 8) else p := by
  have e : p.acts m (homeUnit 0 .glb) 0xC4 w old = if bitAt w 31 = true ∧ p.hasNi (bitsAt w 0 8) = true then p.niReset (bitsAt w 0 8) else p := rfl
  rw [e]
  simp only [hb, true_and]

theorem bitsAt_rstNi (v : Word) : bitsAt (v ||| 0x80000000#32).toNat 0 8 = bitsAt v.toNat 0 8 := by
  refine Nat.eq_of_testBit_eq fun i => ?_
  rw [testBit_bitsAt, testBit_bitsAt, BitVec.toNat_or, Nat.testBit_or]
  by_cases hi : i < 8
  · have h0 : Nat.testBit (BitVec.toNat 0x80000000#32) (0 + i) = false := by
      interval_cases i <;> rfl
    rw [h0, Bool.or_false]
  · rw [decide_eq_false hi, Bool.false_and, Bool.false_and]

theorem State.WordPut.hasNi {o : Nat} (h : s.WordPut o p) (n : Nat) : p.hasNi n = s.hasNi n := by
  rw [State.hasNi, h.rom, State.hasNi]

theorem exec_rstNiGo_of (h : s.Goes m (homeUnit 0 .glb) 0xC4 (v ||| 0x80000000#32).toNat) (hn : n = bitsAt v.toNat 0 8) (hs : s.hasNi n = true) :
    ∃ t : State, exec (.rstNiGo m v) s = .next t ∧ (t.port (.ni 0 n)).dead = true ∧ (t.port (.ni 1 n)).dead = true
      ∧ (t.ni n).up = false ∧ (t.ni n).tags = [] := by
  refine exec_store_acts (u := homeUnit 0 .glb) rfl h (fun _ => rfl) fun x => ?_
  have hb : bitAt (v ||| 0x80000000#32).toNat 31 = true := by rw [bitAt_or]; exact Bool.or_true _
  have hp := (s.wordPut_put m (homeUnit 0 .glb) 0xC4 (v ||| 0x80000000#32).toNat).hasNi n
  generalize s.put m (homeUnit 0 .glb) 0xC4 (v ||| 0x80000000#32).toNat = p at hp
  rw [State.acts_rstNi hb, bitsAt_rstNi, ← hn, hp, if_pos hs]
  have hr := State.NiDown.niReset p n
  generalize p.niReset n = t at hr
  exact ⟨hr.port0, hr.port1, hr.up, hr.tags⟩

theorem exec_rstNiGo_off (h : s.Goes m (homeUnit 0 .glb) 0xC4 (v ||| 0x80000000#32).toNat) (hs : s.hasNi (bitsAt v.toNat 0 8) = false) :
    ∃ t : State, exec (.rstNiGo m v) s = .next t ∧ t.nis = s.nis ∧ t.ports = s.ports := by
  refine exec_store_acts (u := homeUnit 0 .glb) rfl h (fun _ => rfl) fun x => ?_
  have hb : bitAt (v ||| 0x80000000#32).toNat 31 = true := by rw [bitAt_or]; exact Bool.or_true _
  have hw := s.wordPut_put m (homeUnit 0 .glb) 0xC4 (v ||| 0x80000000#32).toNat
  have hp := hw.hasNi (bitsAt v.toNat 0 8)
  have hports := congrArg State.ports hw.rest
  have hnis := hw.nis
  generalize s.put m (homeUnit 0 .glb) 0xC4 (v ||| 0x80000000#32).toNat = p at hp hports hnis
  rw [State.acts_rstNi hb, bitsAt_rstNi, hp, hs, if_neg (by decide)]
  exact ⟨hnis, hports⟩

end Sys2Proof.Machine
end

section
/-! SUPPORT. What the writes that claim a pin, map the boot memory, run a trace or enter a test mode leave (R317, R472, R624, R626, R629). -/

namespace Sys2Proof.Machine

variable {s p : State} {m k rel : Nat} {v : Word}

/-! ### Time sync (R317) -/

theorem State.word_pfPinLost (s : State) (k : Nat) {o : Nat} (ho : o < evtB) : (s.pfPinLost k).word o = s.word o := by
  have hgive (a : State) (kind who : Nat) : (a.give kind who).word o = a.word o := by
    unfold State.give
    dsimp only
    split
    · rfl
    · rfl
  have hcancel (a : State) (i : Nat) : (a.pfCancel i).word o = a.word o := by
    rw [State.pfCancel, hgive, State.pfGo, State.word_wr_ne _ _ _ _ (by
      show o ≠ 0x90000 + _
      simp only [evtB] at ho
      omega)]
    rfl
  have hround : ∀ (l : List Nat) (a : State), (l.foldl (fun a i =>
      if (a.pf i).held = false ∨ (a.pf i).pin ≠ k then a
      else if (a.setPf i { a.pf i with held := false }).pfState i = 1
        then ((a.setPf i { a.pf i with held := false }).pfCancel i).glEvent 2 1 else a.setPf i { a.pf i with held := false }) a).word o
      = a.word o := by
    intro l
    induction l with
    | nil => exact fun a => rfl
    | cons i r ih =>
      intro a
      rw [List.foldl_cons, ih]
      split
      · rfl
      · split
        · exact ((State.keepsAt_glEvent _ (by decide) 1).1 o (.inl ho)).trans (hcancel _ i)
        · rfl
  exact hround _ s

theorem State.word_trcPinLost (s : State) {o : Nat} (ho : o < evtB) : s.trcPinLost.word o = s.word o := by
  unfold State.trcPinLost
  split
  · rfl
  · exact ((State.keepsAt_glEvent _ (by decide) 4).1 o (.inl ho)).trans (s.word_wr_ne _ _ _ (by
      show o ≠ 0xC0000 + 0x10
      simp only [evtB] at ho
      omega))

/-- Pin `k` is time sync's, with its enable set. -/
def State.syncTaken (s : State) (k : Nat) : State := (s.setPin k 1 0).wr timB (F.TIM_EVT0_SYNC_EN.ix k) 1

theorem State.syncTaken_spec (s : State) (hk : k < 4) : (s.syncTaken k).flag timB (F.TIM_EVT0_SYNC_EN.ix k) = true ∧ (s.syncTaken k).pinOwner k = 1 := by
  refine ⟨State.flag_wr_same _ _ _ _ (show 0 + 1 ≤ 32 by decide), ?_⟩
  rw [State.pinOwner, State.syncTaken, State.rd_wr_ne _ _ _ _ _ _ (by
    show 0x10000 + (0x300 + 4 * k) ≠ 0x20000 + (0x80 + 8 * k)
    omega)]
  exact s.pinOwner_setPin_same hk 0 (by decide)

/-- What a claim by time sync leaves in the words below the event unit: the pin is taken, and another owner is told (R317, R500). -/
theorem State.syncEn_on (s : State) (k : Nat) : (s.pinOwner k < 2 → s.syncEn k true = s.syncTaken k)
    ∧ (2 ≤ s.pinOwner k → ∀ o, o < evtB → (s.syncEn k true).word o =
      ((s.syncTaken k).wr strB (F.STR_CLAIM_PIN_PREEMPT.ix k) 1).word o) := by
  constructor
  · intro h
    have h01 : s.pinOwner k = 0 ∨ s.pinOwner k = 1 := by omega
    unfold State.syncEn
    rw [if_pos rfl, if_pos h01]
    rfl
  · intro h o ho
    have hn : ¬ (s.pinOwner k = 0 ∨ s.pinOwner k = 1) := by omega
    have hev := ((s.syncTaken k).wr strB (F.STR_CLAIM_PIN_PREEMPT.ix k) 1).keepsAt_glEvent (g := 6) (by decide) 1
    unfold State.syncEn
    rw [if_pos rfl, if_neg hn]
    refine Eq.trans ?_ (hev.1 o (.inl ho))
    dsimp only
    split
    · exact State.word_pfPinLost _ k ho
    · have hni (a : State) (n : Nat) (f : Fld) (v : Nat) : (a.wr (niB n) f v).word o = a.word o := a.word_wr_ne _ _ _ (by
        simp only [evtB, niB] at ho ⊢
        omega)
      exact ((State.KeepsAt.notice_off (fun _ h => h) _ _ 3).1 o ho).trans ((hni _ _ _ _).trans (hni _ _ _ _))
    · exact State.word_trcPinLost _ ho

theorem State.syncEn_on_spec (s : State) (hk : k < 4) : (s.syncEn k true).flag timB (F.TIM_EVT0_SYNC_EN.ix k) = true
    ∧ (s.syncEn k true).pinOwner k = 1 ∧ (2 ≤ s.pinOwner k → (s.syncEn k true).flag strB (F.STR_CLAIM_PIN_PREEMPT.ix k) = true) := by
  obtain ⟨hfree, htold⟩ := s.syncEn_on k
  obtain ⟨hen, howner⟩ := s.syncTaken_spec hk
  by_cases h2 : 2 ≤ s.pinOwner k
  · have hrd (b : Nat) (f : Fld) (ho : b + f.off < evtB) :
        (s.syncEn k true).rd b f = ((s.syncTaken k).wr strB (F.STR_CLAIM_PIN_PREEMPT.ix k) 1).rd b f := by
      rw [State.rd, htold h2 _ ho, State.rd]
    have ht : timB + (F.TIM_EVT0_SYNC_EN.ix k).off < evtB := by
      show 0x20000 + (0x80 + 8 * k) < 0x50000
      omega
    have hs : strB + (F.STR_CLAIM_PIN_OWNER.ix k).off < evtB := by
      show 0x10000 + (0x300 + 4 * k) < 0x50000
      omega
    refine ⟨?_, ?_, fun _ => ?_⟩
    · rw [State.flag, hrd _ _ ht, State.rd_wr_ne _ _ _ _ _ _ (by
        show 0x20000 + (0x80 + 8 * k) ≠ 0x10000 + (0x300 + 4 * k)
        omega)]
      exact hen
    · rw [State.pinOwner, hrd _ _ hs, State.rd_wr_apart _ strB (F.STR_CLAIM_PIN_PREEMPT.ix k) (F.STR_CLAIM_PIN_OWNER.ix k) 1 rfl
        (show 16 + 1 ≤ 32 by decide) (.inr (show 0 + 3 ≤ 16 by decide))]
      exact howner
    · rw [State.flag, hrd strB (F.STR_CLAIM_PIN_PREEMPT.ix k) hs, State.rd_wr_same _ strB (F.STR_CLAIM_PIN_PREEMPT.ix k) 1 (show 16 + 1 ≤ 32 by decide)]
      rfl
  · rw [hfree (by omega)]
    exact ⟨hen, howner, fun h => absurd h h2⟩

theorem State.syncEn_off_spec (s : State) (hk : k < 4) : (s.syncEn k false).flag timB (F.TIM_EVT0_SYNC_EN.ix k) = false
    ∧ (s.syncEn k false).pinOwner k = (if s.pinOwner k = 1 then 0 else s.pinOwner k) := by
  have e : s.syncEn k false = (s.freePin k 1).wr timB (F.TIM_EVT0_SYNC_EN.ix k) 0 := rfl
  rw [e]
  refine ⟨State.flag_wr_same _ _ _ _ (show 0 + 1 ≤ 32 by decide), ?_⟩
  rw [State.pinOwner, State.rd_wr_ne _ _ _ _ _ _ (by
    show 0x10000 + (0x300 + 4 * k) ≠ 0x20000 + (0x80 + 8 * k)
    omega)]
  exact s.freePin_same 1 hk

theorem State.acts_evtCtl (hk : k < 4) (p : State) (m w old : Nat) :
    p.acts m (homeUnit 2 .tim) (0x80 + 8 * k) w old = p.syncEn k (bitAt w 0) := by
  have e : p.acts m (homeUnit 2 .tim) (0x80 + 8 * k) w old = p.actTim (0x80 + 8 * k) w := rfl
  rw [e, State.actTim.eq_def]
  split
  next h => omega
  next => rw [if_pos ⟨by omega, by omega, by omega⟩, show (0x80 + 8 * k - 0x80) / 8 = k by omega]

theorem enSrcs_tim (r : Rom) (rel : Nat) : enSrcs r (homeUnit 2 .tim) rel = [] := rfl

/-- A write of a pin's event register, as the work of time sync's enable on the state with the word put. -/
theorem exec_syncEnWrite_acts {P : State → Prop} (hk : k < 4) (h : s.Goes m (homeUnit 2 .tim) (0x80 + 8 * k) v.toNat)
    (hP : ∀ p : State, p.pinOwner k = s.pinOwner k → ∀ x : Cmx, P ((p.syncEn k (bitAt v.toNat 0)).updCmx (fun _ => x))) :
    ∃ t : State, exec (.syncEnWrite m k v) s = .next t ∧ P t := by
  have hx : exec (.syncEnWrite m k v) s = .next (s.store m (timB + (0x80 + 8 * k)) v) := by
    refine (guardUnit_of (decide_eq_true hk) _ _).trans ?_
    rw [Nat.add_assoc timB]
  have hp : s.WordPut (timB + (0x80 + 8 * k)) (s.put m (homeUnit 2 .tim) (0x80 + 8 * k) v.toNat) :=
    s.wordPut_put m (homeUnit 2 .tim) (0x80 + 8 * k) v.toNat
  have ho : (s.put m (homeUnit 2 .tim) (0x80 + 8 * k) v.toNat).pinOwner k = s.pinOwner k := hp.rd (by
    show 0x10000 + (0x300 + 4 * k) ≠ 0x20000 + (0x80 + 8 * k)
    omega)
  rw [hx]
  refine exec_store_acts (u := homeUnit 2 .tim) rfl h (fun r => enSrcs_tim r _) fun x => ?_
  rw [State.acts_evtCtl hk]
  exact hP _ ho x

theorem exec_syncEnWrite_on (hk : k < 4) (h : s.Goes m (homeUnit 2 .tim) (0x80 + 8 * k) v.toNat) (hv : bitAt v.toNat 0 = true) :
    ∃ t : State, exec (.syncEnWrite m k v) s = .next t ∧ t.flag timB (F.TIM_EVT0_SYNC_EN.ix k) = true ∧ t.pinOwner k = 1
      ∧ (2 ≤ s.pinOwner k → t.flag strB (F.STR_CLAIM_PIN_PREEMPT.ix k) = true) :=
  exec_syncEnWrite_acts hk h fun p ho x => by
    have hr := p.syncEn_on_spec hk
    rw [hv]
    rw [ho] at hr
    generalize p.syncEn k true = t at hr
    exact hr

theorem exec_syncEnWrite_off (hk : k < 4) (h : s.Goes m (homeUnit 2 .tim) (0x80 + 8 * k) v.toNat) (hv : bitAt v.toNat 0 = false) :
    ∃ t : State, exec (.syncEnWrite m k v) s = .next t ∧ t.flag timB (F.TIM_EVT0_SYNC_EN.ix k) = false
      ∧ t.pinOwner k = (if s.pinOwner k = 1 then 0 else s.pinOwner k) :=
  exec_syncEnWrite_acts hk h fun p ho x => by
    have hr := p.syncEn_off_spec hk
    rw [hv]
    rw [ho] at hr
    generalize p.syncEn k false = t at hr
    exact hr

/-! ### REMAP (R472) -/

/-- A locked field of a write that is not refused is written as it is (R463). -/
theorem State.unchanged_of_not_refused {u : Un} {x : RSpec} {f : FSpec} {w : Nat} (hx : u.row rel x) (hf : f ∈ x.fields) (hw : f.writable = true)
    (hg : s.guarded m u rel f = true) (h : s.refuses m u [(rel, w)] = false) :
    f.written (bitsAt (s.view u rel).toNat f.lo f.w) (bitsAt w f.lo f.w) = bitsAt (s.view u rel).toNat f.lo f.w := by
  by_contra hne
  have hchanged : ∀ fs : List (Bool × Bool), (true, true) ∈ fs →
      (fs.any (fun p => p.1) && (fs.any (fun p => p.1 && p.2) || fs.all (fun p => p.1))) = true := fun fs hp => by
    rw [List.any_eq_true.mpr ⟨_, hp, rfl⟩, List.any_eq_true.mpr ⟨_, hp, rfl⟩]
    rfl
  have hr : s.refuses m u [(rel, w)] = true := by
    refine hchanged _ (List.mem_flatMap.mpr ⟨(rel, w), List.mem_singleton.mpr rfl, ?_⟩)
    simp only [hx]
    exact List.mem_map.mpr ⟨f, List.mem_filter.mpr ⟨hf, hw⟩, Prod.ext hg (bne_iff_ne.mpr hne)⟩
  exact nomatch hr.symm.trans h

theorem word_and_all (w : Word) : w &&& BitVec.ofNat 32 (2 ^ 32 - 1) = w := BitVec.and_allOnes

/-- A register of CMX.CTL's word reads as it stands. -/
theorem State.view_cmxCtl (s : State) : s.view (homeUnit 7 .cmx) 0 = s.word cmxB := word_and_all _

theorem rowHas_remap : RowHas .cmx 0 F.CMX_CTL_REMAP ⟨0, 1, .rwl, .v 0, .m12, true⟩ := by decide +kernel

theorem exec_remapWrite_of (h : s.Goes m (homeUnit 7 .cmx) 0 v.toNat) :
    ∃ t : State, exec (.remapWrite m v) s = .next t ∧ t.flag cmxB F.CMX_CTL_REMAP = bitAt v.toNat 0 := by
  refine exec_store_acts (u := homeUnit 7 .cmx) rfl h (fun _ => rfl) fun x => ?_
  obtain ⟨-, -, -, -, -, href⟩ := h
  have hbits : bitAt (actBits .cmx 0) 0 = false := by decide
  have e : (s.put m (homeUnit 7 .cmx) 0 v.toNat).acts m (homeUnit 7 .cmx) 0 v.toNat (s.oldView (homeUnit 7 .cmx) 0 m v.toNat) =
      s.put m (homeUnit 7 .cmx) 0 v.toNat := rfl
  have hrd : (s.put m (homeUnit 7 .cmx) 0 v.toNat).rd cmxB F.CMX_CTL_REMAP = bitsAt v.toNat 0 1 := by
    obtain ⟨y, hy, hd⟩ := (Option.any_eq_true _ _).mp rowHas_remap
    obtain ⟨-, -, -, hhas⟩ := of_decide_eq_true hd
    by_cases hg : (s.atTarget m 7 (wreq (homeUnit 7 .cmx) 0 v.toNat)).guarded m (homeUnit 7 .cmx) 0 ⟨0, 1, .rwl, .v 0, .m12, true⟩ = true
    · have hsame := State.unchanged_of_not_refused hy hhas.1 rfl hg href
      rw [State.view_cmxCtl] at hsame
      have hkept : (s.put m (homeUnit 7 .cmx) 0 v.toNat).rd cmxB F.CMX_CTL_REMAP = s.rd cmxB F.CMX_CTL_REMAP := by
        have hput := State.bitsAt_fieldsPut_kept (s := s.atTarget m 7 (wreq (homeUnit 7 .cmx) 0 v.toNat)) (m := m) (u := homeUnit 7 .cmx)
          (rel := 0) (v := v.toNat) (s.word cmxB).toNat (lo := 0) (w := 1) y.fields (fun g hmem => by
            rcases Bool.or_eq_true _ _ |>.mp (List.all_eq_true.mp hhas.2.1 g hmem) with h | h
            · rw [beq_iff_eq.mp h]
              exact .inl (.inr (.inr (.inl hg)))
            · exact .inr (of_decide_eq_true h)) (s.word cmxB).toNat
        have hlt := State.fieldsPut_lt (s := s.atTarget m 7 (wreq (homeUnit 7 .cmx) 0 v.toNat)) (m := m) (u := homeUnit 7 .cmx)
          (rel := 0) (v := v.toNat) (s.word cmxB).toNat y.fields
          (fun g hmem => of_decide_eq_true (List.all_eq_true.mp hhas.2.2 g hmem)) _ (s.word cmxB).isLt
        rw [State.put, State.putReg_eq hy, State.rd]
        rw [show cmxB + F.CMX_CTL_REMAP.off = (homeUnit 7 .cmx).base + 0 from rfl, State.word_setWord_same, BitVec.toNat_ofNat]
        exact (congrArg (fun a => bitsAt a 0 1) (Nat.mod_eq_of_lt hlt)).trans hput
      exact hkept.trans hsame.symm
    · have hput := State.rd_put_put (s := s) (m := m) (u := homeUnit 7 .cmx) (v := v.toNat) rowHas_remap (by
        rintro (h | h | h | h)
        · exact nomatch h
        · exact nomatch h
        · exact hg h
        · exact nomatch h.symm.trans hbits)
      exact hput.trans (Nat.mod_eq_of_lt (bitsAt_lt _ _ _))
  rw [e, State.flag_updCmx, State.flag, hrd, bitAt_eq]

/-! ### The trace (R624, R629) -/

theorem State.view_dbg (s : State) (rel : Nat) : s.view dbgUnit rel = s.word (dbgB + rel) := word_and_all _

theorem State.oldView_trcCtl (s : State) (m w : Nat) : bitAt (s.oldView dbgUnit 0x10 m w) 0 = s.flag dbgB F.DBG_TRC_CTL_EN := by
  rw [State.oldView, State.view_dbg, bitAt_eq]
  rfl

/-- The work of a write of DBG.TRC_CTL. -/
theorem State.acts_trcCtl (p : State) (m w old : Nat) : p.acts m dbgUnit 0x10 w old =
    if bitAt w 0 = bitAt old 0 then p else if bitAt w 0 then p.trcArm else p.trcStop := rfl

theorem rowKeeps_trcEn : RowKeeps .dbg 0x10 F.DBG_TRC_CTL_EN := by decide +kernel

theorem rowHas_trcStart : RowHas .dbg 0x10 F.DBG_TRC_CTL_START ⟨1, 2, .rwl, .v 0, .dbgDis, false⟩ := by decide +kernel

theorem exec_trcEnWrite_arms (h : s.Goes m dbgUnit 0x10 v.toNat) (hv : bitsAt v.toNat 0 3 = 1) (hen : s.flag dbgB F.DBG_TRC_CTL_EN = false) :
    ∃ t : State, exec (.trcEnWrite m v) s = .next t ∧ t.flag dbgB F.DBG_TRC_CTL_EN = true ∧ t.trcRun = true := by
  refine exec_store_acts (u := dbgUnit) rfl h (fun _ => rfl) fun x => ?_
  obtain ⟨⟨-, -, -, -, -, -, -, -, -, hdis, -⟩, -⟩ := h
  have h0 : bitAt v.toNat 0 = true := bitAt_of_bitsAt (lo := 0) hv 0 (by decide)
  have hbits : bitAt (actBits .dbg 0x10) 1 = false := by decide
  have hstart := State.rd_put_put (s := s) (m := m) (u := dbgUnit) (v := v.toNat) rowHas_trcStart (by
    rintro (h | h | h | h)
    · exact nomatch h
    · exact nomatch h
    · have hg : (s.atTarget m 10 (wreq dbgUnit 0x10 v.toNat)).guarded m dbgUnit 0x10 ⟨1, 2, .rwl, .v 0, .dbgDis, false⟩ = s.dbgDis :=
        (Bool.or_false _).trans (Bool.or_false _)
      exact nomatch h.symm.trans (hg.trans (hdis (.inl rfl)))
    · exact nomatch h.symm.trans hbits)
  have hzero : bitsAt v.toNat 1 2 = 0 := by
    have h3 : v.toNat / 2 ^ 0 % 2 ^ 3 = 1 := hv
    show v.toNat / 2 ^ 1 % 2 ^ 2 = 0
    omega
  have hst : (s.put m dbgUnit 0x10 v.toNat).rd dbgB F.DBG_TRC_CTL_START = 0 :=
    hstart.trans ((Nat.mod_eq_of_lt (bitsAt_lt _ _ _)).trans hzero)
  rw [State.acts_trcCtl, State.oldView_trcCtl, h0, hen, if_neg (by decide), if_pos rfl]
  obtain ⟨hf, hrun⟩ := State.trcArm_of_started (s := s.put m dbgUnit 0x10 v.toNat) (by rw [hst]; decide)
  rw [hst, if_neg (by decide)] at hrun
  generalize (s.put m dbgUnit 0x10 v.toNat).trcArm = t at hf hrun
  exact ⟨hf, hrun⟩

theorem exec_trcEnWrite_stops (h : s.Goes m dbgUnit 0x10 v.toNat) (hv : bitAt v.toNat 0 = false) (hen : s.flag dbgB F.DBG_TRC_CTL_EN = true) :
    ∃ t : State, exec (.trcEnWrite m v) s = .next t ∧ t.flag dbgB F.DBG_TRC_CTL_EN = false ∧ t.trcRun = false ∧ ∀ k, k < 4 → t.pinOwner k ≠ 4 := by
  refine exec_store_acts (u := dbgUnit) rfl h (fun _ => rfl) fun x => ?_
  rw [State.acts_trcCtl, State.oldView_trcCtl, hv, hen, if_neg (by decide), if_neg (by decide)]
  obtain ⟨hrun, hf, -, hpins⟩ := (s.put m dbgUnit 0x10 v.toNat).trcStop_spec
  generalize (s.put m dbgUnit 0x10 v.toNat).trcStop = t at hrun hf hpins
  exact ⟨hf, hrun, hpins⟩

theorem exec_trcEnWrite_same (h : s.Goes m dbgUnit 0x10 v.toNat) (hv : bitAt v.toNat 0 = s.flag dbgB F.DBG_TRC_CTL_EN) :
    ∃ t : State, exec (.trcEnWrite m v) s = .next t ∧ t.trcRun = s.trcRun ∧ t.flag dbgB F.DBG_TRC_CTL_EN = s.flag dbgB F.DBG_TRC_CTL_EN := by
  refine exec_store_acts (u := dbgUnit) rfl h (fun _ => rfl) fun x => ?_
  have hrun := congrArg State.trcRun (s.wordPut_put m dbgUnit 0x10 v.toNat).rest
  have hf := State.flag_put_kept (s := s) (m := m) (u := dbgUnit) rowKeeps_trcEn v.toNat
  rw [State.acts_trcCtl, State.oldView_trcCtl, if_pos hv]
  generalize s.put m dbgUnit 0x10 v.toNat = p at hrun hf
  exact ⟨hrun, hf⟩

/-! ### Test modes and the Starter core's reset (R626, R502) -/

/-- The work of a write of DBG.TEST_CTL. -/
theorem State.acts_testCtl (p : State) (m w old : Nat) : p.acts m dbgUnit 4 w old =
    if bitAt w 8 then (if m = 1 ∨ m = 2 then p.testMode (bitsAt w 0 2) else p).coreReset
    else if m = 1 ∨ m = 2 then p.testMode (bitsAt w 0 2) else p := rfl

theorem State.rd_put_test (s : State) (m w : Nat) : (s.put m dbgUnit 4 w).rd dbgB F.DBG_STAT_TEST = s.rd dbgB F.DBG_STAT_TEST := by
  have hp : s.WordPut (dbgB + 4) (s.put m dbgUnit 4 w) := s.wordPut_put m dbgUnit 4 w
  exact hp.rd (by decide)

theorem State.testMode_enter (h : s.rd dbgB F.DBG_STAT_TEST = 0) : s.testMode 1 = s.testEnter 1 := by
  rw [State.testMode, h]
  rfl

theorem State.testMode_same {x : Nat} (h : s.rd dbgB F.DBG_STAT_TEST = 2 ∨ x = 3 ∨ x = s.rd dbgB F.DBG_STAT_TEST) : s.testMode x = s := if_pos h

theorem exec_testModeWrite_enters (h : s.Goes m dbgUnit 4 v.toNat) (hm : m = 1 ∨ m = 2) (hv : bitsAt v.toNat 0 2 = 1) (h8 : bitAt v.toNat 8 = false)
    (ht : s.rd dbgB F.DBG_STAT_TEST = 0) : ∃ t : State, exec (.testModeWrite m v) s = .next t ∧ t.rd dbgB F.DBG_STAT_TEST = 1 := by
  refine exec_store_acts (u := dbgUnit) rfl h (fun _ => rfl) fun x => ?_
  have ht' := (s.rd_put_test m v.toNat).trans ht
  rw [State.acts_testCtl, h8, if_neg (by decide), if_pos hm, hv, State.testMode_enter ht']
  obtain ⟨hr, -⟩ := (s.put m dbgUnit 4 v.toNat).rd_testEnter (mode := 1) (by decide)
  generalize (s.put m dbgUnit 4 v.toNat).testEnter 1 = t at hr
  exact hr

theorem exec_testModeWrite_leaves (h : s.Goes m dbgUnit 4 v.toNat) (hm : m = 1 ∨ m = 2) (hv : bitsAt v.toNat 0 2 = 0) (h8 : bitAt v.toNat 8 = false)
    (ht : s.rd dbgB F.DBG_STAT_TEST = 1) : ∃ t : State, exec (.testModeWrite m v) s = .next t ∧ t.rd dbgB F.DBG_STAT_TEST = 0
      ∧ t.rd dbgB F.DBG_TEST_CTL_MODE = 0 := by
  refine exec_store_acts (u := dbgUnit) rfl h (fun _ => rfl) fun x => ?_
  have ht' := (s.rd_put_test m v.toNat).trans ht
  rw [State.acts_testCtl, h8, if_neg (by decide), if_pos hm, hv, State.testMode_leave ht']
  have hr := (s.put m dbgUnit 4 v.toNat).rd_testLeave
  generalize (s.put m dbgUnit 4 v.toNat).testLeave = t at hr
  exact hr

theorem exec_testModeWrite_same (h : s.Goes m dbgUnit 4 v.toNat) (h8 : bitAt v.toNat 8 = false)
    (hc : m ≠ 1 ∧ m ≠ 2 ∨ s.rd dbgB F.DBG_STAT_TEST = 2 ∨ bitsAt v.toNat 0 2 = 3 ∨ bitsAt v.toNat 0 2 = s.rd dbgB F.DBG_STAT_TEST) :
    ∃ t : State, exec (.testModeWrite m v) s = .next t ∧ t.rd dbgB F.DBG_STAT_TEST = s.rd dbgB F.DBG_STAT_TEST ∧ t.trc = s.trc ∧ t.nis = s.nis := by
  refine exec_store_acts (u := dbgUnit) rfl h (fun _ => rfl) fun x => ?_
  have ht := s.rd_put_test m v.toNat
  have hw := s.wordPut_put m dbgUnit 4 v.toNat
  have htrc := congrArg State.trc hw.rest
  have hnis := hw.nis
  generalize s.put m dbgUnit 4 v.toNat = p at ht htrc hnis
  have hsame : (if m = 1 ∨ m = 2 then p.testMode (bitsAt v.toNat 0 2) else p) = p := by
    rw [← ht] at hc
    rcases hc with ⟨h1, h2⟩ | hc
    · exact if_neg (by rintro (h | h); exacts [h1 h, h2 h])
    · rw [State.testMode_same hc]
      exact ite_self p
  rw [State.acts_testCtl, h8, if_neg (by decide), hsame]
  exact ⟨ht, htrc, hnis⟩

theorem exec_strRstWrite_of (h : s.Goes m dbgUnit 4 (v ||| 0x100#32).toNat) :
    ∃ t : State, exec (.strRstWrite m v) s = .next t ∧ t.cmds = [] ∧ t.rd strB F.STR_BOOT_STATE = 0 := by
  refine exec_store_acts (u := dbgUnit) rfl h (fun _ => rfl) fun x => ?_
  have h8 : bitAt (v ||| 0x100#32).toNat 8 = true := by rw [bitAt_or]; exact Bool.or_true _
  rw [State.acts_testCtl, h8, if_pos rfl]
  generalize (if m = 1 ∨ m = 2 then (s.put m dbgUnit 4 (v ||| 0x100#32).toNat).testMode (bitsAt (v ||| 0x100#32).toNat 0 2)
    else s.put m dbgUnit 4 (v ||| 0x100#32).toNat) = a
  obtain ⟨hcmds, hboot, -⟩ := a.coreReset_spec
  generalize a.coreReset = t at hcmds hboot
  exact ⟨hcmds, hboot⟩

end Sys2Proof.Machine
end

section
/-! SUPPORT. Each register write does what its register is for (O52). -/

namespace Sys2Proof.Machine

/-- A routing table is an NI's or a Span port's. -/
theorem State.rtabUnit_of {s : State} {n e w rel b : Nat} {u : Un} (h : n < 256 ∧ s.hasNi n = true ∧ u = niUnit n ∧ rel = 0x1000 + 16 * e + 8 * w
    ∨ b = n - 256 ∧ 256 ≤ n ∧ s.hasSpan b = true ∧ u = { kind := .sp, i := b, base := spB b, target := 592 + b }
      ∧ rel = 0x4000 + 16 * e + 8 * w) : ∃ R, RtabUnit s n u R ∧ rel = R + 16 * e + 8 * w := by
  rcases h with ⟨hn, hs, hu, hrel⟩ | ⟨hb, hn, hs, hu, hrel⟩
  · exact ⟨0x1000, .inl ⟨hn, hs, hu, rfl⟩, hrel⟩
  · rw [hb] at hs hu
    exact ⟨0x4000, .inr ⟨hn, hs, hu, rfl⟩, hrel⟩

/-- Settles O52: a write that goes puts its word and does its register's work, which a lemma above states for each command. -/
theorem registerWritesAct : Obligations.RegisterWritesAct := by
  unfold Obligations.RegisterWritesAct
  refine ⟨fun s m n u => ⟨fun e w x rel b hat he hw hr hx => ?_, fun hn hu => ?_⟩, fun s m n v u hn hu => ?_, fun s m v blk hblk => ?_⟩
  · obtain ⟨R, hrtab, rfl⟩ := State.rtabUnit_of hat
    exact ⟨fun hwire hno => exec_rtabRawWrite_puts hrtab he hw hr hx hwire hno, fun hwire hno => exec_rtabRawWrite_wired hrtab he hw hr hx hwire hno⟩
  · exact ⟨fun j w v hj hw h => exec_sc0RsvWrite_of hn hu hj hw h, fun k w v hk h8 hw h => exec_shaperWrite_of hn hu hk h8 hw h⟩
  · refine ⟨exec_latMaxClr_of hn hu, exec_histEnWrite_off hn hu, exec_histEnWrite_on hn hu, fun q h hq hpkts => ?_, exec_qShareWrite_none hn hu,
      fun q h hq hpkts => ?_, exec_sampClr_of hn hu, fun h hv hpend => ⟨exec_gateSwap_starts hn hu h hv hpend, exec_gateSwap_fails hn hu h hv hpend⟩,
      exec_gateCancel_of hn hu, fun k => exec_markEnWrite_claims hn hu, fun k => exec_markEnWrite_taken hn hu, exec_markEnWrite_off hn hu,
      exec_gateSwap_pending hn hu, exec_reorderWrite_preempts hn hu, exec_reorderWrite_claims hn hu, exec_migSwap_of hn hu,
      fun h hv h3 _ ho => exec_migStage_claims hn hu h hv h3 ho, fun h hv _ ho => exec_migStage_owned hn hu h hv ho, exec_migStage_frees hn hu,
      exec_migHold_off hn hu, exec_migHold_on hn hu, exec_sbEnClear_of hn hu, exec_sbLogClr_of hn hu⟩
    · obtain ⟨t, ht, hpend⟩ := exec_qShareWrite_of hn hu h hq
      rw [if_neg (by rwa [List.isEmpty_iff])] at hpend
      exact ⟨t, ht, by rw [hpend], by rw [hpend]⟩
    · obtain ⟨t, ht, hpend⟩ := exec_qShareWrite_of hn hu h hq
      rw [if_pos (by rwa [List.isEmpty_iff])] at hpend
      exact ⟨t, ht, hpend⟩
  · subst hblk
    refine ⟨exec_nowCap_of, exec_skewClr_of, exec_elockSet_of, fun k => exec_syncEnWrite_on, fun k => exec_syncEnWrite_off,
      fun g => exec_rstCtlRegion_of, fun n => exec_rstNiGo_of, exec_rstNiGo_off, exec_firstLogClr_of, exec_nextLogClr_of, exec_crcCommitTake_of,
      exec_crcCommitGiven_of, fun d hd => ?_, exec_remapWrite_of, exec_loadStart_of, exec_loadStart_off, fun i q => exec_loadData_of,
      exec_loadGo_of, exec_wdogKick_of, fun k => exec_mbxDoorbell_free, fun k => exec_mbxDoorbell_busy⟩
    subst hd
    exact ⟨exec_trcEnWrite_arms, exec_testModeWrite_enters, exec_trcEnWrite_stops, exec_trcEnWrite_same, exec_testModeWrite_same,
      exec_testModeWrite_leaves, exec_strRstWrite_of⟩

end Sys2Proof.Machine
end
